-- ==== Sys2Proof/Word.lean ====
section
/-! DEFINITION. The words of the ZM9, its bytes and little-endian packing (R7, R8), and the sparse table that
every numbered set of like things (ports, channels, descriptors) is kept in. -/

namespace Sys2Proof

abbrev Byte := BitVec 8
abbrev U16 := BitVec 16
abbrev U32 := BitVec 32
abbrev U64 := BitVec 64

/-- Fields wider than a byte are little-endian (R8). -/
def le16 (v : U16) : List Byte := [v.extractLsb' 0 8, v.extractLsb' 8 8]

def le32 (v : U32) : List Byte :=
  [v.extractLsb' 0 8, v.extractLsb' 8 8, v.extractLsb' 16 8, v.extractLsb' 24 8]

def le64 (v : U64) : List Byte := le32 (v.extractLsb' 0 32) ++ le32 (v.extractLsb' 32 32)

def byteOf (n : Nat) : Byte := BitVec.ofNat 8 n
def n16 (n : Nat) : List Byte := le16 (BitVec.ofNat 16 n)
def n32 (n : Nat) : List Byte := le32 (BitVec.ofNat 32 n)
def n64 (n : Nat) : List Byte := le64 (BitVec.ofNat 64 n)
def i16 (n : Int) : List Byte := le16 (BitVec.ofInt 16 n)
def i32 (n : Int) : List Byte := le32 (BitVec.ofInt 32 n)
def i64 (n : Int) : List Byte := le64 (BitVec.ofInt 64 n)
def bool8 (b : Bool) : List Byte := [if b then 1 else 0]
def zeros (n : Nat) : List Byte := List.replicate n 0

/-- A number made of the bits whose positions satisfy `f`, below `n`. -/
def maskOf (n : Nat) (f : Nat → Bool) : Nat :=
  (List.range n).foldl (fun a i => if f i then a + 2 ^ i else a) 0

/-- A counter that stops at `top` (saturating counters of the field maps). -/
def satInc (top n : Nat) : Nat := if n < top then n + 1 else top

/-- `a` is later than `b`: the difference lies in 1 to 2^31 − 1 (R67, R52). -/
def later (a b : U32) : Bool :=
  let d := (a - b).toNat
  decide (1 ≤ d) && decide (d ≤ 2147483647)

/-- A sparse table: a key that is not listed holds the table's default. Keys rise strictly when the table is
built by `set`. -/
structure Tbl (α : Type) where
  cells : List (Nat × α)
  deriving DecidableEq, Repr

namespace Tbl

def empty {α : Type} : Tbl α := ⟨[]⟩

def find {α : Type} : List (Nat × α) → Nat → Option α
  | [], _ => none
  | (j, v) :: r, k => if j = k then some v else find r k

def get? {α : Type} (t : Tbl α) (k : Nat) : Option α := find t.cells k

/-- The entry at `k`, or the default `d`. -/
def getD {α : Type} (t : Tbl α) (d : α) (k : Nat) : α := (find t.cells k).getD d

def insert {α : Type} : List (Nat × α) → Nat → α → List (Nat × α)
  | [], k, v => [(k, v)]
  | (j, w) :: r, k, v =>
    if k < j then (k, v) :: (j, w) :: r
    else if k = j then (k, v) :: r
    else (j, w) :: insert r k v

def set {α : Type} (t : Tbl α) (k : Nat) (v : α) : Tbl α := ⟨insert t.cells k v⟩

def erase {α : Type} (t : Tbl α) (k : Nat) : Tbl α := ⟨t.cells.filter (fun c => c.1 != k)⟩

/-- Change the entry at `k`, taking the default `d` where none is listed. -/
def modify {α : Type} (t : Tbl α) (d : α) (k : Nat) (f : α → α) : Tbl α := t.set k (f (t.getD d k))

/-- Change every listed entry. -/
def mapAll {α : Type} (t : Tbl α) (f : Nat → α → α) : Tbl α := ⟨t.cells.map (fun c => (c.1, f c.1 c.2))⟩

def keys {α : Type} (t : Tbl α) : List Nat := t.cells.map (·.1)

/-- Set the entries of several keys to what `f` makes of each. -/
def updateKeys {α : Type} (t : Tbl α) (d : α) (ks : List Nat) (f : Nat → α → α) : Tbl α :=
  ks.foldl (fun u k => u.set k (f k (u.getD d k))) t

end Tbl

/-- Cut a list to its first `n` entries, dropping the oldest when the newest stands first. -/
def keepNewest {α : Type} (n : Nat) (l : List α) : List α := l.take n

end Sys2Proof
end

