-- ==== Sys2Proof/Machine/Mem.lean ====
section
/-! DEFINITION. Addressed buffers: a list of (address, byte) pairs with addresses strictly rising and no byte 0 listed; an
unlisted address reads 0. -/

namespace Sys2Proof.Machine

abbrev Memory := List (Nat × Byte)

/-- The byte at an address. -/
def memGet : Memory → Nat → Byte
  | [], _ => 0
  | (b, v) :: r, a => if a = b then v else memGet r a

/-- Write one byte; a 0 removes the entry. -/
def memSet : Memory → Nat → Byte → Memory
  | [], a, v => if v = 0 then [] else [(a, v)]
  | (b, w) :: r, a, v =>
    if a < b then (if v = 0 then (b, w) :: r else (a, v) :: (b, w) :: r)
    else if a = b then (if v = 0 then r else (a, v) :: r)
    else (b, w) :: memSet r a v

/-- Write bytes at consecutive addresses. -/
def memWrite (m : Memory) (a : Nat) : List Byte → Memory
  | [] => m
  | v :: r => memWrite (memSet m a v) (a + 1) r

/-- `n` bytes from address `a`. -/
def memRead (m : Memory) (a n : Nat) : List Byte := (List.range n).map (fun i => memGet m (a + i))

/-- Little-endian words (R8). -/
def memRead16 (m : Memory) (a : Nat) : Nat := (memGet m a).toNat + 256 * (memGet m (a + 1)).toNat
def memRead32 (m : Memory) (a : Nat) : U32 := BitVec.ofNat 32 (memRead16 m a + 65536 * memRead16 m (a + 2))
def memWrite32 (m : Memory) (a : Nat) (v : U32) : Memory := memWrite m a (le32 v)

/-- The canonical form, above a bound. -/
def Memory.wfFrom (lo : Nat) : Memory → Bool
  | [] => true
  | (a, v) :: r => decide (lo ≤ a) && decide (v ≠ 0) && Memory.wfFrom (a + 1) r

def Memory.wf (m : Memory) : Bool := Memory.wfFrom 0 m

end Sys2Proof.Machine
end

