-- ==== Sys2Proof/Machine/StBrg.lean ====
section
/-! DEFINITION. State of the power bridge and of the supply hand-over (chapter 6). -/

namespace Sys2Proof.Machine

/-- Hand-over states (Table 6.3). -/
inductive BrgPhase where
  | stopped
  | buck
  | detected
  | boost
  | qualify
  | handback
  | locked
  | nofeed
  deriving DecidableEq, Repr

def BrgPhase.code : BrgPhase → Nat
  | .stopped => 0
  | .buck => 1
  | .detected => 2
  | .boost => 3
  | .qualify => 4
  | .handback => 5
  | .locked => 6
  | .nofeed => 7

/-- Bridge safe actions (R170). -/
inductive SafeAction where
  | keep
  | railOff
  | allOff
  deriving DecidableEq, Repr

/-- The limits record (Table 6.8). -/
structure BrgLimits where
  cls : Nat
  en : Bool
  shedAtCommit : Bool
  safe : SafeAction
  shedHo : Nat
  vUv : Nat
  vZ12 : Nat
  vBst : Nat
  iBuck : Nat
  iBst : Nat
  vBkMin : Nat
  vBusMin : Nat
  tOvl : Nat
  tRestore : Nat
  rPair : Nat
  grpSrc : BitVec 16
  deriving DecidableEq, Repr

/-- The defaults of Table 6.8 for the 48 V class. -/
def BrgLimits.default : BrgLimits :=
  { cls := 48, en := true, shedAtCommit := false, safe := .keep, shedHo := 3, vUv := 3600, vZ12 := 1200, vBst := 4400,
    iBuck := 50, iBst := 40, vBkMin := 900, vBusMin := 3000, tOvl := 10, tRestore := 10, rPair := 200, grpSrc := 0 }

/-- A running `BRG.TEST_HANDOVER` (R175). -/
structure HandoverTest where
  port : Nat
  tag : U32
  reqSeq : U32
  duration : Nat
  deriving DecidableEq, Repr

structure BrgState where
  phase : BrgPhase
  limits : BrgLimits
  /-- V_Z12 that the buck regulates to, in 10 mV; `limits.vZ12` is the target stored for the next `BUCK`. -/
  target : Nat
  pairOn : Bool
  railOn : Bool
  battOn : Bool
  loss : Bool
  vinOk : Bool
  phOk : BitVec 4
  derate : Bool
  bkLow : Bool
  /-- Safe action applied at a self-arrest (R170). -/
  safeDone : Bool
  /-- The action that the self-arrest applied, in force until the next start. -/
  safeAct : SafeAction
  shedLvl : Nat
  /-- Channels of `VZ12` groups are shed (R163). -/
  shedVz12 : Bool
  restoring : Bool
  cause : Nat
  /-- `TB_COUNT` of the commits that count, newest first (R161). -/
  history : List Nat
  commits : U32
  abandons : U32
  tbDetect : U64
  tbCommit : U64
  tbHandback : U64
  test : Option HandoverTest
  /-- Bridge die temperature as last reported, in 0.1 °C (Table 6.7). -/
  temp : Int
  /-- Lowest `VZ48` reported in the last hand-over, in 10 mV (Table 6.9). -/
  lowest : Int
  /-- The bridge die has stopped the bridge at 170 °C (Table 6.7). -/
  hotStop : Bool
  /-- `VZ12` fault episode (Table 6.7). -/
  vz12Fault : Bool
  deriving DecidableEq, Repr

def BrgState.reset : BrgState :=
  { phase := .stopped, limits := .default, target := 1200, pairOn := false, railOn := false, battOn := false, loss := false,
    vinOk := false, phOk := 0xF, derate := false, bkLow := false, safeDone := false, safeAct := .keep, shedLvl := 0, shedVz12 := false,
    restoring := false, cause := 0, history := [], commits := 0, abandons := 0, tbDetect := 0, tbCommit := 0,
    tbHandback := 0, test := none, temp := 250, lowest := 0, hotStop := false, vz12Fault := false }

end Sys2Proof.Machine
end

