-- ==== Sys2Proof/Fields.lean ====
section
/-! DEFINITION. The operand types of the commands: a mailbox request's header and payload records, and what the outside
world decides at an event (a measurement, a verdict, a frame's content). -/

namespace Sys2Proof

/-- Header of an accepted mailbox request (Table 3.2): the port it came in on, its Tag and REQ_SEQ, the header
version, the payload length, and whether every field the manual shows as "—" is zero (R9, R72). -/
structure Req where
  port : Nat
  tag : U32
  seq : U32
  version : Byte
  len : Nat
  resvZero : Bool
  deriving DecidableEq, Repr


/-- What the start finds (Table 2.4 steps 1 to 7 and 13): the helper-data copies that yield the root (R420), the key slots with one
or both copies failing (R428), the health tests (R434), the image copies that fail at their load, by class and copy B (R440),
the banks that fail their checks when read (R52), the always-on crystal, and the start tests of the log SRAM and the NAND log
(R475). `tableOk`: the tables that step 13 loads match the image digest at their read-back (R37, R215). -/
structure StartFacts where
  helperA : Bool
  helperB : Bool
  repaired : List (Fin 128)
  bad : List (Fin 128)
  trngOk : Bool
  badCopies : List (Fin 6 × Bool)
  bankABad : Bool
  bankBBad : Bool
  xtal : Bool
  sramOk : Bool
  nandOk : Bool
  tableOk : Bool
  deriving DecidableEq, Repr

/-- The items that Run service needs (R45). -/
inductive RunItem where
  /-- `PD_MGR` or `PD_FAB0`. -/
  | manager
  | fab1
  | pairs
  | rfx
  | tb
  | links
  deriving DecidableEq, Repr


/-- A host message on a port as the manager finds it (Table 3.2): a request, or a control ACK whose `seq` is the last EVT_SEQ
and whose `ack` is the last RSP_SEQ received in order. `oldKey`: its tag matches the previous session's key (R78). -/
structure HostMsg where
  control : Bool
  seq : U32
  ack : U32
  gen : U16
  code : U16
  tag : U32
  oldKey : Bool
  deriving DecidableEq, Repr

/-- Magic, CRC and GMAC checks of a message (R71). -/
inductive MsgCheck where
  | intact
  | bad
  | authFail
  deriving DecidableEq, Repr

/-- A fragment of a message (R66): its number, `LAST`, and the message it repeats the header of with the verdict on the
whole. -/
structure Fragment where
  number : BitVec 15
  last : Bool
  msg : HostMsg
  check : MsgCheck
  deriving DecidableEq, Repr

/-- A register without a row of its own, or a word of the software-written memories (R10): a window offset, an offset of the
global status page, a word of a CAN entry (RX FIFO or TX) or XL buffer, of a LIN frame table or RX entry, a stacking CSR of a
pair, or a word of its TCM. -/
inductive RegTarget where
  | window (v : Fin 256) (offset : U16)
  | statusPage (offset : BitVec 12)
  | canEntry (c : Fin 16) (rx : Bool) (e : Fin 512) (word : Fin 24)
  | canXl (c : Fin 16) (b : Fin 64) (word : Fin 512)
  | linFrame (l : Fin 16) (id : Fin 64) (word : Fin 8)
  | linRx (l : Fin 16) (e : Fin 64) (word : Fin 4)
  | safCsr (pair : Fin 4) (csr : BitVec 12)
  | tcm (pair : Fin 4) (word : Fin 131072)
  deriving DecidableEq, Repr


/-- One entry of `CH.SET_KEEPALIVE` (Table 4.24). -/
structure KeepEntry where
  ch : U16
  mode : Byte
  duty : U16
  deriving DecidableEq, Repr

/-- The fields of `CH.HB_CONFIG` (Table 5.19). -/
structure HbFields where
  flags : Byte
  dead : Byte
  iStall : U16
  tStall : U16
  rippleRev : Byte
  fRipMin : U16
  fRipMax : U16
  tRunon : U16
  minRipAmp : U16
  deriving DecidableEq, Repr

/-- What the power die measured for one channel when its status word updates (R122): current codes of 14 bits with
their directions, whether the current is at the limit in force, junction temperature (0.1 °C), `VGg` and output voltage
(10 mV). -/
structure Measure where
  iAvg : BitVec 14
  iInst : BitVec 14
  negAvg : Bool
  negInst : Bool
  limiting : Bool
  tj : Int
  vg : Int
  vout : Int
  deriving DecidableEq, Repr

/-- What a valve measured in one PWM period (R142): mean current in mA over the longer of 1 ms and a dither period, `VGg` in 10 mV, whether
the 3.5 A ceiling ended the on-phase, and the coil resistance in 10 mΩ that mean voltage and current give. -/
structure ValveMeasure where
  ma : Nat
  vg : Int
  ceil : Bool
  rEst : Nat
  deriving DecidableEq, Repr

/-- What the bridge die measures for `BRG.GET_STATUS` (Table 6.9): voltages in 10 mV, currents in 10 mA, the die
temperature in 0.1 °C, and the lowest `VZ48` of the last hand-over. -/
structure BrgMeasure where
  vin : Int
  vz48 : Int
  vz12 : Int
  vbk12 : Int
  iz12 : Int
  ibk12 : Int
  temp : Int
  lowest : Int
  deriving DecidableEq, Repr

/-- The fields of a limits record (Table 6.8). -/
structure LimitsFields where
  cls : U16
  flags : Byte
  shedHo : Byte
  vUv : U16
  vZ12 : U16
  vBst : U16
  iBuck : Byte
  iBst : Byte
  vBkMin : U16
  vBusMin : U16
  tOvl : U16
  tRestore : U16
  rPair : U16
  grpSrc : U16
  deriving DecidableEq, Repr

/-- The fields of a discrete input record (Table 7.1). -/
structure DiFields where
  vTh : Byte
  vWb : Byte
  flags : Byte
  tPw : Byte
  tS : U16
  n : U16
  deriving DecidableEq, Repr

/-- The ten words of a rule record in `RFX.LOAD_RULE` (Table 8.1). -/
structure RuleFields where
  ctl : U32
  act : U32
  sel0 : U32
  arg0 : U32
  sel1 : U32
  arg1 : U32
  sel2 : U32
  arg2 : U32
  sel3 : U32
  arg3 : U32
  deriving DecidableEq, Repr

/-- A ring frame's header (Table 9.3). -/
structure RingHeader where
  version : Fin 16
  typ : Fin 16
  flags : Byte
  src : U16
  dst : U16
  slot : U16
  origin : U32
  /-- Payload length. -/
  len : U16
  hops : Byte
  wordA : U32
  wordB : U32
  crc : U32
  deriving DecidableEq, Repr

structure RingFrame where
  hdr : RingHeader
  payload : List Byte
  deriving DecidableEq, Repr

/-- How a frame fared at the link it arrived on: FCS and MACsec ICV (R256). -/
inductive LinkCheck where
  | ok
  | fcsFail
  | icvFail
  deriving DecidableEq, Repr

/-- A `SYNC_REF` payload (Table 9.6). -/
structure SyncRef where
  originNs : U64
  originFrac : U16
  corr : U64
  tRc : U32
  nS : U16
  nM : U16
  present : U32
  consent : U32
  sleepAt : U32
  handoverAt : U32
  loopStns : U16
  path : List Byte
  deriving DecidableEq, Repr

/-- A `DELAY_MEAS` payload (Table 9.7). -/
structure DelayMeas where
  /-- 0 request, 1 response. -/
  kind : Byte
  link : Byte
  verify : Byte
  station : Byte
  sched : U32
  closeAt : U32
  lastDelay : U32
  residence : U64
  master : Byte
  rank : Byte
  deriving DecidableEq, Repr

/-- An Ethernet frame from the destination address on, without FCS: addresses, the VLAN tag's TCI if it is tagged, the
sequence number of an R-TAG if it carries one, EtherType and data. -/
structure EthFrame where
  dst : BitVec 48
  src : BitVec 48
  tci : Option U16
  rtag : Option U16
  etype : U16
  data : List Byte
  deriving DecidableEq, Repr

/-- How a frame fared at its port's MACsec (R269): in plain, valid under the live SAK, rejected, or an MKPDU, with whether a
live SAK follows from it. -/
inductive PortCheck where
  | plain
  | protected_
  | icvFail
  | mka (live : Bool)
  deriving DecidableEq, Repr

/-- A transmit descriptor (Table 10.8) with the frame that its buffer holds and the verdict of the IOMMU (R390, R391). -/
structure TxDesc where
  length : U16
  flags : Byte
  vlan : U16
  gen : U16
  mapped : Bool
  frame : EthFrame
  deriving DecidableEq, Repr

/-- Another cell request of the same CLK_SW cycle (R279): its ingress port and traffic class. -/
structure Rival where
  port : Fin 21
  cls : Fin 8
  deriving DecidableEq, Repr

/-- A cell that a snapshot shows owned and unreferenced, with the pot it is charged to (R284). -/
structure LooseCell where
  cell : Fin 262144
  pot : Fin 64
  deriving DecidableEq, Repr

/-- The fields of `ESW.FDB_ADD` (Table 10.13). -/
structure FdbFields where
  mac : BitVec 48
  vid : U16
  ports : U32
  station : Byte
  flags : Byte
  deriving DecidableEq, Repr

/-- A pot record (Table 10.4). -/
structure PotFields where
  pot : Byte
  owner : Byte
  min : U32
  max : U32
  maxDesc : U32
  deriving DecidableEq, Repr

/-- The fields of `ESW.GATE_SET`; an entry is its interval and gate states. -/
structure GateFields where
  target : Byte
  port : Byte
  gate : U16
  cycle : U32
  baseSec : BitVec 48
  baseNs : U32
  entries : List (U32 × Byte)
  deriving DecidableEq, Repr

/-- The fields of `ESW.STREAM_FILTER`; the key's 40 bytes. -/
structure FilterFields where
  filter : U16
  port : Byte
  method : Byte
  key : List Byte
  maxSdu : U16
  gate : U16
  meter : U16
  flags : Byte
  meterFlags : Byte
  cir : U32
  eir : U32
  cbs : U32
  ebs : U32
  deriving DecidableEq, Repr

/-- The fields of `ESW.FRER_SET`. -/
structure FrerFields where
  fn : U16
  kind : Byte
  algorithm : Byte
  handle : U16
  history : Byte
  flags : Byte
  resetMs : U16
  ports : U32
  deriving DecidableEq, Repr

/-- The fields of `ESW.PLCA_SET`. -/
structure PlcaFields where
  port : Byte
  enable : Byte
  node : Byte
  count : Byte
  toTimer : Byte
  burst : Byte
  burstTimer : Byte
  deriving DecidableEq, Repr

/-- Four bit-timing fields of a CAN data phase (Table 11.2). -/
structure CanPhase where
  brp : Byte
  tseg1 : Byte
  tseg2 : Byte
  sjw : Byte
  deriving DecidableEq, Repr

/-- A CAN channel record (Table 11.2). -/
structure CanRecord where
  flags : Byte
  wake : Byte
  nBrp : U16
  nTseg1 : U16
  nTseg2 : Byte
  nSjw : Byte
  d : CanPhase
  x : CanPhase
  tdcoFd : U16
  tdcoXl : U16
  pwms : Byte
  pwml : Byte
  pwmo : Byte
  sigTxb : U32
  deriving DecidableEq, Repr

/-- A CAN frame on the bus: format (0 CC, 1 FD, 2 XL), identifier as in Table 11.5, the XL fields and the data. A remote
frame has a data length and no data. -/
structure CanFrame where
  fmt : Fin 3
  ide : Bool
  rtr : Bool
  brs : Bool
  esi : Bool
  id : BitVec 29
  sdt : Byte
  vcid : Byte
  sec : Bool
  af : U32
  dlen : Nat
  data : List Byte
  deriving DecidableEq, Repr

/-- The error counters after an event on the bus, as ISO 11898-1 leaves them (R309), and the error met: 0 none, 1 stuff,
2 form, 3 ack, 4 bit 1, 5 bit 0, 6 CRC (Table 11.9). -/
structure CanCounters where
  tec : Nat
  rec_ : Nat
  err : Fin 7
  deriving DecidableEq, Repr

/-- How an attempt ended (R304). -/
inductive CanOutcome where
  | sent
  | lostArb
  | error
  deriving DecidableEq, Repr

/-- The sieve: identifier, mask, data mask and DLC (R322). -/
structure Sieve where
  dlc : Byte
  ide : Bool
  id : U32
  mask : U32
  dataMask : List Byte
  deriving DecidableEq, Repr

/-- A network management record (Table 11.12). -/
structure NmRecord where
  node : Byte
  flags : Byte
  base : U16
  tToken : U16
  tHop : U16
  tMax : U16
  deriving DecidableEq, Repr

/-- A LIN channel record (Table 11.14). -/
structure LinRecord where
  rate : U16
  brk : Byte
  flags : Byte
  tWake : U16
  table0 : Byte
  p2 : Byte
  deriving DecidableEq, Repr

/-- A schedule entry (Table 11.15). -/
structure LinEntry where
  typ : Byte
  id : Byte
  delay : U16
  args : List Byte
  deriving DecidableEq, Repr

/-- One entry of `SIG.WRITE` (Table 12.17). -/
structure SigWriteEntry where
  slot : U16
  value : U64
  deriving DecidableEq, Repr

/-- The fields of `SIG.PRS_CONFIG` (Table 12.17). -/
structure PrsFields where
  stream : Byte
  n : Byte
  e : Byte
  k : Byte
  dest : Byte
  flags : Byte
  pre : U16
  vid : U16
  pcp : Byte
  mac : BitVec 48
  sources : List U16
  deriving DecidableEq, Repr

/-- The operands of `TIME.ADJUST` (Table 13.9). -/
structure AdjustFields where
  view : Byte
  ops : Byte
  c : U64
  inc : U64
  stepNs : U64
  stepFrac : U16
  sec : BitVec 48
  ns : U32
  frac : U16
  deriving DecidableEq, Repr

/-- The operands of `TIME.TRIGGER_CONFIG` (Table 13.9). -/
structure TriggerFields where
  unit : Byte
  op : Byte
  view : Byte
  action : Byte
  sec : BitVec 48
  ns : U32
  frac : U16
  period : U32
  target : U16
  image : U32
  deriving DecidableEq, Repr

/-- What a request's signature verifies under: slot 127, slot 124, or neither (R430, R431). -/
inductive KeySig where
  | none
  | provisioning
  | workshop
  deriving DecidableEq, Repr

/-- The fields of `KEY.PROVISION` (Table 15.13). The nonce is named by its number among those issued; `content` is what
unwraps under the wrap key, none where the GCM tag fails. -/
structure ProvisionFields where
  slot : Byte
  typ : Byte
  usage : U16
  flags : Byte
  nonce : Nat
  content : Option (List Byte)
  sig : KeySig
  /-- The certificate that a slot of type 6 names, kept in NAND. -/
  cert : List Byte
  deriving DecidableEq, Repr

/-- What the Canister finds at the verification of a staged image or bank (R438): both signatures, the GCM tag, the body
digest. -/
structure VerifyFacts where
  sigOk : Bool
  tagOk : Bool
  digestOk : Bool
  deriving DecidableEq, Repr

/-- A Gyvin request in a routine's option record (R447): a command of the Basecamp subset (R450) with its payload's fields,
or another code. `SYS.RESYNC` and `SYS.REPLAY` act on a port 0 session, which CAN0 does not have (R63). -/
inductive UdsGyvin where
  | ping (payload : List Byte)
  | getInfo
  | getMode
  | restart (nonce : Nat) (sigOk : Bool)
  | provision (f : ProvisionFields)
  | slotStatus (first count : Byte)
  | eraseSlot (slot : Byte) (nonce : Nat) (sig : KeySig)
  | attest (nonce : List Byte) (flags : Byte)
  | random (n : U16)
  | identity
  | updBegin (target : Byte) (total : U32)
  | updWrite (offset : U32) (data : List Byte)
  | updVerify
  | updCommit (flags : Byte)
  | updAbort
  | updStatus
  | updRestart
  | readStones
  | other (code : U16)
  deriving DecidableEq, Repr


end Sys2Proof
end

