-- ==== Sys2Proof/Machine/StCan.lean ====
section
/-! DEFINITION. State of the CAN channels, their network management rings and the LIN commanders (chapter 11). -/

namespace Sys2Proof.Machine

/-- The defaults of Table 11.2. -/
def canRecordDefault : CanRecord :=
  { flags := 0x40, wake := 1, nBrp := 10, nTseg1 := 63, nTseg2 := 16, nSjw := 16,
    d := { brp := 5, tseg1 := 29, tseg2 := 10, sjw := 10 }, x := { brp := 1, tseg1 := 29, tseg2 := 10, sjw := 10 },
    tdcoFd := 150, tdcoXl := 30, pwms := 10, pwml := 30, pwmo := 0, sigTxb := 0 }

/-- A TX or RX entry (Table 11.5); `ctl` is `CAN_E_CTL` (Table 11.6). -/
structure CanEntry where
  ctl : U32
  id : U32
  xl : U32
  af : U32
  gen : U16
  xlbuf : Byte
  attempts : Byte
  tag : U32
  time : U64
  data : List Byte
  deriving DecidableEq, Repr

/-- A zeroed entry that software owns (`OWN` 0), the reset of a TX entry. -/
def CanEntry.tx : CanEntry :=
  { ctl := 0, id := 0, xl := 0, af := 0, gen := 0, xlbuf := 0, attempts := 0, tag := 0, time := 0, data := zeros 64 }

/-- A zeroed entry that hardware owns (`OWN` 1), the reset of an RX entry. -/
def CanEntry.rx : CanEntry := { CanEntry.tx with ctl := 0x80000000 }

/-- Channel states (Table 11.3). -/
inductive CanMode where
  | stopped
  | integrating
  | errorActive
  | errorPassive
  | busOff
  | recovering
  | sleep
  deriving DecidableEq, Repr

def CanMode.code : CanMode → Nat
  | .stopped => 0
  | .integrating => 1
  | .errorActive => 2
  | .errorPassive => 3
  | .busOff => 4
  | .recovering => 5
  | .sleep => 6

/-- Transceiver modes. -/
inductive Xcvr where
  | normal
  | receiveOnly
  | lowPower
  deriving DecidableEq, Repr

/-- An acceptance filter (R307). -/
structure CanFilter where
  en : Bool
  store : Bool
  ide : Bool
  /-- Accepted formats: bit 0 CC, bit 1 FD, bit 2 XL. -/
  formats : BitVec 3
  id : U32
  mask : U32
  deriving DecidableEq, Repr

def CanFilter.reset : CanFilter := { en := false, store := false, ide := false, formats := 0, id := 0, mask := 0 }

/-- The attempt on the bus (R305): its TX entry, the `TB_COUNT` of its start of frame, whether a cancel was requested
since, and whether its completion belongs to an old generation (R311). -/
structure CanAttempt where
  entry : Nat
  sof : U64
  cancelled : Bool
  old : Bool
  deriving DecidableEq, Repr

/-- Counters of `CAN.STATS` (Table 11.19), each 64 bits. -/
structure CanStats where
  sent : Nat
  received : Nat
  stored : Nat
  bytesSent : Nat
  bytesReceived : Nat
  arbLost : Nat
  /-- Errors by `LEC` 1 to 6. -/
  errors : List Nat
  cancels : Nat
  late : Nat
  deriving DecidableEq, Repr

def CanStats.zero : CanStats :=
  { sent := 0, received := 0, stored := 0, bytesSent := 0, bytesReceived := 0, arbLost := 0,
    errors := [0, 0, 0, 0, 0, 0], cancels := 0, late := 0 }

/-- The time master or follower role of a channel (R313, R314): `role` 0 off, 1 follower, 2 master. -/
structure CanTm where
  role : Nat
  rank : Nat
  view : Nat
  base : Nat
  /-- Basic cycle in 0.1 ms. -/
  cycle : Nat
  maxCount : Nat
  count : Nat
  /-- Consecutive missing references. -/
  missing : Nat
  /-- This channel sends references. -/
  sending : Bool
  /-- Rank of the master in force. -/
  inForce : Option Nat
  deriving DecidableEq, Repr

def CanTm.off : CanTm :=
  { role := 0, rank := 0, view := 6, base := 0x080, cycle := 100, maxCount := 0, count := 0, missing := 0,
    sending := false, inForce := none }

/-- `CAN_CH_FLAGS` (Table 11.10). -/
structure CanFlags where
  rxLoss : Bool
  ownErr : Bool
  staleTx : Bool
  busOffSeen : Bool
  wakeUnconf : Bool
  tmLost : Bool
  deriving DecidableEq, Repr

def CanFlags.zero : CanFlags :=
  { rxLoss := false, ownErr := false, staleTx := false, busOffSeen := false, wakeUnconf := false, tmLost := false }

structure CanChan where
  /-- The image configures the channel (R324). -/
  configured : Bool
  record : CanRecord
  mode : CanMode
  tec : Nat
  rec_ : Nat
  lec : Nat
  flags : CanFlags
  busOffs : Nat
  rxFill : Nat
  rxLost : Nat
  /-- Frames dropped with reason reset (R311), also in `rxLost`. -/
  resetLost : Nat
  /-- An overrun episode runs (R308). -/
  episode : Bool
  /-- The next entry that hardware fills takes `LOSS_BEFORE`. -/
  lossBefore : Bool
  /-- TX entries 0 to 95; RX entries 0 to 511; XL buffers 0 to 63 (Table 11.4). -/
  tx : Tbl CanEntry
  rx : Tbl CanEntry
  xlb : Tbl (List Byte)
  /-- The pending set (R302), in the order of the doorbells. -/
  pending : List Nat
  attempt : Option CanAttempt
  filters : Tbl CanFilter
  sieve : Sieve
  /-- Frame error counter of the armed sieve (R323). -/
  sieveErr : Nat
  /-- Records in `PD_AON` (R323, R324). -/
  wakeUnconf : Bool
  sieveFs : Bool
  xcvr : Xcvr
  /-- Woken and not yet in normal mode (R324). -/
  waking : Bool
  tm : CanTm
  stats : CanStats
  /-- A `CAN.STOP` that waits for the attempt on the bus: port, Tag, REQ_SEQ. -/
  stopping : Option (Nat × U32 × U32)
  deriving DecidableEq, Repr

def sieveZero : Sieve := { dlc := 0, ide := false, id := 0, mask := 0, dataMask := zeros 8 }

def CanChan.reset : CanChan :=
  { configured := false, record := canRecordDefault, mode := .stopped, tec := 0, rec_ := 0, lec := 0, flags := .zero,
    busOffs := 0, rxFill := 0, rxLost := 0, resetLost := 0, episode := false, lossBefore := false, tx := .empty,
    rx := .empty, xlb := .empty, pending := [], attempt := none, filters := .empty, sieve := sieveZero, sieveErr := 0,
    wakeUnconf := false, sieveFs := false, xcvr := .lowPower, waking := false, tm := .off, stats := .zero,
    stopping := none }

/-! ### Network management -/

/-- Defaults of Table 11.12. -/
def nmRecordDefault : NmRecord := { node := 0, flags := 0, base := 0x500, tToken := 10, tHop := 100, tMax := 1800 }

/-- An NM message (Table 11.13). -/
structure NmMsg where
  sender : Nat
  succ : Option Nat
  consent : Bool
  sleepInd : Bool
  override : Bool
  alive : Bool
  coord : Bool
  roundConsent : Bool
  round : Byte
  deriving DecidableEq, Repr

/-- Who holds an awake request (R318). -/
inductive AwakeHolder where
  | port (n : Nat)
  | vzf (v : Nat)
  deriving DecidableEq, Repr

structure NmRing where
  record : NmRecord
  awake : Bool
  /-- An `ALIVE` is owed once the channel has integrated. -/
  join : Bool
  /-- The t_HOP of forming runs. -/
  forming : Bool
  /-- The first round has started since the ring formed. -/
  formed : Bool
  present : U64
  /-- Consent in the last complete round and in the round that runs. -/
  lastConsent : U64
  curConsent : U64
  round : Byte
  /-- The ZM9 holds the token, with the `ROUND_CONSENT` it received. -/
  holding : Bool
  roundConsent : Bool
  /-- The lowest node's round came back with consent: its next message carries `SLEEP_IND`. -/
  sleepNext : Bool
  /-- Successor that has not sent yet. -/
  awaited : Option Nat
  /-- The 1.5 s to sleep run; `override` forbids their cancelling. -/
  sleeping : Bool
  override : Bool
  holders : List AwakeHolder
  /-- `TB_COUNT` of the first NM message after the last sleep. -/
  awakeFrom : Option Nat
  /-- This node is still coordinator (`COORD` set, role not given up). -/
  coordRole : Bool
  coordinator : Option Nat
  ignored : Nat
  /-- A message that waits for TX buffer 31. -/
  outbox : Option NmMsg
  deriving DecidableEq, Repr

def NmRing.reset : NmRing :=
  { record := nmRecordDefault, awake := false, join := false, forming := false, formed := false, present := 0, lastConsent := 0,
    curConsent := 0, round := 0, holding := false, roundConsent := false, sleepNext := false, awaited := none,
    sleeping := false, override := false, holders := [], awakeFrom := none, coordRole := false, coordinator := none,
    ignored := 0, outbox := none }

/-! ### LIN -/

/-- Defaults of Table 11.14. -/
def linRecordDefault : LinRecord := { rate := 19200, brk := 13, flags := 3, tWake := 1000, table0 := 0, p2 := 10 }

/-- A frame table entry (R327). -/
structure LinFrame where
  ctl : U32
  status : U32
  half0 : List Byte
  half1 : List Byte
  deriving DecidableEq, Repr

def LinFrame.zero : LinFrame := { ctl := 0, status := 0, half0 := zeros 8, half1 := zeros 8 }

/-- An RX entry (R328). -/
structure LinRx where
  word : U32
  time : U32
  data : List Byte
  deriving DecidableEq, Repr

/-- Zeroed and owned by hardware. -/
def LinRx.reset : LinRx := { word := 0x80000000, time := 0, data := zeros 8 }

/-- Channel states (Table 11.16). -/
inductive LinMode where
  | stopped
  | running
  | sleep
  | waking
  | diag
  | busFault
  deriving DecidableEq, Repr

def LinMode.code : LinMode → Nat
  | .stopped => 0
  | .running => 1
  | .sleep => 2
  | .waking => 3
  | .diag => 4
  | .busFault => 5

structure LinFlags where
  rxLoss : Bool
  ownErr : Bool
  noResp : Bool
  chkErr : Bool
  busFault : Bool
  wakeRx : Bool
  deriving DecidableEq, Repr

def LinFlags.zero : LinFlags :=
  { rxLoss := false, ownErr := false, noResp := false, chkErr := false, busFault := false, wakeRx := false }

/-- The frame on the bus: its entry type, frame ID, direction (true: the ZM9 publishes), the data sent and the start of
its break. -/
structure LinSlot where
  typ : Nat
  id : Nat
  publish : Bool
  data : List Byte
  at_ : U64
  deriving DecidableEq, Repr

/-- A `LIN.DIAG` in progress (R331). -/
structure LinDiag where
  port : Nat
  tag : U32
  reqSeq : U32
  data : List Byte
  wanted : Nat
  /-- The master request has been sent. -/
  sent : Bool
  /-- The exchange has ended: enough responses, or a header without one. -/
  ended : Bool
  /-- The channel was stopped when the exchange came. -/
  fromStop : Bool
  got : List LinRx
  deriving DecidableEq, Repr

structure LinChan where
  configured : Bool
  record : LinRecord
  mode : LinMode
  table : Nat
  entry : Nat
  /-- The entry whose header comes next. -/
  next : Nat
  lastId : Nat
  lastResult : Nat
  flags : LinFlags
  rxFill : Nat
  rxLost : Nat
  episode : Bool
  /-- Schedule tables 0 to 3. -/
  tables : Tbl (List LinEntry)
  frames : Tbl LinFrame
  rx : Tbl LinRx
  slot : Option LinSlot
  /-- Table and entry to return to after a collision-resolving run (R329). -/
  back : Option (Nat × Nat)
  /-- `LIN.SELECT_SCHEDULE` waiting: a table, or 0xFF to stop. -/
  select : Option Nat
  sleepReq : Bool
  diag : Option LinDiag
  /-- IDs in a no-response episode (R332). -/
  silent : U64
  headers : Nat
  noResponse : Nat
  chkErrors : Nat
  deriving DecidableEq, Repr

def LinChan.reset : LinChan :=
  { configured := false, record := linRecordDefault, mode := .stopped, table := 0, entry := 0, next := 0, lastId := 0,
    lastResult := 0, flags := .zero, rxFill := 0, rxLost := 0, episode := false, tables := .empty, frames := .empty,
    rx := .empty, slot := none, back := none, select := none, sleepReq := false, diag := none, silent := 0, headers := 0,
    noResponse := 0, chkErrors := 0 }

structure NetState where
  can : Tbl CanChan
  nm : Tbl NmRing
  lin : Tbl LinChan
  deriving DecidableEq, Repr

def NetState.reset : NetState := { can := .empty, nm := .empty, lin := .empty }

end Sys2Proof.Machine
end

