-- ==== Sys2Proof/Machine/StChan.lean ====
section
/-! DEFINITION. State of the load channels, half-bridges and valve drivers and of their eight power dies
(chapters 4 and 5). Channel indices are those of Table 0.4. -/

namespace Sys2Proof.Machine

/-- Channel classes (Table 0.4). -/
inductive ChClass where
  | heavy
  | medium
  | light
  | half
  | valve
  deriving DecidableEq, Repr

/-- Class of global index `i` (R4): offset 0 heavy, 1 to 3 medium, 4 to 9 light, 10 and 11 half-bridge, 12 and 13
valve. -/
def chClass (i : Nat) : ChClass :=
  let o := i % 14
  if o = 0 then .heavy else if o ≤ 3 then .medium else if o ≤ 9 then .light else if o ≤ 11 then .half else .valve

def ChClass.isSwitch : ChClass → Bool
  | .heavy | .medium | .light => true
  | _ => false

/-- Orphan states (R119). -/
inductive OrphanKind where
  | off
  | hold
  | value
  deriving DecidableEq, Repr

/-- Half-bridge parameter block (Table 5.7). -/
structure HbBlock where
  rippleEn : Bool
  decayFast : Bool
  stopBrake : Bool
  stallEn : Bool
  stallReport : Bool
  dead : Nat
  iStall : Nat
  tStall : Nat
  rippleRev : Nat
  fRipMin : Nat
  fRipMax : Nat
  tRunon : Nat
  minRipAmp : Nat
  deriving DecidableEq, Repr

/-- The defaults of Table 5.7 (`HB_FLAGS` 0x0D). -/
def HbBlock.default : HbBlock :=
  { rippleEn := true, decayFast := false, stopBrake := true, stallEn := true, stallReport := false, dead := 5,
    iStall := 0xFFFF, tStall := 30, rippleRev := 10, fRipMin := 100, fRipMax := 2000, tRunon := 200, minRipAmp := 10 }

/-- Valve parameter block (Table 5.8). -/
structure VlvBlock where
  iSafe : Nat
  iOrph : Nat
  dithAmp : Nat
  dithF : Nat
  rNom : Nat
  lNom : Nat
  bw : Nat
  square : Bool
  compOff : Bool
  deriving DecidableEq, Repr

def VlvBlock.default : VlvBlock :=
  { iSafe := 0, iOrph := 0, dithAmp := 0, dithF := 100, rNom := 0, lNom := 200, bw := 200, square := false, compOff := false }

/-- A profile record (Table 4.7). TYPE: 0 generic, 1 lamp, 2 motor, 3 heater, 4 capacitive, 5 inductive, 6 valve. -/
structure Profile where
  typ : Nat
  arcEn : Bool
  olOffEn : Bool
  ambBase : Bool
  safeOn : Bool
  fwFallback : Bool
  hold : Bool
  iLim : Nat
  iInr : Nat
  tInr : Nat
  tLim : Nat
  fPwm : Nat
  slew : Nat
  retryN : Nat
  retryDly : Nat
  wire : Nat
  insul : Nat
  amb : Int
  ambOfs : Nat
  iOl : Nat
  tOl : Nat
  tOlOff : Nat
  shed : Nat
  orphPrio : Nat
  orphan : OrphanKind
  orphDuty : Nat
  tOrph : Nat
  tHold : Nat
  arcRms : Nat
  arcDv : Nat
  arcN : Nat
  hb : HbBlock
  vlv : VlvBlock
  deriving DecidableEq, Repr

/-- The generic record with the defaults of Table 4.7. -/
def Profile.generic : Profile :=
  { typ := 0, arcEn := true, olOffEn := true, ambBase := false, safeOn := false, fwFallback := false, hold := false,
    iLim := 0, iInr := 0, tInr := 10, tLim := 100, fPwm := 200, slew := 4, retryN := 3, retryDly := 100, wire := 0xFF,
    insul := 0, amb := 85, ambOfs := 10, iOl := 0xFFFF, tOl := 100, tOlOff := 100, shed := 3, orphPrio := 0,
    orphan := .off, orphDuty := 0, tOrph := 0, tHold := 100, arcRms := 20, arcDv := 50, arcN := 4, hb := .default,
    vlv := .default }

/-- What a channel's output is told to do: off (a bridge's stop state), on, PWM, a bridge drive of Table 5.3, or a valve
current in mA. -/
inductive OutCmd where
  | off
  | on
  | pwm (duty phase : Nat)
  | drive (code duty phase : Nat)
  | regulate (ma : Nat)
  deriving DecidableEq, Repr

/-- The output is on, in PWM, regulating, or driving forward or reverse: brake and coast are no turn-on (R101, R130). -/
def OutCmd.runs : OutCmd → Bool
  | .off => false
  | .drive code _ _ => decide (code = 1) || decide (code = 2)
  | _ => true

def OutCmd.isOff : OutCmd → Bool
  | .off => true
  | _ => false

/-- A software command in force: output, priority, and for a bridge its target (R121, R145). -/
structure SwCmd where
  out : OutCmd
  prio : Nat
  target : Option U32
  gen : U16
  seq : U16
  deriving DecidableEq, Repr

def SwCmd.off : SwCmd := { out := .off, prio := 0, target := none, gen := 0, seq := 0 }

/-- The reflex action that won the merge of a channel (R205). -/
structure RfxWin where
  out : OutCmd
  prio : Nat
  rule : Nat
  deriving DecidableEq, Repr

/-- A running channel test (R125) and its requester. -/
structure ChTestRun where
  test : Nat
  duration : Nat
  /-- The index named was HBgB's: the pulse of test 3 drives reverse. -/
  reverse : Bool
  port : Nat
  tag : U32
  reqSeq : U32
  deriving DecidableEq, Repr

/-- A keep-alive state (R120): the output, and whether it tripped in Bivouac. -/
structure KeepAlive where
  out : OutCmd
  deriving DecidableEq, Repr

/-- A channel's part in its die's hold (R117, R118): not in hold, holding its output, or turned off. -/
inductive HoldSt where
  | none
  | holding
  | expired
  deriving DecidableEq, Repr

/-- The sticky flags of `LSW_CH_FLAGS` (Table 4.15). -/
structure ChFlags where
  sc : Bool
  limTo : Bool
  wire : Bool
  ot : Bool
  arc : Bool
  olOn : Bool
  olOff : Bool
  stb : Bool
  fwMissing : Bool
  ledger : Bool
  clampOver : Bool
  held : Bool
  orphaned : Bool
  staleCmd : Bool
  badCmd : Bool
  prioClamped : Bool
  overridden : Bool
  twinGated : Bool
  shed : Bool
  deriving DecidableEq, Repr

def ChFlags.zero : ChFlags :=
  { sc := false, limTo := false, wire := false, ot := false, arc := false, olOn := false, olOff := false, stb := false,
    fwMissing := false, ledger := false, clampOver := false, held := false, orphaned := false, staleCmd := false,
    badCmd := false, prioClamped := false, overridden := false, twinGated := false, shed := false }

/-- What the die does for a channel's protection (R99 to R116): it lives in the power die. -/
structure Guard where
  /-- Waiting out a retry delay; whether the delay has passed. -/
  waiting : Bool
  delayDone : Bool
  latched : Bool
  latchArc : Bool
  retries : Nat
  /-- Junction below 145 °C since the last over-temperature trip; `rearm_ok` of the last step of the wire model; a WIRE trip since the
  last turn-on (R102). -/
  junctionOk : Bool
  wireOk : Bool
  wireTrip : Bool
  arcLatches : Nat
  lockLedger : Bool
  lockFw : Bool
  clampOver : Bool
  fwOk : Bool
  fwMissing : Bool
  /-- Released from `LOCK_FW` by the clamp fallback (R112). -/
  fallback : Bool
  /-- The free-wheel check of R109 is watching, and has run since the start or since an inductive profile was assigned (R106). -/
  fwWatch : Bool
  fwDone : Bool
  /-- Ledger in µJ at `ledgerAt` ticks (R110). -/
  ledgerUj : Nat
  ledgerAt : Nat
  /-- Wire rise in µK (R102). -/
  riseUk : Int
  arcWins : List Bool
  limiting : Bool
  /-- Limiting time in ticks up to `limAt`, the moment at which limiting last began or ended (R100). -/
  limTicks : Nat
  limAt : Nat
  inrush : Bool
  ol : Bool
  stb : Bool
  /-- After a clear or an unlock the channel stays off until its owner writes a command (R104, R110). -/
  needsCmd : Bool
  /-- Keep-alive tripped in Bivouac (R120). -/
  kaTrip : Bool
  deriving DecidableEq, Repr

def Guard.reset : Guard :=
  { waiting := false, delayDone := false, latched := false, latchArc := false, retries := 0, junctionOk := true,
    wireOk := true, wireTrip := false, arcLatches := 0, lockLedger := false, lockFw := false, clampOver := false, fwOk := false,
    fwMissing := false, fallback := false, fwWatch := false, fwDone := false, ledgerUj := 0, ledgerAt := 0, riseUk := 0, arcWins := [],
    limiting := false, limTicks := 0, limAt := 0, inrush := false, ol := false, stb := false, needsCmd := false, kaTrip := false }

/-- Measured values of a status word (Tables 4.16 to 4.19, 5.12). -/
structure Sense where
  iAvg : Nat
  iInst : Nat
  iPeak : Nat
  negAvg : Bool
  negInst : Bool
  tj : Int
  twire : Int
  vg : Int
  vout : Int
  deriving DecidableEq, Repr

def Sense.zero : Sense :=
  { iAvg := 0, iInst := 0, iPeak := 0, negAvg := false, negInst := false, tj := 0, twire := 0, vg := 0, vout := 0 }

structure Chan where
  profId : Nat
  prof : Profile
  /-- The override of `CH.SET_HOLD` (R107): setting and t_HOLD. -/
  holdOvr : Option (Bool × Nat)
  /-- `LSW_CMD_TAG`, the command register and `HBR_TARGET` as last written (R121, R145). -/
  tagGen : U16
  tagSeq : U16
  cmdWord : U32
  targetReg : U32
  sw : SwCmd
  /-- A command held in Start-up (R40). -/
  held : Option SwCmd
  ackGen : U16
  ackSeq : U16
  orphan : Option (OutCmd × Nat)
  test : Option ChTestRun
  /-- Shed by R93 with its cause, 9 or 10; shed by the hand-over stage (R163). -/
  shed : Option Nat
  hoShed : Bool
  rfx : Option RfxWin
  keep : Option KeepAlive
  hold : HoldSt
  /-- A held output that the rope-team gate keeps off (R459). -/
  gated : Option OutCmd
  grd : Guard
  /-- The output as the die drives it, and the source in force (Table 4.14 `SRC`). -/
  out : OutCmd
  src : Nat
  cause : Nat
  flags : ChFlags
  tripCount : Nat
  /-- On-time of the running PWM period in CLK_IO cycles (R95). -/
  pulse : Nat
  sense : Sense
  stamp : U64
  stampHi : U32
  deriving DecidableEq, Repr

def Chan.reset : Chan :=
  { profId := 0, prof := .generic, holdOvr := none, tagGen := 0, tagSeq := 0, cmdWord := 0, targetReg := 0, sw := .off,
    held := none, ackGen := 0, ackSeq := 0, orphan := none, test := none, shed := none, hoShed := false, rfx := none,
    keep := none, hold := .none, gated := none, grd := .reset, out := .off, src := 0, cause := 0, flags := .zero, tripCount := 0,
    pulse := 0, sense := .zero, stamp := 0, stampHi := 0 }

/-- A bridge (R129 to R141); it lives in the power die while `VGg` is present. -/
structure Bridge where
  /-- Drive in force: 0 stop, 1 forward, 2 reverse, 3 brake, 4 coast. -/
  drive : Nat
  pos : U32
  posValid : Bool
  /-- `TB_COUNT` of the last counted ripple of a motion. -/
  lastRipple : Option Nat
  runon : Bool
  stall : Bool
  atTarget : Bool
  reversing : Bool
  /-- The drive that follows the brake of a reversal (R130). -/
  nextDrive : Option OutCmd
  /-- Direction in which ripples count: forward true. -/
  forward : Bool
  inserted : Nat
  rejected : Nat
  /-- The last `RIPPLE_REV` intervals in µs, newest first (R138). -/
  intervals : List Nat
  /-- The bridge stands in its stop state after a stall or a lost position, until the next drive command. -/
  stopped : Bool
  /-- The merged command last received, with its source. -/
  cmd : OutCmd × Nat
  /-- Coast in place of the stop state after a short-circuit or over-temperature trip, until the next drive (R132). -/
  forcedCoast : Bool
  /-- Drive before the last change, and `TB_COUNT` at that change (R129). -/
  prevDrive : Nat
  changedAt : Nat
  deriving DecidableEq, Repr

def Bridge.reset : Bridge :=
  { drive := 0, pos := 0, posValid := false, lastRipple := none, runon := false, stall := false, atTarget := false,
    reversing := false, nextDrive := none, forward := true, inserted := 0, rejected := 0, intervals := [], stopped := false,
    cmd := (.off, 0), forcedCoast := false, prevDrive := 0, changedAt := 0 }

/-- A valve driver's regulator (R135, R142, R143). -/
structure Valve where
  duty : Nat
  target : Nat
  compliance : Bool
  sat : Bool
  dithAct : Bool
  ceil : Bool
  rEst : Nat
  err : Int
  compCount : Nat
  /-- Integrator of the PI loop, frozen in compliance. -/
  integ : Int
  /-- Turned off by `COMP_ACT` until the owner's next command. -/
  compOff : Bool
  /-- Dither overrides that wait for the next dither period (R143). -/
  newDither : Option VlvBlock
  /-- `TB_COUNT` at phase 0 of the dither, at the last regulation period and at the last resistance estimate (R142, R143). -/
  dithFrom : Nat
  regAt : Nat
  estAt : Nat
  /-- Set point of the last regulation period with its dither, in mA. -/
  wave : Nat
  /-- The die has cleared `COMPLIANCE`; the event leaves with its next frame (R135). -/
  compEnd : Bool
  deriving DecidableEq, Repr

def Valve.reset : Valve :=
  { duty := 0, target := 0, compliance := false, sat := false, dithAct := false, ceil := false, rEst := 0, err := 0,
    compCount := 0, integ := 0, compOff := false, newDither := none, dithFrom := 0, regAt := 0, estAt := 0, wave := 0, compEnd := false }

inductive Supply where
  | present
  | lost
  | reversed
  deriving DecidableEq, Repr

/-- Source that a group supply is tied to (R16, Table 6.8). -/
inductive GroupSource where
  | vz48
  | vz12
  | net24
  | unused
  deriving DecidableEq, Repr

structure Die where
  acked : Bool
  /-- Times the manager sent the parameter table in this start (Table 2.5). -/
  tables : Nat
  supply : Supply
  groundLost : Bool
  /-- A frame has been received since the die's own power-up (R118). -/
  seenFrame : Bool
  inHold : Bool
  /-- `TB_COUNT` of the last valid frame, and of the one before the silence (R117, R118). -/
  lastFrame : Nat
  silenceFrom : Nat
  /-- Link silence in µs found at the first frame after it. -/
  silenceUs : Nat
  /-- Offsets that tripped during the hold. -/
  holdTrips : BitVec 14
  /-- The die runs keep-alive states (R120). -/
  keeping : Bool
  /-- Own-holder bit as the die last took it, and the 250 µs shut delay after it rose (R459). -/
  ownHolder : Bool
  gateDelay : Bool
  deriving DecidableEq, Repr

def Die.reset : Die :=
  { acked := false, tables := 0, supply := .present, groundLost := false, seenFrame := false, inHold := false, lastFrame := 0,
    silenceFrom := 0, silenceUs := 0, holdTrips := 0, keeping := false, ownHolder := false, gateDelay := false }

structure ChanState where
  chans : Tbl Chan
  bridges : Tbl Bridge
  valves : Tbl Valve
  dies : Tbl Die
  /-- Channel on `SNS_MON` (R114). -/
  sns : Option Nat
  /-- Groups over 70 A and the module over its loss limit, averaged over 1 s (R93). -/
  groupOver : List Nat
  lossOver : Bool
  /-- The 1 ms values of the last second, newest first: current of each group in mA and conduction loss in µW (R93). -/
  groupHist : Tbl (List Nat)
  lossHist : List Nat
  /-- Next shed priority of each group being shed and of the module. -/
  groupNext : Tbl Nat
  lossNext : Nat
  /-- The keep-alive set of this start (R120). -/
  keepSet : List (Nat × OutCmd)
  deriving DecidableEq, Repr

def ChanState.reset : ChanState :=
  { chans := .empty, bridges := .empty, valves := .empty, dies := .empty, sns := none, groupOver := [], lossOver := false,
    groupHist := .empty, lossHist := [], groupNext := .empty, lossNext := 0, keepSet := [] }

end Sys2Proof.Machine
end

