-- ==== Sys2Proof/Machine/StRing.lean ====
section
/-! DEFINITION. State of the Eudra ring: its section, its two ports, the schedule, the slots and the master's buffers
(chapter 9). -/

namespace Sys2Proof.Machine

/-- A slot table entry (Table 9.9). -/
structure SlotEntry where
  owner : Nat
  ftype : Nat
  rx : Bool
  arg : Nat
  deriving DecidableEq, Repr

def SlotEntry.none : SlotEntry := { owner := 0, ftype := 0, rx := false, arg := 0 }

/-- The ring section (Table 9.8). -/
structure RingSection where
  station : Nat
  wakeFwd : Bool
  autoConsent : Bool
  /-- T_RC in µs. -/
  tRc : Nat
  nS : Nat
  nM : Nat
  sched : U32
  /-- Stations of ranks 0 to 3, 0xFF for none. -/
  masters : List Nat
  keySlot : Nat
  ageWarn : Nat
  nSlp : Nat
  credits : List Nat
  slots : Tbl SlotEntry
  deriving DecidableEq, Repr

/-- The defaults of Table 9.8, as station 0. -/
def RingSection.default : RingSection :=
  { station := 0, wakeFwd := true, autoConsent := true, tRc := 250, nS := 160, nM := 2500, sched := 0,
    masters := [0, 255, 255, 255], keySlot := 0, ageWarn := 8, nSlp := 64, credits := List.replicate 32 0,
    slots := .empty }

/-- Link states (Table 9.7). -/
inductive LinkState where
  | down
  | verify
  | closed
  deriving DecidableEq, Repr

def LinkState.code : LinkState → Nat
  | .down => 0
  | .verify => 1
  | .closed => 2

/-- Counters of a port (`RING.STATS`). -/
structure RingCounters where
  received : Nat
  sent : Nat
  forwarded : Nat
  fcs : Nat
  icv : Nat
  crc : Nat
  discarded : Nat
  secIn : Nat
  secDrop : Nat
  deriving DecidableEq, Repr

def RingCounters.zero : RingCounters :=
  { received := 0, sent := 0, forwarded := 0, fcs := 0, icv := 0, crc := 0, discarded := 0, secIn := 0, secDrop := 0 }

/-- The end node that a local ID from 256 on stands for (R221): a CAN channel, a LIN channel and address, a 10BASE-T1S port and node, an
Ethernet port. -/
inductive EdgeNode where
  | can (c : Nat)
  | lin (c nad : Nat)
  | t1s (port node : Nat)
  | eth (port : Nat)
  deriving DecidableEq, Repr

/-- A ring port: 0 is `RING_E`, 1 is `RING_W`. -/
structure RingPort where
  phy : Bool
  sak : Bool
  link : LinkState
  verify : Nat
  /-- Cycle at which the link closes, 0 for none. -/
  closeAt : U32
  /-- Declared broken (R241) and not closed since. -/
  broken : Bool
  /-- What the last `DELAY_MEAS` said of the neighbour. -/
  nbr : Option Nat
  nbrMaster : Nat
  nbrRank : Nat
  /-- Link delay in ns × 2^16. -/
  delay : U32
  /-- Frames that failed FCS or MACsec in this cycle, and whether an exchange succeeded in it. -/
  fails : Nat
  exchanged : Bool
  peers : List Byte
  /-- Number of the live SAK, packets sent under it, and the outer frame last sent: a view of the link (R228, R256). -/
  sakNo : Nat
  pn : Nat
  line : List Byte
  /-- Sequence of the last `DELAY_MEAS` request (Table 9.5). -/
  measSeq : U32
  /-- The `DELAY_MEAS` sent last on this port: `RING_E` requests, `RING_W` answers. -/
  answer : Option DelayMeas
  count : RingCounters
  deriving DecidableEq, Repr

def RingPort.reset : RingPort :=
  { phy := false, sak := false, link := .down, verify := 0, closeAt := 0, broken := false, nbr := none, nbrMaster := 255, nbrRank := 3,
    delay := 0, fails := 0, exchanged := false, peers := [], sakNo := 0, pn := 0, line := [], measSeq := 0, answer := none, count := .zero }

/-- What a station keeps of a slot it copies (R247). -/
structure SlotRx where
  age : Nat
  notReady : Bool
  relayed : Bool
  never : Bool
  origin : U32
  /-- A good frame arrived since the last due point. -/
  fresh : Bool
  stale : Bool
  wordA : U32
  payload : List Byte
  deriving DecidableEq, Repr

def SlotRx.reset : SlotRx :=
  { age := 255, notReady := false, relayed := false, never := true, origin := 0, fresh := false, stale := false,
    wordA := 0, payload := [] }

/-- The station's own frame for a slot. -/
structure OwnSlot where
  notReady : Bool
  wordB : U32
  payload : List Byte
  deriving DecidableEq, Repr

def OwnSlot.reset : OwnSlot := { notReady := true, wordB := 0, payload := [] }

/-- A frame in the relay queue and the cycles it has waited (R239). -/
structure RelayItem where
  frame : RingFrame
  waited : Nat
  deriving DecidableEq, Repr

/-- Deficit round robin among VZFs (R238, R285): the VZF served and the deficits. -/
structure Drr where
  cur : Option Nat
  deficit : Tbl Nat
  deriving DecidableEq, Repr

def Drr.reset : Drr := { cur := none, deficit := .empty }

/-- The station's part of the ring. -/
inductive RingPhase where
  | off
  | active
  | asleep
  deriving DecidableEq, Repr

structure RingState where
  phase : RingPhase
  east : RingPort
  west : RingPort
  /-- The section passed the checks of R236 at this start, and no neighbour showed another schedule. -/
  sectionOk : Bool
  mismatch : Bool
  joined : Bool
  cycle : U32
  /-- Cycles since the ring formed, without wrap (R250). -/
  cycleNo : Nat
  /-- A reference arrived in this cycle. -/
  refHere : Bool
  missing : Nat
  /-- Fields of the last `SYNC_REF`, as the station sent it on. -/
  last : SyncRef
  /-- A `SYNC_REF` has been received since this start (R261). -/
  heard : Bool
  /-- Rank and station of the master followed. -/
  rank : Nat
  masterStn : Nat
  /-- This station is the schedule master, and gives way at the next cycle. -/
  master : Bool
  yieldNext : Bool
  /-- Master: consecutive returning references whose consent equals present (R258). -/
  equalRefs : Nat
  sleepAt : U32
  handoverAt : U32
  consentCmd : Bool
  /-- V0: consecutive corrections within ±10 ns, `SYNC_OK`, cycles of settling left (R254, R255). -/
  goodCorr : Nat
  syncOk : Bool
  settling : Nat
  v0Offset : Int
  waveDelay : Nat
  v1Step : Int
  /-- The wave's path changed: the next `SYNC_REF` steps V1 (R250). -/
  newPath : Bool
  /-- Local cycle starts until the first cycle on the new path is complete (R243), 0 for none. -/
  heal : Nat
  /-- The port of the wave's first passage (R225). -/
  inPort : Nat
  loopBacks : Nat
  heals : Nat
  relayDrops : Nat
  relayDropAt : Option Nat
  slots : Tbl SlotRx
  own : Tbl OwnSlot
  /-- The master's slot buffer (R226) and relay queue (R239). -/
  slotBuf : Tbl RingFrame
  relayQ : List RelayItem
  /-- Own dynamic frames waiting, with the VZF each is charged to (256 for none, 257 for the station's own traffic), credits
  spent in this cycle, and the deficits by VZF (R238). -/
  dynOut : List (Nat × RingFrame)
  spent : Nat
  drr : Drr
  /-- Records waiting for the next `VZF_DATA` frame of a VZF, each with the node that asked for it, and the node that asked last
  (R233). -/
  dataOut : Tbl (List (U16 × List Byte))
  dataHost : Tbl U16
  /-- Own secondary frames waiting, and frames held in the insertion buffer (R240). -/
  secOut : List RingFrame
  secBuf : List RingFrame
  /-- Frames sent or passed on last, newest first, with the output port: a view of the wire. -/
  wire : List (Nat × RingFrame)
  /-- Ports on which the station last sent a TC10 wake-up (R259, R260): a view of the links. -/
  tc10 : List Nat
  /-- Station and key slot recorded at the last start that reached Run (R261). -/
  recorded : Option (Nat × Nat)
  deriving DecidableEq, Repr

def syncRefZero : SyncRef :=
  { originNs := 0, originFrac := 0, corr := 0, tRc := 0, nS := 0, nM := 0, present := 0, consent := 0, sleepAt := 0,
    handoverAt := 0, loopStns := 0xFFFF, path := List.replicate 64 0xFF }

def RingState.reset : RingState :=
  { phase := .off, east := .reset, west := .reset, sectionOk := false, mismatch := false, joined := false, cycle := 0,
    cycleNo := 0, refHere := false, missing := 0, last := syncRefZero, heard := false, rank := 0, masterStn := 0,
    master := false, yieldNext := false, equalRefs := 0, sleepAt := 0, handoverAt := 0, consentCmd := false,
    goodCorr := 0, syncOk := false, settling := 0, v0Offset := 0, waveDelay := 0, v1Step := 0, newPath := false, heal := 0,
    inPort := 1, loopBacks := 0, heals := 0, relayDrops := 0, relayDropAt := none, slots := .empty, own := .empty, slotBuf := .empty,
    relayQ := [], dynOut := [], spent := 0, drr := .reset, dataOut := .empty, dataHost := .empty,
    secOut := [], secBuf := [], wire := [], tc10 := [], recorded := none }

end Sys2Proof.Machine
end

