-- ==== Sys2Proof/Machine/StTime.lean ====
section
/-! DEFINITION. State of the time base: views, capture units, trigger units and the RTC alarm (chapter 13). -/

namespace Sys2Proof.Machine

/-- A time: seconds (48 bits), nanoseconds (32 bits) and a fraction of 2^−16 ns (Table 13.2). -/
structure Time where
  sec : Nat
  ns : Nat
  frac : Nat
  deriving DecidableEq, Repr

def Time.zero : Time := { sec := 0, ns := 0, frac := 0 }

/-- A scheduled change of a view (R375). -/
structure ViewChange where
  at_ : Nat
  rate : Option Nat
  stepNs : Option (Int × Nat)
  set : Option Time
  setValid : Bool
  clearValid : Bool
  /-- The VZF whose command scheduled it, none for the system or the manager. -/
  owner : Option Nat
  deriving DecidableEq, Repr

structure View where
  baseCount : Nat
  baseTime : Time
  /-- Increment in 2^−44 ns a tick. -/
  inc : Nat
  valid : Bool
  fw : Bool
  alloc : Bool
  /-- Owner VZF, 0xFF for the system. -/
  owner : Nat
  gen : U16
  change : Option ViewChange
  deriving DecidableEq, Repr

def nominalIncrement : Nat := 0x1AAAAAAAAAAB

/-- A view after a power-on reset (R374). -/
def View.reset : View :=
  { baseCount := 0, baseTime := .zero, inc := nominalIncrement, valid := false, fw := false, alloc := false,
    owner := 255, gen := 0, change := none }

/-- V0 and V6 to V9 are servoed by the firmware (Table 13.4); V1 by the ring controller and the manager. -/
def View.resetAt (v : Nat) : View :=
  { View.reset with fw := decide (v ≤ 1) || (decide (6 ≤ v) && decide (v ≤ 9)) }

inductive Edge where
  | rising
  | falling
  | both
  deriving DecidableEq, Repr

/-- A capture unit (R379). -/
structure Capture where
  owner : Option Nat
  enabled : Bool
  source : Nat
  edge : Edge
  fifo : List Nat
  overflow : Nat
  episode : Bool
  deriving DecidableEq, Repr

def Capture.reset : Capture :=
  { owner := none, enabled := false, source := 0, edge := .rising, fifo := [], overflow := 0, episode := false }

/-- A trigger unit (R380): claimed by a VZF (or the system), armed with a view, a first time, a period and an action. -/
structure Trigger where
  claimed : Bool
  owner : Option Nat
  armed : Bool
  view : Nat
  first : Time
  period : Nat
  action : Nat
  target : Nat
  image : U32
  /-- Number of the next occurrence. -/
  next : Nat
  due : Nat
  late : Bool
  deriving DecidableEq, Repr

def Trigger.reset : Trigger :=
  { claimed := false, owner := none, armed := false, view := 0, first := .zero, period := 0, action := 0, target := 0,
    image := 0, next := 0, due := 0, late := false }

structure TimeState where
  /-- `TB_COUNT` (R368). -/
  count : U64
  /-- The 6-bit fraction accumulator of Bivouac (R47). -/
  bivFrac : Nat
  views : Tbl View
  captures : Tbl Capture
  triggers : Tbl Trigger
  /-- Target of the RTC alarm (R382). -/
  alarm : Option Nat
  deriving DecidableEq, Repr

def TimeState.reset : TimeState :=
  { count := 0, bivFrac := 0, views := .empty, captures := .empty, triggers := .empty, alarm := none }

end Sys2Proof.Machine
end

