-- ==== Sys2Proof/Machine/StEsw.lean ====
section
/-! DEFINITION. State of the Ethernet switch: ports, pots and cells, tables, queue pairs (chapter 10). -/

namespace Sys2Proof.Machine

/-- A port record (Table 10.3). -/
structure PortRecord where
  owner : Nat
  pvid : Nat
  en : Bool
  learn : Bool
  inFilter : Bool
  macsec : Bool
  gptp : Bool
  phyMaster : Bool
  lossless : Byte
  tsView : Nat
  keySlot : Nat
  pcpMap : U32
  potMap : List Nat
  rgBe : Byte
  deriving DecidableEq, Repr

/-- The defaults of Table 10.3. -/
def PortRecord.default : PortRecord :=
  { owner := 255, pvid := 1, en := true, learn := true, inFilter := true, macsec := false, gptp := false, phyMaster := false,
    lossless := 0, tsView := 0, keySlot := 0, pcpMap := 0x00FAC688, potMap := List.replicate 8 0, rgBe := 3 }

/-- PLCA settings of an S port (Table 10.2, Table 10.3). -/
structure Plca where
  en : Bool
  node : Nat
  count : Nat
  toTimer : Nat
  burst : Nat
  burstTimer : Nat
  deriving DecidableEq, Repr

def Plca.default : Plca := { en := true, node := 0, count := 8, toTimer := 32, burst := 0, burstTimer := 128 }

/-- A pot record (Table 10.4). -/
structure PotRecord where
  owner : Nat
  min : Nat
  max : Nat
  maxDesc : Nat
  deriving DecidableEq, Repr

def PotRecord.default : PotRecord := { owner := 255, min := 0, max := 16384, maxDesc := 4096 }

/-- A forwarding entry: a learned one records the port, or for RG the source station (R271). -/
structure FdbEntry where
  mac : BitVec 48
  vid : Nat
  ports : U32
  station : Nat
  static_ : Bool
  discard : Bool
  deriving DecidableEq, Repr

structure Vlan where
  members : U32
  untagged : U32
  deriving DecidableEq, Repr

def Vlan.none : Vlan := { members := 0, untagged := 0 }

/-- A credit-based shaper; the credit is in units of 1 ÷ 600,000 bit, at `TB_COUNT` `last`. -/
structure Shaper where
  slope : Nat
  credit : Int
  last : Nat
  deriving DecidableEq, Repr

/-- A gate control list: cycle time in ns, base time, intervals in ns with gate states. -/
structure GateList where
  cycle : Nat
  base : Time
  entries : List (Nat × Byte)
  deriving DecidableEq, Repr

/-- The admin and oper lists of a port or stream gate; `index` is the entry in force and `ends` the view time in ns at
which it ends. -/
structure Gates where
  oper : Option GateList
  admin : Option GateList
  index : Nat
  ends : Nat
  deriving DecidableEq, Repr

def Gates.open_ : Gates := { oper := Option.none, admin := Option.none, index := 0, ends := 0 }

/-- A stream filter (Table 10.13), and whether it blocks after an oversize frame. -/
structure StreamFilter where
  rec_ : FilterFields
  blocked : Bool
  deriving DecidableEq, Repr

/-- A flow meter (Table 10.2): its settings, whether all frames are red, and its buckets in units of 1 ÷ 600,000 bit at
`TB_COUNT` `last`. -/
structure Meter where
  flags : Byte
  cir : Nat
  eir : Nat
  cbs : Nat
  ebs : Nat
  allRed : Bool
  cTok : Nat
  eTok : Nat
  last : Nat
  deriving DecidableEq, Repr

/-- A meter with full buckets. -/
def Meter.ofFilter (f : FilterFields) (now : Nat) : Meter :=
  { flags := f.meterFlags, cir := f.cir.toNat, eir := f.eir.toNat, cbs := f.cbs.toNat, ebs := f.ebs.toNat, allRed := false,
    cTok := f.cbs.toNat * 4800000, eTok := f.ebs.toNat * 4800000, last := now }

/-- A replication or elimination function: its next sequence number, or its recovery history. -/
structure Frer where
  rec_ : FrerFields
  next : U16
  /-- Recovery: take any number first; the highest number seen; bit k of the history is number `recv` − k. -/
  takeAny : Bool
  recv : U16
  history : Nat
  last : Nat
  deriving DecidableEq, Repr

/-- The `ESW` section: the port records and pot table (R271), N_BANK (R274), the audit (R284), the I3 address (R354), and the
settings that a committed bank keeps. -/
structure EswSection where
  nBank : Nat
  tAud : Nat
  reclaim : Bool
  macI3 : BitVec 48
  ports : Tbl PortRecord
  plca : Tbl Plca
  pots : Tbl PotRecord
  vlans : Tbl Vlan
  fdb : List FdbEntry
  shapers : Tbl Shaper
  gates : Tbl Gates
  streamGates : Tbl Gates
  filters : Tbl StreamFilter
  meters : Tbl Meter
  frer : Tbl Frer
  /-- domainNumber of the gPTP instances V2 to V5, 256 for none (R378). -/
  domains : List Nat
  deriving DecidableEq, Repr

def EswSection.default : EswSection :=
  { nBank := 16, tAud := 10, reclaim := true, macI3 := 0, ports := .empty, plca := .empty, pots := .empty, vlans := .empty,
    fdb := [], shapers := .empty, gates := .empty, streamGates := .empty, filters := .empty, meters := .empty, frer := .empty,
    domains := [0, 256, 256, 256] }

/-- Six counters of `ESW.PORT_STATUS`. -/
structure EswCounts where
  rx : Nat
  tx : Nat
  rxBytes : Nat
  txBytes : Nat
  drops : Nat
  macsec : Nat
  deriving DecidableEq, Repr

def EswCounts.zero : EswCounts := { rx := 0, tx := 0, rxBytes := 0, txBytes := 0, drops := 0, macsec := 0 }

structure EswPort where
  rec_ : PortRecord
  plca : Plca
  link : Bool
  macsecLive : Bool
  /-- In PLCA (0: CSMA/CD), and the episode of `EVT_ESW_PLCA_LOST`. -/
  plcaAct : Bool
  plcaLost : Bool
  /-- Classes whose source is held back (R280). -/
  held : Byte
  count : EswCounts
  deriving DecidableEq, Repr

def EswPort.reset : EswPort :=
  { rec_ := .default, plca := .default, link := false, macsecLive := false, plcaAct := false, plcaLost := false, held := 0,
    count := .zero }

structure Pot where
  rec_ : PotRecord
  used : Nat
  desc : Nat
  peak : Nat
  dropFull : Nat
  dropLast : Nat
  lossless : Nat
  reclaimed : Nat
  episode : Bool
  deriving DecidableEq, Repr

def Pot.reset : Pot :=
  { rec_ := .default, used := 0, desc := 0, peak := 0, dropFull := 0, dropLast := 0, lossless := 0, reclaimed := 0,
    episode := false }

/-- The transmit descriptor that a stored frame came from. -/
structure TxRef where
  vzf : Nat
  pair : Nat
  entry : Nat
  gen : U16
  tsReq : Bool
  oneStep : Bool
  deriving DecidableEq, Repr

/-- An egress copy: the port, the VZF it is for on I0, I1 or a ring attachment, and the ring destination; the cells that still wait at
the ingress port for the crossbar, and once they all have crossed, its number in the order in which copies did (R277). -/
structure EgressCopy where
  port : Nat
  vzf : Option Nat
  dst : U16
  left : Nat := 0
  order : Nat := 0
  deriving DecidableEq, Repr

/-- A frame in the cell memory. -/
structure Stored where
  frame : EthFrame
  vid : Nat
  len : Nat
  cls : Nat
  pot : Nat
  plane : Nat
  cells : Nat
  ingress : Nat
  station : Nat
  protected_ : Bool
  flooded : Bool
  /-- Ingress time in 2^−16 ns of the view that stamps it (R286). -/
  stamp : Int
  tx : Option TxRef
  copies : List EgressCopy
  /-- Egress ports at which an R-TAG is generated or removed, with the number (R268). -/
  tagOut : Option (U32 × U16)
  stripOut : U32
  deriving DecidableEq, Repr

/-- Nine counters of `ESW.STATS`. -/
structure EswStats where
  switched : Nat
  flooded : Nat
  oversize : Nat
  noRoute : Nat
  spoof : Nat
  qci : Nat
  frer : Nat
  ecc : Nat
  stalls : Nat
  deriving DecidableEq, Repr

def EswStats.zero : EswStats :=
  { switched := 0, flooded := 0, oversize := 0, noRoute := 0, spoof := 0, qci := 0, frer := 0, ecc := 0, stalls := 0 }

/-- A completion written back to a transmit descriptor (Table 10.8). -/
structure TxDone where
  status : Nat
  reason : Nat
  stamp : U64
  deriving DecidableEq, Repr

/-- A receive descriptor (Table 10.9) with its frame. -/
structure RxDone where
  len : Nat
  port : Nat
  flags : Byte
  tci : U16
  gen : U16
  station : U16
  stamp : U64
  frac : U16
  frame : EthFrame
  deriving DecidableEq, Repr

/-- A queue pair (Tables 10.5 to 10.7); completions and received frames by ring entry. -/
structure QPair where
  txProd : U16
  txCons : U16
  rxProd : U16
  rxCons : U16
  depthLog2 : Nat
  pot : Nat
  txTc : Byte
  prodErr : Bool
  consErr : Bool
  rxFull : Bool
  badDesc : Bool
  rxDrop : Nat
  base : U64
  /-- Descriptors that wait while their class is held back (R280), and completions not yet passed by `ESW_TXQ_CONS`. -/
  waiting : List TxDesc
  done : Tbl TxDone
  rx : Tbl RxDone
  deriving DecidableEq, Repr

def QPair.reset : QPair :=
  { txProd := 0, txCons := 0, rxProd := 0, rxCons := 0, depthLog2 := 8, pot := 0, txTc := 0xFF, prodErr := false,
    consErr := false, rxFull := false, badDesc := false, rxDrop := 0, base := 0, waiting := [], done := .empty, rx := .empty }

structure EswState where
  /-- The switch runs (its domains are powered and the section is loaded). -/
  on : Bool
  nBank : Nat
  macI3 : BitVec 48
  domains : List Nat
  ports : Tbl EswPort
  pots : Tbl Pot
  vlans : Tbl Vlan
  fdb : List FdbEntry
  /-- By 8 × port + class. -/
  shapers : Tbl Shaper
  drr : Tbl Drr
  gates : Tbl Gates
  streamGates : Tbl Gates
  filters : Tbl StreamFilter
  meters : Tbl Meter
  frer : Tbl Frer
  /-- Cells: free, scrubbing by plane, retired (with the banks that are off they make the hold pot). -/
  free : Nat
  scrub0 : Nat
  scrub1 : Nat
  hold : Nat
  descFree : Nat
  stored : List Stored
  /-- Crossbar: the round-robin pointers of the egress ports and of the ingress ports, by 21 × plane + port, and the copies that have
  crossed (R277). -/
  grantPtr : Tbl Nat
  acceptPtr : Tbl Nat
  crossed : Nat
  /-- Lossless requests that wait for cells (R280). -/
  waiting : List Stored
  /-- The last-cell round-robin pointer (R279). -/
  pointer : Nat
  /-- Loose cells of the last two snapshots, and whether a comparison runs (R284). -/
  loose : List LooseCell
  looseBefore : List LooseCell
  comparing : Bool
  tAud : Nat
  reclaim : Bool
  leaks : Nat
  reclaimed : Nat
  auditAt : Nat
  qps : Tbl QPair
  stats : EswStats
  /-- Frames sent last, newest first: port, egress time in ns, frame. A view of the wire. -/
  out : List (Nat × Nat × EthFrame)
  deriving DecidableEq, Repr

/-- Cells of the memory, of a bank, and descriptors (chapter 10). -/
def totalCells : Nat := 262144
def bankCells : Nat := 16384
def totalDescs : Nat := 131072

def EswState.reset : EswState :=
  { on := false, nBank := 16, macI3 := 0, domains := [0, 256, 256, 256], ports := .empty, pots := .empty, vlans := .empty,
    fdb := [], shapers := .empty, drr := .empty, gates := .empty, streamGates := .empty, filters := .empty, meters := .empty, frer := .empty,
    free := totalCells, scrub0 := 0, scrub1 := 0, hold := 0, descFree := totalDescs, stored := [], grantPtr := .empty, acceptPtr := .empty, crossed := 0, waiting := [], pointer := 0,
    loose := [], looseBefore := [], comparing := false, tAud := 10, reclaim := true, leaks := 0, reclaimed := 0, auditAt := 0,
    qps := .empty, stats := .zero, out := [] }

end Sys2Proof.Machine
end

