-- ==== Sys2Proof/Machine/StFio.lean ====
section
/-! DEFINITION. State of the field inputs, sensor supplies and the isolated bank with its field-side die (chapter 7). -/

namespace Sys2Proof.Machine

/-- Wiring of a discrete input (Table 7.1). -/
inductive Wiring where
  | none
  | par
  | ser
  deriving DecidableEq, Repr

/-- A discrete input record (Table 7.1). -/
structure DiRecord where
  vTh : Nat
  vWb : Nat
  iW : Nat
  pulsed : Bool
  pullDown : Bool
  wiring : Wiring
  tPw : Nat
  tS : Nat
  n : Nat
  deriving DecidableEq, Repr

def DiRecord.default : DiRecord :=
  { vTh := 16, vWb := 40, iW := 0, pulsed := false, pullDown := false, wiring := .none, tPw := 5, tS := 100, n := 50 }

/-- Raw and reported states (Tables 7.2, 7.3). -/
inductive DiVal where
  | open_
  | closed
  | wireFault
  | notValid
  deriving DecidableEq, Repr

def DiVal.code : DiVal → Nat
  | .open_ => 0
  | .closed => 1
  | .wireFault => 2
  | .notValid => 3

structure DiInput where
  rec_ : DiRecord
  /-- The two comparators, with their 0.2 V hysteresis. -/
  cmpTh : Bool
  cmpWb : Bool
  c : Nat
  f : Nat
  /-- Contact state; none until C first reaches 0 or N (R180). -/
  contact : Option Bool
  fault : Bool
  state : DiVal
  /-- `FIO_DI_CHG` bit, and the changes since the last `FIO.DI_READ`. -/
  chg : Bool
  readChg : Bool
  stamp : U64
  deriving DecidableEq, Repr

/-- C at ⌈N ÷ 2⌉ and F at 0 (R180). -/
def DiInput.restart (d : DiInput) (r : DiRecord) : DiInput :=
  { d with rec_ := r, c := (r.n + 1) / 2, f := 0, contact := .none, fault := false }

def DiInput.reset : DiInput :=
  { rec_ := .default, cmpTh := false, cmpWb := false, c := 25, f := 0, contact := .none, fault := false, state := .notValid,
    chg := false, readChg := false, stamp := 0 }

/-- Cyclic sensing of one input in Bivouac (R182): the record it samples with, its reference and the
differing samples in a row. -/
structure CycSense where
  rec_ : DiRecord
  ref : Option DiVal
  differ : Nat
  deriving DecidableEq, Repr

def CycSense.reset : CycSense := { rec_ := .default, ref := none, differ := 0 }

/-- Range, ratiometric source (0 none, 1 to 4 `SUP0` to `SUP3`) and averaging exponent (R183). -/
structure AiConfig where
  range : Nat
  ratio : Nat
  k : Nat
  deriving DecidableEq, Repr

def AiConfig.default : AiConfig := { range := 2, ratio := 0, k := 0 }

structure AiInput where
  cfg : AiConfig
  /-- The last 64 codes, newest first, each none where not valid; the mean takes the last 2^k. -/
  hist : List (Option Nat)
  code : Nat
  orange : Bool
  supf : Bool
  count : U16
  value : Nat
  deriving DecidableEq, Repr

def AiInput.reset : AiInput :=
  { cfg := .default, hist := [], code := 0x3FFF, orange := false, supf := false, count := 0, value := 0xFFFF }

structure SupState where
  on : Bool
  ok : Bool
  ilim : Bool
  extV : Bool
  iMa : Nat
  vMv : Nat
  deriving DecidableEq, Repr

def SupState.reset : SupState := { on := false, ok := false, ilim := false, extV := false, iMa := 0, vMv := 0 }

/-- Modes of an isolated channel (Table 7.4). -/
inductive XMode where
  | in3
  | in1
  | out
  deriving DecidableEq, Repr

def XMode.code : XMode → Nat
  | .in3 => 0
  | .in1 => 1
  | .out => 2

/-- Safe states of an isolated channel (R191). -/
inductive XSafe where
  | off
  | on
  | hold
  deriving DecidableEq, Repr

def XSafe.code : XSafe → Nat
  | .off => 0
  | .on => 1
  | .hold => 2

structure XConfig where
  mode : XMode
  safe : XSafe
  owEn : Bool
  xdb : Nat
  deriving DecidableEq, Repr

def XConfig.default : XConfig := { mode := .in3, safe := .off, owEn := false, xdb := 0 }

/-- An isolated channel: primary side first, then the field-side die (R186 to R193). -/
structure XChan where
  cfg : XConfig
  /-- Primary state: 0 low, 1 high, 2 diagnostic active, 3 not valid. -/
  state : Nat
  ovl : Bool
  open_ : Bool
  ot : Bool
  rbErr : Bool
  /-- Command in the downlink frames, the output state it puts in force with the `TB_COUNT` of its last change, and frames in a
  row that match it or do not (R188). -/
  sent : Nat
  force : Bool
  forceAt : Nat
  bad : Nat
  good : Nat
  /-- Software command in force, and the wait for the first command of a new generation (Table 7.9). -/
  cmd : Bool
  held : Option Bool
  waits : Bool
  /-- Field side: configuration applied, output, safe state in force, diagnostics, and input or readback level. -/
  fCfg : XConfig
  fCfgSet : Bool
  fOut : Bool
  fCmd : Nat
  fOvl : Bool
  fOpen : Bool
  fOt : Bool
  deriving DecidableEq, Repr

def XChan.reset : XChan :=
  { cfg := .default, state := 3, ovl := false, open_ := false, ot := false, rbErr := false, sent := 0, force := false, forceAt := 0, bad := 0,
    good := 0, cmd := false, held := none, waits := false, fCfg := .default, fCfgSet := false, fOut := false, fCmd := 0,
    fOvl := false, fOpen := false, fOt := false }

/-- The isolated command registers of one VZF (Table 7.11, R196). -/
structure XSlot where
  tagGen : U16
  tagSeq : U16
  mask : U32
  /-- The mask named a channel that the VZF does not own; its bit was ignored (R195, `BAD_CMD`). -/
  maskBad : Bool
  val : U32
  ackGen : U16
  ackSeq : U16
  /-- Acknowledgement of a command held in Start-up (R40). -/
  heldAck : Option (U16 × U16)
  stale : Bool
  bad : Bool
  deriving DecidableEq, Repr

def XSlot.reset : XSlot :=
  { tagGen := 0, tagSeq := 0, mask := 0, maskBad := false, val := 0, ackGen := 0, ackSeq := 0, heldAck := none, stale := false,
    bad := false }

/-- The bank and the barrier link (R189 to R194). -/
structure XBank where
  up : Bool
  timedOut : Bool
  cfgNeeded : Bool
  xvfLow : Bool
  /-- `XVF` in 100 mV as page 3 gives it, and the timeout count it carried. -/
  xvf : Nat
  timeouts : Nat
  sawPage3 : Bool
  crcErr : Nat
  downSeq : Byte
  upSeq : Option Byte
  lost : Nat
  /-- Valid uplink frames in a row while the link is down. -/
  run : Nat
  /-- `CFG_ACK` as last seen, and configuration words (address, data) that wait for it. -/
  ackSeen : Bool
  words : List (Nat × Nat)
  tXto : Nat
  /-- A `FIO.X_SAFE` that waits for its acknowledgements: port, Tag, REQ_SEQ. -/
  safeReq : Option (Nat × U32 × U32)
  /-- The last downlink frame on the link (Table 7.6). -/
  line : BitVec 128
  /-- Field side: powered, sequence of its last valid frame, frames lost, sequence of the last frame that it sent, `CFG_ACK`, t_XTO, timed out, timeout count, defaults, `XVF_LOW`. -/
  fPowered : Bool
  fDownSeq : Option Byte
  fLost : Nat
  fUpSeq : Byte
  fAck : Bool
  fXto : Nat
  fTimedOut : Bool
  fTimeouts : Nat
  fCfgNeeded : Bool
  fXvfLow : Bool
  deriving DecidableEq, Repr

def XBank.reset : XBank :=
  { up := false, timedOut := false, cfgNeeded := true, xvfLow := false, xvf := 0, timeouts := 0, sawPage3 := false, crcErr := 0, downSeq := 0,
    upSeq := none, lost := 0, run := 0, ackSeen := false, words := [], tXto := 100, safeReq := none, line := 0,
    fPowered := false, fDownSeq := none, fLost := 0, fUpSeq := 0, fAck := false, fXto := 100, fTimedOut := false, fTimeouts := 0, fCfgNeeded := true,
    fXvfLow := false }

structure FioState where
  di : Tbl DiInput
  /-- Latched `FIO_DI_STAMP_HI` of each VZF. -/
  diStampHi : Tbl U32
  cycMask : BitVec 16
  tCyc : Nat
  cycK : Nat
  cyc : Tbl CycSense
  /-- Waking inputs of the last Bivouac wake. -/
  waking : BitVec 16
  ai : Tbl AiInput
  sup : Tbl SupState
  x : Tbl XChan
  slots : Tbl XSlot
  bank : XBank
  deriving DecidableEq, Repr

def FioState.reset : FioState :=
  { di := .empty, diStampHi := .empty, cycMask := 0, tCyc := 50, cycK := 2, cyc := .empty, waking := 0, ai := .empty,
    sup := .empty, x := .empty, slots := .empty, bank := .reset }

end Sys2Proof.Machine
end

