-- ==== Sys2Proof/Machine/StRfx.lean ====
section
/-! DEFINITION. State of the reflex engine and of self-arrest (chapter 8). -/

namespace Sys2Proof.Machine

/-- One predicate slot (Tables 8.4, 8.5). -/
structure Pred where
  ptype : Nat
  cond : Nat
  src : Nat
  arg : U32
  deriving DecidableEq, Repr

def Pred.none : Pred := { ptype := 0, cond := 0, src := 0, arg := 0 }

/-- A rule record (Tables 8.1 to 8.3). `act`: 0 OFF, 1 ON, 2 PWM, 3 SHED, 4 SELF_ARREST, 5 EVENT. -/
structure Rule where
  en : Bool
  susp : Bool
  latch : Bool
  sysr : Bool
  prio : Nat
  owner : Nat
  act : Nat
  evt : Bool
  ecls : Nat
  target : Nat
  duty : Nat
  preds : List Pred
  deriving DecidableEq, Repr

def Rule.empty : Rule :=
  { en := false, susp := false, latch := false, sysr := false, prio := 0, owner := 0, act := 0, evt := false, ecls := 0,
    target := 0, duty := 0, preds := [.none, .none, .none, .none] }

/-- A rule in the engine: its record, state and counters (R202 to R207). -/
structure RuleRun where
  rule : Rule
  /-- The rule is active: enabled, not suspended, all predicates true. -/
  active : Bool
  /-- A LATCH rule's action is in force. -/
  latched : Bool
  suspended : Bool
  /-- Hysteresis memory of the AI predicates and open edge windows of the DI predicates, by slot. -/
  aiMem : List Bool
  edge : List Bool
  fired : Nat
  blocked : Nat
  lastFire : Nat
  blockRaised : Bool
  /-- The action was applied at the last merge (R206). -/
  applied : Bool
  /-- `TB_COUNT` of the last `EVT_RFX_FIRED` (R202). -/
  lastEvt : Option Nat
  /-- Firings whose `EVT_RFX_FIRED` was withheld (R202). -/
  withheld : Nat
  byCommand : Bool
  deriving DecidableEq, Repr

def RuleRun.reset : RuleRun :=
  { rule := .empty, active := false, latched := false, suspended := false, aiMem := [false, false, false, false],
    edge := [false, false, false, false], fired := 0, blocked := 0, lastFire := 0, blockRaised := false, applied := false,
    lastEvt := none, withheld := 0, byCommand := false }

/-- An entry of the limp table (Table 8.9). -/
structure LimpEntry where
  lmode : Nat
  lval : Nat
  deriving DecidableEq, Repr

structure RfxState where
  enabled : Bool
  /-- The rule table has been read back and matches its digest (R37, R38). -/
  checked : Bool
  /-- Single-bit errors corrected in the rule table (R216). -/
  corrected : Nat
  rules : Tbl RuleRun
  /-- `SAFE_N` after its filter: low (asserted) is true. -/
  safeN : Bool
  tSnf : Nat
  sna : Bool
  /-- Self-arrest in force, with its source, and `MGR_MODE.ARRESTED` (R212, R213). -/
  arrested : Bool
  source : Nat
  /-- The first trigger of this start has been taken. -/
  arrestRaised : Bool
  limpApplied : Bool
  /-- t_LIMP has passed since the self-arrest (R213). -/
  limpDue : Bool
  /-- The limp table is never applied: the arrest came in Limp (R208) or leads to a restart (R507). -/
  noLimp : Bool
  deriving DecidableEq, Repr

def RfxState.reset : RfxState :=
  { enabled := false, checked := false, corrected := 0, rules := .empty, safeN := true, tSnf := 4, sna := true, arrested := false, source := 0,
    arrestRaised := false, limpApplied := false, limpDue := false, noLimp := false }

end Sys2Proof.Machine
end

