-- ==== Sys2Proof/Machine/StSig.lean ====
section
/-! DEFINITION. State of the signal exchange and of the press codec (chapter 12). -/

namespace Sys2Proof.Machine

/-- Kinds of signal descriptor (Table 12.4). -/
inductive SigKind where
  | signal
  | chained
  | sink
  deriving DecidableEq, Repr

/-- A signal descriptor (Table 12.4). Arguments and the substitute are the record's 32-bit words; `sinks` are the references
in use, in order. -/
structure SigDesc where
  kind : SigKind
  bo : Bool
  signed : Bool
  invEn : Bool
  invSubst : Bool
  idxHi : Nat
  len : Nat
  bitpos : Nat
  pdu : Nat
  transform : Nat
  policy : Nat
  ageLim : Nat
  argA : U32
  argB : U32
  subst : U32
  interval : Nat
  owner : Nat
  sinks : List Nat
  deriving DecidableEq, Repr

/-- A value: a number, or the not-valid code that is passed on (R342). -/
inductive SigVal where
  | num (v : Int)
  | notValid
  deriving DecidableEq, Repr

/-- What runs with a descriptor. -/
structure SigRun where
  /-- The current value, and whether its computing clamped. -/
  cur : Option SigVal
  curSat : Bool
  subst : Bool
  /-- The value last written and whether it was the substitute. -/
  written : Option SigVal
  writtenSubst : Bool
  sat : Bool
  satRead : Bool
  satRaised : Bool
  count : U16
  /-- `TB_COUNT` of the last write. -/
  stamp : U64
  /-- Memory of THRESHOLD. -/
  thr : Bool
  /-- The confirmed cycle C of a `RING_RX` signal (R347). -/
  conf : Option U32
  deferred : Bool
  disabled : Bool
  /-- Loaded by `SIG.LOAD`, and no update of its source since: age 255 (R355). -/
  loaded : Bool
  /-- SINK: the field's value, written since the start, and for a ring entry its order of writing and last cycle sent. -/
  field : Nat
  once : Bool
  fresh : Bool
  order : Nat
  sent : Option U32
  deriving DecidableEq, Repr

def SigRun.reset : SigRun :=
  { cur := none, curSat := false, subst := false, written := none, writtenSubst := false, sat := false, satRead := false,
    satRaised := false, count := 0, stamp := 0, thr := false, conf := none, deferred := false, disabled := false, loaded := false,
    field := 0, once := false, fresh := false, order := 0, sent := none }

/-- A PDU descriptor (Table 12.2); `fields` are the 20 bytes of Table 12.3. -/
structure PduDesc where
  kind : Nat
  owner : Nat
  length : Nat
  trig : Nat
  period : Nat
  tTo : Nat
  fields : List Byte
  deriving DecidableEq, Repr

/-- What runs with a PDU: its data or image and the source state. -/
structure PduRun where
  data : List Byte
  valid : Bool
  age : Nat
  disabled : Bool
  /-- Sink: `TB_COUNT` of the last send; a send waits for its PERIOD; an image waits for its TX buffer. -/
  lastSend : Option Nat
  sendWaits : Bool
  bufWaits : Bool
  /-- `RING_RX`: values by entry index, and the origin cycle of the last good frame. -/
  entries : Tbl Nat
  lastOrigin : Option U32
  /-- `RING_TX`: rotation place and cycle of the last backlog. -/
  rot : Nat
  backlog : Option U32
  /-- `WIN_READ`: the descriptor that wrote last, and whether the value is sign-extended from its length. -/
  writer : Option Nat
  deriving DecidableEq, Repr

def PduRun.reset : PduRun :=
  { data := [], valid := true, age := 255, disabled := false, lastSend := none, sendWaits := false, bufWaits := false,
    entries := .empty, lastOrigin := none, rot := 0, backlog := none, writer := none }

/-- A source PDU event in a pipeline queue (R349): the data, and for `RING_RX` the frame's origin cycle. -/
structure SigEvent where
  pdu : Nat
  data : List Byte
  origin : U32
  deriving DecidableEq, Repr

/-- A frame that leaves on I3 (R354, R363). -/
structure I3Frame where
  mac : BitVec 48
  vid : Nat
  pcp : Nat
  payload : List Byte
  deriving DecidableEq, Repr

/-- Configuration of a press codec stream (Table 12.17). -/
structure PrsConfig where
  sources : List Nat
  e : Nat
  k : Nat
  i3 : Bool
  capEn : Bool
  pre : Nat
  vid : Nat
  pcp : Nat
  mac : BitVec 48
  owner : Option Nat
  deriving DecidableEq, Repr

structure PrsBlock where
  stream : Nat
  seq : U32
  pos : Nat
  bytes : List Byte
  deriving DecidableEq, Repr

structure PrsStream where
  config : Option PrsConfig
  started : Bool
  /-- T0 in ns. -/
  t0 : U64
  /-- Sequence of the block period that is being coded; this period is being dropped. -/
  seq : U32
  dropping : Bool
  lastSent : U32
  dropped : Nat
  episode : Bool
  deriving DecidableEq, Repr

def PrsStream.reset : PrsStream :=
  { config := none, started := false, t0 := 0, seq := 0, dropping := false, lastSent := 0, dropped := 0, episode := false }

/-- A capture (R364); `at_` is the `TB_COUNT` of the trigger sample. -/
structure Capture4k where
  source : Nat
  stream : Nat
  at_ : U64
  pre : Nat
  complete : Bool
  samples : List Int
  deriving DecidableEq, Repr

structure SigState where
  descs : Tbl SigDesc
  runs : Tbl SigRun
  pdus : Tbl PduDesc
  pduRuns : Tbl PduRun
  lookup : Tbl U32
  /-- Pipeline queues 0 to 3, oldest event first. -/
  queues : Tbl (List SigEvent)
  dropped : Nat
  overloadAt : Option Nat
  backlogs : Nat
  deferrals : Nat
  wrongLength : Nat
  ignoredRecords : Nat
  ignoredEntries : Nat
  /-- Substitute events by VZF: the second and the number in it; and those not raised (R365). -/
  substRate : Tbl (Nat × Nat)
  substHidden : Nat
  writes : Nat
  /-- Sink PDUs written in the event that runs (R344). -/
  dirty : List Nat
  /-- Write slots and latched read slots by VZF × 1,024 + slot. -/
  wrSlots : Tbl (U32 × U32)
  rdLatch : Tbl (U32 × U32 × U32)
  i3Out : List I3Frame
  streams : Tbl PrsStream
  /-- Engine buffers 0 to 3, oldest block first. -/
  buffers : Tbl (List PrsBlock)
  /-- The last 4,096 raw samples by source code, oldest first. -/
  recent : Tbl (List Int)
  captures : Tbl Capture4k
  captureDiscards : Nat
  deriving DecidableEq, Repr

def SigState.reset : SigState :=
  { descs := .empty, runs := .empty, pdus := .empty, pduRuns := .empty, lookup := .empty, queues := .empty, dropped := 0,
    overloadAt := none, backlogs := 0, deferrals := 0, wrongLength := 0, ignoredRecords := 0, ignoredEntries := 0,
    substRate := .empty, substHidden := 0, writes := 0, dirty := [], wrSlots := .empty, rdLatch := .empty, i3Out := [],
    streams := .empty, buffers := .empty, recent := .empty, captures := .empty, captureDiscards := 0 }

end Sys2Proof.Machine
end

