-- ==== Sys2Proof/Machine/StApp.lean ====
section
/-! DEFINITION. State of the application cluster: its harts (R387, Table 14.1) and its interrupt controllers (R388, Table 14.2). -/

namespace Sys2Proof.Machine

/-- An application hart: what Table 14.1 gives it beside its programs, which the model does not run (log entry 141). `time` is
`TB_COUNT` (R369). -/
structure AppHart where
  hartId : Nat
  misa : U64
  /-- PMP entries: configuration and address. -/
  pmp : List (Byte × U64)
  /-- Zihpm counters, and the compare value of Sstc. -/
  hpm : List U64
  stimecmp : U64
  /-- First-stage and G-stage roots (Sv39, Sv48; Sv39x4, Sv48x4). -/
  satp : U64
  hgatp : U64
  deriving DecidableEq, Repr

/-- RV64 with A, C, D, F, H, I, M, S and U, and no other letter (R387). -/
def appMisa : U64 := 0x80000000001411AD

def AppHart.reset (h : Nat) : AppHart :=
  { hartId := h, misa := appMisa, pmp := List.replicate 16 (0, 0), hpm := List.replicate 16 0, stimecmp := 0xFFFFFFFFFFFFFFFF, satp := 0, hgatp := 0 }

/-- Interrupts that a guest may see at once, the guest files of a hart. -/
def geilen : Nat := 7

/-- An IMSIC file: identities 1 to 255 pending and enabled. -/
structure Imsic where
  pend : BitVec 256
  en : BitVec 256
  deriving DecidableEq, Repr

def Imsic.reset : Imsic := { pend := 0, en := 0 }

/-- A domain of the APLIC: its 63 sources by number. A source has effect while it is active; delivery is by MSI to a hart's file. -/
structure Aplic where
  ie : Bool
  active : U64
  en : U64
  pend : U64
  /-- Hart, file and identity of each source's MSI. -/
  target : Tbl (Nat × Nat × Nat)
  deriving DecidableEq, Repr

def Aplic.reset : Aplic := { ie := false, active := 0, en := 0, pend := 0, target := .empty }

structure AppState where
  /-- The harts 0 to 7. -/
  harts : List AppHart
  /-- IMSIC files by 16 × hart + file: 0 M-level, 1 S-level, 2 to 8 guest files 1 to 7. -/
  imsic : Tbl Imsic
  /-- The machine and the supervisor domain. -/
  machine : Aplic
  supervisor : Aplic
  deriving DecidableEq, Repr

def AppState.reset : AppState :=
  { harts := (List.range 8).map AppHart.reset, imsic := .empty, machine := .reset, supervisor := .reset }

end Sys2Proof.Machine
end

