-- ==== Sys2Proof/Machine/StSys.lean ====
section
/-! DEFINITION. State of the modes, the start-up sequence, the clocks, the boardnet and the wake record
(chapters 1, 2 and 17). -/

namespace Sys2Proof.Machine

/-- Operating modes (Table 2.1). -/
inductive Mode where
  | off
  | startup
  | run
  | limp
  | workshop
  | basecamp
  | bivouac
  deriving DecidableEq, Repr

def Mode.code : Mode → Nat
  | .off => 0
  | .startup => 1
  | .run => 2
  | .limp => 3
  | .workshop => 4
  | .basecamp => 5
  | .bivouac => 6

/-- Boardnet classes (R14). -/
inductive Boardnet where
  | v48
  | v24
  | v12
  deriving DecidableEq, Repr

/-- How far the logic die is from running (R497): no logic supply, supply valid and waiting for the reference,
or released at t0. -/
inductive LogicPhase where
  | unpowered
  | waiting
  | running
  deriving DecidableEq, Repr

/-- `MGR_WAKE_CAUSE` (Table 2.3). -/
structure WakeCause where
  por : Bool
  wakePin : Bool
  belay : Bool
  rtc : Bool
  ringE : Bool
  ringW : Bool
  /-- P0 to P7. -/
  portP : BitVec 8
  can : U16
  di : Bool
  restart : Bool
  deriving DecidableEq, Repr

def WakeCause.zero : WakeCause :=
  { por := false, wakePin := false, belay := false, rtc := false, ringE := false, ringW := false, portP := 0, can := 0,
    di := false, restart := false }

/-- `POR` resets to 1, every other bit to 0 (Table 2.3). -/
def WakeCause.reset : WakeCause := { WakeCause.zero with por := true }

def WakeCause.word (w : WakeCause) : U32 :=
  BitVec.ofNat 32 ((if w.por then 2 ^ 31 else 0) + (if w.wakePin then 2 ^ 30 else 0) + (if w.belay then 2 ^ 29 else 0)
    + (if w.rtc then 2 ^ 28 else 0) + (if w.ringE then 2 ^ 27 else 0) + (if w.ringW then 2 ^ 26 else 0)
    + w.portP.toNat * 2 ^ 18 + w.can.toNat * 4 + (if w.di then 2 else 0) + (if w.restart then 1 else 0))

/-- A nonce that `SYS.CHALLENGE` (or `SYS.GET_MODE` in Basecamp) returned: the number of its bytes and the
`TB_COUNT` of its issue (R32). -/
structure Nonce where
  id : Nat
  issued : Nat
  deriving DecidableEq, Repr

/-- Steps of the entry into Bivouac that are done (R35). -/
inductive BivouacPhase where
  | none
  /-- Steps 1 to 3 done, step 4 not begun. -/
  | entering
  /-- Step 4 begun: a wake is latched. -/
  | switching
  | asleep
  deriving DecidableEq, Repr

structure SysState where
  mode : Mode
  prevMode : Mode
  phase : LogicPhase
  /-- Trigger code that the `EVT_MODE_CHANGE` of the next start, or of the Bivouac entry in progress, carries (R28). -/
  startTrigger : Nat
  /-- The next start follows a power-on reset (R36). -/
  porPending : Bool
  /-- The next start follows Bivouac (Table 13.1). -/
  fromBivouac : Bool
  /-- Starts since manufacture (`MGR_BOOT_COUNT`). -/
  bootCount : U32
  heartbeat : U32
  /-- Consecutive starts that reached neither Run nor Limp (Table 2.5). -/
  failedStarts : Nat
  /-- This start reached Run or Limp. -/
  reached : Bool
  /-- Start-up steps done, 0 to 15 (Table 2.4). -/
  step : Nat
  /-- What this start finds, from t0 on (Table 2.4). -/
  facts : Option StartFacts
  rootLock : Bool
  onRef : Bool
  aonXtal : Bool
  monTrip : Bool
  wake : WakeCause
  /-- Wake sources latched during Bivouac entry step 4 (R35). -/
  wakeLatched : Bool
  bivouac : BivouacPhase
  /-- `CFG_PROVEN`. -/
  proven : Bool
  /-- Running under a waiver token (R56). -/
  waiver : Bool
  /-- Boardnet hold-off (R15) and whether the class check passed. -/
  holdOff : Bool
  vinChecked : Bool
  /-- Class that the VIN pair controller applies; none is 9 V to 60 V (R18). -/
  pairClass : Option Boardnet
  /-- Entry status reported in Basecamp (Table 2.11). -/
  basecampStatus : U16
  nonces : List Nonce
  /-- `PD_APP`, DDR: the boot stage is released (R39), and stopped under the Limp policy STOP. -/
  appReleased : Bool
  appStopped : Bool
  ddrTrained : Bool
  /-- The harts and interrupt controllers of the application cluster. -/
  app : AppState
  /-- Power domains that are on, by number (Table 0.6 order). -/
  domains : List Nat
  /-- A wake request of the station's own that no reference has carried yet (R258). -/
  wakeReq : Bool
  /-- `EVT_BRG_LOGIC_LOW` raised in this start (R154). -/
  logicLowRaised : Bool
  /-- Logic die held in reset over its temperature (R500). -/
  dieHot : Bool
  /-- Baseplate temperature in 0.1 °C, its episodes, and the loss limit of R93 in mW. -/
  baseTemp : Int
  hotEpisode : Bool
  overEpisode : Bool
  lossLimitMw : Nat
  deriving DecidableEq, Repr

def SysState.reset : SysState :=
  { mode := .off, prevMode := .off, phase := .unpowered, startTrigger := 1, porPending := true, fromBivouac := false, bootCount := 0,
    heartbeat := 0, failedStarts := 0, reached := true, step := 0, facts := none, rootLock := false, onRef := true, aonXtal := false,
    monTrip := false, wake := .reset, wakeLatched := false, bivouac := .none, proven := false, waiver := false,
    holdOff := false, vinChecked := false, pairClass := none, basecampStatus := 0, nonces := [], appReleased := false, appStopped := false,
    ddrTrained := false, app := .reset, domains := [], wakeReq := false, logicLowRaised := false, dieHot := false,
    baseTemp := 250, hotEpisode := false, overEpisode := false, lossLimitMw := 32000 }

end Sys2Proof.Machine
end

