-- ==== Sys2Proof/Machine/StTwin.lean ====
section
/-! DEFINITION. State of the rope team: roles, belay line, mirror and health (chapter 16). -/

namespace Sys2Proof.Machine

/-- Roles (Table 16.4). -/
inductive TwinRole where
  | standby
  | holder
  | released
  deriving DecidableEq, Repr

/-- Belay state codes (Table 16.3). -/
inductive BelayCode where
  | holder
  | standby
  | release
  | test
  deriving DecidableEq, Repr

def BelayCode.code : BelayCode → Byte
  | .holder => 0xB4
  | .standby => 0x4B
  | .release => 0xD2
  | .test => 0x2D

def TwinRole.belay : TwinRole → BelayCode
  | .standby => .standby
  | .holder => .holder
  | .released => .release

/-- The `TWIN` section (Table 16.1). -/
structure TwinSection where
  en : Bool
  primary : Bool
  relOnFault : Bool
  arrestLink : Bool
  arrestAccept : Bool
  partner : Nat
  tGrace : Nat
  mirStale : Nat
  twinId : U32
  /-- Entry k: own channel and partner's channel. -/
  list : List (Nat × Nat)
  deriving DecidableEq, Repr

/-- Defaults of Table 16.1: `TWIN_FLAGS` 0x04, t_GRACE 500, MIR_STALE 16. -/
def TwinSection.default : TwinSection :=
  { en := false, primary := false, relOnFault := true, arrestLink := false, arrestAccept := false, partner := 0,
    tGrace := 500, mirStale := 16, twinId := 0, list := [] }

/-- A `MIRROR` entry (Table 16.7). -/
structure MirrorEntry where
  ch : Nat
  mode : Nat
  duty : Nat
  phase : Nat
  source : Nat
  flags : Byte
  deriving DecidableEq, Repr

/-- A `HEALTH` report: word A, origin cycle and payload (Table 16.9). -/
structure Health where
  wordA : U32
  origin : U32
  payload : List Byte
  deriving DecidableEq, Repr

/-- The rope-team state of this start. -/
structure TwinState where
  role : TwinRole
  /-- The partner's last valid code; none while it is lost (R458). -/
  partner : Option BelayCode
  /-- The partner has been read as HOLDER since this start. -/
  sawHolder : Bool
  /-- `TB_COUNT` since which the belay line decodes valid frames, and of the partner's last HOLDER frame (R462, R464). -/
  validFrom : Option Nat
  holderAt : Nat
  /-- The own-holder bit of the link frames (R459). -/
  ownHolder : Bool
  /-- Code of the last belay frame sent; none while `BELAY_TX` is held low (R457). -/
  line : Option BelayCode
  testing : Bool
  /-- Belay test running: requester port, Tag, REQ_SEQ, frames. -/
  testReq : Option (Nat × U32 × U32 × Nat)
  eligible : Bool
  /-- Tests passed in the last round, and those passed once since the start (Table 16.8, R463). -/
  testsPassed : BitVec 4
  testsEver : BitVec 4
  lbistFailed : Bool
  /-- Passes of the belay loop test still owed after a failure (Table 16.8). -/
  loopOwed : Nat
  belayFault : Bool
  idMismatch : Bool
  mismatchRaised : Bool
  arrestReq : Bool
  mirror : List MirrorEntry
  mirrorAge : Nat
  mirrorOrigin : U32
  mirrorGood : Nat
  excluded : U32
  takeovers : Nat
  gapNs : U32
  takeoverAt : Nat
  byLoss : Bool
  takeoverCycle : U32
  graceOver : Bool
  ownHealth : Option Health
  partnerHealth : Option Health
  healthSeq : U16
  framesSent : Nat
  framesDecoded : Nat
  deriving DecidableEq, Repr

def TwinState.reset : TwinState :=
  { role := .standby, partner := none, sawHolder := false, validFrom := none, holderAt := 0, ownHolder := false,
    line := none, testing := false, testReq := none, eligible := false, testsPassed := 0, testsEver := 0, lbistFailed := false, loopOwed := 0,
    belayFault := false, idMismatch := false, mismatchRaised := false, arrestReq := false, mirror := [], mirrorAge := 255,
    mirrorOrigin := 0, mirrorGood := 0, excluded := 0, takeovers := 0, gapNs := 0, takeoverAt := 0, byLoss := false,
    takeoverCycle := 0, graceOver := false, ownHealth := none, partnerHealth := none, healthSeq := 0, framesSent := 0,
    framesDecoded := 0 }

end Sys2Proof.Machine
end

