-- ==== Sys2Proof/Machine/StVzf.lean ====
section
/-! DEFINITION. State of the virtual zone functions (R403 to R415), their event vectors (R411 to R413), the pools'
DRAM blocks (R404, R408), and the safety pairs (R392 to R402). -/

namespace Sys2Proof.Machine

/-- A VZF template (Table 14.11). Its POTS, MAC and VID fields are lists of the entries that are used. -/
structure Template where
  id : Nat
  sysPriv : Bool
  /-- `ATTACH`: ring (true) or local. -/
  attach : Bool
  hostSaf : Bool
  maxPrio : Nat
  nLport : Nat
  nRport : Nat
  window : Nat
  depthLog2 : Nat
  rportKey : Nat
  tRtx : Nat
  burst : Nat
  rate : Nat
  subClass : Nat
  nVec : Nat
  nView : Nat
  nQp : Nat
  subMask : U32
  chMask : BitVec 112
  diMask : U64
  /-- Bits 47:0 `AI`, bits 51:48 `SUP`. -/
  aiMask : BitVec 52
  xMask : U32
  canMask : U16
  linMask : U16
  pots : List Nat
  macs : List (BitVec 48)
  vids : List Nat
  sigBase : Nat
  sigCount : Nat
  pduBase : Nat
  pduCount : Nat
  rfxBase : Nat
  rfxCount : Nat
  dram : List Nat
  /-- Weights in Table 14.16 order. -/
  qos : List Nat
  deriving DecidableEq, Repr

/-- The defaults of Table 14.11. -/
def Template.default : Template :=
  { id := 0, sysPriv := false, attach := false, hostSaf := false, maxPrio := 7, nLport := 1, nRport := 0, window := 16,
    depthLog2 := 5, rportKey := 0, tRtx := 5, burst := 16, rate := 20000, subClass := 2, nVec := 16, nView := 0,
    nQp := 1, subMask := 0xFFFFFFFF, chMask := 0, diMask := 0, aiMask := 0, xMask := 0, canMask := 0, linMask := 0,
    pots := [], macs := [], vids := [], sigBase := 0, sigCount := 0, pduBase := 0, pduCount := 0, rfxBase := 0,
    rfxCount := 0, dram := [], qos := [16, 16, 16, 16, 16] }

/-- VZF states (Table 14.17). -/
inductive VzfLife where
  | free
  | active
  | quiescing
  | resetting
  | destroying
  deriving DecidableEq, Repr

def VzfLife.code : VzfLife → Nat
  | .free => 0
  | .active => 1
  | .quiescing => 2
  | .resetting => 3
  | .destroying => 4

/-- The IOMMU operands that `VZF.CREATE` carries (R390, Table 14.20). -/
structure IommuCtx where
  gRoot : U64
  msiPtp : U64
  msiMask : U64
  msiPattern : U64
  deriving DecidableEq, Repr

def IommuCtx.zero : IommuCtx := { gRoot := 0, msiPtp := 0, msiMask := 0, msiPattern := 0 }

/-- An event vector (Table 14.14, Table 14.15) with its hold-off running flag and the raises since it was last
sent (R413). -/
structure EvVector where
  addrLo : U32
  addrHi : U32
  data : Byte
  en : Bool
  mask : Bool
  pend : Bool
  holdoff : U16
  waiting : Bool
  raises : Nat
  /-- Deliveries so far. -/
  delivered : Nat
  deriving DecidableEq, Repr

def EvVector.reset : EvVector :=
  { addrLo := 0, addrHi := 0, data := 0, en := false, mask := false, pend := false, holdoff := 0, waiting := false,
    raises := 0, delivered := 0 }

/-- `VZF_EV_BINDs` (Table 14.14). -/
structure Bind where
  en : Bool
  vec : Nat
  deriving DecidableEq, Repr

def Bind.reset : Bind := { en := false, vec := 0 }

structure Vzf where
  life : VzfLife
  tpl : Template
  gen : U16
  scopedArrest : Bool
  ports : List Nat
  views : List Nat
  weights : List Nat
  /-- DRAM regions: base block (2 MiB) and size in blocks. -/
  regions : List (Nat × Nat)
  /-- Ring areas of its local ports and queue pairs. -/
  iommu : IommuCtx
  vectors : Tbl EvVector
  binds : Tbl Bind
  /-- Tokens of the interrupt moderation bucket, 0 to 64 (R412). -/
  tokens : Nat
  resets : Nat
  late : Nat
  iommuFaults : Nat
  /-- `TB_COUNT` of the last `EVT_VZF_IOMMU_FAULT`, at most one a second (R391). -/
  iommuFaultAt : Option Nat
  /-- The requester of a reset or destroy in progress: port, Tag and REQ_SEQ. -/
  requester : Option (Nat × U32 × U32)
  deriving DecidableEq, Repr

def Vzf.free : Vzf :=
  { life := .free, tpl := .default, gen := 0, scopedArrest := false, ports := [], views := [],
    weights := [16, 16, 16, 16, 16], regions := [], iommu := .zero, vectors := .empty, binds := .empty, tokens := 64,
    resets := 0, late := 0, iommuFaults := 0, iommuFaultAt := none, requester := none }

structure VzfState where
  vzfs : Tbl Vzf
  /-- Generation counters, one per VZF number (R406). -/
  gens : Tbl U16
  /-- 2 MiB blocks of the pool that are zero-pending (R408); a block of a destroyed VZF is free once it is not listed. -/
  zeroPending : List Nat
  deriving DecidableEq, Repr

def VzfState.reset : VzfState := { vzfs := .empty, gens := .empty, zeroPending := [] }

/-- The registers a trap into M-mode stacks or changes (R399, R401). -/
structure CoreRegs where
  pc : U32
  mepc : U32
  mstatus : U32
  mcause : U32
  mtval : U32
  mtvec : U32
  sp : U32
  ra : U32
  t0 : U32
  t1 : U32
  t2 : U32
  t3 : U32
  t4 : U32
  t5 : U32
  t6 : U32
  a0 : U32
  a1 : U32
  a2 : U32
  a3 : U32
  a4 : U32
  a5 : U32
  a6 : U32
  a7 : U32
  deriving DecidableEq, Repr

def CoreRegs.zero : CoreRegs :=
  { pc := 0, mepc := 0, mstatus := 0, mcause := 0, mtval := 0, mtvec := 0, sp := 0, ra := 0, t0 := 0, t1 := 0, t2 := 0,
    t3 := 0, t4 := 0, t5 := 0, t6 := 0, a0 := 0, a1 := 0, a2 := 0, a3 := 0, a4 := 0, a5 := 0, a6 := 0, a7 := 0 }

/-- The stacking CSRs (R398). -/
structure Xstk where
  en : Bool
  fpLazy : Bool
  msp : U32
  esp : U32
  efb : Bool
  reason : Nat
  partId : Nat
  /-- `SAF_PART_STOP`, bits 3:0. -/
  partStop : BitVec 4
  deriving DecidableEq, Repr

def Xstk.reset : Xstk :=
  { en := true, fpLazy := false, msp := 0, esp := 0x1007FF00, efb := false, reason := 0, partId := 0, partStop := 0 }

/-- A PMP region of a pair's cores: its bounds, what it grants M-mode, and whether it is a TCM region (R399). -/
structure PmpRegion where
  base : Nat
  size : Nat
  readable : Bool
  writable : Bool
  tcm : Bool
  deriving DecidableEq, Repr

/-- A partition: its number on the pair, the VZF it serves, and the two checkpoint slots (R393, R394). -/
structure Partition where
  num : Nat
  vzf : Nat
  /-- Copy running into this slot. -/
  copying : Option Nat
  /-- Slot of the last checkpoint. -/
  last : Option Nat
  running : Bool
  deriving DecidableEq, Repr

structure Pair where
  /-- Passed its injection test at this start and not retired since (R29). -/
  healthy : Bool
  tested : Bool
  halted : Bool
  retired : Bool
  /-- `TB_COUNT` of its transients in this start (R396). -/
  transients : List Nat
  parts : List Partition
  regs : CoreRegs
  xstk : Xstk
  pmp : List PmpRegion
  /-- TCM bytes as a canonical memory; an unlisted byte reads 0. -/
  tcm : Memory
  deriving DecidableEq, Repr

def Pair.reset : Pair :=
  { healthy := false, tested := false, halted := false, retired := false, transients := [], parts := [], regs := .zero,
    xstk := .reset, pmp := [], tcm := [] }

structure SafState where
  pairs : Tbl Pair
  /-- The spare pair, or none (R393). -/
  spare : Option Nat
  /-- A retired pair whose partitions wait for the spare's restore (Table 14.5). -/
  migrating : Option Nat
  /-- The safety cluster is serving (Table 2.4 step 12). -/
  serving : Bool
  deriving DecidableEq, Repr

def SafState.reset : SafState := { pairs := .empty, spare := some 3, migrating := none, serving := false }

end Sys2Proof.Machine
end

