-- ==== Sys2Proof/Machine/StCfg.lean ====
section
/-! DEFINITION. The configuration: what an image's sections say, the two banks, and the write session
(R51 to R54, R60). The spec gives no encoding of the sections, so an image's content is plain data beside the bytes of
its sections. -/

namespace Sys2Proof.Machine

/-- The kinds of section that Table 2.10 tells apart. -/
inductive SectionKind where
  | signals
  | vzf
  | networks
  | profiles
  | rules
  | ring
  | bridge
  | twin
  | other
  deriving DecidableEq, Repr

structure Section where
  kind : SectionKind
  bytes : List Byte
  deriving DecidableEq, Repr

/-- The `VZF` section (R506). -/
structure VzfSection where
  p0Key : Nat
  p0Rtx : Nat
  poolBase : Nat
  poolBlocks : Nat
  templates : List Template
  create : List (Nat × Nat)
  deriving DecidableEq, Repr

def VzfSection.default : VzfSection :=
  { p0Key := 0, p0Rtx := 5, poolBase := 0, poolBlocks := 0, templates := [], create := [] }

/-- What a configuration image says, by section. -/
structure CfgImage where
  boardnet : Boardnet
  /-- A_PAIRS, the spare pair, the partition table (pair and VZF) of the safety image (R29, R393). -/
  aPairs : Nat
  spare : Option Nat
  partitions : List (Nat × Nat)
  limpKeep : Bool
  autoSleep : Bool
  /-- Workshop inactivity timeout in minutes (R33). -/
  workshopMin : Nat
  vzf : VzfSection
  /-- Profiles by ID, and the profile ID of each channel that the image names one for (R106). -/
  profiles : Tbl Profile
  chProfile : Tbl Nat
  /-- The bridge limits record with the groups' sources (Table 6.8). -/
  brg : BrgLimits
  /-- The field I/O sections (R178, R182, R183, R185, R186, R191). -/
  di : Tbl DiRecord
  cycMask : BitVec 16
  tCyc : Nat
  cycK : Nat
  ai : Tbl AiConfig
  supOn : BitVec 4
  x : Tbl XConfig
  tXto : Nat
  keepAlive : List (Nat × OutCmd)
  rules : Tbl Rule
  limp : Tbl LimpEntry
  /-- Limp entries of the isolated channels: 1 off, 2 on; unlisted is the safe state (R214). -/
  limpX : Tbl Nat
  tLimp : Nat
  tSnf : Nat
  sna : Bool
  twin : TwinSection
  ring : RingSection
  /-- The end nodes of local IDs 256 to 511 (R221). -/
  edges : Tbl EdgeNode
  esw : EswSection
  /-- Power domains that the image configures, by number (R37). -/
  domains : List Nat
  /-- Owners of V2 to V5 (R373): a VZF, or 0xFF for the system. -/
  viewOwners : List Nat
  /-- The `CAN`, `NM` and `LIN` sections (Tables 11.2, 11.12, 11.14), the sieves, and schedule tables by channel × 4 + table. -/
  can : Tbl CanRecord
  nm : Tbl NmRecord
  sieves : Tbl Sieve
  lin : Tbl LinRecord
  schedules : Tbl (List LinEntry)
  /-- The signal, PDU and codec tables (R215, R336 to R341, R359). -/
  sigs : Tbl SigDesc
  pdus : Tbl PduDesc
  lookup : Tbl U32
  prs : Tbl PrsConfig
  deriving DecidableEq, Repr

/-- The defaults of the sections, with nothing named. -/
def CfgImage.default : CfgImage :=
  { boardnet := .v48, aPairs := 3, spare := some 3, partitions := [], limpKeep := false, autoSleep := true,
    workshopMin := 10, vzf := .default, profiles := .empty, chProfile := .empty, brg := .default,
    di := .empty, cycMask := 0, tCyc := 50, cycK := 2, ai := .empty, supOn := 0, x := .empty, tXto := 100, keepAlive := [],
    rules := .empty, limp := .empty, limpX := .empty, tLimp := 100, tSnf := 4, sna := true, twin := .default,
    ring := .default, edges := .empty, esw := .default, domains := [], viewOwners := [255, 255, 255, 255], can := .empty, nm := .empty, sieves := .empty,
    lin := .empty, schedules := .empty, sigs := .empty, pdus := .empty, lookup := .empty, prs := .empty }

/-- A configuration bank in NAND: erased, or holding an image with its header and the outcome of its checks (R51, R52).
`magicOk` covers the magic and the format version, `hasRing` the ring section. -/
structure Bank where
  written : Bool
  magicOk : Bool
  digestOk : Bool
  sigOk : Bool
  hasRing : Bool
  seq : U32
  sections : List Section
  image : CfgImage
  /-- Bytes written through `CFG.WRITE`, by address. -/
  bytes : Memory
  deriving DecidableEq, Repr

def Bank.erased : Bank :=
  { written := false, magicOk := false, digestOk := false, sigOk := false, hasRing := false, seq := 0, sections := [],
    image := .default, bytes := [] }

/-- R52: magic and version, digest, signature and ring section. -/
def Bank.valid (b : Bank) : Bool := b.written && b.magicOk && b.digestOk && b.sigOk && b.hasRing

/-- An open write session (R60). -/
structure CfgSession where
  total : Nat
  deriving DecidableEq, Repr

structure CfgState where
  bankA : Bank
  bankB : Bank
  /-- Bank in use: B is true. -/
  inUseB : Bool
  /-- `MGR_CFG_SEQ` and the image the device runs from. -/
  seq : U32
  image : CfgImage
  sections : List Section
  session : Option CfgSession
  /-- An accepted `CFG.ACTIVATE` that waits for its boundary (R54): port, Tag and REQ_SEQ of the request. -/
  activating : Option (Nat × U32 × U32)
  deriving DecidableEq, Repr

def CfgState.reset : CfgState :=
  { bankA := .erased, bankB := .erased, inUseB := false, seq := 0, image := .default, sections := [], session := none,
    activating := none }

end Sys2Proof.Machine
end

