-- ==== Sys2Proof/Syntax.lean ====
section
/-! DEFINITION. The commands of the ZM9: one constructor for each row of the operation table, with the row's operands. A
mailbox command carries its request (`Req`) and its payload's fields; an event carries what the outside world decided
(a measurement, a verdict, a frame's content). -/

namespace Sys2Proof

/-- The commands (opcode_table.json, row by row). -/
inductive Instr where
  | logicSupplyValid
  | resetRelease (f : StartFacts)
  | rootPllLock
  | pllLockTimeout
  | powerDieTableAck (die : Fin 8)
  | pdlAckTimeout (die : Fin 8)
  | pdlAckRetry (die : Fin 8)
  | vinClassCheck (inside : Bool)
  | pairInjectionTestDone (pair : Fin 4) (pass : Bool)
  | ddrTrainingDone
  | forcedBasecampCheck
  | workshopInactivityTimeout
  | autoSleep
  | wakeNAssert
  | powerLoss
  | logicFeedLow
  | logicFeedFail
  | clockMonitorTrip
  | runServiceLoss (item : RunItem)
  | managerWatchdog
  | safetyClusterServing
  | bivouacEntryDone
  | portTc10Wake (p : Fin 8)
  | activationMsBoundary
  | sysEnterWorkshop (r : Req) (nonce : Nat) (sigOk : Bool)
  | sysLeaveWorkshop (r : Req)
  | sysSleep (r : Req)
  | sysRestart (r : Req) (nonce : Nat) (sigOk : Bool)
  | sysEnterBasecamp (r : Req)
  | sysGetMode (r : Req)
  | sysChallenge (r : Req)
  | cfgBegin (r : Req) (total : U32)
  | cfgWrite (r : Req) (offset : U32) (data : List Byte)
  | cfgCommit (r : Req) (content : Machine.Bank)
  | cfgActivate (r : Req)
  | cfgStatus (r : Req)
  | cfgAbort (r : Req)
  | cfgGetSection (r : Req) (section_ : Byte) (offset : U32) (length : U16)
  | cfgSessionTimeout
  | baseplateHot (temp : Int)
  | baseplateOvertemp (temp : Int)
  | baseplateCooled (temp : Int)
  | logicDieOvertemp (temp : Int)
  | logicDieCooled
  | mbxFragmentReceived (port : Fin 512) (f : Fragment)
  | mbxReassemblyTimeout (port : Fin 512)
  | vzfMbxReqProd (v : Fin 256) (block : Fin 4) (index : U16) (msgs : List (HostMsg × MsgCheck)) (fault : Bool)
  | mbxConsumerIndexWrite (v : Fin 256) (block : Fin 4) (evt : Bool) (index : U16)
  | hostControlAck (port : Fin 512) (seq ack : U32)
  | unknownCommand (r : Req) (code : U16)
  | mbxAckTimer (port : Fin 512)
  | epochRepeat (port : Fin 512)
  | mbxRetransmit (port : Fin 512) (evt : Bool) (seq : U32)
  | sysResync (r : Req)
  | sysReplay (r : Req) (rsp evt : U32)
  | sysSubscribe (r : Req) (cls : Byte) (mask : U32)
  | sysPing (r : Req) (payload : List Byte)
  | sysGetInfo (r : Req)
  | sysPortStats (r : Req)
  | sysSetRate (r : Req) (port burst : U16) (rate : U32)
  | windowUnmappedAccess (v : Fin 256) (offset : U16)
  | registerWrite (target : RegTarget) (value : U32)
  | lswCmdWrite (v : Fin 256) (ch : Fin 112) (value : U32)
  | hbrCmdWrite (v : Fin 256) (br : Fin 8) (value : U32)
  | vlvCmdWrite (v : Fin 256) (vlv : Fin 16) (value : U32)
  | lswChStampLoRead (v : Fin 256) (ch : Fin 112)
  | lswChPeakRead (v : Fin 256) (ch : Fin 112)
  | chSet (r : Req) (ch : U16) (mode prio : Byte) (duty : U16) (phase : Byte)
  | chGetStatus (r : Req) (ch : U16)
  | chSetProfile (r : Req) (ch : U16) (id : Byte)
  | chGetProfile (r : Req) (ch : U16)
  | chUnlock (r : Req) (ch : U16) (selector : Byte)
  | chClearFault (r : Req) (ch : U16)
  | chSetHold (r : Req) (ch : U16) (setting : Byte) (tHold : U16)
  | chSetKeepalive (r : Req) (set : List KeepEntry)
  | chSnsSelect (r : Req) (ch : U16)
  | chTest (r : Req) (ch : U16) (test : Byte) (duration : U16)
  | chTestEnd (ch : Fin 112) (pass : Bool) (value : U32)
  | chGetLedger (r : Req) (ch : U16)
  | chHbConfig (r : Req) (ch : U16) (f : HbFields)
  | chHbDrive (r : Req) (ch : U16) (drive prio : Byte) (duty : U16) (phase flags : Byte) (target : U32)
  | chHbPosition (r : Req) (ch : U16) (op : Byte) (value : U32)
  | chVlvConfig (r : Req) (ch : U16) (flags : Byte) (amp freq bw : U16)
  | chVlvSet (r : Req) (ch : U16) (prio enable : Byte) (ma : U16)
  | chVlvStatus (r : Req) (ch : U16)
  | powerDieLinkFrame (die : Fin 8) (clamp : List (Fin 14 × Nat))
  | linkSilenceHold (die : Fin 8)
  | holdTimeout (ch : Fin 112)
  | shortCircuitTrip (ch : Fin 112) (ma : Nat)
  | limitTimeout (ch : Fin 112)
  | inrushWindowEnd (ch : Fin 112) (above : Bool)
  | wireModelStep (ch : Fin 112) (i2 : Nat)
  | junctionOvertemp (ch : Fin 112) (tj : Int)
  | openLoadOn (ch : Fin 112)
  | offStateTest (ch : Fin 112) (highBefore : Bool) (under : Int)
  | arcWindow (ch : Fin 112) (rms dv : Nat)
  | retryDelayExpiry (ch : Fin 112)
  | retryCountReset (ch : Fin 112)
  | freewheelCheckEnd (ch : Fin 112) (lowest : Int) (clampUj : Nat)
  | statusWordUpdate (ch : Fin 112) (m : Measure)
  | pwmPeriodStart (ch : Fin 112) (clampUj : Nat)
  | groupLoadCheck
  | loadShedStep
  | orphanTimeout (ch : Fin 112)
  | reversalBrakeEnd (br : Fin 8)
  | stallDetect (br : Fin 8)
  | rippleCount (br : Fin 8) (interval : Nat)
  | runonEnd (br : Fin 8)
  | uncountedMotion (br : Fin 8)
  | valveRegulationPeriod (vlv : Fin 16) (m : ValveMeasure)
  | complianceSet (vlv : Fin 16) (gotMa : Nat)
  | complianceClear (vlv : Fin 16)
  | groupSupplyLoss (g : Fin 8) (reversed : Bool)
  | groupSupplyReturn (g : Fin 8) (powerUp : Bool)
  | moduleGroundLoss
  | junctionCooled (ch : Fin 112) (tj : Int)
  | junctionHotWarning (ch : Fin 112)
  | bridgeStart (vin : Int)
  | vinLossDetected (vz48 vin : Int)
  | handoverAbandon
  | commitPoint (vbk12 : Int)
  | vinValidInBoost
  | vinInvalidInQualify
  | qualifyTimeout
  | handbackRampComplete
  | vbk12Low
  | boostOverload (ibk vz48 : Int)
  | shedRestore
  | vz12GroupRelease
  | phaseOvercurrentLatch (ph : Fin 4)
  | bridgeDieHot (temp : Int)
  | bridgeDieOvertemp (temp : Int)
  | bridgeDieCooled (temp : Int)
  | vz12Undervoltage (vz12 : Int)
  | vz12Retry (regulated : Bool)
  | bridgeControlStop
  | vinWindowEntry (reverse : Bool) (vin : Int)
  | brgGetStatus (r : Req) (m : BrgMeasure)
  | brgSetTarget (r : Req) (vZ12 : U16)
  | brgSetLimits (r : Req) (f : LimitsFields)
  | brgRelease (r : Req)
  | brgSetShed (r : Req) (shedHo shedAt : Byte)
  | brgTestHandover (r : Req) (duration : U16) (vin vbk12 : Int)
  | handoverTestEnd (lowest peak : Int) (energy : U32)
  | diSample (n : Fin 64) (mv : Int)
  | fioDiStampLoRead (v : Fin 256)
  | aiSample (uv : List Int) (sup : List (Nat × Nat))
  | cyclicSenseSample (n : Fin 16) (mv : Int)
  | sensorSupplyFault (sup : Fin 4) (forced : Bool)
  | sensorSupplyRetry (sup : Fin 4) (regulates : Bool)
  | barrierDownlinkFrame
  | barrierDownlinkReceived (frame : BitVec 128)
  | barrierUplinkFrame (frame : BitVec 128)
  | xLinkTimeout
  | xUplinkLost
  | xOverload (k : Fin 32)
  | xOverloadRetry (k : Fin 32) (clear : Bool)
  | xOpenWire (k : Fin 32)
  | xOvertemp (k : Fin 32)
  | xvfLow
  | xvfFail
  | xvfRecover
  | fioXCmdValWrite (v : Fin 256) (value : U32)
  | fioXBankRead (v : Fin 256)
  | fioDiConfig (r : Req) (input : U16) (f : DiFields)
  | fioDiRead (r : Req)
  | fioAiConfig (r : Req) (input : U16) (range ratio k : Byte)
  | fioAiRead (r : Req) (first count : U16)
  | fioSupSet (r : Req) (supply on : Byte)
  | fioCyclicSense (r : Req) (mask tCyc : U16) (k : Byte)
  | fioXConfig (r : Req) (channel mode tXdb flags : Byte)
  | fioXSet (r : Req) (mask values : U32)
  | fioXRead (r : Req)
  | fioXSafe (r : Req) (safe : U64) (tXto : U16)
  | xvfLowEnd
  | xOvertempEnd (k : Fin 32)
  | xOpenWireEnd (k : Fin 32)
  | safeNAssert
  | safeNRelease
  | ruleTableCheck (ok : Bool) (corrected : U16)
  | ruleTableEccError (rule : Fin 1024)
  | rfxLoadRule (r : Req) (rule : U16) (f : RuleFields)
  | rfxEnable (r : Req) (first count : U16)
  | rfxDisable (r : Req) (first count : U16)
  | rfxGetRule (r : Req) (rule : U16)
  | rfxStats (r : Req) (first count : U16)
  | rfxSelfArrest (r : Req) (reason : U16)
  | rfxSafeNFilter (r : Req) (tSnf : U16) (flags : Byte)
  | edgeWindowEnd (rule : Fin 1024) (slot : Fin 4)
  | limpTableTimer
  | localCycleStart
  | syncRefReceived (port : Fin 2) (link : LinkCheck) (h : RingHeader) (f : SyncRef) (residence : U32)
  | syncRefMissing
  | masterHandover
  | staticFrameReceived (port : Fin 2) (link : LinkCheck) (f : RingFrame)
  | slotDue (k : Fin 384)
  | dynamicFrameReceived (port : Fin 2) (link : LinkCheck) (f : Option RingFrame)
  | relayQueueTimeout
  | secondaryFrameReceived (port : Fin 2) (link : LinkCheck) (f : RingFrame) (busy : Bool)
  | delayMeasRequest (link : LinkCheck) (h : RingHeader) (f : DelayMeas)
  | delayMeasResponse (link : LinkCheck) (h : RingHeader) (f : DelayMeas) (roundTrip : U64)
  | ringLinkDown (port : Fin 2)
  | ringPhyTrained (port : Fin 2)
  | mkaFrame (port : Fin 2) (peers : List Byte) (live : Bool)
  | ringMacsecTimeout (port : Fin 2)
  | linkClose (port : Fin 2)
  | ringSleep
  | ringTc10Wake (port : Fin 2)
  | sigSlotFreeze (k : Fin 384)
  | ringGetStatus (r : Req)
  | ringTopology (r : Req)
  | ringSlotAge (r : Req) (first count : U16)
  | ringDelays (r : Req)
  | ringSleepConsent (r : Req) (give : Byte)
  | ringStats (r : Req) (clear : Byte)
  | frameIngress (port : Fin 21) (check : PortCheck) (f : EthFrame) (station : Fin 32) (rivals : List Rival)
  | losslessTimeout (port : Fin 21) (cls : Fin 8)
  | frameEgress (port : Fin 21)
  | potFullEpisodeEnd (pot : Fin 64)
  | cellAudit (cellsOff descsOff : Int) (loose : List LooseCell)
  | leakCompareDone
  | cellEccError (cell : Fin 262144) (frame : Option Nat)
  | gateListEntry (stream : Bool) (gate : Fin 512)
  | fdbAgeing (mac : BitVec 48) (vid : BitVec 12)
  | eswLinkChange (port : Fin 21) (up : Bool)
  | portMacsecTimeout (port : Fin 21)
  | plcaBeaconTimeout (port : Fin 21)
  | plcaBeaconReturn (port : Fin 21)
  | latentErrorTest (fn : Fin 1024) (trip : Bool)
  | cellScrubbed (plane : Fin 2)
  | eswTxqProdWrite (v : Fin 256) (q : Fin 4) (index : U16) (descs : List TxDesc) (rivals : List Rival)
  | eswRxqConsWrite (v : Fin 256) (q : Fin 4) (index : U16)
  | eswPortStatus (r : Req) (port : Byte)
  | eswVlanSet (r : Req) (vid : U16) (members untagged : U32)
  | eswFdbAdd (r : Req) (f : FdbFields)
  | eswFdbDel (r : Req) (mac : BitVec 48) (vid : U16)
  | eswPotConfig (r : Req) (f : PotFields)
  | eswPotStatus (r : Req) (pot : Byte)
  | eswShaperSet (r : Req) (port cls enable : Byte) (slope : U32)
  | eswGateSet (r : Req) (f : GateFields)
  | eswStreamFilter (r : Req) (f : FilterFields)
  | eswFrerSet (r : Req) (f : FrerFields)
  | eswPlcaSet (r : Req) (f : PlcaFields)
  | eswAudit (r : Req) (op policy : Byte) (tAud : U16) (cellsOff descsOff : Int) (loose : List LooseCell)
  | eswStats (r : Req) (clear : Byte)
  | canFrameReceived (c : Fin 16) (f : CanFrame) (sof : U64) (n : CanCounters)
  | canSofCommit (c : Fin 16)
  | canTxComplete (c : Fin 16) (o : CanOutcome) (n : CanCounters)
  | canIntegrationDone (c : Fin 16)
  | canRecoveryDone (c : Fin 16)
  | canRxOverrunEnd (c : Fin 16)
  | canTxBellWrite (v : Fin 256) (c : Fin 16)
  | canTxCancelWrite (v : Fin 256) (c : Fin 16) (value : U32)
  | canEntryCtlWrite (c : Fin 16) (rx : Bool) (e : Fin 512) (value : U32)
  | canRxLostRead (v : Fin 256) (c : Fin 16)
  | tmReferenceSend (c : Fin 16)
  | tmReferenceReceived (c : Fin 16) (rank : Fin 4) (count : Fin 64) (sof : U64)
  | tmReferenceMissing (c : Fin 16)
  | canLowPowerFrame (c : Fin 16) (pattern : Bool) (f : Option CanFrame)
  | canWakeConfirmTimeout (c : Fin 16)
  | canConfig (r : Req) (c : Byte) (f : CanRecord)
  | canStart (r : Req) (c : Byte)
  | canStop (r : Req) (c : Byte)
  | canRecover (r : Req) (c : Byte)
  | canSetFilter (r : Req) (c filter flags : Byte) (id mask : U32)
  | canSetSieve (r : Req) (c dlc flags : Byte) (id mask : U32) (dataMask : U64)
  | canCancel (r : Req) (c entry : Byte)
  | canTimeMaster (r : Req) (c role rank view : Byte) (base cycle : U16) (maxCount : Byte)
  | canGetStatus (r : Req) (c : Byte)
  | canStats (r : Req) (c clear : Byte)
  | nmMessageReceived (c : Fin 16) (id : BitVec 11) (dlc : Fin 16) (data : List Byte)
  | nmTokenPass (c : Fin 16)
  | nmFormingTimeout (c : Fin 16)
  | nmHopTimeout (c : Fin 16)
  | nmTokenLost (c : Fin 16)
  | nmSleepTimer (c : Fin 16)
  | nmTmaxExpiry (c : Fin 16)
  | nmConfig (r : Req) (c : Byte) (f : NmRecord)
  | nmRequestAwake (r : Req) (c : Byte)
  | nmRelease (r : Req) (c : Byte)
  | nmSetTmax (r : Req) (c : Byte) (tMax : U16)
  | nmGetStatus (r : Req) (c : Byte)
  | linSlotStart (l : Fin 16)
  | linFrameEnd (l : Fin 16) (result : Fin 6) (data : List Byte)
  | linWakeScheduleStart (l : Fin 16)
  | linResponderWake (l : Fin 16)
  | linBusFault (l : Fin 16)
  | linBusFaultEnd (l : Fin 16)
  | linRxLostRead (v : Fin 256) (l : Fin 16)
  | linConfig (r : Req) (l : Byte) (f : LinRecord)
  | linLoadSchedule (r : Req) (l table : Byte) (n : U16) (entries : List LinEntry)
  | linSelectSchedule (r : Req) (l table : Byte)
  | linWake (r : Req) (l : Byte)
  | linSleep (r : Req) (l : Byte)
  | linDiag (r : Req) (l wanted : Byte) (data : U64)
  | linDiagDone (l : Fin 16)
  | linGetStatus (r : Req) (l : Byte)
  | linRxOverrunEnd (l : Fin 16)
  | sourcePduUpdate (pipe : Fin 4) (brg : Option BrgMeasure)
  | pduTimeout (p : Fin 65536)
  | signalCyclicWrite (d : Fin 262144)
  | signalDeferredWrite (d : Fin 262144)
  | pduCyclicSend (p : Fin 65536)
  | i3RecordFrame (vid : BitVec 12) (payload : List Byte)
  | sigTableEcc (pdu : Bool) (entry : Fin 262144)
  | sigWrLoWrite (v : Fin 256) (slot : Fin 1024) (value : U32)
  | sigRdLoRead (v : Fin 256) (slot : Fin 1024)
  | prsBlock (stream : Fin 64) (source : Fin 16) (samples : List Int)
  | prsCaptureComplete (id : Fin 64)
  | sigLoad (r : Req) (first : U32) (n : U16) (table : Byte) (records : List Byte)
  | sigRead (r : Req) (first : U32) (n : U16)
  | sigWrite (r : Req) (n target : U16) (entries : List SigWriteEntry)
  | sigGetStatus (r : Req) (first : U32) (n : U16)
  | sigPrsConfig (r : Req) (f : PrsFields)
  | sigPrsStart (r : Req) (stream : Byte)
  | sigPrsStop (r : Req) (stream : Byte)
  | sigCapture (r : Req) (op : Byte) (source id : U16) (part : Byte)
  | viewChangeApply (view : Fin 16)
  | captureEvent (source : Fin 65536) (rising : Bool)
  | triggerFire (unit : Fin 16)
  | rtcAlarmExpiry
  | timeRead (r : Req) (view : Byte)
  | timeAdjust (r : Req) (f : AdjustFields)
  | timeViewAlloc (r : Req) (op view vzf : Byte)
  | timeCaptureConfig (r : Req) (unit op : Byte) (source : U16) (edge : Byte)
  | timeTriggerConfig (r : Req) (f : TriggerFields)
  | timeRtcAlarm (r : Req) (op : Byte) (delay : U32)
  | vzfCreate (r : Req) (tpl vzf : Byte) (iommu : Machine.IommuCtx)
  | vzfDestroy (r : Req) (vzf : Byte)
  | vzfReset (r : Req) (vzf : Byte)
  | vzfResetDrainEnd (v : Fin 256)
  | vzfQos (r : Req) (vzf : Byte) (weights : Vector Byte 5)
  | vzfGetInfo (r : Req) (vzf : Byte)
  | vzfList (r : Req)
  | dramZeroComplete (block : Nat)
  | interruptBudgetRefill
  | vectorHoldoffExpiry (v : Fin 256) (k : Fin 64)
  | lockstepMismatch (pair : Fin 4) (group : Fin 8)
  | pairLbistDecision (pair : Fin 4) (pass injectOk : Bool)
  | pairMigration
  | trapStacking (pair : Fin 4) (regs : Machine.CoreRegs) (pmp : List Machine.PmpRegion) (cause tval : U32) (user : Bool)
  | mretUnstack (pair : Fin 4) (regs : Machine.CoreRegs) (pmp : List Machine.PmpRegion)
  | safCkptGoWrite (pair : Fin 4) (value : U32)
  | checkpointComplete (pair : Fin 4) (part : Fin 4)
  | trngHealthFail
  | keyProvision (r : Req) (f : ProvisionFields)
  | keySlotStatus (r : Req) (first count : Byte)
  | keyEraseSlot (r : Req) (slot : Byte) (nonce : Nat) (sig : KeySig)
  | keyAttest (r : Req) (nonce : List Byte) (flags : Byte)
  | keyRandom (r : Req) (n : U16)
  | keyGetIdentity (r : Req)
  | updBegin (r : Req) (target : Byte) (total : U32)
  | updWrite (r : Req) (offset : U32) (data : List Byte)
  | updVerify (r : Req)
  | updVerifyDone (f : VerifyFacts) (bank : Machine.Bank)
  | updCommit (r : Req) (flags : Byte)
  | updAbort (r : Req)
  | updStatus (r : Req)
  | updRestart (r : Req)
  | updWaiver (r : Req) (allowance : Byte) (digest : List Byte) (sigOk : Bool)
  | updTargetTimeout
  | udsSessionControl (sub : Byte)
  | udsEcuReset (sub : Byte)
  | udsReadDataById (id : U16)
  | udsRequestSeed
  | udsSendKey (sigOk : Bool)
  | udsSecurityLockoutEnd
  | udsRoutineControl (sub : Byte) (id : U16) (gyvin : Option UdsGyvin)
  | udsRequestDownload (format lenFormat : Byte) (target : U32) (total : U32)
  | udsTransferData (counter : Byte) (data : List Byte)
  | udsRequestTransferExit
  | udsTesterPresent (sub : Byte)
  | udsS3Timeout
  | basecampPortIdle
  | belayFrameSend
  | belayEncoderTimeout
  | belayFrameDecoded (code : Machine.BelayCode)
  | belayPartnerLost
  | twinGateDelay (die : Fin 8)
  | twinGraceExpiry
  | healthReport (vin vbk12 : Int)
  | standbySelftest (test : Fin 4) (pass : Bool) (entry : Fin 32)
  | twinStatus (r : Req)
  | twinHealth (r : Req) (which : Byte)
  | twinBelayTest (r : Req) (frames : U16)
  | belayTestDone
  | logRead (r : Req) (store : Byte) (first : U32) (count : U16)
  | logArchive (r : Req) (last : U32)
  | logStatus (r : Req) (op : Byte)
  | logReadStones (r : Req)
  | logClearStones (r : Req)
  | stoneCopyDone (stone : Fin 16)
  | logSramEcc
  | nandLogWriteFail
  deriving DecidableEq, Repr

end Sys2Proof
end

