-- ==== Sys2Proof/WellFormed.lean ====
section
/-! DEFINITION. Which commands are well formed: sizes that the operand types leave open. A request comes on a port below 512 with at
most 4,032 payload bytes (Tables 3.1, 3.2); a ring frame holds at most 480 bytes in a static slot and 1,536 elsewhere (Table 9.3), a
`SYNC_REF` path 64 entries (Table 9.6); a CAN frame at most 2,048 data bytes (Table 11.6); a LIN or NM message at most 8; an analog
scan 48 inputs; other records have the lengths of their tables. -/

namespace Sys2Proof

def Req.ok (r : Req) : Bool := decide (r.port < 512) && decide (r.len ≤ 4032)
def RingFrame.fits (f : RingFrame) (n : Nat) : Bool := decide (f.payload.length ≤ n)
def EthFrame.ok (f : EthFrame) : Bool := decide (f.data.length ≤ 1996)
def CanFrame.ok (f : CanFrame) : Bool := decide (f.dlen ≤ 2048) && decide (f.data.length ≤ 2048)

def Instr.wellFormed (i : Instr) : Bool :=
  match i with
  | .logicSupplyValid => true
  | .resetRelease _ => true
  | .rootPllLock => true
  | .pllLockTimeout => true
  | .powerDieTableAck _ => true
  | .pdlAckTimeout _ => true
  | .pdlAckRetry _ => true
  | .vinClassCheck _ => true
  | .pairInjectionTestDone _ _ => true
  | .ddrTrainingDone => true
  | .forcedBasecampCheck => true
  | .workshopInactivityTimeout => true
  | .autoSleep => true
  | .wakeNAssert => true
  | .powerLoss => true
  | .logicFeedLow => true
  | .logicFeedFail => true
  | .clockMonitorTrip => true
  | .runServiceLoss _ => true
  | .managerWatchdog => true
  | .safetyClusterServing => true
  | .bivouacEntryDone => true
  | .portTc10Wake _ => true
  | .activationMsBoundary => true
  | .sysEnterWorkshop r _ _ => r.ok
  | .sysLeaveWorkshop r => r.ok
  | .sysSleep r => r.ok
  | .sysRestart r _ _ => r.ok
  | .sysEnterBasecamp r => r.ok
  | .sysGetMode r => r.ok
  | .sysChallenge r => r.ok
  | .cfgBegin r _ => r.ok
  | .cfgWrite r _ data => r.ok && decide (data.length ≤ 4032)
  | .cfgCommit r _ => r.ok
  | .cfgActivate r => r.ok
  | .cfgStatus r => r.ok
  | .cfgAbort r => r.ok
  | .cfgGetSection r _ _ _ => r.ok
  | .cfgSessionTimeout => true
  | .baseplateHot _ => true
  | .baseplateOvertemp _ => true
  | .baseplateCooled _ => true
  | .logicDieOvertemp _ => true
  | .logicDieCooled => true
  | .mbxFragmentReceived _ _ => true
  | .mbxReassemblyTimeout _ => true
  | .vzfMbxReqProd _ _ _ msgs _ => decide (msgs.length ≤ 256)
  | .mbxConsumerIndexWrite _ _ _ _ => true
  | .hostControlAck _ _ _ => true
  | .unknownCommand r _ => r.ok
  | .mbxAckTimer _ => true
  | .epochRepeat _ => true
  | .mbxRetransmit _ _ _ => true
  | .sysResync r => r.ok
  | .sysReplay r _ _ => r.ok
  | .sysSubscribe r _ _ => r.ok
  | .sysPing r payload => r.ok && decide (payload.length ≤ 4032)
  | .sysGetInfo r => r.ok
  | .sysPortStats r => r.ok
  | .sysSetRate r _ _ _ => r.ok
  | .windowUnmappedAccess _ _ => true
  | .registerWrite _ _ => true
  | .lswCmdWrite _ _ _ => true
  | .hbrCmdWrite _ _ _ => true
  | .vlvCmdWrite _ _ _ => true
  | .lswChStampLoRead _ _ => true
  | .lswChPeakRead _ _ => true
  | .chSet r _ _ _ _ _ => r.ok
  | .chGetStatus r _ => r.ok
  | .chSetProfile r _ _ => r.ok
  | .chGetProfile r _ => r.ok
  | .chUnlock r _ _ => r.ok
  | .chClearFault r _ => r.ok
  | .chSetHold r _ _ _ => r.ok
  | .chSetKeepalive r _ => r.ok
  | .chSnsSelect r _ => r.ok
  | .chTest r _ _ _ => r.ok
  | .chTestEnd _ _ _ => true
  | .chGetLedger r _ => r.ok
  | .chHbConfig r _ _ => r.ok
  | .chHbDrive r _ _ _ _ _ _ _ => r.ok
  | .chHbPosition r _ _ _ => r.ok
  | .chVlvConfig r _ _ _ _ _ => r.ok
  | .chVlvSet r _ _ _ _ => r.ok
  | .chVlvStatus r _ => r.ok
  | .powerDieLinkFrame _ _ => true
  | .linkSilenceHold _ => true
  | .holdTimeout _ => true
  | .shortCircuitTrip _ _ => true
  | .limitTimeout _ => true
  | .inrushWindowEnd _ _ => true
  | .wireModelStep _ _ => true
  | .junctionOvertemp _ _ => true
  | .openLoadOn _ => true
  | .offStateTest _ _ _ => true
  | .arcWindow _ _ _ => true
  | .retryDelayExpiry _ => true
  | .retryCountReset _ => true
  | .freewheelCheckEnd _ _ _ => true
  | .statusWordUpdate _ _ => true
  | .pwmPeriodStart _ _ => true
  | .groupLoadCheck => true
  | .loadShedStep => true
  | .orphanTimeout _ => true
  | .reversalBrakeEnd _ => true
  | .stallDetect _ => true
  | .rippleCount _ _ => true
  | .runonEnd _ => true
  | .uncountedMotion _ => true
  | .valveRegulationPeriod _ _ => true
  | .complianceSet _ _ => true
  | .complianceClear _ => true
  | .groupSupplyLoss _ _ => true
  | .groupSupplyReturn _ _ => true
  | .moduleGroundLoss => true
  | .junctionCooled _ _ => true
  | .junctionHotWarning _ => true
  | .bridgeStart _ => true
  | .vinLossDetected _ _ => true
  | .handoverAbandon => true
  | .commitPoint _ => true
  | .vinValidInBoost => true
  | .vinInvalidInQualify => true
  | .qualifyTimeout => true
  | .handbackRampComplete => true
  | .vbk12Low => true
  | .boostOverload _ _ => true
  | .shedRestore => true
  | .vz12GroupRelease => true
  | .phaseOvercurrentLatch _ => true
  | .bridgeDieHot _ => true
  | .bridgeDieOvertemp _ => true
  | .bridgeDieCooled _ => true
  | .vz12Undervoltage _ => true
  | .vz12Retry _ => true
  | .bridgeControlStop => true
  | .vinWindowEntry _ _ => true
  | .brgGetStatus r _ => r.ok
  | .brgSetTarget r _ => r.ok
  | .brgSetLimits r _ => r.ok
  | .brgRelease r => r.ok
  | .brgSetShed r _ _ => r.ok
  | .brgTestHandover r _ _ _ => r.ok
  | .handoverTestEnd _ _ _ => true
  | .diSample _ _ => true
  | .fioDiStampLoRead _ => true
  | .aiSample uv sup => decide (uv.length = 48) && sup.all (fun x => decide (x.1 < 4))
  | .cyclicSenseSample _ _ => true
  | .sensorSupplyFault _ _ => true
  | .sensorSupplyRetry _ _ => true
  | .barrierDownlinkFrame => true
  | .barrierDownlinkReceived _ => true
  | .barrierUplinkFrame _ => true
  | .xLinkTimeout => true
  | .xUplinkLost => true
  | .xOverload _ => true
  | .xOverloadRetry _ _ => true
  | .xOpenWire _ => true
  | .xOvertemp _ => true
  | .xvfLow => true
  | .xvfFail => true
  | .xvfRecover => true
  | .fioXCmdValWrite _ _ => true
  | .fioXBankRead _ => true
  | .fioDiConfig r _ _ => r.ok
  | .fioDiRead r => r.ok
  | .fioAiConfig r _ _ _ _ => r.ok
  | .fioAiRead r _ _ => r.ok
  | .fioSupSet r _ _ => r.ok
  | .fioCyclicSense r _ _ _ => r.ok
  | .fioXConfig r _ _ _ _ => r.ok
  | .fioXSet r _ _ => r.ok
  | .fioXRead r => r.ok
  | .fioXSafe r _ _ => r.ok
  | .xvfLowEnd => true
  | .xOvertempEnd _ => true
  | .xOpenWireEnd _ => true
  | .safeNAssert => true
  | .safeNRelease => true
  | .ruleTableCheck _ _ => true
  | .ruleTableEccError _ => true
  | .rfxLoadRule r _ _ => r.ok
  | .rfxEnable r _ _ => r.ok
  | .rfxDisable r _ _ => r.ok
  | .rfxGetRule r _ => r.ok
  | .rfxStats r _ _ => r.ok
  | .rfxSelfArrest r _ => r.ok
  | .rfxSafeNFilter r _ _ => r.ok
  | .edgeWindowEnd _ _ => true
  | .limpTableTimer => true
  | .localCycleStart => true
  | .syncRefReceived _ _ _ f _ => decide (f.path.length = 64)
  | .syncRefMissing => true
  | .masterHandover => true
  | .staticFrameReceived _ _ f => f.fits 480
  | .slotDue _ => true
  | .dynamicFrameReceived _ _ f => f.all (fun g => g.fits 1536)
  | .relayQueueTimeout => true
  | .secondaryFrameReceived _ _ f _ => f.fits 1536
  | .delayMeasRequest _ _ _ => true
  | .delayMeasResponse _ _ _ _ => true
  | .ringLinkDown _ => true
  | .ringPhyTrained _ => true
  | .mkaFrame _ peers _ => decide (peers.length ≤ 4032)
  | .ringMacsecTimeout _ => true
  | .linkClose _ => true
  | .ringSleep => true
  | .ringTc10Wake _ => true
  | .sigSlotFreeze _ => true
  | .ringGetStatus r => r.ok
  | .ringTopology r => r.ok
  | .ringSlotAge r _ _ => r.ok
  | .ringDelays r => r.ok
  | .ringSleepConsent r _ => r.ok
  | .ringStats r _ => r.ok
  | .frameIngress _ _ f _ rivals => f.ok && decide (rivals.length ≤ 20)
  | .losslessTimeout _ _ => true
  | .frameEgress _ => true
  | .potFullEpisodeEnd _ => true
  | .cellAudit _ _ _ => true
  | .leakCompareDone => true
  | .cellEccError _ _ => true
  | .gateListEntry _ _ => true
  | .fdbAgeing _ _ => true
  | .eswLinkChange _ _ => true
  | .portMacsecTimeout _ => true
  | .plcaBeaconTimeout _ => true
  | .plcaBeaconReturn _ => true
  | .latentErrorTest _ _ => true
  | .cellScrubbed _ => true
  | .eswTxqProdWrite _ _ _ descs rivals => descs.all (fun d => d.frame.ok) && decide (rivals.length ≤ 20)
  | .eswRxqConsWrite _ _ _ => true
  | .eswPortStatus r _ => r.ok
  | .eswVlanSet r _ _ _ => r.ok
  | .eswFdbAdd r _ => r.ok
  | .eswFdbDel r _ _ => r.ok
  | .eswPotConfig r _ => r.ok
  | .eswPotStatus r _ => r.ok
  | .eswShaperSet r _ _ _ _ => r.ok
  | .eswGateSet r _ => r.ok
  | .eswStreamFilter r f => r.ok && decide (f.key.length = 40)
  | .eswFrerSet r _ => r.ok
  | .eswPlcaSet r _ => r.ok
  | .eswAudit r _ _ _ _ _ _ => r.ok
  | .eswStats r _ => r.ok
  | .canFrameReceived _ f _ _ => f.ok
  | .canSofCommit _ => true
  | .canTxComplete _ _ _ => true
  | .canIntegrationDone _ => true
  | .canRecoveryDone _ => true
  | .canRxOverrunEnd _ => true
  | .canTxBellWrite _ _ => true
  | .canTxCancelWrite _ _ _ => true
  | .canEntryCtlWrite _ _ _ _ => true
  | .canRxLostRead _ _ => true
  | .tmReferenceSend _ => true
  | .tmReferenceReceived _ _ _ _ => true
  | .tmReferenceMissing _ => true
  | .canLowPowerFrame _ _ f => f.all CanFrame.ok
  | .canWakeConfirmTimeout _ => true
  | .canConfig r _ _ => r.ok
  | .canStart r _ => r.ok
  | .canStop r _ => r.ok
  | .canRecover r _ => r.ok
  | .canSetFilter r _ _ _ _ _ => r.ok
  | .canSetSieve r _ _ _ _ _ _ => r.ok
  | .canCancel r _ _ => r.ok
  | .canTimeMaster r _ _ _ _ _ _ _ => r.ok
  | .canGetStatus r _ => r.ok
  | .canStats r _ _ => r.ok
  | .nmMessageReceived _ _ _ data => decide (data.length ≤ 8)
  | .nmTokenPass _ => true
  | .nmFormingTimeout _ => true
  | .nmHopTimeout _ => true
  | .nmTokenLost _ => true
  | .nmSleepTimer _ => true
  | .nmTmaxExpiry _ => true
  | .nmConfig r _ _ => r.ok
  | .nmRequestAwake r _ => r.ok
  | .nmRelease r _ => r.ok
  | .nmSetTmax r _ _ => r.ok
  | .nmGetStatus r _ => r.ok
  | .linSlotStart _ => true
  | .linFrameEnd _ _ data => decide (data.length ≤ 8)
  | .linWakeScheduleStart _ => true
  | .linResponderWake _ => true
  | .linBusFault _ => true
  | .linBusFaultEnd _ => true
  | .linRxLostRead _ _ => true
  | .linConfig r _ _ => r.ok
  | .linLoadSchedule r _ _ _ entries => r.ok && entries.all (fun e => decide (e.args.length = 4))
  | .linSelectSchedule r _ _ => r.ok
  | .linWake r _ => r.ok
  | .linSleep r _ => r.ok
  | .linDiag r _ _ _ => r.ok
  | .linDiagDone _ => true
  | .linGetStatus r _ => r.ok
  | .linRxOverrunEnd _ => true
  | .sourcePduUpdate _ _ => true
  | .pduTimeout _ => true
  | .signalCyclicWrite _ => true
  | .signalDeferredWrite _ => true
  | .pduCyclicSend _ => true
  | .i3RecordFrame _ payload => decide (payload.length ≤ 1982)
  | .sigTableEcc _ _ => true
  | .sigWrLoWrite _ _ _ => true
  | .sigRdLoRead _ _ => true
  | .prsBlock _ _ _ => true
  | .prsCaptureComplete _ => true
  | .sigLoad r _ _ _ records => r.ok && decide (records.length ≤ 4032)
  | .sigRead r _ _ => r.ok
  | .sigWrite r _ _ _ => r.ok
  | .sigGetStatus r _ _ => r.ok
  | .sigPrsConfig r _ => r.ok
  | .sigPrsStart r _ => r.ok
  | .sigPrsStop r _ => r.ok
  | .sigCapture r _ _ _ _ => r.ok
  | .viewChangeApply _ => true
  | .captureEvent _ _ => true
  | .triggerFire _ => true
  | .rtcAlarmExpiry => true
  | .timeRead r _ => r.ok
  | .timeAdjust r _ => r.ok
  | .timeViewAlloc r _ _ _ => r.ok
  | .timeCaptureConfig r _ _ _ _ => r.ok
  | .timeTriggerConfig r _ => r.ok
  | .timeRtcAlarm r _ _ => r.ok
  | .vzfCreate r _ _ _ => r.ok
  | .vzfDestroy r _ => r.ok
  | .vzfReset r _ => r.ok
  | .vzfResetDrainEnd _ => true
  | .vzfQos r _ _ => r.ok
  | .vzfGetInfo r _ => r.ok
  | .vzfList r => r.ok
  | .dramZeroComplete _ => true
  | .interruptBudgetRefill => true
  | .vectorHoldoffExpiry _ _ => true
  | .lockstepMismatch _ _ => true
  | .pairLbistDecision _ _ _ => true
  | .pairMigration => true
  | .trapStacking _ _ _ _ _ _ => true
  | .mretUnstack _ _ _ => true
  | .safCkptGoWrite _ _ => true
  | .checkpointComplete _ _ => true
  | .trngHealthFail => true
  | .keyProvision r _ => r.ok
  | .keySlotStatus r _ _ => r.ok
  | .keyEraseSlot r _ _ _ => r.ok
  | .keyAttest r nonce _ => r.ok && decide (nonce.length = 32)
  | .keyRandom r _ => r.ok
  | .keyGetIdentity r => r.ok
  | .updBegin r _ _ => r.ok
  | .updWrite r _ data => r.ok && decide (data.length ≤ 4032)
  | .updVerify r => r.ok
  | .updVerifyDone _ _ => true
  | .updCommit r _ => r.ok
  | .updAbort r => r.ok
  | .updStatus r => r.ok
  | .updRestart r => r.ok
  | .updWaiver r _ digest _ => r.ok && decide (digest.length = 48)
  | .updTargetTimeout => true
  | .udsSessionControl _ => true
  | .udsEcuReset _ => true
  | .udsReadDataById _ => true
  | .udsRequestSeed => true
  | .udsSendKey _ => true
  | .udsSecurityLockoutEnd => true
  | .udsRoutineControl _ _ _ => true
  | .udsRequestDownload _ _ _ _ => true
  | .udsTransferData _ data => decide (data.length ≤ 4095)
  | .udsRequestTransferExit => true
  | .udsTesterPresent _ => true
  | .udsS3Timeout => true
  | .basecampPortIdle => true
  | .belayFrameSend => true
  | .belayEncoderTimeout => true
  | .belayFrameDecoded _ => true
  | .belayPartnerLost => true
  | .twinGateDelay _ => true
  | .twinGraceExpiry => true
  | .healthReport _ _ => true
  | .standbySelftest _ _ _ => true
  | .twinStatus r => r.ok
  | .twinHealth r _ => r.ok
  | .twinBelayTest r _ => r.ok
  | .belayTestDone => true
  | .logRead r _ _ _ => r.ok
  | .logArchive r _ => r.ok
  | .logStatus r _ => r.ok
  | .logReadStones r => r.ok
  | .logClearStones r => r.ok
  | .stoneCopyDone _ => true
  | .logSramEcc => true
  | .nandLogWriteFail => true

end Sys2Proof
end

