-- ==== Sys2Proof/Decode.lean ====
section
/-! DEFINITION. The decoder of the operation table: no row of it gives a command any bits, so no word spells one. -/

namespace Sys2Proof

def decodeTableWord (_nbits _w : Nat) : Option Instr := none

end Sys2Proof
end

