-- ==== Sys2Proof/Config.lean ====
section
/-! DEFINITION. What the spec fixes once for the part, and the values it leaves open: each open value is an opaque
constant applied to a counter of State (`State.free`), so that nothing can be proved of it (DESIGN CHOICE, log entry 7;
safe). -/

namespace Sys2Proof.Config

/-- Part code and silicon step (R1, Table 3.11). -/
def partCode : U16 := 0x5A39
def stepCode : Byte := 0xA1

/-- Numbers of like things (chapter 0). -/
def numChannels : Nat := 112
def numPorts : Nat := 512
def numStones : Nat := 16
def ramEntries : Nat := 65536
def nandEntries : Nat := 262144

/-- Ticks of `TB_COUNT` in a second, a millisecond and a microsecond at CLK_FAB (R368). -/
def ticksPerSecond : Nat := 600000000
def ticksPerMs : Nat := 600000
def ticksPerUs : Nat := 600

/-- FREE: a 16-bit value that the spec leaves open (a generation seed drawn from the TRNG, R406; log entries 13, 32, 57, 87, 88). -/
opaque free16 : Nat → U16
/-- FREE: a 32-bit value that the spec leaves open (log entries 50, 73, 92). -/
opaque free32 : Nat → U32
/-- FREE: a 64-bit value that the spec leaves open (log entries 63, 71, 73, 93). -/
opaque free64 : Nat → U64
/-- FREE: random bytes of the DRBG or a digest or signature that the spec does not compute here (R434, R435; log entries 25, 32). -/
opaque freeByte : Nat → Nat → Byte

/-- FREE: the crossbar plane of a flow key; the spec names a CRC-16 polynomial and no layout of the key (R278; log entry 72). -/
opaque flowPlane : List Nat → Bool

/-- `n` bytes of the open value numbered `k`. -/
def freeBytes (k n : Nat) : List Byte := (List.range n).map (freeByte k)

/-- FREE: SHA-384, which the spec names and does not give (R422, R434, R435): 48 bytes of each message (log entry 32). -/
opaque sha384 : List Byte → List Byte

/-- FREE: the 256-bit root that the SRAM PUF of this device gives (R420; log entry 103). -/
opaque rootByte : Nat → Byte

def root : List Byte := (List.range 32).map rootByte

/-- FREE: byte of the public key of a seed, for 0 ECDSA, 1 ECDH, 2 ML-DSA-65 and 3 ML-KEM-768, which the spec names and does not give
(Table 15.2; log entry 103). -/
opaque publicKey : Nat → List Byte → Nat → Byte

/-- FREE: byte of the GMAC of AES-256-GCM by key, IV and additional data, which the spec names and does not give (R66; log entry 32). -/
opaque gmacByte : List Byte → List Byte → List Byte → Nat → Byte

def gmac (key iv data : List Byte) : List Byte := (List.range 16).map (gmacByte key iv data)

/-- The MAC address of a ring port (0 `RING_E`, 1 `RING_W`), which the spec does not give (Table 9.2; log entry 138). -/
opaque portMac : Nat → BitVec 48

/-- FREE: byte of what MACsec makes of the protected part of an outer frame, ciphertext and then ICV, by port, number of its SAK, packet
number and content (R228, R256; log entry 138). -/
opaque macsecByte : Nat → Nat → Nat → List Byte → Nat → Byte

/-- FREE: the number that `EVT_RFX_SELF_ARREST` gives a Run-service item; R45 lists the items without numbers (log entry 13). -/
opaque runItem : Nat → U16

/-- FREE: the number that `EVT_TWIN_TAKEOVER` gives a take-over on RELEASE (true) or on loss; R462 names the cause alone (log entry 13). -/
opaque takeoverCause : Bool → Byte

/-- FREE: on-resistance of a channel of a class at a junction temperature in 0.1 °C, in µΩ; Table 4.1 gives a typical value at 25 °C and
the most at 150 °C (R93; log entry 118). -/
opaque onResistance : Nat → Int → Nat

/-- FREE: the SJW that the ROM gives CAN0: on the reference nominal and data, with the PLL data (R446 gives the other fields; log entry
143). -/
opaque romSjw : Nat → Byte

/-- FREE: whether the ROM fills a classical frame up to 8 bytes, and the byte that fills a frame (R446 leaves both to ISO 15765-2; log
entry 143). -/
opaque tpPads : Bool
opaque tpFill : Byte

end Sys2Proof.Config
end

