-- ==== Sys2Proof/Machine/Codes.lean ====
section
/-! DEFINITION. The status codes (R82 and each chapter's status table) and the events with their codes, log classes and
whether the chapter stores them in a cairn stone (R90 and each chapter's event table). -/

namespace Sys2Proof.Machine

/-- An event: its 16-bit code (service in the high byte), its log class and whether a stone stores it. -/
structure EvKind where
  code : U16
  cls : Nat
  stone : Bool
  deriving DecidableEq, Repr

def stat_ok : U16 := 0x0000
def stat_pending : U16 := 0x0001
def stat_aborted : U16 := 0x0002
def stat_badVersion : U16 := 0x0010
def stat_badLength : U16 := 0x0011
def stat_unknownCmd : U16 := 0x0012
def stat_badPayload : U16 := 0x0013
def stat_range : U16 := 0x0014
def stat_staleGen : U16 := 0x0015
def stat_resyncRequired : U16 := 0x0016
def stat_denied : U16 := 0x0020
def stat_authFail : U16 := 0x0021
def stat_notOwner : U16 := 0x0022
def stat_badMode : U16 := 0x0030
def stat_badState : U16 := 0x0031
def stat_busy : U16 := 0x0032
def stat_rateLimited : U16 := 0x0033
def stat_noSession : U16 := 0x0034
def stat_noResource : U16 := 0x0040
def stat_timeout : U16 := 0x0041
def stat_hwFault : U16 := 0x0050
def stat_clkFail : U16 := 0x0101
def stat_noImage : U16 := 0x0102
def stat_noConfig : U16 := 0x0103
def stat_untestedSet : U16 := 0x0104
def stat_bootLoop : U16 := 0x0105
def stat_forced : U16 := 0x0106
def stat_cfgStale : U16 := 0x0201
def stat_cfgDigest : U16 := 0x0202
def stat_cfgSignature : U16 := 0x0203
def stat_cfgRestartNeeded : U16 := 0x0204
def stat_chLocked : U16 := 0x0301
def stat_chLatched : U16 := 0x0302
def stat_chNoProfile : U16 := 0x0303
def stat_chClass : U16 := 0x0304
def stat_chProfileConflict : U16 := 0x0305
def stat_chKeepalive : U16 := 0x0306
def stat_chLedgerHigh : U16 := 0x0307
def stat_chFwLock : U16 := 0x0308
def stat_chNotCooled : U16 := 0x0309
def stat_chArcRepeat : U16 := 0x030A
def stat_hbPosInvalid : U16 := 0x030B
def stat_brgClass : U16 := 0x0401
def stat_brgActive : U16 := 0x0402
def stat_brgNoBattery : U16 := 0x0403
def stat_fioConflict : U16 := 0x0501
def stat_fioMode : U16 := 0x0502
def stat_fioLink : U16 := 0x0503
def stat_rfxPriv : U16 := 0x0601
def stat_rfxSource : U16 := 0x0602
def stat_rfxTarget : U16 := 0x0603
def stat_rfxEmpty : U16 := 0x0604
def stat_rfxNoOwner : U16 := 0x0605
def stat_ringNotJoined : U16 := 0x0701
def stat_ringSleepLate : U16 := 0x0702
def stat_eswPort : U16 := 0x0801
def stat_eswTableFull : U16 := 0x0802
def stat_eswPotBudget : U16 := 0x0803
def stat_eswGateList : U16 := 0x0804
def stat_eswFeature : U16 := 0x0805
def stat_canTiming : U16 := 0x0901
def stat_canReserved : U16 := 0x0902
def stat_canTmView : U16 := 0x0903
def stat_canFeature : U16 := 0x0904
def stat_linTable : U16 := 0x0A01
def stat_linAsleep : U16 := 0x0A02
def stat_nmOff : U16 := 0x0B01
def stat_sigRange : U16 := 0x0C01
def stat_sigSink : U16 := 0x0C02
def stat_sigDesc : U16 := 0x0C03
def stat_prsSource : U16 := 0x0C04
def stat_prsRunning : U16 := 0x0C05
def stat_prsCapacity : U16 := 0x0C06
def stat_prsNoCapture : U16 := 0x0C07
def stat_timePast : U16 := 0x0D01
def stat_timePending : U16 := 0x0D02
def stat_timeView : U16 := 0x0D03
def stat_timeNoUnit : U16 := 0x0D04
def stat_vzfNone : U16 := 0x0E01
def stat_vzfExists : U16 := 0x0E02
def stat_vzfTemplate : U16 := 0x0E03
def stat_vzfSelf : U16 := 0x0E04
def stat_vzfPair : U16 := 0x0E05
def stat_keySlotBad : U16 := 0x0F01
def stat_keyType : U16 := 0x0F02
def stat_keyWrap : U16 := 0x0F03
def stat_keyTrng : U16 := 0x0F04
def stat_keyNoIdentity : U16 := 0x0F05
def stat_updSignature : U16 := 0x1001
def stat_updDigest : U16 := 0x1002
def stat_updStep : U16 := 0x1003
def stat_updRollback : U16 := 0x1004
def stat_updKey : U16 := 0x1005
def stat_updUntested : U16 := 0x1006
def stat_updNotVerified : U16 := 0x1007
def stat_twinOff : U16 := 0x1101
def stat_twinRole : U16 := 0x1102

def evt_modeChange : EvKind := ⟨0x0180, 1, false⟩
def evt_boardnetMismatch : EvKind := ⟨0x0181, 3, false⟩
def evt_workshopDenied : EvKind := ⟨0x0182, 2, false⟩
def evt_workshopTimeout : EvKind := ⟨0x0183, 2, false⟩
def evt_sleepAborted : EvKind := ⟨0x0184, 1, false⟩
def evt_clkPllFail : EvKind := ⟨0x0185, 4, true⟩
def evt_clkLockLost : EvKind := ⟨0x0186, 4, true⟩
def evt_bootLoop : EvKind := ⟨0x0187, 4, true⟩
def evt_pdlNoAck : EvKind := ⟨0x0188, 3, false⟩
def evt_mgrImageInvalid : EvKind := ⟨0x0189, 4, false⟩
def evt_mbxAuthFail : EvKind := ⟨0x018A, 3, false⟩
def evt_mbxPortStale : EvKind := ⟨0x018B, 2, false⟩
def evt_windowFault : EvKind := ⟨0x018C, 2, false⟩
def evt_cfgBankInvalid : EvKind := ⟨0x0280, 3, false⟩
def evt_cfgSeqAmbiguous : EvKind := ⟨0x0281, 2, false⟩
def evt_setUntested : EvKind := ⟨0x1084, 4, false⟩
def evt_setFallback : EvKind := ⟨0x1085, 3, false⟩
def evt_waiverInUse : EvKind := ⟨0x1086, 2, false⟩
def evt_chTrip : EvKind := ⟨0x0380, 2, false⟩
def evt_chLatched : EvKind := ⟨0x0381, 3, false⟩
def evt_arc : EvKind := ⟨0x0382, 3, false⟩
def evt_chOpenLoad : EvKind := ⟨0x0383, 2, false⟩
def evt_chShortToSupply : EvKind := ⟨0x0384, 2, false⟩
def evt_chFwMissing : EvKind := ⟨0x0385, 3, false⟩
def evt_chLedgerLock : EvKind := ⟨0x0386, 3, false⟩
def evt_chClampOver : EvKind := ⟨0x0387, 4, true⟩
def evt_chHot : EvKind := ⟨0x0388, 2, false⟩
def evt_chHold : EvKind := ⟨0x0389, 3, false⟩
def evt_chOrphan : EvKind := ⟨0x038A, 1, false⟩
def evt_chKeepaliveTrip : EvKind := ⟨0x038B, 3, false⟩
def evt_chShed : EvKind := ⟨0x038C, 2, false⟩
def evt_chUnlocked : EvKind := ⟨0x038D, 1, false⟩
def evt_hbStall : EvKind := ⟨0x0390, 1, false⟩
def evt_hbTarget : EvKind := ⟨0x0391, 1, false⟩
def evt_hbPosLost : EvKind := ⟨0x0392, 2, false⟩
def evt_vlvCompliance : EvKind := ⟨0x0393, 2, false⟩
def evt_vlvComplianceEnd : EvKind := ⟨0x0394, 1, false⟩
def evt_brgHandover : EvKind := ⟨0x0480, 2, false⟩
def evt_brgCommit : EvKind := ⟨0x0481, 2, false⟩
def evt_brgAbandon : EvKind := ⟨0x0482, 1, false⟩
def evt_brgHandback : EvKind := ⟨0x0483, 1, false⟩
def evt_brgChatter : EvKind := ⟨0x0484, 3, false⟩
def evt_brgShed : EvKind := ⟨0x0485, 2, false⟩
def evt_brgBoostLimit : EvKind := ⟨0x0486, 2, false⟩
def evt_brgBattLow : EvKind := ⟨0x0487, 4, true⟩
def evt_brgPhaseFault : EvKind := ⟨0x0488, 3, false⟩
def evt_brgHot : EvKind := ⟨0x0489, 2, false⟩
def evt_brgOvertemp : EvKind := ⟨0x048A, 3, false⟩
def evt_brgVz12Fault : EvKind := ⟨0x048B, 3, false⟩
def evt_brgLogicLow : EvKind := ⟨0x048C, 3, false⟩
def evt_brgPowerFail : EvKind := ⟨0x048D, 4, true⟩
def evt_fioDiWire : EvKind := ⟨0x0580, 2, false⟩
def evt_fioDiWireEnd : EvKind := ⟨0x0581, 1, false⟩
def evt_fioSupFault : EvKind := ⟨0x0582, 3, false⟩
def evt_fioSupOk : EvKind := ⟨0x0583, 1, false⟩
def evt_fioXDiag : EvKind := ⟨0x0584, 2, false⟩
def evt_fioXReadback : EvKind := ⟨0x0585, 2, false⟩
def evt_fioXLinkLost : EvKind := ⟨0x0586, 3, false⟩
def evt_fioXLinkUp : EvKind := ⟨0x0587, 1, false⟩
def evt_fioXTimeout : EvKind := ⟨0x0588, 3, false⟩
def evt_fioXvfLow : EvKind := ⟨0x0589, 2, false⟩
/-- Its class is the rule's `ECLS` (R202): the class here is replaced when it is raised. -/
def evt_rfxFired : EvKind := ⟨0x0680, 1, false⟩
def evt_rfxSelfArrest : EvKind := ⟨0x0681, 4, true⟩
def evt_rfxArrestRepeat : EvKind := ⟨0x0682, 2, false⟩
def evt_rfxScopedArrest : EvKind := ⟨0x0683, 4, false⟩
def evt_rfxBlocked : EvKind := ⟨0x0684, 2, false⟩
def evt_rfxSuspended : EvKind := ⟨0x0685, 1, false⟩
def evt_rfxTableFault : EvKind := ⟨0x0686, 4, true⟩
def evt_ringLinkDown : EvKind := ⟨0x0780, 3, false⟩
def evt_ringLinkUp : EvKind := ⟨0x0781, 1, false⟩
def evt_ringLoop : EvKind := ⟨0x0782, 3, false⟩
def evt_ringHealed : EvKind := ⟨0x0783, 2, false⟩
def evt_ringJoined : EvKind := ⟨0x0784, 1, false⟩
def evt_ringSchedMismatch : EvKind := ⟨0x0785, 3, false⟩
def evt_ringMasterChange : EvKind := ⟨0x0786, 2, false⟩
def evt_ringMasterYield : EvKind := ⟨0x0787, 2, false⟩
def evt_ringRefMissing : EvKind := ⟨0x0788, 2, false⟩
def evt_ringSlotStale : EvKind := ⟨0x0789, 2, false⟩
def evt_ringMacsecFail : EvKind := ⟨0x078A, 3, false⟩
def evt_ringSleep : EvKind := ⟨0x078B, 1, false⟩
def evt_ringCycleWrap : EvKind := ⟨0x078C, 1, false⟩
def evt_ringRelayDrop : EvKind := ⟨0x078D, 2, false⟩
def evt_cellLeak : EvKind := ⟨0x0880, 3, false⟩
def evt_eswCellEcc : EvKind := ⟨0x0881, 3, false⟩
def evt_eswBooks : EvKind := ⟨0x0882, 4, true⟩
def evt_eswPotFull : EvKind := ⟨0x0883, 2, false⟩
def evt_eswLinkDown : EvKind := ⟨0x0884, 2, false⟩
def evt_eswLinkUp : EvKind := ⟨0x0885, 1, false⟩
def evt_eswMacsecFail : EvKind := ⟨0x0886, 3, false⟩
def evt_eswPlcaLost : EvKind := ⟨0x0887, 2, false⟩
def evt_eswStreamBlocked : EvKind := ⟨0x0888, 2, false⟩
def evt_eswFrerLatent : EvKind := ⟨0x0889, 2, false⟩
def evt_canBusOff : EvKind := ⟨0x0980, 3, false⟩
def evt_canRecovered : EvKind := ⟨0x0981, 1, false⟩
def evt_canErrPassive : EvKind := ⟨0x0982, 2, false⟩
def evt_canRxOverrun : EvKind := ⟨0x0983, 2, false⟩
def evt_canWake : EvKind := ⟨0x0984, 1, false⟩
def evt_canWakeUnconfirmed : EvKind := ⟨0x0985, 2, false⟩
def evt_canSieveFailsafe : EvKind := ⟨0x0986, 2, false⟩
def evt_canTmMissing : EvKind := ⟨0x0987, 2, false⟩
def evt_canTmChange : EvKind := ⟨0x0988, 2, false⟩
def evt_linRxOverrun : EvKind := ⟨0x0A80, 2, false⟩
def evt_linWake : EvKind := ⟨0x0A81, 1, false⟩
def evt_linBusFault : EvKind := ⟨0x0A82, 3, false⟩
def evt_linBusFaultEnd : EvKind := ⟨0x0A83, 1, false⟩
def evt_linNoResponse : EvKind := ⟨0x0A84, 2, false⟩
def evt_nmOverstay : EvKind := ⟨0x0B80, 2, false⟩
def evt_nmOverridden : EvKind := ⟨0x0B81, 2, false⟩
def evt_nmSkip : EvKind := ⟨0x0B82, 2, false⟩
def evt_nmSleep : EvKind := ⟨0x0B83, 1, false⟩
def evt_nmAwake : EvKind := ⟨0x0B84, 1, false⟩
def evt_nmCoordConflict : EvKind := ⟨0x0B85, 3, false⟩
def evt_sigSubst : EvKind := ⟨0x0C80, 2, false⟩
def evt_sigSubstEnd : EvKind := ⟨0x0C81, 1, false⟩
def evt_sigSat : EvKind := ⟨0x0C82, 2, false⟩
def evt_sigOverload : EvKind := ⟨0x0C83, 3, false⟩
def evt_sigRingBacklog : EvKind := ⟨0x0C84, 2, false⟩
def evt_sigTableEcc : EvKind := ⟨0x0C85, 3, false⟩
def evt_prsOverflow : EvKind := ⟨0x0C86, 2, false⟩
def evt_prsCapture : EvKind := ⟨0x0C87, 1, false⟩
def evt_prsCaptureFull : EvKind := ⟨0x0C88, 2, false⟩
def evt_timeRebase : EvKind := ⟨0x0D80, 1, false⟩
def evt_timeValidChange : EvKind := ⟨0x0D81, 2, false⟩
def evt_timeCaptureOvf : EvKind := ⟨0x0D82, 2, false⟩
def evt_timeTriggerLate : EvKind := ⟨0x0D83, 2, false⟩
def evt_timeRtcAlarm : EvKind := ⟨0x0D84, 1, false⟩
def evt_vzfCreated : EvKind := ⟨0x0E80, 1, false⟩
def evt_vzfReset : EvKind := ⟨0x0E81, 1, false⟩
def evt_vzfDestroyed : EvKind := ⟨0x0E82, 1, false⟩
def evt_vzfIommuFault : EvKind := ⟨0x0E83, 3, false⟩
def evt_vzfCreateFail : EvKind := ⟨0x0E84, 3, false⟩
def evt_pairTestFail : EvKind := ⟨0x0190, 3, false⟩
def evt_safMismatch : EvKind := ⟨0x0191, 3, false⟩
def evt_safTransient : EvKind := ⟨0x0192, 2, false⟩
def evt_safPairRetired : EvKind := ⟨0x0193, 4, true⟩
def evt_safMigrated : EvKind := ⟨0x0194, 2, false⟩
def evt_safStackFault : EvKind := ⟨0x0195, 3, false⟩
def evt_safStackFatal : EvKind := ⟨0x0196, 4, true⟩
def evt_keyPufFail : EvKind := ⟨0x0F80, 4, true⟩
def evt_keyHelperRepaired : EvKind := ⟨0x0F81, 2, false⟩
def evt_keySlotBad : EvKind := ⟨0x0F82, 3, false⟩
def evt_keySlotRepaired : EvKind := ⟨0x0F83, 2, false⟩
def evt_keyProvisioned : EvKind := ⟨0x0F84, 1, false⟩
def evt_keyTrngFail : EvKind := ⟨0x0F85, 4, true⟩
def evt_updVerified : EvKind := ⟨0x1080, 1, false⟩
def evt_updCommitted : EvKind := ⟨0x1081, 2, false⟩
def evt_updImageInvalid : EvKind := ⟨0x1082, 3, false⟩
def evt_updSecverRaised : EvKind := ⟨0x1083, 1, false⟩
def evt_mgrWatchdog : EvKind := ⟨0x0197, 4, true⟩
def evt_twinRole : EvKind := ⟨0x1180, 1, false⟩
def evt_twinPartnerLost : EvKind := ⟨0x1181, 3, false⟩
def evt_twinTakeover : EvKind := ⟨0x1182, 3, false⟩
def evt_twinMirrorStale : EvKind := ⟨0x1183, 2, false⟩
def evt_twinContention : EvKind := ⟨0x1184, 2, false⟩
def evt_twinBelayFault : EvKind := ⟨0x1185, 3, false⟩
def evt_twinReady : EvKind := ⟨0x1186, 1, false⟩
def evt_twinSelftestFail : EvKind := ⟨0x1187, 3, false⟩
def evt_twinConfigMismatch : EvKind := ⟨0x1188, 3, false⟩
def evt_logDegraded : EvKind := ⟨0x1280, 4, true⟩
def evt_logStoreFailed : EvKind := ⟨0x1281, 4, true⟩
def evt_logFlashFull : EvKind := ⟨0x1282, 3, false⟩
def evt_pkgHot : EvKind := ⟨0x0198, 2, false⟩
def evt_pkgOvertemp : EvKind := ⟨0x0199, 3, false⟩
def evt_pkgLogicOvertemp : EvKind := ⟨0x019A, 4, true⟩
def evt_complete : EvKind := ⟨0x01F0, 1, false⟩

end Sys2Proof.Machine
end

