-- ==== Sys2Proof/Machine/StKey.lean ====
section
/-! DEFINITION. State of the Canister (R419 to R435), of the image copies and the update service (R436 to R444), and of the
Basecamp session (R445 to R450). -/

namespace Sys2Proof.Machine

/-- Slot states (`KEY.SLOT_STATUS`). -/
inductive SlotState where
  | empty
  | valid
  | bad
  deriving DecidableEq, Repr

def SlotState.code : SlotState → Nat
  | .empty => 0
  | .valid => 1
  | .bad => 2

/-- A key slot record (Table 15.3); its tag is the start's verdict. -/
structure KeySlot where
  state : SlotState
  typ : Nat
  usage : U16
  writes : U32
  content : List Byte
  deriving DecidableEq, Repr

def KeySlot.empty : KeySlot := { state := .empty, typ := 0, usage := 0, writes := 0, content := [] }

structure KeyState where
  serial : U64
  /-- Table 15.5, slot 126: the certificate kept in NAND, at most 640 bytes. -/
  cert : List Byte
  slots : Tbl KeySlot
  /-- No root this start (R421). -/
  pufFail : Bool
  /-- A health test failed since the last good start (R434). -/
  trngFail : Bool
  /-- MR0 to MR7, 48 bytes each (R422). -/
  mrs : List (List Byte)
  /-- The K_state branch is available: MR5 is extended (R425). -/
  kState : Bool
  /-- Refused uses of slots (R429). -/
  refused : Nat
  deriving DecidableEq, Repr

def KeyState.reset : KeyState :=
  { serial := 0, cert := [], slots := .empty, pufFail := false, trngFail := false, mrs := List.replicate 8 (zeros 48),
    kState := false, refused := 0 }

/-- States of an image copy (`UPD.STATUS`). -/
inductive CopyState where
  | empty
  | valid
  | invalid
  | staged
  | verified
  deriving DecidableEq, Repr

def CopyState.code : CopyState → Nat
  | .empty => 0
  | .valid => 1
  | .invalid => 2
  | .staged => 3
  | .verified => 4

/-- An image copy: what its manifest says (Table 15.9) and its bytes. -/
structure ImageCopy where
  state : CopyState
  version : U32
  secVer : Nat
  stepLo : Byte
  stepHi : Byte
  /-- Tested-with rows, class 0 first, four versions each. -/
  tested : List (List U32)
  devWrap : Bool
  /-- Storage key field: device key. -/
  devKey : Bool
  bytes : Memory
  deriving DecidableEq, Repr

def ImageCopy.empty : ImageCopy :=
  { state := .empty, version := 0, secVer := 0, stepLo := 0, stepHi := 0, tested := [], devWrap := false, devKey := false, bytes := [] }

/-- An open staging target (R443): class 0 to 5, or 16 for the configuration bank; the copy or bank it fills. -/
structure UpdTarget where
  target : Nat
  second : Bool
  total : Nat
  bytes : Memory
  deriving DecidableEq, Repr

/-- A verification that runs: its target, and the requester (port, Tag, REQ_SEQ), none over CAN0. -/
structure Verifying where
  target : UpdTarget
  requester : Option (Nat × U32 × U32)
  deriving DecidableEq, Repr

/-- A waiver token (R56): starts left, and the manifest digest it binds. -/
structure Waiver where
  left : Nat
  digest : List Byte
  deriving DecidableEq, Repr

structure UpdState where
  /-- Copies by class × 2, plus 1 for copy B. -/
  copies : Tbl ImageCopy
  /-- Security minima by class (R441). -/
  minima : Tbl Nat
  /-- Running copy by class; none is listed where no copy runs. -/
  running : Tbl Bool
  /-- The last good set: the copy of each class, class 0 first (R55). -/
  lastGood : Option (List Bool)
  /-- This start runs the last good set after a refusal (Table 15.7 flag 7). -/
  fallback : Bool
  open_ : Option UpdTarget
  verifying : Option Verifying
  /-- The configuration bank that is verified and waits for the commit (B is true), with what it holds. -/
  bankReady : Option (Bool × Bank)
  /-- A commit has succeeded since Basecamp entry (R453). -/
  committed : Bool
  waiver : Option Waiver
  deriving DecidableEq, Repr

def UpdState.reset : UpdState :=
  { copies := .empty, minima := .empty, running := .empty, lastGood := none, fallback := false, open_ := none,
    verifying := none, bankReady := none, committed := false, waiver := none }

/-- Who serves the Basecamp session (R449). -/
inductive Serving where
  | ring
  | can0
  deriving DecidableEq, Repr

/-- A request that arrives in several frames (ISO 15765-2): its length, what has come, and the sequence number that follows. -/
structure TpIn where
  want : Nat
  got : List Byte
  next : Nat
  deriving DecidableEq, Repr

/-- The transport on CAN0 in Basecamp (R446). -/
structure TpState where
  /-- Format of the last request: CAN FD with `BRS`, or classical CAN. -/
  fd : Bool
  rx : Option TpIn
  /-- The last whole request, and whether it came under the functional identifier. -/
  request : List Byte
  functional : Bool
  /-- The frames that the last turn sent: a view of the bus; and those that wait for the tester's flow control. -/
  sent : List CanFrame
  held : List CanFrame
  deriving DecidableEq, Repr

def TpState.reset : TpState := { fd := false, rx := none, request := [], functional := false, sent := [], held := [] }

/-- The diagnostic session over CAN0 (R446 to R448). -/
structure UdsState where
  programming : Bool
  unlocked : Bool
  /-- Nonce of the seed given out and not yet answered. -/
  seed : Option Nat
  wrong : Nat
  locked : Bool
  /-- Block counter expected next, and the index of the next block. -/
  counter : Byte
  block : Nat
  serving : Option Serving
  /-- The last response on CAN0. -/
  answer : List Byte
  tp : TpState
  deriving DecidableEq, Repr

def UdsState.reset : UdsState :=
  { programming := false, unlocked := false, seed := none, wrong := 0, locked := false, counter := 1, block := 0,
    serving := none, answer := [], tp := .reset }

end Sys2Proof.Machine
end

