-- ==== Sys2Proof/Machine/StLog.lean ====
section
/-! DEFINITION. State of the cairn log: its entries (R472), its three stores (R473, R474) and its state (R475). -/

namespace Sys2Proof.Machine

/-- One cairn log entry (Table 16.11); its CRC is computed when the entry is read. -/
structure LogEntry where
  seq : U32
  time : U64
  /-- `TB`: the time word is a `TB_COUNT`, not a V0 time. -/
  tb : Bool
  code : U16
  cls : Nat
  /-- `STONE`: the entry is also in a stone. -/
  stone : Bool
  /-- `TRUNC`: the event's data is longer than 8 bytes. -/
  trunc : Bool
  /-- Owner VZF of the source, 0xFF for none. -/
  owner : Byte
  inst : U16
  boot : U16
  data : List Byte
  deriving DecidableEq, Repr

/-- A cairn stone and whether its NAND copy is finished (R474). -/
structure Stone where
  entry : LogEntry
  copied : Bool
  deriving DecidableEq, Repr

/-- The states of the log (Table 16.13). -/
inductive LogMode where
  | normal
  | nandOnly
  | stonesOnly
  deriving DecidableEq, Repr

def LogMode.code : LogMode → Nat
  | .normal => 0
  | .nandOnly => 1
  | .stonesOnly => 2

structure LogState where
  mode : LogMode
  /-- RAM ring, newest first, at most 65,536 entries. -/
  ram : List LogEntry
  /-- RAM overrun count, 32 bits, saturating. -/
  overrun : Nat
  /-- NAND log, newest first, at most 262,144 entries. -/
  nand : List LogEntry
  flashFull : Bool
  flashFail : Bool
  debugEn : Bool
  /-- The sequence number that the next entry takes. -/
  nextSeq : U32
  /-- The end of the block of sequence numbers reserved in NAND (R472). -/
  reservedEnd : U32
  /-- Entries dropped in state 1 (R475). -/
  dropped : Nat
  /-- State 1: the second of `TB_COUNT` in which class 1 and 2 entries are being counted, and their count. -/
  rateSecond : Nat
  rateCount : Nat
  /-- Stones 0 to 15. -/
  stones : Tbl Stone
  stoneOverwrites : Nat
  deriving DecidableEq, Repr

def LogState.reset : LogState :=
  { mode := .normal, ram := [], overrun := 0, nand := [], flashFull := false, flashFail := false, debugEn := false,
    nextSeq := 0, reservedEnd := 0, dropped := 0, rateSecond := 0, rateCount := 0, stones := Tbl.empty,
    stoneOverwrites := 0 }

end Sys2Proof.Machine
end

