-- ==== Sys2Proof/Machine/StMbx.lean ====
section
/-! DEFINITION. State of the Gyvin mailbox: ports, their sequence spaces and held messages (R61 to R89), and the
window headers (R87). -/

namespace Sys2Proof.Machine

/-- The three kinds of port (Table 3.1). -/
inductive PortKind where
  | loc
  | ring
  | service
  deriving DecidableEq, Repr

/-- A response that the host has not acknowledged (R69, R73). -/
structure HeldRsp where
  seq : U32
  reqSeq : U32
  tag : U32
  code : U16
  status : U16
  data : List Byte
  /-- Retransmissions so far, 0 to 8. -/
  retries : Nat
  deriving DecidableEq, Repr

/-- An event that the host has not acknowledged. A completion (R75) is held apart and never displaced (R74). -/
structure HeldEvt where
  seq : U32
  completion : Bool
  code : U16
  cls : Nat
  inst : U16
  logSeq : U32
  tag : U32
  status : U16
  data : List Byte
  retries : Nat
  deriving DecidableEq, Repr

/-- An accepted request: not yet answered, or answered `ST_PENDING` with its completion owed (Table 3.6). -/
structure OpenReq where
  reqSeq : U32
  tag : U32
  code : U16
  /-- Answered `ST_PENDING`. -/
  pending : Bool
  /-- RSP_SEQ of the `ST_PENDING` response, or 0. -/
  rspSeq : U32
  deriving DecidableEq, Repr

/-- A control message of the manager (Table 3.4). -/
inductive CtlOp where
  | ack
  | refuse (seq : U32) (status : U16) (tag : U32)
  | epoch
  deriving DecidableEq, Repr

/-- `KIND` of a message of the manager (Table 3.3). -/
inductive MsgKind where
  | rsp
  | evt
  | ctl
  deriving DecidableEq, Repr

def MsgKind.code : MsgKind → Nat
  | .rsp => 1
  | .evt => 2
  | .ctl => 3

/-- A message as the manager sends it: what its header carries (Table 3.2), the wrap count of its IV (R66), and its payload. -/
structure Sent where
  kind : MsgKind
  retx : Bool
  syncReq : Bool
  seq : U32
  ack : U32
  gen : U16
  code : U16
  status : U16
  tag : U32
  session : Nat
  stamp : U64
  ctlCount : U32
  wrap : Nat
  data : List Byte
  deriving DecidableEq, Repr

/-- An entry of a local port's event ring, or one that waits for room in it (R88): an event, or a control message. -/
inductive EvtEntry where
  | evt (seq : U32)
  | ctl (op : CtlOp)
  deriving DecidableEq, Repr

/-- Port statistics (R71, R67, R81; `SYS.PORT_STATS`). -/
structure PortStats where
  accepted : Nat
  refused : Nat
  rateLimited : Nat
  discarded : Nat
  badAck : Nat
  retransmitted : Nat
  deriving DecidableEq, Repr

def PortStats.reset : PortStats :=
  { accepted := 0, refused := 0, rateLimited := 0, discarded := 0, badAck := 0, retransmitted := 0 }

/-- A partly received message (R66): its fragment count and the fragments seen. -/
structure Partial where
  reqSeq : U32
  /-- Number of fragments, known once the last one has arrived. -/
  total : Option Nat
  seen : List Nat
  deriving DecidableEq, Repr

structure Port where
  /-- Its number. -/
  num : Nat
  kind : PortKind
  /-- The bound VZF; none on port 0. -/
  vzf : Option Nat
  /-- Which of the VZF's local port blocks, 0 to 3. -/
  block : Nat
  sysPriv : Bool
  /-- The port awaits `SYS.RESYNC` (`SYNC_REQ`). -/
  awaits : Bool
  reqSeq : U32
  rspSeq : U32
  evtSeq : U32
  session : Nat
  /-- Control count of the manager in this session (R66). -/
  ctlCount : U32
  rsps : List HeldRsp
  evts : List HeldEvt
  opens : List OpenReq
  linkStale : Bool
  /-- Retransmission has stopped (R73, R78). -/
  rtxStopped : Bool
  lostSinceResync : Bool
  evtLost : Bool
  evtLostCount : Nat
  subClass : Nat
  subMask : U32
  window : Nat
  /-- t_RTX in µs (R63, R73). -/
  tRtx : Nat
  rate : Nat
  burst : Nat
  /-- Tokens of the bucket in 1/600,000,000, as of `tokAt` ticks (R81). -/
  tokens : Nat
  tokAt : Nat
  stats : PortStats
  part : Option Partial
  /-- Tag, `TB_COUNT` and RSP_SEQ of the last answered `SYS.RESYNC` (R78). -/
  lastResync : Option (U32 × Nat × U32)
  /-- `TB_COUNT` of the last `EVT_MBX_AUTH_FAIL`, at most one a second (R71). -/
  authFailAt : Option Nat
  /-- Messages sent last, newest first: a view of the wire, which no rule reads back. -/
  sent : List Sent
  /-- Key slot of the port, and the key of its session (R63, R66). -/
  keySlot : Nat
  key : List Byte
  /-- Generation and boot count as of the epoch, and the time stamp of a message sent now (Table 3.2). -/
  gen : U16
  boot : U32
  clock : U64
  /-- Passes of the response, event and control counts through 0 in this session (R66). -/
  rspWrap : Nat
  evtWrap : Nat
  ctlWrap : Nat
  /-- Ring and service ports: fragments that wait for an `MBX` ring frame (R66). -/
  outq : List (List Byte)
  /-- Local port: response and event ring entries in order, those in the rings first, then those that wait for room. -/
  rspQ : List U32
  evtQ : List EvtEntry
  /-- The six indices of a local port (Table 3.19) and its status bits (Table 3.21). -/
  reqProd : U16
  reqCons : U16
  rspProd : U16
  rspCons : U16
  evtProd : U16
  evtCons : U16
  prodErr : Bool
  consErr : Bool
  depthLog2 : Nat
  base : U64
  deriving DecidableEq, Repr

/-- Port 0, as R63 sets it, at an epoch. -/
def Port.service : Port :=
  { num := 0, kind := .service, vzf := none, block := 0, sysPriv := true, awaits := true, reqSeq := 0, rspSeq := 0, evtSeq := 0,
    session := 0, ctlCount := 0, rsps := [], evts := [], opens := [], linkStale := false, rtxStopped := false,
    lostSinceResync := false, evtLost := false, evtLostCount := 0, subClass := 2, subMask := 0xFFFFFFFF, window := 64,
    tRtx := 5000, rate := 200000, burst := 64, tokens := 64 * 600000000, tokAt := 0, stats := .reset, part := none, lastResync := none,
    authFailAt := none, sent := [], keySlot := 0, key := [], gen := 0, boot := 0, clock := 0, rspWrap := 0, evtWrap := 0, ctlWrap := 0, outq := [],
    rspQ := [], evtQ := [], reqProd := 0, reqCons := 0, rspProd := 0, rspCons := 0, evtProd := 0, evtCons := 0,
    prodErr := false, consErr := false, depthLog2 := 5, base := 0 }

/-- Window header of a VZF (Table 3.17). -/
structure WinHdr where
  fault : Bool
  faultCount : Nat
  deriving DecidableEq, Repr

def WinHdr.reset : WinHdr := { fault := false, faultCount := 0 }

structure MbxState where
  /-- The ports that exist, by number 0 to 511. -/
  ports : Tbl Port
  /-- Sessions opened so far in this start, by port number (R66). -/
  sessions : Tbl Nat
  wins : Tbl WinHdr
  /-- The response with which the manager last ended its own run (R59), and its port: a view of the wire, which no rule reads back. -/
  left : Option (Nat × HeldRsp)
  deriving DecidableEq, Repr

def MbxState.reset : MbxState := { ports := .empty, sessions := .empty, wins := .empty, left := none }

end Sys2Proof.Machine
end

