-- ==== Sys2Proof/Machine/State.lean ====
section
/-! DEFINITION. The state of the ZM9. -/

namespace Sys2Proof.Machine

/-- Everything the specification gives the ZM9, by chapter, and the queue of commands that wait. -/
structure State where
  sys : SysState
  mbx : MbxState
  log : LogState
  tb : TimeState
  vz : VzfState
  saf : SafState
  cfg : CfgState
  ch : ChanState
  rfx : RfxState
  twin : TwinState
  brg : BrgState
  fio : FioState
  ring : RingState
  esw : EswState
  net : NetState
  sig : SigState
  key : KeyState
  upd : UpdState
  uds : UdsState
  /-- What the last data-path read returned, 0 after an access to an unmapped slot: a view of the bus, which no rule reads back. -/
  bus : U64
  /-- The model's own counter behind the free values of `Config`. -/
  free : Nat
  pending : List Instr
  deriving DecidableEq, Repr

/-- The reasons a command could stop the machine with a fault. -/
inductive Fault where
  /-- No command raises it: every event of the operation table that the ZM9 ends a mode with (an exceptional supply, a clock
  monitor trip, a watchdog) has its effect in the state (Table 2.2). Safe: a machine that never stops hides no behaviour. -/
  | stopped
  deriving DecidableEq, Repr

/-- The reasons a command could be refused by the model. -/
inductive Refusal where
  /-- No command raises it: every row of the operation table has its meaning. Safe. -/
  | notModelled (mnemonic : String)
  deriving DecidableEq, Repr

/-- What a meaning answers. -/
abbrev Result := Host.Outcome State Fault Refusal

/-- The machine as manufactured, before the logic supply is first valid: Table 2.1's reset values and those of each chapter. -/
def State.reset : State :=
  { sys := .reset, mbx := .reset, log := .reset, tb := .reset, vz := .reset, saf := .reset, cfg := .reset, ch := .reset,
    rfx := .reset, twin := .reset, brg := .reset, fio := .reset, ring := .reset, esw := .reset, net := .reset, sig := .reset, key := .reset,
    upd := .reset, uds := .reset, bus := 0, free := 0, pending := [] }

end Sys2Proof.Machine
end

