-- ==== Sys2Proof/Machine/Ops.lean ====
section
/-! DEFINITION. The shared operations: time stamps (R371), the cairn log (R472 to R475), event vectors (R412),
raising an event (R74 to R77, R505), and answering a mailbox command (R62, R72, R75). -/

namespace Sys2Proof.Machine

def bit (b : Bool) : Nat := if b then 1 else 0

/-- `TB_COUNT` as a number. -/
def State.now (s : State) : Nat := s.tb.count.toNat

/-- View `v`. -/
def State.view (s : State) (v : Nat) : View := s.tb.views.getD (View.resetAt v) v

/-- A time in units of 2^−16 ns. -/
def Time.units (t : Time) : Int := ((t.sec * 1000000000 + t.ns) * 65536 + t.frac : Nat)

/-- A count of 2^−16 ns as a time, nanoseconds normalised into seconds. -/
def Time.ofUnits (u : Int) : Time :=
  let n := u.toNat
  { sec := n / 65536 / 1000000000, ns := n / 65536 % 1000000000, frac := n % 65536 }

/-- The 64 signed bits of a difference of counts (R371). -/
def signed64 (d : Int) : Int := (BitVec.ofInt 64 d).toInt

/-- View time at count `c` in 2^−16 ns: base time + (c − base count) × increment, truncated towards minus
infinity (R371). -/
def View.unitsAt (v : View) (c : Nat) : Int :=
  v.baseTime.units + (signed64 ((c : Int) - (v.baseCount : Int)) * (v.inc : Int)) / 268435456

def View.timeAt (v : View) (c : Nat) : Time := Time.ofUnits (v.unitsAt c)

/-- View time as ns modulo 2^64 (R371). -/
def View.nsAt (v : View) (c : Nat) : U64 := BitVec.ofInt 64 (v.unitsAt c / 65536)

/-- Twelve bytes of a time in a payload (R386). -/
def Time.bytes (t : Time) : List Byte := (n64 t.sec).take 6 ++ n32 t.ns ++ n16 t.frac

/-- The time stamp of a message or log entry: V0 in ns, or `TB_COUNT` while V0 is not valid (R64, Table 16.11). -/
def State.stamp (s : State) : U64 × Bool :=
  if (s.view 0).valid then ((s.view 0).nsAt s.now, false) else (s.tb.count, true)

/-- The time stamp of a mailbox message: V0 in ns, 0 while V0 is not valid (Table 3.2). -/
def State.wireStamp (s : State) : U64 := if (s.view 0).valid then (s.view 0).nsAt s.now else 0

/-! ### CRC-32C -/

/-- One bit of the CRC, reflected, polynomial 0x1EDC_6F41. -/
def crc32cBit (c : U32) : U32 := if c.getLsbD 0 then (c >>> 1) ^^^ 0x82F63B78 else c >>> 1

def crc32cByte (c : U32) (b : Byte) : U32 :=
  let c := c ^^^ b.setWidth 32
  crc32cBit (crc32cBit (crc32cBit (crc32cBit (crc32cBit (crc32cBit (crc32cBit (crc32cBit c)))))))

/-- CRC-32C, with 0xFFFF_FFFF at the start and inverted at the end. -/
def crc32c (l : List Byte) : U32 := ~~~ (l.foldl crc32cByte 0xFFFFFFFF)

/-! ### The cairn log -/

/-- The lowest empty stone. -/
def LogState.freeStone (l : LogState) : Option Nat :=
  (List.range Config.numStones).find? (fun i => (l.stones.get? i).isNone)

/-- The stone with the earliest sequence. -/
def oldestStone : List (Nat × Stone) → Option (Nat × U32)
  | [] => none
  | (i, st) :: r =>
    match oldestStone r with
    | none => some (i, st.entry.seq)
    | some (j, q) => if later st.entry.seq q then some (j, q) else some (i, st.entry.seq)

/-- Write a stone, replacing the oldest when all sixteen are occupied (R473). -/
def LogState.addStone (l : LogState) (e : LogEntry) : LogState :=
  let st : Stone := { entry := e, copied := false }
  match l.freeStone with
  | some i => { l with stones := l.stones.set i st }
  | none =>
    match oldestStone l.stones.cells with
    | some (i, _) => { l with stones := l.stones.set i st, stoneOverwrites := l.stoneOverwrites + 1 }
    | none => l

/-- Write an entry to the RAM ring; a full ring overwrites its oldest entry and counts it (Table 16.12). -/
def LogState.addRam (l : LogState) (e : LogEntry) : LogState :=
  if l.ram.length < Config.ramEntries then { l with ram := e :: l.ram }
  else { l with ram := e :: l.ram.take (Config.ramEntries - 1), overrun := satInc 0xFFFFFFFF l.overrun }

/-- Write an entry to the NAND log if it has room; else it sets `FLASH_LOG_FULL` (Table 16.12). -/
def LogState.addNand (l : LogState) (e : LogEntry) : LogState :=
  if l.nand.length < Config.nandEntries then { l with nand := e :: l.nand } else { l with flashFull := true }

/-- In state 1, whether a class 1 or 2 entry is within 100 entries a second (R475). -/
def LogState.rateOk (l : LogState) (sec : Nat) : Bool :=
  if l.rateSecond = sec then decide (l.rateCount < 100) else true

def LogState.countRate (l : LogState) (sec : Nat) : LogState :=
  if l.rateSecond = sec then { l with rateCount := l.rateCount + 1 } else { l with rateSecond := sec, rateCount := 1 }

/-- Which stores take an entry of class `cls` (Table 3.5, Table 16.12, Table 16.13): RAM ring and NAND log. -/
def LogState.takes (l : LogState) (cls sec : Nat) : Bool × Bool :=
  match l.mode with
  | .normal => (decide (1 ≤ cls) || l.debugEn, decide (3 ≤ cls) && !l.flashFail)
  | .nandOnly => (false, decide (3 ≤ cls) || (decide (1 ≤ cls) && l.rateOk sec))
  | .stonesOnly => (false, false)

/-- Log an event: it takes the next sequence number when a store takes it (R472, R473). Answers the log and the
sequence, 0xFFFF_FFFF where no store took it. -/
def LogState.record (l : LogState) (e : LogEntry) (sec : Nat) : LogState × U32 :=
  let ram := (l.takes e.cls sec).1
  let nand := (l.takes e.cls sec).2
  if ram || nand || e.stone then
    let e := { e with seq := l.nextSeq }
    let l := { l with nextSeq := l.nextSeq + 1,
                      reservedEnd := if l.nextSeq + 1 = l.reservedEnd then l.reservedEnd + 65536 else l.reservedEnd }
    let l := if l.mode = .nandOnly && decide (e.cls < 3) && nand then l.countRate sec else l
    let l := if ram then l.addRam e else l
    let l := if nand then l.addNand e else l
    let l := if e.stone then l.addStone e else l
    (l, e.seq)
  else if l.mode = .nandOnly then ({ l with dropped := l.dropped + 1 }, 0xFFFFFFFF)
  else (l, 0xFFFFFFFF)

/-! ### Event vectors -/

def EvVector.raise (v : EvVector) : EvVector :=
  if v.en then { v with pend := true, raises := satInc 0xFFFFFFFF v.raises } else v

/-- A vector that is enabled, not masked, past its hold-off and within budget is delivered (R412). A ring-attached
VZF's vector leaves in its next `VZF_DATA` frame instead (R413). -/
def Vzf.deliverVec (z : Vzf) (k : Nat) : Vzf :=
  let v := z.vectors.getD .reset k
  if v.pend && v.en && !v.mask && !v.waiting && decide (0 < z.tokens) && !z.tpl.attach then
    { z with
      tokens := z.tokens - 1
      vectors := z.vectors.set k { v with pend := false, raises := 0, delivered := v.delivered + 1,
                                          waiting := decide (v.holdoff ≠ 0) } }
  else z

/-- A raise of vector `k` (R412). -/
def Vzf.raiseVec (z : Vzf) (k : Nat) : Vzf :=
  if k < z.tpl.nVec then
    Vzf.deliverVec { z with vectors := z.vectors.modify .reset k EvVector.raise } k
  else z

/-- A raise by bind source `src`; a source bound to no vector raises nothing (R411). -/
def Vzf.raiseSrc (z : Vzf) (src : Nat) : Vzf :=
  let b := z.binds.getD .reset src
  if b.en then z.raiseVec b.vec else z

def State.vzf (s : State) (v : Nat) : Vzf := s.vz.vzfs.getD .free v

def VzfState.modify (z : VzfState) (v : Nat) (f : Vzf → Vzf) : VzfState := { z with vzfs := z.vzfs.modify .free v f }

/-- Raise bind source `src` of VZF `v`, if there is such a VZF. -/
def State.raiseSrc (s : State) (v : Option Nat) (src : Nat) : State :=
  match v with
  | some n => { s with vz := s.vz.modify n (fun z => z.raiseSrc src) }
  | none => s

/-! ### Raising an event -/

/-- Who may see an event (R77): every subscribed port, or the ports of the owner of its source and the ports with the
system privilege. -/
inductive Scope where
  | wide
  | owned (v : Option Nat)
  deriving DecidableEq, Repr

def Scope.owner : Scope → Option Nat
  | .wide => none
  | .owned v => v

/-- Whether a port receives an event of class `cls`, service `svc` and scope `sc` (R77). -/
def Port.wants (p : Port) (cls svc : Nat) (sc : Scope) : Bool :=
  decide (p.subClass ≤ cls) && p.subMask.getLsbD svc &&
    (p.sysPriv || (match sc with
                   | .wide => true
                   | .owned v => v.isSome && decide (v = p.vzf)))

/-! ### What the manager sends (R64 to R66) -/

/-- The Flags byte (Table 3.3). -/
def Sent.flags (m : Sent) (svc : Bool) : Byte := byteOf (m.kind.code * 64 + bit svc * 32 + bit m.retx * 16 + bit m.syncReq * 8)

/-- The header (Table 3.2) on port `p`, with a payload length, fragment index, tag and CRC. -/
def Sent.header (m : Sent) (p : Port) (len frag : Nat) (tag : List Byte) (crc : U32) : List Byte :=
  le16 0x4759 ++ [0x01, m.flags (decide (p.kind = .service))] ++ le32 m.seq ++ le32 m.ack ++ [byteOf (p.vzf.getD 0), 0] ++ le16 m.gen
    ++ [m.code.extractLsb' 8 8, m.code.extractLsb' 0 8] ++ le16 m.status ++ le32 m.tag ++ n16 len ++ n16 frag ++ n32 m.session ++ le64 m.stamp
    ++ tag ++ le32 m.ctlCount ++ le32 crc

/-- The IV of a message of the manager on port `n` (R66). -/
def Sent.iv (m : Sent) (n : Nat) : List Byte :=
  n16 n ++ [0x01, byteOf m.kind.code] ++ n32 m.wrap ++ le32 (if m.kind = .ctl then m.ctlCount else m.seq)

/-- The authentication tag: zero on local ports, else the GMAC over the header, with tag and CRC taken as zero, and the payload (R66,
R71). -/
def Sent.auth (m : Sent) (n : Nat) (p : Port) : List Byte :=
  if p.kind = .loc then zeros 16
  else Config.gmac p.key (m.iv n) (m.header p m.data.length 0x8000 (zeros 16) 0 ++ m.data)

/-- The CRC over the header, with this field taken as zero, and the whole payload. -/
def Sent.crc (m : Sent) (n : Nat) (p : Port) : U32 := crc32c (m.header p m.data.length 0x8000 (m.auth n p) 0 ++ m.data)

/-- Fragments of a message: each repeats the header and carries up to 416 bytes; the last carries `LAST` (R66). -/
def Sent.fragments (m : Sent) (n : Nat) (p : Port) : List (List Byte) :=
  let k := max 1 ((m.data.length + 415) / 416)
  (List.range k).map (fun i =>
    m.header p m.data.length (i + (if i + 1 = k then 0x8000 else 0)) (m.auth n p) (m.crc n p) ++ (m.data.drop (416 * i)).take 416)

/-- The manager sends a message: on a ring or service port its fragments wait for a ring frame, on a local port its ring entry is placed
by `pushRsp` or `pushEvt`. -/
def Port.note (p : Port) (x : Sent) : Port :=
  { p with sent := keepNewest 16 (x :: p.sent), outq := if p.kind = .loc then [] else p.outq ++ x.fragments p.num p }

/-- Whether a number of a space has been issued after its last pass through 0. -/
def wrapOf (wraps : Nat) (last seq : U32) : Nat := if last.toNat < seq.toNat then wraps - 1 else wraps

/-- A message that the port sends now. -/
def Port.msg (p : Port) (kind : MsgKind) (retx : Bool) (seq : U32) (code status : U16) (tag : U32) (wrap : Nat) (data : List Byte) : Sent :=
  { kind := kind, retx := retx, syncReq := p.awaits, seq := seq, ack := p.reqSeq, gen := p.gen, code := code, status := status, tag := tag,
    session := if p.kind = .loc then 0 else p.session, stamp := p.clock, ctlCount := 0, wrap := wrap, data := data }

/-- Payload of an event message (R76); a completion has the same layout (DEDUCED, log entry 126). -/
def HeldEvt.payload (h : HeldEvt) : List Byte :=
  le16 h.code ++ [byteOf h.cls, 0] ++ le16 h.inst ++ n16 h.data.length ++ le32 h.logSeq ++ zeros 4 ++ h.data

def Port.rspMsg (p : Port) (h : HeldRsp) (retx : Bool) : Sent :=
  p.msg .rsp retx h.seq h.code h.status h.tag (wrapOf p.rspWrap p.rspSeq h.seq) h.data

def Port.evtMsg (p : Port) (h : HeldEvt) (retx : Bool) : Sent :=
  p.msg .evt retx h.seq h.code h.status h.tag (wrapOf p.evtWrap p.evtSeq h.seq) h.payload

/-- The next number of a space. -/
def Port.nextRsp (p : Port) : Port :=
  { p with rspSeq := p.rspSeq + 1, rspWrap := p.rspWrap + bit (decide (p.rspSeq + 1 = 0)) }

def Port.nextEvt (p : Port) : Port :=
  { p with evtSeq := p.evtSeq + 1, evtWrap := p.evtWrap + bit (decide (p.evtSeq + 1 = 0)) }

/-- Ring depth of a local port. -/
def Port.depth (p : Port) : Nat := 2 ^ p.depthLog2

/-- Entries of a ring: producer less consumer, modulo 2^16 (R88). -/
def ringFill (prod cons : U16) : Nat := (prod - cons).toNat

/-- Move the response and event producer indices of a local port over every waiting entry that has room (R88). -/
def Port.place (p : Port) : Port :=
  if p.kind = .loc then
    { p with
      rspProd := p.rspCons + BitVec.ofNat 16 (max (ringFill p.rspProd p.rspCons) (min p.rspQ.length p.depth))
      evtProd := p.evtCons + BitVec.ofNat 16 (max (ringFill p.evtProd p.evtCons) (min p.evtQ.length p.depth)) }
  else p

/-- Queue an entry for a local port's response or event ring. -/
def Port.pushRsp (p : Port) (seq : U32) : Port := if p.kind = .loc then { p with rspQ := p.rspQ ++ [seq] }.place else p
def Port.pushEvt (p : Port) (e : EvtEntry) : Port := if p.kind = .loc then { p with evtQ := p.evtQ ++ [e] }.place else p

/-- An event that waits for room in the ring leaves with its displacement. -/
def Port.unqueue (p : Port) (seq : U32) : Port :=
  let n := ringFill p.evtProd p.evtCons
  { p with evtQ := p.evtQ.take n ++ (p.evtQ.drop n).filter (fun e => decide (e ≠ .evt seq)) }

def Port.lose (p : Port) : Port :=
  { p with evtLost := true, evtLostCount := satInc 0xFFFF p.evtLostCount, lostSinceResync := true }

/-- The oldest held event of class 0 to 2 that is no completion. -/
def minorEvt (l : List HeldEvt) : Option HeldEvt := l.find? (fun h => !h.completion && decide (h.cls ≤ 2))

/-- Offer an event to a port: it takes the next EVT_SEQ and is held, or is discarded or displaces an older one
when 64 events are held (R74). -/
def Port.offer (p : Port) (h : HeldEvt) : Port :=
  let p := p.nextEvt
  let h := { h with seq := p.evtSeq }
  if (p.evts.filter (fun e => !e.completion)).length < 64 then
    ({ p with evts := p.evts ++ [h] }.note (p.evtMsg h false)).pushEvt (.evt h.seq)
  else if h.cls ≤ 2 then p.lose
  else
    match minorEvt p.evts with
    | some m => ((({ p with evts := p.evts.filter (fun (e : HeldEvt) => e.seq != m.seq) ++ [h] }.unqueue m.seq).note (p.evtMsg h false)).pushEvt
        (.evt h.seq)).lose
    | none => p.lose

/-- The event as each subscribed port holds it. -/
def heldOf (k : EvKind) (inst : Nat) (logSeq : U32) (data : List Byte) : HeldEvt :=
  { seq := 0, completion := false, code := k.code, cls := k.cls, inst := BitVec.ofNat 16 inst, logSeq := logSeq,
    tag := 0, status := 0, data := data, retries := 0 }

def MbxState.deliver (m : MbxState) (k : EvKind) (sc : Scope) (clock : U64) (h : HeldEvt) : MbxState :=
  { m with ports := m.ports.mapAll (fun _ p =>
      if p.wants k.cls (k.code.toNat / 256) sc then { p with clock := clock }.offer h else p) }

/-- The manager has advanced a producer index of a local port. -/
def Port.advanced (p q : Port) : Bool :=
  decide (q.kind = .loc) && (decide (q.rspProd ≠ p.rspProd) || decide (q.evtProd ≠ p.evtProd))

/-- A local port whose producer index has advanced raises its event vector (R89). -/
def VzfState.notify (z : VzfState) (p q : Port) : VzfState :=
  if p.advanced q then
    match q.vzf with
    | some v => z.modify v (fun x => x.raiseSrc q.block)
    | none => z
  else z

def VzfState.notifyPorts (z : VzfState) (old new : Tbl Port) : VzfState :=
  old.cells.foldl (fun z c => z.notify c.2 (new.getD c.2 c.1)) z

/-- The log entry of an event (Table 16.11, R505). -/
def entryOf (s : State) (k : EvKind) (inst : Nat) (sc : Scope) (data : List Byte) : LogEntry :=
  { seq := 0, time := s.stamp.1, tb := s.stamp.2, code := k.code, cls := k.cls, stone := k.stone,
    trunc := decide (8 < data.length), owner := BitVec.ofNat 8 (sc.owner.getD 255), inst := BitVec.ofNat 16 inst,
    boot := s.sys.bootCount.extractLsb' 0 16, data := (data ++ zeros 8).take 8 }

/-- Log an event and offer it to every subscribed port; nothing else changes. -/
def raiseOne (k : EvKind) (inst : Nat) (sc : Scope) (data : List Byte) (s : State) : State :=
  let lg := s.log.record (entryOf s k inst sc data) (s.now / Config.ticksPerSecond)
  let mbx := s.mbx.deliver k sc s.wireStamp (heldOf k inst lg.2 data)
  { s with log := lg.1, mbx := mbx, vz := s.vz.notifyPorts s.mbx.ports mbx.ports }

/-- Raise an event (R76): an entry that finds the NAND log full raises `EVT_LOG_FLASH_FULL` as well (Table 16.12). -/
def raise (k : EvKind) (inst : Nat) (sc : Scope) (data : List Byte) (s : State) : State :=
  let t := raiseOne k inst sc data s
  if t.log.flashFull && !s.log.flashFull then raiseOne evt_logFlashFull 0xFFFF .wide [] t else t

/-- Source instance of an event that names none (R76). -/
def noInst : Nat := 0xFFFF

/-! ### Answering a mailbox command -/

def State.port? (s : State) (n : Nat) : Option Port := s.mbx.ports.get? n

def MbxState.modify (m : MbxState) (n : Nat) (f : Port → Port) : MbxState :=
  match m.ports.get? n with
  | some p => { m with ports := m.ports.set n (f p) }
  | none => m

/-- Change port `n` at the present time; an advance of its producer indices raises its vector (R89). -/
def State.modPort (s : State) (n : Nat) (f : Port → Port) : State :=
  match s.port? n with
  | none => s
  | some p =>
    let q := f { p with clock := s.wireStamp }
    { s with mbx := { s.mbx with ports := s.mbx.ports.set n q }, vz := s.vz.notify p q }

/-- Hold a response: it takes the next RSP_SEQ and stays until acknowledged (R69, R75). -/
def Port.hold (p : Port) (r : Req) (code status : U16) (data : List Byte) : Port :=
  let p := p.nextRsp
  let h : HeldRsp := { seq := p.rspSeq, reqSeq := r.seq, tag := r.tag, code := code, status := status, data := data, retries := 0 }
  ({ p with rsps := p.rsps ++ [h] }.note (p.rspMsg h false)).pushRsp h.seq

/-- The response to a request. A response `ST_PENDING` leaves the request open, owing its completion; `SYS.RESYNC`
consumes no REQ_SEQ (R78) and leaves the open requests alone. -/
def Port.answer (p : Port) (r : Req) (code status : U16) (data : List Byte) : Port :=
  if code = 0x0101 then p.hold r code status data
  else
    let rest := p.opens.filter (fun o => o.reqSeq != r.seq)
    let opens := if status = stat_pending
      then rest ++ [{ reqSeq := r.seq, tag := r.tag, code := code, pending := true, rspSeq := p.rspSeq + 1 }]
      else rest
    { p with opens := opens }.hold r code status data

/-- Queue the response on the requesting port. -/
def respond (r : Req) (code status : U16) (data : List Byte) (s : State) : State := s.modPort r.port (fun p => p.answer r code status data)

/-- The completion of a request that was answered `ST_PENDING` (R75): an event of the requesting port only, not logged,
never displaced. -/
def Port.complete (p : Port) (reqSeq tag : U32) (code status : U16) (result : List Byte) : Port :=
  let p := p.nextEvt
  let h : HeldEvt :=
    { seq := p.evtSeq, completion := true, code := evt_complete.code, cls := evt_complete.cls, inst := 0xFFFF,
      logSeq := 0xFFFFFFFF, tag := tag, status := status, data := le32 reqSeq ++ le16 code ++ [0, 0] ++ result, retries := 0 }
  ({ p with evts := p.evts ++ [h], opens := p.opens.filter (fun o => o.reqSeq != reqSeq) }.note (p.evtMsg h false)).pushEvt (.evt h.seq)

/-- A command answered `ST_PENDING`, waiting for its end: requesting port, Tag, REQ_SEQ and code. -/
def complete (port : Nat) (reqSeq tag : U32) (code status : U16) (result : List Byte) (s : State) : State :=
  match s.port? port with
  | none => s
  | some p =>
    if p.opens.any (fun o => o.reqSeq == reqSeq && o.pending) then s.modPort port (fun p => p.complete reqSeq tag code status result)
    else s

/-- The privilege a command needs (R62): any port; the owner of the resource it names; the system. -/
inductive Need where
  | any
  | owner (v : Option Nat)
  | system
  deriving DecidableEq, Repr

/-- The status of a port that lacks the privilege (R62). -/
def Need.check (n : Need) (p : Port) : Option U16 :=
  match n with
  | .any => none
  | .system => if p.sysPriv then none else some stat_denied
  | .owner v =>
    if p.sysPriv then none
    else if v.isSome && decide (v = p.vzf) then none
    else if v.isSome then some stat_notOwner
    else some stat_denied

/-- What R72 checks before a command acts: its code, whether the payload length is right, the privilege it needs, the
status of its payload content, and whether the mode allows it. -/
structure Cmd where
  code : U16
  lenOk : Bool
  need : Need
  payload : Option U16
  modeOk : Bool

/-- The first check of R72 that fails sets the status. -/
def Cmd.check (c : Cmd) (r : Req) (p : Port) : Option U16 :=
  if r.version ≠ 1 then some stat_badVersion
  else if !c.lenOk then some stat_badLength
  else match c.need.check p with
    | some st => some st
    | none =>
      if !r.resvZero then some stat_badPayload
      else match c.payload with
        | some st => some st
        | none => if c.modeOk then none else some stat_badMode

/-- What a command answers. -/
structure Reply where
  status : U16
  data : List Byte

def Reply.ok (data : List Byte) : Reply := { status := stat_ok, data := data }
def Reply.fail (st : U16) : Reply := { status := st, data := [] }

/-- Carry out an accepted request: one response, by the first failing check or by the command itself (R69, R72); a command
may answer later. A request of a port that does not exist reaches nobody. -/
def runLater (r : Req) (c : Cmd) (body : Port → State → State × Option Reply) (s : State) : State :=
  match s.port? r.port with
  | none => s
  | some p =>
    match c.check r p with
    | some st => respond r c.code st [] s
    | none =>
      let t := body p s
      match t.2 with
      | some y => respond r c.code y.status y.data t.1
      | none => t.1

/-- A command that answers at once. -/
def runCmd (r : Req) (c : Cmd) (body : Port → State → State × Reply) (s : State) : State :=
  runLater r c (fun p s => let t := body p s; (t.1, some t.2)) s

/-! ### Modes in which a command is allowed -/

def Mode.isRunLimpWork : Mode → Bool
  | .run | .limp | .workshop => true
  | _ => false

def Mode.isServing : Mode → Bool
  | .startup | .run | .limp | .workshop => true
  | _ => false

def Mode.isRunWork : Mode → Bool
  | .run | .workshop => true
  | _ => false

/-- All modes but Bivouac in which a client is served. -/
def Mode.isAwake : Mode → Bool
  | .startup | .run | .limp | .workshop | .basecamp => true
  | _ => false

/-! ### Ownership -/

/-- A VZF exists from its creation to the end of its destruction. -/
def Vzf.exists_ (z : Vzf) : Bool := decide (z.life ≠ .free)

/-- The VZF of which `f` holds, lowest number first. -/
def State.findVzf (s : State) (f : Vzf → Bool) : Option Nat :=
  (s.vz.vzfs.cells.find? (fun c => c.2.exists_ && f c.2)).map (·.1)

def State.chOwner (s : State) (ch : Nat) : Option Nat := s.findVzf (fun z => z.tpl.chMask.getLsbD ch)
def State.diOwner (s : State) (n : Nat) : Option Nat := s.findVzf (fun z => z.tpl.diMask.getLsbD n)
def State.aiOwner (s : State) (n : Nat) : Option Nat := s.findVzf (fun z => decide (n < 48) && z.tpl.aiMask.getLsbD n)
def State.supOwner (s : State) (n : Nat) : Option Nat :=
  s.findVzf (fun z => decide (n < 4) && z.tpl.aiMask.getLsbD (48 + n))
def State.xOwner (s : State) (n : Nat) : Option Nat := s.findVzf (fun z => z.tpl.xMask.getLsbD n)
def State.canOwner (s : State) (n : Nat) : Option Nat := s.findVzf (fun z => z.tpl.canMask.getLsbD n)
def State.linOwner (s : State) (n : Nat) : Option Nat := s.findVzf (fun z => z.tpl.linMask.getLsbD n)
def State.potOwner (s : State) (n : Nat) : Option Nat := s.findVzf (fun z => z.tpl.pots.contains n)
def State.sigOwner (s : State) (n : Nat) : Option Nat :=
  s.findVzf (fun z => decide (z.tpl.sigBase ≤ n) && decide (n < z.tpl.sigBase + z.tpl.sigCount))
def State.pduOwner (s : State) (n : Nat) : Option Nat :=
  s.findVzf (fun z => decide (z.tpl.pduBase ≤ n) && decide (n < z.tpl.pduBase + z.tpl.pduCount))

/-- The VZF is active: it exists and is not quiescing, resetting or being destroyed. -/
def State.vzfActive (s : State) (v : Nat) : Bool := decide ((s.vzf v).life = .active)

/-! ### Power domains -/

/-- Numbers of power domains in the order of Table 0.6, down its left column and then its right. -/
def pdAon : Nat := 0
def pdMgr : Nat := 1
def pdFab1 : Nat := 17
def pdRfx : Nat := 82
def pdKey : Nat := 87
def pdNvm : Nat := 90
def pdXio : Nat := 91
def pdAfe (h : Nat) : Nat := 92 + h
def pdBrg : Nat := 94
def pdTb : Nat := 95
def pdApp (i : Nat) : Nat := 2 + i
def pdSaf (i : Nat) : Nat := 12 + i
def pdFab0 : Nat := 16
def pdRing (i : Nat) : Nat := 36 + i
def pdPort (i : Nat) : Nat := 38 + i
def pdCan (i : Nat) : Nat := 54 + i
def pdLin (i : Nat) : Nat := 70 + i
def pdDdr (i : Nat) : Nat := 88 + i

def State.powered (s : State) (d : Nat) : Bool := s.sys.domains.contains d

/-- The next free value's number; each draw takes one. -/
def State.draw (s : State) : State := { s with free := s.free + 1 }

end Sys2Proof.Machine
end

