-- ==== Sys2Proof/Machine/Operands.lean ====
section
/-! DEFINITION. The operand forms: the fields of command registers and payloads, and the checks a channel setting must
pass (R96, R106, R134, R144). -/

namespace Sys2Proof.Machine

/-! ### Fields of a register -/

/-- Bits `lo + len − 1 : lo` of a 32-bit register. -/
def bits (w : U32) (lo len : Nat) : Nat := (w.extractLsb' lo len).toNat

def flagOf (w : Byte) (i : Nat) : Bool := w.getLsbD i

/-- Index of HBgA for either index of a pair; any other index is itself (R127). -/
def bridgeIdx (i : Nat) : Nat := if i % 14 = 11 then i - 1 else i

/-- Channel index of bridge `b`'s A half and of valve `k` (Table 0.4). -/
def brChan (b : Nat) : Nat := 14 * b + 10
def vlvChan (k : Nat) : Nat := 14 * (k / 2) + 12 + k % 2
def chanVlv (i : Nat) : Nat := 2 * (i / 14) + (i % 14 - 12)

/-! ### Command images (Tables 4.12, 5.9, 5.10) -/

/-- What a command register asks for: nothing (`BAD_CMD`), or an output, a priority and a target. -/
structure Image where
  out : OutCmd
  prio : Nat
  target : Bool
  deriving DecidableEq, Repr

/-- `MODE` with duty and phase (Table 4.12). -/
def switchOut (mode duty phase : Nat) : Option OutCmd :=
  if 10000 < duty then none
  else match mode with
    | 0 => some .off
    | 1 => some .on
    | 2 => some (.pwm duty phase)
    | _ => none

/-- `DRIVE` with duty and phase (Tables 5.3, 5.9): duty counts for forward and reverse alone. -/
def driveOut (drive duty phase : Nat) : Option OutCmd :=
  if drive = 0 then some .off
  else if drive = 1 ∨ drive = 2 then (if 10000 < duty then none else some (.drive drive duty phase))
  else if drive = 3 ∨ drive = 4 then some (.drive drive 0 0)
  else none

/-- `EN` and `I_SET` (Table 5.10). -/
def valveOut (en : Bool) (ma : Nat) : Option OutCmd :=
  if 3000 < ma then none else if en then some (.regulate ma) else some .off

def lswImage (w : U32) : Option Image :=
  (switchOut (bits w 30 2) (bits w 0 14) (bits w 16 8)).map (fun o => { out := o, prio := bits w 26 4, target := false })

def hbrImage (w : U32) : Option Image :=
  (driveOut (bits w 29 3) (bits w 0 14) (bits w 16 8)).map
    (fun o => { out := o, prio := bits w 24 4, target := w.getLsbD 28 })

def vlvImage (w : U32) : Option Image :=
  (valveOut (w.getLsbD 31) (bits w 0 12)).map (fun o => { out := o, prio := bits w 24 4, target := false })

/-- The command register as a mailbox command writes it (Tables 4.12, 5.9, 5.10). -/
def lswWord (mode prio phase duty : Nat) : U32 := BitVec.ofNat 32 (mode % 4 * 2 ^ 30 + prio % 16 * 2 ^ 26 + phase % 256 * 2 ^ 16 + duty % 2 ^ 14)
def hbrWord (drive : Nat) (tgt : Bool) (prio phase duty : Nat) : U32 :=
  BitVec.ofNat 32 (drive % 8 * 2 ^ 29 + (if tgt then 2 ^ 28 else 0) + prio % 16 * 2 ^ 24 + phase % 256 * 2 ^ 16 + duty % 2 ^ 14)
def vlvWord (en : Bool) (prio ma : Nat) : U32 := BitVec.ofNat 32 ((if en then 2 ^ 31 else 0) + prio % 16 * 2 ^ 24 + ma % 2 ^ 12)

/-- The image of the command register of channel `i`, by its class. -/
def cmdImage (i : Nat) (w : U32) : Option Image :=
  match chClass i with
  | .half => hbrImage w
  | .valve => vlvImage w
  | _ => lswImage w

/-! ### Class constants (Tables 4.1, 4.2, 4.6, 5.1) -/

/-- I_LIM range and class default in 10 mA. -/
def ChClass.limRange : ChClass → Nat × Nat × Nat
  | .heavy => (200, 5000, 3000)
  | .medium => (50, 2000, 1200)
  | .light => (10, 600, 360)
  | .half => (50, 1600, 1200)
  | .valve => (0, 65535, 0)

/-- PWM frequency range in Hz. -/
def ChClass.pwmRange : ChClass → Nat × Nat
  | .heavy => (100, 2000)
  | .medium => (100, 25000)
  | .light => (100, 25000)
  | .half => (100, 25000)
  | .valve => (1000, 20000)

/-- Sense full scale in mA. -/
def ChClass.fullScale : ChClass → Nat
  | .heavy => 64000
  | .medium => 24000
  | .light => 8000
  | .half => 32000
  | .valve => 4000

/-- Fixed level of the short-circuit latch in mA; a valve has none (Tables 4.1, 5.1). -/
def ChClass.latchLevel : ChClass → Nat
  | .heavy => 200000
  | .medium => 80000
  | .light => 25000
  | .half => 60000
  | .valve => 0

/-- Gate turn-off time in ns, the slowest edge that passes test 2 of `CH.TEST` (Tables 4.2, 5.1, R125). -/
def ChClass.gateOff : ChClass → Nat
  | .heavy => 400
  | .medium => 250
  | .light => 150
  | .half => 200
  | .valve => 150

/-- The most that the on-resistance is up to 150 °C, in µΩ (Tables 4.1, 5.1). -/
def ChClass.onResMax : ChClass → Nat
  | .heavy => 3400
  | .medium => 10000
  | .light => 42000
  | .half => 13000
  | .valve => 100000

/-- The class as a number. -/
def ChClass.num : ChClass → Nat
  | .heavy => 0
  | .medium => 1
  | .light => 2
  | .half => 3
  | .valve => 4

/-- On-resistance in µΩ at a junction temperature in 0.1 °C: a FREE value, within the class maximum up to 150 °C. -/
def ChClass.onRes (c : ChClass) (tj : Int) : Nat :=
  let r := Config.onResistance c.num tj
  if tj ≤ 1500 then min c.onResMax r else r

/-- Lowest junction trip level and the re-arm level, in 0.1 °C (Table 4.2). -/
def tjTrip : Int := 1650
def tjRearm : Int := 1450

/-- Ledger budget and single-event clamp energy in µJ; none for bridges and valves (R127). -/
def ChClass.budget : ChClass → Nat
  | .heavy => 2000000
  | .medium => 800000
  | .light => 250000
  | _ => 0

def ChClass.singleEvent : ChClass → Nat
  | .heavy => 600000
  | .medium => 200000
  | .light => 60000
  | _ => 0

/-- Profile types a class allows (Table 4.8). -/
def ChClass.allows (c : ChClass) (typ : Nat) : Bool :=
  match c with
  | .heavy | .medium => decide (typ ≤ 5)
  | .light => decide (typ ≤ 5) && decide (typ ≠ 2)
  | .half => decide (typ = 2)
  | .valve => decide (typ = 6)

/-- Default wire class (Table 4.7, R144). -/
def ChClass.wireDefault : ChClass → Nat
  | .heavy => 7
  | .medium => 4
  | .half => 3
  | _ => 0

/-- I_REF in mA and time constant in s of a wire class (Table 4.6). -/
def wireClass : Nat → Nat × Nat
  | 0 => (7000, 10)
  | 1 => (9000, 13)
  | 2 => (12000, 17)
  | 3 => (14000, 20)
  | 4 => (18000, 27)
  | 5 => (25000, 38)
  | 6 => (33000, 55)
  | _ => (42000, 75)

/-- Insulation rating in °C. -/
def insulRating : Nat → Int
  | 0 => 105
  | 1 => 125
  | _ => 150

/-- I_LIM in force: 0 is the class default. -/
def Profile.limit (p : Profile) (c : ChClass) : Nat := if p.iLim = 0 then c.limRange.2.2 else p.iLim

/-- I_INR in force: 0 is I_LIM. -/
def Profile.inrush (p : Profile) (c : ChClass) : Nat := if p.iInr = 0 then p.limit c else p.iInr

/-- I_OL in 10 mA: 0xFFFF is 1 % of full scale. -/
def Profile.openLoad (p : Profile) (c : ChClass) : Nat := if p.iOl = 0xFFFF then c.fullScale / 1000 else p.iOl

def Profile.wireOf (p : Profile) (c : ChClass) : Nat × Nat := wireClass (if p.wire = 0xFF then c.wireDefault else p.wire)

/-- I_STALL in 10 mA: 0xFFFF is 80 % of I_LIM. -/
def Profile.stallCurrent (p : Profile) : Nat := if p.hb.iStall = 0xFFFF then p.limit .half * 8 / 10 else p.hb.iStall

/-- Nominal voltage of a group's source (R96): the class voltage for `VZ48` or unused. -/
def nominalVolt (b : Boardnet) : GroupSource → Nat
  | .vz12 => 12
  | .net24 => 24
  | _ => match b with
    | .v48 => 48
    | .v24 => 24
    | .v12 => 12

/-- R96: two transitions within 20 % of the PWM period, each `VGg` ÷ slew. -/
def slewOk (volt : Nat) (p : Profile) : Bool := decide (volt * p.fPwm ≤ 10000 * 2 ^ p.slew)

/-- R134 for a half-bridge block: t_LIM is in 0.1 ms. -/
def hbConflict (p : Profile) (h : HbBlock) : Bool :=
  (h.stallEn && !h.stallReport && decide (p.tLim ≤ h.tStall * 10))
    || (h.rippleEn && decide (p.fPwm < 4 * h.fRipMax))
    || decide (h.fRipMax < 2 * h.fRipMin)

/-- R134 for a valve block. -/
def vlvConflict (p : Profile) (v : VlvBlock) : Bool := decide (0 < v.dithAmp) && decide (p.fPwm < 10 * v.dithF)

/-- Ranges of Tables 5.7 and 5.8. -/
def hbRange (h : HbBlock) : Bool :=
  decide (2 ≤ h.dead) && decide (h.dead ≤ 20)
    && ((decide (50 ≤ h.iStall) && decide (h.iStall ≤ 4800)) || decide (h.iStall = 0xFFFF))
    && decide (10 ≤ h.tStall) && decide (h.tStall ≤ 2000) && decide (2 ≤ h.rippleRev) && decide (h.rippleRev ≤ 64)
    && decide (20 ≤ h.fRipMin) && decide (h.fRipMin ≤ 2000) && decide (200 ≤ h.fRipMax) && decide (h.fRipMax ≤ 6000)
    && decide (10 ≤ h.tRunon) && decide (h.tRunon ≤ 1000) && decide (1 ≤ h.minRipAmp) && decide (h.minRipAmp ≤ 1000)

def dithRange (v : VlvBlock) : Bool :=
  decide (v.dithAmp ≤ 500) && decide (25 ≤ v.dithF) && decide (v.dithF ≤ 500) && decide (50 ≤ v.bw) && decide (v.bw ≤ 1000)

def vlvRange (v : VlvBlock) : Bool :=
  decide (v.iSafe ≤ 3000) && decide (v.iOrph ≤ 3000) && dithRange v
    && (decide (v.rNom = 0) || (decide (10 ≤ v.rNom) && decide (v.rNom ≤ 10000)))
    && decide (10 ≤ v.lNom) && decide (v.lNom ≤ 5000)

/-- A profile's values against Table 4.7 and the class (R106, R144). -/
def Profile.rangeOk (p : Profile) (c : ChClass) : Bool :=
  let lim := p.limit c
  (c = .valve || (decide (c.limRange.1 ≤ lim) && decide (lim ≤ c.limRange.2.1) && decide (lim ≤ p.inrush c)
      && decide (p.inrush c ≤ 3 * lim) && decide (1 ≤ p.tInr) && decide (p.tInr ≤ 2000) && decide (p.slew ≤ 7)))
    && decide (1 ≤ p.tLim) && decide (p.tLim ≤ 1000)
    && decide (c.pwmRange.1 ≤ p.fPwm) && decide (p.fPwm ≤ c.pwmRange.2)
    && decide (p.retryN ≤ 15) && decide (1 ≤ p.retryDly) && decide (p.retryDly ≤ 10000)
    && (decide (p.wire ≤ 7) || decide (p.wire = 0xFF)) && decide (p.insul ≤ 2) && decide (-40 ≤ p.amb)
    && decide (p.amb ≤ 125) && decide (p.ambOfs ≤ 40)
    && (decide (p.iOl = 0xFFFF) || decide (p.iOl ≤ c.fullScale / 100))
    && decide (1 ≤ p.tOl) && decide (p.tOl ≤ 1000) && decide (10 ≤ p.tOlOff) && decide (p.tOlOff ≤ 1000)
    && decide (p.shed ≤ 7) && decide (p.orphPrio ≤ 15) && decide (p.orphDuty ≤ 10000) && decide (p.tOrph ≤ 6000)
    && decide (10 ≤ p.tHold) && decide (p.tHold ≤ 2000)
    && (if c.isSwitch then decide (1 ≤ p.arcRms) && decide (p.arcRms ≤ 1000) && decide (10 ≤ p.arcDv)
          && decide (p.arcDv ≤ 1000) && decide (1 ≤ p.arcN) && decide (p.arcN ≤ 16)
        else !p.arcEn && decide (p.arcRms = 0) && decide (p.arcDv = 0) && decide (p.arcN = 0))

/-- Why a profile cannot be assigned to channel `i` of a group of nominal voltage `volt` (R106, R131, R134, R144). -/
def profileStatus (i volt : Nat) (p : Profile) : Option U16 :=
  let c := chClass i
  if !c.allows p.typ then some stat_chClass
  else if !p.rangeOk c || (c ≠ .valve && !slewOk volt p) then some stat_chProfileConflict
  else match c with
    | .half =>
      if !hbRange p.hb || hbConflict p p.hb || decide (p.orphan = .value) then some stat_chProfileConflict else none
    | .valve => if !vlvRange p.vlv || vlvConflict p p.vlv then some stat_chProfileConflict else none
    | _ => none

/-- The built-in record of a class (R106); a motor's slew follows the nominal voltage of the source (Table 4.8). -/
def builtinProfile (volt : Nat) : ChClass → Profile
  | .half => { Profile.generic with typ := 2, arcEn := false, arcRms := 0, arcDv := 0, arcN := 0, iInr := 3000, tInr := 1500,
                                    tLim := 500, fPwm := 20000,
                                    slew := if volt ≤ 12 then 5 else if volt ≤ 24 then 6 else 7 }
  | .valve => { Profile.generic with typ := 6, arcEn := false, arcRms := 0, arcDv := 0, arcN := 0, fPwm := 2000 }
  | _ => .generic

/-- The 64 bytes of a profile record (Tables 4.7, 5.7, 5.8). -/
def Profile.bytes (p : Profile) (c : ChClass) : List Byte :=
  let b (x : Bool) (n : Nat) : Nat := if x then n else 0
  [byteOf p.typ, byteOf (b p.arcEn 1 + b p.olOffEn 2 + b p.ambBase 4 + b p.safeOn 8 + b p.fwFallback 16 + b p.hold 32)]
    ++ n16 p.iLim ++ n16 p.iInr ++ n16 p.tInr ++ n16 p.tLim ++ n16 p.fPwm ++ [byteOf p.slew, byteOf p.retryN]
    ++ n16 p.retryDly ++ [byteOf p.wire, byteOf p.insul, BitVec.ofInt 8 p.amb, byteOf p.ambOfs] ++ n16 p.iOl ++ n16 p.tOl
    ++ n16 p.tOlOff
    ++ [byteOf p.shed, byteOf (p.orphPrio * 16 + (match p.orphan with | .off => 0 | .hold => 1 | .value => 2))]
    ++ n16 p.orphDuty ++ n16 p.tOrph ++ n16 p.tHold ++ n16 p.arcRms ++ n16 p.arcDv ++ [byteOf p.arcN, 0]
    ++ (match c with
        | .half =>
          [byteOf (b p.hb.rippleEn 1 + b p.hb.decayFast 2 + b p.hb.stopBrake 4 + b p.hb.stallEn 8 + b p.hb.stallReport 16),
            byteOf p.hb.dead] ++ n16 p.hb.iStall ++ n16 p.hb.tStall ++ [byteOf p.hb.rippleRev, 0] ++ n16 p.hb.fRipMin
            ++ n16 p.hb.fRipMax ++ n16 p.hb.tRunon ++ n16 p.hb.minRipAmp ++ zeros 8
        | .valve =>
          n16 p.vlv.iSafe ++ n16 p.vlv.iOrph ++ n16 p.vlv.dithAmp ++ n16 p.vlv.dithF ++ n16 p.vlv.rNom ++ n16 p.vlv.lNom
            ++ n16 p.vlv.bw ++ [byteOf (b p.vlv.square 1 + b p.vlv.compOff 2)] ++ zeros 9
        | _ => zeros 24)

end Sys2Proof.Machine
end

