-- ==== Sys2Proof/Machine/Chan.lean ====
section
/-! DEFINITION. Shared operations of the load channels: the merge of Table 1.4 (R23), how a power die applies it (R98,
R99, R118, R130), trips and latches (R99, R103), the ledger (R110), shedding (R93) and software commands (R97, R121). -/

namespace Sys2Proof.Machine

def State.chan (s : State) (i : Nat) : Chan := s.ch.chans.getD .reset i
def State.die (s : State) (g : Nat) : Die := s.ch.dies.getD .reset g
def State.bridge (s : State) (b : Nat) : Bridge := s.ch.bridges.getD .reset b
def State.valve (s : State) (k : Nat) : Valve := s.ch.valves.getD .reset k

def ChanState.modChan (c : ChanState) (i : Nat) (f : Chan → Chan) : ChanState := { c with chans := c.chans.modify .reset i f }
def ChanState.modBridge (c : ChanState) (b : Nat) (f : Bridge → Bridge) : ChanState :=
  { c with bridges := c.bridges.modify .reset b f }
def ChanState.modValve (c : ChanState) (k : Nat) (f : Valve → Valve) : ChanState :=
  { c with valves := c.valves.modify .reset k f }
def ChanState.modDie (c : ChanState) (g : Nat) (f : Die → Die) : ChanState := { c with dies := c.dies.modify .reset g f }

def State.modChan (s : State) (i : Nat) (f : Chan → Chan) : State := { s with ch := s.ch.modChan i f }
def State.modBridge (s : State) (b : Nat) (f : Bridge → Bridge) : State := { s with ch := s.ch.modBridge b f }
def State.modValve (s : State) (k : Nat) (f : Valve → Valve) : State := { s with ch := s.ch.modValve k f }
def State.modDie (s : State) (g : Nat) (f : Die → Die) : State := { s with ch := s.ch.modDie g f }

/-- The manager runs and can raise events: the logic die is released and no Bivouac. -/
def State.mgrUp (s : State) : Bool :=
  decide (s.sys.phase = .running) && decide (s.sys.mode ≠ .bivouac) && decide (s.sys.mode ≠ .off)

/-- Raise an event whose source is channel `i` while the manager runs (R123, R147). -/
def raiseCh (k : EvKind) (i : Nat) (data : List Byte) (s : State) : State :=
  if s.mgrUp then raise k i (.owned (s.chOwner i)) data s else s

/-- Declared source of group `g` in the limits record in force (Table 6.8). -/
def State.groupSrc (s : State) (g : Nat) : GroupSource :=
  match (s.brg.limits.grpSrc.extractLsb' (2 * g) 2).toNat with
  | 0 => .vz48
  | 1 => .vz12
  | 2 => .net24
  | _ => .unused

/-- Nominal voltage of a group's source (R96). -/
def State.groupVolt (s : State) (g : Nat) : Nat := nominalVolt s.cfg.image.boardnet (s.groupSrc g)

/-! ### The clamp-energy ledger -/

/-- e^(−ms ÷ 2,000) in units of 2^−32, by squaring (R110). -/
def decayFactor : Nat → Nat → Nat → Nat → Nat
  | 0, _, _, acc => acc
  | fuel + 1, ms, base, acc =>
    decayFactor fuel (ms / 2) (base * base / 4294967296) (if ms % 2 = 1 then acc * base / 4294967296 else acc)

/-- A ledger of `uj` after `ticks` of `TB_COUNT`. -/
def decayed (uj ticks : Nat) : Nat :=
  uj * decayFactor 40 (ticks / Config.ticksPerMs) 4292820349 4294967296 / 4294967296

/-- Ledger of a channel now. -/
def Guard.ledgerNow (g : Guard) (now : Nat) : Nat := decayed g.ledgerUj (now - g.ledgerAt)

/-- Milliseconds until the ledger is at half budget, 0 if it is (2 s × ln 2 at most per halving; found by search). -/
def msToHalf : Nat → Nat → Nat → Nat → Nat
  | 0, _, _, ms => ms
  | fuel + 1, uj, half, ms =>
    if decayed uj (ms * Config.ticksPerMs) ≤ half then ms else msToHalf fuel uj half (ms + 1)

/-- The ledger lock is active: every mode but Run, in Limp for unverified channels, in hold, and for a channel released by
the clamp fallback in every mode (Table 2.6, R110, R112). -/
def State.ledgerLockActive (s : State) (i : Nat) : Bool :=
  let c := s.chan i
  c.grd.fallback || (s.die (i / 14)).inHold ||
    (match s.sys.mode with
     | .run => false
     | .limp => !c.grd.fwOk
     | _ => true)

/-! ### What each source of Table 1.4 asks for -/

/-- The safe value of a channel (R213, R131). -/
def safeOut (i : Nat) (p : Profile) : OutCmd :=
  match chClass i with
  | .half => .off
  | .valve => if p.vlv.iSafe = 0 then .off else .regulate p.vlv.iSafe
  | _ => if p.safeOn then .on else .off

/-- The limp-table value of a channel; none where the table has no entry or one that Table 8.9 refuses (R214). A valve takes the
PWM entry as regulation at its `LVAL`, which is a current there (DEDUCED, log entry 121). -/
def limpOut (i : Nat) (e : LimpEntry) : Option OutCmd :=
  match chClass i with
  | .half =>
    if 10000 < e.lval then none
    else match e.lmode with
      | 1 => some .off
      | 2 => some (.drive 1 10000 0)
      | 3 => some (.drive 1 e.lval 0)
      | 4 => some (.drive 2 e.lval 0)
      | _ => none
  | .valve =>
    if 3000 < e.lval then none
    else match e.lmode with
      | 1 => some .off
      | 2 | 3 => some (if e.lval = 0 then .off else .regulate e.lval)
      | _ => none
  | _ =>
    if 10000 < e.lval then none
    else match e.lmode with
      | 1 => some .off
      | 2 => some .on
      | 3 => some (.pwm e.lval 0)
      | _ => none

/-- The value a channel takes at rank 3 under self-arrest or in Limp: its limp value once the limp table is applied, else
its safe value (R30, R213). -/
def State.arrestOut (s : State) (i : Nat) : OutCmd :=
  let c := s.chan i
  let safe := safeOut i c.prof
  if s.rfx.limpApplied then
    match s.cfg.image.limp.get? i with
    | some e => (limpOut i e).getD safe
    | none => safe
  else safe

/-- A channel driven to its safe or limp value: self-arrest in force, Limp, or a scoped arrest of its owner (R213, R397). -/
def State.arrestedCh (s : State) (i : Nat) : Bool :=
  s.rfx.arrested || decide (s.sys.mode = .limp) ||
    (match s.chOwner i with
     | some v => (s.vzf v).scopedArrest
     | none => false)

/-- The twin list entry that names own channel `i`. -/
def State.twinFed (s : State) (i : Nat) : Bool :=
  s.cfg.image.twin.en && s.cfg.image.twin.list.any (fun e => e.1 == i)

/-- The rope-team gate of a die is open (R459). -/
def State.gateOpen (s : State) (g : Nat) : Bool :=
  (s.die g).ownHolder && decide (s.twin.partner ≠ some .holder) && !(s.die g).gateDelay

/-- What "on" means for a class where Table 4.24 gives a bridge or a valve an on-pulse: as for a reflex action (R131). -/
def onPulse (cls : ChClass) (reverse : Bool) : OutCmd :=
  match cls with
  | .half => .drive (if reverse then 2 else 1) 10000 0
  | .valve => .regulate 3000
  | _ => .on

/-- What a running test of channel `i` asks for (R125): an on-pulse, or nothing. -/
def ChTestRun.out (t : ChTestRun) (i : Nat) : OutCmd := if t.test = 0 ∨ t.test = 3 then onPulse (chClass i) t.reverse else .off

/-- The source of ranks 6 and 7: orphan state, channel test, or software command; with its priority and code. -/
def Chan.low (c : Chan) (i : Nat) : OutCmd × Nat × Nat :=
  match c.orphan with
  | some (o, p) => (o, p, 1)
  | none =>
    match c.test with
    | some t => (t.out i, 15, 7)
    | none => (c.sw.out, c.sw.prio, 0)

/-- The intent: the highest of ranks 5 to 7 (R466). -/
def Chan.intent (c : Chan) (i : Nat) : OutCmd × Nat :=
  if c.shed.isSome || c.hoShed then (.off, 2)
  else match c.rfx with
    | some w => if (c.low i).2.1 ≤ w.prio then (w.out, 2) else ((c.low i).1, (c.low i).2.2)
    | none => ((c.low i).1, (c.low i).2.2)

/-- The merged command of channel `i` and its source code (R23, Table 4.14); a channel owned by no VZF is off (R98). -/
def State.merged (s : State) (i : Nat) (c : Chan) : OutCmd × Nat :=
  if s.twinFed i && !s.gateOpen (i / 14) then (.off, 5)
  else if s.sys.holdOff then (.off, 4)
  else if s.sys.mode = .basecamp then (.off, 3)
  else if s.arrestedCh i then (s.arrestOut i, 4)
  else if (s.chOwner i).isNone then (.off, 0)
  else c.intent i

/-- Rank 3 of Table 1.4 acts on channel `i`: it wins over a hold of rank 4 on a live link. -/
def State.rankThree (s : State) (i : Nat) : Bool := s.sys.holdOff || decide (s.sys.mode = .basecamp) || s.arrestedCh i

/-- Protection holds the channel off (R113). R109 names Run and Limp for `LOCK_FW`; the model holds the channel off in every mode until the
lock ends, since Table 2.6 gives Workshop no other effect (DEDUCED, log entry 116). -/
def Guard.blocks (g : Guard) : Bool := g.waiting || g.latched || g.lockLedger || g.lockFw || g.clampOver

def Guard.locked (g : Guard) : Bool := g.lockLedger || g.lockFw || g.clampOver

/-- `FAULTED` (R113). -/
def Chan.faulted (c : Chan) : Bool := c.grd.blocks

/-- The first turn-off of an inductive channel in Run or Limp, after the start or after an assignment, starts the free-wheel check
(R106, R109). -/
def State.watches (s : State) (i : Nat) (c : Chan) : Bool :=
  (chClass i).isSwitch && decide (c.prof.typ = 5) && !c.grd.fwDone && (decide (s.sys.mode = .run) || decide (s.sys.mode = .limp))

/-! ### Applying an output in the die -/

/-- Limiting time at `now` in ticks: it returns to 0 after 1 ms without limiting (R100). -/
def Guard.limTime (g : Guard) (now : Nat) : Nat :=
  if g.limiting then g.limTicks + (now - g.limAt)
  else if now - g.limAt < Config.ticksPerMs then g.limTicks else 0

/-- Limiting begins or ends (R100). -/
def Guard.limit (g : Guard) (now : Nat) (b : Bool) : Guard :=
  if b = g.limiting then g else { g with limiting := b, limTicks := g.limTime now, limAt := now }

/-- The cooling conditions of Table 4.5. -/
def Guard.cooled (g : Guard) : Bool := g.junctionOk && (!g.wireTrip || g.wireOk)

/-- The output of channel `i` becomes `w` from source `src`: a turn-on opens the inrush window, which a valve has not (R101, Table 5.4);
a turn-off ends limiting (R100) and may start the free-wheel check (R109). -/
def Chan.switch (c : Chan) (i : Nat) (w : OutCmd) (src now : Nat) (watch : Bool) : Chan :=
  let turnOn := !c.out.runs && w.runs
  let g := if w.runs then c.grd else c.grd.limit now false
  { c with out := w, src := src,
           grd := { g with inrush := decide (chClass i ≠ .valve) && (turnOn || (g.inrush && w.runs)), wireTrip := g.wireTrip && !turnOn,
                           arcWins := if w.isOff then [] else g.arcWins, fwWatch := g.fwWatch || (!c.out.isOff && w.isOff && watch) } }

/-- A bridge's drive changes at `now`. -/
def Bridge.goes (b : Bridge) (code now : Nat) : Bridge :=
  if b.drive = code then b else { b with drive := code, prevDrive := b.drive, changedAt := now }

def Bridge.driving (b : Bridge) : Bool := decide (b.drive = 1) || decide (b.drive = 2)

/-- The end of a drive or of its reversal brake begins run-on where ripples are counted (R139). -/
def Bridge.ends (b : Bridge) (code now : Nat) (rippleEn : Bool) : Bridge :=
  { b.goes code now with reversing := false, nextDrive := none, runon := b.runon || ((b.driving || b.reversing) && rippleEn) }

/-- A bridge takes a drive (R129, R130, R139): a reversal brakes first; a turn-on begins a movement; the end of a drive
begins run-on where ripples are counted. The stop state is coast after a trip that forced it (R132). -/
def Bridge.take (b : Bridge) (o : OutCmd) (rippleEn : Bool) (now : Nat) : Bridge :=
  match o with
  | .drive code _ _ =>
    if code = 1 ∨ code = 2 then
      let b := { b with forcedCoast := false }
      if b.driving && decide (b.drive ≠ code) then { b.goes 3 now with reversing := true, nextDrive := some o }
      else if b.reversing then { b with nextDrive := some o }
      else if b.driving then b
      else { b.goes code now with forward := decide (code = 1), inserted := 0, rejected := 0, runon := false, stopped := false }
    else { b.ends code now rippleEn with forcedCoast := false }
  | _ => b.ends (if b.forcedCoast then 4 else 0) now rippleEn

/-- The bridge coasts: commanded or forced, or in a stop state of coast (Table 5.3). -/
def Bridge.coasts (b : Bridge) (stopBrake : Bool) : Bool := decide (b.drive = 4) || (decide (b.drive = 0) && !stopBrake)

/-- The target condition of R141 for a drive that has a target. -/
def targetMet (b : Bridge) (code : Nat) (target : U32) : Bool :=
  let d := (target - b.pos).toInt
  if code = 1 then decide (d ≤ 0) else decide (0 ≤ d)

/-- The target of a software drive in force, if the merge follows software. -/
def Chan.targetOf (c : Chan) (src : Nat) : Option (Nat × U32) :=
  match c.sw.target, c.sw.out with
  | some t, .drive code _ _ => if src = 0 then some (code, t) else none
  | _, _ => none

/-- A valve's output ends: nothing regulates, a new dither setting no longer waits, and compliance clears but for one that turned the
valve off itself (R135, R143). -/
def Valve.off (v : Valve) : Valve :=
  { v with duty := 0, target := 0, sat := false, dithAct := false, ceil := false, wave := 0, newDither := none
           compliance := v.compliance && v.compOff, compEnd := v.compEnd || (v.compliance && !v.compOff) }

/-- A valve regulates: its dither starts at phase 0 at a turn-on (R143), and a set point of 0 clears compliance (R135). -/
def Valve.on (v : Valve) (blk : VlvBlock) (turnOn zero : Bool) (now : Nat) : Valve :=
  { v with dithAct := decide (0 < blk.dithAmp), dithFrom := if turnOn then now else v.dithFrom, regAt := if turnOn then now else v.regAt
           compliance := v.compliance && !zero, compEnd := v.compEnd || (v.compliance && zero) }

/-- A valve takes output `w` (R131, R142). -/
def putValve (i : Nat) (w : OutCmd) (src now : Nat) (cs : ChanState) : ChanState :=
  let v := cs.valves.getD .reset (chanVlv i)
  let c := cs.chans.getD .reset i
  let blk := if w.isOff then v.newDither.getD c.prof.vlv else c.prof.vlv
  let cs := cs.modChan i (fun c => { c.switch i w src now false with prof := { c.prof with vlv := blk } })
  cs.modValve (chanVlv i) (fun v => if w.isOff then v.off else v.on blk c.out.isOff (decide (w = .regulate 0)) now)

/-- What the die makes of a merged command: supply, ground and table first, then protection and cooling (R94, R98, R102 to R104). -/
def Chan.allowed (c : Chan) (d : Die) (m : OutCmd × Nat) : OutCmd × Nat :=
  if d.supply ≠ .present || d.groundLost || !d.acked then (.off, m.2)
  else if c.grd.blocks then (.off, 6)
  else if c.grd.needsCmd || !c.grd.cooled then (.off, m.2)
  else m

/-- A bridge takes what its die allows: in its stop state after a stall or at its target, and coasting without module ground (R128, R133,
R141). A command of any source that differs from the last ends a stall and a stop. -/
def putBridge (i : Nat) (m want : OutCmd × Nat) (ground : Bool) (now : Nat) (cs : ChanState) : ChanState :=
  let c := cs.chans.getD .reset i
  let b := cs.bridges.getD .reset (i / 14)
  let b := if b.cmd = m then b else { b with cmd := m, stopped := false, stall := false }
  let atTarget := match c.targetOf want.2 with
    | some (code, t) => b.posValid && targetMet b code t
    | none => false
  let w := if b.stopped || atTarget then OutCmd.off else want.1
  let cs := cs.modChan i (fun c => c.switch i w want.2 now false)
  cs.modBridge (i / 14) (fun _ =>
    { b.take (if ground then w else .drive 4 0 0) c.prof.hb.rippleEn now with atTarget := b.atTarget || atTarget })

/-- Apply a merged command at the die: protection first, then the output with its turn-on or turn-off (R98 to R101). An off
command ends a retry wait (R103). -/
def applyOut (s : State) (cs : ChanState) (i : Nat) : ChanState :=
  let c := cs.chans.getD .reset i
  let d := cs.dies.getD .reset (i / 14)
  let m := s.merged i c
  let want := { c with grd := { c.grd with waiting := c.grd.waiting && !m.1.isOff } }.allowed d m
  let gated := s.twinFed i && !s.gateOpen (i / 14)
  let excess := (decide (want.2 ≠ 0) && !c.sw.out.isOff) || c.shed.isSome || c.hoShed
  let cs := cs.modChan i (fun c => { c with
    grd := { c.grd with waiting := c.grd.waiting && !m.1.isOff }
    flags := { c.flags with twinGated := c.flags.twinGated || gated, overridden := c.flags.overridden || excess } })
  match chClass i with
  | .half => putBridge i m want (!d.groundLost) s.now cs
  | .valve => putValve i (if (cs.valves.getD .reset (chanVlv i)).compOff then .off else want.1) want.2 s.now cs
  | _ => cs.modChan i (fun c => c.switch i want.1 want.2 s.now (s.watches i c))

/-- The channel is in hold, or off after its t_HOLD until Run or Limp begins (R117, R118). -/
def Chan.holds (c : Chan) : Bool := decide (c.hold ≠ .none)

/-- The die takes the own-holder bit of a frame: its gate stays shut for 250 µs after the bit rises, unless the decoder reads
RELEASE (R459). -/
def Die.takeBit (d : Die) (bit release : Bool) : Die :=
  { d with ownHolder := bit, gateDelay := bit && (if d.ownHolder then d.gateDelay else !release) }

/-- The die can run the channel: its supply and ground are there, no protection holds it off, and it has cooled. -/
def Chan.canRun (c : Chan) (d : Die) : Bool :=
  decide (d.supply = .present) && !d.groundLost && !c.grd.blocks && c.grd.cooled

/-- The die puts a held or kept output on by itself, with the whole ladder (R120, R459): off where it cannot run it. -/
def ChanState.keepOn (cs : ChanState) (s : State) (i : Nat) (o : OutCmd) : ChanState :=
  let c := cs.chans.getD .reset i
  let ok := c.canRun (cs.dies.getD .reset (i / 14))
  cs.modChan i (fun c => c.switch i (if ok then o else .off) (if c.grd.blocks then 6 else 3) s.now (s.watches i c))

/-- The gate over a channel that holds or keeps its output (R459): shut, the output is off; open again, it returns. -/
def gateHeld (s : State) (cs : ChanState) (i : Nat) : ChanState :=
  let c := cs.chans.getD .reset i
  if !s.twinFed i then cs
  else if !s.gateOpen (i / 14) then
    if c.out.isOff then cs
    else cs.modChan i (fun c => { c.switch i .off 5 s.now (s.watches i c) with
                                  gated := some c.out, flags := { c.flags with twinGated := true } })
  else match c.gated with
    | some o => (cs.modChan i (fun c => { c with gated := none })).keepOn s i o
    | none => cs

/-- Offsets of a group but for HBgB's. -/
def dieOffsets : List Nat := [0, 1, 2, 3, 4, 5, 6, 7, 8, 9, 10, 12, 13]

/-- A valid frame of die `g` carries the own-holder bit and the merged commands of its 14 channels; a channel that still holds keeps its
output (R98, R118), and so does a keep-alive channel (R120), unless rank 3 acts (R23, R31). HBgB's index is the bridge's (R127). -/
def applyDie (s : State) (cs : ChanState) (g : Nat) : ChanState :=
  let cs := cs.modDie g (fun d => d.takeBit s.twin.ownHolder (decide (s.twin.partner = some .release)))
  let s := { s with ch := cs }
  dieOffsets.foldl (fun cs o =>
    let i := 14 * g + o
    let c := cs.chans.getD .reset i
    if (c.holds || ((cs.dies.getD .reset g).keeping && c.keep.isSome)) && !s.rankThree i then gateHeld s cs i
    else applyOut s (cs.modChan i (fun c => { c with hold := .none })) i) cs

/-- The link of die `g` is silent: the die is in hold and has had no valid frame since (R117). -/
def Die.silent (d : Die) : Bool := d.inHold && decide (d.silenceUs = 0)

/-- A frame reaches die `g` only over a live link, once the die has heard one since its power-up (R24, R118). -/
def State.dieHears (s : State) (g : Nat) : Bool := (s.die g).seenFrame && !(s.die g).silent && s.mgrUp

/-- Urgent frames leave on every link (R209, R213): each die that hears them applies the merged commands. -/
def urgent (s : State) : State :=
  { s with ch := (List.range 8).foldl (fun cs g => if s.dieHears g then applyDie s cs g else cs) s.ch }

/-- An urgent frame of one die (R209). -/
def urgentDie (g : Nat) (s : State) : State :=
  if s.dieHears g then { s with ch := applyDie s s.ch g } else s

/-! ### Shedding -/

/-- Turn off the channels of `cs` that are on and hold shed priority `p`, with cause 9 or 10 (R93). -/
def shedOne (cause i : Nat) (s : State) : State :=
  let c := s.chan i
  let s := s.modChan i (fun c => { c with shed := some cause, cause := cause, flags := { c.flags with shed := true } })
  let s := urgentDie (i / 14) s
  raiseCh evt_chShed i [byteOf cause, byteOf c.prof.shed] s

/-- Channels on, of `is`, with the lowest shed priority at or above `from`. -/
def State.shedPick (s : State) (is : List Nat) (from_ : Nat) : List Nat :=
  let on := is.filter (fun i => !(s.chan i).out.isOff && (s.chan i).shed.isNone && i % 14 != 11
    && decide (from_ ≤ (s.chan i).prof.shed))
  match (on.map (fun i => (s.chan i).prof.shed)).min? with
  | some p => on.filter (fun i => decide ((s.chan i).prof.shed = p))
  | none => []

def shedAll (cause : Nat) (is : List Nat) (s : State) : State := is.foldl (fun s i => shedOne cause i s) s

/-- The channels of group `g` in index order. -/
def groupChans (g : Nat) : List Nat := (List.range 14).map (fun o => 14 * g + o)

/-! ### Software commands -/

/-- A software command takes effect: it ends an orphan state, a shed of R93, a stall or target stop and a compliance
turn-off, and is shown in `LSW_CH_ACK` (R93, R104, R119, R121, R133, R135). -/
def putSw (i : Nat) (c : SwCmd) (s : State) : State :=
  let s1 := s.modChan i (fun x =>
    { x with sw := c, held := none, orphan := none, shed := none, ackGen := c.gen, ackSeq := c.seq,
             grd := { x.grd with needsCmd := false } })
  match chClass i with
  | .half => s1.modBridge (i / 14) (fun b => { b with stopped := false, stall := false, atTarget := false })
  | .valve => s1.modValve (chanVlv i) (fun v => { v with compOff := false })
  | _ => s1

/-- A command that clears a valve's compliance: an off command, or the first after a compliance turn-off (R135). -/
def clearCompliance (i : Nat) (c : SwCmd) (s : State) : State :=
  if chClass i = .valve then
    let v := s.valve (chanVlv i)
    if v.compliance && (c.out.isOff || decide (c.out = .regulate 0) || v.compOff) then
      raiseCh evt_vlvComplianceEnd i [] (s.modValve (chanVlv i) (fun v => { v with compliance := false }))
    else s
  else s

/-- Enter a software command of the owner's current generation: held in Start-up (R40), else in force. -/
def enterSw (i : Nat) (c : SwCmd) (s : State) : State :=
  if s.sys.mode = .startup then s.modChan i (fun x => { x with held := some c })
  else putSw i c (clearCompliance i c s)

/-- An access that falls in an unmapped slot of VZF `v`'s window (R87). -/
def windowFault (v : Nat) (s : State) : State :=
  let w := s.mbx.wins.getD .reset v
  let s1 := { s with
    bus := 0
    mbx := { s.mbx with wins := s.mbx.wins.set v { fault := true, faultCount := satInc 0xFFFF w.faultCount } } }
  if w.fault then s1 else raise evt_windowFault v (.owned (some v)) [] s1

/-- Discard a data-path command of a wrong generation, or one that its fields spoil (R121, R145). -/
def discardStale (i : Nat) (s : State) : State := s.modChan i (fun c => { c with flags := { c.flags with staleCmd := true } })
def discardBad (i : Nat) (s : State) : State := s.modChan i (fun c => { c with flags := { c.flags with badCmd := true } })

/-- The software command that an image of VZF `v` makes, its priority capped (R97). -/
def capped (im : Image) (cap : Nat) (target : U32) (gen seq : U16) : SwCmd :=
  { out := im.out, prio := min im.prio cap, target := if im.target then some target else none, gen := gen, seq := seq }

/-- A doorbell write of command word `w` for channel `i` by VZF `v` (R121, R145). -/
def doorbell (v i : Nat) (w : U32) (s : State) : State :=
  if s.chOwner i ≠ some v then windowFault v s
  else if (s.vzf v).life ≠ .active then s
  else
    let s := s.modChan i (fun c => { c with cmdWord := w })
    let c := s.chan i
    if c.tagGen ≠ (s.vzf v).gen then discardStale i s
    else match cmdImage i w with
      | none => discardBad i s
      | some im =>
        if im.target && !(s.bridge (i / 14)).posValid then discardBad i s
        else
          let cap := (s.vzf v).tpl.maxPrio
          let s := if cap < im.prio
            then s.modChan i (fun c => { c with flags := { c.flags with prioClamped := true } }) else s
          enterSw i (capped im cap c.targetReg c.tagGen c.tagSeq) s

end Sys2Proof.Machine
end

