-- ==== Sys2Proof/Machine/Flags.lean ====
section
/-! DEFINITION. The status words and flag registers that State's fields make (Tables 4.14 to 4.21, 5.11 to 5.17). -/

namespace Sys2Proof.Machine

/-- A word from (value, lowest bit) pairs. -/
def wordOf (fs : List (Nat × Nat)) : U32 := BitVec.ofNat 32 (fs.foldl (fun a f => a + f.1 * 2 ^ f.2) 0)


/-- A number from `lo` to `hi`. -/
def within (lo hi n : Nat) : Bool := decide (lo ≤ n) && decide (n ≤ hi)

/-- `OUT` (Tables 4.14, R146). -/
def Chan.outCode (c : Chan) (i : Nat) (b : Bridge) (v : Valve) : Nat :=
  match chClass i with
  | .half =>
    if b.drive = 3 then 4
    else if b.drive = 1 ∨ b.drive = 2 then
      (match c.out with
       | .drive _ d _ => if c.grd.limiting then 3 else if d = 10000 then 1 else 2
       | _ => 0)
    else if b.drive = 0 && c.prof.hb.stopBrake then 4 else 0
  | .valve => if c.out.isOff then 0 else if v.sat then 6 else 5
  | _ =>
    match c.out with
    | .off => 0
    | .pwm _ _ => 2
    | _ => if c.grd.limiting then 3 else 1

/-- Series-arc detection runs (R115): a switched class with `ARC_EN`, source `VZ48` of a 48 V or 24 V boardnet or the
24 V net, `VGg` above 18 V, on at 100 % duty and outside the inrush window. -/
def State.arcRuns (s : State) (i : Nat) : Bool :=
  let c := s.chan i
  let src := s.groupSrc (i / 14)
  (chClass i).isSwitch && c.prof.arcEn && decide (c.out = .on) && !c.grd.inrush && decide (1800 < c.sense.vg) &&
    (match src with
     | .vz48 => decide (s.cfg.image.boardnet ≠ .v12)
     | .net24 => decide (s.cfg.image.boardnet ≠ .v12)
     | _ => false)

/-- `LSW_CH_STATUS` (Table 4.14); both indices of a pair report the bridge (R146). -/
def State.chStatus (s : State) (i : Nat) : U32 :=
  let i := bridgeIdx i
  let c := s.chan i
  let sw := (chClass i).isSwitch
  wordOf [(c.outCode i (s.bridge (i / 14)) (s.valve (chanVlv i)), 29), (c.src, 26), (bit c.faulted, 25), (bit c.grd.latched, 24),
    (bit (sw && c.grd.lockLedger), 23), (bit (sw && c.grd.lockFw), 22), (bit (sw && c.grd.fwOk), 21), (bit c.grd.inrush, 20),
    (bit (s.arcRuns i), 19), (bit c.grd.ol, 18), (bit c.grd.stb, 17), (bit c.orphan.isSome, 16), (c.cause % 16, 12),
    (c.grd.retries % 16, 8), (c.profId % 256, 0)]

/-- `LSW_CH_FLAGS` (Table 4.15). -/
def Chan.flagWord (c : Chan) : U32 :=
  let f := c.flags
  wordOf [(bit f.sc, 31), (bit f.limTo, 30), (bit f.wire, 29), (bit f.ot, 28), (bit f.arc, 27), (bit f.olOn, 26), (bit f.olOff, 25),
    (bit f.stb, 24), (bit f.fwMissing, 23), (bit f.ledger, 22), (bit f.clampOver, 21), (bit f.held, 20), (bit f.orphaned, 19),
    (bit f.staleCmd, 18), (bit f.badCmd, 17), (bit f.prioClamped, 16), (bit f.overridden, 15), (bit f.twinGated, 14),
    (bit f.shed, 13), (c.tripCount % 4096, 0)]

/-- A write to `LSW_CH_FLAGS`: each 1 clears its bit (R10). -/
def ChFlags.clear (f : ChFlags) (w : U32) : ChFlags :=
  { sc := f.sc && !w.getLsbD 31, limTo := f.limTo && !w.getLsbD 30, wire := f.wire && !w.getLsbD 29, ot := f.ot && !w.getLsbD 28,
    arc := f.arc && !w.getLsbD 27, olOn := f.olOn && !w.getLsbD 26, olOff := f.olOff && !w.getLsbD 25, stb := f.stb && !w.getLsbD 24,
    fwMissing := f.fwMissing && !w.getLsbD 23, ledger := f.ledger && !w.getLsbD 22, clampOver := f.clampOver && !w.getLsbD 21,
    held := f.held && !w.getLsbD 20, orphaned := f.orphaned && !w.getLsbD 19, staleCmd := f.staleCmd && !w.getLsbD 18,
    badCmd := f.badCmd && !w.getLsbD 17, prioClamped := f.prioClamped && !w.getLsbD 16, overridden := f.overridden && !w.getLsbD 15,
    twinGated := f.twinGated && !w.getLsbD 14, shed := f.shed && !w.getLsbD 13 }

/-- A sense code as it is presented: the fault pedestal 0x3FFF while faulted, else clipped at 0x3FFE (R113). -/
def Chan.presented (c : Chan) (code : Nat) : Nat := if c.faulted then 0x3FFF else min code 0x3FFE

/-- `LSW_CH_CURRENT` (Table 4.16) and `HBR_CURRENT` (Table 5.12). -/
def Chan.currentWord (c : Chan) (half : Bool) : U32 :=
  wordOf [(bit (half && c.sense.negAvg), 31), (c.presented c.sense.iAvg, 16), (bit (half && c.sense.negInst), 15),
    (c.presented c.sense.iInst, 0)]

def Chan.peakWord (c : Chan) : U32 := wordOf [(c.presented c.sense.iPeak, 0)]

/-- Two signed 16-bit fields (Tables 4.18, 4.19). -/
def pairWord (hi lo : Int) : U32 := wordOf [((BitVec.ofInt 16 hi).toNat, 16), ((BitVec.ofInt 16 lo).toNat, 0)]

/-- `LSW_CH_LEDGER` (Table 4.20): budget and ledger in mJ. -/
def State.ledgerWord (s : State) (i : Nat) : U32 :=
  wordOf [((chClass i).budget / 1000, 16), (min 0xFFFF ((s.chan i).grd.ledgerNow s.now / 1000), 0)]

def Chan.ackWord (c : Chan) : U32 := wordOf [(c.ackGen.toNat, 16), (c.ackSeq.toNat, 0)]

/-- A ripple was counted within 1 ÷ F_RIP_MIN (Table 5.14). -/
def Bridge.ripAct (b : Bridge) (now fRipMin : Nat) : Bool :=
  match b.lastRipple with
  | some t => decide ((now - t) * fRipMin < Config.ticksPerSecond)
  | none => false

/-- `RIP_ACT` of bridge `g`. -/
def State.ripAct (s : State) (g : Nat) : Bool := (s.bridge g).ripAct s.now (s.chan (brChan g)).prof.hb.fRipMin

/-- Signed ripples a second from the mean of the last intervals, 0 when stopped (Table 5.13). -/
def Bridge.rate (b : Bridge) (act : Bool) : Int :=
  if !act || b.intervals.isEmpty then 0
  else
    let sum := b.intervals.foldl (· + ·) 0
    if sum = 0 then 0
    else
      let r : Int := (1000000 * b.intervals.length / sum : Nat)
      if b.forward then r else -r

def Bridge.speedWord (b : Bridge) (act : Bool) : U32 :=
  wordOf [((BitVec.ofInt 16 (b.rate act)).toNat, 16), (min 255 b.inserted, 8), (min 255 b.rejected, 0)]

/-- `HBR_STATE` (Table 5.14). -/
def Bridge.stateWord (b : Bridge) (act : Bool) : U32 :=
  wordOf [(b.drive % 8, 29), (bit b.posValid, 28), (bit act, 27), (bit b.runon, 26), (bit b.stall, 25), (bit b.atTarget, 24),
    (bit b.reversing, 23)]

/-- `VLV_REG`, `VLV_STATE`, `VLV_ERR` (Tables 5.15 to 5.17). -/
def Valve.regWord (v : Valve) : U32 := wordOf [(v.duty % 65536, 16), (v.target % 4096, 0)]
def Valve.stateWord (v : Valve) : U32 :=
  wordOf [(bit v.compliance, 31), (bit v.sat, 30), (bit v.dithAct, 29), (bit v.ceil, 28), (v.rEst % 65536, 0)]
def Valve.errWord (v : Valve) : U32 := wordOf [((BitVec.ofInt 16 v.err).toNat, 16), (v.compCount % 65536, 0)]

/-- `VOUT` of the index itself: each half of a bridge has its own (Table 5.11). -/
def State.voltWord (s : State) (i : Nat) : U32 := pairWord (s.chan (bridgeIdx i)).sense.vg (s.chan i).sense.vout

/-- The 64-byte status word of channel `i` (Tables 4.13, 5.11). -/
def State.statusBytes (s : State) (i : Nat) : List Byte :=
  let j := bridgeIdx i
  let c := s.chan j
  let half := decide (chClass i = .half)
  let b := s.bridge (i / 14)
  let v := s.valve (chanVlv i)
  le32 (s.chStatus i) ++ le32 c.flagWord ++ le32 (c.currentWord half) ++ le32 c.peakWord
    ++ le32 (pairWord c.sense.tj c.sense.twire) ++ le32 (s.voltWord i)
    ++ le32 (match chClass i with
             | .half => b.speedWord (s.ripAct (i / 14))
             | .valve => v.regWord
             | _ => s.ledgerWord i)
    ++ le32 c.ackWord ++ le64 c.stamp
    ++ (match chClass i with
        | .half => le32 b.pos ++ le32 (b.stateWord (s.ripAct (i / 14))) ++ zeros 16
        | .valve => le32 v.stateWord ++ le32 v.errWord ++ zeros 16
        | _ => zeros 24)

/-! ### The switches of a bridge (R95, R129) -/

/-- Which of a bridge's four switches are on. -/
structure Switches where
  aHigh : Bool
  aLow : Bool
  bHigh : Bool
  bLow : Bool
  deriving DecidableEq, Repr

def Switches.none : Switches := { aHigh := false, aLow := false, bHigh := false, bLow := false }
def Switches.brake : Switches := { Switches.none with aLow := true, bLow := true }
def Switches.forward : Switches := { Switches.none with aHigh := true, bLow := true }
def Switches.reverse : Switches := { Switches.none with bHigh := true, aLow := true }

/-- Table 5.3: the switches that a drive asks for; `flows` says that the current has not yet reached 0 in a fast decay. -/
def driveSwitches (drive : Nat) (onPhase fast flows stopBrake : Bool) : Switches :=
  let away (s : Switches) : Switches := if fast then (if flows then s else .none) else .brake
  match drive with
  | 0 => if stopBrake then .brake else .none
  | 1 => if onPhase then .forward else away .reverse
  | 2 => if onPhase then .reverse else away .forward
  | 3 => .brake
  | _ => .none

/-- In the dead time after `was`, a half whose switches change over keeps both off (R129). -/
def Switches.after (x was : Switches) : Switches :=
  { aHigh := x.aHigh && !was.aLow, aLow := x.aLow && !was.aHigh, bHigh := x.bHigh && !was.bLow, bLow := x.bLow && !was.bHigh }

/-- Ticks since the PWM period of a phase began, and ticks of the period (R95). -/
def pwmPos (now freq phase : Nat) : Nat × Nat :=
  let period := Config.ticksPerSecond / freq
  ((now + period - phase * period / 256 % period) % period, period)

/-- The switches of bridge `g` that are on now: those of Table 5.3, with the dead time after a PWM edge and after a change of drive. A
drive that ends counts as in its on-phase. -/
def State.bridgeSwitches (s : State) (g : Nat) : Switches :=
  let c := s.chan (brChan g)
  let b := s.bridge g
  let h := c.prof.hb
  let pos := match c.out with
    | .drive _ _ phase => (pwmPos s.now c.prof.fPwm phase).1
    | _ => 0
  let on := 3 * c.pulse
  let full := match c.out with
    | .drive _ duty _ => decide (duty = 10000)
    | _ => false
  let onPhase := full || decide (pos < on)
  let flows := decide (c.sense.iInst ≠ 0)
  let of (drive : Nat) (p : Bool) : Switches := driveSwitches drive p h.decayFast flows h.stopBrake
  let dead := 30 * h.dead
  let x := of b.drive onPhase
  let x := if !full && (decide (pos < dead) || (decide (on ≤ pos) && decide (pos < on + dead))) then x.after (of b.drive (!onPhase)) else x
  if s.now < b.changedAt + dead then x.after (of b.prevDrive true) else x

/-- The analog output `SNS_MON` in mV: 3.3 V × code ÷ 16,384, at least 4.5 V while the channel is faulted (R114). -/
def State.snsMv (s : State) : Nat :=
  match s.ch.sns with
  | none => 0
  | some i => let c := s.chan (bridgeIdx i)
    if c.faulted then 4500 else 3300 * c.sense.iInst / 16384

end Sys2Proof.Machine
end

