-- ==== Sys2Proof/Machine/CanOps.lean ====
section
/-! DEFINITION. The operations on CAN entries, on the NM buffer and on LIN frames that several chapters call
(R298 to R306, R317, R327). -/

namespace Sys2Proof.Machine

def State.canCh (s : State) (c : Nat) : CanChan := s.net.can.getD .reset c
def State.nmRing (s : State) (c : Nat) : NmRing := s.net.nm.getD .reset c
def State.linCh (s : State) (l : Nat) : LinChan := s.net.lin.getD .reset l

def State.modCan (s : State) (c : Nat) (f : CanChan → CanChan) : State :=
  { s with net := { s.net with can := s.net.can.modify .reset c f } }

def State.modNm (s : State) (c : Nat) (f : NmRing → NmRing) : State :=
  { s with net := { s.net with nm := s.net.nm.modify .reset c f } }

def State.modLin (s : State) (l : Nat) (f : LinChan → LinChan) : State :=
  { s with net := { s.net with lin := s.net.lin.modify .reset l f } }

/-! ### Entries -/

def CanEntry.own (e : CanEntry) : Bool := e.ctl.getLsbD 31
def CanEntry.fmt (e : CanEntry) : Nat := bits e.ctl 28 3
def CanEntry.ide (e : CanEntry) : Bool := e.ctl.getLsbD 27
def CanEntry.rtr (e : CanEntry) : Bool := e.ctl.getLsbD 26
def CanEntry.oneShot (e : CanEntry) : Bool := e.ctl.getLsbD 23
def CanEntry.dlen (e : CanEntry) : Nat := bits e.ctl 0 12

def canFdEn (r : CanRecord) : Bool := r.flags.getLsbD 0
def canXlEn (r : CanRecord) : Bool := r.flags.getLsbD 1
def canListen (r : CanRecord) : Bool := r.flags.getLsbD 4
def canEcho (r : CanRecord) : Bool := r.flags.getLsbD 5
def canAutoStart (r : CanRecord) : Bool := r.flags.getLsbD 6

/-- Results (Table 11.7). -/
def canTxOk : Nat := 1
def canCancelled : Nat := 2
def canLostArb : Nat := 3
def canTxError : Nat := 4
def canStaleGen : Nat := 5
def canRefused : Nat := 6
def canAborted : Nat := 7

/-- The control word at completion: `OWN` 0, `RESULT` and `CANCEL_LATE` (Table 11.6). -/
def doneCtl (ctl : U32) (result : Nat) (late : Bool) : U32 :=
  (ctl &&& 0x7FB0FFFF) ||| BitVec.ofNat 32 (result * 65536 + (if late then 4194304 else 0))

/-- Data lengths of a format (Table 11.6). -/
def dlenOk (fmt dlen : Nat) : Bool :=
  match fmt with
  | 0 => decide (dlen ≤ 8)
  | 1 => decide (dlen ≤ 8) || [12, 16, 20, 24, 32, 48, 64].contains dlen
  | 2 => decide (1 ≤ dlen) && decide (dlen ≤ 2048)
  | _ => false

def canAllows (r : CanRecord) (fmt : Nat) : Bool :=
  match fmt with
  | 0 => true
  | 1 => canFdEn r
  | 2 => canXlEn r
  | _ => false

/-- A long XL frame names a TX buffer (0 to 31); any other frame names one or none (R301, R304). -/
def xlbufOk (e : CanEntry) : Bool := decide (e.xlbuf.toNat ≤ 31) || (decide (e.xlbuf = 0xFF) && decide (e.dlen ≤ 64))

/-- An entry that the doorbell takes (R304). -/
def CanChan.accepts (c : CanChan) (e : CanEntry) : Bool :=
  !canListen c.record && canAllows c.record e.fmt && dlenOk e.fmt e.dlen && xlbufOk e

def State.nmOn (s : State) (c : Nat) : Bool := (s.nmRing c).record.flags.getLsbD 0

/-- A buffer of the signal exchange, and the buffer of the manager (R298). -/
def State.canSigBuf (s : State) (c e : Nat) : Bool := decide (e < 32) && (s.canCh c).record.sigTxb.getLsbD e
def State.canNmBuf (s : State) (c e : Nat) : Bool := decide (e = 31) && s.nmOn c
def State.canSoftEntry (s : State) (c e : Nat) : Bool := !s.canSigBuf c e && !s.canNmBuf c e

def CanChan.txE (c : CanChan) (e : Nat) : CanEntry := c.tx.getD .tx e
def CanChan.rxE (c : CanChan) (e : Nat) : CanEntry := c.rx.getD .rx e

/-- A completion of a TX entry: result, time and attempts are in place when `OWN` clears (R302). A software entry raises the
channel's vector (R304). -/
def canFinish (c e result : Nat) (late : Bool) (time : U64) (s : State) : State :=
  let t := s.modCan c (fun x =>
    { x with tx := x.tx.modify .tx e (fun y => { y with ctl := doneCtl y.ctl result late, time := time })
             pending := x.pending.filter (fun k => k != e) })
  if s.canSoftEntry c e then t.raiseSrc (s.canOwner c) (8 + c) else t

/-- Hardware takes a handed-over entry into its pending set, or completes it as refused (R304). -/
def canTake (c e : Nat) (s : State) : State :=
  if (s.canCh c).accepts ((s.canCh c).txE e) then s.modCan c (fun x => { x with pending := x.pending ++ [e] })
  else canFinish c e canRefused false s.tb.count s

/-- Write a buffer of the exchange or the manager and hand it over. -/
def canHand (c e : Nat) (fmt : Nat) (ide brs : Bool) (id : U32) (data : List Byte) (s : State) : State :=
  let ctl := wordOf [(1, 31), (fmt, 28), (bit ide, 27), (bit brs, 25), (data.length, 0)]
  let ent : CanEntry := { CanEntry.tx with ctl := ctl, id := id, xlbuf := if data.length ≤ 64 then 0xFF else byteOf e
                                           data := (data ++ zeros 64).take 64 }
  let s := s.modCan c (fun x =>
    { x with tx := x.tx.set e ent, xlb := if data.length ≤ 64 then x.xlb else x.xlb.set (e % 32) data })
  canTake c e s

/-! ### The manager's buffer -/

/-- The data of an NM message (Table 11.13). -/
def NmMsg.bytes (m : NmMsg) : List Byte :=
  [byteOf m.sender, byteOf (m.succ.getD 0xFF),
   byteOf (bit m.consent + bit m.sleepInd * 2 + bit m.override * 4 + bit m.alive * 8 + bit m.coord * 16 + bit m.roundConsent * 32),
   m.round, 0, 0, 0, 0]

/-- Send an NM message in TX buffer 31; a message that finds the buffer pending waits for its completion. -/
def nmSend (c : Nat) (m : NmMsg) (s : State) : State :=
  if ((s.canCh c).txE 31).own then s.modNm c (fun n => { n with outbox := some m })
  else
    canHand c 31 0 false false (BitVec.ofNat 32 (((s.nmRing c).record.base.toNat + m.sender) * 262144)) m.bytes
      (s.modNm c (fun n => { n with outbox := none }))

/-! ### LIN frames -/

def LinChan.frame (l : LinChan) (id : Nat) : LinFrame := l.frames.getD .zero id
def LinFrame.dir (f : LinFrame) : Nat := bits f.ctl 30 2
def LinFrame.rxEn (f : LinFrame) : Bool := f.ctl.getLsbD 28
def LinFrame.buf (f : LinFrame) : Bool := f.ctl.getLsbD 27
def LinFrame.len (f : LinFrame) : Nat := bits f.ctl 20 4
def LinFrame.bufSent (f : LinFrame) : Bool := f.status.getLsbD 28

/-- The half that `BUF` selects. -/
def LinFrame.half (f : LinFrame) : List Byte := if f.buf then f.half1 else f.half0

/-- Write the half that `BUF` does not select, then flip `BUF` (R348). -/
def linPublish (l id : Nat) (data : List Byte) (s : State) : State :=
  let d := (data ++ zeros 8).take 8
  s.modLin l (fun x => { x with frames := x.frames.modify .zero id (fun f =>
    let g := if f.buf then { f with half0 := d } else { f with half1 := d }
    { g with ctl := g.ctl ^^^ 0x08000000 }) })

/-! ### CAN0 in Basecamp (R49, R446): the record, and the transport of ISO 15765-2 -/

/-- The ROM's record of CAN0: 500 kbit/s nominal and 1 Mbit/s data, from the root PLL or from the reference; at that data rate transmitter
delay compensation is off (Table 11.2). The SJW values that no table gives are FREE. -/
def romCanRecord (pll : Bool) : CanRecord :=
  if pll then { canRecordDefault with flags := 1, d := { brp := 5, tseg1 := 63, tseg2 := 16, sjw := Config.romSjw 2 } }
  else { canRecordDefault with
    flags := 1, nBrp := 1, nTseg1 := 39, nTseg2 := 10, nSjw := Config.romSjw 0
    d := { brp := 1, tseg1 := 19, tseg2 := 5, sjw := Config.romSjw 1 } }

/-- CAN0 as the ROM opens it. -/
def CanChan.romOpen (pll : Bool) (x : CanChan) : CanChan :=
  { x with record := romCanRecord pll, mode := .integrating, xcvr := .normal }

/-- The next data length that CAN FD can carry. -/
def fdLength (n : Nat) : Nat := if n ≤ 8 then n else ([12, 16, 20, 24, 32, 48].find? (fun k => decide (n ≤ k))).getD 64

/-- A frame of the ROM under its response identifier 0x7C8. -/
def tpFrame (fd : Bool) (data : List Byte) : CanFrame :=
  let n := if fd then fdLength data.length else if Config.tpPads then 8 else data.length
  let d := data ++ List.replicate (n - data.length) Config.tpFill
  { fmt := if fd then 1 else 0, ide := false, rtr := false, brs := fd, esi := false, id := 0x1F200000, sdt := 0, vcid := 0, sec := false
    af := 0, dlen := d.length, data := d }

/-- Consecutive frames with `room` bytes each, from sequence number `k`; `fuel` bounds their number. -/
def tpRest (fd : Bool) (room : Nat) : Nat → Nat → List Byte → List CanFrame
  | 0, _, _ => []
  | _ + 1, _, [] => []
  | fuel + 1, k, b :: r =>
    tpFrame fd (byteOf (32 + k % 16) :: (b :: r).take room) :: tpRest fd room fuel (k + 1) ((b :: r).drop room)

/-- The frames of a response: one single frame, or a first frame and its consecutive frames. -/
def tpFrames (fd : Bool) (b : List Byte) : List CanFrame :=
  let n := b.length
  let size := if fd then 64 else 8
  if n = 0 then []
  else if n ≤ 7 then [tpFrame fd (byteOf n :: b)]
  else if fd && decide (n ≤ 62) then [tpFrame fd (0 :: byteOf n :: b)]
  else
    let h : List Byte := if n ≤ 4095 then [byteOf (16 + n / 256), byteOf n] else [0x10, 0] ++ (n32 n).reverse
    tpFrame fd (h ++ b.take (size - h.length)) :: tpRest fd (size - 1) n 1 (b.drop (size - h.length))

/-- A response in the format of the request: its first frame goes out, the rest waits for the tester's flow control. -/
def TpState.say (u : TpState) (b : List Byte) : TpState :=
  let f := tpFrames u.fd b
  { u with sent := f.take 1, held := f.drop 1 }

def UdsState.say (u : UdsState) (b : List Byte) : UdsState := { u with answer := b, tp := u.tp.say b }

/-- A whole request: the services of R447 act on it. -/
def TpState.whole (u : TpState) (functional : Bool) (b : List Byte) : TpState :=
  { u with rx := none, request := b, functional := functional, sent := [] }

/-- A number sent with its most significant byte first. -/
def bigEndian (b : List Byte) : Nat := b.foldl (fun n x => 256 * n + x.toNat) 0

/-- A frame of the tester: single, first (answered by flow control with BS 0 and STmin 0), consecutive, or flow control, which releases the
next BS frames, all of them with BS 0. STmin of the tester spaces them in time. -/
def TpState.step (u : TpState) (functional : Bool) (b : Byte) (r : List Byte) : TpState :=
  let low := b.toNat % 16
  match b.toNat / 16 with
  | 0 =>
    if 0 < low then if low ≤ 7 && decide (low ≤ r.length) then u.whole functional (r.take low) else u
    else
      let n := (r.headD 0).toNat
      if u.fd && decide (0 < n) && decide (n + 1 ≤ r.length) then u.whole functional ((r.drop 1).take n) else u
  | 1 =>
    if functional then u
    else
      let n := 256 * low + (r.headD 0).toNat
      let x : Nat × List Byte := if n = 0 then (bigEndian ((r.drop 1).take 4), r.drop 5) else (n, r.drop 1)
      { u with rx := some { want := x.1, got := x.2.take x.1, next := 1 }, sent := [tpFrame u.fd [0x30, 0, 0]], held := [] }
  | 2 =>
    match u.rx with
    | none => u
    | some p =>
      if functional || decide (low ≠ p.next) then { u with rx := none, sent := [] }
      else
        let got := p.got ++ r.take (p.want - p.got.length)
        if p.want ≤ got.length then u.whole false got
        else { u with rx := some { p with got := got, next := (p.next + 1) % 16 }, sent := [] }
  | 3 =>
    if low = 0 then
      let n := if r.headD 0 = 0 then u.held.length else (r.headD 0).toNat
      { u with sent := u.held.take n, held := u.held.drop n }
    else if low = 1 then { u with sent := [] }
    else { u with sent := [], held := [] }
  | _ => u

/-- The ROM takes what comes under its request identifiers 0x7C0 and 0x7CF, in classical CAN or in CAN FD with `BRS`. -/
def UdsState.canTake (u : UdsState) (g : CanFrame) : UdsState :=
  let id := (g.id.extractLsb' 18 11).toNat
  if g.ide || g.rtr || (decide (id ≠ 0x7C0) && decide (id ≠ 0x7CF)) || (decide (g.fmt.val ≠ 0) && !(decide (g.fmt.val = 1) && g.brs)) then u
  else match g.data with
    | [] => u
    | b :: r => { u with tp := { u.tp with fd := decide (g.fmt.val = 1) }.step (decide (id = 0x7CF)) b r }

end Sys2Proof.Machine
end

