-- ==== Sys2Proof/Machine/Canister.lean ====
section
/-! DEFINITION. The Canister's shared operations: slots and their uses (R426 to R432), measurement registers (R422), random
output (R434), nonces (R32), and the image sets (R436 to R441, R55). -/

namespace Sys2Proof.Machine

/-! ### Slots -/

/-- Slot `n` as this start sees it: every slot is `SLOT_BAD` after a PUF failure (R421). -/
def State.slot (s : State) (n : Nat) : KeySlot :=
  let x := s.key.slots.getD .empty n
  if s.key.pufFail then { x with state := .bad } else x

def State.slotValid (s : State) (n : Nat) : Bool := decide ((s.slot n).state = .valid)

/-- Usage bits that a type allows (Table 15.4); none for a type that does not exist. -/
def usageAllowed : Nat → Option U16
  | 0 => some 0
  | 1 => some 7
  | 2 => some 1
  | 3 | 4 | 5 | 6 => some 8
  | _ => none

/-- Bytes of content by type, before zero-padding. -/
def slotLength : Nat → Nat
  | 1 => 32
  | 2 => 64
  | 3 => 49
  | 4 => 33
  | 5 | 6 => 48
  | _ => 0

/-- The type that a role slot holds (Table 15.5). -/
def roleType : Nat → Option Nat
  | 120 => some 1
  | 121 => some 3
  | 122 => some 5
  | 123 | 124 | 125 | 127 => some 3
  | 126 => some 6
  | _ => none

/-- A valid slot whose type and usage fit the use (R429). -/
def State.slotServes (s : State) (n : Nat) (usage : U16) : Bool :=
  s.slotValid n && decide ((s.slot n).usage &&& usage = usage)

/-- A bank is valid under R52: its own checks, and the configuration key in slot 123. -/
def State.bankOk (s : State) (b : Bank) : Bool := b.valid && s.slotServes 123 8

def State.anyBank (s : State) : Bool := s.bankOk s.cfg.bankA || s.bankOk s.cfg.bankB

/-- A refused use is counted (R429). -/
def countRefused (s : State) : State := { s with key := { s.key with refused := s.key.refused + 1 } }

def State.modKeySlot (s : State) (n : Nat) (f : KeySlot → KeySlot) : State :=
  { s with key := { s.key with slots := s.key.slots.modify .empty n f } }

/-- Canister and update events are device-wide (R451). -/
def raiseKey (k : EvKind) (inst : Nat) (data : List Byte) (s : State) : State := raise k inst .wide data s

/-! ### Measurement registers -/

/-- Extend MR `n`: MRn ← SHA-384(MRn ‖ v) (R422). -/
def extendMr (n : Nat) (v : List Byte) (s : State) : State :=
  { s with key := { s.key with mrs := s.key.mrs.modify n (fun m => Config.sha384 (m ++ v)), kState := s.key.kState || decide (n = 5) } }

/-! ### Random output and nonces -/

/-- 32 random bytes of a nonce. -/
def nonceBytes (id : Nat) : List Byte := Config.freeBytes id 32

/-- Issue a nonce (R32): valid for one use and 60 s. Its number is that of the FREE bytes it is made of. -/
def issueNonce (s : State) : State × Nat :=
  let n : Nonce := { id := s.free, issued := s.now }
  (State.draw { s with sys := { s.sys with nonces := n :: s.sys.nonces } }, s.free)

/-- A nonce that was issued at most 60 s ago and not used yet (R32). -/
def State.nonceFresh (s : State) (id : Nat) : Bool :=
  s.sys.nonces.any (fun n => decide (n.id = id) && decide (s.now - n.issued ≤ 60 * Config.ticksPerSecond))

/-- A request uses its nonce up, whatever its signature (R32). -/
def useNonce (id : Nat) (s : State) : State :=
  { s with sys := { s.sys with nonces := s.sys.nonces.filter (fun n => n.id != id) } }

/-! ### Image copies -/

def State.copy (s : State) (cls : Nat) (b : Bool) : ImageCopy := s.upd.copies.getD .empty (2 * cls + bit b)

def State.modCopy (s : State) (cls : Nat) (b : Bool) (f : ImageCopy → ImageCopy) : State :=
  { s with upd := { s.upd with copies := s.upd.copies.modify .empty (2 * cls + bit b) f } }

def allClasses : List Nat := List.range 6

/-- Largest body in bytes (Table 15.8). -/
def maxBody : Nat → Nat
  | 0 => 768 * 1024
  | 1 => 448 * 1024
  | 2 => 32 * 1024 * 1024
  | 3 => 512 * 1024
  | _ => 64 * 1024

/-- The step range covers A1. -/
def ImageCopy.stepOk (c : ImageCopy) : Bool := decide (c.stepLo ≤ Config.stepCode) && decide (Config.stepCode ≤ c.stepHi)

def State.minimum (s : State) (cls : Nat) : Nat := s.upd.minima.getD 0 cls

/-- The decryption key is there: the fleet key in slot 120, or the device key, which needs the root (R437). -/
def State.imageKeyOk (s : State) (devKey : Bool) : Bool := if devKey then !s.key.pufFail else s.slotServes 120 2

/-- The issuer's keys are there: in ROM, or in slots 121 and 122 for class 1 (R436). -/
def State.issuerOk (s : State) (cls : Nat) : Bool := decide (cls ≠ 1) || (s.slotServes 121 8 && s.slotServes 122 8)

/-- A copy passes R438 at a load, as far as State can tell: the load itself may still fail. -/
def State.copyValid (s : State) (cls : Nat) (b : Bool) : Bool :=
  let c := s.copy cls b
  decide (c.state = .valid) && c.stepOk && decide (s.minimum cls ≤ c.secVer) && s.imageKeyOk c.devKey && s.issuerOk cls

/-- The newest valid copy of a class: the later version, A among equals (R55). -/
def State.newest (s : State) (cls : Nat) : Option Bool :=
  match s.copyValid cls false, s.copyValid cls true with
  | true, true => some (decide ((s.copy cls false).version < (s.copy cls true).version))
  | true, false => some false
  | false, true => some true
  | false, false => none

/-- Row `c` of a tested-with set names version `v` (Table 15.9). -/
def ImageCopy.names (c : ImageCopy) (cls : Nat) (v : U32) : Bool := (c.tested.getD cls []).contains v && decide (v ≠ 0)

/-- R55: every image supports A1 and names every other image at its version. -/
def testedSet (cs : List ImageCopy) : Bool :=
  decide (cs.length = 6) && cs.all ImageCopy.stepOk
    && (List.range 6).all (fun i => (List.range 6).all (fun j =>
      decide (i = j) || (cs.getD i .empty).names j (cs.getD j .empty).version))

/-- The images of a set of copies, class 0 first. -/
def State.setImages (s : State) (set : List Bool) : List ImageCopy := (set.zip allClasses).map (fun x => s.copy x.2 x.1)

/-- SHA-384 over bytes 0x0000 to 0x00FF of the six manifests (R437). -/
def manifestDigest (cs : List ImageCopy) : List Byte := Config.sha384 (cs.flatMap (fun c => memRead c.bytes 0 256))

/-- The candidate set of the newest valid copies (R55), if each class has one. -/
def State.candidate (s : State) : Option (List Bool) :=
  let cs := allClasses.map s.newest
  if cs.all Option.isSome then some (cs.map (fun c => c.getD false)) else none

/-- The last good set, if each of its images is present and valid (R55). -/
def State.lastGoodSet (s : State) : Option (List Bool) :=
  match s.upd.lastGood with
  | some set => if (set.zip allClasses).all (fun x => s.copyValid x.2 x.1) then some set else none
  | none => none

/-! ### What mode changes do to updates -/

/-- An open target is discarded (R443). -/
def updDiscardOpen (s : State) : State := { s with upd := { s.upd with open_ := none } }

/-- The minimum of a class rises to the security version of its running image (R441). -/
def raiseMinimum (s : State) (cls : Nat) : State :=
  let v := (s.copy cls (s.upd.running.getD false cls)).secVer
  if s.minimum cls < v then
    raiseKey evt_updSecverRaised cls [] { s with upd := { s.upd with minima := s.upd.minima.set cls v } }
  else s

/-- Run entry: the running set is recorded as the last good set and raises the minima, but not under a waiver (R55, R56,
R441); the station and the ring key slot are recorded (R261). -/
def updReachedRun (s : State) : State :=
  let s := { s with ring := { s.ring with recorded := some (s.cfg.image.ring.station, s.cfg.image.vzf.p0Key) } }
  if s.sys.waiver then s
  else
    let set := allClasses.map (fun c => s.upd.running.getD false c)
    if s.upd.lastGood = some set then s
    else allClasses.foldl raiseMinimum { s with upd := { s.upd with lastGood := some set } }

end Sys2Proof.Machine
end

