-- ==== Sys2Proof/Machine/Channels.lean ====
section
/-! DEFINITION. The data path of the load channels, half-bridges and valves (R121, R122, R145) and the CH commands
(R125, R149). -/

namespace Sys2Proof.Machine

/-! ### Data path -/

/-- `LSW_CMD_WRITE`: the doorbell of a heavy, medium or light channel (R121). -/
def execLswCmdWrite (v : Fin 256) (ch : Fin 112) (value : U32) (s : State) : Result :=
  .next (if (chClass ch.val).isSwitch then doorbell v.val ch.val value s else windowFault v.val s)

/-- `HBR_CMD_WRITE`: the doorbell of a bridge, in the slot of HBgA's index (R145). -/
def execHbrCmdWrite (v : Fin 256) (br : Fin 8) (value : U32) (s : State) : Result :=
  .next (doorbell v.val (brChan br.val) value s)

/-- `VLV_CMD_WRITE`: the doorbell of a valve (R145). -/
def execVlvCmdWrite (v : Fin 256) (vlv : Fin 16) (value : U32) (s : State) : Result :=
  .next (doorbell v.val (vlvChan vlv.val) value s)

/-- A read of `LSW_CH_STAMP_LO` returns bits 31:0 and latches `LSW_CH_STAMP_HI` (R122). -/
def readStampLo (v i : Nat) (s : State) : State :=
  if s.chOwner i ≠ some v then windowFault v s
  else
    let c := s.chan (bridgeIdx i)
    { s.modChan i (fun x => { x with stampHi := c.stamp.extractLsb' 32 32 }) with bus := (c.stamp.extractLsb' 0 32).zeroExtend 64 }

def execLswChStampLoRead (v : Fin 256) (ch : Fin 112) (s : State) : Result := .next (readStampLo v.val ch.val s)

/-- A read of `LSW_CH_PEAK` returns `I_PEAK` and clears it in the same access (R10, Table 4.17). -/
def readPeak (v i : Nat) (s : State) : State :=
  if s.chOwner i ≠ some v then windowFault v s
  else
    let j := bridgeIdx i
    { s.modChan j (fun c => { c with sense := { c.sense with iPeak := 0 } }) with bus := (s.chan j).peakWord.zeroExtend 64 }

def execLswChPeakRead (v : Fin 256) (ch : Fin 112) (s : State) : Result := .next (readPeak v.val ch.val s)

/-! ### CH commands: shared checks -/

/-- Privilege O of a command that names channel `i`; an index above 111 names no resource. -/
def chNeed (s : State) (i : Nat) : Need := if i ≤ 111 then .owner (s.chOwner i) else .any

/-- Index and class (R125): above 111 `ST_RANGE`, a class the command does not take `ST_CH_CLASS`. -/
def chIndex (i : Nat) (clsOk : Bool) : Option U16 :=
  if 111 < i then some stat_range else if !clsOk then some stat_chClass else none

/-- The first of two statuses. -/
def orStat (a b : Option U16) : Option U16 :=
  match a with
  | some x => some x
  | none => b

def needStat (c : Bool) (st : U16) : Option U16 := if c then none else some st

/-- A mailbox command's priority: 0 to 15, and within the VZF's cap unless the port holds the system privilege (R97). -/
def prioStat (s : State) (r : Req) (prio : Nat) : Option U16 :=
  match s.port? r.port with
  | some p =>
    if 15 < prio then some stat_range
    else if p.sysPriv then none
    else match p.vzf with
      | some v => if (s.vzf v).tpl.maxPrio < prio then some stat_range else none
      | none => none
  | none => none

/-- The owner's current generation (the text after Table 4.24). -/
def State.ownerGen (s : State) (i : Nat) : U16 :=
  match s.chOwner i with
  | some v => (s.vzf v).gen
  | none => 0

/-- A mailbox command writes the channel's slot as a data-path write would, under the owner's current generation and the
low 16 bits of REQ_SEQ: tag, command register, and the target register of a bridge. -/
def mailboxSw (r : Req) (i : Nat) (o : OutCmd) (prio : Nat) (target : Option U32) (word : U32) (reg : Option U32) (s : State) : State :=
  let seq := r.seq.extractLsb' 0 16
  let t := s.modChan i (fun c => { c with tagGen := s.ownerGen i, tagSeq := seq, cmdWord := word, targetReg := reg.getD c.targetReg })
  enterSw i { out := o, prio := prio, target := target, gen := s.ownerGen i, seq := seq } t

/-! ### CH.SET to CH.GET_LEDGER (Table 4.24) -/

def chSetCmd (r : Req) (ch : U16) (mode prio : Byte) (duty : U16) (s : State) : Cmd :=
  { code := 0x0301, lenOk := decide (r.len = 8), need := chNeed s ch.toNat
    payload := orStat (chIndex ch.toNat (chClass ch.toNat).isSwitch)
      (orStat (needStat (decide (mode.toNat ≤ 2)) stat_badPayload)
        (orStat (needStat (decide (duty.toNat ≤ 10000)) stat_range) (prioStat s r prio.toNat)))
    modeOk := s.sys.mode.isRunLimpWork }

/-- A command for on or PWM on a latched or locked channel is refused; off is taken. -/
def chSetBody (r : Req) (i mode prio duty phase : Nat) (s : State) : State × Reply :=
  let g := (s.chan i).grd
  if decide (mode ≠ 0) && g.latched then (s, .fail stat_chLatched)
  else if decide (mode ≠ 0) && g.locked then (s, .fail stat_chLocked)
  else
    let t := mailboxSw r i ((switchOut mode duty phase).getD .off) prio none (lswWord mode prio phase duty) none s
    (t, .ok (le32 (t.chStatus i)))

def execChSet (r : Req) (ch : U16) (mode prio : Byte) (duty : U16) (phase : Byte) (s : State) : Result :=
  .next (runCmd r (chSetCmd r ch mode prio duty s)
    (fun _ s => chSetBody r ch.toNat mode.toNat prio.toNat duty.toNat phase.toNat s) s)

def execChGetStatus (r : Req) (ch : U16) (s : State) : Result :=
  .next (runCmd r { code := 0x0302, lenOk := decide (r.len = 2), need := chNeed s ch.toNat, payload := chIndex ch.toNat true,
                    modeOk := s.sys.mode.isServing }
    (fun _ s => (s, .ok (s.statusBytes ch.toNat))) s)

/-- `POS_VALID` clears with `EVT_HB_POS_LOST`; a target drive in force takes its stop state with cause 14 (R140, R141). -/
def losePos (b : Nat) (s : State) : State :=
  if (s.bridge b).posValid then
    let i := brChan b
    let target := ((s.chan i).targetOf (s.chan i).src).isSome && !(s.chan i).out.isOff
    let s1 := s.modBridge b (fun x => { x with posValid := false })
    let s1 := if target then
        (s1.modChan i (fun c => { c.switch i .off c.src s.now false with cause := 14 })).modBridge b
          (fun x => { x.take .off (s.chan i).prof.hb.rippleEn s.now with stopped := true })
      else s1
    raiseCh evt_hbPosLost i [] s1
  else s

/-- Assign profile `p` to a channel (R106): protection limits take effect at once, an inductive profile clears `FW_OK`,
overrides of R107, Table 5.7 and Table 5.8 end, a dither setting that waits among them; a bridge whose `RIPPLE_EN` is cleared loses its
position (R140). -/
def assignProfile (i id : Nat) (p : Profile) (s : State) : State :=
  let t := s.modChan i (fun c =>
    { c with profId := id, prof := p, holdOvr := none,
             grd := { c.grd with fwOk := c.grd.fwOk && decide (p.typ ≠ 5), fwDone := c.grd.fwDone && decide (p.typ ≠ 5) } })
  match chClass i with
  | .half => if (s.chan i).prof.hb.rippleEn && !p.hb.rippleEn then losePos (i / 14) t else t
  | .valve => t.modValve (chanVlv i) (fun v => { v with newDither := none })
  | _ => t

def setProfileBody (i id : Nat) (s : State) : State × Reply :=
  let i := bridgeIdx i
  let c := s.chan i
  if !c.out.isOff then (s, .fail stat_badState)
  else match s.cfg.image.profiles.get? id with
    | none => (s, .fail stat_chNoProfile)
    | some p =>
      match profileStatus i (s.groupVolt (i / 14)) p with
      | some st => (s, .fail st)
      | none => if c.grd.lockFw then (s, .fail stat_chLocked) else (assignProfile i id p s, .ok [])

def execChSetProfile (r : Req) (ch : U16) (id : Byte) (s : State) : Result :=
  .next (runCmd r { code := 0x0303, lenOk := decide (r.len = 4), need := chNeed s ch.toNat, payload := chIndex ch.toNat true,
                    modeOk := s.sys.mode.isRunWork }
    (fun _ s => setProfileBody ch.toNat id.toNat s) s)

/-- The record in force, with the overrides of R107. -/
def Chan.recordBytes (c : Chan) (i : Nat) : List Byte :=
  let p := match c.holdOvr with
    | some (h, t) => { c.prof with hold := h, tHold := t }
    | none => c.prof
  p.bytes (chClass i)

def execChGetProfile (r : Req) (ch : U16) (s : State) : Result :=
  .next (runCmd r { code := 0x0304, lenOk := decide (r.len = 2), need := chNeed s ch.toNat, payload := chIndex ch.toNat true,
                    modeOk := s.sys.mode.isServing }
    (fun _ s =>
      let i := bridgeIdx ch.toNat
      (s, .ok ([byteOf (s.chan i).profId] ++ zeros 7 ++ (s.chan i).recordBytes i))) s)

/-- Release a ledger lock at or below half the budget (R110), or a free-wheel lock under `FW_FALLBACK` (R112). -/
def unlockBody (i sel : Nat) (s : State) : State × Reply :=
  let c := s.chan i
  if sel = 0 then
    if !c.grd.lockLedger then (s, .fail stat_badState)
    else if (chClass i).budget < 2 * c.grd.ledgerNow s.now then (s, .fail stat_chLedgerHigh)
    else (raiseCh evt_chUnlocked i [] (s.modChan i (fun c => { c with grd := { c.grd with lockLedger := false, needsCmd := true } })),
          .ok [])
  else
    if !c.grd.lockFw then (s, .fail stat_badState)
    else if !c.prof.fwFallback then (s, .fail stat_chFwLock)
    else if s.sys.mode = .workshop then (s, .fail stat_badState)
    else (raiseCh evt_chUnlocked i [] (s.modChan i (fun c => { c with grd := { c.grd with lockFw := false, fallback := true } })),
          .ok [])

def execChUnlock (r : Req) (ch : U16) (selector : Byte) (s : State) : Result :=
  .next (runCmd r { code := 0x0305, lenOk := decide (r.len = 4), need := chNeed s ch.toNat
                    payload := orStat (chIndex ch.toNat (chClass ch.toNat).isSwitch)
                      (needStat (decide (selector.toNat ≤ 1)) stat_badPayload)
                    modeOk := s.sys.mode.isRunLimpWork }
    (fun _ s => unlockBody ch.toNat selector.toNat s) s)

/-- Re-arm a latched channel (R104). -/
def clearFaultBody (i : Nat) (s : State) : State × Reply :=
  let i := bridgeIdx i
  let g := (s.chan i).grd
  if !g.latched then (s, .fail stat_badState)
  else if !g.cooled then (s, .fail stat_chNotCooled)
  else if g.latchArc && decide (2 ≤ g.arcLatches) && decide (s.sys.mode ≠ .workshop) then (s, .fail stat_chArcRepeat)
  else (s.modChan i (fun c =>
          { c with grd := { c.grd with latched := false, latchArc := false, retries := 0, needsCmd := true } }), .ok [])

def execChClearFault (r : Req) (ch : U16) (s : State) : Result :=
  .next (runCmd r { code := 0x0306, lenOk := decide (r.len = 2), need := chNeed s ch.toNat, payload := chIndex ch.toNat true,
                    modeOk := s.sys.mode.isRunLimpWork }
    (fun _ s => clearFaultBody ch.toNat s) s)

def execChSetHold (r : Req) (ch : U16) (setting : Byte) (tHold : U16) (s : State) : Result :=
  .next (runCmd r { code := 0x0307, lenOk := decide (r.len = 6), need := chNeed s ch.toNat
                    payload := orStat (chIndex ch.toNat true)
                      (orStat (needStat (decide (setting.toNat ≤ 1)) stat_badPayload)
                        (needStat (decide (10 ≤ tHold.toNat) && decide (tHold.toNat ≤ 2000)) stat_range))
                    modeOk := s.sys.mode.isRunWork }
    (fun _ s => (s.modChan (bridgeIdx ch.toNat) (fun c => { c with holdOvr := some (decide (setting = 1), tHold.toNat) }), .ok [])) s)

/-- A keep-alive entry: a light channel whose group is fed from `VZ48` or the 24 V net (R120). -/
def keepAllowed (s : State) (i : Nat) : Bool :=
  decide (chClass i = .light) &&
    (match s.groupSrc (i / 14) with
     | .vz48 => true
     | .net24 => true
     | _ => false)

def keepStat (s : State) (set : List KeepEntry) : Option U16 :=
  if 8 < set.length then some stat_range
  else if set.any (fun e => decide (111 < e.ch.toNat) || decide (10000 < e.duty.toNat)) then some stat_range
  else if set.any (fun e => decide (e.mode ≠ 1) && decide (e.mode ≠ 2)) then some stat_badPayload
  else if set.any (fun e => !(chClass e.ch.toNat).isSwitch) then some stat_chClass
  else if set.all (fun e => keepAllowed s e.ch.toNat) then none
  else some stat_chKeepalive

def keepOut (e : KeepEntry) : OutCmd := if e.mode = 1 then .on else .pwm e.duty.toNat 0

def execChSetKeepalive (r : Req) (set : List KeepEntry) (s : State) : Result :=
  .next (runCmd r { code := 0x0308, lenOk := decide (r.len = 4 + 8 * set.length), need := .system, payload := keepStat s set,
                    modeOk := s.sys.mode.isRunWork }
    (fun _ s => ({ s with ch := { s.ch with keepSet := set.map (fun e => (e.ch.toNat, keepOut e)) } }, .ok [])) s)

def execChSnsSelect (r : Req) (ch : U16) (s : State) : Result :=
  .next (runCmd r { code := 0x0309, lenOk := decide (r.len = 2)
                    need := if ch = 0xFFFF then .any else chNeed s ch.toNat
                    payload := if ch = 0xFFFF then none else chIndex ch.toNat true, modeOk := s.sys.mode.isRunLimpWork }
    (fun _ s => ({ s with ch := { s.ch with sns := if ch = 0xFFFF then none else some ch.toNat } }, .ok [])) s)

/-- Start a channel test (R125). -/
def testBody (r : Req) (i test duration : Nat) (s : State) : State × Reply :=
  let rev := decide (i % 14 = 11)
  let i := bridgeIdx i
  if (s.chan i).test.isSome then (s, .fail stat_busy)
  else (s.modChan i (fun c => { c with test := some { test := test, duration := duration, reverse := rev, port := r.port, tag := r.tag, reqSeq := r.seq } }),
        .fail stat_pending)

def execChTest (r : Req) (ch : U16) (test : Byte) (duration : U16) (s : State) : Result :=
  .next (runCmd r { code := 0x030A, lenOk := decide (r.len = 6), need := .system
                    payload := orStat (chIndex ch.toNat ((chClass ch.toNat).isSwitch || decide (2 ≤ test.toNat)))
                      (orStat (needStat (decide (test.toNat ≤ 3)) stat_badPayload)
                        (needStat (decide (1 ≤ duration.toNat) && decide (duration.toNat ≤ 1000)) stat_range))
                    modeOk := decide (s.sys.mode = .workshop) }
    (fun _ s => testBody r ch.toNat test.toNat duration.toNat s) s)

/-- Whether a test passes (R125): a gate-drive check when its slowest edge, the measured value, is within the gate turn-off time of the
class; of the other tests the spec names no criterion, and `pass` is what the test found. -/
def ChTestRun.passes (t : ChTestRun) (i : Nat) (pass : Bool) (value : U32) : Bool :=
  if t.test = 2 then decide (value.toNat ≤ (chClass i).gateOff) else pass

/-- A channel test ends (R125): a passing gate-drive check releases `CLAMP_OVER` (R111). -/
def endTest (i : Nat) (status : U16) (pass : Bool) (value : U32) (s : State) : State :=
  match (s.chan i).test with
  | none => s
  | some t =>
    let pass := t.passes i pass value
    let free := decide (t.test = 2) && pass && decide (status = stat_ok) && (s.chan i).grd.clampOver
    let s1 := s.modChan i (fun c => { c with test := none, grd := { c.grd with clampOver := c.grd.clampOver && !free } })
    let s1 := if free then raiseCh evt_chUnlocked i [] s1 else s1
    complete t.port t.reqSeq t.tag 0x030A status (if status = stat_ok then bool8 pass ++ zeros 3 ++ le32 value else []) s1

def execChTestEnd (ch : Fin 112) (pass : Bool) (value : U32) (s : State) : Result :=
  .next (endTest (bridgeIdx ch.val) stat_ok pass value s)

def execChGetLedger (r : Req) (ch : U16) (s : State) : Result :=
  .next (runCmd r { code := 0x030B, lenOk := decide (r.len = 2), need := chNeed s ch.toNat
                    payload := chIndex ch.toNat (chClass ch.toNat).isSwitch, modeOk := s.sys.mode.isServing }
    (fun _ s =>
      let g := (s.chan ch.toNat).grd
      let uj := g.ledgerNow s.now
      let b := (chClass ch.toNat).budget
      (s, .ok (n32 uj ++ n32 b ++ [byteOf (bit g.lockLedger + 2 * bit g.lockFw + 4 * bit g.clampOver)] ++ zeros 3
        ++ n32 (msToHalf 20000 uj (b / 2) 0)))) s)

/-! ### CH.HB_* and CH.VLV_* (Table 5.19) -/

def hbBlockOf (f : HbFields) : HbBlock :=
  { rippleEn := flagOf f.flags 0, decayFast := flagOf f.flags 1, stopBrake := flagOf f.flags 2, stallEn := flagOf f.flags 3,
    stallReport := flagOf f.flags 4, dead := f.dead.toNat, iStall := f.iStall.toNat, tStall := f.tStall.toNat,
    rippleRev := f.rippleRev.toNat, fRipMin := f.fRipMin.toNat, fRipMax := f.fRipMax.toNat, tRunon := f.tRunon.toNat,
    minRipAmp := f.minRipAmp.toNat }

/-- The bridge drives, brakes for a reversal, or counts in run-on. -/
def Bridge.moving (b : Bridge) : Bool := b.driving || b.reversing || b.runon

def hbConfigBody (i : Nat) (f : HbFields) (s : State) : State × Reply :=
  let i := bridgeIdx i
  let b := i / 14
  if (s.bridge b).moving then (s, .fail stat_badState)
  else if hbConflict (s.chan i).prof (hbBlockOf f) then (s, .fail stat_chProfileConflict)
  else
    let t := s.modChan i (fun c => { c with prof := { c.prof with hb := hbBlockOf f } })
    (if (s.chan i).prof.hb.rippleEn && !(hbBlockOf f).rippleEn then losePos b t else t, .ok [])

def execChHbConfig (r : Req) (ch : U16) (f : HbFields) (s : State) : Result :=
  .next (runCmd r { code := 0x0320, lenOk := decide (r.len = 18), need := chNeed s ch.toNat
                    payload := orStat (chIndex ch.toNat (decide (chClass ch.toNat = .half)))
                      (orStat (needStat (decide (f.flags.toNat < 32)) stat_badPayload) (needStat (hbRange (hbBlockOf f)) stat_range))
                    modeOk := s.sys.mode.isRunLimpWork }
    (fun _ s => hbConfigBody ch.toNat f s) s)

/-- A drive command (R141, R149): latched refuses forward and reverse; a target needs `POS_VALID`. -/
def hbDriveBody (r : Req) (i drive prio duty phase : Nat) (tgt : Bool) (target : U32) (s : State) : State × Reply :=
  let i := bridgeIdx i
  if (decide (drive = 1) || decide (drive = 2)) && (s.chan i).grd.latched then (s, .fail stat_chLatched)
  else if tgt && !(s.bridge (i / 14)).posValid then (s, .fail stat_hbPosInvalid)
  else
    let t := mailboxSw r i ((driveOut drive duty phase).getD .off) prio (if tgt then some target else none) (hbrWord drive tgt prio phase duty)
      (some target) s
    (t, .ok (le32 (t.chStatus i) ++ le32 ((t.bridge (i / 14)).stateWord (t.ripAct (i / 14)))))

def execChHbDrive (r : Req) (ch : U16) (drive prio : Byte) (duty : U16) (phase flags : Byte) (target : U32) (s : State) : Result :=
  .next (runCmd r { code := 0x0321, lenOk := decide (r.len = 12), need := chNeed s ch.toNat
                    payload := orStat (chIndex ch.toNat (decide (chClass ch.toNat = .half)))
                      (orStat (needStat (decide (drive.toNat ≤ 4) && decide (flags.toNat ≤ 1)) stat_badPayload)
                        (orStat (needStat (decide (duty.toNat ≤ 10000) || decide (3 ≤ drive.toNat) || decide (drive = 0)) stat_range)
                          (prioStat s r prio.toNat)))
                    modeOk := s.sys.mode.isRunLimpWork }
    (fun _ s => hbDriveBody r ch.toNat drive.toNat prio.toNat duty.toNat phase.toNat (flagOf flags 0) target s) s)

/-- Read the position, or preset it: `POS_VALID` sets, the movement's counts clear (R140, the text after Table 5.19). -/
def hbPositionBody (i : Nat) (op : Byte) (value : U32) (s : State) : State × Reply :=
  let b := bridgeIdx i / 14
  if decide (op = 1) && (s.bridge b).moving then (s, .fail stat_badState)
  else
    let t := if op = 1 then
        s.modBridge b (fun x => { x with pos := value, posValid := true, inserted := 0, rejected := 0 })
      else s
    let x := t.bridge b
    (t, .ok (le32 x.pos ++ [byteOf (bit x.posValid), 0, byteOf (min 255 x.inserted), byteOf (min 255 x.rejected)] ++ i32 (x.rate (t.ripAct b))))

def execChHbPosition (r : Req) (ch : U16) (op : Byte) (value : U32) (s : State) : Result :=
  .next (runCmd r { code := 0x0322, lenOk := decide (r.len = 8), need := chNeed s ch.toNat
                    payload := orStat (chIndex ch.toNat (decide (chClass ch.toNat = .half)))
                      (needStat (decide (op.toNat ≤ 1)) stat_badPayload)
                    modeOk := s.sys.mode.isRunLimpWork }
    (fun _ s => hbPositionBody ch.toNat op value s) s)

/-- The block that `CH.VLV_CONFIG` asks for. -/
def vlvBlockOf (p : Profile) (flags : Byte) (amp freq bw : U16) : VlvBlock :=
  { p.vlv with square := flagOf flags 0, compOff := flagOf flags 1, dithAmp := amp.toNat, dithF := freq.toNat, bw := bw.toNat }

/-- Override a valve's flags, dither and bandwidth; a running dither takes them at its next period (R143). -/
def vlvConfigBody (i : Nat) (flags : Byte) (amp freq bw : U16) (s : State) : State × Reply :=
  let blk := vlvBlockOf (s.chan i).prof flags amp freq bw
  if vlvConflict (s.chan i).prof blk then (s, .fail stat_chProfileConflict)
  else if (s.valve (chanVlv i)).dithAct then (s.modValve (chanVlv i) (fun v => { v with newDither := some blk }), .ok [])
  else ((s.modChan i (fun c => { c with prof := { c.prof with vlv := blk } })).modValve (chanVlv i) (fun v => { v with newDither := none }), .ok [])

def execChVlvConfig (r : Req) (ch : U16) (flags : Byte) (amp freq bw : U16) (s : State) : Result :=
  .next (runCmd r { code := 0x0330, lenOk := decide (r.len = 10), need := chNeed s ch.toNat
                    payload := orStat (chIndex ch.toNat (decide (chClass ch.toNat = .valve)))
                      (orStat (needStat (decide (flags.toNat ≤ 3)) stat_badPayload)
                        (needStat (dithRange (vlvBlockOf (s.chan ch.toNat).prof flags amp freq bw)) stat_range))
                    modeOk := s.sys.mode.isRunLimpWork }
    (fun _ s => vlvConfigBody ch.toNat flags amp freq bw s) s)

def vlvSetBody (r : Req) (i prio : Nat) (en : Bool) (ma : Nat) (s : State) : State × Reply :=
  if en && (s.chan i).grd.latched then (s, .fail stat_chLatched)
  else
    let t := mailboxSw r i (if en then .regulate ma else .off) prio none (vlvWord en prio ma) none s
    (t, .ok (le32 (t.chStatus i)))

def execChVlvSet (r : Req) (ch : U16) (prio enable : Byte) (ma : U16) (s : State) : Result :=
  .next (runCmd r { code := 0x0331, lenOk := decide (r.len = 8), need := chNeed s ch.toNat
                    payload := orStat (chIndex ch.toNat (decide (chClass ch.toNat = .valve)))
                      (orStat (needStat (decide (enable.toNat ≤ 1)) stat_badPayload)
                        (orStat (needStat (decide (ma.toNat ≤ 3000)) stat_range) (prioStat s r prio.toNat)))
                    modeOk := s.sys.mode.isRunLimpWork }
    (fun _ s => vlvSetBody r ch.toNat prio.toNat (decide (enable = 1)) ma.toNat s) s)

/-- Achieved mean in mA, 0xFFFF while faulted. -/
def Chan.achieved (c : Chan) : Nat := if c.faulted then 0xFFFF else min c.sense.iAvg 0x3FFE * 4000 / 16384

def execChVlvStatus (r : Req) (ch : U16) (s : State) : Result :=
  .next (runCmd r { code := 0x0332, lenOk := decide (r.len = 2), need := chNeed s ch.toNat
                    payload := chIndex ch.toNat (decide (chClass ch.toNat = .valve)), modeOk := s.sys.mode.isRunLimpWork }
    (fun _ s =>
      let c := s.chan ch.toNat
      let v := s.valve (chanVlv ch.toNat)
      (s, .ok (n16 v.target ++ n16 c.achieved ++ n16 v.duty
        ++ [byteOf (bit v.compliance + 2 * bit v.sat + 4 * bit c.grd.ol + 8 * bit v.ceil), 0] ++ i16 c.sense.vg ++ n16 v.rEst
        ++ n16 v.compCount ++ zeros 2))) s)

end Sys2Proof.Machine
end

