-- ==== Sys2Proof/Machine/Signals.lean ====
section
/-! DEFINITION. The signal exchange: source PDU events, transforms, substitutes, policies and sinks (R336 to R354). -/

namespace Sys2Proof.Machine

def State.diInput (s : State) (n : Nat) : DiInput := s.fio.di.getD .reset n
def State.aiInput (s : State) (n : Nat) : AiInput := s.fio.ai.getD .reset n
def State.xch (s : State) (k : Nat) : XChan := s.fio.x.getD .reset k

def State.sigRun (s : State) (i : Nat) : SigRun := s.sig.runs.getD .reset i
def State.pduRun (s : State) (p : Nat) : PduRun := s.sig.pduRuns.getD .reset p

def State.modSig (s : State) (f : SigState → SigState) : State := { s with sig := f s.sig }

def State.modRun (s : State) (i : Nat) (f : SigRun → SigRun) : State :=
  s.modSig (fun g => { g with runs := g.runs.modify .reset i f })

def State.modPdu (s : State) (p : Nat) (f : PduRun → PduRun) : State :=
  s.modSig (fun g => { g with pduRuns := g.pduRuns.modify .reset p f })

/-- Power domain of descriptors 32,768 × b and up; the pipelines lie in the first (R350). -/
def pdSig (b : Nat) : Nat := 74 + b

/-- The exchange runs from Start-up step 13, in Run, Limp and Workshop (R350). -/
def State.sigOn (s : State) : Bool := decide (13 ≤ s.sys.step) && s.sys.mode.isServing && s.powered (pdSig 0)

/-! ### Kind fields (Table 12.3) -/

def PduDesc.byte (d : PduDesc) (o : Nat) : Nat := (d.fields.getD (o - 12) 0).toNat
def PduDesc.half (d : PduDesc) (o : Nat) : Nat := d.byte o + 256 * d.byte (o + 1)
def PduDesc.word (d : PduDesc) (o : Nat) : U32 := BitVec.ofNat 32 (d.half o + 65536 * d.half (o + 2))
def PduDesc.mac (d : PduDesc) : BitVec 48 := BitVec.ofNat 48 ((List.range 6).foldl (fun a k => a * 256 + d.byte (20 + k)) 0)

/-- Length of a PDU: LENGTH for kinds 1 to 8, else fixed (R336, R337). -/
def PduDesc.size (d : PduDesc) : Nat :=
  match d.kind with
  | 9 | 10 => 8
  | 11 => 4
  | 12 => 120
  | 13 => 16
  | 14 => 20
  | _ => d.length

def isSource (kind : Nat) : Bool := [1, 3, 5, 7, 9, 12, 13, 14].contains kind
def isSink (kind : Nat) : Bool := [2, 4, 6, 8, 10, 11].contains kind

/-- The PDUs of which `f` holds, lowest index first. -/
def State.pdusWith (s : State) (f : PduDesc → Bool) : List Nat := (s.sig.pdus.cells.filter (fun c => f c.2)).map (·.1)

/-! ### Fields of a PDU (R340) -/

/-- From a big-endian field's most significant bit, the bits downwards. -/
def bigBits : Nat → Nat → List Nat
  | 0, _ => []
  | n + 1, b => b :: bigBits n (if b % 8 = 0 then b + 15 else b - 1)

/-- The bits of a field, least significant first. -/
def fieldBits (pos len : Nat) (bo : Bool) : List Nat :=
  if bo then (bigBits len pos).reverse else (List.range len).map (pos + ·)

def bitAt (data : List Byte) (b : Nat) : Bool := (data.getD (b / 8) 0).getLsbD (b % 8)

def getField (data : List Byte) : List Nat → Nat
  | [] => 0
  | b :: r => bit (bitAt data b) + 2 * getField data r

def setBitAt (data : List Byte) (b : Nat) (v : Bool) : List Byte :=
  data.set (b / 8) (let x := data.getD (b / 8) 0
    if v then x ||| byteOf (2 ^ (b % 8)) else x &&& ~~~ (byteOf (2 ^ (b % 8))))

def putField (data : List Byte) (v : Nat) : List Nat → List Byte
  | [] => data
  | b :: r => putField (setBitAt data b (decide (v % 2 = 1))) (v / 2) r

def SigDesc.bits (d : SigDesc) : List Nat := fieldBits d.bitpos d.len d.bo

/-- The 18-bit entry index of a `RING_RX` signal. -/
def SigDesc.entry (d : SigDesc) : Nat := d.idxHi * 65536 + d.bitpos

/-- The raw field as the number it is. -/
def SigDesc.raw (d : SigDesc) (u : Nat) : Int :=
  if d.signed && decide (2 ^ (d.len - 1) ≤ u) then (u : Int) - ((2 ^ d.len : Nat) : Int) else u

/-! ### Transforms (Table 12.5) -/

/-- `n ÷ 2^k`, rounded half to even. -/
def roundHalfEven (n : Int) (k : Nat) : Int :=
  let den : Int := ((2 ^ k : Nat) : Int)
  let q := n / den
  let r := n % den
  if 2 * r < den then q else if den < 2 * r then q + 1 else if q % 2 = 0 then q else q + 1

/-- The value, whether it clamped, and the memory of THRESHOLD. -/
def SigDesc.transformed (d : SigDesc) (lookup : Tbl U32) (thr : Bool) (r : Int) : Int × Bool × Bool :=
  let a := d.argA.toInt
  let b := d.argB.toInt
  match d.transform with
  | 1 => (roundHalfEven (r * a) (Machine.bits d.argB 0 6) + (d.argB.extractLsb' 8 24).toInt, false, thr)
  | 2 =>
    let i := min (max r 0) ((max 1 d.argB.toNat : Nat) - 1 : Int)
    ((lookup.getD 0 (d.argA.toNat + i.toNat)).toInt, decide (i ≠ r), thr)
  | 3 => let v := min (max r a) b; (v, decide (v ≠ r), thr)
  | 4 => ((((BitVec.ofInt 64 r).toNat / 2 ^ Machine.bits d.argB 0 6) &&& d.argA.toNat : Nat), false, thr)
  | 5 => let t := if a ≤ r then true else if r ≤ b then false else thr; (bit t, false, t)
  | 6 => ((BitVec.ofInt 96 r ^^^ BitVec.ofInt 96 a).toInt, false, thr)
  | 7 => (if r = 0 then a else b, false, thr)
  | _ => (r, false, thr)

/-! ### Age (R345 to R347) -/

/-- The descriptor whose reference names `i`. -/
def SigState.referrer (g : SigState) (i : Nat) : Option Nat :=
  (g.descs.cells.find? (fun c => decide (c.2.kind ≠ .sink) && c.2.sinks.contains i)).map (·.1)

/-- The SIGNAL at the root of a chain. -/
def SigState.root (g : SigState) : Nat → Nat → Nat
  | 0, i => i
  | n + 1, i =>
    match g.descs.get? i with
    | some d => if d.kind = .signal then i else
      match g.referrer i with
      | some j => g.root n j
      | none => i
    | none => i

def sigDepth : Nat := 6

/-- Age of a signal: of its root's source PDU, or by its confirmed cycle (R345, R347). -/
def State.sigAge (s : State) (i : Nat) : Nat :=
  let k := s.sig.root sigDepth i
  match s.sig.descs.get? k with
  | some d =>
    if (s.sigRun i).loaded || (s.sigRun k).loaded then 255
    else if (s.sig.pdus.get? d.pdu).any (fun p => decide (p.kind = 5)) then
      match (s.sigRun k).conf with
      | some c => min 255 (s.ring.cycle - c).toNat
      | none => 255
    else if d.kind = .signal then (s.pduRun d.pdu).age else 255
  | none => 255

def State.sigOver (s : State) (i : Nat) : Bool :=
  match s.sig.descs.get? i with
  | some d => decide (d.ageLim ≠ 0) && decide (d.ageLim < s.sigAge i)
  | none => false

/-! ### Writing a signal -/

def ownerScope (v : Nat) : Scope := .owned (if v = 255 then none else some v)

/-- An event of a descriptor (R365). -/
def raiseSig (k : EvKind) (i owner : Nat) (s : State) : State := raise k owner (ownerScope owner) (n32 i) s

/-- `EVT_SIG_SUBST` and `EVT_SIG_SUBST_END`, at most 100 a second per VZF (R365). -/
def substEvent (i owner : Nat) (on : Bool) (s : State) : State :=
  let sec := s.now / Config.ticksPerSecond
  let r := s.sig.substRate.getD (sec, 0) owner
  let n := if r.1 = sec then r.2 else 0
  if n < 100 then
    raiseSig (if on then evt_sigSubst else evt_sigSubstEnd) i owner
      (s.modSig (fun g => { g with substRate := g.substRate.set owner (sec, n + 1) }))
  else s.modSig (fun g => { g with substHidden := g.substHidden + 1 })

/-- A signal takes a value: its substitute begins or ends, and its policy decides whether it writes now (R344, R346). -/
def offer (i : Nat) (d : SigDesc) (v : SigVal) (sub sat : Bool) (s : State) : State × Bool :=
  let x := s.sigRun i
  let s := if sub = x.subst then s else substEvent i d.owner sub s
  let s := s.modRun i (fun y => { y with cur := some v, curSat := sat, subst := sub })
  if d.policy = 1 then (s, false)
  else if x.written = some v ∧ x.writtenSubst = sub then (s, false)
  else if d.policy = 2 ∧ x.written.isSome ∧ s.now < x.stamp.toNat + d.interval * 60000 then
    (s.modRun i (fun y => { y with deferred := true }), false)
  else (s, true)

/-- The field's value for `v` and whether it was out of range (R342). -/
def SigDesc.clip (d : SigDesc) (v : SigVal) : Nat × Bool :=
  match v with
  | .notValid => (2 ^ d.len - 1, false)
  | .num x =>
    let lo : Int := if d.signed then -((2 ^ (d.len - 1) : Nat) : Int) else 0
    let hi : Int := if d.signed then ((2 ^ (d.len - 1) : Nat) : Int) - 1 else ((2 ^ d.len : Nat) : Int) - 1
    let y := min (max x lo) hi
    ((y % ((2 ^ d.len : Nat) : Int)).toNat, decide (y ≠ x))

/-- SINK `i` writes its field of its PDU for writer `w` (R342, R348, R351). -/
def sinkWrite (i w : Nat) (d : SigDesc) (v : SigVal) (s : State) : State × Bool :=
  if (s.sigRun i).disabled then (s, false)
  else match s.sig.pdus.get? d.pdu with
  | none => (s, false)
  | some p =>
    let c := d.clip v
    let s := s.modSig (fun g => { g with writes := g.writes + 1 })
    let s := s.modRun i (fun x => { x with field := c.1, once := true, fresh := true
                                           order := if x.fresh then x.order else s.sig.writes })
    if p.kind = 6 then (s, c.2)
    else
      let s := s.modPdu d.pdu (fun x =>
        { x with data := putField (if x.data.isEmpty then zeros p.size else x.data) c.1 d.bits, writer := some w })
      (s.modSig (fun g => { g with dirty := if p.kind = 10 ∨ g.dirty.contains d.pdu then g.dirty else g.dirty ++ [d.pdu] }), c.2)

/-- A signal's `SAT`, with its first event since the start (R342, R365). -/
def noteSat (i : Nat) (d : SigDesc) (sat : Bool) (s : State) : State :=
  let x := s.sigRun i
  let s := s.modRun i (fun y => { y with sat := sat, satRead := y.satRead || sat, satRaised := y.satRaised || sat })
  if sat && !x.satRaised then raiseSig evt_sigSat i d.owner s else s

/-- A CHAINED descriptor's value from its referrer's, with its own substitute (R341, R346). -/
def chainedValue (r : Nat) (t : SigDesc) (v : SigVal) (sub : Bool) (s : State) : SigVal × Bool × Bool × Bool :=
  let x := s.sigRun r
  if sub || s.sigOver r then (.num t.subst.toInt, true, false, x.thr)
  else match v with
  | .notValid => (.notValid, false, false, x.thr)
  | .num n =>
    let y := t.transformed s.sig.lookup x.thr n
    (.num y.1, false, y.2.1, y.2.2)

/-- Write a signal's sinks: references in order, each chain before the next reference (R343, R344). -/
def emit : Nat → Nat → State → State
  | 0, _, s => s
  | n + 1, i, s =>
    match s.sig.descs.get? i with
    | none => s
    | some d =>
      let x := s.sigRun i
      match x.cur with
      | none => s
      | some v =>
        if x.disabled then s
        else
          let s := s.modRun i (fun y => { y with written := some v, writtenSubst := y.subst, count := y.count + 1,
                                                 stamp := s.tb.count, deferred := false })
          let t := d.sinks.foldl (fun (a : State × Bool) r =>
            match a.1.sig.descs.get? r with
            | none => a
            | some t =>
              match t.kind with
              | .sink => let w := sinkWrite r i t v a.1; (w.1, a.2 || w.2)
              | .chained =>
                let c := chainedValue r t v x.subst a.1
                let o := offer r t c.1 c.2.1 c.2.2.1 (a.1.modRun r (fun y => { y with thr := c.2.2.2 }))
                (if o.2 then emit n r o.1 else o.1, a.2)
              | .signal => a) (s, x.curSat)
          noteSat i d t.2 t.1

/-! ### Sending a sink PDU (R344, R348) -/

/-- A command image of a `CH_CMD` PDU (R348): the owner's current generation, the PDU's priority under the cap of R97, no
effect in an orphan state; its sequence in `LSW_CH_ACK` is FREE. -/
def sendChCmd (p : PduDesc) (data : List Byte) (s : State) : State :=
  let i := p.half 12
  if s.chOwner i ≠ some p.owner ∨ (s.chan i).orphan.isSome then s
  else match cmdImage i (BitVec.ofNat 32 (getField data (List.range 32))) with
  | none => discardBad i s
  | some im =>
    if im.target && !(s.bridge (i / 14)).posValid then discardBad i s
    else
      let z := s.vzf p.owner
      enterSw i (capped { im with prio := p.byte 14 } z.tpl.maxPrio (s.chan i).targetReg z.gen (Config.free16 s.free)) s.draw

/-- Hand a `CAN_TX` image to its buffer, or keep it for the completion (R348). -/
def sendCan (q : Nat) (p : PduDesc) (data : List Byte) (s : State) : State :=
  let c := p.byte 12
  let e := p.byte 13
  if ((s.canCh c).txE e).own then
    s.modSig (fun g => { g with deferrals := satInc 0xFFFFFFFF g.deferrals
                                pduRuns := g.pduRuns.modify .reset q (fun x => { x with bufWaits := true }) })
  else
    canHand c e (p.byte 14) (flagOf (byteOf (p.byte 15)) 0) (flagOf (byteOf (p.byte 15)) 1) (p.word 16) data
      (s.modPdu q (fun x => { x with bufWaits := false }))

/-- The record of an I3 frame (Table 12.7). -/
def i3Record (id : U32) (kind : Nat) (data : List Byte) : List Byte :=
  let pad := (4 - data.length % 4) % 4
  le32 id ++ n16 data.length ++ [byteOf kind, 0] ++ data ++ zeros pad

/-- Send a sink PDU to its destination. -/
def sendPdu (q : Nat) (s : State) : State :=
  match s.sig.pdus.get? q with
  | none => s
  | some p =>
    let x := s.pduRun q
    let data := if x.data.isEmpty then zeros p.size else x.data
    let s := s.modPdu q (fun y => { y with lastSend := some s.now, sendWaits := false })
    if x.disabled then s
    else match p.kind with
    | 2 => sendCan q p data s
    | 4 => linPublish (p.byte 12) (p.byte 13) data s
    | 8 => s.modSig (fun g => { g with i3Out := g.i3Out ++
        [{ mac := p.mac, vid := p.half 16, pcp := p.byte 18, payload := i3Record (p.word 12) 0 data }] })
    | 11 => sendChCmd p data s
    | _ => s

/-- At the end of an event each written PDU leaves under its `TRIG` (R344). -/
def sendWritten (q : Nat) (s : State) : State :=
  match s.sig.pdus.get? q with
  | none => s
  | some p =>
    if p.kind = 11 ∨ p.trig = 0 then sendPdu q s
    else if p.trig = 1 then s
    else match (s.pduRun q).lastSend with
    | some t => if s.now < t + p.period * 60000 then s.modPdu q (fun x => { x with sendWaits := true }) else sendPdu q s
    | none => sendPdu q s

def flushSinks (s : State) : State :=
  s.sig.dirty.foldl (fun s q => sendWritten q s) (s.modSig (fun g => { g with dirty := [] }))

/-! ### Running a source PDU (R341 to R349) -/

/-- A field of `FIO_SNAP` holds a not-valid code (R346): 0b11 for DI and X, 0x3FFF for AI. -/
def snapNotValid (data : List Byte) (bs : List Nat) : Bool :=
  bs.any (fun b =>
    if b < 128 ∨ 896 ≤ b then decide (getField data [b / 2 * 2, b / 2 * 2 + 1] = 3)
    else decide (getField data ((List.range 14).map (b / 16 * 16 + ·)) = 0x3FFF))

/-- The raw field of a signal; none while a ring entry has never come. -/
def rawField (d : SigDesc) (p : PduDesc) (x : PduRun) : Option Nat :=
  if p.kind = 5 then x.entries.get? d.entry else some (getField x.data d.bits)

/-- What a SIGNAL becomes: value, substitute, clamped, memory of THRESHOLD (R341, R342, R346). -/
def signalValue (i : Nat) (d : SigDesc) (p : PduDesc) (s : State) : Option (SigVal × Bool × Bool × Bool) :=
  let x := s.pduRun d.pdu
  let thr := (s.sigRun i).thr
  let sub := some (SigVal.num d.subst.toInt, true, false, thr)
  if !x.valid || x.disabled || s.sigOver i then sub
  else match rawField d p x with
  | none => none
  | some u =>
    if p.kind = 12 && snapNotValid x.data d.bits then sub
    else if d.invEn && decide (u = 2 ^ d.len - 1) then
      (if d.invSubst then sub else some (.notValid, false, false, thr))
    else
      let y := d.transformed s.sig.lookup thr (d.raw u)
      some (.num y.1, false, y.2.1, y.2.2)

def runSignal (i : Nat) (d : SigDesc) (p : PduDesc) (s : State) : State :=
  if (s.sigRun i).disabled then s
  else match signalValue i d p s with
  | none => s
  | some v =>
    let o := offer i d v.1 v.2.1 v.2.2.1 (s.modRun i (fun y => { y with thr := v.2.2.2 }))
    if o.2 then emit sigDepth i o.1 else o.1

/-- The pipeline runs the PDU's SIGNAL descriptors in index order, and the sinks leave (R349, R344). -/
def runPdu (q : Nat) (s : State) : State :=
  match s.sig.pdus.get? q with
  | none => s
  | some p =>
    flushSinks (s.sig.descs.cells.foldl (fun s c =>
      if c.2.kind = .signal ∧ c.2.pdu = q then runSignal c.1 c.2 p s else s) s)

/-! ### Ring entries (R347, R351, R353) -/

/-- The entries of a `SIG` payload: index, bits and value. -/
def sigEntries : Nat → List Byte → List (Nat × Nat × Nat)
  | 0, _ => []
  | n + 1, a :: b :: c :: r =>
    let head := a.toNat + 256 * b.toNat + 65536 * c.toNat
    let len := head % 64 + 1
    let w := (len + 7) / 8
    if head = 0xFFFFFF ∨ r.length < w then []
    else (head / 64, len, getField r (List.range len)) :: sigEntries n (r.drop w)
  | _, _ => []

/-- One received entry (R353). -/
def takeEntry (q : Nat) (origin : U32) (e : Nat × Nat × Nat) (s : State) : State :=
  let named := s.sig.descs.cells.filter (fun c => decide (c.2.kind = .signal) && decide (c.2.pdu = q) && decide (c.2.entry = e.1))
  if named.isEmpty then s.modSig (fun g => { g with ignoredEntries := g.ignoredEntries + 1 })
  else named.foldl (fun s c =>
    if c.2.len ≠ e.2.1 then s.modSig (fun g => { g with wrongLength := g.wrongLength + 1 })
    else (s.modPdu q (fun x => { x with entries := x.entries.set e.1 e.2.2 })).modRun c.1 (fun x => { x with conf := some origin })) s

/-- Signals confirmed in the cycle before follow a frame that closes up to it (R347). -/
def confirmRest (q : Nat) (origin : U32) (s : State) : State :=
  if (s.pduRun q).lastOrigin = some (origin - 1) then
    s.sig.descs.cells.foldl (fun s c =>
      if c.2.kind = .signal ∧ c.2.pdu = q ∧ (s.sigRun c.1).conf = some (origin - 1)
      then s.modRun c.1 (fun x => { x with conf := some origin }) else s) s
  else s

def takeRing (q : Nat) (ev : SigEvent) (s : State) : State :=
  let s := (sigEntries ev.data.length ev.data).foldl (fun s e => takeEntry q ev.origin e s) s
  (confirmRest q ev.origin s).modPdu q (fun x => { x with lastOrigin := some ev.origin })

/-- An update of PDU `q` ends the first age of the descriptors loaded since (R345, R355). -/
def clearLoaded (q : Nat) (s : State) : State :=
  s.modSig (fun g => { g with runs := g.runs.mapAll (fun i x =>
    { x with loaded := x.loaded && !(g.descs.get? (g.root sigDepth i)).any (fun d => decide (d.pdu = q)) }) })

/-- The pipeline takes a source PDU event: the data, age 0 and validity, then its descriptors (R338, R345, R349). -/
def runEvent (ev : SigEvent) (s : State) : State :=
  let ring := (s.sig.pdus.get? ev.pdu).any (fun p => decide (p.kind = 5))
  let s := s.modPdu ev.pdu (fun x => { x with data := if ring then x.data else ev.data, valid := true, age := 0 })
  runPdu ev.pdu (clearLoaded ev.pdu (if ring then takeRing ev.pdu ev s else s))

/-- A source PDU event at its pipeline; a full queue drops it (R349). -/
def sigArrive (q : Nat) (data : List Byte) (origin : U32) (s : State) : State :=
  if !s.sigOn || (s.pduRun q).disabled then s
  else
    let l := s.sig.queues.getD [] (q % 4)
    if l.length < 4096 then
      s.modSig (fun g => { g with queues := g.queues.set (q % 4) (l ++ [{ pdu := q, data := data, origin := origin }]) })
    else
      let t := s.modSig (fun g => { g with dropped := g.dropped + 1 })
      if s.sig.overloadAt.any (fun a => decide (s.now < a + Config.ticksPerSecond)) then t
      else raise evt_sigOverload noInst .wide [] (t.modSig (fun g => { g with overloadAt := some s.now }))

/-- Every PDU of which `f` holds is updated with `data`. -/
def arriveAll (f : PduDesc → Bool) (data : List Byte) (s : State) : State :=
  (s.pdusWith f).foldl (fun s q => sigArrive q data 0 s) s

/-! ### Sources -/

def pack4 (codes : List Nat) : Byte :=
  byteOf (codes.getD 0 3 % 4 + codes.getD 1 3 % 4 * 4 + codes.getD 2 3 % 4 * 16 + codes.getD 3 3 % 4 * 64)

def packStates (n : Nat) (f : Nat → Nat) : List Byte :=
  (List.range (n / 4)).map (fun k => pack4 [f (4 * k), f (4 * k + 1), f (4 * k + 2), f (4 * k + 3)])

/-- The 120 bytes of `FIO_SNAP` (Table 12.1). -/
def State.fioSnap (s : State) : List Byte :=
  packStates 64 (fun n => (s.diInput n).state.code) ++ (List.range 48).flatMap (fun n => n16 ((s.aiInput n).code % 16384))
    ++ packStates 32 (fun k => (s.xch k).state)

def fioSnapUpdate (s : State) : State := arriveAll (fun p => decide (p.kind = 12)) s.fioSnap s

/-- `CH_STAT` at a status update (R122). -/
def chStatUpdate (i : Nat) (s : State) : State :=
  arriveAll (fun p => decide (p.kind = 13) && decide (bridgeIdx (p.half 12) = i)) ((s.statusBytes i).take 16) s

/-! ### Ages and predicates -/

/-- Kinds whose age rises by steps: those updated from outside (R345). -/
def stepped (kind : Nat) : Bool := [1, 3, 7, 9].contains kind

/-- One age step: each PDU's age rises, and the PDUs run of which a signal has now passed its `AGE_LIM` (R345, R346). -/
def ageStep (s : State) : State :=
  if !s.sigOn then s
  else
    let s := s.modSig (fun g => { g with pduRuns := g.pduRuns.mapAll (fun q x =>
      if (g.pdus.get? q).any (fun p => stepped p.kind) then { x with age := satInc 255 x.age } else x) })
    let late := s.sig.descs.cells.filter (fun c => decide (c.2.kind ≠ .sink) && s.sigOver c.1 && !(s.sigRun c.1).subst)
    let qs := late.filterMap (fun c => (s.sig.descs.get? (s.sig.root sigDepth c.1)).map (·.pdu))
    (s.sig.pdus.keys.filter (fun q => qs.contains q)).foldl (fun s q => runPdu q s) s

/-- A SIG predicate (Table 8.5): on the value of the sink, or the value last written; age and substitute of the signal. -/
def sigPredicate (s : State) (src cond : Nat) (arg : U32) : Bool :=
  match s.sig.descs.get? src with
  | none => false
  | some d =>
    let i := if d.kind = .sink then (s.sig.referrer src).getD src else src
    let x := s.sigRun i
    let sink := s.sigRun src
    let low : Option U32 := if d.kind = .sink then (if sink.once && decide (x.written ≠ some .notValid)
        then some (BitVec.ofInt 32 (d.raw sink.field)) else none)
      else match x.written with
        | some (.num v) => some (BitVec.ofInt 32 v)
        | _ => none
    match cond with
    | 5 => decide (arg.toNat ≤ s.sigAge i)
    | 6 => x.subst
    | _ =>
      match low with
      | none => false
      | some v =>
        match cond with
        | 0 => decide (v = arg)
        | 1 => decide (v ≠ arg)
        | 2 => decide (arg.toInt < v.toInt)
        | 3 => decide (v.toInt < arg.toInt)
        | 4 => decide (v &&& arg ≠ 0)
        | _ => false

end Sys2Proof.Machine
end

