-- ==== Sys2Proof/Machine/Press.lean ====
section
/-! DEFINITION. Captures of the press codec (R364). -/

namespace Sys2Proof.Machine

def State.stream (s : State) (n : Nat) : PrsStream := s.sig.streams.getD .reset n

/-- The started stream that takes a source (R359). -/
def SigState.streamOf (g : SigState) (src : Nat) : Option (Nat × PrsConfig) :=
  g.streams.cells.findSome? (fun c =>
    if c.2.started then c.2.config.bind (fun f => if f.sources.contains src then some (c.1, f) else none) else none)

/-- The lowest free place of an engine's sixteen captures; capture IDs are 16 × engine + place. -/
def SigState.freeCapture (g : SigState) (engine : Nat) : Option Nat :=
  (List.range 16).map (16 * engine + ·) |>.find? (fun k => (g.captures.get? k).isNone)

def SigState.capturing (g : SigState) (src : Nat) : Bool :=
  g.captures.cells.any (fun c => decide (c.2.source = src) && !c.2.complete)

/-- The last `n` of a list, with FREE samples in front where there are fewer. -/
def lastSamples (n k : Nat) (l : List Int) : List Int :=
  (List.range (n - l.length)).map (fun j => (Config.free16 (k + j)).toInt) ++ l.drop (l.length - n)

/-- Start a capture of a source: its ID, none where it is discarded and counted (R364). -/
def startCapture (src : Nat) (s : State) : State × Option Nat :=
  match s.sig.streamOf src with
  | none => (s, none)
  | some (n, f) =>
    if !f.capEn then (s, none)
    else if s.sig.capturing src then (s.modSig (fun g => { g with captureDiscards := g.captureDiscards + 1 }), none)
    else match s.sig.freeCapture (n % 4) with
    | none =>
      (raise evt_prsCaptureFull n (.owned f.owner) [] (s.modSig (fun g => { g with captureDiscards := g.captureDiscards + 1 })), none)
    | some k =>
      let c : Capture4k :=
        { source := src, stream := n, at_ := s.tb.count, pre := f.pre, complete := false
          samples := lastSamples f.pre s.free (s.sig.recent.getD [] src) }
      ({ s.modSig (fun g => { g with captures := g.captures.set k c }) with free := s.free + f.pre }, some k)

/-- A trip or a hand-over triggers a capture of its source (R364). -/
def prsTrigger (src : Nat) (s : State) : State := (startCapture src s).1

end Sys2Proof.Machine
end

