-- ==== Sys2Proof/Machine/Nm.lean ====
section
/-! DEFINITION. The CAN channel's wake and sleep, and consent-ring network management (R315 to R320). -/

namespace Sys2Proof.Machine

/-- An event of CAN, LIN or NM channel `c` (R333). -/
def raiseCan (k : EvKind) (c : Nat) (data : List Byte) (s : State) : State := raise k c (.owned (s.canOwner c)) data s

/-- Take up bus operation (Table 11.3): the transceiver in normal mode, or receive-only when listening (R310). -/
def canIntegrate (c : Nat) (s : State) : State :=
  s.modCan c (fun x => { x with mode := .integrating, waking := false
                                xcvr := if canListen x.record then .receiveOnly else .normal })

/-- The ring wakes: the ZM9 sends `ALIVE` once the channel has integrated (R317, R320). -/
def nmAwake (c : Nat) (s : State) : State :=
  if !s.nmOn c || (s.nmRing c).awake then s
  else raiseCan evt_nmAwake c [] (s.modNm c (fun n => { n with awake := true, join := true }))

/-- A sleeping channel wakes. -/
def canWakeCh (c : Nat) (s : State) : State := nmAwake c (canIntegrate c s)

/-! ### Messages -/

/-- The ZM9's consent on a channel (R318). -/
def State.nmConsent (s : State) (c : Nat) : Bool :=
  (s.nmRing c).holders.isEmpty && (decide (s.sys.mode = .run) || decide (s.sys.mode = .limp))

def NmRing.me (n : NmRing) : Nat := n.record.node.toNat % 64

def u64Bit (k : Nat) : U64 := BitVec.ofNat 64 (2 ^ k)

/-- The lowest present node, and the next present node above `k`. -/
def lowestNode (present : U64) : Option Nat := (List.range 64).find? (fun k => present.getLsbD k)
def nextNode (present : U64) (k : Nat) : Option Nat := (List.range 64).find? (fun j => decide (k < j) && present.getLsbD j)

/-- A message of this node with nothing but its consent and role. -/
def State.nmPlain (s : State) (c : Nat) : NmMsg :=
  let n := s.nmRing c
  { sender := n.me, succ := none, consent := s.nmConsent c, sleepInd := false, override := false, alive := false,
    coord := n.coordRole, roundConsent := false, round := n.round }

/-- Send a message; the first after a sleep starts the awake time (R319). -/
def nmPost (c : Nat) (m : NmMsg) (s : State) : State :=
  nmSend c m (s.modNm c (fun n => { n with awakeFrom := some (n.awakeFrom.getD s.now) }))

/-- Send `ALIVE`, and the ring forms (R317). -/
def nmAlive (c : Nat) (s : State) : State :=
  let s := s.modNm c (fun n => { n with join := false, forming := true, formed := false, holding := false, awaited := none
                                        sleepNext := false, present := u64Bit n.me })
  nmPost c { s.nmPlain c with alive := true } s

/-! ### The token -/

/-- The lowest node's message: a new round, or `SLEEP_IND` after a round of consent (R317). -/
def nmLead (c : Nat) (s : State) : State :=
  let n := s.nmRing c
  let cons := s.nmConsent c
  if n.sleepNext then
    nmPost c { s.nmPlain c with sleepInd := true }
      (s.modNm c (fun n => { n with sleepNext := false, holding := false, sleeping := true, awaited := none }))
  else
    let own := if cons then u64Bit n.me else 0
    match nextNode n.present n.me with
    | some k =>
      let s := s.modNm c (fun n => { n with round := n.round + 1, curConsent := own, holding := false, awaited := some k, formed := true })
      nmPost c { s.nmPlain c with succ := some k, roundConsent := cons } s
    | none =>
      let s := s.modNm c (fun n => { n with round := n.round + 1, curConsent := own, lastConsent := own, sleepNext := cons, formed := true })
      nmPost c { s.nmPlain c with succ := some n.me, roundConsent := cons } s

/-- Pass a received token on, with the AND of the consents (R317). -/
def nmFollow (c : Nat) (s : State) : State :=
  let n := s.nmRing c
  let cons := s.nmConsent c
  let k := ((nextNode n.present n.me).orElse (fun _ => lowestNode n.present)).getD n.me
  nmPost c { s.nmPlain c with succ := some k, roundConsent := n.roundConsent && cons }
    (s.modNm c (fun n => { n with holding := false, awaited := some k
                                  curConsent := if cons then n.curConsent ||| u64Bit n.me else n.curConsent }))

def nmTokenPass (c : Nat) (s : State) : State :=
  let n := s.nmRing c
  if !s.nmOn c || !n.holding || n.sleeping then s
  else if lowestNode n.present = some n.me then nmLead c s
  else nmFollow c s

def execNmTokenPass (c : Fin 16) (s : State) : Result := .next (nmTokenPass c.val s)

/-- The end of forming: the lowest address heard starts the first round (R317). -/
def nmFormed (c : Nat) (s : State) : State :=
  let n := s.nmRing c
  if !s.nmOn c || !n.forming then s
  else
    let s := s.modNm c (fun n => { n with forming := false })
    if lowestNode n.present = some n.me then nmLead c (s.modNm c (fun n => { n with holding := true })) else s

def execNmFormingTimeout (c : Fin 16) (s : State) : Result := .next (nmFormed c.val s)

/-- A silent successor is dropped and the token goes to the next present address after it (R317). -/
def nmSkip (c : Nat) (s : State) : State :=
  let n := s.nmRing c
  match n.awaited with
  | none => s
  | some k =>
    if !s.nmOn c || n.sleeping then s
    else
      let s := raiseCan evt_nmSkip c [byteOf k] (s.modNm c (fun n => { n with present := n.present &&& ~~~ (u64Bit k), awaited := none }))
      let p := (s.nmRing c).present
      let lead := decide (lowestNode p = some n.me)
      let next := ((nextNode p k).orElse (fun _ => lowestNode p)).getD n.me
      let s := s.modNm c (fun n => { n with awaited := if next = n.me then none else some next, holding := decide (next = n.me)
                                            lastConsent := if lead && decide (next = n.me) then n.curConsent else n.lastConsent
                                            sleepNext := if lead && decide (next = n.me) then s.nmConsent c else n.sleepNext })
      nmPost c { s.nmPlain c with succ := some next, roundConsent := (n.roundConsent || lead) && s.nmConsent c } s

def execNmHopTimeout (c : Fin 16) (s : State) : Result := .next (nmSkip c.val s)

def execNmTokenLost (c : Fin 16) (s : State) : Result :=
  .next (if s.nmOn c.val && (s.nmRing c.val).awake && !(s.nmRing c.val).sleeping then nmAlive c.val s else s)

/-! ### Receiving -/

/-- An NM message, if the frame has its layout (R316). -/
def nmParse (base : Nat) (id dlc : Nat) (d : List Byte) : Option NmMsg :=
  let f := d.getD 2 0
  let succ := (d.getD 1 0xFF).toNat
  if base ≤ id ∧ id < base + 64 ∧ dlc = 8 ∧ d.length = 8 ∧ (d.getD 0 0).toNat = id - base ∧ (succ < 64 ∨ succ = 255) ∧ f.toNat < 64
      ∧ (d.drop 4).all (· == 0) then
    some { sender := id - base, succ := if succ = 255 then none else some succ, consent := flagOf f 0, sleepInd := flagOf f 1,
           override := flagOf f 2, alive := flagOf f 3, coord := flagOf f 4, roundConsent := flagOf f 5, round := d.getD 3 0 }
  else none

/-- An override ends every awake request on the ring (R320). -/
def nmOverride (c : Nat) (s : State) : State :=
  let had := !(s.nmRing c).holders.isEmpty
  let s := s.modNm c (fun n => { n with holders := [], override := true })
  if had then raiseCan evt_nmOverridden c [] s else s

/-- Another coordinator: the lower address keeps the role (R319). -/
def nmCoord (c : Nat) (m : NmMsg) (s : State) : State :=
  if !m.coord then s
  else
    let n := s.nmRing c
    let s := s.modNm c (fun x => { x with coordinator := some m.sender, coordRole := x.coordRole && !decide (m.sender < x.me) })
    if n.coordRole then raiseCan evt_nmCoordConflict c [] s else s

/-- Presence, consents and the round (R317). -/
def NmRing.hear (n : NmRing) (m : NmMsg) (now : Nat) : NmRing :=
  let n := { n with present := n.present ||| u64Bit m.sender ||| u64Bit n.me, awakeFrom := some (n.awakeFrom.getD now)
                    awaited := if n.awaited = some m.sender then none else n.awaited, forming := n.forming || (m.alive && !n.formed) }
  let bit := if m.consent then u64Bit m.sender else 0
  if m.succ.isNone then n
  else if lowestNode n.present = some m.sender then
    { n with lastConsent := if n.formed then n.curConsent else n.lastConsent, curConsent := bit, round := m.round, formed := true, forming := false }
  else { n with curConsent := (n.curConsent &&& ~~~ (u64Bit m.sender)) ||| bit, formed := true, forming := false }

/-- The token comes to this node; at the lowest node it ends the round (R317). -/
def NmRing.takeToken (n : NmRing) (m : NmMsg) : NmRing :=
  if m.succ ≠ some n.me then n
  else
    let n := { n with holding := true, roundConsent := m.roundConsent }
    if lowestNode n.present = some n.me then { n with lastConsent := n.curConsent, sleepNext := m.roundConsent } else n

/-- `SLEEP_IND` starts the 1.5 s; a message without consent ends them unless overridden (R317, R319). -/
def nmSleepBits (c : Nat) (m : NmMsg) (s : State) : State :=
  if m.sleepInd then
    let s := s.modNm c (fun n => { n with sleeping := true, holding := false, awaited := none, override := n.override || m.override })
    if m.override then nmOverride c s else s
  else if (s.nmRing c).sleeping && !(s.nmRing c).override && !m.consent then
    s.modNm c (fun n => { n with sleeping := false, sleepNext := false, holding := decide (lowestNode n.present = some n.me) })
  else s

def nmReceive (c id dlc : Nat) (d : List Byte) (s : State) : State :=
  if !s.nmOn c || !(s.nmRing c).awake then s
  else match nmParse (s.nmRing c).record.base.toNat id dlc d with
  | none => s.modNm c (fun n => { n with ignored := n.ignored + 1 })
  | some m => nmSleepBits c m (nmCoord c m (s.modNm c (fun n => (n.hear m s.now).takeToken m)))

def execNmMessageReceived (c : Fin 16) (id : BitVec 11) (dlc : Fin 16) (data : List Byte) (s : State) : Result :=
  .next (nmReceive c.val id.toNat dlc.val data s)

/-! ### Sleep -/

/-- The channel sleeps: pending entries end as aborted, the transceiver goes to low power with its wake setting armed
(R306, R320, R323). -/
def canSleep (c : Nat) (s : State) : State :=
  let s := (s.canCh c).pending.foldl (fun s e => canFinish c e canAborted false s.tb.count s) s
  s.modCan c (fun x => { x with mode := .sleep, attempt := none, pending := [], xcvr := .lowPower, sieveErr := 0 })

def nmSleepNow (c : Nat) (s : State) : State :=
  if !s.nmOn c || !(s.nmRing c).sleeping then s
  else
    raiseCan evt_nmSleep c [] ((canSleep c s).modNm c (fun n =>
      { n with awake := false, join := false, forming := false, formed := false, present := 0, holding := false, sleepNext := false,
               awaited := none, sleeping := false, override := false, awakeFrom := none, outbox := none }))

def execNmSleepTimer (c : Fin 16) (s : State) : Result := .next (nmSleepNow c.val s)

/-- T_MAX as coordinator: sleep whatever the consents (R319, R320). -/
def nmOverstay (c : Nat) (s : State) : State :=
  let n := s.nmRing c
  if !s.nmOn c || !n.coordRole || !n.awake || n.sleeping then s
  else
    let s := raiseCan evt_nmOverstay c (le64 (n.present &&& ~~~ n.lastConsent)) s
    let m := { s.nmPlain c with sleepInd := true, override := true }
    nmOverride c (nmPost c m (s.modNm c (fun n => { n with sleeping := true, holding := false, awaited := none })))

def execNmTmaxExpiry (c : Fin 16) (s : State) : Result := .next (nmOverstay c.val s)

/-! ### Commands (Table 11.19) -/

def canIndex (c : Byte) : Option U16 := needStat (decide (c.toNat ≤ 15)) stat_range

def canNeed (s : State) (c : Byte) : Need := if c.toNat ≤ 15 then .owner (s.canOwner c.toNat) else .any

/-- Allowed in Start-up from step 10 as well (R335). -/
def State.step10 (s : State) : Bool :=
  s.sys.mode.isRunLimpWork || (decide (s.sys.mode = .startup) && decide (10 ≤ s.sys.step))

def nmRecordOk (f : NmRecord) : Bool :=
  decide (f.node.toNat ≤ 63) && decide (f.base.toNat ≤ 0x7C0) && decide (1 ≤ f.tToken.toNat) && decide (f.tToken.toNat ≤ 1000)
    && decide (10 ≤ f.tHop.toNat) && decide (f.tHop.toNat ≤ 10000) && decide (1 ≤ f.tMax.toNat) && decide (f.tMax.toNat ≤ 14400)

/-- Buffer 31 or filter 63 is in use (R298). -/
def State.nmTaken (s : State) (c : Nat) : Bool :=
  (s.canCh c).record.sigTxb.getLsbD 31 || (((s.canCh c).txE 31).own && !s.nmOn c) || (((s.canCh c).filters.getD .reset 63).en && !s.nmOn c)

def nmSet (c : Nat) (f : NmRecord) (s : State) : State :=
  s.modNm c (fun _ => { NmRing.reset with record := f, coordRole := f.flags.getLsbD 1 && f.flags.getLsbD 0 })

def nmConfigBody (c : Nat) (f : NmRecord) (s : State) : State × Reply :=
  if (s.canCh c).mode ≠ .stopped then (s, .fail stat_badState)
  else if f.flags.getLsbD 0 && s.nmTaken c then (s, .fail stat_canReserved)
  else (nmSet c f s, .ok [])

def execNmConfig (r : Req) (c : Byte) (f : NmRecord) (s : State) : Result :=
  .next (runCmd r { code := 0x0B01, lenOk := decide (r.len = 20), need := .system
                    payload := orStat (canIndex c) (orStat (needStat (decide (f.flags.toNat < 4)) stat_badPayload)
                      (needStat (nmRecordOk f) stat_range))
                    modeOk := s.sys.mode.isRunLimpWork }
    (fun _ s => nmConfigBody c.toNat f s) s)

/-- Whose request a port's is: its own with the system privilege, else its VZF's (R318). -/
def awakeHolder (r : Req) (p : Port) : AwakeHolder :=
  match p.vzf with
  | some v => if p.sysPriv then .port r.port else .vzf v
  | none => .port r.port

/-- A new request: it wakes a sleeping channel, and cancels a sleep that is not overridden by a message without consent
(R317, R318, R320). -/
def nmHold (c : Nat) (h : AwakeHolder) (s : State) : State :=
  let s := s.modNm c (fun n => { n with holders := if n.holders.contains h then n.holders else n.holders ++ [h] })
  let n := s.nmRing c
  if (s.canCh c).mode = .sleep then canWakeCh c s
  else if n.sleeping && !n.override then
    let s := s.modNm c (fun n => { n with sleeping := false, sleepNext := false, holding := decide (lowestNode n.present = some n.me) })
    nmPost c (s.nmPlain c) s
  else s

def execNmRequestAwake (r : Req) (c : Byte) (s : State) : Result :=
  .next (runCmd r { code := 0x0B02, lenOk := decide (r.len = 4), need := canNeed s c, payload := canIndex c
                    modeOk := s.sys.mode.isRunLimpWork }
    (fun p s =>
      if !s.nmOn c.toNat then (s, .fail stat_nmOff)
      else
        let t := nmHold c.toNat (awakeHolder r p) s
        (t, .ok (bool8 (t.nmRing c.toNat).awake ++ zeros 3))) s)

def execNmRelease (r : Req) (c : Byte) (s : State) : Result :=
  .next (runCmd r { code := 0x0B03, lenOk := decide (r.len = 4), need := canNeed s c, payload := canIndex c
                    modeOk := s.sys.mode.isRunLimpWork }
    (fun p s =>
      if !s.nmOn c.toNat then (s, .fail stat_nmOff)
      else (s.modNm c.toNat (fun n => { n with holders := n.holders.filter (fun h => h != awakeHolder r p) }), .ok [])) s)

def execNmSetTmax (r : Req) (c : Byte) (tMax : U16) (s : State) : Result :=
  .next (runCmd r { code := 0x0B04, lenOk := decide (r.len = 4), need := .system
                    payload := orStat (canIndex c) (needStat (decide (1 ≤ tMax.toNat) && decide (tMax.toNat ≤ 14400)) stat_range)
                    modeOk := s.sys.mode.isRunLimpWork }
    (fun _ s =>
      if !s.nmOn c.toNat then (s, .fail stat_nmOff)
      else (s.modNm c.toNat (fun n => { n with record := { n.record with tMax := tMax } }), .ok [])) s)

def nmStatus (c : Nat) (s : State) : List Byte :=
  let n := s.nmRing c
  let secs := match n.awakeFrom with
    | some t => (s.now - t) / Config.ticksPerSecond
    | none => 0
  le64 n.present ++ le64 n.lastConsent ++ [n.round] ++ bool8 (s.nmConsent c) ++ n16 n.holders.length ++ n32 secs
    ++ [byteOf (if n.coordRole then n.me else n.coordinator.getD 255)] ++ zeros 7

def execNmGetStatus (r : Req) (c : Byte) (s : State) : Result :=
  .next (runCmd r { code := 0x0B05, lenOk := decide (r.len = 4), need := .any, payload := canIndex c, modeOk := s.step10 }
    (fun _ s => if !s.nmOn c.toNat then (s, .fail stat_nmOff) else (s, .ok (nmStatus c.toNat s))) s)

/-- Every network management ring sleeps (R34). -/
def State.nmAllAsleep (s : State) : Bool :=
  (List.range 16).all (fun c => !s.nmOn c || !(s.nmRing c).awake)

end Sys2Proof.Machine
end

