-- ==== Sys2Proof/Machine/Twin.lean ====
section
/-! DEFINITION. The rope-team operations that other chapters call: role changes (R461), the gate (R459, R460) and
`REL_ON_FAULT`. -/

namespace Sys2Proof.Machine

/-- The eight power dies. -/
def allDies : List Nat := List.range 8

/-- The role changes (R461): the own-holder bit follows it in an urgent frame (R459, R460). -/
def setRole (r : TwinRole) (s : State) : State :=
  if s.twin.role = r then s
  else
    let holder := decide (r = .holder)
    urgent (raise evt_twinRole noInst .wide []
      { s with twin := { s.twin with role := r, ownHolder := holder, byLoss := s.twin.byLoss && holder } })

/-- A HOLDER releases the role (Table 16.5). -/
def twinRelease (s : State) : State :=
  if s.cfg.image.twin.en && decide (s.twin.role = .holder) then setRole .released s else s

/-- A twin-fed channel latched, locked or without group supply (Table 16.5). -/
def State.twinFaulty (s : State) : Bool :=
  s.cfg.image.twin.list.any (fun e =>
    let c := s.chan e.1
    c.grd.latched || c.grd.locked || decide ((s.die (e.1 / 14)).supply ≠ .present))

/-- `REL_ON_FAULT` (Table 16.5). -/
def twinFault (s : State) : State :=
  if s.cfg.image.twin.relOnFault && s.twinFaulty then twinRelease s else s

/-- Every die re-evaluates its gate (R459): the decoder works without link and logic die. -/
def reGate (s : State) : State :=
  s.cfg.image.twin.list.foldl (fun s e =>
    let c := s.chan e.1
    let free := s.dieHears (e.1 / 14) && !c.holds && !((s.die (e.1 / 14)).keeping && c.keep.isSome)
    { s with ch := if free then applyOut s s.ch e.1 else gateHeld s s.ch e.1 }) s

/-! ### Take-over (R462) -/

/-- The output that a mirror entry asks for. -/
def MirrorEntry.out (e : MirrorEntry) : OutCmd :=
  match e.mode with
  | 1 => .on
  | 2 => .pwm e.duty e.phase
  | _ => .off

/-- The mirrored intent of list entry `k` becomes a command of the owner's current generation, with its highest priority. An
excluded channel is not switched, and one without an entry or owner keeps its command. -/
def mirrorCmd (k : Nat) (own partner : Nat) (s : State) : State :=
  match s.twin.mirror.find? (fun e => e.ch = partner), s.chOwner own with
  | some e, some v =>
    if s.twin.excluded.getLsbD k then s
    else putSw own { out := e.out, prio := (s.vzf v).tpl.maxPrio, target := none, gen := (s.vzf v).gen, seq := (s.chan own).ackSeq } s
  | _, _ => s

/-- From the partner's last HOLDER frame to the own gate opening, in ns; 0 where no HOLDER frame has been read. -/
def State.gapNs (s : State) (release : Bool) : Nat :=
  if s.twin.sawHolder then min 0xFFFFFFFF ((s.now - s.twin.holderAt) * 1000 / 600 + (if release then 0 else 250000)) else 0

/-- The take-over: role, mirrored commands, own-holder bit, and its events. -/
def takeover (release : Bool) (s : State) : State :=
  let gap := s.gapNs release
  let age := s.twin.mirrorAge
  let s := setRole .holder (s.cfg.image.twin.list.zipIdx.foldl (fun s e => mirrorCmd e.2 e.1.1 e.1.2 s) s)
  let s := { s with twin := { s.twin with takeovers := s.twin.takeovers + 1, gapNs := BitVec.ofNat 32 gap, takeoverAt := s.now
                                          byLoss := !release, takeoverCycle := s.ring.cycle } }
  let s := raise evt_twinTakeover noInst .wide ([Config.takeoverCause release, byteOf age] ++ n32 gap) s
  if s.cfg.image.twin.mirStale < age then raise evt_twinMirrorStale noInst .wide [] s else s

/-- What the partner's state asks of this module now (Table 16.5): the end of a contention, or a take-over. -/
def twinCheck (s : State) : State :=
  let t := s.cfg.image.twin
  if !t.en || !s.mgrUp then s
  else match s.twin.role with
    | .holder =>
      if s.twin.partner = some .holder && !t.primary then raise evt_twinContention noInst .wide [] (setRole .standby s) else s
    | .standby =>
      if s.sys.mode ≠ .run || !s.twin.eligible then s
      else match s.twin.partner with
        | some .release => takeover true s
        | none => if s.twin.belayFault then s else takeover false s
        | _ => s
    | .released => s

end Sys2Proof.Machine
end

