-- ==== Sys2Proof/Machine/Bridge.lean ====
section
/-! DEFINITION. The shared operations of the power bridge: its state word, the shed stage (R163 to R165), the changes of
Table 6.4 that several events share, and the safe action (R170). -/

namespace Sys2Proof.Machine

def State.modBrg (s : State) (f : BrgState → BrgState) : State := { s with brg := f s.brg }

/-- Raise a bridge event while the manager runs (R173). -/
def raiseBrg (k : EvKind) (data : List Byte) (s : State) : State := if s.mgrUp then raise k noInst .wide data s else s

/-- Phases enabled. -/
def BrgState.phases (b : BrgState) : Nat := ((List.range 4).filter (fun i => b.phOk.getLsbD i)).length

/-! ### The limits record (R171) -/

def vz12Range (v : Nat) : Bool := decide (1000 ≤ v) && decide (v ≤ 1450)

def Boardnet.volts : Boardnet → Nat
  | .v48 => 48
  | .v24 => 24
  | .v12 => 12

/-- Every declared group source is one that Table 1.2 allows for the class: on 12 V `VZ48` alone, or none. -/
def BrgLimits.sourcesOk (l : BrgLimits) (c : Boardnet) : Bool :=
  (List.range 8).all (fun g => let s := (l.grpSrc.extractLsb' (2 * g) 2).toNat; decide (c ≠ .v12) || decide (s = 0) || decide (s = 3))

/-- The ranges of Table 6.8 and the refusals of R171; the 12 V class has no ranges of its own. -/
def BrgLimits.ok (l : BrgLimits) (c : Boardnet) : Bool :=
  let k := if c = .v48 then 2 else 1
  decide (l.cls = c.volts) && l.sourcesOk c && (decide (c = .v12) ||
    decide (l.shedHo ≤ 8) && within (1500 * k) (2200 * k) l.vUv && vz12Range l.vZ12
      && within (1800 * k) (if c = .v48 then 5200 else 2800) l.vBst && within 5 50 l.iBuck && within 5 40 l.iBst
      && within 800 1100 l.vBkMin && within (1200 * k) (1800 * k) l.vBusMin && within 2 100 l.tOvl && within 1 1000 l.tRestore
      && within 50 1000 l.rPair && decide (l.vBusMin < l.vUv) && decide (l.vBusMin + 200 ≤ l.vBst))

/-- The defaults of Table 6.8 for a class. -/
def BrgLimits.ofClass (c : Boardnet) : BrgLimits :=
  let l := { BrgLimits.default with cls := c.volts }
  if c = .v24 then { l with vUv := 1800, vBst := 2200, vBusMin := 1500 } else l

/-- A record in force (R171): in `BUCK` its V_Z12 acts at once. -/
def BrgState.takeLimits (b : BrgState) (l : BrgLimits) : BrgState :=
  { b with limits := l, target := if b.phase = .buck then l.vZ12 else b.target }

/-! ### Current limits -/

/-- A current limit in 10 mA with its foldback: linear from 150 °C to zero at 170 °C (Table 6.7). -/
def BrgState.folded (b : BrgState) (c : Nat) : Nat := if b.temp ≤ 1500 then c else c * (1700 - b.temp).toNat / 200

/-- A current limit in A scales by the phases left over four (Table 6.7); in 10 mA. -/
def BrgState.scaled (b : BrgState) (amps : Nat) : Nat := amps * 100 * b.phases / 4

/-- The output current limit of the buck at `vz12` (R153): I_BUCK or the current of 600 W, in 10 mA. -/
def BrgState.buckLimit (b : BrgState) (vz12 : Int) : Nat :=
  b.folded (if vz12 ≤ 0 then b.scaled b.limits.iBuck else min (b.scaled b.limits.iBuck) (6000000 / vz12.toNat))

/-- I_BST as it is in force, in 10 mA (R153, R167). -/
def BrgState.boostLimit (b : BrgState) : Nat := b.folded (b.scaled b.limits.iBst)

/-- The states in which the bridge boosts. -/
def BrgPhase.boosts : BrgPhase → Bool
  | .boost | .qualify | .locked => true
  | _ => false

/-- A hand-over runs (Table 6.9): from its detection to `BUCK` or `STOPPED`. -/
def BrgPhase.handOver : BrgPhase → Bool
  | .stopped | .buck => false
  | _ => true

/-- Loss in Table 8.5. -/
def BrgPhase.loss : BrgPhase → Bool
  | .detected | .boost | .qualify | .locked | .nofeed => true
  | _ => false

/-- The boardnet classes that have a hand-over (chapter 6). -/
def State.brgPresent (s : State) : Bool := decide (s.cfg.image.boardnet ≠ .v12)

/-- The bridge control runs (R168): Start-up, Run, Limp and Workshop, without ALL_OFF, a stop at 170 °C or fewer than two
phases. -/
def State.brgRuns (s : State) : Bool :=
  decide (s.sys.phase = .running) && !s.sys.holdOff && s.sys.mode.isServing && s.brgPresent
    && !(s.brg.safeDone && decide (s.brg.safeAct = .allOff)) && !s.brg.hotStop && decide (2 ≤ s.brg.phases)

/-- Commits of the history within the last 1 s (R161). -/
def BrgState.recent (b : BrgState) (now : Nat) : List Nat :=
  b.history.filter (fun t => decide (now - t < Config.ticksPerSecond))

def classCode : Boardnet → Nat
  | .v12 => 0
  | .v24 => 1
  | .v48 => 2

/-- The battery switch: in `DETECTED` it closes 30 µs after t0, its latest time in Table 6.5 (R160; DESIGN CHOICE, log entry 123). -/
def BrgState.battClosed (b : BrgState) (now : Nat) : Bool :=
  b.battOn || (decide (b.phase = .detected) && decide (b.tbDetect.toNat + 30 * Config.ticksPerUs ≤ now))

/-- `BRG_STATE` (Table 6.10). -/
def State.brgWord (s : State) : U32 :=
  let b := s.brg
  wordOf [(b.phase.code, 28), (bit b.pairOn, 27), (bit b.railOn, 26), (bit (b.battClosed s.now), 25), (bit b.loss, 24), (bit b.vinOk, 23),
    (b.phOk.toNat, 19), (bit b.derate, 18), (bit b.bkLow, 17), (bit b.safeDone, 16), (b.shedLvl % 16, 12),
    (classCode s.cfg.image.boardnet, 10), (b.cause % 4, 8), (min 255 (b.recent s.now).length, 0)]

/-! ### The shed stage -/

/-- The stage sheds channel `i` (R163). -/
def State.stageSheds (s : State) (i : Nat) : Bool :=
  match s.groupSrc (i / 14) with
  | .vz48 => decide ((s.chan i).prof.shed < s.brg.shedLvl)
  | .vz12 => s.brg.shedVz12
  | _ => false

/-- Bring every channel's shed flag in line with the stage; the commands leave in urgent frames (R163). -/
def applyStage (s : State) : State :=
  let mark := fun (cs : ChanState) i =>
    let h := s.stageSheds i
    if (cs.chans.getD .reset i).hoShed = h then cs
    else cs.modChan i (fun c => { c with hoShed := h, cause := if h then 15 else c.cause })
  urgent { s with ch := (List.range 112).foldl mark s.ch }

/-- Channels that the stage sheds now. R163 does not say whether `EVT_BRG_SHED` counts those that were shed before: the model counts every
channel that the stage sheds after the step (DESIGN CHOICE, log entry 117). -/
def State.stageCount (s : State) : Nat := ((List.range 112).filter s.stageSheds).length

/-- A shed step: the level rises to `lvl` at least, and the `VZ12` groups are shed where asked (R163). -/
def shedTo (lvl : Nat) (vz12 : Bool) (s : State) : State :=
  let new := max s.brg.shedLvl (min lvl 8)
  let rail := vz12 && !s.brg.shedVz12 && allDies.any (fun g => decide (s.groupSrc g = .vz12))
  let t := s.modBrg (fun b => { b with shedLvl := new, shedVz12 := b.shedVz12 || vz12 })
  if new = s.brg.shedLvl && !rail then t
  else
    let t := applyStage t
    raiseBrg evt_brgShed (byteOf new :: n32 t.stageCount) t

/-- Release the highest level in force (R165). -/
def releaseLevel (s : State) : State :=
  if s.brg.shedLvl = 0 then s.modBrg (fun b => { b with restoring := false })
  else applyStage (s.modBrg (fun b => { b with shedLvl := b.shedLvl - 1, restoring := decide (1 < b.shedLvl) }))

/-! ### State changes -/

/-- Entry to `BUCK`: rail switch closed unless RAIL_OFF is in force, latch clear, the stored target applied (Table 6.4, R175). -/
def enterBuck (s : State) : State :=
  let off := s.brg.safeDone && decide (s.brg.safeAct = .railOff)
  s.modBrg (fun b => { b with phase := .buck, pairOn := true, railOn := !off, battOn := false, loss := false,
                              target := b.limits.vZ12, vz12Fault := false })

/-- `BUCK` after an abandoned hand-over or a hand-back begins the restore (R165). -/
def enterBuckRestore (s : State) : State := releaseLevel (enterBuck s)

/-- Entry to `STOPPED`: phases off, both switches open, latch clear; what the stage shed is released, since no hand-over
runs (Table 6.4). -/
def enterStopped (s : State) : State :=
  if s.brg.phase = .stopped then s
  else applyStage (s.modBrg (fun b => { b with phase := .stopped, railOn := false, battOn := false, loss := false, shedLvl := 0,
                                               shedVz12 := false, restoring := false }))

/-- Entry to `NOFEED`: phases off, battery switch open, every channel of a `VZ48` group shed (Table 6.4). -/
def enterNofeed (s : State) : State :=
  shedTo 8 false (s.modBrg (fun b => { b with phase := .nofeed, railOn := false, battOn := false }))

/-- Entry to `HANDBACK` (R162). -/
def enterHandback (s : State) : State :=
  s.modBrg (fun b => { b with phase := .handback, battOn := false, loss := false })

/-- `BOOST` with `VIN` valid goes on to `QUALIFY` at once, outside a test (Table 6.4, R175). -/
def toQualify (s : State) : State :=
  if s.brg.phase = .boost && s.brg.vinOk && s.brg.test.isNone then s.modBrg (fun b => { b with phase := .qualify }) else s

/-- A test hand-over ends with a status and its result (R175); a bridge still in `BOOST` follows `VIN` again. -/
def endHandoverTest (status : U16) (result : List Byte) (s : State) : State :=
  match s.brg.test with
  | none => s
  | some t => toQualify (complete t.port t.reqSeq t.tag 0x0406 status result (s.modBrg (fun b => { b with test := none })))

/-- The bridge safe action at a self-arrest (R170): in force until the next start. -/
def brgSafeAction (s : State) : State :=
  if s.brg.safeDone then s
  else
    let t := s.modBrg (fun b => { b with safeDone := true, safeAct := b.limits.safe })
    match s.brg.limits.safe with
    | .keep => t
    | .railOff => t.modBrg (fun b => { b with railOn := false })
    | .allOff => enterStopped t

end Sys2Proof.Machine
end

