-- ==== Sys2Proof/Machine/Xio.lean ====
section
/-! DEFINITION. The shared operations of the isolated bank: the downlink commands (R192, Table 7.9) and the field side
(R191, R193). -/

namespace Sys2Proof.Machine

def FioState.modX (f : FioState) (k : Nat) (g : XChan → XChan) : FioState := { f with x := f.x.modify .reset k g }
def State.modX (s : State) (k : Nat) (g : XChan → XChan) : State := { s with fio := s.fio.modX k g }
def State.modBank (s : State) (g : XBank → XBank) : State := { s with fio := { s.fio with bank := g s.fio.bank } }

def xCount : Nat := 32

/-- Configuration word of a channel (text after Table 7.7). -/
def XConfig.word (c : XConfig) : Nat := c.mode.code + c.safe.code * 4 + (bit c.owEn) * 16 + c.xdb * 256

/-- Every configuration word of the bank. -/
def FioState.xWords (f : FioState) : List (Nat × Nat) :=
  (List.range xCount).map (fun k => (k, (f.x.getD .reset k).cfg.word)) ++ [(0x20, f.bank.tXto)]

/-- Queue words; a word for the same address replaces the older one. -/
def XBank.queue (b : XBank) (ws : List (Nat × Nat)) : XBank :=
  { b with words := b.words.filter (fun w => !(ws.any (fun x => x.1 == w.1))) ++ ws }

/-- A scoped arrest holds the outputs that VZF `v` owns (R397). -/
def State.scopedOwner (s : State) (v : Option Nat) : Bool :=
  match v with
  | some n => (s.vzf n).scopedArrest
  | none => false

/-- The downlink command of OUT channel `k` (Table 7.9): 0 off, 1 on, 2 safe state. -/
def State.xCommand (s : State) (k : Nat) : Nat :=
  let c := s.xch k
  let soft := if s.scopedOwner (s.xOwner k) then 2
    else if (s.xOwner k).isNone then 0
    else if c.waits then 2
    else bit c.cmd
  if s.rfx.arrested || decide (s.sys.mode = .limp) then
    if s.rfx.limpApplied then
      match s.cfg.image.limpX.getD 0 k with
      | 1 => 0
      | 2 => 1
      | _ => 2
    else 2
  else if s.sys.mode.isRunWork then soft
  else 2

/-- The primary side of the link runs. -/
def State.xioOn (s : State) : Bool := s.powered pdXio && s.mgrUp

/-- The output state that command `c` puts in force, as the primary side sees it. -/
def XChan.forced (x : XChan) (c : Nat) : Bool :=
  match c with
  | 0 => false
  | 1 => true
  | _ => (match x.cfg.safe with
          | .off => false
          | .on => true
          | .hold => x.force)

/-- A command enters the next downlink frame; a change of the output state in force starts the wait of R188. -/
def XChan.put (x : XChan) (c now : Nat) : XChan :=
  let f := x.forced c
  if f = x.force then { x with sent := c } else { x with sent := c, force := f, forceAt := now, bad := 0, good := 0 }

/-- The primary side takes the commands of Table 7.9 into its next downlink frame (R192). -/
def xSend (s : State) : State :=
  if s.xioOn then
    (List.range xCount).foldl (fun t k => if (s.xch k).sent = s.xCommand k then t else t.modX k (fun x => x.put (s.xCommand k) s.now)) s
  else s

/-- The output that command `c` gives at the field side: diagnostics hold it off, and an unconfigured channel stays off
(R187, R191, R193). -/
def XChan.fieldOut (x : XChan) (c : Nat) : Bool :=
  if x.fCfg.mode ≠ .out || !x.fCfgSet || x.fOvl || x.fOt then false
  else match c with
    | 0 => false
    | 1 => true
    | 2 => (match x.fCfg.safe with
            | .off => false
            | .on => true
            | .hold => x.fOut)
    | _ => x.fOut

/-- The field side follows command `c`; 0b11 is reserved and changes nothing (Table 7.6). -/
def XChan.follow (x : XChan) (c : Nat) : XChan := if c = 3 then x else { x with fCmd := c, fOut := x.fieldOut c }

/-- Every OUT channel of the field side goes to its safe state (R191). -/
def xSafeAll (s : State) : State :=
  (List.range xCount).foldl (fun t k => t.modX k (fun x => x.follow 2)) s

end Sys2Proof.Machine
end

