-- ==== Sys2Proof/Machine/Die.lean ====
section
/-! DEFINITION. Shared operations of a power die: trips and latches (R99, R103), the ledger lock (R110, R111), retries (R103),
and hold (R117, R118). -/

namespace Sys2Proof.Machine

/-! ### Trips -/

def ChFlags.trip (f : ChFlags) (cause : Nat) : ChFlags :=
  match cause with
  | 1 => { f with sc := true }
  | 2 => { f with limTo := true }
  | 3 => { f with wire := true }
  | 4 => { f with ot := true }
  | 5 => { f with arc := true }
  | 6 => { f with ledger := true }
  | 7 => { f with fwMissing := true }
  | 8 => { f with clampOver := true }
  | _ => f

/-- A trip latches: an arc, a trip in hold or in Bivouac, or one that finds no retries left (R103, R104, R120). -/
def Chan.tripLatches (c : Chan) (inHold keeping : Bool) (cause : Nat) : Bool :=
  decide (cause = 5) || inHold || keeping || decide (c.prof.retryN ≤ c.grd.retries)

/-- What a trip sets in a channel that it has turned off (R99, R103): latched, or waiting for the retry that the trip uses. -/
def Chan.tripped (c : Chan) (inHold keeping : Bool) (cause : Nat) : Chan :=
  let latch := c.tripLatches inHold keeping cause
  { c with
    cause := if keeping then 11 else cause, flags := c.flags.trip cause,
    tripCount := satInc 0xFFF c.tripCount,
    grd := { c.grd with waiting := !latch, delayDone := false, latched := latch,
                        retries := if latch then c.grd.retries else c.grd.retries + 1,
                        latchArc := c.grd.latchArc || decide (cause = 5),
                        arcLatches := c.grd.arcLatches + (if cause = 5 then 1 else 0),
                        junctionOk := c.grd.junctionOk && decide (cause ≠ 4), wireOk := c.grd.wireOk && decide (cause ≠ 3),
                        wireTrip := c.grd.wireTrip || decide (cause = 3), kaTrip := c.grd.kaTrip || keeping } }

/-- The bridge of a tripped half stops: coast after a short circuit or over-temperature, until it drives or brakes again (R132). -/
def Bridge.trip (b : Bridge) (cause : Nat) (rippleEn : Bool) (now : Nat) : Bridge :=
  { b with forcedCoast := b.forcedCoast || decide (cause = 1) || decide (cause = 4) }.take .off rippleEn now

/-- The channel is in its die's hold, in which every trip latches (R103, R118). -/
def State.chInHold (s : State) (i : Nat) : Bool := (s.die (i / 14)).inHold && decide ((s.chan i).hold ≠ .none)

/-- A protection trips channel `i` in its die (R99, R103). A trip in either half of a bridge trips the bridge (R132). -/
def tripDie (i cause : Nat) (s : State) : State :=
  let i := bridgeIdx i
  let d := s.die (i / 14)
  let keeping := decide (s.sys.mode = .bivouac)
  let s1 := s.modChan i (fun c => (c.switch i .off 6 s.now (s.watches i c)).tripped (s.chInHold i) keeping cause)
  let s1 := match chClass i with
    | .half => s1.modBridge (i / 14) (fun b => b.trip cause (s.chan i).prof.hb.rippleEn s.now)
    | .valve => s1.modValve (chanVlv i) Valve.off
    | _ => s1
  if d.inHold then s1.modDie (i / 14) (fun d => { d with holdTrips := d.holdTrips ||| (1 <<< (i % 14)) }) else s1

/-- A trip with its events: `EVT_CH_TRIP`, `EVT_ARC`, and `EVT_CH_LATCHED` when it latches; it triggers the captures of the
channel's press source (R364) and may release the twin role (R461). -/
def trip (i cause : Nat) (s : State) : State :=
  let i := bridgeIdx i
  let latch := (s.chan i).tripLatches (s.chInHold i) (decide (s.sys.mode = .bivouac)) cause
  let t := tripDie i cause s
  let t := raiseCh evt_chTrip i [byteOf cause] t
  let t := if cause = 5 then raiseCh evt_arc i [] t else t
  let t := if latch then raiseCh evt_chLatched i [] t else t
  twinFault (prsTrigger i (t.raiseSrc (s.chOwner i) 41))

/-! ### The ledger lock -/

/-- Add the clamp energy of a turn-off (R110, R111): the ledger may lock, an event above the single-event energy locks
with `CLAMP_OVER`. -/
def addClamp (i uj : Nat) (s : State) : State :=
  if !(chClass i).isSwitch || uj = 0 then s
  else
    let c := s.chan i
    let sum := c.grd.ledgerNow s.now + uj
    let lock := s.ledgerLockActive i && decide ((chClass i).budget < sum) && !c.grd.lockLedger
    let excess := decide ((chClass i).singleEvent < uj)
    let s := s.modChan i (fun c => if lock || excess then c.switch i .off 6 s.now (s.watches i c) else c)
    let s := s.modChan i (fun c =>
      { c with
        cause := if excess then 8 else if lock then 6 else c.cause
        flags := { c.flags with ledger := c.flags.ledger || lock, clampOver := c.flags.clampOver || excess }
        grd := { c.grd with ledgerUj := sum, ledgerAt := s.now, lockLedger := c.grd.lockLedger || lock,
                            clampOver := c.grd.clampOver || excess } })
    let s := if lock then raiseCh evt_chLedgerLock i [] s else s
    let s := if excess then raiseCh evt_chClampOver i [] s else s
    if lock || excess then twinFault (s.raiseSrc (s.chOwner i) 41) else s

/-! ### Turning off, retries and hold -/

/-- A channel's output ends in its die for source `src` (R99 to R118): a bridge takes its stop state, a valve 0 mA. -/
def offIn (s : State) (cs : ChanState) (i src : Nat) : ChanState :=
  let c := cs.chans.getD .reset i
  let src := if c.grd.blocks then 6 else src
  match chClass i with
  | .valve => putValve i .off src s.now cs
  | .half =>
    let cs := cs.modChan i (fun c => c.switch i .off src s.now false)
    if i % 14 = 10 then cs.modBridge (i / 14) (fun b => b.take .off c.prof.hb.rippleEn s.now) else cs
  | _ => cs.modChan i (fun c => c.switch i .off src s.now (s.watches i c))

def chanOff (i src : Nat) (s : State) : State := { s with ch := offIn s s.ch i src }

/-- A channel that has waited out its retry delay and is cool turns on again if the merged command still asks for it (R103). -/
def tryRetry (i : Nat) (s : State) : State :=
  let i := bridgeIdx i
  let c := s.chan i
  if c.grd.waiting && c.grd.delayDone && c.grd.cooled then
    if (s.merged i c).1.isOff then
      s.modChan i (fun c => { c with grd := { c.grd with waiting := false, delayDone := false } })
    else
      let t := s.modChan i (fun c => { c with grd := { c.grd with waiting := false, delayDone := false } })
      if s.dieHears (i / 14) && !c.holds then { t with ch := applyOut t t.ch i } else t
  else s

/-- The hold setting of a channel, with the override of `CH.SET_HOLD` (R107). -/
def Chan.holdSetting (c : Chan) : Bool :=
  match c.holdOvr with
  | some (h, _) => h
  | none => c.prof.hold

/-- A channel enters hold (R117): OFF turns it off at once, HOLD keeps its output. -/
def enterHold (s : State) (cs : ChanState) (i : Nat) : ChanState :=
  let c := cs.chans.getD .reset i
  if c.hold ≠ .none then cs
  else
    let held := { c.flags with held := c.flags.held || !c.out.isOff }
    if c.holdSetting then
      cs.modChan i (fun c => { c with hold := .holding, gated := none, flags := held, src := if c.grd.blocks then 6 else 3 })
    else
      offIn s (cs.modChan i (fun c => { c with hold := .expired, flags := held })) i 3

/-- The die's hold ends with the last channel that still holds: `EVT_CH_HOLD` with the silence and the trips (R118). -/
def endHold (g : Nat) (s : State) : State :=
  let d := s.die g
  if d.inHold && !d.silent && !(groupChans g).any (fun i => decide ((s.chan i).hold = .holding)) then
    let t := s.modDie g (fun d => { d with inHold := false, silenceUs := 0, holdTrips := 0 })
    if s.mgrUp then raise evt_chHold g (.owned none) (n32 d.silenceUs ++ n16 d.holdTrips.toNat) t else t
  else s

/-- What a valid frame does to a channel's hold (R118): in Start-up a channel that still holds stays in hold; a channel
whose hold had ended leaves it at the first frame; in every other mode all leave. -/
def Chan.atFrame (c : Chan) (startup first : Bool) : Chan :=
  if !startup then { c with hold := .none }
  else if first && decide (c.hold = .expired) then { c with hold := .none }
  else c

/-- The first frame after a wake puts the keep-alive channels in hold with their keep-alive output (R120); one that is on shows `HELD`
(R118). -/
def keepToHold (s : State) (g : Nat) : State :=
  if (s.die g).keeping && s.sys.bivouac = .none then
    let cs := (groupChans g).foldl (fun cs i => cs.modChan i (fun c =>
      { c with hold := if c.keep.isSome then .holding else c.hold, keep := none
               flags := { c.flags with held := c.flags.held || (c.keep.isSome && !c.out.isOff) } })) s.ch
    { s with ch := cs.modDie g (fun d => { d with keeping := false, inHold := true }) }
  else s

/-- The manager reports the compliance that the die of group `g` has cleared (R135). -/
def compEnds (g : Nat) (s : State) : State :=
  [2 * g, 2 * g + 1].foldl (fun s k =>
    if (s.valve k).compEnd then raiseCh evt_vlvComplianceEnd (vlvChan k) [] (s.modValve k (fun v => { v with compEnd := false })) else s) s

/-- Silence of the link in µs at a frame now, at least 1. -/
def Die.silenceNow (d : Die) (now : Nat) : Nat := max 1 ((now - d.silenceFrom) / Config.ticksPerUs)

/-- A valid link frame at die `g` (R98, R118). -/
def dieFrame (g : Nat) (s : State) : State :=
  if !s.mgrUp then s
  else
    let s := keepToHold s g
    let d := s.die g
    let first := d.silent
    let startup := decide (s.sys.mode = .startup)
    let cs := (groupChans g).foldl (fun cs i => cs.modChan i (fun c => c.atFrame startup first)) s.ch
    let cs := cs.modDie g (fun d =>
      { d with seenFrame := true, silenceUs := if first then d.silenceNow s.now else d.silenceUs, lastFrame := s.now })
    let s := { s with ch := cs }
    compEnds g (endHold g { s with ch := applyDie s s.ch g })

/-- The keep-alive states end: an abandoned entry, or a change of mode within it (R120). -/
def cancelKeep (s : State) : State :=
  { s with ch := { s.ch with chans := s.ch.chans.mapAll (fun _ c => { c with keep := none })
                             dies := s.ch.dies.mapAll (fun _ d => { d with keeping := false }) } }

/-- A group supply is lost or reversed: the die's channels are off (R94, R128). -/
def supplyLoss (g : Nat) (reversed : Bool) (s : State) : State :=
  let cs := (groupChans g).foldl (fun cs i => offIn s cs i (cs.chans.getD .reset i).src) s.ch
  twinFault { s with ch := cs.modDie g (fun d => { d with supply := if reversed then .reversed else .lost }) }

/-- On a 12 V boardnet a loss of the main feed removes every group supply (R17). -/
def feedLoss (s : State) : State :=
  if s.cfg.image.boardnet = .v12 then allDies.foldl (fun s g => supplyLoss g false s) s else s

/-- A frame on every live link. -/
def allFrames (s : State) : State := allDies.foldl (fun s g => if s.dieHears g then dieFrame g s else s) s

end Sys2Proof.Machine
end

