-- ==== Sys2Proof/Machine/Modes.lean ====
section
/-! DEFINITION. Mode changes (R28, R30, R31, R40, R60) and self-arrest (R212, R213). -/

namespace Sys2Proof.Machine

/-- Trigger codes of `EVT_MODE_CHANGE` (R28). -/
def trigProven : Nat := 2
def trigArrest : Nat := 3
def trigPairs : Nat := 4

/-- The bank not in use is erased (R60). -/
def CfgState.eraseTarget (c : CfgState) : CfgState :=
  if c.inUseB then { c with bankA := .erased } else { c with bankB := .erased }

/-- The write session closes without commit (R60). -/
def closeSession (s : State) : State :=
  match s.cfg.session with
  | some _ => { s with cfg := { s.cfg.eraseTarget with session := none } }
  | none => s

/-- Running channel tests and a test hand-over end with `ST_ABORTED` (R213). -/
def abortTests (s : State) : State :=
  endHandoverTest stat_aborted [] (s.ch.chans.keys.foldl (fun s i => endTest i stat_aborted false 0 s) s)

/-- Power domains that Table 2.7 powers in Run, Limp and Workshop: the fixed ones, those of the configuration, and those of the
healthy pairs; under the Limp policy STOP the application cluster and its DRAM are off. -/
def State.domainsIn (s : State) (mode : Mode) : List Nat :=
  (List.range 96).filter (fun d =>
    let cfg := s.cfg.image.domains.contains d
    let stop := decide (mode = .limp) && !s.cfg.image.limpKeep
    if [0, 1, 16, 17, 36, 37, 82, 87, 90, 94, 95].contains d then true
    else if within 2 11 d then cfg && !stop
    else if within 88 89 d then (if mode = .limp then cfg && !stop else true)
    else if within 12 15 d then (s.saf.pairs.getD .reset (d - 12)).healthy
    else cfg)

/-- The mode changes: the write session and an open update target end (R60, R443), a Bivouac
entry that had not reached step 4 ends, and `EVT_MODE_CHANGE` reports the old
mode, the new mode and the trigger (R28). -/
def setMode (new : Mode) (trigger : Nat) (s : State) : State :=
  let old := s.sys.mode
  let s := if old = .workshop then abortTests s else s
  let s := if s.sys.bivouac ≠ .none && decide (new ≠ .bivouac) then cancelKeep { s with sys := { s.sys with bivouac := .none } } else s
  let s := updDiscardOpen (closeSession s)
  let reached := decide (new = .run) || decide (new = .limp)
  let s := { s with sys := { s.sys with
    mode := new, prevMode := old, reached := s.sys.reached || reached,
    failedStarts := if reached then 0 else s.sys.failedStarts
    domains := if new.isRunLimpWork then s.domainsIn new else s.sys.domains } }
  raise evt_modeChange noInst .wide [byteOf old.code, byteOf new.code, byteOf trigger] s

/-- At entry to Run or Limp the latest held command of each channel and isolated output takes effect (R40). -/
def applyHeld (s : State) : State :=
  let s := s.ch.chans.keys.foldl (fun s i =>
    match (s.chan i).held with
    | some c => putSw i c s
    | none => s) s
  let fio := { s.fio with
    x := s.fio.x.mapAll (fun _ x => match x.held with
      | some v => { x with cmd := v, held := none, waits := false }
      | none => x)
    slots := s.fio.slots.mapAll (fun _ t => match t.heldAck with
      | some (g, q) => { t with ackGen := g, ackSeq := q, heldAck := none }
      | none => t) }
  { s with fio := fio }

/-- Every live die takes the merged commands, and the isolated bank its commands. -/
def pushAll (s : State) : State := xSend (allFrames s)

/-- Limp entry (R30): a HOLDER releases, the application cluster stops under STOP, and the limp table is applied unless a
self-arrest still times it (R213) or forbids it (R208, R507). -/
def limpEntry (trigger : Nat) (s : State) : State :=
  let s := twinRelease (setMode .limp trigger s)
  let apply := !s.rfx.arrested || (s.rfx.limpDue && !s.rfx.noLimp)
  let s := { s with rfx := { s.rfx with limpApplied := s.rfx.limpApplied || apply }
                    sys := { s.sys with appStopped := s.sys.appStopped || !s.cfg.image.limpKeep } }
  pushAll (applyHeld s)

/-- Run entry (R28): held commands take effect, and a PRIMARY whose partner does not hold takes the role (Table 16.5). -/
def runEntry (s : State) : State :=
  let s := updReachedRun (setMode .run trigProven s)
  let s := pushAll (applyHeld s)
  let t := s.cfg.image.twin
  twinCheck (if t.en && t.primary && decide (s.twin.role = .standby) && decide (s.twin.partner ≠ some .holder) then setRole .holder s else s)

/-- Disarm the trigger units with action 1 (R381). -/
def disarmChannels (s : State) : State :=
  { s with tb := { s.tb with triggers := s.tb.triggers.mapAll (fun _ t => if t.action = 1 then { t with armed := false } else t) } }

/-- What the first self-arrest of a start does to the outputs (R213): every output safe, the bridge safe action, RELEASE. In
Limp entered without self-arrest the limp table no longer applies (R208). -/
def arrestOutputs (source : Nat) (detail : List Byte) (s : State) : State :=
  let limp := decide (s.sys.mode = .limp)
  let s := { s with rfx := { s.rfx with
    arrested := true, source := source, arrestRaised := true, noLimp := s.rfx.noLimp || limp,
    limpApplied := s.rfx.limpApplied && !limp } }
  let s := raise evt_rfxSelfArrest noInst .wide (byteOf source :: detail) s
  let s := xSend (urgent (disarmChannels s))
  abortTests (twinRelease (brgSafeAction s))

/-- The first self-arrest of a start, with the change to Limp from Run or Workshop (R213); in Start-up R31 decides. -/
def firstArrest (source : Nat) (detail : List Byte) (s : State) : State :=
  let s := arrestOutputs source detail s
  if s.sys.mode = .run ∨ s.sys.mode = .workshop then limpEntry trigArrest s else s

/-- A self-arrest trigger (R212): a further one while self-arrest is in force changes nothing and raises
`EVT_RFX_ARREST_REPEAT`. -/
def selfArrest (source : Nat) (detail : List Byte) (s : State) : State :=
  if !s.mgrUp then s
  else if s.rfx.arrested then raise evt_rfxArrestRepeat noInst .wide [byteOf source] s
  else firstArrest source detail s

/-- A self-arrest without a change of mode (R58, R470). -/
def arrestOnly (source : Nat) (detail : List Byte) (s : State) : State :=
  if s.rfx.arrested then raise evt_rfxArrestRepeat noInst .wide [byteOf source] s else arrestOutputs source detail s

end Sys2Proof.Machine
end

