-- ==== Sys2Proof/Machine/Reflex.lean ====
section
/-! DEFINITION. The reflex engine: predicates (R201), firing (R202), the merge (R205, R206) and the actions (R203). -/

namespace Sys2Proof.Machine

def State.rule (s : State) (n : Nat) : RuleRun := s.rfx.rules.getD .reset n
def State.modRule (s : State) (n : Nat) (f : RuleRun → RuleRun) : State :=
  { s with rfx := { s.rfx with rules := s.rfx.rules.modify .reset n f } }

/-! ### Predicates -/

/-- Owner of a rule: none for a system rule. -/
def Rule.vzf (r : Rule) : Option Nat := if r.sysr then none else some r.owner

/-- A source of the rule's owner, or any source for a system rule; one no longer owned reads false (R206). -/
def srcOk (r : Rule) (owner : Option Nat) : Bool := r.sysr || decide (owner = some r.owner)


/-- DI conditions on the reported state; the edges are open windows (Table 8.5). -/
def diPred (st : DiVal) (cond : Nat) (edge : Bool) : Bool :=
  if st = .notValid then false
  else match cond with
    | 0 => decide (st = .open_)
    | 1 => decide (st = .closed)
    | 2 => decide (st = .wireFault)
    | _ => edge

/-- AI conditions with their hysteresis memory (Table 8.5). -/
def aiPred (code cond : Nat) (arg : U32) (mem : Bool) : Bool :=
  let thr := bits arg 0 14
  let hys := bits arg 16 14
  if code = 0x3FFF then false
  else if cond = 0 then (if mem then decide (thr ≤ code + hys) else decide (thr ≤ code))
  else (if mem then decide (code ≤ thr + hys) else decide (code ≤ thr))

def chPred (s : State) (i cond : Nat) : Bool :=
  let j := bridgeIdx i
  let c := s.chan j
  match cond with
  | 0 => c.faulted
  | 6 => c.grd.latched
  | 7 => c.grd.ol
  | 8 => decide (chClass j = .half) && (s.bridge (j / 14)).stall
  | 9 => decide (chClass j = .valve) && (s.valve (chanVlv j)).compliance
  | 10 => c.grd.locked
  | n => c.faulted && decide (c.cause = n)

def brgPred (b : BrgState) (cond : Nat) (arg : U32) : Bool :=
  match cond with
  | 0 => b.phase.loss
  | 1 => b.phase.boosts
  | 2 => decide (b.phase = .nofeed)
  | 3 => decide (b.phase = .locked)
  | _ => decide (bits arg 0 8 ≤ b.shedLvl)

def twinPred (t : TwinState) (cond : Nat) : Bool :=
  match cond with
  | 0 => decide (t.partner = none)
  | 1 => decide (t.partner = some .release)
  | 2 => decide (t.role = .holder)
  | _ => decide (t.role = .standby)

/-- One predicate of a rule, with its slot's hysteresis memory and edge window (R201, Table 8.5). -/
def evalPred (s : State) (r : Rule) (p : Pred) (mem edge : Bool) : Bool :=
  match p.ptype with
  | 0 => true
  | 1 => srcOk r (s.diOwner p.src) && diPred (s.diInput p.src).state p.cond edge
  | 2 => srcOk r (s.aiOwner p.src) && aiPred (s.aiInput p.src).code p.cond p.arg mem
  | 3 => srcOk r (s.chOwner p.src) && chPred s p.src p.cond
  | 4 => brgPred s.brg p.cond p.arg
  | 5 => srcOk r (s.xOwner p.src) && decide ((s.xch p.src).state = p.cond)
  | 6 => srcOk r (s.sigOwner p.src) && sigPredicate s p.src p.cond p.arg
  | 7 => if p.cond = 0 then s.rfx.safeN else !s.rfx.safeN
  | 8 => twinPred s.twin p.cond
  | _ => false

/-- The new hysteresis memory of each slot. -/
def aiMems (s : State) (r : Rule) (mems : List Bool) : List Bool :=
  (r.preds.zip mems).map (fun pm => decide (pm.1.ptype = 2) && evalPred s r pm.1 pm.2 false)

def Rule.isEmpty (r : Rule) : Bool := r.preds.all (fun p => decide (p.ptype = 0))

/-- Enabled; a rule whose owner VZF does not exist is held disabled (R206). -/
def Rule.enabledIn (r : Rule) (s : State) : Bool := r.en && (r.sysr || (s.vzf r.owner).exists_)

/-- A rule is active when it is enabled, not suspended, and all four predicates are true; an all-NONE record never is (R200, R202). -/
def RuleRun.isActive (s : State) (x : RuleRun) : Bool :=
  let r := x.rule
  r.enabledIn s && !x.suspended && !r.isEmpty
    && ((r.preds.zip (x.aiMem.zip x.edge)).all (fun q => evalPred s r q.1 q.2.1 q.2.2))

/-! ### Firing -/

def Rule.isChannelAct (r : Rule) : Bool := decide (r.act ≤ 2)

/-- The owner still holds the target (R206). -/
def targetOk (s : State) (r : Rule) : Bool := !r.isChannelAct || srcOk r (s.chOwner r.target)

/-- The action is in force (R204). -/
def RuleRun.inForce (x : RuleRun) : Bool := if x.rule.latch then x.latched else x.active

/-- What one evaluation did to a rule: fired, newly blocked. -/
structure Firing where
  run : RuleRun
  fired : Bool
  blocked : Bool

/-- Evaluate one rule (R202, R204, R206). -/
def evalRule (s : State) (x : RuleRun) : Firing :=
  let x := { x with aiMem := aiMems s x.rule x.aiMem }
  let act := x.isActive s
  let fired := act && !x.active
  let latched := x.rule.latch && !x.suspended && x.rule.enabledIn s && (x.latched || fired)
  let y := { x with active := act, latched := latched,
                    fired := if fired then satInc 0xFFFFFFFF x.fired else x.fired,
                    lastFire := if fired then s.now else x.lastFire }
  let ok := targetOk s y.rule
  let block := !ok && (fired || (x.applied && y.inForce))
  { run := { y with applied := y.inForce && ok, blocked := if block then satInc 0xFFFFFFFF y.blocked else y.blocked,
                    blockRaised := y.blockRaised || block }
    fired := fired, blocked := block && !x.blockRaised }

/-! ### Merge -/

/-- The output that an action asks of channel `i` (R131, R203); `second` is HBgB's index. -/
def actOut (i act duty : Nat) (second : Bool) : OutCmd :=
  match chClass i with
  | .half =>
    let code := if second then 2 else 1
    (match act with
     | 0 => .off
     | 1 => .drive code 10000 0
     | _ => .drive code duty 0)
  | .valve =>
    (match act with
     | 0 => .off
     | 1 => .regulate 3000
     | _ => .regulate (duty * 3000 / 10000))
  | _ =>
    (match act with
     | 0 => .off
     | 1 => .on
     | _ => .pwm duty 0)

/-- What an applied action asks of channel `i`, with its place among equal priorities: OFF, then PWM by duty, then ON
(R205). -/
def wish (s : State) (x : RuleRun) (i : Nat) : Option (OutCmd × Nat × Nat) :=
  let r := x.rule
  if !x.applied then none
  else if r.act ≤ 2 then
    if bridgeIdx r.target = i then
      some (actOut i r.act r.duty (decide (r.target % 14 = 11)), if r.act = 0 then 0 else if r.act = 2 then 1 else 2,
        if r.act = 2 then r.duty else 0)
    else none
  else if r.act = 3 then
    if decide ((s.chan i).prof.shed < r.target) && srcOk r (s.chOwner i) then some (.off, 0, 0) else none
  else none

structure Best where
  prio : Nat
  rank : Nat
  duty : Nat
  win : RfxWin

/-- The better of two: highest priority, then OFF, then the lowest duty, then ON; the earlier rule among equals. -/
def better (b : Option Best) (n prio : Nat) (w : OutCmd × Nat × Nat) : Option Best :=
  let new : Best := { prio := prio, rank := w.2.1, duty := w.2.2, win := { out := w.1, prio := prio, rule := n } }
  match b with
  | none => some new
  | some o =>
    if o.prio < prio then some new
    else if prio < o.prio then b
    else if w.2.1 < o.rank then some new
    else if o.rank < w.2.1 then b
    else if w.2.2 < o.duty then some new
    else b

/-- The action that wins channel `i` (R205). -/
def rfxWinner (s : State) (rules : Tbl RuleRun) (i : Nat) : Option RfxWin :=
  (rules.cells.foldl (fun b c =>
    match wish s c.2 i with
    | some w => better b c.1 c.2.rule.prio w
    | none => b) none).map (·.win)

/-- Give every channel its winner; a change leaves in urgent frames (R209). -/
def applyMerge (s : State) : State :=
  let cs := (List.range 112).foldl (fun cs i =>
    let w := if i % 14 = 11 then none else rfxWinner s s.rfx.rules i
    if (cs.chans.getD .reset i).rfx = w then cs else cs.modChan i (fun c => { c with rfx := w })) s.ch
  urgent { s with ch := cs }

/-! ### Events of firings -/

def Rule.scope (r : Rule) : Scope := .owned r.vzf

/-- `EVT_RFX_FIRED` at the rule's class, at most once a millisecond; the rest are counted (R202). -/
def firedEvent (n : Nat) (s : State) : State :=
  let x := s.rule n
  let due := match x.lastEvt with
    | some t => decide (Config.ticksPerMs ≤ s.now - t)
    | none => true
  if !x.rule.evt && decide (x.rule.act ≠ 5) then s
  else if due then raise { evt_rfxFired with cls := x.rule.ecls + 1 } n x.rule.scope [] (s.modRule n (fun x => { x with lastEvt := some s.now }))
  else s.modRule n (fun x => { x with withheld := x.withheld + 1 })

/-- What follows a firing: its event, and self-arrest with source 2 (R203). -/
def afterFire (n : Nat) (s : State) : State :=
  let s := firedEvent n s
  if (s.rule n).rule.act = 4 then selfArrest 2 (n16 n) s else s

/-- One CLK_IO cycle of the engine. -/
def evalCycle (s : State) : State :=
  let fs := s.rfx.rules.cells.map (fun c => (c.1, evalRule s c.2))
  let t := applyMerge { s with rfx := { s.rfx with rules := ⟨fs.map (fun f => (f.1, f.2.run))⟩ } }
  let t := fs.foldl (fun t f =>
    if f.2.blocked then raise evt_rfxBlocked f.1 f.2.run.rule.scope [] t else t) t
  fs.foldl (fun t f => if f.2.fired then afterFire f.1 t else t) t

/-- Evaluate the rules where the engine runs (R202). -/
def evalRules (s : State) : State := if s.rfx.enabled && s.mgrUp then evalCycle s else s

/-- Open the edge windows that a change of `DI n` from `old` to `new` satisfies (R181, R201). -/
def edgeHit (n : Nat) (old new : DiVal) (p : Pred) : Bool :=
  decide (p.ptype = 1) && decide (p.src = n) && decide (old ≠ new) &&
    (match p.cond with
     | 3 => decide (new = .closed)
     | 4 => decide (new = .open_)
     | 5 => decide (new ≠ .notValid)
     | _ => false)

def openEdges (n : Nat) (old new : DiVal) (s : State) : State :=
  { s with rfx := { s.rfx with rules := s.rfx.rules.mapAll (fun _ x =>
      { x with edge := (x.rule.preds.zip x.edge).map (fun pe => pe.2 || edgeHit n old new pe.1) }) } }

/-- A window of 0 lasts one CLK_IO cycle (Table 8.5). -/
def closeShortEdges (s : State) : State :=
  { s with rfx := { s.rfx with rules := s.rfx.rules.mapAll (fun _ x =>
      { x with edge := (x.rule.preds.zip x.edge).map (fun pe => pe.2 && decide (bits pe.1.arg 0 16 ≠ 0)) }) } }

/-- Rules at a change of a discrete input. -/
def evalAtDi (n : Nat) (old new : DiVal) (s : State) : State :=
  evalRules (closeShortEdges (evalRules (openEdges n old new s)))

/-! ### Rule records -/

/-- The record of Table 8.1 as twelve words minus two: `RFX_RULE_CTL`, `RFX_RULE_ACT`, then the four predicate pairs. -/
def ruleOf (f : RuleFields) : Rule :=
  let pred (sel arg : U32) : Pred := { ptype := bits sel 28 4, cond := bits sel 24 4, src := bits sel 0 18, arg := arg }
  { en := f.ctl.getLsbD 31, susp := f.ctl.getLsbD 30, latch := f.ctl.getLsbD 29, sysr := f.ctl.getLsbD 28,
    prio := bits f.ctl 20 4, owner := bits f.ctl 8 8, act := bits f.act 29 3, evt := f.act.getLsbD 28, ecls := bits f.act 26 2,
    target := bits f.act 16 9, duty := bits f.act 0 14,
    preds := [pred f.sel0 f.arg0, pred f.sel1 f.arg1, pred f.sel2 f.arg2, pred f.sel3 f.arg3] }

def Rule.ctlWord (r : Rule) : U32 :=
  wordOf [(bit r.en, 31), (bit r.susp, 30), (bit r.latch, 29), (bit r.sysr, 28), (r.prio % 16, 20), (r.owner % 256, 8)]

def Rule.actWord (r : Rule) : U32 :=
  wordOf [(r.act % 8, 29), (bit r.evt, 28), (r.ecls % 4, 26), (r.target % 512, 16), (r.duty % 16384, 0)]

def Pred.bytes (p : Pred) : List Byte := le32 (wordOf [(p.ptype % 16, 28), (p.cond % 16, 24), (p.src % 262144, 0)]) ++ le32 p.arg

/-- The 40 bytes of a rule record. -/
def Rule.bytes (r : Rule) : List Byte := le32 r.ctlWord ++ le32 r.actWord ++ r.preds.flatMap Pred.bytes

/-- Highest `COND`, highest `SRC` and the argument bits of a predicate type (Table 8.5). -/
def predLimits : Nat → Option (Nat × Nat × U32)
  | 0 => some (0, 0, 0)
  | 1 => some (5, 63, 0xFFFF)
  | 2 => some (1, 47, 0x3FFF3FFF)
  | 3 => some (10, 111, 0)
  | 4 => some (4, 0, 0xFF)
  | 5 => some (3, 31, 0)
  | 6 => some (6, 262143, 0xFFFFFFFF)
  | 7 => some (1, 0, 0)
  | 8 => some (3, 0, 0)
  | _ => none

/-- A predicate slot of a record to load (R201). -/
def predStatus (p : Pred) : Option U16 :=
  match predLimits p.ptype with
  | none => some stat_rfxSource
  | some (c, m, mask) =>
    if c < p.cond ∨ m < p.src then some stat_rfxSource
    else if p.arg &&& ~~~mask ≠ 0 then some stat_badPayload
    else if p.ptype = 4 ∧ p.cond = 4 ∧ ¬ (1 ≤ p.arg.toNat ∧ p.arg.toNat ≤ 8) then some stat_rfxSource
    else none

/-- Reserved bits of a rule record. -/
def ruleReserved (f : RuleFields) : Bool :=
  decide (f.ctl &&& 0x0F0F00FF = 0) && decide (f.act &&& 0x0200C000 = 0)
    && [f.sel0, f.sel1, f.sel2, f.sel3].all (fun w => decide (w &&& 0x00FC0000 = 0))

/-- The action part of a record to load (R203, R206, Table 8.3). -/
def actStatus (r : Rule) : Option U16 :=
  if r.act = 4 ∧ !r.sysr then some stat_rfxPriv
  else if (r.act ≤ 2 ∧ 111 < r.target) ∨ (r.act = 3 ∧ ¬ (1 ≤ r.target ∧ r.target ≤ 8)) ∨ (4 ≤ r.act ∧ r.target ≠ 0) then
    some stat_rfxTarget
  else if r.act = 2 ∧ 10000 < r.duty then some stat_range
  else if r.act ≠ 2 ∧ r.duty ≠ 0 then some stat_badPayload
  else none

/-- The content of a rule record (R200, R201, R203). -/
def ruleContent (f : RuleFields) : Option U16 :=
  let r := ruleOf f
  if !ruleReserved f ∨ 5 < r.act then some stat_badPayload
  else if r.isEmpty && r.en then some stat_rfxEmpty
  else orStat (r.preds.foldl (fun a p => orStat a (predStatus p)) none) (if r.isEmpty then none else actStatus r)

/-- Ownership of a record's sources and target (R206). -/
def ruleOwnership (s : State) (r : Rule) : Option U16 :=
  if r.sysr ∨ r.isEmpty then none
  else if !(s.vzf r.owner).exists_ then some stat_rfxNoOwner
  else if r.preds.any (fun p =>
      (decide (p.ptype = 1) && !srcOk r (s.diOwner p.src)) || (decide (p.ptype = 2) && !srcOk r (s.aiOwner p.src))
        || (decide (p.ptype = 3) && !srcOk r (s.chOwner p.src)) || (decide (p.ptype = 5) && !srcOk r (s.xOwner p.src))
        || (decide (p.ptype = 6) && !srcOk r (s.sigOwner p.src))) then some stat_rfxSource
  else if !targetOk s r then some stat_rfxTarget
  else none

end Sys2Proof.Machine
end

