-- ==== Sys2Proof/Machine/HandOver.lean ====
section
/-! DEFINITION. The supply hand-over (Table 6.4), the bridge faults (Table 6.7), the VIN pair (R18) and the BRG commands
(Table 6.13). -/

namespace Sys2Proof.Machine

/-! ### VIN -/

/-- `VIN` window of a class in 10 mV (Table 1.2). -/
def vinWindow : Boardnet → Int × Int
  | .v48 => (3600, 6000)
  | .v24 => (1800, 3600)
  | .v12 => (900, 1600)

/-- The window that the pair controller applies (R18). -/
def pairWindow : Option Boardnet → Int × Int
  | some b => vinWindow b
  | none => (900, 6000)

def inWindow (w : Int × Int) (vin : Int) : Bool := decide (w.1 ≤ vin) && decide (vin ≤ w.2)

/-- V_HYS in 10 mV (R156). -/
def vHys : Boardnet → Int
  | .v48 => 200
  | _ => 100

/-- `VIN` is valid (R156); the 12 V class has no hand-over and takes its class window. -/
def State.vinValid (s : State) (vin : Int) : Bool :=
  let c := s.cfg.image.boardnet
  if c = .v12 then inWindow (vinWindow c) vin
  else decide ((s.brg.limits.vUv : Int) + vHys c < vin) && decide (vin ≤ (vinWindow c).2)

/-! ### Table 6.4 -/

/-- `STOPPED` to `BUCK`: never to a boost (R168). -/
def bridgeStart (vin : Int) (s : State) : State :=
  let s := s.modBrg (fun b => { b with vinOk := s.vinValid vin })
  if s.brgRuns && s.brg.limits.en && s.sys.vinChecked && s.brg.vinOk && decide (s.brg.phase = .stopped) then
    evalRules (enterBuck s)
  else s

def execBridgeStart (vin : Int) (s : State) : Result := .next (bridgeStart vin s)

/-- A reported `VZ48` counts for the lowest of a running hand-over (Table 6.9; DESIGN CHOICE, log entry 125: the values that events and
commands report stand for the continuous measurement). -/
def noteVz48 (v : Int) (s : State) : State :=
  s.modBrg (fun b => if b.phase.handOver then { b with lowest := min b.lowest v } else b)

/-- Detection at t0 with a cause (R155, R163, R364): the latch sets, the pair and the rail open, the stage sheds. A detection during a
restore applies SHED_HO at once (R165). -/
def detect (cause : Nat) (vz48 vin : Int) (s : State) : State :=
  let t := s.modBrg (fun b =>
    { b with phase := .detected, loss := true, pairOn := false, railOn := false, battOn := false, restoring := false,
             cause := cause, tbDetect := s.tb.count, lowest := vz48 })
  let t := raiseBrg evt_brgHandover (byteOf cause :: i16 vin) t
  let t := shedTo (if t.brg.limits.shedAtCommit && !s.brg.restoring then 0 else t.brg.limits.shedHo) true t
  evalRules ([0x100, 0x101, 0x102, 0x103].foldl (fun t n => prsTrigger n t) t)

/-- Reverse current (`VZ48` − `VIN`) ÷ R_PAIR above 5 A (R155); voltages in 10 mV, R_PAIR in 10 µΩ. -/
def State.reverseFlow (s : State) (vz48 vin : Int) : Bool := decide ((s.brg.limits.rPair : Int) < (vz48 - vin) * 200)

/-- `VIN` below V_UV (R155); the 12 V class has no V_UV and takes the lower end of its window (Table 1.2; DESIGN CHOICE, log entry 124). -/
def State.underVoltage (s : State) (vin : Int) : Bool :=
  decide (vin < if s.brgPresent then (s.brg.limits.vUv : Int) else (vinWindow .v12).1)

/-- The cause of a detection (Table 6.10), 0 where `VIN` is neither low nor fed back; where both hold, the reverse current is given
(DESIGN CHOICE, log entry 124). -/
def State.lossCause (s : State) (vz48 vin : Int) : Nat :=
  if s.reverseFlow vz48 vin then 2 else if s.underVoltage vin then 1 else 0

/-- The pair controller keeps a received class while its supply from `VIN` holds, taken as 9 V (R18; DESIGN CHOICE, log entry 124). -/
def keepClass (vin : Int) (s : State) : State :=
  if vin < 900 then { s with sys := { s.sys with pairClass := none } } else s

/-- The pair controller opens the pair in every mode (R18); in `BUCK` and `HANDBACK` a hand-over begins (R155). A `VIN` above the window is
no loss. -/
def vinLoss (vz48 vin : Int) (s : State) : State :=
  let cause := s.lossCause vz48 vin
  let t := s.modBrg (fun b => { b with vinOk := s.vinValid vin })
  if cause = 0 then t
  else
    let t := keepClass vin (feedLoss (t.modBrg (fun b => { b with pairOn := false })))
    if s.brg.phase = .buck ∨ s.brg.phase = .handback then detect cause vz48 vin t else t

def execVinLossDetected (vz48 vin : Int) (s : State) : Result := .next (vinLoss vz48 vin s)

/-- `VIN` valid for 10 µs before the commit point; a test commits whatever `VIN` does (R175). -/
def abandon (s : State) : State :=
  if s.brg.phase = .detected && s.brg.test.isNone then
    let t := s.modBrg (fun b => { b with abandons := b.abandons + 1, vinOk := true })
    evalRules (raiseBrg evt_brgAbandon [] (enterBuckRestore t))
  else s

def execHandoverAbandon (s : State) : Result := .next (abandon s)

/-- `NOFEED` for a low battery (Table 6.7). A test ends there with `ST_ABORTED`, since it can boost no more (DESIGN CHOICE, log entry
122). -/
def batteryLow (s : State) : State :=
  endHandoverTest stat_aborted [] (raiseBrg evt_brgBattLow [] (enterNofeed (s.modBrg (fun b => { b with bkLow := true }))))

/-- The commit (Table 6.4, R161): the third real commit within 1 s locks. R159 keeps a test out of the chatter lock-out alone: the model counts
its commit among the commits since the start, and not in the history that `COMMITS` shows (DESIGN CHOICE, log entry 117). -/
def commit (s : State) : State :=
  let test := s.brg.test.isSome
  let hist := if test then s.brg.history else s.now :: s.brg.recent s.now
  let lock := !test && decide (3 ≤ hist.length)
  let t := s.modBrg (fun b =>
    { b with phase := if lock then .locked else .boost, battOn := true, bkLow := false, history := hist,
             commits := b.commits + 1, tbCommit := s.tb.count })
  let t := raiseBrg evt_brgCommit [] t
  let t := if lock then raiseBrg evt_brgChatter [] t else t
  toQualify (if t.brg.limits.shedAtCommit then shedTo t.brg.limits.shedHo false t else t)

/-- The commit point, with `VBK12` in 10 mV. -/
def commitPoint (vbk12 : Int) (s : State) : State :=
  if s.brg.phase = .detected then evalRules (if (s.brg.limits.vBkMin : Int) ≤ vbk12 then commit s else batteryLow s) else s

def execCommitPoint (vbk12 : Int) (s : State) : Result := .next (commitPoint vbk12 s)

/-- `VIN` becomes valid: `BOOST` qualifies; every other state only sees it (R159, R161, R175). -/
def execVinValidInBoost (s : State) : Result :=
  .next (evalRules (toQualify (s.modBrg (fun b => { b with vinOk := true }))))

/-- `VIN` stops being valid: qualification is cleared (Table 6.4). -/
def execVinInvalidInQualify (s : State) : Result :=
  .next (evalRules (s.modBrg (fun b =>
    { b with vinOk := false, phase := if b.phase = .qualify then .boost else b.phase })))

/-- 20 ms of valid `VIN` in `QUALIFY` or `NOFEED` (R162). -/
def qualified (s : State) : State :=
  if (s.brg.phase = .qualify ∨ s.brg.phase = .nofeed) ∧ s.brgRuns then evalRules (enterHandback s) else s

def execQualifyTimeout (s : State) : Result := .next (qualified s)

/-- The ramp is complete: `BUCK`, and the restore begins (R162, R165). -/
def rampComplete (s : State) : State :=
  if s.brg.phase = .handback then
    evalRules (raiseBrg evt_brgHandback [] (enterBuckRestore (s.modBrg (fun b => { b with tbHandback := s.tb.count }))))
  else s

def execHandbackRampComplete (s : State) : Result := .next (rampComplete s)

/-- 10 ms of low battery while boosting (Table 6.7). -/
def execVbk12Low (s : State) : Result := .next (if s.brg.phase.boosts then evalRules (batteryLow s) else s)

/-- The boost current is at its limit and `VZ48` below V_BUS_MIN (R164). -/
def BrgState.overloaded (b : BrgState) (ibk vz48 : Int) : Bool :=
  decide ((b.boostLimit : Int) ≤ ibk) && decide (vz48 < (b.limits.vBusMin : Int))

/-- Overload at every sample for t_OVL: one level more, up to 8 (R164). -/
def boostOverload (ibk vz48 : Int) (s : State) : State :=
  let t := noteVz48 vz48 s
  if s.brg.phase.boosts && decide (s.brg.shedLvl < 8) && s.brg.overloaded ibk vz48 then
    evalRules (shedTo (s.brg.shedLvl + 1) false (raiseBrg evt_brgBoostLimit [] t))
  else t

def execBoostOverload (ibk vz48 : Int) (s : State) : Result := .next (boostOverload ibk vz48 s)

/-- The next t_RESTORE of a restore (R165). -/
def execShedRestore (s : State) : Result :=
  .next (if s.brg.phase = .buck && s.brg.restoring then evalRules (releaseLevel s) else s)

/-- `VZ12` within 5 % for 100 µs: its groups are released (R165). -/
def execVz12GroupRelease (s : State) : Result :=
  .next (if s.brg.phase = .buck && s.brg.railOn && s.brg.shedVz12 then
    evalRules (applyStage (s.modBrg (fun b => { b with shedVz12 := false })))
  else s)

/-! ### Table 6.7 -/

/-- A phase latches at 40 A; with fewer than two phases left the bridge stops. -/
def phaseLatch (ph : Nat) (s : State) : State :=
  if s.brg.phOk.getLsbD ph then
    let t := raiseBrg evt_brgPhaseFault [] (s.modBrg (fun b => { b with phOk := b.phOk &&& ~~~((1 : BitVec 4) <<< ph) }))
    evalRules (if t.brg.phases < 2 then enterStopped (endHandoverTest stat_aborted [] t) else t)
  else s

def execPhaseOvercurrentLatch (ph : Fin 4) (s : State) : Result := .next (phaseLatch ph.val s)

/-- The bridge die's temperature: above 150 °C the current limits fold back until it falls below, and below 140 °C a stopped bridge may run
again. -/
def BrgState.atTemp (b : BrgState) (temp : Int) : BrgState :=
  { b with temp := temp, derate := if b.derate then decide (1500 ≤ temp) else decide (1500 < temp), hotStop := b.hotStop && decide (1400 ≤ temp) }

def dieHot (temp : Int) (s : State) : State :=
  let t := s.modBrg (fun b => b.atTemp temp)
  if t.brg.derate && !s.brg.derate then raiseBrg evt_brgHot [] t else t

def execBridgeDieHot (temp : Int) (s : State) : Result := .next (dieHot temp s)

/-- 170 °C: `NOFEED` during a hand-over, else `STOPPED`. -/
def dieOvertemp (temp : Int) (s : State) : State :=
  let t := dieHot temp s
  if t.brg.hotStop || decide (temp < 1700) then t
  else
    let t := raiseBrg evt_brgOvertemp [] (t.modBrg (fun b => { b with hotStop := true }))
    let t := endHandoverTest stat_aborted [] t
    evalRules (if t.brg.phase.handOver then enterNofeed t else enterStopped t)

def execBridgeDieOvertemp (temp : Int) (s : State) : Result := .next (dieOvertemp temp s)

def execBridgeDieCooled (temp : Int) (s : State) : Result := .next (dieHot temp s)

/-- `VZ12` below 80 % of V_Z12 for 10 ms: the buck stops and the rail opens; one event an episode. -/
def vz12Under (vz12 : Int) (s : State) : State :=
  if s.brg.phase = .buck && s.brg.railOn && decide (vz12 * 100 < (s.brg.target : Int) * 80) then
    let t := s.modBrg (fun b => { b with railOn := false, vz12Fault := true })
    if s.brg.vz12Fault then t else raiseBrg evt_brgVz12Fault [] t
  else s

def execVz12Undervoltage (vz12 : Int) (s : State) : Result := .next (vz12Under vz12 s)

/-- A retry closes the rail again and, where it reaches regulation, ends the episode; RAIL_OFF keeps the rail open. -/
def execVz12Retry (regulated : Bool) (s : State) : Result :=
  .next (if s.brg.phase = .buck && s.brg.vz12Fault && !(s.brg.safeDone && decide (s.brg.safeAct = .railOff)) then
    s.modBrg (fun b => { b with railOn := regulated, vz12Fault := !regulated })
  else s)

/-- Bridge control stops (Table 6.4): a running test ends with it. -/
def controlStop (s : State) : State := evalRules (enterStopped (endHandoverTest stat_aborted [] s))

def execBridgeControlStop (s : State) : Result := .next (controlStop s)

/-- The pair controller closes the pair inside its window without reverse current or a loss in force; a hand-back ramps it
instead, and `NOFEED` keeps it open (R18, R156, R162, Table 6.3). -/
def vinEntry (reverse : Bool) (vin : Int) (s : State) : State :=
  let close := inWindow (pairWindow s.sys.pairClass) vin && !reverse && !s.brg.loss && !s.brg.phase.handOver
  s.modBrg (fun b => { b with pairOn := b.pairOn || close, vinOk := s.vinValid vin })

def execVinWindowEntry (reverse : Bool) (vin : Int) (s : State) : Result := .next (vinEntry reverse vin s)

/-! ### BRG commands (Table 6.13) -/

/-- The comparators as the measured values leave them. -/
def brgMeasured (m : BrgMeasure) (s : State) : State :=
  (noteVz48 (min m.vz48 m.lowest) s).modBrg (fun b => { b with vinOk := s.vinValid m.vin, bkLow := decide (m.vbk12 < (b.limits.vBkMin : Int)) })

/-- The output current of the buck and the battery current, within the limits in force (R153, R167). -/
def BrgState.current (b : BrgState) (m : BrgMeasure) : Int × Int :=
  (if b.phase = .buck then min m.iz12 (b.buckLimit m.vz12) else m.iz12, if b.phase.boosts then min m.ibk12 b.boostLimit else m.ibk12)

/-- Table 6.9. -/
def brgStatus (m : BrgMeasure) (s : State) : List Byte :=
  le32 s.brgWord ++ i16 m.vin ++ i16 m.vz48 ++ i16 m.vz12 ++ i16 m.vbk12 ++ i16 (s.brg.current m).1 ++ i16 (s.brg.current m).2 ++ i16 m.temp
    ++ i16 s.brg.lowest ++ le32 s.brg.commits ++ le32 s.brg.abandons ++ le64 s.brg.tbDetect ++ le64 s.brg.tbCommit
    ++ le64 s.brg.tbHandback

def execBrgGetStatus (r : Req) (m : BrgMeasure) (s : State) : Result :=
  .next (runCmd r { code := 0x0401, lenOk := decide (r.len = 0), need := .any, payload := none, modeOk := s.sys.mode.isServing }
    (fun _ s =>
      let t := brgMeasured m s
      (t, .ok (brgStatus m t))) s)

/-- A bridge command is not available on the 12 V class (R175). -/
def brgBody (body : State → State × Reply) (s : State) : State × Reply :=
  if s.brgPresent then body s else (s, .fail stat_brgClass)

/-- A new V_Z12 acts in `BUCK` and is stored otherwise (the text after Table 6.13). -/
def putTarget (v : Nat) (s : State) : State :=
  s.modBrg (fun b => { b with limits := { b.limits with vZ12 := v }, target := if b.phase = .buck then v else b.target })

def execBrgSetTarget (r : Req) (vZ12 : U16) (s : State) : Result :=
  .next (runCmd r { code := 0x0402, lenOk := decide (r.len = 4), need := .system
                    payload := needStat (vz12Range vZ12.toNat) stat_range, modeOk := s.sys.mode.isRunLimpWork }
    (fun _ => brgBody (fun s => (putTarget vZ12.toNat s, .ok []))) s)

def limitsOf (f : LimitsFields) : BrgLimits :=
  { cls := f.cls.toNat, en := flagOf f.flags 0, shedAtCommit := flagOf f.flags 1
    safe := (match (f.flags.extractLsb' 2 2).toNat with
             | 1 => .railOff
             | 2 => .allOff
             | _ => .keep)
    shedHo := f.shedHo.toNat, vUv := f.vUv.toNat, vZ12 := f.vZ12.toNat, vBst := f.vBst.toNat, iBuck := f.iBuck.toNat,
    iBst := f.iBst.toNat, vBkMin := f.vBkMin.toNat, vBusMin := f.vBusMin.toNat, tOvl := f.tOvl.toNat,
    tRestore := f.tRestore.toNat, rPair := f.rPair.toNat, grpSrc := f.grpSrc }

/-- The record replaces the limits in `BUCK` and `STOPPED`; the shed stage follows its group sources. -/
def setLimitsBody (l : BrgLimits) (s : State) : State × Reply :=
  if s.brg.phase = .buck ∨ s.brg.phase = .stopped then
    (evalRules (applyStage (s.modBrg (fun b => b.takeLimits l))), .ok [])
  else (s, .fail stat_brgActive)

/-- On the 12 V class the class decides before the record's ranges, which are given for the two others alone. -/
def execBrgSetLimits (r : Req) (f : LimitsFields) (s : State) : Result :=
  .next (runCmd r { code := 0x0403, lenOk := decide (r.len = 32), need := .system
                    payload := orStat (needStat (decide (f.flags.toNat < 16) && decide (f.flags.extractLsb' 2 2 ≠ 3)) stat_badPayload)
                      (needStat (!s.brgPresent || (limitsOf f).ok s.cfg.image.boardnet) stat_range)
                    modeOk := decide (s.sys.mode = .workshop) }
    (fun _ => brgBody (setLimitsBody (limitsOf f))) s)

/-- `LOCKED` ends: `BOOST`, then `QUALIFY` at once if `VIN` is valid (Table 6.4). -/
def releaseBody (s : State) : State × Reply :=
  if s.brg.phase = .locked then
    let t := evalRules (toQualify (s.modBrg (fun b => { b with phase := .boost, history := [] })))
    (t, .ok (le32 t.brgWord))
  else (s, .fail stat_badState)

def execBrgRelease (r : Req) (s : State) : Result :=
  .next (runCmd r { code := 0x0404, lenOk := decide (r.len = 0), need := .system, payload := none, modeOk := s.sys.mode.isRunLimpWork }
    (fun _ => brgBody releaseBody) s)

def execBrgSetShed (r : Req) (shedHo shedAt : Byte) (s : State) : Result :=
  .next (runCmd r { code := 0x0405, lenOk := decide (r.len = 4), need := .system
                    payload := needStat (decide (shedHo.toNat ≤ 8) && decide (shedAt.toNat ≤ 1)) stat_range
                    modeOk := s.sys.mode.isRunLimpWork }
    (fun _ => brgBody (fun s =>
      (s.modBrg (fun b => { b with limits := { b.limits with shedHo := shedHo.toNat, shedAtCommit := decide (shedAt = 1) } }), .ok []))) s)

/-- A test hand-over (R175): it needs `BUCK`, valid `VIN` and a battery 1 V above V_BK_MIN. The pair is closed in `BUCK`, so that `VZ48` stands
at `VIN`. -/
def testHandoverBody (r : Req) (duration : Nat) (vin vbk12 : Int) (s : State) : State × Reply :=
  let s := s.modBrg (fun b => { b with vinOk := s.vinValid vin })
  if s.brg.phase ≠ .buck ∧ s.brg.phase ≠ .stopped then (s, .fail stat_brgActive)
  else if s.brg.phase = .stopped ∨ !s.brg.vinOk then (s, .fail stat_badState)
  else if vbk12 < (s.brg.limits.vBkMin : Int) + 100 then (s, .fail stat_brgNoBattery)
  else
    (detect 3 vin vin (s.modBrg (fun b => { b with test := some { port := r.port, tag := r.tag, reqSeq := r.seq, duration := duration } })),
      .fail stat_pending)

def execBrgTestHandover (r : Req) (duration : U16) (vin vbk12 : Int) (s : State) : Result :=
  .next (runCmd r { code := 0x0406, lenOk := decide (r.len = 4), need := .system
                    payload := needStat (within 10 10000 duration.toNat) stat_range
                    modeOk := decide (s.sys.mode = .workshop) }
    (fun _ => brgBody (testHandoverBody r duration.toNat vin vbk12)) s)

/-- The test's duration ends: `HANDBACK` if `VIN` is valid, else it stays in `BOOST` (R175). -/
def handoverTestEnd (lowest peak : Int) (energy : U32) (s : State) : State :=
  if s.brg.test.isSome then
    let t := if s.brg.phase = .boost && s.brg.vinOk then enterHandback s else s
    evalRules (endHandoverTest stat_ok (i16 lowest ++ i16 peak ++ le32 energy) t)
  else s

def execHandoverTestEnd (lowest peak : Int) (energy : U32) (s : State) : Result :=
  .next (handoverTestEnd lowest peak energy s)

end Sys2Proof.Machine
end

