-- ==== Sys2Proof/Machine/SignalRows.lean ====
section
/-! DEFINITION. The rows of the signal exchange (chapter 12): events, timers, window slots, I3 records, and its commands. -/

namespace Sys2Proof.Machine

/-! ### Pipelines and timers -/

/-- Run the oldest event of a pipeline (R349). -/
def pipeRun (k : Nat) (s : State) : State :=
  match s.sig.queues.getD [] k with
  | [] => s
  | ev :: r =>
    let s := s.modSig (fun g => { g with queues := g.queues.set k r })
    if s.sigOn then runEvent ev s else s

/-- The bridge's status bytes reach every `BRG_STAT` PDU of the pipeline (Table 12.1). -/
def brgArrive (k : Nat) (m : BrgMeasure) (s : State) : State :=
  (s.pdusWith (fun p => decide (p.kind = 14))).foldl (fun s q =>
    if q % 4 = k then sigArrive q ((brgStatus m s).take 20) 0 s else s) s

def execSourcePduUpdate (pipe : Fin 4) (brg : Option BrgMeasure) (s : State) : Result :=
  let t := match brg with
    | some m => if s.powered pdBrg then brgArrive pipe.val m s else s
    | none => s
  .next (evalRules (pipeRun pipe.val t))

/-- T_TO passes without an update (R338). -/
def pduTimeout (q : Nat) (s : State) : State :=
  match s.sig.pdus.get? q with
  | none => s
  | some p =>
    if p.tTo = 0 ∨ !stepped p.kind ∨ !s.sigOn then s
    else evalRules (runPdu q (s.modPdu q (fun x => { x with valid := false })))

def execPduTimeout (p : Fin 65536) (s : State) : Result := .next (pduTimeout p.val s)

/-- A CYCLIC signal writes at its INTERVAL (R344). -/
def execSignalCyclicWrite (d : Fin 262144) (s : State) : Result :=
  .next (if s.sigOn && (s.sig.descs.get? d.val).any (fun x => decide (x.policy = 1) && decide (x.kind ≠ .sink))
    then evalRules (flushSinks (emit sigDepth d.val s)) else s)

/-- The end of an ON_CHANGE_MIN interval (R344). -/
def execSignalDeferredWrite (d : Fin 262144) (s : State) : Result :=
  .next (if s.sigOn && (s.sigRun d.val).deferred then evalRules (flushSinks (emit sigDepth d.val s)) else s)

/-- A sink PDU's PERIOD: a CYCLIC one leaves, and an ON_UPDATE_MIN one that waits (R344). -/
def pduCyclic (q : Nat) (s : State) : State :=
  match s.sig.pdus.get? q with
  | none => s
  | some p =>
    if !s.sigOn ∨ !([2, 4, 8].contains p.kind) then s
    else if p.trig = 1 ∨ (p.trig = 2 ∧ (s.pduRun q).sendWaits) then sendPdu q s else s

def execPduCyclicSend (p : Fin 65536) (s : State) : Result := .next (pduCyclic p.val s)

/-! ### I3 records (R354) -/

/-- The records of a frame: PDU ID, kind and data. -/
def i3Records : Nat → List Byte → List (U32 × Nat × List Byte)
  | 0, _ => []
  | n + 1, l =>
    if l.length < 8 then []
    else
      let len := getField l ((List.range 16).map (32 + ·))
      let pad := (4 - len % 4) % 4
      let data := (l.drop 8).take len
      if data.length < len ∨ len = 0 then []
      else (BitVec.ofNat 32 (getField l (List.range 32)), (l.getD 6 0).toNat, data) :: i3Records n (l.drop (8 + len + pad))

def i3Take (vid : Nat) (x : U32 × Nat × List Byte) (s : State) : State :=
  let qs := s.pdusWith (fun p => decide (p.kind = 7) && decide (p.word 12 = x.1) && decide (p.half 16 = vid))
  if x.2.1 ≠ 0 ∨ qs.isEmpty then s.modSig (fun g => { g with ignoredRecords := g.ignoredRecords + 1 })
  else qs.foldl (fun s q => sigArrive q x.2.2 0 s) s

def execI3RecordFrame (vid : BitVec 12) (payload : List Byte) (s : State) : Result :=
  .next (if s.sigOn then (i3Records payload.length payload).foldl (fun s x => i3Take vid.toNat x s) s else s)

/-! ### Table faults (R357) -/

def sigEcc (pdu : Bool) (i : Nat) (s : State) : State :=
  if pdu then
    match s.sig.pdus.get? i with
    | none => s
    | some p =>
      evalRules (runPdu i (raise evt_sigTableEcc p.owner (ownerScope p.owner) (n32 i) (s.modPdu i (fun x => { x with disabled := true }))))
  else
    match s.sig.descs.get? i with
    | none => s
    | some d => raiseSig evt_sigTableEcc i d.owner (s.modRun i (fun x => { x with disabled := true }))

def execSigTableEcc (pdu : Bool) (i : Fin 262144) (s : State) : Result := .next (sigEcc pdu i.val s)

/-! ### Window slots (R358) -/

def slotKey (v k : Nat) : Nat := v * 1024 + k

/-- The window PDUs of a slot: kind 9 for a write slot, 10 for a read slot. -/
def State.slotPdus (s : State) (v k kind : Nat) : List Nat :=
  s.pdusWith (fun p => decide (p.kind = kind) && decide (p.owner = v) && decide (p.half 12 = k))

/-- The update of a write slot: its value reaches its PDUs. -/
def slotUpdate (v k : Nat) (s : State) : State :=
  let w := s.sig.wrSlots.getD (0, 0) (slotKey v k)
  (s.slotPdus v k 9).foldl (fun s q => sigArrive q (le32 w.1 ++ le32 w.2) 0 s) s

def setSlot (v k : Nat) (lo hi : U32) (s : State) : State :=
  s.modSig (fun g => { g with wrSlots := g.wrSlots.set (slotKey v k) (lo, hi) })

def slotWriteLo (v k : Nat) (w : U32) (s : State) : State :=
  if (s.slotPdus v k 9).isEmpty then windowFault v s
  else if !s.vzfActive v then s
  else slotUpdate v k (setSlot v k w (s.sig.wrSlots.getD (0, 0) (slotKey v k)).2 s)

def execSigWrLoWrite (v : Fin 256) (slot : Fin 1024) (value : U32) (s : State) : Result := .next (slotWriteLo v.val slot.val value s)

/-- The value of a read slot, sign-extended from its sink's length. -/
def State.slotValue (s : State) (q : Nat) : U64 :=
  let data := (s.pduRun q).data
  let u := getField (if data.isEmpty then zeros 8 else data) (List.range 64)
  match s.sig.descs.cells.find? (fun c => decide (c.2.kind = .sink) && decide (c.2.pdu = q)) with
  | some c => if c.2.signed && decide (c.2.bitpos = 0) && !c.2.bo then BitVec.ofInt 64 (c.2.raw u) else BitVec.ofNat 64 u
  | none => BitVec.ofNat 64 u

/-- `SIG_RD_STATE` and `SIG_RD_STAMP` (Tables 12.8, 12.9). -/
def State.slotState (s : State) (q : Nat) : U32 × U32 :=
  match (s.pduRun q).writer with
  | none => (0xFF000000, 0)
  | some i =>
    let x := s.sigRun i
    (wordOf [(s.sigAge i, 24), (bit x.written.isSome, 23), (bit x.subst, 22), (bit x.sat, 21), (x.count.toNat, 0)],
     x.stamp.extractLsb' 0 32)

/-- A read of `SIG_RD_LO` latches the other three registers. -/
def slotRead (v k : Nat) (s : State) : State :=
  match s.slotPdus v k 10 with
  | [] => windowFault v s
  | q :: _ =>
    let u := s.slotValue q
    let st := s.slotState q
    { s.modSig (fun g => { g with rdLatch := g.rdLatch.set (slotKey v k) (u.extractLsb' 32 32, st.1, st.2) }) with
      bus := BitVec.setWidth 64 (u.extractLsb' 0 32) }

def execSigRdLoRead (v : Fin 256) (slot : Fin 1024) (s : State) : Result := .next (slotRead v.val slot.val s)

/-! ### SIG.LOAD (R339, R343, R355) -/

def recByte (b : List Byte) (o : Nat) : Nat := (b.getD o 0).toNat
def recHalf (b : List Byte) (o : Nat) : Nat := recByte b o + 256 * recByte b (o + 1)
def recWord (b : List Byte) (o : Nat) : U32 := BitVec.ofNat 32 (recHalf b o + 65536 * recHalf b (o + 2))

/-- The sink references in use. -/
def recSinks (b : List Byte) : List Nat :=
  (List.range 4).filterMap (fun k =>
    let r := recHalf b (24 + 2 * k) + 65536 * (recByte b 23 / 4 ^ k % 4)
    if r = 0x3FFFF then none else some r)

/-- A signal record (Table 12.4); a SINK's owner is that of the range that holds it. -/
def decodeSig (b : List Byte) (rangeOwner : Nat) : SigDesc :=
  let f := b.getD 0 0
  let kind : SigKind := if recByte b 0 % 4 = 0 then .signal else if recByte b 0 % 4 = 1 then .chained else .sink
  let xp := recByte b 6
  { kind := kind, bo := flagOf f 2, signed := flagOf f 3, invEn := flagOf f 4, invSubst := flagOf f 5, idxHi := recByte b 0 / 64
    len := recByte b 1, bitpos := recHalf b 2, pdu := recHalf b 4, transform := xp % 8, policy := xp / 8 % 4, ageLim := recByte b 7
    argA := recWord b 8, argB := recWord b 12, subst := recWord b 16, interval := recHalf b 20
    owner := if kind = .sink then rangeOwner else recByte b 22, sinks := if kind = .sink then [] else recSinks b }

/-- The parts of a signal record that leave no choice: kind, zero bits, a SINK's zero rest, INTERVAL and AGE_LIM. -/
def sigRecordOk (b : List Byte) : Bool :=
  let k := recByte b 0 % 4
  if k = 2 then decide (recByte b 0 < 16) && (b.drop 6).all (· == 0)
  else decide (k ≠ 3) && decide (recByte b 6 < 32) && decide (recByte b 6 / 8 ≠ 3) && decide (recByte b 7 ≠ 255)
    && decide (1 ≤ recHalf b 20)

/-- A PDU record (Table 12.2). -/
def decodePdu (b : List Byte) : PduDesc :=
  { kind := recByte b 0, owner := recByte b 1, length := recHalf b 2, trig := recByte b 4 % 4, period := recHalf b 6
    tTo := recHalf b 8, fields := (b.drop 12).take 20 }

def pduRecordOk (b : List Byte) : Bool :=
  decide (recByte b 4 ≤ 2) && decide (recByte b 5 = 0) && decide (recHalf b 10 = 0) && decide (1 ≤ recHalf b 6)

/-- The kind fields of Table 12.3. -/
def PduDesc.fieldsOk (p : PduDesc) : Bool :=
  let len := decide (1 ≤ p.length) && decide (p.length ≤ 2048)
  match p.kind with
  | 1 => len && decide (p.byte 12 ≤ 15) && decide (p.byte 13 < 8) && decide (p.byte 14 ≤ 1)
  | 2 => len && decide (p.byte 12 ≤ 15) && decide (p.byte 13 ≤ 31) && dlenOk (p.byte 14) p.length && decide (p.byte 15 < 4)
  | 3 | 4 => len && decide (p.length ≤ 8) && decide (p.byte 12 ≤ 15) && decide (p.byte 13 ≤ 59)
  | 5 => len && decide (p.half 12 < 384)
  | 6 => len && decide (p.half 12 < 384) && decide (1 ≤ p.byte 14)
  | 7 => len && decide (p.half 16 < 4096)
  | 8 => len && decide (p.half 16 < 4096) && decide (p.byte 18 ≤ 7)
  | 9 | 10 => decide (p.half 12 < 1024)
  | 11 => decide (p.half 12 < 112) && decide (p.byte 14 ≤ 15)
  | 13 => decide (p.half 12 < 112)
  | 12 | 14 => true
  | _ => false

/-- Arguments of Table 12.5. -/
def SigDesc.argsOk (d : SigDesc) : Bool :=
  match d.transform with
  | 0 => decide (d.argA = 0) && decide (d.argB = 0)
  | 1 => decide (Machine.bits d.argB 6 2 = 0)
  | 2 => decide (d.argA.toNat ≤ 65535) && decide (1 ≤ d.argB.toNat) && decide (d.argB.toNat ≤ 4096)
  | 3 => decide (d.argA.toInt ≤ d.argB.toInt)
  | 4 => decide (d.argB.toNat ≤ 63)
  | 5 => decide (d.argB.toInt ≤ d.argA.toInt)
  | 6 => decide (d.argB = 0)
  | _ => true

/-- One descriptor against the PDU table (R337, R339, R341, R355). -/
def SigDesc.check (d : SigDesc) (pdus : Tbl PduDesc) : Option U16 :=
  match d.kind with
  | .chained => if d.len = 0 ∧ d.pdu = 0 ∧ d.idxHi = 0 ∧ d.argsOk then none else some stat_sigDesc
  | .signal =>
    match pdus.get? d.pdu with
    | none => some stat_sigDesc
    | some p =>
      if 1 ≤ d.len ∧ d.len ≤ 64 ∧ isSource p.kind ∧ (d.idxHi = 0 ∨ p.kind = 5) ∧ d.argsOk
          ∧ (p.kind = 5 ∨ d.bits.all (fun b => decide (b < 8 * p.size))) then none else some stat_sigDesc
  | .sink =>
    match pdus.get? d.pdu with
    | none => some stat_sigDesc
    | some p =>
      if !(decide (1 ≤ d.len) && decide (d.len ≤ 64) && isSink p.kind
          && (decide (p.kind = 6) || d.bits.all (fun b => decide (b < 8 * p.size)))) then some stat_sigDesc
      else if p.owner = d.owner ∨ (p.owner = 255 ∧ p.kind ≠ 10 ∧ p.kind ≠ 11) then none else some stat_sigSink

/-- One PDU: its fields, and the owner of its channel, slot or buffer (R337, R355). -/
def State.pduCheck (s : State) (p : PduDesc) : Option U16 :=
  if !p.fieldsOk then some stat_sigDesc
  else match p.kind with
  | 2 => if s.canSigBuf (p.byte 12) (p.byte 13) then none else some stat_sigDesc
  | 9 | 10 => if p.owner ≠ 255 ∧ (s.vzf p.owner).exists_ then none else some stat_sigSink
  | 11 => if p.owner ≠ 255 ∧ s.chOwner (p.half 12) = some p.owner then none else some stat_sigSink
  | _ => none

/-- Depth of a chain, counted in CHAINED descriptors down from `i`. -/
def chainDepth (t : Tbl SigDesc) : Nat → Nat → Nat
  | 0, _ => 0
  | n + 1, i =>
    match t.get? i with
    | some d => (if d.kind = .chained then 1 else 0) + (d.sinks.map (fun r => chainDepth t n r)).foldl max 0
    | none => 0

/-- References name SINK or CHAINED descriptors, each CHAINED one by one reference only, no chain deeper than four, and no two
SINK fields of a PDU overlap (R339, R343). -/
def tableCheck (t : Tbl SigDesc) (pdus : Tbl PduDesc) : Option U16 :=
  let refs := t.cells.flatMap (fun c => c.2.sinks)
  let named := fun r => (t.get? r).any (fun d => decide (d.kind ≠ .signal))
  let chained := refs.filter (fun r => (t.get? r).any (fun d => decide (d.kind = .chained)))
  let sinks := t.cells.filter (fun c => decide (c.2.kind = .sink) && !(pdus.get? c.2.pdu).any (fun p => decide (p.kind = 6)))
  if !refs.all named then some stat_sigDesc
  else if chained.any (fun r => decide (1 < (chained.filter (· == r)).length)) then some stat_sigSink
  else if t.cells.any (fun c => decide (c.2.kind = .signal) && decide (4 < chainDepth t 7 c.1)) then some stat_sigDesc
  else if t.cells.any (fun c => decide (c.2.kind = .chained) && !chained.contains c.1) then some stat_sigDesc
  else if sinks.any (fun a => sinks.any (fun b => decide (a.1 < b.1) && decide (a.2.pdu = b.2.pdu)
      && a.2.bits.any (fun k => b.2.bits.contains k))) then some stat_sigSink
  else none

/-- The pieces of a list of records. -/
def pieces (size : Nat) : Nat → List Byte → List (List Byte)
  | 0, _ => []
  | n + 1, l => l.take size :: pieces size n (l.drop size)

def firstStat : List (Option U16) → Option U16
  | [] => none
  | a :: r => orStat a (firstStat r)

/-- A fresh PDU: a `WIN_WRITE` PDU is not valid until its first write (R338), and an internal one has age 0 (R345). -/
def pduFresh (p : PduDesc) : PduRun := { PduRun.reset with valid := decide (p.kind ≠ 9), age := if 12 ≤ p.kind then 0 else 255 }

def zipIdxFrom (k : Nat) : List (List Byte) → List (Nat × List Byte)
  | [] => []
  | b :: r => (k, b) :: zipIdxFrom (k + 1) r

/-- Load signal records: all checks first, then the table changes (R355). -/
def loadSignals (rs : List (Nat × List Byte)) (s : State) : State × Reply :=
  let ds := rs.map (fun x => (x.1, decodeSig x.2 ((s.sigOwner x.1).getD 255)))
  let t := ds.foldl (fun t x => t.set x.1 x.2) s.sig.descs
  match orStat (needStat (rs.all (fun x => sigRecordOk x.2)) stat_sigDesc)
      (orStat (firstStat (ds.map (fun x => x.2.check s.sig.pdus))) (tableCheck t s.sig.pdus)) with
  | some st => (s, .fail st)
  | none => (s.modSig (fun g => { g with descs := t, runs := ds.foldl (fun u x => u.set x.1 { SigRun.reset with loaded := true }) g.runs }), .ok [])

/-- Load PDU records; kind 0 leaves a place unused. -/
def loadPdus (rs : List (Nat × List Byte)) (s : State) : State × Reply :=
  let ps := rs.map (fun x => (x.1, decodePdu x.2))
  let t := ps.foldl (fun t x => if x.2.kind = 0 then t.erase x.1 else t.set x.1 x.2) s.sig.pdus
  let used := ps.filter (fun x => decide (x.2.kind ≠ 0))
  let deps := s.sig.descs.cells.filter (fun c => decide (c.2.kind ≠ .chained) && ps.any (fun x => decide (x.1 = c.2.pdu)))
  match orStat (needStat (rs.all (fun x => decide (recByte x.2 0 = 0) || pduRecordOk x.2)) stat_sigDesc)
      (orStat (firstStat (used.map (fun x => s.pduCheck x.2)))
        (orStat (firstStat (deps.map (fun c => c.2.check t))) (tableCheck s.sig.descs t))) with
  | some st => (s, .fail st)
  | none =>
    (s.modSig (fun g => { g with pdus := t, pduRuns := ps.foldl (fun u x => u.set x.1 (pduFresh x.2)) g.pduRuns }), .ok [])

def loadLookup (rs : List (Nat × List Byte)) (s : State) : State × Reply :=
  (s.modSig (fun g => { g with lookup := rs.foldl (fun t x => t.set x.1 (recWord x.2 0)) g.lookup }), .ok [])

/-- The caller's range of descriptors or PDUs; any with the system privilege (R355). -/
def inRange (p : Port) (own : Nat → Option Nat) (first n : Nat) : Bool :=
  p.sysPriv || (List.range n).all (fun k => p.vzf.isSome && decide (own (first + k) = p.vzf))

def loadBody (p : Port) (first table : Nat) (rs : List (List Byte)) (s : State) : State × Reply :=
  let rs := zipIdxFrom first rs
  let own := if table = 0 then s.sigOwner else s.pduOwner
  if table ≠ 2 ∧ !inRange p own first rs.length then (s, .fail stat_sigRange)
  else match table with
  | 0 => loadSignals rs s
  | 1 => loadPdus rs s
  | _ => loadLookup rs s

/-- Allowed in Start-up from step 13 as well (R367). -/
def State.step13 (s : State) : Bool :=
  s.sys.mode.isRunLimpWork || (decide (s.sys.mode = .startup) && decide (13 ≤ s.sys.step))

def execSigLoad (r : Req) (first : U32) (n : U16) (table : Byte) (records : List Byte) (s : State) : Result :=
  let size := if table = 2 then 4 else 32
  let top := if table = 2 then 1006 else 125
  let all := if table = 0 then 262144 else 65536
  .next (runCmd r
    { code := 0x0C01, lenOk := decide (r.len = 8 + size * n.toNat) && decide (records.length = size * n.toNat)
      need := if table = 2 then .system else .any
      payload := orStat (needStat (decide (table.toNat ≤ 2)) stat_badPayload)
        (needStat (decide (1 ≤ n.toNat) && decide (n.toNat ≤ top) && decide (first.toNat + n.toNat ≤ all)) stat_range)
      modeOk := s.step13 }
    (fun p s => loadBody p first.toNat table.toNat (pieces size n.toNat records) s) s)

/-! ### SIG.READ, SIG.WRITE, SIG.GET_STATUS -/

def sigValue (s : State) (i : Nat) : U64 :=
  match s.sig.descs.get? i with
  | some d =>
    if d.kind = .sink then BitVec.ofInt 64 (d.raw (s.sigRun i).field)
    else match (s.sigRun i).written with
    | some (.num v) => BitVec.ofInt 64 v
    | some .notValid => 0xFFFFFFFFFFFFFFFF
    | none => 0
  | none => 0

/-- The 16 bytes of a descriptor; a SINK reports the state of the signal that writes it. -/
def sigBytes (s : State) (i : Nat) : List Byte :=
  let k := if (s.sig.descs.get? i).any (fun d => decide (d.kind = .sink)) then (s.sig.referrer i).getD i else i
  let x := s.sigRun k
  le64 (sigValue s i) ++ [byteOf (s.sigAge k), byteOf (bit x.written.isSome + bit x.subst * 2 + bit x.sat * 4)] ++ le16 x.count
    ++ le32 (x.stamp.extractLsb' 0 32)

def sigRangeCmd (code : U16) (r : Req) (first : U32) (n : U16) (top : Nat) (s : State) : Cmd :=
  { code := code, lenOk := decide (r.len = 8), need := .any
    payload := needStat (decide (1 ≤ n.toNat) && decide (n.toNat ≤ top) && decide (first.toNat + n.toNat ≤ 262144)) stat_range
    modeOk := s.sys.mode.isRunLimpWork }

def execSigRead (r : Req) (first : U32) (n : U16) (s : State) : Result :=
  .next (runCmd r (sigRangeCmd 0x0C02 r first n 251 s)
    (fun p s =>
      if !inRange p s.sigOwner first.toNat n.toNat then (s, .fail stat_sigRange)
      else (s, .ok ((List.range n.toNat).flatMap (fun k => sigBytes s (first.toNat + k))))) s)

/-- The VZF that `SIG.WRITE` names: the port's own, or the one in the target field. -/
def writeTarget (p : Port) (target : U16) : Option Nat :=
  if target.getLsbD 15 then some (target.toNat % 256) else p.vzf

def sigWriteBody (p : Port) (target : U16) (es : List SigWriteEntry) (s : State) : State × Reply :=
  match writeTarget p target with
  | none => (s, .fail stat_range)
  | some v =>
    if p.vzf ≠ some v ∧ !p.sysPriv then (s, .fail stat_notOwner)
    else if es.any (fun e => (s.slotPdus v e.slot.toNat 9).isEmpty) then (s, .fail stat_notOwner)
    else if !s.vzfActive v then (s, .ok [])
    else
      (es.foldl (fun s e => slotUpdate v e.slot.toNat
        (setSlot v e.slot.toNat (e.value.extractLsb' 0 32) (e.value.extractLsb' 32 32) s)) s, .ok [])

def execSigWrite (r : Req) (n target : U16) (entries : List SigWriteEntry) (s : State) : Result :=
  .next (runCmd r
    { code := 0x0C03, lenOk := decide (r.len = 4 + 12 * n.toNat) && decide (entries.length = n.toNat), need := .any
      payload := orStat (needStat (decide (target.toNat % 32768 < 256)) stat_badPayload)
        (needStat (decide (1 ≤ n.toNat) && decide (n.toNat ≤ 335) && entries.all (fun e => decide (e.slot.toNat < 1024))) stat_range)
      modeOk := s.sys.mode.isRunLimpWork }
    (fun p s => sigWriteBody p target entries s) s)

/-- Two bits a descriptor, four to a byte. -/
def packTwo (codes : List Nat) : Nat → List Byte
  | 0 => []
  | n + 1 => byteOf (codes.getD 0 0 + codes.getD 1 0 * 4 + codes.getD 2 0 * 16 + codes.getD 3 0 * 64) :: packTwo (codes.drop 4) n

def getStatusBody (first n : Nat) (s : State) : State × Reply :=
  let is := (List.range n).map (first + ·)
  let codes := is.map (fun i => bit (s.sigRun i).satRead + bit (s.sigRun i).subst * 2)
  let t := s.modSig (fun g => { g with runs := g.runs.mapAll (fun i x =>
    if first ≤ i ∧ i < first + n then { x with satRead := false } else x) })
  (t, .ok (n32 (is.filter (fun i => (s.sigRun i).subst)).length ++ n32 s.sig.dropped ++ n32 s.sig.backlogs ++ n32 s.sig.deferrals
    ++ packTwo codes ((n + 3) / 4)))

def execSigGetStatus (r : Req) (first : U32) (n : U16) (s : State) : Result :=
  .next (runCmd r (sigRangeCmd 0x0C04 r first n 16000 s)
    (fun p s =>
      if !inRange p s.sigOwner first.toNat n.toNat then (s, .fail stat_sigRange) else getStatusBody first.toNat n.toNat s) s)

/-! ### At a start and at a VZF reset -/

/-- The tables come from the image; nothing has been received or written (R215, R338, R345). -/
def sigConfigure (s : State) : State :=
  let g := s.cfg.image
  { s with sig := { SigState.reset with
      descs := g.sigs, pdus := g.pdus, lookup := g.lookup, pduRuns := ⟨g.pdus.cells.map (fun c => (c.1, pduFresh c.2))⟩
      streams := ⟨g.prs.cells.map (fun c => (c.1, { PrsStream.reset with config := some c.2 }))⟩ } }

/-- A descriptor that is in a case of R346 from the start takes its substitute. -/
def startSubst (i : Nat) (d : SigDesc) (s : State) : State :=
  match d.kind with
  | .signal =>
    match s.sig.pdus.get? d.pdu with
    | some p => if !(s.pduRun d.pdu).valid || s.sigOver i then runSignal i d p s else s
    | none => s
  | .chained =>
    if s.sigOver i then
      let o := offer i d (.num d.subst.toInt) true false s
      if o.2 then emit sigDepth i o.1 else o.1
    else s
  | .sink => s

/-- The exchange starts: what has no valid source, or none as young as its `AGE_LIM`, is in substitute (R338, R345, R346). -/
def sigBegin (s : State) : State :=
  if s.sigOn then flushSinks (s.sig.descs.cells.foldl (fun s c => startSubst c.1 c.2 s) s) else s

/-- Step 3 of a VZF reset (R356): write slots zeroed and their PDUs not valid, read slots zeroed and rewritten with their
signals' state. -/
def sigZero (v : Nat) (s : State) : State :=
  let mine := fun k => decide (k / 1024 = v)
  let s := s.modSig (fun g => { g with wrSlots := ⟨g.wrSlots.cells.filter (fun c => !mine c.1)⟩
                                       rdLatch := ⟨g.rdLatch.cells.filter (fun c => !mine c.1)⟩ })
  let ws := s.pdusWith (fun p => decide (p.kind = 9) && decide (p.owner = v))
  let s := ws.foldl (fun s q => runPdu q (s.modPdu q (fun x => { x with valid := false, data := zeros 8 }))) s
  let rs := s.pdusWith (fun p => decide (p.kind = 10) && decide (p.owner = v))
  let s := rs.foldl (fun s q => s.modPdu q (fun x => { x with data := zeros 8, writer := none })) s
  s.sig.descs.cells.foldl (fun s c =>
    if c.2.kind = .sink ∧ rs.contains c.2.pdu then
      match s.sig.referrer c.1 with
      | some w =>
        match (s.sigRun w).written with
        | some x => (sinkWrite c.1 w c.2 x s).1
        | none => s
      | none => s
    else s) s

end Sys2Proof.Machine
end

