-- ==== Sys2Proof/Machine/PressCodec.lean ====
section
/-! DEFINITION. The press codec: blocks (R360 to R362), their leaving (R363), captures (R364), its commands, and the freezing of
`SIG` slots (R352). -/

namespace Sys2Proof.Machine

def State.modStream (s : State) (n : Nat) (f : PrsStream → PrsStream) : State :=
  s.modSig (fun g => { g with streams := g.streams.modify .reset n f })

/-! ### Sources (Table 12.12) -/

/-- Sample width, and whether samples are signed. -/
def prsWidth (src : Nat) : Nat × Bool :=
  if src < 112 then (if chClass src = .half then (15, true) else (14, false))
  else if src < 512 then (14, true) else (14, false)

def prsSource (src : Nat) : Bool :=
  decide (src < 112) || (decide (256 ≤ src) && decide (src < 260)) || (decide (512 ≤ src) && decide (src < 560))

/-- Samples a second, and the source period in ns. -/
def prsRate (src : Nat) : Nat := if src < 512 then 1000000 else 10000
def prsPeriod (src : Nat) : Nat := 1000000000 / prsRate src

/-- The fault pedestal or the not-valid code. -/
def isPedestal (src : Nat) (x : Int) : Bool :=
  if src < 112 ∧ chClass src = .half then decide (x.natAbs = 0x3FFF)
  else if 256 ≤ src ∧ src < 260 then false
  else decide (x = 0x3FFF)

/-- Limits of the sample domain, without the pedestal when the block may lose (R362). -/
def prsLimits (src e : Nat) : Int × Int :=
  let w := prsWidth src
  if src < 112 ∧ w.2 then (if e = 0 then (-0x3FFF, 0x3FFF) else (-0x3FFE, 0x3FFE))
  else if w.2 then (-8192, 8191)
  else (0, if e = 0 then 0x3FFF else 0x3FFE)

/-! ### Coding a block (R360 to R362) -/

/-- The mean of 2^k samples, rounded half to even; a pedestal in the group is the output (R360). -/
def decimate (src k : Nat) (g : List Int) : Int :=
  match g.find? (isPedestal src) with
  | some p => p
  | none => roundHalfEven (g.foldl (· + ·) 0) k

def decimateAll (src k : Nat) : Nat → List Int → List Int
  | 0, _ => []
  | n + 1, l => decimate src k ((l ++ List.replicate (2 ^ k) 0).take (2 ^ k)) :: decimateAll src k n (l.drop (2 ^ k))

def clampI (x lo hi : Int) : Int := min (max x lo) hi

/-- The quantised residues as unsigned numbers, from the reconstructed two samples before (R362). -/
def prsResidues (e : Nat) (lo hi : Int) : Int → Int → List Int → List Nat
  | _, _, [] => []
  | a, b, x :: r =>
    let step : Int := 2 * (e : Int) + 1
    let p := clampI (2 * b - a) lo hi
    let d := x - p
    let q : Int := if 0 ≤ d then (d + (e : Int)) / step else -((-d + (e : Int)) / step)
    (if 0 ≤ q then 2 * q.toNat else 2 * (-q).toNat - 1) :: prsResidues e lo hi b (clampI (p + q * step) lo hi) r

def riceBits (u : List Nat) (k : Nat) : Nat := u.foldl (fun a x => a + x / 2 ^ k + 1 + k) 0

/-- The parameter of fewest bits, the lowest on a tie. -/
def riceBest (u : List Nat) : Nat :=
  (List.range 15).foldl (fun best k => if riceBits u k < riceBits u best then k else best) 0

/-- `n` bits of a number, most significant first. -/
def bitsMsb (n v : Nat) : List Bool := (List.range n).map (fun j => decide (v / 2 ^ (n - 1 - j) % 2 = 1))

def rawBits (w : Nat) (x : Int) : List Bool := bitsMsb w (x % ((2 ^ w : Nat) : Int)).toNat

def riceCode (k u : Nat) : List Bool := List.replicate (u / 2 ^ k) true ++ [false] ++ bitsMsb k (u % 2 ^ k)

/-- Bits packed most significant first and padded to a byte. -/
def packBits : Nat → List Bool → List Byte
  | 0, _ => []
  | n + 1, l =>
    if l.isEmpty then []
    else byteOf (((l ++ List.replicate 8 false).take 8).foldl (fun a b => 2 * a + bit b) 0) :: packBits n (l.drop 8)

def codeOfLoss (e : Nat) : Nat := if e = 8 then 4 else if e = 4 then 3 else e

/-- A block of 32 output samples: control word and body (R361, Table 12.13). -/
def prsBlock (src e dec : Nat) (x : List Int) : List Byte :=
  let w := (prsWidth src).1
  let ped := x.any (isPedestal src)
  let e := if ped then 0 else e
  let lim := prsLimits src e
  let u := prsResidues e lim.1 lim.2 (x.getD 0 0) (x.getD 1 0) (x.drop 2)
  let k := riceBest u
  let raw := decide (32 * w < 2 * w + riceBits u k)
  let body := if raw then packBits 64 (x.flatMap (rawBits w))
    else packBits 64 (rawBits w (x.getD 0 0) ++ rawBits w (x.getD 1 0) ++ u.flatMap (riceCode k))
  le32 (wordOf [(if raw then 15 else k, 28), (codeOfLoss e, 25), (bit ped, 24), (dec, 20), (w - 1, 16), (body.length, 0)]) ++ body

/-! ### Engine buffers (R363) -/

def engineBytes : Nat := 262144

def State.engineBuf (s : State) (e : Nat) : List PrsBlock := s.sig.buffers.getD [] e

def bufBytes (l : List PrsBlock) : Nat := l.foldl (fun a b => a + b.bytes.length) 0

/-- Whole blocks of a stream that fit in `room` bytes, oldest first, from one sequence on. -/
def fitBlocks : Nat → List PrsBlock → List PrsBlock
  | _, [] => []
  | room, b :: r => if b.bytes.length ≤ room then b :: fitBlocks (room - b.bytes.length) r else []

/-- The index word and the blocks (R363). -/
def streamPayload (bs : List PrsBlock) : List Byte :=
  le32 (wordOf [((bs.map (·.pos)).getD 0 0 % 256, 24), (bs.length % 256, 16), (bufBytes bs % 65536, 0)]) ++ bs.flatMap (·.bytes)

/-- Take the next whole blocks of a stream out of its engine's buffer. -/
def takeBlocks (n room : Nat) (s : State) : State × List PrsBlock :=
  let l := s.engineBuf (n % 4)
  let bs := fitBlocks room (l.filter (fun b => decide (b.stream = n)))
  let rest := l.filter (fun b => !bs.contains b)
  let s := s.modSig (fun g => { g with buffers := g.buffers.set (n % 4) rest })
  match bs.getLast? with
  | some b => (s.modStream n (fun x => { x with lastSent := b.seq }), bs)
  | none => (s, [])

/-- A finished block period of a stream to I3 leaves as one record. -/
def streamToI3 (n : Nat) (f : PrsConfig) (s : State) : State :=
  let t := takeBlocks n 65000 s
  match t.2 with
  | [] => s
  | b :: _ =>
    let rec_ := i3Record (BitVec.ofNat 32 n) 1 (le32 b.seq ++ streamPayload t.2)
    t.1.modSig (fun g => { g with i3Out := g.i3Out ++ [{ mac := f.mac, vid := f.vid, pcp := f.pcp, payload := rec_ }] })

/-- Store a block, or drop its whole period where the buffer is full (R363). -/
def storeBlock (n : Nat) (b : PrsBlock) (s : State) : State :=
  let x := s.stream n
  let l := s.engineBuf (n % 4)
  if x.dropping then s
  else if bufBytes l + b.bytes.length ≤ engineBytes then
    (s.modSig (fun g => { g with buffers := g.buffers.set (n % 4) (l ++ [b]) })).modStream n (fun x => { x with episode := x.episode && decide (b.pos ≠ 0) })
  else
    let rest := l.filter (fun c => !(decide (c.stream = n) && decide (c.seq = b.seq)))
    let t := (s.modSig (fun g => { g with buffers := g.buffers.set (n % 4) rest })).modStream n (fun x =>
      { x with dropping := true, dropped := x.dropped + 1, episode := true })
    if x.episode then t else raise evt_prsOverflow n (.owned (x.config.bind (·.owner))) [] t

/-- Raw samples kept for captures, and given to those that fill (R364). -/
def feedCaptures (src : Nat) (raw : List Int) (s : State) : State :=
  s.modSig (fun g =>
    let r := g.recent.getD [] src ++ raw
    { g with recent := g.recent.set src (r.drop (r.length - 4096))
             captures := g.captures.mapAll (fun _ c =>
               if c.source = src ∧ !c.complete then { c with samples := (c.samples ++ raw).take 4096 } else c) })

/-- A sample of a channel as it is presented (R113): the pedestal stands, and a measurement clips at 0x3FFE. -/
def clipSample (src : Nat) (x : Int) : Int := if isPedestal src x then x else clampI x (-0x3FFE) 0x3FFE

/-- The samples of a source as its channel presents them (R113). An operand sample at the pedestal is of an instant at which the channel was
faulted; one that is faulted now presents the pedestal in the newest sample (DESIGN CHOICE, log entry 130). -/
def State.presentSamples (s : State) (src : Nat) (raw : List Int) : List Int :=
  if src < 112 then
    let l := raw.map (clipSample src)
    if (s.chan (bridgeIdx src)).faulted && !l.isEmpty then l.dropLast ++ [0x3FFF] else l
  else raw

/-- 32 output samples of source `pos` of a stream are complete. -/
def prsBlockRow (n pos : Nat) (raw : List Int) (s : State) : State :=
  match (s.stream n).config with
  | none => s
  | some f =>
    match f.sources[pos]? with
    | none => s
    | some src =>
      if !(s.stream n).started ∨ !s.sigOn then s
      else
        let seq := (s.stream n).seq
        let raw := s.presentSamples src raw
        let out := decimateAll src f.k 32 raw
        let s := if f.capEn then feedCaptures src raw s else s
        let s := storeBlock n { stream := n, seq := seq, pos := pos, bytes := prsBlock src f.e f.k out } s
        if pos + 1 < f.sources.length then s
        else
          let s := s.modStream n (fun x => { x with seq := x.seq + 1, dropping := false })
          if f.i3 then streamToI3 n f s else s

def execPrsBlock (stream : Fin 64) (source : Fin 16) (samples : List Int) (s : State) : Result :=
  .next (prsBlockRow stream.val source.val samples s)

/-- A capture has its 4,096 samples. -/
def captureDone (k : Nat) (s : State) : State :=
  match s.sig.captures.get? k with
  | none => s
  | some c =>
    if c.complete ∨ c.samples.length < 4096 then s
    else raise evt_prsCapture c.stream (.owned ((s.stream c.stream).config.bind (·.owner))) []
      (s.modSig (fun g => { g with captures := g.captures.set k { c with complete := true } }))

def execPrsCaptureComplete (id : Fin 64) (s : State) : Result := .next (captureDone id.val s)

/-! ### Commands (Table 12.17) -/

/-- The owner of a source, and whether a port may use it. -/
def State.prsOwned (s : State) (p : Port) (src : Nat) : Bool :=
  p.sysPriv || (p.vzf.isSome && (if src < 112 then decide (s.chOwner src = p.vzf)
    else if 512 ≤ src then decide (s.aiOwner (src - 512) = p.vzf) else false))

/-- The ring slots that carry a stream (R363). -/
def State.streamSlots (s : State) (n : Nat) : List Nat :=
  (s.cfg.image.ring.slots.cells.filter (fun c =>
    decide (c.2.ftype = 6) && decide (c.2.owner = s.cfg.image.ring.station) && decide (c.2.arg = n))).map (·.1)

/-- Source samples a second that the other streams of an engine ask for (R359). -/
def State.engineLoad (s : State) (n : Nat) : Nat :=
  (s.sig.streams.cells.filter (fun c => decide (c.1 ≠ n) && decide (c.1 % 4 = n % 4))).foldl (fun a c =>
    match c.2.config with
    | some f => a + (f.sources.map prsRate).foldl (· + ·) 0
    | none => a) 0

def prsStat (s : State) (p : Port) (n : Nat) (srcs : List Nat) (i3 : Bool) : Option U16 :=
  let rate := prsRate (srcs.getD 0 0)
  if !srcs.all (fun c => prsSource c && s.prsOwned p c && decide (prsRate c = rate) && decide ((srcs.filter (· == c)).length = 1)
      && !(s.sig.streamOf c).any (fun x => decide (x.1 ≠ n))) then some stat_prsSource
  else if 32000000 < s.engineLoad n + srcs.length * rate then some stat_prsCapacity
  else if !i3 && (s.streamSlots n).isEmpty then some stat_prsCapacity
  else none

def prsConfigBody (p : Port) (f : PrsFields) (s : State) : State × Reply :=
  let n := f.stream.toNat
  let srcs := f.sources.map (·.toNat)
  if (s.stream n).started then (s, .fail stat_prsRunning)
  else match prsStat s p n srcs (decide (f.dest = 1)) with
  | some st => (s, .fail st)
  | none =>
    let c : PrsConfig := { sources := srcs, e := f.e.toNat, k := f.k.toNat, i3 := decide (f.dest = 1), capEn := flagOf f.flags 0
                           pre := f.pre.toNat, vid := f.vid.toNat, pcp := f.pcp.toNat, mac := f.mac, owner := p.vzf }
    (s.modStream n (fun x => { x with config := some c }), .ok [])

def prsFieldStat (f : PrsFields) : Option U16 :=
  orStat (needStat (decide (f.dest.toNat ≤ 1) && decide (f.flags.toNat ≤ 1)) stat_badPayload)
    (needStat (decide (f.stream.toNat ≤ 63) && decide (1 ≤ f.n.toNat) && decide (f.n.toNat ≤ 16) && [0, 1, 2, 4, 8].contains f.e.toNat
      && decide (f.k.toNat ≤ 5) && decide (f.pre.toNat ≤ 4096) && decide (f.vid.toNat ≤ 4095) && decide (f.pcp.toNat ≤ 7)) stat_range)

def execSigPrsConfig (r : Req) (f : PrsFields) (s : State) : Result :=
  .next (runCmd r
    { code := 0x0C05, lenOk := decide (r.len = 20 + 2 * f.n.toNat) && decide (f.sources.length = f.n.toNat), need := .any
      payload := prsFieldStat f, modeOk := s.step13 }
    (fun p s => prsConfigBody p f s) s)

/-- The first whole multiple of `per` ns after `now` ns. -/
def nextMultiple (now per : Nat) : Nat := (now / per + 1) * per

/-- T0 in V0, or in `TB_COUNT` while V0 is not valid (R360), in ns. -/
def State.prsT0 (s : State) (per : Nat) : Nat :=
  if (s.view 0).valid then nextMultiple ((s.view 0).nsAt s.now).toNat per else nextMultiple (s.now * 5 / 3) per

/-- The stream is one of the port's own: every source is (R62). -/
def streamOwned (s : State) (p : Port) (n : Nat) : Bool :=
  match (s.stream n).config with
  | some f => f.sources.all (s.prsOwned p)
  | none => true

def prsStartBody (p : Port) (n : Nat) (s : State) : State × Reply :=
  match (s.stream n).config with
  | none => (s, .fail stat_badState)
  | some f =>
    if (s.stream n).started then (s, .fail stat_badState)
    else if !streamOwned s p n then (s, .fail stat_prsSource)
    else match prsStat s p n f.sources f.i3 with
    | some st => (s, .fail st)
    | none =>
      let per := prsPeriod (f.sources.getD 0 0) * 2 ^ f.k
      let t0 := BitVec.ofNat 64 (s.prsT0 per)
      (s.modStream n (fun x => { x with started := true, t0 := t0, dropped := 0, dropping := false, episode := false }),
       .ok (le64 t0 ++ n32 per ++ le32 (s.stream n).seq))

def execSigPrsStart (r : Req) (stream : Byte) (s : State) : Result :=
  .next (runCmd r { code := 0x0C06, lenOk := decide (r.len = 4), need := .any, payload := needStat (decide (stream.toNat ≤ 63)) stat_range
                    modeOk := s.sys.mode.isRunLimpWork }
    (fun p s => prsStartBody p stream.toNat s) s)

def prsStopBody (p : Port) (n : Nat) (s : State) : State × Reply :=
  let x := s.stream n
  if !x.started then (s, .fail stat_badState)
  else if !streamOwned s p n then (s, .fail stat_prsSource)
  else
    let l := (s.engineBuf (n % 4)).filter (fun b => decide (b.stream ≠ n))
    ((s.modSig (fun g => { g with buffers := g.buffers.set (n % 4) l })).modStream n (fun x => { x with started := false }),
     .ok (le32 x.lastSent ++ n32 x.dropped))

def execSigPrsStop (r : Req) (stream : Byte) (s : State) : Result :=
  .next (runCmd r { code := 0x0C07, lenOk := decide (r.len = 4), need := .any, payload := needStat (decide (stream.toNat ≤ 63)) stat_range
                    modeOk := s.sys.mode.isRunLimpWork }
    (fun p s => prsStopBody p stream.toNat s) s)

/-- `TB_COUNT` of the first sample of a part of a capture. -/
def partCount (c : Capture4k) (part : Nat) : U64 :=
  BitVec.ofInt 64 ((c.at_.toNat : Int) + (1024 * (part : Int) - (c.pre : Int)) * ((600000000 / prsRate c.source : Nat) : Int))

def captureEntry (k : Nat) (c : Capture4k) : List Byte :=
  n16 k ++ n16 c.source ++ [byteOf (bit c.complete), 0, 0, 0] ++ le64 c.at_

def prsCaptureBody (p : Port) (op src id part : Nat) (s : State) : State × Reply :=
  let mine := fun (c : Capture4k) => s.prsOwned p c.source
  match op with
  | 0 =>
    if !prsSource src || !s.prsOwned p src || (s.sig.streamOf src).all (fun x => !x.2.capEn) then (s, .fail stat_prsSource)
    else
      let t := startCapture src s
      match t.2 with
      | some k => (t.1, .ok (n16 k))
      | none => (t.1, .fail stat_prsNoCapture)
  | 1 =>
    let l := s.sig.captures.cells.filter (fun c => mine c.2)
    (s, .ok (n16 l.length ++ zeros 6 ++ l.flatMap (fun c => captureEntry c.1 c.2)))
  | 2 =>
    match s.sig.captures.get? id with
    | none => (s, .fail stat_prsNoCapture)
    | some c =>
      if !mine c then (s, .fail stat_prsSource)
      else if !c.complete then (s, .fail stat_busy)
      else (s, .ok (n16 id ++ n16 c.source ++ [byteOf part, 0, 0, 0] ++ le64 (partCount c part)
        ++ ((c.samples.drop (1024 * part)).take 1024).flatMap i16))
  | _ =>
    match s.sig.captures.get? id with
    | none => (s, .fail stat_prsNoCapture)
    | some c => if !mine c then (s, .fail stat_prsSource) else (s.modSig (fun g => { g with captures := g.captures.erase id }), .ok [])

def execSigCapture (r : Req) (op : Byte) (source id : U16) (part : Byte) (s : State) : Result :=
  .next (runCmd r { code := 0x0C08, lenOk := decide (r.len = 8), need := .any
                    payload := orStat (needStat (decide (op.toNat ≤ 3)) stat_badPayload) (needStat (decide (part.toNat ≤ 3)) stat_range)
                    modeOk := s.sys.mode.isRunLimpWork }
    (fun p s => prsCaptureBody p op.toNat source.toNat id.toNat part.toNat s) s)

/-! ### Freezing a SIG slot (R351, R352) -/

/-- The SINK descriptors of a `RING_TX` PDU, by index. -/
def State.ringSinks (s : State) (q : Nat) : List (Nat × SigDesc) :=
  s.sig.descs.cells.filter (fun c => decide (c.2.kind = .sink) && decide (c.2.pdu = q))

def entrySize (d : SigDesc) : Nat := 3 + (d.len + 7) / 8

/-- One entry: head and value (R351). -/
def entryBytes (i : Nat) (d : SigDesc) (v : Nat) : List Byte :=
  (n32 (i * 64 + (d.len - 1))).take 3 ++ (n64 v).take ((d.len + 7) / 8)

/-- Oldest write first. -/
def insertOrder (s : State) (c : Nat × SigDesc) : List (Nat × SigDesc) → List (Nat × SigDesc)
  | [] => [c]
  | a :: r => if (s.sigRun c.1).order < (s.sigRun a.1).order then c :: a :: r else a :: insertOrder s c r

/-- Take entries in order, each that still fits (R352). -/
def fitEntries : Nat → List (Nat × SigDesc) → List (Nat × SigDesc)
  | _, [] => []
  | room, c :: r => if entrySize c.2 ≤ room then c :: fitEntries (room - entrySize c.2) r else fitEntries room r

/-- Take entries in order until one would not fit. -/
def fitUntil : Nat → List (Nat × SigDesc) → List (Nat × SigDesc)
  | _, [] => []
  | room, c :: r => if entrySize c.2 ≤ room then c :: fitUntil (room - entrySize c.2) r else []

def entriesSize (l : List (Nat × SigDesc)) : Nat := (l.map (fun c => entrySize c.2)).foldl (· + ·) 0

/-- The backlog of a slot: its event once per episode, which ends after 16 cycles without one (R352). -/
def backlogNote (q owner : Nat) (left : Bool) (s : State) : State :=
  let b := (s.pduRun q).backlog
  if left then
    let t := s.modPdu q (fun x => { x with backlog := some s.ring.cycle })
    if b.isSome then t
    else raise evt_sigRingBacklog owner (ownerScope owner) (n32 q) (t.modSig (fun g => { g with backlogs := g.backlogs + 1 }))
  else if b.any (fun c => decide (16 ≤ (s.ring.cycle - c).toNat)) then s.modPdu q (fun x => { x with backlog := none })
  else s

/-- The source PDUs that feed a slot are all not valid (R248). -/
def State.slotSourceless (s : State) (l : List (Nat × SigDesc)) : Bool :=
  let qs := l.filterMap (fun c => (s.sig.referrer c.1).bind (fun w => (s.sig.descs.get? (s.sig.root sigDepth w)).map (·.pdu)))
  !qs.isEmpty && qs.all (fun q => !(s.pduRun q).valid)

/-- Assemble an owned `SIG` slot: due entries, written entries, then others in rotation (R352). -/
def freezePdu (k q owner nref : Nat) (s : State) : State :=
  let l := s.ringSinks q
  let ready := s.sys.proven && l.all (fun c => (s.sigRun c.1).once) && !s.slotSourceless l
  let put := fun (o : OwnSlot) (t : State) => { t with ring := { t.ring with own := t.ring.own.set k o } }
  if !ready then put { notReady := true, wordB := 0, payload := [] } s
  else
    let cyc := s.ring.cycle
    let old := l.filter (fun c => match (s.sigRun c.1).sent with
      | none => true
      | some t => decide (nref - 1 ≤ (cyc - t).toNat))
    let isOld := fun (i : Nat) => old.any (fun c => decide (c.1 = i))
    let fresh := (l.filter (fun c => (s.sigRun c.1).fresh && !isOld c.1)).foldl (fun a c => insertOrder s c a) []
    let first := fitEntries 480 (old ++ fresh)
    let taken := fun (i : Nat) => first.any (fun c => decide (c.1 = i))
    let rot := (s.pduRun q).rot
    let rest := ((l.drop rot) ++ (l.take rot)).filter (fun c => !taken c.1)
    let more := fitUntil (480 - entriesSize first) rest
    let all := first ++ more
    let s := put { notReady := false, wordB := 0, payload := all.flatMap (fun c => entryBytes c.1 c.2 (s.sigRun c.1).field) } s
    let s := all.foldl (fun s c => s.modRun c.1 (fun x => { x with sent := some cyc, fresh := false })) s
    let s := s.modPdu q (fun x => { x with rot := (x.rot + more.length) % max 1 l.length })
    backlogNote q owner (decide (first.length < (old ++ fresh).length)) s

def slotFreeze (k : Nat) (s : State) : State :=
  let e := s.cfg.image.ring.slots.getD .none k
  if e.ftype ≠ 3 ∨ e.owner ≠ s.cfg.image.ring.station ∨ !s.ring.joined then s
  else match s.sig.pdus.get? e.arg with
  | some p => if p.kind = 6 ∧ s.sigOn then freezePdu k e.arg p.owner (p.byte 14) s
    else { s with ring := { s.ring with own := s.ring.own.set k .reset } }
  | none => { s with ring := { s.ring with own := s.ring.own.set k .reset } }

def execSigSlotFreeze (k : Fin 384) (s : State) : Result := .next (slotFreeze k.val s)

end Sys2Proof.Machine
end

