-- ==== Sys2Proof/Machine/Views.lean ====
section
/-! DEFINITION. Views and their changes (R371 to R377), capture units (R379) and trigger units (R380, R381). -/

namespace Sys2Proof.Machine

def State.modView (s : State) (v : Nat) (f : View → View) : State :=
  { s with tb := { s.tb with views := s.tb.views.set v (f (s.view v)) } }

def State.capture (s : State) (u : Nat) : Capture := s.tb.captures.getD .reset u
def State.trigger (s : State) (u : Nat) : Trigger := s.tb.triggers.getD .reset u

def State.modCapture (s : State) (u : Nat) (f : Capture → Capture) : State :=
  { s with tb := { s.tb with captures := s.tb.captures.modify .reset u f } }

def State.modTrigger (s : State) (u : Nat) (f : Trigger → Trigger) : State :=
  { s with tb := { s.tb with triggers := s.tb.triggers.modify .reset u f } }

/-! ### Captures (R379) -/

def Edge.takes (e : Edge) (rising : Bool) : Bool :=
  match e with
  | .rising => rising
  | .falling => !rising
  | .both => true

/-- A source of Table 13.5 from 0x300 on is an event without edges: any selected edge takes it. -/
def Capture.takes (c : Capture) (source : Nat) (rising : Bool) : Bool :=
  c.enabled && decide (c.source = source) && (decide (0x300 ≤ source) || c.edge.takes rising)

/-- An edge at a capture unit: recorded, or discarded by a full FIFO. -/
def captureAt (u : Nat) (s : State) : State :=
  let c := s.capture u
  if c.fifo.length < 16 then s.modCapture u (fun c => { c with fifo := c.fifo ++ [s.now] })
  else
    let t := s.modCapture u (fun c => { c with overflow := satInc 255 c.overflow, episode := true })
    if c.episode then t else raise evt_timeCaptureOvf u (.owned c.owner) [] t

def captureEdge (source : Nat) (rising : Bool) (s : State) : State :=
  (List.range 16).foldl (fun s u => if (s.capture u).takes source rising then captureAt u s else s) s

/-- A reported state moves between the level that captures watch and any other value (R181): to it is a rising edge. -/
def captureLevel (source : Nat) (was is : Bool) (s : State) : State := if was = is then s else captureEdge source is s

/-- Owner of a view as an event scope: 0xFF is the system. -/
def View.vzf (v : View) : Option Nat := if v.owner = 255 then none else some v.owner

/-- The smallest count whose view time is at or after `u` units of 2^−16 ns (R372). -/
def View.countAt (v : View) (u : Int) : Nat :=
  ((v.baseCount : Int) + -(-((u - v.baseTime.units) * 268435456) / ((max 1 v.inc : Nat) : Int))).toNat

/-- `TIME_VIEW_FLAGS` (Table 13.3). -/
def View.flags (v : View) : U32 :=
  wordOf [(bit v.valid, 31), (bit v.change.isSome, 30), (bit v.fw, 29), (bit v.alloc, 28), (v.owner % 256, 16), (v.gen.toNat, 0)]

/-! ### Triggers follow their view -/

/-- View time of occurrence `n`. -/
def Trigger.dueUnits (t : Trigger) (n : Nat) : Int := t.first.units + ((n * t.period * 65536 : Nat) : Int)

/-- The next due count under the view's parameters now. -/
def Trigger.convert (t : Trigger) (v : View) : Nat := v.countAt (t.dueUnits t.next)

/-- An armed unit of a changed view converts its next due time again: one at or before the change count fires there and
is late (R381). -/
def retime (view c : Nat) (s : State) : State :=
  let v := s.view view
  let late := s.tb.triggers.cells.filter (fun x =>
    x.2.armed && decide (x.2.view = view) && decide (x.2.convert v ≤ c) && !x.2.late)
  let t := { s with tb := { s.tb with triggers := s.tb.triggers.mapAll (fun _ x =>
    if x.armed && decide (x.view = view) then { x with due := max c (x.convert v), late := x.late || decide (x.convert v ≤ c) }
    else x) } }
  late.foldl (fun t x => raise evt_timeTriggerLate x.1 (.owned x.2.owner) [] t) t

/-! ### Changes -/

/-- `VALID` of a view changes (Table 13.7). -/
def setValid (v : Nat) (b : Bool) (s : State) : State :=
  if (s.view v).valid = b then s
  else raise evt_timeValidChange v (.owned (s.view v).vzf) (bool8 b) (s.modView v (fun x => { x with valid := b }))

/-- Base time of a change at count `c` in units of 2^−16 ns (R375). -/
def View.newBase (v : View) (c : ViewChange) : Int :=
  match c.set with
  | some t => t.units
  | none =>
    match c.stepNs with
    | some (ns, frac) => v.unitsAt c.at_ + ns * 65536 + (frac : Int)
    | none => v.unitsAt c.at_

/-- The view as a change leaves it (R375). -/
def View.apply (v : View) (c : ViewChange) : View :=
  { v with baseCount := c.at_, baseTime := Time.ofUnits (v.newBase c), inc := c.rate.getD v.inc, gen := v.gen + 1, change := none }

/-- A change of a view at its count, with its event (R375, R381). -/
def applyChange (v : Nat) (c : ViewChange) (s : State) : State :=
  let t := s.modView v (fun x => x.apply c)
  let t := raise evt_timeRebase v (.owned (s.view v).vzf) (le16 (t.view v).gen ++ n64 c.at_) t
  let t := if c.setValid then setValid v true t else if c.clearValid then setValid v false t else t
  retime v c.at_ t

/-- A rebase without an event: V1 at each local cycle start (R374). -/
def rebaseQuiet (v : Nat) (base : Time) (s : State) : State :=
  retime v s.now (s.modView v (fun x => { x with baseCount := s.now, baseTime := base, gen := x.gen + 1 }))

/-- A change that the manager's servo makes now. -/
def ViewChange.now (c : Nat) : ViewChange :=
  { at_ := c, rate := none, stepNs := none, set := none, setValid := false, clearValid := false, owner := none }

/-- The increment within 20 ppm of the old one; which one the servo takes is FREE (R377). -/
def servoRate (inc : Nat) (free : U32) : Nat :=
  let m := inc * 20 / 1000000
  inc + free.toNat % (2 * m + 1) - m

/-- The first correction is a SET and makes the view valid; later ones are a RATE change within ±1 µs and else a STEP
(R377). `goal` is in units of 2^−16 ns. -/
def servo (v : Nat) (goal : Int) (first : Bool) (s : State) : State :=
  let now := s.now
  let off := goal - (s.view v).unitsAt now
  if first then applyChange v { ViewChange.now now with set := some (Time.ofUnits goal), setValid := true } s
  else if -65536000 ≤ off ∧ off ≤ 65536000 then
    applyChange v { ViewChange.now now with rate := some (servoRate (s.view v).inc (Config.free32 s.free)) } s.draw
  else applyChange v { ViewChange.now now with stepNs := some (off / 65536, (off % 65536).toNat) } s

/-- The views at a start that keeps the logic supply, or after a power-on reset (R374). -/
def startViews (por : Bool) (t : TimeState) : TimeState :=
  if por then { t with views := .empty, alarm := none }
  else
    { t with views := ⟨(List.range 16).map (fun v =>
      let x := t.views.getD (View.resetAt v) v
      (v, { x with valid := x.valid && decide (10 ≤ v), change := none, alloc := false, owner := 255 }))⟩ }

end Sys2Proof.Machine
end

