-- ==== Sys2Proof/Machine/Ring.lean ====
section
/-! DEFINITION. The Eudra ring's controller: links (R232, R241 to R244, R256, R257), the cycle and the schedule master
(R245, R250 to R252, R258, R262), sync time (R253 to R255), slot ages (R247, R249), and the RING commands (Table 9.15). The rows
of static and dynamic frames stand in RingFrames. -/

namespace Sys2Proof.Machine

def State.ringSec (s : State) : RingSection := s.cfg.image.ring

/-- The station number: of the section, or in Basecamp the recorded one (R261). -/
def State.station (s : State) : Nat :=
  if s.sys.mode = .basecamp then ((s.ring.recorded.map (·.1)).getD 0) else s.ringSec.station

def State.modRing (s : State) (f : RingState → RingState) : State := { s with ring := f s.ring }

/-- Port 0 is `RING_E`, 1 is `RING_W`. -/
def RingState.port (r : RingState) (p : Nat) : RingPort := if p = 0 then r.east else r.west

def RingState.modPort (r : RingState) (p : Nat) (f : RingPort → RingPort) : RingState :=
  if p = 0 then { r with east := f r.east } else { r with west := f r.west }

def State.modLink (s : State) (p : Nat) (f : RingPort → RingPort) : State := s.modRing (fun r => r.modPort p f)

def State.modCount (s : State) (p : Nat) (f : RingCounters → RingCounters) : State :=
  s.modLink p (fun x => { x with count := f x.count })

def RingPort.closed (p : RingPort) : Bool := decide (p.link = .closed)

/-- The other port. -/
def otherPort (p : Nat) : Nat := 1 - p

/-- Exactly one link is closed: the station turns the wave (R242). -/
def RingState.looping (r : RingState) : Bool := r.phase = .active && (r.east.closed != r.west.closed)

/-- A station is named in the loop stations field. -/
def loopNamed (w : U16) : Bool := decide (w ≠ 0xFFFF)

/-- The output port of a frame that arrives on port `p`, and whether the station turns it (R242). -/
def RingState.outPort (r : RingState) (p : Nat) : Option (Nat × Bool) :=
  if (r.port (otherPort p)).closed then some (otherPort p, false)
  else if (r.port p).closed then some (p, true)
  else none

def raiseRing (k : EvKind) (inst : Nat) (data : List Byte) (s : State) : State := raise k inst .wide data s

/-- A cycle number that is not 0, which means none (R262). -/
def nzCycle (c : U32) : U32 := if c = 0 then 1 else c

/-! ### Frames -/

/-- `RELAYED`, `LOOPED`, `DELIVERED` (Table 9.4). -/
def hdrFlag (h : RingHeader) (i : Nat) : Bool := h.flags.getLsbD i
def setFlag (w : Byte) (i : Nat) : Byte := w ||| BitVec.ofNat 8 (2 ^ i)

/-- A frame as it leaves a station that it traverses: the hop count rises, and a turned frame carries `LOOPED`. -/
def passed (f : RingFrame) (turned : Bool) : RingFrame :=
  { f with hdr := { f.hdr with hops := f.hdr.hops + 1, flags := if turned then setFlag f.hdr.flags 5 else f.hdr.flags } }

/-- The 32 bytes of a header (Table 9.3). -/
def ringHdrBytes (h : RingHeader) : List Byte :=
  [byteOf (h.version.val * 16 + h.typ.val), h.flags] ++ le16 h.src ++ le16 h.dst ++ le16 h.slot ++ le32 h.origin ++ le16 h.len ++ [h.hops, 0]
    ++ le32 h.wordA ++ le32 h.wordB ++ zeros 4 ++ le32 h.crc

/-- A header with its CRC and every in-transit field taken as zero (R229). -/
def ringHdrFixed (h : RingHeader) : RingHeader := { h with flags := h.flags &&& 0x8F, hops := 0, crc := 0 }

/-- `n` bytes from `o` on taken as zero. -/
def blank (o n : Nat) (l : List Byte) : List Byte := l.take o ++ zeros (min n (l.length - o)) ++ l.drop (o + n)

/-- A payload with its in-transit fields taken as zero: those of a `SYNC_REF` are correction, present, consent, loop stations and path
(Table 9.6). -/
def fixedPayload (typ : Nat) (l : List Byte) : List Byte :=
  if typ = 1 then blank 0x30 64 (blank 0x2C 2 (blank 0x20 4 (blank 0x1C 4 (blank 0x0C 8 l)))) else l

/-- CRC-32C over header and payload (R229). -/
def ringCrc (f : RingFrame) : U32 := crc32c (ringHdrBytes (ringHdrFixed f.hdr) ++ fixedPayload f.hdr.typ.val f.payload)

/-- The header holds the payload's length and the CRC of the whole. -/
def ringIntact (f : RingFrame) : Bool := decide (f.hdr.len.toNat = f.payload.length) && decide (f.hdr.crc = ringCrc f)

/-- A frame as its sender makes it: payload length and CRC filled in. -/
def sealFrame (f : RingFrame) : RingFrame :=
  let g := { f with hdr := { f.hdr with len := BitVec.ofNat 16 f.payload.length } }
  { g with hdr := { g.hdr with crc := ringCrc g } }

/-- Length of a ring frame: 512 in the reference window and in static slots, at least 64 elsewhere (Table 9.2). -/
def ringLen (f : RingFrame) : Nat :=
  if f.hdr.slot.toNat < 384 ∨ f.hdr.slot = 0xFFFE then 512 else max 64 (32 + f.payload.length)

/-- The bytes of a ring frame, with zeros after the payload. -/
def ringBytes (f : RingFrame) : List Byte := ringHdrBytes f.hdr ++ f.payload ++ zeros (ringLen f - 32 - f.payload.length)

/-! ### The outer frame (Table 9.2) -/

def mac6 (a : BitVec 48) : List Byte := (List.range 6).map (fun i => a.extractLsb' (8 * (5 - i)) 8)

/-- One byte of the IEEE 802.3 FCS. -/
def fcsByte (c : U32) (b : Byte) : U32 :=
  (List.range 8).foldl (fun c _ => if c.getLsbD 0 then (c >>> 1) ^^^ 0xEDB88320 else c >>> 1) (c ^^^ b.setWidth 32)

def fcsOf (l : List Byte) : U32 := ~~~ (l.foldl fcsByte 0xFFFFFFFF)

/-- SecTAG with SCI, encrypted and changed text, the association number of the SAK and the low half of the packet number (IEEE 802.1AE;
PRESUMED, log entry 138). -/
def secTag (p sakNo pn : Nat) : List Byte :=
  [0x88, 0xE5, byteOf (0x2C + sakNo % 4), 0] ++ (n32 pn).reverse ++ mac6 (Config.portMac p) ++ [0, 1]

/-- The Ethernet frame that carries a ring frame on port `p`: the EtherType 0x88B5 and the ring frame are protected. -/
def RingPort.outer (x : RingPort) (p : Nat) (f : RingFrame) : List Byte :=
  let head := mac6 0x0F4555445241 ++ mac6 (Config.portMac p) ++ secTag p x.sakNo x.pn
  let plain : List Byte := [0x88, 0xB5] ++ ringBytes f
  let body := head ++ (List.range (plain.length + 16)).map (Config.macsecByte p x.sakNo x.pn plain)
  body ++ le32 (fcsOf body)

/-- A frame leaves on port `p`, in an outer frame with the next packet number. -/
def putWire (p : Nat) (f : RingFrame) (s : State) : State :=
  (s.modRing (fun r => { r with wire := keepNewest 16 ((p, f) :: r.wire) })).modLink p (fun x =>
    let y := { x with pn := x.pn + 1 }
    { y with line := y.outer p f })

def transmit (p : Nat) (f : RingFrame) (s : State) : State :=
  (putWire p f s).modCount p (fun c => { c with sent := c.sent + 1 })

/-- Own frames leave where the wave goes on at its first passage (R225): on the primary output, unless it comes from there. -/
def transmitOut (f : RingFrame) (s : State) : State :=
  match s.ring.outPort s.ring.inPort with
  | some (p, turned) => transmit p (if turned then { f with hdr := { f.hdr with flags := setFlag f.hdr.flags 5 } } else f) s
  | none => s

/-- Forward a frame that arrived on port `p`. -/
def forward (p : Nat) (f : RingFrame) (s : State) : State :=
  match s.ring.outPort p with
  | some (o, turned) => (putWire o (passed f turned) s).modCount o (fun c => { c with forwarded := c.forwarded + 1 })
  | none => s

/-- Flags of a frame that the ZM9 originates: `ARRESTED` (R248), `BASECAMP`. -/
def State.ownFlags (s : State) (notReady : Bool) : Byte :=
  byteOf (bit notReady * 128 + bit s.rfx.arrested * 8 + bit (decide (s.sys.mode = .basecamp)) * 4)

/-- Node ID of a local ID of this station: 0 to 255 are its VZFs (R221). -/
def State.nodeId (s : State) (l : Nat) : U16 := BitVec.ofNat 16 (s.station * 512 + l)

/-- What a node ID of this station stands for: a VZF, or the end node that the configuration binds (R221). -/
def State.nodeOf (s : State) (id : U16) : Option (Sum Nat EdgeNode) :=
  let l := (id.extractLsb' 0 9).toNat
  if (id.extractLsb' 9 5).toNat ≠ s.station then none
  else if l < 256 then some (.inl l)
  else (s.cfg.image.edges.get? l).map .inr

/-- A frame that local ID `l` of the ZM9 originates. -/
def State.frame (s : State) (l : Nat) (typ : Fin 16) (dst slot : U16) (wordA wordB : U32) (notReady : Bool) (payload : List Byte) : RingFrame :=
  let h : RingHeader := { version := 1, typ := typ, flags := s.ownFlags notReady, src := s.nodeId l, dst := dst, slot := slot
                          origin := s.ring.cycle, len := 0, hops := 0, wordA := wordA, wordB := wordB, crc := 0 }
  sealFrame { hdr := h, payload := payload }

/-- The `SYNC_REF` payload (Table 9.6). -/
def syncBytes (f : SyncRef) : List Byte :=
  le64 f.originNs ++ le16 f.originFrac ++ zeros 2 ++ le64 f.corr ++ le32 f.tRc ++ le16 f.nS ++ le16 f.nM ++ le32 f.present
    ++ le32 f.consent ++ le32 f.sleepAt ++ le32 f.handoverAt ++ le16 f.loopStns ++ zeros 2 ++ f.path ++ zeros 368

/-- Which types travel in which segment (Table 9.5): reference window 0, NIT 1, static 2, dynamic 3, secondary 4. -/
def typeAllowed (typ seg : Nat) : Bool :=
  match seg with
  | 0 => decide (typ = 1)
  | 1 => decide (typ = 2)
  | 2 => decide (3 ≤ typ) && decide (typ ≤ 8)
  | 3 => decide (typ = 4) || decide (typ = 5) || decide (typ = 8) || decide (typ = 9)
  | _ => decide (typ = 9)

/-- A station discards a frame in these cases (R230). -/
def ringBad (f : RingFrame) (seg : Nat) : Bool :=
  !ringIntact f || decide (f.hdr.version ≠ 1) || !typeAllowed f.hdr.typ.val seg || decide (64 < f.hdr.hops.toNat)

/-! ### Links -/

/-- Every station discards its link-delay averages and settles for 8 cycles (R255). -/
def settle (s : State) : State :=
  s.modRing (fun r => { r with settling := 8, east := { r.east with delay := 0 }, west := { r.west with delay := 0 } })

/-- The station with one closed and one broken link loops back (R242): `p` is the broken port. -/
def loopBack (p : Nat) (s : State) : State :=
  raiseRing evt_ringLoop p [] (s.modRing (fun r => { r with loopBacks := r.loopBacks + 1, secBuf := [], newPath := true }))

/-- A station declares the link on port `p` broken (R241). A link that is down already stays so. -/
def breakLink (p : Nat) (phyDown : Bool) (s : State) : State :=
  let x := s.ring.port p
  if !x.phy && x.link = .down then s
  else
    let was := x.closed
    let s := s.modLink p (fun x => { x with phy := x.phy && !phyDown, sak := false, link := .down, verify := 0, closeAt := 0,
                                            broken := true, fails := 0, exchanged := false, peers := [], answer := none })
    let s := raiseRing evt_ringLinkDown p [] s
    let s := if was then settle s else s
    if was && (s.ring.port (otherPort p)).closed then loopBack p s else s

/-- How a frame fared at its link (R256): a failure is counted, and the sixteenth in a cycle breaks the link (R241). Answers
whether the frame goes on. -/
def linkRx (p : Nat) (l : LinkCheck) (s : State) : State × Bool :=
  let s := s.modCount p (fun c => { c with
    received := c.received + 1, fcs := if l = .fcsFail then c.fcs + 1 else c.fcs, icv := if l = .icvFail then c.icv + 1 else c.icv })
  if l = .ok then (s, true)
  else
    let s := s.modLink p (fun x => { x with fails := x.fails + 1 })
    (if 16 ≤ (s.ring.port p).fails then breakLink p false s else s, false)

/-- R230: a discarded frame is counted. -/
def discard (p : Nat) (f : RingFrame) (s : State) : State :=
  s.modCount p (fun c => { c with discarded := c.discarded + 1, crc := if ringIntact f then c.crc else c.crc + 1 })

/-- A schedule ID that differs (R236): the link stays in VERIFY, and the event is raised once. -/
def schedMismatch (p : Nat) (s : State) : State :=
  let s := s.modLink p (fun x => { x with link := if x.link = .down then .down else .verify, verify := 0, closeAt := 0 })
  if s.ring.mismatch then s
  else raiseRing evt_ringSchedMismatch noInst [] (s.modRing (fun r => { r with mismatch := true }))

/-- The ring section meets every rule of R236. -/
def RingSection.ok (c : RingSection) : Bool :=
  decide (c.station ≤ 31) && decide (125 ≤ c.tRc) && decide (c.tRc ≤ 2000) && decide (5 ≤ c.nS) && decide (c.nS ≤ 384)
    && decide (c.nM ≤ 30000) && decide (2000 + 512 * (c.nS + 1) + 64 * c.nM ≤ 1000 * c.tRc)
    && decide (c.credits.foldl (· + ·) 0 = c.nM)
    && (List.range 5).all (fun k => let e := c.slots.getD .none k
                                    decide (e.ftype = 5) && (decide (k = 4) || decide (e.owner = 0)))
    && c.slots.cells.all (fun x => decide (x.1 < c.nS) && (decide (x.2.ftype = 0) || typeAllowed x.2.ftype 2))

/-- Start of the ring ports (step 9 of Table 2.4): a section that fails R236 does not join. -/
def ringStart (s : State) : State :=
  let ok := s.ringSec.ok
  let s := s.modRing (fun r => { RingState.reset with phase := .active, sectionOk := ok, recorded := r.recorded, wire := r.wire })
  if ok then s else raiseRing evt_ringSchedMismatch noInst [] (s.modRing (fun r => { r with mismatch := true }))

/-- The ports in Basecamp (R261): none where no station was recorded. -/
def ringBasecamp (s : State) : State :=
  s.modRing (fun r => { RingState.reset with phase := if r.recorded.isSome then .active else .off, sectionOk := true,
                                             recorded := r.recorded, wire := r.wire })

/-- The ring stops with the logic. -/
def ringStop (s : State) : State := s.modRing (fun r => { RingState.reset with recorded := r.recorded, wire := r.wire })

def State.basecamp (s : State) : Bool := decide (s.sys.mode = .basecamp)

def State.canJoin (s : State) : Bool := s.ring.phase = .active && s.ring.sectionOk && !s.ring.mismatch && !s.basecamp

def execRingLinkDown (port : Fin 2) (s : State) : Result := .next (breakLink port.val true s)

def execRingPhyTrained (port : Fin 2) (s : State) : Result :=
  .next (if s.ring.phase = .active then s.modLink port.val (fun x => { x with phy := true }) else s)

/-- An MKPDU (R257): the peer list, and a live SAK, a fresh one at each link establishment, takes the link into verification (R244). -/
def execMkaFrame (port : Fin 2) (peers : List Byte) (live : Bool) (s : State) : Result :=
  .next (if (s.ring.port port.val).phy then
    s.modLink port.val (fun x => { x with
      peers := peers, sak := x.sak || live, sakNo := if live && !x.sak then x.sakNo + 1 else x.sakNo
      pn := if live && !x.sak then 0 else x.pn, link := if live && x.link = .down then .verify else x.link })
  else s)

/-- R257: the link stays DOWN. -/
def execRingMacsecTimeout (port : Fin 2) (s : State) : Result :=
  let x := s.ring.port port.val
  .next (if x.phy && !x.sak then raiseRing evt_ringMacsecFail port.val [] (s.modLink port.val (fun x => { x with link := .down })) else s)

/-- What a `DELAY_MEAS` says of the neighbour; answers whether the schedule IDs match (R236, R246). A Basecamp station keeps no
schedule. -/
def heardMeas (p : Nat) (f : DelayMeas) (s : State) : State × Bool :=
  let s := s.modLink p (fun x => { x with nbr := some f.station.toNat, nbrMaster := f.master.toNat, nbrRank := f.rank.toNat % 4 })
  if s.basecamp || (s.ring.sectionOk && decide (f.sched = s.ringSec.sched)) then (s, true) else (schedMismatch p s, false)

/-- A cycle that counts towards verification (R244). -/
def countCycle (x : RingPort) : RingPort :=
  { x with exchanged := true, verify := if x.fails = 0 && x.link = .verify then min 16 (x.verify + 1) else x.verify }

/-- What this station sends in a `DELAY_MEAS` on port `p`: `RING_E` asks, `RING_W` answers; the residence of an answer is FREE. -/
def State.measOut (s : State) (p : Nat) (residence : U64) : DelayMeas :=
  let x := s.ring.port p
  { kind := byteOf p, link := byteOf x.link.code, verify := byteOf x.verify, station := byteOf s.station, sched := s.ringSec.sched,
    closeAt := x.closeAt, lastDelay := x.delay, residence := residence,
    master := byteOf (if s.ring.joined then s.ring.masterStn else 255), rank := byteOf s.ring.rank }

/-- The `DELAY_MEAS` payload (Table 9.7). -/
def measBytes (f : DelayMeas) : List Byte :=
  [f.kind, f.link, f.verify, f.station] ++ le32 f.sched ++ le32 f.closeAt ++ le32 f.lastDelay ++ le64 f.residence ++ [f.master, f.rank] ++ zeros 6

/-- A `DELAY_MEAS` leaves on port `p`, link-local, with sequence `seq` (Table 9.5). -/
def sendMeas (p : Nat) (seq : U32) (residence : U64) (s : State) : State :=
  let m := s.measOut p residence
  transmit p (s.frame 0 2 0xC000 0xFFFF seq 0 false (measBytes m)) (s.modLink p (fun x => { x with measSeq := seq, answer := some m }))

/-- `RING_W` answers a request at once (R232), with its sequence. The requester reports its last delay and `CLOSE_AT` (Table 9.7). -/
def measRequest (seq : U32) (f : DelayMeas) (s : State) : State :=
  let t := heardMeas 1 f s
  let s := if t.2 then t.1.modLink 1 (fun x => { countCycle x with
      delay := f.lastDelay, closeAt := if x.link = .verify then f.closeAt else 0 }) else t.1
  (sendMeas 1 seq (Config.free64 s.free) s).draw

/-- Whether port `p` takes a `DELAY_MEAS` of this kind, after the outer checks and those of every ring frame (R230). -/
def takeMeas (p : Nat) (kind : Byte) (link : LinkCheck) (h : RingHeader) (f : DelayMeas) (s : State) : State × Bool :=
  let t := linkRx p link s
  let g : RingFrame := { hdr := h, payload := measBytes f }
  if !t.2 then t
  else if ringBad g 1 then (discard p g t.1, false)
  else (t.1, decide (f.kind = kind))

def execDelayMeasRequest (link : LinkCheck) (h : RingHeader) (f : DelayMeas) (s : State) : Result :=
  .next (if !s.ring.west.sak then s
    else let t := takeMeas 1 0 link h f s
      if t.2 then measRequest h.wordA f t.1 else t.1)

/-- `RING_E` computes the link delay in ns × 2^16 and counts the cycle; after 16 it sets `CLOSE_AT` (R232, R244). -/
def measResponse (f : DelayMeas) (roundTrip : U64) (s : State) : State :=
  let t := heardMeas 0 f s
  if !t.2 then t.1
  else
    let c := t.1.ring.cycle
    t.1.modLink 0 (fun x =>
      let x := countCycle { x with delay := BitVec.ofNat 32 ((roundTrip.toNat - f.residence.toNat) / 2) }
      if x.verify = 16 && x.closeAt = 0 && x.link = .verify then { x with closeAt := nzCycle (c + 2) } else x)

def execDelayMeasResponse (link : LinkCheck) (h : RingHeader) (f : DelayMeas) (roundTrip : U64) (s : State) : Result :=
  .next (if !s.ring.east.sak then s
    else let t := takeMeas 0 1 link h f s
      if t.2 then measResponse f roundTrip t.1 else t.1)

/-- A master whose neighbour follows a master of lower rank gives way as the link closes (R246). -/
def yieldAtClose (p : Nat) (s : State) : State :=
  let x := s.ring.port p
  if s.ring.master && decide (x.nbrMaster ≠ 255) && decide (x.nbrMaster ≠ s.station) && decide (x.nbrRank < s.ring.rank) then
    raiseRing evt_ringMasterYield noInst [] (s.modRing (fun r => { r with
      master := false, newPath := true, handoverAt := 0, slotBuf := .empty, relayQ := [] }))
  else s

/-- At `CLOSE_AT` the link is closed (R244): it stops looping, or, beside a broken link, starts to (R242). -/
def execLinkClose (port : Fin 2) (s : State) : Result :=
  let p := port.val
  let x := s.ring.port p
  .next (if x.link = .verify && x.closeAt ≠ 0 && s.ring.sectionOk && !s.ring.mismatch then
    let s := yieldAtClose p s
    let s := s.modLink p (fun x => { x with link := .closed, closeAt := 0, verify := 0, broken := false })
    let s := raiseRing evt_ringLinkUp p [] (settle (s.modRing (fun r => { r with newPath := true })))
    if (s.ring.port (otherPort p)).broken then loopBack (otherPort p) s else s
  else s)

/-! ### Sleep consent -/

/-- R169: the bridge allows sleep. -/
def State.sleepAllowed (s : State) : Bool := decide (s.brg.phase = .buck) || decide (s.brg.phase = .stopped)

/-- The auto-sleep condition other than ring consent (R34). -/
def State.autoReady (s : State) : Bool := decide (s.sys.mode = .run) && s.cfg.image.autoSleep && s.nmAllAsleep

/-- The station's consent bit: clear in the next reference after a wake request of its own (R258). -/
def State.consents (s : State) : Bool :=
  s.ring.joined && s.sleepAllowed && !s.sys.wakeReq && (s.ring.consentCmd || (s.ringSec.autoConsent && s.autoReady))

/-! ### The master -/

def setBit32 (w : U32) (i : Nat) (b : Bool) : U32 :=
  if b then w ||| BitVec.ofNat 32 (2 ^ i) else w &&& ~~~ BitVec.ofNat 32 (2 ^ i)

/-- This station's rank, if `MASTER` names it. -/
def State.ownRank (s : State) : Option Nat :=
  (List.range 4).find? (fun k => decide (s.ringSec.masters.getD k 255 = s.station))

/-- The loop stations field as this station writes it when it turns the wave: the first free half. -/
def addLoop (w : U16) (stn : Nat) : U16 :=
  if w.toNat % 256 = 255 then BitVec.ofNat 16 (w.toNat / 256 * 256 + stn)
  else if w.toNat % 256 = stn || w.toNat / 256 = stn then w
  else if w.toNat / 256 = 255 then BitVec.ofNat 16 (w.toNat % 256 + 256 * stn)
  else w

/-- The reference that the master sends (Table 9.6). -/
def State.masterRef (s : State) : SyncRef :=
  let c := s.ringSec
  let stn := s.station
  let u := (s.view 0).unitsAt s.now
  { originNs := BitVec.ofInt 64 (u / 65536), originFrac := BitVec.ofInt 16 (u % 65536), corr := 0,
    tRc := BitVec.ofNat 32 (c.tRc * 1000), nS := BitVec.ofNat 16 c.nS, nM := BitVec.ofNat 16 c.nM,
    present := setBit32 0 stn true, consent := setBit32 0 stn s.consents, sleepAt := s.ring.sleepAt,
    handoverAt := s.ring.handoverAt, loopStns := if s.ring.looping then addLoop 0xFFFF stn else 0xFFFF,
    path := byteOf stn :: List.replicate 63 0xFF }

/-- A reference has carried this station's consent bit: a wake request counts no longer (R258). -/
def State.askedSeen (s : State) : State := { s with sys := { s.sys with wakeReq := false } }

/-- The master sends its reference (R225, R231). -/
def sendRef (s : State) : State :=
  let f := s.masterRef
  let g := s.frame 0 1 0x8000 0xFFFE s.ringSec.sched (BitVec.ofNat 32 (s.station + 256 * s.ring.rank)) false (syncBytes f)
  transmitOut g (captureEdge 0x400 true s.askedSeen)

/-- V1 becomes valid with the join. -/
def joinRing (s : State) : State :=
  let s := s.modRing (fun r => { r with joined := true, newPath := false, slots := .empty })
  let s := raiseRing evt_ringJoined noInst [] s
  setValid 1 true { s with sys := { s.sys with step := if s.sys.step = 14 then 15 else s.sys.step } }

/-- This station becomes schedule master of its rank `k`. -/
def takeMaster (k : Nat) (s : State) : State :=
  s.modRing (fun r => { r with
    master := true, yieldNext := false, rank := k, masterStn := s.station, missing := 0, equalRefs := 0, sleepAt := 0,
    handoverAt := 0, slotBuf := .empty, relayQ := [], newPath := true, waveDelay := 0, inPort := 1 })

def dropMaster (s : State) : State :=
  s.modRing (fun r => { r with master := false, yieldNext := false, handoverAt := 0, slotBuf := .empty, relayQ := [], newPath := true })

/-- The first-ranked station forms the ring when no neighbour follows another master (R245). -/
def State.formsRing (s : State) : Bool :=
  s.canJoin && !s.ring.joined && decide (s.ownRank = some 0) && (s.ring.east.closed || s.ring.west.closed)
    && [s.ring.east, s.ring.west].all (fun x => !x.closed || decide (x.nbrMaster = 255) || decide (x.nbrMaster = s.station))

/-- A change of `SLEEP_AT` raises its event (R258). -/
def setSleepAt (c : U32) (s : State) : State :=
  if s.ring.sleepAt = c then s
  else raiseRing evt_ringSleep noInst (le32 c) (s.modRing (fun r => { r with sleepAt := c }))

/-- The sitting master hands over when a station of lower rank is present again (R252). -/
def startHandover (present : U32) (s : State) : State :=
  if s.ring.handoverAt = 0 && (List.range s.ring.rank).any (fun k =>
      let m := s.ringSec.masters.getD k 255
      decide (m < 32) && present.getLsbD m) then
    s.modRing (fun r => { r with handoverAt := nzCycle (r.cycle + 16) })
  else s

/-- The sleep decision of the master (R258). -/
def sleepDecision (f : SyncRef) (s : State) : State :=
  let s := s.modRing (fun r => { r with equalRefs := if f.consent = f.present then r.equalRefs + 1 else 0 })
  if s.ring.sleepAt ≠ 0 then
    if f.present &&& ~~~ f.consent ≠ 0 then setSleepAt 0 s else s
  else if 16 ≤ s.ring.equalRefs then setSleepAt (nzCycle (s.ring.cycle + BitVec.ofNat 32 s.ringSec.nSlp)) s
  else s

/-- The master's own reference comes back (R226, R252, R258). -/
def ownRefBack (f : SyncRef) (goal : Int) (s : State) : State :=
  let s := if (s.view 0).valid then s else servo 0 goal true s
  let s := s.modRing (fun r => { r with last := { f with corr := r.last.corr }, heard := true })
  startHandover f.present (sleepDecision f s)

/-! ### `SYNC_REF` -/

/-- The cycle number advances with the counter (R250, R262); at a wrap the event. -/
def takeCycle (origin : U32) (first : Bool) (s : State) : State :=
  if first then s.modRing (fun r => { r with cycle := origin, cycleNo := origin.toNat })
  else
    let d := (origin - s.ring.cycle).toNat
    let no := if d < 2147483648 then s.ring.cycleNo + d else s.ring.cycleNo - (4294967296 - d)
    let wrap := decide (s.ring.cycleNo / 4294967296 < no / 4294967296)
    let s := s.modRing (fun r => { r with cycle := origin, cycleNo := no })
    if wrap then raiseRing evt_ringCycleWrap noInst [] s else s

/-- The station corrects V0 towards the sync time at its ingress (R253 to R255). -/
def correctV0 (goal : Int) (s : State) : State :=
  let first := !(s.view 0).valid
  let off := goal - (s.view 0).unitsAt s.now
  let good := !first && decide (-655360 ≤ off) && decide (off ≤ 655360)
  let s := s.modRing (fun r =>
    let n := if good then min 8 (r.goodCorr + 1) else 0
    { r with v0Offset := if first then 0 else off, goodCorr := n, syncOk := r.syncOk || decide (n = 8) })
  if first || s.ring.settling = 0 then servo 0 goal first s else s

/-- The reference as it leaves this station (Table 9.6): correction, present, consent, loop stations and path. -/
def State.refOut (s : State) (h : RingHeader) (f : SyncRef) (delay residence : U32) : SyncRef :=
  let stn := s.station
  { f with
    corr := f.corr + (delay.zeroExtend 64) + (residence.zeroExtend 64)
    present := setBit32 f.present stn s.ring.joined
    consent := setBit32 f.consent stn s.consents
    loopStns := if s.ring.looping then addLoop f.loopStns stn else f.loopStns
    path := f.path.set (h.hops.toNat + 1) (byteOf stn) }

/-- The wave's delay at this station in ns (R250): the new path's first reference steps V1. -/
def noteDelay (g : SyncRef) (s : State) : State :=
  let d := (g.corr.toInt / 65536).toNat
  let moved := decide (g.loopStns ≠ s.ring.last.loopStns)
  let stepped := s.ring.newPath || moved
  let s := s.modRing (fun r => { r with
    v1Step := if stepped && r.heard then (d : Int) - (r.waveDelay : Int) else r.v1Step, waveDelay := d, newPath := false,
    heal := if moved && loopNamed g.loopStns then 2 else r.heal })
  if moved && loopNamed g.loopStns then settle s else s

/-- A reference of another master at its first passage in this cycle. -/
def followRef (p : Nat) (h : RingHeader) (f : SyncRef) (residence : U32) (s : State) : State :=
  let delay := (s.ring.port p).delay
  let goal : Int := (f.originNs.toNat * 65536 + f.originFrac.toNat : Nat) + f.corr.toInt + (delay.toNat : Int)
  let rank := bits h.wordB 8 2
  let stn := bits h.wordB 0 8
  let first := !s.ring.joined
  let s := if s.ring.rank ≠ rank ∨ s.ring.masterStn ≠ stn then s.modRing (fun r => { r with newPath := true }) else s
  let s := s.modRing (fun r => { r with refHere := true, missing := 0, rank := rank, masterStn := stn, inPort := p })
  let s := takeCycle h.origin first s
  let s := if first then joinRing s else s
  let s := correctV0 goal s
  let s := setSleepAt f.sleepAt s
  let g := s.refOut h f delay residence
  let s := captureEdge 0x400 true ((noteDelay g s).modRing (fun r => { r with last := g, heard := true, handoverAt := f.handoverAt }))
  forward p { hdr := h, payload := syncBytes g } s.askedSeen

/-- In Basecamp the station takes the cycle and the lengths, port 0 takes its t_RTX of 32 × T_RC + 5 ms (R63), and the frame
is forwarded (R261). -/
def basecampRef (p : Nat) (h : RingHeader) (f : SyncRef) (residence : U32) (s : State) : State :=
  let g := s.refOut h f (s.ring.port p).delay residence
  let s := { s with mbx := s.mbx.modify 0 (fun x => { x with tRtx := (32 * f.tRc.toNat + 999) / 1000 + 5000 }) }
  forward p { hdr := h, payload := syncBytes g }
    (s.modRing (fun r => { r with last := g, heard := true, cycle := h.origin, refHere := true, rank := bits h.wordB 8 2,
                                  masterStn := bits h.wordB 0 8 }))

/-- A master hears a reference that is not its own: of a lower rank, it gives way at the next cycle boundary (R251). -/
def foreignRef (h : RingHeader) (s : State) : State :=
  if bits h.wordB 8 2 < s.ring.rank then s.modRing (fun r => { r with yieldNext := true }) else s

/-- The wave ends at the master's primary input (R226); where that link is not closed, it comes back the way it went. -/
def State.waveEnds (s : State) (p : Nat) : Bool := s.ring.master && (decide (p = 1) || !s.ring.west.closed)

/-- A valid `SYNC_REF` with a matching schedule ID (R225, R245, R251, R253). In a healed ring the master's own reference passes it in
mid-wave: it only forwards it there (Table 9.11). -/
def takeRef (p : Nat) (h : RingHeader) (f : SyncRef) (residence : U32) (s : State) : State :=
  if s.ring.master then
    if bits h.wordB 0 8 = s.station && !s.waveEnds p then
      forward p { hdr := h, payload := syncBytes (s.refOut h f (s.ring.port p).delay residence) } s
    else if bits h.wordB 0 8 = s.station then
      let goal : Int := (f.originNs.toNat * 65536 + f.originFrac.toNat : Nat) + f.corr.toInt + ((s.ring.port p).delay.toNat : Int)
      ownRefBack f goal s
    else foreignRef h s
  else if s.ring.joined && s.ring.refHere && decide (h.origin = s.ring.cycle) then
    forward p { hdr := h, payload := syncBytes (s.refOut h f (s.ring.port p).delay residence) } s
  else if s.canJoin then followRef p h f residence s
  else s

def syncRef (p : Nat) (h : RingHeader) (f : SyncRef) (residence : U32) (s : State) : State :=
  let g : RingFrame := { hdr := h, payload := syncBytes f }
  if ringBad g 0 then discard p g s
  else if !(s.ring.port p).closed then s
  else if s.basecamp then basecampRef p h f residence s
  else if !s.ring.sectionOk || decide (h.wordA ≠ s.ringSec.sched) then schedMismatch p s
  else takeRef p h f residence s

def execSyncRefReceived (port : Fin 2) (link : LinkCheck) (h : RingHeader) (f : SyncRef) (residence : U32) (s : State) : Result :=
  .next (if s.ring.phase ≠ .active then s
    else let t := linkRx port.val link s
      if t.2 then syncRef port.val h f residence t.1 else t.1)

/-- A reference is missing (R251): the second in a row raises the event, and a backup of rank k takes over at the 2k-th. -/
def refMissing (s : State) : State :=
  let s := s.modRing (fun r => { r with missing := r.missing + 1 })
  let s := if s.ring.missing = 2 then raiseRing evt_ringRefMissing noInst [] s else s
  match s.ownRank with
  | some k =>
    if decide (1 ≤ k) && decide (s.ring.missing = 2 * k) && (s.ring.east.closed || s.ring.west.closed) then
      let s := if s.ring.joined then s else joinRing s
      raiseRing evt_ringMasterChange noInst [] (takeMaster k s)
    else s
  | none => s

def execSyncRefMissing (s : State) : Result := .next (if s.canJoin && !s.ring.master then refMissing s else s)

/-- At `HANDOVER_AT` the returning station takes the reference and the slot buffer, and the former master stops (R252). -/
def execMasterHandover (s : State) : Result :=
  .next (if s.canJoin && s.ring.joined && s.ring.handoverAt ≠ 0 then
    if s.ring.master then dropMaster s
    else match s.ownRank with
      | some k => if k < s.ring.rank then raiseRing evt_ringMasterChange noInst [] (takeMaster k s) else s
      | none => s
  else s)

/-! ### The local cycle -/

/-- The link exchanges of the cycle that ends: a cycle that does not count resets verification (R244). -/
def endExchange (x : RingPort) : RingPort :=
  { x with fails := 0, exchanged := false, verify := if x.exchanged && x.fails = 0 then x.verify else 0 }

/-- The first cycle on a new path is complete (R243). -/
def healStep (s : State) : State :=
  if s.ring.heal = 0 then s
  else if s.ring.heal = 1 then
    raiseRing evt_ringHealed noInst (le16 s.ring.last.loopStns ++ i32 s.ring.v1Step)
      (s.modRing (fun r => { r with heal := 0, heals := r.heals + 1 }))
  else s.modRing (fun r => { r with heal := r.heal - 1 })

/-- V1 reads the cycle number × T_RC at the start of each local cycle (R250). -/
def anchorV1 (s : State) : State :=
  if s.ring.joined then
    let ns := s.ring.cycleNo * s.ringSec.tRc * 1000
    rebaseQuiet 1 { sec := ns / 1000000000, ns := ns % 1000000000, frac := 0 } s
  else s

/-- The cycle counter runs on its own where no reference re-anchored it (R245, R251). -/
def ownCycle (s : State) : State :=
  if s.ring.refHere then s.modRing (fun r => { r with refHere := false })
  else takeCycle (s.ring.cycle + 1) false s

/-- The start of a local cycle (R225, R237, R244, R250, R255), without the age step and the activation of sections. -/
def cycleStart (s : State) : State :=
  let s := ownCycle s
  let s := if s.formsRing then takeMaster 0 (joinRing s) else s
  let s := if s.ring.master && s.ring.yieldNext then dropMaster s else s
  let s := s.modRing (fun r => { r with
    east := endExchange r.east, west := endExchange r.west, spent := 0, settling := r.settling - 1,
    relayQ := r.relayQ.map (fun x => { x with waited := x.waited + 1 }) })
  let s := anchorV1 (healStep s)
  if s.ring.master then sendRef s else s

/-! ### Slots -/

/-- The point at which slot `k` is due (R247, R249). -/
def slotAge (k : Nat) (s : State) : State :=
  let e := s.ringSec.slots.getD .none k
  if !e.rx then s
  else
    let x := s.ring.slots.getD .reset k
    let y : SlotRx := if x.fresh then { x with age := 0, fresh := false, stale := false } else { x with age := satInc 255 x.age }
    let warn := !y.never && !y.stale && decide (s.ringSec.ageWarn ≤ y.age)
    let s := s.modRing (fun r => { r with slots := r.slots.set k { y with stale := y.stale || warn } })
    if warn then raiseRing evt_ringSlotStale k [] s else s

/-- Owner of a slot in a cycle: slot 4 rotates (R235). -/
def State.slotOwner (s : State) (k : Nat) : Nat :=
  if k = 4 then s.ring.cycle.toNat % 32 else (s.ringSec.slots.getD .none k).owner

/-- A relayed dynamic frame that has waited 4 cycles is dropped, the event at most once a second (R239). -/
def relayTimeout (s : State) : State :=
  let n := (s.ring.relayQ.filter (fun x => decide (4 ≤ x.waited))).length
  if n = 0 then s
  else
    let quiet := s.ring.relayDropAt.any (fun a => decide (s.now < a + Config.ticksPerSecond))
    let s := s.modRing (fun r => { r with
      relayQ := r.relayQ.filter (fun x => decide (x.waited < 4)), relayDrops := r.relayDrops + n,
      relayDropAt := if quiet then r.relayDropAt else some s.now })
    if quiet then s else raiseRing evt_ringRelayDrop noInst [] s

def execRelayQueueTimeout (s : State) : Result := .next (relayTimeout s)

/-! ### The secondary direction -/

/-- Length of a ring frame, and the room of the insertion buffer (R240). -/
def frameSize (f : RingFrame) : Nat := 32 + f.payload.length
def framesSize (l : List RingFrame) : Nat := (l.map frameSize).foldl (· + ·) 0

/-- An `ETH` frame of the secondary direction (R240): its destination and its returning sender remove it; while the output is
busy the insertion buffer holds it, if it has room; else it is forwarded. -/
def secondary (p : Nat) (f : RingFrame) (busy : Bool) (s : State) : State :=
  if ringBad f 4 then discard p f s
  else if f.hdr.dst.extractLsb' 14 2 = 0 && (f.hdr.dst.extractLsb' 9 5).toNat = s.station then s
  else if (f.hdr.src.extractLsb' 9 5).toNat = s.station then s
  else if busy then
    if framesSize s.ring.secBuf + frameSize f ≤ 2048 then s.modRing (fun r => { r with secBuf := r.secBuf ++ [f] })
    else s.modCount p (fun c => { c with secDrop := c.secDrop + 1 })
  else
    let s := (s.ring.secBuf ++ [f]).foldl (fun s g => forward p g s) (s.modRing (fun r => { r with secBuf := [] }))
    match s.ring.secOut with
    | g :: rest =>
      if loopNamed s.ring.last.loopStns then s
      else (putWire 1 g (s.modRing (fun r => { r with secOut := rest }))).modCount 1 (fun c => { c with secIn := c.secIn + 1 })
    | [] => s

def execSecondaryFrameReceived (port : Fin 2) (link : LinkCheck) (f : RingFrame) (busy : Bool) (s : State) : Result :=
  .next (if s.ring.phase ≠ .active || !(s.ring.port port.val).closed then s
    else let t := linkRx port.val link s
      if t.2 then secondary port.val f busy t.1 else t.1)

/-! ### Commands (Table 9.15) -/

/-- `STATE` (Table 9.13). -/
def State.ringStateCode (s : State) : Nat :=
  let r := s.ring
  if r.phase = .off then 0
  else if s.basecamp then 6
  else if r.phase = .asleep then 5
  else if r.joined then (if !r.east.closed && !r.west.closed then 4 else 3)
  else if r.east.link ≠ .down ∨ r.west.link ≠ .down then 2
  else 1

/-- `RING_STATE` (Table 9.13). -/
def State.ringWord (s : State) : U32 :=
  let r := s.ring
  wordOf [(s.ringStateCode, 28), (r.east.link.code, 26), (r.west.link.code, 24), (bit r.looping, 23),
    (bit (r.heard && loopNamed r.last.loopStns), 22), (bit r.master, 21), (r.rank % 4, 19), (bit r.syncOk, 18),
    (bit (decide (r.settling ≠ 0)), 17), (bit (decide (r.sleepAt ≠ 0)), 16), (bit s.consents, 15),
    (bit (r.sectionOk && !r.mismatch && (r.heard || r.joined)), 14), (r.masterStn % 32, 0)]

/-- The present and consent fields with this station's own bits. -/
def State.presentField (s : State) : U32 := if s.ring.joined then setBit32 s.ring.last.present s.station true else s.ring.last.present
def State.consentField (s : State) : U32 := setBit32 s.ring.last.consent s.station s.consents

def State.ringStatus (s : State) : List Byte :=
  le32 s.ringWord ++ le32 s.ring.cycle ++ le32 s.ringSec.sched ++ le32 s.presentField ++ le32 s.consentField
    ++ le32 s.ring.sleepAt ++ n32 s.ring.heals ++ i32 s.ring.v1Step

def State.ringMode (s : State) : Bool := s.sys.mode.isServing

def execRingGetStatus (r : Req) (s : State) : Result :=
  .next (runCmd r { code := 0x0701, lenOk := decide (r.len = 0), need := .any, payload := none, modeOk := s.ringMode }
    (fun _ s => (s, .ok s.ringStatus)) s)

/-- Commands that need a joined station (R265). -/
def needJoined (f : State → State × Reply) (s : State) : State × Reply :=
  if s.ring.joined then f s else (s, .fail stat_ringNotJoined)

def State.topology (s : State) : List Byte :=
  let f := s.ring.last
  [byteOf (f.path.filter (fun b => decide (b ≠ 0xFF))).length, 0] ++ le16 f.loopStns ++ le32 s.presentField ++ f.path

def execRingTopology (r : Req) (s : State) : Result :=
  .next (runCmd r { code := 0x0702, lenOk := decide (r.len = 0), need := .any, payload := none, modeOk := s.ringMode }
    (fun _ s => needJoined (fun s => (s, .ok s.topology)) s) s)

/-- Eight bytes for a slot. -/
def State.slotAgeBytes (s : State) (k : Nat) : List Byte :=
  let e := s.ringSec.slots.getD .none k
  let x := s.ring.slots.getD .reset k
  [byteOf x.age, byteOf (bit e.rx + 2 * bit x.notReady + 4 * bit x.relayed + 8 * bit x.never), byteOf e.owner, byteOf e.ftype]
    ++ le32 x.origin

def execRingSlotAge (r : Req) (first count : U16) (s : State) : Result :=
  .next (runCmd r
    { code := 0x0703, lenOk := decide (r.len = 4), need := .any
      payload := needStat (decide (1 ≤ count.toNat) && decide (first.toNat + count.toNat ≤ 384)) stat_range
      modeOk := s.ringMode }
    (fun _ s => needJoined (fun s =>
      (s, .ok ((List.range count.toNat).flatMap (fun j => s.slotAgeBytes (first.toNat + j))))) s) s)

def State.delayBytes (s : State) : List Byte :=
  let r := s.ring
  le32 r.east.delay ++ [byteOf (r.east.nbr.getD 255), 0, 0, 0] ++ le32 r.west.delay ++ [byteOf (r.west.nbr.getD 255), 0, 0, 0]
    ++ n32 (r.waveDelay * 65536) ++ i32 r.v0Offset ++ le64 r.last.corr

def execRingDelays (r : Req) (s : State) : Result :=
  .next (runCmd r { code := 0x0704, lenOk := decide (r.len = 0), need := .any, payload := none, modeOk := s.ringMode }
    (fun _ s => needJoined (fun s => (s, .ok s.delayBytes)) s) s)

/-- R258, R265: a consent is given while R169 allows it, and withdrawn until 2 cycles before `SLEEP_AT`. -/
def consentBody (give : Bool) (s : State) : State × Reply :=
  let answer := fun (s : State) => (s, Reply.ok (le32 s.consentField ++ le32 s.ring.sleepAt))
  if give then
    if !s.sleepAllowed then (s, .fail stat_badState)
    else answer (s.modRing (fun r => { r with consentCmd := true }))
  else if s.ring.sleepAt ≠ 0 && decide ((s.ring.sleepAt - s.ring.cycle).toNat ≤ 2) then (s, .fail stat_ringSleepLate)
  else answer (s.modRing (fun r => { r with consentCmd := false }))

def execRingSleepConsent (r : Req) (give : Byte) (s : State) : Result :=
  .next (runCmd r
    { code := 0x0705, lenOk := decide (r.len = 4), need := .system
      payload := needStat (decide (give.toNat ≤ 1)) stat_badPayload, modeOk := decide (s.sys.mode = .run) }
    (fun _ s => consentBody (decide (give = 1)) s) s)

def RingCounters.bytes (c : RingCounters) : List Byte :=
  n64 c.received ++ n64 c.sent ++ n64 c.forwarded ++ n64 c.fcs ++ n64 c.icv ++ n64 c.crc ++ n64 c.discarded ++ n64 c.secIn
    ++ n64 c.secDrop

/-- R10, Table 9.15: counters, cleared after reading on request. -/
def ringStatsBody (clear : Bool) (s : State) : State × Reply :=
  let r := s.ring
  let data := r.east.count.bytes ++ r.west.count.bytes ++ n32 r.loopBacks ++ n32 r.heals ++ n32 r.relayDrops
  (if clear then s.modRing (fun r => { r with
      east := { r.east with count := .zero }, west := { r.west with count := .zero }, loopBacks := 0, heals := 0, relayDrops := 0 })
   else s, .ok data)

def execRingStats (r : Req) (clear : Byte) (s : State) : Result :=
  .next (runCmd r
    { code := 0x0706, lenOk := decide (r.len = 4), need := .any
      payload := needStat (decide (clear.toNat ≤ 1)) stat_badPayload, modeOk := s.ringMode }
    (fun _ s => ringStatsBody (decide (clear = 1)) s) s)

end Sys2Proof.Machine
end

