-- ==== Sys2Proof/Machine/Esw.lean ====
section
/-! DEFINITION. The switch core: classification, policing (802.1Qci), replication (802.1CB), forwarding (R271 to R273), cells and
pots (R274 to R280), queue pairs (R288, R289) and time stamps (R286, R287). -/

namespace Sys2Proof.Machine

def State.modEsw (s : State) (f : EswState → EswState) : State := { s with esw := f s.esw }
def State.swp (s : State) (p : Nat) : EswPort := s.esw.ports.getD .reset p
def State.pot (s : State) (k : Nat) : Pot := s.esw.pots.getD .reset k
def State.qp (s : State) (v q : Nat) : QPair := s.esw.qps.getD .reset (4 * v + q)

def State.modSwp (s : State) (p : Nat) (f : EswPort → EswPort) : State :=
  s.modEsw (fun e => { e with ports := e.ports.modify .reset p f })
def State.modPot (s : State) (k : Nat) (f : Pot → Pot) : State := s.modEsw (fun e => { e with pots := e.pots.modify .reset k f })
def State.modQp (s : State) (v q : Nat) (f : QPair → QPair) : State :=
  s.modEsw (fun e => { e with qps := e.qps.modify .reset (4 * v + q) f })
def State.modEswStats (s : State) (f : EswStats → EswStats) : State := s.modEsw (fun e => { e with stats := f e.stats })
def State.modSwCount (s : State) (p : Nat) (f : EswCounts → EswCounts) : State := s.modSwp p (fun x => { x with count := f x.count })

/-! ### Ports -/

def isP (p : Nat) : Bool := decide (1 ≤ p) && decide (p ≤ 8)
def isQ (p : Nat) : Bool := decide (9 ≤ p) && decide (p ≤ 12)
def isS (p : Nat) : Bool := decide (13 ≤ p) && decide (p ≤ 16)
def portRg : Nat := 0
def portI0 : Nat := 17
def portI1 : Nat := 18
def portI3 : Nat := 20

/-- Port rates in kb/s (Table 10.1). -/
def rateKbps (p : Nat) : Nat :=
  if p = 0 ∨ p = 20 then 10000000
  else if isP p then 1000000
  else if isQ p then 100000
  else if isS p then 10000
  else if p = 17 then 20000000
  else 1000000

/-- Owner of a port as an event scope. -/
def EswPort.vzf (x : EswPort) : Option Nat := if x.rec_.owner = 255 then none else some x.rec_.owner

def raisePort (k : EvKind) (p : Nat) (s : State) : State := raise k p (.owned (s.swp p).vzf) [] s

/-! ### Frames -/

/-- Length from the destination address through the FCS, padded to 64 bytes (chapter 10). -/
def ethLen (f : EthFrame) : Nat :=
  max 64 (12 + (if f.tci.isSome then 4 else 0) + (if f.rtag.isSome then 6 else 0) + 2 + f.data.length + 4)

def beBytes (n : Nat) : Nat → List Byte
  | 0 => []
  | k + 1 => byteOf (n / 256 ^ k) :: beBytes n k

/-- The bytes of a frame without FCS. -/
def ethBytes (f : EthFrame) : List Byte :=
  beBytes f.dst.toNat 6 ++ beBytes f.src.toNat 6
    ++ (match f.tci with | some t => [0x81, 0x00] ++ beBytes t.toNat 2 | none => [])
    ++ (match f.rtag with | some t => [0xF1, 0xC1, 0, 0] ++ beBytes t.toNat 2 | none => [])
    ++ beBytes f.etype.toNat 2 ++ f.data

def beNat (l : List Byte) : Nat := l.foldl (fun a b => a * 256 + b.toNat) 0

/-- VID and PCP: an untagged or priority-tagged frame takes the PVID (R271). -/
def frameVid (r : PortRecord) (f : EthFrame) : Nat :=
  match f.tci with
  | some t => if t.toNat % 4096 = 0 then r.pvid else t.toNat % 4096
  | none => r.pvid

def framePcp (f : EthFrame) : Nat := (f.tci.map (fun t => t.toNat / 8192)).getD 0

def frameClass (r : PortRecord) (f : EthFrame) : Nat := bits r.pcpMap (3 * framePcp f) 3

/-- A group address: broadcast or multicast. -/
def isGroup (m : BitVec 48) : Bool := m.getLsbD 40

/-! ### gPTP time stamps (R286, R287, R378) -/

/-- A gPTP event message: its message type and domainNumber. -/
def gptpEvent (f : EthFrame) : Option (Nat × Nat) :=
  let t := (f.data.getD 0 0).toNat % 16
  if f.etype = 0x88F7 ∧ (t = 0 ∨ t = 2 ∨ t = 3) then some (t, (f.data.getD 4 0).toNat) else none

/-- The view of the gPTP instance that a domainNumber names. -/
def State.gptpView (s : State) (domain : Nat) : Option Nat :=
  ((List.range 4).find? (fun i => decide (s.esw.domains.getD i 256 = domain))).map (· + 2)

/-- The view that stamps a frame at port `p`. -/
def State.stampView (s : State) (p : Nat) (f : EthFrame) : Nat :=
  match gptpEvent f with
  | some (_, d) => (s.gptpView d).getD (s.swp p).rec_.tsView
  | none => (s.swp p).rec_.tsView

def State.stampAt (s : State) (p : Nat) (f : EthFrame) : Int := (s.view (s.stampView p f)).unitsAt s.now

def stampNs (u : Int) : U64 := BitVec.ofInt 64 (u / 65536)
def stampFrac (u : Int) : U16 := BitVec.ofInt 16 (u % 65536)

/-- The inserted time of a one-step Sync: whole nanoseconds in originTimestamp, the fraction in correctionField (R287). -/
def insertTime (u : Int) (f : EthFrame) : EthFrame :=
  let ns := (u / 65536).toNat
  let corr := beNat ((f.data.drop 8).take 8) + (u % 65536).toNat
  { f with data := f.data.take 8 ++ beBytes corr 8 ++ (f.data.drop 16).take 18 ++ beBytes (ns / 1000000000) 6
      ++ beBytes (ns % 1000000000) 4 ++ f.data.drop 44 }

/-- An 802.1AS Sync with the twoStepFlag clear. -/
def isOneStepSync (f : EthFrame) : Option Nat :=
  match gptpEvent f with
  | some (0, d) => if (f.data.getD 6 0).getLsbD 1 then none else some d
  | _ => none

/-! ### Pots and cells -/

/-- Cells that no frame uses: banks that are off, and retired cells (R274). -/
def EswState.holdCells (e : EswState) : Nat := totalCells - bankCells * e.nBank + e.hold

/-- Reserved cells that are not in use (R276). -/
def EswState.reserved (e : EswState) : Nat := (e.pots.cells.map (fun c => c.2.rec_.min - c.2.used)).foldl (· + ·) 0

def EswState.sharedFree (e : EswState) : Nat := e.free - e.reserved

def EswState.owned (e : EswState) : Nat := (e.pots.cells.map (fun c => c.2.used)).foldl (· + ·) 0 + e.holdCells
def EswState.scrubbing (e : EswState) : Nat := e.scrub0 + e.scrub1

/-- Owner of a pot as an event scope; pot 0 is the system's (R275). -/
def State.potScope (s : State) (k : Nat) : Scope := .owned (s.potOwner k)

inductive DropWhy where
  | potFull
  | lastCell
  | lossless
  | noRoute
  | qci
  | macsec
  | vzfReset
  deriving DecidableEq, Repr

/-- Drop reasons of Table 10.8. -/
def DropWhy.code : DropWhy → Nat
  | .potFull => 1
  | .lastCell => 2
  | .lossless => 3
  | .noRoute => 4
  | .qci => 5
  | .macsec => 6
  | .vzfReset => 7

/-- Cells that a frame frees pass to the scrubber of its plane. -/
def EswState.scrub (e : EswState) (plane n : Nat) : EswState :=
  if plane = 0 then { e with scrub0 := e.scrub0 + n } else { e with scrub1 := e.scrub1 + n }

/-- Move the completions in order past `ESW_TXQ_CONS` (R288). -/
def advanceTx : Nat → QPair → QPair
  | 0, q => q
  | n + 1, q =>
    if q.txCons ≠ q.txProd ∧ (q.done.get? q.txCons.toNat).isSome then advanceTx n { q with txCons := q.txCons + 1 } else q

/-- A transmit completion (Table 10.8); one of an old generation is discarded and counted (R121, R290). -/
def completeTx (r : TxRef) (d : TxDone) (s : State) : State :=
  if r.gen ≠ (s.vzf r.vzf).gen then { s with vz := s.vz.modify r.vzf (fun z => { z with late := z.late + 1 }) }
  else
    (s.modQp r.vzf r.pair (fun q => advanceTx (2 ^ q.depthLog2) { q with done := q.done.set r.entry d })).raiseSrc (some r.vzf)
      (4 + r.pair)

def completeOpt (r : Option TxRef) (d : TxDone) (s : State) : State :=
  match r with
  | some x => completeTx x d s
  | none => s

/-- A drop at a port: counted, and reported to the transmit descriptor. -/
def dropAt (p : Nat) (why : DropWhy) (tx : Option TxRef) (s : State) : State :=
  completeOpt tx { status := 1, reason := why.code, stamp := 0 } (s.modSwCount p (fun c => { c with drops := c.drops + 1 }))

/-- A drop charged to a pot: counted by reason; the first of an episode raises the event (R276). -/
def potDrop (x : Stored) (why : DropWhy) (s : State) : State :=
  let first := !(s.pot x.pot).episode
  let s := s.modPot x.pot (fun t => { t with
    dropFull := if why = .potFull then t.dropFull + 1 else t.dropFull
    dropLast := if why = .lastCell then t.dropLast + 1 else t.dropLast
    lossless := if why = .lossless then t.lossless + 1 else t.lossless
    episode := true })
  let s := if first then raise evt_eswPotFull x.pot (s.potScope x.pot) [] s else s
  let s := x.copies.foldl (fun s c => match c.vzf with
    | some v => if c.port = portI0 ∨ c.port = portI1 then s.modQp v 0 (fun q => { q with rxDrop := satInc 0xFFFF q.rxDrop }) else s
    | none => s) s
  dropAt x.ingress why x.tx s

/-- Cells that a frame of pot `k` takes from its reserve. -/
def Pot.fromReserve (t : Pot) (n : Nat) : Nat := min n (t.rec_.min - t.used)

/-- A request of a higher class, or of the same class nearer to the pointer, wins (R279). -/
def beats (pointer : Nat) (a b : Nat × Nat) : Bool :=
  decide (b.2 < a.2) || (decide (a.2 = b.2) && decide ((a.1 + 21 - pointer) % 21 < (b.1 + 21 - pointer) % 21))

/-- How a cell request fares. -/
inductive Grant where
  | granted
  | full
  | lost
  deriving DecidableEq, Repr

/-- The grant of R276 and R279 for a frame that needs `x.cells` cells beside its rivals. -/
def State.grant (s : State) (x : Stored) (rivals : List Rival) : Grant :=
  let t := s.pot x.pot
  let shared := x.cells - t.fromReserve x.cells
  let ahead := (rivals.filter (fun r => beats s.esw.pointer (r.port.val, r.cls.val) (x.ingress, x.cls))).length
  if t.rec_.max < t.used + x.cells || t.rec_.maxDesc < t.desc + x.copies.length || s.esw.descFree < x.copies.length then .full
  else if s.esw.free < x.cells then .lost
  else if shared = 0 then .granted
  else if shared + ahead ≤ s.esw.sharedFree then .granted
  else .lost

/-- After a contest the pointer moves past the winner (R279). -/
def movePointer (x : Stored) (rivals : List Rival) (s : State) : State :=
  if rivals.isEmpty ∨ x.cells ≤ (s.pot x.pot).fromReserve x.cells ∨ x.cells + rivals.length ≤ s.esw.sharedFree then s
  else
    let win := rivals.foldl (fun (a : Nat × Nat) r =>
      if beats s.esw.pointer (r.port.val, r.cls.val) a then (r.port.val, r.cls.val) else a) (x.ingress, x.cls)
    s.modEsw (fun e => { e with pointer := (win.1 + 1) % 21 })

/-- A shaped class whose queue was empty starts to wait with no positive credit (802.1Qav). -/
def Shaper.now (h : Shaper) (now : Nat) : Int := h.credit + ((h.slope * (now - h.last) : Nat) : Int)

def EswState.hasQueue (e : EswState) (p t : Nat) : Bool :=
  e.stored.any (fun x => decide (x.cls = t) && x.copies.any (fun c => decide (c.port = p)))

def startCredit (x : Stored) (now : Nat) (e : EswState) : EswState :=
  x.copies.foldl (fun e c =>
    let k := 8 * c.port + x.cls
    if e.hasQueue c.port x.cls then e
    else match e.shapers.get? k with
      | some h => { e with shapers := e.shapers.set k { h with credit := min 0 (h.now now), last := now } }
      | none => e) e

/-- The frame takes its cells and descriptors and waits in its queues (R276). -/
def storeFrame (x : Stored) (s : State) : State :=
  let n := x.cells
  let s := s.modPot x.pot (fun t => { t with used := t.used + n, desc := t.desc + x.copies.length, peak := max t.peak (t.used + n) })
  let s := s.modEsw (fun e =>
    { startCredit x s.now e with free := e.free - n, descFree := e.descFree - x.copies.length, stored := e.stored ++ [x] })
  s.modEswStats (fun t => { t with switched := t.switched + 1, flooded := if x.flooded then t.flooded + 1 else t.flooded })

/-- The cells that a dropped frame had been granted pass to the scrubbers (R276). -/
def scrubPart (x : Stored) (s : State) : State :=
  let t := s.pot x.pot
  let k := min x.cells (min (t.rec_.max - t.used) (t.fromReserve x.cells + s.esw.sharedFree))
  s.modEsw (fun e => { e.scrub x.plane (min k e.free) with free := e.free - min k e.free })

/-- A lossless class at its ingress port (R280): I0 to I3 alone can hold back their source. -/
def EswPort.isLossless (p : EswPort) (n t : Nat) : Bool := decide (17 ≤ n) && p.rec_.lossless.getLsbD t

/-- A request is granted, dropped or held (R276, R279, R280). -/
def request (x : Stored) (rivals : List Rival) (s : State) : State :=
  let g := s.grant x rivals
  let s := movePointer x rivals s
  match g with
  | .granted => storeFrame x s
  | .full => potDrop x .potFull (scrubPart x s)
  | .lost =>
    if (s.swp x.ingress).isLossless x.ingress x.cls then
      (s.modEsw (fun e => { e with waiting := e.waiting ++ [x] })).modSwp x.ingress (fun p => { p with
        held := setFlag p.held x.cls })
    else potDrop x .lastCell (scrubPart x s)

/-! ### Policing (802.1Qci) -/

/-- IPv4 and IPv6 fields of a frame: source, destination (16 bytes each), DSCP, protocol, ports. -/
def ipKey (f : EthFrame) : Option (List Byte × List Byte × Nat × Nat × Nat × Nat) :=
  let d := f.data
  let port := fun (o : Nat) => (d.getD o 0).toNat + 256 * (d.getD (o + 1) 0).toNat
  if f.etype = 0x0800 then
    let h := (d.getD 0 0).toNat % 16 * 4
    some ((d.drop 12).take 4 ++ zeros 12, (d.drop 16).take 4 ++ zeros 12, (d.getD 1 0).toNat / 4, (d.getD 9 0).toNat, port h, port (h + 2))
  else if f.etype = 0x86DD then
    some ((d.drop 8).take 16, (d.drop 24).take 16, ((d.getD 0 0).toNat % 16 * 16 + (d.getD 1 0).toNat / 16) / 4, (d.getD 6 0).toNat,
      port 40, port 42)
  else none

def keyMac (k : List Byte) : Nat := beNat (k.take 6)
def keyHalf (k : List Byte) (o : Nat) : Nat := (k.getD o 0).toNat + 256 * (k.getD (o + 1) 0).toNat

/-- Stream identification: null, source MAC and VLAN, IP (Table 10.2). -/
def filterHits (r : FilterFields) (p vid : Nat) (f : EthFrame) : Bool :=
  flagOf r.flags 0 && decide (r.port.toNat = p) &&
    (match r.method.toNat with
     | 0 => decide (keyMac r.key = f.dst.toNat) && decide (keyHalf r.key 6 = vid)
     | 1 => decide (keyMac r.key = f.src.toNat) && decide (keyHalf r.key 6 = vid)
     | _ =>
       match ipKey f with
       | some (sa, da, dscp, pr, sp, dp) =>
         decide (r.key.take 16 = sa) && decide ((r.key.drop 16).take 16 = da) && decide ((r.key.getD 32 0).toNat = dscp)
           && decide ((r.key.getD 33 0).toNat = pr) && decide (keyHalf r.key 34 = sp) && decide (keyHalf r.key 36 = dp)
       | none => false)

def State.streamOfFrame (s : State) (p vid : Nat) (f : EthFrame) : Option (Nat × StreamFilter) :=
  s.esw.filters.cells.find? (fun c => filterHits c.2.rec_ p vid f)

/-- Gate states in force: every gate is open without a list. -/
def Gates.states (g : Gates) : Byte :=
  match g.oper with
  | some l => (l.entries.getD g.index (0, 0xFF)).2
  | none => 0xFF

/-- The buckets at `now`: C and E fill at CIR and EIR, and with coupling C's overflow fills E. -/
def Meter.fill (x : Meter) (now : Nat) : Meter :=
  let dt := now - x.last
  let c := x.cTok + x.cir * dt
  let excess := if flagOf x.flags 2 then c - x.cbs * 4800000 else 0
  { x with cTok := min (x.cbs * 4800000) c, eTok := min (x.ebs * 4800000) (x.eTok + x.eir * dt + excess), last := now }

/-- The meter's verdict on a frame of `len` bytes: passes or not (two-rate, three-colour). -/
def Meter.verdict (x : Meter) (now len : Nat) (dei : Bool) : Meter × Bool :=
  let y := x.fill now
  let cost := len * 4800000
  let yellowIn := flagOf x.flags 0 && dei
  if y.allRed then (y, false)
  else if !yellowIn && decide (cost ≤ y.cTok) then ({ y with cTok := y.cTok - cost }, true)
  else if cost ≤ y.eTok then ({ y with eTok := y.eTok - cost }, !flagOf x.flags 1)
  else ({ y with allRed := flagOf x.flags 3 }, false)

/-- A stream filter's maximum SDU, gate and meter: whether the frame passes, and whether its stream has just been blocked. -/
def policeWith (n : Nat) (x : StreamFilter) (len cls : Nat) (f : EthFrame) (s : State) : State × Bool :=
  if x.blocked then (s, false)
  else if x.rec_.maxSdu.toNat < f.data.length then
    if flagOf x.rec_.flags 1 then
      (raise evt_eswStreamBlocked noInst .wide [] (s.modEsw (fun e => { e with filters := e.filters.set n { x with blocked := true } })), false)
    else (s, false)
  else if x.rec_.gate ≠ 0xFFFF ∧ !(s.esw.streamGates.getD .open_ x.rec_.gate.toNat).states.getLsbD cls then (s, false)
  else match (if x.rec_.meter = 0xFFFF then none else s.esw.meters.get? x.rec_.meter.toNat) with
  | none => (s, true)
  | some m =>
    let r := m.verdict s.now len ((f.tci.map (fun t => t.getLsbD 12)).getD false)
    (s.modEsw (fun e => { e with meters := e.meters.set x.rec_.meter.toNat r.1 }), r.2)

/-! ### Replication and elimination (802.1CB) -/

/-- Sequence recovery of number `n`: vector or match algorithm. -/
def Frer.accepts (x : Frer) (n : U16) : Frer × Bool :=
  if x.takeAny then ({ x with takeAny := false, recv := n, history := 1 }, true)
  else if x.rec_.algorithm = 1 then
    if n = x.recv then (x, false) else ({ x with recv := n }, true)
  else
    let len := x.rec_.history.toNat
    let ahead := (n - x.recv).toNat
    let behind := (x.recv - n).toNat
    if ahead = 0 then (x, false)
    else if ahead < len then ({ x with recv := n, history := (x.history * 2 ^ ahead + 1) % 2 ^ len }, true)
    else if behind < len then
      if x.history / 2 ^ behind % 2 = 1 then (x, false) else ({ x with history := x.history + 2 ^ behind }, true)
    else (x, false)

/-- Functions for a stream handle, by kind (1 generation, 2 recovery). -/
def EswState.frerFor (e : EswState) (handle kind : Nat) : Option (Nat × Frer) :=
  e.frer.cells.find? (fun c => decide (c.2.rec_.kind.toNat = kind) && decide (c.2.rec_.handle.toNat = handle))

/-- Recovery with the reset time-out: after it any number is taken. -/
def Frer.recover (x : Frer) (n : U16) (now : Nat) : Frer × Bool :=
  let x := if x.last + x.rec_.resetMs.toNat * Config.ticksPerMs ≤ now then { x with takeAny := true } else x
  let r := x.accepts n
  (if r.2 then { r.1 with last := now } else r.1, r.2)

/-! ### Forwarding -/

def EswState.lookup (e : EswState) (mac : BitVec 48) (vid : Nat) : Option FdbEntry :=
  e.fdb.find? (fun x => decide (x.mac = mac) && decide (x.vid = vid))

/-- The endpoint of a VZF (R272). -/
def Vzf.endpoint (z : Vzf) (vid : Nat) : Bool := z.exists_ && z.tpl.vids.contains vid

/-- Copies to the VZFs of I0 or I1: the matching endpoints, or every member of a flooded frame. -/
def State.vzfCopies (s : State) (saf : Bool) (dst : BitVec 48) (vid : Nat) (flood : Bool) : List EgressCopy :=
  (s.vz.vzfs.cells.filter (fun c =>
    c.2.endpoint vid && !c.2.tpl.attach && (c.2.tpl.hostSaf == saf) && (flood || c.2.tpl.macs.contains dst))).map
    (fun c => { port := if saf then portI1 else portI0, vzf := some c.1, dst := 0 })

/-- The ring destination: a ring-attached VZF's node, the learned station, or ring broadcast (R273). -/
def State.ringDst (s : State) (dst : BitVec 48) (vid station : Nat) (flood : Bool) : U16 :=
  match s.vz.vzfs.cells.find? (fun c => c.2.endpoint vid && c.2.tpl.attach && c.2.tpl.macs.contains dst) with
  | some c => s.nodeId c.1
  | none => if flood ∨ station = 255 then 0x8000 else 0x4000 + BitVec.ofNat 16 (station % 32 * 512)

/-- Copies of a frame (R271, R272): the entry's ports or, unknown, every member port but the ingress port. -/
def State.route (s : State) (ingress vid : Nat) (dst : BitVec 48) : List EgressCopy × Bool :=
  let hit := if isGroup dst then none else s.esw.lookup dst vid
  let flood := hit.isNone
  let mask := match hit with
    | some e => if e.discard then 0 else e.ports
    | none => 0xFFFFFFFF
  let members := (s.esw.vlans.getD .none vid).members &&& mask
  let station := (hit.map (·.station)).getD 255
  let on := fun (p : Nat) => members.getLsbD p && decide (p ≠ ingress) && (s.swp p).rec_.en
  ((List.range 21).flatMap (fun p =>
    if !on p then []
    else if p = portI0 then s.vzfCopies false dst vid flood
    else if p = portI1 then s.vzfCopies true dst vid flood
    else [{ port := p, vzf := none, dst := if p = portRg then s.ringDst dst vid station flood else 0 }]), flood)

/-- Learn the source (R271): at most 16,384 entries; a static entry stays. -/
def EswState.learn (e : EswState) (p station vid : Nat) (src : BitVec 48) : EswState :=
  let x : FdbEntry := { mac := src, vid := vid, ports := BitVec.ofNat 32 (2 ^ p), station := if p = 0 then station else 255,
                        static_ := false, discard := false }
  match e.lookup src vid with
  | some old => if old.static_ then e
    else { e with fdb := e.fdb.map (fun y => if y.mac = src ∧ y.vid = vid then x else y) }
  | none => if e.fdb.length < 16384 ∧ !isGroup src then { e with fdb := e.fdb ++ [x] } else e

/-- A frame on its way to a VZF that quiesces is dropped (R290). -/
def State.copyLive (s : State) (c : EgressCopy) : Bool :=
  match c.vzf with
  | some v => s.vzfActive v
  | none => true

/-- What a frame brings in from its port. -/
structure Ingress where
  port : Nat
  station : Nat
  protected_ : Bool
  pot : Option Nat
  cls : Option Nat
  len : Nat
  learnAs : BitVec 48
  tx : Option TxRef

/-- Policing of a classified frame: the handle of its stream, and whether it passes. -/
def policeFrame (g : Ingress) (vid cls : Nat) (f : EthFrame) (s : State) : State × Option Nat × Bool :=
  match s.streamOfFrame g.port vid f with
  | none => (s, none, true)
  | some (n, x) =>
    let r := policeWith n x g.len cls f s
    (r.1, some n, r.2)

/-- Elimination for a stream: copies to the function's ports that remain. -/
def eliminate (h : Option Nat) (f : EthFrame) (copies : List EgressCopy) (s : State) : State × List EgressCopy × U32 :=
  match h.bind (fun n => s.esw.frerFor n 2), f.rtag with
  | some (k, x), some n =>
    let r := x.recover n s.now
    let s := s.modEsw (fun e => { e with frer := e.frer.set k r.1 })
    if r.2 then (s, copies, x.rec_.ports)
    else
      (s.modEswStats (fun t => { t with frer := t.frer + 1 }), copies.filter (fun c => !x.rec_.ports.getLsbD c.port), x.rec_.ports)
  | _, _ => (s, copies, 0)

/-- The next sequence number of a stream, for the function's ports. -/
def generate (h : Option Nat) (s : State) : State × Option (U32 × U16) :=
  match h.bind (fun n => s.esw.frerFor n 1) with
  | some (k, x) => (s.modEsw (fun e => { e with frer := e.frer.set k { x with next := x.next + 1 } }), some (x.rec_.ports, x.next))
  | none => (s, none)

/-- The frame with its copies requests its cells. -/
def takeIn (g : Ingress) (vid cls : Nat) (h : Option Nat) (f : EthFrame) (rivals : List Rival) (s : State) : State :=
  let r := s.route g.port vid f.dst
  let live := r.1.filter s.copyLive
  let gone := r.1.length - live.length
  let s := (List.range gone).foldl (fun s _ => s.modSwCount g.port (fun c => { c with drops := c.drops + 1 })) s
  let e := eliminate h f live s
  let n := generate h e.1
  let s := n.1
  if e.2.1.isEmpty then
    if r.1.isEmpty then dropAt g.port .noRoute g.tx (s.modEswStats (fun t => { t with noRoute := t.noRoute + 1 }))
    else if live.isEmpty then completeOpt g.tx { status := 1, reason := DropWhy.vzfReset.code, stamp := 0 } s
    else completeOpt g.tx { status := 0, reason := 0, stamp := 0 } s
  else
    let pcp := framePcp f
    let key := [g.port, f.dst.toNat, f.src.toNat, vid, pcp] ++ (match h with | some k => [k] | none => [])
    request { frame := f, vid := vid, len := g.len, cls := cls
              pot := g.pot.getD ((s.swp g.port).rec_.potMap.getD cls 0 % 64)
              plane := bit (Config.flowPlane key), cells := (g.len + 63) / 64, ingress := g.port, station := g.station
              protected_ := g.protected_, flooded := r.2, stamp := s.stampAt g.port f, tx := g.tx, copies := e.2.1.map (fun c => { c with left := (g.len + 63) / 64 })
              tagOut := n.2, stripOut := e.2.2 } rivals s

/-- A frame that its port has taken: ingress filtering, learning, policing, forwarding. -/
def switchFrame (g : Ingress) (f : EthFrame) (rivals : List Rival) (s : State) : State :=
  let r := (s.swp g.port).rec_
  let vid := frameVid r f
  let cls := g.cls.getD (frameClass r f)
  if 2000 < g.len then dropAt g.port .noRoute g.tx (s.modEswStats (fun t => { t with oversize := t.oversize + 1 }))
  else if vid = 0 ∨ 4094 < vid ∨ (r.inFilter && !(s.esw.vlans.getD .none vid).members.getLsbD g.port) then
    dropAt g.port .noRoute g.tx (s.modEswStats (fun t => { t with noRoute := t.noRoute + 1 }))
  else
    let s := if r.learn then s.modEsw (fun e => e.learn g.port g.station vid g.learnAs) else s
    let t := policeFrame g vid cls f s
    if !t.2.2 then dropAt g.port .qci g.tx (t.1.modEswStats (fun t => { t with qci := t.qci + 1 }))
    else takeIn g vid cls t.2.1 f rivals t.1

end Sys2Proof.Machine
end

