-- ==== Sys2Proof/Machine/EswRows.lean ====
section
/-! DEFINITION. Switch events: ingress and egress (R276, R285), lossless time-outs (R280), scrubbing (R281), audits (R283, R284),
links and PLCA (R269, R270), and the queue pairs' doorbells (R288, R289). -/

namespace Sys2Proof.Machine

/-- The IOMMU refuses an access of a VZF: counted, the event at most once a second (R391). -/
def iommuFault (v : Nat) (s : State) : State :=
  let z := s.vzf v
  let quiet := z.iommuFaultAt.any (fun a => decide (s.now < a + Config.ticksPerSecond))
  let s := { s with vz := s.vz.modify v (fun z => { z with
    iommuFaults := z.iommuFaults + 1, iommuFaultAt := if quiet then z.iommuFaultAt else some s.now }) }
  if quiet then s else raise evt_vzfIommuFault v (.owned (some v)) [] s

/-! ### Start -/

/-- The switch starts from its section (R271, R274, R275). -/
def eswStart (s : State) : State :=
  let c := s.cfg.image.esw
  let port := fun (p : Nat) =>
    let pl := c.plca.getD .default p
    { EswPort.reset with rec_ := c.ports.getD .default p, plca := pl, plcaAct := isS p && pl.en, link := decide (p = 0) || decide (17 ≤ p) }
  let coord := fun (x : EswState) => { x with ports := ⟨(List.range 21).map (fun p => (p, port p))⟩ }
  s.modEsw (fun _ => coord { EswState.reset with
    on := true, nBank := c.nBank, macI3 := c.macI3, domains := c.domains,
    pots := ⟨(List.range 64).map (fun k => (k, { Pot.reset with rec_ := c.pots.getD .default k }))⟩
    vlans := c.vlans, fdb := c.fdb, shapers := c.shapers, gates := c.gates, streamGates := c.streamGates, filters := c.filters, meters := c.meters
    frer := c.frer, free := bankCells * c.nBank, tAud := c.tAud, reclaim := c.reclaim, auditAt := s.now })

/-- The switch stops with its domains. -/
def eswStop (s : State) : State := s.modEsw (fun _ => .reset)

def State.eswOn (s : State) : Bool := s.esw.on && s.sys.mode.isServing

/-! ### Ingress -/

/-- The frame that the signal exchange sends next on I3 (R354). -/
def State.i3Frame (s : State) : Option EthFrame :=
  s.sig.i3Out.head?.map (fun x =>
    { dst := x.mac, src := s.esw.macI3, tci := some (BitVec.ofNat 16 (x.pcp % 8 * 8192 + x.vid % 4096)), rtag := none,
      etype := 0x88B6, data := x.payload })

/-- The queue after its first record frame has left. -/
def takeI3 (s : State) : State := s.modSig (fun g => { g with i3Out := g.i3Out.tail })

/-- MACsec at a port (R269): whether the frame goes on; an MKPDU ends at the manager. -/
def macsecIn (p : Nat) (check : PortCheck) (s : State) : State × Bool :=
  let x := s.swp p
  let drop := fun (s : State) => s.modSwCount p (fun c => { c with macsec := c.macsec + 1 })
  match check with
  | .mka live => (if isP p && x.rec_.macsec then s.modSwp p (fun x => { x with macsecLive := x.macsecLive || live }) else s, false)
  | .plain => if x.rec_.macsec && isP p then (drop s, false) else (s, true)
  | .protected_ => if x.rec_.macsec && isP p && x.macsecLive then (s, true) else (drop s, false)
  | .icvFail => (drop s, false)

/-- A frame enters a switch port (R276). -/
def ingress (p : Nat) (check : PortCheck) (f : EthFrame) (station : Nat) (rivals : List Rival) (s : State) : State :=
  let s := s.modSwCount p (fun c => { c with rx := c.rx + 1, rxBytes := c.rxBytes + ethLen f })
  let m := macsecIn p check s
  if !m.2 then m.1
  else
    switchFrame { port := p, station := station, protected_ := decide (check = .protected_), pot := if p = 19 then some 0 else none,
                  cls := none, len := ethLen f, learnAs := f.src, tx := none } f rivals m.1

/-- A class that is held back takes no frame (R280). -/
def EswPort.holds (x : EswPort) (f : EthFrame) : Bool := x.held.getLsbD (frameClass x.rec_ f)

def frameIn (p : Nat) (check : PortCheck) (f : EthFrame) (station : Nat) (rivals : List Rival) (s : State) : State :=
  if !s.eswOn || !(s.swp p).rec_.en then s
  else if p = portI0 ∨ p = portI1 then s
  else if p = portI3 then
    match s.i3Frame with
    | some g => if (s.swp p).holds g then s else ingress p .plain g 255 rivals (takeI3 s)
    | none => s
  else if (s.swp p).holds f then s
  else ingress p check f (if p = portRg then station else 255) rivals s

def execFrameIngress (port : Fin 21) (check : PortCheck) (f : EthFrame) (station : Fin 32) (rivals : List Rival) (s : State) : Result :=
  .next (frameIn port.val check f station.val rivals s)

/-! ### Waiting requests -/

/-- No request of a port's class waits: its source is released (R280). -/
def releaseHeld (p t : Nat) (s : State) : State :=
  if s.esw.waiting.any (fun x => decide (x.ingress = p) && decide (x.cls = t)) then s
  else s.modSwp p (fun x => { x with held := x.held &&& ~~~ BitVec.ofNat 8 (2 ^ t) })

/-- A lossless request that waited 1 µs is dropped, and the port resumes (R280). -/
def losslessOut (p t : Nat) (s : State) : State :=
  match s.esw.waiting.find? (fun x => decide (x.ingress = p) && decide (x.cls = t)) with
  | some x => releaseHeld p t (potDrop x .lossless (s.modEsw (fun e => { e with waiting := e.waiting.erase x })))
  | none => s

def execLosslessTimeout (port : Fin 21) (cls : Fin 8) (s : State) : Result := .next (losslessOut port.val cls.val s)

/-- The waiting request that wins the next cells: the highest class, then the pointer (R279). -/
def nextWaiting (s : State) : Option Stored :=
  s.esw.waiting.foldl (fun b x => match b with
    | none => some x
    | some y => if beats s.esw.pointer (x.ingress, x.cls) (y.ingress, y.cls) then some x else some y) none

/-- A scrubber clears one cell of its plane, and a waiting request takes its cells as soon as it can (R280, R281). -/
def cellScrubbed (plane : Nat) (s : State) : State :=
  let s := s.modEsw (fun e =>
    if plane = 0 then (if e.scrub0 = 0 then e else { e with scrub0 := e.scrub0 - 1, free := e.free + 1 })
    else (if e.scrub1 = 0 then e else { e with scrub1 := e.scrub1 - 1, free := e.free + 1 }))
  match nextWaiting s with
  | some x =>
    if s.grant x [] = .granted then
      releaseHeld x.ingress x.cls (storeFrame x (s.modEsw (fun e => { e with
        waiting := e.waiting.erase x, pointer := (x.ingress + 1) % 21 })))
    else s
  | none => s

def execCellScrubbed (plane : Fin 2) (s : State) : Result := .next (cellScrubbed plane.val s)

/-! ### The crossbar (R277) -/

/-- A request of an ingress port for an egress port, with the class of the cell at the head of its virtual output queue. -/
structure Xfer where
  ingress : Nat
  egress : Nat
  cls : Nat
  deriving DecidableEq, Repr

/-- The copy waits at its ingress port, in the virtual output queue of egress port, class and plane. -/
def EgressCopy.waits (c : EgressCopy) (p : Nat) : Bool := decide (c.port = p) && decide (c.left ≠ 0)

/-- The virtual output queue of `plane` that the transfer names: frames in order of arrival. -/
def EswState.voq (e : EswState) (plane : Nat) (r : Xfer) : List Stored :=
  e.stored.filter (fun x => decide (x.plane = plane) && decide (x.ingress = r.ingress) && decide (x.cls = r.cls) && x.copies.any (·.waits r.egress))

/-- Step 1: each ingress port requests every egress port for which it holds a cell on the plane. -/
def EswState.requests (e : EswState) (plane : Nat) : List Xfer :=
  ((e.stored.filter (fun x => decide (x.plane = plane))).flatMap (fun x =>
    (x.copies.filter (fun c => decide (c.left ≠ 0))).map (fun c => { ingress := x.ingress, egress := c.port, cls := x.cls : Xfer }))).eraseDups

/-- The highest class, then the port at or next after the pointer. -/
def roundRobin (port : Xfer → Nat) (ptr : Nat) (l : List Xfer) : Option Xfer :=
  let rank := fun r => 21 * r.cls + 20 - (port r + 21 - ptr % 21) % 21
  l.foldl (fun b r => match b with
    | some y => if rank y < rank r then some r else b
    | none => some r) none

/-- Steps 2 and 3: each egress port grants one request, and each ingress port accepts one grant. -/
def EswState.matchOnce (e : EswState) (plane : Nat) (l : List Xfer) : List Xfer :=
  let grants := (l.map (·.egress)).eraseDups.filterMap (fun o =>
    roundRobin (·.ingress) (e.grantPtr.getD 0 (21 * plane + o)) (l.filter (fun r => decide (r.egress = o))))
  (grants.map (·.ingress)).eraseDups.filterMap (fun i =>
    roundRobin (·.egress) (e.acceptPtr.getD 0 (21 * plane + i)) (grants.filter (fun r => decide (r.ingress = i))))

/-- The requests among ports that a match leaves free. -/
def unmatched (m l : List Xfer) : List Xfer :=
  l.filter (fun r => m.all (fun x => decide (x.ingress ≠ r.ingress) && decide (x.egress ≠ r.egress)))

/-- A cell of the frame at the head of the queue crosses; with its last cell a copy is at its egress port. -/
def EswState.moveCell (e : EswState) (plane : Nat) (r : Xfer) : EswState :=
  match e.voq plane r with
  | [] => e
  | x :: _ =>
    let y := { x with copies := x.copies.map (fun c =>
      if c.waits r.egress then { c with left := c.left - 1, order := if c.left = 1 then e.crossed + 1 else c.order } else c) }
    { e with stored := e.stored.replace x y, crossed := e.crossed + 1 }

/-- One cell time of a plane: three rounds among the ports left unmatched; the pointers pass the matches of the first round. -/
def EswState.cellTime (e : EswState) (plane : Nat) : EswState :=
  let l := e.requests plane
  let a := e.matchOnce plane l
  let b := e.matchOnce plane (unmatched a l)
  let c := e.matchOnce plane (unmatched (a ++ b) l)
  let e := a.foldl (fun e r => { e with
    grantPtr := e.grantPtr.set (21 * plane + r.egress) ((r.ingress + 1) % 21)
    acceptPtr := e.acceptPtr.set (21 * plane + r.ingress) ((r.egress + 1) % 21) }) e
  (a ++ b ++ c).foldl (fun e r => e.moveCell plane r) e

/-- Cell times until nothing waits at the ingress ports, at most `n`. -/
def EswState.cross : Nat → EswState → EswState
  | 0, e => e
  | n + 1, e =>
    if (e.requests 0).isEmpty && (e.requests 1).isEmpty then e else EswState.cross n ((e.cellTime 0).cellTime 1)

/-- Cells that wait at the ingress ports. -/
def EswState.cellsLeft (e : EswState) : Nat := (e.stored.flatMap (fun x => x.copies.map (·.left))).foldl (· + ·) 0

/-- The planes move every cell that waits: a cell time is 6.67 ns and no command of the table is shorter, so what an egress port chooses
from has crossed (DESIGN CHOICE, log entry 140). -/
def crossbar (s : State) : State := s.modEsw (fun e => EswState.cross e.cellsLeft e)

/-! ### Egress -/

/-- The first copy of a stored frame leaves by port `p`: descriptors and, with the last copy, the cells are freed (R276). -/
def dropCopy (x : Stored) (c : EgressCopy) (s : State) : State :=
  let y := { x with copies := x.copies.erase c }
  let last := y.copies.isEmpty
  let s := s.modPot x.pot (fun t => { t with desc := t.desc - 1, used := if last then t.used - x.cells else t.used })
  s.modEsw (fun e =>
    let e := { e with descFree := e.descFree + 1,
                      stored := if last then e.stored.erase x else e.stored.map (fun z => if z = x then y else z) }
    if last then e.scrub x.plane x.cells else e)

/-- Owner of the subqueue (R285): the VZF of the frame's pot, 256 for the system. -/
def State.subqueue (s : State) (x : Stored) : Nat := if x.pot = 0 then 256 else (s.potOwner x.pot).getD 256

/-- A copy on I0 or I1 needs a receive entry (R289). -/
def QPair.rxRoom (q : QPair) : Bool := decide ((q.rxProd - q.rxCons).toNat < 2 ^ q.depthLog2)

def State.copyReady (s : State) (c : EgressCopy) : Bool :=
  if c.port = portI0 ∨ c.port = portI1 then
    match c.vzf with
    | some v => (List.range (s.vzf v).tpl.nQp).any (fun q => (s.qp v q).rxRoom)
    | none => true
  else true

/-- Into a queue in the order in which copies crossed; equal ones stay in order of arrival. -/
def enqueue (x : Stored × EgressCopy) : List (Stored × EgressCopy) → List (Stored × EgressCopy)
  | [] => [x]
  | y :: l => if x.2.order ≤ y.2.order then x :: y :: l else y :: enqueue x l

/-- The queue of a class on a port: frames that have crossed, with their copies, oldest first. -/
def State.queue (s : State) (p t : Nat) : List (Stored × EgressCopy) :=
  (s.esw.stored.filterMap (fun x =>
    if x.cls = t then (x.copies.find? (fun c => decide (c.port = p) && decide (c.left = 0) && s.copyReady c)).map (fun c => (x, c))
    else none)).foldr enqueue []

/-- Quantum of a subqueue (R285): weight × 64 bytes; the system's is 16. -/
def State.quantum (s : State) (o : Nat) : Nat := (if o = 256 then 16 else max 1 ((s.vzf o).weights.getD 0 16)) * 64

/-- The next subqueue in number order, cyclically. -/
def nextOwner (l : List Nat) (o : Nat) : Nat :=
  match (l.filter (fun x => decide (o < x))).foldl (fun a x => some (min x (a.getD x))) none with
  | some x => x
  | none => (l.foldl (fun a x => some (min x (a.getD x))) none).getD 0

/-- Deficit round robin (R238, R285) over the heads of the subqueues: serve the current subqueue while its deficit covers its
head. -/
def drrPick {α : Type} (size : α → Nat) : Nat → (Nat → Nat) → List (Nat × α) → Drr → Option (α × Drr)
  | 0, _, _, _ => none
  | n + 1, quantum, heads, d =>
    let o := d.cur.getD 0
    match heads.find? (fun h => decide (some h.1 = d.cur)) with
    | some h =>
      if size h.2 ≤ d.deficit.getD 0 o then
        some (h.2, { d with deficit := d.deficit.set o (d.deficit.getD 0 o - size h.2) })
      else
        let m := nextOwner (heads.map (·.1)) o
        drrPick size n quantum heads { d with cur := some m, deficit := d.deficit.set m (d.deficit.getD 0 m + quantum m) }
    | none =>
      let m := match d.cur with
        | some c => nextOwner (heads.map (·.1)) c
        | none => nextOwner (heads.map (·.1)) 0
      let e := match d.cur with
        | some c => d.deficit.erase c
        | none => d.deficit
      drrPick size n quantum heads { cur := some m, deficit := e.set m (e.getD 0 m + quantum m) }

/-- The heads of the subqueues of a class. -/
def State.heads (s : State) (p t : Nat) : List (Nat × Stored × EgressCopy) :=
  (s.queue p t).foldl (fun a x =>
    if a.any (fun h => decide (h.1 = s.subqueue x.1)) then a else a ++ [(s.subqueue x.1, x)]) []

/-- View time of the port in ns. -/
def State.portNs (s : State) (p : Nat) : Nat := ((s.view (s.swp p).rec_.tsView).unitsAt s.now / 65536).toNat

/-- Time on the wire in ns, with preamble and gap. -/
def wireNs (p len : Nat) : Nat := (len + 20) * 8 * 1000000 / rateKbps p

/-- How long the gate of class `t` stays open from the end of the entry in force, through `n` further entries; none when it
never closes. -/
def openFor (t : Nat) (l : List (Nat × Byte)) : Nat → Nat → Nat → Option Nat
  | 0, _, _ => none
  | n + 1, i, ends =>
    match l.getD (i % max 1 l.length) (0, 0xFF) with
    | (d, st) => if st.getLsbD t then openFor t l n (i + 1) (ends + d) else some ends

/-- The frame ends before its gate closes (R285). -/
def Gates.fits (g : Gates) (t now ns : Nat) : Bool :=
  match g.oper with
  | none => true
  | some l =>
    g.states.getLsbD t && (match openFor t l.entries l.entries.length (g.index + 1) g.ends with
                           | some e => decide (now + ns ≤ e)
                           | none => true)

/-- A shaped class is eligible while its credit is at least 0 (R285). -/
def State.creditOk (s : State) (p t : Nat) : Bool :=
  match s.esw.shapers.get? (8 * p + t) with
  | some h => decide (0 ≤ h.now s.now)
  | none => true

def spendCredit (p t len : Nat) (s : State) : State :=
  match s.esw.shapers.get? (8 * p + t) with
  | some h =>
    let ticks := (len + 20) * 8 * 600000 / rateKbps p
    let g : Shaper := { h with credit := h.now s.now - (((rateKbps p - h.slope) * ticks : Nat) : Int), last := s.now + ticks }
    s.modEsw (fun e => { e with shapers := e.shapers.set (8 * p + t) g })
  | none => s

/-- The choice of an egress port from class `t` downwards (R285). -/
def chooseClass (p : Nat) (s : State) : Nat → Option (Nat × (Stored × EgressCopy) × Drr)
  | 0 => none
  | t + 1 =>
    let heads := s.heads p t
    match (if heads.isEmpty || !s.creditOk p t then none
           else drrPick (fun x => x.1.len) (34 * heads.length + 2) s.quantum heads (s.esw.drr.getD .reset (8 * p + t))) with
    | some (x, d) => if (s.esw.gates.getD .open_ p).fits t (s.portNs p) (wireNs p x.1.len) then some (t, x, d) else chooseClass p s t
    | none => chooseClass p s t

/-- The frame as it leaves on a port: R-TAG, VLAN tag (R268, R271). -/
def State.outFrame (s : State) (p : Nat) (x : Stored) : EthFrame :=
  let f := x.frame
  let f := if x.stripOut.getLsbD p then { f with rtag := none } else f
  let f := match x.tagOut with
    | some (m, n) => if m.getLsbD p then { f with rtag := some n } else f
    | none => f
  let tag := (f.tci.getD 0) &&& 0xF000
  { f with tci := if (s.esw.vlans.getD .none x.vid).untagged.getLsbD p then none else some (tag + BitVec.ofNat 16 x.vid) }

/-- The receive descriptor (Table 10.9). -/
def Stored.rxDone (x : Stored) (gen : U16) (pvid : Nat) : RxDone :=
  { len := x.len - 4, port := x.ingress
    flags := byteOf (x.cls + 8 * bit x.frame.tci.isSome + 16 * bit x.protected_ + 32 * bit x.flooded)
    tci := x.frame.tci.getD (BitVec.ofNat 16 pvid), gen := gen
    station := BitVec.ofNat 16 (if x.ingress = 0 then x.station else 0xFFFF), stamp := stampNs x.stamp, frac := stampFrac x.stamp
    frame := x.frame }

/-- The queue pair that takes a frame: which of the VZF's pairs with room is FREE. -/
def State.rxPair (s : State) (v : Nat) : Nat :=
  let l := (List.range (s.vzf v).tpl.nQp).filter (fun q => (s.qp v q).rxRoom)
  l.getD ((Config.free32 s.free).toNat % max 1 l.length) 0

def deliverRx (v : Nat) (x : Stored) (s : State) : State :=
  let q := s.rxPair v
  let d := x.rxDone (s.vzf v).gen (s.swp x.ingress).rec_.pvid
  ((s.modQp v q (fun y => { y with rx := y.rx.set y.rxProd.toNat d, rxProd := y.rxProd + 1 })).raiseSrc (some v) (4 + q)).draw

/-- An `ETH` ring frame towards the ring (R273): the secondary direction for `RG_BE` classes, else the dynamic segment. -/
def toRing (x : Stored) (c : EgressCopy) (f : EthFrame) (s : State) : State :=
  let be := (s.swp 0).rec_.rgBe.getLsbD x.cls
  let data := ethBytes f
  let drop := s.modSwCount 0 (fun c => { c with drops := c.drops + 1 })
  if (be && loopNamed s.ring.last.loopStns) || 1536 < data.length then drop
  else
    let r := s.frame 0 9 c.dst 0xFFFF (BitVec.ofNat 32 x.cls) 0 false data
    s.modRing (fun g => if be then { g with secOut := g.secOut ++ [r] } else { g with dynOut := g.dynOut ++ [(s.subqueue x, r)] })

/-- Time stamp and status of a sent frame's completion, and the frame with an inserted time (R287). -/
def stampOut (p : Nat) (x : Stored) (f : EthFrame) (s : State) : EthFrame × TxDone :=
  let u := s.stampAt p f
  match x.tx with
  | none => (f, { status := 0, reason := 0, stamp := 0 })
  | some r =>
    let st : U64 := if r.tsReq then stampNs u else 0
    if r.tsReq && r.oneStep then
      match isOneStepSync f with
      | some d =>
        if (s.gptpView d).isSome then (insertTime u f, { status := 0, reason := 0, stamp := st })
        else (f, { status := 4, reason := 0, stamp := st })
      | none => (f, { status := 0, reason := 0, stamp := st })
    else (f, { status := 0, reason := 0, stamp := st })

/-- The chosen copy leaves. -/
def sendCopy (p : Nat) (x : Stored) (c : EgressCopy) (s : State) : State :=
  let o := stampOut p x (s.outFrame p x) s
  let last := decide (x.copies.length ≤ 1)
  let s := spendCredit p x.cls x.len (dropCopy x c s)
  if isP p && (s.swp p).rec_.macsec && !(s.swp p).macsecLive then
    let s := s.modSwCount p (fun c => { c with macsec := c.macsec + 1 })
    if last then completeOpt x.tx { status := 1, reason := DropWhy.macsec.code, stamp := 0 } s else s
  else
    let s := s.modSwCount p (fun c => { c with tx := c.tx + 1, txBytes := c.txBytes + x.len })
    let s := s.modEsw (fun e => { e with out := keepNewest 16 ((p, s.portNs p, o.1) :: e.out) })
    let s := if p = portRg then toRing x c o.1 s
      else if p = portI0 ∨ p = portI1 then (match c.vzf with
                                             | some v => deliverRx v x s
                                             | none => s)
      else s
    if last then completeOpt x.tx o.2 s else s

/-- A frame that waits for a receive entry sets `RX_FULL` (R289). -/
def noteRxFull (p : Nat) (s : State) : State :=
  s.esw.stored.foldl (fun s x => x.copies.foldl (fun s c =>
    match c.vzf with
    | some v => if c.port = p && !s.copyReady c then s.modQp v 0 (fun q => { q with rxFull := true }) else s
    | none => s) s) s

/-- An egress port chooses and sends its next frame (R285). -/
def egress (p : Nat) (s : State) : State :=
  if !s.eswOn then s
  else
    let s := crossbar (if p = portI0 ∨ p = portI1 then noteRxFull p s else s)
    match chooseClass p s 8 with
    | some (t, x, d) => sendCopy p x.1 x.2 (s.modEsw (fun e => { e with drr := e.drr.set (8 * p + t) d }))
    | none => s

def execFrameEgress (port : Fin 21) (s : State) : Result := .next (egress port.val s)

/-! ### Episodes, gates, ageing, links -/

def execPotFullEpisodeEnd (pot : Fin 64) (s : State) : Result :=
  .next (if s.esw.on then s.modPot pot.val (fun t => { t with episode := false }) else s)

/-- View time in ns that a list starts at. -/
def Time.nsTotal (t : Time) : Nat := t.sec * 1000000000 + t.ns

/-- An interval ends: the admin list takes over at its base time, or the next entry's states take effect (R268, R285). -/
def Gates.next (g : Gates) (now : Nat) : Gates :=
  let first := fun (l : GateList) (start : Nat) => start + (l.entries.getD 0 (0, 0)).1
  match g.admin with
  | some l =>
    if l.base.nsTotal ≤ now then { oper := some l, admin := none, index := 0, ends := first l (max now l.base.nsTotal) }
    else match g.oper with
      | some o => { g with index := (g.index + 1) % max 1 o.entries.length,
                           ends := g.ends + (o.entries.getD ((g.index + 1) % max 1 o.entries.length) (0, 0)).1 }
      | none => g
  | none =>
    match g.oper with
    | some o => { g with index := (g.index + 1) % max 1 o.entries.length,
                         ends := g.ends + (o.entries.getD ((g.index + 1) % max 1 o.entries.length) (0, 0)).1 }
    | none => g

/-- View of a stream gate: that of its filters' port. -/
def State.gateNs (s : State) (i : Nat) : Nat :=
  match s.esw.filters.cells.find? (fun c => decide (c.2.rec_.gate.toNat = i)) with
  | some c => s.portNs c.2.rec_.port.toNat
  | none => s.portNs 0

def gateStep (stream : Bool) (i : Nat) (s : State) : State :=
  s.modEsw (fun e =>
    if stream then { e with streamGates := e.streamGates.modify .open_ i (fun g => g.next (s.gateNs i)) }
    else { e with gates := e.gates.modify .open_ i (fun g => g.next (s.portNs i)) })

def execGateListEntry (stream : Bool) (i : Fin 512) (s : State) : Result :=
  .next (if s.eswOn && (stream || decide (i.val < 21)) then gateStep stream i.val s else s)

def execFdbAgeing (mac : BitVec 48) (vid : BitVec 12) (s : State) : Result :=
  .next (s.modEsw (fun e => { e with fdb := e.fdb.filter (fun x => x.static_ || decide (x.mac ≠ mac) || decide (x.vid ≠ vid.toNat)) }))

/-- Link events of the P, Q and S ports (Table 10.11). A port without link has no live SAK. -/
def linkChange (p : Nat) (up : Bool) (s : State) : State :=
  if !s.eswOn || !(isP p || isQ p || isS p) || (s.swp p).link == up then s
  else raisePort (if up then evt_eswLinkUp else evt_eswLinkDown) p
    (s.modSwp p (fun x => { x with link := up, macsecLive := x.macsecLive && up }))

def execEswLinkChange (port : Fin 21) (up : Bool) (s : State) : Result := .next (linkChange port.val up s)

/-- R269: no live SAK 100 ms after link up. -/
def execPortMacsecTimeout (port : Fin 21) (s : State) : Result :=
  let x := s.swp port.val
  .next (if s.eswOn && isP port.val && x.rec_.macsec && x.link && !x.macsecLive then raisePort evt_eswMacsecFail port.val s else s)

def EswPort.follower (x : EswPort) : Bool := x.plca.en && decide (x.plca.node ≠ 0)

/-- A follower hears no beacon (R270): CSMA/CD, the event once per episode. -/
def execPlcaBeaconTimeout (port : Fin 21) (s : State) : Result :=
  let x := s.swp port.val
  .next (if s.eswOn && isS port.val && x.follower then
    let s := s.modSwp port.val (fun x => { x with plcaAct := false, plcaLost := true })
    if x.plcaLost then s else raise evt_eswPlcaLost noInst .wide [] s
  else s)

/-- The next beacon (R270). -/
def execPlcaBeaconReturn (port : Fin 21) (s : State) : Result :=
  let x := s.swp port.val
  .next (if s.eswOn && isS port.val && x.follower then s.modSwp port.val (fun x => { x with plcaAct := true, plcaLost := false }) else s)

/-- The latent error test of a recovery function (R292). -/
def execLatentErrorTest (fn : Fin 1024) (trip : Bool) (s : State) : Result :=
  .next (match s.esw.frer.get? fn.val with
    | some x => if x.rec_.kind = 2 && flagOf x.rec_.flags 1 && trip then raise evt_eswFrerLatent noInst .wide [] s else s
    | none => s)

/-! ### Audits -/

/-- Cells and descriptors of a snapshot that do not balance (R283), beside what the snapshot shows off. -/
def EswState.unbalanced (e : EswState) (cellsOff descsOff : Int) : Bool :=
  decide ((e.free + e.scrubbing + e.owned : Int) + cellsOff ≠ totalCells) || decide (descsOff ≠ 0)

/-- A consistent snapshot (R283): it restarts the period, and the comparison of its bitmaps begins (R284). -/
def audit (cellsOff descsOff : Int) (loose : List LooseCell) (s : State) : State :=
  let s := s.modEsw (fun e => { e with
    looseBefore := e.loose, loose := loose, comparing := true, auditAt := s.now
    stats := { e.stats with stalls := e.stats.stalls + bit (!e.waiting.isEmpty) } })
  if s.esw.unbalanced cellsOff descsOff then raise evt_eswBooks noInst .wide [] s else s

def execCellAudit (cellsOff descsOff : Int) (loose : List LooseCell) (s : State) : Result :=
  .next (if s.eswOn then audit cellsOff descsOff loose s else s)

/-- A leaked cell returns to the scrubbers, charged to its pot (R284). -/
def reclaimCell (c : LooseCell) (s : State) : State :=
  if (s.pot c.pot.val).used = 0 then s
  else (s.modPot c.pot.val (fun t => { t with used := t.used - 1, reclaimed := t.reclaimed + 1 })).modEsw (fun e =>
    { e.scrub 0 1 with reclaimed := e.reclaimed + 1 })

/-- Cells owned and unreferenced in two consecutive snapshots are leaks (R284). -/
def compareDone (s : State) : State :=
  if !s.esw.comparing then s
  else
    let leaks := s.esw.loose.filter (fun c => s.esw.looseBefore.contains c)
    let s := s.modEsw (fun e => { e with comparing := false, leaks := e.leaks + leaks.length })
    match leaks with
    | [] => s
    | c :: _ =>
      let s := raise evt_cellLeak noInst .wide (n32 leaks.length ++ n32 c.cell.val) s
      if s.esw.reclaim then
        (leaks.foldl (fun s c => reclaimCell c s) s).modEsw (fun e => { e with loose := e.loose.filter (fun c => !leaks.contains c) })
      else s

def execLeakCompareDone (s : State) : Result := .next (compareDone s)

/-- Every copy of a stored frame is dropped, and its cells pass to the scrubber. -/
def dropStored (x : Stored) (s : State) : State :=
  let s := s.modPot x.pot (fun t => { t with desc := t.desc - x.copies.length, used := t.used - x.cells })
  s.modEsw (fun e => { e.scrub x.plane x.cells with descFree := e.descFree + x.copies.length, stored := e.stored.erase x })

/-- One cell moves from the scrubbing list of a plane to the hold pot. -/
def EswState.retire (e : EswState) (plane : Nat) : EswState :=
  if plane = 0 then (if e.scrub0 = 0 then e else { e with scrub0 := e.scrub0 - 1, hold := e.hold + 1 })
  else (if e.scrub1 = 0 then e else { e with scrub1 := e.scrub1 - 1, hold := e.hold + 1 })

/-- An uncorrectable cell error (R284) drops the frame that holds the cell, if one does, and retires the cell to the hold pot. -/
def cellEcc (cell : Nat) (frame : Option Nat) (s : State) : State :=
  let s := match frame.bind (fun i => s.esw.stored[i]?) with
    | some x => dropAt x.ingress .noRoute x.tx ((dropStored x s).modEsw (fun e => e.retire x.plane))
    | none => s.modEsw (fun e => if e.free = 0 then e else { e with free := e.free - 1, hold := e.hold + 1 })
  raise evt_eswCellEcc noInst .wide (n32 cell) s

def execCellEccError (cell : Fin 262144) (frame : Option Nat) (s : State) : Result :=
  .next (if s.eswOn && decide (cell.val < bankCells * s.esw.nBank) then cellEcc cell.val frame s else s)

/-! ### Queue pairs -/

/-- An ignored access to a window counts in `FAULT_COUNT` (R89). -/
def countFault (v : Nat) (s : State) : State :=
  { s with mbx := { s.mbx with wins := s.mbx.wins.modify .reset v (fun h => { h with faultCount := satInc 0xFFFF h.faultCount }) } }

/-- A locally attached VZF's queue pair exists. -/
def State.hasPair (s : State) (v q : Nat) : Bool := (s.vzf v).exists_ && !(s.vzf v).tpl.attach && decide (q < (s.vzf v).tpl.nQp)

/-- The queue pair blocks of the window: mapped for every locally attached VZF; an absent pair reads `VALID` 0. -/
def State.pairBlock (s : State) (v : Nat) : Bool := (s.vzf v).exists_ && !(s.vzf v).tpl.attach

/-- Where a descriptor's frame goes in. -/
def State.txPort (s : State) (v : Nat) : Nat := if (s.vzf v).tpl.hostSaf then portI1 else portI0

/-- Why the switch refuses a descriptor (R289): length, class, translation. -/
def descRefused (d : TxDesc) (q : QPair) : Bool :=
  decide (d.length.toNat < 60) || decide (1996 < d.length.toNat) || !q.txTc.getLsbD (d.flags.extractLsb' 0 3).toNat || !d.mapped

/-- One transmit descriptor of entry `n` (R288 to R290). -/
def takeDesc (v q : Nat) (n : U16) (d : TxDesc) (rivals : List Rival) (s : State) : State :=
  let z := s.vzf v
  let ref : TxRef := { vzf := v, pair := q, entry := n.toNat, gen := z.gen, tsReq := flagOf d.flags 3, oneStep := flagOf d.flags 4 }
  let done := fun (st reason : Nat) (s : State) => completeTx ref { status := st, reason := reason, stamp := 0 } s
  if d.gen ≠ z.gen then done 3 0 s
  else if descRefused d (s.qp v q) then
    let s := s.modQp v q (fun x => { x with badDesc := true })
    done 2 0 (if d.mapped then s else iommuFault v s)
  else if !z.tpl.macs.contains d.frame.src then done 1 0 (s.modEswStats (fun t => { t with spoof := t.spoof + 1 }))
  else
    let f := if flagOf d.flags 5 then { d.frame with tci := some d.vlan } else d.frame
    let p := s.txPort v
    let len := d.length.toNat + 4 + (if flagOf d.flags 5 then 4 else 0)
    let s := s.modSwCount p (fun c => { c with rx := c.rx + 1, rxBytes := c.rxBytes + len })
    switchFrame { port := p, station := 255, protected_ := false, pot := some (s.qp v q).pot
                  cls := some (d.flags.extractLsb' 0 3).toNat, len := len, learnAs := z.tpl.macs.getD 0 0, tx := some ref } f rivals s

/-- Take descriptors until one's class is held back (R280). -/
def takeDescs (v q : Nat) (rivals : List Rival) : List TxDesc → U16 → State → State
  | [], _, s => s
  | d :: r, n, s =>
    if (s.swp (s.txPort v)).held.getLsbD (d.flags.extractLsb' 0 3).toNat then s.modQp v q (fun x => { x with waiting := d :: r })
    else takeDescs v q rivals r (n + 1) (takeDesc v q n d rivals s)

/-- The doorbell (R288): a producer more than the depth ahead of its consumer is ignored with `PROD_ERR`. -/
def txDoorbell (v q : Nat) (index : U16) (descs : List TxDesc) (rivals : List Rival) (s : State) : State :=
  let x := s.qp v q
  let count := (index - x.txProd).toNat
  if 2 ^ x.depthLog2 < (index - x.txCons).toNat then s.modQp v q (fun x => { x with prodErr := true })
  else
    let all := x.waiting ++ descs.take count
    let start := index - BitVec.ofNat 16 all.length
    takeDescs v q rivals all start (s.modQp v q (fun x => { x with txProd := index, waiting := [] }))

def execEswTxqProdWrite (v : Fin 256) (q : Fin 4) (index : U16) (descs : List TxDesc) (rivals : List Rival) (s : State) : Result :=
  .next (if !s.pairBlock v.val then windowFault v.val s
    else if !s.eswOn || !s.hasPair v.val q.val then s
    else if !s.vzfActive v.val then countFault v.val s
    else txDoorbell v.val q.val index descs rivals s)

/-- A consumer index beyond its producer is ignored with `CONS_ERR` (R88). -/
def rxConsume (v q : Nat) (index : U16) (s : State) : State :=
  let x := s.qp v q
  if (x.rxProd - x.rxCons).toNat < (index - x.rxCons).toNat then s.modQp v q (fun x => { x with consErr := true })
  else s.modQp v q (fun x => { x with
    rxCons := index, rx := ⟨x.rx.cells.filter (fun c => decide ((BitVec.ofNat 16 c.1 - index).toNat < 32768))⟩ })

def rxConsWrite (v q : Nat) (index : U16) (s : State) : State :=
  if !s.pairBlock v then windowFault v s
  else if !s.eswOn || !s.hasPair v q then s
  else if !s.vzfActive v then countFault v s
  else rxConsume v q index s

def execEswRxqConsWrite (v : Fin 256) (q : Fin 4) (index : U16) (s : State) : Result :=
  .next (rxConsWrite v.val q.val index s)

/-- Queue registers (Tables 10.6, 10.7). -/
def QPair.cfgWord (q : QPair) : U32 := wordOf [(1, 31), (q.depthLog2 % 16, 24), (q.pot % 256, 16), (q.txTc.toNat, 8)]
def QPair.statusWord (q : QPair) : U32 :=
  wordOf [(bit q.prodErr, 31), (bit q.consErr, 30), (bit q.rxFull, 29), (bit q.badDesc, 28), (min 0xFFFF q.rxDrop, 0)]
def QPair.clear (q : QPair) (w : U32) : QPair :=
  { q with prodErr := q.prodErr && !w.getLsbD 31, consErr := q.consErr && !w.getLsbD 30, rxFull := q.rxFull && !w.getLsbD 29,
           badDesc := q.badDesc && !w.getLsbD 28 }

/-! ### VZFs -/

/-- Queue pairs of a new VZF (R288): which of its pots a pair takes and where its area lies are the model's choice and FREE. -/
def openPairs (v : Nat) (s : State) : State :=
  let z := s.vzf v
  if z.tpl.attach then s
  else (List.range z.tpl.nQp).foldl (fun s q =>
    (s.modQp v q (fun _ => { QPair.reset with pot := z.tpl.pots.getD q (z.tpl.pots.getD 0 0),
                                              base := Config.free64 s.free &&& ~~~ 0xFFF })).draw) s

def closePairs (v : Nat) (s : State) : State :=
  s.modEsw (fun e => { e with qps := ⟨e.qps.cells.filter (fun c => decide (c.1 / 4 ≠ v))⟩ })

/-- Step 3 of a reset (R290): frames of the VZF's pots, from its queues or on their way to it are discarded, late completions
counted, ring areas and indices zeroed. -/
def eswResetVzf (v : Nat) (s : State) : State :=
  let pots := (s.vzf v).tpl.pots
  let mine := fun (x : Stored) => pots.contains x.pot || x.tx.any (fun r => decide (r.vzf = v))
  let s := s.esw.stored.foldl (fun s x =>
    if mine x then completeOpt x.tx { status := 1, reason := DropWhy.vzfReset.code, stamp := 0 } (dropStored x s)
    else
      let l := x.copies.filter (fun c => decide (c.vzf = some v))
      (l.foldl (fun (a : State × Stored) c => (dropCopy a.2 c a.1, { a.2 with copies := a.2.copies.erase c })) (s, x)).1) s
  let s := s.modEsw (fun e => { e with waiting := e.waiting.filter (fun x => !mine x) })
  let s := s.modEsw (fun e => { e with qps := e.qps.mapAll (fun k q =>
    if k / 4 = v then { q with txProd := 0, txCons := 0, rxProd := 0, rxCons := 0, waiting := [], done := .empty, rx := .empty } else q) })
  (List.range 8).foldl (fun s t => releaseHeld portI0 t (releaseHeld portI1 t s)) s

end Sys2Proof.Machine
end

