-- ==== Sys2Proof/Machine/Kdf.lean ====
section
/-! DEFINITION. Key derivation (R423) and the derived keys of the Canister (R424, Table 15.2). SHA-384 is the one primitive that stays
open (log entry 32); HMAC is that of FIPS 198 (PRESUMED, log entry 144). -/

namespace Sys2Proof.Machine

/-- A 32-bit number with its highest byte first, as SP 800-108 presents it. -/
def be32 (n : Nat) : List Byte := (n32 n).reverse

def ascii (t : String) : List Byte := t.toList.map (fun c => byteOf c.toNat)

/-- The key as HMAC takes it: one block of 128 bytes, each combined with `x`. -/
def hmacPad (key : List Byte) (x : Byte) : List Byte :=
  (((if 128 < key.length then Config.sha384 key else key) ++ zeros 128).take 128).map (fun b => b ^^^ x)

def hmac384 (key msg : List Byte) : List Byte := Config.sha384 (hmacPad key 0x5C ++ Config.sha384 (hmacPad key 0x36 ++ msg))

/-- Block `i` of a derivation. -/
def kdfBlock (key label context : List Byte) (bits i : Nat) : List Byte :=
  hmac384 key (be32 i ++ label ++ [0] ++ context ++ be32 bits)

/-- KDF(K, label, context, L): the first L bits of the blocks in order (R423). -/
def kdf (key : List Byte) (label : String) (context : List Byte) (bits : Nat) : List Byte :=
  ((List.range ((bits + 383) / 384)).flatMap (fun i => kdfBlock key (ascii label) context bits (i + 1))).take (bits / 8)

/-- The device branch. -/
def kDev : List Byte := kdf Config.root "zm9/dev" [] 384

/-- The measurement-bound branch (R425). -/
def State.kState (s : State) : List Byte := kdf Config.root "zm9/state" ((s.key.mrs.take 6).flatMap (fun m => m)) 384

/-- What a derived key is for (Table 15.2). -/
inductive KeyUse where
  | pufCheck
  | slotTags
  | deviceImages (cls : Nat)
  | identity (n : Nat)
  | sealed
  | appBoot
  | session (slot : List Byte) (boot : U32) (port session : Nat)
  | ringCak (slot : List Byte) (a b : Nat)
  | portCak (slot : List Byte) (p : Nat)
  | wrap (secret request : List Byte)
  deriving DecidableEq, Repr

/-- Label of identity key `n`: ECDSA, ECDH, ML-DSA-65 or ML-KEM-768; and the length of its seed. -/
def identityLabel : Nat → String × Nat
  | 0 => ("zm9/id/ecdsa", 448)
  | 1 => ("zm9/id/ecdh", 448)
  | 2 => ("zm9/id/mldsa", 256)
  | _ => ("zm9/id/mlkem", 512)

def macsecLabel (p : Nat) : String := "zm9/macsec/p" ++ (["0", "1", "2", "3", "4", "5", "6", "7"].getD p "0")

/-- The Canister derives the keys of Table 15.2 and no others. A key of the K_state branch waits for step 13 (R425). -/
def State.derive (s : State) : KeyUse → Option (List Byte)
  | .pufCheck => some (kdf Config.root "zm9/puf/check" [] 128)
  | .slotTags => some (kdf kDev "zm9/slot/cmac" [] 256)
  | .deviceImages cls => some (kdf kDev "zm9/img/device" [byteOf cls] 256)
  | .identity n => some (kdf kDev (identityLabel n).1 [] (identityLabel n).2)
  | .sealed => if s.key.kState then some (kdf s.kState "zm9/state/seal" [] 256) else none
  | .appBoot => if s.key.kState then some (kdf s.kState "zm9/state/app" [] 256) else none
  | .session slot boot port session => some (kdf slot "zm9/mbx/session" (le32 boot ++ n16 port ++ n32 session) 256)
  | .ringCak slot a b => some (kdf slot "zm9/macsec/ring" [byteOf (min a b), byteOf (max a b)] 256)
  | .portCak slot p => some (kdf slot (macsecLabel p) [] 256)
  | .wrap secret request => some (kdf secret "zm9/xfer" (request.take 144) 256)

/-- Content of a key slot that holds a key. -/
def State.slotKey (s : State) (n : Nat) : List Byte :=
  let x := s.key.slots.getD .empty n
  if x.state = .valid then x.content else []

/-- The first `n` bytes of public identity key `k`, which follows from its derived seed (Table 15.2). -/
def State.identityKey (s : State) (k n : Nat) : List Byte :=
  (List.range n).map (Config.publicKey k ((s.derive (.identity k)).getD []))

/-- The key of a mailbox session (R66). -/
def State.sessionKey (s : State) (slot port session : Nat) : List Byte :=
  (s.derive (.session (s.slotKey slot) s.sys.bootCount port session)).getD []

end Sys2Proof.Machine
end

