-- ==== Sys2Proof/Machine/Mbx.lean ====
section
/-! DEFINITION. The Gyvin mailbox: epochs (R68), control messages (R70), what a host message does to a port (R67 to R73, R508),
its timers, and the SYS commands that act on ports (R78, R85, R504). -/

namespace Sys2Proof.Machine

/-! ### Control messages and epochs -/

/-- The header of a control message (Table 3.4): its op, seq, ack, status and tag. -/
def Port.ctlMsg (p : Port) (op : CtlOp) : Sent :=
  let m := p.msg .ctl false 0 0 0 p.boot p.ctlWrap []
  let m := { m with ctlCount := p.ctlCount }
  match op with
  | .ack => { m with code := 1, seq := p.evtSeq }
  | .refuse seq status tag => { m with code := 2, seq := seq, status := status, tag := tag }
  | .epoch => { m with code := 3, seq := p.boot, ack := 0 }

/-- The control count of the next control message (R66); on a local port it stays 0 (R71). -/
def Port.countCtl (p : Port) : Port :=
  if p.kind = .loc then p
  else { p with ctlCount := p.ctlCount + 1, ctlWrap := p.ctlWrap + bit (decide (p.ctlCount + 1 = 0)) }

/-- A control message of the manager. -/
def Port.control (p : Port) (op : CtlOp) : Port :=
  let p := p.countCtl
  (p.note (p.ctlMsg op)).pushEvt (.ctl op)

def Port.ackMsg (p : Port) : Port := p.control .ack

/-- Tokens in the units of the bucket. -/
def tokenUnit : Nat := 600000000

/-- A port at the first instant of an epoch (R68, R77, R89): sequence spaces at 0, subscription of the template, empty rings
with the EPOCH message first, waiting for `SYS.RESYNC`. What waits for a ring frame is of the old epoch and leaves no more. -/
def Port.epoch (p : Port) (session cls : Nat) (mask : U32) : Port :=
  { p with
    awaits := true, reqSeq := 0, rspSeq := 0, evtSeq := 0, session := session, ctlCount := 0, rsps := [], evts := [],
    opens := [], linkStale := false, rtxStopped := false, lostSinceResync := false, subClass := cls, subMask := mask,
    part := none, lastResync := none, rspWrap := 0, evtWrap := 0, ctlWrap := 0, outq := [], rspQ := [], evtQ := [], reqProd := 0, reqCons := 0, rspProd := 0, rspCons := 0,
    evtProd := 0, evtCons := 0 }.control .epoch

/-- Subscription that the template, or R63 for port 0, sets at each epoch. -/
def State.portSub (s : State) (p : Port) : Nat × U32 :=
  match p.vzf with
  | some v => ((s.vzf v).tpl.subClass, (s.vzf v).tpl.subMask)
  | none => (2, 0xFFFFFFFF)

/-- The key of session `k` of port `n` (R66); a local port has none. -/
def State.portKey (s : State) (p : Port) (n k : Nat) : List Byte := if p.kind = .loc then [] else s.sessionKey p.keySlot n k

/-- A new epoch of port `n` begins, with the next session of that number (R66, R68). -/
def portEpoch (n : Nat) (s : State) : State :=
  match s.port? n with
  | none => s
  | some p =>
    let k := s.mbx.sessions.getD 0 n + 1
    let sub := s.portSub p
    let p := { p with num := n, key := s.portKey p n k, boot := s.sys.bootCount, clock := s.wireStamp
                      gen := (p.vzf.map (fun v => (s.vzf v).gen)).getD 0 }
    let s := { s with mbx := { s.mbx with sessions := s.mbx.sessions.set n k, ports := s.mbx.ports.set n (p.epoch k sub.1 sub.2) } }
    if p.kind = .loc then s.raiseSrc p.vzf p.block else s

/-- The DRAM address of a local port's ring area: the spec gives its alignment alone, so it is a FREE value (R87; log entry 71). -/
def State.ringArea (s : State) : U64 := Config.free64 s.free &&& 0xFFFFFFFFFFFFF000

/-- Open port `n` of a VZF (R61): window, rate, privilege and key slot of its template (R66, R69, R81). -/
def openPort (v : Nat) (t : Template) (kind : PortKind) (block n : Nat) (s : State) : State :=
  let w := if kind = .loc then min t.window (2 ^ t.depthLog2) else t.window
  let p : Port := { Port.service with
    kind := kind, vzf := some v, block := block, sysPriv := t.sysPriv, window := w, tRtx := 1000 * t.tRtx, keySlot := t.rportKey,
    base := if kind = .loc then s.ringArea else 0, rate := t.rate,
    burst := t.burst, tokens := t.burst * tokenUnit, tokAt := s.now, depthLog2 := t.depthLog2 }
  let s := if kind = .loc then s.draw else s
  portEpoch n { s with mbx := { s.mbx with ports := s.mbx.ports.set n p } }

/-- Port 0 opens in a new epoch, with its t_RTX in ms and its key slot (R61, R63, R68). -/
def openService (rtx slot : Nat) (s : State) : State :=
  let p := { Port.service with tRtx := 1000 * rtx, keySlot := slot, tokAt := s.now }
  portEpoch 0 { s with mbx := { s.mbx with ports := s.mbx.ports.set 0 p } }

/-! ### Acknowledgement -/

/-- Acknowledge responses up to `a` (R67). -/
def Port.ackRsp (p : Port) (a : U32) : Port :=
  let n := ringFill p.rspProd p.rspCons
  { p with rsps := p.rsps.filter (fun h => later h.seq a), rspQ := p.rspQ.take n ++ (p.rspQ.drop n).filter (fun q => later q a) }

def EvtEntry.after (a : U32) : EvtEntry → Bool
  | .evt q => later q a
  | .ctl _ => true

/-- Acknowledge events up to `a` (R67). -/
def Port.ackEvt (p : Port) (a : U32) : Port :=
  let n := ringFill p.evtProd p.evtCons
  { p with evts := p.evts.filter (fun h => later h.seq a), evtQ := p.evtQ.take n ++ (p.evtQ.drop n).filter (EvtEntry.after a) }

/-- An ack later than the last number sent acknowledges nothing: it is counted and answered with an ACK (R67). -/
def Port.badAck (p : Port) : Port := { p with stats := { p.stats with badAck := p.stats.badAck + 1 } }.ackMsg

def Port.takeRspAck (p : Port) (a : U32) : Port := if later a p.rspSeq then p.badAck else p.ackRsp a

/-- A control ACK carries both acks; one bad field makes one ACK. -/
def Port.takeAcks (p : Port) (evt rsp : U32) : Port :=
  let bad := later rsp p.rspSeq || later evt p.evtSeq
  let p := if later rsp p.rspSeq then p else p.ackRsp rsp
  let p := if later evt p.evtSeq then p else p.ackEvt evt
  if bad then p.badAck else p

/-- Retransmission resumes on the next intact message: every item still held, one that `SYS.RESYNC` has stopped included, starts on a fresh
count of 8 (R73). -/
def Port.resume (p : Port) : Port :=
  if p.rtxStopped then
    { p with rtxStopped := false, rsps := p.rsps.map (fun h => { h with retries := 0 }), evts := p.evts.map (fun h => { h with retries := 0 }) }
  else p

/-- What every intact message of the host does first (R67, R73): a control ACK carries both acks, a request that of the responses. -/
def Port.heed (p : Port) (m : HostMsg) : Port := (if m.control then p.takeAcks m.seq m.ack else p.takeRspAck m.ack).resume

/-! ### Requests -/

/-- The bucket as of tick `now`. -/
def Port.refill (p : Port) (now : Nat) : Port :=
  { p with tokens := min (p.burst * tokenUnit) (p.tokens + (now - p.tokAt) * p.rate), tokAt := now }

/-- Requests whose responses the host has not yet acknowledged (R69). -/
def Port.unanswered (p : Port) : Nat := (p.opens.filter (fun o => !o.pending)).length + p.rsps.length

/-- Completions that the port owes (R74). -/
def Port.owed (p : Port) : Nat := (p.opens.filter (·.pending)).length + (p.evts.filter (·.completion)).length

/-- The window is full, or the response ring has no room (R69, R88). A port owes at most W completions (R74): a request that finds W of them
owed is refused as one that finds the window full (DESIGN CHOICE, log entry 127). -/
def Port.full (p : Port) : Bool :=
  decide (p.window ≤ p.unanswered) || decide (p.window ≤ p.owed)
    || (decide (p.kind = .loc) && decide (p.depth ≤ (p.opens.filter (fun o => !o.pending)).length + p.rspQ.length))

/-- What becomes of an intact request (R70, R508). -/
inductive Verdict where
  | refuse (status : U16)
  | ack
  | resend (rsp : U32)
  | accept
  deriving DecidableEq, Repr

/-- The bound VZF is quiescing, resetting or being destroyed. -/
def State.vzfQuiet (s : State) (v : Option Nat) : Bool :=
  match v with
  | some n => decide ((s.vzf n).life ≠ .active)
  | none => false

/-- Checks 2 to 5 of R508, which `SYS.RESYNC` skips. -/
def State.middleChecks (s : State) (p : Port) (m : HostMsg) : Option Verdict :=
  if p.vzf.any (fun v => decide ((s.vzf v).gen ≠ m.gen)) then some (.refuse stat_staleGen)
  else if p.awaits then some (.refuse stat_resyncRequired)
  else if later m.seq (p.reqSeq + 1) then some .ack
  else if m.seq ≠ p.reqSeq + 1 then
    some (match p.rsps.find? (fun h => h.reqSeq == m.seq && h.code != 0x0101) with
          | some h => .resend h.seq
          | none => .ack)
  else if p.full then some (.refuse stat_busy)
  else none

/-- The checks of R508 in their order, on a port whose bucket is up to date. -/
def State.verdict (s : State) (p : Port) (m : HostMsg) : Verdict :=
  let tokens := if p.tokens < tokenUnit then Verdict.refuse stat_rateLimited else .accept
  if s.vzfQuiet p.vzf then .refuse stat_aborted
  else if m.code = 0x0101 then tokens
  else (s.middleChecks p m).getD tokens

def Port.countRtx (p : Port) : Port := { p with stats := { p.stats with retransmitted := p.stats.retransmitted + 1 } }

/-- Send a held response again with `RETX` (R70, R78). -/
def Port.resendRsp (p : Port) (seq : U32) : Port :=
  match p.rsps.find? (fun h => h.seq == seq) with
  | some h => (p.countRtx.note (p.rspMsg h true)).pushRsp seq
  | none => p

def Port.resendEvt (p : Port) (seq : U32) : Port :=
  match p.evts.find? (fun h => h.seq == seq) with
  | some h => (p.countRtx.note (p.evtMsg h true)).pushEvt (.evt seq)
  | none => p

/-- An accepted request takes a token and its REQ_SEQ, and is open (R69, R508); `SYS.RESYNC` takes the token alone. -/
def Port.accept (p : Port) (m : HostMsg) : Port :=
  let p := { p with tokens := p.tokens - tokenUnit, stats := { p.stats with accepted := p.stats.accepted + 1 } }
  if m.code = 0x0101 then p
  else { p with reqSeq := m.seq,
                opens := p.opens ++ [{ reqSeq := m.seq, tag := m.tag, code := m.code, pending := false, rspSeq := 0 }] }

def Port.judge (p : Port) (m : HostMsg) : Verdict → Port
  | .refuse st =>
    let limited := decide (st = stat_rateLimited)
    { p with stats := { p.stats with refused := p.stats.refused + 1, rateLimited := p.stats.rateLimited + bit limited } }.control
      (.refuse m.seq st m.tag)
  | .ack => { p with stats := { p.stats with discarded := p.stats.discarded + 1 } }.ackMsg
  | .resend q => p.resendRsp q
  | .accept => p.accept m

/-- An intact message (R67, R70, R73, R508): its acks first, then the request. An accepted request is then carried out by
the row of its command. -/
def takeIntact (n : Nat) (m : HostMsg) (s : State) : State :=
  match s.port? n with
  | none => s
  | some p =>
    if m.control then s.modPort n (fun p => p.heed m)
    else
      let v := s.verdict ((p.heed m).refill s.now) m
      s.modPort n (fun p => ((p.heed m).refill s.now).judge m v)

/-- A message that fails magic or CRC is discarded and counted (R71). -/
def countDiscard (n : Nat) (s : State) : State :=
  s.modPort n (fun p => { p with stats := { p.stats with discarded := p.stats.discarded + 1 } })

/-- A GMAC failure raises `EVT_MBX_AUTH_FAIL` at most once a second per port (R71). -/
def authFail (n : Nat) (s : State) : State :=
  let s := countDiscard n s
  match s.port? n with
  | none => s
  | some p =>
    if p.authFailAt.any (fun a => decide (s.now < a + Config.ticksPerSecond)) then s
    else raise evt_mbxAuthFail n (.owned p.vzf) [] (s.modPort n (fun p => { p with authFailAt := some s.now }))

/-- A message under the previous session's key: a repeated `SYS.RESYNC` within 1 s is answered by the same response (R78);
anything else fails its GMAC. -/
def takeOldKey (n : Nat) (m : HostMsg) (s : State) : State :=
  match s.port? n with
  | none => s
  | some p =>
    match p.lastResync with
    | some (tag, at_, rsp) =>
      if !m.control && decide (m.code = 0x0101) && decide (m.tag = tag) && decide (s.now ≤ at_ + Config.ticksPerSecond) then
        s.modPort n (fun p => (p.heed m).resendRsp rsp)
      else authFail n s
    | none => authFail n s

/-- A whole message on a port (R71); local ports carry no GMAC. -/
def takeMsg (n : Nat) (m : HostMsg) (c : MsgCheck) (s : State) : State :=
  match s.port? n with
  | none => s
  | some p =>
    if c = .bad then countDiscard n s
    else if p.kind = .loc then takeIntact n m s
    else if c = .authFail then authFail n s
    else if m.oldKey then takeOldKey n m s
    else takeIntact n m s

/-! ### Fragments -/

/-- A message is whole when its last fragment and all before it are there. -/
def Partial.whole (x : Partial) : Bool :=
  match x.total with
  | some t => (List.range t).all (fun i => x.seen.contains i)
  | none => false

/-- The partial message with one more fragment; a fragment of another message starts over. -/
def Port.addFragment (p : Port) (f : Fragment) : Partial :=
  let old : Partial := match p.part with
    | some x => if x.reqSeq = f.msg.seq then x else { reqSeq := f.msg.seq, total := none, seen := [] }
    | none => { reqSeq := f.msg.seq, total := none, seen := [] }
  { old with total := if f.last then some (f.number.toNat + 1) else old.total, seen := f.number.toNat :: old.seen }

/-- In Basecamp the first port with a valid request serves the session; while CAN0 serves it, port 0 answers `ST_BUSY` (R449). -/
def takeServed (n : Nat) (f : Fragment) (s : State) : State :=
  if s.sys.mode = .basecamp && !f.msg.control && decide (f.check = .intact) then
    if s.uds.serving = some .can0 then
      s.modPort n (fun p => (p.heed f.msg).judge f.msg (.refuse stat_busy))
    else takeMsg n f.msg f.check { s with uds := { s.uds with serving := some .ring } }
  else takeMsg n f.msg f.check s

/-- In Basecamp the ROM serves nothing on the ring before a `SYNC_REF`, nor without a record of a start that reached Run (R63, R261). -/
def State.ringServes (s : State) : Bool := decide (s.sys.mode ≠ .basecamp) || (s.ring.heard && s.ring.recorded.isSome)

/-- A fragment on a ring or service port (R66). -/
def takeFragment (n : Nat) (f : Fragment) (s : State) : State :=
  match s.port? n with
  | none => s
  | some p =>
    if p.kind = .loc || !s.ringServes then s
    else
      let x := p.addFragment f
      if x.whole then takeServed n f (s.modPort n (fun p => { p with part := none }))
      else s.modPort n (fun p => { p with part := some x })

def execMbxFragmentReceived (port : Fin 512) (f : Fragment) (s : State) : Result := .next (takeFragment port.val f s)

/-- A partly received message is discarded after 4 ring cycles (R66). -/
def execMbxReassemblyTimeout (port : Fin 512) (s : State) : Result :=
  .next (s.modPort port.val (fun p => { p with part := none }))

/-! ### Local rings -/

/-- Local port `block` of VZF `v`. -/
def State.localPort (s : State) (v block : Nat) : Option Nat :=
  (s.mbx.ports.cells.find? (fun c => decide (c.2.kind = .loc) && decide (c.2.vzf = some v) && decide (c.2.block = block))).map (·.1)

/-- An index write while `QUIESCE` is set is ignored and counted in `FAULT_COUNT` (R89). -/
def countIgnored (v : Nat) (s : State) : State :=
  let w := s.mbx.wins.getD .reset v
  { s with mbx := { s.mbx with wins := s.mbx.wins.set v { w with faultCount := satInc 0xFFFF w.faultCount } } }

/-- The doorbell of a local port (R88): a producer more than depth ahead sets `PROD_ERR`; else the manager takes the new
messages. A transfer that the IOMMU refuses is dropped (R391). -/
def doorbellReq (v n : Nat) (index : U16) (msgs : List (HostMsg × MsgCheck)) (fault : Bool) (s : State) : State :=
  match s.port? n with
  | none => s
  | some p =>
    let k := ringFill index p.reqCons
    if p.depth < k then s.modPort n (fun p => { p with prodErr := true })
    else
      let s := s.modPort n (fun p => { p with reqProd := index, reqCons := index })
      if fault then iommuFault v s else (msgs.take k).foldl (fun s m => takeMsg n m.1 m.2 s) s

/-- An index write to a port block that holds no port: the block of an existing VZF reads `VALID` 0 and ignores writes. -/
def absentPort (v : Nat) (s : State) : State := if (s.vzf v).exists_ then s else windowFault v s

def execVzfMbxReqProd (v : Fin 256) (block : Fin 4) (index : U16) (msgs : List (HostMsg × MsgCheck)) (fault : Bool) (s : State) :
    Result :=
  .next (match s.localPort v.val block.val with
         | none => absentPort v.val s
         | some n => if s.vzfQuiet (some v.val) then countIgnored v.val s else doorbellReq v.val n index msgs fault s)

/-- Events in the first `k` ring entries. -/
def evtSeqs (l : List EvtEntry) : List U32 := l.filterMap (fun e => match e with
  | .evt q => some q
  | .ctl _ => none)

/-- A consumer index moves on (R88): the entries it passes are acknowledged, and waiting ones take their room. -/
def Port.consume (p : Port) (evt : Bool) (index : U16) : Port :=
  if evt then
    let k := ringFill index p.evtCons
    if ringFill p.evtProd p.evtCons < k then { p with consErr := true }
    else
      let gone := evtSeqs (p.evtQ.take k)
      { p with evtCons := index, evtQ := p.evtQ.drop k, evts := p.evts.filter (fun h => !gone.contains h.seq) }.place
  else
    let k := ringFill index p.rspCons
    if ringFill p.rspProd p.rspCons < k then { p with consErr := true }
    else
      let gone := p.rspQ.take k
      { p with rspCons := index, rspQ := p.rspQ.drop k, rsps := p.rsps.filter (fun h => !gone.contains h.seq) }.place

def consumerWrite (v block : Nat) (evt : Bool) (index : U16) (s : State) : State :=
  match s.localPort v block with
  | none => absentPort v s
  | some n => if s.vzfQuiet (some v) then countIgnored v s else s.modPort n (fun p => p.consume evt index)

def execMbxConsumerIndexWrite (v : Fin 256) (block : Fin 4) (evt : Bool) (index : U16) (s : State) : Result :=
  .next (consumerWrite v.val block.val evt index s)

/-- A control ACK of the host (Table 3.4). -/
def execHostControlAck (port : Fin 512) (seq ack : U32) (s : State) : Result :=
  .next (takeIntact port.val { control := true, seq := seq, ack := ack, gen := 0, code := 0, tag := 0, oldKey := false } s)

/-! ### Timers -/

/-- An ACK every 10 ms while unacknowledged items exist, and at least every 1 s on ring and service ports (Table 3.4). -/
def execMbxAckTimer (port : Fin 512) (s : State) : Result :=
  .next (s.modPort port.val (fun p => if p.kind ≠ .loc || !p.rsps.isEmpty || !p.evts.isEmpty then p.ackMsg else p))

def execEpochRepeat (port : Fin 512) (s : State) : Result :=
  .next (s.modPort port.val (fun p => if p.awaits then p.control .epoch else p))

/-- The retransmissions that a held item has had, if it is held. -/
def Port.retriesOf (p : Port) (evt : Bool) (seq : U32) : Option Nat :=
  if evt then (p.evts.find? (fun h => h.seq == seq)).map (·.retries) else (p.rsps.find? (fun h => h.seq == seq)).map (·.retries)

def Port.retry (p : Port) (evt : Bool) (seq : U32) : Port :=
  if evt then
    { p with evts := p.evts.map (fun (h : HeldEvt) => if h.seq = seq then { h with retries := h.retries + 1 } else h) }.resendEvt seq
  else { p with rsps := p.rsps.map (fun (h : HeldRsp) => if h.seq = seq then { h with retries := h.retries + 1 } else h) }.resendRsp seq

/-- A held item has waited t_RTX (R73): up to 8 retransmissions, then `LINK_STALE`. Local ports never retransmit. -/
def retransmit (n : Nat) (evt : Bool) (seq : U32) (s : State) : State :=
  match s.port? n with
  | none => s
  | some p =>
    if p.kind = .loc || p.rtxStopped then s
    else match p.retriesOf evt seq with
      | none => s
      | some k =>
        if k < 8 then s.modPort n (fun p => p.retry evt seq)
        else if k = 8 then
          raise evt_mbxPortStale n (.owned p.vzf) [] (s.modPort n (fun p => { p with linkStale := true, rtxStopped := true }))
        else s

def execMbxRetransmit (port : Fin 512) (evt : Bool) (seq : U32) (s : State) : Result := .next (retransmit port.val evt seq s)

/-! ### Commands -/

/-- The command index (Table 3.9). -/
def commandIndex : List Nat :=
  [0x0101, 0x0102, 0x0103, 0x0104, 0x0105, 0x0106, 0x0107, 0x0120, 0x0121, 0x0122, 0x0123, 0x0124, 0x0125, 0x0126]
    ++ [0x0201, 0x0202, 0x0203, 0x0204, 0x0205, 0x0206, 0x0207]
    ++ [0x0301, 0x0302, 0x0303, 0x0304, 0x0305, 0x0306, 0x0307, 0x0308, 0x0309, 0x030A, 0x030B, 0x0320, 0x0321, 0x0322, 0x0330,
        0x0331, 0x0332]
    ++ [0x0401, 0x0402, 0x0403, 0x0404, 0x0405, 0x0406]
    ++ [0x0501, 0x0502, 0x0503, 0x0504, 0x0505, 0x0506, 0x0507, 0x0508, 0x0509, 0x050A]
    ++ [0x0601, 0x0602, 0x0603, 0x0604, 0x0605, 0x0606, 0x0607] ++ [0x0701, 0x0702, 0x0703, 0x0704, 0x0705, 0x0706]
    ++ [0x0801, 0x0802, 0x0803, 0x0804, 0x0805, 0x0806, 0x0807, 0x0808, 0x0809, 0x080A, 0x080B, 0x080C, 0x080D]
    ++ [0x0901, 0x0902, 0x0903, 0x0904, 0x0905, 0x0906, 0x0907, 0x0908, 0x0909, 0x090A]
    ++ [0x0A01, 0x0A02, 0x0A03, 0x0A04, 0x0A05, 0x0A06, 0x0A07] ++ [0x0B01, 0x0B02, 0x0B03, 0x0B04, 0x0B05]
    ++ [0x0C01, 0x0C02, 0x0C03, 0x0C04, 0x0C05, 0x0C06, 0x0C07, 0x0C08] ++ [0x0D01, 0x0D02, 0x0D03, 0x0D04, 0x0D05, 0x0D06]
    ++ [0x0E01, 0x0E02, 0x0E03, 0x0E04, 0x0E05, 0x0E06] ++ [0x0F01, 0x0F02, 0x0F03, 0x0F04, 0x0F05, 0x0F06]
    ++ [0x1001, 0x1002, 0x1003, 0x1004, 0x1005, 0x1006, 0x1007, 0x1020] ++ [0x1101, 0x1102, 0x1103]
    ++ [0x1201, 0x1202, 0x1203, 0x1204, 0x1205]

/-- The Basecamp subset (R450). -/
def basecampSubset : List Nat :=
  [0x0101, 0x0102, 0x0104, 0x0105, 0x0125, 0x0123, 0x0F01, 0x0F03, 0x0F02, 0x0F04, 0x0F05, 0x0F06, 0x1001, 0x1002, 0x1003,
    0x1004, 0x1005, 0x1006, 0x1007, 0x1204]

/-- The manager, or in Basecamp the ROM, serves no command of this code (R84, R450). -/
def State.unknownCode (s : State) (code : U16) : Bool :=
  if s.sys.mode = .basecamp then !basecampSubset.contains code.toNat else !commandIndex.contains code.toNat

/-- A code outside the index is answered `ST_UNKNOWN_CMD`; the header version and the length are checked first (R72, R84). -/
def execUnknownCommand (r : Req) (code : U16) (s : State) : Result :=
  .next (if s.unknownCode code then
    respond r code (if r.version ≠ 1 then stat_badVersion else if 4032 < r.len then stat_badLength else stat_unknownCmd) [] s
  else s)

/-- The oldest RSP_SEQ and EVT_SEQ held, or 0. Held items stand in the order in which they were issued. -/
def Port.oldestRsp (p : Port) : U32 := (p.rsps.head?.map (·.seq)).getD 0
def Port.oldestEvt (p : Port) : U32 := (p.evts.head?.map (·.seq)).getD 0

def OpenReq.bytes (o : OpenReq) : List Byte :=
  le32 o.reqSeq ++ le32 o.tag ++ le16 o.code ++ [if o.pending then 1 else 0, 0] ++ le32 o.rspSeq

/-- The payload of Table 3.6, for the session that the response opens. -/
def resyncBytes (s : State) (p : Port) (session : Nat) : List Byte :=
  let n := min 64 p.opens.length
  le32 p.reqSeq ++ le32 (p.rspSeq + 1) ++ le32 p.evtSeq ++ le32 p.oldestRsp ++ le32 p.oldestEvt
    ++ le16 ((p.vzf.map (fun v => (s.vzf v).gen)).getD 0) ++ n16 n ++ le32 s.sys.bootCount
    ++ n32 (bit p.linkStale + 2 * bit p.lostSinceResync) ++ n32 session ++ (p.opens.take n).flatMap OpenReq.bytes

/-- `SYS.RESYNC` ends the wait, stops every retransmission on the port and opens a new session (R66, R78). -/
def resyncPort (r : Req) (p : Port) (s : State) : State × Reply :=
  let k := s.mbx.sessions.getD 0 r.port + 1
  let data := resyncBytes s p k
  let s := { s with mbx := { s.mbx with sessions := s.mbx.sessions.set r.port k } }
  (s.modPort r.port (fun p => { p with
    awaits := false, linkStale := false, rtxStopped := false, lostSinceResync := false, session := k, key := s.portKey p r.port k,
    ctlCount := 0, ctlWrap := 0, rspWrap := 0, evtWrap := 0,
    lastResync := some (r.tag, s.now, p.rspSeq + 1), rsps := p.rsps.map (fun h => { h with retries := 255 }),
    evts := p.evts.map (fun h => { h with retries := 255 }) }), .ok data)

def execSysResync (r : Req) (s : State) : Result :=
  .next (runCmd r { code := 0x0101, lenOk := decide (r.len = 0), need := .any, payload := none, modeOk := s.sys.mode.isAwake }
    (fun p s => resyncPort r p s) s)

/-- What `SYS.REPLAY` owes from one space (R85): none where the number is older than the oldest held, or nothing is held. -/
def replayList (first newest : U32) (held : List U32) : Option (List U32) :=
  if first = 0 || later first newest then some []
  else match held with
    | [] => none
    | oldest :: _ => if later oldest first then none else some (held.filter (fun q => !later first q))

/-- `SYS.REPLAY` (R85): the items first, then the response. -/
def replay (r : Req) (rsp evt : U32) (p : Port) (s : State) : State × Reply :=
  match replayList rsp p.rspSeq (p.rsps.map (·.seq)), replayList evt p.evtSeq (p.evts.map (·.seq)) with
  | some a, some b => (s.modPort r.port (fun p => b.foldl Port.resendEvt (a.foldl Port.resendRsp p)), .ok [])
  | _, _ => (s, .fail stat_range)

def execSysReplay (r : Req) (rsp evt : U32) (s : State) : Result :=
  .next (runCmd r { code := 0x0102, lenOk := decide (r.len = 8), need := .any, payload := none, modeOk := s.sys.mode.isAwake }
    (fun p s => replay r rsp evt p s) s)

def execSysSubscribe (r : Req) (cls : Byte) (mask : U32) (s : State) : Result :=
  .next (runCmd r { code := 0x0103, lenOk := decide (r.len = 8), need := .any, payload := needStat (decide (cls.toNat ≤ 4)) stat_range
                    modeOk := s.sys.mode.isServing }
    (fun _ s => (s.modPort r.port (fun p => { p with subClass := cls.toNat, subMask := mask }), .ok [])) s)

def execSysPing (r : Req) (payload : List Byte) (s : State) : Result :=
  .next (runCmd r { code := 0x0104, lenOk := decide (r.len ≤ 4032) && decide (payload.length = r.len), need := .any, payload := none
                    modeOk := s.sys.mode.isAwake }
    (fun _ s => (s, .ok payload)) s)

/-- Version of the copy that runs, or ran before Basecamp entry; 0 where none runs (R504). -/
def State.runningVersion (s : State) (cls : Nat) : U32 :=
  match s.upd.running.get? cls with
  | some b => (s.copy cls b).version
  | none => 0

def State.infoBytes (s : State) : List Byte :=
  le16 Config.partCode ++ [Config.stepCode] ++ zeros 5 ++ le64 s.key.serial ++ allClasses.flatMap (fun c => le32 (s.runningVersion c))

def execSysGetInfo (r : Req) (s : State) : Result :=
  .next (runCmd r { code := 0x0105, lenOk := decide (r.len = 0), need := .any, payload := none, modeOk := s.sys.mode.isAwake }
    (fun _ s => (s, .ok s.infoBytes)) s)

def PortStats.bytes (t : PortStats) : List Byte :=
  n32 t.accepted ++ n32 t.refused ++ n32 t.rateLimited ++ n32 t.discarded ++ n32 t.badAck ++ n32 t.retransmitted

def execSysPortStats (r : Req) (s : State) : Result :=
  .next (runCmd r { code := 0x0106, lenOk := decide (r.len = 0), need := .any, payload := none, modeOk := s.sys.mode.isServing }
    (fun p s => (s, .ok p.stats.bytes)) s)

/-- `SYS.SET_RATE` acts on the port it names (R504). -/
def setRate (n burst rate : Nat) (s : State) : State × Reply :=
  match s.port? n with
  | none => (s, .fail stat_range)
  | some _ =>
    (s.modPort n (fun p => let p := p.refill s.now
                           { p with rate := rate, burst := burst, tokens := min p.tokens (burst * tokenUnit) }), .ok [])

def execSysSetRate (r : Req) (port burst : U16) (rate : U32) (s : State) : Result :=
  .next (runCmd r { code := 0x0107, lenOk := decide (r.len = 8), need := .system
                    payload := needStat (decide (port.toNat ≤ 511) && decide (1 ≤ burst.toNat) && decide (burst.toNat ≤ 64)
                      && decide (1000 ≤ rate.toNat) && decide (rate.toNat ≤ 200000)) stat_range
                    modeOk := s.sys.mode.isRunLimpWork }
    (fun _ s => setRate port.toNat burst.toNat rate.toNat s) s)

end Sys2Proof.Machine
end

