-- ==== Sys2Proof/Machine/Restart.lean ====
section
/-! DEFINITION. What ends when the logic die enters reset (R497), and restarts (R28, R33, R59). -/

namespace Sys2Proof.Machine

/-- What a channel keeps when the logic die resets: its record, and what lives in the power die, an override of its hold setting
included (R107); its status registers return to their reset values (R7). -/
def Chan.logicReset (c : Chan) : Chan :=
  { c with sw := .off, held := none, orphan := none, test := none, shed := none, hoShed := false, rfx := none, flags := .zero,
           tripCount := 0, tagGen := 0, tagSeq := 0, cmdWord := 0, targetReg := 0, ackGen := 0, ackSeq := 0 }

/-- What a CAN channel keeps: its records in `PD_AON` (R323, R324). -/
def CanChan.logicReset (x : CanChan) : CanChan :=
  { CanChan.reset with record := x.record, configured := x.configured, sieve := x.sieve, sieveErr := x.sieveErr
                       wakeUnconf := x.wakeUnconf, sieveFs := x.sieveFs }

/-- The software side of an isolated channel; its field side lives beyond the barrier, and what a HOLD output was is what it still is
(R188, R192). -/
def XChan.logicReset (x : XChan) : XChan :=
  { XChan.reset with cfg := x.cfg, force := x.force, fCfg := x.fCfg, fCfgSet := x.fCfgSet, fOut := x.fOut, fCmd := x.fCmd, fOvl := x.fOvl, fOpen := x.fOpen
                     fOt := x.fOt }

def XBank.logicReset (b : XBank) : XBank :=
  { XBank.reset with timeouts := b.timeouts, sawPage3 := b.sawPage3, tXto := b.tXto, line := b.line, fPowered := b.fPowered, fDownSeq := b.fDownSeq, fLost := b.fLost, fUpSeq := b.fUpSeq
                     fAck := b.fAck, fXto := b.fXto, fTimedOut := b.fTimedOut, fTimeouts := b.fTimeouts, fCfgNeeded := b.fCfgNeeded
                     fXvfLow := b.fXvfLow }

/-- The logic die enters reset: what it holds is lost. The power dies, the bridge die, the field side, NAND and `PD_AON` keep
theirs; the bridge stops (R168), the encoder stops (R457), every write session and open target ends (R60, R443). -/
def logicStop (s : State) : State :=
  let s := updDiscardOpen (closeSession s)
  let s := ringStop (eswStop s)
  { s with
    mbx := { MbxState.reset with left := s.mbx.left }, vz := .reset, saf := .reset, sig := .reset
    rfx := { RfxState.reset with safeN := s.rfx.safeN }
    cfg := { s.cfg with activating := none }
    ch := { s.ch with chans := s.ch.chans.mapAll (fun _ c => c.logicReset), sns := none, groupOver := [], lossOver := false, groupNext := .empty
                      lossNext := 0, groupHist := .empty, lossHist := [] }
    net := { s.net with can := s.net.can.mapAll (fun _ x => x.logicReset), nm := .empty, lin := .empty }
    fio := { s.fio with x := s.fio.x.mapAll (fun _ x => x.logicReset), slots := .empty, bank := s.fio.bank.logicReset, di := .empty, ai := .empty
                        sup := .empty, diStampHi := .empty }
    tb := { s.tb with captures := .empty, triggers := .empty }
    twin := { s.twin with line := none, testing := false, testReq := none }
    brg := { s.brg with phase := .stopped, railOn := false, battOn := false, loss := false, shedLvl := 0, shedVz12 := false, restoring := false
                        safeDone := false, safeAct := .keep, test := none, history := [] }
    upd := { s.upd with verifying := none, committed := false }
    uds := { UdsState.reset with answer := s.uds.answer, tp := { TpState.reset with sent := s.uds.tp.sent } }
    sys := { s.sys with step := 0, facts := none, rootLock := false, onRef := true, proven := false, nonces := [],
                        appReleased := false, appStopped := false, ddrTrained := false, app := .reset, holdOff := false, vinChecked := false, domains := []
                        bivouac := .none, wakeLatched := false, wakeReq := false, fromBivouac := false } }

/-- A restart into Start-up: the mode leaves at once, and the reset release follows (R497). -/
def restart (trigger : Nat) (s : State) : State :=
  let old := s.sys.mode
  let t := logicStop (abortTests s)
  { t with sys := { t.sys with mode := .startup, prevMode := old, phase := .waiting, startTrigger := trigger, monTrip := false } }

/-- A restart by command, Workshop timeout or watchdog sets `MGR_WAKE_CAUSE.RESTART` (Table 2.3). -/
def restartCause (trigger : Nat) (s : State) : State :=
  restart trigger { s with sys := { s.sys with wake := { s.sys.wake with restart := true } } }

/-- A restart from Basecamp starts the count of Table 2.5 anew. -/
def clearLoop (s : State) : State :=
  if s.sys.mode = .basecamp then { s with sys := { s.sys with failedStarts := 0, reached := true } } else s

/-- The response of a command that ends the manager's run (R59): it leaves on the port although every port ends with the run. -/
def leaveRsp (r : Req) (code : U16) (s : State) : State :=
  let t := respond r code stat_ok [] s
  { t with mbx := { t.mbx with left := (t.port? r.port).bind (fun p => p.rsps.getLast?.map (fun h => (r.port, h))) } }

/-- A command answers `ST_OK` and restarts. -/
def answerRestart (r : Req) (code : U16) (trigger : Nat) (s : State) : State :=
  restartCause trigger (clearLoop (leaveRsp r code s))

end Sys2Proof.Machine
end

