-- ==== Sys2Proof/Machine/Can.lean ====
section
/-! DEFINITION. CAN channels: transmission, reception, errors, ISO 11898-4 time masters, and the CAN commands
(R295 to R314, R324, R335). -/

namespace Sys2Proof.Machine

def CanMode.onBus : CanMode → Bool
  | .errorActive | .errorPassive => true
  | _ => false

/-- The owner VZF of a channel is between the start of a reset and its end (R311). -/
def State.canQuiet (s : State) (c : Nat) : Bool :=
  match s.canOwner c with
  | some v => !s.vzfActive v
  | none => false

/-! ### Errors (R309) -/

/-- Counters after an event on the bus, and the state they ask for; a listening channel keeps its counters (R310). -/
def canCount (c : Nat) (n : CanCounters) (s : State) : State :=
  let x := s.canCh c
  if canListen x.record || !x.mode.onBus then s
  else
    let e := n.err.val
    let s := s.modCan c (fun x =>
      { x with tec := n.tec, rec_ := n.rec_, lec := if e = 0 then x.lec else e
               stats := if e = 0 then x.stats else { x.stats with errors := x.stats.errors.set (e - 1) (x.stats.errors.getD (e - 1) 0 + 1) } })
    if 255 < n.tec then
      raiseCan evt_canBusOff c [] (s.modCan c (fun x =>
        { x with mode := .busOff, attempt := none, busOffs := satInc 0xFFFF x.busOffs, flags := { x.flags with busOffSeen := true } }))
    else if 127 < n.tec ∨ 127 < n.rec_ then
      let s := s.modCan c (fun x => { x with mode := .errorPassive })
      if x.mode = .errorPassive then s else raiseCan evt_canErrPassive c [] s
    else s.modCan c (fun x => { x with mode := .errorActive })

/-! ### Reception (R307, R308) -/

def CanFilter.takes (f : CanFilter) (g : CanFrame) : Bool :=
  f.en && f.formats.getLsbD g.fmt.val && decide (f.ide = g.ide)
    && decide ((BitVec.setWidth 32 g.id ^^^ f.id) &&& f.mask = 0)

/-- The first matching filter decides (R307). -/
def CanChan.stores (x : CanChan) (g : CanFrame) : Bool :=
  match (List.range 64).find? (fun k => (x.filters.getD .reset k).takes g) with
  | some k => (x.filters.getD .reset k).store
  | none => false

/-- A free RX XL buffer: one that no software-owned RX entry names (R302). -/
def CanChan.freeXl (x : CanChan) : Option Nat :=
  (List.range 32).map (32 + ·) |>.find? (fun b => !x.rx.cells.any (fun c => !c.2.own && decide (c.2.xlbuf.toNat = b)))

/-- A frame is lost (R308). -/
def canLose (c : Nat) (s : State) : State :=
  let x := s.canCh c
  let t := s.modCan c (fun x => { x with rxLost := satInc 0xFFFFFFFF x.rxLost, lossBefore := true, episode := true
                                         flags := { x.flags with rxLoss := true } })
  if x.episode then t else raiseCan evt_canRxOverrun c [] t

/-- The control word of a received frame. -/
def rxCtl (g : CanFrame) (loss echoed : Bool) : U32 :=
  wordOf [(g.fmt.val, 28), (bit g.ide, 27), (bit g.rtr, 26), (bit g.brs, 25), (bit g.esi, 24), (bit loss, 21), (bit echoed, 20),
    (g.dlen % 4096, 0)]

/-- Fill the next RX entry (R302, R308). -/
def canFill (c : Nat) (g : CanFrame) (sof : U64) (echoed : Bool) (xlb : Option Nat) (s : State) : State :=
  let gen := match s.canOwner c with
    | some v => (s.vzf v).gen
    | none => 0
  let s := s.modCan c (fun x =>
    { x with
      rx := x.rx.set x.rxFill { ctl := rxCtl g x.lossBefore echoed, id := BitVec.setWidth 32 g.id, gen := gen
                                xl := wordOf [(g.sdt.toNat, 24), (g.vcid.toNat, 16), (bit g.sec, 8)], af := g.af
                                xlbuf := byteOf (xlb.getD 255), attempts := 0, tag := 0, time := sof
                                data := if xlb.isSome then zeros 64 else (g.data ++ zeros 64).take 64 }
      xlb := match xlb with
        | some b => x.xlb.set b g.data
        | none => x.xlb
      rxFill := (x.rxFill + 1) % 512, lossBefore := false, stats := { x.stats with stored := x.stats.stored + 1 } })
  s.raiseSrc (s.canOwner c) (8 + c)

/-- A frame for the RX FIFO: filtered, dropped during a reset, stored or lost (R307, R308, R311). -/
def canStore (c : Nat) (g : CanFrame) (sof : U64) (echoed : Bool) (s : State) : State :=
  let x := s.canCh c
  if !x.stores g then s
  else if s.canQuiet c then
    s.modCan c (fun x => { x with rxLost := satInc 0xFFFFFFFF x.rxLost, resetLost := x.resetLost + 1 })
  else if !(x.rxE x.rxFill).own then canLose c s
  else if g.data.length ≤ 64 then canFill c g sof echoed none s
  else match x.freeXl with
  | some b => canFill c g sof echoed (some b) s
  | none => canLose c s

/-- A `CAN_RX` PDU that a frame matches (Table 12.3). -/
def PduDesc.matchesCan (p : PduDesc) (c : Nat) (g : CanFrame) : Bool :=
  decide (p.kind = 1) && decide (p.byte 12 = c) && flagOf (byteOf (p.byte 13)) g.fmt.val
    && decide (flagOf (byteOf (p.byte 14)) 0 = g.ide) && decide ((BitVec.setWidth 32 g.id ^^^ p.word 16) &&& p.word 20 = 0)

def canReceive (c : Nat) (g : CanFrame) (sof : U64) (n : CanCounters) (s : State) : State :=
  if !(s.canCh c).mode.onBus || !s.powered (pdCan c) then s
  else
    let s := canCount c n s
    if n.err.val ≠ 0 then s
    else
      let s := s.modCan c (fun x => { x with stats := { x.stats with
        received := x.stats.received + 1, bytesReceived := x.stats.bytesReceived + g.data.length } })
      if s.sys.mode = .basecamp then { s with uds := s.uds.canTake g }
      else canStore c g sof false (arriveAll (fun p => p.matchesCan c g) g.data s)

def execCanFrameReceived (c : Fin 16) (f : CanFrame) (sof : U64) (n : CanCounters) (s : State) : Result :=
  .next (canReceive c.val f sof n s)

def execCanRxOverrunEnd (c : Fin 16) (s : State) : Result := .next (s.modCan c.val (fun x => { x with episode := false }))

/-! ### Transmission (R304, R305) -/

/-- Arbitration field as a number: the lower wins (R304). After the first eleven identifier bits stand the RTR, SRR or RRS bit
and IDE; then the rest of an extended identifier with RTR, or the format bits FDF and XLF. -/
def CanEntry.arb (e : CanEntry) : Nat :=
  let hi := bits e.id 18 11
  let ext := e.ide && decide (e.fmt ≠ 2)
  let b := if ext then 1 else if e.fmt = 0 ∧ e.rtr then 1 else 0
  let rest := if ext then bits e.id 0 18 * 2 + bit (decide (e.fmt = 0) && e.rtr)
    else (if e.fmt = 0 then 0 else 262144) + (if e.fmt = 2 then 131072 else 0)
  hi * 2097152 + b * 1048576 + bit ext * 524288 + rest

/-- The entry with the lowest key, the lower number on a tie. -/
def bestEntry (x : CanChan) : List Nat → Option Nat
  | [] => none
  | e :: r =>
    match bestEntry x r with
    | none => some e
    | some f =>
      let a := (x.txE e).arb
      let b := (x.txE f).arb
      if a < b ∨ (a = b ∧ e < f) then some e else some f

/-- Commit at a start of frame (R305): the winning pending entry begins an attempt. None of a VZF in reset begins one (R311). -/
def canCommit (c : Nat) (s : State) : State :=
  let x := s.canCh c
  if !x.mode.onBus || canListen x.record || x.attempt.isSome || x.stopping.isSome || !s.powered (pdCan c) then s
  else
    let l := x.pending.filter (fun e => !(s.canSoftEntry c e && s.canQuiet c))
    match bestEntry x l with
    | none => s
    | some e => s.modCan c (fun x =>
      { x with attempt := some { entry := e, sof := s.tb.count, cancelled := false, old := false }
               tx := x.tx.modify .tx e (fun y => { y with attempts := byteOf (satInc 255 y.attempts.toNat) }) })

def execCanSofCommit (c : Fin 16) (s : State) : Result := .next (canCommit c.val s)

/-- The frame that an entry sends. -/
def CanChan.frameOf (x : CanChan) (e : Nat) : CanFrame :=
  let y := x.txE e
  { fmt := if y.fmt = 0 then 0 else if y.fmt = 1 then 1 else 2, ide := y.ide, rtr := y.rtr, brs := y.ctl.getLsbD 25
    esi := decide (127 < x.tec), id := y.id.extractLsb' 0 29, sdt := y.xl.extractLsb' 24 8, vcid := y.xl.extractLsb' 16 8
    sec := y.xl.getLsbD 8, af := y.af, dlen := y.dlen
    data := if y.rtr && decide (y.fmt = 0) then []
      else if y.dlen ≤ 64 then y.data.take y.dlen else (x.xlb.getD [] y.xlbuf.toNat ++ zeros 2048).take y.dlen }

/-- After a completion, a waiting image of the exchange or the manager takes its buffer (R348). -/
def canRefill (c e : Nat) (s : State) : State :=
  if ((s.canCh c).txE e).own then s
  else if s.canNmBuf c e then
    match (s.nmRing c).outbox with
    | some m => nmSend c m s
    | none => s
  else if s.canSigBuf c e then
    (s.pdusWith (fun p => decide (p.kind = 2) && decide (p.byte 12 = c) && decide (p.byte 13 = e))).foldl (fun s q =>
      if (s.pduRun q).bufWaits then sendPdu q s else s) s
  else s

/-- `CAN.STOP` takes effect: every hardware-owned entry ends as aborted (Table 11.3). -/
def canStopNow (c : Nat) (s : State) : State :=
  let es := (List.range 96).filter (fun e => ((s.canCh c).txE e).own)
  let s := es.foldl (fun s e => canFinish c e canAborted false s.tb.count s) s
  s.modCan c (fun x => { x with mode := .stopped, xcvr := .receiveOnly, attempt := none, pending := [], stopping := none })

/-- How the attempt leaves its entry (R304, R305). -/
def canOutcome (c : Nat) (a : CanAttempt) (o : CanOutcome) (s : State) : State :=
  let x := s.canCh c
  let e := a.entry
  let fin := fun r late => canFinish c e r late a.sof s
  let cancel := fun (t : State) => t.modCan c (fun x => { x with stats := { x.stats with cancels := x.stats.cancels + 1 } })
  match o with
  | .sent =>
    let g := x.frameOf e
    let t := (fin canTxOk a.cancelled).modCan c (fun x => { x with stats := { x.stats with
      sent := x.stats.sent + 1, bytesSent := x.stats.bytesSent + g.data.length } })
    if canEcho x.record then canStore c g a.sof true t else t
  | .lostArb =>
    let t := if a.cancelled then cancel (fin canCancelled false)
      else if (x.txE e).oneShot then fin canLostArb false else s
    t.modCan c (fun x => { x with stats := { x.stats with arbLost := x.stats.arbLost + 1 } })
  | .error =>
    if a.cancelled then cancel (fin canCancelled false) else if (x.txE e).oneShot then fin canTxError false else s

/-- A completion of an old generation is discarded and counted (R311). -/
def canLate (c : Nat) (s : State) : State :=
  let t := s.modCan c (fun x => { x with stats := { x.stats with late := x.stats.late + 1 } })
  match s.canOwner c with
  | some v => { t with vz := t.vz.modify v (fun z => { z with late := z.late + 1 }) }
  | none => t

def canComplete (c : Nat) (o : CanOutcome) (n : CanCounters) (s : State) : State :=
  match (s.canCh c).attempt with
  | none => s
  | some a =>
    let s := s.modCan c (fun x => { x with attempt := none })
    let s := if a.old then canLate c s else canOutcome c a o s
    let s := canCount c n s
    match (s.canCh c).stopping with
    | some q => complete q.1 q.2.2 q.2.1 0x0903 stat_ok [] (canStopNow c s)
    | none => canRefill c a.entry s

def execCanTxComplete (c : Fin 16) (o : CanOutcome) (n : CanCounters) (s : State) : Result := .next (canComplete c.val o n s)

def execCanIntegrationDone (c : Fin 16) (s : State) : Result :=
  let x := s.canCh c.val
  .next (if x.mode = .integrating then
    let s := s.modCan c.val (fun x => { x with mode := .errorActive })
    if s.nmOn c.val && (s.nmRing c.val).join then nmAlive c.val s else s
  else s)

def execCanRecoveryDone (c : Fin 16) (s : State) : Result :=
  .next (if (s.canCh c.val).mode = .recovering then
    raiseCan evt_canRecovered c.val [] ((canIntegrate c.val s).modCan c.val (fun x => { x with tec := 0, rec_ := 0 }))
  else s)

/-! ### Doorbell, cancel and entry writes -/

/-- The window block of channel `c` belongs to a local VZF that owns the channel (R312). -/
def State.canBlock (s : State) (v c : Nat) : Bool := decide (s.canOwner c = some v) && !(s.vzf v).tpl.attach

/-- One handed-over entry at the doorbell (R302, R304). -/
def canBell1 (v c e : Nat) (s : State) : State :=
  let y := (s.canCh c).txE e
  if !y.own || (s.canCh c).pending.contains e || !s.canSoftEntry c e then s
  else if y.gen ≠ (s.vzf v).gen then
    (canFinish c e canStaleGen false s.tb.count s).modCan c (fun x => { x with flags := { x.flags with staleTx := true } })
  else canTake c e s

def canBell (v c : Nat) (s : State) : State :=
  if !s.canBlock v c then windowFault v s
  else if !s.vzfActive v then s
  else (List.range 96).foldl (fun s e => canBell1 v c e s) s

def execCanTxBellWrite (v : Fin 256) (c : Fin 16) (s : State) : Result := .next (canBell v.val c.val s)

/-- Cancel a TX entry (R305): 0 cancelled now, 1 the attempt runs to its end, 2 not pending. -/
def canCancelEntry (c e : Nat) (s : State) : State × Nat :=
  let x := s.canCh c
  if !x.pending.contains e then (s, 2)
  else if x.attempt.any (fun a => decide (a.entry = e)) then
    (s.modCan c (fun x => { x with attempt := x.attempt.map (fun a => { a with cancelled := true }) }), 1)
  else
    ((canFinish c e canCancelled false s.tb.count s).modCan c (fun x => { x with stats := { x.stats with cancels := x.stats.cancels + 1 } }), 0)

def canCancelWrite (v c : Nat) (w : U32) (s : State) : State :=
  if !s.canBlock v c then windowFault v s
  else if !s.vzfActive v || decide (95 < w.toNat) || !s.canSoftEntry c w.toNat then s
  else (canCancelEntry c w.toNat s).1

def execCanTxCancelWrite (v : Fin 256) (c : Fin 16) (value : U32) (s : State) : Result := .next (canCancelWrite v.val c.val value s)

/-- Software's write of `CAN_E_CTL`: its RO bits keep their values (Table 11.6). -/
def softCtl (old new : U32) : U32 := (new &&& 0xFE800FFF) ||| (old &&& 0x017F0000)

/-- A write of `CAN_E_CTL` to an entry that software owns; to any other it is discarded, with `OWN_ERR` (R302, R303). -/
def canCtlWrite (c : Nat) (rx : Bool) (e : Nat) (w : U32) (s : State) : State :=
  let x := s.canCh c
  let y := if rx then x.rxE e else x.txE e
  if !rx && (decide (95 < e) || !s.canSoftEntry c e) then s
  else if y.own then s.modCan c (fun x => { x with flags := { x.flags with ownErr := true } })
  else
    let z := { y with ctl := softCtl y.ctl w }
    s.modCan c (fun x => if rx then { x with rx := x.rx.set e z } else { x with tx := x.tx.set e z })

def execCanEntryCtlWrite (c : Fin 16) (rx : Bool) (e : Fin 512) (value : U32) (s : State) : Result :=
  .next (canCtlWrite c.val rx e.val value s)

def canLostRead (v c : Nat) (s : State) : State :=
  if !s.canBlock v c then windowFault v s
  else { s.modCan c (fun x => { x with rxLost := 0 }) with bus := BitVec.ofNat 64 (s.canCh c).rxLost }

def execCanRxLostRead (v : Fin 256) (c : Fin 16) (s : State) : Result := .next (canLostRead v.val c.val s)

/-! ### Time master and follower (R313, R314) -/

/-- A master takes the role; `EVT_CAN_TM_CHANGE` says that it follows another (R314). -/
def tmForce (c rank : Nat) (s : State) : State :=
  let old := (s.canCh c).tm.inForce
  let s := s.modCan c (fun x => { x with tm := { x.tm with inForce := some rank } })
  if old.isSome ∧ old ≠ some rank then raiseCan evt_canTmChange c [] s else s

/-- Send a reference (R313); the first makes the bound view valid at its own time (Table 13.4, R377). -/
def tmSend (c : Nat) (s : State) : State :=
  let x := s.canCh c
  let t := x.tm
  if t.role ≠ 2 ∨ !t.sending ∨ !x.mode.onBus ∨ canListen x.record then s
  else
    let s := tmForce c t.rank (s.modCan c (fun x => { x with
      tm := { x.tm with count := if x.tm.count < x.tm.maxCount then x.tm.count + 1 else 0, missing := 0 }
      stats := { x.stats with sent := x.stats.sent + 1, bytesSent := x.stats.bytesSent + 1 } }))
    if (s.view t.view).valid then s else servo t.view ((s.view t.view).unitsAt s.now) true s

def execTmReferenceSend (c : Fin 16) (s : State) : Result := .next (tmSend c.val s)

/-- The view time of a reference's start of frame: the whole multiple of the basic cycle with that cycle count that lies nearest
to what the view reads. -/
def tmGoal (t : CanTm) (count : Nat) (read : Int) : Int :=
  let cyc : Int := ((max 1 t.cycle * 100000 * 65536 : Nat) : Int)
  let round : Int := cyc * ((t.maxCount + 1 : Nat) : Int)
  let ofs : Int := cyc * (count : Int)
  max 0 (ofs + (read - ofs + round / 2) / round * round)

/-- A reference arrives: a follower takes its start of frame as its cycle start, and a master gives way to a lower rank. -/
def tmReceive (c rank count : Nat) (sof : U64) (s : State) : State :=
  let t := (s.canCh c).tm
  if t.role = 0 ∨ !(s.canCh c).mode.onBus then s
  else if t.sending ∧ t.rank ≤ rank then s
  else
    let s := tmForce c rank (s.modCan c (fun x => { x with tm := { x.tm with count := count, missing := 0, sending := false } }))
    let v := s.view t.view
    let goal := tmGoal t count (v.unitsAt sof.toNat) + (v.unitsAt s.now - v.unitsAt sof.toNat)
    servo t.view goal (!v.valid) s

def execTmReferenceReceived (c : Fin 16) (rank : Fin 4) (count : Fin 64) (sof : U64) (s : State) : Result :=
  .next (tmReceive c.val rank.val count.val sof s)

/-- A missing reference: at the second in a row `TM_LOST`, and backup masters send (R314). -/
def tmMissing (c : Nat) (s : State) : State :=
  let t := (s.canCh c).tm
  if t.role = 0 then s
  else
    let s := s.modCan c (fun x => { x with tm := { x.tm with missing := x.tm.missing + 1 } })
    if t.missing + 1 ≠ 2 then s
    else
      let s := raiseCan evt_canTmMissing c [] (s.modCan c (fun x => { x with flags := { x.flags with tmLost := true } }))
      if t.role = 2 ∧ 1 ≤ t.rank then s.modCan c (fun x => { x with tm := { x.tm with sending := true } }) else s

def execTmReferenceMissing (c : Fin 16) (s : State) : Result := .next (tmMissing c.val s)

/-! ### Wake confirmation (R324) -/

/-- 250 ms pass without normal mode: back to low power, recorded. -/
def execCanWakeConfirmTimeout (c : Fin 16) (s : State) : Result :=
  .next (if (s.canCh c.val).waking then
    s.modCan c.val (fun x => { x with waking := false, wakeUnconf := true, xcvr := .lowPower }) else s)

/-! ### Commands (Table 11.19) -/

/-- Rate × phase length: 400 MHz ÷ (BRP × (1 + TSEG1 + TSEG2)). -/
def canBit (brp t1 t2 : Nat) : Nat := brp * (1 + t1 + t2)

def phaseRange (p : CanPhase) : Bool :=
  decide (1 ≤ p.brp.toNat) && decide (p.brp.toNat ≤ 32) && decide (1 ≤ p.tseg1.toNat) && decide (p.tseg1.toNat ≤ 64)
    && decide (1 ≤ p.tseg2.toNat) && decide (p.tseg2.toNat ≤ 32) && decide (1 ≤ p.sjw.toNat) && decide (p.sjw.toNat ≤ 32)
    && decide (p.sjw.toNat ≤ p.tseg2.toNat)

/-- A data phase no faster than `mbit` Mbit/s and no slower than the nominal phase. -/
def phaseRate (nom : Nat) (p : CanPhase) (mbit : Nat) : Bool :=
  let q := canBit p.brp.toNat p.tseg1.toNat p.tseg2.toNat
  decide (400 ≤ mbit * q) && decide (q ≤ nom)

/-- R297, with the ranges of Table 11.2. -/
def canTimingOk (f : CanRecord) : Bool :=
  let nom := canBit f.nBrp.toNat f.nTseg1.toNat f.nTseg2.toNat
  let fast := flagOf f.flags 2
  decide (1 ≤ f.nBrp.toNat) && decide (f.nBrp.toNat ≤ 1024) && decide (2 ≤ f.nTseg1.toNat) && decide (f.nTseg1.toNat ≤ 256)
    && decide (1 ≤ f.nTseg2.toNat) && decide (f.nTseg2.toNat ≤ 128) && decide (1 ≤ f.nSjw.toNat) && decide (f.nSjw.toNat ≤ 128)
    && decide (f.nSjw.toNat ≤ f.nTseg2.toNat) && decide (400 ≤ nom)
    && (!canFdEn f || (phaseRange f.d && phaseRate nom f.d 8 && decide (f.tdcoFd.toNat ≤ 2047)))
    && (!canXlEn f || (phaseRange f.x && phaseRate nom f.x (if fast then 20 else 8) && decide (f.tdcoXl.toNat ≤ 2047)
        && !(fast && flagOf f.flags 3) && decide (1 ≤ f.pwms.toNat) && decide (f.pwms.toNat ≤ 63) && decide (1 ≤ f.pwml.toNat)
        && decide (f.pwml.toNat ≤ 63) && decide (f.pwmo.toNat ≤ 63)
        && (!fast || decide (f.pwms.toNat + f.pwml.toNat = canBit f.x.brp.toNat f.x.tseg1.toNat f.x.tseg2.toNat))))

/-- `SIG_TXB` takes the manager's buffer, or leaves out one that a `CAN_TX` PDU names (R298, R337). -/
def State.canTxbTaken (s : State) (c : Nat) (f : CanRecord) : Bool :=
  (s.nmOn c && f.sigTxb.getLsbD 31)
    || !(s.pdusWith (fun p => decide (p.kind = 2) && decide (p.byte 12 = c) && !f.sigTxb.getLsbD (p.byte 13))).isEmpty

def canConfigBody (c : Nat) (f : CanRecord) (s : State) : State × Reply :=
  if (s.canCh c).mode ≠ .stopped then (s, .fail stat_badState)
  else if 2 < f.wake.toNat then (s, .fail stat_canFeature)
  else if !canTimingOk f then (s, .fail stat_canTiming)
  else if s.canTxbTaken c f then (s, .fail stat_canReserved)
  else (s.modCan c (fun x => { x with record := f, configured := true }), .ok [])

/-- A CAN command of a channel's owner in Run, Limp and Workshop. -/
def canCmd (code : U16) (len : Nat) (r : Req) (c : Byte) (payload : Option U16) (s : State) : Cmd :=
  { code := code, lenOk := decide (r.len = len), need := canNeed s c, payload := orStat (canIndex c) payload
    modeOk := s.sys.mode.isRunLimpWork }

def execCanConfig (r : Req) (c : Byte) (f : CanRecord) (s : State) : Result :=
  .next (runCmd r (canCmd 0x0901 36 r c (needStat (!flagOf f.flags 7) stat_badPayload) s) (fun _ s => canConfigBody c.toNat f s) s)

def canStartNow (c : Nat) (s : State) : State :=
  let s := canIntegrate c s
  if s.nmOn c then (if (s.nmRing c).awake then s.modNm c (fun n => { n with join := true }) else nmAwake c s) else s

def execCanStart (r : Req) (c : Byte) (s : State) : Result :=
  .next (runCmd r (canCmd 0x0902 4 r c none s)
    (fun _ s => if (s.canCh c.toNat).mode = .stopped then (canStartNow c.toNat s, .ok []) else (s, .fail stat_badState)) s)

def canStopBody (r : Req) (c : Nat) (s : State) : State × Reply :=
  let x := s.canCh c
  if x.mode = .stopped ∨ x.mode = .busOff ∨ x.stopping.isSome then (s, .fail stat_badState)
  else if x.attempt.isSome then (s.modCan c (fun x => { x with stopping := some (r.port, r.tag, r.seq) }), .fail stat_pending)
  else (canStopNow c s, .ok [])

def execCanStop (r : Req) (c : Byte) (s : State) : Result :=
  .next (runCmd r (canCmd 0x0903 4 r c none s) (fun _ s => canStopBody r c.toNat s) s)

def execCanRecover (r : Req) (c : Byte) (s : State) : Result :=
  .next (runCmd r (canCmd 0x0904 4 r c none s)
    (fun _ s =>
      if (s.canCh c.toNat).mode = .busOff then (s.modCan c.toNat (fun x => { x with mode := .recovering }), .ok [])
      else (s, .fail stat_badState)) s)

def filterOf (flags : Byte) (id mask : U32) : CanFilter :=
  { en := flagOf flags 0, store := flagOf flags 1, ide := flagOf flags 2, formats := flags.extractLsb' 4 3, id := id, mask := mask }

def setFilterBody (c k : Nat) (f : CanFilter) (s : State) : State × Reply :=
  if k = 63 ∧ s.nmOn c then (s, .fail stat_canReserved)
  else (s.modCan c (fun x => { x with filters := x.filters.set k f }), .ok [])

def execCanSetFilter (r : Req) (c filter flags : Byte) (id mask : U32) (s : State) : Result :=
  .next (runCmd r (canCmd 0x0905 12 r c
      (orStat (needStat (!flagOf flags 3 && !flagOf flags 7) stat_badPayload)
        (needStat (decide (filter.toNat ≤ 63) && decide (id.toNat < 536870912) && decide (mask.toNat < 536870912)) stat_range)) s)
    (fun _ s => setFilterBody c.toNat filter.toNat (filterOf flags id mask) s) s)

def execCanSetSieve (r : Req) (c dlc flags : Byte) (id mask : U32) (dataMask : U64) (s : State) : Result :=
  .next (runCmd r { canCmd 0x0906 20 r c
      (orStat (needStat (decide (flags.toNat ≤ 1)) stat_badPayload)
        (needStat (decide (dlc.toNat ≤ 8) && decide (id.toNat < 536870912) && decide (mask.toNat < 536870912)) stat_range)) s
      with need := .system }
    (fun _ s =>
      (s.modCan c.toNat (fun x =>
        { x with sieve := { dlc := dlc, ide := flagOf flags 0, id := id, mask := mask, dataMask := le64 dataMask } }), .ok [])) s)

def execCanCancel (r : Req) (c entry : Byte) (s : State) : Result :=
  .next (runCmd r (canCmd 0x0907 4 r c (needStat (decide (entry.toNat ≤ 95)) stat_range) s)
    (fun _ s =>
      if !s.canSoftEntry c.toNat entry.toNat then (s, .fail stat_canReserved)
      else
        let t := canCancelEntry c.toNat entry.toNat s
        (t.1, .ok [byteOf t.2, 0, 0, 0])) s)

/-- Another channel bound to a view. -/
def State.tmBound (s : State) (c view : Nat) : Bool :=
  s.net.can.cells.any (fun x => decide (x.1 ≠ c) && decide (x.2.tm.role ≠ 0) && decide (x.2.tm.view = view))

def tmConfigBody (c role rank view base cycle maxCount : Nat) (s : State) : State × Reply :=
  if role ≠ 0 ∧ s.tmBound c view then (s, .fail stat_canTmView)
  else
    let t : CanTm := { CanTm.off with role := role, rank := rank, view := view, base := base, cycle := cycle, maxCount := maxCount
                                      sending := decide (role = 2) && decide (rank = 0) }
    (s.modCan c (fun x => { x with tm := t }), .ok [])

def execCanTimeMaster (r : Req) (c role rank view : Byte) (base cycle : U16) (maxCount : Byte) (s : State) : Result :=
  .next (runCmd r { canCmd 0x0908 12 r c
      (orStat (needStat (decide (role.toNat ≤ 2)) stat_badPayload)
        (needStat (decide (rank.toNat ≤ 3) && decide (6 ≤ view.toNat) && decide (view.toNat ≤ 9) && decide (base.toNat ≤ 0x7FF)
          && decide (10 ≤ cycle.toNat) && decide (cycle.toNat ≤ 1000) && decide (maxCount.toNat ≤ 63)) stat_range)) s
      with need := .system }
    (fun _ s => tmConfigBody c.toNat role.toNat rank.toNat view.toNat base.toNat cycle.toNat maxCount.toNat s) s)

/-- `CAN_CH_STATE` and `CAN_CH_FLAGS` (Tables 11.9, 11.10). -/
def State.canStateWord (s : State) (c : Nat) : U32 :=
  let x := s.canCh c
  wordOf [(x.mode.code, 28), (bit (canListen x.record), 27), (bit (decide (96 ≤ x.tec) || decide (96 ≤ x.rec_)), 26),
    (bit x.tm.sending, 25), (bit (s.nmOn c && (s.nmRing c).awake), 24), (min 255 x.tec, 16), (min 255 x.rec_, 8), (x.lec, 4)]

def CanFlags.word (f : CanFlags) : U32 :=
  wordOf [(bit f.rxLoss, 31), (bit f.ownErr, 30), (bit f.staleTx, 29), (bit f.busOffSeen, 28), (bit f.wakeUnconf, 27), (bit f.tmLost, 26)]

/-- W1C (Table 11.10). -/
def CanFlags.clear (f : CanFlags) (w : U32) : CanFlags :=
  { rxLoss := f.rxLoss && !w.getLsbD 31, ownErr := f.ownErr && !w.getLsbD 30, staleTx := f.staleTx && !w.getLsbD 29,
    busOffSeen := f.busOffSeen && !w.getLsbD 28, wakeUnconf := f.wakeUnconf && !w.getLsbD 27, tmLost := f.tmLost && !w.getLsbD 26 }

def canStatus (c : Nat) (s : State) : List Byte :=
  let x := s.canCh c
  le32 (s.canStateWord c) ++ le32 x.flags.word ++ n16 x.tec ++ n16 x.rec_ ++ n16 x.busOffs
    ++ [byteOf (bit x.wakeUnconf + bit x.sieveFs * 2), 0] ++ n32 x.rxLost

def execCanGetStatus (r : Req) (c : Byte) (s : State) : Result :=
  .next (runCmd r { canCmd 0x0909 4 r c none s with modeOk := s.step10 }
    (fun _ s => (s.modCan c.toNat (fun x => { x with wakeUnconf := false, sieveFs := false }), .ok (canStatus c.toNat s))) s)

def CanStats.bytes (t : CanStats) : List Byte :=
  n64 t.sent ++ n64 t.received ++ n64 t.stored ++ n64 t.bytesSent ++ n64 t.bytesReceived ++ n64 t.arbLost
    ++ t.errors.flatMap n64 ++ n64 t.cancels ++ n64 t.late

def execCanStats (r : Req) (c clear : Byte) (s : State) : Result :=
  .next (runCmd r { canCmd 0x090A 4 r c (needStat (decide (clear.toNat ≤ 1)) stat_badPayload) s with modeOk := s.step10 }
    (fun _ s =>
      (if clear = 1 then s.modCan c.toNat (fun x => { x with stats := .zero }) else s, .ok (s.canCh c.toNat).stats.bytes)) s)

/-! ### At a start and at a VZF reset -/

/-- Step 10: the channel takes its record, reports what `PD_AON` recorded, and starts with `AUTO_START` (R297, R299, R315, R324). -/
def canConfigure (c : Nat) (f : CanRecord) (s : State) : State :=
  let x := s.canCh c
  let s := s.modCan c (fun x => { x with record := f, configured := true, sieve := s.cfg.image.sieves.getD sieveZero c
                                         flags := { x.flags with wakeUnconf := x.flags.wakeUnconf || x.wakeUnconf } })
  let s := if x.wakeUnconf then raiseCan evt_canWakeUnconfirmed c [] s else s
  let s := if x.sieveFs then raiseCan evt_canSieveFailsafe c [] s else s
  if canAutoStart f then canStartNow c s else s

/-- Step 1 of a VZF reset: an attempt on the bus becomes one of the old generation (R311). -/
def canQuiesce (c : Nat) (s : State) : State :=
  s.modCan c (fun x => { x with attempt := x.attempt.map (fun a => if s.canSoftEntry c a.entry then { a with old := true } else a) })

/-- Step 3: the VZF's TX entries return to software and its RX entries to hardware, zeroed, with the XL buffers and the fill
index; its awake requests end (R311). -/
def canZero (v c : Nat) (s : State) : State :=
  let soft := fun e => s.canSoftEntry c e
  (s.modCan c (fun x =>
    { x with tx := ⟨x.tx.cells.filter (fun y => !soft y.1)⟩, rx := .empty, rxFill := 0
             xlb := ⟨x.xlb.cells.filter (fun y => s.canSigBuf c y.1)⟩
             pending := x.pending.filter (fun e => !soft e)
             attempt := if x.attempt.any (fun a => soft a.entry) then none else x.attempt })).modNm c (fun n =>
    { n with holders := n.holders.filter (fun h => h != .vzf v) })

end Sys2Proof.Machine
end

