-- ==== Sys2Proof/Machine/FieldIn.lean ====
section
/-! DEFINITION. Discrete inputs (R178 to R181), analog inputs (R183, R184), sensor supplies (R185) and their commands. -/

namespace Sys2Proof.Machine

/-- Raise a field event of one input, supply or channel while the manager runs (R197). -/
def raiseFio (k : EvKind) (inst : Nat) (owner : Option Nat) (data : List Byte) (s : State) : State :=
  if s.mgrUp then raise k inst (.owned owner) data s else s

/-- Front end `h` is powered (R176). -/
def State.afeOn (s : State) (h : Nat) : Bool := s.powered (pdAfe h)

def State.modDi (s : State) (n : Nat) (f : DiInput → DiInput) : State :=
  { s with fio := { s.fio with di := s.fio.di.modify .reset n f } }

/-! ### Discrete inputs -/

/-- A threshold code in mV (Table 7.1). -/
def thMv (code : Nat) : Int := 2000 + 250 * (code : Int)

/-- A comparator with 0.2 V hysteresis: it rises at its threshold and falls below the threshold less 0.2 V. -/
def comparator (was : Bool) (mv th : Int) : Bool := if was then decide (th - 200 ≤ mv) else decide (th ≤ mv)

/-- Band of a sample: L 0, M 1, H 2 (R179). -/
def DiInput.band (d : DiInput) : Nat :=
  if d.rec_.wiring ≠ .none && d.cmpWb then 2 else if d.cmpTh then 1 else 0

/-- Raw state by band (Table 7.2). -/
def rawState (w : Wiring) (pullDown : Bool) (band : Nat) : DiVal :=
  match w, pullDown, band with
  | .none, _, 0 => .open_
  | .none, _, _ => .closed
  | .par, false, 0 => .closed
  | .par, false, 1 => .open_
  | .par, false, _ => .wireFault
  | .par, true, 0 => .wireFault
  | .par, true, 1 => .open_
  | .par, true, _ => .closed
  | .ser, false, 0 => .wireFault
  | .ser, false, 1 => .closed
  | .ser, false, _ => .open_
  | .ser, true, 0 => .open_
  | .ser, true, 1 => .closed
  | .ser, true, _ => .wireFault

/-- Both comparators take a voltage. -/
def DiInput.compare (d : DiInput) (mv : Int) : DiInput :=
  { d with cmpTh := comparator d.cmpTh mv (thMv d.rec_.vTh), cmpWb := comparator d.cmpWb mv (thMv d.rec_.vWb) }

def DiInput.raw (d : DiInput) : DiVal := rawState d.rec_.wiring d.rec_.pullDown d.band

/-- The filter of R180. -/
def DiInput.filter (d : DiInput) (raw : DiVal) : DiInput :=
  let n := d.rec_.n
  let d := if raw = .wireFault then { d with f := min n (d.f + 1) }
    else { d with f := d.f - 1, c := if raw = .closed then min n (d.c + 1) else d.c - 1 }
  let contact := if d.c = 0 then some false else if d.c = n then some true else d.contact
  let fault := if d.f = 0 then false else if d.f = n then true else d.fault
  { d with contact := contact, fault := fault }

/-- The state that the filter reports. -/
def DiInput.reported (d : DiInput) : DiVal :=
  if d.fault then .wireFault
  else match d.contact with
    | none => .notValid
    | some true => .closed
    | some false => .open_

/-- A change of the reported state (R181): flags and stamp, the wire events, an edge at CLOSED or HIGH for the capture units, the FIO
snapshot and the reflex rules. -/
def diChange (n : Nat) (old new : DiVal) (s : State) : State :=
  let t := s.modDi n (fun d => { d with state := new, chg := true, readChg := true, stamp := s.tb.count })
  let t := if new = .wireFault then raiseFio evt_fioDiWire n (s.diOwner n) [] t
    else if old = .wireFault then raiseFio evt_fioDiWireEnd n (s.diOwner n) [] t else t
  evalAtDi n old new (fioSnapUpdate (captureLevel n (decide (old = .closed)) (decide (new = .closed)) t))

/-- The input takes a new filter state and reports it. -/
def diPut (n : Nat) (d : DiInput) (new : DiVal) (s : State) : State :=
  let old := (s.diInput n).state
  let t := s.modDi n (fun _ => { d with state := old })
  if old = new then t else diChange n old new t

/-- A sample (R178 to R180). -/
def diSample (n : Nat) (mv : Int) (s : State) : State :=
  if s.afeOn (n / 32) then
    let d := (s.diInput n).compare mv
    let e := d.filter d.raw
    diPut n e e.reported s
  else s

def execDiSample (n : Fin 64) (mv : Int) (s : State) : Result := .next (diSample n.val mv s)

/-- The filter restarts with record `r`; the input reads not valid until C reaches 0 or N (R180). -/
def diRestart (n : Nat) (r : DiRecord) (s : State) : State := diPut n ((s.diInput n).restart r) .notValid s

/-- A read of `FIO_DI_STAMP_LO`: the latest change of an owned input, latching `FIO_DI_STAMP_HI` (Table 7.11). -/
def readDiStamp (v : Nat) (s : State) : State :=
  let own := (List.range 64).filter (fun n => decide (s.diOwner n = some v))
  if own.isEmpty then windowFault v s
  else
    let stamp := own.foldl (fun m n => max m (s.diInput n).stamp.toNat) 0
    let w : U64 := BitVec.ofNat 64 stamp
    { s with fio := { s.fio with diStampHi := s.fio.diStampHi.set v (w.extractLsb' 32 32) }
             bus := (w.extractLsb' 0 32).zeroExtend 64 }

def execFioDiStampLoRead (v : Fin 256) (s : State) : Result := .next (readDiStamp v.val s)

/-! ### Analog inputs and sensor supplies -/

def State.sup (s : State) (k : Nat) : SupState := s.fio.sup.getD .reset k

/-- Full scale of a range in µV (R183). -/
def aiFullScale : Nat → Int
  | 0 => 5000000
  | 1 => 16000000
  | _ => 32000000

/-- A code of R184: V × 16,384 ÷ full scale, at least 0; above 0x3FFE it clips. -/
def aiCode (uv full : Int) : Nat := if full ≤ 0 then 0x3FFE + 1 else (uv * 16384 / full).toNat

/-- The ratiometric supply of an input's record is `OK`; an input without one needs none. -/
def FioState.supFor (f : FioState) (a : AiConfig) : Bool := decide (a.ratio = 0) || (f.sup.getD .reset (a.ratio - 1)).ok

/-- What one sample of an input gives: its code, none where not valid, and whether it clipped. -/
def sampleCode (s : State) (a : AiConfig) (uv supUv : Int) : Option Nat × Bool :=
  let supOk := s.fio.supFor a
  let c := aiCode uv (if a.ratio = 0 then aiFullScale a.range else supUv)
  if supOk then (some (min c 0x3FFE), decide (0x3FFE < c)) else (none, false)

def sumCodes (h : List (Option Nat)) : Nat := h.foldl (fun a x => a + x.getD 0) 0

/-- `VALUE` of a code: mV, or 0.01 % of the supply (Table 7.14). -/
def aiValue (a : AiConfig) (code : Nat) : Nat :=
  if a.ratio ≠ 0 then code * 10000 / 16384 else code * (aiFullScale a.range / 1000).toNat / 16384

/-- The input takes a sample (R183, R184): it reports the mean of the last 2^k. The mean of fewer than 2^k valid samples is a FREE code:
the spec does not state it. -/
def AiInput.take (x : AiInput) (smp : Option Nat × Bool) (free : U16) : AiInput :=
  let n := 2 ^ x.cfg.k
  let hist := keepNewest 64 (smp.1 :: x.hist)
  let last := hist.take n
  let code := match smp.1 with
    | none => 0x3FFF
    | some _ => if last.length = n && last.all Option.isSome then sumCodes last / n else free.toNat % 0x3FFF
  { x with hist := hist, code := code, orange := smp.2, supf := smp.1.isNone, count := x.count + 1
           value := if code = 0x3FFF then 0xFFFF else aiValue x.cfg code }

/-- The input reads not valid while its front end is off and while its ratiometric supply is not `OK`, which `SUPF` shows (R184). -/
def AiInput.shown (x : AiInput) (powered supOk : Bool) : AiInput :=
  let y := { x with supf := !supOk }
  if powered && supOk then y else { y with code := 0x3FFF, value := 0xFFFF, orange := false }

/-- Every analog input under the supplies and front ends as they stand (R184). -/
def FioState.showAi (f : FioState) (afeOn : Nat → Bool) : FioState :=
  { f with ai := f.ai.updateKeys .reset (List.range 48) (fun n x => x.shown (afeOn (n / 24)) (f.supFor x.cfg)) }

/-- A supply or a record has changed: what the inputs show follows at once, for the exchange and the rules too. -/
def showAi (s : State) : State := evalRules (fioSnapUpdate { s with fio := s.fio.showAi s.afeOn })

/-- Sample input `n`. -/
def aiOne (n : Nat) (uv : Int) (sup : List (Nat × Nat)) (s : State) : State :=
  if s.afeOn (n / 24) then
    let x := s.aiInput n
    let supUv : Int := ((sup.getD (x.cfg.ratio - 1) (0, 0)).1 : Nat)
    let y := x.take (sampleCode s x.cfg uv supUv) (Config.free16 s.free)
    State.draw { s with fio := { s.fio with ai := s.fio.ai.set n y } }
  else s

/-- The supplies' measured voltage (µV) and current (mA) (Table 7.15). -/
def supMeasure (sup : List (Nat × Nat)) (s : State) : State :=
  (List.range 4).foldl (fun s k =>
    let m := sup.getD k (0, 0)
    if s.afeOn (k / 2) then
      { s with fio := { s.fio with sup := s.fio.sup.modify .reset k (fun x => { x with vMv := m.1 / 1000, iMa := m.2 }) } }
    else s) s

/-- All 48 inputs sample together (R183): voltages in µV. -/
def aiSample (uv : List Int) (sup : List (Nat × Nat)) (s : State) : State :=
  let s := supMeasure sup s
  evalRules (fioSnapUpdate ((List.range 48).foldl (fun s n => aiOne n (uv.getD n 0) sup s) s))

def execAiSample (uv : List Int) (sup : List (Nat × Nat)) (s : State) : Result := .next (aiSample uv sup s)

def State.modSup (s : State) (k : Nat) (f : SupState → SupState) : State :=
  { s with fio := { s.fio with sup := s.fio.sup.modify .reset k f } }

/-- Current limit for 10 ms, or more than 5.5 V forced: the supply turns off, one event an episode (R185). -/
def supFault (k : Nat) (forced : Bool) (s : State) : State :=
  let x := s.sup k
  if x.on && s.afeOn (k / 2) then
    let t := showAi (s.modSup k (fun x => { x with ok := false, ilim := x.ilim || !forced, extV := x.extV || forced }))
    if x.ilim || x.extV then t else raiseFio evt_fioSupFault k (s.supOwner k) [] t
  else s

def execSensorSupplyFault (sup : Fin 4) (forced : Bool) (s : State) : Result := .next (supFault sup.val forced s)

/-- A retry every 100 ms while switched on (R185). -/
def supRetry (k : Nat) (regulates : Bool) (s : State) : State :=
  let x := s.sup k
  if x.on && (x.ilim || x.extV) && regulates && s.afeOn (k / 2) then
    raiseFio evt_fioSupOk k (s.supOwner k) [] (showAi (s.modSup k (fun x => { x with ok := true, ilim := false, extV := false })))
  else s

def execSensorSupplyRetry (sup : Fin 4) (regulates : Bool) (s : State) : Result := .next (supRetry sup.val regulates s)

/-! ### Register words (Tables 7.12 to 7.15) -/

/-- Two bits a channel, 0b11 for channels that `own` does not cover. -/
def pack2 (lo : Nat) (own : Nat → Bool) (f : Nat → Nat) : U32 :=
  BitVec.ofNat 32 ((List.range 16).foldl (fun a j => a + (if own (lo + j) then f (lo + j) % 4 else 3) * 4 ^ j) 0)

def State.diCode (s : State) (n : Nat) : Nat := (s.diInput n).state.code

def AiInput.codeWord (x : AiInput) : U32 :=
  wordOf [(bit x.orange, 31), (bit x.supf, 30), (bit (decide (x.cfg.ratio ≠ 0)), 29), (x.code, 0)]

def AiInput.valWord (x : AiInput) : U32 := wordOf [(x.count.toNat, 16), (x.value % 65536, 0)]

def SupState.word (x : SupState) : U32 :=
  wordOf [(bit x.on, 31), (bit x.ok, 30), (bit x.ilim, 29), (bit x.extV, 28), (min 255 x.iMa, 16), (x.vMv % 65536, 0)]

/-! ### Commands (Table 7.19) -/

/-- Privilege O over the things `ns`: the first whose owner is not the port's own VZF decides (R62). -/
def ownersNeed (s : State) (r : Req) (own : Nat → Option Nat) (ns : List Nat) : Need :=
  let v := (s.port? r.port).bind (·.vzf)
  match ns.find? (fun n => decide (own n ≠ v) || v.isNone) with
  | some n => .owner (own n)
  | none => .any

/-- Privilege O for a read of all that the port's VZF owns of `count` things: it must own one (R62). -/
def ownsOneNeed (s : State) (r : Req) (own : Nat → Option Nat) (count : Nat) : Need :=
  .owner (((s.port? r.port).bind (·.vzf)).filter (fun v => (List.range count).any (fun n => decide (own n = some v))))

/-- What a port may see: everything with the system privilege, else what its VZF owns. R199 does not say what a read shows of the rest:
the model shows them as the data path does, states 0b11 and single bits 0 (DESIGN CHOICE, log entry 132). -/
def seen (p : Port) (own : Nat → Option Nat) (n : Nat) : Bool := p.sysPriv || (p.vzf.isSome && decide (own n = p.vzf))

def wiringOf : Nat → Wiring
  | 1 => .par
  | 2 => .ser
  | _ => .none

def diRecordOf (f : DiFields) : DiRecord :=
  { vTh := f.vTh.toNat, vWb := f.vWb.toNat, iW := (f.flags.extractLsb' 0 2).toNat, pulsed := flagOf f.flags 2,
    pullDown := flagOf f.flags 3, wiring := wiringOf (f.flags.extractLsb' 4 2).toNat, tPw := f.tPw.toNat, tS := f.tS.toNat,
    n := f.n.toNat }

/-- R178. -/
def DiRecord.conflict (r : DiRecord) : Bool :=
  (decide (r.wiring ≠ .none) && decide (r.vWb < r.vTh + 4)) || (r.pulsed && decide (r.tS < 10 * r.tPw + 10))
    || (decide (r.iW = 3) && decide (r.wiring ≠ .none))

def DiRecord.rangeOk (r : DiRecord) : Bool :=
  decide (r.vTh ≤ 112) && decide (r.vWb ≤ 112) && decide (1 ≤ r.tPw) && decide (r.tPw ≤ 20) && decide (1 ≤ r.tS)
    && decide (r.tS ≤ 1000) && decide (1 ≤ r.n)

def execFioDiConfig (r : Req) (input : U16) (f : DiFields) (s : State) : Result :=
  .next (runCmd r { code := 0x0501, lenOk := decide (r.len = 20)
                    need := if input.toNat ≤ 63 then .owner (s.diOwner input.toNat) else .any
                    payload := orStat (needStat (decide (input.toNat ≤ 63)) stat_range)
                      (orStat (needStat (decide (f.flags.toNat < 48)) stat_badPayload)
                        (orStat (needStat (diRecordOf f).rangeOk stat_range) (needStat (!(diRecordOf f).conflict) stat_fioConflict)))
                    modeOk := s.sys.mode.isRunLimpWork }
    (fun _ s => (diRestart input.toNat (diRecordOf f) s, .ok [])) s)

/-- The states, the changes since the last read and the waking inputs; the changes that it returns clear. -/
def diReadBody (p : Port) (s : State) : State × Reply :=
  let own := seen p s.diOwner
  let chg := maskOf 64 (fun n => own n && (s.diInput n).readChg)
  ({ s with fio := { s.fio with di := s.fio.di.mapAll (fun n d => { d with readChg := d.readChg && !own n }) } },
    .ok ((List.range 4).flatMap (fun k => le32 (pack2 (16 * k) own s.diCode)) ++ n64 chg ++ le16 s.fio.waking ++ zeros 6))

def execFioDiRead (r : Req) (s : State) : Result :=
  .next (runCmd r { code := 0x0502, lenOk := decide (r.len = 0), need := ownsOneNeed s r s.diOwner 64, payload := none, modeOk := s.sys.mode.isServing }
    diReadBody s)

/-- A new record (R183). The samples stay where range and source stay, so a new k means over them at once; codes of another scale do not
count for the new one (DESIGN CHOICE, log entry 57). -/
def AiInput.configure (x : AiInput) (a : AiConfig) : AiInput :=
  { x with cfg := a, hist := if x.cfg.range = a.range ∧ x.cfg.ratio = a.ratio then x.hist else [] }

def aiConfigBody (n : Nat) (a : AiConfig) (s : State) : State × Reply :=
  (showAi { s with fio := { s.fio with ai := s.fio.ai.modify .reset n (fun x => x.configure a) } }, .ok [])

def execFioAiConfig (r : Req) (input : U16) (range ratio k : Byte) (s : State) : Result :=
  .next (runCmd r { code := 0x0503, lenOk := decide (r.len = 8)
                    need := if input.toNat ≤ 47 then .owner (s.aiOwner input.toNat) else .any
                    payload := orStat (needStat (decide (input.toNat ≤ 47)) stat_range)
                      (orStat (needStat (decide (range.toNat ≤ 2) && decide (ratio.toNat ≤ 4)) stat_badPayload)
                        (orStat (needStat (decide (k.toNat ≤ 6)) stat_range)
                          (needStat (decide (ratio = 0) || decide (range = 0)) stat_fioConflict)))
                    modeOk := s.sys.mode.isRunLimpWork }
    (fun _ s => aiConfigBody input.toNat { range := range.toNat, ratio := ratio.toNat, k := k.toNat } s) s)

def execFioAiRead (r : Req) (first count : U16) (s : State) : Result :=
  let ns := (List.range count.toNat).map (fun i => first.toNat + i)
  let ok := decide (1 ≤ count.toNat) && decide (count.toNat ≤ 48) && decide (first.toNat + count.toNat ≤ 48)
  .next (runCmd r { code := 0x0504, lenOk := decide (r.len = 4), need := if ok then ownersNeed s r s.aiOwner ns else .any
                    payload := needStat ok stat_range, modeOk := s.sys.mode.isServing }
    (fun _ s => (s, .ok (ns.flatMap (fun n => le32 (s.aiInput n).codeWord ++ le32 (s.aiInput n).valWord)))) s)

/-- Switched on, a supply regulates; switched off, its faults end (R185). -/
def supSetBody (k : Nat) (on : Bool) (s : State) : State × Reply :=
  let t := showAi (s.modSup k (fun x =>
    if on then { x with on := true, ok := x.ok || (!x.on && s.afeOn (k / 2)) }
    else { x with on := false, ok := false, ilim := false, extV := false }))
  (t, .ok (le32 (t.sup k).word))

def execFioSupSet (r : Req) (supply on : Byte) (s : State) : Result :=
  .next (runCmd r { code := 0x0505, lenOk := decide (r.len = 4)
                    need := if supply.toNat ≤ 3 then .owner (s.supOwner supply.toNat) else .any
                    payload := orStat (needStat (decide (supply.toNat ≤ 3)) stat_range)
                      (needStat (decide (on.toNat ≤ 1)) stat_badPayload)
                    modeOk := s.sys.mode.isRunLimpWork }
    (fun _ s => supSetBody supply.toNat (decide (on = 1)) s) s)

def execFioCyclicSense (r : Req) (mask tCyc : U16) (k : Byte) (s : State) : Result :=
  .next (runCmd r { code := 0x0506, lenOk := decide (r.len = 8), need := .system
                    payload := needStat (decide (10 ≤ tCyc.toNat) && decide (tCyc.toNat ≤ 1000) && decide (1 ≤ k.toNat)
                      && decide (k.toNat ≤ 8)) stat_range
                    modeOk := s.sys.mode.isRunWork }
    (fun _ s => ({ s with fio := { s.fio with cycMask := mask, tCyc := tCyc.toNat, cycK := k.toNat } }, .ok [])) s)

end Sys2Proof.Machine
end

