-- ==== Sys2Proof/Machine/Sleep.lean ====
section
/-! DEFINITION. Bivouac: its entry, its end and its wake sources (R34 to R36, R120, R182, R258 to R260, R321 to R324, R382). -/

namespace Sys2Proof.Machine

/-! ### Entry -/

/-- Consent of the ring and of the bridge (R34, R169). -/
def State.sleepReady (s : State) : Bool :=
  decide (s.ring.sleepAt ≠ 0) && s.sleepAllowed && decide (s.sys.bivouac = .none)

/-- Step 1 (R35, R36, R182): the wake sources are armed, the record clears, and each cyclic sense input takes its reference. -/
def armWakes (trigger : Nat) (s : State) : State :=
  let cyc : Tbl CycSense := ⟨(List.range 16).map (fun n =>
    let d := s.diInput n
    (n, { rec_ := d.rec_, ref := if d.state = .notValid then none else some d.state, differ := 0 }))⟩
  { s with
    sys := { s.sys with wake := .zero, bivouac := .entering, startTrigger := trigger, wakeLatched := false }
    fio := { s.fio with cyc := cyc, waking := 0 }
    net := { s.net with can := s.net.can.mapAll (fun _ x => { x with sieveErr := 0 }) } }

/-- Step 2 (R23, R35, R120): every die takes its keep-alive states, and every other channel that is on turns off and stays off
until software commands it again. -/
def sleepOutputs (s : State) : State :=
  let cs := (List.range 112).foldl (fun cs i =>
    match s.ch.keepSet.find? (fun e => e.1 = i) with
    | some e =>
      let cs := cs.modChan i (fun c => { c with keep := some { out := e.2 }, gated := none })
      if s.twinFed i then cs.modChan i (fun c => c.switch i .off (if c.grd.blocks then 6 else 5) s.now (s.watches i c))
      else cs.keepOn s i e.2
    | none =>
      let on := !(cs.chans.getD .reset (bridgeIdx i)).out.isOff
      let cs := offIn s cs i (cs.chans.getD .reset i).src
      if on then cs.modChan i (fun c => { c with grd := { c.grd with needsCmd := true } }) else cs) s.ch
  let cs := allDies.foldl (fun cs g => if s.dieHears g then cs.modDie g (fun d => { d with keeping := true }) else cs) cs
  { s with ch := cs }

/-- Bivouac entry up to step 3; step 4 begins when the ring sleeps or when the entry is done (R35, R259). -/
def bivouacEnter (trigger : Nat) (s : State) : State := sleepOutputs (twinRelease (armWakes trigger s))

/-- Step 3 ends (R35): every stone is in NAND. -/
def flushLog (s : State) : State := { s with log := { s.log with stones := s.log.stones.mapAll (fun _ x => { x with copied := true }) } }

/-- Step 4 begins: a wake is latched from here on (R35); in Bivouac the bridge is stopped (R168) and port 0 does not exist (R61). -/
def bivouacSwitch (s : State) : State :=
  let t := setMode .bivouac s.sys.startTrigger (enterStopped (flushLog s))
  { t with sys := { t.sys with bivouac := .switching }, mbx := { t.mbx with ports := t.mbx.ports.erase 0 } }

/-- A start from Bivouac (R35, R497). -/
def wakeStart (s : State) : State :=
  { s with sys := { s.sys with mode := .startup, prevMode := .bivouac, startTrigger := 0x0C, fromBivouac := true, bivouac := .none
                               wakeLatched := false } }

/-- Step 4 ends (R35, R46, R47): `PD_AON` and `PD_TB` alone stay powered. -/
def bivouacDone (s : State) : State :=
  if s.sys.bivouac = .none || s.sys.bivouac = .asleep then s
  else
    let s := if s.sys.bivouac = .entering then bivouacSwitch s else s
    let latched := s.sys.wakeLatched
    let s := { s with ch := { s.ch with dies := s.ch.dies.mapAll (fun _ d => { d with silenceFrom := d.lastFrame }) } }
    let t := logicStop s
    let t := { t with sys := { t.sys with bivouac := .asleep, phase := .waiting, domains := [pdAon, pdTb] }
                      tb := { t.tb with bivFrac := 0 } }
    if latched then wakeStart t else t

def execBivouacEntryDone (s : State) : Result := .next (bivouacDone s)

/-- `SYS.SLEEP` (R34, R169). -/
def sysSleepBody (s : State) : State × Reply :=
  if s.sleepReady then (bivouacEnter 0x0A s, .ok []) else (s, .fail stat_badState)

def execSysSleep (r : Req) (s : State) : Result :=
  .next (runCmd r { code := 0x0122, lenOk := decide (r.len = 0), need := .system, payload := none
                    modeOk := decide (s.sys.mode = .run) }
    (fun _ s => sysSleepBody s) s)

/-- The auto-sleep condition (R34). -/
def execAutoSleep (s : State) : Result := .next (if s.autoReady && s.sleepReady then bivouacEnter 0x0B s else s)

/-! ### Wake -/

/-- A wake source fires (R35, R36): before step 4 the entry is abandoned, after it the wake is latched, and asleep the module
starts. Awake, it is a wake request of the station's own (R258). -/
def wakeUp (mark : WakeCause → WakeCause) (s : State) : State :=
  let note := { s with sys := { s.sys with wake := mark s.sys.wake } }
  match s.sys.bivouac with
  | .entering =>
    let t := cancelKeep { note with sys := { note.sys with bivouac := .none, wakeReq := true } }
    urgent (raise evt_sleepAborted noInst .wide [] t)
  | .switching => { note with sys := { note.sys with wakeLatched := true } }
  | .asleep => wakeStart note
  | .none =>
    if s.mgrUp then { s with sys := { s.sys with wakeReq := true }, ring := { s.ring with consentCmd := false } } else s

def execWakeNAssert (s : State) : Result := .next (wakeUp (fun w => { w with wakePin := true }) s)

/-- A port in the configuration is armed (Table 2.7). -/
def execPortTc10Wake (p : Fin 8) (s : State) : Result :=
  .next (if s.sys.bivouac ≠ .none && s.cfg.image.domains.contains (pdPort p.val) then
    wakeUp (fun w => { w with portP := w.portP ||| BitVec.ofNat 8 (2 ^ p.val) }) s
  else s)

/-- A ring wake, repeated on the other port with `WAKE_FWD` (R260). -/
def ringWake (p : Nat) (s : State) : State :=
  if s.sys.bivouac ≠ .none then
    let s := s.modRing (fun r => { r with tc10 := if s.ringSec.wakeFwd then [otherPort p] else r.tc10 })
    wakeUp (fun w => if p = 0 then { w with ringE := true } else { w with ringW := true }) s
  else if s.ring.phase = .asleep then s.modRing (fun r => { r with phase := .active })
  else s

def execRingTc10Wake (port : Fin 2) (s : State) : Result := .next (ringWake port.val s)

/-- The ring's links sleep (R259). A station that does not enter Bivouac sends a wake request, and the ring forms again (R245). -/
def ringSleepNow (s : State) : State :=
  let stop (phase : RingPhase) (tc10 : List Nat) (s : State) : State := s.modRing (fun r =>
    { RingState.reset with phase := phase, sectionOk := r.sectionOk, mismatch := r.mismatch, recorded := r.recorded, wire := r.wire, tc10 := tc10
                           own := r.own })
  if s.ring.phase ≠ .active || s.ring.sleepAt = 0 then s
  else if s.sys.bivouac = .entering then stop .asleep [] (bivouacSwitch s)
  else
    let t := stop .active [0, 1] s
    { t with sys := { t.sys with wakeReq := true } }

def execRingSleep (s : State) : Result := .next (ringSleepNow s)

/-- One cyclic sample (R182). The comparators of R178 start anew at each sample: the spec does not carry their hysteresis from one cycle to
the next (DESIGN CHOICE, log entry 137). -/
def cycSample (n : Nat) (mv : Int) (s : State) : State :=
  if s.sys.bivouac = .none || !s.fio.cycMask.getLsbD n then s
  else
    let c := s.fio.cyc.getD .reset n
    let raw := ((DiInput.reset.restart c.rec_).compare mv).raw
    let put (c : CycSense) (s : State) : State := { s with fio := { s.fio with cyc := s.fio.cyc.set n c } }
    match c.ref with
    | none => put { c with ref := some raw, differ := 0 } s
    | some r =>
      if raw = r then put { c with differ := 0 } s
      else
        let s := put { c with differ := c.differ + 1 } s
        if s.fio.cycK ≤ c.differ + 1 then
          wakeUp (fun w => { w with di := true }) { s with fio := { s.fio with waking := s.fio.waking ||| BitVec.ofNat 16 (2 ^ n) } }
        else s

def execCyclicSenseSample (n : Fin 16) (mv : Int) (s : State) : Result := .next (cycSample n.val mv s)

/-- The RTC alarm (R382). Asleep, the start that follows raises the event. -/
def rtcExpire (s : State) : State :=
  match s.tb.alarm with
  | none => s
  | some _ =>
    let s := { s with tb := { s.tb with alarm := none } }
    let s := if s.mgrUp then raise evt_timeRtcAlarm noInst .wide [] s else s
    if s.sys.bivouac ≠ .none then wakeUp (fun w => { w with rtc := true }) s else s

def execRtcAlarmExpiry (s : State) : Result := .next (rtcExpire s)

/-! ### CAN transceivers in low power -/

/-- A frame matches the sieve (R322). -/
def sieveHits (v : Sieve) (f : CanFrame) : Bool :=
  decide (f.fmt.val = 0) && !f.rtr && (f.ide == v.ide) && decide ((f.id.setWidth 32 ^^^ v.id) &&& v.mask = 0)
    && decide (f.dlen = v.dlc.toNat)
    && (v.dataMask.all (fun b => decide (b = 0)) || (f.data.zip v.dataMask).any (fun p => decide (p.1 &&& p.2 ≠ 0)))

/-- The channel wakes (R321, R324): a configured one goes to normal mode while the module runs. -/
def canWoke (c : Nat) (s : State) : State :=
  if s.sys.bivouac ≠ .none then
    wakeUp (fun w => { w with can := w.can ||| BitVec.ofNat 16 (2 ^ c) }) (s.modCan c (fun x => { x with waking := x.waking || decide (x.xcvr = .lowPower) }))
  else
    let t := if s.mgrUp then raiseCan evt_canWake c [] s else s
    if t.step10 && (t.canCh c).configured then canWakeCh c t else t.modCan c (fun x => { x with waking := true })

/-- A wake-up pattern, a frame received without error, or one received with an error, at a low-power transceiver (R321 to R323), or at
one that the Bivouac entry has armed while it still runs (R35). -/
def canLowPower (c : Nat) (pattern : Bool) (f : Option CanFrame) (s : State) : State :=
  let x := s.canCh c
  if x.waking || !(decide (x.xcvr = .lowPower) || (decide (s.sys.bivouac ≠ .none) && decide (x.record.wake ≠ 0))) then s
  else if x.record.wake = 1 then (if pattern then canWoke c s else s)
  else if x.record.wake = 2 && !pattern then
    match f with
    | some f =>
      let s := s.modCan c (fun x => { x with sieveErr := x.sieveErr - 1 })
      if sieveHits x.sieve f then canWoke c s else s
    | none =>
      let s := s.modCan c (fun x => { x with sieveErr := x.sieveErr + 1 })
      if 32 ≤ x.sieveErr + 1 then
        let s := s.modCan c (fun x => { x with sieveFs := true })
        canWoke c (if s.mgrUp && x.configured then raiseCan evt_canSieveFailsafe c [] s else s)
      else s
  else s

def execCanLowPowerFrame (c : Fin 16) (pattern : Bool) (f : Option CanFrame) (s : State) : Result :=
  .next (canLowPower c.val pattern f s)

end Sys2Proof.Machine
end

