-- ==== Sys2Proof/Machine/Basecamp.lean ====
section
/-! DEFINITION. Entry to Basecamp (R57, R58), device-integrity restarts (R507), and what takes the ZM9 out of a mode: the supply,
the clock monitor, the loss of a Run-service item, the watchdog and the logic die's temperature (R45, R50, R154, R470, R500). -/

namespace Sys2Proof.Machine

/-! ### Basecamp -/

/-- Every hold setting goes to OFF (R58); a channel that holds on a live link turns off. -/
def holdsOff (s : State) : State :=
  let cs := (List.range 112).foldl (fun cs i =>
    let c := cs.chans.getD .reset i
    let cs := cs.modChan i (fun c => { c with holdOvr := some (false, c.prof.tHold) })
    if c.hold = .holding && s.dieHears (i / 14) then (offIn s cs i 3).modChan i (fun c => { c with hold := .expired }) else cs) s.ch
  { s with ch := cs }

/-- Domains in Basecamp (Table 2.7): the minimum service set, both ring ports and CAN0 as possible download ports. -/
def basecampDomains : List Nat := [0, 1, 16, 36, 37, 54, 87, 90, 95]

/-- Only the ROM's services remain: what the logic held is lost, self-arrest stays in force, the encoder sends RELEASE, and port 0
opens in a new epoch; CAN0 runs at the Basecamp bit rates (R49, R58, R261, R446). -/
def romService (status : U16) (s : State) : State :=
  let t := logicStop s
  let t := { t with
    rfx := { t.rfx with arrested := true, arrestRaised := true, source := s.rfx.source, noLimp := true }
    twin := { t.twin with line := s.twin.line }
    sys := { t.sys with rootLock := s.sys.rootLock, onRef := s.sys.onRef, fromBivouac := s.sys.fromBivouac, domains := basecampDomains
                        basecampStatus := status }
    net := { t.net with can := t.net.can.modify .reset 0 (fun x => x.romOpen (s.sys.rootLock && !s.sys.onRef)) } }
  openService 5 ((s.ring.recorded.map (·.2)).getD 0) (ringBasecamp t)

/-- Entry to Basecamp (R58): RELEASE, self-arrest with source 7, hold settings OFF, bridge stopped, domains off. From Workshop it
counts as a start. -/
def basecampEnter (status : U16) (s : State) : State :=
  let s := if s.sys.mode = .workshop then { s with sys := { s.sys with bootCount := s.sys.bootCount + 1 } } else s
  let s := enterStopped (holdsOff (arrestOnly 7 (le16 status) (twinRelease s)))
  romService status (urgent (setMode .basecamp 0x0D s))

/-! ### Device-integrity restarts -/

/-- The self-arrest of a device-integrity restart (R507): Run and Workshop, also one under an earlier self-arrest, go to Limp without its
limp table. -/
def integrityArrest (source : Nat) (detail : List Byte) (s : State) : State :=
  let t := selfArrest source detail { s with rfx := { s.rfx with noLimp := true } }
  if t.sys.mode.isRunWork then limpEntry trigArrest t else t

/-- A device-integrity restart (R507): self-arrest, the event of its cause where it has one of its own, then Start-up. -/
def integrityRestart (source : Nat) (detail : List Byte) (event : Option EvKind) (s : State) : State :=
  let t := integrityArrest source detail s
  restart 0x0E (match event with
    | some k => raise k noInst .wide [] t
    | none => t)

/-- An uncorrectable fault of the rule table (R216): self-arrest with source 10 and the rule's number, the event, and a restart. -/
def ruleFault (detail : List Byte) (s : State) : State := integrityRestart 10 detail (some evt_rfxTableFault) s

def tableFault (detail : List Byte) (s : State) : State := if s.rfx.enabled && s.mgrUp then ruleFault detail s else s

/-- A digest mismatch names no rule, so the detail of the self-arrest is a FREE value (log entry 57). -/
def State.digestDetail (s : State) : List Byte := le16 (Config.free16 s.free)

/-- The read-back of 100 ms (R215, R216): the single-bit errors that it corrects are counted. -/
def ruleCheck (ok : Bool) (corrected : U16) (s : State) : State :=
  if !s.rfx.enabled || !s.mgrUp then s
  else
    let s := { s with rfx := { s.rfx with corrected := s.rfx.corrected + corrected.toNat, checked := ok } }
    if ok then s else tableFault s.digestDetail s.draw

def execRuleTableCheck (ok : Bool) (corrected : U16) (s : State) : Result := .next (ruleCheck ok corrected s)

def execRuleTableEccError (rule : Fin 1024) (s : State) : Result := .next (tableFault (n16 rule.val) s)

/-- The clock monitor trips (R50): the clocks on the reference, self-arrest with source 5, the event, and a restart. Table 2.2 has no such
way out of Basecamp, which stays on the reference (DEDUCED, log entry 17). -/
def clockTrip (s : State) : State :=
  if !s.mgrUp || !s.sys.rootLock then s
  else
    let s := { s with sys := { s.sys with onRef := true } }
    let t := if s.sys.mode = .basecamp then
        raise evt_clkLockLost noInst .wide [] (selfArrest 5 [] (s.modCan 0 (fun x => { x with record := romCanRecord false })))
      else integrityRestart 5 [] (some evt_clkLockLost) s
    { t with sys := { t.sys with monTrip := true } }

def execClockMonitorTrip (s : State) : Result := .next (clockTrip s)

/-- Number of a Run-service item in `EVT_RFX_SELF_ARREST`: FREE, since the spec gives the items no numbers. -/
def runItemIndex : RunItem → Nat
  | .manager => 0
  | .fab1 => 1
  | .pairs => 2
  | .rfx => 3
  | .tb => 4
  | .links => 5

/-- The loss of an item in Run self-arrests and leads to Limp; that of the reflex engine or of `PD_FAB1` restarts (R45). -/
def serviceLoss (item : RunItem) (s : State) : State :=
  let detail := le16 (Config.runItem (runItemIndex item))
  if !s.mgrUp || !s.sys.mode.isServing then s
  else if item = .rfx ∨ item = .fab1 then integrityRestart 4 detail none s
  else if s.sys.mode = .run then selfArrest 4 detail s
  else s

def execRunServiceLoss (item : RunItem) (s : State) : Result := .next (serviceLoss item s)

/-- The watchdog (R470, R507): self-arrest with source 4 and a restart, without the change to Limp. -/
def watchdog (s : State) : State :=
  if !s.mgrUp || !s.sys.mode.isServing then s
  else
    let s := arrestOnly 4 (le16 (Config.runItem 0)) { s with rfx := { s.rfx with noLimp := true } }
    restartCause 0x0E (raise evt_mgrWatchdog noInst .wide [] s)

def execManagerWatchdog (s : State) : Result := .next (watchdog s)

/-! ### The logic supply -/

/-- The logic supply is valid and the reference has yet to run (R154, R497). A logic feed failure has left the old mode. -/
def supplyValid (s : State) : State :=
  if s.sys.phase = .unpowered then
    let off := decide (s.sys.mode = .off)
    { s with sys := { s.sys with phase := .waiting, mode := .startup, prevMode := if off then .off else s.sys.prevMode
                                 porPending := true, monTrip := false } }
  else s

def execLogicSupplyValid (s : State) : Result := .next (supplyValid s)

/-- The logic is unpowered: the module is Off (chapter 1), and the next start follows a power-on reset. -/
def goOff (trigger : Nat) (s : State) : State :=
  let t := logicStop (abortTests s)
  { t with sys := { t.sys with phase := .unpowered, mode := .off, prevMode := s.sys.mode, porPending := true, startTrigger := trigger
                               dieHot := false } }

/-- Both supplies are lost (R28): a stone survives through its finished copy alone (R474), and the pair is open (R18). On a 12 V boardnet
no group keeps a supply (R17). -/
def powerLoss (s : State) : State :=
  let t := goOff 1 (feedLoss s)
  { t with
    log := { t.log with stones := ⟨t.log.stones.cells.filter (fun c => c.2.copied)⟩ }
    brg := { t.brg with pairOn := false, vinOk := false }
    sys := { t.sys with pairClass := none } }

def execPowerLoss (s : State) : Result := .next (powerLoss s)

/-- The feed stays below 8.0 V: once per start (R154). -/
def feedLow (s : State) : State :=
  if s.mgrUp && !s.sys.logicLowRaised then
    raise evt_brgLogicLow noInst .wide [] { s with sys := { s.sys with logicLowRaised := true } }
  else s

def execLogicFeedLow (s : State) : Result := .next (feedLow s)

/-- The reset of a logic feed failure ends in Start-up, from the mode in which it began (Table 2.2). -/
def feedReset (trigger : Nat) (s : State) : State :=
  let t := goOff trigger s
  { t with sys := { t.sys with mode := .startup } }

/-- The feed falls below 6.0 V (R154): self-arrest with source 6, the stone, and the logic die in reset until the supply is valid
again. The trigger of the next start is that of its row of Table 2.2; in Bivouac no source is left, and the module is Off (DEDUCED, log
entry 14). -/
def feedFail (s : State) : State :=
  if s.sys.phase = .unpowered then s
  else
    let t := if s.mgrUp then raise evt_brgPowerFail noInst .wide [] (arrestOnly 6 [] s) else s
    match s.sys.mode with
    | .off | .bivouac => goOff 1 t
    | .limp | .basecamp => feedReset 0x10 t
    | _ => feedReset 0x0F t

def execLogicFeedFail (s : State) : Result := .next (feedFail s)

/-! ### Temperature of the logic die (R500) -/

/-- At 125 °C the event goes to a stone and the logic die is held in reset; the module does not self-arrest. -/
def logicOvertemp (temp : Int) (s : State) : State :=
  if !s.mgrUp then s
  else
    let t := restart 0x0F (raise evt_pkgLogicOvertemp noInst .wide (i16 temp) s)
    { t with sys := { t.sys with dieHot := true } }

def execLogicDieOvertemp (temp : Int) (s : State) : Result := .next (logicOvertemp temp s)

/-- Below 115 °C the reset may be released. -/
def execLogicDieCooled (s : State) : Result := .next { s with sys := { s.sys with dieHot := false } }

/-! ### Temperature of the baseplate (R500); temperatures are in 0.1 °C -/

/-- Above 88 °C for 1 s: once per episode. -/
def baseHot (temp : Int) (s : State) : State :=
  let t := { s with sys := { s.sys with baseTemp := temp } }
  if s.mgrUp && !s.sys.hotEpisode then
    raise evt_pkgHot noInst .wide (i16 temp) { t with sys := { t.sys with hotEpisode := true } }
  else t

def execBaseplateHot (temp : Int) (s : State) : Result := .next (baseHot temp s)

/-- The loss limit in mW: 3.2 W less per kelvin above 95 °C, to 0. -/
def lossLimit (temp : Int) : Nat := if temp ≤ 950 then 32000 else 32000 - 320 * (temp - 950).toNat

/-- Above 95 °C: the loss limit falls, and the event once per episode. -/
def baseOver (temp : Int) (s : State) : State :=
  let t := { s with sys := { s.sys with baseTemp := temp, lossLimitMw := lossLimit temp } }
  if s.mgrUp && !s.sys.overEpisode then
    raise evt_pkgOvertemp noInst .wide (i16 temp) { t with sys := { t.sys with overEpisode := true } }
  else t

def execBaseplateOvertemp (temp : Int) (s : State) : Result := .next (baseOver temp s)

/-- Below 93 °C and below 85 °C the episodes end. -/
def baseCooled (temp : Int) (s : State) : State :=
  { s with sys := { s.sys with baseTemp := temp, lossLimitMw := lossLimit temp, overEpisode := s.sys.overEpisode && decide (930 ≤ temp)
                               hotEpisode := s.sys.hotEpisode && decide (850 ≤ temp) } }

def execBaseplateCooled (temp : Int) (s : State) : Result := .next (baseCooled temp s)

end Sys2Proof.Machine
end

