-- ==== Sys2Proof/Machine/ReflexCmds.lean ====
section
/-! DEFINITION. `SAFE_N` (R210), the limp-table timer (R213), edge windows (R201) and the RFX commands (R215, R219). -/

namespace Sys2Proof.Machine

/-- `SAFE_N` after its filter changes; its release is the rising edge of capture source 0x200 (Table 13.5). -/
def safeNTo (low : Bool) (s : State) : State :=
  captureLevel 0x200 (!s.rfx.safeN) (!low) { s with rfx := { s.rfx with safeN := low } }

/-- `SAFE_N` acts from step 13 of Start-up (R210); with `SNA` it self-arrests with source 1. -/
def safeNAssert (s : State) : State :=
  let s := safeNTo true s
  if s.rfx.enabled then evalRules (if s.rfx.sna then selfArrest 1 [] s else s) else s

def execSafeNAssert (s : State) : Result := .next (safeNAssert s)

def execSafeNRelease (s : State) : Result :=
  .next (evalRules (safeNTo false s))

/-- t_LIMP after a self-arrest: in Limp, or in Workshop after it, each output takes its limp-table value; otherwise at Limp entry (R213). -/
def limpTimer (s : State) : State :=
  if !s.rfx.arrested || !s.mgrUp then s
  else
    let s := { s with rfx := { s.rfx with limpDue := true } }
    if (decide (s.sys.mode = .limp) || decide (s.sys.mode = .workshop)) && !s.rfx.noLimp && !s.rfx.limpApplied then
      pushAll { s with rfx := { s.rfx with limpApplied := true } }
    else s

def execLimpTableTimer (s : State) : Result := .next (limpTimer s)

/-- The window of one edge predicate ends (Table 8.5). -/
def execEdgeWindowEnd (rule : Fin 1024) (slot : Fin 4) (s : State) : Result :=
  .next (evalRules (s.modRule rule.val (fun x => { x with edge := x.edge.set slot.val false })))

/-! ### RFX commands (Table 8.14) -/

/-- `RFX.LOAD_RULE`: the record replaces the old one and clears its state; the rules are evaluated in the same cycle. -/
def loadRuleBody (n : Nat) (f : RuleFields) (s : State) : State × Reply :=
  match ruleOwnership s (ruleOf f) with
  | some st => (s, .fail st)
  | none => (evalRules (s.modRule n (fun _ => { RuleRun.reset with rule := ruleOf f, byCommand := true })), .ok [])

def execRfxLoadRule (r : Req) (rule : U16) (f : RuleFields) (s : State) : Result :=
  .next (runCmd r { code := 0x0601, lenOk := decide (r.len = 44), need := .system
                    payload := orStat (needStat (decide (rule.toNat ≤ 1023)) stat_range) (ruleContent f)
                    modeOk := decide (s.sys.mode = .workshop) }
    (fun _ s => loadRuleBody rule.toNat f s) s)

/-- The rules that a span names. -/
def span (first count : Nat) : List Nat := (List.range count).map (fun i => first + i)

def spanStat (first count : Nat) : Option U16 :=
  needStat (decide (1 ≤ count) && decide (count ≤ 64) && decide (first + count ≤ 1024)) stat_range

/-- Owner of rule `n` for privilege O: none for a system rule, an unused rule or a missing VZF (R206). -/
def State.ruleOwner (s : State) (n : Nat) : Option Nat :=
  let r := (s.rule n).rule
  if r.sysr || !(s.vzf r.owner).exists_ then none else some r.owner

/-- Privilege O over several rules: the first owner that is not the port's own VZF decides; a number above 1,023 names no rule (R62,
R219). -/
def rulesNeed (s : State) (r : Req) (ns : List Nat) : Need :=
  let own := (s.port? r.port).bind (·.vzf)
  if ns.any (fun n => decide (1023 < n)) then .any
  else match ns.find? (fun n => decide (s.ruleOwner n ≠ own) || own.isNone) with
  | some n => .owner (s.ruleOwner n)
  | none => .owner own

/-- Enable and re-arm; a suspended rule is released (R204, R207). -/
def RuleRun.enable (x : RuleRun) : RuleRun :=
  { x with rule := { x.rule with en := true }, active := x.active && !x.latched && !x.suspended, latched := false, suspended := false }

def RuleRun.disable (x : RuleRun) : RuleRun :=
  { x with rule := { x.rule with en := false }, active := false, latched := false }

/-- A rule of the span whose owner VZF does not exist. -/
def State.orphanRule (s : State) (n : Nat) : Bool :=
  let r := (s.rule n).rule
  !r.isEmpty && !r.sysr && !(s.vzf r.owner).exists_

def enableBody (ns : List Nat) (s : State) : State × Reply :=
  if ns.any s.orphanRule then (s, .fail stat_rfxNoOwner)
  else (evalRules { s with rfx := { s.rfx with rules := s.rfx.rules.updateKeys .reset ns (fun _ x => x.enable) } }, .ok [])

def disableBody (ns : List Nat) (s : State) : State × Reply :=
  (evalRules { s with rfx := { s.rfx with rules := s.rfx.rules.updateKeys .reset ns (fun _ x => x.disable) } }, .ok [])

def execRfxEnable (r : Req) (first count : U16) (s : State) : Result :=
  .next (runCmd r { code := 0x0602, lenOk := decide (r.len = 4), need := rulesNeed s r (span first.toNat (min 64 count.toNat))
                    payload := spanStat first.toNat count.toNat, modeOk := s.sys.mode.isRunLimpWork }
    (fun _ s => enableBody (span first.toNat count.toNat) s) s)

def execRfxDisable (r : Req) (first count : U16) (s : State) : Result :=
  .next (runCmd r { code := 0x0603, lenOk := decide (r.len = 4), need := rulesNeed s r (span first.toNat (min 64 count.toNat))
                    payload := spanStat first.toNat count.toNat, modeOk := s.sys.mode.isRunLimpWork }
    (fun _ s => disableBody (span first.toNat count.toNat) s) s)

/-- State code of `RFX.GET_RULE`: disabled, or held so (R206), armed, active, latched, suspended. -/
def RuleRun.code (x : RuleRun) (s : State) : Nat :=
  if x.suspended then 4 else if !x.rule.enabledIn s then 0 else if x.latched then 3 else if x.active then 2 else 1

def execRfxGetRule (r : Req) (rule : U16) (s : State) : Result :=
  .next (runCmd r { code := 0x0604, lenOk := decide (r.len = 4), need := rulesNeed s r [rule.toNat]
                    payload := needStat (decide (rule.toNat ≤ 1023)) stat_range, modeOk := s.sys.mode.isServing }
    (fun _ s =>
      let x := s.rule rule.toNat
      (s, .ok (x.rule.bytes ++ [byteOf (x.code s), 0, 0, 0] ++ n32 x.fired ++ n64 x.lastFire))) s)

def execRfxStats (r : Req) (first count : U16) (s : State) : Result :=
  .next (runCmd r { code := 0x0605, lenOk := decide (r.len = 4), need := rulesNeed s r (span first.toNat (min 64 count.toNat))
                    payload := spanStat first.toNat count.toNat, modeOk := s.sys.mode.isServing }
    (fun _ s => (s, .ok ((span first.toNat count.toNat).flatMap (fun n =>
      let x := s.rule n
      n32 x.fired ++ n32 x.blocked ++ n64 x.lastFire)))) s)

def execRfxSelfArrest (r : Req) (reason : U16) (s : State) : Result :=
  .next (runCmd r { code := 0x0606, lenOk := decide (r.len = 4), need := .system, payload := none, modeOk := s.sys.mode.isServing }
    (fun _ s => (selfArrest 3 (le16 reason) s, .ok [])) s)

/-- `SNA` newly set while `SAFE_N` is asserted self-arrests (R210). -/
def safeNFilterBody (tSnf : Nat) (sna : Bool) (s : State) : State × Reply :=
  let t := { s with rfx := { s.rfx with tSnf := tSnf, sna := sna } }
  (if sna && !s.rfx.sna && s.rfx.safeN && s.rfx.enabled then selfArrest 1 [] t else t, .ok [])

def execRfxSafeNFilter (r : Req) (tSnf : U16) (flags : Byte) (s : State) : Result :=
  .next (runCmd r { code := 0x0607, lenOk := decide (r.len = 4), need := .system
                    payload := orStat (needStat (decide (flags.toNat ≤ 1)) stat_badPayload)
                      (needStat (decide (tSnf.toNat ≤ 200)) stat_range)
                    modeOk := decide (s.sys.mode = .workshop) }
    (fun _ s => safeNFilterBody tSnf.toNat (flagOf flags 0) s) s)

end Sys2Proof.Machine
end

