-- ==== Sys2Proof/Machine/Lin.lean ====
section
/-! DEFINITION. The LIN commanders (R325 to R332) and their commands (R335). -/

namespace Sys2Proof.Machine

def raiseLin (k : EvKind) (l : Nat) (data : List Byte) (s : State) : State := raise k l (.owned (s.linOwner l)) data s

/-! ### Slots -/

def linGoToSleep : List Byte := [0, 0xFF, 0xFF, 0xFF, 0xFF, 0xFF, 0xFF, 0xFF]

/-- A header goes out: the frame on the bus. -/
def linHeader (l : Nat) (t : LinSlot) (s : State) : State :=
  s.modLin l (fun x => { x with slot := some t, lastId := t.id, headers := x.headers + 1 })

/-- The frame of an ID: published from the half that `BUF` selects when the break starts, or to be received (R327). -/
def LinChan.slotOf (x : LinChan) (typ id : Nat) (now : U64) : LinSlot :=
  let f := x.frame id
  { typ := typ, id := id, publish := decide (f.dir = 1) || decide (typ = 3)
    data := if typ = 3 then f.half else f.half.take f.len, at_ := now }

/-- The first listed ID of a sporadic slot whose `BUF` differs from `BUF_SENT` (R327). -/
def LinChan.sporadic (x : LinChan) (ids : List Byte) : Option Nat :=
  (ids.find? (fun b => decide (b ≠ 0xFF) && ((x.frame b.toNat).buf != (x.frame b.toNat).bufSent))).map (·.toNat)

def setBufSent (f : LinFrame) : LinFrame :=
  { f with status := if f.buf then f.status ||| 0x10000000 else f.status &&& 0xEFFFFFFF }

/-- Send the header of a schedule entry (Table 11.15); a sporadic slot with nothing new stays silent. -/
def linEntry (l : Nat) (e : LinEntry) (s : State) : State :=
  let x := s.linCh l
  match e.typ.toNat with
  | 2 =>
    match x.sporadic e.args with
    | some id =>
      linHeader l { x.slotOf 2 id s.tb.count with publish := true }
        (s.modLin l (fun x => { x with frames := x.frames.modify .zero id setBufSent }))
    | none => s.modLin l (fun x => { x with slot := none })
  | 3 => linHeader l (x.slotOf 3 60 s.tb.count) s
  | 4 => linHeader l { x.slotOf 4 61 s.tb.count with publish := false } s
  | t => linHeader l (x.slotOf t (e.id.toNat % 64) s.tb.count) s

/-- The end of a collision-resolving run (R329), and a waiting table switch at the end of an entry (R326). -/
def linSwitch (x : LinChan) : LinChan :=
  let len := (x.tables.getD [] x.table).length
  let x := match x.back with
    | some b => if len ≤ x.next then { x with table := b.1, next := b.2, back := none } else x
    | none => x
  match x.select with
  | some t =>
    if x.back.isSome then x
    else if t = 255 then { x with mode := .stopped, select := none, slot := none }
    else { x with table := t, next := 0, select := none }
  | none => x

/-- The next header of the schedule; after the last entry comes entry 0 (R326). -/
def linNext (l : Nat) (s : State) : State :=
  let s := s.modLin l linSwitch
  let x := s.linCh l
  let es := x.tables.getD [] x.table
  let k := if x.next < es.length then x.next else 0
  if x.mode ≠ .running then s
  else match es[k]? with
  | some e => linEntry l e (s.modLin l (fun x => { x with entry := k, next := k + 1 }))
  | none => s.modLin l (fun x => { x with slot := none })

/-- A header of the diagnostic exchange (R331). -/
def linDiagHeader (l : Nat) (d : LinDiag) (s : State) : State :=
  let s := s.modLin l (fun x => { x with mode := .diag, diag := some { d with sent := true } })
  linHeader l (if d.sent then { typ := 4, id := 61, publish := false, data := [], at_ := s.tb.count }
    else { typ := 3, id := 60, publish := true, data := d.data, at_ := s.tb.count }) s

def linSlot (l : Nat) (s : State) : State :=
  let x := s.linCh l
  if !s.powered (pdLin (l / 4)) then s
  else if x.sleepReq ∧ x.mode = .running then
    linHeader l { typ := 3, id := 60, publish := true, data := linGoToSleep, at_ := s.tb.count }
      (s.modLin l (fun x => { x with mode := .sleep, sleepReq := false }))
  else match x.diag with
  | some d => if d.ended || (decide (x.mode ≠ .running) && decide (x.mode ≠ .diag)) then s else linDiagHeader l d s
  | none => if x.mode = .running then linNext l s else s

def execLinSlotStart (l : Fin 16) (s : State) : Result := .next (linSlot l.val s)

/-! ### Frame end (R328, R329, R332) -/

/-- The RX entry of a frame (R328). -/
def linRxEntry (x : LinChan) (t : LinSlot) (result : Nat) (data : List Byte) (gen : U16) : LinRx :=
  { word := wordOf [(result, 28), (t.id, 22), (min 8 data.length, 18), (x.table, 16), (gen.toNat, 0)]
    time := t.at_.extractLsb' 0 32, data := (data ++ zeros 8).take 8 }

/-- Store an RX entry in order, or lose the frame (R308, R328). -/
def linStore (l : Nat) (e : LinRx) (s : State) : State :=
  let x := s.linCh l
  let owner := s.linOwner l
  if owner.any (fun v => !s.vzfActive v) then s.modLin l (fun x => { x with rxLost := satInc 0xFFFFFFFF x.rxLost })
  else if (x.rx.getD .reset x.rxFill).word.getLsbD 31 then
    (s.modLin l (fun x => { x with rx := x.rx.set x.rxFill e, rxFill := (x.rxFill + 1) % 64 })).raiseSrc owner (24 + l)
  else
    let t := s.modLin l (fun x => { x with rxLost := satInc 0xFFFFFFFF x.rxLost, episode := true, flags := { x.flags with rxLoss := true } })
    if x.episode then t else raiseLin evt_linRxOverrun l [] t

/-- The frame's status word: last result, `BUF_SENT`, frames carried (R327). -/
def linStatus (f : LinFrame) (result : Nat) : LinFrame :=
  { f with status := wordOf [(result, 29), (bit f.bufSent, 28), ((bits f.status 0 16 + bit (decide (result = 0))) % 65536, 0)] }

/-- A frame with no response, and the end of its episode at the first response (R332). -/
def linResponse (l id result : Nat) (s : State) : State :=
  let x := s.linCh l
  if result = 1 then
    let t := s.modLin l (fun x => { x with noResponse := x.noResponse + 1, flags := { x.flags with noResp := true }
                                           silent := x.silent ||| u64Bit id })
    if x.silent.getLsbD id then t else raiseLin evt_linNoResponse l [byteOf id] t
  else
    let t := s.modLin l (fun x => { x with silent := x.silent &&& ~~~ (u64Bit id) })
    if result = 2 then t.modLin l (fun x => { x with chkErrors := x.chkErrors + 1, flags := { x.flags with chkErr := true } }) else t

/-- A response in a diagnostic exchange: collected, or the end of it (R331). -/
def LinDiag.take (d : LinDiag) (typ result : Nat) (e : LinRx) : LinDiag :=
  if typ = 3 then { d with ended := d.ended || decide (d.wanted = 0) }
  else if result = 1 then { d with ended := true }
  else { d with got := d.got ++ [e], ended := decide (d.wanted ≤ d.got.length + 1) }

def linEnd (l result : Nat) (data : List Byte) (s : State) : State :=
  let x := s.linCh l
  match x.slot with
  | none => s
  | some t =>
    let data := if t.publish then t.data else data
    let gen := match s.linOwner l with
      | some v => (s.vzf v).gen
      | none => 0
    let e := linRxEntry x t result data gen
    let f := x.frame t.id
    let diag := decide (x.mode = .diag)
    let s := s.modLin l (fun x =>
      { x with slot := none, lastResult := result, frames := x.frames.modify .zero t.id (fun f => linStatus f result)
               diag := if diag then x.diag.map (fun d => d.take t.typ result e) else x.diag })
    let s := if t.publish && decide (t.typ ≠ 3) then s else linResponse l t.id result s
    let s := if decide (t.typ = 3) || decide (t.typ = 4) || (decide (f.dir = 2) && f.rxEn) then linStore l e s else s
    let s := if result = 0 ∧ f.dir = 2 then
        arriveAll (fun p => decide (p.kind = 3) && decide (p.byte 12 = l) && decide (p.byte 13 = t.id)) data s else s
    if t.typ = 1 ∧ result = 5 then
      let arg := (((x.tables.getD [] x.table)[x.entry]?).map (fun e => (e.args.getD 0 0).toNat)).getD x.table
      s.modLin l (fun x => { x with back := some (x.table, x.next), table := arg % 4, next := 0 })
    else s

def execLinFrameEnd (l : Fin 16) (result : Fin 6) (data : List Byte) (s : State) : Result := .next (linEnd l.val result.val data s)

def execLinRxOverrunEnd (l : Fin 16) (s : State) : Result := .next (s.modLin l.val (fun x => { x with episode := false }))

/-! ### Sleep, wake and bus faults (R330, R332) -/

/-- The schedule starts, or starts again, from entry 0. -/
def linStart (l : Nat) (s : State) : State :=
  s.modLin l (fun x => { x with mode := .running, next := 0, slot := none, back := none })

def execLinWakeScheduleStart (l : Fin 16) (s : State) : Result :=
  .next (if (s.linCh l.val).mode = .waking then linStart l.val s else s)

def execLinResponderWake (l : Fin 16) (s : State) : Result :=
  let x := s.linCh l.val
  .next (if x.mode = .sleep ∧ flagOf x.record.flags 1 ∧ s.powered (pdLin (l.val / 4)) then
    raiseLin evt_linWake l.val []
      (s.modLin l.val (fun x => { x with mode := .waking, flags := { x.flags with wakeRx := true } }))
  else s)

def linFault (l : Nat) (s : State) : State :=
  let x := s.linCh l
  if x.mode = .running ∨ x.mode = .diag ∨ x.mode = .waking then
    let s := s.modLin l (fun x => { x with mode := .busFault, slot := none, back := none, flags := { x.flags with busFault := true }
                                           diag := x.diag.map (fun d => { d with ended := true }) })
    raiseLin evt_linBusFault l [] s
  else s

def execLinBusFault (l : Fin 16) (s : State) : Result := .next (linFault l.val s)

def execLinBusFaultEnd (l : Fin 16) (s : State) : Result :=
  .next (if (s.linCh l.val).mode = .busFault then raiseLin evt_linBusFaultEnd l.val [] (linStart l.val s) else s)

/-! ### Window register and commands -/

/-- The window block of channel `l` belongs to a local VZF that owns it (R312). -/
def State.linBlock (s : State) (v l : Nat) : Bool := decide (s.linOwner l = some v) && !(s.vzf v).tpl.attach

def linLostRead (v l : Nat) (s : State) : State :=
  if !s.linBlock v l then windowFault v s
  else { s.modLin l (fun x => { x with rxLost := 0 }) with bus := BitVec.ofNat 64 (s.linCh l).rxLost }

def execLinRxLostRead (v : Fin 256) (l : Fin 16) (s : State) : Result := .next (linLostRead v.val l.val s)

/-- `LIN_CH_STATE` and `LIN_CH_FLAGS` (Tables 11.11, 11.16). -/
def LinChan.stateWord (x : LinChan) : U32 :=
  wordOf [(x.mode.code, 28), (x.table, 26), (x.entry, 20), (x.lastId, 14), (x.lastResult, 11)]

def LinFlags.word (f : LinFlags) : U32 :=
  wordOf [(bit f.rxLoss, 31), (bit f.ownErr, 30), (bit f.noResp, 29), (bit f.chkErr, 28), (bit f.busFault, 27), (bit f.wakeRx, 26)]

def LinFlags.clear (f : LinFlags) (w : U32) : LinFlags :=
  { rxLoss := f.rxLoss && !w.getLsbD 31, ownErr := f.ownErr && !w.getLsbD 30, noResp := f.noResp && !w.getLsbD 29,
    chkErr := f.chkErr && !w.getLsbD 28, busFault := f.busFault && !w.getLsbD 27, wakeRx := f.wakeRx && !w.getLsbD 26 }

def linCmd (code : U16) (len : Nat) (r : Req) (l : Byte) (payload : Option U16) (s : State) : Cmd :=
  { code := code, lenOk := decide (r.len = len), need := if l.toNat ≤ 15 then .owner (s.linOwner l.toNat) else .any
    payload := orStat (canIndex l) payload, modeOk := s.sys.mode.isRunLimpWork }

def linRecordOk (f : LinRecord) : Bool :=
  decide (1000 ≤ f.rate.toNat) && decide (f.rate.toNat ≤ 20000) && decide (13 ≤ f.brk.toNat) && decide (f.brk.toNat ≤ 26)
    && decide (250 ≤ f.tWake.toNat) && decide (f.tWake.toNat ≤ 5000) && (decide (f.table0.toNat ≤ 3) || decide (f.table0 = 0xFF))
    && decide (2 ≤ f.p2.toNat) && decide (f.p2.toNat ≤ 200)

def execLinConfig (r : Req) (l : Byte) (f : LinRecord) (s : State) : Result :=
  .next (runCmd r (linCmd 0x0A01 12 r l (orStat (needStat (decide (f.flags.toNat < 4)) stat_badPayload)
      (needStat (linRecordOk f) stat_range)) s)
    (fun _ s =>
      if (s.linCh l.toNat).mode = .stopped ∨ (s.linCh l.toNat).mode = .sleep then
        (s.modLin l.toNat (fun x => { x with record := f, configured := true }), .ok [])
      else (s, .fail stat_badState)) s)

/-- The frames that an entry can carry (R326). -/
def linEntryIds (e : LinEntry) : List Nat :=
  match e.typ.toNat with
  | 2 => (e.args.filter (· != 0xFF)).map (·.toNat)
  | 3 => [60]
  | 4 => [61]
  | _ => [e.id.toNat]

/-- 1.4 × (34 + 10 × (LEN + 1)) bit times against the delay: in 0.1 ms at RATE bit/s (R326). -/
def linDelayOk (x : LinChan) (e : LinEntry) : Bool :=
  (linEntryIds e).all (fun id =>
    let len := if 60 ≤ id then 8 else (x.frame id).len
    decide (14 * (34 + 10 * (len + 1)) * 10000 ≤ e.delay.toNat * x.record.rate.toNat * 10))

/-- Ranges of Table 11.15. -/
def linEntryRange (e : LinEntry) : Bool :=
  let t := e.typ.toNat
  let id := e.id.toNat
  decide (10 ≤ e.delay.toNat) && decide (e.delay.toNat ≤ 10000)
    && (if t ≤ 1 then decide (id ≤ 59) else if t = 2 then decide (id = 255) else if t = 3 then decide (id = 60) else decide (id = 61))
    && (if t = 1 then decide ((e.args.getD 0 0).toNat ≤ 3)
        else if t = 2 then e.args.all (fun b => decide (b.toNat ≤ 59) || decide (b = 0xFF)) else true)

/-- Arguments that must be zero (R9). -/
def linEntryZero (e : LinEntry) : Bool :=
  let t := e.typ.toNat
  decide (t ≤ 4) && (if t = 2 then true else if t = 1 then (e.args.drop 1).all (· == 0) else e.args.all (· == 0))

def loadScheduleBody (l t : Nat) (es : List LinEntry) (s : State) : State × Reply :=
  let x := s.linCh l
  if (decide (x.mode = .running) || decide (x.mode = .diag)) && (decide (x.table = t) || x.back.any (fun b => decide (b.1 = t)))
  then (s, .fail stat_badState)
  else if !es.all (linDelayOk x) || es.any (fun e => decide (e.typ = 1) && decide ((e.args.getD 0 0).toNat = t)) then (s, .fail stat_linTable)
  else (s.modLin l (fun x => { x with tables := x.tables.set t es }), .ok [])

def execLinLoadSchedule (r : Req) (l table : Byte) (n : U16) (entries : List LinEntry) (s : State) : Result :=
  .next (runCmd r
    { linCmd 0x0A02 0 r l (orStat (needStat (entries.all linEntryZero) stat_badPayload)
        (needStat (decide (table.toNat ≤ 3) && decide (1 ≤ n.toNat) && decide (n.toNat ≤ 64) && entries.all linEntryRange) stat_range)) s
      with lenOk := decide (r.len = 4 + 8 * n.toNat) && decide (entries.length = n.toNat) }
    (fun _ s => loadScheduleBody l.toNat table.toNat entries s) s)

/-- Select a table: at once from stopped, else at the end of the entry (R326). -/
def selectBody (l t : Nat) (s : State) : State × Reply :=
  let x := s.linCh l
  if x.mode = .sleep ∨ x.mode = .waking then (s, .fail stat_linAsleep)
  else if x.mode = .stopped then
    (if t = 255 then s else linStart l (s.modLin l (fun x => { x with table := t })), .ok [])
  else (s.modLin l (fun x => { x with select := some t }), .ok [])

def execLinSelectSchedule (r : Req) (l table : Byte) (s : State) : Result :=
  .next (runCmd r (linCmd 0x0A03 4 r l (needStat (decide (table.toNat ≤ 3) || decide (table = 0xFF)) stat_range) s)
    (fun _ s => selectBody l.toNat table.toNat s) s)

def execLinWake (r : Req) (l : Byte) (s : State) : Result :=
  .next (runCmd r (linCmd 0x0A04 4 r l none s)
    (fun _ s =>
      if (s.linCh l.toNat).mode = .sleep then (s.modLin l.toNat (fun x => { x with mode := .waking, slot := none }), .ok [])
      else (s, .fail stat_badState)) s)

/-- The go-to-sleep command goes out in the next slot; a stopped channel has none and sleeps at once (R330). -/
def sleepBody (l : Nat) (s : State) : State × Reply :=
  let x := s.linCh l
  if x.mode = .sleep then (s, .fail stat_linAsleep)
  else if x.mode = .stopped then
    (linHeader l { typ := 3, id := 60, publish := true, data := linGoToSleep, at_ := s.tb.count }
      (s.modLin l (fun x => { x with mode := .sleep })), .ok [])
  else (s.modLin l (fun x => { x with sleepReq := true }), .ok [])

def execLinSleep (r : Req) (l : Byte) (s : State) : Result :=
  .next (runCmd r (linCmd 0x0A05 4 r l none s) (fun _ s => sleepBody l.toNat s) s)

def diagBody (r : Req) (l wanted : Nat) (data : U64) (s : State) : State × Reply :=
  let x := s.linCh l
  if x.mode = .sleep ∨ x.mode = .waking then (s, .fail stat_linAsleep)
  else if x.diag.isSome then (s, .fail stat_busy)
  else
    (s.modLin l (fun x =>
      { x with diag := some { port := r.port, tag := r.tag, reqSeq := r.seq, data := le64 data, wanted := wanted, sent := false,
                              ended := decide (x.mode = .busFault), fromStop := decide (x.mode = .stopped), got := [] }
               mode := if x.mode = .stopped then .diag else x.mode }), .fail stat_pending)

def execLinDiag (r : Req) (l wanted : Byte) (data : U64) (s : State) : Result :=
  .next (runCmd r (linCmd 0x0A06 12 r l (needStat (decide (wanted.toNat ≤ 32)) stat_range) s)
    (fun _ s => diagBody r l.toNat wanted.toNat data s) s)

def LinRx.bytes (e : LinRx) : List Byte := le32 e.word ++ le32 e.time ++ e.data

/-- The exchange ends: the schedule resumes and the command completes (R331). -/
def diagDone (l : Nat) (s : State) : State :=
  match (s.linCh l).diag with
  | none => s
  | some d =>
    if !d.ended then s
    else
      let s := s.modLin l (fun x => { x with diag := none, mode := if x.mode ≠ .diag then x.mode else if d.fromStop then .stopped else .running })
      complete d.port d.reqSeq d.tag 0x0A06 stat_ok ([byteOf d.got.length] ++ zeros 7 ++ d.got.flatMap LinRx.bytes) s

def execLinDiagDone (l : Fin 16) (s : State) : Result := .next (diagDone l.val s)

def linStatusBytes (l : Nat) (s : State) : List Byte :=
  let x := s.linCh l
  le32 x.stateWord ++ le32 x.flags.word ++ n32 x.rxLost ++ n32 x.headers ++ n32 x.noResponse ++ n32 x.chkErrors

def execLinGetStatus (r : Req) (l : Byte) (s : State) : Result :=
  .next (runCmd r { linCmd 0x0A07 4 r l none s with modeOk := s.step10 } (fun _ s => (s, .ok (linStatusBytes l.toNat s))) s)

/-! ### At a start and at a VZF reset -/

/-- The channel takes its record and tables, and starts with `AUTO_START` (R325). -/
def linConfigure (l : Nat) (f : LinRecord) (s : State) : State :=
  let tables : Tbl (List LinEntry) := (List.range 4).foldl (fun t k =>
    match s.cfg.image.schedules.get? (4 * l + k) with
    | some es => t.set k es
    | none => t) .empty
  s.modLin l (fun x =>
    { x with record := f, configured := true, tables := tables, table := f.table0.toNat % 4, next := 0
             mode := if flagOf f.flags 0 && decide (f.table0 ≠ 0xFF) then .running else .stopped })

/-- Step 3 of a VZF reset: frame table and RX entries zeroed; the schedule keeps running (R332). -/
def linZero (l : Nat) (s : State) : State :=
  s.modLin l (fun x =>
    { x with frames := .empty, rx := .empty, rxFill := 0 })

end Sys2Proof.Machine
end

