-- ==== Sys2Proof/Machine/Keys.lean ====
section
/-! DEFINITION. The KEY commands (R430 to R435, R453). -/

namespace Sys2Proof.Machine

def keyCmd (code : U16) (lenOk : Bool) (need : Need) (payload : Option U16) (modeOk : Bool) : Cmd :=
  { code := code, lenOk := lenOk, need := need, payload := payload, modeOk := modeOk }

def Mode.isWorkBase : Mode → Bool
  | .workshop | .basecamp => true
  | _ => false

/-! ### Slots -/

/-- Type and usage agree with Tables 15.4 and 15.5. -/
def keyTypeOk (slot typ : Nat) (usage : U16) : Bool :=
  (match usageAllowed typ with
   | some u => decide (usage &&& ~~~ u = 0)
   | none => false)
    && (decide (slot < 120) || decide (roleType slot = some typ))

/-- Why a request for a slot is refused: a bad slot 127 (R431), or a missing signature (R430). -/
def slotAccess (s : State) (slot : Nat) (sig : KeySig) : Option U16 :=
  let base := decide (s.sys.mode = .basecamp)
  match (s.slot 127).state with
  | .empty => none
  | .valid =>
    if decide (slot < 120) && !base then none
    else if sig = .provisioning && s.slotServes 127 8 then none else some stat_authFail
  | .bad =>
    if slot < 120 then (if base then some stat_keySlotBad else none)
    else if slot < 127 || base then some stat_keySlotBad
    else if !s.slotServes 124 8 then some stat_keySlotBad
    else if sig = .workshop then none else some stat_authFail

/-- A use of the signature's slot that its usage does not allow is counted (R429). -/
def countUse (s : State) (st : U16) : State := if st = stat_authFail then countRefused s else s

/-- Write a slot record; the write count rises (R432). -/
def writeSlot (n : Nat) (f : KeySlot → KeySlot) (s : State) : State × Reply :=
  let s := { s with key := { s.key with slots := s.key.slots.modify .empty n (fun x => { f x with writes := x.writes + 1 }) } }
  let w := (s.key.slots.getD .empty n).writes
  (raiseKey evt_keyProvisioned n [] s, .ok (le32 w))

/-- `KEY.PROVISION` (R430, R431). -/
def provisionBody (f : ProvisionFields) (s : State) : State × Reply :=
  let n := f.slot.toNat
  if !s.nonceFresh f.nonce then (s, .fail stat_authFail)
  else
    let s := useNonce f.nonce s
    match slotAccess s n f.sig with
    | some st => (countUse s st, .fail st)
    | none =>
      match f.content with
      | none => (s, .fail stat_keyWrap)
      | some c =>
        let t := writeSlot n (fun x =>
          { x with state := if f.typ = 0 then .empty else .valid, typ := f.typ.toNat, usage := f.usage, content := (c ++ zeros 64).take 64 }) s
        ({ t.1 with key := { t.1.key with cert := if n = 126 then f.cert.take 640 else t.1.key.cert } }, t.2)

def provisionStat (f : ProvisionFields) : Option U16 :=
  orStat (needStat (decide (f.slot.toNat ≤ 127)) stat_range)
    (orStat (needStat (decide (f.flags.toNat ≤ 1)) stat_badPayload) (needStat (keyTypeOk f.slot.toNat f.typ.toNat f.usage) stat_keyType))

def execKeyProvision (r : Req) (f : ProvisionFields) (s : State) : Result :=
  .next (runCmd r (keyCmd 0x0F01 (decide (r.len = if flagOf f.flags 0 then 1408 else 320)) .system (provisionStat f) s.sys.mode.isWorkBase)
    (fun _ s => provisionBody f s) s)

/-- `KEY.ERASE_SLOT`. -/
def eraseBody (n nonce : Nat) (sig : KeySig) (s : State) : State × Reply :=
  if !s.nonceFresh nonce then (s, .fail stat_authFail)
  else
    let s := useNonce nonce s
    match slotAccess s n sig with
    | some st => (countUse s st, .fail st)
    | none =>
      let t := writeSlot n (fun x => { x with state := .empty, typ := 0, usage := 0, content := [] }) s
      ({ t.1 with key := { t.1.key with cert := if n = 126 then [] else t.1.key.cert } }, t.2)

def execKeyEraseSlot (r : Req) (slot : Byte) (nonce : Nat) (sig : KeySig) (s : State) : Result :=
  .next (runCmd r (keyCmd 0x0F03 (decide (r.len = 136)) .system (needStat (decide (slot.toNat ≤ 127)) stat_range) s.sys.mode.isWorkBase)
    (fun _ s => eraseBody slot.toNat nonce sig s) s)

/-- 72 bytes of a slot; only public content shows (R429). -/
def KeySlot.statusBytes (x : KeySlot) : List Byte :=
  let shown := decide (x.state = .valid) && decide (3 ≤ x.typ) && decide (x.typ ≤ 6)
  [byteOf x.state.code, byteOf x.typ] ++ le16 x.usage ++ le32 x.writes ++ (if shown then (x.content ++ zeros 64).take 64 else zeros 64)

def slotStatusBody (first count : Nat) (s : State) : State × Reply :=
  (s, .ok ((List.range count).flatMap (fun k => (s.slot (first + k)).statusBytes)))

def slotStatusStat (first count : Nat) : Option U16 :=
  needStat (decide (1 ≤ count) && decide (count ≤ 55) && decide (first + count ≤ 128)) stat_range

def execKeySlotStatus (r : Req) (first count : Byte) (s : State) : Result :=
  .next (runCmd r (keyCmd 0x0F02 (decide (r.len = 4)) .system (slotStatusStat first.toNat count.toNat) s.sys.mode.isAwake)
    (fun _ s => slotStatusBody first.toNat count.toNat s) s)

/-! ### Random output -/

/-- A health test fails (R434). -/
def trngFail (s : State) : State :=
  if s.key.trngFail then s else raiseKey evt_keyTrngFail noInst [] { s with key := { s.key with trngFail := true } }

def execTrngHealthFail (s : State) : Result := .next (trngFail s)

/-- DRBG output: `n` FREE bytes. -/
def randomBody (n : Nat) (s : State) : State × Reply :=
  if s.key.trngFail then (s, .fail stat_keyTrng) else (s.draw, .ok (Config.freeBytes s.free n))

def randomStat (n : Nat) : Option U16 := needStat (decide (1 ≤ n) && decide (n ≤ 4032)) stat_range

def execKeyRandom (r : Req) (n : U16) (s : State) : Result :=
  .next (runCmd r (keyCmd 0x0F05 (decide (r.len = 4)) .any (randomStat n.toNat) s.sys.mode.isAwake) (fun _ s => randomBody n.toNat s) s)

/-! ### Identity and attestation -/

/-- The device's identity (Table 15.13). -/
def identityBody (s : State) : State × Reply :=
  if s.key.pufFail then (s, .fail stat_keyNoIdentity)
  else (s, .ok (le64 s.key.serial ++ s.identityKey 0 97 ++ zeros 7 ++ s.identityKey 1 97 ++ zeros 7 ++ s.identityKey 2 1952
    ++ s.identityKey 3 1184 ++ n16 s.key.cert.length ++ s.key.cert))

def execKeyGetIdentity (r : Req) (s : State) : Result :=
  .next (runCmd r (keyCmd 0x0F06 (decide (r.len = 0)) .any none s.sys.mode.isAwake) (fun _ s => identityBody s) s)

/-- A slot is bad. -/
def State.anyBad (s : State) : Bool := s.key.pufFail || s.key.slots.cells.any (fun c => decide (c.2.state = .bad))

def State.attestFlags (s : State) (mldsa : Bool) : Nat :=
  bit s.sys.waiver + 2 * bit mldsa + 4 * s.log.mode.code + 16 * bit s.anyBad + 32 * bit s.rfx.arrested
    + 64 * bit (decide (s.sys.mode = .basecamp)) + 128 * bit s.upd.fallback

/-- Validity of the banks, and the bank in use: 0xFF when none is. -/
def State.bankValidity (s : State) : Nat := bit (s.bankOk s.cfg.bankA) + 2 * bit (s.bankOk s.cfg.bankB)
def State.bankInUse (s : State) : Nat := if s.anyBank then bit s.cfg.inUseB else 255

/-- Bytes 0x000 to 0x1FF of the statement (Table 15.7). -/
def statement (nonce : List Byte) (mldsa : Bool) (s : State) : List Byte :=
  le32 0x5A415454 ++ n16 1 ++ n16 (s.attestFlags mldsa) ++ (nonce ++ zeros 32).take 32 ++ Config.sha384 (s.identityKey 0 97)
    ++ le16 Config.partCode ++ [Config.stepCode, byteOf s.sys.mode.code] ++ zeros 4 ++ le64 s.key.serial ++ s.key.mrs.flatMap (fun m => m)
    ++ le32 s.cfg.bankA.seq ++ le32 s.cfg.bankB.seq ++ [byteOf s.bankValidity, byteOf s.bankInUse] ++ zeros 2 ++ le32 s.sys.bootCount
    ++ le64 s.tb.count

/-- The statement with its signatures, which are FREE values (R435). -/
def attestBytes (nonce : List Byte) (mldsa : Bool) (s : State) : List Byte :=
  statement nonce mldsa s ++ Config.freeBytes s.free (if mldsa then 96 + 3309 else 96)

/-- `KEY.ATTEST`: with an ML-DSA signature the statement comes in the completion. -/
def attestBody (r : Req) (nonce : List Byte) (mldsa : Bool) (s : State) : State × Option Reply :=
  if s.key.pufFail then (s, some (.fail stat_keyNoIdentity))
  else
    let data := attestBytes nonce mldsa s
    if mldsa then
      (complete r.port r.seq r.tag 0x0F04 stat_ok data (respond r 0x0F04 stat_pending [] s.draw), none)
    else (s.draw, some (.ok data))

def execKeyAttest (r : Req) (nonce : List Byte) (flags : Byte) (s : State) : Result :=
  .next (runLater r (keyCmd 0x0F04 (decide (r.len = 36)) .any (needStat (decide (flags.toNat ≤ 1)) stat_badPayload) s.sys.mode.isAwake)
    (fun _ s => attestBody r nonce (flagOf flags 0) s) s)

end Sys2Proof.Machine
end

