-- ==== Sys2Proof/Machine/Upd.lean ====
section
/-! DEFINITION. Staging, verification and commit (R436 to R444), the waiver (R56), and the UPD commands (R453). -/

namespace Sys2Proof.Machine

def raiseUpd (k : EvKind) (inst : Nat) (data : List Byte) (s : State) : State := raise k inst .wide data s

/-! ### Staging -/

/-- The copy of a class that staging writes: never one of the last good set; without a set, the copy that does not run (R439). -/
def State.stagingCopy (s : State) (cls : Nat) : Bool :=
  match s.upd.lastGood with
  | some set => !(set.getD cls false)
  | none => match s.upd.running.get? cls with
    | some b => !b
    | none => false

/-- The bank not in use, or bank A when neither is valid (R450). -/
def State.stagingBank (s : State) : Bool := s.anyBank && !s.cfg.inUseB

/-- Targets and lengths (R443, Table 15.13): a class with its manifest and body, or in Basecamp a bank with its header. -/
def beginStat (s : State) (target total : Nat) : Option U16 :=
  let top := if target = 16 then 0x100 + 0x1000000 else 8192 + maxBody target
  needStat ((decide (target ≤ 5) || (decide (target = 16) && decide (s.sys.mode = .basecamp)))
    && decide (total % 16 = 0) && decide (0 < total) && decide (total ≤ top)) stat_range

/-- Open a target. -/
def updOpen (target total : Nat) (s : State) : State × Reply :=
  if s.upd.open_.isSome || s.upd.verifying.isSome then (s, .fail stat_busy)
  else
    let second := if target = 16 then s.stagingBank else s.stagingCopy target
    ({ s with upd := { s.upd with open_ := some { target := target, second := second, total := total, bytes := [] } } },
      .ok [byteOf (bit second)])

def execUpdBegin (r : Req) (target : Byte) (total : U32) (s : State) : Result :=
  .next (runCmd r (keyCmd 0x1001 (decide (r.len = 8)) .system (beginStat s target.toNat total.toNat) s.sys.mode.isWorkBase)
    (fun _ s => updOpen target.toNat total.toNat s) s)

/-- Fill the open target. -/
def updFill (offset : Nat) (data : List Byte) (s : State) : State × Reply :=
  match s.upd.open_ with
  | none => (s, .fail stat_noSession)
  | some t =>
    if t.total < offset + data.length then (s, .fail stat_range)
    else ({ s with upd := { s.upd with open_ := some { t with bytes := memWrite t.bytes offset data } } }, .ok [])

/-- A write's data: 16 to 4,016 bytes, a multiple of 16. -/
def blockOk (data : List Byte) : Bool := decide (16 ≤ data.length) && decide (data.length ≤ 4016) && decide (data.length % 16 = 0)

def execUpdWrite (r : Req) (offset : U32) (data : List Byte) (s : State) : Result :=
  .next (runCmd r (keyCmd 0x1002 (blockOk data && decide (r.len = 4 + data.length)) .system none s.sys.mode.isWorkBase)
    (fun _ s => updFill offset.toNat data s) s)

/-- Close the target and start its verification. -/
def updStartVerify (req : Option (Nat × U32 × U32)) (s : State) : State × Reply :=
  match s.upd.open_ with
  | none => (s, .fail stat_noSession)
  | some t => ({ s with upd := { s.upd with open_ := none, verifying := some { target := t, requester := req } } },
    { status := stat_pending, data := [] })

def execUpdVerify (r : Req) (s : State) : Result :=
  .next (runCmd r (keyCmd 0x1003 (decide (r.len = 0)) .system none s.sys.mode.isWorkBase)
    (fun _ s => updStartVerify (some (r.port, r.tag, r.seq)) s) s)

/-! ### Verification -/

/-- The image that staged bytes hold, by its manifest (Table 15.9). -/
def manifestOf (m : Memory) (devWrapped : Bool) : ImageCopy :=
  { state := .verified, version := memRead32 m 8, secVer := memRead16 m 0xE, stepLo := memGet m 0xC, stepHi := memGet m 0xD
    tested := (List.range 6).map (fun c => (List.range 4).map (fun k => memRead32 m (0x50 + 16 * c + 4 * k)))
    devWrap := flagOf (memGet m 7) 1, devKey := devWrapped || decide (memGet m 0x1FFC = 1), bytes := m }

/-- Magic, format, class, issuer and body length of the manifest. -/
def manifestOk (m : Memory) (cls total : Nat) : Bool :=
  decide (memRead32 m 0 = 0x5A494D47) && decide (memRead16 m 4 = 1) && decide ((memGet m 6).toNat = cls)
    && (flagOf (memGet m 7) 0 == decide (cls = 1)) && decide ((memGet m 7).toNat ≤ 3)
    && decide ((memRead32 m 0x10).toNat ≤ maxBody cls) && decide (8192 + (memRead32 m 0x10).toNat = total)

/-- Why an image fails R438. -/
def imageStatus (t : UpdTarget) (f : VerifyFacts) (s : State) : Option U16 :=
  let x := manifestOf t.bytes false
  if !f.sigOk || !manifestOk t.bytes t.target t.total || !s.issuerOk t.target then some stat_updSignature
  else if !x.stepOk then some stat_updStep
  else if x.secVer < s.minimum t.target then some stat_updRollback
  else if !s.imageKeyOk x.devKey then some stat_updKey
  else if !f.tagOk || !f.digestOk then some stat_updDigest
  else none

/-- The header of Table 2.9 stands in a bank's bytes: magic, format version, section count, length, class and zero fields (R51). -/
def bankHeaderOk (m : Memory) : Bool :=
  let len := (memRead32 m 0x0C).toNat
  decide (memRead32 m 0 = 0x5A434647) && decide (memRead16 m 4 = 1) && within 1 64 (memRead16 m 6) && decide (len % 16 = 0)
    && decide (len ≤ 0x01000000) && [48, 24, 12].contains (memRead16 m 0x10) && decide (memRead m 0x12 14 = zeros 14)
    && decide (memRead m 0xB0 80 = zeros 80)

/-- The boardnet class of a bank's header. -/
def bankClass (m : Memory) : Boardnet := if memRead16 m 0x10 = 12 then .v12 else if memRead16 m 0x10 = 24 then .v24 else .v48

/-- A bank as its bytes `m` give it: header, sequence and class are read from them (R51); `content` says what the body holds and how the digest
and signature checks end. -/
def Bank.read (content : Bank) (m : Memory) : Bank :=
  { content with written := true, bytes := m, magicOk := bankHeaderOk m, seq := memRead32 m 8
                 image := { content.image with boardnet := bankClass m } }

/-- A bank is newer than the one in use (R53). -/
def newerBank (s : State) (b : Bank) : Bool :=
  let cur := if s.cfg.inUseB then s.cfg.bankB else s.cfg.bankA
  !s.anyBank || later b.seq cur.seq

/-- Why a bank fails R52 or R53. -/
def bankStatus (b : Bank) (s : State) : Option U16 :=
  if !b.digestOk then some stat_cfgDigest
  else if !b.sigOk || !s.slotServes 123 8 then some stat_cfgSignature
  else if !b.valid || !newerBank s b then some stat_cfgStale
  else none

/-- The end of a verification is answered on the requesting port. -/
def answerVerify (v : Verifying) (st : U16) (result : List Byte) (s : State) : State :=
  match v.requester with
  | some (n, tag, seq) => complete n seq tag 0x1003 st result s
  | none => { s with uds := s.uds.say (if st = stat_ok then [0x77] else [0x7F, 0x37, 0x72]) }

def verifiedBytes (target : Nat) (version : U32) (secVer : Nat) : List Byte := [byteOf target] ++ zeros 3 ++ le32 version ++ n16 secVer ++ zeros 2

/-- A verified image stands staged; with `DEV_WRAP` it is under the device key from now on (R442). -/
def imageVerified (v : Verifying) (s : State) : State :=
  let t := v.target
  let y := manifestOf t.bytes false
  let x := { y with devKey := y.devKey || y.devWrap, bytes := if y.devWrap then memSet y.bytes 0x1FFC 1 else y.bytes }
  let s := raiseUpd evt_updVerified t.target [] (s.modCopy t.target t.second (fun _ => x))
  answerVerify v stat_ok (verifiedBytes t.target x.version x.secVer) s

def bankVerified (v : Verifying) (b : Bank) (s : State) : State :=
  let s := raiseUpd evt_updVerified 16 [] { s with upd := { s.upd with bankReady := some (v.target.second, b) } }
  answerVerify v stat_ok (verifiedBytes 16 b.seq 0) s

/-- A verification ends (R438, R443). -/
def verifyDone (f : VerifyFacts) (bank : Bank) (s : State) : State :=
  match s.upd.verifying with
  | none => s
  | some v =>
    let s := { s with upd := { s.upd with verifying := none } }
    if v.target.target = 16 then
      match bankStatus (bank.read v.target.bytes) s with
      | some st => answerVerify v st [] s
      | none => bankVerified v (bank.read v.target.bytes) s
    else
      match imageStatus v.target f s with
      | some st => answerVerify v st [] s
      | none => imageVerified v s

def execUpdVerifyDone (f : VerifyFacts) (bank : Bank) (s : State) : Result := .next (verifyDone f bank s)

/-! ### Commit -/

/-- The copy of a class that is verified and waits for the commit. -/
def State.verifiedCopy (s : State) (cls : Nat) : Option Bool :=
  if (s.copy cls false).state = .verified then some false else if (s.copy cls true).state = .verified then some true else none

/-- The resulting set (R444): verified images, and of the other classes those of the last good set, or without one the newest. -/
def State.resultSet (s : State) : List Bool :=
  allClasses.map (fun c => match s.verifiedCopy c with
    | some b => b
    | none => match s.upd.lastGood with
      | some set => set.getD c false
      | none => (s.newest c).getD false)

/-- Classes committed, bit 7 for a bank. -/
def State.commitMask (s : State) : Nat :=
  maskOf 6 (fun c => (s.verifiedCopy c).isSome) + 128 * bit s.upd.bankReady.isSome

/-- The commit itself: every verified image becomes valid, and the verified bank is written. -/
def commitNow (s : State) : State :=
  let s := allClasses.foldl (fun s c => match s.verifiedCopy c with
    | some b => s.modCopy c b (fun x => { x with state := .valid })
    | none => s) s
  let cfg := match s.upd.bankReady with
    | some (true, b) => { s.cfg with bankB := b }
    | some (false, b) => { s.cfg with bankA := b }
    | none => s.cfg
  { s with cfg := cfg, upd := { s.upd with bankReady := none, committed := s.upd.committed || decide (s.sys.mode = .basecamp) } }

/-- `UPD.COMMIT` (R444). -/
def commitBody (allow : Bool) (s : State) : State × Reply :=
  let mask := s.commitMask
  let images := s.setImages s.resultSet
  if s.upd.open_.isSome || s.upd.verifying.isSome || decide (mask = 0) then (s, .fail stat_updNotVerified)
  else if decide (mask % 128 ≠ 0) && !testedSet images && !allow then (s, .fail stat_updUntested)
  else (raiseUpd evt_updCommitted noInst [byteOf mask] (commitNow s), .ok ([byteOf mask] ++ zeros 3 ++ manifestDigest images))

def execUpdCommit (r : Req) (flags : Byte) (s : State) : Result :=
  .next (runCmd r (keyCmd 0x1004 (decide (r.len = 4)) .system (needStat (decide (flags.toNat ≤ 1)) stat_badPayload)
      (s.sys.mode.isWorkBase && !(flagOf flags 0 && decide (s.sys.mode = .basecamp))))
    (fun _ s => commitBody (flagOf flags 0) s) s)

/-- Staged data is discarded: the open target, the one being verified, and everything verified. -/
def abortStaged (s : State) : State :=
  let copies := s.upd.copies.mapAll (fun _ x => if x.state = .verified then .empty else x)
  { s with upd := { s.upd with open_ := none, verifying := none, bankReady := none, copies := copies } }

/-- A verification that runs is answered `ST_ABORTED`. -/
def abortVerify (s : State) : State :=
  match s.upd.verifying with
  | some v => answerVerify v stat_aborted [] s
  | none => s

def updAbortBody (s : State) : State × Reply := (abortStaged (abortVerify s), .ok [])

def execUpdAbort (r : Req) (s : State) : Result :=
  .next (runCmd r (keyCmd 0x1005 (decide (r.len = 0)) .system none s.sys.mode.isWorkBase) (fun _ s => updAbortBody s) s)

/-! ### Status, restart, waiver, time-out -/

/-- A copy's state as reported: staged while it is being filled or verified. -/
def State.shownState (s : State) (cls : Nat) (b : Bool) : Nat :=
  let filled := fun (t : UpdTarget) => decide (t.target = cls) && decide (t.second = b)
  if s.upd.open_.any filled || s.upd.verifying.any (fun v => filled v.target) then CopyState.staged.code else (s.copy cls b).state.code

def classBytes (s : State) (cls : Nat) : List Byte :=
  let good := match s.upd.lastGood with
    | some set => bit (set.getD cls false)
    | none => 255
  let run := match s.upd.running.get? cls with
    | some b => bit b
    | none => 255
  le32 (s.copy cls false).version ++ le32 (s.copy cls true).version ++ [byteOf (s.shownState cls false), byteOf (s.shownState cls true)]
    ++ [byteOf good, byteOf run] ++ n16 (s.minimum cls) ++ zeros 2

def updStatusBytes (s : State) : List Byte :=
  allClasses.flatMap (classBytes s) ++ [byteOf ((s.upd.open_.map (·.target)).getD 255)] ++ zeros 3 ++ n32 ((s.upd.waiver.map (·.left)).getD 0)

def execUpdStatus (r : Req) (s : State) : Result :=
  .next (runCmd r (keyCmd 0x1006 (decide (r.len = 0)) .any none s.sys.mode.isAwake) (fun _ s => (s, .ok (updStatusBytes s))) s)

/-- `UPD.RESTART` is refused in Basecamp until a commit has succeeded since the entry (R453). -/
def State.restartReady (s : State) : Bool := decide (s.sys.mode ≠ .basecamp) || s.upd.committed

def execUpdRestart (r : Req) (s : State) : Result :=
  .next (runLater r (keyCmd 0x1007 (decide (r.len = 0)) .system none s.sys.mode.isWorkBase)
    (fun _ s => if s.restartReady then (answerRestart r 0x1007 8 s, none) else (s, some (.fail stat_badState))) s)

/-- `UPD.WAIVER` (R56): a token under the waiver key in slot 125. -/
def waiverBody (allowance : Nat) (digest : List Byte) (sigOk : Bool) (s : State) : State × Reply :=
  if !sigOk || !s.slotServes 125 8 then (countRefused s, .fail stat_authFail)
  else ({ s with upd := { s.upd with waiver := some { left := allowance, digest := (digest ++ zeros 48).take 48 } } }, .ok [])

def execUpdWaiver (r : Req) (allowance : Byte) (digest : List Byte) (sigOk : Bool) (s : State) : Result :=
  .next (runCmd r (keyCmd 0x1020 (decide (r.len = 152)) .system (needStat (decide (allowance ≠ 0)) stat_range) (decide (s.sys.mode = .workshop)))
    (fun _ s => waiverBody allowance.toNat digest sigOk s) s)

/-- 60 s without a write: an open target is discarded (R443). -/
def execUpdTargetTimeout (s : State) : Result := .next (updDiscardOpen s)

end Sys2Proof.Machine
end

