-- ==== Sys2Proof/Machine/FieldX.lean ====
section
/-! DEFINITION. The isolated bank: the barrier link (R189, R190), its field side (R187, R191, R193), its faults (R194), its
data-path registers (R195, R196) and its commands. -/

namespace Sys2Proof.Machine

/-! ### Frames -/

/-- One bit of the frame CRC, polynomial 0x8BB7 (R190). -/
def crcBit (c : U16) (b : Bool) : U16 := if c.msb != b then (c <<< 1) ^^^ 0x8BB7 else c <<< 1

/-- CRC over frame bits 127:16, most significant first. -/
def frameCrc (f : BitVec 128) : U16 := (List.range 112).foldl (fun c i => crcBit c (f.getLsbD (127 - i))) 0xFFFF

/-- A field of a frame: `len` bits from bit `lo`. -/
def frameField (f : BitVec 128) (lo len : Nat) : Nat := (f.extractLsb' lo len).toNat

/-- A frame of header, sequence, 64 command or state bits and 32 further bits, with its CRC (Table 7.6). -/
def frameOf (header : Nat) (seq : Byte) (pairs : Nat → Nat) (low : Nat) : BitVec 128 :=
  let body : BitVec 128 := BitVec.ofNat 128
    (header * 2 ^ 120 + seq.toNat * 2 ^ 112 + (List.range 32).foldl (fun a k => a + (pairs k % 4) * 2 ^ (48 + 2 * k)) 0 + low * 2 ^ 16)
  body ||| (frameCrc body).zeroExtend 128

/-- CRC, direction and sequence of a valid frame (R190). -/
def frameValid (f : BitVec 128) (dir : Nat) (last : Option Byte) : Bool :=
  decide (f.extractLsb' 0 16 = frameCrc f) && decide (frameField f 126 2 = dir) && decide (last ≠ some (f.extractLsb' 112 8))

/-- The next downlink frame: commands of the OUT channels and the first waiting word (R189). -/
def State.downFrame (s : State) : BitVec 128 :=
  let b := s.fio.bank
  let pairs := fun k => if (s.xch k).cfg.mode = .out then (s.xch k).sent else 0
  match b.words with
  | w :: _ => frameOf 0x60 (b.downSeq + 1) pairs (w.1 * 2 ^ 24 + w.2)
  | [] => frameOf 0x40 (b.downSeq + 1) pairs 0

/-- Every 10 µs while the primary side runs (R189). -/
def downlink (s : State) : State :=
  if s.xioOn && decide (s.sys.mode ≠ .basecamp) then
    let t := xSend s
    t.modBank (fun b => { b with downSeq := b.downSeq + 1, line := t.downFrame })
  else s

def execBarrierDownlinkFrame (s : State) : Result := .next (downlink s)

/-! ### Field side -/

def xModeOf : Nat → Option XMode
  | 0 => some .in3
  | 1 => some .in1
  | 2 => some .out
  | _ => none

def xSafeOf : Nat → Option XSafe
  | 0 => some .off
  | 1 => some .on
  | 2 => some .hold
  | _ => none

/-- A configuration word is applied, and `CFG_ACK` toggles; an undefined address or value is not applied. Of `CFG_NEEDED` the spec says
that it marks power-up defaults: the model clears it at the first word applied (DESIGN CHOICE, log entry 133). -/
def xApplyWord (addr data : Nat) (s : State) : State :=
  let done (s : State) := s.modBank (fun b => { b with fAck := !b.fAck, fCfgNeeded := false })
  if addr < 0x20 then
    match xModeOf (data % 4), xSafeOf (data / 4 % 4) with
    | some m, some sf =>
      done (s.modX addr (fun x => { x with
        fCfg := { mode := m, safe := sf, owEn := decide (data / 16 % 2 = 1), xdb := data / 256 % 256 }
        fCfgSet := true, fOut := x.fOut && decide (m = .out) }))
    | _, _ => s
  else if addr = 0x20 then done (s.modBank (fun b => { b with fXto := data % 16384 }))
  else s

/-- Frames lost before a valid one: a jump of more than 1 in the sequence (R190). -/
def seqJump (last : Option Byte) (seq : Byte) : Nat :=
  match last with
  | some q => (seq - q).toNat - 1
  | none => 0

/-- A valid downlink frame: its word, then its commands (R190, R191). -/
def xReceive (f : BitVec 128) (s : State) : State :=
  let b := s.fio.bank
  if b.fPowered && frameValid f 1 b.fDownSeq then
    let seq : Byte := f.extractLsb' 112 8
    let s := s.modBank (fun b => { b with fDownSeq := some seq, fLost := b.fLost + seqJump b.fDownSeq seq, fTimedOut := false })
    let s := if f.getLsbD 125 then xApplyWord (frameField f 40 8) (frameField f 16 24) s else s
    (List.range xCount).foldl (fun s k => s.modX k (fun x => x.follow (frameField f (48 + 2 * k) 2))) s
  else s

def execBarrierDownlinkReceived (frame : BitVec 128) (s : State) : Result := .next (xReceive frame s)

/-- t_XTO without a valid frame: every output safe, one more timeout (R191). -/
def xTimeout (s : State) : State :=
  let b := s.fio.bank
  if b.fPowered && !b.fTimedOut then
    (xSafeAll s).modBank (fun b => { b with fTimedOut := true, fTimeouts := (b.fTimeouts + 1) % 256 })
  else s

def execXLinkTimeout (s : State) : Result := .next (xTimeout s)

/-- The output follows its command again; an unpowered field side drives none (R193). -/
def XChan.refresh (x : XChan) (powered : Bool) : XChan := { x with fOut := powered && x.fieldOut x.fCmd }

/-- 2 ms in limit or low: the output turns off (Table 7.5). -/
def execXOverload (k : Fin 32) (s : State) : Result :=
  .next (s.modX k.val (fun x => if x.fOut then { x with fOvl := true, fOut := false } else x))

/-- A retry every 100 ms while commanded on; one that runs 2 ms without the condition ends it. -/
def XChan.retryOvl (x : XChan) (powered clear : Bool) : XChan :=
  let y := { x with fOvl := false }.refresh powered
  if x.fOvl && clear && y.fOut then y else x

def execXOverloadRetry (k : Fin 32) (clear : Bool) (s : State) : Result := .next (s.modX k.val (fun x => x.retryOvl s.fio.bank.fPowered clear))

/-- 10 ms below the open-wire level: of an output that is on, or of an input with `OW_EN`. -/
def XChan.watchesOpen (x : XChan) : Bool := if x.fCfg.mode = .out then x.fOut else x.fCfg.owEn

def execXOpenWire (k : Fin 32) (s : State) : Result :=
  .next (s.modX k.val (fun x => if x.watchesOpen then { x with fOpen := true } else x))

def execXOpenWireEnd (k : Fin 32) (s : State) : Result := .next (s.modX k.val (fun x => { x with fOpen := false }))

def execXOvertemp (k : Fin 32) (s : State) : Result :=
  .next (s.modX k.val (fun x => { x with fOt := true, fOut := false }))

/-- Below 130 °C the output follows its command again. -/
def execXOvertempEnd (k : Fin 32) (s : State) : Result := 
  .next (s.modX k.val (fun x => { x with fOt := false }.refresh s.fio.bank.fPowered))

def execXvfLow (s : State) : Result := .next (s.modBank (fun b => { b with fXvfLow := b.fXvfLow || b.fPowered }))
def execXvfLowEnd (s : State) : Result := .next (s.modBank (fun b => { b with fXvfLow := false }))

/-- Below 15 V: every output off, no frames (R193). -/
def execXvfFail (s : State) : Result :=
  .next { s with fio := { s.fio with
    x := s.fio.x.mapAll (fun _ x => { x with fOut := false, fCmd := 0, fCfgSet := false })
    bank := { s.fio.bank with fPowered := false } } }

/-- At 16 V the field side restarts at its defaults (R193); still below 17 V, it reports `XVF_LOW`. R193 does not name the timeout count
among what restarts: it stays (DESIGN CHOICE, log entry 133). -/
def xRestart (s : State) : State :=
  { s with fio := { s.fio with
    x := s.fio.x.mapAll (fun _ x =>
      { x with fCfg := .default, fCfgSet := false, fOut := false, fCmd := 0, fOvl := false, fOpen := false, fOt := false })
    bank := { s.fio.bank with fPowered := true, fDownSeq := none, fAck := false, fXto := 100, fTimedOut := false,
                              fCfgNeeded := true, fXvfLow := true } } }

def execXvfRecover (s : State) : Result := .next (if s.fio.bank.fPowered then s else xRestart s)

/-- The next frame that the field side sends (Tables 7.6, 7.7), with its own next sequence (R190): `levels` are the filtered input and
readback levels, `status` is page 3's voltage and temperature half. -/
def State.upFrame (s : State) (levels : U32) (page status : Nat) : BitVec 128 :=
  let b := s.fio.bank
  let seq := b.fUpSeq + 1
  let word := match page with
    | 0 => maskOf 32 (fun k => (s.xch k).fOvl)
    | 1 => maskOf 32 (fun k => (s.xch k).fOpen)
    | 2 => maskOf 32 (fun k => (s.xch k).fOt)
    | _ => status * 256 + b.fTimeouts
  frameOf (0x80 + bit b.fCfgNeeded * 32 + bit b.fXvfLow * 16 + bit b.fAck * 8 + page % 4) seq
    (fun k => bit (levels.getLsbD k) + 2 * bit ((s.xch k).fOvl || (s.xch k).fOpen || (s.xch k).fOt)) word

/-! ### Uplink frames at the primary side -/

/-- A bank event is device-wide (R197). -/
def raiseBank (k : EvKind) (s : State) : State := if s.mgrUp then raise k noInst .wide [] s else s

def raiseX (k : EvKind) (i : Nat) (data : List Byte) (s : State) : State := raiseFio k i (s.xOwner i) data s

/-- A `FIO.X_SAFE` that waits is answered (the text after Table 7.19). -/
def xSafeAnswer (st : U16) (s : State) : State :=
  match s.fio.bank.safeReq with
  | none => s
  | some (p, tag, seq) =>
    respond { port := p, tag := tag, seq := seq, version := 1, len := 12, resvZero := true } 0x050A st []
      (s.modBank (fun b => { b with safeReq := none }))

/-- `CFG_ACK` has toggled: the word is done (R189), and its channel's state in force follows the record now applied (R188). -/
def xAcked (ack : Bool) (s : State) : State :=
  if s.fio.bank.ackSeen = ack then s
  else
    let t := s.modBank (fun b => { b with ackSeen := ack, words := b.words.tail })
    let t := match s.fio.bank.words with
      | w :: _ => if w.1 < xCount then t.modX w.1 (fun x => x.put x.sent s.now) else t
      | [] => t
    if t.fio.bank.words.isEmpty then xSafeAnswer stat_ok t else t

/-- Readback of an output (R188): three frames in a row, from 200 µs after a change of the state in force. What a channel drives is not
known to the primary side while its configuration word waits, so nothing is compared then. The start of `RBERR` raises
`EVT_FIO_X_READBACK` alone, and `FIO_X_STATE` shows the field side's diagnostics alone (DESIGN CHOICE, log entry 134). -/
def readback (k : Nat) (level : Bool) (s : State) : State :=
  let x := s.xch k
  if x.cfg.mode ≠ .out ∨ s.now - x.forceAt < 200 * Config.ticksPerUs ∨ s.fio.bank.words.any (fun w => w.1 == k) then s
  else
    let miss := level != x.force
    let bad := if miss then min 3 (x.bad + 1) else 0
    let good := if miss then 0 else min 3 (x.good + 1)
    let set := decide (bad = 3) && !x.rbErr
    let t := s.modX k (fun x => { x with bad := bad, good := good, rbErr := (x.rbErr || set) && decide (good < 3) })
    if set then raiseX evt_fioXReadback k [] t else t

/-- A diagnostic bit of page `page`; each start of a condition raises an event that names it (R187), by its page number (DESIGN CHOICE,
log entry 134). -/
def xDiag (page k : Nat) (on : Bool) (s : State) : State :=
  let x := s.xch k
  let was := match page with
    | 0 => x.ovl
    | 1 => x.open_
    | _ => x.ot
  let t := s.modX k (fun x => match page with
    | 0 => { x with ovl := on }
    | 1 => { x with open_ := on }
    | _ => { x with ot := on })
  if on && !was then raiseX evt_fioXDiag k [byteOf page] t else t

/-- Page 3: `XVF`, and a change of the timeout count (Table 7.10). -/
def xStatusPage (word : U32) (s : State) : State :=
  let b := s.fio.bank
  let count := bits word 0 8
  let t := s.modBank (fun b => { b with xvf := bits word 16 16, timeouts := count, sawPage3 := true,
                                        timedOut := b.timedOut || (b.sawPage3 && decide (b.timeouts ≠ count)) })
  if b.sawPage3 && decide (b.timeouts ≠ count) then raiseBank evt_fioXTimeout t else t

def xPage (f : BitVec 128) (s : State) : State :=
  let page := frameField f 120 2
  if page = 3 then xStatusPage (f.extractLsb' 16 32) s
  else (List.range xCount).foldl (fun s k => xDiag page k (f.getLsbD (16 + k)) s) s

/-- Reported state of a channel: diagnostic active, else its level (Table 7.12). -/
def xStateOf (pair : Nat) : Nat := if 2 ≤ pair then 2 else pair

/-- A channel's reported state; high is the level that capture source 0x100 + k watches (Table 13.5). -/
def xShow (k st : Nat) (s : State) : State :=
  captureLevel (0x100 + k) (decide ((s.xch k).state = 1)) (decide (st = 1)) (s.modX k (fun x => { x with state := st }))

/-- The states of a frame, readback included. -/
def xStates (f : BitVec 128) (s : State) : State :=
  (List.range xCount).foldl (fun s k =>
    let pair := frameField f (48 + 2 * k) 2
    readback k (decide (pair % 2 = 1)) (xShow k (xStateOf pair) s)) s

/-- Header bits of a valid frame while the link is up: `CFG_NEEDED` newly set sends the configuration again, and `XVF_LOW`
newly set raises its event (R194). -/
def xHeader (f : BitVec 128) (s : State) : State :=
  let b := s.fio.bank
  let need := f.getLsbD 125
  let low := f.getLsbD 124
  let t := s.modBank (fun b => { b with cfgNeeded := need, xvfLow := low })
  let t := if need && !b.cfgNeeded then t.modBank (fun b => b.queue t.fio.xWords) else t
  if low && !b.xvfLow then raiseBank evt_fioXvfLow t else t

/-- The content of a valid frame while the link is up. -/
def xContent (f : BitVec 128) (s : State) : State :=
  evalRules (fioSnapUpdate (xStates f (xPage f (xAcked (f.getLsbD 123) (xHeader f s)))))

/-- The link comes up: the configuration goes out again if the field side needs it (R194). -/
def xLinkUp (f : BitVec 128) (s : State) : State :=
  let t := s.modBank (fun b => { b with up := true, run := 0, ackSeen := f.getLsbD 123, cfgNeeded := f.getLsbD 125 })
  let t := if f.getLsbD 125 then t.modBank (fun b => b.queue t.fio.xWords) else t
  raiseBank evt_fioXLinkUp t

/-- The field side has sent a frame, with the next sequence (R190). -/
def upSent (s : State) : State := s.modBank (fun b => if b.fPowered then { b with fUpSeq := b.fUpSeq + 1 } else b)

/-- An uplink frame arrives (R190, R194). -/
def uplink (f : BitVec 128) (s : State) : State :=
  let s := upSent s
  let b := s.fio.bank
  if !s.xioOn then s
  else if f.extractLsb' 0 16 ≠ frameCrc f then s.modBank (fun b => { b with crcErr := satInc 0xFF b.crcErr, run := 0 })
  else if !frameValid f 2 b.upSeq then s.modBank (fun b => { b with run := 0 })
  else
    let seq : Byte := f.extractLsb' 112 8
    let jump := seqJump b.upSeq seq
    let t := s.modBank (fun b => { b with upSeq := some seq, lost := b.lost + jump, run := if jump = 0 then b.run + 1 else 1 })
    if b.up then xContent f t
    else if 4 ≤ t.fio.bank.run then xContent f (xLinkUp f t)
    else t

def execBarrierUplinkFrame (frame : BitVec 128) (s : State) : Result := .next (uplink frame s)

/-- 50 µs without a valid uplink frame (R194). -/
def xLost (s : State) : State :=
  if s.xioOn && s.fio.bank.up then
    let t := (List.range xCount).foldl (fun s k => xShow k 3 (s.modX k (fun c => { c with bad := 0, good := 0 }))) s
    let t := t.modBank (fun b => { b with up := false, run := 0 })
    evalRules (xSafeAnswer stat_fioLink (raiseBank evt_fioXLinkLost t))
  else s

def execXUplinkLost (s : State) : Result := .next (xLost s)

/-! ### Data-path registers -/

def State.xSlot (s : State) (v : Nat) : XSlot := s.fio.slots.getD .reset v

def State.ownsX (s : State) (v : Nat) : Bool := (List.range xCount).any (fun k => decide (s.xOwner k = some v))

/-- `FIO_X_BANK` (Table 7.16): the command flags are the slot's own; `TIMED_OUT` and `CRC_ERR` are the bank's, one for all VZFs (DESIGN
CHOICE, log entry 135). -/
def State.xBankWord (s : State) (t : XSlot) : U32 :=
  let b := s.fio.bank
  wordOf [(bit b.up, 31), (bit b.cfgNeeded, 30), (bit b.xvfLow, 29), (bit b.timedOut, 28), (bit t.stale, 27), (bit t.bad, 26),
    (min 255 (b.xvf / 2), 8), (min 255 b.crcErr, 0)]

/-- A read returns `CRC_ERR` and clears it (R10), for every VZF (log entry 135). -/
def readXBank (v : Nat) (s : State) : State :=
  if s.ownsX v then
    { s.modBank (fun b => { b with crcErr := 0 }) with bus := (s.xBankWord (s.xSlot v)).zeroExtend 64 }
  else windowFault v s

def execFioXBankRead (v : Fin 256) (s : State) : Result := .next (readXBank v.val s)

def State.modSlot (s : State) (v : Nat) (f : XSlot → XSlot) : State :=
  { s with fio := { s.fio with slots := s.fio.slots.modify .reset v f } }

/-- The bits of the channels that VZF `v` owns (R195). -/
def State.ownXBits (s : State) (v : Nat) : U32 := BitVec.ofNat 32 (maskOf 32 (fun k => decide (s.xOwner k = some v)))

/-- A write to `FIO_X_CMD_MASK`: bits of channels that the VZF does not own are ignored, which `BAD_CMD` tells at the doorbell. -/
def xMaskWrite (v : Nat) (w : U32) (s : State) : State :=
  s.modSlot v (fun t => { t with mask := w &&& s.ownXBits v, maskBad := decide (w &&& ~~~s.ownXBits v ≠ 0) })

/-- Commands for the channels `ks` of VZF `v`: held in Start-up (R40), else in force (R196). -/
def xPut (v : Nat) (ks : List Nat) (val : U32) (gen seq : U16) (s : State) : State :=
  if s.sys.mode = .startup then
    (ks.foldl (fun s k => s.modX k (fun x => { x with held := some (val.getLsbD k) })) s).modSlot v
      (fun t => { t with heldAck := some (gen, seq) })
  else
    (ks.foldl (fun s k => s.modX k (fun x => { x with cmd := val.getLsbD k, held := none, waits := false })) s).modSlot v
      (fun t => { t with ackGen := gen, ackSeq := seq, heldAck := none })

/-- The doorbell (R196): a write of another generation is discarded. -/
def xDoorbell (v : Nat) (val : U32) (s : State) : State :=
  if !s.ownsX v then windowFault v s
  else if (s.vzf v).life ≠ .active then s
  else
    let t := s.xSlot v
    if t.tagGen ≠ (s.vzf v).gen then s.modSlot v (fun t => { t with stale := true })
    else
      let named := (List.range xCount).filter (fun k => t.mask.getLsbD k)
      let good := named.filter (fun k => decide (s.xOwner k = some v) && decide ((s.xch k).cfg.mode = .out))
      let s := s.modSlot v (fun t => { t with val := val &&& s.ownXBits v, bad := t.bad || t.maskBad || decide (good.length < named.length) })
      xPut v good val t.tagGen t.tagSeq s

def execFioXCmdValWrite (v : Fin 256) (value : U32) (s : State) : Result := .next (xDoorbell v.val value s)

/-! ### Commands (Table 7.19) -/

/-- R186: the mode may change only while the output command is off. -/
def xConfigBody (k : Nat) (m : XMode) (xdb : Nat) (ow : Bool) (s : State) : State × Reply :=
  let x := s.xch k
  if x.cfg.mode ≠ m ∧ (x.cmd ∨ x.sent = 1) then (s, .fail stat_badState)
  else if !s.fio.bank.up then (s, .fail stat_fioLink)
  else
    let t := s.modX k (fun x => { x with cfg := { x.cfg with mode := m, xdb := xdb, owEn := ow } })
    (t.modBank (fun b => b.queue [(k, (t.xch k).cfg.word)]), .ok [])

def execFioXConfig (r : Req) (channel mode tXdb flags : Byte) (s : State) : Result :=
  .next (runCmd r { code := 0x0507, lenOk := decide (r.len = 4)
                    need := if channel.toNat ≤ 31 then .owner (s.xOwner channel.toNat) else .any
                    payload := orStat (needStat (decide (channel.toNat ≤ 31)) stat_range)
                      (needStat (decide (mode.toNat ≤ 2) && decide (flags.toNat ≤ 1)) stat_badPayload)
                    modeOk := s.sys.mode.isRunLimpWork }
    (fun _ s => xConfigBody channel.toNat ((xModeOf mode.toNat).getD .in3) tXdb.toNat (flagOf flags 0) s) s)

/-- `FIO_X_CMD_OUT` as a port sees it. -/
def State.xOutWord (s : State) (own : Nat → Bool) : U32 := BitVec.ofNat 32 (maskOf 32 (fun k => own k && (s.xch k).cmd))

/-- Each owner's channels take their bits as a command of its current generation (R196). -/
def xSetBody (r : Req) (mask values : U32) (p : Port) (s : State) : State × Reply :=
  let ks := (List.range xCount).filter (fun k => mask.getLsbD k)
  if ks.any (fun k => decide ((s.xch k).cfg.mode ≠ .out)) then (s, .fail stat_fioMode)
  else
    let owners := (ks.filterMap s.xOwner).eraseDups
    let t := owners.foldl (fun t v =>
      xPut v (ks.filter (fun k => decide (s.xOwner k = some v))) values (s.vzf v).gen (r.seq.extractLsb' 0 16) t) s
    (t, .ok (le32 (t.xOutWord (seen p t.xOwner))))

def execFioXSet (r : Req) (mask values : U32) (s : State) : Result :=
  .next (runCmd r { code := 0x0508, lenOk := decide (r.len = 8)
                    need := ownersNeed s r s.xOwner ((List.range xCount).filter (fun k => mask.getLsbD k))
                    payload := none, modeOk := s.sys.mode.isRunWork }
    (xSetBody r mask values) s)

/-- The command flags that a port sees are those of its own VZF. -/
def State.portSlot (s : State) (p : Port) : XSlot :=
  match p.vzf with
  | some v => s.xSlot v
  | none => .reset

def xReadBody (p : Port) (s : State) : State × Reply :=
  let own := seen p s.xOwner
  let word (f : XChan → Bool) : List Byte := n32 (maskOf 32 (fun k => own k && f (s.xch k)))
  (s, .ok (le32 (pack2 0 own (fun k => (s.xch k).state)) ++ le32 (pack2 16 own (fun k => (s.xch k).state))
    ++ word (·.ovl) ++ word (·.open_) ++ word (·.ot) ++ word (·.rbErr) ++ le32 (s.xBankWord (s.portSlot p))
    ++ n16 (s.fio.bank.xvf * 10) ++ n16 s.fio.bank.timeouts))

def execFioXRead (r : Req) (s : State) : Result :=
  .next (runCmd r { code := 0x0509, lenOk := decide (r.len = 0), need := ownsOneNeed s r s.xOwner xCount, payload := none, modeOk := s.sys.mode.isServing }
    xReadBody s)

/-- The safe states and t_XTO go out as configuration words; the answer waits for their acknowledgement (R191). -/
def xSafeBody (r : Req) (safe : U64) (tXto : Nat) (s : State) : State × Option Reply :=
  if !s.fio.bank.up then (s, some (.fail stat_fioLink))
  else if s.fio.bank.safeReq.isSome then (s, some (.fail stat_busy))
  else
    let t := (List.range xCount).foldl (fun t k =>
      t.modX k (fun x => { x with cfg := { x.cfg with safe := (xSafeOf (safe.extractLsb' (2 * k) 2).toNat).getD .off } })) s
    let t := t.modBank (fun b => { b with tXto := tXto, safeReq := some (r.port, r.tag, r.seq) })
    (t.modBank (fun b => b.queue t.fio.xWords), none)

def execFioXSafe (r : Req) (safe : U64) (tXto : U16) (s : State) : Result :=
  .next (runLater r { code := 0x050A, lenOk := decide (r.len = 12), need := .system
                      payload := orStat (needStat ((List.range 32).all (fun k => decide (safe.extractLsb' (2 * k) 2 ≠ 3))) stat_badPayload)
                        (needStat (decide (2 ≤ tXto.toNat) && decide (tXto.toNat ≤ 10000)) stat_range)
                      modeOk := decide (s.sys.mode = .workshop) }
    (fun _ s => xSafeBody r safe tXto.toNat s) s)

end Sys2Proof.Machine
end

