-- ==== Sys2Proof/Machine/Saf.lean ====
section
/-! DEFINITION. The safety cluster: pairs, partitions and checkpoints (R392 to R396), the fatal lockstep fault (R397) and the
stacking extension (R398 to R402). -/

namespace Sys2Proof.Machine

def State.pair (s : State) (p : Nat) : Pair := s.saf.pairs.getD .reset p

def State.modPair (s : State) (p : Nat) (f : Pair → Pair) : State :=
  { s with saf := { s.saf with pairs := s.saf.pairs.modify .reset p f } }

def allPairs : List Nat := List.range 4

/-- Safety cluster events are device-wide, with the pair as source instance (R416). -/
def raiseSaf (k : EvKind) (p : Nat) (data : List Byte) (s : State) : State := raise k p .wide data s

/-- The pair may run partitions: not retired, and not failed by an injection test of this start (R393, R395). -/
def Pair.usable (p : Pair) : Bool := !p.retired && (p.healthy || !p.tested)

/-- The serving pair of a `HOST_SAF` VZF (R393). -/
def State.servingPair (s : State) (v : Nat) : Option Nat :=
  allPairs.find? (fun p => (s.pair p).usable && (s.pair p).parts.any (fun x => decide (x.vzf = v)))

/-- Healthy pairs, the spare included (R29). -/
def State.healthyPairs (s : State) : Nat := (allPairs.filter (fun p => (s.pair p).healthy)).length

/-- A spare that can take a pair's partitions: healthy, serving none, and not already taking another pair's (R393). -/
def State.freeSpare (s : State) (p : Nat) : Option Nat :=
  match s.saf.spare with
  | some q => if q ≠ p && (s.pair q).healthy && (s.pair q).parts.isEmpty && s.saf.migrating.isNone then some q else none
  | none => none

/-- Fewer healthy pairs than A_PAIRS take the ZM9 from Run to Limp (R28, R29). -/
def pairsCheck (s : State) : State :=
  if s.sys.mode = .run && decide (s.healthyPairs < s.cfg.image.aPairs) then limpEntry trigPairs s else s

/-! ### Lockstep faults -/

/-- The VZFs that the pair served take the scoped arrest (R397). -/
def scopedArrest (p : Nat) (s : State) : State :=
  let vs := (s.pair p).parts.map (·.vzf)
  let s := { s with vz := vs.foldl (fun z v => if (s.vzf v).exists_ then z.modify v (fun x => { x with scopedArrest := true }) else z) s.vz }
  xSend (urgent (raise evt_rfxScopedArrest noInst .wide [] s))

/-- A fatal lockstep fault (R397): self-arrest with source 8 below two healthy pairs, else a scoped arrest. -/
def fatalLockstep (p : Nat) (s : State) : State :=
  if s.healthyPairs < 2 then selfArrest 8 (n16 p) s else scopedArrest p s

/-- A retired pair: its cores stay halted, its partitions stopped and `PD_SAFp` off until the next start (R396). -/
def Pair.retire (x : Pair) : Pair :=
  { x with healthy := false, halted := true, retired := true, parts := x.parts.map (fun y => { y with running := false }) }

def retirePair (p : Nat) (s : State) : State :=
  let s := s.modPair p Pair.retire
  { s with sys := { s.sys with domains := s.sys.domains.filter (fun d => d != pdSaf p) } }

/-- A retired pair's partitions wait for the spare, or the fault is fatal; then R28 decides the mode. -/
def losePair (p : Nat) (s : State) : State :=
  pairsCheck (match s.freeSpare p with
    | some _ => { s with saf := { s.saf with migrating := some p } }
    | none => fatalLockstep p s)

/-- t0 of Table 14.5: both cores halt and the partitions stop. -/
def lockstepMismatch (p g : Nat) (s : State) : State :=
  if (s.pair p).retired || (s.pair p).halted || !s.mgrUp then s
  else raiseSaf evt_safMismatch p (n16 g)
    (s.modPair p (fun x => { x with halted := true, parts := x.parts.map (fun y => { y with running := false }) }))

def execLockstepMismatch (pair : Fin 4) (group : Fin 8) (s : State) : Result := .next (lockstepMismatch pair.val group.val s)

/-- Transients of the pair within the last hour (R396). -/
def Pair.recent (x : Pair) (now : Nat) : List Nat :=
  x.transients.filter (fun a => decide (now < a + 3600 * Config.ticksPerSecond))

/-- The decision at t0 + 3 ms and, for a transient, the injection test and the restart from the last checkpoints (R396). -/
def lbistDecision (p : Nat) (pass injectOk : Bool) (s : State) : State :=
  let x := s.pair p
  let recent := s.now :: x.recent s.now
  if x.retired || !x.halted then s
  else if !pass then losePair p (raiseSaf evt_safPairRetired p [] (retirePair p s))
  else
    let s := s.modPair p (fun x => { x with transients := recent })
    if 3 ≤ recent.length then losePair p (raiseSaf evt_safPairRetired p [] (retirePair p s))
    else if !injectOk then losePair p (raiseSaf evt_pairTestFail p [] (retirePair p s))
    else raiseSaf evt_safTransient p []
      (s.modPair p (fun x => { x with halted := false, parts := x.parts.map (fun y => { y with running := true }) }))

def execPairLbistDecision (pair : Fin 4) (pass injectOk : Bool) (s : State) : Result :=
  .next (lbistDecision pair.val pass injectOk s)

/-- The partitions of pair `p` go to pair `q` and run there; `q` is no longer the spare (R393, R396). -/
def moveParts (p q : Nat) (s : State) : State :=
  let parts := (s.pair p).parts.map (fun y => { y with running := true, copying := none })
  let s := (s.modPair p (fun x => { x with parts := [] })).modPair q (fun x => { x with parts := parts })
  { s with saf := { s.saf with spare := none, migrating := none } }

/-- t0 + 10 ms of Table 14.5. A spare that has itself retired meanwhile leaves the fault fatal. -/
def pairMigration (s : State) : State :=
  match s.saf.migrating with
  | none => s
  | some p =>
    let s := { s with saf := { s.saf with migrating := none } }
    match s.freeSpare p with
    | some q => raiseSaf evt_safMigrated q [] (moveParts p q s)
    | none => pairsCheck (fatalLockstep p s)

def execPairMigration (s : State) : Result := .next (pairMigration s)

/-! ### Checkpoints -/

def Pair.modPart (x : Pair) (n : Nat) (f : Partition → Partition) : Pair :=
  { x with parts := x.parts.map (fun y => if y.num = n then f y else y) }

/-- The slot that the next checkpoint of a partition goes to: the two are used in turn (R394). -/
def Partition.nextSlot (y : Partition) : Nat := (y.last.map (fun k => 1 - k)).getD 0

/-- `SAF_CKPT_GO` (Table 14.7): bit 31 starts the copy of the partition in bits 1:0. -/
def ckptGo (p : Nat) (value : U32) (s : State) : State :=
  if value.getLsbD 31 then s.modPair p (fun x => x.modPart (bits value 0 2) (fun y => { y with copying := some y.nextSlot }))
  else s

def execSafCkptGoWrite (pair : Fin 4) (value : U32) (s : State) : Result := .next (ckptGo pair.val value s)

/-- A copy becomes the last checkpoint when it completes (R394). -/
def execCheckpointComplete (pair : Fin 4) (part : Fin 4) (s : State) : Result :=
  .next (s.modPair pair.val (fun x => x.modPart part.val (fun y => match y.copying with
    | some k => { y with last := some k, copying := none }
    | none => y)))

/-! ### The stacking extension -/

/-- The 20 words of a frame in the order of Table 14.10; `sp` is the one before the trap. -/
def frameWords (r : CoreRegs) (sp : U32) : List U32 :=
  [r.mepc, r.mstatus, r.mcause, sp, r.ra, r.t0, r.t1, r.t2, r.a0, r.a1, r.a2, r.a3, r.a4, r.a5, r.a6, r.a7, r.t3, r.t4, r.t5,
    r.t6]

def frameBytes (r : CoreRegs) (sp : U32) : List Byte := (frameWords r sp).flatMap le32

def CoreRegs.unstack (r : CoreRegs) (m : Memory) (a : Nat) : CoreRegs :=
  let w := fun o => memRead32 m (a + o)
  { r with mepc := w 0, mstatus := w 4, sp := w 12, ra := w 16, t0 := w 20, t1 := w 24, t2 := w 28, a0 := w 32, a1 := w 36,
           a2 := w 40, a3 := w 44, a4 := w 48, a5 := w 52, a6 := w 56, a7 := w 60, t3 := w 64, t4 := w 68, t5 := w 72, t6 := w 76 }

def PmpRegion.holds (g : PmpRegion) (lo hi : Nat) : Bool := decide (g.base ≤ lo) && decide (hi < g.base + g.size)

/-- The checks of R399 on a chosen pointer: `REASON` 1 misaligned, 2 not writable, 3 no room. -/
def stackFault (pmp : List PmpRegion) (s : Nat) : Option Nat :=
  if s % 16 ≠ 0 then some 1
  else if s < 80 then some 3
  else if pmp.any (fun g => g.holds (s - 80) (s - 1) && g.writable && g.tcm) then none
  else if pmp.any (fun g => g.holds (s - 1) (s - 1) && g.writable && g.tcm) then some 3
  else some 2

/-- The first two checks of R399 on a readable range (R400). -/
def frameOk (pmp : List PmpRegion) (s : Nat) : Bool :=
  decide (s % 16 = 0) && pmp.any (fun g => g.holds s (s + 79) && g.readable)

/-- `mstatus` at a trap: MPIE takes MIE, MIE clears, MPP takes the mode trapped from. -/
def trapStatus (m : U32) (user : Bool) : U32 :=
  (m &&& 0xFFFFE777) ||| (if m.getLsbD 3 then 0x80 else 0) ||| (if user then 0 else 0x1800)

/-- `mstatus` after `mret`: MIE takes MPIE, MPIE sets, MPP clears. -/
def mretStatus (m : U32) : U32 := (m &&& 0xFFFFE777) ||| (if m.getLsbD 7 then 0x8 else 0) ||| 0x80

/-- MPP names U-mode. -/
def toUser (m : U32) : Bool := decide (bits m 11 2 = 0)

/-- The handler's address. -/
def handler (r : CoreRegs) : U32 := r.mtvec &&& 0xFFFFFFFC

def emergencyFrame : Nat := 0x1007FFB0

/-- R402: a stacking fault while `EFB` is set halts and retires the pair; its partitions are not moved. -/
def stackFatal (p : Nat) (s : State) : State :=
  pairsCheck (fatalLockstep p (raiseSaf evt_safStackFatal p [] (retirePair p s)))

/-- R401: the emergency frame, STACK_FAULT and the stopped partition. -/
def takeStackFault (p reason : Nat) (ptr : U32) (r : CoreRegs) (oldSp : U32) (s : State) : State :=
  let x := s.pair p
  if x.xstk.efb then stackFatal p s
  else
    let s := s.modPair p (fun x =>
      { x with
        tcm := memWrite x.tcm emergencyFrame (frameBytes r oldSp)
        regs := { r with mcause := 24, mtval := ptr, sp := x.xstk.esp, pc := handler r }
        xstk := { x.xstk with efb := true, reason := reason,
                              partStop := x.xstk.partStop ||| BitVec.ofNat 4 (2 ^ (x.xstk.partId % 4)) } })
    raiseSaf evt_safStackFault p (n16 p ++ n16 (x.xstk.partId % 4) ++ [byteOf reason]) s

/-- A trap into M-mode (R399). With `EN` clear nothing is stacked. -/
def trapStacking (p : Nat) (regs : CoreRegs) (pmp : List PmpRegion) (cause tval : U32) (user : Bool) (s : State) : State :=
  let x := s.pair p
  if x.retired || x.halted then s
  else
    let r := { regs with mepc := regs.pc, mcause := cause, mtval := tval, mstatus := trapStatus regs.mstatus user }
    let ptr := if user then x.xstk.msp else regs.sp
    let s := s.modPair p (fun x => { x with pmp := pmp })
    if !x.xstk.en then s.modPair p (fun x => { x with regs := { r with pc := handler r } })
    else match stackFault pmp ptr.toNat with
      | some reason => takeStackFault p reason ptr r regs.sp s
      | none => s.modPair p (fun x =>
        { x with tcm := memWrite x.tcm (ptr.toNat - 80) (frameBytes r regs.sp)
                 regs := { r with sp := ptr - 80, pc := handler r } })

def execTrapStacking (pair : Fin 4) (regs : CoreRegs) (pmp : List PmpRegion) (cause tval : U32) (user : Bool) (s : State) : Result :=
  .next (trapStacking pair.val regs pmp cause tval user s)

/-- `mret` (R400); a return into U-mode while the running partition is stopped is a STACK_FAULT again (R401). -/
def mretUnstack (p : Nat) (regs : CoreRegs) (pmp : List PmpRegion) (s : State) : State :=
  let x := s.pair p
  if x.retired || x.halted then s
  else
    let s := s.modPair p (fun x => { x with pmp := pmp })
    if x.xstk.en && !frameOk pmp regs.sp.toNat then takeStackFault p 4 regs.sp regs regs.sp s
    else
      let r := if x.xstk.en then regs.unstack x.tcm regs.sp.toNat else regs
      if toUser r.mstatus && x.xstk.partStop.getLsbD (x.xstk.partId % 4) then takeStackFault p 4 regs.sp regs regs.sp s
      else s.modPair p (fun x => { x with regs := { r with pc := r.mepc, mstatus := mretStatus r.mstatus } })

def execMretUnstack (pair : Fin 4) (regs : CoreRegs) (pmp : List PmpRegion) (s : State) : Result :=
  .next (mretUnstack pair.val regs pmp s)

end Sys2Proof.Machine
end

