-- ==== Sys2Proof/Machine/TimeBase.lean ====
section
/-! DEFINITION. View changes, captures and triggers as events, and the TIME commands (Table 13.9). -/

namespace Sys2Proof.Machine

def viewChange (v : Nat) (s : State) : State :=
  match (s.view v).change with
  | some c => applyChange v c s
  | none => s

def execViewChangeApply (view : Fin 16) (s : State) : Result := .next (viewChange view.val s)

/-- An edge of a source that no other command of the model carries: `WAKE_N`, a start of frame on a CAN bus, a PWM period start. The
other sources record at the command that carries their edge; this one beside it is one more edge (DESIGN CHOICE, log entry
131). -/
def execCaptureEvent (source : Fin 65536) (rising : Bool) (s : State) : Result := .next (captureEdge source.val rising s)

/-! ### Trigger units -/

/-- Action 1: the staged image as a command of the owner's current generation (R380); its sequence in `LSW_CH_ACK` is FREE. -/
def triggerCmd (t : Trigger) (v : Nat) (s : State) : State :=
  if s.chOwner t.target ≠ some v || !s.vzfActive v then s
  else match cmdImage t.target t.image with
    | none => discardBad t.target s
    | some im =>
      if im.target && !(s.bridge (t.target / 14)).posValid then discardBad t.target s
      else
        let c := capped im (s.vzf v).tpl.maxPrio (s.chan t.target).targetReg (s.vzf v).gen (Config.free16 s.free)
        urgentDie (t.target / 14) (enterSw t.target c s.draw)

/-- A unit reaches its due count (R380). -/
def triggerFire (u : Nat) (s : State) : State :=
  let t := s.trigger u
  if !t.armed then s
  else
    let s1 := if t.period = 0 then s.modTrigger u (fun t => { t with armed := false })
      else s.modTrigger u (fun t =>
        let n := { t with next := t.next + 1 }
        { n with due := n.convert (s.view t.view) })
    match t.owner with
    | none => s1
    | some v => if t.action = 0 then { s1 with vz := s1.vz.modify v (fun z => z.raiseVec t.target) } else triggerCmd t v s1

def execTriggerFire (unit : Fin 16) (s : State) : Result := .next (triggerFire unit.val s)

/-! ### Commands -/

def viewStat (v : Byte) : Option U16 := needStat (decide (v.toNat ≤ 15)) stat_range

def execTimeRead (r : Req) (view : Byte) (s : State) : Result :=
  .next (runCmd r { code := 0x0D01, lenOk := decide (r.len = 4), need := .any, payload := viewStat view
                    modeOk := s.sys.mode.isServing }
    (fun _ s =>
      let v := s.view view.toNat
      (s, .ok (le64 s.tb.count ++ (v.timeAt s.now).bytes ++ le32 v.flags ++ n64 v.baseCount ++ v.baseTime.bytes ++ zeros 4
        ++ n64 v.inc ++ n64 (match v.change with
                             | some c => c.at_
                             | none => 0)))) s)

def opBit (f : AdjustFields) (i : Nat) : Bool := flagOf f.ops i

/-- A count of 0 asks for the first whole multiple of 6,000 ticks at least 6,000 ahead (R376). -/
def chosenCount (now c : Nat) : Nat := if c = 0 then (now + 6000 + 5999) / 6000 * 6000 else c

def adjustChange (f : AdjustFields) (c : Nat) (owner : Option Nat) : ViewChange :=
  { at_ := c, rate := if opBit f 0 then some f.inc.toNat else none
    stepNs := if opBit f 1 then some (f.stepNs.toInt, f.stepFrac.toNat) else none
    set := if opBit f 2 then some { sec := f.sec.toNat, ns := f.ns.toNat, frac := f.frac.toNat } else none
    setValid := opBit f 4, clearValid := opBit f 5, owner := owner }

/-- Within ±1,000 ppm of the nominal increment (R370). -/
def incOk (inc : Nat) : Bool :=
  decide (nominalIncrement * 999 ≤ inc * 1000) && decide (inc * 1000 ≤ nominalIncrement * 1001)

def adjustStat (f : AdjustFields) : Option U16 :=
  orStat (viewStat f.view)
    (orStat (needStat (decide (f.ops.toNat < 64) && !(opBit f 1 && opBit f 2) && !(opBit f 4 && opBit f 5)) stat_badPayload)
      (needStat ((!opBit f 0 || incOk f.inc.toNat) && (!opBit f 2 || decide (f.ns.toNat < 1000000000))) stat_range))

/-- A view that a VZF may own but that is not allocated, or that the firmware servos (R373). -/
def State.viewClosed (s : State) (v : Nat) : Bool := (s.view v).fw || (decide (10 ≤ v) && !(s.view v).alloc)

def adjustBody (f : AdjustFields) (owner : Option Nat) (s : State) : State × Reply :=
  let v := f.view.toNat
  let c := chosenCount s.now f.c.toNat
  let ch := adjustChange f c owner
  if s.viewClosed v then (s, .fail stat_timeView)
  else if c < s.now + 6000 then (s, .fail stat_timePast)
  else if s.now + 600000000 < c then (s, .fail stat_range)
  else if (s.view v).change.isSome && !opBit f 3 then (s, .fail stat_timePending)
  else if (s.view v).newBase ch < 0 then (s, .fail stat_range)
  else (s.modView v (fun x => { x with change := some ch }), .ok (n64 c ++ le16 ((s.view v).gen + 1) ++ zeros 6))

def execTimeAdjust (r : Req) (f : AdjustFields) (s : State) : Result :=
  .next (runCmd r { code := 0x0D02, lenOk := decide (r.len = 48)
                    need := if f.view.toNat ≤ 15 then .owner (some (s.view f.view.toNat).owner) else .any
                    payload := adjustStat f, modeOk := s.sys.mode.isServing }
    (fun p s => adjustBody f p.vzf s) s)

/-- The lowest view of V10 to V15 that is not allocated. -/
def State.freeView (s : State) : Option Nat := (List.range 6).map (· + 10) |>.find? (fun v => !(s.view v).alloc)

def allocView (v z : Nat) (s : State) : State := s.modView v (fun x => { x with alloc := true, owner := z })

def freeViewAt (v : Nat) (s : State) : State := s.modView v (fun x => { x with alloc := false, owner := 255, change := none })

def viewAllocBody (op view vzf : Nat) (s : State) : State × Reply :=
  if op = 0 then
    if !(s.vzf vzf).exists_ then (s, .fail stat_range)
    else match (if view = 255 then s.freeView else if (s.view view).alloc then none else some view) with
      | some v => (allocView v vzf s, .ok [byteOf v, 0, 0, 0])
      | none => (s, .fail stat_noResource)
  else if view = 255 ∨ !(s.view view).alloc then (s, .fail stat_timeView)
  else (freeViewAt view s, .ok [byteOf view, 0, 0, 0])

def execTimeViewAlloc (r : Req) (op view vzf : Byte) (s : State) : Result :=
  .next (runCmd r { code := 0x0D03, lenOk := decide (r.len = 4), need := .system
                    payload := orStat (needStat (decide (op.toNat ≤ 1)) stat_badPayload)
                      (needStat ((decide (10 ≤ view.toNat) && decide (view.toNat ≤ 15)) || decide (view = 255)) stat_range)
                    modeOk := s.sys.mode.isServing }
    (fun _ s => viewAllocBody op.toNat view.toNat vzf.toNat s) s)

/-- A source of Table 13.5: none if undefined, else its owner, none for a device-wide source. -/
def captureSource (s : State) (src : Nat) : Option (Option (Option Nat)) :=
  if src < 0x40 then some (some (s.diOwner src))
  else if 0x100 ≤ src ∧ src < 0x120 then some (some (s.xOwner (src - 0x100)))
  else if src = 0x200 ∨ src = 0x201 ∨ src = 0x400 then some none
  else if 0x300 ≤ src ∧ src < 0x310 then some (some (s.canOwner (src - 0x300)))
  else if 0x500 ≤ src ∧ src < 0x570 then some (some (s.chOwner (src - 0x500)))
  else none

def edgeOf : Nat → Edge
  | 0 => .rising
  | 1 => .falling
  | _ => .both

/-- A unit is free, or the port may act on it (R379). -/
def unitStat (p : Port) (used : Bool) (owner : Option Nat) : Option U16 :=
  if p.sysPriv then none else if !used then none else if decide (owner = p.vzf) && p.vzf.isSome then none else some stat_timeNoUnit

def captureConfigure (u src edge : Nat) (p : Port) (s : State) : State × Reply :=
  let c := s.capture u
  let owner := if c.enabled then c.owner else p.vzf
  match unitStat p c.enabled c.owner, captureSource s src with
  | some st, _ => (s, .fail st)
  | none, none => (s, .fail stat_range)
  | none, some w =>
    match w with
    | some o =>
      if o = owner ∨ p.sysPriv then (s.modCapture u (fun _ => { Capture.reset with owner := owner, enabled := true, source := src, edge := edgeOf edge }), .ok [])
      else (s, .fail stat_notOwner)
    | none => (s.modCapture u (fun _ => { Capture.reset with owner := owner, enabled := true, source := src, edge := edgeOf edge }), .ok [])

def captureRead (u : Nat) (s : State) : State × Reply :=
  let c := s.capture u
  (s.modCapture u (fun c => { c with fifo := [], episode := false }),
    .ok ([byteOf c.fifo.length, byteOf c.overflow] ++ zeros 6 ++ c.fifo.flatMap n64))

def captureBody (u op src edge : Nat) (p : Port) (s : State) : State × Reply :=
  let c := s.capture u
  let mine := p.sysPriv || (c.enabled && p.vzf.isSome && decide (c.owner = p.vzf))
  if op = 0 then captureConfigure u src edge p s
  else if !mine then (s, .fail stat_notOwner)
  else if op = 1 then captureRead u s
  else (s.modCapture u (fun _ => .reset), .ok [])

def execTimeCaptureConfig (r : Req) (unit op : Byte) (source : U16) (edge : Byte) (s : State) : Result :=
  .next (runCmd r { code := 0x0D04, lenOk := decide (r.len = 8), need := .any
                    payload := orStat (needStat (decide (unit.toNat ≤ 15)) stat_range)
                      (needStat (decide (op.toNat ≤ 2) && decide (edge.toNat ≤ 2)) stat_badPayload)
                    modeOk := s.sys.mode.isServing }
    (captureBody unit.toNat op.toNat source.toNat edge.toNat) s)

/-- Arm a unit (R380): its owner must hold the channel or the vector. -/
def triggerArm (f : TriggerFields) (p : Port) (s : State) : State × Reply :=
  let u := f.unit.toNat
  let t := s.trigger u
  let owner := if t.claimed then t.owner else p.vzf
  if (unitStat p t.claimed t.owner).isSome then (s, .fail stat_timeNoUnit)
  else if 10 ≤ f.view.toNat ∧ !(s.view f.view.toNat).alloc then (s, .fail stat_timeView)
  else if f.action = 1 ∧ (owner.isNone ∨ s.chOwner f.target.toNat ≠ owner) then (s, .fail stat_notOwner)
  else if decide (f.action = 0) && (match owner with
                                    | some v => decide ((s.vzf v).tpl.nVec ≤ f.target.toNat)
                                    | none => false) then (s, .fail stat_range)
  else
    let n : Trigger :=
      { claimed := true, owner := owner, armed := true, view := f.view.toNat
        first := { sec := f.sec.toNat, ns := f.ns.toNat, frac := f.frac.toNat }, period := f.period.toNat
        action := f.action.toNat, target := f.target.toNat, image := f.image, next := 0, due := 0, late := false }
    let due := n.convert (s.view f.view.toNat)
    (s.modTrigger u (fun _ => { n with due := due }), .ok (n64 due))

def triggerBody (f : TriggerFields) (p : Port) (s : State) : State × Reply :=
  let t := s.trigger f.unit.toNat
  if f.op = 0 then triggerArm f p s
  else if p.sysPriv || (t.claimed && p.vzf.isSome && decide (t.owner = p.vzf)) then
    (s.modTrigger f.unit.toNat (fun _ => .reset), .ok (n64 t.due))
  else (s, .fail stat_notOwner)

def triggerStat (f : TriggerFields) : Option U16 :=
  orStat (needStat (decide (f.unit.toNat ≤ 15) && decide (f.view.toNat ≤ 15)) stat_range)
    (orStat (needStat (decide (f.op.toNat ≤ 1) && decide (f.action.toNat ≤ 1)) stat_badPayload)
      (needStat (decide (f.op = 1) || ((decide (f.period = 0) || decide (10000 ≤ f.period.toNat)) && decide (f.ns.toNat < 1000000000)
        && (decide (f.action = 0) || decide (f.target.toNat ≤ 111)))) stat_range))

def execTimeTriggerConfig (r : Req) (f : TriggerFields) (s : State) : Result :=
  .next (runCmd r { code := 0x0D05, lenOk := decide (r.len = 28), need := .any, payload := triggerStat f
                    modeOk := s.sys.mode.isServing }
    (triggerBody f) s)

/-- Set or cancel the alarm (R382); the target that a cancel returns is FREE. -/
def alarmBody (op delay : Nat) (s : State) : State × Reply :=
  if op = 0 then
    let c := s.now + delay * Config.ticksPerMs
    ({ s with tb := { s.tb with alarm := some c } }, .ok (n64 c))
  else ({ s.draw with tb := { s.tb with alarm := none } }, .ok (le64 (Config.free64 s.free)))

def execTimeRtcAlarm (r : Req) (op : Byte) (delay : U32) (s : State) : Result :=
  .next (runCmd r { code := 0x0D06, lenOk := decide (r.len = 8), need := .system
                    payload := orStat (needStat (decide (op.toNat ≤ 1)) stat_badPayload)
                      (needStat (decide (op = 1) || (decide (1000 ≤ delay.toNat) && decide (delay.toNat ≤ 604800000))) stat_range)
                    modeOk := s.sys.mode.isServing }
    (fun _ s => alarmBody op.toNat delay.toNat s) s)

end Sys2Proof.Machine
end

