-- ==== Sys2Proof/Machine/Vzf.lean ====
section
/-! DEFINITION. Virtual zone functions: templates and pools (R403 to R405), generations (R406), reset and destroy (R407 to
R410), event vectors (R411, R412), weights (R414) and the VZF commands (R418). -/

namespace Sys2Proof.Machine

/-! ### Templates -/

def Template.pairsWhole (t : Template) : Bool :=
  (List.range 8).all (fun g => t.chMask.getLsbD (14 * g + 10) == t.chMask.getLsbD (14 * g + 11))

/-- Ranges of Table 14.11. -/
def Template.rangesOk (t : Template) : Bool :=
  within 0 63 t.id && within 0 15 t.maxPrio && within 0 4 t.nRport && within 1 64 t.window && within 3 8 t.depthLog2
    && within 0 127 t.rportKey && within 1 100 t.tRtx && within 1 64 t.burst && within 1000 200000 t.rate && within 0 4 t.subClass
    && within 1 64 t.nVec && within 0 6 t.nView && t.pots.all (fun p => within 1 63 p) && decide (t.pots.length ≤ 8)
    && t.vids.all (fun v => within 1 4094 v) && decide (t.vids.length ≤ 8) && decide (t.macs.length ≤ 4)
    && decide (t.sigBase + t.sigCount ≤ 262144) && decide (t.pduBase + t.pduCount ≤ 65536) && decide (t.pduCount ≤ 65535)
    && decide (t.rfxBase + t.rfxCount ≤ 1024) && t.dram.all (fun n => within 0 1024 n) && decide (t.dram.length ≤ 4)
    && t.qos.all (fun w => within 1 255 w) && decide (t.qos.length = 5)

/-- Attachment and `HOST_SAF` (Table 14.11, R405). -/
def Template.attachOk (t : Template) : Bool :=
  (if t.attach then decide (t.nLport = 0) && decide (t.nQp = 0) else within 1 4 t.nLport && within 1 4 t.nQp)
    && (!t.hostSaf || (!t.attach && t.dram.all (fun n => decide (n = 0)) && decide (t.depthLog2 = 3)))

/-- R405. -/
def Template.ok (t : Template) : Bool := t.pairsWhole && t.rangesOk && t.attachOk

/-! ### Pools -/

/-- Two ranges overlap. -/
def rangesMeet (b1 n1 b2 n2 : Nat) : Bool := decide (0 < n1) && decide (0 < n2) && decide (b1 < b2 + n2) && decide (b2 < b1 + n1)

/-- Two templates name a resource in common (R404). -/
def Template.conflicts (t u : Template) : Bool :=
  decide (t.chMask &&& u.chMask ≠ 0) || decide (t.diMask &&& u.diMask ≠ 0) || decide (t.aiMask &&& u.aiMask ≠ 0)
    || decide (t.xMask &&& u.xMask ≠ 0) || decide (t.canMask &&& u.canMask ≠ 0) || decide (t.linMask &&& u.linMask ≠ 0)
    || t.pots.any (fun p => u.pots.contains p) || rangesMeet t.sigBase t.sigCount u.sigBase u.sigCount
    || rangesMeet t.pduBase t.pduCount u.pduBase u.pduCount || rangesMeet t.rfxBase t.rfxCount u.rfxBase u.rfxCount

/-- A resource that the template names is held by a VZF. -/
def State.taken (s : State) (t : Template) : Bool := s.vz.vzfs.cells.any (fun c => c.2.exists_ && t.conflicts c.2.tpl)

/-- DRAM regions that VZFs hold. -/
def State.heldRegions (s : State) : List (Nat × Nat) := s.vz.vzfs.cells.flatMap (fun c => if c.2.exists_ then c.2.regions else [])

/-- The lowest base at which `size` blocks are free: the pool's start, or the end of a region. -/
def regionBase (held : List (Nat × Nat)) (pool size : Nat) : Option Nat :=
  let fits := fun b => decide (b + size ≤ pool) && held.all (fun g => !rangesMeet b size g.1 g.2)
  let starts := 0 :: held.map (fun g => g.1 + g.2)
  (starts.filter fits).foldl (fun a b => match a with
    | some x => some (min x b)
    | none => some b) none

/-- Contiguous regions for the sizes asked for, an unused one as (0, 0). -/
def takeRegions (pool : Nat) : List Nat → List (Nat × Nat) → Option (List (Nat × Nat))
  | [], _ => some []
  | n :: r, held =>
    if n = 0 then (takeRegions pool r held).map (fun l => (0, 0) :: l)
    else match regionBase held pool n with
      | none => none
      | some b => (takeRegions pool r ((b, n) :: held)).map (fun l => (b, n) :: l)

/-- The lowest `n` free ports of 1 to 511. -/
def State.freePorts (s : State) (n : Nat) : List Nat :=
  (((List.range 511).map (· + 1)).filter (fun k => (s.port? k).isNone)).take n

def State.freeViews (s : State) (n : Nat) : List Nat :=
  (((List.range 6).map (· + 10)).filter (fun v => !(s.view v).alloc)).take n

/-! ### Creation -/

/-- The next generation skips 0 (R406). -/
def nextGen (g : U16) : U16 := if g + 1 = 0 then 1 else g + 1

def State.freeVzf (s : State) : Option Nat := (List.range 256).find? (fun n => !(s.vzf n).exists_)

/-- A VZF number is chosen: the one given, or with 0xFF the lowest free (R418). -/
def State.chooseVzf (s : State) (n : Nat) : Option Nat := if n = 255 then s.freeVzf else some n

def State.template (s : State) (id : Nat) : Option Template := s.cfg.image.vzf.templates.find? (fun t => decide (t.id = id))

/-- Open the ports of a new VZF: local ports first, at the numbers taken (R61). -/
def openPorts (v : Nat) (t : Template) (ns : List Nat) (s : State) : State :=
  (ns.zip (List.range ns.length)).foldl (fun s x =>
    if x.2 < t.nLport then openPort v t .loc x.2 x.1 s else openPort v t .ring x.2 x.1 s) s

/-- The VZF with the resources taken for it. -/
def newVzf (t : Template) (gen : U16) (ports views : List Nat) (regions : List (Nat × Nat)) (iommu : IommuCtx) : Vzf :=
  { Vzf.free with life := .active, tpl := t, gen := gen, ports := ports, views := views, weights := t.qos, regions := regions,
                  iommu := if t.attach || t.hostSaf then .zero else iommu }

/-- Carry out a creation whose resources are all there (R404): channels and rules come into force at once. -/
def createNow (v : Nat) (t : Template) (regions : List (Nat × Nat)) (iommu : IommuCtx) (s : State) : State :=
  let gen := nextGen (s.vz.gens.getD 0 v)
  let ports := s.freePorts (t.nLport + t.nRport)
  let views := s.freeViews t.nView
  let s := { s with vz := { s.vz with gens := s.vz.gens.set v gen
                                      vzfs := s.vz.vzfs.set v (newVzf t gen ports views regions iommu) }
                    mbx := { s.mbx with wins := s.mbx.wins.erase v } }
  let s := openPairs v (openPorts v t ports (views.foldl (fun s w => allocView w v s) s))
  raise evt_vzfCreated v (.owned (some v)) [] (xSend (urgent (evalRules s)))

/-- `VZF.CREATE` (R404, R405): all resources or none. Answers the status. -/
def vzfCreate (v tpl : Nat) (iommu : IommuCtx) (s : State) : State × U16 :=
  if (s.vzf v).exists_ then (s, stat_vzfExists)
  else match s.template tpl with
    | none => (s, stat_vzfTemplate)
    | some t =>
      if !t.ok then (s, stat_vzfTemplate)
      else if t.hostSaf && (s.servingPair v).isNone then (s, stat_vzfPair)
      else if s.taken t || decide ((s.freePorts (t.nLport + t.nRport)).length < t.nLport + t.nRport)
          || decide ((s.freeViews t.nView).length < t.nView) then (s, stat_noResource)
      else match takeRegions s.cfg.image.vzf.poolBlocks t.dram s.heldRegions with
        | none => (s, stat_noResource)
        | some regions => (createNow v t regions iommu s, stat_ok)

def vzfNode (s : State) (v : Nat) : Nat := (s.nodeId v).toNat

/-- Base addresses or sizes of the four regions, 0 where unused. -/
def Vzf.regionAt (z : Vzf) (k : Nat) : Nat × Nat := z.regions.getD k (0, 0)

def State.regionAddr (s : State) (g : Nat × Nat) : Nat := if g.2 = 0 then 0 else s.cfg.image.vzf.poolBase + g.1 * 2097152

def createBytes (v : Nat) (s : State) : List Byte :=
  let z := s.vzf v
  [byteOf v, 0] ++ le16 z.gen ++ n16 (vzfNode s v) ++ [0, 0] ++ (List.range 4).flatMap (fun k => n64 (s.regionAddr (z.regionAt k)))

def createBody (tpl vzf : Nat) (iommu : IommuCtx) (s : State) : State × Reply :=
  match s.chooseVzf vzf with
  | none => (s, .fail stat_noResource)
  | some v =>
    let t := vzfCreate v tpl iommu s
    if t.2 = stat_ok then (t.1, .ok (createBytes v t.1)) else (s, .fail t.2)

def execVzfCreate (r : Req) (tpl vzf : Byte) (iommu : IommuCtx) (s : State) : Result :=
  .next (runCmd r { code := 0x0E01, lenOk := decide (r.len = 40), need := .system, payload := needStat (decide (tpl.toNat ≤ 63)) stat_range
                    modeOk := s.sys.mode.isRunLimpWork }
    (fun _ s => createBody tpl.toNat vzf.toNat iommu s) s)

/-- The create list (R403): an entry that fails is skipped. -/
def createList (s : State) : State :=
  s.cfg.image.vzf.create.foldl (fun s e =>
    let t := vzfCreate e.1 e.2 .zero s
    if t.2 = stat_ok then t.1 else raise evt_vzfCreateFail e.1 (.owned (some e.1)) [] s) s

/-! ### Reset and destroy -/

/-- Step 1 of Table 14.13: quiesce. -/
def beginReset (v : Nat) (life : VzfLife) (req : Option (Nat × U32 × U32)) (s : State) : State :=
  let s := { s with vz := s.vz.modify v (fun z => { z with life := life, requester := req }) }
  (List.range 16).foldl (fun s c => if s.canOwner c = some v then canQuiesce c s else s) s

/-- `VZF.RESET` (R407, R409). -/
def resetBody (r : Req) (v : Nat) (p : Port) (s : State) : State × Reply :=
  if !(s.vzf v).exists_ then (s, .fail stat_vzfNone)
  else if !s.vzfActive v then (s, .fail stat_busy)
  else if p.vzf = some v then (beginReset v .quiescing none s, .ok [])
  else (beginReset v .quiescing (some (r.port, r.tag, r.seq)) s, { status := stat_pending, data := [] })

def execVzfReset (r : Req) (vzf : Byte) (s : State) : Result :=
  .next (runCmd r { code := 0x0E03, lenOk := decide (r.len = 4), need := .system, payload := none, modeOk := s.sys.mode.isRunLimpWork }
    (fun p s => resetBody r vzf.toNat p s) s)

/-- `VZF.DESTROY` (R409, R410). -/
def destroyBody (r : Req) (v : Nat) (p : Port) (s : State) : State × Reply :=
  if !(s.vzf v).exists_ then (s, .fail stat_vzfNone)
  else if !s.vzfActive v then (s, .fail stat_busy)
  else if p.vzf = some v then (s, .fail stat_vzfSelf)
  else (beginReset v .destroying (some (r.port, r.tag, r.seq)) s, { status := stat_pending, data := [] })

def execVzfDestroy (r : Req) (vzf : Byte) (s : State) : Result :=
  .next (runCmd r { code := 0x0E02, lenOk := decide (r.len = 4), need := .system, payload := none, modeOk := s.sys.mode.isRunWork }
    (fun p s => destroyBody r vzf.toNat p s) s)

/-- Every unanswered request of a port gets `ST_ABORTED`, as a response or as a completion (R80). -/
def abortPort (n : Nat) (s : State) : State :=
  match s.port? n with
  | none => s
  | some p => p.opens.foldl (fun s o =>
      if o.pending then complete n o.reqSeq o.tag o.code stat_aborted [] s
      else respond { port := n, tag := o.tag, seq := o.reqSeq, version := 1, len := 0, resvZero := true } o.code stat_aborted [] s) s

/-- Step 3: capture and trigger units are freed and pending view changes discarded (R376, R379, R380). -/
def freeUnits (v : Nat) (s : State) : State :=
  { s with tb := { s.tb with
    captures := ⟨s.tb.captures.cells.filter (fun c => decide (c.2.owner ≠ some v))⟩
    triggers := ⟨s.tb.triggers.cells.filter (fun c => decide (c.2.owner ≠ some v))⟩
    views := s.tb.views.mapAll (fun _ x => if x.vzf = some v then { x with change := none } else x) } }

/-- The blocks of the VZF's regions become zero-pending (R408). -/
def markZero (v : Nat) (s : State) : State :=
  let bs := (s.vzf v).regions.flatMap (fun g => (List.range g.2).map (· + g.1))
  { s with vz := { s.vz with zeroPending := s.vz.zeroPending ++ bs.filter (fun b => !s.vz.zeroPending.contains b) } }

/-- The orphan state of channel `i` (R119, R134). -/
def orphanOut (i : Nat) (c : Chan) : OutCmd :=
  match c.prof.orphan with
  | .off => .off
  | .hold => c.sw.out
  | .value =>
    match chClass i with
    | .valve => .regulate c.prof.vlv.iOrph
    | _ => if c.prof.orphDuty = 0 then .off else if c.prof.orphDuty = 10000 then .on else .pwm c.prof.orphDuty 0

/-- Step 4: each owned channel takes its orphan state; a held command of the old generation is dropped (R40, R119). -/
def orphanCh (i : Nat) (s : State) : State :=
  raiseCh evt_chOrphan i [] (s.modChan i (fun c =>
    { c with orphan := some (orphanOut i c, c.prof.orphPrio), held := none, flags := { c.flags with orphaned := true } }))

def State.ownedChans (s : State) (v : Nat) : List Nat :=
  (List.range 112).filter (fun i => decide (i % 14 ≠ 11) && decide (s.chOwner i = some v))

/-- Step 4: isolated outputs take their safe states until the first command of the new generation (Table 7.9). -/
def orphanX (v : Nat) (s : State) : State :=
  let ks := (List.range xCount).filter (fun k => decide (s.xOwner k = some v))
  let s := ks.foldl (fun s k => s.modX k (fun x => { x with cmd := false, held := none, waits := true })) s
  s.modSlot v (fun t => { t with heldAck := none })

/-- Step 5: rules with `SUSP` are suspended and their actions withdrawn (R207). -/
def suspendRules (v : Nat) (s : State) : State :=
  let hit := fun (x : RuleRun) => !x.rule.sysr && decide (x.rule.owner = v) && x.rule.susp
  let n := (s.rfx.rules.cells.filter (fun c => hit c.2)).length
  let s := { s with rfx := { s.rfx with rules := s.rfx.rules.mapAll (fun _ x =>
    if hit x then { x with suspended := true, active := false, latched := false, applied := false } else x) } }
  raise evt_rfxSuspended v (.owned (some v)) (n32 n) (applyMerge s)

/-- Step 6: pending bits of the event vectors clear and the budget is refilled. -/
def Vzf.clearVectors (z : Vzf) : Vzf :=
  { z with vectors := z.vectors.mapAll (fun _ x => { x with pend := false, raises := 0 }), tokens := 64 }

/-- Steps 2 to 6 of Table 14.13; a destruction begins no new epoch on the ports that it removes (R68, R410). -/
def resetSteps (v : Nat) (s : State) : State :=
  let z := s.vzf v
  let gen := nextGen (s.vz.gens.getD 0 v)
  let s := z.ports.foldl (fun s n => abortPort n s) s
  let s := { s with vz := { s.vz.modify v (fun z => { z with gen := gen }) with gens := s.vz.gens.set v gen } }
  let s := eswResetVzf v s
  let s := (List.range 16).foldl (fun s c => if s.canOwner c = some v then canZero v c s else s) s
  let s := (List.range 16).foldl (fun s l => if s.linOwner l = some v then linZero l s else s) s
  let s := if z.life = .destroying then s else z.ports.foldl (fun s n => portEpoch n s) s
  let s := markZero v (freeUnits v (sigZero v s))
  let s := orphanX v ((s.ownedChans v).foldl (fun s i => orphanCh i s) s)
  let s := xSend (suspendRules v s)
  { s with vz := s.vz.modify v Vzf.clearVectors }

/-- Answer the requester that waits (R407). -/
def completeVzf (req : Option (Nat × U32 × U32)) (code : U16) (result : List Byte) (s : State) : State :=
  match req with
  | some (n, tag, seq) => complete n seq tag code stat_ok result s
  | none => s

/-- The end of a reset: `QUIESCE` clears. -/
def endReset (v : Nat) (s : State) : State :=
  let z := s.vzf v
  let s := { s with vz := s.vz.modify v (fun z => { z with life := .active, resets := z.resets + 1, requester := none }) }
  completeVzf z.requester 0x0E03 (le16 z.gen ++ [0, 0] ++ n32 z.late) (raise evt_vzfReset v (.owned (some v)) (n32 z.late) s)

/-- Views of V10 to V15 that the VZF owns, allocated at its creation or since. -/
def State.viewsOf (s : State) (v : Nat) : List Nat := [10, 11, 12, 13, 14, 15].filter (fun w => decide ((s.view w).vzf = some v))

/-- Every resource of the VZF returns to its pool (R410). -/
def releaseVzf (v : Nat) (s : State) : State :=
  let z := s.vzf v
  let is := s.ownedChans v
  let xs := (List.range xCount).filter (fun k => decide (s.xOwner k = some v))
  let s := is.foldl (fun s i => s.modChan i (fun c => { c with sw := .off, orphan := none, held := none })) s
  let s := xs.foldl (fun s k => s.modX k (fun x => { x with cmd := false, held := none, waits := false })) s
  let s := { s with
    rfx := { s.rfx with rules := s.rfx.rules.mapAll (fun _ x => if !x.rule.sysr && decide (x.rule.owner = v) then .reset else x) }
    mbx := { s.mbx with ports := ⟨s.mbx.ports.cells.filter (fun c => !z.ports.contains c.1)⟩ }
    vz := { s.vz with vzfs := s.vz.vzfs.erase v }
    fio := { s.fio with slots := s.fio.slots.erase v } }
  let s := closePairs v ((s.viewsOf v).foldl (fun s w => freeViewAt w s) s)
  xSend (applyMerge (evalRules s))

def endDestroy (v : Nat) (s : State) : State :=
  let z := s.vzf v
  completeVzf z.requester 0x0E02 [] (raise evt_vzfDestroyed v (.owned (some v)) [] (releaseVzf v s))

/-- The drain of VZF `v` ends (td). -/
def drainEnd (v : Nat) (s : State) : State :=
  match (s.vzf v).life with
  | .quiescing => endReset v (resetSteps v s)
  | .destroying => endDestroy v (resetSteps v s)
  | _ => s

def execVzfResetDrainEnd (v : Fin 256) (s : State) : Result := .next (drainEnd v.val s)

/-- The background engine has cleared a block (R408). -/
def execDramZeroComplete (block : Nat) (s : State) : Result :=
  .next { s with vz := { s.vz with zeroPending := s.vz.zeroPending.filter (fun b => b != block) } }

/-! ### Interrupts -/

/-- Deliver every pending vector that nothing blocks. -/
def Vzf.deliverAll (z : Vzf) : Vzf := (List.range z.tpl.nVec).foldl Vzf.deliverVec z

/-- Interrupt weight of a VZF. -/
def Vzf.irqWeight (z : Vzf) : Nat := z.weights.getD 4 16

/-- The 1 ms refill: 2,000,000 × w ÷ Σ w deliveries a second with a floor of 1,000, in a bucket of 64 (R412). -/
def budgetRefill (s : State) : State :=
  let sum := (s.vz.vzfs.cells.map (fun c => if c.2.exists_ then c.2.irqWeight else 0)).foldl (· + ·) 0
  { s with vz := { s.vz with vzfs := s.vz.vzfs.mapAll (fun _ z =>
    if z.exists_ then Vzf.deliverAll { z with tokens := min 64 (z.tokens + max 1 (2000 * z.irqWeight / sum)) } else z) } }

def execInterruptBudgetRefill (s : State) : Result := .next (budgetRefill s)

/-- A hold-off ends (R412). -/
def Vzf.holdoffEnd (z : Vzf) (k : Nat) : Vzf :=
  if k < z.tpl.nVec then Vzf.deliverVec { z with vectors := z.vectors.modify .reset k (fun x => { x with waiting := false }) } k else z

def execVectorHoldoffExpiry (v : Fin 256) (k : Fin 64) (s : State) : Result :=
  .next (if (s.vzf v.val).exists_ then { s with vz := s.vz.modify v.val (fun z => z.holdoffEnd k.val) } else s)

/-! ### Reports and weights -/

/-- A weight of 0 keeps the one in force (R414). -/
def newWeights (old : List Nat) (ws : Vector Byte 5) : List Nat :=
  (ws.toList.zip (List.range 5)).map (fun x => if x.1 = 0 then old.getD x.2 16 else x.1.toNat)

def weightBytes (ws : List Nat) : List Byte := (List.range 5).map (fun k => byteOf (ws.getD k 16))

def qosBody (v : Nat) (ws : Vector Byte 5) (s : State) : State × Reply :=
  if !(s.vzf v).exists_ then (s, .fail stat_vzfNone)
  else
    let w := newWeights (s.vzf v).weights ws
    ({ s with vz := s.vz.modify v (fun z => { z with weights := w }) }, .ok (weightBytes w ++ zeros 3))

def execVzfQos (r : Req) (vzf : Byte) (weights : Vector Byte 5) (s : State) : Result :=
  .next (runCmd r { code := 0x0E04, lenOk := decide (r.len = 12), need := .system, payload := none, modeOk := s.sys.mode.isRunLimpWork }
    (fun _ s => qosBody vzf.toNat weights s) s)

/-- `VZF.GET_INFO` (Table 14.20). -/
def infoBytes (v : Nat) (s : State) : List Byte :=
  let z := s.vzf v
  let flags := bit z.scopedArrest + 2 * bit z.tpl.hostSaf + 4 * bit z.tpl.attach + 8 * bit z.tpl.sysPriv
  let pair := if z.tpl.hostSaf then (s.servingPair v).getD 255 else 255
  [byteOf z.life.code, byteOf z.tpl.id] ++ le16 z.gen ++ n16 (vzfNode s v) ++ [byteOf flags, byteOf pair]
    ++ (List.range 8).flatMap (fun k => n16 (z.ports.getD k 0)) ++ weightBytes z.weights ++ [byteOf z.tpl.nVec]
    ++ [byteOf (maskOf 6 (fun k => z.views.contains (10 + k))), 0]
    ++ (List.range 4).flatMap (fun k => n64 (s.regionAddr (z.regionAt k)) ++ n32 (z.regionAt k).2 ++ zeros 4)
    ++ n32 z.resets ++ n32 z.late ++ n32 z.iommuFaults ++ zeros 4

def execVzfGetInfo (r : Req) (vzf : Byte) (s : State) : Result :=
  .next (runCmd r { code := 0x0E05, lenOk := decide (r.len = 4), need := .owner (some vzf.toNat), payload := none, modeOk := s.sys.mode.isServing }
    (fun _ s => if (s.vzf vzf.toNat).exists_ then (s, .ok (infoBytes vzf.toNat s)) else (s, .fail stat_vzfNone)) s)

def listBytes (s : State) : List Byte :=
  (List.range 256).flatMap (fun v =>
    let z := s.vzf v
    if z.exists_ then [byteOf z.life.code, byteOf z.tpl.id] ++ le16 z.gen else zeros 4)

def execVzfList (r : Req) (s : State) : Result :=
  .next (runCmd r { code := 0x0E06, lenOk := decide (r.len = 0), need := .system, payload := none, modeOk := s.sys.mode.isServing }
    (fun _ s => (s, .ok (listBytes s))) s)

end Sys2Proof.Machine
end

