-- ==== Sys2Proof/Machine/Start.lean ====
section
/-! DEFINITION. The start-up sequence (Table 2.4, R37 to R41): the steps that the reset release runs, and the events that complete
the proof of the configuration (R38). -/

namespace Sys2Proof.Machine

/-! ### Steps 1 to 4 -/

/-- `TB_COUNT` starts at 0 after a power-on reset (R368): stamps that the power dies keep are taken from there. -/
def restartCount (s : State) : State :=
  let now := s.now
  { s with
    tb := { s.tb with count := 0 }
    ch := { s.ch with
      chans := s.ch.chans.mapAll (fun _ c => { c with grd := { c.grd with
        ledgerUj := c.grd.ledgerNow now, ledgerAt := 0, limTicks := c.grd.limTime now, limAt := 0 } })
      bridges := s.ch.bridges.mapAll (fun _ b => { b with lastRipple := none, changedAt := 0 })
      valves := s.ch.valves.mapAll (fun _ v => { v with dithFrom := 0, regAt := 0, estAt := 0 })
      dies := s.ch.dies.mapAll (fun _ d => { d with lastFrame := 0, silenceFrom := 0 }) } }

/-- The log at a start (R472, R473, R475): a new block of sequence numbers, the RAM ring empty, its state from the start tests. -/
def LogState.start (l : LogState) (sramOk nandOk : Bool) : LogState :=
  { l with mode := if sramOk then .normal else if nandOk then .nandOnly else .stonesOnly
           ram := [], overrun := 0, flashFail := sramOk && !nandOk, debugEn := false, nextSeq := l.reservedEnd,
           reservedEnd := l.reservedEnd + 65536, dropped := 0, rateSecond := 0, rateCount := 0 }

/-- t0 (R36, R41, R497): counts, wake record, log, views, and the mode change that began the start. -/
def startBegin (f : StartFacts) (s : State) : State :=
  let por := s.sys.porPending
  let s := if por then restartCount s else s
  let s := { s with
    sys := { s.sys with
      bootCount := s.sys.bootCount + 1, heartbeat := 0, failedStarts := if s.sys.reached then 0 else s.sys.failedStarts + 1
      reached := false, phase := .running, porPending := false, aonXtal := f.xtal, waiver := false, logicLowRaised := false, step := 1
      domains := [0, 1, 16, 87, 90, 95], basecampStatus := stat_ok, wake := if por then .reset else s.sys.wake }
    log := s.log.start f.sramOk f.nandOk
    tb := startViews por s.tb
    upd := { s.upd with fallback := false, running := .empty } }
  let s := raise evt_modeChange noInst .wide [byteOf s.sys.prevMode.code, byteOf s.sys.mode.code, byteOf s.sys.startTrigger] s
  let s := if f.sramOk then s else raise (if f.nandOk then evt_logDegraded else evt_logStoreFailed) noInst .wide [] s
  if s.sys.fromBivouac && s.sys.wake.rtc then raise evt_timeRtcAlarm noInst .wide [] s else s

/-- Steps 3 and 4: measurement registers cleared, the root, the slots, and the health tests (R420 to R422, R428, R434). -/
def startKeys (f : StartFacts) (s : State) : State :=
  let puf := !f.helperA && !f.helperB
  let s := { s with key := { s.key with mrs := List.replicate 8 (zeros 48), kState := false, refused := 0, pufFail := puf, trngFail := !f.trngOk } }
  let s := if puf then raiseKey evt_keyPufFail noInst [] s
    else if f.helperA != f.helperB then raiseKey evt_keyHelperRepaired noInst [] s else s
  let s := f.repaired.foldl (fun s n => raiseKey evt_keySlotRepaired n.val [] s) s
  let s := f.bad.foldl (fun s n => raiseKey evt_keySlotBad n.val [] (s.modKeySlot n.val (fun x => { x with state := .bad }))) s
  if f.trngOk then s else raiseKey evt_keyTrngFail noInst [] s

/-! ### Steps 5 to 7 -/

/-- A copy that fails at its load is marked invalid (R440). -/
def badCopy (c : Nat × Bool) (s : State) : State :=
  if (s.copy c.1 c.2).state = .valid then
    raiseUpd evt_updImageInvalid c.1 [] (s.modCopy c.1 c.2 (fun x => { x with state := .invalid }))
  else s

/-- The bad copies of the classes that `want` names. -/
def badCopies (f : StartFacts) (want : Nat → Bool) (s : State) : State :=
  f.badCopies.foldl (fun s c => if want c.1.val then badCopy (c.1.val, c.2) s else s) s

/-- Step 6: the banks are read and checked (R52). -/
def checkBanks (f : StartFacts) (s : State) : State :=
  let spoil := fun (bad : Bool) (b : Bank) => { b with digestOk := b.digestOk && !bad }
  let s := { s with cfg := { s.cfg with bankA := spoil f.bankABad s.cfg.bankA, bankB := spoil f.bankBBad s.cfg.bankB } }
  let s := if s.bankOk s.cfg.bankA then s else raise evt_cfgBankInvalid 0 (.owned none) [] s
  if s.bankOk s.cfg.bankB then s else raise evt_cfgBankInvalid 1 (.owned none) [] s

/-- The bank that a start selects, B true (R52). -/
def State.pickBank (s : State) : Option Bool :=
  match s.bankOk s.cfg.bankA, s.bankOk s.cfg.bankB with
  | true, true => some (later s.cfg.bankB.seq s.cfg.bankA.seq)
  | true, false => some false
  | false, true => some true
  | false, false => none

/-- Both banks are valid and neither is newer: a difference of 0 or 2^31. -/
def State.ambiguous (s : State) : Bool :=
  let d := s.cfg.bankB.seq - s.cfg.bankA.seq
  s.bankOk s.cfg.bankA && s.bankOk s.cfg.bankB && (decide (d = 0) || decide (d = 0x80000000))

def CfgState.bank (c : CfgState) (b : Bool) : Bank := if b then c.bankB else c.bankA

/-- The digest field of a bank's header (Table 2.9). -/
def Bank.digest (b : Bank) : List Byte := memRead b.bytes 0x20 48

/-- The device runs from bank `b`, measured into MR6 (Table 15.1). -/
def takeBank (b : Bool) (s : State) : State :=
  let k := s.cfg.bank b
  let s := if s.ambiguous then raise evt_cfgSeqAmbiguous (bit b) (.owned none) [] s else s
  let cfg := { s.cfg with inUseB := b, seq := k.seq, image := k.image, sections := k.sections, activating := none }
  extendMr 6 k.digest { s with cfg := cfg }

/-- The candidate set is tested (R55). -/
def State.candidateTested (s : State) : Bool :=
  match s.candidate with
  | some set => testedSet (s.setImages set)
  | none => false

/-- A waiver token that binds the candidate set and has starts left (R56). -/
def State.waiverFits (s : State) : Bool :=
  match s.upd.waiver, s.candidate with
  | some w, some set => decide (0 < w.left) && decide (w.digest = manifestDigest (s.setImages set))
  | _, _ => false

/-- A start under the waiver (R56): the allowance counts down, and MR7 takes the token. -/
def underWaiver (s : State) : State :=
  let left : Option Waiver := s.upd.waiver.map (fun w => { w with left := w.left - 1 })
  let s := { s with sys := { s.sys with waiver := true }, upd := { s.upd with waiver := left } }
  raise evt_waiverInUse noInst .wide [] (extendMr 7 (Config.freeBytes s.free 48) s.draw)

/-- The six versions of a set, 0 where a class has no copy. -/
def setVersions (s : State) (set : Option (List Bool)) : List Byte :=
  allClasses.flatMap (fun c => le32 (match set with
    | some l => (s.copy c (l.getD c false)).version
    | none => (match s.newest c with
      | some b => (s.copy c b).version
      | none => 0)))

/-- Step 7 (R55, R56): the set that runs, if any. -/
def chooseSet (s : State) : State × Option (List Bool) :=
  if s.candidateTested then (s, s.candidate)
  else if s.waiverFits then (underWaiver s, s.candidate)
  else
    let s := raise evt_setUntested noInst .wide [] s
    match s.lastGoodSet with
    | none => (s, none)
    | some set =>
      (raise evt_setFallback noInst .wide (setVersions s none ++ setVersions s (some set))
        { s with upd := { s.upd with fallback := true } }, some set)

/-- The digest of the manifest of the class's running copy (R422). -/
def State.manifestOf (s : State) (cls : Nat) : List Byte :=
  Config.sha384 (memRead (s.copy cls (s.upd.running.getD false cls)).bytes 0 256)

def measure (cls : Nat) (s : State) : State := extendMr cls (s.manifestOf cls) s

/-- The set runs: the images that the start loads up to step 11 are measured (Table 15.1). -/
def runSet (set : List Bool) (s : State) : State :=
  let s := { s with upd := { s.upd with running := ⟨allClasses.zip set⟩ } }
  measure 1 (measure 3 (measure 4 (measure 0 s)))

/-! ### Steps 8 to 10 -/

/-- The profile of a channel at a start (R106). -/
def State.startProfile (s : State) (i : Nat) : Nat × Profile :=
  let c := chClass i
  let named := match s.cfg.image.chProfile.get? i with
    | some id => (s.cfg.image.profiles.get? id).map (fun p => (id, p))
    | none => none
  match named with
  | some x => x
  | none =>
    match s.cfg.image.profiles.get? 0 with
    | some p => if c.allows p.typ then (0, p) else (0, builtinProfile (s.groupVolt (i / 14)) c)
    | none => (0, builtinProfile (s.groupVolt (i / 14)) c)

/-- What ends at the load of a die's table (R43, R103, R112): latches other than `ARC`, retries, and the free-wheel flags. A channel
released in this way waits for a command; every turn-on waits for cooling. -/
def Guard.newStart (g : Guard) : Guard :=
  let released := (g.latched && !g.latchArc) || g.waiting
  { g with waiting := false, delayDone := false, latched := g.latched && g.latchArc, retries := 0, arcLatches := 0, lockFw := false, fwOk := false
           fwMissing := false, fwDone := false, fallback := false, kaTrip := false, needsCmd := g.needsCmd || released }

/-- The channels take their profiles, and each die its table (R103, R106). -/
def startChannels (s : State) : State :=
  let s := { s with ch := { s.ch with
    keepSet := s.cfg.image.keepAlive
    dies := s.ch.dies.updateKeys .reset allDies (fun _ d => { d with acked := false, tables := 1 })
    chans := s.ch.chans.mapAll (fun _ c => { c with grd := c.grd.newStart, flags := { c.flags with fwMissing := false }, tripCount := 0 }) } }
  (List.range 112).foldl (fun s i =>
    if i % 14 = 11 then s
    else
      let p := s.startProfile i
      assignProfile i p.1 p.2 s) s

/-- The bridge takes the image's limits; its faults of the last start end (R171, Table 6.7). A record that R171 refuses leaves the defaults
of the class in force, since no rule says what a start with such a record does (DESIGN CHOICE, log entry 122). -/
def BrgState.start (b : BrgState) (c : Boardnet) (l : BrgLimits) : BrgState :=
  let l := if l.ok c then l else BrgLimits.ofClass c
  { BrgState.reset with limits := l, target := l.vZ12, pairOn := b.pairOn, vinOk := b.vinOk, derate := b.derate, hotStop := b.hotStop
                        temp := b.temp, lowest := b.lowest }

/-- The field I/O sections (R178, R180, R182, R183, R185, R186); a field side that kept its power gets every configuration word again, so
that no setting made by command outlasts the start (R199). -/
def FioState.start (f : FioState) (g : CfgImage) (afeOn : Nat → Bool) : FioState :=
  let f : FioState := { f with
    di := ⟨g.di.cells.map (fun c => (c.1, DiInput.reset.restart c.2))⟩
    ai := ⟨g.ai.cells.map (fun c => (c.1, { AiInput.reset with cfg := c.2 }))⟩
    cycMask := g.cycMask, tCyc := g.tCyc, cycK := g.cycK
    sup := ⟨((List.range 4).filter (fun k => g.supOn.getLsbD k)).map (fun k => (k, { SupState.reset with on := true, ok := afeOn (k / 2) }))⟩
    x := f.x.updateKeys .reset (List.range xCount) (fun k x => { x with cfg := g.x.getD .default k })
    bank := { f.bank with tXto := g.tXto } }
  let f := f.showAi afeOn
  { f with bank := { f.bank with words := f.xWords } }

/-- The partitions of each pair (R393). -/
def startPairs (s : State) : State :=
  let parts := fun p => ((s.cfg.image.partitions.filter (fun x => x.1 = p)).map (·.2)).zipIdx.map (fun x =>
    { num := x.2, vzf := x.1, copying := none, last := none, running := false : Partition })
  { s with saf := { SafState.reset with spare := s.cfg.image.spare, pairs := ⟨allPairs.map (fun p => (p, { Pair.reset with parts := parts p }))⟩ } }

/-- The generation counters are seeded, never with 0 (R406). -/
def seedGens (s : State) : State :=
  { s with free := s.free + 256
           vz := { s.vz with gens := ⟨(List.range 256).map (fun v =>
             (v, if Config.free16 (s.free + v) = 0 then 1 else Config.free16 (s.free + v)))⟩ } }

/-- The owners of V2 to V5 (R373). -/
def startOwners (s : State) : State :=
  (List.range 4).foldl (fun s k => s.modView (2 + k) (fun v => { v with owner := s.cfg.image.viewOwners.getD k 255 })) s

/-- The rope-team role at step 8 (Table 16.5); what the decoder reads stays. -/
def twinStart (s : State) : State :=
  let s := setRole .standby s
  { s with twin := { TwinState.reset with line := s.twin.line, partner := s.twin.partner, validFrom := s.twin.validFrom
                                          holderAt := s.twin.holderAt, sawHolder := decide (s.twin.partner = some .holder) } }

/-- Step 8: domains, sections, VZFs and the parameter tables (R37, R40, R403). -/
def startStep8 (s : State) : State :=
  let g := s.cfg.image
  let trips := s.ch.chans.cells.filter (fun c => c.2.grd.kaTrip)
  let s := { s with sys := { s.sys with step := 8, pairClass := some g.boardnet
                                        domains := (List.range 96).filter (fun d =>
                                          [0, 1, 16, 17, 36, 37, 82, 87, 88, 89, 90, 94, 95].contains d || within 12 15 d || g.domains.contains d) } }
  let s := { s with brg := s.brg.start g.boardnet g.brg, rfx := { s.rfx with tSnf := g.tSnf, sna := g.sna } }
  let s := { s with fio := s.fio.start g s.afeOn }
  let s := twinStart (startOwners (seedGens (startPairs (startChannels s))))
  let s := createList (openService g.vzf.p0Rtx g.vzf.p0Key s)
  trips.foldl (fun s c => raiseCh evt_chKeepaliveTrip c.1 [] s) s

/-- Step 9: the ring ports and the switch. A ring wake repeats the TC10 request (R260). -/
def startStep9 (s : State) : State :=
  let tc10 := s.ring.tc10
  eswStart ((ringStart s).modRing (fun r => { r with tc10 := tc10 }))

/-- Step 10: CAN, NM and LIN; a channel that woke the module is in normal mode (R297, R324, R325). -/
def startStep10 (s : State) : State :=
  let g := s.cfg.image
  let s := { s with sys := { s.sys with step := 10 }
                    net := { s.net with can := s.net.can.mapAll (fun _ x => { x with configured := false, record := canRecordDefault }) } }
  let s := g.nm.cells.foldl (fun s c => nmSet c.1 c.2 s) s
  let s := g.can.cells.foldl (fun s c => canConfigure c.1 c.2 s) s
  let s := g.lin.cells.foldl (fun s c => linConfigure c.1 c.2 s) s
  if s.sys.fromBivouac then
    (List.range 16).foldl (fun s c =>
      if s.sys.wake.can.getLsbD c then
        let s := raiseCan evt_canWake c [] s
        if (s.canCh c).configured then canWakeCh c s else s
      else s) s
  else s

def startConfigure (s : State) : State := startStep10 (startStep9 (startStep8 s))

/-! ### The release -/

/-- Steps 7 to 10. -/
def startSet (f : StartFacts) (s : State) : State :=
  let s := badCopies f (fun c => decide (c ≠ 0)) s
  let y := chooseSet s
  match y.2 with
  | some set => startConfigure (runSet set y.1)
  | none => basecampEnter stat_untestedSet y.1

/-- Steps 5 and 6. -/
def startRom (f : StartFacts) (s : State) : State :=
  let s := badCopies f (fun c => decide (c = 0)) s
  if (s.newest 0).isNone then basecampEnter stat_noImage (raise evt_mgrImageInvalid noInst .wide [] s)
  else
    let s := checkBanks f s
    match s.pickBank with
    | some b => startSet f (takeBank b s)
    | none => basecampEnter stat_noConfig s

/-- The reset release at t0 (R497): step 1. What follows waits for step 2. -/
def resetRelease (f : StartFacts) (s : State) : State :=
  if s.sys.phase ≠ .waiting || s.sys.mode ≠ .startup || s.sys.dieHot then s
  else
    let t := startBegin f s
    { t with sys := { t.sys with facts := some f } }

/-- Steps 3 and 4, unless they are done. -/
def startRoot (s : State) : State :=
  match s.sys.facts with
  | some f => if s.sys.step < 4 then startKeys f { s with sys := { s.sys with step := 4 } } else s
  | none => s

/-- Steps 3 to 10, once the root PLL has locked (Table 2.4; log entry 15). -/
def startGoesOn (s : State) : State :=
  match s.sys.facts with
  | some f =>
    let s := startRoot s
    if 3 ≤ s.sys.failedStarts then basecampEnter stat_bootLoop (raise evt_bootLoop noInst .wide [] s) else startRom f s
  | none => s

def execResetRelease (f : StartFacts) (s : State) : Result := .next (resetRelease f s)

/-! ### Steps 13 and 14 -/

def State.starting (s : State) : Bool := s.mgrUp && decide (s.sys.mode = .startup)

/-- Step 13 (R37, R215, R350, R425): the reflex rules and the signal tables are loaded, MR5 is extended, and the engine runs. -/
def startTables (s : State) : State :=
  let rules : Tbl RuleRun := ⟨s.cfg.image.rules.cells.map (fun c => (c.1, { RuleRun.reset with rule := c.2 }))⟩
  let s := sigConfigure (measure 5 s)
  let s := { s with sys := { s.sys with step := 13 }, rfx := { s.rfx with rules := rules, enabled := true, checked := true } }
  let s := sigBegin s
  evalRules (if s.rfx.safeN && s.rfx.sna then selfArrest 1 [] s else s)

/-- The read-back of step 13 against the image digest (R37, R215): a mismatch is that of R216. -/
def startStep13 (s : State) : State :=
  if s.sys.facts.any (fun f => !f.tableOk) then ruleFault s.digestDetail s.draw else startTables s

/-- The first twelve steps are done: the PLL is locked, every pair has been tested, the cluster serves, and `VIN` has been measured
(R15). -/
def State.readyForRules (s : State) : Bool :=
  s.starting && s.sys.rootLock && (s.sys.vinChecked || s.sys.holdOff) && decide (10 ≤ s.sys.step) && decide (s.sys.step < 13) && s.saf.serving
    && allPairs.all (fun p => (s.pair p).tested)

/-- The conditions of R38. -/
def State.provable (s : State) : Bool :=
  s.starting && decide (13 ≤ s.sys.step) && !s.sys.proven && s.sys.vinChecked && !s.sys.holdOff && s.rfx.enabled && s.rfx.checked
    && allDies.all (fun g => (s.die g).acked)

/-- The configuration is proven (R28, R29, R31, R38): Run, or Limp after a self-arrest or with too few healthy pairs. R28 does not say
which code the change from Start-up to Limp carries: the model gives 0x03 after a self-arrest and 0x04 for too few pairs, the first
where both hold (DESIGN CHOICE, log entry 115). -/
def prove (s : State) : State :=
  let s := { s with sys := { s.sys with proven := true, step := 14 } }
  let s := if s.rfx.safeN && !s.rfx.arrested then selfArrest 1 [] s else s
  evalRules (if s.rfx.arrested then limpEntry trigArrest s
    else if s.healthyPairs < s.cfg.image.aPairs then limpEntry trigPairs s
    else runEntry s)

/-- The start goes on as far as its conditions hold. -/
def advance (s : State) : State :=
  let s := if s.readyForRules then startStep13 s else s
  if s.provable then prove s else s

/-- The root PLL locks: the derived clocks and `TB_COUNT` move to it (R47, R48), and a start goes on (R37). -/
def pllLock (s : State) : State :=
  let t := { s with sys := { s.sys with rootLock := true, onRef := false } }
  if !s.mgrUp || s.sys.rootLock then s
  else if s.sys.mode = .startup then advance (startGoesOn t)
  else if s.sys.mode = .basecamp ∧ s.sys.basecampStatus ≠ stat_clkFail then t.modCan 0 (fun x => { x with record := romCanRecord true })
  else s

def execRootPllLock (s : State) : Result := .next (pllLock s)

/-- No lock by t0 + 1 ms (R41, R49): the root is there (steps 3 and 4), and Basecamp runs on the reference clock. A start that ended in Basecamp for another reason reports
this one, which came first. -/
def pllTimeout (s : State) : State :=
  if !s.mgrUp || s.sys.rootLock then s
  else if s.sys.mode = .startup then
    basecampEnter stat_clkFail (raise evt_clkPllFail noInst .wide [] (startRoot { s with sys := { s.sys with fromBivouac := false } }))
  else if s.sys.mode = .basecamp ∧ s.sys.basecampStatus ≠ stat_clkFail then
    raise evt_clkPllFail noInst .wide [] { s with sys := { s.sys with fromBivouac := false, basecampStatus := stat_clkFail } }
  else s

def execPllLockTimeout (s : State) : Result := .next (pllTimeout s)

/-- A die acknowledges its table (R38). -/
def tableAck (g : Nat) (s : State) : State :=
  if s.mgrUp && s.sys.mode.isServing && decide (0 < (s.die g).tables) then advance (s.modDie g (fun d => { d with acked := true })) else s

def execPowerDieTableAck (die : Fin 8) (s : State) : Result := .next (tableAck die.val s)

/-- A die of this start that has not acknowledged. -/
def State.unacked (s : State) (g : Nat) : Bool := s.starting && decide (8 ≤ s.sys.step) && !(s.die g).acked

def execPdlAckTimeout (die : Fin 8) (s : State) : Result :=
  .next (if s.unacked die.val then raise evt_pdlNoAck noInst .wide [] s else s)

def execPdlAckRetry (die : Fin 8) (s : State) : Result :=
  .next (if s.unacked die.val then s.modDie die.val (fun d => { d with tables := d.tables + 1 }) else s)

/-- `VIN` outside its window before the proof holds every channel off and the bridge stopped; back inside, the hold-off ends
(R15). -/
def vinCheck (inside : Bool) (s : State) : State :=
  if !s.starting || decide (s.sys.step < 8) || s.sys.proven then s
  else if inside then advance (urgent { s with sys := { s.sys with holdOff := false, vinChecked := true } })
  else
    let t := enterStopped (urgent { s with sys := { s.sys with holdOff := true, vinChecked := false } })
    advance (if s.sys.holdOff then t else raise evt_boardnetMismatch noInst .wide [] t)

def execVinClassCheck (inside : Bool) (s : State) : Result := .next (vinCheck inside s)

/-- The partitions of every failed pair go to the spare, once it is healthy and free (R393). -/
def placeParts (s : State) : State :=
  allPairs.foldl (fun s p =>
    let x := s.pair p
    if x.tested && !x.healthy && !x.parts.isEmpty then
      match s.freeSpare p with
      | some q => moveParts p q s
      | none => s
    else s) s

/-- Step 11 at one pair (R395). -/
def injectionDone (p : Nat) (pass : Bool) (s : State) : State :=
  if !s.starting || decide (s.sys.step < 10) || (s.pair p).tested then s
  else
    let s := s.modPair p (fun x => { x with tested := true, healthy := pass })
    advance (placeParts (if pass then s else raiseSaf evt_pairTestFail p [] s))

def execPairInjectionTestDone (pair : Fin 4) (pass : Bool) (s : State) : Result := .next (injectionDone pair.val pass s)

/-- Step 12: the partitions of the healthy pairs run, and the cluster serves. -/
def clusterServing (s : State) : State :=
  if !s.starting || decide (s.sys.step < 10) then s
  else
    let s := { s with saf := { s.saf with serving := true
                                          pairs := s.saf.pairs.mapAll (fun _ x =>
                                            { x with parts := x.parts.map (fun y => { y with running := x.healthy }) }) } }
    advance s

def execSafetyClusterServing (s : State) : Result := .next (clusterServing s)

/-- DDR training ends: the boot stage is measured and released (R39, Table 15.1); under STOP in Limp it stays stopped. -/
def ddrDone (s : State) : State :=
  if !s.mgrUp || !s.sys.mode.isServing || decide (s.sys.step < 8) || s.sys.ddrTrained then s
  else measure 2 { s with sys := { s.sys with ddrTrained := true, appReleased := !s.sys.appStopped, app := .reset } }

def execDdrTrainingDone (s : State) : Result := .next (ddrDone s)

/-- `WAKE_N` and `SAFE_N` held low from the supply on force Basecamp (R57). -/
def forcedBasecamp (s : State) : State :=
  if s.starting && s.sys.wake.por then basecampEnter stat_forced (startRoot s) else s

def execForcedBasecampCheck (s : State) : Result := .next (forcedBasecamp s)

/-- Workshop ends for want of requests (R33). -/
def workshopTimeout (s : State) : State :=
  if s.sys.mode = .workshop then restartCause 9 (raise evt_workshopTimeout noInst .wide [] s) else s

def execWorkshopInactivityTimeout (s : State) : Result := .next (workshopTimeout s)

end Sys2Proof.Machine
end

