-- ==== Sys2Proof/Machine/Cfg.lean ====
section
/-! DEFINITION. The CFG commands (R53, R54, R59, R60) and the activation of sections. -/

namespace Sys2Proof.Machine

/-! ### The write session -/

def CfgState.putBank (c : CfgState) (b : Bool) (k : Bank) : CfgState := if b then { c with bankB := k } else { c with bankA := k }

/-- The bank not in use. -/
def CfgState.target (c : CfgState) : Bool := !c.inUseB

/-- `CFG.BEGIN`: one session in the whole device (R53); the target bank is erased for it. -/
def cfgBeginBody (total : Nat) (s : State) : State × Reply :=
  match s.cfg.session with
  | some _ => (s, .fail stat_busy)
  | none => ({ s with cfg := { s.cfg.eraseTarget with session := some { total := total } } }, .ok [byteOf (bit s.cfg.target)])

def execCfgBegin (r : Req) (total : U32) (s : State) : Result :=
  .next (runCmd r (keyCmd 0x0201 (decide (r.len = 4)) .system (needStat (decide (total.toNat ≤ 0x1000100)) stat_range) s.sys.mode.isRunLimpWork)
    (fun _ s => cfgBeginBody total.toNat s) s)

/-- `CFG.WRITE`: bytes of the target bank. -/
def cfgWriteBody (offset : Nat) (data : List Byte) (s : State) : State × Reply :=
  match s.cfg.session with
  | none => (s, .fail stat_noSession)
  | some x =>
    if x.total < offset + data.length then (s, .fail stat_range)
    else
      let k := s.cfg.bank s.cfg.target
      ({ s with cfg := s.cfg.putBank s.cfg.target { k with bytes := memWrite k.bytes offset data } }, .ok [])

def execCfgWrite (r : Req) (offset : U32) (data : List Byte) (s : State) : Result :=
  .next (runCmd r (keyCmd 0x0202 (blockOk data && decide (r.len = 4 + data.length)) .system none s.sys.mode.isServing)
    (fun _ s => cfgWriteBody offset.toNat data s) s)

/-- `CFG.COMMIT` (R51, R53). A bank that is refused is erased. -/
def cfgCommitBody (content : Bank) (s : State) : State × Reply :=
  match s.cfg.session with
  | none => (s, .fail stat_noSession)
  | some _ =>
    let k := content.read (s.cfg.bank s.cfg.target).bytes
    match bankStatus k s with
    | some st => (closeSession s, .fail st)
    | none => ({ s with cfg := { s.cfg.putBank s.cfg.target k with session := none } }, .ok (le32 k.seq))

def execCfgCommit (r : Req) (content : Bank) (s : State) : Result :=
  .next (runCmd r (keyCmd 0x0203 (decide (r.len = 0)) .system none s.sys.mode.isServing) (fun _ s => cfgCommitBody content s) s)

/-- `CFG.ABORT` (R60). -/
def cfgAbortBody (s : State) : State × Reply :=
  match s.cfg.session with
  | none => (s, .fail stat_noSession)
  | some _ => (closeSession s, .ok [])

def execCfgAbort (r : Req) (s : State) : Result :=
  .next (runCmd r (keyCmd 0x0206 (decide (r.len = 0)) .system none s.sys.mode.isRunLimpWork) (fun _ s => cfgAbortBody s) s)

/-- 60 s without a `CFG.WRITE` (R60). -/
def execCfgSessionTimeout (s : State) : Result := .next (closeSession s)

/-! ### Reports -/

def cfgStatusBytes (s : State) : List Byte :=
  [byteOf s.bankValidity] ++ zeros 3 ++ le32 s.cfg.bankA.seq ++ le32 s.cfg.bankB.seq ++ bool8 s.cfg.session.isSome

def execCfgStatus (r : Req) (s : State) : Result :=
  .next (runCmd r (keyCmd 0x0205 (decide (r.len = 0)) .any none s.sys.mode.isServing) (fun _ s => (s, .ok (cfgStatusBytes s))) s)

/-- `CFG.GET_SECTION`: fewer bytes than asked at the end of the section. -/
def getSectionBody (n offset length : Nat) (s : State) : State × Reply :=
  match s.cfg.sections[n]? with
  | none => (s, .fail stat_range)
  | some x =>
    if x.bytes.length < offset then (s, .fail stat_range)
    else
      let got := (x.bytes.drop offset).take length
      (s, .ok (n32 x.bytes.length ++ n16 got.length ++ zeros 2 ++ got))

def sectionLengthOk (n : Nat) : Bool := within 16 4000 n && decide (n % 16 = 0)

def execCfgGetSection (r : Req) (section_ : Byte) (offset : U32) (length : U16) (s : State) : Result :=
  .next (runCmd r (keyCmd 0x0207 (decide (r.len = 12)) .system (needStat (sectionLengthOk length.toNat) stat_range) s.sys.mode.isServing)
    (fun _ s => getSectionBody section_.toNat offset.toNat length.toNat s) s)

/-! ### Activation (R54, Table 2.10) -/

def allKinds : List SectionKind := [.signals, .vzf, .networks, .profiles, .rules, .ring, .bridge, .twin, .other]

/-- The bytes of a bank's sections of one kind. -/
def sectionsOf (l : List Section) (k : SectionKind) : List (List Byte) := (l.filter (fun x => decide (x.kind = k))).map (·.bytes)

/-- The kinds of section that differ. -/
def differing (a b : List Section) : List SectionKind := allKinds.filter (fun k => decide (sectionsOf a k ≠ sectionsOf b k))

/-- Sections that only the next start takes. -/
def SectionKind.nextStart : SectionKind → Bool
  | .ring | .other => true
  | _ => false

/-- Sections that Table 2.10 allows in Workshop alone. -/
def SectionKind.workshopOnly : SectionKind → Bool
  | .profiles | .rules | .bridge | .twin => true
  | _ => false

/-- Why the committed bank `k` cannot be activated: the class and the next-start sections first, then the mode; then the
record that R171 refuses. -/
def State.activationStatus (s : State) (k : Bank) : Option U16 :=
  let ds := differing k.sections s.cfg.sections
  if k.image.boardnet ≠ s.cfg.image.boardnet || ds.any SectionKind.nextStart then some stat_cfgRestartNeeded
  else if ds.any SectionKind.workshopOnly && decide (s.sys.mode ≠ .workshop) then some stat_badMode
  else if ds.contains .bridge && !k.image.brg.ok k.image.boardnet then some stat_range
  else none

/-- The running image with the sections of kind `k` taken from `g`. -/
def CfgImage.take (f g : CfgImage) : SectionKind → CfgImage
  | .signals => { f with sigs := g.sigs, pdus := g.pdus, lookup := g.lookup, prs := g.prs }
  | .vzf => { f with vzf := g.vzf }
  | .networks => { f with can := g.can, nm := g.nm, sieves := g.sieves, lin := g.lin, schedules := g.schedules }
  | .profiles => { f with profiles := g.profiles, chProfile := g.chProfile }
  | .rules => { f with rules := g.rules, limp := g.limp, limpX := g.limpX, tLimp := g.tLimp, tSnf := g.tSnf, sna := g.sna }
  | .bridge => { f with brg := g.brg }
  | .twin => { f with twin := g.twin }
  | .ring | .other => f

/-- The network records that differ take effect: NM rings and LIN channels at once, CAN channels with their record. -/
def activateNetworks (old : CfgImage) (s : State) : State :=
  let g := s.cfg.image
  let s := g.nm.cells.foldl (fun s c => if old.nm.get? c.1 = some c.2 then s else nmSet c.1 c.2 s) s
  let s := g.can.cells.foldl (fun s c =>
    if old.can.get? c.1 = some c.2 && decide (old.sieves.get? c.1 = g.sieves.get? c.1) then s else canConfigure c.1 c.2 s) s
  g.lin.cells.foldl (fun s c =>
    if old.lin.get? c.1 = some c.2 && (List.range 4).all (fun k => decide (old.schedules.get? (4 * c.1 + k) = g.schedules.get? (4 * c.1 + k)))
    then s else linConfigure c.1 c.2 s) s

/-- Channels whose profile differs take the new one (R106). -/
def activateProfiles (old : State) (s : State) : State :=
  (List.range 112).foldl (fun s i =>
    if i % 14 = 11 || decide (old.startProfile i = s.startProfile i) then s
    else assignProfile i (s.startProfile i).1 (s.startProfile i).2 s) s

/-- The rules are loaded anew. -/
def activateRules (s : State) : State :=
  let g := s.cfg.image
  let rules : Tbl RuleRun := ⟨g.rules.cells.map (fun c => (c.1, { RuleRun.reset with rule := c.2 }))⟩
  { s with rfx := { s.rfx with rules := rules, tSnf := g.tSnf, sna := g.sna } }

def activateKind (old s : State) : SectionKind → State
  | .signals => sigBegin (sigConfigure s)
  | .networks => activateNetworks old.cfg.image s
  | .profiles => activateProfiles old s
  | .rules => activateRules s
  | .bridge => applyStage (s.modBrg (fun b => b.takeLimits s.cfg.image.brg))
  | .vzf | .twin | .ring | .other => s

/-- The differing sections take effect, and the new bank becomes the bank in use; MR7 takes its digest (Table 15.1). -/
def activateNow (s : State) : State :=
  let k := s.cfg.bank s.cfg.target
  let ds := differing k.sections s.cfg.sections
  let image := ds.foldl (fun f d => f.take k.image d) s.cfg.image
  let cfg := { s.cfg with inUseB := s.cfg.target, seq := k.seq, image := image, sections := k.sections, activating := none }
  let t := ds.foldl (fun t d => activateKind s t d) { s with cfg := cfg }
  extendMr 7 k.digest (if ds.isEmpty then t else evalRules (urgent t))

/-- `CFG.ACTIVATE`: equal banks change at once, differing sections at the next boundary. R54 and R59 give no status for a device without a newer
committed bank, or with an activation that waits: the model answers `ST_BAD_STATE` and `ST_BUSY` (DESIGN CHOICE, log entry 114). -/
def activateBody (r : Req) (s : State) : State × Option Reply :=
  let k := s.cfg.bank s.cfg.target
  if s.cfg.activating.isSome then (s, some (.fail stat_busy))
  else if !s.bankOk k || !newerBank s k then (s, some (.fail stat_badState))
  else match s.activationStatus k with
    | some st => (s, some (.fail st))
    | none =>
      if (differing k.sections s.cfg.sections).isEmpty then (activateNow s, some (.ok (le64 s.tb.count)))
      else ({ s with cfg := { s.cfg with activating := some (r.port, r.tag, r.seq) } }, none)

def execCfgActivate (r : Req) (s : State) : Result :=
  .next (runLater r (keyCmd 0x0204 (decide (r.len = 0)) .system none s.sys.mode.isRunLimpWork) (fun _ s => activateBody r s) s)

/-- A boundary of R54: the scheduled sections take effect, if the mode still allows them, and the request is answered. -/
def activationBoundary (s : State) : State :=
  match s.cfg.activating with
  | none => s
  | some (port, tag, seq) =>
    let r : Req := { port := port, tag := tag, seq := seq, version := 1, len := 0, resvZero := true }
    let k := s.cfg.bank s.cfg.target
    match (if s.bankOk k && newerBank s k then s.activationStatus k else some stat_badState) with
    | some st => respond r 0x0204 st [] { s with cfg := { s.cfg with activating := none } }
    | none => respond r 0x0204 stat_ok (le64 s.tb.count) (activateNow s)

/-- The next 1 ms boundary of `TB_COUNT`, while the ring is not joined. -/
def execActivationMsBoundary (s : State) : Result := .next (if s.ring.joined then s else activationBoundary s)

end Sys2Proof.Machine
end

