-- ==== Sys2Proof/Machine/EswCmds.lean ====
section
/-! DEFINITION. The switch commands (Table 10.13). -/

namespace Sys2Proof.Machine

/-- All switch commands but `ESW.STATS` are allowed in Run, Limp and Workshop (R294). -/
def eswCmd (code : U16) (lenOk : Bool) (need : Need) (payload : Option U16) (s : State) : Cmd :=
  { code := code, lenOk := lenOk, need := need, payload := payload, modeOk := s.sys.mode.isRunLimpWork }

/-- The owner of a port. -/
def State.portNeed (s : State) (p : Nat) : Need := .owner (if p ≤ 20 then (s.swp p).vzf else none)

def portStat (p : Byte) : Option U16 := needStat (decide (p.toNat ≤ 20)) stat_eswPort

/-- Only ports 0 to 20 in a mask. -/
def maskOk (m : U32) : Bool := decide (m.toNat < 2097152)

/-- `SPEED` (Table 10.10). -/
def speedCode (p : Nat) : Nat := if p = 0 then 3 else if isP p then 2 else if isQ p then 1 else if isS p then 0 else 4

/-- `ESW_PORT_STATE` (Table 10.10). -/
def State.portWord (s : State) (p : Nat) : U32 :=
  let x := s.swp p
  wordOf [(bit x.link, 31), (bit x.macsecLive, 30), (bit x.rec_.gptp, 29), (bit (isS p && x.plcaAct), 28),
    (bit (isS p && x.plca.en && decide (x.plca.node = 0)), 27),
    (bit (decide (p = 0) && decide (x.rec_.rgBe ≠ 0) && loopNamed s.ring.last.loopStns), 26),
    (bit ((isP p || isQ p) && x.rec_.phyMaster), 25), (speedCode p, 20), (if isS p then x.plca.node % 256 else 0, 8),
    (x.rec_.owner % 256, 0)]

def EswCounts.bytes (c : EswCounts) : List Byte :=
  n64 c.rx ++ n64 c.tx ++ n64 c.rxBytes ++ n64 c.txBytes ++ n64 c.drops ++ n64 c.macsec

def execEswPortStatus (r : Req) (port : Byte) (s : State) : Result :=
  .next (runCmd r (eswCmd 0x0801 (decide (r.len = 4)) (s.portNeed port.toNat) (portStat port) s)
    (fun _ s => (s, .ok (le32 (s.portWord port.toNat) ++ zeros 4 ++ (s.swp port.toNat).count.bytes))) s)

def vidOk (v : U16) : Bool := decide (1 ≤ v.toNat) && decide (v.toNat ≤ 4094)

def execEswVlanSet (r : Req) (vid : U16) (members untagged : U32) (s : State) : Result :=
  .next (runCmd r
    (eswCmd 0x0802 (decide (r.len = 12)) .system (needStat (vidOk vid && maskOk members && maskOk untagged) stat_range) s)
    (fun _ s => (s.modEsw (fun e => { e with vlans := e.vlans.set vid.toNat { members := members, untagged := untagged } }), .ok [])) s)

/-- Who owns a forwarding entry (R294): the VZF of the endpoint when it names I0 or I1 alone, else the one owner of all its ports. -/
def State.fdbOwner (s : State) (mac : BitVec 48) (vid : Nat) (ports : U32) : Option Nat :=
  let l := (List.range 21).filter (fun p => ports.getLsbD p)
  if l.all (fun p => decide (p = portI0) || decide (p = portI1)) then
    s.findVzf (fun z => z.tpl.macs.contains mac && z.tpl.vids.contains vid)
  else match l with
    | [] => none
    | p :: rest => if rest.all (fun q => decide ((s.swp q).vzf = (s.swp p).vzf)) then (s.swp p).vzf else none

def fdbStat (f : FdbFields) : Option U16 :=
  orStat (needStat (decide (f.flags.toNat ≤ 3)) stat_badPayload)
    (needStat (vidOk f.vid && maskOk f.ports && (decide (f.station.toNat ≤ 31) || decide (f.station = 0xFF))) stat_range)

def fdbAdd (f : FdbFields) (s : State) : State × Reply :=
  let x : FdbEntry := { mac := f.mac, vid := f.vid.toNat, ports := f.ports, station := f.station.toNat,
                        static_ := flagOf f.flags 0, discard := flagOf f.flags 1 }
  let rest := s.esw.fdb.filter (fun y => !(decide (y.mac = x.mac) && decide (y.vid = x.vid)))
  if 16384 ≤ rest.length then (s, .fail stat_eswTableFull) else (s.modEsw (fun e => { e with fdb := rest ++ [x] }), .ok [])

def execEswFdbAdd (r : Req) (f : FdbFields) (s : State) : Result :=
  .next (runCmd r (eswCmd 0x0803 (decide (r.len = 16)) (.owner (s.fdbOwner f.mac f.vid.toNat f.ports)) (fdbStat f) s)
    (fun _ s => fdbAdd f s) s)

def execEswFdbDel (r : Req) (mac : BitVec 48) (vid : U16) (s : State) : Result :=
  let old := s.esw.lookup mac vid.toNat
  .next (runCmd r
    (eswCmd 0x0804 (decide (r.len = 8))
      (match old with
       | some e => .owner (s.fdbOwner mac vid.toNat e.ports)
       | none => .any) none s)
    (fun _ s => if old.isNone then (s, .fail stat_badState)
      else (s.modEsw (fun e => { e with fdb := e.fdb.filter (fun y => !(decide (y.mac = mac) && decide (y.vid = vid.toNat))) }), .ok [])) s)

/-- Σ MIN over all pots with the new record against the budget (R275). -/
def potBudgetOk (k min : Nat) (s : State) : Bool :=
  let sum := (s.esw.pots.cells.map (fun c => if c.1 = k then 0 else c.2.rec_.min)).foldl (· + ·) min
  decide (sum + s.esw.hold + 2048 ≤ bankCells * s.esw.nBank)

def potStat (f : PotFields) : Option U16 :=
  needStat (decide (f.pot.toNat ≤ 63) && decide (f.min.toNat ≤ totalCells) && decide (f.min.toNat ≤ f.max.toNat)
    && decide (f.max.toNat ≤ totalCells) && decide (1 ≤ f.maxDesc.toNat) && decide (f.maxDesc.toNat ≤ totalDescs)) stat_range

def potConfig (f : PotFields) (s : State) : State × Reply :=
  if !potBudgetOk f.pot.toNat f.min.toNat s then (s, .fail stat_eswPotBudget)
  else (s.modPot f.pot.toNat (fun t => { t with
    rec_ := { owner := f.owner.toNat, min := f.min.toNat, max := f.max.toNat, maxDesc := f.maxDesc.toNat } }), .ok [])

def execEswPotConfig (r : Req) (f : PotFields) (s : State) : Result :=
  .next (runCmd r (eswCmd 0x0805 (decide (r.len = 16)) .system (potStat f) s) (fun _ s => potConfig f s) s)

def Pot.bytes (t : Pot) : List Byte :=
  n32 t.used ++ n32 (min t.used t.rec_.min) ++ n32 (t.used - t.rec_.min) ++ n32 t.desc ++ n32 t.peak ++ zeros 4
    ++ n64 t.dropFull ++ n64 t.dropLast ++ n64 t.lossless ++ n64 t.reclaimed

def execEswPotStatus (r : Req) (pot : Byte) (s : State) : Result :=
  .next (runCmd r
    (eswCmd 0x0806 (decide (r.len = 4)) (.owner (s.potOwner pot.toNat)) (needStat (decide (pot.toNat ≤ 63)) stat_range) s)
    (fun _ s => (s.modPot pot.toNat (fun t => { t with peak := t.used }), .ok (s.pot pot.toNat).bytes)) s)

/-- Shaped classes of a port. -/
def EswState.shaped (e : EswState) (p : Nat) : Nat := (e.shapers.keys.filter (fun k => decide (k / 8 = p))).length

def shaperSet (p t : Nat) (on : Bool) (slope : Nat) (s : State) : State × Reply :=
  let k := 8 * p + t
  if !on then (s.modEsw (fun e => { e with shapers := e.shapers.erase k }), .ok [])
  else if (s.esw.shapers.get? k).isNone && decide (4 ≤ s.esw.shaped p) then (s, .fail stat_eswTableFull)
  else (s.modEsw (fun e => { e with shapers := e.shapers.set k { slope := slope, credit := 0, last := s.now } }), .ok [])

def execEswShaperSet (r : Req) (port cls enable : Byte) (slope : U32) (s : State) : Result :=
  .next (runCmd r
    (eswCmd 0x0807 (decide (r.len = 8)) (s.portNeed port.toNat)
      (orStat (portStat port) (orStat (needStat (decide (enable.toNat ≤ 1)) stat_badPayload)
        (needStat (decide (cls.toNat ≤ 7) && decide (slope.toNat ≤ rateKbps port.toNat)) stat_range))) s)
    (fun _ s => shaperSet port.toNat cls.toNat (decide (enable = 1)) slope.toNat s) s)

/-- Interval range and the sum of intervals (Table 10.2, Table 10.12). -/
def gateListOk (f : GateFields) : Bool :=
  f.entries.all (fun e => decide (64 ≤ e.1.toNat) && decide (e.1.toNat ≤ 1000000000))
    && decide ((f.entries.map (fun e => e.1.toNat)).foldl (· + ·) 0 = f.cycle.toNat)

def gateStat (f : GateFields) : Option U16 :=
  orStat (needStat (decide (f.target.toNat ≤ 1)) stat_badPayload)
    (orStat (if f.target = 0 then portStat f.port else needStat (decide (f.gate.toNat ≤ 511)) stat_range)
      (orStat (needStat (decide (1 ≤ f.entries.length) && decide (f.entries.length ≤ if f.target = 0 then 256 else 64)
          && decide (1000 ≤ f.cycle.toNat) && decide (f.cycle.toNat ≤ 1000000000) && decide (f.baseNs.toNat < 1000000000)) stat_range)
        (needStat (gateListOk f) stat_eswGateList)))

def gateSet (f : GateFields) (s : State) : State :=
  let l : GateList := { cycle := f.cycle.toNat, base := { sec := f.baseSec.toNat, ns := f.baseNs.toNat, frac := 0 },
                        entries := f.entries.map (fun e => (e.1.toNat, e.2)) }
  s.modEsw (fun e =>
    if f.target = 0 then { e with gates := e.gates.modify .open_ f.port.toNat (fun g => { g with admin := some l }) }
    else { e with streamGates := e.streamGates.modify .open_ f.gate.toNat (fun g => { g with admin := some l }) })

def execEswGateSet (r : Req) (f : GateFields) (s : State) : Result :=
  .next (runCmd r (eswCmd 0x0808 (decide (r.len = 24 + 8 * f.entries.length)) .system (gateStat f) s)
    (fun _ s => (gateSet f s, .ok [])) s)

def filterStat (f : FilterFields) : Option U16 :=
  orStat (needStat (decide (f.method.toNat ≤ 2)) stat_eswFeature)
    (orStat (needStat (decide (f.flags.toNat ≤ 3) && decide (f.meterFlags.toNat ≤ 15)) stat_badPayload)
      (needStat (decide (f.filter.toNat ≤ 4095) && decide (f.port.toNat ≤ 20) && decide (f.gate.toNat ≤ 511 ∨ f.gate = 0xFFFF)
          && decide (f.meter.toNat ≤ 2047 ∨ f.meter = 0xFFFF)
          && (decide (f.method.toNat = 2) || (decide (1 ≤ keyHalf f.key 6) && decide (keyHalf f.key 6 ≤ 4094)))) stat_range))

/-- The owner of the port, who also owns the filter's old port if there is one. -/
def State.filterOwner (s : State) (f : FilterFields) : Option Nat :=
  let o := if f.port.toNat ≤ 20 then (s.swp f.port.toNat).vzf else none
  match s.esw.filters.get? f.filter.toNat with
  | some x => if (s.swp x.rec_.port.toNat).vzf = o then o else (s.swp x.rec_.port.toNat).vzf
  | none => o

/-- The stream handle is the filter's number (the model's choice). -/
def streamFilter (f : FilterFields) (s : State) : State × Reply :=
  (s.modEsw (fun e => { e with
    filters := e.filters.set f.filter.toNat { rec_ := f, blocked := false }
    meters := if f.meter = 0xFFFF then e.meters else e.meters.set f.meter.toNat (Meter.ofFilter f s.now) }), .ok (le16 f.filter))

def execEswStreamFilter (r : Req) (f : FilterFields) (s : State) : Result :=
  .next (runCmd r (eswCmd 0x0809 (decide (r.len = 68)) (.owner (s.filterOwner f)) (filterStat f) s)
    (fun _ s => streamFilter f s) s)

def frerStat (f : FrerFields) : Option U16 :=
  orStat (needStat (decide (f.kind.toNat ≤ 2) && decide (f.algorithm.toNat ≤ 1) && decide (f.flags.toNat ≤ 3)) stat_badPayload)
    (needStat (decide (f.fn.toNat ≤ 1023) && maskOk f.ports && (decide (f.kind ≠ 2) ||
      (decide (2 ≤ f.history.toNat) && decide (f.history.toNat ≤ 32)))) stat_range)

def frerSet (f : FrerFields) (s : State) : State :=
  let x : Frer := { rec_ := f, next := 0, takeAny := true, recv := 0, history := 0, last := s.now }
  s.modEsw (fun e => { e with frer := if f.kind = 0 then e.frer.erase f.fn.toNat else e.frer.set f.fn.toNat x })

def execEswFrerSet (r : Req) (f : FrerFields) (s : State) : Result :=
  .next (runCmd r (eswCmd 0x080A (decide (r.len = 16)) .system (frerStat f) s) (fun _ s => (frerSet f s, .ok [])) s)

def plcaStat (f : PlcaFields) : Option U16 :=
  orStat (needStat (isS f.port.toNat) stat_eswPort)
    (orStat (needStat (decide (f.enable.toNat ≤ 1)) stat_badPayload)
      (needStat (decide (f.node.toNat ≤ 254) && decide (1 ≤ f.count.toNat) && decide (1 ≤ f.toTimer.toNat)
        && decide (1 ≤ f.burstTimer.toNat)) stat_range))

def plcaSet (f : PlcaFields) (s : State) : State :=
  s.modSwp f.port.toNat (fun x => { x with
    plca := { en := decide (f.enable = 1), node := f.node.toNat, count := f.count.toNat, toTimer := f.toTimer.toNat,
              burst := f.burst.toNat, burstTimer := f.burstTimer.toNat }
    plcaAct := decide (f.enable = 1), plcaLost := false })

def execEswPlcaSet (r : Req) (f : PlcaFields) (s : State) : Result :=
  .next (runCmd r (eswCmd 0x080B (decide (r.len = 8)) .system (plcaStat f) s) (fun _ s => (plcaSet f s, .ok [])) s)

/-- The counts of a snapshot (Table 10.13). -/
def EswState.auditBytes (e : EswState) : List Byte :=
  n32 e.free ++ n32 e.scrubbing ++ n32 e.owned ++ n32 e.holdCells ++ n32 e.descFree ++ n32 (totalDescs - e.descFree) ++ n32 e.leaks
    ++ n32 e.reclaimed ++ n64 e.auditAt

def auditBody (op policy : Byte) (tAud : Nat) (cellsOff descsOff : Int) (loose : List LooseCell) (s : State) : State × Reply :=
  let t := if op = 0 then audit cellsOff descsOff loose s
    else s.modEsw (fun e => { e with reclaim := decide (policy = 1), tAud := tAud })
  (t, .ok t.esw.auditBytes)

def execEswAudit (r : Req) (op policy : Byte) (tAud : U16) (cellsOff descsOff : Int) (loose : List LooseCell) (s : State) : Result :=
  .next (runCmd r
    (eswCmd 0x080C (decide (r.len = 4)) .system
      (orStat (needStat (decide (op.toNat ≤ 1) && decide (policy.toNat ≤ 1)) stat_badPayload)
        (needStat (decide (op = 0) || (decide (1 ≤ tAud.toNat) && decide (tAud.toNat ≤ 1000))) stat_range)) s)
    (fun _ s => auditBody op policy tAud.toNat cellsOff descsOff loose s) s)

def EswStats.bytes (t : EswStats) : List Byte :=
  n64 t.switched ++ n64 t.flooded ++ n64 t.oversize ++ n64 t.noRoute ++ n64 t.spoof ++ n64 t.qci ++ n64 t.frer ++ n64 t.ecc
    ++ n64 t.stalls

def execEswStats (r : Req) (clear : Byte) (s : State) : Result :=
  .next (runCmd r
    { code := 0x080D, lenOk := decide (r.len = 4), need := .any
      payload := needStat (decide (clear.toNat ≤ 1)) stat_badPayload, modeOk := s.sys.mode.isServing }
    (fun _ s => (if clear = 1 then s.modEswStats (fun _ => .zero) else s, .ok s.esw.stats.bytes)) s)

end Sys2Proof.Machine
end

