-- ==== Sys2Proof/Machine/LogRows.lean ====
section
/-! DEFINITION. The cairn log's rows: the LOG commands (R480), the stones' copies (R474) and failing stores (R475). -/

namespace Sys2Proof.Machine

/-! ### Entries -/

/-- Byte 0x0E of an entry (Table 16.11). -/
def LogEntry.flagByte (e : LogEntry) : Byte := byteOf (e.cls % 8 + 8 * bit e.tb + 16 * bit e.trunc + 32 * bit e.stone)

/-- The 32 bytes of an entry (Table 16.11). -/
def LogEntry.bytes (e : LogEntry) : List Byte :=
  let b := le32 e.seq ++ le64 e.time ++ le16 e.code ++ [e.flagByte, e.owner] ++ le16 e.inst ++ le16 e.boot ++ (e.data ++ zeros 8).take 8
  b ++ le32 (crc32c b)

/-- `a` is `b` or later. -/
def atOrAfter (a b : U32) : Bool := !later b a

/-- The entries of the store that `LOG.READ` names, oldest first; in state 1 the RAM store reads NAND (Table 16.13). -/
def LogState.store (l : LogState) (n : Nat) : List LogEntry := (if n = 0 ∧ l.mode ≠ .nandOnly then l.ram else l.nand).reverse

/-- Sequence of the oldest entry of a store, newest first; 0 where it is empty. -/
def oldestSeq (l : List LogEntry) : U32 := (l.getLast?.map (·.seq)).getD 0

/-- Stones occupied, and the mask of Table 3.14. -/
def LogState.stonesWord (l : LogState) : U32 :=
  wordOf [(l.stones.cells.length, 16), (maskOf 16 (fun i => (l.stones.get? i).isSome), 0)]

/-- `LOG_STATE` (Table 16.17). -/
def LogState.stateWord (l : LogState) : U32 :=
  wordOf [(l.mode.code, 30), (bit l.flashFull, 29), (bit l.flashFail, 28), (bit l.debugEn, 27), (l.stones.cells.length, 16)]

/-! ### Commands (Table 16.18) -/

/-- `LOG.READ`: a start older than the oldest held begins there, and says so. -/
def logReadBytes (l : List LogEntry) (first : U32) (count : Nat) : List Byte :=
  let older := match l with
    | [] => false
    | e :: _ => !atOrAfter first e.seq
  let from_ := if older then ((l.head?).map (·.seq)).getD first else first
  let out := (l.filter (fun e => atOrAfter e.seq from_)).take count
  let next := (out.getLast?.map (fun e => e.seq + 1)).getD from_
  n16 out.length ++ [byteOf (bit older), 0] ++ le32 next ++ out.flatMap LogEntry.bytes

def logReadStat (store count : Nat) : Option U16 := needStat (decide (store ≤ 1) && within 1 125 count) stat_range

def execLogRead (r : Req) (store : Byte) (first : U32) (count : U16) (s : State) : Result :=
  .next (runCmd r (keyCmd 0x1201 (decide (r.len = 12)) .any (logReadStat store.toNat count.toNat) s.sys.mode.isServing)
    (fun _ s => (s, .ok (logReadBytes (s.log.store store.toNat) first count.toNat))) s)

/-- `LOG.ARCHIVE`: entries up to `last` are freed. -/
def archiveBody (last : U32) (s : State) : State × Reply :=
  match s.log.nand.head? with
  | none => (s, .fail stat_range)
  | some e =>
    if later last e.seq then (s, .fail stat_range)
    else
      let kept := s.log.nand.filter (fun (x : LogEntry) => later x.seq last)
      let freed := s.log.nand.length - kept.length
      ({ s with log := { s.log with nand := kept, flashFull := s.log.flashFull && decide (freed = 0) } },
        .ok (n32 freed ++ n32 (Config.nandEntries - kept.length)))

def execLogArchive (r : Req) (last : U32) (s : State) : Result :=
  .next (runCmd r (keyCmd 0x1202 (decide (r.len = 4)) .system none s.sys.mode.isServing) (fun _ s => archiveBody last s) s)

def logStatusBytes (l : LogState) : List Byte :=
  let newest := (l.ram ++ l.nand).foldl (fun (a : Option U32) e => match a with
    | some q => if later e.seq q then some e.seq else some q
    | none => some e.seq) none
  le32 l.stateWord ++ n32 l.overrun ++ n32 l.nand.length ++ le32 (oldestSeq l.ram) ++ le32 (newest.getD 0) ++ le32 (oldestSeq l.nand)
    ++ n32 l.dropped ++ n32 l.stoneOverwrites

/-- `LOG.STATUS`: operation 1 switches debug logging on, 2 off. -/
def logStatusBody (op : Nat) (s : State) : State × Reply :=
  let s := if op = 0 then s else { s with log := { s.log with debugEn := decide (op = 1) } }
  (s, .ok (logStatusBytes s.log))

def execLogStatus (r : Req) (op : Byte) (s : State) : Result :=
  .next (runCmd r (keyCmd 0x1203 (decide (r.len = 4)) (if op = 1 ∨ op = 2 then .system else .any)
      (needStat (decide (op.toNat ≤ 2)) stat_badPayload) s.sys.mode.isServing)
    (fun _ s => logStatusBody op.toNat s) s)

/-- `LOG.READ_STONES`: zero where a stone is empty. -/
def stonesBytes (l : LogState) : List Byte :=
  le32 l.stonesWord ++ n32 l.stoneOverwrites
    ++ (List.range 16).flatMap (fun i => match l.stones.get? i with
      | some x => x.entry.bytes
      | none => zeros 32)

def execLogReadStones (r : Req) (s : State) : Result :=
  .next (runCmd r (keyCmd 0x1204 (decide (r.len = 0)) .any none s.sys.mode.isAwake) (fun _ s => (s, .ok (stonesBytes s.log))) s)

/-- `LOG.CLEAR_STONES` empties every stone and its NAND copy (R474). -/
def clearStones (s : State) : State := { s with log := { s.log with stones := .empty } }

def execLogClearStones (r : Req) (s : State) : Result :=
  .next (runCmd r (keyCmd 0x1205 (decide (r.len = 0)) .system none (decide (s.sys.mode = .workshop))) (fun _ s => (clearStones s, .ok [])) s)

/-! ### Stores -/

/-- The NAND copy of a stone is finished (R474). -/
def execStoneCopyDone (stone : Fin 16) (s : State) : Result :=
  .next (match s.log.stones.get? stone.val with
    | some x => { s with log := { s.log with stones := s.log.stones.set stone.val { x with copied := true } } }
    | none => s)

/-- An uncorrectable error in the log SRAM (R475): the RAM ring is lost, and the log goes on in NAND, or on the stones where the
NAND log has failed. -/
def sramEcc (s : State) : State :=
  if !s.mgrUp || s.log.mode ≠ .normal then s
  else
    let bad := s.log.flashFail
    let s := { s with log := { s.log with mode := if bad then .stonesOnly else .nandOnly, ram := [], flashFail := false } }
    raise (if bad then evt_logStoreFailed else evt_logDegraded) noInst .wide [] s

def execLogSramEcc (s : State) : Result := .next (sramEcc s)

/-- A NAND log write fails (R475). -/
def nandFail (s : State) : State :=
  if !s.mgrUp then s
  else match s.log.mode with
    | .normal => { s with log := { s.log with flashFail := true } }
    | .nandOnly => raise evt_logStoreFailed noInst .wide [] { s with log := { s.log with mode := .stonesOnly } }
    | .stonesOnly => s

def execNandLogWriteFail (s : State) : Result := .next (nandFail s)

end Sys2Proof.Machine
end

