-- ==== Sys2Proof/Machine/PowerDie.lean ====
section
/-! DEFINITION. What happens in the power dies: link frames and hold (R98, R117, R118), the protection ladder (R99 to R116),
free-wheel verification (R109), shedding (R93), bridges and valves (R129 to R143), and supplies (R42, R94). -/

namespace Sys2Proof.Machine

/-! ### Link and hold -/

/-- `POWER_DIE_LINK_FRAME`: the clamp energy of the turn-offs since the last frame goes to the ledgers (R110), the frame
acts (R98, R118), and CH predicates see what the die has found (Table 8.5). -/
def execPowerDieLinkFrame (die : Fin 8) (clamp : List (Fin 14 × Nat)) (s : State) : Result :=
  .next (evalRules (dieFrame die.val (clamp.foldl (fun s c => addClamp (14 * die.val + c.1.val) c.2 s) s)))

/-- A die that has heard a frame since its power-up enters hold after 10 µs of silence (R117); a keep-alive channel in
Bivouac ignores the silence (R120). -/
def linkSilence (g : Nat) (s : State) : State :=
  let d := s.die g
  if !d.seenFrame || d.silent then s
  else
    let cs := s.ch.modDie g (fun d => { d with inHold := true, silenceFrom := d.lastFrame, silenceUs := 0, holdTrips := d.holdTrips })
    { s with ch := (groupChans g).foldl (fun cs i =>
        if d.keeping && (cs.chans.getD .reset i).keep.isSome then cs else enterHold s cs i) cs }

def execLinkSilenceHold (die : Fin 8) (s : State) : Result := .next (linkSilence die.val s)

/-- t_HOLD expires (R117, R118). -/
def holdTimeout (i : Nat) (s : State) : State :=
  if (s.chan i).hold = .holding then
    let t := chanOff i 3 s
    endHold (i / 14) (t.modChan i (fun c => { c with hold := .expired }))
  else s

def execHoldTimeout (ch : Fin 112) (s : State) : Result := .next (holdTimeout ch.val s)

/-! ### Protection ladder -/

/-- A switch of the channel conducts: its output is not off, or a bridge drives or brakes, in its stop state as well (R132). -/
def State.conducts (s : State) (i : Nat) : Bool :=
  match chClass i with
  | .half => !(s.bridge (i / 14)).coasts (s.chan (bridgeIdx i)).prof.hb.stopBrake
  | _ => !(s.chan i).out.isOff

/-- Protection can trip the channel: its supply is present and it conducts (R94, R99, R132). -/
def State.canTrip (s : State) (i : Nat) : Bool :=
  decide ((s.die (i / 14)).supply = .present) && s.conducts i && !(s.chan (bridgeIdx i)).grd.blocks

def guardTrip (ok : Bool) (i cause : Nat) (s : State) : State := if ok && s.canTrip i then trip i cause s else s

/-- The current reaches the fixed latch level of the class; a valve has no latch (R99, Tables 4.1, 5.4). -/
def execShortCircuitTrip (ch : Fin 112) (ma : Nat) (s : State) : Result :=
  .next (guardTrip (decide (chClass ch.val ≠ .valve) && decide ((chClass ch.val).latchLevel ≤ ma)) ch.val 1 s)

/-- The channel limits, and its accumulated limiting time has reached t_LIM (R100); t_LIM is in 0.1 ms. -/
def State.limitOver (s : State) (i : Nat) : Bool :=
  let c := s.chan (bridgeIdx i)
  c.grd.limiting && decide (c.prof.tLim * Config.ticksPerMs ≤ 10 * c.grd.limTime s.now)

def execLimitTimeout (ch : Fin 112) (s : State) : Result := .next (guardTrip (s.limitOver ch.val) ch.val 2 s)

/-- The inrush window ends: the limit returns to I_LIM, and the channel limits if its current is above it (R101). -/
def inrushEnd (i : Nat) (above : Bool) (s : State) : State :=
  let i := bridgeIdx i
  if (s.chan i).grd.inrush then
    s.modChan i (fun c => { c with grd := { c.grd.limit s.now above with inrush := false } })
  else s

def execInrushWindowEnd (ch : Fin 112) (above : Bool) (s : State) : Result := .next (inrushEnd ch.val above s)

/-- Zone ambient in µK above 0 °C scale: fixed, or baseplate plus offset (R102). -/
def State.ambientUk (s : State) (p : Profile) : Int :=
  if p.ambBase then s.sys.baseTemp * 100000 + (p.ambOfs : Int) * 1000000 else p.amb * 1000000

/-- One 1 ms step of the wire model on a mean of I² in mA² (R102), in whole µK. -/
def wireRise (rise : Int) (i2 iRefMa tau : Nat) : Int :=
  let steady : Int := (50000000 * i2 / (iRefMa * iRefMa) : Nat)
  rise + (steady - rise) / ((tau : Int) * 1000)

def wireStep (i i2 : Nat) (s : State) : State :=
  let i := bridgeIdx i
  let c := s.chan i
  let w := c.prof.wireOf (chClass i)
  let rise := wireRise c.grd.riseUk i2 w.1 w.2
  let room := insulRating c.prof.insul * 1000000 - s.ambientUk c.prof
  let t := s.modChan i (fun c => { c with grd := { c.grd with riseUk := rise, wireOk := decide (2 * rise ≤ room) } })
  if room < rise then guardTrip true i 3 t else tryRetry i t

def execWireModelStep (ch : Fin 112) (i2 : Nat) (s : State) : Result := .next (wireStep ch.val i2 s)

/-- The junction is at the trip level, 165 °C at the least (Table 4.2). -/
def execJunctionOvertemp (ch : Fin 112) (tj : Int) (s : State) : Result := .next (guardTrip (decide (tjTrip ≤ tj)) ch.val 4 s)

/-- Open load starts: a report only (R99); a valve reports it while saturated (R136). -/
def openLoad (i : Nat) (onState : Bool) (s : State) : State :=
  let was := (s.chan i).grd.ol
  let t := s.modChan i (fun c =>
    { c with flags := { c.flags with olOn := c.flags.olOn || onState, olOff := c.flags.olOff || !onState },
             grd := { c.grd with ol := true } })
  if was then t else raiseCh evt_chOpenLoad i [] t

/-- On-state open load is looked for (Tables 4.5, 5.4): a bridge at a duty of 50 % or more, a valve while saturated. -/
def State.openLoadRuns (s : State) (i : Nat) : Bool :=
  match chClass i with
  | .half => (match (s.chan i).out with
              | .drive code duty _ => (decide (code = 1) || decide (code = 2)) && decide (5000 ≤ duty)
              | _ => false)
  | .valve => !(s.chan i).out.isOff && (s.valve (chanVlv i)).sat
  | _ => !(s.chan i).out.isOff

def openLoadOn (i : Nat) (s : State) : State :=
  let i := bridgeIdx i
  if (s.die (i / 14)).supply = .present && decide ((s.chan i).prof.openLoad (chClass i) ≠ 0) && s.openLoadRuns i then openLoad i true s else s

def execOpenLoadOn (ch : Fin 112) (s : State) : Result := .next (openLoadOn ch.val s)

/-- The off-state test can run: the output is off, or the bridge coasts. -/
def State.offRuns (s : State) (i : Nat) : Bool :=
  match chClass i with
  | .half => (s.bridge (i / 14)).coasts (s.chan i).prof.hb.stopBrake
  | _ => (s.chan i).out.isOff

/-- The off-state test: `highBefore` is a high output before the test source; `under` is the voltage that 4.0 V is
compared with, in 10 mV: the output, between the outputs of a bridge, or `VGg` less the output of a valve (Tables 4.5,
5.4). -/
def offTest (i : Nat) (highBefore : Bool) (under : Int) (s : State) : State :=
  let i := bridgeIdx i
  let c := s.chan i
  if c.prof.olOffEn && s.offRuns i && decide ((s.die (i / 14)).supply = .present) then
    let stb := highBefore && decide (chClass i ≠ .valve)
    let t := s.modChan i (fun c =>
      { c with flags := { c.flags with stb := c.flags.stb || stb }, grd := { c.grd with stb := stb } })
    let t := if stb && !c.grd.stb then raiseCh evt_chShortToSupply i [] t else t
    let open_ := if chClass i = .valve then decide (400 < under) else decide (400 ≤ under)
    if open_ then openLoad i false t else t.modChan i (fun c => { c with grd := { c.grd with ol := false } })
  else s

def execOffStateTest (ch : Fin 112) (highBefore : Bool) (under : Int) (s : State) : Result :=
  .next (offTest ch.val highBefore under s)

/-- One 256-sample window: suspect when its band RMS exceeds ARC_RMS and `VGg` steps by more than ARC_DV; ARC_N of the last
16 trip with `ARC` (R116). -/
def arcStep (i rms dv : Nat) (s : State) : State :=
  if s.arcRuns i then
    let c := s.chan i
    let suspect := decide (c.prof.arcRms < rms) && decide (c.prof.arcDv < dv)
    let wins := keepNewest 16 (suspect :: c.grd.arcWins)
    let t := s.modChan i (fun c => { c with grd := { c.grd with arcWins := wins } })
    guardTrip (decide (c.prof.arcN ≤ (wins.filter (fun b => b)).length)) i 5 t
  else s

def execArcWindow (ch : Fin 112) (rms dv : Nat) (s : State) : Result := .next (arcStep ch.val rms dv s)

def execRetryDelayExpiry (ch : Fin 112) (s : State) : Result :=
  .next (tryRetry ch.val (s.modChan (bridgeIdx ch.val) (fun c => { c with grd := { c.grd with delayDone := c.grd.waiting } })))

/-- Ten seconds of trip-free on-time (R103). -/
def retryReset (i : Nat) (s : State) : State :=
  let i := bridgeIdx i
  let c := s.chan i
  if !c.out.isOff && !c.grd.blocks then s.modChan i (fun c => { c with grd := { c.grd with retries := 0 } }) else s

def execRetryCountReset (ch : Fin 112) (s : State) : Result := .next (retryReset ch.val s)

/-- 50 µs after the first turn-off: above −1.5 V throughout the path is there; else `FW_MISSING` and `LOCK_FW` (R109).
`lowest` is in 10 mV. -/
def freewheelEnd (i : Nat) (lowest : Int) (clampUj : Nat) (s : State) : State :=
  let c := s.chan i
  if !c.grd.fwWatch || decide ((s.die (i / 14)).supply = .reversed) then s
  else
    let s := s.modChan i (fun c => { c with grd := { c.grd with fwWatch := false, fwDone := true } })
    if -150 < lowest then addClamp i clampUj (s.modChan i (fun c => { c with grd := { c.grd with fwOk := true } }))
    else
    let t := s.modChan i (fun c =>
      { c.switch i .off 6 s.now false with cause := 7, flags := { c.flags with fwMissing := true } })
    let t := t.modChan i (fun c => { c with grd := { c.grd with fwMissing := true, lockFw := true } })
    addClamp i clampUj (twinFault ((raiseCh evt_chFwMissing i [] t).raiseSrc (s.chOwner i) 41))

def execFreewheelCheckEnd (ch : Fin 112) (lowest : Int) (clampUj : Nat) (s : State) : Result :=
  .next (freewheelEnd ch.val lowest clampUj s)

/-- Nothing senses while the group supply is reversed (R94). -/
def State.senses (s : State) (g : Nat) : Bool := decide ((s.die g).supply ≠ .reversed)

/-- The measured values of a status word, its stamp and the end of an on-state open load (R122, R113); a valve's ceiling counts in its
regulation period. Each half of a bridge has its own output voltage (Table 5.11). -/
def statusUpdate (i : Nat) (m : Measure) (s : State) : State :=
  if !s.senses (i / 14) then s.modChan (bridgeIdx i) (fun c => { c with stamp := s.tb.count })
  else
  let s := s.modChan i (fun c => { c with sense := { c.sense with vout := m.vout } })
  let i := bridgeIdx i
  let c := s.chan i
  let amps := m.iAvg.toNat * (chClass i).fullScale / 16384
  let low := decide (amps < c.prof.openLoad (chClass i) * 10)
  s.modChan i (fun c =>
    { c with
      sense := { iAvg := m.iAvg.toNat, iInst := m.iInst.toNat, iPeak := max c.sense.iPeak m.iInst.toNat, negAvg := m.negAvg,
                 negInst := m.negInst, tj := m.tj, twire := (s.ambientUk c.prof + c.grd.riseUk) / 100000, vg := m.vg,
                 vout := c.sense.vout }
      grd := { (if chClass i = .valve then c.grd else c.grd.limit s.now (m.limiting && c.out.runs)) with ol := c.grd.ol && (c.out.isOff || low) }
      stamp := s.tb.count })

/-- The status reaches the logic die, where reflex predicates on the channel see it (R122, R201). -/
def execStatusWordUpdate (ch : Fin 112) (m : Measure) (s : State) : Result :=
  .next (evalRules (chStatUpdate (bridgeIdx ch.val) (statusUpdate ch.val m s)))

/-- On-time of a PWM period in CLK_IO cycles: none below 1 µs (R95). -/
def pulseCycles (freq duty : Nat) : Nat :=
  let n := (duty * 200000000 + 5000 * freq) / (10000 * freq)
  if n < 200 then 0 else n

/-- The off-edge of a PWM period is a turn-off: the first one starts the free-wheel check (R109, R110). -/
def pwmEdge (i : Nat) (s : State) : State :=
  let c := s.chan i
  match c.out with
  | .pwm duty _ =>
    if c.pulse ≠ 0 ∧ duty < 10000 then s.modChan i (fun c => { c with grd := { c.grd with fwWatch := c.grd.fwWatch || s.watches i c } }) else s
  | _ => s

/-- A PWM period begins (R95); the clamp energy of its last off-edge goes to the ledger (R110). -/
def pwmPeriod (i clampUj : Nat) (s : State) : State :=
  let t := addClamp i clampUj (pwmEdge i s)
  let c := t.chan i
  let duty := match c.out with
    | .pwm d _ => d
    | .drive _ d _ => d
    | _ => 0
  t.modChan i (fun c => { c with pulse := pulseCycles c.prof.fPwm duty })

def execPwmPeriodStart (ch : Fin 112) (clampUj : Nat) (s : State) : Result := .next (pwmPeriod ch.val clampUj s)

/-! ### Load limits -/

/-- One shed step of group `g` (R93). -/
def shedGroup (s : State) (g : Nat) : State :=
  let pick := s.shedPick (groupChans g) (s.ch.groupNext.getD 0 g)
  let next := match pick with
    | i :: _ => (s.chan i).prof.shed + 1
    | [] => s.ch.groupNext.getD 0 g
  shedAll 9 pick { s with ch := { s.ch with groupNext := s.ch.groupNext.set g next } }

/-- One shed step of the whole module (R93). -/
def shedModule (s : State) : State :=
  let pick := s.shedPick (List.range 112) s.ch.lossNext
  let next := match pick with
    | i :: _ => (s.chan i).prof.shed + 1
    | [] => s.ch.lossNext
  shedAll 10 pick { s with ch := { s.ch with lossNext := next } }

/-- 1 ms average of channel `i` in mA. -/
def State.chanMa (s : State) (i : Nat) : Nat := (s.chan i).sense.iAvg * (chClass i).fullScale / 16384

/-- Current of group `g` in mA: the sum of its channels' averages, a bridge's once (R93). -/
def State.groupMa (s : State) (g : Nat) : Nat := dieOffsets.foldl (fun n o => n + s.chanMa (14 * g + o)) 0

/-- Conduction loss of the module in µW: I² × on-resistance at each channel's junction temperature, a bridge's in both halves (R93). -/
def State.lossUw (s : State) : Nat :=
  (List.range 112).foldl (fun n i =>
    n + s.chanMa (bridgeIdx i) * s.chanMa (bridgeIdx i) * (chClass i).onRes (s.chan (bridgeIdx i)).sense.tj / 1000000) 0

/-- The 1 ms values join those of the last second. -/
def loadSample (s : State) : State :=
  { s with ch := { s.ch with
    groupHist := s.ch.groupHist.updateKeys [] allDies (fun g l => keepNewest 1000 (s.groupMa g :: l))
    lossHist := keepNewest 1000 (s.lossUw :: s.ch.lossHist) } }

/-- Sum of the 1 ms values of a second: 1,000 times their average. -/
def total (l : List Nat) : Nat := l.foldl (· + ·) 0

/-- Groups above 70 A, averaged over 1 s. -/
def ChanState.overGroups (c : ChanState) : List Nat :=
  allDies.filter (fun g => decide (70000 * 1000 < total (c.groupHist.getD [] g)))

/-- The loss is above its limit, averaged over 1 s. -/
def State.overLoss (s : State) : Bool := decide (s.sys.lossLimitMw * 1000 * 1000 < total s.ch.lossHist)

/-- The check of the 1 s averages: a limit newly exceeded sheds at once, and its next step starts at the lowest priority
(R93). -/
def loadCheck (s : State) : State :=
  let s := loadSample s
  let now := s.ch.overGroups
  let fresh := now.filter (fun g => !s.ch.groupOver.contains g)
  let loss := s.overLoss
  let freshLoss := loss && !s.ch.lossOver
  let s := { s with ch := { s.ch with
    groupOver := now, lossOver := loss, groupNext := s.ch.groupNext.updateKeys 0 fresh (fun _ _ => 0),
    lossNext := if freshLoss then 0 else s.ch.lossNext } }
  let s := fresh.foldl shedGroup s
  if freshLoss then shedModule s else s

def execGroupLoadCheck (s : State) : Result := .next (if s.sys.mode.isRunLimpWork && s.mgrUp then loadCheck s else s)

def shedAgain (s : State) : State :=
  let s := s.ch.groupOver.foldl shedGroup s
  if s.ch.lossOver then shedModule s else s

def execLoadShedStep (s : State) : Result := .next (if s.sys.mode.isRunLimpWork && s.mgrUp then shedAgain s else s)

/-- t_ORPH expires, unless it is 0 (no limit): the channel turns off, and its orphan state ends (R119). -/
def orphanEnd (i : Nat) (s : State) : State :=
  if (s.chan i).orphan.isSome && decide ((s.chan i).prof.tOrph ≠ 0) then urgentDie (i / 14) (s.modChan i (fun c => { c with orphan := none, sw := .off })) else s

def execOrphanTimeout (ch : Fin 112) (s : State) : Result := .next (orphanEnd ch.val s)

/-! ### Half-bridges -/

/-- The brake before a reversal ends: the new direction starts as a turn-on, and the old direction of counting holds until
the motor has stopped (R130, R139). -/
def reversalEnd (b : Nat) (s : State) : State :=
  let x := s.bridge b
  if !x.reversing then s
  else
    let code := match x.nextDrive with
      | some (.drive c _ _) => c
      | _ => 0
    let i := brChan b
    let t := s.modBridge b (fun x =>
      { x.goes code s.now with reversing := false, nextDrive := none, inserted := 0, rejected := 0, runon := false, stopped := false })
    t.modChan i (fun c => { c with grd := { c.grd with inrush := true } })

def execReversalBrakeEnd (br : Fin 8) (s : State) : Result := .next (reversalEnd br.val s)

/-- The bridge takes its stop state with a cause (R133, R141). -/
def bridgeStop (b : Nat) (cause : Option Nat) (s : State) : State :=
  let i := brChan b
  let rip := (s.chan i).prof.hb.rippleEn
  let t := s.modChan i (fun c => { c.switch i .off c.src s.now false with cause := cause.getD c.cause })
  t.modBridge b (fun x => { x.take .off rip s.now with stopped := true })

/-- Stall (R133): `STALL_ACT` 0 stops the bridge with cause 13, 1 only reports. -/
def stallDetect (b : Nat) (s : State) : State :=
  let i := brChan b
  let x := s.bridge b
  if (s.chan i).prof.hb.stallEn && x.driving && !x.stall && s.senses b then
    let t := if (s.chan i).prof.hb.stallReport then s else bridgeStop b (some 13) s
    raiseCh evt_hbStall i [] (t.modBridge b (fun x => { x with stall := true }))
  else s

def execStallDetect (br : Fin 8) (s : State) : Result := .next (stallDetect br.val s)

/-- How an interval is judged (R138): ripples to count, whether it is rejected, and ripples inserted. -/
def judge (intervals : List Nat) (interval fMin : Nat) : Nat × Bool × Nat :=
  if 1000000 ≤ interval * fMin then (1, false, 0)
  else if intervals.isEmpty then (1, false, 0)
  else
    let n := intervals.length
    let sum := intervals.foldl (· + ·) 0
    if 2 * interval * n < sum then (0, true, 0)
    else if 3 * sum < 2 * interval * n then
      let k := min 3 ((2 * interval * n + sum) / (2 * sum))
      (k, false, k - 1)
    else (1, false, 0)

/-- The target condition during a drive, run-on aside: met, or moved away from while a reversal runs in the old direction
(R141). -/
def targetStops (x : Bridge) (code : Nat) (target : U32) : Bool :=
  targetMet x code target || (x.forward != decide (code = 1))

/-- A ripple that counts, is rejected or is supplemented (R137 to R141). `interval` is in µs; one that counts as two or three ripples enters
the history once, as its part for one ripple (DEDUCED, log entry 49). At a target, or moving away from it, the bridge stands in its stop
state until a command of another content takes effect. -/
def ripple (b interval : Nat) (s : State) : State :=
  let i := brChan b
  let p := (s.chan i).prof.hb
  let x := s.bridge b
  if !p.rippleEn || !x.moving || !s.senses b then s
  else
    let j := judge x.intervals interval p.fRipMin
    let stopped := decide (1000000 ≤ interval * p.fRipMin)
    let fwd := if stopped && x.driving then decide (x.drive = 1) else x.forward
    let delta : U32 := BitVec.ofNat 32 j.1
    let hist := if j.2.1 then x.intervals
      else if stopped then [] else keepNewest p.rippleRev (interval / max 1 j.1 :: x.intervals)
    let t := s.modBridge b (fun x =>
      { x with pos := if fwd then x.pos + delta else x.pos - delta, forward := fwd, intervals := hist,
               rejected := x.rejected + bit j.2.1, inserted := x.inserted + j.2.2,
               lastRipple := if j.2.1 then x.lastRipple else some s.now })
    let t := if 8 < (t.bridge b).inserted + (t.bridge b).rejected then losePos b t else t
    let c := t.chan i
    match c.targetOf c.src with
    | some (code, tgt) =>
      if !c.out.isOff && (t.bridge b).posValid && targetStops (t.bridge b) code tgt then
        let u := (bridgeStop b none t).modBridge b (fun x => { x with atTarget := true })
        raiseCh evt_hbTarget i (le32 (u.bridge b).pos) u
      else t
    | none => t

def execRippleCount (br : Fin 8) (interval : Nat) (s : State) : Result := .next (ripple br.val interval s)

def execRunonEnd (br : Fin 8) (s : State) : Result :=
  .next (s.modBridge br.val (fun x => { x with runon := false, lastRipple := none }))

/-- Motion that the die cannot count, with the bridge stopped and run-on ended (R140). -/
def uncounted (b : Nat) (s : State) : State :=
  let x := s.bridge b
  if x.driving || x.runon || x.reversing || !s.senses b then s else losePos b s

def execUncountedMotion (br : Fin 8) (s : State) : Result := .next (uncounted br.val s)

/-! ### Valves -/

/-- Set point in mA that the merged command asks for. -/
def Chan.setPoint (c : Chan) : Nat :=
  match c.out with
  | .regulate ma => ma
  | .on => 3000
  | _ => 0

/-! ### Dither (R143) -/

/-- Ticks of a dither period. -/
def VlvBlock.period (b : VlvBlock) : Nat := Config.ticksPerSecond / b.dithF

/-- The wave at `x` ticks into its period, in mA: a square or a triangle that starts at 0 and rises. The spec names shape and peak and not
where phase 0 lies (DESIGN CHOICE, log entry 50). -/
def VlvBlock.dither (b : VlvBlock) (x : Nat) : Int :=
  let p : Int := b.period
  let x : Int := x
  if b.square then (if 2 * x < p then b.dithAmp else -(b.dithAmp : Int))
  else if 4 * x < p then 4 * x * b.dithAmp / p
  else if 4 * x < 3 * p then (2 * p - 4 * x) * b.dithAmp / p
  else (4 * x - 4 * p) * b.dithAmp / p

/-- The set point `ma` with its dither, clipped to 0 mA to 3,000 mA. -/
def VlvBlock.waved (b : VlvBlock) (ma x : Nat) : Nat := min 3000 ((ma : Int) + b.dither x).toNat

/-- Mean of the set point over one dither period: what the clip takes away counts (R135). -/
def VlvBlock.mean (b : VlvBlock) (ma : Nat) : Nat :=
  let a := b.dithAmp
  let low := a - ma
  let high := ma + a - 3000
  if a = 0 then ma
  else if b.square then (min 3000 (ma + a) + (ma - a)) / 2
  else ma + low * low / (4 * a) - high * high / (4 * a)

/-- A dither period has begun since the last regulation period. -/
def Valve.dithStart (v : Valve) (b : VlvBlock) (now : Nat) : Bool :=
  v.dithAct && decide ((now - v.dithFrom) / b.period ≠ (v.regAt - v.dithFrom) / b.period)

/-- One PWM period of the regulator (R142): the set point takes effect with its dither, and the duty and the integrator are FREE values,
since the spec names the inputs of the PI loop and not its gains; in compliance the integrator is frozen (R135). The coil resistance is
estimated every 10 ms while unsaturated. A new dither setting takes effect at its period (R143). -/
def valvePeriod (k : Nat) (m : ValveMeasure) (s : State) : State :=
  let i := vlvChan k
  let c := s.chan i
  if c.out.isOff then s
  else
    let v := s.valve k
    let old := c.prof.vlv
    let start := v.dithStart old s.now
    let blk := if start then v.newDither.getD old else old
    let dithFrom := if start && v.newDither.isSome then s.now - (s.now - v.dithFrom) % old.period else v.dithFrom
    let duty := min 10000 (Config.free32 s.free).toNat
    let est := decide (duty < 10000) && decide (v.estAt + 10 * Config.ticksPerMs ≤ s.now)
    let t := s.draw.draw.modChan i (fun c => { c with prof := { c.prof with vlv := blk }, grd := c.grd.limit s.now m.ceil })
    t.modValve k (fun v =>
      { v with target := c.setPoint, duty := duty, sat := decide (duty = 10000), ceil := m.ceil
               integ := if v.compliance then v.integ else (Config.free32 (s.free + 1)).toInt
               rEst := if blk.rNom ≠ 0 then blk.rNom else if est then m.rEst else v.rEst, estAt := if est then s.now else v.estAt
               err := (blk.mean c.setPoint : Int) - (m.ma : Int), wave := blk.waved c.setPoint ((s.now - dithFrom) % blk.period)
               dithAct := decide (0 < blk.dithAmp), dithFrom := dithFrom, regAt := s.now
               newDither := if start then none else v.newDither })

def execValveRegulationPeriod (vlv : Fin 16) (m : ValveMeasure) (s : State) : Result := .next (valvePeriod vlv.val m s)

/-- Compliance sets while saturated with an error above 5 % of the mean set point (R135); a saturated valve below I_OL reads open load
instead (R136). -/
def complianceSet (k gotMa : Nat) (s : State) : State :=
  let i := vlvChan k
  let c := s.chan i
  let v := s.valve k
  let set := c.prof.vlv.mean c.setPoint
  if c.out.isOff || v.compliance || !v.sat || !decide (100 * gotMa + 5 * set < 100 * set)
      || decide (gotMa < c.prof.openLoad .valve * 10) then s
  else
    let t := s.modValve k (fun v => { v with compliance := true, compCount := satInc 0xFFFF v.compCount, compOff := c.prof.vlv.compOff })
    let t := raiseCh evt_vlvCompliance i (n16 c.setPoint ++ n16 gotMa) t
    if c.prof.vlv.compOff then (chanOff i c.src t).modChan i (fun c => { c with cause := 12 }) else t

def execComplianceSet (vlv : Fin 16) (gotMa : Nat) (s : State) : Result := .next (complianceSet vlv.val gotMa s)

def complianceClear (k : Nat) (s : State) : State :=
  if (s.valve k).compliance && !(s.valve k).compOff then
    raiseCh evt_vlvComplianceEnd (vlvChan k) [] (s.modValve k (fun v => { v with compliance := false }))
  else s

def execComplianceClear (vlv : Fin 16) (s : State) : Result := .next (complianceClear vlv.val s)

/-! ### Supplies and junctions -/

def execGroupSupplyLoss (g : Fin 8) (reversed : Bool) (s : State) : Result := .next (supplyLoss g.val reversed s)

/-- What a die's own power-up clears for a channel: ledger, every lock and latch, free-wheel flags (R42, R110, R111). -/
def Chan.powerUp (c : Chan) (now : Nat) : Chan := { c with grd := { Guard.reset with ledgerAt := now }, hold := .none, out := .off }

/-- A group supply returns (R42, R94, R140): a die that powered up starts anew and waits for its first frame; otherwise its
channels resume as if turning on from off, keep-alive channels in Bivouac too. -/
def supplyReturn (g : Nat) (powerUp : Bool) (s : State) : State :=
  let s := s.modDie g (fun d => { d with supply := .present, groundLost := false })
  if powerUp then
    let cs := (groupChans g).foldl (fun cs i => cs.modChan i (fun c => c.powerUp s.now)) s.ch
    let cs := cs.modDie g (fun d =>
      { d with seenFrame := false, inHold := false, silenceUs := 0, holdTrips := 0, keeping := false, ownHolder := false,
               gateDelay := false })
    let t := losePos g { s with ch := cs }
    t.modBridge g (fun _ => .reset)
  else if s.dieHears g then { s with ch := applyDie s s.ch g }
  else if (s.die g).keeping then
    { s with ch := dieOffsets.foldl (fun cs o => match (s.chan (14 * g + o)).keep with
        | some k => cs.keepOn s (14 * g + o) k.out
        | none => cs) s.ch }
  else s

def execGroupSupplyReturn (g : Fin 8) (powerUp : Bool) (s : State) : Result := .next (supplyReturn g.val powerUp s)

/-- Module ground is lost: switches and valves turn off, bridges coast (R94, R128). -/
def groundLoss (s : State) : State :=
  allDies.foldl (fun s g =>
    let cs := (groupChans g).foldl (fun cs i => offIn s cs i (cs.chans.getD .reset i).src) s.ch
    let cs := cs.modBridge g (fun b => b.take (.drive 4 0 0) (s.chan (brChan g)).prof.hb.rippleEn s.now)
    { s with ch := cs.modDie g (fun d => { d with groundLost := true }) }) s

def execModuleGroundLoss (s : State) : Result := .next (groundLoss s)

/-- The junction is below 145 °C: the cooling condition of an over-temperature trip is met (R103). -/
def junctionCooled (i : Nat) (tj : Int) (s : State) : State :=
  if tj < tjRearm then tryRetry i (s.modChan (bridgeIdx i) (fun c => { c with grd := { c.grd with junctionOk := true } })) else s

def execJunctionCooled (ch : Fin 112) (tj : Int) (s : State) : Result := .next (junctionCooled ch.val tj s)

def execJunctionHotWarning (ch : Fin 112) (s : State) : Result := .next (raiseCh evt_chHot (bridgeIdx ch.val) [] s)

end Sys2Proof.Machine
end

