-- ==== Sys2Proof/Machine/Sys.lean ====
section
/-! DEFINITION. The SYS commands that change or report the mode (R32, R33, R57 to R60, R450). -/

namespace Sys2Proof.Machine

/-- A fresh nonce, signed under the workshop key in slot 124 (R32, R60). -/
def State.signedOk (s : State) (nonce : Nat) (sigOk : Bool) : Bool := s.nonceFresh nonce && sigOk && s.slotServes 124 8

/-! ### Workshop -/

/-- Workshop is entered (R28, R32, R461): a HOLDER releases, the limp table stays under a self-arrest alone (R30, R213), and the application cluster that Limp stopped boots anew. -/
def workshopEnter (s : State) : State :=
  let s := twinRelease (setMode .workshop 5 s)
  let s := { s with rfx := { s.rfx with limpApplied := s.rfx.limpApplied && s.rfx.arrested } }
  pushAll (if s.sys.appStopped then
    { s with sys := { s.sys with appStopped := false, appReleased := false, ddrTrained := false } }
  else s)

/-- `SYS.ENTER_WORKSHOP` (R32): a request uses its nonce up. -/
def enterWorkshopBody (nonce : Nat) (sigOk : Bool) (s : State) : State × Reply :=
  let t := useNonce nonce s
  if s.signedOk nonce sigOk then (workshopEnter t, .ok [])
  else (raise evt_workshopDenied noInst .wide [] t, .fail stat_authFail)

def Mode.isRunLimp : Mode → Bool
  | .run | .limp => true
  | _ => false

def execSysEnterWorkshop (r : Req) (nonce : Nat) (sigOk : Bool) (s : State) : Result :=
  .next (runCmd r (keyCmd 0x0120 (decide (r.len = 128)) .system none s.sys.mode.isRunLimp) (fun _ s => enterWorkshopBody nonce sigOk s) s)

def execSysLeaveWorkshop (r : Req) (s : State) : Result :=
  .next (runLater r (keyCmd 0x0121 (decide (r.len = 0)) .system none (decide (s.sys.mode = .workshop)))
    (fun _ s => (answerRestart r 0x0121 6 s, none)) s)

/-! ### Restart and Basecamp -/

def Mode.restartable : Mode → Bool
  | .limp | .workshop | .basecamp => true
  | _ => false

/-- `SYS.RESTART` (R60). -/
def restartBody (r : Req) (nonce : Nat) (sigOk : Bool) (s : State) : State × Option Reply :=
  let t := useNonce nonce s
  if s.signedOk nonce sigOk then (answerRestart r 0x0123 7 t, none) else (t, some (.fail stat_authFail))

def execSysRestart (r : Req) (nonce : Nat) (sigOk : Bool) (s : State) : Result :=
  .next (runLater r (keyCmd 0x0123 (decide (r.len = 128)) .system none s.sys.mode.restartable)
    (fun _ s => restartBody r nonce sigOk s) s)

def execSysEnterBasecamp (r : Req) (s : State) : Result :=
  .next (runLater r (keyCmd 0x0124 (decide (r.len = 0)) .system none (decide (s.sys.mode = .workshop)))
    (fun _ s => (basecampEnter stat_ok (leaveRsp r 0x0124 s), none)) s)

/-! ### Reports -/

/-- One bit for each healthy pair. -/
def State.pairMask (s : State) : Nat := maskOf 4 (fun p => (s.saf.pairs.getD .reset p).healthy)

/-- The sixteen bytes of `SYS.GET_MODE` (Table 2.12). -/
def modeBytes (s : State) : List Byte :=
  [byteOf s.sys.mode.code, byteOf s.pairMask] ++ zeros 2 ++ le32 s.sys.wake.word ++ [byteOf (bit s.cfg.inUseB)] ++ zeros 3 ++ le32 s.cfg.seq

/-- `SYS.GET_MODE`: in Basecamp the status is the entry status (R83), and a fresh nonce follows (R450). -/
def getModeBody (s : State) : State × Reply :=
  if s.sys.mode ≠ .basecamp then (s, .ok (modeBytes s))
  else if s.key.trngFail then (s, .fail stat_keyTrng)
  else
    let t := issueNonce s
    (t.1, { status := s.sys.basecampStatus, data := modeBytes s ++ nonceBytes t.2 })

def execSysGetMode (r : Req) (s : State) : Result :=
  .next (runCmd r (keyCmd 0x0125 (decide (r.len = 0)) .any none s.sys.mode.isAwake) (fun _ s => getModeBody s) s)

/-- `SYS.CHALLENGE` (R32). -/
def challengeBody (s : State) : State × Reply :=
  if s.key.trngFail then (s, .fail stat_keyTrng)
  else
    let t := issueNonce s
    (t.1, .ok (nonceBytes t.2))

def execSysChallenge (r : Req) (s : State) : Result :=
  .next (runCmd r (keyCmd 0x0126 (decide (r.len = 0)) .system none s.sys.mode.isRunLimpWork) (fun _ s => challengeBody s) s)

end Sys2Proof.Machine
end

