-- ==== Sys2Proof/Machine/TwinRows.lean ====
section
/-! DEFINITION. The rope team (chapter 16): the belay line (R456 to R458), the gate delay (R459), grace (R461), mirror and health
frames (R464 to R467), the standby self-test (R468) and the TWIN commands (R480). -/

namespace Sys2Proof.Machine

def State.twinSec (s : State) : TwinSection := s.cfg.image.twin

/-- The rope team serves: `EN`, from Start-up step 8 on, outside Basecamp and before Bivouac entry step 4. -/
def State.twinOn (s : State) : Bool := s.twinSec.en && s.mgrUp && s.sys.mode.isServing && decide (8 ≤ s.sys.step)

def State.modTwin (s : State) (f : TwinState → TwinState) : State := { s with twin := f s.twin }

def raiseTwin (k : EvKind) (inst : Nat) (data : List Byte) (s : State) : State := raise k inst .wide data s

/-! ### The belay line -/

/-- The code of the next belay frame (Table 16.3): the ROM sends RELEASE throughout Basecamp. -/
def State.belayCode (s : State) : Option BelayCode :=
  if s.basecamp && s.mgrUp then some .release
  else if !s.twinOn then none
  else if s.twin.testing then some .test
  else some s.twin.role.belay

/-- One belay frame (R456). -/
def belaySend (s : State) : State :=
  match s.belayCode with
  | some c => s.modTwin (fun t => { t with line := some c, framesSent := satInc 0xFFFF t.framesSent })
  | none => s

def execBelayFrameSend (s : State) : Result := .next (belaySend s)

/-- The encoder stops and holds `BELAY_TX` low (R457). -/
def execBelayEncoderTimeout (s : State) : Result := .next (s.modTwin (fun t => { t with line := none }))

/-- The partner's state changes: gates, reflex predicates and roles follow (R458, R459, Table 16.5). -/
def partnerIs (p : Option BelayCode) (s : State) : State :=
  twinCheck (evalRules (reGate (s.modTwin (fun t => { t with partner := p }))))

/-- The state that a code shows: TEST reads as STANDBY (R458). -/
def BelayCode.shown : BelayCode → BelayCode
  | .test => .standby
  | c => c

/-- The decoder's record of a valid frame: a belay fault ends after 1 s of them (R464). -/
def TwinState.decoded (t : TwinState) (c : BelayCode) (now : Nat) : TwinState :=
  let from_ := t.validFrom.getD now
  { t with framesDecoded := satInc 0xFFFF t.framesDecoded, validFrom := some from_
           sawHolder := t.sawHolder || decide (c = .holder), holderAt := if c = .holder then now else t.holderAt
           belayFault := t.belayFault && decide (now < from_ + Config.ticksPerSecond) }

/-- A valid frame (R458); in Bivouac the line's transitions wake the module (R35). -/
def belayDecoded (c : BelayCode) (s : State) : State :=
  let s := partnerIs (some c.shown) (s.modTwin (fun t => t.decoded c s.now))
  if s.sys.bivouac ≠ .none && s.twinSec.en then wakeUp (fun w => { w with belay := true }) s else s

def execBelayFrameDecoded (code : BelayCode) (s : State) : Result := .next (belayDecoded code s)

/-- The partner is lost (R458). -/
def partnerLost (s : State) : State :=
  let was := s.twin.partner.isSome
  let s := s.modTwin (fun t => { t with validFrom := none, partner := none })
  partnerIs none (if was && s.twinOn then raiseTwin evt_twinPartnerLost noInst [] s else s)

def execBelayPartnerLost (s : State) : Result := .next (partnerLost s)

/-- The 250 µs after the own-holder bit rose are over at one die (R459). -/
def execTwinGateDelay (die : Fin 8) (s : State) : Result :=
  .next (reGate (s.modDie die.val (fun d => { d with gateDelay := false })))

/-- t_GRACE after Run entry (Table 16.5). -/
def twinGrace (s : State) : State :=
  if s.twinOn && decide (s.sys.mode = .run) && !s.twinSec.primary && decide (s.twin.role = .standby) && s.twin.partner.isNone
      && !s.twin.sawHolder then setRole .holder s
  else s

def execTwinGraceExpiry (s : State) : Result := .next (twinGrace s)

/-! ### Eligibility (R463, R467, R468) -/

/-- Every twin-fed channel is excluded. -/
def State.allExcluded (s : State) : Bool :=
  (List.range s.twinSec.list.length).all (fun k => s.twin.excluded.getLsbD k)

/-- `ELIGIBLE` is set once the tests have passed and 16 good mirrors have come, and nothing stands against it. -/
def tryReady (s : State) : State :=
  let t := s.twin
  if s.twinOn && !t.eligible && decide (t.testsEver = 0xF) && decide (16 ≤ t.mirrorGood) && !t.lbistFailed && decide (t.loopOwed = 0)
      && !s.allExcluded && !t.idMismatch then
    twinCheck (raiseTwin evt_twinReady noInst [] (s.modTwin (fun t => { t with eligible := true })))
  else s

/-- A failure of test `n` at twin list entry `k` (Table 16.8). -/
def testFailed (n k : Nat) (s : State) : State :=
  let perChannel := decide (n ≤ 1)
  let s := s.modTwin (fun t =>
    { t with testsPassed := t.testsPassed &&& ~~~ (BitVec.ofNat 4 (2 ^ n))
             excluded := if perChannel then t.excluded ||| BitVec.ofNat 32 (2 ^ k) else t.excluded
             lbistFailed := t.lbistFailed || decide (n = 2), loopOwed := if n = 3 then 10 else t.loopOwed
             eligible := t.eligible && perChannel })
  let s := if s.allExcluded then s.modTwin (fun t => { t with eligible := false }) else s
  let ch := if perChannel then (s.twinSec.list.getD k (noInst, 0)).1 else noInst
  raiseTwin evt_twinSelftestFail (if perChannel then k else noInst) ([byteOf n] ++ n16 ch) s

/-- A pass of test `n`; the belay loop must pass for 1 s after a failure. -/
def testPassed (n : Nat) (s : State) : State :=
  tryReady (s.modTwin (fun t =>
    { t with testsPassed := t.testsPassed ||| BitVec.ofNat 4 (2 ^ n), testsEver := t.testsEver ||| BitVec.ofNat 4 (2 ^ n)
             loopOwed := if n = 3 then t.loopOwed - 1 else t.loopOwed }))

/-- A self-test period of a STANDBY ends (R468): 0 off-state, 1 gate drive, 2 LBIST, 3 belay loop. -/
def selfTest (n : Nat) (pass : Bool) (k : Nat) (s : State) : State :=
  if !s.twinOn || s.twin.role ≠ .standby || (decide (n ≤ 1) && decide (s.twinSec.list.length ≤ k)) then s
  else if pass then testPassed n s
  else testFailed n k s

def execStandbySelftest (test : Fin 4) (pass : Bool) (entry : Fin 32) (s : State) : Result := .next (selfTest test.val pass entry.val s)

/-! ### Mirror frames (R464 to R466) -/

/-- Entries of a mirror payload (Table 16.7). -/
def mirrorEntries : Nat → List Byte → List MirrorEntry
  | 0, _ => []
  | n + 1, b0 :: b1 :: b2 :: b3 :: b4 :: b5 :: b6 :: _ :: r =>
    { ch := b0.toNat, mode := b1.toNat, duty := b2.toNat + 256 * b3.toNat, phase := b4.toNat, source := b5.toNat, flags := b6 }
      :: mirrorEntries n r
  | _ + 1, _ => []

/-- Each entry replaces the one of the same channel. -/
def putMirror (l : List MirrorEntry) (e : MirrorEntry) : List MirrorEntry := e :: l.filter (fun (x : MirrorEntry) => x.ch != e.ch)

/-- The arrest link (R465): the first frame with `ARREST_REQ` from the partner. -/
def arrestLink (req : Bool) (s : State) : State :=
  let first := req && !s.twin.arrestReq
  let serial := (s.twin.partnerHealth.map (fun h => (h.payload.drop 0x10).take 2)).getD (zeros 2)
  let s := s.modTwin (fun t => { t with arrestReq := req })
  if first && s.twinSec.arrestAccept && !s.twin.idMismatch then selfArrest 9 serial s else s

/-- A belay fault (R464): a module that took the role after a loss sees the partner hold it. -/
def belayFaultCheck (holder : Bool) (origin : U32) (s : State) : State :=
  if s.twin.role = .holder && s.twin.byLoss && holder && decide ((origin - s.twin.takeoverCycle).toNat < 2147483648) then
    raiseTwin evt_twinBelayFault noInst [] ((setRole .standby s).modTwin (fun t => { t with belayFault := true }))
  else s

/-- A good `MIRROR` frame of the partner. -/
def mirrorFrame (origin wordA : U32) (payload : List Byte) (s : State) : State :=
  let n := bits wordA 16 8
  let next := decide (origin = s.twin.mirrorOrigin + 1) && decide (0 < s.twin.mirrorGood)
  let s := s.modTwin (fun t =>
    { t with mirror := (mirrorEntries n payload).foldl putMirror t.mirror, mirrorAge := 0, mirrorOrigin := origin
             mirrorGood := if next then t.mirrorGood + 1 else 1 })
  let s := belayFaultCheck (decide (wordA.extractLsb' 0 8 = BelayCode.holder.code)) origin s
  tryReady (arrestLink (wordA.getLsbD 8) s)

/-- Output flags of a mirror entry. -/
def State.mirrorFlags (s : State) (i : Nat) : Nat :=
  let c := s.chan i
  bit c.faulted + 2 * bit c.grd.latched + 4 * bit (s.twinFed i && !s.gateOpen (i / 14)) + 8 * bit (s.arrestedCh i)

/-- The entry of an own channel: its intent, whether or not a higher rank overrides it (R466). -/
def State.mirrorEntry (s : State) (i : Nat) : List Byte :=
  let x := (s.chan i).intent i
  let m := match x.1 with
    | .on => (1, 10000, 0)
    | .pwm d p => (2, d, p)
    | _ => (0, 0, 0)
  [byteOf i, byteOf m.1] ++ n16 m.2.1 ++ [byteOf m.2.2, byteOf (if x.2 = 1 ∨ x.2 = 2 then x.2 else 0), byteOf (s.mirrorFlags i), 0]

/-- `ARREST_REQ` as this module sends it (R465). -/
def State.arrestAsk (s : State) : Bool := s.twinSec.arrestLink && s.rfx.arrested

/-- Word A and payload of the own `MIRROR` frame: N is 0 unless this module holds. -/
def State.mirrorOut (s : State) : U32 × List Byte :=
  let l := if s.twin.role = .holder then s.twinSec.list else []
  (wordOf [(l.length % 256, 16), (bit s.rfx.arrested, 9), (bit s.arrestAsk, 8), (s.twin.role.belay.code.toNat, 0)],
    l.flatMap (fun e => s.mirrorEntry e.1))

/-! ### Health frames (R467) -/

/-- The 48 bytes of Table 16.9. -/
def healthBytes (vin vbk12 : Int) (s : State) : List Byte :=
  [byteOf s.sys.mode.code, byteOf s.pairMask, byteOf s.log.mode.code, byteOf s.twin.testsPassed.toNat] ++ n16 s.twin.framesSent
    ++ n16 s.twin.framesDecoded ++ le32 s.twinSec.twinId ++ le32 s.sys.bootCount ++ le64 s.key.serial ++ le32 s.twin.excluded ++ i16 vin
    ++ i16 vbk12 ++ [byteOf (maskOf 8 (fun g => (s.die g).acked)), byteOf s.brg.phase.code, byteOf s.log.stones.cells.length, 0]
    ++ n32 s.twin.takeovers ++ le64 s.tb.count

/-- The report of 100 ms is built, and its frame goes first in the dynamic traffic of the station (R238). -/
def healthReport (vin vbk12 : Int) (s : State) : State :=
  if !s.twinOn then s
  else
    let wordA := wordOf [(s.twin.healthSeq.toNat, 16), (bit s.arrestAsk, 9), (bit s.twin.eligible, 8), (s.twin.role.belay.code.toNat, 0)]
    let payload := healthBytes vin vbk12 s
    let h : Health := { wordA := wordA, origin := s.ring.cycle, payload := payload }
    let f := s.frame 0 8 0x8000 0xFFFF wordA 0 false payload
    let s := s.modTwin (fun t => { t with ownHealth := some h, healthSeq := t.healthSeq + 1, framesSent := 0, framesDecoded := 0 })
    if s.ring.joined then s.modRing (fun r => { r with dynOut := r.dynOut ++ [(257, f)] }) else s

def execHealthReport (vin vbk12 : Int) (s : State) : Result := .next (healthReport vin vbk12 s)

/-- The partner's `TWIN_ID` (R467): a mismatch is reported once per start, and while it lasts the module is not eligible. -/
def checkId (id : U32) (s : State) : State :=
  let bad := decide (id ≠ s.twinSec.twinId)
  let raised := s.twin.mismatchRaised
  let s := s.modTwin (fun t => { t with idMismatch := bad, mismatchRaised := t.mismatchRaised || bad, eligible := t.eligible && !bad })
  if bad && !raised then raiseTwin evt_twinConfigMismatch noInst [] s else s

/-- A belay test that has ended is answered with the partner's count (R480). -/
def answerBelayTest (decoded : List Byte) (s : State) : State :=
  match s.twin.testReq with
  | some (port, tag, seq, n) =>
    if s.twin.testing then s
    else complete port seq tag 0x1103 stat_ok (n16 n ++ decoded) (s.modTwin (fun t => { t with testReq := none }))
  | none => s

/-- A `HEALTH` frame of the partner. -/
def healthFrame (origin wordA : U32) (payload : List Byte) (s : State) : State :=
  let p := (payload ++ zeros 48).take 48
  let s := s.modTwin (fun t => { t with partnerHealth := some { wordA := wordA, origin := origin, payload := p } })
  let s := checkId (memRead32 (memWrite [] 0 (p.drop 8 |>.take 4)) 0) s
  tryReady (arrestLink (wordA.getLsbD 9) (answerBelayTest (p.drop 6 |>.take 2) s))

/-! ### Commands (Table 16.18) -/

def twinCmd (code : U16) (len : Nat) (need : Need) (payload : Option U16) (s : State) (r : Req) : Cmd :=
  keyCmd code (decide (r.len = len)) need payload s.sys.mode.isServing

/-- A command of a module that is in no rope team is refused (R479). -/
def needTwin (s : State) (y : State × Reply) : State × Reply := if s.twinSec.en then y else (s, .fail stat_twinOff)

def twinStatusBytes (s : State) : List Byte :=
  let t := s.twin
  [t.role.belay.code, (t.partner.map BelayCode.code).getD 0,
    byteOf (bit t.eligible + 2 * bit s.twinSec.primary + 4 * bit t.belayFault + 8 * bit t.idMismatch + 16 * bit t.arrestReq), byteOf t.mirrorAge]
    ++ le32 t.excluded ++ n32 t.takeovers ++ le32 t.gapNs ++ n64 t.takeoverAt

def execTwinStatus (r : Req) (s : State) : Result :=
  .next (runCmd r (twinCmd 0x1101 0 .any none s r) (fun _ s => needTwin s (s, .ok (twinStatusBytes s))) s)

def Health.bytes (h : Health) : List Byte := le32 h.wordA ++ le32 h.origin ++ h.payload

def twinHealthBody (which : Byte) (s : State) : State × Reply :=
  match (if which = 0 then s.twin.ownHealth else s.twin.partnerHealth) with
  | some h => (s, .ok h.bytes)
  | none => (s, .fail stat_badState)

def execTwinHealth (r : Req) (which : Byte) (s : State) : Result :=
  .next (runCmd r (twinCmd 0x1102 4 .any (needStat (decide (which.toNat ≤ 1)) stat_range) s r)
    (fun _ s => needTwin s (twinHealthBody which s)) s)

/-- `TWIN.BELAY_TEST`: TEST frames until the test ends. -/
def belayTestBody (r : Req) (n : Nat) (s : State) : State × Reply :=
  if s.twin.role = .holder then (s, .fail stat_twinRole)
  else if s.twin.testReq.isSome then (s, .fail stat_busy)
  else (s.modTwin (fun t => { t with testing := true, testReq := some (r.port, r.tag, r.seq, n) }), { status := stat_pending, data := [] })

def execTwinBelayTest (r : Req) (frames : U16) (s : State) : Result :=
  .next (runCmd r (keyCmd 0x1103 (decide (r.len = 4)) .system (needStat (within 10 1000 frames.toNat) stat_range) (decide (s.sys.mode = .workshop)))
    (fun _ s => needTwin s (belayTestBody r frames.toNat s)) s)

/-- The TEST frames are sent; the result follows the partner's next `HEALTH`. -/
def execBelayTestDone (s : State) : Result := .next (s.modTwin (fun t => { t with testing := false }))

end Sys2Proof.Machine
end

