-- ==== Sys2Proof/Machine/Window.lean ====
section
/-! DEFINITION. Registers: the global status page (R86), the data-path window of a VZF as a map of offsets (R87, Table 3.15) with
its reads and writes, the message RAM of the CAN and LIN channels (R300 to R303, R327, R328), the stacking CSRs (R398), and the
rows `WINDOW_UNMAPPED_ACCESS` and `REGISTER_WRITE`. -/

namespace Sys2Proof.Machine

/-! ### The global status page (R86, Tables 3.10 to 3.14) -/

/-- `MGR_MODE` (Table 3.12): Off never shows as the current mode (R27), and the reset value is that of Start-up. -/
def State.modeWord (s : State) : U32 :=
  wordOf [(max 1 s.sys.mode.code, 28), (s.sys.prevMode.code, 24), (s.pairMask, 16), (bit s.rfx.arrested, 15), (bit s.sys.waiver, 14),
    (bit s.ring.joined, 13), (bit s.sys.proven, 12), (bit s.cfg.inUseB, 11)]

def State.clkWord (s : State) : U32 :=
  wordOf [(bit s.sys.rootLock, 31), (bit s.sys.onRef, 30), (bit s.sys.aonXtal, 29), (bit s.sys.monTrip, 28)]

/-- A word of the page; an offset not listed reads 0. -/
def State.pageWord (s : State) (offset : Nat) : U32 :=
  if offset = 0x000 then 0x5A39A100
  else if offset = 0x004 then s.modeWord
  else if offset = 0x008 then s.clkWord
  else if offset = 0x00C then s.log.stonesWord
  else if offset = 0x010 then s.sys.bootCount
  else if offset = 0x014 then s.sys.heartbeat
  else if offset = 0x018 then s.cfg.seq
  else 0

/-! ### Which offsets of VZF `v`'s window are mapped (Table 3.15) -/

def portMapped (v o : Nat) (s : State) : Bool := (s.vzf v).exists_ && decide (o % 0x40 ≤ 0x24)

/-- The slot of HBgB's index is unmapped (R145). -/
def cmdMapped (v o : Nat) (s : State) : Bool :=
  let i := (o - 0x1000) / 0x20
  decide (i < 112) && decide (i % 14 ≠ 11) && decide (s.chOwner i = some v)

def statMapped (v o : Nat) (s : State) : Bool :=
  let i := (o - 0x2000) / 0x40
  decide (i < 112) && decide (s.chOwner i = some v)

/-- A slot with no PDU of the VZF is unmapped (R358). -/
def sigMapped (v o : Nat) (s : State) : Bool :=
  if o < 0x8000 then !(s.slotPdus v ((o - 0x4000) / 16) 10).isEmpty else !(s.slotPdus v ((o - 0x8000) / 8) 9).isEmpty

/-- The VZF owns one of the channels `lo` to `lo + n − 1`. -/
def ownsSome (own : Nat → Option Nat) (v lo n : Nat) : Bool := (List.range n).any (fun j => decide (own (lo + j) = some v))

/-- A field I/O register is mapped if the VZF owns a channel that it covers (R195). -/
def fioMapped (v o : Nat) (s : State) : Bool :=
  if o < 0xA010 then ownsSome s.diOwner v (4 * (o - 0xA000)) 16
  else if o < 0xA018 then ownsSome s.diOwner v (8 * (o - 0xA010)) 32
  else if o < 0xA020 then ownsSome s.diOwner v 0 64
  else if o < 0xA100 then false
  else if o < 0xA280 then decide (s.aiOwner ((o - 0xA100) / 8) = some v)
  else if o < 0xA300 then false
  else if o < 0xA310 then decide (s.supOwner ((o - 0xA300) / 4) = some v)
  else if o < 0xA400 then false
  else if o < 0xA408 then ownsSome s.xOwner v (4 * (o - 0xA400)) 16
  else (decide (o ≤ 0xA418) || (decide (0xA500 ≤ o) && decide (o ≤ 0xA510))) && s.ownsX v

/-- The queue blocks of CAN, LIN and switch (R288, R312, Table 11.11); a ring-attached VZF has none. -/
def queueMapped (v o : Nat) (s : State) : Bool :=
  if o < 0xC800 then s.canBlock v ((o - 0xC000) / 0x80) && decide (o % 0x80 ≤ 0x24)
  else if o < 0xCC00 then s.linBlock v ((o - 0xC800) / 0x40) && decide (o % 0x40 ≤ 0x0C)
  else if o < 0xD000 then false
  else decide (o < 0xD100) && s.pairBlock v

/-- Event vectors up to N_VEC, binds 0 to 41, pending bits (R411). -/
def evMapped (v o : Nat) (s : State) : Bool :=
  let z := s.vzf v
  z.exists_ && (if o < 0xE400 then decide ((o - 0xE000) / 16 < z.tpl.nVec) else if o < 0xE800 then decide (o < 0xE4A8)
    else decide (o < 0xE808))

/-- A 32-bit register lies at the offset; an offset that is no multiple of 4 is unmapped. -/
def State.winMapped (s : State) (v o : Nat) : Bool :=
  decide (o % 4 = 0) &&
    (if o < 0x100 then decide (o ≤ 4)
     else if o < 0x200 then portMapped v o s
     else if o < 0x1000 then false
     else if o < 0x2000 then cmdMapped v o s
     else if o < 0x4000 then statMapped v o s
     else if o < 0xA000 then sigMapped v o s
     else if o < 0xC000 then fioMapped v o s
     else if o < 0xE000 then queueMapped v o s
     else if o < 0xF000 then evMapped v o s
     else false)

/-! ### Reads -/

/-- What a read returns stands in `bus`. -/
def State.put (s : State) (w : U32) : State := { s with bus := BitVec.setWidth 64 w }

/-- `VZF_WIN_ID` and `VZF_WIN_STATE` (Tables 3.16, 3.17). -/
def headerWord (v o : Nat) (s : State) : U32 :=
  let h := s.mbx.wins.getD .reset v
  let life := (s.vzf v).life
  let sync := s.mbx.ports.cells.any (fun c => decide (c.2.vzf = some v) && c.2.awaits)
  if o = 0 then wordOf [((s.vz.gens.getD 0 v).toNat, 16), (v % 256, 0)]
  else wordOf [(bit (decide (life = .active)), 31), (bit (decide (life ≠ .active) && decide (life ≠ .free)), 30), (bit sync, 29),
    (bit h.fault, 28), (min 0xFFFF h.faultCount, 0)]

/-- `VZF_MBX_CFG` and `VZF_MBX_STATUS` (Tables 3.20, 3.21). -/
def Port.cfgWord (p : Port) (n : Nat) : U32 :=
  wordOf [(n % 512, 16), (1, 15), (p.depthLog2 % 16, 8), (min p.window p.depth % 128, 0)]
def Port.statusWord (p : Port) : U32 :=
  wordOf [(bit p.awaits, 31), (bit p.prodErr, 30), (bit p.consErr, 29), (bit p.evtLost, 28), (min 0xFFFF p.evtLostCount, 0)]
def Port.clear (p : Port) (w : U32) : Port :=
  { p with prodErr := p.prodErr && !w.getLsbD 30, consErr := p.consErr && !w.getLsbD 29, evtLost := p.evtLost && !w.getLsbD 28 }

/-- A register of a port block (Table 3.18); without a port it reads its reset value. -/
def portWord (v o : Nat) (s : State) : U32 :=
  let r := o % 0x40
  match s.localPort v ((o - 0x100) / 0x40) with
  | none => if r = 0x18 then 0x00000510 else if r = 0x1C then 0x80000000 else 0
  | some n =>
    let p := (s.port? n).getD .service
    let ix := fun (x : U16) => BitVec.setWidth 32 x
    if r = 0x00 then ix p.reqProd else if r = 0x04 then ix p.reqCons else if r = 0x08 then ix p.rspProd
    else if r = 0x0C then ix p.rspCons else if r = 0x10 then ix p.evtProd else if r = 0x14 then ix p.evtCons
    else if r = 0x18 then p.cfgWord n else if r = 0x1C then p.statusWord
    else if r = 0x20 then p.base.extractLsb' 0 32 else p.base.extractLsb' 32 32

/-- The fields of a command register that are not shown as "—" (R9; Tables 4.12, 5.9, 5.10). -/
def cmdFields (i : Nat) : U32 :=
  match chClass i with
  | .half => 0xFFFF3FFF
  | .valve => 0x8F000FFF
  | _ => 0xFCFF3FFF

/-- A command slot (Tables 4.10, 4.11; R145). -/
def cmdSlotWord (o : Nat) (s : State) : U32 :=
  let i := (o - 0x1000) / 0x20
  let c := s.chan i
  if o % 0x20 = 0 then wordOf [(c.tagGen.toNat, 16), (c.tagSeq.toNat, 0)]
  else if o % 0x20 = 4 then c.cmdWord &&& cmdFields i
  else if o % 0x20 = 8 && decide (chClass i = .half) then c.targetReg
  else 0

/-- A register of a status word (Tables 4.13, 5.11): `LSW_CH_PEAK` clears, `LSW_CH_STAMP_LO` latches. -/
def statRead (v o : Nat) (s : State) : State :=
  let i := (o - 0x2000) / 0x40
  let r := o % 0x40
  if r = 0x0C then readPeak v i s
  else if r = 0x20 then readStampLo v i s
  else if r = 0x24 then s.put (s.chan i).stampHi
  else s.put (recWord (s.statusBytes i) r)

/-- Read and write slots of signals (R358); before the first read of `SIG_RD_LO` the others read live. -/
def sigRead (v o : Nat) (s : State) : State :=
  if o < 0x8000 then
    let k := (o - 0x4000) / 16
    if o % 16 = 0 then slotRead v k s
    else
      let x := (s.sig.rdLatch.get? (slotKey v k)).getD (match s.slotPdus v k 10 with
        | q :: _ => ((s.slotValue q).extractLsb' 32 32, s.slotState q)
        | [] => (0, 0, 0))
      s.put (if o % 16 = 4 then x.1 else if o % 16 = 8 then x.2.1 else x.2.2)
  else
    let x := s.sig.wrSlots.getD (0, 0) (slotKey v ((o - 0x8000) / 8))
    s.put (if o % 8 = 0 then x.1 else x.2)

/-- One bit for each isolated channel of the VZF. -/
def xBits (v : Nat) (s : State) (f : XChan → Bool) : U32 :=
  BitVec.ofNat 32 (maskOf 32 (fun k => decide (s.xOwner k = some v) && f (s.xch k)))

/-- A register of the field I/O region without a side effect (Tables 7.11 to 7.16). -/
def fioWord (v o : Nat) (s : State) : U32 :=
  let t := s.xSlot v
  let ownX := fun k => decide (s.xOwner k = some v)
  if o < 0xA010 then pack2 (4 * (o - 0xA000)) (fun n => decide (s.diOwner n = some v)) s.diCode
  else if o < 0xA018 then
    let lo := 8 * (o - 0xA010)
    BitVec.ofNat 32 (maskOf 32 (fun j => decide (s.diOwner (lo + j) = some v) && (s.diInput (lo + j)).chg))
  else if o < 0xA020 then s.fio.diStampHi.getD 0 v
  else if o < 0xA280 then
    let x := s.aiInput ((o - 0xA100) / 8)
    if o % 8 = 0 then x.codeWord else x.valWord
  else if o < 0xA310 then (s.sup ((o - 0xA300) / 4)).word
  else if o < 0xA408 then pack2 (4 * (o - 0xA400)) ownX (fun k => (s.xch k).state)
  else if o = 0xA408 then xBits v s (·.ovl)
  else if o = 0xA40C then xBits v s (·.open_)
  else if o = 0xA410 then xBits v s (·.ot)
  else if o = 0xA414 then xBits v s (·.rbErr)
  else if o = 0xA500 then wordOf [(t.tagGen.toNat, 16), (t.tagSeq.toNat, 0)]
  else if o = 0xA504 then t.mask &&& s.ownXBits v
  else if o = 0xA508 then t.val &&& s.ownXBits v
  else if o = 0xA50C then s.xOutWord ownX
  else wordOf [(t.ackGen.toNat, 16), (t.ackSeq.toNat, 0)]

def fioRead (v o : Nat) (s : State) : State :=
  if o = 0xA018 then readDiStamp v s else if o = 0xA418 then readXBank v s else s.put (fioWord v o s)

/-- Ownership bits of TX entries; those of the exchange and the manager read 0 (R298, Table 11.8). -/
def canOwnBits (c lo : Nat) (s : State) : U32 :=
  BitVec.ofNat 32 (maskOf 32 (fun j => s.canSoftEntry c (lo + j) && ((s.canCh c).txE (lo + j)).own))

/-- A CAN channel block (Table 11.8); the doorbell and the cancel register read 0. -/
def canRead (v o : Nat) (s : State) : State :=
  let c := (o - 0xC000) / 0x80
  let r := o % 0x80
  let x := s.canCh c
  if r = 0x20 then canLostRead v c s
  else s.put
    (if r = 0x08 then canOwnBits c 0 s else if r = 0x0C then canOwnBits c 32 s else if r = 0x10 then canOwnBits c 64 s
     else if r = 0x14 then BitVec.ofNat 32 x.rxFill else if r = 0x18 then s.canStateWord c else if r = 0x1C then x.flags.word
     else if r = 0x24 then BitVec.ofNat 32 (x.busOffs % 65536) else 0)

/-- A LIN channel block (Table 11.11). -/
def linRead (v o : Nat) (s : State) : State :=
  let l := (o - 0xC800) / 0x40
  let r := o % 0x40
  let x := s.linCh l
  if r = 0x0C then linLostRead v l s
  else s.put (if r = 0x00 then x.stateWord else if r = 0x04 then x.flags.word else BitVec.ofNat 32 x.rxFill)

/-- A queue pair block (Table 10.5); an absent pair reads 0. -/
def pairWordAt (v o : Nat) (s : State) : U32 :=
  let q := (o - 0xD000) / 0x40
  let r := o % 0x40
  let x := s.qp v q
  let ix := fun (x : U16) => BitVec.setWidth 32 x
  if !s.hasPair v q then 0
  else if r = 0x00 then ix x.txProd else if r = 0x04 then ix x.txCons else if r = 0x08 then ix x.rxProd
  else if r = 0x0C then ix x.rxCons else if r = 0x10 then x.cfgWord else if r = 0x14 then x.statusWord
  else if r = 0x18 then x.base.extractLsb' 0 32 else if r = 0x1C then x.base.extractLsb' 32 32 else 0

def queueRead (v o : Nat) (s : State) : State :=
  if o < 0xC800 then canRead v o s else if o < 0xCC00 then linRead v o s else s.put (pairWordAt v o s)

/-- The event vector region (Tables 14.14, 14.15). -/
def EvVector.ctlWord (x : EvVector) : U32 := wordOf [(bit x.en, 31), (bit x.mask, 30), (bit x.pend, 29), (x.holdoff.toNat, 0)]

def evWord (z : Vzf) (o : Nat) : U32 :=
  if o < 0xE400 then
    let x := z.vectors.getD .reset ((o - 0xE000) / 16)
    if o % 16 = 0 then x.addrLo else if o % 16 = 4 then x.addrHi else if o % 16 = 8 then BitVec.setWidth 32 x.data else x.ctlWord
  else if o < 0xE800 then
    let b := z.binds.getD .reset ((o - 0xE400) / 4)
    wordOf [(bit b.en, 31), (b.vec % 64, 0)]
  else BitVec.ofNat 32 (maskOf 32 (fun j => (z.vectors.getD .reset (8 * (o - 0xE800) + j)).pend))

/-- A read at a window offset (R87). Through the ring the port blocks read 0. -/
def winRead (v o : Nat) (remote : Bool) (s : State) : State :=
  if !s.winMapped v o then windowFault v s
  else if o < 0x100 then s.put (headerWord v o s)
  else if o < 0x200 then s.put (if remote then 0 else portWord v o s)
  else if o < 0x2000 then s.put (cmdSlotWord o s)
  else if o < 0x4000 then statRead v o s
  else if o < 0xA000 then sigRead v o s
  else if o < 0xC000 then fioRead v o s
  else if o < 0xE000 then queueRead v o s
  else s.put (evWord (s.vzf v) o)

/-! ### Writes (R10, Table 0.7) -/

/-- `WIN_FAULT` is W1C (Table 3.17). -/
def headerWrite (v o : Nat) (w : U32) (s : State) : State :=
  if o = 4 && w.getLsbD 28 then
    { s with mbx := { s.mbx with wins := s.mbx.wins.modify .reset v (fun h => { h with fault := false }) } }
  else s

/-- A port block: the host's consumer indices and the W1C bits. Through the ring it ignores writes. The producer index is the row
`VZF_MBX_REQ_PROD`, which carries the messages. -/
def portWrite (v o : Nat) (w : U32) (s : State) : State :=
  let k := (o - 0x100) / 0x40
  let r := o % 0x40
  if r = 0x0C then consumerWrite v k false (w.extractLsb' 0 16) s
  else if r = 0x14 then consumerWrite v k true (w.extractLsb' 0 16) s
  else if r = 0x1C then
    match s.localPort v k with
    | some n => s.modPort n (fun p => p.clear w)
    | none => s
  else s

/-- A command slot: the tag, the doorbell, `HBR_TARGET`. -/
def cmdWrite (v o : Nat) (w : U32) (s : State) : State :=
  let i := (o - 0x1000) / 0x20
  if o % 0x20 = 0 then s.modChan i (fun c => { c with tagGen := w.extractLsb' 16 16, tagSeq := w.extractLsb' 0 16 })
  else if o % 0x20 = 4 then doorbell v i w s
  else if o % 0x20 = 8 && decide (chClass i = .half) then s.modChan i (fun c => { c with targetReg := w })
  else s

/-- A status word: `LSW_CH_FLAGS` is W1C. -/
def statWrite (o : Nat) (w : U32) (s : State) : State :=
  if o % 0x40 = 4 then s.modChan (bridgeIdx ((o - 0x2000) / 0x40)) (fun c => { c with flags := c.flags.clear w }) else s

/-- Write slots (R358); while the VZF quiesces they are ignored (R356). -/
def sigWrite (v o : Nat) (w : U32) (s : State) : State :=
  if o < 0x8000 then s
  else
    let k := (o - 0x8000) / 8
    if o % 8 = 0 then slotWriteLo v k w s
    else if s.vzfActive v then setSlot v k (s.sig.wrSlots.getD (0, 0) (slotKey v k)).1 w s
    else s

/-- Field I/O: W1C change flags of owned inputs, the bank's W1C bits, the command registers. -/
def fioWrite (v o : Nat) (w : U32) (s : State) : State :=
  if o = 0xA010 ∨ o = 0xA014 then
    (List.range 32).foldl (fun s j =>
      let n := 8 * (o - 0xA010) + j
      if w.getLsbD j && decide (s.diOwner n = some v) then s.modDi n (fun d => { d with chg := false }) else s) s
  else if o = 0xA418 then
    (s.modBank (fun b => { b with timedOut := b.timedOut && !w.getLsbD 28 })).modSlot v
      (fun t => { t with stale := t.stale && !w.getLsbD 27, bad := t.bad && !w.getLsbD 26 })
  else if o = 0xA500 then s.modSlot v (fun t => { t with tagGen := w.extractLsb' 16 16, tagSeq := w.extractLsb' 0 16 })
  else if o = 0xA504 then xMaskWrite v w s
  else if o = 0xA508 then xDoorbell v w s
  else s

/-- The queue blocks: doorbells and W1C flags. The transmit producer is the row `ESW_TXQ_PROD_WRITE`, which carries the
descriptors. -/
def queueWrite (v o : Nat) (w : U32) (s : State) : State :=
  if o < 0xC800 then
    let c := (o - 0xC000) / 0x80
    if o % 0x80 = 0x00 then canBell v c s
    else if o % 0x80 = 0x04 then canCancelWrite v c w s
    else if o % 0x80 = 0x1C then s.modCan c (fun x => { x with flags := x.flags.clear w })
    else s
  else if o < 0xCC00 then
    if o % 0x40 = 0x04 then s.modLin ((o - 0xC800) / 0x40) (fun x => { x with flags := x.flags.clear w }) else s
  else
    let q := (o - 0xD000) / 0x40
    if o % 0x40 = 0x0C then rxConsWrite v q (w.extractLsb' 0 16) s
    else if o % 0x40 = 0x14 && s.hasPair v q then s.modQp v q (fun x => x.clear w)
    else s

/-- A vector register. An unmasked or enabled vector that is pending is delivered once nothing blocks it (R412); a hold-off of 0
is past. -/
def Vzf.writeVec (z : Vzf) (k r : Nat) (w : U32) : Vzf :=
  let x := z.vectors.getD .reset k
  let y : EvVector :=
    if r = 0 then { x with addrLo := w } else if r = 4 then { x with addrHi := w }
    else if r = 8 then { x with data := w.extractLsb' 0 8 }
    else { x with en := w.getLsbD 31, mask := w.getLsbD 30, pend := x.pend && !w.getLsbD 29, holdoff := w.extractLsb' 0 16,
                  waiting := x.waiting && decide (w.extractLsb' 0 16 ≠ 0) }
  Vzf.deliverVec { z with vectors := z.vectors.set k y } k

def Vzf.writeEv (z : Vzf) (o : Nat) (w : U32) : Vzf :=
  if o < 0xE400 then z.writeVec ((o - 0xE000) / 16) (o % 16) w
  else if o < 0xE800 then { z with binds := z.binds.set ((o - 0xE400) / 4) { en := w.getLsbD 31, vec := bits w 0 6 } }
  else z

/-- A write at a window offset (R87). -/
def winWrite (v o : Nat) (w : U32) (remote : Bool) (s : State) : State :=
  if !s.winMapped v o then windowFault v s
  else if o < 0x100 then headerWrite v o w s
  else if o < 0x200 then (if remote then s else portWrite v o w s)
  else if o < 0x2000 then cmdWrite v o w s
  else if o < 0x4000 then statWrite o w s
  else if o < 0xA000 then sigWrite v o w s
  else if o < 0xC000 then fioWrite v o w s
  else if o < 0xE000 then queueWrite v o w s
  else { s with vz := s.vz.modify v (fun z => z.writeEv o w) }

/-- An access to an unmapped slot (R87). An offset that is mapped is no such access and changes nothing here. -/
def execWindowUnmappedAccess (v : Fin 256) (offset : U16) (s : State) : Result :=
  .next (if s.winMapped v.val offset.toNat then s else windowFault v.val s)

/-! ### Message RAM -/

/-- Replace the 32-bit word at byte offset `o` of a record of `n` bytes. -/
def putWord (n : Nat) (b : List Byte) (o : Nat) (w : U32) : List Byte :=
  let b := (b ++ zeros n).take n
  b.take o ++ le32 w ++ b.drop (o + 4)

/-- A word of a software-owned entry beyond its control word (Table 11.5). -/
def CanEntry.putField (y : CanEntry) (k : Nat) (w : U32) : CanEntry :=
  if k = 1 then { y with id := w &&& 0x1FFFFFFF }
  else if k = 2 then { y with xl := w &&& 0xFFFF0100 }
  else if k = 3 then { y with af := w }
  else if k = 4 then { y with gen := w.extractLsb' 0 16, xlbuf := w.extractLsb' 16 8, attempts := w.extractLsb' 24 8 }
  else if k = 5 then { y with tag := w }
  else if k = 6 then { y with time := y.time.extractLsb' 32 32 ++ w }
  else if k = 7 then { y with time := w ++ y.time.extractLsb' 0 32 }
  else { y with data := putWord 64 y.data (4 * (k - 8)) w }

def canOwnErr (c : Nat) (s : State) : State := s.modCan c (fun x => { x with flags := { x.flags with ownErr := true } })

/-- A software write of an entry (R302, R303); an entry that the exchange or the manager holds refuses it (R298). -/
def canEntryWrite (c : Nat) (rx : Bool) (e k : Nat) (w : U32) (s : State) : State :=
  let x := s.canCh c
  let y := if rx then x.rxE e else x.txE e
  if k = 0 then canCtlWrite c rx e w s
  else if !rx && (decide (95 < e) || !s.canSoftEntry c e) then s
  else if y.own then canOwnErr c s
  else
    let z := y.putField k w
    s.modCan c (fun x => if rx then { x with rx := x.rx.set e z } else { x with tx := x.tx.set e z })

/-- Who owns XL buffer `b` (R302): a TX buffer is hardware's while a hardware-owned TX entry names it, an RX buffer unless a
software-owned RX entry does. -/
def CanChan.xlOwned (x : CanChan) (b : Nat) : Bool :=
  if b < 32 then x.tx.cells.any (fun c => c.2.own && decide (c.2.xlbuf.toNat = b))
  else !x.rx.cells.any (fun c => !c.2.own && decide (c.2.xlbuf.toNat = b))

def canXlWrite (c b k : Nat) (w : U32) (s : State) : State :=
  let x := s.canCh c
  if x.xlOwned b then canOwnErr c s
  else s.modCan c (fun x => { x with xlb := x.xlb.set b (putWord 2048 (x.xlb.getD [] b) (4 * k) w) })

/-- A word of a LIN frame table entry (R327): the status word is hardware's, and entries 60 to 63 discard writes. -/
def LinFrame.putField (f : LinFrame) (k : Nat) (w : U32) : LinFrame :=
  if k = 0 then { f with ctl := w &&& 0xF8F00000 }
  else if k = 2 ∨ k = 3 then { f with half0 := putWord 8 f.half0 (4 * (k - 2)) w }
  else if k = 4 ∨ k = 5 then { f with half1 := putWord 8 f.half1 (4 * (k - 4)) w }
  else f

def linFrameWrite (l id k : Nat) (w : U32) (s : State) : State :=
  if 60 ≤ id then s else s.modLin l (fun x => { x with frames := x.frames.modify .zero id (fun f => f.putField k w) })

/-- A word of a LIN RX entry (R328). -/
def LinRx.putField (e : LinRx) (k : Nat) (w : U32) : LinRx :=
  if k = 0 then { e with word := w } else if k = 1 then { e with time := w } else { e with data := putWord 8 e.data (4 * (k - 2)) w }

def linRxWrite (l e k : Nat) (w : U32) (s : State) : State :=
  let y := (s.linCh l).rx.getD .reset e
  if y.word.getLsbD 31 then s.modLin l (fun x => { x with flags := { x.flags with ownErr := true } })
  else s.modLin l (fun x => { x with rx := x.rx.set e (y.putField k w) })

/-! ### Stacking CSRs and TCM -/

/-- The CSRs of Table 14.7; `SAF_CKPT_GO` acts as its own row does. -/
def Xstk.write (x : Xstk) (csr : Nat) (w : U32) : Xstk :=
  if csr = 0x7C0 then { x with en := w.getLsbD 31, fpLazy := w.getLsbD 0 }
  else if csr = 0x7C1 then { x with msp := w }
  else if csr = 0x7C2 then { x with esp := w }
  else if csr = 0x7C3 then { x with efb := x.efb && !w.getLsbD 31 }
  else if csr = 0x7C4 then { x with partId := bits w 0 2 }
  else if csr = 0x7C5 then { x with partStop := x.partStop &&& ~~~ (w.extractLsb' 0 4) }
  else x

def csrWrite (p csr : Nat) (w : U32) (s : State) : State :=
  if csr = 0x7C6 then ckptGo p w s else s.modPair p (fun x => { x with xstk := x.xstk.write csr w })

def tcmBase : Nat := 0x10000000

def tcmWrite (p k : Nat) (w : U32) (s : State) : State := s.modPair p (fun x => { x with tcm := memWrite32 x.tcm (tcmBase + 4 * k) w })

/-- `REGISTER_WRITE` (R10, R11). -/
def registerWrite (t : RegTarget) (w : U32) (s : State) : State :=
  match t with
  | .window v o => winWrite v.val o.toNat w false s
  | .statusPage _ => s
  | .canEntry c rx e k => canEntryWrite c.val rx e.val k.val w s
  | .canXl c b k => canXlWrite c.val b.val k.val w s
  | .linFrame l id k => linFrameWrite l.val id.val k.val w s
  | .linRx l e k => linRxWrite l.val e.val k.val w s
  | .safCsr p csr => csrWrite p.val csr.toNat w s
  | .tcm p k => tcmWrite p.val k.val w s

def execRegisterWrite (target : RegTarget) (value : U32) (s : State) : Result := .next (registerWrite target value s)

end Sys2Proof.Machine
end

