-- ==== Sys2Proof/Machine/RingFrames.lean ====
section
/-! DEFINITION. Ring frames in the static and dynamic segments: what a station copies, forwards, relays and inserts (R225 to R227,
R235, R237 to R239, R247, R248), `VZF_DATA` records (R233, R413), and the start of a local cycle. -/

namespace Sys2Proof.Machine

/-! ### Access records (R233) -/

/-- Head of a record. -/
def recHead (op len low : Nat) : List Byte := le32 (wordOf [(op % 4, 30), (len % 16384, 16), (low % 65536, 0)])

/-- The records of a payload: operation, length, offset or vector, data. Only a read request has no data. -/
def accessRecords : Nat → List Byte → List (Nat × Nat × Nat × List Byte)
  | 0, _ => []
  | n + 1, b =>
    if b.length < 4 then []
    else
      let w := recWord b 0
      let op := bits w 30 2
      let len := bits w 16 14
      let data := if op = 1 then [] else (b.drop 4).take (4 * len)
      if 119 < len ∨ data.length < (if op = 1 then 0 else 4 * len) then []
      else (op, len, bits w 0 16, data) :: accessRecords n (b.drop (4 + data.length))

/-- Words written at consecutive offsets of VZF `v`'s window. -/
def writeRecord (v o len : Nat) (data : List Byte) (s : State) : State :=
  (List.range len).foldl (fun s j => winWrite v (o + 4 * j) (recWord data (4 * j)) true s) s

/-- The answer to a read request: the words as the window reads them now. -/
def readRecord (v o len : Nat) (s : State) : State × List Byte :=
  (List.range len).foldl (fun y j =>
    let s := winRead v (o + 4 * j) true y.1
    (s, y.2 ++ le32 (BitVec.setWidth 32 s.bus))) (s, recHead 2 len o)

/-- A record of a generation that is not current sets `STALE_CMD` where it names a command register (R121, R196, R233). -/
def staleRecord (v o : Nat) (s : State) : State :=
  if !s.winMapped v o then s
  else if 0x1000 ≤ o ∧ o < 0x2000 then discardStale ((o - 0x1000) / 0x20) s
  else if 0xA500 ≤ o ∧ o ≤ 0xA510 then s.modSlot v (fun t => { t with stale := true })
  else s

def accessRecord (v : Nat) (host gen : U16) (x : Nat × Nat × Nat × List Byte) (s : State) : State :=
  let o := x.2.2.1
  if 2 ≤ x.1 then s
  else if (s.vzf v).gen ≠ gen then staleRecord v o s
  else if x.1 = 0 then writeRecord v o x.2.1 x.2.2.2 s
  else
    let t := readRecord v o x.2.1 s
    t.1.modRing (fun r => { r with dataOut := r.dataOut.modify [] v (fun l => l ++ [(host, t.2)]), dataHost := r.dataHost.set v host })

/-- A `VZF_DATA` frame for this station: word A names the VZF and the generation (Table 9.5). -/
def vzfData (f : RingFrame) (s : State) : State :=
  let v := bits f.hdr.wordA 0 8
  if !(s.vzf v).exists_ then s
  else (accessRecords f.payload.length f.payload).foldl (fun s x => accessRecord v f.hdr.src (f.hdr.wordA.extractLsb' 16 16) x s) s

/-- A pending vector of a ring-attached VZF that nothing blocks leaves as a record (R413). -/
def Vzf.leaves (z : Vzf) (k : Nat) : Bool :=
  let x := z.vectors.getD .reset k
  z.tpl.attach && x.pend && x.en && !x.mask && !x.waiting && decide (0 < z.tokens)

def Vzf.leave (z : Vzf) (k : Nat) : Vzf × List Byte :=
  let x := z.vectors.getD .reset k
  ({ z with tokens := z.tokens - 1
            vectors := z.vectors.set k { x with pend := false, raises := 0, delivered := x.delivered + 1,
                                                waiting := decide (x.holdoff ≠ 0) } },
   recHead 3 1 k ++ n32 x.raises)

/-- Whole records that fit in `room` bytes. -/
def fitRecords : Nat → List (List Byte) → List (List Byte)
  | _, [] => []
  | room, r :: l => if r.length ≤ room then r :: fitRecords (room - r.length) l else []

/-- Event records of the VZF, as many as `n`. -/
def eventRecords (z : Vzf) (n : Nat) : Vzf × List (List Byte) :=
  (List.range z.tpl.nVec).foldl (fun y k =>
    if decide (y.2.length < n) && y.1.leaves k then let t := y.1.leave k
                                                    (t.1, y.2 ++ [t.2]) else y) (z, [])

/-- Where event vectors of a VZF go: to the node that asked last; before any request, to station 0's local ID 0. -/
def State.dataDst (s : State) (v : Nat) : U16 := s.ring.dataHost.getD 0 v

/-- The node that the VZF's next frame goes to: the one whose answer has waited longest (R233). -/
def State.nextDst (s : State) (v : Nat) : U16 :=
  match s.ring.dataOut.getD [] v with
  | x :: _ => x.1
  | [] => s.dataDst v

/-- The records of the VZF's next frame, at most `room` bytes: the answers for its node, and event vectors where they go to it. -/
def takeRecords (v room : Nat) (s : State) : State × List (List Byte) :=
  let l := s.ring.dataOut.getD [] v
  let mine := l.filter (fun x => decide (x.1 = s.nextDst v))
  let a := fitRecords room (mine.map (·.2))
  let used := (a.map List.length).foldl (· + ·) 0
  let e := eventRecords (s.vzf v) (if s.nextDst v = s.dataDst v then (room - used) / 8 else 0)
  let left := (mine.take a.length).foldl (fun (l : List (U16 × List Byte)) x => l.erase x) l
  let s := if (s.vzf v).exists_ then { s with vz := { s.vz with vzfs := s.vz.vzfs.set v e.1 } } else s
  (s.modRing (fun r => { r with dataOut := r.dataOut.set v left }), a ++ e.2)

/-- Word A of a `VZF_DATA` frame. -/
def State.dataWord (s : State) (v : Nat) : U32 := wordOf [((s.vzf v).gen.toNat, 16), (v % 256, 0)]

/-! ### What a station takes from a frame -/

/-- The sender's station. -/
def srcStation (f : RingFrame) : Nat := (f.hdr.src.extractLsb' 9 5).toNat

/-- A unicast frame for this station: scope node, or every local ID of the station (Table 9.3). -/
def State.isDest (s : State) (f : RingFrame) : Bool :=
  decide (f.hdr.dst.extractLsb' 14 2 = 0 ∨ f.hdr.dst.extractLsb' 14 2 = 1) && decide ((f.hdr.dst.extractLsb' 9 5).toNat = s.station)

/-- A `HEALTH` frame of the partner, once. -/
def takeHealth (f : RingFrame) (s : State) : State :=
  let seen := s.twin.partnerHealth.any (fun h => decide (h.origin = f.hdr.origin) && decide (h.wordA = f.hdr.wordA))
  if s.twinOn && decide (srcStation f = s.twinSec.partner) && !seen then healthFrame f.hdr.origin f.hdr.wordA f.payload s else s

/-- `RING_RX` PDUs of a slot. -/
def slotPdusRx (k : Nat) (f : RingFrame) (s : State) : State :=
  (s.pdusWith (fun p => decide (p.kind = 5) && decide (p.half 12 = k))).foldl (fun s q => sigArrive q f.payload f.hdr.origin s) s

/-- The content of a good static frame, by its type. Mailbox fragments come with their own row, and no unit takes a `STREAM`. -/
def takeStatic (k : Nat) (f : RingFrame) (s : State) : State :=
  match f.hdr.typ.val with
  | 3 => slotPdusRx k f s
  | 4 => if s.isDest f then vzfData f s else s
  | 7 => if s.twinOn && decide (srcStation f = s.twinSec.partner) then mirrorFrame f.hdr.origin f.hdr.wordA f.payload s else s
  | 8 => takeHealth f s
  | _ => s

/-- The receive set names the slot (R225, R247): the first valid copy of a slot and origin cycle counts (R227), and a frame with
`NOT_READY` is not good. -/
def copyStatic (f : RingFrame) (s : State) : State :=
  let k := f.hdr.slot.toNat
  let e := s.ringSec.slots.getD .none k
  let x := s.ring.slots.getD .reset k
  if !s.ring.joined || !e.rx || decide (e.ftype ≠ f.hdr.typ.val) || (!x.never && !later f.hdr.origin x.origin) then s
  else if hdrFlag f.hdr 7 then s.modRing (fun r => { r with slots := r.slots.set k { x with notReady := true } })
  else
    let y : SlotRx := { x with notReady := false, relayed := hdrFlag f.hdr 6, never := false, origin := f.hdr.origin, fresh := true
                               stale := false, wordA := f.hdr.wordA, payload := f.payload }
    takeStatic k f (s.modRing (fun r => { r with slots := r.slots.set k y }))

/-- Own and relayed frames end at the master, which buffers every other for the next cycle; a sender removes its own frame once it
is relayed (R226). -/
def passStatic (p : Nat) (f : RingFrame) (s : State) : State :=
  let own := decide (srcStation f = s.station)
  let relayed := hdrFlag f.hdr 6
  if s.waveEnds p then
    if own || relayed then s else s.modRing (fun r => { r with slotBuf := r.slotBuf.set f.hdr.slot.toNat f })
  else if own && relayed then s
  else forward p f s

def staticFrame (p : Nat) (f : RingFrame) (s : State) : State :=
  if ringBad f 2 then discard p f s
  else if !(s.ring.port p).closed then s
  else passStatic p f (if s.basecamp then s else copyStatic f s)

def execStaticFrameReceived (port : Fin 2) (link : LinkCheck) (f : RingFrame) (s : State) : Result :=
  .next (if s.ring.phase ≠ .active then s
    else let t := linkRx port.val link s
      if t.2 then staticFrame port.val f t.1 else t.1)

/-! ### Own static frames (R225, R226, R248) -/

/-- Insert the station's own frame in slot `k`, from local ID `l`; until the configuration is proven it is not ready, but for the ROM's
(R248, R261). -/
def insertOwn (k l typ : Nat) (dst : U16) (wordA wordB : U32) (notReady : Bool) (payload : List Byte) (s : State) : State :=
  let nr := notReady || !(s.sys.proven || s.basecamp)
  transmitOut (s.frame l (Fin.ofNat 16 typ) dst (BitVec.ofNat 16 k) wordA wordB nr (if nr then [] else payload)) s

/-- A fragment that is a whole message (R66). -/
def isSingle (f : List Byte) : Bool := decide (f[0x1A]? = some 0) && decide (f[0x1B]? = some 0x80)

/-- What the next `MBX` frame of a port takes: one fragment of a longer message, or single-fragment messages back to back, as many as
fit in 480 bytes (R66). -/
def mbxTake (q : List (List Byte)) : List (List Byte) :=
  match q with
  | [] => []
  | f :: _ => if isSingle f then fitRecords 480 (q.takeWhile isSingle) else [f]

/-- The ports, in order of number, that have fragments to send. -/
def State.mbxWaiting (s : State) : List Nat := (s.mbx.ports.cells.filter (fun c => !c.2.outq.isEmpty)).map (·.1)

/-- The `MBX` frame of port `n`: from its VZF's node, towards station 0, where its host is (DEDUCED, log entry 129). -/
def State.mbxFrame (s : State) (n : Nat) (slot : U16) (l : List (List Byte)) : RingFrame :=
  s.frame (((s.port? n).bind (·.vzf)).getD 0) 5 0x0000 slot (BitVec.ofNat 32 n) 0 false l.flatten

/-- What a port has sent leaves its queue. -/
def mbxSent (n : Nat) (l : List (List Byte)) (s : State) : State :=
  { s with mbx := s.mbx.modify n (fun p => { p with outq := p.outq.drop l.length }) }

/-- An owned `MBX` slot takes the next frame of port 0 (slot 4, R235) or of a ring port; with nothing to send it is not ready. -/
def mbxSlot (k : Nat) (s : State) : State :=
  match s.mbxWaiting.find? (fun n => decide (k = 4) == decide (n = 0)) with
  | some n =>
    let l := mbxTake (((s.port? n).map (·.outq)).getD [])
    if s.sys.proven || s.basecamp then transmitOut (s.mbxFrame n (BitVec.ofNat 16 k) l) (mbxSent n l s)
    else insertOwn k 0 5 0x0000 0 0 true [] s
  | none => insertOwn k 0 5 0x0000 0 0 true [] s

/-- The content of an owned slot, by its type. -/
def ownSlot (k : Nat) (e : SlotEntry) (s : State) : State :=
  let arg := BitVec.ofNat 32 e.arg
  match e.ftype with
  | 5 => mbxSlot k s
  | 3 =>
    let o := s.ring.own.getD .reset k
    insertOwn k 0 3 0x8000 arg 0 o.notReady o.payload s
  | 4 =>
    let v := e.arg % 256
    if s.sys.proven && (s.vzf v).exists_ then
      let t := takeRecords v 480 s
      insertOwn k v 4 (s.nextDst v) (t.1.dataWord v) (BitVec.ofNat 32 t.2.length) false t.2.flatten t.1
    else insertOwn k v 4 (s.nextDst v) (s.dataWord v) 0 true [] s
  | 6 =>
    if s.sys.proven then
      let t := takeBlocks e.arg 476 s
      match t.2 with
      | [] => insertOwn k 0 6 0x8000 arg 0 true [] t.1
      | b :: _ => insertOwn k 0 6 0x8000 arg b.seq false (streamPayload t.2) t.1
    else insertOwn k 0 6 0x8000 arg 0 true [] s
  | 7 =>
    let s := if s.twinOn then twinFault s else s
    let m := s.mirrorOut
    insertOwn k 0 7 0x8000 m.1 0 (!s.twinOn) m.2 s
  | 8 =>
    match s.twin.ownHealth with
    | some h => insertOwn k 0 8 0x8000 h.wordA 0 false h.payload s
    | none => insertOwn k 0 8 0x8000 0 0 true [] s
  | _ => s

/-- Slot `k`'s window passes: an owned slot takes the station's frame, and the master sends the buffered frame with `RELAYED`. -/
def slotSend (k : Nat) (s : State) : State :=
  let e := s.ringSec.slots.getD .none k
  if e.ftype ≠ 0 ∧ s.slotOwner k = s.station then ownSlot k e s
  else if s.ring.master then
    match s.ring.slotBuf.get? k with
    | some f =>
      let g := passed f false
      transmitOut { g with hdr := { g.hdr with flags := setFlag g.hdr.flags 6 } }
        (s.modRing (fun r => { r with slotBuf := r.slotBuf.erase k }))
    | none => s
  else s

/-- Slot `k` is due. In Basecamp the ROM keeps no schedule: it sends in slot 4 at its turn, once it has heard a `SYNC_REF` (R261). -/
def execSlotDue (k : Fin 384) (s : State) : Result :=
  .next (if s.ring.joined && s.canJoin && decide (k.val < s.ringSec.nS) then slotSend k.val (slotAge k.val s)
    else if s.basecamp && s.ring.phase = .active && s.ring.heard && decide (k.val = 4) && decide (s.slotOwner 4 = s.station) then mbxSlot 4 s
    else s)

/-! ### The dynamic segment (R237 to R239) -/

/-- Minislots that a frame occupies (Table 9.1). -/
def minislots (f : RingFrame) : Nat := (ringLen f + 70 + 79) / 80

/-- Credits that the station holds in this cycle. -/
def State.credits (s : State) : Nat := s.ringSec.credits.getD s.station 0 - s.ring.spent

/-- A dynamic frame leaves, and spends its minislots. -/
def appendFrame (f : RingFrame) (s : State) : State :=
  transmitOut f (s.modRing (fun r => { r with spent := r.spent + minislots f }))

/-- An own frame takes the cycle and the flags of its sending. -/
def State.sendable (s : State) (f : RingFrame) : RingFrame :=
  sealFrame { f with hdr := { f.hdr with origin := s.ring.cycle, flags := s.ownFlags false } }

/-- The mailbox traffic of the ports, first in number first, while the credits allow (R238). -/
def appendMbx : Nat → State → State
  | 0, s => s
  | n + 1, s =>
    match s.mbxWaiting with
    | [] => s
    | p :: _ =>
      let l := mbxTake (((s.port? p).map (·.outq)).getD [])
      let f := s.mbxFrame p 0xFFFF l
      if minislots f ≤ s.credits then appendMbx n (appendFrame f (mbxSent p l s)) else s

/-- The station's own `HEALTH` traffic, in order, while the credits allow (R238). -/
def appendSystem : List RingFrame → State → State
  | [], s => s
  | f :: r, s =>
    if minislots f ≤ s.credits then
      appendSystem r (appendFrame (s.sendable f) (s.modRing (fun g => { g with dynOut := g.dynOut.erase (257, f) })))
    else s

/-- The master sends relayed frames while its own credits allow (R239). -/
def appendRelayed : List RelayItem → State → State
  | [], s => s
  | x :: r, s =>
    if minislots x.frame ≤ s.credits then
      let g := passed x.frame false
      appendRelayed r (appendFrame { g with hdr := { g.hdr with flags := setFlag g.hdr.flags 6 } }
        (s.modRing (fun q => { q with relayQ := q.relayQ.erase x })))
    else s

/-- The oldest frame of each VZF that the credits allow; 256 is the system's. -/
def State.dynHeads (s : State) : List (Nat × RingFrame) :=
  (s.ring.dynOut.foldl (fun a (x : Nat × RingFrame) =>
    if x.1 = 257 || a.any (fun h => decide (h.1 = x.1)) then a else a ++ [x]) []).filter (fun x => decide (minislots x.2 ≤ s.credits))

/-- Quantum in minislots: the VZF's ring weight; the system's is 16. -/
def State.ringQuantum (s : State) (o : Nat) : Nat := if o = 256 then 16 else max 1 ((s.vzf o).weights.getD 1 16)

/-- The rest by deficit round robin (R238). -/
def appendDrr : Nat → State → State
  | 0, s => s
  | n + 1, s =>
    let heads := s.dynHeads
    match (if heads.isEmpty then none
           else drrPick (fun (x : Nat × RingFrame) => minislots x.2) (22 * heads.length + 2) s.ringQuantum (heads.map (fun x => (x.1, x))) s.ring.drr) with
    | some (x, d) => appendDrr n (appendFrame (s.sendable x.2) (s.modRing (fun r => { r with dynOut := r.dynOut.erase x, drr := d })))
    | none => s

/-- A station that owns a `VZF_DATA` slot of the VZF. -/
def State.dataSlot (s : State) (v : Nat) : Bool :=
  s.ringSec.slots.cells.any (fun c => decide (c.2.ftype = 4) && decide (c.2.owner = s.station) && decide (c.2.arg % 256 = v))

/-- Records of VZFs without a slot of their own wait as dynamic frames. -/
def queueData (s : State) : State :=
  (s.vz.vzfs.cells.filter (fun c => c.2.exists_)).foldl (fun s c =>
    let v := c.1
    if s.dataSlot v then s
    else
      let t := takeRecords v 1536 s
      match t.2 with
      | [] => t.1
      | l =>
        let f := t.1.frame v 4 (s.nextDst v) 0xFFFF (t.1.dataWord v) (BitVec.ofNat 32 l.length) false l.flatten
        t.1.modRing (fun r => { r with dynOut := r.dynOut ++ [(v, f)] })) s

/-- The end of the content: the station appends its own frames (R237). A station in Basecamp, or not joined, appends none. -/
def appendOwn (s : State) : State :=
  if !s.ring.joined || !s.canJoin then s
  else
    let s := queueData s
    let s := if s.sys.proven then appendMbx ((s.mbx.ports.cells.map (fun c => c.2.outq.length)).foldl (· + ·) 0) s else s
    let s := appendSystem ((s.ring.dynOut.filter (fun x => decide (x.1 = 257))).map (·.2)) s
    let s := if s.ring.master then appendRelayed s.ring.relayQ s else s
    appendDrr s.ring.dynOut.length s

/-- What the station copies of a dynamic frame. Mailbox fragments and Ethernet frames come with rows of their own. -/
def takeDynamic (f : RingFrame) (s : State) : State :=
  if f.hdr.typ = 4 && s.isDest f && !hdrFlag f.hdr 4 then vzfData f s
  else if f.hdr.typ = 8 then takeHealth f s
  else s

/-- Bytes that wait for relay, of 64 KiB. -/
def RingState.relayBytes (r : RingState) : Nat := framesSize (r.relayQ.map (·.frame))

/-- A frame at the end of the wave (R239): an undelivered unicast frame or a broadcast frame of another station that was not relayed
yet waits for relay; one that finds no room is dropped as one that has waited too long is. -/
def relay (f : RingFrame) (s : State) : State :=
  if decide (srcStation f = s.station) || hdrFlag f.hdr 6 || hdrFlag f.hdr 4 then s
  else if s.ring.relayBytes + frameSize f ≤ 65536 then s.modRing (fun r => { r with relayQ := r.relayQ ++ [{ frame := f, waited := 0 }] })
  else relayTimeout (s.modRing (fun r => { r with relayQ := r.relayQ ++ [{ frame := f, waited := 4 }] }))

/-- A dynamic frame passes: the destination marks it `DELIVERED`, a sender removes its relayed frame, the master relays. -/
def passDynamic (p : Nat) (f : RingFrame) (s : State) : State :=
  let f := if s.isDest f && !s.basecamp then { f with hdr := { f.hdr with flags := setFlag f.hdr.flags 4 } } else f
  if s.waveEnds p then relay f s
  else if decide (srcStation f = s.station) && hdrFlag f.hdr 6 then s
  else forward p f s

def dynamicFrame (p : Nat) (f : RingFrame) (s : State) : State :=
  if ringBad f 3 then discard p f s
  else if !(s.ring.port p).closed then s
  else passDynamic p f (if s.basecamp || !s.ring.joined then s else takeDynamic f s)

/-- A frame of the dynamic segment, or (`none`) its first minislot at which no frame starts: at its first passage the station appends its
own there (R225); the master, whose first passage is the start of the wave, has done so. -/
def execDynamicFrameReceived (port : Fin 2) (link : LinkCheck) (f : Option RingFrame) (s : State) : Result :=
  .next (if s.ring.phase ≠ .active then s
    else match f with
      | none => if (s.ring.port port.val).closed && !s.ring.master && decide (port.val = s.ring.inPort) then appendOwn s else s
      | some f => let t := linkRx port.val link s
        if t.2 then dynamicFrame port.val f t.1 else t.1)

/-! ### The start of a local cycle -/

/-- Every PDU and the mirror age by one cycle, which is an update to the reflex engine (R345, R346). -/
def cycleAges (s : State) : State :=
  evalRules (ageStep { s with twin := { s.twin with mirrorAge := satInc 255 s.twin.mirrorAge } })

/-- `RING_E` asks in every NIT (R232). -/
def startNit (s : State) : State := if s.ring.east.sak then sendMeas 0 (s.ring.east.measSeq + 1) 0 s else s

/-- A local cycle starts: the ring's own part, the activation of a configuration (R54), the ages, the NIT; no content stands before
the master's own dynamic frames. -/
def localCycle (s : State) : State :=
  if s.ring.phase ≠ .active then cycleAges s
  else
    let s := cycleStart s
    let s := if s.ring.joined then activationBoundary s else s
    let s := startNit (cycleAges s)
    if s.ring.master then appendOwn s else s

def execLocalCycleStart (s : State) : Result := .next (localCycle s)

end Sys2Proof.Machine
end

