-- ==== Sys2Proof/Machine/Uds.lean ====
section
/-! DEFINITION. The Basecamp diagnostic session over CAN0 (R446 to R450). Response bytes beside the values that R447 names follow
ISO 14229-1. -/

namespace Sys2Proof.Machine

/-- What a service answers: bytes of a positive response, a negative response code, or nothing. -/
inductive UdsAnswer where
  | pos (bytes : List Byte)
  | neg (nrc : Byte)
  | silent

def UdsAnswer.bytes (sid : Byte) : UdsAnswer → List Byte
  | .pos b => (sid + 0x40) :: b
  | .neg n => [0x7F, sid, n]
  | .silent => []

/-- A request that counts as valid for the choice of the serving port (R449). -/
def UdsAnswer.valid : UdsAnswer → Bool
  | .neg n => decide (n ≠ 0x11) && decide (n ≠ 0x12)
  | _ => true

def State.modUds (s : State) (f : UdsState → UdsState) : State := { s with uds := f s.uds }

/-- The negative response code of a status (R447). -/
def nrcOf (st : U16) : Byte :=
  if st = stat_badState ∨ st = stat_busy ∨ st = stat_noSession then 0x22 else 0x31

/-- A request on CAN0 in Basecamp: the other port may serve the session already (R449). -/
def udsServe (sid : Byte) (f : State → State × UdsAnswer) (s : State) : State :=
  if !s.basecamp || !s.mgrUp then s
  else if s.uds.serving = some .ring then s.modUds (fun u => u.say [0x7F, sid, 0x22])
  else
    let t := f s
    t.1.modUds (fun u => { u.say (t.2.bytes sid) with serving := if t.2.valid && t.1.basecamp then some .can0 else u.serving })

/-- A service that needs the programming session, or security access as well. -/
def needP (s : State) (y : State × UdsAnswer) : State × UdsAnswer := if s.uds.programming then y else (s, .neg 0x33)
def needS (s : State) (y : State × UdsAnswer) : State × UdsAnswer :=
  if s.uds.programming && s.uds.unlocked then y else (s, .neg 0x33)

/-! ### Sessions -/

/-- A change of session locks security access again. -/
def udsSession (sub : Byte) (s : State) : State × UdsAnswer :=
  if sub = 1 ∨ sub = 2 then
    (s.modUds (fun u => { u with programming := decide (sub = 2), unlocked := false, seed := none }), .pos [sub, 0x00, 0x32, 0x01, 0xF4])
  else (s, .neg 0x12)

def execUdsSessionControl (sub : Byte) (s : State) : Result := .next (udsServe 0x10 (udsSession sub) s)

/-- `UPD.RESTART`, after the answer. -/
def execUdsEcuReset (sub : Byte) (s : State) : Result :=
  let t := udsServe 0x11 (fun s =>
    if sub ≠ 1 then (s, .neg 0x12)
    else needS s (if s.restartReady then (s, .pos [1]) else (s, .neg 0x22))) s
  .next (if t.uds.answer = [0x51, 1] && s.basecamp && s.mgrUp then restartCause 8 (clearLoop t) else t)

def udsTester (sub : Byte) (s : State) : State × UdsAnswer :=
  if sub = 0 then (s, .pos [0]) else if sub = 0x80 then (s, .silent) else (s, .neg 0x12)

def execUdsTesterPresent (sub : Byte) (s : State) : Result := .next (udsServe 0x3E (udsTester sub) s)

/-- The S3 time ends (R447): default session, and an open target is discarded. -/
def execUdsS3Timeout (s : State) : Result :=
  .next (updDiscardOpen (s.modUds (fun u => { u with programming := false, unlocked := false, seed := none })))

/-- 10 s without a request on the serving port (R449). -/
def execBasecampPortIdle (s : State) : Result := .next (s.modUds (fun u => { u with serving := none }))

/-! ### Data -/

/-- An upper-case hexadecimal digit. -/
def hexDigit (n : Nat) : Byte := byteOf (if n < 10 then 48 + n else 55 + n)

def asciiSerial (n : U64) : List Byte := (List.range 16).map (fun k => hexDigit (n.toNat / 16 ^ (15 - k) % 16))

def udsRead (id : U16) (s : State) : State × UdsAnswer :=
  let pos := fun (b : List Byte) => UdsAnswer.pos ([id.extractLsb' 8 8, id.extractLsb' 0 8] ++ b)
  if id = 0xF18C then (s, pos (asciiSerial s.key.serial))
  else if id = 0xFD00 then (s, pos (le16 s.sys.basecampStatus))
  else if id = 0xFD01 then (s, pos (updStatusBytes s))
  else (s, .neg 0x31)

def execUdsReadDataById (id : U16) (s : State) : Result := .next (udsServe 0x22 (udsRead id) s)

/-! ### Security access (R448) -/

/-- The seed: a fresh nonce, or zeros at an unlocked level. -/
def udsSeed (s : State) : State × UdsAnswer :=
  needP s (
    if s.uds.locked then (s, .neg 0x37)
    else if (s.slot 124).state = .bad then (s, .neg 0x22)
    else if (s.slot 124).state = .empty then (s.modUds (fun u => { u with unlocked := true }), .pos (0x11 :: zeros 32))
    else if s.uds.unlocked then (s, .pos (0x11 :: zeros 32))
    else if s.key.trngFail then (s, .neg 0x22)
    else
      let t := issueNonce s
      (t.1.modUds (fun u => { u with seed := some t.2 }), .pos (0x11 :: nonceBytes t.2)))

def execUdsRequestSeed (s : State) : Result := .next (udsServe 0x27 udsSeed s)

/-- A wrong key; the third in a row locks the seeds. -/
def wrongKey (s : State) : State × UdsAnswer :=
  if 3 ≤ s.uds.wrong + 1 then (s.modUds (fun u => { u with wrong := 0, locked := true }), .neg 0x36)
  else (s.modUds (fun u => { u with wrong := u.wrong + 1 }), .neg 0x35)

def udsKey (sigOk : Bool) (s : State) : State × UdsAnswer :=
  needP s (
    if s.uds.locked then (s, .neg 0x37)
    else if (s.slot 124).state = .bad then (s, .neg 0x22)
    else match s.uds.seed with
      | none => (s, .neg 0x24)
      | some n =>
        let good := s.signedOk n sigOk
        let s := (useNonce n s).modUds (fun u => { u with seed := none })
        if good then (s.modUds (fun u => { u with unlocked := true, wrong := 0 }), .pos [0x12]) else wrongKey s)

def execUdsSendKey (sigOk : Bool) (s : State) : Result := .next (udsServe 0x27 (udsKey sigOk) s)

def execUdsSecurityLockoutEnd (s : State) : Result := .next (s.modUds (fun u => { u with locked := false }))

/-! ### Download -/

def udsDownload (format lenFormat : Byte) (target total : U32) (s : State) : State × UdsAnswer :=
  needS s (
    if format ≠ 0 ∨ lenFormat ≠ 0x44 then (s, .neg 0x31)
    else match beginStat s target.toNat total.toNat with
      | some st => (s, .neg (nrcOf st))
      | none =>
        let t := updOpen target.toNat total.toNat s
        if t.2.status = stat_ok then (t.1.modUds (fun u => { u with counter := 1, block := 0 }), .pos [0x20, 0x0F, 0xB2])
        else (s, .neg (nrcOf t.2.status)))

def execUdsRequestDownload (format lenFormat : Byte) (target : U32) (total : U32) (s : State) : Result :=
  .next (udsServe 0x34 (udsDownload format lenFormat target total) s)

def udsTransfer (counter : Byte) (data : List Byte) (s : State) : State × UdsAnswer :=
  needS s (
    if s.upd.open_.isNone then (s, .neg 0x22)
    else if counter ≠ s.uds.counter then (s, .neg 0x73)
    else if !blockOk data then (s, .neg 0x31)
    else
      let t := updFill (4016 * s.uds.block) data s
      if t.2.status = stat_ok then (t.1.modUds (fun u => { u with counter := u.counter + 1, block := u.block + 1 }), .pos [counter])
      else (s, .neg (nrcOf t.2.status)))

def execUdsTransferData (counter : Byte) (data : List Byte) (s : State) : Result := .next (udsServe 0x36 (udsTransfer counter data) s)

/-- The verification runs under NRC 0x78; its end answers. -/
def udsExit (s : State) : State × UdsAnswer :=
  needS s (if s.upd.open_.isNone then (s, .neg 0x22) else ((updStartVerify none s).1, .neg 0x78))

def execUdsRequestTransferExit (s : State) : Result := .next (udsServe 0x37 udsExit s)

/-! ### Routines -/

/-- A body that a payload check may refuse. -/
def checked (st : Option U16) (y : State × Reply) (s : State) : State × Reply :=
  match st with
  | some st => (s, .fail st)
  | none => y

/-- A restart by a Gyvin request on CAN0. -/
def udsRestart (trigger : Nat) (s : State) : State × Reply := (restartCause trigger (clearLoop s), .ok [])

/-- A Gyvin request of the Basecamp subset (R450), with the privilege of security access. -/
def udsGyvin (g : UdsGyvin) (s : State) : State × Reply :=
  match g with
  | .ping payload => (s, .ok payload)
  | .getInfo => (s, .ok s.infoBytes)
  | .getMode => getModeBody s
  | .restart nonce sigOk =>
    let t := useNonce nonce s
    if s.signedOk nonce sigOk then udsRestart 7 t else (t, .fail stat_authFail)
  | .provision f => checked (provisionStat f) (provisionBody f s) s
  | .slotStatus first count => checked (slotStatusStat first.toNat count.toNat) (slotStatusBody first.toNat count.toNat s) s
  | .eraseSlot slot nonce sig => checked (needStat (decide (slot.toNat ≤ 127)) stat_range) (eraseBody slot.toNat nonce sig s) s
  | .attest nonce flags =>
    checked (needStat (decide (flags.toNat ≤ 1)) stat_badPayload)
      (if s.key.pufFail then (s, .fail stat_keyNoIdentity) else (s.draw, .ok (attestBytes nonce (flagOf flags 0) s))) s
  | .random n => checked (randomStat n.toNat) (randomBody n.toNat s) s
  | .identity => identityBody s
  | .updBegin target total => checked (beginStat s target.toNat total.toNat) (updOpen target.toNat total.toNat s) s
  | .updWrite offset data => checked (needStat (blockOk data) stat_badLength) (updFill offset.toNat data s) s
  | .updVerify => updStartVerify none s
  | .updCommit flags =>
    checked (if flags.toNat ≤ 1 then needStat (!flagOf flags 0) stat_badMode else some stat_badPayload) (commitBody false s) s
  | .updAbort => updAbortBody s
  | .updStatus => (s, .ok (updStatusBytes s))
  | .updRestart => if s.restartReady then udsRestart 8 s else (s, .fail stat_badState)
  | .readStones => (s, .ok (stonesBytes s.log))
  | .other _ => (s, .fail stat_unknownCmd)

/-- StartRoutine: commit, a Gyvin request or abort. -/
def udsRoutine (sub : Byte) (id : U16) (g : Option UdsGyvin) (s : State) : State × UdsAnswer :=
  let pos := fun (b : List Byte) => UdsAnswer.pos ([1, id.extractLsb' 8 8, id.extractLsb' 0 8] ++ b)
  if sub ≠ 1 then (s, .neg 0x12)
  else needS s (
    if id = 0xFD01 then
      let t := commitBody false s
      if t.2.status = stat_ok then (t.1, pos t.2.data) else (s, .neg 0x72)
    else if id = 0xFD02 then
      match g with
      | none => (s, .neg 0x13)
      | some g => let t := udsGyvin g s; (t.1, pos (le16 t.2.status ++ t.2.data))
    else if id = 0xFD03 then ((updAbortBody s).1, pos [])
    else (s, .neg 0x31))

def execUdsRoutineControl (sub : Byte) (id : U16) (gyvin : Option UdsGyvin) (s : State) : Result :=
  .next (udsServe 0x31 (udsRoutine sub id gyvin) s)

end Sys2Proof.Machine
end

