-- ==== Sys2Proof/Machine/Dispatch.lean ====
section
/-! DEFINITION. The meaning of every command: one arm per constructor of `Instr`, each one call of its meaning. -/

namespace Sys2Proof.Machine

def exec (i : Instr) (s : State) : Host.Outcome State Fault Refusal :=
  match i with
  | .logicSupplyValid => Sys2Proof.Machine.execLogicSupplyValid s
  | .resetRelease f => Sys2Proof.Machine.execResetRelease f s
  | .rootPllLock => Sys2Proof.Machine.execRootPllLock s
  | .pllLockTimeout => Sys2Proof.Machine.execPllLockTimeout s
  | .powerDieTableAck die => Sys2Proof.Machine.execPowerDieTableAck die s
  | .pdlAckTimeout die => Sys2Proof.Machine.execPdlAckTimeout die s
  | .pdlAckRetry die => Sys2Proof.Machine.execPdlAckRetry die s
  | .vinClassCheck inside => Sys2Proof.Machine.execVinClassCheck inside s
  | .pairInjectionTestDone pair pass => Sys2Proof.Machine.execPairInjectionTestDone pair pass s
  | .ddrTrainingDone => Sys2Proof.Machine.execDdrTrainingDone s
  | .forcedBasecampCheck => Sys2Proof.Machine.execForcedBasecampCheck s
  | .workshopInactivityTimeout => Sys2Proof.Machine.execWorkshopInactivityTimeout s
  | .autoSleep => Sys2Proof.Machine.execAutoSleep s
  | .wakeNAssert => Sys2Proof.Machine.execWakeNAssert s
  | .powerLoss => Sys2Proof.Machine.execPowerLoss s
  | .logicFeedLow => Sys2Proof.Machine.execLogicFeedLow s
  | .logicFeedFail => Sys2Proof.Machine.execLogicFeedFail s
  | .clockMonitorTrip => Sys2Proof.Machine.execClockMonitorTrip s
  | .runServiceLoss item => Sys2Proof.Machine.execRunServiceLoss item s
  | .managerWatchdog => Sys2Proof.Machine.execManagerWatchdog s
  | .safetyClusterServing => Sys2Proof.Machine.execSafetyClusterServing s
  | .bivouacEntryDone => Sys2Proof.Machine.execBivouacEntryDone s
  | .portTc10Wake p => Sys2Proof.Machine.execPortTc10Wake p s
  | .activationMsBoundary => Sys2Proof.Machine.execActivationMsBoundary s
  | .sysEnterWorkshop r nonce sigOk => Sys2Proof.Machine.execSysEnterWorkshop r nonce sigOk s
  | .sysLeaveWorkshop r => Sys2Proof.Machine.execSysLeaveWorkshop r s
  | .sysSleep r => Sys2Proof.Machine.execSysSleep r s
  | .sysRestart r nonce sigOk => Sys2Proof.Machine.execSysRestart r nonce sigOk s
  | .sysEnterBasecamp r => Sys2Proof.Machine.execSysEnterBasecamp r s
  | .sysGetMode r => Sys2Proof.Machine.execSysGetMode r s
  | .sysChallenge r => Sys2Proof.Machine.execSysChallenge r s
  | .cfgBegin r total => Sys2Proof.Machine.execCfgBegin r total s
  | .cfgWrite r offset data => Sys2Proof.Machine.execCfgWrite r offset data s
  | .cfgCommit r content => Sys2Proof.Machine.execCfgCommit r content s
  | .cfgActivate r => Sys2Proof.Machine.execCfgActivate r s
  | .cfgStatus r => Sys2Proof.Machine.execCfgStatus r s
  | .cfgAbort r => Sys2Proof.Machine.execCfgAbort r s
  | .cfgGetSection r section_ offset length => Sys2Proof.Machine.execCfgGetSection r section_ offset length s
  | .cfgSessionTimeout => Sys2Proof.Machine.execCfgSessionTimeout s
  | .baseplateHot temp => Sys2Proof.Machine.execBaseplateHot temp s
  | .baseplateOvertemp temp => Sys2Proof.Machine.execBaseplateOvertemp temp s
  | .baseplateCooled temp => Sys2Proof.Machine.execBaseplateCooled temp s
  | .logicDieOvertemp temp => Sys2Proof.Machine.execLogicDieOvertemp temp s
  | .logicDieCooled => Sys2Proof.Machine.execLogicDieCooled s
  | .mbxFragmentReceived port f => Sys2Proof.Machine.execMbxFragmentReceived port f s
  | .mbxReassemblyTimeout port => Sys2Proof.Machine.execMbxReassemblyTimeout port s
  | .vzfMbxReqProd v block index msgs fault => Sys2Proof.Machine.execVzfMbxReqProd v block index msgs fault s
  | .mbxConsumerIndexWrite v block evt index => Sys2Proof.Machine.execMbxConsumerIndexWrite v block evt index s
  | .hostControlAck port seq ack => Sys2Proof.Machine.execHostControlAck port seq ack s
  | .unknownCommand r code => Sys2Proof.Machine.execUnknownCommand r code s
  | .mbxAckTimer port => Sys2Proof.Machine.execMbxAckTimer port s
  | .epochRepeat port => Sys2Proof.Machine.execEpochRepeat port s
  | .mbxRetransmit port evt seq => Sys2Proof.Machine.execMbxRetransmit port evt seq s
  | .sysResync r => Sys2Proof.Machine.execSysResync r s
  | .sysReplay r rsp evt => Sys2Proof.Machine.execSysReplay r rsp evt s
  | .sysSubscribe r cls mask => Sys2Proof.Machine.execSysSubscribe r cls mask s
  | .sysPing r payload => Sys2Proof.Machine.execSysPing r payload s
  | .sysGetInfo r => Sys2Proof.Machine.execSysGetInfo r s
  | .sysPortStats r => Sys2Proof.Machine.execSysPortStats r s
  | .sysSetRate r port burst rate => Sys2Proof.Machine.execSysSetRate r port burst rate s
  | .windowUnmappedAccess v offset => Sys2Proof.Machine.execWindowUnmappedAccess v offset s
  | .registerWrite target value => Sys2Proof.Machine.execRegisterWrite target value s
  | .lswCmdWrite v ch value => Sys2Proof.Machine.execLswCmdWrite v ch value s
  | .hbrCmdWrite v br value => Sys2Proof.Machine.execHbrCmdWrite v br value s
  | .vlvCmdWrite v vlv value => Sys2Proof.Machine.execVlvCmdWrite v vlv value s
  | .lswChStampLoRead v ch => Sys2Proof.Machine.execLswChStampLoRead v ch s
  | .lswChPeakRead v ch => Sys2Proof.Machine.execLswChPeakRead v ch s
  | .chSet r ch mode prio duty phase => Sys2Proof.Machine.execChSet r ch mode prio duty phase s
  | .chGetStatus r ch => Sys2Proof.Machine.execChGetStatus r ch s
  | .chSetProfile r ch id => Sys2Proof.Machine.execChSetProfile r ch id s
  | .chGetProfile r ch => Sys2Proof.Machine.execChGetProfile r ch s
  | .chUnlock r ch selector => Sys2Proof.Machine.execChUnlock r ch selector s
  | .chClearFault r ch => Sys2Proof.Machine.execChClearFault r ch s
  | .chSetHold r ch setting tHold => Sys2Proof.Machine.execChSetHold r ch setting tHold s
  | .chSetKeepalive r set => Sys2Proof.Machine.execChSetKeepalive r set s
  | .chSnsSelect r ch => Sys2Proof.Machine.execChSnsSelect r ch s
  | .chTest r ch test duration => Sys2Proof.Machine.execChTest r ch test duration s
  | .chTestEnd ch pass value => Sys2Proof.Machine.execChTestEnd ch pass value s
  | .chGetLedger r ch => Sys2Proof.Machine.execChGetLedger r ch s
  | .chHbConfig r ch f => Sys2Proof.Machine.execChHbConfig r ch f s
  | .chHbDrive r ch drive prio duty phase flags target => Sys2Proof.Machine.execChHbDrive r ch drive prio duty phase flags target s
  | .chHbPosition r ch op value => Sys2Proof.Machine.execChHbPosition r ch op value s
  | .chVlvConfig r ch flags amp freq bw => Sys2Proof.Machine.execChVlvConfig r ch flags amp freq bw s
  | .chVlvSet r ch prio enable ma => Sys2Proof.Machine.execChVlvSet r ch prio enable ma s
  | .chVlvStatus r ch => Sys2Proof.Machine.execChVlvStatus r ch s
  | .powerDieLinkFrame die clamp => Sys2Proof.Machine.execPowerDieLinkFrame die clamp s
  | .linkSilenceHold die => Sys2Proof.Machine.execLinkSilenceHold die s
  | .holdTimeout ch => Sys2Proof.Machine.execHoldTimeout ch s
  | .shortCircuitTrip ch ma => Sys2Proof.Machine.execShortCircuitTrip ch ma s
  | .limitTimeout ch => Sys2Proof.Machine.execLimitTimeout ch s
  | .inrushWindowEnd ch above => Sys2Proof.Machine.execInrushWindowEnd ch above s
  | .wireModelStep ch i2 => Sys2Proof.Machine.execWireModelStep ch i2 s
  | .junctionOvertemp ch tj => Sys2Proof.Machine.execJunctionOvertemp ch tj s
  | .openLoadOn ch => Sys2Proof.Machine.execOpenLoadOn ch s
  | .offStateTest ch highBefore under => Sys2Proof.Machine.execOffStateTest ch highBefore under s
  | .arcWindow ch rms dv => Sys2Proof.Machine.execArcWindow ch rms dv s
  | .retryDelayExpiry ch => Sys2Proof.Machine.execRetryDelayExpiry ch s
  | .retryCountReset ch => Sys2Proof.Machine.execRetryCountReset ch s
  | .freewheelCheckEnd ch lowest clampUj => Sys2Proof.Machine.execFreewheelCheckEnd ch lowest clampUj s
  | .statusWordUpdate ch m => Sys2Proof.Machine.execStatusWordUpdate ch m s
  | .pwmPeriodStart ch clampUj => Sys2Proof.Machine.execPwmPeriodStart ch clampUj s
  | .groupLoadCheck => Sys2Proof.Machine.execGroupLoadCheck s
  | .loadShedStep => Sys2Proof.Machine.execLoadShedStep s
  | .orphanTimeout ch => Sys2Proof.Machine.execOrphanTimeout ch s
  | .reversalBrakeEnd br => Sys2Proof.Machine.execReversalBrakeEnd br s
  | .stallDetect br => Sys2Proof.Machine.execStallDetect br s
  | .rippleCount br interval => Sys2Proof.Machine.execRippleCount br interval s
  | .runonEnd br => Sys2Proof.Machine.execRunonEnd br s
  | .uncountedMotion br => Sys2Proof.Machine.execUncountedMotion br s
  | .valveRegulationPeriod vlv m => Sys2Proof.Machine.execValveRegulationPeriod vlv m s
  | .complianceSet vlv gotMa => Sys2Proof.Machine.execComplianceSet vlv gotMa s
  | .complianceClear vlv => Sys2Proof.Machine.execComplianceClear vlv s
  | .groupSupplyLoss g reversed => Sys2Proof.Machine.execGroupSupplyLoss g reversed s
  | .groupSupplyReturn g powerUp => Sys2Proof.Machine.execGroupSupplyReturn g powerUp s
  | .moduleGroundLoss => Sys2Proof.Machine.execModuleGroundLoss s
  | .junctionCooled ch tj => Sys2Proof.Machine.execJunctionCooled ch tj s
  | .junctionHotWarning ch => Sys2Proof.Machine.execJunctionHotWarning ch s
  | .bridgeStart vin => Sys2Proof.Machine.execBridgeStart vin s
  | .vinLossDetected vz48 vin => Sys2Proof.Machine.execVinLossDetected vz48 vin s
  | .handoverAbandon => Sys2Proof.Machine.execHandoverAbandon s
  | .commitPoint vbk12 => Sys2Proof.Machine.execCommitPoint vbk12 s
  | .vinValidInBoost => Sys2Proof.Machine.execVinValidInBoost s
  | .vinInvalidInQualify => Sys2Proof.Machine.execVinInvalidInQualify s
  | .qualifyTimeout => Sys2Proof.Machine.execQualifyTimeout s
  | .handbackRampComplete => Sys2Proof.Machine.execHandbackRampComplete s
  | .vbk12Low => Sys2Proof.Machine.execVbk12Low s
  | .boostOverload ibk vz48 => Sys2Proof.Machine.execBoostOverload ibk vz48 s
  | .shedRestore => Sys2Proof.Machine.execShedRestore s
  | .vz12GroupRelease => Sys2Proof.Machine.execVz12GroupRelease s
  | .phaseOvercurrentLatch ph => Sys2Proof.Machine.execPhaseOvercurrentLatch ph s
  | .bridgeDieHot temp => Sys2Proof.Machine.execBridgeDieHot temp s
  | .bridgeDieOvertemp temp => Sys2Proof.Machine.execBridgeDieOvertemp temp s
  | .bridgeDieCooled temp => Sys2Proof.Machine.execBridgeDieCooled temp s
  | .vz12Undervoltage vz12 => Sys2Proof.Machine.execVz12Undervoltage vz12 s
  | .vz12Retry regulated => Sys2Proof.Machine.execVz12Retry regulated s
  | .bridgeControlStop => Sys2Proof.Machine.execBridgeControlStop s
  | .vinWindowEntry reverse vin => Sys2Proof.Machine.execVinWindowEntry reverse vin s
  | .brgGetStatus r m => Sys2Proof.Machine.execBrgGetStatus r m s
  | .brgSetTarget r vZ12 => Sys2Proof.Machine.execBrgSetTarget r vZ12 s
  | .brgSetLimits r f => Sys2Proof.Machine.execBrgSetLimits r f s
  | .brgRelease r => Sys2Proof.Machine.execBrgRelease r s
  | .brgSetShed r shedHo shedAt => Sys2Proof.Machine.execBrgSetShed r shedHo shedAt s
  | .brgTestHandover r duration vin vbk12 => Sys2Proof.Machine.execBrgTestHandover r duration vin vbk12 s
  | .handoverTestEnd lowest peak energy => Sys2Proof.Machine.execHandoverTestEnd lowest peak energy s
  | .diSample n mv => Sys2Proof.Machine.execDiSample n mv s
  | .fioDiStampLoRead v => Sys2Proof.Machine.execFioDiStampLoRead v s
  | .aiSample uv sup => Sys2Proof.Machine.execAiSample uv sup s
  | .cyclicSenseSample n mv => Sys2Proof.Machine.execCyclicSenseSample n mv s
  | .sensorSupplyFault sup forced => Sys2Proof.Machine.execSensorSupplyFault sup forced s
  | .sensorSupplyRetry sup regulates => Sys2Proof.Machine.execSensorSupplyRetry sup regulates s
  | .barrierDownlinkFrame => Sys2Proof.Machine.execBarrierDownlinkFrame s
  | .barrierDownlinkReceived frame => Sys2Proof.Machine.execBarrierDownlinkReceived frame s
  | .barrierUplinkFrame frame => Sys2Proof.Machine.execBarrierUplinkFrame frame s
  | .xLinkTimeout => Sys2Proof.Machine.execXLinkTimeout s
  | .xUplinkLost => Sys2Proof.Machine.execXUplinkLost s
  | .xOverload k => Sys2Proof.Machine.execXOverload k s
  | .xOverloadRetry k clear => Sys2Proof.Machine.execXOverloadRetry k clear s
  | .xOpenWire k => Sys2Proof.Machine.execXOpenWire k s
  | .xOvertemp k => Sys2Proof.Machine.execXOvertemp k s
  | .xvfLow => Sys2Proof.Machine.execXvfLow s
  | .xvfFail => Sys2Proof.Machine.execXvfFail s
  | .xvfRecover => Sys2Proof.Machine.execXvfRecover s
  | .fioXCmdValWrite v value => Sys2Proof.Machine.execFioXCmdValWrite v value s
  | .fioXBankRead v => Sys2Proof.Machine.execFioXBankRead v s
  | .fioDiConfig r input f => Sys2Proof.Machine.execFioDiConfig r input f s
  | .fioDiRead r => Sys2Proof.Machine.execFioDiRead r s
  | .fioAiConfig r input range ratio k => Sys2Proof.Machine.execFioAiConfig r input range ratio k s
  | .fioAiRead r first count => Sys2Proof.Machine.execFioAiRead r first count s
  | .fioSupSet r supply on => Sys2Proof.Machine.execFioSupSet r supply on s
  | .fioCyclicSense r mask tCyc k => Sys2Proof.Machine.execFioCyclicSense r mask tCyc k s
  | .fioXConfig r channel mode tXdb flags => Sys2Proof.Machine.execFioXConfig r channel mode tXdb flags s
  | .fioXSet r mask values => Sys2Proof.Machine.execFioXSet r mask values s
  | .fioXRead r => Sys2Proof.Machine.execFioXRead r s
  | .fioXSafe r safe tXto => Sys2Proof.Machine.execFioXSafe r safe tXto s
  | .xvfLowEnd => Sys2Proof.Machine.execXvfLowEnd s
  | .xOvertempEnd k => Sys2Proof.Machine.execXOvertempEnd k s
  | .xOpenWireEnd k => Sys2Proof.Machine.execXOpenWireEnd k s
  | .safeNAssert => Sys2Proof.Machine.execSafeNAssert s
  | .safeNRelease => Sys2Proof.Machine.execSafeNRelease s
  | .ruleTableCheck ok corrected => Sys2Proof.Machine.execRuleTableCheck ok corrected s
  | .ruleTableEccError rule => Sys2Proof.Machine.execRuleTableEccError rule s
  | .rfxLoadRule r rule f => Sys2Proof.Machine.execRfxLoadRule r rule f s
  | .rfxEnable r first count => Sys2Proof.Machine.execRfxEnable r first count s
  | .rfxDisable r first count => Sys2Proof.Machine.execRfxDisable r first count s
  | .rfxGetRule r rule => Sys2Proof.Machine.execRfxGetRule r rule s
  | .rfxStats r first count => Sys2Proof.Machine.execRfxStats r first count s
  | .rfxSelfArrest r reason => Sys2Proof.Machine.execRfxSelfArrest r reason s
  | .rfxSafeNFilter r tSnf flags => Sys2Proof.Machine.execRfxSafeNFilter r tSnf flags s
  | .edgeWindowEnd rule slot => Sys2Proof.Machine.execEdgeWindowEnd rule slot s
  | .limpTableTimer => Sys2Proof.Machine.execLimpTableTimer s
  | .localCycleStart => Sys2Proof.Machine.execLocalCycleStart s
  | .syncRefReceived port link h f residence => Sys2Proof.Machine.execSyncRefReceived port link h f residence s
  | .syncRefMissing => Sys2Proof.Machine.execSyncRefMissing s
  | .masterHandover => Sys2Proof.Machine.execMasterHandover s
  | .staticFrameReceived port link f => Sys2Proof.Machine.execStaticFrameReceived port link f s
  | .slotDue k => Sys2Proof.Machine.execSlotDue k s
  | .dynamicFrameReceived port link f => Sys2Proof.Machine.execDynamicFrameReceived port link f s
  | .relayQueueTimeout => Sys2Proof.Machine.execRelayQueueTimeout s
  | .secondaryFrameReceived port link f busy => Sys2Proof.Machine.execSecondaryFrameReceived port link f busy s
  | .delayMeasRequest link h f => Sys2Proof.Machine.execDelayMeasRequest link h f s
  | .delayMeasResponse link h f roundTrip => Sys2Proof.Machine.execDelayMeasResponse link h f roundTrip s
  | .ringLinkDown port => Sys2Proof.Machine.execRingLinkDown port s
  | .ringPhyTrained port => Sys2Proof.Machine.execRingPhyTrained port s
  | .mkaFrame port peers live => Sys2Proof.Machine.execMkaFrame port peers live s
  | .ringMacsecTimeout port => Sys2Proof.Machine.execRingMacsecTimeout port s
  | .linkClose port => Sys2Proof.Machine.execLinkClose port s
  | .ringSleep => Sys2Proof.Machine.execRingSleep s
  | .ringTc10Wake port => Sys2Proof.Machine.execRingTc10Wake port s
  | .sigSlotFreeze k => Sys2Proof.Machine.execSigSlotFreeze k s
  | .ringGetStatus r => Sys2Proof.Machine.execRingGetStatus r s
  | .ringTopology r => Sys2Proof.Machine.execRingTopology r s
  | .ringSlotAge r first count => Sys2Proof.Machine.execRingSlotAge r first count s
  | .ringDelays r => Sys2Proof.Machine.execRingDelays r s
  | .ringSleepConsent r give => Sys2Proof.Machine.execRingSleepConsent r give s
  | .ringStats r clear => Sys2Proof.Machine.execRingStats r clear s
  | .frameIngress port check f station rivals => Sys2Proof.Machine.execFrameIngress port check f station rivals s
  | .losslessTimeout port cls => Sys2Proof.Machine.execLosslessTimeout port cls s
  | .frameEgress port => Sys2Proof.Machine.execFrameEgress port s
  | .potFullEpisodeEnd pot => Sys2Proof.Machine.execPotFullEpisodeEnd pot s
  | .cellAudit cellsOff descsOff loose => Sys2Proof.Machine.execCellAudit cellsOff descsOff loose s
  | .leakCompareDone => Sys2Proof.Machine.execLeakCompareDone s
  | .cellEccError cell frame => Sys2Proof.Machine.execCellEccError cell frame s
  | .gateListEntry stream gate => Sys2Proof.Machine.execGateListEntry stream gate s
  | .fdbAgeing mac vid => Sys2Proof.Machine.execFdbAgeing mac vid s
  | .eswLinkChange port up => Sys2Proof.Machine.execEswLinkChange port up s
  | .portMacsecTimeout port => Sys2Proof.Machine.execPortMacsecTimeout port s
  | .plcaBeaconTimeout port => Sys2Proof.Machine.execPlcaBeaconTimeout port s
  | .plcaBeaconReturn port => Sys2Proof.Machine.execPlcaBeaconReturn port s
  | .latentErrorTest fn trip => Sys2Proof.Machine.execLatentErrorTest fn trip s
  | .cellScrubbed plane => Sys2Proof.Machine.execCellScrubbed plane s
  | .eswTxqProdWrite v q index descs rivals => Sys2Proof.Machine.execEswTxqProdWrite v q index descs rivals s
  | .eswRxqConsWrite v q index => Sys2Proof.Machine.execEswRxqConsWrite v q index s
  | .eswPortStatus r port => Sys2Proof.Machine.execEswPortStatus r port s
  | .eswVlanSet r vid members untagged => Sys2Proof.Machine.execEswVlanSet r vid members untagged s
  | .eswFdbAdd r f => Sys2Proof.Machine.execEswFdbAdd r f s
  | .eswFdbDel r mac vid => Sys2Proof.Machine.execEswFdbDel r mac vid s
  | .eswPotConfig r f => Sys2Proof.Machine.execEswPotConfig r f s
  | .eswPotStatus r pot => Sys2Proof.Machine.execEswPotStatus r pot s
  | .eswShaperSet r port cls enable slope => Sys2Proof.Machine.execEswShaperSet r port cls enable slope s
  | .eswGateSet r f => Sys2Proof.Machine.execEswGateSet r f s
  | .eswStreamFilter r f => Sys2Proof.Machine.execEswStreamFilter r f s
  | .eswFrerSet r f => Sys2Proof.Machine.execEswFrerSet r f s
  | .eswPlcaSet r f => Sys2Proof.Machine.execEswPlcaSet r f s
  | .eswAudit r op policy tAud cellsOff descsOff loose => Sys2Proof.Machine.execEswAudit r op policy tAud cellsOff descsOff loose s
  | .eswStats r clear => Sys2Proof.Machine.execEswStats r clear s
  | .canFrameReceived c f sof n => Sys2Proof.Machine.execCanFrameReceived c f sof n s
  | .canSofCommit c => Sys2Proof.Machine.execCanSofCommit c s
  | .canTxComplete c o n => Sys2Proof.Machine.execCanTxComplete c o n s
  | .canIntegrationDone c => Sys2Proof.Machine.execCanIntegrationDone c s
  | .canRecoveryDone c => Sys2Proof.Machine.execCanRecoveryDone c s
  | .canRxOverrunEnd c => Sys2Proof.Machine.execCanRxOverrunEnd c s
  | .canTxBellWrite v c => Sys2Proof.Machine.execCanTxBellWrite v c s
  | .canTxCancelWrite v c value => Sys2Proof.Machine.execCanTxCancelWrite v c value s
  | .canEntryCtlWrite c rx e value => Sys2Proof.Machine.execCanEntryCtlWrite c rx e value s
  | .canRxLostRead v c => Sys2Proof.Machine.execCanRxLostRead v c s
  | .tmReferenceSend c => Sys2Proof.Machine.execTmReferenceSend c s
  | .tmReferenceReceived c rank count sof => Sys2Proof.Machine.execTmReferenceReceived c rank count sof s
  | .tmReferenceMissing c => Sys2Proof.Machine.execTmReferenceMissing c s
  | .canLowPowerFrame c pattern f => Sys2Proof.Machine.execCanLowPowerFrame c pattern f s
  | .canWakeConfirmTimeout c => Sys2Proof.Machine.execCanWakeConfirmTimeout c s
  | .canConfig r c f => Sys2Proof.Machine.execCanConfig r c f s
  | .canStart r c => Sys2Proof.Machine.execCanStart r c s
  | .canStop r c => Sys2Proof.Machine.execCanStop r c s
  | .canRecover r c => Sys2Proof.Machine.execCanRecover r c s
  | .canSetFilter r c filter flags id mask => Sys2Proof.Machine.execCanSetFilter r c filter flags id mask s
  | .canSetSieve r c dlc flags id mask dataMask => Sys2Proof.Machine.execCanSetSieve r c dlc flags id mask dataMask s
  | .canCancel r c entry => Sys2Proof.Machine.execCanCancel r c entry s
  | .canTimeMaster r c role rank view base cycle maxCount => Sys2Proof.Machine.execCanTimeMaster r c role rank view base cycle maxCount s
  | .canGetStatus r c => Sys2Proof.Machine.execCanGetStatus r c s
  | .canStats r c clear => Sys2Proof.Machine.execCanStats r c clear s
  | .nmMessageReceived c id dlc data => Sys2Proof.Machine.execNmMessageReceived c id dlc data s
  | .nmTokenPass c => Sys2Proof.Machine.execNmTokenPass c s
  | .nmFormingTimeout c => Sys2Proof.Machine.execNmFormingTimeout c s
  | .nmHopTimeout c => Sys2Proof.Machine.execNmHopTimeout c s
  | .nmTokenLost c => Sys2Proof.Machine.execNmTokenLost c s
  | .nmSleepTimer c => Sys2Proof.Machine.execNmSleepTimer c s
  | .nmTmaxExpiry c => Sys2Proof.Machine.execNmTmaxExpiry c s
  | .nmConfig r c f => Sys2Proof.Machine.execNmConfig r c f s
  | .nmRequestAwake r c => Sys2Proof.Machine.execNmRequestAwake r c s
  | .nmRelease r c => Sys2Proof.Machine.execNmRelease r c s
  | .nmSetTmax r c tMax => Sys2Proof.Machine.execNmSetTmax r c tMax s
  | .nmGetStatus r c => Sys2Proof.Machine.execNmGetStatus r c s
  | .linSlotStart l => Sys2Proof.Machine.execLinSlotStart l s
  | .linFrameEnd l result data => Sys2Proof.Machine.execLinFrameEnd l result data s
  | .linWakeScheduleStart l => Sys2Proof.Machine.execLinWakeScheduleStart l s
  | .linResponderWake l => Sys2Proof.Machine.execLinResponderWake l s
  | .linBusFault l => Sys2Proof.Machine.execLinBusFault l s
  | .linBusFaultEnd l => Sys2Proof.Machine.execLinBusFaultEnd l s
  | .linRxLostRead v l => Sys2Proof.Machine.execLinRxLostRead v l s
  | .linConfig r l f => Sys2Proof.Machine.execLinConfig r l f s
  | .linLoadSchedule r l table n entries => Sys2Proof.Machine.execLinLoadSchedule r l table n entries s
  | .linSelectSchedule r l table => Sys2Proof.Machine.execLinSelectSchedule r l table s
  | .linWake r l => Sys2Proof.Machine.execLinWake r l s
  | .linSleep r l => Sys2Proof.Machine.execLinSleep r l s
  | .linDiag r l wanted data => Sys2Proof.Machine.execLinDiag r l wanted data s
  | .linDiagDone l => Sys2Proof.Machine.execLinDiagDone l s
  | .linGetStatus r l => Sys2Proof.Machine.execLinGetStatus r l s
  | .linRxOverrunEnd l => Sys2Proof.Machine.execLinRxOverrunEnd l s
  | .sourcePduUpdate pipe brg => Sys2Proof.Machine.execSourcePduUpdate pipe brg s
  | .pduTimeout p => Sys2Proof.Machine.execPduTimeout p s
  | .signalCyclicWrite d => Sys2Proof.Machine.execSignalCyclicWrite d s
  | .signalDeferredWrite d => Sys2Proof.Machine.execSignalDeferredWrite d s
  | .pduCyclicSend p => Sys2Proof.Machine.execPduCyclicSend p s
  | .i3RecordFrame vid payload => Sys2Proof.Machine.execI3RecordFrame vid payload s
  | .sigTableEcc pdu entry => Sys2Proof.Machine.execSigTableEcc pdu entry s
  | .sigWrLoWrite v slot value => Sys2Proof.Machine.execSigWrLoWrite v slot value s
  | .sigRdLoRead v slot => Sys2Proof.Machine.execSigRdLoRead v slot s
  | .prsBlock stream source samples => Sys2Proof.Machine.execPrsBlock stream source samples s
  | .prsCaptureComplete id => Sys2Proof.Machine.execPrsCaptureComplete id s
  | .sigLoad r first n table records => Sys2Proof.Machine.execSigLoad r first n table records s
  | .sigRead r first n => Sys2Proof.Machine.execSigRead r first n s
  | .sigWrite r n target entries => Sys2Proof.Machine.execSigWrite r n target entries s
  | .sigGetStatus r first n => Sys2Proof.Machine.execSigGetStatus r first n s
  | .sigPrsConfig r f => Sys2Proof.Machine.execSigPrsConfig r f s
  | .sigPrsStart r stream => Sys2Proof.Machine.execSigPrsStart r stream s
  | .sigPrsStop r stream => Sys2Proof.Machine.execSigPrsStop r stream s
  | .sigCapture r op source id part => Sys2Proof.Machine.execSigCapture r op source id part s
  | .viewChangeApply view => Sys2Proof.Machine.execViewChangeApply view s
  | .captureEvent source rising => Sys2Proof.Machine.execCaptureEvent source rising s
  | .triggerFire unit => Sys2Proof.Machine.execTriggerFire unit s
  | .rtcAlarmExpiry => Sys2Proof.Machine.execRtcAlarmExpiry s
  | .timeRead r view => Sys2Proof.Machine.execTimeRead r view s
  | .timeAdjust r f => Sys2Proof.Machine.execTimeAdjust r f s
  | .timeViewAlloc r op view vzf => Sys2Proof.Machine.execTimeViewAlloc r op view vzf s
  | .timeCaptureConfig r unit op source edge => Sys2Proof.Machine.execTimeCaptureConfig r unit op source edge s
  | .timeTriggerConfig r f => Sys2Proof.Machine.execTimeTriggerConfig r f s
  | .timeRtcAlarm r op delay => Sys2Proof.Machine.execTimeRtcAlarm r op delay s
  | .vzfCreate r tpl vzf iommu => Sys2Proof.Machine.execVzfCreate r tpl vzf iommu s
  | .vzfDestroy r vzf => Sys2Proof.Machine.execVzfDestroy r vzf s
  | .vzfReset r vzf => Sys2Proof.Machine.execVzfReset r vzf s
  | .vzfResetDrainEnd v => Sys2Proof.Machine.execVzfResetDrainEnd v s
  | .vzfQos r vzf weights => Sys2Proof.Machine.execVzfQos r vzf weights s
  | .vzfGetInfo r vzf => Sys2Proof.Machine.execVzfGetInfo r vzf s
  | .vzfList r => Sys2Proof.Machine.execVzfList r s
  | .dramZeroComplete block => Sys2Proof.Machine.execDramZeroComplete block s
  | .interruptBudgetRefill => Sys2Proof.Machine.execInterruptBudgetRefill s
  | .vectorHoldoffExpiry v k => Sys2Proof.Machine.execVectorHoldoffExpiry v k s
  | .lockstepMismatch pair group => Sys2Proof.Machine.execLockstepMismatch pair group s
  | .pairLbistDecision pair pass injectOk => Sys2Proof.Machine.execPairLbistDecision pair pass injectOk s
  | .pairMigration => Sys2Proof.Machine.execPairMigration s
  | .trapStacking pair regs pmp cause tval user => Sys2Proof.Machine.execTrapStacking pair regs pmp cause tval user s
  | .mretUnstack pair regs pmp => Sys2Proof.Machine.execMretUnstack pair regs pmp s
  | .safCkptGoWrite pair value => Sys2Proof.Machine.execSafCkptGoWrite pair value s
  | .checkpointComplete pair part => Sys2Proof.Machine.execCheckpointComplete pair part s
  | .trngHealthFail => Sys2Proof.Machine.execTrngHealthFail s
  | .keyProvision r f => Sys2Proof.Machine.execKeyProvision r f s
  | .keySlotStatus r first count => Sys2Proof.Machine.execKeySlotStatus r first count s
  | .keyEraseSlot r slot nonce sig => Sys2Proof.Machine.execKeyEraseSlot r slot nonce sig s
  | .keyAttest r nonce flags => Sys2Proof.Machine.execKeyAttest r nonce flags s
  | .keyRandom r n => Sys2Proof.Machine.execKeyRandom r n s
  | .keyGetIdentity r => Sys2Proof.Machine.execKeyGetIdentity r s
  | .updBegin r target total => Sys2Proof.Machine.execUpdBegin r target total s
  | .updWrite r offset data => Sys2Proof.Machine.execUpdWrite r offset data s
  | .updVerify r => Sys2Proof.Machine.execUpdVerify r s
  | .updVerifyDone f bank => Sys2Proof.Machine.execUpdVerifyDone f bank s
  | .updCommit r flags => Sys2Proof.Machine.execUpdCommit r flags s
  | .updAbort r => Sys2Proof.Machine.execUpdAbort r s
  | .updStatus r => Sys2Proof.Machine.execUpdStatus r s
  | .updRestart r => Sys2Proof.Machine.execUpdRestart r s
  | .updWaiver r allowance digest sigOk => Sys2Proof.Machine.execUpdWaiver r allowance digest sigOk s
  | .updTargetTimeout => Sys2Proof.Machine.execUpdTargetTimeout s
  | .udsSessionControl sub => Sys2Proof.Machine.execUdsSessionControl sub s
  | .udsEcuReset sub => Sys2Proof.Machine.execUdsEcuReset sub s
  | .udsReadDataById id => Sys2Proof.Machine.execUdsReadDataById id s
  | .udsRequestSeed => Sys2Proof.Machine.execUdsRequestSeed s
  | .udsSendKey sigOk => Sys2Proof.Machine.execUdsSendKey sigOk s
  | .udsSecurityLockoutEnd => Sys2Proof.Machine.execUdsSecurityLockoutEnd s
  | .udsRoutineControl sub id gyvin => Sys2Proof.Machine.execUdsRoutineControl sub id gyvin s
  | .udsRequestDownload format lenFormat target total => Sys2Proof.Machine.execUdsRequestDownload format lenFormat target total s
  | .udsTransferData counter data => Sys2Proof.Machine.execUdsTransferData counter data s
  | .udsRequestTransferExit => Sys2Proof.Machine.execUdsRequestTransferExit s
  | .udsTesterPresent sub => Sys2Proof.Machine.execUdsTesterPresent sub s
  | .udsS3Timeout => Sys2Proof.Machine.execUdsS3Timeout s
  | .basecampPortIdle => Sys2Proof.Machine.execBasecampPortIdle s
  | .belayFrameSend => Sys2Proof.Machine.execBelayFrameSend s
  | .belayEncoderTimeout => Sys2Proof.Machine.execBelayEncoderTimeout s
  | .belayFrameDecoded code => Sys2Proof.Machine.execBelayFrameDecoded code s
  | .belayPartnerLost => Sys2Proof.Machine.execBelayPartnerLost s
  | .twinGateDelay die => Sys2Proof.Machine.execTwinGateDelay die s
  | .twinGraceExpiry => Sys2Proof.Machine.execTwinGraceExpiry s
  | .healthReport vin vbk12 => Sys2Proof.Machine.execHealthReport vin vbk12 s
  | .standbySelftest test pass entry => Sys2Proof.Machine.execStandbySelftest test pass entry s
  | .twinStatus r => Sys2Proof.Machine.execTwinStatus r s
  | .twinHealth r which => Sys2Proof.Machine.execTwinHealth r which s
  | .twinBelayTest r frames => Sys2Proof.Machine.execTwinBelayTest r frames s
  | .belayTestDone => Sys2Proof.Machine.execBelayTestDone s
  | .logRead r store first count => Sys2Proof.Machine.execLogRead r store first count s
  | .logArchive r last => Sys2Proof.Machine.execLogArchive r last s
  | .logStatus r op => Sys2Proof.Machine.execLogStatus r op s
  | .logReadStones r => Sys2Proof.Machine.execLogReadStones r s
  | .logClearStones r => Sys2Proof.Machine.execLogClearStones r s
  | .stoneCopyDone stone => Sys2Proof.Machine.execStoneCopyDone stone s
  | .logSramEcc => Sys2Proof.Machine.execLogSramEcc s
  | .nandLogWriteFail => Sys2Proof.Machine.execNandLogWriteFail s

end Sys2Proof.Machine
end

