-- ==== Sys2Proof/Machine/Tick.lean ====
section
/-! DEFINITION. One period of the clock that drives `TB_COUNT` (R47, R86, R368): what the block does when no command waits. -/

namespace Sys2Proof.Machine

/-- `TB_COUNT` runs from the 32.768 kHz always-on clock: in Bivouac, and after a wake until the first of its edges after the
root PLL has locked (R47). -/
def State.aonCounts (s : State) : Bool := decide (s.sys.bivouac = .asleep) || s.sys.fromBivouac

/-- What one period adds to the count, and the fraction accumulator after it (R47, Table 13.1). -/
def State.advance (s : State) : Nat × Nat :=
  if s.aonCounts then
    let f := s.tb.bivFrac + 35
    if 64 ≤ f then (18311, f - 64) else (18310, f)
  else if s.sys.rootLock && !s.sys.onRef then (1, s.tb.bivFrac)
  else (24, s.tb.bivFrac)

/-- `PD_TB` is powered while the logic supply holds. -/
def State.tbPowered (s : State) : Bool := decide (s.sys.phase ≠ .unpowered)

/-- The manager firmware runs and has its 1 ms beat (R86). -/
def State.beats (s : State) (c : Nat) : Bool :=
  s.mgrUp && decide (s.tb.count.toNat / 600000 < (s.tb.count.toNat + c) / 600000)

/-- The edge after which `TB_COUNT` counts at CLK_FAB again (R47). -/
def State.aonEnds (s : State) : Bool := s.sys.fromBivouac && s.sys.rootLock && decide (s.sys.bivouac ≠ .asleep)

/-- A signal on source 1: it is pending in a domain where the source is active (R388); sources 2 to 63 have none. -/
def Aplic.signal (a : Aplic) : Aplic := if a.active.getLsbD 1 then { a with pend := a.pend ||| 2 } else a

/-- A domain that delivers sends its pending source 1 as an MSI: the identity becomes pending in the target's file. -/
def Aplic.deliver (a : Aplic) (f : Tbl Imsic) : Aplic × Tbl Imsic :=
  if a.ie && a.pend.getLsbD 1 && a.en.getLsbD 1 then
    let t := a.target.getD (0, 0, 0) 1
    ({ a with pend := a.pend &&& ~~~2 },
      f.modify .reset (16 * t.1 + t.2.1) (fun x => if within 1 255 t.2.2 then { x with pend := x.pend ||| BitVec.ofNat 256 (2 ^ t.2.2) } else x))
  else (a, f)

/-- The status page has been updated: source 1 of the APLIC signals it (R86, R388). -/
def AppState.pageUpdate (a : AppState) : AppState :=
  let m := a.machine.signal.deliver a.imsic
  let v := a.supervisor.signal.deliver m.2
  { a with machine := m.1, supervisor := v.1, imsic := v.2 }

/-- The application cluster runs. -/
def State.appOn (s : State) : Bool := s.sys.appReleased && !s.sys.appStopped

def tick (s : State) : State :=
  if !s.tbPowered then s
  else
    let a := s.advance
    { s with tb := { s.tb with count := s.tb.count + BitVec.ofNat 64 a.1, bivFrac := a.2 }
             sys := { s.sys with heartbeat := if s.beats a.1 then s.sys.heartbeat + 1 else s.sys.heartbeat
                                 app := if s.beats a.1 && s.appOn then s.sys.app.pageUpdate else s.sys.app
                                 fromBivouac := s.sys.fromBivouac && !s.aonEnds } }

end Sys2Proof.Machine
end

