-- ==== Sys2Proof/Safety.lean ====
section
/-! DEFINITION. The words in which statements about the ZM9 are made: the parts of the state and what leaves them alone, what a
request must be to be carried out, and the invariants that every step keeps. -/

namespace Sys2Proof.Machine

/-- The parts of the state, one for each chapter's state. -/
inductive Part where
  | sys | mbx | log | tb | vz | saf | cfg | ch | rfx | twin | brg | fio | ring | esw | net | sig | key | upd | uds | bus | free | pending
  deriving DecidableEq, Repr

/-- Part `p` is the same in `t` as in `s`. -/
def Part.same (s t : State) : Part → Prop
  | .sys => t.sys = s.sys | .mbx => t.mbx = s.mbx | .log => t.log = s.log | .tb => t.tb = s.tb | .vz => t.vz = s.vz
  | .saf => t.saf = s.saf | .cfg => t.cfg = s.cfg | .ch => t.ch = s.ch | .rfx => t.rfx = s.rfx | .twin => t.twin = s.twin
  | .brg => t.brg = s.brg | .fio => t.fio = s.fio | .ring => t.ring = s.ring | .esw => t.esw = s.esw | .net => t.net = s.net
  | .sig => t.sig = s.sig | .key => t.key = s.key | .upd => t.upd = s.upd | .uds => t.uds = s.uds | .bus => t.bus = s.bus
  | .free => t.free = s.free | .pending => t.pending = s.pending

/-- From `s` to `t` only the parts in `w` may have changed. -/
structure Frame (w : List Part) (s t : State) : Prop where
  same : ∀ p, p ∉ w → p.same s t

/-- Every part that `v` names is named in `w`. -/
def Part.sub (v w : List Part) : Bool := v.all (fun p => decide (p ∈ w))

/-- Whatever next state the outcome is, only the parts in `w` may have changed. -/
def Framed (w : List Part) (s : State) (r : Result) : Prop := ∀ t, r = .next t → Frame w s t

/-! ### What a command does -/

/-- The command has a next state, and `post` says what it is. -/
def Gives (c : Instr) (s : State) (post : State → Prop) : Prop := ∃ t, exec c s = .next t ∧ post t

/-- The request is answered at once with a code, a status and data, in the state `u` that the command leaves, and `post` says what
`u` is. -/
def Answers (c : Instr) (r : Req) (code status : U16) (data : List Byte) (s : State) (post : State → Prop) : Prop :=
  ∃ u, exec c s = .next (respond r code status data u) ∧ post u

/-- The command has a next state that is one cycle of the reflex engine after the state `u` that the command itself leaves (R202), and
`post` says what `u` is. -/
def GivesEval (c : Instr) (s : State) (post : State → Prop) : Prop := ∃ u, exec c s = .next (evalRules u) ∧ post u

/-- The request is answered at once in a state that is one cycle of the reflex engine after the state `u` that the command itself leaves
(R202), and `post` says what `u` is. -/
def AnswersEval (c : Instr) (r : Req) (code status : U16) (data : List Byte) (s : State) (post : State → Prop) : Prop :=
  ∃ u, exec c s = .next (respond r code status data (evalRules u)) ∧ post u

/-- A fault does not release the rope-team role: the module holds none, is in no team, or has no `REL_ON_FAULT` (Table 16.5). -/
def State.keepsRole (s : State) : Bool :=
  !s.cfg.image.twin.en || !s.cfg.image.twin.relOnFault || decide (s.twin.role ≠ .holder)

/-- Channel `i`, a bridge under the index of its first half, has tripped in its die (R99, R103): it is off, the trip is counted, and it
has latched or waits for its retry. -/
structure Tripped (i cause : Nat) (s t : State) : Prop where
  out : (t.chan i).out = .off
  src : (t.chan i).src = 6
  why : (t.chan i).cause = if s.sys.mode = .bivouac then 11 else cause
  count : (t.chan i).tripCount = satInc 0xFFF (s.chan i).tripCount
  latched : (t.chan i).grd.latched = (s.chan i).tripLatches (s.chInHold i) (decide (s.sys.mode = .bivouac)) cause
  waiting : (t.chan i).grd.waiting = !(s.chan i).tripLatches (s.chInHold i) (decide (s.sys.mode = .bivouac)) cause
  retries : (t.chan i).grd.retries = (s.chan i).grd.retries +
    (if (s.chan i).tripLatches (s.chInHold i) (decide (s.sys.mode = .bivouac)) cause then 0 else 1)
  others : ∀ j, j ≠ i → t.chan j = s.chan j
  frame : Frame [.mbx, .log, .vz, .ch, .sig, .free] s t

/-- A request that came in on an open port, has header version 1 and a payload of `n` bytes, and holds 0 in every field that the
manual shows as "—" (Table 3.2, R9, R72). -/
structure Requested (s : State) (r : Req) (p : Port) (n : Nat) : Prop where
  port : s.port? r.port = some p
  version : r.version = 1
  len : r.len = n
  zero : r.resvZero = true

/-- The port may use a resource of VZF `v`: it has system privilege or is bound to that VZF (R62). -/
def Port.mayUse (p : Port) (v : Option Nat) : Prop := p.sysPriv = true ∨ (v.isSome = true ∧ v = p.vzf)

/-- A priority that a mailbox command of the port may carry: 0 to 15, and within the cap of its VZF unless it has system privilege
(R97). -/
def Port.mayPrio (s : State) (p : Port) (prio : Nat) : Prop :=
  prio ≤ 15 ∧ (p.sysPriv = true ∨ ∀ v, p.vzf = some v → prio ≤ (s.vzf v).tpl.maxPrio)

/-! ### What every step keeps -/

/-- Every addressed buffer that the block holds is in its canonical form: the tightly coupled memories of the pairs, the two configuration
banks, the image copies, and what an update has staged. -/
structure State.Canonical (s : State) : Prop where
  tcm : ∀ p, (s.pair p).tcm.wf = true
  bankA : s.cfg.bankA.bytes.wf = true
  bankB : s.cfg.bankB.bytes.wf = true
  copies : ∀ cls b, (s.copy cls b).bytes.wf = true
  staged : ∀ x, s.upd.open_ = some x → x.bytes.wf = true
  checked : ∀ v, s.upd.verifying = some v → v.target.bytes.wf = true
  ready : ∀ b k, s.upd.bankReady = some (b, k) → k.bytes.wf = true

/-- The module is in self-arrest, or its logic does not run (R208). -/
def State.calm (s : State) : Prop := s.rfx.arrested = true ∨ s.sys.phase ≠ .running

end Sys2Proof.Machine
end

