-- ==== Sys2Proof/Certificates/Slice0/Obligations.lean ====
section
/-! DEFINITION. The statements for the provers. A clause "`Gives c s post`" says that command `c` has a next state in `s` and what it
holds; "`Answers …`" says so of a mailbox request that is answered at once. -/

open Sys2Proof Sys2Proof.Machine

/-- The supply of the logic, its clock and its temperature (chapter 1, R28, R50, R154, R500): a valid supply leads to Start-up,
losing it to Off, a failing feed to the reset that ends in Start-up, a low feed is reported once, and the logic die held in reset or
tripped waits in Start-up. That the clock monitor leaves Basecamp in force is the model's reading (log entry 17), and so is the mode of
a feed that fails in Bivouac (log entry 14).
The baseplate (R93, R500): above 88 °C one event an episode, above 95 °C the loss limit falls by 3.2 W for each kelvin (in 0.1 °C
and mW), and below 93 °C and 85 °C the episodes end. -/
def Obligations.SupplyAndTemperatureMoveTheModule : Prop :=
  (∀ s : State, s.sys.phase = .unpowered →
    Gives .logicSupplyValid s (fun t => t.sys.phase = .waiting ∧ t.sys.mode = .startup ∧ t.sys.porPending = true ∧ Frame [.sys] s t)) ∧
  (∀ s : State, Gives .powerLoss s (fun t => t.sys.phase = .unpowered ∧ t.sys.mode = .off ∧ t.sys.porPending = true ∧
    t.brg.pairOn = false ∧ t.sys.pairClass = none)) ∧
  (∀ s : State, s.mgrUp = true → s.sys.logicLowRaised = false →
    Gives .logicFeedLow s (fun t => t.sys.logicLowRaised = true ∧ Frame [.sys, .mbx, .log, .vz] s t)) ∧
  (∀ s : State, s.mgrUp = true → s.sys.logicLowRaised = true → exec .logicFeedLow s = .next s) ∧
  (∀ s : State, s.sys.phase ≠ .unpowered → s.sys.mode ≠ .off → s.sys.mode ≠ .bivouac →
    Gives .logicFeedFail s (fun t => t.sys.phase = .unpowered ∧ t.sys.mode = .startup ∧ t.sys.porPending = true ∧
      t.sys.startTrigger = if s.sys.mode = .limp ∨ s.sys.mode = .basecamp then 0x10 else 0x0F)) ∧
  (∀ s : State, s.sys.phase ≠ .unpowered → (s.sys.mode = .off ∨ s.sys.mode = .bivouac) →
    Gives .logicFeedFail s (fun t => t.sys.phase = .unpowered ∧ t.sys.mode = .off ∧ t.sys.porPending = true ∧ t.sys.startTrigger = 1)) ∧
  (∀ s : State, s.sys.phase = .unpowered → exec .logicFeedFail s = .next s) ∧
  (∀ s : State, s.mgrUp = true → s.sys.rootLock = true → s.sys.mode ≠ .basecamp →
    Gives .clockMonitorTrip s (fun t => t.sys.monTrip = true ∧ t.sys.onRef = true ∧ t.sys.mode = .startup ∧ t.sys.phase = .waiting ∧
      t.sys.startTrigger = 0x0E)) ∧
  (∀ s : State, s.mgrUp = true → s.sys.rootLock = true → s.sys.mode = .basecamp →
    Gives .clockMonitorTrip s (fun t => t.sys.monTrip = true ∧ t.sys.onRef = true ∧ t.sys.mode = .basecamp ∧
      (t.canCh 0).record = romCanRecord false)) ∧
  (∀ (temp : Int) (s : State), s.mgrUp = true →
    Gives (.logicDieOvertemp temp) s (fun t => t.sys.dieHot = true ∧ t.sys.mode = .startup ∧ t.sys.phase = .waiting)) ∧
  (∀ s : State, Gives .logicDieCooled s (fun t => t.sys.dieHot = false ∧ Frame [.sys] s t)) ∧
  (∀ (temp : Int) (s : State), s.mgrUp = true →
    Gives (.baseplateHot temp) s (fun t => t.sys.hotEpisode = true ∧ t.sys.baseTemp = temp ∧ Frame [.sys, .mbx, .log, .vz] s t)) ∧
  (∀ (temp : Int) (s : State), s.mgrUp = true → 950 < temp →
    Gives (.baseplateOvertemp temp) s (fun t => t.sys.overEpisode = true ∧ t.sys.baseTemp = temp ∧
      t.sys.lossLimitMw = 32000 - 320 * (temp - 950).toNat ∧ Frame [.sys, .mbx, .log, .vz] s t)) ∧
  (∀ (temp : Int) (s : State), temp < 850 →
    Gives (.baseplateCooled temp) s (fun t => t.sys.overEpisode = false ∧ t.sys.hotEpisode = false ∧ t.sys.lossLimitMw = 32000 ∧
      Frame [.sys] s t)) ∧
  (∀ (temp : Int) (s : State), 850 ≤ temp → temp < 930 →
    Gives (.baseplateCooled temp) s (fun t => t.sys.overEpisode = false ∧ t.sys.hotEpisode = s.sys.hotEpisode ∧
      t.sys.lossLimitMw = 32000 ∧ Frame [.sys] s t))

/-- The start (Table 2.4, R36, R38, R41, R49): the reset release counts the start; once the root PLL locks, the ROM clears the measurement
registers and goes on with its steps, or enters Basecamp after three failed starts in a row. -/
def Obligations.ResetReleaseBeginsTheStart : Prop :=
  (∀ (f : StartFacts) (s : State), s.sys.phase = .waiting → s.sys.mode = .startup → s.sys.dieHot = false →
    Gives (.resetRelease f) s (fun u => u.sys.facts = some f ∧ u.sys.step = 1 ∧
      u.sys.bootCount = s.sys.bootCount + 1 ∧ u.sys.heartbeat = 0 ∧ u.sys.phase = .running ∧ u.sys.porPending = false ∧
      u.sys.failedStarts = (if s.sys.reached then 0 else s.sys.failedStarts + 1) ∧
      (s.sys.porPending = true → u.tb.count = 0) ∧ (s.sys.porPending = false → u.tb.count = s.tb.count) ∧
      Frame [.sys, .mbx, .log, .tb, .vz, .ch, .upd] s u)) ∧
  (∀ (f : StartFacts) (s u : State), s.starting = true → s.sys.rootLock = false → s.sys.facts = some f → s.sys.step < 4 →
    u = startKeys f { s with sys := { s.sys with rootLock := true, onRef := false, step := 4 } } →
    u.key.mrs = List.replicate 8 (zeros 48) ∧ u.key.trngFail = !f.trngOk ∧
    Gives .rootPllLock s (fun t => t = advance
      (if 3 ≤ u.sys.failedStarts then basecampEnter stat_bootLoop (raise evt_bootLoop noInst .wide [] u) else startRom f u))) ∧
  (∀ (f : StartFacts) (s : State), s.sys.phase ≠ .waiting → exec (.resetRelease f) s = .next s)

/-- The events on which a start waits (R15, R38, R39, R41, R49, R57, R393, R395): each notes what it reports and lets the start advance
as far as its conditions hold.
Table 2.4 steps 13 and 14 (R28, R31, R38): with its conditions met the start loads the rules, and a table
that its read-back refuses restarts it (R215, R216); when the configuration is proven the
module enters Run, or Limp where self-arrest is in force or too few pairs are healthy. -/
def Obligations.StartEventsAndProof : Prop :=
  (∀ s : State, s.starting = true → s.sys.rootLock = false →
    Gives .rootPllLock s (fun t => t = advance (startGoesOn { s with sys := { s.sys with rootLock := true, onRef := false } }))) ∧
  (∀ s : State, s.mgrUp = true → s.sys.mode = .basecamp → s.sys.rootLock = false → s.sys.basecampStatus ≠ stat_clkFail →
    Gives .rootPllLock s (fun t => t.sys = { s.sys with rootLock := true, onRef := false } ∧ (t.canCh 0).record = romCanRecord true ∧
      Frame [.sys, .net] s t)) ∧
  (∀ s : State, s.starting = true → s.sys.rootLock = false →
    Gives .pllLockTimeout s (fun t => t = basecampEnter stat_clkFail
      (raise evt_clkPllFail noInst .wide [] (startRoot { s with sys := { s.sys with fromBivouac := false } })))) ∧
  (∀ (g : Fin 8) (s : State), s.starting = true → 0 < (s.die g).tables →
    Gives (.powerDieTableAck g) s (fun t => t = advance (s.modDie g (fun d => { d with acked := true })))) ∧
  (∀ (g : Fin 8) (s : State), s.starting = true → 8 ≤ s.sys.step → (s.die g).acked = false →
    Gives (.pdlAckTimeout g) s (fun t => t = raise evt_pdlNoAck noInst .wide [] s)) ∧
  (∀ (g : Fin 8) (s : State), s.starting = true → 8 ≤ s.sys.step → (s.die g).acked = false →
    Gives (.pdlAckRetry g) s (fun t => (t.die g).tables = (s.die g).tables + 1 ∧ Frame [.ch] s t)) ∧
  (∀ s : State, s.starting = true → 8 ≤ s.sys.step → s.sys.proven = false →
    Gives (.vinClassCheck true) s (fun t =>
      t = advance (urgent { s with sys := { s.sys with holdOff := false, vinChecked := true } }))) ∧
  (∀ s : State, s.starting = true → 8 ≤ s.sys.step → s.sys.proven = false → s.sys.holdOff = false →
    Gives (.vinClassCheck false) s (fun t => t = advance (raise evt_boardnetMismatch noInst .wide []
      (enterStopped (urgent { s with sys := { s.sys with holdOff := true, vinChecked := false } }))))) ∧
  (∀ (p : Fin 4) (s : State), s.starting = true → 10 ≤ s.sys.step → (s.pair p).tested = false →
    Gives (.pairInjectionTestDone p true) s (fun t =>
      t = advance (placeParts (s.modPair p (fun x => { x with tested := true, healthy := true }))))) ∧
  (∀ (p : Fin 4) (s : State), s.starting = true → 10 ≤ s.sys.step → (s.pair p).tested = false →
    Gives (.pairInjectionTestDone p false) s (fun t => t = advance (placeParts
      (raiseSaf evt_pairTestFail p [] (s.modPair p (fun x => { x with tested := true, healthy := false })))))) ∧
  (∀ s : State, s.starting = true → 10 ≤ s.sys.step →
    Gives .safetyClusterServing s (fun t => ∃ u, t = advance u ∧ u.saf.serving = true ∧ Frame [.saf] s u ∧
      ∀ p, (u.pair p).healthy = (s.pair p).healthy)) ∧
  (∀ s : State, s.mgrUp = true → s.sys.mode.isServing = true → 8 ≤ s.sys.step → s.sys.ddrTrained = false →
    Gives .ddrTrainingDone s (fun t => t.sys.ddrTrained = true ∧ t.sys.appReleased = !s.sys.appStopped ∧ Frame [.sys, .key] s t)) ∧
  (∀ s : State, s.starting = true → s.sys.wake.por = true →
    Gives .forcedBasecampCheck s (fun t => t = basecampEnter stat_forced (startRoot s))) ∧
  (∀ s : State, s.readyForRules = false → s.provable = false → advance s = s) ∧
  (∀ (f : StartFacts) (s : State), s.readyForRules = true → s.sys.facts = some f → f.tableOk = false →
    advance s = ruleFault s.digestDetail s.draw) ∧
  (∀ (f : StartFacts) (s : State), s.readyForRules = true → s.sys.facts = some f → f.tableOk = true →
    (startTables s).provable = false → advance s = startTables s) ∧
  (∀ s : State, s.provable = true → s.readyForRules = false → s.rfx.safeN = false → s.rfx.arrested = true →
    advance s = evalRules (limpEntry trigArrest { s with sys := { s.sys with proven := true, step := 14 } })) ∧
  (∀ s : State, s.provable = true → s.readyForRules = false → s.rfx.safeN = false → s.rfx.arrested = false →
    s.healthyPairs < s.cfg.image.aPairs →
    advance s = evalRules (limpEntry trigPairs { s with sys := { s.sys with proven := true, step := 14 } })) ∧
  (∀ s : State, s.provable = true → s.readyForRules = false → s.rfx.safeN = false → s.rfx.arrested = false →
    s.cfg.image.aPairs ≤ s.healthyPairs →
    advance s = evalRules (runEntry { s with sys := { s.sys with proven := true, step := 14 } }))

/-- What takes the ZM9 out of Run (R33, R45, R215, R216, R470, R507): the loss of the reflex engine or of PD_FAB1, the watchdog, a
rule-table fault and the Workshop time-out restart it; the loss of another Run-service item self-arrests. -/
def Obligations.IntegrityEventsRestartOrArrest : Prop :=
  (∀ (item : RunItem) (s : State), s.mgrUp = true → s.sys.mode.isServing = true → (item = .rfx ∨ item = .fab1) →
    Gives (.runServiceLoss item) s (fun t => t.sys.mode = .startup ∧ t.sys.phase = .waiting ∧ t.sys.startTrigger = 0x0E ∧
      t.rfx.arrested = false)) ∧
  (∀ (item : RunItem) (s : State), s.mgrUp = true → s.sys.mode = .run → item ≠ .rfx → item ≠ .fab1 →
    Gives (.runServiceLoss item) s (fun t => t = selfArrest 4 (le16 (Config.runItem (runItemIndex item))) s)) ∧
  (∀ s : State, s.mgrUp = true → s.sys.mode.isServing = true →
    Gives .managerWatchdog s (fun t => t.sys.mode = .startup ∧ t.sys.phase = .waiting ∧ t.sys.startTrigger = 0x0E ∧
      t.sys.wake.restart = true)) ∧
  (∀ s : State, s.sys.mode = .workshop →
    Gives .workshopInactivityTimeout s (fun t => t.sys.mode = .startup ∧ t.sys.prevMode = .workshop ∧ t.sys.phase = .waiting ∧
      t.sys.startTrigger = 9 ∧ t.sys.wake.restart = true)) ∧
  (∀ (corrected : U16) (s : State), s.rfx.enabled = true → s.mgrUp = true →
    Gives (.ruleTableCheck true corrected) s (fun t =>
      t.rfx = { s.rfx with corrected := s.rfx.corrected + corrected.toNat, checked := true } ∧ Frame [.rfx] s t)) ∧
  (∀ (ok : Bool) (corrected : U16) (s : State), s.rfx.enabled = false → exec (.ruleTableCheck ok corrected) s = .next s) ∧
  (∀ (corrected : U16) (s : State), s.rfx.enabled = true → s.mgrUp = true →
    Gives (.ruleTableCheck false corrected) s (fun t => t.sys.mode = .startup ∧ t.sys.phase = .waiting ∧ t.sys.startTrigger = 0x0E)) ∧
  (∀ (rule : Fin 1024) (s : State), s.rfx.enabled = true → s.mgrUp = true →
    Gives (.ruleTableEccError rule) s (fun t => t.sys.mode = .startup ∧ t.sys.phase = .waiting ∧ t.sys.startTrigger = 0x0E))

/-- `SAFE_N`, the limp-table timer and the windows of edge predicates (R181, R201, R210, R213); a change of `SAFE_N` is an edge of
capture source 0x200.
The first self-arrest of a start (R212, R213): the latch is set with its source, and from Run or Workshop the mode is Limp; a further
trigger changes nothing but raises its event. -/
def Obligations.SafeNLimpTimerAndSelfArrest : Prop :=
  (∀ (low : Bool) (s : State), safeNTo low s = captureLevel 0x200 (!s.rfx.safeN) (!low) { s with rfx := { s.rfx with safeN := low } } ∧
    (safeNTo low s).rfx = { s.rfx with safeN := low } ∧ Frame [.rfx, .tb, .mbx, .log, .vz] s (safeNTo low s)) ∧
  (∀ s : State, s.rfx.enabled = false → Gives .safeNAssert s (fun t => t = safeNTo true s)) ∧
  (∀ s : State, s.rfx.enabled = true → s.rfx.sna = true → Gives .safeNAssert s (fun t =>
    t = evalRules (selfArrest 1 [] (safeNTo true s)))) ∧
  (∀ s : State, s.rfx.enabled = true → s.rfx.sna = false → Gives .safeNAssert s (fun t => t = evalRules (safeNTo true s))) ∧
  (∀ s : State, Gives .safeNRelease s (fun t => t = evalRules (safeNTo false s))) ∧
  (∀ s : State, s.rfx.enabled = false → Gives .safeNRelease s (fun t => t = safeNTo false s)) ∧
  (∀ s : State, s.rfx.arrested = true → s.mgrUp = true → (s.sys.mode = .limp ∨ s.sys.mode = .workshop) → s.rfx.noLimp = false →
    s.rfx.limpApplied = false →
    Gives .limpTableTimer s (fun t => t = pushAll { s with rfx := { s.rfx with limpDue := true, limpApplied := true } })) ∧
  (∀ s : State, s.rfx.arrested = true → s.mgrUp = true → s.sys.mode ≠ .limp → s.sys.mode ≠ .workshop →
    Gives .limpTableTimer s (fun t => t.rfx.limpDue = true ∧ Frame [.rfx] s t)) ∧
  (∀ (rule : Fin 1024) (slot : Fin 4) (s : State), Gives (.edgeWindowEnd rule slot) s (fun t =>
    t = evalRules (s.modRule rule.val (fun x => { x with edge := x.edge.set slot.val false })))) ∧
  (∀ (source : Nat) (detail : List Byte) (s : State), s.mgrUp = true → s.rfx.arrested = false →
    (selfArrest source detail s).rfx.arrested = true ∧ (selfArrest source detail s).rfx.source = source) ∧
  (∀ (source : Nat) (detail : List Byte) (s : State), s.mgrUp = true → s.rfx.arrested = false →
    (s.sys.mode = .run ∨ s.sys.mode = .workshop) → (selfArrest source detail s).sys.mode = .limp) ∧
  (∀ (source : Nat) (detail : List Byte) (s : State), s.mgrUp = true → s.rfx.arrested = true →
    Frame [.mbx, .log, .vz] s (selfArrest source detail s))

/-- Bivouac entry and its end (R34, R35, R169): with the ring's and the bridge's consent the wake record clears and the entry begins;
when the entry is done the logic is held and only `PD_AON` and `PD_TB` are powered, unless a wake was latched.
What a wake source does asleep, in step 4 of the entry, and awake (R35, R36, R258, R260, R323, R382). -/
def Obligations.BivouacAndItsWakeSources : Prop :=
  (∀ (s : State) (r : Req) (p : Port), Requested s r p 0 → p.sysPriv = true → s.sys.mode = .run → s.sleepReady = true →
    Answers (.sysSleep r) r 0x0122 stat_ok [] s (fun u => u = bivouacEnter 0x0A s ∧ u.sys.bivouac = .entering ∧
      u.sys.wake = .zero ∧ u.sys.startTrigger = 0x0A ∧ u.sys.mode = .run)) ∧
  (∀ (s : State) (r : Req) (p : Port), Requested s r p 0 → p.sysPriv = true → s.sys.mode = .run → s.sleepReady = false →
    Answers (.sysSleep r) r 0x0122 stat_badState [] s (fun u => u = s)) ∧
  (∀ s : State, s.autoReady = true → s.sleepReady = true →
    Gives .autoSleep s (fun t => t = bivouacEnter 0x0B s ∧ t.sys.bivouac = .entering ∧ t.sys.wake = .zero ∧ t.sys.startTrigger = 0x0B)) ∧
  (∀ s : State, s.sys.bivouac = .switching → s.sys.wakeLatched = false →
    Gives .bivouacEntryDone s (fun t => t.sys.bivouac = .asleep ∧ t.sys.phase = .waiting ∧ t.sys.domains = [pdAon, pdTb] ∧
      t.tb.bivFrac = 0 ∧ t.tb.count = s.tb.count)) ∧
  (∀ s : State, s.sys.bivouac = .switching → s.sys.wakeLatched = true →
    Gives .bivouacEntryDone s (fun t => t.sys.mode = .startup ∧ t.sys.prevMode = .bivouac ∧ t.sys.startTrigger = 0x0C ∧
      t.sys.fromBivouac = true ∧ t.sys.bivouac = .none)) ∧
  (∀ s : State, s.sys.bivouac = .asleep →
    Gives .wakeNAssert s (fun t => t.sys.wake.wakePin = true ∧ t.sys.mode = .startup ∧ t.sys.startTrigger = 0x0C ∧ Frame [.sys] s t)) ∧
  (∀ s : State, s.sys.bivouac = .switching →
    Gives .wakeNAssert s (fun t => t.sys.wake.wakePin = true ∧ t.sys.wakeLatched = true ∧ t.sys.mode = s.sys.mode ∧ Frame [.sys] s t)) ∧
  (∀ s : State, s.sys.bivouac = .none → s.mgrUp = true →
    Gives .wakeNAssert s (fun t => t.sys.wakeReq = true ∧ t.ring.consentCmd = false ∧ Frame [.sys, .ring] s t)) ∧
  (∀ (p : Fin 8) (s : State), s.sys.bivouac = .asleep → s.cfg.image.domains.contains (pdPort p.val) = true →
    Gives (.portTc10Wake p) s (fun t => t.sys.wake.portP = s.sys.wake.portP ||| BitVec.ofNat 8 (2 ^ p.val) ∧ t.sys.mode = .startup ∧
      Frame [.sys] s t)) ∧
  (∀ s : State, s.sys.bivouac = .asleep →
    Gives (.ringTc10Wake 0) s (fun t => t.sys.wake.ringE = true ∧ t.sys.mode = .startup ∧
      t.ring.tc10 = (if s.ringSec.wakeFwd then [otherPort 0] else s.ring.tc10) ∧ Frame [.sys, .ring] s t)) ∧
  (∀ s : State, s.sys.bivouac = .asleep →
    Gives (.ringTc10Wake 1) s (fun t => t.sys.wake.ringW = true ∧ t.sys.mode = .startup ∧
      t.ring.tc10 = (if s.ringSec.wakeFwd then [otherPort 1] else s.ring.tc10) ∧ Frame [.sys, .ring] s t)) ∧
  (∀ s : State, s.sys.bivouac = .asleep → s.tb.alarm.isSome = true → s.mgrUp = false →
    Gives .rtcAlarmExpiry s (fun t => t.tb.alarm = none ∧ t.sys.wake.rtc = true ∧ t.sys.mode = .startup ∧ Frame [.sys, .tb] s t)) ∧
  (∀ s : State, s.sys.bivouac = .none → s.tb.alarm.isSome = true → s.mgrUp = true →
    Gives .rtcAlarmExpiry s (fun t => t = raise evt_timeRtcAlarm noInst .wide [] { s with tb := { s.tb with alarm := none } })) ∧
  (∀ (n : Fin 16) (mv : Int) (s : State) (r : DiVal), s.sys.bivouac = .asleep → s.fio.cycMask.getLsbD n.val = true →
    (s.fio.cyc.getD .reset n.val).ref = some r → ((DiInput.reset.restart (s.fio.cyc.getD .reset n.val).rec_).compare mv).raw ≠ r →
    s.fio.cycK ≤ (s.fio.cyc.getD .reset n.val).differ + 1 →
    Gives (.cyclicSenseSample n mv) s (fun t => t.sys.wake.di = true ∧ t.sys.mode = .startup ∧
      t.fio.waking = s.fio.waking ||| BitVec.ofNat 16 (2 ^ n.val) ∧ Frame [.sys, .fio] s t)) ∧
  (∀ (n : Fin 16) (mv : Int) (s : State) (r : DiVal), s.sys.bivouac = .asleep → s.fio.cycMask.getLsbD n.val = true →
    (s.fio.cyc.getD .reset n.val).ref = some r → ((DiInput.reset.restart (s.fio.cyc.getD .reset n.val).rec_).compare mv).raw = r →
    Gives (.cyclicSenseSample n mv) s (fun t => (t.fio.cyc.getD .reset n.val).differ = 0 ∧ Frame [.fio] s t)) ∧
  (∀ (c : Fin 16) (f : Option CanFrame) (s : State), (s.canCh c.val).xcvr = .lowPower → (s.canCh c.val).waking = false →
    (s.canCh c.val).record.wake = 1 → s.sys.bivouac = .asleep →
    Gives (.canLowPowerFrame c true f) s (fun t => t.sys.wake.can = s.sys.wake.can ||| BitVec.ofNat 16 (2 ^ c.val) ∧
      t.sys.mode = .startup ∧ (t.canCh c.val).waking = true ∧ Frame [.sys, .net] s t)) ∧
  (∀ s : State, s.ring.phase = .active → s.ring.sleepAt ≠ 0 → s.sys.bivouac ≠ .entering →
    Gives .ringSleep s (fun t => t.ring.phase = .active ∧ t.ring.tc10 = [0, 1] ∧ t.sys.wakeReq = true ∧ Frame [.sys, .ring] s t)) ∧
  (∀ s : State, s.ring.phase = .active → s.ring.sleepAt ≠ 0 → s.sys.bivouac = .entering →
    Gives .ringSleep s (fun t => t.ring.phase = .asleep ∧ t.ring.tc10 = [] ∧ t.sys.bivouac = .switching ∧ t.sys.mode = .bivouac))

/-- What arrives at a mailbox port and what its timers do (R66, R67, R68, R73, R84, R88, R89): fragments make messages, acknowledgements
and index writes move the port on, and a held item is sent again up to eight times. What a port
sends carries the time stamp of that moment. -/
def Obligations.MailboxEventsMoveTheirPort : Prop :=
  (∀ (n : Fin 512) (f : Fragment) (p : Port) (s : State), s.port? n.val = some p → p.kind ≠ .loc → s.ringServes = true →
    (p.addFragment f).whole = false → Gives (.mbxFragmentReceived n f) s (fun t =>
      t.port? n.val = some { p with part := some (p.addFragment f), clock := s.wireStamp } ∧ Frame [.mbx] s t)) ∧
  (∀ (n : Fin 512) (f : Fragment) (p : Port) (s : State), s.port? n.val = some p → p.kind ≠ .loc → (p.addFragment f).whole = true →
    s.sys.mode ≠ .basecamp →
    Gives (.mbxFragmentReceived n f) s (fun t => t = takeMsg n.val f.msg f.check (s.modPort n.val (fun p => { p with part := none })))) ∧
  (∀ (n : Fin 512) (p : Port) (s : State), s.port? n.val = some p →
    Gives (.mbxReassemblyTimeout n) s (fun t => t.port? n.val = some { p with part := none, clock := s.wireStamp } ∧ Frame [.mbx] s t)) ∧
  (∀ (v : Fin 256) (b : Fin 4) (index : U16) (msgs : List (HostMsg × MsgCheck)) (n : Nat) (p : Port) (s : State),
    s.localPort v.val b.val = some n → s.port? n = some p → s.vzfActive v.val = true → (index - p.reqCons).toNat ≤ 2 ^ p.depthLog2 →
    Gives (.vzfMbxReqProd v b index msgs false) s (fun t => t = (msgs.take (index - p.reqCons).toNat).foldl
      (fun s m => takeMsg n m.1 m.2 s) (s.modPort n (fun p => { p with reqProd := index, reqCons := index })))) ∧
  (∀ (v : Fin 256) (b : Fin 4) (index : U16) (msgs : List (HostMsg × MsgCheck)) (fault : Bool) (n : Nat) (p : Port) (s : State),
    s.localPort v.val b.val = some n → s.port? n = some p → s.vzfActive v.val = true → 2 ^ p.depthLog2 < (index - p.reqCons).toNat →
    Gives (.vzfMbxReqProd v b index msgs fault) s (fun t => t.port? n = some { p with prodErr := true, clock := s.wireStamp } ∧ Frame [.mbx] s t)) ∧
  (∀ (v : Fin 256) (b : Fin 4) (evt : Bool) (index : U16) (n : Nat) (p : Port) (s : State),
    s.localPort v.val b.val = some n → s.port? n = some p → s.vzfActive v.val = true →
    Gives (.mbxConsumerIndexWrite v b evt index) s (fun t => t.port? n = some ({ p with clock := s.wireStamp }.consume evt index) ∧ Frame [.mbx, .vz] s t)) ∧
  (∀ (n : Fin 512) (seq ack : U32) (p : Port) (s : State), s.port? n.val = some p →
    Gives (.hostControlAck n seq ack) s (fun t => t.port? n.val = some ({ p with clock := s.wireStamp }.takeAcks seq ack).resume ∧
      Frame [.mbx, .vz] s t)) ∧
  (∀ (n : Fin 512) (p : Port) (s : State), s.port? n.val = some p → p.kind ≠ .loc →
    Gives (.mbxAckTimer n) s (fun t => t.port? n.val = some { p with clock := s.wireStamp }.ackMsg ∧ Frame [.mbx] s t)) ∧
  (∀ (n : Fin 512) (p : Port) (s : State), s.port? n.val = some p → p.awaits = true →
    Gives (.epochRepeat n) s (fun t => t.port? n.val = some ({ p with clock := s.wireStamp }.control .epoch) ∧ Frame [.mbx, .vz] s t)) ∧
  (∀ (n : Fin 512) (evt : Bool) (seq : U32) (p : Port) (k : Nat) (s : State), s.port? n.val = some p → p.kind ≠ .loc →
    p.rtxStopped = false → p.retriesOf evt seq = some k → k < 8 →
    Gives (.mbxRetransmit n evt seq) s (fun t => t.port? n.val = some ({ p with clock := s.wireStamp }.retry evt seq) ∧ Frame [.mbx] s t)) ∧
  (∀ (n : Fin 512) (evt : Bool) (seq : U32) (p : Port) (s : State), s.port? n.val = some p → p.kind ≠ .loc →
    p.rtxStopped = false → p.retriesOf evt seq = some 8 →
    Gives (.mbxRetransmit n evt seq) s (fun t => t = raise evt_mbxPortStale n (.owned p.vzf) []
      (s.modPort n.val (fun p => { p with linkStale := true, rtxStopped := true })))) ∧
  (∀ (r : Req) (code : U16) (s : State), s.unknownCode code = true → r.version = 1 → r.len ≤ 4032 →
    Answers (.unknownCommand r code) r code stat_unknownCmd [] s (fun u => u = s))

/-- The SYS commands on ports (R78, R85, R504). -/
def Obligations.PortCommandsAnswer : Prop :=
  (∀ (s : State) (r : Req) (p : Port), Requested s r p 0 → s.sys.mode.isAwake = true →
    Answers (.sysResync r) r 0x0101 stat_ok (resyncBytes s p (s.mbx.sessions.getD 0 r.port + 1)) s (fun u =>
      ∃ q, u.port? r.port = some q ∧ q.awaits = false ∧ q.linkStale = false ∧ q.rtxStopped = false ∧ q.ctlCount = 0 ∧
        q.session = s.mbx.sessions.getD 0 r.port + 1 ∧ q.key = s.portKey p r.port q.session ∧
        q.reqSeq = p.reqSeq ∧ q.opens = p.opens ∧ Frame [.mbx] s u)) ∧
  (∀ (s : State) (r : Req) (p : Port) (rsp evt : U32) (a b : List U32), Requested s r p 8 → s.sys.mode.isAwake = true →
    replayList rsp p.rspSeq (p.rsps.map (·.seq)) = some a → replayList evt p.evtSeq (p.evts.map (·.seq)) = some b →
    Answers (.sysReplay r rsp evt) r 0x0102 stat_ok [] s (fun u =>
      u.port? r.port = some (b.foldl Port.resendEvt (a.foldl Port.resendRsp { p with clock := s.wireStamp })) ∧ Frame [.mbx, .vz] s u)) ∧
  (∀ (s : State) (r : Req) (p : Port) (cls : Byte) (mask : U32), Requested s r p 8 → s.sys.mode.isServing = true → cls.toNat ≤ 4 →
    Answers (.sysSubscribe r cls mask) r 0x0103 stat_ok [] s (fun u =>
      u.port? r.port = some { p with subClass := cls.toNat, subMask := mask, clock := s.wireStamp } ∧ Frame [.mbx] s u)) ∧
  (∀ (s : State) (r : Req) (p : Port) (data : List Byte), Requested s r p data.length → data.length ≤ 4032 → s.sys.mode.isAwake = true →
    Answers (.sysPing r data) r 0x0104 stat_ok data s (fun u => u = s)) ∧
  (∀ (s : State) (r : Req) (p : Port), Requested s r p 0 → s.sys.mode.isAwake = true →
    Answers (.sysGetInfo r) r 0x0105 stat_ok (le16 Config.partCode ++ [Config.stepCode] ++ zeros 5 ++ le64 s.key.serial
      ++ (List.range 6).flatMap (fun c => le32 (s.runningVersion c))) s (fun u => u = s)) ∧
  (∀ (s : State) (r : Req) (p : Port), Requested s r p 0 → s.sys.mode.isServing = true →
    Answers (.sysPortStats r) r 0x0106 stat_ok (n32 p.stats.accepted ++ n32 p.stats.refused ++ n32 p.stats.rateLimited
      ++ n32 p.stats.discarded ++ n32 p.stats.badAck ++ n32 p.stats.retransmitted) s (fun u => u = s)) ∧
  (∀ (s : State) (r : Req) (p q : Port) (port burst : U16) (rate : U32), Requested s r p 8 → p.sysPriv = true →
    s.sys.mode.isRunLimpWork = true → port.toNat ≤ 511 → 1 ≤ burst.toNat → burst.toNat ≤ 64 → 1000 ≤ rate.toNat →
    rate.toNat ≤ 200000 → s.port? port.toNat = some q →
    Answers (.sysSetRate r port burst rate) r 0x0107 stat_ok [] s (fun u =>
      (∃ x, u.port? port.toNat = some x ∧ x.rate = rate.toNat ∧ x.burst = burst.toNat ∧ x.tokens ≤ burst.toNat * tokenUnit) ∧
        Frame [.mbx] s u)) ∧
  (∀ (s : State) (r : Req) (p : Port) (port burst : U16) (rate : U32), Requested s r p 8 → p.sysPriv = false →
    Answers (.sysSetRate r port burst rate) r 0x0107 stat_denied [] s (fun u => u = s))

/-- The SYS commands on the mode (R32, R33, R57 to R60): a signed request over a fresh nonce uses it up and acts; a wrong signature is
refused and reported.
The CFG commands (R53, R54, R59, R60): one write session, its bytes, its commit, its end, reports, and the activation of the
committed bank. -/
def Obligations.ModeAndConfigurationCommandsAct : Prop :=
  (∀ (s : State) (r : Req) (p : Port) (nonce : Nat), Requested s r p 128 → p.sysPriv = true → (s.sys.mode = .run ∨ s.sys.mode = .limp) →
    s.nonceFresh nonce = true → s.slotServes 124 8 = true →
    Answers (.sysEnterWorkshop r nonce true) r 0x0120 stat_ok [] s (fun u => u = workshopEnter (useNonce nonce s) ∧
      u.sys.mode = .workshop ∧ u.sys.prevMode = s.sys.mode ∧ u.nonceFresh nonce = false)) ∧
  (∀ (s : State) (r : Req) (p : Port) (nonce : Nat), Requested s r p 128 → p.sysPriv = true → (s.sys.mode = .run ∨ s.sys.mode = .limp) →
    Answers (.sysEnterWorkshop r nonce false) r 0x0120 stat_authFail [] s (fun u =>
      u = raise evt_workshopDenied noInst .wide [] (useNonce nonce s) ∧ u.sys.mode = s.sys.mode)) ∧
  (∀ (s : State) (r : Req) (p : Port), Requested s r p 0 → p.sysPriv = true → s.sys.mode = .workshop →
    Gives (.sysLeaveWorkshop r) s (fun t => t.sys.mode = .startup ∧ t.sys.phase = .waiting ∧ t.sys.startTrigger = 6 ∧
      t.sys.wake.restart = true ∧ ∃ h, t.mbx.left = some (r.port, h) ∧ h.code = 0x0121 ∧ h.status = stat_ok ∧ h.tag = r.tag ∧ h.reqSeq = r.seq)) ∧
  (∀ (s : State) (r : Req) (p : Port) (nonce : Nat), Requested s r p 128 → p.sysPriv = true →
    (s.sys.mode = .limp ∨ s.sys.mode = .workshop ∨ s.sys.mode = .basecamp) → s.nonceFresh nonce = true → s.slotServes 124 8 = true →
    Gives (.sysRestart r nonce true) s (fun t => t.sys.mode = .startup ∧ t.sys.phase = .waiting ∧ t.sys.startTrigger = 7 ∧
      t.sys.wake.restart = true ∧ ∃ h, t.mbx.left = some (r.port, h) ∧ h.code = 0x0123 ∧ h.status = stat_ok ∧ h.tag = r.tag ∧ h.reqSeq = r.seq)) ∧
  (∀ (s : State) (r : Req) (p : Port) (nonce : Nat), Requested s r p 128 → p.sysPriv = true →
    (s.sys.mode = .limp ∨ s.sys.mode = .workshop ∨ s.sys.mode = .basecamp) →
    Answers (.sysRestart r nonce false) r 0x0123 stat_authFail [] s (fun u => u = useNonce nonce s ∧ u.nonceFresh nonce = false)) ∧
  (∀ (s : State) (r : Req) (p : Port), Requested s r p 0 → p.sysPriv = true → s.sys.mode = .workshop →
    Gives (.sysEnterBasecamp r) s (fun t => t = basecampEnter stat_ok (leaveRsp r 0x0124 s) ∧ t.sys.mode = .basecamp ∧
      t.rfx.arrested = true ∧ t.sys.basecampStatus = stat_ok ∧ t.sys.domains = basecampDomains ∧
      ∃ h, t.mbx.left = some (r.port, h) ∧ h.code = 0x0124 ∧ h.status = stat_ok ∧ h.tag = r.tag ∧ h.reqSeq = r.seq)) ∧
  (∀ (s : State) (r : Req) (p : Port), Requested s r p 0 → s.sys.mode.isServing = true →
    Answers (.sysGetMode r) r 0x0125 stat_ok (modeBytes s) s (fun u => u = s)) ∧
  (∀ (s : State) (r : Req) (p : Port), Requested s r p 0 → s.sys.mode = .basecamp → s.key.trngFail = false →
    Answers (.sysGetMode r) r 0x0125 s.sys.basecampStatus (modeBytes s ++ Config.freeBytes s.free 32) s (fun u =>
      u.nonceFresh s.free = true ∧ u.free = s.free + 1 ∧ Frame [.sys, .free] s u)) ∧
  (∀ (s : State) (r : Req) (p : Port), Requested s r p 0 → p.sysPriv = true → s.sys.mode.isRunLimpWork = true → s.key.trngFail = false →
    Answers (.sysChallenge r) r 0x0126 stat_ok (Config.freeBytes s.free 32) s (fun u =>
      u.nonceFresh s.free = true ∧ u.free = s.free + 1 ∧ Frame [.sys, .free] s u)) ∧
  (∀ (s : State) (r : Req) (p : Port) (total : U32), Requested s r p 4 → p.sysPriv = true → s.sys.mode.isRunLimpWork = true →
    total.toNat ≤ 0x1000100 → s.cfg.session = none →
    Answers (.cfgBegin r total) r 0x0201 stat_ok [byteOf (bit s.cfg.target)] s (fun u =>
      u.cfg.session = some { total := total.toNat } ∧ u.cfg.bank u.cfg.target = .erased ∧
        u.cfg.bank u.cfg.inUseB = s.cfg.bank s.cfg.inUseB ∧ Frame [.cfg] s u)) ∧
  (∀ (s : State) (r : Req) (p : Port) (offset : U32) (data : List Byte) (x : CfgSession), Requested s r p (4 + data.length) →
    p.sysPriv = true → s.sys.mode.isServing = true → blockOk data = true → s.cfg.session = some x → offset.toNat + data.length ≤ x.total →
    Answers (.cfgWrite r offset data) r 0x0202 stat_ok [] s (fun u =>
      (u.cfg.bank s.cfg.target).bytes = memWrite (s.cfg.bank s.cfg.target).bytes offset.toNat data ∧
        u.cfg.bank s.cfg.inUseB = s.cfg.bank s.cfg.inUseB ∧ Frame [.cfg] s u)) ∧
  (∀ (s : State) (r : Req) (p : Port) (content : Bank) (x : CfgSession), Requested s r p 0 → p.sysPriv = true →
    s.sys.mode.isServing = true → s.cfg.session = some x →
    bankStatus (content.read (s.cfg.bank s.cfg.target).bytes) s = none →
    Answers (.cfgCommit r content) r 0x0203 stat_ok (le32 (memRead32 (s.cfg.bank s.cfg.target).bytes 8)) s (fun u =>
      u.cfg.session = none ∧ u.cfg.bank s.cfg.target = content.read (s.cfg.bank s.cfg.target).bytes ∧
        u.cfg.bank s.cfg.inUseB = s.cfg.bank s.cfg.inUseB ∧ Frame [.cfg] s u)) ∧
  (∀ (s : State) (r : Req) (p : Port) (x : CfgSession), Requested s r p 0 → p.sysPriv = true → s.sys.mode.isRunLimpWork = true →
    s.cfg.session = some x →
    Answers (.cfgAbort r) r 0x0206 stat_ok [] s (fun u => u.cfg.session = none ∧ u.cfg.bank s.cfg.target = .erased ∧
      u.cfg.bank s.cfg.inUseB = s.cfg.bank s.cfg.inUseB ∧ Frame [.cfg] s u)) ∧
  (∀ (s : State) (x : CfgSession), s.cfg.session = some x →
    Gives .cfgSessionTimeout s (fun t => t.cfg.session = none ∧ t.cfg.bank s.cfg.target = .erased ∧
      t.cfg.bank s.cfg.inUseB = s.cfg.bank s.cfg.inUseB ∧ Frame [.cfg] s t)) ∧
  (∀ (s : State) (r : Req) (p : Port), Requested s r p 0 → s.sys.mode.isServing = true →
    Answers (.cfgStatus r) r 0x0205 stat_ok ([byteOf s.bankValidity] ++ zeros 3 ++ le32 s.cfg.bankA.seq ++ le32 s.cfg.bankB.seq
      ++ bool8 s.cfg.session.isSome) s (fun u => u = s)) ∧
  (∀ (s : State) (r : Req) (p : Port) (n : Byte) (offset : U32) (length : U16) (x : Section), Requested s r p 12 → p.sysPriv = true →
    s.sys.mode.isServing = true → 16 ≤ length.toNat → length.toNat ≤ 4000 → length.toNat % 16 = 0 →
    s.cfg.sections[n.toNat]? = some x → offset.toNat ≤ x.bytes.length →
    Answers (.cfgGetSection r n offset length) r 0x0207 stat_ok (n32 x.bytes.length
      ++ n16 ((x.bytes.drop offset.toNat).take length.toNat).length ++ zeros 2 ++ (x.bytes.drop offset.toNat).take length.toNat) s
      (fun u => u = s)) ∧
  (∀ (s : State) (r : Req) (p : Port), Requested s r p 0 → p.sysPriv = true → s.sys.mode.isRunLimpWork = true →
    s.cfg.activating = none → s.bankOk (s.cfg.bank s.cfg.target) = true → newerBank s (s.cfg.bank s.cfg.target) = true →
    s.activationStatus (s.cfg.bank s.cfg.target) = none → (differing (s.cfg.bank s.cfg.target).sections s.cfg.sections).isEmpty = true →
    Answers (.cfgActivate r) r 0x0204 stat_ok (le64 s.tb.count) s (fun u => u = activateNow s ∧ u.cfg.inUseB = s.cfg.target ∧
      u.cfg.seq = (s.cfg.bank s.cfg.target).seq ∧ Frame [.cfg, .key] s u)) ∧
  (∀ (s : State) (r : Req) (p : Port), Requested s r p 0 → p.sysPriv = true → s.sys.mode.isRunLimpWork = true →
    s.cfg.activating = none → s.bankOk (s.cfg.bank s.cfg.target) = true → newerBank s (s.cfg.bank s.cfg.target) = true →
    s.activationStatus (s.cfg.bank s.cfg.target) = none → (differing (s.cfg.bank s.cfg.target).sections s.cfg.sections).isEmpty = false →
    Gives (.cfgActivate r) s (fun t => t.cfg.activating = some (r.port, r.tag, r.seq) ∧ Frame [.cfg] s t)) ∧
  (∀ (s : State) (port : Nat) (tag seq : U32), s.ring.joined = false → s.cfg.activating = some (port, tag, seq) →
    s.bankOk (s.cfg.bank s.cfg.target) = true → newerBank s (s.cfg.bank s.cfg.target) = true →
    s.activationStatus (s.cfg.bank s.cfg.target) = none →
    Gives .activationMsBoundary s (fun t => t = respond { port := port, tag := tag, seq := seq, version := 1, len := 0, resvZero := true }
      0x0204 stat_ok (le64 s.tb.count) (activateNow s)))

/-- The CH commands of every channel (R97, R104 to R107, R110, R112, R120, R124, R125, Table 4.24): a command that R72 lets pass and
whose own conditions hold is answered `ST_OK` (a test `ST_PENDING`), changes what it names and leaves every other channel alone.
The data path of a channel (R87, R97, R121, R122, R145): the owner's doorbell writes the command word and its command, a wrong
generation is discarded with its flag, an access to another VZF's slot faults the window, and the two reads with a side effect have it. -/
def Obligations.ChannelCommandsAndDataPathAct : Prop :=
  (∀ (s : State) (r : Req) (p : Port) (ch : U16) (mode prio : Byte) (duty : U16) (phase : Byte), Requested s r p 8 → ch.toNat ≤ 111 →
    (chClass ch.toNat).isSwitch = true → p.mayUse (s.chOwner ch.toNat) → mode.toNat ≤ 2 → duty.toNat ≤ 10000 → p.mayPrio s prio.toNat →
    s.sys.mode.isRunLimpWork = true → (mode.toNat = 0 ∨ ((s.chan ch.toNat).grd.latched = false ∧ (s.chan ch.toNat).grd.locked = false)) →
    Answers (.chSet r ch mode prio duty phase) r 0x0301 stat_ok
      (le32 ((mailboxSw r ch.toNat ((switchOut mode.toNat duty.toNat phase.toNat).getD .off) prio.toNat none
        (lswWord mode.toNat prio.toNat phase.toNat duty.toNat) none s).chStatus ch.toNat)) s
      (fun u => (u.chan ch.toNat).sw.out = (switchOut mode.toNat duty.toNat phase.toNat).getD .off ∧ (u.chan ch.toNat).sw.prio = prio.toNat ∧
        (u.chan ch.toNat).cmdWord = lswWord mode.toNat prio.toNat phase.toNat duty.toNat ∧ (u.chan ch.toNat).tagGen = s.ownerGen ch.toNat ∧
        (u.chan ch.toNat).tagSeq = r.seq.extractLsb' 0 16 ∧
        (u.chan ch.toNat).ackSeq = r.seq.extractLsb' 0 16 ∧ (u.chan ch.toNat).shed = none ∧ (u.chan ch.toNat).orphan = none ∧
        Frame [.ch] s u ∧ ∀ j, j ≠ ch.toNat → u.chan j = s.chan j)) ∧
  (∀ (s : State) (r : Req) (p : Port) (ch : U16) (mode prio : Byte) (duty : U16) (phase : Byte), Requested s r p 8 → ch.toNat ≤ 111 →
    (chClass ch.toNat).isSwitch = true → p.mayUse (s.chOwner ch.toNat) → mode.toNat = 1 → duty.toNat ≤ 10000 → p.mayPrio s prio.toNat →
    s.sys.mode.isRunLimpWork = true → (s.chan ch.toNat).grd.latched = true →
    Answers (.chSet r ch mode prio duty phase) r 0x0301 stat_chLatched [] s (fun u => u = s)) ∧
  (∀ (s : State) (r : Req) (p : Port) (ch : U16), Requested s r p 2 → ch.toNat ≤ 111 → p.mayUse (s.chOwner ch.toNat) →
    s.sys.mode.isServing = true → Answers (.chGetStatus r ch) r 0x0302 stat_ok (s.statusBytes ch.toNat) s (fun u => u = s)) ∧
  (∀ (s : State) (r : Req) (p : Port) (ch : U16) (id : Byte) (x : Profile), Requested s r p 4 → ch.toNat ≤ 111 →
    p.mayUse (s.chOwner ch.toNat) → s.sys.mode.isRunWork = true → (s.chan (bridgeIdx ch.toNat)).out.isOff = true →
    s.cfg.image.profiles.get? id.toNat = some x → profileStatus (bridgeIdx ch.toNat) (s.groupVolt (bridgeIdx ch.toNat / 14)) x = none →
    (s.chan (bridgeIdx ch.toNat)).grd.lockFw = false →
    Answers (.chSetProfile r ch id) r 0x0303 stat_ok [] s (fun u =>
      (u.chan (bridgeIdx ch.toNat)).prof = x ∧ (u.chan (bridgeIdx ch.toNat)).profId = id.toNat ∧
      (u.chan (bridgeIdx ch.toNat)).holdOvr = none ∧ Frame [.ch, .mbx, .log, .vz] s u ∧
      (((s.chan (bridgeIdx ch.toNat)).prof.hb.rippleEn = false ∨ x.hb.rippleEn = true) → Frame [.ch] s u) ∧ ∀ j, j ≠ bridgeIdx ch.toNat → u.chan j = s.chan j)) ∧
  (∀ (s : State) (r : Req) (p : Port) (ch : U16), Requested s r p 2 → ch.toNat ≤ 111 → p.mayUse (s.chOwner ch.toNat) →
    s.sys.mode.isServing = true → Answers (.chGetProfile r ch) r 0x0304 stat_ok ([byteOf (s.chan (bridgeIdx ch.toNat)).profId] ++ zeros 7
      ++ (s.chan (bridgeIdx ch.toNat)).recordBytes (bridgeIdx ch.toNat)) s (fun u => u = s)) ∧
  (∀ (s : State) (r : Req) (p : Port) (ch : U16), Requested s r p 4 → ch.toNat ≤ 111 → (chClass ch.toNat).isSwitch = true →
    p.mayUse (s.chOwner ch.toNat) → s.sys.mode.isRunLimpWork = true → (s.chan ch.toNat).grd.lockLedger = true →
    2 * (s.chan ch.toNat).grd.ledgerNow s.now ≤ (chClass ch.toNat).budget →
    Answers (.chUnlock r ch 0) r 0x0305 stat_ok [] s (fun u => (u.chan ch.toNat).grd.lockLedger = false ∧
      (u.chan ch.toNat).grd.needsCmd = true ∧ Frame [.ch, .mbx, .log, .vz] s u ∧ ∀ j, j ≠ ch.toNat → u.chan j = s.chan j)) ∧
  (∀ (s : State) (r : Req) (p : Port) (ch : U16), Requested s r p 4 → ch.toNat ≤ 111 → (chClass ch.toNat).isSwitch = true →
    p.mayUse (s.chOwner ch.toNat) → s.sys.mode.isRunLimpWork = true → (s.chan ch.toNat).grd.lockLedger = true →
    (chClass ch.toNat).budget < 2 * (s.chan ch.toNat).grd.ledgerNow s.now →
    Answers (.chUnlock r ch 0) r 0x0305 stat_chLedgerHigh [] s (fun u => u = s)) ∧
  (∀ (s : State) (r : Req) (p : Port) (ch : U16), Requested s r p 2 → ch.toNat ≤ 111 → p.mayUse (s.chOwner ch.toNat) →
    s.sys.mode.isRunLimpWork = true → (s.chan (bridgeIdx ch.toNat)).grd.latched = true →
    (s.chan (bridgeIdx ch.toNat)).grd.junctionOk = true →
    ((s.chan (bridgeIdx ch.toNat)).grd.wireTrip = false ∨ (s.chan (bridgeIdx ch.toNat)).grd.wireOk = true) →
    (s.chan (bridgeIdx ch.toNat)).grd.latchArc = false →
    Answers (.chClearFault r ch) r 0x0306 stat_ok [] s (fun u => (u.chan (bridgeIdx ch.toNat)).grd.latched = false ∧
      (u.chan (bridgeIdx ch.toNat)).grd.retries = 0 ∧ Frame [.ch] s u ∧ ∀ j, j ≠ bridgeIdx ch.toNat → u.chan j = s.chan j)) ∧
  (∀ (s : State) (r : Req) (p : Port) (ch : U16) (setting : Byte) (tHold : U16), Requested s r p 6 → ch.toNat ≤ 111 →
    p.mayUse (s.chOwner ch.toNat) → s.sys.mode.isRunWork = true → setting.toNat ≤ 1 → 10 ≤ tHold.toNat → tHold.toNat ≤ 2000 →
    Answers (.chSetHold r ch setting tHold) r 0x0307 stat_ok [] s (fun u =>
      (u.chan (bridgeIdx ch.toNat)).holdOvr = some (decide (setting = 1), tHold.toNat) ∧ Frame [.ch] s u ∧
      ∀ j, j ≠ bridgeIdx ch.toNat → u.chan j = s.chan j)) ∧
  (∀ (s : State) (r : Req) (p : Port) (set : List KeepEntry), Requested s r p (4 + 8 * set.length) → p.sysPriv = true →
    s.sys.mode.isRunWork = true → set.length ≤ 8 → (∀ e ∈ set, e.ch.toNat ≤ 111 ∧ e.duty.toNat ≤ 10000 ∧ (e.mode = 1 ∨ e.mode = 2) ∧
      keepAllowed s e.ch.toNat = true) →
    Answers (.chSetKeepalive r set) r 0x0308 stat_ok [] s (fun u => u.ch.keepSet = set.map (fun e => (e.ch.toNat, keepOut e)) ∧
      Frame [.ch] s u ∧ ∀ j, u.chan j = s.chan j)) ∧
  (∀ (s : State) (r : Req) (p : Port) (ch : U16), Requested s r p 2 → ch.toNat ≤ 111 → p.mayUse (s.chOwner ch.toNat) →
    s.sys.mode.isRunLimpWork = true →
    Answers (.chSnsSelect r ch) r 0x0309 stat_ok [] s (fun u => u.ch.sns = some ch.toNat ∧ Frame [.ch] s u ∧ ∀ j, u.chan j = s.chan j)) ∧
  (∀ (s : State) (r : Req) (p : Port), Requested s r p 2 → s.sys.mode.isRunLimpWork = true →
    Answers (.chSnsSelect r 0xFFFF) r 0x0309 stat_ok [] s (fun u => u.ch.sns = none ∧ Frame [.ch] s u ∧ ∀ j, u.chan j = s.chan j)) ∧
  (∀ (s : State) (r : Req) (p : Port) (ch : U16) (test : Byte) (duration : U16), Requested s r p 6 → p.sysPriv = true → ch.toNat ≤ 111 →
    ((chClass ch.toNat).isSwitch = true ∨ 2 ≤ test.toNat) → test.toNat ≤ 3 → 1 ≤ duration.toNat → duration.toNat ≤ 1000 →
    s.sys.mode = .workshop → (s.chan (bridgeIdx ch.toNat)).test = none →
    Answers (.chTest r ch test duration) r 0x030A stat_pending [] s (fun u => (u.chan (bridgeIdx ch.toNat)).test =
      some { test := test.toNat, duration := duration.toNat, reverse := decide (ch.toNat % 14 = 11), port := r.port, tag := r.tag,
             reqSeq := r.seq } ∧ Frame [.ch] s u ∧
      ∀ j, j ≠ bridgeIdx ch.toNat → u.chan j = s.chan j)) ∧
  (∀ (s : State) (ch : Fin 112) (pass : Bool) (value : U32) (x : ChTestRun), (s.chan (bridgeIdx ch.val)).test = some x →
    x.test ≠ 2 → Gives (.chTestEnd ch pass value) s (fun t => ∃ u, t = complete x.port x.reqSeq x.tag 0x030A stat_ok
      (bool8 pass ++ zeros 3 ++ le32 value) u ∧ (u.chan (bridgeIdx ch.val)).test = none ∧ Frame [.ch] s u)) ∧
  (∀ (s : State) (ch : Fin 112) (pass : Bool) (value : U32) (x : ChTestRun), (s.chan (bridgeIdx ch.val)).test = some x → x.test = 2 →
    (s.chan (bridgeIdx ch.val)).grd.clampOver = false →
    Gives (.chTestEnd ch pass value) s (fun t => ∃ u, t = complete x.port x.reqSeq x.tag 0x030A stat_ok
      (bool8 (decide (value.toNat ≤ (chClass (bridgeIdx ch.val)).gateOff)) ++ zeros 3 ++ le32 value) u ∧
      (u.chan (bridgeIdx ch.val)).test = none ∧ Frame [.ch] s u)) ∧
  (∀ (s : State) (r : Req) (p : Port) (ch : U16), Requested s r p 2 → ch.toNat ≤ 111 → (chClass ch.toNat).isSwitch = true →
    p.mayUse (s.chOwner ch.toNat) → s.sys.mode.isServing = true →
    Answers (.chGetLedger r ch) r 0x030B stat_ok (n32 ((s.chan ch.toNat).grd.ledgerNow s.now) ++ n32 (chClass ch.toNat).budget
      ++ [byteOf (bit (s.chan ch.toNat).grd.lockLedger + 2 * bit (s.chan ch.toNat).grd.lockFw + 4 * bit (s.chan ch.toNat).grd.clampOver)]
      ++ zeros 3 ++ n32 (msToHalf 20000 ((s.chan ch.toNat).grd.ledgerNow s.now) ((chClass ch.toNat).budget / 2) 0)) s (fun u => u = s)) ∧
  (∀ (v : Fin 256) (ch : Fin 112) (value : U32) (s : State), (chClass ch.val).isSwitch = true →
    Gives (.lswCmdWrite v ch value) s (fun t => t = doorbell v.val ch.val value s)) ∧
  (∀ (v : Fin 256) (br : Fin 8) (value : U32) (s : State), Gives (.hbrCmdWrite v br value) s (fun t => t = doorbell v.val (brChan br.val) value s)) ∧
  (∀ (v : Fin 256) (vlv : Fin 16) (value : U32) (s : State),
    Gives (.vlvCmdWrite v vlv value) s (fun t => t = doorbell v.val (vlvChan vlv.val) value s)) ∧
  (∀ (v i : Nat) (w : U32) (s : State), s.chOwner i = some v → (s.vzf v).life = .active →
    ((doorbell v i w s).chan i).cmdWord = w ∧ ∀ j, j ≠ i → (doorbell v i w s).chan j = s.chan j) ∧
  (∀ (v i : Nat) (w : U32) (s : State), s.chOwner i ≠ some v →
    (∀ j, (doorbell v i w s).chan j = s.chan j) ∧ Frame [.bus, .mbx, .log, .vz] s (doorbell v i w s) ∧ (doorbell v i w s).bus = 0) ∧
  (∀ (v : Fin 256) (ch : Fin 112) (s : State), s.chOwner ch.val = some v.val →
    Gives (.lswChStampLoRead v ch) s (fun t => t.bus = ((s.chan (bridgeIdx ch.val)).stamp.extractLsb' 0 32).zeroExtend 64 ∧
      Frame [.ch, .bus] s t ∧ ∀ j, j ≠ ch.val → t.chan j = s.chan j)) ∧
  (∀ (v : Fin 256) (ch : Fin 112) (s : State), s.chOwner ch.val = some v.val →
    Gives (.lswChPeakRead v ch) s (fun t => t.bus = (s.chan (bridgeIdx ch.val)).peakWord.zeroExtend 64 ∧
      (t.chan (bridgeIdx ch.val)).sense.iPeak = 0 ∧ Frame [.ch, .bus] s t ∧ ∀ j, j ≠ bridgeIdx ch.val → t.chan j = s.chan j))

/-- The CH commands of half-bridges and valves (R104, R140, R141, R143, R149, Table 5.19). -/
def Obligations.BridgeAndValveCommandsAct : Prop :=
  (∀ (s : State) (r : Req) (p : Port) (ch : U16) (f : HbFields), Requested s r p 18 → ch.toNat ≤ 111 → chClass ch.toNat = .half →
    p.mayUse (s.chOwner ch.toNat) → s.sys.mode.isRunLimpWork = true → f.flags.toNat < 32 → hbRange (hbBlockOf f) = true →
    (s.bridge (bridgeIdx ch.toNat / 14)).moving = false → hbConflict (s.chan (bridgeIdx ch.toNat)).prof (hbBlockOf f) = false →
    (hbBlockOf f).rippleEn = true →
    Answers (.chHbConfig r ch f) r 0x0320 stat_ok [] s (fun u => (u.chan (bridgeIdx ch.toNat)).prof.hb = hbBlockOf f ∧ Frame [.ch] s u ∧
      ∀ j, j ≠ bridgeIdx ch.toNat → u.chan j = s.chan j)) ∧
  (∀ (s : State) (r : Req) (p : Port) (ch : U16) (drive prio : Byte) (duty : U16) (phase flags : Byte) (target : U32), Requested s r p 12 →
    ch.toNat ≤ 111 → chClass ch.toNat = .half → p.mayUse (s.chOwner ch.toNat) → drive.toNat ≤ 4 → flags.toNat ≤ 1 →
    duty.toNat ≤ 10000 → p.mayPrio s prio.toNat → s.sys.mode.isRunLimpWork = true →
    (s.chan (bridgeIdx ch.toNat)).grd.latched = false → (flagOf flags 0 = false ∨ (s.bridge (bridgeIdx ch.toNat / 14)).posValid = true) →
    Gives (.chHbDrive r ch drive prio duty phase flags target) s (fun t => ∃ u, u = mailboxSw r (bridgeIdx ch.toNat)
        ((driveOut drive.toNat duty.toNat phase.toNat).getD .off) prio.toNat (if flagOf flags 0 then some target else none)
        (hbrWord drive.toNat (flagOf flags 0) prio.toNat phase.toNat duty.toNat) (some target) s ∧
      t = respond r 0x0321 stat_ok (le32 (u.chStatus (bridgeIdx ch.toNat))
        ++ le32 ((u.bridge (bridgeIdx ch.toNat / 14)).stateWord (u.ripAct (bridgeIdx ch.toNat / 14)))) u)) ∧
  (∀ (s : State) (r : Req) (p : Port) (ch : U16) (drive prio : Byte) (duty : U16) (phase : Byte) (target : U32), Requested s r p 12 →
    ch.toNat ≤ 111 → chClass ch.toNat = .half → p.mayUse (s.chOwner ch.toNat) → drive.toNat ≤ 4 → duty.toNat ≤ 10000 →
    p.mayPrio s prio.toNat → s.sys.mode.isRunLimpWork = true → (s.chan (bridgeIdx ch.toNat)).grd.latched = false →
    (s.bridge (bridgeIdx ch.toNat / 14)).posValid = false →
    Answers (.chHbDrive r ch drive prio duty phase 1 target) r 0x0321 stat_hbPosInvalid [] s (fun u => u = s)) ∧
  (∀ (s : State) (r : Req) (p : Port) (ch : U16) (value : U32), Requested s r p 8 → ch.toNat ≤ 111 → chClass ch.toNat = .half →
    p.mayUse (s.chOwner ch.toNat) → s.sys.mode.isRunLimpWork = true → (s.bridge (bridgeIdx ch.toNat / 14)).moving = false →
    Gives (.chHbPosition r ch 1 value) s (fun t => ∃ u data, t = respond r 0x0322 stat_ok data u ∧
      (u.bridge (bridgeIdx ch.toNat / 14)).pos = value ∧ (u.bridge (bridgeIdx ch.toNat / 14)).posValid = true ∧
      (u.bridge (bridgeIdx ch.toNat / 14)).inserted = 0 ∧ (u.bridge (bridgeIdx ch.toNat / 14)).rejected = 0 ∧
      data.take 8 = le32 value ++ [1, 0, 0, 0] ∧ Frame [.ch] s u)) ∧
  (∀ (s : State) (r : Req) (p : Port) (ch : U16) (value : U32), Requested s r p 8 → ch.toNat ≤ 111 → chClass ch.toNat = .half →
    p.mayUse (s.chOwner ch.toNat) → s.sys.mode.isRunLimpWork = true →
    Gives (.chHbPosition r ch 0 value) s (fun t => ∃ data, t = respond r 0x0322 stat_ok data s ∧
      data.take 4 = le32 (s.bridge (bridgeIdx ch.toNat / 14)).pos)) ∧
  (∀ (s : State) (r : Req) (p : Port) (ch : U16) (flags : Byte) (amp freq bw : U16), Requested s r p 10 → ch.toNat ≤ 111 →
    chClass ch.toNat = .valve → p.mayUse (s.chOwner ch.toNat) → s.sys.mode.isRunLimpWork = true → flags.toNat ≤ 3 →
    dithRange (vlvBlockOf (s.chan ch.toNat).prof flags amp freq bw) = true →
    vlvConflict (s.chan ch.toNat).prof (vlvBlockOf (s.chan ch.toNat).prof flags amp freq bw) = false →
    (s.valve (chanVlv ch.toNat)).dithAct = false →
    Answers (.chVlvConfig r ch flags amp freq bw) r 0x0330 stat_ok [] s (fun u =>
      (u.chan ch.toNat).prof.vlv = vlvBlockOf (s.chan ch.toNat).prof flags amp freq bw ∧ Frame [.ch] s u ∧
      ∀ j, j ≠ ch.toNat → u.chan j = s.chan j)) ∧
  (∀ (s : State) (r : Req) (p : Port) (ch : U16) (flags : Byte) (amp freq bw : U16), Requested s r p 10 → ch.toNat ≤ 111 →
    chClass ch.toNat = .valve → p.mayUse (s.chOwner ch.toNat) → s.sys.mode.isRunLimpWork = true → flags.toNat ≤ 3 →
    dithRange (vlvBlockOf (s.chan ch.toNat).prof flags amp freq bw) = true →
    vlvConflict (s.chan ch.toNat).prof (vlvBlockOf (s.chan ch.toNat).prof flags amp freq bw) = false →
    (s.valve (chanVlv ch.toNat)).dithAct = true →
    Answers (.chVlvConfig r ch flags amp freq bw) r 0x0330 stat_ok [] s (fun u =>
      (u.valve (chanVlv ch.toNat)).newDither = some (vlvBlockOf (s.chan ch.toNat).prof flags amp freq bw) ∧ Frame [.ch] s u ∧
      ∀ j, u.chan j = s.chan j)) ∧
  (∀ (s : State) (r : Req) (p : Port) (ch : U16) (prio enable : Byte) (ma : U16), Requested s r p 8 → ch.toNat ≤ 111 →
    chClass ch.toNat = .valve → p.mayUse (s.chOwner ch.toNat) → enable.toNat ≤ 1 → ma.toNat ≤ 3000 → p.mayPrio s prio.toNat →
    s.sys.mode.isRunLimpWork = true → (s.chan ch.toNat).grd.latched = false →
    Gives (.chVlvSet r ch prio enable ma) s (fun t => ∃ u, u = mailboxSw r ch.toNat (if enable = 1 then .regulate ma.toNat else .off) prio.toNat
        none (vlvWord (decide (enable = 1)) prio.toNat ma.toNat) none s ∧ t = respond r 0x0331 stat_ok (le32 (u.chStatus ch.toNat)) u ∧
      (u.chan ch.toNat).sw.out = (if enable = 1 then .regulate ma.toNat else .off) ∧ (u.chan ch.toNat).sw.prio = prio.toNat)) ∧
  (∀ (s : State) (r : Req) (p : Port) (ch : U16), Requested s r p 2 → ch.toNat ≤ 111 → chClass ch.toNat = .valve →
    p.mayUse (s.chOwner ch.toNat) → s.sys.mode.isRunLimpWork = true →
    Answers (.chVlvStatus r ch) r 0x0332 stat_ok (n16 (s.valve (chanVlv ch.toNat)).target ++ n16 (s.chan ch.toNat).achieved
      ++ n16 (s.valve (chanVlv ch.toNat)).duty ++ [byteOf (bit (s.valve (chanVlv ch.toNat)).compliance + 2 * bit (s.valve (chanVlv ch.toNat)).sat
        + 4 * bit (s.chan ch.toNat).grd.ol + 8 * bit (s.valve (chanVlv ch.toNat)).ceil), 0]
      ++ i16 (s.chan ch.toNat).sense.vg ++ n16 (s.valve (chanVlv ch.toNat)).rEst ++ n16 (s.valve (chanVlv ch.toNat)).compCount ++ zeros 2) s
      (fun u => u = s))

/-- The RFX commands (R200, R204, R206, R207, R210, R212, R219, Table 8.14): a command that R72 lets pass and whose own conditions hold is
answered `ST_OK` and leaves the engine as the table says, its rules evaluated in the same cycle. -/
def Obligations.RuleCommandsAct : Prop :=
  (∀ (s : State) (r : Req) (p : Port) (rule : U16) (f : RuleFields), Requested s r p 44 → p.sysPriv = true → rule.toNat ≤ 1023 →
    s.sys.mode = .workshop → ruleContent f = none → ruleOwnership s (ruleOf f) = none →
    Answers (.rfxLoadRule r rule f) r 0x0601 stat_ok [] s (fun u =>
      u = evalRules (s.modRule rule.toNat (fun _ => { RuleRun.reset with rule := ruleOf f, byCommand := true })))) ∧
  (∀ (s : State) (r : Req) (p : Port) (rule : U16) (f : RuleFields), Requested s r p 44 → p.sysPriv = true → rule.toNat ≤ 1023 →
    s.sys.mode = .workshop → s.rfx.enabled = false → ruleContent f = none → ruleOwnership s (ruleOf f) = none →
    Answers (.rfxLoadRule r rule f) r 0x0601 stat_ok [] s (fun u => (u.rule rule.toNat).rule = ruleOf f ∧ (u.rule rule.toNat).fired = 0 ∧
      (∀ n, n ≠ rule.toNat → u.rule n = s.rule n) ∧ Frame [.rfx] s u)) ∧
  (∀ (s : State) (r : Req) (p : Port) (rule : U16) (f : RuleFields), Requested s r p 44 → p.sysPriv = true → 1023 < rule.toNat →
    Answers (.rfxLoadRule r rule f) r 0x0601 stat_range [] s (fun u => u = s)) ∧
  (∀ (s : State) (r : Req) (p : Port) (first count : U16), Requested s r p 4 → p.sysPriv = true → 1 ≤ count.toNat → count.toNat ≤ 64 →
    first.toNat + count.toNat ≤ 1024 → s.sys.mode.isRunLimpWork = true → (∀ n ∈ span first.toNat count.toNat, s.orphanRule n = false) →
    Answers (.rfxEnable r first count) r 0x0602 stat_ok [] s (fun u => u = evalRules { s with rfx := { s.rfx with
      rules := s.rfx.rules.updateKeys .reset (span first.toNat count.toNat) (fun _ x => x.enable) } })) ∧
  (∀ (s : State) (r : Req) (p : Port) (first : U16), Requested s r p 4 → p.sysPriv = true → first.toNat ≤ 1023 →
    s.sys.mode.isRunLimpWork = true → s.rfx.enabled = false → s.orphanRule first.toNat = false →
    Answers (.rfxEnable r first 1) r 0x0602 stat_ok [] s (fun u => (u.rule first.toNat).rule.en = true ∧
      (u.rule first.toNat).latched = false ∧ (u.rule first.toNat).suspended = false ∧ Frame [.rfx] s u)) ∧
  (∀ (s : State) (r : Req) (p : Port) (first count : U16), Requested s r p 4 → p.sysPriv = true → 1 ≤ count.toNat → count.toNat ≤ 64 →
    first.toNat + count.toNat ≤ 1024 → s.sys.mode.isRunLimpWork = true → (∃ n ∈ span first.toNat count.toNat, s.orphanRule n = true) →
    Answers (.rfxEnable r first count) r 0x0602 stat_rfxNoOwner [] s (fun u => u = s)) ∧
  (∀ (s : State) (r : Req) (p : Port) (first count : U16), Requested s r p 4 → p.sysPriv = true → 1 ≤ count.toNat → count.toNat ≤ 64 →
    first.toNat + count.toNat ≤ 1024 → s.sys.mode.isRunLimpWork = true →
    Answers (.rfxDisable r first count) r 0x0603 stat_ok [] s (fun u => u = evalRules { s with rfx := { s.rfx with
      rules := s.rfx.rules.updateKeys .reset (span first.toNat count.toNat) (fun _ x => x.disable) } })) ∧
  (∀ (s : State) (r : Req) (p : Port) (first : U16), Requested s r p 4 → p.sysPriv = true → first.toNat ≤ 1023 →
    s.sys.mode.isRunLimpWork = true → s.rfx.enabled = false →
    Answers (.rfxDisable r first 1) r 0x0603 stat_ok [] s (fun u => (u.rule first.toNat).rule.en = false ∧
      (u.rule first.toNat).active = false ∧ (u.rule first.toNat).latched = false ∧ Frame [.rfx] s u)) ∧
  (∀ (s : State) (r : Req) (p : Port) (rule : U16), Requested s r p 4 → p.sysPriv = true → rule.toNat ≤ 1023 →
    s.sys.mode.isServing = true → Answers (.rfxGetRule r rule) r 0x0604 stat_ok ((s.rule rule.toNat).rule.bytes
      ++ [byteOf ((s.rule rule.toNat).code s), 0, 0, 0] ++ n32 (s.rule rule.toNat).fired ++ n64 (s.rule rule.toNat).lastFire) s
      (fun u => u = s)) ∧
  (∀ (s : State) (r : Req) (p : Port) (first : U16), Requested s r p 4 → p.sysPriv = true → first.toNat ≤ 1023 →
    s.sys.mode.isServing = true → Answers (.rfxStats r first 1) r 0x0605 stat_ok (n32 (s.rule first.toNat).fired
      ++ n32 (s.rule first.toNat).blocked ++ n64 (s.rule first.toNat).lastFire) s (fun u => u = s)) ∧
  (∀ (s : State) (r : Req) (p : Port) (reason : U16), Requested s r p 4 → p.sysPriv = true → s.sys.mode.isServing = true →
    Answers (.rfxSelfArrest r reason) r 0x0606 stat_ok [] s (fun u => u = selfArrest 3 (le16 reason) s)) ∧
  (∀ (s : State) (r : Req) (p : Port) (tSnf : U16) (flags : Byte), Requested s r p 4 → p.sysPriv = true → flags.toNat ≤ 1 →
    tSnf.toNat ≤ 200 → s.sys.mode = .workshop → (flags = 0 ∨ s.rfx.sna = true ∨ s.rfx.safeN = false) →
    Answers (.rfxSafeNFilter r tSnf flags) r 0x0607 stat_ok [] s (fun u => u.rfx.tSnf = tSnf.toNat ∧ u.rfx.sna = decide (flags = 1) ∧
      Frame [.rfx] s u)) ∧
  (∀ (s : State) (r : Req) (p : Port) (tSnf : U16), Requested s r p 4 → p.sysPriv = true → tSnf.toNat ≤ 200 → s.sys.mode = .workshop →
    s.rfx.sna = false → s.rfx.safeN = true → s.rfx.enabled = true →
    Answers (.rfxSafeNFilter r tSnf 1) r 0x0607 stat_ok [] s (fun u =>
      u = selfArrest 1 [] { s with rfx := { s.rfx with tSnf := tSnf.toNat, sna := true } }))

/-- Link and hold of a power die, its supply and its ground (R94, R98, R117, R118, R128, R140): a frame is heard and the rules see the die's channels,
10 µs of silence begin the hold, t_HOLD ends it for a channel, and a lost supply or ground turns the channels off. -/
def Obligations.LinkHoldAndSupplyActOnTheDie : Prop :=
  (∀ (die : Fin 8) (clamp : List (Fin 14 × Nat)) (s : State), s.mgrUp = true →
    Gives (.powerDieLinkFrame die clamp) s (fun t => ∃ u, t = evalRules u ∧ (u.die die.val).seenFrame = true ∧
      (u.die die.val).lastFrame = s.now)) ∧
  (∀ (die : Fin 8) (s : State), s.mgrUp = false → exec (.powerDieLinkFrame die []) s = .next s) ∧
  (∀ (die : Fin 8) (s : State), (s.die die.val).seenFrame = true → (s.die die.val).silent = false →
    Gives (.linkSilenceHold die) s (fun t => (t.die die.val).inHold = true ∧ (t.die die.val).silenceUs = 0 ∧
      (t.die die.val).silenceFrom = (s.die die.val).lastFrame ∧ Frame [.ch] s t)) ∧
  (∀ (die : Fin 8) (s : State), ((s.die die.val).seenFrame = false ∨ (s.die die.val).silent = true) →
    exec (.linkSilenceHold die) s = .next s) ∧
  (∀ (ch : Fin 112) (s : State), (s.chan ch.val).hold = .holding →
    Gives (.holdTimeout ch) s (fun t => (t.chan ch.val).hold = .expired ∧ (t.chan ch.val).out = .off ∧
      (∀ j, j ≠ ch.val → t.chan j = s.chan j) ∧ Frame [.ch, .mbx, .log, .vz] s t)) ∧
  (∀ (ch : Fin 112) (s : State), (s.chan ch.val).hold ≠ .holding → exec (.holdTimeout ch) s = .next s) ∧
  (∀ (g : Fin 8) (s : State), s.keepsRole = true →
    Gives (.groupSupplyLoss g true) s (fun t => (t.die g.val).supply = .reversed ∧
      (∀ o : Fin 14, (t.chan (14 * g.val + o.val)).out = .off) ∧ Frame [.ch] s t)) ∧
  (∀ (g : Fin 8) (s : State), s.keepsRole = true →
    Gives (.groupSupplyLoss g false) s (fun t => (t.die g.val).supply = .lost ∧
      (∀ o : Fin 14, (t.chan (14 * g.val + o.val)).out = .off) ∧ Frame [.ch] s t)) ∧
  (∀ (g : Fin 8) (s : State), (s.bridge g.val).posValid = false →
    Gives (.groupSupplyReturn g true) s (fun t => (t.die g.val).supply = .present ∧ (t.die g.val).seenFrame = false ∧
      t.bridge g.val = .reset ∧ (∀ o : Fin 14, (t.chan (14 * g.val + o.val)).grd = { Guard.reset with ledgerAt := s.now } ∧
        (t.chan (14 * g.val + o.val)).out = .off) ∧ Frame [.ch] s t)) ∧
  (∀ (g : Fin 8) (s : State), (s.modDie g.val (fun d => { d with supply := .present, groundLost := false })).dieHears g.val = false →
    (s.die g.val).keeping = false → Gives (.groupSupplyReturn g false) s (fun t => (t.die g.val).supply = .present ∧ (t.die g.val).groundLost = false ∧
      (∀ j, t.chan j = s.chan j) ∧ Frame [.ch] s t)) ∧
  (∀ s : State, Gives .moduleGroundLoss s (fun t => (∀ g : Fin 8, (t.die g.val).groundLost = true ∧ (t.bridge g.val).drive = 4) ∧
    (∀ i : Fin 112, (t.chan i.val).out = .off) ∧ Frame [.ch] s t))

/-- The protection ladder of a channel (R99, R101 to R104, R109, R113, R116, R132): a protection that may trip does, with its cause, and
latches or waits for its retry; a retry counts at the trip (log entry 52). A module that holds the rope-team role with
`REL_ON_FAULT` releases it as well when a channel of its list latches. -/
def Obligations.ProtectionTripsAndRetries : Prop :=
  (∀ (ch : Fin 112) (ma : Nat) (s : State), chClass ch.val ≠ .valve → (chClass ch.val).latchLevel ≤ ma → s.canTrip ch.val = true →
    s.keepsRole = true → Gives (.shortCircuitTrip ch ma) s (fun t => Tripped (bridgeIdx ch.val) 1 s t)) ∧
  (∀ (ch : Fin 112) (ma : Nat) (s : State), (chClass ch.val = .valve ∨ ma < (chClass ch.val).latchLevel) →
    exec (.shortCircuitTrip ch ma) s = .next s) ∧
  (∀ (ch : Fin 112) (s : State), s.limitOver ch.val = false → exec (.limitTimeout ch) s = .next s) ∧
  (∀ (ch : Fin 112) (s : State), s.limitOver ch.val = true → s.canTrip ch.val = true → s.keepsRole = true →
    Gives (.limitTimeout ch) s (fun t => Tripped (bridgeIdx ch.val) 2 s t)) ∧
  (∀ (ch : Fin 112) (tj : Int) (s : State), 1650 ≤ tj → s.canTrip ch.val = true → s.keepsRole = true →
    Gives (.junctionOvertemp ch tj) s (fun t => Tripped (bridgeIdx ch.val) 4 s t ∧ (t.chan (bridgeIdx ch.val)).grd.junctionOk = false)) ∧
  (∀ (ch : Fin 112) (partner : Nat) (s : State), s.limitOver ch.val = true → s.canTrip ch.val = true → s.cfg.image.twin.en = true → s.cfg.image.twin.relOnFault = true →
    s.twin.role = .holder → (bridgeIdx ch.val, partner) ∈ s.cfg.image.twin.list →
    (s.chan (bridgeIdx ch.val)).tripLatches (s.chInHold (bridgeIdx ch.val)) (decide (s.sys.mode = .bivouac)) 2 = true →
    Gives (.limitTimeout ch) s (fun t => (t.chan (bridgeIdx ch.val)).grd.latched = true ∧ t.twin.role = .released ∧
      t.twin.ownHolder = false)) ∧
  (∀ (ch : Fin 112) (ma : Nat) (tj : Int) (s : State), s.canTrip ch.val = false →
    exec (.limitTimeout ch) s = .next s ∧ exec (.junctionOvertemp ch tj) s = .next s ∧ exec (.shortCircuitTrip ch ma) s = .next s) ∧
  (∀ (ch : Fin 112) (i2 : Nat) (s : State), s.canTrip (bridgeIdx ch.val) = true → s.keepsRole = true →
    insulRating (s.chan (bridgeIdx ch.val)).prof.insul * 1000000 - s.ambientUk (s.chan (bridgeIdx ch.val)).prof <
      wireRise (s.chan (bridgeIdx ch.val)).grd.riseUk i2 ((s.chan (bridgeIdx ch.val)).prof.wireOf (chClass (bridgeIdx ch.val))).1
        ((s.chan (bridgeIdx ch.val)).prof.wireOf (chClass (bridgeIdx ch.val))).2 →
    Gives (.wireModelStep ch i2) s (fun t => Tripped (bridgeIdx ch.val) 3 s t ∧ (t.chan (bridgeIdx ch.val)).grd.wireOk = false)) ∧
  (∀ (ch : Fin 112) (i2 : Nat) (s : State), (s.chan (bridgeIdx ch.val)).grd.waiting = false →
    wireRise (s.chan (bridgeIdx ch.val)).grd.riseUk i2 ((s.chan (bridgeIdx ch.val)).prof.wireOf (chClass (bridgeIdx ch.val))).1
        ((s.chan (bridgeIdx ch.val)).prof.wireOf (chClass (bridgeIdx ch.val))).2 ≤
      insulRating (s.chan (bridgeIdx ch.val)).prof.insul * 1000000 - s.ambientUk (s.chan (bridgeIdx ch.val)).prof →
    Gives (.wireModelStep ch i2) s (fun t => (t.chan (bridgeIdx ch.val)).grd.riseUk =
      wireRise (s.chan (bridgeIdx ch.val)).grd.riseUk i2 ((s.chan (bridgeIdx ch.val)).prof.wireOf (chClass (bridgeIdx ch.val))).1
        ((s.chan (bridgeIdx ch.val)).prof.wireOf (chClass (bridgeIdx ch.val))).2 ∧
      (t.chan (bridgeIdx ch.val)).grd.wireOk = decide (2 * (t.chan (bridgeIdx ch.val)).grd.riseUk ≤
        insulRating (s.chan (bridgeIdx ch.val)).prof.insul * 1000000 - s.ambientUk (s.chan (bridgeIdx ch.val)).prof) ∧
      (∀ j, j ≠ bridgeIdx ch.val → t.chan j = s.chan j) ∧ Frame [.ch] s t)) ∧
  (∀ (ch : Fin 112) (rms dv : Nat) (s : State), s.arcRuns ch.val = true → (s.chan ch.val).prof.arcRms < rms → (s.chan ch.val).prof.arcDv < dv →
    (s.chan ch.val).prof.arcN ≤ ((keepNewest 16 (true :: (s.chan ch.val).grd.arcWins)).filter (fun b => b)).length →
    s.canTrip ch.val = true → s.keepsRole = true →
    Gives (.arcWindow ch rms dv) s (fun t => Tripped ch.val 5 s t ∧ (t.chan ch.val).grd.latchArc = true)) ∧
  (∀ (ch : Fin 112) (rms dv : Nat) (s : State), s.arcRuns ch.val = true → (rms ≤ (s.chan ch.val).prof.arcRms ∨ dv ≤ (s.chan ch.val).prof.arcDv) →
    ((keepNewest 16 (false :: (s.chan ch.val).grd.arcWins)).filter (fun b => b)).length < (s.chan ch.val).prof.arcN →
    Gives (.arcWindow ch rms dv) s (fun t => (t.chan ch.val).grd.arcWins = keepNewest 16 (false :: (s.chan ch.val).grd.arcWins) ∧
      (∀ j, j ≠ ch.val → t.chan j = s.chan j) ∧ Frame [.ch] s t)) ∧
  (∀ (ch : Fin 112) (s : State), (s.chan (bridgeIdx ch.val)).grd.waiting = true → (s.chan (bridgeIdx ch.val)).grd.junctionOk = true →
    (s.chan (bridgeIdx ch.val)).grd.wireOk = true → (s.merged (bridgeIdx ch.val) (s.chan (bridgeIdx ch.val))).1.isOff = false →
    Gives (.retryDelayExpiry ch) s (fun t => (t.chan (bridgeIdx ch.val)).grd.retries = (s.chan (bridgeIdx ch.val)).grd.retries ∧
      (t.chan (bridgeIdx ch.val)).grd.waiting = false ∧ (∀ j, j ≠ bridgeIdx ch.val → t.chan j = s.chan j) ∧ Frame [.ch] s t)) ∧
  (∀ (ch : Fin 112) (s : State), (s.chan (bridgeIdx ch.val)).grd.waiting = true → (s.chan (bridgeIdx ch.val)).grd.junctionOk = false →
    Gives (.retryDelayExpiry ch) s (fun t => (t.chan (bridgeIdx ch.val)).grd.delayDone = true ∧
      (t.chan (bridgeIdx ch.val)).grd.waiting = true ∧ (∀ j, j ≠ bridgeIdx ch.val → t.chan j = s.chan j) ∧ Frame [.ch] s t)) ∧
  (∀ (ch : Fin 112) (tj : Int) (s : State), tj < 1450 → (s.chan (bridgeIdx ch.val)).grd.waiting = true →
    (s.chan (bridgeIdx ch.val)).grd.delayDone = true → (s.chan (bridgeIdx ch.val)).grd.wireOk = true →
    (s.merged (bridgeIdx ch.val) (s.chan (bridgeIdx ch.val))).1.isOff = false →
    Gives (.junctionCooled ch tj) s (fun t => (t.chan (bridgeIdx ch.val)).grd.retries = (s.chan (bridgeIdx ch.val)).grd.retries ∧
      (t.chan (bridgeIdx ch.val)).grd.waiting = false ∧ (t.chan (bridgeIdx ch.val)).grd.junctionOk = true ∧ Frame [.ch] s t)) ∧
  (∀ (ch : Fin 112) (tj : Int) (s : State), tj < 1450 → (s.chan (bridgeIdx ch.val)).grd.waiting = false →
    Gives (.junctionCooled ch tj) s (fun t => (t.chan (bridgeIdx ch.val)).grd.junctionOk = true ∧ Frame [.ch] s t)) ∧
  (∀ (ch : Fin 112) (tj : Int) (s : State), 1450 ≤ tj → exec (.junctionCooled ch tj) s = .next s) ∧
  (∀ (ch : Fin 112) (s : State), (s.chan (bridgeIdx ch.val)).out.isOff = false → (s.chan (bridgeIdx ch.val)).grd.blocks = false →
    Gives (.retryCountReset ch) s (fun t => (t.chan (bridgeIdx ch.val)).grd.retries = 0 ∧
      (∀ j, j ≠ bridgeIdx ch.val → t.chan j = s.chan j) ∧ Frame [.ch] s t)) ∧
  (∀ (ch : Fin 112) (above : Bool) (s : State), (s.chan (bridgeIdx ch.val)).grd.inrush = true →
    Gives (.inrushWindowEnd ch above) s (fun t => (t.chan (bridgeIdx ch.val)).grd.inrush = false ∧
      (t.chan (bridgeIdx ch.val)).grd.limiting = above ∧ (∀ j, j ≠ bridgeIdx ch.val → t.chan j = s.chan j) ∧ Frame [.ch] s t)) ∧
  (∀ (ch : Fin 112) (lowest : Int) (s : State), (s.chan ch.val).grd.fwWatch = true → (s.die (ch.val / 14)).supply ≠ .reversed → -150 < lowest →
    Gives (.freewheelCheckEnd ch lowest 0) s (fun t => (t.chan ch.val).grd.fwOk = true ∧ (t.chan ch.val).grd.fwWatch = false ∧
      (∀ j, j ≠ ch.val → t.chan j = s.chan j) ∧ Frame [.ch] s t)) ∧
  (∀ (ch : Fin 112) (lowest : Int) (clampUj : Nat) (s : State), (s.chan ch.val).grd.fwWatch = true →
    (s.die (ch.val / 14)).supply ≠ .reversed → lowest ≤ -150 → s.keepsRole = true →
    Gives (.freewheelCheckEnd ch lowest clampUj) s (fun t => (t.chan ch.val).grd.lockFw = true ∧ (t.chan ch.val).grd.fwMissing = true ∧
      (t.chan ch.val).out = .off ∧ (∀ j, j ≠ ch.val → t.chan j = s.chan j) ∧ Frame [.ch, .mbx, .log, .vz] s t))

/-- What a die reports of a channel (R95, R99, R113, R122, R136, Tables 4.5 and 4.14): open load, the off-state test, a hot junction, its
measured values and its pulse; and the clamp energy of an off-edge (R110). -/
def Obligations.DieReportsActOnTheChannel : Prop :=
  (∀ (ch : Fin 112) (s : State), (s.die (bridgeIdx ch.val / 14)).supply = .present → s.openLoadRuns (bridgeIdx ch.val) = true →
    (s.chan (bridgeIdx ch.val)).prof.openLoad (chClass (bridgeIdx ch.val)) ≠ 0 →
    Gives (.openLoadOn ch) s (fun t => (t.chan (bridgeIdx ch.val)).grd.ol = true ∧ (t.chan (bridgeIdx ch.val)).flags.olOn = true ∧
      (∀ j, j ≠ bridgeIdx ch.val → t.chan j = s.chan j) ∧ Frame [.ch, .mbx, .log, .vz] s t)) ∧
  (∀ (ch : Fin 112) (s : State), s.openLoadRuns (bridgeIdx ch.val) = false → exec (.openLoadOn ch) s = .next s) ∧
  (∀ (ch : Fin 112) (s : State), chClass (bridgeIdx ch.val) = .valve → (s.valve (chanVlv (bridgeIdx ch.val))).sat = false →
    exec (.openLoadOn ch) s = .next s) ∧
  (∀ (ch : Fin 112) (under : Int) (s : State), (s.chan (bridgeIdx ch.val)).prof.olOffEn = true → s.offRuns (bridgeIdx ch.val) = true →
    (s.die (bridgeIdx ch.val / 14)).supply = .present → chClass (bridgeIdx ch.val) ≠ .valve →
    Gives (.offStateTest ch true under) s (fun t => (t.chan (bridgeIdx ch.val)).grd.stb = true ∧
      (t.chan (bridgeIdx ch.val)).grd.ol = decide (400 ≤ under) ∧
      (∀ j, j ≠ bridgeIdx ch.val → t.chan j = s.chan j) ∧ Frame [.ch, .mbx, .log, .vz] s t)) ∧
  (∀ (ch : Fin 112) (under : Int) (s : State), (s.chan (bridgeIdx ch.val)).prof.olOffEn = true → s.offRuns (bridgeIdx ch.val) = true →
    (s.die (bridgeIdx ch.val / 14)).supply = .present → under < 400 →
    Gives (.offStateTest ch false under) s (fun t => (t.chan (bridgeIdx ch.val)).grd.stb = false ∧
      (t.chan (bridgeIdx ch.val)).grd.ol = false ∧ Frame [.ch] s t)) ∧
  (∀ (ch : Fin 112) (s : State), s.mgrUp = true → Gives (.junctionHotWarning ch) s (fun t =>
    t = raise evt_chHot (bridgeIdx ch.val) (.owned (s.chOwner (bridgeIdx ch.val))) [] s ∧ Frame [.mbx, .log, .vz] s t)) ∧
  (∀ (ch : Fin 112) (m : Measure) (s : State), s.rfx.enabled = false → s.senses (ch.val / 14) = true →
    Gives (.statusWordUpdate ch m) s (fun t => (t.chan (bridgeIdx ch.val)).sense.iAvg = m.iAvg.toNat ∧
      (t.chan (bridgeIdx ch.val)).sense.iInst = m.iInst.toNat ∧ (t.chan (bridgeIdx ch.val)).sense.vg = m.vg ∧
      (t.chan (bridgeIdx ch.val)).sense.tj = m.tj ∧ (t.chan ch.val).sense.vout = m.vout ∧
      (t.chan (bridgeIdx ch.val)).sense.iPeak = max (s.chan (bridgeIdx ch.val)).sense.iPeak m.iInst.toNat ∧
      (t.chan (bridgeIdx ch.val)).stamp = s.tb.count ∧ (∀ j, j ≠ bridgeIdx ch.val → j ≠ ch.val → t.chan j = s.chan j))) ∧
  (∀ (ch : Fin 112) (m : Measure) (s : State), s.rfx.enabled = false → s.senses (ch.val / 14) = false →
    Gives (.statusWordUpdate ch m) s (fun t => (t.chan (bridgeIdx ch.val)).sense = (s.chan (bridgeIdx ch.val)).sense ∧
      (∀ j, j ≠ bridgeIdx ch.val → t.chan j = s.chan j))) ∧
  (∀ (ch : Fin 112) (m : Measure) (s : State), GivesEval (.statusWordUpdate ch m) s (fun u =>
    u = chStatUpdate (bridgeIdx ch.val) (statusUpdate ch.val m s))) ∧
  (∀ (ch : Fin 112) (duty phase : Nat) (s : State), (s.chan ch.val).out = .pwm duty phase →
    Gives (.pwmPeriodStart ch 0) s (fun t => (t.chan ch.val).pulse = pulseCycles (s.chan ch.val).prof.fPwm duty ∧
      (∀ j, j ≠ ch.val → t.chan j = s.chan j) ∧ Frame [.ch] s t)) ∧
  (∀ (ch : Fin 112) (uj : Nat) (s : State), (chClass ch.val).isSwitch = true → 0 < uj →
    Gives (.pwmPeriodStart ch uj) s (fun t => (t.chan ch.val).grd.ledgerUj = (s.chan ch.val).grd.ledgerNow s.now + uj ∧
      (t.chan ch.val).grd.ledgerAt = s.now ∧
      (s.ledgerLockActive ch.val = true → (s.chan ch.val).grd.lockLedger = false → (chClass ch.val).budget < (s.chan ch.val).grd.ledgerNow s.now + uj →
        (t.chan ch.val).grd.lockLedger = true ∧ (t.chan ch.val).out = .off) ∧
      ((chClass ch.val).singleEvent < uj → (t.chan ch.val).grd.clampOver = true ∧ (t.chan ch.val).out = .off)))

/-- Load limits and orphans (R93, R119): the averages of a second are of what the dies measured; a limit newly exceeded sheds at once, each step sheds the lowest priority that is on, and an
orphaned output ends with t_ORPH. -/
def Obligations.LoadLimitsShedChannels : Prop :=
  (∀ (g : Fin 8) (s : State), (loadSample s).ch.groupHist.getD [] g.val = keepNewest 1000 (s.groupMa g.val :: s.ch.groupHist.getD [] g.val) ∧
    (loadSample s).ch.lossHist = keepNewest 1000 (s.lossUw :: s.ch.lossHist) ∧ Frame [.ch] s (loadSample s)) ∧
  (∀ s : State, s.sys.mode.isRunLimpWork = true → s.mgrUp = true →
    Gives .groupLoadCheck s (fun t => t.ch.groupOver = (loadSample s).ch.overGroups ∧
      t.ch.lossOver = (loadSample s).overLoss ∧ Frame [.ch, .mbx, .log, .vz] s t)) ∧
  (∀ s : State, s.sys.mode.isRunLimpWork = true → s.mgrUp = true → (loadSample s).overLoss = true → s.ch.lossOver = false →
    (loadSample s).ch.overGroups = [] → Gives .groupLoadCheck s (fun t => ∀ i ∈ s.shedPick (List.range 112) 0, (t.chan i).shed = some 10 ∧
      (t.chan i).flags.shed = true)) ∧
  (∀ (g : Nat) (s : State), s.sys.mode.isRunLimpWork = true → s.mgrUp = true → s.ch.groupOver = [g] → s.ch.lossOver = false →
    Gives .loadShedStep s (fun t => (∀ i ∈ s.shedPick (groupChans g) (s.ch.groupNext.getD 0 g), (t.chan i).shed = some 9 ∧
      (t.chan i).flags.shed = true) ∧ Frame [.ch, .mbx, .log, .vz] s t)) ∧
  (∀ s : State, s.sys.mode.isRunLimpWork = true → s.mgrUp = true → s.ch.groupOver = [] → s.ch.lossOver = true →
    Gives .loadShedStep s (fun t => (∀ i ∈ s.shedPick (List.range 112) s.ch.lossNext, (t.chan i).shed = some 10 ∧
      (t.chan i).flags.shed = true) ∧ Frame [.ch, .mbx, .log, .vz] s t)) ∧
  (∀ s : State, s.ch.groupOver = [] → s.ch.lossOver = false → exec .loadShedStep s = .next s) ∧
  (∀ (ch : Fin 112) (s : State), (s.chan ch.val).orphan.isSome = true → (s.chan ch.val).prof.tOrph ≠ 0 → Gives (.orphanTimeout ch) s (fun t =>
    (t.chan ch.val).orphan = none ∧ (t.chan ch.val).sw.out = .off ∧ Frame [.ch] s t)) ∧
  (∀ (ch : Fin 112) (s : State), (s.chan ch.val).prof.tOrph = 0 → exec (.orphanTimeout ch) s = .next s) ∧
  (∀ (ch : Fin 112) (s : State), (s.chan ch.val).orphan = none → exec (.orphanTimeout ch) s = .next s)

/-- Half-bridges (R129, R130, R133, R138 to R141): the brake of a reversal, a stall, ripples counted in the direction of motion and up to a
target, the end of run-on, and motion that could not be counted.
Valves (R135, R136, R142, R143): a regulation period takes the set point, compliance sets and clears. The duty is a free value (the
manual names the inputs of the regulator and not its gains; log entry 50). -/
def Obligations.BridgeAndValveEventsAct : Prop :=
  (∀ (br : Fin 8) (code duty phase : Nat) (s : State), (s.bridge br.val).reversing = true →
    (s.bridge br.val).nextDrive = some (.drive code duty phase) →
    Gives (.reversalBrakeEnd br) s (fun t => (t.bridge br.val).drive = code ∧ (t.bridge br.val).reversing = false ∧
      (t.bridge br.val).nextDrive = none ∧ (t.bridge br.val).pos = (s.bridge br.val).pos ∧
      (t.bridge br.val).forward = (s.bridge br.val).forward ∧ (t.chan (brChan br.val)).grd.inrush = true ∧ Frame [.ch] s t)) ∧
  (∀ (br : Fin 8) (s : State), (s.bridge br.val).reversing = false → exec (.reversalBrakeEnd br) s = .next s) ∧
  (∀ (br : Fin 8) (s : State), (s.chan (brChan br.val)).prof.hb.stallEn = true → (s.chan (brChan br.val)).prof.hb.stallReport = false →
    ((s.bridge br.val).drive = 1 ∨ (s.bridge br.val).drive = 2) → (s.bridge br.val).stall = false → s.senses br.val = true →
    Gives (.stallDetect br) s (fun t => (t.bridge br.val).stall = true ∧
      (t.bridge br.val).drive = (if (s.bridge br.val).forcedCoast then 4 else 0) ∧ (t.bridge br.val).stopped = true ∧
      (t.chan (brChan br.val)).out = .off ∧ (t.chan (brChan br.val)).cause = 13 ∧ Frame [.ch, .mbx, .log, .vz] s t)) ∧
  (∀ (br : Fin 8) (s : State), (s.chan (brChan br.val)).prof.hb.stallEn = true → (s.chan (brChan br.val)).prof.hb.stallReport = true →
    ((s.bridge br.val).drive = 1 ∨ (s.bridge br.val).drive = 2) → (s.bridge br.val).stall = false → s.senses br.val = true →
    Gives (.stallDetect br) s (fun t => (t.bridge br.val).stall = true ∧ (t.bridge br.val).drive = (s.bridge br.val).drive ∧
      (∀ j, t.chan j = s.chan j) ∧ Frame [.ch, .mbx, .log, .vz] s t)) ∧
  (∀ (br : Fin 8) (interval : Nat) (s : State), (s.chan (brChan br.val)).prof.hb.rippleEn = true → (s.bridge br.val).moving = true → s.senses br.val = true →
    judge (s.bridge br.val).intervals interval (s.chan (brChan br.val)).prof.hb.fRipMin = (1, false, 0) →
    interval * (s.chan (brChan br.val)).prof.hb.fRipMin < 1000000 → (s.bridge br.val).inserted + (s.bridge br.val).rejected ≤ 8 →
    (s.chan (brChan br.val)).targetOf (s.chan (brChan br.val)).src = none →
    Gives (.rippleCount br interval) s (fun t => (t.bridge br.val).pos = (if (s.bridge br.val).forward then (s.bridge br.val).pos + 1
        else (s.bridge br.val).pos - 1) ∧ (t.bridge br.val).lastRipple = some s.now ∧ (t.bridge br.val).rejected = (s.bridge br.val).rejected ∧
      (∀ j, t.chan j = s.chan j) ∧ Frame [.ch] s t)) ∧
  (∀ (br : Fin 8) (interval : Nat) (s : State), (s.chan (brChan br.val)).prof.hb.rippleEn = true → (s.bridge br.val).moving = true → s.senses br.val = true →
    judge (s.bridge br.val).intervals interval (s.chan (brChan br.val)).prof.hb.fRipMin = (0, true, 0) →
    interval * (s.chan (brChan br.val)).prof.hb.fRipMin < 1000000 → (s.bridge br.val).inserted + (s.bridge br.val).rejected < 8 →
    (s.chan (brChan br.val)).targetOf (s.chan (brChan br.val)).src = none →
    Gives (.rippleCount br interval) s (fun t => (t.bridge br.val).pos = (s.bridge br.val).pos ∧
      (t.bridge br.val).rejected = (s.bridge br.val).rejected + 1 ∧ (t.bridge br.val).lastRipple = (s.bridge br.val).lastRipple ∧
      Frame [.ch] s t)) ∧
  (∀ (br : Fin 8) (interval : Nat) (s : State), (s.chan (brChan br.val)).prof.hb.rippleEn = true → (s.bridge br.val).moving = true → s.senses br.val = true →
    judge (s.bridge br.val).intervals interval (s.chan (brChan br.val)).prof.hb.fRipMin = (0, true, 0) →
    interval * (s.chan (brChan br.val)).prof.hb.fRipMin < 1000000 → (s.bridge br.val).inserted + (s.bridge br.val).rejected = 8 →
    (s.bridge br.val).posValid = true → Gives (.rippleCount br interval) s (fun t => (t.bridge br.val).posValid = false)) ∧
  (∀ (br : Fin 8) (interval : Nat) (s : State), ((s.chan (brChan br.val)).prof.hb.rippleEn = false ∨ (s.bridge br.val).moving = false ∨ s.senses br.val = false) →
    exec (.rippleCount br interval) s = .next s) ∧
  (∀ (br : Fin 8) (s : State), Gives (.runonEnd br) s (fun t => (t.bridge br.val).runon = false ∧ (t.bridge br.val).lastRipple = none ∧
    (t.bridge br.val).pos = (s.bridge br.val).pos ∧ (∀ j, t.chan j = s.chan j) ∧ Frame [.ch] s t)) ∧
  (∀ (br : Fin 8) (s : State), (s.bridge br.val).drive ≠ 1 → (s.bridge br.val).drive ≠ 2 → (s.bridge br.val).runon = false →
    (s.bridge br.val).reversing = false → s.senses br.val = true → (s.bridge br.val).posValid = true →
    Gives (.uncountedMotion br) s (fun t => (t.bridge br.val).posValid = false ∧ Frame [.ch, .mbx, .log, .vz] s t)) ∧
  (∀ (br : Fin 8) (s : State), (s.bridge br.val).runon = true → exec (.uncountedMotion br) s = .next s) ∧
  (∀ (vlv : Fin 16) (m : ValveMeasure) (ma : Nat) (s : State), (s.chan (vlvChan vlv.val)).out = .regulate ma →
    (s.valve vlv.val).dithStart (s.chan (vlvChan vlv.val)).prof.vlv s.now = false →
    Gives (.valveRegulationPeriod vlv m) s (fun t => (t.valve vlv.val).target = ma ∧ (t.valve vlv.val).duty ≤ 10000 ∧
      (t.valve vlv.val).sat = decide ((t.valve vlv.val).duty = 10000) ∧ (t.valve vlv.val).ceil = m.ceil ∧
      (t.valve vlv.val).err = ((s.chan (vlvChan vlv.val)).prof.vlv.mean ma : Int) - (m.ma : Int) ∧
      ((s.valve vlv.val).compliance = true → (t.valve vlv.val).integ = (s.valve vlv.val).integ) ∧
      (t.chan (vlvChan vlv.val)).prof = (s.chan (vlvChan vlv.val)).prof ∧ (t.chan (vlvChan vlv.val)).out = .regulate ma ∧
      (∀ j, j ≠ vlvChan vlv.val → t.chan j = s.chan j) ∧ (∀ k, k ≠ vlv.val → t.valve k = s.valve k) ∧ Frame [.ch, .free] s t)) ∧
  (∀ (vlv : Fin 16) (m : ValveMeasure) (blk : VlvBlock) (s : State), (s.chan (vlvChan vlv.val)).out.isOff = false →
    (s.valve vlv.val).dithStart (s.chan (vlvChan vlv.val)).prof.vlv s.now = true →
    (s.valve vlv.val).newDither = some blk →
    Gives (.valveRegulationPeriod vlv m) s (fun t => (t.chan (vlvChan vlv.val)).prof.vlv = blk ∧ (t.valve vlv.val).newDither = none ∧
      Frame [.ch, .free] s t)) ∧
  (∀ (vlv : Fin 16) (m : ValveMeasure) (s : State), (s.chan (vlvChan vlv.val)).out.isOff = true →
    exec (.valveRegulationPeriod vlv m) s = .next s) ∧
  (∀ (vlv : Fin 16) (setMa gotMa : Nat) (s : State), (s.chan (vlvChan vlv.val)).out.isOff = false → (s.valve vlv.val).compliance = false →
    (s.valve vlv.val).sat = true → setMa = (s.chan (vlvChan vlv.val)).prof.vlv.mean (s.chan (vlvChan vlv.val)).setPoint →
    100 * gotMa + 5 * setMa < 100 * setMa → (s.chan (vlvChan vlv.val)).prof.openLoad .valve * 10 ≤ gotMa →
    Gives (.complianceSet vlv gotMa) s (fun t => (t.valve vlv.val).compliance = true ∧
      (t.valve vlv.val).compCount = satInc 0xFFFF (s.valve vlv.val).compCount ∧
      ((s.chan (vlvChan vlv.val)).prof.vlv.compOff = true → (t.chan (vlvChan vlv.val)).out = .off ∧
        (t.chan (vlvChan vlv.val)).cause = 12) ∧
      ((s.chan (vlvChan vlv.val)).prof.vlv.compOff = false → ∀ j, t.chan j = s.chan j) ∧ Frame [.ch, .mbx, .log, .vz] s t)) ∧
  (∀ (vlv : Fin 16) (gotMa : Nat) (s : State), ((s.valve vlv.val).sat = false ∨
    95 * (s.chan (vlvChan vlv.val)).prof.vlv.mean (s.chan (vlvChan vlv.val)).setPoint ≤ 100 * gotMa) →
    exec (.complianceSet vlv gotMa) s = .next s) ∧
  (∀ (vlv : Fin 16) (s : State), (s.valve vlv.val).compliance = true → (s.valve vlv.val).compOff = false →
    Gives (.complianceClear vlv) s (fun t => (t.valve vlv.val).compliance = false ∧ (∀ j, t.chan j = s.chan j) ∧
      Frame [.ch, .mbx, .log, .vz] s t)) ∧
  (∀ (vlv : Fin 16) (s : State), (s.valve vlv.val).compOff = true → exec (.complianceClear vlv) s = .next s)

/-- The supply hand-over (R18, R155 to R168, R175, Tables 6.3 and 6.4): each event moves the bridge as the table says, before the reflex
engine takes its next cycle. -/
def Obligations.HandOverFollowsItsTable : Prop :=
  (∀ (vin : Int) (s : State), s.brgRuns = true → s.brg.limits.en = true → s.sys.vinChecked = true → s.vinValid vin = true →
    s.brg.phase = .stopped →
    GivesEval (.bridgeStart vin) s (fun u => u.brg.phase = .buck ∧ u.brg.pairOn = true ∧ u.brg.battOn = false ∧ u.brg.loss = false ∧
      u.brg.target = s.brg.limits.vZ12 ∧ u.brg.railOn = !(s.brg.safeDone && decide (s.brg.safeAct = .railOff)) ∧ Frame [.brg] s u)) ∧
  (∀ (vin : Int) (s : State), s.brg.phase ≠ .stopped → Gives (.bridgeStart vin) s (fun t => t.brg.phase = s.brg.phase ∧
    t.brg.vinOk = s.vinValid vin ∧ Frame [.brg] s t)) ∧
  (∀ (vz48 vin : Int) (s : State), (s.brg.phase = .buck ∨ s.brg.phase = .handback) → s.lossCause vz48 vin ≠ 0 →
    GivesEval (.vinLossDetected vz48 vin) s (fun u => u.brg.phase = .detected ∧ u.brg.loss = true ∧ u.brg.pairOn = false ∧
      u.brg.railOn = false ∧ u.brg.battOn = false ∧ u.brg.restoring = false ∧ u.brg.cause = s.lossCause vz48 vin ∧
      u.brg.tbDetect = s.tb.count ∧ u.brg.lowest = vz48 ∧ u.brg.vinOk = s.vinValid vin ∧
      ((s.brg.limits.shedAtCommit = false ∨ s.brg.restoring = true) → u.brg.shedLvl = max s.brg.shedLvl (min s.brg.limits.shedHo 8)) ∧
      u.brg.shedVz12 = true ∧ u.sys.pairClass = (if vin < 900 then none else s.sys.pairClass) ∧
      Frame [.brg, .ch, .sig, .free, .mbx, .log, .vz, .sys, .twin] s u)) ∧
  (∀ (vz48 vin : Int) (s : State), s.brg.phase ≠ .buck → s.brg.phase ≠ .handback → s.lossCause vz48 vin ≠ 0 →
    Gives (.vinLossDetected vz48 vin) s (fun t => t.brg = { s.brg with pairOn := false, vinOk := s.vinValid vin } ∧
      t.sys = { s.sys with pairClass := if vin < 900 then none else s.sys.pairClass } ∧
      (s.cfg.image.boardnet ≠ .v12 → Frame [.brg, .sys] s t) ∧
      (s.cfg.image.boardnet = .v12 → ∀ g : Fin 8, (t.die g).supply = .lost) ∧ Frame [.brg, .sys, .ch, .twin, .mbx, .log, .vz] s t)) ∧
  (∀ (vz48 vin : Int) (s : State), s.lossCause vz48 vin = 0 →
    Gives (.vinLossDetected vz48 vin) s (fun t => t.brg = { s.brg with vinOk := s.vinValid vin } ∧ Frame [.brg] s t)) ∧
  (∀ (vz48 vin : Int) (s : State), s.brgPresent = true → (s.lossCause vz48 vin ≠ 0 ↔
    (vin < (s.brg.limits.vUv : Int) ∨ (s.brg.limits.rPair : Int) < (vz48 - vin) * 200))) ∧
  (∀ s : State, s.brg.phase = .detected → s.brg.test = none →
    GivesEval .handoverAbandon s (fun u => u.brg.phase = .buck ∧ u.brg.abandons = s.brg.abandons + 1 ∧ u.brg.loss = false ∧
      u.brg.shedLvl = s.brg.shedLvl - 1 ∧ Frame [.brg, .ch, .mbx, .log, .vz] s u)) ∧
  (∀ s : State, (s.brg.phase ≠ .detected ∨ s.brg.test.isSome = true) → exec .handoverAbandon s = .next s) ∧
  (∀ (vbk12 : Int) (s : State), s.brg.phase = .detected → (s.brg.limits.vBkMin : Int) ≤ vbk12 → s.brg.test = none →
    (s.brg.recent s.now).length < 2 → s.brg.vinOk = false → GivesEval (.commitPoint vbk12) s (fun u => u.brg.phase = .boost ∧ u.brg.battOn = true ∧ u.brg.commits = s.brg.commits + 1 ∧
      u.brg.tbCommit = s.tb.count ∧ u.brg.history = s.now :: s.brg.recent s.now ∧ Frame [.brg, .ch, .mbx, .log, .vz] s u)) ∧
  (∀ (vbk12 : Int) (s : State), s.brg.phase = .detected → (s.brg.limits.vBkMin : Int) ≤ vbk12 → s.brg.test = none →
    2 ≤ (s.brg.recent s.now).length → GivesEval (.commitPoint vbk12) s (fun u => u.brg.phase = .locked ∧ u.brg.battOn = true ∧ u.brg.commits = s.brg.commits + 1 ∧
      Frame [.brg, .ch, .mbx, .log, .vz] s u)) ∧
  (∀ (vbk12 : Int) (s : State), s.brg.phase = .detected → vbk12 < (s.brg.limits.vBkMin : Int) →
    GivesEval (.commitPoint vbk12) s (fun u => u.brg.phase = .nofeed ∧
    u.brg.shedLvl = max s.brg.shedLvl 8 ∧ u.brg.battOn = false ∧ u.brg.bkLow = true ∧ u.brg.test = none ∧ Frame [.brg, .ch, .mbx, .log, .vz] s u)) ∧
  (∀ s : State, s.brg.phase = .boost → s.brg.test = none → GivesEval .vinValidInBoost s (fun u => u.brg.phase = .qualify ∧
    u.brg.vinOk = true ∧ Frame [.brg] s u)) ∧
  (∀ s : State, s.brg.phase ≠ .boost → GivesEval .vinValidInBoost s (fun u => u.brg.phase = s.brg.phase ∧ u.brg.vinOk = true ∧
    Frame [.brg] s u)) ∧
  (∀ s : State, s.brg.phase = .qualify → GivesEval .vinInvalidInQualify s (fun u => u.brg.phase = .boost ∧ u.brg.vinOk = false ∧
    Frame [.brg] s u)) ∧
  (∀ s : State, (s.brg.phase = .qualify ∨ s.brg.phase = .nofeed) → s.brgRuns = true →
    GivesEval .qualifyTimeout s (fun u => u.brg.phase = .handback ∧ u.brg.battOn = false ∧ u.brg.loss = false ∧ Frame [.brg] s u)) ∧
  (∀ s : State, s.brg.phase = .handback → GivesEval .handbackRampComplete s (fun u => u.brg.phase = .buck ∧
    u.brg.tbHandback = s.tb.count ∧ u.brg.shedLvl = s.brg.shedLvl - 1 ∧ Frame [.brg, .ch, .mbx, .log, .vz] s u)) ∧
  (∀ s : State, s.brg.phase = .buck → s.brg.restoring = true → s.brg.shedLvl ≠ 0 → GivesEval .shedRestore s (fun u =>
    u.brg.shedLvl = s.brg.shedLvl - 1 ∧ u.brg.restoring = decide (1 < s.brg.shedLvl) ∧ Frame [.brg, .ch] s u)) ∧
  (∀ s : State, s.brg.phase = .buck → s.brg.railOn = true → s.brg.shedVz12 = true → GivesEval .vz12GroupRelease s (fun u =>
    u.brg.shedVz12 = false ∧ u.brg.phase = .buck ∧ Frame [.brg, .ch] s u)) ∧
  (∀ (reverse : Bool) (vin : Int) (s : State), Gives (.vinWindowEntry reverse vin) s (fun t =>
    t.brg.pairOn = (s.brg.pairOn || (inWindow (pairWindow s.sys.pairClass) vin && !reverse && !s.brg.loss &&
      !s.brg.phase.handOver)) ∧ t.brg.vinOk = s.vinValid vin ∧ t.brg.phase = s.brg.phase ∧ Frame [.brg] s t)) ∧
  (∀ s : State, s.brg.test = none → s.brg.phase ≠ .stopped → GivesEval .bridgeControlStop s (fun u => u.brg.phase = .stopped ∧
    u.brg.railOn = false ∧ u.brg.battOn = false ∧ u.brg.loss = false ∧ u.brg.shedLvl = 0 ∧ u.brg.shedVz12 = false ∧
    Frame [.brg, .ch] s u))

/-- Faults of the power bridge (R164, Table 6.7): low battery, overload, a phase at 40 A, a hot die and an undervoltage of `VZ12`. -/
def Obligations.BridgeFaultsAct : Prop :=
  (∀ s : State, s.brg.phase.boosts = true → GivesEval .vbk12Low s (fun u => u.brg.phase = .nofeed ∧ u.brg.battOn = false ∧
    u.brg.railOn = false ∧ u.brg.bkLow = true ∧ u.brg.test = none ∧ Frame [.brg, .ch, .mbx, .log, .vz] s u)) ∧
  (∀ s : State, s.brg.phase.boosts = false → exec .vbk12Low s = .next s) ∧
  (∀ (ibk vz48 : Int) (s : State), s.brg.phase.boosts = true → s.brg.shedLvl < 8 → s.brg.overloaded ibk vz48 = true →
    GivesEval (.boostOverload ibk vz48) s (fun u =>
    u.brg.shedLvl = s.brg.shedLvl + 1 ∧ u.brg.phase = s.brg.phase ∧ u.brg.lowest = min s.brg.lowest vz48 ∧ Frame [.brg, .ch, .mbx, .log, .vz] s u)) ∧
  (∀ (ibk vz48 : Int) (s : State), (s.brg.phase.boosts = false ∨ 8 ≤ s.brg.shedLvl ∨ s.brg.overloaded ibk vz48 = false) →
    Gives (.boostOverload ibk vz48) s (fun t => t.brg = { s.brg with lowest := if s.brg.phase.handOver then min s.brg.lowest vz48
      else s.brg.lowest } ∧ Frame [.brg] s t)) ∧
  (∀ (ph : Fin 4) (s : State), s.brg.phOk.getLsbD ph.val = true → 3 ≤ s.brg.phases → GivesEval (.phaseOvercurrentLatch ph) s (fun u =>
    u.brg.phOk = s.brg.phOk &&& ~~~((1 : BitVec 4) <<< ph.val) ∧ u.brg.phases = s.brg.phases - 1 ∧ u.brg.phase = s.brg.phase ∧
    Frame [.brg, .mbx, .log, .vz] s u)) ∧
  (∀ (ph : Fin 4) (s : State), s.brg.phOk.getLsbD ph.val = true → s.brg.phases < 3 → s.brg.test = none → s.brg.phase ≠ .stopped →
    GivesEval (.phaseOvercurrentLatch ph) s (fun u => u.brg.phOk = s.brg.phOk &&& ~~~((1 : BitVec 4) <<< ph.val) ∧
      u.brg.phase = .stopped ∧ u.brg.shedLvl = 0 ∧ Frame [.brg, .ch, .mbx, .log, .vz] s u)) ∧
  (∀ (ph : Fin 4) (s : State), s.brg.phOk.getLsbD ph.val = false → exec (.phaseOvercurrentLatch ph) s = .next s) ∧
  (∀ (temp : Int) (s : State), 1500 < temp → Gives (.bridgeDieHot temp) s (fun t => t.brg.derate = true ∧ t.brg.temp = temp ∧
    t.brg.phase = s.brg.phase ∧ t.brg.hotStop = s.brg.hotStop ∧ Frame [.brg, .mbx, .log, .vz] s t ∧
    (s.brg.derate = true → Frame [.brg] s t))) ∧
  (∀ (temp : Int) (s : State), temp < 1500 → Gives (.bridgeDieCooled temp) s (fun t => t.brg.derate = false ∧ t.brg.temp = temp ∧
    t.brg.hotStop = (s.brg.hotStop && decide (1400 ≤ temp)) ∧ t.brg.phase = s.brg.phase ∧ Frame [.brg] s t)) ∧
  (∀ (temp : Int) (s : State), s.brg.hotStop = false → 1700 ≤ temp → s.brg.test = none → s.brg.phase.handOver = true →
    GivesEval (.bridgeDieOvertemp temp) s (fun u => u.brg.phase = .nofeed ∧ u.brg.hotStop = true ∧ u.brg.derate = true ∧
      u.brg.boostLimit = 0 ∧ u.brg.buckLimit 1200 = 0 ∧ Frame [.brg, .ch, .mbx, .log, .vz] s u)) ∧
  (∀ (temp : Int) (s : State), s.brg.hotStop = false → 1700 ≤ temp → s.brg.test = none → s.brg.phase.handOver = false →
    GivesEval (.bridgeDieOvertemp temp) s (fun u => u.brg.phase = .stopped ∧ u.brg.hotStop = true ∧ u.brg.derate = true ∧
      u.brg.boostLimit = 0 ∧ Frame [.brg, .ch, .mbx, .log, .vz] s u)) ∧
  (∀ (temp : Int) (s : State), (s.brg.hotStop = true ∨ temp < 1700) → exec (.bridgeDieOvertemp temp) s = exec (.bridgeDieHot temp) s) ∧
  (∀ (vz12 : Int) (s : State), s.brg.phase = .buck → s.brg.railOn = true → vz12 * 100 < (s.brg.target : Int) * 80 →
    Gives (.vz12Undervoltage vz12) s (fun t => t.brg.railOn = false ∧
    t.brg.vz12Fault = true ∧ t.brg.phase = .buck ∧ Frame [.brg, .mbx, .log, .vz] s t)) ∧
  (∀ (vz12 : Int) (s : State), (s.brg.phase ≠ .buck ∨ s.brg.railOn = false ∨ (s.brg.target : Int) * 80 ≤ vz12 * 100) →
    exec (.vz12Undervoltage vz12) s = .next s) ∧
  (∀ (regulated : Bool) (s : State), s.brg.phase = .buck → s.brg.vz12Fault = true →
    (s.brg.safeDone = false ∨ s.brg.safeAct ≠ .railOff) → Gives (.vz12Retry regulated) s (fun t => t.brg.railOn = regulated ∧
      t.brg.vz12Fault = (!regulated) ∧ t.brg.phase = .buck ∧ Frame [.brg] s t)) ∧
  (∀ (regulated : Bool) (s : State), s.brg.safeDone = true → s.brg.safeAct = .railOff → exec (.vz12Retry regulated) s = .next s)

/-- The BRG commands (R171, R174, R175, Table 6.13). -/
def Obligations.BridgeCommandsAct : Prop :=
  (∀ (s : State) (r : Req) (p : Port) (m : BrgMeasure), Requested s r p 0 → s.sys.mode.isServing = true →
    Gives (.brgGetStatus r m) s (fun t => ∃ u, t = respond r 0x0401 stat_ok (brgStatus m u) u ∧ u.brg.vinOk = s.vinValid m.vin ∧
      u.brg.bkLow = decide (m.vbk12 < (s.brg.limits.vBkMin : Int)) ∧ u.brg.phase = s.brg.phase ∧
      u.brg.lowest = (if s.brg.phase.handOver then min s.brg.lowest (min m.vz48 m.lowest) else s.brg.lowest) ∧ Frame [.brg] s u)) ∧
  (∀ (s : State) (r : Req) (p : Port) (v : U16), Requested s r p 4 → p.sysPriv = true → 1000 ≤ v.toNat → v.toNat ≤ 1450 →
    s.sys.mode.isRunLimpWork = true → s.brgPresent = true →
    Answers (.brgSetTarget r v) r 0x0402 stat_ok [] s (fun u => u.brg.limits.vZ12 = v.toNat ∧
      (s.brg.phase = .buck → u.brg.target = v.toNat) ∧ (s.brg.phase ≠ .buck → u.brg.target = s.brg.target) ∧ Frame [.brg] s u)) ∧
  (∀ (s : State) (r : Req) (p : Port) (v : U16), Requested s r p 4 → p.sysPriv = true → 1000 ≤ v.toNat → v.toNat ≤ 1450 →
    s.sys.mode.isRunLimpWork = true → s.brgPresent = false →
    Answers (.brgSetTarget r v) r 0x0402 stat_brgClass [] s (fun u => u = s)) ∧
  (∀ (s : State) (r : Req) (p : Port) (f : LimitsFields), Requested s r p 32 → p.sysPriv = true → f.flags.toNat < 16 →
    f.flags.extractLsb' 2 2 ≠ 3 → (limitsOf f).ok s.cfg.image.boardnet = true → s.sys.mode = .workshop → s.brgPresent = true →
    (s.brg.phase = .buck ∨ s.brg.phase = .stopped) →
    AnswersEval (.brgSetLimits r f) r 0x0403 stat_ok [] s (fun u => u.brg.limits = limitsOf f ∧
      (s.brg.phase = .buck → u.brg.target = f.vZ12.toNat) ∧ u.brg.phase = s.brg.phase ∧
      (∀ i : Fin 112, (u.chan i).hoShed = u.stageSheds i) ∧ Frame [.brg, .ch] s u)) ∧
  (∀ (s : State) (r : Req) (p : Port) (f : LimitsFields), Requested s r p 32 → p.sysPriv = true → f.flags.toNat < 16 →
    f.flags.extractLsb' 2 2 ≠ 3 → (limitsOf f).ok s.cfg.image.boardnet = true → s.sys.mode = .workshop → s.brgPresent = true →
    s.brg.phase ≠ .buck → s.brg.phase ≠ .stopped → Answers (.brgSetLimits r f) r 0x0403 stat_brgActive [] s (fun u => u = s)) ∧
  (∀ (s : State) (r : Req) (p : Port), Requested s r p 0 → p.sysPriv = true → s.sys.mode.isRunLimpWork = true → s.brgPresent = true →
    s.brg.phase = .locked → Gives (.brgRelease r) s (fun t => ∃ u, t = respond r 0x0404 stat_ok (le32 (evalRules u).brgWord) (evalRules u) ∧
      u.brg.phase = (if s.brg.vinOk && s.brg.test.isNone then .qualify else .boost) ∧ u.brg.history = [] ∧ Frame [.brg] s u)) ∧
  (∀ (s : State) (r : Req) (p : Port), Requested s r p 0 → p.sysPriv = true → s.sys.mode.isRunLimpWork = true → s.brgPresent = true →
    s.brg.phase ≠ .locked → Answers (.brgRelease r) r 0x0404 stat_badState [] s (fun u => u = s)) ∧
  (∀ (s : State) (r : Req) (p : Port) (shedHo shedAt : Byte), Requested s r p 4 → p.sysPriv = true → shedHo.toNat ≤ 8 →
    shedAt.toNat ≤ 1 → s.sys.mode.isRunLimpWork = true → s.brgPresent = true →
    Answers (.brgSetShed r shedHo shedAt) r 0x0405 stat_ok [] s (fun u => u.brg.limits = { s.brg.limits with
      shedHo := shedHo.toNat, shedAtCommit := decide (shedAt = 1) } ∧ u.brg.phase = s.brg.phase ∧ Frame [.brg] s u)) ∧
  (∀ (s : State) (r : Req) (p : Port) (duration : U16) (vin vbk12 : Int), Requested s r p 4 → p.sysPriv = true →
    within 10 10000 duration.toNat = true → s.sys.mode = .workshop → s.brgPresent = true → s.brg.phase = .buck → s.vinValid vin = true →
    (s.brg.limits.vBkMin : Int) + 100 ≤ vbk12 →
    AnswersEval (.brgTestHandover r duration vin vbk12) r 0x0406 stat_pending [] s (fun u => u.brg.phase = .detected ∧ u.brg.cause = 3 ∧
      u.brg.test = some { port := r.port, tag := r.tag, reqSeq := r.seq, duration := duration.toNat } ∧
      Frame [.brg, .ch, .sig, .free, .mbx, .log, .vz] s u)) ∧
  (∀ (s : State) (r : Req) (p : Port) (duration : U16) (vin vbk12 : Int), Requested s r p 4 → p.sysPriv = true →
    within 10 10000 duration.toNat = true → s.sys.mode = .workshop → s.brgPresent = true → s.brg.phase = .buck → s.vinValid vin = true →
    vbk12 < (s.brg.limits.vBkMin : Int) + 100 →
    Answers (.brgTestHandover r duration vin vbk12) r 0x0406 stat_brgNoBattery [] s (fun u => u.brg.phase = .buck ∧ u.brg.test = s.brg.test ∧
      Frame [.brg] s u)) ∧
  (∀ (lowest peak : Int) (energy : U32) (x : HandoverTest) (s : State), s.brg.test = some x → s.brg.phase = .boost → s.brg.vinOk = true →
    GivesEval (.handoverTestEnd lowest peak energy) s (fun u => u.brg.phase = .handback ∧ u.brg.test = none ∧ u.brg.battOn = false ∧
      ∃ v, u = complete x.port x.reqSeq x.tag 0x0406 stat_ok (i16 lowest ++ i16 peak ++ le32 energy) v ∧ Frame [.brg] s v)) ∧
  (∀ (lowest peak : Int) (energy : U32) (s : State), s.brg.test = none → exec (.handoverTestEnd lowest peak energy) s = .next s)

/-- Discrete and analog inputs and sensor supplies (R178 to R185, Tables 7.1 to 7.3 and 7.14): a sample passes the comparators and the
filter, a change of the reported state sets its change bits and its stamp, and a supply in fault turns off until a retry regulates. -/
def Obligations.FieldInputEventsAct : Prop :=
  (∀ (n : Fin 64) (mv : Int) (e : DiInput) (s : State), s.afeOn (n.val / 32) = true →
    e = ((s.diInput n.val).compare mv).filter ((s.diInput n.val).compare mv).raw → e.reported = (s.diInput n.val).state →
    Gives (.diSample n mv) s (fun t => t.diInput n.val = { e with state := (s.diInput n.val).state } ∧
      (∀ m, m ≠ n.val → t.diInput m = s.diInput m) ∧ Frame [.fio] s t)) ∧
  (∀ (n : Fin 64) (mv : Int) (e : DiInput) (s : State), s.afeOn (n.val / 32) = true →
    e = ((s.diInput n.val).compare mv).filter ((s.diInput n.val).compare mv).raw → e.reported ≠ (s.diInput n.val).state →
    s.rfx.enabled = false →
    Gives (.diSample n mv) s (fun t => t.diInput n.val = { e with state := e.reported, chg := true, readChg := true, stamp := s.tb.count } ∧
      (∀ m, m ≠ n.val → t.diInput m = s.diInput m) ∧ Frame [.fio, .rfx, .mbx, .log, .vz, .sig, .tb] s t)) ∧
  (∀ (n : Fin 64) (mv : Int) (s : State), s.afeOn (n.val / 32) = false → exec (.diSample n mv) s = .next s) ∧
  (∀ (v : Fin 256) (s : State), (∃ n : Fin 64, s.diOwner n.val = some v.val) →
    Gives (.fioDiStampLoRead v) s (fun t => (∀ n : Fin 64, s.diOwner n.val = some v.val →
        (s.diInput n.val).stamp.toNat ≤ (t.fio.diStampHi.getD 0 v.val).toNat * 4294967296 + t.bus.toNat) ∧
      (∃ n : Fin 64, s.diOwner n.val = some v.val ∧
        (s.diInput n.val).stamp.toNat = (t.fio.diStampHi.getD 0 v.val).toNat * 4294967296 + t.bus.toNat) ∧ Frame [.fio, .bus] s t)) ∧
  (∀ (uv : List Int) (sup : List (Nat × Nat)) (s : State), GivesEval (.aiSample uv sup) s (fun u =>
    (∀ n : Fin 48, s.afeOn (n.val / 24) = true → (u.aiInput n.val).count = (s.aiInput n.val).count + 1) ∧
    (∀ n : Fin 48, s.afeOn (n.val / 24) = true → (s.aiInput n.val).cfg.ratio = 0 → (s.aiInput n.val).cfg.k = 0 →
      (u.aiInput n.val).code = min (aiCode (uv.getD n.val 0) (aiFullScale (s.aiInput n.val).cfg.range)) 0x3FFE ∧
      (u.aiInput n.val).orange = decide (0x3FFE < aiCode (uv.getD n.val 0) (aiFullScale (s.aiInput n.val).cfg.range))) ∧
    (∀ n : Fin 48, s.afeOn (n.val / 24) = true → (s.aiInput n.val).cfg.ratio ≠ 0 → (s.sup ((s.aiInput n.val).cfg.ratio - 1)).ok = false →
      (u.aiInput n.val).code = 0x3FFF ∧ (u.aiInput n.val).supf = true ∧ (u.aiInput n.val).value = 0xFFFF) ∧
    (∀ n : Fin 48, s.afeOn (n.val / 24) = false → u.aiInput n.val = s.aiInput n.val) ∧ Frame [.fio, .free, .mbx, .log, .vz, .sig] s u)) ∧
  (∀ (sup : Fin 4) (forced : Bool) (s : State), (s.sup sup.val).on = true → s.afeOn (sup.val / 2) = true →
    Gives (.sensorSupplyFault sup forced) s (fun t => ∃ u,
      t = (if (s.sup sup.val).ilim || (s.sup sup.val).extV then evalRules u
        else raiseFio evt_fioSupFault sup.val (s.supOwner sup.val) [] (evalRules u)) ∧
      (u.sup sup.val).ok = false ∧ (u.sup sup.val).ilim = ((s.sup sup.val).ilim || !forced) ∧
      (u.sup sup.val).extV = ((s.sup sup.val).extV || forced) ∧ (∀ k, k ≠ sup.val → u.sup k = s.sup k) ∧
      (∀ n : Fin 48, (s.aiInput n.val).cfg.ratio = sup.val + 1 → (u.aiInput n.val).code = 0x3FFF ∧ (u.aiInput n.val).supf = true) ∧
      Frame [.fio, .sig, .mbx, .log, .vz] s u)) ∧
  (∀ (sup : Fin 4) (forced : Bool) (s : State), (s.sup sup.val).on = false → exec (.sensorSupplyFault sup forced) s = .next s) ∧
  (∀ (sup : Fin 4) (s : State), (s.sup sup.val).on = true → ((s.sup sup.val).ilim = true ∨ (s.sup sup.val).extV = true) →
    s.afeOn (sup.val / 2) = true → Gives (.sensorSupplyRetry sup true) s (fun t => ∃ u,
      t = raiseFio evt_fioSupOk sup.val (s.supOwner sup.val) [] (evalRules u) ∧ (u.sup sup.val).ok = true ∧
      (u.sup sup.val).ilim = false ∧ (u.sup sup.val).extV = false ∧ (∀ k, k ≠ sup.val → u.sup k = s.sup k) ∧
      (∀ n : Fin 48, (s.aiInput n.val).cfg.ratio = sup.val + 1 → (u.aiInput n.val).supf = false) ∧
      Frame [.fio, .sig, .mbx, .log, .vz] s u)) ∧
  (∀ (sup : Fin 4) (s : State), exec (.sensorSupplyRetry sup false) s = .next s)

/-- The FIO commands of the inputs and supplies (R178, R180, R182, R183, R185, Table 7.19). -/
def Obligations.FieldInputCommandsAct : Prop :=
  (∀ (s : State) (r : Req) (p : Port) (input : U16) (f : DiFields), Requested s r p 20 → input.toNat ≤ 63 →
    p.mayUse (s.diOwner input.toNat) → f.flags.toNat < 48 → (diRecordOf f).rangeOk = true → (diRecordOf f).conflict = false →
    s.sys.mode.isRunLimpWork = true → (s.diInput input.toNat).state = .notValid →
    Answers (.fioDiConfig r input f) r 0x0501 stat_ok [] s (fun u => (u.diInput input.toNat).rec_ = diRecordOf f ∧
      (u.diInput input.toNat).contact = none ∧ (u.diInput input.toNat).f = 0 ∧ (u.diInput input.toNat).c = (f.n.toNat + 1) / 2 ∧
      (u.diInput input.toNat).state = .notValid ∧ (∀ m, m ≠ input.toNat → u.diInput m = s.diInput m) ∧ Frame [.fio] s u)) ∧
  (∀ (s : State) (r : Req) (p : Port) (input : U16) (f : DiFields), Requested s r p 20 → input.toNat ≤ 63 →
    p.mayUse (s.diOwner input.toNat) → f.flags.toNat < 48 → (diRecordOf f).rangeOk = true → (diRecordOf f).conflict = false →
    s.sys.mode.isRunLimpWork = true → (s.diInput input.toNat).state ≠ .notValid → s.rfx.enabled = false →
    Answers (.fioDiConfig r input f) r 0x0501 stat_ok [] s (fun u => (u.diInput input.toNat).rec_ = diRecordOf f ∧
      (u.diInput input.toNat).state = .notValid ∧ (u.diInput input.toNat).chg = true ∧
      (∀ m, m ≠ input.toNat → u.diInput m = s.diInput m) ∧ Frame [.fio, .rfx, .mbx, .log, .vz, .sig, .tb] s u)) ∧
  (∀ (s : State) (r : Req) (p : Port) (input : U16) (f : DiFields), Requested s r p 20 → input.toNat ≤ 63 →
    p.mayUse (s.diOwner input.toNat) → f.flags.toNat < 48 → (diRecordOf f).rangeOk = true → (diRecordOf f).conflict = true →
    Answers (.fioDiConfig r input f) r 0x0501 stat_fioConflict [] s (fun u => u = s)) ∧
  (∀ (s : State) (r : Req) (p : Port), Requested s r p 0 → p.sysPriv = true → s.sys.mode.isServing = true →
    Answers (.fioDiRead r) r 0x0502 stat_ok ((List.range 4).flatMap (fun k => le32 (pack2 (16 * k) (fun _ => true) s.diCode))
      ++ n64 (maskOf 64 (fun n => (s.diInput n).readChg)) ++ le16 s.fio.waking ++ zeros 6) s
      (fun u => (∀ n : Fin 64, (u.diInput n.val).readChg = false ∧ (u.diInput n.val).state = (s.diInput n.val).state ∧
        (u.diInput n.val).chg = (s.diInput n.val).chg) ∧ Frame [.fio] s u)) ∧
  (∀ (s : State) (r : Req) (p : Port) (v : Nat), Requested s r p 0 → p.sysPriv = false → p.vzf = some v →
    (∃ n : Fin 64, s.diOwner n.val = some v) → s.sys.mode.isServing = true →
    Answers (.fioDiRead r) r 0x0502 stat_ok ((List.range 4).flatMap (fun k =>
        le32 (pack2 (16 * k) (fun n => decide (s.diOwner n = some v)) s.diCode))
      ++ n64 (maskOf 64 (fun n => decide (s.diOwner n = some v) && (s.diInput n).readChg)) ++ le16 s.fio.waking ++ zeros 6) s
      (fun u => (∀ n : Fin 64, s.diOwner n.val ≠ some v → u.diInput n.val = s.diInput n.val) ∧
        (∀ n : Fin 64, s.diOwner n.val = some v → (u.diInput n.val).readChg = false) ∧ Frame [.fio] s u)) ∧
  (∀ (s : State) (r : Req) (p : Port), Requested s r p 0 → p.sysPriv = false →
    (∀ (v : Nat) (n : Fin 64), p.vzf = some v → s.diOwner n.val ≠ some v) →
    Answers (.fioDiRead r) r 0x0502 stat_denied [] s (fun u => u = s)) ∧
  (∀ (s : State) (r : Req) (p : Port) (input : U16) (range ratio k : Byte), Requested s r p 8 → input.toNat ≤ 47 →
    p.mayUse (s.aiOwner input.toNat) → range.toNat ≤ 2 → ratio.toNat ≤ 4 → k.toNat ≤ 6 → (ratio = 0 ∨ range = 0) →
    s.sys.mode.isRunLimpWork = true →
    AnswersEval (.fioAiConfig r input range ratio k) r 0x0503 stat_ok [] s (fun u =>
      (u.aiInput input.toNat).cfg = { range := range.toNat, ratio := ratio.toNat, k := k.toNat } ∧
      (((s.aiInput input.toNat).cfg.range = range.toNat ∧ (s.aiInput input.toNat).cfg.ratio = ratio.toNat) →
        (u.aiInput input.toNat).hist = (s.aiInput input.toNat).hist) ∧
      (s.afeOn (input.toNat / 24) = true → s.fio.supFor { range := range.toNat, ratio := ratio.toNat, k := k.toNat } = true →
        (u.aiInput input.toNat).code = (s.aiInput input.toNat).code ∧ (u.aiInput input.toNat).supf = false) ∧
      (s.fio.supFor { range := range.toNat, ratio := ratio.toNat, k := k.toNat } = false →
        (u.aiInput input.toNat).code = 0x3FFF ∧ (u.aiInput input.toNat).supf = true) ∧
      (∀ m : Fin 48, m.val ≠ input.toNat → u.aiInput m.val = (s.aiInput m.val).shown (s.afeOn (m.val / 24)) (s.fio.supFor (s.aiInput m.val).cfg)) ∧
      Frame [.fio, .sig, .mbx, .log, .vz] s u)) ∧
  (∀ (s : State) (r : Req) (p : Port) (first : U16), Requested s r p 4 → first.toNat < 48 → p.sysPriv = true →
    s.sys.mode.isServing = true → Answers (.fioAiRead r first 1) r 0x0504 stat_ok
      (le32 (s.aiInput first.toNat).codeWord ++ le32 (s.aiInput first.toNat).valWord) s (fun u => u = s)) ∧
  (∀ (s : State) (r : Req) (p : Port) (first count : U16), Requested s r p 4 → 48 < first.toNat + count.toNat →
    Answers (.fioAiRead r first count) r 0x0504 stat_range [] s (fun u => u = s)) ∧
  (∀ (s : State) (r : Req) (p : Port) (supply : Byte), Requested s r p 4 → supply.toNat ≤ 3 → p.mayUse (s.supOwner supply.toNat) →
    s.sys.mode.isRunLimpWork = true → (s.sup supply.toNat).on = false → s.afeOn (supply.toNat / 2) = true →
    Gives (.fioSupSet r supply 1) s (fun t => ∃ u, t = respond r 0x0505 stat_ok (le32 ((evalRules u).sup supply.toNat).word) (evalRules u) ∧
      (u.sup supply.toNat).on = true ∧ (u.sup supply.toNat).ok = true ∧ (∀ k, k ≠ supply.toNat → u.sup k = s.sup k) ∧
      (∀ n : Fin 48, (s.aiInput n.val).cfg.ratio = supply.toNat + 1 → (u.aiInput n.val).supf = false) ∧
      Frame [.fio, .sig, .mbx, .log, .vz] s u)) ∧
  (∀ (s : State) (r : Req) (p : Port) (supply : Byte), Requested s r p 4 → supply.toNat ≤ 3 → p.mayUse (s.supOwner supply.toNat) →
    s.sys.mode.isRunLimpWork = true → Gives (.fioSupSet r supply 0) s (fun t => ∃ u, t = respond r 0x0505 stat_ok
      (le32 ((evalRules u).sup supply.toNat).word) (evalRules u) ∧ (u.sup supply.toNat).on = false ∧ (u.sup supply.toNat).ok = false ∧
      (u.sup supply.toNat).ilim = false ∧ (u.sup supply.toNat).extV = false ∧
      (∀ n : Fin 48, (s.aiInput n.val).cfg.ratio = supply.toNat + 1 → (u.aiInput n.val).code = 0x3FFF ∧ (u.aiInput n.val).supf = true) ∧
      Frame [.fio, .sig, .mbx, .log, .vz] s u)) ∧
  (∀ (s : State) (r : Req) (p : Port) (mask tCyc : U16) (k : Byte), Requested s r p 8 → p.sysPriv = true → 10 ≤ tCyc.toNat →
    tCyc.toNat ≤ 1000 → 1 ≤ k.toNat → k.toNat ≤ 8 → s.sys.mode.isRunWork = true →
    Answers (.fioCyclicSense r mask tCyc k) r 0x0506 stat_ok [] s (fun u => u.fio.cycMask = mask ∧ u.fio.tCyc = tCyc.toNat ∧
      u.fio.cycK = k.toNat ∧ (∀ n, u.diInput n = s.diInput n) ∧ Frame [.fio] s u))

/-- The barrier link and the field side of the isolated bank (R187, R189 to R194, Table 7.5): frames with their CRC and sequence, the safe
states after t_XTO, the diagnostics of an output, and the supply `XVF`. -/
def Obligations.BarrierLinkEventsAct : Prop :=
  (∀ s : State, s.xioOn = true → s.sys.mode ≠ .basecamp → (∀ w ∈ s.fio.bank.words, w.1 < 256 ∧ w.2 < 16777216) →
    Gives .barrierDownlinkFrame s (fun t =>
    t.fio.bank.downSeq = s.fio.bank.downSeq + 1 ∧ t.fio.bank.line.extractLsb' 112 8 = s.fio.bank.downSeq + 1 ∧
    t.fio.bank.line.extractLsb' 0 16 = frameCrc t.fio.bank.line ∧ (∀ k : Fin 32, (t.xch k.val).sent = s.xCommand k.val) ∧ Frame [.fio] s t)) ∧
  (∀ s : State, s.xioOn = false → exec .barrierDownlinkFrame s = .next s) ∧
  (∀ (frame : BitVec 128) (s : State), s.fio.bank.fPowered = true → frameValid frame 1 s.fio.bank.fDownSeq = true →
    frame.getLsbD 125 = false →
    Gives (.barrierDownlinkReceived frame) s (fun t => t.fio.bank.fDownSeq = some (frame.extractLsb' 112 8) ∧ t.fio.bank.fTimedOut = false ∧
      t.fio.bank.fLost = s.fio.bank.fLost + seqJump s.fio.bank.fDownSeq (frame.extractLsb' 112 8) ∧
      (∀ k : Fin 32, t.xch k.val = (s.xch k.val).follow (frameField frame (48 + 2 * k.val) 2)) ∧ Frame [.fio] s t)) ∧
  (∀ (frame : BitVec 128) (s : State), s.fio.bank.fPowered = true → frameValid frame 1 s.fio.bank.fDownSeq = true →
    frame.getLsbD 125 = true → frameField frame 40 8 = 0x20 →
    Gives (.barrierDownlinkReceived frame) s (fun t => t.fio.bank.fXto = frameField frame 16 24 % 16384 ∧
      t.fio.bank.fAck = (!s.fio.bank.fAck) ∧ Frame [.fio] s t)) ∧
  (∀ (frame : BitVec 128) (s : State), (s.fio.bank.fPowered = false ∨ frameValid frame 1 s.fio.bank.fDownSeq = false) →
    exec (.barrierDownlinkReceived frame) s = .next s) ∧
  (∀ (frame : BitVec 128) (s : State), s.xioOn = true → frame.extractLsb' 0 16 ≠ frameCrc frame →
    Gives (.barrierUplinkFrame frame) s (fun t => t.fio.bank.crcErr = satInc 0xFF s.fio.bank.crcErr ∧ t.fio.bank.run = 0 ∧
      (∀ k, t.xch k = s.xch k) ∧ Frame [.fio] s t)) ∧
  (∀ (frame : BitVec 128) (s : State), s.xioOn = true → frameValid frame 2 s.fio.bank.upSeq = true → s.fio.bank.up = false →
    s.fio.bank.run < 3 → Gives (.barrierUplinkFrame frame) s (fun t => t.fio.bank.upSeq = some (frame.extractLsb' 112 8) ∧
      t.fio.bank.up = false ∧ (∀ k, t.xch k = s.xch k) ∧ Frame [.fio] s t)) ∧
  (∀ (frame : BitVec 128) (s : State), s.xioOn = true → frameValid frame 2 s.fio.bank.upSeq = true → s.fio.bank.up = true →
    s.rfx.enabled = false → Gives (.barrierUplinkFrame frame) s (fun t => t.fio.bank.upSeq = some (frame.extractLsb' 112 8) ∧
      t.fio.bank.up = true ∧ t.fio.bank.xvfLow = frame.getLsbD 124 ∧ t.fio.bank.ackSeen = frame.getLsbD 123 ∧
      (∀ k : Fin 32, (t.xch k.val).state = xStateOf (frameField frame (48 + 2 * k.val) 2)) ∧ Frame [.fio, .mbx, .log, .vz, .sig, .tb] s t)) ∧
  (∀ s : State, s.xioOn = true → s.fio.bank.up = true → GivesEval .xUplinkLost s (fun u => u.fio.bank.up = false ∧
    u.fio.bank.safeReq = none ∧ (∀ k : Fin 32, (u.xch k.val).state = 3) ∧ Frame [.fio, .mbx, .log, .vz, .tb] s u)) ∧
  (∀ s : State, s.fio.bank.up = false → exec .xUplinkLost s = .next s) ∧
  (∀ s : State, s.fio.bank.fPowered = true → s.fio.bank.fTimedOut = false → Gives .xLinkTimeout s (fun t => t.fio.bank.fTimedOut = true ∧
    t.fio.bank.fTimeouts = (s.fio.bank.fTimeouts + 1) % 256 ∧ (∀ k : Fin 32, t.xch k.val = (s.xch k.val).follow 2) ∧ Frame [.fio] s t)) ∧
  (∀ s : State, s.fio.bank.fTimedOut = true → exec .xLinkTimeout s = .next s) ∧
  (∀ (k : Fin 32) (s : State), (s.xch k.val).fOut = true → Gives (.xOverload k) s (fun t => (t.xch k.val).fOvl = true ∧
    (t.xch k.val).fOut = false ∧ (∀ j, j ≠ k.val → t.xch j = s.xch j) ∧ Frame [.fio] s t)) ∧
  (∀ (k : Fin 32) (s : State), (s.xch k.val).fOvl = true → (s.xch k.val).fCfg.mode = .out → (s.xch k.val).fCfgSet = true →
    (s.xch k.val).fOt = false → (s.xch k.val).fCmd = 1 → s.fio.bank.fPowered = true → Gives (.xOverloadRetry k true) s (fun t => (t.xch k.val).fOvl = false ∧
      (t.xch k.val).fOut = true ∧ (∀ j, j ≠ k.val → t.xch j = s.xch j) ∧ Frame [.fio] s t)) ∧
  (∀ (k : Fin 32) (clear : Bool) (s : State), s.fio.bank.fPowered = false →
    Gives (.xOverloadRetry k clear) s (fun t => (∀ j, t.xch j = s.xch j) ∧ Frame [.fio] s t)) ∧
  (∀ (k : Fin 32) (s : State), Gives (.xOverloadRetry k false) s (fun t => (∀ j, t.xch j = s.xch j) ∧ Frame [.fio] s t)) ∧
  (∀ (k : Fin 32) (s : State), (s.xch k.val).watchesOpen = true → Gives (.xOpenWire k) s (fun t => (t.xch k.val).fOpen = true ∧
    (t.xch k.val).fOut = (s.xch k.val).fOut ∧ (∀ j, j ≠ k.val → t.xch j = s.xch j) ∧ Frame [.fio] s t)) ∧
  (∀ (k : Fin 32) (s : State), Gives (.xOpenWireEnd k) s (fun t => (t.xch k.val).fOpen = false ∧
    (t.xch k.val).fOut = (s.xch k.val).fOut ∧ (∀ j, j ≠ k.val → t.xch j = s.xch j) ∧ Frame [.fio] s t)) ∧
  (∀ (k : Fin 32) (s : State), Gives (.xOvertemp k) s (fun t => (t.xch k.val).fOt = true ∧ (t.xch k.val).fOut = false ∧
    (∀ j, j ≠ k.val → t.xch j = s.xch j) ∧ Frame [.fio] s t)) ∧
  (∀ (k : Fin 32) (s : State), Gives (.xOvertempEnd k) s (fun t => (t.xch k.val).fOt = false ∧
    (t.xch k.val).fOut = (s.fio.bank.fPowered && ({ s.xch k.val with fOt := false }).fieldOut (s.xch k.val).fCmd) ∧ (∀ j, j ≠ k.val → t.xch j = s.xch j) ∧
    Frame [.fio] s t)) ∧
  (∀ s : State, s.fio.bank.fPowered = true → Gives .xvfLow s (fun t => t.fio.bank.fXvfLow = true ∧ (∀ k, t.xch k = s.xch k) ∧
    Frame [.fio] s t)) ∧
  (∀ s : State, Gives .xvfLowEnd s (fun t => t.fio.bank.fXvfLow = false ∧ (∀ k, t.xch k = s.xch k) ∧ Frame [.fio] s t)) ∧
  (∀ s : State, Gives .xvfFail s (fun t => t.fio.bank.fPowered = false ∧ (∀ k, (t.xch k).fOut = false) ∧ Frame [.fio] s t)) ∧
  (∀ s : State, s.fio.bank.fPowered = false → Gives .xvfRecover s (fun t => t.fio.bank.fPowered = true ∧ t.fio.bank.fXto = 100 ∧
    t.fio.bank.fCfgNeeded = true ∧ t.fio.bank.fXvfLow = true ∧ (∀ k, (t.xch k).fOut = false ∧ (t.xch k).fCfg = .default ∧
      (t.xch k).fCfgSet = false) ∧ Frame [.fio] s t)) ∧
  (∀ s : State, s.fio.bank.fPowered = true → exec .xvfRecover s = .next s)

/-- The data path and the commands of the isolated bank (R40, R186, R191, R195, R196, Tables 7.16 and 7.19). -/
def Obligations.IsolatedBankCommandsAct : Prop :=
  (∀ (v : Fin 256) (value : U32) (s : State), s.ownsX v.val = true → (s.vzf v.val).life = .active →
    (s.xSlot v.val).tagGen = (s.vzf v.val).gen → s.sys.mode ≠ .startup →
    Gives (.fioXCmdValWrite v value) s (fun t => (t.xSlot v.val).val = value &&& s.ownXBits v.val ∧ (t.xSlot v.val).ackSeq = (s.xSlot v.val).tagSeq ∧
      (t.xSlot v.val).ackGen = (s.xSlot v.val).tagGen ∧
      (∀ k : Fin 32, (s.xSlot v.val).mask.getLsbD k.val = true → s.xOwner k.val = some v.val → (s.xch k.val).cfg.mode = .out →
        (t.xch k.val).cmd = value.getLsbD k.val ∧ (t.xch k.val).waits = false) ∧
      (∀ k : Fin 32, ((s.xSlot v.val).mask.getLsbD k.val = false ∨ s.xOwner k.val ≠ some v.val ∨ (s.xch k.val).cfg.mode ≠ .out) →
        t.xch k.val = s.xch k.val) ∧ Frame [.fio] s t)) ∧
  (∀ (v : Fin 256) (value : U32) (s : State), s.ownsX v.val = true → (s.vzf v.val).life = .active →
    (s.xSlot v.val).tagGen = (s.vzf v.val).gen → s.sys.mode = .startup →
    Gives (.fioXCmdValWrite v value) s (fun t => (t.xSlot v.val).heldAck = some ((s.xSlot v.val).tagGen, (s.xSlot v.val).tagSeq) ∧
      (∀ k : Fin 32, (t.xch k.val).cmd = (s.xch k.val).cmd) ∧
      (∀ k : Fin 32, (s.xSlot v.val).mask.getLsbD k.val = true → s.xOwner k.val = some v.val → (s.xch k.val).cfg.mode = .out →
        (t.xch k.val).held = some (value.getLsbD k.val)) ∧ Frame [.fio] s t)) ∧
  (∀ (v : Fin 256) (value : U32) (s : State), s.ownsX v.val = true → (s.vzf v.val).life = .active →
    (s.xSlot v.val).tagGen ≠ (s.vzf v.val).gen →
    Gives (.fioXCmdValWrite v value) s (fun t => t.xSlot v.val = { s.xSlot v.val with stale := true } ∧ (∀ k, t.xch k = s.xch k) ∧ Frame [.fio] s t)) ∧
  (∀ (v : Fin 256) (s : State), s.ownsX v.val = true → Gives (.fioXBankRead v) s (fun t => t.fio.bank.crcErr = 0 ∧
    t.bus = (s.xBankWord (s.xSlot v.val)).zeroExtend 64 ∧ (∀ k, t.xch k = s.xch k) ∧ Frame [.fio, .bus] s t)) ∧
  (∀ (s : State) (r : Req) (p : Port) (channel mode tXdb flags : Byte), Requested s r p 4 → channel.toNat ≤ 31 →
    p.mayUse (s.xOwner channel.toNat) → mode.toNat ≤ 2 → flags.toNat ≤ 1 → s.sys.mode.isRunLimpWork = true →
    (s.xch channel.toNat).cmd = false → (s.xch channel.toNat).sent ≠ 1 → s.fio.bank.up = true →
    Answers (.fioXConfig r channel mode tXdb flags) r 0x0507 stat_ok [] s (fun u =>
      (u.xch channel.toNat).cfg = { (s.xch channel.toNat).cfg with
        mode := (xModeOf mode.toNat).getD .in3, xdb := tXdb.toNat, owEn := flagOf flags 0 } ∧ (channel.toNat, (u.xch channel.toNat).cfg.word) ∈ u.fio.bank.words ∧
      (∀ k, k ≠ channel.toNat → u.xch k = s.xch k) ∧ Frame [.fio] s u)) ∧
  (∀ (s : State) (r : Req) (p : Port) (channel mode tXdb flags : Byte), Requested s r p 4 → channel.toNat ≤ 31 →
    p.mayUse (s.xOwner channel.toNat) → mode.toNat ≤ 2 → flags.toNat ≤ 1 → s.sys.mode.isRunLimpWork = true →
    (s.xch channel.toNat).cfg.mode ≠ (xModeOf mode.toNat).getD .in3 → (s.xch channel.toNat).cmd = true →
    Answers (.fioXConfig r channel mode tXdb flags) r 0x0507 stat_badState [] s (fun u => u = s)) ∧
  (∀ (s : State) (r : Req) (p : Port) (k : Fin 32) (values : U32) (v : Nat), Requested s r p 8 → s.xOwner k.val = some v →
    p.mayUse (some v) → s.sys.mode.isRunWork = true → (s.xch k.val).cfg.mode = .out →
    Gives (.fioXSet r ((1 : U32) <<< k.val) values) s (fun t => ∃ u, t = respond r 0x0508 stat_ok
        (le32 (u.xOutWord (seen p u.xOwner))) u ∧ (u.xch k.val).cmd = values.getLsbD k.val ∧ (u.xSlot v).ackGen = (s.vzf v).gen ∧
      (u.xSlot v).ackSeq = r.seq.extractLsb' 0 16 ∧ (∀ j, j ≠ k.val → u.xch j = s.xch j) ∧ Frame [.fio] s u)) ∧
  (∀ (s : State) (r : Req) (p : Port) (mask values : U32), Requested s r p 8 → p.sysPriv = true → s.sys.mode.isRunWork = true →
    (∃ k : Fin 32, mask.getLsbD k.val = true ∧ (s.xch k.val).cfg.mode ≠ .out) →
    Answers (.fioXSet r mask values) r 0x0508 stat_fioMode [] s (fun u => u = s)) ∧
  (∀ (s : State) (r : Req) (p : Port), Requested s r p 0 → p.sysPriv = true → s.sys.mode.isServing = true →
    Gives (.fioXRead r) s (fun t => ∃ data, t = respond r 0x0509 stat_ok data s ∧
      data.take 8 = le32 (pack2 0 (fun _ => true) (fun k => (s.xch k).state)) ++ le32 (pack2 16 (fun _ => true) (fun k => (s.xch k).state)))) ∧
  (∀ (s : State) (r : Req) (p : Port) (safe : U64) (tXto : U16), Requested s r p 12 → p.sysPriv = true →
    (∀ k : Fin 32, safe.extractLsb' (2 * k.val) 2 ≠ 3) → 2 ≤ tXto.toNat → tXto.toNat ≤ 10000 → s.sys.mode = .workshop →
    s.fio.bank.up = true → s.fio.bank.safeReq = none →
    Gives (.fioXSafe r safe tXto) s (fun t => t.fio.bank.safeReq = some (r.port, r.tag, r.seq) ∧ t.fio.bank.tXto = tXto.toNat ∧
      (∀ k : Fin 32, xSafeOf (safe.extractLsb' (2 * k.val) 2).toNat = some (t.xch k.val).cfg.safe) ∧
      (0x20, tXto.toNat) ∈ t.fio.bank.words ∧ Frame [.fio] s t)) ∧
  (∀ (s : State) (r : Req) (p : Port) (safe : U64) (tXto : U16), Requested s r p 12 → p.sysPriv = true →
    (∀ k : Fin 32, safe.extractLsb' (2 * k.val) 2 ≠ 3) → 2 ≤ tXto.toNat → tXto.toNat ≤ 10000 → s.sys.mode = .workshop →
    s.fio.bank.up = false → Answers (.fioXSafe r safe tXto) r 0x050A stat_fioLink [] s (fun u => u = s))

/-- The time base (R375, R379, R380, R381): a change takes effect at its count, an edge is recorded by each unit that waits for it or is
discarded by a full one, and a trigger unit fires once, or periodically. -/
def Obligations.TimeEventsAct : Prop :=
  (∀ (view : Fin 16) (c : ViewChange) (s : State), (s.view view.val).change = some c →
    Gives (.viewChangeApply view) s (fun t => (t.view view.val).baseCount = c.at_ ∧
      (t.view view.val).baseTime = Time.ofUnits ((s.view view.val).newBase c) ∧ (t.view view.val).inc = c.rate.getD (s.view view.val).inc ∧
      (t.view view.val).gen = (s.view view.val).gen + 1 ∧ (t.view view.val).change = none ∧
      (t.view view.val).valid = (c.setValid || ((s.view view.val).valid && !c.clearValid)) ∧
      (∀ v, v ≠ view.val → t.view v = s.view v) ∧ t.tb.count = s.tb.count ∧ Frame [.tb, .mbx, .log, .vz] s t)) ∧
  (∀ (view : Fin 16) (s : State), (s.view view.val).change = none → exec (.viewChangeApply view) s = .next s) ∧
  (∀ (source : Fin 65536) (rising : Bool) (s : State), Gives (.captureEvent source rising) s (fun t =>
    (∀ u : Fin 16, (s.capture u.val).takes source.val rising = true → (s.capture u.val).fifo.length < 16 → t.capture u.val = { s.capture u.val with fifo := (s.capture u.val).fifo ++ [s.now] }) ∧
    (∀ u : Fin 16, (s.capture u.val).takes source.val rising = true → 16 ≤ (s.capture u.val).fifo.length → t.capture u.val = { s.capture u.val with
        overflow := satInc 255 (s.capture u.val).overflow, episode := true }) ∧
    (∀ u : Fin 16, ((s.capture u.val).enabled = false ∨ (s.capture u.val).source ≠ source.val ∨
      (source.val < 0x300 ∧ (s.capture u.val).edge.takes rising = false)) → t.capture u.val = s.capture u.val) ∧ Frame [.tb, .mbx, .log, .vz] s t)) ∧
  (∀ (unit : Fin 16) (v : Nat) (s : State), (s.trigger unit.val).armed = true → (s.trigger unit.val).period = 0 →
    (s.trigger unit.val).owner = some v → (s.trigger unit.val).action = 0 →
    Gives (.triggerFire unit) s (fun t => t.trigger unit.val = { s.trigger unit.val with armed := false } ∧
      t.vzf v = (s.vzf v).raiseVec (s.trigger unit.val).target ∧ (∀ k, k ≠ unit.val → t.trigger k = s.trigger k) ∧ Frame [.tb, .vz] s t)) ∧
  (∀ (unit : Fin 16) (v : Nat) (s : State), (s.trigger unit.val).armed = true → (s.trigger unit.val).period ≠ 0 →
    (s.trigger unit.val).owner = some v → (s.trigger unit.val).action = 0 →
    Gives (.triggerFire unit) s (fun t => (t.trigger unit.val).armed = true ∧
      (t.trigger unit.val).next = (s.trigger unit.val).next + 1 ∧ (t.trigger unit.val).due =
        (s.view (s.trigger unit.val).view).countAt ((s.trigger unit.val).dueUnits ((s.trigger unit.val).next + 1)) ∧
      t.vzf v = (s.vzf v).raiseVec (s.trigger unit.val).target ∧ Frame [.tb, .vz] s t)) ∧
  (∀ (unit : Fin 16) (v : Nat) (s : State), (s.trigger unit.val).armed = true → (s.trigger unit.val).period = 0 →
    (s.trigger unit.val).owner = some v → (s.trigger unit.val).action = 1 → s.chOwner (s.trigger unit.val).target ≠ some v →
    Gives (.triggerFire unit) s (fun t => (t.trigger unit.val).armed = false ∧ Frame [.tb] s t)) ∧
  (∀ (unit : Fin 16) (v : Nat) (im : Image) (s : State), (s.trigger unit.val).armed = true → (s.trigger unit.val).period = 0 →
    (s.trigger unit.val).owner = some v → (s.trigger unit.val).action = 1 → s.chOwner (s.trigger unit.val).target = some v →
    s.vzfActive v = true → cmdImage (s.trigger unit.val).target (s.trigger unit.val).image = some im → im.target = false →
    s.sys.mode ≠ .startup →
    Gives (.triggerFire unit) s (fun t => (t.trigger unit.val).armed = false ∧ (t.chan (s.trigger unit.val).target).sw.out = im.out ∧
      (t.chan (s.trigger unit.val).target).sw.prio = min im.prio (s.vzf v).tpl.maxPrio ∧
      (t.chan (s.trigger unit.val).target).ackGen = (s.vzf v).gen)) ∧
  (∀ (unit : Fin 16) (s : State), (s.trigger unit.val).armed = false → exec (.triggerFire unit) s = .next s)

/-- The TIME commands (R370, R373, R375, R376, R379, R380, R382, Table 13.9); the target that a cancelled alarm returns is a free value (the
manual does not state it; log entry 93). -/
def Obligations.TimeCommandsAct : Prop :=
  (∀ (s : State) (r : Req) (p : Port) (view : Byte), Requested s r p 4 → view.toNat ≤ 15 → s.sys.mode.isServing = true →
    Answers (.timeRead r view) r 0x0D01 stat_ok (le64 s.tb.count ++ ((s.view view.toNat).timeAt s.now).bytes ++ le32 (s.view view.toNat).flags
      ++ n64 (s.view view.toNat).baseCount ++ (s.view view.toNat).baseTime.bytes ++ zeros 4 ++ n64 (s.view view.toNat).inc
      ++ n64 (match (s.view view.toNat).change with
              | some c => c.at_
              | none => 0)) s (fun u => u = s)) ∧
  (∀ (s : State) (r : Req) (p : Port) (f : AdjustFields), Requested s r p 48 → f.view.toNat ≤ 15 →
    p.mayUse (some (s.view f.view.toNat).owner) → adjustStat f = none → s.sys.mode.isServing = true → s.viewClosed f.view.toNat = false →
    s.now + 6000 ≤ chosenCount s.now f.c.toNat → chosenCount s.now f.c.toNat ≤ s.now + 600000000 →
    ((s.view f.view.toNat).change = none ∨ opBit f 3 = true) →
    0 ≤ (s.view f.view.toNat).newBase (adjustChange f (chosenCount s.now f.c.toNat) p.vzf) →
    Answers (.timeAdjust r f) r 0x0D02 stat_ok (n64 (chosenCount s.now f.c.toNat) ++ le16 ((s.view f.view.toNat).gen + 1) ++ zeros 6) s
      (fun u => (u.view f.view.toNat).change = some (adjustChange f (chosenCount s.now f.c.toNat) p.vzf) ∧
        (u.view f.view.toNat).gen = (s.view f.view.toNat).gen ∧ (∀ v, v ≠ f.view.toNat → u.view v = s.view v) ∧ Frame [.tb] s u)) ∧
  (∀ (s : State) (r : Req) (p : Port) (f : AdjustFields), Requested s r p 48 → f.view.toNat ≤ 15 →
    p.mayUse (some (s.view f.view.toNat).owner) → adjustStat f = none → s.sys.mode.isServing = true → s.viewClosed f.view.toNat = false →
    f.c ≠ 0 → f.c.toNat < s.now + 6000 → Answers (.timeAdjust r f) r 0x0D02 stat_timePast [] s (fun u => u = s)) ∧
  (∀ (s : State) (r : Req) (p : Port) (f : AdjustFields), Requested s r p 48 → f.view.toNat ≤ 15 →
    p.mayUse (some (s.view f.view.toNat).owner) → adjustStat f = none → s.sys.mode.isServing = true → s.viewClosed f.view.toNat = true →
    Answers (.timeAdjust r f) r 0x0D02 stat_timeView [] s (fun u => u = s)) ∧
  (∀ (s : State) (r : Req) (p : Port) (view vzf : Byte), Requested s r p 4 → p.sysPriv = true → 10 ≤ view.toNat → view.toNat ≤ 15 →
    s.sys.mode.isServing = true → (s.vzf vzf.toNat).exists_ = true → (s.view view.toNat).alloc = false →
    Answers (.timeViewAlloc r 0 view vzf) r 0x0D03 stat_ok [byteOf view.toNat, 0, 0, 0] s (fun u => (u.view view.toNat).alloc = true ∧
      (u.view view.toNat).owner = vzf.toNat ∧ (∀ v, v ≠ view.toNat → u.view v = s.view v) ∧ Frame [.tb] s u)) ∧
  (∀ (s : State) (r : Req) (p : Port) (view vzf : Byte), Requested s r p 4 → p.sysPriv = true → 10 ≤ view.toNat → view.toNat ≤ 15 →
    s.sys.mode.isServing = true → (s.view view.toNat).alloc = true →
    Answers (.timeViewAlloc r 1 view vzf) r 0x0D03 stat_ok [byteOf view.toNat, 0, 0, 0] s (fun u => (u.view view.toNat).alloc = false ∧
      (u.view view.toNat).owner = 255 ∧ (u.view view.toNat).change = none ∧ (∀ v, v ≠ view.toNat → u.view v = s.view v) ∧ Frame [.tb] s u)) ∧
  (∀ (s : State) (r : Req) (p : Port) (vzf : Byte), Requested s r p 4 → p.sysPriv = true → s.sys.mode.isServing = true →
    (s.vzf vzf.toNat).exists_ = true → (∀ v, 10 ≤ v → v ≤ 15 → (s.view v).alloc = true) →
    Answers (.timeViewAlloc r 0 255 vzf) r 0x0D03 stat_noResource [] s (fun u => u = s)) ∧
  (∀ (s : State) (r : Req) (p : Port) (unit edge : Byte) (source : U16), Requested s r p 8 → unit.toNat ≤ 15 → edge.toNat ≤ 2 →
    s.sys.mode.isServing = true → (s.capture unit.toNat).enabled = false → source.toNat < 0x40 →
    (s.diOwner source.toNat = p.vzf ∨ p.sysPriv = true) →
    Answers (.timeCaptureConfig r unit 0 source edge) r 0x0D04 stat_ok [] s (fun u => u.capture unit.toNat = { Capture.reset with
      owner := p.vzf, enabled := true, source := source.toNat, edge := edgeOf edge.toNat } ∧
      (∀ k, k ≠ unit.toNat → u.capture k = s.capture k) ∧ Frame [.tb] s u)) ∧
  (∀ (s : State) (r : Req) (p : Port) (unit edge : Byte) (source : U16), Requested s r p 8 → unit.toNat ≤ 15 → edge.toNat ≤ 2 →
    s.sys.mode.isServing = true → p.sysPriv = true → captureSource s source.toNat = none →
    Answers (.timeCaptureConfig r unit 0 source edge) r 0x0D04 stat_range [] s (fun u => u = s)) ∧
  (∀ (s : State) (r : Req) (p : Port) (unit edge : Byte) (source : U16), Requested s r p 8 → unit.toNat ≤ 15 → edge.toNat ≤ 2 →
    s.sys.mode.isServing = true → p.sysPriv = true →
    Answers (.timeCaptureConfig r unit 1 source edge) r 0x0D04 stat_ok ([byteOf (s.capture unit.toNat).fifo.length,
      byteOf (s.capture unit.toNat).overflow] ++ zeros 6 ++ (s.capture unit.toNat).fifo.flatMap n64) s (fun u =>
      u.capture unit.toNat = { s.capture unit.toNat with fifo := [], episode := false } ∧ Frame [.tb] s u)) ∧
  (∀ (s : State) (r : Req) (p : Port) (unit edge : Byte) (source : U16), Requested s r p 8 → unit.toNat ≤ 15 → edge.toNat ≤ 2 →
    s.sys.mode.isServing = true → p.sysPriv = true →
    Answers (.timeCaptureConfig r unit 2 source edge) r 0x0D04 stat_ok [] s (fun u => u.capture unit.toNat = .reset ∧ Frame [.tb] s u)) ∧
  (∀ (s : State) (r : Req) (p : Port) (f : TriggerFields) (v : Nat), Requested s r p 28 → triggerStat f = none → f.op = 0 →
    s.sys.mode.isServing = true → p.vzf = some v → (s.trigger f.unit.toNat).claimed = false →
    (f.view.toNat < 10 ∨ (s.view f.view.toNat).alloc = true) → f.action = 1 → s.chOwner f.target.toNat = some v →
    Gives (.timeTriggerConfig r f) s (fun t => ∃ u, t = respond r 0x0D05 stat_ok (n64 (u.trigger f.unit.toNat).due) u ∧
      (u.trigger f.unit.toNat).armed = true ∧ (u.trigger f.unit.toNat).owner = some v ∧ (u.trigger f.unit.toNat).image = f.image ∧
      (u.trigger f.unit.toNat).target = f.target.toNat ∧ (u.trigger f.unit.toNat).period = f.period.toNat ∧
      (u.trigger f.unit.toNat).due = (s.view f.view.toNat).countAt ((u.trigger f.unit.toNat).first.units) ∧
      (∀ k, k ≠ f.unit.toNat → u.trigger k = s.trigger k) ∧ Frame [.tb] s u)) ∧
  (∀ (s : State) (r : Req) (p : Port) (f : TriggerFields), Requested s r p 28 → triggerStat f = none → f.op = 1 → p.sysPriv = true →
    s.sys.mode.isServing = true → Answers (.timeTriggerConfig r f) r 0x0D05 stat_ok (n64 (s.trigger f.unit.toNat).due) s (fun u =>
      u.trigger f.unit.toNat = .reset ∧ (∀ k, k ≠ f.unit.toNat → u.trigger k = s.trigger k) ∧ Frame [.tb] s u)) ∧
  (∀ (s : State) (r : Req) (p : Port) (delay : U32), Requested s r p 8 → p.sysPriv = true → 1000 ≤ delay.toNat →
    delay.toNat ≤ 604800000 → s.sys.mode.isServing = true →
    Answers (.timeRtcAlarm r 0 delay) r 0x0D06 stat_ok (n64 (s.now + delay.toNat * Config.ticksPerMs)) s (fun u =>
      u.tb.alarm = some (s.now + delay.toNat * Config.ticksPerMs) ∧ u.tb.count = s.tb.count ∧ Frame [.tb] s u)) ∧
  (∀ (s : State) (r : Req) (p : Port) (delay : U32), Requested s r p 8 → p.sysPriv = true → s.sys.mode.isServing = true →
    Gives (.timeRtcAlarm r 1 delay) s (fun t => ∃ u data, t = respond r 0x0D06 stat_ok data u ∧ data.length = 8 ∧ u.tb.alarm = none ∧
      Frame [.tb, .free] s u))

/-- The life of a virtual zone function (R403 to R410, Tables 14.13 and 14.20): a creation takes all its resources or none, a reset and a
destruction quiesce it and end with its drain. -/
def Obligations.VzfLifeCommandsAct : Prop :=
  (∀ (s : State) (r : Req) (p : Port) (tpl vzf : Byte) (v : Nat) (t : Template) (regions : List (Nat × Nat)) (iommu : IommuCtx),
    Requested s r p 40 → p.sysPriv = true → tpl.toNat ≤ 63 → s.sys.mode.isRunLimpWork = true → s.chooseVzf vzf.toNat = some v →
    (s.vzf v).exists_ = false → s.template tpl.toNat = some t → t.ok = true → (t.hostSaf = false ∨ (s.servingPair v).isSome = true) →
    s.taken t = false → (s.freePorts (t.nLport + t.nRport)).length = t.nLport + t.nRport → (s.freeViews t.nView).length = t.nView →
    takeRegions s.cfg.image.vzf.poolBlocks t.dram s.heldRegions = some regions →
    Gives (.vzfCreate r tpl vzf iommu) s (fun x => ∃ u, x = respond r 0x0E01 stat_ok (createBytes v u) u ∧
      u = createNow v t regions iommu s ∧ (s.rfx.enabled = false → (u.vzf v).life = .active ∧ (u.vzf v).tpl = t ∧
        (u.vzf v).regions = regions ∧ (u.vzf v).gen = nextGen (s.vz.gens.getD 0 v)))) ∧
  (∀ (s : State) (r : Req) (p : Port) (tpl vzf : Byte) (iommu : IommuCtx), Requested s r p 40 → p.sysPriv = true → tpl.toNat ≤ 63 →
    s.sys.mode.isRunLimpWork = true → vzf.toNat ≠ 255 → (s.vzf vzf.toNat).exists_ = true →
    Answers (.vzfCreate r tpl vzf iommu) r 0x0E01 stat_vzfExists [] s (fun u => u = s)) ∧
  (∀ (s : State) (r : Req) (p : Port) (tpl vzf : Byte) (v : Nat) (t : Template) (iommu : IommuCtx), Requested s r p 40 → p.sysPriv = true →
    tpl.toNat ≤ 63 → s.sys.mode.isRunLimpWork = true → s.chooseVzf vzf.toNat = some v → (s.vzf v).exists_ = false →
    s.template tpl.toNat = some t → t.ok = true → t.hostSaf = false → s.taken t = true →
    Answers (.vzfCreate r tpl vzf iommu) r 0x0E01 stat_noResource [] s (fun u => u = s)) ∧
  (∀ (s : State) (r : Req) (p : Port) (vzf : Byte), Requested s r p 4 → p.sysPriv = true → s.sys.mode.isRunWork = true →
    s.vzfActive vzf.toNat = true → p.vzf ≠ some vzf.toNat →
    Answers (.vzfDestroy r vzf) r 0x0E02 stat_pending [] s (fun u => u = beginReset vzf.toNat .destroying (some (r.port, r.tag, r.seq)) s ∧
      (u.vzf vzf.toNat).life = .destroying ∧ (u.vzf vzf.toNat).requester = some (r.port, r.tag, r.seq))) ∧
  (∀ (s : State) (r : Req) (p : Port) (vzf : Byte), Requested s r p 4 → p.sysPriv = true → s.sys.mode.isRunWork = true →
    s.vzfActive vzf.toNat = true → p.vzf = some vzf.toNat → Answers (.vzfDestroy r vzf) r 0x0E02 stat_vzfSelf [] s (fun u => u = s)) ∧
  (∀ (s : State) (r : Req) (p : Port) (vzf : Byte), Requested s r p 4 → p.sysPriv = true → s.sys.mode.isRunWork = true →
    (s.vzf vzf.toNat).exists_ = false → Answers (.vzfDestroy r vzf) r 0x0E02 stat_vzfNone [] s (fun u => u = s)) ∧
  (∀ (s : State) (r : Req) (p : Port) (vzf : Byte), Requested s r p 4 → p.sysPriv = true → s.sys.mode.isRunLimpWork = true →
    s.vzfActive vzf.toNat = true → p.vzf ≠ some vzf.toNat →
    Answers (.vzfReset r vzf) r 0x0E03 stat_pending [] s (fun u => u = beginReset vzf.toNat .quiescing (some (r.port, r.tag, r.seq)) s ∧
      (u.vzf vzf.toNat).life = .quiescing ∧ (u.vzf vzf.toNat).requester = some (r.port, r.tag, r.seq))) ∧
  (∀ (s : State) (r : Req) (p : Port) (vzf : Byte), Requested s r p 4 → p.sysPriv = true → s.sys.mode.isRunLimpWork = true →
    s.vzfActive vzf.toNat = true → p.vzf = some vzf.toNat →
    Answers (.vzfReset r vzf) r 0x0E03 stat_ok [] s (fun u => u = beginReset vzf.toNat .quiescing none s ∧
      (u.vzf vzf.toNat).life = .quiescing)) ∧
  (∀ (v : Fin 256) (s : State), (s.vzf v.val).life = .quiescing → Gives (.vzfResetDrainEnd v) s (fun t =>
    t = endReset v.val (resetSteps v.val s) ∧ (t.vzf v.val).life = .active ∧ (t.vzf v.val).requester = none)) ∧
  (∀ (v : Fin 256) (s : State), (s.vzf v.val).life = .destroying → Gives (.vzfResetDrainEnd v) s (fun t =>
    t = endDestroy v.val (resetSteps v.val s) ∧ (s.rfx.enabled = false → (t.vzf v.val).exists_ = false))) ∧
  (∀ (v : Fin 256) (s : State), (s.vzf v.val).life = .active → exec (.vzfResetDrainEnd v) s = .next s)

/-- Weights, reports, interrupt moderation and zeroing of the virtual zone functions (R408, R412, R414, R418, Table 14.16). -/
def Obligations.VzfQosAndVectorsAct : Prop :=
  (∀ (s : State) (r : Req) (p : Port) (vzf : Byte) (weights : Vector Byte 5), Requested s r p 12 → p.sysPriv = true →
    s.sys.mode.isRunLimpWork = true → (s.vzf vzf.toNat).exists_ = true →
    Answers (.vzfQos r vzf weights) r 0x0E04 stat_ok (weightBytes (newWeights (s.vzf vzf.toNat).weights weights) ++ zeros 3) s (fun u =>
      u.vzf vzf.toNat = { s.vzf vzf.toNat with weights := newWeights (s.vzf vzf.toNat).weights weights } ∧
      (∀ v, v ≠ vzf.toNat → u.vzf v = s.vzf v) ∧ Frame [.vz] s u)) ∧
  (∀ (s : State) (r : Req) (p : Port) (vzf : Byte), Requested s r p 4 → p.mayUse (some vzf.toNat) → s.sys.mode.isServing = true →
    (s.vzf vzf.toNat).exists_ = true → Answers (.vzfGetInfo r vzf) r 0x0E05 stat_ok (infoBytes vzf.toNat s) s (fun u => u = s)) ∧
  (∀ (s : State) (r : Req) (p : Port), Requested s r p 0 → p.sysPriv = true → s.sys.mode.isServing = true →
    Answers (.vzfList r) r 0x0E06 stat_ok (listBytes s) s (fun u => u = s)) ∧
  (∀ (s : State) (r : Req) (p : Port), Requested s r p 0 → p.sysPriv = false →
    Answers (.vzfList r) r 0x0E06 stat_notOwner [] s (fun u => u = s)) ∧
  (∀ (block : Nat) (s : State), Gives (.dramZeroComplete block) s (fun t => (∀ b, b ∈ t.vz.zeroPending ↔ b ∈ s.vz.zeroPending ∧ b ≠ block) ∧
    (∀ v, t.vzf v = s.vzf v) ∧ Frame [.vz] s t)) ∧
  (∀ s : State, Gives .interruptBudgetRefill s (fun t => (∀ v, (s.vzf v).exists_ = true →
      (∀ k, ((s.vzf v).vectors.getD .reset k).pend = false) → (t.vzf v).vectors = (s.vzf v).vectors ∧
        min 64 ((s.vzf v).tokens + 1) ≤ (t.vzf v).tokens ∧ (t.vzf v).tokens ≤ 64) ∧
    (∀ v, (t.vzf v).life = (s.vzf v).life ∧ (t.vzf v).weights = (s.vzf v).weights) ∧ Frame [.vz] s t)) ∧
  (∀ (v : Fin 256) (k : Fin 64) (s : State), (s.vzf v.val).exists_ = true → k.val < (s.vzf v.val).tpl.nVec →
    ((s.vzf v.val).vectors.getD .reset k.val).pend = false →
    Gives (.vectorHoldoffExpiry v k) s (fun t => (t.vzf v.val).vectors.getD .reset k.val =
      { (s.vzf v.val).vectors.getD .reset k.val with waiting := false } ∧ (t.vzf v.val).tokens = (s.vzf v.val).tokens ∧
      (∀ w, w ≠ v.val → t.vzf w = s.vzf w) ∧ Frame [.vz] s t)) ∧
  (∀ (v : Fin 256) (k : Fin 64) (s : State), (s.vzf v.val).exists_ = true → k.val < (s.vzf v.val).tpl.nVec →
    ((s.vzf v.val).vectors.getD .reset k.val).pend = true → ((s.vzf v.val).vectors.getD .reset k.val).en = true →
    ((s.vzf v.val).vectors.getD .reset k.val).mask = false → 0 < (s.vzf v.val).tokens → (s.vzf v.val).tpl.attach = false →
    Gives (.vectorHoldoffExpiry v k) s (fun t => ((t.vzf v.val).vectors.getD .reset k.val).pend = false ∧
      ((t.vzf v.val).vectors.getD .reset k.val).delivered = ((s.vzf v.val).vectors.getD .reset k.val).delivered + 1 ∧
      ((t.vzf v.val).vectors.getD .reset k.val).raises = 0 ∧ (t.vzf v.val).tokens = (s.vzf v.val).tokens - 1 ∧ Frame [.vz] s t)) ∧
  (∀ (v : Fin 256) (k : Fin 64) (s : State), (s.vzf v.val).exists_ = false → exec (.vectorHoldoffExpiry v k) s = .next s)

/-- Lockstep faults of the safety cluster (R393, R395 to R397, Table 14.5): a mismatch halts the pair, its tests restart or retire it, and a
retired pair's partitions move to the spare. -/
def Obligations.LockstepFaultsAct : Prop :=
  (∀ (pair : Fin 4) (group : Fin 8) (s : State), (s.pair pair.val).retired = false → (s.pair pair.val).halted = false → s.mgrUp = true →
    Gives (.lockstepMismatch pair group) s (fun t => t.pair pair.val = { s.pair pair.val with
        halted := true, parts := (s.pair pair.val).parts.map (fun y => { y with running := false }) } ∧
      (∀ q, q ≠ pair.val → t.pair q = s.pair q) ∧ Frame [.saf, .mbx, .log, .vz] s t)) ∧
  (∀ (pair : Fin 4) (group : Fin 8) (s : State), (s.pair pair.val).halted = true → exec (.lockstepMismatch pair group) s = .next s) ∧
  (∀ (pair : Fin 4) (s : State), (s.pair pair.val).retired = false → (s.pair pair.val).halted = true →
    ((s.pair pair.val).recent s.now).length < 2 →
    Gives (.pairLbistDecision pair true true) s (fun t => t.pair pair.val = { s.pair pair.val with
        halted := false, transients := s.now :: (s.pair pair.val).recent s.now,
        parts := (s.pair pair.val).parts.map (fun y => { y with running := true }) } ∧
      (∀ q, q ≠ pair.val → t.pair q = s.pair q) ∧ Frame [.saf, .mbx, .log, .vz] s t)) ∧
  (∀ (pair : Fin 4) (injectOk : Bool) (s : State), (s.pair pair.val).retired = false → (s.pair pair.val).halted = true →
    Gives (.pairLbistDecision pair false injectOk) s (fun t =>
      t = losePair pair.val (raiseSaf evt_safPairRetired pair.val [] (retirePair pair.val s)) ∧
      t.pair pair.val = (s.pair pair.val).retire ∧ (∀ q, q ≠ pair.val → t.pair q = s.pair q))) ∧
  (∀ (pair : Fin 4) (injectOk : Bool) (s : State), (s.pair pair.val).retired = false → (s.pair pair.val).halted = true →
    2 ≤ ((s.pair pair.val).recent s.now).length →
    Gives (.pairLbistDecision pair true injectOk) s (fun t => (t.pair pair.val).retired = true ∧ (t.pair pair.val).healthy = false ∧
      (∀ q, q ≠ pair.val → t.pair q = s.pair q))) ∧
  (∀ (pair : Fin 4) (q : Nat) (injectOk : Bool) (s : State), (s.pair pair.val).retired = false → (s.pair pair.val).halted = true →
    s.freeSpare pair.val = some q →
    Gives (.pairLbistDecision pair false injectOk) s (fun t => t.saf.migrating = some pair.val)) ∧
  (∀ (pair : Fin 4) (pass injectOk : Bool) (s : State), (s.pair pair.val).halted = false →
    exec (.pairLbistDecision pair pass injectOk) s = .next s) ∧
  (∀ (p q : Nat) (s : State), s.saf.migrating = some p → s.saf.spare = some q → q ≠ p → (s.pair q).healthy = true →
    (s.pair q).parts = [] →
    Gives .pairMigration s (fun t => (t.pair q).parts = (s.pair p).parts.map (fun y => { y with running := true, copying := none }) ∧
      (t.pair p).parts = [] ∧ t.saf.spare = none ∧ t.saf.migrating = none ∧ Frame [.saf, .mbx, .log, .vz] s t)) ∧
  (∀ s : State, s.saf.migrating = none → exec .pairMigration s = .next s)

/-- The stacking extension and the checkpoints (R394, R398 to R402, Tables 14.7 and 14.10): a trap stacks its frame or takes the emergency
frame, `mret` takes a frame back, and a checkpoint is the last one when its copy completes. -/
def Obligations.StackingAndCheckpointsAct : Prop :=
  (∀ (pair : Fin 4) (regs : CoreRegs) (pmp : List PmpRegion) (cause tval : U32) (user : Bool) (s : State),
    (s.pair pair.val).retired = false → (s.pair pair.val).halted = false → (s.pair pair.val).xstk.en = true →
    stackFault pmp (if user then (s.pair pair.val).xstk.msp else regs.sp).toNat = none →
    Gives (.trapStacking pair regs pmp cause tval user) s (fun t =>
      (t.pair pair.val).regs = { regs with
        mepc := regs.pc, mcause := cause, mtval := tval, mstatus := trapStatus regs.mstatus user,
        sp := (if user then (s.pair pair.val).xstk.msp else regs.sp) - 80, pc := regs.mtvec &&& 0xFFFFFFFC } ∧
      (t.pair pair.val).tcm = memWrite (s.pair pair.val).tcm ((if user then (s.pair pair.val).xstk.msp else regs.sp).toNat - 80)
        (frameBytes { regs with mepc := regs.pc, mcause := cause, mtval := tval, mstatus := trapStatus regs.mstatus user } regs.sp) ∧
      (t.pair pair.val).xstk = (s.pair pair.val).xstk ∧ (∀ q, q ≠ pair.val → t.pair q = s.pair q) ∧ Frame [.saf] s t)) ∧
  (∀ (pair : Fin 4) (regs : CoreRegs) (pmp : List PmpRegion) (cause tval : U32) (user : Bool) (s : State),
    (s.pair pair.val).retired = false → (s.pair pair.val).halted = false → (s.pair pair.val).xstk.en = false →
    Gives (.trapStacking pair regs pmp cause tval user) s (fun t =>
      (t.pair pair.val).regs = { regs with
        mepc := regs.pc, mcause := cause, mtval := tval, mstatus := trapStatus regs.mstatus user, pc := regs.mtvec &&& 0xFFFFFFFC } ∧
      (t.pair pair.val).tcm = (s.pair pair.val).tcm ∧ Frame [.saf] s t)) ∧
  (∀ (pair : Fin 4) (regs : CoreRegs) (pmp : List PmpRegion) (cause tval : U32) (user : Bool) (reason : Nat) (s : State),
    (s.pair pair.val).retired = false → (s.pair pair.val).halted = false → (s.pair pair.val).xstk.en = true →
    (s.pair pair.val).xstk.efb = false →
    stackFault pmp (if user then (s.pair pair.val).xstk.msp else regs.sp).toNat = some reason →
    Gives (.trapStacking pair regs pmp cause tval user) s (fun t => (t.pair pair.val).regs.mcause = 24 ∧
      (t.pair pair.val).regs.mtval = (if user then (s.pair pair.val).xstk.msp else regs.sp) ∧
      (t.pair pair.val).regs.sp = (s.pair pair.val).xstk.esp ∧ (t.pair pair.val).regs.mepc = regs.pc ∧
      (t.pair pair.val).xstk.efb = true ∧ (t.pair pair.val).xstk.reason = reason ∧
      (t.pair pair.val).xstk.partStop.getLsbD ((s.pair pair.val).xstk.partId % 4) = true ∧
      (t.pair pair.val).tcm = memWrite (s.pair pair.val).tcm emergencyFrame
        (frameBytes { regs with mepc := regs.pc, mcause := cause, mtval := tval, mstatus := trapStatus regs.mstatus user } regs.sp) ∧
      Frame [.saf, .mbx, .log, .vz] s t)) ∧
  (∀ (pair : Fin 4) (regs : CoreRegs) (pmp : List PmpRegion) (cause tval : U32) (user : Bool) (reason : Nat) (s : State),
    (s.pair pair.val).retired = false → (s.pair pair.val).halted = false → (s.pair pair.val).xstk.en = true →
    (s.pair pair.val).xstk.efb = true →
    stackFault pmp (if user then (s.pair pair.val).xstk.msp else regs.sp).toNat = some reason →
    Gives (.trapStacking pair regs pmp cause tval user) s (fun t => (t.pair pair.val).retired = true ∧ (t.pair pair.val).halted = true ∧
      (t.pair pair.val).tcm = (s.pair pair.val).tcm)) ∧
  (∀ (pair : Fin 4) (regs : CoreRegs) (pmp : List PmpRegion) (s : State), (s.pair pair.val).retired = false →
    (s.pair pair.val).halted = false → (s.pair pair.val).xstk.en = true → frameOk pmp regs.sp.toNat = true →
    (toUser (regs.unstack (s.pair pair.val).tcm regs.sp.toNat).mstatus = false ∨
      (s.pair pair.val).xstk.partStop.getLsbD ((s.pair pair.val).xstk.partId % 4) = false) →
    Gives (.mretUnstack pair regs pmp) s (fun t => (t.pair pair.val).regs =
        { regs.unstack (s.pair pair.val).tcm regs.sp.toNat with
          pc := memRead32 (s.pair pair.val).tcm (regs.sp.toNat + 0),
          mstatus := mretStatus (memRead32 (s.pair pair.val).tcm (regs.sp.toNat + 4)) } ∧
      (t.pair pair.val).tcm = (s.pair pair.val).tcm ∧ (∀ q, q ≠ pair.val → t.pair q = s.pair q) ∧ Frame [.saf] s t)) ∧
  (∀ (pair : Fin 4) (regs : CoreRegs) (pmp : List PmpRegion) (s : State), (s.pair pair.val).retired = false →
    (s.pair pair.val).halted = false → (s.pair pair.val).xstk.en = true → (s.pair pair.val).xstk.efb = false →
    frameOk pmp regs.sp.toNat = false →
    Gives (.mretUnstack pair regs pmp) s (fun t => (t.pair pair.val).regs.mcause = 24 ∧ (t.pair pair.val).regs.mtval = regs.sp ∧
      (t.pair pair.val).xstk.efb = true ∧ (t.pair pair.val).xstk.reason = 4 ∧ Frame [.saf, .mbx, .log, .vz] s t)) ∧
  (∀ (pair : Fin 4) (value : U32) (s : State), value.getLsbD 31 = true → Gives (.safCkptGoWrite pair value) s (fun t =>
    (t.pair pair.val).parts = (s.pair pair.val).parts.map (fun y => if y.num = bits value 0 2 then { y with copying := some y.nextSlot } else y) ∧
    (∀ q, q ≠ pair.val → t.pair q = s.pair q) ∧ Frame [.saf] s t)) ∧
  (∀ (pair : Fin 4) (value : U32) (s : State), value.getLsbD 31 = false → exec (.safCkptGoWrite pair value) s = .next s) ∧
  (∀ (pair part : Fin 4) (s : State), Gives (.checkpointComplete pair part) s (fun t => (t.pair pair.val).parts =
      (s.pair pair.val).parts.map (fun y => if y.num = part.val then (match y.copying with
        | some k => { y with last := some k, copying := none }
        | none => y) else y) ∧ (∀ q, q ≠ pair.val → t.pair q = s.pair q) ∧ Frame [.saf] s t))

/-- The cairn log (R472 to R475, R480, Tables 16.13 and 16.18): its commands, the copies of its stones, and the loss of a store. -/
def Obligations.LogRowsAct : Prop :=
  (∀ (s : State) (r : Req) (p : Port) (store : Byte) (first : U32) (count : U16), Requested s r p 12 → store.toNat ≤ 1 → 1 ≤ count.toNat →
    count.toNat ≤ 125 → s.sys.mode.isServing = true →
    Answers (.logRead r store first count) r 0x1201 stat_ok (logReadBytes (s.log.store store.toNat) first count.toNat) s (fun u => u = s)) ∧
  (∀ (s : State) (r : Req) (p : Port) (first : U32), Requested s r p 12 → s.sys.mode.isServing = true → s.log.mode = .normal →
    s.log.ram = [] → Answers (.logRead r 0 first 1) r 0x1201 stat_ok ([0, 0, 0, 0] ++ le32 first) s (fun u => u = s)) ∧
  (∀ (s : State) (r : Req) (p : Port) (last : U32) (e : LogEntry), Requested s r p 4 → p.sysPriv = true → s.sys.mode.isServing = true →
    s.log.nand.head? = some e → later last e.seq = false →
    Gives (.logArchive r last) s (fun t => ∃ u data, t = respond r 0x1202 stat_ok data u ∧
      (∀ x, x ∈ u.log.nand ↔ x ∈ s.log.nand ∧ later x.seq last = true) ∧ u.log.ram = s.log.ram ∧ u.log.stones = s.log.stones ∧
      data = n32 (s.log.nand.length - u.log.nand.length) ++ n32 (Config.nandEntries - u.log.nand.length) ∧ Frame [.log] s u)) ∧
  (∀ (s : State) (r : Req) (p : Port) (last : U32) (e : LogEntry), Requested s r p 4 → p.sysPriv = true → s.sys.mode.isServing = true →
    s.log.nand.head? = some e → later last e.seq = true → Answers (.logArchive r last) r 0x1202 stat_range [] s (fun u => u = s)) ∧
  (∀ (s : State) (r : Req) (p : Port), Requested s r p 4 → s.sys.mode.isServing = true →
    Answers (.logStatus r 0) r 0x1203 stat_ok (logStatusBytes s.log) s (fun u => u = s)) ∧
  (∀ (s : State) (r : Req) (p : Port), Requested s r p 4 → p.sysPriv = true → s.sys.mode.isServing = true →
    Answers (.logStatus r 1) r 0x1203 stat_ok (logStatusBytes { s.log with debugEn := true }) s (fun u =>
      u.log = { s.log with debugEn := true } ∧ Frame [.log] s u)) ∧
  (∀ (s : State) (r : Req) (p : Port), Requested s r p 4 → p.sysPriv = true → s.sys.mode.isServing = true →
    Answers (.logStatus r 2) r 0x1203 stat_ok (logStatusBytes { s.log with debugEn := false }) s (fun u =>
      u.log = { s.log with debugEn := false } ∧ Frame [.log] s u)) ∧
  (∀ (s : State) (r : Req) (p : Port), Requested s r p 0 → s.sys.mode.isAwake = true →
    Answers (.logReadStones r) r 0x1204 stat_ok (stonesBytes s.log) s (fun u => u = s)) ∧
  (∀ (s : State) (r : Req) (p : Port), Requested s r p 0 → p.sysPriv = true → s.sys.mode = .workshop →
    Answers (.logClearStones r) r 0x1205 stat_ok [] s (fun u => u.log = { s.log with stones := .empty } ∧ Frame [.log] s u)) ∧
  (∀ (s : State) (r : Req) (p : Port), Requested s r p 0 → p.sysPriv = true → s.sys.mode ≠ .workshop →
    Answers (.logClearStones r) r 0x1205 stat_badMode [] s (fun u => u = s)) ∧
  (∀ (stone : Fin 16) (x : Stone) (s : State), s.log.stones.get? stone.val = some x → Gives (.stoneCopyDone stone) s (fun t =>
    t.log.stones.get? stone.val = some { x with copied := true } ∧ t.log.ram = s.log.ram ∧ t.log.nand = s.log.nand ∧ Frame [.log] s t)) ∧
  (∀ (stone : Fin 16) (s : State), s.log.stones.get? stone.val = none → exec (.stoneCopyDone stone) s = .next s) ∧
  (∀ s : State, s.mgrUp = true → s.log.mode = .normal → s.log.flashFail = false → Gives .logSramEcc s (fun t => t.log.mode = .nandOnly ∧
    Frame [.log, .mbx, .vz] s t)) ∧
  (∀ s : State, s.mgrUp = true → s.log.mode = .normal → s.log.flashFail = true → Gives .logSramEcc s (fun t => t.log.mode = .stonesOnly ∧
    t.log.ram = [] ∧ Frame [.log, .mbx, .vz] s t)) ∧
  (∀ s : State, s.log.mode ≠ .normal → exec .logSramEcc s = .next s) ∧
  (∀ s : State, s.mgrUp = true → s.log.mode = .normal → Gives .nandLogWriteFail s (fun t =>
    t.log = { s.log with flashFail := true } ∧ Frame [.log] s t)) ∧
  (∀ s : State, s.mgrUp = true → s.log.mode = .nandOnly → Gives .nandLogWriteFail s (fun t => t.log.mode = .stonesOnly ∧
    Frame [.log, .mbx, .vz] s t)) ∧
  (∀ s : State, s.log.mode = .stonesOnly → exec .nandLogWriteFail s = .next s)

/-- The KEY commands (R429 to R435, Tables 15.3 to 15.7): slots are written and erased under a fresh nonce, random bytes need a healthy
generator, and identity and attestation need the root. Random bytes and signatures are free values
(log entry 32). -/
def Obligations.KeyCommandsAct : Prop :=
  (∀ (s : State) (r : Req) (p : Port) (f : ProvisionFields) (c : List Byte), Requested s r p (if flagOf f.flags 0 then 1408 else 320) →
    p.sysPriv = true → provisionStat f = none → s.sys.mode = .workshop → s.nonceFresh f.nonce = true →
    slotAccess s f.slot.toNat f.sig = none → f.content = some c →
    Gives (.keyProvision r f) s (fun t => ∃ u, t = respond r 0x0F01 stat_ok (le32 (u.key.slots.getD .empty f.slot.toNat).writes) u ∧
      u.key.slots.getD .empty f.slot.toNat = {
        state := if f.typ = 0 then .empty else .valid, typ := f.typ.toNat, usage := f.usage, content := (c ++ zeros 64).take 64,
        writes := (s.key.slots.getD .empty f.slot.toNat).writes + 1 } ∧
      (∀ n, n ≠ f.slot.toNat → u.key.slots.getD .empty n = s.key.slots.getD .empty n) ∧ u.nonceFresh f.nonce = false ∧
      Frame [.key, .sys, .mbx, .log, .vz] s u)) ∧
  (∀ (s : State) (r : Req) (p : Port) (f : ProvisionFields), Requested s r p (if flagOf f.flags 0 then 1408 else 320) →
    p.sysPriv = true → provisionStat f = none → s.sys.mode = .workshop → s.nonceFresh f.nonce = false →
    Answers (.keyProvision r f) r 0x0F01 stat_authFail [] s (fun u => u = s)) ∧
  (∀ (s : State) (r : Req) (p : Port) (slot : Byte) (nonce : Nat) (sig : KeySig), Requested s r p 136 → p.sysPriv = true →
    slot.toNat ≤ 127 → s.sys.mode = .workshop → s.nonceFresh nonce = true → slotAccess s slot.toNat sig = none →
    Gives (.keyEraseSlot r slot nonce sig) s (fun t => ∃ u, t = respond r 0x0F03 stat_ok
        (le32 (u.key.slots.getD .empty slot.toNat).writes) u ∧
      u.key.slots.getD .empty slot.toNat = { KeySlot.empty with writes := (s.key.slots.getD .empty slot.toNat).writes + 1 } ∧
      (∀ n, n ≠ slot.toNat → u.key.slots.getD .empty n = s.key.slots.getD .empty n) ∧ Frame [.key, .sys, .mbx, .log, .vz] s u)) ∧
  (∀ (s : State) (r : Req) (p : Port) (slot : Byte) (nonce : Nat) (sig : KeySig), Requested s r p 136 → p.sysPriv = true →
    slot.toNat ≤ 127 → s.sys.mode = .workshop → s.nonceFresh nonce = true → slotAccess s slot.toNat sig = some stat_authFail →
    Answers (.keyEraseSlot r slot nonce sig) r 0x0F03 stat_authFail [] s (fun u => u.key.refused = s.key.refused + 1 ∧
      u.key.slots = s.key.slots ∧ Frame [.key, .sys] s u)) ∧
  (∀ (s : State) (r : Req) (p : Port) (first count : Byte), Requested s r p 4 → p.sysPriv = true → 1 ≤ count.toNat → count.toNat ≤ 55 →
    first.toNat + count.toNat ≤ 128 → s.sys.mode.isAwake = true →
    Answers (.keySlotStatus r first count) r 0x0F02 stat_ok
      ((List.range count.toNat).flatMap (fun k => (s.slot (first.toNat + k)).statusBytes)) s (fun u => u = s)) ∧
  (∀ (s : State) (r : Req) (p : Port) (first count : Byte), Requested s r p 4 → p.sysPriv = true →
    (count.toNat = 0 ∨ 55 < count.toNat ∨ 128 < first.toNat + count.toNat) →
    Answers (.keySlotStatus r first count) r 0x0F02 stat_range [] s (fun u => u = s)) ∧
  (∀ (s : State) (r : Req) (p : Port) (n : U16), Requested s r p 4 → 1 ≤ n.toNat → n.toNat ≤ 4032 → s.sys.mode.isAwake = true →
    s.key.trngFail = false → Answers (.keyRandom r n) r 0x0F05 stat_ok (Config.freeBytes s.free n.toNat) s (fun u =>
      u.free = s.free + 1 ∧ Frame [.free] s u)) ∧
  (∀ (s : State) (r : Req) (p : Port) (n : U16), Requested s r p 4 → 1 ≤ n.toNat → n.toNat ≤ 4032 → s.sys.mode.isAwake = true →
    s.key.trngFail = true → Answers (.keyRandom r n) r 0x0F05 stat_keyTrng [] s (fun u => u = s)) ∧
  (∀ (s : State) (r : Req) (p : Port), Requested s r p 0 → s.sys.mode.isAwake = true → s.key.pufFail = false →
    Answers (.keyGetIdentity r) r 0x0F06 stat_ok (le64 s.key.serial ++ s.identityKey 0 97 ++ zeros 7 ++ s.identityKey 1 97 ++ zeros 7
      ++ s.identityKey 2 1952 ++ s.identityKey 3 1184 ++ n16 s.key.cert.length ++ s.key.cert) s (fun u => u = s)) ∧
  (∀ (s : State) (r : Req) (p : Port), Requested s r p 0 → s.sys.mode.isAwake = true → s.key.pufFail = true →
    Answers (.keyGetIdentity r) r 0x0F06 stat_keyNoIdentity [] s (fun u => u = s)) ∧
  (∀ (s : State) (r : Req) (p : Port) (nonce : List Byte), Requested s r p 36 → s.sys.mode.isAwake = true → s.key.pufFail = false →
    Answers (.keyAttest r nonce 0) r 0x0F04 stat_ok (statement nonce false s ++ Config.freeBytes s.free 96) s (fun u => Frame [.free] s u)) ∧
  (∀ (s : State) (r : Req) (p : Port) (nonce : List Byte), Requested s r p 36 → s.sys.mode.isAwake = true → s.key.pufFail = false →
    Gives (.keyAttest r nonce 1) s (fun t => ∃ u, t = complete r.port r.seq r.tag 0x0F04 stat_ok (attestBytes nonce true s)
      (respond r 0x0F04 stat_pending [] u) ∧ Frame [.free] s u)) ∧
  (∀ s : State, s.key.trngFail = false → Gives .trngHealthFail s (fun t => t.key = { s.key with trngFail := true } ∧
    Frame [.key, .mbx, .log, .vz] s t)) ∧
  (∀ s : State, s.key.trngFail = true → exec .trngHealthFail s = .next s) ∧
  (∀ (r : Req) (f : ProvisionFields) (slot : Byte) (nonce : Nat) (sig : KeySig) (s : State),
    Gives (.keyProvision r f) s (fun t => Frame [.sys, .mbx, .log, .vz, .key] s t) ∧
    Gives (.keyEraseSlot r slot nonce sig) s (fun t => Frame [.sys, .mbx, .log, .vz, .key] s t)) ∧
  (∀ (r : Req) (first count : Byte) (s : State), Gives (.keySlotStatus r first count) s (fun t => Frame [.mbx, .vz] s t)) ∧
  (∀ (r : Req) (nonce : List Byte) (flags : Byte) (n : U16) (s : State),
    Gives (.keyAttest r nonce flags) s (fun t => Frame [.mbx, .vz, .free] s t) ∧
    Gives (.keyRandom r n) s (fun t => Frame [.mbx, .vz, .free] s t) ∧ Gives (.keyGetIdentity r) s (fun t => Frame [.mbx, .vz] s t) ∧
    Gives .trngHealthFail s (fun t => Frame [.mbx, .log, .vz, .key] s t))

/-- The UPD commands (R56, R436 to R444, R453): a target is opened, filled and verified in that order, and a commit makes every verified
image valid at once. -/
def Obligations.UpdateCommandsAct : Prop :=
  (∀ (s : State) (r : Req) (p : Port) (target : Byte) (total : U32), Requested s r p 8 → p.sysPriv = true →
    beginStat s target.toNat total.toNat = none → s.sys.mode.isWorkBase = true → s.upd.open_ = none → s.upd.verifying = none →
    target.toNat ≤ 5 →
    Answers (.updBegin r target total) r 0x1001 stat_ok [byteOf (bit (s.stagingCopy target.toNat))] s (fun u =>
      u.upd.open_ = some { target := target.toNat, second := s.stagingCopy target.toNat, total := total.toNat, bytes := [] } ∧
      u.upd.copies = s.upd.copies ∧ Frame [.upd] s u)) ∧
  (∀ (s : State) (r : Req) (p : Port) (target : Byte) (total : U32), Requested s r p 8 → p.sysPriv = true →
    beginStat s target.toNat total.toNat = none → s.sys.mode.isWorkBase = true → s.upd.open_.isSome = true →
    Answers (.updBegin r target total) r 0x1001 stat_busy [] s (fun u => u = s)) ∧
  (∀ (s : State) (r : Req) (p : Port) (offset : U32) (data : List Byte) (x : UpdTarget), Requested s r p (4 + data.length) →
    p.sysPriv = true → blockOk data = true → s.sys.mode.isWorkBase = true → s.upd.open_ = some x → offset.toNat + data.length ≤ x.total →
    Answers (.updWrite r offset data) r 0x1002 stat_ok [] s (fun u =>
      u.upd.open_ = some { x with bytes := memWrite x.bytes offset.toNat data } ∧ u.upd.copies = s.upd.copies ∧ Frame [.upd] s u)) ∧
  (∀ (s : State) (r : Req) (p : Port) (offset : U32) (data : List Byte), Requested s r p (4 + data.length) → p.sysPriv = true →
    blockOk data = true → s.sys.mode.isWorkBase = true → s.upd.open_ = none →
    Answers (.updWrite r offset data) r 0x1002 stat_noSession [] s (fun u => u = s)) ∧
  (∀ (s : State) (r : Req) (p : Port) (x : UpdTarget), Requested s r p 0 → p.sysPriv = true → s.sys.mode.isWorkBase = true →
    s.upd.open_ = some x →
    Answers (.updVerify r) r 0x1003 stat_pending [] s (fun u => u.upd.open_ = none ∧
      u.upd.verifying = some { target := x, requester := some (r.port, r.tag, r.seq) } ∧ u.upd.copies = s.upd.copies ∧ Frame [.upd] s u)) ∧
  (∀ (f : VerifyFacts) (bank : Bank) (v : Verifying) (n : Nat) (tag seq : U32) (s : State), s.upd.verifying = some v →
    v.requester = some (n, tag, seq) → v.target.target ≠ 16 →
    imageStatus v.target f { s with upd := { s.upd with verifying := none } } = none →
    Gives (.updVerifyDone f bank) s (fun t => ∃ u, t = complete n seq tag 0x1003 stat_ok (verifiedBytes v.target.target
        (manifestOf v.target.bytes false).version (manifestOf v.target.bytes false).secVer) u ∧ u.upd.verifying = none ∧
      (u.copy v.target.target v.target.second).state = .verified ∧
      (u.copy v.target.target v.target.second).version = memRead32 v.target.bytes 8 ∧ Frame [.upd, .mbx, .log, .vz] s u)) ∧
  (∀ (f : VerifyFacts) (bank : Bank) (v : Verifying) (n : Nat) (tag seq : U32) (st : U16) (s : State), s.upd.verifying = some v →
    v.requester = some (n, tag, seq) → v.target.target ≠ 16 →
    imageStatus v.target f { s with upd := { s.upd with verifying := none } } = some st →
    Gives (.updVerifyDone f bank) s (fun t => ∃ u, t = complete n seq tag 0x1003 st [] u ∧ u.upd.verifying = none ∧
      u.upd.copies = s.upd.copies ∧ Frame [.upd] s u)) ∧
  (∀ (f : VerifyFacts) (bank : Bank) (v : Verifying) (n : Nat) (tag seq : U32) (s : State), s.upd.verifying = some v →
    v.requester = some (n, tag, seq) → v.target.target = 16 →
    bankStatus (bank.read v.target.bytes) { s with upd := { s.upd with verifying := none } } = none →
    Gives (.updVerifyDone f bank) s (fun t => ∃ u, t = complete n seq tag 0x1003 stat_ok
        (verifiedBytes 16 (memRead32 v.target.bytes 8) 0) u ∧ u.upd.verifying = none ∧ bankHeaderOk v.target.bytes = true ∧
      u.upd.bankReady = some (v.target.second, bank.read v.target.bytes) ∧ u.upd.copies = s.upd.copies ∧
      Frame [.upd, .mbx, .log, .vz] s u)) ∧
  (∀ (f : VerifyFacts) (bank : Bank) (s : State), s.upd.verifying = none → exec (.updVerifyDone f bank) s = .next s) ∧
  (∀ (s : State) (r : Req) (p : Port), Requested s r p 4 → p.sysPriv = true → s.sys.mode.isWorkBase = true → s.upd.open_ = none →
    s.upd.verifying = none → s.commitMask ≠ 0 → (s.commitMask % 128 = 0 ∨ testedSet (s.setImages s.resultSet) = true) →
    Gives (.updCommit r 0) s (fun t => ∃ u, t = respond r 0x1004 stat_ok ([byteOf s.commitMask] ++ zeros 3
        ++ manifestDigest (s.setImages s.resultSet)) u ∧
      (∀ (c : Fin 6) (b : Bool), s.verifiedCopy c.val = some b → (u.copy c.val b).state = .valid ∧
        (u.copy c.val b).version = (s.copy c.val b).version) ∧ u.upd.bankReady = none ∧
      (∀ bank, s.upd.bankReady = some (true, bank) → u.cfg.bankB = bank) ∧ (∀ bank, s.upd.bankReady = some (false, bank) → u.cfg.bankA = bank) ∧
      Frame [.upd, .cfg, .mbx, .log, .vz] s u)) ∧
  (∀ (s : State) (r : Req) (p : Port), Requested s r p 4 → p.sysPriv = true → s.sys.mode.isWorkBase = true → s.commitMask = 0 →
    Answers (.updCommit r 0) r 0x1004 stat_updNotVerified [] s (fun u => u = s)) ∧
  (∀ (s : State) (r : Req) (p : Port), Requested s r p 4 → p.sysPriv = true → s.sys.mode.isWorkBase = true → s.upd.open_ = none →
    s.upd.verifying = none → s.commitMask % 128 ≠ 0 → testedSet (s.setImages s.resultSet) = false →
    Answers (.updCommit r 0) r 0x1004 stat_updUntested [] s (fun u => u = s)) ∧
  (∀ (s : State) (r : Req) (p : Port), Requested s r p 0 → p.sysPriv = true → s.sys.mode.isWorkBase = true → s.upd.verifying = none →
    Answers (.updAbort r) r 0x1005 stat_ok [] s (fun u => u.upd.open_ = none ∧ u.upd.bankReady = none ∧
      (∀ (c : Nat) (b : Bool), (s.copy c b).state = .verified → u.copy c b = .empty) ∧
      (∀ (c : Nat) (b : Bool), (s.copy c b).state ≠ .verified → u.copy c b = s.copy c b) ∧ Frame [.upd] s u)) ∧
  (∀ (s : State) (r : Req) (p : Port), Requested s r p 0 → s.sys.mode.isAwake = true →
    Answers (.updStatus r) r 0x1006 stat_ok (updStatusBytes s) s (fun u => u = s)) ∧
  (∀ (s : State) (r : Req) (p : Port), Requested s r p 0 → p.sysPriv = true → s.sys.mode.isWorkBase = true → s.restartReady = true →
    Gives (.updRestart r) s (fun t => t = answerRestart r 0x1007 8 s ∧ t.sys.mode = .startup ∧ t.sys.phase = .waiting ∧
      t.sys.startTrigger = 8)) ∧
  (∀ (s : State) (r : Req) (p : Port), Requested s r p 0 → p.sysPriv = true → s.sys.mode = .basecamp → s.upd.committed = false →
    Answers (.updRestart r) r 0x1007 stat_badState [] s (fun u => u = s)) ∧
  (∀ (s : State) (r : Req) (p : Port) (allowance : Byte) (digest : List Byte), Requested s r p 152 → p.sysPriv = true → allowance ≠ 0 →
    s.sys.mode = .workshop → s.slotServes 125 8 = true →
    Answers (.updWaiver r allowance digest true) r 0x1020 stat_ok [] s (fun u =>
      u.upd.waiver = some { left := allowance.toNat, digest := (digest ++ zeros 48).take 48 } ∧ Frame [.upd] s u)) ∧
  (∀ (s : State) (r : Req) (p : Port) (allowance : Byte) (digest : List Byte), Requested s r p 152 → p.sysPriv = true → allowance ≠ 0 →
    s.sys.mode = .workshop → Answers (.updWaiver r allowance digest false) r 0x1020 stat_authFail [] s (fun u =>
      u.key.refused = s.key.refused + 1 ∧ u.upd = s.upd ∧ Frame [.key] s u)) ∧
  (∀ s : State, Gives .updTargetTimeout s (fun t => t.upd = { s.upd with open_ := none } ∧ Frame [.upd] s t))

/-- The Basecamp session over CAN0 (R446 to R450): each service answers and acts, and the port that serves keeps the session. Response bytes
that R447 does not name are the model's choice (ISO 14229-1, log entry 108). -/
def Obligations.UdsServicesAct : Prop :=
  (∀ (sub : Byte) (s : State), s.basecamp = true → s.mgrUp = true → s.uds.serving ≠ some .ring → (sub = 1 ∨ sub = 2) →
    Gives (.udsSessionControl sub) s (fun t => t.uds.programming = decide (sub = 2) ∧ t.uds.unlocked = false ∧ t.uds.seed = none ∧
      t.uds.serving = some .can0 ∧ t.uds.answer.take 2 = [0x50, sub] ∧
      t.uds.tp = s.uds.tp.say t.uds.answer ∧ Frame [.uds] s t)) ∧
  (∀ (sub : Byte) (s : State), s.basecamp = true → s.mgrUp = true → s.uds.serving = some .ring →
    Gives (.udsSessionControl sub) s (fun t => t.uds = s.uds.say [0x7F, 0x10, 0x22] ∧ Frame [.uds] s t)) ∧
  (∀ (sub : Byte) (s : State), s.basecamp = false → exec (.udsSessionControl sub) s = .next s) ∧
  (∀ s : State, s.basecamp = true → s.mgrUp = true → s.uds.serving ≠ some .ring → s.uds.programming = true → s.uds.unlocked = true →
    s.restartReady = true → Gives (.udsEcuReset 1) s (fun t => t.sys.mode = .startup ∧ t.sys.phase = .waiting ∧ t.sys.startTrigger = 8 ∧
      t.sys.failedStarts = 0)) ∧
  (∀ s : State, s.basecamp = true → s.mgrUp = true → s.uds.serving ≠ some .ring → s.uds.programming = false →
    Gives (.udsEcuReset 1) s (fun t => t.uds.answer = [0x7F, 0x11, 0x33] ∧ Frame [.uds] s t)) ∧
  (∀ s : State, s.basecamp = true → s.mgrUp = true → s.uds.serving ≠ some .ring → Gives (.udsTesterPresent 0) s (fun t =>
    t.uds.answer = [0x7E, 0] ∧ t.uds.serving = some .can0 ∧ t.uds.programming = s.uds.programming ∧ Frame [.uds] s t)) ∧
  (∀ s : State, Gives .udsS3Timeout s (fun t => t.uds.programming = false ∧ t.uds.unlocked = false ∧ t.uds.seed = none ∧
    t.upd = { s.upd with open_ := none } ∧ Frame [.uds, .upd] s t)) ∧
  (∀ s : State, Gives .basecampPortIdle s (fun t => t.uds = { s.uds with serving := none } ∧ Frame [.uds] s t)) ∧
  (∀ s : State, s.basecamp = true → s.mgrUp = true → s.uds.serving ≠ some .ring → Gives (.udsReadDataById 0xF18C) s (fun t =>
    t.uds.answer = [0x62, 0xF1, 0x8C] ++ asciiSerial s.key.serial ∧ Frame [.uds] s t)) ∧
  (∀ s : State, s.basecamp = true → s.mgrUp = true → s.uds.serving ≠ some .ring → Gives (.udsReadDataById 0xFD01) s (fun t =>
    t.uds.answer = [0x62, 0xFD, 0x01] ++ updStatusBytes s ∧ Frame [.uds] s t)) ∧
  (∀ s : State, s.basecamp = true → s.mgrUp = true → s.uds.serving ≠ some .ring → s.uds.programming = true → s.uds.locked = false →
    (s.slot 124).state = .valid → s.uds.unlocked = false → s.key.trngFail = false →
    Gives .udsRequestSeed s (fun t => t.uds.seed = some s.free ∧ t.uds.answer = [0x67, 0x11] ++ nonceBytes s.free ∧
      t.nonceFresh s.free = true ∧ Frame [.uds, .sys, .free] s t)) ∧
  (∀ s : State, s.basecamp = true → s.mgrUp = true → s.uds.serving ≠ some .ring → s.uds.programming = true → s.uds.locked = true →
    Gives .udsRequestSeed s (fun t => t.uds.answer = [0x7F, 0x27, 0x37] ∧ t.uds.seed = s.uds.seed ∧ Frame [.uds] s t)) ∧
  (∀ (n : Nat) (s : State), s.basecamp = true → s.mgrUp = true → s.uds.serving ≠ some .ring → s.uds.programming = true →
    s.uds.locked = false → s.uds.seed = some n → s.nonceFresh n = true → s.slotServes 124 8 = true →
    Gives (.udsSendKey true) s (fun t => t.uds.unlocked = true ∧ t.uds.wrong = 0 ∧ t.uds.seed = none ∧ t.uds.answer = [0x67, 0x12] ∧
      t.nonceFresh n = false ∧ Frame [.uds, .sys] s t)) ∧
  (∀ (n : Nat) (s : State), s.basecamp = true → s.mgrUp = true → s.uds.serving ≠ some .ring → s.uds.programming = true →
    s.uds.locked = false → s.uds.seed = some n → (s.slot 124).state ≠ .bad → s.uds.wrong < 2 →
    Gives (.udsSendKey false) s (fun t => t.uds.unlocked = s.uds.unlocked ∧ t.uds.wrong = s.uds.wrong + 1 ∧ t.uds.seed = none ∧
      t.uds.answer = [0x7F, 0x27, 0x35] ∧ Frame [.uds, .sys] s t)) ∧
  (∀ (n : Nat) (s : State), s.basecamp = true → s.mgrUp = true → s.uds.serving ≠ some .ring → s.uds.programming = true →
    s.uds.locked = false → s.uds.seed = some n → (s.slot 124).state ≠ .bad → 2 ≤ s.uds.wrong →
    Gives (.udsSendKey false) s (fun t => t.uds.locked = true ∧ t.uds.seed = none ∧ t.uds.answer = [0x7F, 0x27, 0x36] ∧
      Frame [.uds, .sys] s t)) ∧
  (∀ s : State, Gives .udsSecurityLockoutEnd s (fun t => t.uds = { s.uds with locked := false } ∧ Frame [.uds] s t))

/-- Download and routines over CAN0 in Basecamp (R443, R446, R447, R450): what UPD does over Gyvin, under security access. A request comes
under 0x7C0 or 0x7CF and is answered under 0x7C8; the layout of the frames is ISO 15765-2 (log entry 143). -/
def Obligations.UdsDownloadsAct : Prop :=
  (∀ (target total : U32) (s : State), s.basecamp = true → s.mgrUp = true → s.uds.serving ≠ some .ring → s.uds.programming = true →
    s.uds.unlocked = true → beginStat s target.toNat total.toNat = none → s.upd.open_ = none → s.upd.verifying = none → target.toNat ≤ 5 →
    Gives (.udsRequestDownload 0 0x44 target total) s (fun t => t.uds.answer = [0x74, 0x20, 0x0F, 0xB2] ∧ t.uds.counter = 1 ∧
      t.uds.block = 0 ∧ t.upd.open_ = some { target := target.toNat, second := s.stagingCopy target.toNat, total := total.toNat, bytes := [] } ∧
      Frame [.uds, .upd] s t)) ∧
  (∀ (target total : U32) (s : State), s.basecamp = true → s.mgrUp = true → s.uds.serving ≠ some .ring → s.uds.unlocked = false →
    Gives (.udsRequestDownload 0 0x44 target total) s (fun t => t.uds.answer = [0x7F, 0x34, 0x33] ∧ Frame [.uds] s t)) ∧
  (∀ (counter : Byte) (data : List Byte) (x : UpdTarget) (s : State), s.basecamp = true → s.mgrUp = true → s.uds.serving ≠ some .ring →
    s.uds.programming = true → s.uds.unlocked = true → s.upd.open_ = some x → counter = s.uds.counter → blockOk data = true →
    4016 * s.uds.block + data.length ≤ x.total →
    Gives (.udsTransferData counter data) s (fun t => t.uds.answer = [0x76, counter] ∧ t.uds.counter = counter + 1 ∧
      t.uds.block = s.uds.block + 1 ∧ t.upd.open_ = some { x with bytes := memWrite x.bytes (4016 * s.uds.block) data } ∧
      Frame [.uds, .upd] s t)) ∧
  (∀ (counter : Byte) (data : List Byte) (x : UpdTarget) (s : State), s.basecamp = true → s.mgrUp = true → s.uds.serving ≠ some .ring →
    s.uds.programming = true → s.uds.unlocked = true → s.upd.open_ = some x → counter ≠ s.uds.counter →
    Gives (.udsTransferData counter data) s (fun t => t.uds.answer = [0x7F, 0x36, 0x73] ∧ t.uds.counter = s.uds.counter ∧
      Frame [.uds] s t)) ∧
  (∀ (x : UpdTarget) (s : State), s.basecamp = true → s.mgrUp = true → s.uds.serving ≠ some .ring → s.uds.programming = true →
    s.uds.unlocked = true → s.upd.open_ = some x →
    Gives .udsRequestTransferExit s (fun t => t.upd.open_ = none ∧ t.upd.verifying = some { target := x, requester := none } ∧
      t.uds.answer = [0x7F, 0x37, 0x78] ∧ Frame [.uds, .upd] s t)) ∧
  (∀ s : State, s.basecamp = true → s.mgrUp = true → s.uds.serving ≠ some .ring → s.uds.programming = true → s.uds.unlocked = true →
    s.upd.verifying = none → Gives (.udsRoutineControl 1 0xFD03 none) s (fun t => t.uds.answer = [0x71, 1, 0xFD, 0x03] ∧
      t.upd.open_ = none ∧ (∀ (c : Nat) (b : Bool), (s.copy c b).state = .verified → t.copy c b = .empty) ∧ Frame [.uds, .upd] s t)) ∧
  (∀ s : State, s.basecamp = true → s.mgrUp = true → s.uds.serving ≠ some .ring → s.uds.programming = true → s.uds.unlocked = true →
    s.upd.open_ = none → s.upd.verifying = none → s.commitMask ≠ 0 →
    (s.commitMask % 128 = 0 ∨ testedSet (s.setImages s.resultSet) = true) →
    Gives (.udsRoutineControl 1 0xFD01 none) s (fun t => t.uds.answer = [0x71, 1, 0xFD, 0x01] ++ [byteOf s.commitMask] ++ zeros 3
        ++ manifestDigest (s.setImages s.resultSet) ∧ t.upd.committed = true ∧ t.upd.bankReady = none ∧
      (∀ (c : Fin 6) (b : Bool), s.verifiedCopy c.val = some b → (t.copy c.val b).state = .valid) ∧
      Frame [.uds, .upd, .cfg, .mbx, .log, .vz] s t)) ∧
  (∀ (payload : List Byte) (s : State), s.basecamp = true → s.mgrUp = true → s.uds.serving ≠ some .ring → s.uds.programming = true →
    s.uds.unlocked = true → Gives (.udsRoutineControl 1 0xFD02 (some (.ping payload))) s (fun t =>
      t.uds.answer = [0x71, 1, 0xFD, 0x02, 0, 0] ++ payload ∧ Frame [.uds] s t)) ∧
  (∀ (code : U16) (s : State), s.basecamp = true → s.mgrUp = true → s.uds.serving ≠ some .ring → s.uds.programming = true →
    s.uds.unlocked = true → Gives (.udsRoutineControl 1 0xFD02 (some (.other code))) s (fun t =>
      t.uds.answer = [0x71, 1, 0xFD, 0x02] ++ le16 stat_unknownCmd ∧ Frame [.uds] s t)) ∧
  (∀ (id : U16) (g : Option UdsGyvin) (s : State), s.basecamp = true → s.mgrUp = true → s.uds.serving ≠ some .ring →
    s.uds.unlocked = false → Gives (.udsRoutineControl 1 id g) s (fun t => t.uds.answer = [0x7F, 0x31, 0x33] ∧ Frame [.uds] s t)) ∧
  (∀ (g : CanFrame) (b : Byte) (r : List Byte) (sof : U64) (n : CanCounters) (s : State), s.sys.mode = .basecamp →
    (s.canCh 0).mode.onBus = true → s.powered (pdCan 0) = true → n.err = 0 → g.ide = false → g.rtr = false → g.fmt = 0 →
    (g.id.extractLsb' 18 11 = 0x7C0 ∨ g.id.extractLsb' 18 11 = 0x7CF) → g.data = b :: r → 1 ≤ b.toNat → b.toNat ≤ 7 → b.toNat ≤ r.length →
    Gives (.canFrameReceived 0 g sof n) s (fun t => t.uds = { s.uds with tp := { s.uds.tp with
      fd := false, rx := none, request := r.take b.toNat, functional := decide (g.id.extractLsb' 18 11 = 0x7CF), sent := [] } } ∧
      Frame [.uds, .mbx, .log, .vz, .net] s t)) ∧
  (∀ (g : CanFrame) (r : List Byte) (sof : U64) (n : CanCounters) (s : State), s.sys.mode = .basecamp → (s.canCh 0).mode.onBus = true →
    s.powered (pdCan 0) = true → n.err = 0 → g.ide = false → g.rtr = false → g.fmt = 0 → g.id.extractLsb' 18 11 = 0x7C0 →
    g.data = 0x30 :: 0 :: r → Gives (.canFrameReceived 0 g sof n) s (fun t => t.uds = { s.uds with tp := { s.uds.tp with
      fd := false, sent := s.uds.tp.held, held := [] } } ∧ Frame [.uds, .mbx, .log, .vz, .net] s t)) ∧
  (∀ (u : TpState) (b : List Byte), b ≠ [] → b.length ≤ 7 → ∃ f, (u.say b).sent = [f] ∧ (u.say b).held = [] ∧
    f.id.extractLsb' 18 11 = 0x7C8 ∧ f.ide = false ∧ f.fmt = (if u.fd then 1 else 0) ∧ f.brs = u.fd ∧
    f.data.take (b.length + 1) = byteOf b.length :: b)

/-- The rope team (R456 to R468, Tables 16.3 to 16.9): belay frames, the partner's state with the take-over it asks for, grace, self-tests
and health reports.
The TWIN commands (R479, R480, Table 16.18); the belay test answers with the partner's next health report. -/
def Obligations.RopeTeamActs : Prop :=
  (∀ s : State, s.twinOn = true → s.sys.mode ≠ .basecamp → s.twin.testing = false → Gives .belayFrameSend s (fun t =>
    t.twin = { s.twin with line := some s.twin.role.belay, framesSent := satInc 0xFFFF s.twin.framesSent } ∧ Frame [.twin] s t)) ∧
  (∀ s : State, s.basecamp = true → s.mgrUp = true → Gives .belayFrameSend s (fun t => t.twin.line = some .release ∧ Frame [.twin] s t)) ∧
  (∀ s : State, s.basecamp = false → s.twinOn = false → exec .belayFrameSend s = .next s) ∧
  (∀ s : State, Gives .belayEncoderTimeout s (fun t => t.twin = { s.twin with line := none } ∧ Frame [.twin] s t)) ∧
  (∀ (code : BelayCode) (s : State), s.sys.bivouac = .none → Gives (.belayFrameDecoded code) s (fun t =>
    t = partnerIs (some code.shown) (s.modTwin (fun x => x.decoded code s.now)))) ∧
  (∀ (code : BelayCode) (s : State), s.cfg.image.twin.en = false → s.rfx.enabled = false → Gives (.belayFrameDecoded code) s (fun t =>
    t.twin.partner = some code.shown ∧ t.twin.framesDecoded = satInc 0xFFFF s.twin.framesDecoded ∧ Frame [.twin, .ch] s t)) ∧
  (∀ s : State, s.cfg.image.twin.en = false → s.rfx.enabled = false → Gives .belayPartnerLost s (fun t =>
    t.twin.partner = none ∧ t.twin.validFrom = none ∧ Frame [.twin, .ch] s t)) ∧
  (∀ s : State, s.cfg.image.twin.en = true → s.mgrUp = true → s.sys.mode = .run → s.rfx.enabled = false → s.twin.role = .standby →
    s.twin.eligible = true → s.twin.belayFault = false →
    Gives .belayPartnerLost s (fun t => t.twin.role = .holder ∧ t.twin.ownHolder = true ∧ t.twin.takeovers = s.twin.takeovers + 1 ∧
      t.twin.byLoss = true ∧ t.twin.partner = none)) ∧
  (∀ s : State, s.cfg.image.twin.en = true → s.mgrUp = true → s.rfx.enabled = false → s.twin.role = .holder →
    s.cfg.image.twin.primary = false → s.sys.bivouac = .none →
    Gives (.belayFrameDecoded .holder) s (fun t => t.twin.role = .standby ∧ t.twin.ownHolder = false ∧ t.twin.partner = some .holder)) ∧
  (∀ (die : Fin 8) (s : State), Gives (.twinGateDelay die) s (fun t => (t.die die.val).gateDelay = false ∧ Frame [.ch] s t)) ∧
  (∀ s : State, s.twinOn = true → s.sys.mode = .run → s.cfg.image.twin.primary = false → s.twin.role = .standby → s.twin.partner = none →
    s.twin.sawHolder = false → Gives .twinGraceExpiry s (fun t => t.twin.role = .holder ∧ t.twin.ownHolder = true ∧
      Frame [.twin, .ch, .mbx, .log, .vz] s t)) ∧
  (∀ s : State, (s.twin.role ≠ .standby ∨ s.twin.sawHolder = true) → exec .twinGraceExpiry s = .next s) ∧
  (∀ (test : Fin 4) (entry : Fin 32) (s : State), s.twinOn = true → s.twin.role = .standby → (2 ≤ test.val ∨ entry.val < s.cfg.image.twin.list.length) →
    s.twin.mirrorGood < 16 → Gives (.standbySelftest test true entry) s (fun t =>
      t.twin.testsPassed = s.twin.testsPassed ||| BitVec.ofNat 4 (2 ^ test.val) ∧
      t.twin.testsEver = s.twin.testsEver ||| BitVec.ofNat 4 (2 ^ test.val) ∧ t.twin.excluded = s.twin.excluded ∧ Frame [.twin] s t)) ∧
  (∀ (test : Fin 4) (entry : Fin 32) (s : State), s.twinOn = true → s.twin.role = .standby → test.val < 2 →
    entry.val < s.cfg.image.twin.list.length → Gives (.standbySelftest test false entry) s (fun t =>
      t.twin.excluded = s.twin.excluded ||| BitVec.ofNat 32 (2 ^ entry.val) ∧ t.twin.testsPassed.getLsbD test.val = false ∧
      Frame [.twin, .mbx, .log, .vz] s t)) ∧
  (∀ (entry : Fin 32) (s : State), s.twinOn = true → s.twin.role = .standby → Gives (.standbySelftest 2 false entry) s (fun t =>
    t.twin.lbistFailed = true ∧ t.twin.eligible = false ∧ t.twin.excluded = s.twin.excluded ∧ Frame [.twin, .mbx, .log, .vz] s t)) ∧
  (∀ (test : Fin 4) (pass : Bool) (entry : Fin 32) (s : State), s.twin.role ≠ .standby →
    exec (.standbySelftest test pass entry) s = .next s) ∧
  (∀ (vin vbk12 : Int) (s : State), s.twinOn = true → Gives (.healthReport vin vbk12) s (fun t =>
    (∃ h : Health, t.twin.ownHealth = some h ∧ h.payload = healthBytes vin vbk12 s ∧ h.origin = s.ring.cycle) ∧
    t.twin.healthSeq = s.twin.healthSeq + 1 ∧ t.twin.framesSent = 0 ∧ t.twin.framesDecoded = 0 ∧
    t.ring.dynOut.length = s.ring.dynOut.length + (if s.ring.joined then 1 else 0) ∧ Frame [.twin, .ring] s t)) ∧
  (∀ (vin vbk12 : Int) (s : State), s.twinOn = false → exec (.healthReport vin vbk12) s = .next s) ∧
  (∀ (s : State) (r : Req) (p : Port), Requested s r p 0 → s.sys.mode.isServing = true → s.cfg.image.twin.en = true →
    Answers (.twinStatus r) r 0x1101 stat_ok (twinStatusBytes s) s (fun u => u = s)) ∧
  (∀ (s : State) (r : Req) (p : Port), Requested s r p 0 → s.sys.mode.isServing = true → s.cfg.image.twin.en = false →
    Answers (.twinStatus r) r 0x1101 stat_twinOff [] s (fun u => u = s)) ∧
  (∀ (s : State) (r : Req) (p : Port) (h : Health), Requested s r p 4 → s.sys.mode.isServing = true → s.cfg.image.twin.en = true →
    s.twin.ownHealth = some h → Answers (.twinHealth r 0) r 0x1102 stat_ok h.bytes s (fun u => u = s)) ∧
  (∀ (s : State) (r : Req) (p : Port) (h : Health), Requested s r p 4 → s.sys.mode.isServing = true → s.cfg.image.twin.en = true →
    s.twin.partnerHealth = some h → Answers (.twinHealth r 1) r 0x1102 stat_ok h.bytes s (fun u => u = s)) ∧
  (∀ (s : State) (r : Req) (p : Port), Requested s r p 4 → s.sys.mode.isServing = true → s.cfg.image.twin.en = true →
    s.twin.partnerHealth = none → Answers (.twinHealth r 1) r 0x1102 stat_badState [] s (fun u => u = s)) ∧
  (∀ (s : State) (r : Req) (p : Port) (frames : U16), Requested s r p 4 → p.sysPriv = true → within 10 1000 frames.toNat = true →
    s.sys.mode = .workshop → s.cfg.image.twin.en = true → s.twin.role ≠ .holder → s.twin.testReq = none →
    Answers (.twinBelayTest r frames) r 0x1103 stat_pending [] s (fun u => u.twin.testing = true ∧
      u.twin.testReq = some (r.port, r.tag, r.seq, frames.toNat) ∧ u.twin.role = s.twin.role ∧ Frame [.twin] s u)) ∧
  (∀ (s : State) (r : Req) (p : Port) (frames : U16), Requested s r p 4 → p.sysPriv = true → within 10 1000 frames.toNat = true →
    s.sys.mode = .workshop → s.cfg.image.twin.en = true → s.twin.role = .holder →
    Answers (.twinBelayTest r frames) r 0x1103 stat_twinRole [] s (fun u => u = s)) ∧
  (∀ s : State, Gives .belayTestDone s (fun t => t.twin = { s.twin with testing := false } ∧ Frame [.twin] s t))

/-- The signal exchange and the press codec at their events (R338, R342, R344, R349, R351, R352, R354, R357, R358, R360 to R364): the oldest
source PDU event of a pipeline runs, timers and table faults mark what they name, slots are written, read and frozen, and a block of a started
stream is coded into its engine's buffer or its period is dropped. -/
def Obligations.SignalEventsAct : Prop :=
  (∀ (pipe : Fin 4) (s : State), s.sig.queues.getD [] pipe.val = [] → GivesEval (.sourcePduUpdate pipe none) s (fun u => u = s)) ∧
  (∀ (pipe : Fin 4) (ev : SigEvent) (l : List SigEvent) (p : PduDesc) (s : State), s.sig.queues.getD [] pipe.val = ev :: l →
    s.sigOn = true → s.sig.pdus.get? ev.pdu = some p → p.kind ≠ 5 →
    GivesEval (.sourcePduUpdate pipe none) s (fun u => ∃ w, u = runPdu ev.pdu w ∧ w.sig.queues.getD [] pipe.val = l ∧
      (w.pduRun ev.pdu).data = ev.data ∧ (w.pduRun ev.pdu).valid = true ∧ (w.pduRun ev.pdu).age = 0 ∧
      (∀ q, q ≠ ev.pdu → w.pduRun q = s.pduRun q) ∧ (∀ i, w.sigRun i = s.sigRun i) ∧ Frame [.sig] s w)) ∧
  (∀ (pipe : Fin 4) (ev : SigEvent) (l : List SigEvent) (p : PduDesc) (s : State), s.sig.queues.getD [] pipe.val = ev :: l →
    s.sigOn = true → s.sig.pdus.get? ev.pdu = some p → p.kind = 5 → sigEntries ev.data.length ev.data = [] →
    GivesEval (.sourcePduUpdate pipe none) s (fun u => ∃ w, u = runPdu ev.pdu w ∧ (w.pduRun ev.pdu).data = (s.pduRun ev.pdu).data ∧
      (w.pduRun ev.pdu).valid = true ∧ (w.pduRun ev.pdu).age = 0 ∧ (w.pduRun ev.pdu).lastOrigin = some ev.origin ∧ Frame [.sig] s w)) ∧
  (∀ (p : Fin 65536) (d : PduDesc) (s : State), s.sig.pdus.get? p.val = some d → d.tTo ≠ 0 → stepped d.kind = true → s.sigOn = true →
    GivesEval (.pduTimeout p) s (fun u => ∃ w, u = runPdu p.val w ∧ (w.pduRun p.val).valid = false ∧
      (∀ q, q ≠ p.val → w.pduRun q = s.pduRun q) ∧ Frame [.sig] s w)) ∧
  (∀ (p : Fin 65536) (d : PduDesc) (s : State), s.sig.pdus.get? p.val = some d → d.tTo = 0 → exec (.pduTimeout p) s = .next s) ∧
  (∀ (i : Fin 262144) (d : SigDesc) (v : SigVal) (s : State), s.sigOn = true → s.sig.descs.get? i.val = some d → d.policy = 1 →
    d.kind = .signal → (s.sigRun i.val).cur = some v → (s.sigRun i.val).disabled = false →
    GivesEval (.signalCyclicWrite i) s (fun u => ∃ w, u = flushSinks w ∧ (w.sigRun i.val).written = some v ∧
      (w.sigRun i.val).count = (s.sigRun i.val).count + 1 ∧ (w.sigRun i.val).stamp = s.tb.count ∧ Frame [.mbx, .log, .vz, .sig] s w)) ∧
  (∀ (i : Fin 262144) (d : SigDesc) (v : SigVal) (s : State), s.sigOn = true → s.sig.descs.get? i.val = some d → d.kind = .signal →
    (s.sigRun i.val).deferred = true → (s.sigRun i.val).cur = some v → (s.sigRun i.val).disabled = false →
    GivesEval (.signalDeferredWrite i) s (fun u => ∃ w, u = flushSinks w ∧ (w.sigRun i.val).written = some v ∧
      (w.sigRun i.val).deferred = false ∧ (w.sigRun i.val).stamp = s.tb.count ∧ Frame [.mbx, .log, .vz, .sig] s w)) ∧
  (∀ (i : Fin 262144) (s : State), (s.sigRun i.val).deferred = false → exec (.signalDeferredWrite i) s = .next s) ∧
  (∀ (p : Fin 65536) (d : PduDesc) (s : State), s.sig.pdus.get? p.val = some d → d.kind = 8 → d.trig = 1 → s.sigOn = true →
    (s.pduRun p.val).disabled = false →
    Gives (.pduCyclicSend p) s (fun t => t.sig.i3Out = s.sig.i3Out ++ [{
          mac := d.mac, vid := d.half 16, pcp := d.byte 18
          payload := i3Record (d.word 12) 0 (if (s.pduRun p.val).data.isEmpty then zeros d.size else (s.pduRun p.val).data) }] ∧
      (t.pduRun p.val).lastSend = some s.now ∧ (t.pduRun p.val).sendWaits = false ∧ Frame [.sig] s t)) ∧
  (∀ (p : Fin 65536) (d : PduDesc) (s : State), s.sig.pdus.get? p.val = some d → d.trig = 0 → exec (.pduCyclicSend p) s = .next s) ∧
  (∀ (vid : BitVec 12) (payload : List Byte) (s : State), s.sigOn = false → exec (.i3RecordFrame vid payload) s = .next s) ∧
  (∀ (vid : BitVec 12) (payload : List Byte) (s : State), s.sigOn = true → (∀ x ∈ i3Records payload.length payload, x.2.1 ≠ 0) →
    Gives (.i3RecordFrame vid payload) s (fun t =>
      t.sig = { s.sig with ignoredRecords := s.sig.ignoredRecords + (i3Records payload.length payload).length } ∧ Frame [.sig] s t)) ∧
  (∀ (vid : BitVec 12) (payload : List Byte) (id : U32) (data : List Byte) (p : PduDesc) (q : Nat) (s : State), s.sigOn = true →
    i3Records payload.length payload = [(id, 0, data)] →
    s.pdusWith (fun p => decide (p.kind = 7) && decide (p.word 12 = id) && decide (p.half 16 = vid.toNat)) = [q] →
    s.sig.pdus.get? q = some p → (s.pduRun q).disabled = false → (s.sig.queues.getD [] (q % 4)).length < 4096 →
    Gives (.i3RecordFrame vid payload) s (fun t => t.sig.queues.getD [] (q % 4) =
      s.sig.queues.getD [] (q % 4) ++ [{ pdu := q, data := data, origin := 0 }] ∧ Frame [.sig] s t)) ∧
  (∀ (i : Fin 262144) (d : SigDesc) (s : State), s.sig.descs.get? i.val = some d →
    Gives (.sigTableEcc false i) s (fun t => (t.sigRun i.val).disabled = true ∧ (∀ j, j ≠ i.val → t.sigRun j = s.sigRun j) ∧
      Frame [.mbx, .log, .vz, .sig] s t)) ∧
  (∀ (i : Fin 262144) (p : PduDesc) (s : State), s.sig.pdus.get? i.val = some p →
    GivesEval (.sigTableEcc true i) s (fun u => ∃ w, u = runPdu i.val w ∧ (w.pduRun i.val).disabled = true ∧
      (∀ q, q ≠ i.val → w.pduRun q = s.pduRun q) ∧ Frame [.mbx, .log, .vz, .sig] s w)) ∧
  (∀ (v : Fin 256) (slot : Fin 1024) (value : U32) (s : State), s.slotPdus v.val slot.val 9 ≠ [] → s.vzfActive v.val = true →
    Gives (.sigWrLoWrite v slot value) s (fun t => t.sig.wrSlots.getD (0, 0) (slotKey v.val slot.val) =
        (value, (s.sig.wrSlots.getD (0, 0) (slotKey v.val slot.val)).2) ∧
      (∀ k, k ≠ slotKey v.val slot.val → t.sig.wrSlots.getD (0, 0) k = s.sig.wrSlots.getD (0, 0) k) ∧ Frame [.mbx, .log, .vz, .sig] s t)) ∧
  (∀ (v : Fin 256) (slot : Fin 1024) (value : U32) (s : State), s.slotPdus v.val slot.val 9 = [] →
    exec (.sigWrLoWrite v slot value) s = .next (windowFault v.val s)) ∧
  (∀ (v : Fin 256) (slot : Fin 1024) (q : Nat) (l : List Nat) (s : State), s.slotPdus v.val slot.val 10 = q :: l →
    Gives (.sigRdLoRead v slot) s (fun t => t.bus = BitVec.setWidth 64 ((s.slotValue q).extractLsb' 0 32) ∧
      t.sig.rdLatch.get? (slotKey v.val slot.val) =
        some ((s.slotValue q).extractLsb' 32 32, (s.slotState q).1, (s.slotState q).2) ∧ Frame [.sig, .bus] s t)) ∧
  (∀ (k : Fin 384) (s : State), ((s.cfg.image.ring.slots.getD .none k.val).ftype ≠ 3 ∨ s.ring.joined = false) →
    exec (.sigSlotFreeze k) s = .next s) ∧
  (∀ (k : Fin 384) (p : PduDesc) (s : State), (s.cfg.image.ring.slots.getD .none k.val).ftype = 3 → s.ring.joined = true →
    (s.cfg.image.ring.slots.getD .none k.val).owner = s.cfg.image.ring.station →
    s.sig.pdus.get? (s.cfg.image.ring.slots.getD .none k.val).arg = some p → p.kind = 6 → s.sigOn = true →
    Gives (.sigSlotFreeze k) s (fun t => (t.ring.own.getD .reset k.val).payload.length ≤ 480 ∧ (t.ring.own.getD .reset k.val).wordB = 0 ∧
      ((t.ring.own.getD .reset k.val).notReady = true ↔ (s.sys.proven = false ∨
        (∃ c ∈ s.ringSinks (s.cfg.image.ring.slots.getD .none k.val).arg, (s.sigRun c.1).once = false) ∨
        s.slotSourceless (s.ringSinks (s.cfg.image.ring.slots.getD .none k.val).arg) = true)) ∧
      Frame [.mbx, .log, .vz, .ring, .sig] s t)) ∧
  (∀ (stream : Fin 64) (pos : Fin 16) (raw : List Int) (s : State), ((s.stream stream.val).started = false ∨ s.sigOn = false) →
    exec (.prsBlock stream pos raw) s = .next s) ∧
  (∀ (stream : Fin 64) (pos : Fin 16) (raw : List Int) (f : PrsConfig) (src : Nat) (s : State), (s.stream stream.val).config = some f →
    f.sources[pos.val]? = some src → (s.stream stream.val).started = true → s.sigOn = true → pos.val + 1 < f.sources.length →
    (s.stream stream.val).dropping = false →
    bufBytes (s.engineBuf (stream.val % 4)) + (prsBlock src f.e f.k (decimateAll src f.k 32 (s.presentSamples src raw))).length ≤ engineBytes →
    Gives (.prsBlock stream pos raw) s (fun t => t.engineBuf (stream.val % 4) = s.engineBuf (stream.val % 4) ++ [{
          stream := stream.val, seq := (s.stream stream.val).seq, pos := pos.val
          bytes := prsBlock src f.e f.k (decimateAll src f.k 32 (s.presentSamples src raw)) }] ∧
      (t.stream stream.val).seq = (s.stream stream.val).seq ∧ Frame [.sig] s t)) ∧
  (∀ (stream : Fin 64) (pos : Fin 16) (raw : List Int) (f : PrsConfig) (src : Nat) (s : State), (s.stream stream.val).config = some f →
    f.sources[pos.val]? = some src → (s.stream stream.val).started = true → s.sigOn = true → pos.val + 1 < f.sources.length →
    (s.stream stream.val).dropping = false →
    engineBytes < bufBytes (s.engineBuf (stream.val % 4)) + (prsBlock src f.e f.k (decimateAll src f.k 32 (s.presentSamples src raw))).length →
    Gives (.prsBlock stream pos raw) s (fun t => (∀ b ∈ t.engineBuf (stream.val % 4), b ∈ s.engineBuf (stream.val % 4) ∧
        ¬(b.stream = stream.val ∧ b.seq = (s.stream stream.val).seq)) ∧ (t.stream stream.val).dropping = true ∧
      (t.stream stream.val).dropped = (s.stream stream.val).dropped + 1 ∧ Frame [.mbx, .log, .vz, .sig] s t)) ∧
  (∀ (stream : Fin 64) (pos : Fin 16) (raw : List Int) (f : PrsConfig) (src : Nat) (s : State), (s.stream stream.val).config = some f →
    f.sources[pos.val]? = some src → (s.stream stream.val).started = true → s.sigOn = true → pos.val + 1 = f.sources.length → f.i3 = false →
    Gives (.prsBlock stream pos raw) s (fun t => (t.stream stream.val).seq = (s.stream stream.val).seq + 1 ∧
      (t.stream stream.val).dropping = false ∧ Frame [.mbx, .log, .vz, .sig] s t)) ∧
  (∀ (id : Fin 64) (c : Capture4k) (s : State), s.sig.captures.get? id.val = some c → c.complete = false → 4096 ≤ c.samples.length →
    Gives (.prsCaptureComplete id) s (fun t => t.sig.captures.get? id.val = some { c with complete := true } ∧
      (∀ k, k ≠ id.val → t.sig.captures.get? k = s.sig.captures.get? k) ∧ Frame [.mbx, .log, .vz, .sig] s t)) ∧
  (∀ (id : Fin 64) (s : State), s.sig.captures.get? id.val = none → exec (.prsCaptureComplete id) s = .next s)

/-- The SIG commands (R343, R355, R359, R360, R364, Table 12.17): a load checks every record before the table changes, reads and writes stay in
the caller's range, and streams and captures start and end. -/
def Obligations.SignalCommandsAct : Prop :=
  (∀ (s : State) (r : Req) (p : Port) (first : U32) (n : U16) (b : List Byte) (ds : List (Nat × SigDesc)), Requested s r p (8 + 32 * n.toNat) →
    b.length = 32 * n.toNat → 1 ≤ n.toNat → n.toNat ≤ 125 → first.toNat + n.toNat ≤ 262144 → s.step13 = true →
    inRange p s.sigOwner first.toNat n.toNat = true →
    ds = (zipIdxFrom first.toNat (pieces 32 n.toNat b)).map (fun x => (x.1, decodeSig x.2 ((s.sigOwner x.1).getD 255))) →
    (∀ x ∈ pieces 32 n.toNat b, sigRecordOk x = true) → (∀ d ∈ ds, d.2.check s.sig.pdus = none) →
    tableCheck (ds.foldl (fun t x => t.set x.1 x.2) s.sig.descs) s.sig.pdus = none →
    Answers (.sigLoad r first n 0 b) r 0x0C01 stat_ok [] s (fun u => u.sig.descs = ds.foldl (fun t x => t.set x.1 x.2) s.sig.descs ∧
      (∀ d ∈ ds, u.sigRun d.1 = .reset) ∧ u.sig.pdus = s.sig.pdus ∧ Frame [.sig] s u)) ∧
  (∀ (s : State) (r : Req) (p : Port) (first : U32) (n : U16) (b : List Byte), Requested s r p (8 + 32 * n.toNat) →
    b.length = 32 * n.toNat → 1 ≤ n.toNat → n.toNat ≤ 125 → first.toNat + n.toNat ≤ 262144 → s.step13 = true →
    inRange p s.sigOwner first.toNat n.toNat = true → (∃ x ∈ pieces 32 n.toNat b, sigRecordOk x = false) →
    Answers (.sigLoad r first n 0 b) r 0x0C01 stat_sigDesc [] s (fun u => u = s)) ∧
  (∀ (s : State) (r : Req) (p : Port) (first : U32) (n : U16) (b : List Byte) (ps : List (Nat × PduDesc)),
    Requested s r p (8 + 32 * n.toNat) → b.length = 32 * n.toNat → 1 ≤ n.toNat → n.toNat ≤ 125 → first.toNat + n.toNat ≤ 65536 →
    s.step13 = true → inRange p s.pduOwner first.toNat n.toNat = true →
    ps = (zipIdxFrom first.toNat (pieces 32 n.toNat b)).map (fun x => (x.1, decodePdu x.2)) →
    (∀ x ∈ pieces 32 n.toNat b, pduRecordOk x = true) → (∀ q ∈ ps, q.2.kind ≠ 0 ∧ s.pduCheck q.2 = none) →
    (∀ c ∈ s.sig.descs.cells, c.2.kind = .chained ∨ c.2.check (ps.foldl (fun t x => t.set x.1 x.2) s.sig.pdus) = none) →
    tableCheck s.sig.descs (ps.foldl (fun t x => t.set x.1 x.2) s.sig.pdus) = none →
    Answers (.sigLoad r first n 1 b) r 0x0C01 stat_ok [] s (fun u => u.sig.pdus = ps.foldl (fun t x => t.set x.1 x.2) s.sig.pdus ∧
      u.sig.descs = s.sig.descs ∧ Frame [.sig] s u)) ∧
  (∀ (s : State) (r : Req) (p : Port) (first : U32) (n : U16) (b : List Byte), Requested s r p (8 + 4 * n.toNat) → p.sysPriv = true →
    b.length = 4 * n.toNat → 1 ≤ n.toNat → n.toNat ≤ 1006 → first.toNat + n.toNat ≤ 65536 → s.step13 = true →
    Answers (.sigLoad r first n 2 b) r 0x0C01 stat_ok [] s (fun u => u.sig.lookup =
      (zipIdxFrom first.toNat (pieces 4 n.toNat b)).foldl (fun t x => t.set x.1 (recWord x.2 0)) s.sig.lookup ∧
      u.sig.descs = s.sig.descs ∧ u.sig.pdus = s.sig.pdus ∧ Frame [.sig] s u)) ∧
  (∀ (s : State) (r : Req) (p : Port) (first : U32) (n : U16), Requested s r p 8 → 1 ≤ n.toNat → n.toNat ≤ 251 →
    first.toNat + n.toNat ≤ 262144 → s.sys.mode.isRunLimpWork = true → inRange p s.sigOwner first.toNat n.toNat = true →
    Answers (.sigRead r first n) r 0x0C02 stat_ok ((List.range n.toNat).flatMap (fun k => sigBytes s (first.toNat + k))) s (fun u => u = s)) ∧
  (∀ (s : State) (r : Req) (p : Port) (first : U32) (n : U16), Requested s r p 8 → 1 ≤ n.toNat → n.toNat ≤ 251 →
    first.toNat + n.toNat ≤ 262144 → s.sys.mode.isRunLimpWork = true → inRange p s.sigOwner first.toNat n.toNat = false →
    Answers (.sigRead r first n) r 0x0C02 stat_sigRange [] s (fun u => u = s)) ∧
  (∀ (s : State) (r : Req) (p : Port) (n target : U16) (es : List SigWriteEntry) (e : SigWriteEntry) (v : Nat),
    Requested s r p (4 + 12 * n.toNat) → es.length = n.toNat → target.toNat % 32768 < 256 → 1 ≤ n.toNat → n.toNat ≤ 335 →
    (∀ e ∈ es, e.slot.toNat < 1024) → s.sys.mode.isRunLimpWork = true → writeTarget p target = some v → (p.vzf = some v ∨ p.sysPriv = true) →
    (∀ e ∈ es, s.slotPdus v e.slot.toNat 9 ≠ []) → s.vzfActive v = true → es.getLast? = some e →
    Answers (.sigWrite r n target es) r 0x0C03 stat_ok [] s (fun u =>
      u.sig.wrSlots.getD (0, 0) (slotKey v e.slot.toNat) = (e.value.extractLsb' 0 32, e.value.extractLsb' 32 32) ∧
      (∀ k, (∀ e ∈ es, k ≠ slotKey v e.slot.toNat) → u.sig.wrSlots.getD (0, 0) k = s.sig.wrSlots.getD (0, 0) k) ∧
      Frame [.mbx, .log, .vz, .sig] s u)) ∧
  (∀ (s : State) (r : Req) (p : Port) (first : U32) (n : U16), Requested s r p 8 → 1 ≤ n.toNat → n.toNat ≤ 16000 →
    first.toNat + n.toNat ≤ 262144 → s.sys.mode.isRunLimpWork = true → inRange p s.sigOwner first.toNat n.toNat = true →
    Gives (.sigGetStatus r first n) s (fun t => ∃ u data, t = respond r 0x0C04 stat_ok data u ∧
      data.take 16 = n32 ((List.range n.toNat).filter (fun k => (s.sigRun (first.toNat + k)).subst)).length ++ n32 s.sig.dropped
        ++ n32 s.sig.backlogs ++ n32 s.sig.deferrals ∧
      (∀ i, u.sigRun i = if first.toNat ≤ i ∧ i < first.toNat + n.toNat then { s.sigRun i with satRead := false } else s.sigRun i) ∧
      Frame [.sig] s u)) ∧
  (∀ (s : State) (r : Req) (p : Port) (f : PrsFields), Requested s r p (20 + 2 * f.n.toNat) → f.sources.length = f.n.toNat →
    prsFieldStat f = none → s.step13 = true → (s.stream f.stream.toNat).started = false →
    prsStat s p f.stream.toNat (f.sources.map (·.toNat)) (decide (f.dest = 1)) = none →
    Answers (.sigPrsConfig r f) r 0x0C05 stat_ok [] s (fun u => (u.stream f.stream.toNat).config =
        some { sources := f.sources.map (·.toNat), e := f.e.toNat, k := f.k.toNat, i3 := decide (f.dest = 1), capEn := flagOf f.flags 0
               pre := f.pre.toNat, vid := f.vid.toNat, pcp := f.pcp.toNat, mac := f.mac, owner := p.vzf } ∧
      (∀ n, n ≠ f.stream.toNat → u.stream n = s.stream n) ∧ Frame [.sig] s u)) ∧
  (∀ (s : State) (r : Req) (p : Port) (f : PrsFields), Requested s r p (20 + 2 * f.n.toNat) → f.sources.length = f.n.toNat →
    prsFieldStat f = none → s.step13 = true → (s.stream f.stream.toNat).started = true →
    Answers (.sigPrsConfig r f) r 0x0C05 stat_prsRunning [] s (fun u => u = s)) ∧
  (∀ (s : State) (r : Req) (p : Port) (n : Byte) (f : PrsConfig) (per : Nat), Requested s r p 4 → n.toNat ≤ 63 →
    s.sys.mode.isRunLimpWork = true → (s.stream n.toNat).config = some f → (s.stream n.toNat).started = false →
    streamOwned s p n.toNat = true → prsStat s p n.toNat f.sources f.i3 = none → per = prsPeriod (f.sources.getD 0 0) * 2 ^ f.k →
    Answers (.sigPrsStart r n) r 0x0C06 stat_ok (le64 (BitVec.ofNat 64 (s.prsT0 per)) ++ n32 per ++ le32 (s.stream n.toNat).seq) s (fun u =>
      (u.stream n.toNat).started = true ∧ (u.stream n.toNat).t0 = BitVec.ofNat 64 (s.prsT0 per) ∧ (u.stream n.toNat).dropped = 0 ∧
      (u.stream n.toNat).seq = (s.stream n.toNat).seq ∧ (∀ m, m ≠ n.toNat → u.stream m = s.stream m) ∧ Frame [.sig] s u)) ∧
  (∀ (s : State) (r : Req) (p : Port) (n : Byte), Requested s r p 4 → n.toNat ≤ 63 → s.sys.mode.isRunLimpWork = true →
    (s.stream n.toNat).started = true → streamOwned s p n.toNat = true →
    Answers (.sigPrsStop r n) r 0x0C07 stat_ok (le32 (s.stream n.toNat).lastSent ++ n32 (s.stream n.toNat).dropped) s (fun u =>
      (u.stream n.toNat).started = false ∧ u.engineBuf (n.toNat % 4) = (s.engineBuf (n.toNat % 4)).filter (fun b => b.stream ≠ n.toNat) ∧
      (∀ m, m ≠ n.toNat → u.stream m = s.stream m) ∧ Frame [.sig] s u)) ∧
  (∀ (s : State) (r : Req) (p : Port) (src id : U16) (part : Byte) (n k : Nat) (f : PrsConfig), Requested s r p 8 → part.toNat ≤ 3 →
    s.sys.mode.isRunLimpWork = true → prsSource src.toNat = true → s.prsOwned p src.toNat = true →
    s.sig.streamOf src.toNat = some (n, f) → f.capEn = true → s.sig.capturing src.toNat = false → s.sig.freeCapture (n % 4) = some k →
    Answers (.sigCapture r 0 src id part) r 0x0C08 stat_ok (n16 k) s (fun u => (∃ c, u.sig.captures.get? k = some c ∧
      c.source = src.toNat ∧ c.stream = n ∧ c.at_ = s.tb.count ∧ c.pre = f.pre ∧ c.complete = false) ∧
      (∀ j, j ≠ k → u.sig.captures.get? j = s.sig.captures.get? j) ∧ Frame [.sig, .free] s u)) ∧
  (∀ (s : State) (r : Req) (p : Port) (src id : U16) (part : Byte) (n : Nat) (f : PrsConfig), Requested s r p 8 → part.toNat ≤ 3 →
    s.sys.mode.isRunLimpWork = true → prsSource src.toNat = true → s.prsOwned p src.toNat = true →
    s.sig.streamOf src.toNat = some (n, f) → f.capEn = true → s.sig.capturing src.toNat = false → s.sig.freeCapture (n % 4) = none →
    Answers (.sigCapture r 0 src id part) r 0x0C08 stat_prsNoCapture [] s (fun u => u.sig.captures = s.sig.captures ∧
      u.sig.captureDiscards = s.sig.captureDiscards + 1 ∧ Frame [.mbx, .log, .vz, .sig] s u)) ∧
  (∀ (s : State) (r : Req) (p : Port) (src id : U16) (part : Byte) (c : Capture4k), Requested s r p 8 → part.toNat ≤ 3 →
    s.sys.mode.isRunLimpWork = true → s.sig.captures.get? id.toNat = some c → s.prsOwned p c.source = true → c.complete = true →
    Answers (.sigCapture r 2 src id part) r 0x0C08 stat_ok (n16 id.toNat ++ n16 c.source ++ [byteOf part.toNat, 0, 0, 0]
      ++ le64 (partCount c part.toNat) ++ ((c.samples.drop (1024 * part.toNat)).take 1024).flatMap i16) s (fun u => u = s)) ∧
  (∀ (s : State) (r : Req) (p : Port) (src id : U16) (part : Byte) (c : Capture4k), Requested s r p 8 → part.toNat ≤ 3 →
    s.sys.mode.isRunLimpWork = true → s.sig.captures.get? id.toNat = some c → s.prsOwned p c.source = true →
    Answers (.sigCapture r 3 src id part) r 0x0C08 stat_ok [] s (fun u => u.sig.captures.get? id.toNat = none ∧
      (∀ j, j ≠ id.toNat → u.sig.captures.get? j = s.sig.captures.get? j) ∧ Frame [.sig] s u))

/-- The links and the cycle of the ring (R225, R232, R237, R239 to R246, R250 to R258, R262): a link breaks, is verified and closes; a
reference is followed, ends at the master or is missing; and a local cycle starts. -/
def Obligations.RingLinksAndCyclesAct : Prop :=
  (∀ (port : Fin 2) (s : State), ((s.ring.port port.val).phy = true ∨ (s.ring.port port.val).link ≠ .down) →
    Gives (.ringLinkDown port) s (fun t => (t.ring.port port.val).link = .down ∧ (t.ring.port port.val).phy = false ∧
      (t.ring.port port.val).sak = false ∧ (t.ring.port port.val).broken = true ∧ (t.ring.port port.val).closeAt = 0 ∧
      (t.ring.port (otherPort port.val)).link = (s.ring.port (otherPort port.val)).link ∧
      t.ring.loopBacks = (if (s.ring.port port.val).closed && (s.ring.port (otherPort port.val)).closed then s.ring.loopBacks + 1
        else s.ring.loopBacks) ∧
      Frame [.mbx, .log, .vz, .ring] s t)) ∧
  (∀ (port : Fin 2) (s : State), (s.ring.port port.val).phy = false → (s.ring.port port.val).link = .down →
    exec (.ringLinkDown port) s = .next s) ∧
  (∀ (port : Fin 2) (s : State), s.ring.phase = .active → Gives (.ringPhyTrained port) s (fun t =>
    t.ring = s.ring.modPort port.val (fun x => { x with phy := true }) ∧ Frame [.ring] s t)) ∧
  (∀ (port : Fin 2) (s : State), s.ring.phase ≠ .active → exec (.ringPhyTrained port) s = .next s) ∧
  (∀ (port : Fin 2) (peers : List Byte) (s : State), (s.ring.port port.val).phy = true → (s.ring.port port.val).link = .down →
    Gives (.mkaFrame port peers true) s (fun t => (t.ring.port port.val).peers = peers ∧ (t.ring.port port.val).sak = true ∧
      (t.ring.port port.val).link = .verify ∧ Frame [.ring] s t)) ∧
  (∀ (port : Fin 2) (peers : List Byte) (s : State), (s.ring.port port.val).phy = true →
    Gives (.mkaFrame port peers false) s (fun t => t.ring = s.ring.modPort port.val (fun x => { x with peers := peers }) ∧
      Frame [.ring] s t)) ∧
  (∀ (port : Fin 2) (s : State), (s.ring.port port.val).phy = true → (s.ring.port port.val).sak = false →
    Gives (.ringMacsecTimeout port) s (fun t => (t.ring.port port.val).link = .down ∧ Frame [.mbx, .log, .vz, .ring] s t)) ∧
  (∀ (port : Fin 2) (s : State), (s.ring.port port.val).sak = true → exec (.ringMacsecTimeout port) s = .next s) ∧
  (∀ (h : RingHeader) (f : DelayMeas) (s : State), s.ring.west.sak = true → ringBad { hdr := h, payload := measBytes f } 1 = false →
    f.kind = 0 → s.ring.sectionOk = true → f.sched = s.ringSec.sched → s.basecamp = false →
    Gives (.delayMeasRequest .ok h f) s (fun t => t.ring.west.nbr = some f.station.toNat ∧ t.ring.west.delay = f.lastDelay ∧
      t.ring.west.exchanged = true ∧ t.ring.west.link = s.ring.west.link ∧
      t.ring.west.verify = (if s.ring.west.fails = 0 && s.ring.west.link = .verify then min 16 (s.ring.west.verify + 1)
        else s.ring.west.verify) ∧
      t.ring.west.count.sent = s.ring.west.count.sent + 1 ∧ t.ring.west.count.received = s.ring.west.count.received + 1 ∧
      (∃ a g, t.ring.west.answer = some a ∧ a.kind = 1 ∧ a.station = byteOf s.station ∧ a.sched = s.ringSec.sched ∧
        a.lastDelay = f.lastDelay ∧ t.ring.wire.head? = some (1, g) ∧ g.payload = measBytes a ∧ g.hdr.typ = 2 ∧ g.hdr.wordA = h.wordA ∧
        ringIntact g = true) ∧
      t.ring.east = s.ring.east ∧ Frame [.ring, .free] s t)) ∧
  (∀ (h : RingHeader) (f : DelayMeas) (s : State), s.ring.west.sak = true → ringBad { hdr := h, payload := measBytes f } 1 = true →
    Gives (.delayMeasRequest .ok h f) s (fun t => t.ring.west.count.discarded = s.ring.west.count.discarded + 1 ∧
      t.ring.west.answer = s.ring.west.answer ∧ t.ring.west.delay = s.ring.west.delay ∧ t.ring.wire = s.ring.wire ∧ Frame [.ring] s t)) ∧
  (∀ (l : LinkCheck) (h : RingHeader) (f : DelayMeas) (s : State), s.ring.west.sak = false → exec (.delayMeasRequest l h f) s = .next s) ∧
  (∀ (h : RingHeader) (f : DelayMeas) (rt : U64) (s : State), s.ring.east.sak = true →
    ringBad { hdr := h, payload := measBytes f } 1 = false → f.kind = 1 → s.ring.sectionOk = true → f.sched = s.ringSec.sched →
    s.basecamp = false →
    Gives (.delayMeasResponse .ok h f rt) s (fun t => t.ring.east.nbr = some f.station.toNat ∧
      t.ring.east.delay = BitVec.ofNat 32 ((rt.toNat - f.residence.toNat) / 2) ∧ t.ring.east.exchanged = true ∧
      t.ring.east.closeAt = (if s.ring.east.link = .verify && decide (s.ring.east.closeAt = 0) &&
          decide ((if s.ring.east.fails = 0 then min 16 (s.ring.east.verify + 1) else s.ring.east.verify) = 16) then nzCycle (s.ring.cycle + 2) else s.ring.east.closeAt) ∧
      t.ring.west = s.ring.west ∧ Frame [.ring] s t)) ∧
  (∀ (h : RingHeader) (f : DelayMeas) (rt : U64) (s : State), s.ring.east.sak = true →
    ringBad { hdr := h, payload := measBytes f } 1 = false → f.kind = 1 → s.basecamp = false → f.sched ≠ s.ringSec.sched →
    Gives (.delayMeasResponse .ok h f rt) s (fun t => t.ring.mismatch = true ∧ t.ring.east.verify = 0 ∧ t.ring.east.closeAt = 0 ∧
      t.ring.east.link ≠ .closed ∧ Frame [.mbx, .log, .vz, .ring] s t)) ∧
  (∀ (l : LinkCheck) (h : RingHeader) (f : DelayMeas) (rt : U64) (s : State), s.ring.east.sak = false →
    exec (.delayMeasResponse l h f rt) s = .next s) ∧
  (∀ (port : Fin 2) (s : State), (s.ring.port port.val).link = .verify → (s.ring.port port.val).closeAt ≠ 0 → s.ring.sectionOk = true →
    s.ring.mismatch = false →
    Gives (.linkClose port) s (fun t => (t.ring.port port.val).link = .closed ∧ (t.ring.port port.val).closeAt = 0 ∧
      (t.ring.port port.val).broken = false ∧ t.ring.settling = 8 ∧ t.ring.east.delay = 0 ∧ t.ring.west.delay = 0 ∧
      (t.ring.port (otherPort port.val)).link = (s.ring.port (otherPort port.val)).link ∧ Frame [.mbx, .log, .vz, .ring] s t)) ∧
  (∀ (port : Fin 2) (s : State), (s.ring.port port.val).link ≠ .verify → exec (.linkClose port) s = .next s) ∧
  (∀ (port : Fin 2) (l : LinkCheck) (h : RingHeader) (f : SyncRef) (res : U32) (s : State), s.ring.phase ≠ .active →
    exec (.syncRefReceived port l h f res) s = .next s) ∧
  (∀ (port : Fin 2) (l : LinkCheck) (h : RingHeader) (f : SyncRef) (res : U32) (s : State), s.ring.phase = .active → l ≠ .ok →
    (s.ring.port port.val).fails < 15 →
    Gives (.syncRefReceived port l h f res) s (fun t => (t.ring.port port.val).fails = (s.ring.port port.val).fails + 1 ∧
      (t.ring.port port.val).link = (s.ring.port port.val).link ∧ t.ring.wire = s.ring.wire ∧ t.ring.cycle = s.ring.cycle ∧
      Frame [.ring] s t)) ∧
  (∀ (port : Fin 2) (l : LinkCheck) (h : RingHeader) (f : SyncRef) (res : U32) (s : State), s.ring.phase = .active → l ≠ .ok →
    15 ≤ (s.ring.port port.val).fails → (s.ring.port port.val).link ≠ .down →
    Gives (.syncRefReceived port l h f res) s (fun t => (t.ring.port port.val).link = .down ∧ (t.ring.port port.val).broken = true ∧
      t.ring.wire = s.ring.wire ∧ Frame [.mbx, .log, .vz, .ring] s t)) ∧
  (∀ (port : Fin 2) (h : RingHeader) (f : SyncRef) (res : U32) (s : State), s.ring.phase = .active →
    ringBad { hdr := h, payload := syncBytes f } 0 = true →
    Gives (.syncRefReceived port .ok h f res) s (fun t =>
      (t.ring.port port.val).count.discarded = (s.ring.port port.val).count.discarded + 1 ∧ t.ring.wire = s.ring.wire ∧
      t.ring.cycle = s.ring.cycle ∧ Frame [.ring] s t)) ∧
  (∀ (port : Fin 2) (h : RingHeader) (f : SyncRef) (res : U32) (s : State), s.canJoin = true →
    ringBad { hdr := h, payload := syncBytes f } 0 = false → (s.ring.port port.val).closed = true → h.wordA = s.ringSec.sched → s.ring.master = false →
    ¬(s.ring.joined = true ∧ s.ring.refHere = true ∧ h.origin = s.ring.cycle) →
    Gives (.syncRefReceived port .ok h f res) s (fun t => t.ring.joined = true ∧ t.ring.cycle = h.origin ∧ t.ring.refHere = true ∧
      t.ring.missing = 0 ∧ t.ring.rank = bits h.wordB 8 2 ∧ t.ring.masterStn = bits h.wordB 0 8 ∧ t.ring.inPort = port.val ∧
      t.ring.sleepAt = f.sleepAt ∧ t.ring.handoverAt = f.handoverAt ∧ t.ring.heard = true ∧ t.sys.wakeReq = false ∧
      t.ring.last.path = f.path.set (h.hops.toNat + 1) (byteOf s.station) ∧
      (∃ o turned, s.ring.outPort port.val = some (o, turned) ∧
        t.ring.wire.head? = some (o, passed { hdr := h, payload := syncBytes t.ring.last } turned)) ∧
      Frame [.sys, .mbx, .log, .tb, .vz, .ring, .free] s t)) ∧
  (∀ (port : Fin 2) (h : RingHeader) (f : SyncRef) (res : U32) (s : State), s.canJoin = true →
    ringBad { hdr := h, payload := syncBytes f } 0 = false → (s.ring.port port.val).closed = true → h.wordA = s.ringSec.sched → s.ring.master = true → bits h.wordB 0 8 = s.station →
    s.waveEnds port.val = true →
    Gives (.syncRefReceived port .ok h f res) s (fun t => t.ring.master = true ∧ t.ring.heard = true ∧ t.ring.wire = s.ring.wire ∧
      t.ring.last.path = f.path ∧ t.ring.equalRefs = (if f.consent = f.present then s.ring.equalRefs + 1 else 0) ∧
      Frame [.mbx, .log, .tb, .vz, .ring, .free] s t)) ∧
  (∀ (port : Fin 2) (h : RingHeader) (f : SyncRef) (res : U32) (o : Nat) (turned : Bool) (s : State), s.canJoin = true →
    ringBad { hdr := h, payload := syncBytes f } 0 = false → (s.ring.port port.val).closed = true → h.wordA = s.ringSec.sched →
    s.ring.master = true → bits h.wordB 0 8 = s.station → s.waveEnds port.val = false → s.ring.outPort port.val = some (o, turned) →
    Gives (.syncRefReceived port .ok h f res) s (fun t => t.ring.wire.head? = some (o, passed
        { hdr := h, payload := syncBytes (s.refOut h f (s.ring.port port.val).delay res) } turned) ∧
      t.ring.cycle = s.ring.cycle ∧ t.ring.equalRefs = s.ring.equalRefs ∧ Frame [.ring] s t)) ∧
  (∀ (port : Fin 2) (h : RingHeader) (f : SyncRef) (res : U32) (s : State), s.canJoin = true →
    ringBad { hdr := h, payload := syncBytes f } 0 = false → (s.ring.port port.val).closed = true → h.wordA = s.ringSec.sched → s.ring.master = true → bits h.wordB 0 8 ≠ s.station →
    bits h.wordB 8 2 < s.ring.rank →
    Gives (.syncRefReceived port .ok h f res) s (fun t => t.ring.yieldNext = true ∧ t.ring.wire = s.ring.wire ∧ Frame [.ring] s t)) ∧
  (∀ (port : Fin 2) (h : RingHeader) (f : SyncRef) (res : U32) (s : State), s.ring.phase = .active →
    ringBad { hdr := h, payload := syncBytes f } 0 = false →
    (s.ring.port port.val).closed = true → s.basecamp = false → h.wordA ≠ s.ringSec.sched →
    Gives (.syncRefReceived port .ok h f res) s (fun t => t.ring.mismatch = true ∧ (t.ring.port port.val).link = .verify ∧
      t.ring.cycle = s.ring.cycle ∧ Frame [.mbx, .log, .vz, .ring] s t)) ∧
  (∀ (port : Fin 2) (h : RingHeader) (f : SyncRef) (res : U32) (s : State), s.ring.phase = .active →
    ringBad { hdr := h, payload := syncBytes f } 0 = false →
    (s.ring.port port.val).closed = true → s.basecamp = true →
    Gives (.syncRefReceived port .ok h f res) s (fun t => t.ring.cycle = h.origin ∧ t.ring.heard = true ∧ t.ring.joined = s.ring.joined ∧
      t.mbx = s.mbx.modify 0 (fun x => { x with tRtx := (32 * f.tRc.toNat + 999) / 1000 + 5000 }) ∧ Frame [.mbx, .ring] s t)) ∧
  (∀ (s : State), (s.canJoin = false ∨ s.ring.master = true) → exec .syncRefMissing s = .next s) ∧
  (∀ (s : State), s.canJoin = true → s.ring.master = false → (s.ownRank = none ∨ s.ownRank = some 0) →
    Gives .syncRefMissing s (fun t => t.ring = { s.ring with missing := s.ring.missing + 1 } ∧ Frame [.mbx, .log, .vz, .ring] s t)) ∧
  (∀ (k : Nat) (s : State), s.canJoin = true → s.ring.master = false → s.ownRank = some k → 1 ≤ k → s.ring.missing + 1 = 2 * k →
    (s.ring.east.closed = true ∨ s.ring.west.closed = true) →
    Gives .syncRefMissing s (fun t => t.ring.master = true ∧ t.ring.joined = true ∧ t.ring.rank = k ∧ t.ring.masterStn = s.station ∧
      t.ring.missing = 0 ∧ Frame [.sys, .mbx, .log, .tb, .vz, .ring] s t)) ∧
  (∀ (s : State), s.ring.handoverAt = 0 → exec .masterHandover s = .next s) ∧
  (∀ (s : State), s.canJoin = true → s.ring.joined = true → s.ring.handoverAt ≠ 0 → s.ring.master = true →
    Gives .masterHandover s (fun t => t.ring.master = false ∧ t.ring.handoverAt = 0 ∧ t.ring.relayQ = [] ∧ t.ring.slotBuf = .empty ∧
      Frame [.ring] s t)) ∧
  (∀ (k : Nat) (s : State), s.canJoin = true → s.ring.joined = true → s.ring.handoverAt ≠ 0 → s.ring.master = false →
    s.ownRank = some k → k < s.ring.rank →
    Gives .masterHandover s (fun t => t.ring.master = true ∧ t.ring.rank = k ∧ t.ring.masterStn = s.station ∧
      Frame [.mbx, .log, .vz, .ring] s t)) ∧
  (∀ (s : State), s.ring.phase ≠ .active → GivesEval .localCycleStart s (fun u => ∃ w, u = ageStep w ∧
    w.twin = { s.twin with mirrorAge := satInc 255 s.twin.mirrorAge } ∧ Frame [.twin] s w)) ∧
  (∀ (s : State), s.ring.phase = .active → s.ring.master = false → s.formsRing = false →
    Gives .localCycleStart s (fun t => t.ring.cycle = (if s.ring.refHere then s.ring.cycle else s.ring.cycle + 1) ∧
      t.ring.refHere = false ∧ t.ring.spent = 0 ∧ t.ring.settling = s.ring.settling - 1 ∧ t.ring.master = false ∧
      t.ring.joined = s.ring.joined ∧ t.ring.relayQ = s.ring.relayQ.map (fun x => { x with waited := x.waited + 1 }) ∧
      t.ring.west = endExchange s.ring.west ∧ t.ring.east.fails = 0 ∧ t.ring.east.verify = (endExchange s.ring.east).verify)) ∧
  (∀ (s : State), s.ring.phase = .active → s.formsRing = true →
    Gives .localCycleStart s (fun t => t.ring.master = true ∧ t.ring.joined = true ∧ t.ring.rank = 0 ∧ t.ring.masterStn = s.station)) ∧
  (∀ (s : State), s.ring.phase = .active → s.ring.joined = true → s.ring.master = true → s.ring.yieldNext = true →
    Gives .localCycleStart s (fun t => t.ring.master = false ∧ t.ring.yieldNext = false ∧ t.ring.spent = 0))

/-- Frames on the ring (R225 to R227, R230, R237 to R240, R247 to R249): a good frame of a slot in the receive set is copied once, frames are
passed on, marked, buffered or relayed, an owned slot carries the station's frame, and own dynamic frames spend the station's credits. -/
def Obligations.RingFramesAct : Prop :=
  (∀ (port : Fin 2) (l : LinkCheck) (f : RingFrame) (s : State), s.ring.phase ≠ .active →
    exec (.staticFrameReceived port l f) s = .next s ∧ exec (.dynamicFrameReceived port l (some f)) s = .next s ∧
    exec (.dynamicFrameReceived port l none) s = .next s) ∧
  (∀ (port : Fin 2) (f : RingFrame) (s : State), s.ring.phase = .active → ringBad f 2 = true →
    Gives (.staticFrameReceived port .ok f) s (fun t =>
      (t.ring.port port.val).count.discarded = (s.ring.port port.val).count.discarded + 1 ∧ t.ring.slots = s.ring.slots ∧
      t.ring.wire = s.ring.wire ∧ Frame [.ring] s t)) ∧
  (∀ (port : Fin 2) (f : RingFrame) (s : State), s.ring.phase = .active → s.basecamp = false → ringBad f 2 = false →
    (s.ring.port port.val).closed = true → s.ring.joined = true → (s.ringSec.slots.getD .none f.hdr.slot.toNat).rx = true →
    (s.ringSec.slots.getD .none f.hdr.slot.toNat).ftype = f.hdr.typ.val → hdrFlag f.hdr 7 = false →
    ((s.ring.slots.getD .reset f.hdr.slot.toNat).never = true ∨
      later f.hdr.origin (s.ring.slots.getD .reset f.hdr.slot.toNat).origin = true) →
    Gives (.staticFrameReceived port .ok f) s (fun t => t.ring.slots.getD .reset f.hdr.slot.toNat =
        { s.ring.slots.getD .reset f.hdr.slot.toNat with
          notReady := false, relayed := hdrFlag f.hdr 6, never := false, origin := f.hdr.origin, fresh := true, stale := false
          wordA := f.hdr.wordA, payload := f.payload } ∧
      ∀ k, k ≠ f.hdr.slot.toNat → t.ring.slots.getD .reset k = s.ring.slots.getD .reset k)) ∧
  (∀ (port : Fin 2) (f : RingFrame) (o : Nat) (turned : Bool) (s : State), s.ring.phase = .active → s.basecamp = false →
    ringBad f 2 = false → (s.ring.port port.val).closed = true → (s.ringSec.slots.getD .none f.hdr.slot.toNat).rx = false →
    s.waveEnds port.val = false → (srcStation f ≠ s.station ∨ hdrFlag f.hdr 6 = false) → s.ring.outPort port.val = some (o, turned) →
    Gives (.staticFrameReceived port .ok f) s (fun t => t.ring.wire.head? = some (o, passed f turned) ∧ t.ring.slots = s.ring.slots ∧
      t.ring.slotBuf = s.ring.slotBuf ∧ Frame [.ring] s t)) ∧
  (∀ (port : Fin 2) (f : RingFrame) (s : State), s.ring.phase = .active → s.basecamp = false → ringBad f 2 = false →
    (s.ring.port port.val).closed = true → (s.ring.slots.getD .reset f.hdr.slot.toNat).never = false →
    later f.hdr.origin (s.ring.slots.getD .reset f.hdr.slot.toNat).origin = false →
    Gives (.staticFrameReceived port .ok f) s (fun t => t.ring.slots = s.ring.slots ∧ Frame [.ring] s t)) ∧
  (∀ (port : Fin 2) (f : RingFrame) (o : Nat) (turned : Bool) (s : State), s.ring.phase = .active → s.basecamp = true →
    ringBad f 2 = false → (s.ring.port port.val).closed = true → s.ring.master = false → srcStation f ≠ s.station →
    s.ring.outPort port.val = some (o, turned) →
    Gives (.staticFrameReceived port .ok f) s (fun t => t.ring.wire.head? = some (o, passed f turned) ∧ t.ring.slots = s.ring.slots ∧
      Frame [.ring] s t)) ∧
  (∀ (port : Fin 2) (f : RingFrame) (s : State), s.ring.phase = .active → s.basecamp = false → ringBad f 2 = false →
    (s.ring.port port.val).closed = true → (s.ringSec.slots.getD .none f.hdr.slot.toNat).rx = false → s.waveEnds port.val = true →
    srcStation f ≠ s.station → hdrFlag f.hdr 6 = false →
    Gives (.staticFrameReceived port .ok f) s (fun t => t.ring.slotBuf.get? f.hdr.slot.toNat = some f ∧ t.ring.wire = s.ring.wire ∧
      Frame [.ring] s t)) ∧
  (∀ (port : Fin 2) (f : RingFrame) (o : Nat) (turned : Bool) (s : State), s.ring.phase = .active → s.basecamp = false →
    ringBad f 3 = false → (s.ring.port port.val).closed = true → f.hdr.typ.val = 9 → s.waveEnds port.val = false →
    srcStation f ≠ s.station → s.ring.outPort port.val = some (o, turned) →
    Gives (.dynamicFrameReceived port .ok (some f)) s (fun t => t.ring.wire.head? = some (o, passed (if s.isDest f then
        { f with hdr := { f.hdr with flags := setFlag f.hdr.flags 4 } } else f) turned) ∧ Frame [.ring] s t)) ∧
  (∀ (port : Fin 2) (f : RingFrame) (s : State), s.ring.phase = .active → s.basecamp = false → ringBad f 3 = false →
    (s.ring.port port.val).closed = true → f.hdr.typ.val = 9 → s.waveEnds port.val = true → s.isDest f = false →
    srcStation f ≠ s.station → hdrFlag f.hdr 6 = false → hdrFlag f.hdr 4 = false → s.ring.relayBytes + frameSize f ≤ 65536 →
    Gives (.dynamicFrameReceived port .ok (some f)) s (fun t => t.ring.relayQ = s.ring.relayQ ++ [{ frame := f, waited := 0 }] ∧
      t.ring.wire = s.ring.wire ∧ Frame [.ring] s t)) ∧
  (∀ (port : Fin 2) (l : LinkCheck) (f : RingFrame) (o : Nat) (turned : Bool) (s : State), s.canJoin = true → s.ring.joined = true →
    (s.ring.port port.val).closed = true → s.ring.master = false → s.ring.inPort = port.val → s.vz.vzfs.cells = [] → s.mbxWaiting = [] →
    s.ring.dynOut = [(257, f)] → minislots f ≤ s.credits → s.ring.outPort s.ring.inPort = some (o, turned) →
    Gives (.dynamicFrameReceived port l none) s (fun t => t.ring.dynOut = [] ∧ t.ring.spent = s.ring.spent + minislots f ∧
      (∃ g, t.ring.wire.head? = some (o, g) ∧ g.payload = f.payload ∧ g.hdr.origin = s.ring.cycle) ∧ Frame [.ring] s t)) ∧
  (∀ (port : Fin 2) (l : LinkCheck) (s : State), s.ring.phase = .active →
    ((s.ring.port port.val).closed = false ∨ s.ring.master = true ∨ s.ring.inPort ≠ port.val) →
    exec (.dynamicFrameReceived port l none) s = .next s) ∧
  (∀ (port : Fin 2) (l : LinkCheck) (f : RingFrame) (s : State), s.canJoin = true → s.ring.joined = true →
    (s.ring.port port.val).closed = true → s.ring.master = false → s.vz.vzfs.cells = [] → s.mbxWaiting = [] → s.ring.dynOut = [(257, f)] →
    s.credits < minislots f → exec (.dynamicFrameReceived port l none) s = .next s) ∧
  (∀ (k : Fin 384) (s : State), s.ring.joined = false → s.basecamp = false → exec (.slotDue k) s = .next s) ∧
  (∀ (k : Fin 384) (s : State), s.basecamp = true → k.val ≠ 4 → exec (.slotDue k) s = .next s) ∧
  (∀ (n o : Nat) (turned : Bool) (l : List (List Byte)) (s : State), s.basecamp = true → s.ring.phase = .active → s.ring.heard = true →
    s.slotOwner 4 = s.station → s.mbxWaiting.find? (fun n => decide (n = 0)) = some n →
    l = mbxTake (((s.port? n).map (·.outq)).getD []) → s.ring.outPort s.ring.inPort = some (o, turned) →
    Gives (.slotDue 4) s (fun t => (∃ g, t.ring.wire.head? = some (o, g) ∧ g.payload = l.flatten ∧ g.hdr.typ = 5 ∧ g.hdr.slot = 4) ∧
      (∀ p, s.port? n = some p → t.port? n = some { p with outq := p.outq.drop l.length }) ∧ Frame [.mbx, .ring] s t)) ∧
  (∀ (k : Fin 384) (n o : Nat) (turned : Bool) (l : List (List Byte)) (s : State), s.ring.joined = true → s.canJoin = true →
    k.val < s.ringSec.nS → (s.ringSec.slots.getD .none k.val).rx = false → (s.ringSec.slots.getD .none k.val).ftype = 5 →
    s.slotOwner k.val = s.station → s.sys.proven = true →
    s.mbxWaiting.find? (fun n => decide (k.val = 4) == decide (n = 0)) = some n →
    l = mbxTake (((s.port? n).map (·.outq)).getD []) → s.ring.outPort s.ring.inPort = some (o, turned) →
    Gives (.slotDue k) s (fun t => (∃ g, t.ring.wire.head? = some (o, g) ∧ g.payload = l.flatten ∧ g.hdr.typ = 5 ∧
        g.hdr.wordA = BitVec.ofNat 32 n ∧ hdrFlag g.hdr 7 = false) ∧
      (∀ p, s.port? n = some p → t.port? n = some { p with outq := p.outq.drop l.length }) ∧ Frame [.mbx, .ring] s t)) ∧
  (∀ (k : Fin 384) (s : State), s.ring.joined = true → s.canJoin = true → k.val < s.ringSec.nS →
    (s.ringSec.slots.getD .none k.val).rx = true →
    Gives (.slotDue k) s (fun t => (t.ring.slots.getD .reset k.val).age = (if (s.ring.slots.getD .reset k.val).fresh then 0
        else satInc 255 (s.ring.slots.getD .reset k.val).age) ∧ (t.ring.slots.getD .reset k.val).fresh = false ∧
      (∀ j, j ≠ k.val → t.ring.slots.getD .reset j = s.ring.slots.getD .reset j) ∧
      Frame [.mbx, .log, .vz, .ch, .twin, .ring, .sig] s t)) ∧
  (∀ (k : Fin 384) (o : Nat) (turned : Bool) (s : State), s.ring.joined = true → s.canJoin = true → k.val < s.ringSec.nS →
    (s.ringSec.slots.getD .none k.val).rx = false → (s.ringSec.slots.getD .none k.val).ftype = 3 → s.slotOwner k.val = s.station →
    s.sys.proven = true → (s.ring.own.getD .reset k.val).notReady = false → s.ring.outPort s.ring.inPort = some (o, turned) →
    Gives (.slotDue k) s (fun t => (∃ f, t.ring.wire.head? = some (o, f) ∧ f.payload = (s.ring.own.getD .reset k.val).payload ∧
      f.hdr.slot = BitVec.ofNat 16 k.val ∧ f.hdr.origin = s.ring.cycle ∧ f.hdr.src = s.nodeId 0 ∧
      f.hdr.wordA = BitVec.ofNat 32 (s.ringSec.slots.getD .none k.val).arg ∧ hdrFlag f.hdr 7 = false) ∧ Frame [.ring] s t)) ∧
  (∀ (k : Fin 384) (f : RingFrame) (o : Nat) (turned : Bool) (s : State), s.ring.joined = true → s.canJoin = true →
    k.val < s.ringSec.nS → (s.ringSec.slots.getD .none k.val).rx = false → s.slotOwner k.val ≠ s.station → s.ring.master = true →
    s.ring.slotBuf.get? k.val = some f → s.ring.outPort s.ring.inPort = some (o, turned) →
    Gives (.slotDue k) s (fun t => t.ring.slotBuf.get? k.val = none ∧ (∃ g, t.ring.wire.head? = some (o, g) ∧ g.payload = f.payload ∧
      g.hdr.origin = f.hdr.origin ∧ hdrFlag g.hdr 6 = true) ∧ Frame [.ring] s t)) ∧
  (∀ (s : State), (∀ x ∈ s.ring.relayQ, x.waited < 4) → exec .relayQueueTimeout s = .next s) ∧
  (∀ (s : State), (∃ x ∈ s.ring.relayQ, 4 ≤ x.waited) → Gives .relayQueueTimeout s (fun t =>
    t.ring.relayQ = s.ring.relayQ.filter (fun x => x.waited < 4) ∧
    t.ring.relayDrops = s.ring.relayDrops + (s.ring.relayQ.filter (fun x => decide (4 ≤ x.waited))).length ∧
    Frame [.mbx, .log, .vz, .ring] s t)) ∧
  (∀ (port : Fin 2) (l : LinkCheck) (f : RingFrame) (busy : Bool) (s : State),
    (s.ring.phase ≠ .active ∨ (s.ring.port port.val).closed = false) → exec (.secondaryFrameReceived port l f busy) s = .next s) ∧
  (∀ (port : Fin 2) (f : RingFrame) (s : State), s.ring.phase = .active → (s.ring.port port.val).closed = true →
    ringBad f 4 = false → ¬(f.hdr.dst.extractLsb' 14 2 = 0 ∧ (f.hdr.dst.extractLsb' 9 5).toNat = s.station) →
    srcStation f ≠ s.station → framesSize s.ring.secBuf + frameSize f ≤ 2048 →
    Gives (.secondaryFrameReceived port .ok f true) s (fun t => t.ring.secBuf = s.ring.secBuf ++ [f] ∧ t.ring.wire = s.ring.wire ∧
      Frame [.ring] s t)) ∧
  (∀ (port : Fin 2) (f : RingFrame) (s : State), s.ring.phase = .active → (s.ring.port port.val).closed = true →
    ringBad f 4 = false → ¬(f.hdr.dst.extractLsb' 14 2 = 0 ∧ (f.hdr.dst.extractLsb' 9 5).toNat = s.station) →
    srcStation f ≠ s.station → 2048 < framesSize s.ring.secBuf + frameSize f →
    Gives (.secondaryFrameReceived port .ok f true) s (fun t => t.ring.secBuf = s.ring.secBuf ∧ t.ring.wire = s.ring.wire ∧
      (t.ring.port port.val).count.secDrop = (s.ring.port port.val).count.secDrop + 1 ∧ Frame [.ring] s t)) ∧
  (∀ (port : Fin 2) (f : RingFrame) (o : Nat) (turned : Bool) (s : State), s.ring.phase = .active →
    (s.ring.port port.val).closed = true → ringBad f 4 = false →
    ¬(f.hdr.dst.extractLsb' 14 2 = 0 ∧ (f.hdr.dst.extractLsb' 9 5).toNat = s.station) → srcStation f ≠ s.station →
    s.ring.secBuf = [] → s.ring.secOut = [] → s.ring.outPort port.val = some (o, turned) →
    Gives (.secondaryFrameReceived port .ok f false) s (fun t => t.ring.wire.head? = some (o, passed f turned) ∧ t.ring.secBuf = [] ∧
      Frame [.ring] s t)) ∧
  (∀ (port : Fin 2) (l : LinkCheck) (f : RingFrame) (g : Option RingFrame) (busy : Bool) (k : Fin 384) (s : State),
    Gives (.staticFrameReceived port l f) s (fun t => Frame [.sys, .mbx, .log, .tb, .vz, .cfg, .ch, .rfx, .twin, .brg, .fio, .ring, .esw, .net,
      .sig, .upd, .bus] s t) ∧
    Gives (.dynamicFrameReceived port l g) s (fun t => Frame [.sys, .mbx, .log, .tb, .vz, .cfg, .ch, .rfx, .twin, .brg, .fio, .ring, .esw, .net,
      .sig, .upd, .bus] s t) ∧
    Gives (.slotDue k) s (fun t => Frame [.mbx, .log, .vz, .ch, .twin, .ring, .sig] s t) ∧
    Gives .relayQueueTimeout s (fun t => Frame [.mbx, .log, .vz, .ring] s t) ∧
    Gives (.secondaryFrameReceived port l f busy) s (fun t => Frame [.mbx, .log, .vz, .ring] s t))

/-- The RING commands (R10, R169, R258, R265, Tables 9.13 to 9.15): what they read, and the sleep consent. -/
def Obligations.RingCommandsAct : Prop :=
  (∀ (s : State) (r : Req) (p : Port), Requested s r p 0 → s.sys.mode.isServing = true →
    Answers (.ringGetStatus r) r 0x0701 stat_ok s.ringStatus s (fun u => u = s)) ∧
  (∀ (s : State) (r : Req) (p : Port), Requested s r p 0 → s.sys.mode.isServing = true → s.ring.joined = true →
    Answers (.ringTopology r) r 0x0702 stat_ok s.topology s (fun u => u = s)) ∧
  (∀ (s : State) (r : Req) (p : Port), Requested s r p 0 → s.sys.mode.isServing = true → s.ring.joined = false →
    Answers (.ringTopology r) r 0x0702 stat_ringNotJoined [] s (fun u => u = s) ∧
    Answers (.ringDelays r) r 0x0704 stat_ringNotJoined [] s (fun u => u = s)) ∧
  (∀ (s : State) (r : Req) (p : Port) (first n : U16), Requested s r p 4 → s.sys.mode.isServing = true → s.ring.joined = true →
    1 ≤ n.toNat → first.toNat + n.toNat ≤ 384 → Answers (.ringSlotAge r first n) r 0x0703 stat_ok
      ((List.range n.toNat).flatMap (fun j => s.slotAgeBytes (first.toNat + j))) s (fun u => u = s)) ∧
  (∀ (s : State) (r : Req) (p : Port) (first n : U16), Requested s r p 4 → 384 < first.toNat + n.toNat →
    Answers (.ringSlotAge r first n) r 0x0703 stat_range [] s (fun u => u = s)) ∧
  (∀ (s : State) (r : Req) (p : Port), Requested s r p 0 → s.sys.mode.isServing = true → s.ring.joined = true →
    Answers (.ringDelays r) r 0x0704 stat_ok s.delayBytes s (fun u => u = s)) ∧
  (∀ (s : State) (r : Req) (p : Port), Requested s r p 4 → p.sysPriv = true → s.sys.mode = .run → s.sleepAllowed = true →
    Gives (.ringSleepConsent r 1) s (fun t => ∃ u, t = respond r 0x0705 stat_ok (le32 u.consentField ++ le32 s.ring.sleepAt) u ∧
      u.ring = { s.ring with consentCmd := true } ∧ Frame [.ring] s u)) ∧
  (∀ (s : State) (r : Req) (p : Port), Requested s r p 4 → p.sysPriv = true → s.sys.mode = .run → s.sleepAllowed = false →
    Answers (.ringSleepConsent r 1) r 0x0705 stat_badState [] s (fun u => u = s)) ∧
  (∀ (s : State) (r : Req) (p : Port), Requested s r p 4 → p.sysPriv = true → s.sys.mode = .run → s.ring.sleepAt ≠ 0 →
    (s.ring.sleepAt - s.ring.cycle).toNat ≤ 2 → Answers (.ringSleepConsent r 0) r 0x0705 stat_ringSleepLate [] s (fun u => u = s)) ∧
  (∀ (s : State) (r : Req) (p : Port), Requested s r p 4 → p.sysPriv = true → s.sys.mode = .run → s.ring.sleepAt = 0 →
    Gives (.ringSleepConsent r 0) s (fun t => ∃ u, t = respond r 0x0705 stat_ok (le32 u.consentField ++ le32 0) u ∧
      u.ring = { s.ring with consentCmd := false } ∧ Frame [.ring] s u)) ∧
  (∀ (s : State) (r : Req) (p : Port) (clear : Byte), Requested s r p 4 → s.sys.mode.isServing = true → clear.toNat ≤ 1 →
    Answers (.ringStats r clear) r 0x0706 stat_ok (s.ring.east.count.bytes ++ s.ring.west.count.bytes ++ n32 s.ring.loopBacks
      ++ n32 s.ring.heals ++ n32 s.ring.relayDrops) s (fun u => Frame [.ring] s u ∧ u.ring.heals = (if clear = 1 then 0 else s.ring.heals) ∧
        u.ring.east.count = (if clear = 1 then .zero else s.ring.east.count) ∧
        u.ring.west.count = (if clear = 1 then .zero else s.ring.west.count) ∧ u.ring.cycle = s.ring.cycle))

/-- The switch at its events (R269 to R281, R283 to R286, R288 to R290, R292): a frame is dropped for its cause or takes its cells, waits and
leaves, cells cross the crossbar planes to their egress ports, are scrubbed, audited and retired, links and gates change, and the doorbells
move their queue pairs. That a plane has moved every waiting cell before a frame leaves is the model's choice (log entry 140). -/
def Obligations.SwitchEventsAct : Prop :=
  (∀ (p : Fin 21) (ck : PortCheck) (f : EthFrame) (st : Fin 32) (rv : List Rival) (s : State),
    (s.eswOn = false ∨ (s.swp p.val).rec_.en = false ∨ p.val = portI0 ∨ p.val = portI1) → exec (.frameIngress p ck f st rv) s = .next s) ∧
  (∀ (p : Fin 21) (f : EthFrame) (st : Fin 32) (rv : List Rival) (s : State), s.eswOn = true → (s.swp p.val).rec_.en = true → p.val ≤ 16 →
    (s.swp p.val).holds f = false → (s.swp p.val).rec_.macsec = false → 2000 < ethLen f →
    Gives (.frameIngress p .plain f st rv) s (fun t => t.esw.stored = s.esw.stored ∧ t.esw.stats.oversize = s.esw.stats.oversize + 1 ∧
      (t.swp p.val).count.rx = (s.swp p.val).count.rx + 1 ∧ (t.swp p.val).count.drops = (s.swp p.val).count.drops + 1 ∧
      t.esw.free = s.esw.free ∧ Frame [.esw] s t)) ∧
  (∀ (p : Fin 21) (f : EthFrame) (st : Fin 32) (rv : List Rival) (s : State), s.eswOn = true → (s.swp p.val).rec_.en = true →
    isP p.val = true → (s.swp p.val).holds f = false → (s.swp p.val).rec_.macsec = true →
    Gives (.frameIngress p .plain f st rv) s (fun t => t.esw.stored = s.esw.stored ∧ t.esw.fdb = s.esw.fdb ∧
      (t.swp p.val).count.macsec = (s.swp p.val).count.macsec + 1 ∧ Frame [.esw] s t)) ∧
  (∀ (p : Fin 21) (f : EthFrame) (st : Fin 32) (l : List EgressCopy) (fl : Bool) (k n : Nat) (s : State), s.eswOn = true →
    (s.swp p.val).rec_.en = true → p.val ≤ 16 → (s.swp p.val).holds f = false → (s.swp p.val).rec_.macsec = false →
    (s.swp p.val).rec_.learn = false → (s.swp p.val).rec_.inFilter = false → ethLen f ≤ 2000 → s.esw.filters.cells = [] →
    1 ≤ frameVid (s.swp p.val).rec_ f → frameVid (s.swp p.val).rec_ f ≤ 4094 →
    s.route p.val (frameVid (s.swp p.val).rec_ f) f.dst = (l, fl) → l ≠ [] → (∀ c ∈ l, s.copyLive c = true) →
    k = (s.swp p.val).rec_.potMap.getD (frameClass (s.swp p.val).rec_ f) 0 % 64 → n = (ethLen f + 63) / 64 →
    (s.pot k).used + n ≤ (s.pot k).rec_.max → (s.pot k).desc + l.length ≤ (s.pot k).rec_.maxDesc → l.length ≤ s.esw.descFree →
    n ≤ s.esw.free → n - (s.pot k).fromReserve n ≤ s.esw.sharedFree →
    Gives (.frameIngress p .plain f st []) s (fun t => (∃ x, t.esw.stored = s.esw.stored ++ [x] ∧ x.frame = f ∧
        x.copies = l.map (fun c => { c with left := n }) ∧ x.cells = n ∧
        x.pot = k ∧ x.ingress = p.val) ∧ t.esw.free = s.esw.free - n ∧ t.esw.descFree = s.esw.descFree - l.length ∧
      (t.pot k).used = (s.pot k).used + n ∧ t.esw.stats.switched = s.esw.stats.switched + 1 ∧ Frame [.esw] s t)) ∧
  (∀ (p : Fin 21) (f : EthFrame) (st : Fin 32) (l : List EgressCopy) (fl : Bool) (k : Nat) (s : State), s.eswOn = true →
    (s.swp p.val).rec_.en = true → p.val ≤ 16 → (s.swp p.val).holds f = false → (s.swp p.val).rec_.macsec = false →
    (s.swp p.val).rec_.learn = false → (s.swp p.val).rec_.inFilter = false → ethLen f ≤ 2000 → s.esw.filters.cells = [] →
    1 ≤ frameVid (s.swp p.val).rec_ f → frameVid (s.swp p.val).rec_ f ≤ 4094 →
    s.route p.val (frameVid (s.swp p.val).rec_ f) f.dst = (l, fl) → l ≠ [] → (∀ c ∈ l, s.copyLive c = true) →
    k = (s.swp p.val).rec_.potMap.getD (frameClass (s.swp p.val).rec_ f) 0 % 64 →
    (s.pot k).rec_.max < (s.pot k).used + (ethLen f + 63) / 64 →
    Gives (.frameIngress p .plain f st []) s (fun t => t.esw.stored = s.esw.stored ∧ (t.pot k).dropFull = (s.pot k).dropFull + 1 ∧
      (t.pot k).episode = true ∧ (t.swp p.val).count.drops = (s.swp p.val).count.drops + 1 ∧ Frame [.mbx, .log, .vz, .esw] s t)) ∧
  (∀ (p : Fin 21) (c : Fin 8) (x : Stored) (s : State),
    s.esw.waiting.find? (fun x => decide (x.ingress = p.val) && decide (x.cls = c.val)) = some x →
    Gives (.losslessTimeout p c) s (fun t => t.esw.waiting = s.esw.waiting.erase x ∧ (t.pot x.pot).lossless = (s.pot x.pot).lossless + 1 ∧
      ((∀ y ∈ s.esw.waiting.erase x, ¬(y.ingress = p.val ∧ y.cls = c.val)) → (t.swp p.val).held.getLsbD c.val = false) ∧
      Frame [.mbx, .log, .vz, .esw] s t)) ∧
  (∀ (p : Fin 21) (c : Fin 8) (s : State),
    s.esw.waiting.find? (fun x => decide (x.ingress = p.val) && decide (x.cls = c.val)) = none →
    exec (.losslessTimeout p c) s = .next s) ∧
  (∀ (p : Fin 21) (s : State), (s.eswOn = false ∨ (p.val ≠ portI0 ∧ p.val ≠ portI1 ∧ s.esw.cellsLeft = 0 ∧ chooseClass p.val s 8 = none)) →
    exec (.frameEgress p) s = .next s) ∧
  (∀ (p : Fin 21) (s : State), s.eswOn = true → p.val ≠ portI0 → p.val ≠ portI1 → chooseClass p.val (crossbar s) 8 = none →
    exec (.frameEgress p) s = .next (crossbar s)) ∧
  (∀ (s : State) (e : EswState), e = (crossbar s).esw → crossbar s = { s with esw := { s.esw with
    stored := e.stored, grantPtr := e.grantPtr, acceptPtr := e.acceptPtr, crossed := e.crossed } }) ∧
  (∀ (x : Stored) (c : EgressCopy) (s : State), s.esw.stored = [x] → x.copies = [c] → x.plane < 2 → c.left ≠ 0 →
    (crossbar s).esw.stored = [{ x with copies := [{ c with left := 0, order := s.esw.crossed + c.left }] }]) ∧
  (∀ (e : EswState) (plane : Nat) (l : List Xfer), (∀ r ∈ e.matchOnce plane l, r ∈ l) ∧
    (e.matchOnce plane l).Pairwise (fun a b => a.ingress ≠ b.ingress ∧ a.egress ≠ b.egress)) ∧
  (∀ (port : Xfer → Nat) (ptr : Nat) (l : List Xfer) (r : Xfer), roundRobin port ptr l = some r → r ∈ l ∧ (∀ y ∈ l, y.cls ≤ r.cls ∧
    (y.cls = r.cls → (port r + 21 - ptr % 21) % 21 ≤ (port y + 21 - ptr % 21) % 21))) ∧
  (∀ (e : EswState) (plane : Nat), e.requests plane = [] → e.cellTime plane = e) ∧
  (∀ (p : Fin 21) (k : Nat) (x : Stored) (c : EgressCopy) (d : Drr) (s u : State), s.eswOn = true → 1 ≤ p.val → p.val ≤ 16 →
    u = crossbar s → chooseClass p.val u 8 = some (k, (x, c), d) → x.copies = [c] → x.tx = none → (s.swp p.val).rec_.macsec = false →
    Gives (.frameEgress p) s (fun t => t.esw.stored = u.esw.stored.erase x ∧ t.esw.descFree = s.esw.descFree + 1 ∧
      (t.pot x.pot).used = (s.pot x.pot).used - x.cells ∧ (t.swp p.val).count.tx = (s.swp p.val).count.tx + 1 ∧
      t.esw.scrubbing = s.esw.scrubbing + x.cells ∧ t.esw.out.head? = some (p.val, s.portNs p.val, s.outFrame p.val x) ∧
      Frame [.esw] s t)) ∧
  (∀ (k : Nat) (x : Stored) (c : EgressCopy) (d : Drr) (s : State), s.eswOn = true → chooseClass 0 (crossbar s) 8 = some (k, (x, c), d) →
    x.tx = none → (s.swp 0).rec_.rgBe.getLsbD x.cls = false → (ethBytes (s.outFrame 0 x)).length ≤ 1536 →
    Gives (.frameEgress 0) s (fun t => (∃ o r, t.ring.dynOut = s.ring.dynOut ++ [(o, r)] ∧ r.payload = ethBytes (s.outFrame 0 x) ∧
      r.hdr.typ = 9 ∧ r.hdr.dst = c.dst) ∧ (t.swp 0).count.tx = (s.swp 0).count.tx + 1 ∧ Frame [.ring, .esw] s t)) ∧
  (∀ (k : Fin 64) (s : State), s.esw.on = true → Gives (.potFullEpisodeEnd k) s (fun t =>
    t.pot k.val = { s.pot k.val with episode := false } ∧ (∀ j, j ≠ k.val → t.pot j = s.pot j) ∧ Frame [.esw] s t)) ∧
  (∀ (a b : Int) (l : List LooseCell) (s : State), s.eswOn = true → Gives (.cellAudit a b l) s (fun t => t.esw.loose = l ∧
    t.esw.looseBefore = s.esw.loose ∧ t.esw.comparing = true ∧ t.esw.auditAt = s.now ∧ t.esw.free = s.esw.free ∧
    (s.esw.unbalanced a b = false → t.log = s.log) ∧ Frame [.mbx, .log, .vz, .esw] s t)) ∧
  (∀ (a b : Int) (l : List LooseCell) (s : State), s.eswOn = false → exec (.cellAudit a b l) s = .next s) ∧
  (∀ (s : State), s.esw.comparing = false → exec .leakCompareDone s = .next s) ∧
  (∀ (s : State), s.esw.comparing = true → s.esw.reclaim = false → Gives .leakCompareDone s (fun t =>
    t.esw = { s.esw with comparing := false, leaks := s.esw.leaks + (s.esw.loose.filter (fun c => s.esw.looseBefore.contains c)).length } ∧
    Frame [.mbx, .log, .vz, .esw] s t)) ∧
  (∀ (c : Fin 262144) (s : State), s.eswOn = true → c.val < bankCells * s.esw.nBank → s.esw.free ≠ 0 →
    Gives (.cellEccError c none) s (fun t => t.esw = { s.esw with free := s.esw.free - 1, hold := s.esw.hold + 1 } ∧
      Frame [.mbx, .log, .vz, .esw] s t)) ∧
  (∀ (c : Fin 262144) (i : Nat) (x : Stored) (s : State), s.eswOn = true → c.val < bankCells * s.esw.nBank → s.esw.stored[i]? = some x →
    1 ≤ x.cells → Gives (.cellEccError c (some i)) s (fun t => t.esw.stored = s.esw.stored.erase x ∧ t.esw.hold = s.esw.hold + 1 ∧
      t.esw.scrubbing + 1 = s.esw.scrubbing + x.cells ∧ Frame [.mbx, .log, .vz, .esw] s t)) ∧
  (∀ (c : Fin 262144) (i : Option Nat) (s : State), (s.eswOn = false ∨ bankCells * s.esw.nBank ≤ c.val) →
    exec (.cellEccError c i) s = .next s) ∧
  (∀ (i : Fin 512) (s : State), s.eswOn = true → i.val < 21 → Gives (.gateListEntry false i) s (fun t =>
    t.esw = { s.esw with gates := s.esw.gates.modify .open_ i.val (fun g => g.next (s.portNs i.val)) } ∧ Frame [.esw] s t)) ∧
  (∀ (i : Fin 512) (s : State), s.eswOn = true → Gives (.gateListEntry true i) s (fun t =>
    t.esw = { s.esw with streamGates := s.esw.streamGates.modify .open_ i.val (fun g => g.next (s.gateNs i.val)) } ∧ Frame [.esw] s t)) ∧
  (∀ (m : BitVec 48) (v : BitVec 12) (s : State), Gives (.fdbAgeing m v) s (fun t =>
    t.esw = { s.esw with fdb := s.esw.fdb.filter (fun x => x.static_ || decide (x.mac ≠ m) || decide (x.vid ≠ v.toNat)) } ∧
    Frame [.esw] s t)) ∧
  (∀ (p : Fin 21) (up : Bool) (s : State), s.eswOn = true → (isP p.val || isQ p.val || isS p.val) = true → (s.swp p.val).link = !up →
    Gives (.eswLinkChange p up) s (fun t => t.swp p.val = { s.swp p.val with
      link := up, macsecLive := (s.swp p.val).macsecLive && up } ∧ (∀ q, q ≠ p.val → t.swp q = s.swp q) ∧
      Frame [.mbx, .log, .vz, .esw] s t)) ∧
  (∀ (p : Fin 21) (up : Bool) (s : State), (s.swp p.val).link = up → exec (.eswLinkChange p up) s = .next s) ∧
  (∀ (p : Fin 21) (s : State), s.eswOn = true → isP p.val = true → (s.swp p.val).rec_.macsec = true → (s.swp p.val).link = true →
    (s.swp p.val).macsecLive = false → Gives (.portMacsecTimeout p) s (fun t => Frame [.mbx, .log, .vz] s t)) ∧
  (∀ (p : Fin 21) (s : State), (s.swp p.val).macsecLive = true → exec (.portMacsecTimeout p) s = .next s) ∧
  (∀ (p : Fin 21) (s : State), s.eswOn = true → isS p.val = true → (s.swp p.val).follower = true →
    Gives (.plcaBeaconTimeout p) s (fun t => t.swp p.val = { s.swp p.val with plcaAct := false, plcaLost := true } ∧
      (∀ q, q ≠ p.val → t.swp q = s.swp q) ∧ Frame [.mbx, .log, .vz, .esw] s t)) ∧
  (∀ (p : Fin 21) (s : State), s.eswOn = true → isS p.val = true → (s.swp p.val).follower = true →
    Gives (.plcaBeaconReturn p) s (fun t => t.swp p.val = { s.swp p.val with plcaAct := true, plcaLost := false } ∧
      (∀ q, q ≠ p.val → t.swp q = s.swp q) ∧ Frame [.esw] s t)) ∧
  (∀ (p : Fin 21) (s : State), (s.swp p.val).follower = false →
    exec (.plcaBeaconTimeout p) s = .next s ∧ exec (.plcaBeaconReturn p) s = .next s) ∧
  (∀ (k : Fin 1024) (x : Frer) (s : State), s.esw.frer.get? k.val = some x → x.rec_.kind = 2 → flagOf x.rec_.flags 1 = true →
    Gives (.latentErrorTest k true) s (fun t => Frame [.mbx, .log, .vz] s t)) ∧
  (∀ (k : Fin 1024) (s : State), exec (.latentErrorTest k false) s = .next s) ∧
  (∀ (s : State), s.esw.scrub0 ≠ 0 → s.esw.waiting = [] → Gives (.cellScrubbed 0) s (fun t =>
    t.esw = { s.esw with scrub0 := s.esw.scrub0 - 1, free := s.esw.free + 1 } ∧ Frame [.esw] s t)) ∧
  (∀ (s : State), s.esw.scrub1 ≠ 0 → s.esw.waiting = [] → Gives (.cellScrubbed 1) s (fun t =>
    t.esw = { s.esw with scrub1 := s.esw.scrub1 - 1, free := s.esw.free + 1 } ∧ Frame [.esw] s t)) ∧
  (∀ (x : Stored) (s : State), s.esw.scrub0 = 0 → s.esw.waiting = [x] → s.grant x [] = .granted → Gives (.cellScrubbed 0) s (fun t =>
    t.esw.waiting = [] ∧ t.esw.stored = s.esw.stored ++ [x] ∧ t.esw.free = s.esw.free - x.cells ∧
    t.esw.pointer = (x.ingress + 1) % 21 ∧ Frame [.esw] s t)) ∧
  (∀ (v : Fin 256) (q : Fin 4) (n : U16) (ds : List TxDesc) (rv : List Rival) (s : State), s.pairBlock v.val = false →
    exec (.eswTxqProdWrite v q n ds rv) s = .next (windowFault v.val s) ∧ exec (.eswRxqConsWrite v q n) s = .next (windowFault v.val s)) ∧
  (∀ (v : Fin 256) (q : Fin 4) (n : U16) (ds : List TxDesc) (rv : List Rival) (s : State), s.eswOn = true → s.hasPair v.val q.val = true →
    s.vzfActive v.val = true → 2 ^ (s.qp v.val q.val).depthLog2 < (n - (s.qp v.val q.val).txCons).toNat →
    Gives (.eswTxqProdWrite v q n ds rv) s (fun t => t.qp v.val q.val = { s.qp v.val q.val with prodErr := true } ∧ Frame [.esw] s t)) ∧
  (∀ (v : Fin 256) (q : Fin 4) (d : TxDesc) (rv : List Rival) (s : State), s.eswOn = true → s.hasPair v.val q.val = true →
    s.vzfActive v.val = true → (s.qp v.val q.val).waiting = [] →
    ((s.qp v.val q.val).txProd + 1 - (s.qp v.val q.val).txCons).toNat ≤ 2 ^ (s.qp v.val q.val).depthLog2 →
    (s.swp (s.txPort v.val)).held.getLsbD (d.flags.extractLsb' 0 3).toNat = false → d.gen ≠ (s.vzf v.val).gen →
    Gives (.eswTxqProdWrite v q ((s.qp v.val q.val).txProd + 1) [d] rv) s (fun t =>
      (t.qp v.val q.val).txProd = (s.qp v.val q.val).txProd + 1 ∧
      (t.qp v.val q.val).done.get? (s.qp v.val q.val).txProd.toNat = some { status := 3, reason := 0, stamp := 0 } ∧
      t.esw.stored = s.esw.stored ∧ Frame [.vz, .esw] s t)) ∧
  (∀ (v : Fin 256) (q : Fin 4) (d : TxDesc) (rv : List Rival) (s : State), s.eswOn = true → s.hasPair v.val q.val = true →
    s.vzfActive v.val = true → (s.qp v.val q.val).waiting = [] →
    ((s.qp v.val q.val).txProd + 1 - (s.qp v.val q.val).txCons).toNat ≤ 2 ^ (s.qp v.val q.val).depthLog2 →
    (s.swp (s.txPort v.val)).held.getLsbD (d.flags.extractLsb' 0 3).toNat = false → d.gen = (s.vzf v.val).gen →
    descRefused d (s.qp v.val q.val) = false → (s.vzf v.val).tpl.macs.contains d.frame.src = false →
    Gives (.eswTxqProdWrite v q ((s.qp v.val q.val).txProd + 1) [d] rv) s (fun t => t.esw.stats.spoof = s.esw.stats.spoof + 1 ∧
      t.esw.stored = s.esw.stored ∧ t.esw.fdb = s.esw.fdb ∧ Frame [.vz, .esw] s t)) ∧
  (∀ (v : Fin 256) (q : Fin 4) (n : U16) (s : State), s.eswOn = true → s.hasPair v.val q.val = true → s.vzfActive v.val = true →
    (s.qp v.val q.val).rxProd - (s.qp v.val q.val).rxCons < n - (s.qp v.val q.val).rxCons →
    Gives (.eswRxqConsWrite v q n) s (fun t => t.qp v.val q.val = { s.qp v.val q.val with consErr := true } ∧ Frame [.esw] s t)) ∧
  (∀ (v : Fin 256) (q : Fin 4) (n : U16) (s : State), s.eswOn = true → s.hasPair v.val q.val = true → s.vzfActive v.val = true →
    n - (s.qp v.val q.val).rxCons ≤ (s.qp v.val q.val).rxProd - (s.qp v.val q.val).rxCons →
    Gives (.eswRxqConsWrite v q n) s (fun t => (t.qp v.val q.val).rxCons = n ∧ (t.qp v.val q.val).rxProd = (s.qp v.val q.val).rxProd ∧
      (t.qp v.val q.val).consErr = (s.qp v.val q.val).consErr ∧ Frame [.esw] s t))

/-- The ESW commands (R268, R271, R272, R275, R283, R285, R292, R294, Table 10.13); that a stream's handle is its filter's number is the
model's choice (log entry 75). -/
def Obligations.SwitchCommandsAct : Prop :=
  (∀ (s : State) (r : Req) (p : Port) (port : Byte), Requested s r p 4 → port.toNat ≤ 20 → p.mayUse (s.swp port.toNat).vzf →
    s.sys.mode.isRunLimpWork = true → Answers (.eswPortStatus r port) r 0x0801 stat_ok
      (le32 (s.portWord port.toNat) ++ zeros 4 ++ (s.swp port.toNat).count.bytes) s (fun u => u = s)) ∧
  (∀ (s : State) (r : Req) (p : Port) (port : Byte), Requested s r p 4 → 20 < port.toNat → p.sysPriv = true →
    Answers (.eswPortStatus r port) r 0x0801 stat_eswPort [] s (fun u => u = s)) ∧
  (∀ (s : State) (r : Req) (p : Port) (vid : U16) (m u : U32), Requested s r p 12 → p.sysPriv = true → vidOk vid = true → maskOk m = true →
    maskOk u = true → s.sys.mode.isRunLimpWork = true → Answers (.eswVlanSet r vid m u) r 0x0802 stat_ok [] s (fun t =>
      t.esw = { s.esw with vlans := s.esw.vlans.set vid.toNat { members := m, untagged := u } } ∧ Frame [.esw] s t)) ∧
  (∀ (s : State) (r : Req) (p : Port) (f : FdbFields) (rest : List FdbEntry), Requested s r p 16 →
    p.mayUse (s.fdbOwner f.mac f.vid.toNat f.ports) → fdbStat f = none → s.sys.mode.isRunLimpWork = true →
    rest = s.esw.fdb.filter (fun y => !(decide (y.mac = f.mac) && decide (y.vid = f.vid.toNat))) → rest.length < 16384 →
    Answers (.eswFdbAdd r f) r 0x0803 stat_ok [] s (fun t => t.esw = { s.esw with fdb := rest ++ [{
      mac := f.mac, vid := f.vid.toNat, ports := f.ports, station := f.station.toNat, static_ := flagOf f.flags 0
      discard := flagOf f.flags 1 }] } ∧ Frame [.esw] s t)) ∧
  (∀ (s : State) (r : Req) (p : Port) (f : FdbFields), Requested s r p 16 → p.mayUse (s.fdbOwner f.mac f.vid.toNat f.ports) →
    fdbStat f = none → s.sys.mode.isRunLimpWork = true →
    16384 ≤ (s.esw.fdb.filter (fun y => !(decide (y.mac = f.mac) && decide (y.vid = f.vid.toNat)))).length →
    Answers (.eswFdbAdd r f) r 0x0803 stat_eswTableFull [] s (fun t => t = s)) ∧
  (∀ (s : State) (r : Req) (p : Port) (mac : BitVec 48) (vid : U16) (e : FdbEntry), Requested s r p 8 →
    s.esw.lookup mac vid.toNat = some e → p.mayUse (s.fdbOwner mac vid.toNat e.ports) → s.sys.mode.isRunLimpWork = true →
    Answers (.eswFdbDel r mac vid) r 0x0804 stat_ok [] s (fun t => t.esw = { s.esw with
      fdb := s.esw.fdb.filter (fun y => !(decide (y.mac = mac) && decide (y.vid = vid.toNat))) } ∧ Frame [.esw] s t)) ∧
  (∀ (s : State) (r : Req) (p : Port) (mac : BitVec 48) (vid : U16), Requested s r p 8 → s.esw.lookup mac vid.toNat = none →
    s.sys.mode.isRunLimpWork = true → Answers (.eswFdbDel r mac vid) r 0x0804 stat_badState [] s (fun t => t = s)) ∧
  (∀ (s : State) (r : Req) (p : Port) (f : PotFields), Requested s r p 16 → p.sysPriv = true → potStat f = none →
    s.sys.mode.isRunLimpWork = true → potBudgetOk f.pot.toNat f.min.toNat s = true →
    Answers (.eswPotConfig r f) r 0x0805 stat_ok [] s (fun t => t.pot f.pot.toNat = { s.pot f.pot.toNat with
      rec_ := { owner := f.owner.toNat, min := f.min.toNat, max := f.max.toNat, maxDesc := f.maxDesc.toNat } } ∧
      (∀ k, k ≠ f.pot.toNat → t.pot k = s.pot k) ∧ Frame [.esw] s t)) ∧
  (∀ (s : State) (r : Req) (p : Port) (f : PotFields), Requested s r p 16 → p.sysPriv = true → potStat f = none →
    s.sys.mode.isRunLimpWork = true → potBudgetOk f.pot.toNat f.min.toNat s = false →
    Answers (.eswPotConfig r f) r 0x0805 stat_eswPotBudget [] s (fun t => t = s)) ∧
  (∀ (s : State) (r : Req) (p : Port) (pot : Byte), Requested s r p 4 → pot.toNat ≤ 63 → p.mayUse (s.potOwner pot.toNat) →
    s.sys.mode.isRunLimpWork = true → Answers (.eswPotStatus r pot) r 0x0806 stat_ok (s.pot pot.toNat).bytes s (fun t =>
      t.pot pot.toNat = { s.pot pot.toNat with peak := (s.pot pot.toNat).used } ∧ (∀ k, k ≠ pot.toNat → t.pot k = s.pot k) ∧
      Frame [.esw] s t)) ∧
  (∀ (s : State) (r : Req) (p : Port) (port cls : Byte) (slope : U32), Requested s r p 8 → port.toNat ≤ 20 →
    p.mayUse (s.swp port.toNat).vzf → cls.toNat ≤ 7 → slope.toNat ≤ rateKbps port.toNat → s.sys.mode.isRunLimpWork = true →
    s.esw.shaped port.toNat < 4 → Answers (.eswShaperSet r port cls 1 slope) r 0x0807 stat_ok [] s (fun t =>
      t.esw = { s.esw with shapers := s.esw.shapers.set (8 * port.toNat + cls.toNat) { slope := slope.toNat, credit := 0, last := s.now } } ∧
      Frame [.esw] s t)) ∧
  (∀ (s : State) (r : Req) (p : Port) (port cls : Byte) (slope : U32), Requested s r p 8 → port.toNat ≤ 20 →
    p.mayUse (s.swp port.toNat).vzf → cls.toNat ≤ 7 → slope.toNat ≤ rateKbps port.toNat → s.sys.mode.isRunLimpWork = true →
    Answers (.eswShaperSet r port cls 0 slope) r 0x0807 stat_ok [] s (fun t =>
      t.esw = { s.esw with shapers := s.esw.shapers.erase (8 * port.toNat + cls.toNat) } ∧ Frame [.esw] s t)) ∧
  (∀ (s : State) (r : Req) (p : Port) (port cls : Byte) (slope : U32), Requested s r p 8 → port.toNat ≤ 20 →
    p.mayUse (s.swp port.toNat).vzf → cls.toNat ≤ 7 → slope.toNat ≤ rateKbps port.toNat → s.sys.mode.isRunLimpWork = true →
    4 ≤ s.esw.shaped port.toNat → s.esw.shapers.get? (8 * port.toNat + cls.toNat) = none →
    Answers (.eswShaperSet r port cls 1 slope) r 0x0807 stat_eswTableFull [] s (fun t => t = s)) ∧
  (∀ (s : State) (r : Req) (p : Port) (f : GateFields), Requested s r p (24 + 8 * f.entries.length) → p.sysPriv = true →
    gateStat f = none → s.sys.mode.isRunLimpWork = true → f.target = 0 → Answers (.eswGateSet r f) r 0x0808 stat_ok [] s (fun t =>
      (t.esw.gates.getD .open_ f.port.toNat).admin = some {
        cycle := f.cycle.toNat, base := { sec := f.baseSec.toNat, ns := f.baseNs.toNat, frac := 0 }
        entries := f.entries.map (fun e => (e.1.toNat, e.2)) } ∧
      (t.esw.gates.getD .open_ f.port.toNat).oper = (s.esw.gates.getD .open_ f.port.toNat).oper ∧
      (∀ k, k ≠ f.port.toNat → t.esw.gates.getD .open_ k = s.esw.gates.getD .open_ k) ∧ Frame [.esw] s t)) ∧
  (∀ (s : State) (r : Req) (p : Port) (f : GateFields), Requested s r p (24 + 8 * f.entries.length) → p.sysPriv = true →
    gateStat f = none → s.sys.mode.isRunLimpWork = true → f.target = 1 → Answers (.eswGateSet r f) r 0x0808 stat_ok [] s (fun t =>
      (t.esw.streamGates.getD .open_ f.gate.toNat).admin = some {
        cycle := f.cycle.toNat, base := { sec := f.baseSec.toNat, ns := f.baseNs.toNat, frac := 0 }
        entries := f.entries.map (fun e => (e.1.toNat, e.2)) } ∧
      (∀ k, k ≠ f.gate.toNat → t.esw.streamGates.getD .open_ k = s.esw.streamGates.getD .open_ k) ∧
      t.esw.gates = s.esw.gates ∧ Frame [.esw] s t)) ∧
  (∀ (s : State) (r : Req) (p : Port) (f : FilterFields), Requested s r p 68 → p.mayUse (s.filterOwner f) → filterStat f = none →
    s.sys.mode.isRunLimpWork = true → Answers (.eswStreamFilter r f) r 0x0809 stat_ok (le16 f.filter) s (fun t =>
      t.esw.filters = s.esw.filters.set f.filter.toNat { rec_ := f, blocked := false } ∧
      (f.meter ≠ 0xFFFF → t.esw.meters = s.esw.meters.set f.meter.toNat (Meter.ofFilter f s.now)) ∧
      (f.meter = 0xFFFF → t.esw.meters = s.esw.meters) ∧ t.esw.fdb = s.esw.fdb ∧ Frame [.esw] s t)) ∧
  (∀ (s : State) (r : Req) (p : Port) (f : FilterFields), Requested s r p 68 → p.mayUse (s.filterOwner f) → 2 < f.method.toNat →
    Answers (.eswStreamFilter r f) r 0x0809 stat_eswFeature [] s (fun t => t = s)) ∧
  (∀ (s : State) (r : Req) (p : Port) (f : FrerFields), Requested s r p 16 → p.sysPriv = true → frerStat f = none →
    s.sys.mode.isRunLimpWork = true → Answers (.eswFrerSet r f) r 0x080A stat_ok [] s (fun t =>
      t.esw.frer.get? f.fn.toNat = (if f.kind = 0 then none else
        some { rec_ := f, next := 0, takeAny := true, recv := 0, history := 0, last := s.now }) ∧
      (∀ k, k ≠ f.fn.toNat → t.esw.frer.get? k = s.esw.frer.get? k) ∧ Frame [.esw] s t)) ∧
  (∀ (s : State) (r : Req) (p : Port) (f : PlcaFields), Requested s r p 8 → p.sysPriv = true → plcaStat f = none →
    s.sys.mode.isRunLimpWork = true → Answers (.eswPlcaSet r f) r 0x080B stat_ok [] s (fun t =>
      t.swp f.port.toNat = { s.swp f.port.toNat with
        plca := { en := decide (f.enable = 1), node := f.node.toNat, count := f.count.toNat, toTimer := f.toTimer.toNat,
                  burst := f.burst.toNat, burstTimer := f.burstTimer.toNat }
        plcaAct := decide (f.enable = 1), plcaLost := false } ∧
      (∀ q, q ≠ f.port.toNat → t.swp q = s.swp q) ∧ Frame [.esw] s t)) ∧
  (∀ (s : State) (r : Req) (p : Port) (f : PlcaFields), Requested s r p 8 → p.sysPriv = true → isS f.port.toNat = false →
    Answers (.eswPlcaSet r f) r 0x080B stat_eswPort [] s (fun t => t = s)) ∧
  (∀ (s : State) (r : Req) (p : Port) (policy : Byte) (t : U16) (a b : Int) (l : List LooseCell), Requested s r p 4 → p.sysPriv = true →
    policy.toNat ≤ 1 → 1 ≤ t.toNat → t.toNat ≤ 1000 → s.sys.mode.isRunLimpWork = true →
    Answers (.eswAudit r 1 policy t a b l) r 0x080C stat_ok s.esw.auditBytes s (fun u =>
      u.esw = { s.esw with reclaim := decide (policy = 1), tAud := t.toNat } ∧ Frame [.esw] s u)) ∧
  (∀ (s : State) (r : Req) (p : Port) (policy : Byte) (t : U16) (a b : Int) (l : List LooseCell), Requested s r p 4 → p.sysPriv = true →
    policy.toNat ≤ 1 → s.sys.mode.isRunLimpWork = true →
    Gives (.eswAudit r 0 policy t a b l) s (fun x => ∃ u, x = respond r 0x080C stat_ok u.esw.auditBytes u ∧ u.esw.auditAt = s.now ∧
      u.esw.loose = l ∧ u.esw.comparing = true ∧ u.esw.tAud = s.esw.tAud ∧ Frame [.mbx, .log, .vz, .esw] s u)) ∧
  (∀ (s : State) (r : Req) (p : Port) (clear : Byte), Requested s r p 4 → clear.toNat ≤ 1 → s.sys.mode.isServing = true →
    Answers (.eswStats r clear) r 0x080D stat_ok s.esw.stats.bytes s (fun u =>
      u.esw = (if clear = 1 then { s.esw with stats := .zero } else s.esw) ∧ Frame [.esw] s u))

/-- The CAN channels at their events (R302 to R305, R307 to R309, R311, R313, R314, R324): frames are filtered, stored or lost, pending
entries are committed, completed, refused, cancelled or aborted, and references are sent, followed or missed. That each commit and each
arbitration follows the lowest identifier field is ISO 11898-1 as the model takes it (log entry 80). -/
def Obligations.CanEventsAct : Prop :=
  (∀ (c : Fin 16) (f : CanFrame) (sof : U64) (n : CanCounters) (s : State),
    ((s.canCh c.val).mode.onBus = false ∨ s.powered (pdCan c.val) = false) → exec (.canFrameReceived c f sof n) s = .next s) ∧
  (∀ (c : Fin 16) (f : CanFrame) (sof : U64) (n : CanCounters) (s : State), (s.canCh c.val).mode.onBus = true →
    s.powered (pdCan c.val) = true → n.err ≠ 0 → canListen (s.canCh c.val).record = false →
    Gives (.canFrameReceived c f sof n) s (fun t => (t.canCh c.val).rx = (s.canCh c.val).rx ∧
      (t.canCh c.val).stats.received = (s.canCh c.val).stats.received ∧ (t.canCh c.val).lec = n.err.val ∧ (t.canCh c.val).tec = n.tec ∧
      (t.canCh c.val).rec_ = n.rec_ ∧ Frame [.mbx, .log, .vz, .net] s t)) ∧
  (∀ (c : Fin 16) (f : CanFrame) (sof : U64) (n : CanCounters) (s : State), (s.canCh c.val).mode.onBus = true →
    s.powered (pdCan c.val) = true → n.err = 0 → s.sys.mode ≠ .basecamp → (s.canCh c.val).stores f = false →
    Gives (.canFrameReceived c f sof n) s (fun t => (t.canCh c.val).rx = (s.canCh c.val).rx ∧
      (t.canCh c.val).rxLost = (s.canCh c.val).rxLost ∧ (t.canCh c.val).stats.received = (s.canCh c.val).stats.received + 1 ∧
      Frame [.mbx, .log, .vz, .net, .sig] s t)) ∧
  (∀ (c : Fin 16) (f : CanFrame) (sof : U64) (n : CanCounters) (s : State), (s.canCh c.val).mode.onBus = true →
    s.powered (pdCan c.val) = true → n.err = 0 → s.sys.mode ≠ .basecamp → (s.canCh c.val).stores f = true → s.canQuiet c.val = false → f.data.length ≤ 64 →
    ((s.canCh c.val).rxE (s.canCh c.val).rxFill).own = true →
    Gives (.canFrameReceived c f sof n) s (fun t => ((t.canCh c.val).rxE (s.canCh c.val).rxFill).own = false ∧
      ((t.canCh c.val).rxE (s.canCh c.val).rxFill).id = BitVec.setWidth 32 f.id ∧
      ((t.canCh c.val).rxE (s.canCh c.val).rxFill).time = sof ∧
      ((t.canCh c.val).rxE (s.canCh c.val).rxFill).data = (f.data ++ zeros 64).take 64 ∧
      (∀ k, k ≠ (s.canCh c.val).rxFill → (t.canCh c.val).rxE k = (s.canCh c.val).rxE k) ∧
      (t.canCh c.val).rxFill = ((s.canCh c.val).rxFill + 1) % 512 ∧ (t.canCh c.val).rxLost = (s.canCh c.val).rxLost ∧
      (t.canCh c.val).stats.stored = (s.canCh c.val).stats.stored + 1 ∧ Frame [.mbx, .log, .vz, .net, .sig] s t)) ∧
  (∀ (c : Fin 16) (f : CanFrame) (sof : U64) (n : CanCounters) (s : State), (s.canCh c.val).mode.onBus = true →
    s.powered (pdCan c.val) = true → n.err = 0 → s.sys.mode ≠ .basecamp → (s.canCh c.val).stores f = true → s.canQuiet c.val = false →
    ((s.canCh c.val).rxE (s.canCh c.val).rxFill).own = false →
    Gives (.canFrameReceived c f sof n) s (fun t => (t.canCh c.val).rx = (s.canCh c.val).rx ∧
      (t.canCh c.val).rxLost = satInc 0xFFFFFFFF (s.canCh c.val).rxLost ∧ (t.canCh c.val).flags.rxLoss = true ∧
      (t.canCh c.val).lossBefore = true ∧ Frame [.mbx, .log, .vz, .net, .sig] s t)) ∧
  (∀ (c : Fin 16) (f : CanFrame) (sof : U64) (n : CanCounters) (s : State), (s.canCh c.val).mode.onBus = true →
    s.powered (pdCan c.val) = true → n.err = 0 → s.sys.mode ≠ .basecamp → (s.canCh c.val).stores f = true → s.canQuiet c.val = true →
    Gives (.canFrameReceived c f sof n) s (fun t => (t.canCh c.val).rx = (s.canCh c.val).rx ∧
      (t.canCh c.val).resetLost = (s.canCh c.val).resetLost + 1 ∧ Frame [.mbx, .log, .vz, .net, .sig] s t)) ∧
  (∀ (c : Fin 16) (f : CanFrame) (sof : U64) (n : CanCounters) (s : State), (s.canCh c.val).mode.onBus = true →
    s.powered (pdCan c.val) = true → n.err = 0 → s.sys.mode = .basecamp →
    Gives (.canFrameReceived c f sof n) s (fun t => t.uds = s.uds.canTake f ∧ (t.canCh c.val).rx = (s.canCh c.val).rx ∧
      (t.canCh c.val).stats.received = (s.canCh c.val).stats.received + 1 ∧ Frame [.mbx, .log, .vz, .net, .uds] s t)) ∧
  (∀ (c : Fin 16) (e : Nat) (s : State), (s.canCh c.val).mode.onBus = true → canListen (s.canCh c.val).record = false →
    (s.canCh c.val).attempt = none → (s.canCh c.val).stopping = none → s.powered (pdCan c.val) = true →
    bestEntry (s.canCh c.val) ((s.canCh c.val).pending.filter (fun e => !(s.canSoftEntry c.val e && s.canQuiet c.val))) = some e →
    Gives (.canSofCommit c) s (fun t => (t.canCh c.val).attempt = some { entry := e, sof := s.tb.count, cancelled := false, old := false } ∧
      ((t.canCh c.val).txE e).attempts = byteOf (satInc 255 ((s.canCh c.val).txE e).attempts.toNat) ∧
      (t.canCh c.val).pending = (s.canCh c.val).pending ∧ Frame [.net] s t)) ∧
  (∀ (c : Fin 16) (s : State), ((s.canCh c.val).pending = [] ∨ (s.canCh c.val).attempt.isSome = true) →
    exec (.canSofCommit c) s = .next s) ∧
  (∀ (c : Fin 16) (o : CanOutcome) (n : CanCounters) (s : State), (s.canCh c.val).attempt = none →
    exec (.canTxComplete c o n) s = .next s) ∧
  (∀ (c : Fin 16) (n : CanCounters) (a : CanAttempt) (s : State), (s.canCh c.val).attempt = some a → a.old = false →
    s.canSoftEntry c.val a.entry = true → canEcho (s.canCh c.val).record = false → (s.canCh c.val).stopping = none →
    Gives (.canTxComplete c .sent n) s (fun t => (t.canCh c.val).attempt = none ∧
      ((t.canCh c.val).txE a.entry).ctl = doneCtl ((s.canCh c.val).txE a.entry).ctl canTxOk a.cancelled ∧
      ((t.canCh c.val).txE a.entry).time = a.sof ∧ a.entry ∉ (t.canCh c.val).pending ∧
      (t.canCh c.val).stats.sent = (s.canCh c.val).stats.sent + 1 ∧ Frame [.mbx, .log, .vz, .net] s t)) ∧
  (∀ (c : Fin 16) (n : CanCounters) (a : CanAttempt) (s : State), (s.canCh c.val).attempt = some a → a.old = false →
    a.cancelled = false → ((s.canCh c.val).txE a.entry).own = true → ((s.canCh c.val).txE a.entry).oneShot = false →
    (s.canCh c.val).stopping = none →
    Gives (.canTxComplete c .lostArb n) s (fun t => (t.canCh c.val).attempt = none ∧ (t.canCh c.val).pending = (s.canCh c.val).pending ∧
      (t.canCh c.val).tx = (s.canCh c.val).tx ∧ (t.canCh c.val).stats.arbLost = (s.canCh c.val).stats.arbLost + 1 ∧
      Frame [.mbx, .log, .vz, .net] s t)) ∧
  (∀ (c : Fin 16) (o : CanOutcome) (n : CanCounters) (a : CanAttempt) (q : Nat × U32 × U32) (s : State),
    (s.canCh c.val).attempt = some a → (s.canCh c.val).stopping = some q →
    Gives (.canTxComplete c o n) s (fun t => (t.canCh c.val).mode = .stopped ∧ (t.canCh c.val).attempt = none ∧
      (t.canCh c.val).pending = [] ∧ (t.canCh c.val).stopping = none ∧ (∀ e, e < 96 → ((t.canCh c.val).txE e).own = false) ∧
      Frame [.mbx, .log, .vz, .net] s t)) ∧
  (∀ (c : Fin 16) (s : State), (s.canCh c.val).mode = .integrating → (s.nmOn c.val = false ∨ (s.nmRing c.val).join = false) →
    Gives (.canIntegrationDone c) s (fun t => t.canCh c.val = { s.canCh c.val with mode := .errorActive } ∧ Frame [.net] s t)) ∧
  (∀ (c : Fin 16) (s : State), (s.canCh c.val).mode ≠ .integrating → exec (.canIntegrationDone c) s = .next s) ∧
  (∀ (c : Fin 16) (s : State), (s.canCh c.val).mode = .recovering → Gives (.canRecoveryDone c) s (fun t =>
    (t.canCh c.val).mode = .integrating ∧ (t.canCh c.val).tec = 0 ∧ (t.canCh c.val).rec_ = 0 ∧ Frame [.mbx, .log, .vz, .net] s t)) ∧
  (∀ (c : Fin 16) (s : State), (s.canCh c.val).mode ≠ .recovering → exec (.canRecoveryDone c) s = .next s) ∧
  (∀ (c : Fin 16) (s : State), Gives (.canRxOverrunEnd c) s (fun t => t.canCh c.val = { s.canCh c.val with episode := false } ∧
    (∀ j, j ≠ c.val → t.canCh j = s.canCh j) ∧ Frame [.net] s t)) ∧
  (∀ (v : Fin 256) (c : Fin 16) (w : U32) (s : State), s.canBlock v.val c.val = false →
    exec (.canTxBellWrite v c) s = .next (windowFault v.val s) ∧ exec (.canTxCancelWrite v c w) s = .next (windowFault v.val s) ∧
    exec (.canRxLostRead v c) s = .next (windowFault v.val s)) ∧
  (∀ (v : Fin 256) (c : Fin 16) (s : State), s.canBlock v.val c.val = true → s.vzfActive v.val = true →
    Gives (.canTxBellWrite v c) s (fun t =>
      (∀ e, e < 96 → ((s.canCh c.val).txE e).own = true → e ∉ (s.canCh c.val).pending → s.canSoftEntry c.val e = true →
        ((s.canCh c.val).txE e).gen = (s.vzf v.val).gen → (s.canCh c.val).accepts ((s.canCh c.val).txE e) = true →
        e ∈ (t.canCh c.val).pending ∧ (t.canCh c.val).txE e = (s.canCh c.val).txE e) ∧
      (∀ e, e < 96 → ((s.canCh c.val).txE e).own = true → e ∉ (s.canCh c.val).pending → s.canSoftEntry c.val e = true →
        ((s.canCh c.val).txE e).gen ≠ (s.vzf v.val).gen →
        e ∉ (t.canCh c.val).pending ∧ ((t.canCh c.val).txE e).ctl = doneCtl ((s.canCh c.val).txE e).ctl canStaleGen false ∧
        (t.canCh c.val).flags.staleTx = true) ∧
      (∀ e, (((s.canCh c.val).txE e).own = false ∨ s.canSoftEntry c.val e = false) → (t.canCh c.val).txE e = (s.canCh c.val).txE e) ∧
      Frame [.vz, .net] s t)) ∧
  (∀ (v : Fin 256) (c : Fin 16) (w : U32) (s : State), s.canBlock v.val c.val = true → s.vzfActive v.val = true → w.toNat ≤ 95 →
    s.canSoftEntry c.val w.toNat = true → w.toNat ∈ (s.canCh c.val).pending → (s.canCh c.val).attempt = none →
    Gives (.canTxCancelWrite v c w) s (fun t => w.toNat ∉ (t.canCh c.val).pending ∧
      ((t.canCh c.val).txE w.toNat).ctl = doneCtl ((s.canCh c.val).txE w.toNat).ctl canCancelled false ∧
      (∀ e, e ≠ w.toNat → (t.canCh c.val).txE e = (s.canCh c.val).txE e) ∧
      (t.canCh c.val).stats.cancels = (s.canCh c.val).stats.cancels + 1 ∧ Frame [.vz, .net] s t)) ∧
  (∀ (v : Fin 256) (c : Fin 16) (w : U32) (a : CanAttempt) (s : State), s.canBlock v.val c.val = true → s.vzfActive v.val = true →
    w.toNat ≤ 95 → s.canSoftEntry c.val w.toNat = true → w.toNat ∈ (s.canCh c.val).pending → (s.canCh c.val).attempt = some a →
    a.entry = w.toNat →
    Gives (.canTxCancelWrite v c w) s (fun t => t.canCh c.val = { s.canCh c.val with attempt := some { a with cancelled := true } } ∧
      Frame [.net] s t)) ∧
  (∀ (v : Fin 256) (c : Fin 16) (w : U32) (s : State), s.canBlock v.val c.val = true → 95 < w.toNat →
    exec (.canTxCancelWrite v c w) s = .next s) ∧
  (∀ (c : Fin 16) (e : Fin 512) (w : U32) (s : State), ((s.canCh c.val).rxE e.val).own = false →
    Gives (.canEntryCtlWrite c true e w) s (fun t => (t.canCh c.val).rxE e.val =
        { (s.canCh c.val).rxE e.val with ctl := softCtl ((s.canCh c.val).rxE e.val).ctl w } ∧
      (∀ k, k ≠ e.val → (t.canCh c.val).rxE k = (s.canCh c.val).rxE k) ∧ Frame [.net] s t)) ∧
  (∀ (c : Fin 16) (e : Fin 512) (w : U32) (s : State), e.val ≤ 95 → s.canSoftEntry c.val e.val = true →
    ((s.canCh c.val).txE e.val).own = false →
    Gives (.canEntryCtlWrite c false e w) s (fun t => (t.canCh c.val).txE e.val =
        { (s.canCh c.val).txE e.val with ctl := softCtl ((s.canCh c.val).txE e.val).ctl w } ∧
      (∀ k, k ≠ e.val → (t.canCh c.val).txE k = (s.canCh c.val).txE k) ∧ Frame [.net] s t)) ∧
  (∀ (c : Fin 16) (e : Fin 512) (w : U32) (s : State), e.val ≤ 95 → s.canSoftEntry c.val e.val = true →
    ((s.canCh c.val).txE e.val).own = true →
    Gives (.canEntryCtlWrite c false e w) s (fun t => (t.canCh c.val).tx = (s.canCh c.val).tx ∧ (t.canCh c.val).flags.ownErr = true ∧
      Frame [.net] s t)) ∧
  (∀ (c : Fin 16) (e : Fin 512) (w : U32) (s : State), 95 < e.val → exec (.canEntryCtlWrite c false e w) s = .next s) ∧
  (∀ (v : Fin 256) (c : Fin 16) (s : State), s.canBlock v.val c.val = true → Gives (.canRxLostRead v c) s (fun t =>
    t.bus = BitVec.ofNat 64 (s.canCh c.val).rxLost ∧ t.canCh c.val = { s.canCh c.val with rxLost := 0 } ∧ Frame [.net, .bus] s t)) ∧
  (∀ (c : Fin 16) (s : State), ((s.canCh c.val).tm.role ≠ 2 ∨ (s.canCh c.val).tm.sending = false) →
    exec (.tmReferenceSend c) s = .next s) ∧
  (∀ (c : Fin 16) (s : State), (s.canCh c.val).tm.role = 2 → (s.canCh c.val).tm.sending = true → (s.canCh c.val).mode.onBus = true →
    canListen (s.canCh c.val).record = false →
    Gives (.tmReferenceSend c) s (fun t => (t.canCh c.val).tm.count = (if (s.canCh c.val).tm.count < (s.canCh c.val).tm.maxCount
        then (s.canCh c.val).tm.count + 1 else 0) ∧ (t.canCh c.val).tm.inForce = some (s.canCh c.val).tm.rank ∧
      (t.canCh c.val).tm.missing = 0 ∧ (t.view (s.canCh c.val).tm.view).valid = true ∧
      (t.canCh c.val).stats.sent = (s.canCh c.val).stats.sent + 1 ∧ Frame [.mbx, .log, .tb, .vz, .net, .free] s t)) ∧
  (∀ (c : Fin 16) (rank : Fin 4) (n : Fin 64) (sof : U64) (s : State), (s.canCh c.val).tm.role ≠ 0 → (s.canCh c.val).mode.onBus = true →
    ((s.canCh c.val).tm.sending = false ∨ rank.val < (s.canCh c.val).tm.rank) →
    Gives (.tmReferenceReceived c rank n sof) s (fun t => (t.canCh c.val).tm.count = n.val ∧ (t.canCh c.val).tm.sending = false ∧
      (t.canCh c.val).tm.missing = 0 ∧ (t.canCh c.val).tm.inForce = some rank.val ∧ Frame [.mbx, .log, .tb, .vz, .net, .free] s t)) ∧
  (∀ (c : Fin 16) (rank : Fin 4) (n : Fin 64) (sof : U64) (s : State), ((s.canCh c.val).tm.role = 0 ∨
    ((s.canCh c.val).tm.sending = true ∧ (s.canCh c.val).tm.rank ≤ rank.val)) → exec (.tmReferenceReceived c rank n sof) s = .next s) ∧
  (∀ (c : Fin 16) (s : State), (s.canCh c.val).tm.role = 0 → exec (.tmReferenceMissing c) s = .next s) ∧
  (∀ (c : Fin 16) (s : State), (s.canCh c.val).tm.role ≠ 0 → (s.canCh c.val).tm.missing ≠ 1 → Gives (.tmReferenceMissing c) s (fun t =>
    t.canCh c.val = { s.canCh c.val with tm := { (s.canCh c.val).tm with missing := (s.canCh c.val).tm.missing + 1 } } ∧
    Frame [.net] s t)) ∧
  (∀ (c : Fin 16) (s : State), (s.canCh c.val).tm.role ≠ 0 → (s.canCh c.val).tm.missing = 1 → Gives (.tmReferenceMissing c) s (fun t =>
    (t.canCh c.val).flags.tmLost = true ∧ (t.canCh c.val).tm.missing = 2 ∧ ((t.canCh c.val).tm.sending = true ↔
      ((s.canCh c.val).tm.sending = true ∨ ((s.canCh c.val).tm.role = 2 ∧ 1 ≤ (s.canCh c.val).tm.rank))) ∧
    Frame [.mbx, .log, .vz, .net] s t)) ∧
  (∀ (c : Fin 16) (s : State), (s.canCh c.val).waking = true → Gives (.canWakeConfirmTimeout c) s (fun t =>
    t.canCh c.val = { s.canCh c.val with waking := false, wakeUnconf := true, xcvr := .lowPower } ∧ Frame [.net] s t)) ∧
  (∀ (c : Fin 16) (s : State), (s.canCh c.val).waking = false → exec (.canWakeConfirmTimeout c) s = .next s)

/-- The CAN commands (R297, R298, R305, R307, R310, R313, R322, R324, Tables 11.3, 11.9, 11.10, 11.19); that a wake setting above 2 is
`ST_CAN_FEATURE` is the model's choice (log entry 81). -/
def Obligations.CanCommandsAct : Prop :=
  (∀ (s : State) (r : Req) (p : Port) (c : Byte) (f : CanRecord), Requested s r p 36 → c.toNat ≤ 15 → p.mayUse (s.canOwner c.toNat) →
    flagOf f.flags 7 = false → s.sys.mode.isRunLimpWork = true → (s.canCh c.toNat).mode = .stopped → f.wake.toNat ≤ 2 →
    canTimingOk f = true → s.canTxbTaken c.toNat f = false →
    Answers (.canConfig r c f) r 0x0901 stat_ok [] s (fun u =>
      u.canCh c.toNat = { s.canCh c.toNat with record := f, configured := true } ∧ (∀ j, j ≠ c.toNat → u.canCh j = s.canCh j) ∧
      Frame [.net] s u)) ∧
  (∀ (s : State) (r : Req) (p : Port) (c : Byte) (f : CanRecord), Requested s r p 36 → c.toNat ≤ 15 → p.mayUse (s.canOwner c.toNat) →
    flagOf f.flags 7 = false → s.sys.mode.isRunLimpWork = true → (s.canCh c.toNat).mode = .stopped → f.wake.toNat ≤ 2 →
    canTimingOk f = false → Answers (.canConfig r c f) r 0x0901 stat_canTiming [] s (fun u => u = s)) ∧
  (∀ (s : State) (r : Req) (p : Port) (c : Byte) (f : CanRecord), Requested s r p 36 → c.toNat ≤ 15 → p.mayUse (s.canOwner c.toNat) →
    flagOf f.flags 7 = false → s.sys.mode.isRunLimpWork = true → (s.canCh c.toNat).mode ≠ .stopped →
    Answers (.canConfig r c f) r 0x0901 stat_badState [] s (fun u => u = s)) ∧
  (∀ (s : State) (r : Req) (p : Port) (c : Byte), Requested s r p 4 → c.toNat ≤ 15 → p.mayUse (s.canOwner c.toNat) →
    s.sys.mode.isRunLimpWork = true → (s.canCh c.toNat).mode = .stopped →
    Answers (.canStart r c) r 0x0902 stat_ok [] s (fun u => (u.canCh c.toNat).mode = .integrating ∧
      (u.canCh c.toNat).xcvr = (if canListen (s.canCh c.toNat).record then .receiveOnly else .normal) ∧
      (s.nmOn c.toNat = true → (u.nmRing c.toNat).awake = true ∧ (u.nmRing c.toNat).join = true) ∧
      (∀ j, j ≠ c.toNat → u.canCh j = s.canCh j) ∧ Frame [.mbx, .log, .vz, .net] s u)) ∧
  (∀ (s : State) (r : Req) (p : Port) (c : Byte), Requested s r p 4 → c.toNat ≤ 15 → p.mayUse (s.canOwner c.toNat) →
    s.sys.mode.isRunLimpWork = true → (s.canCh c.toNat).mode ≠ .stopped →
    Answers (.canStart r c) r 0x0902 stat_badState [] s (fun u => u = s)) ∧
  (∀ (s : State) (r : Req) (p : Port) (c : Byte), Requested s r p 4 → c.toNat ≤ 15 → p.mayUse (s.canOwner c.toNat) →
    s.sys.mode.isRunLimpWork = true → (s.canCh c.toNat).mode ≠ .stopped → (s.canCh c.toNat).mode ≠ .busOff →
    (s.canCh c.toNat).stopping = none → (s.canCh c.toNat).attempt = none →
    Answers (.canStop r c) r 0x0903 stat_ok [] s (fun u => (u.canCh c.toNat).mode = .stopped ∧ (u.canCh c.toNat).pending = [] ∧
      (u.canCh c.toNat).xcvr = .receiveOnly ∧ (∀ e, e < 96 → ((u.canCh c.toNat).txE e).own = false) ∧
      (∀ j, j ≠ c.toNat → u.canCh j = s.canCh j) ∧ Frame [.vz, .net] s u)) ∧
  (∀ (s : State) (r : Req) (p : Port) (c : Byte) (a : CanAttempt), Requested s r p 4 → c.toNat ≤ 15 → p.mayUse (s.canOwner c.toNat) →
    s.sys.mode.isRunLimpWork = true → (s.canCh c.toNat).mode ≠ .stopped → (s.canCh c.toNat).mode ≠ .busOff →
    (s.canCh c.toNat).stopping = none → (s.canCh c.toNat).attempt = some a →
    Answers (.canStop r c) r 0x0903 stat_pending [] s (fun u =>
      u.canCh c.toNat = { s.canCh c.toNat with stopping := some (r.port, r.tag, r.seq) } ∧ Frame [.net] s u)) ∧
  (∀ (s : State) (r : Req) (p : Port) (c : Byte), Requested s r p 4 → c.toNat ≤ 15 → p.mayUse (s.canOwner c.toNat) →
    s.sys.mode.isRunLimpWork = true → (s.canCh c.toNat).mode = .busOff →
    Answers (.canStop r c) r 0x0903 stat_badState [] s (fun u => u = s) ∧
    Answers (.canRecover r c) r 0x0904 stat_ok [] s (fun u => u.canCh c.toNat = { s.canCh c.toNat with mode := .recovering } ∧
      Frame [.net] s u)) ∧
  (∀ (s : State) (r : Req) (p : Port) (c : Byte), Requested s r p 4 → c.toNat ≤ 15 → p.mayUse (s.canOwner c.toNat) →
    s.sys.mode.isRunLimpWork = true → (s.canCh c.toNat).mode ≠ .busOff →
    Answers (.canRecover r c) r 0x0904 stat_badState [] s (fun u => u = s)) ∧
  (∀ (s : State) (r : Req) (p : Port) (c k fl : Byte) (id mask : U32), Requested s r p 12 → c.toNat ≤ 15 → p.mayUse (s.canOwner c.toNat) →
    flagOf fl 3 = false → flagOf fl 7 = false → k.toNat ≤ 63 → id.toNat < 536870912 → mask.toNat < 536870912 →
    s.sys.mode.isRunLimpWork = true → (k.toNat ≠ 63 ∨ s.nmOn c.toNat = false) →
    Answers (.canSetFilter r c k fl id mask) r 0x0905 stat_ok [] s (fun u => (u.canCh c.toNat).filters =
      (s.canCh c.toNat).filters.set k.toNat (filterOf fl id mask) ∧ (u.canCh c.toNat).rx = (s.canCh c.toNat).rx ∧
      (∀ j, j ≠ c.toNat → u.canCh j = s.canCh j) ∧ Frame [.net] s u)) ∧
  (∀ (s : State) (r : Req) (p : Port) (c fl : Byte) (id mask : U32), Requested s r p 12 → c.toNat ≤ 15 → p.mayUse (s.canOwner c.toNat) →
    flagOf fl 3 = false → flagOf fl 7 = false → id.toNat < 536870912 → mask.toNat < 536870912 → s.sys.mode.isRunLimpWork = true →
    s.nmOn c.toNat = true → Answers (.canSetFilter r c 63 fl id mask) r 0x0905 stat_canReserved [] s (fun u => u = s)) ∧
  (∀ (s : State) (r : Req) (p : Port) (c dlc fl : Byte) (id mask : U32) (dm : U64), Requested s r p 20 → p.sysPriv = true → c.toNat ≤ 15 →
    fl.toNat ≤ 1 → dlc.toNat ≤ 8 → id.toNat < 536870912 → mask.toNat < 536870912 → s.sys.mode.isRunLimpWork = true →
    Answers (.canSetSieve r c dlc fl id mask dm) r 0x0906 stat_ok [] s (fun u => u.canCh c.toNat = { s.canCh c.toNat with
      sieve := { dlc := dlc, ide := flagOf fl 0, id := id, mask := mask, dataMask := le64 dm } } ∧
      (∀ j, j ≠ c.toNat → u.canCh j = s.canCh j) ∧ Frame [.net] s u)) ∧
  (∀ (s : State) (r : Req) (p : Port) (c e : Byte), Requested s r p 4 → c.toNat ≤ 15 → p.mayUse (s.canOwner c.toNat) → e.toNat ≤ 95 →
    s.sys.mode.isRunLimpWork = true → s.canSoftEntry c.toNat e.toNat = true → e.toNat ∈ (s.canCh c.toNat).pending →
    (s.canCh c.toNat).attempt = none →
    Answers (.canCancel r c e) r 0x0907 stat_ok [0, 0, 0, 0] s (fun u => e.toNat ∉ (u.canCh c.toNat).pending ∧
      ((u.canCh c.toNat).txE e.toNat).ctl = doneCtl ((s.canCh c.toNat).txE e.toNat).ctl canCancelled false ∧ Frame [.vz, .net] s u)) ∧
  (∀ (s : State) (r : Req) (p : Port) (c e : Byte), Requested s r p 4 → c.toNat ≤ 15 → p.mayUse (s.canOwner c.toNat) → e.toNat ≤ 95 →
    s.sys.mode.isRunLimpWork = true → s.canSoftEntry c.toNat e.toNat = true → e.toNat ∉ (s.canCh c.toNat).pending →
    Answers (.canCancel r c e) r 0x0907 stat_ok [2, 0, 0, 0] s (fun u => u = s)) ∧
  (∀ (s : State) (r : Req) (p : Port) (c role rank view : Byte) (base cycle : U16) (mc : Byte), Requested s r p 12 → p.sysPriv = true →
    c.toNat ≤ 15 → role.toNat ≤ 2 → rank.toNat ≤ 3 → 6 ≤ view.toNat → view.toNat ≤ 9 → base.toNat ≤ 0x7FF → 10 ≤ cycle.toNat →
    cycle.toNat ≤ 1000 → mc.toNat ≤ 63 → s.sys.mode.isRunLimpWork = true → (role.toNat = 0 ∨ s.tmBound c.toNat view.toNat = false) →
    Answers (.canTimeMaster r c role rank view base cycle mc) r 0x0908 stat_ok [] s (fun u => (u.canCh c.toNat).tm =
      { CanTm.off with role := role.toNat, rank := rank.toNat, view := view.toNat, base := base.toNat, cycle := cycle.toNat
                       maxCount := mc.toNat, sending := decide (role.toNat = 2) && decide (rank.toNat = 0) } ∧
      (∀ j, j ≠ c.toNat → u.canCh j = s.canCh j) ∧ Frame [.net] s u)) ∧
  (∀ (s : State) (r : Req) (p : Port) (c role rank view : Byte) (base cycle : U16) (mc : Byte), Requested s r p 12 → p.sysPriv = true →
    c.toNat ≤ 15 → 1 ≤ role.toNat → role.toNat ≤ 2 → rank.toNat ≤ 3 → 6 ≤ view.toNat → view.toNat ≤ 9 → base.toNat ≤ 0x7FF →
    10 ≤ cycle.toNat → cycle.toNat ≤ 1000 → mc.toNat ≤ 63 → s.sys.mode.isRunLimpWork = true → s.tmBound c.toNat view.toNat = true →
    Answers (.canTimeMaster r c role rank view base cycle mc) r 0x0908 stat_canTmView [] s (fun u => u = s)) ∧
  (∀ (s : State) (r : Req) (p : Port) (c : Byte), Requested s r p 4 → c.toNat ≤ 15 → p.mayUse (s.canOwner c.toNat) → s.step10 = true →
    Answers (.canGetStatus r c) r 0x0909 stat_ok (canStatus c.toNat s) s (fun u =>
      u.canCh c.toNat = { s.canCh c.toNat with wakeUnconf := false, sieveFs := false } ∧ Frame [.net] s u)) ∧
  (∀ (s : State) (r : Req) (p : Port) (c clear : Byte), Requested s r p 4 → c.toNat ≤ 15 → p.mayUse (s.canOwner c.toNat) →
    clear.toNat ≤ 1 → s.step10 = true →
    Answers (.canStats r c clear) r 0x090A stat_ok (s.canCh c.toNat).stats.bytes s (fun u =>
      (u.canCh c.toNat).stats = (if clear = 1 then .zero else (s.canCh c.toNat).stats) ∧ (u.canCh c.toNat).tx = (s.canCh c.toNat).tx ∧
      Frame [.net] s u))

/-- Network management (R298, R316 to R320, Tables 11.12, 11.13): the messages heard, the token's ways, sleep, T_MAX, and the NM commands. A ring
of one node passes the token to itself, which is the model's choice (log entry 83). -/
def Obligations.NetworkManagementActs : Prop :=
  (∀ (c : Fin 16) (id : BitVec 11) (dlc : Fin 16) (d : List Byte) (s : State),
    (s.nmOn c.val = false ∨ (s.nmRing c.val).awake = false) → exec (.nmMessageReceived c id dlc d) s = .next s) ∧
  (∀ (c : Fin 16) (id : BitVec 11) (dlc : Fin 16) (d : List Byte) (s : State), s.nmOn c.val = true → (s.nmRing c.val).awake = true →
    nmParse (s.nmRing c.val).record.base.toNat id.toNat dlc.val d = none →
    Gives (.nmMessageReceived c id dlc d) s (fun t =>
      t.nmRing c.val = { s.nmRing c.val with ignored := (s.nmRing c.val).ignored + 1 } ∧ Frame [.net] s t)) ∧
  (∀ (c : Fin 16) (id : BitVec 11) (dlc : Fin 16) (d : List Byte) (m : NmMsg) (s : State), s.nmOn c.val = true →
    (s.nmRing c.val).awake = true → nmParse (s.nmRing c.val).record.base.toNat id.toNat dlc.val d = some m →
    Gives (.nmMessageReceived c id dlc d) s (fun t => (t.nmRing c.val).present =
        ((s.nmRing c.val).present ||| u64Bit m.sender ||| u64Bit (s.nmRing c.val).me) ∧
      (m.sleepInd = true → (t.nmRing c.val).sleeping = true ∧ (t.nmRing c.val).holding = false) ∧
      (m.sleepInd = false → (s.nmRing c.val).sleeping = false → m.succ = some (s.nmRing c.val).me →
        (t.nmRing c.val).holding = true ∧ (t.nmRing c.val).roundConsent = m.roundConsent) ∧
      (m.sleepInd = true → m.override = true → (t.nmRing c.val).holders = [] ∧ (t.nmRing c.val).override = true) ∧
      (m.sleepInd = false → (s.nmRing c.val).sleeping = true → (s.nmRing c.val).override = false → m.consent = false →
        (t.nmRing c.val).sleeping = false) ∧
      (∀ j, j ≠ c.val → t.nmRing j = s.nmRing j) ∧ Frame [.mbx, .log, .vz, .net] s t)) ∧
  (∀ (c : Fin 16) (s : State), ((s.nmRing c.val).holding = false ∨ (s.nmRing c.val).sleeping = true) →
    exec (.nmTokenPass c) s = .next s) ∧
  (∀ (c : Fin 16) (k : Nat) (s : State), s.nmOn c.val = true → (s.nmRing c.val).holding = true → (s.nmRing c.val).sleeping = false →
    lowestNode (s.nmRing c.val).present ≠ some (s.nmRing c.val).me → ((s.canCh c.val).txE 31).own = false →
    k = ((nextNode (s.nmRing c.val).present (s.nmRing c.val).me).orElse (fun _ => lowestNode (s.nmRing c.val).present)).getD
      (s.nmRing c.val).me →
    Gives (.nmTokenPass c) s (fun t => (t.nmRing c.val).holding = false ∧ (t.nmRing c.val).awaited = some k ∧
      (t.nmRing c.val).round = (s.nmRing c.val).round ∧
      (((t.canCh c.val).txE 31).data.take 2 = [byteOf (s.nmRing c.val).me, byteOf k]) ∧ Frame [.vz, .net] s t)) ∧
  (∀ (c : Fin 16) (k : Nat) (s : State), s.nmOn c.val = true → (s.nmRing c.val).holding = true → (s.nmRing c.val).sleeping = false →
    lowestNode (s.nmRing c.val).present = some (s.nmRing c.val).me → (s.nmRing c.val).sleepNext = false →
    nextNode (s.nmRing c.val).present (s.nmRing c.val).me = some k →
    Gives (.nmTokenPass c) s (fun t => (t.nmRing c.val).holding = false ∧ (t.nmRing c.val).awaited = some k ∧
      (t.nmRing c.val).round = (s.nmRing c.val).round + 1 ∧
      (t.nmRing c.val).curConsent = (if s.nmConsent c.val then u64Bit (s.nmRing c.val).me else 0) ∧ Frame [.vz, .net] s t)) ∧
  (∀ (c : Fin 16) (s : State), s.nmOn c.val = true → (s.nmRing c.val).holding = true → (s.nmRing c.val).sleeping = false →
    lowestNode (s.nmRing c.val).present = some (s.nmRing c.val).me → (s.nmRing c.val).sleepNext = true →
    Gives (.nmTokenPass c) s (fun t => (t.nmRing c.val).sleeping = true ∧ (t.nmRing c.val).holding = false ∧
      (t.nmRing c.val).sleepNext = false ∧ Frame [.vz, .net] s t)) ∧
  (∀ (c : Fin 16) (s : State), (s.nmRing c.val).forming = false → exec (.nmFormingTimeout c) s = .next s) ∧
  (∀ (c : Fin 16) (s : State), s.nmOn c.val = true → (s.nmRing c.val).forming = true →
    Gives (.nmFormingTimeout c) s (fun t => (t.nmRing c.val).forming = false ∧
      (lowestNode (s.nmRing c.val).present ≠ some (s.nmRing c.val).me →
        t.nmRing c.val = { s.nmRing c.val with forming := false } ∧ t.net.can = s.net.can) ∧ Frame [.vz, .net] s t)) ∧
  (∀ (c : Fin 16) (s : State), ((s.nmRing c.val).awaited = none ∨ (s.nmRing c.val).sleeping = true) →
    exec (.nmHopTimeout c) s = .next s) ∧
  (∀ (c : Fin 16) (k : Nat) (s : State), (s.nmRing c.val).awaited = some k → s.nmOn c.val = true → (s.nmRing c.val).sleeping = false →
    Gives (.nmHopTimeout c) s (fun t => (t.nmRing c.val).present = (s.nmRing c.val).present &&& ~~~ (u64Bit k) ∧
      (t.nmRing c.val).round = (s.nmRing c.val).round ∧ Frame [.mbx, .log, .vz, .net] s t)) ∧
  (∀ (c : Fin 16) (s : State), ((s.nmRing c.val).awake = false ∨ (s.nmRing c.val).sleeping = true) →
    exec (.nmTokenLost c) s = .next s) ∧
  (∀ (c : Fin 16) (s : State), s.nmOn c.val = true → (s.nmRing c.val).awake = true → (s.nmRing c.val).sleeping = false →
    Gives (.nmTokenLost c) s (fun t => (t.nmRing c.val).forming = true ∧ (t.nmRing c.val).formed = false ∧
      (t.nmRing c.val).holding = false ∧ (t.nmRing c.val).present = u64Bit (s.nmRing c.val).me ∧ Frame [.vz, .net] s t)) ∧
  (∀ (c : Fin 16) (s : State), s.nmOn c.val = true → (s.nmRing c.val).sleeping = true → Gives (.nmSleepTimer c) s (fun t =>
    (t.nmRing c.val).awake = false ∧ (t.nmRing c.val).sleeping = false ∧ (t.canCh c.val).mode = .sleep ∧
    (t.canCh c.val).xcvr = .lowPower ∧ (t.canCh c.val).pending = [] ∧ Frame [.mbx, .log, .vz, .net] s t)) ∧
  (∀ (c : Fin 16) (s : State), (s.nmRing c.val).sleeping = false → exec (.nmSleepTimer c) s = .next s) ∧
  (∀ (c : Fin 16) (s : State), s.nmOn c.val = true → (s.nmRing c.val).coordRole = true → (s.nmRing c.val).awake = true →
    (s.nmRing c.val).sleeping = false → Gives (.nmTmaxExpiry c) s (fun t => (t.nmRing c.val).sleeping = true ∧
      (t.nmRing c.val).override = true ∧ (t.nmRing c.val).holders = [] ∧ (t.nmRing c.val).holding = false ∧
      Frame [.mbx, .log, .vz, .net] s t)) ∧
  (∀ (c : Fin 16) (s : State), (s.nmRing c.val).coordRole = false → exec (.nmTmaxExpiry c) s = .next s) ∧
  (∀ (s : State) (r : Req) (p : Port) (c : Byte) (f : NmRecord), Requested s r p 20 → p.sysPriv = true → c.toNat ≤ 15 →
    f.flags.toNat < 4 → nmRecordOk f = true → s.sys.mode.isRunLimpWork = true → (s.canCh c.toNat).mode = .stopped →
    (f.flags.getLsbD 0 = false ∨ s.nmTaken c.toNat = false) →
    Answers (.nmConfig r c f) r 0x0B01 stat_ok [] s (fun u => u.nmRing c.toNat = { NmRing.reset with
      record := f, coordRole := f.flags.getLsbD 1 && f.flags.getLsbD 0 } ∧ (∀ j, j ≠ c.toNat → u.nmRing j = s.nmRing j) ∧
      Frame [.net] s u)) ∧
  (∀ (s : State) (r : Req) (p : Port) (c : Byte) (f : NmRecord), Requested s r p 20 → p.sysPriv = true → c.toNat ≤ 15 →
    f.flags.toNat < 4 → nmRecordOk f = true → s.sys.mode.isRunLimpWork = true → (s.canCh c.toNat).mode ≠ .stopped →
    Answers (.nmConfig r c f) r 0x0B01 stat_badState [] s (fun u => u = s)) ∧
  (∀ (s : State) (r : Req) (p : Port) (c : Byte), Requested s r p 4 → c.toNat ≤ 15 → p.mayUse (s.canOwner c.toNat) →
    s.sys.mode.isRunLimpWork = true → s.nmOn c.toNat = true →
    Gives (.nmRequestAwake r c) s (fun t => ∃ u, t = respond r 0x0B02 stat_ok (bool8 (u.nmRing c.toNat).awake ++ zeros 3) u ∧
      awakeHolder r p ∈ (u.nmRing c.toNat).holders ∧ ((s.canCh c.toNat).mode = .sleep → (u.canCh c.toNat).mode = .integrating ∧
        (u.nmRing c.toNat).awake = true) ∧ Frame [.mbx, .log, .vz, .net] s u)) ∧
  (∀ (s : State) (r : Req) (p : Port) (c : Byte), Requested s r p 4 → c.toNat ≤ 15 → p.mayUse (s.canOwner c.toNat) →
    s.sys.mode.isRunLimpWork = true → s.nmOn c.toNat = true →
    Answers (.nmRelease r c) r 0x0B03 stat_ok [] s (fun u => awakeHolder r p ∉ (u.nmRing c.toNat).holders ∧
      (u.nmRing c.toNat).awake = (s.nmRing c.toNat).awake ∧ Frame [.net] s u)) ∧
  (∀ (s : State) (r : Req) (p : Port) (c : Byte), Requested s r p 4 → c.toNat ≤ 15 → p.mayUse (s.canOwner c.toNat) →
    s.sys.mode.isRunLimpWork = true → s.nmOn c.toNat = false →
    Answers (.nmRequestAwake r c) r 0x0B02 stat_nmOff [] s (fun u => u = s) ∧
    Answers (.nmRelease r c) r 0x0B03 stat_nmOff [] s (fun u => u = s)) ∧
  (∀ (s : State) (r : Req) (p : Port) (c : Byte) (m : U16), Requested s r p 4 → p.sysPriv = true → c.toNat ≤ 15 → 1 ≤ m.toNat →
    m.toNat ≤ 14400 → s.sys.mode.isRunLimpWork = true → s.nmOn c.toNat = true →
    Answers (.nmSetTmax r c m) r 0x0B04 stat_ok [] s (fun u => u.nmRing c.toNat = { s.nmRing c.toNat with
      record := { (s.nmRing c.toNat).record with tMax := m } } ∧ Frame [.net] s u)) ∧
  (∀ (s : State) (r : Req) (p : Port) (c : Byte), Requested s r p 4 → c.toNat ≤ 15 → s.step10 = true → s.nmOn c.toNat = true →
    Answers (.nmGetStatus r c) r 0x0B05 stat_ok (nmStatus c.toNat s) s (fun u => u = s))

/-- The LIN commanders (R326 to R332, Tables 11.14 to 11.16): slots and headers, the ends of frames, sleep, wake and bus faults, and the LIN
commands. -/
def Obligations.LinActs : Prop :=
  (∀ (l : Fin 16) (s : State), (s.powered (pdLin (l.val / 4)) = false ∨ ((s.linCh l.val).mode = .stopped ∧ (s.linCh l.val).diag = none)) →
    exec (.linSlotStart l) s = .next s) ∧
  (∀ (l : Fin 16) (e : LinEntry) (k : Nat) (s : State), s.powered (pdLin (l.val / 4)) = true → (s.linCh l.val).mode = .running →
    (s.linCh l.val).sleepReq = false → (s.linCh l.val).diag = none → (s.linCh l.val).back = none → (s.linCh l.val).select = none →
    k = (if (s.linCh l.val).next < ((s.linCh l.val).tables.getD [] (s.linCh l.val).table).length then (s.linCh l.val).next else 0) →
    ((s.linCh l.val).tables.getD [] (s.linCh l.val).table)[k]? = some e → e.typ = 0 →
    Gives (.linSlotStart l) s (fun t => (t.linCh l.val).slot = some ((s.linCh l.val).slotOf 0 (e.id.toNat % 64) s.tb.count) ∧
      (t.linCh l.val).entry = k ∧ (t.linCh l.val).next = k + 1 ∧ (t.linCh l.val).lastId = e.id.toNat % 64 ∧
      (t.linCh l.val).headers = (s.linCh l.val).headers + 1 ∧ (∀ j, j ≠ l.val → t.linCh j = s.linCh j) ∧ Frame [.net] s t)) ∧
  (∀ (l : Fin 16) (e : LinEntry) (s : State), s.powered (pdLin (l.val / 4)) = true → (s.linCh l.val).mode = .running →
    (s.linCh l.val).sleepReq = false → (s.linCh l.val).diag = none → (s.linCh l.val).back = none → (s.linCh l.val).select = none →
    ((s.linCh l.val).tables.getD [] (s.linCh l.val).table)[(s.linCh l.val).next]? = some e → e.typ = 2 →
    (s.linCh l.val).sporadic e.args = none →
    Gives (.linSlotStart l) s (fun t => (t.linCh l.val).slot = none ∧ (t.linCh l.val).headers = (s.linCh l.val).headers ∧
      (t.linCh l.val).next = (s.linCh l.val).next + 1 ∧ Frame [.net] s t)) ∧
  (∀ (l : Fin 16) (s : State), s.powered (pdLin (l.val / 4)) = true → (s.linCh l.val).mode = .running →
    (s.linCh l.val).sleepReq = true →
    Gives (.linSlotStart l) s (fun t => (t.linCh l.val).mode = .sleep ∧ (t.linCh l.val).sleepReq = false ∧
      (t.linCh l.val).slot = some { typ := 3, id := 60, publish := true, data := linGoToSleep, at_ := s.tb.count } ∧ Frame [.net] s t)) ∧
  (∀ (l : Fin 16) (d : LinDiag) (s : State), s.powered (pdLin (l.val / 4)) = true → (s.linCh l.val).sleepReq = false →
    (s.linCh l.val).diag = some d → d.ended = false → ((s.linCh l.val).mode = .running ∨ (s.linCh l.val).mode = .diag) →
    d.sent = false →
    Gives (.linSlotStart l) s (fun t => (t.linCh l.val).mode = .diag ∧ (t.linCh l.val).diag = some { d with sent := true } ∧
      (t.linCh l.val).slot = some { typ := 3, id := 60, publish := true, data := d.data, at_ := s.tb.count } ∧ Frame [.net] s t)) ∧
  (∀ (l : Fin 16) (k : Nat) (s : State), s.powered (pdLin (l.val / 4)) = true → (s.linCh l.val).mode = .running →
    (s.linCh l.val).sleepReq = false → (s.linCh l.val).diag = none → (s.linCh l.val).back = none → (s.linCh l.val).select = some k →
    k ≠ 255 → Gives (.linSlotStart l) s (fun t => (t.linCh l.val).table = k ∧ (t.linCh l.val).select = none ∧
      (t.linCh l.val).mode = .running ∧ Frame [.net] s t)) ∧
  (∀ (l : Fin 16) (res : Fin 6) (d : List Byte) (s : State), (s.linCh l.val).slot = none → exec (.linFrameEnd l res d) s = .next s) ∧
  (∀ (l : Fin 16) (res : Fin 6) (d : List Byte) (x : LinSlot) (s : State), (s.linCh l.val).slot = some x →
    Gives (.linFrameEnd l res d) s (fun t => (t.linCh l.val).slot = none ∧ (t.linCh l.val).lastResult = res.val ∧
      ((t.linCh l.val).frame x.id).status = (linStatus ((s.linCh l.val).frame x.id) res.val).status ∧
      ((t.linCh l.val).frame x.id).half0 = ((s.linCh l.val).frame x.id).half0 ∧
      (x.publish = false → res.val = 1 → (t.linCh l.val).noResponse = (s.linCh l.val).noResponse + 1 ∧
        (t.linCh l.val).flags.noResp = true) ∧
      (x.publish = false → res.val = 2 → (t.linCh l.val).chkErrors = (s.linCh l.val).chkErrors + 1) ∧
      (x.typ = 1 → res.val = 5 → (t.linCh l.val).back = some ((s.linCh l.val).table, (s.linCh l.val).next) ∧ (t.linCh l.val).next = 0) ∧
      (∀ j, j ≠ l.val → t.linCh j = s.linCh j) ∧ Frame [.mbx, .log, .vz, .net, .sig] s t)) ∧
  (∀ (l : Fin 16) (d : List Byte) (x : LinSlot) (s : State), (s.linCh l.val).slot = some x → x.publish = false → x.typ = 0 →
    ((s.linCh l.val).frame x.id).dir = 2 → ((s.linCh l.val).frame x.id).rxEn = true → s.linOwner l.val = none →
    ((s.linCh l.val).rx.getD .reset (s.linCh l.val).rxFill).word.getLsbD 31 = true →
    Gives (.linFrameEnd l 0 d) s (fun t => (t.linCh l.val).rx.get? (s.linCh l.val).rxFill = some (linRxEntry (s.linCh l.val) x 0 d 0) ∧
      (t.linCh l.val).rxFill = ((s.linCh l.val).rxFill + 1) % 64 ∧ (t.linCh l.val).rxLost = (s.linCh l.val).rxLost)) ∧
  (∀ (l : Fin 16) (s : State), Gives (.linRxOverrunEnd l) s (fun t => t.linCh l.val = { s.linCh l.val with episode := false } ∧
    (∀ j, j ≠ l.val → t.linCh j = s.linCh j) ∧ Frame [.net] s t)) ∧
  (∀ (l : Fin 16) (s : State), (s.linCh l.val).mode = .waking → Gives (.linWakeScheduleStart l) s (fun t =>
    t.linCh l.val = { s.linCh l.val with mode := .running, next := 0, slot := none, back := none } ∧ Frame [.net] s t)) ∧
  (∀ (l : Fin 16) (s : State), (s.linCh l.val).mode ≠ .waking → exec (.linWakeScheduleStart l) s = .next s) ∧
  (∀ (l : Fin 16) (s : State), (s.linCh l.val).mode = .sleep → flagOf (s.linCh l.val).record.flags 1 = true →
    s.powered (pdLin (l.val / 4)) = true → Gives (.linResponderWake l) s (fun t => (t.linCh l.val).mode = .waking ∧
      (t.linCh l.val).flags.wakeRx = true ∧ Frame [.mbx, .log, .vz, .net] s t)) ∧
  (∀ (l : Fin 16) (s : State), ((s.linCh l.val).mode ≠ .sleep ∨ flagOf (s.linCh l.val).record.flags 1 = false) →
    exec (.linResponderWake l) s = .next s) ∧
  (∀ (l : Fin 16) (s : State), ((s.linCh l.val).mode = .running ∨ (s.linCh l.val).mode = .diag ∨ (s.linCh l.val).mode = .waking) →
    Gives (.linBusFault l) s (fun t => (t.linCh l.val).mode = .busFault ∧ (t.linCh l.val).slot = none ∧
      (t.linCh l.val).flags.busFault = true ∧ (∀ d, (t.linCh l.val).diag = some d → d.ended = true) ∧
      Frame [.mbx, .log, .vz, .net] s t)) ∧
  (∀ (l : Fin 16) (s : State), ((s.linCh l.val).mode = .stopped ∨ (s.linCh l.val).mode = .sleep) →
    exec (.linBusFault l) s = .next s ∧ exec (.linBusFaultEnd l) s = .next s) ∧
  (∀ (l : Fin 16) (s : State), (s.linCh l.val).mode = .busFault → Gives (.linBusFaultEnd l) s (fun t =>
    (t.linCh l.val).mode = .running ∧ (t.linCh l.val).next = 0 ∧ Frame [.mbx, .log, .vz, .net] s t)) ∧
  (∀ (v : Fin 256) (l : Fin 16) (s : State), s.linBlock v.val l.val = true → Gives (.linRxLostRead v l) s (fun t =>
    t.bus = BitVec.ofNat 64 (s.linCh l.val).rxLost ∧ t.linCh l.val = { s.linCh l.val with rxLost := 0 } ∧ Frame [.net, .bus] s t)) ∧
  (∀ (v : Fin 256) (l : Fin 16) (s : State), s.linBlock v.val l.val = false →
    exec (.linRxLostRead v l) s = .next (windowFault v.val s)) ∧
  (∀ (s : State) (r : Req) (p : Port) (l : Byte) (f : LinRecord), Requested s r p 12 → l.toNat ≤ 15 → p.mayUse (s.linOwner l.toNat) →
    f.flags.toNat < 4 → linRecordOk f = true → s.sys.mode.isRunLimpWork = true →
    ((s.linCh l.toNat).mode = .stopped ∨ (s.linCh l.toNat).mode = .sleep) →
    Answers (.linConfig r l f) r 0x0A01 stat_ok [] s (fun u =>
      u.linCh l.toNat = { s.linCh l.toNat with record := f, configured := true } ∧ (∀ j, j ≠ l.toNat → u.linCh j = s.linCh j) ∧
      Frame [.net] s u)) ∧
  (∀ (s : State) (r : Req) (p : Port) (l : Byte) (f : LinRecord), Requested s r p 12 → l.toNat ≤ 15 → p.mayUse (s.linOwner l.toNat) →
    f.flags.toNat < 4 → linRecordOk f = true → s.sys.mode.isRunLimpWork = true → (s.linCh l.toNat).mode = .running →
    Answers (.linConfig r l f) r 0x0A01 stat_badState [] s (fun u => u = s)) ∧
  (∀ (s : State) (r : Req) (p : Port) (l k : Byte) (n : U16) (es : List LinEntry), Requested s r p (4 + 8 * n.toNat) →
    es.length = n.toNat → l.toNat ≤ 15 → p.mayUse (s.linOwner l.toNat) → es.all linEntryZero = true → k.toNat ≤ 3 → 1 ≤ n.toNat →
    n.toNat ≤ 64 → es.all linEntryRange = true → s.sys.mode.isRunLimpWork = true → (s.linCh l.toNat).mode = .stopped →
    es.all (linDelayOk (s.linCh l.toNat)) = true → (∀ e ∈ es, ¬(e.typ = 1 ∧ (e.args.getD 0 0).toNat = k.toNat)) →
    Answers (.linLoadSchedule r l k n es) r 0x0A02 stat_ok [] s (fun u =>
      u.linCh l.toNat = { s.linCh l.toNat with tables := (s.linCh l.toNat).tables.set k.toNat es } ∧ Frame [.net] s u)) ∧
  (∀ (s : State) (r : Req) (p : Port) (l k : Byte) (n : U16) (es : List LinEntry), Requested s r p (4 + 8 * n.toNat) →
    es.length = n.toNat → l.toNat ≤ 15 → p.mayUse (s.linOwner l.toNat) → es.all linEntryZero = true → k.toNat ≤ 3 → 1 ≤ n.toNat →
    n.toNat ≤ 64 → es.all linEntryRange = true → s.sys.mode.isRunLimpWork = true → (s.linCh l.toNat).mode = .stopped →
    es.all (linDelayOk (s.linCh l.toNat)) = false →
    Answers (.linLoadSchedule r l k n es) r 0x0A02 stat_linTable [] s (fun u => u = s)) ∧
  (∀ (s : State) (r : Req) (p : Port) (l k : Byte), Requested s r p 4 → l.toNat ≤ 15 → p.mayUse (s.linOwner l.toNat) → k.toNat ≤ 3 →
    s.sys.mode.isRunLimpWork = true → (s.linCh l.toNat).mode = .stopped →
    Answers (.linSelectSchedule r l k) r 0x0A03 stat_ok [] s (fun u => u.linCh l.toNat = { s.linCh l.toNat with
      table := k.toNat, mode := .running, next := 0, slot := none, back := none } ∧ Frame [.net] s u)) ∧
  (∀ (s : State) (r : Req) (p : Port) (l k : Byte), Requested s r p 4 → l.toNat ≤ 15 → p.mayUse (s.linOwner l.toNat) →
    (k.toNat ≤ 3 ∨ k = 0xFF) → s.sys.mode.isRunLimpWork = true → (s.linCh l.toNat).mode = .running →
    Answers (.linSelectSchedule r l k) r 0x0A03 stat_ok [] s (fun u => u.linCh l.toNat = { s.linCh l.toNat with
      select := some k.toNat } ∧ Frame [.net] s u)) ∧
  (∀ (s : State) (r : Req) (p : Port) (l k : Byte), Requested s r p 4 → l.toNat ≤ 15 → p.mayUse (s.linOwner l.toNat) →
    (k.toNat ≤ 3 ∨ k = 0xFF) → s.sys.mode.isRunLimpWork = true → (s.linCh l.toNat).mode = .sleep →
    Answers (.linSelectSchedule r l k) r 0x0A03 stat_linAsleep [] s (fun u => u = s) ∧
    Answers (.linSleep r l) r 0x0A05 stat_linAsleep [] s (fun u => u = s)) ∧
  (∀ (s : State) (r : Req) (p : Port) (l : Byte), Requested s r p 4 → l.toNat ≤ 15 → p.mayUse (s.linOwner l.toNat) →
    s.sys.mode.isRunLimpWork = true → (s.linCh l.toNat).mode = .sleep →
    Answers (.linWake r l) r 0x0A04 stat_ok [] s (fun u => u.linCh l.toNat = { s.linCh l.toNat with mode := .waking, slot := none } ∧
      Frame [.net] s u)) ∧
  (∀ (s : State) (r : Req) (p : Port) (l : Byte), Requested s r p 4 → l.toNat ≤ 15 → p.mayUse (s.linOwner l.toNat) →
    s.sys.mode.isRunLimpWork = true → (s.linCh l.toNat).mode ≠ .sleep →
    Answers (.linWake r l) r 0x0A04 stat_badState [] s (fun u => u = s)) ∧
  (∀ (s : State) (r : Req) (p : Port) (l : Byte), Requested s r p 4 → l.toNat ≤ 15 → p.mayUse (s.linOwner l.toNat) →
    s.sys.mode.isRunLimpWork = true → (s.linCh l.toNat).mode = .running →
    Answers (.linSleep r l) r 0x0A05 stat_ok [] s (fun u => u.linCh l.toNat = { s.linCh l.toNat with sleepReq := true } ∧
      Frame [.net] s u)) ∧
  (∀ (s : State) (r : Req) (p : Port) (l w : Byte) (d : U64), Requested s r p 12 → l.toNat ≤ 15 → p.mayUse (s.linOwner l.toNat) →
    w.toNat ≤ 32 → s.sys.mode.isRunLimpWork = true → (s.linCh l.toNat).mode = .running → (s.linCh l.toNat).diag = none →
    Answers (.linDiag r l w d) r 0x0A06 stat_pending [] s (fun u => u.linCh l.toNat = { s.linCh l.toNat with
      diag := some { port := r.port, tag := r.tag, reqSeq := r.seq, data := le64 d, wanted := w.toNat, sent := false, ended := false
                     fromStop := false, got := [] } } ∧ Frame [.net] s u)) ∧
  (∀ (s : State) (r : Req) (p : Port) (l w : Byte) (d : U64), Requested s r p 12 → l.toNat ≤ 15 → p.mayUse (s.linOwner l.toNat) →
    w.toNat ≤ 32 → s.sys.mode.isRunLimpWork = true → (s.linCh l.toNat).mode = .running → (s.linCh l.toNat).diag.isSome = true →
    Answers (.linDiag r l w d) r 0x0A06 stat_busy [] s (fun u => u = s)) ∧
  (∀ (l : Fin 16) (d : LinDiag) (s : State), (s.linCh l.val).diag = some d → d.ended = true → Gives (.linDiagDone l) s (fun t =>
    ∃ u, t = complete d.port d.reqSeq d.tag 0x0A06 stat_ok ([byteOf d.got.length] ++ zeros 7 ++ d.got.flatMap LinRx.bytes) u ∧
      (u.linCh l.val).diag = none ∧ ((s.linCh l.val).mode = .diag → (u.linCh l.val).mode = if d.fromStop then .stopped else .running) ∧
      Frame [.net] s u)) ∧
  (∀ (l : Fin 16) (s : State), (s.linCh l.val).diag = none → exec (.linDiagDone l) s = .next s) ∧
  (∀ (s : State) (r : Req) (p : Port) (l : Byte), Requested s r p 4 → l.toNat ≤ 15 → p.mayUse (s.linOwner l.toNat) → s.step10 = true →
    Answers (.linGetStatus r l) r 0x0A07 stat_ok (linStatusBytes l.toNat s) s (fun u => u = s))

/-- Windows and registers (R10, R11, R87, R302, R303, R327, R328, R398, R412): an access to an unmapped slot counts as a fault and reads 0, and
a write of a register changes its own fields alone or, where hardware owns the entry, sets `OWN_ERR`. -/
def Obligations.RegisterWritesAct : Prop :=
  (∀ (v : Fin 256) (o : U16) (s : State), s.winMapped v.val o.toNat = false →
    Gives (.windowUnmappedAccess v o) s (fun t => (t.mbx.wins.getD .reset v.val).fault = true ∧
      (t.mbx.wins.getD .reset v.val).faultCount = satInc 0xFFFF (s.mbx.wins.getD .reset v.val).faultCount ∧ t.bus = 0 ∧
      (∀ k, k ≠ v.val → t.mbx.wins.getD .reset k = s.mbx.wins.getD .reset k) ∧ Frame [.mbx, .log, .vz, .bus] s t)) ∧
  (∀ (v : Fin 256) (o : U16) (s : State), s.winMapped v.val o.toNat = true → exec (.windowUnmappedAccess v o) s = .next s) ∧
  (∀ (v : Fin 256) (o : U16) (w : U32) (s : State), s.winMapped v.val o.toNat = false →
    exec (.registerWrite (.window v o) w) s = .next (windowFault v.val s)) ∧
  (∀ (v : Fin 256) (o : U16) (w : U32) (s : State), s.winMapped v.val o.toNat = true → 0xE400 ≤ o.toNat → o.toNat < 0xE800 →
    Gives (.registerWrite (.window v o) w) s (fun t =>
      (t.vzf v.val).binds.get? ((o.toNat - 0xE400) / 4) = some { en := w.getLsbD 31, vec := bits w 0 6 } ∧
      (t.vzf v.val).vectors = (s.vzf v.val).vectors ∧ (∀ k, k ≠ v.val → t.vzf k = s.vzf k) ∧ Frame [.vz] s t)) ∧
  (∀ (v : Fin 256) (o : U16) (w : U32) (x : EvVector) (s : State), s.winMapped v.val o.toNat = true → 0xE000 ≤ o.toNat → o.toNat < 0xE400 →
    o.toNat % 16 = 0 → x = (s.vzf v.val).vectors.getD .reset ((o.toNat - 0xE000) / 16) → x.pend = false →
    Gives (.registerWrite (.window v o) w) s (fun t =>
      (t.vzf v.val).vectors.get? ((o.toNat - 0xE000) / 16) = some { x with addrLo := w } ∧
      (∀ k, k ≠ v.val → t.vzf k = s.vzf k) ∧ Frame [.vz] s t)) ∧
  (∀ (o : BitVec 12) (w : U32) (s : State), exec (.registerWrite (.statusPage o) w) s = .next s) ∧
  (∀ (c : Fin 16) (e : Fin 512) (k : Fin 24) (w : U32) (s : State), k.val ≠ 0 → ((s.canCh c.val).rxE e.val).own = false →
    Gives (.registerWrite (.canEntry c true e k) w) s (fun t => (t.canCh c.val).rxE e.val = ((s.canCh c.val).rxE e.val).putField k.val w ∧
      (∀ j, j ≠ e.val → (t.canCh c.val).rxE j = (s.canCh c.val).rxE j) ∧ (t.canCh c.val).tx = (s.canCh c.val).tx ∧ Frame [.net] s t)) ∧
  (∀ (c : Fin 16) (e : Fin 512) (k : Fin 24) (w : U32) (s : State), k.val ≠ 0 → ((s.canCh c.val).rxE e.val).own = true →
    Gives (.registerWrite (.canEntry c true e k) w) s (fun t => (t.canCh c.val).rx = (s.canCh c.val).rx ∧
      (t.canCh c.val).flags.ownErr = true ∧ Frame [.net] s t)) ∧
  (∀ (c : Fin 16) (e : Fin 512) (k : Fin 24) (w : U32) (s : State), k.val ≠ 0 → e.val ≤ 95 → s.canSoftEntry c.val e.val = true →
    ((s.canCh c.val).txE e.val).own = false →
    Gives (.registerWrite (.canEntry c false e k) w) s (fun t =>
      (t.canCh c.val).txE e.val = ((s.canCh c.val).txE e.val).putField k.val w ∧
      (∀ j, j ≠ e.val → (t.canCh c.val).txE j = (s.canCh c.val).txE j) ∧ (t.canCh c.val).rx = (s.canCh c.val).rx ∧ Frame [.net] s t)) ∧
  (∀ (c : Fin 16) (b : Fin 64) (k : Fin 512) (w : U32) (s : State), (s.canCh c.val).xlOwned b.val = false →
    Gives (.registerWrite (.canXl c b k) w) s (fun t => (t.canCh c.val).xlb.get? b.val =
        some (putWord 2048 ((s.canCh c.val).xlb.getD [] b.val) (4 * k.val) w) ∧
      (∀ j, j ≠ b.val → (t.canCh c.val).xlb.get? j = (s.canCh c.val).xlb.get? j) ∧ Frame [.net] s t)) ∧
  (∀ (c : Fin 16) (b : Fin 64) (k : Fin 512) (w : U32) (s : State), (s.canCh c.val).xlOwned b.val = true →
    Gives (.registerWrite (.canXl c b k) w) s (fun t => (t.canCh c.val).xlb = (s.canCh c.val).xlb ∧ (t.canCh c.val).flags.ownErr = true ∧
      Frame [.net] s t)) ∧
  (∀ (l : Fin 16) (id : Fin 64) (k : Fin 8) (w : U32) (s : State), id.val < 60 →
    Gives (.registerWrite (.linFrame l id k) w) s (fun t => (t.linCh l.val).frame id.val = ((s.linCh l.val).frame id.val).putField k.val w ∧
      (∀ j, j ≠ id.val → (t.linCh l.val).frame j = (s.linCh l.val).frame j) ∧ Frame [.net] s t)) ∧
  (∀ (l : Fin 16) (id : Fin 64) (k : Fin 8) (w : U32) (s : State), 60 ≤ id.val → exec (.registerWrite (.linFrame l id k) w) s = .next s) ∧
  (∀ (l : Fin 16) (e : Fin 64) (k : Fin 4) (w : U32) (s : State), ((s.linCh l.val).rx.getD .reset e.val).word.getLsbD 31 = false →
    Gives (.registerWrite (.linRx l e k) w) s (fun t =>
      (t.linCh l.val).rx.get? e.val = some (((s.linCh l.val).rx.getD .reset e.val).putField k.val w) ∧ Frame [.net] s t)) ∧
  (∀ (l : Fin 16) (e : Fin 64) (k : Fin 4) (w : U32) (s : State), ((s.linCh l.val).rx.getD .reset e.val).word.getLsbD 31 = true →
    Gives (.registerWrite (.linRx l e k) w) s (fun t => (t.linCh l.val).rx = (s.linCh l.val).rx ∧ (t.linCh l.val).flags.ownErr = true ∧
      Frame [.net] s t)) ∧
  (∀ (p : Fin 4) (w : U32) (s : State), Gives (.registerWrite (.safCsr p 0x7C1) w) s (fun t =>
    t.pair p.val = { s.pair p.val with xstk := { (s.pair p.val).xstk with msp := w } } ∧ (∀ q, q ≠ p.val → t.pair q = s.pair q) ∧
    Frame [.saf] s t)) ∧
  (∀ (p : Fin 4) (w : U32) (s : State), Gives (.registerWrite (.safCsr p 0x7C0) w) s (fun t =>
    t.pair p.val = { s.pair p.val with xstk := { (s.pair p.val).xstk with en := w.getLsbD 31, fpLazy := w.getLsbD 0 } } ∧
    Frame [.saf] s t)) ∧
  (∀ (p : Fin 4) (k : Fin 131072) (w : U32) (s : State), Memory.wf (s.pair p.val).tcm = true →
    Gives (.registerWrite (.tcm p k) w) s (fun t => memRead32 (t.pair p.val).tcm (tcmBase + 4 * k.val) = w ∧
      (∀ a, (a < tcmBase + 4 * k.val ∨ tcmBase + 4 * k.val + 4 ≤ a) → memGet (t.pair p.val).tcm a = memGet (s.pair p.val).tcm a) ∧
      (t.pair p.val).xstk = (s.pair p.val).xstk ∧ (∀ q, q ≠ p.val → t.pair q = s.pair q) ∧ Frame [.saf] s t))

/-- The queue: the command at the front takes effect with the queue's rest. -/
def Obligations.StepTakesTheFrontCommand : Prop :=
  ∀ (c : Instr) (rest : List Instr) (s : State), s.pending = c :: rest → step s = exec c { s with pending := rest }

/-- What stands for a tick of the clock (DESIGN CHOICE, log entry 2): on an empty queue the
block advances `TB_COUNT` by one period of the clock that drives it while `PD_TB` is powered, and does nothing else than count the
heartbeat of the status page, signal source 1 of the running cluster's APLIC at its update and end the wake's count from the always-on clock
(R47, R86, R388). The harts, the APLIC domains and the IMSIC files stand at their reset values when the cluster boots (R387, R388; log
entries 141 and 142). -/
def Obligations.IdleStepTicks : Prop :=
  (∀ s : State, s.pending = [] → s.tbPowered = false → step s = .next s) ∧
  (∀ s : State, s.pending = [] → s.tbPowered = true → ∃ t, step s = .next t ∧
    t.tb.count = s.tb.count + BitVec.ofNat 64 s.advance.1 ∧ t.tb.bivFrac = s.advance.2 ∧
    t.sys.heartbeat = (if s.beats s.advance.1 then s.sys.heartbeat + 1 else s.sys.heartbeat) ∧
    t.sys.fromBivouac = (s.sys.fromBivouac && !s.aonEnds) ∧
    t.sys.app = (if s.beats s.advance.1 && s.appOn then s.sys.app.pageUpdate else s.sys.app) ∧
    { t.sys with heartbeat := s.sys.heartbeat, fromBivouac := s.sys.fromBivouac, app := s.sys.app } = s.sys ∧
    { t.tb with count := s.tb.count, bivFrac := s.tb.bivFrac } = s.tb ∧ Frame [.sys, .tb] s t) ∧
  (∀ a : AppState, a.machine.ie = false → a.machine.active.getLsbD 1 = true → a.supervisor.active.getLsbD 1 = false →
    a.supervisor.pend.getLsbD 1 = false → a.pageUpdate = { a with machine := { a.machine with pend := a.machine.pend ||| 2 } }) ∧
  (∀ (a : AppState) (h f id : Nat), a.machine.ie = true → a.machine.active.getLsbD 1 = true → a.machine.en.getLsbD 1 = true →
    a.machine.target.get? 1 = some (h, f, id) → 1 ≤ id → id ≤ 255 → a.supervisor.active.getLsbD 1 = false →
    a.supervisor.pend.getLsbD 1 = false →
    a.pageUpdate.machine = { a.machine with pend := a.machine.pend &&& 0xFFFFFFFFFFFFFFFD } ∧ a.pageUpdate.supervisor = a.supervisor ∧
    (a.pageUpdate.imsic.getD .reset (16 * h + f)).pend.getLsbD id = true ∧
    (∀ k, k ≠ 16 * h + f → a.pageUpdate.imsic.getD .reset k = a.imsic.getD .reset k) ∧ a.pageUpdate.harts = a.harts) ∧
  (AppState.reset.harts.length = 8 ∧ (∀ h, h < 8 → AppState.reset.harts[h]? = some (AppHart.reset h)) ∧
    (∀ k, AppState.reset.imsic.getD .reset k = .reset) ∧ AppState.reset.machine.active = 0 ∧ AppState.reset.supervisor.active = 0)

/-- Every command completes: it has a next state in every state, and it leaves the queue alone. What the next state is, the other
statements say. -/
def Obligations.EveryCommandCompletes : Prop :=
  ∀ (c : Instr) (s : State), ∃ t, exec c s = .next t ∧ t.pending = s.pending

/-- R72, for a command that the manager knows: the checks come in the order header version, payload length, privilege, reserved fields and
payload content, mode, and then the command itself; the first that fails sets the status, with no data and no effect of the command. -/
def Obligations.ChecksComeInTheOrderOfR72 : Prop :=
  ∀ (r : Req) (c : Cmd) (body : Port → State → State × Reply) (s : State) (p : Port), s.port? r.port = some p →
    (r.version ≠ 1 → runCmd r c body s = respond r c.code stat_badVersion [] s) ∧
    (r.version = 1 → c.lenOk = false → runCmd r c body s = respond r c.code stat_badLength [] s) ∧
    (∀ st, r.version = 1 → c.lenOk = true → c.need.check p = some st → runCmd r c body s = respond r c.code st [] s) ∧
    (r.version = 1 → c.lenOk = true → c.need.check p = none → r.resvZero = false →
      runCmd r c body s = respond r c.code stat_badPayload [] s) ∧
    (∀ st, r.version = 1 → c.lenOk = true → c.need.check p = none → r.resvZero = true → c.payload = some st →
      runCmd r c body s = respond r c.code st [] s) ∧
    (r.version = 1 → c.lenOk = true → c.need.check p = none → r.resvZero = true → c.payload = none → c.modeOk = false →
      runCmd r c body s = respond r c.code stat_badMode [] s) ∧
    (r.version = 1 → c.lenOk = true → c.need.check p = none → r.resvZero = true → c.payload = none → c.modeOk = true →
      runCmd r c body s = respond r c.code (body p s).2.status (body p s).2.data (body p s).1) ∧
    (p.sysPriv = true → ∀ n : Need, n.check p = none) ∧
    (p.sysPriv = false → Need.system.check p = some stat_denied ∧ (Need.owner none).check p = some stat_denied ∧
      (∀ v, p.vzf = some v → (Need.owner (some v)).check p = none) ∧
      (∀ v, p.vzf ≠ some v → (Need.owner (some v)).check p = some stat_notOwner))

/-- The block before the first supply: Off (`MGR_MODE` with the reset value of Table 3.12, as Off never shows, R27), unpowered and waiting for a power-on reset, `TB_COUNT` 0 (R368), no command waiting, no port
open, no self-arrest, the VIN pair open, and its buffers in canonical form. -/
def Obligations.ResetLeavesTheModuleOff : Prop :=
  State.reset.sys.mode = .off ∧ State.reset.sys.phase = .unpowered ∧ State.reset.sys.porPending = true ∧ State.reset.tb.count = 0 ∧
  State.reset.pending = [] ∧ (∀ n, State.reset.port? n = none) ∧ State.reset.rfx.arrested = false ∧ State.reset.brg.pairOn = false ∧
  State.reset.mgrUp = false ∧ bits State.reset.modeWord 28 4 = 1 ∧ State.reset.Canonical

/-- Every step, with a command or without, keeps every addressed buffer of the block in its canonical form, so that equal buffers are equal
data. -/
def Obligations.StepKeepsTheBuffersCanonical : Prop :=
  ∀ s t : State, s.Canonical → step s = .next t → t.Canonical

/-- R213 and R30: "Self-arrest ends only at a restart". While the logic runs, no step ends a self-arrest; a step after which it no longer
holds has stopped the logic. -/
def Obligations.SelfArrestLastsWhileTheLogicRuns : Prop :=
  ∀ s t : State, s.rfx.arrested = true → s.sys.phase = .running → step s = .next t →
    t.rfx.arrested = true ∨ t.sys.phase ≠ .running

/-- R441: the minimum security version of a class never falls. -/
def Obligations.SecurityMinimaNeverFall : Prop :=
  ∀ (s t : State) (cls : Nat), step s = .next t → s.minimum cls ≤ t.minimum cls

/-- R368 and Table 13.1: `TB_COUNT` starts at 0 when `PD_TB` powers up after a power-on reset, keeps its value through every command
otherwise, also where its source changes, and advances at each period as its clock state says; short of 2^64 it never decreases. -/
def Obligations.TimeBaseCountsAsTable13_1 : Prop :=
  (∀ (f : StartFacts) (s : State), s.sys.phase = .waiting → s.sys.mode = .startup → s.sys.dieHot = false → s.sys.porPending = true →
    Gives (.resetRelease f) s (fun t => t.tb.count = 0)) ∧
  (∀ (c : Instr) (s t : State), exec c s = .next t →
    t.tb.count = s.tb.count ∨ (t.tb.count = 0 ∧ s.sys.porPending = true ∧ ∃ f, c = .resetRelease f)) ∧
  (∀ s : State, s.pending = [] → s.sys.phase ≠ .unpowered → s.sys.bivouac ≠ .asleep → s.sys.fromBivouac = false →
    s.sys.rootLock = true → s.sys.onRef = false → ∃ t, step s = .next t ∧ t.tb.count = s.tb.count + 1) ∧
  (∀ s : State, s.pending = [] → s.sys.phase ≠ .unpowered → s.sys.bivouac ≠ .asleep → s.sys.fromBivouac = false →
    s.sys.onRef = true → ∃ t, step s = .next t ∧ t.tb.count = s.tb.count + 24) ∧
  (∀ s : State, s.pending = [] → s.sys.phase ≠ .unpowered → s.sys.bivouac = .asleep ∨ s.sys.fromBivouac = true →
    ∃ t, step s = .next t ∧ t.tb.count = s.tb.count + 18310 + (if 64 ≤ s.tb.bivFrac + 35 then 1 else 0) ∧
      t.tb.bivFrac = if 64 ≤ s.tb.bivFrac + 35 then s.tb.bivFrac + 35 - 64 else s.tb.bivFrac + 35) ∧
  (∀ s t : State, s.tb.count.toNat + 18311 < 2 ^ 64 → step s = .next t →
    (∀ f rest, s.pending = .resetRelease f :: rest → s.sys.porPending = false) → s.tb.count.toNat ≤ t.tb.count.toNat)

/-- R428, R430 and R432: the content and the state of the key slots change only through `KEY.PROVISION` and `KEY.ERASE_SLOT`, over the ring
or as the Gyvin routine over CAN0, and through the check of the tags at a start, at the end of the wait for the root PLL or at forced
Basecamp. -/
def Obligations.KeySlotsChangeOnlyByTheirCommands : Prop :=
  ∀ (c : Instr) (s t : State), exec c s = .next t → t.key.slots ≠ s.key.slots →
    (∃ r f, c = .keyProvision r f) ∨ (∃ r n k g, c = .keyEraseSlot r n k g) ∨ (∃ a b g, c = .udsRoutineControl a b g) ∨
    c = .rootPllLock ∨ c = .pllLockTimeout ∨ c = .forcedBasecampCheck

/-- R399 and R400: with `EN` set a trap stacks on the machine stack pointer from U-mode and on `sp` from M-mode. The pointer must be a
multiple of 16 with 80 bytes of one writable TCM region below it; then the 20 words of Table 14.10 are written there, `sp` points at them
and the handler runs. `mret` takes the 18 registers and `sp` back from a frame in one readable region; a frame that fails is a stacking
fault with `REASON` 4. -/
def Obligations.TrapsStackAndMretUnstacks : Prop :=
  (∀ (pmp : List PmpRegion) (s : Nat), stackFault pmp s = none ↔
    s % 16 = 0 ∧ 80 ≤ s ∧ ∃ g ∈ pmp, g.base ≤ s - 80 ∧ s - 1 < g.base + g.size ∧ g.writable = true ∧ g.tcm = true) ∧
  (∀ (pmp : List PmpRegion) (s : Nat), frameOk pmp s = true ↔
    s % 16 = 0 ∧ ∃ g ∈ pmp, g.base ≤ s ∧ s + 79 < g.base + g.size ∧ g.readable = true) ∧
  (∀ (r : CoreRegs) (sp : U32), frameBytes r sp = le32 r.mepc ++ le32 r.mstatus ++ le32 r.mcause ++ le32 sp ++ le32 r.ra ++
    le32 r.t0 ++ le32 r.t1 ++ le32 r.t2 ++ le32 r.a0 ++ le32 r.a1 ++ le32 r.a2 ++ le32 r.a3 ++ le32 r.a4 ++ le32 r.a5 ++
    le32 r.a6 ++ le32 r.a7 ++ le32 r.t3 ++ le32 r.t4 ++ le32 r.t5 ++ le32 r.t6) ∧
  (∀ (pair : Fin 4) (regs : CoreRegs) (pmp : List PmpRegion) (cause tval ptr : U32) (user : Bool) (s : State),
    (s.pair pair.val).retired = false → (s.pair pair.val).halted = false → (s.pair pair.val).xstk.en = true →
    ptr = (if user then (s.pair pair.val).xstk.msp else regs.sp) → stackFault pmp ptr.toNat = none →
    Gives (.trapStacking pair regs pmp cause tval user) s (fun t => (t.pair pair.val).regs.sp = ptr - 80 ∧
      (t.pair pair.val).regs.pc = regs.mtvec &&& 0xFFFFFFFC ∧ (t.pair pair.val).regs.mepc = regs.pc ∧
      (t.pair pair.val).regs.mcause = cause ∧ (t.pair pair.val).regs.mtval = tval ∧
      (t.pair pair.val).tcm = memWrite (s.pair pair.val).tcm (ptr.toNat - 80)
        (frameBytes { regs with mepc := regs.pc, mcause := cause, mtval := tval, mstatus := trapStatus regs.mstatus user } regs.sp) ∧
      (∀ a, a < ptr.toNat - 80 ∨ ptr.toNat ≤ a → (s.pair pair.val).tcm.wf = true →
        memGet (t.pair pair.val).tcm a = memGet (s.pair pair.val).tcm a))) ∧
  (∀ (pair : Fin 4) (regs : CoreRegs) (pmp : List PmpRegion) (s : State) (w : Nat → U32), (s.pair pair.val).retired = false →
    (s.pair pair.val).halted = false → (s.pair pair.val).xstk.en = true → frameOk pmp regs.sp.toNat = true →
    (∀ o, w o = memRead32 (s.pair pair.val).tcm (regs.sp.toNat + o)) →
    (toUser (w 4) = false ∨ (s.pair pair.val).xstk.partStop.getLsbD ((s.pair pair.val).xstk.partId % 4) = false) →
    Gives (.mretUnstack pair regs pmp) s (fun t => (t.pair pair.val).regs =
      { regs with pc := w 0, mepc := w 0, mstatus := mretStatus (w 4), sp := w 12, ra := w 16, t0 := w 20, t1 := w 24, t2 := w 28,
                  a0 := w 32, a1 := w 36, a2 := w 40, a3 := w 44, a4 := w 48, a5 := w 52, a6 := w 56, a7 := w 60, t3 := w 64,
                  t4 := w 68, t5 := w 72, t6 := w 76 })) ∧
  (∀ (pair : Fin 4) (regs : CoreRegs) (pmp : List PmpRegion) (s : State), (s.pair pair.val).retired = false →
    (s.pair pair.val).halted = false → (s.pair pair.val).xstk.en = true → (s.pair pair.val).xstk.efb = false →
    frameOk pmp regs.sp.toNat = false →
    Gives (.mretUnstack pair regs pmp) s (fun t => (t.pair pair.val).regs.mcause = 24 ∧ (t.pair pair.val).regs.mtval = regs.sp ∧
      (t.pair pair.val).xstk.efb = true ∧ (t.pair pair.val).xstk.reason = 4))

/-- R439: `UPD.BEGIN` opens, for a class with a copy in the last good set, the other copy, and a verified image is written to the copy that
the open target names. -/
def Obligations.StagingSparesTheLastGoodSet : Prop :=
  (∀ (cls total : Nat) (set : List Bool) (s : State), cls < 6 → s.upd.lastGood = some set → s.upd.open_ = none → s.upd.verifying = none →
    ∃ t, (updOpen cls total s).1.upd.open_ = some t ∧ t.target = cls ∧ t.second = !(set.getD cls false) ∧
      (updOpen cls total s).2.status = stat_ok) ∧
  (∀ (v : Verifying) (f : VerifyFacts) (bank : Bank) (s : State) (cls : Nat) (b : Bool), s.upd.verifying = some v → v.target.target < 6 →
    cls < 6 → (cls, b) ≠ (v.target.target, v.target.second) → Gives (.updVerifyDone f bank) s (fun t => t.copy cls b = s.copy cls b))
end

