-- ==== Sys2Proof/Laws/Exec.lean ====
section
/-! SUPPORT. Which meaning each command has. -/

section

set_option Elab.async false

namespace Sys2Proof.Machine

theorem exec_logicSupplyValid (s : State) : exec (.logicSupplyValid) s = execLogicSupplyValid s := rfl
theorem exec_resetRelease (f : StartFacts) (s : State) : exec (.resetRelease f) s = execResetRelease f s := rfl
theorem exec_rootPllLock (s : State) : exec (.rootPllLock) s = execRootPllLock s := rfl
theorem exec_pllLockTimeout (s : State) : exec (.pllLockTimeout) s = execPllLockTimeout s := rfl
theorem exec_powerDieTableAck (die : Fin 8) (s : State) : exec (.powerDieTableAck die) s = execPowerDieTableAck die s := rfl
theorem exec_pdlAckTimeout (die : Fin 8) (s : State) : exec (.pdlAckTimeout die) s = execPdlAckTimeout die s := rfl
theorem exec_pdlAckRetry (die : Fin 8) (s : State) : exec (.pdlAckRetry die) s = execPdlAckRetry die s := rfl
theorem exec_vinClassCheck (inside : Bool) (s : State) : exec (.vinClassCheck inside) s = execVinClassCheck inside s := rfl
theorem exec_pairInjectionTestDone (pair : Fin 4) (pass : Bool) (s : State) : exec (.pairInjectionTestDone pair pass) s = execPairInjectionTestDone pair pass s := rfl
theorem exec_ddrTrainingDone (s : State) : exec (.ddrTrainingDone) s = execDdrTrainingDone s := rfl
theorem exec_forcedBasecampCheck (s : State) : exec (.forcedBasecampCheck) s = execForcedBasecampCheck s := rfl
theorem exec_workshopInactivityTimeout (s : State) : exec (.workshopInactivityTimeout) s = execWorkshopInactivityTimeout s := rfl
theorem exec_autoSleep (s : State) : exec (.autoSleep) s = execAutoSleep s := rfl
theorem exec_wakeNAssert (s : State) : exec (.wakeNAssert) s = execWakeNAssert s := rfl
theorem exec_powerLoss (s : State) : exec (.powerLoss) s = execPowerLoss s := rfl
theorem exec_logicFeedLow (s : State) : exec (.logicFeedLow) s = execLogicFeedLow s := rfl
theorem exec_logicFeedFail (s : State) : exec (.logicFeedFail) s = execLogicFeedFail s := rfl
theorem exec_clockMonitorTrip (s : State) : exec (.clockMonitorTrip) s = execClockMonitorTrip s := rfl
theorem exec_runServiceLoss (item : RunItem) (s : State) : exec (.runServiceLoss item) s = execRunServiceLoss item s := rfl
theorem exec_managerWatchdog (s : State) : exec (.managerWatchdog) s = execManagerWatchdog s := rfl
theorem exec_safetyClusterServing (s : State) : exec (.safetyClusterServing) s = execSafetyClusterServing s := rfl
theorem exec_bivouacEntryDone (s : State) : exec (.bivouacEntryDone) s = execBivouacEntryDone s := rfl
theorem exec_portTc10Wake (p : Fin 8) (s : State) : exec (.portTc10Wake p) s = execPortTc10Wake p s := rfl
theorem exec_activationMsBoundary (s : State) : exec (.activationMsBoundary) s = execActivationMsBoundary s := rfl
theorem exec_sysEnterWorkshop (r : Req) (nonce : Nat) (sigOk : Bool) (s : State) : exec (.sysEnterWorkshop r nonce sigOk) s = execSysEnterWorkshop r nonce sigOk s := rfl
theorem exec_sysLeaveWorkshop (r : Req) (s : State) : exec (.sysLeaveWorkshop r) s = execSysLeaveWorkshop r s := rfl
theorem exec_sysSleep (r : Req) (s : State) : exec (.sysSleep r) s = execSysSleep r s := rfl
theorem exec_sysRestart (r : Req) (nonce : Nat) (sigOk : Bool) (s : State) : exec (.sysRestart r nonce sigOk) s = execSysRestart r nonce sigOk s := rfl
theorem exec_sysEnterBasecamp (r : Req) (s : State) : exec (.sysEnterBasecamp r) s = execSysEnterBasecamp r s := rfl
theorem exec_sysGetMode (r : Req) (s : State) : exec (.sysGetMode r) s = execSysGetMode r s := rfl
theorem exec_sysChallenge (r : Req) (s : State) : exec (.sysChallenge r) s = execSysChallenge r s := rfl
theorem exec_cfgBegin (r : Req) (total : U32) (s : State) : exec (.cfgBegin r total) s = execCfgBegin r total s := rfl
theorem exec_cfgWrite (r : Req) (offset : U32) (data : List Byte) (s : State) : exec (.cfgWrite r offset data) s = execCfgWrite r offset data s := rfl
theorem exec_cfgCommit (r : Req) (content : Machine.Bank) (s : State) : exec (.cfgCommit r content) s = execCfgCommit r content s := rfl
theorem exec_cfgActivate (r : Req) (s : State) : exec (.cfgActivate r) s = execCfgActivate r s := rfl
theorem exec_cfgStatus (r : Req) (s : State) : exec (.cfgStatus r) s = execCfgStatus r s := rfl
theorem exec_cfgAbort (r : Req) (s : State) : exec (.cfgAbort r) s = execCfgAbort r s := rfl
theorem exec_cfgGetSection (r : Req) (section_ : Byte) (offset : U32) (length : U16) (s : State) : exec (.cfgGetSection r section_ offset length) s = execCfgGetSection r section_ offset length s := rfl
theorem exec_cfgSessionTimeout (s : State) : exec (.cfgSessionTimeout) s = execCfgSessionTimeout s := rfl
theorem exec_baseplateHot (temp : Int) (s : State) : exec (.baseplateHot temp) s = execBaseplateHot temp s := rfl
theorem exec_baseplateOvertemp (temp : Int) (s : State) : exec (.baseplateOvertemp temp) s = execBaseplateOvertemp temp s := rfl
theorem exec_baseplateCooled (temp : Int) (s : State) : exec (.baseplateCooled temp) s = execBaseplateCooled temp s := rfl
theorem exec_logicDieOvertemp (temp : Int) (s : State) : exec (.logicDieOvertemp temp) s = execLogicDieOvertemp temp s := rfl
theorem exec_logicDieCooled (s : State) : exec (.logicDieCooled) s = execLogicDieCooled s := rfl
theorem exec_mbxFragmentReceived (port : Fin 512) (f : Fragment) (s : State) : exec (.mbxFragmentReceived port f) s = execMbxFragmentReceived port f s := rfl
theorem exec_mbxReassemblyTimeout (port : Fin 512) (s : State) : exec (.mbxReassemblyTimeout port) s = execMbxReassemblyTimeout port s := rfl
theorem exec_vzfMbxReqProd (v : Fin 256) (block : Fin 4) (index : U16) (msgs : List (HostMsg × MsgCheck)) (fault : Bool) (s : State) : exec (.vzfMbxReqProd v block index msgs fault) s = execVzfMbxReqProd v block index msgs fault s := rfl
theorem exec_mbxConsumerIndexWrite (v : Fin 256) (block : Fin 4) (evt : Bool) (index : U16) (s : State) : exec (.mbxConsumerIndexWrite v block evt index) s = execMbxConsumerIndexWrite v block evt index s := rfl
theorem exec_hostControlAck (port : Fin 512) (seq : U32) (ack : U32) (s : State) : exec (.hostControlAck port seq ack) s = execHostControlAck port seq ack s := rfl
theorem exec_unknownCommand (r : Req) (code : U16) (s : State) : exec (.unknownCommand r code) s = execUnknownCommand r code s := rfl
theorem exec_mbxAckTimer (port : Fin 512) (s : State) : exec (.mbxAckTimer port) s = execMbxAckTimer port s := rfl
theorem exec_epochRepeat (port : Fin 512) (s : State) : exec (.epochRepeat port) s = execEpochRepeat port s := rfl
theorem exec_mbxRetransmit (port : Fin 512) (evt : Bool) (seq : U32) (s : State) : exec (.mbxRetransmit port evt seq) s = execMbxRetransmit port evt seq s := rfl
theorem exec_sysResync (r : Req) (s : State) : exec (.sysResync r) s = execSysResync r s := rfl
theorem exec_sysReplay (r : Req) (rsp : U32) (evt : U32) (s : State) : exec (.sysReplay r rsp evt) s = execSysReplay r rsp evt s := rfl
theorem exec_sysSubscribe (r : Req) (cls : Byte) (mask : U32) (s : State) : exec (.sysSubscribe r cls mask) s = execSysSubscribe r cls mask s := rfl
theorem exec_sysPing (r : Req) (payload : List Byte) (s : State) : exec (.sysPing r payload) s = execSysPing r payload s := rfl
theorem exec_sysGetInfo (r : Req) (s : State) : exec (.sysGetInfo r) s = execSysGetInfo r s := rfl
theorem exec_sysPortStats (r : Req) (s : State) : exec (.sysPortStats r) s = execSysPortStats r s := rfl
theorem exec_sysSetRate (r : Req) (port : U16) (burst : U16) (rate : U32) (s : State) : exec (.sysSetRate r port burst rate) s = execSysSetRate r port burst rate s := rfl
theorem exec_windowUnmappedAccess (v : Fin 256) (offset : U16) (s : State) : exec (.windowUnmappedAccess v offset) s = execWindowUnmappedAccess v offset s := rfl
theorem exec_registerWrite (target : RegTarget) (value : U32) (s : State) : exec (.registerWrite target value) s = execRegisterWrite target value s := rfl
theorem exec_lswCmdWrite (v : Fin 256) (ch : Fin 112) (value : U32) (s : State) : exec (.lswCmdWrite v ch value) s = execLswCmdWrite v ch value s := rfl
theorem exec_hbrCmdWrite (v : Fin 256) (br : Fin 8) (value : U32) (s : State) : exec (.hbrCmdWrite v br value) s = execHbrCmdWrite v br value s := rfl
theorem exec_vlvCmdWrite (v : Fin 256) (vlv : Fin 16) (value : U32) (s : State) : exec (.vlvCmdWrite v vlv value) s = execVlvCmdWrite v vlv value s := rfl
theorem exec_lswChStampLoRead (v : Fin 256) (ch : Fin 112) (s : State) : exec (.lswChStampLoRead v ch) s = execLswChStampLoRead v ch s := rfl
theorem exec_lswChPeakRead (v : Fin 256) (ch : Fin 112) (s : State) : exec (.lswChPeakRead v ch) s = execLswChPeakRead v ch s := rfl
theorem exec_chSet (r : Req) (ch : U16) (mode : Byte) (prio : Byte) (duty : U16) (phase : Byte) (s : State) : exec (.chSet r ch mode prio duty phase) s = execChSet r ch mode prio duty phase s := rfl
theorem exec_chGetStatus (r : Req) (ch : U16) (s : State) : exec (.chGetStatus r ch) s = execChGetStatus r ch s := rfl
theorem exec_chSetProfile (r : Req) (ch : U16) (id : Byte) (s : State) : exec (.chSetProfile r ch id) s = execChSetProfile r ch id s := rfl
theorem exec_chGetProfile (r : Req) (ch : U16) (s : State) : exec (.chGetProfile r ch) s = execChGetProfile r ch s := rfl
theorem exec_chUnlock (r : Req) (ch : U16) (selector : Byte) (s : State) : exec (.chUnlock r ch selector) s = execChUnlock r ch selector s := rfl
theorem exec_chClearFault (r : Req) (ch : U16) (s : State) : exec (.chClearFault r ch) s = execChClearFault r ch s := rfl
theorem exec_chSetHold (r : Req) (ch : U16) (setting : Byte) (tHold : U16) (s : State) : exec (.chSetHold r ch setting tHold) s = execChSetHold r ch setting tHold s := rfl
theorem exec_chSetKeepalive (r : Req) (set : List KeepEntry) (s : State) : exec (.chSetKeepalive r set) s = execChSetKeepalive r set s := rfl
theorem exec_chSnsSelect (r : Req) (ch : U16) (s : State) : exec (.chSnsSelect r ch) s = execChSnsSelect r ch s := rfl
theorem exec_chTest (r : Req) (ch : U16) (test : Byte) (duration : U16) (s : State) : exec (.chTest r ch test duration) s = execChTest r ch test duration s := rfl
theorem exec_chTestEnd (ch : Fin 112) (pass : Bool) (value : U32) (s : State) : exec (.chTestEnd ch pass value) s = execChTestEnd ch pass value s := rfl
theorem exec_chGetLedger (r : Req) (ch : U16) (s : State) : exec (.chGetLedger r ch) s = execChGetLedger r ch s := rfl
theorem exec_chHbConfig (r : Req) (ch : U16) (f : HbFields) (s : State) : exec (.chHbConfig r ch f) s = execChHbConfig r ch f s := rfl
theorem exec_chHbDrive (r : Req) (ch : U16) (drive : Byte) (prio : Byte) (duty : U16) (phase : Byte) (flags : Byte) (target : U32) (s : State) : exec (.chHbDrive r ch drive prio duty phase flags target) s = execChHbDrive r ch drive prio duty phase flags target s := rfl
theorem exec_chHbPosition (r : Req) (ch : U16) (op : Byte) (value : U32) (s : State) : exec (.chHbPosition r ch op value) s = execChHbPosition r ch op value s := rfl
theorem exec_chVlvConfig (r : Req) (ch : U16) (flags : Byte) (amp : U16) (freq : U16) (bw : U16) (s : State) : exec (.chVlvConfig r ch flags amp freq bw) s = execChVlvConfig r ch flags amp freq bw s := rfl
theorem exec_chVlvSet (r : Req) (ch : U16) (prio : Byte) (enable : Byte) (ma : U16) (s : State) : exec (.chVlvSet r ch prio enable ma) s = execChVlvSet r ch prio enable ma s := rfl
theorem exec_chVlvStatus (r : Req) (ch : U16) (s : State) : exec (.chVlvStatus r ch) s = execChVlvStatus r ch s := rfl
theorem exec_powerDieLinkFrame (die : Fin 8) (clamp : List (Fin 14 × Nat)) (s : State) : exec (.powerDieLinkFrame die clamp) s = execPowerDieLinkFrame die clamp s := rfl
theorem exec_linkSilenceHold (die : Fin 8) (s : State) : exec (.linkSilenceHold die) s = execLinkSilenceHold die s := rfl
theorem exec_holdTimeout (ch : Fin 112) (s : State) : exec (.holdTimeout ch) s = execHoldTimeout ch s := rfl
theorem exec_shortCircuitTrip (ch : Fin 112) (ma : Nat) (s : State) : exec (.shortCircuitTrip ch ma) s = execShortCircuitTrip ch ma s := rfl
theorem exec_limitTimeout (ch : Fin 112) (s : State) : exec (.limitTimeout ch) s = execLimitTimeout ch s := rfl
theorem exec_inrushWindowEnd (ch : Fin 112) (above : Bool) (s : State) : exec (.inrushWindowEnd ch above) s = execInrushWindowEnd ch above s := rfl
theorem exec_wireModelStep (ch : Fin 112) (i2 : Nat) (s : State) : exec (.wireModelStep ch i2) s = execWireModelStep ch i2 s := rfl
theorem exec_junctionOvertemp (ch : Fin 112) (tj : Int) (s : State) : exec (.junctionOvertemp ch tj) s = execJunctionOvertemp ch tj s := rfl
theorem exec_openLoadOn (ch : Fin 112) (s : State) : exec (.openLoadOn ch) s = execOpenLoadOn ch s := rfl
theorem exec_offStateTest (ch : Fin 112) (highBefore : Bool) (under : Int) (s : State) : exec (.offStateTest ch highBefore under) s = execOffStateTest ch highBefore under s := rfl
theorem exec_arcWindow (ch : Fin 112) (rms : Nat) (dv : Nat) (s : State) : exec (.arcWindow ch rms dv) s = execArcWindow ch rms dv s := rfl
theorem exec_retryDelayExpiry (ch : Fin 112) (s : State) : exec (.retryDelayExpiry ch) s = execRetryDelayExpiry ch s := rfl
theorem exec_retryCountReset (ch : Fin 112) (s : State) : exec (.retryCountReset ch) s = execRetryCountReset ch s := rfl
theorem exec_freewheelCheckEnd (ch : Fin 112) (lowest : Int) (clampUj : Nat) (s : State) : exec (.freewheelCheckEnd ch lowest clampUj) s = execFreewheelCheckEnd ch lowest clampUj s := rfl
theorem exec_statusWordUpdate (ch : Fin 112) (m : Measure) (s : State) : exec (.statusWordUpdate ch m) s = execStatusWordUpdate ch m s := rfl
theorem exec_pwmPeriodStart (ch : Fin 112) (clampUj : Nat) (s : State) : exec (.pwmPeriodStart ch clampUj) s = execPwmPeriodStart ch clampUj s := rfl
theorem exec_groupLoadCheck (s : State) : exec (.groupLoadCheck) s = execGroupLoadCheck s := rfl
theorem exec_loadShedStep (s : State) : exec (.loadShedStep) s = execLoadShedStep s := rfl
theorem exec_orphanTimeout (ch : Fin 112) (s : State) : exec (.orphanTimeout ch) s = execOrphanTimeout ch s := rfl
theorem exec_reversalBrakeEnd (br : Fin 8) (s : State) : exec (.reversalBrakeEnd br) s = execReversalBrakeEnd br s := rfl
theorem exec_stallDetect (br : Fin 8) (s : State) : exec (.stallDetect br) s = execStallDetect br s := rfl
theorem exec_rippleCount (br : Fin 8) (interval : Nat) (s : State) : exec (.rippleCount br interval) s = execRippleCount br interval s := rfl
theorem exec_runonEnd (br : Fin 8) (s : State) : exec (.runonEnd br) s = execRunonEnd br s := rfl
theorem exec_uncountedMotion (br : Fin 8) (s : State) : exec (.uncountedMotion br) s = execUncountedMotion br s := rfl
theorem exec_valveRegulationPeriod (vlv : Fin 16) (m : ValveMeasure) (s : State) : exec (.valveRegulationPeriod vlv m) s = execValveRegulationPeriod vlv m s := rfl
theorem exec_complianceSet (vlv : Fin 16) (gotMa : Nat) (s : State) : exec (.complianceSet vlv gotMa) s = execComplianceSet vlv gotMa s := rfl
theorem exec_complianceClear (vlv : Fin 16) (s : State) : exec (.complianceClear vlv) s = execComplianceClear vlv s := rfl
theorem exec_groupSupplyLoss (g : Fin 8) (reversed : Bool) (s : State) : exec (.groupSupplyLoss g reversed) s = execGroupSupplyLoss g reversed s := rfl
theorem exec_groupSupplyReturn (g : Fin 8) (powerUp : Bool) (s : State) : exec (.groupSupplyReturn g powerUp) s = execGroupSupplyReturn g powerUp s := rfl
theorem exec_moduleGroundLoss (s : State) : exec (.moduleGroundLoss) s = execModuleGroundLoss s := rfl
theorem exec_junctionCooled (ch : Fin 112) (tj : Int) (s : State) : exec (.junctionCooled ch tj) s = execJunctionCooled ch tj s := rfl
theorem exec_junctionHotWarning (ch : Fin 112) (s : State) : exec (.junctionHotWarning ch) s = execJunctionHotWarning ch s := rfl
theorem exec_bridgeStart (vin : Int) (s : State) : exec (.bridgeStart vin) s = execBridgeStart vin s := rfl
theorem exec_vinLossDetected (vz48 : Int) (vin : Int) (s : State) : exec (.vinLossDetected vz48 vin) s = execVinLossDetected vz48 vin s := rfl
theorem exec_handoverAbandon (s : State) : exec (.handoverAbandon) s = execHandoverAbandon s := rfl
theorem exec_commitPoint (vbk12 : Int) (s : State) : exec (.commitPoint vbk12) s = execCommitPoint vbk12 s := rfl
theorem exec_vinValidInBoost (s : State) : exec (.vinValidInBoost) s = execVinValidInBoost s := rfl
theorem exec_vinInvalidInQualify (s : State) : exec (.vinInvalidInQualify) s = execVinInvalidInQualify s := rfl
theorem exec_qualifyTimeout (s : State) : exec (.qualifyTimeout) s = execQualifyTimeout s := rfl
theorem exec_handbackRampComplete (s : State) : exec (.handbackRampComplete) s = execHandbackRampComplete s := rfl
theorem exec_vbk12Low (s : State) : exec (.vbk12Low) s = execVbk12Low s := rfl
theorem exec_boostOverload (ibk : Int) (vz48 : Int) (s : State) : exec (.boostOverload ibk vz48) s = execBoostOverload ibk vz48 s := rfl
theorem exec_shedRestore (s : State) : exec (.shedRestore) s = execShedRestore s := rfl
theorem exec_vz12GroupRelease (s : State) : exec (.vz12GroupRelease) s = execVz12GroupRelease s := rfl
theorem exec_phaseOvercurrentLatch (ph : Fin 4) (s : State) : exec (.phaseOvercurrentLatch ph) s = execPhaseOvercurrentLatch ph s := rfl
theorem exec_bridgeDieHot (temp : Int) (s : State) : exec (.bridgeDieHot temp) s = execBridgeDieHot temp s := rfl
theorem exec_bridgeDieOvertemp (temp : Int) (s : State) : exec (.bridgeDieOvertemp temp) s = execBridgeDieOvertemp temp s := rfl
theorem exec_bridgeDieCooled (temp : Int) (s : State) : exec (.bridgeDieCooled temp) s = execBridgeDieCooled temp s := rfl
theorem exec_vz12Undervoltage (vz12 : Int) (s : State) : exec (.vz12Undervoltage vz12) s = execVz12Undervoltage vz12 s := rfl
theorem exec_vz12Retry (regulated : Bool) (s : State) : exec (.vz12Retry regulated) s = execVz12Retry regulated s := rfl
theorem exec_bridgeControlStop (s : State) : exec (.bridgeControlStop) s = execBridgeControlStop s := rfl
theorem exec_vinWindowEntry (reverse : Bool) (vin : Int) (s : State) : exec (.vinWindowEntry reverse vin) s = execVinWindowEntry reverse vin s := rfl
theorem exec_brgGetStatus (r : Req) (m : BrgMeasure) (s : State) : exec (.brgGetStatus r m) s = execBrgGetStatus r m s := rfl
theorem exec_brgSetTarget (r : Req) (vZ12 : U16) (s : State) : exec (.brgSetTarget r vZ12) s = execBrgSetTarget r vZ12 s := rfl
theorem exec_brgSetLimits (r : Req) (f : LimitsFields) (s : State) : exec (.brgSetLimits r f) s = execBrgSetLimits r f s := rfl
theorem exec_brgRelease (r : Req) (s : State) : exec (.brgRelease r) s = execBrgRelease r s := rfl
theorem exec_brgSetShed (r : Req) (shedHo : Byte) (shedAt : Byte) (s : State) : exec (.brgSetShed r shedHo shedAt) s = execBrgSetShed r shedHo shedAt s := rfl
theorem exec_brgTestHandover (r : Req) (duration : U16) (vin : Int) (vbk12 : Int) (s : State) : exec (.brgTestHandover r duration vin vbk12) s = execBrgTestHandover r duration vin vbk12 s := rfl
theorem exec_handoverTestEnd (lowest : Int) (peak : Int) (energy : U32) (s : State) : exec (.handoverTestEnd lowest peak energy) s = execHandoverTestEnd lowest peak energy s := rfl
theorem exec_diSample (n : Fin 64) (mv : Int) (s : State) : exec (.diSample n mv) s = execDiSample n mv s := rfl
theorem exec_fioDiStampLoRead (v : Fin 256) (s : State) : exec (.fioDiStampLoRead v) s = execFioDiStampLoRead v s := rfl
theorem exec_aiSample (uv : List Int) (sup : List (Nat × Nat)) (s : State) : exec (.aiSample uv sup) s = execAiSample uv sup s := rfl
theorem exec_cyclicSenseSample (n : Fin 16) (mv : Int) (s : State) : exec (.cyclicSenseSample n mv) s = execCyclicSenseSample n mv s := rfl
theorem exec_sensorSupplyFault (sup : Fin 4) (forced : Bool) (s : State) : exec (.sensorSupplyFault sup forced) s = execSensorSupplyFault sup forced s := rfl
theorem exec_sensorSupplyRetry (sup : Fin 4) (regulates : Bool) (s : State) : exec (.sensorSupplyRetry sup regulates) s = execSensorSupplyRetry sup regulates s := rfl
theorem exec_barrierDownlinkFrame (s : State) : exec (.barrierDownlinkFrame) s = execBarrierDownlinkFrame s := rfl
theorem exec_barrierDownlinkReceived (frame : BitVec 128) (s : State) : exec (.barrierDownlinkReceived frame) s = execBarrierDownlinkReceived frame s := rfl
theorem exec_barrierUplinkFrame (frame : BitVec 128) (s : State) : exec (.barrierUplinkFrame frame) s = execBarrierUplinkFrame frame s := rfl
theorem exec_xLinkTimeout (s : State) : exec (.xLinkTimeout) s = execXLinkTimeout s := rfl
theorem exec_xUplinkLost (s : State) : exec (.xUplinkLost) s = execXUplinkLost s := rfl
theorem exec_xOverload (k : Fin 32) (s : State) : exec (.xOverload k) s = execXOverload k s := rfl
theorem exec_xOverloadRetry (k : Fin 32) (clear : Bool) (s : State) : exec (.xOverloadRetry k clear) s = execXOverloadRetry k clear s := rfl
theorem exec_xOpenWire (k : Fin 32) (s : State) : exec (.xOpenWire k) s = execXOpenWire k s := rfl
theorem exec_xOvertemp (k : Fin 32) (s : State) : exec (.xOvertemp k) s = execXOvertemp k s := rfl
theorem exec_xvfLow (s : State) : exec (.xvfLow) s = execXvfLow s := rfl
theorem exec_xvfFail (s : State) : exec (.xvfFail) s = execXvfFail s := rfl
theorem exec_xvfRecover (s : State) : exec (.xvfRecover) s = execXvfRecover s := rfl
theorem exec_fioXCmdValWrite (v : Fin 256) (value : U32) (s : State) : exec (.fioXCmdValWrite v value) s = execFioXCmdValWrite v value s := rfl
theorem exec_fioXBankRead (v : Fin 256) (s : State) : exec (.fioXBankRead v) s = execFioXBankRead v s := rfl
theorem exec_fioDiConfig (r : Req) (input : U16) (f : DiFields) (s : State) : exec (.fioDiConfig r input f) s = execFioDiConfig r input f s := rfl
theorem exec_fioDiRead (r : Req) (s : State) : exec (.fioDiRead r) s = execFioDiRead r s := rfl
theorem exec_fioAiConfig (r : Req) (input : U16) (range : Byte) (ratio : Byte) (k : Byte) (s : State) : exec (.fioAiConfig r input range ratio k) s = execFioAiConfig r input range ratio k s := rfl
theorem exec_fioAiRead (r : Req) (first : U16) (count : U16) (s : State) : exec (.fioAiRead r first count) s = execFioAiRead r first count s := rfl
theorem exec_fioSupSet (r : Req) (supply : Byte) (on : Byte) (s : State) : exec (.fioSupSet r supply on) s = execFioSupSet r supply on s := rfl
theorem exec_fioCyclicSense (r : Req) (mask : U16) (tCyc : U16) (k : Byte) (s : State) : exec (.fioCyclicSense r mask tCyc k) s = execFioCyclicSense r mask tCyc k s := rfl
theorem exec_fioXConfig (r : Req) (channel : Byte) (mode : Byte) (tXdb : Byte) (flags : Byte) (s : State) : exec (.fioXConfig r channel mode tXdb flags) s = execFioXConfig r channel mode tXdb flags s := rfl
theorem exec_fioXSet (r : Req) (mask : U32) (values : U32) (s : State) : exec (.fioXSet r mask values) s = execFioXSet r mask values s := rfl
theorem exec_fioXRead (r : Req) (s : State) : exec (.fioXRead r) s = execFioXRead r s := rfl
theorem exec_fioXSafe (r : Req) (safe : U64) (tXto : U16) (s : State) : exec (.fioXSafe r safe tXto) s = execFioXSafe r safe tXto s := rfl
theorem exec_xvfLowEnd (s : State) : exec (.xvfLowEnd) s = execXvfLowEnd s := rfl
theorem exec_xOvertempEnd (k : Fin 32) (s : State) : exec (.xOvertempEnd k) s = execXOvertempEnd k s := rfl
theorem exec_xOpenWireEnd (k : Fin 32) (s : State) : exec (.xOpenWireEnd k) s = execXOpenWireEnd k s := rfl
theorem exec_safeNAssert (s : State) : exec (.safeNAssert) s = execSafeNAssert s := rfl
theorem exec_safeNRelease (s : State) : exec (.safeNRelease) s = execSafeNRelease s := rfl
theorem exec_ruleTableCheck (ok : Bool) (corrected : U16) (s : State) : exec (.ruleTableCheck ok corrected) s = execRuleTableCheck ok corrected s := rfl
theorem exec_ruleTableEccError (rule : Fin 1024) (s : State) : exec (.ruleTableEccError rule) s = execRuleTableEccError rule s := rfl
theorem exec_rfxLoadRule (r : Req) (rule : U16) (f : RuleFields) (s : State) : exec (.rfxLoadRule r rule f) s = execRfxLoadRule r rule f s := rfl
theorem exec_rfxEnable (r : Req) (first : U16) (count : U16) (s : State) : exec (.rfxEnable r first count) s = execRfxEnable r first count s := rfl
theorem exec_rfxDisable (r : Req) (first : U16) (count : U16) (s : State) : exec (.rfxDisable r first count) s = execRfxDisable r first count s := rfl
theorem exec_rfxGetRule (r : Req) (rule : U16) (s : State) : exec (.rfxGetRule r rule) s = execRfxGetRule r rule s := rfl
theorem exec_rfxStats (r : Req) (first : U16) (count : U16) (s : State) : exec (.rfxStats r first count) s = execRfxStats r first count s := rfl
theorem exec_rfxSelfArrest (r : Req) (reason : U16) (s : State) : exec (.rfxSelfArrest r reason) s = execRfxSelfArrest r reason s := rfl
theorem exec_rfxSafeNFilter (r : Req) (tSnf : U16) (flags : Byte) (s : State) : exec (.rfxSafeNFilter r tSnf flags) s = execRfxSafeNFilter r tSnf flags s := rfl
theorem exec_edgeWindowEnd (rule : Fin 1024) (slot : Fin 4) (s : State) : exec (.edgeWindowEnd rule slot) s = execEdgeWindowEnd rule slot s := rfl
theorem exec_limpTableTimer (s : State) : exec (.limpTableTimer) s = execLimpTableTimer s := rfl
theorem exec_localCycleStart (s : State) : exec (.localCycleStart) s = execLocalCycleStart s := rfl
theorem exec_syncRefReceived (port : Fin 2) (link : LinkCheck) (h : RingHeader) (f : SyncRef) (residence : U32) (s : State) : exec (.syncRefReceived port link h f residence) s = execSyncRefReceived port link h f residence s := rfl
theorem exec_syncRefMissing (s : State) : exec (.syncRefMissing) s = execSyncRefMissing s := rfl
theorem exec_masterHandover (s : State) : exec (.masterHandover) s = execMasterHandover s := rfl
theorem exec_staticFrameReceived (port : Fin 2) (link : LinkCheck) (f : RingFrame) (s : State) : exec (.staticFrameReceived port link f) s = execStaticFrameReceived port link f s := rfl
theorem exec_slotDue (k : Fin 384) (s : State) : exec (.slotDue k) s = execSlotDue k s := rfl
theorem exec_dynamicFrameReceived (port : Fin 2) (link : LinkCheck) (f : Option RingFrame) (s : State) : exec (.dynamicFrameReceived port link f) s = execDynamicFrameReceived port link f s := rfl
theorem exec_relayQueueTimeout (s : State) : exec (.relayQueueTimeout) s = execRelayQueueTimeout s := rfl
theorem exec_secondaryFrameReceived (port : Fin 2) (link : LinkCheck) (f : RingFrame) (busy : Bool) (s : State) : exec (.secondaryFrameReceived port link f busy) s = execSecondaryFrameReceived port link f busy s := rfl
theorem exec_delayMeasRequest (link : LinkCheck) (h : RingHeader) (f : DelayMeas) (s : State) : exec (.delayMeasRequest link h f) s = execDelayMeasRequest link h f s := rfl
theorem exec_delayMeasResponse (link : LinkCheck) (h : RingHeader) (f : DelayMeas) (roundTrip : U64) (s : State) : exec (.delayMeasResponse link h f roundTrip) s = execDelayMeasResponse link h f roundTrip s := rfl
theorem exec_ringLinkDown (port : Fin 2) (s : State) : exec (.ringLinkDown port) s = execRingLinkDown port s := rfl
theorem exec_ringPhyTrained (port : Fin 2) (s : State) : exec (.ringPhyTrained port) s = execRingPhyTrained port s := rfl
theorem exec_mkaFrame (port : Fin 2) (peers : List Byte) (live : Bool) (s : State) : exec (.mkaFrame port peers live) s = execMkaFrame port peers live s := rfl
theorem exec_ringMacsecTimeout (port : Fin 2) (s : State) : exec (.ringMacsecTimeout port) s = execRingMacsecTimeout port s := rfl
theorem exec_linkClose (port : Fin 2) (s : State) : exec (.linkClose port) s = execLinkClose port s := rfl
theorem exec_ringSleep (s : State) : exec (.ringSleep) s = execRingSleep s := rfl
theorem exec_ringTc10Wake (port : Fin 2) (s : State) : exec (.ringTc10Wake port) s = execRingTc10Wake port s := rfl
theorem exec_sigSlotFreeze (k : Fin 384) (s : State) : exec (.sigSlotFreeze k) s = execSigSlotFreeze k s := rfl
theorem exec_ringGetStatus (r : Req) (s : State) : exec (.ringGetStatus r) s = execRingGetStatus r s := rfl
theorem exec_ringTopology (r : Req) (s : State) : exec (.ringTopology r) s = execRingTopology r s := rfl
theorem exec_ringSlotAge (r : Req) (first : U16) (count : U16) (s : State) : exec (.ringSlotAge r first count) s = execRingSlotAge r first count s := rfl
theorem exec_ringDelays (r : Req) (s : State) : exec (.ringDelays r) s = execRingDelays r s := rfl
theorem exec_ringSleepConsent (r : Req) (give : Byte) (s : State) : exec (.ringSleepConsent r give) s = execRingSleepConsent r give s := rfl
theorem exec_ringStats (r : Req) (clear : Byte) (s : State) : exec (.ringStats r clear) s = execRingStats r clear s := rfl
theorem exec_frameIngress (port : Fin 21) (check : PortCheck) (f : EthFrame) (station : Fin 32) (rivals : List Rival) (s : State) : exec (.frameIngress port check f station rivals) s = execFrameIngress port check f station rivals s := rfl
theorem exec_losslessTimeout (port : Fin 21) (cls : Fin 8) (s : State) : exec (.losslessTimeout port cls) s = execLosslessTimeout port cls s := rfl
theorem exec_frameEgress (port : Fin 21) (s : State) : exec (.frameEgress port) s = execFrameEgress port s := rfl
theorem exec_potFullEpisodeEnd (pot : Fin 64) (s : State) : exec (.potFullEpisodeEnd pot) s = execPotFullEpisodeEnd pot s := rfl
theorem exec_cellAudit (cellsOff : Int) (descsOff : Int) (loose : List LooseCell) (s : State) : exec (.cellAudit cellsOff descsOff loose) s = execCellAudit cellsOff descsOff loose s := rfl
theorem exec_leakCompareDone (s : State) : exec (.leakCompareDone) s = execLeakCompareDone s := rfl
theorem exec_cellEccError (cell : Fin 262144) (frame : Option Nat) (s : State) : exec (.cellEccError cell frame) s = execCellEccError cell frame s := rfl
theorem exec_gateListEntry (stream : Bool) (gate : Fin 512) (s : State) : exec (.gateListEntry stream gate) s = execGateListEntry stream gate s := rfl
theorem exec_fdbAgeing (mac : BitVec 48) (vid : BitVec 12) (s : State) : exec (.fdbAgeing mac vid) s = execFdbAgeing mac vid s := rfl
theorem exec_eswLinkChange (port : Fin 21) (up : Bool) (s : State) : exec (.eswLinkChange port up) s = execEswLinkChange port up s := rfl
theorem exec_portMacsecTimeout (port : Fin 21) (s : State) : exec (.portMacsecTimeout port) s = execPortMacsecTimeout port s := rfl
theorem exec_plcaBeaconTimeout (port : Fin 21) (s : State) : exec (.plcaBeaconTimeout port) s = execPlcaBeaconTimeout port s := rfl
theorem exec_plcaBeaconReturn (port : Fin 21) (s : State) : exec (.plcaBeaconReturn port) s = execPlcaBeaconReturn port s := rfl
theorem exec_latentErrorTest (fn : Fin 1024) (trip : Bool) (s : State) : exec (.latentErrorTest fn trip) s = execLatentErrorTest fn trip s := rfl
theorem exec_cellScrubbed (plane : Fin 2) (s : State) : exec (.cellScrubbed plane) s = execCellScrubbed plane s := rfl
theorem exec_eswTxqProdWrite (v : Fin 256) (q : Fin 4) (index : U16) (descs : List TxDesc) (rivals : List Rival) (s : State) : exec (.eswTxqProdWrite v q index descs rivals) s = execEswTxqProdWrite v q index descs rivals s := rfl
theorem exec_eswRxqConsWrite (v : Fin 256) (q : Fin 4) (index : U16) (s : State) : exec (.eswRxqConsWrite v q index) s = execEswRxqConsWrite v q index s := rfl
theorem exec_eswPortStatus (r : Req) (port : Byte) (s : State) : exec (.eswPortStatus r port) s = execEswPortStatus r port s := rfl
theorem exec_eswVlanSet (r : Req) (vid : U16) (members : U32) (untagged : U32) (s : State) : exec (.eswVlanSet r vid members untagged) s = execEswVlanSet r vid members untagged s := rfl
theorem exec_eswFdbAdd (r : Req) (f : FdbFields) (s : State) : exec (.eswFdbAdd r f) s = execEswFdbAdd r f s := rfl
theorem exec_eswFdbDel (r : Req) (mac : BitVec 48) (vid : U16) (s : State) : exec (.eswFdbDel r mac vid) s = execEswFdbDel r mac vid s := rfl
theorem exec_eswPotConfig (r : Req) (f : PotFields) (s : State) : exec (.eswPotConfig r f) s = execEswPotConfig r f s := rfl
theorem exec_eswPotStatus (r : Req) (pot : Byte) (s : State) : exec (.eswPotStatus r pot) s = execEswPotStatus r pot s := rfl
theorem exec_eswShaperSet (r : Req) (port : Byte) (cls : Byte) (enable : Byte) (slope : U32) (s : State) : exec (.eswShaperSet r port cls enable slope) s = execEswShaperSet r port cls enable slope s := rfl
theorem exec_eswGateSet (r : Req) (f : GateFields) (s : State) : exec (.eswGateSet r f) s = execEswGateSet r f s := rfl
theorem exec_eswStreamFilter (r : Req) (f : FilterFields) (s : State) : exec (.eswStreamFilter r f) s = execEswStreamFilter r f s := rfl
theorem exec_eswFrerSet (r : Req) (f : FrerFields) (s : State) : exec (.eswFrerSet r f) s = execEswFrerSet r f s := rfl
theorem exec_eswPlcaSet (r : Req) (f : PlcaFields) (s : State) : exec (.eswPlcaSet r f) s = execEswPlcaSet r f s := rfl
theorem exec_eswAudit (r : Req) (op : Byte) (policy : Byte) (tAud : U16) (cellsOff : Int) (descsOff : Int) (loose : List LooseCell) (s : State) : exec (.eswAudit r op policy tAud cellsOff descsOff loose) s = execEswAudit r op policy tAud cellsOff descsOff loose s := rfl
theorem exec_eswStats (r : Req) (clear : Byte) (s : State) : exec (.eswStats r clear) s = execEswStats r clear s := rfl
theorem exec_canFrameReceived (c : Fin 16) (f : CanFrame) (sof : U64) (n : CanCounters) (s : State) : exec (.canFrameReceived c f sof n) s = execCanFrameReceived c f sof n s := rfl
theorem exec_canSofCommit (c : Fin 16) (s : State) : exec (.canSofCommit c) s = execCanSofCommit c s := rfl
theorem exec_canTxComplete (c : Fin 16) (o : CanOutcome) (n : CanCounters) (s : State) : exec (.canTxComplete c o n) s = execCanTxComplete c o n s := rfl
theorem exec_canIntegrationDone (c : Fin 16) (s : State) : exec (.canIntegrationDone c) s = execCanIntegrationDone c s := rfl
theorem exec_canRecoveryDone (c : Fin 16) (s : State) : exec (.canRecoveryDone c) s = execCanRecoveryDone c s := rfl
theorem exec_canRxOverrunEnd (c : Fin 16) (s : State) : exec (.canRxOverrunEnd c) s = execCanRxOverrunEnd c s := rfl
theorem exec_canTxBellWrite (v : Fin 256) (c : Fin 16) (s : State) : exec (.canTxBellWrite v c) s = execCanTxBellWrite v c s := rfl
theorem exec_canTxCancelWrite (v : Fin 256) (c : Fin 16) (value : U32) (s : State) : exec (.canTxCancelWrite v c value) s = execCanTxCancelWrite v c value s := rfl
theorem exec_canEntryCtlWrite (c : Fin 16) (rx : Bool) (e : Fin 512) (value : U32) (s : State) : exec (.canEntryCtlWrite c rx e value) s = execCanEntryCtlWrite c rx e value s := rfl
theorem exec_canRxLostRead (v : Fin 256) (c : Fin 16) (s : State) : exec (.canRxLostRead v c) s = execCanRxLostRead v c s := rfl
theorem exec_tmReferenceSend (c : Fin 16) (s : State) : exec (.tmReferenceSend c) s = execTmReferenceSend c s := rfl
theorem exec_tmReferenceReceived (c : Fin 16) (rank : Fin 4) (count : Fin 64) (sof : U64) (s : State) : exec (.tmReferenceReceived c rank count sof) s = execTmReferenceReceived c rank count sof s := rfl
theorem exec_tmReferenceMissing (c : Fin 16) (s : State) : exec (.tmReferenceMissing c) s = execTmReferenceMissing c s := rfl
theorem exec_canLowPowerFrame (c : Fin 16) (pattern : Bool) (f : Option CanFrame) (s : State) : exec (.canLowPowerFrame c pattern f) s = execCanLowPowerFrame c pattern f s := rfl
theorem exec_canWakeConfirmTimeout (c : Fin 16) (s : State) : exec (.canWakeConfirmTimeout c) s = execCanWakeConfirmTimeout c s := rfl
theorem exec_canConfig (r : Req) (c : Byte) (f : CanRecord) (s : State) : exec (.canConfig r c f) s = execCanConfig r c f s := rfl
theorem exec_canStart (r : Req) (c : Byte) (s : State) : exec (.canStart r c) s = execCanStart r c s := rfl
theorem exec_canStop (r : Req) (c : Byte) (s : State) : exec (.canStop r c) s = execCanStop r c s := rfl
theorem exec_canRecover (r : Req) (c : Byte) (s : State) : exec (.canRecover r c) s = execCanRecover r c s := rfl
theorem exec_canSetFilter (r : Req) (c : Byte) (filter : Byte) (flags : Byte) (id : U32) (mask : U32) (s : State) : exec (.canSetFilter r c filter flags id mask) s = execCanSetFilter r c filter flags id mask s := rfl
theorem exec_canSetSieve (r : Req) (c : Byte) (dlc : Byte) (flags : Byte) (id : U32) (mask : U32) (dataMask : U64) (s : State) : exec (.canSetSieve r c dlc flags id mask dataMask) s = execCanSetSieve r c dlc flags id mask dataMask s := rfl
theorem exec_canCancel (r : Req) (c : Byte) (entry : Byte) (s : State) : exec (.canCancel r c entry) s = execCanCancel r c entry s := rfl
theorem exec_canTimeMaster (r : Req) (c : Byte) (role : Byte) (rank : Byte) (view : Byte) (base : U16) (cycle : U16) (maxCount : Byte) (s : State) : exec (.canTimeMaster r c role rank view base cycle maxCount) s = execCanTimeMaster r c role rank view base cycle maxCount s := rfl
theorem exec_canGetStatus (r : Req) (c : Byte) (s : State) : exec (.canGetStatus r c) s = execCanGetStatus r c s := rfl
theorem exec_canStats (r : Req) (c : Byte) (clear : Byte) (s : State) : exec (.canStats r c clear) s = execCanStats r c clear s := rfl
theorem exec_nmMessageReceived (c : Fin 16) (id : BitVec 11) (dlc : Fin 16) (data : List Byte) (s : State) : exec (.nmMessageReceived c id dlc data) s = execNmMessageReceived c id dlc data s := rfl
theorem exec_nmTokenPass (c : Fin 16) (s : State) : exec (.nmTokenPass c) s = execNmTokenPass c s := rfl
theorem exec_nmFormingTimeout (c : Fin 16) (s : State) : exec (.nmFormingTimeout c) s = execNmFormingTimeout c s := rfl
theorem exec_nmHopTimeout (c : Fin 16) (s : State) : exec (.nmHopTimeout c) s = execNmHopTimeout c s := rfl
theorem exec_nmTokenLost (c : Fin 16) (s : State) : exec (.nmTokenLost c) s = execNmTokenLost c s := rfl
theorem exec_nmSleepTimer (c : Fin 16) (s : State) : exec (.nmSleepTimer c) s = execNmSleepTimer c s := rfl
theorem exec_nmTmaxExpiry (c : Fin 16) (s : State) : exec (.nmTmaxExpiry c) s = execNmTmaxExpiry c s := rfl
theorem exec_nmConfig (r : Req) (c : Byte) (f : NmRecord) (s : State) : exec (.nmConfig r c f) s = execNmConfig r c f s := rfl
theorem exec_nmRequestAwake (r : Req) (c : Byte) (s : State) : exec (.nmRequestAwake r c) s = execNmRequestAwake r c s := rfl
theorem exec_nmRelease (r : Req) (c : Byte) (s : State) : exec (.nmRelease r c) s = execNmRelease r c s := rfl
theorem exec_nmSetTmax (r : Req) (c : Byte) (tMax : U16) (s : State) : exec (.nmSetTmax r c tMax) s = execNmSetTmax r c tMax s := rfl
theorem exec_nmGetStatus (r : Req) (c : Byte) (s : State) : exec (.nmGetStatus r c) s = execNmGetStatus r c s := rfl
theorem exec_linSlotStart (l : Fin 16) (s : State) : exec (.linSlotStart l) s = execLinSlotStart l s := rfl
theorem exec_linFrameEnd (l : Fin 16) (result : Fin 6) (data : List Byte) (s : State) : exec (.linFrameEnd l result data) s = execLinFrameEnd l result data s := rfl
theorem exec_linWakeScheduleStart (l : Fin 16) (s : State) : exec (.linWakeScheduleStart l) s = execLinWakeScheduleStart l s := rfl
theorem exec_linResponderWake (l : Fin 16) (s : State) : exec (.linResponderWake l) s = execLinResponderWake l s := rfl
theorem exec_linBusFault (l : Fin 16) (s : State) : exec (.linBusFault l) s = execLinBusFault l s := rfl
theorem exec_linBusFaultEnd (l : Fin 16) (s : State) : exec (.linBusFaultEnd l) s = execLinBusFaultEnd l s := rfl
theorem exec_linRxLostRead (v : Fin 256) (l : Fin 16) (s : State) : exec (.linRxLostRead v l) s = execLinRxLostRead v l s := rfl
theorem exec_linConfig (r : Req) (l : Byte) (f : LinRecord) (s : State) : exec (.linConfig r l f) s = execLinConfig r l f s := rfl
theorem exec_linLoadSchedule (r : Req) (l : Byte) (table : Byte) (n : U16) (entries : List LinEntry) (s : State) : exec (.linLoadSchedule r l table n entries) s = execLinLoadSchedule r l table n entries s := rfl
theorem exec_linSelectSchedule (r : Req) (l : Byte) (table : Byte) (s : State) : exec (.linSelectSchedule r l table) s = execLinSelectSchedule r l table s := rfl
theorem exec_linWake (r : Req) (l : Byte) (s : State) : exec (.linWake r l) s = execLinWake r l s := rfl
theorem exec_linSleep (r : Req) (l : Byte) (s : State) : exec (.linSleep r l) s = execLinSleep r l s := rfl
theorem exec_linDiag (r : Req) (l : Byte) (wanted : Byte) (data : U64) (s : State) : exec (.linDiag r l wanted data) s = execLinDiag r l wanted data s := rfl
theorem exec_linDiagDone (l : Fin 16) (s : State) : exec (.linDiagDone l) s = execLinDiagDone l s := rfl
theorem exec_linGetStatus (r : Req) (l : Byte) (s : State) : exec (.linGetStatus r l) s = execLinGetStatus r l s := rfl
theorem exec_linRxOverrunEnd (l : Fin 16) (s : State) : exec (.linRxOverrunEnd l) s = execLinRxOverrunEnd l s := rfl
theorem exec_sourcePduUpdate (pipe : Fin 4) (brg : Option BrgMeasure) (s : State) : exec (.sourcePduUpdate pipe brg) s = execSourcePduUpdate pipe brg s := rfl
theorem exec_pduTimeout (p : Fin 65536) (s : State) : exec (.pduTimeout p) s = execPduTimeout p s := rfl
theorem exec_signalCyclicWrite (d : Fin 262144) (s : State) : exec (.signalCyclicWrite d) s = execSignalCyclicWrite d s := rfl
theorem exec_signalDeferredWrite (d : Fin 262144) (s : State) : exec (.signalDeferredWrite d) s = execSignalDeferredWrite d s := rfl
theorem exec_pduCyclicSend (p : Fin 65536) (s : State) : exec (.pduCyclicSend p) s = execPduCyclicSend p s := rfl
theorem exec_i3RecordFrame (vid : BitVec 12) (payload : List Byte) (s : State) : exec (.i3RecordFrame vid payload) s = execI3RecordFrame vid payload s := rfl
theorem exec_sigTableEcc (pdu : Bool) (entry : Fin 262144) (s : State) : exec (.sigTableEcc pdu entry) s = execSigTableEcc pdu entry s := rfl
theorem exec_sigWrLoWrite (v : Fin 256) (slot : Fin 1024) (value : U32) (s : State) : exec (.sigWrLoWrite v slot value) s = execSigWrLoWrite v slot value s := rfl
theorem exec_sigRdLoRead (v : Fin 256) (slot : Fin 1024) (s : State) : exec (.sigRdLoRead v slot) s = execSigRdLoRead v slot s := rfl
theorem exec_prsBlock (stream : Fin 64) (source : Fin 16) (samples : List Int) (s : State) : exec (.prsBlock stream source samples) s = execPrsBlock stream source samples s := rfl
theorem exec_prsCaptureComplete (id : Fin 64) (s : State) : exec (.prsCaptureComplete id) s = execPrsCaptureComplete id s := rfl
theorem exec_sigLoad (r : Req) (first : U32) (n : U16) (table : Byte) (records : List Byte) (s : State) : exec (.sigLoad r first n table records) s = execSigLoad r first n table records s := rfl
theorem exec_sigRead (r : Req) (first : U32) (n : U16) (s : State) : exec (.sigRead r first n) s = execSigRead r first n s := rfl
theorem exec_sigWrite (r : Req) (n : U16) (target : U16) (entries : List SigWriteEntry) (s : State) : exec (.sigWrite r n target entries) s = execSigWrite r n target entries s := rfl
theorem exec_sigGetStatus (r : Req) (first : U32) (n : U16) (s : State) : exec (.sigGetStatus r first n) s = execSigGetStatus r first n s := rfl
theorem exec_sigPrsConfig (r : Req) (f : PrsFields) (s : State) : exec (.sigPrsConfig r f) s = execSigPrsConfig r f s := rfl
theorem exec_sigPrsStart (r : Req) (stream : Byte) (s : State) : exec (.sigPrsStart r stream) s = execSigPrsStart r stream s := rfl
theorem exec_sigPrsStop (r : Req) (stream : Byte) (s : State) : exec (.sigPrsStop r stream) s = execSigPrsStop r stream s := rfl
theorem exec_sigCapture (r : Req) (op : Byte) (source : U16) (id : U16) (part : Byte) (s : State) : exec (.sigCapture r op source id part) s = execSigCapture r op source id part s := rfl
theorem exec_viewChangeApply (view : Fin 16) (s : State) : exec (.viewChangeApply view) s = execViewChangeApply view s := rfl
theorem exec_captureEvent (source : Fin 65536) (rising : Bool) (s : State) : exec (.captureEvent source rising) s = execCaptureEvent source rising s := rfl
theorem exec_triggerFire (unit : Fin 16) (s : State) : exec (.triggerFire unit) s = execTriggerFire unit s := rfl
theorem exec_rtcAlarmExpiry (s : State) : exec (.rtcAlarmExpiry) s = execRtcAlarmExpiry s := rfl
theorem exec_timeRead (r : Req) (view : Byte) (s : State) : exec (.timeRead r view) s = execTimeRead r view s := rfl
theorem exec_timeAdjust (r : Req) (f : AdjustFields) (s : State) : exec (.timeAdjust r f) s = execTimeAdjust r f s := rfl
theorem exec_timeViewAlloc (r : Req) (op : Byte) (view : Byte) (vzf : Byte) (s : State) : exec (.timeViewAlloc r op view vzf) s = execTimeViewAlloc r op view vzf s := rfl
theorem exec_timeCaptureConfig (r : Req) (unit : Byte) (op : Byte) (source : U16) (edge : Byte) (s : State) : exec (.timeCaptureConfig r unit op source edge) s = execTimeCaptureConfig r unit op source edge s := rfl
theorem exec_timeTriggerConfig (r : Req) (f : TriggerFields) (s : State) : exec (.timeTriggerConfig r f) s = execTimeTriggerConfig r f s := rfl
theorem exec_timeRtcAlarm (r : Req) (op : Byte) (delay : U32) (s : State) : exec (.timeRtcAlarm r op delay) s = execTimeRtcAlarm r op delay s := rfl
theorem exec_vzfCreate (r : Req) (tpl : Byte) (vzf : Byte) (iommu : Machine.IommuCtx) (s : State) : exec (.vzfCreate r tpl vzf iommu) s = execVzfCreate r tpl vzf iommu s := rfl
theorem exec_vzfDestroy (r : Req) (vzf : Byte) (s : State) : exec (.vzfDestroy r vzf) s = execVzfDestroy r vzf s := rfl
theorem exec_vzfReset (r : Req) (vzf : Byte) (s : State) : exec (.vzfReset r vzf) s = execVzfReset r vzf s := rfl
theorem exec_vzfResetDrainEnd (v : Fin 256) (s : State) : exec (.vzfResetDrainEnd v) s = execVzfResetDrainEnd v s := rfl
theorem exec_vzfQos (r : Req) (vzf : Byte) (weights : Vector Byte 5) (s : State) : exec (.vzfQos r vzf weights) s = execVzfQos r vzf weights s := rfl
theorem exec_vzfGetInfo (r : Req) (vzf : Byte) (s : State) : exec (.vzfGetInfo r vzf) s = execVzfGetInfo r vzf s := rfl
theorem exec_vzfList (r : Req) (s : State) : exec (.vzfList r) s = execVzfList r s := rfl
theorem exec_dramZeroComplete (block : Nat) (s : State) : exec (.dramZeroComplete block) s = execDramZeroComplete block s := rfl
theorem exec_interruptBudgetRefill (s : State) : exec (.interruptBudgetRefill) s = execInterruptBudgetRefill s := rfl
theorem exec_vectorHoldoffExpiry (v : Fin 256) (k : Fin 64) (s : State) : exec (.vectorHoldoffExpiry v k) s = execVectorHoldoffExpiry v k s := rfl
theorem exec_lockstepMismatch (pair : Fin 4) (group : Fin 8) (s : State) : exec (.lockstepMismatch pair group) s = execLockstepMismatch pair group s := rfl
theorem exec_pairLbistDecision (pair : Fin 4) (pass : Bool) (injectOk : Bool) (s : State) : exec (.pairLbistDecision pair pass injectOk) s = execPairLbistDecision pair pass injectOk s := rfl
theorem exec_pairMigration (s : State) : exec (.pairMigration) s = execPairMigration s := rfl
theorem exec_trapStacking (pair : Fin 4) (regs : Machine.CoreRegs) (pmp : List Machine.PmpRegion) (cause : U32) (tval : U32) (user : Bool) (s : State) : exec (.trapStacking pair regs pmp cause tval user) s = execTrapStacking pair regs pmp cause tval user s := rfl
theorem exec_mretUnstack (pair : Fin 4) (regs : Machine.CoreRegs) (pmp : List Machine.PmpRegion) (s : State) : exec (.mretUnstack pair regs pmp) s = execMretUnstack pair regs pmp s := rfl
theorem exec_safCkptGoWrite (pair : Fin 4) (value : U32) (s : State) : exec (.safCkptGoWrite pair value) s = execSafCkptGoWrite pair value s := rfl
theorem exec_checkpointComplete (pair : Fin 4) (part : Fin 4) (s : State) : exec (.checkpointComplete pair part) s = execCheckpointComplete pair part s := rfl
theorem exec_trngHealthFail (s : State) : exec (.trngHealthFail) s = execTrngHealthFail s := rfl
theorem exec_keyProvision (r : Req) (f : ProvisionFields) (s : State) : exec (.keyProvision r f) s = execKeyProvision r f s := rfl
theorem exec_keySlotStatus (r : Req) (first : Byte) (count : Byte) (s : State) : exec (.keySlotStatus r first count) s = execKeySlotStatus r first count s := rfl
theorem exec_keyEraseSlot (r : Req) (slot : Byte) (nonce : Nat) (sig : KeySig) (s : State) : exec (.keyEraseSlot r slot nonce sig) s = execKeyEraseSlot r slot nonce sig s := rfl
theorem exec_keyAttest (r : Req) (nonce : List Byte) (flags : Byte) (s : State) : exec (.keyAttest r nonce flags) s = execKeyAttest r nonce flags s := rfl
theorem exec_keyRandom (r : Req) (n : U16) (s : State) : exec (.keyRandom r n) s = execKeyRandom r n s := rfl
theorem exec_keyGetIdentity (r : Req) (s : State) : exec (.keyGetIdentity r) s = execKeyGetIdentity r s := rfl
theorem exec_updBegin (r : Req) (target : Byte) (total : U32) (s : State) : exec (.updBegin r target total) s = execUpdBegin r target total s := rfl
theorem exec_updWrite (r : Req) (offset : U32) (data : List Byte) (s : State) : exec (.updWrite r offset data) s = execUpdWrite r offset data s := rfl
theorem exec_updVerify (r : Req) (s : State) : exec (.updVerify r) s = execUpdVerify r s := rfl
theorem exec_updVerifyDone (f : VerifyFacts) (bank : Machine.Bank) (s : State) : exec (.updVerifyDone f bank) s = execUpdVerifyDone f bank s := rfl
theorem exec_updCommit (r : Req) (flags : Byte) (s : State) : exec (.updCommit r flags) s = execUpdCommit r flags s := rfl
theorem exec_updAbort (r : Req) (s : State) : exec (.updAbort r) s = execUpdAbort r s := rfl
theorem exec_updStatus (r : Req) (s : State) : exec (.updStatus r) s = execUpdStatus r s := rfl
theorem exec_updRestart (r : Req) (s : State) : exec (.updRestart r) s = execUpdRestart r s := rfl
theorem exec_updWaiver (r : Req) (allowance : Byte) (digest : List Byte) (sigOk : Bool) (s : State) : exec (.updWaiver r allowance digest sigOk) s = execUpdWaiver r allowance digest sigOk s := rfl
theorem exec_updTargetTimeout (s : State) : exec (.updTargetTimeout) s = execUpdTargetTimeout s := rfl
theorem exec_udsSessionControl (sub : Byte) (s : State) : exec (.udsSessionControl sub) s = execUdsSessionControl sub s := rfl
theorem exec_udsEcuReset (sub : Byte) (s : State) : exec (.udsEcuReset sub) s = execUdsEcuReset sub s := rfl
theorem exec_udsReadDataById (id : U16) (s : State) : exec (.udsReadDataById id) s = execUdsReadDataById id s := rfl
theorem exec_udsRequestSeed (s : State) : exec (.udsRequestSeed) s = execUdsRequestSeed s := rfl
theorem exec_udsSendKey (sigOk : Bool) (s : State) : exec (.udsSendKey sigOk) s = execUdsSendKey sigOk s := rfl
theorem exec_udsSecurityLockoutEnd (s : State) : exec (.udsSecurityLockoutEnd) s = execUdsSecurityLockoutEnd s := rfl
theorem exec_udsRoutineControl (sub : Byte) (id : U16) (gyvin : Option UdsGyvin) (s : State) : exec (.udsRoutineControl sub id gyvin) s = execUdsRoutineControl sub id gyvin s := rfl
theorem exec_udsRequestDownload (format : Byte) (lenFormat : Byte) (target : U32) (total : U32) (s : State) : exec (.udsRequestDownload format lenFormat target total) s = execUdsRequestDownload format lenFormat target total s := rfl
theorem exec_udsTransferData (counter : Byte) (data : List Byte) (s : State) : exec (.udsTransferData counter data) s = execUdsTransferData counter data s := rfl
theorem exec_udsRequestTransferExit (s : State) : exec (.udsRequestTransferExit) s = execUdsRequestTransferExit s := rfl
theorem exec_udsTesterPresent (sub : Byte) (s : State) : exec (.udsTesterPresent sub) s = execUdsTesterPresent sub s := rfl
theorem exec_udsS3Timeout (s : State) : exec (.udsS3Timeout) s = execUdsS3Timeout s := rfl
theorem exec_basecampPortIdle (s : State) : exec (.basecampPortIdle) s = execBasecampPortIdle s := rfl
theorem exec_belayFrameSend (s : State) : exec (.belayFrameSend) s = execBelayFrameSend s := rfl
theorem exec_belayEncoderTimeout (s : State) : exec (.belayEncoderTimeout) s = execBelayEncoderTimeout s := rfl
theorem exec_belayFrameDecoded (code : Machine.BelayCode) (s : State) : exec (.belayFrameDecoded code) s = execBelayFrameDecoded code s := rfl
theorem exec_belayPartnerLost (s : State) : exec (.belayPartnerLost) s = execBelayPartnerLost s := rfl
theorem exec_twinGateDelay (die : Fin 8) (s : State) : exec (.twinGateDelay die) s = execTwinGateDelay die s := rfl
theorem exec_twinGraceExpiry (s : State) : exec (.twinGraceExpiry) s = execTwinGraceExpiry s := rfl
theorem exec_healthReport (vin : Int) (vbk12 : Int) (s : State) : exec (.healthReport vin vbk12) s = execHealthReport vin vbk12 s := rfl
theorem exec_standbySelftest (test : Fin 4) (pass : Bool) (entry : Fin 32) (s : State) : exec (.standbySelftest test pass entry) s = execStandbySelftest test pass entry s := rfl
theorem exec_twinStatus (r : Req) (s : State) : exec (.twinStatus r) s = execTwinStatus r s := rfl
theorem exec_twinHealth (r : Req) (which : Byte) (s : State) : exec (.twinHealth r which) s = execTwinHealth r which s := rfl
theorem exec_twinBelayTest (r : Req) (frames : U16) (s : State) : exec (.twinBelayTest r frames) s = execTwinBelayTest r frames s := rfl
theorem exec_belayTestDone (s : State) : exec (.belayTestDone) s = execBelayTestDone s := rfl
theorem exec_logRead (r : Req) (store : Byte) (first : U32) (count : U16) (s : State) : exec (.logRead r store first count) s = execLogRead r store first count s := rfl
theorem exec_logArchive (r : Req) (last : U32) (s : State) : exec (.logArchive r last) s = execLogArchive r last s := rfl
theorem exec_logStatus (r : Req) (op : Byte) (s : State) : exec (.logStatus r op) s = execLogStatus r op s := rfl
theorem exec_logReadStones (r : Req) (s : State) : exec (.logReadStones r) s = execLogReadStones r s := rfl
theorem exec_logClearStones (r : Req) (s : State) : exec (.logClearStones r) s = execLogClearStones r s := rfl
theorem exec_stoneCopyDone (stone : Fin 16) (s : State) : exec (.stoneCopyDone stone) s = execStoneCopyDone stone s := rfl
theorem exec_logSramEcc (s : State) : exec (.logSramEcc) s = execLogSramEcc s := rfl
theorem exec_nandLogWriteFail (s : State) : exec (.nandLogWriteFail) s = execNandLogWriteFail s := rfl

end Sys2Proof.Machine

end
end

