-- ==== Sys2Proof/Laws/Frame.lean ====
section
/-! SUPPORT. How frames compose: the small lemmas by which the frame of a function follows from those of the functions it calls. -/

section

set_option Elab.async false

namespace Sys2Proof.Machine

theorem Frame.refl (w : List Part) (s : State) : Frame w s s := ⟨fun p _ => by cases p <;> rfl⟩

theorem Part.same_trans {s t u : State} {p : Part} (h : p.same s t) (k : p.same t u) : p.same s u := by
  cases p <;> exact Eq.trans k h

/-- A step that changes less than `w` allows, taken after others within `w`. -/
theorem Frame.via {v w : List Part} {s t u : State} (k : Frame v t u) (sub : Part.sub v w = true) (h : Frame w s t) : Frame w s u :=
  ⟨fun p hp => Part.same_trans (h.same p hp) (k.same p (fun hv => hp (of_decide_eq_true (List.all_eq_true.mp sub p hv))))⟩

theorem Frame.trans {w : List Part} {s t u : State} (h : Frame w s t) (k : Frame w t u) : Frame w s u :=
  ⟨fun p hp => Part.same_trans (h.same p hp) (k.same p hp)⟩

theorem Frame.mono {v w : List Part} {s t : State} (k : Frame v s t) (sub : Part.sub v w = true) : Frame w s t :=
  Frame.via k sub (Frame.refl w s)

theorem Frame.ite {c : Prop} [Decidable c] {w : List Part} {s a b : State} (ha : Frame w s a) (hb : Frame w s b) :
    Frame w s (if c then a else b) := by
  split <;> assumption

theorem Frame.ite1 {α : Type} {c : Prop} [Decidable c] {w : List Part} {s : State} {a b : State × α} (ha : Frame w s a.1)
    (hb : Frame w s b.1) : Frame w s (if c then a else b).1 := by
  split <;> assumption

theorem Frame.cut {w : List Part} {s t : State} (x : State) (h : Frame w s x) (k : Frame w s x → Frame w s t) : Frame w s t := k h

theorem Frame.foldl {α : Type} {w : List Part} {s t : State} {f : State → α → State} {l : List α}
    (hf : ∀ u x, Frame w u (f u x)) (h : Frame w s t) : Frame w s (l.foldl f t) := by
  induction l generalizing t with
  | nil => exact h
  | cons x r ih => exact ih (h.trans (hf t x))

theorem Frame.foldl1 {α β : Type} {w : List Part} {s : State} {t : State × β} {f : State × β → α → State × β} {l : List α}
    (hf : ∀ u x, Frame w u.1 (f u x).1) (h : Frame w s t.1) : Frame w s (l.foldl f t).1 := by
  induction l generalizing t with
  | nil => exact h
  | cons x r ih => exact ih (h.trans (hf t x))

theorem Framed.next {w : List Part} {s t : State} (h : Frame w s t) : Framed w s (.next t) := by
  intro u hu
  cases hu
  exact h

theorem Framed.mono {v w : List Part} {s : State} {r : Result} (h : Framed v s r) (sub : Part.sub v w = true) : Framed w s r :=
  fun t ht => (h t ht).mono sub

theorem Frame.set_brg {w : List Part} {s t : State} {x0} (h : Frame w s t) (sub : Part.sub [.brg] w = true) :
    Frame w s { t with brg := x0 } :=
  Frame.via ⟨fun p hp => by cases p <;> first | rfl | exact absurd (by decide) hp⟩ sub h

theorem Frame.set_bus {w : List Part} {s t : State} {x0} (h : Frame w s t) (sub : Part.sub [.bus] w = true) :
    Frame w s { t with bus := x0 } :=
  Frame.via ⟨fun p hp => by cases p <;> first | rfl | exact absurd (by decide) hp⟩ sub h

theorem Frame.set_cfg {w : List Part} {s t : State} {x0} (h : Frame w s t) (sub : Part.sub [.cfg] w = true) :
    Frame w s { t with cfg := x0 } :=
  Frame.via ⟨fun p hp => by cases p <;> first | rfl | exact absurd (by decide) hp⟩ sub h

theorem Frame.set_ch {w : List Part} {s t : State} {x0} (h : Frame w s t) (sub : Part.sub [.ch] w = true) :
    Frame w s { t with ch := x0 } :=
  Frame.via ⟨fun p hp => by cases p <;> first | rfl | exact absurd (by decide) hp⟩ sub h

theorem Frame.set_esw {w : List Part} {s t : State} {x0} (h : Frame w s t) (sub : Part.sub [.esw] w = true) :
    Frame w s { t with esw := x0 } :=
  Frame.via ⟨fun p hp => by cases p <;> first | rfl | exact absurd (by decide) hp⟩ sub h

theorem Frame.set_fio {w : List Part} {s t : State} {x0} (h : Frame w s t) (sub : Part.sub [.fio] w = true) :
    Frame w s { t with fio := x0 } :=
  Frame.via ⟨fun p hp => by cases p <;> first | rfl | exact absurd (by decide) hp⟩ sub h

theorem Frame.set_free {w : List Part} {s t : State} {x0} (h : Frame w s t) (sub : Part.sub [.free] w = true) :
    Frame w s { t with free := x0 } :=
  Frame.via ⟨fun p hp => by cases p <;> first | rfl | exact absurd (by decide) hp⟩ sub h

theorem Frame.set_key {w : List Part} {s t : State} {x0} (h : Frame w s t) (sub : Part.sub [.key] w = true) :
    Frame w s { t with key := x0 } :=
  Frame.via ⟨fun p hp => by cases p <;> first | rfl | exact absurd (by decide) hp⟩ sub h

theorem Frame.set_log {w : List Part} {s t : State} {x0} (h : Frame w s t) (sub : Part.sub [.log] w = true) :
    Frame w s { t with log := x0 } :=
  Frame.via ⟨fun p hp => by cases p <;> first | rfl | exact absurd (by decide) hp⟩ sub h

theorem Frame.set_mbx {w : List Part} {s t : State} {x0} (h : Frame w s t) (sub : Part.sub [.mbx] w = true) :
    Frame w s { t with mbx := x0 } :=
  Frame.via ⟨fun p hp => by cases p <;> first | rfl | exact absurd (by decide) hp⟩ sub h

theorem Frame.set_net {w : List Part} {s t : State} {x0} (h : Frame w s t) (sub : Part.sub [.net] w = true) :
    Frame w s { t with net := x0 } :=
  Frame.via ⟨fun p hp => by cases p <;> first | rfl | exact absurd (by decide) hp⟩ sub h

theorem Frame.set_rfx {w : List Part} {s t : State} {x0} (h : Frame w s t) (sub : Part.sub [.rfx] w = true) :
    Frame w s { t with rfx := x0 } :=
  Frame.via ⟨fun p hp => by cases p <;> first | rfl | exact absurd (by decide) hp⟩ sub h

theorem Frame.set_ring {w : List Part} {s t : State} {x0} (h : Frame w s t) (sub : Part.sub [.ring] w = true) :
    Frame w s { t with ring := x0 } :=
  Frame.via ⟨fun p hp => by cases p <;> first | rfl | exact absurd (by decide) hp⟩ sub h

theorem Frame.set_saf {w : List Part} {s t : State} {x0} (h : Frame w s t) (sub : Part.sub [.saf] w = true) :
    Frame w s { t with saf := x0 } :=
  Frame.via ⟨fun p hp => by cases p <;> first | rfl | exact absurd (by decide) hp⟩ sub h

theorem Frame.set_sig {w : List Part} {s t : State} {x0} (h : Frame w s t) (sub : Part.sub [.sig] w = true) :
    Frame w s { t with sig := x0 } :=
  Frame.via ⟨fun p hp => by cases p <;> first | rfl | exact absurd (by decide) hp⟩ sub h

theorem Frame.set_sys {w : List Part} {s t : State} {x0} (h : Frame w s t) (sub : Part.sub [.sys] w = true) :
    Frame w s { t with sys := x0 } :=
  Frame.via ⟨fun p hp => by cases p <;> first | rfl | exact absurd (by decide) hp⟩ sub h

theorem Frame.set_tb {w : List Part} {s t : State} {x0} (h : Frame w s t) (sub : Part.sub [.tb] w = true) :
    Frame w s { t with tb := x0 } :=
  Frame.via ⟨fun p hp => by cases p <;> first | rfl | exact absurd (by decide) hp⟩ sub h

theorem Frame.set_twin {w : List Part} {s t : State} {x0} (h : Frame w s t) (sub : Part.sub [.twin] w = true) :
    Frame w s { t with twin := x0 } :=
  Frame.via ⟨fun p hp => by cases p <;> first | rfl | exact absurd (by decide) hp⟩ sub h

theorem Frame.set_uds {w : List Part} {s t : State} {x0} (h : Frame w s t) (sub : Part.sub [.uds] w = true) :
    Frame w s { t with uds := x0 } :=
  Frame.via ⟨fun p hp => by cases p <;> first | rfl | exact absurd (by decide) hp⟩ sub h

theorem Frame.set_upd {w : List Part} {s t : State} {x0} (h : Frame w s t) (sub : Part.sub [.upd] w = true) :
    Frame w s { t with upd := x0 } :=
  Frame.via ⟨fun p hp => by cases p <;> first | rfl | exact absurd (by decide) hp⟩ sub h

theorem Frame.set_vz {w : List Part} {s t : State} {x0} (h : Frame w s t) (sub : Part.sub [.vz] w = true) :
    Frame w s { t with vz := x0 } :=
  Frame.via ⟨fun p hp => by cases p <;> first | rfl | exact absurd (by decide) hp⟩ sub h

theorem Frame.set_cfg_upd {w : List Part} {s t : State} {x0 x1} (h : Frame w s t) (sub : Part.sub [.cfg, .upd] w = true) :
    Frame w s { t with cfg := x0, upd := x1 } :=
  Frame.via ⟨fun p hp => by cases p <;> first | rfl | exact absurd (by decide) hp⟩ sub h

theorem Frame.set_fio_bus {w : List Part} {s t : State} {x0 x1} (h : Frame w s t) (sub : Part.sub [.fio, .bus] w = true) :
    Frame w s { t with fio := x0, bus := x1 } :=
  Frame.via ⟨fun p hp => by cases p <;> first | rfl | exact absurd (by decide) hp⟩ sub h

theorem Frame.set_mbx_bus {w : List Part} {s t : State} {x0 x1} (h : Frame w s t) (sub : Part.sub [.mbx, .bus] w = true) :
    Frame w s { t with mbx := x0, bus := x1 } :=
  Frame.via ⟨fun p hp => by cases p <;> first | rfl | exact absurd (by decide) hp⟩ sub h

theorem Frame.set_mbx_vz {w : List Part} {s t : State} {x0 x1} (h : Frame w s t) (sub : Part.sub [.mbx, .vz] w = true) :
    Frame w s { t with mbx := x0, vz := x1 } :=
  Frame.via ⟨fun p hp => by cases p <;> first | rfl | exact absurd (by decide) hp⟩ sub h

theorem Frame.set_rfx_brg {w : List Part} {s t : State} {x0 x1} (h : Frame w s t) (sub : Part.sub [.rfx, .brg] w = true) :
    Frame w s { t with rfx := x0, brg := x1 } :=
  Frame.via ⟨fun p hp => by cases p <;> first | rfl | exact absurd (by decide) hp⟩ sub h

theorem Frame.set_sys_mbx {w : List Part} {s t : State} {x0 x1} (h : Frame w s t) (sub : Part.sub [.sys, .mbx] w = true) :
    Frame w s { t with sys := x0, mbx := x1 } :=
  Frame.via ⟨fun p hp => by cases p <;> first | rfl | exact absurd (by decide) hp⟩ sub h

theorem Frame.set_sys_net {w : List Part} {s t : State} {x0 x1} (h : Frame w s t) (sub : Part.sub [.sys, .net] w = true) :
    Frame w s { t with sys := x0, net := x1 } :=
  Frame.via ⟨fun p hp => by cases p <;> first | rfl | exact absurd (by decide) hp⟩ sub h

theorem Frame.set_sys_rfx {w : List Part} {s t : State} {x0 x1} (h : Frame w s t) (sub : Part.sub [.sys, .rfx] w = true) :
    Frame w s { t with sys := x0, rfx := x1 } :=
  Frame.via ⟨fun p hp => by cases p <;> first | rfl | exact absurd (by decide) hp⟩ sub h

theorem Frame.set_sys_ring {w : List Part} {s t : State} {x0 x1} (h : Frame w s t) (sub : Part.sub [.sys, .ring] w = true) :
    Frame w s { t with sys := x0, ring := x1 } :=
  Frame.via ⟨fun p hp => by cases p <;> first | rfl | exact absurd (by decide) hp⟩ sub h

theorem Frame.set_sys_tb {w : List Part} {s t : State} {x0 x1} (h : Frame w s t) (sub : Part.sub [.sys, .tb] w = true) :
    Frame w s { t with sys := x0, tb := x1 } :=
  Frame.via ⟨fun p hp => by cases p <;> first | rfl | exact absurd (by decide) hp⟩ sub h

theorem Frame.set_sys_upd {w : List Part} {s t : State} {x0 x1} (h : Frame w s t) (sub : Part.sub [.sys, .upd] w = true) :
    Frame w s { t with sys := x0, upd := x1 } :=
  Frame.via ⟨fun p hp => by cases p <;> first | rfl | exact absurd (by decide) hp⟩ sub h

theorem Frame.set_tb_ch {w : List Part} {s t : State} {x0 x1} (h : Frame w s t) (sub : Part.sub [.tb, .ch] w = true) :
    Frame w s { t with tb := x0, ch := x1 } :=
  Frame.via ⟨fun p hp => by cases p <;> first | rfl | exact absurd (by decide) hp⟩ sub h

theorem Frame.set_vz_free {w : List Part} {s t : State} {x0 x1} (h : Frame w s t) (sub : Part.sub [.vz, .free] w = true) :
    Frame w s { t with vz := x0, free := x1 } :=
  Frame.via ⟨fun p hp => by cases p <;> first | rfl | exact absurd (by decide) hp⟩ sub h

theorem Frame.set_mbx_log_vz {w : List Part} {s t : State} {x0 x1 x2} (h : Frame w s t) (sub : Part.sub [.mbx, .log, .vz] w = true) :
    Frame w s { t with mbx := x0, log := x1, vz := x2 } :=
  Frame.via ⟨fun p hp => by cases p <;> first | rfl | exact absurd (by decide) hp⟩ sub h

theorem Frame.set_sys_fio_net {w : List Part} {s t : State} {x0 x1 x2} (h : Frame w s t) (sub : Part.sub [.sys, .fio, .net] w = true) :
    Frame w s { t with sys := x0, fio := x1, net := x2 } :=
  Frame.via ⟨fun p hp => by cases p <;> first | rfl | exact absurd (by decide) hp⟩ sub h

theorem Frame.set_sys_log_brg {w : List Part} {s t : State} {x0 x1 x2} (h : Frame w s t) (sub : Part.sub [.sys, .log, .brg] w = true) :
    Frame w s { t with sys := x0, log := x1, brg := x2 } :=
  Frame.via ⟨fun p hp => by cases p <;> first | rfl | exact absurd (by decide) hp⟩ sub h

theorem Frame.set_mbx_vz_rfx_fio {w : List Part} {s t : State} {x0 x1 x2 x3} (h : Frame w s t) (sub : Part.sub [.mbx, .vz, .rfx, .fio] w = true) :
    Frame w s { t with mbx := x0, vz := x1, rfx := x2, fio := x3 } :=
  Frame.via ⟨fun p hp => by cases p <;> first | rfl | exact absurd (by decide) hp⟩ sub h

theorem Frame.set_sys_log_tb_upd {w : List Part} {s t : State} {x0 x1 x2 x3} (h : Frame w s t) (sub : Part.sub [.sys, .log, .tb, .upd] w = true) :
    Frame w s { t with sys := x0, log := x1, tb := x2, upd := x3 } :=
  Frame.via ⟨fun p hp => by cases p <;> first | rfl | exact absurd (by decide) hp⟩ sub h

theorem Frame.set_sys_rfx_twin_net {w : List Part} {s t : State} {x0 x1 x2 x3} (h : Frame w s t) (sub : Part.sub [.sys, .rfx, .twin, .net] w = true) :
    Frame w s { t with sys := x0, rfx := x1, twin := x2, net := x3 } :=
  Frame.via ⟨fun p hp => by cases p <;> first | rfl | exact absurd (by decide) hp⟩ sub h

theorem Frame.set_sys_mbx_tb_vz_saf_cfg_ch_rfx_twin_brg_fio_net_sig_upd_uds {w : List Part} {s t : State} {x0 x1 x2 x3 x4 x5 x6 x7 x8 x9 x10 x11 x12 x13 x14} (h : Frame w s t) (sub : Part.sub [.sys, .mbx, .tb, .vz, .saf, .cfg, .ch, .rfx, .twin, .brg, .fio, .net, .sig, .upd, .uds] w = true) :
    Frame w s { t with sys := x0, mbx := x1, tb := x2, vz := x3, saf := x4, cfg := x5, ch := x6, rfx := x7, twin := x8, brg := x9, fio := x10, net := x11, sig := x12, upd := x13, uds := x14 } :=
  Frame.via ⟨fun p hp => by cases p <;> first | rfl | exact absurd (by decide) hp⟩ sub h

end Sys2Proof.Machine

end
end

