-- ==== Sys2Proof/Laws/Frames/Ops.lean ====
section
/-! SUPPORT. The frame of each function of `Machine/Ops.lean`: the parts of the state it may change. -/

section

set_option Elab.async false

namespace Sys2Proof.Machine

theorem State.raiseSrc_frame (s : State) (v : Option Nat) (src : Nat) :
    Frame [.vz] s (State.raiseSrc s v src) := by
  unfold State.raiseSrc
  with_reducible repeat' first
    | assumption
    | decide
    | apply Frame.refl
    | apply Frame.ite
    | split
    | apply Frame.set_vz

theorem State.modPort_frame (s : State) (n : Nat) (f : Port → Port) :
    Frame [.mbx, .vz] s (State.modPort s n f) := by
  unfold State.modPort
  with_reducible repeat' first
    | assumption
    | decide
    | apply Frame.refl
    | (lift_lets; intro x; apply Frame.cut x ?_ (fun _ => ?_); subst x; rotate_left; clear_value x; rotate_right)
    | (lift_lets; intro x; apply Frame.cut x.1 ?_ (fun _ => ?_); subst x; rotate_left; clear_value x; rotate_right)
    | (lift_lets; intro x; clear_value x)
    | apply Frame.ite
    | split
    | apply Frame.set_mbx_vz

theorem complete_frame (port : Nat) (reqSeq tag : U32) (code status : U16) (result : List Byte) (s : State) :
    Frame [.mbx, .vz] s (complete port reqSeq tag code status result s) := by
  unfold complete
  with_reducible repeat' first
    | assumption
    | decide
    | apply Frame.refl
    | apply Frame.via (State.modPort_frame ..)
    | apply Frame.ite
    | split

theorem raiseOne_frame (k : EvKind) (inst : Nat) (sc : Scope) (data : List Byte) (s : State) :
    Frame [.mbx, .log, .vz] s (raiseOne k inst sc data s) := by
  unfold raiseOne
  with_reducible repeat' first
    | assumption
    | decide
    | apply Frame.refl
    | (lift_lets; intro x; apply Frame.cut x ?_ (fun _ => ?_); subst x; rotate_left; clear_value x; rotate_right)
    | (lift_lets; intro x; apply Frame.cut x.1 ?_ (fun _ => ?_); subst x; rotate_left; clear_value x; rotate_right)
    | (lift_lets; intro x; clear_value x)
    | apply Frame.ite
    | split
    | apply Frame.set_mbx_log_vz

theorem raise_frame (k : EvKind) (inst : Nat) (sc : Scope) (data : List Byte) (s : State) :
    Frame [.mbx, .log, .vz] s (raise k inst sc data s) := by
  unfold raise
  with_reducible repeat' first
    | assumption
    | decide
    | apply Frame.refl
    | (lift_lets; intro x; apply Frame.cut x ?_ (fun _ => ?_); subst x; rotate_left; clear_value x; rotate_right)
    | (lift_lets; intro x; apply Frame.cut x.1 ?_ (fun _ => ?_); subst x; rotate_left; clear_value x; rotate_right)
    | (lift_lets; intro x; clear_value x)
    | apply Frame.via (raiseOne_frame ..)
    | apply Frame.ite

theorem State.draw_frame (s : State) :
    Frame [.free] s (State.draw s) := by
  unfold State.draw
  with_reducible repeat' first
    | assumption
    | decide
    | apply Frame.refl
    | apply Frame.ite
    | split
    | apply Frame.set_free

theorem respond_frame (r : Req) (code status : U16) (data : List Byte) (s : State) :
    Frame [.mbx, .vz] s (respond r code status data s) := by
  unfold respond
  with_reducible repeat' first
    | assumption
    | decide
    | apply Frame.refl
    | apply Frame.via (State.modPort_frame ..)
    | apply Frame.ite
    | split

theorem runLater_frame {w : List Part} {s0 s : State} (r : Req) (c : Cmd) (body : Port → State → State × Option Reply)
    (sub : Part.sub [.mbx, .vz] w = true) (h : Frame w s0 s) (hb : ∀ p, Frame w s0 (body p s).1) : Frame w s0 (runLater r c body s) := by
  unfold runLater
  dsimp only
  repeat' split
  all_goals first
    | exact h
    | exact Frame.via (respond_frame ..) sub h
    | exact Frame.via (respond_frame ..) sub (hb _)
    | exact hb _

theorem runCmd_frame {w : List Part} {s0 s : State} (r : Req) (c : Cmd) (body : Port → State → State × Reply)
    (sub : Part.sub [.mbx, .vz] w = true) (h : Frame w s0 s) (hb : ∀ p, Frame w s0 (body p s).1) : Frame w s0 (runCmd r c body s) :=
  runLater_frame r c _ sub h hb

end Sys2Proof.Machine

end
end

