-- ==== Sys2Proof/Laws/Frames/Chan.lean ====
section
/-! SUPPORT. The frame of each function of `Machine/Chan.lean`: the parts of the state it may change. -/

section

set_option Elab.async false

namespace Sys2Proof.Machine

theorem State.modChan_frame (s : State) (i : Nat) (f : Chan → Chan) :
    Frame [.ch] s (State.modChan s i f) := by
  unfold State.modChan
  with_reducible repeat' first
    | assumption
    | decide
    | apply Frame.refl
    | apply Frame.ite
    | split
    | apply Frame.set_ch

theorem raiseCh_frame (k : EvKind) (i : Nat) (data : List Byte) (s : State) :
    Frame [.mbx, .log, .vz] s (raiseCh k i data s) := by
  unfold raiseCh
  with_reducible repeat' first
    | assumption
    | decide
    | apply Frame.refl
    | apply Frame.via (raise_frame ..)
    | apply Frame.ite

theorem urgent_frame (s : State) :
    Frame [.ch] s (urgent s) := by
  unfold urgent
  with_reducible repeat' first
    | assumption
    | decide
    | apply Frame.refl
    | apply Frame.ite
    | apply Frame.foldl
    | apply Frame.foldl1
    | intro _
    | split
    | apply Frame.set_ch

theorem State.modBridge_frame (s : State) (b : Nat) (f : Bridge → Bridge) :
    Frame [.ch] s (State.modBridge s b f) := by
  unfold State.modBridge
  with_reducible repeat' first
    | assumption
    | decide
    | apply Frame.refl
    | apply Frame.ite
    | split
    | apply Frame.set_ch

theorem State.modValve_frame (s : State) (k : Nat) (f : Valve → Valve) :
    Frame [.ch] s (State.modValve s k f) := by
  unfold State.modValve
  with_reducible repeat' first
    | assumption
    | decide
    | apply Frame.refl
    | apply Frame.ite
    | split
    | apply Frame.set_ch

theorem putSw_frame (i : Nat) (c : SwCmd) (s : State) :
    Frame [.ch] s (putSw i c s) := by
  unfold putSw
  with_reducible repeat' first
    | assumption
    | decide
    | apply Frame.refl
    | (lift_lets; intro x; apply Frame.cut x ?_ (fun _ => ?_); subst x; rotate_left; clear_value x; rotate_right)
    | (lift_lets; intro x; apply Frame.cut x.1 ?_ (fun _ => ?_); subst x; rotate_left; clear_value x; rotate_right)
    | (lift_lets; intro x; clear_value x)
    | apply Frame.via (State.modBridge_frame ..)
    | apply Frame.via (State.modChan_frame ..)
    | apply Frame.via (State.modValve_frame ..)
    | apply Frame.ite
    | split

theorem State.modDie_frame (s : State) (g : Nat) (f : Die → Die) :
    Frame [.ch] s (State.modDie s g f) := by
  unfold State.modDie
  with_reducible repeat' first
    | assumption
    | decide
    | apply Frame.refl
    | apply Frame.ite
    | split
    | apply Frame.set_ch

theorem discardBad_frame (i : Nat) (s : State) :
    Frame [.ch] s (discardBad i s) := by
  unfold discardBad
  with_reducible repeat' first
    | assumption
    | decide
    | apply Frame.refl
    | apply Frame.via (State.modChan_frame ..)

theorem clearCompliance_frame (i : Nat) (c : SwCmd) (s : State) :
    Frame [.mbx, .log, .vz, .ch] s (clearCompliance i c s) := by
  unfold clearCompliance
  with_reducible repeat' first
    | assumption
    | decide
    | apply Frame.refl
    | (lift_lets; intro x; apply Frame.cut x ?_ (fun _ => ?_); subst x; rotate_left; clear_value x; rotate_right)
    | (lift_lets; intro x; apply Frame.cut x.1 ?_ (fun _ => ?_); subst x; rotate_left; clear_value x; rotate_right)
    | (lift_lets; intro x; clear_value x)
    | apply Frame.via (State.modValve_frame ..)
    | apply Frame.via (raiseCh_frame ..)
    | apply Frame.ite

theorem enterSw_frame (i : Nat) (c : SwCmd) (s : State) :
    Frame [.mbx, .log, .vz, .ch] s (enterSw i c s) := by
  unfold enterSw
  with_reducible repeat' first
    | assumption
    | decide
    | apply Frame.refl
    | apply Frame.via (State.modChan_frame ..)
    | apply Frame.via (clearCompliance_frame ..)
    | apply Frame.via (putSw_frame ..)
    | apply Frame.ite

theorem windowFault_frame (v : Nat) (s : State) :
    Frame [.mbx, .log, .vz, .bus] s (windowFault v s) := by
  unfold windowFault
  with_reducible repeat' first
    | assumption
    | decide
    | apply Frame.refl
    | (lift_lets; intro x; apply Frame.cut x ?_ (fun _ => ?_); subst x; rotate_left; clear_value x; rotate_right)
    | (lift_lets; intro x; apply Frame.cut x.1 ?_ (fun _ => ?_); subst x; rotate_left; clear_value x; rotate_right)
    | (lift_lets; intro x; clear_value x)
    | apply Frame.via (raise_frame ..)
    | apply Frame.ite
    | split
    | apply Frame.set_mbx_bus

theorem urgentDie_frame (g : Nat) (s : State) :
    Frame [.ch] s (urgentDie g s) := by
  unfold urgentDie
  with_reducible repeat' first
    | assumption
    | decide
    | apply Frame.refl
    | apply Frame.ite
    | split
    | apply Frame.set_ch

theorem shedOne_frame (cause i : Nat) (s : State) :
    Frame [.mbx, .log, .vz, .ch] s (shedOne cause i s) := by
  unfold shedOne
  with_reducible repeat' first
    | assumption
    | decide
    | apply Frame.refl
    | (lift_lets; intro x; apply Frame.cut x ?_ (fun _ => ?_); subst x; rotate_left; clear_value x; rotate_right)
    | (lift_lets; intro x; apply Frame.cut x.1 ?_ (fun _ => ?_); subst x; rotate_left; clear_value x; rotate_right)
    | (lift_lets; intro x; clear_value x)
    | apply Frame.via (State.modChan_frame ..)
    | apply Frame.via (raiseCh_frame ..)
    | apply Frame.via (urgentDie_frame ..)

theorem shedAll_frame (cause : Nat) (is : List Nat) (s : State) :
    Frame [.mbx, .log, .vz, .ch] s (shedAll cause is s) := by
  unfold shedAll
  with_reducible repeat' first
    | assumption
    | decide
    | apply Frame.refl
    | apply Frame.via (shedOne_frame ..)
    | apply Frame.ite
    | apply Frame.foldl
    | apply Frame.foldl1
    | intro _

theorem discardStale_frame (i : Nat) (s : State) :
    Frame [.ch] s (discardStale i s) := by
  unfold discardStale
  with_reducible repeat' first
    | assumption
    | decide
    | apply Frame.refl
    | apply Frame.via (State.modChan_frame ..)

theorem doorbell_frame (v i : Nat) (w : U32) (s : State) :
    Frame [.mbx, .log, .vz, .ch, .bus] s (doorbell v i w s) := by
  unfold doorbell
  with_reducible repeat' first
    | assumption
    | decide
    | apply Frame.refl
    | (lift_lets; intro x; apply Frame.cut x ?_ (fun _ => ?_); subst x; rotate_left; clear_value x; rotate_right)
    | (lift_lets; intro x; apply Frame.cut x.1 ?_ (fun _ => ?_); subst x; rotate_left; clear_value x; rotate_right)
    | (lift_lets; intro x; clear_value x)
    | apply Frame.via (State.modChan_frame ..)
    | apply Frame.via (discardBad_frame ..)
    | apply Frame.via (discardStale_frame ..)
    | apply Frame.via (enterSw_frame ..)
    | apply Frame.via (windowFault_frame ..)
    | apply Frame.ite
    | split

end Sys2Proof.Machine

end
end

