-- ==== Sys2Proof/Laws/Frames/Bridge.lean ====
section
/-! SUPPORT. The frame of each function of `Machine/Bridge.lean`: the parts of the state it may change. -/

section

set_option Elab.async false

namespace Sys2Proof.Machine

theorem State.modBrg_frame (s : State) (f : BrgState → BrgState) :
    Frame [.brg] s (State.modBrg s f) := by
  unfold State.modBrg
  with_reducible repeat' first
    | assumption
    | decide
    | apply Frame.refl
    | apply Frame.ite
    | split
    | apply Frame.set_brg

theorem toQualify_frame (s : State) :
    Frame [.brg] s (toQualify s) := by
  unfold toQualify
  with_reducible repeat' first
    | assumption
    | decide
    | apply Frame.refl
    | apply Frame.via (State.modBrg_frame ..)
    | apply Frame.ite

theorem endHandoverTest_frame (status : U16) (result : List Byte) (s : State) :
    Frame [.mbx, .vz, .brg] s (endHandoverTest status result s) := by
  unfold endHandoverTest
  with_reducible repeat' first
    | assumption
    | decide
    | apply Frame.refl
    | apply Frame.via (State.modBrg_frame ..)
    | apply Frame.via (complete_frame ..)
    | apply Frame.via (toQualify_frame ..)
    | apply Frame.ite
    | split

theorem applyStage_frame (s : State) :
    Frame [.ch] s (applyStage s) := by
  unfold applyStage
  with_reducible repeat' first
    | assumption
    | decide
    | apply Frame.refl
    | (lift_lets; intro x; apply Frame.cut x ?_ (fun _ => ?_); subst x; rotate_left; clear_value x; rotate_right)
    | (lift_lets; intro x; apply Frame.cut x.1 ?_ (fun _ => ?_); subst x; rotate_left; clear_value x; rotate_right)
    | (lift_lets; intro x; clear_value x)
    | apply Frame.via (urgent_frame ..)
    | apply Frame.ite
    | apply Frame.foldl
    | apply Frame.foldl1
    | intro _
    | split
    | apply Frame.set_ch

theorem enterStopped_frame (s : State) :
    Frame [.ch, .brg] s (enterStopped s) := by
  unfold enterStopped
  with_reducible repeat' first
    | assumption
    | decide
    | apply Frame.refl
    | apply Frame.via (State.modBrg_frame ..)
    | apply Frame.via (applyStage_frame ..)
    | apply Frame.ite

theorem brgSafeAction_frame (s : State) :
    Frame [.ch, .brg] s (brgSafeAction s) := by
  unfold brgSafeAction
  with_reducible repeat' first
    | assumption
    | decide
    | apply Frame.refl
    | (lift_lets; intro x; apply Frame.cut x ?_ (fun _ => ?_); subst x; rotate_left; clear_value x; rotate_right)
    | (lift_lets; intro x; apply Frame.cut x.1 ?_ (fun _ => ?_); subst x; rotate_left; clear_value x; rotate_right)
    | (lift_lets; intro x; clear_value x)
    | apply Frame.via (State.modBrg_frame ..)
    | apply Frame.via (enterStopped_frame ..)
    | apply Frame.ite
    | split

theorem raiseBrg_frame (k : EvKind) (data : List Byte) (s : State) :
    Frame [.mbx, .log, .vz] s (raiseBrg k data s) := by
  unfold raiseBrg
  with_reducible repeat' first
    | assumption
    | decide
    | apply Frame.refl
    | apply Frame.via (raise_frame ..)
    | apply Frame.ite

theorem shedTo_frame (lvl : Nat) (vz12 : Bool) (s : State) :
    Frame [.mbx, .log, .vz, .ch, .brg] s (shedTo lvl vz12 s) := by
  unfold shedTo
  with_reducible repeat' first
    | assumption
    | decide
    | apply Frame.refl
    | (lift_lets; intro x; apply Frame.cut x ?_ (fun _ => ?_); subst x; rotate_left; clear_value x; rotate_right)
    | (lift_lets; intro x; apply Frame.cut x.1 ?_ (fun _ => ?_); subst x; rotate_left; clear_value x; rotate_right)
    | (lift_lets; intro x; clear_value x)
    | apply Frame.via (State.modBrg_frame ..)
    | apply Frame.via (applyStage_frame ..)
    | apply Frame.via (raiseBrg_frame ..)
    | apply Frame.ite

theorem releaseLevel_frame (s : State) :
    Frame [.ch, .brg] s (releaseLevel s) := by
  unfold releaseLevel
  with_reducible repeat' first
    | assumption
    | decide
    | apply Frame.refl
    | apply Frame.via (State.modBrg_frame ..)
    | apply Frame.via (applyStage_frame ..)
    | apply Frame.ite

theorem enterBuck_frame (s : State) :
    Frame [.brg] s (enterBuck s) := by
  unfold enterBuck
  with_reducible repeat' first
    | assumption
    | decide
    | apply Frame.refl
    | (lift_lets; intro x; apply Frame.cut x ?_ (fun _ => ?_); subst x; rotate_left; clear_value x; rotate_right)
    | (lift_lets; intro x; apply Frame.cut x.1 ?_ (fun _ => ?_); subst x; rotate_left; clear_value x; rotate_right)
    | (lift_lets; intro x; clear_value x)
    | apply Frame.via (State.modBrg_frame ..)

theorem enterBuckRestore_frame (s : State) :
    Frame [.ch, .brg] s (enterBuckRestore s) := by
  unfold enterBuckRestore
  with_reducible repeat' first
    | assumption
    | decide
    | apply Frame.refl
    | apply Frame.via (enterBuck_frame ..)
    | apply Frame.via (releaseLevel_frame ..)

theorem enterNofeed_frame (s : State) :
    Frame [.mbx, .log, .vz, .ch, .brg] s (enterNofeed s) := by
  unfold enterNofeed
  with_reducible repeat' first
    | assumption
    | decide
    | apply Frame.refl
    | apply Frame.via (State.modBrg_frame ..)
    | apply Frame.via (shedTo_frame ..)

theorem enterHandback_frame (s : State) :
    Frame [.brg] s (enterHandback s) := by
  unfold enterHandback
  with_reducible repeat' first
    | assumption
    | decide
    | apply Frame.refl
    | apply Frame.via (State.modBrg_frame ..)

end Sys2Proof.Machine

end
end

