-- ==== Sys2Proof/Laws/Frames/CanOps.lean ====
section
/-! SUPPORT. The frame of each function of `Machine/CanOps.lean`: the parts of the state it may change. -/

section

set_option Elab.async false

namespace Sys2Proof.Machine

theorem State.modCan_frame (s : State) (c : Nat) (f : CanChan → CanChan) :
    Frame [.net] s (State.modCan s c f) := by
  unfold State.modCan
  with_reducible repeat' first
    | assumption
    | decide
    | apply Frame.refl
    | apply Frame.ite
    | split
    | apply Frame.set_net

theorem State.modNm_frame (s : State) (c : Nat) (f : NmRing → NmRing) :
    Frame [.net] s (State.modNm s c f) := by
  unfold State.modNm
  with_reducible repeat' first
    | assumption
    | decide
    | apply Frame.refl
    | apply Frame.ite
    | split
    | apply Frame.set_net

theorem canFinish_frame (c e result : Nat) (late : Bool) (time : U64) (s : State) :
    Frame [.vz, .net] s (canFinish c e result late time s) := by
  unfold canFinish
  with_reducible repeat' first
    | assumption
    | decide
    | apply Frame.refl
    | (lift_lets; intro x; apply Frame.cut x ?_ (fun _ => ?_); subst x; rotate_left; clear_value x; rotate_right)
    | (lift_lets; intro x; apply Frame.cut x.1 ?_ (fun _ => ?_); subst x; rotate_left; clear_value x; rotate_right)
    | (lift_lets; intro x; clear_value x)
    | apply Frame.via (State.modCan_frame ..)
    | apply Frame.via (State.raiseSrc_frame ..)
    | apply Frame.ite

theorem canTake_frame (c e : Nat) (s : State) :
    Frame [.vz, .net] s (canTake c e s) := by
  unfold canTake
  with_reducible repeat' first
    | assumption
    | decide
    | apply Frame.refl
    | apply Frame.via (State.modCan_frame ..)
    | apply Frame.via (canFinish_frame ..)
    | apply Frame.ite

theorem canHand_frame (c e fmt : Nat) (ide brs : Bool) (id : U32) (data : List Byte) (s : State) :
    Frame [.vz, .net] s (canHand c e fmt ide brs id data s) := by
  unfold canHand
  with_reducible repeat' first
    | assumption
    | decide
    | apply Frame.refl
    | (lift_lets; intro x; apply Frame.cut x ?_ (fun _ => ?_); subst x; rotate_left; clear_value x; rotate_right)
    | (lift_lets; intro x; apply Frame.cut x.1 ?_ (fun _ => ?_); subst x; rotate_left; clear_value x; rotate_right)
    | (lift_lets; intro x; clear_value x)
    | apply Frame.via (State.modCan_frame ..)
    | apply Frame.via (canTake_frame ..)

theorem nmSend_frame (c : Nat) (m : NmMsg) (s : State) :
    Frame [.vz, .net] s (nmSend c m s) := by
  unfold nmSend
  with_reducible repeat' first
    | assumption
    | decide
    | apply Frame.refl
    | apply Frame.via (State.modNm_frame ..)
    | apply Frame.via (canHand_frame ..)
    | apply Frame.ite

theorem State.modLin_frame (s : State) (l : Nat) (f : LinChan → LinChan) :
    Frame [.net] s (State.modLin s l f) := by
  unfold State.modLin
  with_reducible repeat' first
    | assumption
    | decide
    | apply Frame.refl
    | apply Frame.ite
    | split
    | apply Frame.set_net

theorem linPublish_frame (l id : Nat) (data : List Byte) (s : State) :
    Frame [.net] s (linPublish l id data s) := by
  unfold linPublish
  with_reducible repeat' first
    | assumption
    | decide
    | apply Frame.refl
    | (lift_lets; intro x; apply Frame.cut x ?_ (fun _ => ?_); subst x; rotate_left; clear_value x; rotate_right)
    | (lift_lets; intro x; apply Frame.cut x.1 ?_ (fun _ => ?_); subst x; rotate_left; clear_value x; rotate_right)
    | (lift_lets; intro x; clear_value x)
    | apply Frame.via (State.modLin_frame ..)

end Sys2Proof.Machine

end
end

