-- ==== Sys2Proof/Laws/Frames/Signals.lean ====
section
/-! SUPPORT. The frame of each function of `Machine/Signals.lean`: the parts of the state it may change. -/

section

set_option Elab.async false

namespace Sys2Proof.Machine

theorem State.modSig_frame (s : State) (f : SigState → SigState) :
    Frame [.sig] s (State.modSig s f) := by
  unfold State.modSig
  with_reducible repeat' first
    | assumption
    | decide
    | apply Frame.refl
    | apply Frame.ite
    | split
    | apply Frame.set_sig

theorem sigArrive_frame (q : Nat) (data : List Byte) (origin : U32) (s : State) :
    Frame [.mbx, .log, .vz, .sig] s (sigArrive q data origin s) := by
  unfold sigArrive
  with_reducible repeat' first
    | assumption
    | decide
    | apply Frame.refl
    | (lift_lets; intro x; apply Frame.cut x ?_ (fun _ => ?_); subst x; rotate_left; clear_value x; rotate_right)
    | (lift_lets; intro x; apply Frame.cut x.1 ?_ (fun _ => ?_); subst x; rotate_left; clear_value x; rotate_right)
    | (lift_lets; intro x; clear_value x)
    | apply Frame.via (State.modSig_frame ..)
    | apply Frame.via (raise_frame ..)
    | apply Frame.ite

theorem arriveAll_frame (f : PduDesc → Bool) (data : List Byte) (s : State) :
    Frame [.mbx, .log, .vz, .sig] s (arriveAll f data s) := by
  unfold arriveAll
  with_reducible repeat' first
    | assumption
    | decide
    | apply Frame.refl
    | apply Frame.via (sigArrive_frame ..)
    | apply Frame.ite
    | apply Frame.foldl
    | apply Frame.foldl1
    | intro _

theorem State.modPdu_frame (s : State) (p : Nat) (f : PduRun → PduRun) :
    Frame [.sig] s (State.modPdu s p f) := by
  unfold State.modPdu
  with_reducible repeat' first
    | assumption
    | decide
    | apply Frame.refl
    | apply Frame.via (State.modSig_frame ..)

theorem sendCan_frame (q : Nat) (p : PduDesc) (data : List Byte) (s : State) :
    Frame [.vz, .net, .sig] s (sendCan q p data s) := by
  unfold sendCan
  with_reducible repeat' first
    | assumption
    | decide
    | apply Frame.refl
    | (lift_lets; intro x; apply Frame.cut x ?_ (fun _ => ?_); subst x; rotate_left; clear_value x; rotate_right)
    | (lift_lets; intro x; apply Frame.cut x.1 ?_ (fun _ => ?_); subst x; rotate_left; clear_value x; rotate_right)
    | (lift_lets; intro x; clear_value x)
    | apply Frame.via (State.modPdu_frame ..)
    | apply Frame.via (State.modSig_frame ..)
    | apply Frame.via (canHand_frame ..)
    | apply Frame.ite

theorem sendChCmd_frame (p : PduDesc) (data : List Byte) (s : State) :
    Frame [.mbx, .log, .vz, .ch, .free] s (sendChCmd p data s) := by
  unfold sendChCmd
  with_reducible repeat' first
    | assumption
    | decide
    | apply Frame.refl
    | (lift_lets; intro x; apply Frame.cut x ?_ (fun _ => ?_); subst x; rotate_left; clear_value x; rotate_right)
    | (lift_lets; intro x; apply Frame.cut x.1 ?_ (fun _ => ?_); subst x; rotate_left; clear_value x; rotate_right)
    | (lift_lets; intro x; clear_value x)
    | apply Frame.via (State.draw_frame ..)
    | apply Frame.via (discardBad_frame ..)
    | apply Frame.via (enterSw_frame ..)
    | apply Frame.ite
    | split

theorem sendPdu_frame (q : Nat) (s : State) :
    Frame [.mbx, .log, .vz, .ch, .net, .sig, .free] s (sendPdu q s) := by
  unfold sendPdu
  with_reducible repeat' first
    | assumption
    | decide
    | apply Frame.refl
    | (lift_lets; intro x; apply Frame.cut x ?_ (fun _ => ?_); subst x; rotate_left; clear_value x; rotate_right)
    | (lift_lets; intro x; apply Frame.cut x.1 ?_ (fun _ => ?_); subst x; rotate_left; clear_value x; rotate_right)
    | (lift_lets; intro x; clear_value x)
    | apply Frame.via (State.modPdu_frame ..)
    | apply Frame.via (State.modSig_frame ..)
    | apply Frame.via (linPublish_frame ..)
    | apply Frame.via (sendCan_frame ..)
    | apply Frame.via (sendChCmd_frame ..)
    | apply Frame.ite
    | split

theorem sendWritten_frame (q : Nat) (s : State) :
    Frame [.mbx, .log, .vz, .ch, .net, .sig, .free] s (sendWritten q s) := by
  unfold sendWritten
  with_reducible repeat' first
    | assumption
    | decide
    | apply Frame.refl
    | apply Frame.via (State.modPdu_frame ..)
    | apply Frame.via (sendPdu_frame ..)
    | apply Frame.ite
    | split

theorem flushSinks_frame (s : State) :
    Frame [.mbx, .log, .vz, .ch, .net, .sig, .free] s (flushSinks s) := by
  unfold flushSinks
  with_reducible repeat' first
    | assumption
    | decide
    | apply Frame.refl
    | apply Frame.via (State.modSig_frame ..)
    | apply Frame.via (sendWritten_frame ..)
    | apply Frame.ite
    | apply Frame.foldl
    | apply Frame.foldl1
    | intro _

theorem State.modRun_frame (s : State) (i : Nat) (f : SigRun → SigRun) :
    Frame [.sig] s (State.modRun s i f) := by
  unfold State.modRun
  with_reducible repeat' first
    | assumption
    | decide
    | apply Frame.refl
    | apply Frame.via (State.modSig_frame ..)

theorem raiseSig_frame (k : EvKind) (i owner : Nat) (s : State) :
    Frame [.mbx, .log, .vz] s (raiseSig k i owner s) := by
  unfold raiseSig
  with_reducible repeat' first
    | assumption
    | decide
    | apply Frame.refl
    | apply Frame.via (raise_frame ..)

theorem noteSat_frame (i : Nat) (d : SigDesc) (sat : Bool) (s : State) :
    Frame [.mbx, .log, .vz, .sig] s (noteSat i d sat s) := by
  unfold noteSat
  with_reducible repeat' first
    | assumption
    | decide
    | apply Frame.refl
    | (lift_lets; intro x; apply Frame.cut x ?_ (fun _ => ?_); subst x; rotate_left; clear_value x; rotate_right)
    | (lift_lets; intro x; apply Frame.cut x.1 ?_ (fun _ => ?_); subst x; rotate_left; clear_value x; rotate_right)
    | (lift_lets; intro x; clear_value x)
    | apply Frame.via (State.modRun_frame ..)
    | apply Frame.via (raiseSig_frame ..)
    | apply Frame.ite

theorem substEvent_frame (i owner : Nat) (on : Bool) (s : State) :
    Frame [.mbx, .log, .vz, .sig] s (substEvent i owner on s) := by
  unfold substEvent
  with_reducible repeat' first
    | assumption
    | decide
    | apply Frame.refl
    | (lift_lets; intro x; apply Frame.cut x ?_ (fun _ => ?_); subst x; rotate_left; clear_value x; rotate_right)
    | (lift_lets; intro x; apply Frame.cut x.1 ?_ (fun _ => ?_); subst x; rotate_left; clear_value x; rotate_right)
    | (lift_lets; intro x; clear_value x)
    | apply Frame.via (State.modSig_frame ..)
    | apply Frame.via (raiseSig_frame ..)
    | apply Frame.ite

theorem offer_frame (i : Nat) (d : SigDesc) (v : SigVal) (sub sat : Bool) (s : State) :
    Frame [.mbx, .log, .vz, .sig] s (offer i d v sub sat s).1 := by
  unfold offer
  with_reducible repeat' first
    | assumption
    | decide
    | apply Frame.refl
    | (lift_lets; intro x; apply Frame.cut x ?_ (fun _ => ?_); subst x; rotate_left; clear_value x; rotate_right)
    | (lift_lets; intro x; apply Frame.cut x.1 ?_ (fun _ => ?_); subst x; rotate_left; clear_value x; rotate_right)
    | (lift_lets; intro x; clear_value x)
    | apply Frame.via (State.modRun_frame ..)
    | apply Frame.via (substEvent_frame ..)
    | apply Frame.ite
    | apply Frame.ite1

theorem sinkWrite_frame (i w : Nat) (d : SigDesc) (v : SigVal) (s : State) :
    Frame [.sig] s (sinkWrite i w d v s).1 := by
  unfold sinkWrite
  with_reducible repeat' first
    | assumption
    | decide
    | apply Frame.refl
    | (lift_lets; intro x; apply Frame.cut x ?_ (fun _ => ?_); subst x; rotate_left; clear_value x; rotate_right)
    | (lift_lets; intro x; apply Frame.cut x.1 ?_ (fun _ => ?_); subst x; rotate_left; clear_value x; rotate_right)
    | (lift_lets; intro x; clear_value x)
    | apply Frame.via (State.modPdu_frame ..)
    | apply Frame.via (State.modRun_frame ..)
    | apply Frame.via (State.modSig_frame ..)
    | apply Frame.ite
    | apply Frame.ite1
    | split

theorem emit_frame (a0 a1 : Nat) (a2 : State) :
    Frame [.mbx, .log, .vz, .sig] a2 (emit a0 a1 a2) := by
  induction a0 generalizing a1 a2 with
  | zero => exact Frame.refl ..
  | succ n ih =>
    unfold emit
    with_reducible repeat' first
      | assumption
      | decide
      | apply Frame.refl
      | (lift_lets; intro x; apply Frame.cut x ?_ (fun _ => ?_); subst x; rotate_left; clear_value x; rotate_right)
      | (lift_lets; intro x; apply Frame.cut x.1 ?_ (fun _ => ?_); subst x; rotate_left; clear_value x; rotate_right)
      | (lift_lets; intro x; clear_value x)
      | apply Frame.via (ih ..)
      | apply Frame.via (State.modRun_frame ..)
      | apply Frame.via (noteSat_frame ..)
      | apply Frame.via (offer_frame ..)
      | apply Frame.via (sinkWrite_frame ..)
      | apply Frame.ite
      | apply Frame.foldl
      | apply Frame.foldl1
      | intro _
      | split

theorem runSignal_frame (i : Nat) (d : SigDesc) (p : PduDesc) (s : State) :
    Frame [.mbx, .log, .vz, .sig] s (runSignal i d p s) := by
  unfold runSignal
  with_reducible repeat' first
    | assumption
    | decide
    | apply Frame.refl
    | (lift_lets; intro x; apply Frame.cut x ?_ (fun _ => ?_); subst x; rotate_left; clear_value x; rotate_right)
    | (lift_lets; intro x; apply Frame.cut x.1 ?_ (fun _ => ?_); subst x; rotate_left; clear_value x; rotate_right)
    | (lift_lets; intro x; clear_value x)
    | apply Frame.via (State.modRun_frame ..)
    | apply Frame.via (emit_frame ..)
    | apply Frame.via (offer_frame ..)
    | apply Frame.ite
    | split

theorem fioSnapUpdate_frame (s : State) :
    Frame [.mbx, .log, .vz, .sig] s (fioSnapUpdate s) := by
  unfold fioSnapUpdate
  with_reducible repeat' first
    | assumption
    | decide
    | apply Frame.refl
    | apply Frame.via (arriveAll_frame ..)

theorem chStatUpdate_frame (i : Nat) (s : State) :
    Frame [.mbx, .log, .vz, .sig] s (chStatUpdate i s) := by
  unfold chStatUpdate
  with_reducible repeat' first
    | assumption
    | decide
    | apply Frame.refl
    | apply Frame.via (arriveAll_frame ..)

theorem runPdu_frame (q : Nat) (s : State) :
    Frame [.mbx, .log, .vz, .ch, .net, .sig, .free] s (runPdu q s) := by
  unfold runPdu
  with_reducible repeat' first
    | assumption
    | decide
    | apply Frame.refl
    | apply Frame.via (flushSinks_frame ..)
    | apply Frame.via (runSignal_frame ..)
    | apply Frame.ite
    | apply Frame.foldl
    | apply Frame.foldl1
    | intro _
    | split

theorem ageStep_frame (s : State) :
    Frame [.mbx, .log, .vz, .ch, .net, .sig, .free] s (ageStep s) := by
  unfold ageStep
  with_reducible repeat' first
    | assumption
    | decide
    | apply Frame.refl
    | (lift_lets; intro x; apply Frame.cut x ?_ (fun _ => ?_); subst x; rotate_left; clear_value x; rotate_right)
    | (lift_lets; intro x; apply Frame.cut x.1 ?_ (fun _ => ?_); subst x; rotate_left; clear_value x; rotate_right)
    | (lift_lets; intro x; clear_value x)
    | apply Frame.via (State.modSig_frame ..)
    | apply Frame.via (runPdu_frame ..)
    | apply Frame.ite
    | apply Frame.foldl
    | apply Frame.foldl1
    | intro _

theorem clearLoaded_frame (q : Nat) (s : State) :
    Frame [.sig] s (clearLoaded q s) := by
  unfold clearLoaded
  with_reducible repeat' first
    | assumption
    | decide
    | apply Frame.refl
    | apply Frame.via (State.modSig_frame ..)
    | apply Frame.ite
    | split
    | dsimp only

theorem confirmRest_frame (q : Nat) (origin : U32) (s : State) :
    Frame [.sig] s (confirmRest q origin s) := by
  unfold confirmRest
  with_reducible repeat' first
    | assumption
    | decide
    | apply Frame.refl
    | apply Frame.via (State.modRun_frame ..)
    | apply Frame.ite
    | apply Frame.foldl
    | apply Frame.foldl1
    | intro _

theorem takeEntry_frame (q : Nat) (origin : U32) (e : Nat × Nat × Nat) (s : State) :
    Frame [.sig] s (takeEntry q origin e s) := by
  unfold takeEntry
  with_reducible repeat' first
    | assumption
    | decide
    | apply Frame.refl
    | (lift_lets; intro x; apply Frame.cut x ?_ (fun _ => ?_); subst x; rotate_left; clear_value x; rotate_right)
    | (lift_lets; intro x; apply Frame.cut x.1 ?_ (fun _ => ?_); subst x; rotate_left; clear_value x; rotate_right)
    | (lift_lets; intro x; clear_value x)
    | apply Frame.via (State.modPdu_frame ..)
    | apply Frame.via (State.modRun_frame ..)
    | apply Frame.via (State.modSig_frame ..)
    | apply Frame.ite
    | apply Frame.foldl
    | apply Frame.foldl1
    | intro _

theorem takeRing_frame (q : Nat) (ev : SigEvent) (s : State) :
    Frame [.sig] s (takeRing q ev s) := by
  unfold takeRing
  with_reducible repeat' first
    | assumption
    | decide
    | apply Frame.refl
    | (lift_lets; intro x; apply Frame.cut x ?_ (fun _ => ?_); subst x; rotate_left; clear_value x; rotate_right)
    | (lift_lets; intro x; apply Frame.cut x.1 ?_ (fun _ => ?_); subst x; rotate_left; clear_value x; rotate_right)
    | (lift_lets; intro x; clear_value x)
    | apply Frame.via (State.modPdu_frame ..)
    | apply Frame.via (confirmRest_frame ..)
    | apply Frame.via (takeEntry_frame ..)
    | apply Frame.ite
    | apply Frame.foldl
    | apply Frame.foldl1
    | intro _

theorem runEvent_frame (ev : SigEvent) (s : State) :
    Frame [.mbx, .log, .vz, .ch, .net, .sig, .free] s (runEvent ev s) := by
  unfold runEvent
  with_reducible repeat' first
    | assumption
    | decide
    | apply Frame.refl
    | (lift_lets; intro x; apply Frame.cut x ?_ (fun _ => ?_); subst x; rotate_left; clear_value x; rotate_right)
    | (lift_lets; intro x; apply Frame.cut x.1 ?_ (fun _ => ?_); subst x; rotate_left; clear_value x; rotate_right)
    | (lift_lets; intro x; clear_value x)
    | apply Frame.via (State.modPdu_frame ..)
    | apply Frame.via (clearLoaded_frame ..)
    | apply Frame.via (runPdu_frame ..)
    | apply Frame.via (takeRing_frame ..)
    | apply Frame.ite

end Sys2Proof.Machine

end
end

