-- ==== Sys2Proof/Laws/Frames/Press.lean ====
section
/-! SUPPORT. The frame of each function of `Machine/Press.lean`: the parts of the state it may change. -/

section

set_option Elab.async false

namespace Sys2Proof.Machine

theorem startCapture_frame (src : Nat) (s : State) :
    Frame [.mbx, .log, .vz, .sig, .free] s (startCapture src s).1 := by
  unfold startCapture
  with_reducible repeat' first
    | assumption
    | decide
    | apply Frame.refl
    | (lift_lets; intro x; apply Frame.cut x ?_ (fun _ => ?_); subst x; rotate_left; clear_value x; rotate_right)
    | (lift_lets; intro x; apply Frame.cut x.1 ?_ (fun _ => ?_); subst x; rotate_left; clear_value x; rotate_right)
    | (lift_lets; intro x; clear_value x)
    | apply Frame.via (State.modSig_frame ..)
    | apply Frame.via (raise_frame ..)
    | apply Frame.ite
    | apply Frame.ite1
    | split
    | apply Frame.set_free

theorem prsTrigger_frame (src : Nat) (s : State) :
    Frame [.mbx, .log, .vz, .sig, .free] s (prsTrigger src s) := by
  unfold prsTrigger
  with_reducible repeat' first
    | assumption
    | decide
    | apply Frame.refl
    | apply Frame.via (startCapture_frame ..)

end Sys2Proof.Machine

end
end

