-- ==== Sys2Proof/Laws/Frames/Twin.lean ====
section
/-! SUPPORT. The frame of each function of `Machine/Twin.lean`: the parts of the state it may change. -/

section

set_option Elab.async false

namespace Sys2Proof.Machine

theorem setRole_frame (r : TwinRole) (s : State) :
    Frame [.mbx, .log, .vz, .ch, .twin] s (setRole r s) := by
  unfold setRole
  with_reducible repeat' first
    | assumption
    | decide
    | apply Frame.refl
    | (lift_lets; intro x; apply Frame.cut x ?_ (fun _ => ?_); subst x; rotate_left; clear_value x; rotate_right)
    | (lift_lets; intro x; apply Frame.cut x.1 ?_ (fun _ => ?_); subst x; rotate_left; clear_value x; rotate_right)
    | (lift_lets; intro x; clear_value x)
    | apply Frame.via (raise_frame ..)
    | apply Frame.via (urgent_frame ..)
    | apply Frame.ite
    | split
    | apply Frame.set_twin

theorem twinRelease_frame (s : State) :
    Frame [.mbx, .log, .vz, .ch, .twin] s (twinRelease s) := by
  unfold twinRelease
  with_reducible repeat' first
    | assumption
    | decide
    | apply Frame.refl
    | apply Frame.via (setRole_frame ..)
    | apply Frame.ite

theorem twinFault_frame (s : State) :
    Frame [.mbx, .log, .vz, .ch, .twin] s (twinFault s) := by
  unfold twinFault
  with_reducible repeat' first
    | assumption
    | decide
    | apply Frame.refl
    | apply Frame.via (twinRelease_frame ..)
    | apply Frame.ite

theorem mirrorCmd_frame (k own partner : Nat) (s : State) :
    Frame [.ch] s (mirrorCmd k own partner s) := by
  unfold mirrorCmd
  with_reducible repeat' first
    | assumption
    | decide
    | apply Frame.refl
    | apply Frame.via (putSw_frame ..)
    | apply Frame.ite
    | split

theorem takeover_frame (release : Bool) (s : State) :
    Frame [.mbx, .log, .vz, .ch, .twin] s (takeover release s) := by
  unfold takeover
  with_reducible repeat' first
    | assumption
    | decide
    | apply Frame.refl
    | (lift_lets; intro x; apply Frame.cut x ?_ (fun _ => ?_); subst x; rotate_left; clear_value x; rotate_right)
    | (lift_lets; intro x; apply Frame.cut x.1 ?_ (fun _ => ?_); subst x; rotate_left; clear_value x; rotate_right)
    | (lift_lets; intro x; clear_value x)
    | apply Frame.via (mirrorCmd_frame ..)
    | apply Frame.via (raise_frame ..)
    | apply Frame.via (setRole_frame ..)
    | apply Frame.ite
    | apply Frame.foldl
    | apply Frame.foldl1
    | intro _
    | split
    | apply Frame.set_twin

theorem twinCheck_frame (s : State) :
    Frame [.mbx, .log, .vz, .ch, .twin] s (twinCheck s) := by
  unfold twinCheck
  with_reducible repeat' first
    | assumption
    | decide
    | apply Frame.refl
    | (lift_lets; intro x; apply Frame.cut x ?_ (fun _ => ?_); subst x; rotate_left; clear_value x; rotate_right)
    | (lift_lets; intro x; apply Frame.cut x.1 ?_ (fun _ => ?_); subst x; rotate_left; clear_value x; rotate_right)
    | (lift_lets; intro x; clear_value x)
    | apply Frame.via (raise_frame ..)
    | apply Frame.via (setRole_frame ..)
    | apply Frame.via (takeover_frame ..)
    | apply Frame.ite
    | split

theorem reGate_frame (s : State) :
    Frame [.ch] s (reGate s) := by
  unfold reGate
  with_reducible repeat' first
    | assumption
    | decide
    | apply Frame.refl
    | (lift_lets; intro x; apply Frame.cut x ?_ (fun _ => ?_); subst x; rotate_left; clear_value x; rotate_right)
    | (lift_lets; intro x; apply Frame.cut x.1 ?_ (fun _ => ?_); subst x; rotate_left; clear_value x; rotate_right)
    | (lift_lets; intro x; clear_value x)
    | apply Frame.ite
    | apply Frame.foldl
    | apply Frame.foldl1
    | intro _
    | split
    | apply Frame.set_ch

end Sys2Proof.Machine

end
end

