-- ==== Sys2Proof/Laws/Frames/Die.lean ====
section
/-! SUPPORT. The frame of each function of `Machine/Die.lean`: the parts of the state it may change. -/

section

set_option Elab.async false

namespace Sys2Proof.Machine

theorem cancelKeep_frame (s : State) :
    Frame [.ch] s (cancelKeep s) := by
  unfold cancelKeep
  with_reducible repeat' first
    | assumption
    | decide
    | apply Frame.refl
    | apply Frame.ite
    | split
    | apply Frame.set_ch

theorem compEnds_frame (g : Nat) (s : State) :
    Frame [.mbx, .log, .vz, .ch] s (compEnds g s) := by
  unfold compEnds
  with_reducible repeat' first
    | assumption
    | decide
    | apply Frame.refl
    | apply Frame.via (State.modValve_frame ..)
    | apply Frame.via (raiseCh_frame ..)
    | apply Frame.ite
    | apply Frame.foldl
    | apply Frame.foldl1
    | intro _
    | split
    | dsimp only

theorem endHold_frame (g : Nat) (s : State) :
    Frame [.mbx, .log, .vz, .ch] s (endHold g s) := by
  unfold endHold
  with_reducible repeat' first
    | assumption
    | decide
    | apply Frame.refl
    | (lift_lets; intro x; apply Frame.cut x ?_ (fun _ => ?_); subst x; rotate_left; clear_value x; rotate_right)
    | (lift_lets; intro x; apply Frame.cut x.1 ?_ (fun _ => ?_); subst x; rotate_left; clear_value x; rotate_right)
    | (lift_lets; intro x; clear_value x)
    | apply Frame.via (State.modDie_frame ..)
    | apply Frame.via (raise_frame ..)
    | apply Frame.ite

theorem keepToHold_frame (s : State) (g : Nat) :
    Frame [.ch] s (keepToHold s g) := by
  unfold keepToHold
  with_reducible repeat' first
    | assumption
    | decide
    | apply Frame.refl
    | (lift_lets; intro x; apply Frame.cut x ?_ (fun _ => ?_); subst x; rotate_left; clear_value x; rotate_right)
    | (lift_lets; intro x; apply Frame.cut x.1 ?_ (fun _ => ?_); subst x; rotate_left; clear_value x; rotate_right)
    | (lift_lets; intro x; clear_value x)
    | apply Frame.ite
    | apply Frame.foldl
    | apply Frame.foldl1
    | intro _
    | split
    | apply Frame.set_ch

theorem dieFrame_frame (g : Nat) (s : State) :
    Frame [.mbx, .log, .vz, .ch] s (dieFrame g s) := by
  unfold dieFrame
  with_reducible repeat' first
    | assumption
    | decide
    | apply Frame.refl
    | (lift_lets; intro x; apply Frame.cut x ?_ (fun _ => ?_); subst x; rotate_left; clear_value x; rotate_right)
    | (lift_lets; intro x; apply Frame.cut x.1 ?_ (fun _ => ?_); subst x; rotate_left; clear_value x; rotate_right)
    | (lift_lets; intro x; clear_value x)
    | apply Frame.via (compEnds_frame ..)
    | apply Frame.via (endHold_frame ..)
    | apply Frame.via (keepToHold_frame ..)
    | apply Frame.ite
    | apply Frame.foldl
    | apply Frame.foldl1
    | intro _
    | split
    | apply Frame.set_ch

theorem allFrames_frame (s : State) :
    Frame [.mbx, .log, .vz, .ch] s (allFrames s) := by
  unfold allFrames
  with_reducible repeat' first
    | assumption
    | decide
    | apply Frame.refl
    | apply Frame.via (dieFrame_frame ..)
    | apply Frame.ite
    | apply Frame.foldl
    | apply Frame.foldl1
    | intro _

theorem supplyLoss_frame (g : Nat) (reversed : Bool) (s : State) :
    Frame [.mbx, .log, .vz, .ch, .twin] s (supplyLoss g reversed s) := by
  unfold supplyLoss
  with_reducible repeat' first
    | assumption
    | decide
    | apply Frame.refl
    | (lift_lets; intro x; apply Frame.cut x ?_ (fun _ => ?_); subst x; rotate_left; clear_value x; rotate_right)
    | (lift_lets; intro x; apply Frame.cut x.1 ?_ (fun _ => ?_); subst x; rotate_left; clear_value x; rotate_right)
    | (lift_lets; intro x; clear_value x)
    | apply Frame.via (twinFault_frame ..)
    | apply Frame.ite
    | apply Frame.foldl
    | apply Frame.foldl1
    | intro _
    | split
    | apply Frame.set_ch

theorem feedLoss_frame (s : State) :
    Frame [.mbx, .log, .vz, .ch, .twin] s (feedLoss s) := by
  unfold feedLoss
  with_reducible repeat' first
    | assumption
    | decide
    | apply Frame.refl
    | apply Frame.via (supplyLoss_frame ..)
    | apply Frame.ite
    | apply Frame.foldl
    | apply Frame.foldl1
    | intro _
    | split
    | dsimp only

theorem tripDie_frame (i cause : Nat) (s : State) :
    Frame [.ch] s (tripDie i cause s) := by
  unfold tripDie
  with_reducible repeat' first
    | assumption
    | decide
    | apply Frame.refl
    | (lift_lets; intro x; apply Frame.cut x ?_ (fun _ => ?_); subst x; rotate_left; clear_value x; rotate_right)
    | (lift_lets; intro x; apply Frame.cut x.1 ?_ (fun _ => ?_); subst x; rotate_left; clear_value x; rotate_right)
    | (lift_lets; intro x; clear_value x)
    | apply Frame.via (State.modBridge_frame ..)
    | apply Frame.via (State.modChan_frame ..)
    | apply Frame.via (State.modDie_frame ..)
    | apply Frame.via (State.modValve_frame ..)
    | apply Frame.ite
    | split
    | dsimp only

theorem trip_frame (i cause : Nat) (s : State) :
    Frame [.mbx, .log, .vz, .ch, .twin, .sig, .free] s (trip i cause s) := by
  unfold trip
  with_reducible repeat' first
    | assumption
    | decide
    | apply Frame.refl
    | (lift_lets; intro x; apply Frame.cut x ?_ (fun _ => ?_); subst x; rotate_left; clear_value x; rotate_right)
    | (lift_lets; intro x; apply Frame.cut x.1 ?_ (fun _ => ?_); subst x; rotate_left; clear_value x; rotate_right)
    | (lift_lets; intro x; clear_value x)
    | apply Frame.via (State.raiseSrc_frame ..)
    | apply Frame.via (prsTrigger_frame ..)
    | apply Frame.via (raiseCh_frame ..)
    | apply Frame.via (tripDie_frame ..)
    | apply Frame.via (twinFault_frame ..)
    | apply Frame.ite

theorem addClamp_frame (i uj : Nat) (s : State) :
    Frame [.mbx, .log, .vz, .ch, .twin] s (addClamp i uj s) := by
  unfold addClamp
  with_reducible repeat' first
    | assumption
    | decide
    | apply Frame.refl
    | (lift_lets; intro x; apply Frame.cut x ?_ (fun _ => ?_); subst x; rotate_left; clear_value x; rotate_right)
    | (lift_lets; intro x; apply Frame.cut x.1 ?_ (fun _ => ?_); subst x; rotate_left; clear_value x; rotate_right)
    | (lift_lets; intro x; clear_value x)
    | apply Frame.via (State.modChan_frame ..)
    | apply Frame.via (State.raiseSrc_frame ..)
    | apply Frame.via (raiseCh_frame ..)
    | apply Frame.via (twinFault_frame ..)
    | apply Frame.ite

theorem chanOff_frame (i src : Nat) (s : State) :
    Frame [.ch] s (chanOff i src s) := by
  unfold chanOff
  with_reducible repeat' first
    | assumption
    | decide
    | apply Frame.refl
    | apply Frame.ite
    | split
    | apply Frame.set_ch

theorem tryRetry_frame (i : Nat) (s : State) :
    Frame [.ch] s (tryRetry i s) := by
  unfold tryRetry
  with_reducible repeat' first
    | assumption
    | decide
    | apply Frame.refl
    | (lift_lets; intro x; apply Frame.cut x ?_ (fun _ => ?_); subst x; rotate_left; clear_value x; rotate_right)
    | (lift_lets; intro x; apply Frame.cut x.1 ?_ (fun _ => ?_); subst x; rotate_left; clear_value x; rotate_right)
    | (lift_lets; intro x; clear_value x)
    | apply Frame.via (State.modChan_frame ..)
    | apply Frame.ite
    | split
    | apply Frame.set_ch

end Sys2Proof.Machine

end
end

