-- ==== Sys2Proof/Laws/Frames/Esw.lean ====
section
/-! SUPPORT. The frame of each function of `Machine/Esw.lean`: the parts of the state it may change. -/

section

set_option Elab.async false

namespace Sys2Proof.Machine

theorem State.modEsw_frame (s : State) (f : EswState → EswState) :
    Frame [.esw] s (State.modEsw s f) := by
  unfold State.modEsw
  with_reducible repeat' first
    | assumption
    | decide
    | apply Frame.refl
    | apply Frame.ite
    | split
    | apply Frame.set_esw

theorem State.modSwp_frame (s : State) (p : Nat) (f : EswPort → EswPort) :
    Frame [.esw] s (State.modSwp s p f) := by
  unfold State.modSwp
  with_reducible repeat' first
    | assumption
    | decide
    | apply Frame.refl
    | apply Frame.via (State.modEsw_frame ..)

theorem State.modPot_frame (s : State) (k : Nat) (f : Pot → Pot) :
    Frame [.esw] s (State.modPot s k f) := by
  unfold State.modPot
  with_reducible repeat' first
    | assumption
    | decide
    | apply Frame.refl
    | apply Frame.via (State.modEsw_frame ..)

theorem State.modQp_frame (s : State) (v q : Nat) (f : QPair → QPair) :
    Frame [.esw] s (State.modQp s v q f) := by
  unfold State.modQp
  with_reducible repeat' first
    | assumption
    | decide
    | apply Frame.refl
    | apply Frame.via (State.modEsw_frame ..)

theorem State.modEswStats_frame (s : State) (f : EswStats → EswStats) :
    Frame [.esw] s (State.modEswStats s f) := by
  unfold State.modEswStats
  with_reducible repeat' first
    | assumption
    | decide
    | apply Frame.refl
    | apply Frame.via (State.modEsw_frame ..)

theorem State.modSwCount_frame (s : State) (p : Nat) (f : EswCounts → EswCounts) :
    Frame [.esw] s (State.modSwCount s p f) := by
  unfold State.modSwCount
  with_reducible repeat' first
    | assumption
    | decide
    | apply Frame.refl
    | apply Frame.via (State.modSwp_frame ..)

theorem raisePort_frame (k : EvKind) (p : Nat) (s : State) :
    Frame [.mbx, .log, .vz] s (raisePort k p s) := by
  unfold raisePort
  with_reducible repeat' first
    | assumption
    | decide
    | apply Frame.refl
    | apply Frame.via (raise_frame ..)

theorem completeTx_frame (r : TxRef) (d : TxDone) (s : State) :
    Frame [.vz, .esw] s (completeTx r d s) := by
  unfold completeTx
  with_reducible repeat' first
    | assumption
    | decide
    | apply Frame.refl
    | apply Frame.via (State.modQp_frame ..)
    | apply Frame.via (State.raiseSrc_frame ..)
    | apply Frame.ite
    | split
    | apply Frame.set_vz

theorem completeOpt_frame (r : Option TxRef) (d : TxDone) (s : State) :
    Frame [.vz, .esw] s (completeOpt r d s) := by
  unfold completeOpt
  with_reducible repeat' first
    | assumption
    | decide
    | apply Frame.refl
    | apply Frame.via (completeTx_frame ..)
    | apply Frame.ite
    | split

theorem dropAt_frame (p : Nat) (why : DropWhy) (tx : Option TxRef) (s : State) :
    Frame [.vz, .esw] s (dropAt p why tx s) := by
  unfold dropAt
  with_reducible repeat' first
    | assumption
    | decide
    | apply Frame.refl
    | apply Frame.via (State.modSwCount_frame ..)
    | apply Frame.via (completeOpt_frame ..)

theorem potDrop_frame (x : Stored) (why : DropWhy) (s : State) :
    Frame [.mbx, .log, .vz, .esw] s (potDrop x why s) := by
  unfold potDrop
  with_reducible repeat' first
    | assumption
    | decide
    | apply Frame.refl
    | (lift_lets; intro x; apply Frame.cut x ?_ (fun _ => ?_); subst x; rotate_left; clear_value x; rotate_right)
    | (lift_lets; intro x; apply Frame.cut x.1 ?_ (fun _ => ?_); subst x; rotate_left; clear_value x; rotate_right)
    | (lift_lets; intro x; clear_value x)
    | apply Frame.via (State.modPot_frame ..)
    | apply Frame.via (State.modQp_frame ..)
    | apply Frame.via (dropAt_frame ..)
    | apply Frame.via (raise_frame ..)
    | apply Frame.ite
    | apply Frame.foldl
    | apply Frame.foldl1
    | intro _
    | split

theorem movePointer_frame (x : Stored) (rivals : List Rival) (s : State) :
    Frame [.esw] s (movePointer x rivals s) := by
  unfold movePointer
  with_reducible repeat' first
    | assumption
    | decide
    | apply Frame.refl
    | (lift_lets; intro x; apply Frame.cut x ?_ (fun _ => ?_); subst x; rotate_left; clear_value x; rotate_right)
    | (lift_lets; intro x; apply Frame.cut x.1 ?_ (fun _ => ?_); subst x; rotate_left; clear_value x; rotate_right)
    | (lift_lets; intro x; clear_value x)
    | apply Frame.via (State.modEsw_frame ..)
    | apply Frame.ite

theorem storeFrame_frame (x : Stored) (s : State) :
    Frame [.esw] s (storeFrame x s) := by
  unfold storeFrame
  with_reducible repeat' first
    | assumption
    | decide
    | apply Frame.refl
    | (lift_lets; intro x; apply Frame.cut x ?_ (fun _ => ?_); subst x; rotate_left; clear_value x; rotate_right)
    | (lift_lets; intro x; apply Frame.cut x.1 ?_ (fun _ => ?_); subst x; rotate_left; clear_value x; rotate_right)
    | (lift_lets; intro x; clear_value x)
    | apply Frame.via (State.modEsw_frame ..)
    | apply Frame.via (State.modEswStats_frame ..)
    | apply Frame.via (State.modPot_frame ..)

theorem scrubPart_frame (x : Stored) (s : State) :
    Frame [.esw] s (scrubPart x s) := by
  unfold scrubPart
  with_reducible repeat' first
    | assumption
    | decide
    | apply Frame.refl
    | (lift_lets; intro x; apply Frame.cut x ?_ (fun _ => ?_); subst x; rotate_left; clear_value x; rotate_right)
    | (lift_lets; intro x; apply Frame.cut x.1 ?_ (fun _ => ?_); subst x; rotate_left; clear_value x; rotate_right)
    | (lift_lets; intro x; clear_value x)
    | apply Frame.via (State.modEsw_frame ..)

theorem request_frame (x : Stored) (rivals : List Rival) (s : State) :
    Frame [.mbx, .log, .vz, .esw] s (request x rivals s) := by
  unfold request
  with_reducible repeat' first
    | assumption
    | decide
    | apply Frame.refl
    | (lift_lets; intro x; apply Frame.cut x ?_ (fun _ => ?_); subst x; rotate_left; clear_value x; rotate_right)
    | (lift_lets; intro x; apply Frame.cut x.1 ?_ (fun _ => ?_); subst x; rotate_left; clear_value x; rotate_right)
    | (lift_lets; intro x; clear_value x)
    | apply Frame.via (State.modEsw_frame ..)
    | apply Frame.via (State.modSwp_frame ..)
    | apply Frame.via (movePointer_frame ..)
    | apply Frame.via (potDrop_frame ..)
    | apply Frame.via (scrubPart_frame ..)
    | apply Frame.via (storeFrame_frame ..)
    | apply Frame.ite
    | split

theorem policeWith_frame (n : Nat) (x : StreamFilter) (len cls : Nat) (f : EthFrame) (s : State) :
    Frame [.mbx, .log, .vz, .esw] s (policeWith n x len cls f s).1 := by
  unfold policeWith
  with_reducible repeat' first
    | assumption
    | decide
    | apply Frame.refl
    | (lift_lets; intro x; apply Frame.cut x ?_ (fun _ => ?_); subst x; rotate_left; clear_value x; rotate_right)
    | (lift_lets; intro x; apply Frame.cut x.1 ?_ (fun _ => ?_); subst x; rotate_left; clear_value x; rotate_right)
    | (lift_lets; intro x; clear_value x)
    | apply Frame.via (State.modEsw_frame ..)
    | apply Frame.via (raise_frame ..)
    | apply Frame.ite
    | apply Frame.ite1
    | split

theorem policeFrame_frame (g : Ingress) (vid cls : Nat) (f : EthFrame) (s : State) :
    Frame [.mbx, .log, .vz, .esw] s (policeFrame g vid cls f s).1 := by
  unfold policeFrame
  with_reducible repeat' first
    | assumption
    | decide
    | apply Frame.refl
    | (lift_lets; intro x; apply Frame.cut x ?_ (fun _ => ?_); subst x; rotate_left; clear_value x; rotate_right)
    | (lift_lets; intro x; apply Frame.cut x.1 ?_ (fun _ => ?_); subst x; rotate_left; clear_value x; rotate_right)
    | (lift_lets; intro x; clear_value x)
    | apply Frame.via (policeWith_frame ..)
    | apply Frame.ite
    | apply Frame.ite1
    | split

theorem eliminate_frame (h : Option Nat) (f : EthFrame) (copies : List EgressCopy) (s : State) :
    Frame [.esw] s (eliminate h f copies s).1 := by
  unfold eliminate
  with_reducible repeat' first
    | assumption
    | decide
    | apply Frame.refl
    | (lift_lets; intro x; apply Frame.cut x ?_ (fun _ => ?_); subst x; rotate_left; clear_value x; rotate_right)
    | (lift_lets; intro x; apply Frame.cut x.1 ?_ (fun _ => ?_); subst x; rotate_left; clear_value x; rotate_right)
    | (lift_lets; intro x; clear_value x)
    | apply Frame.via (State.modEsw_frame ..)
    | apply Frame.via (State.modEswStats_frame ..)
    | apply Frame.ite
    | apply Frame.ite1
    | split

theorem generate_frame (h : Option Nat) (s : State) :
    Frame [.esw] s (generate h s).1 := by
  unfold generate
  with_reducible repeat' first
    | assumption
    | decide
    | apply Frame.refl
    | apply Frame.via (State.modEsw_frame ..)
    | apply Frame.ite
    | apply Frame.ite1
    | split

theorem takeIn_frame (g : Ingress) (vid cls : Nat) (h : Option Nat) (f : EthFrame) (rivals : List Rival) (s : State) :
    Frame [.mbx, .log, .vz, .esw] s (takeIn g vid cls h f rivals s) := by
  unfold takeIn
  with_reducible repeat' first
    | assumption
    | decide
    | apply Frame.refl
    | (lift_lets; intro x; apply Frame.cut x ?_ (fun _ => ?_); subst x; rotate_left; clear_value x; rotate_right)
    | (lift_lets; intro x; apply Frame.cut x.1 ?_ (fun _ => ?_); subst x; rotate_left; clear_value x; rotate_right)
    | (lift_lets; intro x; clear_value x)
    | apply Frame.via (State.modEswStats_frame ..)
    | apply Frame.via (State.modSwCount_frame ..)
    | apply Frame.via (completeOpt_frame ..)
    | apply Frame.via (dropAt_frame ..)
    | apply Frame.via (eliminate_frame ..)
    | apply Frame.via (generate_frame ..)
    | apply Frame.via (request_frame ..)
    | apply Frame.ite
    | apply Frame.foldl
    | apply Frame.foldl1
    | intro _

theorem switchFrame_frame (g : Ingress) (f : EthFrame) (rivals : List Rival) (s : State) :
    Frame [.mbx, .log, .vz, .esw] s (switchFrame g f rivals s) := by
  unfold switchFrame
  with_reducible repeat' first
    | assumption
    | decide
    | apply Frame.refl
    | (lift_lets; intro x; apply Frame.cut x ?_ (fun _ => ?_); subst x; rotate_left; clear_value x; rotate_right)
    | (lift_lets; intro x; apply Frame.cut x.1 ?_ (fun _ => ?_); subst x; rotate_left; clear_value x; rotate_right)
    | (lift_lets; intro x; clear_value x)
    | apply Frame.via (State.modEsw_frame ..)
    | apply Frame.via (State.modEswStats_frame ..)
    | apply Frame.via (dropAt_frame ..)
    | apply Frame.via (policeFrame_frame ..)
    | apply Frame.via (takeIn_frame ..)
    | apply Frame.ite

end Sys2Proof.Machine

end
end

