-- ==== Sys2Proof/Laws/Frames/Views.lean ====
section
/-! SUPPORT. The frame of each function of `Machine/Views.lean`: the parts of the state it may change. -/

section

set_option Elab.async false

namespace Sys2Proof.Machine

theorem State.modView_frame (s : State) (v : Nat) (f : View → View) :
    Frame [.tb] s (State.modView s v f) := by
  unfold State.modView
  with_reducible repeat' first
    | assumption
    | decide
    | apply Frame.refl
    | apply Frame.ite
    | split
    | apply Frame.set_tb

theorem retime_frame (view c : Nat) (s : State) :
    Frame [.mbx, .log, .tb, .vz] s (retime view c s) := by
  unfold retime
  with_reducible repeat' first
    | assumption
    | decide
    | apply Frame.refl
    | (lift_lets; intro x; apply Frame.cut x ?_ (fun _ => ?_); subst x; rotate_left; clear_value x; rotate_right)
    | (lift_lets; intro x; apply Frame.cut x.1 ?_ (fun _ => ?_); subst x; rotate_left; clear_value x; rotate_right)
    | (lift_lets; intro x; clear_value x)
    | apply Frame.via (raise_frame ..)
    | apply Frame.ite
    | apply Frame.foldl
    | apply Frame.foldl1
    | intro _
    | split
    | apply Frame.set_tb

theorem setValid_frame (v : Nat) (b : Bool) (s : State) :
    Frame [.mbx, .log, .tb, .vz] s (setValid v b s) := by
  unfold setValid
  with_reducible repeat' first
    | assumption
    | decide
    | apply Frame.refl
    | apply Frame.via (State.modView_frame ..)
    | apply Frame.via (raise_frame ..)
    | apply Frame.ite

theorem applyChange_frame (v : Nat) (c : ViewChange) (s : State) :
    Frame [.mbx, .log, .tb, .vz] s (applyChange v c s) := by
  unfold applyChange
  with_reducible repeat' first
    | assumption
    | decide
    | apply Frame.refl
    | (lift_lets; intro x; apply Frame.cut x ?_ (fun _ => ?_); subst x; rotate_left; clear_value x; rotate_right)
    | (lift_lets; intro x; apply Frame.cut x.1 ?_ (fun _ => ?_); subst x; rotate_left; clear_value x; rotate_right)
    | (lift_lets; intro x; clear_value x)
    | apply Frame.via (State.modView_frame ..)
    | apply Frame.via (raise_frame ..)
    | apply Frame.via (retime_frame ..)
    | apply Frame.via (setValid_frame ..)
    | apply Frame.ite

theorem servo_frame (v : Nat) (goal : Int) (first : Bool) (s : State) :
    Frame [.mbx, .log, .tb, .vz, .free] s (servo v goal first s) := by
  unfold servo
  with_reducible repeat' first
    | assumption
    | decide
    | apply Frame.refl
    | (lift_lets; intro x; apply Frame.cut x ?_ (fun _ => ?_); subst x; rotate_left; clear_value x; rotate_right)
    | (lift_lets; intro x; apply Frame.cut x.1 ?_ (fun _ => ?_); subst x; rotate_left; clear_value x; rotate_right)
    | (lift_lets; intro x; clear_value x)
    | apply Frame.via (State.draw_frame ..)
    | apply Frame.via (applyChange_frame ..)
    | apply Frame.ite

theorem State.modCapture_frame (s : State) (u : Nat) (f : Capture → Capture) :
    Frame [.tb] s (State.modCapture s u f) := by
  unfold State.modCapture
  with_reducible repeat' first
    | assumption
    | decide
    | apply Frame.refl
    | apply Frame.ite
    | split
    | apply Frame.set_tb

theorem captureAt_frame (u : Nat) (s : State) :
    Frame [.mbx, .log, .tb, .vz] s (captureAt u s) := by
  unfold captureAt
  with_reducible repeat' first
    | assumption
    | decide
    | apply Frame.refl
    | (lift_lets; intro x; apply Frame.cut x ?_ (fun _ => ?_); subst x; rotate_left; clear_value x; rotate_right)
    | (lift_lets; intro x; apply Frame.cut x.1 ?_ (fun _ => ?_); subst x; rotate_left; clear_value x; rotate_right)
    | (lift_lets; intro x; clear_value x)
    | apply Frame.via (State.modCapture_frame ..)
    | apply Frame.via (raise_frame ..)
    | apply Frame.ite

theorem captureEdge_frame (source : Nat) (rising : Bool) (s : State) :
    Frame [.mbx, .log, .tb, .vz] s (captureEdge source rising s) := by
  unfold captureEdge
  with_reducible repeat' first
    | assumption
    | decide
    | apply Frame.refl
    | apply Frame.via (captureAt_frame ..)
    | apply Frame.ite
    | apply Frame.foldl
    | apply Frame.foldl1
    | intro _

theorem captureLevel_frame (source : Nat) (was is : Bool) (s : State) :
    Frame [.mbx, .log, .tb, .vz] s (captureLevel source was is s) := by
  unfold captureLevel
  with_reducible repeat' first
    | assumption
    | decide
    | apply Frame.refl
    | apply Frame.via (captureEdge_frame ..)
    | apply Frame.ite
    | split
    | dsimp only

theorem rebaseQuiet_frame (v : Nat) (base : Time) (s : State) :
    Frame [.mbx, .log, .tb, .vz] s (rebaseQuiet v base s) := by
  unfold rebaseQuiet
  with_reducible repeat' first
    | assumption
    | decide
    | apply Frame.refl
    | apply Frame.via (State.modView_frame ..)
    | apply Frame.via (retime_frame ..)

theorem State.modTrigger_frame (s : State) (u : Nat) (f : Trigger → Trigger) :
    Frame [.tb] s (State.modTrigger s u f) := by
  unfold State.modTrigger
  with_reducible repeat' first
    | assumption
    | decide
    | apply Frame.refl
    | apply Frame.ite
    | split
    | apply Frame.set_tb

end Sys2Proof.Machine

end
end

