-- ==== Sys2Proof/Laws/Frames/Ring.lean ====
section
/-! SUPPORT. The frame of each function of `Machine/Ring.lean`: the parts of the state it may change. -/

section

set_option Elab.async false

namespace Sys2Proof.Machine

theorem State.modRing_frame (s : State) (f : RingState → RingState) :
    Frame [.ring] s (State.modRing s f) := by
  unfold State.modRing
  with_reducible repeat' first
    | assumption
    | decide
    | apply Frame.refl
    | apply Frame.ite
    | split
    | apply Frame.set_ring

theorem ringStop_frame (s : State) :
    Frame [.ring] s (ringStop s) := by
  unfold ringStop
  with_reducible repeat' first
    | assumption
    | decide
    | apply Frame.refl
    | apply Frame.via (State.modRing_frame ..)

theorem ringBasecamp_frame (s : State) :
    Frame [.ring] s (ringBasecamp s) := by
  unfold ringBasecamp
  with_reducible repeat' first
    | assumption
    | decide
    | apply Frame.refl
    | apply Frame.via (State.modRing_frame ..)

theorem State.modLink_frame (s : State) (p : Nat) (f : RingPort → RingPort) :
    Frame [.ring] s (State.modLink s p f) := by
  unfold State.modLink
  with_reducible repeat' first
    | assumption
    | decide
    | apply Frame.refl
    | apply Frame.via (State.modRing_frame ..)

theorem State.modCount_frame (s : State) (p : Nat) (f : RingCounters → RingCounters) :
    Frame [.ring] s (State.modCount s p f) := by
  unfold State.modCount
  with_reducible repeat' first
    | assumption
    | decide
    | apply Frame.refl
    | apply Frame.via (State.modLink_frame ..)

theorem raiseRing_frame (k : EvKind) (inst : Nat) (data : List Byte) (s : State) :
    Frame [.mbx, .log, .vz] s (raiseRing k inst data s) := by
  unfold raiseRing
  with_reducible repeat' first
    | assumption
    | decide
    | apply Frame.refl
    | apply Frame.via (raise_frame ..)

theorem putWire_frame (p : Nat) (f : RingFrame) (s : State) :
    Frame [.ring] s (putWire p f s) := by
  unfold putWire
  with_reducible repeat' first
    | assumption
    | decide
    | apply Frame.refl
    | (lift_lets; intro x; apply Frame.cut x ?_ (fun _ => ?_); subst x; rotate_left; clear_value x; rotate_right)
    | (lift_lets; intro x; apply Frame.cut x.1 ?_ (fun _ => ?_); subst x; rotate_left; clear_value x; rotate_right)
    | (lift_lets; intro x; clear_value x)
    | apply Frame.via (State.modLink_frame ..)
    | apply Frame.via (State.modRing_frame ..)

theorem transmit_frame (p : Nat) (f : RingFrame) (s : State) :
    Frame [.ring] s (transmit p f s) := by
  unfold transmit
  with_reducible repeat' first
    | assumption
    | decide
    | apply Frame.refl
    | apply Frame.via (State.modCount_frame ..)
    | apply Frame.via (putWire_frame ..)

theorem transmitOut_frame (f : RingFrame) (s : State) :
    Frame [.ring] s (transmitOut f s) := by
  unfold transmitOut
  with_reducible repeat' first
    | assumption
    | decide
    | apply Frame.refl
    | apply Frame.via (transmit_frame ..)
    | apply Frame.ite
    | split

theorem forward_frame (p : Nat) (f : RingFrame) (s : State) :
    Frame [.ring] s (forward p f s) := by
  unfold forward
  with_reducible repeat' first
    | assumption
    | decide
    | apply Frame.refl
    | apply Frame.via (State.modCount_frame ..)
    | apply Frame.via (putWire_frame ..)
    | apply Frame.ite
    | split

theorem settle_frame (s : State) :
    Frame [.ring] s (settle s) := by
  unfold settle
  with_reducible repeat' first
    | assumption
    | decide
    | apply Frame.refl
    | apply Frame.via (State.modRing_frame ..)

theorem loopBack_frame (p : Nat) (s : State) :
    Frame [.mbx, .log, .vz, .ring] s (loopBack p s) := by
  unfold loopBack
  with_reducible repeat' first
    | assumption
    | decide
    | apply Frame.refl
    | apply Frame.via (State.modRing_frame ..)
    | apply Frame.via (raiseRing_frame ..)

theorem breakLink_frame (p : Nat) (phyDown : Bool) (s : State) :
    Frame [.mbx, .log, .vz, .ring] s (breakLink p phyDown s) := by
  unfold breakLink
  with_reducible repeat' first
    | assumption
    | decide
    | apply Frame.refl
    | (lift_lets; intro x; apply Frame.cut x ?_ (fun _ => ?_); subst x; rotate_left; clear_value x; rotate_right)
    | (lift_lets; intro x; apply Frame.cut x.1 ?_ (fun _ => ?_); subst x; rotate_left; clear_value x; rotate_right)
    | (lift_lets; intro x; clear_value x)
    | apply Frame.via (State.modLink_frame ..)
    | apply Frame.via (loopBack_frame ..)
    | apply Frame.via (raiseRing_frame ..)
    | apply Frame.via (settle_frame ..)
    | apply Frame.ite

theorem linkRx_frame (p : Nat) (l : LinkCheck) (s : State) :
    Frame [.mbx, .log, .vz, .ring] s (linkRx p l s).1 := by
  unfold linkRx
  with_reducible repeat' first
    | assumption
    | decide
    | apply Frame.refl
    | (lift_lets; intro x; apply Frame.cut x ?_ (fun _ => ?_); subst x; rotate_left; clear_value x; rotate_right)
    | (lift_lets; intro x; apply Frame.cut x.1 ?_ (fun _ => ?_); subst x; rotate_left; clear_value x; rotate_right)
    | (lift_lets; intro x; clear_value x)
    | apply Frame.via (State.modCount_frame ..)
    | apply Frame.via (State.modLink_frame ..)
    | apply Frame.via (breakLink_frame ..)
    | apply Frame.ite
    | apply Frame.ite1

theorem discard_frame (p : Nat) (f : RingFrame) (s : State) :
    Frame [.ring] s (discard p f s) := by
  unfold discard
  with_reducible repeat' first
    | assumption
    | decide
    | apply Frame.refl
    | apply Frame.via (State.modCount_frame ..)

theorem schedMismatch_frame (p : Nat) (s : State) :
    Frame [.mbx, .log, .vz, .ring] s (schedMismatch p s) := by
  unfold schedMismatch
  with_reducible repeat' first
    | assumption
    | decide
    | apply Frame.refl
    | (lift_lets; intro x; apply Frame.cut x ?_ (fun _ => ?_); subst x; rotate_left; clear_value x; rotate_right)
    | (lift_lets; intro x; apply Frame.cut x.1 ?_ (fun _ => ?_); subst x; rotate_left; clear_value x; rotate_right)
    | (lift_lets; intro x; clear_value x)
    | apply Frame.via (State.modLink_frame ..)
    | apply Frame.via (State.modRing_frame ..)
    | apply Frame.via (raiseRing_frame ..)
    | apply Frame.ite

theorem ringStart_frame (s : State) :
    Frame [.mbx, .log, .vz, .ring] s (ringStart s) := by
  unfold ringStart
  with_reducible repeat' first
    | assumption
    | decide
    | apply Frame.refl
    | (lift_lets; intro x; apply Frame.cut x ?_ (fun _ => ?_); subst x; rotate_left; clear_value x; rotate_right)
    | (lift_lets; intro x; apply Frame.cut x.1 ?_ (fun _ => ?_); subst x; rotate_left; clear_value x; rotate_right)
    | (lift_lets; intro x; clear_value x)
    | apply Frame.via (State.modRing_frame ..)
    | apply Frame.via (raiseRing_frame ..)
    | apply Frame.ite

theorem execRingLinkDown_frame (port : Fin 2) (s : State) :
    Framed [.mbx, .log, .vz, .ring] s (execRingLinkDown port s) := by
  unfold execRingLinkDown
  with_reducible repeat' first
    | apply Framed.next
    | assumption
    | decide
    | apply Frame.refl
    | apply Frame.via (breakLink_frame ..)

theorem execRingPhyTrained_frame (port : Fin 2) (s : State) :
    Framed [.ring] s (execRingPhyTrained port s) := by
  unfold execRingPhyTrained
  with_reducible repeat' first
    | apply Framed.next
    | assumption
    | decide
    | apply Frame.refl
    | apply Frame.via (State.modLink_frame ..)
    | apply Frame.ite

theorem execMkaFrame_frame (port : Fin 2) (peers : List Byte) (live : Bool) (s : State) :
    Framed [.ring] s (execMkaFrame port peers live s) := by
  unfold execMkaFrame
  with_reducible repeat' first
    | apply Framed.next
    | assumption
    | decide
    | apply Frame.refl
    | apply Frame.via (State.modLink_frame ..)
    | apply Frame.ite

theorem execRingMacsecTimeout_frame (port : Fin 2) (s : State) :
    Framed [.mbx, .log, .vz, .ring] s (execRingMacsecTimeout port s) := by
  unfold execRingMacsecTimeout
  with_reducible repeat' first
    | apply Framed.next
    | assumption
    | decide
    | apply Frame.refl
    | (lift_lets; intro x; apply Frame.cut x ?_ (fun _ => ?_); subst x; rotate_left; clear_value x; rotate_right)
    | (lift_lets; intro x; apply Frame.cut x.1 ?_ (fun _ => ?_); subst x; rotate_left; clear_value x; rotate_right)
    | (lift_lets; intro x; clear_value x)
    | apply Frame.via (State.modLink_frame ..)
    | apply Frame.via (raiseRing_frame ..)
    | apply Frame.ite

theorem heardMeas_frame (p : Nat) (f : DelayMeas) (s : State) :
    Frame [.mbx, .log, .vz, .ring] s (heardMeas p f s).1 := by
  unfold heardMeas
  with_reducible repeat' first
    | assumption
    | decide
    | apply Frame.refl
    | (lift_lets; intro x; apply Frame.cut x ?_ (fun _ => ?_); subst x; rotate_left; clear_value x; rotate_right)
    | (lift_lets; intro x; apply Frame.cut x.1 ?_ (fun _ => ?_); subst x; rotate_left; clear_value x; rotate_right)
    | (lift_lets; intro x; clear_value x)
    | apply Frame.via (State.modLink_frame ..)
    | apply Frame.via (schedMismatch_frame ..)
    | apply Frame.ite
    | apply Frame.ite1

theorem sendMeas_frame (p : Nat) (seq : U32) (residence : U64) (s : State) :
    Frame [.ring] s (sendMeas p seq residence s) := by
  unfold sendMeas
  with_reducible repeat' first
    | assumption
    | decide
    | apply Frame.refl
    | (lift_lets; intro x; apply Frame.cut x ?_ (fun _ => ?_); subst x; rotate_left; clear_value x; rotate_right)
    | (lift_lets; intro x; apply Frame.cut x.1 ?_ (fun _ => ?_); subst x; rotate_left; clear_value x; rotate_right)
    | (lift_lets; intro x; clear_value x)
    | apply Frame.via (State.modLink_frame ..)
    | apply Frame.via (transmit_frame ..)

theorem measRequest_frame (seq : U32) (f : DelayMeas) (s : State) :
    Frame [.mbx, .log, .vz, .ring, .free] s (measRequest seq f s) := by
  unfold measRequest
  with_reducible repeat' first
    | assumption
    | decide
    | apply Frame.refl
    | (lift_lets; intro x; apply Frame.cut x ?_ (fun _ => ?_); subst x; rotate_left; clear_value x; rotate_right)
    | (lift_lets; intro x; apply Frame.cut x.1 ?_ (fun _ => ?_); subst x; rotate_left; clear_value x; rotate_right)
    | (lift_lets; intro x; clear_value x)
    | apply Frame.via (State.draw_frame ..)
    | apply Frame.via (State.modLink_frame ..)
    | apply Frame.via (heardMeas_frame ..)
    | apply Frame.via (sendMeas_frame ..)
    | apply Frame.ite

theorem takeMeas_frame (p : Nat) (kind : Byte) (link : LinkCheck) (h : RingHeader) (f : DelayMeas) (s : State) :
    Frame [.mbx, .log, .vz, .ring] s (takeMeas p kind link h f s).1 := by
  unfold takeMeas
  with_reducible repeat' first
    | assumption
    | decide
    | apply Frame.refl
    | (lift_lets; intro x; apply Frame.cut x ?_ (fun _ => ?_); subst x; rotate_left; clear_value x; rotate_right)
    | (lift_lets; intro x; apply Frame.cut x.1 ?_ (fun _ => ?_); subst x; rotate_left; clear_value x; rotate_right)
    | (lift_lets; intro x; clear_value x)
    | apply Frame.via (discard_frame ..)
    | apply Frame.via (linkRx_frame ..)
    | apply Frame.ite
    | apply Frame.ite1
    | split
    | dsimp only

theorem execDelayMeasRequest_frame (link : LinkCheck) (h : RingHeader) (f : DelayMeas) (s : State) :
    Framed [.mbx, .log, .vz, .ring, .free] s (execDelayMeasRequest link h f s) := by
  unfold execDelayMeasRequest
  with_reducible repeat' first
    | apply Framed.next
    | assumption
    | decide
    | apply Frame.refl
    | (lift_lets; intro x; apply Frame.cut x ?_ (fun _ => ?_); subst x; rotate_left; clear_value x; rotate_right)
    | (lift_lets; intro x; apply Frame.cut x.1 ?_ (fun _ => ?_); subst x; rotate_left; clear_value x; rotate_right)
    | (lift_lets; intro x; clear_value x)
    | apply Frame.via (measRequest_frame ..)
    | apply Frame.via (takeMeas_frame ..)
    | apply Frame.ite

theorem measResponse_frame (f : DelayMeas) (roundTrip : U64) (s : State) :
    Frame [.mbx, .log, .vz, .ring] s (measResponse f roundTrip s) := by
  unfold measResponse
  with_reducible repeat' first
    | assumption
    | decide
    | apply Frame.refl
    | (lift_lets; intro x; apply Frame.cut x ?_ (fun _ => ?_); subst x; rotate_left; clear_value x; rotate_right)
    | (lift_lets; intro x; apply Frame.cut x.1 ?_ (fun _ => ?_); subst x; rotate_left; clear_value x; rotate_right)
    | (lift_lets; intro x; clear_value x)
    | apply Frame.via (State.modLink_frame ..)
    | apply Frame.via (heardMeas_frame ..)
    | apply Frame.ite

theorem execDelayMeasResponse_frame (link : LinkCheck) (h : RingHeader) (f : DelayMeas) (roundTrip : U64) (s : State) :
    Framed [.mbx, .log, .vz, .ring] s (execDelayMeasResponse link h f roundTrip s) := by
  unfold execDelayMeasResponse
  with_reducible repeat' first
    | apply Framed.next
    | assumption
    | decide
    | apply Frame.refl
    | (lift_lets; intro x; apply Frame.cut x ?_ (fun _ => ?_); subst x; rotate_left; clear_value x; rotate_right)
    | (lift_lets; intro x; apply Frame.cut x.1 ?_ (fun _ => ?_); subst x; rotate_left; clear_value x; rotate_right)
    | (lift_lets; intro x; clear_value x)
    | apply Frame.via (measResponse_frame ..)
    | apply Frame.via (takeMeas_frame ..)
    | apply Frame.ite

theorem yieldAtClose_frame (p : Nat) (s : State) :
    Frame [.mbx, .log, .vz, .ring] s (yieldAtClose p s) := by
  unfold yieldAtClose
  with_reducible repeat' first
    | assumption
    | decide
    | apply Frame.refl
    | (lift_lets; intro x; apply Frame.cut x ?_ (fun _ => ?_); subst x; rotate_left; clear_value x; rotate_right)
    | (lift_lets; intro x; apply Frame.cut x.1 ?_ (fun _ => ?_); subst x; rotate_left; clear_value x; rotate_right)
    | (lift_lets; intro x; clear_value x)
    | apply Frame.via (State.modRing_frame ..)
    | apply Frame.via (raiseRing_frame ..)
    | apply Frame.ite

theorem execLinkClose_frame (port : Fin 2) (s : State) :
    Framed [.mbx, .log, .vz, .ring] s (execLinkClose port s) := by
  unfold execLinkClose
  with_reducible repeat' first
    | apply Framed.next
    | assumption
    | decide
    | apply Frame.refl
    | (lift_lets; intro x; apply Frame.cut x ?_ (fun _ => ?_); subst x; rotate_left; clear_value x; rotate_right)
    | (lift_lets; intro x; apply Frame.cut x.1 ?_ (fun _ => ?_); subst x; rotate_left; clear_value x; rotate_right)
    | (lift_lets; intro x; clear_value x)
    | apply Frame.via (State.modLink_frame ..)
    | apply Frame.via (State.modRing_frame ..)
    | apply Frame.via (loopBack_frame ..)
    | apply Frame.via (raiseRing_frame ..)
    | apply Frame.via (settle_frame ..)
    | apply Frame.via (yieldAtClose_frame ..)
    | apply Frame.ite

theorem State.askedSeen_frame (s : State) :
    Frame [.sys] s (State.askedSeen s) := by
  unfold State.askedSeen
  with_reducible repeat' first
    | assumption
    | decide
    | apply Frame.refl
    | apply Frame.ite
    | split
    | apply Frame.set_sys

theorem sendRef_frame (s : State) :
    Frame [.sys, .mbx, .log, .tb, .vz, .ring] s (sendRef s) := by
  unfold sendRef
  with_reducible repeat' first
    | assumption
    | decide
    | apply Frame.refl
    | (lift_lets; intro x; apply Frame.cut x ?_ (fun _ => ?_); subst x; rotate_left; clear_value x; rotate_right)
    | (lift_lets; intro x; apply Frame.cut x.1 ?_ (fun _ => ?_); subst x; rotate_left; clear_value x; rotate_right)
    | (lift_lets; intro x; clear_value x)
    | apply Frame.via (State.askedSeen_frame ..)
    | apply Frame.via (captureEdge_frame ..)
    | apply Frame.via (transmitOut_frame ..)

theorem joinRing_frame (s : State) :
    Frame [.sys, .mbx, .log, .tb, .vz, .ring] s (joinRing s) := by
  unfold joinRing
  with_reducible repeat' first
    | assumption
    | decide
    | apply Frame.refl
    | (lift_lets; intro x; apply Frame.cut x ?_ (fun _ => ?_); subst x; rotate_left; clear_value x; rotate_right)
    | (lift_lets; intro x; apply Frame.cut x.1 ?_ (fun _ => ?_); subst x; rotate_left; clear_value x; rotate_right)
    | (lift_lets; intro x; clear_value x)
    | apply Frame.via (State.modRing_frame ..)
    | apply Frame.via (raiseRing_frame ..)
    | apply Frame.via (setValid_frame ..)
    | apply Frame.ite
    | split
    | apply Frame.set_sys

theorem takeMaster_frame (k : Nat) (s : State) :
    Frame [.ring] s (takeMaster k s) := by
  unfold takeMaster
  with_reducible repeat' first
    | assumption
    | decide
    | apply Frame.refl
    | apply Frame.via (State.modRing_frame ..)

theorem dropMaster_frame (s : State) :
    Frame [.ring] s (dropMaster s) := by
  unfold dropMaster
  with_reducible repeat' first
    | assumption
    | decide
    | apply Frame.refl
    | apply Frame.via (State.modRing_frame ..)

theorem setSleepAt_frame (c : U32) (s : State) :
    Frame [.mbx, .log, .vz, .ring] s (setSleepAt c s) := by
  unfold setSleepAt
  with_reducible repeat' first
    | assumption
    | decide
    | apply Frame.refl
    | apply Frame.via (State.modRing_frame ..)
    | apply Frame.via (raiseRing_frame ..)
    | apply Frame.ite

theorem startHandover_frame (present : U32) (s : State) :
    Frame [.ring] s (startHandover present s) := by
  unfold startHandover
  with_reducible repeat' first
    | assumption
    | decide
    | apply Frame.refl
    | (lift_lets; intro x; apply Frame.cut x ?_ (fun _ => ?_); subst x; rotate_left; clear_value x; rotate_right)
    | (lift_lets; intro x; apply Frame.cut x.1 ?_ (fun _ => ?_); subst x; rotate_left; clear_value x; rotate_right)
    | (lift_lets; intro x; clear_value x)
    | apply Frame.via (State.modRing_frame ..)
    | apply Frame.ite

theorem sleepDecision_frame (f : SyncRef) (s : State) :
    Frame [.mbx, .log, .vz, .ring] s (sleepDecision f s) := by
  unfold sleepDecision
  with_reducible repeat' first
    | assumption
    | decide
    | apply Frame.refl
    | (lift_lets; intro x; apply Frame.cut x ?_ (fun _ => ?_); subst x; rotate_left; clear_value x; rotate_right)
    | (lift_lets; intro x; apply Frame.cut x.1 ?_ (fun _ => ?_); subst x; rotate_left; clear_value x; rotate_right)
    | (lift_lets; intro x; clear_value x)
    | apply Frame.via (State.modRing_frame ..)
    | apply Frame.via (setSleepAt_frame ..)
    | apply Frame.ite

theorem ownRefBack_frame (f : SyncRef) (goal : Int) (s : State) :
    Frame [.mbx, .log, .tb, .vz, .ring, .free] s (ownRefBack f goal s) := by
  unfold ownRefBack
  with_reducible repeat' first
    | assumption
    | decide
    | apply Frame.refl
    | (lift_lets; intro x; apply Frame.cut x ?_ (fun _ => ?_); subst x; rotate_left; clear_value x; rotate_right)
    | (lift_lets; intro x; apply Frame.cut x.1 ?_ (fun _ => ?_); subst x; rotate_left; clear_value x; rotate_right)
    | (lift_lets; intro x; clear_value x)
    | apply Frame.via (State.modRing_frame ..)
    | apply Frame.via (servo_frame ..)
    | apply Frame.via (sleepDecision_frame ..)
    | apply Frame.via (startHandover_frame ..)
    | apply Frame.ite

theorem takeCycle_frame (origin : U32) (first : Bool) (s : State) :
    Frame [.mbx, .log, .vz, .ring] s (takeCycle origin first s) := by
  unfold takeCycle
  with_reducible repeat' first
    | assumption
    | decide
    | apply Frame.refl
    | (lift_lets; intro x; apply Frame.cut x ?_ (fun _ => ?_); subst x; rotate_left; clear_value x; rotate_right)
    | (lift_lets; intro x; apply Frame.cut x.1 ?_ (fun _ => ?_); subst x; rotate_left; clear_value x; rotate_right)
    | (lift_lets; intro x; clear_value x)
    | apply Frame.via (State.modRing_frame ..)
    | apply Frame.via (raiseRing_frame ..)
    | apply Frame.ite

theorem correctV0_frame (goal : Int) (s : State) :
    Frame [.mbx, .log, .tb, .vz, .ring, .free] s (correctV0 goal s) := by
  unfold correctV0
  with_reducible repeat' first
    | assumption
    | decide
    | apply Frame.refl
    | (lift_lets; intro x; apply Frame.cut x ?_ (fun _ => ?_); subst x; rotate_left; clear_value x; rotate_right)
    | (lift_lets; intro x; apply Frame.cut x.1 ?_ (fun _ => ?_); subst x; rotate_left; clear_value x; rotate_right)
    | (lift_lets; intro x; clear_value x)
    | apply Frame.via (State.modRing_frame ..)
    | apply Frame.via (servo_frame ..)
    | apply Frame.ite

theorem noteDelay_frame (g : SyncRef) (s : State) :
    Frame [.ring] s (noteDelay g s) := by
  unfold noteDelay
  with_reducible repeat' first
    | assumption
    | decide
    | apply Frame.refl
    | (lift_lets; intro x; apply Frame.cut x ?_ (fun _ => ?_); subst x; rotate_left; clear_value x; rotate_right)
    | (lift_lets; intro x; apply Frame.cut x.1 ?_ (fun _ => ?_); subst x; rotate_left; clear_value x; rotate_right)
    | (lift_lets; intro x; clear_value x)
    | apply Frame.via (State.modRing_frame ..)
    | apply Frame.via (settle_frame ..)
    | apply Frame.ite

theorem followRef_frame (p : Nat) (h : RingHeader) (f : SyncRef) (residence : U32) (s : State) :
    Frame [.sys, .mbx, .log, .tb, .vz, .ring, .free] s (followRef p h f residence s) := by
  unfold followRef
  with_reducible repeat' first
    | assumption
    | decide
    | apply Frame.refl
    | (lift_lets; intro x; apply Frame.cut x ?_ (fun _ => ?_); subst x; rotate_left; clear_value x; rotate_right)
    | (lift_lets; intro x; apply Frame.cut x.1 ?_ (fun _ => ?_); subst x; rotate_left; clear_value x; rotate_right)
    | (lift_lets; intro x; clear_value x)
    | apply Frame.via (State.askedSeen_frame ..)
    | apply Frame.via (State.modRing_frame ..)
    | apply Frame.via (captureEdge_frame ..)
    | apply Frame.via (correctV0_frame ..)
    | apply Frame.via (forward_frame ..)
    | apply Frame.via (joinRing_frame ..)
    | apply Frame.via (noteDelay_frame ..)
    | apply Frame.via (setSleepAt_frame ..)
    | apply Frame.via (takeCycle_frame ..)
    | apply Frame.ite

theorem basecampRef_frame (p : Nat) (h : RingHeader) (f : SyncRef) (residence : U32) (s : State) :
    Frame [.mbx, .ring] s (basecampRef p h f residence s) := by
  unfold basecampRef
  with_reducible repeat' first
    | assumption
    | decide
    | apply Frame.refl
    | (lift_lets; intro x; apply Frame.cut x ?_ (fun _ => ?_); subst x; rotate_left; clear_value x; rotate_right)
    | (lift_lets; intro x; apply Frame.cut x.1 ?_ (fun _ => ?_); subst x; rotate_left; clear_value x; rotate_right)
    | (lift_lets; intro x; clear_value x)
    | apply Frame.via (State.modRing_frame ..)
    | apply Frame.via (forward_frame ..)
    | apply Frame.ite
    | split
    | apply Frame.set_mbx

theorem foreignRef_frame (h : RingHeader) (s : State) :
    Frame [.ring] s (foreignRef h s) := by
  unfold foreignRef
  with_reducible repeat' first
    | assumption
    | decide
    | apply Frame.refl
    | apply Frame.via (State.modRing_frame ..)
    | apply Frame.ite

theorem takeRef_frame (p : Nat) (h : RingHeader) (f : SyncRef) (residence : U32) (s : State) :
    Frame [.sys, .mbx, .log, .tb, .vz, .ring, .free] s (takeRef p h f residence s) := by
  unfold takeRef
  with_reducible repeat' first
    | assumption
    | decide
    | apply Frame.refl
    | (lift_lets; intro x; apply Frame.cut x ?_ (fun _ => ?_); subst x; rotate_left; clear_value x; rotate_right)
    | (lift_lets; intro x; apply Frame.cut x.1 ?_ (fun _ => ?_); subst x; rotate_left; clear_value x; rotate_right)
    | (lift_lets; intro x; clear_value x)
    | apply Frame.via (followRef_frame ..)
    | apply Frame.via (foreignRef_frame ..)
    | apply Frame.via (forward_frame ..)
    | apply Frame.via (ownRefBack_frame ..)
    | apply Frame.ite

theorem syncRef_frame (p : Nat) (h : RingHeader) (f : SyncRef) (residence : U32) (s : State) :
    Frame [.sys, .mbx, .log, .tb, .vz, .ring, .free] s (syncRef p h f residence s) := by
  unfold syncRef
  with_reducible repeat' first
    | assumption
    | decide
    | apply Frame.refl
    | (lift_lets; intro x; apply Frame.cut x ?_ (fun _ => ?_); subst x; rotate_left; clear_value x; rotate_right)
    | (lift_lets; intro x; apply Frame.cut x.1 ?_ (fun _ => ?_); subst x; rotate_left; clear_value x; rotate_right)
    | (lift_lets; intro x; clear_value x)
    | apply Frame.via (basecampRef_frame ..)
    | apply Frame.via (discard_frame ..)
    | apply Frame.via (schedMismatch_frame ..)
    | apply Frame.via (takeRef_frame ..)
    | apply Frame.ite

theorem execSyncRefReceived_frame (port : Fin 2) (link : LinkCheck) (h : RingHeader) (f : SyncRef) (residence : U32) (s : State) :
    Framed [.sys, .mbx, .log, .tb, .vz, .ring, .free] s (execSyncRefReceived port link h f residence s) := by
  unfold execSyncRefReceived
  with_reducible repeat' first
    | apply Framed.next
    | assumption
    | decide
    | apply Frame.refl
    | (lift_lets; intro x; apply Frame.cut x ?_ (fun _ => ?_); subst x; rotate_left; clear_value x; rotate_right)
    | (lift_lets; intro x; apply Frame.cut x.1 ?_ (fun _ => ?_); subst x; rotate_left; clear_value x; rotate_right)
    | (lift_lets; intro x; clear_value x)
    | apply Frame.via (linkRx_frame ..)
    | apply Frame.via (syncRef_frame ..)
    | apply Frame.ite

theorem refMissing_frame (s : State) :
    Frame [.sys, .mbx, .log, .tb, .vz, .ring] s (refMissing s) := by
  unfold refMissing
  with_reducible repeat' first
    | assumption
    | decide
    | apply Frame.refl
    | (lift_lets; intro x; apply Frame.cut x ?_ (fun _ => ?_); subst x; rotate_left; clear_value x; rotate_right)
    | (lift_lets; intro x; apply Frame.cut x.1 ?_ (fun _ => ?_); subst x; rotate_left; clear_value x; rotate_right)
    | (lift_lets; intro x; clear_value x)
    | apply Frame.via (State.modRing_frame ..)
    | apply Frame.via (joinRing_frame ..)
    | apply Frame.via (raiseRing_frame ..)
    | apply Frame.via (takeMaster_frame ..)
    | apply Frame.ite
    | split

theorem execSyncRefMissing_frame (s : State) :
    Framed [.sys, .mbx, .log, .tb, .vz, .ring] s (execSyncRefMissing s) := by
  unfold execSyncRefMissing
  with_reducible repeat' first
    | apply Framed.next
    | assumption
    | decide
    | apply Frame.refl
    | apply Frame.via (refMissing_frame ..)
    | apply Frame.ite

theorem execMasterHandover_frame (s : State) :
    Framed [.mbx, .log, .vz, .ring] s (execMasterHandover s) := by
  unfold execMasterHandover
  with_reducible repeat' first
    | apply Framed.next
    | assumption
    | decide
    | apply Frame.refl
    | apply Frame.via (dropMaster_frame ..)
    | apply Frame.via (raiseRing_frame ..)
    | apply Frame.via (takeMaster_frame ..)
    | apply Frame.ite
    | split

theorem healStep_frame (s : State) :
    Frame [.mbx, .log, .vz, .ring] s (healStep s) := by
  unfold healStep
  with_reducible repeat' first
    | assumption
    | decide
    | apply Frame.refl
    | apply Frame.via (State.modRing_frame ..)
    | apply Frame.via (raiseRing_frame ..)
    | apply Frame.ite

theorem anchorV1_frame (s : State) :
    Frame [.mbx, .log, .tb, .vz] s (anchorV1 s) := by
  unfold anchorV1
  with_reducible repeat' first
    | assumption
    | decide
    | apply Frame.refl
    | (lift_lets; intro x; apply Frame.cut x ?_ (fun _ => ?_); subst x; rotate_left; clear_value x; rotate_right)
    | (lift_lets; intro x; apply Frame.cut x.1 ?_ (fun _ => ?_); subst x; rotate_left; clear_value x; rotate_right)
    | (lift_lets; intro x; clear_value x)
    | apply Frame.via (rebaseQuiet_frame ..)
    | apply Frame.ite

theorem ownCycle_frame (s : State) :
    Frame [.mbx, .log, .vz, .ring] s (ownCycle s) := by
  unfold ownCycle
  with_reducible repeat' first
    | assumption
    | decide
    | apply Frame.refl
    | apply Frame.via (State.modRing_frame ..)
    | apply Frame.via (takeCycle_frame ..)
    | apply Frame.ite

theorem cycleStart_frame (s : State) :
    Frame [.sys, .mbx, .log, .tb, .vz, .ring] s (cycleStart s) := by
  unfold cycleStart
  with_reducible repeat' first
    | assumption
    | decide
    | apply Frame.refl
    | (lift_lets; intro x; apply Frame.cut x ?_ (fun _ => ?_); subst x; rotate_left; clear_value x; rotate_right)
    | (lift_lets; intro x; apply Frame.cut x.1 ?_ (fun _ => ?_); subst x; rotate_left; clear_value x; rotate_right)
    | (lift_lets; intro x; clear_value x)
    | apply Frame.via (State.modRing_frame ..)
    | apply Frame.via (anchorV1_frame ..)
    | apply Frame.via (dropMaster_frame ..)
    | apply Frame.via (healStep_frame ..)
    | apply Frame.via (joinRing_frame ..)
    | apply Frame.via (ownCycle_frame ..)
    | apply Frame.via (sendRef_frame ..)
    | apply Frame.via (takeMaster_frame ..)
    | apply Frame.ite

theorem slotAge_frame (k : Nat) (s : State) :
    Frame [.mbx, .log, .vz, .ring] s (slotAge k s) := by
  unfold slotAge
  with_reducible repeat' first
    | assumption
    | decide
    | apply Frame.refl
    | (lift_lets; intro x; apply Frame.cut x ?_ (fun _ => ?_); subst x; rotate_left; clear_value x; rotate_right)
    | (lift_lets; intro x; apply Frame.cut x.1 ?_ (fun _ => ?_); subst x; rotate_left; clear_value x; rotate_right)
    | (lift_lets; intro x; clear_value x)
    | apply Frame.via (State.modRing_frame ..)
    | apply Frame.via (raiseRing_frame ..)
    | apply Frame.ite

theorem relayTimeout_frame (s : State) :
    Frame [.mbx, .log, .vz, .ring] s (relayTimeout s) := by
  unfold relayTimeout
  with_reducible repeat' first
    | assumption
    | decide
    | apply Frame.refl
    | (lift_lets; intro x; apply Frame.cut x ?_ (fun _ => ?_); subst x; rotate_left; clear_value x; rotate_right)
    | (lift_lets; intro x; apply Frame.cut x.1 ?_ (fun _ => ?_); subst x; rotate_left; clear_value x; rotate_right)
    | (lift_lets; intro x; clear_value x)
    | apply Frame.via (State.modRing_frame ..)
    | apply Frame.via (raiseRing_frame ..)
    | apply Frame.ite

theorem execRelayQueueTimeout_frame (s : State) :
    Framed [.mbx, .log, .vz, .ring] s (execRelayQueueTimeout s) := by
  unfold execRelayQueueTimeout
  with_reducible repeat' first
    | apply Framed.next
    | assumption
    | decide
    | apply Frame.refl
    | apply Frame.via (relayTimeout_frame ..)

theorem secondary_frame (p : Nat) (f : RingFrame) (busy : Bool) (s : State) :
    Frame [.ring] s (secondary p f busy s) := by
  unfold secondary
  with_reducible repeat' first
    | assumption
    | decide
    | apply Frame.refl
    | (lift_lets; intro x; apply Frame.cut x ?_ (fun _ => ?_); subst x; rotate_left; clear_value x; rotate_right)
    | (lift_lets; intro x; apply Frame.cut x.1 ?_ (fun _ => ?_); subst x; rotate_left; clear_value x; rotate_right)
    | (lift_lets; intro x; clear_value x)
    | apply Frame.via (State.modCount_frame ..)
    | apply Frame.via (State.modRing_frame ..)
    | apply Frame.via (discard_frame ..)
    | apply Frame.via (forward_frame ..)
    | apply Frame.via (putWire_frame ..)
    | apply Frame.ite
    | apply Frame.foldl
    | apply Frame.foldl1
    | intro _
    | split

theorem execSecondaryFrameReceived_frame (port : Fin 2) (link : LinkCheck) (f : RingFrame) (busy : Bool) (s : State) :
    Framed [.mbx, .log, .vz, .ring] s (execSecondaryFrameReceived port link f busy s) := by
  unfold execSecondaryFrameReceived
  with_reducible repeat' first
    | apply Framed.next
    | assumption
    | decide
    | apply Frame.refl
    | (lift_lets; intro x; apply Frame.cut x ?_ (fun _ => ?_); subst x; rotate_left; clear_value x; rotate_right)
    | (lift_lets; intro x; apply Frame.cut x.1 ?_ (fun _ => ?_); subst x; rotate_left; clear_value x; rotate_right)
    | (lift_lets; intro x; clear_value x)
    | apply Frame.via (linkRx_frame ..)
    | apply Frame.via (secondary_frame ..)
    | apply Frame.ite

theorem execRingGetStatus_frame (r : Req) (s : State) :
    Framed [.mbx, .vz] s (execRingGetStatus r s) := by
  unfold execRingGetStatus
  with_reducible repeat' first
    | apply Framed.next
    | assumption
    | decide
    | apply Frame.refl
    | apply runCmd_frame
    | apply Frame.ite
    | intro _

theorem needJoined_frame {w : List Part} {s0 s : State} {f : State → State × Reply} (h : Frame w s0 s) (hb : Frame w s0 (f s).1) :
    Frame w s0 (needJoined f s).1 := by
  unfold needJoined
  split <;> assumption

theorem execRingTopology_frame (r : Req) (s : State) :
    Framed [.mbx, .vz] s (execRingTopology r s) := by
  unfold execRingTopology
  with_reducible repeat' first
    | apply Framed.next
    | assumption
    | decide
    | apply Frame.refl
    | apply needJoined_frame
    | apply runCmd_frame
    | apply Frame.ite
    | intro _

theorem execRingSlotAge_frame (r : Req) (first count : U16) (s : State) :
    Framed [.mbx, .vz] s (execRingSlotAge r first count s) := by
  unfold execRingSlotAge
  with_reducible repeat' first
    | apply Framed.next
    | assumption
    | decide
    | apply Frame.refl
    | apply needJoined_frame
    | apply runCmd_frame
    | apply Frame.ite
    | intro _

theorem execRingDelays_frame (r : Req) (s : State) :
    Framed [.mbx, .vz] s (execRingDelays r s) := by
  unfold execRingDelays
  with_reducible repeat' first
    | apply Framed.next
    | assumption
    | decide
    | apply Frame.refl
    | apply needJoined_frame
    | apply runCmd_frame
    | apply Frame.ite
    | intro _

theorem consentBody_frame (give : Bool) (s : State) :
    Frame [.ring] s (consentBody give s).1 := by
  unfold consentBody
  with_reducible repeat' first
    | assumption
    | decide
    | apply Frame.refl
    | apply Frame.via (State.modRing_frame ..)
    | apply Frame.ite
    | apply Frame.ite1

theorem execRingSleepConsent_frame (r : Req) (give : Byte) (s : State) :
    Framed [.mbx, .vz, .ring] s (execRingSleepConsent r give s) := by
  unfold execRingSleepConsent
  with_reducible repeat' first
    | apply Framed.next
    | assumption
    | decide
    | apply Frame.refl
    | apply Frame.via (consentBody_frame ..)
    | apply runCmd_frame
    | apply Frame.ite
    | intro _

theorem ringStatsBody_frame (clear : Bool) (s : State) :
    Frame [.ring] s (ringStatsBody clear s).1 := by
  unfold ringStatsBody
  with_reducible repeat' first
    | assumption
    | decide
    | apply Frame.refl
    | (lift_lets; intro x; apply Frame.cut x ?_ (fun _ => ?_); subst x; rotate_left; clear_value x; rotate_right)
    | (lift_lets; intro x; apply Frame.cut x.1 ?_ (fun _ => ?_); subst x; rotate_left; clear_value x; rotate_right)
    | (lift_lets; intro x; clear_value x)
    | apply Frame.via (State.modRing_frame ..)
    | apply Frame.ite

theorem execRingStats_frame (r : Req) (clear : Byte) (s : State) :
    Framed [.mbx, .vz, .ring] s (execRingStats r clear s) := by
  unfold execRingStats
  with_reducible repeat' first
    | apply Framed.next
    | assumption
    | decide
    | apply Frame.refl
    | apply Frame.via (ringStatsBody_frame ..)
    | apply runCmd_frame
    | apply Frame.ite
    | intro _

end Sys2Proof.Machine

end
end

