-- ==== Sys2Proof/Laws/Frames/EswRows.lean ====
section
/-! SUPPORT. The frame of each function of `Machine/EswRows.lean`: the parts of the state it may change. -/

section

set_option Elab.async false

namespace Sys2Proof.Machine

theorem eswStop_frame (s : State) :
    Frame [.esw] s (eswStop s) := by
  unfold eswStop
  with_reducible repeat' first
    | assumption
    | decide
    | apply Frame.refl
    | apply Frame.via (State.modEsw_frame ..)

theorem audit_frame (cellsOff descsOff : Int) (loose : List LooseCell) (s : State) :
    Frame [.mbx, .log, .vz, .esw] s (audit cellsOff descsOff loose s) := by
  unfold audit
  with_reducible repeat' first
    | assumption
    | decide
    | apply Frame.refl
    | (lift_lets; intro x; apply Frame.cut x ?_ (fun _ => ?_); subst x; rotate_left; clear_value x; rotate_right)
    | (lift_lets; intro x; apply Frame.cut x.1 ?_ (fun _ => ?_); subst x; rotate_left; clear_value x; rotate_right)
    | (lift_lets; intro x; clear_value x)
    | apply Frame.via (State.modEsw_frame ..)
    | apply Frame.via (raise_frame ..)
    | apply Frame.ite

theorem iommuFault_frame (v : Nat) (s : State) :
    Frame [.mbx, .log, .vz] s (iommuFault v s) := by
  unfold iommuFault
  with_reducible repeat' first
    | assumption
    | decide
    | apply Frame.refl
    | (lift_lets; intro x; apply Frame.cut x ?_ (fun _ => ?_); subst x; rotate_left; clear_value x; rotate_right)
    | (lift_lets; intro x; apply Frame.cut x.1 ?_ (fun _ => ?_); subst x; rotate_left; clear_value x; rotate_right)
    | (lift_lets; intro x; clear_value x)
    | apply Frame.via (raise_frame ..)
    | apply Frame.ite
    | split
    | apply Frame.set_vz

theorem eswStart_frame (s : State) :
    Frame [.esw] s (eswStart s) := by
  unfold eswStart
  with_reducible repeat' first
    | assumption
    | decide
    | apply Frame.refl
    | (lift_lets; intro x; apply Frame.cut x ?_ (fun _ => ?_); subst x; rotate_left; clear_value x; rotate_right)
    | (lift_lets; intro x; apply Frame.cut x.1 ?_ (fun _ => ?_); subst x; rotate_left; clear_value x; rotate_right)
    | (lift_lets; intro x; clear_value x)
    | apply Frame.via (State.modEsw_frame ..)

theorem takeI3_frame (s : State) :
    Frame [.sig] s (takeI3 s) := by
  unfold takeI3
  with_reducible repeat' first
    | assumption
    | decide
    | apply Frame.refl
    | apply Frame.via (State.modSig_frame ..)

theorem macsecIn_frame (p : Nat) (check : PortCheck) (s : State) :
    Frame [.esw] s (macsecIn p check s).1 := by
  unfold macsecIn
  with_reducible repeat' first
    | assumption
    | decide
    | apply Frame.refl
    | apply Frame.via (State.modSwCount_frame ..)
    | apply Frame.via (State.modSwp_frame ..)
    | apply Frame.ite
    | apply Frame.ite1
    | split

theorem ingress_frame (p : Nat) (check : PortCheck) (f : EthFrame) (station : Nat) (rivals : List Rival) (s : State) :
    Frame [.mbx, .log, .vz, .esw] s (ingress p check f station rivals s) := by
  unfold ingress
  with_reducible repeat' first
    | assumption
    | decide
    | apply Frame.refl
    | (lift_lets; intro x; apply Frame.cut x ?_ (fun _ => ?_); subst x; rotate_left; clear_value x; rotate_right)
    | (lift_lets; intro x; apply Frame.cut x.1 ?_ (fun _ => ?_); subst x; rotate_left; clear_value x; rotate_right)
    | (lift_lets; intro x; clear_value x)
    | apply Frame.via (State.modSwCount_frame ..)
    | apply Frame.via (macsecIn_frame ..)
    | apply Frame.via (switchFrame_frame ..)
    | apply Frame.ite

theorem frameIn_frame (p : Nat) (check : PortCheck) (f : EthFrame) (station : Nat) (rivals : List Rival) (s : State) :
    Frame [.mbx, .log, .vz, .esw, .sig] s (frameIn p check f station rivals s) := by
  unfold frameIn
  with_reducible repeat' first
    | assumption
    | decide
    | apply Frame.refl
    | apply Frame.via (ingress_frame ..)
    | apply Frame.via (takeI3_frame ..)
    | apply Frame.ite
    | split

theorem execFrameIngress_frame (port : Fin 21) (check : PortCheck) (f : EthFrame) (station : Fin 32) (rivals : List Rival) (s : State) :
    Framed [.mbx, .log, .vz, .esw, .sig] s (execFrameIngress port check f station rivals s) := by
  unfold execFrameIngress
  with_reducible repeat' first
    | apply Framed.next
    | assumption
    | decide
    | apply Frame.refl
    | apply Frame.via (frameIn_frame ..)

theorem releaseHeld_frame (p t : Nat) (s : State) :
    Frame [.esw] s (releaseHeld p t s) := by
  unfold releaseHeld
  with_reducible repeat' first
    | assumption
    | decide
    | apply Frame.refl
    | apply Frame.via (State.modSwp_frame ..)
    | apply Frame.ite

theorem losslessOut_frame (p t : Nat) (s : State) :
    Frame [.mbx, .log, .vz, .esw] s (losslessOut p t s) := by
  unfold losslessOut
  with_reducible repeat' first
    | assumption
    | decide
    | apply Frame.refl
    | apply Frame.via (State.modEsw_frame ..)
    | apply Frame.via (potDrop_frame ..)
    | apply Frame.via (releaseHeld_frame ..)
    | apply Frame.ite
    | split

theorem execLosslessTimeout_frame (port : Fin 21) (cls : Fin 8) (s : State) :
    Framed [.mbx, .log, .vz, .esw] s (execLosslessTimeout port cls s) := by
  unfold execLosslessTimeout
  with_reducible repeat' first
    | apply Framed.next
    | assumption
    | decide
    | apply Frame.refl
    | apply Frame.via (losslessOut_frame ..)

theorem cellScrubbed_frame (plane : Nat) (s : State) :
    Frame [.esw] s (cellScrubbed plane s) := by
  unfold cellScrubbed
  with_reducible repeat' first
    | assumption
    | decide
    | apply Frame.refl
    | (lift_lets; intro x; apply Frame.cut x ?_ (fun _ => ?_); subst x; rotate_left; clear_value x; rotate_right)
    | (lift_lets; intro x; apply Frame.cut x.1 ?_ (fun _ => ?_); subst x; rotate_left; clear_value x; rotate_right)
    | (lift_lets; intro x; clear_value x)
    | apply Frame.via (State.modEsw_frame ..)
    | apply Frame.via (releaseHeld_frame ..)
    | apply Frame.via (storeFrame_frame ..)
    | apply Frame.ite
    | split

theorem execCellScrubbed_frame (plane : Fin 2) (s : State) :
    Framed [.esw] s (execCellScrubbed plane s) := by
  unfold execCellScrubbed
  with_reducible repeat' first
    | apply Framed.next
    | assumption
    | decide
    | apply Frame.refl
    | apply Frame.via (cellScrubbed_frame ..)

theorem crossbar_frame (s : State) :
    Frame [.esw] s (crossbar s) := by
  unfold crossbar
  with_reducible repeat' first
    | assumption
    | decide
    | apply Frame.refl
    | apply Frame.via (State.modEsw_frame ..)
    | apply Frame.ite
    | split
    | dsimp only

theorem dropCopy_frame (x : Stored) (c : EgressCopy) (s : State) :
    Frame [.esw] s (dropCopy x c s) := by
  unfold dropCopy
  with_reducible repeat' first
    | assumption
    | decide
    | apply Frame.refl
    | (lift_lets; intro x; apply Frame.cut x ?_ (fun _ => ?_); subst x; rotate_left; clear_value x; rotate_right)
    | (lift_lets; intro x; apply Frame.cut x.1 ?_ (fun _ => ?_); subst x; rotate_left; clear_value x; rotate_right)
    | (lift_lets; intro x; clear_value x)
    | apply Frame.via (State.modEsw_frame ..)
    | apply Frame.via (State.modPot_frame ..)

theorem spendCredit_frame (p t len : Nat) (s : State) :
    Frame [.esw] s (spendCredit p t len s) := by
  unfold spendCredit
  with_reducible repeat' first
    | assumption
    | decide
    | apply Frame.refl
    | (lift_lets; intro x; apply Frame.cut x ?_ (fun _ => ?_); subst x; rotate_left; clear_value x; rotate_right)
    | (lift_lets; intro x; apply Frame.cut x.1 ?_ (fun _ => ?_); subst x; rotate_left; clear_value x; rotate_right)
    | (lift_lets; intro x; clear_value x)
    | apply Frame.via (State.modEsw_frame ..)
    | apply Frame.ite
    | split

theorem deliverRx_frame (v : Nat) (x : Stored) (s : State) :
    Frame [.vz, .esw, .free] s (deliverRx v x s) := by
  unfold deliverRx
  with_reducible repeat' first
    | assumption
    | decide
    | apply Frame.refl
    | (lift_lets; intro x; apply Frame.cut x ?_ (fun _ => ?_); subst x; rotate_left; clear_value x; rotate_right)
    | (lift_lets; intro x; apply Frame.cut x.1 ?_ (fun _ => ?_); subst x; rotate_left; clear_value x; rotate_right)
    | (lift_lets; intro x; clear_value x)
    | apply Frame.via (State.draw_frame ..)
    | apply Frame.via (State.modQp_frame ..)
    | apply Frame.via (State.raiseSrc_frame ..)

theorem toRing_frame (x : Stored) (c : EgressCopy) (f : EthFrame) (s : State) :
    Frame [.ring, .esw] s (toRing x c f s) := by
  unfold toRing
  with_reducible repeat' first
    | assumption
    | decide
    | apply Frame.refl
    | (lift_lets; intro x; apply Frame.cut x ?_ (fun _ => ?_); subst x; rotate_left; clear_value x; rotate_right)
    | (lift_lets; intro x; apply Frame.cut x.1 ?_ (fun _ => ?_); subst x; rotate_left; clear_value x; rotate_right)
    | (lift_lets; intro x; clear_value x)
    | apply Frame.via (State.modRing_frame ..)
    | apply Frame.via (State.modSwCount_frame ..)
    | apply Frame.ite

theorem sendCopy_frame (p : Nat) (x : Stored) (c : EgressCopy) (s : State) :
    Frame [.vz, .ring, .esw, .free] s (sendCopy p x c s) := by
  unfold sendCopy
  with_reducible repeat' first
    | assumption
    | decide
    | apply Frame.refl
    | (lift_lets; intro x; apply Frame.cut x ?_ (fun _ => ?_); subst x; rotate_left; clear_value x; rotate_right)
    | (lift_lets; intro x; apply Frame.cut x.1 ?_ (fun _ => ?_); subst x; rotate_left; clear_value x; rotate_right)
    | (lift_lets; intro x; clear_value x)
    | apply Frame.via (State.modEsw_frame ..)
    | apply Frame.via (State.modSwCount_frame ..)
    | apply Frame.via (completeOpt_frame ..)
    | apply Frame.via (deliverRx_frame ..)
    | apply Frame.via (dropCopy_frame ..)
    | apply Frame.via (spendCredit_frame ..)
    | apply Frame.via (toRing_frame ..)
    | apply Frame.ite
    | split

theorem noteRxFull_frame (p : Nat) (s : State) :
    Frame [.esw] s (noteRxFull p s) := by
  unfold noteRxFull
  with_reducible repeat' first
    | assumption
    | decide
    | apply Frame.refl
    | apply Frame.via (State.modQp_frame ..)
    | apply Frame.ite
    | apply Frame.foldl
    | apply Frame.foldl1
    | intro _
    | split

theorem egress_frame (p : Nat) (s : State) :
    Frame [.vz, .ring, .esw, .free] s (egress p s) := by
  unfold egress
  with_reducible repeat' first
    | assumption
    | decide
    | apply Frame.refl
    | (lift_lets; intro x; apply Frame.cut x ?_ (fun _ => ?_); subst x; rotate_left; clear_value x; rotate_right)
    | (lift_lets; intro x; apply Frame.cut x.1 ?_ (fun _ => ?_); subst x; rotate_left; clear_value x; rotate_right)
    | (lift_lets; intro x; clear_value x)
    | apply Frame.via (State.modEsw_frame ..)
    | apply Frame.via (crossbar_frame ..)
    | apply Frame.via (noteRxFull_frame ..)
    | apply Frame.via (sendCopy_frame ..)
    | apply Frame.ite
    | apply Frame.foldl
    | apply Frame.foldl1
    | split

theorem execFrameEgress_frame (port : Fin 21) (s : State) :
    Framed [.vz, .ring, .esw, .free] s (execFrameEgress port s) := by
  unfold execFrameEgress
  with_reducible repeat' first
    | apply Framed.next
    | assumption
    | decide
    | apply Frame.refl
    | apply Frame.via (egress_frame ..)

theorem execPotFullEpisodeEnd_frame (pot : Fin 64) (s : State) :
    Framed [.esw] s (execPotFullEpisodeEnd pot s) := by
  unfold execPotFullEpisodeEnd
  with_reducible repeat' first
    | apply Framed.next
    | assumption
    | decide
    | apply Frame.refl
    | apply Frame.via (State.modPot_frame ..)
    | apply Frame.ite

theorem gateStep_frame (stream : Bool) (i : Nat) (s : State) :
    Frame [.esw] s (gateStep stream i s) := by
  unfold gateStep
  with_reducible repeat' first
    | assumption
    | decide
    | apply Frame.refl
    | apply Frame.via (State.modEsw_frame ..)

theorem execGateListEntry_frame (stream : Bool) (i : Fin 512) (s : State) :
    Framed [.esw] s (execGateListEntry stream i s) := by
  unfold execGateListEntry
  with_reducible repeat' first
    | apply Framed.next
    | assumption
    | decide
    | apply Frame.refl
    | apply Frame.via (gateStep_frame ..)
    | apply Frame.ite

theorem execFdbAgeing_frame (mac : BitVec 48) (vid : BitVec 12) (s : State) :
    Framed [.esw] s (execFdbAgeing mac vid s) := by
  unfold execFdbAgeing
  with_reducible repeat' first
    | apply Framed.next
    | assumption
    | decide
    | apply Frame.refl
    | apply Frame.via (State.modEsw_frame ..)

theorem linkChange_frame (p : Nat) (up : Bool) (s : State) :
    Frame [.mbx, .log, .vz, .esw] s (linkChange p up s) := by
  unfold linkChange
  with_reducible repeat' first
    | assumption
    | decide
    | apply Frame.refl
    | apply Frame.via (State.modSwp_frame ..)
    | apply Frame.via (raisePort_frame ..)
    | apply Frame.ite

theorem execEswLinkChange_frame (port : Fin 21) (up : Bool) (s : State) :
    Framed [.mbx, .log, .vz, .esw] s (execEswLinkChange port up s) := by
  unfold execEswLinkChange
  with_reducible repeat' first
    | apply Framed.next
    | assumption
    | decide
    | apply Frame.refl
    | apply Frame.via (linkChange_frame ..)

theorem execPortMacsecTimeout_frame (port : Fin 21) (s : State) :
    Framed [.mbx, .log, .vz] s (execPortMacsecTimeout port s) := by
  unfold execPortMacsecTimeout
  with_reducible repeat' first
    | apply Framed.next
    | assumption
    | decide
    | apply Frame.refl
    | (lift_lets; intro x; apply Frame.cut x ?_ (fun _ => ?_); subst x; rotate_left; clear_value x; rotate_right)
    | (lift_lets; intro x; apply Frame.cut x.1 ?_ (fun _ => ?_); subst x; rotate_left; clear_value x; rotate_right)
    | (lift_lets; intro x; clear_value x)
    | apply Frame.via (raisePort_frame ..)
    | apply Frame.ite

theorem execPlcaBeaconTimeout_frame (port : Fin 21) (s : State) :
    Framed [.mbx, .log, .vz, .esw] s (execPlcaBeaconTimeout port s) := by
  unfold execPlcaBeaconTimeout
  with_reducible repeat' first
    | apply Framed.next
    | assumption
    | decide
    | apply Frame.refl
    | (lift_lets; intro x; apply Frame.cut x ?_ (fun _ => ?_); subst x; rotate_left; clear_value x; rotate_right)
    | (lift_lets; intro x; apply Frame.cut x.1 ?_ (fun _ => ?_); subst x; rotate_left; clear_value x; rotate_right)
    | (lift_lets; intro x; clear_value x)
    | apply Frame.via (State.modSwp_frame ..)
    | apply Frame.via (raise_frame ..)
    | apply Frame.ite

theorem execPlcaBeaconReturn_frame (port : Fin 21) (s : State) :
    Framed [.esw] s (execPlcaBeaconReturn port s) := by
  unfold execPlcaBeaconReturn
  with_reducible repeat' first
    | apply Framed.next
    | assumption
    | decide
    | apply Frame.refl
    | (lift_lets; intro x; apply Frame.cut x ?_ (fun _ => ?_); subst x; rotate_left; clear_value x; rotate_right)
    | (lift_lets; intro x; apply Frame.cut x.1 ?_ (fun _ => ?_); subst x; rotate_left; clear_value x; rotate_right)
    | (lift_lets; intro x; clear_value x)
    | apply Frame.via (State.modSwp_frame ..)
    | apply Frame.ite

theorem execLatentErrorTest_frame (fn : Fin 1024) (trip : Bool) (s : State) :
    Framed [.mbx, .log, .vz] s (execLatentErrorTest fn trip s) := by
  unfold execLatentErrorTest
  with_reducible repeat' first
    | apply Framed.next
    | assumption
    | decide
    | apply Frame.refl
    | apply Frame.via (raise_frame ..)
    | apply Frame.ite
    | split

theorem execCellAudit_frame (cellsOff descsOff : Int) (loose : List LooseCell) (s : State) :
    Framed [.mbx, .log, .vz, .esw] s (execCellAudit cellsOff descsOff loose s) := by
  unfold execCellAudit
  with_reducible repeat' first
    | apply Framed.next
    | assumption
    | decide
    | apply Frame.refl
    | apply Frame.via (audit_frame ..)
    | apply Frame.ite

theorem reclaimCell_frame (c : LooseCell) (s : State) :
    Frame [.esw] s (reclaimCell c s) := by
  unfold reclaimCell
  with_reducible repeat' first
    | assumption
    | decide
    | apply Frame.refl
    | apply Frame.via (State.modEsw_frame ..)
    | apply Frame.via (State.modPot_frame ..)
    | apply Frame.ite

theorem compareDone_frame (s : State) :
    Frame [.mbx, .log, .vz, .esw] s (compareDone s) := by
  unfold compareDone
  with_reducible repeat' first
    | assumption
    | decide
    | apply Frame.refl
    | (lift_lets; intro x; apply Frame.cut x ?_ (fun _ => ?_); subst x; rotate_left; clear_value x; rotate_right)
    | (lift_lets; intro x; apply Frame.cut x.1 ?_ (fun _ => ?_); subst x; rotate_left; clear_value x; rotate_right)
    | (lift_lets; intro x; clear_value x)
    | apply Frame.via (State.modEsw_frame ..)
    | apply Frame.via (raise_frame ..)
    | apply Frame.via (reclaimCell_frame ..)
    | apply Frame.ite
    | apply Frame.foldl
    | apply Frame.foldl1
    | intro _
    | split

theorem execLeakCompareDone_frame (s : State) :
    Framed [.mbx, .log, .vz, .esw] s (execLeakCompareDone s) := by
  unfold execLeakCompareDone
  with_reducible repeat' first
    | apply Framed.next
    | assumption
    | decide
    | apply Frame.refl
    | apply Frame.via (compareDone_frame ..)

theorem dropStored_frame (x : Stored) (s : State) :
    Frame [.esw] s (dropStored x s) := by
  unfold dropStored
  with_reducible repeat' first
    | assumption
    | decide
    | apply Frame.refl
    | (lift_lets; intro x; apply Frame.cut x ?_ (fun _ => ?_); subst x; rotate_left; clear_value x; rotate_right)
    | (lift_lets; intro x; apply Frame.cut x.1 ?_ (fun _ => ?_); subst x; rotate_left; clear_value x; rotate_right)
    | (lift_lets; intro x; clear_value x)
    | apply Frame.via (State.modEsw_frame ..)
    | apply Frame.via (State.modPot_frame ..)

theorem cellEcc_frame (cell : Nat) (frame : Option Nat) (s : State) :
    Frame [.mbx, .log, .vz, .esw] s (cellEcc cell frame s) := by
  unfold cellEcc
  with_reducible repeat' first
    | assumption
    | decide
    | apply Frame.refl
    | (lift_lets; intro x; apply Frame.cut x ?_ (fun _ => ?_); subst x; rotate_left; clear_value x; rotate_right)
    | (lift_lets; intro x; apply Frame.cut x.1 ?_ (fun _ => ?_); subst x; rotate_left; clear_value x; rotate_right)
    | (lift_lets; intro x; clear_value x)
    | apply Frame.via (State.modEsw_frame ..)
    | apply Frame.via (dropAt_frame ..)
    | apply Frame.via (dropStored_frame ..)
    | apply Frame.via (raise_frame ..)
    | apply Frame.ite
    | split

theorem execCellEccError_frame (cell : Fin 262144) (frame : Option Nat) (s : State) :
    Framed [.mbx, .log, .vz, .esw] s (execCellEccError cell frame s) := by
  unfold execCellEccError
  with_reducible repeat' first
    | apply Framed.next
    | assumption
    | decide
    | apply Frame.refl
    | apply Frame.via (cellEcc_frame ..)
    | apply Frame.ite

theorem countFault_frame (v : Nat) (s : State) :
    Frame [.mbx] s (countFault v s) := by
  unfold countFault
  with_reducible repeat' first
    | assumption
    | decide
    | apply Frame.refl
    | apply Frame.ite
    | split
    | apply Frame.set_mbx

theorem takeDesc_frame (v q : Nat) (n : U16) (d : TxDesc) (rivals : List Rival) (s : State) :
    Frame [.mbx, .log, .vz, .esw] s (takeDesc v q n d rivals s) := by
  unfold takeDesc
  with_reducible repeat' first
    | assumption
    | decide
    | apply Frame.refl
    | (lift_lets; intro x; apply Frame.cut x ?_ (fun _ => ?_); subst x; rotate_left; clear_value x; rotate_right)
    | (lift_lets; intro x; apply Frame.cut x.1 ?_ (fun _ => ?_); subst x; rotate_left; clear_value x; rotate_right)
    | (lift_lets; intro x; clear_value x)
    | apply Frame.via (State.modEswStats_frame ..)
    | apply Frame.via (State.modQp_frame ..)
    | apply Frame.via (State.modSwCount_frame ..)
    | apply Frame.via (completeTx_frame ..)
    | apply Frame.via (iommuFault_frame ..)
    | apply Frame.via (switchFrame_frame ..)
    | apply Frame.ite

theorem takeDescs_frame (v q : Nat) (rivals : List Rival) (a3 : List TxDesc) (a4 : U16) (a5 : State) :
    Frame [.mbx, .log, .vz, .esw] a5 (takeDescs v q rivals a3 a4 a5) := by
  induction a3 generalizing a4 a5 with
  | nil => exact Frame.refl ..
  | cons x r ih =>
    unfold takeDescs
    with_reducible repeat' first
      | assumption
      | decide
      | apply Frame.refl
      | apply Frame.via (ih ..)
      | apply Frame.via (State.modQp_frame ..)
      | apply Frame.via (takeDesc_frame ..)
      | apply Frame.ite

theorem txDoorbell_frame (v q : Nat) (index : U16) (descs : List TxDesc) (rivals : List Rival) (s : State) :
    Frame [.mbx, .log, .vz, .esw] s (txDoorbell v q index descs rivals s) := by
  unfold txDoorbell
  with_reducible repeat' first
    | assumption
    | decide
    | apply Frame.refl
    | (lift_lets; intro x; apply Frame.cut x ?_ (fun _ => ?_); subst x; rotate_left; clear_value x; rotate_right)
    | (lift_lets; intro x; apply Frame.cut x.1 ?_ (fun _ => ?_); subst x; rotate_left; clear_value x; rotate_right)
    | (lift_lets; intro x; clear_value x)
    | apply Frame.via (State.modQp_frame ..)
    | apply Frame.via (takeDescs_frame ..)
    | apply Frame.ite

theorem execEswTxqProdWrite_frame (v : Fin 256) (q : Fin 4) (index : U16) (descs : List TxDesc) (rivals : List Rival) (s : State) :
    Framed [.mbx, .log, .vz, .esw, .bus] s (execEswTxqProdWrite v q index descs rivals s) := by
  unfold execEswTxqProdWrite
  with_reducible repeat' first
    | apply Framed.next
    | assumption
    | decide
    | apply Frame.refl
    | apply Frame.via (countFault_frame ..)
    | apply Frame.via (txDoorbell_frame ..)
    | apply Frame.via (windowFault_frame ..)
    | apply Frame.ite

theorem rxConsume_frame (v q : Nat) (index : U16) (s : State) :
    Frame [.esw] s (rxConsume v q index s) := by
  unfold rxConsume
  with_reducible repeat' first
    | assumption
    | decide
    | apply Frame.refl
    | (lift_lets; intro x; apply Frame.cut x ?_ (fun _ => ?_); subst x; rotate_left; clear_value x; rotate_right)
    | (lift_lets; intro x; apply Frame.cut x.1 ?_ (fun _ => ?_); subst x; rotate_left; clear_value x; rotate_right)
    | (lift_lets; intro x; clear_value x)
    | apply Frame.via (State.modQp_frame ..)
    | apply Frame.ite

theorem rxConsWrite_frame (v q : Nat) (index : U16) (s : State) :
    Frame [.mbx, .log, .vz, .esw, .bus] s (rxConsWrite v q index s) := by
  unfold rxConsWrite
  with_reducible repeat' first
    | assumption
    | decide
    | apply Frame.refl
    | apply Frame.via (countFault_frame ..)
    | apply Frame.via (rxConsume_frame ..)
    | apply Frame.via (windowFault_frame ..)
    | apply Frame.ite

theorem execEswRxqConsWrite_frame (v : Fin 256) (q : Fin 4) (index : U16) (s : State) :
    Framed [.mbx, .log, .vz, .esw, .bus] s (execEswRxqConsWrite v q index s) := by
  unfold execEswRxqConsWrite
  with_reducible repeat' first
    | apply Framed.next
    | assumption
    | decide
    | apply Frame.refl
    | apply Frame.via (rxConsWrite_frame ..)

theorem openPairs_frame (v : Nat) (s : State) :
    Frame [.esw, .free] s (openPairs v s) := by
  unfold openPairs
  with_reducible repeat' first
    | assumption
    | decide
    | apply Frame.refl
    | (lift_lets; intro x; apply Frame.cut x ?_ (fun _ => ?_); subst x; rotate_left; clear_value x; rotate_right)
    | (lift_lets; intro x; apply Frame.cut x.1 ?_ (fun _ => ?_); subst x; rotate_left; clear_value x; rotate_right)
    | (lift_lets; intro x; clear_value x)
    | apply Frame.via (State.draw_frame ..)
    | apply Frame.via (State.modQp_frame ..)
    | apply Frame.ite
    | apply Frame.foldl
    | apply Frame.foldl1
    | intro _

theorem closePairs_frame (v : Nat) (s : State) :
    Frame [.esw] s (closePairs v s) := by
  unfold closePairs
  with_reducible repeat' first
    | assumption
    | decide
    | apply Frame.refl
    | apply Frame.via (State.modEsw_frame ..)

theorem eswResetVzf_frame (v : Nat) (s : State) :
    Frame [.vz, .esw] s (eswResetVzf v s) := by
  unfold eswResetVzf
  with_reducible repeat' first
    | assumption
    | decide
    | apply Frame.refl
    | (lift_lets; intro x; apply Frame.cut x ?_ (fun _ => ?_); subst x; rotate_left; clear_value x; rotate_right)
    | (lift_lets; intro x; apply Frame.cut x.1 ?_ (fun _ => ?_); subst x; rotate_left; clear_value x; rotate_right)
    | (lift_lets; intro x; clear_value x)
    | apply Frame.via (State.modEsw_frame ..)
    | apply Frame.via (completeOpt_frame ..)
    | apply Frame.via (dropCopy_frame ..)
    | apply Frame.via (dropStored_frame ..)
    | apply Frame.via (releaseHeld_frame ..)
    | apply Frame.ite
    | apply Frame.foldl
    | apply Frame.foldl1
    | intro _

end Sys2Proof.Machine

end
end

