-- ==== Sys2Proof/Laws/Frames/Mbx.lean ====
section
/-! SUPPORT. The frame of each function of `Machine/Mbx.lean`: the parts of the state it may change. -/

section

set_option Elab.async false

namespace Sys2Proof.Machine

theorem portEpoch_frame (n : Nat) (s : State) :
    Frame [.mbx, .vz] s (portEpoch n s) := by
  unfold portEpoch
  with_reducible repeat' first
    | assumption
    | decide
    | apply Frame.refl
    | (lift_lets; intro x; apply Frame.cut x ?_ (fun _ => ?_); subst x; rotate_left; clear_value x; rotate_right)
    | (lift_lets; intro x; apply Frame.cut x.1 ?_ (fun _ => ?_); subst x; rotate_left; clear_value x; rotate_right)
    | (lift_lets; intro x; clear_value x)
    | apply Frame.via (State.raiseSrc_frame ..)
    | apply Frame.ite
    | split
    | apply Frame.set_mbx

theorem openService_frame (rtx slot : Nat) (s : State) :
    Frame [.mbx, .vz] s (openService rtx slot s) := by
  unfold openService
  with_reducible repeat' first
    | assumption
    | decide
    | apply Frame.refl
    | (lift_lets; intro x; apply Frame.cut x ?_ (fun _ => ?_); subst x; rotate_left; clear_value x; rotate_right)
    | (lift_lets; intro x; apply Frame.cut x.1 ?_ (fun _ => ?_); subst x; rotate_left; clear_value x; rotate_right)
    | (lift_lets; intro x; clear_value x)
    | apply Frame.via (portEpoch_frame ..)
    | apply Frame.ite
    | split
    | apply Frame.set_mbx

theorem openPort_frame (v : Nat) (t : Template) (kind : PortKind) (block n : Nat) (s : State) :
    Frame [.mbx, .vz, .free] s (openPort v t kind block n s) := by
  unfold openPort
  with_reducible repeat' first
    | assumption
    | decide
    | apply Frame.refl
    | (lift_lets; intro x; apply Frame.cut x ?_ (fun _ => ?_); subst x; rotate_left; clear_value x; rotate_right)
    | (lift_lets; intro x; apply Frame.cut x.1 ?_ (fun _ => ?_); subst x; rotate_left; clear_value x; rotate_right)
    | (lift_lets; intro x; clear_value x)
    | apply Frame.via (State.draw_frame ..)
    | apply Frame.via (portEpoch_frame ..)
    | apply Frame.ite
    | split
    | apply Frame.set_mbx

theorem takeIntact_frame (n : Nat) (m : HostMsg) (s : State) :
    Frame [.mbx, .vz] s (takeIntact n m s) := by
  unfold takeIntact
  with_reducible repeat' first
    | assumption
    | decide
    | apply Frame.refl
    | (lift_lets; intro x; apply Frame.cut x ?_ (fun _ => ?_); subst x; rotate_left; clear_value x; rotate_right)
    | (lift_lets; intro x; apply Frame.cut x.1 ?_ (fun _ => ?_); subst x; rotate_left; clear_value x; rotate_right)
    | (lift_lets; intro x; clear_value x)
    | apply Frame.via (State.modPort_frame ..)
    | apply Frame.ite
    | split

theorem countDiscard_frame (n : Nat) (s : State) :
    Frame [.mbx, .vz] s (countDiscard n s) := by
  unfold countDiscard
  with_reducible repeat' first
    | assumption
    | decide
    | apply Frame.refl
    | apply Frame.via (State.modPort_frame ..)

theorem authFail_frame (n : Nat) (s : State) :
    Frame [.mbx, .log, .vz] s (authFail n s) := by
  unfold authFail
  with_reducible repeat' first
    | assumption
    | decide
    | apply Frame.refl
    | (lift_lets; intro x; apply Frame.cut x ?_ (fun _ => ?_); subst x; rotate_left; clear_value x; rotate_right)
    | (lift_lets; intro x; apply Frame.cut x.1 ?_ (fun _ => ?_); subst x; rotate_left; clear_value x; rotate_right)
    | (lift_lets; intro x; clear_value x)
    | apply Frame.via (State.modPort_frame ..)
    | apply Frame.via (countDiscard_frame ..)
    | apply Frame.via (raise_frame ..)
    | apply Frame.ite
    | split

theorem takeOldKey_frame (n : Nat) (m : HostMsg) (s : State) :
    Frame [.mbx, .log, .vz] s (takeOldKey n m s) := by
  unfold takeOldKey
  with_reducible repeat' first
    | assumption
    | decide
    | apply Frame.refl
    | apply Frame.via (State.modPort_frame ..)
    | apply Frame.via (authFail_frame ..)
    | apply Frame.ite
    | split

theorem takeMsg_frame (n : Nat) (m : HostMsg) (c : MsgCheck) (s : State) :
    Frame [.mbx, .log, .vz] s (takeMsg n m c s) := by
  unfold takeMsg
  with_reducible repeat' first
    | assumption
    | decide
    | apply Frame.refl
    | apply Frame.via (authFail_frame ..)
    | apply Frame.via (countDiscard_frame ..)
    | apply Frame.via (takeIntact_frame ..)
    | apply Frame.via (takeOldKey_frame ..)
    | apply Frame.ite
    | split

theorem takeServed_frame (n : Nat) (f : Fragment) (s : State) :
    Frame [.mbx, .log, .vz, .uds] s (takeServed n f s) := by
  unfold takeServed
  with_reducible repeat' first
    | assumption
    | decide
    | apply Frame.refl
    | apply Frame.via (State.modPort_frame ..)
    | apply Frame.via (takeMsg_frame ..)
    | apply Frame.ite
    | split
    | apply Frame.set_uds

theorem takeFragment_frame (n : Nat) (f : Fragment) (s : State) :
    Frame [.mbx, .log, .vz, .uds] s (takeFragment n f s) := by
  unfold takeFragment
  with_reducible repeat' first
    | assumption
    | decide
    | apply Frame.refl
    | (lift_lets; intro x; apply Frame.cut x ?_ (fun _ => ?_); subst x; rotate_left; clear_value x; rotate_right)
    | (lift_lets; intro x; apply Frame.cut x.1 ?_ (fun _ => ?_); subst x; rotate_left; clear_value x; rotate_right)
    | (lift_lets; intro x; clear_value x)
    | apply Frame.via (State.modPort_frame ..)
    | apply Frame.via (takeServed_frame ..)
    | apply Frame.ite
    | split

theorem execMbxFragmentReceived_frame (port : Fin 512) (f : Fragment) (s : State) :
    Framed [.mbx, .log, .vz, .uds] s (execMbxFragmentReceived port f s) := by
  unfold execMbxFragmentReceived
  with_reducible repeat' first
    | apply Framed.next
    | assumption
    | decide
    | apply Frame.refl
    | apply Frame.via (takeFragment_frame ..)

theorem execMbxReassemblyTimeout_frame (port : Fin 512) (s : State) :
    Framed [.mbx, .vz] s (execMbxReassemblyTimeout port s) := by
  unfold execMbxReassemblyTimeout
  with_reducible repeat' first
    | apply Framed.next
    | assumption
    | decide
    | apply Frame.refl
    | apply Frame.via (State.modPort_frame ..)

theorem countIgnored_frame (v : Nat) (s : State) :
    Frame [.mbx] s (countIgnored v s) := by
  unfold countIgnored
  with_reducible repeat' first
    | assumption
    | decide
    | apply Frame.refl
    | (lift_lets; intro x; apply Frame.cut x ?_ (fun _ => ?_); subst x; rotate_left; clear_value x; rotate_right)
    | (lift_lets; intro x; apply Frame.cut x.1 ?_ (fun _ => ?_); subst x; rotate_left; clear_value x; rotate_right)
    | (lift_lets; intro x; clear_value x)
    | apply Frame.ite
    | split
    | apply Frame.set_mbx

theorem doorbellReq_frame (v n : Nat) (index : U16) (msgs : List (HostMsg × MsgCheck)) (fault : Bool) (s : State) :
    Frame [.mbx, .log, .vz] s (doorbellReq v n index msgs fault s) := by
  unfold doorbellReq
  with_reducible repeat' first
    | assumption
    | decide
    | apply Frame.refl
    | (lift_lets; intro x; apply Frame.cut x ?_ (fun _ => ?_); subst x; rotate_left; clear_value x; rotate_right)
    | (lift_lets; intro x; apply Frame.cut x.1 ?_ (fun _ => ?_); subst x; rotate_left; clear_value x; rotate_right)
    | (lift_lets; intro x; clear_value x)
    | apply Frame.via (State.modPort_frame ..)
    | apply Frame.via (iommuFault_frame ..)
    | apply Frame.via (takeMsg_frame ..)
    | apply Frame.ite
    | apply Frame.foldl
    | apply Frame.foldl1
    | intro _
    | split

theorem absentPort_frame (v : Nat) (s : State) :
    Frame [.mbx, .log, .vz, .bus] s (absentPort v s) := by
  unfold absentPort
  with_reducible repeat' first
    | assumption
    | decide
    | apply Frame.refl
    | apply Frame.via (windowFault_frame ..)
    | apply Frame.ite

theorem execVzfMbxReqProd_frame (v : Fin 256) (block : Fin 4) (index : U16) (msgs : List (HostMsg × MsgCheck)) (fault : Bool) (s : State) :
    Framed [.mbx, .log, .vz, .bus] s (execVzfMbxReqProd v block index msgs fault s) := by
  unfold execVzfMbxReqProd
  with_reducible repeat' first
    | apply Framed.next
    | assumption
    | decide
    | apply Frame.refl
    | apply Frame.via (absentPort_frame ..)
    | apply Frame.via (countIgnored_frame ..)
    | apply Frame.via (doorbellReq_frame ..)
    | apply Frame.ite
    | split

theorem consumerWrite_frame (v block : Nat) (evt : Bool) (index : U16) (s : State) :
    Frame [.mbx, .log, .vz, .bus] s (consumerWrite v block evt index s) := by
  unfold consumerWrite
  with_reducible repeat' first
    | assumption
    | decide
    | apply Frame.refl
    | apply Frame.via (State.modPort_frame ..)
    | apply Frame.via (absentPort_frame ..)
    | apply Frame.via (countIgnored_frame ..)
    | apply Frame.ite
    | split

theorem execMbxConsumerIndexWrite_frame (v : Fin 256) (block : Fin 4) (evt : Bool) (index : U16) (s : State) :
    Framed [.mbx, .log, .vz, .bus] s (execMbxConsumerIndexWrite v block evt index s) := by
  unfold execMbxConsumerIndexWrite
  with_reducible repeat' first
    | apply Framed.next
    | assumption
    | decide
    | apply Frame.refl
    | apply Frame.via (consumerWrite_frame ..)

theorem execHostControlAck_frame (port : Fin 512) (seq ack : U32) (s : State) :
    Framed [.mbx, .vz] s (execHostControlAck port seq ack s) := by
  unfold execHostControlAck
  with_reducible repeat' first
    | apply Framed.next
    | assumption
    | decide
    | apply Frame.refl
    | apply Frame.via (takeIntact_frame ..)

theorem execMbxAckTimer_frame (port : Fin 512) (s : State) :
    Framed [.mbx, .vz] s (execMbxAckTimer port s) := by
  unfold execMbxAckTimer
  with_reducible repeat' first
    | apply Framed.next
    | assumption
    | decide
    | apply Frame.refl
    | apply Frame.via (State.modPort_frame ..)

theorem execEpochRepeat_frame (port : Fin 512) (s : State) :
    Framed [.mbx, .vz] s (execEpochRepeat port s) := by
  unfold execEpochRepeat
  with_reducible repeat' first
    | apply Framed.next
    | assumption
    | decide
    | apply Frame.refl
    | apply Frame.via (State.modPort_frame ..)

theorem retransmit_frame (n : Nat) (evt : Bool) (seq : U32) (s : State) :
    Frame [.mbx, .log, .vz] s (retransmit n evt seq s) := by
  unfold retransmit
  with_reducible repeat' first
    | assumption
    | decide
    | apply Frame.refl
    | apply Frame.via (State.modPort_frame ..)
    | apply Frame.via (raise_frame ..)
    | apply Frame.ite
    | split

theorem execMbxRetransmit_frame (port : Fin 512) (evt : Bool) (seq : U32) (s : State) :
    Framed [.mbx, .log, .vz] s (execMbxRetransmit port evt seq s) := by
  unfold execMbxRetransmit
  with_reducible repeat' first
    | apply Framed.next
    | assumption
    | decide
    | apply Frame.refl
    | apply Frame.via (retransmit_frame ..)

theorem execUnknownCommand_frame (r : Req) (code : U16) (s : State) :
    Framed [.mbx, .vz] s (execUnknownCommand r code s) := by
  unfold execUnknownCommand
  with_reducible repeat' first
    | apply Framed.next
    | assumption
    | decide
    | apply Frame.refl
    | apply Frame.via (respond_frame ..)
    | apply Frame.ite

theorem resyncPort_frame (r : Req) (p : Port) (s : State) :
    Frame [.mbx, .vz] s (resyncPort r p s).1 := by
  unfold resyncPort
  with_reducible repeat' first
    | assumption
    | decide
    | apply Frame.refl
    | (lift_lets; intro x; apply Frame.cut x ?_ (fun _ => ?_); subst x; rotate_left; clear_value x; rotate_right)
    | (lift_lets; intro x; apply Frame.cut x.1 ?_ (fun _ => ?_); subst x; rotate_left; clear_value x; rotate_right)
    | (lift_lets; intro x; clear_value x)
    | apply Frame.via (State.modPort_frame ..)
    | apply Frame.ite
    | apply Frame.ite1
    | split
    | apply Frame.set_mbx

theorem execSysResync_frame (r : Req) (s : State) :
    Framed [.mbx, .vz] s (execSysResync r s) := by
  unfold execSysResync
  with_reducible repeat' first
    | apply Framed.next
    | assumption
    | decide
    | apply Frame.refl
    | apply Frame.via (resyncPort_frame ..)
    | apply runCmd_frame
    | apply Frame.ite
    | intro _

theorem replay_frame (r : Req) (rsp evt : U32) (p : Port) (s : State) :
    Frame [.mbx, .vz] s (replay r rsp evt p s).1 := by
  unfold replay
  with_reducible repeat' first
    | assumption
    | decide
    | apply Frame.refl
    | apply Frame.via (State.modPort_frame ..)
    | apply Frame.ite
    | apply Frame.ite1
    | apply Frame.foldl
    | apply Frame.foldl1
    | intro _
    | split

theorem execSysReplay_frame (r : Req) (rsp evt : U32) (s : State) :
    Framed [.mbx, .vz] s (execSysReplay r rsp evt s) := by
  unfold execSysReplay
  with_reducible repeat' first
    | apply Framed.next
    | assumption
    | decide
    | apply Frame.refl
    | apply Frame.via (replay_frame ..)
    | apply runCmd_frame
    | apply Frame.ite
    | intro _

theorem execSysSubscribe_frame (r : Req) (cls : Byte) (mask : U32) (s : State) :
    Framed [.mbx, .vz] s (execSysSubscribe r cls mask s) := by
  unfold execSysSubscribe
  with_reducible repeat' first
    | apply Framed.next
    | assumption
    | decide
    | apply Frame.refl
    | apply Frame.via (State.modPort_frame ..)
    | apply runCmd_frame
    | apply Frame.ite
    | intro _

theorem execSysPing_frame (r : Req) (payload : List Byte) (s : State) :
    Framed [.mbx, .vz] s (execSysPing r payload s) := by
  unfold execSysPing
  with_reducible repeat' first
    | apply Framed.next
    | assumption
    | decide
    | apply Frame.refl
    | apply runCmd_frame
    | apply Frame.ite
    | intro _

theorem execSysGetInfo_frame (r : Req) (s : State) :
    Framed [.mbx, .vz] s (execSysGetInfo r s) := by
  unfold execSysGetInfo
  with_reducible repeat' first
    | apply Framed.next
    | assumption
    | decide
    | apply Frame.refl
    | apply runCmd_frame
    | apply Frame.ite
    | intro _

theorem execSysPortStats_frame (r : Req) (s : State) :
    Framed [.mbx, .vz] s (execSysPortStats r s) := by
  unfold execSysPortStats
  with_reducible repeat' first
    | apply Framed.next
    | assumption
    | decide
    | apply Frame.refl
    | apply runCmd_frame
    | apply Frame.ite
    | intro _

theorem setRate_frame (n burst rate : Nat) (s : State) :
    Frame [.mbx, .vz] s (setRate n burst rate s).1 := by
  unfold setRate
  with_reducible repeat' first
    | assumption
    | decide
    | apply Frame.refl
    | (lift_lets; intro x; apply Frame.cut x ?_ (fun _ => ?_); subst x; rotate_left; clear_value x; rotate_right)
    | (lift_lets; intro x; apply Frame.cut x.1 ?_ (fun _ => ?_); subst x; rotate_left; clear_value x; rotate_right)
    | (lift_lets; intro x; clear_value x)
    | apply Frame.via (State.modPort_frame ..)
    | apply Frame.ite
    | apply Frame.ite1
    | split

theorem execSysSetRate_frame (r : Req) (port burst : U16) (rate : U32) (s : State) :
    Framed [.mbx, .vz] s (execSysSetRate r port burst rate s) := by
  unfold execSysSetRate
  with_reducible repeat' first
    | apply Framed.next
    | assumption
    | decide
    | apply Frame.refl
    | apply runCmd_frame
    | apply Frame.via (setRate_frame ..)
    | apply Frame.ite
    | intro _

end Sys2Proof.Machine

end
end

