-- ==== Sys2Proof/Laws/Frames/Canister.lean ====
section
/-! SUPPORT. The frame of each function of `Machine/Canister.lean`: the parts of the state it may change. -/

section

set_option Elab.async false

namespace Sys2Proof.Machine

theorem updDiscardOpen_frame (s : State) :
    Frame [.upd] s (updDiscardOpen s) := by
  unfold updDiscardOpen
  with_reducible repeat' first
    | assumption
    | decide
    | apply Frame.refl
    | apply Frame.ite
    | split
    | apply Frame.set_upd

theorem countRefused_frame (s : State) :
    Frame [.key] s (countRefused s) := by
  unfold countRefused
  with_reducible repeat' first
    | assumption
    | decide
    | apply Frame.refl
    | apply Frame.ite
    | split
    | apply Frame.set_key

theorem State.modKeySlot_frame (s : State) (n : Nat) (f : KeySlot → KeySlot) :
    Frame [.key] s (State.modKeySlot s n f) := by
  unfold State.modKeySlot
  with_reducible repeat' first
    | assumption
    | decide
    | apply Frame.refl
    | apply Frame.ite
    | split
    | apply Frame.set_key

theorem raiseKey_frame (k : EvKind) (inst : Nat) (data : List Byte) (s : State) :
    Frame [.mbx, .log, .vz] s (raiseKey k inst data s) := by
  unfold raiseKey
  with_reducible repeat' first
    | assumption
    | decide
    | apply Frame.refl
    | apply Frame.via (raise_frame ..)

theorem extendMr_frame (n : Nat) (v : List Byte) (s : State) :
    Frame [.key] s (extendMr n v s) := by
  unfold extendMr
  with_reducible repeat' first
    | assumption
    | decide
    | apply Frame.refl
    | apply Frame.ite
    | split
    | apply Frame.set_key

theorem issueNonce_frame (s : State) :
    Frame [.sys, .free] s (issueNonce s).1 := by
  unfold issueNonce
  with_reducible repeat' first
    | assumption
    | decide
    | apply Frame.refl
    | (lift_lets; intro x; apply Frame.cut x ?_ (fun _ => ?_); subst x; rotate_left; clear_value x; rotate_right)
    | (lift_lets; intro x; apply Frame.cut x.1 ?_ (fun _ => ?_); subst x; rotate_left; clear_value x; rotate_right)
    | (lift_lets; intro x; clear_value x)
    | apply Frame.via (State.draw_frame ..)
    | apply Frame.ite
    | apply Frame.ite1
    | split
    | apply Frame.set_sys

theorem useNonce_frame (id : Nat) (s : State) :
    Frame [.sys] s (useNonce id s) := by
  unfold useNonce
  with_reducible repeat' first
    | assumption
    | decide
    | apply Frame.refl
    | apply Frame.ite
    | split
    | apply Frame.set_sys

theorem State.modCopy_frame (s : State) (cls : Nat) (b : Bool) (f : ImageCopy → ImageCopy) :
    Frame [.upd] s (State.modCopy s cls b f) := by
  unfold State.modCopy
  with_reducible repeat' first
    | assumption
    | decide
    | apply Frame.refl
    | apply Frame.ite
    | split
    | apply Frame.set_upd

theorem raiseMinimum_frame (s : State) (cls : Nat) :
    Frame [.mbx, .log, .vz, .upd] s (raiseMinimum s cls) := by
  unfold raiseMinimum
  with_reducible repeat' first
    | assumption
    | decide
    | apply Frame.refl
    | (lift_lets; intro x; apply Frame.cut x ?_ (fun _ => ?_); subst x; rotate_left; clear_value x; rotate_right)
    | (lift_lets; intro x; apply Frame.cut x.1 ?_ (fun _ => ?_); subst x; rotate_left; clear_value x; rotate_right)
    | (lift_lets; intro x; clear_value x)
    | apply Frame.via (raiseKey_frame ..)
    | apply Frame.ite
    | split
    | apply Frame.set_upd

theorem updReachedRun_frame (s : State) :
    Frame [.mbx, .log, .vz, .ring, .upd] s (updReachedRun s) := by
  unfold updReachedRun
  with_reducible repeat' first
    | assumption
    | decide
    | apply Frame.refl
    | (lift_lets; intro x; apply Frame.cut x ?_ (fun _ => ?_); subst x; rotate_left; clear_value x; rotate_right)
    | (lift_lets; intro x; apply Frame.cut x.1 ?_ (fun _ => ?_); subst x; rotate_left; clear_value x; rotate_right)
    | (lift_lets; intro x; clear_value x)
    | apply Frame.via (raiseMinimum_frame ..)
    | apply Frame.ite
    | apply Frame.foldl
    | apply Frame.foldl1
    | intro _
    | split
    | apply Frame.set_upd
    | apply Frame.set_ring

end Sys2Proof.Machine

end
end

