-- ==== Sys2Proof/Laws/Frames/Channels.lean ====
section
/-! SUPPORT. The frame of each function of `Machine/Channels.lean`: the parts of the state it may change. -/

section

set_option Elab.async false

namespace Sys2Proof.Machine

theorem endTest_frame (i : Nat) (status : U16) (pass : Bool) (value : U32) (s : State) :
    Frame [.mbx, .log, .vz, .ch] s (endTest i status pass value s) := by
  unfold endTest
  with_reducible repeat' first
    | assumption
    | decide
    | apply Frame.refl
    | (lift_lets; intro x; apply Frame.cut x ?_ (fun _ => ?_); subst x; rotate_left; clear_value x; rotate_right)
    | (lift_lets; intro x; apply Frame.cut x.1 ?_ (fun _ => ?_); subst x; rotate_left; clear_value x; rotate_right)
    | (lift_lets; intro x; clear_value x)
    | apply Frame.via (State.modChan_frame ..)
    | apply Frame.via (complete_frame ..)
    | apply Frame.via (raiseCh_frame ..)
    | apply Frame.ite
    | split

theorem losePos_frame (b : Nat) (s : State) :
    Frame [.mbx, .log, .vz, .ch] s (losePos b s) := by
  unfold losePos
  with_reducible repeat' first
    | assumption
    | decide
    | apply Frame.refl
    | (lift_lets; intro x; apply Frame.cut x ?_ (fun _ => ?_); subst x; rotate_left; clear_value x; rotate_right)
    | (lift_lets; intro x; apply Frame.cut x.1 ?_ (fun _ => ?_); subst x; rotate_left; clear_value x; rotate_right)
    | (lift_lets; intro x; clear_value x)
    | apply Frame.via (State.modBridge_frame ..)
    | apply Frame.via (State.modChan_frame ..)
    | apply Frame.via (raiseCh_frame ..)
    | apply Frame.ite

theorem assignProfile_frame (i id : Nat) (p : Profile) (s : State) :
    Frame [.mbx, .log, .vz, .ch] s (assignProfile i id p s) := by
  unfold assignProfile
  with_reducible repeat' first
    | assumption
    | decide
    | apply Frame.refl
    | (lift_lets; intro x; apply Frame.cut x ?_ (fun _ => ?_); subst x; rotate_left; clear_value x; rotate_right)
    | (lift_lets; intro x; apply Frame.cut x.1 ?_ (fun _ => ?_); subst x; rotate_left; clear_value x; rotate_right)
    | (lift_lets; intro x; clear_value x)
    | apply Frame.via (State.modChan_frame ..)
    | apply Frame.via (State.modValve_frame ..)
    | apply Frame.via (losePos_frame ..)
    | apply Frame.ite
    | split
    | dsimp only

theorem execLswCmdWrite_frame (v : Fin 256) (ch : Fin 112) (value : U32) (s : State) :
    Framed [.mbx, .log, .vz, .ch, .bus] s (execLswCmdWrite v ch value s) := by
  unfold execLswCmdWrite
  with_reducible repeat' first
    | apply Framed.next
    | assumption
    | decide
    | apply Frame.refl
    | apply Frame.via (doorbell_frame ..)
    | apply Frame.via (windowFault_frame ..)
    | apply Frame.ite

theorem execHbrCmdWrite_frame (v : Fin 256) (br : Fin 8) (value : U32) (s : State) :
    Framed [.mbx, .log, .vz, .ch, .bus] s (execHbrCmdWrite v br value s) := by
  unfold execHbrCmdWrite
  with_reducible repeat' first
    | apply Framed.next
    | assumption
    | decide
    | apply Frame.refl
    | apply Frame.via (doorbell_frame ..)

theorem execVlvCmdWrite_frame (v : Fin 256) (vlv : Fin 16) (value : U32) (s : State) :
    Framed [.mbx, .log, .vz, .ch, .bus] s (execVlvCmdWrite v vlv value s) := by
  unfold execVlvCmdWrite
  with_reducible repeat' first
    | apply Framed.next
    | assumption
    | decide
    | apply Frame.refl
    | apply Frame.via (doorbell_frame ..)

theorem readStampLo_frame (v i : Nat) (s : State) :
    Frame [.mbx, .log, .vz, .ch, .bus] s (readStampLo v i s) := by
  unfold readStampLo
  with_reducible repeat' first
    | assumption
    | decide
    | apply Frame.refl
    | (lift_lets; intro x; apply Frame.cut x ?_ (fun _ => ?_); subst x; rotate_left; clear_value x; rotate_right)
    | (lift_lets; intro x; apply Frame.cut x.1 ?_ (fun _ => ?_); subst x; rotate_left; clear_value x; rotate_right)
    | (lift_lets; intro x; clear_value x)
    | apply Frame.via (State.modChan_frame ..)
    | apply Frame.via (windowFault_frame ..)
    | apply Frame.ite
    | split
    | apply Frame.set_bus

theorem execLswChStampLoRead_frame (v : Fin 256) (ch : Fin 112) (s : State) :
    Framed [.mbx, .log, .vz, .ch, .bus] s (execLswChStampLoRead v ch s) := by
  unfold execLswChStampLoRead
  with_reducible repeat' first
    | apply Framed.next
    | assumption
    | decide
    | apply Frame.refl
    | apply Frame.via (readStampLo_frame ..)

theorem readPeak_frame (v i : Nat) (s : State) :
    Frame [.mbx, .log, .vz, .ch, .bus] s (readPeak v i s) := by
  unfold readPeak
  with_reducible repeat' first
    | assumption
    | decide
    | apply Frame.refl
    | (lift_lets; intro x; apply Frame.cut x ?_ (fun _ => ?_); subst x; rotate_left; clear_value x; rotate_right)
    | (lift_lets; intro x; apply Frame.cut x.1 ?_ (fun _ => ?_); subst x; rotate_left; clear_value x; rotate_right)
    | (lift_lets; intro x; clear_value x)
    | apply Frame.via (State.modChan_frame ..)
    | apply Frame.via (windowFault_frame ..)
    | apply Frame.ite
    | split
    | apply Frame.set_bus

theorem execLswChPeakRead_frame (v : Fin 256) (ch : Fin 112) (s : State) :
    Framed [.mbx, .log, .vz, .ch, .bus] s (execLswChPeakRead v ch s) := by
  unfold execLswChPeakRead
  with_reducible repeat' first
    | apply Framed.next
    | assumption
    | decide
    | apply Frame.refl
    | apply Frame.via (readPeak_frame ..)

theorem mailboxSw_frame (r : Req) (i : Nat) (o : OutCmd) (prio : Nat) (target : Option U32) (word : U32) (reg : Option U32) (s : State) :
    Frame [.mbx, .log, .vz, .ch] s (mailboxSw r i o prio target word reg s) := by
  unfold mailboxSw
  with_reducible repeat' first
    | assumption
    | decide
    | apply Frame.refl
    | (lift_lets; intro x; apply Frame.cut x ?_ (fun _ => ?_); subst x; rotate_left; clear_value x; rotate_right)
    | (lift_lets; intro x; apply Frame.cut x.1 ?_ (fun _ => ?_); subst x; rotate_left; clear_value x; rotate_right)
    | (lift_lets; intro x; clear_value x)
    | apply Frame.via (State.modChan_frame ..)
    | apply Frame.via (enterSw_frame ..)

theorem chSetBody_frame (r : Req) (i mode prio duty phase : Nat) (s : State) :
    Frame [.mbx, .log, .vz, .ch] s (chSetBody r i mode prio duty phase s).1 := by
  unfold chSetBody
  with_reducible repeat' first
    | assumption
    | decide
    | apply Frame.refl
    | (lift_lets; intro x; apply Frame.cut x ?_ (fun _ => ?_); subst x; rotate_left; clear_value x; rotate_right)
    | (lift_lets; intro x; apply Frame.cut x.1 ?_ (fun _ => ?_); subst x; rotate_left; clear_value x; rotate_right)
    | (lift_lets; intro x; clear_value x)
    | apply Frame.via (mailboxSw_frame ..)
    | apply Frame.ite
    | apply Frame.ite1

theorem execChSet_frame (r : Req) (ch : U16) (mode prio : Byte) (duty : U16) (phase : Byte) (s : State) :
    Framed [.mbx, .log, .vz, .ch] s (execChSet r ch mode prio duty phase s) := by
  unfold execChSet
  with_reducible repeat' first
    | apply Framed.next
    | assumption
    | decide
    | apply Frame.refl
    | apply Frame.via (chSetBody_frame ..)
    | apply runCmd_frame
    | apply Frame.ite
    | intro _

theorem execChGetStatus_frame (r : Req) (ch : U16) (s : State) :
    Framed [.mbx, .vz] s (execChGetStatus r ch s) := by
  unfold execChGetStatus
  with_reducible repeat' first
    | apply Framed.next
    | assumption
    | decide
    | apply Frame.refl
    | apply runCmd_frame
    | apply Frame.ite
    | intro _

theorem setProfileBody_frame (i id : Nat) (s : State) :
    Frame [.mbx, .log, .vz, .ch] s (setProfileBody i id s).1 := by
  unfold setProfileBody
  with_reducible repeat' first
    | assumption
    | decide
    | apply Frame.refl
    | (lift_lets; intro x; apply Frame.cut x ?_ (fun _ => ?_); subst x; rotate_left; clear_value x; rotate_right)
    | (lift_lets; intro x; apply Frame.cut x.1 ?_ (fun _ => ?_); subst x; rotate_left; clear_value x; rotate_right)
    | (lift_lets; intro x; clear_value x)
    | apply Frame.via (assignProfile_frame ..)
    | apply Frame.ite
    | apply Frame.ite1
    | split

theorem execChSetProfile_frame (r : Req) (ch : U16) (id : Byte) (s : State) :
    Framed [.mbx, .log, .vz, .ch] s (execChSetProfile r ch id s) := by
  unfold execChSetProfile
  with_reducible repeat' first
    | apply Framed.next
    | assumption
    | decide
    | apply Frame.refl
    | apply runCmd_frame
    | apply Frame.via (setProfileBody_frame ..)
    | apply Frame.ite
    | intro _

theorem execChGetProfile_frame (r : Req) (ch : U16) (s : State) :
    Framed [.mbx, .vz] s (execChGetProfile r ch s) := by
  unfold execChGetProfile
  with_reducible repeat' first
    | apply Framed.next
    | assumption
    | decide
    | apply Frame.refl
    | (lift_lets; intro x; apply Frame.cut x ?_ (fun _ => ?_); subst x; rotate_left; clear_value x; rotate_right)
    | (lift_lets; intro x; apply Frame.cut x.1 ?_ (fun _ => ?_); subst x; rotate_left; clear_value x; rotate_right)
    | (lift_lets; intro x; clear_value x)
    | apply runCmd_frame
    | apply Frame.ite
    | intro _

theorem unlockBody_frame (i sel : Nat) (s : State) :
    Frame [.mbx, .log, .vz, .ch] s (unlockBody i sel s).1 := by
  unfold unlockBody
  with_reducible repeat' first
    | assumption
    | decide
    | apply Frame.refl
    | (lift_lets; intro x; apply Frame.cut x ?_ (fun _ => ?_); subst x; rotate_left; clear_value x; rotate_right)
    | (lift_lets; intro x; apply Frame.cut x.1 ?_ (fun _ => ?_); subst x; rotate_left; clear_value x; rotate_right)
    | (lift_lets; intro x; clear_value x)
    | apply Frame.via (State.modChan_frame ..)
    | apply Frame.via (raiseCh_frame ..)
    | apply Frame.ite
    | apply Frame.ite1

theorem execChUnlock_frame (r : Req) (ch : U16) (selector : Byte) (s : State) :
    Framed [.mbx, .log, .vz, .ch] s (execChUnlock r ch selector s) := by
  unfold execChUnlock
  with_reducible repeat' first
    | apply Framed.next
    | assumption
    | decide
    | apply Frame.refl
    | apply runCmd_frame
    | apply Frame.via (unlockBody_frame ..)
    | apply Frame.ite
    | intro _

theorem clearFaultBody_frame (i : Nat) (s : State) :
    Frame [.ch] s (clearFaultBody i s).1 := by
  unfold clearFaultBody
  with_reducible repeat' first
    | assumption
    | decide
    | apply Frame.refl
    | (lift_lets; intro x; apply Frame.cut x ?_ (fun _ => ?_); subst x; rotate_left; clear_value x; rotate_right)
    | (lift_lets; intro x; apply Frame.cut x.1 ?_ (fun _ => ?_); subst x; rotate_left; clear_value x; rotate_right)
    | (lift_lets; intro x; clear_value x)
    | apply Frame.via (State.modChan_frame ..)
    | apply Frame.ite
    | apply Frame.ite1

theorem execChClearFault_frame (r : Req) (ch : U16) (s : State) :
    Framed [.mbx, .vz, .ch] s (execChClearFault r ch s) := by
  unfold execChClearFault
  with_reducible repeat' first
    | apply Framed.next
    | assumption
    | decide
    | apply Frame.refl
    | apply Frame.via (clearFaultBody_frame ..)
    | apply runCmd_frame
    | apply Frame.ite
    | intro _

theorem execChSetHold_frame (r : Req) (ch : U16) (setting : Byte) (tHold : U16) (s : State) :
    Framed [.mbx, .vz, .ch] s (execChSetHold r ch setting tHold s) := by
  unfold execChSetHold
  with_reducible repeat' first
    | apply Framed.next
    | assumption
    | decide
    | apply Frame.refl
    | apply Frame.via (State.modChan_frame ..)
    | apply runCmd_frame
    | apply Frame.ite
    | intro _

theorem execChSetKeepalive_frame (r : Req) (set : List KeepEntry) (s : State) :
    Framed [.mbx, .vz, .ch] s (execChSetKeepalive r set s) := by
  unfold execChSetKeepalive
  with_reducible repeat' first
    | apply Framed.next
    | assumption
    | decide
    | apply Frame.refl
    | apply runCmd_frame
    | apply Frame.ite
    | intro _
    | split
    | apply Frame.set_ch

theorem execChSnsSelect_frame (r : Req) (ch : U16) (s : State) :
    Framed [.mbx, .vz, .ch] s (execChSnsSelect r ch s) := by
  unfold execChSnsSelect
  with_reducible repeat' first
    | apply Framed.next
    | assumption
    | decide
    | apply Frame.refl
    | apply runCmd_frame
    | apply Frame.ite
    | intro _
    | split
    | apply Frame.set_ch

theorem testBody_frame (r : Req) (i test duration : Nat) (s : State) :
    Frame [.ch] s (testBody r i test duration s).1 := by
  unfold testBody
  with_reducible repeat' first
    | assumption
    | decide
    | apply Frame.refl
    | (lift_lets; intro x; apply Frame.cut x ?_ (fun _ => ?_); subst x; rotate_left; clear_value x; rotate_right)
    | (lift_lets; intro x; apply Frame.cut x.1 ?_ (fun _ => ?_); subst x; rotate_left; clear_value x; rotate_right)
    | (lift_lets; intro x; clear_value x)
    | apply Frame.via (State.modChan_frame ..)
    | apply Frame.ite
    | apply Frame.ite1

theorem execChTest_frame (r : Req) (ch : U16) (test : Byte) (duration : U16) (s : State) :
    Framed [.mbx, .vz, .ch] s (execChTest r ch test duration s) := by
  unfold execChTest
  with_reducible repeat' first
    | apply Framed.next
    | assumption
    | decide
    | apply Frame.refl
    | apply runCmd_frame
    | apply Frame.via (testBody_frame ..)
    | apply Frame.ite
    | intro _

theorem execChTestEnd_frame (ch : Fin 112) (pass : Bool) (value : U32) (s : State) :
    Framed [.mbx, .log, .vz, .ch] s (execChTestEnd ch pass value s) := by
  unfold execChTestEnd
  with_reducible repeat' first
    | apply Framed.next
    | assumption
    | decide
    | apply Frame.refl
    | apply Frame.via (endTest_frame ..)

theorem execChGetLedger_frame (r : Req) (ch : U16) (s : State) :
    Framed [.mbx, .vz] s (execChGetLedger r ch s) := by
  unfold execChGetLedger
  with_reducible repeat' first
    | apply Framed.next
    | assumption
    | decide
    | apply Frame.refl
    | (lift_lets; intro x; apply Frame.cut x ?_ (fun _ => ?_); subst x; rotate_left; clear_value x; rotate_right)
    | (lift_lets; intro x; apply Frame.cut x.1 ?_ (fun _ => ?_); subst x; rotate_left; clear_value x; rotate_right)
    | (lift_lets; intro x; clear_value x)
    | apply runCmd_frame
    | apply Frame.ite
    | intro _

theorem hbConfigBody_frame (i : Nat) (f : HbFields) (s : State) :
    Frame [.mbx, .log, .vz, .ch] s (hbConfigBody i f s).1 := by
  unfold hbConfigBody
  with_reducible repeat' first
    | assumption
    | decide
    | apply Frame.refl
    | (lift_lets; intro x; apply Frame.cut x ?_ (fun _ => ?_); subst x; rotate_left; clear_value x; rotate_right)
    | (lift_lets; intro x; apply Frame.cut x.1 ?_ (fun _ => ?_); subst x; rotate_left; clear_value x; rotate_right)
    | (lift_lets; intro x; clear_value x)
    | apply Frame.via (State.modChan_frame ..)
    | apply Frame.via (losePos_frame ..)
    | apply Frame.ite
    | apply Frame.ite1

theorem execChHbConfig_frame (r : Req) (ch : U16) (f : HbFields) (s : State) :
    Framed [.mbx, .log, .vz, .ch] s (execChHbConfig r ch f s) := by
  unfold execChHbConfig
  with_reducible repeat' first
    | apply Framed.next
    | assumption
    | decide
    | apply Frame.refl
    | apply Frame.via (hbConfigBody_frame ..)
    | apply runCmd_frame
    | apply Frame.ite
    | intro _

theorem hbDriveBody_frame (r : Req) (i drive prio duty phase : Nat) (tgt : Bool) (target : U32) (s : State) :
    Frame [.mbx, .log, .vz, .ch] s (hbDriveBody r i drive prio duty phase tgt target s).1 := by
  unfold hbDriveBody
  with_reducible repeat' first
    | assumption
    | decide
    | apply Frame.refl
    | (lift_lets; intro x; apply Frame.cut x ?_ (fun _ => ?_); subst x; rotate_left; clear_value x; rotate_right)
    | (lift_lets; intro x; apply Frame.cut x.1 ?_ (fun _ => ?_); subst x; rotate_left; clear_value x; rotate_right)
    | (lift_lets; intro x; clear_value x)
    | apply Frame.via (mailboxSw_frame ..)
    | apply Frame.ite
    | apply Frame.ite1

theorem execChHbDrive_frame (r : Req) (ch : U16) (drive prio : Byte) (duty : U16) (phase flags : Byte) (target : U32) (s : State) :
    Framed [.mbx, .log, .vz, .ch] s (execChHbDrive r ch drive prio duty phase flags target s) := by
  unfold execChHbDrive
  with_reducible repeat' first
    | apply Framed.next
    | assumption
    | decide
    | apply Frame.refl
    | apply Frame.via (hbDriveBody_frame ..)
    | apply runCmd_frame
    | apply Frame.ite
    | intro _

theorem hbPositionBody_frame (i : Nat) (op : Byte) (value : U32) (s : State) :
    Frame [.ch] s (hbPositionBody i op value s).1 := by
  unfold hbPositionBody
  with_reducible repeat' first
    | assumption
    | decide
    | apply Frame.refl
    | (lift_lets; intro x; apply Frame.cut x ?_ (fun _ => ?_); subst x; rotate_left; clear_value x; rotate_right)
    | (lift_lets; intro x; apply Frame.cut x.1 ?_ (fun _ => ?_); subst x; rotate_left; clear_value x; rotate_right)
    | (lift_lets; intro x; clear_value x)
    | apply Frame.via (State.modBridge_frame ..)
    | apply Frame.ite
    | apply Frame.ite1

theorem execChHbPosition_frame (r : Req) (ch : U16) (op : Byte) (value : U32) (s : State) :
    Framed [.mbx, .vz, .ch] s (execChHbPosition r ch op value s) := by
  unfold execChHbPosition
  with_reducible repeat' first
    | apply Framed.next
    | assumption
    | decide
    | apply Frame.refl
    | apply Frame.via (hbPositionBody_frame ..)
    | apply runCmd_frame
    | apply Frame.ite
    | intro _

theorem vlvConfigBody_frame (i : Nat) (flags : Byte) (amp freq bw : U16) (s : State) :
    Frame [.ch] s (vlvConfigBody i flags amp freq bw s).1 := by
  unfold vlvConfigBody
  with_reducible repeat' first
    | assumption
    | decide
    | apply Frame.refl
    | (lift_lets; intro x; apply Frame.cut x ?_ (fun _ => ?_); subst x; rotate_left; clear_value x; rotate_right)
    | (lift_lets; intro x; apply Frame.cut x.1 ?_ (fun _ => ?_); subst x; rotate_left; clear_value x; rotate_right)
    | (lift_lets; intro x; clear_value x)
    | apply Frame.via (State.modChan_frame ..)
    | apply Frame.via (State.modValve_frame ..)
    | apply Frame.ite
    | apply Frame.ite1

theorem execChVlvConfig_frame (r : Req) (ch : U16) (flags : Byte) (amp freq bw : U16) (s : State) :
    Framed [.mbx, .vz, .ch] s (execChVlvConfig r ch flags amp freq bw s) := by
  unfold execChVlvConfig
  with_reducible repeat' first
    | apply Framed.next
    | assumption
    | decide
    | apply Frame.refl
    | apply runCmd_frame
    | apply Frame.via (vlvConfigBody_frame ..)
    | apply Frame.ite
    | intro _

theorem vlvSetBody_frame (r : Req) (i prio : Nat) (en : Bool) (ma : Nat) (s : State) :
    Frame [.mbx, .log, .vz, .ch] s (vlvSetBody r i prio en ma s).1 := by
  unfold vlvSetBody
  with_reducible repeat' first
    | assumption
    | decide
    | apply Frame.refl
    | (lift_lets; intro x; apply Frame.cut x ?_ (fun _ => ?_); subst x; rotate_left; clear_value x; rotate_right)
    | (lift_lets; intro x; apply Frame.cut x.1 ?_ (fun _ => ?_); subst x; rotate_left; clear_value x; rotate_right)
    | (lift_lets; intro x; clear_value x)
    | apply Frame.via (mailboxSw_frame ..)
    | apply Frame.ite
    | apply Frame.ite1

theorem execChVlvSet_frame (r : Req) (ch : U16) (prio enable : Byte) (ma : U16) (s : State) :
    Framed [.mbx, .log, .vz, .ch] s (execChVlvSet r ch prio enable ma s) := by
  unfold execChVlvSet
  with_reducible repeat' first
    | apply Framed.next
    | assumption
    | decide
    | apply Frame.refl
    | apply runCmd_frame
    | apply Frame.via (vlvSetBody_frame ..)
    | apply Frame.ite
    | intro _

theorem execChVlvStatus_frame (r : Req) (ch : U16) (s : State) :
    Framed [.mbx, .vz] s (execChVlvStatus r ch s) := by
  unfold execChVlvStatus
  with_reducible repeat' first
    | apply Framed.next
    | assumption
    | decide
    | apply Frame.refl
    | (lift_lets; intro x; apply Frame.cut x ?_ (fun _ => ?_); subst x; rotate_left; clear_value x; rotate_right)
    | (lift_lets; intro x; apply Frame.cut x.1 ?_ (fun _ => ?_); subst x; rotate_left; clear_value x; rotate_right)
    | (lift_lets; intro x; clear_value x)
    | apply runCmd_frame
    | apply Frame.ite
    | intro _

end Sys2Proof.Machine

end
end

