-- ==== Sys2Proof/Laws/Frames/Xio.lean ====
section
/-! SUPPORT. The frame of each function of `Machine/Xio.lean`: the parts of the state it may change. -/

section

set_option Elab.async false

namespace Sys2Proof.Machine

theorem State.modX_frame (s : State) (k : Nat) (g : XChan → XChan) :
    Frame [.fio] s (State.modX s k g) := by
  unfold State.modX
  with_reducible repeat' first
    | assumption
    | decide
    | apply Frame.refl
    | apply Frame.ite
    | split
    | apply Frame.set_fio

theorem xSend_frame (s : State) :
    Frame [.fio] s (xSend s) := by
  unfold xSend
  with_reducible repeat' first
    | assumption
    | decide
    | apply Frame.refl
    | apply Frame.via (State.modX_frame ..)
    | apply Frame.ite
    | apply Frame.foldl
    | apply Frame.foldl1
    | intro _

theorem State.modBank_frame (s : State) (g : XBank → XBank) :
    Frame [.fio] s (State.modBank s g) := by
  unfold State.modBank
  with_reducible repeat' first
    | assumption
    | decide
    | apply Frame.refl
    | apply Frame.ite
    | split
    | apply Frame.set_fio

theorem xSafeAll_frame (s : State) :
    Frame [.fio] s (xSafeAll s) := by
  unfold xSafeAll
  with_reducible repeat' first
    | assumption
    | decide
    | apply Frame.refl
    | apply Frame.via (State.modX_frame ..)
    | apply Frame.ite
    | apply Frame.foldl
    | apply Frame.foldl1
    | intro _

end Sys2Proof.Machine

end
end

