-- ==== Sys2Proof/Laws/Frames/Modes.lean ====
section
/-! SUPPORT. The frame of each function of `Machine/Modes.lean`: the parts of the state it may change. -/

section

set_option Elab.async false

namespace Sys2Proof.Machine

theorem closeSession_frame (s : State) :
    Frame [.cfg] s (closeSession s) := by
  unfold closeSession
  with_reducible repeat' first
    | assumption
    | decide
    | apply Frame.refl
    | apply Frame.ite
    | split
    | apply Frame.set_cfg

theorem abortTests_frame (s : State) :
    Frame [.mbx, .log, .vz, .ch, .brg] s (abortTests s) := by
  unfold abortTests
  with_reducible repeat' first
    | assumption
    | decide
    | apply Frame.refl
    | apply Frame.via (endHandoverTest_frame ..)
    | apply Frame.via (endTest_frame ..)
    | apply Frame.ite
    | apply Frame.foldl
    | apply Frame.foldl1
    | intro _

theorem disarmChannels_frame (s : State) :
    Frame [.tb] s (disarmChannels s) := by
  unfold disarmChannels
  with_reducible repeat' first
    | assumption
    | decide
    | apply Frame.refl
    | apply Frame.ite
    | split
    | apply Frame.set_tb

theorem arrestOutputs_frame (source : Nat) (detail : List Byte) (s : State) :
    Frame [.mbx, .log, .tb, .vz, .ch, .rfx, .twin, .brg, .fio] s (arrestOutputs source detail s) := by
  unfold arrestOutputs
  with_reducible repeat' first
    | assumption
    | decide
    | apply Frame.refl
    | (lift_lets; intro x; apply Frame.cut x ?_ (fun _ => ?_); subst x; rotate_left; clear_value x; rotate_right)
    | (lift_lets; intro x; apply Frame.cut x.1 ?_ (fun _ => ?_); subst x; rotate_left; clear_value x; rotate_right)
    | (lift_lets; intro x; clear_value x)
    | apply Frame.via (abortTests_frame ..)
    | apply Frame.via (brgSafeAction_frame ..)
    | apply Frame.via (disarmChannels_frame ..)
    | apply Frame.via (raise_frame ..)
    | apply Frame.via (twinRelease_frame ..)
    | apply Frame.via (urgent_frame ..)
    | apply Frame.via (xSend_frame ..)
    | apply Frame.ite
    | split
    | apply Frame.set_rfx

theorem arrestOnly_frame (source : Nat) (detail : List Byte) (s : State) :
    Frame [.mbx, .log, .tb, .vz, .ch, .rfx, .twin, .brg, .fio] s (arrestOnly source detail s) := by
  unfold arrestOnly
  with_reducible repeat' first
    | assumption
    | decide
    | apply Frame.refl
    | apply Frame.via (arrestOutputs_frame ..)
    | apply Frame.via (raise_frame ..)
    | apply Frame.ite

theorem setMode_frame (new : Mode) (trigger : Nat) (s : State) :
    Frame [.sys, .mbx, .log, .vz, .cfg, .ch, .brg, .upd] s (setMode new trigger s) := by
  unfold setMode
  with_reducible repeat' first
    | assumption
    | decide
    | apply Frame.refl
    | (lift_lets; intro x; apply Frame.cut x ?_ (fun _ => ?_); subst x; rotate_left; clear_value x; rotate_right)
    | (lift_lets; intro x; apply Frame.cut x.1 ?_ (fun _ => ?_); subst x; rotate_left; clear_value x; rotate_right)
    | (lift_lets; intro x; clear_value x)
    | apply Frame.via (abortTests_frame ..)
    | apply Frame.via (cancelKeep_frame ..)
    | apply Frame.via (closeSession_frame ..)
    | apply Frame.via (raise_frame ..)
    | apply Frame.via (updDiscardOpen_frame ..)
    | apply Frame.ite
    | split
    | apply Frame.set_sys

theorem applyHeld_frame (s : State) :
    Frame [.ch, .fio] s (applyHeld s) := by
  unfold applyHeld
  with_reducible repeat' first
    | assumption
    | decide
    | apply Frame.refl
    | (lift_lets; intro x; apply Frame.cut x ?_ (fun _ => ?_); subst x; rotate_left; clear_value x; rotate_right)
    | (lift_lets; intro x; apply Frame.cut x.1 ?_ (fun _ => ?_); subst x; rotate_left; clear_value x; rotate_right)
    | (lift_lets; intro x; clear_value x)
    | apply Frame.via (putSw_frame ..)
    | apply Frame.ite
    | apply Frame.foldl
    | apply Frame.foldl1
    | intro _
    | split
    | apply Frame.set_fio

theorem pushAll_frame (s : State) :
    Frame [.mbx, .log, .vz, .ch, .fio] s (pushAll s) := by
  unfold pushAll
  with_reducible repeat' first
    | assumption
    | decide
    | apply Frame.refl
    | apply Frame.via (allFrames_frame ..)
    | apply Frame.via (xSend_frame ..)

theorem limpEntry_frame (trigger : Nat) (s : State) :
    Frame [.sys, .mbx, .log, .vz, .cfg, .ch, .rfx, .twin, .brg, .fio, .upd] s (limpEntry trigger s) := by
  unfold limpEntry
  with_reducible repeat' first
    | assumption
    | decide
    | apply Frame.refl
    | (lift_lets; intro x; apply Frame.cut x ?_ (fun _ => ?_); subst x; rotate_left; clear_value x; rotate_right)
    | (lift_lets; intro x; apply Frame.cut x.1 ?_ (fun _ => ?_); subst x; rotate_left; clear_value x; rotate_right)
    | (lift_lets; intro x; clear_value x)
    | apply Frame.via (applyHeld_frame ..)
    | apply Frame.via (pushAll_frame ..)
    | apply Frame.via (setMode_frame ..)
    | apply Frame.via (twinRelease_frame ..)
    | apply Frame.ite
    | split
    | apply Frame.set_sys_rfx

theorem firstArrest_frame (source : Nat) (detail : List Byte) (s : State) :
    Frame [.sys, .mbx, .log, .tb, .vz, .cfg, .ch, .rfx, .twin, .brg, .fio, .upd] s (firstArrest source detail s) := by
  unfold firstArrest
  with_reducible repeat' first
    | assumption
    | decide
    | apply Frame.refl
    | (lift_lets; intro x; apply Frame.cut x ?_ (fun _ => ?_); subst x; rotate_left; clear_value x; rotate_right)
    | (lift_lets; intro x; apply Frame.cut x.1 ?_ (fun _ => ?_); subst x; rotate_left; clear_value x; rotate_right)
    | (lift_lets; intro x; clear_value x)
    | apply Frame.via (arrestOutputs_frame ..)
    | apply Frame.via (limpEntry_frame ..)
    | apply Frame.ite

theorem selfArrest_frame (source : Nat) (detail : List Byte) (s : State) :
    Frame [.sys, .mbx, .log, .tb, .vz, .cfg, .ch, .rfx, .twin, .brg, .fio, .upd] s (selfArrest source detail s) := by
  unfold selfArrest
  with_reducible repeat' first
    | assumption
    | decide
    | apply Frame.refl
    | apply Frame.via (firstArrest_frame ..)
    | apply Frame.via (raise_frame ..)
    | apply Frame.ite

theorem runEntry_frame (s : State) :
    Frame [.sys, .mbx, .log, .vz, .cfg, .ch, .twin, .brg, .fio, .ring, .upd] s (runEntry s) := by
  unfold runEntry
  with_reducible repeat' first
    | assumption
    | decide
    | apply Frame.refl
    | (lift_lets; intro x; apply Frame.cut x ?_ (fun _ => ?_); subst x; rotate_left; clear_value x; rotate_right)
    | (lift_lets; intro x; apply Frame.cut x.1 ?_ (fun _ => ?_); subst x; rotate_left; clear_value x; rotate_right)
    | (lift_lets; intro x; clear_value x)
    | apply Frame.via (applyHeld_frame ..)
    | apply Frame.via (pushAll_frame ..)
    | apply Frame.via (setMode_frame ..)
    | apply Frame.via (setRole_frame ..)
    | apply Frame.via (twinCheck_frame ..)
    | apply Frame.via (updReachedRun_frame ..)
    | apply Frame.ite

end Sys2Proof.Machine

end
end

