-- ==== Sys2Proof/Laws/Frames/Restart.lean ====
section
/-! SUPPORT. The frame of each function of `Machine/Restart.lean`: the parts of the state it may change. -/

section

set_option Elab.async false

namespace Sys2Proof.Machine

theorem logicStop_frame (s : State) :
    Frame [.sys, .mbx, .tb, .vz, .saf, .cfg, .ch, .rfx, .twin, .brg, .fio, .ring, .esw, .net, .sig, .upd, .uds] s (logicStop s) := by
  unfold logicStop
  with_reducible repeat' first
    | assumption
    | decide
    | apply Frame.refl
    | (lift_lets; intro x; apply Frame.cut x ?_ (fun _ => ?_); subst x; rotate_left; clear_value x; rotate_right)
    | (lift_lets; intro x; apply Frame.cut x.1 ?_ (fun _ => ?_); subst x; rotate_left; clear_value x; rotate_right)
    | (lift_lets; intro x; clear_value x)
    | apply Frame.via (closeSession_frame ..)
    | apply Frame.via (eswStop_frame ..)
    | apply Frame.via (ringStop_frame ..)
    | apply Frame.via (updDiscardOpen_frame ..)
    | apply Frame.ite
    | split
    | apply Frame.set_sys_mbx_tb_vz_saf_cfg_ch_rfx_twin_brg_fio_net_sig_upd_uds

theorem restart_frame (trigger : Nat) (s : State) :
    Frame [.sys, .mbx, .log, .tb, .vz, .saf, .cfg, .ch, .rfx, .twin, .brg, .fio, .ring, .esw, .net, .sig, .upd, .uds] s (restart trigger s) := by
  unfold restart
  with_reducible repeat' first
    | assumption
    | decide
    | apply Frame.refl
    | (lift_lets; intro x; apply Frame.cut x ?_ (fun _ => ?_); subst x; rotate_left; clear_value x; rotate_right)
    | (lift_lets; intro x; apply Frame.cut x.1 ?_ (fun _ => ?_); subst x; rotate_left; clear_value x; rotate_right)
    | (lift_lets; intro x; clear_value x)
    | apply Frame.via (abortTests_frame ..)
    | apply Frame.via (logicStop_frame ..)
    | apply Frame.ite
    | split
    | apply Frame.set_sys

theorem restartCause_frame (trigger : Nat) (s : State) :
    Frame [.sys, .mbx, .log, .tb, .vz, .saf, .cfg, .ch, .rfx, .twin, .brg, .fio, .ring, .esw, .net, .sig, .upd, .uds] s (restartCause trigger s) := by
  unfold restartCause
  with_reducible repeat' first
    | assumption
    | decide
    | apply Frame.refl
    | apply Frame.via (restart_frame ..)
    | apply Frame.ite
    | split
    | apply Frame.set_sys

theorem clearLoop_frame (s : State) :
    Frame [.sys] s (clearLoop s) := by
  unfold clearLoop
  with_reducible repeat' first
    | assumption
    | decide
    | apply Frame.refl
    | apply Frame.ite
    | split
    | apply Frame.set_sys

theorem leaveRsp_frame (r : Req) (code : U16) (s : State) :
    Frame [.mbx, .vz] s (leaveRsp r code s) := by
  unfold leaveRsp
  with_reducible repeat' first
    | assumption
    | decide
    | apply Frame.refl
    | (lift_lets; intro x; apply Frame.cut x ?_ (fun _ => ?_); subst x; rotate_left; clear_value x; rotate_right)
    | (lift_lets; intro x; apply Frame.cut x.1 ?_ (fun _ => ?_); subst x; rotate_left; clear_value x; rotate_right)
    | (lift_lets; intro x; clear_value x)
    | apply Frame.via (respond_frame ..)
    | apply Frame.ite
    | split
    | apply Frame.set_mbx
    | dsimp only

theorem answerRestart_frame (r : Req) (code : U16) (trigger : Nat) (s : State) :
    Frame [.sys, .mbx, .log, .tb, .vz, .saf, .cfg, .ch, .rfx, .twin, .brg, .fio, .ring, .esw, .net, .sig, .upd, .uds] s (answerRestart r code trigger s) := by
  unfold answerRestart
  with_reducible repeat' first
    | assumption
    | decide
    | apply Frame.refl
    | apply Frame.via (clearLoop_frame ..)
    | apply Frame.via (leaveRsp_frame ..)
    | apply Frame.via (restartCause_frame ..)

end Sys2Proof.Machine

end
end

