-- ==== Sys2Proof/Laws/Frames/Basecamp.lean ====
section
/-! SUPPORT. The frame of each function of `Machine/Basecamp.lean`: the parts of the state it may change. -/

section

set_option Elab.async false

namespace Sys2Proof.Machine

theorem holdsOff_frame (s : State) :
    Frame [.ch] s (holdsOff s) := by
  unfold holdsOff
  with_reducible repeat' first
    | assumption
    | decide
    | apply Frame.refl
    | (lift_lets; intro x; apply Frame.cut x ?_ (fun _ => ?_); subst x; rotate_left; clear_value x; rotate_right)
    | (lift_lets; intro x; apply Frame.cut x.1 ?_ (fun _ => ?_); subst x; rotate_left; clear_value x; rotate_right)
    | (lift_lets; intro x; clear_value x)
    | apply Frame.ite
    | apply Frame.foldl
    | apply Frame.foldl1
    | intro _
    | split
    | apply Frame.set_ch

theorem romService_frame (status : U16) (s : State) :
    Frame [.sys, .mbx, .tb, .vz, .saf, .cfg, .ch, .rfx, .twin, .brg, .fio, .ring, .esw, .net, .sig, .upd, .uds] s (romService status s) := by
  unfold romService
  with_reducible repeat' first
    | assumption
    | decide
    | apply Frame.refl
    | (lift_lets; intro x; apply Frame.cut x ?_ (fun _ => ?_); subst x; rotate_left; clear_value x; rotate_right)
    | (lift_lets; intro x; apply Frame.cut x.1 ?_ (fun _ => ?_); subst x; rotate_left; clear_value x; rotate_right)
    | (lift_lets; intro x; clear_value x)
    | apply Frame.via (logicStop_frame ..)
    | apply Frame.via (openService_frame ..)
    | apply Frame.via (ringBasecamp_frame ..)
    | apply Frame.ite
    | split
    | apply Frame.set_sys_rfx_twin_net

theorem basecampEnter_frame (status : U16) (s : State) :
    Frame [.sys, .mbx, .log, .tb, .vz, .saf, .cfg, .ch, .rfx, .twin, .brg, .fio, .ring, .esw, .net, .sig, .upd, .uds] s (basecampEnter status s) := by
  unfold basecampEnter
  with_reducible repeat' first
    | assumption
    | decide
    | apply Frame.refl
    | (lift_lets; intro x; apply Frame.cut x ?_ (fun _ => ?_); subst x; rotate_left; clear_value x; rotate_right)
    | (lift_lets; intro x; apply Frame.cut x.1 ?_ (fun _ => ?_); subst x; rotate_left; clear_value x; rotate_right)
    | (lift_lets; intro x; clear_value x)
    | apply Frame.via (arrestOnly_frame ..)
    | apply Frame.via (enterStopped_frame ..)
    | apply Frame.via (holdsOff_frame ..)
    | apply Frame.via (romService_frame ..)
    | apply Frame.via (setMode_frame ..)
    | apply Frame.via (twinRelease_frame ..)
    | apply Frame.via (urgent_frame ..)
    | apply Frame.ite
    | split
    | apply Frame.set_sys

theorem integrityArrest_frame (source : Nat) (detail : List Byte) (s : State) :
    Frame [.sys, .mbx, .log, .tb, .vz, .cfg, .ch, .rfx, .twin, .brg, .fio, .upd] s (integrityArrest source detail s) := by
  unfold integrityArrest
  with_reducible repeat' first
    | assumption
    | decide
    | apply Frame.refl
    | (lift_lets; intro x; apply Frame.cut x ?_ (fun _ => ?_); subst x; rotate_left; clear_value x; rotate_right)
    | (lift_lets; intro x; apply Frame.cut x.1 ?_ (fun _ => ?_); subst x; rotate_left; clear_value x; rotate_right)
    | (lift_lets; intro x; clear_value x)
    | apply Frame.via (limpEntry_frame ..)
    | apply Frame.via (selfArrest_frame ..)
    | apply Frame.ite
    | split
    | apply Frame.set_rfx
    | dsimp only

theorem integrityRestart_frame (source : Nat) (detail : List Byte) (event : Option EvKind) (s : State) :
    Frame [.sys, .mbx, .log, .tb, .vz, .saf, .cfg, .ch, .rfx, .twin, .brg, .fio, .ring, .esw, .net, .sig, .upd, .uds] s (integrityRestart source detail event s) := by
  unfold integrityRestart
  with_reducible repeat' first
    | assumption
    | decide
    | apply Frame.refl
    | (lift_lets; intro x; apply Frame.cut x ?_ (fun _ => ?_); subst x; rotate_left; clear_value x; rotate_right)
    | (lift_lets; intro x; apply Frame.cut x.1 ?_ (fun _ => ?_); subst x; rotate_left; clear_value x; rotate_right)
    | (lift_lets; intro x; clear_value x)
    | apply Frame.via (integrityArrest_frame ..)
    | apply Frame.via (raise_frame ..)
    | apply Frame.via (restart_frame ..)
    | apply Frame.ite
    | split
    | dsimp only

theorem ruleFault_frame (detail : List Byte) (s : State) :
    Frame [.sys, .mbx, .log, .tb, .vz, .saf, .cfg, .ch, .rfx, .twin, .brg, .fio, .ring, .esw, .net, .sig, .upd, .uds] s (ruleFault detail s) := by
  unfold ruleFault
  with_reducible repeat' first
    | assumption
    | decide
    | apply Frame.refl
    | apply Frame.via (integrityRestart_frame ..)
    | apply Frame.ite
    | split
    | dsimp only

theorem tableFault_frame (detail : List Byte) (s : State) :
    Frame [.sys, .mbx, .log, .tb, .vz, .saf, .cfg, .ch, .rfx, .twin, .brg, .fio, .ring, .esw, .net, .sig, .upd, .uds] s (tableFault detail s) := by
  unfold tableFault
  with_reducible repeat' first
    | assumption
    | decide
    | apply Frame.refl
    | apply Frame.via (ruleFault_frame ..)
    | apply Frame.ite

theorem ruleCheck_frame (ok : Bool) (corrected : U16) (s : State) :
    Frame [.sys, .mbx, .log, .tb, .vz, .saf, .cfg, .ch, .rfx, .twin, .brg, .fio, .ring, .esw, .net, .sig, .upd, .uds, .free] s (ruleCheck ok corrected s) := by
  unfold ruleCheck
  with_reducible repeat' first
    | assumption
    | decide
    | apply Frame.refl
    | (lift_lets; intro x; apply Frame.cut x ?_ (fun _ => ?_); subst x; rotate_left; clear_value x; rotate_right)
    | (lift_lets; intro x; apply Frame.cut x.1 ?_ (fun _ => ?_); subst x; rotate_left; clear_value x; rotate_right)
    | (lift_lets; intro x; clear_value x)
    | apply Frame.via (State.draw_frame ..)
    | apply Frame.via (tableFault_frame ..)
    | apply Frame.ite
    | split
    | apply Frame.set_rfx
    | dsimp only

theorem execRuleTableCheck_frame (ok : Bool) (corrected : U16) (s : State) :
    Framed [.sys, .mbx, .log, .tb, .vz, .saf, .cfg, .ch, .rfx, .twin, .brg, .fio, .ring, .esw, .net, .sig, .upd, .uds, .free] s (execRuleTableCheck ok corrected s) := by
  unfold execRuleTableCheck
  with_reducible repeat' first
    | apply Framed.next
    | assumption
    | decide
    | apply Frame.refl
    | apply Frame.via (ruleCheck_frame ..)
    | apply Frame.ite

theorem execRuleTableEccError_frame (rule : Fin 1024) (s : State) :
    Framed [.sys, .mbx, .log, .tb, .vz, .saf, .cfg, .ch, .rfx, .twin, .brg, .fio, .ring, .esw, .net, .sig, .upd, .uds] s (execRuleTableEccError rule s) := by
  unfold execRuleTableEccError
  with_reducible repeat' first
    | apply Framed.next
    | assumption
    | decide
    | apply Frame.refl
    | apply Frame.via (tableFault_frame ..)

theorem clockTrip_frame (s : State) :
    Frame [.sys, .mbx, .log, .tb, .vz, .saf, .cfg, .ch, .rfx, .twin, .brg, .fio, .ring, .esw, .net, .sig, .upd, .uds] s (clockTrip s) := by
  unfold clockTrip
  with_reducible repeat' first
    | assumption
    | decide
    | apply Frame.refl
    | (lift_lets; intro x; apply Frame.cut x ?_ (fun _ => ?_); subst x; rotate_left; clear_value x; rotate_right)
    | (lift_lets; intro x; apply Frame.cut x.1 ?_ (fun _ => ?_); subst x; rotate_left; clear_value x; rotate_right)
    | (lift_lets; intro x; clear_value x)
    | apply Frame.via (State.modCan_frame ..)
    | apply Frame.via (integrityRestart_frame ..)
    | apply Frame.via (raise_frame ..)
    | apply Frame.via (selfArrest_frame ..)
    | apply Frame.ite
    | split
    | apply Frame.set_sys

theorem execClockMonitorTrip_frame (s : State) :
    Framed [.sys, .mbx, .log, .tb, .vz, .saf, .cfg, .ch, .rfx, .twin, .brg, .fio, .ring, .esw, .net, .sig, .upd, .uds] s (execClockMonitorTrip s) := by
  unfold execClockMonitorTrip
  with_reducible repeat' first
    | apply Framed.next
    | assumption
    | decide
    | apply Frame.refl
    | apply Frame.via (clockTrip_frame ..)

theorem serviceLoss_frame (item : RunItem) (s : State) :
    Frame [.sys, .mbx, .log, .tb, .vz, .saf, .cfg, .ch, .rfx, .twin, .brg, .fio, .ring, .esw, .net, .sig, .upd, .uds] s (serviceLoss item s) := by
  unfold serviceLoss
  with_reducible repeat' first
    | assumption
    | decide
    | apply Frame.refl
    | (lift_lets; intro x; apply Frame.cut x ?_ (fun _ => ?_); subst x; rotate_left; clear_value x; rotate_right)
    | (lift_lets; intro x; apply Frame.cut x.1 ?_ (fun _ => ?_); subst x; rotate_left; clear_value x; rotate_right)
    | (lift_lets; intro x; clear_value x)
    | apply Frame.via (integrityRestart_frame ..)
    | apply Frame.via (selfArrest_frame ..)
    | apply Frame.ite

theorem execRunServiceLoss_frame (item : RunItem) (s : State) :
    Framed [.sys, .mbx, .log, .tb, .vz, .saf, .cfg, .ch, .rfx, .twin, .brg, .fio, .ring, .esw, .net, .sig, .upd, .uds] s (execRunServiceLoss item s) := by
  unfold execRunServiceLoss
  with_reducible repeat' first
    | apply Framed.next
    | assumption
    | decide
    | apply Frame.refl
    | apply Frame.via (serviceLoss_frame ..)

theorem watchdog_frame (s : State) :
    Frame [.sys, .mbx, .log, .tb, .vz, .saf, .cfg, .ch, .rfx, .twin, .brg, .fio, .ring, .esw, .net, .sig, .upd, .uds] s (watchdog s) := by
  unfold watchdog
  with_reducible repeat' first
    | assumption
    | decide
    | apply Frame.refl
    | (lift_lets; intro x; apply Frame.cut x ?_ (fun _ => ?_); subst x; rotate_left; clear_value x; rotate_right)
    | (lift_lets; intro x; apply Frame.cut x.1 ?_ (fun _ => ?_); subst x; rotate_left; clear_value x; rotate_right)
    | (lift_lets; intro x; clear_value x)
    | apply Frame.via (arrestOnly_frame ..)
    | apply Frame.via (raise_frame ..)
    | apply Frame.via (restartCause_frame ..)
    | apply Frame.ite
    | split
    | apply Frame.set_rfx

theorem execManagerWatchdog_frame (s : State) :
    Framed [.sys, .mbx, .log, .tb, .vz, .saf, .cfg, .ch, .rfx, .twin, .brg, .fio, .ring, .esw, .net, .sig, .upd, .uds] s (execManagerWatchdog s) := by
  unfold execManagerWatchdog
  with_reducible repeat' first
    | apply Framed.next
    | assumption
    | decide
    | apply Frame.refl
    | apply Frame.via (watchdog_frame ..)

theorem supplyValid_frame (s : State) :
    Frame [.sys] s (supplyValid s) := by
  unfold supplyValid
  with_reducible repeat' first
    | assumption
    | decide
    | apply Frame.refl
    | (lift_lets; intro x; apply Frame.cut x ?_ (fun _ => ?_); subst x; rotate_left; clear_value x; rotate_right)
    | (lift_lets; intro x; apply Frame.cut x.1 ?_ (fun _ => ?_); subst x; rotate_left; clear_value x; rotate_right)
    | (lift_lets; intro x; clear_value x)
    | apply Frame.ite
    | split
    | apply Frame.set_sys

theorem execLogicSupplyValid_frame (s : State) :
    Framed [.sys] s (execLogicSupplyValid s) := by
  unfold execLogicSupplyValid
  with_reducible repeat' first
    | apply Framed.next
    | assumption
    | decide
    | apply Frame.refl
    | apply Frame.via (supplyValid_frame ..)

theorem goOff_frame (trigger : Nat) (s : State) :
    Frame [.sys, .mbx, .log, .tb, .vz, .saf, .cfg, .ch, .rfx, .twin, .brg, .fio, .ring, .esw, .net, .sig, .upd, .uds] s (goOff trigger s) := by
  unfold goOff
  with_reducible repeat' first
    | assumption
    | decide
    | apply Frame.refl
    | (lift_lets; intro x; apply Frame.cut x ?_ (fun _ => ?_); subst x; rotate_left; clear_value x; rotate_right)
    | (lift_lets; intro x; apply Frame.cut x.1 ?_ (fun _ => ?_); subst x; rotate_left; clear_value x; rotate_right)
    | (lift_lets; intro x; clear_value x)
    | apply Frame.via (abortTests_frame ..)
    | apply Frame.via (logicStop_frame ..)
    | apply Frame.ite
    | split
    | apply Frame.set_sys

theorem powerLoss_frame (s : State) :
    Frame [.sys, .mbx, .log, .tb, .vz, .saf, .cfg, .ch, .rfx, .twin, .brg, .fio, .ring, .esw, .net, .sig, .upd, .uds] s (powerLoss s) := by
  unfold powerLoss
  with_reducible repeat' first
    | assumption
    | decide
    | apply Frame.refl
    | (lift_lets; intro x; apply Frame.cut x ?_ (fun _ => ?_); subst x; rotate_left; clear_value x; rotate_right)
    | (lift_lets; intro x; apply Frame.cut x.1 ?_ (fun _ => ?_); subst x; rotate_left; clear_value x; rotate_right)
    | (lift_lets; intro x; clear_value x)
    | apply Frame.via (feedLoss_frame ..)
    | apply Frame.via (goOff_frame ..)
    | apply Frame.ite
    | split
    | apply Frame.set_sys_log_brg

theorem execPowerLoss_frame (s : State) :
    Framed [.sys, .mbx, .log, .tb, .vz, .saf, .cfg, .ch, .rfx, .twin, .brg, .fio, .ring, .esw, .net, .sig, .upd, .uds] s (execPowerLoss s) := by
  unfold execPowerLoss
  with_reducible repeat' first
    | apply Framed.next
    | assumption
    | decide
    | apply Frame.refl
    | apply Frame.via (powerLoss_frame ..)

theorem feedLow_frame (s : State) :
    Frame [.sys, .mbx, .log, .vz] s (feedLow s) := by
  unfold feedLow
  with_reducible repeat' first
    | assumption
    | decide
    | apply Frame.refl
    | apply Frame.via (raise_frame ..)
    | apply Frame.ite
    | split
    | apply Frame.set_sys

theorem execLogicFeedLow_frame (s : State) :
    Framed [.sys, .mbx, .log, .vz] s (execLogicFeedLow s) := by
  unfold execLogicFeedLow
  with_reducible repeat' first
    | apply Framed.next
    | assumption
    | decide
    | apply Frame.refl
    | apply Frame.via (feedLow_frame ..)

theorem feedReset_frame (trigger : Nat) (s : State) :
    Frame [.sys, .mbx, .log, .tb, .vz, .saf, .cfg, .ch, .rfx, .twin, .brg, .fio, .ring, .esw, .net, .sig, .upd, .uds] s (feedReset trigger s) := by
  unfold feedReset
  with_reducible repeat' first
    | assumption
    | decide
    | apply Frame.refl
    | (lift_lets; intro x; apply Frame.cut x ?_ (fun _ => ?_); subst x; rotate_left; clear_value x; rotate_right)
    | (lift_lets; intro x; apply Frame.cut x.1 ?_ (fun _ => ?_); subst x; rotate_left; clear_value x; rotate_right)
    | (lift_lets; intro x; clear_value x)
    | apply Frame.via (goOff_frame ..)
    | apply Frame.ite
    | split
    | apply Frame.set_sys
    | dsimp only

theorem feedFail_frame (s : State) :
    Frame [.sys, .mbx, .log, .tb, .vz, .saf, .cfg, .ch, .rfx, .twin, .brg, .fio, .ring, .esw, .net, .sig, .upd, .uds] s (feedFail s) := by
  unfold feedFail
  with_reducible repeat' first
    | assumption
    | decide
    | apply Frame.refl
    | (lift_lets; intro x; apply Frame.cut x ?_ (fun _ => ?_); subst x; rotate_left; clear_value x; rotate_right)
    | (lift_lets; intro x; apply Frame.cut x.1 ?_ (fun _ => ?_); subst x; rotate_left; clear_value x; rotate_right)
    | (lift_lets; intro x; clear_value x)
    | apply Frame.via (arrestOnly_frame ..)
    | apply Frame.via (feedReset_frame ..)
    | apply Frame.via (goOff_frame ..)
    | apply Frame.via (raise_frame ..)
    | apply Frame.ite
    | split
    | dsimp only

theorem execLogicFeedFail_frame (s : State) :
    Framed [.sys, .mbx, .log, .tb, .vz, .saf, .cfg, .ch, .rfx, .twin, .brg, .fio, .ring, .esw, .net, .sig, .upd, .uds] s (execLogicFeedFail s) := by
  unfold execLogicFeedFail
  with_reducible repeat' first
    | apply Framed.next
    | assumption
    | decide
    | apply Frame.refl
    | apply Frame.via (feedFail_frame ..)

theorem logicOvertemp_frame (temp : Int) (s : State) :
    Frame [.sys, .mbx, .log, .tb, .vz, .saf, .cfg, .ch, .rfx, .twin, .brg, .fio, .ring, .esw, .net, .sig, .upd, .uds] s (logicOvertemp temp s) := by
  unfold logicOvertemp
  with_reducible repeat' first
    | assumption
    | decide
    | apply Frame.refl
    | (lift_lets; intro x; apply Frame.cut x ?_ (fun _ => ?_); subst x; rotate_left; clear_value x; rotate_right)
    | (lift_lets; intro x; apply Frame.cut x.1 ?_ (fun _ => ?_); subst x; rotate_left; clear_value x; rotate_right)
    | (lift_lets; intro x; clear_value x)
    | apply Frame.via (raise_frame ..)
    | apply Frame.via (restart_frame ..)
    | apply Frame.ite
    | split
    | apply Frame.set_sys

theorem execLogicDieOvertemp_frame (temp : Int) (s : State) :
    Framed [.sys, .mbx, .log, .tb, .vz, .saf, .cfg, .ch, .rfx, .twin, .brg, .fio, .ring, .esw, .net, .sig, .upd, .uds] s (execLogicDieOvertemp temp s) := by
  unfold execLogicDieOvertemp
  with_reducible repeat' first
    | apply Framed.next
    | assumption
    | decide
    | apply Frame.refl
    | apply Frame.via (logicOvertemp_frame ..)

theorem execLogicDieCooled_frame (s : State) :
    Framed [.sys] s (execLogicDieCooled s) := by
  unfold execLogicDieCooled
  with_reducible repeat' first
    | apply Framed.next
    | assumption
    | decide
    | apply Frame.refl
    | apply Frame.ite
    | split
    | apply Frame.set_sys

theorem baseHot_frame (temp : Int) (s : State) :
    Frame [.sys, .mbx, .log, .vz] s (baseHot temp s) := by
  unfold baseHot
  with_reducible repeat' first
    | assumption
    | decide
    | apply Frame.refl
    | (lift_lets; intro x; apply Frame.cut x ?_ (fun _ => ?_); subst x; rotate_left; clear_value x; rotate_right)
    | (lift_lets; intro x; apply Frame.cut x.1 ?_ (fun _ => ?_); subst x; rotate_left; clear_value x; rotate_right)
    | (lift_lets; intro x; clear_value x)
    | apply Frame.via (raise_frame ..)
    | apply Frame.ite
    | split
    | apply Frame.set_sys

theorem execBaseplateHot_frame (temp : Int) (s : State) :
    Framed [.sys, .mbx, .log, .vz] s (execBaseplateHot temp s) := by
  unfold execBaseplateHot
  with_reducible repeat' first
    | apply Framed.next
    | assumption
    | decide
    | apply Frame.refl
    | apply Frame.via (baseHot_frame ..)

theorem baseOver_frame (temp : Int) (s : State) :
    Frame [.sys, .mbx, .log, .vz] s (baseOver temp s) := by
  unfold baseOver
  with_reducible repeat' first
    | assumption
    | decide
    | apply Frame.refl
    | (lift_lets; intro x; apply Frame.cut x ?_ (fun _ => ?_); subst x; rotate_left; clear_value x; rotate_right)
    | (lift_lets; intro x; apply Frame.cut x.1 ?_ (fun _ => ?_); subst x; rotate_left; clear_value x; rotate_right)
    | (lift_lets; intro x; clear_value x)
    | apply Frame.via (raise_frame ..)
    | apply Frame.ite
    | split
    | apply Frame.set_sys

theorem execBaseplateOvertemp_frame (temp : Int) (s : State) :
    Framed [.sys, .mbx, .log, .vz] s (execBaseplateOvertemp temp s) := by
  unfold execBaseplateOvertemp
  with_reducible repeat' first
    | apply Framed.next
    | assumption
    | decide
    | apply Frame.refl
    | apply Frame.via (baseOver_frame ..)

theorem baseCooled_frame (temp : Int) (s : State) :
    Frame [.sys] s (baseCooled temp s) := by
  unfold baseCooled
  with_reducible repeat' first
    | assumption
    | decide
    | apply Frame.refl
    | apply Frame.ite
    | split
    | apply Frame.set_sys

theorem execBaseplateCooled_frame (temp : Int) (s : State) :
    Framed [.sys] s (execBaseplateCooled temp s) := by
  unfold execBaseplateCooled
  with_reducible repeat' first
    | apply Framed.next
    | assumption
    | decide
    | apply Frame.refl
    | apply Frame.via (baseCooled_frame ..)

end Sys2Proof.Machine

end
end

