-- ==== Sys2Proof/Laws/Frames/Nm.lean ====
section
/-! SUPPORT. The frame of each function of `Machine/Nm.lean`: the parts of the state it may change. -/

section

set_option Elab.async false

namespace Sys2Proof.Machine

theorem raiseCan_frame (k : EvKind) (c : Nat) (data : List Byte) (s : State) :
    Frame [.mbx, .log, .vz] s (raiseCan k c data s) := by
  unfold raiseCan
  with_reducible repeat' first
    | assumption
    | decide
    | apply Frame.refl
    | apply Frame.via (raise_frame ..)

theorem nmPost_frame (c : Nat) (m : NmMsg) (s : State) :
    Frame [.vz, .net] s (nmPost c m s) := by
  unfold nmPost
  with_reducible repeat' first
    | assumption
    | decide
    | apply Frame.refl
    | apply Frame.via (State.modNm_frame ..)
    | apply Frame.via (nmSend_frame ..)

theorem nmAlive_frame (c : Nat) (s : State) :
    Frame [.vz, .net] s (nmAlive c s) := by
  unfold nmAlive
  with_reducible repeat' first
    | assumption
    | decide
    | apply Frame.refl
    | (lift_lets; intro x; apply Frame.cut x ?_ (fun _ => ?_); subst x; rotate_left; clear_value x; rotate_right)
    | (lift_lets; intro x; apply Frame.cut x.1 ?_ (fun _ => ?_); subst x; rotate_left; clear_value x; rotate_right)
    | (lift_lets; intro x; clear_value x)
    | apply Frame.via (State.modNm_frame ..)
    | apply Frame.via (nmPost_frame ..)

theorem canIntegrate_frame (c : Nat) (s : State) :
    Frame [.net] s (canIntegrate c s) := by
  unfold canIntegrate
  with_reducible repeat' first
    | assumption
    | decide
    | apply Frame.refl
    | apply Frame.via (State.modCan_frame ..)

theorem nmAwake_frame (c : Nat) (s : State) :
    Frame [.mbx, .log, .vz, .net] s (nmAwake c s) := by
  unfold nmAwake
  with_reducible repeat' first
    | assumption
    | decide
    | apply Frame.refl
    | apply Frame.via (State.modNm_frame ..)
    | apply Frame.via (raiseCan_frame ..)
    | apply Frame.ite

theorem nmSet_frame (c : Nat) (f : NmRecord) (s : State) :
    Frame [.net] s (nmSet c f s) := by
  unfold nmSet
  with_reducible repeat' first
    | assumption
    | decide
    | apply Frame.refl
    | apply Frame.via (State.modNm_frame ..)

theorem canWakeCh_frame (c : Nat) (s : State) :
    Frame [.mbx, .log, .vz, .net] s (canWakeCh c s) := by
  unfold canWakeCh
  with_reducible repeat' first
    | assumption
    | decide
    | apply Frame.refl
    | apply Frame.via (canIntegrate_frame ..)
    | apply Frame.via (nmAwake_frame ..)

theorem nmLead_frame (c : Nat) (s : State) :
    Frame [.vz, .net] s (nmLead c s) := by
  unfold nmLead
  with_reducible repeat' first
    | assumption
    | decide
    | apply Frame.refl
    | (lift_lets; intro x; apply Frame.cut x ?_ (fun _ => ?_); subst x; rotate_left; clear_value x; rotate_right)
    | (lift_lets; intro x; apply Frame.cut x.1 ?_ (fun _ => ?_); subst x; rotate_left; clear_value x; rotate_right)
    | (lift_lets; intro x; clear_value x)
    | apply Frame.via (State.modNm_frame ..)
    | apply Frame.via (nmPost_frame ..)
    | apply Frame.ite
    | split

theorem nmFollow_frame (c : Nat) (s : State) :
    Frame [.vz, .net] s (nmFollow c s) := by
  unfold nmFollow
  with_reducible repeat' first
    | assumption
    | decide
    | apply Frame.refl
    | (lift_lets; intro x; apply Frame.cut x ?_ (fun _ => ?_); subst x; rotate_left; clear_value x; rotate_right)
    | (lift_lets; intro x; apply Frame.cut x.1 ?_ (fun _ => ?_); subst x; rotate_left; clear_value x; rotate_right)
    | (lift_lets; intro x; clear_value x)
    | apply Frame.via (State.modNm_frame ..)
    | apply Frame.via (nmPost_frame ..)

theorem nmTokenPass_frame (c : Nat) (s : State) :
    Frame [.vz, .net] s (nmTokenPass c s) := by
  unfold nmTokenPass
  with_reducible repeat' first
    | assumption
    | decide
    | apply Frame.refl
    | (lift_lets; intro x; apply Frame.cut x ?_ (fun _ => ?_); subst x; rotate_left; clear_value x; rotate_right)
    | (lift_lets; intro x; apply Frame.cut x.1 ?_ (fun _ => ?_); subst x; rotate_left; clear_value x; rotate_right)
    | (lift_lets; intro x; clear_value x)
    | apply Frame.via (nmFollow_frame ..)
    | apply Frame.via (nmLead_frame ..)
    | apply Frame.ite

theorem execNmTokenPass_frame (c : Fin 16) (s : State) :
    Framed [.vz, .net] s (execNmTokenPass c s) := by
  unfold execNmTokenPass
  with_reducible repeat' first
    | apply Framed.next
    | assumption
    | decide
    | apply Frame.refl
    | apply Frame.via (nmTokenPass_frame ..)

theorem nmFormed_frame (c : Nat) (s : State) :
    Frame [.vz, .net] s (nmFormed c s) := by
  unfold nmFormed
  with_reducible repeat' first
    | assumption
    | decide
    | apply Frame.refl
    | (lift_lets; intro x; apply Frame.cut x ?_ (fun _ => ?_); subst x; rotate_left; clear_value x; rotate_right)
    | (lift_lets; intro x; apply Frame.cut x.1 ?_ (fun _ => ?_); subst x; rotate_left; clear_value x; rotate_right)
    | (lift_lets; intro x; clear_value x)
    | apply Frame.via (State.modNm_frame ..)
    | apply Frame.via (nmLead_frame ..)
    | apply Frame.ite

theorem execNmFormingTimeout_frame (c : Fin 16) (s : State) :
    Framed [.vz, .net] s (execNmFormingTimeout c s) := by
  unfold execNmFormingTimeout
  with_reducible repeat' first
    | apply Framed.next
    | assumption
    | decide
    | apply Frame.refl
    | apply Frame.via (nmFormed_frame ..)

theorem nmSkip_frame (c : Nat) (s : State) :
    Frame [.mbx, .log, .vz, .net] s (nmSkip c s) := by
  unfold nmSkip
  with_reducible repeat' first
    | assumption
    | decide
    | apply Frame.refl
    | (lift_lets; intro x; apply Frame.cut x ?_ (fun _ => ?_); subst x; rotate_left; clear_value x; rotate_right)
    | (lift_lets; intro x; apply Frame.cut x.1 ?_ (fun _ => ?_); subst x; rotate_left; clear_value x; rotate_right)
    | (lift_lets; intro x; clear_value x)
    | apply Frame.via (State.modNm_frame ..)
    | apply Frame.via (nmPost_frame ..)
    | apply Frame.via (raiseCan_frame ..)
    | apply Frame.ite
    | split

theorem execNmHopTimeout_frame (c : Fin 16) (s : State) :
    Framed [.mbx, .log, .vz, .net] s (execNmHopTimeout c s) := by
  unfold execNmHopTimeout
  with_reducible repeat' first
    | apply Framed.next
    | assumption
    | decide
    | apply Frame.refl
    | apply Frame.via (nmSkip_frame ..)

theorem execNmTokenLost_frame (c : Fin 16) (s : State) :
    Framed [.vz, .net] s (execNmTokenLost c s) := by
  unfold execNmTokenLost
  with_reducible repeat' first
    | apply Framed.next
    | assumption
    | decide
    | apply Frame.refl
    | apply Frame.via (nmAlive_frame ..)
    | apply Frame.ite

theorem nmOverride_frame (c : Nat) (s : State) :
    Frame [.mbx, .log, .vz, .net] s (nmOverride c s) := by
  unfold nmOverride
  with_reducible repeat' first
    | assumption
    | decide
    | apply Frame.refl
    | (lift_lets; intro x; apply Frame.cut x ?_ (fun _ => ?_); subst x; rotate_left; clear_value x; rotate_right)
    | (lift_lets; intro x; apply Frame.cut x.1 ?_ (fun _ => ?_); subst x; rotate_left; clear_value x; rotate_right)
    | (lift_lets; intro x; clear_value x)
    | apply Frame.via (State.modNm_frame ..)
    | apply Frame.via (raiseCan_frame ..)
    | apply Frame.ite

theorem nmCoord_frame (c : Nat) (m : NmMsg) (s : State) :
    Frame [.mbx, .log, .vz, .net] s (nmCoord c m s) := by
  unfold nmCoord
  with_reducible repeat' first
    | assumption
    | decide
    | apply Frame.refl
    | (lift_lets; intro x; apply Frame.cut x ?_ (fun _ => ?_); subst x; rotate_left; clear_value x; rotate_right)
    | (lift_lets; intro x; apply Frame.cut x.1 ?_ (fun _ => ?_); subst x; rotate_left; clear_value x; rotate_right)
    | (lift_lets; intro x; clear_value x)
    | apply Frame.via (State.modNm_frame ..)
    | apply Frame.via (raiseCan_frame ..)
    | apply Frame.ite

theorem nmSleepBits_frame (c : Nat) (m : NmMsg) (s : State) :
    Frame [.mbx, .log, .vz, .net] s (nmSleepBits c m s) := by
  unfold nmSleepBits
  with_reducible repeat' first
    | assumption
    | decide
    | apply Frame.refl
    | (lift_lets; intro x; apply Frame.cut x ?_ (fun _ => ?_); subst x; rotate_left; clear_value x; rotate_right)
    | (lift_lets; intro x; apply Frame.cut x.1 ?_ (fun _ => ?_); subst x; rotate_left; clear_value x; rotate_right)
    | (lift_lets; intro x; clear_value x)
    | apply Frame.via (State.modNm_frame ..)
    | apply Frame.via (nmOverride_frame ..)
    | apply Frame.ite

theorem nmReceive_frame (c id dlc : Nat) (d : List Byte) (s : State) :
    Frame [.mbx, .log, .vz, .net] s (nmReceive c id dlc d s) := by
  unfold nmReceive
  with_reducible repeat' first
    | assumption
    | decide
    | apply Frame.refl
    | apply Frame.via (State.modNm_frame ..)
    | apply Frame.via (nmCoord_frame ..)
    | apply Frame.via (nmSleepBits_frame ..)
    | apply Frame.ite
    | split

theorem execNmMessageReceived_frame (c : Fin 16) (id : BitVec 11) (dlc : Fin 16) (data : List Byte) (s : State) :
    Framed [.mbx, .log, .vz, .net] s (execNmMessageReceived c id dlc data s) := by
  unfold execNmMessageReceived
  with_reducible repeat' first
    | apply Framed.next
    | assumption
    | decide
    | apply Frame.refl
    | apply Frame.via (nmReceive_frame ..)

theorem canSleep_frame (c : Nat) (s : State) :
    Frame [.vz, .net] s (canSleep c s) := by
  unfold canSleep
  with_reducible repeat' first
    | assumption
    | decide
    | apply Frame.refl
    | (lift_lets; intro x; apply Frame.cut x ?_ (fun _ => ?_); subst x; rotate_left; clear_value x; rotate_right)
    | (lift_lets; intro x; apply Frame.cut x.1 ?_ (fun _ => ?_); subst x; rotate_left; clear_value x; rotate_right)
    | (lift_lets; intro x; clear_value x)
    | apply Frame.via (State.modCan_frame ..)
    | apply Frame.via (canFinish_frame ..)
    | apply Frame.ite
    | apply Frame.foldl
    | apply Frame.foldl1
    | intro _

theorem nmSleepNow_frame (c : Nat) (s : State) :
    Frame [.mbx, .log, .vz, .net] s (nmSleepNow c s) := by
  unfold nmSleepNow
  with_reducible repeat' first
    | assumption
    | decide
    | apply Frame.refl
    | apply Frame.via (State.modNm_frame ..)
    | apply Frame.via (canSleep_frame ..)
    | apply Frame.via (raiseCan_frame ..)
    | apply Frame.ite

theorem execNmSleepTimer_frame (c : Fin 16) (s : State) :
    Framed [.mbx, .log, .vz, .net] s (execNmSleepTimer c s) := by
  unfold execNmSleepTimer
  with_reducible repeat' first
    | apply Framed.next
    | assumption
    | decide
    | apply Frame.refl
    | apply Frame.via (nmSleepNow_frame ..)

theorem nmOverstay_frame (c : Nat) (s : State) :
    Frame [.mbx, .log, .vz, .net] s (nmOverstay c s) := by
  unfold nmOverstay
  with_reducible repeat' first
    | assumption
    | decide
    | apply Frame.refl
    | (lift_lets; intro x; apply Frame.cut x ?_ (fun _ => ?_); subst x; rotate_left; clear_value x; rotate_right)
    | (lift_lets; intro x; apply Frame.cut x.1 ?_ (fun _ => ?_); subst x; rotate_left; clear_value x; rotate_right)
    | (lift_lets; intro x; clear_value x)
    | apply Frame.via (State.modNm_frame ..)
    | apply Frame.via (nmOverride_frame ..)
    | apply Frame.via (nmPost_frame ..)
    | apply Frame.via (raiseCan_frame ..)
    | apply Frame.ite

theorem execNmTmaxExpiry_frame (c : Fin 16) (s : State) :
    Framed [.mbx, .log, .vz, .net] s (execNmTmaxExpiry c s) := by
  unfold execNmTmaxExpiry
  with_reducible repeat' first
    | apply Framed.next
    | assumption
    | decide
    | apply Frame.refl
    | apply Frame.via (nmOverstay_frame ..)

theorem nmConfigBody_frame (c : Nat) (f : NmRecord) (s : State) :
    Frame [.net] s (nmConfigBody c f s).1 := by
  unfold nmConfigBody
  with_reducible repeat' first
    | assumption
    | decide
    | apply Frame.refl
    | apply Frame.via (nmSet_frame ..)
    | apply Frame.ite
    | apply Frame.ite1

theorem execNmConfig_frame (r : Req) (c : Byte) (f : NmRecord) (s : State) :
    Framed [.mbx, .vz, .net] s (execNmConfig r c f s) := by
  unfold execNmConfig
  with_reducible repeat' first
    | apply Framed.next
    | assumption
    | decide
    | apply Frame.refl
    | apply Frame.via (nmConfigBody_frame ..)
    | apply runCmd_frame
    | apply Frame.ite
    | intro _

theorem nmHold_frame (c : Nat) (h : AwakeHolder) (s : State) :
    Frame [.mbx, .log, .vz, .net] s (nmHold c h s) := by
  unfold nmHold
  with_reducible repeat' first
    | assumption
    | decide
    | apply Frame.refl
    | (lift_lets; intro x; apply Frame.cut x ?_ (fun _ => ?_); subst x; rotate_left; clear_value x; rotate_right)
    | (lift_lets; intro x; apply Frame.cut x.1 ?_ (fun _ => ?_); subst x; rotate_left; clear_value x; rotate_right)
    | (lift_lets; intro x; clear_value x)
    | apply Frame.via (State.modNm_frame ..)
    | apply Frame.via (canWakeCh_frame ..)
    | apply Frame.via (nmPost_frame ..)
    | apply Frame.ite

theorem execNmRequestAwake_frame (r : Req) (c : Byte) (s : State) :
    Framed [.mbx, .log, .vz, .net] s (execNmRequestAwake r c s) := by
  unfold execNmRequestAwake
  with_reducible repeat' first
    | apply Framed.next
    | assumption
    | decide
    | apply Frame.refl
    | (lift_lets; intro x; apply Frame.cut x ?_ (fun _ => ?_); subst x; rotate_left; clear_value x; rotate_right)
    | (lift_lets; intro x; apply Frame.cut x.1 ?_ (fun _ => ?_); subst x; rotate_left; clear_value x; rotate_right)
    | (lift_lets; intro x; clear_value x)
    | apply Frame.via (nmHold_frame ..)
    | apply runCmd_frame
    | apply Frame.ite
    | intro _
    | split

theorem execNmRelease_frame (r : Req) (c : Byte) (s : State) :
    Framed [.mbx, .vz, .net] s (execNmRelease r c s) := by
  unfold execNmRelease
  with_reducible repeat' first
    | apply Framed.next
    | assumption
    | decide
    | apply Frame.refl
    | apply Frame.via (State.modNm_frame ..)
    | apply runCmd_frame
    | apply Frame.ite
    | intro _
    | split

theorem execNmSetTmax_frame (r : Req) (c : Byte) (tMax : U16) (s : State) :
    Framed [.mbx, .vz, .net] s (execNmSetTmax r c tMax s) := by
  unfold execNmSetTmax
  with_reducible repeat' first
    | apply Framed.next
    | assumption
    | decide
    | apply Frame.refl
    | apply Frame.via (State.modNm_frame ..)
    | apply runCmd_frame
    | apply Frame.ite
    | intro _
    | split

theorem execNmGetStatus_frame (r : Req) (c : Byte) (s : State) :
    Framed [.mbx, .vz] s (execNmGetStatus r c s) := by
  unfold execNmGetStatus
  with_reducible repeat' first
    | apply Framed.next
    | assumption
    | decide
    | apply Frame.refl
    | apply runCmd_frame
    | apply Frame.ite
    | intro _
    | split

end Sys2Proof.Machine

end
end

