-- ==== Sys2Proof/Laws/Frames/Can.lean ====
section
/-! SUPPORT. The frame of each function of `Machine/Can.lean`: the parts of the state it may change. -/

section

set_option Elab.async false

namespace Sys2Proof.Machine

theorem canCount_frame (c : Nat) (n : CanCounters) (s : State) :
    Frame [.mbx, .log, .vz, .net] s (canCount c n s) := by
  unfold canCount
  with_reducible repeat' first
    | assumption
    | decide
    | apply Frame.refl
    | (lift_lets; intro x; apply Frame.cut x ?_ (fun _ => ?_); subst x; rotate_left; clear_value x; rotate_right)
    | (lift_lets; intro x; apply Frame.cut x.1 ?_ (fun _ => ?_); subst x; rotate_left; clear_value x; rotate_right)
    | (lift_lets; intro x; clear_value x)
    | apply Frame.via (State.modCan_frame ..)
    | apply Frame.via (raiseCan_frame ..)
    | apply Frame.ite

theorem canLose_frame (c : Nat) (s : State) :
    Frame [.mbx, .log, .vz, .net] s (canLose c s) := by
  unfold canLose
  with_reducible repeat' first
    | assumption
    | decide
    | apply Frame.refl
    | (lift_lets; intro x; apply Frame.cut x ?_ (fun _ => ?_); subst x; rotate_left; clear_value x; rotate_right)
    | (lift_lets; intro x; apply Frame.cut x.1 ?_ (fun _ => ?_); subst x; rotate_left; clear_value x; rotate_right)
    | (lift_lets; intro x; clear_value x)
    | apply Frame.via (State.modCan_frame ..)
    | apply Frame.via (raiseCan_frame ..)
    | apply Frame.ite

theorem canFill_frame (c : Nat) (g : CanFrame) (sof : U64) (echoed : Bool) (xlb : Option Nat) (s : State) :
    Frame [.vz, .net] s (canFill c g sof echoed xlb s) := by
  unfold canFill
  with_reducible repeat' first
    | assumption
    | decide
    | apply Frame.refl
    | (lift_lets; intro x; apply Frame.cut x ?_ (fun _ => ?_); subst x; rotate_left; clear_value x; rotate_right)
    | (lift_lets; intro x; apply Frame.cut x.1 ?_ (fun _ => ?_); subst x; rotate_left; clear_value x; rotate_right)
    | (lift_lets; intro x; clear_value x)
    | apply Frame.via (State.modCan_frame ..)
    | apply Frame.via (State.raiseSrc_frame ..)

theorem canStore_frame (c : Nat) (g : CanFrame) (sof : U64) (echoed : Bool) (s : State) :
    Frame [.mbx, .log, .vz, .net] s (canStore c g sof echoed s) := by
  unfold canStore
  with_reducible repeat' first
    | assumption
    | decide
    | apply Frame.refl
    | (lift_lets; intro x; apply Frame.cut x ?_ (fun _ => ?_); subst x; rotate_left; clear_value x; rotate_right)
    | (lift_lets; intro x; apply Frame.cut x.1 ?_ (fun _ => ?_); subst x; rotate_left; clear_value x; rotate_right)
    | (lift_lets; intro x; clear_value x)
    | apply Frame.via (State.modCan_frame ..)
    | apply Frame.via (canFill_frame ..)
    | apply Frame.via (canLose_frame ..)
    | apply Frame.ite
    | split

theorem canReceive_frame (c : Nat) (g : CanFrame) (sof : U64) (n : CanCounters) (s : State) :
    Frame [.mbx, .log, .vz, .net, .sig, .uds] s (canReceive c g sof n s) := by
  unfold canReceive
  with_reducible repeat' first
    | assumption
    | decide
    | apply Frame.refl
    | (lift_lets; intro x; apply Frame.cut x ?_ (fun _ => ?_); subst x; rotate_left; clear_value x; rotate_right)
    | (lift_lets; intro x; apply Frame.cut x.1 ?_ (fun _ => ?_); subst x; rotate_left; clear_value x; rotate_right)
    | (lift_lets; intro x; clear_value x)
    | apply Frame.via (State.modCan_frame ..)
    | apply Frame.via (arriveAll_frame ..)
    | apply Frame.via (canCount_frame ..)
    | apply Frame.via (canStore_frame ..)
    | apply Frame.ite
    | apply Frame.set_uds

theorem execCanFrameReceived_frame (c : Fin 16) (f : CanFrame) (sof : U64) (n : CanCounters) (s : State) :
    Framed [.mbx, .log, .vz, .net, .sig, .uds] s (execCanFrameReceived c f sof n s) := by
  unfold execCanFrameReceived
  with_reducible repeat' first
    | apply Framed.next
    | assumption
    | decide
    | apply Frame.refl
    | apply Frame.via (canReceive_frame ..)

theorem execCanRxOverrunEnd_frame (c : Fin 16) (s : State) :
    Framed [.net] s (execCanRxOverrunEnd c s) := by
  unfold execCanRxOverrunEnd
  with_reducible repeat' first
    | apply Framed.next
    | assumption
    | decide
    | apply Frame.refl
    | apply Frame.via (State.modCan_frame ..)

theorem canCommit_frame (c : Nat) (s : State) :
    Frame [.net] s (canCommit c s) := by
  unfold canCommit
  with_reducible repeat' first
    | assumption
    | decide
    | apply Frame.refl
    | (lift_lets; intro x; apply Frame.cut x ?_ (fun _ => ?_); subst x; rotate_left; clear_value x; rotate_right)
    | (lift_lets; intro x; apply Frame.cut x.1 ?_ (fun _ => ?_); subst x; rotate_left; clear_value x; rotate_right)
    | (lift_lets; intro x; clear_value x)
    | apply Frame.via (State.modCan_frame ..)
    | apply Frame.ite
    | split

theorem execCanSofCommit_frame (c : Fin 16) (s : State) :
    Framed [.net] s (execCanSofCommit c s) := by
  unfold execCanSofCommit
  with_reducible repeat' first
    | apply Framed.next
    | assumption
    | decide
    | apply Frame.refl
    | apply Frame.via (canCommit_frame ..)

theorem canRefill_frame (c e : Nat) (s : State) :
    Frame [.mbx, .log, .vz, .ch, .net, .sig, .free] s (canRefill c e s) := by
  unfold canRefill
  with_reducible repeat' first
    | assumption
    | decide
    | apply Frame.refl
    | apply Frame.via (nmSend_frame ..)
    | apply Frame.via (sendPdu_frame ..)
    | apply Frame.ite
    | apply Frame.foldl
    | apply Frame.foldl1
    | intro _
    | split

theorem canStopNow_frame (c : Nat) (s : State) :
    Frame [.vz, .net] s (canStopNow c s) := by
  unfold canStopNow
  with_reducible repeat' first
    | assumption
    | decide
    | apply Frame.refl
    | (lift_lets; intro x; apply Frame.cut x ?_ (fun _ => ?_); subst x; rotate_left; clear_value x; rotate_right)
    | (lift_lets; intro x; apply Frame.cut x.1 ?_ (fun _ => ?_); subst x; rotate_left; clear_value x; rotate_right)
    | (lift_lets; intro x; clear_value x)
    | apply Frame.via (State.modCan_frame ..)
    | apply Frame.via (canFinish_frame ..)
    | apply Frame.ite
    | apply Frame.foldl
    | apply Frame.foldl1
    | intro _

theorem canOutcome_frame (c : Nat) (a : CanAttempt) (o : CanOutcome) (s : State) :
    Frame [.mbx, .log, .vz, .net] s (canOutcome c a o s) := by
  unfold canOutcome
  with_reducible repeat' first
    | assumption
    | decide
    | apply Frame.refl
    | (lift_lets; intro x; apply Frame.cut x ?_ (fun _ => ?_); subst x; rotate_left; clear_value x; rotate_right)
    | (lift_lets; intro x; apply Frame.cut x.1 ?_ (fun _ => ?_); subst x; rotate_left; clear_value x; rotate_right)
    | (lift_lets; intro x; clear_value x)
    | apply Frame.via (State.modCan_frame ..)
    | apply Frame.via (canFinish_frame ..)
    | apply Frame.via (canStore_frame ..)
    | apply Frame.ite
    | split

theorem canLate_frame (c : Nat) (s : State) :
    Frame [.vz, .net] s (canLate c s) := by
  unfold canLate
  with_reducible repeat' first
    | assumption
    | decide
    | apply Frame.refl
    | (lift_lets; intro x; apply Frame.cut x ?_ (fun _ => ?_); subst x; rotate_left; clear_value x; rotate_right)
    | (lift_lets; intro x; apply Frame.cut x.1 ?_ (fun _ => ?_); subst x; rotate_left; clear_value x; rotate_right)
    | (lift_lets; intro x; clear_value x)
    | apply Frame.via (State.modCan_frame ..)
    | apply Frame.ite
    | split
    | apply Frame.set_vz

theorem canComplete_frame (c : Nat) (o : CanOutcome) (n : CanCounters) (s : State) :
    Frame [.mbx, .log, .vz, .ch, .net, .sig, .free] s (canComplete c o n s) := by
  unfold canComplete
  with_reducible repeat' first
    | assumption
    | decide
    | apply Frame.refl
    | (lift_lets; intro x; apply Frame.cut x ?_ (fun _ => ?_); subst x; rotate_left; clear_value x; rotate_right)
    | (lift_lets; intro x; apply Frame.cut x.1 ?_ (fun _ => ?_); subst x; rotate_left; clear_value x; rotate_right)
    | (lift_lets; intro x; clear_value x)
    | apply Frame.via (State.modCan_frame ..)
    | apply Frame.via (canCount_frame ..)
    | apply Frame.via (canLate_frame ..)
    | apply Frame.via (canOutcome_frame ..)
    | apply Frame.via (canRefill_frame ..)
    | apply Frame.via (canStopNow_frame ..)
    | apply Frame.via (complete_frame ..)
    | apply Frame.ite
    | split

theorem execCanTxComplete_frame (c : Fin 16) (o : CanOutcome) (n : CanCounters) (s : State) :
    Framed [.mbx, .log, .vz, .ch, .net, .sig, .free] s (execCanTxComplete c o n s) := by
  unfold execCanTxComplete
  with_reducible repeat' first
    | apply Framed.next
    | assumption
    | decide
    | apply Frame.refl
    | apply Frame.via (canComplete_frame ..)

theorem execCanIntegrationDone_frame (c : Fin 16) (s : State) :
    Framed [.vz, .net] s (execCanIntegrationDone c s) := by
  unfold execCanIntegrationDone
  with_reducible repeat' first
    | apply Framed.next
    | assumption
    | decide
    | apply Frame.refl
    | (lift_lets; intro x; apply Frame.cut x ?_ (fun _ => ?_); subst x; rotate_left; clear_value x; rotate_right)
    | (lift_lets; intro x; apply Frame.cut x.1 ?_ (fun _ => ?_); subst x; rotate_left; clear_value x; rotate_right)
    | (lift_lets; intro x; clear_value x)
    | apply Frame.via (State.modCan_frame ..)
    | apply Frame.via (nmAlive_frame ..)
    | apply Frame.ite

theorem execCanRecoveryDone_frame (c : Fin 16) (s : State) :
    Framed [.mbx, .log, .vz, .net] s (execCanRecoveryDone c s) := by
  unfold execCanRecoveryDone
  with_reducible repeat' first
    | apply Framed.next
    | assumption
    | decide
    | apply Frame.refl
    | apply Frame.via (State.modCan_frame ..)
    | apply Frame.via (canIntegrate_frame ..)
    | apply Frame.via (raiseCan_frame ..)
    | apply Frame.ite

theorem canBell1_frame (v c e : Nat) (s : State) :
    Frame [.vz, .net] s (canBell1 v c e s) := by
  unfold canBell1
  with_reducible repeat' first
    | assumption
    | decide
    | apply Frame.refl
    | (lift_lets; intro x; apply Frame.cut x ?_ (fun _ => ?_); subst x; rotate_left; clear_value x; rotate_right)
    | (lift_lets; intro x; apply Frame.cut x.1 ?_ (fun _ => ?_); subst x; rotate_left; clear_value x; rotate_right)
    | (lift_lets; intro x; clear_value x)
    | apply Frame.via (State.modCan_frame ..)
    | apply Frame.via (canFinish_frame ..)
    | apply Frame.via (canTake_frame ..)
    | apply Frame.ite

theorem canBell_frame (v c : Nat) (s : State) :
    Frame [.mbx, .log, .vz, .net, .bus] s (canBell v c s) := by
  unfold canBell
  with_reducible repeat' first
    | assumption
    | decide
    | apply Frame.refl
    | apply Frame.via (canBell1_frame ..)
    | apply Frame.via (windowFault_frame ..)
    | apply Frame.ite
    | apply Frame.foldl
    | apply Frame.foldl1
    | intro _

theorem execCanTxBellWrite_frame (v : Fin 256) (c : Fin 16) (s : State) :
    Framed [.mbx, .log, .vz, .net, .bus] s (execCanTxBellWrite v c s) := by
  unfold execCanTxBellWrite
  with_reducible repeat' first
    | apply Framed.next
    | assumption
    | decide
    | apply Frame.refl
    | apply Frame.via (canBell_frame ..)

theorem canCancelEntry_frame (c e : Nat) (s : State) :
    Frame [.vz, .net] s (canCancelEntry c e s).1 := by
  unfold canCancelEntry
  with_reducible repeat' first
    | assumption
    | decide
    | apply Frame.refl
    | (lift_lets; intro x; apply Frame.cut x ?_ (fun _ => ?_); subst x; rotate_left; clear_value x; rotate_right)
    | (lift_lets; intro x; apply Frame.cut x.1 ?_ (fun _ => ?_); subst x; rotate_left; clear_value x; rotate_right)
    | (lift_lets; intro x; clear_value x)
    | apply Frame.via (State.modCan_frame ..)
    | apply Frame.via (canFinish_frame ..)
    | apply Frame.ite
    | apply Frame.ite1

theorem canCancelWrite_frame (v c : Nat) (w : U32) (s : State) :
    Frame [.mbx, .log, .vz, .net, .bus] s (canCancelWrite v c w s) := by
  unfold canCancelWrite
  with_reducible repeat' first
    | assumption
    | decide
    | apply Frame.refl
    | apply Frame.via (canCancelEntry_frame ..)
    | apply Frame.via (windowFault_frame ..)
    | apply Frame.ite

theorem execCanTxCancelWrite_frame (v : Fin 256) (c : Fin 16) (value : U32) (s : State) :
    Framed [.mbx, .log, .vz, .net, .bus] s (execCanTxCancelWrite v c value s) := by
  unfold execCanTxCancelWrite
  with_reducible repeat' first
    | apply Framed.next
    | assumption
    | decide
    | apply Frame.refl
    | apply Frame.via (canCancelWrite_frame ..)

theorem canCtlWrite_frame (c : Nat) (rx : Bool) (e : Nat) (w : U32) (s : State) :
    Frame [.net] s (canCtlWrite c rx e w s) := by
  unfold canCtlWrite
  with_reducible repeat' first
    | assumption
    | decide
    | apply Frame.refl
    | (lift_lets; intro x; apply Frame.cut x ?_ (fun _ => ?_); subst x; rotate_left; clear_value x; rotate_right)
    | (lift_lets; intro x; apply Frame.cut x.1 ?_ (fun _ => ?_); subst x; rotate_left; clear_value x; rotate_right)
    | (lift_lets; intro x; clear_value x)
    | apply Frame.via (State.modCan_frame ..)
    | apply Frame.ite

theorem execCanEntryCtlWrite_frame (c : Fin 16) (rx : Bool) (e : Fin 512) (value : U32) (s : State) :
    Framed [.net] s (execCanEntryCtlWrite c rx e value s) := by
  unfold execCanEntryCtlWrite
  with_reducible repeat' first
    | apply Framed.next
    | assumption
    | decide
    | apply Frame.refl
    | apply Frame.via (canCtlWrite_frame ..)

theorem canLostRead_frame (v c : Nat) (s : State) :
    Frame [.mbx, .log, .vz, .net, .bus] s (canLostRead v c s) := by
  unfold canLostRead
  with_reducible repeat' first
    | assumption
    | decide
    | apply Frame.refl
    | apply Frame.via (State.modCan_frame ..)
    | apply Frame.via (windowFault_frame ..)
    | apply Frame.ite
    | split
    | apply Frame.set_bus

theorem execCanRxLostRead_frame (v : Fin 256) (c : Fin 16) (s : State) :
    Framed [.mbx, .log, .vz, .net, .bus] s (execCanRxLostRead v c s) := by
  unfold execCanRxLostRead
  with_reducible repeat' first
    | apply Framed.next
    | assumption
    | decide
    | apply Frame.refl
    | apply Frame.via (canLostRead_frame ..)

theorem tmForce_frame (c rank : Nat) (s : State) :
    Frame [.mbx, .log, .vz, .net] s (tmForce c rank s) := by
  unfold tmForce
  with_reducible repeat' first
    | assumption
    | decide
    | apply Frame.refl
    | (lift_lets; intro x; apply Frame.cut x ?_ (fun _ => ?_); subst x; rotate_left; clear_value x; rotate_right)
    | (lift_lets; intro x; apply Frame.cut x.1 ?_ (fun _ => ?_); subst x; rotate_left; clear_value x; rotate_right)
    | (lift_lets; intro x; clear_value x)
    | apply Frame.via (State.modCan_frame ..)
    | apply Frame.via (raiseCan_frame ..)
    | apply Frame.ite

theorem tmSend_frame (c : Nat) (s : State) :
    Frame [.mbx, .log, .tb, .vz, .net, .free] s (tmSend c s) := by
  unfold tmSend
  with_reducible repeat' first
    | assumption
    | decide
    | apply Frame.refl
    | (lift_lets; intro x; apply Frame.cut x ?_ (fun _ => ?_); subst x; rotate_left; clear_value x; rotate_right)
    | (lift_lets; intro x; apply Frame.cut x.1 ?_ (fun _ => ?_); subst x; rotate_left; clear_value x; rotate_right)
    | (lift_lets; intro x; clear_value x)
    | apply Frame.via (State.modCan_frame ..)
    | apply Frame.via (servo_frame ..)
    | apply Frame.via (tmForce_frame ..)
    | apply Frame.ite

theorem execTmReferenceSend_frame (c : Fin 16) (s : State) :
    Framed [.mbx, .log, .tb, .vz, .net, .free] s (execTmReferenceSend c s) := by
  unfold execTmReferenceSend
  with_reducible repeat' first
    | apply Framed.next
    | assumption
    | decide
    | apply Frame.refl
    | apply Frame.via (tmSend_frame ..)

theorem tmReceive_frame (c rank count : Nat) (sof : U64) (s : State) :
    Frame [.mbx, .log, .tb, .vz, .net, .free] s (tmReceive c rank count sof s) := by
  unfold tmReceive
  with_reducible repeat' first
    | assumption
    | decide
    | apply Frame.refl
    | (lift_lets; intro x; apply Frame.cut x ?_ (fun _ => ?_); subst x; rotate_left; clear_value x; rotate_right)
    | (lift_lets; intro x; apply Frame.cut x.1 ?_ (fun _ => ?_); subst x; rotate_left; clear_value x; rotate_right)
    | (lift_lets; intro x; clear_value x)
    | apply Frame.via (State.modCan_frame ..)
    | apply Frame.via (servo_frame ..)
    | apply Frame.via (tmForce_frame ..)
    | apply Frame.ite

theorem execTmReferenceReceived_frame (c : Fin 16) (rank : Fin 4) (count : Fin 64) (sof : U64) (s : State) :
    Framed [.mbx, .log, .tb, .vz, .net, .free] s (execTmReferenceReceived c rank count sof s) := by
  unfold execTmReferenceReceived
  with_reducible repeat' first
    | apply Framed.next
    | assumption
    | decide
    | apply Frame.refl
    | apply Frame.via (tmReceive_frame ..)

theorem tmMissing_frame (c : Nat) (s : State) :
    Frame [.mbx, .log, .vz, .net] s (tmMissing c s) := by
  unfold tmMissing
  with_reducible repeat' first
    | assumption
    | decide
    | apply Frame.refl
    | (lift_lets; intro x; apply Frame.cut x ?_ (fun _ => ?_); subst x; rotate_left; clear_value x; rotate_right)
    | (lift_lets; intro x; apply Frame.cut x.1 ?_ (fun _ => ?_); subst x; rotate_left; clear_value x; rotate_right)
    | (lift_lets; intro x; clear_value x)
    | apply Frame.via (State.modCan_frame ..)
    | apply Frame.via (raiseCan_frame ..)
    | apply Frame.ite

theorem execTmReferenceMissing_frame (c : Fin 16) (s : State) :
    Framed [.mbx, .log, .vz, .net] s (execTmReferenceMissing c s) := by
  unfold execTmReferenceMissing
  with_reducible repeat' first
    | apply Framed.next
    | assumption
    | decide
    | apply Frame.refl
    | apply Frame.via (tmMissing_frame ..)

theorem execCanWakeConfirmTimeout_frame (c : Fin 16) (s : State) :
    Framed [.net] s (execCanWakeConfirmTimeout c s) := by
  unfold execCanWakeConfirmTimeout
  with_reducible repeat' first
    | apply Framed.next
    | assumption
    | decide
    | apply Frame.refl
    | apply Frame.via (State.modCan_frame ..)
    | apply Frame.ite

theorem canConfigBody_frame (c : Nat) (f : CanRecord) (s : State) :
    Frame [.net] s (canConfigBody c f s).1 := by
  unfold canConfigBody
  with_reducible repeat' first
    | assumption
    | decide
    | apply Frame.refl
    | apply Frame.via (State.modCan_frame ..)
    | apply Frame.ite
    | apply Frame.ite1

theorem execCanConfig_frame (r : Req) (c : Byte) (f : CanRecord) (s : State) :
    Framed [.mbx, .vz, .net] s (execCanConfig r c f s) := by
  unfold execCanConfig
  with_reducible repeat' first
    | apply Framed.next
    | assumption
    | decide
    | apply Frame.refl
    | apply Frame.via (canConfigBody_frame ..)
    | apply runCmd_frame
    | apply Frame.ite
    | intro _

theorem canStartNow_frame (c : Nat) (s : State) :
    Frame [.mbx, .log, .vz, .net] s (canStartNow c s) := by
  unfold canStartNow
  with_reducible repeat' first
    | assumption
    | decide
    | apply Frame.refl
    | (lift_lets; intro x; apply Frame.cut x ?_ (fun _ => ?_); subst x; rotate_left; clear_value x; rotate_right)
    | (lift_lets; intro x; apply Frame.cut x.1 ?_ (fun _ => ?_); subst x; rotate_left; clear_value x; rotate_right)
    | (lift_lets; intro x; clear_value x)
    | apply Frame.via (State.modNm_frame ..)
    | apply Frame.via (canIntegrate_frame ..)
    | apply Frame.via (nmAwake_frame ..)
    | apply Frame.ite

theorem execCanStart_frame (r : Req) (c : Byte) (s : State) :
    Framed [.mbx, .log, .vz, .net] s (execCanStart r c s) := by
  unfold execCanStart
  with_reducible repeat' first
    | apply Framed.next
    | assumption
    | decide
    | apply Frame.refl
    | apply Frame.via (canStartNow_frame ..)
    | apply runCmd_frame
    | apply Frame.ite
    | intro _
    | split

theorem canStopBody_frame (r : Req) (c : Nat) (s : State) :
    Frame [.vz, .net] s (canStopBody r c s).1 := by
  unfold canStopBody
  with_reducible repeat' first
    | assumption
    | decide
    | apply Frame.refl
    | (lift_lets; intro x; apply Frame.cut x ?_ (fun _ => ?_); subst x; rotate_left; clear_value x; rotate_right)
    | (lift_lets; intro x; apply Frame.cut x.1 ?_ (fun _ => ?_); subst x; rotate_left; clear_value x; rotate_right)
    | (lift_lets; intro x; clear_value x)
    | apply Frame.via (State.modCan_frame ..)
    | apply Frame.via (canStopNow_frame ..)
    | apply Frame.ite
    | apply Frame.ite1

theorem execCanStop_frame (r : Req) (c : Byte) (s : State) :
    Framed [.mbx, .vz, .net] s (execCanStop r c s) := by
  unfold execCanStop
  with_reducible repeat' first
    | apply Framed.next
    | assumption
    | decide
    | apply Frame.refl
    | apply Frame.via (canStopBody_frame ..)
    | apply runCmd_frame
    | apply Frame.ite
    | intro _

theorem execCanRecover_frame (r : Req) (c : Byte) (s : State) :
    Framed [.mbx, .vz, .net] s (execCanRecover r c s) := by
  unfold execCanRecover
  with_reducible repeat' first
    | apply Framed.next
    | assumption
    | decide
    | apply Frame.refl
    | apply Frame.via (State.modCan_frame ..)
    | apply runCmd_frame
    | apply Frame.ite
    | intro _
    | split

theorem setFilterBody_frame (c k : Nat) (f : CanFilter) (s : State) :
    Frame [.net] s (setFilterBody c k f s).1 := by
  unfold setFilterBody
  with_reducible repeat' first
    | assumption
    | decide
    | apply Frame.refl
    | apply Frame.via (State.modCan_frame ..)
    | apply Frame.ite
    | apply Frame.ite1

theorem execCanSetFilter_frame (r : Req) (c filter flags : Byte) (id mask : U32) (s : State) :
    Framed [.mbx, .vz, .net] s (execCanSetFilter r c filter flags id mask s) := by
  unfold execCanSetFilter
  with_reducible repeat' first
    | apply Framed.next
    | assumption
    | decide
    | apply Frame.refl
    | apply runCmd_frame
    | apply Frame.via (setFilterBody_frame ..)
    | apply Frame.ite
    | intro _

theorem execCanSetSieve_frame (r : Req) (c dlc flags : Byte) (id mask : U32) (dataMask : U64) (s : State) :
    Framed [.mbx, .vz, .net] s (execCanSetSieve r c dlc flags id mask dataMask s) := by
  unfold execCanSetSieve
  with_reducible repeat' first
    | apply Framed.next
    | assumption
    | decide
    | apply Frame.refl
    | apply Frame.via (State.modCan_frame ..)
    | apply runCmd_frame
    | apply Frame.ite
    | intro _

theorem execCanCancel_frame (r : Req) (c entry : Byte) (s : State) :
    Framed [.mbx, .vz, .net] s (execCanCancel r c entry s) := by
  unfold execCanCancel
  with_reducible repeat' first
    | apply Framed.next
    | assumption
    | decide
    | apply Frame.refl
    | apply Frame.via (canCancelEntry_frame ..)
    | apply runCmd_frame
    | apply Frame.ite
    | intro _
    | split

theorem tmConfigBody_frame (c role rank view base cycle maxCount : Nat) (s : State) :
    Frame [.net] s (tmConfigBody c role rank view base cycle maxCount s).1 := by
  unfold tmConfigBody
  with_reducible repeat' first
    | assumption
    | decide
    | apply Frame.refl
    | (lift_lets; intro x; apply Frame.cut x ?_ (fun _ => ?_); subst x; rotate_left; clear_value x; rotate_right)
    | (lift_lets; intro x; apply Frame.cut x.1 ?_ (fun _ => ?_); subst x; rotate_left; clear_value x; rotate_right)
    | (lift_lets; intro x; clear_value x)
    | apply Frame.via (State.modCan_frame ..)
    | apply Frame.ite
    | apply Frame.ite1

theorem execCanTimeMaster_frame (r : Req) (c role rank view : Byte) (base cycle : U16) (maxCount : Byte) (s : State) :
    Framed [.mbx, .vz, .net] s (execCanTimeMaster r c role rank view base cycle maxCount s) := by
  unfold execCanTimeMaster
  with_reducible repeat' first
    | apply Framed.next
    | assumption
    | decide
    | apply Frame.refl
    | apply runCmd_frame
    | apply Frame.via (tmConfigBody_frame ..)
    | apply Frame.ite
    | intro _

theorem execCanGetStatus_frame (r : Req) (c : Byte) (s : State) :
    Framed [.mbx, .vz, .net] s (execCanGetStatus r c s) := by
  unfold execCanGetStatus
  with_reducible repeat' first
    | apply Framed.next
    | assumption
    | decide
    | apply Frame.refl
    | apply Frame.via (State.modCan_frame ..)
    | apply runCmd_frame
    | apply Frame.ite
    | intro _

theorem execCanStats_frame (r : Req) (c clear : Byte) (s : State) :
    Framed [.mbx, .vz, .net] s (execCanStats r c clear s) := by
  unfold execCanStats
  with_reducible repeat' first
    | apply Framed.next
    | assumption
    | decide
    | apply Frame.refl
    | apply Frame.via (State.modCan_frame ..)
    | apply runCmd_frame
    | apply Frame.ite
    | intro _

theorem canConfigure_frame (c : Nat) (f : CanRecord) (s : State) :
    Frame [.mbx, .log, .vz, .net] s (canConfigure c f s) := by
  unfold canConfigure
  with_reducible repeat' first
    | assumption
    | decide
    | apply Frame.refl
    | (lift_lets; intro x; apply Frame.cut x ?_ (fun _ => ?_); subst x; rotate_left; clear_value x; rotate_right)
    | (lift_lets; intro x; apply Frame.cut x.1 ?_ (fun _ => ?_); subst x; rotate_left; clear_value x; rotate_right)
    | (lift_lets; intro x; clear_value x)
    | apply Frame.via (State.modCan_frame ..)
    | apply Frame.via (canStartNow_frame ..)
    | apply Frame.via (raiseCan_frame ..)
    | apply Frame.ite

theorem canQuiesce_frame (c : Nat) (s : State) :
    Frame [.net] s (canQuiesce c s) := by
  unfold canQuiesce
  with_reducible repeat' first
    | assumption
    | decide
    | apply Frame.refl
    | apply Frame.via (State.modCan_frame ..)

theorem canZero_frame (v c : Nat) (s : State) :
    Frame [.net] s (canZero v c s) := by
  unfold canZero
  with_reducible repeat' first
    | assumption
    | decide
    | apply Frame.refl
    | (lift_lets; intro x; apply Frame.cut x ?_ (fun _ => ?_); subst x; rotate_left; clear_value x; rotate_right)
    | (lift_lets; intro x; apply Frame.cut x.1 ?_ (fun _ => ?_); subst x; rotate_left; clear_value x; rotate_right)
    | (lift_lets; intro x; clear_value x)
    | apply Frame.via (State.modCan_frame ..)
    | apply Frame.via (State.modNm_frame ..)

end Sys2Proof.Machine

end
end

