-- ==== Sys2Proof/Laws/Frames/Lin.lean ====
section
/-! SUPPORT. The frame of each function of `Machine/Lin.lean`: the parts of the state it may change. -/

section

set_option Elab.async false

namespace Sys2Proof.Machine

theorem linConfigure_frame (l : Nat) (f : LinRecord) (s : State) :
    Frame [.net] s (linConfigure l f s) := by
  unfold linConfigure
  with_reducible repeat' first
    | assumption
    | decide
    | apply Frame.refl
    | (lift_lets; intro x; apply Frame.cut x ?_ (fun _ => ?_); subst x; rotate_left; clear_value x; rotate_right)
    | (lift_lets; intro x; apply Frame.cut x.1 ?_ (fun _ => ?_); subst x; rotate_left; clear_value x; rotate_right)
    | (lift_lets; intro x; clear_value x)
    | apply Frame.via (State.modLin_frame ..)

theorem raiseLin_frame (k : EvKind) (l : Nat) (data : List Byte) (s : State) :
    Frame [.mbx, .log, .vz] s (raiseLin k l data s) := by
  unfold raiseLin
  with_reducible repeat' first
    | assumption
    | decide
    | apply Frame.refl
    | apply Frame.via (raise_frame ..)

theorem linHeader_frame (l : Nat) (t : LinSlot) (s : State) :
    Frame [.net] s (linHeader l t s) := by
  unfold linHeader
  with_reducible repeat' first
    | assumption
    | decide
    | apply Frame.refl
    | apply Frame.via (State.modLin_frame ..)

theorem linEntry_frame (l : Nat) (e : LinEntry) (s : State) :
    Frame [.net] s (linEntry l e s) := by
  unfold linEntry
  with_reducible repeat' first
    | assumption
    | decide
    | apply Frame.refl
    | (lift_lets; intro x; apply Frame.cut x ?_ (fun _ => ?_); subst x; rotate_left; clear_value x; rotate_right)
    | (lift_lets; intro x; apply Frame.cut x.1 ?_ (fun _ => ?_); subst x; rotate_left; clear_value x; rotate_right)
    | (lift_lets; intro x; clear_value x)
    | apply Frame.via (State.modLin_frame ..)
    | apply Frame.via (linHeader_frame ..)
    | apply Frame.ite
    | split

theorem linNext_frame (l : Nat) (s : State) :
    Frame [.net] s (linNext l s) := by
  unfold linNext
  with_reducible repeat' first
    | assumption
    | decide
    | apply Frame.refl
    | (lift_lets; intro x; apply Frame.cut x ?_ (fun _ => ?_); subst x; rotate_left; clear_value x; rotate_right)
    | (lift_lets; intro x; apply Frame.cut x.1 ?_ (fun _ => ?_); subst x; rotate_left; clear_value x; rotate_right)
    | (lift_lets; intro x; clear_value x)
    | apply Frame.via (State.modLin_frame ..)
    | apply Frame.via (linEntry_frame ..)
    | apply Frame.ite
    | split

theorem linDiagHeader_frame (l : Nat) (d : LinDiag) (s : State) :
    Frame [.net] s (linDiagHeader l d s) := by
  unfold linDiagHeader
  with_reducible repeat' first
    | assumption
    | decide
    | apply Frame.refl
    | (lift_lets; intro x; apply Frame.cut x ?_ (fun _ => ?_); subst x; rotate_left; clear_value x; rotate_right)
    | (lift_lets; intro x; apply Frame.cut x.1 ?_ (fun _ => ?_); subst x; rotate_left; clear_value x; rotate_right)
    | (lift_lets; intro x; clear_value x)
    | apply Frame.via (State.modLin_frame ..)
    | apply Frame.via (linHeader_frame ..)

theorem linSlot_frame (l : Nat) (s : State) :
    Frame [.net] s (linSlot l s) := by
  unfold linSlot
  with_reducible repeat' first
    | assumption
    | decide
    | apply Frame.refl
    | (lift_lets; intro x; apply Frame.cut x ?_ (fun _ => ?_); subst x; rotate_left; clear_value x; rotate_right)
    | (lift_lets; intro x; apply Frame.cut x.1 ?_ (fun _ => ?_); subst x; rotate_left; clear_value x; rotate_right)
    | (lift_lets; intro x; clear_value x)
    | apply Frame.via (State.modLin_frame ..)
    | apply Frame.via (linDiagHeader_frame ..)
    | apply Frame.via (linHeader_frame ..)
    | apply Frame.via (linNext_frame ..)
    | apply Frame.ite
    | split

theorem execLinSlotStart_frame (l : Fin 16) (s : State) :
    Framed [.net] s (execLinSlotStart l s) := by
  unfold execLinSlotStart
  with_reducible repeat' first
    | apply Framed.next
    | assumption
    | decide
    | apply Frame.refl
    | apply Frame.via (linSlot_frame ..)

theorem linStore_frame (l : Nat) (e : LinRx) (s : State) :
    Frame [.mbx, .log, .vz, .net] s (linStore l e s) := by
  unfold linStore
  with_reducible repeat' first
    | assumption
    | decide
    | apply Frame.refl
    | (lift_lets; intro x; apply Frame.cut x ?_ (fun _ => ?_); subst x; rotate_left; clear_value x; rotate_right)
    | (lift_lets; intro x; apply Frame.cut x.1 ?_ (fun _ => ?_); subst x; rotate_left; clear_value x; rotate_right)
    | (lift_lets; intro x; clear_value x)
    | apply Frame.via (State.modLin_frame ..)
    | apply Frame.via (State.raiseSrc_frame ..)
    | apply Frame.via (raiseLin_frame ..)
    | apply Frame.ite

theorem linResponse_frame (l id result : Nat) (s : State) :
    Frame [.mbx, .log, .vz, .net] s (linResponse l id result s) := by
  unfold linResponse
  with_reducible repeat' first
    | assumption
    | decide
    | apply Frame.refl
    | (lift_lets; intro x; apply Frame.cut x ?_ (fun _ => ?_); subst x; rotate_left; clear_value x; rotate_right)
    | (lift_lets; intro x; apply Frame.cut x.1 ?_ (fun _ => ?_); subst x; rotate_left; clear_value x; rotate_right)
    | (lift_lets; intro x; clear_value x)
    | apply Frame.via (State.modLin_frame ..)
    | apply Frame.via (raiseLin_frame ..)
    | apply Frame.ite

theorem linEnd_frame (l result : Nat) (data : List Byte) (s : State) :
    Frame [.mbx, .log, .vz, .net, .sig] s (linEnd l result data s) := by
  unfold linEnd
  with_reducible repeat' first
    | assumption
    | decide
    | apply Frame.refl
    | (lift_lets; intro x; apply Frame.cut x ?_ (fun _ => ?_); subst x; rotate_left; clear_value x; rotate_right)
    | (lift_lets; intro x; apply Frame.cut x.1 ?_ (fun _ => ?_); subst x; rotate_left; clear_value x; rotate_right)
    | (lift_lets; intro x; clear_value x)
    | apply Frame.via (State.modLin_frame ..)
    | apply Frame.via (arriveAll_frame ..)
    | apply Frame.via (linResponse_frame ..)
    | apply Frame.via (linStore_frame ..)
    | apply Frame.ite
    | split

theorem execLinFrameEnd_frame (l : Fin 16) (result : Fin 6) (data : List Byte) (s : State) :
    Framed [.mbx, .log, .vz, .net, .sig] s (execLinFrameEnd l result data s) := by
  unfold execLinFrameEnd
  with_reducible repeat' first
    | apply Framed.next
    | assumption
    | decide
    | apply Frame.refl
    | apply Frame.via (linEnd_frame ..)

theorem execLinRxOverrunEnd_frame (l : Fin 16) (s : State) :
    Framed [.net] s (execLinRxOverrunEnd l s) := by
  unfold execLinRxOverrunEnd
  with_reducible repeat' first
    | apply Framed.next
    | assumption
    | decide
    | apply Frame.refl
    | apply Frame.via (State.modLin_frame ..)

theorem linStart_frame (l : Nat) (s : State) :
    Frame [.net] s (linStart l s) := by
  unfold linStart
  with_reducible repeat' first
    | assumption
    | decide
    | apply Frame.refl
    | apply Frame.via (State.modLin_frame ..)

theorem execLinWakeScheduleStart_frame (l : Fin 16) (s : State) :
    Framed [.net] s (execLinWakeScheduleStart l s) := by
  unfold execLinWakeScheduleStart
  with_reducible repeat' first
    | apply Framed.next
    | assumption
    | decide
    | apply Frame.refl
    | apply Frame.via (linStart_frame ..)
    | apply Frame.ite

theorem execLinResponderWake_frame (l : Fin 16) (s : State) :
    Framed [.mbx, .log, .vz, .net] s (execLinResponderWake l s) := by
  unfold execLinResponderWake
  with_reducible repeat' first
    | apply Framed.next
    | assumption
    | decide
    | apply Frame.refl
    | (lift_lets; intro x; apply Frame.cut x ?_ (fun _ => ?_); subst x; rotate_left; clear_value x; rotate_right)
    | (lift_lets; intro x; apply Frame.cut x.1 ?_ (fun _ => ?_); subst x; rotate_left; clear_value x; rotate_right)
    | (lift_lets; intro x; clear_value x)
    | apply Frame.via (State.modLin_frame ..)
    | apply Frame.via (raiseLin_frame ..)
    | apply Frame.ite

theorem linFault_frame (l : Nat) (s : State) :
    Frame [.mbx, .log, .vz, .net] s (linFault l s) := by
  unfold linFault
  with_reducible repeat' first
    | assumption
    | decide
    | apply Frame.refl
    | (lift_lets; intro x; apply Frame.cut x ?_ (fun _ => ?_); subst x; rotate_left; clear_value x; rotate_right)
    | (lift_lets; intro x; apply Frame.cut x.1 ?_ (fun _ => ?_); subst x; rotate_left; clear_value x; rotate_right)
    | (lift_lets; intro x; clear_value x)
    | apply Frame.via (State.modLin_frame ..)
    | apply Frame.via (raiseLin_frame ..)
    | apply Frame.ite

theorem execLinBusFault_frame (l : Fin 16) (s : State) :
    Framed [.mbx, .log, .vz, .net] s (execLinBusFault l s) := by
  unfold execLinBusFault
  with_reducible repeat' first
    | apply Framed.next
    | assumption
    | decide
    | apply Frame.refl
    | apply Frame.via (linFault_frame ..)

theorem execLinBusFaultEnd_frame (l : Fin 16) (s : State) :
    Framed [.mbx, .log, .vz, .net] s (execLinBusFaultEnd l s) := by
  unfold execLinBusFaultEnd
  with_reducible repeat' first
    | apply Framed.next
    | assumption
    | decide
    | apply Frame.refl
    | apply Frame.via (linStart_frame ..)
    | apply Frame.via (raiseLin_frame ..)
    | apply Frame.ite

theorem linLostRead_frame (v l : Nat) (s : State) :
    Frame [.mbx, .log, .vz, .net, .bus] s (linLostRead v l s) := by
  unfold linLostRead
  with_reducible repeat' first
    | assumption
    | decide
    | apply Frame.refl
    | apply Frame.via (State.modLin_frame ..)
    | apply Frame.via (windowFault_frame ..)
    | apply Frame.ite
    | split
    | apply Frame.set_bus

theorem execLinRxLostRead_frame (v : Fin 256) (l : Fin 16) (s : State) :
    Framed [.mbx, .log, .vz, .net, .bus] s (execLinRxLostRead v l s) := by
  unfold execLinRxLostRead
  with_reducible repeat' first
    | apply Framed.next
    | assumption
    | decide
    | apply Frame.refl
    | apply Frame.via (linLostRead_frame ..)

theorem execLinConfig_frame (r : Req) (l : Byte) (f : LinRecord) (s : State) :
    Framed [.mbx, .vz, .net] s (execLinConfig r l f s) := by
  unfold execLinConfig
  with_reducible repeat' first
    | apply Framed.next
    | assumption
    | decide
    | apply Frame.refl
    | apply Frame.via (State.modLin_frame ..)
    | apply runCmd_frame
    | apply Frame.ite
    | intro _
    | split

theorem loadScheduleBody_frame (l t : Nat) (es : List LinEntry) (s : State) :
    Frame [.net] s (loadScheduleBody l t es s).1 := by
  unfold loadScheduleBody
  with_reducible repeat' first
    | assumption
    | decide
    | apply Frame.refl
    | (lift_lets; intro x; apply Frame.cut x ?_ (fun _ => ?_); subst x; rotate_left; clear_value x; rotate_right)
    | (lift_lets; intro x; apply Frame.cut x.1 ?_ (fun _ => ?_); subst x; rotate_left; clear_value x; rotate_right)
    | (lift_lets; intro x; clear_value x)
    | apply Frame.via (State.modLin_frame ..)
    | apply Frame.ite
    | apply Frame.ite1

theorem execLinLoadSchedule_frame (r : Req) (l table : Byte) (n : U16) (entries : List LinEntry) (s : State) :
    Framed [.mbx, .vz, .net] s (execLinLoadSchedule r l table n entries s) := by
  unfold execLinLoadSchedule
  with_reducible repeat' first
    | apply Framed.next
    | assumption
    | decide
    | apply Frame.refl
    | apply Frame.via (loadScheduleBody_frame ..)
    | apply runCmd_frame
    | apply Frame.ite
    | intro _

theorem selectBody_frame (l t : Nat) (s : State) :
    Frame [.net] s (selectBody l t s).1 := by
  unfold selectBody
  with_reducible repeat' first
    | assumption
    | decide
    | apply Frame.refl
    | (lift_lets; intro x; apply Frame.cut x ?_ (fun _ => ?_); subst x; rotate_left; clear_value x; rotate_right)
    | (lift_lets; intro x; apply Frame.cut x.1 ?_ (fun _ => ?_); subst x; rotate_left; clear_value x; rotate_right)
    | (lift_lets; intro x; clear_value x)
    | apply Frame.via (State.modLin_frame ..)
    | apply Frame.via (linStart_frame ..)
    | apply Frame.ite
    | apply Frame.ite1

theorem execLinSelectSchedule_frame (r : Req) (l table : Byte) (s : State) :
    Framed [.mbx, .vz, .net] s (execLinSelectSchedule r l table s) := by
  unfold execLinSelectSchedule
  with_reducible repeat' first
    | apply Framed.next
    | assumption
    | decide
    | apply Frame.refl
    | apply runCmd_frame
    | apply Frame.via (selectBody_frame ..)
    | apply Frame.ite
    | intro _

theorem execLinWake_frame (r : Req) (l : Byte) (s : State) :
    Framed [.mbx, .vz, .net] s (execLinWake r l s) := by
  unfold execLinWake
  with_reducible repeat' first
    | apply Framed.next
    | assumption
    | decide
    | apply Frame.refl
    | apply Frame.via (State.modLin_frame ..)
    | apply runCmd_frame
    | apply Frame.ite
    | intro _
    | split

theorem sleepBody_frame (l : Nat) (s : State) :
    Frame [.net] s (sleepBody l s).1 := by
  unfold sleepBody
  with_reducible repeat' first
    | assumption
    | decide
    | apply Frame.refl
    | (lift_lets; intro x; apply Frame.cut x ?_ (fun _ => ?_); subst x; rotate_left; clear_value x; rotate_right)
    | (lift_lets; intro x; apply Frame.cut x.1 ?_ (fun _ => ?_); subst x; rotate_left; clear_value x; rotate_right)
    | (lift_lets; intro x; clear_value x)
    | apply Frame.via (State.modLin_frame ..)
    | apply Frame.via (linHeader_frame ..)
    | apply Frame.ite
    | apply Frame.ite1

theorem execLinSleep_frame (r : Req) (l : Byte) (s : State) :
    Framed [.mbx, .vz, .net] s (execLinSleep r l s) := by
  unfold execLinSleep
  with_reducible repeat' first
    | apply Framed.next
    | assumption
    | decide
    | apply Frame.refl
    | apply runCmd_frame
    | apply Frame.via (sleepBody_frame ..)
    | apply Frame.ite
    | intro _

theorem diagBody_frame (r : Req) (l wanted : Nat) (data : U64) (s : State) :
    Frame [.net] s (diagBody r l wanted data s).1 := by
  unfold diagBody
  with_reducible repeat' first
    | assumption
    | decide
    | apply Frame.refl
    | (lift_lets; intro x; apply Frame.cut x ?_ (fun _ => ?_); subst x; rotate_left; clear_value x; rotate_right)
    | (lift_lets; intro x; apply Frame.cut x.1 ?_ (fun _ => ?_); subst x; rotate_left; clear_value x; rotate_right)
    | (lift_lets; intro x; clear_value x)
    | apply Frame.via (State.modLin_frame ..)
    | apply Frame.ite
    | apply Frame.ite1

theorem execLinDiag_frame (r : Req) (l wanted : Byte) (data : U64) (s : State) :
    Framed [.mbx, .vz, .net] s (execLinDiag r l wanted data s) := by
  unfold execLinDiag
  with_reducible repeat' first
    | apply Framed.next
    | assumption
    | decide
    | apply Frame.refl
    | apply Frame.via (diagBody_frame ..)
    | apply runCmd_frame
    | apply Frame.ite
    | intro _

theorem diagDone_frame (l : Nat) (s : State) :
    Frame [.mbx, .vz, .net] s (diagDone l s) := by
  unfold diagDone
  with_reducible repeat' first
    | assumption
    | decide
    | apply Frame.refl
    | (lift_lets; intro x; apply Frame.cut x ?_ (fun _ => ?_); subst x; rotate_left; clear_value x; rotate_right)
    | (lift_lets; intro x; apply Frame.cut x.1 ?_ (fun _ => ?_); subst x; rotate_left; clear_value x; rotate_right)
    | (lift_lets; intro x; clear_value x)
    | apply Frame.via (State.modLin_frame ..)
    | apply Frame.via (complete_frame ..)
    | apply Frame.ite
    | split

theorem execLinDiagDone_frame (l : Fin 16) (s : State) :
    Framed [.mbx, .vz, .net] s (execLinDiagDone l s) := by
  unfold execLinDiagDone
  with_reducible repeat' first
    | apply Framed.next
    | assumption
    | decide
    | apply Frame.refl
    | apply Frame.via (diagDone_frame ..)

theorem execLinGetStatus_frame (r : Req) (l : Byte) (s : State) :
    Framed [.mbx, .vz] s (execLinGetStatus r l s) := by
  unfold execLinGetStatus
  with_reducible repeat' first
    | apply Framed.next
    | assumption
    | decide
    | apply Frame.refl
    | apply runCmd_frame
    | apply Frame.ite
    | intro _

theorem linZero_frame (l : Nat) (s : State) :
    Frame [.net] s (linZero l s) := by
  unfold linZero
  with_reducible repeat' first
    | assumption
    | decide
    | apply Frame.refl
    | apply Frame.via (State.modLin_frame ..)

end Sys2Proof.Machine

end
end

