-- ==== Sys2Proof/Laws/Frames/Reflex.lean ====
section
/-! SUPPORT. The frame of each function of `Machine/Reflex.lean`: the parts of the state it may change. -/

section

set_option Elab.async false

namespace Sys2Proof.Machine

theorem State.modRule_frame (s : State) (n : Nat) (f : RuleRun → RuleRun) :
    Frame [.rfx] s (State.modRule s n f) := by
  unfold State.modRule
  with_reducible repeat' first
    | assumption
    | decide
    | apply Frame.refl
    | apply Frame.ite
    | split
    | apply Frame.set_rfx

theorem firedEvent_frame (n : Nat) (s : State) :
    Frame [.mbx, .log, .vz, .rfx] s (firedEvent n s) := by
  unfold firedEvent
  with_reducible repeat' first
    | assumption
    | decide
    | apply Frame.refl
    | (lift_lets; intro x; apply Frame.cut x ?_ (fun _ => ?_); subst x; rotate_left; clear_value x; rotate_right)
    | (lift_lets; intro x; apply Frame.cut x.1 ?_ (fun _ => ?_); subst x; rotate_left; clear_value x; rotate_right)
    | (lift_lets; intro x; clear_value x)
    | apply Frame.via (State.modRule_frame ..)
    | apply Frame.via (raise_frame ..)
    | apply Frame.ite

theorem afterFire_frame (n : Nat) (s : State) :
    Frame [.sys, .mbx, .log, .tb, .vz, .cfg, .ch, .rfx, .twin, .brg, .fio, .upd] s (afterFire n s) := by
  unfold afterFire
  with_reducible repeat' first
    | assumption
    | decide
    | apply Frame.refl
    | (lift_lets; intro x; apply Frame.cut x ?_ (fun _ => ?_); subst x; rotate_left; clear_value x; rotate_right)
    | (lift_lets; intro x; apply Frame.cut x.1 ?_ (fun _ => ?_); subst x; rotate_left; clear_value x; rotate_right)
    | (lift_lets; intro x; clear_value x)
    | apply Frame.via (firedEvent_frame ..)
    | apply Frame.via (selfArrest_frame ..)
    | apply Frame.ite

theorem applyMerge_frame (s : State) :
    Frame [.ch] s (applyMerge s) := by
  unfold applyMerge
  with_reducible repeat' first
    | assumption
    | decide
    | apply Frame.refl
    | (lift_lets; intro x; apply Frame.cut x ?_ (fun _ => ?_); subst x; rotate_left; clear_value x; rotate_right)
    | (lift_lets; intro x; apply Frame.cut x.1 ?_ (fun _ => ?_); subst x; rotate_left; clear_value x; rotate_right)
    | (lift_lets; intro x; clear_value x)
    | apply Frame.via (urgent_frame ..)
    | apply Frame.ite
    | apply Frame.foldl
    | apply Frame.foldl1
    | intro _
    | split
    | apply Frame.set_ch

theorem evalCycle_frame (s : State) :
    Frame [.sys, .mbx, .log, .tb, .vz, .cfg, .ch, .rfx, .twin, .brg, .fio, .upd] s (evalCycle s) := by
  unfold evalCycle
  with_reducible repeat' first
    | assumption
    | decide
    | apply Frame.refl
    | (lift_lets; intro x; apply Frame.cut x ?_ (fun _ => ?_); subst x; rotate_left; clear_value x; rotate_right)
    | (lift_lets; intro x; apply Frame.cut x.1 ?_ (fun _ => ?_); subst x; rotate_left; clear_value x; rotate_right)
    | (lift_lets; intro x; clear_value x)
    | apply Frame.via (afterFire_frame ..)
    | apply Frame.via (applyMerge_frame ..)
    | apply Frame.via (raise_frame ..)
    | apply Frame.ite
    | apply Frame.foldl
    | apply Frame.foldl1
    | intro _
    | split
    | apply Frame.set_rfx

theorem evalRules_frame (s : State) :
    Frame [.sys, .mbx, .log, .tb, .vz, .cfg, .ch, .rfx, .twin, .brg, .fio, .upd] s (evalRules s) := by
  unfold evalRules
  with_reducible repeat' first
    | assumption
    | decide
    | apply Frame.refl
    | apply Frame.via (evalCycle_frame ..)
    | apply Frame.ite

theorem closeShortEdges_frame (s : State) :
    Frame [.rfx] s (closeShortEdges s) := by
  unfold closeShortEdges
  with_reducible repeat' first
    | assumption
    | decide
    | apply Frame.refl
    | apply Frame.ite
    | split
    | apply Frame.set_rfx

theorem openEdges_frame (n : Nat) (old new : DiVal) (s : State) :
    Frame [.rfx] s (openEdges n old new s) := by
  unfold openEdges
  with_reducible repeat' first
    | assumption
    | decide
    | apply Frame.refl
    | apply Frame.ite
    | split
    | apply Frame.set_rfx

theorem evalAtDi_frame (n : Nat) (old new : DiVal) (s : State) :
    Frame [.sys, .mbx, .log, .tb, .vz, .cfg, .ch, .rfx, .twin, .brg, .fio, .upd] s (evalAtDi n old new s) := by
  unfold evalAtDi
  with_reducible repeat' first
    | assumption
    | decide
    | apply Frame.refl
    | apply Frame.via (closeShortEdges_frame ..)
    | apply Frame.via (evalRules_frame ..)
    | apply Frame.via (openEdges_frame ..)

end Sys2Proof.Machine

end
end

