-- ==== Sys2Proof/Laws/Frames/SignalRows.lean ====
section
/-! SUPPORT. The frame of each function of `Machine/SignalRows.lean`: the parts of the state it may change. -/

section

set_option Elab.async false

namespace Sys2Proof.Machine

theorem startSubst_frame (i : Nat) (d : SigDesc) (s : State) :
    Frame [.mbx, .log, .vz, .sig] s (startSubst i d s) := by
  unfold startSubst
  with_reducible repeat' first
    | assumption
    | decide
    | apply Frame.refl
    | (lift_lets; intro x; apply Frame.cut x ?_ (fun _ => ?_); subst x; rotate_left; clear_value x; rotate_right)
    | (lift_lets; intro x; apply Frame.cut x.1 ?_ (fun _ => ?_); subst x; rotate_left; clear_value x; rotate_right)
    | (lift_lets; intro x; clear_value x)
    | apply Frame.via (emit_frame ..)
    | apply Frame.via (offer_frame ..)
    | apply Frame.via (runSignal_frame ..)
    | apply Frame.ite
    | split
    | dsimp only

theorem sigBegin_frame (s : State) :
    Frame [.mbx, .log, .vz, .ch, .net, .sig, .free] s (sigBegin s) := by
  unfold sigBegin
  with_reducible repeat' first
    | assumption
    | decide
    | apply Frame.refl
    | apply Frame.via (flushSinks_frame ..)
    | apply Frame.via (startSubst_frame ..)
    | apply Frame.ite
    | apply Frame.foldl
    | apply Frame.foldl1
    | intro _
    | split
    | dsimp only

theorem sigConfigure_frame (s : State) :
    Frame [.sig] s (sigConfigure s) := by
  unfold sigConfigure
  with_reducible repeat' first
    | assumption
    | decide
    | apply Frame.refl
    | (lift_lets; intro x; apply Frame.cut x ?_ (fun _ => ?_); subst x; rotate_left; clear_value x; rotate_right)
    | (lift_lets; intro x; apply Frame.cut x.1 ?_ (fun _ => ?_); subst x; rotate_left; clear_value x; rotate_right)
    | (lift_lets; intro x; clear_value x)
    | apply Frame.ite
    | split
    | apply Frame.set_sig

theorem setSlot_frame (v k : Nat) (lo hi : U32) (s : State) :
    Frame [.sig] s (setSlot v k lo hi s) := by
  unfold setSlot
  with_reducible repeat' first
    | assumption
    | decide
    | apply Frame.refl
    | apply Frame.via (State.modSig_frame ..)

theorem slotUpdate_frame (v k : Nat) (s : State) :
    Frame [.mbx, .log, .vz, .sig] s (slotUpdate v k s) := by
  unfold slotUpdate
  with_reducible repeat' first
    | assumption
    | decide
    | apply Frame.refl
    | (lift_lets; intro x; apply Frame.cut x ?_ (fun _ => ?_); subst x; rotate_left; clear_value x; rotate_right)
    | (lift_lets; intro x; apply Frame.cut x.1 ?_ (fun _ => ?_); subst x; rotate_left; clear_value x; rotate_right)
    | (lift_lets; intro x; clear_value x)
    | apply Frame.via (sigArrive_frame ..)
    | apply Frame.ite
    | apply Frame.foldl
    | apply Frame.foldl1
    | intro _

theorem slotWriteLo_frame (v k : Nat) (w : U32) (s : State) :
    Frame [.mbx, .log, .vz, .sig, .bus] s (slotWriteLo v k w s) := by
  unfold slotWriteLo
  with_reducible repeat' first
    | assumption
    | decide
    | apply Frame.refl
    | apply Frame.via (setSlot_frame ..)
    | apply Frame.via (slotUpdate_frame ..)
    | apply Frame.via (windowFault_frame ..)
    | apply Frame.ite

theorem slotRead_frame (v k : Nat) (s : State) :
    Frame [.mbx, .log, .vz, .sig, .bus] s (slotRead v k s) := by
  unfold slotRead
  with_reducible repeat' first
    | assumption
    | decide
    | apply Frame.refl
    | (lift_lets; intro x; apply Frame.cut x ?_ (fun _ => ?_); subst x; rotate_left; clear_value x; rotate_right)
    | (lift_lets; intro x; apply Frame.cut x.1 ?_ (fun _ => ?_); subst x; rotate_left; clear_value x; rotate_right)
    | (lift_lets; intro x; clear_value x)
    | apply Frame.via (State.modSig_frame ..)
    | apply Frame.via (windowFault_frame ..)
    | apply Frame.ite
    | split
    | apply Frame.set_bus

theorem pipeRun_frame (k : Nat) (s : State) :
    Frame [.mbx, .log, .vz, .ch, .net, .sig, .free] s (pipeRun k s) := by
  unfold pipeRun
  with_reducible repeat' first
    | assumption
    | decide
    | apply Frame.refl
    | (lift_lets; intro x; apply Frame.cut x ?_ (fun _ => ?_); subst x; rotate_left; clear_value x; rotate_right)
    | (lift_lets; intro x; apply Frame.cut x.1 ?_ (fun _ => ?_); subst x; rotate_left; clear_value x; rotate_right)
    | (lift_lets; intro x; clear_value x)
    | apply Frame.via (State.modSig_frame ..)
    | apply Frame.via (runEvent_frame ..)
    | apply Frame.ite
    | split

theorem brgArrive_frame (k : Nat) (m : BrgMeasure) (s : State) :
    Frame [.mbx, .log, .vz, .sig] s (brgArrive k m s) := by
  unfold brgArrive
  with_reducible repeat' first
    | assumption
    | decide
    | apply Frame.refl
    | apply Frame.via (sigArrive_frame ..)
    | apply Frame.ite
    | apply Frame.foldl
    | apply Frame.foldl1
    | intro _

theorem execSourcePduUpdate_frame (pipe : Fin 4) (brg : Option BrgMeasure) (s : State) :
    Framed [.sys, .mbx, .log, .tb, .vz, .cfg, .ch, .rfx, .twin, .brg, .fio, .net, .sig, .upd, .free] s (execSourcePduUpdate pipe brg s) := by
  unfold execSourcePduUpdate
  with_reducible repeat' first
    | apply Framed.next
    | assumption
    | decide
    | apply Frame.refl
    | (lift_lets; intro x; apply Frame.cut x ?_ (fun _ => ?_); subst x; rotate_left; clear_value x; rotate_right)
    | (lift_lets; intro x; apply Frame.cut x.1 ?_ (fun _ => ?_); subst x; rotate_left; clear_value x; rotate_right)
    | (lift_lets; intro x; clear_value x)
    | apply Frame.via (brgArrive_frame ..)
    | apply Frame.via (evalRules_frame ..)
    | apply Frame.via (pipeRun_frame ..)
    | apply Frame.ite
    | split

theorem pduTimeout_frame (q : Nat) (s : State) :
    Frame [.sys, .mbx, .log, .tb, .vz, .cfg, .ch, .rfx, .twin, .brg, .fio, .net, .sig, .upd, .free] s (pduTimeout q s) := by
  unfold pduTimeout
  with_reducible repeat' first
    | assumption
    | decide
    | apply Frame.refl
    | apply Frame.via (State.modPdu_frame ..)
    | apply Frame.via (evalRules_frame ..)
    | apply Frame.via (runPdu_frame ..)
    | apply Frame.ite
    | split

theorem execPduTimeout_frame (p : Fin 65536) (s : State) :
    Framed [.sys, .mbx, .log, .tb, .vz, .cfg, .ch, .rfx, .twin, .brg, .fio, .net, .sig, .upd, .free] s (execPduTimeout p s) := by
  unfold execPduTimeout
  with_reducible repeat' first
    | apply Framed.next
    | assumption
    | decide
    | apply Frame.refl
    | apply Frame.via (pduTimeout_frame ..)

theorem execSignalCyclicWrite_frame (d : Fin 262144) (s : State) :
    Framed [.sys, .mbx, .log, .tb, .vz, .cfg, .ch, .rfx, .twin, .brg, .fio, .net, .sig, .upd, .free] s (execSignalCyclicWrite d s) := by
  unfold execSignalCyclicWrite
  with_reducible repeat' first
    | apply Framed.next
    | assumption
    | decide
    | apply Frame.refl
    | apply Frame.via (emit_frame ..)
    | apply Frame.via (evalRules_frame ..)
    | apply Frame.via (flushSinks_frame ..)
    | apply Frame.ite

theorem execSignalDeferredWrite_frame (d : Fin 262144) (s : State) :
    Framed [.sys, .mbx, .log, .tb, .vz, .cfg, .ch, .rfx, .twin, .brg, .fio, .net, .sig, .upd, .free] s (execSignalDeferredWrite d s) := by
  unfold execSignalDeferredWrite
  with_reducible repeat' first
    | apply Framed.next
    | assumption
    | decide
    | apply Frame.refl
    | apply Frame.via (emit_frame ..)
    | apply Frame.via (evalRules_frame ..)
    | apply Frame.via (flushSinks_frame ..)
    | apply Frame.ite

theorem pduCyclic_frame (q : Nat) (s : State) :
    Frame [.mbx, .log, .vz, .ch, .net, .sig, .free] s (pduCyclic q s) := by
  unfold pduCyclic
  with_reducible repeat' first
    | assumption
    | decide
    | apply Frame.refl
    | apply Frame.via (sendPdu_frame ..)
    | apply Frame.ite
    | split

theorem execPduCyclicSend_frame (p : Fin 65536) (s : State) :
    Framed [.mbx, .log, .vz, .ch, .net, .sig, .free] s (execPduCyclicSend p s) := by
  unfold execPduCyclicSend
  with_reducible repeat' first
    | apply Framed.next
    | assumption
    | decide
    | apply Frame.refl
    | apply Frame.via (pduCyclic_frame ..)

theorem i3Take_frame (vid : Nat) (x : U32 × Nat × List Byte) (s : State) :
    Frame [.mbx, .log, .vz, .sig] s (i3Take vid x s) := by
  unfold i3Take
  with_reducible repeat' first
    | assumption
    | decide
    | apply Frame.refl
    | (lift_lets; intro x; apply Frame.cut x ?_ (fun _ => ?_); subst x; rotate_left; clear_value x; rotate_right)
    | (lift_lets; intro x; apply Frame.cut x.1 ?_ (fun _ => ?_); subst x; rotate_left; clear_value x; rotate_right)
    | (lift_lets; intro x; clear_value x)
    | apply Frame.via (State.modSig_frame ..)
    | apply Frame.via (sigArrive_frame ..)
    | apply Frame.ite
    | apply Frame.foldl
    | apply Frame.foldl1
    | intro _

theorem execI3RecordFrame_frame (vid : BitVec 12) (payload : List Byte) (s : State) :
    Framed [.mbx, .log, .vz, .sig] s (execI3RecordFrame vid payload s) := by
  unfold execI3RecordFrame
  with_reducible repeat' first
    | apply Framed.next
    | assumption
    | decide
    | apply Frame.refl
    | apply Frame.via (i3Take_frame ..)
    | apply Frame.ite
    | apply Frame.foldl
    | apply Frame.foldl1
    | intro _

theorem sigEcc_frame (pdu : Bool) (i : Nat) (s : State) :
    Frame [.sys, .mbx, .log, .tb, .vz, .cfg, .ch, .rfx, .twin, .brg, .fio, .net, .sig, .upd, .free] s (sigEcc pdu i s) := by
  unfold sigEcc
  with_reducible repeat' first
    | assumption
    | decide
    | apply Frame.refl
    | apply Frame.via (State.modPdu_frame ..)
    | apply Frame.via (State.modRun_frame ..)
    | apply Frame.via (evalRules_frame ..)
    | apply Frame.via (raise_frame ..)
    | apply Frame.via (raiseSig_frame ..)
    | apply Frame.via (runPdu_frame ..)
    | apply Frame.ite
    | split

theorem execSigTableEcc_frame (pdu : Bool) (i : Fin 262144) (s : State) :
    Framed [.sys, .mbx, .log, .tb, .vz, .cfg, .ch, .rfx, .twin, .brg, .fio, .net, .sig, .upd, .free] s (execSigTableEcc pdu i s) := by
  unfold execSigTableEcc
  with_reducible repeat' first
    | apply Framed.next
    | assumption
    | decide
    | apply Frame.refl
    | apply Frame.via (sigEcc_frame ..)

theorem execSigWrLoWrite_frame (v : Fin 256) (slot : Fin 1024) (value : U32) (s : State) :
    Framed [.mbx, .log, .vz, .sig, .bus] s (execSigWrLoWrite v slot value s) := by
  unfold execSigWrLoWrite
  with_reducible repeat' first
    | apply Framed.next
    | assumption
    | decide
    | apply Frame.refl
    | apply Frame.via (slotWriteLo_frame ..)

theorem execSigRdLoRead_frame (v : Fin 256) (slot : Fin 1024) (s : State) :
    Framed [.mbx, .log, .vz, .sig, .bus] s (execSigRdLoRead v slot s) := by
  unfold execSigRdLoRead
  with_reducible repeat' first
    | apply Framed.next
    | assumption
    | decide
    | apply Frame.refl
    | apply Frame.via (slotRead_frame ..)

theorem loadSignals_frame (rs : List (Nat × List Byte)) (s : State) :
    Frame [.sig] s (loadSignals rs s).1 := by
  unfold loadSignals
  with_reducible repeat' first
    | assumption
    | decide
    | apply Frame.refl
    | (lift_lets; intro x; apply Frame.cut x ?_ (fun _ => ?_); subst x; rotate_left; clear_value x; rotate_right)
    | (lift_lets; intro x; apply Frame.cut x.1 ?_ (fun _ => ?_); subst x; rotate_left; clear_value x; rotate_right)
    | (lift_lets; intro x; clear_value x)
    | apply Frame.via (State.modSig_frame ..)
    | apply Frame.ite
    | apply Frame.ite1
    | apply Frame.foldl
    | apply Frame.foldl1
    | intro _
    | split

theorem loadPdus_frame (rs : List (Nat × List Byte)) (s : State) :
    Frame [.sig] s (loadPdus rs s).1 := by
  unfold loadPdus
  with_reducible repeat' first
    | assumption
    | decide
    | apply Frame.refl
    | (lift_lets; intro x; apply Frame.cut x ?_ (fun _ => ?_); subst x; rotate_left; clear_value x; rotate_right)
    | (lift_lets; intro x; apply Frame.cut x.1 ?_ (fun _ => ?_); subst x; rotate_left; clear_value x; rotate_right)
    | (lift_lets; intro x; clear_value x)
    | apply Frame.via (State.modSig_frame ..)
    | apply Frame.ite
    | apply Frame.ite1
    | apply Frame.foldl
    | apply Frame.foldl1
    | intro _
    | split

theorem loadLookup_frame (rs : List (Nat × List Byte)) (s : State) :
    Frame [.sig] s (loadLookup rs s).1 := by
  unfold loadLookup
  with_reducible repeat' first
    | assumption
    | decide
    | apply Frame.refl
    | apply Frame.via (State.modSig_frame ..)

theorem loadBody_frame (p : Port) (first table : Nat) (rs : List (List Byte)) (s : State) :
    Frame [.sig] s (loadBody p first table rs s).1 := by
  unfold loadBody
  with_reducible repeat' first
    | assumption
    | decide
    | apply Frame.refl
    | (lift_lets; intro x; apply Frame.cut x ?_ (fun _ => ?_); subst x; rotate_left; clear_value x; rotate_right)
    | (lift_lets; intro x; apply Frame.cut x.1 ?_ (fun _ => ?_); subst x; rotate_left; clear_value x; rotate_right)
    | (lift_lets; intro x; clear_value x)
    | apply Frame.via (loadLookup_frame ..)
    | apply Frame.via (loadPdus_frame ..)
    | apply Frame.via (loadSignals_frame ..)
    | apply Frame.ite
    | apply Frame.ite1
    | split

theorem execSigLoad_frame (r : Req) (first : U32) (n : U16) (table : Byte) (records : List Byte) (s : State) :
    Framed [.mbx, .vz, .sig] s (execSigLoad r first n table records s) := by
  unfold execSigLoad
  with_reducible repeat' first
    | apply Framed.next
    | assumption
    | decide
    | apply Frame.refl
    | (lift_lets; intro x; apply Frame.cut x ?_ (fun _ => ?_); subst x; rotate_left; clear_value x; rotate_right)
    | (lift_lets; intro x; apply Frame.cut x.1 ?_ (fun _ => ?_); subst x; rotate_left; clear_value x; rotate_right)
    | (lift_lets; intro x; clear_value x)
    | apply Frame.via (loadBody_frame ..)
    | apply runCmd_frame
    | apply Frame.ite
    | intro _

theorem execSigRead_frame (r : Req) (first : U32) (n : U16) (s : State) :
    Framed [.mbx, .vz] s (execSigRead r first n s) := by
  unfold execSigRead
  with_reducible repeat' first
    | apply Framed.next
    | assumption
    | decide
    | apply Frame.refl
    | apply runCmd_frame
    | apply Frame.ite
    | intro _
    | split

theorem sigWriteBody_frame (p : Port) (target : U16) (es : List SigWriteEntry) (s : State) :
    Frame [.mbx, .log, .vz, .sig] s (sigWriteBody p target es s).1 := by
  unfold sigWriteBody
  with_reducible repeat' first
    | assumption
    | decide
    | apply Frame.refl
    | apply Frame.via (setSlot_frame ..)
    | apply Frame.via (slotUpdate_frame ..)
    | apply Frame.ite
    | apply Frame.ite1
    | apply Frame.foldl
    | apply Frame.foldl1
    | intro _
    | split

theorem execSigWrite_frame (r : Req) (n target : U16) (entries : List SigWriteEntry) (s : State) :
    Framed [.mbx, .log, .vz, .sig] s (execSigWrite r n target entries s) := by
  unfold execSigWrite
  with_reducible repeat' first
    | apply Framed.next
    | assumption
    | decide
    | apply Frame.refl
    | apply runCmd_frame
    | apply Frame.via (sigWriteBody_frame ..)
    | apply Frame.ite
    | intro _

theorem getStatusBody_frame (first n : Nat) (s : State) :
    Frame [.sig] s (getStatusBody first n s).1 := by
  unfold getStatusBody
  with_reducible repeat' first
    | assumption
    | decide
    | apply Frame.refl
    | (lift_lets; intro x; apply Frame.cut x ?_ (fun _ => ?_); subst x; rotate_left; clear_value x; rotate_right)
    | (lift_lets; intro x; apply Frame.cut x.1 ?_ (fun _ => ?_); subst x; rotate_left; clear_value x; rotate_right)
    | (lift_lets; intro x; clear_value x)
    | apply Frame.via (State.modSig_frame ..)

theorem execSigGetStatus_frame (r : Req) (first : U32) (n : U16) (s : State) :
    Framed [.mbx, .vz, .sig] s (execSigGetStatus r first n s) := by
  unfold execSigGetStatus
  with_reducible repeat' first
    | apply Framed.next
    | assumption
    | decide
    | apply Frame.refl
    | apply Frame.via (getStatusBody_frame ..)
    | apply runCmd_frame
    | apply Frame.ite
    | intro _
    | split

theorem sigZero_frame (v : Nat) (s : State) :
    Frame [.mbx, .log, .vz, .ch, .net, .sig, .free] s (sigZero v s) := by
  unfold sigZero
  with_reducible repeat' first
    | assumption
    | decide
    | apply Frame.refl
    | (lift_lets; intro x; apply Frame.cut x ?_ (fun _ => ?_); subst x; rotate_left; clear_value x; rotate_right)
    | (lift_lets; intro x; apply Frame.cut x.1 ?_ (fun _ => ?_); subst x; rotate_left; clear_value x; rotate_right)
    | (lift_lets; intro x; clear_value x)
    | apply Frame.via (State.modPdu_frame ..)
    | apply Frame.via (State.modSig_frame ..)
    | apply Frame.via (runPdu_frame ..)
    | apply Frame.via (sinkWrite_frame ..)
    | apply Frame.ite
    | apply Frame.foldl
    | apply Frame.foldl1
    | intro _
    | split

end Sys2Proof.Machine

end
end

