-- ==== Sys2Proof/Laws/Frames/Cfg.lean ====
section
/-! SUPPORT. The frame of each function of `Machine/Cfg.lean`: the parts of the state it may change. -/

section

set_option Elab.async false

namespace Sys2Proof.Machine

theorem cfgBeginBody_frame (total : Nat) (s : State) :
    Frame [.cfg] s (cfgBeginBody total s).1 := by
  unfold cfgBeginBody
  with_reducible repeat' first
    | assumption
    | decide
    | apply Frame.refl
    | apply Frame.ite
    | apply Frame.ite1
    | split
    | apply Frame.set_cfg

theorem execCfgBegin_frame (r : Req) (total : U32) (s : State) :
    Framed [.mbx, .vz, .cfg] s (execCfgBegin r total s) := by
  unfold execCfgBegin
  with_reducible repeat' first
    | apply Framed.next
    | assumption
    | decide
    | apply Frame.refl
    | apply Frame.via (cfgBeginBody_frame ..)
    | apply runCmd_frame
    | apply Frame.ite
    | intro _

theorem cfgWriteBody_frame (offset : Nat) (data : List Byte) (s : State) :
    Frame [.cfg] s (cfgWriteBody offset data s).1 := by
  unfold cfgWriteBody
  with_reducible repeat' first
    | assumption
    | decide
    | apply Frame.refl
    | (lift_lets; intro x; apply Frame.cut x ?_ (fun _ => ?_); subst x; rotate_left; clear_value x; rotate_right)
    | (lift_lets; intro x; apply Frame.cut x.1 ?_ (fun _ => ?_); subst x; rotate_left; clear_value x; rotate_right)
    | (lift_lets; intro x; clear_value x)
    | apply Frame.ite
    | apply Frame.ite1
    | split
    | apply Frame.set_cfg

theorem execCfgWrite_frame (r : Req) (offset : U32) (data : List Byte) (s : State) :
    Framed [.mbx, .vz, .cfg] s (execCfgWrite r offset data s) := by
  unfold execCfgWrite
  with_reducible repeat' first
    | apply Framed.next
    | assumption
    | decide
    | apply Frame.refl
    | apply Frame.via (cfgWriteBody_frame ..)
    | apply runCmd_frame
    | apply Frame.ite
    | intro _

theorem cfgCommitBody_frame (content : Bank) (s : State) :
    Frame [.cfg] s (cfgCommitBody content s).1 := by
  unfold cfgCommitBody
  with_reducible repeat' first
    | assumption
    | decide
    | apply Frame.refl
    | (lift_lets; intro x; apply Frame.cut x ?_ (fun _ => ?_); subst x; rotate_left; clear_value x; rotate_right)
    | (lift_lets; intro x; apply Frame.cut x.1 ?_ (fun _ => ?_); subst x; rotate_left; clear_value x; rotate_right)
    | (lift_lets; intro x; clear_value x)
    | apply Frame.via (closeSession_frame ..)
    | apply Frame.ite
    | apply Frame.ite1
    | split
    | apply Frame.set_cfg

theorem execCfgCommit_frame (r : Req) (content : Bank) (s : State) :
    Framed [.mbx, .vz, .cfg] s (execCfgCommit r content s) := by
  unfold execCfgCommit
  with_reducible repeat' first
    | apply Framed.next
    | assumption
    | decide
    | apply Frame.refl
    | apply Frame.via (cfgCommitBody_frame ..)
    | apply runCmd_frame
    | apply Frame.ite
    | intro _

theorem cfgAbortBody_frame (s : State) :
    Frame [.cfg] s (cfgAbortBody s).1 := by
  unfold cfgAbortBody
  with_reducible repeat' first
    | assumption
    | decide
    | apply Frame.refl
    | apply Frame.via (closeSession_frame ..)
    | apply Frame.ite
    | apply Frame.ite1
    | split

theorem execCfgAbort_frame (r : Req) (s : State) :
    Framed [.mbx, .vz, .cfg] s (execCfgAbort r s) := by
  unfold execCfgAbort
  with_reducible repeat' first
    | apply Framed.next
    | assumption
    | decide
    | apply Frame.refl
    | apply Frame.via (cfgAbortBody_frame ..)
    | apply runCmd_frame
    | apply Frame.ite
    | intro _

theorem execCfgSessionTimeout_frame (s : State) :
    Framed [.cfg] s (execCfgSessionTimeout s) := by
  unfold execCfgSessionTimeout
  with_reducible repeat' first
    | apply Framed.next
    | assumption
    | decide
    | apply Frame.refl
    | apply Frame.via (closeSession_frame ..)

theorem execCfgStatus_frame (r : Req) (s : State) :
    Framed [.mbx, .vz] s (execCfgStatus r s) := by
  unfold execCfgStatus
  with_reducible repeat' first
    | apply Framed.next
    | assumption
    | decide
    | apply Frame.refl
    | apply runCmd_frame
    | apply Frame.ite
    | intro _

theorem getSectionBody_frame (n offset length : Nat) (s : State) :
    Frame [] s (getSectionBody n offset length s).1 := by
  unfold getSectionBody
  with_reducible repeat' first
    | assumption
    | decide
    | apply Frame.refl
    | (lift_lets; intro x; apply Frame.cut x ?_ (fun _ => ?_); subst x; rotate_left; clear_value x; rotate_right)
    | (lift_lets; intro x; apply Frame.cut x.1 ?_ (fun _ => ?_); subst x; rotate_left; clear_value x; rotate_right)
    | (lift_lets; intro x; clear_value x)
    | apply Frame.ite
    | apply Frame.ite1
    | split

theorem execCfgGetSection_frame (r : Req) (section_ : Byte) (offset : U32) (length : U16) (s : State) :
    Framed [.mbx, .vz] s (execCfgGetSection r section_ offset length s) := by
  unfold execCfgGetSection
  with_reducible repeat' first
    | apply Framed.next
    | assumption
    | decide
    | apply Frame.refl
    | apply Frame.via (getSectionBody_frame ..)
    | apply runCmd_frame
    | apply Frame.ite
    | intro _

theorem activateNetworks_frame (old : CfgImage) (s : State) :
    Frame [.mbx, .log, .vz, .net] s (activateNetworks old s) := by
  unfold activateNetworks
  with_reducible repeat' first
    | assumption
    | decide
    | apply Frame.refl
    | (lift_lets; intro x; apply Frame.cut x ?_ (fun _ => ?_); subst x; rotate_left; clear_value x; rotate_right)
    | (lift_lets; intro x; apply Frame.cut x.1 ?_ (fun _ => ?_); subst x; rotate_left; clear_value x; rotate_right)
    | (lift_lets; intro x; clear_value x)
    | apply Frame.via (canConfigure_frame ..)
    | apply Frame.via (linConfigure_frame ..)
    | apply Frame.via (nmSet_frame ..)
    | apply Frame.ite
    | apply Frame.foldl
    | apply Frame.foldl1
    | intro _

theorem activateProfiles_frame (old s : State) :
    Frame [.mbx, .log, .vz, .ch] s (activateProfiles old s) := by
  unfold activateProfiles
  with_reducible repeat' first
    | assumption
    | decide
    | apply Frame.refl
    | apply Frame.via (assignProfile_frame ..)
    | apply Frame.ite
    | apply Frame.foldl
    | apply Frame.foldl1
    | intro _

theorem activateRules_frame (s : State) :
    Frame [.rfx] s (activateRules s) := by
  unfold activateRules
  with_reducible repeat' first
    | assumption
    | decide
    | apply Frame.refl
    | (lift_lets; intro x; apply Frame.cut x ?_ (fun _ => ?_); subst x; rotate_left; clear_value x; rotate_right)
    | (lift_lets; intro x; apply Frame.cut x.1 ?_ (fun _ => ?_); subst x; rotate_left; clear_value x; rotate_right)
    | (lift_lets; intro x; clear_value x)
    | apply Frame.ite
    | split
    | apply Frame.set_rfx

theorem activateKind_frame (old s : State) (a2 : SectionKind) :
    Frame [.mbx, .log, .vz, .ch, .rfx, .brg, .net, .sig, .free] s (activateKind old s a2) := by
  unfold activateKind
  with_reducible repeat' first
    | assumption
    | decide
    | apply Frame.refl
    | apply Frame.via (State.modBrg_frame ..)
    | apply Frame.via (activateNetworks_frame ..)
    | apply Frame.via (activateProfiles_frame ..)
    | apply Frame.via (activateRules_frame ..)
    | apply Frame.via (applyStage_frame ..)
    | apply Frame.via (sigBegin_frame ..)
    | apply Frame.via (sigConfigure_frame ..)
    | apply Frame.ite
    | split

theorem activateNow_frame (s : State) :
    Frame [.sys, .mbx, .log, .tb, .vz, .cfg, .ch, .rfx, .twin, .brg, .fio, .net, .sig, .key, .upd, .free] s (activateNow s) := by
  unfold activateNow
  with_reducible repeat' first
    | assumption
    | decide
    | apply Frame.refl
    | (lift_lets; intro x; apply Frame.cut x ?_ (fun _ => ?_); subst x; rotate_left; clear_value x; rotate_right)
    | (lift_lets; intro x; apply Frame.cut x.1 ?_ (fun _ => ?_); subst x; rotate_left; clear_value x; rotate_right)
    | (lift_lets; intro x; clear_value x)
    | apply Frame.via (activateKind_frame ..)
    | apply Frame.via (evalRules_frame ..)
    | apply Frame.via (extendMr_frame ..)
    | apply Frame.via (urgent_frame ..)
    | apply Frame.ite
    | apply Frame.foldl
    | apply Frame.foldl1
    | intro _
    | split
    | apply Frame.set_cfg

theorem activateBody_frame (r : Req) (s : State) :
    Frame [.sys, .mbx, .log, .tb, .vz, .cfg, .ch, .rfx, .twin, .brg, .fio, .net, .sig, .key, .upd, .free] s (activateBody r s).1 := by
  unfold activateBody
  with_reducible repeat' first
    | assumption
    | decide
    | apply Frame.refl
    | (lift_lets; intro x; apply Frame.cut x ?_ (fun _ => ?_); subst x; rotate_left; clear_value x; rotate_right)
    | (lift_lets; intro x; apply Frame.cut x.1 ?_ (fun _ => ?_); subst x; rotate_left; clear_value x; rotate_right)
    | (lift_lets; intro x; clear_value x)
    | apply Frame.via (activateNow_frame ..)
    | apply Frame.ite
    | apply Frame.ite1
    | split
    | apply Frame.set_cfg

theorem execCfgActivate_frame (r : Req) (s : State) :
    Framed [.sys, .mbx, .log, .tb, .vz, .cfg, .ch, .rfx, .twin, .brg, .fio, .net, .sig, .key, .upd, .free] s (execCfgActivate r s) := by
  unfold execCfgActivate
  with_reducible repeat' first
    | apply Framed.next
    | assumption
    | decide
    | apply Frame.refl
    | apply Frame.via (activateBody_frame ..)
    | apply runLater_frame
    | apply Frame.ite
    | intro _

theorem activationBoundary_frame (s : State) :
    Frame [.sys, .mbx, .log, .tb, .vz, .cfg, .ch, .rfx, .twin, .brg, .fio, .net, .sig, .key, .upd, .free] s (activationBoundary s) := by
  unfold activationBoundary
  with_reducible repeat' first
    | assumption
    | decide
    | apply Frame.refl
    | (lift_lets; intro x; apply Frame.cut x ?_ (fun _ => ?_); subst x; rotate_left; clear_value x; rotate_right)
    | (lift_lets; intro x; apply Frame.cut x.1 ?_ (fun _ => ?_); subst x; rotate_left; clear_value x; rotate_right)
    | (lift_lets; intro x; clear_value x)
    | apply Frame.via (activateNow_frame ..)
    | apply Frame.via (respond_frame ..)
    | apply Frame.ite
    | split
    | apply Frame.set_cfg

theorem execActivationMsBoundary_frame (s : State) :
    Framed [.sys, .mbx, .log, .tb, .vz, .cfg, .ch, .rfx, .twin, .brg, .fio, .net, .sig, .key, .upd, .free] s (execActivationMsBoundary s) := by
  unfold execActivationMsBoundary
  with_reducible repeat' first
    | apply Framed.next
    | assumption
    | decide
    | apply Frame.refl
    | apply Frame.via (activationBoundary_frame ..)
    | apply Frame.ite

end Sys2Proof.Machine

end
end

