-- ==== Sys2Proof/Laws/Frames/EswCmds.lean ====
section
/-! SUPPORT. The frame of each function of `Machine/EswCmds.lean`: the parts of the state it may change. -/

section

set_option Elab.async false

namespace Sys2Proof.Machine

theorem execEswPortStatus_frame (r : Req) (port : Byte) (s : State) :
    Framed [.mbx, .vz] s (execEswPortStatus r port s) := by
  unfold execEswPortStatus
  with_reducible repeat' first
    | apply Framed.next
    | assumption
    | decide
    | apply Frame.refl
    | apply runCmd_frame
    | apply Frame.ite
    | intro _

theorem execEswVlanSet_frame (r : Req) (vid : U16) (members untagged : U32) (s : State) :
    Framed [.mbx, .vz, .esw] s (execEswVlanSet r vid members untagged s) := by
  unfold execEswVlanSet
  with_reducible repeat' first
    | apply Framed.next
    | assumption
    | decide
    | apply Frame.refl
    | apply Frame.via (State.modEsw_frame ..)
    | apply runCmd_frame
    | apply Frame.ite
    | intro _

theorem fdbAdd_frame (f : FdbFields) (s : State) :
    Frame [.esw] s (fdbAdd f s).1 := by
  unfold fdbAdd
  with_reducible repeat' first
    | assumption
    | decide
    | apply Frame.refl
    | (lift_lets; intro x; apply Frame.cut x ?_ (fun _ => ?_); subst x; rotate_left; clear_value x; rotate_right)
    | (lift_lets; intro x; apply Frame.cut x.1 ?_ (fun _ => ?_); subst x; rotate_left; clear_value x; rotate_right)
    | (lift_lets; intro x; clear_value x)
    | apply Frame.via (State.modEsw_frame ..)
    | apply Frame.ite
    | apply Frame.ite1

theorem execEswFdbAdd_frame (r : Req) (f : FdbFields) (s : State) :
    Framed [.mbx, .vz, .esw] s (execEswFdbAdd r f s) := by
  unfold execEswFdbAdd
  with_reducible repeat' first
    | apply Framed.next
    | assumption
    | decide
    | apply Frame.refl
    | apply Frame.via (fdbAdd_frame ..)
    | apply runCmd_frame
    | apply Frame.ite
    | intro _

theorem execEswFdbDel_frame (r : Req) (mac : BitVec 48) (vid : U16) (s : State) :
    Framed [.mbx, .vz, .esw] s (execEswFdbDel r mac vid s) := by
  unfold execEswFdbDel
  with_reducible repeat' first
    | apply Framed.next
    | assumption
    | decide
    | apply Frame.refl
    | (lift_lets; intro x; apply Frame.cut x ?_ (fun _ => ?_); subst x; rotate_left; clear_value x; rotate_right)
    | (lift_lets; intro x; apply Frame.cut x.1 ?_ (fun _ => ?_); subst x; rotate_left; clear_value x; rotate_right)
    | (lift_lets; intro x; clear_value x)
    | apply Frame.via (State.modEsw_frame ..)
    | apply runCmd_frame
    | apply Frame.ite
    | intro _
    | split

theorem potConfig_frame (f : PotFields) (s : State) :
    Frame [.esw] s (potConfig f s).1 := by
  unfold potConfig
  with_reducible repeat' first
    | assumption
    | decide
    | apply Frame.refl
    | apply Frame.via (State.modPot_frame ..)
    | apply Frame.ite
    | apply Frame.ite1

theorem execEswPotConfig_frame (r : Req) (f : PotFields) (s : State) :
    Framed [.mbx, .vz, .esw] s (execEswPotConfig r f s) := by
  unfold execEswPotConfig
  with_reducible repeat' first
    | apply Framed.next
    | assumption
    | decide
    | apply Frame.refl
    | apply Frame.via (potConfig_frame ..)
    | apply runCmd_frame
    | apply Frame.ite
    | intro _

theorem execEswPotStatus_frame (r : Req) (pot : Byte) (s : State) :
    Framed [.mbx, .vz, .esw] s (execEswPotStatus r pot s) := by
  unfold execEswPotStatus
  with_reducible repeat' first
    | apply Framed.next
    | assumption
    | decide
    | apply Frame.refl
    | apply Frame.via (State.modPot_frame ..)
    | apply runCmd_frame
    | apply Frame.ite
    | intro _

theorem shaperSet_frame (p t : Nat) (on : Bool) (slope : Nat) (s : State) :
    Frame [.esw] s (shaperSet p t on slope s).1 := by
  unfold shaperSet
  with_reducible repeat' first
    | assumption
    | decide
    | apply Frame.refl
    | (lift_lets; intro x; apply Frame.cut x ?_ (fun _ => ?_); subst x; rotate_left; clear_value x; rotate_right)
    | (lift_lets; intro x; apply Frame.cut x.1 ?_ (fun _ => ?_); subst x; rotate_left; clear_value x; rotate_right)
    | (lift_lets; intro x; clear_value x)
    | apply Frame.via (State.modEsw_frame ..)
    | apply Frame.ite
    | apply Frame.ite1

theorem execEswShaperSet_frame (r : Req) (port cls enable : Byte) (slope : U32) (s : State) :
    Framed [.mbx, .vz, .esw] s (execEswShaperSet r port cls enable slope s) := by
  unfold execEswShaperSet
  with_reducible repeat' first
    | apply Framed.next
    | assumption
    | decide
    | apply Frame.refl
    | apply runCmd_frame
    | apply Frame.via (shaperSet_frame ..)
    | apply Frame.ite
    | intro _

theorem gateSet_frame (f : GateFields) (s : State) :
    Frame [.esw] s (gateSet f s) := by
  unfold gateSet
  with_reducible repeat' first
    | assumption
    | decide
    | apply Frame.refl
    | (lift_lets; intro x; apply Frame.cut x ?_ (fun _ => ?_); subst x; rotate_left; clear_value x; rotate_right)
    | (lift_lets; intro x; apply Frame.cut x.1 ?_ (fun _ => ?_); subst x; rotate_left; clear_value x; rotate_right)
    | (lift_lets; intro x; clear_value x)
    | apply Frame.via (State.modEsw_frame ..)

theorem execEswGateSet_frame (r : Req) (f : GateFields) (s : State) :
    Framed [.mbx, .vz, .esw] s (execEswGateSet r f s) := by
  unfold execEswGateSet
  with_reducible repeat' first
    | apply Framed.next
    | assumption
    | decide
    | apply Frame.refl
    | apply Frame.via (gateSet_frame ..)
    | apply runCmd_frame
    | apply Frame.ite
    | intro _

theorem streamFilter_frame (f : FilterFields) (s : State) :
    Frame [.esw] s (streamFilter f s).1 := by
  unfold streamFilter
  with_reducible repeat' first
    | assumption
    | decide
    | apply Frame.refl
    | apply Frame.via (State.modEsw_frame ..)

theorem execEswStreamFilter_frame (r : Req) (f : FilterFields) (s : State) :
    Framed [.mbx, .vz, .esw] s (execEswStreamFilter r f s) := by
  unfold execEswStreamFilter
  with_reducible repeat' first
    | apply Framed.next
    | assumption
    | decide
    | apply Frame.refl
    | apply runCmd_frame
    | apply Frame.via (streamFilter_frame ..)
    | apply Frame.ite
    | intro _

theorem frerSet_frame (f : FrerFields) (s : State) :
    Frame [.esw] s (frerSet f s) := by
  unfold frerSet
  with_reducible repeat' first
    | assumption
    | decide
    | apply Frame.refl
    | (lift_lets; intro x; apply Frame.cut x ?_ (fun _ => ?_); subst x; rotate_left; clear_value x; rotate_right)
    | (lift_lets; intro x; apply Frame.cut x.1 ?_ (fun _ => ?_); subst x; rotate_left; clear_value x; rotate_right)
    | (lift_lets; intro x; clear_value x)
    | apply Frame.via (State.modEsw_frame ..)

theorem execEswFrerSet_frame (r : Req) (f : FrerFields) (s : State) :
    Framed [.mbx, .vz, .esw] s (execEswFrerSet r f s) := by
  unfold execEswFrerSet
  with_reducible repeat' first
    | apply Framed.next
    | assumption
    | decide
    | apply Frame.refl
    | apply Frame.via (frerSet_frame ..)
    | apply runCmd_frame
    | apply Frame.ite
    | intro _

theorem plcaSet_frame (f : PlcaFields) (s : State) :
    Frame [.esw] s (plcaSet f s) := by
  unfold plcaSet
  with_reducible repeat' first
    | assumption
    | decide
    | apply Frame.refl
    | apply Frame.via (State.modSwp_frame ..)

theorem execEswPlcaSet_frame (r : Req) (f : PlcaFields) (s : State) :
    Framed [.mbx, .vz, .esw] s (execEswPlcaSet r f s) := by
  unfold execEswPlcaSet
  with_reducible repeat' first
    | apply Framed.next
    | assumption
    | decide
    | apply Frame.refl
    | apply Frame.via (plcaSet_frame ..)
    | apply runCmd_frame
    | apply Frame.ite
    | intro _

theorem auditBody_frame (op policy : Byte) (tAud : Nat) (cellsOff descsOff : Int) (loose : List LooseCell) (s : State) :
    Frame [.mbx, .log, .vz, .esw] s (auditBody op policy tAud cellsOff descsOff loose s).1 := by
  unfold auditBody
  with_reducible repeat' first
    | assumption
    | decide
    | apply Frame.refl
    | (lift_lets; intro x; apply Frame.cut x ?_ (fun _ => ?_); subst x; rotate_left; clear_value x; rotate_right)
    | (lift_lets; intro x; apply Frame.cut x.1 ?_ (fun _ => ?_); subst x; rotate_left; clear_value x; rotate_right)
    | (lift_lets; intro x; clear_value x)
    | apply Frame.via (State.modEsw_frame ..)
    | apply Frame.via (audit_frame ..)
    | apply Frame.ite

theorem execEswAudit_frame (r : Req) (op policy : Byte) (tAud : U16) (cellsOff descsOff : Int) (loose : List LooseCell) (s : State) :
    Framed [.mbx, .log, .vz, .esw] s (execEswAudit r op policy tAud cellsOff descsOff loose s) := by
  unfold execEswAudit
  with_reducible repeat' first
    | apply Framed.next
    | assumption
    | decide
    | apply Frame.refl
    | apply Frame.via (auditBody_frame ..)
    | apply runCmd_frame
    | apply Frame.ite
    | intro _

theorem execEswStats_frame (r : Req) (clear : Byte) (s : State) :
    Framed [.mbx, .vz, .esw] s (execEswStats r clear s) := by
  unfold execEswStats
  with_reducible repeat' first
    | apply Framed.next
    | assumption
    | decide
    | apply Frame.refl
    | apply Frame.via (State.modEswStats_frame ..)
    | apply runCmd_frame
    | apply Frame.ite
    | intro _

end Sys2Proof.Machine

end
end

