-- ==== Sys2Proof/Laws/Frames/FieldIn.lean ====
section
/-! SUPPORT. The frame of each function of `Machine/FieldIn.lean`: the parts of the state it may change. -/

section

set_option Elab.async false

namespace Sys2Proof.Machine

theorem raiseFio_frame (k : EvKind) (inst : Nat) (owner : Option Nat) (data : List Byte) (s : State) :
    Frame [.mbx, .log, .vz] s (raiseFio k inst owner data s) := by
  unfold raiseFio
  with_reducible repeat' first
    | assumption
    | decide
    | apply Frame.refl
    | apply Frame.via (raise_frame ..)
    | apply Frame.ite

theorem State.modDi_frame (s : State) (n : Nat) (f : DiInput → DiInput) :
    Frame [.fio] s (State.modDi s n f) := by
  unfold State.modDi
  with_reducible repeat' first
    | assumption
    | decide
    | apply Frame.refl
    | apply Frame.ite
    | split
    | apply Frame.set_fio

theorem diChange_frame (n : Nat) (old new : DiVal) (s : State) :
    Frame [.sys, .mbx, .log, .tb, .vz, .cfg, .ch, .rfx, .twin, .brg, .fio, .sig, .upd] s (diChange n old new s) := by
  unfold diChange
  with_reducible repeat' first
    | assumption
    | decide
    | apply Frame.refl
    | (lift_lets; intro x; apply Frame.cut x ?_ (fun _ => ?_); subst x; rotate_left; clear_value x; rotate_right)
    | (lift_lets; intro x; apply Frame.cut x.1 ?_ (fun _ => ?_); subst x; rotate_left; clear_value x; rotate_right)
    | (lift_lets; intro x; clear_value x)
    | apply Frame.via (State.modDi_frame ..)
    | apply Frame.via (captureLevel_frame ..)
    | apply Frame.via (evalAtDi_frame ..)
    | apply Frame.via (fioSnapUpdate_frame ..)
    | apply Frame.via (raiseFio_frame ..)
    | apply Frame.ite

theorem diPut_frame (n : Nat) (d : DiInput) (new : DiVal) (s : State) :
    Frame [.sys, .mbx, .log, .tb, .vz, .cfg, .ch, .rfx, .twin, .brg, .fio, .sig, .upd] s (diPut n d new s) := by
  unfold diPut
  with_reducible repeat' first
    | assumption
    | decide
    | apply Frame.refl
    | (lift_lets; intro x; apply Frame.cut x ?_ (fun _ => ?_); subst x; rotate_left; clear_value x; rotate_right)
    | (lift_lets; intro x; apply Frame.cut x.1 ?_ (fun _ => ?_); subst x; rotate_left; clear_value x; rotate_right)
    | (lift_lets; intro x; clear_value x)
    | apply Frame.via (State.modDi_frame ..)
    | apply Frame.via (diChange_frame ..)
    | apply Frame.ite

theorem diSample_frame (n : Nat) (mv : Int) (s : State) :
    Frame [.sys, .mbx, .log, .tb, .vz, .cfg, .ch, .rfx, .twin, .brg, .fio, .sig, .upd] s (diSample n mv s) := by
  unfold diSample
  with_reducible repeat' first
    | assumption
    | decide
    | apply Frame.refl
    | (lift_lets; intro x; apply Frame.cut x ?_ (fun _ => ?_); subst x; rotate_left; clear_value x; rotate_right)
    | (lift_lets; intro x; apply Frame.cut x.1 ?_ (fun _ => ?_); subst x; rotate_left; clear_value x; rotate_right)
    | (lift_lets; intro x; clear_value x)
    | apply Frame.via (diPut_frame ..)
    | apply Frame.ite

theorem execDiSample_frame (n : Fin 64) (mv : Int) (s : State) :
    Framed [.sys, .mbx, .log, .tb, .vz, .cfg, .ch, .rfx, .twin, .brg, .fio, .sig, .upd] s (execDiSample n mv s) := by
  unfold execDiSample
  with_reducible repeat' first
    | apply Framed.next
    | assumption
    | decide
    | apply Frame.refl
    | apply Frame.via (diSample_frame ..)

theorem diRestart_frame (n : Nat) (r : DiRecord) (s : State) :
    Frame [.sys, .mbx, .log, .tb, .vz, .cfg, .ch, .rfx, .twin, .brg, .fio, .sig, .upd] s (diRestart n r s) := by
  unfold diRestart
  with_reducible repeat' first
    | assumption
    | decide
    | apply Frame.refl
    | apply Frame.via (diPut_frame ..)

theorem readDiStamp_frame (v : Nat) (s : State) :
    Frame [.mbx, .log, .vz, .fio, .bus] s (readDiStamp v s) := by
  unfold readDiStamp
  with_reducible repeat' first
    | assumption
    | decide
    | apply Frame.refl
    | (lift_lets; intro x; apply Frame.cut x ?_ (fun _ => ?_); subst x; rotate_left; clear_value x; rotate_right)
    | (lift_lets; intro x; apply Frame.cut x.1 ?_ (fun _ => ?_); subst x; rotate_left; clear_value x; rotate_right)
    | (lift_lets; intro x; clear_value x)
    | apply Frame.via (windowFault_frame ..)
    | apply Frame.ite
    | apply Frame.foldl
    | apply Frame.foldl1
    | intro _
    | split
    | apply Frame.set_fio_bus

theorem execFioDiStampLoRead_frame (v : Fin 256) (s : State) :
    Framed [.mbx, .log, .vz, .fio, .bus] s (execFioDiStampLoRead v s) := by
  unfold execFioDiStampLoRead
  with_reducible repeat' first
    | apply Framed.next
    | assumption
    | decide
    | apply Frame.refl
    | apply Frame.via (readDiStamp_frame ..)

theorem showAi_frame (s : State) :
    Frame [.sys, .mbx, .log, .tb, .vz, .cfg, .ch, .rfx, .twin, .brg, .fio, .sig, .upd] s (showAi s) := by
  unfold showAi
  with_reducible repeat' first
    | assumption
    | decide
    | apply Frame.refl
    | apply Frame.via (evalRules_frame ..)
    | apply Frame.via (fioSnapUpdate_frame ..)
    | apply Frame.ite
    | split
    | apply Frame.set_fio
    | dsimp only

theorem aiOne_frame (n : Nat) (uv : Int) (sup : List (Nat × Nat)) (s : State) :
    Frame [.fio, .free] s (aiOne n uv sup s) := by
  unfold aiOne
  with_reducible repeat' first
    | assumption
    | decide
    | apply Frame.refl
    | (lift_lets; intro x; apply Frame.cut x ?_ (fun _ => ?_); subst x; rotate_left; clear_value x; rotate_right)
    | (lift_lets; intro x; apply Frame.cut x.1 ?_ (fun _ => ?_); subst x; rotate_left; clear_value x; rotate_right)
    | (lift_lets; intro x; clear_value x)
    | apply Frame.via (State.draw_frame ..)
    | apply Frame.ite
    | split
    | apply Frame.set_fio

theorem supMeasure_frame (sup : List (Nat × Nat)) (s : State) :
    Frame [.fio] s (supMeasure sup s) := by
  unfold supMeasure
  with_reducible repeat' first
    | assumption
    | decide
    | apply Frame.refl
    | (lift_lets; intro x; apply Frame.cut x ?_ (fun _ => ?_); subst x; rotate_left; clear_value x; rotate_right)
    | (lift_lets; intro x; apply Frame.cut x.1 ?_ (fun _ => ?_); subst x; rotate_left; clear_value x; rotate_right)
    | (lift_lets; intro x; clear_value x)
    | apply Frame.ite
    | apply Frame.foldl
    | apply Frame.foldl1
    | intro _
    | split
    | apply Frame.set_fio

theorem aiSample_frame (uv : List Int) (sup : List (Nat × Nat)) (s : State) :
    Frame [.sys, .mbx, .log, .tb, .vz, .cfg, .ch, .rfx, .twin, .brg, .fio, .sig, .upd, .free] s (aiSample uv sup s) := by
  unfold aiSample
  with_reducible repeat' first
    | assumption
    | decide
    | apply Frame.refl
    | (lift_lets; intro x; apply Frame.cut x ?_ (fun _ => ?_); subst x; rotate_left; clear_value x; rotate_right)
    | (lift_lets; intro x; apply Frame.cut x.1 ?_ (fun _ => ?_); subst x; rotate_left; clear_value x; rotate_right)
    | (lift_lets; intro x; clear_value x)
    | apply Frame.via (aiOne_frame ..)
    | apply Frame.via (evalRules_frame ..)
    | apply Frame.via (fioSnapUpdate_frame ..)
    | apply Frame.via (supMeasure_frame ..)
    | apply Frame.ite
    | apply Frame.foldl
    | apply Frame.foldl1
    | intro _

theorem execAiSample_frame (uv : List Int) (sup : List (Nat × Nat)) (s : State) :
    Framed [.sys, .mbx, .log, .tb, .vz, .cfg, .ch, .rfx, .twin, .brg, .fio, .sig, .upd, .free] s (execAiSample uv sup s) := by
  unfold execAiSample
  with_reducible repeat' first
    | apply Framed.next
    | assumption
    | decide
    | apply Frame.refl
    | apply Frame.via (aiSample_frame ..)

theorem State.modSup_frame (s : State) (k : Nat) (f : SupState → SupState) :
    Frame [.fio] s (State.modSup s k f) := by
  unfold State.modSup
  with_reducible repeat' first
    | assumption
    | decide
    | apply Frame.refl
    | apply Frame.ite
    | split
    | apply Frame.set_fio

theorem supFault_frame (k : Nat) (forced : Bool) (s : State) :
    Frame [.sys, .mbx, .log, .tb, .vz, .cfg, .ch, .rfx, .twin, .brg, .fio, .sig, .upd] s (supFault k forced s) := by
  unfold supFault
  with_reducible repeat' first
    | assumption
    | decide
    | apply Frame.refl
    | (lift_lets; intro x; apply Frame.cut x ?_ (fun _ => ?_); subst x; rotate_left; clear_value x; rotate_right)
    | (lift_lets; intro x; apply Frame.cut x.1 ?_ (fun _ => ?_); subst x; rotate_left; clear_value x; rotate_right)
    | (lift_lets; intro x; clear_value x)
    | apply Frame.via (State.modSup_frame ..)
    | apply Frame.via (raiseFio_frame ..)
    | apply Frame.via (showAi_frame ..)
    | apply Frame.ite

theorem execSensorSupplyFault_frame (sup : Fin 4) (forced : Bool) (s : State) :
    Framed [.sys, .mbx, .log, .tb, .vz, .cfg, .ch, .rfx, .twin, .brg, .fio, .sig, .upd] s (execSensorSupplyFault sup forced s) := by
  unfold execSensorSupplyFault
  with_reducible repeat' first
    | apply Framed.next
    | assumption
    | decide
    | apply Frame.refl
    | apply Frame.via (supFault_frame ..)

theorem supRetry_frame (k : Nat) (regulates : Bool) (s : State) :
    Frame [.sys, .mbx, .log, .tb, .vz, .cfg, .ch, .rfx, .twin, .brg, .fio, .sig, .upd] s (supRetry k regulates s) := by
  unfold supRetry
  with_reducible repeat' first
    | assumption
    | decide
    | apply Frame.refl
    | (lift_lets; intro x; apply Frame.cut x ?_ (fun _ => ?_); subst x; rotate_left; clear_value x; rotate_right)
    | (lift_lets; intro x; apply Frame.cut x.1 ?_ (fun _ => ?_); subst x; rotate_left; clear_value x; rotate_right)
    | (lift_lets; intro x; clear_value x)
    | apply Frame.via (State.modSup_frame ..)
    | apply Frame.via (raiseFio_frame ..)
    | apply Frame.via (showAi_frame ..)
    | apply Frame.ite

theorem execSensorSupplyRetry_frame (sup : Fin 4) (regulates : Bool) (s : State) :
    Framed [.sys, .mbx, .log, .tb, .vz, .cfg, .ch, .rfx, .twin, .brg, .fio, .sig, .upd] s (execSensorSupplyRetry sup regulates s) := by
  unfold execSensorSupplyRetry
  with_reducible repeat' first
    | apply Framed.next
    | assumption
    | decide
    | apply Frame.refl
    | apply Frame.via (supRetry_frame ..)

theorem execFioDiConfig_frame (r : Req) (input : U16) (f : DiFields) (s : State) :
    Framed [.sys, .mbx, .log, .tb, .vz, .cfg, .ch, .rfx, .twin, .brg, .fio, .sig, .upd] s (execFioDiConfig r input f s) := by
  unfold execFioDiConfig
  with_reducible repeat' first
    | apply Framed.next
    | assumption
    | decide
    | apply Frame.refl
    | apply Frame.via (diRestart_frame ..)
    | apply runCmd_frame
    | apply Frame.ite
    | intro _

theorem diReadBody_frame (p : Port) (s : State) :
    Frame [.fio] s (diReadBody p s).1 := by
  unfold diReadBody
  with_reducible repeat' first
    | assumption
    | decide
    | apply Frame.refl
    | (lift_lets; intro x; apply Frame.cut x ?_ (fun _ => ?_); subst x; rotate_left; clear_value x; rotate_right)
    | (lift_lets; intro x; apply Frame.cut x.1 ?_ (fun _ => ?_); subst x; rotate_left; clear_value x; rotate_right)
    | (lift_lets; intro x; clear_value x)
    | apply Frame.ite
    | apply Frame.ite1
    | split
    | apply Frame.set_fio

theorem execFioDiRead_frame (r : Req) (s : State) :
    Framed [.mbx, .vz, .fio] s (execFioDiRead r s) := by
  unfold execFioDiRead
  with_reducible repeat' first
    | apply Framed.next
    | assumption
    | decide
    | apply Frame.refl
    | apply Frame.via (diReadBody_frame ..)
    | apply runCmd_frame
    | apply Frame.ite
    | intro _

theorem aiConfigBody_frame (n : Nat) (a : AiConfig) (s : State) :
    Frame [.sys, .mbx, .log, .tb, .vz, .cfg, .ch, .rfx, .twin, .brg, .fio, .sig, .upd] s (aiConfigBody n a s).1 := by
  unfold aiConfigBody
  with_reducible repeat' first
    | assumption
    | decide
    | apply Frame.refl
    | apply Frame.via (showAi_frame ..)
    | apply Frame.ite
    | apply Frame.ite1
    | split
    | apply Frame.set_fio

theorem execFioAiConfig_frame (r : Req) (input : U16) (range ratio k : Byte) (s : State) :
    Framed [.sys, .mbx, .log, .tb, .vz, .cfg, .ch, .rfx, .twin, .brg, .fio, .sig, .upd] s (execFioAiConfig r input range ratio k s) := by
  unfold execFioAiConfig
  with_reducible repeat' first
    | apply Framed.next
    | assumption
    | decide
    | apply Frame.refl
    | apply Frame.via (aiConfigBody_frame ..)
    | apply runCmd_frame
    | apply Frame.ite
    | intro _

theorem execFioAiRead_frame (r : Req) (first count : U16) (s : State) :
    Framed [.mbx, .vz] s (execFioAiRead r first count s) := by
  unfold execFioAiRead
  with_reducible repeat' first
    | apply Framed.next
    | assumption
    | decide
    | apply Frame.refl
    | (lift_lets; intro x; apply Frame.cut x ?_ (fun _ => ?_); subst x; rotate_left; clear_value x; rotate_right)
    | (lift_lets; intro x; apply Frame.cut x.1 ?_ (fun _ => ?_); subst x; rotate_left; clear_value x; rotate_right)
    | (lift_lets; intro x; clear_value x)
    | apply runCmd_frame
    | apply Frame.ite
    | intro _

theorem supSetBody_frame (k : Nat) (on : Bool) (s : State) :
    Frame [.sys, .mbx, .log, .tb, .vz, .cfg, .ch, .rfx, .twin, .brg, .fio, .sig, .upd] s (supSetBody k on s).1 := by
  unfold supSetBody
  with_reducible repeat' first
    | assumption
    | decide
    | apply Frame.refl
    | (lift_lets; intro x; apply Frame.cut x ?_ (fun _ => ?_); subst x; rotate_left; clear_value x; rotate_right)
    | (lift_lets; intro x; apply Frame.cut x.1 ?_ (fun _ => ?_); subst x; rotate_left; clear_value x; rotate_right)
    | (lift_lets; intro x; clear_value x)
    | apply Frame.via (State.modSup_frame ..)
    | apply Frame.via (showAi_frame ..)

theorem execFioSupSet_frame (r : Req) (supply on : Byte) (s : State) :
    Framed [.sys, .mbx, .log, .tb, .vz, .cfg, .ch, .rfx, .twin, .brg, .fio, .sig, .upd] s (execFioSupSet r supply on s) := by
  unfold execFioSupSet
  with_reducible repeat' first
    | apply Framed.next
    | assumption
    | decide
    | apply Frame.refl
    | apply runCmd_frame
    | apply Frame.via (supSetBody_frame ..)
    | apply Frame.ite
    | intro _

theorem execFioCyclicSense_frame (r : Req) (mask tCyc : U16) (k : Byte) (s : State) :
    Framed [.mbx, .vz, .fio] s (execFioCyclicSense r mask tCyc k s) := by
  unfold execFioCyclicSense
  with_reducible repeat' first
    | apply Framed.next
    | assumption
    | decide
    | apply Frame.refl
    | apply runCmd_frame
    | apply Frame.ite
    | intro _
    | split
    | apply Frame.set_fio

end Sys2Proof.Machine

end
end

