-- ==== Sys2Proof/Laws/Frames/FieldX.lean ====
section
/-! SUPPORT. The frame of each function of `Machine/FieldX.lean`: the parts of the state it may change. -/

section

set_option Elab.async false

namespace Sys2Proof.Machine

theorem downlink_frame (s : State) :
    Frame [.fio] s (downlink s) := by
  unfold downlink
  with_reducible repeat' first
    | assumption
    | decide
    | apply Frame.refl
    | (lift_lets; intro x; apply Frame.cut x ?_ (fun _ => ?_); subst x; rotate_left; clear_value x; rotate_right)
    | (lift_lets; intro x; apply Frame.cut x.1 ?_ (fun _ => ?_); subst x; rotate_left; clear_value x; rotate_right)
    | (lift_lets; intro x; clear_value x)
    | apply Frame.via (State.modBank_frame ..)
    | apply Frame.via (xSend_frame ..)
    | apply Frame.ite

theorem execBarrierDownlinkFrame_frame (s : State) :
    Framed [.fio] s (execBarrierDownlinkFrame s) := by
  unfold execBarrierDownlinkFrame
  with_reducible repeat' first
    | apply Framed.next
    | assumption
    | decide
    | apply Frame.refl
    | apply Frame.via (downlink_frame ..)

theorem xApplyWord_frame (addr data : Nat) (s : State) :
    Frame [.fio] s (xApplyWord addr data s) := by
  unfold xApplyWord
  with_reducible repeat' first
    | assumption
    | decide
    | apply Frame.refl
    | apply Frame.via (State.modBank_frame ..)
    | apply Frame.via (State.modX_frame ..)
    | apply Frame.ite
    | split

theorem xReceive_frame (f : BitVec 128) (s : State) :
    Frame [.fio] s (xReceive f s) := by
  unfold xReceive
  with_reducible repeat' first
    | assumption
    | decide
    | apply Frame.refl
    | (lift_lets; intro x; apply Frame.cut x ?_ (fun _ => ?_); subst x; rotate_left; clear_value x; rotate_right)
    | (lift_lets; intro x; apply Frame.cut x.1 ?_ (fun _ => ?_); subst x; rotate_left; clear_value x; rotate_right)
    | (lift_lets; intro x; clear_value x)
    | apply Frame.via (State.modBank_frame ..)
    | apply Frame.via (State.modX_frame ..)
    | apply Frame.via (xApplyWord_frame ..)
    | apply Frame.ite
    | apply Frame.foldl
    | apply Frame.foldl1
    | intro _

theorem execBarrierDownlinkReceived_frame (frame : BitVec 128) (s : State) :
    Framed [.fio] s (execBarrierDownlinkReceived frame s) := by
  unfold execBarrierDownlinkReceived
  with_reducible repeat' first
    | apply Framed.next
    | assumption
    | decide
    | apply Frame.refl
    | apply Frame.via (xReceive_frame ..)

theorem xTimeout_frame (s : State) :
    Frame [.fio] s (xTimeout s) := by
  unfold xTimeout
  with_reducible repeat' first
    | assumption
    | decide
    | apply Frame.refl
    | (lift_lets; intro x; apply Frame.cut x ?_ (fun _ => ?_); subst x; rotate_left; clear_value x; rotate_right)
    | (lift_lets; intro x; apply Frame.cut x.1 ?_ (fun _ => ?_); subst x; rotate_left; clear_value x; rotate_right)
    | (lift_lets; intro x; clear_value x)
    | apply Frame.via (State.modBank_frame ..)
    | apply Frame.via (xSafeAll_frame ..)
    | apply Frame.ite

theorem execXLinkTimeout_frame (s : State) :
    Framed [.fio] s (execXLinkTimeout s) := by
  unfold execXLinkTimeout
  with_reducible repeat' first
    | apply Framed.next
    | assumption
    | decide
    | apply Frame.refl
    | apply Frame.via (xTimeout_frame ..)

theorem execXOverload_frame (k : Fin 32) (s : State) :
    Framed [.fio] s (execXOverload k s) := by
  unfold execXOverload
  with_reducible repeat' first
    | apply Framed.next
    | assumption
    | decide
    | apply Frame.refl
    | apply Frame.via (State.modX_frame ..)

theorem execXOverloadRetry_frame (k : Fin 32) (clear : Bool) (s : State) :
    Framed [.fio] s (execXOverloadRetry k clear s) := by
  unfold execXOverloadRetry
  with_reducible repeat' first
    | apply Framed.next
    | assumption
    | decide
    | apply Frame.refl
    | apply Frame.via (State.modX_frame ..)

theorem execXOpenWire_frame (k : Fin 32) (s : State) :
    Framed [.fio] s (execXOpenWire k s) := by
  unfold execXOpenWire
  with_reducible repeat' first
    | apply Framed.next
    | assumption
    | decide
    | apply Frame.refl
    | apply Frame.via (State.modX_frame ..)

theorem execXOpenWireEnd_frame (k : Fin 32) (s : State) :
    Framed [.fio] s (execXOpenWireEnd k s) := by
  unfold execXOpenWireEnd
  with_reducible repeat' first
    | apply Framed.next
    | assumption
    | decide
    | apply Frame.refl
    | apply Frame.via (State.modX_frame ..)

theorem execXOvertemp_frame (k : Fin 32) (s : State) :
    Framed [.fio] s (execXOvertemp k s) := by
  unfold execXOvertemp
  with_reducible repeat' first
    | apply Framed.next
    | assumption
    | decide
    | apply Frame.refl
    | apply Frame.via (State.modX_frame ..)

theorem execXOvertempEnd_frame (k : Fin 32) (s : State) :
    Framed [.fio] s (execXOvertempEnd k s) := by
  unfold execXOvertempEnd
  with_reducible repeat' first
    | apply Framed.next
    | assumption
    | decide
    | apply Frame.refl
    | apply Frame.via (State.modX_frame ..)

theorem execXvfLow_frame (s : State) :
    Framed [.fio] s (execXvfLow s) := by
  unfold execXvfLow
  with_reducible repeat' first
    | apply Framed.next
    | assumption
    | decide
    | apply Frame.refl
    | apply Frame.via (State.modBank_frame ..)

theorem execXvfLowEnd_frame (s : State) :
    Framed [.fio] s (execXvfLowEnd s) := by
  unfold execXvfLowEnd
  with_reducible repeat' first
    | apply Framed.next
    | assumption
    | decide
    | apply Frame.refl
    | apply Frame.via (State.modBank_frame ..)

theorem execXvfFail_frame (s : State) :
    Framed [.fio] s (execXvfFail s) := by
  unfold execXvfFail
  with_reducible repeat' first
    | apply Framed.next
    | assumption
    | decide
    | apply Frame.refl
    | apply Frame.ite
    | split
    | apply Frame.set_fio

theorem xRestart_frame (s : State) :
    Frame [.fio] s (xRestart s) := by
  unfold xRestart
  with_reducible repeat' first
    | assumption
    | decide
    | apply Frame.refl
    | apply Frame.ite
    | split
    | apply Frame.set_fio

theorem execXvfRecover_frame (s : State) :
    Framed [.fio] s (execXvfRecover s) := by
  unfold execXvfRecover
  with_reducible repeat' first
    | apply Framed.next
    | assumption
    | decide
    | apply Frame.refl
    | apply Frame.via (xRestart_frame ..)
    | apply Frame.ite

theorem raiseBank_frame (k : EvKind) (s : State) :
    Frame [.mbx, .log, .vz] s (raiseBank k s) := by
  unfold raiseBank
  with_reducible repeat' first
    | assumption
    | decide
    | apply Frame.refl
    | apply Frame.via (raise_frame ..)
    | apply Frame.ite

theorem raiseX_frame (k : EvKind) (i : Nat) (data : List Byte) (s : State) :
    Frame [.mbx, .log, .vz] s (raiseX k i data s) := by
  unfold raiseX
  with_reducible repeat' first
    | assumption
    | decide
    | apply Frame.refl
    | apply Frame.via (raiseFio_frame ..)

theorem xSafeAnswer_frame (st : U16) (s : State) :
    Frame [.mbx, .vz, .fio] s (xSafeAnswer st s) := by
  unfold xSafeAnswer
  with_reducible repeat' first
    | assumption
    | decide
    | apply Frame.refl
    | apply Frame.via (State.modBank_frame ..)
    | apply Frame.via (respond_frame ..)
    | apply Frame.ite
    | split

theorem xAcked_frame (ack : Bool) (s : State) :
    Frame [.mbx, .vz, .fio] s (xAcked ack s) := by
  unfold xAcked
  with_reducible repeat' first
    | assumption
    | decide
    | apply Frame.refl
    | (lift_lets; intro x; apply Frame.cut x ?_ (fun _ => ?_); subst x; rotate_left; clear_value x; rotate_right)
    | (lift_lets; intro x; apply Frame.cut x.1 ?_ (fun _ => ?_); subst x; rotate_left; clear_value x; rotate_right)
    | (lift_lets; intro x; clear_value x)
    | apply Frame.via (State.modBank_frame ..)
    | apply Frame.via (State.modX_frame ..)
    | apply Frame.via (xSafeAnswer_frame ..)
    | apply Frame.ite
    | split
    | dsimp only

theorem readback_frame (k : Nat) (level : Bool) (s : State) :
    Frame [.mbx, .log, .vz, .fio] s (readback k level s) := by
  unfold readback
  with_reducible repeat' first
    | assumption
    | decide
    | apply Frame.refl
    | (lift_lets; intro x; apply Frame.cut x ?_ (fun _ => ?_); subst x; rotate_left; clear_value x; rotate_right)
    | (lift_lets; intro x; apply Frame.cut x.1 ?_ (fun _ => ?_); subst x; rotate_left; clear_value x; rotate_right)
    | (lift_lets; intro x; clear_value x)
    | apply Frame.via (State.modX_frame ..)
    | apply Frame.via (raiseX_frame ..)
    | apply Frame.ite

theorem xDiag_frame (page k : Nat) (on : Bool) (s : State) :
    Frame [.mbx, .log, .vz, .fio] s (xDiag page k on s) := by
  unfold xDiag
  with_reducible repeat' first
    | assumption
    | decide
    | apply Frame.refl
    | (lift_lets; intro x; apply Frame.cut x ?_ (fun _ => ?_); subst x; rotate_left; clear_value x; rotate_right)
    | (lift_lets; intro x; apply Frame.cut x.1 ?_ (fun _ => ?_); subst x; rotate_left; clear_value x; rotate_right)
    | (lift_lets; intro x; clear_value x)
    | apply Frame.via (State.modX_frame ..)
    | apply Frame.via (raiseX_frame ..)
    | apply Frame.ite

theorem xStatusPage_frame (word : U32) (s : State) :
    Frame [.mbx, .log, .vz, .fio] s (xStatusPage word s) := by
  unfold xStatusPage
  with_reducible repeat' first
    | assumption
    | decide
    | apply Frame.refl
    | (lift_lets; intro x; apply Frame.cut x ?_ (fun _ => ?_); subst x; rotate_left; clear_value x; rotate_right)
    | (lift_lets; intro x; apply Frame.cut x.1 ?_ (fun _ => ?_); subst x; rotate_left; clear_value x; rotate_right)
    | (lift_lets; intro x; clear_value x)
    | apply Frame.via (State.modBank_frame ..)
    | apply Frame.via (raiseBank_frame ..)
    | apply Frame.ite

theorem xPage_frame (f : BitVec 128) (s : State) :
    Frame [.mbx, .log, .vz, .fio] s (xPage f s) := by
  unfold xPage
  with_reducible repeat' first
    | assumption
    | decide
    | apply Frame.refl
    | (lift_lets; intro x; apply Frame.cut x ?_ (fun _ => ?_); subst x; rotate_left; clear_value x; rotate_right)
    | (lift_lets; intro x; apply Frame.cut x.1 ?_ (fun _ => ?_); subst x; rotate_left; clear_value x; rotate_right)
    | (lift_lets; intro x; clear_value x)
    | apply Frame.via (xDiag_frame ..)
    | apply Frame.via (xStatusPage_frame ..)
    | apply Frame.ite
    | apply Frame.foldl
    | apply Frame.foldl1
    | intro _

theorem xShow_frame (k st : Nat) (s : State) :
    Frame [.mbx, .log, .tb, .vz, .fio] s (xShow k st s) := by
  unfold xShow
  with_reducible repeat' first
    | assumption
    | decide
    | apply Frame.refl
    | apply Frame.via (State.modX_frame ..)
    | apply Frame.via (captureLevel_frame ..)
    | apply Frame.ite
    | split
    | dsimp only

theorem xStates_frame (f : BitVec 128) (s : State) :
    Frame [.mbx, .log, .tb, .vz, .fio] s (xStates f s) := by
  unfold xStates
  with_reducible repeat' first
    | assumption
    | decide
    | apply Frame.refl
    | (lift_lets; intro x; apply Frame.cut x ?_ (fun _ => ?_); subst x; rotate_left; clear_value x; rotate_right)
    | (lift_lets; intro x; apply Frame.cut x.1 ?_ (fun _ => ?_); subst x; rotate_left; clear_value x; rotate_right)
    | (lift_lets; intro x; clear_value x)
    | apply Frame.via (readback_frame ..)
    | apply Frame.via (xShow_frame ..)
    | apply Frame.ite
    | apply Frame.foldl
    | apply Frame.foldl1
    | intro _

theorem xHeader_frame (f : BitVec 128) (s : State) :
    Frame [.mbx, .log, .vz, .fio] s (xHeader f s) := by
  unfold xHeader
  with_reducible repeat' first
    | assumption
    | decide
    | apply Frame.refl
    | (lift_lets; intro x; apply Frame.cut x ?_ (fun _ => ?_); subst x; rotate_left; clear_value x; rotate_right)
    | (lift_lets; intro x; apply Frame.cut x.1 ?_ (fun _ => ?_); subst x; rotate_left; clear_value x; rotate_right)
    | (lift_lets; intro x; clear_value x)
    | apply Frame.via (State.modBank_frame ..)
    | apply Frame.via (raiseBank_frame ..)
    | apply Frame.ite

theorem xContent_frame (f : BitVec 128) (s : State) :
    Frame [.sys, .mbx, .log, .tb, .vz, .cfg, .ch, .rfx, .twin, .brg, .fio, .sig, .upd] s (xContent f s) := by
  unfold xContent
  with_reducible repeat' first
    | assumption
    | decide
    | apply Frame.refl
    | apply Frame.via (evalRules_frame ..)
    | apply Frame.via (fioSnapUpdate_frame ..)
    | apply Frame.via (xAcked_frame ..)
    | apply Frame.via (xHeader_frame ..)
    | apply Frame.via (xPage_frame ..)
    | apply Frame.via (xStates_frame ..)

theorem xLinkUp_frame (f : BitVec 128) (s : State) :
    Frame [.mbx, .log, .vz, .fio] s (xLinkUp f s) := by
  unfold xLinkUp
  with_reducible repeat' first
    | assumption
    | decide
    | apply Frame.refl
    | (lift_lets; intro x; apply Frame.cut x ?_ (fun _ => ?_); subst x; rotate_left; clear_value x; rotate_right)
    | (lift_lets; intro x; apply Frame.cut x.1 ?_ (fun _ => ?_); subst x; rotate_left; clear_value x; rotate_right)
    | (lift_lets; intro x; clear_value x)
    | apply Frame.via (State.modBank_frame ..)
    | apply Frame.via (raiseBank_frame ..)
    | apply Frame.ite

theorem upSent_frame (s : State) :
    Frame [.fio] s (upSent s) := by
  unfold upSent
  with_reducible repeat' first
    | assumption
    | decide
    | apply Frame.refl
    | apply Frame.via (State.modBank_frame ..)
    | apply Frame.ite
    | split
    | dsimp only

theorem uplink_frame (f : BitVec 128) (s : State) :
    Frame [.sys, .mbx, .log, .tb, .vz, .cfg, .ch, .rfx, .twin, .brg, .fio, .sig, .upd] s (uplink f s) := by
  unfold uplink
  with_reducible repeat' first
    | assumption
    | decide
    | apply Frame.refl
    | (lift_lets; intro x; apply Frame.cut x ?_ (fun _ => ?_); subst x; rotate_left; clear_value x; rotate_right)
    | (lift_lets; intro x; apply Frame.cut x.1 ?_ (fun _ => ?_); subst x; rotate_left; clear_value x; rotate_right)
    | (lift_lets; intro x; clear_value x)
    | apply Frame.via (State.modBank_frame ..)
    | apply Frame.via (upSent_frame ..)
    | apply Frame.via (xContent_frame ..)
    | apply Frame.via (xLinkUp_frame ..)
    | apply Frame.ite

theorem execBarrierUplinkFrame_frame (frame : BitVec 128) (s : State) :
    Framed [.sys, .mbx, .log, .tb, .vz, .cfg, .ch, .rfx, .twin, .brg, .fio, .sig, .upd] s (execBarrierUplinkFrame frame s) := by
  unfold execBarrierUplinkFrame
  with_reducible repeat' first
    | apply Framed.next
    | assumption
    | decide
    | apply Frame.refl
    | apply Frame.via (uplink_frame ..)

theorem xLost_frame (s : State) :
    Frame [.sys, .mbx, .log, .tb, .vz, .cfg, .ch, .rfx, .twin, .brg, .fio, .upd] s (xLost s) := by
  unfold xLost
  with_reducible repeat' first
    | assumption
    | decide
    | apply Frame.refl
    | (lift_lets; intro x; apply Frame.cut x ?_ (fun _ => ?_); subst x; rotate_left; clear_value x; rotate_right)
    | (lift_lets; intro x; apply Frame.cut x.1 ?_ (fun _ => ?_); subst x; rotate_left; clear_value x; rotate_right)
    | (lift_lets; intro x; clear_value x)
    | apply Frame.via (State.modBank_frame ..)
    | apply Frame.via (State.modX_frame ..)
    | apply Frame.via (evalRules_frame ..)
    | apply Frame.via (raiseBank_frame ..)
    | apply Frame.via (xSafeAnswer_frame ..)
    | apply Frame.via (xShow_frame ..)
    | apply Frame.ite
    | apply Frame.foldl
    | apply Frame.foldl1
    | intro _
    | split

theorem execXUplinkLost_frame (s : State) :
    Framed [.sys, .mbx, .log, .tb, .vz, .cfg, .ch, .rfx, .twin, .brg, .fio, .upd] s (execXUplinkLost s) := by
  unfold execXUplinkLost
  with_reducible repeat' first
    | apply Framed.next
    | assumption
    | decide
    | apply Frame.refl
    | apply Frame.via (xLost_frame ..)

theorem readXBank_frame (v : Nat) (s : State) :
    Frame [.mbx, .log, .vz, .fio, .bus] s (readXBank v s) := by
  unfold readXBank
  with_reducible repeat' first
    | assumption
    | decide
    | apply Frame.refl
    | apply Frame.via (State.modBank_frame ..)
    | apply Frame.via (windowFault_frame ..)
    | apply Frame.ite
    | split
    | apply Frame.set_bus

theorem execFioXBankRead_frame (v : Fin 256) (s : State) :
    Framed [.mbx, .log, .vz, .fio, .bus] s (execFioXBankRead v s) := by
  unfold execFioXBankRead
  with_reducible repeat' first
    | apply Framed.next
    | assumption
    | decide
    | apply Frame.refl
    | apply Frame.via (readXBank_frame ..)

theorem State.modSlot_frame (s : State) (v : Nat) (f : XSlot → XSlot) :
    Frame [.fio] s (State.modSlot s v f) := by
  unfold State.modSlot
  with_reducible repeat' first
    | assumption
    | decide
    | apply Frame.refl
    | apply Frame.ite
    | split
    | apply Frame.set_fio

theorem xMaskWrite_frame (v : Nat) (w : U32) (s : State) :
    Frame [.fio] s (xMaskWrite v w s) := by
  unfold xMaskWrite
  with_reducible repeat' first
    | assumption
    | decide
    | apply Frame.refl
    | apply Frame.via (State.modSlot_frame ..)
    | apply Frame.ite
    | split
    | dsimp only

theorem xPut_frame (v : Nat) (ks : List Nat) (val : U32) (gen seq : U16) (s : State) :
    Frame [.fio] s (xPut v ks val gen seq s) := by
  unfold xPut
  with_reducible repeat' first
    | assumption
    | decide
    | apply Frame.refl
    | apply Frame.via (State.modSlot_frame ..)
    | apply Frame.via (State.modX_frame ..)
    | apply Frame.ite
    | apply Frame.foldl
    | apply Frame.foldl1
    | intro _

theorem xDoorbell_frame (v : Nat) (val : U32) (s : State) :
    Frame [.mbx, .log, .vz, .fio, .bus] s (xDoorbell v val s) := by
  unfold xDoorbell
  with_reducible repeat' first
    | assumption
    | decide
    | apply Frame.refl
    | (lift_lets; intro x; apply Frame.cut x ?_ (fun _ => ?_); subst x; rotate_left; clear_value x; rotate_right)
    | (lift_lets; intro x; apply Frame.cut x.1 ?_ (fun _ => ?_); subst x; rotate_left; clear_value x; rotate_right)
    | (lift_lets; intro x; clear_value x)
    | apply Frame.via (State.modSlot_frame ..)
    | apply Frame.via (windowFault_frame ..)
    | apply Frame.via (xPut_frame ..)
    | apply Frame.ite

theorem execFioXCmdValWrite_frame (v : Fin 256) (value : U32) (s : State) :
    Framed [.mbx, .log, .vz, .fio, .bus] s (execFioXCmdValWrite v value s) := by
  unfold execFioXCmdValWrite
  with_reducible repeat' first
    | apply Framed.next
    | assumption
    | decide
    | apply Frame.refl
    | apply Frame.via (xDoorbell_frame ..)

theorem xConfigBody_frame (k : Nat) (m : XMode) (xdb : Nat) (ow : Bool) (s : State) :
    Frame [.fio] s (xConfigBody k m xdb ow s).1 := by
  unfold xConfigBody
  with_reducible repeat' first
    | assumption
    | decide
    | apply Frame.refl
    | (lift_lets; intro x; apply Frame.cut x ?_ (fun _ => ?_); subst x; rotate_left; clear_value x; rotate_right)
    | (lift_lets; intro x; apply Frame.cut x.1 ?_ (fun _ => ?_); subst x; rotate_left; clear_value x; rotate_right)
    | (lift_lets; intro x; clear_value x)
    | apply Frame.via (State.modBank_frame ..)
    | apply Frame.via (State.modX_frame ..)
    | apply Frame.ite
    | apply Frame.ite1

theorem execFioXConfig_frame (r : Req) (channel mode tXdb flags : Byte) (s : State) :
    Framed [.mbx, .vz, .fio] s (execFioXConfig r channel mode tXdb flags s) := by
  unfold execFioXConfig
  with_reducible repeat' first
    | apply Framed.next
    | assumption
    | decide
    | apply Frame.refl
    | apply runCmd_frame
    | apply Frame.via (xConfigBody_frame ..)
    | apply Frame.ite
    | intro _

theorem xSetBody_frame (r : Req) (mask values : U32) (p : Port) (s : State) :
    Frame [.fio] s (xSetBody r mask values p s).1 := by
  unfold xSetBody
  with_reducible repeat' first
    | assumption
    | decide
    | apply Frame.refl
    | (lift_lets; intro x; apply Frame.cut x ?_ (fun _ => ?_); subst x; rotate_left; clear_value x; rotate_right)
    | (lift_lets; intro x; apply Frame.cut x.1 ?_ (fun _ => ?_); subst x; rotate_left; clear_value x; rotate_right)
    | (lift_lets; intro x; clear_value x)
    | apply Frame.via (xPut_frame ..)
    | apply Frame.ite
    | apply Frame.ite1
    | apply Frame.foldl
    | apply Frame.foldl1
    | intro _

theorem execFioXSet_frame (r : Req) (mask values : U32) (s : State) :
    Framed [.mbx, .vz, .fio] s (execFioXSet r mask values s) := by
  unfold execFioXSet
  with_reducible repeat' first
    | apply Framed.next
    | assumption
    | decide
    | apply Frame.refl
    | apply runCmd_frame
    | apply Frame.via (xSetBody_frame ..)
    | apply Frame.ite
    | intro _

theorem xReadBody_frame (p : Port) (s : State) :
    Frame [] s (xReadBody p s).1 := by
  unfold xReadBody
  with_reducible repeat' first
    | assumption
    | decide
    | apply Frame.refl

theorem execFioXRead_frame (r : Req) (s : State) :
    Framed [.mbx, .vz] s (execFioXRead r s) := by
  unfold execFioXRead
  with_reducible repeat' first
    | apply Framed.next
    | assumption
    | decide
    | apply Frame.refl
    | apply runCmd_frame
    | apply Frame.via (xReadBody_frame ..)
    | apply Frame.ite
    | intro _

theorem xSafeBody_frame (r : Req) (safe : U64) (tXto : Nat) (s : State) :
    Frame [.fio] s (xSafeBody r safe tXto s).1 := by
  unfold xSafeBody
  with_reducible repeat' first
    | assumption
    | decide
    | apply Frame.refl
    | (lift_lets; intro x; apply Frame.cut x ?_ (fun _ => ?_); subst x; rotate_left; clear_value x; rotate_right)
    | (lift_lets; intro x; apply Frame.cut x.1 ?_ (fun _ => ?_); subst x; rotate_left; clear_value x; rotate_right)
    | (lift_lets; intro x; clear_value x)
    | apply Frame.via (State.modBank_frame ..)
    | apply Frame.via (State.modX_frame ..)
    | apply Frame.ite
    | apply Frame.ite1
    | apply Frame.foldl
    | apply Frame.foldl1
    | intro _

theorem execFioXSafe_frame (r : Req) (safe : U64) (tXto : U16) (s : State) :
    Framed [.mbx, .vz, .fio] s (execFioXSafe r safe tXto s) := by
  unfold execFioXSafe
  with_reducible repeat' first
    | apply Framed.next
    | assumption
    | decide
    | apply Frame.refl
    | apply runLater_frame
    | apply Frame.via (xSafeBody_frame ..)
    | apply Frame.ite
    | intro _

end Sys2Proof.Machine

end
end

