-- ==== Sys2Proof/Laws/Frames/HandOver.lean ====
section
/-! SUPPORT. The frame of each function of `Machine/HandOver.lean`: the parts of the state it may change. -/

section

set_option Elab.async false

namespace Sys2Proof.Machine

theorem bridgeStart_frame (vin : Int) (s : State) :
    Frame [.sys, .mbx, .log, .tb, .vz, .cfg, .ch, .rfx, .twin, .brg, .fio, .upd] s (bridgeStart vin s) := by
  unfold bridgeStart
  with_reducible repeat' first
    | assumption
    | decide
    | apply Frame.refl
    | (lift_lets; intro x; apply Frame.cut x ?_ (fun _ => ?_); subst x; rotate_left; clear_value x; rotate_right)
    | (lift_lets; intro x; apply Frame.cut x.1 ?_ (fun _ => ?_); subst x; rotate_left; clear_value x; rotate_right)
    | (lift_lets; intro x; clear_value x)
    | apply Frame.via (State.modBrg_frame ..)
    | apply Frame.via (enterBuck_frame ..)
    | apply Frame.via (evalRules_frame ..)
    | apply Frame.ite

theorem execBridgeStart_frame (vin : Int) (s : State) :
    Framed [.sys, .mbx, .log, .tb, .vz, .cfg, .ch, .rfx, .twin, .brg, .fio, .upd] s (execBridgeStart vin s) := by
  unfold execBridgeStart
  with_reducible repeat' first
    | apply Framed.next
    | assumption
    | decide
    | apply Frame.refl
    | apply Frame.via (bridgeStart_frame ..)

theorem noteVz48_frame (v : Int) (s : State) :
    Frame [.brg] s (noteVz48 v s) := by
  unfold noteVz48
  with_reducible repeat' first
    | assumption
    | decide
    | apply Frame.refl
    | apply Frame.via (State.modBrg_frame ..)
    | apply Frame.ite
    | split
    | dsimp only

theorem detect_frame (cause : Nat) (vz48 vin : Int) (s : State) :
    Frame [.sys, .mbx, .log, .tb, .vz, .cfg, .ch, .rfx, .twin, .brg, .fio, .sig, .upd, .free] s (detect cause vz48 vin s) := by
  unfold detect
  with_reducible repeat' first
    | assumption
    | decide
    | apply Frame.refl
    | (lift_lets; intro x; apply Frame.cut x ?_ (fun _ => ?_); subst x; rotate_left; clear_value x; rotate_right)
    | (lift_lets; intro x; apply Frame.cut x.1 ?_ (fun _ => ?_); subst x; rotate_left; clear_value x; rotate_right)
    | (lift_lets; intro x; clear_value x)
    | apply Frame.via (State.modBrg_frame ..)
    | apply Frame.via (evalRules_frame ..)
    | apply Frame.via (prsTrigger_frame ..)
    | apply Frame.via (raiseBrg_frame ..)
    | apply Frame.via (shedTo_frame ..)
    | apply Frame.ite
    | apply Frame.foldl
    | apply Frame.foldl1
    | intro _

theorem keepClass_frame (vin : Int) (s : State) :
    Frame [.sys] s (keepClass vin s) := by
  unfold keepClass
  with_reducible repeat' first
    | assumption
    | decide
    | apply Frame.refl
    | apply Frame.ite
    | split
    | apply Frame.set_sys
    | dsimp only

theorem vinLoss_frame (vz48 vin : Int) (s : State) :
    Frame [.sys, .mbx, .log, .tb, .vz, .cfg, .ch, .rfx, .twin, .brg, .fio, .sig, .upd, .free] s (vinLoss vz48 vin s) := by
  unfold vinLoss
  with_reducible repeat' first
    | assumption
    | decide
    | apply Frame.refl
    | (lift_lets; intro x; apply Frame.cut x ?_ (fun _ => ?_); subst x; rotate_left; clear_value x; rotate_right)
    | (lift_lets; intro x; apply Frame.cut x.1 ?_ (fun _ => ?_); subst x; rotate_left; clear_value x; rotate_right)
    | (lift_lets; intro x; clear_value x)
    | apply Frame.via (State.modBrg_frame ..)
    | apply Frame.via (detect_frame ..)
    | apply Frame.via (feedLoss_frame ..)
    | apply Frame.via (keepClass_frame ..)
    | apply Frame.ite

theorem execVinLossDetected_frame (vz48 vin : Int) (s : State) :
    Framed [.sys, .mbx, .log, .tb, .vz, .cfg, .ch, .rfx, .twin, .brg, .fio, .sig, .upd, .free] s (execVinLossDetected vz48 vin s) := by
  unfold execVinLossDetected
  with_reducible repeat' first
    | apply Framed.next
    | assumption
    | decide
    | apply Frame.refl
    | apply Frame.via (vinLoss_frame ..)

theorem abandon_frame (s : State) :
    Frame [.sys, .mbx, .log, .tb, .vz, .cfg, .ch, .rfx, .twin, .brg, .fio, .upd] s (abandon s) := by
  unfold abandon
  with_reducible repeat' first
    | assumption
    | decide
    | apply Frame.refl
    | (lift_lets; intro x; apply Frame.cut x ?_ (fun _ => ?_); subst x; rotate_left; clear_value x; rotate_right)
    | (lift_lets; intro x; apply Frame.cut x.1 ?_ (fun _ => ?_); subst x; rotate_left; clear_value x; rotate_right)
    | (lift_lets; intro x; clear_value x)
    | apply Frame.via (State.modBrg_frame ..)
    | apply Frame.via (enterBuckRestore_frame ..)
    | apply Frame.via (evalRules_frame ..)
    | apply Frame.via (raiseBrg_frame ..)
    | apply Frame.ite

theorem execHandoverAbandon_frame (s : State) :
    Framed [.sys, .mbx, .log, .tb, .vz, .cfg, .ch, .rfx, .twin, .brg, .fio, .upd] s (execHandoverAbandon s) := by
  unfold execHandoverAbandon
  with_reducible repeat' first
    | apply Framed.next
    | assumption
    | decide
    | apply Frame.refl
    | apply Frame.via (abandon_frame ..)

theorem batteryLow_frame (s : State) :
    Frame [.mbx, .log, .vz, .ch, .brg] s (batteryLow s) := by
  unfold batteryLow
  with_reducible repeat' first
    | assumption
    | decide
    | apply Frame.refl
    | apply Frame.via (State.modBrg_frame ..)
    | apply Frame.via (endHandoverTest_frame ..)
    | apply Frame.via (enterNofeed_frame ..)
    | apply Frame.via (raiseBrg_frame ..)

theorem commit_frame (s : State) :
    Frame [.mbx, .log, .vz, .ch, .brg] s (commit s) := by
  unfold commit
  with_reducible repeat' first
    | assumption
    | decide
    | apply Frame.refl
    | (lift_lets; intro x; apply Frame.cut x ?_ (fun _ => ?_); subst x; rotate_left; clear_value x; rotate_right)
    | (lift_lets; intro x; apply Frame.cut x.1 ?_ (fun _ => ?_); subst x; rotate_left; clear_value x; rotate_right)
    | (lift_lets; intro x; clear_value x)
    | apply Frame.via (State.modBrg_frame ..)
    | apply Frame.via (raiseBrg_frame ..)
    | apply Frame.via (shedTo_frame ..)
    | apply Frame.via (toQualify_frame ..)
    | apply Frame.ite

theorem commitPoint_frame (vbk12 : Int) (s : State) :
    Frame [.sys, .mbx, .log, .tb, .vz, .cfg, .ch, .rfx, .twin, .brg, .fio, .upd] s (commitPoint vbk12 s) := by
  unfold commitPoint
  with_reducible repeat' first
    | assumption
    | decide
    | apply Frame.refl
    | apply Frame.via (batteryLow_frame ..)
    | apply Frame.via (commit_frame ..)
    | apply Frame.via (evalRules_frame ..)
    | apply Frame.ite

theorem execCommitPoint_frame (vbk12 : Int) (s : State) :
    Framed [.sys, .mbx, .log, .tb, .vz, .cfg, .ch, .rfx, .twin, .brg, .fio, .upd] s (execCommitPoint vbk12 s) := by
  unfold execCommitPoint
  with_reducible repeat' first
    | apply Framed.next
    | assumption
    | decide
    | apply Frame.refl
    | apply Frame.via (commitPoint_frame ..)

theorem execVinValidInBoost_frame (s : State) :
    Framed [.sys, .mbx, .log, .tb, .vz, .cfg, .ch, .rfx, .twin, .brg, .fio, .upd] s (execVinValidInBoost s) := by
  unfold execVinValidInBoost
  with_reducible repeat' first
    | apply Framed.next
    | assumption
    | decide
    | apply Frame.refl
    | apply Frame.via (State.modBrg_frame ..)
    | apply Frame.via (evalRules_frame ..)
    | apply Frame.via (toQualify_frame ..)

theorem execVinInvalidInQualify_frame (s : State) :
    Framed [.sys, .mbx, .log, .tb, .vz, .cfg, .ch, .rfx, .twin, .brg, .fio, .upd] s (execVinInvalidInQualify s) := by
  unfold execVinInvalidInQualify
  with_reducible repeat' first
    | apply Framed.next
    | assumption
    | decide
    | apply Frame.refl
    | apply Frame.via (State.modBrg_frame ..)
    | apply Frame.via (evalRules_frame ..)

theorem qualified_frame (s : State) :
    Frame [.sys, .mbx, .log, .tb, .vz, .cfg, .ch, .rfx, .twin, .brg, .fio, .upd] s (qualified s) := by
  unfold qualified
  with_reducible repeat' first
    | assumption
    | decide
    | apply Frame.refl
    | apply Frame.via (enterHandback_frame ..)
    | apply Frame.via (evalRules_frame ..)
    | apply Frame.ite

theorem execQualifyTimeout_frame (s : State) :
    Framed [.sys, .mbx, .log, .tb, .vz, .cfg, .ch, .rfx, .twin, .brg, .fio, .upd] s (execQualifyTimeout s) := by
  unfold execQualifyTimeout
  with_reducible repeat' first
    | apply Framed.next
    | assumption
    | decide
    | apply Frame.refl
    | apply Frame.via (qualified_frame ..)

theorem rampComplete_frame (s : State) :
    Frame [.sys, .mbx, .log, .tb, .vz, .cfg, .ch, .rfx, .twin, .brg, .fio, .upd] s (rampComplete s) := by
  unfold rampComplete
  with_reducible repeat' first
    | assumption
    | decide
    | apply Frame.refl
    | apply Frame.via (State.modBrg_frame ..)
    | apply Frame.via (enterBuckRestore_frame ..)
    | apply Frame.via (evalRules_frame ..)
    | apply Frame.via (raiseBrg_frame ..)
    | apply Frame.ite

theorem execHandbackRampComplete_frame (s : State) :
    Framed [.sys, .mbx, .log, .tb, .vz, .cfg, .ch, .rfx, .twin, .brg, .fio, .upd] s (execHandbackRampComplete s) := by
  unfold execHandbackRampComplete
  with_reducible repeat' first
    | apply Framed.next
    | assumption
    | decide
    | apply Frame.refl
    | apply Frame.via (rampComplete_frame ..)

theorem execVbk12Low_frame (s : State) :
    Framed [.sys, .mbx, .log, .tb, .vz, .cfg, .ch, .rfx, .twin, .brg, .fio, .upd] s (execVbk12Low s) := by
  unfold execVbk12Low
  with_reducible repeat' first
    | apply Framed.next
    | assumption
    | decide
    | apply Frame.refl
    | apply Frame.via (batteryLow_frame ..)
    | apply Frame.via (evalRules_frame ..)
    | apply Frame.ite

theorem boostOverload_frame (ibk vz48 : Int) (s : State) :
    Frame [.sys, .mbx, .log, .tb, .vz, .cfg, .ch, .rfx, .twin, .brg, .fio, .upd] s (boostOverload ibk vz48 s) := by
  unfold boostOverload
  with_reducible repeat' first
    | assumption
    | decide
    | apply Frame.refl
    | (lift_lets; intro x; apply Frame.cut x ?_ (fun _ => ?_); subst x; rotate_left; clear_value x; rotate_right)
    | (lift_lets; intro x; apply Frame.cut x.1 ?_ (fun _ => ?_); subst x; rotate_left; clear_value x; rotate_right)
    | (lift_lets; intro x; clear_value x)
    | apply Frame.via (evalRules_frame ..)
    | apply Frame.via (noteVz48_frame ..)
    | apply Frame.via (raiseBrg_frame ..)
    | apply Frame.via (shedTo_frame ..)
    | apply Frame.ite

theorem execBoostOverload_frame (ibk vz48 : Int) (s : State) :
    Framed [.sys, .mbx, .log, .tb, .vz, .cfg, .ch, .rfx, .twin, .brg, .fio, .upd] s (execBoostOverload ibk vz48 s) := by
  unfold execBoostOverload
  with_reducible repeat' first
    | apply Framed.next
    | assumption
    | decide
    | apply Frame.refl
    | apply Frame.via (boostOverload_frame ..)

theorem execShedRestore_frame (s : State) :
    Framed [.sys, .mbx, .log, .tb, .vz, .cfg, .ch, .rfx, .twin, .brg, .fio, .upd] s (execShedRestore s) := by
  unfold execShedRestore
  with_reducible repeat' first
    | apply Framed.next
    | assumption
    | decide
    | apply Frame.refl
    | apply Frame.via (evalRules_frame ..)
    | apply Frame.via (releaseLevel_frame ..)
    | apply Frame.ite

theorem execVz12GroupRelease_frame (s : State) :
    Framed [.sys, .mbx, .log, .tb, .vz, .cfg, .ch, .rfx, .twin, .brg, .fio, .upd] s (execVz12GroupRelease s) := by
  unfold execVz12GroupRelease
  with_reducible repeat' first
    | apply Framed.next
    | assumption
    | decide
    | apply Frame.refl
    | apply Frame.via (State.modBrg_frame ..)
    | apply Frame.via (applyStage_frame ..)
    | apply Frame.via (evalRules_frame ..)
    | apply Frame.ite

theorem phaseLatch_frame (ph : Nat) (s : State) :
    Frame [.sys, .mbx, .log, .tb, .vz, .cfg, .ch, .rfx, .twin, .brg, .fio, .upd] s (phaseLatch ph s) := by
  unfold phaseLatch
  with_reducible repeat' first
    | assumption
    | decide
    | apply Frame.refl
    | (lift_lets; intro x; apply Frame.cut x ?_ (fun _ => ?_); subst x; rotate_left; clear_value x; rotate_right)
    | (lift_lets; intro x; apply Frame.cut x.1 ?_ (fun _ => ?_); subst x; rotate_left; clear_value x; rotate_right)
    | (lift_lets; intro x; clear_value x)
    | apply Frame.via (State.modBrg_frame ..)
    | apply Frame.via (endHandoverTest_frame ..)
    | apply Frame.via (enterStopped_frame ..)
    | apply Frame.via (evalRules_frame ..)
    | apply Frame.via (raiseBrg_frame ..)
    | apply Frame.ite

theorem execPhaseOvercurrentLatch_frame (ph : Fin 4) (s : State) :
    Framed [.sys, .mbx, .log, .tb, .vz, .cfg, .ch, .rfx, .twin, .brg, .fio, .upd] s (execPhaseOvercurrentLatch ph s) := by
  unfold execPhaseOvercurrentLatch
  with_reducible repeat' first
    | apply Framed.next
    | assumption
    | decide
    | apply Frame.refl
    | apply Frame.via (phaseLatch_frame ..)

theorem dieHot_frame (temp : Int) (s : State) :
    Frame [.mbx, .log, .vz, .brg] s (dieHot temp s) := by
  unfold dieHot
  with_reducible repeat' first
    | assumption
    | decide
    | apply Frame.refl
    | (lift_lets; intro x; apply Frame.cut x ?_ (fun _ => ?_); subst x; rotate_left; clear_value x; rotate_right)
    | (lift_lets; intro x; apply Frame.cut x.1 ?_ (fun _ => ?_); subst x; rotate_left; clear_value x; rotate_right)
    | (lift_lets; intro x; clear_value x)
    | apply Frame.via (State.modBrg_frame ..)
    | apply Frame.via (raiseBrg_frame ..)
    | apply Frame.ite
    | split
    | dsimp only

theorem execBridgeDieHot_frame (temp : Int) (s : State) :
    Framed [.mbx, .log, .vz, .brg] s (execBridgeDieHot temp s) := by
  unfold execBridgeDieHot
  with_reducible repeat' first
    | apply Framed.next
    | assumption
    | decide
    | apply Frame.refl
    | apply Frame.via (dieHot_frame ..)
    | apply Frame.ite

theorem dieOvertemp_frame (temp : Int) (s : State) :
    Frame [.sys, .mbx, .log, .tb, .vz, .cfg, .ch, .rfx, .twin, .brg, .fio, .upd] s (dieOvertemp temp s) := by
  unfold dieOvertemp
  with_reducible repeat' first
    | assumption
    | decide
    | apply Frame.refl
    | (lift_lets; intro x; apply Frame.cut x ?_ (fun _ => ?_); subst x; rotate_left; clear_value x; rotate_right)
    | (lift_lets; intro x; apply Frame.cut x.1 ?_ (fun _ => ?_); subst x; rotate_left; clear_value x; rotate_right)
    | (lift_lets; intro x; clear_value x)
    | apply Frame.via (State.modBrg_frame ..)
    | apply Frame.via (dieHot_frame ..)
    | apply Frame.via (endHandoverTest_frame ..)
    | apply Frame.via (enterNofeed_frame ..)
    | apply Frame.via (enterStopped_frame ..)
    | apply Frame.via (evalRules_frame ..)
    | apply Frame.via (raiseBrg_frame ..)
    | apply Frame.ite

theorem execBridgeDieOvertemp_frame (temp : Int) (s : State) :
    Framed [.sys, .mbx, .log, .tb, .vz, .cfg, .ch, .rfx, .twin, .brg, .fio, .upd] s (execBridgeDieOvertemp temp s) := by
  unfold execBridgeDieOvertemp
  with_reducible repeat' first
    | apply Framed.next
    | assumption
    | decide
    | apply Frame.refl
    | apply Frame.via (dieOvertemp_frame ..)

theorem execBridgeDieCooled_frame (temp : Int) (s : State) :
    Framed [.mbx, .log, .vz, .brg] s (execBridgeDieCooled temp s) := by
  unfold execBridgeDieCooled
  with_reducible repeat' first
    | apply Framed.next
    | assumption
    | decide
    | apply Frame.refl
    | apply Frame.via (dieHot_frame ..)

theorem vz12Under_frame (vz12 : Int) (s : State) :
    Frame [.mbx, .log, .vz, .brg] s (vz12Under vz12 s) := by
  unfold vz12Under
  with_reducible repeat' first
    | assumption
    | decide
    | apply Frame.refl
    | (lift_lets; intro x; apply Frame.cut x ?_ (fun _ => ?_); subst x; rotate_left; clear_value x; rotate_right)
    | (lift_lets; intro x; apply Frame.cut x.1 ?_ (fun _ => ?_); subst x; rotate_left; clear_value x; rotate_right)
    | (lift_lets; intro x; clear_value x)
    | apply Frame.via (State.modBrg_frame ..)
    | apply Frame.via (raiseBrg_frame ..)
    | apply Frame.ite

theorem execVz12Undervoltage_frame (vz12 : Int) (s : State) :
    Framed [.mbx, .log, .vz, .brg] s (execVz12Undervoltage vz12 s) := by
  unfold execVz12Undervoltage
  with_reducible repeat' first
    | apply Framed.next
    | assumption
    | decide
    | apply Frame.refl
    | apply Frame.via (vz12Under_frame ..)

theorem execVz12Retry_frame (regulated : Bool) (s : State) :
    Framed [.brg] s (execVz12Retry regulated s) := by
  unfold execVz12Retry
  with_reducible repeat' first
    | apply Framed.next
    | assumption
    | decide
    | apply Frame.refl
    | apply Frame.via (State.modBrg_frame ..)
    | apply Frame.ite

theorem controlStop_frame (s : State) :
    Frame [.sys, .mbx, .log, .tb, .vz, .cfg, .ch, .rfx, .twin, .brg, .fio, .upd] s (controlStop s) := by
  unfold controlStop
  with_reducible repeat' first
    | assumption
    | decide
    | apply Frame.refl
    | apply Frame.via (endHandoverTest_frame ..)
    | apply Frame.via (enterStopped_frame ..)
    | apply Frame.via (evalRules_frame ..)

theorem execBridgeControlStop_frame (s : State) :
    Framed [.sys, .mbx, .log, .tb, .vz, .cfg, .ch, .rfx, .twin, .brg, .fio, .upd] s (execBridgeControlStop s) := by
  unfold execBridgeControlStop
  with_reducible repeat' first
    | apply Framed.next
    | assumption
    | decide
    | apply Frame.refl
    | apply Frame.via (controlStop_frame ..)

theorem vinEntry_frame (reverse : Bool) (vin : Int) (s : State) :
    Frame [.brg] s (vinEntry reverse vin s) := by
  unfold vinEntry
  with_reducible repeat' first
    | assumption
    | decide
    | apply Frame.refl
    | (lift_lets; intro x; apply Frame.cut x ?_ (fun _ => ?_); subst x; rotate_left; clear_value x; rotate_right)
    | (lift_lets; intro x; apply Frame.cut x.1 ?_ (fun _ => ?_); subst x; rotate_left; clear_value x; rotate_right)
    | (lift_lets; intro x; clear_value x)
    | apply Frame.via (State.modBrg_frame ..)

theorem execVinWindowEntry_frame (reverse : Bool) (vin : Int) (s : State) :
    Framed [.brg] s (execVinWindowEntry reverse vin s) := by
  unfold execVinWindowEntry
  with_reducible repeat' first
    | apply Framed.next
    | assumption
    | decide
    | apply Frame.refl
    | apply Frame.via (vinEntry_frame ..)

theorem brgMeasured_frame (m : BrgMeasure) (s : State) :
    Frame [.brg] s (brgMeasured m s) := by
  unfold brgMeasured
  with_reducible repeat' first
    | assumption
    | decide
    | apply Frame.refl
    | apply Frame.via (State.modBrg_frame ..)
    | apply Frame.via (noteVz48_frame ..)

theorem execBrgGetStatus_frame (r : Req) (m : BrgMeasure) (s : State) :
    Framed [.mbx, .vz, .brg] s (execBrgGetStatus r m s) := by
  unfold execBrgGetStatus
  with_reducible repeat' first
    | apply Framed.next
    | assumption
    | decide
    | apply Frame.refl
    | apply Frame.via (brgMeasured_frame ..)
    | apply runCmd_frame
    | apply Frame.ite
    | intro _

theorem brgBody_frame {w : List Part} {s0 s : State} {body : State → State × Reply} (h : Frame w s0 s) (hb : Frame w s0 (body s).1) :
    Frame w s0 (brgBody body s).1 := by
  unfold brgBody
  split <;> assumption

theorem putTarget_frame (v : Nat) (s : State) :
    Frame [.brg] s (putTarget v s) := by
  unfold putTarget
  with_reducible repeat' first
    | assumption
    | decide
    | apply Frame.refl
    | apply Frame.via (State.modBrg_frame ..)

theorem execBrgSetTarget_frame (r : Req) (vZ12 : U16) (s : State) :
    Framed [.mbx, .vz, .brg] s (execBrgSetTarget r vZ12 s) := by
  unfold execBrgSetTarget
  with_reducible repeat' first
    | apply Framed.next
    | assumption
    | decide
    | apply Frame.refl
    | apply brgBody_frame
    | apply Frame.via (putTarget_frame ..)
    | apply runCmd_frame
    | apply Frame.ite
    | intro _

theorem setLimitsBody_frame (l : BrgLimits) (s : State) :
    Frame [.sys, .mbx, .log, .tb, .vz, .cfg, .ch, .rfx, .twin, .brg, .fio, .upd] s (setLimitsBody l s).1 := by
  unfold setLimitsBody
  with_reducible repeat' first
    | assumption
    | decide
    | apply Frame.refl
    | apply Frame.via (State.modBrg_frame ..)
    | apply Frame.via (applyStage_frame ..)
    | apply Frame.via (evalRules_frame ..)
    | apply Frame.ite
    | apply Frame.ite1

theorem execBrgSetLimits_frame (r : Req) (f : LimitsFields) (s : State) :
    Framed [.sys, .mbx, .log, .tb, .vz, .cfg, .ch, .rfx, .twin, .brg, .fio, .upd] s (execBrgSetLimits r f s) := by
  unfold execBrgSetLimits
  with_reducible repeat' first
    | apply Framed.next
    | assumption
    | decide
    | apply Frame.refl
    | apply brgBody_frame
    | apply runCmd_frame
    | apply Frame.via (setLimitsBody_frame ..)
    | apply Frame.ite
    | intro _

theorem releaseBody_frame (s : State) :
    Frame [.sys, .mbx, .log, .tb, .vz, .cfg, .ch, .rfx, .twin, .brg, .fio, .upd] s (releaseBody s).1 := by
  unfold releaseBody
  with_reducible repeat' first
    | assumption
    | decide
    | apply Frame.refl
    | (lift_lets; intro x; apply Frame.cut x ?_ (fun _ => ?_); subst x; rotate_left; clear_value x; rotate_right)
    | (lift_lets; intro x; apply Frame.cut x.1 ?_ (fun _ => ?_); subst x; rotate_left; clear_value x; rotate_right)
    | (lift_lets; intro x; clear_value x)
    | apply Frame.via (State.modBrg_frame ..)
    | apply Frame.via (evalRules_frame ..)
    | apply Frame.via (toQualify_frame ..)
    | apply Frame.ite
    | apply Frame.ite1

theorem execBrgRelease_frame (r : Req) (s : State) :
    Framed [.sys, .mbx, .log, .tb, .vz, .cfg, .ch, .rfx, .twin, .brg, .fio, .upd] s (execBrgRelease r s) := by
  unfold execBrgRelease
  with_reducible repeat' first
    | apply Framed.next
    | assumption
    | decide
    | apply Frame.refl
    | apply brgBody_frame
    | apply Frame.via (releaseBody_frame ..)
    | apply runCmd_frame
    | apply Frame.ite
    | intro _

theorem execBrgSetShed_frame (r : Req) (shedHo shedAt : Byte) (s : State) :
    Framed [.mbx, .vz, .brg] s (execBrgSetShed r shedHo shedAt s) := by
  unfold execBrgSetShed
  with_reducible repeat' first
    | apply Framed.next
    | assumption
    | decide
    | apply Frame.refl
    | apply Frame.via (State.modBrg_frame ..)
    | apply brgBody_frame
    | apply runCmd_frame
    | apply Frame.ite
    | intro _

theorem testHandoverBody_frame (r : Req) (duration : Nat) (vin vbk12 : Int) (s : State) :
    Frame [.sys, .mbx, .log, .tb, .vz, .cfg, .ch, .rfx, .twin, .brg, .fio, .sig, .upd, .free] s (testHandoverBody r duration vin vbk12 s).1 := by
  unfold testHandoverBody
  with_reducible repeat' first
    | assumption
    | decide
    | apply Frame.refl
    | (lift_lets; intro x; apply Frame.cut x ?_ (fun _ => ?_); subst x; rotate_left; clear_value x; rotate_right)
    | (lift_lets; intro x; apply Frame.cut x.1 ?_ (fun _ => ?_); subst x; rotate_left; clear_value x; rotate_right)
    | (lift_lets; intro x; clear_value x)
    | apply Frame.via (State.modBrg_frame ..)
    | apply Frame.via (detect_frame ..)
    | apply Frame.ite
    | apply Frame.ite1

theorem execBrgTestHandover_frame (r : Req) (duration : U16) (vin vbk12 : Int) (s : State) :
    Framed [.sys, .mbx, .log, .tb, .vz, .cfg, .ch, .rfx, .twin, .brg, .fio, .sig, .upd, .free] s (execBrgTestHandover r duration vin vbk12 s) := by
  unfold execBrgTestHandover
  with_reducible repeat' first
    | apply Framed.next
    | assumption
    | decide
    | apply Frame.refl
    | apply brgBody_frame
    | apply runCmd_frame
    | apply Frame.via (testHandoverBody_frame ..)
    | apply Frame.ite
    | intro _

theorem handoverTestEnd_frame (lowest peak : Int) (energy : U32) (s : State) :
    Frame [.sys, .mbx, .log, .tb, .vz, .cfg, .ch, .rfx, .twin, .brg, .fio, .upd] s (handoverTestEnd lowest peak energy s) := by
  unfold handoverTestEnd
  with_reducible repeat' first
    | assumption
    | decide
    | apply Frame.refl
    | (lift_lets; intro x; apply Frame.cut x ?_ (fun _ => ?_); subst x; rotate_left; clear_value x; rotate_right)
    | (lift_lets; intro x; apply Frame.cut x.1 ?_ (fun _ => ?_); subst x; rotate_left; clear_value x; rotate_right)
    | (lift_lets; intro x; clear_value x)
    | apply Frame.via (endHandoverTest_frame ..)
    | apply Frame.via (enterHandback_frame ..)
    | apply Frame.via (evalRules_frame ..)
    | apply Frame.ite

theorem execHandoverTestEnd_frame (lowest peak : Int) (energy : U32) (s : State) :
    Framed [.sys, .mbx, .log, .tb, .vz, .cfg, .ch, .rfx, .twin, .brg, .fio, .upd] s (execHandoverTestEnd lowest peak energy s) := by
  unfold execHandoverTestEnd
  with_reducible repeat' first
    | apply Framed.next
    | assumption
    | decide
    | apply Frame.refl
    | apply Frame.via (handoverTestEnd_frame ..)

end Sys2Proof.Machine

end
end

