-- ==== Sys2Proof/Laws/Frames/Keys.lean ====
section
/-! SUPPORT. The frame of each function of `Machine/Keys.lean`: the parts of the state it may change. -/

section

set_option Elab.async false

namespace Sys2Proof.Machine

theorem countUse_frame (s : State) (st : U16) :
    Frame [.key] s (countUse s st) := by
  unfold countUse
  with_reducible repeat' first
    | assumption
    | decide
    | apply Frame.refl
    | apply Frame.via (countRefused_frame ..)
    | apply Frame.ite

theorem writeSlot_frame (n : Nat) (f : KeySlot → KeySlot) (s : State) :
    Frame [.mbx, .log, .vz, .key] s (writeSlot n f s).1 := by
  unfold writeSlot
  with_reducible repeat' first
    | assumption
    | decide
    | apply Frame.refl
    | (lift_lets; intro x; apply Frame.cut x ?_ (fun _ => ?_); subst x; rotate_left; clear_value x; rotate_right)
    | (lift_lets; intro x; apply Frame.cut x.1 ?_ (fun _ => ?_); subst x; rotate_left; clear_value x; rotate_right)
    | (lift_lets; intro x; clear_value x)
    | apply Frame.via (raiseKey_frame ..)
    | apply Frame.ite
    | apply Frame.ite1
    | split
    | apply Frame.set_key

theorem provisionBody_frame (f : ProvisionFields) (s : State) :
    Frame [.sys, .mbx, .log, .vz, .key] s (provisionBody f s).1 := by
  unfold provisionBody
  with_reducible repeat' first
    | assumption
    | decide
    | apply Frame.refl
    | (lift_lets; intro x; apply Frame.cut x ?_ (fun _ => ?_); subst x; rotate_left; clear_value x; rotate_right)
    | (lift_lets; intro x; apply Frame.cut x.1 ?_ (fun _ => ?_); subst x; rotate_left; clear_value x; rotate_right)
    | (lift_lets; intro x; clear_value x)
    | apply Frame.via (countUse_frame ..)
    | apply Frame.via (useNonce_frame ..)
    | apply Frame.via (writeSlot_frame ..)
    | apply Frame.ite
    | apply Frame.ite1
    | split
    | apply Frame.set_key

theorem execKeyProvision_frame (r : Req) (f : ProvisionFields) (s : State) :
    Framed [.sys, .mbx, .log, .vz, .key] s (execKeyProvision r f s) := by
  unfold execKeyProvision
  with_reducible repeat' first
    | apply Framed.next
    | assumption
    | decide
    | apply Frame.refl
    | apply Frame.via (provisionBody_frame ..)
    | apply runCmd_frame
    | apply Frame.ite
    | intro _

theorem eraseBody_frame (n nonce : Nat) (sig : KeySig) (s : State) :
    Frame [.sys, .mbx, .log, .vz, .key] s (eraseBody n nonce sig s).1 := by
  unfold eraseBody
  with_reducible repeat' first
    | assumption
    | decide
    | apply Frame.refl
    | (lift_lets; intro x; apply Frame.cut x ?_ (fun _ => ?_); subst x; rotate_left; clear_value x; rotate_right)
    | (lift_lets; intro x; apply Frame.cut x.1 ?_ (fun _ => ?_); subst x; rotate_left; clear_value x; rotate_right)
    | (lift_lets; intro x; clear_value x)
    | apply Frame.via (countUse_frame ..)
    | apply Frame.via (useNonce_frame ..)
    | apply Frame.via (writeSlot_frame ..)
    | apply Frame.ite
    | apply Frame.ite1
    | split
    | apply Frame.set_key

theorem execKeyEraseSlot_frame (r : Req) (slot : Byte) (nonce : Nat) (sig : KeySig) (s : State) :
    Framed [.sys, .mbx, .log, .vz, .key] s (execKeyEraseSlot r slot nonce sig s) := by
  unfold execKeyEraseSlot
  with_reducible repeat' first
    | apply Framed.next
    | assumption
    | decide
    | apply Frame.refl
    | apply Frame.via (eraseBody_frame ..)
    | apply runCmd_frame
    | apply Frame.ite
    | intro _

theorem slotStatusBody_frame (first count : Nat) (s : State) :
    Frame [] s (slotStatusBody first count s).1 := by
  unfold slotStatusBody
  with_reducible repeat' first
    | assumption
    | decide
    | apply Frame.refl

theorem execKeySlotStatus_frame (r : Req) (first count : Byte) (s : State) :
    Framed [.mbx, .vz] s (execKeySlotStatus r first count s) := by
  unfold execKeySlotStatus
  with_reducible repeat' first
    | apply Framed.next
    | assumption
    | decide
    | apply Frame.refl
    | apply runCmd_frame
    | apply Frame.via (slotStatusBody_frame ..)
    | apply Frame.ite
    | intro _

theorem trngFail_frame (s : State) :
    Frame [.mbx, .log, .vz, .key] s (trngFail s) := by
  unfold trngFail
  with_reducible repeat' first
    | assumption
    | decide
    | apply Frame.refl
    | apply Frame.via (raiseKey_frame ..)
    | apply Frame.ite
    | split
    | apply Frame.set_key

theorem execTrngHealthFail_frame (s : State) :
    Framed [.mbx, .log, .vz, .key] s (execTrngHealthFail s) := by
  unfold execTrngHealthFail
  with_reducible repeat' first
    | apply Framed.next
    | assumption
    | decide
    | apply Frame.refl
    | apply Frame.via (trngFail_frame ..)

theorem randomBody_frame (n : Nat) (s : State) :
    Frame [.free] s (randomBody n s).1 := by
  unfold randomBody
  with_reducible repeat' first
    | assumption
    | decide
    | apply Frame.refl
    | apply Frame.via (State.draw_frame ..)
    | apply Frame.ite
    | apply Frame.ite1

theorem execKeyRandom_frame (r : Req) (n : U16) (s : State) :
    Framed [.mbx, .vz, .free] s (execKeyRandom r n s) := by
  unfold execKeyRandom
  with_reducible repeat' first
    | apply Framed.next
    | assumption
    | decide
    | apply Frame.refl
    | apply Frame.via (randomBody_frame ..)
    | apply runCmd_frame
    | apply Frame.ite
    | intro _

theorem identityBody_frame (s : State) :
    Frame [] s (identityBody s).1 := by
  unfold identityBody
  with_reducible repeat' first
    | assumption
    | decide
    | apply Frame.refl
    | apply Frame.ite
    | apply Frame.ite1

theorem execKeyGetIdentity_frame (r : Req) (s : State) :
    Framed [.mbx, .vz] s (execKeyGetIdentity r s) := by
  unfold execKeyGetIdentity
  with_reducible repeat' first
    | apply Framed.next
    | assumption
    | decide
    | apply Frame.refl
    | apply Frame.via (identityBody_frame ..)
    | apply runCmd_frame
    | apply Frame.ite
    | intro _

theorem attestBody_frame (r : Req) (nonce : List Byte) (mldsa : Bool) (s : State) :
    Frame [.mbx, .vz, .free] s (attestBody r nonce mldsa s).1 := by
  unfold attestBody
  with_reducible repeat' first
    | assumption
    | decide
    | apply Frame.refl
    | (lift_lets; intro x; apply Frame.cut x ?_ (fun _ => ?_); subst x; rotate_left; clear_value x; rotate_right)
    | (lift_lets; intro x; apply Frame.cut x.1 ?_ (fun _ => ?_); subst x; rotate_left; clear_value x; rotate_right)
    | (lift_lets; intro x; clear_value x)
    | apply Frame.via (State.draw_frame ..)
    | apply Frame.via (complete_frame ..)
    | apply Frame.via (respond_frame ..)
    | apply Frame.ite
    | apply Frame.ite1

theorem execKeyAttest_frame (r : Req) (nonce : List Byte) (flags : Byte) (s : State) :
    Framed [.mbx, .vz, .free] s (execKeyAttest r nonce flags s) := by
  unfold execKeyAttest
  with_reducible repeat' first
    | apply Framed.next
    | assumption
    | decide
    | apply Frame.refl
    | apply Frame.via (attestBody_frame ..)
    | apply runLater_frame
    | apply Frame.ite
    | intro _

end Sys2Proof.Machine

end
end

