-- ==== Sys2Proof/Laws/Frames/LogRows.lean ====
section
/-! SUPPORT. The frame of each function of `Machine/LogRows.lean`: the parts of the state it may change. -/

section

set_option Elab.async false

namespace Sys2Proof.Machine

theorem execLogRead_frame (r : Req) (store : Byte) (first : U32) (count : U16) (s : State) :
    Framed [.mbx, .vz] s (execLogRead r store first count s) := by
  unfold execLogRead
  with_reducible repeat' first
    | apply Framed.next
    | assumption
    | decide
    | apply Frame.refl
    | apply runCmd_frame
    | apply Frame.ite
    | intro _

theorem archiveBody_frame (last : U32) (s : State) :
    Frame [.log] s (archiveBody last s).1 := by
  unfold archiveBody
  with_reducible repeat' first
    | assumption
    | decide
    | apply Frame.refl
    | (lift_lets; intro x; apply Frame.cut x ?_ (fun _ => ?_); subst x; rotate_left; clear_value x; rotate_right)
    | (lift_lets; intro x; apply Frame.cut x.1 ?_ (fun _ => ?_); subst x; rotate_left; clear_value x; rotate_right)
    | (lift_lets; intro x; clear_value x)
    | apply Frame.ite
    | apply Frame.ite1
    | split
    | apply Frame.set_log

theorem execLogArchive_frame (r : Req) (last : U32) (s : State) :
    Framed [.mbx, .log, .vz] s (execLogArchive r last s) := by
  unfold execLogArchive
  with_reducible repeat' first
    | apply Framed.next
    | assumption
    | decide
    | apply Frame.refl
    | apply Frame.via (archiveBody_frame ..)
    | apply runCmd_frame
    | apply Frame.ite
    | intro _

theorem logStatusBody_frame (op : Nat) (s : State) :
    Frame [.log] s (logStatusBody op s).1 := by
  unfold logStatusBody
  with_reducible repeat' first
    | assumption
    | decide
    | apply Frame.refl
    | (lift_lets; intro x; apply Frame.cut x ?_ (fun _ => ?_); subst x; rotate_left; clear_value x; rotate_right)
    | (lift_lets; intro x; apply Frame.cut x.1 ?_ (fun _ => ?_); subst x; rotate_left; clear_value x; rotate_right)
    | (lift_lets; intro x; clear_value x)
    | apply Frame.ite
    | apply Frame.ite1
    | split
    | apply Frame.set_log

theorem execLogStatus_frame (r : Req) (op : Byte) (s : State) :
    Framed [.mbx, .log, .vz] s (execLogStatus r op s) := by
  unfold execLogStatus
  with_reducible repeat' first
    | apply Framed.next
    | assumption
    | decide
    | apply Frame.refl
    | apply Frame.via (logStatusBody_frame ..)
    | apply runCmd_frame
    | apply Frame.ite
    | intro _

theorem execLogReadStones_frame (r : Req) (s : State) :
    Framed [.mbx, .vz] s (execLogReadStones r s) := by
  unfold execLogReadStones
  with_reducible repeat' first
    | apply Framed.next
    | assumption
    | decide
    | apply Frame.refl
    | apply runCmd_frame
    | apply Frame.ite
    | intro _

theorem clearStones_frame (s : State) :
    Frame [.log] s (clearStones s) := by
  unfold clearStones
  with_reducible repeat' first
    | assumption
    | decide
    | apply Frame.refl
    | apply Frame.ite
    | split
    | apply Frame.set_log

theorem execLogClearStones_frame (r : Req) (s : State) :
    Framed [.mbx, .log, .vz] s (execLogClearStones r s) := by
  unfold execLogClearStones
  with_reducible repeat' first
    | apply Framed.next
    | assumption
    | decide
    | apply Frame.refl
    | apply Frame.via (clearStones_frame ..)
    | apply runCmd_frame
    | apply Frame.ite
    | intro _

theorem execStoneCopyDone_frame (stone : Fin 16) (s : State) :
    Framed [.log] s (execStoneCopyDone stone s) := by
  unfold execStoneCopyDone
  with_reducible repeat' first
    | apply Framed.next
    | assumption
    | decide
    | apply Frame.refl
    | apply Frame.ite
    | split
    | apply Frame.set_log

theorem sramEcc_frame (s : State) :
    Frame [.mbx, .log, .vz] s (sramEcc s) := by
  unfold sramEcc
  with_reducible repeat' first
    | assumption
    | decide
    | apply Frame.refl
    | (lift_lets; intro x; apply Frame.cut x ?_ (fun _ => ?_); subst x; rotate_left; clear_value x; rotate_right)
    | (lift_lets; intro x; apply Frame.cut x.1 ?_ (fun _ => ?_); subst x; rotate_left; clear_value x; rotate_right)
    | (lift_lets; intro x; clear_value x)
    | apply Frame.via (raise_frame ..)
    | apply Frame.ite
    | split
    | apply Frame.set_log

theorem execLogSramEcc_frame (s : State) :
    Framed [.mbx, .log, .vz] s (execLogSramEcc s) := by
  unfold execLogSramEcc
  with_reducible repeat' first
    | apply Framed.next
    | assumption
    | decide
    | apply Frame.refl
    | apply Frame.via (sramEcc_frame ..)

theorem nandFail_frame (s : State) :
    Frame [.mbx, .log, .vz] s (nandFail s) := by
  unfold nandFail
  with_reducible repeat' first
    | assumption
    | decide
    | apply Frame.refl
    | apply Frame.via (raise_frame ..)
    | apply Frame.ite
    | split
    | apply Frame.set_log

theorem execNandLogWriteFail_frame (s : State) :
    Framed [.mbx, .log, .vz] s (execNandLogWriteFail s) := by
  unfold execNandLogWriteFail
  with_reducible repeat' first
    | apply Framed.next
    | assumption
    | decide
    | apply Frame.refl
    | apply Frame.via (nandFail_frame ..)

end Sys2Proof.Machine

end
end

