-- ==== Sys2Proof/Laws/Frames/PowerDie.lean ====
section
/-! SUPPORT. The frame of each function of `Machine/PowerDie.lean`: the parts of the state it may change. -/

section

set_option Elab.async false

namespace Sys2Proof.Machine

theorem execPowerDieLinkFrame_frame (die : Fin 8) (clamp : List (Fin 14 × Nat)) (s : State) :
    Framed [.sys, .mbx, .log, .tb, .vz, .cfg, .ch, .rfx, .twin, .brg, .fio, .upd] s (execPowerDieLinkFrame die clamp s) := by
  unfold execPowerDieLinkFrame
  with_reducible repeat' first
    | apply Framed.next
    | assumption
    | decide
    | apply Frame.refl
    | apply Frame.via (addClamp_frame ..)
    | apply Frame.via (dieFrame_frame ..)
    | apply Frame.via (evalRules_frame ..)
    | apply Frame.ite
    | apply Frame.foldl
    | apply Frame.foldl1
    | intro _

theorem linkSilence_frame (g : Nat) (s : State) :
    Frame [.ch] s (linkSilence g s) := by
  unfold linkSilence
  with_reducible repeat' first
    | assumption
    | decide
    | apply Frame.refl
    | (lift_lets; intro x; apply Frame.cut x ?_ (fun _ => ?_); subst x; rotate_left; clear_value x; rotate_right)
    | (lift_lets; intro x; apply Frame.cut x.1 ?_ (fun _ => ?_); subst x; rotate_left; clear_value x; rotate_right)
    | (lift_lets; intro x; clear_value x)
    | apply Frame.ite
    | apply Frame.foldl
    | apply Frame.foldl1
    | intro _
    | split
    | apply Frame.set_ch

theorem execLinkSilenceHold_frame (die : Fin 8) (s : State) :
    Framed [.ch] s (execLinkSilenceHold die s) := by
  unfold execLinkSilenceHold
  with_reducible repeat' first
    | apply Framed.next
    | assumption
    | decide
    | apply Frame.refl
    | apply Frame.via (linkSilence_frame ..)

theorem holdTimeout_frame (i : Nat) (s : State) :
    Frame [.mbx, .log, .vz, .ch] s (holdTimeout i s) := by
  unfold holdTimeout
  with_reducible repeat' first
    | assumption
    | decide
    | apply Frame.refl
    | (lift_lets; intro x; apply Frame.cut x ?_ (fun _ => ?_); subst x; rotate_left; clear_value x; rotate_right)
    | (lift_lets; intro x; apply Frame.cut x.1 ?_ (fun _ => ?_); subst x; rotate_left; clear_value x; rotate_right)
    | (lift_lets; intro x; clear_value x)
    | apply Frame.via (State.modChan_frame ..)
    | apply Frame.via (chanOff_frame ..)
    | apply Frame.via (endHold_frame ..)
    | apply Frame.ite

theorem execHoldTimeout_frame (ch : Fin 112) (s : State) :
    Framed [.mbx, .log, .vz, .ch] s (execHoldTimeout ch s) := by
  unfold execHoldTimeout
  with_reducible repeat' first
    | apply Framed.next
    | assumption
    | decide
    | apply Frame.refl
    | apply Frame.via (holdTimeout_frame ..)

theorem guardTrip_frame (ok : Bool) (i cause : Nat) (s : State) :
    Frame [.mbx, .log, .vz, .ch, .twin, .sig, .free] s (guardTrip ok i cause s) := by
  unfold guardTrip
  with_reducible repeat' first
    | assumption
    | decide
    | apply Frame.refl
    | apply Frame.via (trip_frame ..)
    | apply Frame.ite

theorem execShortCircuitTrip_frame (ch : Fin 112) (ma : Nat) (s : State) :
    Framed [.mbx, .log, .vz, .ch, .twin, .sig, .free] s (execShortCircuitTrip ch ma s) := by
  unfold execShortCircuitTrip
  with_reducible repeat' first
    | apply Framed.next
    | assumption
    | decide
    | apply Frame.refl
    | apply Frame.via (guardTrip_frame ..)

theorem execLimitTimeout_frame (ch : Fin 112) (s : State) :
    Framed [.mbx, .log, .vz, .ch, .twin, .sig, .free] s (execLimitTimeout ch s) := by
  unfold execLimitTimeout
  with_reducible repeat' first
    | apply Framed.next
    | assumption
    | decide
    | apply Frame.refl
    | apply Frame.via (guardTrip_frame ..)

theorem inrushEnd_frame (i : Nat) (above : Bool) (s : State) :
    Frame [.ch] s (inrushEnd i above s) := by
  unfold inrushEnd
  with_reducible repeat' first
    | assumption
    | decide
    | apply Frame.refl
    | (lift_lets; intro x; apply Frame.cut x ?_ (fun _ => ?_); subst x; rotate_left; clear_value x; rotate_right)
    | (lift_lets; intro x; apply Frame.cut x.1 ?_ (fun _ => ?_); subst x; rotate_left; clear_value x; rotate_right)
    | (lift_lets; intro x; clear_value x)
    | apply Frame.via (State.modChan_frame ..)
    | apply Frame.ite

theorem execInrushWindowEnd_frame (ch : Fin 112) (above : Bool) (s : State) :
    Framed [.ch] s (execInrushWindowEnd ch above s) := by
  unfold execInrushWindowEnd
  with_reducible repeat' first
    | apply Framed.next
    | assumption
    | decide
    | apply Frame.refl
    | apply Frame.via (inrushEnd_frame ..)

theorem wireStep_frame (i i2 : Nat) (s : State) :
    Frame [.mbx, .log, .vz, .ch, .twin, .sig, .free] s (wireStep i i2 s) := by
  unfold wireStep
  with_reducible repeat' first
    | assumption
    | decide
    | apply Frame.refl
    | (lift_lets; intro x; apply Frame.cut x ?_ (fun _ => ?_); subst x; rotate_left; clear_value x; rotate_right)
    | (lift_lets; intro x; apply Frame.cut x.1 ?_ (fun _ => ?_); subst x; rotate_left; clear_value x; rotate_right)
    | (lift_lets; intro x; clear_value x)
    | apply Frame.via (State.modChan_frame ..)
    | apply Frame.via (guardTrip_frame ..)
    | apply Frame.via (tryRetry_frame ..)
    | apply Frame.ite

theorem execWireModelStep_frame (ch : Fin 112) (i2 : Nat) (s : State) :
    Framed [.mbx, .log, .vz, .ch, .twin, .sig, .free] s (execWireModelStep ch i2 s) := by
  unfold execWireModelStep
  with_reducible repeat' first
    | apply Framed.next
    | assumption
    | decide
    | apply Frame.refl
    | apply Frame.via (wireStep_frame ..)

theorem execJunctionOvertemp_frame (ch : Fin 112) (tj : Int) (s : State) :
    Framed [.mbx, .log, .vz, .ch, .twin, .sig, .free] s (execJunctionOvertemp ch tj s) := by
  unfold execJunctionOvertemp
  with_reducible repeat' first
    | apply Framed.next
    | assumption
    | decide
    | apply Frame.refl
    | apply Frame.via (guardTrip_frame ..)

theorem openLoad_frame (i : Nat) (onState : Bool) (s : State) :
    Frame [.mbx, .log, .vz, .ch] s (openLoad i onState s) := by
  unfold openLoad
  with_reducible repeat' first
    | assumption
    | decide
    | apply Frame.refl
    | (lift_lets; intro x; apply Frame.cut x ?_ (fun _ => ?_); subst x; rotate_left; clear_value x; rotate_right)
    | (lift_lets; intro x; apply Frame.cut x.1 ?_ (fun _ => ?_); subst x; rotate_left; clear_value x; rotate_right)
    | (lift_lets; intro x; clear_value x)
    | apply Frame.via (State.modChan_frame ..)
    | apply Frame.via (raiseCh_frame ..)
    | apply Frame.ite

theorem openLoadOn_frame (i : Nat) (s : State) :
    Frame [.mbx, .log, .vz, .ch] s (openLoadOn i s) := by
  unfold openLoadOn
  with_reducible repeat' first
    | assumption
    | decide
    | apply Frame.refl
    | (lift_lets; intro x; apply Frame.cut x ?_ (fun _ => ?_); subst x; rotate_left; clear_value x; rotate_right)
    | (lift_lets; intro x; apply Frame.cut x.1 ?_ (fun _ => ?_); subst x; rotate_left; clear_value x; rotate_right)
    | (lift_lets; intro x; clear_value x)
    | apply Frame.via (openLoad_frame ..)
    | apply Frame.ite

theorem execOpenLoadOn_frame (ch : Fin 112) (s : State) :
    Framed [.mbx, .log, .vz, .ch] s (execOpenLoadOn ch s) := by
  unfold execOpenLoadOn
  with_reducible repeat' first
    | apply Framed.next
    | assumption
    | decide
    | apply Frame.refl
    | apply Frame.via (openLoadOn_frame ..)

theorem offTest_frame (i : Nat) (highBefore : Bool) (under : Int) (s : State) :
    Frame [.mbx, .log, .vz, .ch] s (offTest i highBefore under s) := by
  unfold offTest
  with_reducible repeat' first
    | assumption
    | decide
    | apply Frame.refl
    | (lift_lets; intro x; apply Frame.cut x ?_ (fun _ => ?_); subst x; rotate_left; clear_value x; rotate_right)
    | (lift_lets; intro x; apply Frame.cut x.1 ?_ (fun _ => ?_); subst x; rotate_left; clear_value x; rotate_right)
    | (lift_lets; intro x; clear_value x)
    | apply Frame.via (State.modChan_frame ..)
    | apply Frame.via (openLoad_frame ..)
    | apply Frame.via (raiseCh_frame ..)
    | apply Frame.ite

theorem execOffStateTest_frame (ch : Fin 112) (highBefore : Bool) (under : Int) (s : State) :
    Framed [.mbx, .log, .vz, .ch] s (execOffStateTest ch highBefore under s) := by
  unfold execOffStateTest
  with_reducible repeat' first
    | apply Framed.next
    | assumption
    | decide
    | apply Frame.refl
    | apply Frame.via (offTest_frame ..)

theorem arcStep_frame (i rms dv : Nat) (s : State) :
    Frame [.mbx, .log, .vz, .ch, .twin, .sig, .free] s (arcStep i rms dv s) := by
  unfold arcStep
  with_reducible repeat' first
    | assumption
    | decide
    | apply Frame.refl
    | (lift_lets; intro x; apply Frame.cut x ?_ (fun _ => ?_); subst x; rotate_left; clear_value x; rotate_right)
    | (lift_lets; intro x; apply Frame.cut x.1 ?_ (fun _ => ?_); subst x; rotate_left; clear_value x; rotate_right)
    | (lift_lets; intro x; clear_value x)
    | apply Frame.via (State.modChan_frame ..)
    | apply Frame.via (guardTrip_frame ..)
    | apply Frame.ite

theorem execArcWindow_frame (ch : Fin 112) (rms dv : Nat) (s : State) :
    Framed [.mbx, .log, .vz, .ch, .twin, .sig, .free] s (execArcWindow ch rms dv s) := by
  unfold execArcWindow
  with_reducible repeat' first
    | apply Framed.next
    | assumption
    | decide
    | apply Frame.refl
    | apply Frame.via (arcStep_frame ..)

theorem execRetryDelayExpiry_frame (ch : Fin 112) (s : State) :
    Framed [.ch] s (execRetryDelayExpiry ch s) := by
  unfold execRetryDelayExpiry
  with_reducible repeat' first
    | apply Framed.next
    | assumption
    | decide
    | apply Frame.refl
    | apply Frame.via (State.modChan_frame ..)
    | apply Frame.via (tryRetry_frame ..)

theorem retryReset_frame (i : Nat) (s : State) :
    Frame [.ch] s (retryReset i s) := by
  unfold retryReset
  with_reducible repeat' first
    | assumption
    | decide
    | apply Frame.refl
    | (lift_lets; intro x; apply Frame.cut x ?_ (fun _ => ?_); subst x; rotate_left; clear_value x; rotate_right)
    | (lift_lets; intro x; apply Frame.cut x.1 ?_ (fun _ => ?_); subst x; rotate_left; clear_value x; rotate_right)
    | (lift_lets; intro x; clear_value x)
    | apply Frame.via (State.modChan_frame ..)
    | apply Frame.ite

theorem execRetryCountReset_frame (ch : Fin 112) (s : State) :
    Framed [.ch] s (execRetryCountReset ch s) := by
  unfold execRetryCountReset
  with_reducible repeat' first
    | apply Framed.next
    | assumption
    | decide
    | apply Frame.refl
    | apply Frame.via (retryReset_frame ..)

theorem freewheelEnd_frame (i : Nat) (lowest : Int) (clampUj : Nat) (s : State) :
    Frame [.mbx, .log, .vz, .ch, .twin] s (freewheelEnd i lowest clampUj s) := by
  unfold freewheelEnd
  with_reducible repeat' first
    | assumption
    | decide
    | apply Frame.refl
    | (lift_lets; intro x; apply Frame.cut x ?_ (fun _ => ?_); subst x; rotate_left; clear_value x; rotate_right)
    | (lift_lets; intro x; apply Frame.cut x.1 ?_ (fun _ => ?_); subst x; rotate_left; clear_value x; rotate_right)
    | (lift_lets; intro x; clear_value x)
    | apply Frame.via (State.modChan_frame ..)
    | apply Frame.via (State.raiseSrc_frame ..)
    | apply Frame.via (addClamp_frame ..)
    | apply Frame.via (raiseCh_frame ..)
    | apply Frame.via (twinFault_frame ..)
    | apply Frame.ite

theorem execFreewheelCheckEnd_frame (ch : Fin 112) (lowest : Int) (clampUj : Nat) (s : State) :
    Framed [.mbx, .log, .vz, .ch, .twin] s (execFreewheelCheckEnd ch lowest clampUj s) := by
  unfold execFreewheelCheckEnd
  with_reducible repeat' first
    | apply Framed.next
    | assumption
    | decide
    | apply Frame.refl
    | apply Frame.via (freewheelEnd_frame ..)

theorem statusUpdate_frame (i : Nat) (m : Measure) (s : State) :
    Frame [.ch] s (statusUpdate i m s) := by
  unfold statusUpdate
  with_reducible repeat' first
    | assumption
    | decide
    | apply Frame.refl
    | (lift_lets; intro x; apply Frame.cut x ?_ (fun _ => ?_); subst x; rotate_left; clear_value x; rotate_right)
    | (lift_lets; intro x; apply Frame.cut x.1 ?_ (fun _ => ?_); subst x; rotate_left; clear_value x; rotate_right)
    | (lift_lets; intro x; clear_value x)
    | apply Frame.via (State.modChan_frame ..)
    | apply Frame.ite
    | split
    | dsimp only

theorem execStatusWordUpdate_frame (ch : Fin 112) (m : Measure) (s : State) :
    Framed [.sys, .mbx, .log, .tb, .vz, .cfg, .ch, .rfx, .twin, .brg, .fio, .sig, .upd] s (execStatusWordUpdate ch m s) := by
  unfold execStatusWordUpdate
  with_reducible repeat' first
    | apply Framed.next
    | assumption
    | decide
    | apply Frame.refl
    | apply Frame.via (chStatUpdate_frame ..)
    | apply Frame.via (evalRules_frame ..)
    | apply Frame.via (statusUpdate_frame ..)

theorem pwmEdge_frame (i : Nat) (s : State) :
    Frame [.ch] s (pwmEdge i s) := by
  unfold pwmEdge
  with_reducible repeat' first
    | assumption
    | decide
    | apply Frame.refl
    | (lift_lets; intro x; apply Frame.cut x ?_ (fun _ => ?_); subst x; rotate_left; clear_value x; rotate_right)
    | (lift_lets; intro x; apply Frame.cut x.1 ?_ (fun _ => ?_); subst x; rotate_left; clear_value x; rotate_right)
    | (lift_lets; intro x; clear_value x)
    | apply Frame.via (State.modChan_frame ..)
    | apply Frame.ite
    | split
    | dsimp only

theorem pwmPeriod_frame (i clampUj : Nat) (s : State) :
    Frame [.mbx, .log, .vz, .ch, .twin] s (pwmPeriod i clampUj s) := by
  unfold pwmPeriod
  with_reducible repeat' first
    | assumption
    | decide
    | apply Frame.refl
    | (lift_lets; intro x; apply Frame.cut x ?_ (fun _ => ?_); subst x; rotate_left; clear_value x; rotate_right)
    | (lift_lets; intro x; apply Frame.cut x.1 ?_ (fun _ => ?_); subst x; rotate_left; clear_value x; rotate_right)
    | (lift_lets; intro x; clear_value x)
    | apply Frame.via (State.modChan_frame ..)
    | apply Frame.via (addClamp_frame ..)
    | apply Frame.via (pwmEdge_frame ..)

theorem execPwmPeriodStart_frame (ch : Fin 112) (clampUj : Nat) (s : State) :
    Framed [.mbx, .log, .vz, .ch, .twin] s (execPwmPeriodStart ch clampUj s) := by
  unfold execPwmPeriodStart
  with_reducible repeat' first
    | apply Framed.next
    | assumption
    | decide
    | apply Frame.refl
    | apply Frame.via (pwmPeriod_frame ..)

theorem shedGroup_frame (s : State) (g : Nat) :
    Frame [.mbx, .log, .vz, .ch] s (shedGroup s g) := by
  unfold shedGroup
  with_reducible repeat' first
    | assumption
    | decide
    | apply Frame.refl
    | (lift_lets; intro x; apply Frame.cut x ?_ (fun _ => ?_); subst x; rotate_left; clear_value x; rotate_right)
    | (lift_lets; intro x; apply Frame.cut x.1 ?_ (fun _ => ?_); subst x; rotate_left; clear_value x; rotate_right)
    | (lift_lets; intro x; clear_value x)
    | apply Frame.via (shedAll_frame ..)
    | apply Frame.ite
    | split
    | apply Frame.set_ch

theorem shedModule_frame (s : State) :
    Frame [.mbx, .log, .vz, .ch] s (shedModule s) := by
  unfold shedModule
  with_reducible repeat' first
    | assumption
    | decide
    | apply Frame.refl
    | (lift_lets; intro x; apply Frame.cut x ?_ (fun _ => ?_); subst x; rotate_left; clear_value x; rotate_right)
    | (lift_lets; intro x; apply Frame.cut x.1 ?_ (fun _ => ?_); subst x; rotate_left; clear_value x; rotate_right)
    | (lift_lets; intro x; clear_value x)
    | apply Frame.via (shedAll_frame ..)
    | apply Frame.ite
    | split
    | apply Frame.set_ch

theorem loadSample_frame (s : State) :
    Frame [.ch] s (loadSample s) := by
  unfold loadSample
  with_reducible repeat' first
    | assumption
    | decide
    | apply Frame.refl
    | apply Frame.ite
    | split
    | apply Frame.set_ch
    | dsimp only

theorem loadCheck_frame (s : State) :
    Frame [.mbx, .log, .vz, .ch] s (loadCheck s) := by
  unfold loadCheck
  with_reducible repeat' first
    | assumption
    | decide
    | apply Frame.refl
    | (lift_lets; intro x; apply Frame.cut x ?_ (fun _ => ?_); subst x; rotate_left; clear_value x; rotate_right)
    | (lift_lets; intro x; apply Frame.cut x.1 ?_ (fun _ => ?_); subst x; rotate_left; clear_value x; rotate_right)
    | (lift_lets; intro x; clear_value x)
    | apply Frame.via (loadSample_frame ..)
    | apply Frame.via (shedGroup_frame ..)
    | apply Frame.via (shedModule_frame ..)
    | apply Frame.ite
    | apply Frame.foldl
    | apply Frame.foldl1
    | intro _
    | split
    | apply Frame.set_ch

theorem execGroupLoadCheck_frame (s : State) :
    Framed [.mbx, .log, .vz, .ch] s (execGroupLoadCheck s) := by
  unfold execGroupLoadCheck
  with_reducible repeat' first
    | apply Framed.next
    | assumption
    | decide
    | apply Frame.refl
    | apply Frame.via (loadCheck_frame ..)
    | apply Frame.ite

theorem shedAgain_frame (s : State) :
    Frame [.mbx, .log, .vz, .ch] s (shedAgain s) := by
  unfold shedAgain
  with_reducible repeat' first
    | assumption
    | decide
    | apply Frame.refl
    | (lift_lets; intro x; apply Frame.cut x ?_ (fun _ => ?_); subst x; rotate_left; clear_value x; rotate_right)
    | (lift_lets; intro x; apply Frame.cut x.1 ?_ (fun _ => ?_); subst x; rotate_left; clear_value x; rotate_right)
    | (lift_lets; intro x; clear_value x)
    | apply Frame.via (shedGroup_frame ..)
    | apply Frame.via (shedModule_frame ..)
    | apply Frame.ite
    | apply Frame.foldl
    | apply Frame.foldl1
    | intro _

theorem execLoadShedStep_frame (s : State) :
    Framed [.mbx, .log, .vz, .ch] s (execLoadShedStep s) := by
  unfold execLoadShedStep
  with_reducible repeat' first
    | apply Framed.next
    | assumption
    | decide
    | apply Frame.refl
    | apply Frame.via (shedAgain_frame ..)
    | apply Frame.ite

theorem orphanEnd_frame (i : Nat) (s : State) :
    Frame [.ch] s (orphanEnd i s) := by
  unfold orphanEnd
  with_reducible repeat' first
    | assumption
    | decide
    | apply Frame.refl
    | apply Frame.via (State.modChan_frame ..)
    | apply Frame.via (urgentDie_frame ..)
    | apply Frame.ite

theorem execOrphanTimeout_frame (ch : Fin 112) (s : State) :
    Framed [.ch] s (execOrphanTimeout ch s) := by
  unfold execOrphanTimeout
  with_reducible repeat' first
    | apply Framed.next
    | assumption
    | decide
    | apply Frame.refl
    | apply Frame.via (orphanEnd_frame ..)

theorem reversalEnd_frame (b : Nat) (s : State) :
    Frame [.ch] s (reversalEnd b s) := by
  unfold reversalEnd
  with_reducible repeat' first
    | assumption
    | decide
    | apply Frame.refl
    | (lift_lets; intro x; apply Frame.cut x ?_ (fun _ => ?_); subst x; rotate_left; clear_value x; rotate_right)
    | (lift_lets; intro x; apply Frame.cut x.1 ?_ (fun _ => ?_); subst x; rotate_left; clear_value x; rotate_right)
    | (lift_lets; intro x; clear_value x)
    | apply Frame.via (State.modBridge_frame ..)
    | apply Frame.via (State.modChan_frame ..)
    | apply Frame.ite

theorem execReversalBrakeEnd_frame (br : Fin 8) (s : State) :
    Framed [.ch] s (execReversalBrakeEnd br s) := by
  unfold execReversalBrakeEnd
  with_reducible repeat' first
    | apply Framed.next
    | assumption
    | decide
    | apply Frame.refl
    | apply Frame.via (reversalEnd_frame ..)

theorem bridgeStop_frame (b : Nat) (cause : Option Nat) (s : State) :
    Frame [.ch] s (bridgeStop b cause s) := by
  unfold bridgeStop
  with_reducible repeat' first
    | assumption
    | decide
    | apply Frame.refl
    | (lift_lets; intro x; apply Frame.cut x ?_ (fun _ => ?_); subst x; rotate_left; clear_value x; rotate_right)
    | (lift_lets; intro x; apply Frame.cut x.1 ?_ (fun _ => ?_); subst x; rotate_left; clear_value x; rotate_right)
    | (lift_lets; intro x; clear_value x)
    | apply Frame.via (State.modBridge_frame ..)
    | apply Frame.via (State.modChan_frame ..)

theorem stallDetect_frame (b : Nat) (s : State) :
    Frame [.mbx, .log, .vz, .ch] s (stallDetect b s) := by
  unfold stallDetect
  with_reducible repeat' first
    | assumption
    | decide
    | apply Frame.refl
    | (lift_lets; intro x; apply Frame.cut x ?_ (fun _ => ?_); subst x; rotate_left; clear_value x; rotate_right)
    | (lift_lets; intro x; apply Frame.cut x.1 ?_ (fun _ => ?_); subst x; rotate_left; clear_value x; rotate_right)
    | (lift_lets; intro x; clear_value x)
    | apply Frame.via (State.modBridge_frame ..)
    | apply Frame.via (bridgeStop_frame ..)
    | apply Frame.via (raiseCh_frame ..)
    | apply Frame.ite

theorem execStallDetect_frame (br : Fin 8) (s : State) :
    Framed [.mbx, .log, .vz, .ch] s (execStallDetect br s) := by
  unfold execStallDetect
  with_reducible repeat' first
    | apply Framed.next
    | assumption
    | decide
    | apply Frame.refl
    | apply Frame.via (stallDetect_frame ..)

theorem ripple_frame (b interval : Nat) (s : State) :
    Frame [.mbx, .log, .vz, .ch] s (ripple b interval s) := by
  unfold ripple
  with_reducible repeat' first
    | assumption
    | decide
    | apply Frame.refl
    | (lift_lets; intro x; apply Frame.cut x ?_ (fun _ => ?_); subst x; rotate_left; clear_value x; rotate_right)
    | (lift_lets; intro x; apply Frame.cut x.1 ?_ (fun _ => ?_); subst x; rotate_left; clear_value x; rotate_right)
    | (lift_lets; intro x; clear_value x)
    | apply Frame.via (State.modBridge_frame ..)
    | apply Frame.via (bridgeStop_frame ..)
    | apply Frame.via (losePos_frame ..)
    | apply Frame.via (raiseCh_frame ..)
    | apply Frame.ite
    | split

theorem execRippleCount_frame (br : Fin 8) (interval : Nat) (s : State) :
    Framed [.mbx, .log, .vz, .ch] s (execRippleCount br interval s) := by
  unfold execRippleCount
  with_reducible repeat' first
    | apply Framed.next
    | assumption
    | decide
    | apply Frame.refl
    | apply Frame.via (ripple_frame ..)

theorem execRunonEnd_frame (br : Fin 8) (s : State) :
    Framed [.ch] s (execRunonEnd br s) := by
  unfold execRunonEnd
  with_reducible repeat' first
    | apply Framed.next
    | assumption
    | decide
    | apply Frame.refl
    | apply Frame.via (State.modBridge_frame ..)

theorem uncounted_frame (b : Nat) (s : State) :
    Frame [.mbx, .log, .vz, .ch] s (uncounted b s) := by
  unfold uncounted
  with_reducible repeat' first
    | assumption
    | decide
    | apply Frame.refl
    | (lift_lets; intro x; apply Frame.cut x ?_ (fun _ => ?_); subst x; rotate_left; clear_value x; rotate_right)
    | (lift_lets; intro x; apply Frame.cut x.1 ?_ (fun _ => ?_); subst x; rotate_left; clear_value x; rotate_right)
    | (lift_lets; intro x; clear_value x)
    | apply Frame.via (losePos_frame ..)
    | apply Frame.ite

theorem execUncountedMotion_frame (br : Fin 8) (s : State) :
    Framed [.mbx, .log, .vz, .ch] s (execUncountedMotion br s) := by
  unfold execUncountedMotion
  with_reducible repeat' first
    | apply Framed.next
    | assumption
    | decide
    | apply Frame.refl
    | apply Frame.via (uncounted_frame ..)

theorem valvePeriod_frame (k : Nat) (m : ValveMeasure) (s : State) :
    Frame [.ch, .free] s (valvePeriod k m s) := by
  unfold valvePeriod
  with_reducible repeat' first
    | assumption
    | decide
    | apply Frame.refl
    | (lift_lets; intro x; apply Frame.cut x ?_ (fun _ => ?_); subst x; rotate_left; clear_value x; rotate_right)
    | (lift_lets; intro x; apply Frame.cut x.1 ?_ (fun _ => ?_); subst x; rotate_left; clear_value x; rotate_right)
    | (lift_lets; intro x; clear_value x)
    | apply Frame.via (State.draw_frame ..)
    | apply Frame.via (State.modChan_frame ..)
    | apply Frame.via (State.modValve_frame ..)
    | apply Frame.ite
    | split

theorem execValveRegulationPeriod_frame (vlv : Fin 16) (m : ValveMeasure) (s : State) :
    Framed [.ch, .free] s (execValveRegulationPeriod vlv m s) := by
  unfold execValveRegulationPeriod
  with_reducible repeat' first
    | apply Framed.next
    | assumption
    | decide
    | apply Frame.refl
    | apply Frame.via (valvePeriod_frame ..)

theorem complianceSet_frame (k gotMa : Nat) (s : State) :
    Frame [.mbx, .log, .vz, .ch] s (complianceSet k gotMa s) := by
  unfold complianceSet
  with_reducible repeat' first
    | assumption
    | decide
    | apply Frame.refl
    | (lift_lets; intro x; apply Frame.cut x ?_ (fun _ => ?_); subst x; rotate_left; clear_value x; rotate_right)
    | (lift_lets; intro x; apply Frame.cut x.1 ?_ (fun _ => ?_); subst x; rotate_left; clear_value x; rotate_right)
    | (lift_lets; intro x; clear_value x)
    | apply Frame.via (State.modChan_frame ..)
    | apply Frame.via (State.modValve_frame ..)
    | apply Frame.via (chanOff_frame ..)
    | apply Frame.via (raiseCh_frame ..)
    | apply Frame.ite

theorem execComplianceSet_frame (vlv : Fin 16) (gotMa : Nat) (s : State) :
    Framed [.mbx, .log, .vz, .ch] s (execComplianceSet vlv gotMa s) := by
  unfold execComplianceSet
  with_reducible repeat' first
    | apply Framed.next
    | assumption
    | decide
    | apply Frame.refl
    | apply Frame.via (complianceSet_frame ..)

theorem complianceClear_frame (k : Nat) (s : State) :
    Frame [.mbx, .log, .vz, .ch] s (complianceClear k s) := by
  unfold complianceClear
  with_reducible repeat' first
    | assumption
    | decide
    | apply Frame.refl
    | apply Frame.via (State.modValve_frame ..)
    | apply Frame.via (raiseCh_frame ..)
    | apply Frame.ite

theorem execComplianceClear_frame (vlv : Fin 16) (s : State) :
    Framed [.mbx, .log, .vz, .ch] s (execComplianceClear vlv s) := by
  unfold execComplianceClear
  with_reducible repeat' first
    | apply Framed.next
    | assumption
    | decide
    | apply Frame.refl
    | apply Frame.via (complianceClear_frame ..)

theorem execGroupSupplyLoss_frame (g : Fin 8) (reversed : Bool) (s : State) :
    Framed [.mbx, .log, .vz, .ch, .twin] s (execGroupSupplyLoss g reversed s) := by
  unfold execGroupSupplyLoss
  with_reducible repeat' first
    | apply Framed.next
    | assumption
    | decide
    | apply Frame.refl
    | apply Frame.via (supplyLoss_frame ..)

theorem supplyReturn_frame (g : Nat) (powerUp : Bool) (s : State) :
    Frame [.mbx, .log, .vz, .ch] s (supplyReturn g powerUp s) := by
  unfold supplyReturn
  with_reducible repeat' first
    | assumption
    | decide
    | apply Frame.refl
    | (lift_lets; intro x; apply Frame.cut x ?_ (fun _ => ?_); subst x; rotate_left; clear_value x; rotate_right)
    | (lift_lets; intro x; apply Frame.cut x.1 ?_ (fun _ => ?_); subst x; rotate_left; clear_value x; rotate_right)
    | (lift_lets; intro x; clear_value x)
    | apply Frame.via (State.modBridge_frame ..)
    | apply Frame.via (State.modDie_frame ..)
    | apply Frame.via (losePos_frame ..)
    | apply Frame.ite
    | apply Frame.foldl
    | apply Frame.foldl1
    | intro _
    | split
    | apply Frame.set_ch

theorem execGroupSupplyReturn_frame (g : Fin 8) (powerUp : Bool) (s : State) :
    Framed [.mbx, .log, .vz, .ch] s (execGroupSupplyReturn g powerUp s) := by
  unfold execGroupSupplyReturn
  with_reducible repeat' first
    | apply Framed.next
    | assumption
    | decide
    | apply Frame.refl
    | apply Frame.via (supplyReturn_frame ..)

theorem groundLoss_frame (s : State) :
    Frame [.ch] s (groundLoss s) := by
  unfold groundLoss
  with_reducible repeat' first
    | assumption
    | decide
    | apply Frame.refl
    | (lift_lets; intro x; apply Frame.cut x ?_ (fun _ => ?_); subst x; rotate_left; clear_value x; rotate_right)
    | (lift_lets; intro x; apply Frame.cut x.1 ?_ (fun _ => ?_); subst x; rotate_left; clear_value x; rotate_right)
    | (lift_lets; intro x; clear_value x)
    | apply Frame.ite
    | apply Frame.foldl
    | apply Frame.foldl1
    | intro _
    | split
    | apply Frame.set_ch

theorem execModuleGroundLoss_frame (s : State) :
    Framed [.ch] s (execModuleGroundLoss s) := by
  unfold execModuleGroundLoss
  with_reducible repeat' first
    | apply Framed.next
    | assumption
    | decide
    | apply Frame.refl
    | apply Frame.via (groundLoss_frame ..)

theorem junctionCooled_frame (i : Nat) (tj : Int) (s : State) :
    Frame [.ch] s (junctionCooled i tj s) := by
  unfold junctionCooled
  with_reducible repeat' first
    | assumption
    | decide
    | apply Frame.refl
    | apply Frame.via (State.modChan_frame ..)
    | apply Frame.via (tryRetry_frame ..)
    | apply Frame.ite
    | split
    | dsimp only

theorem execJunctionCooled_frame (ch : Fin 112) (tj : Int) (s : State) :
    Framed [.ch] s (execJunctionCooled ch tj s) := by
  unfold execJunctionCooled
  with_reducible repeat' first
    | apply Framed.next
    | assumption
    | decide
    | apply Frame.refl
    | apply Frame.via (junctionCooled_frame ..)

theorem execJunctionHotWarning_frame (ch : Fin 112) (s : State) :
    Framed [.mbx, .log, .vz] s (execJunctionHotWarning ch s) := by
  unfold execJunctionHotWarning
  with_reducible repeat' first
    | apply Framed.next
    | assumption
    | decide
    | apply Frame.refl
    | apply Frame.via (raiseCh_frame ..)

end Sys2Proof.Machine

end
end

