-- ==== Sys2Proof/Laws/Frames/PressCodec.lean ====
section
/-! SUPPORT. The frame of each function of `Machine/PressCodec.lean`: the parts of the state it may change. -/

section

set_option Elab.async false

namespace Sys2Proof.Machine

theorem State.modStream_frame (s : State) (n : Nat) (f : PrsStream → PrsStream) :
    Frame [.sig] s (State.modStream s n f) := by
  unfold State.modStream
  with_reducible repeat' first
    | assumption
    | decide
    | apply Frame.refl
    | apply Frame.via (State.modSig_frame ..)

theorem takeBlocks_frame (n room : Nat) (s : State) :
    Frame [.sig] s (takeBlocks n room s).1 := by
  unfold takeBlocks
  with_reducible repeat' first
    | assumption
    | decide
    | apply Frame.refl
    | (lift_lets; intro x; apply Frame.cut x ?_ (fun _ => ?_); subst x; rotate_left; clear_value x; rotate_right)
    | (lift_lets; intro x; apply Frame.cut x.1 ?_ (fun _ => ?_); subst x; rotate_left; clear_value x; rotate_right)
    | (lift_lets; intro x; clear_value x)
    | apply Frame.via (State.modSig_frame ..)
    | apply Frame.via (State.modStream_frame ..)
    | apply Frame.ite
    | apply Frame.ite1
    | split
    | dsimp only

theorem streamToI3_frame (n : Nat) (f : PrsConfig) (s : State) :
    Frame [.sig] s (streamToI3 n f s) := by
  unfold streamToI3
  with_reducible repeat' first
    | assumption
    | decide
    | apply Frame.refl
    | (lift_lets; intro x; apply Frame.cut x ?_ (fun _ => ?_); subst x; rotate_left; clear_value x; rotate_right)
    | (lift_lets; intro x; apply Frame.cut x.1 ?_ (fun _ => ?_); subst x; rotate_left; clear_value x; rotate_right)
    | (lift_lets; intro x; clear_value x)
    | apply Frame.via (State.modSig_frame ..)
    | apply Frame.via (takeBlocks_frame ..)
    | apply Frame.ite
    | split
    | dsimp only

theorem storeBlock_frame (n : Nat) (b : PrsBlock) (s : State) :
    Frame [.mbx, .log, .vz, .sig] s (storeBlock n b s) := by
  unfold storeBlock
  with_reducible repeat' first
    | assumption
    | decide
    | apply Frame.refl
    | (lift_lets; intro x; apply Frame.cut x ?_ (fun _ => ?_); subst x; rotate_left; clear_value x; rotate_right)
    | (lift_lets; intro x; apply Frame.cut x.1 ?_ (fun _ => ?_); subst x; rotate_left; clear_value x; rotate_right)
    | (lift_lets; intro x; clear_value x)
    | apply Frame.via (State.modSig_frame ..)
    | apply Frame.via (State.modStream_frame ..)
    | apply Frame.via (raise_frame ..)
    | apply Frame.ite

theorem feedCaptures_frame (src : Nat) (raw : List Int) (s : State) :
    Frame [.sig] s (feedCaptures src raw s) := by
  unfold feedCaptures
  with_reducible repeat' first
    | assumption
    | decide
    | apply Frame.refl
    | (lift_lets; intro x; apply Frame.cut x ?_ (fun _ => ?_); subst x; rotate_left; clear_value x; rotate_right)
    | (lift_lets; intro x; apply Frame.cut x.1 ?_ (fun _ => ?_); subst x; rotate_left; clear_value x; rotate_right)
    | (lift_lets; intro x; clear_value x)
    | apply Frame.via (State.modSig_frame ..)

theorem prsBlockRow_frame (n pos : Nat) (raw : List Int) (s : State) :
    Frame [.mbx, .log, .vz, .sig] s (prsBlockRow n pos raw s) := by
  unfold prsBlockRow
  with_reducible repeat' first
    | assumption
    | decide
    | apply Frame.refl
    | (lift_lets; intro x; apply Frame.cut x ?_ (fun _ => ?_); subst x; rotate_left; clear_value x; rotate_right)
    | (lift_lets; intro x; apply Frame.cut x.1 ?_ (fun _ => ?_); subst x; rotate_left; clear_value x; rotate_right)
    | (lift_lets; intro x; clear_value x)
    | apply Frame.via (State.modStream_frame ..)
    | apply Frame.via (feedCaptures_frame ..)
    | apply Frame.via (storeBlock_frame ..)
    | apply Frame.via (streamToI3_frame ..)
    | apply Frame.ite
    | split

theorem execPrsBlock_frame (stream : Fin 64) (source : Fin 16) (samples : List Int) (s : State) :
    Framed [.mbx, .log, .vz, .sig] s (execPrsBlock stream source samples s) := by
  unfold execPrsBlock
  with_reducible repeat' first
    | apply Framed.next
    | assumption
    | decide
    | apply Frame.refl
    | apply Frame.via (prsBlockRow_frame ..)

theorem captureDone_frame (k : Nat) (s : State) :
    Frame [.mbx, .log, .vz, .sig] s (captureDone k s) := by
  unfold captureDone
  with_reducible repeat' first
    | assumption
    | decide
    | apply Frame.refl
    | apply Frame.via (State.modSig_frame ..)
    | apply Frame.via (raise_frame ..)
    | apply Frame.ite
    | split

theorem execPrsCaptureComplete_frame (id : Fin 64) (s : State) :
    Framed [.mbx, .log, .vz, .sig] s (execPrsCaptureComplete id s) := by
  unfold execPrsCaptureComplete
  with_reducible repeat' first
    | apply Framed.next
    | assumption
    | decide
    | apply Frame.refl
    | apply Frame.via (captureDone_frame ..)

theorem prsConfigBody_frame (p : Port) (f : PrsFields) (s : State) :
    Frame [.sig] s (prsConfigBody p f s).1 := by
  unfold prsConfigBody
  with_reducible repeat' first
    | assumption
    | decide
    | apply Frame.refl
    | (lift_lets; intro x; apply Frame.cut x ?_ (fun _ => ?_); subst x; rotate_left; clear_value x; rotate_right)
    | (lift_lets; intro x; apply Frame.cut x.1 ?_ (fun _ => ?_); subst x; rotate_left; clear_value x; rotate_right)
    | (lift_lets; intro x; clear_value x)
    | apply Frame.via (State.modStream_frame ..)
    | apply Frame.ite
    | apply Frame.ite1
    | split

theorem execSigPrsConfig_frame (r : Req) (f : PrsFields) (s : State) :
    Framed [.mbx, .vz, .sig] s (execSigPrsConfig r f s) := by
  unfold execSigPrsConfig
  with_reducible repeat' first
    | apply Framed.next
    | assumption
    | decide
    | apply Frame.refl
    | apply Frame.via (prsConfigBody_frame ..)
    | apply runCmd_frame
    | apply Frame.ite
    | intro _

theorem prsStartBody_frame (p : Port) (n : Nat) (s : State) :
    Frame [.sig] s (prsStartBody p n s).1 := by
  unfold prsStartBody
  with_reducible repeat' first
    | assumption
    | decide
    | apply Frame.refl
    | (lift_lets; intro x; apply Frame.cut x ?_ (fun _ => ?_); subst x; rotate_left; clear_value x; rotate_right)
    | (lift_lets; intro x; apply Frame.cut x.1 ?_ (fun _ => ?_); subst x; rotate_left; clear_value x; rotate_right)
    | (lift_lets; intro x; clear_value x)
    | apply Frame.via (State.modStream_frame ..)
    | apply Frame.ite
    | apply Frame.ite1
    | split

theorem execSigPrsStart_frame (r : Req) (stream : Byte) (s : State) :
    Framed [.mbx, .vz, .sig] s (execSigPrsStart r stream s) := by
  unfold execSigPrsStart
  with_reducible repeat' first
    | apply Framed.next
    | assumption
    | decide
    | apply Frame.refl
    | apply Frame.via (prsStartBody_frame ..)
    | apply runCmd_frame
    | apply Frame.ite
    | intro _

theorem prsStopBody_frame (p : Port) (n : Nat) (s : State) :
    Frame [.sig] s (prsStopBody p n s).1 := by
  unfold prsStopBody
  with_reducible repeat' first
    | assumption
    | decide
    | apply Frame.refl
    | (lift_lets; intro x; apply Frame.cut x ?_ (fun _ => ?_); subst x; rotate_left; clear_value x; rotate_right)
    | (lift_lets; intro x; apply Frame.cut x.1 ?_ (fun _ => ?_); subst x; rotate_left; clear_value x; rotate_right)
    | (lift_lets; intro x; clear_value x)
    | apply Frame.via (State.modSig_frame ..)
    | apply Frame.via (State.modStream_frame ..)
    | apply Frame.ite
    | apply Frame.ite1

theorem execSigPrsStop_frame (r : Req) (stream : Byte) (s : State) :
    Framed [.mbx, .vz, .sig] s (execSigPrsStop r stream s) := by
  unfold execSigPrsStop
  with_reducible repeat' first
    | apply Framed.next
    | assumption
    | decide
    | apply Frame.refl
    | apply Frame.via (prsStopBody_frame ..)
    | apply runCmd_frame
    | apply Frame.ite
    | intro _

theorem prsCaptureBody_frame (p : Port) (op src id part : Nat) (s : State) :
    Frame [.mbx, .log, .vz, .sig, .free] s (prsCaptureBody p op src id part s).1 := by
  unfold prsCaptureBody
  with_reducible repeat' first
    | assumption
    | decide
    | apply Frame.refl
    | (lift_lets; intro x; apply Frame.cut x ?_ (fun _ => ?_); subst x; rotate_left; clear_value x; rotate_right)
    | (lift_lets; intro x; apply Frame.cut x.1 ?_ (fun _ => ?_); subst x; rotate_left; clear_value x; rotate_right)
    | (lift_lets; intro x; clear_value x)
    | apply Frame.via (State.modSig_frame ..)
    | apply Frame.via (startCapture_frame ..)
    | apply Frame.ite
    | apply Frame.ite1
    | split

theorem execSigCapture_frame (r : Req) (op : Byte) (source id : U16) (part : Byte) (s : State) :
    Framed [.mbx, .log, .vz, .sig, .free] s (execSigCapture r op source id part s) := by
  unfold execSigCapture
  with_reducible repeat' first
    | apply Framed.next
    | assumption
    | decide
    | apply Frame.refl
    | apply Frame.via (prsCaptureBody_frame ..)
    | apply runCmd_frame
    | apply Frame.ite
    | intro _

theorem backlogNote_frame (q owner : Nat) (left : Bool) (s : State) :
    Frame [.mbx, .log, .vz, .sig] s (backlogNote q owner left s) := by
  unfold backlogNote
  with_reducible repeat' first
    | assumption
    | decide
    | apply Frame.refl
    | (lift_lets; intro x; apply Frame.cut x ?_ (fun _ => ?_); subst x; rotate_left; clear_value x; rotate_right)
    | (lift_lets; intro x; apply Frame.cut x.1 ?_ (fun _ => ?_); subst x; rotate_left; clear_value x; rotate_right)
    | (lift_lets; intro x; clear_value x)
    | apply Frame.via (State.modPdu_frame ..)
    | apply Frame.via (State.modSig_frame ..)
    | apply Frame.via (raise_frame ..)
    | apply Frame.ite

theorem freezePdu_frame (k q owner nref : Nat) (s : State) :
    Frame [.mbx, .log, .vz, .ring, .sig] s (freezePdu k q owner nref s) := by
  unfold freezePdu
  with_reducible repeat' first
    | assumption
    | decide
    | apply Frame.refl
    | (lift_lets; intro x; apply Frame.cut x ?_ (fun _ => ?_); subst x; rotate_left; clear_value x; rotate_right)
    | (lift_lets; intro x; apply Frame.cut x.1 ?_ (fun _ => ?_); subst x; rotate_left; clear_value x; rotate_right)
    | (lift_lets; intro x; clear_value x)
    | apply Frame.via (State.modPdu_frame ..)
    | apply Frame.via (State.modRun_frame ..)
    | apply Frame.via (backlogNote_frame ..)
    | apply Frame.ite
    | apply Frame.foldl
    | apply Frame.foldl1
    | intro _
    | split
    | apply Frame.set_ring

theorem slotFreeze_frame (k : Nat) (s : State) :
    Frame [.mbx, .log, .vz, .ring, .sig] s (slotFreeze k s) := by
  unfold slotFreeze
  with_reducible repeat' first
    | assumption
    | decide
    | apply Frame.refl
    | (lift_lets; intro x; apply Frame.cut x ?_ (fun _ => ?_); subst x; rotate_left; clear_value x; rotate_right)
    | (lift_lets; intro x; apply Frame.cut x.1 ?_ (fun _ => ?_); subst x; rotate_left; clear_value x; rotate_right)
    | (lift_lets; intro x; clear_value x)
    | apply Frame.via (freezePdu_frame ..)
    | apply Frame.ite
    | split
    | apply Frame.set_ring

theorem execSigSlotFreeze_frame (k : Fin 384) (s : State) :
    Framed [.mbx, .log, .vz, .ring, .sig] s (execSigSlotFreeze k s) := by
  unfold execSigSlotFreeze
  with_reducible repeat' first
    | apply Framed.next
    | assumption
    | decide
    | apply Frame.refl
    | apply Frame.via (slotFreeze_frame ..)

end Sys2Proof.Machine

end
end

