-- ==== Sys2Proof/Laws/Frames/ReflexCmds.lean ====
section
/-! SUPPORT. The frame of each function of `Machine/ReflexCmds.lean`: the parts of the state it may change. -/

section

set_option Elab.async false

namespace Sys2Proof.Machine

theorem safeNTo_frame (low : Bool) (s : State) :
    Frame [.mbx, .log, .tb, .vz, .rfx] s (safeNTo low s) := by
  unfold safeNTo
  with_reducible repeat' first
    | assumption
    | decide
    | apply Frame.refl
    | apply Frame.via (captureLevel_frame ..)
    | apply Frame.ite
    | split
    | apply Frame.set_rfx
    | dsimp only

theorem safeNAssert_frame (s : State) :
    Frame [.sys, .mbx, .log, .tb, .vz, .cfg, .ch, .rfx, .twin, .brg, .fio, .upd] s (safeNAssert s) := by
  unfold safeNAssert
  with_reducible repeat' first
    | assumption
    | decide
    | apply Frame.refl
    | (lift_lets; intro x; apply Frame.cut x ?_ (fun _ => ?_); subst x; rotate_left; clear_value x; rotate_right)
    | (lift_lets; intro x; apply Frame.cut x.1 ?_ (fun _ => ?_); subst x; rotate_left; clear_value x; rotate_right)
    | (lift_lets; intro x; clear_value x)
    | apply Frame.via (evalRules_frame ..)
    | apply Frame.via (safeNTo_frame ..)
    | apply Frame.via (selfArrest_frame ..)
    | apply Frame.ite
    | split

theorem execSafeNAssert_frame (s : State) :
    Framed [.sys, .mbx, .log, .tb, .vz, .cfg, .ch, .rfx, .twin, .brg, .fio, .upd] s (execSafeNAssert s) := by
  unfold execSafeNAssert
  with_reducible repeat' first
    | apply Framed.next
    | assumption
    | decide
    | apply Frame.refl
    | apply Frame.via (safeNAssert_frame ..)

theorem execSafeNRelease_frame (s : State) :
    Framed [.sys, .mbx, .log, .tb, .vz, .cfg, .ch, .rfx, .twin, .brg, .fio, .upd] s (execSafeNRelease s) := by
  unfold execSafeNRelease
  with_reducible repeat' first
    | apply Framed.next
    | assumption
    | decide
    | apply Frame.refl
    | apply Frame.via (evalRules_frame ..)
    | apply Frame.via (safeNTo_frame ..)
    | apply Frame.ite
    | split

theorem limpTimer_frame (s : State) :
    Frame [.mbx, .log, .vz, .ch, .rfx, .fio] s (limpTimer s) := by
  unfold limpTimer
  with_reducible repeat' first
    | assumption
    | decide
    | apply Frame.refl
    | (lift_lets; intro x; apply Frame.cut x ?_ (fun _ => ?_); subst x; rotate_left; clear_value x; rotate_right)
    | (lift_lets; intro x; apply Frame.cut x.1 ?_ (fun _ => ?_); subst x; rotate_left; clear_value x; rotate_right)
    | (lift_lets; intro x; clear_value x)
    | apply Frame.via (pushAll_frame ..)
    | apply Frame.ite
    | split
    | apply Frame.set_rfx

theorem execLimpTableTimer_frame (s : State) :
    Framed [.mbx, .log, .vz, .ch, .rfx, .fio] s (execLimpTableTimer s) := by
  unfold execLimpTableTimer
  with_reducible repeat' first
    | apply Framed.next
    | assumption
    | decide
    | apply Frame.refl
    | apply Frame.via (limpTimer_frame ..)

theorem execEdgeWindowEnd_frame (rule : Fin 1024) (slot : Fin 4) (s : State) :
    Framed [.sys, .mbx, .log, .tb, .vz, .cfg, .ch, .rfx, .twin, .brg, .fio, .upd] s (execEdgeWindowEnd rule slot s) := by
  unfold execEdgeWindowEnd
  with_reducible repeat' first
    | apply Framed.next
    | assumption
    | decide
    | apply Frame.refl
    | apply Frame.via (State.modRule_frame ..)
    | apply Frame.via (evalRules_frame ..)

theorem loadRuleBody_frame (n : Nat) (f : RuleFields) (s : State) :
    Frame [.sys, .mbx, .log, .tb, .vz, .cfg, .ch, .rfx, .twin, .brg, .fio, .upd] s (loadRuleBody n f s).1 := by
  unfold loadRuleBody
  with_reducible repeat' first
    | assumption
    | decide
    | apply Frame.refl
    | apply Frame.via (State.modRule_frame ..)
    | apply Frame.via (evalRules_frame ..)
    | apply Frame.ite
    | apply Frame.ite1
    | split

theorem execRfxLoadRule_frame (r : Req) (rule : U16) (f : RuleFields) (s : State) :
    Framed [.sys, .mbx, .log, .tb, .vz, .cfg, .ch, .rfx, .twin, .brg, .fio, .upd] s (execRfxLoadRule r rule f s) := by
  unfold execRfxLoadRule
  with_reducible repeat' first
    | apply Framed.next
    | assumption
    | decide
    | apply Frame.refl
    | apply Frame.via (loadRuleBody_frame ..)
    | apply runCmd_frame
    | apply Frame.ite
    | intro _

theorem enableBody_frame (ns : List Nat) (s : State) :
    Frame [.sys, .mbx, .log, .tb, .vz, .cfg, .ch, .rfx, .twin, .brg, .fio, .upd] s (enableBody ns s).1 := by
  unfold enableBody
  with_reducible repeat' first
    | assumption
    | decide
    | apply Frame.refl
    | apply Frame.via (evalRules_frame ..)
    | apply Frame.ite
    | apply Frame.ite1
    | split
    | apply Frame.set_rfx

theorem disableBody_frame (ns : List Nat) (s : State) :
    Frame [.sys, .mbx, .log, .tb, .vz, .cfg, .ch, .rfx, .twin, .brg, .fio, .upd] s (disableBody ns s).1 := by
  unfold disableBody
  with_reducible repeat' first
    | assumption
    | decide
    | apply Frame.refl
    | apply Frame.via (evalRules_frame ..)
    | apply Frame.ite
    | apply Frame.ite1
    | split
    | apply Frame.set_rfx

theorem execRfxEnable_frame (r : Req) (first count : U16) (s : State) :
    Framed [.sys, .mbx, .log, .tb, .vz, .cfg, .ch, .rfx, .twin, .brg, .fio, .upd] s (execRfxEnable r first count s) := by
  unfold execRfxEnable
  with_reducible repeat' first
    | apply Framed.next
    | assumption
    | decide
    | apply Frame.refl
    | apply Frame.via (enableBody_frame ..)
    | apply runCmd_frame
    | apply Frame.ite
    | intro _

theorem execRfxDisable_frame (r : Req) (first count : U16) (s : State) :
    Framed [.sys, .mbx, .log, .tb, .vz, .cfg, .ch, .rfx, .twin, .brg, .fio, .upd] s (execRfxDisable r first count s) := by
  unfold execRfxDisable
  with_reducible repeat' first
    | apply Framed.next
    | assumption
    | decide
    | apply Frame.refl
    | apply Frame.via (disableBody_frame ..)
    | apply runCmd_frame
    | apply Frame.ite
    | intro _

theorem execRfxGetRule_frame (r : Req) (rule : U16) (s : State) :
    Framed [.mbx, .vz] s (execRfxGetRule r rule s) := by
  unfold execRfxGetRule
  with_reducible repeat' first
    | apply Framed.next
    | assumption
    | decide
    | apply Frame.refl
    | (lift_lets; intro x; apply Frame.cut x ?_ (fun _ => ?_); subst x; rotate_left; clear_value x; rotate_right)
    | (lift_lets; intro x; apply Frame.cut x.1 ?_ (fun _ => ?_); subst x; rotate_left; clear_value x; rotate_right)
    | (lift_lets; intro x; clear_value x)
    | apply runCmd_frame
    | apply Frame.ite
    | intro _

theorem execRfxStats_frame (r : Req) (first count : U16) (s : State) :
    Framed [.mbx, .vz] s (execRfxStats r first count s) := by
  unfold execRfxStats
  with_reducible repeat' first
    | apply Framed.next
    | assumption
    | decide
    | apply Frame.refl
    | (lift_lets; intro x; apply Frame.cut x ?_ (fun _ => ?_); subst x; rotate_left; clear_value x; rotate_right)
    | (lift_lets; intro x; apply Frame.cut x.1 ?_ (fun _ => ?_); subst x; rotate_left; clear_value x; rotate_right)
    | (lift_lets; intro x; clear_value x)
    | apply runCmd_frame
    | apply Frame.ite
    | intro _

theorem execRfxSelfArrest_frame (r : Req) (reason : U16) (s : State) :
    Framed [.sys, .mbx, .log, .tb, .vz, .cfg, .ch, .rfx, .twin, .brg, .fio, .upd] s (execRfxSelfArrest r reason s) := by
  unfold execRfxSelfArrest
  with_reducible repeat' first
    | apply Framed.next
    | assumption
    | decide
    | apply Frame.refl
    | apply runCmd_frame
    | apply Frame.via (selfArrest_frame ..)
    | apply Frame.ite
    | intro _

theorem safeNFilterBody_frame (tSnf : Nat) (sna : Bool) (s : State) :
    Frame [.sys, .mbx, .log, .tb, .vz, .cfg, .ch, .rfx, .twin, .brg, .fio, .upd] s (safeNFilterBody tSnf sna s).1 := by
  unfold safeNFilterBody
  with_reducible repeat' first
    | assumption
    | decide
    | apply Frame.refl
    | (lift_lets; intro x; apply Frame.cut x ?_ (fun _ => ?_); subst x; rotate_left; clear_value x; rotate_right)
    | (lift_lets; intro x; apply Frame.cut x.1 ?_ (fun _ => ?_); subst x; rotate_left; clear_value x; rotate_right)
    | (lift_lets; intro x; clear_value x)
    | apply Frame.via (selfArrest_frame ..)
    | apply Frame.ite
    | apply Frame.ite1
    | split
    | apply Frame.set_rfx

theorem execRfxSafeNFilter_frame (r : Req) (tSnf : U16) (flags : Byte) (s : State) :
    Framed [.sys, .mbx, .log, .tb, .vz, .cfg, .ch, .rfx, .twin, .brg, .fio, .upd] s (execRfxSafeNFilter r tSnf flags s) := by
  unfold execRfxSafeNFilter
  with_reducible repeat' first
    | apply Framed.next
    | assumption
    | decide
    | apply Frame.refl
    | apply runCmd_frame
    | apply Frame.via (safeNFilterBody_frame ..)
    | apply Frame.ite
    | intro _

end Sys2Proof.Machine

end
end

