-- ==== Sys2Proof/Laws/Frames/Sleep.lean ====
section
/-! SUPPORT. The frame of each function of `Machine/Sleep.lean`: the parts of the state it may change. -/

section

set_option Elab.async false

namespace Sys2Proof.Machine

theorem armWakes_frame (trigger : Nat) (s : State) :
    Frame [.sys, .fio, .net] s (armWakes trigger s) := by
  unfold armWakes
  with_reducible repeat' first
    | assumption
    | decide
    | apply Frame.refl
    | (lift_lets; intro x; apply Frame.cut x ?_ (fun _ => ?_); subst x; rotate_left; clear_value x; rotate_right)
    | (lift_lets; intro x; apply Frame.cut x.1 ?_ (fun _ => ?_); subst x; rotate_left; clear_value x; rotate_right)
    | (lift_lets; intro x; clear_value x)
    | apply Frame.ite
    | split
    | apply Frame.set_sys_fio_net

theorem sleepOutputs_frame (s : State) :
    Frame [.ch] s (sleepOutputs s) := by
  unfold sleepOutputs
  with_reducible repeat' first
    | assumption
    | decide
    | apply Frame.refl
    | (lift_lets; intro x; apply Frame.cut x ?_ (fun _ => ?_); subst x; rotate_left; clear_value x; rotate_right)
    | (lift_lets; intro x; apply Frame.cut x.1 ?_ (fun _ => ?_); subst x; rotate_left; clear_value x; rotate_right)
    | (lift_lets; intro x; clear_value x)
    | apply Frame.ite
    | apply Frame.foldl
    | apply Frame.foldl1
    | intro _
    | split
    | apply Frame.set_ch

theorem bivouacEnter_frame (trigger : Nat) (s : State) :
    Frame [.sys, .mbx, .log, .vz, .ch, .twin, .fio, .net] s (bivouacEnter trigger s) := by
  unfold bivouacEnter
  with_reducible repeat' first
    | assumption
    | decide
    | apply Frame.refl
    | apply Frame.via (armWakes_frame ..)
    | apply Frame.via (sleepOutputs_frame ..)
    | apply Frame.via (twinRelease_frame ..)

theorem flushLog_frame (s : State) :
    Frame [.log] s (flushLog s) := by
  unfold flushLog
  with_reducible repeat' first
    | assumption
    | decide
    | apply Frame.refl
    | apply Frame.ite
    | split
    | apply Frame.set_log
    | dsimp only

theorem bivouacSwitch_frame (s : State) :
    Frame [.sys, .mbx, .log, .vz, .cfg, .ch, .brg, .upd] s (bivouacSwitch s) := by
  unfold bivouacSwitch
  with_reducible repeat' first
    | assumption
    | decide
    | apply Frame.refl
    | (lift_lets; intro x; apply Frame.cut x ?_ (fun _ => ?_); subst x; rotate_left; clear_value x; rotate_right)
    | (lift_lets; intro x; apply Frame.cut x.1 ?_ (fun _ => ?_); subst x; rotate_left; clear_value x; rotate_right)
    | (lift_lets; intro x; clear_value x)
    | apply Frame.via (enterStopped_frame ..)
    | apply Frame.via (flushLog_frame ..)
    | apply Frame.via (setMode_frame ..)
    | apply Frame.ite
    | split
    | apply Frame.set_sys_mbx

theorem wakeStart_frame (s : State) :
    Frame [.sys] s (wakeStart s) := by
  unfold wakeStart
  with_reducible repeat' first
    | assumption
    | decide
    | apply Frame.refl
    | apply Frame.ite
    | split
    | apply Frame.set_sys

theorem bivouacDone_frame (s : State) :
    Frame [.sys, .mbx, .log, .tb, .vz, .saf, .cfg, .ch, .rfx, .twin, .brg, .fio, .ring, .esw, .net, .sig, .upd, .uds] s (bivouacDone s) := by
  unfold bivouacDone
  with_reducible repeat' first
    | assumption
    | decide
    | apply Frame.refl
    | (lift_lets; intro x; apply Frame.cut x ?_ (fun _ => ?_); subst x; rotate_left; clear_value x; rotate_right)
    | (lift_lets; intro x; apply Frame.cut x.1 ?_ (fun _ => ?_); subst x; rotate_left; clear_value x; rotate_right)
    | (lift_lets; intro x; clear_value x)
    | apply Frame.via (bivouacSwitch_frame ..)
    | apply Frame.via (logicStop_frame ..)
    | apply Frame.via (wakeStart_frame ..)
    | apply Frame.ite
    | split
    | apply Frame.set_ch
    | apply Frame.set_sys_tb

theorem execBivouacEntryDone_frame (s : State) :
    Framed [.sys, .mbx, .log, .tb, .vz, .saf, .cfg, .ch, .rfx, .twin, .brg, .fio, .ring, .esw, .net, .sig, .upd, .uds] s (execBivouacEntryDone s) := by
  unfold execBivouacEntryDone
  with_reducible repeat' first
    | apply Framed.next
    | assumption
    | decide
    | apply Frame.refl
    | apply Frame.via (bivouacDone_frame ..)

theorem sysSleepBody_frame (s : State) :
    Frame [.sys, .mbx, .log, .vz, .ch, .twin, .fio, .net] s (sysSleepBody s).1 := by
  unfold sysSleepBody
  with_reducible repeat' first
    | assumption
    | decide
    | apply Frame.refl
    | apply Frame.via (bivouacEnter_frame ..)
    | apply Frame.ite
    | apply Frame.ite1

theorem execSysSleep_frame (r : Req) (s : State) :
    Framed [.sys, .mbx, .log, .vz, .ch, .twin, .fio, .net] s (execSysSleep r s) := by
  unfold execSysSleep
  with_reducible repeat' first
    | apply Framed.next
    | assumption
    | decide
    | apply Frame.refl
    | apply runCmd_frame
    | apply Frame.via (sysSleepBody_frame ..)
    | apply Frame.ite
    | intro _

theorem execAutoSleep_frame (s : State) :
    Framed [.sys, .mbx, .log, .vz, .ch, .twin, .fio, .net] s (execAutoSleep s) := by
  unfold execAutoSleep
  with_reducible repeat' first
    | apply Framed.next
    | assumption
    | decide
    | apply Frame.refl
    | apply Frame.via (bivouacEnter_frame ..)
    | apply Frame.ite

theorem wakeUp_frame (mark : WakeCause → WakeCause) (s : State) :
    Frame [.sys, .mbx, .log, .vz, .ch, .ring] s (wakeUp mark s) := by
  unfold wakeUp
  with_reducible repeat' first
    | assumption
    | decide
    | apply Frame.refl
    | (lift_lets; intro x; apply Frame.cut x ?_ (fun _ => ?_); subst x; rotate_left; clear_value x; rotate_right)
    | (lift_lets; intro x; apply Frame.cut x.1 ?_ (fun _ => ?_); subst x; rotate_left; clear_value x; rotate_right)
    | (lift_lets; intro x; clear_value x)
    | apply Frame.via (cancelKeep_frame ..)
    | apply Frame.via (raise_frame ..)
    | apply Frame.via (urgent_frame ..)
    | apply Frame.via (wakeStart_frame ..)
    | apply Frame.ite
    | split
    | apply Frame.set_sys
    | apply Frame.set_sys_ring

theorem execWakeNAssert_frame (s : State) :
    Framed [.sys, .mbx, .log, .vz, .ch, .ring] s (execWakeNAssert s) := by
  unfold execWakeNAssert
  with_reducible repeat' first
    | apply Framed.next
    | assumption
    | decide
    | apply Frame.refl
    | apply Frame.via (wakeUp_frame ..)

theorem execPortTc10Wake_frame (p : Fin 8) (s : State) :
    Framed [.sys, .mbx, .log, .vz, .ch, .ring] s (execPortTc10Wake p s) := by
  unfold execPortTc10Wake
  with_reducible repeat' first
    | apply Framed.next
    | assumption
    | decide
    | apply Frame.refl
    | apply Frame.via (wakeUp_frame ..)
    | apply Frame.ite

theorem ringWake_frame (p : Nat) (s : State) :
    Frame [.sys, .mbx, .log, .vz, .ch, .ring] s (ringWake p s) := by
  unfold ringWake
  with_reducible repeat' first
    | assumption
    | decide
    | apply Frame.refl
    | (lift_lets; intro x; apply Frame.cut x ?_ (fun _ => ?_); subst x; rotate_left; clear_value x; rotate_right)
    | (lift_lets; intro x; apply Frame.cut x.1 ?_ (fun _ => ?_); subst x; rotate_left; clear_value x; rotate_right)
    | (lift_lets; intro x; clear_value x)
    | apply Frame.via (State.modRing_frame ..)
    | apply Frame.via (wakeUp_frame ..)
    | apply Frame.ite

theorem execRingTc10Wake_frame (port : Fin 2) (s : State) :
    Framed [.sys, .mbx, .log, .vz, .ch, .ring] s (execRingTc10Wake port s) := by
  unfold execRingTc10Wake
  with_reducible repeat' first
    | apply Framed.next
    | assumption
    | decide
    | apply Frame.refl
    | apply Frame.via (ringWake_frame ..)

theorem ringSleepNow_frame (s : State) :
    Frame [.sys, .mbx, .log, .vz, .cfg, .ch, .brg, .ring, .upd] s (ringSleepNow s) := by
  unfold ringSleepNow
  with_reducible repeat' first
    | assumption
    | decide
    | apply Frame.refl
    | (lift_lets; intro x; apply Frame.cut x ?_ (fun _ => ?_); subst x; rotate_left; clear_value x; rotate_right)
    | (lift_lets; intro x; apply Frame.cut x.1 ?_ (fun _ => ?_); subst x; rotate_left; clear_value x; rotate_right)
    | (lift_lets; intro x; clear_value x)
    | apply Frame.via (State.modRing_frame ..)
    | apply Frame.via (bivouacSwitch_frame ..)
    | apply Frame.ite
    | split
    | apply Frame.set_sys

theorem execRingSleep_frame (s : State) :
    Framed [.sys, .mbx, .log, .vz, .cfg, .ch, .brg, .ring, .upd] s (execRingSleep s) := by
  unfold execRingSleep
  with_reducible repeat' first
    | apply Framed.next
    | assumption
    | decide
    | apply Frame.refl
    | apply Frame.via (ringSleepNow_frame ..)

theorem cycSample_frame (n : Nat) (mv : Int) (s : State) :
    Frame [.sys, .mbx, .log, .vz, .ch, .fio, .ring] s (cycSample n mv s) := by
  unfold cycSample
  with_reducible repeat' first
    | assumption
    | decide
    | apply Frame.refl
    | (lift_lets; intro x; apply Frame.cut x ?_ (fun _ => ?_); subst x; rotate_left; clear_value x; rotate_right)
    | (lift_lets; intro x; apply Frame.cut x.1 ?_ (fun _ => ?_); subst x; rotate_left; clear_value x; rotate_right)
    | (lift_lets; intro x; clear_value x)
    | apply Frame.via (wakeUp_frame ..)
    | apply Frame.ite
    | split
    | apply Frame.set_fio

theorem execCyclicSenseSample_frame (n : Fin 16) (mv : Int) (s : State) :
    Framed [.sys, .mbx, .log, .vz, .ch, .fio, .ring] s (execCyclicSenseSample n mv s) := by
  unfold execCyclicSenseSample
  with_reducible repeat' first
    | apply Framed.next
    | assumption
    | decide
    | apply Frame.refl
    | apply Frame.via (cycSample_frame ..)

theorem rtcExpire_frame (s : State) :
    Frame [.sys, .mbx, .log, .tb, .vz, .ch, .ring] s (rtcExpire s) := by
  unfold rtcExpire
  with_reducible repeat' first
    | assumption
    | decide
    | apply Frame.refl
    | apply Frame.via (raise_frame ..)
    | apply Frame.via (wakeUp_frame ..)
    | apply Frame.ite
    | split
    | apply Frame.set_tb

theorem execRtcAlarmExpiry_frame (s : State) :
    Framed [.sys, .mbx, .log, .tb, .vz, .ch, .ring] s (execRtcAlarmExpiry s) := by
  unfold execRtcAlarmExpiry
  with_reducible repeat' first
    | apply Framed.next
    | assumption
    | decide
    | apply Frame.refl
    | apply Frame.via (rtcExpire_frame ..)

theorem canWoke_frame (c : Nat) (s : State) :
    Frame [.sys, .mbx, .log, .vz, .ch, .ring, .net] s (canWoke c s) := by
  unfold canWoke
  with_reducible repeat' first
    | assumption
    | decide
    | apply Frame.refl
    | (lift_lets; intro x; apply Frame.cut x ?_ (fun _ => ?_); subst x; rotate_left; clear_value x; rotate_right)
    | (lift_lets; intro x; apply Frame.cut x.1 ?_ (fun _ => ?_); subst x; rotate_left; clear_value x; rotate_right)
    | (lift_lets; intro x; clear_value x)
    | apply Frame.via (State.modCan_frame ..)
    | apply Frame.via (canWakeCh_frame ..)
    | apply Frame.via (raiseCan_frame ..)
    | apply Frame.via (wakeUp_frame ..)
    | apply Frame.ite

theorem canLowPower_frame (c : Nat) (pattern : Bool) (f : Option CanFrame) (s : State) :
    Frame [.sys, .mbx, .log, .vz, .ch, .ring, .net] s (canLowPower c pattern f s) := by
  unfold canLowPower
  with_reducible repeat' first
    | assumption
    | decide
    | apply Frame.refl
    | (lift_lets; intro x; apply Frame.cut x ?_ (fun _ => ?_); subst x; rotate_left; clear_value x; rotate_right)
    | (lift_lets; intro x; apply Frame.cut x.1 ?_ (fun _ => ?_); subst x; rotate_left; clear_value x; rotate_right)
    | (lift_lets; intro x; clear_value x)
    | apply Frame.via (State.modCan_frame ..)
    | apply Frame.via (canWoke_frame ..)
    | apply Frame.via (raiseCan_frame ..)
    | apply Frame.ite
    | split

theorem execCanLowPowerFrame_frame (c : Fin 16) (pattern : Bool) (f : Option CanFrame) (s : State) :
    Framed [.sys, .mbx, .log, .vz, .ch, .ring, .net] s (execCanLowPowerFrame c pattern f s) := by
  unfold execCanLowPowerFrame
  with_reducible repeat' first
    | apply Framed.next
    | assumption
    | decide
    | apply Frame.refl
    | apply Frame.via (canLowPower_frame ..)

end Sys2Proof.Machine

end
end

