-- ==== Sys2Proof/Laws/Frames/TwinRows.lean ====
section
/-! SUPPORT. The frame of each function of `Machine/TwinRows.lean`: the parts of the state it may change. -/

section

set_option Elab.async false

namespace Sys2Proof.Machine

theorem State.modTwin_frame (s : State) (f : TwinState → TwinState) :
    Frame [.twin] s (State.modTwin s f) := by
  unfold State.modTwin
  with_reducible repeat' first
    | assumption
    | decide
    | apply Frame.refl
    | apply Frame.ite
    | split
    | apply Frame.set_twin

theorem answerBelayTest_frame (decoded : List Byte) (s : State) :
    Frame [.mbx, .vz, .twin] s (answerBelayTest decoded s) := by
  unfold answerBelayTest
  with_reducible repeat' first
    | assumption
    | decide
    | apply Frame.refl
    | apply Frame.via (State.modTwin_frame ..)
    | apply Frame.via (complete_frame ..)
    | apply Frame.ite
    | split

theorem arrestLink_frame (req : Bool) (s : State) :
    Frame [.sys, .mbx, .log, .tb, .vz, .cfg, .ch, .rfx, .twin, .brg, .fio, .upd] s (arrestLink req s) := by
  unfold arrestLink
  with_reducible repeat' first
    | assumption
    | decide
    | apply Frame.refl
    | (lift_lets; intro x; apply Frame.cut x ?_ (fun _ => ?_); subst x; rotate_left; clear_value x; rotate_right)
    | (lift_lets; intro x; apply Frame.cut x.1 ?_ (fun _ => ?_); subst x; rotate_left; clear_value x; rotate_right)
    | (lift_lets; intro x; clear_value x)
    | apply Frame.via (State.modTwin_frame ..)
    | apply Frame.via (selfArrest_frame ..)
    | apply Frame.ite

theorem raiseTwin_frame (k : EvKind) (inst : Nat) (data : List Byte) (s : State) :
    Frame [.mbx, .log, .vz] s (raiseTwin k inst data s) := by
  unfold raiseTwin
  with_reducible repeat' first
    | assumption
    | decide
    | apply Frame.refl
    | apply Frame.via (raise_frame ..)

theorem checkId_frame (id : U32) (s : State) :
    Frame [.mbx, .log, .vz, .twin] s (checkId id s) := by
  unfold checkId
  with_reducible repeat' first
    | assumption
    | decide
    | apply Frame.refl
    | (lift_lets; intro x; apply Frame.cut x ?_ (fun _ => ?_); subst x; rotate_left; clear_value x; rotate_right)
    | (lift_lets; intro x; apply Frame.cut x.1 ?_ (fun _ => ?_); subst x; rotate_left; clear_value x; rotate_right)
    | (lift_lets; intro x; clear_value x)
    | apply Frame.via (State.modTwin_frame ..)
    | apply Frame.via (raiseTwin_frame ..)
    | apply Frame.ite

theorem tryReady_frame (s : State) :
    Frame [.mbx, .log, .vz, .ch, .twin] s (tryReady s) := by
  unfold tryReady
  with_reducible repeat' first
    | assumption
    | decide
    | apply Frame.refl
    | (lift_lets; intro x; apply Frame.cut x ?_ (fun _ => ?_); subst x; rotate_left; clear_value x; rotate_right)
    | (lift_lets; intro x; apply Frame.cut x.1 ?_ (fun _ => ?_); subst x; rotate_left; clear_value x; rotate_right)
    | (lift_lets; intro x; clear_value x)
    | apply Frame.via (State.modTwin_frame ..)
    | apply Frame.via (raiseTwin_frame ..)
    | apply Frame.via (twinCheck_frame ..)
    | apply Frame.ite

theorem healthFrame_frame (origin wordA : U32) (payload : List Byte) (s : State) :
    Frame [.sys, .mbx, .log, .tb, .vz, .cfg, .ch, .rfx, .twin, .brg, .fio, .upd] s (healthFrame origin wordA payload s) := by
  unfold healthFrame
  with_reducible repeat' first
    | assumption
    | decide
    | apply Frame.refl
    | (lift_lets; intro x; apply Frame.cut x ?_ (fun _ => ?_); subst x; rotate_left; clear_value x; rotate_right)
    | (lift_lets; intro x; apply Frame.cut x.1 ?_ (fun _ => ?_); subst x; rotate_left; clear_value x; rotate_right)
    | (lift_lets; intro x; clear_value x)
    | apply Frame.via (State.modTwin_frame ..)
    | apply Frame.via (answerBelayTest_frame ..)
    | apply Frame.via (arrestLink_frame ..)
    | apply Frame.via (checkId_frame ..)
    | apply Frame.via (tryReady_frame ..)

theorem belayFaultCheck_frame (holder : Bool) (origin : U32) (s : State) :
    Frame [.mbx, .log, .vz, .ch, .twin] s (belayFaultCheck holder origin s) := by
  unfold belayFaultCheck
  with_reducible repeat' first
    | assumption
    | decide
    | apply Frame.refl
    | apply Frame.via (State.modTwin_frame ..)
    | apply Frame.via (raiseTwin_frame ..)
    | apply Frame.via (setRole_frame ..)
    | apply Frame.ite

theorem mirrorFrame_frame (origin wordA : U32) (payload : List Byte) (s : State) :
    Frame [.sys, .mbx, .log, .tb, .vz, .cfg, .ch, .rfx, .twin, .brg, .fio, .upd] s (mirrorFrame origin wordA payload s) := by
  unfold mirrorFrame
  with_reducible repeat' first
    | assumption
    | decide
    | apply Frame.refl
    | (lift_lets; intro x; apply Frame.cut x ?_ (fun _ => ?_); subst x; rotate_left; clear_value x; rotate_right)
    | (lift_lets; intro x; apply Frame.cut x.1 ?_ (fun _ => ?_); subst x; rotate_left; clear_value x; rotate_right)
    | (lift_lets; intro x; clear_value x)
    | apply Frame.via (State.modTwin_frame ..)
    | apply Frame.via (arrestLink_frame ..)
    | apply Frame.via (belayFaultCheck_frame ..)
    | apply Frame.via (tryReady_frame ..)

theorem belaySend_frame (s : State) :
    Frame [.twin] s (belaySend s) := by
  unfold belaySend
  with_reducible repeat' first
    | assumption
    | decide
    | apply Frame.refl
    | apply Frame.via (State.modTwin_frame ..)
    | apply Frame.ite
    | split

theorem execBelayFrameSend_frame (s : State) :
    Framed [.twin] s (execBelayFrameSend s) := by
  unfold execBelayFrameSend
  with_reducible repeat' first
    | apply Framed.next
    | assumption
    | decide
    | apply Frame.refl
    | apply Frame.via (belaySend_frame ..)

theorem execBelayEncoderTimeout_frame (s : State) :
    Framed [.twin] s (execBelayEncoderTimeout s) := by
  unfold execBelayEncoderTimeout
  with_reducible repeat' first
    | apply Framed.next
    | assumption
    | decide
    | apply Frame.refl
    | apply Frame.via (State.modTwin_frame ..)

theorem partnerIs_frame (p : Option BelayCode) (s : State) :
    Frame [.sys, .mbx, .log, .tb, .vz, .cfg, .ch, .rfx, .twin, .brg, .fio, .upd] s (partnerIs p s) := by
  unfold partnerIs
  with_reducible repeat' first
    | assumption
    | decide
    | apply Frame.refl
    | apply Frame.via (State.modTwin_frame ..)
    | apply Frame.via (evalRules_frame ..)
    | apply Frame.via (reGate_frame ..)
    | apply Frame.via (twinCheck_frame ..)

theorem belayDecoded_frame (c : BelayCode) (s : State) :
    Frame [.sys, .mbx, .log, .tb, .vz, .cfg, .ch, .rfx, .twin, .brg, .fio, .ring, .upd] s (belayDecoded c s) := by
  unfold belayDecoded
  with_reducible repeat' first
    | assumption
    | decide
    | apply Frame.refl
    | (lift_lets; intro x; apply Frame.cut x ?_ (fun _ => ?_); subst x; rotate_left; clear_value x; rotate_right)
    | (lift_lets; intro x; apply Frame.cut x.1 ?_ (fun _ => ?_); subst x; rotate_left; clear_value x; rotate_right)
    | (lift_lets; intro x; clear_value x)
    | apply Frame.via (State.modTwin_frame ..)
    | apply Frame.via (partnerIs_frame ..)
    | apply Frame.via (wakeUp_frame ..)
    | apply Frame.ite

theorem execBelayFrameDecoded_frame (code : BelayCode) (s : State) :
    Framed [.sys, .mbx, .log, .tb, .vz, .cfg, .ch, .rfx, .twin, .brg, .fio, .ring, .upd] s (execBelayFrameDecoded code s) := by
  unfold execBelayFrameDecoded
  with_reducible repeat' first
    | apply Framed.next
    | assumption
    | decide
    | apply Frame.refl
    | apply Frame.via (belayDecoded_frame ..)

theorem partnerLost_frame (s : State) :
    Frame [.sys, .mbx, .log, .tb, .vz, .cfg, .ch, .rfx, .twin, .brg, .fio, .upd] s (partnerLost s) := by
  unfold partnerLost
  with_reducible repeat' first
    | assumption
    | decide
    | apply Frame.refl
    | (lift_lets; intro x; apply Frame.cut x ?_ (fun _ => ?_); subst x; rotate_left; clear_value x; rotate_right)
    | (lift_lets; intro x; apply Frame.cut x.1 ?_ (fun _ => ?_); subst x; rotate_left; clear_value x; rotate_right)
    | (lift_lets; intro x; clear_value x)
    | apply Frame.via (State.modTwin_frame ..)
    | apply Frame.via (partnerIs_frame ..)
    | apply Frame.via (raiseTwin_frame ..)
    | apply Frame.ite

theorem execBelayPartnerLost_frame (s : State) :
    Framed [.sys, .mbx, .log, .tb, .vz, .cfg, .ch, .rfx, .twin, .brg, .fio, .upd] s (execBelayPartnerLost s) := by
  unfold execBelayPartnerLost
  with_reducible repeat' first
    | apply Framed.next
    | assumption
    | decide
    | apply Frame.refl
    | apply Frame.via (partnerLost_frame ..)

theorem execTwinGateDelay_frame (die : Fin 8) (s : State) :
    Framed [.ch] s (execTwinGateDelay die s) := by
  unfold execTwinGateDelay
  with_reducible repeat' first
    | apply Framed.next
    | assumption
    | decide
    | apply Frame.refl
    | apply Frame.via (State.modDie_frame ..)
    | apply Frame.via (reGate_frame ..)

theorem twinGrace_frame (s : State) :
    Frame [.mbx, .log, .vz, .ch, .twin] s (twinGrace s) := by
  unfold twinGrace
  with_reducible repeat' first
    | assumption
    | decide
    | apply Frame.refl
    | apply Frame.via (setRole_frame ..)
    | apply Frame.ite

theorem execTwinGraceExpiry_frame (s : State) :
    Framed [.mbx, .log, .vz, .ch, .twin] s (execTwinGraceExpiry s) := by
  unfold execTwinGraceExpiry
  with_reducible repeat' first
    | apply Framed.next
    | assumption
    | decide
    | apply Frame.refl
    | apply Frame.via (twinGrace_frame ..)

theorem testFailed_frame (n k : Nat) (s : State) :
    Frame [.mbx, .log, .vz, .twin] s (testFailed n k s) := by
  unfold testFailed
  with_reducible repeat' first
    | assumption
    | decide
    | apply Frame.refl
    | (lift_lets; intro x; apply Frame.cut x ?_ (fun _ => ?_); subst x; rotate_left; clear_value x; rotate_right)
    | (lift_lets; intro x; apply Frame.cut x.1 ?_ (fun _ => ?_); subst x; rotate_left; clear_value x; rotate_right)
    | (lift_lets; intro x; clear_value x)
    | apply Frame.via (State.modTwin_frame ..)
    | apply Frame.via (raiseTwin_frame ..)
    | apply Frame.ite

theorem testPassed_frame (n : Nat) (s : State) :
    Frame [.mbx, .log, .vz, .ch, .twin] s (testPassed n s) := by
  unfold testPassed
  with_reducible repeat' first
    | assumption
    | decide
    | apply Frame.refl
    | apply Frame.via (State.modTwin_frame ..)
    | apply Frame.via (tryReady_frame ..)

theorem selfTest_frame (n : Nat) (pass : Bool) (k : Nat) (s : State) :
    Frame [.mbx, .log, .vz, .ch, .twin] s (selfTest n pass k s) := by
  unfold selfTest
  with_reducible repeat' first
    | assumption
    | decide
    | apply Frame.refl
    | apply Frame.via (testFailed_frame ..)
    | apply Frame.via (testPassed_frame ..)
    | apply Frame.ite

theorem execStandbySelftest_frame (test : Fin 4) (pass : Bool) (entry : Fin 32) (s : State) :
    Framed [.mbx, .log, .vz, .ch, .twin] s (execStandbySelftest test pass entry s) := by
  unfold execStandbySelftest
  with_reducible repeat' first
    | apply Framed.next
    | assumption
    | decide
    | apply Frame.refl
    | apply Frame.via (selfTest_frame ..)

theorem healthReport_frame (vin vbk12 : Int) (s : State) :
    Frame [.twin, .ring] s (healthReport vin vbk12 s) := by
  unfold healthReport
  with_reducible repeat' first
    | assumption
    | decide
    | apply Frame.refl
    | (lift_lets; intro x; apply Frame.cut x ?_ (fun _ => ?_); subst x; rotate_left; clear_value x; rotate_right)
    | (lift_lets; intro x; apply Frame.cut x.1 ?_ (fun _ => ?_); subst x; rotate_left; clear_value x; rotate_right)
    | (lift_lets; intro x; clear_value x)
    | apply Frame.via (State.modRing_frame ..)
    | apply Frame.via (State.modTwin_frame ..)
    | apply Frame.ite

theorem execHealthReport_frame (vin vbk12 : Int) (s : State) :
    Framed [.twin, .ring] s (execHealthReport vin vbk12 s) := by
  unfold execHealthReport
  with_reducible repeat' first
    | apply Framed.next
    | assumption
    | decide
    | apply Frame.refl
    | apply Frame.via (healthReport_frame ..)

theorem needTwin_frame {w : List Part} {s0 s : State} {y : State × Reply} (h : Frame w s0 s) (hy : Frame w s0 y.1) :
    Frame w s0 (needTwin s y).1 := by
  unfold needTwin
  split <;> assumption

theorem execTwinStatus_frame (r : Req) (s : State) :
    Framed [.mbx, .vz] s (execTwinStatus r s) := by
  unfold execTwinStatus
  with_reducible repeat' first
    | apply Framed.next
    | assumption
    | decide
    | apply Frame.refl
    | apply needTwin_frame
    | apply runCmd_frame
    | apply Frame.ite
    | intro _

theorem twinHealthBody_frame (which : Byte) (s : State) :
    Frame [] s (twinHealthBody which s).1 := by
  unfold twinHealthBody
  with_reducible repeat' first
    | assumption
    | decide
    | apply Frame.refl
    | apply Frame.ite
    | apply Frame.ite1
    | split

theorem execTwinHealth_frame (r : Req) (which : Byte) (s : State) :
    Framed [.mbx, .vz] s (execTwinHealth r which s) := by
  unfold execTwinHealth
  with_reducible repeat' first
    | apply Framed.next
    | assumption
    | decide
    | apply Frame.refl
    | apply needTwin_frame
    | apply runCmd_frame
    | apply Frame.via (twinHealthBody_frame ..)
    | apply Frame.ite
    | intro _

theorem belayTestBody_frame (r : Req) (n : Nat) (s : State) :
    Frame [.twin] s (belayTestBody r n s).1 := by
  unfold belayTestBody
  with_reducible repeat' first
    | assumption
    | decide
    | apply Frame.refl
    | apply Frame.via (State.modTwin_frame ..)
    | apply Frame.ite
    | apply Frame.ite1

theorem execTwinBelayTest_frame (r : Req) (frames : U16) (s : State) :
    Framed [.mbx, .vz, .twin] s (execTwinBelayTest r frames s) := by
  unfold execTwinBelayTest
  with_reducible repeat' first
    | apply Framed.next
    | assumption
    | decide
    | apply Frame.refl
    | apply Frame.via (belayTestBody_frame ..)
    | apply needTwin_frame
    | apply runCmd_frame
    | apply Frame.ite
    | intro _

theorem execBelayTestDone_frame (s : State) :
    Framed [.twin] s (execBelayTestDone s) := by
  unfold execBelayTestDone
  with_reducible repeat' first
    | apply Framed.next
    | assumption
    | decide
    | apply Frame.refl
    | apply Frame.via (State.modTwin_frame ..)

end Sys2Proof.Machine

end
end

