-- ==== Sys2Proof/Laws/Frames/Saf.lean ====
section
/-! SUPPORT. The frame of each function of `Machine/Saf.lean`: the parts of the state it may change. -/

section

set_option Elab.async false

namespace Sys2Proof.Machine

theorem State.modPair_frame (s : State) (p : Nat) (f : Pair → Pair) :
    Frame [.saf] s (State.modPair s p f) := by
  unfold State.modPair
  with_reducible repeat' first
    | assumption
    | decide
    | apply Frame.refl
    | apply Frame.ite
    | split
    | apply Frame.set_saf

theorem raiseSaf_frame (k : EvKind) (p : Nat) (data : List Byte) (s : State) :
    Frame [.mbx, .log, .vz] s (raiseSaf k p data s) := by
  unfold raiseSaf
  with_reducible repeat' first
    | assumption
    | decide
    | apply Frame.refl
    | apply Frame.via (raise_frame ..)

theorem pairsCheck_frame (s : State) :
    Frame [.sys, .mbx, .log, .vz, .cfg, .ch, .rfx, .twin, .brg, .fio, .upd] s (pairsCheck s) := by
  unfold pairsCheck
  with_reducible repeat' first
    | assumption
    | decide
    | apply Frame.refl
    | apply Frame.via (limpEntry_frame ..)
    | apply Frame.ite

theorem scopedArrest_frame (p : Nat) (s : State) :
    Frame [.mbx, .log, .vz, .ch, .fio] s (scopedArrest p s) := by
  unfold scopedArrest
  with_reducible repeat' first
    | assumption
    | decide
    | apply Frame.refl
    | (lift_lets; intro x; apply Frame.cut x ?_ (fun _ => ?_); subst x; rotate_left; clear_value x; rotate_right)
    | (lift_lets; intro x; apply Frame.cut x.1 ?_ (fun _ => ?_); subst x; rotate_left; clear_value x; rotate_right)
    | (lift_lets; intro x; clear_value x)
    | apply Frame.via (raise_frame ..)
    | apply Frame.via (urgent_frame ..)
    | apply Frame.via (xSend_frame ..)
    | apply Frame.ite
    | apply Frame.foldl
    | apply Frame.foldl1
    | intro _
    | split
    | apply Frame.set_vz

theorem fatalLockstep_frame (p : Nat) (s : State) :
    Frame [.sys, .mbx, .log, .tb, .vz, .cfg, .ch, .rfx, .twin, .brg, .fio, .upd] s (fatalLockstep p s) := by
  unfold fatalLockstep
  with_reducible repeat' first
    | assumption
    | decide
    | apply Frame.refl
    | apply Frame.via (scopedArrest_frame ..)
    | apply Frame.via (selfArrest_frame ..)
    | apply Frame.ite

theorem retirePair_frame (p : Nat) (s : State) :
    Frame [.sys, .saf] s (retirePair p s) := by
  unfold retirePair
  with_reducible repeat' first
    | assumption
    | decide
    | apply Frame.refl
    | (lift_lets; intro x; apply Frame.cut x ?_ (fun _ => ?_); subst x; rotate_left; clear_value x; rotate_right)
    | (lift_lets; intro x; apply Frame.cut x.1 ?_ (fun _ => ?_); subst x; rotate_left; clear_value x; rotate_right)
    | (lift_lets; intro x; clear_value x)
    | apply Frame.via (State.modPair_frame ..)
    | apply Frame.ite
    | split
    | apply Frame.set_sys

theorem losePair_frame (p : Nat) (s : State) :
    Frame [.sys, .mbx, .log, .tb, .vz, .saf, .cfg, .ch, .rfx, .twin, .brg, .fio, .upd] s (losePair p s) := by
  unfold losePair
  with_reducible repeat' first
    | assumption
    | decide
    | apply Frame.refl
    | apply Frame.via (fatalLockstep_frame ..)
    | apply Frame.via (pairsCheck_frame ..)
    | apply Frame.ite
    | split
    | apply Frame.set_saf

theorem lockstepMismatch_frame (p g : Nat) (s : State) :
    Frame [.mbx, .log, .vz, .saf] s (lockstepMismatch p g s) := by
  unfold lockstepMismatch
  with_reducible repeat' first
    | assumption
    | decide
    | apply Frame.refl
    | apply Frame.via (State.modPair_frame ..)
    | apply Frame.via (raiseSaf_frame ..)
    | apply Frame.ite

theorem execLockstepMismatch_frame (pair : Fin 4) (group : Fin 8) (s : State) :
    Framed [.mbx, .log, .vz, .saf] s (execLockstepMismatch pair group s) := by
  unfold execLockstepMismatch
  with_reducible repeat' first
    | apply Framed.next
    | assumption
    | decide
    | apply Frame.refl
    | apply Frame.via (lockstepMismatch_frame ..)

theorem lbistDecision_frame (p : Nat) (pass injectOk : Bool) (s : State) :
    Frame [.sys, .mbx, .log, .tb, .vz, .saf, .cfg, .ch, .rfx, .twin, .brg, .fio, .upd] s (lbistDecision p pass injectOk s) := by
  unfold lbistDecision
  with_reducible repeat' first
    | assumption
    | decide
    | apply Frame.refl
    | (lift_lets; intro x; apply Frame.cut x ?_ (fun _ => ?_); subst x; rotate_left; clear_value x; rotate_right)
    | (lift_lets; intro x; apply Frame.cut x.1 ?_ (fun _ => ?_); subst x; rotate_left; clear_value x; rotate_right)
    | (lift_lets; intro x; clear_value x)
    | apply Frame.via (State.modPair_frame ..)
    | apply Frame.via (losePair_frame ..)
    | apply Frame.via (raiseSaf_frame ..)
    | apply Frame.via (retirePair_frame ..)
    | apply Frame.ite

theorem execPairLbistDecision_frame (pair : Fin 4) (pass injectOk : Bool) (s : State) :
    Framed [.sys, .mbx, .log, .tb, .vz, .saf, .cfg, .ch, .rfx, .twin, .brg, .fio, .upd] s (execPairLbistDecision pair pass injectOk s) := by
  unfold execPairLbistDecision
  with_reducible repeat' first
    | apply Framed.next
    | assumption
    | decide
    | apply Frame.refl
    | apply Frame.via (lbistDecision_frame ..)

theorem moveParts_frame (p q : Nat) (s : State) :
    Frame [.saf] s (moveParts p q s) := by
  unfold moveParts
  with_reducible repeat' first
    | assumption
    | decide
    | apply Frame.refl
    | (lift_lets; intro x; apply Frame.cut x ?_ (fun _ => ?_); subst x; rotate_left; clear_value x; rotate_right)
    | (lift_lets; intro x; apply Frame.cut x.1 ?_ (fun _ => ?_); subst x; rotate_left; clear_value x; rotate_right)
    | (lift_lets; intro x; clear_value x)
    | apply Frame.via (State.modPair_frame ..)
    | apply Frame.ite
    | split
    | apply Frame.set_saf

theorem pairMigration_frame (s : State) :
    Frame [.sys, .mbx, .log, .tb, .vz, .saf, .cfg, .ch, .rfx, .twin, .brg, .fio, .upd] s (pairMigration s) := by
  unfold pairMigration
  with_reducible repeat' first
    | assumption
    | decide
    | apply Frame.refl
    | (lift_lets; intro x; apply Frame.cut x ?_ (fun _ => ?_); subst x; rotate_left; clear_value x; rotate_right)
    | (lift_lets; intro x; apply Frame.cut x.1 ?_ (fun _ => ?_); subst x; rotate_left; clear_value x; rotate_right)
    | (lift_lets; intro x; clear_value x)
    | apply Frame.via (fatalLockstep_frame ..)
    | apply Frame.via (moveParts_frame ..)
    | apply Frame.via (pairsCheck_frame ..)
    | apply Frame.via (raiseSaf_frame ..)
    | apply Frame.ite
    | split
    | apply Frame.set_saf

theorem execPairMigration_frame (s : State) :
    Framed [.sys, .mbx, .log, .tb, .vz, .saf, .cfg, .ch, .rfx, .twin, .brg, .fio, .upd] s (execPairMigration s) := by
  unfold execPairMigration
  with_reducible repeat' first
    | apply Framed.next
    | assumption
    | decide
    | apply Frame.refl
    | apply Frame.via (pairMigration_frame ..)

theorem ckptGo_frame (p : Nat) (value : U32) (s : State) :
    Frame [.saf] s (ckptGo p value s) := by
  unfold ckptGo
  with_reducible repeat' first
    | assumption
    | decide
    | apply Frame.refl
    | apply Frame.via (State.modPair_frame ..)
    | apply Frame.ite

theorem execSafCkptGoWrite_frame (pair : Fin 4) (value : U32) (s : State) :
    Framed [.saf] s (execSafCkptGoWrite pair value s) := by
  unfold execSafCkptGoWrite
  with_reducible repeat' first
    | apply Framed.next
    | assumption
    | decide
    | apply Frame.refl
    | apply Frame.via (ckptGo_frame ..)

theorem execCheckpointComplete_frame (pair part : Fin 4) (s : State) :
    Framed [.saf] s (execCheckpointComplete pair part s) := by
  unfold execCheckpointComplete
  with_reducible repeat' first
    | apply Framed.next
    | assumption
    | decide
    | apply Frame.refl
    | apply Frame.via (State.modPair_frame ..)

theorem stackFatal_frame (p : Nat) (s : State) :
    Frame [.sys, .mbx, .log, .tb, .vz, .saf, .cfg, .ch, .rfx, .twin, .brg, .fio, .upd] s (stackFatal p s) := by
  unfold stackFatal
  with_reducible repeat' first
    | assumption
    | decide
    | apply Frame.refl
    | apply Frame.via (fatalLockstep_frame ..)
    | apply Frame.via (pairsCheck_frame ..)
    | apply Frame.via (raiseSaf_frame ..)
    | apply Frame.via (retirePair_frame ..)

theorem takeStackFault_frame (p reason : Nat) (ptr : U32) (r : CoreRegs) (oldSp : U32) (s : State) :
    Frame [.sys, .mbx, .log, .tb, .vz, .saf, .cfg, .ch, .rfx, .twin, .brg, .fio, .upd] s (takeStackFault p reason ptr r oldSp s) := by
  unfold takeStackFault
  with_reducible repeat' first
    | assumption
    | decide
    | apply Frame.refl
    | (lift_lets; intro x; apply Frame.cut x ?_ (fun _ => ?_); subst x; rotate_left; clear_value x; rotate_right)
    | (lift_lets; intro x; apply Frame.cut x.1 ?_ (fun _ => ?_); subst x; rotate_left; clear_value x; rotate_right)
    | (lift_lets; intro x; clear_value x)
    | apply Frame.via (State.modPair_frame ..)
    | apply Frame.via (raiseSaf_frame ..)
    | apply Frame.via (stackFatal_frame ..)
    | apply Frame.ite

theorem trapStacking_frame (p : Nat) (regs : CoreRegs) (pmp : List PmpRegion) (cause tval : U32) (user : Bool) (s : State) :
    Frame [.sys, .mbx, .log, .tb, .vz, .saf, .cfg, .ch, .rfx, .twin, .brg, .fio, .upd] s (trapStacking p regs pmp cause tval user s) := by
  unfold trapStacking
  with_reducible repeat' first
    | assumption
    | decide
    | apply Frame.refl
    | (lift_lets; intro x; apply Frame.cut x ?_ (fun _ => ?_); subst x; rotate_left; clear_value x; rotate_right)
    | (lift_lets; intro x; apply Frame.cut x.1 ?_ (fun _ => ?_); subst x; rotate_left; clear_value x; rotate_right)
    | (lift_lets; intro x; clear_value x)
    | apply Frame.via (State.modPair_frame ..)
    | apply Frame.via (takeStackFault_frame ..)
    | apply Frame.ite
    | split

theorem execTrapStacking_frame (pair : Fin 4) (regs : CoreRegs) (pmp : List PmpRegion) (cause tval : U32) (user : Bool) (s : State) :
    Framed [.sys, .mbx, .log, .tb, .vz, .saf, .cfg, .ch, .rfx, .twin, .brg, .fio, .upd] s (execTrapStacking pair regs pmp cause tval user s) := by
  unfold execTrapStacking
  with_reducible repeat' first
    | apply Framed.next
    | assumption
    | decide
    | apply Frame.refl
    | apply Frame.via (trapStacking_frame ..)

theorem mretUnstack_frame (p : Nat) (regs : CoreRegs) (pmp : List PmpRegion) (s : State) :
    Frame [.sys, .mbx, .log, .tb, .vz, .saf, .cfg, .ch, .rfx, .twin, .brg, .fio, .upd] s (mretUnstack p regs pmp s) := by
  unfold mretUnstack
  with_reducible repeat' first
    | assumption
    | decide
    | apply Frame.refl
    | (lift_lets; intro x; apply Frame.cut x ?_ (fun _ => ?_); subst x; rotate_left; clear_value x; rotate_right)
    | (lift_lets; intro x; apply Frame.cut x.1 ?_ (fun _ => ?_); subst x; rotate_left; clear_value x; rotate_right)
    | (lift_lets; intro x; clear_value x)
    | apply Frame.via (State.modPair_frame ..)
    | apply Frame.via (takeStackFault_frame ..)
    | apply Frame.ite

theorem execMretUnstack_frame (pair : Fin 4) (regs : CoreRegs) (pmp : List PmpRegion) (s : State) :
    Framed [.sys, .mbx, .log, .tb, .vz, .saf, .cfg, .ch, .rfx, .twin, .brg, .fio, .upd] s (execMretUnstack pair regs pmp s) := by
  unfold execMretUnstack
  with_reducible repeat' first
    | apply Framed.next
    | assumption
    | decide
    | apply Frame.refl
    | apply Frame.via (mretUnstack_frame ..)

end Sys2Proof.Machine

end
end

