-- ==== Sys2Proof/Laws/Frames/Window.lean ====
section
/-! SUPPORT. The frame of each function of `Machine/Window.lean`: the parts of the state it may change. -/

section

set_option Elab.async false

namespace Sys2Proof.Machine

theorem cmdWrite_frame (v o : Nat) (w : U32) (s : State) :
    Frame [.mbx, .log, .vz, .ch, .bus] s (cmdWrite v o w s) := by
  unfold cmdWrite
  with_reducible repeat' first
    | assumption
    | decide
    | apply Frame.refl
    | (lift_lets; intro x; apply Frame.cut x ?_ (fun _ => ?_); subst x; rotate_left; clear_value x; rotate_right)
    | (lift_lets; intro x; apply Frame.cut x.1 ?_ (fun _ => ?_); subst x; rotate_left; clear_value x; rotate_right)
    | (lift_lets; intro x; clear_value x)
    | apply Frame.via (State.modChan_frame ..)
    | apply Frame.via (doorbell_frame ..)
    | apply Frame.ite

theorem fioWrite_frame (v o : Nat) (w : U32) (s : State) :
    Frame [.mbx, .log, .vz, .fio, .bus] s (fioWrite v o w s) := by
  unfold fioWrite
  with_reducible repeat' first
    | assumption
    | decide
    | apply Frame.refl
    | (lift_lets; intro x; apply Frame.cut x ?_ (fun _ => ?_); subst x; rotate_left; clear_value x; rotate_right)
    | (lift_lets; intro x; apply Frame.cut x.1 ?_ (fun _ => ?_); subst x; rotate_left; clear_value x; rotate_right)
    | (lift_lets; intro x; clear_value x)
    | apply Frame.via (State.modBank_frame ..)
    | apply Frame.via (State.modDi_frame ..)
    | apply Frame.via (State.modSlot_frame ..)
    | apply Frame.via (xDoorbell_frame ..)
    | apply Frame.via (xMaskWrite_frame ..)
    | apply Frame.ite
    | apply Frame.foldl
    | apply Frame.foldl1
    | intro _

theorem headerWrite_frame (v o : Nat) (w : U32) (s : State) :
    Frame [.mbx] s (headerWrite v o w s) := by
  unfold headerWrite
  with_reducible repeat' first
    | assumption
    | decide
    | apply Frame.refl
    | apply Frame.ite
    | split
    | apply Frame.set_mbx

theorem portWrite_frame (v o : Nat) (w : U32) (s : State) :
    Frame [.mbx, .log, .vz, .bus] s (portWrite v o w s) := by
  unfold portWrite
  with_reducible repeat' first
    | assumption
    | decide
    | apply Frame.refl
    | (lift_lets; intro x; apply Frame.cut x ?_ (fun _ => ?_); subst x; rotate_left; clear_value x; rotate_right)
    | (lift_lets; intro x; apply Frame.cut x.1 ?_ (fun _ => ?_); subst x; rotate_left; clear_value x; rotate_right)
    | (lift_lets; intro x; clear_value x)
    | apply Frame.via (State.modPort_frame ..)
    | apply Frame.via (consumerWrite_frame ..)
    | apply Frame.ite
    | split

theorem queueWrite_frame (v o : Nat) (w : U32) (s : State) :
    Frame [.mbx, .log, .vz, .esw, .net, .bus] s (queueWrite v o w s) := by
  unfold queueWrite
  with_reducible repeat' first
    | assumption
    | decide
    | apply Frame.refl
    | (lift_lets; intro x; apply Frame.cut x ?_ (fun _ => ?_); subst x; rotate_left; clear_value x; rotate_right)
    | (lift_lets; intro x; apply Frame.cut x.1 ?_ (fun _ => ?_); subst x; rotate_left; clear_value x; rotate_right)
    | (lift_lets; intro x; clear_value x)
    | apply Frame.via (State.modCan_frame ..)
    | apply Frame.via (State.modLin_frame ..)
    | apply Frame.via (State.modQp_frame ..)
    | apply Frame.via (canBell_frame ..)
    | apply Frame.via (canCancelWrite_frame ..)
    | apply Frame.via (rxConsWrite_frame ..)
    | apply Frame.ite

theorem sigWrite_frame (v o : Nat) (w : U32) (s : State) :
    Frame [.mbx, .log, .vz, .sig, .bus] s (sigWrite v o w s) := by
  unfold sigWrite
  with_reducible repeat' first
    | assumption
    | decide
    | apply Frame.refl
    | (lift_lets; intro x; apply Frame.cut x ?_ (fun _ => ?_); subst x; rotate_left; clear_value x; rotate_right)
    | (lift_lets; intro x; apply Frame.cut x.1 ?_ (fun _ => ?_); subst x; rotate_left; clear_value x; rotate_right)
    | (lift_lets; intro x; clear_value x)
    | apply Frame.via (setSlot_frame ..)
    | apply Frame.via (slotWriteLo_frame ..)
    | apply Frame.ite

theorem statWrite_frame (o : Nat) (w : U32) (s : State) :
    Frame [.ch] s (statWrite o w s) := by
  unfold statWrite
  with_reducible repeat' first
    | assumption
    | decide
    | apply Frame.refl
    | apply Frame.via (State.modChan_frame ..)
    | apply Frame.ite

theorem winWrite_frame (v o : Nat) (w : U32) (remote : Bool) (s : State) :
    Frame [.mbx, .log, .vz, .ch, .fio, .esw, .net, .sig, .bus] s (winWrite v o w remote s) := by
  unfold winWrite
  with_reducible repeat' first
    | assumption
    | decide
    | apply Frame.refl
    | apply Frame.via (cmdWrite_frame ..)
    | apply Frame.via (fioWrite_frame ..)
    | apply Frame.via (headerWrite_frame ..)
    | apply Frame.via (portWrite_frame ..)
    | apply Frame.via (queueWrite_frame ..)
    | apply Frame.via (sigWrite_frame ..)
    | apply Frame.via (statWrite_frame ..)
    | apply Frame.via (windowFault_frame ..)
    | apply Frame.ite
    | split
    | apply Frame.set_vz

theorem State.put_frame (s : State) (w : U32) :
    Frame [.bus] s (State.put s w) := by
  unfold State.put
  with_reducible repeat' first
    | assumption
    | decide
    | apply Frame.refl
    | apply Frame.ite
    | split
    | apply Frame.set_bus

theorem fioRead_frame (v o : Nat) (s : State) :
    Frame [.mbx, .log, .vz, .fio, .bus] s (fioRead v o s) := by
  unfold fioRead
  with_reducible repeat' first
    | assumption
    | decide
    | apply Frame.refl
    | apply Frame.via (State.put_frame ..)
    | apply Frame.via (readDiStamp_frame ..)
    | apply Frame.via (readXBank_frame ..)
    | apply Frame.ite

theorem canRead_frame (v o : Nat) (s : State) :
    Frame [.mbx, .log, .vz, .net, .bus] s (canRead v o s) := by
  unfold canRead
  with_reducible repeat' first
    | assumption
    | decide
    | apply Frame.refl
    | (lift_lets; intro x; apply Frame.cut x ?_ (fun _ => ?_); subst x; rotate_left; clear_value x; rotate_right)
    | (lift_lets; intro x; apply Frame.cut x.1 ?_ (fun _ => ?_); subst x; rotate_left; clear_value x; rotate_right)
    | (lift_lets; intro x; clear_value x)
    | apply Frame.via (State.put_frame ..)
    | apply Frame.via (canLostRead_frame ..)
    | apply Frame.ite

theorem linRead_frame (v o : Nat) (s : State) :
    Frame [.mbx, .log, .vz, .net, .bus] s (linRead v o s) := by
  unfold linRead
  with_reducible repeat' first
    | assumption
    | decide
    | apply Frame.refl
    | (lift_lets; intro x; apply Frame.cut x ?_ (fun _ => ?_); subst x; rotate_left; clear_value x; rotate_right)
    | (lift_lets; intro x; apply Frame.cut x.1 ?_ (fun _ => ?_); subst x; rotate_left; clear_value x; rotate_right)
    | (lift_lets; intro x; clear_value x)
    | apply Frame.via (State.put_frame ..)
    | apply Frame.via (linLostRead_frame ..)
    | apply Frame.ite

theorem queueRead_frame (v o : Nat) (s : State) :
    Frame [.mbx, .log, .vz, .net, .bus] s (queueRead v o s) := by
  unfold queueRead
  with_reducible repeat' first
    | assumption
    | decide
    | apply Frame.refl
    | apply Frame.via (State.put_frame ..)
    | apply Frame.via (canRead_frame ..)
    | apply Frame.via (linRead_frame ..)
    | apply Frame.ite

theorem sigRead_frame (v o : Nat) (s : State) :
    Frame [.mbx, .log, .vz, .sig, .bus] s (sigRead v o s) := by
  unfold sigRead
  with_reducible repeat' first
    | assumption
    | decide
    | apply Frame.refl
    | (lift_lets; intro x; apply Frame.cut x ?_ (fun _ => ?_); subst x; rotate_left; clear_value x; rotate_right)
    | (lift_lets; intro x; apply Frame.cut x.1 ?_ (fun _ => ?_); subst x; rotate_left; clear_value x; rotate_right)
    | (lift_lets; intro x; clear_value x)
    | apply Frame.via (State.put_frame ..)
    | apply Frame.via (slotRead_frame ..)
    | apply Frame.ite

theorem statRead_frame (v o : Nat) (s : State) :
    Frame [.mbx, .log, .vz, .ch, .bus] s (statRead v o s) := by
  unfold statRead
  with_reducible repeat' first
    | assumption
    | decide
    | apply Frame.refl
    | (lift_lets; intro x; apply Frame.cut x ?_ (fun _ => ?_); subst x; rotate_left; clear_value x; rotate_right)
    | (lift_lets; intro x; apply Frame.cut x.1 ?_ (fun _ => ?_); subst x; rotate_left; clear_value x; rotate_right)
    | (lift_lets; intro x; clear_value x)
    | apply Frame.via (State.put_frame ..)
    | apply Frame.via (readPeak_frame ..)
    | apply Frame.via (readStampLo_frame ..)
    | apply Frame.ite

theorem winRead_frame (v o : Nat) (remote : Bool) (s : State) :
    Frame [.mbx, .log, .vz, .ch, .fio, .net, .sig, .bus] s (winRead v o remote s) := by
  unfold winRead
  with_reducible repeat' first
    | assumption
    | decide
    | apply Frame.refl
    | apply Frame.via (State.put_frame ..)
    | apply Frame.via (fioRead_frame ..)
    | apply Frame.via (queueRead_frame ..)
    | apply Frame.via (sigRead_frame ..)
    | apply Frame.via (statRead_frame ..)
    | apply Frame.via (windowFault_frame ..)
    | apply Frame.ite

theorem execWindowUnmappedAccess_frame (v : Fin 256) (offset : U16) (s : State) :
    Framed [.mbx, .log, .vz, .bus] s (execWindowUnmappedAccess v offset s) := by
  unfold execWindowUnmappedAccess
  with_reducible repeat' first
    | apply Framed.next
    | assumption
    | decide
    | apply Frame.refl
    | apply Frame.via (windowFault_frame ..)
    | apply Frame.ite

theorem canOwnErr_frame (c : Nat) (s : State) :
    Frame [.net] s (canOwnErr c s) := by
  unfold canOwnErr
  with_reducible repeat' first
    | assumption
    | decide
    | apply Frame.refl
    | apply Frame.via (State.modCan_frame ..)

theorem canEntryWrite_frame (c : Nat) (rx : Bool) (e k : Nat) (w : U32) (s : State) :
    Frame [.net] s (canEntryWrite c rx e k w s) := by
  unfold canEntryWrite
  with_reducible repeat' first
    | assumption
    | decide
    | apply Frame.refl
    | (lift_lets; intro x; apply Frame.cut x ?_ (fun _ => ?_); subst x; rotate_left; clear_value x; rotate_right)
    | (lift_lets; intro x; apply Frame.cut x.1 ?_ (fun _ => ?_); subst x; rotate_left; clear_value x; rotate_right)
    | (lift_lets; intro x; clear_value x)
    | apply Frame.via (State.modCan_frame ..)
    | apply Frame.via (canCtlWrite_frame ..)
    | apply Frame.via (canOwnErr_frame ..)
    | apply Frame.ite

theorem canXlWrite_frame (c b k : Nat) (w : U32) (s : State) :
    Frame [.net] s (canXlWrite c b k w s) := by
  unfold canXlWrite
  with_reducible repeat' first
    | assumption
    | decide
    | apply Frame.refl
    | (lift_lets; intro x; apply Frame.cut x ?_ (fun _ => ?_); subst x; rotate_left; clear_value x; rotate_right)
    | (lift_lets; intro x; apply Frame.cut x.1 ?_ (fun _ => ?_); subst x; rotate_left; clear_value x; rotate_right)
    | (lift_lets; intro x; clear_value x)
    | apply Frame.via (State.modCan_frame ..)
    | apply Frame.via (canOwnErr_frame ..)
    | apply Frame.ite

theorem linFrameWrite_frame (l id k : Nat) (w : U32) (s : State) :
    Frame [.net] s (linFrameWrite l id k w s) := by
  unfold linFrameWrite
  with_reducible repeat' first
    | assumption
    | decide
    | apply Frame.refl
    | apply Frame.via (State.modLin_frame ..)
    | apply Frame.ite

theorem linRxWrite_frame (l e k : Nat) (w : U32) (s : State) :
    Frame [.net] s (linRxWrite l e k w s) := by
  unfold linRxWrite
  with_reducible repeat' first
    | assumption
    | decide
    | apply Frame.refl
    | (lift_lets; intro x; apply Frame.cut x ?_ (fun _ => ?_); subst x; rotate_left; clear_value x; rotate_right)
    | (lift_lets; intro x; apply Frame.cut x.1 ?_ (fun _ => ?_); subst x; rotate_left; clear_value x; rotate_right)
    | (lift_lets; intro x; clear_value x)
    | apply Frame.via (State.modLin_frame ..)
    | apply Frame.ite

theorem csrWrite_frame (p csr : Nat) (w : U32) (s : State) :
    Frame [.saf] s (csrWrite p csr w s) := by
  unfold csrWrite
  with_reducible repeat' first
    | assumption
    | decide
    | apply Frame.refl
    | apply Frame.via (State.modPair_frame ..)
    | apply Frame.via (ckptGo_frame ..)
    | apply Frame.ite

theorem tcmWrite_frame (p k : Nat) (w : U32) (s : State) :
    Frame [.saf] s (tcmWrite p k w s) := by
  unfold tcmWrite
  with_reducible repeat' first
    | assumption
    | decide
    | apply Frame.refl
    | apply Frame.via (State.modPair_frame ..)

theorem registerWrite_frame (t : RegTarget) (w : U32) (s : State) :
    Frame [.mbx, .log, .vz, .saf, .ch, .fio, .esw, .net, .sig, .bus] s (registerWrite t w s) := by
  unfold registerWrite
  with_reducible repeat' first
    | assumption
    | decide
    | apply Frame.refl
    | apply Frame.via (canEntryWrite_frame ..)
    | apply Frame.via (canXlWrite_frame ..)
    | apply Frame.via (csrWrite_frame ..)
    | apply Frame.via (linFrameWrite_frame ..)
    | apply Frame.via (linRxWrite_frame ..)
    | apply Frame.via (tcmWrite_frame ..)
    | apply Frame.via (winWrite_frame ..)
    | apply Frame.ite
    | split

theorem execRegisterWrite_frame (target : RegTarget) (value : U32) (s : State) :
    Framed [.mbx, .log, .vz, .saf, .ch, .fio, .esw, .net, .sig, .bus] s (execRegisterWrite target value s) := by
  unfold execRegisterWrite
  with_reducible repeat' first
    | apply Framed.next
    | assumption
    | decide
    | apply Frame.refl
    | apply Frame.via (registerWrite_frame ..)

end Sys2Proof.Machine

end
end

