-- ==== Sys2Proof/Laws/Frames/RingFrames.lean ====
section
/-! SUPPORT. The frame of each function of `Machine/RingFrames.lean`: the parts of the state it may change. -/

section

set_option Elab.async false

namespace Sys2Proof.Machine

theorem writeRecord_frame (v o len : Nat) (data : List Byte) (s : State) :
    Frame [.mbx, .log, .vz, .ch, .fio, .esw, .net, .sig, .bus] s (writeRecord v o len data s) := by
  unfold writeRecord
  with_reducible repeat' first
    | assumption
    | decide
    | apply Frame.refl
    | apply Frame.via (winWrite_frame ..)
    | apply Frame.ite
    | apply Frame.foldl
    | apply Frame.foldl1
    | intro _

theorem readRecord_frame (v o len : Nat) (s : State) :
    Frame [.mbx, .log, .vz, .ch, .fio, .net, .sig, .bus] s (readRecord v o len s).1 := by
  unfold readRecord
  with_reducible repeat' first
    | assumption
    | decide
    | apply Frame.refl
    | (lift_lets; intro x; apply Frame.cut x ?_ (fun _ => ?_); subst x; rotate_left; clear_value x; rotate_right)
    | (lift_lets; intro x; apply Frame.cut x.1 ?_ (fun _ => ?_); subst x; rotate_left; clear_value x; rotate_right)
    | (lift_lets; intro x; clear_value x)
    | apply Frame.via (winRead_frame ..)
    | apply Frame.ite
    | apply Frame.ite1
    | apply Frame.foldl
    | apply Frame.foldl1
    | intro _

theorem staleRecord_frame (v o : Nat) (s : State) :
    Frame [.ch, .fio] s (staleRecord v o s) := by
  unfold staleRecord
  with_reducible repeat' first
    | assumption
    | decide
    | apply Frame.refl
    | apply Frame.via (State.modSlot_frame ..)
    | apply Frame.via (discardStale_frame ..)
    | apply Frame.ite

theorem accessRecord_frame (v : Nat) (host gen : U16) (x : Nat × Nat × Nat × List Byte) (s : State) :
    Frame [.mbx, .log, .vz, .ch, .fio, .ring, .esw, .net, .sig, .bus] s (accessRecord v host gen x s) := by
  unfold accessRecord
  with_reducible repeat' first
    | assumption
    | decide
    | apply Frame.refl
    | (lift_lets; intro x; apply Frame.cut x ?_ (fun _ => ?_); subst x; rotate_left; clear_value x; rotate_right)
    | (lift_lets; intro x; apply Frame.cut x.1 ?_ (fun _ => ?_); subst x; rotate_left; clear_value x; rotate_right)
    | (lift_lets; intro x; clear_value x)
    | apply Frame.via (State.modRing_frame ..)
    | apply Frame.via (readRecord_frame ..)
    | apply Frame.via (staleRecord_frame ..)
    | apply Frame.via (writeRecord_frame ..)
    | apply Frame.ite

theorem vzfData_frame (f : RingFrame) (s : State) :
    Frame [.mbx, .log, .vz, .ch, .fio, .ring, .esw, .net, .sig, .bus] s (vzfData f s) := by
  unfold vzfData
  with_reducible repeat' first
    | assumption
    | decide
    | apply Frame.refl
    | (lift_lets; intro x; apply Frame.cut x ?_ (fun _ => ?_); subst x; rotate_left; clear_value x; rotate_right)
    | (lift_lets; intro x; apply Frame.cut x.1 ?_ (fun _ => ?_); subst x; rotate_left; clear_value x; rotate_right)
    | (lift_lets; intro x; clear_value x)
    | apply Frame.via (accessRecord_frame ..)
    | apply Frame.ite
    | apply Frame.foldl
    | apply Frame.foldl1
    | intro _

theorem takeRecords_frame (v room : Nat) (s : State) :
    Frame [.vz, .ring] s (takeRecords v room s).1 := by
  unfold takeRecords
  with_reducible repeat' first
    | assumption
    | decide
    | apply Frame.refl
    | (lift_lets; intro x; apply Frame.cut x ?_ (fun _ => ?_); subst x; rotate_left; clear_value x; rotate_right)
    | (lift_lets; intro x; apply Frame.cut x.1 ?_ (fun _ => ?_); subst x; rotate_left; clear_value x; rotate_right)
    | (lift_lets; intro x; clear_value x)
    | apply Frame.via (State.modRing_frame ..)
    | apply Frame.ite
    | apply Frame.ite1
    | apply Frame.foldl
    | apply Frame.foldl1
    | intro _
    | split
    | apply Frame.set_vz

theorem takeHealth_frame (f : RingFrame) (s : State) :
    Frame [.sys, .mbx, .log, .tb, .vz, .cfg, .ch, .rfx, .twin, .brg, .fio, .upd] s (takeHealth f s) := by
  unfold takeHealth
  with_reducible repeat' first
    | assumption
    | decide
    | apply Frame.refl
    | (lift_lets; intro x; apply Frame.cut x ?_ (fun _ => ?_); subst x; rotate_left; clear_value x; rotate_right)
    | (lift_lets; intro x; apply Frame.cut x.1 ?_ (fun _ => ?_); subst x; rotate_left; clear_value x; rotate_right)
    | (lift_lets; intro x; clear_value x)
    | apply Frame.via (healthFrame_frame ..)
    | apply Frame.ite

theorem slotPdusRx_frame (k : Nat) (f : RingFrame) (s : State) :
    Frame [.mbx, .log, .vz, .sig] s (slotPdusRx k f s) := by
  unfold slotPdusRx
  with_reducible repeat' first
    | assumption
    | decide
    | apply Frame.refl
    | apply Frame.via (sigArrive_frame ..)
    | apply Frame.ite
    | apply Frame.foldl
    | apply Frame.foldl1
    | intro _

theorem takeStatic_frame (k : Nat) (f : RingFrame) (s : State) :
    Frame [.sys, .mbx, .log, .tb, .vz, .cfg, .ch, .rfx, .twin, .brg, .fio, .ring, .esw, .net, .sig, .upd, .bus] s (takeStatic k f s) := by
  unfold takeStatic
  with_reducible repeat' first
    | assumption
    | decide
    | apply Frame.refl
    | apply Frame.via (mirrorFrame_frame ..)
    | apply Frame.via (slotPdusRx_frame ..)
    | apply Frame.via (takeHealth_frame ..)
    | apply Frame.via (vzfData_frame ..)
    | apply Frame.ite
    | split

theorem copyStatic_frame (f : RingFrame) (s : State) :
    Frame [.sys, .mbx, .log, .tb, .vz, .cfg, .ch, .rfx, .twin, .brg, .fio, .ring, .esw, .net, .sig, .upd, .bus] s (copyStatic f s) := by
  unfold copyStatic
  with_reducible repeat' first
    | assumption
    | decide
    | apply Frame.refl
    | (lift_lets; intro x; apply Frame.cut x ?_ (fun _ => ?_); subst x; rotate_left; clear_value x; rotate_right)
    | (lift_lets; intro x; apply Frame.cut x.1 ?_ (fun _ => ?_); subst x; rotate_left; clear_value x; rotate_right)
    | (lift_lets; intro x; clear_value x)
    | apply Frame.via (State.modRing_frame ..)
    | apply Frame.via (takeStatic_frame ..)
    | apply Frame.ite

theorem passStatic_frame (p : Nat) (f : RingFrame) (s : State) :
    Frame [.ring] s (passStatic p f s) := by
  unfold passStatic
  with_reducible repeat' first
    | assumption
    | decide
    | apply Frame.refl
    | (lift_lets; intro x; apply Frame.cut x ?_ (fun _ => ?_); subst x; rotate_left; clear_value x; rotate_right)
    | (lift_lets; intro x; apply Frame.cut x.1 ?_ (fun _ => ?_); subst x; rotate_left; clear_value x; rotate_right)
    | (lift_lets; intro x; clear_value x)
    | apply Frame.via (State.modRing_frame ..)
    | apply Frame.via (forward_frame ..)
    | apply Frame.ite

theorem staticFrame_frame (p : Nat) (f : RingFrame) (s : State) :
    Frame [.sys, .mbx, .log, .tb, .vz, .cfg, .ch, .rfx, .twin, .brg, .fio, .ring, .esw, .net, .sig, .upd, .bus] s (staticFrame p f s) := by
  unfold staticFrame
  with_reducible repeat' first
    | assumption
    | decide
    | apply Frame.refl
    | apply Frame.via (copyStatic_frame ..)
    | apply Frame.via (discard_frame ..)
    | apply Frame.via (passStatic_frame ..)
    | apply Frame.ite

theorem execStaticFrameReceived_frame (port : Fin 2) (link : LinkCheck) (f : RingFrame) (s : State) :
    Framed [.sys, .mbx, .log, .tb, .vz, .cfg, .ch, .rfx, .twin, .brg, .fio, .ring, .esw, .net, .sig, .upd, .bus] s (execStaticFrameReceived port link f s) := by
  unfold execStaticFrameReceived
  with_reducible repeat' first
    | apply Framed.next
    | assumption
    | decide
    | apply Frame.refl
    | (lift_lets; intro x; apply Frame.cut x ?_ (fun _ => ?_); subst x; rotate_left; clear_value x; rotate_right)
    | (lift_lets; intro x; apply Frame.cut x.1 ?_ (fun _ => ?_); subst x; rotate_left; clear_value x; rotate_right)
    | (lift_lets; intro x; clear_value x)
    | apply Frame.via (linkRx_frame ..)
    | apply Frame.via (staticFrame_frame ..)
    | apply Frame.ite

theorem insertOwn_frame (k l typ : Nat) (dst : U16) (wordA wordB : U32) (notReady : Bool) (payload : List Byte) (s : State) :
    Frame [.ring] s (insertOwn k l typ dst wordA wordB notReady payload s) := by
  unfold insertOwn
  with_reducible repeat' first
    | assumption
    | decide
    | apply Frame.refl
    | (lift_lets; intro x; apply Frame.cut x ?_ (fun _ => ?_); subst x; rotate_left; clear_value x; rotate_right)
    | (lift_lets; intro x; apply Frame.cut x.1 ?_ (fun _ => ?_); subst x; rotate_left; clear_value x; rotate_right)
    | (lift_lets; intro x; clear_value x)
    | apply Frame.via (transmitOut_frame ..)

theorem mbxSent_frame (n : Nat) (l : List (List Byte)) (s : State) :
    Frame [.mbx] s (mbxSent n l s) := by
  unfold mbxSent
  with_reducible repeat' first
    | assumption
    | decide
    | apply Frame.refl
    | apply Frame.ite
    | split
    | apply Frame.set_mbx
    | dsimp only

theorem mbxSlot_frame (k : Nat) (s : State) :
    Frame [.mbx, .ring] s (mbxSlot k s) := by
  unfold mbxSlot
  with_reducible repeat' first
    | assumption
    | decide
    | apply Frame.refl
    | (lift_lets; intro x; apply Frame.cut x ?_ (fun _ => ?_); subst x; rotate_left; clear_value x; rotate_right)
    | (lift_lets; intro x; apply Frame.cut x.1 ?_ (fun _ => ?_); subst x; rotate_left; clear_value x; rotate_right)
    | (lift_lets; intro x; clear_value x)
    | apply Frame.via (insertOwn_frame ..)
    | apply Frame.via (mbxSent_frame ..)
    | apply Frame.via (transmitOut_frame ..)
    | apply Frame.ite
    | split
    | dsimp only

theorem ownSlot_frame (k : Nat) (e : SlotEntry) (s : State) :
    Frame [.mbx, .log, .vz, .ch, .twin, .ring, .sig] s (ownSlot k e s) := by
  unfold ownSlot
  with_reducible repeat' first
    | assumption
    | decide
    | apply Frame.refl
    | (lift_lets; intro x; apply Frame.cut x ?_ (fun _ => ?_); subst x; rotate_left; clear_value x; rotate_right)
    | (lift_lets; intro x; apply Frame.cut x.1 ?_ (fun _ => ?_); subst x; rotate_left; clear_value x; rotate_right)
    | (lift_lets; intro x; clear_value x)
    | apply Frame.via (insertOwn_frame ..)
    | apply Frame.via (mbxSlot_frame ..)
    | apply Frame.via (takeBlocks_frame ..)
    | apply Frame.via (takeRecords_frame ..)
    | apply Frame.via (twinFault_frame ..)
    | apply Frame.ite
    | split

theorem slotSend_frame (k : Nat) (s : State) :
    Frame [.mbx, .log, .vz, .ch, .twin, .ring, .sig] s (slotSend k s) := by
  unfold slotSend
  with_reducible repeat' first
    | assumption
    | decide
    | apply Frame.refl
    | (lift_lets; intro x; apply Frame.cut x ?_ (fun _ => ?_); subst x; rotate_left; clear_value x; rotate_right)
    | (lift_lets; intro x; apply Frame.cut x.1 ?_ (fun _ => ?_); subst x; rotate_left; clear_value x; rotate_right)
    | (lift_lets; intro x; clear_value x)
    | apply Frame.via (State.modRing_frame ..)
    | apply Frame.via (ownSlot_frame ..)
    | apply Frame.via (transmitOut_frame ..)
    | apply Frame.ite
    | split

theorem execSlotDue_frame (k : Fin 384) (s : State) :
    Framed [.mbx, .log, .vz, .ch, .twin, .ring, .sig] s (execSlotDue k s) := by
  unfold execSlotDue
  with_reducible repeat' first
    | apply Framed.next
    | assumption
    | decide
    | apply Frame.refl
    | apply Frame.via (mbxSlot_frame ..)
    | apply Frame.via (slotAge_frame ..)
    | apply Frame.via (slotSend_frame ..)
    | apply Frame.ite

theorem appendFrame_frame (f : RingFrame) (s : State) :
    Frame [.ring] s (appendFrame f s) := by
  unfold appendFrame
  with_reducible repeat' first
    | assumption
    | decide
    | apply Frame.refl
    | apply Frame.via (State.modRing_frame ..)
    | apply Frame.via (transmitOut_frame ..)

theorem appendMbx_frame (a0 : Nat) (a1 : State) :
    Frame [.mbx, .ring] a1 (appendMbx a0 a1) := by
  induction a0 generalizing a1 with
  | zero => exact Frame.refl ..
  | succ n ih =>
    unfold appendMbx
    with_reducible repeat' first
      | assumption
      | decide
      | apply Frame.refl
      | (lift_lets; intro x; apply Frame.cut x ?_ (fun _ => ?_); subst x; rotate_left; clear_value x; rotate_right)
      | (lift_lets; intro x; apply Frame.cut x.1 ?_ (fun _ => ?_); subst x; rotate_left; clear_value x; rotate_right)
      | (lift_lets; intro x; clear_value x)
      | apply Frame.via (ih ..)
      | apply Frame.via (appendFrame_frame ..)
      | apply Frame.via (mbxSent_frame ..)
      | apply Frame.ite
      | split
      | dsimp only

theorem appendSystem_frame (a0 : List RingFrame) (a1 : State) :
    Frame [.ring] a1 (appendSystem a0 a1) := by
  induction a0 generalizing a1 with
  | nil => exact Frame.refl ..
  | cons x r ih =>
    unfold appendSystem
    with_reducible repeat' first
      | assumption
      | decide
      | apply Frame.refl
      | apply Frame.via (ih ..)
      | apply Frame.via (State.modRing_frame ..)
      | apply Frame.via (appendFrame_frame ..)
      | apply Frame.ite

theorem appendRelayed_frame (a0 : List RelayItem) (a1 : State) :
    Frame [.ring] a1 (appendRelayed a0 a1) := by
  induction a0 generalizing a1 with
  | nil => exact Frame.refl ..
  | cons x r ih =>
    unfold appendRelayed
    with_reducible repeat' first
      | assumption
      | decide
      | apply Frame.refl
      | (lift_lets; intro x; apply Frame.cut x ?_ (fun _ => ?_); subst x; rotate_left; clear_value x; rotate_right)
      | (lift_lets; intro x; apply Frame.cut x.1 ?_ (fun _ => ?_); subst x; rotate_left; clear_value x; rotate_right)
      | (lift_lets; intro x; clear_value x)
      | apply Frame.via (ih ..)
      | apply Frame.via (State.modRing_frame ..)
      | apply Frame.via (appendFrame_frame ..)
      | apply Frame.ite

theorem appendDrr_frame (a0 : Nat) (a1 : State) :
    Frame [.ring] a1 (appendDrr a0 a1) := by
  induction a0 generalizing a1 with
  | zero => exact Frame.refl ..
  | succ n ih =>
    unfold appendDrr
    with_reducible repeat' first
      | assumption
      | decide
      | apply Frame.refl
      | (lift_lets; intro x; apply Frame.cut x ?_ (fun _ => ?_); subst x; rotate_left; clear_value x; rotate_right)
      | (lift_lets; intro x; apply Frame.cut x.1 ?_ (fun _ => ?_); subst x; rotate_left; clear_value x; rotate_right)
      | (lift_lets; intro x; clear_value x)
      | apply Frame.via (ih ..)
      | apply Frame.via (State.modRing_frame ..)
      | apply Frame.via (appendFrame_frame ..)
      | apply Frame.ite
      | apply Frame.foldl
      | apply Frame.foldl1
      | split

theorem queueData_frame (s : State) :
    Frame [.vz, .ring] s (queueData s) := by
  unfold queueData
  with_reducible repeat' first
    | assumption
    | decide
    | apply Frame.refl
    | (lift_lets; intro x; apply Frame.cut x ?_ (fun _ => ?_); subst x; rotate_left; clear_value x; rotate_right)
    | (lift_lets; intro x; apply Frame.cut x.1 ?_ (fun _ => ?_); subst x; rotate_left; clear_value x; rotate_right)
    | (lift_lets; intro x; clear_value x)
    | apply Frame.via (State.modRing_frame ..)
    | apply Frame.via (takeRecords_frame ..)
    | apply Frame.ite
    | apply Frame.foldl
    | apply Frame.foldl1
    | intro _
    | split

theorem appendOwn_frame (s : State) :
    Frame [.mbx, .vz, .ring] s (appendOwn s) := by
  unfold appendOwn
  with_reducible repeat' first
    | assumption
    | decide
    | apply Frame.refl
    | (lift_lets; intro x; apply Frame.cut x ?_ (fun _ => ?_); subst x; rotate_left; clear_value x; rotate_right)
    | (lift_lets; intro x; apply Frame.cut x.1 ?_ (fun _ => ?_); subst x; rotate_left; clear_value x; rotate_right)
    | (lift_lets; intro x; clear_value x)
    | apply Frame.via (appendDrr_frame ..)
    | apply Frame.via (appendMbx_frame ..)
    | apply Frame.via (appendRelayed_frame ..)
    | apply Frame.via (appendSystem_frame ..)
    | apply Frame.via (queueData_frame ..)
    | apply Frame.ite
    | apply Frame.foldl
    | apply Frame.foldl1
    | intro _

theorem takeDynamic_frame (f : RingFrame) (s : State) :
    Frame [.sys, .mbx, .log, .tb, .vz, .cfg, .ch, .rfx, .twin, .brg, .fio, .ring, .esw, .net, .sig, .upd, .bus] s (takeDynamic f s) := by
  unfold takeDynamic
  with_reducible repeat' first
    | assumption
    | decide
    | apply Frame.refl
    | apply Frame.via (takeHealth_frame ..)
    | apply Frame.via (vzfData_frame ..)
    | apply Frame.ite

theorem relay_frame (f : RingFrame) (s : State) :
    Frame [.mbx, .log, .vz, .ring] s (relay f s) := by
  unfold relay
  with_reducible repeat' first
    | assumption
    | decide
    | apply Frame.refl
    | apply Frame.via (State.modRing_frame ..)
    | apply Frame.via (relayTimeout_frame ..)
    | apply Frame.ite

theorem passDynamic_frame (p : Nat) (f : RingFrame) (s : State) :
    Frame [.mbx, .log, .vz, .ring] s (passDynamic p f s) := by
  unfold passDynamic
  with_reducible repeat' first
    | assumption
    | decide
    | apply Frame.refl
    | (lift_lets; intro x; apply Frame.cut x ?_ (fun _ => ?_); subst x; rotate_left; clear_value x; rotate_right)
    | (lift_lets; intro x; apply Frame.cut x.1 ?_ (fun _ => ?_); subst x; rotate_left; clear_value x; rotate_right)
    | (lift_lets; intro x; clear_value x)
    | apply Frame.via (forward_frame ..)
    | apply Frame.via (relay_frame ..)
    | apply Frame.ite

theorem dynamicFrame_frame (p : Nat) (f : RingFrame) (s : State) :
    Frame [.sys, .mbx, .log, .tb, .vz, .cfg, .ch, .rfx, .twin, .brg, .fio, .ring, .esw, .net, .sig, .upd, .bus] s (dynamicFrame p f s) := by
  unfold dynamicFrame
  with_reducible repeat' first
    | assumption
    | decide
    | apply Frame.refl
    | apply Frame.via (discard_frame ..)
    | apply Frame.via (passDynamic_frame ..)
    | apply Frame.via (takeDynamic_frame ..)
    | apply Frame.ite

theorem execDynamicFrameReceived_frame (port : Fin 2) (link : LinkCheck) (f : Option RingFrame) (s : State) :
    Framed [.sys, .mbx, .log, .tb, .vz, .cfg, .ch, .rfx, .twin, .brg, .fio, .ring, .esw, .net, .sig, .upd, .bus] s (execDynamicFrameReceived port link f s) := by
  unfold execDynamicFrameReceived
  with_reducible repeat' first
    | apply Framed.next
    | assumption
    | decide
    | apply Frame.refl
    | (lift_lets; intro x; apply Frame.cut x ?_ (fun _ => ?_); subst x; rotate_left; clear_value x; rotate_right)
    | (lift_lets; intro x; apply Frame.cut x.1 ?_ (fun _ => ?_); subst x; rotate_left; clear_value x; rotate_right)
    | (lift_lets; intro x; clear_value x)
    | apply Frame.via (appendOwn_frame ..)
    | apply Frame.via (dynamicFrame_frame ..)
    | apply Frame.via (linkRx_frame ..)
    | apply Frame.ite
    | split

theorem cycleAges_frame (s : State) :
    Frame [.sys, .mbx, .log, .tb, .vz, .cfg, .ch, .rfx, .twin, .brg, .fio, .net, .sig, .upd, .free] s (cycleAges s) := by
  unfold cycleAges
  with_reducible repeat' first
    | assumption
    | decide
    | apply Frame.refl
    | apply Frame.via (ageStep_frame ..)
    | apply Frame.via (evalRules_frame ..)
    | apply Frame.ite
    | split
    | apply Frame.set_twin

theorem startNit_frame (s : State) :
    Frame [.ring] s (startNit s) := by
  unfold startNit
  with_reducible repeat' first
    | assumption
    | decide
    | apply Frame.refl
    | apply Frame.via (sendMeas_frame ..)
    | apply Frame.ite

theorem localCycle_frame (s : State) :
    Frame [.sys, .mbx, .log, .tb, .vz, .cfg, .ch, .rfx, .twin, .brg, .fio, .ring, .net, .sig, .key, .upd, .free] s (localCycle s) := by
  unfold localCycle
  with_reducible repeat' first
    | assumption
    | decide
    | apply Frame.refl
    | (lift_lets; intro x; apply Frame.cut x ?_ (fun _ => ?_); subst x; rotate_left; clear_value x; rotate_right)
    | (lift_lets; intro x; apply Frame.cut x.1 ?_ (fun _ => ?_); subst x; rotate_left; clear_value x; rotate_right)
    | (lift_lets; intro x; clear_value x)
    | apply Frame.via (activationBoundary_frame ..)
    | apply Frame.via (appendOwn_frame ..)
    | apply Frame.via (cycleAges_frame ..)
    | apply Frame.via (cycleStart_frame ..)
    | apply Frame.via (startNit_frame ..)
    | apply Frame.ite

theorem execLocalCycleStart_frame (s : State) :
    Framed [.sys, .mbx, .log, .tb, .vz, .cfg, .ch, .rfx, .twin, .brg, .fio, .ring, .net, .sig, .key, .upd, .free] s (execLocalCycleStart s) := by
  unfold execLocalCycleStart
  with_reducible repeat' first
    | apply Framed.next
    | assumption
    | decide
    | apply Frame.refl
    | apply Frame.via (localCycle_frame ..)

end Sys2Proof.Machine

end
end

