-- ==== Sys2Proof/Laws/Frames/Upd.lean ====
section
/-! SUPPORT. The frame of each function of `Machine/Upd.lean`: the parts of the state it may change. -/

section

set_option Elab.async false

namespace Sys2Proof.Machine

theorem raiseUpd_frame (k : EvKind) (inst : Nat) (data : List Byte) (s : State) :
    Frame [.mbx, .log, .vz] s (raiseUpd k inst data s) := by
  unfold raiseUpd
  with_reducible repeat' first
    | assumption
    | decide
    | apply Frame.refl
    | apply Frame.via (raise_frame ..)

theorem updOpen_frame (target total : Nat) (s : State) :
    Frame [.upd] s (updOpen target total s).1 := by
  unfold updOpen
  with_reducible repeat' first
    | assumption
    | decide
    | apply Frame.refl
    | (lift_lets; intro x; apply Frame.cut x ?_ (fun _ => ?_); subst x; rotate_left; clear_value x; rotate_right)
    | (lift_lets; intro x; apply Frame.cut x.1 ?_ (fun _ => ?_); subst x; rotate_left; clear_value x; rotate_right)
    | (lift_lets; intro x; clear_value x)
    | apply Frame.ite
    | apply Frame.ite1
    | split
    | apply Frame.set_upd

theorem updFill_frame (offset : Nat) (data : List Byte) (s : State) :
    Frame [.upd] s (updFill offset data s).1 := by
  unfold updFill
  with_reducible repeat' first
    | assumption
    | decide
    | apply Frame.refl
    | apply Frame.ite
    | apply Frame.ite1
    | split
    | apply Frame.set_upd

theorem updStartVerify_frame (req : Option (Nat × U32 × U32)) (s : State) :
    Frame [.upd] s (updStartVerify req s).1 := by
  unfold updStartVerify
  with_reducible repeat' first
    | assumption
    | decide
    | apply Frame.refl
    | apply Frame.ite
    | apply Frame.ite1
    | split
    | apply Frame.set_upd

theorem commitNow_frame (s : State) :
    Frame [.cfg, .upd] s (commitNow s) := by
  unfold commitNow
  with_reducible repeat' first
    | assumption
    | decide
    | apply Frame.refl
    | (lift_lets; intro x; apply Frame.cut x ?_ (fun _ => ?_); subst x; rotate_left; clear_value x; rotate_right)
    | (lift_lets; intro x; apply Frame.cut x.1 ?_ (fun _ => ?_); subst x; rotate_left; clear_value x; rotate_right)
    | (lift_lets; intro x; clear_value x)
    | apply Frame.via (State.modCopy_frame ..)
    | apply Frame.ite
    | apply Frame.foldl
    | apply Frame.foldl1
    | intro _
    | split
    | apply Frame.set_cfg_upd

theorem commitBody_frame (allow : Bool) (s : State) :
    Frame [.mbx, .log, .vz, .cfg, .upd] s (commitBody allow s).1 := by
  unfold commitBody
  with_reducible repeat' first
    | assumption
    | decide
    | apply Frame.refl
    | (lift_lets; intro x; apply Frame.cut x ?_ (fun _ => ?_); subst x; rotate_left; clear_value x; rotate_right)
    | (lift_lets; intro x; apply Frame.cut x.1 ?_ (fun _ => ?_); subst x; rotate_left; clear_value x; rotate_right)
    | (lift_lets; intro x; clear_value x)
    | apply Frame.via (commitNow_frame ..)
    | apply Frame.via (raiseUpd_frame ..)
    | apply Frame.ite
    | apply Frame.ite1

theorem abortStaged_frame (s : State) :
    Frame [.upd] s (abortStaged s) := by
  unfold abortStaged
  with_reducible repeat' first
    | assumption
    | decide
    | apply Frame.refl
    | (lift_lets; intro x; apply Frame.cut x ?_ (fun _ => ?_); subst x; rotate_left; clear_value x; rotate_right)
    | (lift_lets; intro x; apply Frame.cut x.1 ?_ (fun _ => ?_); subst x; rotate_left; clear_value x; rotate_right)
    | (lift_lets; intro x; clear_value x)
    | apply Frame.ite
    | split
    | apply Frame.set_upd

theorem answerVerify_frame (v : Verifying) (st : U16) (result : List Byte) (s : State) :
    Frame [.mbx, .vz, .uds] s (answerVerify v st result s) := by
  unfold answerVerify
  with_reducible repeat' first
    | assumption
    | decide
    | apply Frame.refl
    | apply Frame.via (complete_frame ..)
    | apply Frame.ite
    | split
    | apply Frame.set_uds

theorem abortVerify_frame (s : State) :
    Frame [.mbx, .vz, .uds] s (abortVerify s) := by
  unfold abortVerify
  with_reducible repeat' first
    | assumption
    | decide
    | apply Frame.refl
    | apply Frame.via (answerVerify_frame ..)
    | apply Frame.ite
    | split

theorem updAbortBody_frame (s : State) :
    Frame [.mbx, .vz, .upd, .uds] s (updAbortBody s).1 := by
  unfold updAbortBody
  with_reducible repeat' first
    | assumption
    | decide
    | apply Frame.refl
    | apply Frame.via (abortStaged_frame ..)
    | apply Frame.via (abortVerify_frame ..)

theorem execUpdBegin_frame (r : Req) (target : Byte) (total : U32) (s : State) :
    Framed [.mbx, .vz, .upd] s (execUpdBegin r target total s) := by
  unfold execUpdBegin
  with_reducible repeat' first
    | apply Framed.next
    | assumption
    | decide
    | apply Frame.refl
    | apply runCmd_frame
    | apply Frame.via (updOpen_frame ..)
    | apply Frame.ite
    | intro _

theorem execUpdWrite_frame (r : Req) (offset : U32) (data : List Byte) (s : State) :
    Framed [.mbx, .vz, .upd] s (execUpdWrite r offset data s) := by
  unfold execUpdWrite
  with_reducible repeat' first
    | apply Framed.next
    | assumption
    | decide
    | apply Frame.refl
    | apply runCmd_frame
    | apply Frame.via (updFill_frame ..)
    | apply Frame.ite
    | intro _

theorem execUpdVerify_frame (r : Req) (s : State) :
    Framed [.mbx, .vz, .upd] s (execUpdVerify r s) := by
  unfold execUpdVerify
  with_reducible repeat' first
    | apply Framed.next
    | assumption
    | decide
    | apply Frame.refl
    | apply runCmd_frame
    | apply Frame.via (updStartVerify_frame ..)
    | apply Frame.ite
    | intro _

theorem imageVerified_frame (v : Verifying) (s : State) :
    Frame [.mbx, .log, .vz, .upd, .uds] s (imageVerified v s) := by
  unfold imageVerified
  with_reducible repeat' first
    | assumption
    | decide
    | apply Frame.refl
    | (lift_lets; intro x; apply Frame.cut x ?_ (fun _ => ?_); subst x; rotate_left; clear_value x; rotate_right)
    | (lift_lets; intro x; apply Frame.cut x.1 ?_ (fun _ => ?_); subst x; rotate_left; clear_value x; rotate_right)
    | (lift_lets; intro x; clear_value x)
    | apply Frame.via (State.modCopy_frame ..)
    | apply Frame.via (answerVerify_frame ..)
    | apply Frame.via (raiseUpd_frame ..)

theorem bankVerified_frame (v : Verifying) (b : Bank) (s : State) :
    Frame [.mbx, .log, .vz, .upd, .uds] s (bankVerified v b s) := by
  unfold bankVerified
  with_reducible repeat' first
    | assumption
    | decide
    | apply Frame.refl
    | (lift_lets; intro x; apply Frame.cut x ?_ (fun _ => ?_); subst x; rotate_left; clear_value x; rotate_right)
    | (lift_lets; intro x; apply Frame.cut x.1 ?_ (fun _ => ?_); subst x; rotate_left; clear_value x; rotate_right)
    | (lift_lets; intro x; clear_value x)
    | apply Frame.via (answerVerify_frame ..)
    | apply Frame.via (raiseUpd_frame ..)
    | apply Frame.ite
    | split
    | apply Frame.set_upd

theorem verifyDone_frame (f : VerifyFacts) (bank : Bank) (s : State) :
    Frame [.mbx, .log, .vz, .upd, .uds] s (verifyDone f bank s) := by
  unfold verifyDone
  with_reducible repeat' first
    | assumption
    | decide
    | apply Frame.refl
    | (lift_lets; intro x; apply Frame.cut x ?_ (fun _ => ?_); subst x; rotate_left; clear_value x; rotate_right)
    | (lift_lets; intro x; apply Frame.cut x.1 ?_ (fun _ => ?_); subst x; rotate_left; clear_value x; rotate_right)
    | (lift_lets; intro x; clear_value x)
    | apply Frame.via (answerVerify_frame ..)
    | apply Frame.via (bankVerified_frame ..)
    | apply Frame.via (imageVerified_frame ..)
    | apply Frame.ite
    | split
    | apply Frame.set_upd

theorem execUpdVerifyDone_frame (f : VerifyFacts) (bank : Bank) (s : State) :
    Framed [.mbx, .log, .vz, .upd, .uds] s (execUpdVerifyDone f bank s) := by
  unfold execUpdVerifyDone
  with_reducible repeat' first
    | apply Framed.next
    | assumption
    | decide
    | apply Frame.refl
    | apply Frame.via (verifyDone_frame ..)

theorem execUpdCommit_frame (r : Req) (flags : Byte) (s : State) :
    Framed [.mbx, .log, .vz, .cfg, .upd] s (execUpdCommit r flags s) := by
  unfold execUpdCommit
  with_reducible repeat' first
    | apply Framed.next
    | assumption
    | decide
    | apply Frame.refl
    | apply Frame.via (commitBody_frame ..)
    | apply runCmd_frame
    | apply Frame.ite
    | intro _

theorem execUpdAbort_frame (r : Req) (s : State) :
    Framed [.mbx, .vz, .upd, .uds] s (execUpdAbort r s) := by
  unfold execUpdAbort
  with_reducible repeat' first
    | apply Framed.next
    | assumption
    | decide
    | apply Frame.refl
    | apply runCmd_frame
    | apply Frame.via (updAbortBody_frame ..)
    | apply Frame.ite
    | intro _

theorem execUpdStatus_frame (r : Req) (s : State) :
    Framed [.mbx, .vz] s (execUpdStatus r s) := by
  unfold execUpdStatus
  with_reducible repeat' first
    | apply Framed.next
    | assumption
    | decide
    | apply Frame.refl
    | apply runCmd_frame
    | apply Frame.ite
    | intro _

theorem execUpdRestart_frame (r : Req) (s : State) :
    Framed [.sys, .mbx, .log, .tb, .vz, .saf, .cfg, .ch, .rfx, .twin, .brg, .fio, .ring, .esw, .net, .sig, .upd, .uds] s (execUpdRestart r s) := by
  unfold execUpdRestart
  with_reducible repeat' first
    | apply Framed.next
    | assumption
    | decide
    | apply Frame.refl
    | apply Frame.via (answerRestart_frame ..)
    | apply runLater_frame
    | apply Frame.ite
    | intro _
    | split

theorem waiverBody_frame (allowance : Nat) (digest : List Byte) (sigOk : Bool) (s : State) :
    Frame [.key, .upd] s (waiverBody allowance digest sigOk s).1 := by
  unfold waiverBody
  with_reducible repeat' first
    | assumption
    | decide
    | apply Frame.refl
    | apply Frame.via (countRefused_frame ..)
    | apply Frame.ite
    | apply Frame.ite1
    | split
    | apply Frame.set_upd

theorem execUpdWaiver_frame (r : Req) (allowance : Byte) (digest : List Byte) (sigOk : Bool) (s : State) :
    Framed [.mbx, .vz, .key, .upd] s (execUpdWaiver r allowance digest sigOk s) := by
  unfold execUpdWaiver
  with_reducible repeat' first
    | apply Framed.next
    | assumption
    | decide
    | apply Frame.refl
    | apply runCmd_frame
    | apply Frame.via (waiverBody_frame ..)
    | apply Frame.ite
    | intro _

theorem execUpdTargetTimeout_frame (s : State) :
    Framed [.upd] s (execUpdTargetTimeout s) := by
  unfold execUpdTargetTimeout
  with_reducible repeat' first
    | apply Framed.next
    | assumption
    | decide
    | apply Frame.refl
    | apply Frame.via (updDiscardOpen_frame ..)

end Sys2Proof.Machine

end
end

