-- ==== Sys2Proof/Laws/Frames/TimeBase.lean ====
section
/-! SUPPORT. The frame of each function of `Machine/TimeBase.lean`: the parts of the state it may change. -/

section

set_option Elab.async false

namespace Sys2Proof.Machine

theorem allocView_frame (v z : Nat) (s : State) :
    Frame [.tb] s (allocView v z s) := by
  unfold allocView
  with_reducible repeat' first
    | assumption
    | decide
    | apply Frame.refl
    | apply Frame.via (State.modView_frame ..)

theorem viewChange_frame (v : Nat) (s : State) :
    Frame [.mbx, .log, .tb, .vz] s (viewChange v s) := by
  unfold viewChange
  with_reducible repeat' first
    | assumption
    | decide
    | apply Frame.refl
    | apply Frame.via (applyChange_frame ..)
    | apply Frame.ite
    | split

theorem execViewChangeApply_frame (view : Fin 16) (s : State) :
    Framed [.mbx, .log, .tb, .vz] s (execViewChangeApply view s) := by
  unfold execViewChangeApply
  with_reducible repeat' first
    | apply Framed.next
    | assumption
    | decide
    | apply Frame.refl
    | apply Frame.via (viewChange_frame ..)

theorem execCaptureEvent_frame (source : Fin 65536) (rising : Bool) (s : State) :
    Framed [.mbx, .log, .tb, .vz] s (execCaptureEvent source rising s) := by
  unfold execCaptureEvent
  with_reducible repeat' first
    | apply Framed.next
    | assumption
    | decide
    | apply Frame.refl
    | apply Frame.via (captureEdge_frame ..)

theorem triggerCmd_frame (t : Trigger) (v : Nat) (s : State) :
    Frame [.mbx, .log, .vz, .ch, .free] s (triggerCmd t v s) := by
  unfold triggerCmd
  with_reducible repeat' first
    | assumption
    | decide
    | apply Frame.refl
    | (lift_lets; intro x; apply Frame.cut x ?_ (fun _ => ?_); subst x; rotate_left; clear_value x; rotate_right)
    | (lift_lets; intro x; apply Frame.cut x.1 ?_ (fun _ => ?_); subst x; rotate_left; clear_value x; rotate_right)
    | (lift_lets; intro x; clear_value x)
    | apply Frame.via (State.draw_frame ..)
    | apply Frame.via (discardBad_frame ..)
    | apply Frame.via (enterSw_frame ..)
    | apply Frame.via (urgentDie_frame ..)
    | apply Frame.ite
    | split

theorem triggerFire_frame (u : Nat) (s : State) :
    Frame [.mbx, .log, .tb, .vz, .ch, .free] s (triggerFire u s) := by
  unfold triggerFire
  with_reducible repeat' first
    | assumption
    | decide
    | apply Frame.refl
    | (lift_lets; intro x; apply Frame.cut x ?_ (fun _ => ?_); subst x; rotate_left; clear_value x; rotate_right)
    | (lift_lets; intro x; apply Frame.cut x.1 ?_ (fun _ => ?_); subst x; rotate_left; clear_value x; rotate_right)
    | (lift_lets; intro x; clear_value x)
    | apply Frame.via (State.modTrigger_frame ..)
    | apply Frame.via (triggerCmd_frame ..)
    | apply Frame.ite
    | split
    | apply Frame.set_vz

theorem execTriggerFire_frame (unit : Fin 16) (s : State) :
    Framed [.mbx, .log, .tb, .vz, .ch, .free] s (execTriggerFire unit s) := by
  unfold execTriggerFire
  with_reducible repeat' first
    | apply Framed.next
    | assumption
    | decide
    | apply Frame.refl
    | apply Frame.via (triggerFire_frame ..)

theorem execTimeRead_frame (r : Req) (view : Byte) (s : State) :
    Framed [.mbx, .vz] s (execTimeRead r view s) := by
  unfold execTimeRead
  with_reducible repeat' first
    | apply Framed.next
    | assumption
    | decide
    | apply Frame.refl
    | (lift_lets; intro x; apply Frame.cut x ?_ (fun _ => ?_); subst x; rotate_left; clear_value x; rotate_right)
    | (lift_lets; intro x; apply Frame.cut x.1 ?_ (fun _ => ?_); subst x; rotate_left; clear_value x; rotate_right)
    | (lift_lets; intro x; clear_value x)
    | apply runCmd_frame
    | apply Frame.ite
    | intro _

theorem adjustBody_frame (f : AdjustFields) (owner : Option Nat) (s : State) :
    Frame [.tb] s (adjustBody f owner s).1 := by
  unfold adjustBody
  with_reducible repeat' first
    | assumption
    | decide
    | apply Frame.refl
    | (lift_lets; intro x; apply Frame.cut x ?_ (fun _ => ?_); subst x; rotate_left; clear_value x; rotate_right)
    | (lift_lets; intro x; apply Frame.cut x.1 ?_ (fun _ => ?_); subst x; rotate_left; clear_value x; rotate_right)
    | (lift_lets; intro x; clear_value x)
    | apply Frame.via (State.modView_frame ..)
    | apply Frame.ite
    | apply Frame.ite1

theorem execTimeAdjust_frame (r : Req) (f : AdjustFields) (s : State) :
    Framed [.mbx, .tb, .vz] s (execTimeAdjust r f s) := by
  unfold execTimeAdjust
  with_reducible repeat' first
    | apply Framed.next
    | assumption
    | decide
    | apply Frame.refl
    | apply Frame.via (adjustBody_frame ..)
    | apply runCmd_frame
    | apply Frame.ite
    | intro _

theorem freeViewAt_frame (v : Nat) (s : State) :
    Frame [.tb] s (freeViewAt v s) := by
  unfold freeViewAt
  with_reducible repeat' first
    | assumption
    | decide
    | apply Frame.refl
    | apply Frame.via (State.modView_frame ..)

theorem viewAllocBody_frame (op view vzf : Nat) (s : State) :
    Frame [.tb] s (viewAllocBody op view vzf s).1 := by
  unfold viewAllocBody
  with_reducible repeat' first
    | assumption
    | decide
    | apply Frame.refl
    | apply Frame.via (allocView_frame ..)
    | apply Frame.via (freeViewAt_frame ..)
    | apply Frame.ite
    | apply Frame.ite1
    | split

theorem execTimeViewAlloc_frame (r : Req) (op view vzf : Byte) (s : State) :
    Framed [.mbx, .tb, .vz] s (execTimeViewAlloc r op view vzf s) := by
  unfold execTimeViewAlloc
  with_reducible repeat' first
    | apply Framed.next
    | assumption
    | decide
    | apply Frame.refl
    | apply runCmd_frame
    | apply Frame.via (viewAllocBody_frame ..)
    | apply Frame.ite
    | intro _

theorem captureConfigure_frame (u src edge : Nat) (p : Port) (s : State) :
    Frame [.tb] s (captureConfigure u src edge p s).1 := by
  unfold captureConfigure
  with_reducible repeat' first
    | assumption
    | decide
    | apply Frame.refl
    | (lift_lets; intro x; apply Frame.cut x ?_ (fun _ => ?_); subst x; rotate_left; clear_value x; rotate_right)
    | (lift_lets; intro x; apply Frame.cut x.1 ?_ (fun _ => ?_); subst x; rotate_left; clear_value x; rotate_right)
    | (lift_lets; intro x; clear_value x)
    | apply Frame.via (State.modCapture_frame ..)
    | apply Frame.ite
    | apply Frame.ite1
    | split

theorem captureRead_frame (u : Nat) (s : State) :
    Frame [.tb] s (captureRead u s).1 := by
  unfold captureRead
  with_reducible repeat' first
    | assumption
    | decide
    | apply Frame.refl
    | (lift_lets; intro x; apply Frame.cut x ?_ (fun _ => ?_); subst x; rotate_left; clear_value x; rotate_right)
    | (lift_lets; intro x; apply Frame.cut x.1 ?_ (fun _ => ?_); subst x; rotate_left; clear_value x; rotate_right)
    | (lift_lets; intro x; clear_value x)
    | apply Frame.via (State.modCapture_frame ..)

theorem captureBody_frame (u op src edge : Nat) (p : Port) (s : State) :
    Frame [.tb] s (captureBody u op src edge p s).1 := by
  unfold captureBody
  with_reducible repeat' first
    | assumption
    | decide
    | apply Frame.refl
    | (lift_lets; intro x; apply Frame.cut x ?_ (fun _ => ?_); subst x; rotate_left; clear_value x; rotate_right)
    | (lift_lets; intro x; apply Frame.cut x.1 ?_ (fun _ => ?_); subst x; rotate_left; clear_value x; rotate_right)
    | (lift_lets; intro x; clear_value x)
    | apply Frame.via (State.modCapture_frame ..)
    | apply Frame.via (captureConfigure_frame ..)
    | apply Frame.via (captureRead_frame ..)
    | apply Frame.ite
    | apply Frame.ite1

theorem execTimeCaptureConfig_frame (r : Req) (unit op : Byte) (source : U16) (edge : Byte) (s : State) :
    Framed [.mbx, .tb, .vz] s (execTimeCaptureConfig r unit op source edge s) := by
  unfold execTimeCaptureConfig
  with_reducible repeat' first
    | apply Framed.next
    | assumption
    | decide
    | apply Frame.refl
    | apply Frame.via (captureBody_frame ..)
    | apply runCmd_frame
    | apply Frame.ite
    | intro _

theorem triggerArm_frame (f : TriggerFields) (p : Port) (s : State) :
    Frame [.tb] s (triggerArm f p s).1 := by
  unfold triggerArm
  with_reducible repeat' first
    | assumption
    | decide
    | apply Frame.refl
    | (lift_lets; intro x; apply Frame.cut x ?_ (fun _ => ?_); subst x; rotate_left; clear_value x; rotate_right)
    | (lift_lets; intro x; apply Frame.cut x.1 ?_ (fun _ => ?_); subst x; rotate_left; clear_value x; rotate_right)
    | (lift_lets; intro x; clear_value x)
    | apply Frame.via (State.modTrigger_frame ..)
    | apply Frame.ite
    | apply Frame.ite1

theorem triggerBody_frame (f : TriggerFields) (p : Port) (s : State) :
    Frame [.tb] s (triggerBody f p s).1 := by
  unfold triggerBody
  with_reducible repeat' first
    | assumption
    | decide
    | apply Frame.refl
    | (lift_lets; intro x; apply Frame.cut x ?_ (fun _ => ?_); subst x; rotate_left; clear_value x; rotate_right)
    | (lift_lets; intro x; apply Frame.cut x.1 ?_ (fun _ => ?_); subst x; rotate_left; clear_value x; rotate_right)
    | (lift_lets; intro x; clear_value x)
    | apply Frame.via (State.modTrigger_frame ..)
    | apply Frame.via (triggerArm_frame ..)
    | apply Frame.ite
    | apply Frame.ite1

theorem execTimeTriggerConfig_frame (r : Req) (f : TriggerFields) (s : State) :
    Framed [.mbx, .tb, .vz] s (execTimeTriggerConfig r f s) := by
  unfold execTimeTriggerConfig
  with_reducible repeat' first
    | apply Framed.next
    | assumption
    | decide
    | apply Frame.refl
    | apply runCmd_frame
    | apply Frame.via (triggerBody_frame ..)
    | apply Frame.ite
    | intro _

theorem alarmBody_frame (op delay : Nat) (s : State) :
    Frame [.tb, .free] s (alarmBody op delay s).1 := by
  unfold alarmBody
  with_reducible repeat' first
    | assumption
    | decide
    | apply Frame.refl
    | (lift_lets; intro x; apply Frame.cut x ?_ (fun _ => ?_); subst x; rotate_left; clear_value x; rotate_right)
    | (lift_lets; intro x; apply Frame.cut x.1 ?_ (fun _ => ?_); subst x; rotate_left; clear_value x; rotate_right)
    | (lift_lets; intro x; clear_value x)
    | apply Frame.via (State.draw_frame ..)
    | apply Frame.ite
    | apply Frame.ite1
    | split
    | apply Frame.set_tb

theorem execTimeRtcAlarm_frame (r : Req) (op : Byte) (delay : U32) (s : State) :
    Framed [.mbx, .tb, .vz, .free] s (execTimeRtcAlarm r op delay s) := by
  unfold execTimeRtcAlarm
  with_reducible repeat' first
    | apply Framed.next
    | assumption
    | decide
    | apply Frame.refl
    | apply Frame.via (alarmBody_frame ..)
    | apply runCmd_frame
    | apply Frame.ite
    | intro _

end Sys2Proof.Machine

end
end

