-- ==== Sys2Proof/Laws/Frames/Vzf.lean ====
section
/-! SUPPORT. The frame of each function of `Machine/Vzf.lean`: the parts of the state it may change. -/

section

set_option Elab.async false

namespace Sys2Proof.Machine

theorem openPorts_frame (v : Nat) (t : Template) (ns : List Nat) (s : State) :
    Frame [.mbx, .vz, .free] s (openPorts v t ns s) := by
  unfold openPorts
  with_reducible repeat' first
    | assumption
    | decide
    | apply Frame.refl
    | apply Frame.via (openPort_frame ..)
    | apply Frame.ite
    | apply Frame.foldl
    | apply Frame.foldl1
    | intro _

theorem createNow_frame (v : Nat) (t : Template) (regions : List (Nat × Nat)) (iommu : IommuCtx) (s : State) :
    Frame [.sys, .mbx, .log, .tb, .vz, .cfg, .ch, .rfx, .twin, .brg, .fio, .esw, .upd, .free] s (createNow v t regions iommu s) := by
  unfold createNow
  with_reducible repeat' first
    | assumption
    | decide
    | apply Frame.refl
    | (lift_lets; intro x; apply Frame.cut x ?_ (fun _ => ?_); subst x; rotate_left; clear_value x; rotate_right)
    | (lift_lets; intro x; apply Frame.cut x.1 ?_ (fun _ => ?_); subst x; rotate_left; clear_value x; rotate_right)
    | (lift_lets; intro x; clear_value x)
    | apply Frame.via (allocView_frame ..)
    | apply Frame.via (evalRules_frame ..)
    | apply Frame.via (openPairs_frame ..)
    | apply Frame.via (openPorts_frame ..)
    | apply Frame.via (raise_frame ..)
    | apply Frame.via (urgent_frame ..)
    | apply Frame.via (xSend_frame ..)
    | apply Frame.ite
    | apply Frame.foldl
    | apply Frame.foldl1
    | intro _
    | split
    | apply Frame.set_mbx_vz

theorem vzfCreate_frame (v tpl : Nat) (iommu : IommuCtx) (s : State) :
    Frame [.sys, .mbx, .log, .tb, .vz, .cfg, .ch, .rfx, .twin, .brg, .fio, .esw, .upd, .free] s (vzfCreate v tpl iommu s).1 := by
  unfold vzfCreate
  with_reducible repeat' first
    | assumption
    | decide
    | apply Frame.refl
    | apply Frame.via (createNow_frame ..)
    | apply Frame.ite
    | apply Frame.ite1
    | split

theorem createList_frame (s : State) :
    Frame [.sys, .mbx, .log, .tb, .vz, .cfg, .ch, .rfx, .twin, .brg, .fio, .esw, .upd, .free] s (createList s) := by
  unfold createList
  with_reducible repeat' first
    | assumption
    | decide
    | apply Frame.refl
    | (lift_lets; intro x; apply Frame.cut x ?_ (fun _ => ?_); subst x; rotate_left; clear_value x; rotate_right)
    | (lift_lets; intro x; apply Frame.cut x.1 ?_ (fun _ => ?_); subst x; rotate_left; clear_value x; rotate_right)
    | (lift_lets; intro x; clear_value x)
    | apply Frame.via (raise_frame ..)
    | apply Frame.via (vzfCreate_frame ..)
    | apply Frame.ite
    | apply Frame.foldl
    | apply Frame.foldl1
    | intro _

theorem createBody_frame (tpl vzf : Nat) (iommu : IommuCtx) (s : State) :
    Frame [.sys, .mbx, .log, .tb, .vz, .cfg, .ch, .rfx, .twin, .brg, .fio, .esw, .upd, .free] s (createBody tpl vzf iommu s).1 := by
  unfold createBody
  with_reducible repeat' first
    | assumption
    | decide
    | apply Frame.refl
    | (lift_lets; intro x; apply Frame.cut x ?_ (fun _ => ?_); subst x; rotate_left; clear_value x; rotate_right)
    | (lift_lets; intro x; apply Frame.cut x.1 ?_ (fun _ => ?_); subst x; rotate_left; clear_value x; rotate_right)
    | (lift_lets; intro x; clear_value x)
    | apply Frame.via (vzfCreate_frame ..)
    | apply Frame.ite
    | apply Frame.ite1
    | split

theorem execVzfCreate_frame (r : Req) (tpl vzf : Byte) (iommu : IommuCtx) (s : State) :
    Framed [.sys, .mbx, .log, .tb, .vz, .cfg, .ch, .rfx, .twin, .brg, .fio, .esw, .upd, .free] s (execVzfCreate r tpl vzf iommu s) := by
  unfold execVzfCreate
  with_reducible repeat' first
    | apply Framed.next
    | assumption
    | decide
    | apply Frame.refl
    | apply Frame.via (createBody_frame ..)
    | apply runCmd_frame
    | apply Frame.ite
    | intro _

theorem beginReset_frame (v : Nat) (life : VzfLife) (req : Option (Nat × U32 × U32)) (s : State) :
    Frame [.vz, .net] s (beginReset v life req s) := by
  unfold beginReset
  with_reducible repeat' first
    | assumption
    | decide
    | apply Frame.refl
    | (lift_lets; intro x; apply Frame.cut x ?_ (fun _ => ?_); subst x; rotate_left; clear_value x; rotate_right)
    | (lift_lets; intro x; apply Frame.cut x.1 ?_ (fun _ => ?_); subst x; rotate_left; clear_value x; rotate_right)
    | (lift_lets; intro x; clear_value x)
    | apply Frame.via (canQuiesce_frame ..)
    | apply Frame.ite
    | apply Frame.foldl
    | apply Frame.foldl1
    | intro _
    | split
    | apply Frame.set_vz

theorem resetBody_frame (r : Req) (v : Nat) (p : Port) (s : State) :
    Frame [.vz, .net] s (resetBody r v p s).1 := by
  unfold resetBody
  with_reducible repeat' first
    | assumption
    | decide
    | apply Frame.refl
    | apply Frame.via (beginReset_frame ..)
    | apply Frame.ite
    | apply Frame.ite1

theorem execVzfReset_frame (r : Req) (vzf : Byte) (s : State) :
    Framed [.mbx, .vz, .net] s (execVzfReset r vzf s) := by
  unfold execVzfReset
  with_reducible repeat' first
    | apply Framed.next
    | assumption
    | decide
    | apply Frame.refl
    | apply Frame.via (resetBody_frame ..)
    | apply runCmd_frame
    | apply Frame.ite
    | intro _

theorem destroyBody_frame (r : Req) (v : Nat) (p : Port) (s : State) :
    Frame [.vz, .net] s (destroyBody r v p s).1 := by
  unfold destroyBody
  with_reducible repeat' first
    | assumption
    | decide
    | apply Frame.refl
    | apply Frame.via (beginReset_frame ..)
    | apply Frame.ite
    | apply Frame.ite1

theorem execVzfDestroy_frame (r : Req) (vzf : Byte) (s : State) :
    Framed [.mbx, .vz, .net] s (execVzfDestroy r vzf s) := by
  unfold execVzfDestroy
  with_reducible repeat' first
    | apply Framed.next
    | assumption
    | decide
    | apply Frame.refl
    | apply Frame.via (destroyBody_frame ..)
    | apply runCmd_frame
    | apply Frame.ite
    | intro _

theorem abortPort_frame (n : Nat) (s : State) :
    Frame [.mbx, .vz] s (abortPort n s) := by
  unfold abortPort
  with_reducible repeat' first
    | assumption
    | decide
    | apply Frame.refl
    | apply Frame.via (complete_frame ..)
    | apply Frame.via (respond_frame ..)
    | apply Frame.ite
    | apply Frame.foldl
    | apply Frame.foldl1
    | intro _
    | split

theorem freeUnits_frame (v : Nat) (s : State) :
    Frame [.tb] s (freeUnits v s) := by
  unfold freeUnits
  with_reducible repeat' first
    | assumption
    | decide
    | apply Frame.refl
    | apply Frame.ite
    | split
    | apply Frame.set_tb

theorem markZero_frame (v : Nat) (s : State) :
    Frame [.vz] s (markZero v s) := by
  unfold markZero
  with_reducible repeat' first
    | assumption
    | decide
    | apply Frame.refl
    | (lift_lets; intro x; apply Frame.cut x ?_ (fun _ => ?_); subst x; rotate_left; clear_value x; rotate_right)
    | (lift_lets; intro x; apply Frame.cut x.1 ?_ (fun _ => ?_); subst x; rotate_left; clear_value x; rotate_right)
    | (lift_lets; intro x; clear_value x)
    | apply Frame.ite
    | split
    | apply Frame.set_vz

theorem orphanCh_frame (i : Nat) (s : State) :
    Frame [.mbx, .log, .vz, .ch] s (orphanCh i s) := by
  unfold orphanCh
  with_reducible repeat' first
    | assumption
    | decide
    | apply Frame.refl
    | apply Frame.via (State.modChan_frame ..)
    | apply Frame.via (raiseCh_frame ..)

theorem orphanX_frame (v : Nat) (s : State) :
    Frame [.fio] s (orphanX v s) := by
  unfold orphanX
  with_reducible repeat' first
    | assumption
    | decide
    | apply Frame.refl
    | (lift_lets; intro x; apply Frame.cut x ?_ (fun _ => ?_); subst x; rotate_left; clear_value x; rotate_right)
    | (lift_lets; intro x; apply Frame.cut x.1 ?_ (fun _ => ?_); subst x; rotate_left; clear_value x; rotate_right)
    | (lift_lets; intro x; clear_value x)
    | apply Frame.via (State.modSlot_frame ..)
    | apply Frame.via (State.modX_frame ..)
    | apply Frame.ite
    | apply Frame.foldl
    | apply Frame.foldl1
    | intro _

theorem suspendRules_frame (v : Nat) (s : State) :
    Frame [.mbx, .log, .vz, .ch, .rfx] s (suspendRules v s) := by
  unfold suspendRules
  with_reducible repeat' first
    | assumption
    | decide
    | apply Frame.refl
    | (lift_lets; intro x; apply Frame.cut x ?_ (fun _ => ?_); subst x; rotate_left; clear_value x; rotate_right)
    | (lift_lets; intro x; apply Frame.cut x.1 ?_ (fun _ => ?_); subst x; rotate_left; clear_value x; rotate_right)
    | (lift_lets; intro x; clear_value x)
    | apply Frame.via (applyMerge_frame ..)
    | apply Frame.via (raise_frame ..)
    | apply Frame.ite
    | split
    | apply Frame.set_rfx

theorem resetSteps_frame (v : Nat) (s : State) :
    Frame [.mbx, .log, .tb, .vz, .ch, .rfx, .fio, .esw, .net, .sig, .free] s (resetSteps v s) := by
  unfold resetSteps
  with_reducible repeat' first
    | assumption
    | decide
    | apply Frame.refl
    | (lift_lets; intro x; apply Frame.cut x ?_ (fun _ => ?_); subst x; rotate_left; clear_value x; rotate_right)
    | (lift_lets; intro x; apply Frame.cut x.1 ?_ (fun _ => ?_); subst x; rotate_left; clear_value x; rotate_right)
    | (lift_lets; intro x; clear_value x)
    | apply Frame.via (abortPort_frame ..)
    | apply Frame.via (canZero_frame ..)
    | apply Frame.via (eswResetVzf_frame ..)
    | apply Frame.via (freeUnits_frame ..)
    | apply Frame.via (linZero_frame ..)
    | apply Frame.via (markZero_frame ..)
    | apply Frame.via (orphanCh_frame ..)
    | apply Frame.via (orphanX_frame ..)
    | apply Frame.via (portEpoch_frame ..)
    | apply Frame.via (sigZero_frame ..)
    | apply Frame.via (suspendRules_frame ..)
    | apply Frame.via (xSend_frame ..)
    | apply Frame.ite
    | apply Frame.foldl
    | apply Frame.foldl1
    | intro _
    | split
    | apply Frame.set_vz

theorem completeVzf_frame (req : Option (Nat × U32 × U32)) (code : U16) (result : List Byte) (s : State) :
    Frame [.mbx, .vz] s (completeVzf req code result s) := by
  unfold completeVzf
  with_reducible repeat' first
    | assumption
    | decide
    | apply Frame.refl
    | apply Frame.via (complete_frame ..)
    | apply Frame.ite
    | split

theorem endReset_frame (v : Nat) (s : State) :
    Frame [.mbx, .log, .vz] s (endReset v s) := by
  unfold endReset
  with_reducible repeat' first
    | assumption
    | decide
    | apply Frame.refl
    | (lift_lets; intro x; apply Frame.cut x ?_ (fun _ => ?_); subst x; rotate_left; clear_value x; rotate_right)
    | (lift_lets; intro x; apply Frame.cut x.1 ?_ (fun _ => ?_); subst x; rotate_left; clear_value x; rotate_right)
    | (lift_lets; intro x; clear_value x)
    | apply Frame.via (completeVzf_frame ..)
    | apply Frame.via (raise_frame ..)
    | apply Frame.ite
    | split
    | apply Frame.set_vz

theorem releaseVzf_frame (v : Nat) (s : State) :
    Frame [.sys, .mbx, .log, .tb, .vz, .cfg, .ch, .rfx, .twin, .brg, .fio, .esw, .upd] s (releaseVzf v s) := by
  unfold releaseVzf
  with_reducible repeat' first
    | assumption
    | decide
    | apply Frame.refl
    | (lift_lets; intro x; apply Frame.cut x ?_ (fun _ => ?_); subst x; rotate_left; clear_value x; rotate_right)
    | (lift_lets; intro x; apply Frame.cut x.1 ?_ (fun _ => ?_); subst x; rotate_left; clear_value x; rotate_right)
    | (lift_lets; intro x; clear_value x)
    | apply Frame.via (State.modChan_frame ..)
    | apply Frame.via (State.modX_frame ..)
    | apply Frame.via (applyMerge_frame ..)
    | apply Frame.via (closePairs_frame ..)
    | apply Frame.via (evalRules_frame ..)
    | apply Frame.via (freeViewAt_frame ..)
    | apply Frame.via (xSend_frame ..)
    | apply Frame.ite
    | apply Frame.foldl
    | apply Frame.foldl1
    | intro _
    | split
    | apply Frame.set_mbx_vz_rfx_fio

theorem endDestroy_frame (v : Nat) (s : State) :
    Frame [.sys, .mbx, .log, .tb, .vz, .cfg, .ch, .rfx, .twin, .brg, .fio, .esw, .upd] s (endDestroy v s) := by
  unfold endDestroy
  with_reducible repeat' first
    | assumption
    | decide
    | apply Frame.refl
    | (lift_lets; intro x; apply Frame.cut x ?_ (fun _ => ?_); subst x; rotate_left; clear_value x; rotate_right)
    | (lift_lets; intro x; apply Frame.cut x.1 ?_ (fun _ => ?_); subst x; rotate_left; clear_value x; rotate_right)
    | (lift_lets; intro x; clear_value x)
    | apply Frame.via (completeVzf_frame ..)
    | apply Frame.via (raise_frame ..)
    | apply Frame.via (releaseVzf_frame ..)

theorem drainEnd_frame (v : Nat) (s : State) :
    Frame [.sys, .mbx, .log, .tb, .vz, .cfg, .ch, .rfx, .twin, .brg, .fio, .esw, .net, .sig, .upd, .free] s (drainEnd v s) := by
  unfold drainEnd
  with_reducible repeat' first
    | assumption
    | decide
    | apply Frame.refl
    | apply Frame.via (endDestroy_frame ..)
    | apply Frame.via (endReset_frame ..)
    | apply Frame.via (resetSteps_frame ..)
    | apply Frame.ite
    | split

theorem execVzfResetDrainEnd_frame (v : Fin 256) (s : State) :
    Framed [.sys, .mbx, .log, .tb, .vz, .cfg, .ch, .rfx, .twin, .brg, .fio, .esw, .net, .sig, .upd, .free] s (execVzfResetDrainEnd v s) := by
  unfold execVzfResetDrainEnd
  with_reducible repeat' first
    | apply Framed.next
    | assumption
    | decide
    | apply Frame.refl
    | apply Frame.via (drainEnd_frame ..)

theorem execDramZeroComplete_frame (block : Nat) (s : State) :
    Framed [.vz] s (execDramZeroComplete block s) := by
  unfold execDramZeroComplete
  with_reducible repeat' first
    | apply Framed.next
    | assumption
    | decide
    | apply Frame.refl
    | apply Frame.ite
    | split
    | apply Frame.set_vz

theorem budgetRefill_frame (s : State) :
    Frame [.vz] s (budgetRefill s) := by
  unfold budgetRefill
  with_reducible repeat' first
    | assumption
    | decide
    | apply Frame.refl
    | (lift_lets; intro x; apply Frame.cut x ?_ (fun _ => ?_); subst x; rotate_left; clear_value x; rotate_right)
    | (lift_lets; intro x; apply Frame.cut x.1 ?_ (fun _ => ?_); subst x; rotate_left; clear_value x; rotate_right)
    | (lift_lets; intro x; clear_value x)
    | apply Frame.ite
    | apply Frame.foldl
    | apply Frame.foldl1
    | intro _
    | split
    | apply Frame.set_vz

theorem execInterruptBudgetRefill_frame (s : State) :
    Framed [.vz] s (execInterruptBudgetRefill s) := by
  unfold execInterruptBudgetRefill
  with_reducible repeat' first
    | apply Framed.next
    | assumption
    | decide
    | apply Frame.refl
    | apply Frame.via (budgetRefill_frame ..)

theorem execVectorHoldoffExpiry_frame (v : Fin 256) (k : Fin 64) (s : State) :
    Framed [.vz] s (execVectorHoldoffExpiry v k s) := by
  unfold execVectorHoldoffExpiry
  with_reducible repeat' first
    | apply Framed.next
    | assumption
    | decide
    | apply Frame.refl
    | apply Frame.ite
    | split
    | apply Frame.set_vz

theorem qosBody_frame (v : Nat) (ws : Vector Byte 5) (s : State) :
    Frame [.vz] s (qosBody v ws s).1 := by
  unfold qosBody
  with_reducible repeat' first
    | assumption
    | decide
    | apply Frame.refl
    | (lift_lets; intro x; apply Frame.cut x ?_ (fun _ => ?_); subst x; rotate_left; clear_value x; rotate_right)
    | (lift_lets; intro x; apply Frame.cut x.1 ?_ (fun _ => ?_); subst x; rotate_left; clear_value x; rotate_right)
    | (lift_lets; intro x; clear_value x)
    | apply Frame.ite
    | apply Frame.ite1
    | split
    | apply Frame.set_vz

theorem execVzfQos_frame (r : Req) (vzf : Byte) (weights : Vector Byte 5) (s : State) :
    Framed [.mbx, .vz] s (execVzfQos r vzf weights s) := by
  unfold execVzfQos
  with_reducible repeat' first
    | apply Framed.next
    | assumption
    | decide
    | apply Frame.refl
    | apply Frame.via (qosBody_frame ..)
    | apply runCmd_frame
    | apply Frame.ite
    | intro _

theorem execVzfGetInfo_frame (r : Req) (vzf : Byte) (s : State) :
    Framed [.mbx, .vz] s (execVzfGetInfo r vzf s) := by
  unfold execVzfGetInfo
  with_reducible repeat' first
    | apply Framed.next
    | assumption
    | decide
    | apply Frame.refl
    | apply runCmd_frame
    | apply Frame.ite
    | intro _
    | split

theorem execVzfList_frame (r : Req) (s : State) :
    Framed [.mbx, .vz] s (execVzfList r s) := by
  unfold execVzfList
  with_reducible repeat' first
    | apply Framed.next
    | assumption
    | decide
    | apply Frame.refl
    | apply runCmd_frame
    | apply Frame.ite
    | intro _

end Sys2Proof.Machine

end
end

