-- ==== Sys2Proof/Laws/Frames/Start.lean ====
section
/-! SUPPORT. The frame of each function of `Machine/Start.lean`: the parts of the state it may change. -/

section

set_option Elab.async false

namespace Sys2Proof.Machine

theorem restartCount_frame (s : State) :
    Frame [.tb, .ch] s (restartCount s) := by
  unfold restartCount
  with_reducible repeat' first
    | assumption
    | decide
    | apply Frame.refl
    | (lift_lets; intro x; apply Frame.cut x ?_ (fun _ => ?_); subst x; rotate_left; clear_value x; rotate_right)
    | (lift_lets; intro x; apply Frame.cut x.1 ?_ (fun _ => ?_); subst x; rotate_left; clear_value x; rotate_right)
    | (lift_lets; intro x; clear_value x)
    | apply Frame.ite
    | split
    | apply Frame.set_tb_ch

theorem startBegin_frame (f : StartFacts) (s : State) :
    Frame [.sys, .mbx, .log, .tb, .vz, .ch, .upd] s (startBegin f s) := by
  unfold startBegin
  with_reducible repeat' first
    | assumption
    | decide
    | apply Frame.refl
    | (lift_lets; intro x; apply Frame.cut x ?_ (fun _ => ?_); subst x; rotate_left; clear_value x; rotate_right)
    | (lift_lets; intro x; apply Frame.cut x.1 ?_ (fun _ => ?_); subst x; rotate_left; clear_value x; rotate_right)
    | (lift_lets; intro x; clear_value x)
    | apply Frame.via (raise_frame ..)
    | apply Frame.via (restartCount_frame ..)
    | apply Frame.ite
    | split
    | apply Frame.set_sys_log_tb_upd

theorem startKeys_frame (f : StartFacts) (s : State) :
    Frame [.mbx, .log, .vz, .key] s (startKeys f s) := by
  unfold startKeys
  with_reducible repeat' first
    | assumption
    | decide
    | apply Frame.refl
    | (lift_lets; intro x; apply Frame.cut x ?_ (fun _ => ?_); subst x; rotate_left; clear_value x; rotate_right)
    | (lift_lets; intro x; apply Frame.cut x.1 ?_ (fun _ => ?_); subst x; rotate_left; clear_value x; rotate_right)
    | (lift_lets; intro x; clear_value x)
    | apply Frame.via (State.modKeySlot_frame ..)
    | apply Frame.via (raiseKey_frame ..)
    | apply Frame.ite
    | apply Frame.foldl
    | apply Frame.foldl1
    | intro _
    | split
    | apply Frame.set_key

theorem badCopy_frame (c : Nat × Bool) (s : State) :
    Frame [.mbx, .log, .vz, .upd] s (badCopy c s) := by
  unfold badCopy
  with_reducible repeat' first
    | assumption
    | decide
    | apply Frame.refl
    | apply Frame.via (State.modCopy_frame ..)
    | apply Frame.via (raiseUpd_frame ..)
    | apply Frame.ite

theorem badCopies_frame (f : StartFacts) (want : Nat → Bool) (s : State) :
    Frame [.mbx, .log, .vz, .upd] s (badCopies f want s) := by
  unfold badCopies
  with_reducible repeat' first
    | assumption
    | decide
    | apply Frame.refl
    | apply Frame.via (badCopy_frame ..)
    | apply Frame.ite
    | apply Frame.foldl
    | apply Frame.foldl1
    | intro _

theorem checkBanks_frame (f : StartFacts) (s : State) :
    Frame [.mbx, .log, .vz, .cfg] s (checkBanks f s) := by
  unfold checkBanks
  with_reducible repeat' first
    | assumption
    | decide
    | apply Frame.refl
    | (lift_lets; intro x; apply Frame.cut x ?_ (fun _ => ?_); subst x; rotate_left; clear_value x; rotate_right)
    | (lift_lets; intro x; apply Frame.cut x.1 ?_ (fun _ => ?_); subst x; rotate_left; clear_value x; rotate_right)
    | (lift_lets; intro x; clear_value x)
    | apply Frame.via (raise_frame ..)
    | apply Frame.ite
    | split
    | apply Frame.set_cfg

theorem takeBank_frame (b : Bool) (s : State) :
    Frame [.mbx, .log, .vz, .cfg, .key] s (takeBank b s) := by
  unfold takeBank
  with_reducible repeat' first
    | assumption
    | decide
    | apply Frame.refl
    | (lift_lets; intro x; apply Frame.cut x ?_ (fun _ => ?_); subst x; rotate_left; clear_value x; rotate_right)
    | (lift_lets; intro x; apply Frame.cut x.1 ?_ (fun _ => ?_); subst x; rotate_left; clear_value x; rotate_right)
    | (lift_lets; intro x; clear_value x)
    | apply Frame.via (extendMr_frame ..)
    | apply Frame.via (raise_frame ..)
    | apply Frame.ite
    | split
    | apply Frame.set_cfg

theorem underWaiver_frame (s : State) :
    Frame [.sys, .mbx, .log, .vz, .key, .upd, .free] s (underWaiver s) := by
  unfold underWaiver
  with_reducible repeat' first
    | assumption
    | decide
    | apply Frame.refl
    | (lift_lets; intro x; apply Frame.cut x ?_ (fun _ => ?_); subst x; rotate_left; clear_value x; rotate_right)
    | (lift_lets; intro x; apply Frame.cut x.1 ?_ (fun _ => ?_); subst x; rotate_left; clear_value x; rotate_right)
    | (lift_lets; intro x; clear_value x)
    | apply Frame.via (State.draw_frame ..)
    | apply Frame.via (extendMr_frame ..)
    | apply Frame.via (raise_frame ..)
    | apply Frame.ite
    | split
    | apply Frame.set_sys_upd

theorem chooseSet_frame (s : State) :
    Frame [.sys, .mbx, .log, .vz, .key, .upd, .free] s (chooseSet s).1 := by
  unfold chooseSet
  with_reducible repeat' first
    | assumption
    | decide
    | apply Frame.refl
    | (lift_lets; intro x; apply Frame.cut x ?_ (fun _ => ?_); subst x; rotate_left; clear_value x; rotate_right)
    | (lift_lets; intro x; apply Frame.cut x.1 ?_ (fun _ => ?_); subst x; rotate_left; clear_value x; rotate_right)
    | (lift_lets; intro x; clear_value x)
    | apply Frame.via (raise_frame ..)
    | apply Frame.via (underWaiver_frame ..)
    | apply Frame.ite
    | apply Frame.ite1
    | split
    | apply Frame.set_upd

theorem measure_frame (cls : Nat) (s : State) :
    Frame [.key] s (measure cls s) := by
  unfold measure
  with_reducible repeat' first
    | assumption
    | decide
    | apply Frame.refl
    | apply Frame.via (extendMr_frame ..)

theorem runSet_frame (set : List Bool) (s : State) :
    Frame [.key, .upd] s (runSet set s) := by
  unfold runSet
  with_reducible repeat' first
    | assumption
    | decide
    | apply Frame.refl
    | (lift_lets; intro x; apply Frame.cut x ?_ (fun _ => ?_); subst x; rotate_left; clear_value x; rotate_right)
    | (lift_lets; intro x; apply Frame.cut x.1 ?_ (fun _ => ?_); subst x; rotate_left; clear_value x; rotate_right)
    | (lift_lets; intro x; clear_value x)
    | apply Frame.via (measure_frame ..)
    | apply Frame.ite
    | split
    | apply Frame.set_upd

theorem startChannels_frame (s : State) :
    Frame [.mbx, .log, .vz, .ch] s (startChannels s) := by
  unfold startChannels
  with_reducible repeat' first
    | assumption
    | decide
    | apply Frame.refl
    | (lift_lets; intro x; apply Frame.cut x ?_ (fun _ => ?_); subst x; rotate_left; clear_value x; rotate_right)
    | (lift_lets; intro x; apply Frame.cut x.1 ?_ (fun _ => ?_); subst x; rotate_left; clear_value x; rotate_right)
    | (lift_lets; intro x; clear_value x)
    | apply Frame.via (assignProfile_frame ..)
    | apply Frame.ite
    | apply Frame.foldl
    | apply Frame.foldl1
    | intro _
    | split
    | apply Frame.set_ch

theorem startPairs_frame (s : State) :
    Frame [.saf] s (startPairs s) := by
  unfold startPairs
  with_reducible repeat' first
    | assumption
    | decide
    | apply Frame.refl
    | (lift_lets; intro x; apply Frame.cut x ?_ (fun _ => ?_); subst x; rotate_left; clear_value x; rotate_right)
    | (lift_lets; intro x; apply Frame.cut x.1 ?_ (fun _ => ?_); subst x; rotate_left; clear_value x; rotate_right)
    | (lift_lets; intro x; clear_value x)
    | apply Frame.ite
    | split
    | apply Frame.set_saf

theorem seedGens_frame (s : State) :
    Frame [.vz, .free] s (seedGens s) := by
  unfold seedGens
  with_reducible repeat' first
    | assumption
    | decide
    | apply Frame.refl
    | apply Frame.ite
    | split
    | apply Frame.set_vz_free

theorem startOwners_frame (s : State) :
    Frame [.tb] s (startOwners s) := by
  unfold startOwners
  with_reducible repeat' first
    | assumption
    | decide
    | apply Frame.refl
    | apply Frame.via (State.modView_frame ..)
    | apply Frame.ite
    | apply Frame.foldl
    | apply Frame.foldl1
    | intro _

theorem twinStart_frame (s : State) :
    Frame [.mbx, .log, .vz, .ch, .twin] s (twinStart s) := by
  unfold twinStart
  with_reducible repeat' first
    | assumption
    | decide
    | apply Frame.refl
    | (lift_lets; intro x; apply Frame.cut x ?_ (fun _ => ?_); subst x; rotate_left; clear_value x; rotate_right)
    | (lift_lets; intro x; apply Frame.cut x.1 ?_ (fun _ => ?_); subst x; rotate_left; clear_value x; rotate_right)
    | (lift_lets; intro x; clear_value x)
    | apply Frame.via (setRole_frame ..)
    | apply Frame.ite
    | split
    | apply Frame.set_twin

theorem startStep8_frame (s : State) :
    Frame [.sys, .mbx, .log, .tb, .vz, .saf, .cfg, .ch, .rfx, .twin, .brg, .fio, .esw, .upd, .free] s (startStep8 s) := by
  unfold startStep8
  with_reducible repeat' first
    | assumption
    | decide
    | apply Frame.refl
    | (lift_lets; intro x; apply Frame.cut x ?_ (fun _ => ?_); subst x; rotate_left; clear_value x; rotate_right)
    | (lift_lets; intro x; apply Frame.cut x.1 ?_ (fun _ => ?_); subst x; rotate_left; clear_value x; rotate_right)
    | (lift_lets; intro x; clear_value x)
    | apply Frame.via (createList_frame ..)
    | apply Frame.via (openService_frame ..)
    | apply Frame.via (raiseCh_frame ..)
    | apply Frame.via (seedGens_frame ..)
    | apply Frame.via (startChannels_frame ..)
    | apply Frame.via (startOwners_frame ..)
    | apply Frame.via (startPairs_frame ..)
    | apply Frame.via (twinStart_frame ..)
    | apply Frame.ite
    | apply Frame.foldl
    | apply Frame.foldl1
    | intro _
    | split
    | apply Frame.set_fio
    | apply Frame.set_sys
    | apply Frame.set_rfx_brg

theorem startStep9_frame (s : State) :
    Frame [.mbx, .log, .vz, .ring, .esw] s (startStep9 s) := by
  unfold startStep9
  with_reducible repeat' first
    | assumption
    | decide
    | apply Frame.refl
    | (lift_lets; intro x; apply Frame.cut x ?_ (fun _ => ?_); subst x; rotate_left; clear_value x; rotate_right)
    | (lift_lets; intro x; apply Frame.cut x.1 ?_ (fun _ => ?_); subst x; rotate_left; clear_value x; rotate_right)
    | (lift_lets; intro x; clear_value x)
    | apply Frame.via (State.modRing_frame ..)
    | apply Frame.via (eswStart_frame ..)
    | apply Frame.via (ringStart_frame ..)

theorem startStep10_frame (s : State) :
    Frame [.sys, .mbx, .log, .vz, .net] s (startStep10 s) := by
  unfold startStep10
  with_reducible repeat' first
    | assumption
    | decide
    | apply Frame.refl
    | (lift_lets; intro x; apply Frame.cut x ?_ (fun _ => ?_); subst x; rotate_left; clear_value x; rotate_right)
    | (lift_lets; intro x; apply Frame.cut x.1 ?_ (fun _ => ?_); subst x; rotate_left; clear_value x; rotate_right)
    | (lift_lets; intro x; clear_value x)
    | apply Frame.via (canConfigure_frame ..)
    | apply Frame.via (canWakeCh_frame ..)
    | apply Frame.via (linConfigure_frame ..)
    | apply Frame.via (nmSet_frame ..)
    | apply Frame.via (raiseCan_frame ..)
    | apply Frame.ite
    | apply Frame.foldl
    | apply Frame.foldl1
    | intro _
    | split
    | apply Frame.set_sys_net

theorem startConfigure_frame (s : State) :
    Frame [.sys, .mbx, .log, .tb, .vz, .saf, .cfg, .ch, .rfx, .twin, .brg, .fio, .ring, .esw, .net, .upd, .free] s (startConfigure s) := by
  unfold startConfigure
  with_reducible repeat' first
    | assumption
    | decide
    | apply Frame.refl
    | apply Frame.via (startStep10_frame ..)
    | apply Frame.via (startStep8_frame ..)
    | apply Frame.via (startStep9_frame ..)

theorem startSet_frame (f : StartFacts) (s : State) :
    Frame [.sys, .mbx, .log, .tb, .vz, .saf, .cfg, .ch, .rfx, .twin, .brg, .fio, .ring, .esw, .net, .sig, .key, .upd, .uds, .free] s (startSet f s) := by
  unfold startSet
  with_reducible repeat' first
    | assumption
    | decide
    | apply Frame.refl
    | (lift_lets; intro x; apply Frame.cut x ?_ (fun _ => ?_); subst x; rotate_left; clear_value x; rotate_right)
    | (lift_lets; intro x; apply Frame.cut x.1 ?_ (fun _ => ?_); subst x; rotate_left; clear_value x; rotate_right)
    | (lift_lets; intro x; clear_value x)
    | apply Frame.via (badCopies_frame ..)
    | apply Frame.via (basecampEnter_frame ..)
    | apply Frame.via (chooseSet_frame ..)
    | apply Frame.via (runSet_frame ..)
    | apply Frame.via (startConfigure_frame ..)
    | apply Frame.ite
    | split

theorem startRom_frame (f : StartFacts) (s : State) :
    Frame [.sys, .mbx, .log, .tb, .vz, .saf, .cfg, .ch, .rfx, .twin, .brg, .fio, .ring, .esw, .net, .sig, .key, .upd, .uds, .free] s (startRom f s) := by
  unfold startRom
  with_reducible repeat' first
    | assumption
    | decide
    | apply Frame.refl
    | (lift_lets; intro x; apply Frame.cut x ?_ (fun _ => ?_); subst x; rotate_left; clear_value x; rotate_right)
    | (lift_lets; intro x; apply Frame.cut x.1 ?_ (fun _ => ?_); subst x; rotate_left; clear_value x; rotate_right)
    | (lift_lets; intro x; clear_value x)
    | apply Frame.via (badCopies_frame ..)
    | apply Frame.via (basecampEnter_frame ..)
    | apply Frame.via (checkBanks_frame ..)
    | apply Frame.via (raise_frame ..)
    | apply Frame.via (startSet_frame ..)
    | apply Frame.via (takeBank_frame ..)
    | apply Frame.ite
    | split

theorem resetRelease_frame (f : StartFacts) (s : State) :
    Frame [.sys, .mbx, .log, .tb, .vz, .ch, .upd] s (resetRelease f s) := by
  unfold resetRelease
  with_reducible repeat' first
    | assumption
    | decide
    | apply Frame.refl
    | (lift_lets; intro x; apply Frame.cut x ?_ (fun _ => ?_); subst x; rotate_left; clear_value x; rotate_right)
    | (lift_lets; intro x; apply Frame.cut x.1 ?_ (fun _ => ?_); subst x; rotate_left; clear_value x; rotate_right)
    | (lift_lets; intro x; clear_value x)
    | apply Frame.via (startBegin_frame ..)
    | apply Frame.ite
    | apply Frame.set_sys

theorem startRoot_frame (s : State) :
    Frame [.sys, .mbx, .log, .vz, .key] s (startRoot s) := by
  unfold startRoot
  with_reducible repeat' first
    | assumption
    | decide
    | apply Frame.refl
    | apply Frame.via (startKeys_frame ..)
    | apply Frame.ite
    | split
    | apply Frame.set_sys
    | dsimp only

theorem startGoesOn_frame (s : State) :
    Frame [.sys, .mbx, .log, .tb, .vz, .saf, .cfg, .ch, .rfx, .twin, .brg, .fio, .ring, .esw, .net, .sig, .key, .upd, .uds, .free] s (startGoesOn s) := by
  unfold startGoesOn
  with_reducible repeat' first
    | assumption
    | decide
    | apply Frame.refl
    | (lift_lets; intro x; apply Frame.cut x ?_ (fun _ => ?_); subst x; rotate_left; clear_value x; rotate_right)
    | (lift_lets; intro x; apply Frame.cut x.1 ?_ (fun _ => ?_); subst x; rotate_left; clear_value x; rotate_right)
    | (lift_lets; intro x; clear_value x)
    | apply Frame.via (basecampEnter_frame ..)
    | apply Frame.via (raise_frame ..)
    | apply Frame.via (startRom_frame ..)
    | apply Frame.via (startRoot_frame ..)
    | apply Frame.ite
    | split
    | dsimp only

theorem execResetRelease_frame (f : StartFacts) (s : State) :
    Framed [.sys, .mbx, .log, .tb, .vz, .ch, .upd] s (execResetRelease f s) := by
  unfold execResetRelease
  with_reducible repeat' first
    | apply Framed.next
    | assumption
    | decide
    | apply Frame.refl
    | apply Frame.via (resetRelease_frame ..)

theorem startTables_frame (s : State) :
    Frame [.sys, .mbx, .log, .tb, .vz, .cfg, .ch, .rfx, .twin, .brg, .fio, .net, .sig, .key, .upd, .free] s (startTables s) := by
  unfold startTables
  with_reducible repeat' first
    | assumption
    | decide
    | apply Frame.refl
    | (lift_lets; intro x; apply Frame.cut x ?_ (fun _ => ?_); subst x; rotate_left; clear_value x; rotate_right)
    | (lift_lets; intro x; apply Frame.cut x.1 ?_ (fun _ => ?_); subst x; rotate_left; clear_value x; rotate_right)
    | (lift_lets; intro x; clear_value x)
    | apply Frame.via (evalRules_frame ..)
    | apply Frame.via (measure_frame ..)
    | apply Frame.via (selfArrest_frame ..)
    | apply Frame.via (sigBegin_frame ..)
    | apply Frame.via (sigConfigure_frame ..)
    | apply Frame.ite
    | split
    | apply Frame.set_sys_rfx
    | dsimp only

theorem startStep13_frame (s : State) :
    Frame [.sys, .mbx, .log, .tb, .vz, .saf, .cfg, .ch, .rfx, .twin, .brg, .fio, .ring, .esw, .net, .sig, .key, .upd, .uds, .free] s (startStep13 s) := by
  unfold startStep13
  with_reducible repeat' first
    | assumption
    | decide
    | apply Frame.refl
    | apply Frame.via (State.draw_frame ..)
    | apply Frame.via (ruleFault_frame ..)
    | apply Frame.via (startTables_frame ..)
    | apply Frame.ite
    | split

theorem prove_frame (s : State) :
    Frame [.sys, .mbx, .log, .tb, .vz, .cfg, .ch, .rfx, .twin, .brg, .fio, .ring, .upd] s (prove s) := by
  unfold prove
  with_reducible repeat' first
    | assumption
    | decide
    | apply Frame.refl
    | (lift_lets; intro x; apply Frame.cut x ?_ (fun _ => ?_); subst x; rotate_left; clear_value x; rotate_right)
    | (lift_lets; intro x; apply Frame.cut x.1 ?_ (fun _ => ?_); subst x; rotate_left; clear_value x; rotate_right)
    | (lift_lets; intro x; clear_value x)
    | apply Frame.via (evalRules_frame ..)
    | apply Frame.via (limpEntry_frame ..)
    | apply Frame.via (runEntry_frame ..)
    | apply Frame.via (selfArrest_frame ..)
    | apply Frame.ite
    | split
    | apply Frame.set_sys

theorem advance_frame (s : State) :
    Frame [.sys, .mbx, .log, .tb, .vz, .saf, .cfg, .ch, .rfx, .twin, .brg, .fio, .ring, .esw, .net, .sig, .key, .upd, .uds, .free] s (advance s) := by
  unfold advance
  with_reducible repeat' first
    | assumption
    | decide
    | apply Frame.refl
    | (lift_lets; intro x; apply Frame.cut x ?_ (fun _ => ?_); subst x; rotate_left; clear_value x; rotate_right)
    | (lift_lets; intro x; apply Frame.cut x.1 ?_ (fun _ => ?_); subst x; rotate_left; clear_value x; rotate_right)
    | (lift_lets; intro x; clear_value x)
    | apply Frame.via (prove_frame ..)
    | apply Frame.via (startStep13_frame ..)
    | apply Frame.ite

theorem pllLock_frame (s : State) :
    Frame [.sys, .mbx, .log, .tb, .vz, .saf, .cfg, .ch, .rfx, .twin, .brg, .fio, .ring, .esw, .net, .sig, .key, .upd, .uds, .free] s (pllLock s) := by
  unfold pllLock
  with_reducible repeat' first
    | assumption
    | decide
    | apply Frame.refl
    | (lift_lets; intro x; apply Frame.cut x ?_ (fun _ => ?_); subst x; rotate_left; clear_value x; rotate_right)
    | (lift_lets; intro x; apply Frame.cut x.1 ?_ (fun _ => ?_); subst x; rotate_left; clear_value x; rotate_right)
    | (lift_lets; intro x; clear_value x)
    | apply Frame.via (State.modCan_frame ..)
    | apply Frame.via (advance_frame ..)
    | apply Frame.via (startGoesOn_frame ..)
    | apply Frame.ite
    | split
    | apply Frame.set_sys

theorem execRootPllLock_frame (s : State) :
    Framed [.sys, .mbx, .log, .tb, .vz, .saf, .cfg, .ch, .rfx, .twin, .brg, .fio, .ring, .esw, .net, .sig, .key, .upd, .uds, .free] s (execRootPllLock s) := by
  unfold execRootPllLock
  with_reducible repeat' first
    | apply Framed.next
    | assumption
    | decide
    | apply Frame.refl
    | apply Frame.via (pllLock_frame ..)

theorem pllTimeout_frame (s : State) :
    Frame [.sys, .mbx, .log, .tb, .vz, .saf, .cfg, .ch, .rfx, .twin, .brg, .fio, .ring, .esw, .net, .sig, .key, .upd, .uds] s (pllTimeout s) := by
  unfold pllTimeout
  with_reducible repeat' first
    | assumption
    | decide
    | apply Frame.refl
    | apply Frame.via (basecampEnter_frame ..)
    | apply Frame.via (raise_frame ..)
    | apply Frame.via (startRoot_frame ..)
    | apply Frame.ite
    | split
    | apply Frame.set_sys

theorem execPllLockTimeout_frame (s : State) :
    Framed [.sys, .mbx, .log, .tb, .vz, .saf, .cfg, .ch, .rfx, .twin, .brg, .fio, .ring, .esw, .net, .sig, .key, .upd, .uds] s (execPllLockTimeout s) := by
  unfold execPllLockTimeout
  with_reducible repeat' first
    | apply Framed.next
    | assumption
    | decide
    | apply Frame.refl
    | apply Frame.via (pllTimeout_frame ..)

theorem tableAck_frame (g : Nat) (s : State) :
    Frame [.sys, .mbx, .log, .tb, .vz, .saf, .cfg, .ch, .rfx, .twin, .brg, .fio, .ring, .esw, .net, .sig, .key, .upd, .uds, .free] s (tableAck g s) := by
  unfold tableAck
  with_reducible repeat' first
    | assumption
    | decide
    | apply Frame.refl
    | apply Frame.via (State.modDie_frame ..)
    | apply Frame.via (advance_frame ..)
    | apply Frame.ite

theorem execPowerDieTableAck_frame (die : Fin 8) (s : State) :
    Framed [.sys, .mbx, .log, .tb, .vz, .saf, .cfg, .ch, .rfx, .twin, .brg, .fio, .ring, .esw, .net, .sig, .key, .upd, .uds, .free] s (execPowerDieTableAck die s) := by
  unfold execPowerDieTableAck
  with_reducible repeat' first
    | apply Framed.next
    | assumption
    | decide
    | apply Frame.refl
    | apply Frame.via (tableAck_frame ..)

theorem execPdlAckTimeout_frame (die : Fin 8) (s : State) :
    Framed [.mbx, .log, .vz] s (execPdlAckTimeout die s) := by
  unfold execPdlAckTimeout
  with_reducible repeat' first
    | apply Framed.next
    | assumption
    | decide
    | apply Frame.refl
    | apply Frame.via (raise_frame ..)
    | apply Frame.ite

theorem execPdlAckRetry_frame (die : Fin 8) (s : State) :
    Framed [.ch] s (execPdlAckRetry die s) := by
  unfold execPdlAckRetry
  with_reducible repeat' first
    | apply Framed.next
    | assumption
    | decide
    | apply Frame.refl
    | apply Frame.via (State.modDie_frame ..)
    | apply Frame.ite

theorem vinCheck_frame (inside : Bool) (s : State) :
    Frame [.sys, .mbx, .log, .tb, .vz, .saf, .cfg, .ch, .rfx, .twin, .brg, .fio, .ring, .esw, .net, .sig, .key, .upd, .uds, .free] s (vinCheck inside s) := by
  unfold vinCheck
  with_reducible repeat' first
    | assumption
    | decide
    | apply Frame.refl
    | (lift_lets; intro x; apply Frame.cut x ?_ (fun _ => ?_); subst x; rotate_left; clear_value x; rotate_right)
    | (lift_lets; intro x; apply Frame.cut x.1 ?_ (fun _ => ?_); subst x; rotate_left; clear_value x; rotate_right)
    | (lift_lets; intro x; clear_value x)
    | apply Frame.via (advance_frame ..)
    | apply Frame.via (enterStopped_frame ..)
    | apply Frame.via (raise_frame ..)
    | apply Frame.via (urgent_frame ..)
    | apply Frame.ite
    | split
    | apply Frame.set_sys

theorem execVinClassCheck_frame (inside : Bool) (s : State) :
    Framed [.sys, .mbx, .log, .tb, .vz, .saf, .cfg, .ch, .rfx, .twin, .brg, .fio, .ring, .esw, .net, .sig, .key, .upd, .uds, .free] s (execVinClassCheck inside s) := by
  unfold execVinClassCheck
  with_reducible repeat' first
    | apply Framed.next
    | assumption
    | decide
    | apply Frame.refl
    | apply Frame.via (vinCheck_frame ..)

theorem placeParts_frame (s : State) :
    Frame [.saf] s (placeParts s) := by
  unfold placeParts
  with_reducible repeat' first
    | assumption
    | decide
    | apply Frame.refl
    | (lift_lets; intro x; apply Frame.cut x ?_ (fun _ => ?_); subst x; rotate_left; clear_value x; rotate_right)
    | (lift_lets; intro x; apply Frame.cut x.1 ?_ (fun _ => ?_); subst x; rotate_left; clear_value x; rotate_right)
    | (lift_lets; intro x; clear_value x)
    | apply Frame.via (moveParts_frame ..)
    | apply Frame.ite
    | apply Frame.foldl
    | apply Frame.foldl1
    | intro _
    | split

theorem injectionDone_frame (p : Nat) (pass : Bool) (s : State) :
    Frame [.sys, .mbx, .log, .tb, .vz, .saf, .cfg, .ch, .rfx, .twin, .brg, .fio, .ring, .esw, .net, .sig, .key, .upd, .uds, .free] s (injectionDone p pass s) := by
  unfold injectionDone
  with_reducible repeat' first
    | assumption
    | decide
    | apply Frame.refl
    | (lift_lets; intro x; apply Frame.cut x ?_ (fun _ => ?_); subst x; rotate_left; clear_value x; rotate_right)
    | (lift_lets; intro x; apply Frame.cut x.1 ?_ (fun _ => ?_); subst x; rotate_left; clear_value x; rotate_right)
    | (lift_lets; intro x; clear_value x)
    | apply Frame.via (State.modPair_frame ..)
    | apply Frame.via (advance_frame ..)
    | apply Frame.via (placeParts_frame ..)
    | apply Frame.via (raiseSaf_frame ..)
    | apply Frame.ite

theorem execPairInjectionTestDone_frame (pair : Fin 4) (pass : Bool) (s : State) :
    Framed [.sys, .mbx, .log, .tb, .vz, .saf, .cfg, .ch, .rfx, .twin, .brg, .fio, .ring, .esw, .net, .sig, .key, .upd, .uds, .free] s (execPairInjectionTestDone pair pass s) := by
  unfold execPairInjectionTestDone
  with_reducible repeat' first
    | apply Framed.next
    | assumption
    | decide
    | apply Frame.refl
    | apply Frame.via (injectionDone_frame ..)

theorem clusterServing_frame (s : State) :
    Frame [.sys, .mbx, .log, .tb, .vz, .saf, .cfg, .ch, .rfx, .twin, .brg, .fio, .ring, .esw, .net, .sig, .key, .upd, .uds, .free] s (clusterServing s) := by
  unfold clusterServing
  with_reducible repeat' first
    | assumption
    | decide
    | apply Frame.refl
    | (lift_lets; intro x; apply Frame.cut x ?_ (fun _ => ?_); subst x; rotate_left; clear_value x; rotate_right)
    | (lift_lets; intro x; apply Frame.cut x.1 ?_ (fun _ => ?_); subst x; rotate_left; clear_value x; rotate_right)
    | (lift_lets; intro x; clear_value x)
    | apply Frame.via (advance_frame ..)
    | apply Frame.ite
    | split
    | apply Frame.set_saf

theorem execSafetyClusterServing_frame (s : State) :
    Framed [.sys, .mbx, .log, .tb, .vz, .saf, .cfg, .ch, .rfx, .twin, .brg, .fio, .ring, .esw, .net, .sig, .key, .upd, .uds, .free] s (execSafetyClusterServing s) := by
  unfold execSafetyClusterServing
  with_reducible repeat' first
    | apply Framed.next
    | assumption
    | decide
    | apply Frame.refl
    | apply Frame.via (clusterServing_frame ..)

theorem ddrDone_frame (s : State) :
    Frame [.sys, .key] s (ddrDone s) := by
  unfold ddrDone
  with_reducible repeat' first
    | assumption
    | decide
    | apply Frame.refl
    | apply Frame.via (measure_frame ..)
    | apply Frame.ite
    | split
    | apply Frame.set_sys

theorem execDdrTrainingDone_frame (s : State) :
    Framed [.sys, .key] s (execDdrTrainingDone s) := by
  unfold execDdrTrainingDone
  with_reducible repeat' first
    | apply Framed.next
    | assumption
    | decide
    | apply Frame.refl
    | apply Frame.via (ddrDone_frame ..)

theorem forcedBasecamp_frame (s : State) :
    Frame [.sys, .mbx, .log, .tb, .vz, .saf, .cfg, .ch, .rfx, .twin, .brg, .fio, .ring, .esw, .net, .sig, .key, .upd, .uds] s (forcedBasecamp s) := by
  unfold forcedBasecamp
  with_reducible repeat' first
    | assumption
    | decide
    | apply Frame.refl
    | apply Frame.via (basecampEnter_frame ..)
    | apply Frame.via (startRoot_frame ..)
    | apply Frame.ite

theorem execForcedBasecampCheck_frame (s : State) :
    Framed [.sys, .mbx, .log, .tb, .vz, .saf, .cfg, .ch, .rfx, .twin, .brg, .fio, .ring, .esw, .net, .sig, .key, .upd, .uds] s (execForcedBasecampCheck s) := by
  unfold execForcedBasecampCheck
  with_reducible repeat' first
    | apply Framed.next
    | assumption
    | decide
    | apply Frame.refl
    | apply Frame.via (forcedBasecamp_frame ..)

theorem workshopTimeout_frame (s : State) :
    Frame [.sys, .mbx, .log, .tb, .vz, .saf, .cfg, .ch, .rfx, .twin, .brg, .fio, .ring, .esw, .net, .sig, .upd, .uds] s (workshopTimeout s) := by
  unfold workshopTimeout
  with_reducible repeat' first
    | assumption
    | decide
    | apply Frame.refl
    | apply Frame.via (raise_frame ..)
    | apply Frame.via (restartCause_frame ..)
    | apply Frame.ite

theorem execWorkshopInactivityTimeout_frame (s : State) :
    Framed [.sys, .mbx, .log, .tb, .vz, .saf, .cfg, .ch, .rfx, .twin, .brg, .fio, .ring, .esw, .net, .sig, .upd, .uds] s (execWorkshopInactivityTimeout s) := by
  unfold execWorkshopInactivityTimeout
  with_reducible repeat' first
    | apply Framed.next
    | assumption
    | decide
    | apply Frame.refl
    | apply Frame.via (workshopTimeout_frame ..)

end Sys2Proof.Machine

end
end

