-- ==== Sys2Proof/Laws/Frames/Sys.lean ====
section
/-! SUPPORT. The frame of each function of `Machine/Sys.lean`: the parts of the state it may change. -/

section

set_option Elab.async false

namespace Sys2Proof.Machine

theorem workshopEnter_frame (s : State) :
    Frame [.sys, .mbx, .log, .vz, .cfg, .ch, .rfx, .twin, .brg, .fio, .upd] s (workshopEnter s) := by
  unfold workshopEnter
  with_reducible repeat' first
    | assumption
    | decide
    | apply Frame.refl
    | (lift_lets; intro x; apply Frame.cut x ?_ (fun _ => ?_); subst x; rotate_left; clear_value x; rotate_right)
    | (lift_lets; intro x; apply Frame.cut x.1 ?_ (fun _ => ?_); subst x; rotate_left; clear_value x; rotate_right)
    | (lift_lets; intro x; clear_value x)
    | apply Frame.via (pushAll_frame ..)
    | apply Frame.via (setMode_frame ..)
    | apply Frame.via (twinRelease_frame ..)
    | apply Frame.ite
    | split
    | apply Frame.set_rfx
    | apply Frame.set_sys

theorem enterWorkshopBody_frame (nonce : Nat) (sigOk : Bool) (s : State) :
    Frame [.sys, .mbx, .log, .vz, .cfg, .ch, .rfx, .twin, .brg, .fio, .upd] s (enterWorkshopBody nonce sigOk s).1 := by
  unfold enterWorkshopBody
  with_reducible repeat' first
    | assumption
    | decide
    | apply Frame.refl
    | (lift_lets; intro x; apply Frame.cut x ?_ (fun _ => ?_); subst x; rotate_left; clear_value x; rotate_right)
    | (lift_lets; intro x; apply Frame.cut x.1 ?_ (fun _ => ?_); subst x; rotate_left; clear_value x; rotate_right)
    | (lift_lets; intro x; clear_value x)
    | apply Frame.via (raise_frame ..)
    | apply Frame.via (useNonce_frame ..)
    | apply Frame.via (workshopEnter_frame ..)
    | apply Frame.ite
    | apply Frame.ite1

theorem execSysEnterWorkshop_frame (r : Req) (nonce : Nat) (sigOk : Bool) (s : State) :
    Framed [.sys, .mbx, .log, .vz, .cfg, .ch, .rfx, .twin, .brg, .fio, .upd] s (execSysEnterWorkshop r nonce sigOk s) := by
  unfold execSysEnterWorkshop
  with_reducible repeat' first
    | apply Framed.next
    | assumption
    | decide
    | apply Frame.refl
    | apply Frame.via (enterWorkshopBody_frame ..)
    | apply runCmd_frame
    | apply Frame.ite
    | intro _

theorem execSysLeaveWorkshop_frame (r : Req) (s : State) :
    Framed [.sys, .mbx, .log, .tb, .vz, .saf, .cfg, .ch, .rfx, .twin, .brg, .fio, .ring, .esw, .net, .sig, .upd, .uds] s (execSysLeaveWorkshop r s) := by
  unfold execSysLeaveWorkshop
  with_reducible repeat' first
    | apply Framed.next
    | assumption
    | decide
    | apply Frame.refl
    | apply Frame.via (answerRestart_frame ..)
    | apply runLater_frame
    | apply Frame.ite
    | intro _

theorem restartBody_frame (r : Req) (nonce : Nat) (sigOk : Bool) (s : State) :
    Frame [.sys, .mbx, .log, .tb, .vz, .saf, .cfg, .ch, .rfx, .twin, .brg, .fio, .ring, .esw, .net, .sig, .upd, .uds] s (restartBody r nonce sigOk s).1 := by
  unfold restartBody
  with_reducible repeat' first
    | assumption
    | decide
    | apply Frame.refl
    | (lift_lets; intro x; apply Frame.cut x ?_ (fun _ => ?_); subst x; rotate_left; clear_value x; rotate_right)
    | (lift_lets; intro x; apply Frame.cut x.1 ?_ (fun _ => ?_); subst x; rotate_left; clear_value x; rotate_right)
    | (lift_lets; intro x; clear_value x)
    | apply Frame.via (answerRestart_frame ..)
    | apply Frame.via (useNonce_frame ..)
    | apply Frame.ite
    | apply Frame.ite1

theorem execSysRestart_frame (r : Req) (nonce : Nat) (sigOk : Bool) (s : State) :
    Framed [.sys, .mbx, .log, .tb, .vz, .saf, .cfg, .ch, .rfx, .twin, .brg, .fio, .ring, .esw, .net, .sig, .upd, .uds] s (execSysRestart r nonce sigOk s) := by
  unfold execSysRestart
  with_reducible repeat' first
    | apply Framed.next
    | assumption
    | decide
    | apply Frame.refl
    | apply Frame.via (restartBody_frame ..)
    | apply runLater_frame
    | apply Frame.ite
    | intro _

theorem execSysEnterBasecamp_frame (r : Req) (s : State) :
    Framed [.sys, .mbx, .log, .tb, .vz, .saf, .cfg, .ch, .rfx, .twin, .brg, .fio, .ring, .esw, .net, .sig, .upd, .uds] s (execSysEnterBasecamp r s) := by
  unfold execSysEnterBasecamp
  with_reducible repeat' first
    | apply Framed.next
    | assumption
    | decide
    | apply Frame.refl
    | apply Frame.via (basecampEnter_frame ..)
    | apply Frame.via (leaveRsp_frame ..)
    | apply runLater_frame
    | apply Frame.ite
    | intro _

theorem getModeBody_frame (s : State) :
    Frame [.sys, .free] s (getModeBody s).1 := by
  unfold getModeBody
  with_reducible repeat' first
    | assumption
    | decide
    | apply Frame.refl
    | (lift_lets; intro x; apply Frame.cut x ?_ (fun _ => ?_); subst x; rotate_left; clear_value x; rotate_right)
    | (lift_lets; intro x; apply Frame.cut x.1 ?_ (fun _ => ?_); subst x; rotate_left; clear_value x; rotate_right)
    | (lift_lets; intro x; clear_value x)
    | apply Frame.via (issueNonce_frame ..)
    | apply Frame.ite
    | apply Frame.ite1

theorem execSysGetMode_frame (r : Req) (s : State) :
    Framed [.sys, .mbx, .vz, .free] s (execSysGetMode r s) := by
  unfold execSysGetMode
  with_reducible repeat' first
    | apply Framed.next
    | assumption
    | decide
    | apply Frame.refl
    | apply Frame.via (getModeBody_frame ..)
    | apply runCmd_frame
    | apply Frame.ite
    | intro _

theorem challengeBody_frame (s : State) :
    Frame [.sys, .free] s (challengeBody s).1 := by
  unfold challengeBody
  with_reducible repeat' first
    | assumption
    | decide
    | apply Frame.refl
    | (lift_lets; intro x; apply Frame.cut x ?_ (fun _ => ?_); subst x; rotate_left; clear_value x; rotate_right)
    | (lift_lets; intro x; apply Frame.cut x.1 ?_ (fun _ => ?_); subst x; rotate_left; clear_value x; rotate_right)
    | (lift_lets; intro x; clear_value x)
    | apply Frame.via (issueNonce_frame ..)
    | apply Frame.ite
    | apply Frame.ite1

theorem execSysChallenge_frame (r : Req) (s : State) :
    Framed [.sys, .mbx, .vz, .free] s (execSysChallenge r s) := by
  unfold execSysChallenge
  with_reducible repeat' first
    | apply Framed.next
    | assumption
    | decide
    | apply Frame.refl
    | apply Frame.via (challengeBody_frame ..)
    | apply runCmd_frame
    | apply Frame.ite
    | intro _

end Sys2Proof.Machine

end
end

