-- ==== Sys2Proof/Laws/Frames/Tick.lean ====
section
/-! SUPPORT. The frame of each function of `Machine/Tick.lean`: the parts of the state it may change. -/

section

set_option Elab.async false

namespace Sys2Proof.Machine

theorem tick_frame (s : State) :
    Frame [.sys, .tb] s (tick s) := by
  unfold tick
  with_reducible repeat' first
    | assumption
    | decide
    | apply Frame.refl
    | (lift_lets; intro x; apply Frame.cut x ?_ (fun _ => ?_); subst x; rotate_left; clear_value x; rotate_right)
    | (lift_lets; intro x; apply Frame.cut x.1 ?_ (fun _ => ?_); subst x; rotate_left; clear_value x; rotate_right)
    | (lift_lets; intro x; clear_value x)
    | apply Frame.ite
    | split
    | apply Frame.set_sys_tb

end Sys2Proof.Machine

end
end

