-- ==== Sys2Proof/Laws/Frames/Uds.lean ====
section
/-! SUPPORT. The frame of each function of `Machine/Uds.lean`: the parts of the state it may change. -/

section

set_option Elab.async false

namespace Sys2Proof.Machine

theorem State.modUds_frame (s : State) (f : UdsState → UdsState) :
    Frame [.uds] s (State.modUds s f) := by
  unfold State.modUds
  with_reducible repeat' first
    | assumption
    | decide
    | apply Frame.refl
    | apply Frame.ite
    | split
    | apply Frame.set_uds

theorem udsServe_frame {w : List Part} {s0 s : State} (sid : Byte) (f : State → State × UdsAnswer)
    (sub : Part.sub [.uds] w = true) (h : Frame w s0 s) (hf : Frame w s0 (f s).1) : Frame w s0 (udsServe sid f s) := by
  unfold udsServe
  split
  · exact h
  · split
    · exact Frame.via (State.modUds_frame ..) sub h
    · exact Frame.via (State.modUds_frame ..) sub hf

theorem needP_frame {w : List Part} {s0 s : State} {y : State × UdsAnswer} (h : Frame w s0 s) (hy : Frame w s0 y.1) :
    Frame w s0 (needP s y).1 := by
  unfold needP
  split <;> assumption

theorem needS_frame {w : List Part} {s0 s : State} {y : State × UdsAnswer} (h : Frame w s0 s) (hy : Frame w s0 y.1) :
    Frame w s0 (needS s y).1 := by
  unfold needS
  split <;> assumption

theorem udsSession_frame (sub : Byte) (s : State) :
    Frame [.uds] s (udsSession sub s).1 := by
  unfold udsSession
  with_reducible repeat' first
    | assumption
    | decide
    | apply Frame.refl
    | apply Frame.via (State.modUds_frame ..)
    | apply Frame.ite
    | apply Frame.ite1

theorem execUdsSessionControl_frame (sub : Byte) (s : State) :
    Framed [.uds] s (execUdsSessionControl sub s) := by
  unfold execUdsSessionControl
  with_reducible repeat' first
    | apply Framed.next
    | assumption
    | decide
    | apply Frame.refl
    | apply udsServe_frame
    | apply Frame.via (udsSession_frame ..)

theorem execUdsEcuReset_frame (sub : Byte) (s : State) :
    Framed [.sys, .mbx, .log, .tb, .vz, .saf, .cfg, .ch, .rfx, .twin, .brg, .fio, .ring, .esw, .net, .sig, .upd, .uds] s (execUdsEcuReset sub s) := by
  unfold execUdsEcuReset
  with_reducible repeat' first
    | apply Framed.next
    | assumption
    | decide
    | apply Frame.refl
    | (lift_lets; intro x; apply Frame.cut x ?_ (fun _ => ?_); subst x; rotate_left; clear_value x; rotate_right)
    | (lift_lets; intro x; apply Frame.cut x.1 ?_ (fun _ => ?_); subst x; rotate_left; clear_value x; rotate_right)
    | (lift_lets; intro x; clear_value x)
    | apply Frame.via (clearLoop_frame ..)
    | apply needS_frame
    | apply Frame.via (restartCause_frame ..)
    | apply udsServe_frame
    | apply Frame.ite
    | intro _
    | split

theorem udsTester_frame (sub : Byte) (s : State) :
    Frame [] s (udsTester sub s).1 := by
  unfold udsTester
  with_reducible repeat' first
    | assumption
    | decide
    | apply Frame.refl
    | apply Frame.ite
    | apply Frame.ite1

theorem execUdsTesterPresent_frame (sub : Byte) (s : State) :
    Framed [.uds] s (execUdsTesterPresent sub s) := by
  unfold execUdsTesterPresent
  with_reducible repeat' first
    | apply Framed.next
    | assumption
    | decide
    | apply Frame.refl
    | apply udsServe_frame
    | apply Frame.via (udsTester_frame ..)

theorem execUdsS3Timeout_frame (s : State) :
    Framed [.upd, .uds] s (execUdsS3Timeout s) := by
  unfold execUdsS3Timeout
  with_reducible repeat' first
    | apply Framed.next
    | assumption
    | decide
    | apply Frame.refl
    | apply Frame.via (State.modUds_frame ..)
    | apply Frame.via (updDiscardOpen_frame ..)

theorem execBasecampPortIdle_frame (s : State) :
    Framed [.uds] s (execBasecampPortIdle s) := by
  unfold execBasecampPortIdle
  with_reducible repeat' first
    | apply Framed.next
    | assumption
    | decide
    | apply Frame.refl
    | apply Frame.via (State.modUds_frame ..)

theorem udsRead_frame (id : U16) (s : State) :
    Frame [] s (udsRead id s).1 := by
  unfold udsRead
  with_reducible repeat' first
    | assumption
    | decide
    | apply Frame.refl
    | (lift_lets; intro x; apply Frame.cut x ?_ (fun _ => ?_); subst x; rotate_left; clear_value x; rotate_right)
    | (lift_lets; intro x; apply Frame.cut x.1 ?_ (fun _ => ?_); subst x; rotate_left; clear_value x; rotate_right)
    | (lift_lets; intro x; clear_value x)
    | apply Frame.ite
    | apply Frame.ite1

theorem execUdsReadDataById_frame (id : U16) (s : State) :
    Framed [.uds] s (execUdsReadDataById id s) := by
  unfold execUdsReadDataById
  with_reducible repeat' first
    | apply Framed.next
    | assumption
    | decide
    | apply Frame.refl
    | apply Frame.via (udsRead_frame ..)
    | apply udsServe_frame

theorem udsSeed_frame (s : State) :
    Frame [.sys, .uds, .free] s (udsSeed s).1 := by
  unfold udsSeed
  with_reducible repeat' first
    | assumption
    | decide
    | apply Frame.refl
    | (lift_lets; intro x; apply Frame.cut x ?_ (fun _ => ?_); subst x; rotate_left; clear_value x; rotate_right)
    | (lift_lets; intro x; apply Frame.cut x.1 ?_ (fun _ => ?_); subst x; rotate_left; clear_value x; rotate_right)
    | (lift_lets; intro x; clear_value x)
    | apply Frame.via (State.modUds_frame ..)
    | apply Frame.via (issueNonce_frame ..)
    | apply needP_frame
    | apply Frame.ite
    | apply Frame.ite1

theorem execUdsRequestSeed_frame (s : State) :
    Framed [.sys, .uds, .free] s (execUdsRequestSeed s) := by
  unfold execUdsRequestSeed
  with_reducible repeat' first
    | apply Framed.next
    | assumption
    | decide
    | apply Frame.refl
    | apply Frame.via (udsSeed_frame ..)
    | apply udsServe_frame

theorem wrongKey_frame (s : State) :
    Frame [.uds] s (wrongKey s).1 := by
  unfold wrongKey
  with_reducible repeat' first
    | assumption
    | decide
    | apply Frame.refl
    | apply Frame.via (State.modUds_frame ..)
    | apply Frame.ite
    | apply Frame.ite1

theorem udsKey_frame (sigOk : Bool) (s : State) :
    Frame [.sys, .uds] s (udsKey sigOk s).1 := by
  unfold udsKey
  with_reducible repeat' first
    | assumption
    | decide
    | apply Frame.refl
    | (lift_lets; intro x; apply Frame.cut x ?_ (fun _ => ?_); subst x; rotate_left; clear_value x; rotate_right)
    | (lift_lets; intro x; apply Frame.cut x.1 ?_ (fun _ => ?_); subst x; rotate_left; clear_value x; rotate_right)
    | (lift_lets; intro x; clear_value x)
    | apply Frame.via (State.modUds_frame ..)
    | apply needP_frame
    | apply Frame.via (useNonce_frame ..)
    | apply Frame.via (wrongKey_frame ..)
    | apply Frame.ite
    | apply Frame.ite1
    | intro _
    | split

theorem execUdsSendKey_frame (sigOk : Bool) (s : State) :
    Framed [.sys, .uds] s (execUdsSendKey sigOk s) := by
  unfold execUdsSendKey
  with_reducible repeat' first
    | apply Framed.next
    | assumption
    | decide
    | apply Frame.refl
    | apply Frame.via (udsKey_frame ..)
    | apply udsServe_frame

theorem execUdsSecurityLockoutEnd_frame (s : State) :
    Framed [.uds] s (execUdsSecurityLockoutEnd s) := by
  unfold execUdsSecurityLockoutEnd
  with_reducible repeat' first
    | apply Framed.next
    | assumption
    | decide
    | apply Frame.refl
    | apply Frame.via (State.modUds_frame ..)

theorem udsDownload_frame (format lenFormat : Byte) (target total : U32) (s : State) :
    Frame [.upd, .uds] s (udsDownload format lenFormat target total s).1 := by
  unfold udsDownload
  with_reducible repeat' first
    | assumption
    | decide
    | apply Frame.refl
    | (lift_lets; intro x; apply Frame.cut x ?_ (fun _ => ?_); subst x; rotate_left; clear_value x; rotate_right)
    | (lift_lets; intro x; apply Frame.cut x.1 ?_ (fun _ => ?_); subst x; rotate_left; clear_value x; rotate_right)
    | (lift_lets; intro x; clear_value x)
    | apply Frame.via (State.modUds_frame ..)
    | apply needS_frame
    | apply Frame.via (updOpen_frame ..)
    | apply Frame.ite
    | apply Frame.ite1
    | intro _
    | split

theorem execUdsRequestDownload_frame (format lenFormat : Byte) (target total : U32) (s : State) :
    Framed [.upd, .uds] s (execUdsRequestDownload format lenFormat target total s) := by
  unfold execUdsRequestDownload
  with_reducible repeat' first
    | apply Framed.next
    | assumption
    | decide
    | apply Frame.refl
    | apply Frame.via (udsDownload_frame ..)
    | apply udsServe_frame

theorem udsTransfer_frame (counter : Byte) (data : List Byte) (s : State) :
    Frame [.upd, .uds] s (udsTransfer counter data s).1 := by
  unfold udsTransfer
  with_reducible repeat' first
    | assumption
    | decide
    | apply Frame.refl
    | (lift_lets; intro x; apply Frame.cut x ?_ (fun _ => ?_); subst x; rotate_left; clear_value x; rotate_right)
    | (lift_lets; intro x; apply Frame.cut x.1 ?_ (fun _ => ?_); subst x; rotate_left; clear_value x; rotate_right)
    | (lift_lets; intro x; clear_value x)
    | apply Frame.via (State.modUds_frame ..)
    | apply needS_frame
    | apply Frame.via (updFill_frame ..)
    | apply Frame.ite
    | apply Frame.ite1

theorem execUdsTransferData_frame (counter : Byte) (data : List Byte) (s : State) :
    Framed [.upd, .uds] s (execUdsTransferData counter data s) := by
  unfold execUdsTransferData
  with_reducible repeat' first
    | apply Framed.next
    | assumption
    | decide
    | apply Frame.refl
    | apply udsServe_frame
    | apply Frame.via (udsTransfer_frame ..)

theorem udsExit_frame (s : State) :
    Frame [.upd] s (udsExit s).1 := by
  unfold udsExit
  with_reducible repeat' first
    | assumption
    | decide
    | apply Frame.refl
    | apply needS_frame
    | apply Frame.via (updStartVerify_frame ..)
    | apply Frame.ite
    | apply Frame.ite1

theorem execUdsRequestTransferExit_frame (s : State) :
    Framed [.upd, .uds] s (execUdsRequestTransferExit s) := by
  unfold execUdsRequestTransferExit
  with_reducible repeat' first
    | apply Framed.next
    | assumption
    | decide
    | apply Frame.refl
    | apply Frame.via (udsExit_frame ..)
    | apply udsServe_frame

theorem checked_frame {w : List Part} {s0 s : State} (st : Option U16) (y : State × Reply) (h : Frame w s0 s) (hy : Frame w s0 y.1) :
    Frame w s0 (checked st y s).1 := by
  unfold checked
  split <;> assumption

theorem udsRestart_frame (trigger : Nat) (s : State) :
    Frame [.sys, .mbx, .log, .tb, .vz, .saf, .cfg, .ch, .rfx, .twin, .brg, .fio, .ring, .esw, .net, .sig, .upd, .uds] s (udsRestart trigger s).1 := by
  unfold udsRestart
  with_reducible repeat' first
    | assumption
    | decide
    | apply Frame.refl
    | apply Frame.via (clearLoop_frame ..)
    | apply Frame.via (restartCause_frame ..)

theorem udsGyvin_frame (g : UdsGyvin) (s : State) :
    Frame [.sys, .mbx, .log, .tb, .vz, .saf, .cfg, .ch, .rfx, .twin, .brg, .fio, .ring, .esw, .net, .sig, .key, .upd, .uds, .free] s (udsGyvin g s).1 := by
  unfold udsGyvin
  with_reducible repeat' first
    | assumption
    | decide
    | apply Frame.refl
    | (lift_lets; intro x; apply Frame.cut x ?_ (fun _ => ?_); subst x; rotate_left; clear_value x; rotate_right)
    | (lift_lets; intro x; apply Frame.cut x.1 ?_ (fun _ => ?_); subst x; rotate_left; clear_value x; rotate_right)
    | (lift_lets; intro x; clear_value x)
    | apply Frame.via (State.draw_frame ..)
    | apply checked_frame
    | apply Frame.via (commitBody_frame ..)
    | apply Frame.via (eraseBody_frame ..)
    | apply Frame.via (getModeBody_frame ..)
    | apply Frame.via (identityBody_frame ..)
    | apply Frame.via (provisionBody_frame ..)
    | apply Frame.via (randomBody_frame ..)
    | apply Frame.via (slotStatusBody_frame ..)
    | apply Frame.via (udsRestart_frame ..)
    | apply Frame.via (updAbortBody_frame ..)
    | apply Frame.via (updFill_frame ..)
    | apply Frame.via (updOpen_frame ..)
    | apply Frame.via (updStartVerify_frame ..)
    | apply Frame.via (useNonce_frame ..)
    | apply Frame.ite
    | apply Frame.ite1
    | intro _
    | split

theorem udsRoutine_frame (sub : Byte) (id : U16) (g : Option UdsGyvin) (s : State) :
    Frame [.sys, .mbx, .log, .tb, .vz, .saf, .cfg, .ch, .rfx, .twin, .brg, .fio, .ring, .esw, .net, .sig, .key, .upd, .uds, .free] s (udsRoutine sub id g s).1 := by
  unfold udsRoutine
  with_reducible repeat' first
    | assumption
    | decide
    | apply Frame.refl
    | apply Frame.via (commitBody_frame ..)
    | apply needS_frame
    | apply Frame.via (udsGyvin_frame ..)
    | apply Frame.via (updAbortBody_frame ..)
    | apply Frame.ite
    | apply Frame.ite1
    | intro _
    | split

theorem execUdsRoutineControl_frame (sub : Byte) (id : U16) (gyvin : Option UdsGyvin) (s : State) :
    Framed [.sys, .mbx, .log, .tb, .vz, .saf, .cfg, .ch, .rfx, .twin, .brg, .fio, .ring, .esw, .net, .sig, .key, .upd, .uds, .free] s (execUdsRoutineControl sub id gyvin s) := by
  unfold execUdsRoutineControl
  with_reducible repeat' first
    | apply Framed.next
    | assumption
    | decide
    | apply Frame.refl
    | apply Frame.via (udsRoutine_frame ..)
    | apply udsServe_frame

end Sys2Proof.Machine

end
end

