-- ==== Sys2Proof/Laws/Mem.lean ====
section
/-! SUPPORT. What the addressed buffers do: a byte reads as it was written, a write leaves other addresses alone, and every write keeps
the canonical form. -/

section

set_option Elab.async false

namespace Sys2Proof.Machine

theorem Memory.wfFrom_mono {lo hi : Nat} (m : Memory) (h : Memory.wfFrom hi m = true) (le : lo ≤ hi) : Memory.wfFrom lo m = true := by
  cases m with
  | nil => rfl
  | cons c r =>
    obtain ⟨b, w⟩ := c
    simp only [Memory.wfFrom, Bool.and_eq_true, decide_eq_true_eq] at h ⊢
    exact ⟨⟨Nat.le_trans le h.1.1, h.1.2⟩, h.2⟩

theorem memGet_below {lo : Nat} (m : Memory) (a : Nat) (h : Memory.wfFrom lo m = true) (lt : a < lo) : memGet m a = 0 := by
  induction m generalizing lo with
  | nil => rfl
  | cons c r ih =>
    obtain ⟨b, w⟩ := c
    simp only [Memory.wfFrom, Bool.and_eq_true, decide_eq_true_eq] at h
    have hb : a ≠ b := by omega
    simp only [memGet, hb, if_false]
    exact ih h.2 (by omega)

theorem memSet_wfFrom {lo : Nat} (m : Memory) (a : Nat) (v : Byte) (h : Memory.wfFrom lo m = true) (le : lo ≤ a) :
    Memory.wfFrom lo (memSet m a v) = true := by
  induction m generalizing lo with
  | nil =>
    simp only [memSet]
    split
    · rfl
    · rename_i hv
      simpa [Memory.wfFrom, le] using hv
  | cons c r ih =>
    obtain ⟨b, w⟩ := c
    have h' := h
    simp only [Memory.wfFrom, Bool.and_eq_true, decide_eq_true_eq] at h'
    simp only [memSet]
    split
    · rename_i hab
      split
      · exact h
      · rename_i hv
        simp only [Memory.wfFrom, Bool.and_eq_true, decide_eq_true_eq]
        exact ⟨⟨le, hv⟩, ⟨by omega, h'.1.2⟩, h'.2⟩
    · split
      · rename_i _ hab
        split
        · exact Memory.wfFrom_mono r h'.2 (by omega)
        · rename_i hv
          simp only [Memory.wfFrom, Bool.and_eq_true, decide_eq_true_eq]
          exact ⟨⟨le, hv⟩, by rw [hab]; exact h'.2⟩
      · simp only [Memory.wfFrom, Bool.and_eq_true, decide_eq_true_eq]
        exact ⟨h'.1, ih h'.2 (by omega)⟩

/-- A write keeps the canonical form. -/
theorem memSet_wf (m : Memory) (a : Nat) (v : Byte) (h : m.wf = true) : (memSet m a v).wf = true := memSet_wfFrom m a v h (Nat.zero_le a)

theorem memWrite_wf (m : Memory) (a : Nat) (l : List Byte) (h : m.wf = true) : (memWrite m a l).wf = true := by
  induction l generalizing m a with
  | nil => exact h
  | cons v r ih => exact ih _ _ (memSet_wf m a v h)

theorem memWrite32_wf (m : Memory) (a : Nat) (v : U32) (h : m.wf = true) : (memWrite32 m a v).wf = true := memWrite_wf m a _ h

/-- A byte reads as it was written. -/
theorem memGet_memSet_same {lo : Nat} (m : Memory) (a : Nat) (v : Byte) (h : Memory.wfFrom lo m = true) : memGet (memSet m a v) a = v := by
  induction m generalizing lo with
  | nil =>
    simp only [memSet]
    split
    · rename_i hv
      simp [memGet, hv]
    · simp [memGet]
  | cons c r ih =>
    obtain ⟨b, w⟩ := c
    have h' := h
    simp only [Memory.wfFrom, Bool.and_eq_true, decide_eq_true_eq] at h'
    simp only [memSet]
    split
    · rename_i hab
      split
      · rename_i hv
        have hb : a ≠ b := by omega
        simp only [memGet, hb, if_false, hv]
        exact memGet_below r a h'.2 (by omega)
      · simp [memGet]
    · split
      · rename_i _ hab
        split
        · rename_i hv
          rw [hv]
          exact memGet_below r a h'.2 (by omega)
        · simp [memGet]
      · rename_i _ hab
        simp only [memGet, hab, if_false]
        exact ih h'.2

/-- A write leaves every other address alone. -/
theorem memGet_memSet_other (m : Memory) (a b : Nat) (v : Byte) (ne : b ≠ a) : memGet (memSet m a v) b = memGet m b := by
  induction m with
  | nil =>
    simp only [memSet]
    split
    · rfl
    · simp [memGet, ne]
  | cons c r ih =>
    obtain ⟨k, w⟩ := c
    simp only [memSet]
    split
    · split
      · rfl
      · simp [memGet, ne]
    · split
      · rename_i _ hk
        subst hk
        split
        · simp [memGet, ne]
        · simp [memGet, ne]
      · simp only [memGet, ih]

end Sys2Proof.Machine

end
end

