-- ==== Sys2Proof/Laws/Word.lean ====
section
/-! SUPPORT. What the sparse table does: a read after a write, and that a write leaves other keys alone. -/

section

set_option Elab.async false

namespace Sys2Proof.Tbl

theorem find_insert_same {α : Type} (l : List (Nat × α)) (k : Nat) (v : α) :
    find (insert l k v) k = some v := by
  induction l with
  | nil => simp [insert, find]
  | cons c r ih =>
    obtain ⟨j, w⟩ := c
    simp only [insert]
    split
    · simp [find]
    · split
      · simp [find]
      · rename_i h
        have h' : j ≠ k := fun e => h e.symm
        simp [find, h', ih]

theorem find_insert_other {α : Type} (l : List (Nat × α)) (k i : Nat) (v : α) (h : i ≠ k) :
    find (insert l k v) i = find l i := by
  induction l with
  | nil => simp [insert, find, Ne.symm h]
  | cons c r ih =>
    obtain ⟨j, w⟩ := c
    simp only [insert]
    split
    · simp [find, Ne.symm h]
    · split
      · rename_i h2
        subst h2
        simp [find, Ne.symm h]
      · simp only [find, ih]

@[simp] theorem getD_set_same {α : Type} (t : Tbl α) (d v : α) (k : Nat) : (t.set k v).getD d k = v := by
  simp [getD, set, find_insert_same]

theorem getD_set_other {α : Type} (t : Tbl α) (d v : α) (k i : Nat) (h : i ≠ k) :
    (t.set k v).getD d i = t.getD d i := by
  simp [getD, set, find_insert_other _ _ _ _ h]

@[simp] theorem getD_modify_same {α : Type} (t : Tbl α) (d : α) (k : Nat) (f : α → α) :
    (t.modify d k f).getD d k = f (t.getD d k) := by
  simp [modify]

theorem getD_modify_other {α : Type} (t : Tbl α) (d : α) (k i : Nat) (f : α → α) (h : i ≠ k) :
    (t.modify d k f).getD d i = t.getD d i := by
  simp [modify, getD_set_other _ _ _ _ _ h]

@[simp] theorem getD_empty {α : Type} (d : α) (k : Nat) : (empty : Tbl α).getD d k = d := rfl

end Sys2Proof.Tbl

end
end

