-- ==== Sys2Proof/Laws/Keeps.lean ====
section
/-! SUPPORT. What every function of the model keeps: the buffers stay canonical and the security minima never fall; and, but for the
start, `TB_COUNT` and the key slots stand and a self-arrest holds while the logic runs. -/

section

set_option Elab.async false

namespace Sys2Proof.Machine

/-- From `s` to `t` buffers stay canonical and no security minimum falls; with `n`, which the release from reset does without,
`TB_COUNT` stands; with `b`, which the functions of the start itself do without, a module in self-arrest stays so while its logic runs; with `q`, which the two KEY commands and the start do without,
the key slots stand. -/
structure Keeps (n b q : Bool) (s t : State) : Prop where
  buffers : s.Canonical → t.Canonical
  floors : ∀ cls, s.minimum cls ≤ t.minimum cls
  count : n = true → t.tb.count = s.tb.count
  calm : b = true → s.calm → t.calm
  slots : q = true → t.key.slots = s.key.slots

theorem Keeps.refl (n b q : Bool) (s : State) : Keeps n b q s s := ⟨id, fun _ => Nat.le_refl _, fun _ => rfl, fun _ h => h, fun _ => rfl⟩

theorem Keeps.via {n b q : Bool} {s t u : State} (k : Keeps n b q t u) (h : Keeps n b q s t) : Keeps n b q s u :=
  ⟨fun c => k.buffers (h.buffers c), fun cls => Nat.le_trans (h.floors cls) (k.floors cls),
    fun e => (k.count e).trans (h.count e), fun e c => k.calm e (h.calm e c),
    fun e => (k.slots e).trans (h.slots e)⟩

theorem Keeps.weaken {n b q : Bool} {s t : State} (h : Keeps n b q s t) : Keeps false false false s t :=
  ⟨h.buffers, h.floors, fun e => absurd e (by decide), fun e => absurd e (by decide), fun e => absurd e (by decide)⟩

/-- A change that leaves alone what `Keeps` speaks of. -/
theorem Keeps.same {n b q : Bool} {s t u : State} (pending : u.pending = t.pending) (pairs : u.saf.pairs = t.saf.pairs)
    (bankA : u.cfg.bankA.bytes = t.cfg.bankA.bytes) (bankB : u.cfg.bankB.bytes = t.cfg.bankB.bytes) (copies : u.upd.copies = t.upd.copies)
    (open_ : u.upd.open_ = t.upd.open_) (verifying : u.upd.verifying = t.upd.verifying) (ready : u.upd.bankReady = t.upd.bankReady)
    (minima : u.upd.minima = t.upd.minima) (count : u.tb.count = t.tb.count) (arrested : u.rfx.arrested = t.rfx.arrested)
    (phase : u.sys.phase = t.sys.phase) (slots : u.key.slots = t.key.slots) (h : Keeps n b q s t) : Keeps n b q s u := by
  have _ := pending
  refine Keeps.via ⟨fun c => ⟨?_, ?_, ?_, ?_, ?_, ?_, ?_⟩, ?_, fun _ => count, ?_, fun _ => slots⟩ h
  · intro p; simpa only [State.pair, pairs] using c.tcm p
  · rw [bankA]; exact c.bankA
  · rw [bankB]; exact c.bankB
  · intro cls k; simpa only [State.copy, copies] using c.copies cls k
  · rw [open_]; exact c.staged
  · rw [verifying]; exact c.checked
  · rw [ready]; exact c.ready
  · intro cls; simp only [State.minimum, minima]; exact Nat.le_refl _
  · intro _ k; simpa only [State.calm, arrested, phase] using k

/-- What a start changes beside. -/
theorem Keeps.starts {n q : Bool} {s t u : State} (pending : u.pending = t.pending) (pairs : u.saf.pairs = t.saf.pairs)
    (bankA : u.cfg.bankA.bytes = t.cfg.bankA.bytes) (bankB : u.cfg.bankB.bytes = t.cfg.bankB.bytes) (copies : u.upd.copies = t.upd.copies)
    (open_ : u.upd.open_ = t.upd.open_) (verifying : u.upd.verifying = t.upd.verifying) (ready : u.upd.bankReady = t.upd.bankReady)
    (minima : u.upd.minima = t.upd.minima) (count : u.tb.count = t.tb.count) (slots : u.key.slots = t.key.slots) (h : Keeps n false q s t) : Keeps n false q s u := by
  have k : Keeps n false q s { u with rfx := t.rfx, sys := t.sys } :=
    Keeps.same (t := t) pending pairs bankA bankB copies open_ verifying ready minima count rfl rfl slots h
  exact ⟨fun c => ⟨(k.buffers c).tcm, (k.buffers c).bankA, (k.buffers c).bankB, (k.buffers c).copies, (k.buffers c).staged,
    (k.buffers c).checked, (k.buffers c).ready⟩, k.floors, k.count, fun e => absurd e (by decide), k.slots⟩

theorem Keeps.set_key_keys {n b : Bool} {s t : State} {x0 : KeyState} (h : Keeps n b false s t) : Keeps n b false s { t with key := x0 } :=
  ⟨fun c => ⟨(h.buffers c).tcm, (h.buffers c).bankA, (h.buffers c).bankB, (h.buffers c).copies, (h.buffers c).staged,
    (h.buffers c).checked, (h.buffers c).ready⟩, h.floors, h.count, h.calm, fun e => absurd e (by decide)⟩

/-- The parts of the state that `Keeps` speaks of stay the same. -/
def Part.apart (w : List Part) : Bool :=
  w.all (fun p => decide (p ∉ [Part.saf, .cfg, .upd, .tb, .rfx, .sys, .key, .pending]))

theorem Keeps.of {n b q : Bool} {w : List Part} {s t u : State} (f : Frame w t u) (h : Part.apart w = true) (k : Keeps n b q s t) : Keeps n b q s u := by
  have out : ∀ p, p ∈ [Part.saf, .cfg, .upd, .tb, .rfx, .sys, .key, .pending] → p ∉ w := fun p hp hw =>
    of_decide_eq_true (List.all_eq_true.mp h p hw) hp
  have saf : u.saf = t.saf := f.same .saf (out _ (by decide))
  have cfg : u.cfg = t.cfg := f.same .cfg (out _ (by decide))
  have upd : u.upd = t.upd := f.same .upd (out _ (by decide))
  have tb : u.tb = t.tb := f.same .tb (out _ (by decide))
  have rfx : u.rfx = t.rfx := f.same .rfx (out _ (by decide))
  have sys : u.sys = t.sys := f.same .sys (out _ (by decide))
  have key : u.key = t.key := f.same .key (out _ (by decide))
  have pending : u.pending = t.pending := f.same .pending (out _ (by decide))
  exact Keeps.same pending (by rw [saf]) (by rw [cfg]) (by rw [cfg]) (by rw [upd]) (by rw [upd]) (by rw [upd]) (by rw [upd])
    (by rw [upd]) (by rw [tb]) (by rw [rfx]) (by rw [sys]) (by rw [key]) k

theorem Keeps.ite {c : Prop} [Decidable c] {n k q : Bool} {s a b : State} (ha : Keeps n k q s a) (hb : Keeps n k q s b) :
    Keeps n k q s (if c then a else b) := by
  split <;> assumption

theorem Keeps.ite1 {α : Type} {c : Prop} [Decidable c] {n k q : Bool} {s : State} {a b : State × α} (ha : Keeps n k q s a.1)
    (hb : Keeps n k q s b.1) : Keeps n k q s (if c then a else b).1 := by
  split <;> assumption

theorem Keeps.cut {n k q : Bool} {s t : State} (x : State) (h : Keeps n k q s x) (f : Keeps n k q s x → Keeps n k q s t) : Keeps n k q s t := f h

theorem Keeps.foldl {α : Type} {n k q : Bool} {s t : State} {f : State → α → State} {l : List α}
    (hf : ∀ u x, Keeps n k q u (f u x)) (h : Keeps n k q s t) : Keeps n k q s (l.foldl f t) := by
  induction l generalizing t with
  | nil => exact h
  | cons x r ih => exact ih (Keeps.via (hf t x) h)

theorem Keeps.foldl1 {α β : Type} {n k q : Bool} {s : State} {t : State × β} {f : State × β → α → State × β} {l : List α}
    (hf : ∀ u x, Keeps n k q u.1 (f u x).1) (h : Keeps n k q s t.1) : Keeps n k q s (l.foldl f t).1 := by
  induction l generalizing t with
  | nil => exact h
  | cons x r ih => exact ih (Keeps.via (hf t x) h)

/-- Whatever next state the outcome is, it is kept so. -/
def Kept (n b q : Bool) (s : State) (r : Result) : Prop := ∀ t, r = .next t → Keeps n b q s t

theorem Kept.next {n b q : Bool} {s t : State} (h : Keeps n b q s t) : Kept n b q s (.next t) := by
  intro u hu
  cases hu
  exact h

theorem Tbl.getD_mapAll {α : Type} (t : Tbl α) (d : α) (k : Nat) (f : Nat → α → α) :
    (t.mapAll f).getD d k = d ∨ (t.mapAll f).getD d k = f k (t.getD d k) := by
  obtain ⟨l⟩ := t
  induction l with
  | nil => exact .inl rfl
  | cons c r ih =>
    obtain ⟨j, v⟩ := c
    simp only [Tbl.mapAll, Tbl.getD, List.map_cons, Tbl.find] at ih ⊢
    split
    · rename_i e
      subst e
      exact .inr rfl
    · exact ih

/-! ### Functions whose argument says what becomes of a part -/

theorem State.modPair_keeps {n b q : Bool} {s0 s : State} (p : Nat) (f : Pair → Pair) (hf : ∀ x, x.tcm.wf = true → (f x).tcm.wf = true)
    (h : Keeps n b q s0 s) : Keeps n b q s0 (s.modPair p f) := by
  refine Keeps.via (t := s) ⟨fun c => ⟨fun q => ?_, c.bankA, c.bankB, c.copies, c.staged, c.checked, c.ready⟩, fun _ => Nat.le_refl _, fun _ => rfl, fun _ k => k, fun _ => rfl⟩ h
  by_cases e : q = p
  · subst e
    simpa only [State.pair, State.modPair, Tbl.getD_modify_same] using hf _ (c.tcm q)
  · simpa only [State.pair, State.modPair, Tbl.getD_modify_other _ _ _ _ _ e] using c.tcm q

theorem State.modCopy_keeps {n b q : Bool} {s0 s : State} (cls : Nat) (second : Bool) (f : ImageCopy → ImageCopy)
    (hf : s0.Canonical → s.Canonical → (f (s.copy cls second)).bytes.wf = true) (h : Keeps n b q s0 s) : Keeps n b q s0 (s.modCopy cls second f) := by
  refine ⟨fun c0 => ?_, h.floors, h.count, h.calm, h.slots⟩
  have c := h.buffers c0
  refine ⟨c.tcm, c.bankA, c.bankB, fun d k => ?_, c.staged, c.checked, c.ready⟩
  by_cases e : 2 * d + bit k = 2 * cls + bit second
  · simpa only [State.copy, State.modCopy, e, Tbl.getD_modify_same] using hf c0 c
  · simpa only [State.copy, State.modCopy, Tbl.getD_modify_other _ _ _ _ _ e] using c.copies d k

theorem Keeps.banks {n b q : Bool} {s0 s : State} (c : CfgState) (hA : s.Canonical → c.bankA.bytes.wf = true)
    (hB : s.Canonical → c.bankB.bytes.wf = true) (h : Keeps n b q s0 s) : Keeps n b q s0 { s with cfg := c } :=
  Keeps.via (t := s) ⟨fun k => ⟨k.tcm, hA k, hB k, k.copies, k.staged, k.checked, k.ready⟩, fun _ => Nat.le_refl _, fun _ => rfl, fun _ k => k, fun _ => rfl⟩ h

theorem Keeps.arrest {n b q : Bool} {s0 s : State} (x : RfxState) (hx : x.arrested = true) (h : Keeps n b q s0 s) :
    Keeps n b q s0 { s with rfx := x } :=
  Keeps.via (t := s) ⟨fun c => ⟨c.tcm, c.bankA, c.bankB, c.copies, c.staged, c.checked, c.ready⟩, fun _ => Nat.le_refl _, fun _ => rfl, fun _ _ => .inl hx, fun _ => rfl⟩ h

theorem Bank.erased_wf : Bank.erased.bytes.wf = true := rfl

theorem CfgState.eraseTarget_wf {c : CfgState} (hA : c.bankA.bytes.wf = true) (hB : c.bankB.bytes.wf = true) :
    c.eraseTarget.bankA.bytes.wf = true ∧ c.eraseTarget.bankB.bytes.wf = true := by
  unfold CfgState.eraseTarget
  split
  · exact ⟨rfl, hB⟩
  · exact ⟨hA, rfl⟩

theorem CfgState.bank_wf {c : CfgState} (hA : c.bankA.bytes.wf = true) (hB : c.bankB.bytes.wf = true) (second : Bool) :
    (c.bank second).bytes.wf = true := by
  cases second
  · exact hA
  · exact hB

theorem Keeps.updates {n b q : Bool} {s0 s : State} (x : UpdState) (copies : x.copies = s.upd.copies)
    (staged : s.Canonical → ∀ y, x.open_ = some y → y.bytes.wf = true)
    (checked : s.Canonical → ∀ v, x.verifying = some v → v.target.bytes.wf = true)
    (ready : s0.Canonical → s.Canonical → ∀ i k, x.bankReady = some (i, k) → k.bytes.wf = true) (minima : x.minima = s.upd.minima)
    (h : Keeps n b q s0 s) : Keeps n b q s0 { s with upd := x } := by
  refine ⟨fun c0 => ?_, fun cls => ?_, h.count, h.calm, h.slots⟩
  · have c := h.buffers c0
    refine ⟨c.tcm, c.bankA, c.bankB, ?_, staged c, checked c, ready c0 c⟩
    intro cls i
    simpa only [State.copy, copies] using c.copies cls i
  · simpa only [State.minimum, minima] using h.floors cls

theorem Kept.of {n b q : Bool} {w : List Part} {s : State} {r : Result} (f : Framed w s r) (h : Part.apart w = true) : Kept n b q s r :=
  fun t e => Keeps.of (f t e) h (Keeps.refl n b q s)

/-! ### Record updates -/

theorem Keeps.set_cfg {n b q : Bool} {s t : State} {x0 : CfgState}
    (bankA : x0.bankA.bytes = t.cfg.bankA.bytes)
    (bankB : x0.bankB.bytes = t.cfg.bankB.bytes)
    (h : Keeps n b q s t) : Keeps n b q s { t with cfg := x0 } :=
  Keeps.same (t := t) rfl rfl bankA bankB rfl rfl rfl rfl rfl rfl rfl rfl rfl h

theorem Keeps.set_fio {n b q : Bool} {s t : State} {x0 : FioState}
    (h : Keeps n b q s t) : Keeps n b q s { t with fio := x0 } :=
  Keeps.same (t := t) rfl rfl rfl rfl rfl rfl rfl rfl rfl rfl rfl rfl rfl h

theorem Keeps.set_key {n b q : Bool} {s t : State} {x0 : KeyState}
    (slots : x0.slots = t.key.slots)
    (h : Keeps n b q s t) : Keeps n b q s { t with key := x0 } :=
  Keeps.same (t := t) rfl rfl rfl rfl rfl rfl rfl rfl rfl rfl rfl rfl slots h

theorem Keeps.set_rfx {n b q : Bool} {s t : State} {x0 : RfxState}
    (arrested : x0.arrested = t.rfx.arrested)
    (h : Keeps n b q s t) : Keeps n b q s { t with rfx := x0 } :=
  Keeps.same (t := t) rfl rfl rfl rfl rfl rfl rfl rfl rfl rfl arrested rfl rfl h

theorem Keeps.set_ring {n b q : Bool} {s t : State} {x0 : RingState}
    (h : Keeps n b q s t) : Keeps n b q s { t with ring := x0 } :=
  Keeps.same (t := t) rfl rfl rfl rfl rfl rfl rfl rfl rfl rfl rfl rfl rfl h

theorem Keeps.set_saf {n b q : Bool} {s t : State} {x0 : SafState}
    (pairs : x0.pairs = t.saf.pairs)
    (h : Keeps n b q s t) : Keeps n b q s { t with saf := x0 } :=
  Keeps.same (t := t) rfl pairs rfl rfl rfl rfl rfl rfl rfl rfl rfl rfl rfl h

theorem Keeps.set_sys {n b q : Bool} {s t : State} {x0 : SysState}
    (phase : x0.phase = t.sys.phase)
    (h : Keeps n b q s t) : Keeps n b q s { t with sys := x0 } :=
  Keeps.same (t := t) rfl rfl rfl rfl rfl rfl rfl rfl rfl rfl rfl phase rfl h

theorem Keeps.set_tb {n b q : Bool} {s t : State} {x0 : TimeState}
    (count : x0.count = t.tb.count)
    (h : Keeps n b q s t) : Keeps n b q s { t with tb := x0 } :=
  Keeps.same (t := t) rfl rfl rfl rfl rfl rfl rfl rfl rfl count rfl rfl rfl h

theorem Keeps.set_twin {n b q : Bool} {s t : State} {x0 : TwinState}
    (h : Keeps n b q s t) : Keeps n b q s { t with twin := x0 } :=
  Keeps.same (t := t) rfl rfl rfl rfl rfl rfl rfl rfl rfl rfl rfl rfl rfl h

theorem Keeps.set_upd {n b q : Bool} {s t : State} {x0 : UpdState}
    (copies : x0.copies = t.upd.copies)
    (open_ : x0.open_ = t.upd.open_)
    (verifying : x0.verifying = t.upd.verifying)
    (ready : x0.bankReady = t.upd.bankReady)
    (minima : x0.minima = t.upd.minima)
    (h : Keeps n b q s t) : Keeps n b q s { t with upd := x0 } :=
  Keeps.same (t := t) rfl rfl rfl rfl copies open_ verifying ready minima rfl rfl rfl rfl h

theorem Keeps.set_vz {n b q : Bool} {s t : State} {x0 : VzfState}
    (h : Keeps n b q s t) : Keeps n b q s { t with vz := x0 } :=
  Keeps.same (t := t) rfl rfl rfl rfl rfl rfl rfl rfl rfl rfl rfl rfl rfl h

theorem Keeps.set_mbx_vz {n b q : Bool} {s t : State} {x0 : MbxState} {x1 : VzfState}
    (h : Keeps n b q s t) : Keeps n b q s { t with mbx := x0, vz := x1 } :=
  Keeps.same (t := t) rfl rfl rfl rfl rfl rfl rfl rfl rfl rfl rfl rfl rfl h

theorem Keeps.set_rfx_brg {n b q : Bool} {s t : State} {x0 : RfxState} {x1 : BrgState}
    (arrested : x0.arrested = t.rfx.arrested)
    (h : Keeps n b q s t) : Keeps n b q s { t with rfx := x0, brg := x1 } :=
  Keeps.same (t := t) rfl rfl rfl rfl rfl rfl rfl rfl rfl rfl arrested rfl rfl h

theorem Keeps.set_sys_mbx {n b q : Bool} {s t : State} {x0 : SysState} {x1 : MbxState}
    (phase : x0.phase = t.sys.phase)
    (h : Keeps n b q s t) : Keeps n b q s { t with sys := x0, mbx := x1 } :=
  Keeps.same (t := t) rfl rfl rfl rfl rfl rfl rfl rfl rfl rfl rfl phase rfl h

theorem Keeps.set_sys_net {n b q : Bool} {s t : State} {x0 : SysState} {x1 : NetState}
    (phase : x0.phase = t.sys.phase)
    (h : Keeps n b q s t) : Keeps n b q s { t with sys := x0, net := x1 } :=
  Keeps.same (t := t) rfl rfl rfl rfl rfl rfl rfl rfl rfl rfl rfl phase rfl h

theorem Keeps.set_sys_rfx {n b q : Bool} {s t : State} {x0 : SysState} {x1 : RfxState}
    (phase : x0.phase = t.sys.phase)
    (arrested : x1.arrested = t.rfx.arrested)
    (h : Keeps n b q s t) : Keeps n b q s { t with sys := x0, rfx := x1 } :=
  Keeps.same (t := t) rfl rfl rfl rfl rfl rfl rfl rfl rfl rfl arrested phase rfl h

theorem Keeps.set_sys_ring {n b q : Bool} {s t : State} {x0 : SysState} {x1 : RingState}
    (phase : x0.phase = t.sys.phase)
    (h : Keeps n b q s t) : Keeps n b q s { t with sys := x0, ring := x1 } :=
  Keeps.same (t := t) rfl rfl rfl rfl rfl rfl rfl rfl rfl rfl rfl phase rfl h

theorem Keeps.set_sys_upd {n b q : Bool} {s t : State} {x0 : SysState} {x1 : UpdState}
    (phase : x0.phase = t.sys.phase)
    (copies : x1.copies = t.upd.copies)
    (open_ : x1.open_ = t.upd.open_)
    (verifying : x1.verifying = t.upd.verifying)
    (ready : x1.bankReady = t.upd.bankReady)
    (minima : x1.minima = t.upd.minima)
    (h : Keeps n b q s t) : Keeps n b q s { t with sys := x0, upd := x1 } :=
  Keeps.same (t := t) rfl rfl rfl rfl copies open_ verifying ready minima rfl rfl phase rfl h

theorem Keeps.set_sys_fio_net {n b q : Bool} {s t : State} {x0 : SysState} {x1 : FioState} {x2 : NetState}
    (phase : x0.phase = t.sys.phase)
    (h : Keeps n b q s t) : Keeps n b q s { t with sys := x0, fio := x1, net := x2 } :=
  Keeps.same (t := t) rfl rfl rfl rfl rfl rfl rfl rfl rfl rfl rfl phase rfl h

theorem Keeps.set_sys_log_brg {n b q : Bool} {s t : State} {x0 : SysState} {x1 : LogState} {x2 : BrgState}
    (phase : x0.phase = t.sys.phase)
    (h : Keeps n b q s t) : Keeps n b q s { t with sys := x0, log := x1, brg := x2 } :=
  Keeps.same (t := t) rfl rfl rfl rfl rfl rfl rfl rfl rfl rfl rfl phase rfl h

theorem Keeps.set_mbx_vz_rfx_fio {n b q : Bool} {s t : State} {x0 : MbxState} {x1 : VzfState} {x2 : RfxState} {x3 : FioState}
    (arrested : x2.arrested = t.rfx.arrested)
    (h : Keeps n b q s t) : Keeps n b q s { t with mbx := x0, vz := x1, rfx := x2, fio := x3 } :=
  Keeps.same (t := t) rfl rfl rfl rfl rfl rfl rfl rfl rfl rfl arrested rfl rfl h

theorem Keeps.set_sys_log_tb_upd {n b q : Bool} {s t : State} {x0 : SysState} {x1 : LogState} {x2 : TimeState} {x3 : UpdState}
    (phase : x0.phase = t.sys.phase)
    (count : x2.count = t.tb.count)
    (copies : x3.copies = t.upd.copies)
    (open_ : x3.open_ = t.upd.open_)
    (verifying : x3.verifying = t.upd.verifying)
    (ready : x3.bankReady = t.upd.bankReady)
    (minima : x3.minima = t.upd.minima)
    (h : Keeps n b q s t) : Keeps n b q s { t with sys := x0, log := x1, tb := x2, upd := x3 } :=
  Keeps.same (t := t) rfl rfl rfl rfl copies open_ verifying ready minima count rfl phase rfl h

theorem Keeps.set_sys_start {n q : Bool} {s t : State} {x0 : SysState}
    (h : Keeps n false q s t) : Keeps n false q s { t with sys := x0 } :=
  Keeps.starts (t := t) rfl rfl rfl rfl rfl rfl rfl rfl rfl rfl rfl h

theorem Keeps.set_sys_log_tb_upd_start {n q : Bool} {s t : State} {x0 : SysState} {x1 : LogState} {x2 : TimeState} {x3 : UpdState}
    (count : x2.count = t.tb.count)
    (copies : x3.copies = t.upd.copies)
    (open_ : x3.open_ = t.upd.open_)
    (verifying : x3.verifying = t.upd.verifying)
    (ready : x3.bankReady = t.upd.bankReady)
    (minima : x3.minima = t.upd.minima)
    (h : Keeps n false q s t) : Keeps n false q s { t with sys := x0, log := x1, tb := x2, upd := x3 } :=
  Keeps.starts (t := t) rfl rfl rfl rfl copies open_ verifying ready minima count rfl h

end Sys2Proof.Machine

end
end

