-- ==== Sys2Proof/Laws/Keeps/Canister.lean ====
section
/-! SUPPORT. What each function of `Machine/Canister.lean` keeps. -/

section

set_option Elab.async false

namespace Sys2Proof.Machine

theorem updDiscardOpen_keeps {n b q : Bool} (s : State) : Keeps n b q s (updDiscardOpen s) :=
  ⟨fun c => ⟨c.tcm, c.bankA, c.bankB, c.copies, (fun _ h => nomatch h), c.checked, c.ready⟩, fun _ => Nat.le_refl _,
    fun _ => rfl, fun _ k => k, fun _ => rfl⟩

theorem countRefused_keeps {ν β κ : Bool} (s : State) :
    Keeps ν β κ s (countRefused s) := by
  unfold countRefused
  with_reducible repeat' first
    | assumption
    | exact rfl
    | decide
    | apply Keeps.refl
    | apply Keeps.ite
    | split
    | apply Keeps.set_key
    | dsimp only

theorem State.modKeySlot_keeps {ν β : Bool} (s : State) (n : Nat) (f : KeySlot → KeySlot) :
    Keeps ν β false s (State.modKeySlot s n f) := by
  unfold State.modKeySlot
  with_reducible repeat' first
    | assumption
    | exact rfl
    | decide
    | apply Keeps.refl
    | apply Keeps.ite
    | split
    | apply Keeps.set_key_keys
    | dsimp only

theorem extendMr_keeps {ν β κ : Bool} (n : Nat) (v : List Byte) (s : State) :
    Keeps ν β κ s (extendMr n v s) := by
  unfold extendMr
  with_reducible repeat' first
    | assumption
    | exact rfl
    | decide
    | apply Keeps.refl
    | apply Keeps.ite
    | split
    | apply Keeps.set_key
    | dsimp only

theorem issueNonce_keeps {ν β κ : Bool} (s : State) :
    Keeps ν β κ s (issueNonce s).1 := by
  unfold issueNonce
  with_reducible repeat' first
    | assumption
    | exact rfl
    | (unfold State.draw; exact rfl)
    | decide
    | apply Keeps.refl
    | (lift_lets; intro x; apply Keeps.cut x ?_ (fun _ => ?_); subst x; rotate_left; clear_value x; rotate_right)
    | (lift_lets; intro x; apply Keeps.cut x.1 ?_ (fun _ => ?_); subst x; rotate_left; clear_value x; rotate_right)
    | (lift_lets; intro x; subst x)
    | apply Keeps.of (State.draw_frame ..)
    | apply Keeps.ite
    | apply Keeps.ite1
    | split
    | apply Keeps.set_sys
    | dsimp only

theorem useNonce_keeps {ν β κ : Bool} (id : Nat) (s : State) :
    Keeps ν β κ s (useNonce id s) := by
  unfold useNonce
  with_reducible repeat' first
    | assumption
    | exact rfl
    | decide
    | apply Keeps.refl
    | apply Keeps.ite
    | split
    | apply Keeps.set_sys
    | dsimp only

theorem raiseMinimum_keeps {n b q : Bool} (s : State) (cls : Nat) : Keeps n b q s (raiseMinimum s cls) := by
  unfold raiseMinimum
  dsimp only
  split
  · rename_i lt
    refine Keeps.of (raiseKey_frame ..) (by decide) ⟨fun c => ⟨c.tcm, c.bankA, c.bankB, c.copies, c.staged, c.checked, c.ready⟩, ?_, fun _ => rfl, fun _ k => k, fun _ => rfl⟩
    intro d
    by_cases e : d = cls
    · subst e
      simpa only [State.minimum, Tbl.getD_set_same] using Nat.le_of_lt lt
    · simp only [State.minimum, Tbl.getD_set_other _ _ _ _ _ e]
      exact Nat.le_refl _
  · exact Keeps.refl ..

theorem updReachedRun_keeps {ν β κ : Bool} (s : State) :
    Keeps ν β κ s (updReachedRun s) := by
  unfold updReachedRun
  with_reducible repeat' first
    | assumption
    | exact rfl
    | decide
    | apply Keeps.refl
    | (lift_lets; intro x; apply Keeps.cut x ?_ (fun _ => ?_); subst x; rotate_left; clear_value x; rotate_right)
    | (lift_lets; intro x; apply Keeps.cut x.1 ?_ (fun _ => ?_); subst x; rotate_left; clear_value x; rotate_right)
    | (lift_lets; intro x; subst x)
    | apply Keeps.via (raiseMinimum_keeps ..)
    | apply Keeps.ite
    | apply Keeps.foldl
    | apply Keeps.foldl1
    | intro _
    | split
    | apply Keeps.set_ring
    | apply Keeps.set_upd
    | dsimp only

end Sys2Proof.Machine

end
end

