-- ==== Sys2Proof/Laws/Keeps/Modes.lean ====
section
/-! SUPPORT. What each function of `Machine/Modes.lean` keeps. -/

section

set_option Elab.async false

namespace Sys2Proof.Machine

theorem closeSession_keeps {n b q : Bool} (s : State) : Keeps n b q s (closeSession s) := by
  unfold closeSession
  split
  · exact Keeps.banks _ (fun k => (CfgState.eraseTarget_wf k.bankA k.bankB).1) (fun k => (CfgState.eraseTarget_wf k.bankA k.bankB).2) (Keeps.refl n b q s)
  · exact Keeps.refl ..

theorem disarmChannels_keeps {ν β κ : Bool} (s : State) :
    Keeps ν β κ s (disarmChannels s) := by
  unfold disarmChannels
  with_reducible repeat' first
    | assumption
    | exact rfl
    | decide
    | apply Keeps.refl
    | apply Keeps.ite
    | split
    | apply Keeps.set_tb
    | dsimp only

theorem arrestOutputs_keeps {ν β κ : Bool} (source : Nat) (detail : List Byte) (s : State) :
    Keeps ν β κ s (arrestOutputs source detail s) := by
  unfold arrestOutputs
  with_reducible repeat' first
    | assumption
    | exact rfl
    | decide
    | apply Keeps.refl
    | (lift_lets; intro x; apply Keeps.cut x ?_ (fun _ => ?_); subst x; rotate_left; clear_value x; rotate_right)
    | (lift_lets; intro x; apply Keeps.cut x.1 ?_ (fun _ => ?_); subst x; rotate_left; clear_value x; rotate_right)
    | (lift_lets; intro x; subst x)
    | apply Keeps.of (abortTests_frame ..)
    | apply Keeps.of (brgSafeAction_frame ..)
    | apply Keeps.via (disarmChannels_keeps ..)
    | apply Keeps.of (raise_frame ..)
    | apply Keeps.of (twinRelease_frame ..)
    | apply Keeps.of (urgent_frame ..)
    | apply Keeps.of (xSend_frame ..)
    | apply Keeps.ite
    | split
    | apply Keeps.arrest _ rfl
    | dsimp only

theorem arrestOnly_keeps {ν β κ : Bool} (source : Nat) (detail : List Byte) (s : State) :
    Keeps ν β κ s (arrestOnly source detail s) := by
  unfold arrestOnly
  with_reducible repeat' first
    | assumption
    | exact rfl
    | decide
    | apply Keeps.refl
    | apply Keeps.via (arrestOutputs_keeps ..)
    | apply Keeps.of (raise_frame ..)
    | apply Keeps.ite
    | split
    | dsimp only

theorem setMode_keeps {ν β κ : Bool} (new : Mode) (trigger : Nat) (s : State) :
    Keeps ν β κ s (setMode new trigger s) := by
  unfold setMode
  with_reducible repeat' first
    | assumption
    | exact rfl
    | decide
    | apply Keeps.refl
    | (lift_lets; intro x; apply Keeps.cut x ?_ (fun _ => ?_); subst x; rotate_left; clear_value x; rotate_right)
    | (lift_lets; intro x; apply Keeps.cut x.1 ?_ (fun _ => ?_); subst x; rotate_left; clear_value x; rotate_right)
    | (lift_lets; intro x; subst x)
    | apply Keeps.of (abortTests_frame ..)
    | apply Keeps.of (cancelKeep_frame ..)
    | apply Keeps.via (closeSession_keeps ..)
    | apply Keeps.of (raise_frame ..)
    | apply Keeps.via (updDiscardOpen_keeps ..)
    | apply Keeps.ite
    | split
    | apply Keeps.set_sys
    | dsimp only

theorem limpEntry_keeps {ν β κ : Bool} (trigger : Nat) (s : State) :
    Keeps ν β κ s (limpEntry trigger s) := by
  unfold limpEntry
  with_reducible repeat' first
    | assumption
    | exact rfl
    | decide
    | apply Keeps.refl
    | (lift_lets; intro x; apply Keeps.cut x ?_ (fun _ => ?_); subst x; rotate_left; clear_value x; rotate_right)
    | (lift_lets; intro x; apply Keeps.cut x.1 ?_ (fun _ => ?_); subst x; rotate_left; clear_value x; rotate_right)
    | (lift_lets; intro x; subst x)
    | apply Keeps.of (applyHeld_frame ..)
    | apply Keeps.of (pushAll_frame ..)
    | apply Keeps.via (setMode_keeps ..)
    | apply Keeps.of (twinRelease_frame ..)
    | apply Keeps.ite
    | split
    | apply Keeps.set_sys_rfx
    | dsimp only

theorem firstArrest_keeps {ν β κ : Bool} (source : Nat) (detail : List Byte) (s : State) :
    Keeps ν β κ s (firstArrest source detail s) := by
  unfold firstArrest
  with_reducible repeat' first
    | assumption
    | exact rfl
    | decide
    | apply Keeps.refl
    | (lift_lets; intro x; apply Keeps.cut x ?_ (fun _ => ?_); subst x; rotate_left; clear_value x; rotate_right)
    | (lift_lets; intro x; apply Keeps.cut x.1 ?_ (fun _ => ?_); subst x; rotate_left; clear_value x; rotate_right)
    | (lift_lets; intro x; subst x)
    | apply Keeps.via (arrestOutputs_keeps ..)
    | apply Keeps.via (limpEntry_keeps ..)
    | apply Keeps.ite
    | split
    | dsimp only

theorem selfArrest_keeps {ν β κ : Bool} (source : Nat) (detail : List Byte) (s : State) :
    Keeps ν β κ s (selfArrest source detail s) := by
  unfold selfArrest
  with_reducible repeat' first
    | assumption
    | exact rfl
    | decide
    | apply Keeps.refl
    | apply Keeps.via (firstArrest_keeps ..)
    | apply Keeps.of (raise_frame ..)
    | apply Keeps.ite
    | split
    | dsimp only

theorem runEntry_keeps {ν β κ : Bool} (s : State) :
    Keeps ν β κ s (runEntry s) := by
  unfold runEntry
  with_reducible repeat' first
    | assumption
    | exact rfl
    | decide
    | apply Keeps.refl
    | (lift_lets; intro x; apply Keeps.cut x ?_ (fun _ => ?_); subst x; rotate_left; clear_value x; rotate_right)
    | (lift_lets; intro x; apply Keeps.cut x.1 ?_ (fun _ => ?_); subst x; rotate_left; clear_value x; rotate_right)
    | (lift_lets; intro x; subst x)
    | apply Keeps.of (applyHeld_frame ..)
    | apply Keeps.of (pushAll_frame ..)
    | apply Keeps.via (setMode_keeps ..)
    | apply Keeps.of (setRole_frame ..)
    | apply Keeps.of (twinCheck_frame ..)
    | apply Keeps.via (updReachedRun_keeps ..)
    | apply Keeps.ite
    | split
    | dsimp only

end Sys2Proof.Machine

end
end

