-- ==== Sys2Proof/Laws/Keeps/Restart.lean ====
section
/-! SUPPORT. What each function of `Machine/Restart.lean` keeps. -/

section

set_option Elab.async false

namespace Sys2Proof.Machine

theorem logicStop_start (s : State) : Keeps true true true s (ringStop (eswStop (updDiscardOpen (closeSession s)))) :=
  Keeps.of (ringStop_frame ..) (by decide) (Keeps.of (eswStop_frame ..) (by decide)
    (Keeps.via (updDiscardOpen_keeps ..) (closeSession_keeps s)))

/-- What becomes of a state that the logic leaves, when the module in it is in self-arrest or its logic does not run. -/
theorem Keeps.halts {n b q : Bool} {s0 s u : State} (pairs : u.saf.pairs = (logicStop s).saf.pairs)
    (bankA : u.cfg.bankA = (logicStop s).cfg.bankA) (bankB : u.cfg.bankB = (logicStop s).cfg.bankB)
    (copies : u.upd.copies = (logicStop s).upd.copies) (open_ : u.upd.open_ = (logicStop s).upd.open_)
    (verifying : u.upd.verifying = (logicStop s).upd.verifying) (ready : u.upd.bankReady = (logicStop s).upd.bankReady)
    (minima : u.upd.minima = (logicStop s).upd.minima) (count : u.tb.count = (logicStop s).tb.count) (calm : u.calm)
    (slots : u.key.slots = (logicStop s).key.slots)
    (h : Keeps n b q s0 s) : Keeps n b q s0 u := by
  have k := logicStop_start s
  refine Keeps.via (t := s) ⟨fun c => ?_, ?_, fun _ => count.trans (k.count rfl), fun _ _ => calm, fun _ => slots.trans (k.slots rfl)⟩ h
  · have d := k.buffers c
    refine ⟨?_, ?_, ?_, ?_, ?_, ?_, ?_⟩
    · intro p
      rw [State.pair, pairs]
      rfl
    · rw [bankA]; exact d.bankA
    · rw [bankB]; exact d.bankB
    · intro cls i
      rw [State.copy, copies]
      exact d.copies cls i
    · rw [open_]; exact d.staged
    · rw [verifying]
      intro v e
      nomatch e
    · rw [ready]; exact d.ready
  · intro cls
    rw [State.minimum, State.minimum, minima]
    exact k.floors cls

theorem restart_keeps {n b q : Bool} (trigger : Nat) (s : State) : Keeps n b q s (restart trigger s) :=
  Keeps.halts (s := abortTests s) rfl rfl rfl rfl rfl rfl rfl rfl rfl (.inr (fun e => LogicPhase.noConfusion e)) rfl
    (Keeps.of (abortTests_frame s) (by decide) (Keeps.refl n b q s))

theorem restartCause_keeps {ν β κ : Bool} (trigger : Nat) (s : State) :
    Keeps ν β κ s (restartCause trigger s) := by
  unfold restartCause
  with_reducible repeat' first
    | assumption
    | exact rfl
    | decide
    | apply Keeps.refl
    | apply Keeps.via (restart_keeps ..)
    | apply Keeps.ite
    | split
    | apply Keeps.set_sys
    | dsimp only

theorem clearLoop_keeps {ν β κ : Bool} (s : State) :
    Keeps ν β κ s (clearLoop s) := by
  unfold clearLoop
  with_reducible repeat' first
    | assumption
    | exact rfl
    | decide
    | apply Keeps.refl
    | apply Keeps.ite
    | split
    | apply Keeps.set_sys
    | dsimp only

theorem answerRestart_keeps {ν β κ : Bool} (r : Req) (code : U16) (trigger : Nat) (s : State) :
    Keeps ν β κ s (answerRestart r code trigger s) := by
  unfold answerRestart
  with_reducible repeat' first
    | assumption
    | exact rfl
    | decide
    | apply Keeps.refl
    | apply Keeps.via (clearLoop_keeps ..)
    | apply Keeps.of (leaveRsp_frame ..)
    | apply Keeps.via (restartCause_keeps ..)
    | apply Keeps.ite
    | split
    | dsimp only

end Sys2Proof.Machine

end
end

