-- ==== Sys2Proof/Laws/Keeps/Basecamp.lean ====
section
/-! SUPPORT. What each function of `Machine/Basecamp.lean` keeps. -/

section

set_option Elab.async false

namespace Sys2Proof.Machine

theorem romService_keeps {n b q : Bool} (status : U16) (s : State) : Keeps n b q s (romService status s) := by
  unfold romService
  exact Keeps.of (openService_frame ..) (by decide) (Keeps.of (ringBasecamp_frame ..) (by decide)
    (Keeps.halts (s := s) rfl rfl rfl rfl rfl rfl rfl rfl rfl (.inl rfl) rfl (Keeps.refl n b q s)))

theorem basecampEnter_keeps {ν β κ : Bool} (status : U16) (s : State) :
    Keeps ν β κ s (basecampEnter status s) := by
  unfold basecampEnter
  with_reducible repeat' first
    | assumption
    | exact rfl
    | decide
    | apply Keeps.refl
    | (lift_lets; intro x; apply Keeps.cut x ?_ (fun _ => ?_); subst x; rotate_left; clear_value x; rotate_right)
    | (lift_lets; intro x; apply Keeps.cut x.1 ?_ (fun _ => ?_); subst x; rotate_left; clear_value x; rotate_right)
    | (lift_lets; intro x; subst x)
    | apply Keeps.via (arrestOnly_keeps ..)
    | apply Keeps.of (enterStopped_frame ..)
    | apply Keeps.of (holdsOff_frame ..)
    | apply Keeps.via (romService_keeps ..)
    | apply Keeps.via (setMode_keeps ..)
    | apply Keeps.of (twinRelease_frame ..)
    | apply Keeps.of (urgent_frame ..)
    | apply Keeps.ite
    | split
    | apply Keeps.set_sys
    | dsimp only

theorem integrityArrest_keeps {ν β κ : Bool} (source : Nat) (detail : List Byte) (s : State) :
    Keeps ν β κ s (integrityArrest source detail s) := by
  unfold integrityArrest
  with_reducible repeat' first
    | assumption
    | exact rfl
    | decide
    | apply Keeps.refl
    | (lift_lets; intro x; apply Keeps.cut x ?_ (fun _ => ?_); subst x; rotate_left; clear_value x; rotate_right)
    | (lift_lets; intro x; apply Keeps.cut x.1 ?_ (fun _ => ?_); subst x; rotate_left; clear_value x; rotate_right)
    | (lift_lets; intro x; subst x)
    | apply Keeps.via (limpEntry_keeps ..)
    | apply Keeps.via (selfArrest_keeps ..)
    | apply Keeps.ite
    | split
    | apply Keeps.set_rfx
    | dsimp only

theorem integrityRestart_keeps {ν β κ : Bool} (source : Nat) (detail : List Byte) (event : Option EvKind) (s : State) :
    Keeps ν β κ s (integrityRestart source detail event s) := by
  unfold integrityRestart
  with_reducible repeat' first
    | assumption
    | exact rfl
    | decide
    | apply Keeps.refl
    | (lift_lets; intro x; apply Keeps.cut x ?_ (fun _ => ?_); subst x; rotate_left; clear_value x; rotate_right)
    | (lift_lets; intro x; apply Keeps.cut x.1 ?_ (fun _ => ?_); subst x; rotate_left; clear_value x; rotate_right)
    | (lift_lets; intro x; subst x)
    | apply Keeps.via (integrityArrest_keeps ..)
    | apply Keeps.of (raise_frame ..)
    | apply Keeps.via (restart_keeps ..)
    | apply Keeps.ite
    | split
    | dsimp only

theorem ruleFault_keeps {ν β κ : Bool} (detail : List Byte) (s : State) :
    Keeps ν β κ s (ruleFault detail s) := by
  unfold ruleFault
  with_reducible repeat' first
    | assumption
    | exact rfl
    | decide
    | apply Keeps.refl
    | apply Keeps.via (integrityRestart_keeps ..)
    | apply Keeps.ite
    | split
    | dsimp only

theorem tableFault_keeps {ν β κ : Bool} (detail : List Byte) (s : State) :
    Keeps ν β κ s (tableFault detail s) := by
  unfold tableFault
  with_reducible repeat' first
    | assumption
    | exact rfl
    | decide
    | apply Keeps.refl
    | apply Keeps.via (ruleFault_keeps ..)
    | apply Keeps.ite
    | split
    | dsimp only

theorem ruleCheck_keeps {ν β κ : Bool} (ok : Bool) (corrected : U16) (s : State) :
    Keeps ν β κ s (ruleCheck ok corrected s) := by
  unfold ruleCheck
  with_reducible repeat' first
    | assumption
    | exact rfl
    | (unfold State.draw; exact rfl)
    | decide
    | apply Keeps.refl
    | (lift_lets; intro x; apply Keeps.cut x ?_ (fun _ => ?_); subst x; rotate_left; clear_value x; rotate_right)
    | (lift_lets; intro x; apply Keeps.cut x.1 ?_ (fun _ => ?_); subst x; rotate_left; clear_value x; rotate_right)
    | (lift_lets; intro x; subst x)
    | apply Keeps.of (State.draw_frame ..)
    | apply Keeps.via (tableFault_keeps ..)
    | apply Keeps.ite
    | split
    | apply Keeps.set_rfx
    | dsimp only

theorem execRuleTableCheck_keeps {ν β κ : Bool} (ok : Bool) (corrected : U16) (s : State) :
    Kept ν β κ s (execRuleTableCheck ok corrected s) := by
  unfold execRuleTableCheck
  with_reducible repeat' first
    | apply Kept.next
    | assumption
    | exact rfl
    | decide
    | apply Keeps.refl
    | apply Keeps.via (ruleCheck_keeps ..)
    | apply Keeps.ite
    | split
    | dsimp only

theorem execRuleTableEccError_keeps {ν β κ : Bool} (rule : Fin 1024) (s : State) :
    Kept ν β κ s (execRuleTableEccError rule s) := by
  unfold execRuleTableEccError
  with_reducible repeat' first
    | apply Kept.next
    | assumption
    | exact rfl
    | decide
    | apply Keeps.refl
    | apply Keeps.via (tableFault_keeps ..)
    | apply Keeps.ite
    | split
    | dsimp only

theorem clockTrip_keeps {ν β κ : Bool} (s : State) :
    Keeps ν β κ s (clockTrip s) := by
  unfold clockTrip
  with_reducible repeat' first
    | assumption
    | exact rfl
    | decide
    | apply Keeps.refl
    | (lift_lets; intro x; apply Keeps.cut x ?_ (fun _ => ?_); subst x; rotate_left; clear_value x; rotate_right)
    | (lift_lets; intro x; apply Keeps.cut x.1 ?_ (fun _ => ?_); subst x; rotate_left; clear_value x; rotate_right)
    | (lift_lets; intro x; subst x)
    | apply Keeps.of (State.modCan_frame ..)
    | apply Keeps.via (integrityRestart_keeps ..)
    | apply Keeps.of (raise_frame ..)
    | apply Keeps.via (selfArrest_keeps ..)
    | apply Keeps.ite
    | split
    | apply Keeps.set_sys
    | dsimp only

theorem execClockMonitorTrip_keeps {ν β κ : Bool} (s : State) :
    Kept ν β κ s (execClockMonitorTrip s) := by
  unfold execClockMonitorTrip
  with_reducible repeat' first
    | apply Kept.next
    | assumption
    | exact rfl
    | decide
    | apply Keeps.refl
    | apply Keeps.via (clockTrip_keeps ..)
    | apply Keeps.ite
    | split
    | dsimp only

theorem serviceLoss_keeps {ν β κ : Bool} (item : RunItem) (s : State) :
    Keeps ν β κ s (serviceLoss item s) := by
  unfold serviceLoss
  with_reducible repeat' first
    | assumption
    | exact rfl
    | decide
    | apply Keeps.refl
    | (lift_lets; intro x; apply Keeps.cut x ?_ (fun _ => ?_); subst x; rotate_left; clear_value x; rotate_right)
    | (lift_lets; intro x; apply Keeps.cut x.1 ?_ (fun _ => ?_); subst x; rotate_left; clear_value x; rotate_right)
    | (lift_lets; intro x; subst x)
    | apply Keeps.via (integrityRestart_keeps ..)
    | apply Keeps.via (selfArrest_keeps ..)
    | apply Keeps.ite
    | split
    | dsimp only

theorem execRunServiceLoss_keeps {ν β κ : Bool} (item : RunItem) (s : State) :
    Kept ν β κ s (execRunServiceLoss item s) := by
  unfold execRunServiceLoss
  with_reducible repeat' first
    | apply Kept.next
    | assumption
    | exact rfl
    | decide
    | apply Keeps.refl
    | apply Keeps.via (serviceLoss_keeps ..)
    | apply Keeps.ite
    | split
    | dsimp only

theorem watchdog_keeps {ν β κ : Bool} (s : State) :
    Keeps ν β κ s (watchdog s) := by
  unfold watchdog
  with_reducible repeat' first
    | assumption
    | exact rfl
    | decide
    | apply Keeps.refl
    | (lift_lets; intro x; apply Keeps.cut x ?_ (fun _ => ?_); subst x; rotate_left; clear_value x; rotate_right)
    | (lift_lets; intro x; apply Keeps.cut x.1 ?_ (fun _ => ?_); subst x; rotate_left; clear_value x; rotate_right)
    | (lift_lets; intro x; subst x)
    | apply Keeps.via (arrestOnly_keeps ..)
    | apply Keeps.of (raise_frame ..)
    | apply Keeps.via (restartCause_keeps ..)
    | apply Keeps.ite
    | split
    | apply Keeps.set_rfx
    | dsimp only

theorem execManagerWatchdog_keeps {ν β κ : Bool} (s : State) :
    Kept ν β κ s (execManagerWatchdog s) := by
  unfold execManagerWatchdog
  with_reducible repeat' first
    | apply Kept.next
    | assumption
    | exact rfl
    | decide
    | apply Keeps.refl
    | apply Keeps.via (watchdog_keeps ..)
    | apply Keeps.ite
    | split
    | dsimp only

theorem supplyValid_keeps {n b q : Bool} (s : State) : Keeps n b q s (supplyValid s) := by
  unfold supplyValid
  split
  · exact ⟨fun c => ⟨c.tcm, c.bankA, c.bankB, c.copies, c.staged, c.checked, c.ready⟩, fun _ => Nat.le_refl _, fun _ => rfl,
      fun _ _ => .inr (fun e => LogicPhase.noConfusion e), fun _ => rfl⟩
  · exact Keeps.refl ..

theorem execLogicSupplyValid_keeps {ν β κ : Bool} (s : State) :
    Kept ν β κ s (execLogicSupplyValid s) := by
  unfold execLogicSupplyValid
  with_reducible repeat' first
    | apply Kept.next
    | assumption
    | exact rfl
    | decide
    | apply Keeps.refl
    | apply Keeps.via (supplyValid_keeps ..)
    | apply Keeps.ite
    | split
    | dsimp only

theorem goOff_keeps {n b q : Bool} (trigger : Nat) (s : State) : Keeps n b q s (goOff trigger s) :=
  Keeps.halts (s := abortTests s) rfl rfl rfl rfl rfl rfl rfl rfl rfl (.inr (fun e => LogicPhase.noConfusion e)) rfl
    (Keeps.of (abortTests_frame s) (by decide) (Keeps.refl n b q s))

theorem powerLoss_keeps {ν β κ : Bool} (s : State) :
    Keeps ν β κ s (powerLoss s) := by
  unfold powerLoss
  with_reducible repeat' first
    | assumption
    | exact rfl
    | decide
    | apply Keeps.refl
    | (lift_lets; intro x; apply Keeps.cut x ?_ (fun _ => ?_); subst x; rotate_left; clear_value x; rotate_right)
    | (lift_lets; intro x; apply Keeps.cut x.1 ?_ (fun _ => ?_); subst x; rotate_left; clear_value x; rotate_right)
    | (lift_lets; intro x; subst x)
    | apply Keeps.of (feedLoss_frame ..)
    | apply Keeps.via (goOff_keeps ..)
    | apply Keeps.ite
    | split
    | apply Keeps.set_sys_log_brg
    | dsimp only

theorem execPowerLoss_keeps {ν β κ : Bool} (s : State) :
    Kept ν β κ s (execPowerLoss s) := by
  unfold execPowerLoss
  with_reducible repeat' first
    | apply Kept.next
    | assumption
    | exact rfl
    | decide
    | apply Keeps.refl
    | apply Keeps.via (powerLoss_keeps ..)
    | apply Keeps.ite
    | split
    | dsimp only

theorem feedLow_keeps {ν β κ : Bool} (s : State) :
    Keeps ν β κ s (feedLow s) := by
  unfold feedLow
  with_reducible repeat' first
    | assumption
    | exact rfl
    | decide
    | apply Keeps.refl
    | apply Keeps.of (raise_frame ..)
    | apply Keeps.ite
    | split
    | apply Keeps.set_sys
    | dsimp only

theorem execLogicFeedLow_keeps {ν β κ : Bool} (s : State) :
    Kept ν β κ s (execLogicFeedLow s) := by
  unfold execLogicFeedLow
  with_reducible repeat' first
    | apply Kept.next
    | assumption
    | exact rfl
    | decide
    | apply Keeps.refl
    | apply Keeps.via (feedLow_keeps ..)
    | apply Keeps.ite
    | split
    | dsimp only

theorem feedReset_keeps {ν β κ : Bool} (trigger : Nat) (s : State) :
    Keeps ν β κ s (feedReset trigger s) := by
  unfold feedReset
  with_reducible repeat' first
    | assumption
    | exact rfl
    | decide
    | apply Keeps.refl
    | (lift_lets; intro x; apply Keeps.cut x ?_ (fun _ => ?_); subst x; rotate_left; clear_value x; rotate_right)
    | (lift_lets; intro x; apply Keeps.cut x.1 ?_ (fun _ => ?_); subst x; rotate_left; clear_value x; rotate_right)
    | (lift_lets; intro x; subst x)
    | apply Keeps.via (goOff_keeps ..)
    | apply Keeps.ite
    | split
    | apply Keeps.set_sys
    | dsimp only

theorem feedFail_keeps {ν β κ : Bool} (s : State) :
    Keeps ν β κ s (feedFail s) := by
  unfold feedFail
  with_reducible repeat' first
    | assumption
    | exact rfl
    | decide
    | apply Keeps.refl
    | (lift_lets; intro x; apply Keeps.cut x ?_ (fun _ => ?_); subst x; rotate_left; clear_value x; rotate_right)
    | (lift_lets; intro x; apply Keeps.cut x.1 ?_ (fun _ => ?_); subst x; rotate_left; clear_value x; rotate_right)
    | (lift_lets; intro x; subst x)
    | apply Keeps.via (arrestOnly_keeps ..)
    | apply Keeps.via (feedReset_keeps ..)
    | apply Keeps.via (goOff_keeps ..)
    | apply Keeps.of (raise_frame ..)
    | apply Keeps.ite
    | split
    | dsimp only

theorem execLogicFeedFail_keeps {ν β κ : Bool} (s : State) :
    Kept ν β κ s (execLogicFeedFail s) := by
  unfold execLogicFeedFail
  with_reducible repeat' first
    | apply Kept.next
    | assumption
    | exact rfl
    | decide
    | apply Keeps.refl
    | apply Keeps.via (feedFail_keeps ..)
    | apply Keeps.ite
    | split
    | dsimp only

theorem logicOvertemp_keeps {ν β κ : Bool} (temp : Int) (s : State) :
    Keeps ν β κ s (logicOvertemp temp s) := by
  unfold logicOvertemp
  with_reducible repeat' first
    | assumption
    | exact rfl
    | decide
    | apply Keeps.refl
    | (lift_lets; intro x; apply Keeps.cut x ?_ (fun _ => ?_); subst x; rotate_left; clear_value x; rotate_right)
    | (lift_lets; intro x; apply Keeps.cut x.1 ?_ (fun _ => ?_); subst x; rotate_left; clear_value x; rotate_right)
    | (lift_lets; intro x; subst x)
    | apply Keeps.of (raise_frame ..)
    | apply Keeps.via (restart_keeps ..)
    | apply Keeps.ite
    | split
    | apply Keeps.set_sys
    | dsimp only

theorem execLogicDieOvertemp_keeps {ν β κ : Bool} (temp : Int) (s : State) :
    Kept ν β κ s (execLogicDieOvertemp temp s) := by
  unfold execLogicDieOvertemp
  with_reducible repeat' first
    | apply Kept.next
    | assumption
    | exact rfl
    | decide
    | apply Keeps.refl
    | apply Keeps.via (logicOvertemp_keeps ..)
    | apply Keeps.ite
    | split
    | dsimp only

theorem execLogicDieCooled_keeps {ν β κ : Bool} (s : State) :
    Kept ν β κ s (execLogicDieCooled s) := by
  unfold execLogicDieCooled
  with_reducible repeat' first
    | apply Kept.next
    | assumption
    | exact rfl
    | decide
    | apply Keeps.refl
    | apply Keeps.ite
    | split
    | apply Keeps.set_sys
    | dsimp only

theorem baseHot_keeps {ν β κ : Bool} (temp : Int) (s : State) :
    Keeps ν β κ s (baseHot temp s) := by
  unfold baseHot
  with_reducible repeat' first
    | assumption
    | exact rfl
    | decide
    | apply Keeps.refl
    | (lift_lets; intro x; apply Keeps.cut x ?_ (fun _ => ?_); subst x; rotate_left; clear_value x; rotate_right)
    | (lift_lets; intro x; apply Keeps.cut x.1 ?_ (fun _ => ?_); subst x; rotate_left; clear_value x; rotate_right)
    | (lift_lets; intro x; subst x)
    | apply Keeps.of (raise_frame ..)
    | apply Keeps.ite
    | split
    | apply Keeps.set_sys
    | dsimp only

theorem execBaseplateHot_keeps {ν β κ : Bool} (temp : Int) (s : State) :
    Kept ν β κ s (execBaseplateHot temp s) := by
  unfold execBaseplateHot
  with_reducible repeat' first
    | apply Kept.next
    | assumption
    | exact rfl
    | decide
    | apply Keeps.refl
    | apply Keeps.via (baseHot_keeps ..)
    | apply Keeps.ite
    | split
    | dsimp only

theorem baseOver_keeps {ν β κ : Bool} (temp : Int) (s : State) :
    Keeps ν β κ s (baseOver temp s) := by
  unfold baseOver
  with_reducible repeat' first
    | assumption
    | exact rfl
    | decide
    | apply Keeps.refl
    | (lift_lets; intro x; apply Keeps.cut x ?_ (fun _ => ?_); subst x; rotate_left; clear_value x; rotate_right)
    | (lift_lets; intro x; apply Keeps.cut x.1 ?_ (fun _ => ?_); subst x; rotate_left; clear_value x; rotate_right)
    | (lift_lets; intro x; subst x)
    | apply Keeps.of (raise_frame ..)
    | apply Keeps.ite
    | split
    | apply Keeps.set_sys
    | dsimp only

theorem execBaseplateOvertemp_keeps {ν β κ : Bool} (temp : Int) (s : State) :
    Kept ν β κ s (execBaseplateOvertemp temp s) := by
  unfold execBaseplateOvertemp
  with_reducible repeat' first
    | apply Kept.next
    | assumption
    | exact rfl
    | decide
    | apply Keeps.refl
    | apply Keeps.via (baseOver_keeps ..)
    | apply Keeps.ite
    | split
    | dsimp only

theorem baseCooled_keeps {ν β κ : Bool} (temp : Int) (s : State) :
    Keeps ν β κ s (baseCooled temp s) := by
  unfold baseCooled
  with_reducible repeat' first
    | assumption
    | exact rfl
    | decide
    | apply Keeps.refl
    | apply Keeps.ite
    | split
    | apply Keeps.set_sys
    | dsimp only

theorem execBaseplateCooled_keeps {ν β κ : Bool} (temp : Int) (s : State) :
    Kept ν β κ s (execBaseplateCooled temp s) := by
  unfold execBaseplateCooled
  with_reducible repeat' first
    | apply Kept.next
    | assumption
    | exact rfl
    | decide
    | apply Keeps.refl
    | apply Keeps.via (baseCooled_keeps ..)
    | apply Keeps.ite
    | split
    | dsimp only

end Sys2Proof.Machine

end
end

