-- ==== Sys2Proof/Laws/Keeps/Views.lean ====
section
/-! SUPPORT. What each function of `Machine/Views.lean` keeps. -/

section

set_option Elab.async false

namespace Sys2Proof.Machine

theorem State.modView_keeps {ν β κ : Bool} (s : State) (v : Nat) (f : View → View) :
    Keeps ν β κ s (State.modView s v f) := by
  unfold State.modView
  with_reducible repeat' first
    | assumption
    | exact rfl
    | decide
    | apply Keeps.refl
    | apply Keeps.ite
    | split
    | apply Keeps.set_tb
    | dsimp only

theorem retime_keeps {ν β κ : Bool} (view c : Nat) (s : State) :
    Keeps ν β κ s (retime view c s) := by
  unfold retime
  with_reducible repeat' first
    | assumption
    | exact rfl
    | decide
    | apply Keeps.refl
    | (lift_lets; intro x; apply Keeps.cut x ?_ (fun _ => ?_); subst x; rotate_left; clear_value x; rotate_right)
    | (lift_lets; intro x; apply Keeps.cut x.1 ?_ (fun _ => ?_); subst x; rotate_left; clear_value x; rotate_right)
    | (lift_lets; intro x; subst x)
    | apply Keeps.of (raise_frame ..)
    | apply Keeps.ite
    | apply Keeps.foldl
    | apply Keeps.foldl1
    | intro _
    | split
    | apply Keeps.set_tb
    | dsimp only

theorem setValid_keeps {ν β κ : Bool} (v : Nat) (b : Bool) (s : State) :
    Keeps ν β κ s (setValid v b s) := by
  unfold setValid
  with_reducible repeat' first
    | assumption
    | exact rfl
    | decide
    | apply Keeps.refl
    | apply Keeps.via (State.modView_keeps ..)
    | apply Keeps.of (raise_frame ..)
    | apply Keeps.ite
    | split
    | dsimp only

theorem applyChange_keeps {ν β κ : Bool} (v : Nat) (c : ViewChange) (s : State) :
    Keeps ν β κ s (applyChange v c s) := by
  unfold applyChange
  with_reducible repeat' first
    | assumption
    | exact rfl
    | decide
    | apply Keeps.refl
    | (lift_lets; intro x; apply Keeps.cut x ?_ (fun _ => ?_); subst x; rotate_left; clear_value x; rotate_right)
    | (lift_lets; intro x; apply Keeps.cut x.1 ?_ (fun _ => ?_); subst x; rotate_left; clear_value x; rotate_right)
    | (lift_lets; intro x; subst x)
    | apply Keeps.via (State.modView_keeps ..)
    | apply Keeps.of (raise_frame ..)
    | apply Keeps.via (retime_keeps ..)
    | apply Keeps.via (setValid_keeps ..)
    | apply Keeps.ite
    | split
    | dsimp only

theorem servo_keeps {ν β κ : Bool} (v : Nat) (goal : Int) (first : Bool) (s : State) :
    Keeps ν β κ s (servo v goal first s) := by
  unfold servo
  with_reducible repeat' first
    | assumption
    | exact rfl
    | (unfold State.draw; exact rfl)
    | decide
    | apply Keeps.refl
    | (lift_lets; intro x; apply Keeps.cut x ?_ (fun _ => ?_); subst x; rotate_left; clear_value x; rotate_right)
    | (lift_lets; intro x; apply Keeps.cut x.1 ?_ (fun _ => ?_); subst x; rotate_left; clear_value x; rotate_right)
    | (lift_lets; intro x; subst x)
    | apply Keeps.of (State.draw_frame ..)
    | apply Keeps.via (applyChange_keeps ..)
    | apply Keeps.ite
    | split
    | dsimp only

theorem State.modCapture_keeps {ν β κ : Bool} (s : State) (u : Nat) (f : Capture → Capture) :
    Keeps ν β κ s (State.modCapture s u f) := by
  unfold State.modCapture
  with_reducible repeat' first
    | assumption
    | exact rfl
    | decide
    | apply Keeps.refl
    | apply Keeps.ite
    | split
    | apply Keeps.set_tb
    | dsimp only

theorem captureAt_keeps {ν β κ : Bool} (u : Nat) (s : State) :
    Keeps ν β κ s (captureAt u s) := by
  unfold captureAt
  with_reducible repeat' first
    | assumption
    | exact rfl
    | decide
    | apply Keeps.refl
    | (lift_lets; intro x; apply Keeps.cut x ?_ (fun _ => ?_); subst x; rotate_left; clear_value x; rotate_right)
    | (lift_lets; intro x; apply Keeps.cut x.1 ?_ (fun _ => ?_); subst x; rotate_left; clear_value x; rotate_right)
    | (lift_lets; intro x; subst x)
    | apply Keeps.via (State.modCapture_keeps ..)
    | apply Keeps.of (raise_frame ..)
    | apply Keeps.ite
    | split
    | dsimp only

theorem captureEdge_keeps {ν β κ : Bool} (source : Nat) (rising : Bool) (s : State) :
    Keeps ν β κ s (captureEdge source rising s) := by
  unfold captureEdge
  with_reducible repeat' first
    | assumption
    | exact rfl
    | decide
    | apply Keeps.refl
    | apply Keeps.via (captureAt_keeps ..)
    | apply Keeps.ite
    | apply Keeps.foldl
    | apply Keeps.foldl1
    | intro _
    | split
    | dsimp only

theorem captureLevel_keeps {ν β κ : Bool} (source : Nat) (was is : Bool) (s : State) :
    Keeps ν β κ s (captureLevel source was is s) := by
  unfold captureLevel
  with_reducible repeat' first
    | assumption
    | exact rfl
    | decide
    | apply Keeps.refl
    | apply Keeps.via (captureEdge_keeps ..)
    | apply Keeps.ite
    | split
    | dsimp only

theorem rebaseQuiet_keeps {ν β κ : Bool} (v : Nat) (base : Time) (s : State) :
    Keeps ν β κ s (rebaseQuiet v base s) := by
  unfold rebaseQuiet
  with_reducible repeat' first
    | assumption
    | exact rfl
    | decide
    | apply Keeps.refl
    | apply Keeps.via (State.modView_keeps ..)
    | apply Keeps.via (retime_keeps ..)
    | apply Keeps.ite
    | split
    | dsimp only

theorem State.modTrigger_keeps {ν β κ : Bool} (s : State) (u : Nat) (f : Trigger → Trigger) :
    Keeps ν β κ s (State.modTrigger s u f) := by
  unfold State.modTrigger
  with_reducible repeat' first
    | assumption
    | exact rfl
    | decide
    | apply Keeps.refl
    | apply Keeps.ite
    | split
    | apply Keeps.set_tb
    | dsimp only

end Sys2Proof.Machine

end
end

