-- ==== Sys2Proof/Laws/Keeps/Can.lean ====
section
/-! SUPPORT. What each function of `Machine/Can.lean` keeps. -/

section

set_option Elab.async false

namespace Sys2Proof.Machine

theorem tmSend_keeps {ν β κ : Bool} (c : Nat) (s : State) :
    Keeps ν β κ s (tmSend c s) := by
  unfold tmSend
  with_reducible repeat' first
    | assumption
    | exact rfl
    | decide
    | apply Keeps.refl
    | (lift_lets; intro x; apply Keeps.cut x ?_ (fun _ => ?_); subst x; rotate_left; clear_value x; rotate_right)
    | (lift_lets; intro x; apply Keeps.cut x.1 ?_ (fun _ => ?_); subst x; rotate_left; clear_value x; rotate_right)
    | (lift_lets; intro x; subst x)
    | apply Keeps.of (State.modCan_frame ..)
    | apply Keeps.via (servo_keeps ..)
    | apply Keeps.of (tmForce_frame ..)
    | apply Keeps.ite
    | split
    | dsimp only

theorem execTmReferenceSend_keeps {ν β κ : Bool} (c : Fin 16) (s : State) :
    Kept ν β κ s (execTmReferenceSend c s) := by
  unfold execTmReferenceSend
  with_reducible repeat' first
    | apply Kept.next
    | assumption
    | exact rfl
    | decide
    | apply Keeps.refl
    | apply Keeps.via (tmSend_keeps ..)
    | apply Keeps.ite
    | split
    | dsimp only

theorem tmReceive_keeps {ν β κ : Bool} (c rank count : Nat) (sof : U64) (s : State) :
    Keeps ν β κ s (tmReceive c rank count sof s) := by
  unfold tmReceive
  with_reducible repeat' first
    | assumption
    | exact rfl
    | decide
    | apply Keeps.refl
    | (lift_lets; intro x; apply Keeps.cut x ?_ (fun _ => ?_); subst x; rotate_left; clear_value x; rotate_right)
    | (lift_lets; intro x; apply Keeps.cut x.1 ?_ (fun _ => ?_); subst x; rotate_left; clear_value x; rotate_right)
    | (lift_lets; intro x; subst x)
    | apply Keeps.of (State.modCan_frame ..)
    | apply Keeps.via (servo_keeps ..)
    | apply Keeps.of (tmForce_frame ..)
    | apply Keeps.ite
    | split
    | dsimp only

theorem execTmReferenceReceived_keeps {ν β κ : Bool} (c : Fin 16) (rank : Fin 4) (count : Fin 64) (sof : U64) (s : State) :
    Kept ν β κ s (execTmReferenceReceived c rank count sof s) := by
  unfold execTmReferenceReceived
  with_reducible repeat' first
    | apply Kept.next
    | assumption
    | exact rfl
    | decide
    | apply Keeps.refl
    | apply Keeps.via (tmReceive_keeps ..)
    | apply Keeps.ite
    | split
    | dsimp only

end Sys2Proof.Machine

end
end

