-- ==== Sys2Proof/Laws/Keeps/Ops.lean ====
section
/-! SUPPORT. What each function of `Machine/Ops.lean` keeps. -/

section

set_option Elab.async false

namespace Sys2Proof.Machine

theorem runLater_keeps {n b q : Bool} {s0 s : State} (r : Req) (c : Cmd) (body : Port → State → State × Option Reply)
    (h : Keeps n b q s0 s) (hb : ∀ p, Keeps n b q s0 (body p s).1) : Keeps n b q s0 (runLater r c body s) := by
  unfold runLater
  dsimp only
  repeat' split
  all_goals first
    | exact h
    | exact Keeps.of (respond_frame ..) rfl h
    | exact Keeps.of (respond_frame ..) rfl (hb _)
    | exact hb _

theorem runCmd_keeps {n b q : Bool} {s0 s : State} (r : Req) (c : Cmd) (body : Port → State → State × Reply)
    (h : Keeps n b q s0 s) (hb : ∀ p, Keeps n b q s0 (body p s).1) : Keeps n b q s0 (runCmd r c body s) :=
  runLater_keeps r c _ h hb

end Sys2Proof.Machine

end
end

