-- ==== Sys2Proof/Laws/Keeps/Reflex.lean ====
section
/-! SUPPORT. What each function of `Machine/Reflex.lean` keeps. -/

section

set_option Elab.async false

namespace Sys2Proof.Machine

theorem State.modRule_keeps {ν β κ : Bool} (s : State) (n : Nat) (f : RuleRun → RuleRun) :
    Keeps ν β κ s (State.modRule s n f) := by
  unfold State.modRule
  with_reducible repeat' first
    | assumption
    | exact rfl
    | decide
    | apply Keeps.refl
    | apply Keeps.ite
    | split
    | apply Keeps.set_rfx
    | dsimp only

theorem firedEvent_keeps {ν β κ : Bool} (n : Nat) (s : State) :
    Keeps ν β κ s (firedEvent n s) := by
  unfold firedEvent
  with_reducible repeat' first
    | assumption
    | exact rfl
    | decide
    | apply Keeps.refl
    | (lift_lets; intro x; apply Keeps.cut x ?_ (fun _ => ?_); subst x; rotate_left; clear_value x; rotate_right)
    | (lift_lets; intro x; apply Keeps.cut x.1 ?_ (fun _ => ?_); subst x; rotate_left; clear_value x; rotate_right)
    | (lift_lets; intro x; subst x)
    | apply Keeps.via (State.modRule_keeps ..)
    | apply Keeps.of (raise_frame ..)
    | apply Keeps.ite
    | split
    | dsimp only

theorem afterFire_keeps {ν β κ : Bool} (n : Nat) (s : State) :
    Keeps ν β κ s (afterFire n s) := by
  unfold afterFire
  with_reducible repeat' first
    | assumption
    | exact rfl
    | decide
    | apply Keeps.refl
    | (lift_lets; intro x; apply Keeps.cut x ?_ (fun _ => ?_); subst x; rotate_left; clear_value x; rotate_right)
    | (lift_lets; intro x; apply Keeps.cut x.1 ?_ (fun _ => ?_); subst x; rotate_left; clear_value x; rotate_right)
    | (lift_lets; intro x; subst x)
    | apply Keeps.via (firedEvent_keeps ..)
    | apply Keeps.via (selfArrest_keeps ..)
    | apply Keeps.ite
    | split
    | dsimp only

theorem evalCycle_keeps {ν β κ : Bool} (s : State) :
    Keeps ν β κ s (evalCycle s) := by
  unfold evalCycle
  with_reducible repeat' first
    | assumption
    | exact rfl
    | decide
    | apply Keeps.refl
    | (lift_lets; intro x; apply Keeps.cut x ?_ (fun _ => ?_); subst x; rotate_left; clear_value x; rotate_right)
    | (lift_lets; intro x; apply Keeps.cut x.1 ?_ (fun _ => ?_); subst x; rotate_left; clear_value x; rotate_right)
    | (lift_lets; intro x; subst x)
    | apply Keeps.via (afterFire_keeps ..)
    | apply Keeps.of (applyMerge_frame ..)
    | apply Keeps.of (raise_frame ..)
    | apply Keeps.ite
    | apply Keeps.foldl
    | apply Keeps.foldl1
    | intro _
    | split
    | apply Keeps.set_rfx
    | dsimp only

theorem evalRules_keeps {ν β κ : Bool} (s : State) :
    Keeps ν β κ s (evalRules s) := by
  unfold evalRules
  with_reducible repeat' first
    | assumption
    | exact rfl
    | decide
    | apply Keeps.refl
    | apply Keeps.via (evalCycle_keeps ..)
    | apply Keeps.ite
    | split
    | dsimp only

theorem closeShortEdges_keeps {ν β κ : Bool} (s : State) :
    Keeps ν β κ s (closeShortEdges s) := by
  unfold closeShortEdges
  with_reducible repeat' first
    | assumption
    | exact rfl
    | decide
    | apply Keeps.refl
    | apply Keeps.ite
    | split
    | apply Keeps.set_rfx
    | dsimp only

theorem openEdges_keeps {ν β κ : Bool} (n : Nat) (old new : DiVal) (s : State) :
    Keeps ν β κ s (openEdges n old new s) := by
  unfold openEdges
  with_reducible repeat' first
    | assumption
    | exact rfl
    | decide
    | apply Keeps.refl
    | apply Keeps.ite
    | split
    | apply Keeps.set_rfx
    | dsimp only

theorem evalAtDi_keeps {ν β κ : Bool} (n : Nat) (old new : DiVal) (s : State) :
    Keeps ν β κ s (evalAtDi n old new s) := by
  unfold evalAtDi
  with_reducible repeat' first
    | assumption
    | exact rfl
    | decide
    | apply Keeps.refl
    | apply Keeps.via (closeShortEdges_keeps ..)
    | apply Keeps.via (evalRules_keeps ..)
    | apply Keeps.via (openEdges_keeps ..)
    | apply Keeps.ite
    | split
    | dsimp only

end Sys2Proof.Machine

end
end

