-- ==== Sys2Proof/Laws/Keeps/Cfg.lean ====
section
/-! SUPPORT. What each function of `Machine/Cfg.lean` keeps. -/

section

set_option Elab.async false

namespace Sys2Proof.Machine

theorem cfgBeginBody_keeps {n b q : Bool} (total : Nat) (s : State) : Keeps n b q s (cfgBeginBody total s).1 := by
  unfold cfgBeginBody
  split
  · exact Keeps.refl ..
  · exact Keeps.banks _ (fun k => (CfgState.eraseTarget_wf k.bankA k.bankB).1) (fun k => (CfgState.eraseTarget_wf k.bankA k.bankB).2) (Keeps.refl n b q s)

theorem execCfgBegin_keeps {ν β κ : Bool} (r : Req) (total : U32) (s : State) :
    Kept ν β κ s (execCfgBegin r total s) := by
  unfold execCfgBegin
  with_reducible repeat' first
    | apply Kept.next
    | assumption
    | exact rfl
    | decide
    | apply Keeps.refl
    | apply Keeps.via (cfgBeginBody_keeps ..)
    | apply runCmd_keeps
    | apply Keeps.ite
    | intro _
    | split
    | dsimp only

theorem CfgState.putBank_wf {c : CfgState} {k : Bank} (second : Bool) (hA : c.bankA.bytes.wf = true) (hB : c.bankB.bytes.wf = true)
    (hk : k.bytes.wf = true) : (c.putBank second k).bankA.bytes.wf = true ∧ (c.putBank second k).bankB.bytes.wf = true := by
  cases second
  · exact ⟨hk, hB⟩
  · exact ⟨hA, hk⟩

theorem cfgWriteBody_keeps {n b q : Bool} (offset : Nat) (data : List Byte) (s : State) : Keeps n b q s (cfgWriteBody offset data s).1 := by
  unfold cfgWriteBody
  split
  · exact Keeps.refl ..
  · split
    · exact Keeps.refl ..
    · have w : s.Canonical → (memWrite (s.cfg.bank s.cfg.target).bytes offset data).wf = true :=
        fun k => memWrite_wf _ _ _ (CfgState.bank_wf k.bankA k.bankB _)
      exact Keeps.banks _ (fun k => (CfgState.putBank_wf _ k.bankA k.bankB (w k)).1) (fun k => (CfgState.putBank_wf _ k.bankA k.bankB (w k)).2)
        (Keeps.refl n b q s)

theorem execCfgWrite_keeps {ν β κ : Bool} (r : Req) (offset : U32) (data : List Byte) (s : State) :
    Kept ν β κ s (execCfgWrite r offset data s) := by
  unfold execCfgWrite
  with_reducible repeat' first
    | apply Kept.next
    | assumption
    | exact rfl
    | decide
    | apply Keeps.refl
    | apply Keeps.via (cfgWriteBody_keeps ..)
    | apply runCmd_keeps
    | apply Keeps.ite
    | intro _
    | split
    | dsimp only

theorem cfgCommitBody_keeps {n b q : Bool} (content : Bank) (s : State) : Keeps n b q s (cfgCommitBody content s).1 := by
  unfold cfgCommitBody
  split
  · exact Keeps.refl ..
  · dsimp only
    split
    · exact closeSession_keeps s
    · have w : s.Canonical → (s.cfg.bank s.cfg.target).bytes.wf = true := fun k => CfgState.bank_wf k.bankA k.bankB _
      have v : s.Canonical → (content.read (s.cfg.bank s.cfg.target).bytes).bytes.wf = true := w
      exact Keeps.banks _ (fun k => (CfgState.putBank_wf _ k.bankA k.bankB (v k)).1) (fun k => (CfgState.putBank_wf _ k.bankA k.bankB (v k)).2)
        (Keeps.refl n b q s)

theorem execCfgCommit_keeps {ν β κ : Bool} (r : Req) (content : Bank) (s : State) :
    Kept ν β κ s (execCfgCommit r content s) := by
  unfold execCfgCommit
  with_reducible repeat' first
    | apply Kept.next
    | assumption
    | exact rfl
    | decide
    | apply Keeps.refl
    | apply Keeps.via (cfgCommitBody_keeps ..)
    | apply runCmd_keeps
    | apply Keeps.ite
    | intro _
    | split
    | dsimp only

theorem cfgAbortBody_keeps {ν β κ : Bool} (s : State) :
    Keeps ν β κ s (cfgAbortBody s).1 := by
  unfold cfgAbortBody
  with_reducible repeat' first
    | assumption
    | exact rfl
    | decide
    | apply Keeps.refl
    | apply Keeps.via (closeSession_keeps ..)
    | apply Keeps.ite
    | apply Keeps.ite1
    | split
    | dsimp only

theorem execCfgAbort_keeps {ν β κ : Bool} (r : Req) (s : State) :
    Kept ν β κ s (execCfgAbort r s) := by
  unfold execCfgAbort
  with_reducible repeat' first
    | apply Kept.next
    | assumption
    | exact rfl
    | decide
    | apply Keeps.refl
    | apply Keeps.via (cfgAbortBody_keeps ..)
    | apply runCmd_keeps
    | apply Keeps.ite
    | intro _
    | split
    | dsimp only

theorem execCfgSessionTimeout_keeps {ν β κ : Bool} (s : State) :
    Kept ν β κ s (execCfgSessionTimeout s) := by
  unfold execCfgSessionTimeout
  with_reducible repeat' first
    | apply Kept.next
    | assumption
    | exact rfl
    | decide
    | apply Keeps.refl
    | apply Keeps.via (closeSession_keeps ..)
    | apply Keeps.ite
    | split
    | dsimp only

theorem activateRules_keeps {ν β κ : Bool} (s : State) :
    Keeps ν β κ s (activateRules s) := by
  unfold activateRules
  with_reducible repeat' first
    | assumption
    | exact rfl
    | decide
    | apply Keeps.refl
    | (lift_lets; intro x; apply Keeps.cut x ?_ (fun _ => ?_); subst x; rotate_left; clear_value x; rotate_right)
    | (lift_lets; intro x; apply Keeps.cut x.1 ?_ (fun _ => ?_); subst x; rotate_left; clear_value x; rotate_right)
    | (lift_lets; intro x; subst x)
    | apply Keeps.ite
    | split
    | apply Keeps.set_rfx
    | dsimp only

theorem activateKind_keeps {ν β κ : Bool} (old s : State) (a2 : SectionKind) :
    Keeps ν β κ s (activateKind old s a2) := by
  unfold activateKind
  with_reducible repeat' first
    | assumption
    | exact rfl
    | decide
    | apply Keeps.refl
    | apply Keeps.of (State.modBrg_frame ..)
    | apply Keeps.of (activateNetworks_frame ..)
    | apply Keeps.of (activateProfiles_frame ..)
    | apply Keeps.via (activateRules_keeps ..)
    | apply Keeps.of (applyStage_frame ..)
    | apply Keeps.of (sigBegin_frame ..)
    | apply Keeps.of (sigConfigure_frame ..)
    | apply Keeps.ite
    | split
    | dsimp only

theorem activateNow_keeps {ν β κ : Bool} (s : State) :
    Keeps ν β κ s (activateNow s) := by
  unfold activateNow
  with_reducible repeat' first
    | assumption
    | exact rfl
    | decide
    | apply Keeps.refl
    | (lift_lets; intro x; apply Keeps.cut x ?_ (fun _ => ?_); subst x; rotate_left; clear_value x; rotate_right)
    | (lift_lets; intro x; apply Keeps.cut x.1 ?_ (fun _ => ?_); subst x; rotate_left; clear_value x; rotate_right)
    | (lift_lets; intro x; subst x)
    | apply Keeps.via (activateKind_keeps ..)
    | apply Keeps.via (evalRules_keeps ..)
    | apply Keeps.via (extendMr_keeps ..)
    | apply Keeps.of (urgent_frame ..)
    | apply Keeps.ite
    | apply Keeps.foldl
    | apply Keeps.foldl1
    | intro _
    | split
    | apply Keeps.set_cfg
    | dsimp only

theorem activateBody_keeps {ν β κ : Bool} (r : Req) (s : State) :
    Keeps ν β κ s (activateBody r s).1 := by
  unfold activateBody
  with_reducible repeat' first
    | assumption
    | exact rfl
    | decide
    | apply Keeps.refl
    | (lift_lets; intro x; apply Keeps.cut x ?_ (fun _ => ?_); subst x; rotate_left; clear_value x; rotate_right)
    | (lift_lets; intro x; apply Keeps.cut x.1 ?_ (fun _ => ?_); subst x; rotate_left; clear_value x; rotate_right)
    | (lift_lets; intro x; subst x)
    | apply Keeps.via (activateNow_keeps ..)
    | apply Keeps.ite
    | apply Keeps.ite1
    | split
    | apply Keeps.set_cfg
    | dsimp only

theorem execCfgActivate_keeps {ν β κ : Bool} (r : Req) (s : State) :
    Kept ν β κ s (execCfgActivate r s) := by
  unfold execCfgActivate
  with_reducible repeat' first
    | apply Kept.next
    | assumption
    | exact rfl
    | decide
    | apply Keeps.refl
    | apply Keeps.via (activateBody_keeps ..)
    | apply runLater_keeps
    | apply Keeps.ite
    | intro _
    | split
    | dsimp only

theorem activationBoundary_keeps {ν β κ : Bool} (s : State) :
    Keeps ν β κ s (activationBoundary s) := by
  unfold activationBoundary
  with_reducible repeat' first
    | assumption
    | exact rfl
    | decide
    | apply Keeps.refl
    | (lift_lets; intro x; apply Keeps.cut x ?_ (fun _ => ?_); subst x; rotate_left; clear_value x; rotate_right)
    | (lift_lets; intro x; apply Keeps.cut x.1 ?_ (fun _ => ?_); subst x; rotate_left; clear_value x; rotate_right)
    | (lift_lets; intro x; subst x)
    | apply Keeps.via (activateNow_keeps ..)
    | apply Keeps.of (respond_frame ..)
    | apply Keeps.ite
    | split
    | apply Keeps.set_cfg
    | dsimp only

theorem execActivationMsBoundary_keeps {ν β κ : Bool} (s : State) :
    Kept ν β κ s (execActivationMsBoundary s) := by
  unfold execActivationMsBoundary
  with_reducible repeat' first
    | apply Kept.next
    | assumption
    | exact rfl
    | decide
    | apply Keeps.refl
    | apply Keeps.via (activationBoundary_keeps ..)
    | apply Keeps.ite
    | split
    | dsimp only

end Sys2Proof.Machine

end
end

