-- ==== Sys2Proof/Laws/Keeps/FieldIn.lean ====
section
/-! SUPPORT. What each function of `Machine/FieldIn.lean` keeps. -/

section

set_option Elab.async false

namespace Sys2Proof.Machine

theorem diChange_keeps {ν β κ : Bool} (n : Nat) (old new : DiVal) (s : State) :
    Keeps ν β κ s (diChange n old new s) := by
  unfold diChange
  with_reducible repeat' first
    | assumption
    | exact rfl
    | decide
    | apply Keeps.refl
    | (lift_lets; intro x; apply Keeps.cut x ?_ (fun _ => ?_); subst x; rotate_left; clear_value x; rotate_right)
    | (lift_lets; intro x; apply Keeps.cut x.1 ?_ (fun _ => ?_); subst x; rotate_left; clear_value x; rotate_right)
    | (lift_lets; intro x; subst x)
    | apply Keeps.of (State.modDi_frame ..)
    | apply Keeps.via (captureLevel_keeps ..)
    | apply Keeps.via (evalAtDi_keeps ..)
    | apply Keeps.of (fioSnapUpdate_frame ..)
    | apply Keeps.of (raiseFio_frame ..)
    | apply Keeps.ite
    | split
    | dsimp only

theorem diPut_keeps {ν β κ : Bool} (n : Nat) (d : DiInput) (new : DiVal) (s : State) :
    Keeps ν β κ s (diPut n d new s) := by
  unfold diPut
  with_reducible repeat' first
    | assumption
    | exact rfl
    | decide
    | apply Keeps.refl
    | (lift_lets; intro x; apply Keeps.cut x ?_ (fun _ => ?_); subst x; rotate_left; clear_value x; rotate_right)
    | (lift_lets; intro x; apply Keeps.cut x.1 ?_ (fun _ => ?_); subst x; rotate_left; clear_value x; rotate_right)
    | (lift_lets; intro x; subst x)
    | apply Keeps.of (State.modDi_frame ..)
    | apply Keeps.via (diChange_keeps ..)
    | apply Keeps.ite
    | split
    | dsimp only

theorem diSample_keeps {ν β κ : Bool} (n : Nat) (mv : Int) (s : State) :
    Keeps ν β κ s (diSample n mv s) := by
  unfold diSample
  with_reducible repeat' first
    | assumption
    | exact rfl
    | decide
    | apply Keeps.refl
    | (lift_lets; intro x; apply Keeps.cut x ?_ (fun _ => ?_); subst x; rotate_left; clear_value x; rotate_right)
    | (lift_lets; intro x; apply Keeps.cut x.1 ?_ (fun _ => ?_); subst x; rotate_left; clear_value x; rotate_right)
    | (lift_lets; intro x; subst x)
    | apply Keeps.via (diPut_keeps ..)
    | apply Keeps.ite
    | split
    | dsimp only

theorem execDiSample_keeps {ν β κ : Bool} (n : Fin 64) (mv : Int) (s : State) :
    Kept ν β κ s (execDiSample n mv s) := by
  unfold execDiSample
  with_reducible repeat' first
    | apply Kept.next
    | assumption
    | exact rfl
    | decide
    | apply Keeps.refl
    | apply Keeps.via (diSample_keeps ..)
    | apply Keeps.ite
    | split
    | dsimp only

theorem diRestart_keeps {ν β κ : Bool} (n : Nat) (r : DiRecord) (s : State) :
    Keeps ν β κ s (diRestart n r s) := by
  unfold diRestart
  with_reducible repeat' first
    | assumption
    | exact rfl
    | decide
    | apply Keeps.refl
    | apply Keeps.via (diPut_keeps ..)
    | apply Keeps.ite
    | split
    | dsimp only

theorem showAi_keeps {ν β κ : Bool} (s : State) :
    Keeps ν β κ s (showAi s) := by
  unfold showAi
  with_reducible repeat' first
    | assumption
    | exact rfl
    | decide
    | apply Keeps.refl
    | apply Keeps.via (evalRules_keeps ..)
    | apply Keeps.of (fioSnapUpdate_frame ..)
    | apply Keeps.ite
    | split
    | apply Keeps.set_fio
    | dsimp only

theorem aiSample_keeps {ν β κ : Bool} (uv : List Int) (sup : List (Nat × Nat)) (s : State) :
    Keeps ν β κ s (aiSample uv sup s) := by
  unfold aiSample
  with_reducible repeat' first
    | assumption
    | exact rfl
    | decide
    | apply Keeps.refl
    | (lift_lets; intro x; apply Keeps.cut x ?_ (fun _ => ?_); subst x; rotate_left; clear_value x; rotate_right)
    | (lift_lets; intro x; apply Keeps.cut x.1 ?_ (fun _ => ?_); subst x; rotate_left; clear_value x; rotate_right)
    | (lift_lets; intro x; subst x)
    | apply Keeps.of (aiOne_frame ..)
    | apply Keeps.via (evalRules_keeps ..)
    | apply Keeps.of (fioSnapUpdate_frame ..)
    | apply Keeps.of (supMeasure_frame ..)
    | apply Keeps.ite
    | apply Keeps.foldl
    | apply Keeps.foldl1
    | intro _
    | split
    | dsimp only

theorem execAiSample_keeps {ν β κ : Bool} (uv : List Int) (sup : List (Nat × Nat)) (s : State) :
    Kept ν β κ s (execAiSample uv sup s) := by
  unfold execAiSample
  with_reducible repeat' first
    | apply Kept.next
    | assumption
    | exact rfl
    | decide
    | apply Keeps.refl
    | apply Keeps.via (aiSample_keeps ..)
    | apply Keeps.ite
    | split
    | dsimp only

theorem supFault_keeps {ν β κ : Bool} (k : Nat) (forced : Bool) (s : State) :
    Keeps ν β κ s (supFault k forced s) := by
  unfold supFault
  with_reducible repeat' first
    | assumption
    | exact rfl
    | decide
    | apply Keeps.refl
    | (lift_lets; intro x; apply Keeps.cut x ?_ (fun _ => ?_); subst x; rotate_left; clear_value x; rotate_right)
    | (lift_lets; intro x; apply Keeps.cut x.1 ?_ (fun _ => ?_); subst x; rotate_left; clear_value x; rotate_right)
    | (lift_lets; intro x; subst x)
    | apply Keeps.of (State.modSup_frame ..)
    | apply Keeps.of (raiseFio_frame ..)
    | apply Keeps.via (showAi_keeps ..)
    | apply Keeps.ite
    | split
    | dsimp only

theorem execSensorSupplyFault_keeps {ν β κ : Bool} (sup : Fin 4) (forced : Bool) (s : State) :
    Kept ν β κ s (execSensorSupplyFault sup forced s) := by
  unfold execSensorSupplyFault
  with_reducible repeat' first
    | apply Kept.next
    | assumption
    | exact rfl
    | decide
    | apply Keeps.refl
    | apply Keeps.via (supFault_keeps ..)
    | apply Keeps.ite
    | split
    | dsimp only

theorem supRetry_keeps {ν β κ : Bool} (k : Nat) (regulates : Bool) (s : State) :
    Keeps ν β κ s (supRetry k regulates s) := by
  unfold supRetry
  with_reducible repeat' first
    | assumption
    | exact rfl
    | decide
    | apply Keeps.refl
    | (lift_lets; intro x; apply Keeps.cut x ?_ (fun _ => ?_); subst x; rotate_left; clear_value x; rotate_right)
    | (lift_lets; intro x; apply Keeps.cut x.1 ?_ (fun _ => ?_); subst x; rotate_left; clear_value x; rotate_right)
    | (lift_lets; intro x; subst x)
    | apply Keeps.of (State.modSup_frame ..)
    | apply Keeps.of (raiseFio_frame ..)
    | apply Keeps.via (showAi_keeps ..)
    | apply Keeps.ite
    | split
    | dsimp only

theorem execSensorSupplyRetry_keeps {ν β κ : Bool} (sup : Fin 4) (regulates : Bool) (s : State) :
    Kept ν β κ s (execSensorSupplyRetry sup regulates s) := by
  unfold execSensorSupplyRetry
  with_reducible repeat' first
    | apply Kept.next
    | assumption
    | exact rfl
    | decide
    | apply Keeps.refl
    | apply Keeps.via (supRetry_keeps ..)
    | apply Keeps.ite
    | split
    | dsimp only

theorem execFioDiConfig_keeps {ν β κ : Bool} (r : Req) (input : U16) (f : DiFields) (s : State) :
    Kept ν β κ s (execFioDiConfig r input f s) := by
  unfold execFioDiConfig
  with_reducible repeat' first
    | apply Kept.next
    | assumption
    | exact rfl
    | decide
    | apply Keeps.refl
    | apply Keeps.via (diRestart_keeps ..)
    | apply runCmd_keeps
    | apply Keeps.ite
    | intro _
    | split
    | dsimp only

theorem aiConfigBody_keeps {ν β κ : Bool} (n : Nat) (a : AiConfig) (s : State) :
    Keeps ν β κ s (aiConfigBody n a s).1 := by
  unfold aiConfigBody
  with_reducible repeat' first
    | assumption
    | exact rfl
    | decide
    | apply Keeps.refl
    | apply Keeps.via (showAi_keeps ..)
    | apply Keeps.ite
    | apply Keeps.ite1
    | split
    | apply Keeps.set_fio
    | dsimp only

theorem execFioAiConfig_keeps {ν β κ : Bool} (r : Req) (input : U16) (range ratio k : Byte) (s : State) :
    Kept ν β κ s (execFioAiConfig r input range ratio k s) := by
  unfold execFioAiConfig
  with_reducible repeat' first
    | apply Kept.next
    | assumption
    | exact rfl
    | decide
    | apply Keeps.refl
    | apply Keeps.via (aiConfigBody_keeps ..)
    | apply runCmd_keeps
    | apply Keeps.ite
    | intro _
    | split
    | dsimp only

theorem supSetBody_keeps {ν β κ : Bool} (k : Nat) (on : Bool) (s : State) :
    Keeps ν β κ s (supSetBody k on s).1 := by
  unfold supSetBody
  with_reducible repeat' first
    | assumption
    | exact rfl
    | decide
    | apply Keeps.refl
    | (lift_lets; intro x; apply Keeps.cut x ?_ (fun _ => ?_); subst x; rotate_left; clear_value x; rotate_right)
    | (lift_lets; intro x; apply Keeps.cut x.1 ?_ (fun _ => ?_); subst x; rotate_left; clear_value x; rotate_right)
    | (lift_lets; intro x; subst x)
    | apply Keeps.of (State.modSup_frame ..)
    | apply Keeps.via (showAi_keeps ..)
    | apply Keeps.ite
    | apply Keeps.ite1
    | split
    | dsimp only

theorem execFioSupSet_keeps {ν β κ : Bool} (r : Req) (supply on : Byte) (s : State) :
    Kept ν β κ s (execFioSupSet r supply on s) := by
  unfold execFioSupSet
  with_reducible repeat' first
    | apply Kept.next
    | assumption
    | exact rfl
    | decide
    | apply Keeps.refl
    | apply runCmd_keeps
    | apply Keeps.via (supSetBody_keeps ..)
    | apply Keeps.ite
    | intro _
    | split
    | dsimp only

end Sys2Proof.Machine

end
end

