-- ==== Sys2Proof/Laws/Keeps/FieldX.lean ====
section
/-! SUPPORT. What each function of `Machine/FieldX.lean` keeps. -/

section

set_option Elab.async false

namespace Sys2Proof.Machine

theorem xShow_keeps {ν β κ : Bool} (k st : Nat) (s : State) :
    Keeps ν β κ s (xShow k st s) := by
  unfold xShow
  with_reducible repeat' first
    | assumption
    | exact rfl
    | decide
    | apply Keeps.refl
    | apply Keeps.of (State.modX_frame ..)
    | apply Keeps.via (captureLevel_keeps ..)
    | apply Keeps.ite
    | split
    | dsimp only

theorem xStates_keeps {ν β κ : Bool} (f : BitVec 128) (s : State) :
    Keeps ν β κ s (xStates f s) := by
  unfold xStates
  with_reducible repeat' first
    | assumption
    | exact rfl
    | decide
    | apply Keeps.refl
    | (lift_lets; intro x; apply Keeps.cut x ?_ (fun _ => ?_); subst x; rotate_left; clear_value x; rotate_right)
    | (lift_lets; intro x; apply Keeps.cut x.1 ?_ (fun _ => ?_); subst x; rotate_left; clear_value x; rotate_right)
    | (lift_lets; intro x; subst x)
    | apply Keeps.of (readback_frame ..)
    | apply Keeps.via (xShow_keeps ..)
    | apply Keeps.ite
    | apply Keeps.foldl
    | apply Keeps.foldl1
    | intro _
    | split
    | dsimp only

theorem xContent_keeps {ν β κ : Bool} (f : BitVec 128) (s : State) :
    Keeps ν β κ s (xContent f s) := by
  unfold xContent
  with_reducible repeat' first
    | assumption
    | exact rfl
    | decide
    | apply Keeps.refl
    | apply Keeps.via (evalRules_keeps ..)
    | apply Keeps.of (fioSnapUpdate_frame ..)
    | apply Keeps.of (xAcked_frame ..)
    | apply Keeps.of (xHeader_frame ..)
    | apply Keeps.of (xPage_frame ..)
    | apply Keeps.via (xStates_keeps ..)
    | apply Keeps.ite
    | split
    | dsimp only

theorem uplink_keeps {ν β κ : Bool} (f : BitVec 128) (s : State) :
    Keeps ν β κ s (uplink f s) := by
  unfold uplink
  with_reducible repeat' first
    | assumption
    | exact rfl
    | decide
    | apply Keeps.refl
    | (lift_lets; intro x; apply Keeps.cut x ?_ (fun _ => ?_); subst x; rotate_left; clear_value x; rotate_right)
    | (lift_lets; intro x; apply Keeps.cut x.1 ?_ (fun _ => ?_); subst x; rotate_left; clear_value x; rotate_right)
    | (lift_lets; intro x; subst x)
    | apply Keeps.of (State.modBank_frame ..)
    | apply Keeps.of (upSent_frame ..)
    | apply Keeps.via (xContent_keeps ..)
    | apply Keeps.of (xLinkUp_frame ..)
    | apply Keeps.ite
    | split
    | dsimp only

theorem execBarrierUplinkFrame_keeps {ν β κ : Bool} (frame : BitVec 128) (s : State) :
    Kept ν β κ s (execBarrierUplinkFrame frame s) := by
  unfold execBarrierUplinkFrame
  with_reducible repeat' first
    | apply Kept.next
    | assumption
    | exact rfl
    | decide
    | apply Keeps.refl
    | apply Keeps.via (uplink_keeps ..)
    | apply Keeps.ite
    | split
    | dsimp only

theorem xLost_keeps {ν β κ : Bool} (s : State) :
    Keeps ν β κ s (xLost s) := by
  unfold xLost
  with_reducible repeat' first
    | assumption
    | exact rfl
    | decide
    | apply Keeps.refl
    | (lift_lets; intro x; apply Keeps.cut x ?_ (fun _ => ?_); subst x; rotate_left; clear_value x; rotate_right)
    | (lift_lets; intro x; apply Keeps.cut x.1 ?_ (fun _ => ?_); subst x; rotate_left; clear_value x; rotate_right)
    | (lift_lets; intro x; subst x)
    | apply Keeps.of (State.modBank_frame ..)
    | apply Keeps.of (State.modX_frame ..)
    | apply Keeps.via (evalRules_keeps ..)
    | apply Keeps.of (raiseBank_frame ..)
    | apply Keeps.of (xSafeAnswer_frame ..)
    | apply Keeps.via (xShow_keeps ..)
    | apply Keeps.ite
    | apply Keeps.foldl
    | apply Keeps.foldl1
    | intro _
    | split
    | dsimp only

theorem execXUplinkLost_keeps {ν β κ : Bool} (s : State) :
    Kept ν β κ s (execXUplinkLost s) := by
  unfold execXUplinkLost
  with_reducible repeat' first
    | apply Kept.next
    | assumption
    | exact rfl
    | decide
    | apply Keeps.refl
    | apply Keeps.via (xLost_keeps ..)
    | apply Keeps.ite
    | split
    | dsimp only

end Sys2Proof.Machine

end
end

