-- ==== Sys2Proof/Laws/Keeps/HandOver.lean ====
section
/-! SUPPORT. What each function of `Machine/HandOver.lean` keeps. -/

section

set_option Elab.async false

namespace Sys2Proof.Machine

theorem bridgeStart_keeps {ν β κ : Bool} (vin : Int) (s : State) :
    Keeps ν β κ s (bridgeStart vin s) := by
  unfold bridgeStart
  with_reducible repeat' first
    | assumption
    | exact rfl
    | decide
    | apply Keeps.refl
    | (lift_lets; intro x; apply Keeps.cut x ?_ (fun _ => ?_); subst x; rotate_left; clear_value x; rotate_right)
    | (lift_lets; intro x; apply Keeps.cut x.1 ?_ (fun _ => ?_); subst x; rotate_left; clear_value x; rotate_right)
    | (lift_lets; intro x; subst x)
    | apply Keeps.of (State.modBrg_frame ..)
    | apply Keeps.of (enterBuck_frame ..)
    | apply Keeps.via (evalRules_keeps ..)
    | apply Keeps.ite
    | split
    | dsimp only

theorem execBridgeStart_keeps {ν β κ : Bool} (vin : Int) (s : State) :
    Kept ν β κ s (execBridgeStart vin s) := by
  unfold execBridgeStart
  with_reducible repeat' first
    | apply Kept.next
    | assumption
    | exact rfl
    | decide
    | apply Keeps.refl
    | apply Keeps.via (bridgeStart_keeps ..)
    | apply Keeps.ite
    | split
    | dsimp only

theorem detect_keeps {ν β κ : Bool} (cause : Nat) (vz48 vin : Int) (s : State) :
    Keeps ν β κ s (detect cause vz48 vin s) := by
  unfold detect
  with_reducible repeat' first
    | assumption
    | exact rfl
    | decide
    | apply Keeps.refl
    | (lift_lets; intro x; apply Keeps.cut x ?_ (fun _ => ?_); subst x; rotate_left; clear_value x; rotate_right)
    | (lift_lets; intro x; apply Keeps.cut x.1 ?_ (fun _ => ?_); subst x; rotate_left; clear_value x; rotate_right)
    | (lift_lets; intro x; subst x)
    | apply Keeps.of (State.modBrg_frame ..)
    | apply Keeps.via (evalRules_keeps ..)
    | apply Keeps.of (prsTrigger_frame ..)
    | apply Keeps.of (raiseBrg_frame ..)
    | apply Keeps.of (shedTo_frame ..)
    | apply Keeps.ite
    | apply Keeps.foldl
    | apply Keeps.foldl1
    | intro _
    | split
    | dsimp only

theorem keepClass_keeps {ν β κ : Bool} (vin : Int) (s : State) :
    Keeps ν β κ s (keepClass vin s) := by
  unfold keepClass
  with_reducible repeat' first
    | assumption
    | exact rfl
    | decide
    | apply Keeps.refl
    | apply Keeps.ite
    | split
    | apply Keeps.set_sys
    | dsimp only

theorem vinLoss_keeps {ν β κ : Bool} (vz48 vin : Int) (s : State) :
    Keeps ν β κ s (vinLoss vz48 vin s) := by
  unfold vinLoss
  with_reducible repeat' first
    | assumption
    | exact rfl
    | decide
    | apply Keeps.refl
    | (lift_lets; intro x; apply Keeps.cut x ?_ (fun _ => ?_); subst x; rotate_left; clear_value x; rotate_right)
    | (lift_lets; intro x; apply Keeps.cut x.1 ?_ (fun _ => ?_); subst x; rotate_left; clear_value x; rotate_right)
    | (lift_lets; intro x; subst x)
    | apply Keeps.of (State.modBrg_frame ..)
    | apply Keeps.via (detect_keeps ..)
    | apply Keeps.of (feedLoss_frame ..)
    | apply Keeps.via (keepClass_keeps ..)
    | apply Keeps.ite
    | split
    | dsimp only

theorem execVinLossDetected_keeps {ν β κ : Bool} (vz48 vin : Int) (s : State) :
    Kept ν β κ s (execVinLossDetected vz48 vin s) := by
  unfold execVinLossDetected
  with_reducible repeat' first
    | apply Kept.next
    | assumption
    | exact rfl
    | decide
    | apply Keeps.refl
    | apply Keeps.via (vinLoss_keeps ..)
    | apply Keeps.ite
    | split
    | dsimp only

theorem abandon_keeps {ν β κ : Bool} (s : State) :
    Keeps ν β κ s (abandon s) := by
  unfold abandon
  with_reducible repeat' first
    | assumption
    | exact rfl
    | decide
    | apply Keeps.refl
    | (lift_lets; intro x; apply Keeps.cut x ?_ (fun _ => ?_); subst x; rotate_left; clear_value x; rotate_right)
    | (lift_lets; intro x; apply Keeps.cut x.1 ?_ (fun _ => ?_); subst x; rotate_left; clear_value x; rotate_right)
    | (lift_lets; intro x; subst x)
    | apply Keeps.of (State.modBrg_frame ..)
    | apply Keeps.of (enterBuckRestore_frame ..)
    | apply Keeps.via (evalRules_keeps ..)
    | apply Keeps.of (raiseBrg_frame ..)
    | apply Keeps.ite
    | split
    | dsimp only

theorem execHandoverAbandon_keeps {ν β κ : Bool} (s : State) :
    Kept ν β κ s (execHandoverAbandon s) := by
  unfold execHandoverAbandon
  with_reducible repeat' first
    | apply Kept.next
    | assumption
    | exact rfl
    | decide
    | apply Keeps.refl
    | apply Keeps.via (abandon_keeps ..)
    | apply Keeps.ite
    | split
    | dsimp only

theorem commitPoint_keeps {ν β κ : Bool} (vbk12 : Int) (s : State) :
    Keeps ν β κ s (commitPoint vbk12 s) := by
  unfold commitPoint
  with_reducible repeat' first
    | assumption
    | exact rfl
    | decide
    | apply Keeps.refl
    | apply Keeps.of (batteryLow_frame ..)
    | apply Keeps.of (commit_frame ..)
    | apply Keeps.via (evalRules_keeps ..)
    | apply Keeps.ite
    | split
    | dsimp only

theorem execCommitPoint_keeps {ν β κ : Bool} (vbk12 : Int) (s : State) :
    Kept ν β κ s (execCommitPoint vbk12 s) := by
  unfold execCommitPoint
  with_reducible repeat' first
    | apply Kept.next
    | assumption
    | exact rfl
    | decide
    | apply Keeps.refl
    | apply Keeps.via (commitPoint_keeps ..)
    | apply Keeps.ite
    | split
    | dsimp only

theorem execVinValidInBoost_keeps {ν β κ : Bool} (s : State) :
    Kept ν β κ s (execVinValidInBoost s) := by
  unfold execVinValidInBoost
  with_reducible repeat' first
    | apply Kept.next
    | assumption
    | exact rfl
    | decide
    | apply Keeps.refl
    | apply Keeps.of (State.modBrg_frame ..)
    | apply Keeps.via (evalRules_keeps ..)
    | apply Keeps.of (toQualify_frame ..)
    | apply Keeps.ite
    | split
    | dsimp only

theorem execVinInvalidInQualify_keeps {ν β κ : Bool} (s : State) :
    Kept ν β κ s (execVinInvalidInQualify s) := by
  unfold execVinInvalidInQualify
  with_reducible repeat' first
    | apply Kept.next
    | assumption
    | exact rfl
    | decide
    | apply Keeps.refl
    | apply Keeps.of (State.modBrg_frame ..)
    | apply Keeps.via (evalRules_keeps ..)
    | apply Keeps.ite
    | split
    | dsimp only

theorem qualified_keeps {ν β κ : Bool} (s : State) :
    Keeps ν β κ s (qualified s) := by
  unfold qualified
  with_reducible repeat' first
    | assumption
    | exact rfl
    | decide
    | apply Keeps.refl
    | apply Keeps.of (enterHandback_frame ..)
    | apply Keeps.via (evalRules_keeps ..)
    | apply Keeps.ite
    | split
    | dsimp only

theorem execQualifyTimeout_keeps {ν β κ : Bool} (s : State) :
    Kept ν β κ s (execQualifyTimeout s) := by
  unfold execQualifyTimeout
  with_reducible repeat' first
    | apply Kept.next
    | assumption
    | exact rfl
    | decide
    | apply Keeps.refl
    | apply Keeps.via (qualified_keeps ..)
    | apply Keeps.ite
    | split
    | dsimp only

theorem rampComplete_keeps {ν β κ : Bool} (s : State) :
    Keeps ν β κ s (rampComplete s) := by
  unfold rampComplete
  with_reducible repeat' first
    | assumption
    | exact rfl
    | decide
    | apply Keeps.refl
    | apply Keeps.of (State.modBrg_frame ..)
    | apply Keeps.of (enterBuckRestore_frame ..)
    | apply Keeps.via (evalRules_keeps ..)
    | apply Keeps.of (raiseBrg_frame ..)
    | apply Keeps.ite
    | split
    | dsimp only

theorem execHandbackRampComplete_keeps {ν β κ : Bool} (s : State) :
    Kept ν β κ s (execHandbackRampComplete s) := by
  unfold execHandbackRampComplete
  with_reducible repeat' first
    | apply Kept.next
    | assumption
    | exact rfl
    | decide
    | apply Keeps.refl
    | apply Keeps.via (rampComplete_keeps ..)
    | apply Keeps.ite
    | split
    | dsimp only

theorem execVbk12Low_keeps {ν β κ : Bool} (s : State) :
    Kept ν β κ s (execVbk12Low s) := by
  unfold execVbk12Low
  with_reducible repeat' first
    | apply Kept.next
    | assumption
    | exact rfl
    | decide
    | apply Keeps.refl
    | apply Keeps.of (batteryLow_frame ..)
    | apply Keeps.via (evalRules_keeps ..)
    | apply Keeps.ite
    | split
    | dsimp only

theorem boostOverload_keeps {ν β κ : Bool} (ibk vz48 : Int) (s : State) :
    Keeps ν β κ s (boostOverload ibk vz48 s) := by
  unfold boostOverload
  with_reducible repeat' first
    | assumption
    | exact rfl
    | decide
    | apply Keeps.refl
    | (lift_lets; intro x; apply Keeps.cut x ?_ (fun _ => ?_); subst x; rotate_left; clear_value x; rotate_right)
    | (lift_lets; intro x; apply Keeps.cut x.1 ?_ (fun _ => ?_); subst x; rotate_left; clear_value x; rotate_right)
    | (lift_lets; intro x; subst x)
    | apply Keeps.via (evalRules_keeps ..)
    | apply Keeps.of (noteVz48_frame ..)
    | apply Keeps.of (raiseBrg_frame ..)
    | apply Keeps.of (shedTo_frame ..)
    | apply Keeps.ite
    | split
    | dsimp only

theorem execBoostOverload_keeps {ν β κ : Bool} (ibk vz48 : Int) (s : State) :
    Kept ν β κ s (execBoostOverload ibk vz48 s) := by
  unfold execBoostOverload
  with_reducible repeat' first
    | apply Kept.next
    | assumption
    | exact rfl
    | decide
    | apply Keeps.refl
    | apply Keeps.via (boostOverload_keeps ..)
    | apply Keeps.ite
    | split
    | dsimp only

theorem execShedRestore_keeps {ν β κ : Bool} (s : State) :
    Kept ν β κ s (execShedRestore s) := by
  unfold execShedRestore
  with_reducible repeat' first
    | apply Kept.next
    | assumption
    | exact rfl
    | decide
    | apply Keeps.refl
    | apply Keeps.via (evalRules_keeps ..)
    | apply Keeps.of (releaseLevel_frame ..)
    | apply Keeps.ite
    | split
    | dsimp only

theorem execVz12GroupRelease_keeps {ν β κ : Bool} (s : State) :
    Kept ν β κ s (execVz12GroupRelease s) := by
  unfold execVz12GroupRelease
  with_reducible repeat' first
    | apply Kept.next
    | assumption
    | exact rfl
    | decide
    | apply Keeps.refl
    | apply Keeps.of (State.modBrg_frame ..)
    | apply Keeps.of (applyStage_frame ..)
    | apply Keeps.via (evalRules_keeps ..)
    | apply Keeps.ite
    | split
    | dsimp only

theorem phaseLatch_keeps {ν β κ : Bool} (ph : Nat) (s : State) :
    Keeps ν β κ s (phaseLatch ph s) := by
  unfold phaseLatch
  with_reducible repeat' first
    | assumption
    | exact rfl
    | decide
    | apply Keeps.refl
    | (lift_lets; intro x; apply Keeps.cut x ?_ (fun _ => ?_); subst x; rotate_left; clear_value x; rotate_right)
    | (lift_lets; intro x; apply Keeps.cut x.1 ?_ (fun _ => ?_); subst x; rotate_left; clear_value x; rotate_right)
    | (lift_lets; intro x; subst x)
    | apply Keeps.of (State.modBrg_frame ..)
    | apply Keeps.of (endHandoverTest_frame ..)
    | apply Keeps.of (enterStopped_frame ..)
    | apply Keeps.via (evalRules_keeps ..)
    | apply Keeps.of (raiseBrg_frame ..)
    | apply Keeps.ite
    | split
    | dsimp only

theorem execPhaseOvercurrentLatch_keeps {ν β κ : Bool} (ph : Fin 4) (s : State) :
    Kept ν β κ s (execPhaseOvercurrentLatch ph s) := by
  unfold execPhaseOvercurrentLatch
  with_reducible repeat' first
    | apply Kept.next
    | assumption
    | exact rfl
    | decide
    | apply Keeps.refl
    | apply Keeps.via (phaseLatch_keeps ..)
    | apply Keeps.ite
    | split
    | dsimp only

theorem dieOvertemp_keeps {ν β κ : Bool} (temp : Int) (s : State) :
    Keeps ν β κ s (dieOvertemp temp s) := by
  unfold dieOvertemp
  with_reducible repeat' first
    | assumption
    | exact rfl
    | decide
    | apply Keeps.refl
    | (lift_lets; intro x; apply Keeps.cut x ?_ (fun _ => ?_); subst x; rotate_left; clear_value x; rotate_right)
    | (lift_lets; intro x; apply Keeps.cut x.1 ?_ (fun _ => ?_); subst x; rotate_left; clear_value x; rotate_right)
    | (lift_lets; intro x; subst x)
    | apply Keeps.of (State.modBrg_frame ..)
    | apply Keeps.of (dieHot_frame ..)
    | apply Keeps.of (endHandoverTest_frame ..)
    | apply Keeps.of (enterNofeed_frame ..)
    | apply Keeps.of (enterStopped_frame ..)
    | apply Keeps.via (evalRules_keeps ..)
    | apply Keeps.of (raiseBrg_frame ..)
    | apply Keeps.ite
    | split
    | dsimp only

theorem execBridgeDieOvertemp_keeps {ν β κ : Bool} (temp : Int) (s : State) :
    Kept ν β κ s (execBridgeDieOvertemp temp s) := by
  unfold execBridgeDieOvertemp
  with_reducible repeat' first
    | apply Kept.next
    | assumption
    | exact rfl
    | decide
    | apply Keeps.refl
    | apply Keeps.via (dieOvertemp_keeps ..)
    | apply Keeps.ite
    | split
    | dsimp only

theorem controlStop_keeps {ν β κ : Bool} (s : State) :
    Keeps ν β κ s (controlStop s) := by
  unfold controlStop
  with_reducible repeat' first
    | assumption
    | exact rfl
    | decide
    | apply Keeps.refl
    | apply Keeps.of (endHandoverTest_frame ..)
    | apply Keeps.of (enterStopped_frame ..)
    | apply Keeps.via (evalRules_keeps ..)
    | apply Keeps.ite
    | split
    | dsimp only

theorem execBridgeControlStop_keeps {ν β κ : Bool} (s : State) :
    Kept ν β κ s (execBridgeControlStop s) := by
  unfold execBridgeControlStop
  with_reducible repeat' first
    | apply Kept.next
    | assumption
    | exact rfl
    | decide
    | apply Keeps.refl
    | apply Keeps.via (controlStop_keeps ..)
    | apply Keeps.ite
    | split
    | dsimp only

theorem brgBody_keeps {n b q : Bool} {s0 s : State} {body : State → State × Reply} (h : Keeps n b q s0 s) (hb : Keeps n b q s0 (body s).1) :
    Keeps n b q s0 (brgBody body s).1 := by
  unfold brgBody
  split <;> assumption

theorem setLimitsBody_keeps {ν β κ : Bool} (l : BrgLimits) (s : State) :
    Keeps ν β κ s (setLimitsBody l s).1 := by
  unfold setLimitsBody
  with_reducible repeat' first
    | assumption
    | exact rfl
    | decide
    | apply Keeps.refl
    | apply Keeps.of (State.modBrg_frame ..)
    | apply Keeps.of (applyStage_frame ..)
    | apply Keeps.via (evalRules_keeps ..)
    | apply Keeps.ite
    | apply Keeps.ite1
    | split
    | dsimp only

theorem execBrgSetLimits_keeps {ν β κ : Bool} (r : Req) (f : LimitsFields) (s : State) :
    Kept ν β κ s (execBrgSetLimits r f s) := by
  unfold execBrgSetLimits
  with_reducible repeat' first
    | apply Kept.next
    | assumption
    | exact rfl
    | decide
    | apply Keeps.refl
    | apply brgBody_keeps
    | apply runCmd_keeps
    | apply Keeps.via (setLimitsBody_keeps ..)
    | apply Keeps.ite
    | intro _
    | split
    | dsimp only

theorem releaseBody_keeps {ν β κ : Bool} (s : State) :
    Keeps ν β κ s (releaseBody s).1 := by
  unfold releaseBody
  with_reducible repeat' first
    | assumption
    | exact rfl
    | decide
    | apply Keeps.refl
    | (lift_lets; intro x; apply Keeps.cut x ?_ (fun _ => ?_); subst x; rotate_left; clear_value x; rotate_right)
    | (lift_lets; intro x; apply Keeps.cut x.1 ?_ (fun _ => ?_); subst x; rotate_left; clear_value x; rotate_right)
    | (lift_lets; intro x; subst x)
    | apply Keeps.of (State.modBrg_frame ..)
    | apply Keeps.via (evalRules_keeps ..)
    | apply Keeps.of (toQualify_frame ..)
    | apply Keeps.ite
    | apply Keeps.ite1
    | split
    | dsimp only

theorem execBrgRelease_keeps {ν β κ : Bool} (r : Req) (s : State) :
    Kept ν β κ s (execBrgRelease r s) := by
  unfold execBrgRelease
  with_reducible repeat' first
    | apply Kept.next
    | assumption
    | exact rfl
    | decide
    | apply Keeps.refl
    | apply brgBody_keeps
    | apply Keeps.via (releaseBody_keeps ..)
    | apply runCmd_keeps
    | apply Keeps.ite
    | intro _
    | split
    | dsimp only

theorem testHandoverBody_keeps {ν β κ : Bool} (r : Req) (duration : Nat) (vin vbk12 : Int) (s : State) :
    Keeps ν β κ s (testHandoverBody r duration vin vbk12 s).1 := by
  unfold testHandoverBody
  with_reducible repeat' first
    | assumption
    | exact rfl
    | decide
    | apply Keeps.refl
    | (lift_lets; intro x; apply Keeps.cut x ?_ (fun _ => ?_); subst x; rotate_left; clear_value x; rotate_right)
    | (lift_lets; intro x; apply Keeps.cut x.1 ?_ (fun _ => ?_); subst x; rotate_left; clear_value x; rotate_right)
    | (lift_lets; intro x; subst x)
    | apply Keeps.of (State.modBrg_frame ..)
    | apply Keeps.via (detect_keeps ..)
    | apply Keeps.ite
    | apply Keeps.ite1
    | split
    | dsimp only

theorem execBrgTestHandover_keeps {ν β κ : Bool} (r : Req) (duration : U16) (vin vbk12 : Int) (s : State) :
    Kept ν β κ s (execBrgTestHandover r duration vin vbk12 s) := by
  unfold execBrgTestHandover
  with_reducible repeat' first
    | apply Kept.next
    | assumption
    | exact rfl
    | decide
    | apply Keeps.refl
    | apply brgBody_keeps
    | apply runCmd_keeps
    | apply Keeps.via (testHandoverBody_keeps ..)
    | apply Keeps.ite
    | intro _
    | split
    | dsimp only

theorem handoverTestEnd_keeps {ν β κ : Bool} (lowest peak : Int) (energy : U32) (s : State) :
    Keeps ν β κ s (handoverTestEnd lowest peak energy s) := by
  unfold handoverTestEnd
  with_reducible repeat' first
    | assumption
    | exact rfl
    | decide
    | apply Keeps.refl
    | (lift_lets; intro x; apply Keeps.cut x ?_ (fun _ => ?_); subst x; rotate_left; clear_value x; rotate_right)
    | (lift_lets; intro x; apply Keeps.cut x.1 ?_ (fun _ => ?_); subst x; rotate_left; clear_value x; rotate_right)
    | (lift_lets; intro x; subst x)
    | apply Keeps.of (endHandoverTest_frame ..)
    | apply Keeps.of (enterHandback_frame ..)
    | apply Keeps.via (evalRules_keeps ..)
    | apply Keeps.ite
    | split
    | dsimp only

theorem execHandoverTestEnd_keeps {ν β κ : Bool} (lowest peak : Int) (energy : U32) (s : State) :
    Kept ν β κ s (execHandoverTestEnd lowest peak energy s) := by
  unfold execHandoverTestEnd
  with_reducible repeat' first
    | apply Kept.next
    | assumption
    | exact rfl
    | decide
    | apply Keeps.refl
    | apply Keeps.via (handoverTestEnd_keeps ..)
    | apply Keeps.ite
    | split
    | dsimp only

end Sys2Proof.Machine

end
end

