-- ==== Sys2Proof/Laws/Keeps/Keys.lean ====
section
/-! SUPPORT. What each function of `Machine/Keys.lean` keeps. -/

section

set_option Elab.async false

namespace Sys2Proof.Machine

theorem countUse_keeps {ν β κ : Bool} (s : State) (st : U16) :
    Keeps ν β κ s (countUse s st) := by
  unfold countUse
  with_reducible repeat' first
    | assumption
    | exact rfl
    | decide
    | apply Keeps.refl
    | apply Keeps.via (countRefused_keeps ..)
    | apply Keeps.ite
    | split
    | dsimp only

theorem writeSlot_keeps {ν β : Bool} (n : Nat) (f : KeySlot → KeySlot) (s : State) :
    Keeps ν β false s (writeSlot n f s).1 := by
  unfold writeSlot
  with_reducible repeat' first
    | assumption
    | exact rfl
    | decide
    | apply Keeps.refl
    | (lift_lets; intro x; apply Keeps.cut x ?_ (fun _ => ?_); subst x; rotate_left; clear_value x; rotate_right)
    | (lift_lets; intro x; apply Keeps.cut x.1 ?_ (fun _ => ?_); subst x; rotate_left; clear_value x; rotate_right)
    | (lift_lets; intro x; subst x)
    | apply Keeps.of (raiseKey_frame ..)
    | apply Keeps.ite
    | apply Keeps.ite1
    | split
    | apply Keeps.set_key_keys
    | dsimp only

theorem provisionBody_keeps {ν β : Bool} (f : ProvisionFields) (s : State) :
    Keeps ν β false s (provisionBody f s).1 := by
  unfold provisionBody
  with_reducible repeat' first
    | assumption
    | exact rfl
    | decide
    | apply Keeps.refl
    | (lift_lets; intro x; apply Keeps.cut x ?_ (fun _ => ?_); subst x; rotate_left; clear_value x; rotate_right)
    | (lift_lets; intro x; apply Keeps.cut x.1 ?_ (fun _ => ?_); subst x; rotate_left; clear_value x; rotate_right)
    | (lift_lets; intro x; subst x)
    | apply Keeps.via (countUse_keeps ..)
    | apply Keeps.via (useNonce_keeps ..)
    | apply Keeps.via (writeSlot_keeps ..)
    | apply Keeps.ite
    | apply Keeps.ite1
    | split
    | apply Keeps.set_key_keys
    | dsimp only

theorem execKeyProvision_keeps {ν β : Bool} (r : Req) (f : ProvisionFields) (s : State) :
    Kept ν β false s (execKeyProvision r f s) := by
  unfold execKeyProvision
  with_reducible repeat' first
    | apply Kept.next
    | assumption
    | exact rfl
    | decide
    | apply Keeps.refl
    | apply Keeps.via (provisionBody_keeps ..)
    | apply runCmd_keeps
    | apply Keeps.ite
    | intro _
    | split
    | dsimp only

theorem eraseBody_keeps {ν β : Bool} (n nonce : Nat) (sig : KeySig) (s : State) :
    Keeps ν β false s (eraseBody n nonce sig s).1 := by
  unfold eraseBody
  with_reducible repeat' first
    | assumption
    | exact rfl
    | decide
    | apply Keeps.refl
    | (lift_lets; intro x; apply Keeps.cut x ?_ (fun _ => ?_); subst x; rotate_left; clear_value x; rotate_right)
    | (lift_lets; intro x; apply Keeps.cut x.1 ?_ (fun _ => ?_); subst x; rotate_left; clear_value x; rotate_right)
    | (lift_lets; intro x; subst x)
    | apply Keeps.via (countUse_keeps ..)
    | apply Keeps.via (useNonce_keeps ..)
    | apply Keeps.via (writeSlot_keeps ..)
    | apply Keeps.ite
    | apply Keeps.ite1
    | split
    | apply Keeps.set_key_keys
    | dsimp only

theorem execKeyEraseSlot_keeps {ν β : Bool} (r : Req) (slot : Byte) (nonce : Nat) (sig : KeySig) (s : State) :
    Kept ν β false s (execKeyEraseSlot r slot nonce sig s) := by
  unfold execKeyEraseSlot
  with_reducible repeat' first
    | apply Kept.next
    | assumption
    | exact rfl
    | decide
    | apply Keeps.refl
    | apply Keeps.via (eraseBody_keeps ..)
    | apply runCmd_keeps
    | apply Keeps.ite
    | intro _
    | split
    | dsimp only

theorem trngFail_keeps {ν β κ : Bool} (s : State) :
    Keeps ν β κ s (trngFail s) := by
  unfold trngFail
  with_reducible repeat' first
    | assumption
    | exact rfl
    | decide
    | apply Keeps.refl
    | apply Keeps.of (raiseKey_frame ..)
    | apply Keeps.ite
    | split
    | apply Keeps.set_key
    | dsimp only

theorem execTrngHealthFail_keeps {ν β κ : Bool} (s : State) :
    Kept ν β κ s (execTrngHealthFail s) := by
  unfold execTrngHealthFail
  with_reducible repeat' first
    | apply Kept.next
    | assumption
    | exact rfl
    | decide
    | apply Keeps.refl
    | apply Keeps.via (trngFail_keeps ..)
    | apply Keeps.ite
    | split
    | dsimp only

end Sys2Proof.Machine

end
end

