-- ==== Sys2Proof/Laws/Keeps/PowerDie.lean ====
section
/-! SUPPORT. What each function of `Machine/PowerDie.lean` keeps. -/

section

set_option Elab.async false

namespace Sys2Proof.Machine

theorem execPowerDieLinkFrame_keeps {ν β κ : Bool} (die : Fin 8) (clamp : List (Fin 14 × Nat)) (s : State) :
    Kept ν β κ s (execPowerDieLinkFrame die clamp s) := by
  unfold execPowerDieLinkFrame
  with_reducible repeat' first
    | apply Kept.next
    | assumption
    | exact rfl
    | decide
    | apply Keeps.refl
    | apply Keeps.of (addClamp_frame ..)
    | apply Keeps.of (dieFrame_frame ..)
    | apply Keeps.via (evalRules_keeps ..)
    | apply Keeps.ite
    | apply Keeps.foldl
    | apply Keeps.foldl1
    | intro _
    | split
    | dsimp only

theorem execStatusWordUpdate_keeps {ν β κ : Bool} (ch : Fin 112) (m : Measure) (s : State) :
    Kept ν β κ s (execStatusWordUpdate ch m s) := by
  unfold execStatusWordUpdate
  with_reducible repeat' first
    | apply Kept.next
    | assumption
    | exact rfl
    | decide
    | apply Keeps.refl
    | apply Keeps.of (chStatUpdate_frame ..)
    | apply Keeps.via (evalRules_keeps ..)
    | apply Keeps.of (statusUpdate_frame ..)
    | apply Keeps.ite
    | split
    | dsimp only

end Sys2Proof.Machine

end
end

