-- ==== Sys2Proof/Laws/Keeps/ReflexCmds.lean ====
section
/-! SUPPORT. What each function of `Machine/ReflexCmds.lean` keeps. -/

section

set_option Elab.async false

namespace Sys2Proof.Machine

theorem safeNTo_keeps {ν β κ : Bool} (low : Bool) (s : State) :
    Keeps ν β κ s (safeNTo low s) := by
  unfold safeNTo
  with_reducible repeat' first
    | assumption
    | exact rfl
    | decide
    | apply Keeps.refl
    | apply Keeps.via (captureLevel_keeps ..)
    | apply Keeps.ite
    | split
    | apply Keeps.set_rfx
    | dsimp only

theorem safeNAssert_keeps {ν β κ : Bool} (s : State) :
    Keeps ν β κ s (safeNAssert s) := by
  unfold safeNAssert
  with_reducible repeat' first
    | dsimp only
    | assumption
    | exact rfl
    | decide
    | apply Keeps.refl
    | apply Keeps.via (evalRules_keeps ..)
    | apply Keeps.via (safeNTo_keeps ..)
    | apply Keeps.via (selfArrest_keeps ..)
    | apply Keeps.ite
    | split
    | dsimp only

theorem execSafeNAssert_keeps {ν β κ : Bool} (s : State) :
    Kept ν β κ s (execSafeNAssert s) := by
  unfold execSafeNAssert
  with_reducible repeat' first
    | apply Kept.next
    | assumption
    | exact rfl
    | decide
    | apply Keeps.refl
    | apply Keeps.via (safeNAssert_keeps ..)
    | apply Keeps.ite
    | split
    | dsimp only

theorem execSafeNRelease_keeps {ν β κ : Bool} (s : State) :
    Kept ν β κ s (execSafeNRelease s) := by
  unfold execSafeNRelease
  with_reducible repeat' first
    | apply Kept.next
    | assumption
    | exact rfl
    | decide
    | apply Keeps.refl
    | apply Keeps.via (evalRules_keeps ..)
    | apply Keeps.via (safeNTo_keeps ..)
    | apply Keeps.ite
    | split
    | dsimp only

theorem limpTimer_keeps {ν β κ : Bool} (s : State) :
    Keeps ν β κ s (limpTimer s) := by
  unfold limpTimer
  with_reducible repeat' first
    | assumption
    | exact rfl
    | decide
    | apply Keeps.refl
    | (lift_lets; intro x; apply Keeps.cut x ?_ (fun _ => ?_); subst x; rotate_left; clear_value x; rotate_right)
    | (lift_lets; intro x; apply Keeps.cut x.1 ?_ (fun _ => ?_); subst x; rotate_left; clear_value x; rotate_right)
    | (lift_lets; intro x; subst x)
    | apply Keeps.of (pushAll_frame ..)
    | apply Keeps.ite
    | split
    | apply Keeps.set_rfx
    | dsimp only

theorem execLimpTableTimer_keeps {ν β κ : Bool} (s : State) :
    Kept ν β κ s (execLimpTableTimer s) := by
  unfold execLimpTableTimer
  with_reducible repeat' first
    | apply Kept.next
    | assumption
    | exact rfl
    | decide
    | apply Keeps.refl
    | apply Keeps.via (limpTimer_keeps ..)
    | apply Keeps.ite
    | split
    | dsimp only

theorem execEdgeWindowEnd_keeps {ν β κ : Bool} (rule : Fin 1024) (slot : Fin 4) (s : State) :
    Kept ν β κ s (execEdgeWindowEnd rule slot s) := by
  unfold execEdgeWindowEnd
  with_reducible repeat' first
    | apply Kept.next
    | assumption
    | exact rfl
    | decide
    | apply Keeps.refl
    | apply Keeps.via (State.modRule_keeps ..)
    | apply Keeps.via (evalRules_keeps ..)
    | apply Keeps.ite
    | split
    | dsimp only

theorem loadRuleBody_keeps {ν β κ : Bool} (n : Nat) (f : RuleFields) (s : State) :
    Keeps ν β κ s (loadRuleBody n f s).1 := by
  unfold loadRuleBody
  with_reducible repeat' first
    | assumption
    | exact rfl
    | decide
    | apply Keeps.refl
    | apply Keeps.via (State.modRule_keeps ..)
    | apply Keeps.via (evalRules_keeps ..)
    | apply Keeps.ite
    | apply Keeps.ite1
    | split
    | dsimp only

theorem execRfxLoadRule_keeps {ν β κ : Bool} (r : Req) (rule : U16) (f : RuleFields) (s : State) :
    Kept ν β κ s (execRfxLoadRule r rule f s) := by
  unfold execRfxLoadRule
  with_reducible repeat' first
    | apply Kept.next
    | assumption
    | exact rfl
    | decide
    | apply Keeps.refl
    | apply Keeps.via (loadRuleBody_keeps ..)
    | apply runCmd_keeps
    | apply Keeps.ite
    | intro _
    | split
    | dsimp only

theorem enableBody_keeps {ν β κ : Bool} (ns : List Nat) (s : State) :
    Keeps ν β κ s (enableBody ns s).1 := by
  unfold enableBody
  with_reducible repeat' first
    | assumption
    | exact rfl
    | decide
    | apply Keeps.refl
    | apply Keeps.via (evalRules_keeps ..)
    | apply Keeps.ite
    | apply Keeps.ite1
    | split
    | apply Keeps.set_rfx
    | dsimp only

theorem disableBody_keeps {ν β κ : Bool} (ns : List Nat) (s : State) :
    Keeps ν β κ s (disableBody ns s).1 := by
  unfold disableBody
  with_reducible repeat' first
    | assumption
    | exact rfl
    | decide
    | apply Keeps.refl
    | apply Keeps.via (evalRules_keeps ..)
    | apply Keeps.ite
    | apply Keeps.ite1
    | split
    | apply Keeps.set_rfx
    | dsimp only

theorem execRfxEnable_keeps {ν β κ : Bool} (r : Req) (first count : U16) (s : State) :
    Kept ν β κ s (execRfxEnable r first count s) := by
  unfold execRfxEnable
  with_reducible repeat' first
    | apply Kept.next
    | assumption
    | exact rfl
    | decide
    | apply Keeps.refl
    | apply Keeps.via (enableBody_keeps ..)
    | apply runCmd_keeps
    | apply Keeps.ite
    | intro _
    | split
    | dsimp only

theorem execRfxDisable_keeps {ν β κ : Bool} (r : Req) (first count : U16) (s : State) :
    Kept ν β κ s (execRfxDisable r first count s) := by
  unfold execRfxDisable
  with_reducible repeat' first
    | apply Kept.next
    | assumption
    | exact rfl
    | decide
    | apply Keeps.refl
    | apply Keeps.via (disableBody_keeps ..)
    | apply runCmd_keeps
    | apply Keeps.ite
    | intro _
    | split
    | dsimp only

theorem execRfxSelfArrest_keeps {ν β κ : Bool} (r : Req) (reason : U16) (s : State) :
    Kept ν β κ s (execRfxSelfArrest r reason s) := by
  unfold execRfxSelfArrest
  with_reducible repeat' first
    | apply Kept.next
    | assumption
    | exact rfl
    | decide
    | apply Keeps.refl
    | apply runCmd_keeps
    | apply Keeps.via (selfArrest_keeps ..)
    | apply Keeps.ite
    | intro _
    | split
    | dsimp only

theorem safeNFilterBody_keeps {ν β κ : Bool} (tSnf : Nat) (sna : Bool) (s : State) :
    Keeps ν β κ s (safeNFilterBody tSnf sna s).1 := by
  unfold safeNFilterBody
  with_reducible repeat' first
    | assumption
    | exact rfl
    | decide
    | apply Keeps.refl
    | (lift_lets; intro x; apply Keeps.cut x ?_ (fun _ => ?_); subst x; rotate_left; clear_value x; rotate_right)
    | (lift_lets; intro x; apply Keeps.cut x.1 ?_ (fun _ => ?_); subst x; rotate_left; clear_value x; rotate_right)
    | (lift_lets; intro x; subst x)
    | apply Keeps.via (selfArrest_keeps ..)
    | apply Keeps.ite
    | apply Keeps.ite1
    | split
    | apply Keeps.set_rfx
    | dsimp only

theorem execRfxSafeNFilter_keeps {ν β κ : Bool} (r : Req) (tSnf : U16) (flags : Byte) (s : State) :
    Kept ν β κ s (execRfxSafeNFilter r tSnf flags s) := by
  unfold execRfxSafeNFilter
  with_reducible repeat' first
    | apply Kept.next
    | assumption
    | exact rfl
    | decide
    | apply Keeps.refl
    | apply runCmd_keeps
    | apply Keeps.via (safeNFilterBody_keeps ..)
    | apply Keeps.ite
    | intro _
    | split
    | dsimp only

end Sys2Proof.Machine

end
end

