-- ==== Sys2Proof/Laws/Keeps/Ring.lean ====
section
/-! SUPPORT. What each function of `Machine/Ring.lean` keeps. -/

section

set_option Elab.async false

namespace Sys2Proof.Machine

theorem State.askedSeen_keeps {ν β κ : Bool} (s : State) :
    Keeps ν β κ s (State.askedSeen s) := by
  unfold State.askedSeen
  with_reducible repeat' first
    | assumption
    | exact rfl
    | decide
    | apply Keeps.refl
    | apply Keeps.ite
    | split
    | apply Keeps.set_sys
    | dsimp only

theorem sendRef_keeps {ν β κ : Bool} (s : State) :
    Keeps ν β κ s (sendRef s) := by
  unfold sendRef
  with_reducible repeat' first
    | assumption
    | exact rfl
    | decide
    | apply Keeps.refl
    | (lift_lets; intro x; apply Keeps.cut x ?_ (fun _ => ?_); subst x; rotate_left; clear_value x; rotate_right)
    | (lift_lets; intro x; apply Keeps.cut x.1 ?_ (fun _ => ?_); subst x; rotate_left; clear_value x; rotate_right)
    | (lift_lets; intro x; subst x)
    | apply Keeps.via (State.askedSeen_keeps ..)
    | apply Keeps.via (captureEdge_keeps ..)
    | apply Keeps.of (transmitOut_frame ..)
    | apply Keeps.ite
    | split
    | dsimp only

theorem joinRing_keeps {ν β κ : Bool} (s : State) :
    Keeps ν β κ s (joinRing s) := by
  unfold joinRing
  with_reducible repeat' first
    | assumption
    | exact rfl
    | decide
    | apply Keeps.refl
    | (lift_lets; intro x; apply Keeps.cut x ?_ (fun _ => ?_); subst x; rotate_left; clear_value x; rotate_right)
    | (lift_lets; intro x; apply Keeps.cut x.1 ?_ (fun _ => ?_); subst x; rotate_left; clear_value x; rotate_right)
    | (lift_lets; intro x; subst x)
    | apply Keeps.of (State.modRing_frame ..)
    | apply Keeps.of (raiseRing_frame ..)
    | apply Keeps.via (setValid_keeps ..)
    | apply Keeps.ite
    | split
    | apply Keeps.set_sys
    | dsimp only

theorem ownRefBack_keeps {ν β κ : Bool} (f : SyncRef) (goal : Int) (s : State) :
    Keeps ν β κ s (ownRefBack f goal s) := by
  unfold ownRefBack
  with_reducible repeat' first
    | assumption
    | exact rfl
    | decide
    | apply Keeps.refl
    | (lift_lets; intro x; apply Keeps.cut x ?_ (fun _ => ?_); subst x; rotate_left; clear_value x; rotate_right)
    | (lift_lets; intro x; apply Keeps.cut x.1 ?_ (fun _ => ?_); subst x; rotate_left; clear_value x; rotate_right)
    | (lift_lets; intro x; subst x)
    | apply Keeps.of (State.modRing_frame ..)
    | apply Keeps.via (servo_keeps ..)
    | apply Keeps.of (sleepDecision_frame ..)
    | apply Keeps.of (startHandover_frame ..)
    | apply Keeps.ite
    | split
    | dsimp only

theorem correctV0_keeps {ν β κ : Bool} (goal : Int) (s : State) :
    Keeps ν β κ s (correctV0 goal s) := by
  unfold correctV0
  with_reducible repeat' first
    | assumption
    | exact rfl
    | decide
    | apply Keeps.refl
    | (lift_lets; intro x; apply Keeps.cut x ?_ (fun _ => ?_); subst x; rotate_left; clear_value x; rotate_right)
    | (lift_lets; intro x; apply Keeps.cut x.1 ?_ (fun _ => ?_); subst x; rotate_left; clear_value x; rotate_right)
    | (lift_lets; intro x; subst x)
    | apply Keeps.of (State.modRing_frame ..)
    | apply Keeps.via (servo_keeps ..)
    | apply Keeps.ite
    | split
    | dsimp only

theorem followRef_keeps {ν β κ : Bool} (p : Nat) (h : RingHeader) (f : SyncRef) (residence : U32) (s : State) :
    Keeps ν β κ s (followRef p h f residence s) := by
  unfold followRef
  with_reducible repeat' first
    | assumption
    | exact rfl
    | decide
    | apply Keeps.refl
    | (lift_lets; intro x; apply Keeps.cut x ?_ (fun _ => ?_); subst x; rotate_left; clear_value x; rotate_right)
    | (lift_lets; intro x; apply Keeps.cut x.1 ?_ (fun _ => ?_); subst x; rotate_left; clear_value x; rotate_right)
    | (lift_lets; intro x; subst x)
    | apply Keeps.via (State.askedSeen_keeps ..)
    | apply Keeps.of (State.modRing_frame ..)
    | apply Keeps.via (captureEdge_keeps ..)
    | apply Keeps.via (correctV0_keeps ..)
    | apply Keeps.of (forward_frame ..)
    | apply Keeps.via (joinRing_keeps ..)
    | apply Keeps.of (noteDelay_frame ..)
    | apply Keeps.of (setSleepAt_frame ..)
    | apply Keeps.of (takeCycle_frame ..)
    | apply Keeps.ite
    | split
    | dsimp only

theorem takeRef_keeps {ν β κ : Bool} (p : Nat) (h : RingHeader) (f : SyncRef) (residence : U32) (s : State) :
    Keeps ν β κ s (takeRef p h f residence s) := by
  unfold takeRef
  with_reducible repeat' first
    | assumption
    | exact rfl
    | decide
    | apply Keeps.refl
    | (lift_lets; intro x; apply Keeps.cut x ?_ (fun _ => ?_); subst x; rotate_left; clear_value x; rotate_right)
    | (lift_lets; intro x; apply Keeps.cut x.1 ?_ (fun _ => ?_); subst x; rotate_left; clear_value x; rotate_right)
    | (lift_lets; intro x; subst x)
    | apply Keeps.via (followRef_keeps ..)
    | apply Keeps.of (foreignRef_frame ..)
    | apply Keeps.of (forward_frame ..)
    | apply Keeps.via (ownRefBack_keeps ..)
    | apply Keeps.ite
    | split
    | dsimp only

theorem syncRef_keeps {ν β κ : Bool} (p : Nat) (h : RingHeader) (f : SyncRef) (residence : U32) (s : State) :
    Keeps ν β κ s (syncRef p h f residence s) := by
  unfold syncRef
  with_reducible repeat' first
    | assumption
    | exact rfl
    | decide
    | apply Keeps.refl
    | (lift_lets; intro x; apply Keeps.cut x ?_ (fun _ => ?_); subst x; rotate_left; clear_value x; rotate_right)
    | (lift_lets; intro x; apply Keeps.cut x.1 ?_ (fun _ => ?_); subst x; rotate_left; clear_value x; rotate_right)
    | (lift_lets; intro x; subst x)
    | apply Keeps.of (basecampRef_frame ..)
    | apply Keeps.of (discard_frame ..)
    | apply Keeps.of (schedMismatch_frame ..)
    | apply Keeps.via (takeRef_keeps ..)
    | apply Keeps.ite
    | split
    | dsimp only

theorem execSyncRefReceived_keeps {ν β κ : Bool} (port : Fin 2) (link : LinkCheck) (h : RingHeader) (f : SyncRef) (residence : U32) (s : State) :
    Kept ν β κ s (execSyncRefReceived port link h f residence s) := by
  unfold execSyncRefReceived
  with_reducible repeat' first
    | apply Kept.next
    | assumption
    | exact rfl
    | decide
    | apply Keeps.refl
    | (lift_lets; intro x; apply Keeps.cut x ?_ (fun _ => ?_); subst x; rotate_left; clear_value x; rotate_right)
    | (lift_lets; intro x; apply Keeps.cut x.1 ?_ (fun _ => ?_); subst x; rotate_left; clear_value x; rotate_right)
    | (lift_lets; intro x; subst x)
    | apply Keeps.of (linkRx_frame ..)
    | apply Keeps.via (syncRef_keeps ..)
    | apply Keeps.ite
    | split
    | dsimp only

theorem refMissing_keeps {ν β κ : Bool} (s : State) :
    Keeps ν β κ s (refMissing s) := by
  unfold refMissing
  with_reducible repeat' first
    | assumption
    | exact rfl
    | decide
    | apply Keeps.refl
    | (lift_lets; intro x; apply Keeps.cut x ?_ (fun _ => ?_); subst x; rotate_left; clear_value x; rotate_right)
    | (lift_lets; intro x; apply Keeps.cut x.1 ?_ (fun _ => ?_); subst x; rotate_left; clear_value x; rotate_right)
    | (lift_lets; intro x; subst x)
    | apply Keeps.of (State.modRing_frame ..)
    | apply Keeps.via (joinRing_keeps ..)
    | apply Keeps.of (raiseRing_frame ..)
    | apply Keeps.of (takeMaster_frame ..)
    | apply Keeps.ite
    | split
    | dsimp only

theorem execSyncRefMissing_keeps {ν β κ : Bool} (s : State) :
    Kept ν β κ s (execSyncRefMissing s) := by
  unfold execSyncRefMissing
  with_reducible repeat' first
    | apply Kept.next
    | assumption
    | exact rfl
    | decide
    | apply Keeps.refl
    | apply Keeps.via (refMissing_keeps ..)
    | apply Keeps.ite
    | split
    | dsimp only

theorem anchorV1_keeps {ν β κ : Bool} (s : State) :
    Keeps ν β κ s (anchorV1 s) := by
  unfold anchorV1
  with_reducible repeat' first
    | assumption
    | exact rfl
    | decide
    | apply Keeps.refl
    | (lift_lets; intro x; apply Keeps.cut x ?_ (fun _ => ?_); subst x; rotate_left; clear_value x; rotate_right)
    | (lift_lets; intro x; apply Keeps.cut x.1 ?_ (fun _ => ?_); subst x; rotate_left; clear_value x; rotate_right)
    | (lift_lets; intro x; subst x)
    | apply Keeps.via (rebaseQuiet_keeps ..)
    | apply Keeps.ite
    | split
    | dsimp only

theorem cycleStart_keeps {ν β κ : Bool} (s : State) :
    Keeps ν β κ s (cycleStart s) := by
  unfold cycleStart
  with_reducible repeat' first
    | assumption
    | exact rfl
    | decide
    | apply Keeps.refl
    | (lift_lets; intro x; apply Keeps.cut x ?_ (fun _ => ?_); subst x; rotate_left; clear_value x; rotate_right)
    | (lift_lets; intro x; apply Keeps.cut x.1 ?_ (fun _ => ?_); subst x; rotate_left; clear_value x; rotate_right)
    | (lift_lets; intro x; subst x)
    | apply Keeps.of (State.modRing_frame ..)
    | apply Keeps.via (anchorV1_keeps ..)
    | apply Keeps.of (dropMaster_frame ..)
    | apply Keeps.of (healStep_frame ..)
    | apply Keeps.via (joinRing_keeps ..)
    | apply Keeps.of (ownCycle_frame ..)
    | apply Keeps.via (sendRef_keeps ..)
    | apply Keeps.of (takeMaster_frame ..)
    | apply Keeps.ite
    | split
    | dsimp only

theorem needJoined_keeps {n b q : Bool} {s0 s : State} {f : State → State × Reply} (h : Keeps n b q s0 s) (hb : Keeps n b q s0 (f s).1) :
    Keeps n b q s0 (needJoined f s).1 := by
  unfold needJoined
  split <;> assumption

end Sys2Proof.Machine

end
end

