-- ==== Sys2Proof/Laws/Keeps/Sleep.lean ====
section
/-! SUPPORT. What each function of `Machine/Sleep.lean` keeps. -/

section

set_option Elab.async false

namespace Sys2Proof.Machine

theorem armWakes_keeps {ν β κ : Bool} (trigger : Nat) (s : State) :
    Keeps ν β κ s (armWakes trigger s) := by
  unfold armWakes
  with_reducible repeat' first
    | assumption
    | exact rfl
    | decide
    | apply Keeps.refl
    | (lift_lets; intro x; apply Keeps.cut x ?_ (fun _ => ?_); subst x; rotate_left; clear_value x; rotate_right)
    | (lift_lets; intro x; apply Keeps.cut x.1 ?_ (fun _ => ?_); subst x; rotate_left; clear_value x; rotate_right)
    | (lift_lets; intro x; subst x)
    | apply Keeps.ite
    | split
    | apply Keeps.set_sys_fio_net
    | dsimp only

theorem bivouacEnter_keeps {ν β κ : Bool} (trigger : Nat) (s : State) :
    Keeps ν β κ s (bivouacEnter trigger s) := by
  unfold bivouacEnter
  with_reducible repeat' first
    | assumption
    | exact rfl
    | decide
    | apply Keeps.refl
    | apply Keeps.via (armWakes_keeps ..)
    | apply Keeps.of (sleepOutputs_frame ..)
    | apply Keeps.of (twinRelease_frame ..)
    | apply Keeps.ite
    | split
    | dsimp only

theorem bivouacSwitch_keeps {ν β κ : Bool} (s : State) :
    Keeps ν β κ s (bivouacSwitch s) := by
  unfold bivouacSwitch
  with_reducible repeat' first
    | assumption
    | exact rfl
    | decide
    | apply Keeps.refl
    | (lift_lets; intro x; apply Keeps.cut x ?_ (fun _ => ?_); subst x; rotate_left; clear_value x; rotate_right)
    | (lift_lets; intro x; apply Keeps.cut x.1 ?_ (fun _ => ?_); subst x; rotate_left; clear_value x; rotate_right)
    | (lift_lets; intro x; subst x)
    | apply Keeps.of (enterStopped_frame ..)
    | apply Keeps.of (flushLog_frame ..)
    | apply Keeps.via (setMode_keeps ..)
    | apply Keeps.ite
    | split
    | apply Keeps.set_sys_mbx
    | dsimp only

theorem wakeStart_keeps {ν β κ : Bool} (s : State) :
    Keeps ν β κ s (wakeStart s) := by
  unfold wakeStart
  with_reducible repeat' first
    | assumption
    | exact rfl
    | decide
    | apply Keeps.refl
    | apply Keeps.ite
    | split
    | apply Keeps.set_sys
    | dsimp only

theorem bivouacDone_keeps {n b q : Bool} (s : State) : Keeps n b q s (bivouacDone s) := by
  unfold bivouacDone
  split
  · exact Keeps.refl ..
  · lift_lets
    intro x
    have hx : Keeps n b q s x := by
      subst x
      split
      · exact bivouacSwitch_keeps s
      · exact Keeps.refl ..
    clear_value x
    dsimp only
    split
    · refine Keeps.via (wakeStart_keeps ..) ?_
      exact Keeps.halts (s := { x with ch := { x.ch with dies := x.ch.dies.mapAll (fun _ d => { d with silenceFrom := d.lastFrame }) } })
        rfl rfl rfl rfl rfl rfl rfl rfl rfl (.inr (fun e => LogicPhase.noConfusion e)) rfl
        (Keeps.same (t := x) rfl rfl rfl rfl rfl rfl rfl rfl rfl rfl rfl rfl rfl hx)
    · exact Keeps.halts (s := { x with ch := { x.ch with dies := x.ch.dies.mapAll (fun _ d => { d with silenceFrom := d.lastFrame }) } })
        rfl rfl rfl rfl rfl rfl rfl rfl rfl (.inr (fun e => LogicPhase.noConfusion e)) rfl
        (Keeps.same (t := x) rfl rfl rfl rfl rfl rfl rfl rfl rfl rfl rfl rfl rfl hx)

theorem execBivouacEntryDone_keeps {ν β κ : Bool} (s : State) :
    Kept ν β κ s (execBivouacEntryDone s) := by
  unfold execBivouacEntryDone
  with_reducible repeat' first
    | apply Kept.next
    | assumption
    | exact rfl
    | decide
    | apply Keeps.refl
    | apply Keeps.via (bivouacDone_keeps ..)
    | apply Keeps.ite
    | split
    | dsimp only

theorem sysSleepBody_keeps {ν β κ : Bool} (s : State) :
    Keeps ν β κ s (sysSleepBody s).1 := by
  unfold sysSleepBody
  with_reducible repeat' first
    | assumption
    | exact rfl
    | decide
    | apply Keeps.refl
    | apply Keeps.via (bivouacEnter_keeps ..)
    | apply Keeps.ite
    | apply Keeps.ite1
    | split
    | dsimp only

theorem execSysSleep_keeps {ν β κ : Bool} (r : Req) (s : State) :
    Kept ν β κ s (execSysSleep r s) := by
  unfold execSysSleep
  with_reducible repeat' first
    | apply Kept.next
    | assumption
    | exact rfl
    | decide
    | apply Keeps.refl
    | apply runCmd_keeps
    | apply Keeps.via (sysSleepBody_keeps ..)
    | apply Keeps.ite
    | intro _
    | split
    | dsimp only

theorem execAutoSleep_keeps {ν β κ : Bool} (s : State) :
    Kept ν β κ s (execAutoSleep s) := by
  unfold execAutoSleep
  with_reducible repeat' first
    | apply Kept.next
    | assumption
    | exact rfl
    | decide
    | apply Keeps.refl
    | apply Keeps.via (bivouacEnter_keeps ..)
    | apply Keeps.ite
    | split
    | dsimp only

theorem wakeUp_keeps {ν β κ : Bool} (mark : WakeCause → WakeCause) (s : State) :
    Keeps ν β κ s (wakeUp mark s) := by
  unfold wakeUp
  with_reducible repeat' first
    | assumption
    | exact rfl
    | decide
    | apply Keeps.refl
    | (lift_lets; intro x; apply Keeps.cut x ?_ (fun _ => ?_); subst x; rotate_left; clear_value x; rotate_right)
    | (lift_lets; intro x; apply Keeps.cut x.1 ?_ (fun _ => ?_); subst x; rotate_left; clear_value x; rotate_right)
    | (lift_lets; intro x; subst x)
    | apply Keeps.of (cancelKeep_frame ..)
    | apply Keeps.of (raise_frame ..)
    | apply Keeps.of (urgent_frame ..)
    | apply Keeps.via (wakeStart_keeps ..)
    | apply Keeps.ite
    | split
    | apply Keeps.set_sys
    | apply Keeps.set_sys_ring
    | dsimp only

theorem execWakeNAssert_keeps {ν β κ : Bool} (s : State) :
    Kept ν β κ s (execWakeNAssert s) := by
  unfold execWakeNAssert
  with_reducible repeat' first
    | apply Kept.next
    | assumption
    | exact rfl
    | decide
    | apply Keeps.refl
    | apply Keeps.via (wakeUp_keeps ..)
    | apply Keeps.ite
    | split
    | dsimp only

theorem execPortTc10Wake_keeps {ν β κ : Bool} (p : Fin 8) (s : State) :
    Kept ν β κ s (execPortTc10Wake p s) := by
  unfold execPortTc10Wake
  with_reducible repeat' first
    | apply Kept.next
    | assumption
    | exact rfl
    | decide
    | apply Keeps.refl
    | apply Keeps.via (wakeUp_keeps ..)
    | apply Keeps.ite
    | split
    | dsimp only

theorem ringWake_keeps {ν β κ : Bool} (p : Nat) (s : State) :
    Keeps ν β κ s (ringWake p s) := by
  unfold ringWake
  with_reducible repeat' first
    | assumption
    | exact rfl
    | decide
    | apply Keeps.refl
    | (lift_lets; intro x; apply Keeps.cut x ?_ (fun _ => ?_); subst x; rotate_left; clear_value x; rotate_right)
    | (lift_lets; intro x; apply Keeps.cut x.1 ?_ (fun _ => ?_); subst x; rotate_left; clear_value x; rotate_right)
    | (lift_lets; intro x; subst x)
    | apply Keeps.of (State.modRing_frame ..)
    | apply Keeps.via (wakeUp_keeps ..)
    | apply Keeps.ite
    | split
    | dsimp only

theorem execRingTc10Wake_keeps {ν β κ : Bool} (port : Fin 2) (s : State) :
    Kept ν β κ s (execRingTc10Wake port s) := by
  unfold execRingTc10Wake
  with_reducible repeat' first
    | apply Kept.next
    | assumption
    | exact rfl
    | decide
    | apply Keeps.refl
    | apply Keeps.via (ringWake_keeps ..)
    | apply Keeps.ite
    | split
    | dsimp only

theorem ringSleepNow_keeps {ν β κ : Bool} (s : State) :
    Keeps ν β κ s (ringSleepNow s) := by
  unfold ringSleepNow
  with_reducible repeat' first
    | assumption
    | exact rfl
    | decide
    | apply Keeps.refl
    | (lift_lets; intro x; apply Keeps.cut x ?_ (fun _ => ?_); subst x; rotate_left; clear_value x; rotate_right)
    | (lift_lets; intro x; apply Keeps.cut x.1 ?_ (fun _ => ?_); subst x; rotate_left; clear_value x; rotate_right)
    | (lift_lets; intro x; subst x)
    | apply Keeps.of (State.modRing_frame ..)
    | apply Keeps.via (bivouacSwitch_keeps ..)
    | apply Keeps.ite
    | split
    | apply Keeps.set_sys
    | dsimp only

theorem execRingSleep_keeps {ν β κ : Bool} (s : State) :
    Kept ν β κ s (execRingSleep s) := by
  unfold execRingSleep
  with_reducible repeat' first
    | apply Kept.next
    | assumption
    | exact rfl
    | decide
    | apply Keeps.refl
    | apply Keeps.via (ringSleepNow_keeps ..)
    | apply Keeps.ite
    | split
    | dsimp only

theorem cycSample_keeps {ν β κ : Bool} (n : Nat) (mv : Int) (s : State) :
    Keeps ν β κ s (cycSample n mv s) := by
  unfold cycSample
  with_reducible repeat' first
    | assumption
    | exact rfl
    | decide
    | apply Keeps.refl
    | (lift_lets; intro x; apply Keeps.cut x ?_ (fun _ => ?_); subst x; rotate_left; clear_value x; rotate_right)
    | (lift_lets; intro x; apply Keeps.cut x.1 ?_ (fun _ => ?_); subst x; rotate_left; clear_value x; rotate_right)
    | (lift_lets; intro x; subst x)
    | apply Keeps.via (wakeUp_keeps ..)
    | apply Keeps.ite
    | split
    | apply Keeps.set_fio
    | dsimp only

theorem execCyclicSenseSample_keeps {ν β κ : Bool} (n : Fin 16) (mv : Int) (s : State) :
    Kept ν β κ s (execCyclicSenseSample n mv s) := by
  unfold execCyclicSenseSample
  with_reducible repeat' first
    | apply Kept.next
    | assumption
    | exact rfl
    | decide
    | apply Keeps.refl
    | apply Keeps.via (cycSample_keeps ..)
    | apply Keeps.ite
    | split
    | dsimp only

theorem rtcExpire_keeps {ν β κ : Bool} (s : State) :
    Keeps ν β κ s (rtcExpire s) := by
  unfold rtcExpire
  with_reducible repeat' first
    | dsimp only
    | assumption
    | exact rfl
    | decide
    | apply Keeps.refl
    | apply Keeps.of (raise_frame ..)
    | apply Keeps.via (wakeUp_keeps ..)
    | apply Keeps.ite
    | split
    | apply Keeps.set_tb
    | dsimp only

theorem execRtcAlarmExpiry_keeps {ν β κ : Bool} (s : State) :
    Kept ν β κ s (execRtcAlarmExpiry s) := by
  unfold execRtcAlarmExpiry
  with_reducible repeat' first
    | apply Kept.next
    | assumption
    | exact rfl
    | decide
    | apply Keeps.refl
    | apply Keeps.via (rtcExpire_keeps ..)
    | apply Keeps.ite
    | split
    | dsimp only

theorem canWoke_keeps {ν β κ : Bool} (c : Nat) (s : State) :
    Keeps ν β κ s (canWoke c s) := by
  unfold canWoke
  with_reducible repeat' first
    | assumption
    | exact rfl
    | decide
    | apply Keeps.refl
    | (lift_lets; intro x; apply Keeps.cut x ?_ (fun _ => ?_); subst x; rotate_left; clear_value x; rotate_right)
    | (lift_lets; intro x; apply Keeps.cut x.1 ?_ (fun _ => ?_); subst x; rotate_left; clear_value x; rotate_right)
    | (lift_lets; intro x; subst x)
    | apply Keeps.of (State.modCan_frame ..)
    | apply Keeps.of (canWakeCh_frame ..)
    | apply Keeps.of (raiseCan_frame ..)
    | apply Keeps.via (wakeUp_keeps ..)
    | apply Keeps.ite
    | split
    | dsimp only

theorem canLowPower_keeps {ν β κ : Bool} (c : Nat) (pattern : Bool) (f : Option CanFrame) (s : State) :
    Keeps ν β κ s (canLowPower c pattern f s) := by
  unfold canLowPower
  with_reducible repeat' first
    | assumption
    | exact rfl
    | decide
    | apply Keeps.refl
    | (lift_lets; intro x; apply Keeps.cut x ?_ (fun _ => ?_); subst x; rotate_left; clear_value x; rotate_right)
    | (lift_lets; intro x; apply Keeps.cut x.1 ?_ (fun _ => ?_); subst x; rotate_left; clear_value x; rotate_right)
    | (lift_lets; intro x; subst x)
    | apply Keeps.of (State.modCan_frame ..)
    | apply Keeps.via (canWoke_keeps ..)
    | apply Keeps.of (raiseCan_frame ..)
    | apply Keeps.ite
    | split
    | dsimp only

theorem execCanLowPowerFrame_keeps {ν β κ : Bool} (c : Fin 16) (pattern : Bool) (f : Option CanFrame) (s : State) :
    Kept ν β κ s (execCanLowPowerFrame c pattern f s) := by
  unfold execCanLowPowerFrame
  with_reducible repeat' first
    | apply Kept.next
    | assumption
    | exact rfl
    | decide
    | apply Keeps.refl
    | apply Keeps.via (canLowPower_keeps ..)
    | apply Keeps.ite
    | split
    | dsimp only

end Sys2Proof.Machine

end
end

