-- ==== Sys2Proof/Laws/Keeps/TwinRows.lean ====
section
/-! SUPPORT. What each function of `Machine/TwinRows.lean` keeps. -/

section

set_option Elab.async false

namespace Sys2Proof.Machine

theorem arrestLink_keeps {ν β κ : Bool} (req : Bool) (s : State) :
    Keeps ν β κ s (arrestLink req s) := by
  unfold arrestLink
  with_reducible repeat' first
    | assumption
    | exact rfl
    | decide
    | apply Keeps.refl
    | (lift_lets; intro x; apply Keeps.cut x ?_ (fun _ => ?_); subst x; rotate_left; clear_value x; rotate_right)
    | (lift_lets; intro x; apply Keeps.cut x.1 ?_ (fun _ => ?_); subst x; rotate_left; clear_value x; rotate_right)
    | (lift_lets; intro x; subst x)
    | apply Keeps.of (State.modTwin_frame ..)
    | apply Keeps.via (selfArrest_keeps ..)
    | apply Keeps.ite
    | split
    | dsimp only

theorem healthFrame_keeps {ν β κ : Bool} (origin wordA : U32) (payload : List Byte) (s : State) :
    Keeps ν β κ s (healthFrame origin wordA payload s) := by
  unfold healthFrame
  with_reducible repeat' first
    | assumption
    | exact rfl
    | decide
    | apply Keeps.refl
    | (lift_lets; intro x; apply Keeps.cut x ?_ (fun _ => ?_); subst x; rotate_left; clear_value x; rotate_right)
    | (lift_lets; intro x; apply Keeps.cut x.1 ?_ (fun _ => ?_); subst x; rotate_left; clear_value x; rotate_right)
    | (lift_lets; intro x; subst x)
    | apply Keeps.of (State.modTwin_frame ..)
    | apply Keeps.of (answerBelayTest_frame ..)
    | apply Keeps.via (arrestLink_keeps ..)
    | apply Keeps.of (checkId_frame ..)
    | apply Keeps.of (tryReady_frame ..)
    | apply Keeps.ite
    | split
    | dsimp only

theorem mirrorFrame_keeps {ν β κ : Bool} (origin wordA : U32) (payload : List Byte) (s : State) :
    Keeps ν β κ s (mirrorFrame origin wordA payload s) := by
  unfold mirrorFrame
  with_reducible repeat' first
    | assumption
    | exact rfl
    | decide
    | apply Keeps.refl
    | (lift_lets; intro x; apply Keeps.cut x ?_ (fun _ => ?_); subst x; rotate_left; clear_value x; rotate_right)
    | (lift_lets; intro x; apply Keeps.cut x.1 ?_ (fun _ => ?_); subst x; rotate_left; clear_value x; rotate_right)
    | (lift_lets; intro x; subst x)
    | apply Keeps.of (State.modTwin_frame ..)
    | apply Keeps.via (arrestLink_keeps ..)
    | apply Keeps.of (belayFaultCheck_frame ..)
    | apply Keeps.of (tryReady_frame ..)
    | apply Keeps.ite
    | apply Keeps.foldl
    | apply Keeps.foldl1
    | intro _
    | split
    | dsimp only

theorem partnerIs_keeps {ν β κ : Bool} (p : Option BelayCode) (s : State) :
    Keeps ν β κ s (partnerIs p s) := by
  unfold partnerIs
  with_reducible repeat' first
    | assumption
    | exact rfl
    | decide
    | apply Keeps.refl
    | apply Keeps.of (State.modTwin_frame ..)
    | apply Keeps.via (evalRules_keeps ..)
    | apply Keeps.of (reGate_frame ..)
    | apply Keeps.of (twinCheck_frame ..)
    | apply Keeps.ite
    | split
    | dsimp only

theorem belayDecoded_keeps {ν β κ : Bool} (c : BelayCode) (s : State) :
    Keeps ν β κ s (belayDecoded c s) := by
  unfold belayDecoded
  with_reducible repeat' first
    | assumption
    | exact rfl
    | decide
    | apply Keeps.refl
    | (lift_lets; intro x; apply Keeps.cut x ?_ (fun _ => ?_); subst x; rotate_left; clear_value x; rotate_right)
    | (lift_lets; intro x; apply Keeps.cut x.1 ?_ (fun _ => ?_); subst x; rotate_left; clear_value x; rotate_right)
    | (lift_lets; intro x; subst x)
    | apply Keeps.of (State.modTwin_frame ..)
    | apply Keeps.via (partnerIs_keeps ..)
    | apply Keeps.via (wakeUp_keeps ..)
    | apply Keeps.ite
    | split
    | dsimp only

theorem execBelayFrameDecoded_keeps {ν β κ : Bool} (code : BelayCode) (s : State) :
    Kept ν β κ s (execBelayFrameDecoded code s) := by
  unfold execBelayFrameDecoded
  with_reducible repeat' first
    | apply Kept.next
    | assumption
    | exact rfl
    | decide
    | apply Keeps.refl
    | apply Keeps.via (belayDecoded_keeps ..)
    | apply Keeps.ite
    | split
    | dsimp only

theorem partnerLost_keeps {ν β κ : Bool} (s : State) :
    Keeps ν β κ s (partnerLost s) := by
  unfold partnerLost
  with_reducible repeat' first
    | assumption
    | exact rfl
    | decide
    | apply Keeps.refl
    | (lift_lets; intro x; apply Keeps.cut x ?_ (fun _ => ?_); subst x; rotate_left; clear_value x; rotate_right)
    | (lift_lets; intro x; apply Keeps.cut x.1 ?_ (fun _ => ?_); subst x; rotate_left; clear_value x; rotate_right)
    | (lift_lets; intro x; subst x)
    | apply Keeps.of (State.modTwin_frame ..)
    | apply Keeps.via (partnerIs_keeps ..)
    | apply Keeps.of (raiseTwin_frame ..)
    | apply Keeps.ite
    | split
    | dsimp only

theorem execBelayPartnerLost_keeps {ν β κ : Bool} (s : State) :
    Kept ν β κ s (execBelayPartnerLost s) := by
  unfold execBelayPartnerLost
  with_reducible repeat' first
    | apply Kept.next
    | assumption
    | exact rfl
    | decide
    | apply Keeps.refl
    | apply Keeps.via (partnerLost_keeps ..)
    | apply Keeps.ite
    | split
    | dsimp only

theorem needTwin_keeps {n b q : Bool} {s0 s : State} {y : State × Reply} (h : Keeps n b q s0 s) (hy : Keeps n b q s0 y.1) :
    Keeps n b q s0 (needTwin s y).1 := by
  unfold needTwin
  split <;> assumption

end Sys2Proof.Machine

end
end

