-- ==== Sys2Proof/Laws/Keeps/RingFrames.lean ====
section
/-! SUPPORT. What each function of `Machine/RingFrames.lean` keeps. -/

section

set_option Elab.async false

namespace Sys2Proof.Machine

theorem takeHealth_keeps {ν β κ : Bool} (f : RingFrame) (s : State) :
    Keeps ν β κ s (takeHealth f s) := by
  unfold takeHealth
  with_reducible repeat' first
    | assumption
    | exact rfl
    | decide
    | apply Keeps.refl
    | (lift_lets; intro x; apply Keeps.cut x ?_ (fun _ => ?_); subst x; rotate_left; clear_value x; rotate_right)
    | (lift_lets; intro x; apply Keeps.cut x.1 ?_ (fun _ => ?_); subst x; rotate_left; clear_value x; rotate_right)
    | (lift_lets; intro x; subst x)
    | apply Keeps.via (healthFrame_keeps ..)
    | apply Keeps.ite
    | split
    | dsimp only

theorem takeStatic_keeps {ν β κ : Bool} (k : Nat) (f : RingFrame) (s : State) :
    Keeps ν β κ s (takeStatic k f s) := by
  unfold takeStatic
  with_reducible repeat' first
    | assumption
    | exact rfl
    | decide
    | apply Keeps.refl
    | apply Keeps.via (mirrorFrame_keeps ..)
    | apply Keeps.of (slotPdusRx_frame ..)
    | apply Keeps.via (takeHealth_keeps ..)
    | apply Keeps.of (vzfData_frame ..)
    | apply Keeps.ite
    | split
    | dsimp only

theorem copyStatic_keeps {ν β κ : Bool} (f : RingFrame) (s : State) :
    Keeps ν β κ s (copyStatic f s) := by
  unfold copyStatic
  with_reducible repeat' first
    | assumption
    | exact rfl
    | decide
    | apply Keeps.refl
    | (lift_lets; intro x; apply Keeps.cut x ?_ (fun _ => ?_); subst x; rotate_left; clear_value x; rotate_right)
    | (lift_lets; intro x; apply Keeps.cut x.1 ?_ (fun _ => ?_); subst x; rotate_left; clear_value x; rotate_right)
    | (lift_lets; intro x; subst x)
    | apply Keeps.of (State.modRing_frame ..)
    | apply Keeps.via (takeStatic_keeps ..)
    | apply Keeps.ite
    | split
    | dsimp only

theorem staticFrame_keeps {ν β κ : Bool} (p : Nat) (f : RingFrame) (s : State) :
    Keeps ν β κ s (staticFrame p f s) := by
  unfold staticFrame
  with_reducible repeat' first
    | assumption
    | exact rfl
    | decide
    | apply Keeps.refl
    | apply Keeps.via (copyStatic_keeps ..)
    | apply Keeps.of (discard_frame ..)
    | apply Keeps.of (passStatic_frame ..)
    | apply Keeps.ite
    | split
    | dsimp only

theorem execStaticFrameReceived_keeps {ν β κ : Bool} (port : Fin 2) (link : LinkCheck) (f : RingFrame) (s : State) :
    Kept ν β κ s (execStaticFrameReceived port link f s) := by
  unfold execStaticFrameReceived
  with_reducible repeat' first
    | apply Kept.next
    | assumption
    | exact rfl
    | decide
    | apply Keeps.refl
    | (lift_lets; intro x; apply Keeps.cut x ?_ (fun _ => ?_); subst x; rotate_left; clear_value x; rotate_right)
    | (lift_lets; intro x; apply Keeps.cut x.1 ?_ (fun _ => ?_); subst x; rotate_left; clear_value x; rotate_right)
    | (lift_lets; intro x; subst x)
    | apply Keeps.of (linkRx_frame ..)
    | apply Keeps.via (staticFrame_keeps ..)
    | apply Keeps.ite
    | split
    | dsimp only

theorem takeDynamic_keeps {ν β κ : Bool} (f : RingFrame) (s : State) :
    Keeps ν β κ s (takeDynamic f s) := by
  unfold takeDynamic
  with_reducible repeat' first
    | assumption
    | exact rfl
    | decide
    | apply Keeps.refl
    | apply Keeps.via (takeHealth_keeps ..)
    | apply Keeps.of (vzfData_frame ..)
    | apply Keeps.ite
    | split
    | dsimp only

theorem dynamicFrame_keeps {ν β κ : Bool} (p : Nat) (f : RingFrame) (s : State) :
    Keeps ν β κ s (dynamicFrame p f s) := by
  unfold dynamicFrame
  with_reducible repeat' first
    | assumption
    | exact rfl
    | decide
    | apply Keeps.refl
    | apply Keeps.of (discard_frame ..)
    | apply Keeps.of (passDynamic_frame ..)
    | apply Keeps.via (takeDynamic_keeps ..)
    | apply Keeps.ite
    | split
    | dsimp only

theorem execDynamicFrameReceived_keeps {ν β κ : Bool} (port : Fin 2) (link : LinkCheck) (f : Option RingFrame) (s : State) :
    Kept ν β κ s (execDynamicFrameReceived port link f s) := by
  unfold execDynamicFrameReceived
  with_reducible repeat' first
    | apply Kept.next
    | assumption
    | exact rfl
    | decide
    | apply Keeps.refl
    | (lift_lets; intro x; apply Keeps.cut x ?_ (fun _ => ?_); subst x; rotate_left; clear_value x; rotate_right)
    | (lift_lets; intro x; apply Keeps.cut x.1 ?_ (fun _ => ?_); subst x; rotate_left; clear_value x; rotate_right)
    | (lift_lets; intro x; subst x)
    | apply Keeps.of (appendOwn_frame ..)
    | apply Keeps.via (dynamicFrame_keeps ..)
    | apply Keeps.of (linkRx_frame ..)
    | apply Keeps.ite
    | split
    | dsimp only

theorem cycleAges_keeps {ν β κ : Bool} (s : State) :
    Keeps ν β κ s (cycleAges s) := by
  unfold cycleAges
  with_reducible repeat' first
    | assumption
    | exact rfl
    | decide
    | apply Keeps.refl
    | apply Keeps.of (ageStep_frame ..)
    | apply Keeps.via (evalRules_keeps ..)
    | apply Keeps.ite
    | split
    | apply Keeps.set_twin
    | dsimp only

theorem localCycle_keeps {ν β κ : Bool} (s : State) :
    Keeps ν β κ s (localCycle s) := by
  unfold localCycle
  with_reducible repeat' first
    | assumption
    | exact rfl
    | decide
    | apply Keeps.refl
    | (lift_lets; intro x; apply Keeps.cut x ?_ (fun _ => ?_); subst x; rotate_left; clear_value x; rotate_right)
    | (lift_lets; intro x; apply Keeps.cut x.1 ?_ (fun _ => ?_); subst x; rotate_left; clear_value x; rotate_right)
    | (lift_lets; intro x; subst x)
    | apply Keeps.via (activationBoundary_keeps ..)
    | apply Keeps.of (appendOwn_frame ..)
    | apply Keeps.via (cycleAges_keeps ..)
    | apply Keeps.via (cycleStart_keeps ..)
    | apply Keeps.of (startNit_frame ..)
    | apply Keeps.ite
    | split
    | dsimp only

theorem execLocalCycleStart_keeps {ν β κ : Bool} (s : State) :
    Kept ν β κ s (execLocalCycleStart s) := by
  unfold execLocalCycleStart
  with_reducible repeat' first
    | apply Kept.next
    | assumption
    | exact rfl
    | decide
    | apply Keeps.refl
    | apply Keeps.via (localCycle_keeps ..)
    | apply Keeps.ite
    | split
    | dsimp only

end Sys2Proof.Machine

end
end

