-- ==== Sys2Proof/Laws/Keeps/Saf.lean ====
section
/-! SUPPORT. What each function of `Machine/Saf.lean` keeps. -/

section

set_option Elab.async false

namespace Sys2Proof.Machine

theorem pairsCheck_keeps {ν β κ : Bool} (s : State) :
    Keeps ν β κ s (pairsCheck s) := by
  unfold pairsCheck
  with_reducible repeat' first
    | assumption
    | exact rfl
    | decide
    | apply Keeps.refl
    | apply Keeps.via (limpEntry_keeps ..)
    | apply Keeps.ite
    | split
    | dsimp only

theorem fatalLockstep_keeps {ν β κ : Bool} (p : Nat) (s : State) :
    Keeps ν β κ s (fatalLockstep p s) := by
  unfold fatalLockstep
  with_reducible repeat' first
    | assumption
    | exact rfl
    | decide
    | apply Keeps.refl
    | apply Keeps.of (scopedArrest_frame ..)
    | apply Keeps.via (selfArrest_keeps ..)
    | apply Keeps.ite
    | split
    | dsimp only

theorem retirePair_keeps {n b q : Bool} (p : Nat) (s : State) : Keeps n b q s (retirePair p s) :=
  Keeps.same (t := s.modPair p Pair.retire) rfl rfl rfl rfl rfl rfl rfl rfl rfl rfl rfl rfl rfl
    (State.modPair_keeps p _ (fun _ h => h) (Keeps.refl n b q s))

theorem losePair_keeps {ν β κ : Bool} (p : Nat) (s : State) :
    Keeps ν β κ s (losePair p s) := by
  unfold losePair
  with_reducible repeat' first
    | assumption
    | exact rfl
    | decide
    | apply Keeps.refl
    | apply Keeps.via (fatalLockstep_keeps ..)
    | apply Keeps.via (pairsCheck_keeps ..)
    | apply Keeps.ite
    | split
    | apply Keeps.set_saf
    | dsimp only

theorem lockstepMismatch_keeps {ν β κ : Bool} (p g : Nat) (s : State) :
    Keeps ν β κ s (lockstepMismatch p g s) := by
  unfold lockstepMismatch
  with_reducible repeat' first
    | assumption
    | exact rfl
    | decide
    | apply Keeps.refl
    | exact fun _ h => h
    | (unfold Pair.modPart; assumption)
    | exact fun _ h => memWrite_wf _ _ _ h
    | exact fun _ h => memWrite32_wf _ _ _ h
    | exact fun _ h => h.copies _ _
    | apply State.modPair_keeps
    | apply Keeps.of (raiseSaf_frame ..)
    | apply Keeps.ite
    | intro _
    | split
    | dsimp only

theorem execLockstepMismatch_keeps {ν β κ : Bool} (pair : Fin 4) (group : Fin 8) (s : State) :
    Kept ν β κ s (execLockstepMismatch pair group s) := by
  unfold execLockstepMismatch
  with_reducible repeat' first
    | apply Kept.next
    | assumption
    | exact rfl
    | decide
    | apply Keeps.refl
    | apply Keeps.via (lockstepMismatch_keeps ..)
    | apply Keeps.ite
    | split
    | dsimp only

theorem lbistDecision_keeps {ν β κ : Bool} (p : Nat) (pass injectOk : Bool) (s : State) :
    Keeps ν β κ s (lbistDecision p pass injectOk s) := by
  unfold lbistDecision
  with_reducible repeat' first
    | assumption
    | exact rfl
    | decide
    | apply Keeps.refl
    | (lift_lets; intro x; apply Keeps.cut x ?_ (fun _ => ?_); subst x; rotate_left; clear_value x; rotate_right)
    | (lift_lets; intro x; apply Keeps.cut x.1 ?_ (fun _ => ?_); subst x; rotate_left; clear_value x; rotate_right)
    | (lift_lets; intro x; subst x)
    | exact fun _ h => h
    | (unfold Pair.modPart; assumption)
    | exact fun _ h => memWrite_wf _ _ _ h
    | exact fun _ h => memWrite32_wf _ _ _ h
    | exact fun _ h => h.copies _ _
    | apply State.modPair_keeps
    | apply Keeps.via (losePair_keeps ..)
    | apply Keeps.of (raiseSaf_frame ..)
    | apply Keeps.via (retirePair_keeps ..)
    | apply Keeps.ite
    | intro _
    | split
    | dsimp only

theorem execPairLbistDecision_keeps {ν β κ : Bool} (pair : Fin 4) (pass injectOk : Bool) (s : State) :
    Kept ν β κ s (execPairLbistDecision pair pass injectOk s) := by
  unfold execPairLbistDecision
  with_reducible repeat' first
    | apply Kept.next
    | assumption
    | exact rfl
    | decide
    | apply Keeps.refl
    | apply Keeps.via (lbistDecision_keeps ..)
    | apply Keeps.ite
    | split
    | dsimp only

theorem moveParts_keeps {ν β κ : Bool} (p q : Nat) (s : State) :
    Keeps ν β κ s (moveParts p q s) := by
  unfold moveParts
  with_reducible repeat' first
    | assumption
    | exact rfl
    | decide
    | apply Keeps.refl
    | (lift_lets; intro x; apply Keeps.cut x ?_ (fun _ => ?_); subst x; rotate_left; clear_value x; rotate_right)
    | (lift_lets; intro x; apply Keeps.cut x.1 ?_ (fun _ => ?_); subst x; rotate_left; clear_value x; rotate_right)
    | (lift_lets; intro x; subst x)
    | exact fun _ h => h
    | (unfold Pair.modPart; assumption)
    | exact fun _ h => memWrite_wf _ _ _ h
    | exact fun _ h => memWrite32_wf _ _ _ h
    | exact fun _ h => h.copies _ _
    | apply State.modPair_keeps
    | apply Keeps.ite
    | intro _
    | split
    | apply Keeps.set_saf
    | dsimp only

theorem pairMigration_keeps {ν β κ : Bool} (s : State) :
    Keeps ν β κ s (pairMigration s) := by
  unfold pairMigration
  with_reducible repeat' first
    | assumption
    | exact rfl
    | decide
    | apply Keeps.refl
    | (lift_lets; intro x; apply Keeps.cut x ?_ (fun _ => ?_); subst x; rotate_left; clear_value x; rotate_right)
    | (lift_lets; intro x; apply Keeps.cut x.1 ?_ (fun _ => ?_); subst x; rotate_left; clear_value x; rotate_right)
    | (lift_lets; intro x; subst x)
    | apply Keeps.via (fatalLockstep_keeps ..)
    | apply Keeps.via (moveParts_keeps ..)
    | apply Keeps.via (pairsCheck_keeps ..)
    | apply Keeps.of (raiseSaf_frame ..)
    | apply Keeps.ite
    | split
    | apply Keeps.set_saf
    | dsimp only

theorem execPairMigration_keeps {ν β κ : Bool} (s : State) :
    Kept ν β κ s (execPairMigration s) := by
  unfold execPairMigration
  with_reducible repeat' first
    | apply Kept.next
    | assumption
    | exact rfl
    | decide
    | apply Keeps.refl
    | apply Keeps.via (pairMigration_keeps ..)
    | apply Keeps.ite
    | split
    | dsimp only

theorem ckptGo_keeps {ν β κ : Bool} (p : Nat) (value : U32) (s : State) :
    Keeps ν β κ s (ckptGo p value s) := by
  unfold ckptGo
  with_reducible repeat' first
    | assumption
    | exact rfl
    | decide
    | apply Keeps.refl
    | exact fun _ h => h
    | (unfold Pair.modPart; assumption)
    | exact fun _ h => memWrite_wf _ _ _ h
    | exact fun _ h => memWrite32_wf _ _ _ h
    | exact fun _ h => h.copies _ _
    | apply State.modPair_keeps
    | apply Keeps.ite
    | intro _
    | split
    | dsimp only

theorem execSafCkptGoWrite_keeps {ν β κ : Bool} (pair : Fin 4) (value : U32) (s : State) :
    Kept ν β κ s (execSafCkptGoWrite pair value s) := by
  unfold execSafCkptGoWrite
  with_reducible repeat' first
    | apply Kept.next
    | assumption
    | exact rfl
    | decide
    | apply Keeps.refl
    | apply Keeps.via (ckptGo_keeps ..)
    | apply Keeps.ite
    | split
    | dsimp only

theorem execCheckpointComplete_keeps {ν β κ : Bool} (pair part : Fin 4) (s : State) :
    Kept ν β κ s (execCheckpointComplete pair part s) := by
  unfold execCheckpointComplete
  with_reducible repeat' first
    | apply Kept.next
    | assumption
    | exact rfl
    | decide
    | apply Keeps.refl
    | exact fun _ h => h
    | (unfold Pair.modPart; assumption)
    | exact fun _ h => memWrite_wf _ _ _ h
    | exact fun _ h => memWrite32_wf _ _ _ h
    | exact fun _ h => h.copies _ _
    | apply State.modPair_keeps
    | apply Keeps.ite
    | intro _
    | split
    | dsimp only

theorem stackFatal_keeps {ν β κ : Bool} (p : Nat) (s : State) :
    Keeps ν β κ s (stackFatal p s) := by
  unfold stackFatal
  with_reducible repeat' first
    | assumption
    | exact rfl
    | decide
    | apply Keeps.refl
    | apply Keeps.via (fatalLockstep_keeps ..)
    | apply Keeps.via (pairsCheck_keeps ..)
    | apply Keeps.of (raiseSaf_frame ..)
    | apply Keeps.via (retirePair_keeps ..)
    | apply Keeps.ite
    | split
    | dsimp only

theorem takeStackFault_keeps {ν β κ : Bool} (p reason : Nat) (ptr : U32) (r : CoreRegs) (oldSp : U32) (s : State) :
    Keeps ν β κ s (takeStackFault p reason ptr r oldSp s) := by
  unfold takeStackFault
  with_reducible repeat' first
    | assumption
    | exact rfl
    | decide
    | apply Keeps.refl
    | (lift_lets; intro x; apply Keeps.cut x ?_ (fun _ => ?_); subst x; rotate_left; clear_value x; rotate_right)
    | (lift_lets; intro x; apply Keeps.cut x.1 ?_ (fun _ => ?_); subst x; rotate_left; clear_value x; rotate_right)
    | (lift_lets; intro x; subst x)
    | exact fun _ h => h
    | (unfold Pair.modPart; assumption)
    | exact fun _ h => memWrite_wf _ _ _ h
    | exact fun _ h => memWrite32_wf _ _ _ h
    | exact fun _ h => h.copies _ _
    | apply State.modPair_keeps
    | apply Keeps.of (raiseSaf_frame ..)
    | apply Keeps.via (stackFatal_keeps ..)
    | apply Keeps.ite
    | intro _
    | split
    | dsimp only

theorem trapStacking_keeps {ν β κ : Bool} (p : Nat) (regs : CoreRegs) (pmp : List PmpRegion) (cause tval : U32) (user : Bool) (s : State) :
    Keeps ν β κ s (trapStacking p regs pmp cause tval user s) := by
  unfold trapStacking
  with_reducible repeat' first
    | assumption
    | exact rfl
    | decide
    | apply Keeps.refl
    | (lift_lets; intro x; apply Keeps.cut x ?_ (fun _ => ?_); subst x; rotate_left; clear_value x; rotate_right)
    | (lift_lets; intro x; apply Keeps.cut x.1 ?_ (fun _ => ?_); subst x; rotate_left; clear_value x; rotate_right)
    | (lift_lets; intro x; subst x)
    | exact fun _ h => h
    | (unfold Pair.modPart; assumption)
    | exact fun _ h => memWrite_wf _ _ _ h
    | exact fun _ h => memWrite32_wf _ _ _ h
    | exact fun _ h => h.copies _ _
    | apply State.modPair_keeps
    | apply Keeps.via (takeStackFault_keeps ..)
    | apply Keeps.ite
    | intro _
    | split
    | dsimp only

theorem execTrapStacking_keeps {ν β κ : Bool} (pair : Fin 4) (regs : CoreRegs) (pmp : List PmpRegion) (cause tval : U32) (user : Bool) (s : State) :
    Kept ν β κ s (execTrapStacking pair regs pmp cause tval user s) := by
  unfold execTrapStacking
  with_reducible repeat' first
    | apply Kept.next
    | assumption
    | exact rfl
    | decide
    | apply Keeps.refl
    | apply Keeps.via (trapStacking_keeps ..)
    | apply Keeps.ite
    | split
    | dsimp only

theorem mretUnstack_keeps {ν β κ : Bool} (p : Nat) (regs : CoreRegs) (pmp : List PmpRegion) (s : State) :
    Keeps ν β κ s (mretUnstack p regs pmp s) := by
  unfold mretUnstack
  with_reducible repeat' first
    | assumption
    | exact rfl
    | decide
    | apply Keeps.refl
    | (lift_lets; intro x; apply Keeps.cut x ?_ (fun _ => ?_); subst x; rotate_left; clear_value x; rotate_right)
    | (lift_lets; intro x; apply Keeps.cut x.1 ?_ (fun _ => ?_); subst x; rotate_left; clear_value x; rotate_right)
    | (lift_lets; intro x; subst x)
    | exact fun _ h => h
    | (unfold Pair.modPart; assumption)
    | exact fun _ h => memWrite_wf _ _ _ h
    | exact fun _ h => memWrite32_wf _ _ _ h
    | exact fun _ h => h.copies _ _
    | apply State.modPair_keeps
    | apply Keeps.via (takeStackFault_keeps ..)
    | apply Keeps.ite
    | intro _
    | split
    | dsimp only

theorem execMretUnstack_keeps {ν β κ : Bool} (pair : Fin 4) (regs : CoreRegs) (pmp : List PmpRegion) (s : State) :
    Kept ν β κ s (execMretUnstack pair regs pmp s) := by
  unfold execMretUnstack
  with_reducible repeat' first
    | apply Kept.next
    | assumption
    | exact rfl
    | decide
    | apply Keeps.refl
    | apply Keeps.via (mretUnstack_keeps ..)
    | apply Keeps.ite
    | split
    | dsimp only

end Sys2Proof.Machine

end
end

