-- ==== Sys2Proof/Laws/Keeps/SignalRows.lean ====
section
/-! SUPPORT. What each function of `Machine/SignalRows.lean` keeps. -/

section

set_option Elab.async false

namespace Sys2Proof.Machine

theorem execSourcePduUpdate_keeps {ν β κ : Bool} (pipe : Fin 4) (brg : Option BrgMeasure) (s : State) :
    Kept ν β κ s (execSourcePduUpdate pipe brg s) := by
  unfold execSourcePduUpdate
  with_reducible repeat' first
    | apply Kept.next
    | assumption
    | exact rfl
    | decide
    | apply Keeps.refl
    | (lift_lets; intro x; apply Keeps.cut x ?_ (fun _ => ?_); subst x; rotate_left; clear_value x; rotate_right)
    | (lift_lets; intro x; apply Keeps.cut x.1 ?_ (fun _ => ?_); subst x; rotate_left; clear_value x; rotate_right)
    | (lift_lets; intro x; subst x)
    | apply Keeps.of (brgArrive_frame ..)
    | apply Keeps.via (evalRules_keeps ..)
    | apply Keeps.of (pipeRun_frame ..)
    | apply Keeps.ite
    | split
    | dsimp only

theorem pduTimeout_keeps {ν β κ : Bool} (q : Nat) (s : State) :
    Keeps ν β κ s (pduTimeout q s) := by
  unfold pduTimeout
  with_reducible repeat' first
    | assumption
    | exact rfl
    | decide
    | apply Keeps.refl
    | apply Keeps.of (State.modPdu_frame ..)
    | apply Keeps.via (evalRules_keeps ..)
    | apply Keeps.of (runPdu_frame ..)
    | apply Keeps.ite
    | split
    | dsimp only

theorem execPduTimeout_keeps {ν β κ : Bool} (p : Fin 65536) (s : State) :
    Kept ν β κ s (execPduTimeout p s) := by
  unfold execPduTimeout
  with_reducible repeat' first
    | apply Kept.next
    | assumption
    | exact rfl
    | decide
    | apply Keeps.refl
    | apply Keeps.via (pduTimeout_keeps ..)
    | apply Keeps.ite
    | split
    | dsimp only

theorem execSignalCyclicWrite_keeps {ν β κ : Bool} (d : Fin 262144) (s : State) :
    Kept ν β κ s (execSignalCyclicWrite d s) := by
  unfold execSignalCyclicWrite
  with_reducible repeat' first
    | apply Kept.next
    | assumption
    | exact rfl
    | decide
    | apply Keeps.refl
    | apply Keeps.of (emit_frame ..)
    | apply Keeps.via (evalRules_keeps ..)
    | apply Keeps.of (flushSinks_frame ..)
    | apply Keeps.ite
    | split
    | dsimp only

theorem execSignalDeferredWrite_keeps {ν β κ : Bool} (d : Fin 262144) (s : State) :
    Kept ν β κ s (execSignalDeferredWrite d s) := by
  unfold execSignalDeferredWrite
  with_reducible repeat' first
    | apply Kept.next
    | assumption
    | exact rfl
    | decide
    | apply Keeps.refl
    | apply Keeps.of (emit_frame ..)
    | apply Keeps.via (evalRules_keeps ..)
    | apply Keeps.of (flushSinks_frame ..)
    | apply Keeps.ite
    | split
    | dsimp only

theorem sigEcc_keeps {ν β κ : Bool} (pdu : Bool) (i : Nat) (s : State) :
    Keeps ν β κ s (sigEcc pdu i s) := by
  unfold sigEcc
  with_reducible repeat' first
    | assumption
    | exact rfl
    | decide
    | apply Keeps.refl
    | apply Keeps.of (State.modPdu_frame ..)
    | apply Keeps.of (State.modRun_frame ..)
    | apply Keeps.via (evalRules_keeps ..)
    | apply Keeps.of (raise_frame ..)
    | apply Keeps.of (raiseSig_frame ..)
    | apply Keeps.of (runPdu_frame ..)
    | apply Keeps.ite
    | split
    | dsimp only

theorem execSigTableEcc_keeps {ν β κ : Bool} (pdu : Bool) (i : Fin 262144) (s : State) :
    Kept ν β κ s (execSigTableEcc pdu i s) := by
  unfold execSigTableEcc
  with_reducible repeat' first
    | apply Kept.next
    | assumption
    | exact rfl
    | decide
    | apply Keeps.refl
    | apply Keeps.via (sigEcc_keeps ..)
    | apply Keeps.ite
    | split
    | dsimp only

end Sys2Proof.Machine

end
end

