-- ==== Sys2Proof/Laws/Keeps/TimeBase.lean ====
section
/-! SUPPORT. What each function of `Machine/TimeBase.lean` keeps. -/

section

set_option Elab.async false

namespace Sys2Proof.Machine

theorem allocView_keeps {ν β κ : Bool} (v z : Nat) (s : State) :
    Keeps ν β κ s (allocView v z s) := by
  unfold allocView
  with_reducible repeat' first
    | assumption
    | exact rfl
    | decide
    | apply Keeps.refl
    | apply Keeps.via (State.modView_keeps ..)
    | apply Keeps.ite
    | split
    | dsimp only

theorem viewChange_keeps {ν β κ : Bool} (v : Nat) (s : State) :
    Keeps ν β κ s (viewChange v s) := by
  unfold viewChange
  with_reducible repeat' first
    | assumption
    | exact rfl
    | decide
    | apply Keeps.refl
    | apply Keeps.via (applyChange_keeps ..)
    | apply Keeps.ite
    | split
    | dsimp only

theorem execViewChangeApply_keeps {ν β κ : Bool} (view : Fin 16) (s : State) :
    Kept ν β κ s (execViewChangeApply view s) := by
  unfold execViewChangeApply
  with_reducible repeat' first
    | apply Kept.next
    | assumption
    | exact rfl
    | decide
    | apply Keeps.refl
    | apply Keeps.via (viewChange_keeps ..)
    | apply Keeps.ite
    | split
    | dsimp only

theorem execCaptureEvent_keeps {ν β κ : Bool} (source : Fin 65536) (rising : Bool) (s : State) :
    Kept ν β κ s (execCaptureEvent source rising s) := by
  unfold execCaptureEvent
  with_reducible repeat' first
    | apply Kept.next
    | assumption
    | exact rfl
    | decide
    | apply Keeps.refl
    | apply Keeps.via (captureEdge_keeps ..)
    | apply Keeps.ite
    | split
    | dsimp only

theorem triggerFire_keeps {ν β κ : Bool} (u : Nat) (s : State) :
    Keeps ν β κ s (triggerFire u s) := by
  unfold triggerFire
  with_reducible repeat' first
    | assumption
    | exact rfl
    | decide
    | apply Keeps.refl
    | (lift_lets; intro x; apply Keeps.cut x ?_ (fun _ => ?_); subst x; rotate_left; clear_value x; rotate_right)
    | (lift_lets; intro x; apply Keeps.cut x.1 ?_ (fun _ => ?_); subst x; rotate_left; clear_value x; rotate_right)
    | (lift_lets; intro x; subst x)
    | apply Keeps.via (State.modTrigger_keeps ..)
    | apply Keeps.of (triggerCmd_frame ..)
    | apply Keeps.ite
    | split
    | apply Keeps.set_vz
    | dsimp only

theorem execTriggerFire_keeps {ν β κ : Bool} (unit : Fin 16) (s : State) :
    Kept ν β κ s (execTriggerFire unit s) := by
  unfold execTriggerFire
  with_reducible repeat' first
    | apply Kept.next
    | assumption
    | exact rfl
    | decide
    | apply Keeps.refl
    | apply Keeps.via (triggerFire_keeps ..)
    | apply Keeps.ite
    | split
    | dsimp only

theorem adjustBody_keeps {ν β κ : Bool} (f : AdjustFields) (owner : Option Nat) (s : State) :
    Keeps ν β κ s (adjustBody f owner s).1 := by
  unfold adjustBody
  with_reducible repeat' first
    | assumption
    | exact rfl
    | decide
    | apply Keeps.refl
    | (lift_lets; intro x; apply Keeps.cut x ?_ (fun _ => ?_); subst x; rotate_left; clear_value x; rotate_right)
    | (lift_lets; intro x; apply Keeps.cut x.1 ?_ (fun _ => ?_); subst x; rotate_left; clear_value x; rotate_right)
    | (lift_lets; intro x; subst x)
    | apply Keeps.via (State.modView_keeps ..)
    | apply Keeps.ite
    | apply Keeps.ite1
    | split
    | dsimp only

theorem execTimeAdjust_keeps {ν β κ : Bool} (r : Req) (f : AdjustFields) (s : State) :
    Kept ν β κ s (execTimeAdjust r f s) := by
  unfold execTimeAdjust
  with_reducible repeat' first
    | apply Kept.next
    | assumption
    | exact rfl
    | decide
    | apply Keeps.refl
    | apply Keeps.via (adjustBody_keeps ..)
    | apply runCmd_keeps
    | apply Keeps.ite
    | intro _
    | split
    | dsimp only

theorem freeViewAt_keeps {ν β κ : Bool} (v : Nat) (s : State) :
    Keeps ν β κ s (freeViewAt v s) := by
  unfold freeViewAt
  with_reducible repeat' first
    | assumption
    | exact rfl
    | decide
    | apply Keeps.refl
    | apply Keeps.via (State.modView_keeps ..)
    | apply Keeps.ite
    | split
    | dsimp only

theorem viewAllocBody_keeps {ν β κ : Bool} (op view vzf : Nat) (s : State) :
    Keeps ν β κ s (viewAllocBody op view vzf s).1 := by
  unfold viewAllocBody
  with_reducible repeat' first
    | assumption
    | exact rfl
    | decide
    | apply Keeps.refl
    | apply Keeps.via (allocView_keeps ..)
    | apply Keeps.via (freeViewAt_keeps ..)
    | apply Keeps.ite
    | apply Keeps.ite1
    | split
    | dsimp only

theorem execTimeViewAlloc_keeps {ν β κ : Bool} (r : Req) (op view vzf : Byte) (s : State) :
    Kept ν β κ s (execTimeViewAlloc r op view vzf s) := by
  unfold execTimeViewAlloc
  with_reducible repeat' first
    | apply Kept.next
    | assumption
    | exact rfl
    | decide
    | apply Keeps.refl
    | apply runCmd_keeps
    | apply Keeps.via (viewAllocBody_keeps ..)
    | apply Keeps.ite
    | intro _
    | split
    | dsimp only

theorem captureConfigure_keeps {ν β κ : Bool} (u src edge : Nat) (p : Port) (s : State) :
    Keeps ν β κ s (captureConfigure u src edge p s).1 := by
  unfold captureConfigure
  with_reducible repeat' first
    | assumption
    | exact rfl
    | decide
    | apply Keeps.refl
    | (lift_lets; intro x; apply Keeps.cut x ?_ (fun _ => ?_); subst x; rotate_left; clear_value x; rotate_right)
    | (lift_lets; intro x; apply Keeps.cut x.1 ?_ (fun _ => ?_); subst x; rotate_left; clear_value x; rotate_right)
    | (lift_lets; intro x; subst x)
    | apply Keeps.via (State.modCapture_keeps ..)
    | apply Keeps.ite
    | apply Keeps.ite1
    | split
    | dsimp only

theorem captureRead_keeps {ν β κ : Bool} (u : Nat) (s : State) :
    Keeps ν β κ s (captureRead u s).1 := by
  unfold captureRead
  with_reducible repeat' first
    | assumption
    | exact rfl
    | decide
    | apply Keeps.refl
    | (lift_lets; intro x; apply Keeps.cut x ?_ (fun _ => ?_); subst x; rotate_left; clear_value x; rotate_right)
    | (lift_lets; intro x; apply Keeps.cut x.1 ?_ (fun _ => ?_); subst x; rotate_left; clear_value x; rotate_right)
    | (lift_lets; intro x; subst x)
    | apply Keeps.via (State.modCapture_keeps ..)
    | apply Keeps.ite
    | apply Keeps.ite1
    | split
    | dsimp only

theorem captureBody_keeps {ν β κ : Bool} (u op src edge : Nat) (p : Port) (s : State) :
    Keeps ν β κ s (captureBody u op src edge p s).1 := by
  unfold captureBody
  with_reducible repeat' first
    | assumption
    | exact rfl
    | decide
    | apply Keeps.refl
    | (lift_lets; intro x; apply Keeps.cut x ?_ (fun _ => ?_); subst x; rotate_left; clear_value x; rotate_right)
    | (lift_lets; intro x; apply Keeps.cut x.1 ?_ (fun _ => ?_); subst x; rotate_left; clear_value x; rotate_right)
    | (lift_lets; intro x; subst x)
    | apply Keeps.via (State.modCapture_keeps ..)
    | apply Keeps.via (captureConfigure_keeps ..)
    | apply Keeps.via (captureRead_keeps ..)
    | apply Keeps.ite
    | apply Keeps.ite1
    | split
    | dsimp only

theorem execTimeCaptureConfig_keeps {ν β κ : Bool} (r : Req) (unit op : Byte) (source : U16) (edge : Byte) (s : State) :
    Kept ν β κ s (execTimeCaptureConfig r unit op source edge s) := by
  unfold execTimeCaptureConfig
  with_reducible repeat' first
    | apply Kept.next
    | assumption
    | exact rfl
    | decide
    | apply Keeps.refl
    | apply Keeps.via (captureBody_keeps ..)
    | apply runCmd_keeps
    | apply Keeps.ite
    | intro _
    | split
    | dsimp only

theorem triggerArm_keeps {ν β κ : Bool} (f : TriggerFields) (p : Port) (s : State) :
    Keeps ν β κ s (triggerArm f p s).1 := by
  unfold triggerArm
  with_reducible repeat' first
    | assumption
    | exact rfl
    | decide
    | apply Keeps.refl
    | (lift_lets; intro x; apply Keeps.cut x ?_ (fun _ => ?_); subst x; rotate_left; clear_value x; rotate_right)
    | (lift_lets; intro x; apply Keeps.cut x.1 ?_ (fun _ => ?_); subst x; rotate_left; clear_value x; rotate_right)
    | (lift_lets; intro x; subst x)
    | apply Keeps.via (State.modTrigger_keeps ..)
    | apply Keeps.ite
    | apply Keeps.ite1
    | split
    | dsimp only

theorem triggerBody_keeps {ν β κ : Bool} (f : TriggerFields) (p : Port) (s : State) :
    Keeps ν β κ s (triggerBody f p s).1 := by
  unfold triggerBody
  with_reducible repeat' first
    | assumption
    | exact rfl
    | decide
    | apply Keeps.refl
    | (lift_lets; intro x; apply Keeps.cut x ?_ (fun _ => ?_); subst x; rotate_left; clear_value x; rotate_right)
    | (lift_lets; intro x; apply Keeps.cut x.1 ?_ (fun _ => ?_); subst x; rotate_left; clear_value x; rotate_right)
    | (lift_lets; intro x; subst x)
    | apply Keeps.via (State.modTrigger_keeps ..)
    | apply Keeps.via (triggerArm_keeps ..)
    | apply Keeps.ite
    | apply Keeps.ite1
    | split
    | dsimp only

theorem execTimeTriggerConfig_keeps {ν β κ : Bool} (r : Req) (f : TriggerFields) (s : State) :
    Kept ν β κ s (execTimeTriggerConfig r f s) := by
  unfold execTimeTriggerConfig
  with_reducible repeat' first
    | apply Kept.next
    | assumption
    | exact rfl
    | decide
    | apply Keeps.refl
    | apply runCmd_keeps
    | apply Keeps.via (triggerBody_keeps ..)
    | apply Keeps.ite
    | intro _
    | split
    | dsimp only

theorem alarmBody_keeps {ν β κ : Bool} (op delay : Nat) (s : State) :
    Keeps ν β κ s (alarmBody op delay s).1 := by
  unfold alarmBody
  with_reducible repeat' first
    | assumption
    | exact rfl
    | (unfold State.draw; exact rfl)
    | decide
    | apply Keeps.refl
    | (lift_lets; intro x; apply Keeps.cut x ?_ (fun _ => ?_); subst x; rotate_left; clear_value x; rotate_right)
    | (lift_lets; intro x; apply Keeps.cut x.1 ?_ (fun _ => ?_); subst x; rotate_left; clear_value x; rotate_right)
    | (lift_lets; intro x; subst x)
    | apply Keeps.of (State.draw_frame ..)
    | apply Keeps.ite
    | apply Keeps.ite1
    | split
    | apply Keeps.set_tb
    | dsimp only

theorem execTimeRtcAlarm_keeps {ν β κ : Bool} (r : Req) (op : Byte) (delay : U32) (s : State) :
    Kept ν β κ s (execTimeRtcAlarm r op delay s) := by
  unfold execTimeRtcAlarm
  with_reducible repeat' first
    | apply Kept.next
    | assumption
    | exact rfl
    | decide
    | apply Keeps.refl
    | apply Keeps.via (alarmBody_keeps ..)
    | apply runCmd_keeps
    | apply Keeps.ite
    | intro _
    | split
    | dsimp only

end Sys2Proof.Machine

end
end

