-- ==== Sys2Proof/Laws/Keeps/Vzf.lean ====
section
/-! SUPPORT. What each function of `Machine/Vzf.lean` keeps. -/

section

set_option Elab.async false

namespace Sys2Proof.Machine

theorem createNow_keeps {ν β κ : Bool} (v : Nat) (t : Template) (regions : List (Nat × Nat)) (iommu : IommuCtx) (s : State) :
    Keeps ν β κ s (createNow v t regions iommu s) := by
  unfold createNow
  with_reducible repeat' first
    | assumption
    | exact rfl
    | decide
    | apply Keeps.refl
    | (lift_lets; intro x; apply Keeps.cut x ?_ (fun _ => ?_); subst x; rotate_left; clear_value x; rotate_right)
    | (lift_lets; intro x; apply Keeps.cut x.1 ?_ (fun _ => ?_); subst x; rotate_left; clear_value x; rotate_right)
    | (lift_lets; intro x; subst x)
    | apply Keeps.via (allocView_keeps ..)
    | apply Keeps.via (evalRules_keeps ..)
    | apply Keeps.of (openPairs_frame ..)
    | apply Keeps.of (openPorts_frame ..)
    | apply Keeps.of (raise_frame ..)
    | apply Keeps.of (urgent_frame ..)
    | apply Keeps.of (xSend_frame ..)
    | apply Keeps.ite
    | apply Keeps.foldl
    | apply Keeps.foldl1
    | intro _
    | split
    | apply Keeps.set_mbx_vz
    | dsimp only

theorem vzfCreate_keeps {ν β κ : Bool} (v tpl : Nat) (iommu : IommuCtx) (s : State) :
    Keeps ν β κ s (vzfCreate v tpl iommu s).1 := by
  unfold vzfCreate
  with_reducible repeat' first
    | assumption
    | exact rfl
    | decide
    | apply Keeps.refl
    | apply Keeps.via (createNow_keeps ..)
    | apply Keeps.ite
    | apply Keeps.ite1
    | split
    | dsimp only

theorem createList_keeps {ν β κ : Bool} (s : State) :
    Keeps ν β κ s (createList s) := by
  unfold createList
  with_reducible repeat' first
    | assumption
    | exact rfl
    | decide
    | apply Keeps.refl
    | (lift_lets; intro x; apply Keeps.cut x ?_ (fun _ => ?_); subst x; rotate_left; clear_value x; rotate_right)
    | (lift_lets; intro x; apply Keeps.cut x.1 ?_ (fun _ => ?_); subst x; rotate_left; clear_value x; rotate_right)
    | (lift_lets; intro x; subst x)
    | apply Keeps.of (raise_frame ..)
    | apply Keeps.via (vzfCreate_keeps ..)
    | apply Keeps.ite
    | apply Keeps.foldl
    | apply Keeps.foldl1
    | intro _
    | split
    | dsimp only

theorem createBody_keeps {ν β κ : Bool} (tpl vzf : Nat) (iommu : IommuCtx) (s : State) :
    Keeps ν β κ s (createBody tpl vzf iommu s).1 := by
  unfold createBody
  with_reducible repeat' first
    | assumption
    | exact rfl
    | decide
    | apply Keeps.refl
    | (lift_lets; intro x; apply Keeps.cut x ?_ (fun _ => ?_); subst x; rotate_left; clear_value x; rotate_right)
    | (lift_lets; intro x; apply Keeps.cut x.1 ?_ (fun _ => ?_); subst x; rotate_left; clear_value x; rotate_right)
    | (lift_lets; intro x; subst x)
    | apply Keeps.via (vzfCreate_keeps ..)
    | apply Keeps.ite
    | apply Keeps.ite1
    | split
    | dsimp only

theorem execVzfCreate_keeps {ν β κ : Bool} (r : Req) (tpl vzf : Byte) (iommu : IommuCtx) (s : State) :
    Kept ν β κ s (execVzfCreate r tpl vzf iommu s) := by
  unfold execVzfCreate
  with_reducible repeat' first
    | apply Kept.next
    | assumption
    | exact rfl
    | decide
    | apply Keeps.refl
    | apply Keeps.via (createBody_keeps ..)
    | apply runCmd_keeps
    | apply Keeps.ite
    | intro _
    | split
    | dsimp only

theorem freeUnits_keeps {ν β κ : Bool} (v : Nat) (s : State) :
    Keeps ν β κ s (freeUnits v s) := by
  unfold freeUnits
  with_reducible repeat' first
    | assumption
    | exact rfl
    | decide
    | apply Keeps.refl
    | apply Keeps.ite
    | split
    | apply Keeps.set_tb
    | dsimp only

theorem suspendRules_keeps {ν β κ : Bool} (v : Nat) (s : State) :
    Keeps ν β κ s (suspendRules v s) := by
  unfold suspendRules
  with_reducible repeat' first
    | assumption
    | exact rfl
    | decide
    | apply Keeps.refl
    | (lift_lets; intro x; apply Keeps.cut x ?_ (fun _ => ?_); subst x; rotate_left; clear_value x; rotate_right)
    | (lift_lets; intro x; apply Keeps.cut x.1 ?_ (fun _ => ?_); subst x; rotate_left; clear_value x; rotate_right)
    | (lift_lets; intro x; subst x)
    | apply Keeps.of (applyMerge_frame ..)
    | apply Keeps.of (raise_frame ..)
    | apply Keeps.ite
    | split
    | apply Keeps.set_rfx
    | dsimp only

theorem resetSteps_keeps {ν β κ : Bool} (v : Nat) (s : State) :
    Keeps ν β κ s (resetSteps v s) := by
  unfold resetSteps
  with_reducible repeat' first
    | assumption
    | exact rfl
    | decide
    | apply Keeps.refl
    | (lift_lets; intro x; apply Keeps.cut x ?_ (fun _ => ?_); subst x; rotate_left; clear_value x; rotate_right)
    | (lift_lets; intro x; apply Keeps.cut x.1 ?_ (fun _ => ?_); subst x; rotate_left; clear_value x; rotate_right)
    | (lift_lets; intro x; subst x)
    | apply Keeps.of (abortPort_frame ..)
    | apply Keeps.of (canZero_frame ..)
    | apply Keeps.of (eswResetVzf_frame ..)
    | apply Keeps.via (freeUnits_keeps ..)
    | apply Keeps.of (linZero_frame ..)
    | apply Keeps.of (markZero_frame ..)
    | apply Keeps.of (orphanCh_frame ..)
    | apply Keeps.of (orphanX_frame ..)
    | apply Keeps.of (portEpoch_frame ..)
    | apply Keeps.of (sigZero_frame ..)
    | apply Keeps.via (suspendRules_keeps ..)
    | apply Keeps.of (xSend_frame ..)
    | apply Keeps.ite
    | apply Keeps.foldl
    | apply Keeps.foldl1
    | intro _
    | split
    | apply Keeps.set_vz
    | dsimp only

theorem releaseVzf_keeps {ν β κ : Bool} (v : Nat) (s : State) :
    Keeps ν β κ s (releaseVzf v s) := by
  unfold releaseVzf
  with_reducible repeat' first
    | assumption
    | exact rfl
    | decide
    | apply Keeps.refl
    | (lift_lets; intro x; apply Keeps.cut x ?_ (fun _ => ?_); subst x; rotate_left; clear_value x; rotate_right)
    | (lift_lets; intro x; apply Keeps.cut x.1 ?_ (fun _ => ?_); subst x; rotate_left; clear_value x; rotate_right)
    | (lift_lets; intro x; subst x)
    | apply Keeps.of (State.modChan_frame ..)
    | apply Keeps.of (State.modX_frame ..)
    | apply Keeps.of (applyMerge_frame ..)
    | apply Keeps.of (closePairs_frame ..)
    | apply Keeps.via (evalRules_keeps ..)
    | apply Keeps.via (freeViewAt_keeps ..)
    | apply Keeps.of (xSend_frame ..)
    | apply Keeps.ite
    | apply Keeps.foldl
    | apply Keeps.foldl1
    | intro _
    | split
    | apply Keeps.set_mbx_vz_rfx_fio
    | dsimp only

theorem endDestroy_keeps {ν β κ : Bool} (v : Nat) (s : State) :
    Keeps ν β κ s (endDestroy v s) := by
  unfold endDestroy
  with_reducible repeat' first
    | assumption
    | exact rfl
    | decide
    | apply Keeps.refl
    | (lift_lets; intro x; apply Keeps.cut x ?_ (fun _ => ?_); subst x; rotate_left; clear_value x; rotate_right)
    | (lift_lets; intro x; apply Keeps.cut x.1 ?_ (fun _ => ?_); subst x; rotate_left; clear_value x; rotate_right)
    | (lift_lets; intro x; subst x)
    | apply Keeps.of (completeVzf_frame ..)
    | apply Keeps.of (raise_frame ..)
    | apply Keeps.via (releaseVzf_keeps ..)
    | apply Keeps.ite
    | split
    | dsimp only

theorem drainEnd_keeps {ν β κ : Bool} (v : Nat) (s : State) :
    Keeps ν β κ s (drainEnd v s) := by
  unfold drainEnd
  with_reducible repeat' first
    | assumption
    | exact rfl
    | decide
    | apply Keeps.refl
    | apply Keeps.via (endDestroy_keeps ..)
    | apply Keeps.of (endReset_frame ..)
    | apply Keeps.via (resetSteps_keeps ..)
    | apply Keeps.ite
    | split
    | dsimp only

theorem execVzfResetDrainEnd_keeps {ν β κ : Bool} (v : Fin 256) (s : State) :
    Kept ν β κ s (execVzfResetDrainEnd v s) := by
  unfold execVzfResetDrainEnd
  with_reducible repeat' first
    | apply Kept.next
    | assumption
    | exact rfl
    | decide
    | apply Keeps.refl
    | apply Keeps.via (drainEnd_keeps ..)
    | apply Keeps.ite
    | split
    | dsimp only

end Sys2Proof.Machine

end
end

