-- ==== Sys2Proof/Laws/Keeps/Start.lean ====
section
/-! SUPPORT. What each function of `Machine/Start.lean` keeps. -/

section

set_option Elab.async false

namespace Sys2Proof.Machine

theorem restartCount_keeps {b q : Bool} (s : State) : Keeps false b q s (restartCount s) :=
  ⟨fun c => ⟨c.tcm, c.bankA, c.bankB, c.copies, c.staged, c.checked, c.ready⟩, fun _ => Nat.le_refl _,
    fun e => absurd e (by decide), fun _ k => k, fun _ => rfl⟩

theorem startViews_count (por : Bool) (t : TimeState) : (startViews por t).count = t.count := by
  unfold startViews
  split <;> rfl

theorem startBegin_keeps {κ : Bool} (f : StartFacts) (s : State) :
    Keeps false false κ s (startBegin f s) := by
  unfold startBegin
  with_reducible repeat' first
    | assumption
    | exact startViews_count ..
    | exact rfl
    | decide
    | apply Keeps.refl
    | (lift_lets; intro x; apply Keeps.cut x ?_ (fun _ => ?_); subst x; rotate_left; clear_value x; rotate_right)
    | (lift_lets; intro x; apply Keeps.cut x.1 ?_ (fun _ => ?_); subst x; rotate_left; clear_value x; rotate_right)
    | (lift_lets; intro x; subst x)
    | apply Keeps.of (raise_frame ..)
    | apply Keeps.via (restartCount_keeps ..)
    | apply Keeps.ite
    | split
    | apply Keeps.set_sys_log_tb_upd_start
    | dsimp only

/-- A start that follows no power-on reset keeps the count (R368). -/
theorem startBegin_warm {ν κ : Bool} (f : StartFacts) (s : State) (h : s.sys.porPending = false) : Keeps ν false κ s (startBegin f s) := by
  unfold startBegin
  simp only [h, Bool.false_eq_true, if_false]
  with_reducible repeat' first
    | assumption
    | exact startViews_count ..
    | exact rfl
    | decide
    | apply Keeps.refl
    | (lift_lets; intro x; apply Keeps.cut x ?_ (fun _ => ?_); subst x; rotate_left; clear_value x; rotate_right)
    | (lift_lets; intro x; apply Keeps.cut x.1 ?_ (fun _ => ?_); subst x; rotate_left; clear_value x; rotate_right)
    | (lift_lets; intro x; subst x)
    | apply Keeps.of (raise_frame ..)
    | apply Keeps.via (restartCount_keeps ..)
    | apply Keeps.ite
    | split
    | apply Keeps.set_sys_log_tb_upd_start
    | dsimp only

theorem startKeys_keeps {ν β : Bool} (f : StartFacts) (s : State) :
    Keeps ν β false s (startKeys f s) := by
  unfold startKeys
  with_reducible repeat' first
    | assumption
    | exact rfl
    | decide
    | apply Keeps.refl
    | (lift_lets; intro x; apply Keeps.cut x ?_ (fun _ => ?_); subst x; rotate_left; clear_value x; rotate_right)
    | (lift_lets; intro x; apply Keeps.cut x.1 ?_ (fun _ => ?_); subst x; rotate_left; clear_value x; rotate_right)
    | (lift_lets; intro x; subst x)
    | apply Keeps.via (State.modKeySlot_keeps ..)
    | apply Keeps.of (raiseKey_frame ..)
    | apply Keeps.ite
    | apply Keeps.foldl
    | apply Keeps.foldl1
    | intro _
    | split
    | apply Keeps.set_key_keys
    | dsimp only

theorem badCopy_keeps {ν β κ : Bool} (c : Nat × Bool) (s : State) :
    Keeps ν β κ s (badCopy c s) := by
  unfold badCopy
  with_reducible repeat' first
    | assumption
    | exact rfl
    | decide
    | apply Keeps.refl
    | exact fun _ h => h
    | (unfold Pair.modPart; assumption)
    | exact fun _ h => memWrite_wf _ _ _ h
    | exact fun _ h => memWrite32_wf _ _ _ h
    | exact fun _ h => h.copies _ _
    | apply State.modCopy_keeps
    | apply Keeps.of (raiseUpd_frame ..)
    | apply Keeps.ite
    | intro _
    | split
    | dsimp only

theorem badCopies_keeps {ν β κ : Bool} (f : StartFacts) (want : Nat → Bool) (s : State) :
    Keeps ν β κ s (badCopies f want s) := by
  unfold badCopies
  with_reducible repeat' first
    | assumption
    | exact rfl
    | decide
    | apply Keeps.refl
    | apply Keeps.via (badCopy_keeps ..)
    | apply Keeps.ite
    | apply Keeps.foldl
    | apply Keeps.foldl1
    | intro _
    | split
    | dsimp only

theorem checkBanks_keeps {ν β κ : Bool} (f : StartFacts) (s : State) :
    Keeps ν β κ s (checkBanks f s) := by
  unfold checkBanks
  with_reducible repeat' first
    | assumption
    | exact rfl
    | decide
    | apply Keeps.refl
    | (lift_lets; intro x; apply Keeps.cut x ?_ (fun _ => ?_); subst x; rotate_left; clear_value x; rotate_right)
    | (lift_lets; intro x; apply Keeps.cut x.1 ?_ (fun _ => ?_); subst x; rotate_left; clear_value x; rotate_right)
    | (lift_lets; intro x; subst x)
    | apply Keeps.of (raise_frame ..)
    | apply Keeps.ite
    | split
    | apply Keeps.set_cfg
    | dsimp only

theorem takeBank_keeps {ν β κ : Bool} (b : Bool) (s : State) :
    Keeps ν β κ s (takeBank b s) := by
  unfold takeBank
  with_reducible repeat' first
    | assumption
    | exact rfl
    | decide
    | apply Keeps.refl
    | (lift_lets; intro x; apply Keeps.cut x ?_ (fun _ => ?_); subst x; rotate_left; clear_value x; rotate_right)
    | (lift_lets; intro x; apply Keeps.cut x.1 ?_ (fun _ => ?_); subst x; rotate_left; clear_value x; rotate_right)
    | (lift_lets; intro x; subst x)
    | apply Keeps.via (extendMr_keeps ..)
    | apply Keeps.of (raise_frame ..)
    | apply Keeps.ite
    | split
    | apply Keeps.set_cfg
    | dsimp only

theorem underWaiver_keeps {ν β κ : Bool} (s : State) :
    Keeps ν β κ s (underWaiver s) := by
  unfold underWaiver
  with_reducible repeat' first
    | assumption
    | exact rfl
    | (unfold State.draw; exact rfl)
    | decide
    | apply Keeps.refl
    | (lift_lets; intro x; apply Keeps.cut x ?_ (fun _ => ?_); subst x; rotate_left; clear_value x; rotate_right)
    | (lift_lets; intro x; apply Keeps.cut x.1 ?_ (fun _ => ?_); subst x; rotate_left; clear_value x; rotate_right)
    | (lift_lets; intro x; subst x)
    | apply Keeps.of (State.draw_frame ..)
    | apply Keeps.via (extendMr_keeps ..)
    | apply Keeps.of (raise_frame ..)
    | apply Keeps.ite
    | split
    | apply Keeps.set_sys_upd
    | dsimp only

theorem chooseSet_keeps {ν β κ : Bool} (s : State) :
    Keeps ν β κ s (chooseSet s).1 := by
  unfold chooseSet
  with_reducible repeat' first
    | assumption
    | exact rfl
    | decide
    | apply Keeps.refl
    | (lift_lets; intro x; apply Keeps.cut x ?_ (fun _ => ?_); subst x; rotate_left; clear_value x; rotate_right)
    | (lift_lets; intro x; apply Keeps.cut x.1 ?_ (fun _ => ?_); subst x; rotate_left; clear_value x; rotate_right)
    | (lift_lets; intro x; subst x)
    | apply Keeps.of (raise_frame ..)
    | apply Keeps.via (underWaiver_keeps ..)
    | apply Keeps.ite
    | apply Keeps.ite1
    | split
    | apply Keeps.set_upd
    | dsimp only

theorem measure_keeps {ν β κ : Bool} (cls : Nat) (s : State) :
    Keeps ν β κ s (measure cls s) := by
  unfold measure
  with_reducible repeat' first
    | assumption
    | exact rfl
    | decide
    | apply Keeps.refl
    | apply Keeps.via (extendMr_keeps ..)
    | apply Keeps.ite
    | split
    | dsimp only

theorem runSet_keeps {ν β κ : Bool} (set : List Bool) (s : State) :
    Keeps ν β κ s (runSet set s) := by
  unfold runSet
  with_reducible repeat' first
    | assumption
    | exact rfl
    | decide
    | apply Keeps.refl
    | (lift_lets; intro x; apply Keeps.cut x ?_ (fun _ => ?_); subst x; rotate_left; clear_value x; rotate_right)
    | (lift_lets; intro x; apply Keeps.cut x.1 ?_ (fun _ => ?_); subst x; rotate_left; clear_value x; rotate_right)
    | (lift_lets; intro x; subst x)
    | apply Keeps.via (measure_keeps ..)
    | apply Keeps.ite
    | split
    | apply Keeps.set_upd
    | dsimp only

theorem startPairs_keeps {n b q : Bool} (s : State) : Keeps n b q s (startPairs s) := by
  refine ⟨fun c => ⟨fun p => ?_, c.bankA, c.bankB, c.copies, c.staged, c.checked, c.ready⟩, fun _ => Nat.le_refl _, fun _ => rfl, fun _ k => k, fun _ => rfl⟩
  have key : ∀ (l : List Nat) (f : Nat → Pair), (∀ k, (f k).tcm.wf = true) →
      ((Tbl.find (l.map (fun k => (k, f k))) p).getD Pair.reset).tcm.wf = true := by
    intro l f hf
    induction l with
    | nil => rfl
    | cons k r ih =>
      simp only [List.map_cons, Tbl.find]
      split
      · exact hf k
      · exact ih
  exact key _ _ (fun _ => rfl)

theorem startOwners_keeps {ν β κ : Bool} (s : State) :
    Keeps ν β κ s (startOwners s) := by
  unfold startOwners
  with_reducible repeat' first
    | assumption
    | exact rfl
    | decide
    | apply Keeps.refl
    | apply Keeps.via (State.modView_keeps ..)
    | apply Keeps.ite
    | apply Keeps.foldl
    | apply Keeps.foldl1
    | intro _
    | split
    | dsimp only

theorem startStep8_keeps {ν β κ : Bool} (s : State) :
    Keeps ν β κ s (startStep8 s) := by
  unfold startStep8
  with_reducible repeat' first
    | assumption
    | exact rfl
    | decide
    | apply Keeps.refl
    | (lift_lets; intro x; apply Keeps.cut x ?_ (fun _ => ?_); subst x; rotate_left; clear_value x; rotate_right)
    | (lift_lets; intro x; apply Keeps.cut x.1 ?_ (fun _ => ?_); subst x; rotate_left; clear_value x; rotate_right)
    | (lift_lets; intro x; subst x)
    | apply Keeps.via (createList_keeps ..)
    | apply Keeps.of (openService_frame ..)
    | apply Keeps.of (raiseCh_frame ..)
    | apply Keeps.of (seedGens_frame ..)
    | apply Keeps.of (startChannels_frame ..)
    | apply Keeps.via (startOwners_keeps ..)
    | apply Keeps.via (startPairs_keeps ..)
    | apply Keeps.of (twinStart_frame ..)
    | apply Keeps.ite
    | apply Keeps.foldl
    | apply Keeps.foldl1
    | intro _
    | split
    | apply Keeps.set_fio
    | apply Keeps.set_sys
    | apply Keeps.set_rfx_brg
    | dsimp only

theorem startStep10_keeps {ν β κ : Bool} (s : State) :
    Keeps ν β κ s (startStep10 s) := by
  unfold startStep10
  with_reducible repeat' first
    | assumption
    | exact rfl
    | decide
    | apply Keeps.refl
    | (lift_lets; intro x; apply Keeps.cut x ?_ (fun _ => ?_); subst x; rotate_left; clear_value x; rotate_right)
    | (lift_lets; intro x; apply Keeps.cut x.1 ?_ (fun _ => ?_); subst x; rotate_left; clear_value x; rotate_right)
    | (lift_lets; intro x; subst x)
    | apply Keeps.of (canConfigure_frame ..)
    | apply Keeps.of (canWakeCh_frame ..)
    | apply Keeps.of (linConfigure_frame ..)
    | apply Keeps.of (nmSet_frame ..)
    | apply Keeps.of (raiseCan_frame ..)
    | apply Keeps.ite
    | apply Keeps.foldl
    | apply Keeps.foldl1
    | intro _
    | split
    | apply Keeps.set_sys_net
    | dsimp only

theorem startConfigure_keeps {ν β κ : Bool} (s : State) :
    Keeps ν β κ s (startConfigure s) := by
  unfold startConfigure
  with_reducible repeat' first
    | assumption
    | exact rfl
    | decide
    | apply Keeps.refl
    | apply Keeps.via (startStep10_keeps ..)
    | apply Keeps.via (startStep8_keeps ..)
    | apply Keeps.of (startStep9_frame ..)
    | apply Keeps.ite
    | split
    | dsimp only

theorem startSet_keeps {ν β κ : Bool} (f : StartFacts) (s : State) :
    Keeps ν β κ s (startSet f s) := by
  unfold startSet
  with_reducible repeat' first
    | assumption
    | exact rfl
    | decide
    | apply Keeps.refl
    | (lift_lets; intro x; apply Keeps.cut x ?_ (fun _ => ?_); subst x; rotate_left; clear_value x; rotate_right)
    | (lift_lets; intro x; apply Keeps.cut x.1 ?_ (fun _ => ?_); subst x; rotate_left; clear_value x; rotate_right)
    | (lift_lets; intro x; subst x)
    | apply Keeps.via (badCopies_keeps ..)
    | apply Keeps.via (basecampEnter_keeps ..)
    | apply Keeps.via (chooseSet_keeps ..)
    | apply Keeps.via (runSet_keeps ..)
    | apply Keeps.via (startConfigure_keeps ..)
    | apply Keeps.ite
    | split
    | dsimp only

theorem startRom_keeps {ν β κ : Bool} (f : StartFacts) (s : State) :
    Keeps ν β κ s (startRom f s) := by
  unfold startRom
  with_reducible repeat' first
    | assumption
    | exact rfl
    | decide
    | apply Keeps.refl
    | (lift_lets; intro x; apply Keeps.cut x ?_ (fun _ => ?_); subst x; rotate_left; clear_value x; rotate_right)
    | (lift_lets; intro x; apply Keeps.cut x.1 ?_ (fun _ => ?_); subst x; rotate_left; clear_value x; rotate_right)
    | (lift_lets; intro x; subst x)
    | apply Keeps.via (badCopies_keeps ..)
    | apply Keeps.via (basecampEnter_keeps ..)
    | apply Keeps.via (checkBanks_keeps ..)
    | apply Keeps.of (raise_frame ..)
    | apply Keeps.via (startSet_keeps ..)
    | apply Keeps.via (takeBank_keeps ..)
    | apply Keeps.ite
    | split
    | dsimp only

theorem resetRelease_keeps {κ : Bool} (f : StartFacts) (s : State) :
    Keeps false false κ s (resetRelease f s) := by
  unfold resetRelease
  with_reducible repeat' first
    | assumption
    | exact rfl
    | decide
    | apply Keeps.refl
    | (lift_lets; intro x; apply Keeps.cut x ?_ (fun _ => ?_); subst x; rotate_left; clear_value x; rotate_right)
    | (lift_lets; intro x; apply Keeps.cut x.1 ?_ (fun _ => ?_); subst x; rotate_left; clear_value x; rotate_right)
    | (lift_lets; intro x; subst x)
    | apply Keeps.via (startBegin_keeps ..)
    | apply Keeps.ite
    | split
    | apply Keeps.set_sys_start
    | dsimp only

theorem resetRelease_warm {ν κ : Bool} (f : StartFacts) (s : State) (h : s.sys.porPending = false) :
    Keeps ν false κ s (resetRelease f s) := by
  unfold resetRelease
  split
  · exact Keeps.refl ..
  · exact Keeps.starts (t := startBegin f s) rfl rfl rfl rfl rfl rfl rfl rfl rfl rfl rfl (startBegin_warm f s h)

theorem startRoot_keeps {ν β : Bool} (s : State) :
    Keeps ν β false s (startRoot s) := by
  unfold startRoot
  with_reducible repeat' first
    | assumption
    | exact rfl
    | decide
    | apply Keeps.refl
    | apply Keeps.via (startKeys_keeps ..)
    | apply Keeps.ite
    | split
    | apply Keeps.set_sys
    | dsimp only

theorem startGoesOn_keeps {ν β : Bool} (s : State) :
    Keeps ν β false s (startGoesOn s) := by
  unfold startGoesOn
  with_reducible repeat' first
    | assumption
    | exact rfl
    | decide
    | apply Keeps.refl
    | (lift_lets; intro x; apply Keeps.cut x ?_ (fun _ => ?_); subst x; rotate_left; clear_value x; rotate_right)
    | (lift_lets; intro x; apply Keeps.cut x.1 ?_ (fun _ => ?_); subst x; rotate_left; clear_value x; rotate_right)
    | (lift_lets; intro x; subst x)
    | apply Keeps.via (basecampEnter_keeps ..)
    | apply Keeps.of (raise_frame ..)
    | apply Keeps.via (startRom_keeps ..)
    | apply Keeps.via (startRoot_keeps ..)
    | apply Keeps.ite
    | split
    | dsimp only

theorem execResetRelease_keeps {κ : Bool} (f : StartFacts) (s : State) :
    Kept false false κ s (execResetRelease f s) := by
  unfold execResetRelease
  with_reducible repeat' first
    | apply Kept.next
    | assumption
    | exact rfl
    | decide
    | apply Keeps.refl
    | apply Keeps.via (resetRelease_keeps ..)
    | apply Keeps.ite
    | split
    | dsimp only

theorem startTables_keeps {ν β κ : Bool} (s : State) :
    Keeps ν β κ s (startTables s) := by
  unfold startTables
  with_reducible repeat' first
    | assumption
    | exact rfl
    | decide
    | apply Keeps.refl
    | (lift_lets; intro x; apply Keeps.cut x ?_ (fun _ => ?_); subst x; rotate_left; clear_value x; rotate_right)
    | (lift_lets; intro x; apply Keeps.cut x.1 ?_ (fun _ => ?_); subst x; rotate_left; clear_value x; rotate_right)
    | (lift_lets; intro x; subst x)
    | apply Keeps.via (evalRules_keeps ..)
    | apply Keeps.via (measure_keeps ..)
    | apply Keeps.via (selfArrest_keeps ..)
    | apply Keeps.of (sigBegin_frame ..)
    | apply Keeps.of (sigConfigure_frame ..)
    | apply Keeps.ite
    | split
    | apply Keeps.set_sys_rfx
    | dsimp only

theorem startStep13_keeps {ν β κ : Bool} (s : State) :
    Keeps ν β κ s (startStep13 s) := by
  unfold startStep13
  with_reducible repeat' first
    | assumption
    | exact rfl
    | (unfold State.draw; exact rfl)
    | decide
    | apply Keeps.refl
    | apply Keeps.of (State.draw_frame ..)
    | apply Keeps.via (ruleFault_keeps ..)
    | apply Keeps.via (startTables_keeps ..)
    | apply Keeps.ite
    | split
    | dsimp only

theorem prove_keeps {ν β κ : Bool} (s : State) :
    Keeps ν β κ s (prove s) := by
  unfold prove
  with_reducible repeat' first
    | assumption
    | exact rfl
    | decide
    | apply Keeps.refl
    | (lift_lets; intro x; apply Keeps.cut x ?_ (fun _ => ?_); subst x; rotate_left; clear_value x; rotate_right)
    | (lift_lets; intro x; apply Keeps.cut x.1 ?_ (fun _ => ?_); subst x; rotate_left; clear_value x; rotate_right)
    | (lift_lets; intro x; subst x)
    | apply Keeps.via (evalRules_keeps ..)
    | apply Keeps.via (limpEntry_keeps ..)
    | apply Keeps.via (runEntry_keeps ..)
    | apply Keeps.via (selfArrest_keeps ..)
    | apply Keeps.ite
    | split
    | apply Keeps.set_sys
    | dsimp only

theorem advance_keeps {ν β κ : Bool} (s : State) :
    Keeps ν β κ s (advance s) := by
  unfold advance
  with_reducible repeat' first
    | assumption
    | exact rfl
    | decide
    | apply Keeps.refl
    | (lift_lets; intro x; apply Keeps.cut x ?_ (fun _ => ?_); subst x; rotate_left; clear_value x; rotate_right)
    | (lift_lets; intro x; apply Keeps.cut x.1 ?_ (fun _ => ?_); subst x; rotate_left; clear_value x; rotate_right)
    | (lift_lets; intro x; subst x)
    | apply Keeps.via (prove_keeps ..)
    | apply Keeps.via (startStep13_keeps ..)
    | apply Keeps.ite
    | split
    | dsimp only

theorem pllLock_keeps {ν β : Bool} (s : State) :
    Keeps ν β false s (pllLock s) := by
  unfold pllLock
  with_reducible repeat' first
    | assumption
    | exact rfl
    | decide
    | apply Keeps.refl
    | (lift_lets; intro x; apply Keeps.cut x ?_ (fun _ => ?_); subst x; rotate_left; clear_value x; rotate_right)
    | (lift_lets; intro x; apply Keeps.cut x.1 ?_ (fun _ => ?_); subst x; rotate_left; clear_value x; rotate_right)
    | (lift_lets; intro x; subst x)
    | apply Keeps.of (State.modCan_frame ..)
    | apply Keeps.via (advance_keeps ..)
    | apply Keeps.via (startGoesOn_keeps ..)
    | apply Keeps.ite
    | split
    | apply Keeps.set_sys
    | dsimp only

theorem execRootPllLock_keeps {ν β : Bool} (s : State) :
    Kept ν β false s (execRootPllLock s) := by
  unfold execRootPllLock
  with_reducible repeat' first
    | apply Kept.next
    | assumption
    | exact rfl
    | decide
    | apply Keeps.refl
    | apply Keeps.via (pllLock_keeps ..)
    | apply Keeps.ite
    | split
    | dsimp only

theorem pllTimeout_keeps {ν β : Bool} (s : State) :
    Keeps ν β false s (pllTimeout s) := by
  unfold pllTimeout
  with_reducible repeat' first
    | assumption
    | exact rfl
    | decide
    | apply Keeps.refl
    | apply Keeps.via (basecampEnter_keeps ..)
    | apply Keeps.of (raise_frame ..)
    | apply Keeps.via (startRoot_keeps ..)
    | apply Keeps.ite
    | split
    | apply Keeps.set_sys
    | dsimp only

theorem execPllLockTimeout_keeps {ν β : Bool} (s : State) :
    Kept ν β false s (execPllLockTimeout s) := by
  unfold execPllLockTimeout
  with_reducible repeat' first
    | apply Kept.next
    | assumption
    | exact rfl
    | decide
    | apply Keeps.refl
    | apply Keeps.via (pllTimeout_keeps ..)
    | apply Keeps.ite
    | split
    | dsimp only

theorem tableAck_keeps {ν β κ : Bool} (g : Nat) (s : State) :
    Keeps ν β κ s (tableAck g s) := by
  unfold tableAck
  with_reducible repeat' first
    | assumption
    | exact rfl
    | decide
    | apply Keeps.refl
    | apply Keeps.of (State.modDie_frame ..)
    | apply Keeps.via (advance_keeps ..)
    | apply Keeps.ite
    | split
    | dsimp only

theorem execPowerDieTableAck_keeps {ν β κ : Bool} (die : Fin 8) (s : State) :
    Kept ν β κ s (execPowerDieTableAck die s) := by
  unfold execPowerDieTableAck
  with_reducible repeat' first
    | apply Kept.next
    | assumption
    | exact rfl
    | decide
    | apply Keeps.refl
    | apply Keeps.via (tableAck_keeps ..)
    | apply Keeps.ite
    | split
    | dsimp only

theorem vinCheck_keeps {ν β κ : Bool} (inside : Bool) (s : State) :
    Keeps ν β κ s (vinCheck inside s) := by
  unfold vinCheck
  with_reducible repeat' first
    | assumption
    | exact rfl
    | decide
    | apply Keeps.refl
    | (lift_lets; intro x; apply Keeps.cut x ?_ (fun _ => ?_); subst x; rotate_left; clear_value x; rotate_right)
    | (lift_lets; intro x; apply Keeps.cut x.1 ?_ (fun _ => ?_); subst x; rotate_left; clear_value x; rotate_right)
    | (lift_lets; intro x; subst x)
    | apply Keeps.via (advance_keeps ..)
    | apply Keeps.of (enterStopped_frame ..)
    | apply Keeps.of (raise_frame ..)
    | apply Keeps.of (urgent_frame ..)
    | apply Keeps.ite
    | split
    | apply Keeps.set_sys
    | dsimp only

theorem execVinClassCheck_keeps {ν β κ : Bool} (inside : Bool) (s : State) :
    Kept ν β κ s (execVinClassCheck inside s) := by
  unfold execVinClassCheck
  with_reducible repeat' first
    | apply Kept.next
    | assumption
    | exact rfl
    | decide
    | apply Keeps.refl
    | apply Keeps.via (vinCheck_keeps ..)
    | apply Keeps.ite
    | split
    | dsimp only

theorem placeParts_keeps {ν β κ : Bool} (s : State) :
    Keeps ν β κ s (placeParts s) := by
  unfold placeParts
  with_reducible repeat' first
    | assumption
    | exact rfl
    | decide
    | apply Keeps.refl
    | (lift_lets; intro x; apply Keeps.cut x ?_ (fun _ => ?_); subst x; rotate_left; clear_value x; rotate_right)
    | (lift_lets; intro x; apply Keeps.cut x.1 ?_ (fun _ => ?_); subst x; rotate_left; clear_value x; rotate_right)
    | (lift_lets; intro x; subst x)
    | apply Keeps.via (moveParts_keeps ..)
    | apply Keeps.ite
    | apply Keeps.foldl
    | apply Keeps.foldl1
    | intro _
    | split
    | dsimp only

theorem injectionDone_keeps {ν β κ : Bool} (p : Nat) (pass : Bool) (s : State) :
    Keeps ν β κ s (injectionDone p pass s) := by
  unfold injectionDone
  with_reducible repeat' first
    | assumption
    | exact rfl
    | decide
    | apply Keeps.refl
    | (lift_lets; intro x; apply Keeps.cut x ?_ (fun _ => ?_); subst x; rotate_left; clear_value x; rotate_right)
    | (lift_lets; intro x; apply Keeps.cut x.1 ?_ (fun _ => ?_); subst x; rotate_left; clear_value x; rotate_right)
    | (lift_lets; intro x; subst x)
    | exact fun _ h => h
    | (unfold Pair.modPart; assumption)
    | exact fun _ h => memWrite_wf _ _ _ h
    | exact fun _ h => memWrite32_wf _ _ _ h
    | exact fun _ h => h.copies _ _
    | apply State.modPair_keeps
    | apply Keeps.via (advance_keeps ..)
    | apply Keeps.via (placeParts_keeps ..)
    | apply Keeps.of (raiseSaf_frame ..)
    | apply Keeps.ite
    | intro _
    | split
    | dsimp only

theorem execPairInjectionTestDone_keeps {ν β κ : Bool} (pair : Fin 4) (pass : Bool) (s : State) :
    Kept ν β κ s (execPairInjectionTestDone pair pass s) := by
  unfold execPairInjectionTestDone
  with_reducible repeat' first
    | apply Kept.next
    | assumption
    | exact rfl
    | decide
    | apply Keeps.refl
    | apply Keeps.via (injectionDone_keeps ..)
    | apply Keeps.ite
    | split
    | dsimp only

theorem clusterServing_keeps {n b q : Bool} (s : State) : Keeps n b q s (clusterServing s) := by
  unfold clusterServing
  split
  · exact Keeps.refl ..
  · refine Keeps.via (advance_keeps ..) ⟨fun c => ⟨fun p => ?_, c.bankA, c.bankB, c.copies, c.staged, c.checked, c.ready⟩,
      fun _ => Nat.le_refl _, fun _ => rfl, fun _ k => k, fun _ => rfl⟩
    have h := c.tcm p
    rcases Tbl.getD_mapAll s.saf.pairs .reset p (fun _ x => { x with parts := x.parts.map (fun y => { y with running := x.healthy }) })
      with e | e
    · show ((s.saf.pairs.mapAll _).getD .reset p).tcm.wf = true
      rw [e]
      rfl
    · show ((s.saf.pairs.mapAll _).getD .reset p).tcm.wf = true
      rw [e]
      exact h

theorem execSafetyClusterServing_keeps {ν β κ : Bool} (s : State) :
    Kept ν β κ s (execSafetyClusterServing s) := by
  unfold execSafetyClusterServing
  with_reducible repeat' first
    | apply Kept.next
    | assumption
    | exact rfl
    | decide
    | apply Keeps.refl
    | apply Keeps.via (clusterServing_keeps ..)
    | apply Keeps.ite
    | split
    | dsimp only

theorem ddrDone_keeps {ν β κ : Bool} (s : State) :
    Keeps ν β κ s (ddrDone s) := by
  unfold ddrDone
  with_reducible repeat' first
    | assumption
    | exact rfl
    | decide
    | apply Keeps.refl
    | apply Keeps.via (measure_keeps ..)
    | apply Keeps.ite
    | split
    | apply Keeps.set_sys
    | dsimp only

theorem execDdrTrainingDone_keeps {ν β κ : Bool} (s : State) :
    Kept ν β κ s (execDdrTrainingDone s) := by
  unfold execDdrTrainingDone
  with_reducible repeat' first
    | apply Kept.next
    | assumption
    | exact rfl
    | decide
    | apply Keeps.refl
    | apply Keeps.via (ddrDone_keeps ..)
    | apply Keeps.ite
    | split
    | dsimp only

theorem forcedBasecamp_keeps {ν β : Bool} (s : State) :
    Keeps ν β false s (forcedBasecamp s) := by
  unfold forcedBasecamp
  with_reducible repeat' first
    | assumption
    | exact rfl
    | decide
    | apply Keeps.refl
    | apply Keeps.via (basecampEnter_keeps ..)
    | apply Keeps.via (startRoot_keeps ..)
    | apply Keeps.ite
    | split
    | dsimp only

theorem execForcedBasecampCheck_keeps {ν β : Bool} (s : State) :
    Kept ν β false s (execForcedBasecampCheck s) := by
  unfold execForcedBasecampCheck
  with_reducible repeat' first
    | apply Kept.next
    | assumption
    | exact rfl
    | decide
    | apply Keeps.refl
    | apply Keeps.via (forcedBasecamp_keeps ..)
    | apply Keeps.ite
    | split
    | dsimp only

theorem workshopTimeout_keeps {ν β κ : Bool} (s : State) :
    Keeps ν β κ s (workshopTimeout s) := by
  unfold workshopTimeout
  with_reducible repeat' first
    | assumption
    | exact rfl
    | decide
    | apply Keeps.refl
    | apply Keeps.of (raise_frame ..)
    | apply Keeps.via (restartCause_keeps ..)
    | apply Keeps.ite
    | split
    | dsimp only

theorem execWorkshopInactivityTimeout_keeps {ν β κ : Bool} (s : State) :
    Kept ν β κ s (execWorkshopInactivityTimeout s) := by
  unfold execWorkshopInactivityTimeout
  with_reducible repeat' first
    | apply Kept.next
    | assumption
    | exact rfl
    | decide
    | apply Keeps.refl
    | apply Keeps.via (workshopTimeout_keeps ..)
    | apply Keeps.ite
    | split
    | dsimp only

end Sys2Proof.Machine

end
end

