-- ==== Sys2Proof/Laws/Keeps/Sys.lean ====
section
/-! SUPPORT. What each function of `Machine/Sys.lean` keeps. -/

section

set_option Elab.async false

namespace Sys2Proof.Machine

theorem workshopEnter_keeps {ν β κ : Bool} (s : State) :
    Keeps ν β κ s (workshopEnter s) := by
  unfold workshopEnter
  with_reducible repeat' first
    | assumption
    | exact rfl
    | decide
    | apply Keeps.refl
    | (lift_lets; intro x; apply Keeps.cut x ?_ (fun _ => ?_); subst x; rotate_left; clear_value x; rotate_right)
    | (lift_lets; intro x; apply Keeps.cut x.1 ?_ (fun _ => ?_); subst x; rotate_left; clear_value x; rotate_right)
    | (lift_lets; intro x; subst x)
    | apply Keeps.of (pushAll_frame ..)
    | apply Keeps.via (setMode_keeps ..)
    | apply Keeps.of (twinRelease_frame ..)
    | apply Keeps.ite
    | split
    | apply Keeps.set_rfx
    | apply Keeps.set_sys
    | dsimp only

theorem enterWorkshopBody_keeps {ν β κ : Bool} (nonce : Nat) (sigOk : Bool) (s : State) :
    Keeps ν β κ s (enterWorkshopBody nonce sigOk s).1 := by
  unfold enterWorkshopBody
  with_reducible repeat' first
    | assumption
    | exact rfl
    | decide
    | apply Keeps.refl
    | (lift_lets; intro x; apply Keeps.cut x ?_ (fun _ => ?_); subst x; rotate_left; clear_value x; rotate_right)
    | (lift_lets; intro x; apply Keeps.cut x.1 ?_ (fun _ => ?_); subst x; rotate_left; clear_value x; rotate_right)
    | (lift_lets; intro x; subst x)
    | apply Keeps.of (raise_frame ..)
    | apply Keeps.via (useNonce_keeps ..)
    | apply Keeps.via (workshopEnter_keeps ..)
    | apply Keeps.ite
    | apply Keeps.ite1
    | split
    | dsimp only

theorem execSysEnterWorkshop_keeps {ν β κ : Bool} (r : Req) (nonce : Nat) (sigOk : Bool) (s : State) :
    Kept ν β κ s (execSysEnterWorkshop r nonce sigOk s) := by
  unfold execSysEnterWorkshop
  with_reducible repeat' first
    | apply Kept.next
    | assumption
    | exact rfl
    | decide
    | apply Keeps.refl
    | apply Keeps.via (enterWorkshopBody_keeps ..)
    | apply runCmd_keeps
    | apply Keeps.ite
    | intro _
    | split
    | dsimp only

theorem execSysLeaveWorkshop_keeps {ν β κ : Bool} (r : Req) (s : State) :
    Kept ν β κ s (execSysLeaveWorkshop r s) := by
  unfold execSysLeaveWorkshop
  with_reducible repeat' first
    | apply Kept.next
    | assumption
    | exact rfl
    | decide
    | apply Keeps.refl
    | apply Keeps.via (answerRestart_keeps ..)
    | apply runLater_keeps
    | apply Keeps.ite
    | intro _
    | split
    | dsimp only

theorem restartBody_keeps {ν β κ : Bool} (r : Req) (nonce : Nat) (sigOk : Bool) (s : State) :
    Keeps ν β κ s (restartBody r nonce sigOk s).1 := by
  unfold restartBody
  with_reducible repeat' first
    | assumption
    | exact rfl
    | decide
    | apply Keeps.refl
    | (lift_lets; intro x; apply Keeps.cut x ?_ (fun _ => ?_); subst x; rotate_left; clear_value x; rotate_right)
    | (lift_lets; intro x; apply Keeps.cut x.1 ?_ (fun _ => ?_); subst x; rotate_left; clear_value x; rotate_right)
    | (lift_lets; intro x; subst x)
    | apply Keeps.via (answerRestart_keeps ..)
    | apply Keeps.via (useNonce_keeps ..)
    | apply Keeps.ite
    | apply Keeps.ite1
    | split
    | dsimp only

theorem execSysRestart_keeps {ν β κ : Bool} (r : Req) (nonce : Nat) (sigOk : Bool) (s : State) :
    Kept ν β κ s (execSysRestart r nonce sigOk s) := by
  unfold execSysRestart
  with_reducible repeat' first
    | apply Kept.next
    | assumption
    | exact rfl
    | decide
    | apply Keeps.refl
    | apply Keeps.via (restartBody_keeps ..)
    | apply runLater_keeps
    | apply Keeps.ite
    | intro _
    | split
    | dsimp only

theorem execSysEnterBasecamp_keeps {ν β κ : Bool} (r : Req) (s : State) :
    Kept ν β κ s (execSysEnterBasecamp r s) := by
  unfold execSysEnterBasecamp
  with_reducible repeat' first
    | apply Kept.next
    | assumption
    | exact rfl
    | decide
    | apply Keeps.refl
    | apply Keeps.via (basecampEnter_keeps ..)
    | apply Keeps.of (leaveRsp_frame ..)
    | apply runLater_keeps
    | apply Keeps.ite
    | intro _
    | split
    | dsimp only

theorem getModeBody_keeps {ν β κ : Bool} (s : State) :
    Keeps ν β κ s (getModeBody s).1 := by
  unfold getModeBody
  with_reducible repeat' first
    | assumption
    | exact rfl
    | decide
    | apply Keeps.refl
    | (lift_lets; intro x; apply Keeps.cut x ?_ (fun _ => ?_); subst x; rotate_left; clear_value x; rotate_right)
    | (lift_lets; intro x; apply Keeps.cut x.1 ?_ (fun _ => ?_); subst x; rotate_left; clear_value x; rotate_right)
    | (lift_lets; intro x; subst x)
    | apply Keeps.via (issueNonce_keeps ..)
    | apply Keeps.ite
    | apply Keeps.ite1
    | split
    | dsimp only

theorem execSysGetMode_keeps {ν β κ : Bool} (r : Req) (s : State) :
    Kept ν β κ s (execSysGetMode r s) := by
  unfold execSysGetMode
  with_reducible repeat' first
    | apply Kept.next
    | assumption
    | exact rfl
    | decide
    | apply Keeps.refl
    | apply Keeps.via (getModeBody_keeps ..)
    | apply runCmd_keeps
    | apply Keeps.ite
    | intro _
    | split
    | dsimp only

theorem challengeBody_keeps {ν β κ : Bool} (s : State) :
    Keeps ν β κ s (challengeBody s).1 := by
  unfold challengeBody
  with_reducible repeat' first
    | assumption
    | exact rfl
    | decide
    | apply Keeps.refl
    | (lift_lets; intro x; apply Keeps.cut x ?_ (fun _ => ?_); subst x; rotate_left; clear_value x; rotate_right)
    | (lift_lets; intro x; apply Keeps.cut x.1 ?_ (fun _ => ?_); subst x; rotate_left; clear_value x; rotate_right)
    | (lift_lets; intro x; subst x)
    | apply Keeps.via (issueNonce_keeps ..)
    | apply Keeps.ite
    | apply Keeps.ite1
    | split
    | dsimp only

theorem execSysChallenge_keeps {ν β κ : Bool} (r : Req) (s : State) :
    Kept ν β κ s (execSysChallenge r s) := by
  unfold execSysChallenge
  with_reducible repeat' first
    | apply Kept.next
    | assumption
    | exact rfl
    | decide
    | apply Keeps.refl
    | apply Keeps.via (challengeBody_keeps ..)
    | apply runCmd_keeps
    | apply Keeps.ite
    | intro _
    | split
    | dsimp only

end Sys2Proof.Machine

end
end

