-- ==== Sys2Proof/Laws/Keeps/Upd.lean ====
section
/-! SUPPORT. What each function of `Machine/Upd.lean` keeps. -/

section

set_option Elab.async false

namespace Sys2Proof.Machine

theorem updOpen_keeps {n b q : Bool} (target total : Nat) (s : State) : Keeps n b q s (updOpen target total s).1 := by
  unfold updOpen
  dsimp only
  split
  · exact Keeps.refl ..
  · exact Keeps.updates _ rfl (fun _ _ e => by cases e; rfl) (fun k => k.checked) (fun _ k => k.ready) rfl (Keeps.refl n b q s)

theorem updFill_keeps {n b q : Bool} (offset : Nat) (data : List Byte) (s : State) : Keeps n b q s (updFill offset data s).1 := by
  unfold updFill
  split
  · exact Keeps.refl ..
  · rename_i x h
    split
    · exact Keeps.refl ..
    · exact Keeps.updates _ rfl (fun k _ e => by cases e; exact memWrite_wf _ _ _ (k.staged x h)) (fun k => k.checked)
        (fun _ k => k.ready) rfl (Keeps.refl n b q s)

theorem updStartVerify_keeps {n b q : Bool} (req : Option (Nat × U32 × U32)) (s : State) : Keeps n b q s (updStartVerify req s).1 := by
  unfold updStartVerify
  split
  · exact Keeps.refl ..
  · rename_i x h
    exact Keeps.updates _ rfl (fun _ _ e => nomatch e) (fun k _ e => by cases e; exact k.staged x h) (fun _ k => k.ready) rfl (Keeps.refl n b q s)

theorem commitNow_keeps {n b q : Bool} (s : State) : Keeps n b q s (commitNow s) := by
  unfold commitNow
  lift_lets
  intro x
  have hx : Keeps n b q s x := by
    subst x
    refine Keeps.foldl (fun u c => ?_) (Keeps.refl n b q s)
    split
    · exact State.modCopy_keeps _ _ _ (fun _ k => k.copies _ _) (Keeps.refl n b q u)
    · exact Keeps.refl ..
  clear_value x
  dsimp only
  split
  · rename_i k e
    refine Keeps.via (t := { x with cfg := { x.cfg with bankB := k } }) ?_ (Keeps.banks _ (fun c => c.bankA) (fun c => c.ready _ k e) hx)
    exact ⟨fun c => ⟨c.tcm, c.bankA, c.bankB, c.copies, c.staged, c.checked, (fun _ _ e => nomatch e)⟩, fun _ => Nat.le_refl _, fun _ => rfl, fun _ k => k, fun _ => rfl⟩
  · rename_i k e
    refine Keeps.via (t := { x with cfg := { x.cfg with bankA := k } }) ?_ (Keeps.banks _ (fun c => c.ready _ k e) (fun c => c.bankB) hx)
    exact ⟨fun c => ⟨c.tcm, c.bankA, c.bankB, c.copies, c.staged, c.checked, (fun _ _ e => nomatch e)⟩, fun _ => Nat.le_refl _, fun _ => rfl, fun _ k => k, fun _ => rfl⟩
  · refine Keeps.via (t := x) ?_ hx
    exact ⟨fun c => ⟨c.tcm, c.bankA, c.bankB, c.copies, c.staged, c.checked, (fun _ _ e => nomatch e)⟩, fun _ => Nat.le_refl _, fun _ => rfl, fun _ k => k, fun _ => rfl⟩

theorem commitBody_keeps {ν β κ : Bool} (allow : Bool) (s : State) :
    Keeps ν β κ s (commitBody allow s).1 := by
  unfold commitBody
  with_reducible repeat' first
    | assumption
    | exact rfl
    | decide
    | apply Keeps.refl
    | (lift_lets; intro x; apply Keeps.cut x ?_ (fun _ => ?_); subst x; rotate_left; clear_value x; rotate_right)
    | (lift_lets; intro x; apply Keeps.cut x.1 ?_ (fun _ => ?_); subst x; rotate_left; clear_value x; rotate_right)
    | (lift_lets; intro x; subst x)
    | apply Keeps.via (commitNow_keeps ..)
    | apply Keeps.of (raiseUpd_frame ..)
    | apply Keeps.ite
    | apply Keeps.ite1
    | split
    | dsimp only

theorem abortStaged_keeps {n b q : Bool} (s : State) : Keeps n b q s (abortStaged s) := by
  refine ⟨fun c => ⟨c.tcm, c.bankA, c.bankB, fun cls k => ?_, (fun _ e => nomatch e), (fun _ e => nomatch e), (fun _ _ e => nomatch e)⟩,
    fun _ => Nat.le_refl _, fun _ => rfl, fun _ k => k, fun _ => rfl⟩
  have h := c.copies cls k
  rcases Tbl.getD_mapAll s.upd.copies .empty (2 * cls + bit k) (fun _ x => if x.state = .verified then .empty else x) with e | e
  · show ((s.upd.copies.mapAll _).getD .empty _).bytes.wf = true
    rw [e]
    rfl
  · show ((s.upd.copies.mapAll _).getD .empty _).bytes.wf = true
    rw [e]
    split
    · rfl
    · exact h

theorem updAbortBody_keeps {ν β κ : Bool} (s : State) :
    Keeps ν β κ s (updAbortBody s).1 := by
  unfold updAbortBody
  with_reducible repeat' first
    | assumption
    | exact rfl
    | decide
    | apply Keeps.refl
    | apply Keeps.via (abortStaged_keeps ..)
    | apply Keeps.of (abortVerify_frame ..)
    | apply Keeps.ite
    | apply Keeps.ite1
    | split
    | dsimp only

theorem execUpdBegin_keeps {ν β κ : Bool} (r : Req) (target : Byte) (total : U32) (s : State) :
    Kept ν β κ s (execUpdBegin r target total s) := by
  unfold execUpdBegin
  with_reducible repeat' first
    | apply Kept.next
    | assumption
    | exact rfl
    | decide
    | apply Keeps.refl
    | apply runCmd_keeps
    | apply Keeps.via (updOpen_keeps ..)
    | apply Keeps.ite
    | intro _
    | split
    | dsimp only

theorem execUpdWrite_keeps {ν β κ : Bool} (r : Req) (offset : U32) (data : List Byte) (s : State) :
    Kept ν β κ s (execUpdWrite r offset data s) := by
  unfold execUpdWrite
  with_reducible repeat' first
    | apply Kept.next
    | assumption
    | exact rfl
    | decide
    | apply Keeps.refl
    | apply runCmd_keeps
    | apply Keeps.via (updFill_keeps ..)
    | apply Keeps.ite
    | intro _
    | split
    | dsimp only

theorem execUpdVerify_keeps {ν β κ : Bool} (r : Req) (s : State) :
    Kept ν β κ s (execUpdVerify r s) := by
  unfold execUpdVerify
  with_reducible repeat' first
    | apply Kept.next
    | assumption
    | exact rfl
    | decide
    | apply Keeps.refl
    | apply runCmd_keeps
    | apply Keeps.via (updStartVerify_keeps ..)
    | apply Keeps.ite
    | intro _
    | split
    | dsimp only

theorem imageVerified_keeps {n b q : Bool} {s0 s : State} (v : Verifying) (hv : s0.Canonical → v.target.bytes.wf = true) (h : Keeps n b q s0 s) :
    Keeps n b q s0 (imageVerified v s) := by
  unfold imageVerified
  dsimp only
  refine Keeps.of (answerVerify_frame ..) (by decide) (Keeps.of (raiseUpd_frame ..) (by decide) (State.modCopy_keeps _ _ _ (fun c _ => ?_) h))
  have w : ∀ d : Bool, Memory.wf (if d then memSet v.target.bytes 0x1FFC 1 else v.target.bytes) = true := by
    intro d
    cases d
    · exact hv c
    · exact memSet_wf _ _ _ (hv c)
  exact w _

theorem bankVerified_keeps {n b q : Bool} {s0 s : State} (v : Verifying) (k : Bank) (hv : s0.Canonical → k.bytes.wf = true) (h : Keeps n b q s0 s) :
    Keeps n b q s0 (bankVerified v k s) := by
  unfold bankVerified
  dsimp only
  exact Keeps.of (answerVerify_frame ..) (by decide) (Keeps.of (raiseUpd_frame ..) (by decide) (Keeps.updates _ rfl (fun c => c.staged)
    (fun c => c.checked) (fun c _ _ _ e => by cases Option.some.inj e; exact hv c) rfl h))

theorem verifyDone_keeps {n b q : Bool} (f : VerifyFacts) (bank : Bank) (s : State) : Keeps n b q s (verifyDone f bank s) := by
  unfold verifyDone
  split
  · exact Keeps.refl ..
  · rename_i v hv
    have h : Keeps n b q s { s with upd := { s.upd with verifying := none } } :=
      Keeps.updates _ rfl (fun k => k.staged) (fun _ _ e => nomatch e) (fun _ k => k.ready) rfl (Keeps.refl n b q s)
    have w : s.Canonical → v.target.bytes.wf = true := fun k => k.checked v hv
    dsimp only
    split
    · split
      · exact Keeps.of (answerVerify_frame ..) (by decide) h
      · exact bankVerified_keeps v (bank.read v.target.bytes) w h
    · split
      · exact Keeps.of (answerVerify_frame ..) (by decide) h
      · exact imageVerified_keeps v w h

theorem execUpdVerifyDone_keeps {ν β κ : Bool} (f : VerifyFacts) (bank : Bank) (s : State) :
    Kept ν β κ s (execUpdVerifyDone f bank s) := by
  unfold execUpdVerifyDone
  with_reducible repeat' first
    | apply Kept.next
    | assumption
    | exact rfl
    | decide
    | apply Keeps.refl
    | apply Keeps.via (verifyDone_keeps ..)
    | apply Keeps.ite
    | split
    | dsimp only

theorem execUpdCommit_keeps {ν β κ : Bool} (r : Req) (flags : Byte) (s : State) :
    Kept ν β κ s (execUpdCommit r flags s) := by
  unfold execUpdCommit
  with_reducible repeat' first
    | apply Kept.next
    | assumption
    | exact rfl
    | decide
    | apply Keeps.refl
    | apply Keeps.via (commitBody_keeps ..)
    | apply runCmd_keeps
    | apply Keeps.ite
    | intro _
    | split
    | dsimp only

theorem execUpdAbort_keeps {ν β κ : Bool} (r : Req) (s : State) :
    Kept ν β κ s (execUpdAbort r s) := by
  unfold execUpdAbort
  with_reducible repeat' first
    | apply Kept.next
    | assumption
    | exact rfl
    | decide
    | apply Keeps.refl
    | apply runCmd_keeps
    | apply Keeps.via (updAbortBody_keeps ..)
    | apply Keeps.ite
    | intro _
    | split
    | dsimp only

theorem execUpdRestart_keeps {ν β κ : Bool} (r : Req) (s : State) :
    Kept ν β κ s (execUpdRestart r s) := by
  unfold execUpdRestart
  with_reducible repeat' first
    | apply Kept.next
    | assumption
    | exact rfl
    | decide
    | apply Keeps.refl
    | apply Keeps.via (answerRestart_keeps ..)
    | apply runLater_keeps
    | apply Keeps.ite
    | intro _
    | split
    | dsimp only

theorem waiverBody_keeps {ν β κ : Bool} (allowance : Nat) (digest : List Byte) (sigOk : Bool) (s : State) :
    Keeps ν β κ s (waiverBody allowance digest sigOk s).1 := by
  unfold waiverBody
  with_reducible repeat' first
    | assumption
    | exact rfl
    | decide
    | apply Keeps.refl
    | apply Keeps.via (countRefused_keeps ..)
    | apply Keeps.ite
    | apply Keeps.ite1
    | split
    | apply Keeps.set_upd
    | dsimp only

theorem execUpdWaiver_keeps {ν β κ : Bool} (r : Req) (allowance : Byte) (digest : List Byte) (sigOk : Bool) (s : State) :
    Kept ν β κ s (execUpdWaiver r allowance digest sigOk s) := by
  unfold execUpdWaiver
  with_reducible repeat' first
    | apply Kept.next
    | assumption
    | exact rfl
    | decide
    | apply Keeps.refl
    | apply runCmd_keeps
    | apply Keeps.via (waiverBody_keeps ..)
    | apply Keeps.ite
    | intro _
    | split
    | dsimp only

theorem execUpdTargetTimeout_keeps {ν β κ : Bool} (s : State) :
    Kept ν β κ s (execUpdTargetTimeout s) := by
  unfold execUpdTargetTimeout
  with_reducible repeat' first
    | apply Kept.next
    | assumption
    | exact rfl
    | decide
    | apply Keeps.refl
    | apply Keeps.via (updDiscardOpen_keeps ..)
    | apply Keeps.ite
    | split
    | dsimp only

end Sys2Proof.Machine

end
end

