-- ==== Sys2Proof/Laws/Keeps/Uds.lean ====
section
/-! SUPPORT. What each function of `Machine/Uds.lean` keeps. -/

section

set_option Elab.async false

namespace Sys2Proof.Machine

theorem udsServe_keeps {n b q : Bool} {s0 s : State} (sid : Byte) (f : State → State × UdsAnswer)
    (h : Keeps n b q s0 s) (hf : Keeps n b q s0 (f s).1) : Keeps n b q s0 (udsServe sid f s) := by
  unfold udsServe
  split
  · exact h
  · split
    · exact Keeps.of (State.modUds_frame ..) rfl h
    · exact Keeps.of (State.modUds_frame ..) rfl hf

theorem needP_keeps {n b q : Bool} {s0 s : State} {y : State × UdsAnswer} (h : Keeps n b q s0 s) (hy : Keeps n b q s0 y.1) :
    Keeps n b q s0 (needP s y).1 := by
  unfold needP
  split <;> assumption

theorem needS_keeps {n b q : Bool} {s0 s : State} {y : State × UdsAnswer} (h : Keeps n b q s0 s) (hy : Keeps n b q s0 y.1) :
    Keeps n b q s0 (needS s y).1 := by
  unfold needS
  split <;> assumption

theorem execUdsEcuReset_keeps {ν β κ : Bool} (sub : Byte) (s : State) :
    Kept ν β κ s (execUdsEcuReset sub s) := by
  unfold execUdsEcuReset
  with_reducible repeat' first
    | apply Kept.next
    | assumption
    | exact rfl
    | decide
    | apply Keeps.refl
    | (lift_lets; intro x; apply Keeps.cut x ?_ (fun _ => ?_); subst x; rotate_left; clear_value x; rotate_right)
    | (lift_lets; intro x; apply Keeps.cut x.1 ?_ (fun _ => ?_); subst x; rotate_left; clear_value x; rotate_right)
    | (lift_lets; intro x; subst x)
    | apply Keeps.via (clearLoop_keeps ..)
    | apply needS_keeps
    | apply Keeps.via (restartCause_keeps ..)
    | apply udsServe_keeps
    | apply Keeps.ite
    | intro _
    | split
    | dsimp only

theorem execUdsS3Timeout_keeps {ν β κ : Bool} (s : State) :
    Kept ν β κ s (execUdsS3Timeout s) := by
  unfold execUdsS3Timeout
  with_reducible repeat' first
    | apply Kept.next
    | assumption
    | exact rfl
    | decide
    | apply Keeps.refl
    | apply Keeps.of (State.modUds_frame ..)
    | apply Keeps.via (updDiscardOpen_keeps ..)
    | apply Keeps.ite
    | split
    | dsimp only

theorem udsSeed_keeps {ν β κ : Bool} (s : State) :
    Keeps ν β κ s (udsSeed s).1 := by
  unfold udsSeed
  with_reducible repeat' first
    | assumption
    | exact rfl
    | decide
    | apply Keeps.refl
    | (lift_lets; intro x; apply Keeps.cut x ?_ (fun _ => ?_); subst x; rotate_left; clear_value x; rotate_right)
    | (lift_lets; intro x; apply Keeps.cut x.1 ?_ (fun _ => ?_); subst x; rotate_left; clear_value x; rotate_right)
    | (lift_lets; intro x; subst x)
    | apply Keeps.of (State.modUds_frame ..)
    | apply Keeps.via (issueNonce_keeps ..)
    | apply needP_keeps
    | apply Keeps.ite
    | apply Keeps.ite1
    | intro _
    | split
    | dsimp only

theorem execUdsRequestSeed_keeps {ν β κ : Bool} (s : State) :
    Kept ν β κ s (execUdsRequestSeed s) := by
  unfold execUdsRequestSeed
  with_reducible repeat' first
    | apply Kept.next
    | assumption
    | exact rfl
    | decide
    | apply Keeps.refl
    | apply Keeps.via (udsSeed_keeps ..)
    | apply udsServe_keeps
    | apply Keeps.ite
    | intro _
    | split
    | dsimp only

theorem udsKey_keeps {ν β κ : Bool} (sigOk : Bool) (s : State) :
    Keeps ν β κ s (udsKey sigOk s).1 := by
  unfold udsKey
  with_reducible repeat' first
    | assumption
    | exact rfl
    | decide
    | apply Keeps.refl
    | (lift_lets; intro x; apply Keeps.cut x ?_ (fun _ => ?_); subst x; rotate_left; clear_value x; rotate_right)
    | (lift_lets; intro x; apply Keeps.cut x.1 ?_ (fun _ => ?_); subst x; rotate_left; clear_value x; rotate_right)
    | (lift_lets; intro x; subst x)
    | apply Keeps.of (State.modUds_frame ..)
    | apply needP_keeps
    | apply Keeps.via (useNonce_keeps ..)
    | apply Keeps.of (wrongKey_frame ..)
    | apply Keeps.ite
    | apply Keeps.ite1
    | intro _
    | split
    | dsimp only

theorem execUdsSendKey_keeps {ν β κ : Bool} (sigOk : Bool) (s : State) :
    Kept ν β κ s (execUdsSendKey sigOk s) := by
  unfold execUdsSendKey
  with_reducible repeat' first
    | apply Kept.next
    | assumption
    | exact rfl
    | decide
    | apply Keeps.refl
    | apply Keeps.via (udsKey_keeps ..)
    | apply udsServe_keeps
    | apply Keeps.ite
    | intro _
    | split
    | dsimp only

theorem udsDownload_keeps {ν β κ : Bool} (format lenFormat : Byte) (target total : U32) (s : State) :
    Keeps ν β κ s (udsDownload format lenFormat target total s).1 := by
  unfold udsDownload
  with_reducible repeat' first
    | assumption
    | exact rfl
    | decide
    | apply Keeps.refl
    | (lift_lets; intro x; apply Keeps.cut x ?_ (fun _ => ?_); subst x; rotate_left; clear_value x; rotate_right)
    | (lift_lets; intro x; apply Keeps.cut x.1 ?_ (fun _ => ?_); subst x; rotate_left; clear_value x; rotate_right)
    | (lift_lets; intro x; subst x)
    | apply Keeps.of (State.modUds_frame ..)
    | apply needS_keeps
    | apply Keeps.via (updOpen_keeps ..)
    | apply Keeps.ite
    | apply Keeps.ite1
    | intro _
    | split
    | dsimp only

theorem execUdsRequestDownload_keeps {ν β κ : Bool} (format lenFormat : Byte) (target total : U32) (s : State) :
    Kept ν β κ s (execUdsRequestDownload format lenFormat target total s) := by
  unfold execUdsRequestDownload
  with_reducible repeat' first
    | apply Kept.next
    | assumption
    | exact rfl
    | decide
    | apply Keeps.refl
    | apply Keeps.via (udsDownload_keeps ..)
    | apply udsServe_keeps
    | apply Keeps.ite
    | intro _
    | split
    | dsimp only

theorem udsTransfer_keeps {ν β κ : Bool} (counter : Byte) (data : List Byte) (s : State) :
    Keeps ν β κ s (udsTransfer counter data s).1 := by
  unfold udsTransfer
  with_reducible repeat' first
    | assumption
    | exact rfl
    | decide
    | apply Keeps.refl
    | (lift_lets; intro x; apply Keeps.cut x ?_ (fun _ => ?_); subst x; rotate_left; clear_value x; rotate_right)
    | (lift_lets; intro x; apply Keeps.cut x.1 ?_ (fun _ => ?_); subst x; rotate_left; clear_value x; rotate_right)
    | (lift_lets; intro x; subst x)
    | apply Keeps.of (State.modUds_frame ..)
    | apply needS_keeps
    | apply Keeps.via (updFill_keeps ..)
    | apply Keeps.ite
    | apply Keeps.ite1
    | intro _
    | split
    | dsimp only

theorem execUdsTransferData_keeps {ν β κ : Bool} (counter : Byte) (data : List Byte) (s : State) :
    Kept ν β κ s (execUdsTransferData counter data s) := by
  unfold execUdsTransferData
  with_reducible repeat' first
    | apply Kept.next
    | assumption
    | exact rfl
    | decide
    | apply Keeps.refl
    | apply udsServe_keeps
    | apply Keeps.via (udsTransfer_keeps ..)
    | apply Keeps.ite
    | intro _
    | split
    | dsimp only

theorem udsExit_keeps {ν β κ : Bool} (s : State) :
    Keeps ν β κ s (udsExit s).1 := by
  unfold udsExit
  with_reducible repeat' first
    | assumption
    | exact rfl
    | decide
    | apply Keeps.refl
    | apply needS_keeps
    | apply Keeps.via (updStartVerify_keeps ..)
    | apply Keeps.ite
    | apply Keeps.ite1
    | intro _
    | split
    | dsimp only

theorem execUdsRequestTransferExit_keeps {ν β κ : Bool} (s : State) :
    Kept ν β κ s (execUdsRequestTransferExit s) := by
  unfold execUdsRequestTransferExit
  with_reducible repeat' first
    | apply Kept.next
    | assumption
    | exact rfl
    | decide
    | apply Keeps.refl
    | apply Keeps.via (udsExit_keeps ..)
    | apply udsServe_keeps
    | apply Keeps.ite
    | intro _
    | split
    | dsimp only

theorem checked_keeps {n b q : Bool} {s0 s : State} (st : Option U16) (y : State × Reply) (h : Keeps n b q s0 s) (hy : Keeps n b q s0 y.1) :
    Keeps n b q s0 (checked st y s).1 := by
  unfold checked
  split <;> assumption

theorem udsRestart_keeps {ν β κ : Bool} (trigger : Nat) (s : State) :
    Keeps ν β κ s (udsRestart trigger s).1 := by
  unfold udsRestart
  with_reducible repeat' first
    | assumption
    | exact rfl
    | decide
    | apply Keeps.refl
    | apply Keeps.via (clearLoop_keeps ..)
    | apply Keeps.via (restartCause_keeps ..)
    | apply Keeps.ite
    | apply Keeps.ite1
    | split
    | dsimp only

theorem udsGyvin_keeps {ν β : Bool} (g : UdsGyvin) (s : State) :
    Keeps ν β false s (udsGyvin g s).1 := by
  unfold udsGyvin
  with_reducible repeat' first
    | assumption
    | exact rfl
    | (unfold State.draw; exact rfl)
    | decide
    | apply Keeps.refl
    | (lift_lets; intro x; apply Keeps.cut x ?_ (fun _ => ?_); subst x; rotate_left; clear_value x; rotate_right)
    | (lift_lets; intro x; apply Keeps.cut x.1 ?_ (fun _ => ?_); subst x; rotate_left; clear_value x; rotate_right)
    | (lift_lets; intro x; subst x)
    | apply Keeps.of (State.draw_frame ..)
    | apply checked_keeps
    | apply Keeps.via (commitBody_keeps ..)
    | apply Keeps.via (eraseBody_keeps ..)
    | apply Keeps.via (getModeBody_keeps ..)
    | apply Keeps.of (identityBody_frame ..)
    | apply Keeps.via (provisionBody_keeps ..)
    | apply Keeps.of (randomBody_frame ..)
    | apply Keeps.of (slotStatusBody_frame ..)
    | apply Keeps.via (udsRestart_keeps ..)
    | apply Keeps.via (updAbortBody_keeps ..)
    | apply Keeps.via (updFill_keeps ..)
    | apply Keeps.via (updOpen_keeps ..)
    | apply Keeps.via (updStartVerify_keeps ..)
    | apply Keeps.via (useNonce_keeps ..)
    | apply Keeps.ite
    | apply Keeps.ite1
    | intro _
    | split
    | dsimp only

theorem udsRoutine_keeps {ν β : Bool} (sub : Byte) (id : U16) (g : Option UdsGyvin) (s : State) :
    Keeps ν β false s (udsRoutine sub id g s).1 := by
  unfold udsRoutine
  with_reducible repeat' first
    | dsimp only
    | assumption
    | exact rfl
    | decide
    | apply Keeps.refl
    | apply Keeps.via (commitBody_keeps ..)
    | apply needS_keeps
    | apply Keeps.via (udsGyvin_keeps ..)
    | apply Keeps.via (updAbortBody_keeps ..)
    | apply Keeps.ite
    | apply Keeps.ite1
    | intro _
    | split
    | dsimp only

theorem execUdsRoutineControl_keeps {ν β : Bool} (sub : Byte) (id : U16) (gyvin : Option UdsGyvin) (s : State) :
    Kept ν β false s (execUdsRoutineControl sub id gyvin s) := by
  unfold execUdsRoutineControl
  with_reducible repeat' first
    | apply Kept.next
    | assumption
    | exact rfl
    | decide
    | apply Keeps.refl
    | apply Keeps.via (udsRoutine_keeps ..)
    | apply udsServe_keeps
    | apply Keeps.ite
    | intro _
    | split
    | dsimp only

end Sys2Proof.Machine

end
end

