-- ==== Sys2Proof/Laws/Keeps/Window.lean ====
section
/-! SUPPORT. What each function of `Machine/Window.lean` keeps. -/

section

set_option Elab.async false

namespace Sys2Proof.Machine

theorem csrWrite_keeps {ν β κ : Bool} (p csr : Nat) (w : U32) (s : State) :
    Keeps ν β κ s (csrWrite p csr w s) := by
  unfold csrWrite
  with_reducible repeat' first
    | assumption
    | exact rfl
    | decide
    | apply Keeps.refl
    | exact fun _ h => h
    | (unfold Pair.modPart; assumption)
    | exact fun _ h => memWrite_wf _ _ _ h
    | exact fun _ h => memWrite32_wf _ _ _ h
    | exact fun _ h => h.copies _ _
    | apply State.modPair_keeps
    | apply Keeps.via (ckptGo_keeps ..)
    | apply Keeps.ite
    | intro _
    | split
    | dsimp only

theorem tcmWrite_keeps {ν β κ : Bool} (p k : Nat) (w : U32) (s : State) :
    Keeps ν β κ s (tcmWrite p k w s) := by
  unfold tcmWrite
  with_reducible repeat' first
    | assumption
    | exact rfl
    | decide
    | apply Keeps.refl
    | exact fun _ h => h
    | (unfold Pair.modPart; assumption)
    | exact fun _ h => memWrite_wf _ _ _ h
    | exact fun _ h => memWrite32_wf _ _ _ h
    | exact fun _ h => h.copies _ _
    | apply State.modPair_keeps
    | apply Keeps.ite
    | intro _
    | split
    | dsimp only

theorem registerWrite_keeps {ν β κ : Bool} (t : RegTarget) (w : U32) (s : State) :
    Keeps ν β κ s (registerWrite t w s) := by
  unfold registerWrite
  with_reducible repeat' first
    | assumption
    | exact rfl
    | decide
    | apply Keeps.refl
    | apply Keeps.of (canEntryWrite_frame ..)
    | apply Keeps.of (canXlWrite_frame ..)
    | apply Keeps.via (csrWrite_keeps ..)
    | apply Keeps.of (linFrameWrite_frame ..)
    | apply Keeps.of (linRxWrite_frame ..)
    | apply Keeps.via (tcmWrite_keeps ..)
    | apply Keeps.of (winWrite_frame ..)
    | apply Keeps.ite
    | split
    | dsimp only

theorem execRegisterWrite_keeps {ν β κ : Bool} (target : RegTarget) (value : U32) (s : State) :
    Kept ν β κ s (execRegisterWrite target value s) := by
  unfold execRegisterWrite
  with_reducible repeat' first
    | apply Kept.next
    | assumption
    | exact rfl
    | decide
    | apply Keeps.refl
    | apply Keeps.via (registerWrite_keeps ..)
    | apply Keeps.ite
    | split
    | dsimp only

end Sys2Proof.Machine

end
end

