-- ==== Sys2Proof/Laws/Commands.lean ====
section
/-! SUPPORT. What every command keeps, but for the release from reset and, where slots are meant, the commands that act on key slots. -/

section

set_option Elab.async false

namespace Sys2Proof.Machine

theorem exec_kept (c : Instr) (s : State) (h : ∀ f, c ≠ .resetRelease f) : Kept true true false s (exec c s) := by
  cases c with
  | logicSupplyValid => exact execLogicSupplyValid_keeps _
  | resetRelease f => exact absurd rfl (h f)
  | rootPllLock => exact execRootPllLock_keeps _
  | pllLockTimeout => exact execPllLockTimeout_keeps _
  | powerDieTableAck => exact execPowerDieTableAck_keeps _ _
  | pdlAckTimeout => exact Kept.of (execPdlAckTimeout_frame _ _) (by decide)
  | pdlAckRetry => exact Kept.of (execPdlAckRetry_frame _ _) (by decide)
  | vinClassCheck => exact execVinClassCheck_keeps _ _
  | pairInjectionTestDone => exact execPairInjectionTestDone_keeps _ _ _
  | ddrTrainingDone => exact execDdrTrainingDone_keeps _
  | forcedBasecampCheck => exact execForcedBasecampCheck_keeps _
  | workshopInactivityTimeout => exact execWorkshopInactivityTimeout_keeps _
  | autoSleep => exact execAutoSleep_keeps _
  | wakeNAssert => exact execWakeNAssert_keeps _
  | powerLoss => exact execPowerLoss_keeps _
  | logicFeedLow => exact execLogicFeedLow_keeps _
  | logicFeedFail => exact execLogicFeedFail_keeps _
  | clockMonitorTrip => exact execClockMonitorTrip_keeps _
  | runServiceLoss => exact execRunServiceLoss_keeps _ _
  | managerWatchdog => exact execManagerWatchdog_keeps _
  | safetyClusterServing => exact execSafetyClusterServing_keeps _
  | bivouacEntryDone => exact execBivouacEntryDone_keeps _
  | portTc10Wake => exact execPortTc10Wake_keeps _ _
  | activationMsBoundary => exact execActivationMsBoundary_keeps _
  | sysEnterWorkshop => exact execSysEnterWorkshop_keeps _ _ _ _
  | sysLeaveWorkshop => exact execSysLeaveWorkshop_keeps _ _
  | sysSleep => exact execSysSleep_keeps _ _
  | sysRestart => exact execSysRestart_keeps _ _ _ _
  | sysEnterBasecamp => exact execSysEnterBasecamp_keeps _ _
  | sysGetMode => exact execSysGetMode_keeps _ _
  | sysChallenge => exact execSysChallenge_keeps _ _
  | cfgBegin => exact execCfgBegin_keeps _ _ _
  | cfgWrite => exact execCfgWrite_keeps _ _ _ _
  | cfgCommit => exact execCfgCommit_keeps _ _ _
  | cfgActivate => exact execCfgActivate_keeps _ _
  | cfgStatus => exact Kept.of (execCfgStatus_frame _ _) (by decide)
  | cfgAbort => exact execCfgAbort_keeps _ _
  | cfgGetSection => exact Kept.of (execCfgGetSection_frame _ _ _ _ _) (by decide)
  | cfgSessionTimeout => exact execCfgSessionTimeout_keeps _
  | baseplateHot => exact execBaseplateHot_keeps _ _
  | baseplateOvertemp => exact execBaseplateOvertemp_keeps _ _
  | baseplateCooled => exact execBaseplateCooled_keeps _ _
  | logicDieOvertemp => exact execLogicDieOvertemp_keeps _ _
  | logicDieCooled => exact execLogicDieCooled_keeps _
  | mbxFragmentReceived => exact Kept.of (execMbxFragmentReceived_frame _ _ _) (by decide)
  | mbxReassemblyTimeout => exact Kept.of (execMbxReassemblyTimeout_frame _ _) (by decide)
  | vzfMbxReqProd => exact Kept.of (execVzfMbxReqProd_frame _ _ _ _ _ _) (by decide)
  | mbxConsumerIndexWrite => exact Kept.of (execMbxConsumerIndexWrite_frame _ _ _ _ _) (by decide)
  | hostControlAck => exact Kept.of (execHostControlAck_frame _ _ _ _) (by decide)
  | unknownCommand => exact Kept.of (execUnknownCommand_frame _ _ _) (by decide)
  | mbxAckTimer => exact Kept.of (execMbxAckTimer_frame _ _) (by decide)
  | epochRepeat => exact Kept.of (execEpochRepeat_frame _ _) (by decide)
  | mbxRetransmit => exact Kept.of (execMbxRetransmit_frame _ _ _ _) (by decide)
  | sysResync => exact Kept.of (execSysResync_frame _ _) (by decide)
  | sysReplay => exact Kept.of (execSysReplay_frame _ _ _ _) (by decide)
  | sysSubscribe => exact Kept.of (execSysSubscribe_frame _ _ _ _) (by decide)
  | sysPing => exact Kept.of (execSysPing_frame _ _ _) (by decide)
  | sysGetInfo => exact Kept.of (execSysGetInfo_frame _ _) (by decide)
  | sysPortStats => exact Kept.of (execSysPortStats_frame _ _) (by decide)
  | sysSetRate => exact Kept.of (execSysSetRate_frame _ _ _ _ _) (by decide)
  | windowUnmappedAccess => exact Kept.of (execWindowUnmappedAccess_frame _ _ _) (by decide)
  | registerWrite => exact execRegisterWrite_keeps _ _ _
  | lswCmdWrite => exact Kept.of (execLswCmdWrite_frame _ _ _ _) (by decide)
  | hbrCmdWrite => exact Kept.of (execHbrCmdWrite_frame _ _ _ _) (by decide)
  | vlvCmdWrite => exact Kept.of (execVlvCmdWrite_frame _ _ _ _) (by decide)
  | lswChStampLoRead => exact Kept.of (execLswChStampLoRead_frame _ _ _) (by decide)
  | lswChPeakRead => exact Kept.of (execLswChPeakRead_frame _ _ _) (by decide)
  | chSet => exact Kept.of (execChSet_frame _ _ _ _ _ _ _) (by decide)
  | chGetStatus => exact Kept.of (execChGetStatus_frame _ _ _) (by decide)
  | chSetProfile => exact Kept.of (execChSetProfile_frame _ _ _ _) (by decide)
  | chGetProfile => exact Kept.of (execChGetProfile_frame _ _ _) (by decide)
  | chUnlock => exact Kept.of (execChUnlock_frame _ _ _ _) (by decide)
  | chClearFault => exact Kept.of (execChClearFault_frame _ _ _) (by decide)
  | chSetHold => exact Kept.of (execChSetHold_frame _ _ _ _ _) (by decide)
  | chSetKeepalive => exact Kept.of (execChSetKeepalive_frame _ _ _) (by decide)
  | chSnsSelect => exact Kept.of (execChSnsSelect_frame _ _ _) (by decide)
  | chTest => exact Kept.of (execChTest_frame _ _ _ _ _) (by decide)
  | chTestEnd => exact Kept.of (execChTestEnd_frame _ _ _ _) (by decide)
  | chGetLedger => exact Kept.of (execChGetLedger_frame _ _ _) (by decide)
  | chHbConfig => exact Kept.of (execChHbConfig_frame _ _ _ _) (by decide)
  | chHbDrive => exact Kept.of (execChHbDrive_frame _ _ _ _ _ _ _ _ _) (by decide)
  | chHbPosition => exact Kept.of (execChHbPosition_frame _ _ _ _ _) (by decide)
  | chVlvConfig => exact Kept.of (execChVlvConfig_frame _ _ _ _ _ _ _) (by decide)
  | chVlvSet => exact Kept.of (execChVlvSet_frame _ _ _ _ _ _) (by decide)
  | chVlvStatus => exact Kept.of (execChVlvStatus_frame _ _ _) (by decide)
  | powerDieLinkFrame => exact execPowerDieLinkFrame_keeps _ _ _
  | linkSilenceHold => exact Kept.of (execLinkSilenceHold_frame _ _) (by decide)
  | holdTimeout => exact Kept.of (execHoldTimeout_frame _ _) (by decide)
  | shortCircuitTrip => exact Kept.of (execShortCircuitTrip_frame _ _ _) (by decide)
  | limitTimeout => exact Kept.of (execLimitTimeout_frame _ _) (by decide)
  | inrushWindowEnd => exact Kept.of (execInrushWindowEnd_frame _ _ _) (by decide)
  | wireModelStep => exact Kept.of (execWireModelStep_frame _ _ _) (by decide)
  | junctionOvertemp => exact Kept.of (execJunctionOvertemp_frame _ _ _) (by decide)
  | openLoadOn => exact Kept.of (execOpenLoadOn_frame _ _) (by decide)
  | offStateTest => exact Kept.of (execOffStateTest_frame _ _ _ _) (by decide)
  | arcWindow => exact Kept.of (execArcWindow_frame _ _ _ _) (by decide)
  | retryDelayExpiry => exact Kept.of (execRetryDelayExpiry_frame _ _) (by decide)
  | retryCountReset => exact Kept.of (execRetryCountReset_frame _ _) (by decide)
  | freewheelCheckEnd => exact Kept.of (execFreewheelCheckEnd_frame _ _ _ _) (by decide)
  | statusWordUpdate => exact execStatusWordUpdate_keeps _ _ _
  | pwmPeriodStart => exact Kept.of (execPwmPeriodStart_frame _ _ _) (by decide)
  | groupLoadCheck => exact Kept.of (execGroupLoadCheck_frame _) (by decide)
  | loadShedStep => exact Kept.of (execLoadShedStep_frame _) (by decide)
  | orphanTimeout => exact Kept.of (execOrphanTimeout_frame _ _) (by decide)
  | reversalBrakeEnd => exact Kept.of (execReversalBrakeEnd_frame _ _) (by decide)
  | stallDetect => exact Kept.of (execStallDetect_frame _ _) (by decide)
  | rippleCount => exact Kept.of (execRippleCount_frame _ _ _) (by decide)
  | runonEnd => exact Kept.of (execRunonEnd_frame _ _) (by decide)
  | uncountedMotion => exact Kept.of (execUncountedMotion_frame _ _) (by decide)
  | valveRegulationPeriod => exact Kept.of (execValveRegulationPeriod_frame _ _ _) (by decide)
  | complianceSet => exact Kept.of (execComplianceSet_frame _ _ _) (by decide)
  | complianceClear => exact Kept.of (execComplianceClear_frame _ _) (by decide)
  | groupSupplyLoss => exact Kept.of (execGroupSupplyLoss_frame _ _ _) (by decide)
  | groupSupplyReturn => exact Kept.of (execGroupSupplyReturn_frame _ _ _) (by decide)
  | moduleGroundLoss => exact Kept.of (execModuleGroundLoss_frame _) (by decide)
  | junctionCooled => exact Kept.of (execJunctionCooled_frame _ _ _) (by decide)
  | junctionHotWarning => exact Kept.of (execJunctionHotWarning_frame _ _) (by decide)
  | bridgeStart => exact execBridgeStart_keeps _ _
  | vinLossDetected => exact execVinLossDetected_keeps _ _ _
  | handoverAbandon => exact execHandoverAbandon_keeps _
  | commitPoint => exact execCommitPoint_keeps _ _
  | vinValidInBoost => exact execVinValidInBoost_keeps _
  | vinInvalidInQualify => exact execVinInvalidInQualify_keeps _
  | qualifyTimeout => exact execQualifyTimeout_keeps _
  | handbackRampComplete => exact execHandbackRampComplete_keeps _
  | vbk12Low => exact execVbk12Low_keeps _
  | boostOverload => exact execBoostOverload_keeps _ _ _
  | shedRestore => exact execShedRestore_keeps _
  | vz12GroupRelease => exact execVz12GroupRelease_keeps _
  | phaseOvercurrentLatch => exact execPhaseOvercurrentLatch_keeps _ _
  | bridgeDieHot => exact Kept.of (execBridgeDieHot_frame _ _) (by decide)
  | bridgeDieOvertemp => exact execBridgeDieOvertemp_keeps _ _
  | bridgeDieCooled => exact Kept.of (execBridgeDieCooled_frame _ _) (by decide)
  | vz12Undervoltage => exact Kept.of (execVz12Undervoltage_frame _ _) (by decide)
  | vz12Retry => exact Kept.of (execVz12Retry_frame _ _) (by decide)
  | bridgeControlStop => exact execBridgeControlStop_keeps _
  | vinWindowEntry => exact Kept.of (execVinWindowEntry_frame _ _ _) (by decide)
  | brgGetStatus => exact Kept.of (execBrgGetStatus_frame _ _ _) (by decide)
  | brgSetTarget => exact Kept.of (execBrgSetTarget_frame _ _ _) (by decide)
  | brgSetLimits => exact execBrgSetLimits_keeps _ _ _
  | brgRelease => exact execBrgRelease_keeps _ _
  | brgSetShed => exact Kept.of (execBrgSetShed_frame _ _ _ _) (by decide)
  | brgTestHandover => exact execBrgTestHandover_keeps _ _ _ _ _
  | handoverTestEnd => exact execHandoverTestEnd_keeps _ _ _ _
  | diSample => exact execDiSample_keeps _ _ _
  | fioDiStampLoRead => exact Kept.of (execFioDiStampLoRead_frame _ _) (by decide)
  | aiSample => exact execAiSample_keeps _ _ _
  | cyclicSenseSample => exact execCyclicSenseSample_keeps _ _ _
  | sensorSupplyFault => exact execSensorSupplyFault_keeps _ _ _
  | sensorSupplyRetry => exact execSensorSupplyRetry_keeps _ _ _
  | barrierDownlinkFrame => exact Kept.of (execBarrierDownlinkFrame_frame _) (by decide)
  | barrierDownlinkReceived => exact Kept.of (execBarrierDownlinkReceived_frame _ _) (by decide)
  | barrierUplinkFrame => exact execBarrierUplinkFrame_keeps _ _
  | xLinkTimeout => exact Kept.of (execXLinkTimeout_frame _) (by decide)
  | xUplinkLost => exact execXUplinkLost_keeps _
  | xOverload => exact Kept.of (execXOverload_frame _ _) (by decide)
  | xOverloadRetry => exact Kept.of (execXOverloadRetry_frame _ _ _) (by decide)
  | xOpenWire => exact Kept.of (execXOpenWire_frame _ _) (by decide)
  | xOvertemp => exact Kept.of (execXOvertemp_frame _ _) (by decide)
  | xvfLow => exact Kept.of (execXvfLow_frame _) (by decide)
  | xvfFail => exact Kept.of (execXvfFail_frame _) (by decide)
  | xvfRecover => exact Kept.of (execXvfRecover_frame _) (by decide)
  | fioXCmdValWrite => exact Kept.of (execFioXCmdValWrite_frame _ _ _) (by decide)
  | fioXBankRead => exact Kept.of (execFioXBankRead_frame _ _) (by decide)
  | fioDiConfig => exact execFioDiConfig_keeps _ _ _ _
  | fioDiRead => exact Kept.of (execFioDiRead_frame _ _) (by decide)
  | fioAiConfig => exact execFioAiConfig_keeps _ _ _ _ _ _
  | fioAiRead => exact Kept.of (execFioAiRead_frame _ _ _ _) (by decide)
  | fioSupSet => exact execFioSupSet_keeps _ _ _ _
  | fioCyclicSense => exact Kept.of (execFioCyclicSense_frame _ _ _ _ _) (by decide)
  | fioXConfig => exact Kept.of (execFioXConfig_frame _ _ _ _ _ _) (by decide)
  | fioXSet => exact Kept.of (execFioXSet_frame _ _ _ _) (by decide)
  | fioXRead => exact Kept.of (execFioXRead_frame _ _) (by decide)
  | fioXSafe => exact Kept.of (execFioXSafe_frame _ _ _ _) (by decide)
  | xvfLowEnd => exact Kept.of (execXvfLowEnd_frame _) (by decide)
  | xOvertempEnd => exact Kept.of (execXOvertempEnd_frame _ _) (by decide)
  | xOpenWireEnd => exact Kept.of (execXOpenWireEnd_frame _ _) (by decide)
  | safeNAssert => exact execSafeNAssert_keeps _
  | safeNRelease => exact execSafeNRelease_keeps _
  | ruleTableCheck => exact execRuleTableCheck_keeps _ _ _
  | ruleTableEccError => exact execRuleTableEccError_keeps _ _
  | rfxLoadRule => exact execRfxLoadRule_keeps _ _ _ _
  | rfxEnable => exact execRfxEnable_keeps _ _ _ _
  | rfxDisable => exact execRfxDisable_keeps _ _ _ _
  | rfxGetRule => exact Kept.of (execRfxGetRule_frame _ _ _) (by decide)
  | rfxStats => exact Kept.of (execRfxStats_frame _ _ _ _) (by decide)
  | rfxSelfArrest => exact execRfxSelfArrest_keeps _ _ _
  | rfxSafeNFilter => exact execRfxSafeNFilter_keeps _ _ _ _
  | edgeWindowEnd => exact execEdgeWindowEnd_keeps _ _ _
  | limpTableTimer => exact execLimpTableTimer_keeps _
  | localCycleStart => exact execLocalCycleStart_keeps _
  | syncRefReceived => exact execSyncRefReceived_keeps _ _ _ _ _ _
  | syncRefMissing => exact execSyncRefMissing_keeps _
  | masterHandover => exact Kept.of (execMasterHandover_frame _) (by decide)
  | staticFrameReceived => exact execStaticFrameReceived_keeps _ _ _ _
  | slotDue => exact Kept.of (execSlotDue_frame _ _) (by decide)
  | dynamicFrameReceived => exact execDynamicFrameReceived_keeps _ _ _ _
  | relayQueueTimeout => exact Kept.of (execRelayQueueTimeout_frame _) (by decide)
  | secondaryFrameReceived => exact Kept.of (execSecondaryFrameReceived_frame _ _ _ _ _) (by decide)
  | delayMeasRequest => exact Kept.of (execDelayMeasRequest_frame _ _ _ _) (by decide)
  | delayMeasResponse => exact Kept.of (execDelayMeasResponse_frame _ _ _ _ _) (by decide)
  | ringLinkDown => exact Kept.of (execRingLinkDown_frame _ _) (by decide)
  | ringPhyTrained => exact Kept.of (execRingPhyTrained_frame _ _) (by decide)
  | mkaFrame => exact Kept.of (execMkaFrame_frame _ _ _ _) (by decide)
  | ringMacsecTimeout => exact Kept.of (execRingMacsecTimeout_frame _ _) (by decide)
  | linkClose => exact Kept.of (execLinkClose_frame _ _) (by decide)
  | ringSleep => exact execRingSleep_keeps _
  | ringTc10Wake => exact execRingTc10Wake_keeps _ _
  | sigSlotFreeze => exact Kept.of (execSigSlotFreeze_frame _ _) (by decide)
  | ringGetStatus => exact Kept.of (execRingGetStatus_frame _ _) (by decide)
  | ringTopology => exact Kept.of (execRingTopology_frame _ _) (by decide)
  | ringSlotAge => exact Kept.of (execRingSlotAge_frame _ _ _ _) (by decide)
  | ringDelays => exact Kept.of (execRingDelays_frame _ _) (by decide)
  | ringSleepConsent => exact Kept.of (execRingSleepConsent_frame _ _ _) (by decide)
  | ringStats => exact Kept.of (execRingStats_frame _ _ _) (by decide)
  | frameIngress => exact Kept.of (execFrameIngress_frame _ _ _ _ _ _) (by decide)
  | losslessTimeout => exact Kept.of (execLosslessTimeout_frame _ _ _) (by decide)
  | frameEgress => exact Kept.of (execFrameEgress_frame _ _) (by decide)
  | potFullEpisodeEnd => exact Kept.of (execPotFullEpisodeEnd_frame _ _) (by decide)
  | cellAudit => exact Kept.of (execCellAudit_frame _ _ _ _) (by decide)
  | leakCompareDone => exact Kept.of (execLeakCompareDone_frame _) (by decide)
  | cellEccError => exact Kept.of (execCellEccError_frame _ _ _) (by decide)
  | gateListEntry => exact Kept.of (execGateListEntry_frame _ _ _) (by decide)
  | fdbAgeing => exact Kept.of (execFdbAgeing_frame _ _ _) (by decide)
  | eswLinkChange => exact Kept.of (execEswLinkChange_frame _ _ _) (by decide)
  | portMacsecTimeout => exact Kept.of (execPortMacsecTimeout_frame _ _) (by decide)
  | plcaBeaconTimeout => exact Kept.of (execPlcaBeaconTimeout_frame _ _) (by decide)
  | plcaBeaconReturn => exact Kept.of (execPlcaBeaconReturn_frame _ _) (by decide)
  | latentErrorTest => exact Kept.of (execLatentErrorTest_frame _ _ _) (by decide)
  | cellScrubbed => exact Kept.of (execCellScrubbed_frame _ _) (by decide)
  | eswTxqProdWrite => exact Kept.of (execEswTxqProdWrite_frame _ _ _ _ _ _) (by decide)
  | eswRxqConsWrite => exact Kept.of (execEswRxqConsWrite_frame _ _ _ _) (by decide)
  | eswPortStatus => exact Kept.of (execEswPortStatus_frame _ _ _) (by decide)
  | eswVlanSet => exact Kept.of (execEswVlanSet_frame _ _ _ _ _) (by decide)
  | eswFdbAdd => exact Kept.of (execEswFdbAdd_frame _ _ _) (by decide)
  | eswFdbDel => exact Kept.of (execEswFdbDel_frame _ _ _ _) (by decide)
  | eswPotConfig => exact Kept.of (execEswPotConfig_frame _ _ _) (by decide)
  | eswPotStatus => exact Kept.of (execEswPotStatus_frame _ _ _) (by decide)
  | eswShaperSet => exact Kept.of (execEswShaperSet_frame _ _ _ _ _ _) (by decide)
  | eswGateSet => exact Kept.of (execEswGateSet_frame _ _ _) (by decide)
  | eswStreamFilter => exact Kept.of (execEswStreamFilter_frame _ _ _) (by decide)
  | eswFrerSet => exact Kept.of (execEswFrerSet_frame _ _ _) (by decide)
  | eswPlcaSet => exact Kept.of (execEswPlcaSet_frame _ _ _) (by decide)
  | eswAudit => exact Kept.of (execEswAudit_frame _ _ _ _ _ _ _ _) (by decide)
  | eswStats => exact Kept.of (execEswStats_frame _ _ _) (by decide)
  | canFrameReceived => exact Kept.of (execCanFrameReceived_frame _ _ _ _ _) (by decide)
  | canSofCommit => exact Kept.of (execCanSofCommit_frame _ _) (by decide)
  | canTxComplete => exact Kept.of (execCanTxComplete_frame _ _ _ _) (by decide)
  | canIntegrationDone => exact Kept.of (execCanIntegrationDone_frame _ _) (by decide)
  | canRecoveryDone => exact Kept.of (execCanRecoveryDone_frame _ _) (by decide)
  | canRxOverrunEnd => exact Kept.of (execCanRxOverrunEnd_frame _ _) (by decide)
  | canTxBellWrite => exact Kept.of (execCanTxBellWrite_frame _ _ _) (by decide)
  | canTxCancelWrite => exact Kept.of (execCanTxCancelWrite_frame _ _ _ _) (by decide)
  | canEntryCtlWrite => exact Kept.of (execCanEntryCtlWrite_frame _ _ _ _ _) (by decide)
  | canRxLostRead => exact Kept.of (execCanRxLostRead_frame _ _ _) (by decide)
  | tmReferenceSend => exact execTmReferenceSend_keeps _ _
  | tmReferenceReceived => exact execTmReferenceReceived_keeps _ _ _ _ _
  | tmReferenceMissing => exact Kept.of (execTmReferenceMissing_frame _ _) (by decide)
  | canLowPowerFrame => exact execCanLowPowerFrame_keeps _ _ _ _
  | canWakeConfirmTimeout => exact Kept.of (execCanWakeConfirmTimeout_frame _ _) (by decide)
  | canConfig => exact Kept.of (execCanConfig_frame _ _ _ _) (by decide)
  | canStart => exact Kept.of (execCanStart_frame _ _ _) (by decide)
  | canStop => exact Kept.of (execCanStop_frame _ _ _) (by decide)
  | canRecover => exact Kept.of (execCanRecover_frame _ _ _) (by decide)
  | canSetFilter => exact Kept.of (execCanSetFilter_frame _ _ _ _ _ _ _) (by decide)
  | canSetSieve => exact Kept.of (execCanSetSieve_frame _ _ _ _ _ _ _ _) (by decide)
  | canCancel => exact Kept.of (execCanCancel_frame _ _ _ _) (by decide)
  | canTimeMaster => exact Kept.of (execCanTimeMaster_frame _ _ _ _ _ _ _ _ _) (by decide)
  | canGetStatus => exact Kept.of (execCanGetStatus_frame _ _ _) (by decide)
  | canStats => exact Kept.of (execCanStats_frame _ _ _ _) (by decide)
  | nmMessageReceived => exact Kept.of (execNmMessageReceived_frame _ _ _ _ _) (by decide)
  | nmTokenPass => exact Kept.of (execNmTokenPass_frame _ _) (by decide)
  | nmFormingTimeout => exact Kept.of (execNmFormingTimeout_frame _ _) (by decide)
  | nmHopTimeout => exact Kept.of (execNmHopTimeout_frame _ _) (by decide)
  | nmTokenLost => exact Kept.of (execNmTokenLost_frame _ _) (by decide)
  | nmSleepTimer => exact Kept.of (execNmSleepTimer_frame _ _) (by decide)
  | nmTmaxExpiry => exact Kept.of (execNmTmaxExpiry_frame _ _) (by decide)
  | nmConfig => exact Kept.of (execNmConfig_frame _ _ _ _) (by decide)
  | nmRequestAwake => exact Kept.of (execNmRequestAwake_frame _ _ _) (by decide)
  | nmRelease => exact Kept.of (execNmRelease_frame _ _ _) (by decide)
  | nmSetTmax => exact Kept.of (execNmSetTmax_frame _ _ _ _) (by decide)
  | nmGetStatus => exact Kept.of (execNmGetStatus_frame _ _ _) (by decide)
  | linSlotStart => exact Kept.of (execLinSlotStart_frame _ _) (by decide)
  | linFrameEnd => exact Kept.of (execLinFrameEnd_frame _ _ _ _) (by decide)
  | linWakeScheduleStart => exact Kept.of (execLinWakeScheduleStart_frame _ _) (by decide)
  | linResponderWake => exact Kept.of (execLinResponderWake_frame _ _) (by decide)
  | linBusFault => exact Kept.of (execLinBusFault_frame _ _) (by decide)
  | linBusFaultEnd => exact Kept.of (execLinBusFaultEnd_frame _ _) (by decide)
  | linRxLostRead => exact Kept.of (execLinRxLostRead_frame _ _ _) (by decide)
  | linConfig => exact Kept.of (execLinConfig_frame _ _ _ _) (by decide)
  | linLoadSchedule => exact Kept.of (execLinLoadSchedule_frame _ _ _ _ _ _) (by decide)
  | linSelectSchedule => exact Kept.of (execLinSelectSchedule_frame _ _ _ _) (by decide)
  | linWake => exact Kept.of (execLinWake_frame _ _ _) (by decide)
  | linSleep => exact Kept.of (execLinSleep_frame _ _ _) (by decide)
  | linDiag => exact Kept.of (execLinDiag_frame _ _ _ _ _) (by decide)
  | linDiagDone => exact Kept.of (execLinDiagDone_frame _ _) (by decide)
  | linGetStatus => exact Kept.of (execLinGetStatus_frame _ _ _) (by decide)
  | linRxOverrunEnd => exact Kept.of (execLinRxOverrunEnd_frame _ _) (by decide)
  | sourcePduUpdate => exact execSourcePduUpdate_keeps _ _ _
  | pduTimeout => exact execPduTimeout_keeps _ _
  | signalCyclicWrite => exact execSignalCyclicWrite_keeps _ _
  | signalDeferredWrite => exact execSignalDeferredWrite_keeps _ _
  | pduCyclicSend => exact Kept.of (execPduCyclicSend_frame _ _) (by decide)
  | i3RecordFrame => exact Kept.of (execI3RecordFrame_frame _ _ _) (by decide)
  | sigTableEcc => exact execSigTableEcc_keeps _ _ _
  | sigWrLoWrite => exact Kept.of (execSigWrLoWrite_frame _ _ _ _) (by decide)
  | sigRdLoRead => exact Kept.of (execSigRdLoRead_frame _ _ _) (by decide)
  | prsBlock => exact Kept.of (execPrsBlock_frame _ _ _ _) (by decide)
  | prsCaptureComplete => exact Kept.of (execPrsCaptureComplete_frame _ _) (by decide)
  | sigLoad => exact Kept.of (execSigLoad_frame _ _ _ _ _ _) (by decide)
  | sigRead => exact Kept.of (execSigRead_frame _ _ _ _) (by decide)
  | sigWrite => exact Kept.of (execSigWrite_frame _ _ _ _ _) (by decide)
  | sigGetStatus => exact Kept.of (execSigGetStatus_frame _ _ _ _) (by decide)
  | sigPrsConfig => exact Kept.of (execSigPrsConfig_frame _ _ _) (by decide)
  | sigPrsStart => exact Kept.of (execSigPrsStart_frame _ _ _) (by decide)
  | sigPrsStop => exact Kept.of (execSigPrsStop_frame _ _ _) (by decide)
  | sigCapture => exact Kept.of (execSigCapture_frame _ _ _ _ _ _) (by decide)
  | viewChangeApply => exact execViewChangeApply_keeps _ _
  | captureEvent => exact execCaptureEvent_keeps _ _ _
  | triggerFire => exact execTriggerFire_keeps _ _
  | rtcAlarmExpiry => exact execRtcAlarmExpiry_keeps _
  | timeRead => exact Kept.of (execTimeRead_frame _ _ _) (by decide)
  | timeAdjust => exact execTimeAdjust_keeps _ _ _
  | timeViewAlloc => exact execTimeViewAlloc_keeps _ _ _ _ _
  | timeCaptureConfig => exact execTimeCaptureConfig_keeps _ _ _ _ _ _
  | timeTriggerConfig => exact execTimeTriggerConfig_keeps _ _ _
  | timeRtcAlarm => exact execTimeRtcAlarm_keeps _ _ _ _
  | vzfCreate => exact execVzfCreate_keeps _ _ _ _ _
  | vzfDestroy => exact Kept.of (execVzfDestroy_frame _ _ _) (by decide)
  | vzfReset => exact Kept.of (execVzfReset_frame _ _ _) (by decide)
  | vzfResetDrainEnd => exact execVzfResetDrainEnd_keeps _ _
  | vzfQos => exact Kept.of (execVzfQos_frame _ _ _ _) (by decide)
  | vzfGetInfo => exact Kept.of (execVzfGetInfo_frame _ _ _) (by decide)
  | vzfList => exact Kept.of (execVzfList_frame _ _) (by decide)
  | dramZeroComplete => exact Kept.of (execDramZeroComplete_frame _ _) (by decide)
  | interruptBudgetRefill => exact Kept.of (execInterruptBudgetRefill_frame _) (by decide)
  | vectorHoldoffExpiry => exact Kept.of (execVectorHoldoffExpiry_frame _ _ _) (by decide)
  | lockstepMismatch => exact execLockstepMismatch_keeps _ _ _
  | pairLbistDecision => exact execPairLbistDecision_keeps _ _ _ _
  | pairMigration => exact execPairMigration_keeps _
  | trapStacking => exact execTrapStacking_keeps _ _ _ _ _ _ _
  | mretUnstack => exact execMretUnstack_keeps _ _ _ _
  | safCkptGoWrite => exact execSafCkptGoWrite_keeps _ _ _
  | checkpointComplete => exact execCheckpointComplete_keeps _ _ _
  | trngHealthFail => exact execTrngHealthFail_keeps _
  | keyProvision => exact execKeyProvision_keeps _ _ _
  | keySlotStatus => exact Kept.of (execKeySlotStatus_frame _ _ _ _) (by decide)
  | keyEraseSlot => exact execKeyEraseSlot_keeps _ _ _ _ _
  | keyAttest => exact Kept.of (execKeyAttest_frame _ _ _ _) (by decide)
  | keyRandom => exact Kept.of (execKeyRandom_frame _ _ _) (by decide)
  | keyGetIdentity => exact Kept.of (execKeyGetIdentity_frame _ _) (by decide)
  | updBegin => exact execUpdBegin_keeps _ _ _ _
  | updWrite => exact execUpdWrite_keeps _ _ _ _
  | updVerify => exact execUpdVerify_keeps _ _
  | updVerifyDone => exact execUpdVerifyDone_keeps _ _ _
  | updCommit => exact execUpdCommit_keeps _ _ _
  | updAbort => exact execUpdAbort_keeps _ _
  | updStatus => exact Kept.of (execUpdStatus_frame _ _) (by decide)
  | updRestart => exact execUpdRestart_keeps _ _
  | updWaiver => exact execUpdWaiver_keeps _ _ _ _ _
  | updTargetTimeout => exact execUpdTargetTimeout_keeps _
  | udsSessionControl => exact Kept.of (execUdsSessionControl_frame _ _) (by decide)
  | udsEcuReset => exact execUdsEcuReset_keeps _ _
  | udsReadDataById => exact Kept.of (execUdsReadDataById_frame _ _) (by decide)
  | udsRequestSeed => exact execUdsRequestSeed_keeps _
  | udsSendKey => exact execUdsSendKey_keeps _ _
  | udsSecurityLockoutEnd => exact Kept.of (execUdsSecurityLockoutEnd_frame _) (by decide)
  | udsRoutineControl => exact execUdsRoutineControl_keeps _ _ _ _
  | udsRequestDownload => exact execUdsRequestDownload_keeps _ _ _ _ _
  | udsTransferData => exact execUdsTransferData_keeps _ _ _
  | udsRequestTransferExit => exact execUdsRequestTransferExit_keeps _
  | udsTesterPresent => exact Kept.of (execUdsTesterPresent_frame _ _) (by decide)
  | udsS3Timeout => exact execUdsS3Timeout_keeps _
  | basecampPortIdle => exact Kept.of (execBasecampPortIdle_frame _) (by decide)
  | belayFrameSend => exact Kept.of (execBelayFrameSend_frame _) (by decide)
  | belayEncoderTimeout => exact Kept.of (execBelayEncoderTimeout_frame _) (by decide)
  | belayFrameDecoded => exact execBelayFrameDecoded_keeps _ _
  | belayPartnerLost => exact execBelayPartnerLost_keeps _
  | twinGateDelay => exact Kept.of (execTwinGateDelay_frame _ _) (by decide)
  | twinGraceExpiry => exact Kept.of (execTwinGraceExpiry_frame _) (by decide)
  | healthReport => exact Kept.of (execHealthReport_frame _ _ _) (by decide)
  | standbySelftest => exact Kept.of (execStandbySelftest_frame _ _ _ _) (by decide)
  | twinStatus => exact Kept.of (execTwinStatus_frame _ _) (by decide)
  | twinHealth => exact Kept.of (execTwinHealth_frame _ _ _) (by decide)
  | twinBelayTest => exact Kept.of (execTwinBelayTest_frame _ _ _) (by decide)
  | belayTestDone => exact Kept.of (execBelayTestDone_frame _) (by decide)
  | logRead => exact Kept.of (execLogRead_frame _ _ _ _ _) (by decide)
  | logArchive => exact Kept.of (execLogArchive_frame _ _ _) (by decide)
  | logStatus => exact Kept.of (execLogStatus_frame _ _ _) (by decide)
  | logReadStones => exact Kept.of (execLogReadStones_frame _ _) (by decide)
  | logClearStones => exact Kept.of (execLogClearStones_frame _ _) (by decide)
  | stoneCopyDone => exact Kept.of (execStoneCopyDone_frame _ _) (by decide)
  | logSramEcc => exact Kept.of (execLogSramEcc_frame _) (by decide)
  | nandLogWriteFail => exact Kept.of (execNandLogWriteFail_frame _) (by decide)

theorem exec_keptSlots (c : Instr) (s : State) (h : ∀ f, c ≠ .resetRelease f) (lock : c ≠ .rootPllLock) (late : c ≠ .pllLockTimeout)
    (forced : c ≠ .forcedBasecampCheck) (provision : ∀ r f, c ≠ .keyProvision r f)
    (erase : ∀ r n k g, c ≠ .keyEraseSlot r n k g) (routine : ∀ a b g, c ≠ .udsRoutineControl a b g) :
    Kept true true true s (exec c s) := by
  cases c with
  | logicSupplyValid => exact execLogicSupplyValid_keeps _
  | resetRelease f => exact absurd rfl (h f)
  | rootPllLock => exact absurd rfl lock
  | pllLockTimeout => exact absurd rfl late
  | powerDieTableAck => exact execPowerDieTableAck_keeps _ _
  | pdlAckTimeout => exact Kept.of (execPdlAckTimeout_frame _ _) (by decide)
  | pdlAckRetry => exact Kept.of (execPdlAckRetry_frame _ _) (by decide)
  | vinClassCheck => exact execVinClassCheck_keeps _ _
  | pairInjectionTestDone => exact execPairInjectionTestDone_keeps _ _ _
  | ddrTrainingDone => exact execDdrTrainingDone_keeps _
  | forcedBasecampCheck => exact absurd rfl forced
  | workshopInactivityTimeout => exact execWorkshopInactivityTimeout_keeps _
  | autoSleep => exact execAutoSleep_keeps _
  | wakeNAssert => exact execWakeNAssert_keeps _
  | powerLoss => exact execPowerLoss_keeps _
  | logicFeedLow => exact execLogicFeedLow_keeps _
  | logicFeedFail => exact execLogicFeedFail_keeps _
  | clockMonitorTrip => exact execClockMonitorTrip_keeps _
  | runServiceLoss => exact execRunServiceLoss_keeps _ _
  | managerWatchdog => exact execManagerWatchdog_keeps _
  | safetyClusterServing => exact execSafetyClusterServing_keeps _
  | bivouacEntryDone => exact execBivouacEntryDone_keeps _
  | portTc10Wake => exact execPortTc10Wake_keeps _ _
  | activationMsBoundary => exact execActivationMsBoundary_keeps _
  | sysEnterWorkshop => exact execSysEnterWorkshop_keeps _ _ _ _
  | sysLeaveWorkshop => exact execSysLeaveWorkshop_keeps _ _
  | sysSleep => exact execSysSleep_keeps _ _
  | sysRestart => exact execSysRestart_keeps _ _ _ _
  | sysEnterBasecamp => exact execSysEnterBasecamp_keeps _ _
  | sysGetMode => exact execSysGetMode_keeps _ _
  | sysChallenge => exact execSysChallenge_keeps _ _
  | cfgBegin => exact execCfgBegin_keeps _ _ _
  | cfgWrite => exact execCfgWrite_keeps _ _ _ _
  | cfgCommit => exact execCfgCommit_keeps _ _ _
  | cfgActivate => exact execCfgActivate_keeps _ _
  | cfgStatus => exact Kept.of (execCfgStatus_frame _ _) (by decide)
  | cfgAbort => exact execCfgAbort_keeps _ _
  | cfgGetSection => exact Kept.of (execCfgGetSection_frame _ _ _ _ _) (by decide)
  | cfgSessionTimeout => exact execCfgSessionTimeout_keeps _
  | baseplateHot => exact execBaseplateHot_keeps _ _
  | baseplateOvertemp => exact execBaseplateOvertemp_keeps _ _
  | baseplateCooled => exact execBaseplateCooled_keeps _ _
  | logicDieOvertemp => exact execLogicDieOvertemp_keeps _ _
  | logicDieCooled => exact execLogicDieCooled_keeps _
  | mbxFragmentReceived => exact Kept.of (execMbxFragmentReceived_frame _ _ _) (by decide)
  | mbxReassemblyTimeout => exact Kept.of (execMbxReassemblyTimeout_frame _ _) (by decide)
  | vzfMbxReqProd => exact Kept.of (execVzfMbxReqProd_frame _ _ _ _ _ _) (by decide)
  | mbxConsumerIndexWrite => exact Kept.of (execMbxConsumerIndexWrite_frame _ _ _ _ _) (by decide)
  | hostControlAck => exact Kept.of (execHostControlAck_frame _ _ _ _) (by decide)
  | unknownCommand => exact Kept.of (execUnknownCommand_frame _ _ _) (by decide)
  | mbxAckTimer => exact Kept.of (execMbxAckTimer_frame _ _) (by decide)
  | epochRepeat => exact Kept.of (execEpochRepeat_frame _ _) (by decide)
  | mbxRetransmit => exact Kept.of (execMbxRetransmit_frame _ _ _ _) (by decide)
  | sysResync => exact Kept.of (execSysResync_frame _ _) (by decide)
  | sysReplay => exact Kept.of (execSysReplay_frame _ _ _ _) (by decide)
  | sysSubscribe => exact Kept.of (execSysSubscribe_frame _ _ _ _) (by decide)
  | sysPing => exact Kept.of (execSysPing_frame _ _ _) (by decide)
  | sysGetInfo => exact Kept.of (execSysGetInfo_frame _ _) (by decide)
  | sysPortStats => exact Kept.of (execSysPortStats_frame _ _) (by decide)
  | sysSetRate => exact Kept.of (execSysSetRate_frame _ _ _ _ _) (by decide)
  | windowUnmappedAccess => exact Kept.of (execWindowUnmappedAccess_frame _ _ _) (by decide)
  | registerWrite => exact execRegisterWrite_keeps _ _ _
  | lswCmdWrite => exact Kept.of (execLswCmdWrite_frame _ _ _ _) (by decide)
  | hbrCmdWrite => exact Kept.of (execHbrCmdWrite_frame _ _ _ _) (by decide)
  | vlvCmdWrite => exact Kept.of (execVlvCmdWrite_frame _ _ _ _) (by decide)
  | lswChStampLoRead => exact Kept.of (execLswChStampLoRead_frame _ _ _) (by decide)
  | lswChPeakRead => exact Kept.of (execLswChPeakRead_frame _ _ _) (by decide)
  | chSet => exact Kept.of (execChSet_frame _ _ _ _ _ _ _) (by decide)
  | chGetStatus => exact Kept.of (execChGetStatus_frame _ _ _) (by decide)
  | chSetProfile => exact Kept.of (execChSetProfile_frame _ _ _ _) (by decide)
  | chGetProfile => exact Kept.of (execChGetProfile_frame _ _ _) (by decide)
  | chUnlock => exact Kept.of (execChUnlock_frame _ _ _ _) (by decide)
  | chClearFault => exact Kept.of (execChClearFault_frame _ _ _) (by decide)
  | chSetHold => exact Kept.of (execChSetHold_frame _ _ _ _ _) (by decide)
  | chSetKeepalive => exact Kept.of (execChSetKeepalive_frame _ _ _) (by decide)
  | chSnsSelect => exact Kept.of (execChSnsSelect_frame _ _ _) (by decide)
  | chTest => exact Kept.of (execChTest_frame _ _ _ _ _) (by decide)
  | chTestEnd => exact Kept.of (execChTestEnd_frame _ _ _ _) (by decide)
  | chGetLedger => exact Kept.of (execChGetLedger_frame _ _ _) (by decide)
  | chHbConfig => exact Kept.of (execChHbConfig_frame _ _ _ _) (by decide)
  | chHbDrive => exact Kept.of (execChHbDrive_frame _ _ _ _ _ _ _ _ _) (by decide)
  | chHbPosition => exact Kept.of (execChHbPosition_frame _ _ _ _ _) (by decide)
  | chVlvConfig => exact Kept.of (execChVlvConfig_frame _ _ _ _ _ _ _) (by decide)
  | chVlvSet => exact Kept.of (execChVlvSet_frame _ _ _ _ _ _) (by decide)
  | chVlvStatus => exact Kept.of (execChVlvStatus_frame _ _ _) (by decide)
  | powerDieLinkFrame => exact execPowerDieLinkFrame_keeps _ _ _
  | linkSilenceHold => exact Kept.of (execLinkSilenceHold_frame _ _) (by decide)
  | holdTimeout => exact Kept.of (execHoldTimeout_frame _ _) (by decide)
  | shortCircuitTrip => exact Kept.of (execShortCircuitTrip_frame _ _ _) (by decide)
  | limitTimeout => exact Kept.of (execLimitTimeout_frame _ _) (by decide)
  | inrushWindowEnd => exact Kept.of (execInrushWindowEnd_frame _ _ _) (by decide)
  | wireModelStep => exact Kept.of (execWireModelStep_frame _ _ _) (by decide)
  | junctionOvertemp => exact Kept.of (execJunctionOvertemp_frame _ _ _) (by decide)
  | openLoadOn => exact Kept.of (execOpenLoadOn_frame _ _) (by decide)
  | offStateTest => exact Kept.of (execOffStateTest_frame _ _ _ _) (by decide)
  | arcWindow => exact Kept.of (execArcWindow_frame _ _ _ _) (by decide)
  | retryDelayExpiry => exact Kept.of (execRetryDelayExpiry_frame _ _) (by decide)
  | retryCountReset => exact Kept.of (execRetryCountReset_frame _ _) (by decide)
  | freewheelCheckEnd => exact Kept.of (execFreewheelCheckEnd_frame _ _ _ _) (by decide)
  | statusWordUpdate => exact execStatusWordUpdate_keeps _ _ _
  | pwmPeriodStart => exact Kept.of (execPwmPeriodStart_frame _ _ _) (by decide)
  | groupLoadCheck => exact Kept.of (execGroupLoadCheck_frame _) (by decide)
  | loadShedStep => exact Kept.of (execLoadShedStep_frame _) (by decide)
  | orphanTimeout => exact Kept.of (execOrphanTimeout_frame _ _) (by decide)
  | reversalBrakeEnd => exact Kept.of (execReversalBrakeEnd_frame _ _) (by decide)
  | stallDetect => exact Kept.of (execStallDetect_frame _ _) (by decide)
  | rippleCount => exact Kept.of (execRippleCount_frame _ _ _) (by decide)
  | runonEnd => exact Kept.of (execRunonEnd_frame _ _) (by decide)
  | uncountedMotion => exact Kept.of (execUncountedMotion_frame _ _) (by decide)
  | valveRegulationPeriod => exact Kept.of (execValveRegulationPeriod_frame _ _ _) (by decide)
  | complianceSet => exact Kept.of (execComplianceSet_frame _ _ _) (by decide)
  | complianceClear => exact Kept.of (execComplianceClear_frame _ _) (by decide)
  | groupSupplyLoss => exact Kept.of (execGroupSupplyLoss_frame _ _ _) (by decide)
  | groupSupplyReturn => exact Kept.of (execGroupSupplyReturn_frame _ _ _) (by decide)
  | moduleGroundLoss => exact Kept.of (execModuleGroundLoss_frame _) (by decide)
  | junctionCooled => exact Kept.of (execJunctionCooled_frame _ _ _) (by decide)
  | junctionHotWarning => exact Kept.of (execJunctionHotWarning_frame _ _) (by decide)
  | bridgeStart => exact execBridgeStart_keeps _ _
  | vinLossDetected => exact execVinLossDetected_keeps _ _ _
  | handoverAbandon => exact execHandoverAbandon_keeps _
  | commitPoint => exact execCommitPoint_keeps _ _
  | vinValidInBoost => exact execVinValidInBoost_keeps _
  | vinInvalidInQualify => exact execVinInvalidInQualify_keeps _
  | qualifyTimeout => exact execQualifyTimeout_keeps _
  | handbackRampComplete => exact execHandbackRampComplete_keeps _
  | vbk12Low => exact execVbk12Low_keeps _
  | boostOverload => exact execBoostOverload_keeps _ _ _
  | shedRestore => exact execShedRestore_keeps _
  | vz12GroupRelease => exact execVz12GroupRelease_keeps _
  | phaseOvercurrentLatch => exact execPhaseOvercurrentLatch_keeps _ _
  | bridgeDieHot => exact Kept.of (execBridgeDieHot_frame _ _) (by decide)
  | bridgeDieOvertemp => exact execBridgeDieOvertemp_keeps _ _
  | bridgeDieCooled => exact Kept.of (execBridgeDieCooled_frame _ _) (by decide)
  | vz12Undervoltage => exact Kept.of (execVz12Undervoltage_frame _ _) (by decide)
  | vz12Retry => exact Kept.of (execVz12Retry_frame _ _) (by decide)
  | bridgeControlStop => exact execBridgeControlStop_keeps _
  | vinWindowEntry => exact Kept.of (execVinWindowEntry_frame _ _ _) (by decide)
  | brgGetStatus => exact Kept.of (execBrgGetStatus_frame _ _ _) (by decide)
  | brgSetTarget => exact Kept.of (execBrgSetTarget_frame _ _ _) (by decide)
  | brgSetLimits => exact execBrgSetLimits_keeps _ _ _
  | brgRelease => exact execBrgRelease_keeps _ _
  | brgSetShed => exact Kept.of (execBrgSetShed_frame _ _ _ _) (by decide)
  | brgTestHandover => exact execBrgTestHandover_keeps _ _ _ _ _
  | handoverTestEnd => exact execHandoverTestEnd_keeps _ _ _ _
  | diSample => exact execDiSample_keeps _ _ _
  | fioDiStampLoRead => exact Kept.of (execFioDiStampLoRead_frame _ _) (by decide)
  | aiSample => exact execAiSample_keeps _ _ _
  | cyclicSenseSample => exact execCyclicSenseSample_keeps _ _ _
  | sensorSupplyFault => exact execSensorSupplyFault_keeps _ _ _
  | sensorSupplyRetry => exact execSensorSupplyRetry_keeps _ _ _
  | barrierDownlinkFrame => exact Kept.of (execBarrierDownlinkFrame_frame _) (by decide)
  | barrierDownlinkReceived => exact Kept.of (execBarrierDownlinkReceived_frame _ _) (by decide)
  | barrierUplinkFrame => exact execBarrierUplinkFrame_keeps _ _
  | xLinkTimeout => exact Kept.of (execXLinkTimeout_frame _) (by decide)
  | xUplinkLost => exact execXUplinkLost_keeps _
  | xOverload => exact Kept.of (execXOverload_frame _ _) (by decide)
  | xOverloadRetry => exact Kept.of (execXOverloadRetry_frame _ _ _) (by decide)
  | xOpenWire => exact Kept.of (execXOpenWire_frame _ _) (by decide)
  | xOvertemp => exact Kept.of (execXOvertemp_frame _ _) (by decide)
  | xvfLow => exact Kept.of (execXvfLow_frame _) (by decide)
  | xvfFail => exact Kept.of (execXvfFail_frame _) (by decide)
  | xvfRecover => exact Kept.of (execXvfRecover_frame _) (by decide)
  | fioXCmdValWrite => exact Kept.of (execFioXCmdValWrite_frame _ _ _) (by decide)
  | fioXBankRead => exact Kept.of (execFioXBankRead_frame _ _) (by decide)
  | fioDiConfig => exact execFioDiConfig_keeps _ _ _ _
  | fioDiRead => exact Kept.of (execFioDiRead_frame _ _) (by decide)
  | fioAiConfig => exact execFioAiConfig_keeps _ _ _ _ _ _
  | fioAiRead => exact Kept.of (execFioAiRead_frame _ _ _ _) (by decide)
  | fioSupSet => exact execFioSupSet_keeps _ _ _ _
  | fioCyclicSense => exact Kept.of (execFioCyclicSense_frame _ _ _ _ _) (by decide)
  | fioXConfig => exact Kept.of (execFioXConfig_frame _ _ _ _ _ _) (by decide)
  | fioXSet => exact Kept.of (execFioXSet_frame _ _ _ _) (by decide)
  | fioXRead => exact Kept.of (execFioXRead_frame _ _) (by decide)
  | fioXSafe => exact Kept.of (execFioXSafe_frame _ _ _ _) (by decide)
  | xvfLowEnd => exact Kept.of (execXvfLowEnd_frame _) (by decide)
  | xOvertempEnd => exact Kept.of (execXOvertempEnd_frame _ _) (by decide)
  | xOpenWireEnd => exact Kept.of (execXOpenWireEnd_frame _ _) (by decide)
  | safeNAssert => exact execSafeNAssert_keeps _
  | safeNRelease => exact execSafeNRelease_keeps _
  | ruleTableCheck => exact execRuleTableCheck_keeps _ _ _
  | ruleTableEccError => exact execRuleTableEccError_keeps _ _
  | rfxLoadRule => exact execRfxLoadRule_keeps _ _ _ _
  | rfxEnable => exact execRfxEnable_keeps _ _ _ _
  | rfxDisable => exact execRfxDisable_keeps _ _ _ _
  | rfxGetRule => exact Kept.of (execRfxGetRule_frame _ _ _) (by decide)
  | rfxStats => exact Kept.of (execRfxStats_frame _ _ _ _) (by decide)
  | rfxSelfArrest => exact execRfxSelfArrest_keeps _ _ _
  | rfxSafeNFilter => exact execRfxSafeNFilter_keeps _ _ _ _
  | edgeWindowEnd => exact execEdgeWindowEnd_keeps _ _ _
  | limpTableTimer => exact execLimpTableTimer_keeps _
  | localCycleStart => exact execLocalCycleStart_keeps _
  | syncRefReceived => exact execSyncRefReceived_keeps _ _ _ _ _ _
  | syncRefMissing => exact execSyncRefMissing_keeps _
  | masterHandover => exact Kept.of (execMasterHandover_frame _) (by decide)
  | staticFrameReceived => exact execStaticFrameReceived_keeps _ _ _ _
  | slotDue => exact Kept.of (execSlotDue_frame _ _) (by decide)
  | dynamicFrameReceived => exact execDynamicFrameReceived_keeps _ _ _ _
  | relayQueueTimeout => exact Kept.of (execRelayQueueTimeout_frame _) (by decide)
  | secondaryFrameReceived => exact Kept.of (execSecondaryFrameReceived_frame _ _ _ _ _) (by decide)
  | delayMeasRequest => exact Kept.of (execDelayMeasRequest_frame _ _ _ _) (by decide)
  | delayMeasResponse => exact Kept.of (execDelayMeasResponse_frame _ _ _ _ _) (by decide)
  | ringLinkDown => exact Kept.of (execRingLinkDown_frame _ _) (by decide)
  | ringPhyTrained => exact Kept.of (execRingPhyTrained_frame _ _) (by decide)
  | mkaFrame => exact Kept.of (execMkaFrame_frame _ _ _ _) (by decide)
  | ringMacsecTimeout => exact Kept.of (execRingMacsecTimeout_frame _ _) (by decide)
  | linkClose => exact Kept.of (execLinkClose_frame _ _) (by decide)
  | ringSleep => exact execRingSleep_keeps _
  | ringTc10Wake => exact execRingTc10Wake_keeps _ _
  | sigSlotFreeze => exact Kept.of (execSigSlotFreeze_frame _ _) (by decide)
  | ringGetStatus => exact Kept.of (execRingGetStatus_frame _ _) (by decide)
  | ringTopology => exact Kept.of (execRingTopology_frame _ _) (by decide)
  | ringSlotAge => exact Kept.of (execRingSlotAge_frame _ _ _ _) (by decide)
  | ringDelays => exact Kept.of (execRingDelays_frame _ _) (by decide)
  | ringSleepConsent => exact Kept.of (execRingSleepConsent_frame _ _ _) (by decide)
  | ringStats => exact Kept.of (execRingStats_frame _ _ _) (by decide)
  | frameIngress => exact Kept.of (execFrameIngress_frame _ _ _ _ _ _) (by decide)
  | losslessTimeout => exact Kept.of (execLosslessTimeout_frame _ _ _) (by decide)
  | frameEgress => exact Kept.of (execFrameEgress_frame _ _) (by decide)
  | potFullEpisodeEnd => exact Kept.of (execPotFullEpisodeEnd_frame _ _) (by decide)
  | cellAudit => exact Kept.of (execCellAudit_frame _ _ _ _) (by decide)
  | leakCompareDone => exact Kept.of (execLeakCompareDone_frame _) (by decide)
  | cellEccError => exact Kept.of (execCellEccError_frame _ _ _) (by decide)
  | gateListEntry => exact Kept.of (execGateListEntry_frame _ _ _) (by decide)
  | fdbAgeing => exact Kept.of (execFdbAgeing_frame _ _ _) (by decide)
  | eswLinkChange => exact Kept.of (execEswLinkChange_frame _ _ _) (by decide)
  | portMacsecTimeout => exact Kept.of (execPortMacsecTimeout_frame _ _) (by decide)
  | plcaBeaconTimeout => exact Kept.of (execPlcaBeaconTimeout_frame _ _) (by decide)
  | plcaBeaconReturn => exact Kept.of (execPlcaBeaconReturn_frame _ _) (by decide)
  | latentErrorTest => exact Kept.of (execLatentErrorTest_frame _ _ _) (by decide)
  | cellScrubbed => exact Kept.of (execCellScrubbed_frame _ _) (by decide)
  | eswTxqProdWrite => exact Kept.of (execEswTxqProdWrite_frame _ _ _ _ _ _) (by decide)
  | eswRxqConsWrite => exact Kept.of (execEswRxqConsWrite_frame _ _ _ _) (by decide)
  | eswPortStatus => exact Kept.of (execEswPortStatus_frame _ _ _) (by decide)
  | eswVlanSet => exact Kept.of (execEswVlanSet_frame _ _ _ _ _) (by decide)
  | eswFdbAdd => exact Kept.of (execEswFdbAdd_frame _ _ _) (by decide)
  | eswFdbDel => exact Kept.of (execEswFdbDel_frame _ _ _ _) (by decide)
  | eswPotConfig => exact Kept.of (execEswPotConfig_frame _ _ _) (by decide)
  | eswPotStatus => exact Kept.of (execEswPotStatus_frame _ _ _) (by decide)
  | eswShaperSet => exact Kept.of (execEswShaperSet_frame _ _ _ _ _ _) (by decide)
  | eswGateSet => exact Kept.of (execEswGateSet_frame _ _ _) (by decide)
  | eswStreamFilter => exact Kept.of (execEswStreamFilter_frame _ _ _) (by decide)
  | eswFrerSet => exact Kept.of (execEswFrerSet_frame _ _ _) (by decide)
  | eswPlcaSet => exact Kept.of (execEswPlcaSet_frame _ _ _) (by decide)
  | eswAudit => exact Kept.of (execEswAudit_frame _ _ _ _ _ _ _ _) (by decide)
  | eswStats => exact Kept.of (execEswStats_frame _ _ _) (by decide)
  | canFrameReceived => exact Kept.of (execCanFrameReceived_frame _ _ _ _ _) (by decide)
  | canSofCommit => exact Kept.of (execCanSofCommit_frame _ _) (by decide)
  | canTxComplete => exact Kept.of (execCanTxComplete_frame _ _ _ _) (by decide)
  | canIntegrationDone => exact Kept.of (execCanIntegrationDone_frame _ _) (by decide)
  | canRecoveryDone => exact Kept.of (execCanRecoveryDone_frame _ _) (by decide)
  | canRxOverrunEnd => exact Kept.of (execCanRxOverrunEnd_frame _ _) (by decide)
  | canTxBellWrite => exact Kept.of (execCanTxBellWrite_frame _ _ _) (by decide)
  | canTxCancelWrite => exact Kept.of (execCanTxCancelWrite_frame _ _ _ _) (by decide)
  | canEntryCtlWrite => exact Kept.of (execCanEntryCtlWrite_frame _ _ _ _ _) (by decide)
  | canRxLostRead => exact Kept.of (execCanRxLostRead_frame _ _ _) (by decide)
  | tmReferenceSend => exact execTmReferenceSend_keeps _ _
  | tmReferenceReceived => exact execTmReferenceReceived_keeps _ _ _ _ _
  | tmReferenceMissing => exact Kept.of (execTmReferenceMissing_frame _ _) (by decide)
  | canLowPowerFrame => exact execCanLowPowerFrame_keeps _ _ _ _
  | canWakeConfirmTimeout => exact Kept.of (execCanWakeConfirmTimeout_frame _ _) (by decide)
  | canConfig => exact Kept.of (execCanConfig_frame _ _ _ _) (by decide)
  | canStart => exact Kept.of (execCanStart_frame _ _ _) (by decide)
  | canStop => exact Kept.of (execCanStop_frame _ _ _) (by decide)
  | canRecover => exact Kept.of (execCanRecover_frame _ _ _) (by decide)
  | canSetFilter => exact Kept.of (execCanSetFilter_frame _ _ _ _ _ _ _) (by decide)
  | canSetSieve => exact Kept.of (execCanSetSieve_frame _ _ _ _ _ _ _ _) (by decide)
  | canCancel => exact Kept.of (execCanCancel_frame _ _ _ _) (by decide)
  | canTimeMaster => exact Kept.of (execCanTimeMaster_frame _ _ _ _ _ _ _ _ _) (by decide)
  | canGetStatus => exact Kept.of (execCanGetStatus_frame _ _ _) (by decide)
  | canStats => exact Kept.of (execCanStats_frame _ _ _ _) (by decide)
  | nmMessageReceived => exact Kept.of (execNmMessageReceived_frame _ _ _ _ _) (by decide)
  | nmTokenPass => exact Kept.of (execNmTokenPass_frame _ _) (by decide)
  | nmFormingTimeout => exact Kept.of (execNmFormingTimeout_frame _ _) (by decide)
  | nmHopTimeout => exact Kept.of (execNmHopTimeout_frame _ _) (by decide)
  | nmTokenLost => exact Kept.of (execNmTokenLost_frame _ _) (by decide)
  | nmSleepTimer => exact Kept.of (execNmSleepTimer_frame _ _) (by decide)
  | nmTmaxExpiry => exact Kept.of (execNmTmaxExpiry_frame _ _) (by decide)
  | nmConfig => exact Kept.of (execNmConfig_frame _ _ _ _) (by decide)
  | nmRequestAwake => exact Kept.of (execNmRequestAwake_frame _ _ _) (by decide)
  | nmRelease => exact Kept.of (execNmRelease_frame _ _ _) (by decide)
  | nmSetTmax => exact Kept.of (execNmSetTmax_frame _ _ _ _) (by decide)
  | nmGetStatus => exact Kept.of (execNmGetStatus_frame _ _ _) (by decide)
  | linSlotStart => exact Kept.of (execLinSlotStart_frame _ _) (by decide)
  | linFrameEnd => exact Kept.of (execLinFrameEnd_frame _ _ _ _) (by decide)
  | linWakeScheduleStart => exact Kept.of (execLinWakeScheduleStart_frame _ _) (by decide)
  | linResponderWake => exact Kept.of (execLinResponderWake_frame _ _) (by decide)
  | linBusFault => exact Kept.of (execLinBusFault_frame _ _) (by decide)
  | linBusFaultEnd => exact Kept.of (execLinBusFaultEnd_frame _ _) (by decide)
  | linRxLostRead => exact Kept.of (execLinRxLostRead_frame _ _ _) (by decide)
  | linConfig => exact Kept.of (execLinConfig_frame _ _ _ _) (by decide)
  | linLoadSchedule => exact Kept.of (execLinLoadSchedule_frame _ _ _ _ _ _) (by decide)
  | linSelectSchedule => exact Kept.of (execLinSelectSchedule_frame _ _ _ _) (by decide)
  | linWake => exact Kept.of (execLinWake_frame _ _ _) (by decide)
  | linSleep => exact Kept.of (execLinSleep_frame _ _ _) (by decide)
  | linDiag => exact Kept.of (execLinDiag_frame _ _ _ _ _) (by decide)
  | linDiagDone => exact Kept.of (execLinDiagDone_frame _ _) (by decide)
  | linGetStatus => exact Kept.of (execLinGetStatus_frame _ _ _) (by decide)
  | linRxOverrunEnd => exact Kept.of (execLinRxOverrunEnd_frame _ _) (by decide)
  | sourcePduUpdate => exact execSourcePduUpdate_keeps _ _ _
  | pduTimeout => exact execPduTimeout_keeps _ _
  | signalCyclicWrite => exact execSignalCyclicWrite_keeps _ _
  | signalDeferredWrite => exact execSignalDeferredWrite_keeps _ _
  | pduCyclicSend => exact Kept.of (execPduCyclicSend_frame _ _) (by decide)
  | i3RecordFrame => exact Kept.of (execI3RecordFrame_frame _ _ _) (by decide)
  | sigTableEcc => exact execSigTableEcc_keeps _ _ _
  | sigWrLoWrite => exact Kept.of (execSigWrLoWrite_frame _ _ _ _) (by decide)
  | sigRdLoRead => exact Kept.of (execSigRdLoRead_frame _ _ _) (by decide)
  | prsBlock => exact Kept.of (execPrsBlock_frame _ _ _ _) (by decide)
  | prsCaptureComplete => exact Kept.of (execPrsCaptureComplete_frame _ _) (by decide)
  | sigLoad => exact Kept.of (execSigLoad_frame _ _ _ _ _ _) (by decide)
  | sigRead => exact Kept.of (execSigRead_frame _ _ _ _) (by decide)
  | sigWrite => exact Kept.of (execSigWrite_frame _ _ _ _ _) (by decide)
  | sigGetStatus => exact Kept.of (execSigGetStatus_frame _ _ _ _) (by decide)
  | sigPrsConfig => exact Kept.of (execSigPrsConfig_frame _ _ _) (by decide)
  | sigPrsStart => exact Kept.of (execSigPrsStart_frame _ _ _) (by decide)
  | sigPrsStop => exact Kept.of (execSigPrsStop_frame _ _ _) (by decide)
  | sigCapture => exact Kept.of (execSigCapture_frame _ _ _ _ _ _) (by decide)
  | viewChangeApply => exact execViewChangeApply_keeps _ _
  | captureEvent => exact execCaptureEvent_keeps _ _ _
  | triggerFire => exact execTriggerFire_keeps _ _
  | rtcAlarmExpiry => exact execRtcAlarmExpiry_keeps _
  | timeRead => exact Kept.of (execTimeRead_frame _ _ _) (by decide)
  | timeAdjust => exact execTimeAdjust_keeps _ _ _
  | timeViewAlloc => exact execTimeViewAlloc_keeps _ _ _ _ _
  | timeCaptureConfig => exact execTimeCaptureConfig_keeps _ _ _ _ _ _
  | timeTriggerConfig => exact execTimeTriggerConfig_keeps _ _ _
  | timeRtcAlarm => exact execTimeRtcAlarm_keeps _ _ _ _
  | vzfCreate => exact execVzfCreate_keeps _ _ _ _ _
  | vzfDestroy => exact Kept.of (execVzfDestroy_frame _ _ _) (by decide)
  | vzfReset => exact Kept.of (execVzfReset_frame _ _ _) (by decide)
  | vzfResetDrainEnd => exact execVzfResetDrainEnd_keeps _ _
  | vzfQos => exact Kept.of (execVzfQos_frame _ _ _ _) (by decide)
  | vzfGetInfo => exact Kept.of (execVzfGetInfo_frame _ _ _) (by decide)
  | vzfList => exact Kept.of (execVzfList_frame _ _) (by decide)
  | dramZeroComplete => exact Kept.of (execDramZeroComplete_frame _ _) (by decide)
  | interruptBudgetRefill => exact Kept.of (execInterruptBudgetRefill_frame _) (by decide)
  | vectorHoldoffExpiry => exact Kept.of (execVectorHoldoffExpiry_frame _ _ _) (by decide)
  | lockstepMismatch => exact execLockstepMismatch_keeps _ _ _
  | pairLbistDecision => exact execPairLbistDecision_keeps _ _ _ _
  | pairMigration => exact execPairMigration_keeps _
  | trapStacking => exact execTrapStacking_keeps _ _ _ _ _ _ _
  | mretUnstack => exact execMretUnstack_keeps _ _ _ _
  | safCkptGoWrite => exact execSafCkptGoWrite_keeps _ _ _
  | checkpointComplete => exact execCheckpointComplete_keeps _ _ _
  | trngHealthFail => exact execTrngHealthFail_keeps _
  | keyProvision r f => exact absurd rfl (provision r f)
  | keySlotStatus => exact Kept.of (execKeySlotStatus_frame _ _ _ _) (by decide)
  | keyEraseSlot r n k g => exact absurd rfl (erase r n k g)
  | keyAttest => exact Kept.of (execKeyAttest_frame _ _ _ _) (by decide)
  | keyRandom => exact Kept.of (execKeyRandom_frame _ _ _) (by decide)
  | keyGetIdentity => exact Kept.of (execKeyGetIdentity_frame _ _) (by decide)
  | updBegin => exact execUpdBegin_keeps _ _ _ _
  | updWrite => exact execUpdWrite_keeps _ _ _ _
  | updVerify => exact execUpdVerify_keeps _ _
  | updVerifyDone => exact execUpdVerifyDone_keeps _ _ _
  | updCommit => exact execUpdCommit_keeps _ _ _
  | updAbort => exact execUpdAbort_keeps _ _
  | updStatus => exact Kept.of (execUpdStatus_frame _ _) (by decide)
  | updRestart => exact execUpdRestart_keeps _ _
  | updWaiver => exact execUpdWaiver_keeps _ _ _ _ _
  | updTargetTimeout => exact execUpdTargetTimeout_keeps _
  | udsSessionControl => exact Kept.of (execUdsSessionControl_frame _ _) (by decide)
  | udsEcuReset => exact execUdsEcuReset_keeps _ _
  | udsReadDataById => exact Kept.of (execUdsReadDataById_frame _ _) (by decide)
  | udsRequestSeed => exact execUdsRequestSeed_keeps _
  | udsSendKey => exact execUdsSendKey_keeps _ _
  | udsSecurityLockoutEnd => exact Kept.of (execUdsSecurityLockoutEnd_frame _) (by decide)
  | udsRoutineControl a b g => exact absurd rfl (routine a b g)
  | udsRequestDownload => exact execUdsRequestDownload_keeps _ _ _ _ _
  | udsTransferData => exact execUdsTransferData_keeps _ _ _
  | udsRequestTransferExit => exact execUdsRequestTransferExit_keeps _
  | udsTesterPresent => exact Kept.of (execUdsTesterPresent_frame _ _) (by decide)
  | udsS3Timeout => exact execUdsS3Timeout_keeps _
  | basecampPortIdle => exact Kept.of (execBasecampPortIdle_frame _) (by decide)
  | belayFrameSend => exact Kept.of (execBelayFrameSend_frame _) (by decide)
  | belayEncoderTimeout => exact Kept.of (execBelayEncoderTimeout_frame _) (by decide)
  | belayFrameDecoded => exact execBelayFrameDecoded_keeps _ _
  | belayPartnerLost => exact execBelayPartnerLost_keeps _
  | twinGateDelay => exact Kept.of (execTwinGateDelay_frame _ _) (by decide)
  | twinGraceExpiry => exact Kept.of (execTwinGraceExpiry_frame _) (by decide)
  | healthReport => exact Kept.of (execHealthReport_frame _ _ _) (by decide)
  | standbySelftest => exact Kept.of (execStandbySelftest_frame _ _ _ _) (by decide)
  | twinStatus => exact Kept.of (execTwinStatus_frame _ _) (by decide)
  | twinHealth => exact Kept.of (execTwinHealth_frame _ _ _) (by decide)
  | twinBelayTest => exact Kept.of (execTwinBelayTest_frame _ _ _) (by decide)
  | belayTestDone => exact Kept.of (execBelayTestDone_frame _) (by decide)
  | logRead => exact Kept.of (execLogRead_frame _ _ _ _ _) (by decide)
  | logArchive => exact Kept.of (execLogArchive_frame _ _ _) (by decide)
  | logStatus => exact Kept.of (execLogStatus_frame _ _ _) (by decide)
  | logReadStones => exact Kept.of (execLogReadStones_frame _ _) (by decide)
  | logClearStones => exact Kept.of (execLogClearStones_frame _ _) (by decide)
  | stoneCopyDone => exact Kept.of (execStoneCopyDone_frame _ _) (by decide)
  | logSramEcc => exact Kept.of (execLogSramEcc_frame _) (by decide)
  | nandLogWriteFail => exact Kept.of (execNandLogWriteFail_frame _) (by decide)

end Sys2Proof.Machine

end
end

