-- ==== Sys2Proof/Laws/State.lean ====
section
/-! SUPPORT. One lemma for each part of the state and each named update of another part: the update leaves it alone; and what an
entry of a table reads after its update. -/

section

set_option Elab.async false

namespace Sys2Proof.Machine

@[simp] theorem State.modBrg_sys (s : State) (f : BrgState → BrgState) : (s.modBrg f).sys = s.sys := rfl
@[simp] theorem State.modBrg_mbx (s : State) (f : BrgState → BrgState) : (s.modBrg f).mbx = s.mbx := rfl
@[simp] theorem State.modBrg_log (s : State) (f : BrgState → BrgState) : (s.modBrg f).log = s.log := rfl
@[simp] theorem State.modBrg_tb (s : State) (f : BrgState → BrgState) : (s.modBrg f).tb = s.tb := rfl
@[simp] theorem State.modBrg_vz (s : State) (f : BrgState → BrgState) : (s.modBrg f).vz = s.vz := rfl
@[simp] theorem State.modBrg_saf (s : State) (f : BrgState → BrgState) : (s.modBrg f).saf = s.saf := rfl
@[simp] theorem State.modBrg_cfg (s : State) (f : BrgState → BrgState) : (s.modBrg f).cfg = s.cfg := rfl
@[simp] theorem State.modBrg_ch (s : State) (f : BrgState → BrgState) : (s.modBrg f).ch = s.ch := rfl
@[simp] theorem State.modBrg_rfx (s : State) (f : BrgState → BrgState) : (s.modBrg f).rfx = s.rfx := rfl
@[simp] theorem State.modBrg_twin (s : State) (f : BrgState → BrgState) : (s.modBrg f).twin = s.twin := rfl
@[simp] theorem State.modBrg_fio (s : State) (f : BrgState → BrgState) : (s.modBrg f).fio = s.fio := rfl
@[simp] theorem State.modBrg_ring (s : State) (f : BrgState → BrgState) : (s.modBrg f).ring = s.ring := rfl
@[simp] theorem State.modBrg_esw (s : State) (f : BrgState → BrgState) : (s.modBrg f).esw = s.esw := rfl
@[simp] theorem State.modBrg_net (s : State) (f : BrgState → BrgState) : (s.modBrg f).net = s.net := rfl
@[simp] theorem State.modBrg_sig (s : State) (f : BrgState → BrgState) : (s.modBrg f).sig = s.sig := rfl
@[simp] theorem State.modBrg_key (s : State) (f : BrgState → BrgState) : (s.modBrg f).key = s.key := rfl
@[simp] theorem State.modBrg_upd (s : State) (f : BrgState → BrgState) : (s.modBrg f).upd = s.upd := rfl
@[simp] theorem State.modBrg_uds (s : State) (f : BrgState → BrgState) : (s.modBrg f).uds = s.uds := rfl
@[simp] theorem State.modBrg_bus (s : State) (f : BrgState → BrgState) : (s.modBrg f).bus = s.bus := rfl
@[simp] theorem State.modBrg_free (s : State) (f : BrgState → BrgState) : (s.modBrg f).free = s.free := rfl
@[simp] theorem State.modBrg_pending (s : State) (f : BrgState → BrgState) : (s.modBrg f).pending = s.pending := rfl

@[simp] theorem State.modCan_sys (s : State) (c : Nat) (f : CanChan → CanChan) : (s.modCan c f).sys = s.sys := rfl
@[simp] theorem State.modCan_mbx (s : State) (c : Nat) (f : CanChan → CanChan) : (s.modCan c f).mbx = s.mbx := rfl
@[simp] theorem State.modCan_log (s : State) (c : Nat) (f : CanChan → CanChan) : (s.modCan c f).log = s.log := rfl
@[simp] theorem State.modCan_tb (s : State) (c : Nat) (f : CanChan → CanChan) : (s.modCan c f).tb = s.tb := rfl
@[simp] theorem State.modCan_vz (s : State) (c : Nat) (f : CanChan → CanChan) : (s.modCan c f).vz = s.vz := rfl
@[simp] theorem State.modCan_saf (s : State) (c : Nat) (f : CanChan → CanChan) : (s.modCan c f).saf = s.saf := rfl
@[simp] theorem State.modCan_cfg (s : State) (c : Nat) (f : CanChan → CanChan) : (s.modCan c f).cfg = s.cfg := rfl
@[simp] theorem State.modCan_ch (s : State) (c : Nat) (f : CanChan → CanChan) : (s.modCan c f).ch = s.ch := rfl
@[simp] theorem State.modCan_rfx (s : State) (c : Nat) (f : CanChan → CanChan) : (s.modCan c f).rfx = s.rfx := rfl
@[simp] theorem State.modCan_twin (s : State) (c : Nat) (f : CanChan → CanChan) : (s.modCan c f).twin = s.twin := rfl
@[simp] theorem State.modCan_brg (s : State) (c : Nat) (f : CanChan → CanChan) : (s.modCan c f).brg = s.brg := rfl
@[simp] theorem State.modCan_fio (s : State) (c : Nat) (f : CanChan → CanChan) : (s.modCan c f).fio = s.fio := rfl
@[simp] theorem State.modCan_ring (s : State) (c : Nat) (f : CanChan → CanChan) : (s.modCan c f).ring = s.ring := rfl
@[simp] theorem State.modCan_esw (s : State) (c : Nat) (f : CanChan → CanChan) : (s.modCan c f).esw = s.esw := rfl
@[simp] theorem State.modCan_sig (s : State) (c : Nat) (f : CanChan → CanChan) : (s.modCan c f).sig = s.sig := rfl
@[simp] theorem State.modCan_key (s : State) (c : Nat) (f : CanChan → CanChan) : (s.modCan c f).key = s.key := rfl
@[simp] theorem State.modCan_upd (s : State) (c : Nat) (f : CanChan → CanChan) : (s.modCan c f).upd = s.upd := rfl
@[simp] theorem State.modCan_uds (s : State) (c : Nat) (f : CanChan → CanChan) : (s.modCan c f).uds = s.uds := rfl
@[simp] theorem State.modCan_bus (s : State) (c : Nat) (f : CanChan → CanChan) : (s.modCan c f).bus = s.bus := rfl
@[simp] theorem State.modCan_free (s : State) (c : Nat) (f : CanChan → CanChan) : (s.modCan c f).free = s.free := rfl
@[simp] theorem State.modCan_pending (s : State) (c : Nat) (f : CanChan → CanChan) : (s.modCan c f).pending = s.pending := rfl
@[simp] theorem State.modCan_same (s : State) (c : Nat) (f : CanChan → CanChan) : (s.modCan c f).canCh c = f (s.canCh c) := by
  apply Tbl.getD_modify_same
theorem State.modCan_other (s : State) (c : Nat) (f : CanChan → CanChan) (other : Nat) (h : other ≠ c) : (s.modCan c f).canCh other = s.canCh other := by
  apply Tbl.getD_modify_other _ _ _ _ _ h

@[simp] theorem State.modNm_sys (s : State) (c : Nat) (f : NmRing → NmRing) : (s.modNm c f).sys = s.sys := rfl
@[simp] theorem State.modNm_mbx (s : State) (c : Nat) (f : NmRing → NmRing) : (s.modNm c f).mbx = s.mbx := rfl
@[simp] theorem State.modNm_log (s : State) (c : Nat) (f : NmRing → NmRing) : (s.modNm c f).log = s.log := rfl
@[simp] theorem State.modNm_tb (s : State) (c : Nat) (f : NmRing → NmRing) : (s.modNm c f).tb = s.tb := rfl
@[simp] theorem State.modNm_vz (s : State) (c : Nat) (f : NmRing → NmRing) : (s.modNm c f).vz = s.vz := rfl
@[simp] theorem State.modNm_saf (s : State) (c : Nat) (f : NmRing → NmRing) : (s.modNm c f).saf = s.saf := rfl
@[simp] theorem State.modNm_cfg (s : State) (c : Nat) (f : NmRing → NmRing) : (s.modNm c f).cfg = s.cfg := rfl
@[simp] theorem State.modNm_ch (s : State) (c : Nat) (f : NmRing → NmRing) : (s.modNm c f).ch = s.ch := rfl
@[simp] theorem State.modNm_rfx (s : State) (c : Nat) (f : NmRing → NmRing) : (s.modNm c f).rfx = s.rfx := rfl
@[simp] theorem State.modNm_twin (s : State) (c : Nat) (f : NmRing → NmRing) : (s.modNm c f).twin = s.twin := rfl
@[simp] theorem State.modNm_brg (s : State) (c : Nat) (f : NmRing → NmRing) : (s.modNm c f).brg = s.brg := rfl
@[simp] theorem State.modNm_fio (s : State) (c : Nat) (f : NmRing → NmRing) : (s.modNm c f).fio = s.fio := rfl
@[simp] theorem State.modNm_ring (s : State) (c : Nat) (f : NmRing → NmRing) : (s.modNm c f).ring = s.ring := rfl
@[simp] theorem State.modNm_esw (s : State) (c : Nat) (f : NmRing → NmRing) : (s.modNm c f).esw = s.esw := rfl
@[simp] theorem State.modNm_sig (s : State) (c : Nat) (f : NmRing → NmRing) : (s.modNm c f).sig = s.sig := rfl
@[simp] theorem State.modNm_key (s : State) (c : Nat) (f : NmRing → NmRing) : (s.modNm c f).key = s.key := rfl
@[simp] theorem State.modNm_upd (s : State) (c : Nat) (f : NmRing → NmRing) : (s.modNm c f).upd = s.upd := rfl
@[simp] theorem State.modNm_uds (s : State) (c : Nat) (f : NmRing → NmRing) : (s.modNm c f).uds = s.uds := rfl
@[simp] theorem State.modNm_bus (s : State) (c : Nat) (f : NmRing → NmRing) : (s.modNm c f).bus = s.bus := rfl
@[simp] theorem State.modNm_free (s : State) (c : Nat) (f : NmRing → NmRing) : (s.modNm c f).free = s.free := rfl
@[simp] theorem State.modNm_pending (s : State) (c : Nat) (f : NmRing → NmRing) : (s.modNm c f).pending = s.pending := rfl
@[simp] theorem State.modNm_same (s : State) (c : Nat) (f : NmRing → NmRing) : (s.modNm c f).nmRing c = f (s.nmRing c) := by
  apply Tbl.getD_modify_same
theorem State.modNm_other (s : State) (c : Nat) (f : NmRing → NmRing) (other : Nat) (h : other ≠ c) : (s.modNm c f).nmRing other = s.nmRing other := by
  apply Tbl.getD_modify_other _ _ _ _ _ h

@[simp] theorem State.modLin_sys (s : State) (l : Nat) (f : LinChan → LinChan) : (s.modLin l f).sys = s.sys := rfl
@[simp] theorem State.modLin_mbx (s : State) (l : Nat) (f : LinChan → LinChan) : (s.modLin l f).mbx = s.mbx := rfl
@[simp] theorem State.modLin_log (s : State) (l : Nat) (f : LinChan → LinChan) : (s.modLin l f).log = s.log := rfl
@[simp] theorem State.modLin_tb (s : State) (l : Nat) (f : LinChan → LinChan) : (s.modLin l f).tb = s.tb := rfl
@[simp] theorem State.modLin_vz (s : State) (l : Nat) (f : LinChan → LinChan) : (s.modLin l f).vz = s.vz := rfl
@[simp] theorem State.modLin_saf (s : State) (l : Nat) (f : LinChan → LinChan) : (s.modLin l f).saf = s.saf := rfl
@[simp] theorem State.modLin_cfg (s : State) (l : Nat) (f : LinChan → LinChan) : (s.modLin l f).cfg = s.cfg := rfl
@[simp] theorem State.modLin_ch (s : State) (l : Nat) (f : LinChan → LinChan) : (s.modLin l f).ch = s.ch := rfl
@[simp] theorem State.modLin_rfx (s : State) (l : Nat) (f : LinChan → LinChan) : (s.modLin l f).rfx = s.rfx := rfl
@[simp] theorem State.modLin_twin (s : State) (l : Nat) (f : LinChan → LinChan) : (s.modLin l f).twin = s.twin := rfl
@[simp] theorem State.modLin_brg (s : State) (l : Nat) (f : LinChan → LinChan) : (s.modLin l f).brg = s.brg := rfl
@[simp] theorem State.modLin_fio (s : State) (l : Nat) (f : LinChan → LinChan) : (s.modLin l f).fio = s.fio := rfl
@[simp] theorem State.modLin_ring (s : State) (l : Nat) (f : LinChan → LinChan) : (s.modLin l f).ring = s.ring := rfl
@[simp] theorem State.modLin_esw (s : State) (l : Nat) (f : LinChan → LinChan) : (s.modLin l f).esw = s.esw := rfl
@[simp] theorem State.modLin_sig (s : State) (l : Nat) (f : LinChan → LinChan) : (s.modLin l f).sig = s.sig := rfl
@[simp] theorem State.modLin_key (s : State) (l : Nat) (f : LinChan → LinChan) : (s.modLin l f).key = s.key := rfl
@[simp] theorem State.modLin_upd (s : State) (l : Nat) (f : LinChan → LinChan) : (s.modLin l f).upd = s.upd := rfl
@[simp] theorem State.modLin_uds (s : State) (l : Nat) (f : LinChan → LinChan) : (s.modLin l f).uds = s.uds := rfl
@[simp] theorem State.modLin_bus (s : State) (l : Nat) (f : LinChan → LinChan) : (s.modLin l f).bus = s.bus := rfl
@[simp] theorem State.modLin_free (s : State) (l : Nat) (f : LinChan → LinChan) : (s.modLin l f).free = s.free := rfl
@[simp] theorem State.modLin_pending (s : State) (l : Nat) (f : LinChan → LinChan) : (s.modLin l f).pending = s.pending := rfl
@[simp] theorem State.modLin_same (s : State) (l : Nat) (f : LinChan → LinChan) : (s.modLin l f).linCh l = f (s.linCh l) := by
  apply Tbl.getD_modify_same
theorem State.modLin_other (s : State) (l : Nat) (f : LinChan → LinChan) (other : Nat) (h : other ≠ l) : (s.modLin l f).linCh other = s.linCh other := by
  apply Tbl.getD_modify_other _ _ _ _ _ h

@[simp] theorem State.modKeySlot_sys (s : State) (n : Nat) (f : KeySlot → KeySlot) : (s.modKeySlot n f).sys = s.sys := rfl
@[simp] theorem State.modKeySlot_mbx (s : State) (n : Nat) (f : KeySlot → KeySlot) : (s.modKeySlot n f).mbx = s.mbx := rfl
@[simp] theorem State.modKeySlot_log (s : State) (n : Nat) (f : KeySlot → KeySlot) : (s.modKeySlot n f).log = s.log := rfl
@[simp] theorem State.modKeySlot_tb (s : State) (n : Nat) (f : KeySlot → KeySlot) : (s.modKeySlot n f).tb = s.tb := rfl
@[simp] theorem State.modKeySlot_vz (s : State) (n : Nat) (f : KeySlot → KeySlot) : (s.modKeySlot n f).vz = s.vz := rfl
@[simp] theorem State.modKeySlot_saf (s : State) (n : Nat) (f : KeySlot → KeySlot) : (s.modKeySlot n f).saf = s.saf := rfl
@[simp] theorem State.modKeySlot_cfg (s : State) (n : Nat) (f : KeySlot → KeySlot) : (s.modKeySlot n f).cfg = s.cfg := rfl
@[simp] theorem State.modKeySlot_ch (s : State) (n : Nat) (f : KeySlot → KeySlot) : (s.modKeySlot n f).ch = s.ch := rfl
@[simp] theorem State.modKeySlot_rfx (s : State) (n : Nat) (f : KeySlot → KeySlot) : (s.modKeySlot n f).rfx = s.rfx := rfl
@[simp] theorem State.modKeySlot_twin (s : State) (n : Nat) (f : KeySlot → KeySlot) : (s.modKeySlot n f).twin = s.twin := rfl
@[simp] theorem State.modKeySlot_brg (s : State) (n : Nat) (f : KeySlot → KeySlot) : (s.modKeySlot n f).brg = s.brg := rfl
@[simp] theorem State.modKeySlot_fio (s : State) (n : Nat) (f : KeySlot → KeySlot) : (s.modKeySlot n f).fio = s.fio := rfl
@[simp] theorem State.modKeySlot_ring (s : State) (n : Nat) (f : KeySlot → KeySlot) : (s.modKeySlot n f).ring = s.ring := rfl
@[simp] theorem State.modKeySlot_esw (s : State) (n : Nat) (f : KeySlot → KeySlot) : (s.modKeySlot n f).esw = s.esw := rfl
@[simp] theorem State.modKeySlot_net (s : State) (n : Nat) (f : KeySlot → KeySlot) : (s.modKeySlot n f).net = s.net := rfl
@[simp] theorem State.modKeySlot_sig (s : State) (n : Nat) (f : KeySlot → KeySlot) : (s.modKeySlot n f).sig = s.sig := rfl
@[simp] theorem State.modKeySlot_upd (s : State) (n : Nat) (f : KeySlot → KeySlot) : (s.modKeySlot n f).upd = s.upd := rfl
@[simp] theorem State.modKeySlot_uds (s : State) (n : Nat) (f : KeySlot → KeySlot) : (s.modKeySlot n f).uds = s.uds := rfl
@[simp] theorem State.modKeySlot_bus (s : State) (n : Nat) (f : KeySlot → KeySlot) : (s.modKeySlot n f).bus = s.bus := rfl
@[simp] theorem State.modKeySlot_free (s : State) (n : Nat) (f : KeySlot → KeySlot) : (s.modKeySlot n f).free = s.free := rfl
@[simp] theorem State.modKeySlot_pending (s : State) (n : Nat) (f : KeySlot → KeySlot) : (s.modKeySlot n f).pending = s.pending := rfl

@[simp] theorem State.modCopy_sys (s : State) (cls : Nat) (b : Bool) (f : ImageCopy → ImageCopy) : (s.modCopy cls b f).sys = s.sys := rfl
@[simp] theorem State.modCopy_mbx (s : State) (cls : Nat) (b : Bool) (f : ImageCopy → ImageCopy) : (s.modCopy cls b f).mbx = s.mbx := rfl
@[simp] theorem State.modCopy_log (s : State) (cls : Nat) (b : Bool) (f : ImageCopy → ImageCopy) : (s.modCopy cls b f).log = s.log := rfl
@[simp] theorem State.modCopy_tb (s : State) (cls : Nat) (b : Bool) (f : ImageCopy → ImageCopy) : (s.modCopy cls b f).tb = s.tb := rfl
@[simp] theorem State.modCopy_vz (s : State) (cls : Nat) (b : Bool) (f : ImageCopy → ImageCopy) : (s.modCopy cls b f).vz = s.vz := rfl
@[simp] theorem State.modCopy_saf (s : State) (cls : Nat) (b : Bool) (f : ImageCopy → ImageCopy) : (s.modCopy cls b f).saf = s.saf := rfl
@[simp] theorem State.modCopy_cfg (s : State) (cls : Nat) (b : Bool) (f : ImageCopy → ImageCopy) : (s.modCopy cls b f).cfg = s.cfg := rfl
@[simp] theorem State.modCopy_ch (s : State) (cls : Nat) (b : Bool) (f : ImageCopy → ImageCopy) : (s.modCopy cls b f).ch = s.ch := rfl
@[simp] theorem State.modCopy_rfx (s : State) (cls : Nat) (b : Bool) (f : ImageCopy → ImageCopy) : (s.modCopy cls b f).rfx = s.rfx := rfl
@[simp] theorem State.modCopy_twin (s : State) (cls : Nat) (b : Bool) (f : ImageCopy → ImageCopy) : (s.modCopy cls b f).twin = s.twin := rfl
@[simp] theorem State.modCopy_brg (s : State) (cls : Nat) (b : Bool) (f : ImageCopy → ImageCopy) : (s.modCopy cls b f).brg = s.brg := rfl
@[simp] theorem State.modCopy_fio (s : State) (cls : Nat) (b : Bool) (f : ImageCopy → ImageCopy) : (s.modCopy cls b f).fio = s.fio := rfl
@[simp] theorem State.modCopy_ring (s : State) (cls : Nat) (b : Bool) (f : ImageCopy → ImageCopy) : (s.modCopy cls b f).ring = s.ring := rfl
@[simp] theorem State.modCopy_esw (s : State) (cls : Nat) (b : Bool) (f : ImageCopy → ImageCopy) : (s.modCopy cls b f).esw = s.esw := rfl
@[simp] theorem State.modCopy_net (s : State) (cls : Nat) (b : Bool) (f : ImageCopy → ImageCopy) : (s.modCopy cls b f).net = s.net := rfl
@[simp] theorem State.modCopy_sig (s : State) (cls : Nat) (b : Bool) (f : ImageCopy → ImageCopy) : (s.modCopy cls b f).sig = s.sig := rfl
@[simp] theorem State.modCopy_key (s : State) (cls : Nat) (b : Bool) (f : ImageCopy → ImageCopy) : (s.modCopy cls b f).key = s.key := rfl
@[simp] theorem State.modCopy_uds (s : State) (cls : Nat) (b : Bool) (f : ImageCopy → ImageCopy) : (s.modCopy cls b f).uds = s.uds := rfl
@[simp] theorem State.modCopy_bus (s : State) (cls : Nat) (b : Bool) (f : ImageCopy → ImageCopy) : (s.modCopy cls b f).bus = s.bus := rfl
@[simp] theorem State.modCopy_free (s : State) (cls : Nat) (b : Bool) (f : ImageCopy → ImageCopy) : (s.modCopy cls b f).free = s.free := rfl
@[simp] theorem State.modCopy_pending (s : State) (cls : Nat) (b : Bool) (f : ImageCopy → ImageCopy) : (s.modCopy cls b f).pending = s.pending := rfl

@[simp] theorem State.modChan_sys (s : State) (i : Nat) (f : Chan → Chan) : (s.modChan i f).sys = s.sys := rfl
@[simp] theorem State.modChan_mbx (s : State) (i : Nat) (f : Chan → Chan) : (s.modChan i f).mbx = s.mbx := rfl
@[simp] theorem State.modChan_log (s : State) (i : Nat) (f : Chan → Chan) : (s.modChan i f).log = s.log := rfl
@[simp] theorem State.modChan_tb (s : State) (i : Nat) (f : Chan → Chan) : (s.modChan i f).tb = s.tb := rfl
@[simp] theorem State.modChan_vz (s : State) (i : Nat) (f : Chan → Chan) : (s.modChan i f).vz = s.vz := rfl
@[simp] theorem State.modChan_saf (s : State) (i : Nat) (f : Chan → Chan) : (s.modChan i f).saf = s.saf := rfl
@[simp] theorem State.modChan_cfg (s : State) (i : Nat) (f : Chan → Chan) : (s.modChan i f).cfg = s.cfg := rfl
@[simp] theorem State.modChan_rfx (s : State) (i : Nat) (f : Chan → Chan) : (s.modChan i f).rfx = s.rfx := rfl
@[simp] theorem State.modChan_twin (s : State) (i : Nat) (f : Chan → Chan) : (s.modChan i f).twin = s.twin := rfl
@[simp] theorem State.modChan_brg (s : State) (i : Nat) (f : Chan → Chan) : (s.modChan i f).brg = s.brg := rfl
@[simp] theorem State.modChan_fio (s : State) (i : Nat) (f : Chan → Chan) : (s.modChan i f).fio = s.fio := rfl
@[simp] theorem State.modChan_ring (s : State) (i : Nat) (f : Chan → Chan) : (s.modChan i f).ring = s.ring := rfl
@[simp] theorem State.modChan_esw (s : State) (i : Nat) (f : Chan → Chan) : (s.modChan i f).esw = s.esw := rfl
@[simp] theorem State.modChan_net (s : State) (i : Nat) (f : Chan → Chan) : (s.modChan i f).net = s.net := rfl
@[simp] theorem State.modChan_sig (s : State) (i : Nat) (f : Chan → Chan) : (s.modChan i f).sig = s.sig := rfl
@[simp] theorem State.modChan_key (s : State) (i : Nat) (f : Chan → Chan) : (s.modChan i f).key = s.key := rfl
@[simp] theorem State.modChan_upd (s : State) (i : Nat) (f : Chan → Chan) : (s.modChan i f).upd = s.upd := rfl
@[simp] theorem State.modChan_uds (s : State) (i : Nat) (f : Chan → Chan) : (s.modChan i f).uds = s.uds := rfl
@[simp] theorem State.modChan_bus (s : State) (i : Nat) (f : Chan → Chan) : (s.modChan i f).bus = s.bus := rfl
@[simp] theorem State.modChan_free (s : State) (i : Nat) (f : Chan → Chan) : (s.modChan i f).free = s.free := rfl
@[simp] theorem State.modChan_pending (s : State) (i : Nat) (f : Chan → Chan) : (s.modChan i f).pending = s.pending := rfl
@[simp] theorem State.modChan_same (s : State) (i : Nat) (f : Chan → Chan) : (s.modChan i f).chan i = f (s.chan i) := by
  apply Tbl.getD_modify_same
theorem State.modChan_other (s : State) (i : Nat) (f : Chan → Chan) (other : Nat) (h : other ≠ i) : (s.modChan i f).chan other = s.chan other := by
  apply Tbl.getD_modify_other _ _ _ _ _ h

@[simp] theorem State.modBridge_sys (s : State) (b : Nat) (f : Bridge → Bridge) : (s.modBridge b f).sys = s.sys := rfl
@[simp] theorem State.modBridge_mbx (s : State) (b : Nat) (f : Bridge → Bridge) : (s.modBridge b f).mbx = s.mbx := rfl
@[simp] theorem State.modBridge_log (s : State) (b : Nat) (f : Bridge → Bridge) : (s.modBridge b f).log = s.log := rfl
@[simp] theorem State.modBridge_tb (s : State) (b : Nat) (f : Bridge → Bridge) : (s.modBridge b f).tb = s.tb := rfl
@[simp] theorem State.modBridge_vz (s : State) (b : Nat) (f : Bridge → Bridge) : (s.modBridge b f).vz = s.vz := rfl
@[simp] theorem State.modBridge_saf (s : State) (b : Nat) (f : Bridge → Bridge) : (s.modBridge b f).saf = s.saf := rfl
@[simp] theorem State.modBridge_cfg (s : State) (b : Nat) (f : Bridge → Bridge) : (s.modBridge b f).cfg = s.cfg := rfl
@[simp] theorem State.modBridge_rfx (s : State) (b : Nat) (f : Bridge → Bridge) : (s.modBridge b f).rfx = s.rfx := rfl
@[simp] theorem State.modBridge_twin (s : State) (b : Nat) (f : Bridge → Bridge) : (s.modBridge b f).twin = s.twin := rfl
@[simp] theorem State.modBridge_brg (s : State) (b : Nat) (f : Bridge → Bridge) : (s.modBridge b f).brg = s.brg := rfl
@[simp] theorem State.modBridge_fio (s : State) (b : Nat) (f : Bridge → Bridge) : (s.modBridge b f).fio = s.fio := rfl
@[simp] theorem State.modBridge_ring (s : State) (b : Nat) (f : Bridge → Bridge) : (s.modBridge b f).ring = s.ring := rfl
@[simp] theorem State.modBridge_esw (s : State) (b : Nat) (f : Bridge → Bridge) : (s.modBridge b f).esw = s.esw := rfl
@[simp] theorem State.modBridge_net (s : State) (b : Nat) (f : Bridge → Bridge) : (s.modBridge b f).net = s.net := rfl
@[simp] theorem State.modBridge_sig (s : State) (b : Nat) (f : Bridge → Bridge) : (s.modBridge b f).sig = s.sig := rfl
@[simp] theorem State.modBridge_key (s : State) (b : Nat) (f : Bridge → Bridge) : (s.modBridge b f).key = s.key := rfl
@[simp] theorem State.modBridge_upd (s : State) (b : Nat) (f : Bridge → Bridge) : (s.modBridge b f).upd = s.upd := rfl
@[simp] theorem State.modBridge_uds (s : State) (b : Nat) (f : Bridge → Bridge) : (s.modBridge b f).uds = s.uds := rfl
@[simp] theorem State.modBridge_bus (s : State) (b : Nat) (f : Bridge → Bridge) : (s.modBridge b f).bus = s.bus := rfl
@[simp] theorem State.modBridge_free (s : State) (b : Nat) (f : Bridge → Bridge) : (s.modBridge b f).free = s.free := rfl
@[simp] theorem State.modBridge_pending (s : State) (b : Nat) (f : Bridge → Bridge) : (s.modBridge b f).pending = s.pending := rfl
@[simp] theorem State.modBridge_same (s : State) (b : Nat) (f : Bridge → Bridge) : (s.modBridge b f).bridge b = f (s.bridge b) := by
  apply Tbl.getD_modify_same
theorem State.modBridge_other (s : State) (b : Nat) (f : Bridge → Bridge) (other : Nat) (h : other ≠ b) : (s.modBridge b f).bridge other = s.bridge other := by
  apply Tbl.getD_modify_other _ _ _ _ _ h

@[simp] theorem State.modValve_sys (s : State) (k : Nat) (f : Valve → Valve) : (s.modValve k f).sys = s.sys := rfl
@[simp] theorem State.modValve_mbx (s : State) (k : Nat) (f : Valve → Valve) : (s.modValve k f).mbx = s.mbx := rfl
@[simp] theorem State.modValve_log (s : State) (k : Nat) (f : Valve → Valve) : (s.modValve k f).log = s.log := rfl
@[simp] theorem State.modValve_tb (s : State) (k : Nat) (f : Valve → Valve) : (s.modValve k f).tb = s.tb := rfl
@[simp] theorem State.modValve_vz (s : State) (k : Nat) (f : Valve → Valve) : (s.modValve k f).vz = s.vz := rfl
@[simp] theorem State.modValve_saf (s : State) (k : Nat) (f : Valve → Valve) : (s.modValve k f).saf = s.saf := rfl
@[simp] theorem State.modValve_cfg (s : State) (k : Nat) (f : Valve → Valve) : (s.modValve k f).cfg = s.cfg := rfl
@[simp] theorem State.modValve_rfx (s : State) (k : Nat) (f : Valve → Valve) : (s.modValve k f).rfx = s.rfx := rfl
@[simp] theorem State.modValve_twin (s : State) (k : Nat) (f : Valve → Valve) : (s.modValve k f).twin = s.twin := rfl
@[simp] theorem State.modValve_brg (s : State) (k : Nat) (f : Valve → Valve) : (s.modValve k f).brg = s.brg := rfl
@[simp] theorem State.modValve_fio (s : State) (k : Nat) (f : Valve → Valve) : (s.modValve k f).fio = s.fio := rfl
@[simp] theorem State.modValve_ring (s : State) (k : Nat) (f : Valve → Valve) : (s.modValve k f).ring = s.ring := rfl
@[simp] theorem State.modValve_esw (s : State) (k : Nat) (f : Valve → Valve) : (s.modValve k f).esw = s.esw := rfl
@[simp] theorem State.modValve_net (s : State) (k : Nat) (f : Valve → Valve) : (s.modValve k f).net = s.net := rfl
@[simp] theorem State.modValve_sig (s : State) (k : Nat) (f : Valve → Valve) : (s.modValve k f).sig = s.sig := rfl
@[simp] theorem State.modValve_key (s : State) (k : Nat) (f : Valve → Valve) : (s.modValve k f).key = s.key := rfl
@[simp] theorem State.modValve_upd (s : State) (k : Nat) (f : Valve → Valve) : (s.modValve k f).upd = s.upd := rfl
@[simp] theorem State.modValve_uds (s : State) (k : Nat) (f : Valve → Valve) : (s.modValve k f).uds = s.uds := rfl
@[simp] theorem State.modValve_bus (s : State) (k : Nat) (f : Valve → Valve) : (s.modValve k f).bus = s.bus := rfl
@[simp] theorem State.modValve_free (s : State) (k : Nat) (f : Valve → Valve) : (s.modValve k f).free = s.free := rfl
@[simp] theorem State.modValve_pending (s : State) (k : Nat) (f : Valve → Valve) : (s.modValve k f).pending = s.pending := rfl
@[simp] theorem State.modValve_same (s : State) (k : Nat) (f : Valve → Valve) : (s.modValve k f).valve k = f (s.valve k) := by
  apply Tbl.getD_modify_same
theorem State.modValve_other (s : State) (k : Nat) (f : Valve → Valve) (other : Nat) (h : other ≠ k) : (s.modValve k f).valve other = s.valve other := by
  apply Tbl.getD_modify_other _ _ _ _ _ h

@[simp] theorem State.modDie_sys (s : State) (g : Nat) (f : Die → Die) : (s.modDie g f).sys = s.sys := rfl
@[simp] theorem State.modDie_mbx (s : State) (g : Nat) (f : Die → Die) : (s.modDie g f).mbx = s.mbx := rfl
@[simp] theorem State.modDie_log (s : State) (g : Nat) (f : Die → Die) : (s.modDie g f).log = s.log := rfl
@[simp] theorem State.modDie_tb (s : State) (g : Nat) (f : Die → Die) : (s.modDie g f).tb = s.tb := rfl
@[simp] theorem State.modDie_vz (s : State) (g : Nat) (f : Die → Die) : (s.modDie g f).vz = s.vz := rfl
@[simp] theorem State.modDie_saf (s : State) (g : Nat) (f : Die → Die) : (s.modDie g f).saf = s.saf := rfl
@[simp] theorem State.modDie_cfg (s : State) (g : Nat) (f : Die → Die) : (s.modDie g f).cfg = s.cfg := rfl
@[simp] theorem State.modDie_rfx (s : State) (g : Nat) (f : Die → Die) : (s.modDie g f).rfx = s.rfx := rfl
@[simp] theorem State.modDie_twin (s : State) (g : Nat) (f : Die → Die) : (s.modDie g f).twin = s.twin := rfl
@[simp] theorem State.modDie_brg (s : State) (g : Nat) (f : Die → Die) : (s.modDie g f).brg = s.brg := rfl
@[simp] theorem State.modDie_fio (s : State) (g : Nat) (f : Die → Die) : (s.modDie g f).fio = s.fio := rfl
@[simp] theorem State.modDie_ring (s : State) (g : Nat) (f : Die → Die) : (s.modDie g f).ring = s.ring := rfl
@[simp] theorem State.modDie_esw (s : State) (g : Nat) (f : Die → Die) : (s.modDie g f).esw = s.esw := rfl
@[simp] theorem State.modDie_net (s : State) (g : Nat) (f : Die → Die) : (s.modDie g f).net = s.net := rfl
@[simp] theorem State.modDie_sig (s : State) (g : Nat) (f : Die → Die) : (s.modDie g f).sig = s.sig := rfl
@[simp] theorem State.modDie_key (s : State) (g : Nat) (f : Die → Die) : (s.modDie g f).key = s.key := rfl
@[simp] theorem State.modDie_upd (s : State) (g : Nat) (f : Die → Die) : (s.modDie g f).upd = s.upd := rfl
@[simp] theorem State.modDie_uds (s : State) (g : Nat) (f : Die → Die) : (s.modDie g f).uds = s.uds := rfl
@[simp] theorem State.modDie_bus (s : State) (g : Nat) (f : Die → Die) : (s.modDie g f).bus = s.bus := rfl
@[simp] theorem State.modDie_free (s : State) (g : Nat) (f : Die → Die) : (s.modDie g f).free = s.free := rfl
@[simp] theorem State.modDie_pending (s : State) (g : Nat) (f : Die → Die) : (s.modDie g f).pending = s.pending := rfl
@[simp] theorem State.modDie_same (s : State) (g : Nat) (f : Die → Die) : (s.modDie g f).die g = f (s.die g) := by
  apply Tbl.getD_modify_same
theorem State.modDie_other (s : State) (g : Nat) (f : Die → Die) (other : Nat) (h : other ≠ g) : (s.modDie g f).die other = s.die other := by
  apply Tbl.getD_modify_other _ _ _ _ _ h

@[simp] theorem State.modEsw_sys (s : State) (f : EswState → EswState) : (s.modEsw f).sys = s.sys := rfl
@[simp] theorem State.modEsw_mbx (s : State) (f : EswState → EswState) : (s.modEsw f).mbx = s.mbx := rfl
@[simp] theorem State.modEsw_log (s : State) (f : EswState → EswState) : (s.modEsw f).log = s.log := rfl
@[simp] theorem State.modEsw_tb (s : State) (f : EswState → EswState) : (s.modEsw f).tb = s.tb := rfl
@[simp] theorem State.modEsw_vz (s : State) (f : EswState → EswState) : (s.modEsw f).vz = s.vz := rfl
@[simp] theorem State.modEsw_saf (s : State) (f : EswState → EswState) : (s.modEsw f).saf = s.saf := rfl
@[simp] theorem State.modEsw_cfg (s : State) (f : EswState → EswState) : (s.modEsw f).cfg = s.cfg := rfl
@[simp] theorem State.modEsw_ch (s : State) (f : EswState → EswState) : (s.modEsw f).ch = s.ch := rfl
@[simp] theorem State.modEsw_rfx (s : State) (f : EswState → EswState) : (s.modEsw f).rfx = s.rfx := rfl
@[simp] theorem State.modEsw_twin (s : State) (f : EswState → EswState) : (s.modEsw f).twin = s.twin := rfl
@[simp] theorem State.modEsw_brg (s : State) (f : EswState → EswState) : (s.modEsw f).brg = s.brg := rfl
@[simp] theorem State.modEsw_fio (s : State) (f : EswState → EswState) : (s.modEsw f).fio = s.fio := rfl
@[simp] theorem State.modEsw_ring (s : State) (f : EswState → EswState) : (s.modEsw f).ring = s.ring := rfl
@[simp] theorem State.modEsw_net (s : State) (f : EswState → EswState) : (s.modEsw f).net = s.net := rfl
@[simp] theorem State.modEsw_sig (s : State) (f : EswState → EswState) : (s.modEsw f).sig = s.sig := rfl
@[simp] theorem State.modEsw_key (s : State) (f : EswState → EswState) : (s.modEsw f).key = s.key := rfl
@[simp] theorem State.modEsw_upd (s : State) (f : EswState → EswState) : (s.modEsw f).upd = s.upd := rfl
@[simp] theorem State.modEsw_uds (s : State) (f : EswState → EswState) : (s.modEsw f).uds = s.uds := rfl
@[simp] theorem State.modEsw_bus (s : State) (f : EswState → EswState) : (s.modEsw f).bus = s.bus := rfl
@[simp] theorem State.modEsw_free (s : State) (f : EswState → EswState) : (s.modEsw f).free = s.free := rfl
@[simp] theorem State.modEsw_pending (s : State) (f : EswState → EswState) : (s.modEsw f).pending = s.pending := rfl

@[simp] theorem State.modSwp_sys (s : State) (p : Nat) (f : EswPort → EswPort) : (s.modSwp p f).sys = s.sys := rfl
@[simp] theorem State.modSwp_mbx (s : State) (p : Nat) (f : EswPort → EswPort) : (s.modSwp p f).mbx = s.mbx := rfl
@[simp] theorem State.modSwp_log (s : State) (p : Nat) (f : EswPort → EswPort) : (s.modSwp p f).log = s.log := rfl
@[simp] theorem State.modSwp_tb (s : State) (p : Nat) (f : EswPort → EswPort) : (s.modSwp p f).tb = s.tb := rfl
@[simp] theorem State.modSwp_vz (s : State) (p : Nat) (f : EswPort → EswPort) : (s.modSwp p f).vz = s.vz := rfl
@[simp] theorem State.modSwp_saf (s : State) (p : Nat) (f : EswPort → EswPort) : (s.modSwp p f).saf = s.saf := rfl
@[simp] theorem State.modSwp_cfg (s : State) (p : Nat) (f : EswPort → EswPort) : (s.modSwp p f).cfg = s.cfg := rfl
@[simp] theorem State.modSwp_ch (s : State) (p : Nat) (f : EswPort → EswPort) : (s.modSwp p f).ch = s.ch := rfl
@[simp] theorem State.modSwp_rfx (s : State) (p : Nat) (f : EswPort → EswPort) : (s.modSwp p f).rfx = s.rfx := rfl
@[simp] theorem State.modSwp_twin (s : State) (p : Nat) (f : EswPort → EswPort) : (s.modSwp p f).twin = s.twin := rfl
@[simp] theorem State.modSwp_brg (s : State) (p : Nat) (f : EswPort → EswPort) : (s.modSwp p f).brg = s.brg := rfl
@[simp] theorem State.modSwp_fio (s : State) (p : Nat) (f : EswPort → EswPort) : (s.modSwp p f).fio = s.fio := rfl
@[simp] theorem State.modSwp_ring (s : State) (p : Nat) (f : EswPort → EswPort) : (s.modSwp p f).ring = s.ring := rfl
@[simp] theorem State.modSwp_net (s : State) (p : Nat) (f : EswPort → EswPort) : (s.modSwp p f).net = s.net := rfl
@[simp] theorem State.modSwp_sig (s : State) (p : Nat) (f : EswPort → EswPort) : (s.modSwp p f).sig = s.sig := rfl
@[simp] theorem State.modSwp_key (s : State) (p : Nat) (f : EswPort → EswPort) : (s.modSwp p f).key = s.key := rfl
@[simp] theorem State.modSwp_upd (s : State) (p : Nat) (f : EswPort → EswPort) : (s.modSwp p f).upd = s.upd := rfl
@[simp] theorem State.modSwp_uds (s : State) (p : Nat) (f : EswPort → EswPort) : (s.modSwp p f).uds = s.uds := rfl
@[simp] theorem State.modSwp_bus (s : State) (p : Nat) (f : EswPort → EswPort) : (s.modSwp p f).bus = s.bus := rfl
@[simp] theorem State.modSwp_free (s : State) (p : Nat) (f : EswPort → EswPort) : (s.modSwp p f).free = s.free := rfl
@[simp] theorem State.modSwp_pending (s : State) (p : Nat) (f : EswPort → EswPort) : (s.modSwp p f).pending = s.pending := rfl
@[simp] theorem State.modSwp_same (s : State) (p : Nat) (f : EswPort → EswPort) : (s.modSwp p f).swp p = f (s.swp p) := by
  apply Tbl.getD_modify_same
theorem State.modSwp_other (s : State) (p : Nat) (f : EswPort → EswPort) (other : Nat) (h : other ≠ p) : (s.modSwp p f).swp other = s.swp other := by
  apply Tbl.getD_modify_other _ _ _ _ _ h

@[simp] theorem State.modPot_sys (s : State) (k : Nat) (f : Pot → Pot) : (s.modPot k f).sys = s.sys := rfl
@[simp] theorem State.modPot_mbx (s : State) (k : Nat) (f : Pot → Pot) : (s.modPot k f).mbx = s.mbx := rfl
@[simp] theorem State.modPot_log (s : State) (k : Nat) (f : Pot → Pot) : (s.modPot k f).log = s.log := rfl
@[simp] theorem State.modPot_tb (s : State) (k : Nat) (f : Pot → Pot) : (s.modPot k f).tb = s.tb := rfl
@[simp] theorem State.modPot_vz (s : State) (k : Nat) (f : Pot → Pot) : (s.modPot k f).vz = s.vz := rfl
@[simp] theorem State.modPot_saf (s : State) (k : Nat) (f : Pot → Pot) : (s.modPot k f).saf = s.saf := rfl
@[simp] theorem State.modPot_cfg (s : State) (k : Nat) (f : Pot → Pot) : (s.modPot k f).cfg = s.cfg := rfl
@[simp] theorem State.modPot_ch (s : State) (k : Nat) (f : Pot → Pot) : (s.modPot k f).ch = s.ch := rfl
@[simp] theorem State.modPot_rfx (s : State) (k : Nat) (f : Pot → Pot) : (s.modPot k f).rfx = s.rfx := rfl
@[simp] theorem State.modPot_twin (s : State) (k : Nat) (f : Pot → Pot) : (s.modPot k f).twin = s.twin := rfl
@[simp] theorem State.modPot_brg (s : State) (k : Nat) (f : Pot → Pot) : (s.modPot k f).brg = s.brg := rfl
@[simp] theorem State.modPot_fio (s : State) (k : Nat) (f : Pot → Pot) : (s.modPot k f).fio = s.fio := rfl
@[simp] theorem State.modPot_ring (s : State) (k : Nat) (f : Pot → Pot) : (s.modPot k f).ring = s.ring := rfl
@[simp] theorem State.modPot_net (s : State) (k : Nat) (f : Pot → Pot) : (s.modPot k f).net = s.net := rfl
@[simp] theorem State.modPot_sig (s : State) (k : Nat) (f : Pot → Pot) : (s.modPot k f).sig = s.sig := rfl
@[simp] theorem State.modPot_key (s : State) (k : Nat) (f : Pot → Pot) : (s.modPot k f).key = s.key := rfl
@[simp] theorem State.modPot_upd (s : State) (k : Nat) (f : Pot → Pot) : (s.modPot k f).upd = s.upd := rfl
@[simp] theorem State.modPot_uds (s : State) (k : Nat) (f : Pot → Pot) : (s.modPot k f).uds = s.uds := rfl
@[simp] theorem State.modPot_bus (s : State) (k : Nat) (f : Pot → Pot) : (s.modPot k f).bus = s.bus := rfl
@[simp] theorem State.modPot_free (s : State) (k : Nat) (f : Pot → Pot) : (s.modPot k f).free = s.free := rfl
@[simp] theorem State.modPot_pending (s : State) (k : Nat) (f : Pot → Pot) : (s.modPot k f).pending = s.pending := rfl
@[simp] theorem State.modPot_same (s : State) (k : Nat) (f : Pot → Pot) : (s.modPot k f).pot k = f (s.pot k) := by
  apply Tbl.getD_modify_same
theorem State.modPot_other (s : State) (k : Nat) (f : Pot → Pot) (other : Nat) (h : other ≠ k) : (s.modPot k f).pot other = s.pot other := by
  apply Tbl.getD_modify_other _ _ _ _ _ h

@[simp] theorem State.modQp_sys (s : State) (v q : Nat) (f : QPair → QPair) : (s.modQp v q f).sys = s.sys := rfl
@[simp] theorem State.modQp_mbx (s : State) (v q : Nat) (f : QPair → QPair) : (s.modQp v q f).mbx = s.mbx := rfl
@[simp] theorem State.modQp_log (s : State) (v q : Nat) (f : QPair → QPair) : (s.modQp v q f).log = s.log := rfl
@[simp] theorem State.modQp_tb (s : State) (v q : Nat) (f : QPair → QPair) : (s.modQp v q f).tb = s.tb := rfl
@[simp] theorem State.modQp_vz (s : State) (v q : Nat) (f : QPair → QPair) : (s.modQp v q f).vz = s.vz := rfl
@[simp] theorem State.modQp_saf (s : State) (v q : Nat) (f : QPair → QPair) : (s.modQp v q f).saf = s.saf := rfl
@[simp] theorem State.modQp_cfg (s : State) (v q : Nat) (f : QPair → QPair) : (s.modQp v q f).cfg = s.cfg := rfl
@[simp] theorem State.modQp_ch (s : State) (v q : Nat) (f : QPair → QPair) : (s.modQp v q f).ch = s.ch := rfl
@[simp] theorem State.modQp_rfx (s : State) (v q : Nat) (f : QPair → QPair) : (s.modQp v q f).rfx = s.rfx := rfl
@[simp] theorem State.modQp_twin (s : State) (v q : Nat) (f : QPair → QPair) : (s.modQp v q f).twin = s.twin := rfl
@[simp] theorem State.modQp_brg (s : State) (v q : Nat) (f : QPair → QPair) : (s.modQp v q f).brg = s.brg := rfl
@[simp] theorem State.modQp_fio (s : State) (v q : Nat) (f : QPair → QPair) : (s.modQp v q f).fio = s.fio := rfl
@[simp] theorem State.modQp_ring (s : State) (v q : Nat) (f : QPair → QPair) : (s.modQp v q f).ring = s.ring := rfl
@[simp] theorem State.modQp_net (s : State) (v q : Nat) (f : QPair → QPair) : (s.modQp v q f).net = s.net := rfl
@[simp] theorem State.modQp_sig (s : State) (v q : Nat) (f : QPair → QPair) : (s.modQp v q f).sig = s.sig := rfl
@[simp] theorem State.modQp_key (s : State) (v q : Nat) (f : QPair → QPair) : (s.modQp v q f).key = s.key := rfl
@[simp] theorem State.modQp_upd (s : State) (v q : Nat) (f : QPair → QPair) : (s.modQp v q f).upd = s.upd := rfl
@[simp] theorem State.modQp_uds (s : State) (v q : Nat) (f : QPair → QPair) : (s.modQp v q f).uds = s.uds := rfl
@[simp] theorem State.modQp_bus (s : State) (v q : Nat) (f : QPair → QPair) : (s.modQp v q f).bus = s.bus := rfl
@[simp] theorem State.modQp_free (s : State) (v q : Nat) (f : QPair → QPair) : (s.modQp v q f).free = s.free := rfl
@[simp] theorem State.modQp_pending (s : State) (v q : Nat) (f : QPair → QPair) : (s.modQp v q f).pending = s.pending := rfl

@[simp] theorem State.modEswStats_sys (s : State) (f : EswStats → EswStats) : (s.modEswStats f).sys = s.sys := rfl
@[simp] theorem State.modEswStats_mbx (s : State) (f : EswStats → EswStats) : (s.modEswStats f).mbx = s.mbx := rfl
@[simp] theorem State.modEswStats_log (s : State) (f : EswStats → EswStats) : (s.modEswStats f).log = s.log := rfl
@[simp] theorem State.modEswStats_tb (s : State) (f : EswStats → EswStats) : (s.modEswStats f).tb = s.tb := rfl
@[simp] theorem State.modEswStats_vz (s : State) (f : EswStats → EswStats) : (s.modEswStats f).vz = s.vz := rfl
@[simp] theorem State.modEswStats_saf (s : State) (f : EswStats → EswStats) : (s.modEswStats f).saf = s.saf := rfl
@[simp] theorem State.modEswStats_cfg (s : State) (f : EswStats → EswStats) : (s.modEswStats f).cfg = s.cfg := rfl
@[simp] theorem State.modEswStats_ch (s : State) (f : EswStats → EswStats) : (s.modEswStats f).ch = s.ch := rfl
@[simp] theorem State.modEswStats_rfx (s : State) (f : EswStats → EswStats) : (s.modEswStats f).rfx = s.rfx := rfl
@[simp] theorem State.modEswStats_twin (s : State) (f : EswStats → EswStats) : (s.modEswStats f).twin = s.twin := rfl
@[simp] theorem State.modEswStats_brg (s : State) (f : EswStats → EswStats) : (s.modEswStats f).brg = s.brg := rfl
@[simp] theorem State.modEswStats_fio (s : State) (f : EswStats → EswStats) : (s.modEswStats f).fio = s.fio := rfl
@[simp] theorem State.modEswStats_ring (s : State) (f : EswStats → EswStats) : (s.modEswStats f).ring = s.ring := rfl
@[simp] theorem State.modEswStats_net (s : State) (f : EswStats → EswStats) : (s.modEswStats f).net = s.net := rfl
@[simp] theorem State.modEswStats_sig (s : State) (f : EswStats → EswStats) : (s.modEswStats f).sig = s.sig := rfl
@[simp] theorem State.modEswStats_key (s : State) (f : EswStats → EswStats) : (s.modEswStats f).key = s.key := rfl
@[simp] theorem State.modEswStats_upd (s : State) (f : EswStats → EswStats) : (s.modEswStats f).upd = s.upd := rfl
@[simp] theorem State.modEswStats_uds (s : State) (f : EswStats → EswStats) : (s.modEswStats f).uds = s.uds := rfl
@[simp] theorem State.modEswStats_bus (s : State) (f : EswStats → EswStats) : (s.modEswStats f).bus = s.bus := rfl
@[simp] theorem State.modEswStats_free (s : State) (f : EswStats → EswStats) : (s.modEswStats f).free = s.free := rfl
@[simp] theorem State.modEswStats_pending (s : State) (f : EswStats → EswStats) : (s.modEswStats f).pending = s.pending := rfl

@[simp] theorem State.modSwCount_sys (s : State) (p : Nat) (f : EswCounts → EswCounts) : (s.modSwCount p f).sys = s.sys := rfl
@[simp] theorem State.modSwCount_mbx (s : State) (p : Nat) (f : EswCounts → EswCounts) : (s.modSwCount p f).mbx = s.mbx := rfl
@[simp] theorem State.modSwCount_log (s : State) (p : Nat) (f : EswCounts → EswCounts) : (s.modSwCount p f).log = s.log := rfl
@[simp] theorem State.modSwCount_tb (s : State) (p : Nat) (f : EswCounts → EswCounts) : (s.modSwCount p f).tb = s.tb := rfl
@[simp] theorem State.modSwCount_vz (s : State) (p : Nat) (f : EswCounts → EswCounts) : (s.modSwCount p f).vz = s.vz := rfl
@[simp] theorem State.modSwCount_saf (s : State) (p : Nat) (f : EswCounts → EswCounts) : (s.modSwCount p f).saf = s.saf := rfl
@[simp] theorem State.modSwCount_cfg (s : State) (p : Nat) (f : EswCounts → EswCounts) : (s.modSwCount p f).cfg = s.cfg := rfl
@[simp] theorem State.modSwCount_ch (s : State) (p : Nat) (f : EswCounts → EswCounts) : (s.modSwCount p f).ch = s.ch := rfl
@[simp] theorem State.modSwCount_rfx (s : State) (p : Nat) (f : EswCounts → EswCounts) : (s.modSwCount p f).rfx = s.rfx := rfl
@[simp] theorem State.modSwCount_twin (s : State) (p : Nat) (f : EswCounts → EswCounts) : (s.modSwCount p f).twin = s.twin := rfl
@[simp] theorem State.modSwCount_brg (s : State) (p : Nat) (f : EswCounts → EswCounts) : (s.modSwCount p f).brg = s.brg := rfl
@[simp] theorem State.modSwCount_fio (s : State) (p : Nat) (f : EswCounts → EswCounts) : (s.modSwCount p f).fio = s.fio := rfl
@[simp] theorem State.modSwCount_ring (s : State) (p : Nat) (f : EswCounts → EswCounts) : (s.modSwCount p f).ring = s.ring := rfl
@[simp] theorem State.modSwCount_net (s : State) (p : Nat) (f : EswCounts → EswCounts) : (s.modSwCount p f).net = s.net := rfl
@[simp] theorem State.modSwCount_sig (s : State) (p : Nat) (f : EswCounts → EswCounts) : (s.modSwCount p f).sig = s.sig := rfl
@[simp] theorem State.modSwCount_key (s : State) (p : Nat) (f : EswCounts → EswCounts) : (s.modSwCount p f).key = s.key := rfl
@[simp] theorem State.modSwCount_upd (s : State) (p : Nat) (f : EswCounts → EswCounts) : (s.modSwCount p f).upd = s.upd := rfl
@[simp] theorem State.modSwCount_uds (s : State) (p : Nat) (f : EswCounts → EswCounts) : (s.modSwCount p f).uds = s.uds := rfl
@[simp] theorem State.modSwCount_bus (s : State) (p : Nat) (f : EswCounts → EswCounts) : (s.modSwCount p f).bus = s.bus := rfl
@[simp] theorem State.modSwCount_free (s : State) (p : Nat) (f : EswCounts → EswCounts) : (s.modSwCount p f).free = s.free := rfl
@[simp] theorem State.modSwCount_pending (s : State) (p : Nat) (f : EswCounts → EswCounts) : (s.modSwCount p f).pending = s.pending := rfl

@[simp] theorem State.modDi_sys (s : State) (n : Nat) (f : DiInput → DiInput) : (s.modDi n f).sys = s.sys := rfl
@[simp] theorem State.modDi_mbx (s : State) (n : Nat) (f : DiInput → DiInput) : (s.modDi n f).mbx = s.mbx := rfl
@[simp] theorem State.modDi_log (s : State) (n : Nat) (f : DiInput → DiInput) : (s.modDi n f).log = s.log := rfl
@[simp] theorem State.modDi_tb (s : State) (n : Nat) (f : DiInput → DiInput) : (s.modDi n f).tb = s.tb := rfl
@[simp] theorem State.modDi_vz (s : State) (n : Nat) (f : DiInput → DiInput) : (s.modDi n f).vz = s.vz := rfl
@[simp] theorem State.modDi_saf (s : State) (n : Nat) (f : DiInput → DiInput) : (s.modDi n f).saf = s.saf := rfl
@[simp] theorem State.modDi_cfg (s : State) (n : Nat) (f : DiInput → DiInput) : (s.modDi n f).cfg = s.cfg := rfl
@[simp] theorem State.modDi_ch (s : State) (n : Nat) (f : DiInput → DiInput) : (s.modDi n f).ch = s.ch := rfl
@[simp] theorem State.modDi_rfx (s : State) (n : Nat) (f : DiInput → DiInput) : (s.modDi n f).rfx = s.rfx := rfl
@[simp] theorem State.modDi_twin (s : State) (n : Nat) (f : DiInput → DiInput) : (s.modDi n f).twin = s.twin := rfl
@[simp] theorem State.modDi_brg (s : State) (n : Nat) (f : DiInput → DiInput) : (s.modDi n f).brg = s.brg := rfl
@[simp] theorem State.modDi_ring (s : State) (n : Nat) (f : DiInput → DiInput) : (s.modDi n f).ring = s.ring := rfl
@[simp] theorem State.modDi_esw (s : State) (n : Nat) (f : DiInput → DiInput) : (s.modDi n f).esw = s.esw := rfl
@[simp] theorem State.modDi_net (s : State) (n : Nat) (f : DiInput → DiInput) : (s.modDi n f).net = s.net := rfl
@[simp] theorem State.modDi_sig (s : State) (n : Nat) (f : DiInput → DiInput) : (s.modDi n f).sig = s.sig := rfl
@[simp] theorem State.modDi_key (s : State) (n : Nat) (f : DiInput → DiInput) : (s.modDi n f).key = s.key := rfl
@[simp] theorem State.modDi_upd (s : State) (n : Nat) (f : DiInput → DiInput) : (s.modDi n f).upd = s.upd := rfl
@[simp] theorem State.modDi_uds (s : State) (n : Nat) (f : DiInput → DiInput) : (s.modDi n f).uds = s.uds := rfl
@[simp] theorem State.modDi_bus (s : State) (n : Nat) (f : DiInput → DiInput) : (s.modDi n f).bus = s.bus := rfl
@[simp] theorem State.modDi_free (s : State) (n : Nat) (f : DiInput → DiInput) : (s.modDi n f).free = s.free := rfl
@[simp] theorem State.modDi_pending (s : State) (n : Nat) (f : DiInput → DiInput) : (s.modDi n f).pending = s.pending := rfl
@[simp] theorem State.modDi_same (s : State) (n : Nat) (f : DiInput → DiInput) : (s.modDi n f).diInput n = f (s.diInput n) := by
  apply Tbl.getD_modify_same
theorem State.modDi_other (s : State) (n : Nat) (f : DiInput → DiInput) (other : Nat) (h : other ≠ n) : (s.modDi n f).diInput other = s.diInput other := by
  apply Tbl.getD_modify_other _ _ _ _ _ h

@[simp] theorem State.modSup_sys (s : State) (k : Nat) (f : SupState → SupState) : (s.modSup k f).sys = s.sys := rfl
@[simp] theorem State.modSup_mbx (s : State) (k : Nat) (f : SupState → SupState) : (s.modSup k f).mbx = s.mbx := rfl
@[simp] theorem State.modSup_log (s : State) (k : Nat) (f : SupState → SupState) : (s.modSup k f).log = s.log := rfl
@[simp] theorem State.modSup_tb (s : State) (k : Nat) (f : SupState → SupState) : (s.modSup k f).tb = s.tb := rfl
@[simp] theorem State.modSup_vz (s : State) (k : Nat) (f : SupState → SupState) : (s.modSup k f).vz = s.vz := rfl
@[simp] theorem State.modSup_saf (s : State) (k : Nat) (f : SupState → SupState) : (s.modSup k f).saf = s.saf := rfl
@[simp] theorem State.modSup_cfg (s : State) (k : Nat) (f : SupState → SupState) : (s.modSup k f).cfg = s.cfg := rfl
@[simp] theorem State.modSup_ch (s : State) (k : Nat) (f : SupState → SupState) : (s.modSup k f).ch = s.ch := rfl
@[simp] theorem State.modSup_rfx (s : State) (k : Nat) (f : SupState → SupState) : (s.modSup k f).rfx = s.rfx := rfl
@[simp] theorem State.modSup_twin (s : State) (k : Nat) (f : SupState → SupState) : (s.modSup k f).twin = s.twin := rfl
@[simp] theorem State.modSup_brg (s : State) (k : Nat) (f : SupState → SupState) : (s.modSup k f).brg = s.brg := rfl
@[simp] theorem State.modSup_ring (s : State) (k : Nat) (f : SupState → SupState) : (s.modSup k f).ring = s.ring := rfl
@[simp] theorem State.modSup_esw (s : State) (k : Nat) (f : SupState → SupState) : (s.modSup k f).esw = s.esw := rfl
@[simp] theorem State.modSup_net (s : State) (k : Nat) (f : SupState → SupState) : (s.modSup k f).net = s.net := rfl
@[simp] theorem State.modSup_sig (s : State) (k : Nat) (f : SupState → SupState) : (s.modSup k f).sig = s.sig := rfl
@[simp] theorem State.modSup_key (s : State) (k : Nat) (f : SupState → SupState) : (s.modSup k f).key = s.key := rfl
@[simp] theorem State.modSup_upd (s : State) (k : Nat) (f : SupState → SupState) : (s.modSup k f).upd = s.upd := rfl
@[simp] theorem State.modSup_uds (s : State) (k : Nat) (f : SupState → SupState) : (s.modSup k f).uds = s.uds := rfl
@[simp] theorem State.modSup_bus (s : State) (k : Nat) (f : SupState → SupState) : (s.modSup k f).bus = s.bus := rfl
@[simp] theorem State.modSup_free (s : State) (k : Nat) (f : SupState → SupState) : (s.modSup k f).free = s.free := rfl
@[simp] theorem State.modSup_pending (s : State) (k : Nat) (f : SupState → SupState) : (s.modSup k f).pending = s.pending := rfl
@[simp] theorem State.modSup_same (s : State) (k : Nat) (f : SupState → SupState) : (s.modSup k f).sup k = f (s.sup k) := by
  apply Tbl.getD_modify_same
theorem State.modSup_other (s : State) (k : Nat) (f : SupState → SupState) (other : Nat) (h : other ≠ k) : (s.modSup k f).sup other = s.sup other := by
  apply Tbl.getD_modify_other _ _ _ _ _ h

@[simp] theorem State.modSlot_sys (s : State) (v : Nat) (f : XSlot → XSlot) : (s.modSlot v f).sys = s.sys := rfl
@[simp] theorem State.modSlot_mbx (s : State) (v : Nat) (f : XSlot → XSlot) : (s.modSlot v f).mbx = s.mbx := rfl
@[simp] theorem State.modSlot_log (s : State) (v : Nat) (f : XSlot → XSlot) : (s.modSlot v f).log = s.log := rfl
@[simp] theorem State.modSlot_tb (s : State) (v : Nat) (f : XSlot → XSlot) : (s.modSlot v f).tb = s.tb := rfl
@[simp] theorem State.modSlot_vz (s : State) (v : Nat) (f : XSlot → XSlot) : (s.modSlot v f).vz = s.vz := rfl
@[simp] theorem State.modSlot_saf (s : State) (v : Nat) (f : XSlot → XSlot) : (s.modSlot v f).saf = s.saf := rfl
@[simp] theorem State.modSlot_cfg (s : State) (v : Nat) (f : XSlot → XSlot) : (s.modSlot v f).cfg = s.cfg := rfl
@[simp] theorem State.modSlot_ch (s : State) (v : Nat) (f : XSlot → XSlot) : (s.modSlot v f).ch = s.ch := rfl
@[simp] theorem State.modSlot_rfx (s : State) (v : Nat) (f : XSlot → XSlot) : (s.modSlot v f).rfx = s.rfx := rfl
@[simp] theorem State.modSlot_twin (s : State) (v : Nat) (f : XSlot → XSlot) : (s.modSlot v f).twin = s.twin := rfl
@[simp] theorem State.modSlot_brg (s : State) (v : Nat) (f : XSlot → XSlot) : (s.modSlot v f).brg = s.brg := rfl
@[simp] theorem State.modSlot_ring (s : State) (v : Nat) (f : XSlot → XSlot) : (s.modSlot v f).ring = s.ring := rfl
@[simp] theorem State.modSlot_esw (s : State) (v : Nat) (f : XSlot → XSlot) : (s.modSlot v f).esw = s.esw := rfl
@[simp] theorem State.modSlot_net (s : State) (v : Nat) (f : XSlot → XSlot) : (s.modSlot v f).net = s.net := rfl
@[simp] theorem State.modSlot_sig (s : State) (v : Nat) (f : XSlot → XSlot) : (s.modSlot v f).sig = s.sig := rfl
@[simp] theorem State.modSlot_key (s : State) (v : Nat) (f : XSlot → XSlot) : (s.modSlot v f).key = s.key := rfl
@[simp] theorem State.modSlot_upd (s : State) (v : Nat) (f : XSlot → XSlot) : (s.modSlot v f).upd = s.upd := rfl
@[simp] theorem State.modSlot_uds (s : State) (v : Nat) (f : XSlot → XSlot) : (s.modSlot v f).uds = s.uds := rfl
@[simp] theorem State.modSlot_bus (s : State) (v : Nat) (f : XSlot → XSlot) : (s.modSlot v f).bus = s.bus := rfl
@[simp] theorem State.modSlot_free (s : State) (v : Nat) (f : XSlot → XSlot) : (s.modSlot v f).free = s.free := rfl
@[simp] theorem State.modSlot_pending (s : State) (v : Nat) (f : XSlot → XSlot) : (s.modSlot v f).pending = s.pending := rfl
@[simp] theorem State.modSlot_same (s : State) (v : Nat) (f : XSlot → XSlot) : (s.modSlot v f).xSlot v = f (s.xSlot v) := by
  apply Tbl.getD_modify_same
theorem State.modSlot_other (s : State) (v : Nat) (f : XSlot → XSlot) (other : Nat) (h : other ≠ v) : (s.modSlot v f).xSlot other = s.xSlot other := by
  apply Tbl.getD_modify_other _ _ _ _ _ h

@[simp] theorem State.modPort_sys (s : State) (n : Nat) (f : Port → Port) : (s.modPort n f).sys = s.sys := by unfold State.modPort; split <;> rfl
@[simp] theorem State.modPort_log (s : State) (n : Nat) (f : Port → Port) : (s.modPort n f).log = s.log := by unfold State.modPort; split <;> rfl
@[simp] theorem State.modPort_tb (s : State) (n : Nat) (f : Port → Port) : (s.modPort n f).tb = s.tb := by unfold State.modPort; split <;> rfl
@[simp] theorem State.modPort_saf (s : State) (n : Nat) (f : Port → Port) : (s.modPort n f).saf = s.saf := by unfold State.modPort; split <;> rfl
@[simp] theorem State.modPort_cfg (s : State) (n : Nat) (f : Port → Port) : (s.modPort n f).cfg = s.cfg := by unfold State.modPort; split <;> rfl
@[simp] theorem State.modPort_ch (s : State) (n : Nat) (f : Port → Port) : (s.modPort n f).ch = s.ch := by unfold State.modPort; split <;> rfl
@[simp] theorem State.modPort_rfx (s : State) (n : Nat) (f : Port → Port) : (s.modPort n f).rfx = s.rfx := by unfold State.modPort; split <;> rfl
@[simp] theorem State.modPort_twin (s : State) (n : Nat) (f : Port → Port) : (s.modPort n f).twin = s.twin := by unfold State.modPort; split <;> rfl
@[simp] theorem State.modPort_brg (s : State) (n : Nat) (f : Port → Port) : (s.modPort n f).brg = s.brg := by unfold State.modPort; split <;> rfl
@[simp] theorem State.modPort_fio (s : State) (n : Nat) (f : Port → Port) : (s.modPort n f).fio = s.fio := by unfold State.modPort; split <;> rfl
@[simp] theorem State.modPort_ring (s : State) (n : Nat) (f : Port → Port) : (s.modPort n f).ring = s.ring := by unfold State.modPort; split <;> rfl
@[simp] theorem State.modPort_esw (s : State) (n : Nat) (f : Port → Port) : (s.modPort n f).esw = s.esw := by unfold State.modPort; split <;> rfl
@[simp] theorem State.modPort_net (s : State) (n : Nat) (f : Port → Port) : (s.modPort n f).net = s.net := by unfold State.modPort; split <;> rfl
@[simp] theorem State.modPort_sig (s : State) (n : Nat) (f : Port → Port) : (s.modPort n f).sig = s.sig := by unfold State.modPort; split <;> rfl
@[simp] theorem State.modPort_key (s : State) (n : Nat) (f : Port → Port) : (s.modPort n f).key = s.key := by unfold State.modPort; split <;> rfl
@[simp] theorem State.modPort_upd (s : State) (n : Nat) (f : Port → Port) : (s.modPort n f).upd = s.upd := by unfold State.modPort; split <;> rfl
@[simp] theorem State.modPort_uds (s : State) (n : Nat) (f : Port → Port) : (s.modPort n f).uds = s.uds := by unfold State.modPort; split <;> rfl
@[simp] theorem State.modPort_bus (s : State) (n : Nat) (f : Port → Port) : (s.modPort n f).bus = s.bus := by unfold State.modPort; split <;> rfl
@[simp] theorem State.modPort_free (s : State) (n : Nat) (f : Port → Port) : (s.modPort n f).free = s.free := by unfold State.modPort; split <;> rfl
@[simp] theorem State.modPort_pending (s : State) (n : Nat) (f : Port → Port) : (s.modPort n f).pending = s.pending := by unfold State.modPort; split <;> rfl

@[simp] theorem State.draw_sys (s : State) : (s.draw).sys = s.sys := rfl
@[simp] theorem State.draw_mbx (s : State) : (s.draw).mbx = s.mbx := rfl
@[simp] theorem State.draw_log (s : State) : (s.draw).log = s.log := rfl
@[simp] theorem State.draw_tb (s : State) : (s.draw).tb = s.tb := rfl
@[simp] theorem State.draw_vz (s : State) : (s.draw).vz = s.vz := rfl
@[simp] theorem State.draw_saf (s : State) : (s.draw).saf = s.saf := rfl
@[simp] theorem State.draw_cfg (s : State) : (s.draw).cfg = s.cfg := rfl
@[simp] theorem State.draw_ch (s : State) : (s.draw).ch = s.ch := rfl
@[simp] theorem State.draw_rfx (s : State) : (s.draw).rfx = s.rfx := rfl
@[simp] theorem State.draw_twin (s : State) : (s.draw).twin = s.twin := rfl
@[simp] theorem State.draw_brg (s : State) : (s.draw).brg = s.brg := rfl
@[simp] theorem State.draw_fio (s : State) : (s.draw).fio = s.fio := rfl
@[simp] theorem State.draw_ring (s : State) : (s.draw).ring = s.ring := rfl
@[simp] theorem State.draw_esw (s : State) : (s.draw).esw = s.esw := rfl
@[simp] theorem State.draw_net (s : State) : (s.draw).net = s.net := rfl
@[simp] theorem State.draw_sig (s : State) : (s.draw).sig = s.sig := rfl
@[simp] theorem State.draw_key (s : State) : (s.draw).key = s.key := rfl
@[simp] theorem State.draw_upd (s : State) : (s.draw).upd = s.upd := rfl
@[simp] theorem State.draw_uds (s : State) : (s.draw).uds = s.uds := rfl
@[simp] theorem State.draw_bus (s : State) : (s.draw).bus = s.bus := rfl
@[simp] theorem State.draw_pending (s : State) : (s.draw).pending = s.pending := rfl

@[simp] theorem State.modStream_sys (s : State) (n : Nat) (f : PrsStream → PrsStream) : (s.modStream n f).sys = s.sys := rfl
@[simp] theorem State.modStream_mbx (s : State) (n : Nat) (f : PrsStream → PrsStream) : (s.modStream n f).mbx = s.mbx := rfl
@[simp] theorem State.modStream_log (s : State) (n : Nat) (f : PrsStream → PrsStream) : (s.modStream n f).log = s.log := rfl
@[simp] theorem State.modStream_tb (s : State) (n : Nat) (f : PrsStream → PrsStream) : (s.modStream n f).tb = s.tb := rfl
@[simp] theorem State.modStream_vz (s : State) (n : Nat) (f : PrsStream → PrsStream) : (s.modStream n f).vz = s.vz := rfl
@[simp] theorem State.modStream_saf (s : State) (n : Nat) (f : PrsStream → PrsStream) : (s.modStream n f).saf = s.saf := rfl
@[simp] theorem State.modStream_cfg (s : State) (n : Nat) (f : PrsStream → PrsStream) : (s.modStream n f).cfg = s.cfg := rfl
@[simp] theorem State.modStream_ch (s : State) (n : Nat) (f : PrsStream → PrsStream) : (s.modStream n f).ch = s.ch := rfl
@[simp] theorem State.modStream_rfx (s : State) (n : Nat) (f : PrsStream → PrsStream) : (s.modStream n f).rfx = s.rfx := rfl
@[simp] theorem State.modStream_twin (s : State) (n : Nat) (f : PrsStream → PrsStream) : (s.modStream n f).twin = s.twin := rfl
@[simp] theorem State.modStream_brg (s : State) (n : Nat) (f : PrsStream → PrsStream) : (s.modStream n f).brg = s.brg := rfl
@[simp] theorem State.modStream_fio (s : State) (n : Nat) (f : PrsStream → PrsStream) : (s.modStream n f).fio = s.fio := rfl
@[simp] theorem State.modStream_ring (s : State) (n : Nat) (f : PrsStream → PrsStream) : (s.modStream n f).ring = s.ring := rfl
@[simp] theorem State.modStream_esw (s : State) (n : Nat) (f : PrsStream → PrsStream) : (s.modStream n f).esw = s.esw := rfl
@[simp] theorem State.modStream_net (s : State) (n : Nat) (f : PrsStream → PrsStream) : (s.modStream n f).net = s.net := rfl
@[simp] theorem State.modStream_key (s : State) (n : Nat) (f : PrsStream → PrsStream) : (s.modStream n f).key = s.key := rfl
@[simp] theorem State.modStream_upd (s : State) (n : Nat) (f : PrsStream → PrsStream) : (s.modStream n f).upd = s.upd := rfl
@[simp] theorem State.modStream_uds (s : State) (n : Nat) (f : PrsStream → PrsStream) : (s.modStream n f).uds = s.uds := rfl
@[simp] theorem State.modStream_bus (s : State) (n : Nat) (f : PrsStream → PrsStream) : (s.modStream n f).bus = s.bus := rfl
@[simp] theorem State.modStream_free (s : State) (n : Nat) (f : PrsStream → PrsStream) : (s.modStream n f).free = s.free := rfl
@[simp] theorem State.modStream_pending (s : State) (n : Nat) (f : PrsStream → PrsStream) : (s.modStream n f).pending = s.pending := rfl
@[simp] theorem State.modStream_same (s : State) (n : Nat) (f : PrsStream → PrsStream) : (s.modStream n f).stream n = f (s.stream n) := by
  apply Tbl.getD_modify_same
theorem State.modStream_other (s : State) (n : Nat) (f : PrsStream → PrsStream) (other : Nat) (h : other ≠ n) : (s.modStream n f).stream other = s.stream other := by
  apply Tbl.getD_modify_other _ _ _ _ _ h

@[simp] theorem State.modRule_sys (s : State) (n : Nat) (f : RuleRun → RuleRun) : (s.modRule n f).sys = s.sys := rfl
@[simp] theorem State.modRule_mbx (s : State) (n : Nat) (f : RuleRun → RuleRun) : (s.modRule n f).mbx = s.mbx := rfl
@[simp] theorem State.modRule_log (s : State) (n : Nat) (f : RuleRun → RuleRun) : (s.modRule n f).log = s.log := rfl
@[simp] theorem State.modRule_tb (s : State) (n : Nat) (f : RuleRun → RuleRun) : (s.modRule n f).tb = s.tb := rfl
@[simp] theorem State.modRule_vz (s : State) (n : Nat) (f : RuleRun → RuleRun) : (s.modRule n f).vz = s.vz := rfl
@[simp] theorem State.modRule_saf (s : State) (n : Nat) (f : RuleRun → RuleRun) : (s.modRule n f).saf = s.saf := rfl
@[simp] theorem State.modRule_cfg (s : State) (n : Nat) (f : RuleRun → RuleRun) : (s.modRule n f).cfg = s.cfg := rfl
@[simp] theorem State.modRule_ch (s : State) (n : Nat) (f : RuleRun → RuleRun) : (s.modRule n f).ch = s.ch := rfl
@[simp] theorem State.modRule_twin (s : State) (n : Nat) (f : RuleRun → RuleRun) : (s.modRule n f).twin = s.twin := rfl
@[simp] theorem State.modRule_brg (s : State) (n : Nat) (f : RuleRun → RuleRun) : (s.modRule n f).brg = s.brg := rfl
@[simp] theorem State.modRule_fio (s : State) (n : Nat) (f : RuleRun → RuleRun) : (s.modRule n f).fio = s.fio := rfl
@[simp] theorem State.modRule_ring (s : State) (n : Nat) (f : RuleRun → RuleRun) : (s.modRule n f).ring = s.ring := rfl
@[simp] theorem State.modRule_esw (s : State) (n : Nat) (f : RuleRun → RuleRun) : (s.modRule n f).esw = s.esw := rfl
@[simp] theorem State.modRule_net (s : State) (n : Nat) (f : RuleRun → RuleRun) : (s.modRule n f).net = s.net := rfl
@[simp] theorem State.modRule_sig (s : State) (n : Nat) (f : RuleRun → RuleRun) : (s.modRule n f).sig = s.sig := rfl
@[simp] theorem State.modRule_key (s : State) (n : Nat) (f : RuleRun → RuleRun) : (s.modRule n f).key = s.key := rfl
@[simp] theorem State.modRule_upd (s : State) (n : Nat) (f : RuleRun → RuleRun) : (s.modRule n f).upd = s.upd := rfl
@[simp] theorem State.modRule_uds (s : State) (n : Nat) (f : RuleRun → RuleRun) : (s.modRule n f).uds = s.uds := rfl
@[simp] theorem State.modRule_bus (s : State) (n : Nat) (f : RuleRun → RuleRun) : (s.modRule n f).bus = s.bus := rfl
@[simp] theorem State.modRule_free (s : State) (n : Nat) (f : RuleRun → RuleRun) : (s.modRule n f).free = s.free := rfl
@[simp] theorem State.modRule_pending (s : State) (n : Nat) (f : RuleRun → RuleRun) : (s.modRule n f).pending = s.pending := rfl
@[simp] theorem State.modRule_same (s : State) (n : Nat) (f : RuleRun → RuleRun) : (s.modRule n f).rule n = f (s.rule n) := by
  apply Tbl.getD_modify_same
theorem State.modRule_other (s : State) (n : Nat) (f : RuleRun → RuleRun) (other : Nat) (h : other ≠ n) : (s.modRule n f).rule other = s.rule other := by
  apply Tbl.getD_modify_other _ _ _ _ _ h

@[simp] theorem State.modRing_sys (s : State) (f : RingState → RingState) : (s.modRing f).sys = s.sys := rfl
@[simp] theorem State.modRing_mbx (s : State) (f : RingState → RingState) : (s.modRing f).mbx = s.mbx := rfl
@[simp] theorem State.modRing_log (s : State) (f : RingState → RingState) : (s.modRing f).log = s.log := rfl
@[simp] theorem State.modRing_tb (s : State) (f : RingState → RingState) : (s.modRing f).tb = s.tb := rfl
@[simp] theorem State.modRing_vz (s : State) (f : RingState → RingState) : (s.modRing f).vz = s.vz := rfl
@[simp] theorem State.modRing_saf (s : State) (f : RingState → RingState) : (s.modRing f).saf = s.saf := rfl
@[simp] theorem State.modRing_cfg (s : State) (f : RingState → RingState) : (s.modRing f).cfg = s.cfg := rfl
@[simp] theorem State.modRing_ch (s : State) (f : RingState → RingState) : (s.modRing f).ch = s.ch := rfl
@[simp] theorem State.modRing_rfx (s : State) (f : RingState → RingState) : (s.modRing f).rfx = s.rfx := rfl
@[simp] theorem State.modRing_twin (s : State) (f : RingState → RingState) : (s.modRing f).twin = s.twin := rfl
@[simp] theorem State.modRing_brg (s : State) (f : RingState → RingState) : (s.modRing f).brg = s.brg := rfl
@[simp] theorem State.modRing_fio (s : State) (f : RingState → RingState) : (s.modRing f).fio = s.fio := rfl
@[simp] theorem State.modRing_esw (s : State) (f : RingState → RingState) : (s.modRing f).esw = s.esw := rfl
@[simp] theorem State.modRing_net (s : State) (f : RingState → RingState) : (s.modRing f).net = s.net := rfl
@[simp] theorem State.modRing_sig (s : State) (f : RingState → RingState) : (s.modRing f).sig = s.sig := rfl
@[simp] theorem State.modRing_key (s : State) (f : RingState → RingState) : (s.modRing f).key = s.key := rfl
@[simp] theorem State.modRing_upd (s : State) (f : RingState → RingState) : (s.modRing f).upd = s.upd := rfl
@[simp] theorem State.modRing_uds (s : State) (f : RingState → RingState) : (s.modRing f).uds = s.uds := rfl
@[simp] theorem State.modRing_bus (s : State) (f : RingState → RingState) : (s.modRing f).bus = s.bus := rfl
@[simp] theorem State.modRing_free (s : State) (f : RingState → RingState) : (s.modRing f).free = s.free := rfl
@[simp] theorem State.modRing_pending (s : State) (f : RingState → RingState) : (s.modRing f).pending = s.pending := rfl

@[simp] theorem State.modLink_sys (s : State) (p : Nat) (f : RingPort → RingPort) : (s.modLink p f).sys = s.sys := rfl
@[simp] theorem State.modLink_mbx (s : State) (p : Nat) (f : RingPort → RingPort) : (s.modLink p f).mbx = s.mbx := rfl
@[simp] theorem State.modLink_log (s : State) (p : Nat) (f : RingPort → RingPort) : (s.modLink p f).log = s.log := rfl
@[simp] theorem State.modLink_tb (s : State) (p : Nat) (f : RingPort → RingPort) : (s.modLink p f).tb = s.tb := rfl
@[simp] theorem State.modLink_vz (s : State) (p : Nat) (f : RingPort → RingPort) : (s.modLink p f).vz = s.vz := rfl
@[simp] theorem State.modLink_saf (s : State) (p : Nat) (f : RingPort → RingPort) : (s.modLink p f).saf = s.saf := rfl
@[simp] theorem State.modLink_cfg (s : State) (p : Nat) (f : RingPort → RingPort) : (s.modLink p f).cfg = s.cfg := rfl
@[simp] theorem State.modLink_ch (s : State) (p : Nat) (f : RingPort → RingPort) : (s.modLink p f).ch = s.ch := rfl
@[simp] theorem State.modLink_rfx (s : State) (p : Nat) (f : RingPort → RingPort) : (s.modLink p f).rfx = s.rfx := rfl
@[simp] theorem State.modLink_twin (s : State) (p : Nat) (f : RingPort → RingPort) : (s.modLink p f).twin = s.twin := rfl
@[simp] theorem State.modLink_brg (s : State) (p : Nat) (f : RingPort → RingPort) : (s.modLink p f).brg = s.brg := rfl
@[simp] theorem State.modLink_fio (s : State) (p : Nat) (f : RingPort → RingPort) : (s.modLink p f).fio = s.fio := rfl
@[simp] theorem State.modLink_esw (s : State) (p : Nat) (f : RingPort → RingPort) : (s.modLink p f).esw = s.esw := rfl
@[simp] theorem State.modLink_net (s : State) (p : Nat) (f : RingPort → RingPort) : (s.modLink p f).net = s.net := rfl
@[simp] theorem State.modLink_sig (s : State) (p : Nat) (f : RingPort → RingPort) : (s.modLink p f).sig = s.sig := rfl
@[simp] theorem State.modLink_key (s : State) (p : Nat) (f : RingPort → RingPort) : (s.modLink p f).key = s.key := rfl
@[simp] theorem State.modLink_upd (s : State) (p : Nat) (f : RingPort → RingPort) : (s.modLink p f).upd = s.upd := rfl
@[simp] theorem State.modLink_uds (s : State) (p : Nat) (f : RingPort → RingPort) : (s.modLink p f).uds = s.uds := rfl
@[simp] theorem State.modLink_bus (s : State) (p : Nat) (f : RingPort → RingPort) : (s.modLink p f).bus = s.bus := rfl
@[simp] theorem State.modLink_free (s : State) (p : Nat) (f : RingPort → RingPort) : (s.modLink p f).free = s.free := rfl
@[simp] theorem State.modLink_pending (s : State) (p : Nat) (f : RingPort → RingPort) : (s.modLink p f).pending = s.pending := rfl

@[simp] theorem State.modCount_sys (s : State) (p : Nat) (f : RingCounters → RingCounters) : (s.modCount p f).sys = s.sys := rfl
@[simp] theorem State.modCount_mbx (s : State) (p : Nat) (f : RingCounters → RingCounters) : (s.modCount p f).mbx = s.mbx := rfl
@[simp] theorem State.modCount_log (s : State) (p : Nat) (f : RingCounters → RingCounters) : (s.modCount p f).log = s.log := rfl
@[simp] theorem State.modCount_tb (s : State) (p : Nat) (f : RingCounters → RingCounters) : (s.modCount p f).tb = s.tb := rfl
@[simp] theorem State.modCount_vz (s : State) (p : Nat) (f : RingCounters → RingCounters) : (s.modCount p f).vz = s.vz := rfl
@[simp] theorem State.modCount_saf (s : State) (p : Nat) (f : RingCounters → RingCounters) : (s.modCount p f).saf = s.saf := rfl
@[simp] theorem State.modCount_cfg (s : State) (p : Nat) (f : RingCounters → RingCounters) : (s.modCount p f).cfg = s.cfg := rfl
@[simp] theorem State.modCount_ch (s : State) (p : Nat) (f : RingCounters → RingCounters) : (s.modCount p f).ch = s.ch := rfl
@[simp] theorem State.modCount_rfx (s : State) (p : Nat) (f : RingCounters → RingCounters) : (s.modCount p f).rfx = s.rfx := rfl
@[simp] theorem State.modCount_twin (s : State) (p : Nat) (f : RingCounters → RingCounters) : (s.modCount p f).twin = s.twin := rfl
@[simp] theorem State.modCount_brg (s : State) (p : Nat) (f : RingCounters → RingCounters) : (s.modCount p f).brg = s.brg := rfl
@[simp] theorem State.modCount_fio (s : State) (p : Nat) (f : RingCounters → RingCounters) : (s.modCount p f).fio = s.fio := rfl
@[simp] theorem State.modCount_esw (s : State) (p : Nat) (f : RingCounters → RingCounters) : (s.modCount p f).esw = s.esw := rfl
@[simp] theorem State.modCount_net (s : State) (p : Nat) (f : RingCounters → RingCounters) : (s.modCount p f).net = s.net := rfl
@[simp] theorem State.modCount_sig (s : State) (p : Nat) (f : RingCounters → RingCounters) : (s.modCount p f).sig = s.sig := rfl
@[simp] theorem State.modCount_key (s : State) (p : Nat) (f : RingCounters → RingCounters) : (s.modCount p f).key = s.key := rfl
@[simp] theorem State.modCount_upd (s : State) (p : Nat) (f : RingCounters → RingCounters) : (s.modCount p f).upd = s.upd := rfl
@[simp] theorem State.modCount_uds (s : State) (p : Nat) (f : RingCounters → RingCounters) : (s.modCount p f).uds = s.uds := rfl
@[simp] theorem State.modCount_bus (s : State) (p : Nat) (f : RingCounters → RingCounters) : (s.modCount p f).bus = s.bus := rfl
@[simp] theorem State.modCount_free (s : State) (p : Nat) (f : RingCounters → RingCounters) : (s.modCount p f).free = s.free := rfl
@[simp] theorem State.modCount_pending (s : State) (p : Nat) (f : RingCounters → RingCounters) : (s.modCount p f).pending = s.pending := rfl

@[simp] theorem State.modPair_sys (s : State) (p : Nat) (f : Pair → Pair) : (s.modPair p f).sys = s.sys := rfl
@[simp] theorem State.modPair_mbx (s : State) (p : Nat) (f : Pair → Pair) : (s.modPair p f).mbx = s.mbx := rfl
@[simp] theorem State.modPair_log (s : State) (p : Nat) (f : Pair → Pair) : (s.modPair p f).log = s.log := rfl
@[simp] theorem State.modPair_tb (s : State) (p : Nat) (f : Pair → Pair) : (s.modPair p f).tb = s.tb := rfl
@[simp] theorem State.modPair_vz (s : State) (p : Nat) (f : Pair → Pair) : (s.modPair p f).vz = s.vz := rfl
@[simp] theorem State.modPair_cfg (s : State) (p : Nat) (f : Pair → Pair) : (s.modPair p f).cfg = s.cfg := rfl
@[simp] theorem State.modPair_ch (s : State) (p : Nat) (f : Pair → Pair) : (s.modPair p f).ch = s.ch := rfl
@[simp] theorem State.modPair_rfx (s : State) (p : Nat) (f : Pair → Pair) : (s.modPair p f).rfx = s.rfx := rfl
@[simp] theorem State.modPair_twin (s : State) (p : Nat) (f : Pair → Pair) : (s.modPair p f).twin = s.twin := rfl
@[simp] theorem State.modPair_brg (s : State) (p : Nat) (f : Pair → Pair) : (s.modPair p f).brg = s.brg := rfl
@[simp] theorem State.modPair_fio (s : State) (p : Nat) (f : Pair → Pair) : (s.modPair p f).fio = s.fio := rfl
@[simp] theorem State.modPair_ring (s : State) (p : Nat) (f : Pair → Pair) : (s.modPair p f).ring = s.ring := rfl
@[simp] theorem State.modPair_esw (s : State) (p : Nat) (f : Pair → Pair) : (s.modPair p f).esw = s.esw := rfl
@[simp] theorem State.modPair_net (s : State) (p : Nat) (f : Pair → Pair) : (s.modPair p f).net = s.net := rfl
@[simp] theorem State.modPair_sig (s : State) (p : Nat) (f : Pair → Pair) : (s.modPair p f).sig = s.sig := rfl
@[simp] theorem State.modPair_key (s : State) (p : Nat) (f : Pair → Pair) : (s.modPair p f).key = s.key := rfl
@[simp] theorem State.modPair_upd (s : State) (p : Nat) (f : Pair → Pair) : (s.modPair p f).upd = s.upd := rfl
@[simp] theorem State.modPair_uds (s : State) (p : Nat) (f : Pair → Pair) : (s.modPair p f).uds = s.uds := rfl
@[simp] theorem State.modPair_bus (s : State) (p : Nat) (f : Pair → Pair) : (s.modPair p f).bus = s.bus := rfl
@[simp] theorem State.modPair_free (s : State) (p : Nat) (f : Pair → Pair) : (s.modPair p f).free = s.free := rfl
@[simp] theorem State.modPair_pending (s : State) (p : Nat) (f : Pair → Pair) : (s.modPair p f).pending = s.pending := rfl
@[simp] theorem State.modPair_same (s : State) (p : Nat) (f : Pair → Pair) : (s.modPair p f).pair p = f (s.pair p) := by
  apply Tbl.getD_modify_same
theorem State.modPair_other (s : State) (p : Nat) (f : Pair → Pair) (other : Nat) (h : other ≠ p) : (s.modPair p f).pair other = s.pair other := by
  apply Tbl.getD_modify_other _ _ _ _ _ h

@[simp] theorem State.modSig_sys (s : State) (f : SigState → SigState) : (s.modSig f).sys = s.sys := rfl
@[simp] theorem State.modSig_mbx (s : State) (f : SigState → SigState) : (s.modSig f).mbx = s.mbx := rfl
@[simp] theorem State.modSig_log (s : State) (f : SigState → SigState) : (s.modSig f).log = s.log := rfl
@[simp] theorem State.modSig_tb (s : State) (f : SigState → SigState) : (s.modSig f).tb = s.tb := rfl
@[simp] theorem State.modSig_vz (s : State) (f : SigState → SigState) : (s.modSig f).vz = s.vz := rfl
@[simp] theorem State.modSig_saf (s : State) (f : SigState → SigState) : (s.modSig f).saf = s.saf := rfl
@[simp] theorem State.modSig_cfg (s : State) (f : SigState → SigState) : (s.modSig f).cfg = s.cfg := rfl
@[simp] theorem State.modSig_ch (s : State) (f : SigState → SigState) : (s.modSig f).ch = s.ch := rfl
@[simp] theorem State.modSig_rfx (s : State) (f : SigState → SigState) : (s.modSig f).rfx = s.rfx := rfl
@[simp] theorem State.modSig_twin (s : State) (f : SigState → SigState) : (s.modSig f).twin = s.twin := rfl
@[simp] theorem State.modSig_brg (s : State) (f : SigState → SigState) : (s.modSig f).brg = s.brg := rfl
@[simp] theorem State.modSig_fio (s : State) (f : SigState → SigState) : (s.modSig f).fio = s.fio := rfl
@[simp] theorem State.modSig_ring (s : State) (f : SigState → SigState) : (s.modSig f).ring = s.ring := rfl
@[simp] theorem State.modSig_esw (s : State) (f : SigState → SigState) : (s.modSig f).esw = s.esw := rfl
@[simp] theorem State.modSig_net (s : State) (f : SigState → SigState) : (s.modSig f).net = s.net := rfl
@[simp] theorem State.modSig_key (s : State) (f : SigState → SigState) : (s.modSig f).key = s.key := rfl
@[simp] theorem State.modSig_upd (s : State) (f : SigState → SigState) : (s.modSig f).upd = s.upd := rfl
@[simp] theorem State.modSig_uds (s : State) (f : SigState → SigState) : (s.modSig f).uds = s.uds := rfl
@[simp] theorem State.modSig_bus (s : State) (f : SigState → SigState) : (s.modSig f).bus = s.bus := rfl
@[simp] theorem State.modSig_free (s : State) (f : SigState → SigState) : (s.modSig f).free = s.free := rfl
@[simp] theorem State.modSig_pending (s : State) (f : SigState → SigState) : (s.modSig f).pending = s.pending := rfl

@[simp] theorem State.modRun_sys (s : State) (i : Nat) (f : SigRun → SigRun) : (s.modRun i f).sys = s.sys := rfl
@[simp] theorem State.modRun_mbx (s : State) (i : Nat) (f : SigRun → SigRun) : (s.modRun i f).mbx = s.mbx := rfl
@[simp] theorem State.modRun_log (s : State) (i : Nat) (f : SigRun → SigRun) : (s.modRun i f).log = s.log := rfl
@[simp] theorem State.modRun_tb (s : State) (i : Nat) (f : SigRun → SigRun) : (s.modRun i f).tb = s.tb := rfl
@[simp] theorem State.modRun_vz (s : State) (i : Nat) (f : SigRun → SigRun) : (s.modRun i f).vz = s.vz := rfl
@[simp] theorem State.modRun_saf (s : State) (i : Nat) (f : SigRun → SigRun) : (s.modRun i f).saf = s.saf := rfl
@[simp] theorem State.modRun_cfg (s : State) (i : Nat) (f : SigRun → SigRun) : (s.modRun i f).cfg = s.cfg := rfl
@[simp] theorem State.modRun_ch (s : State) (i : Nat) (f : SigRun → SigRun) : (s.modRun i f).ch = s.ch := rfl
@[simp] theorem State.modRun_rfx (s : State) (i : Nat) (f : SigRun → SigRun) : (s.modRun i f).rfx = s.rfx := rfl
@[simp] theorem State.modRun_twin (s : State) (i : Nat) (f : SigRun → SigRun) : (s.modRun i f).twin = s.twin := rfl
@[simp] theorem State.modRun_brg (s : State) (i : Nat) (f : SigRun → SigRun) : (s.modRun i f).brg = s.brg := rfl
@[simp] theorem State.modRun_fio (s : State) (i : Nat) (f : SigRun → SigRun) : (s.modRun i f).fio = s.fio := rfl
@[simp] theorem State.modRun_ring (s : State) (i : Nat) (f : SigRun → SigRun) : (s.modRun i f).ring = s.ring := rfl
@[simp] theorem State.modRun_esw (s : State) (i : Nat) (f : SigRun → SigRun) : (s.modRun i f).esw = s.esw := rfl
@[simp] theorem State.modRun_net (s : State) (i : Nat) (f : SigRun → SigRun) : (s.modRun i f).net = s.net := rfl
@[simp] theorem State.modRun_key (s : State) (i : Nat) (f : SigRun → SigRun) : (s.modRun i f).key = s.key := rfl
@[simp] theorem State.modRun_upd (s : State) (i : Nat) (f : SigRun → SigRun) : (s.modRun i f).upd = s.upd := rfl
@[simp] theorem State.modRun_uds (s : State) (i : Nat) (f : SigRun → SigRun) : (s.modRun i f).uds = s.uds := rfl
@[simp] theorem State.modRun_bus (s : State) (i : Nat) (f : SigRun → SigRun) : (s.modRun i f).bus = s.bus := rfl
@[simp] theorem State.modRun_free (s : State) (i : Nat) (f : SigRun → SigRun) : (s.modRun i f).free = s.free := rfl
@[simp] theorem State.modRun_pending (s : State) (i : Nat) (f : SigRun → SigRun) : (s.modRun i f).pending = s.pending := rfl
@[simp] theorem State.modRun_same (s : State) (i : Nat) (f : SigRun → SigRun) : (s.modRun i f).sigRun i = f (s.sigRun i) := by
  apply Tbl.getD_modify_same
theorem State.modRun_other (s : State) (i : Nat) (f : SigRun → SigRun) (other : Nat) (h : other ≠ i) : (s.modRun i f).sigRun other = s.sigRun other := by
  apply Tbl.getD_modify_other _ _ _ _ _ h

@[simp] theorem State.modPdu_sys (s : State) (p : Nat) (f : PduRun → PduRun) : (s.modPdu p f).sys = s.sys := rfl
@[simp] theorem State.modPdu_mbx (s : State) (p : Nat) (f : PduRun → PduRun) : (s.modPdu p f).mbx = s.mbx := rfl
@[simp] theorem State.modPdu_log (s : State) (p : Nat) (f : PduRun → PduRun) : (s.modPdu p f).log = s.log := rfl
@[simp] theorem State.modPdu_tb (s : State) (p : Nat) (f : PduRun → PduRun) : (s.modPdu p f).tb = s.tb := rfl
@[simp] theorem State.modPdu_vz (s : State) (p : Nat) (f : PduRun → PduRun) : (s.modPdu p f).vz = s.vz := rfl
@[simp] theorem State.modPdu_saf (s : State) (p : Nat) (f : PduRun → PduRun) : (s.modPdu p f).saf = s.saf := rfl
@[simp] theorem State.modPdu_cfg (s : State) (p : Nat) (f : PduRun → PduRun) : (s.modPdu p f).cfg = s.cfg := rfl
@[simp] theorem State.modPdu_ch (s : State) (p : Nat) (f : PduRun → PduRun) : (s.modPdu p f).ch = s.ch := rfl
@[simp] theorem State.modPdu_rfx (s : State) (p : Nat) (f : PduRun → PduRun) : (s.modPdu p f).rfx = s.rfx := rfl
@[simp] theorem State.modPdu_twin (s : State) (p : Nat) (f : PduRun → PduRun) : (s.modPdu p f).twin = s.twin := rfl
@[simp] theorem State.modPdu_brg (s : State) (p : Nat) (f : PduRun → PduRun) : (s.modPdu p f).brg = s.brg := rfl
@[simp] theorem State.modPdu_fio (s : State) (p : Nat) (f : PduRun → PduRun) : (s.modPdu p f).fio = s.fio := rfl
@[simp] theorem State.modPdu_ring (s : State) (p : Nat) (f : PduRun → PduRun) : (s.modPdu p f).ring = s.ring := rfl
@[simp] theorem State.modPdu_esw (s : State) (p : Nat) (f : PduRun → PduRun) : (s.modPdu p f).esw = s.esw := rfl
@[simp] theorem State.modPdu_net (s : State) (p : Nat) (f : PduRun → PduRun) : (s.modPdu p f).net = s.net := rfl
@[simp] theorem State.modPdu_key (s : State) (p : Nat) (f : PduRun → PduRun) : (s.modPdu p f).key = s.key := rfl
@[simp] theorem State.modPdu_upd (s : State) (p : Nat) (f : PduRun → PduRun) : (s.modPdu p f).upd = s.upd := rfl
@[simp] theorem State.modPdu_uds (s : State) (p : Nat) (f : PduRun → PduRun) : (s.modPdu p f).uds = s.uds := rfl
@[simp] theorem State.modPdu_bus (s : State) (p : Nat) (f : PduRun → PduRun) : (s.modPdu p f).bus = s.bus := rfl
@[simp] theorem State.modPdu_free (s : State) (p : Nat) (f : PduRun → PduRun) : (s.modPdu p f).free = s.free := rfl
@[simp] theorem State.modPdu_pending (s : State) (p : Nat) (f : PduRun → PduRun) : (s.modPdu p f).pending = s.pending := rfl
@[simp] theorem State.modPdu_same (s : State) (p : Nat) (f : PduRun → PduRun) : (s.modPdu p f).pduRun p = f (s.pduRun p) := by
  apply Tbl.getD_modify_same
theorem State.modPdu_other (s : State) (p : Nat) (f : PduRun → PduRun) (other : Nat) (h : other ≠ p) : (s.modPdu p f).pduRun other = s.pduRun other := by
  apply Tbl.getD_modify_other _ _ _ _ _ h

@[simp] theorem State.modTwin_sys (s : State) (f : TwinState → TwinState) : (s.modTwin f).sys = s.sys := rfl
@[simp] theorem State.modTwin_mbx (s : State) (f : TwinState → TwinState) : (s.modTwin f).mbx = s.mbx := rfl
@[simp] theorem State.modTwin_log (s : State) (f : TwinState → TwinState) : (s.modTwin f).log = s.log := rfl
@[simp] theorem State.modTwin_tb (s : State) (f : TwinState → TwinState) : (s.modTwin f).tb = s.tb := rfl
@[simp] theorem State.modTwin_vz (s : State) (f : TwinState → TwinState) : (s.modTwin f).vz = s.vz := rfl
@[simp] theorem State.modTwin_saf (s : State) (f : TwinState → TwinState) : (s.modTwin f).saf = s.saf := rfl
@[simp] theorem State.modTwin_cfg (s : State) (f : TwinState → TwinState) : (s.modTwin f).cfg = s.cfg := rfl
@[simp] theorem State.modTwin_ch (s : State) (f : TwinState → TwinState) : (s.modTwin f).ch = s.ch := rfl
@[simp] theorem State.modTwin_rfx (s : State) (f : TwinState → TwinState) : (s.modTwin f).rfx = s.rfx := rfl
@[simp] theorem State.modTwin_brg (s : State) (f : TwinState → TwinState) : (s.modTwin f).brg = s.brg := rfl
@[simp] theorem State.modTwin_fio (s : State) (f : TwinState → TwinState) : (s.modTwin f).fio = s.fio := rfl
@[simp] theorem State.modTwin_ring (s : State) (f : TwinState → TwinState) : (s.modTwin f).ring = s.ring := rfl
@[simp] theorem State.modTwin_esw (s : State) (f : TwinState → TwinState) : (s.modTwin f).esw = s.esw := rfl
@[simp] theorem State.modTwin_net (s : State) (f : TwinState → TwinState) : (s.modTwin f).net = s.net := rfl
@[simp] theorem State.modTwin_sig (s : State) (f : TwinState → TwinState) : (s.modTwin f).sig = s.sig := rfl
@[simp] theorem State.modTwin_key (s : State) (f : TwinState → TwinState) : (s.modTwin f).key = s.key := rfl
@[simp] theorem State.modTwin_upd (s : State) (f : TwinState → TwinState) : (s.modTwin f).upd = s.upd := rfl
@[simp] theorem State.modTwin_uds (s : State) (f : TwinState → TwinState) : (s.modTwin f).uds = s.uds := rfl
@[simp] theorem State.modTwin_bus (s : State) (f : TwinState → TwinState) : (s.modTwin f).bus = s.bus := rfl
@[simp] theorem State.modTwin_free (s : State) (f : TwinState → TwinState) : (s.modTwin f).free = s.free := rfl
@[simp] theorem State.modTwin_pending (s : State) (f : TwinState → TwinState) : (s.modTwin f).pending = s.pending := rfl

@[simp] theorem State.modUds_sys (s : State) (f : UdsState → UdsState) : (s.modUds f).sys = s.sys := rfl
@[simp] theorem State.modUds_mbx (s : State) (f : UdsState → UdsState) : (s.modUds f).mbx = s.mbx := rfl
@[simp] theorem State.modUds_log (s : State) (f : UdsState → UdsState) : (s.modUds f).log = s.log := rfl
@[simp] theorem State.modUds_tb (s : State) (f : UdsState → UdsState) : (s.modUds f).tb = s.tb := rfl
@[simp] theorem State.modUds_vz (s : State) (f : UdsState → UdsState) : (s.modUds f).vz = s.vz := rfl
@[simp] theorem State.modUds_saf (s : State) (f : UdsState → UdsState) : (s.modUds f).saf = s.saf := rfl
@[simp] theorem State.modUds_cfg (s : State) (f : UdsState → UdsState) : (s.modUds f).cfg = s.cfg := rfl
@[simp] theorem State.modUds_ch (s : State) (f : UdsState → UdsState) : (s.modUds f).ch = s.ch := rfl
@[simp] theorem State.modUds_rfx (s : State) (f : UdsState → UdsState) : (s.modUds f).rfx = s.rfx := rfl
@[simp] theorem State.modUds_twin (s : State) (f : UdsState → UdsState) : (s.modUds f).twin = s.twin := rfl
@[simp] theorem State.modUds_brg (s : State) (f : UdsState → UdsState) : (s.modUds f).brg = s.brg := rfl
@[simp] theorem State.modUds_fio (s : State) (f : UdsState → UdsState) : (s.modUds f).fio = s.fio := rfl
@[simp] theorem State.modUds_ring (s : State) (f : UdsState → UdsState) : (s.modUds f).ring = s.ring := rfl
@[simp] theorem State.modUds_esw (s : State) (f : UdsState → UdsState) : (s.modUds f).esw = s.esw := rfl
@[simp] theorem State.modUds_net (s : State) (f : UdsState → UdsState) : (s.modUds f).net = s.net := rfl
@[simp] theorem State.modUds_sig (s : State) (f : UdsState → UdsState) : (s.modUds f).sig = s.sig := rfl
@[simp] theorem State.modUds_key (s : State) (f : UdsState → UdsState) : (s.modUds f).key = s.key := rfl
@[simp] theorem State.modUds_upd (s : State) (f : UdsState → UdsState) : (s.modUds f).upd = s.upd := rfl
@[simp] theorem State.modUds_bus (s : State) (f : UdsState → UdsState) : (s.modUds f).bus = s.bus := rfl
@[simp] theorem State.modUds_free (s : State) (f : UdsState → UdsState) : (s.modUds f).free = s.free := rfl
@[simp] theorem State.modUds_pending (s : State) (f : UdsState → UdsState) : (s.modUds f).pending = s.pending := rfl

@[simp] theorem State.modView_sys (s : State) (v : Nat) (f : View → View) : (s.modView v f).sys = s.sys := rfl
@[simp] theorem State.modView_mbx (s : State) (v : Nat) (f : View → View) : (s.modView v f).mbx = s.mbx := rfl
@[simp] theorem State.modView_log (s : State) (v : Nat) (f : View → View) : (s.modView v f).log = s.log := rfl
@[simp] theorem State.modView_vz (s : State) (v : Nat) (f : View → View) : (s.modView v f).vz = s.vz := rfl
@[simp] theorem State.modView_saf (s : State) (v : Nat) (f : View → View) : (s.modView v f).saf = s.saf := rfl
@[simp] theorem State.modView_cfg (s : State) (v : Nat) (f : View → View) : (s.modView v f).cfg = s.cfg := rfl
@[simp] theorem State.modView_ch (s : State) (v : Nat) (f : View → View) : (s.modView v f).ch = s.ch := rfl
@[simp] theorem State.modView_rfx (s : State) (v : Nat) (f : View → View) : (s.modView v f).rfx = s.rfx := rfl
@[simp] theorem State.modView_twin (s : State) (v : Nat) (f : View → View) : (s.modView v f).twin = s.twin := rfl
@[simp] theorem State.modView_brg (s : State) (v : Nat) (f : View → View) : (s.modView v f).brg = s.brg := rfl
@[simp] theorem State.modView_fio (s : State) (v : Nat) (f : View → View) : (s.modView v f).fio = s.fio := rfl
@[simp] theorem State.modView_ring (s : State) (v : Nat) (f : View → View) : (s.modView v f).ring = s.ring := rfl
@[simp] theorem State.modView_esw (s : State) (v : Nat) (f : View → View) : (s.modView v f).esw = s.esw := rfl
@[simp] theorem State.modView_net (s : State) (v : Nat) (f : View → View) : (s.modView v f).net = s.net := rfl
@[simp] theorem State.modView_sig (s : State) (v : Nat) (f : View → View) : (s.modView v f).sig = s.sig := rfl
@[simp] theorem State.modView_key (s : State) (v : Nat) (f : View → View) : (s.modView v f).key = s.key := rfl
@[simp] theorem State.modView_upd (s : State) (v : Nat) (f : View → View) : (s.modView v f).upd = s.upd := rfl
@[simp] theorem State.modView_uds (s : State) (v : Nat) (f : View → View) : (s.modView v f).uds = s.uds := rfl
@[simp] theorem State.modView_bus (s : State) (v : Nat) (f : View → View) : (s.modView v f).bus = s.bus := rfl
@[simp] theorem State.modView_free (s : State) (v : Nat) (f : View → View) : (s.modView v f).free = s.free := rfl
@[simp] theorem State.modView_pending (s : State) (v : Nat) (f : View → View) : (s.modView v f).pending = s.pending := rfl

@[simp] theorem State.modCapture_sys (s : State) (u : Nat) (f : Capture → Capture) : (s.modCapture u f).sys = s.sys := rfl
@[simp] theorem State.modCapture_mbx (s : State) (u : Nat) (f : Capture → Capture) : (s.modCapture u f).mbx = s.mbx := rfl
@[simp] theorem State.modCapture_log (s : State) (u : Nat) (f : Capture → Capture) : (s.modCapture u f).log = s.log := rfl
@[simp] theorem State.modCapture_vz (s : State) (u : Nat) (f : Capture → Capture) : (s.modCapture u f).vz = s.vz := rfl
@[simp] theorem State.modCapture_saf (s : State) (u : Nat) (f : Capture → Capture) : (s.modCapture u f).saf = s.saf := rfl
@[simp] theorem State.modCapture_cfg (s : State) (u : Nat) (f : Capture → Capture) : (s.modCapture u f).cfg = s.cfg := rfl
@[simp] theorem State.modCapture_ch (s : State) (u : Nat) (f : Capture → Capture) : (s.modCapture u f).ch = s.ch := rfl
@[simp] theorem State.modCapture_rfx (s : State) (u : Nat) (f : Capture → Capture) : (s.modCapture u f).rfx = s.rfx := rfl
@[simp] theorem State.modCapture_twin (s : State) (u : Nat) (f : Capture → Capture) : (s.modCapture u f).twin = s.twin := rfl
@[simp] theorem State.modCapture_brg (s : State) (u : Nat) (f : Capture → Capture) : (s.modCapture u f).brg = s.brg := rfl
@[simp] theorem State.modCapture_fio (s : State) (u : Nat) (f : Capture → Capture) : (s.modCapture u f).fio = s.fio := rfl
@[simp] theorem State.modCapture_ring (s : State) (u : Nat) (f : Capture → Capture) : (s.modCapture u f).ring = s.ring := rfl
@[simp] theorem State.modCapture_esw (s : State) (u : Nat) (f : Capture → Capture) : (s.modCapture u f).esw = s.esw := rfl
@[simp] theorem State.modCapture_net (s : State) (u : Nat) (f : Capture → Capture) : (s.modCapture u f).net = s.net := rfl
@[simp] theorem State.modCapture_sig (s : State) (u : Nat) (f : Capture → Capture) : (s.modCapture u f).sig = s.sig := rfl
@[simp] theorem State.modCapture_key (s : State) (u : Nat) (f : Capture → Capture) : (s.modCapture u f).key = s.key := rfl
@[simp] theorem State.modCapture_upd (s : State) (u : Nat) (f : Capture → Capture) : (s.modCapture u f).upd = s.upd := rfl
@[simp] theorem State.modCapture_uds (s : State) (u : Nat) (f : Capture → Capture) : (s.modCapture u f).uds = s.uds := rfl
@[simp] theorem State.modCapture_bus (s : State) (u : Nat) (f : Capture → Capture) : (s.modCapture u f).bus = s.bus := rfl
@[simp] theorem State.modCapture_free (s : State) (u : Nat) (f : Capture → Capture) : (s.modCapture u f).free = s.free := rfl
@[simp] theorem State.modCapture_pending (s : State) (u : Nat) (f : Capture → Capture) : (s.modCapture u f).pending = s.pending := rfl
@[simp] theorem State.modCapture_same (s : State) (u : Nat) (f : Capture → Capture) : (s.modCapture u f).capture u = f (s.capture u) := by
  apply Tbl.getD_modify_same
theorem State.modCapture_other (s : State) (u : Nat) (f : Capture → Capture) (other : Nat) (h : other ≠ u) : (s.modCapture u f).capture other = s.capture other := by
  apply Tbl.getD_modify_other _ _ _ _ _ h

@[simp] theorem State.modTrigger_sys (s : State) (u : Nat) (f : Trigger → Trigger) : (s.modTrigger u f).sys = s.sys := rfl
@[simp] theorem State.modTrigger_mbx (s : State) (u : Nat) (f : Trigger → Trigger) : (s.modTrigger u f).mbx = s.mbx := rfl
@[simp] theorem State.modTrigger_log (s : State) (u : Nat) (f : Trigger → Trigger) : (s.modTrigger u f).log = s.log := rfl
@[simp] theorem State.modTrigger_vz (s : State) (u : Nat) (f : Trigger → Trigger) : (s.modTrigger u f).vz = s.vz := rfl
@[simp] theorem State.modTrigger_saf (s : State) (u : Nat) (f : Trigger → Trigger) : (s.modTrigger u f).saf = s.saf := rfl
@[simp] theorem State.modTrigger_cfg (s : State) (u : Nat) (f : Trigger → Trigger) : (s.modTrigger u f).cfg = s.cfg := rfl
@[simp] theorem State.modTrigger_ch (s : State) (u : Nat) (f : Trigger → Trigger) : (s.modTrigger u f).ch = s.ch := rfl
@[simp] theorem State.modTrigger_rfx (s : State) (u : Nat) (f : Trigger → Trigger) : (s.modTrigger u f).rfx = s.rfx := rfl
@[simp] theorem State.modTrigger_twin (s : State) (u : Nat) (f : Trigger → Trigger) : (s.modTrigger u f).twin = s.twin := rfl
@[simp] theorem State.modTrigger_brg (s : State) (u : Nat) (f : Trigger → Trigger) : (s.modTrigger u f).brg = s.brg := rfl
@[simp] theorem State.modTrigger_fio (s : State) (u : Nat) (f : Trigger → Trigger) : (s.modTrigger u f).fio = s.fio := rfl
@[simp] theorem State.modTrigger_ring (s : State) (u : Nat) (f : Trigger → Trigger) : (s.modTrigger u f).ring = s.ring := rfl
@[simp] theorem State.modTrigger_esw (s : State) (u : Nat) (f : Trigger → Trigger) : (s.modTrigger u f).esw = s.esw := rfl
@[simp] theorem State.modTrigger_net (s : State) (u : Nat) (f : Trigger → Trigger) : (s.modTrigger u f).net = s.net := rfl
@[simp] theorem State.modTrigger_sig (s : State) (u : Nat) (f : Trigger → Trigger) : (s.modTrigger u f).sig = s.sig := rfl
@[simp] theorem State.modTrigger_key (s : State) (u : Nat) (f : Trigger → Trigger) : (s.modTrigger u f).key = s.key := rfl
@[simp] theorem State.modTrigger_upd (s : State) (u : Nat) (f : Trigger → Trigger) : (s.modTrigger u f).upd = s.upd := rfl
@[simp] theorem State.modTrigger_uds (s : State) (u : Nat) (f : Trigger → Trigger) : (s.modTrigger u f).uds = s.uds := rfl
@[simp] theorem State.modTrigger_bus (s : State) (u : Nat) (f : Trigger → Trigger) : (s.modTrigger u f).bus = s.bus := rfl
@[simp] theorem State.modTrigger_free (s : State) (u : Nat) (f : Trigger → Trigger) : (s.modTrigger u f).free = s.free := rfl
@[simp] theorem State.modTrigger_pending (s : State) (u : Nat) (f : Trigger → Trigger) : (s.modTrigger u f).pending = s.pending := rfl
@[simp] theorem State.modTrigger_same (s : State) (u : Nat) (f : Trigger → Trigger) : (s.modTrigger u f).trigger u = f (s.trigger u) := by
  apply Tbl.getD_modify_same
theorem State.modTrigger_other (s : State) (u : Nat) (f : Trigger → Trigger) (other : Nat) (h : other ≠ u) : (s.modTrigger u f).trigger other = s.trigger other := by
  apply Tbl.getD_modify_other _ _ _ _ _ h

@[simp] theorem State.put_sys (s : State) (w : U32) : (s.put w).sys = s.sys := rfl
@[simp] theorem State.put_mbx (s : State) (w : U32) : (s.put w).mbx = s.mbx := rfl
@[simp] theorem State.put_log (s : State) (w : U32) : (s.put w).log = s.log := rfl
@[simp] theorem State.put_tb (s : State) (w : U32) : (s.put w).tb = s.tb := rfl
@[simp] theorem State.put_vz (s : State) (w : U32) : (s.put w).vz = s.vz := rfl
@[simp] theorem State.put_saf (s : State) (w : U32) : (s.put w).saf = s.saf := rfl
@[simp] theorem State.put_cfg (s : State) (w : U32) : (s.put w).cfg = s.cfg := rfl
@[simp] theorem State.put_ch (s : State) (w : U32) : (s.put w).ch = s.ch := rfl
@[simp] theorem State.put_rfx (s : State) (w : U32) : (s.put w).rfx = s.rfx := rfl
@[simp] theorem State.put_twin (s : State) (w : U32) : (s.put w).twin = s.twin := rfl
@[simp] theorem State.put_brg (s : State) (w : U32) : (s.put w).brg = s.brg := rfl
@[simp] theorem State.put_fio (s : State) (w : U32) : (s.put w).fio = s.fio := rfl
@[simp] theorem State.put_ring (s : State) (w : U32) : (s.put w).ring = s.ring := rfl
@[simp] theorem State.put_esw (s : State) (w : U32) : (s.put w).esw = s.esw := rfl
@[simp] theorem State.put_net (s : State) (w : U32) : (s.put w).net = s.net := rfl
@[simp] theorem State.put_sig (s : State) (w : U32) : (s.put w).sig = s.sig := rfl
@[simp] theorem State.put_key (s : State) (w : U32) : (s.put w).key = s.key := rfl
@[simp] theorem State.put_upd (s : State) (w : U32) : (s.put w).upd = s.upd := rfl
@[simp] theorem State.put_uds (s : State) (w : U32) : (s.put w).uds = s.uds := rfl
@[simp] theorem State.put_free (s : State) (w : U32) : (s.put w).free = s.free := rfl
@[simp] theorem State.put_pending (s : State) (w : U32) : (s.put w).pending = s.pending := rfl

@[simp] theorem State.modX_sys (s : State) (k : Nat) (g : XChan → XChan) : (s.modX k g).sys = s.sys := rfl
@[simp] theorem State.modX_mbx (s : State) (k : Nat) (g : XChan → XChan) : (s.modX k g).mbx = s.mbx := rfl
@[simp] theorem State.modX_log (s : State) (k : Nat) (g : XChan → XChan) : (s.modX k g).log = s.log := rfl
@[simp] theorem State.modX_tb (s : State) (k : Nat) (g : XChan → XChan) : (s.modX k g).tb = s.tb := rfl
@[simp] theorem State.modX_vz (s : State) (k : Nat) (g : XChan → XChan) : (s.modX k g).vz = s.vz := rfl
@[simp] theorem State.modX_saf (s : State) (k : Nat) (g : XChan → XChan) : (s.modX k g).saf = s.saf := rfl
@[simp] theorem State.modX_cfg (s : State) (k : Nat) (g : XChan → XChan) : (s.modX k g).cfg = s.cfg := rfl
@[simp] theorem State.modX_ch (s : State) (k : Nat) (g : XChan → XChan) : (s.modX k g).ch = s.ch := rfl
@[simp] theorem State.modX_rfx (s : State) (k : Nat) (g : XChan → XChan) : (s.modX k g).rfx = s.rfx := rfl
@[simp] theorem State.modX_twin (s : State) (k : Nat) (g : XChan → XChan) : (s.modX k g).twin = s.twin := rfl
@[simp] theorem State.modX_brg (s : State) (k : Nat) (g : XChan → XChan) : (s.modX k g).brg = s.brg := rfl
@[simp] theorem State.modX_ring (s : State) (k : Nat) (g : XChan → XChan) : (s.modX k g).ring = s.ring := rfl
@[simp] theorem State.modX_esw (s : State) (k : Nat) (g : XChan → XChan) : (s.modX k g).esw = s.esw := rfl
@[simp] theorem State.modX_net (s : State) (k : Nat) (g : XChan → XChan) : (s.modX k g).net = s.net := rfl
@[simp] theorem State.modX_sig (s : State) (k : Nat) (g : XChan → XChan) : (s.modX k g).sig = s.sig := rfl
@[simp] theorem State.modX_key (s : State) (k : Nat) (g : XChan → XChan) : (s.modX k g).key = s.key := rfl
@[simp] theorem State.modX_upd (s : State) (k : Nat) (g : XChan → XChan) : (s.modX k g).upd = s.upd := rfl
@[simp] theorem State.modX_uds (s : State) (k : Nat) (g : XChan → XChan) : (s.modX k g).uds = s.uds := rfl
@[simp] theorem State.modX_bus (s : State) (k : Nat) (g : XChan → XChan) : (s.modX k g).bus = s.bus := rfl
@[simp] theorem State.modX_free (s : State) (k : Nat) (g : XChan → XChan) : (s.modX k g).free = s.free := rfl
@[simp] theorem State.modX_pending (s : State) (k : Nat) (g : XChan → XChan) : (s.modX k g).pending = s.pending := rfl
@[simp] theorem State.modX_same (s : State) (k : Nat) (g : XChan → XChan) : (s.modX k g).xch k = g (s.xch k) := by
  apply Tbl.getD_modify_same
theorem State.modX_other (s : State) (k : Nat) (g : XChan → XChan) (other : Nat) (h : other ≠ k) : (s.modX k g).xch other = s.xch other := by
  apply Tbl.getD_modify_other _ _ _ _ _ h

@[simp] theorem State.modBank_sys (s : State) (g : XBank → XBank) : (s.modBank g).sys = s.sys := rfl
@[simp] theorem State.modBank_mbx (s : State) (g : XBank → XBank) : (s.modBank g).mbx = s.mbx := rfl
@[simp] theorem State.modBank_log (s : State) (g : XBank → XBank) : (s.modBank g).log = s.log := rfl
@[simp] theorem State.modBank_tb (s : State) (g : XBank → XBank) : (s.modBank g).tb = s.tb := rfl
@[simp] theorem State.modBank_vz (s : State) (g : XBank → XBank) : (s.modBank g).vz = s.vz := rfl
@[simp] theorem State.modBank_saf (s : State) (g : XBank → XBank) : (s.modBank g).saf = s.saf := rfl
@[simp] theorem State.modBank_cfg (s : State) (g : XBank → XBank) : (s.modBank g).cfg = s.cfg := rfl
@[simp] theorem State.modBank_ch (s : State) (g : XBank → XBank) : (s.modBank g).ch = s.ch := rfl
@[simp] theorem State.modBank_rfx (s : State) (g : XBank → XBank) : (s.modBank g).rfx = s.rfx := rfl
@[simp] theorem State.modBank_twin (s : State) (g : XBank → XBank) : (s.modBank g).twin = s.twin := rfl
@[simp] theorem State.modBank_brg (s : State) (g : XBank → XBank) : (s.modBank g).brg = s.brg := rfl
@[simp] theorem State.modBank_ring (s : State) (g : XBank → XBank) : (s.modBank g).ring = s.ring := rfl
@[simp] theorem State.modBank_esw (s : State) (g : XBank → XBank) : (s.modBank g).esw = s.esw := rfl
@[simp] theorem State.modBank_net (s : State) (g : XBank → XBank) : (s.modBank g).net = s.net := rfl
@[simp] theorem State.modBank_sig (s : State) (g : XBank → XBank) : (s.modBank g).sig = s.sig := rfl
@[simp] theorem State.modBank_key (s : State) (g : XBank → XBank) : (s.modBank g).key = s.key := rfl
@[simp] theorem State.modBank_upd (s : State) (g : XBank → XBank) : (s.modBank g).upd = s.upd := rfl
@[simp] theorem State.modBank_uds (s : State) (g : XBank → XBank) : (s.modBank g).uds = s.uds := rfl
@[simp] theorem State.modBank_bus (s : State) (g : XBank → XBank) : (s.modBank g).bus = s.bus := rfl
@[simp] theorem State.modBank_free (s : State) (g : XBank → XBank) : (s.modBank g).free = s.free := rfl
@[simp] theorem State.modBank_pending (s : State) (g : XBank → XBank) : (s.modBank g).pending = s.pending := rfl

end Sys2Proof.Machine

end
end

