-- ==== Sys2Proof/Laws/Mailbox.lean ====
section
/-! SUPPORT. What a mailbox command does, by the checks of R72 and by its own effect, and what its response leaves in the port. -/

section

set_option Elab.async false

namespace Sys2Proof.Machine

/-- Every check of R72 passes. -/
theorem Cmd.check_none_iff (c : Cmd) (r : Req) (p : Port) :
    c.check r p = none ↔
      r.version = 1 ∧ c.lenOk = true ∧ c.need.check p = none ∧ r.resvZero = true ∧ c.payload = none ∧ c.modeOk = true := by
  unfold Cmd.check
  by_cases hv : r.version = 1#8
  · by_cases hl : c.lenOk = true
    · cases hn : c.need.check p
      · by_cases hz : r.resvZero = true
        · cases hp : c.payload
          · by_cases hm : c.modeOk = true <;> simp [hv, hl, hz, hm]
          · simp [hv, hl, hz]
        · simp [hv, hl, hz]
      · simp [hv, hl]
    · simp [hv, hl]
  · simp [hv]

theorem runLater_accepted {r : Req} {c : Cmd} {s : State} {p : Port} (body : Port → State → State × Option Reply)
    (hp : s.port? r.port = some p) (hc : c.check r p = none) :
    runLater r c body s = match (body p s).2 with
      | some y => respond r c.code y.status y.data (body p s).1
      | none => (body p s).1 := by
  simp only [runLater, hp, hc] <;> cases (body p s).2 <;> rfl

theorem runLater_rejected {r : Req} {c : Cmd} {s : State} {p : Port} {st : U16} (body : Port → State → State × Option Reply)
    (hp : s.port? r.port = some p) (hc : c.check r p = some st) : runLater r c body s = respond r c.code st [] s := by
  simp only [runLater, hp, hc]

theorem runCmd_accepted {r : Req} {c : Cmd} {s : State} {p : Port} (body : Port → State → State × Reply)
    (hp : s.port? r.port = some p) (hc : c.check r p = none) :
    runCmd r c body s = respond r c.code (body p s).2.status (body p s).2.data (body p s).1 := by
  simp only [runCmd, runLater, hp, hc]

theorem runCmd_rejected {r : Req} {c : Cmd} {s : State} {p : Port} {st : U16} (body : Port → State → State × Reply)
    (hp : s.port? r.port = some p) (hc : c.check r p = some st) : runCmd r c body s = respond r c.code st [] s :=
  runLater_rejected _ hp hc

theorem runCmd_nobody {r : Req} {c : Cmd} {s : State} (body : Port → State → State × Reply) (hp : s.port? r.port = none) :
    runCmd r c body s = s := by
  simp only [runCmd, runLater, hp]

end Sys2Proof.Machine

end
end

