-- ==== Sys2Proof/Laws/Shared.lean ====
section
/-! SUPPORT. What the operations that every chapter shares leave alone: raising an event, answering and completing a request. -/

section

set_option Elab.async false

namespace Sys2Proof.Machine

@[simp] theorem raiseOne_sys (k : EvKind) (inst : Nat) (sc : Scope) (data : List Byte) (s : State) : (raiseOne k inst sc data s).sys = s.sys :=
  (raiseOne_frame ..).same .sys (by decide)
@[simp] theorem raiseOne_tb (k : EvKind) (inst : Nat) (sc : Scope) (data : List Byte) (s : State) : (raiseOne k inst sc data s).tb = s.tb :=
  (raiseOne_frame ..).same .tb (by decide)
@[simp] theorem raiseOne_saf (k : EvKind) (inst : Nat) (sc : Scope) (data : List Byte) (s : State) : (raiseOne k inst sc data s).saf = s.saf :=
  (raiseOne_frame ..).same .saf (by decide)
@[simp] theorem raiseOne_cfg (k : EvKind) (inst : Nat) (sc : Scope) (data : List Byte) (s : State) : (raiseOne k inst sc data s).cfg = s.cfg :=
  (raiseOne_frame ..).same .cfg (by decide)
@[simp] theorem raiseOne_ch (k : EvKind) (inst : Nat) (sc : Scope) (data : List Byte) (s : State) : (raiseOne k inst sc data s).ch = s.ch :=
  (raiseOne_frame ..).same .ch (by decide)
@[simp] theorem raiseOne_rfx (k : EvKind) (inst : Nat) (sc : Scope) (data : List Byte) (s : State) : (raiseOne k inst sc data s).rfx = s.rfx :=
  (raiseOne_frame ..).same .rfx (by decide)
@[simp] theorem raiseOne_twin (k : EvKind) (inst : Nat) (sc : Scope) (data : List Byte) (s : State) : (raiseOne k inst sc data s).twin = s.twin :=
  (raiseOne_frame ..).same .twin (by decide)
@[simp] theorem raiseOne_brg (k : EvKind) (inst : Nat) (sc : Scope) (data : List Byte) (s : State) : (raiseOne k inst sc data s).brg = s.brg :=
  (raiseOne_frame ..).same .brg (by decide)
@[simp] theorem raiseOne_fio (k : EvKind) (inst : Nat) (sc : Scope) (data : List Byte) (s : State) : (raiseOne k inst sc data s).fio = s.fio :=
  (raiseOne_frame ..).same .fio (by decide)
@[simp] theorem raiseOne_ring (k : EvKind) (inst : Nat) (sc : Scope) (data : List Byte) (s : State) : (raiseOne k inst sc data s).ring = s.ring :=
  (raiseOne_frame ..).same .ring (by decide)
@[simp] theorem raiseOne_esw (k : EvKind) (inst : Nat) (sc : Scope) (data : List Byte) (s : State) : (raiseOne k inst sc data s).esw = s.esw :=
  (raiseOne_frame ..).same .esw (by decide)
@[simp] theorem raiseOne_net (k : EvKind) (inst : Nat) (sc : Scope) (data : List Byte) (s : State) : (raiseOne k inst sc data s).net = s.net :=
  (raiseOne_frame ..).same .net (by decide)
@[simp] theorem raiseOne_sig (k : EvKind) (inst : Nat) (sc : Scope) (data : List Byte) (s : State) : (raiseOne k inst sc data s).sig = s.sig :=
  (raiseOne_frame ..).same .sig (by decide)
@[simp] theorem raiseOne_key (k : EvKind) (inst : Nat) (sc : Scope) (data : List Byte) (s : State) : (raiseOne k inst sc data s).key = s.key :=
  (raiseOne_frame ..).same .key (by decide)
@[simp] theorem raiseOne_upd (k : EvKind) (inst : Nat) (sc : Scope) (data : List Byte) (s : State) : (raiseOne k inst sc data s).upd = s.upd :=
  (raiseOne_frame ..).same .upd (by decide)
@[simp] theorem raiseOne_uds (k : EvKind) (inst : Nat) (sc : Scope) (data : List Byte) (s : State) : (raiseOne k inst sc data s).uds = s.uds :=
  (raiseOne_frame ..).same .uds (by decide)
@[simp] theorem raiseOne_bus (k : EvKind) (inst : Nat) (sc : Scope) (data : List Byte) (s : State) : (raiseOne k inst sc data s).bus = s.bus :=
  (raiseOne_frame ..).same .bus (by decide)
@[simp] theorem raiseOne_free (k : EvKind) (inst : Nat) (sc : Scope) (data : List Byte) (s : State) : (raiseOne k inst sc data s).free = s.free :=
  (raiseOne_frame ..).same .free (by decide)
@[simp] theorem raiseOne_pending (k : EvKind) (inst : Nat) (sc : Scope) (data : List Byte) (s : State) : (raiseOne k inst sc data s).pending = s.pending :=
  (raiseOne_frame ..).same .pending (by decide)

@[simp] theorem raise_sys (k : EvKind) (inst : Nat) (sc : Scope) (data : List Byte) (s : State) : (raise k inst sc data s).sys = s.sys :=
  (raise_frame ..).same .sys (by decide)
@[simp] theorem raise_tb (k : EvKind) (inst : Nat) (sc : Scope) (data : List Byte) (s : State) : (raise k inst sc data s).tb = s.tb :=
  (raise_frame ..).same .tb (by decide)
@[simp] theorem raise_saf (k : EvKind) (inst : Nat) (sc : Scope) (data : List Byte) (s : State) : (raise k inst sc data s).saf = s.saf :=
  (raise_frame ..).same .saf (by decide)
@[simp] theorem raise_cfg (k : EvKind) (inst : Nat) (sc : Scope) (data : List Byte) (s : State) : (raise k inst sc data s).cfg = s.cfg :=
  (raise_frame ..).same .cfg (by decide)
@[simp] theorem raise_ch (k : EvKind) (inst : Nat) (sc : Scope) (data : List Byte) (s : State) : (raise k inst sc data s).ch = s.ch :=
  (raise_frame ..).same .ch (by decide)
@[simp] theorem raise_rfx (k : EvKind) (inst : Nat) (sc : Scope) (data : List Byte) (s : State) : (raise k inst sc data s).rfx = s.rfx :=
  (raise_frame ..).same .rfx (by decide)
@[simp] theorem raise_twin (k : EvKind) (inst : Nat) (sc : Scope) (data : List Byte) (s : State) : (raise k inst sc data s).twin = s.twin :=
  (raise_frame ..).same .twin (by decide)
@[simp] theorem raise_brg (k : EvKind) (inst : Nat) (sc : Scope) (data : List Byte) (s : State) : (raise k inst sc data s).brg = s.brg :=
  (raise_frame ..).same .brg (by decide)
@[simp] theorem raise_fio (k : EvKind) (inst : Nat) (sc : Scope) (data : List Byte) (s : State) : (raise k inst sc data s).fio = s.fio :=
  (raise_frame ..).same .fio (by decide)
@[simp] theorem raise_ring (k : EvKind) (inst : Nat) (sc : Scope) (data : List Byte) (s : State) : (raise k inst sc data s).ring = s.ring :=
  (raise_frame ..).same .ring (by decide)
@[simp] theorem raise_esw (k : EvKind) (inst : Nat) (sc : Scope) (data : List Byte) (s : State) : (raise k inst sc data s).esw = s.esw :=
  (raise_frame ..).same .esw (by decide)
@[simp] theorem raise_net (k : EvKind) (inst : Nat) (sc : Scope) (data : List Byte) (s : State) : (raise k inst sc data s).net = s.net :=
  (raise_frame ..).same .net (by decide)
@[simp] theorem raise_sig (k : EvKind) (inst : Nat) (sc : Scope) (data : List Byte) (s : State) : (raise k inst sc data s).sig = s.sig :=
  (raise_frame ..).same .sig (by decide)
@[simp] theorem raise_key (k : EvKind) (inst : Nat) (sc : Scope) (data : List Byte) (s : State) : (raise k inst sc data s).key = s.key :=
  (raise_frame ..).same .key (by decide)
@[simp] theorem raise_upd (k : EvKind) (inst : Nat) (sc : Scope) (data : List Byte) (s : State) : (raise k inst sc data s).upd = s.upd :=
  (raise_frame ..).same .upd (by decide)
@[simp] theorem raise_uds (k : EvKind) (inst : Nat) (sc : Scope) (data : List Byte) (s : State) : (raise k inst sc data s).uds = s.uds :=
  (raise_frame ..).same .uds (by decide)
@[simp] theorem raise_bus (k : EvKind) (inst : Nat) (sc : Scope) (data : List Byte) (s : State) : (raise k inst sc data s).bus = s.bus :=
  (raise_frame ..).same .bus (by decide)
@[simp] theorem raise_free (k : EvKind) (inst : Nat) (sc : Scope) (data : List Byte) (s : State) : (raise k inst sc data s).free = s.free :=
  (raise_frame ..).same .free (by decide)
@[simp] theorem raise_pending (k : EvKind) (inst : Nat) (sc : Scope) (data : List Byte) (s : State) : (raise k inst sc data s).pending = s.pending :=
  (raise_frame ..).same .pending (by decide)

@[simp] theorem respond_sys (r : Req) (code status : U16) (data : List Byte) (s : State) : (respond r code status data s).sys = s.sys :=
  (respond_frame ..).same .sys (by decide)
@[simp] theorem respond_log (r : Req) (code status : U16) (data : List Byte) (s : State) : (respond r code status data s).log = s.log :=
  (respond_frame ..).same .log (by decide)
@[simp] theorem respond_tb (r : Req) (code status : U16) (data : List Byte) (s : State) : (respond r code status data s).tb = s.tb :=
  (respond_frame ..).same .tb (by decide)
@[simp] theorem respond_saf (r : Req) (code status : U16) (data : List Byte) (s : State) : (respond r code status data s).saf = s.saf :=
  (respond_frame ..).same .saf (by decide)
@[simp] theorem respond_cfg (r : Req) (code status : U16) (data : List Byte) (s : State) : (respond r code status data s).cfg = s.cfg :=
  (respond_frame ..).same .cfg (by decide)
@[simp] theorem respond_ch (r : Req) (code status : U16) (data : List Byte) (s : State) : (respond r code status data s).ch = s.ch :=
  (respond_frame ..).same .ch (by decide)
@[simp] theorem respond_rfx (r : Req) (code status : U16) (data : List Byte) (s : State) : (respond r code status data s).rfx = s.rfx :=
  (respond_frame ..).same .rfx (by decide)
@[simp] theorem respond_twin (r : Req) (code status : U16) (data : List Byte) (s : State) : (respond r code status data s).twin = s.twin :=
  (respond_frame ..).same .twin (by decide)
@[simp] theorem respond_brg (r : Req) (code status : U16) (data : List Byte) (s : State) : (respond r code status data s).brg = s.brg :=
  (respond_frame ..).same .brg (by decide)
@[simp] theorem respond_fio (r : Req) (code status : U16) (data : List Byte) (s : State) : (respond r code status data s).fio = s.fio :=
  (respond_frame ..).same .fio (by decide)
@[simp] theorem respond_ring (r : Req) (code status : U16) (data : List Byte) (s : State) : (respond r code status data s).ring = s.ring :=
  (respond_frame ..).same .ring (by decide)
@[simp] theorem respond_esw (r : Req) (code status : U16) (data : List Byte) (s : State) : (respond r code status data s).esw = s.esw :=
  (respond_frame ..).same .esw (by decide)
@[simp] theorem respond_net (r : Req) (code status : U16) (data : List Byte) (s : State) : (respond r code status data s).net = s.net :=
  (respond_frame ..).same .net (by decide)
@[simp] theorem respond_sig (r : Req) (code status : U16) (data : List Byte) (s : State) : (respond r code status data s).sig = s.sig :=
  (respond_frame ..).same .sig (by decide)
@[simp] theorem respond_key (r : Req) (code status : U16) (data : List Byte) (s : State) : (respond r code status data s).key = s.key :=
  (respond_frame ..).same .key (by decide)
@[simp] theorem respond_upd (r : Req) (code status : U16) (data : List Byte) (s : State) : (respond r code status data s).upd = s.upd :=
  (respond_frame ..).same .upd (by decide)
@[simp] theorem respond_uds (r : Req) (code status : U16) (data : List Byte) (s : State) : (respond r code status data s).uds = s.uds :=
  (respond_frame ..).same .uds (by decide)
@[simp] theorem respond_bus (r : Req) (code status : U16) (data : List Byte) (s : State) : (respond r code status data s).bus = s.bus :=
  (respond_frame ..).same .bus (by decide)
@[simp] theorem respond_free (r : Req) (code status : U16) (data : List Byte) (s : State) : (respond r code status data s).free = s.free :=
  (respond_frame ..).same .free (by decide)
@[simp] theorem respond_pending (r : Req) (code status : U16) (data : List Byte) (s : State) : (respond r code status data s).pending = s.pending :=
  (respond_frame ..).same .pending (by decide)

@[simp] theorem complete_sys (port : Nat) (reqSeq tag : U32) (code status : U16) (result : List Byte) (s : State) : (complete port reqSeq tag code status result s).sys = s.sys :=
  (complete_frame ..).same .sys (by decide)
@[simp] theorem complete_log (port : Nat) (reqSeq tag : U32) (code status : U16) (result : List Byte) (s : State) : (complete port reqSeq tag code status result s).log = s.log :=
  (complete_frame ..).same .log (by decide)
@[simp] theorem complete_tb (port : Nat) (reqSeq tag : U32) (code status : U16) (result : List Byte) (s : State) : (complete port reqSeq tag code status result s).tb = s.tb :=
  (complete_frame ..).same .tb (by decide)
@[simp] theorem complete_saf (port : Nat) (reqSeq tag : U32) (code status : U16) (result : List Byte) (s : State) : (complete port reqSeq tag code status result s).saf = s.saf :=
  (complete_frame ..).same .saf (by decide)
@[simp] theorem complete_cfg (port : Nat) (reqSeq tag : U32) (code status : U16) (result : List Byte) (s : State) : (complete port reqSeq tag code status result s).cfg = s.cfg :=
  (complete_frame ..).same .cfg (by decide)
@[simp] theorem complete_ch (port : Nat) (reqSeq tag : U32) (code status : U16) (result : List Byte) (s : State) : (complete port reqSeq tag code status result s).ch = s.ch :=
  (complete_frame ..).same .ch (by decide)
@[simp] theorem complete_rfx (port : Nat) (reqSeq tag : U32) (code status : U16) (result : List Byte) (s : State) : (complete port reqSeq tag code status result s).rfx = s.rfx :=
  (complete_frame ..).same .rfx (by decide)
@[simp] theorem complete_twin (port : Nat) (reqSeq tag : U32) (code status : U16) (result : List Byte) (s : State) : (complete port reqSeq tag code status result s).twin = s.twin :=
  (complete_frame ..).same .twin (by decide)
@[simp] theorem complete_brg (port : Nat) (reqSeq tag : U32) (code status : U16) (result : List Byte) (s : State) : (complete port reqSeq tag code status result s).brg = s.brg :=
  (complete_frame ..).same .brg (by decide)
@[simp] theorem complete_fio (port : Nat) (reqSeq tag : U32) (code status : U16) (result : List Byte) (s : State) : (complete port reqSeq tag code status result s).fio = s.fio :=
  (complete_frame ..).same .fio (by decide)
@[simp] theorem complete_ring (port : Nat) (reqSeq tag : U32) (code status : U16) (result : List Byte) (s : State) : (complete port reqSeq tag code status result s).ring = s.ring :=
  (complete_frame ..).same .ring (by decide)
@[simp] theorem complete_esw (port : Nat) (reqSeq tag : U32) (code status : U16) (result : List Byte) (s : State) : (complete port reqSeq tag code status result s).esw = s.esw :=
  (complete_frame ..).same .esw (by decide)
@[simp] theorem complete_net (port : Nat) (reqSeq tag : U32) (code status : U16) (result : List Byte) (s : State) : (complete port reqSeq tag code status result s).net = s.net :=
  (complete_frame ..).same .net (by decide)
@[simp] theorem complete_sig (port : Nat) (reqSeq tag : U32) (code status : U16) (result : List Byte) (s : State) : (complete port reqSeq tag code status result s).sig = s.sig :=
  (complete_frame ..).same .sig (by decide)
@[simp] theorem complete_key (port : Nat) (reqSeq tag : U32) (code status : U16) (result : List Byte) (s : State) : (complete port reqSeq tag code status result s).key = s.key :=
  (complete_frame ..).same .key (by decide)
@[simp] theorem complete_upd (port : Nat) (reqSeq tag : U32) (code status : U16) (result : List Byte) (s : State) : (complete port reqSeq tag code status result s).upd = s.upd :=
  (complete_frame ..).same .upd (by decide)
@[simp] theorem complete_uds (port : Nat) (reqSeq tag : U32) (code status : U16) (result : List Byte) (s : State) : (complete port reqSeq tag code status result s).uds = s.uds :=
  (complete_frame ..).same .uds (by decide)
@[simp] theorem complete_bus (port : Nat) (reqSeq tag : U32) (code status : U16) (result : List Byte) (s : State) : (complete port reqSeq tag code status result s).bus = s.bus :=
  (complete_frame ..).same .bus (by decide)
@[simp] theorem complete_free (port : Nat) (reqSeq tag : U32) (code status : U16) (result : List Byte) (s : State) : (complete port reqSeq tag code status result s).free = s.free :=
  (complete_frame ..).same .free (by decide)
@[simp] theorem complete_pending (port : Nat) (reqSeq tag : U32) (code status : U16) (result : List Byte) (s : State) : (complete port reqSeq tag code status result s).pending = s.pending :=
  (complete_frame ..).same .pending (by decide)

@[simp] theorem raiseCh_sys (k : EvKind) (i : Nat) (data : List Byte) (s : State) : (raiseCh k i data s).sys = s.sys :=
  (raiseCh_frame ..).same .sys (by decide)
@[simp] theorem raiseCh_tb (k : EvKind) (i : Nat) (data : List Byte) (s : State) : (raiseCh k i data s).tb = s.tb :=
  (raiseCh_frame ..).same .tb (by decide)
@[simp] theorem raiseCh_saf (k : EvKind) (i : Nat) (data : List Byte) (s : State) : (raiseCh k i data s).saf = s.saf :=
  (raiseCh_frame ..).same .saf (by decide)
@[simp] theorem raiseCh_cfg (k : EvKind) (i : Nat) (data : List Byte) (s : State) : (raiseCh k i data s).cfg = s.cfg :=
  (raiseCh_frame ..).same .cfg (by decide)
@[simp] theorem raiseCh_ch (k : EvKind) (i : Nat) (data : List Byte) (s : State) : (raiseCh k i data s).ch = s.ch :=
  (raiseCh_frame ..).same .ch (by decide)
@[simp] theorem raiseCh_rfx (k : EvKind) (i : Nat) (data : List Byte) (s : State) : (raiseCh k i data s).rfx = s.rfx :=
  (raiseCh_frame ..).same .rfx (by decide)
@[simp] theorem raiseCh_twin (k : EvKind) (i : Nat) (data : List Byte) (s : State) : (raiseCh k i data s).twin = s.twin :=
  (raiseCh_frame ..).same .twin (by decide)
@[simp] theorem raiseCh_brg (k : EvKind) (i : Nat) (data : List Byte) (s : State) : (raiseCh k i data s).brg = s.brg :=
  (raiseCh_frame ..).same .brg (by decide)
@[simp] theorem raiseCh_fio (k : EvKind) (i : Nat) (data : List Byte) (s : State) : (raiseCh k i data s).fio = s.fio :=
  (raiseCh_frame ..).same .fio (by decide)
@[simp] theorem raiseCh_ring (k : EvKind) (i : Nat) (data : List Byte) (s : State) : (raiseCh k i data s).ring = s.ring :=
  (raiseCh_frame ..).same .ring (by decide)
@[simp] theorem raiseCh_esw (k : EvKind) (i : Nat) (data : List Byte) (s : State) : (raiseCh k i data s).esw = s.esw :=
  (raiseCh_frame ..).same .esw (by decide)
@[simp] theorem raiseCh_net (k : EvKind) (i : Nat) (data : List Byte) (s : State) : (raiseCh k i data s).net = s.net :=
  (raiseCh_frame ..).same .net (by decide)
@[simp] theorem raiseCh_sig (k : EvKind) (i : Nat) (data : List Byte) (s : State) : (raiseCh k i data s).sig = s.sig :=
  (raiseCh_frame ..).same .sig (by decide)
@[simp] theorem raiseCh_key (k : EvKind) (i : Nat) (data : List Byte) (s : State) : (raiseCh k i data s).key = s.key :=
  (raiseCh_frame ..).same .key (by decide)
@[simp] theorem raiseCh_upd (k : EvKind) (i : Nat) (data : List Byte) (s : State) : (raiseCh k i data s).upd = s.upd :=
  (raiseCh_frame ..).same .upd (by decide)
@[simp] theorem raiseCh_uds (k : EvKind) (i : Nat) (data : List Byte) (s : State) : (raiseCh k i data s).uds = s.uds :=
  (raiseCh_frame ..).same .uds (by decide)
@[simp] theorem raiseCh_bus (k : EvKind) (i : Nat) (data : List Byte) (s : State) : (raiseCh k i data s).bus = s.bus :=
  (raiseCh_frame ..).same .bus (by decide)
@[simp] theorem raiseCh_free (k : EvKind) (i : Nat) (data : List Byte) (s : State) : (raiseCh k i data s).free = s.free :=
  (raiseCh_frame ..).same .free (by decide)
@[simp] theorem raiseCh_pending (k : EvKind) (i : Nat) (data : List Byte) (s : State) : (raiseCh k i data s).pending = s.pending :=
  (raiseCh_frame ..).same .pending (by decide)

@[simp] theorem raiseKey_sys (k : EvKind) (inst : Nat) (data : List Byte) (s : State) : (raiseKey k inst data s).sys = s.sys :=
  (raiseKey_frame ..).same .sys (by decide)
@[simp] theorem raiseKey_tb (k : EvKind) (inst : Nat) (data : List Byte) (s : State) : (raiseKey k inst data s).tb = s.tb :=
  (raiseKey_frame ..).same .tb (by decide)
@[simp] theorem raiseKey_saf (k : EvKind) (inst : Nat) (data : List Byte) (s : State) : (raiseKey k inst data s).saf = s.saf :=
  (raiseKey_frame ..).same .saf (by decide)
@[simp] theorem raiseKey_cfg (k : EvKind) (inst : Nat) (data : List Byte) (s : State) : (raiseKey k inst data s).cfg = s.cfg :=
  (raiseKey_frame ..).same .cfg (by decide)
@[simp] theorem raiseKey_ch (k : EvKind) (inst : Nat) (data : List Byte) (s : State) : (raiseKey k inst data s).ch = s.ch :=
  (raiseKey_frame ..).same .ch (by decide)
@[simp] theorem raiseKey_rfx (k : EvKind) (inst : Nat) (data : List Byte) (s : State) : (raiseKey k inst data s).rfx = s.rfx :=
  (raiseKey_frame ..).same .rfx (by decide)
@[simp] theorem raiseKey_twin (k : EvKind) (inst : Nat) (data : List Byte) (s : State) : (raiseKey k inst data s).twin = s.twin :=
  (raiseKey_frame ..).same .twin (by decide)
@[simp] theorem raiseKey_brg (k : EvKind) (inst : Nat) (data : List Byte) (s : State) : (raiseKey k inst data s).brg = s.brg :=
  (raiseKey_frame ..).same .brg (by decide)
@[simp] theorem raiseKey_fio (k : EvKind) (inst : Nat) (data : List Byte) (s : State) : (raiseKey k inst data s).fio = s.fio :=
  (raiseKey_frame ..).same .fio (by decide)
@[simp] theorem raiseKey_ring (k : EvKind) (inst : Nat) (data : List Byte) (s : State) : (raiseKey k inst data s).ring = s.ring :=
  (raiseKey_frame ..).same .ring (by decide)
@[simp] theorem raiseKey_esw (k : EvKind) (inst : Nat) (data : List Byte) (s : State) : (raiseKey k inst data s).esw = s.esw :=
  (raiseKey_frame ..).same .esw (by decide)
@[simp] theorem raiseKey_net (k : EvKind) (inst : Nat) (data : List Byte) (s : State) : (raiseKey k inst data s).net = s.net :=
  (raiseKey_frame ..).same .net (by decide)
@[simp] theorem raiseKey_sig (k : EvKind) (inst : Nat) (data : List Byte) (s : State) : (raiseKey k inst data s).sig = s.sig :=
  (raiseKey_frame ..).same .sig (by decide)
@[simp] theorem raiseKey_key (k : EvKind) (inst : Nat) (data : List Byte) (s : State) : (raiseKey k inst data s).key = s.key :=
  (raiseKey_frame ..).same .key (by decide)
@[simp] theorem raiseKey_upd (k : EvKind) (inst : Nat) (data : List Byte) (s : State) : (raiseKey k inst data s).upd = s.upd :=
  (raiseKey_frame ..).same .upd (by decide)
@[simp] theorem raiseKey_uds (k : EvKind) (inst : Nat) (data : List Byte) (s : State) : (raiseKey k inst data s).uds = s.uds :=
  (raiseKey_frame ..).same .uds (by decide)
@[simp] theorem raiseKey_bus (k : EvKind) (inst : Nat) (data : List Byte) (s : State) : (raiseKey k inst data s).bus = s.bus :=
  (raiseKey_frame ..).same .bus (by decide)
@[simp] theorem raiseKey_free (k : EvKind) (inst : Nat) (data : List Byte) (s : State) : (raiseKey k inst data s).free = s.free :=
  (raiseKey_frame ..).same .free (by decide)
@[simp] theorem raiseKey_pending (k : EvKind) (inst : Nat) (data : List Byte) (s : State) : (raiseKey k inst data s).pending = s.pending :=
  (raiseKey_frame ..).same .pending (by decide)

@[simp] theorem raiseBrg_sys (k : EvKind) (data : List Byte) (s : State) : (raiseBrg k data s).sys = s.sys :=
  (raiseBrg_frame ..).same .sys (by decide)
@[simp] theorem raiseBrg_tb (k : EvKind) (data : List Byte) (s : State) : (raiseBrg k data s).tb = s.tb :=
  (raiseBrg_frame ..).same .tb (by decide)
@[simp] theorem raiseBrg_saf (k : EvKind) (data : List Byte) (s : State) : (raiseBrg k data s).saf = s.saf :=
  (raiseBrg_frame ..).same .saf (by decide)
@[simp] theorem raiseBrg_cfg (k : EvKind) (data : List Byte) (s : State) : (raiseBrg k data s).cfg = s.cfg :=
  (raiseBrg_frame ..).same .cfg (by decide)
@[simp] theorem raiseBrg_ch (k : EvKind) (data : List Byte) (s : State) : (raiseBrg k data s).ch = s.ch :=
  (raiseBrg_frame ..).same .ch (by decide)
@[simp] theorem raiseBrg_rfx (k : EvKind) (data : List Byte) (s : State) : (raiseBrg k data s).rfx = s.rfx :=
  (raiseBrg_frame ..).same .rfx (by decide)
@[simp] theorem raiseBrg_twin (k : EvKind) (data : List Byte) (s : State) : (raiseBrg k data s).twin = s.twin :=
  (raiseBrg_frame ..).same .twin (by decide)
@[simp] theorem raiseBrg_brg (k : EvKind) (data : List Byte) (s : State) : (raiseBrg k data s).brg = s.brg :=
  (raiseBrg_frame ..).same .brg (by decide)
@[simp] theorem raiseBrg_fio (k : EvKind) (data : List Byte) (s : State) : (raiseBrg k data s).fio = s.fio :=
  (raiseBrg_frame ..).same .fio (by decide)
@[simp] theorem raiseBrg_ring (k : EvKind) (data : List Byte) (s : State) : (raiseBrg k data s).ring = s.ring :=
  (raiseBrg_frame ..).same .ring (by decide)
@[simp] theorem raiseBrg_esw (k : EvKind) (data : List Byte) (s : State) : (raiseBrg k data s).esw = s.esw :=
  (raiseBrg_frame ..).same .esw (by decide)
@[simp] theorem raiseBrg_net (k : EvKind) (data : List Byte) (s : State) : (raiseBrg k data s).net = s.net :=
  (raiseBrg_frame ..).same .net (by decide)
@[simp] theorem raiseBrg_sig (k : EvKind) (data : List Byte) (s : State) : (raiseBrg k data s).sig = s.sig :=
  (raiseBrg_frame ..).same .sig (by decide)
@[simp] theorem raiseBrg_key (k : EvKind) (data : List Byte) (s : State) : (raiseBrg k data s).key = s.key :=
  (raiseBrg_frame ..).same .key (by decide)
@[simp] theorem raiseBrg_upd (k : EvKind) (data : List Byte) (s : State) : (raiseBrg k data s).upd = s.upd :=
  (raiseBrg_frame ..).same .upd (by decide)
@[simp] theorem raiseBrg_uds (k : EvKind) (data : List Byte) (s : State) : (raiseBrg k data s).uds = s.uds :=
  (raiseBrg_frame ..).same .uds (by decide)
@[simp] theorem raiseBrg_bus (k : EvKind) (data : List Byte) (s : State) : (raiseBrg k data s).bus = s.bus :=
  (raiseBrg_frame ..).same .bus (by decide)
@[simp] theorem raiseBrg_free (k : EvKind) (data : List Byte) (s : State) : (raiseBrg k data s).free = s.free :=
  (raiseBrg_frame ..).same .free (by decide)
@[simp] theorem raiseBrg_pending (k : EvKind) (data : List Byte) (s : State) : (raiseBrg k data s).pending = s.pending :=
  (raiseBrg_frame ..).same .pending (by decide)

@[simp] theorem raiseTwin_sys (k : EvKind) (inst : Nat) (data : List Byte) (s : State) : (raiseTwin k inst data s).sys = s.sys :=
  (raiseTwin_frame ..).same .sys (by decide)
@[simp] theorem raiseTwin_tb (k : EvKind) (inst : Nat) (data : List Byte) (s : State) : (raiseTwin k inst data s).tb = s.tb :=
  (raiseTwin_frame ..).same .tb (by decide)
@[simp] theorem raiseTwin_saf (k : EvKind) (inst : Nat) (data : List Byte) (s : State) : (raiseTwin k inst data s).saf = s.saf :=
  (raiseTwin_frame ..).same .saf (by decide)
@[simp] theorem raiseTwin_cfg (k : EvKind) (inst : Nat) (data : List Byte) (s : State) : (raiseTwin k inst data s).cfg = s.cfg :=
  (raiseTwin_frame ..).same .cfg (by decide)
@[simp] theorem raiseTwin_ch (k : EvKind) (inst : Nat) (data : List Byte) (s : State) : (raiseTwin k inst data s).ch = s.ch :=
  (raiseTwin_frame ..).same .ch (by decide)
@[simp] theorem raiseTwin_rfx (k : EvKind) (inst : Nat) (data : List Byte) (s : State) : (raiseTwin k inst data s).rfx = s.rfx :=
  (raiseTwin_frame ..).same .rfx (by decide)
@[simp] theorem raiseTwin_twin (k : EvKind) (inst : Nat) (data : List Byte) (s : State) : (raiseTwin k inst data s).twin = s.twin :=
  (raiseTwin_frame ..).same .twin (by decide)
@[simp] theorem raiseTwin_brg (k : EvKind) (inst : Nat) (data : List Byte) (s : State) : (raiseTwin k inst data s).brg = s.brg :=
  (raiseTwin_frame ..).same .brg (by decide)
@[simp] theorem raiseTwin_fio (k : EvKind) (inst : Nat) (data : List Byte) (s : State) : (raiseTwin k inst data s).fio = s.fio :=
  (raiseTwin_frame ..).same .fio (by decide)
@[simp] theorem raiseTwin_ring (k : EvKind) (inst : Nat) (data : List Byte) (s : State) : (raiseTwin k inst data s).ring = s.ring :=
  (raiseTwin_frame ..).same .ring (by decide)
@[simp] theorem raiseTwin_esw (k : EvKind) (inst : Nat) (data : List Byte) (s : State) : (raiseTwin k inst data s).esw = s.esw :=
  (raiseTwin_frame ..).same .esw (by decide)
@[simp] theorem raiseTwin_net (k : EvKind) (inst : Nat) (data : List Byte) (s : State) : (raiseTwin k inst data s).net = s.net :=
  (raiseTwin_frame ..).same .net (by decide)
@[simp] theorem raiseTwin_sig (k : EvKind) (inst : Nat) (data : List Byte) (s : State) : (raiseTwin k inst data s).sig = s.sig :=
  (raiseTwin_frame ..).same .sig (by decide)
@[simp] theorem raiseTwin_key (k : EvKind) (inst : Nat) (data : List Byte) (s : State) : (raiseTwin k inst data s).key = s.key :=
  (raiseTwin_frame ..).same .key (by decide)
@[simp] theorem raiseTwin_upd (k : EvKind) (inst : Nat) (data : List Byte) (s : State) : (raiseTwin k inst data s).upd = s.upd :=
  (raiseTwin_frame ..).same .upd (by decide)
@[simp] theorem raiseTwin_uds (k : EvKind) (inst : Nat) (data : List Byte) (s : State) : (raiseTwin k inst data s).uds = s.uds :=
  (raiseTwin_frame ..).same .uds (by decide)
@[simp] theorem raiseTwin_bus (k : EvKind) (inst : Nat) (data : List Byte) (s : State) : (raiseTwin k inst data s).bus = s.bus :=
  (raiseTwin_frame ..).same .bus (by decide)
@[simp] theorem raiseTwin_free (k : EvKind) (inst : Nat) (data : List Byte) (s : State) : (raiseTwin k inst data s).free = s.free :=
  (raiseTwin_frame ..).same .free (by decide)
@[simp] theorem raiseTwin_pending (k : EvKind) (inst : Nat) (data : List Byte) (s : State) : (raiseTwin k inst data s).pending = s.pending :=
  (raiseTwin_frame ..).same .pending (by decide)

@[simp] theorem raiseSig_sys (k : EvKind) (i owner : Nat) (s : State) : (raiseSig k i owner s).sys = s.sys :=
  (raiseSig_frame ..).same .sys (by decide)
@[simp] theorem raiseSig_tb (k : EvKind) (i owner : Nat) (s : State) : (raiseSig k i owner s).tb = s.tb :=
  (raiseSig_frame ..).same .tb (by decide)
@[simp] theorem raiseSig_saf (k : EvKind) (i owner : Nat) (s : State) : (raiseSig k i owner s).saf = s.saf :=
  (raiseSig_frame ..).same .saf (by decide)
@[simp] theorem raiseSig_cfg (k : EvKind) (i owner : Nat) (s : State) : (raiseSig k i owner s).cfg = s.cfg :=
  (raiseSig_frame ..).same .cfg (by decide)
@[simp] theorem raiseSig_ch (k : EvKind) (i owner : Nat) (s : State) : (raiseSig k i owner s).ch = s.ch :=
  (raiseSig_frame ..).same .ch (by decide)
@[simp] theorem raiseSig_rfx (k : EvKind) (i owner : Nat) (s : State) : (raiseSig k i owner s).rfx = s.rfx :=
  (raiseSig_frame ..).same .rfx (by decide)
@[simp] theorem raiseSig_twin (k : EvKind) (i owner : Nat) (s : State) : (raiseSig k i owner s).twin = s.twin :=
  (raiseSig_frame ..).same .twin (by decide)
@[simp] theorem raiseSig_brg (k : EvKind) (i owner : Nat) (s : State) : (raiseSig k i owner s).brg = s.brg :=
  (raiseSig_frame ..).same .brg (by decide)
@[simp] theorem raiseSig_fio (k : EvKind) (i owner : Nat) (s : State) : (raiseSig k i owner s).fio = s.fio :=
  (raiseSig_frame ..).same .fio (by decide)
@[simp] theorem raiseSig_ring (k : EvKind) (i owner : Nat) (s : State) : (raiseSig k i owner s).ring = s.ring :=
  (raiseSig_frame ..).same .ring (by decide)
@[simp] theorem raiseSig_esw (k : EvKind) (i owner : Nat) (s : State) : (raiseSig k i owner s).esw = s.esw :=
  (raiseSig_frame ..).same .esw (by decide)
@[simp] theorem raiseSig_net (k : EvKind) (i owner : Nat) (s : State) : (raiseSig k i owner s).net = s.net :=
  (raiseSig_frame ..).same .net (by decide)
@[simp] theorem raiseSig_sig (k : EvKind) (i owner : Nat) (s : State) : (raiseSig k i owner s).sig = s.sig :=
  (raiseSig_frame ..).same .sig (by decide)
@[simp] theorem raiseSig_key (k : EvKind) (i owner : Nat) (s : State) : (raiseSig k i owner s).key = s.key :=
  (raiseSig_frame ..).same .key (by decide)
@[simp] theorem raiseSig_upd (k : EvKind) (i owner : Nat) (s : State) : (raiseSig k i owner s).upd = s.upd :=
  (raiseSig_frame ..).same .upd (by decide)
@[simp] theorem raiseSig_uds (k : EvKind) (i owner : Nat) (s : State) : (raiseSig k i owner s).uds = s.uds :=
  (raiseSig_frame ..).same .uds (by decide)
@[simp] theorem raiseSig_bus (k : EvKind) (i owner : Nat) (s : State) : (raiseSig k i owner s).bus = s.bus :=
  (raiseSig_frame ..).same .bus (by decide)
@[simp] theorem raiseSig_free (k : EvKind) (i owner : Nat) (s : State) : (raiseSig k i owner s).free = s.free :=
  (raiseSig_frame ..).same .free (by decide)
@[simp] theorem raiseSig_pending (k : EvKind) (i owner : Nat) (s : State) : (raiseSig k i owner s).pending = s.pending :=
  (raiseSig_frame ..).same .pending (by decide)

@[simp] theorem raiseFio_sys (k : EvKind) (inst : Nat) (owner : Option Nat) (data : List Byte) (s : State) : (raiseFio k inst owner data s).sys = s.sys :=
  (raiseFio_frame ..).same .sys (by decide)
@[simp] theorem raiseFio_tb (k : EvKind) (inst : Nat) (owner : Option Nat) (data : List Byte) (s : State) : (raiseFio k inst owner data s).tb = s.tb :=
  (raiseFio_frame ..).same .tb (by decide)
@[simp] theorem raiseFio_saf (k : EvKind) (inst : Nat) (owner : Option Nat) (data : List Byte) (s : State) : (raiseFio k inst owner data s).saf = s.saf :=
  (raiseFio_frame ..).same .saf (by decide)
@[simp] theorem raiseFio_cfg (k : EvKind) (inst : Nat) (owner : Option Nat) (data : List Byte) (s : State) : (raiseFio k inst owner data s).cfg = s.cfg :=
  (raiseFio_frame ..).same .cfg (by decide)
@[simp] theorem raiseFio_ch (k : EvKind) (inst : Nat) (owner : Option Nat) (data : List Byte) (s : State) : (raiseFio k inst owner data s).ch = s.ch :=
  (raiseFio_frame ..).same .ch (by decide)
@[simp] theorem raiseFio_rfx (k : EvKind) (inst : Nat) (owner : Option Nat) (data : List Byte) (s : State) : (raiseFio k inst owner data s).rfx = s.rfx :=
  (raiseFio_frame ..).same .rfx (by decide)
@[simp] theorem raiseFio_twin (k : EvKind) (inst : Nat) (owner : Option Nat) (data : List Byte) (s : State) : (raiseFio k inst owner data s).twin = s.twin :=
  (raiseFio_frame ..).same .twin (by decide)
@[simp] theorem raiseFio_brg (k : EvKind) (inst : Nat) (owner : Option Nat) (data : List Byte) (s : State) : (raiseFio k inst owner data s).brg = s.brg :=
  (raiseFio_frame ..).same .brg (by decide)
@[simp] theorem raiseFio_fio (k : EvKind) (inst : Nat) (owner : Option Nat) (data : List Byte) (s : State) : (raiseFio k inst owner data s).fio = s.fio :=
  (raiseFio_frame ..).same .fio (by decide)
@[simp] theorem raiseFio_ring (k : EvKind) (inst : Nat) (owner : Option Nat) (data : List Byte) (s : State) : (raiseFio k inst owner data s).ring = s.ring :=
  (raiseFio_frame ..).same .ring (by decide)
@[simp] theorem raiseFio_esw (k : EvKind) (inst : Nat) (owner : Option Nat) (data : List Byte) (s : State) : (raiseFio k inst owner data s).esw = s.esw :=
  (raiseFio_frame ..).same .esw (by decide)
@[simp] theorem raiseFio_net (k : EvKind) (inst : Nat) (owner : Option Nat) (data : List Byte) (s : State) : (raiseFio k inst owner data s).net = s.net :=
  (raiseFio_frame ..).same .net (by decide)
@[simp] theorem raiseFio_sig (k : EvKind) (inst : Nat) (owner : Option Nat) (data : List Byte) (s : State) : (raiseFio k inst owner data s).sig = s.sig :=
  (raiseFio_frame ..).same .sig (by decide)
@[simp] theorem raiseFio_key (k : EvKind) (inst : Nat) (owner : Option Nat) (data : List Byte) (s : State) : (raiseFio k inst owner data s).key = s.key :=
  (raiseFio_frame ..).same .key (by decide)
@[simp] theorem raiseFio_upd (k : EvKind) (inst : Nat) (owner : Option Nat) (data : List Byte) (s : State) : (raiseFio k inst owner data s).upd = s.upd :=
  (raiseFio_frame ..).same .upd (by decide)
@[simp] theorem raiseFio_uds (k : EvKind) (inst : Nat) (owner : Option Nat) (data : List Byte) (s : State) : (raiseFio k inst owner data s).uds = s.uds :=
  (raiseFio_frame ..).same .uds (by decide)
@[simp] theorem raiseFio_bus (k : EvKind) (inst : Nat) (owner : Option Nat) (data : List Byte) (s : State) : (raiseFio k inst owner data s).bus = s.bus :=
  (raiseFio_frame ..).same .bus (by decide)
@[simp] theorem raiseFio_free (k : EvKind) (inst : Nat) (owner : Option Nat) (data : List Byte) (s : State) : (raiseFio k inst owner data s).free = s.free :=
  (raiseFio_frame ..).same .free (by decide)
@[simp] theorem raiseFio_pending (k : EvKind) (inst : Nat) (owner : Option Nat) (data : List Byte) (s : State) : (raiseFio k inst owner data s).pending = s.pending :=
  (raiseFio_frame ..).same .pending (by decide)

@[simp] theorem twinFault_sys (s : State) : (twinFault s).sys = s.sys :=
  (twinFault_frame ..).same .sys (by decide)
@[simp] theorem twinFault_tb (s : State) : (twinFault s).tb = s.tb :=
  (twinFault_frame ..).same .tb (by decide)
@[simp] theorem twinFault_saf (s : State) : (twinFault s).saf = s.saf :=
  (twinFault_frame ..).same .saf (by decide)
@[simp] theorem twinFault_cfg (s : State) : (twinFault s).cfg = s.cfg :=
  (twinFault_frame ..).same .cfg (by decide)
@[simp] theorem twinFault_rfx (s : State) : (twinFault s).rfx = s.rfx :=
  (twinFault_frame ..).same .rfx (by decide)
@[simp] theorem twinFault_brg (s : State) : (twinFault s).brg = s.brg :=
  (twinFault_frame ..).same .brg (by decide)
@[simp] theorem twinFault_fio (s : State) : (twinFault s).fio = s.fio :=
  (twinFault_frame ..).same .fio (by decide)
@[simp] theorem twinFault_ring (s : State) : (twinFault s).ring = s.ring :=
  (twinFault_frame ..).same .ring (by decide)
@[simp] theorem twinFault_esw (s : State) : (twinFault s).esw = s.esw :=
  (twinFault_frame ..).same .esw (by decide)
@[simp] theorem twinFault_net (s : State) : (twinFault s).net = s.net :=
  (twinFault_frame ..).same .net (by decide)
@[simp] theorem twinFault_sig (s : State) : (twinFault s).sig = s.sig :=
  (twinFault_frame ..).same .sig (by decide)
@[simp] theorem twinFault_key (s : State) : (twinFault s).key = s.key :=
  (twinFault_frame ..).same .key (by decide)
@[simp] theorem twinFault_upd (s : State) : (twinFault s).upd = s.upd :=
  (twinFault_frame ..).same .upd (by decide)
@[simp] theorem twinFault_uds (s : State) : (twinFault s).uds = s.uds :=
  (twinFault_frame ..).same .uds (by decide)
@[simp] theorem twinFault_bus (s : State) : (twinFault s).bus = s.bus :=
  (twinFault_frame ..).same .bus (by decide)
@[simp] theorem twinFault_free (s : State) : (twinFault s).free = s.free :=
  (twinFault_frame ..).same .free (by decide)
@[simp] theorem twinFault_pending (s : State) : (twinFault s).pending = s.pending :=
  (twinFault_frame ..).same .pending (by decide)

@[simp] theorem urgent_sys (s : State) : (urgent s).sys = s.sys :=
  (urgent_frame ..).same .sys (by decide)
@[simp] theorem urgent_mbx (s : State) : (urgent s).mbx = s.mbx :=
  (urgent_frame ..).same .mbx (by decide)
@[simp] theorem urgent_log (s : State) : (urgent s).log = s.log :=
  (urgent_frame ..).same .log (by decide)
@[simp] theorem urgent_tb (s : State) : (urgent s).tb = s.tb :=
  (urgent_frame ..).same .tb (by decide)
@[simp] theorem urgent_vz (s : State) : (urgent s).vz = s.vz :=
  (urgent_frame ..).same .vz (by decide)
@[simp] theorem urgent_saf (s : State) : (urgent s).saf = s.saf :=
  (urgent_frame ..).same .saf (by decide)
@[simp] theorem urgent_cfg (s : State) : (urgent s).cfg = s.cfg :=
  (urgent_frame ..).same .cfg (by decide)
@[simp] theorem urgent_rfx (s : State) : (urgent s).rfx = s.rfx :=
  (urgent_frame ..).same .rfx (by decide)
@[simp] theorem urgent_twin (s : State) : (urgent s).twin = s.twin :=
  (urgent_frame ..).same .twin (by decide)
@[simp] theorem urgent_brg (s : State) : (urgent s).brg = s.brg :=
  (urgent_frame ..).same .brg (by decide)
@[simp] theorem urgent_fio (s : State) : (urgent s).fio = s.fio :=
  (urgent_frame ..).same .fio (by decide)
@[simp] theorem urgent_ring (s : State) : (urgent s).ring = s.ring :=
  (urgent_frame ..).same .ring (by decide)
@[simp] theorem urgent_esw (s : State) : (urgent s).esw = s.esw :=
  (urgent_frame ..).same .esw (by decide)
@[simp] theorem urgent_net (s : State) : (urgent s).net = s.net :=
  (urgent_frame ..).same .net (by decide)
@[simp] theorem urgent_sig (s : State) : (urgent s).sig = s.sig :=
  (urgent_frame ..).same .sig (by decide)
@[simp] theorem urgent_key (s : State) : (urgent s).key = s.key :=
  (urgent_frame ..).same .key (by decide)
@[simp] theorem urgent_upd (s : State) : (urgent s).upd = s.upd :=
  (urgent_frame ..).same .upd (by decide)
@[simp] theorem urgent_uds (s : State) : (urgent s).uds = s.uds :=
  (urgent_frame ..).same .uds (by decide)
@[simp] theorem urgent_bus (s : State) : (urgent s).bus = s.bus :=
  (urgent_frame ..).same .bus (by decide)
@[simp] theorem urgent_free (s : State) : (urgent s).free = s.free :=
  (urgent_frame ..).same .free (by decide)
@[simp] theorem urgent_pending (s : State) : (urgent s).pending = s.pending :=
  (urgent_frame ..).same .pending (by decide)

@[simp] theorem extendMr_sys (n : Nat) (v : List Byte) (s : State) : (extendMr n v s).sys = s.sys :=
  (extendMr_frame ..).same .sys (by decide)
@[simp] theorem extendMr_mbx (n : Nat) (v : List Byte) (s : State) : (extendMr n v s).mbx = s.mbx :=
  (extendMr_frame ..).same .mbx (by decide)
@[simp] theorem extendMr_log (n : Nat) (v : List Byte) (s : State) : (extendMr n v s).log = s.log :=
  (extendMr_frame ..).same .log (by decide)
@[simp] theorem extendMr_tb (n : Nat) (v : List Byte) (s : State) : (extendMr n v s).tb = s.tb :=
  (extendMr_frame ..).same .tb (by decide)
@[simp] theorem extendMr_vz (n : Nat) (v : List Byte) (s : State) : (extendMr n v s).vz = s.vz :=
  (extendMr_frame ..).same .vz (by decide)
@[simp] theorem extendMr_saf (n : Nat) (v : List Byte) (s : State) : (extendMr n v s).saf = s.saf :=
  (extendMr_frame ..).same .saf (by decide)
@[simp] theorem extendMr_cfg (n : Nat) (v : List Byte) (s : State) : (extendMr n v s).cfg = s.cfg :=
  (extendMr_frame ..).same .cfg (by decide)
@[simp] theorem extendMr_ch (n : Nat) (v : List Byte) (s : State) : (extendMr n v s).ch = s.ch :=
  (extendMr_frame ..).same .ch (by decide)
@[simp] theorem extendMr_rfx (n : Nat) (v : List Byte) (s : State) : (extendMr n v s).rfx = s.rfx :=
  (extendMr_frame ..).same .rfx (by decide)
@[simp] theorem extendMr_twin (n : Nat) (v : List Byte) (s : State) : (extendMr n v s).twin = s.twin :=
  (extendMr_frame ..).same .twin (by decide)
@[simp] theorem extendMr_brg (n : Nat) (v : List Byte) (s : State) : (extendMr n v s).brg = s.brg :=
  (extendMr_frame ..).same .brg (by decide)
@[simp] theorem extendMr_fio (n : Nat) (v : List Byte) (s : State) : (extendMr n v s).fio = s.fio :=
  (extendMr_frame ..).same .fio (by decide)
@[simp] theorem extendMr_ring (n : Nat) (v : List Byte) (s : State) : (extendMr n v s).ring = s.ring :=
  (extendMr_frame ..).same .ring (by decide)
@[simp] theorem extendMr_esw (n : Nat) (v : List Byte) (s : State) : (extendMr n v s).esw = s.esw :=
  (extendMr_frame ..).same .esw (by decide)
@[simp] theorem extendMr_net (n : Nat) (v : List Byte) (s : State) : (extendMr n v s).net = s.net :=
  (extendMr_frame ..).same .net (by decide)
@[simp] theorem extendMr_sig (n : Nat) (v : List Byte) (s : State) : (extendMr n v s).sig = s.sig :=
  (extendMr_frame ..).same .sig (by decide)
@[simp] theorem extendMr_upd (n : Nat) (v : List Byte) (s : State) : (extendMr n v s).upd = s.upd :=
  (extendMr_frame ..).same .upd (by decide)
@[simp] theorem extendMr_uds (n : Nat) (v : List Byte) (s : State) : (extendMr n v s).uds = s.uds :=
  (extendMr_frame ..).same .uds (by decide)
@[simp] theorem extendMr_bus (n : Nat) (v : List Byte) (s : State) : (extendMr n v s).bus = s.bus :=
  (extendMr_frame ..).same .bus (by decide)
@[simp] theorem extendMr_free (n : Nat) (v : List Byte) (s : State) : (extendMr n v s).free = s.free :=
  (extendMr_frame ..).same .free (by decide)
@[simp] theorem extendMr_pending (n : Nat) (v : List Byte) (s : State) : (extendMr n v s).pending = s.pending :=
  (extendMr_frame ..).same .pending (by decide)

@[simp] theorem State.raiseSrc_sys (s : State) (v : Option Nat) (src : Nat) : (State.raiseSrc s v src).sys = s.sys :=
  (State.raiseSrc_frame ..).same .sys (by decide)
@[simp] theorem State.raiseSrc_mbx (s : State) (v : Option Nat) (src : Nat) : (State.raiseSrc s v src).mbx = s.mbx :=
  (State.raiseSrc_frame ..).same .mbx (by decide)
@[simp] theorem State.raiseSrc_log (s : State) (v : Option Nat) (src : Nat) : (State.raiseSrc s v src).log = s.log :=
  (State.raiseSrc_frame ..).same .log (by decide)
@[simp] theorem State.raiseSrc_tb (s : State) (v : Option Nat) (src : Nat) : (State.raiseSrc s v src).tb = s.tb :=
  (State.raiseSrc_frame ..).same .tb (by decide)
@[simp] theorem State.raiseSrc_saf (s : State) (v : Option Nat) (src : Nat) : (State.raiseSrc s v src).saf = s.saf :=
  (State.raiseSrc_frame ..).same .saf (by decide)
@[simp] theorem State.raiseSrc_cfg (s : State) (v : Option Nat) (src : Nat) : (State.raiseSrc s v src).cfg = s.cfg :=
  (State.raiseSrc_frame ..).same .cfg (by decide)
@[simp] theorem State.raiseSrc_ch (s : State) (v : Option Nat) (src : Nat) : (State.raiseSrc s v src).ch = s.ch :=
  (State.raiseSrc_frame ..).same .ch (by decide)
@[simp] theorem State.raiseSrc_rfx (s : State) (v : Option Nat) (src : Nat) : (State.raiseSrc s v src).rfx = s.rfx :=
  (State.raiseSrc_frame ..).same .rfx (by decide)
@[simp] theorem State.raiseSrc_twin (s : State) (v : Option Nat) (src : Nat) : (State.raiseSrc s v src).twin = s.twin :=
  (State.raiseSrc_frame ..).same .twin (by decide)
@[simp] theorem State.raiseSrc_brg (s : State) (v : Option Nat) (src : Nat) : (State.raiseSrc s v src).brg = s.brg :=
  (State.raiseSrc_frame ..).same .brg (by decide)
@[simp] theorem State.raiseSrc_fio (s : State) (v : Option Nat) (src : Nat) : (State.raiseSrc s v src).fio = s.fio :=
  (State.raiseSrc_frame ..).same .fio (by decide)
@[simp] theorem State.raiseSrc_ring (s : State) (v : Option Nat) (src : Nat) : (State.raiseSrc s v src).ring = s.ring :=
  (State.raiseSrc_frame ..).same .ring (by decide)
@[simp] theorem State.raiseSrc_esw (s : State) (v : Option Nat) (src : Nat) : (State.raiseSrc s v src).esw = s.esw :=
  (State.raiseSrc_frame ..).same .esw (by decide)
@[simp] theorem State.raiseSrc_net (s : State) (v : Option Nat) (src : Nat) : (State.raiseSrc s v src).net = s.net :=
  (State.raiseSrc_frame ..).same .net (by decide)
@[simp] theorem State.raiseSrc_sig (s : State) (v : Option Nat) (src : Nat) : (State.raiseSrc s v src).sig = s.sig :=
  (State.raiseSrc_frame ..).same .sig (by decide)
@[simp] theorem State.raiseSrc_key (s : State) (v : Option Nat) (src : Nat) : (State.raiseSrc s v src).key = s.key :=
  (State.raiseSrc_frame ..).same .key (by decide)
@[simp] theorem State.raiseSrc_upd (s : State) (v : Option Nat) (src : Nat) : (State.raiseSrc s v src).upd = s.upd :=
  (State.raiseSrc_frame ..).same .upd (by decide)
@[simp] theorem State.raiseSrc_uds (s : State) (v : Option Nat) (src : Nat) : (State.raiseSrc s v src).uds = s.uds :=
  (State.raiseSrc_frame ..).same .uds (by decide)
@[simp] theorem State.raiseSrc_bus (s : State) (v : Option Nat) (src : Nat) : (State.raiseSrc s v src).bus = s.bus :=
  (State.raiseSrc_frame ..).same .bus (by decide)
@[simp] theorem State.raiseSrc_free (s : State) (v : Option Nat) (src : Nat) : (State.raiseSrc s v src).free = s.free :=
  (State.raiseSrc_frame ..).same .free (by decide)
@[simp] theorem State.raiseSrc_pending (s : State) (v : Option Nat) (src : Nat) : (State.raiseSrc s v src).pending = s.pending :=
  (State.raiseSrc_frame ..).same .pending (by decide)

end Sys2Proof.Machine

end
end

