-- ==== Sys2Proof/Tests/Slice0.lean ====
section
/-! SUPPORT. Tests: ill-formed terms, single steps, the spec's worked examples, and for every statement with hypotheses a witness:
each clause's hypotheses, met together by a concrete state and operands. -/

section

set_option Elab.async false

set_option linter.unusedVariables false

open Sys2Proof Sys2Proof.Machine

/-! ### Zero records -/

def Zero.adjustFields : AdjustFields := { view := 0, ops := 0, c := 0, inc := 0, stepNs := 0, stepFrac := 0, sec := 0, ns := 0, frac := 0 }
def Zero.aplic : Aplic := { ie := false, active := 0, en := 0, pend := 0, target := .empty }
def Zero.appState : AppState := { harts := [], imsic := .empty, machine := Zero.aplic, supervisor := Zero.aplic }
def Zero.vzfSection : VzfSection := { p0Key := 0, p0Rtx := 0, poolBase := 0, poolBlocks := 0, templates := [], create := [] }
def Zero.brgLimits : BrgLimits := { cls := 0, en := false, shedAtCommit := false, safe := .keep, shedHo := 0, vUv := 0, vZ12 := 0, vBst := 0, iBuck := 0, iBst := 0, vBkMin := 0, vBusMin := 0, tOvl := 0, tRestore := 0, rPair := 0, grpSrc := 0 }
def Zero.twinSection : TwinSection := { en := false, primary := false, relOnFault := false, arrestLink := false, arrestAccept := false, partner := 0, tGrace := 0, mirStale := 0, twinId := 0, list := [] }
def Zero.ringSection : RingSection := { station := 0, wakeFwd := false, autoConsent := false, tRc := 0, nS := 0, nM := 0, sched := 0, masters := [], keySlot := 0, ageWarn := 0, nSlp := 0, credits := [], slots := .empty }
def Zero.eswSection : EswSection := { nBank := 0, tAud := 0, reclaim := false, macI3 := 0, ports := .empty, plca := .empty, pots := .empty, vlans := .empty, fdb := [], shapers := .empty, gates := .empty, streamGates := .empty, filters := .empty, meters := .empty, frer := .empty, domains := [] }
def Zero.cfgImage : CfgImage := { boardnet := .v48, aPairs := 0, spare := none, partitions := [], limpKeep := false, autoSleep := false, workshopMin := 0, vzf := Zero.vzfSection, profiles := .empty, chProfile := .empty, brg := Zero.brgLimits, di := .empty, cycMask := 0, tCyc := 0, cycK := 0, ai := .empty, supOn := 0, x := .empty, tXto := 0, keepAlive := [], rules := .empty, limp := .empty, limpX := .empty, tLimp := 0, tSnf := 0, sna := false, twin := Zero.twinSection, ring := Zero.ringSection, edges := .empty, esw := Zero.eswSection, domains := [], viewOwners := [], can := .empty, nm := .empty, sieves := .empty, lin := .empty, schedules := .empty, sigs := .empty, pdus := .empty, lookup := .empty, prs := .empty }
def Zero.bank : Bank := { written := false, magicOk := false, digestOk := false, sigOk := false, hasRing := false, seq := 0, sections := [], image := Zero.cfgImage, bytes := [] }
def Zero.brgMeasure : BrgMeasure := { vin := 0, vz48 := 0, vz12 := 0, vbk12 := 0, iz12 := 0, ibk12 := 0, temp := 0, lowest := 0 }
def Zero.canAttempt : CanAttempt := { entry := 0, sof := 0, cancelled := false, old := false }
def Zero.canCounters : CanCounters := { tec := 0, rec_ := 0, err := 0 }
def Zero.canEntry : CanEntry := { ctl := 0, id := 0, xl := 0, af := 0, gen := 0, xlbuf := 0, attempts := 0, tag := 0, time := 0, data := [] }
def Zero.canFrame : CanFrame := { fmt := 0, ide := false, rtr := false, brs := false, esi := false, id := 0, sdt := 0, vcid := 0, sec := false, af := 0, dlen := 0, data := [] }
def Zero.canPhase : CanPhase := { brp := 0, tseg1 := 0, tseg2 := 0, sjw := 0 }
def Zero.canRecord : CanRecord := { flags := 0, wake := 0, nBrp := 0, nTseg1 := 0, nTseg2 := 0, nSjw := 0, d := Zero.canPhase, x := Zero.canPhase, tdcoFd := 0, tdcoXl := 0, pwms := 0, pwml := 0, pwmo := 0, sigTxb := 0 }
def Zero.capture4k : Capture4k := { source := 0, stream := 0, at_ := 0, pre := 0, complete := false, samples := [] }
def Zero.cfgSession : CfgSession := { total := 0 }
def Zero.chTestRun : ChTestRun := { test := 0, duration := 0, reverse := false, port := 0, tag := 0, reqSeq := 0 }
def Zero.coreRegs : CoreRegs := { pc := 0, mepc := 0, mstatus := 0, mcause := 0, mtval := 0, mtvec := 0, sp := 0, ra := 0, t0 := 0, t1 := 0, t2 := 0, t3 := 0, t4 := 0, t5 := 0, t6 := 0, a0 := 0, a1 := 0, a2 := 0, a3 := 0, a4 := 0, a5 := 0, a6 := 0, a7 := 0 }
def Zero.delayMeas : DelayMeas := { kind := 0, link := 0, verify := 0, station := 0, sched := 0, closeAt := 0, lastDelay := 0, residence := 0, master := 0, rank := 0 }
def Zero.diFields : DiFields := { vTh := 0, vWb := 0, flags := 0, tPw := 0, tS := 0, n := 0 }
def Zero.drr : Drr := { cur := none, deficit := .empty }
def Zero.egressCopy : EgressCopy := { port := 0, vzf := none, dst := 0, left := 0, order := 0 }
def Zero.eswStats : EswStats := { switched := 0, flooded := 0, oversize := 0, noRoute := 0, spoof := 0, qci := 0, frer := 0, ecc := 0, stalls := 0 }
def Zero.eswState : EswState := { on := false, nBank := 0, macI3 := 0, domains := [], ports := .empty, pots := .empty, vlans := .empty, fdb := [], shapers := .empty, drr := .empty, gates := .empty, streamGates := .empty, filters := .empty, meters := .empty, frer := .empty, free := 0, scrub0 := 0, scrub1 := 0, hold := 0, descFree := 0, stored := [], grantPtr := .empty, acceptPtr := .empty, crossed := 0, waiting := [], pointer := 0, loose := [], looseBefore := [], comparing := false, tAud := 0, reclaim := false, leaks := 0, reclaimed := 0, auditAt := 0, qps := .empty, stats := Zero.eswStats, out := [] }
def Zero.ethFrame : EthFrame := { dst := 0, src := 0, tci := none, rtag := none, etype := 0, data := [] }
def Zero.fdbEntry : FdbEntry := { mac := 0, vid := 0, ports := 0, station := 0, static_ := false, discard := false }
def Zero.fdbFields : FdbFields := { mac := 0, vid := 0, ports := 0, station := 0, flags := 0 }
def Zero.filterFields : FilterFields := { filter := 0, port := 0, method := 0, key := [], maxSdu := 0, gate := 0, meter := 0, flags := 0, meterFlags := 0, cir := 0, eir := 0, cbs := 0, ebs := 0 }
def Zero.hostMsg : HostMsg := { control := false, seq := 0, ack := 0, gen := 0, code := 0, tag := 0, oldKey := false }
def Zero.fragment : Fragment := { number := 0, last := false, msg := Zero.hostMsg, check := .intact }
def Zero.frerFields : FrerFields := { fn := 0, kind := 0, algorithm := 0, handle := 0, history := 0, flags := 0, resetMs := 0, ports := 0 }
def Zero.frer : Frer := { rec_ := Zero.frerFields, next := 0, takeAny := false, recv := 0, history := 0, last := 0 }
def Zero.gateFields : GateFields := { target := 0, port := 0, gate := 0, cycle := 0, baseSec := 0, baseNs := 0, entries := [] }
def Zero.handoverTest : HandoverTest := { port := 0, tag := 0, reqSeq := 0, duration := 0 }
def Zero.hbBlock : HbBlock := { rippleEn := false, decayFast := false, stopBrake := false, stallEn := false, stallReport := false, dead := 0, iStall := 0, tStall := 0, rippleRev := 0, fRipMin := 0, fRipMax := 0, tRunon := 0, minRipAmp := 0 }
def Zero.hbFields : HbFields := { flags := 0, dead := 0, iStall := 0, tStall := 0, rippleRev := 0, fRipMin := 0, fRipMax := 0, tRunon := 0, minRipAmp := 0 }
def Zero.health : Health := { wordA := 0, origin := 0, payload := [] }
def Zero.heldRsp : HeldRsp := { seq := 0, reqSeq := 0, tag := 0, code := 0, status := 0, data := [], retries := 0 }
def Zero.image : Image := { out := .off, prio := 0, target := false }
def Zero.iommuCtx : IommuCtx := { gRoot := 0, msiPtp := 0, msiMask := 0, msiPattern := 0 }
def Zero.limitsFields : LimitsFields := { cls := 0, flags := 0, shedHo := 0, vUv := 0, vZ12 := 0, vBst := 0, iBuck := 0, iBst := 0, vBkMin := 0, vBusMin := 0, tOvl := 0, tRestore := 0, rPair := 0, grpSrc := 0 }
def Zero.linDiag : LinDiag := { port := 0, tag := 0, reqSeq := 0, data := [], wanted := 0, sent := false, ended := false, fromStop := false, got := [] }
def Zero.linEntry : LinEntry := { typ := 0, id := 0, delay := 0, args := [] }
def Zero.linFrame : LinFrame := { ctl := 0, status := 0, half0 := [], half1 := [] }
def Zero.linRecord : LinRecord := { rate := 0, brk := 0, flags := 0, tWake := 0, table0 := 0, p2 := 0 }
def Zero.linRx : LinRx := { word := 0, time := 0, data := [] }
def Zero.linSlot : LinSlot := { typ := 0, id := 0, publish := false, data := [], at_ := 0 }
def Zero.logEntry : LogEntry := { seq := 0, time := 0, tb := false, code := 0, cls := 0, stone := false, trunc := false, owner := 0, inst := 0, boot := 0, data := [] }
def Zero.measure : Measure := { iAvg := 0, iInst := 0, negAvg := false, negInst := false, limiting := false, tj := 0, vg := 0, vout := 0 }
def Zero.nmMsg : NmMsg := { sender := 0, succ := none, consent := false, sleepInd := false, override := false, alive := false, coord := false, roundConsent := false, round := 0 }
def Zero.nmRecord : NmRecord := { node := 0, flags := 0, base := 0, tToken := 0, tHop := 0, tMax := 0 }
def Zero.pduDesc : PduDesc := { kind := 0, owner := 0, length := 0, trig := 0, period := 0, tTo := 0, fields := [] }
def Zero.plcaFields : PlcaFields := { port := 0, enable := 0, node := 0, count := 0, toTimer := 0, burst := 0, burstTimer := 0 }
def Zero.potFields : PotFields := { pot := 0, owner := 0, min := 0, max := 0, maxDesc := 0 }
def Zero.vlvBlock : VlvBlock := { iSafe := 0, iOrph := 0, dithAmp := 0, dithF := 0, rNom := 0, lNom := 0, bw := 0, square := false, compOff := false }
def Zero.profile : Profile := { typ := 0, arcEn := false, olOffEn := false, ambBase := false, safeOn := false, fwFallback := false, hold := false, iLim := 0, iInr := 0, tInr := 0, tLim := 0, fPwm := 0, slew := 0, retryN := 0, retryDly := 0, wire := 0, insul := 0, amb := 0, ambOfs := 0, iOl := 0, tOl := 0, tOlOff := 0, shed := 0, orphPrio := 0, orphan := .off, orphDuty := 0, tOrph := 0, tHold := 0, arcRms := 0, arcDv := 0, arcN := 0, hb := Zero.hbBlock, vlv := Zero.vlvBlock }
def Zero.provisionFields : ProvisionFields := { slot := 0, typ := 0, usage := 0, flags := 0, nonce := 0, content := none, sig := .none, cert := [] }
def Zero.prsConfig : PrsConfig := { sources := [], e := 0, k := 0, i3 := false, capEn := false, pre := 0, vid := 0, pcp := 0, mac := 0, owner := none }
def Zero.prsFields : PrsFields := { stream := 0, n := 0, e := 0, k := 0, dest := 0, flags := 0, pre := 0, vid := 0, pcp := 0, mac := 0, sources := [] }
def Zero.ringHeader : RingHeader := { version := 0, typ := 0, flags := 0, src := 0, dst := 0, slot := 0, origin := 0, len := 0, hops := 0, wordA := 0, wordB := 0, crc := 0 }
def Zero.ringFrame : RingFrame := { hdr := Zero.ringHeader, payload := [] }
def Zero.ruleFields : RuleFields := { ctl := 0, act := 0, sel0 := 0, arg0 := 0, sel1 := 0, arg1 := 0, sel2 := 0, arg2 := 0, sel3 := 0, arg3 := 0 }
def Zero.section : Section := { kind := .signals, bytes := [] }
def Zero.sigDesc : SigDesc := { kind := .signal, bo := false, signed := false, invEn := false, invSubst := false, idxHi := 0, len := 0, bitpos := 0, pdu := 0, transform := 0, policy := 0, ageLim := 0, argA := 0, argB := 0, subst := 0, interval := 0, owner := 0, sinks := [] }
def Zero.sigEvent : SigEvent := { pdu := 0, data := [], origin := 0 }
def Zero.sigWriteEntry : SigWriteEntry := { slot := 0, value := 0 }
def Zero.startFacts : StartFacts := { helperA := false, helperB := false, repaired := [], bad := [], trngOk := false, badCopies := [], bankABad := false, bankBBad := false, xtal := false, sramOk := false, nandOk := false, tableOk := false }
def Zero.stone : Stone := { entry := Zero.logEntry, copied := false }
def Zero.stored : Stored := { frame := Zero.ethFrame, vid := 0, len := 0, cls := 0, pot := 0, plane := 0, cells := 0, ingress := 0, station := 0, protected_ := false, flooded := false, stamp := 0, tx := none, copies := [], tagOut := none, stripOut := 0 }
def Zero.syncRef : SyncRef := { originNs := 0, originFrac := 0, corr := 0, tRc := 0, nS := 0, nM := 0, present := 0, consent := 0, sleepAt := 0, handoverAt := 0, loopStns := 0, path := [] }
def Zero.template : Template := { id := 0, sysPriv := false, attach := false, hostSaf := false, maxPrio := 0, nLport := 0, nRport := 0, window := 0, depthLog2 := 0, rportKey := 0, tRtx := 0, burst := 0, rate := 0, subClass := 0, nVec := 0, nView := 0, nQp := 0, subMask := 0, chMask := 0, diMask := 0, aiMask := 0, xMask := 0, canMask := 0, linMask := 0, pots := [], macs := [], vids := [], sigBase := 0, sigCount := 0, pduBase := 0, pduCount := 0, rfxBase := 0, rfxCount := 0, dram := [], qos := [] }
def Zero.tpState : TpState := { fd := false, rx := none, request := [], functional := false, sent := [], held := [] }
def Zero.triggerFields : TriggerFields := { unit := 0, op := 0, view := 0, action := 0, sec := 0, ns := 0, frac := 0, period := 0, target := 0, image := 0 }
def Zero.txDesc : TxDesc := { length := 0, flags := 0, vlan := 0, gen := 0, mapped := false, frame := Zero.ethFrame }
def Zero.updTarget : UpdTarget := { target := 0, second := false, total := 0, bytes := [] }
def Zero.valveMeasure : ValveMeasure := { ma := 0, vg := 0, ceil := false, rEst := 0 }
def Zero.verifyFacts : VerifyFacts := { sigOk := false, tagOk := false, digestOk := false }
def Zero.verifying : Verifying := { target := Zero.updTarget, requester := none }
def Zero.viewChange : ViewChange := { at_ := 0, rate := none, stepNs := none, set := none, setValid := false, clearValid := false, owner := none }
def Zero.xfer : Xfer := { ingress := 0, egress := 0, cls := 0 }

/-! ### States and operands -/

def Wit.sys : Port := { Port.service with awaits := false }
def Wit.own : Port := { Port.service with awaits := false, kind := .loc, vzf := some 1, sysPriv := false }
def Wit.req (n : Nat) : Req := { port := 0, tag := 0, seq := 1, version := 1, len := n, resvZero := true }
def Wit.tpl : Template :=
  { Template.default with
    maxPrio := 15, nQp := 4, chMask := BitVec.allOnes 112, diMask := BitVec.allOnes 64, aiMask := BitVec.allOnes 52
    xMask := BitVec.allOnes 32, canMask := BitVec.allOnes 16, linMask := BitVec.allOnes 16
    sigCount := 262144, pduCount := 65536, rfxCount := 1024 }
def Wit.vzf : Vzf := { Vzf.free with life := .active, tpl := Wit.tpl }
def Wit.image : CfgImage := { CfgImage.default with twin := { CfgImage.default.twin with en := true }, domains := List.range 96 }
def Wit.bank (n : Nat) : Bank :=
  { Bank.erased with written := true, magicOk := true, digestOk := true, sigOk := true, hasRing := true, seq := BitVec.ofNat 32 n, image := Wit.image }
def Wit.slot : KeySlot := { KeySlot.empty with state := .valid, typ := 4, usage := 0xFFFF }
def Wit.pair : Pair := { Pair.reset with healthy := true, tested := true }
def Wit.die : Die := { Die.reset with supply := .present, tables := 1, acked := true }
def Wit.run : State :=
  { State.reset with
    sys := { SysState.reset with
      mode := .run, prevMode := .startup, phase := .running, porPending := false, step := 14, rootLock := true, onRef := false, proven := true
      vinChecked := true, reached := true, ddrTrained := true, appReleased := true, domains := List.range 96, nonces := [⟨0, 0⟩] }
    mbx := { MbxState.reset with ports := ⟨[(0, Wit.sys), (1, Wit.own)]⟩ }
    cfg := { CfgState.reset with image := Wit.image, bankA := Wit.bank 1, bankB := Wit.bank 2, seq := 1 }
    key := { KeyState.reset with slots := ⟨(List.range 8).map (fun n => (120 + n, Wit.slot))⟩, kState := true }
    saf := { SafState.reset with serving := true, pairs := ⟨(List.range 4).map (fun n => (n, Wit.pair))⟩ }
    ch := { ChanState.reset with dies := ⟨(List.range 8).map (fun n => (n, Wit.die))⟩ }
    vz := { VzfState.reset with vzfs := ⟨[(1, Wit.vzf)]⟩ }
    rfx := { RfxState.reset with enabled := true }
    ring := { RingState.reset with
      phase := .active, sectionOk := true, joined := true, sleepAt := 1, east := { RingPort.reset with link := .closed, phy := true, sak := true }
      west := { RingPort.reset with link := .closed, phy := true, sak := true } }
    net := { NetState.reset with
      nm := ⟨(List.range 16).map (fun c => (c, { NmRing.reset with record := { NmRing.reset.record with flags := 1 } }))⟩
      can := ⟨(List.range 16).map (fun c => (c, { CanChan.reset with mode := .errorActive, configured := true }))⟩
      lin := ⟨(List.range 16).map (fun c => (c, { LinChan.reset with mode := .running }))⟩ }
    esw := { EswState.reset with on := true } }
def Wit.sealed (f : BitVec 128) : BitVec 128 := f ||| (frameCrc f).setWidth 128
theorem Wit.full (n : Nat) (e : FdbEntry) (f : FdbEntry → Bool) (h : f e = true) : n ≤ ((List.replicate n e).filter f).length := by
  exact Nat.le_of_eq (by rw [List.filter_replicate_of_pos h, List.length_replicate])
def Wit.cmd : Cmd := { code := 0x0101, lenOk := true, need := .system, payload := none, modeOk := true }
def Wit.bare : State := { Wit.run with saf := { Wit.run.saf with pairs := .empty } }
theorem Wit.canonical : Wit.bare.Canonical :=
  ⟨fun _ => rfl, rfl, rfl, fun _ _ => rfl, (fun _ h => nomatch h), (fun _ h => nomatch h), (fun _ _ h => nomatch h)⟩
def Wit.erase : State :=
  { Wit.run with
    sys := { Wit.run.sys with mode := .workshop }
    key := { Wit.run.key with slots := ⟨[(5, Wit.slot), (127, Wit.slot)]⟩ } }
def Wit.long (n : Nat) : RingFrame := { Zero.ringFrame with payload := List.replicate n 0 }
def Wit.filter : FilterFields :=
  { filter := 4, port := 1, method := 0, key := [], maxSdu := 0, gate := 0xFFFF, meter := 0xFFFF, flags := 0, meterFlags := 0
    cir := 0, eir := 0, cbs := 0, ebs := 0 }
def Wit.block (k : Nat) : PrsBlock := { stream := 0, seq := 0, pos := 0, bytes := List.replicate k 0 }
theorem Wit.heavy_any (k m n : Nat) (h : m < k) : m < bufBytes [Wit.block k] + n := by
  simp only [bufBytes, Wit.block, List.foldl_cons, List.foldl_nil, List.length_replicate]; omega
theorem Wit.heavy (l : List PrsBlock) (n : Nat) (h : l = [Wit.block 262145]) : engineBytes < bufBytes l + n := by
  subst h; exact Wit.heavy_any 262145 engineBytes n (by decide)
def Wit.capture : Capture4k := { source := 0, stream := 0, at_ := 0, pre := 0, complete := false, samples := List.replicate 4096 0 }
theorem Wit.capture_full : 4096 ≤ Wit.capture.samples.length := by
  exact Nat.le_of_eq (by rw [Wit.capture, List.length_replicate])
def Wit.bankBytes : Memory := [(0, 0x47), (1, 0x46), (2, 0x43), (3, 0x5A), (4, 1), (6, 1), (8, 9), (16, 48)]
theorem Wit.sum (k n : Nat) (h : k ≤ 100000) : k * 1000 * 1000 < 0 + n + 100000000000000 := by omega
theorem Wit.hot (s : State) (h : s.ch.lossHist = [100000000000000]) (k : s.sys.lossLimitMw ≤ 100000) : (loadSample s).overLoss = true := by
  have e : (loadSample s).ch.lossHist = [s.lossUw, 100000000000000] := by simp only [loadSample, h, keepNewest, List.take]
  have l : (loadSample s).sys.lossLimitMw = s.sys.lossLimitMw := by simp only [loadSample]
  simp only [State.overLoss, e, l, total, List.foldl, decide_eq_true_eq]
  exact Wit.sum _ _ k
theorem Wit.fit (h : RingHeader) (b : List Byte) (seg : Nat) (len : b.length < 65536)
    (k : (decide (h.version = 1) && typeAllowed h.typ.val seg && decide (h.hops.toNat ≤ 64)) = true) :
    ringBad { hdr := (sealFrame { hdr := h, payload := b }).hdr, payload := b } seg = false := by
  simp only [Bool.and_eq_true, decide_eq_true_eq] at k
  have e : ringIntact { hdr := (sealFrame { hdr := h, payload := b }).hdr, payload := b } = true := by
    simp [ringIntact, sealFrame, ringCrc, ringHdrFixed, Nat.mod_eq_of_lt len]
  have v : (sealFrame { hdr := h, payload := b }).hdr.version = h.version := by simp only [sealFrame]
  have t : (sealFrame { hdr := h, payload := b }).hdr.typ = h.typ := by simp only [sealFrame]
  have n : (sealFrame { hdr := h, payload := b }).hdr.hops = h.hops := by simp only [sealFrame]
  have m : ¬64 < h.hops.toNat := Nat.not_lt.mpr k.2
  simp [ringBad, e, v, t, n, k.1.1, k.1.2, m]

/-! ### Ill-formed terms, one for each check -/

theorem test_wf_request_port : (Instr.sysGetMode { Wit.req 0 with port := 512 }).wellFormed = false := by decide +kernel
theorem test_wf_request_length : (Instr.sysGetMode (Wit.req 4033)).wellFormed = false := by decide +kernel
theorem test_wf_request : (Instr.sysGetMode (Wit.req 4032)).wellFormed = true := by decide +kernel
theorem test_wf_config_block : (Instr.cfgWrite (Wit.req 0) 0 (List.replicate 4033 0)).wellFormed = false := by decide +kernel
theorem test_wf_ping : (Instr.sysPing (Wit.req 0) (List.replicate 4033 0)).wellFormed = false := by decide +kernel
theorem test_wf_update_block : (Instr.updWrite (Wit.req 0) 0 (List.replicate 4033 0)).wellFormed = false := by decide +kernel
theorem test_wf_records : (Instr.sigLoad (Wit.req 0) 0 1 0 (List.replicate 4033 0)).wellFormed = false := by decide +kernel
theorem test_wf_analog_scan : (Instr.aiSample [] []).wellFormed = false := by decide +kernel
theorem test_wf_analog_supplies : (Instr.aiSample (List.replicate 48 0) [(4, 0)]).wellFormed = false := by decide +kernel
theorem test_wf_reference_path : (Instr.syncRefReceived 0 .ok Zero.ringHeader Zero.syncRef 0).wellFormed = false := by decide +kernel
theorem test_wf_static_frame : (Instr.staticFrameReceived 0 .ok (Wit.long 481)).wellFormed = false := by decide +kernel
theorem test_wf_dynamic_frame : (Instr.dynamicFrameReceived 0 .ok (some (Wit.long 1537))).wellFormed = false := by decide +kernel
theorem test_wf_secondary_frame : (Instr.secondaryFrameReceived 0 .ok (Wit.long 1537) false).wellFormed = false := by decide +kernel
theorem test_wf_ingress_frame : (Instr.frameIngress 1 .plain { Zero.ethFrame with data := List.replicate 1997 0 } 0 []).wellFormed = false := by decide +kernel
theorem test_wf_can_frame : (Instr.canFrameReceived 0 { Zero.canFrame with dlen := 2049 } 0 Zero.canCounters).wellFormed = false := by decide +kernel
theorem test_wf_nm_message : (Instr.nmMessageReceived 0 0 0 (List.replicate 9 0)).wellFormed = false := by decide +kernel
theorem test_wf_lin_frame : (Instr.linFrameEnd 0 0 (List.replicate 9 0)).wellFormed = false := by decide +kernel
theorem test_wf_lin_schedule : (Instr.linLoadSchedule (Wit.req 0) 0 0 1 [Zero.linEntry]).wellFormed = false := by decide +kernel
theorem test_wf_record_frame : (Instr.i3RecordFrame 0 (List.replicate 1983 0)).wellFormed = false := by decide +kernel
theorem test_wf_filter_key : (Instr.eswStreamFilter (Wit.req 0) Wit.filter).wellFormed = false := by decide +kernel
theorem test_wf_attest_nonce : (Instr.keyAttest (Wit.req 0) [] 0).wellFormed = false := by decide +kernel
theorem test_wf_waiver_digest : (Instr.updWaiver (Wit.req 0) 1 [] true).wellFormed = false := by decide +kernel
theorem test_wf_transfer_block : (Instr.udsTransferData 0 (List.replicate 4096 0)).wellFormed = false := by decide +kernel

/-! ### Single steps -/

/-- R154: a valid logic supply leads from Off to Start-up, which waits. -/
theorem test_logic_supply_valid :
    (match step { State.reset with pending := [.logicSupplyValid] } with
     | .next t => decide (t.sys.mode = .startup ∧ t.sys.phase = .waiting ∧ t.pending = [])
     | _ => false) = true := by decide +kernel

/-- An empty queue in Off, without a supply: nothing counts. -/
theorem test_idle_off : step State.reset = .next State.reset := rfl

/-- No row of the table has bits. -/
theorem test_decode_none : decodeTableWord 32 0 = none := rfl
theorem test_fetch_none : State.reset.withFetchWord 32 0 = State.reset := rfl

/-- R72: a request of a wrong version is answered `ST_BAD_VERSION` whatever else is wrong with it. -/
theorem test_bad_version :
    (match exec (.sysEnterBasecamp { Wit.req 9 with version := 2, resvZero := false }) Wit.run with
     | .next t => ((t.port? 0).bind (fun p => p.rsps.head?)).map (fun x => (x.code, x.status))
     | _ => none) = some (0x0124, stat_badVersion) := by decide +kernel

/-! ### The spec's worked examples -/

/-- Chapter 0: global index 75 is a light channel of its group (offset 5). -/
theorem test_channel_75 : chClass 75 = .light := by decide

/-- Chapter 2: sequence 0x00000001 is later than 0xFFFFFFFE. -/
theorem test_later_wraps : later 1 0xFFFFFFFE = true ∧ later 0xFFFFFFFE 1 = false := by decide

/-- Chapter 14: `sp` 0x10012F48 fails the check with `REASON` 1. -/
theorem test_stack_fault_alignment : stackFault [] 0x10012F48 = some 1 := by decide

/-- Chapter 11: X_TSEG1 13 and X_TSEG2 6 give a bit of 20 quanta. -/
theorem test_can_bit : canBit 1 13 6 = 20 := by decide

/-- Chapter 7: the door contact of `DI20`, code 8 is 4.0 V and code 36 is 11.0 V. -/
theorem test_di_thresholds : thMv 8 = 4000 ∧ thMv 36 = 11000 := by decide

/-- Chapter 7: with N = 20, six bouncing samples take C through 1, 0, 1, 0, 1, 2. -/
def Wit.contact (c : Nat) : DiInput := { DiInput.reset with c := c, rec_ := { DiInput.reset.rec_ with n := 20 }, contact := some false }
def Wit.bounce : List DiVal → DiInput → List Nat
  | [], _ => []
  | x :: l, d => (d.filter x).c :: Wit.bounce l (d.filter x)
theorem test_di_bounce :
    Wit.bounce [.closed, .open_, .closed, .open_, .closed, .closed] (Wit.contact 0) = [1, 0, 1, 0, 1, 2] := by decide
theorem test_di_closes : ((Wit.contact 19).filter .closed).reported = .closed ∧ ((Wit.contact 18).filter .closed).reported = .open_ := by decide

/-- Chapter 8, Table 8.10: rule 40 encoded. -/
theorem test_rule_40 :
    (let x := ruleOf { ctl := 0x80A00300, act := 0x20200000, sel0 := 0x11000005, arg0 := 0, sel1 := 0, arg1 := 0, sel2 := 0, arg2 := 0, sel3 := 0, arg3 := 0 }
     decide (x.en = true ∧ x.prio = 10 ∧ x.owner = 3 ∧ x.susp = false ∧ x.act = 1 ∧ x.target = 32) &&
     decide (x.preds.head? = some { ptype := 1, cond := 1, src := 5, arg := 0 })) = true := by decide

/-- Chapter 13: the servo's change of V2, and what V2 reads 600,000 ticks later. -/
def Wit.servo : ViewChange :=
  { at_ := 90000000000, rate := some 29319577066275, stepNs := some (-3200, 0), set := none, setValid := false, clearValid := false, owner := some 4 }
def Wit.view : View := { View.reset with baseCount := 90000000000, baseTime := { sec := 1234, ns := 500000000, frac := 0 } }
theorem test_servo_base : (Wit.view.apply Wit.servo).baseTime = { sec := 1234, ns := 499996800, frac := 0 } := by decide
theorem test_servo_later : (Wit.view.apply Wit.servo).timeAt 90000600000 = { sec := 1234, ns := 500996775, frac := 0 } := by decide
theorem test_no_servo_later : Wit.view.timeAt 90000600000 = { sec := 1234, ns := 501000000, frac := 0 } := by decide

/-- R138: an interval below half the mean is rejected; one above 1.5 times the mean counts as the rounded ratio, at most 3. -/
theorem test_ripple_rejected : judge [1000, 1000] 499 100 = (0, true, 0) := by decide
theorem test_ripple_counted : judge [1000, 1000] 1500 100 = (1, false, 0) := by decide
theorem test_ripple_inserted : judge [1000, 1000] 2400 100 = (2, false, 1) := by decide
theorem test_ripple_three : judge [1000, 1000] 9000 100 = (3, false, 2) := by decide
theorem test_ripple_stopped : judge [1000, 1000] 10000 100 = (1, false, 0) := by decide

/-- R446, ISO 15765-2: a response of ten bytes in classical CAN is a first frame and one consecutive frame. -/
theorem test_tp_classical :
    ((tpFrames false [1, 2, 3, 4, 5, 6, 7, 8, 9, 10]).map (fun f => f.data.take 5)) = [[0x10, 10, 1, 2, 3], [0x21, 7, 8, 9, 10]] := by decide +kernel

/-- R277: where two ingress ports hold a cell for one egress port, one of them crosses in a cell time, and the pointer passes it. -/
def Wit.voq (p : Nat) : Stored := { Zero.stored with ingress := p, copies := [{ Zero.egressCopy with port := 3, left := 1 }] }
def Wit.planes : EswState := { EswState.reset with stored := [Wit.voq 1, Wit.voq 2] }
theorem test_cell_time :
    ((Wit.planes.cellTime 0).stored.map (fun x => x.copies.map (·.left)), (Wit.planes.cellTime 0).grantPtr.get? 3) = ([[0], [1]], some 2) := by
  decide +kernel

/-- R388: an update of the status page makes source 1 pending in the domain where it is active. -/
theorem test_page_update :
    ({ AppState.reset with machine := { Aplic.reset with active := 2 } }.pageUpdate.machine.pend, AppState.reset.pageUpdate.machine.pend) = (2, 0) := by
  decide

/-! ### Witnesses -/

theorem witness_SupplyAndTemperatureMoveTheModule :
  (∃ (s : State),
    s.sys.phase = .unpowered) ∧
  (∃ (s : State),
    s.mgrUp = true ∧ s.sys.logicLowRaised = false) ∧
  (∃ (s : State),
    s.mgrUp = true ∧ s.sys.logicLowRaised = true) ∧
  (∃ (s : State),
    s.sys.phase ≠ .unpowered ∧ s.sys.mode ≠ .off ∧ s.sys.mode ≠ .bivouac) ∧
  (∃ (s : State),
    s.sys.phase ≠ .unpowered ∧ (s.sys.mode = .off ∨ s.sys.mode = .bivouac)) ∧
  (∃ (s : State),
    s.sys.phase = .unpowered) ∧
  (∃ (s : State),
    s.mgrUp = true ∧ s.sys.rootLock = true ∧ s.sys.mode ≠ .basecamp) ∧
  (∃ (s : State),
    s.mgrUp = true ∧ s.sys.rootLock = true ∧ s.sys.mode = .basecamp) ∧
  (∃ (temp : Int) (s : State),
    s.mgrUp = true) ∧
  (∃ (temp : Int) (s : State),
    s.mgrUp = true) ∧
  (∃ (temp : Int) (s : State),
    s.mgrUp = true ∧ 950 < temp) ∧
  (∃ (temp : Int) (s : State),
    temp < 850) ∧
  (∃ (temp : Int) (s : State),
    850 ≤ temp ∧ temp < 930) :=
  ⟨⟨(let s : State := Wit.run; { s with sys := { s.sys with phase := .unpowered } }),
    by decide +kernel⟩,
  ⟨(let s : State := Wit.run; { s with sys := { s.sys with logicLowRaised := false } }),
    by decide +kernel⟩,
  ⟨(let s : State := Wit.run; { s with sys := { s.sys with logicLowRaised := true } }),
    by decide +kernel⟩,
  ⟨Wit.run,
    by decide +kernel⟩,
  ⟨(let s : State := Wit.run; { s with sys := { s.sys with mode := .off } }),
    by decide +kernel⟩,
  ⟨(let s : State := Wit.run; { s with sys := { s.sys with phase := .unpowered } }),
    by decide +kernel⟩,
  ⟨(let s : State := Wit.run; { s with sys := { s.sys with rootLock := true } }),
    by decide +kernel⟩,
  ⟨(let s : State := Wit.run; let s : State := { s with sys := { s.sys with rootLock := true } }; { s with sys := { s.sys with mode := .basecamp } }),
    by decide +kernel⟩,
  ⟨0, Wit.run,
    by decide +kernel⟩,
  ⟨0, Wit.run,
    by decide +kernel⟩,
  ⟨951, Wit.run,
    by decide +kernel⟩,
  ⟨849, Wit.run,
    by decide +kernel⟩,
  ⟨929, Wit.run,
    by decide +kernel⟩⟩

theorem witness_ResetReleaseBeginsTheStart :
  (∃ (f : StartFacts) (s : State),
    s.sys.phase = .waiting ∧ s.sys.mode = .startup ∧ s.sys.dieHot = false) ∧
  (∃ (f : StartFacts) (s u : State),
    u = startKeys f { s with sys := { s.sys with rootLock := true, onRef := false, step := 4 } } ∧ s.starting = true ∧ s.sys.rootLock = false ∧ s.sys.facts = some f ∧ s.sys.step < 4) ∧
  (∃ (f : StartFacts) (s : State),
    s.sys.phase ≠ .waiting) :=
  ⟨⟨Zero.startFacts, (let s : State := Wit.run; let s : State := { s with sys := { s.sys with phase := .waiting } }; let s : State := { s with sys := { s.sys with mode := .startup } }; { s with sys := { s.sys with dieHot := false } }),
    by decide +kernel⟩,
  ⟨Zero.startFacts, (let s : State := Wit.run; let s : State := { s with sys := { s.sys with mode := .startup } }; let s : State := { s with sys := { s.sys with rootLock := false } }; let s : State := { s with sys := { s.sys with facts := some (Zero.startFacts : StartFacts) } }; { s with sys := { s.sys with step := 1, rootLock := false, mode := .startup } }), (let s : State := (let s : State := Wit.run; let s : State := { s with sys := { s.sys with mode := .startup } }; let s : State := { s with sys := { s.sys with rootLock := false } }; let s : State := { s with sys := { s.sys with facts := some (Zero.startFacts : StartFacts) } }; { s with sys := { s.sys with step := 1, rootLock := false, mode := .startup } }); startKeys (Zero.startFacts : StartFacts) { s with sys := { s.sys with rootLock := true, onRef := false, step := 4 } }),
    rfl, by decide +kernel⟩,
  ⟨Zero.startFacts, Wit.run,
    by decide +kernel⟩⟩

theorem witness_StartEventsAndProof :
  (∃ (s : State),
    s.starting = true ∧ s.sys.rootLock = false) ∧
  (∃ (s : State),
    s.mgrUp = true ∧ s.sys.mode = .basecamp ∧ s.sys.rootLock = false ∧ s.sys.basecampStatus ≠ stat_clkFail) ∧
  (∃ (s : State),
    s.starting = true ∧ s.sys.rootLock = false) ∧
  (∃ (g : Fin 8) (s : State),
    s.starting = true ∧ 0 < (s.die g).tables) ∧
  (∃ (g : Fin 8) (s : State),
    s.starting = true ∧ 8 ≤ s.sys.step ∧ (s.die g).acked = false) ∧
  (∃ (g : Fin 8) (s : State),
    s.starting = true ∧ 8 ≤ s.sys.step ∧ (s.die g).acked = false) ∧
  (∃ (s : State),
    s.starting = true ∧ 8 ≤ s.sys.step ∧ s.sys.proven = false) ∧
  (∃ (s : State),
    s.starting = true ∧ 8 ≤ s.sys.step ∧ s.sys.proven = false ∧ s.sys.holdOff = false) ∧
  (∃ (p : Fin 4) (s : State),
    s.starting = true ∧ 10 ≤ s.sys.step ∧ (s.pair p).tested = false) ∧
  (∃ (p : Fin 4) (s : State),
    s.starting = true ∧ 10 ≤ s.sys.step ∧ (s.pair p).tested = false) ∧
  (∃ (s : State),
    s.starting = true ∧ 10 ≤ s.sys.step) ∧
  (∃ (s : State),
    s.mgrUp = true ∧ s.sys.mode.isServing = true ∧ 8 ≤ s.sys.step ∧ s.sys.ddrTrained = false) ∧
  (∃ (s : State),
    s.starting = true ∧ s.sys.wake.por = true) ∧
  (∃ (s : State),
    s.readyForRules = false ∧ s.provable = false) ∧
  (∃ (f : StartFacts) (s : State),
    s.readyForRules = true ∧ s.sys.facts = some f ∧ f.tableOk = false) ∧
  (∃ (f : StartFacts) (s : State),
    s.readyForRules = true ∧ s.sys.facts = some f ∧ f.tableOk = true ∧ (startTables s).provable = false) ∧
  (∃ (s : State),
    s.provable = true ∧ s.readyForRules = false ∧ s.rfx.safeN = false ∧ s.rfx.arrested = true) ∧
  (∃ (s : State),
    s.provable = true ∧ s.readyForRules = false ∧ s.rfx.safeN = false ∧ s.rfx.arrested = false ∧ s.healthyPairs < s.cfg.image.aPairs) ∧
  (∃ (s : State),
    s.provable = true ∧ s.readyForRules = false ∧ s.rfx.safeN = false ∧ s.rfx.arrested = false ∧ s.cfg.image.aPairs ≤ s.healthyPairs) :=
  ⟨⟨(let s : State := Wit.run; let s : State := { s with sys := { s.sys with mode := .startup } }; { s with sys := { s.sys with rootLock := false } }),
    by decide +kernel⟩,
  ⟨(let s : State := Wit.run; let s : State := { s with sys := { s.sys with mode := .basecamp } }; { s with sys := { s.sys with rootLock := false } }),
    by decide +kernel⟩,
  ⟨(let s : State := Wit.run; let s : State := { s with sys := { s.sys with mode := .startup } }; { s with sys := { s.sys with rootLock := false } }),
    by decide +kernel⟩,
  ⟨0, (let s : State := Wit.run; { s with sys := { s.sys with mode := .startup } }),
    by decide +kernel⟩,
  ⟨0, (let s : State := Wit.run; let s : State := { s with sys := { s.sys with mode := .startup } }; s.modDie (0 : Fin 8) (fun y0 => { y0 with acked := false })),
    by decide +kernel⟩,
  ⟨0, (let s : State := Wit.run; let s : State := { s with sys := { s.sys with mode := .startup } }; s.modDie (0 : Fin 8) (fun y0 => { y0 with acked := false })),
    by decide +kernel⟩,
  ⟨(let s : State := Wit.run; let s : State := { s with sys := { s.sys with mode := .startup } }; { s with sys := { s.sys with proven := false } }),
    by decide +kernel⟩,
  ⟨(let s : State := Wit.run; let s : State := { s with sys := { s.sys with mode := .startup } }; let s : State := { s with sys := { s.sys with proven := false } }; { s with sys := { s.sys with holdOff := false } }),
    by decide +kernel⟩,
  ⟨0, (let s : State := Wit.run; let s : State := { s with sys := { s.sys with mode := .startup } }; s.modPair (0 : Fin 4) (fun y0 => { y0 with tested := false })),
    by decide +kernel⟩,
  ⟨0, (let s : State := Wit.run; let s : State := { s with sys := { s.sys with mode := .startup } }; s.modPair (0 : Fin 4) (fun y0 => { y0 with tested := false })),
    by decide +kernel⟩,
  ⟨(let s : State := Wit.run; { s with sys := { s.sys with mode := .startup } }),
    by decide +kernel⟩,
  ⟨(let s : State := Wit.run; { s with sys := { s.sys with ddrTrained := false } }),
    by decide +kernel⟩,
  ⟨(let s : State := Wit.run; let s : State := { s with sys := { s.sys with mode := .startup } }; { s with sys := { s.sys with wake := { s.sys.wake with por := true } } }),
    by decide +kernel⟩,
  ⟨Wit.run,
    by decide +kernel⟩,
  ⟨({ Zero.startFacts with tableOk := false }), (let s : State := Wit.run; let s : State := { s with sys := { s.sys with mode := .startup, step := 12, proven := false } }; let s : State := { s with sys := { s.sys with facts := some ({ Zero.startFacts with tableOk := false } : StartFacts) } }; { s with sys := { s.sys with facts := some ({ Zero.startFacts with tableOk := false } : StartFacts) } }),
    by decide +kernel⟩,
  ⟨({ Zero.startFacts with tableOk := true }), (let s : State := Wit.run; let s : State := { s with sys := { s.sys with mode := .startup, step := 12, proven := false } }; let s : State := { s with sys := { s.sys with facts := some ({ Zero.startFacts with tableOk := true } : StartFacts) } }; let s : State := { s with sys := { s.sys with facts := some ({ Zero.startFacts with tableOk := true } : StartFacts) } }; s.modDie 0 (fun y0 => { y0 with acked := false })),
    by decide +kernel⟩,
  ⟨(let s : State := Wit.run; let s : State := { s with sys := { s.sys with mode := .startup, proven := false, step := 13 }, rfx := { s.rfx with checked := true } }; let s : State := { s with rfx := { s.rfx with safeN := false } }; let s : State := { s with rfx := { s.rfx with arrested := true } }; { s with saf := .reset }),
    by decide +kernel⟩,
  ⟨(let s : State := Wit.run; let s : State := { s with sys := { s.sys with mode := .startup, proven := false, step := 13 }, rfx := { s.rfx with checked := true } }; let s : State := { s with rfx := { s.rfx with safeN := false } }; let s : State := { s with rfx := { s.rfx with arrested := false } }; { s with saf := .reset }),
    by decide +kernel⟩,
  ⟨(let s : State := Wit.run; let s : State := { s with sys := { s.sys with mode := .startup, proven := false, step := 13 }, rfx := { s.rfx with checked := true } }; let s : State := { s with rfx := { s.rfx with safeN := false } }; { s with rfx := { s.rfx with arrested := false } }),
    by decide +kernel⟩⟩

theorem witness_IntegrityEventsRestartOrArrest :
  (∃ (item : RunItem) (s : State),
    s.mgrUp = true ∧ s.sys.mode.isServing = true ∧ (item = .rfx ∨ item = .fab1)) ∧
  (∃ (item : RunItem) (s : State),
    s.mgrUp = true ∧ s.sys.mode = .run ∧ item ≠ .rfx ∧ item ≠ .fab1) ∧
  (∃ (s : State),
    s.mgrUp = true ∧ s.sys.mode.isServing = true) ∧
  (∃ (s : State),
    s.sys.mode = .workshop) ∧
  (∃ (corrected : U16) (s : State),
    s.rfx.enabled = true ∧ s.mgrUp = true) ∧
  (∃ (ok : Bool) (corrected : U16) (s : State),
    s.rfx.enabled = false) ∧
  (∃ (corrected : U16) (s : State),
    s.rfx.enabled = true ∧ s.mgrUp = true) ∧
  (∃ (rule : Fin 1024) (s : State),
    s.rfx.enabled = true ∧ s.mgrUp = true) :=
  ⟨⟨.rfx, Wit.run,
    by decide +kernel⟩,
  ⟨.manager, (let s : State := Wit.run; { s with sys := { s.sys with mode := .run } }),
    by decide +kernel⟩,
  ⟨Wit.run,
    by decide +kernel⟩,
  ⟨(let s : State := Wit.run; { s with sys := { s.sys with mode := .workshop } }),
    by decide +kernel⟩,
  ⟨0, (let s : State := Wit.run; { s with rfx := { s.rfx with enabled := true } }),
    by decide +kernel⟩,
  ⟨false, 0, (let s : State := Wit.run; { s with rfx := { s.rfx with enabled := false } }),
    by decide +kernel⟩,
  ⟨0, (let s : State := Wit.run; { s with rfx := { s.rfx with enabled := true } }),
    by decide +kernel⟩,
  ⟨0, (let s : State := Wit.run; { s with rfx := { s.rfx with enabled := true } }),
    by decide +kernel⟩⟩

theorem witness_SafeNLimpTimerAndSelfArrest :
  (∃ (s : State),
    s.rfx.enabled = false) ∧
  (∃ (s : State),
    s.rfx.enabled = true ∧ s.rfx.sna = true) ∧
  (∃ (s : State),
    s.rfx.enabled = true ∧ s.rfx.sna = false) ∧
  (∃ (s : State),
    s.rfx.enabled = false) ∧
  (∃ (s : State),
    s.rfx.arrested = true ∧ s.mgrUp = true ∧ (s.sys.mode = .limp ∨ s.sys.mode = .workshop) ∧ s.rfx.noLimp = false ∧ s.rfx.limpApplied = false) ∧
  (∃ (s : State),
    s.rfx.arrested = true ∧ s.mgrUp = true ∧ s.sys.mode ≠ .limp ∧ s.sys.mode ≠ .workshop) ∧
  (∃ (source : Nat) (detail : List Byte) (s : State),
    s.mgrUp = true ∧ s.rfx.arrested = false) ∧
  (∃ (source : Nat) (detail : List Byte) (s : State),
    s.mgrUp = true ∧ s.rfx.arrested = false ∧ (s.sys.mode = .run ∨ s.sys.mode = .workshop)) ∧
  (∃ (source : Nat) (detail : List Byte) (s : State),
    s.mgrUp = true ∧ s.rfx.arrested = true) :=
  ⟨⟨(let s : State := Wit.run; { s with rfx := { s.rfx with enabled := false } }),
    by decide +kernel⟩,
  ⟨(let s : State := Wit.run; let s : State := { s with rfx := { s.rfx with enabled := true } }; { s with rfx := { s.rfx with sna := true } }),
    by decide +kernel⟩,
  ⟨(let s : State := Wit.run; let s : State := { s with rfx := { s.rfx with enabled := true } }; { s with rfx := { s.rfx with sna := false } }),
    by decide +kernel⟩,
  ⟨(let s : State := Wit.run; { s with rfx := { s.rfx with enabled := false } }),
    by decide +kernel⟩,
  ⟨(let s : State := Wit.run; let s : State := { s with rfx := { s.rfx with arrested := true } }; let s : State := { s with rfx := { s.rfx with noLimp := false } }; let s : State := { s with rfx := { s.rfx with limpApplied := false } }; { s with sys := { s.sys with mode := .limp } }),
    by decide +kernel⟩,
  ⟨(let s : State := Wit.run; { s with rfx := { s.rfx with arrested := true } }),
    by decide +kernel⟩,
  ⟨0, ([]), (let s : State := Wit.run; { s with rfx := { s.rfx with arrested := false } }),
    by decide +kernel⟩,
  ⟨0, ([]), (let s : State := Wit.run; { s with rfx := { s.rfx with arrested := false } }),
    by decide +kernel⟩,
  ⟨0, ([]), (let s : State := Wit.run; { s with rfx := { s.rfx with arrested := true } }),
    by decide +kernel⟩⟩

theorem witness_BivouacAndItsWakeSources :
  (∃ (s : State) (r : Req) (p : Port),
    Requested s r p 0 ∧ p.sysPriv = true ∧ s.sys.mode = .run ∧ s.sleepReady = true) ∧
  (∃ (s : State) (r : Req) (p : Port),
    Requested s r p 0 ∧ p.sysPriv = true ∧ s.sys.mode = .run ∧ s.sleepReady = false) ∧
  (∃ (s : State),
    s.autoReady = true ∧ s.sleepReady = true) ∧
  (∃ (s : State),
    s.sys.bivouac = .switching ∧ s.sys.wakeLatched = false) ∧
  (∃ (s : State),
    s.sys.bivouac = .switching ∧ s.sys.wakeLatched = true) ∧
  (∃ (s : State),
    s.sys.bivouac = .asleep) ∧
  (∃ (s : State),
    s.sys.bivouac = .switching) ∧
  (∃ (s : State),
    s.sys.bivouac = .none ∧ s.mgrUp = true) ∧
  (∃ (p : Fin 8) (s : State),
    s.sys.bivouac = .asleep ∧ s.cfg.image.domains.contains (pdPort p.val) = true) ∧
  (∃ (s : State),
    s.sys.bivouac = .asleep) ∧
  (∃ (s : State),
    s.sys.bivouac = .asleep) ∧
  (∃ (s : State),
    s.sys.bivouac = .asleep ∧ s.tb.alarm.isSome = true ∧ s.mgrUp = false) ∧
  (∃ (s : State),
    s.sys.bivouac = .none ∧ s.tb.alarm.isSome = true ∧ s.mgrUp = true) ∧
  (∃ (n : Fin 16) (mv : Int) (s : State) (r : DiVal),
    s.sys.bivouac = .asleep ∧ s.fio.cycMask.getLsbD n.val = true ∧ (s.fio.cyc.getD .reset n.val).ref = some r ∧ ((DiInput.reset.restart (s.fio.cyc.getD .reset n.val).rec_).compare mv).raw ≠ r ∧ s.fio.cycK ≤ (s.fio.cyc.getD .reset n.val).differ + 1) ∧
  (∃ (n : Fin 16) (mv : Int) (s : State) (r : DiVal),
    s.sys.bivouac = .asleep ∧ s.fio.cycMask.getLsbD n.val = true ∧ (s.fio.cyc.getD .reset n.val).ref = some r ∧ ((DiInput.reset.restart (s.fio.cyc.getD .reset n.val).rec_).compare mv).raw = r) ∧
  (∃ (c : Fin 16) (f : Option CanFrame) (s : State),
    (s.canCh c.val).xcvr = .lowPower ∧ (s.canCh c.val).waking = false ∧ (s.canCh c.val).record.wake = 1 ∧ s.sys.bivouac = .asleep) ∧
  (∃ (s : State),
    s.ring.phase = .active ∧ s.ring.sleepAt ≠ 0 ∧ s.sys.bivouac ≠ .entering) ∧
  (∃ (s : State),
    s.ring.phase = .active ∧ s.ring.sleepAt ≠ 0 ∧ s.sys.bivouac = .entering) :=
  ⟨⟨(let s : State := Wit.run; { s with sys := { s.sys with mode := .run } }), ((Wit.req 0)), Wit.sys,
    ⟨by decide +kernel, rfl, by decide +kernel, rfl⟩, by decide +kernel⟩,
  ⟨(let s : State := Wit.run; let s : State := { s with sys := { s.sys with mode := .run } }; { s with ring := { s.ring with sleepAt := 0 } }), ((Wit.req 0)), Wit.sys,
    ⟨by decide +kernel, rfl, by decide +kernel, rfl⟩, by decide +kernel⟩,
  ⟨Wit.run,
    by decide +kernel⟩,
  ⟨(let s : State := Wit.run; let s : State := { s with sys := { s.sys with bivouac := .switching } }; { s with sys := { s.sys with wakeLatched := false } }),
    by decide +kernel⟩,
  ⟨(let s : State := Wit.run; let s : State := { s with sys := { s.sys with bivouac := .switching } }; { s with sys := { s.sys with wakeLatched := true } }),
    by decide +kernel⟩,
  ⟨(let s : State := Wit.run; { s with sys := { s.sys with bivouac := .asleep } }),
    by decide +kernel⟩,
  ⟨(let s : State := Wit.run; { s with sys := { s.sys with bivouac := .switching } }),
    by decide +kernel⟩,
  ⟨(let s : State := Wit.run; { s with sys := { s.sys with bivouac := .none } }),
    by decide +kernel⟩,
  ⟨0, (let s : State := Wit.run; { s with sys := { s.sys with bivouac := .asleep } }),
    by decide +kernel⟩,
  ⟨(let s : State := Wit.run; { s with sys := { s.sys with bivouac := .asleep } }),
    by decide +kernel⟩,
  ⟨(let s : State := Wit.run; { s with sys := { s.sys with bivouac := .asleep } }),
    by decide +kernel⟩,
  ⟨(let s : State := Wit.run; let s : State := { s with sys := { s.sys with bivouac := .asleep } }; let s : State := { s with tb := { s.tb with alarm := some 5 } }; { s with sys := { s.sys with phase := .waiting } }),
    by decide +kernel⟩,
  ⟨(let s : State := Wit.run; let s : State := { s with sys := { s.sys with bivouac := .none } }; { s with tb := { s.tb with alarm := some 5 } }),
    by decide +kernel⟩,
  ⟨0, 12000, (let s : State := Wit.run; let s : State := { s with sys := { s.sys with bivouac := .asleep } }; let s : State := { s with fio := { s.fio with cycMask := 1, cyc := ⟨[(0, { CycSense.reset with ref := some (.open_ : DiVal) })]⟩ } }; { s with fio := { s.fio with cycK := 1 } }), .open_,
    by decide +kernel⟩,
  ⟨0, 0, (let s : State := Wit.run; let s : State := { s with sys := { s.sys with bivouac := .asleep } }; { s with fio := { s.fio with cycMask := 1, cyc := ⟨[(0, { CycSense.reset with ref := some (.open_ : DiVal) })]⟩ } }), .open_,
    by decide +kernel⟩,
  ⟨0, none, (let s : State := Wit.run; let s : State := s.modCan (0 : Fin 16).val (fun y0 => { y0 with xcvr := .lowPower }); let s : State := s.modCan (0 : Fin 16).val (fun y0 => { y0 with waking := false }); let s : State := s.modCan (0 : Fin 16).val (fun y0 => { y0 with record := { y0.record with wake := 1 } }); { s with sys := { s.sys with bivouac := .asleep } }),
    by decide +kernel⟩,
  ⟨(let s : State := Wit.run; { s with ring := { s.ring with phase := .active } }),
    by decide +kernel⟩,
  ⟨(let s : State := Wit.run; let s : State := { s with ring := { s.ring with phase := .active } }; { s with sys := { s.sys with bivouac := .entering } }),
    by decide +kernel⟩⟩

theorem witness_MailboxEventsMoveTheirPort :
  (∃ (n : Fin 512) (f : Fragment) (p : Port) (s : State),
    s.port? n.val = some p ∧ p.kind ≠ .loc ∧ s.ringServes = true ∧ (p.addFragment f).whole = false) ∧
  (∃ (n : Fin 512) (f : Fragment) (p : Port) (s : State),
    s.port? n.val = some p ∧ p.kind ≠ .loc ∧ (p.addFragment f).whole = true ∧ s.sys.mode ≠ .basecamp) ∧
  (∃ (n : Fin 512) (p : Port) (s : State),
    s.port? n.val = some p) ∧
  (∃ (v : Fin 256) (b : Fin 4) (index : U16) (msgs : List (HostMsg × MsgCheck)) (n : Nat) (p : Port) (s : State),
    s.localPort v.val b.val = some n ∧ s.port? n = some p ∧ s.vzfActive v.val = true ∧ (index - p.reqCons).toNat ≤ 2 ^ p.depthLog2) ∧
  (∃ (v : Fin 256) (b : Fin 4) (index : U16) (msgs : List (HostMsg × MsgCheck)) (fault : Bool) (n : Nat) (p : Port) (s : State),
    s.localPort v.val b.val = some n ∧ s.port? n = some p ∧ s.vzfActive v.val = true ∧ 2 ^ p.depthLog2 < (index - p.reqCons).toNat) ∧
  (∃ (v : Fin 256) (b : Fin 4) (evt : Bool) (index : U16) (n : Nat) (p : Port) (s : State),
    s.localPort v.val b.val = some n ∧ s.port? n = some p ∧ s.vzfActive v.val = true) ∧
  (∃ (n : Fin 512) (seq ack : U32) (p : Port) (s : State),
    s.port? n.val = some p) ∧
  (∃ (n : Fin 512) (p : Port) (s : State),
    s.port? n.val = some p ∧ p.kind ≠ .loc) ∧
  (∃ (n : Fin 512) (p : Port) (s : State),
    s.port? n.val = some p ∧ p.awaits = true) ∧
  (∃ (n : Fin 512) (evt : Bool) (seq : U32) (p : Port) (k : Nat) (s : State),
    s.port? n.val = some p ∧ p.kind ≠ .loc ∧ p.rtxStopped = false ∧ p.retriesOf evt seq = some k ∧ k < 8) ∧
  (∃ (n : Fin 512) (evt : Bool) (seq : U32) (p : Port) (s : State),
    s.port? n.val = some p ∧ p.kind ≠ .loc ∧ p.rtxStopped = false ∧ p.retriesOf evt seq = some 8) ∧
  (∃ (r : Req) (code : U16) (s : State),
    s.unknownCode code = true ∧ r.version = 1 ∧ r.len ≤ 4032) :=
  ⟨⟨0, Zero.fragment, Wit.sys, Wit.run,
    by decide +kernel⟩,
  ⟨0, ({ Zero.fragment with last := true }), Wit.sys, Wit.run,
    by decide +kernel⟩,
  ⟨0, Wit.sys, Wit.run,
    by decide +kernel⟩,
  ⟨1, 0, 0, ([]), 1, Wit.own, Wit.run,
    by decide +kernel⟩,
  ⟨1, 0, 33, ([]), false, 1, Wit.own, Wit.run,
    by decide +kernel⟩,
  ⟨1, 0, false, 0, 1, Wit.own, Wit.run,
    by decide +kernel⟩,
  ⟨0, 0, 0, Wit.sys, Wit.run,
    by decide +kernel⟩,
  ⟨0, Wit.sys, Wit.run,
    by decide +kernel⟩,
  ⟨0, ({ Wit.sys with awaits := true }), (let s : State := Wit.run; { s with mbx := { s.mbx with ports := ⟨[(0, ({ Wit.sys with awaits := true } : Port)), (1, Wit.own)]⟩ } }),
    by decide +kernel⟩,
  ⟨0, false, 0, ({ Wit.sys with rsps := [{ Zero.heldRsp with retries := 7 }] }), 7, (let s : State := Wit.run; { s with mbx := { s.mbx with ports := ⟨[(0, ({ Wit.sys with rsps := [{ Zero.heldRsp with retries := 7 }] } : Port)), (1, Wit.own)]⟩ } }),
    by decide +kernel⟩,
  ⟨0, false, 0, ({ Wit.sys with rsps := [{ Zero.heldRsp with retries := 8 }] }), (let s : State := Wit.run; { s with mbx := { s.mbx with ports := ⟨[(0, ({ Wit.sys with rsps := [{ Zero.heldRsp with retries := 8 }] } : Port)), (1, Wit.own)]⟩ } }),
    by decide +kernel⟩,
  ⟨(Wit.req 0), 0, Wit.run,
    by decide +kernel⟩⟩

theorem witness_PortCommandsAnswer :
  (∃ (s : State) (r : Req) (p : Port),
    Requested s r p 0 ∧ s.sys.mode.isAwake = true) ∧
  (∃ (s : State) (r : Req) (p : Port) (rsp evt : U32) (a b : List U32),
    Requested s r p 8 ∧ s.sys.mode.isAwake = true ∧ replayList rsp p.rspSeq (p.rsps.map (·.seq)) = some a ∧ replayList evt p.evtSeq (p.evts.map (·.seq)) = some b) ∧
  (∃ (s : State) (r : Req) (p : Port) (cls : Byte) (mask : U32),
    Requested s r p 8 ∧ s.sys.mode.isServing = true ∧ cls.toNat ≤ 4) ∧
  (∃ (s : State) (r : Req) (p : Port) (data : List Byte),
    Requested s r p data.length ∧ data.length ≤ 4032 ∧ s.sys.mode.isAwake = true) ∧
  (∃ (s : State) (r : Req) (p : Port),
    Requested s r p 0 ∧ s.sys.mode.isAwake = true) ∧
  (∃ (s : State) (r : Req) (p : Port),
    Requested s r p 0 ∧ s.sys.mode.isServing = true) ∧
  (∃ (s : State) (r : Req) (p q : Port) (port burst : U16) (rate : U32),
    Requested s r p 8 ∧ p.sysPriv = true ∧ s.sys.mode.isRunLimpWork = true ∧ port.toNat ≤ 511 ∧ 1 ≤ burst.toNat ∧ burst.toNat ≤ 64 ∧ 1000 ≤ rate.toNat ∧ rate.toNat ≤ 200000 ∧ s.port? port.toNat = some q) ∧
  (∃ (s : State) (r : Req) (p : Port) (port burst : U16) (rate : U32),
    Requested s r p 8 ∧ p.sysPriv = false) :=
  ⟨⟨Wit.run, ((Wit.req 0)), Wit.sys,
    ⟨by decide +kernel, rfl, by decide +kernel, rfl⟩, by decide +kernel⟩,
  ⟨Wit.run, ((Wit.req 8)), Wit.sys, 0, 0, ([]), ([]),
    ⟨by decide +kernel, rfl, by decide +kernel, rfl⟩, by decide +kernel⟩,
  ⟨Wit.run, ((Wit.req 8)), Wit.sys, 4, 0,
    ⟨by decide +kernel, rfl, by decide +kernel, rfl⟩, by decide +kernel⟩,
  ⟨Wit.run, ((Wit.req ([] : List Byte).length)), Wit.sys, ([]),
    ⟨by decide +kernel, rfl, by decide +kernel, rfl⟩, by decide +kernel⟩,
  ⟨Wit.run, ((Wit.req 0)), Wit.sys,
    ⟨by decide +kernel, rfl, by decide +kernel, rfl⟩, by decide +kernel⟩,
  ⟨Wit.run, ((Wit.req 0)), Wit.sys,
    ⟨by decide +kernel, rfl, by decide +kernel, rfl⟩, by decide +kernel⟩,
  ⟨(let s : State := Wit.run; { s with mbx := { s.mbx with ports := ⟨[(0, (Wit.sys : Port)), ((511 : U16).toNat, (Wit.own : Port))]⟩ } }), ((Wit.req 8)), Wit.sys, Wit.own, 511, 64, 200000,
    ⟨by decide +kernel, rfl, by decide +kernel, rfl⟩, by decide +kernel⟩,
  ⟨Wit.run, ({ Wit.req 8 with port := 1 }), Wit.own, 0, 0, 0,
    ⟨by decide +kernel, rfl, by decide +kernel, rfl⟩, by decide +kernel⟩⟩

theorem witness_ModeAndConfigurationCommandsAct :
  (∃ (s : State) (r : Req) (p : Port) (nonce : Nat),
    Requested s r p 128 ∧ p.sysPriv = true ∧ (s.sys.mode = .run ∨ s.sys.mode = .limp) ∧ s.nonceFresh nonce = true ∧ s.slotServes 124 8 = true) ∧
  (∃ (s : State) (r : Req) (p : Port) (nonce : Nat),
    Requested s r p 128 ∧ p.sysPriv = true ∧ (s.sys.mode = .run ∨ s.sys.mode = .limp)) ∧
  (∃ (s : State) (r : Req) (p : Port),
    Requested s r p 0 ∧ p.sysPriv = true ∧ s.sys.mode = .workshop) ∧
  (∃ (s : State) (r : Req) (p : Port) (nonce : Nat),
    Requested s r p 128 ∧ p.sysPriv = true ∧ (s.sys.mode = .limp ∨ s.sys.mode = .workshop ∨ s.sys.mode = .basecamp) ∧ s.nonceFresh nonce = true ∧ s.slotServes 124 8 = true) ∧
  (∃ (s : State) (r : Req) (p : Port) (nonce : Nat),
    Requested s r p 128 ∧ p.sysPriv = true ∧ (s.sys.mode = .limp ∨ s.sys.mode = .workshop ∨ s.sys.mode = .basecamp)) ∧
  (∃ (s : State) (r : Req) (p : Port),
    Requested s r p 0 ∧ p.sysPriv = true ∧ s.sys.mode = .workshop) ∧
  (∃ (s : State) (r : Req) (p : Port),
    Requested s r p 0 ∧ s.sys.mode.isServing = true) ∧
  (∃ (s : State) (r : Req) (p : Port),
    Requested s r p 0 ∧ s.sys.mode = .basecamp ∧ s.key.trngFail = false) ∧
  (∃ (s : State) (r : Req) (p : Port),
    Requested s r p 0 ∧ p.sysPriv = true ∧ s.sys.mode.isRunLimpWork = true ∧ s.key.trngFail = false) ∧
  (∃ (s : State) (r : Req) (p : Port) (total : U32),
    Requested s r p 4 ∧ p.sysPriv = true ∧ s.sys.mode.isRunLimpWork = true ∧ total.toNat ≤ 0x1000100 ∧ s.cfg.session = none) ∧
  (∃ (s : State) (r : Req) (p : Port) (offset : U32) (data : List Byte) (x : CfgSession),
    Requested s r p (4 + data.length) ∧ p.sysPriv = true ∧ s.sys.mode.isServing = true ∧ blockOk data = true ∧ s.cfg.session = some x ∧ offset.toNat + data.length ≤ x.total) ∧
  (∃ (s : State) (r : Req) (p : Port) (content : Bank) (x : CfgSession),
    Requested s r p 0 ∧ p.sysPriv = true ∧ s.sys.mode.isServing = true ∧ s.cfg.session = some x ∧ bankStatus (content.read (s.cfg.bank s.cfg.target).bytes) s = none) ∧
  (∃ (s : State) (r : Req) (p : Port) (x : CfgSession),
    Requested s r p 0 ∧ p.sysPriv = true ∧ s.sys.mode.isRunLimpWork = true ∧ s.cfg.session = some x) ∧
  (∃ (s : State) (x : CfgSession),
    s.cfg.session = some x) ∧
  (∃ (s : State) (r : Req) (p : Port),
    Requested s r p 0 ∧ s.sys.mode.isServing = true) ∧
  (∃ (s : State) (r : Req) (p : Port) (n : Byte) (offset : U32) (length : U16) (x : Section),
    Requested s r p 12 ∧ p.sysPriv = true ∧ s.sys.mode.isServing = true ∧ 16 ≤ length.toNat ∧ length.toNat ≤ 4000 ∧ length.toNat % 16 = 0 ∧ s.cfg.sections[n.toNat]? = some x ∧ offset.toNat ≤ x.bytes.length) ∧
  (∃ (s : State) (r : Req) (p : Port),
    Requested s r p 0 ∧ p.sysPriv = true ∧ s.sys.mode.isRunLimpWork = true ∧ s.cfg.activating = none ∧ s.bankOk (s.cfg.bank s.cfg.target) = true ∧ newerBank s (s.cfg.bank s.cfg.target) = true ∧ s.activationStatus (s.cfg.bank s.cfg.target) = none ∧ (differing (s.cfg.bank s.cfg.target).sections s.cfg.sections).isEmpty = true) ∧
  (∃ (s : State) (r : Req) (p : Port),
    Requested s r p 0 ∧ p.sysPriv = true ∧ s.sys.mode.isRunLimpWork = true ∧ s.cfg.activating = none ∧ s.bankOk (s.cfg.bank s.cfg.target) = true ∧ newerBank s (s.cfg.bank s.cfg.target) = true ∧ s.activationStatus (s.cfg.bank s.cfg.target) = none ∧ (differing (s.cfg.bank s.cfg.target).sections s.cfg.sections).isEmpty = false) ∧
  (∃ (s : State) (port : Nat) (tag seq : U32),
    s.ring.joined = false ∧ s.cfg.activating = some (port, tag, seq) ∧ s.bankOk (s.cfg.bank s.cfg.target) = true ∧ newerBank s (s.cfg.bank s.cfg.target) = true ∧ s.activationStatus (s.cfg.bank s.cfg.target) = none) :=
  ⟨⟨Wit.run, ((Wit.req 128)), Wit.sys, 0,
    ⟨by decide +kernel, rfl, by decide +kernel, rfl⟩, by decide +kernel⟩,
  ⟨Wit.run, ((Wit.req 128)), Wit.sys, 0,
    ⟨by decide +kernel, rfl, by decide +kernel, rfl⟩, by decide +kernel⟩,
  ⟨(let s : State := Wit.run; { s with sys := { s.sys with mode := .workshop } }), ((Wit.req 0)), Wit.sys,
    ⟨by decide +kernel, rfl, by decide +kernel, rfl⟩, by decide +kernel⟩,
  ⟨(let s : State := Wit.run; { s with sys := { s.sys with mode := .workshop } }), ((Wit.req 128)), Wit.sys, 0,
    ⟨by decide +kernel, rfl, by decide +kernel, rfl⟩, by decide +kernel⟩,
  ⟨(let s : State := Wit.run; { s with sys := { s.sys with mode := .workshop } }), ((Wit.req 128)), Wit.sys, 0,
    ⟨by decide +kernel, rfl, by decide +kernel, rfl⟩, by decide +kernel⟩,
  ⟨(let s : State := Wit.run; { s with sys := { s.sys with mode := .workshop } }), ((Wit.req 0)), Wit.sys,
    ⟨by decide +kernel, rfl, by decide +kernel, rfl⟩, by decide +kernel⟩,
  ⟨Wit.run, ((Wit.req 0)), Wit.sys,
    ⟨by decide +kernel, rfl, by decide +kernel, rfl⟩, by decide +kernel⟩,
  ⟨(let s : State := Wit.run; let s : State := { s with sys := { s.sys with mode := .basecamp } }; { s with key := { s.key with trngFail := false } }), ((Wit.req 0)), Wit.sys,
    ⟨by decide +kernel, rfl, by decide +kernel, rfl⟩, by decide +kernel⟩,
  ⟨(let s : State := Wit.run; { s with key := { s.key with trngFail := false } }), ((Wit.req 0)), Wit.sys,
    ⟨by decide +kernel, rfl, by decide +kernel, rfl⟩, by decide +kernel⟩,
  ⟨(let s : State := Wit.run; { s with cfg := { s.cfg with session := none } }), ((Wit.req 4)), Wit.sys, 0,
    ⟨by decide +kernel, rfl, by decide +kernel, rfl⟩, by decide +kernel⟩,
  ⟨(let s : State := Wit.run; { s with cfg := { s.cfg with session := some ({ total := 16 } : CfgSession) } }), ((Wit.req (4 + (zeros 16 : List Byte).length))), Wit.sys, 0, (zeros 16), ({ total := 16 }),
    ⟨by decide +kernel, rfl, by decide +kernel, rfl⟩, by decide +kernel⟩,
  ⟨(let s : State := Wit.run; let s : State := { s with cfg := { s.cfg with session := some (Zero.cfgSession : CfgSession) } }; { s with cfg := { s.cfg with bankA := { s.cfg.bankA with bytes := Wit.bankBytes }, bankB := { s.cfg.bankB with bytes := Wit.bankBytes } } }), ((Wit.req 0)), Wit.sys, (Wit.bank 2), Zero.cfgSession,
    ⟨by decide +kernel, rfl, by decide +kernel, rfl⟩, by decide +kernel⟩,
  ⟨(let s : State := Wit.run; { s with cfg := { s.cfg with session := some (Zero.cfgSession : CfgSession) } }), ((Wit.req 0)), Wit.sys, Zero.cfgSession,
    ⟨by decide +kernel, rfl, by decide +kernel, rfl⟩, by decide +kernel⟩,
  ⟨(let s : State := Wit.run; { s with cfg := { s.cfg with session := some (Zero.cfgSession : CfgSession) } }), Zero.cfgSession,
    by decide +kernel⟩,
  ⟨Wit.run, ((Wit.req 0)), Wit.sys,
    ⟨by decide +kernel, rfl, by decide +kernel, rfl⟩, by decide +kernel⟩,
  ⟨(let s : State := Wit.run; { s with cfg := { s.cfg with sections := [{ kind := .vzf, bytes := zeros 16 }] } }), ((Wit.req 12)), Wit.sys, 0, 0, 4000, ({ kind := .vzf, bytes := zeros 16 }),
    ⟨by decide +kernel, rfl, by decide +kernel, rfl⟩, by decide +kernel⟩,
  ⟨(let s : State := Wit.run; { s with cfg := { s.cfg with activating := none } }), ((Wit.req 0)), Wit.sys,
    ⟨by decide +kernel, rfl, by decide +kernel, rfl⟩, by decide +kernel⟩,
  ⟨(let s : State := Wit.run; let s : State := { s with cfg := { s.cfg with activating := none } }; { s with cfg := { s.cfg with sections := [{ kind := .vzf, bytes := zeros 16 }] } }), ((Wit.req 0)), Wit.sys,
    ⟨by decide +kernel, rfl, by decide +kernel, rfl⟩, by decide +kernel⟩,
  ⟨(let s : State := Wit.run; let s : State := { s with ring := { s.ring with joined := false } }; { s with cfg := { s.cfg with activating := some ((0 : Nat), (0 : U32), (0 : U32)) } }), 0, 0, 0,
    by decide +kernel⟩⟩

theorem witness_ChannelCommandsAndDataPathAct :
  (∃ (s : State) (r : Req) (p : Port) (ch : U16) (mode prio : Byte) (duty : U16) (phase : Byte),
    Requested s r p 8 ∧ p.mayUse (s.chOwner ch.toNat) ∧ p.mayPrio s prio.toNat ∧ ch.toNat ≤ 111 ∧ (chClass ch.toNat).isSwitch = true ∧ mode.toNat ≤ 2 ∧ duty.toNat ≤ 10000 ∧ s.sys.mode.isRunLimpWork = true ∧ (mode.toNat = 0 ∨ ((s.chan ch.toNat).grd.latched = false ∧ (s.chan ch.toNat).grd.locked = false))) ∧
  (∃ (s : State) (r : Req) (p : Port) (ch : U16) (mode prio : Byte) (duty : U16) (phase : Byte),
    Requested s r p 8 ∧ p.mayUse (s.chOwner ch.toNat) ∧ p.mayPrio s prio.toNat ∧ ch.toNat ≤ 111 ∧ (chClass ch.toNat).isSwitch = true ∧ mode.toNat = 1 ∧ duty.toNat ≤ 10000 ∧ s.sys.mode.isRunLimpWork = true ∧ (s.chan ch.toNat).grd.latched = true) ∧
  (∃ (s : State) (r : Req) (p : Port) (ch : U16),
    Requested s r p 2 ∧ p.mayUse (s.chOwner ch.toNat) ∧ ch.toNat ≤ 111 ∧ s.sys.mode.isServing = true) ∧
  (∃ (s : State) (r : Req) (p : Port) (ch : U16) (id : Byte) (x : Profile),
    Requested s r p 4 ∧ p.mayUse (s.chOwner ch.toNat) ∧ ch.toNat ≤ 111 ∧ s.sys.mode.isRunWork = true ∧ (s.chan (bridgeIdx ch.toNat)).out.isOff = true ∧ s.cfg.image.profiles.get? id.toNat = some x ∧ profileStatus (bridgeIdx ch.toNat) (s.groupVolt (bridgeIdx ch.toNat / 14)) x = none ∧ (s.chan (bridgeIdx ch.toNat)).grd.lockFw = false) ∧
  (∃ (s : State) (r : Req) (p : Port) (ch : U16),
    Requested s r p 2 ∧ p.mayUse (s.chOwner ch.toNat) ∧ ch.toNat ≤ 111 ∧ s.sys.mode.isServing = true) ∧
  (∃ (s : State) (r : Req) (p : Port) (ch : U16),
    Requested s r p 4 ∧ p.mayUse (s.chOwner ch.toNat) ∧ ch.toNat ≤ 111 ∧ (chClass ch.toNat).isSwitch = true ∧ s.sys.mode.isRunLimpWork = true ∧ (s.chan ch.toNat).grd.lockLedger = true ∧ 2 * (s.chan ch.toNat).grd.ledgerNow s.now ≤ (chClass ch.toNat).budget) ∧
  (∃ (s : State) (r : Req) (p : Port) (ch : U16),
    Requested s r p 4 ∧ p.mayUse (s.chOwner ch.toNat) ∧ ch.toNat ≤ 111 ∧ (chClass ch.toNat).isSwitch = true ∧ s.sys.mode.isRunLimpWork = true ∧ (s.chan ch.toNat).grd.lockLedger = true ∧ (chClass ch.toNat).budget < 2 * (s.chan ch.toNat).grd.ledgerNow s.now) ∧
  (∃ (s : State) (r : Req) (p : Port) (ch : U16),
    Requested s r p 2 ∧ p.mayUse (s.chOwner ch.toNat) ∧ ch.toNat ≤ 111 ∧ s.sys.mode.isRunLimpWork = true ∧ (s.chan (bridgeIdx ch.toNat)).grd.latched = true ∧ (s.chan (bridgeIdx ch.toNat)).grd.junctionOk = true ∧ ((s.chan (bridgeIdx ch.toNat)).grd.wireTrip = false ∨ (s.chan (bridgeIdx ch.toNat)).grd.wireOk = true) ∧ (s.chan (bridgeIdx ch.toNat)).grd.latchArc = false) ∧
  (∃ (s : State) (r : Req) (p : Port) (ch : U16) (setting : Byte) (tHold : U16),
    Requested s r p 6 ∧ p.mayUse (s.chOwner ch.toNat) ∧ ch.toNat ≤ 111 ∧ s.sys.mode.isRunWork = true ∧ setting.toNat ≤ 1 ∧ 10 ≤ tHold.toNat ∧ tHold.toNat ≤ 2000) ∧
  (∃ (s : State) (r : Req) (p : Port) (set : List KeepEntry),
    Requested s r p (4 + 8 * set.length) ∧ p.sysPriv = true ∧ s.sys.mode.isRunWork = true ∧ set.length ≤ 8 ∧ (∀ e ∈ set, e.ch.toNat ≤ 111 ∧ e.duty.toNat ≤ 10000 ∧ (e.mode = 1 ∨ e.mode = 2) ∧ keepAllowed s e.ch.toNat = true)) ∧
  (∃ (s : State) (r : Req) (p : Port) (ch : U16),
    Requested s r p 2 ∧ p.mayUse (s.chOwner ch.toNat) ∧ ch.toNat ≤ 111 ∧ s.sys.mode.isRunLimpWork = true) ∧
  (∃ (s : State) (r : Req) (p : Port),
    Requested s r p 2 ∧ s.sys.mode.isRunLimpWork = true) ∧
  (∃ (s : State) (r : Req) (p : Port) (ch : U16) (test : Byte) (duration : U16),
    Requested s r p 6 ∧ p.sysPriv = true ∧ ch.toNat ≤ 111 ∧ ((chClass ch.toNat).isSwitch = true ∨ 2 ≤ test.toNat) ∧ test.toNat ≤ 3 ∧ 1 ≤ duration.toNat ∧ duration.toNat ≤ 1000 ∧ s.sys.mode = .workshop ∧ (s.chan (bridgeIdx ch.toNat)).test = none) ∧
  (∃ (s : State) (ch : Fin 112) (pass : Bool) (value : U32) (x : ChTestRun),
    (s.chan (bridgeIdx ch.val)).test = some x ∧ x.test ≠ 2) ∧
  (∃ (s : State) (ch : Fin 112) (pass : Bool) (value : U32) (x : ChTestRun),
    (s.chan (bridgeIdx ch.val)).test = some x ∧ x.test = 2 ∧ (s.chan (bridgeIdx ch.val)).grd.clampOver = false) ∧
  (∃ (s : State) (r : Req) (p : Port) (ch : U16),
    Requested s r p 2 ∧ p.mayUse (s.chOwner ch.toNat) ∧ ch.toNat ≤ 111 ∧ (chClass ch.toNat).isSwitch = true ∧ s.sys.mode.isServing = true) ∧
  (∃ (v : Fin 256) (ch : Fin 112) (value : U32) (s : State),
    (chClass ch.val).isSwitch = true) ∧
  (∃ (v i : Nat) (w : U32) (s : State),
    s.chOwner i = some v ∧ (s.vzf v).life = .active) ∧
  (∃ (v i : Nat) (w : U32) (s : State),
    s.chOwner i ≠ some v) ∧
  (∃ (v : Fin 256) (ch : Fin 112) (s : State),
    s.chOwner ch.val = some v.val) ∧
  (∃ (v : Fin 256) (ch : Fin 112) (s : State),
    s.chOwner ch.val = some v.val) :=
  ⟨⟨Wit.run, ((Wit.req 8)), Wit.sys, 107, 2, 0, 10000, 0,
    ⟨by decide +kernel, rfl, by decide +kernel, rfl⟩, (by first | exact Or.inl (by decide +kernel) | exact Or.inr ⟨by decide +kernel, by decide +kernel⟩), ⟨by decide +kernel, .inl rfl⟩, by decide +kernel⟩,
  ⟨(let s : State := Wit.run; s.modChan (107 : U16).toNat (fun y0 => { y0 with grd := { y0.grd with latched := true } })), ((Wit.req 8)), Wit.sys, 107, 1, 0, 10000, 0,
    ⟨by decide +kernel, rfl, by decide +kernel, rfl⟩, (by first | exact Or.inl (by decide +kernel) | exact Or.inr ⟨by decide +kernel, by decide +kernel⟩), ⟨by decide +kernel, .inl rfl⟩, by decide +kernel⟩,
  ⟨Wit.run, ((Wit.req 2)), Wit.sys, 111,
    ⟨by decide +kernel, rfl, by decide +kernel, rfl⟩, (by first | exact Or.inl (by decide +kernel) | exact Or.inr ⟨by decide +kernel, by decide +kernel⟩), by decide +kernel⟩,
  ⟨(let s : State := Wit.run; let s : State := { s with sys := { s.sys with mode := .workshop } }; let s : State := s.modChan (bridgeIdx (107 : U16).toNat) (fun y0 => { y0 with grd := { y0.grd with lockFw := false } }); { s with cfg := { s.cfg with image := { s.cfg.image with profiles := ⟨[(0, (Profile.generic : Profile))]⟩ } } }), ((Wit.req 4)), Wit.sys, 107, 0, Profile.generic,
    ⟨by decide +kernel, rfl, by decide +kernel, rfl⟩, (by first | exact Or.inl (by decide +kernel) | exact Or.inr ⟨by decide +kernel, by decide +kernel⟩), by decide +kernel⟩,
  ⟨Wit.run, ((Wit.req 2)), Wit.sys, 111,
    ⟨by decide +kernel, rfl, by decide +kernel, rfl⟩, (by first | exact Or.inl (by decide +kernel) | exact Or.inr ⟨by decide +kernel, by decide +kernel⟩), by decide +kernel⟩,
  ⟨(let s : State := Wit.run; s.modChan (107 : U16).toNat (fun y0 => { y0 with grd := { y0.grd with lockLedger := true } })), ((Wit.req 4)), Wit.sys, 107,
    ⟨by decide +kernel, rfl, by decide +kernel, rfl⟩, (by first | exact Or.inl (by decide +kernel) | exact Or.inr ⟨by decide +kernel, by decide +kernel⟩), by decide +kernel⟩,
  ⟨(let s : State := Wit.run; let s : State := s.modChan (107 : U16).toNat (fun y0 => { y0 with grd := { y0.grd with lockLedger := true } }); s.modChan (107 : U16).toNat (fun y0 => { y0 with grd := { y0.grd with ledgerUj := 60000000 } })), ((Wit.req 4)), Wit.sys, 107,
    ⟨by decide +kernel, rfl, by decide +kernel, rfl⟩, (by first | exact Or.inl (by decide +kernel) | exact Or.inr ⟨by decide +kernel, by decide +kernel⟩), by decide +kernel⟩,
  ⟨(let s : State := Wit.run; let s : State := s.modChan (bridgeIdx (111 : U16).toNat) (fun y0 => { y0 with grd := { y0.grd with latched := true } }); let s : State := s.modChan (bridgeIdx (111 : U16).toNat) (fun y0 => { y0 with grd := { y0.grd with junctionOk := true } }); s.modChan (bridgeIdx (111 : U16).toNat) (fun y0 => { y0 with grd := { y0.grd with latchArc := false } })), ((Wit.req 2)), Wit.sys, 111,
    ⟨by decide +kernel, rfl, by decide +kernel, rfl⟩, (by first | exact Or.inl (by decide +kernel) | exact Or.inr ⟨by decide +kernel, by decide +kernel⟩), by decide +kernel⟩,
  ⟨(let s : State := Wit.run; { s with sys := { s.sys with mode := .workshop } }), ((Wit.req 6)), Wit.sys, 111, 1, 2000,
    ⟨by decide +kernel, rfl, by decide +kernel, rfl⟩, (by first | exact Or.inl (by decide +kernel) | exact Or.inr ⟨by decide +kernel, by decide +kernel⟩), by decide +kernel⟩,
  ⟨(let s : State := Wit.run; { s with sys := { s.sys with mode := .workshop } }), ((Wit.req (4 + 8 * ([] : List KeepEntry).length))), Wit.sys, ([]),
    ⟨by decide +kernel, rfl, by decide +kernel, rfl⟩, by decide +kernel⟩,
  ⟨Wit.run, ((Wit.req 2)), Wit.sys, 111,
    ⟨by decide +kernel, rfl, by decide +kernel, rfl⟩, (by first | exact Or.inl (by decide +kernel) | exact Or.inr ⟨by decide +kernel, by decide +kernel⟩), by decide +kernel⟩,
  ⟨Wit.run, ((Wit.req 2)), Wit.sys,
    ⟨by decide +kernel, rfl, by decide +kernel, rfl⟩, by decide +kernel⟩,
  ⟨(let s : State := Wit.run; let s : State := { s with sys := { s.sys with mode := .workshop } }; s.modChan (bridgeIdx (111 : U16).toNat) (fun y0 => { y0 with test := none })), ((Wit.req 6)), Wit.sys, 111, 3, 1000,
    ⟨by decide +kernel, rfl, by decide +kernel, rfl⟩, by decide +kernel⟩,
  ⟨(let s : State := Wit.run; s.modChan (bridgeIdx (0 : Fin 112).val) (fun y0 => { y0 with test := some (Zero.chTestRun : ChTestRun) })), 0, false, 0, Zero.chTestRun,
    by decide +kernel⟩,
  ⟨(let s : State := Wit.run; let s : State := s.modChan (bridgeIdx (0 : Fin 112).val) (fun y0 => { y0 with test := some ({ Zero.chTestRun with test := 2 } : ChTestRun) }); s.modChan (bridgeIdx (0 : Fin 112).val) (fun y0 => { y0 with grd := { y0.grd with clampOver := false } })), 0, false, 0, ({ Zero.chTestRun with test := 2 }),
    by decide +kernel⟩,
  ⟨Wit.run, ((Wit.req 2)), Wit.sys, 107,
    ⟨by decide +kernel, rfl, by decide +kernel, rfl⟩, (by first | exact Or.inl (by decide +kernel) | exact Or.inr ⟨by decide +kernel, by decide +kernel⟩), by decide +kernel⟩,
  ⟨1, 0, 0, Wit.run,
    by decide +kernel⟩,
  ⟨1, 0, 0, Wit.run,
    by decide +kernel⟩,
  ⟨2, 0, 0, Wit.run,
    by decide +kernel⟩,
  ⟨1, 0, Wit.run,
    by decide +kernel⟩,
  ⟨1, 0, Wit.run,
    by decide +kernel⟩⟩

theorem witness_BridgeAndValveCommandsAct :
  (∃ (s : State) (r : Req) (p : Port) (ch : U16) (f : HbFields),
    Requested s r p 18 ∧ p.mayUse (s.chOwner ch.toNat) ∧ ch.toNat ≤ 111 ∧ chClass ch.toNat = .half ∧ s.sys.mode.isRunLimpWork = true ∧ f.flags.toNat < 32 ∧ hbRange (hbBlockOf f) = true ∧ (s.bridge (bridgeIdx ch.toNat / 14)).moving = false ∧ hbConflict (s.chan (bridgeIdx ch.toNat)).prof (hbBlockOf f) = false ∧ (hbBlockOf f).rippleEn = true) ∧
  (∃ (s : State) (r : Req) (p : Port) (ch : U16) (drive prio : Byte) (duty : U16) (phase flags : Byte) (target : U32),
    Requested s r p 12 ∧ p.mayUse (s.chOwner ch.toNat) ∧ p.mayPrio s prio.toNat ∧ ch.toNat ≤ 111 ∧ chClass ch.toNat = .half ∧ drive.toNat ≤ 4 ∧ flags.toNat ≤ 1 ∧ duty.toNat ≤ 10000 ∧ s.sys.mode.isRunLimpWork = true ∧ (s.chan (bridgeIdx ch.toNat)).grd.latched = false ∧ (flagOf flags 0 = false ∨ (s.bridge (bridgeIdx ch.toNat / 14)).posValid = true)) ∧
  (∃ (s : State) (r : Req) (p : Port) (ch : U16) (drive prio : Byte) (duty : U16) (phase : Byte) (target : U32),
    Requested s r p 12 ∧ p.mayUse (s.chOwner ch.toNat) ∧ p.mayPrio s prio.toNat ∧ ch.toNat ≤ 111 ∧ chClass ch.toNat = .half ∧ drive.toNat ≤ 4 ∧ duty.toNat ≤ 10000 ∧ s.sys.mode.isRunLimpWork = true ∧ (s.chan (bridgeIdx ch.toNat)).grd.latched = false ∧ (s.bridge (bridgeIdx ch.toNat / 14)).posValid = false) ∧
  (∃ (s : State) (r : Req) (p : Port) (ch : U16) (value : U32),
    Requested s r p 8 ∧ p.mayUse (s.chOwner ch.toNat) ∧ ch.toNat ≤ 111 ∧ chClass ch.toNat = .half ∧ s.sys.mode.isRunLimpWork = true ∧ (s.bridge (bridgeIdx ch.toNat / 14)).moving = false) ∧
  (∃ (s : State) (r : Req) (p : Port) (ch : U16) (value : U32),
    Requested s r p 8 ∧ p.mayUse (s.chOwner ch.toNat) ∧ ch.toNat ≤ 111 ∧ chClass ch.toNat = .half ∧ s.sys.mode.isRunLimpWork = true) ∧
  (∃ (s : State) (r : Req) (p : Port) (ch : U16) (flags : Byte) (amp freq bw : U16),
    Requested s r p 10 ∧ p.mayUse (s.chOwner ch.toNat) ∧ ch.toNat ≤ 111 ∧ chClass ch.toNat = .valve ∧ s.sys.mode.isRunLimpWork = true ∧ flags.toNat ≤ 3 ∧ dithRange (vlvBlockOf (s.chan ch.toNat).prof flags amp freq bw) = true ∧ vlvConflict (s.chan ch.toNat).prof (vlvBlockOf (s.chan ch.toNat).prof flags amp freq bw) = false ∧ (s.valve (chanVlv ch.toNat)).dithAct = false) ∧
  (∃ (s : State) (r : Req) (p : Port) (ch : U16) (flags : Byte) (amp freq bw : U16),
    Requested s r p 10 ∧ p.mayUse (s.chOwner ch.toNat) ∧ ch.toNat ≤ 111 ∧ chClass ch.toNat = .valve ∧ s.sys.mode.isRunLimpWork = true ∧ flags.toNat ≤ 3 ∧ dithRange (vlvBlockOf (s.chan ch.toNat).prof flags amp freq bw) = true ∧ vlvConflict (s.chan ch.toNat).prof (vlvBlockOf (s.chan ch.toNat).prof flags amp freq bw) = false ∧ (s.valve (chanVlv ch.toNat)).dithAct = true) ∧
  (∃ (s : State) (r : Req) (p : Port) (ch : U16) (prio enable : Byte) (ma : U16),
    Requested s r p 8 ∧ p.mayUse (s.chOwner ch.toNat) ∧ p.mayPrio s prio.toNat ∧ ch.toNat ≤ 111 ∧ chClass ch.toNat = .valve ∧ enable.toNat ≤ 1 ∧ ma.toNat ≤ 3000 ∧ s.sys.mode.isRunLimpWork = true ∧ (s.chan ch.toNat).grd.latched = false) ∧
  (∃ (s : State) (r : Req) (p : Port) (ch : U16),
    Requested s r p 2 ∧ p.mayUse (s.chOwner ch.toNat) ∧ ch.toNat ≤ 111 ∧ chClass ch.toNat = .valve ∧ s.sys.mode.isRunLimpWork = true) :=
  ⟨⟨(let s : State := Wit.run; s.modChan (bridgeIdx (109 : U16).toNat) (fun y0 => { y0 with prof := { y0.prof with fPwm := 4000 } })), ((Wit.req 18)), Wit.sys, 109, ({ flags := 1, dead := 2, iStall := 50, tStall := 10, rippleRev := 2, fRipMin := 20, fRipMax := 200, tRunon := 10, minRipAmp := 1 }),
    ⟨by decide +kernel, rfl, by decide +kernel, rfl⟩, (by first | exact Or.inl (by decide +kernel) | exact Or.inr ⟨by decide +kernel, by decide +kernel⟩), by decide +kernel⟩,
  ⟨(let s : State := Wit.run; s.modChan (bridgeIdx (109 : U16).toNat) (fun y0 => { y0 with grd := { y0.grd with latched := false } })), ((Wit.req 12)), Wit.sys, 109, 4, 0, 10000, 0, 0, 0,
    ⟨by decide +kernel, rfl, by decide +kernel, rfl⟩, (by first | exact Or.inl (by decide +kernel) | exact Or.inr ⟨by decide +kernel, by decide +kernel⟩), ⟨by decide +kernel, .inl rfl⟩, by decide +kernel⟩,
  ⟨(let s : State := Wit.run; let s : State := s.modChan (bridgeIdx (109 : U16).toNat) (fun y0 => { y0 with grd := { y0.grd with latched := false } }); s.modBridge (bridgeIdx (109 : U16).toNat / 14) (fun y0 => { y0 with posValid := false })), ((Wit.req 12)), Wit.sys, 109, 4, 0, 10000, 0, 0,
    ⟨by decide +kernel, rfl, by decide +kernel, rfl⟩, (by first | exact Or.inl (by decide +kernel) | exact Or.inr ⟨by decide +kernel, by decide +kernel⟩), ⟨by decide +kernel, .inl rfl⟩, by decide +kernel⟩,
  ⟨Wit.run, ((Wit.req 8)), Wit.sys, 109, 0,
    ⟨by decide +kernel, rfl, by decide +kernel, rfl⟩, (by first | exact Or.inl (by decide +kernel) | exact Or.inr ⟨by decide +kernel, by decide +kernel⟩), by decide +kernel⟩,
  ⟨Wit.run, ((Wit.req 8)), Wit.sys, 109, 0,
    ⟨by decide +kernel, rfl, by decide +kernel, rfl⟩, (by first | exact Or.inl (by decide +kernel) | exact Or.inr ⟨by decide +kernel, by decide +kernel⟩), by decide +kernel⟩,
  ⟨(let s : State := Wit.run; let s : State := s.modValve (chanVlv (111 : U16).toNat) (fun y0 => { y0 with dithAct := false }); s.modChan (111 : U16).toNat (fun y0 => { y0 with prof := { y0.prof with fPwm := 8000 } })), ((Wit.req 10)), Wit.sys, 111, 3, 500, 250, 500,
    ⟨by decide +kernel, rfl, by decide +kernel, rfl⟩, (by first | exact Or.inl (by decide +kernel) | exact Or.inr ⟨by decide +kernel, by decide +kernel⟩), by decide +kernel⟩,
  ⟨(let s : State := Wit.run; let s : State := s.modValve (chanVlv (111 : U16).toNat) (fun y0 => { y0 with dithAct := true }); s.modChan (111 : U16).toNat (fun y0 => { y0 with prof := { y0.prof with fPwm := 8000 } })), ((Wit.req 10)), Wit.sys, 111, 3, 500, 250, 500,
    ⟨by decide +kernel, rfl, by decide +kernel, rfl⟩, (by first | exact Or.inl (by decide +kernel) | exact Or.inr ⟨by decide +kernel, by decide +kernel⟩), by decide +kernel⟩,
  ⟨(let s : State := Wit.run; s.modChan (111 : U16).toNat (fun y0 => { y0 with grd := { y0.grd with latched := false } })), ((Wit.req 8)), Wit.sys, 111, 0, 1, 3000,
    ⟨by decide +kernel, rfl, by decide +kernel, rfl⟩, (by first | exact Or.inl (by decide +kernel) | exact Or.inr ⟨by decide +kernel, by decide +kernel⟩), ⟨by decide +kernel, .inl rfl⟩, by decide +kernel⟩,
  ⟨Wit.run, ((Wit.req 2)), Wit.sys, 111,
    ⟨by decide +kernel, rfl, by decide +kernel, rfl⟩, (by first | exact Or.inl (by decide +kernel) | exact Or.inr ⟨by decide +kernel, by decide +kernel⟩), by decide +kernel⟩⟩

theorem witness_RuleCommandsAct :
  (∃ (s : State) (r : Req) (p : Port) (rule : U16) (f : RuleFields),
    Requested s r p 44 ∧ p.sysPriv = true ∧ rule.toNat ≤ 1023 ∧ s.sys.mode = .workshop ∧ ruleContent f = none ∧ ruleOwnership s (ruleOf f) = none) ∧
  (∃ (s : State) (r : Req) (p : Port) (rule : U16) (f : RuleFields),
    Requested s r p 44 ∧ p.sysPriv = true ∧ rule.toNat ≤ 1023 ∧ s.sys.mode = .workshop ∧ s.rfx.enabled = false ∧ ruleContent f = none ∧ ruleOwnership s (ruleOf f) = none) ∧
  (∃ (s : State) (r : Req) (p : Port) (rule : U16) (f : RuleFields),
    Requested s r p 44 ∧ p.sysPriv = true ∧ 1023 < rule.toNat) ∧
  (∃ (s : State) (r : Req) (p : Port) (first count : U16),
    Requested s r p 4 ∧ p.sysPriv = true ∧ 1 ≤ count.toNat ∧ count.toNat ≤ 64 ∧ first.toNat + count.toNat ≤ 1024 ∧ s.sys.mode.isRunLimpWork = true ∧ (∀ n ∈ span first.toNat count.toNat, s.orphanRule n = false)) ∧
  (∃ (s : State) (r : Req) (p : Port) (first : U16),
    Requested s r p 4 ∧ p.sysPriv = true ∧ first.toNat ≤ 1023 ∧ s.sys.mode.isRunLimpWork = true ∧ s.rfx.enabled = false ∧ s.orphanRule first.toNat = false) ∧
  (∃ (s : State) (r : Req) (p : Port) (first count : U16),
    Requested s r p 4 ∧ p.sysPriv = true ∧ 1 ≤ count.toNat ∧ count.toNat ≤ 64 ∧ first.toNat + count.toNat ≤ 1024 ∧ s.sys.mode.isRunLimpWork = true ∧ (∃ n ∈ span first.toNat count.toNat, s.orphanRule n = true)) ∧
  (∃ (s : State) (r : Req) (p : Port) (first count : U16),
    Requested s r p 4 ∧ p.sysPriv = true ∧ 1 ≤ count.toNat ∧ count.toNat ≤ 64 ∧ first.toNat + count.toNat ≤ 1024 ∧ s.sys.mode.isRunLimpWork = true) ∧
  (∃ (s : State) (r : Req) (p : Port) (first : U16),
    Requested s r p 4 ∧ p.sysPriv = true ∧ first.toNat ≤ 1023 ∧ s.sys.mode.isRunLimpWork = true ∧ s.rfx.enabled = false) ∧
  (∃ (s : State) (r : Req) (p : Port) (rule : U16),
    Requested s r p 4 ∧ p.sysPriv = true ∧ rule.toNat ≤ 1023 ∧ s.sys.mode.isServing = true) ∧
  (∃ (s : State) (r : Req) (p : Port) (first : U16),
    Requested s r p 4 ∧ p.sysPriv = true ∧ first.toNat ≤ 1023 ∧ s.sys.mode.isServing = true) ∧
  (∃ (s : State) (r : Req) (p : Port) (reason : U16),
    Requested s r p 4 ∧ p.sysPriv = true ∧ s.sys.mode.isServing = true) ∧
  (∃ (s : State) (r : Req) (p : Port) (tSnf : U16) (flags : Byte),
    Requested s r p 4 ∧ p.sysPriv = true ∧ flags.toNat ≤ 1 ∧ tSnf.toNat ≤ 200 ∧ s.sys.mode = .workshop ∧ (flags = 0 ∨ s.rfx.sna = true ∨ s.rfx.safeN = false)) ∧
  (∃ (s : State) (r : Req) (p : Port) (tSnf : U16),
    Requested s r p 4 ∧ p.sysPriv = true ∧ tSnf.toNat ≤ 200 ∧ s.sys.mode = .workshop ∧ s.rfx.sna = false ∧ s.rfx.safeN = true ∧ s.rfx.enabled = true) :=
  ⟨⟨(let s : State := Wit.run; { s with sys := { s.sys with mode := .workshop } }), ((Wit.req 44)), Wit.sys, 1023, Zero.ruleFields,
    ⟨by decide +kernel, rfl, by decide +kernel, rfl⟩, by decide +kernel⟩,
  ⟨(let s : State := Wit.run; let s : State := { s with sys := { s.sys with mode := .workshop } }; { s with rfx := { s.rfx with enabled := false } }), ((Wit.req 44)), Wit.sys, 1023, Zero.ruleFields,
    ⟨by decide +kernel, rfl, by decide +kernel, rfl⟩, by decide +kernel⟩,
  ⟨Wit.run, ((Wit.req 44)), Wit.sys, 1024, Zero.ruleFields,
    ⟨by decide +kernel, rfl, by decide +kernel, rfl⟩, by decide +kernel⟩,
  ⟨Wit.run, ((Wit.req 4)), Wit.sys, 0, 64,
    ⟨by decide +kernel, rfl, by decide +kernel, rfl⟩, by decide +kernel⟩,
  ⟨(let s : State := Wit.run; { s with rfx := { s.rfx with enabled := false } }), ((Wit.req 4)), Wit.sys, 1023,
    ⟨by decide +kernel, rfl, by decide +kernel, rfl⟩, by decide +kernel⟩,
  ⟨(let s : State := Wit.run; s.modRule 0 (fun y0 => { y0 with rule := { y0.rule with preds := [{ ptype := 7, cond := 0, src := 0, arg := 0 }], owner := 9 } })), ((Wit.req 4)), Wit.sys, 0, 1,
    ⟨by decide +kernel, rfl, by decide +kernel, rfl⟩, by decide +kernel⟩,
  ⟨Wit.run, ((Wit.req 4)), Wit.sys, 0, 64,
    ⟨by decide +kernel, rfl, by decide +kernel, rfl⟩, by decide +kernel⟩,
  ⟨(let s : State := Wit.run; { s with rfx := { s.rfx with enabled := false } }), ((Wit.req 4)), Wit.sys, 1023,
    ⟨by decide +kernel, rfl, by decide +kernel, rfl⟩, by decide +kernel⟩,
  ⟨Wit.run, ((Wit.req 4)), Wit.sys, 1023,
    ⟨by decide +kernel, rfl, by decide +kernel, rfl⟩, by decide +kernel⟩,
  ⟨Wit.run, ((Wit.req 4)), Wit.sys, 1023,
    ⟨by decide +kernel, rfl, by decide +kernel, rfl⟩, by decide +kernel⟩,
  ⟨Wit.run, ((Wit.req 4)), Wit.sys, 0,
    ⟨by decide +kernel, rfl, by decide +kernel, rfl⟩, by decide +kernel⟩,
  ⟨(let s : State := Wit.run; { s with sys := { s.sys with mode := .workshop } }), ((Wit.req 4)), Wit.sys, 200, 1,
    ⟨by decide +kernel, rfl, by decide +kernel, rfl⟩, by decide +kernel⟩,
  ⟨(let s : State := Wit.run; let s : State := { s with sys := { s.sys with mode := .workshop } }; let s : State := { s with rfx := { s.rfx with sna := false } }; let s : State := { s with rfx := { s.rfx with safeN := true } }; { s with rfx := { s.rfx with enabled := true } }), ((Wit.req 4)), Wit.sys, 200,
    ⟨by decide +kernel, rfl, by decide +kernel, rfl⟩, by decide +kernel⟩⟩

theorem witness_LinkHoldAndSupplyActOnTheDie :
  (∃ (die : Fin 8) (clamp : List (Fin 14 × Nat)) (s : State),
    s.mgrUp = true) ∧
  (∃ (die : Fin 8) (s : State),
    s.mgrUp = false) ∧
  (∃ (die : Fin 8) (s : State),
    (s.die die.val).seenFrame = true ∧ (s.die die.val).silent = false) ∧
  (∃ (die : Fin 8) (s : State),
    ((s.die die.val).seenFrame = false ∨ (s.die die.val).silent = true)) ∧
  (∃ (ch : Fin 112) (s : State),
    (s.chan ch.val).hold = .holding) ∧
  (∃ (ch : Fin 112) (s : State),
    (s.chan ch.val).hold ≠ .holding) ∧
  (∃ (g : Fin 8) (s : State),
    s.keepsRole = true) ∧
  (∃ (g : Fin 8) (s : State),
    s.keepsRole = true) ∧
  (∃ (g : Fin 8) (s : State),
    (s.bridge g.val).posValid = false) ∧
  (∃ (g : Fin 8) (s : State),
    (s.modDie g.val (fun d => { d with supply := .present, groundLost := false })).dieHears g.val = false ∧ (s.die g.val).keeping = false) :=
  ⟨⟨0, ([]), Wit.run,
    by decide +kernel⟩,
  ⟨0, (let s : State := Wit.run; { s with sys := { s.sys with phase := .waiting } }),
    by decide +kernel⟩,
  ⟨0, (let s : State := Wit.run; s.modDie (0 : Fin 8).val (fun y0 => { y0 with seenFrame := true })),
    by decide +kernel⟩,
  ⟨0, Wit.run,
    by decide +kernel⟩,
  ⟨0, (let s : State := Wit.run; s.modChan (0 : Fin 112).val (fun y0 => { y0 with hold := .holding })),
    by decide +kernel⟩,
  ⟨0, Wit.run,
    by decide +kernel⟩,
  ⟨0, Wit.run,
    by decide +kernel⟩,
  ⟨0, Wit.run,
    by decide +kernel⟩,
  ⟨0, (let s : State := Wit.run; s.modBridge (0 : Fin 8).val (fun y0 => { y0 with posValid := false })),
    by decide +kernel⟩,
  ⟨0, (let s : State := Wit.run; s.modDie (0 : Fin 8).val (fun y0 => { y0 with keeping := false })),
    by decide +kernel⟩⟩

theorem witness_ProtectionTripsAndRetries :
  (∃ (ch : Fin 112) (ma : Nat) (s : State),
    chClass ch.val ≠ .valve ∧ (chClass ch.val).latchLevel ≤ ma ∧ s.canTrip ch.val = true ∧ s.keepsRole = true) ∧
  (∃ (ch : Fin 112) (ma : Nat) (s : State),
    (chClass ch.val = .valve ∨ ma < (chClass ch.val).latchLevel)) ∧
  (∃ (ch : Fin 112) (s : State),
    s.limitOver ch.val = false) ∧
  (∃ (ch : Fin 112) (s : State),
    s.limitOver ch.val = true ∧ s.canTrip ch.val = true ∧ s.keepsRole = true) ∧
  (∃ (ch : Fin 112) (tj : Int) (s : State),
    1650 ≤ tj ∧ s.canTrip ch.val = true ∧ s.keepsRole = true) ∧
  (∃ (ch : Fin 112) (partner : Nat) (s : State),
    s.limitOver ch.val = true ∧ s.canTrip ch.val = true ∧ s.cfg.image.twin.en = true ∧ s.cfg.image.twin.relOnFault = true ∧ s.twin.role = .holder ∧ (bridgeIdx ch.val, partner) ∈ s.cfg.image.twin.list ∧ (s.chan (bridgeIdx ch.val)).tripLatches (s.chInHold (bridgeIdx ch.val)) (decide (s.sys.mode = .bivouac)) 2 = true) ∧
  (∃ (ch : Fin 112) (ma : Nat) (tj : Int) (s : State),
    s.canTrip ch.val = false) ∧
  (∃ (ch : Fin 112) (i2 : Nat) (s : State),
    s.canTrip (bridgeIdx ch.val) = true ∧ s.keepsRole = true ∧ insulRating (s.chan (bridgeIdx ch.val)).prof.insul * 1000000 - s.ambientUk (s.chan (bridgeIdx ch.val)).prof < wireRise (s.chan (bridgeIdx ch.val)).grd.riseUk i2 ((s.chan (bridgeIdx ch.val)).prof.wireOf (chClass (bridgeIdx ch.val))).1 ((s.chan (bridgeIdx ch.val)).prof.wireOf (chClass (bridgeIdx ch.val))).2) ∧
  (∃ (ch : Fin 112) (i2 : Nat) (s : State),
    (s.chan (bridgeIdx ch.val)).grd.waiting = false ∧ wireRise (s.chan (bridgeIdx ch.val)).grd.riseUk i2 ((s.chan (bridgeIdx ch.val)).prof.wireOf (chClass (bridgeIdx ch.val))).1 ((s.chan (bridgeIdx ch.val)).prof.wireOf (chClass (bridgeIdx ch.val))).2 ≤ insulRating (s.chan (bridgeIdx ch.val)).prof.insul * 1000000 - s.ambientUk (s.chan (bridgeIdx ch.val)).prof) ∧
  (∃ (ch : Fin 112) (rms dv : Nat) (s : State),
    s.arcRuns ch.val = true ∧ (s.chan ch.val).prof.arcRms < rms ∧ (s.chan ch.val).prof.arcDv < dv ∧ (s.chan ch.val).prof.arcN ≤ ((keepNewest 16 (true :: (s.chan ch.val).grd.arcWins)).filter (fun b => b)).length ∧ s.canTrip ch.val = true ∧ s.keepsRole = true) ∧
  (∃ (ch : Fin 112) (rms dv : Nat) (s : State),
    s.arcRuns ch.val = true ∧ (rms ≤ (s.chan ch.val).prof.arcRms ∨ dv ≤ (s.chan ch.val).prof.arcDv) ∧ ((keepNewest 16 (false :: (s.chan ch.val).grd.arcWins)).filter (fun b => b)).length < (s.chan ch.val).prof.arcN) ∧
  (∃ (ch : Fin 112) (s : State),
    (s.chan (bridgeIdx ch.val)).grd.waiting = true ∧ (s.chan (bridgeIdx ch.val)).grd.junctionOk = true ∧ (s.chan (bridgeIdx ch.val)).grd.wireOk = true ∧ (s.merged (bridgeIdx ch.val) (s.chan (bridgeIdx ch.val))).1.isOff = false) ∧
  (∃ (ch : Fin 112) (s : State),
    (s.chan (bridgeIdx ch.val)).grd.waiting = true ∧ (s.chan (bridgeIdx ch.val)).grd.junctionOk = false) ∧
  (∃ (ch : Fin 112) (tj : Int) (s : State),
    tj < 1450 ∧ (s.chan (bridgeIdx ch.val)).grd.waiting = true ∧ (s.chan (bridgeIdx ch.val)).grd.delayDone = true ∧ (s.chan (bridgeIdx ch.val)).grd.wireOk = true ∧ (s.merged (bridgeIdx ch.val) (s.chan (bridgeIdx ch.val))).1.isOff = false) ∧
  (∃ (ch : Fin 112) (tj : Int) (s : State),
    tj < 1450 ∧ (s.chan (bridgeIdx ch.val)).grd.waiting = false) ∧
  (∃ (ch : Fin 112) (tj : Int) (s : State),
    1450 ≤ tj) ∧
  (∃ (ch : Fin 112) (s : State),
    (s.chan (bridgeIdx ch.val)).out.isOff = false ∧ (s.chan (bridgeIdx ch.val)).grd.blocks = false) ∧
  (∃ (ch : Fin 112) (above : Bool) (s : State),
    (s.chan (bridgeIdx ch.val)).grd.inrush = true) ∧
  (∃ (ch : Fin 112) (lowest : Int) (s : State),
    (s.chan ch.val).grd.fwWatch = true ∧ (s.die (ch.val / 14)).supply ≠ .reversed ∧ -150 < lowest) ∧
  (∃ (ch : Fin 112) (lowest : Int) (clampUj : Nat) (s : State),
    (s.chan ch.val).grd.fwWatch = true ∧ (s.die (ch.val / 14)).supply ≠ .reversed ∧ lowest ≤ -150 ∧ s.keepsRole = true) :=
  ⟨⟨0, 200000, (let s : State := Wit.run; s.modChan (bridgeIdx (0 : Fin 112).val) (fun y0 => { y0 with out := .on })),
    by decide +kernel⟩,
  ⟨0, 0, Wit.run,
    by decide +kernel⟩,
  ⟨111, Wit.run,
    by decide +kernel⟩,
  ⟨0, (let s : State := Wit.run; let s : State := s.modChan (bridgeIdx (0 : Fin 112).val) (fun y0 => { y0 with out := .on }); s.modChan (bridgeIdx (0 : Fin 112).val) (fun y0 => { y0 with grd := { y0.grd with limiting := true, limTicks := 1000000000 } })),
    by decide +kernel⟩,
  ⟨0, 1650, (let s : State := Wit.run; s.modChan (bridgeIdx (0 : Fin 112).val) (fun y0 => { y0 with out := .on })),
    by decide +kernel⟩,
  ⟨0, 3, (let s : State := Wit.run; let s : State := { s with cfg := { s.cfg with image := { s.cfg.image with twin := { s.cfg.image.twin with en := true } } } }; let s : State := { s with cfg := { s.cfg with image := { s.cfg.image with twin := { s.cfg.image.twin with relOnFault := true } } } }; let s : State := { s with twin := { s.twin with role := .holder } }; let s : State := s.modChan (bridgeIdx (0 : Fin 112).val) (fun y0 => { y0 with out := .on }); let s : State := s.modChan (bridgeIdx (0 : Fin 112).val) (fun y0 => { y0 with grd := { y0.grd with retries := 255 } }); let s : State := { s with cfg := { s.cfg with image := { s.cfg.image with twin := { s.cfg.image.twin with list := [(0, 3)] } } } }; s.modChan (bridgeIdx (0 : Fin 112).val) (fun y0 => { y0 with grd := { y0.grd with limiting := true, limTicks := 1000000000 } })),
    by decide +kernel⟩,
  ⟨0, 0, 0, Wit.run,
    by decide +kernel⟩,
  ⟨0, 10000000000000000000, (let s : State := Wit.run; s.modChan (bridgeIdx (0 : Fin 112).val) (fun y0 => { y0 with out := .on })),
    by decide +kernel⟩,
  ⟨0, 0, (let s : State := Wit.run; s.modChan (bridgeIdx (0 : Fin 112).val) (fun y0 => { y0 with grd := { y0.grd with waiting := false } })),
    by decide +kernel⟩,
  ⟨107, 100000, 100000, (let s : State := Wit.run; s.modChan (107 : Fin 112).val (fun y0 => { y0 with out := .on, prof := { y0.prof with arcEn := true, arcN := 1 }, sense := { y0.sense with vg := 1801 } })),
    by decide +kernel⟩,
  ⟨107, 0, 0, (let s : State := Wit.run; s.modChan (107 : Fin 112).val (fun y0 => { y0 with out := .on, prof := { y0.prof with arcEn := true, arcN := 1 }, sense := { y0.sense with vg := 1801 } })),
    by decide +kernel⟩,
  ⟨0, (let s : State := Wit.run; let s : State := s.modChan (bridgeIdx (0 : Fin 112).val) (fun y0 => { y0 with grd := { y0.grd with waiting := true } }); let s : State := s.modChan (bridgeIdx (0 : Fin 112).val) (fun y0 => { y0 with grd := { y0.grd with junctionOk := true } }); let s : State := s.modChan (bridgeIdx (0 : Fin 112).val) (fun y0 => { y0 with grd := { y0.grd with wireOk := true } }); s.modChan (bridgeIdx (0 : Fin 112).val) (fun y0 => { y0 with sw := { y0.sw with out := .on } })),
    by decide +kernel⟩,
  ⟨0, (let s : State := Wit.run; let s : State := s.modChan (bridgeIdx (0 : Fin 112).val) (fun y0 => { y0 with grd := { y0.grd with waiting := true } }); s.modChan (bridgeIdx (0 : Fin 112).val) (fun y0 => { y0 with grd := { y0.grd with junctionOk := false } })),
    by decide +kernel⟩,
  ⟨0, 1449, (let s : State := Wit.run; let s : State := s.modChan (bridgeIdx (0 : Fin 112).val) (fun y0 => { y0 with grd := { y0.grd with waiting := true } }); let s : State := s.modChan (bridgeIdx (0 : Fin 112).val) (fun y0 => { y0 with grd := { y0.grd with delayDone := true } }); let s : State := s.modChan (bridgeIdx (0 : Fin 112).val) (fun y0 => { y0 with grd := { y0.grd with wireOk := true } }); s.modChan (bridgeIdx (0 : Fin 112).val) (fun y0 => { y0 with sw := { y0.sw with out := .on } })),
    by decide +kernel⟩,
  ⟨0, 1449, (let s : State := Wit.run; s.modChan (bridgeIdx (0 : Fin 112).val) (fun y0 => { y0 with grd := { y0.grd with waiting := false } })),
    by decide +kernel⟩,
  ⟨0, 1450, Wit.run,
    by decide +kernel⟩,
  ⟨0, (let s : State := Wit.run; s.modChan (bridgeIdx (0 : Fin 112).val) (fun y0 => { y0 with out := .on })),
    by decide +kernel⟩,
  ⟨0, false, (let s : State := Wit.run; s.modChan (bridgeIdx (0 : Fin 112).val) (fun y0 => { y0 with grd := { y0.grd with inrush := true } })),
    by decide +kernel⟩,
  ⟨0, 0, (let s : State := Wit.run; s.modChan (0 : Fin 112).val (fun y0 => { y0 with grd := { y0.grd with fwWatch := true } })),
    by decide +kernel⟩,
  ⟨0, (-150), 0, (let s : State := Wit.run; s.modChan (0 : Fin 112).val (fun y0 => { y0 with grd := { y0.grd with fwWatch := true } })),
    by decide +kernel⟩⟩

theorem witness_DieReportsActOnTheChannel :
  (∃ (ch : Fin 112) (s : State),
    (s.die (bridgeIdx ch.val / 14)).supply = .present ∧ s.openLoadRuns (bridgeIdx ch.val) = true ∧ (s.chan (bridgeIdx ch.val)).prof.openLoad (chClass (bridgeIdx ch.val)) ≠ 0) ∧
  (∃ (ch : Fin 112) (s : State),
    s.openLoadRuns (bridgeIdx ch.val) = false) ∧
  (∃ (ch : Fin 112) (s : State),
    chClass (bridgeIdx ch.val) = .valve ∧ (s.valve (chanVlv (bridgeIdx ch.val))).sat = false) ∧
  (∃ (ch : Fin 112) (under : Int) (s : State),
    (s.chan (bridgeIdx ch.val)).prof.olOffEn = true ∧ s.offRuns (bridgeIdx ch.val) = true ∧ (s.die (bridgeIdx ch.val / 14)).supply = .present ∧ chClass (bridgeIdx ch.val) ≠ .valve) ∧
  (∃ (ch : Fin 112) (under : Int) (s : State),
    (s.chan (bridgeIdx ch.val)).prof.olOffEn = true ∧ s.offRuns (bridgeIdx ch.val) = true ∧ (s.die (bridgeIdx ch.val / 14)).supply = .present ∧ under < 400) ∧
  (∃ (ch : Fin 112) (s : State),
    s.mgrUp = true) ∧
  (∃ (ch : Fin 112) (m : Measure) (s : State),
    s.rfx.enabled = false ∧ s.senses (ch.val / 14) = true) ∧
  (∃ (ch : Fin 112) (m : Measure) (s : State),
    s.rfx.enabled = false ∧ s.senses (ch.val / 14) = false) ∧
  (∃ (ch : Fin 112) (duty phase : Nat) (s : State),
    (s.chan ch.val).out = .pwm duty phase) ∧
  (∃ (ch : Fin 112) (uj : Nat) (s : State),
    (chClass ch.val).isSwitch = true ∧ 0 < uj) :=
  ⟨⟨0, (let s : State := Wit.run; let s : State := s.modDie (bridgeIdx (0 : Fin 112).val / 14) (fun y0 => { y0 with supply := .present }); s.modChan (bridgeIdx (0 : Fin 112).val) (fun y0 => { y0 with out := .on })),
    by decide +kernel⟩,
  ⟨0, Wit.run,
    by decide +kernel⟩,
  ⟨111, Wit.run,
    by decide +kernel⟩,
  ⟨0, 0, (let s : State := Wit.run; let s : State := s.modChan (bridgeIdx (0 : Fin 112).val) (fun y0 => { y0 with prof := { y0.prof with olOffEn := true } }); s.modDie (bridgeIdx (0 : Fin 112).val / 14) (fun y0 => { y0 with supply := .present })),
    by decide +kernel⟩,
  ⟨0, 399, (let s : State := Wit.run; let s : State := s.modChan (bridgeIdx (0 : Fin 112).val) (fun y0 => { y0 with prof := { y0.prof with olOffEn := true } }); s.modDie (bridgeIdx (0 : Fin 112).val / 14) (fun y0 => { y0 with supply := .present })),
    by decide +kernel⟩,
  ⟨0, Wit.run,
    by decide +kernel⟩,
  ⟨0, Zero.measure, (let s : State := Wit.run; { s with rfx := { s.rfx with enabled := false } }),
    by decide +kernel⟩,
  ⟨0, Zero.measure, (let s : State := Wit.run; let s : State := { s with rfx := { s.rfx with enabled := false } }; s.modDie ((0 : Fin 112).val / 14) (fun y0 => { y0 with supply := .reversed })),
    by decide +kernel⟩,
  ⟨0, 0, 0, (let s : State := Wit.run; s.modChan (0 : Fin 112).val (fun y0 => { y0 with out := .pwm (0 : Nat) (0 : Nat) })),
    by decide +kernel⟩,
  ⟨0, 1, Wit.run,
    by decide +kernel⟩⟩

theorem witness_LoadLimitsShedChannels :
  (∃ (s : State),
    s.sys.mode.isRunLimpWork = true ∧ s.mgrUp = true) ∧
  (∃ (s : State),
    (loadSample s).overLoss = true ∧ s.sys.mode.isRunLimpWork = true ∧ s.mgrUp = true ∧ s.ch.lossOver = false ∧ (loadSample s).ch.overGroups = []) ∧
  (∃ (g : Nat) (s : State),
    s.sys.mode.isRunLimpWork = true ∧ s.mgrUp = true ∧ s.ch.groupOver = [g] ∧ s.ch.lossOver = false) ∧
  (∃ (s : State),
    s.sys.mode.isRunLimpWork = true ∧ s.mgrUp = true ∧ s.ch.groupOver = [] ∧ s.ch.lossOver = true) ∧
  (∃ (s : State),
    s.ch.groupOver = [] ∧ s.ch.lossOver = false) ∧
  (∃ (ch : Fin 112) (s : State),
    (s.chan ch.val).orphan.isSome = true ∧ (s.chan ch.val).prof.tOrph ≠ 0) ∧
  (∃ (ch : Fin 112) (s : State),
    (s.chan ch.val).prof.tOrph = 0) ∧
  (∃ (ch : Fin 112) (s : State),
    (s.chan ch.val).orphan = none) :=
  ⟨⟨Wit.run,
    by decide +kernel⟩,
  ⟨(let s : State := Wit.run; let s : State := { s with ch := { s.ch with lossOver := false } }; { s with ch := { s.ch with lossHist := [100000000000000] } }),
    Wit.hot _ rfl (by decide +kernel), by decide +kernel⟩,
  ⟨0, (let s : State := Wit.run; let s : State := { s with ch := { s.ch with groupOver := [(0 : Nat)] } }; { s with ch := { s.ch with lossOver := false } }),
    by decide +kernel⟩,
  ⟨(let s : State := Wit.run; let s : State := { s with ch := { s.ch with groupOver := [] } }; { s with ch := { s.ch with lossOver := true } }),
    by decide +kernel⟩,
  ⟨(let s : State := Wit.run; let s : State := { s with ch := { s.ch with groupOver := [] } }; { s with ch := { s.ch with lossOver := false } }),
    by decide +kernel⟩,
  ⟨0, (let s : State := Wit.run; s.modChan (0 : Fin 112).val (fun y0 => { y0 with orphan := some (.off, 0), prof := { y0.prof with tOrph := 5 } })),
    by decide +kernel⟩,
  ⟨0, (let s : State := Wit.run; s.modChan (0 : Fin 112).val (fun y0 => { y0 with prof := { y0.prof with tOrph := 0 } })),
    by decide +kernel⟩,
  ⟨0, (let s : State := Wit.run; s.modChan (0 : Fin 112).val (fun y0 => { y0 with orphan := none })),
    by decide +kernel⟩⟩

theorem witness_BridgeAndValveEventsAct :
  (∃ (br : Fin 8) (code duty phase : Nat) (s : State),
    (s.bridge br.val).reversing = true ∧ (s.bridge br.val).nextDrive = some (.drive code duty phase)) ∧
  (∃ (br : Fin 8) (s : State),
    (s.bridge br.val).reversing = false) ∧
  (∃ (br : Fin 8) (s : State),
    (s.chan (brChan br.val)).prof.hb.stallEn = true ∧ (s.chan (brChan br.val)).prof.hb.stallReport = false ∧ ((s.bridge br.val).drive = 1 ∨ (s.bridge br.val).drive = 2) ∧ (s.bridge br.val).stall = false ∧ s.senses br.val = true) ∧
  (∃ (br : Fin 8) (s : State),
    (s.chan (brChan br.val)).prof.hb.stallEn = true ∧ (s.chan (brChan br.val)).prof.hb.stallReport = true ∧ ((s.bridge br.val).drive = 1 ∨ (s.bridge br.val).drive = 2) ∧ (s.bridge br.val).stall = false ∧ s.senses br.val = true) ∧
  (∃ (br : Fin 8) (interval : Nat) (s : State),
    (s.chan (brChan br.val)).prof.hb.rippleEn = true ∧ (s.bridge br.val).moving = true ∧ s.senses br.val = true ∧ judge (s.bridge br.val).intervals interval (s.chan (brChan br.val)).prof.hb.fRipMin = (1, false, 0) ∧ interval * (s.chan (brChan br.val)).prof.hb.fRipMin < 1000000 ∧ (s.bridge br.val).inserted + (s.bridge br.val).rejected ≤ 8 ∧ (s.chan (brChan br.val)).targetOf (s.chan (brChan br.val)).src = none) ∧
  (∃ (br : Fin 8) (interval : Nat) (s : State),
    (s.chan (brChan br.val)).prof.hb.rippleEn = true ∧ (s.bridge br.val).moving = true ∧ s.senses br.val = true ∧ judge (s.bridge br.val).intervals interval (s.chan (brChan br.val)).prof.hb.fRipMin = (0, true, 0) ∧ interval * (s.chan (brChan br.val)).prof.hb.fRipMin < 1000000 ∧ (s.bridge br.val).inserted + (s.bridge br.val).rejected < 8 ∧ (s.chan (brChan br.val)).targetOf (s.chan (brChan br.val)).src = none) ∧
  (∃ (br : Fin 8) (interval : Nat) (s : State),
    (s.chan (brChan br.val)).prof.hb.rippleEn = true ∧ (s.bridge br.val).moving = true ∧ s.senses br.val = true ∧ judge (s.bridge br.val).intervals interval (s.chan (brChan br.val)).prof.hb.fRipMin = (0, true, 0) ∧ interval * (s.chan (brChan br.val)).prof.hb.fRipMin < 1000000 ∧ (s.bridge br.val).inserted + (s.bridge br.val).rejected = 8 ∧ (s.bridge br.val).posValid = true) ∧
  (∃ (br : Fin 8) (interval : Nat) (s : State),
    ((s.chan (brChan br.val)).prof.hb.rippleEn = false ∨ (s.bridge br.val).moving = false ∨ s.senses br.val = false)) ∧
  (∃ (br : Fin 8) (s : State),
    (s.bridge br.val).drive ≠ 1 ∧ (s.bridge br.val).drive ≠ 2 ∧ (s.bridge br.val).runon = false ∧ (s.bridge br.val).reversing = false ∧ s.senses br.val = true ∧ (s.bridge br.val).posValid = true) ∧
  (∃ (br : Fin 8) (s : State),
    (s.bridge br.val).runon = true) ∧
  (∃ (vlv : Fin 16) (m : ValveMeasure) (ma : Nat) (s : State),
    (s.chan (vlvChan vlv.val)).out = .regulate ma ∧ (s.valve vlv.val).dithStart (s.chan (vlvChan vlv.val)).prof.vlv s.now = false) ∧
  (∃ (vlv : Fin 16) (m : ValveMeasure) (blk : VlvBlock) (s : State),
    (s.chan (vlvChan vlv.val)).out.isOff = false ∧ (s.valve vlv.val).dithStart (s.chan (vlvChan vlv.val)).prof.vlv s.now = true ∧ (s.valve vlv.val).newDither = some blk) ∧
  (∃ (vlv : Fin 16) (m : ValveMeasure) (s : State),
    (s.chan (vlvChan vlv.val)).out.isOff = true) ∧
  (∃ (vlv : Fin 16) (setMa gotMa : Nat) (s : State),
    (s.chan (vlvChan vlv.val)).out.isOff = false ∧ (s.valve vlv.val).compliance = false ∧ (s.valve vlv.val).sat = true ∧ setMa = (s.chan (vlvChan vlv.val)).prof.vlv.mean (s.chan (vlvChan vlv.val)).setPoint ∧ 100 * gotMa + 5 * setMa < 100 * setMa ∧ (s.chan (vlvChan vlv.val)).prof.openLoad .valve * 10 ≤ gotMa) ∧
  (∃ (vlv : Fin 16) (gotMa : Nat) (s : State),
    ((s.valve vlv.val).sat = false ∨ 95 * (s.chan (vlvChan vlv.val)).prof.vlv.mean (s.chan (vlvChan vlv.val)).setPoint ≤ 100 * gotMa)) ∧
  (∃ (vlv : Fin 16) (s : State),
    (s.valve vlv.val).compliance = true ∧ (s.valve vlv.val).compOff = false) ∧
  (∃ (vlv : Fin 16) (s : State),
    (s.valve vlv.val).compOff = true) :=
  ⟨⟨0, 0, 0, 0, (let s : State := Wit.run; let s : State := s.modBridge (0 : Fin 8).val (fun y0 => { y0 with reversing := true }); s.modBridge (0 : Fin 8).val (fun y0 => { y0 with nextDrive := some (.drive (0 : Nat) (0 : Nat) (0 : Nat)) })),
    by decide +kernel⟩,
  ⟨0, (let s : State := Wit.run; s.modBridge (0 : Fin 8).val (fun y0 => { y0 with reversing := false })),
    by decide +kernel⟩,
  ⟨0, (let s : State := Wit.run; let s : State := s.modChan (brChan (0 : Fin 8).val) (fun y0 => { y0 with prof := { y0.prof with hb := { y0.prof.hb with stallEn := true } } }); let s : State := s.modChan (brChan (0 : Fin 8).val) (fun y0 => { y0 with prof := { y0.prof with hb := { y0.prof.hb with stallReport := false } } }); let s : State := s.modBridge (0 : Fin 8).val (fun y0 => { y0 with stall := false }); s.modBridge (0 : Fin 8).val (fun y0 => { y0 with drive := 1 })),
    by decide +kernel⟩,
  ⟨0, (let s : State := Wit.run; let s : State := s.modChan (brChan (0 : Fin 8).val) (fun y0 => { y0 with prof := { y0.prof with hb := { y0.prof.hb with stallEn := true } } }); let s : State := s.modChan (brChan (0 : Fin 8).val) (fun y0 => { y0 with prof := { y0.prof with hb := { y0.prof.hb with stallReport := true } } }); let s : State := s.modBridge (0 : Fin 8).val (fun y0 => { y0 with stall := false }); s.modBridge (0 : Fin 8).val (fun y0 => { y0 with drive := 1 })),
    by decide +kernel⟩,
  ⟨0, 1000, (let s : State := Wit.run; let s : State := s.modChan (brChan (0 : Fin 8).val) (fun y0 => { y0 with prof := { y0.prof with hb := { y0.prof.hb with rippleEn := true } } }); s.modBridge (0 : Fin 8).val (fun y0 => { y0 with drive := 1, intervals := [1000] })),
    by decide +kernel⟩,
  ⟨0, 1000, (let s : State := Wit.run; let s : State := s.modChan (brChan (0 : Fin 8).val) (fun y0 => { y0 with prof := { y0.prof with hb := { y0.prof.hb with rippleEn := true } } }); s.modBridge (0 : Fin 8).val (fun y0 => { y0 with drive := 1, intervals := [10000] })),
    by decide +kernel⟩,
  ⟨0, 1000, (let s : State := Wit.run; let s : State := s.modChan (brChan (0 : Fin 8).val) (fun y0 => { y0 with prof := { y0.prof with hb := { y0.prof.hb with rippleEn := true } } }); let s : State := s.modBridge (0 : Fin 8).val (fun y0 => { y0 with posValid := true }); s.modBridge (0 : Fin 8).val (fun y0 => { y0 with drive := 1, intervals := [10000], inserted := 8 })),
    by decide +kernel⟩,
  ⟨0, 0, Wit.run,
    by decide +kernel⟩,
  ⟨0, (let s : State := Wit.run; let s : State := s.modBridge (0 : Fin 8).val (fun y0 => { y0 with runon := false }); let s : State := s.modBridge (0 : Fin 8).val (fun y0 => { y0 with reversing := false }); s.modBridge (0 : Fin 8).val (fun y0 => { y0 with posValid := true })),
    by decide +kernel⟩,
  ⟨0, (let s : State := Wit.run; s.modBridge (0 : Fin 8).val (fun y0 => { y0 with runon := true })),
    by decide +kernel⟩,
  ⟨0, Zero.valveMeasure, 0, (let s : State := Wit.run; s.modChan (vlvChan (0 : Fin 16).val) (fun y0 => { y0 with out := .regulate (0 : Nat) })),
    by decide +kernel⟩,
  ⟨0, Zero.valveMeasure, Zero.vlvBlock, (let s : State := Wit.run; let s : State := s.modValve (0 : Fin 16).val (fun y0 => { y0 with newDither := some (Zero.vlvBlock : VlvBlock) }); let s : State := s.modChan (vlvChan (0 : Fin 16).val) (fun y0 => { y0 with out := .regulate 100 }); let s : State := s.modValve (0 : Fin 16).val (fun y0 => { y0 with dithAct := true, newDither := some (Zero.vlvBlock : VlvBlock), regAt := 0, dithFrom := 0 }); { s with tb := { s.tb with count := 100000000000 } }),
    by decide +kernel⟩,
  ⟨0, Zero.valveMeasure, Wit.run,
    by decide +kernel⟩,
  ⟨0, (let s : State := (let s : State := Wit.run; let s : State := s.modValve (0 : Fin 16).val (fun y0 => { y0 with compliance := false }); let s : State := s.modValve (0 : Fin 16).val (fun y0 => { y0 with sat := true }); s.modChan (vlvChan (0 : Fin 16).val) (fun y0 => { y0 with out := .regulate 1000 })); (s.chan (vlvChan (0 : Fin 16).val)).prof.vlv.mean (s.chan (vlvChan (0 : Fin 16).val)).setPoint), 900, (let s : State := Wit.run; let s : State := s.modValve (0 : Fin 16).val (fun y0 => { y0 with compliance := false }); let s : State := s.modValve (0 : Fin 16).val (fun y0 => { y0 with sat := true }); s.modChan (vlvChan (0 : Fin 16).val) (fun y0 => { y0 with out := .regulate 1000 })),
    by decide +kernel⟩,
  ⟨0, 0, Wit.run,
    by decide +kernel⟩,
  ⟨0, (let s : State := Wit.run; let s : State := s.modValve (0 : Fin 16).val (fun y0 => { y0 with compliance := true }); s.modValve (0 : Fin 16).val (fun y0 => { y0 with compOff := false })),
    by decide +kernel⟩,
  ⟨0, (let s : State := Wit.run; s.modValve (0 : Fin 16).val (fun y0 => { y0 with compOff := true })),
    by decide +kernel⟩⟩

theorem witness_HandOverFollowsItsTable :
  (∃ (vin : Int) (s : State),
    s.brgRuns = true ∧ s.brg.limits.en = true ∧ s.sys.vinChecked = true ∧ s.vinValid vin = true ∧ s.brg.phase = .stopped) ∧
  (∃ (vin : Int) (s : State),
    s.brg.phase ≠ .stopped) ∧
  (∃ (vz48 vin : Int) (s : State),
    (s.brg.phase = .buck ∨ s.brg.phase = .handback) ∧ s.lossCause vz48 vin ≠ 0) ∧
  (∃ (vz48 vin : Int) (s : State),
    s.brg.phase ≠ .buck ∧ s.brg.phase ≠ .handback ∧ s.lossCause vz48 vin ≠ 0) ∧
  (∃ (vz48 vin : Int) (s : State),
    s.lossCause vz48 vin = 0) ∧
  (∃ (vz48 vin : Int) (s : State),
    s.brgPresent = true) ∧
  (∃ (s : State),
    s.brg.phase = .detected ∧ s.brg.test = none) ∧
  (∃ (s : State),
    (s.brg.phase ≠ .detected ∨ s.brg.test.isSome = true)) ∧
  (∃ (vbk12 : Int) (s : State),
    s.brg.phase = .detected ∧ (s.brg.limits.vBkMin : Int) ≤ vbk12 ∧ s.brg.test = none ∧ (s.brg.recent s.now).length < 2 ∧ s.brg.vinOk = false) ∧
  (∃ (vbk12 : Int) (s : State),
    s.brg.phase = .detected ∧ (s.brg.limits.vBkMin : Int) ≤ vbk12 ∧ s.brg.test = none ∧ 2 ≤ (s.brg.recent s.now).length) ∧
  (∃ (vbk12 : Int) (s : State),
    s.brg.phase = .detected ∧ vbk12 < (s.brg.limits.vBkMin : Int)) ∧
  (∃ (s : State),
    s.brg.phase = .boost ∧ s.brg.test = none) ∧
  (∃ (s : State),
    s.brg.phase ≠ .boost) ∧
  (∃ (s : State),
    s.brg.phase = .qualify) ∧
  (∃ (s : State),
    (s.brg.phase = .qualify ∨ s.brg.phase = .nofeed) ∧ s.brgRuns = true) ∧
  (∃ (s : State),
    s.brg.phase = .handback) ∧
  (∃ (s : State),
    s.brg.phase = .buck ∧ s.brg.restoring = true ∧ s.brg.shedLvl ≠ 0) ∧
  (∃ (s : State),
    s.brg.phase = .buck ∧ s.brg.railOn = true ∧ s.brg.shedVz12 = true) ∧
  (∃ (s : State),
    s.brg.test = none ∧ s.brg.phase ≠ .stopped) :=
  ⟨⟨4800, (let s : State := Wit.run; let s : State := { s with brg := { s.brg with limits := { s.brg.limits with en := true } } }; let s : State := { s with sys := { s.sys with vinChecked := true } }; { s with brg := { s.brg with phase := .stopped } }),
    by decide +kernel⟩,
  ⟨0, (let s : State := Wit.run; { s with brg := { s.brg with phase := .buck } }),
    by decide +kernel⟩,
  ⟨0, 0, (let s : State := Wit.run; { s with brg := { s.brg with phase := .buck } }),
    by decide +kernel⟩,
  ⟨0, 0, Wit.run,
    by decide +kernel⟩,
  ⟨4800, 4800, Wit.run,
    by decide +kernel⟩,
  ⟨0, 0, Wit.run,
    by decide +kernel⟩,
  ⟨(let s : State := Wit.run; let s : State := { s with brg := { s.brg with phase := .detected } }; { s with brg := { s.brg with test := none } }),
    by decide +kernel⟩,
  ⟨Wit.run,
    by decide +kernel⟩,
  ⟨2000, (let s : State := Wit.run; let s : State := { s with brg := { s.brg with phase := .detected } }; let s : State := { s with brg := { s.brg with test := none } }; { s with brg := { s.brg with vinOk := false } }),
    by decide +kernel⟩,
  ⟨2000, (let s : State := Wit.run; let s : State := { s with brg := { s.brg with phase := .detected } }; let s : State := { s with brg := { s.brg with test := none } }; { s with brg := { s.brg with history := [0, 0] } }),
    by decide +kernel⟩,
  ⟨0, (let s : State := Wit.run; { s with brg := { s.brg with phase := .detected } }),
    by decide +kernel⟩,
  ⟨(let s : State := Wit.run; let s : State := { s with brg := { s.brg with phase := .boost } }; { s with brg := { s.brg with test := none } }),
    by decide +kernel⟩,
  ⟨Wit.run,
    by decide +kernel⟩,
  ⟨(let s : State := Wit.run; { s with brg := { s.brg with phase := .qualify } }),
    by decide +kernel⟩,
  ⟨(let s : State := Wit.run; { s with brg := { s.brg with phase := .qualify } }),
    by decide +kernel⟩,
  ⟨(let s : State := Wit.run; { s with brg := { s.brg with phase := .handback } }),
    by decide +kernel⟩,
  ⟨(let s : State := Wit.run; let s : State := { s with brg := { s.brg with phase := .buck } }; let s : State := { s with brg := { s.brg with restoring := true } }; { s with brg := { s.brg with shedLvl := 1 } }),
    by decide +kernel⟩,
  ⟨(let s : State := Wit.run; let s : State := { s with brg := { s.brg with phase := .buck } }; let s : State := { s with brg := { s.brg with railOn := true } }; { s with brg := { s.brg with shedVz12 := true } }),
    by decide +kernel⟩,
  ⟨(let s : State := Wit.run; let s : State := { s with brg := { s.brg with test := none } }; { s with brg := { s.brg with phase := .buck } }),
    by decide +kernel⟩⟩

theorem witness_BridgeFaultsAct :
  (∃ (s : State),
    s.brg.phase.boosts = true) ∧
  (∃ (s : State),
    s.brg.phase.boosts = false) ∧
  (∃ (ibk vz48 : Int) (s : State),
    s.brg.phase.boosts = true ∧ s.brg.shedLvl < 8 ∧ s.brg.overloaded ibk vz48 = true) ∧
  (∃ (ibk vz48 : Int) (s : State),
    (s.brg.phase.boosts = false ∨ 8 ≤ s.brg.shedLvl ∨ s.brg.overloaded ibk vz48 = false)) ∧
  (∃ (ph : Fin 4) (s : State),
    s.brg.phOk.getLsbD ph.val = true ∧ 3 ≤ s.brg.phases) ∧
  (∃ (ph : Fin 4) (s : State),
    s.brg.phOk.getLsbD ph.val = true ∧ s.brg.phases < 3 ∧ s.brg.test = none ∧ s.brg.phase ≠ .stopped) ∧
  (∃ (ph : Fin 4) (s : State),
    s.brg.phOk.getLsbD ph.val = false) ∧
  (∃ (temp : Int) (s : State),
    1500 < temp) ∧
  (∃ (temp : Int) (s : State),
    temp < 1500) ∧
  (∃ (temp : Int) (s : State),
    s.brg.hotStop = false ∧ 1700 ≤ temp ∧ s.brg.test = none ∧ s.brg.phase.handOver = true) ∧
  (∃ (temp : Int) (s : State),
    s.brg.hotStop = false ∧ 1700 ≤ temp ∧ s.brg.test = none ∧ s.brg.phase.handOver = false) ∧
  (∃ (temp : Int) (s : State),
    (s.brg.hotStop = true ∨ temp < 1700)) ∧
  (∃ (vz12 : Int) (s : State),
    s.brg.phase = .buck ∧ s.brg.railOn = true ∧ vz12 * 100 < (s.brg.target : Int) * 80) ∧
  (∃ (vz12 : Int) (s : State),
    (s.brg.phase ≠ .buck ∨ s.brg.railOn = false ∨ (s.brg.target : Int) * 80 ≤ vz12 * 100)) ∧
  (∃ (regulated : Bool) (s : State),
    s.brg.phase = .buck ∧ s.brg.vz12Fault = true ∧ (s.brg.safeDone = false ∨ s.brg.safeAct ≠ .railOff)) ∧
  (∃ (regulated : Bool) (s : State),
    s.brg.safeDone = true ∧ s.brg.safeAct = .railOff) :=
  ⟨⟨(let s : State := Wit.run; { s with brg := { s.brg with phase := .boost } }),
    by decide +kernel⟩,
  ⟨Wit.run,
    by decide +kernel⟩,
  ⟨1000000, 0, (let s : State := Wit.run; { s with brg := { s.brg with phase := .boost } }),
    by decide +kernel⟩,
  ⟨0, 0, Wit.run,
    by decide +kernel⟩,
  ⟨0, Wit.run,
    by decide +kernel⟩,
  ⟨0, (let s : State := Wit.run; let s : State := { s with brg := { s.brg with test := none } }; { s with brg := { s.brg with phase := .boost, phOk := 3 } }),
    by decide +kernel⟩,
  ⟨0, (let s : State := Wit.run; { s with brg := { s.brg with phOk := 0 } }),
    by decide +kernel⟩,
  ⟨1501, Wit.run,
    by decide +kernel⟩,
  ⟨1499, Wit.run,
    by decide +kernel⟩,
  ⟨1700, (let s : State := Wit.run; let s : State := { s with brg := { s.brg with hotStop := false } }; let s : State := { s with brg := { s.brg with test := none } }; { s with brg := { s.brg with phase := .boost } }),
    by decide +kernel⟩,
  ⟨1700, (let s : State := Wit.run; let s : State := { s with brg := { s.brg with hotStop := false } }; { s with brg := { s.brg with test := none } }),
    by decide +kernel⟩,
  ⟨0, Wit.run,
    by decide +kernel⟩,
  ⟨0, (let s : State := Wit.run; let s : State := { s with brg := { s.brg with phase := .buck } }; { s with brg := { s.brg with railOn := true } }),
    by decide +kernel⟩,
  ⟨0, Wit.run,
    by decide +kernel⟩,
  ⟨false, (let s : State := Wit.run; let s : State := { s with brg := { s.brg with phase := .buck } }; { s with brg := { s.brg with vz12Fault := true } }),
    by decide +kernel⟩,
  ⟨false, (let s : State := Wit.run; let s : State := { s with brg := { s.brg with safeDone := true } }; { s with brg := { s.brg with safeAct := .railOff } }),
    by decide +kernel⟩⟩

theorem witness_BridgeCommandsAct :
  (∃ (s : State) (r : Req) (p : Port) (m : BrgMeasure),
    Requested s r p 0 ∧ s.sys.mode.isServing = true) ∧
  (∃ (s : State) (r : Req) (p : Port) (v : U16),
    Requested s r p 4 ∧ p.sysPriv = true ∧ 1000 ≤ v.toNat ∧ v.toNat ≤ 1450 ∧ s.sys.mode.isRunLimpWork = true ∧ s.brgPresent = true) ∧
  (∃ (s : State) (r : Req) (p : Port) (v : U16),
    Requested s r p 4 ∧ p.sysPriv = true ∧ 1000 ≤ v.toNat ∧ v.toNat ≤ 1450 ∧ s.sys.mode.isRunLimpWork = true ∧ s.brgPresent = false) ∧
  (∃ (s : State) (r : Req) (p : Port) (f : LimitsFields),
    Requested s r p 32 ∧ p.sysPriv = true ∧ f.flags.toNat < 16 ∧ f.flags.extractLsb' 2 2 ≠ 3 ∧ (limitsOf f).ok s.cfg.image.boardnet = true ∧ s.sys.mode = .workshop ∧ s.brgPresent = true ∧ (s.brg.phase = .buck ∨ s.brg.phase = .stopped)) ∧
  (∃ (s : State) (r : Req) (p : Port) (f : LimitsFields),
    Requested s r p 32 ∧ p.sysPriv = true ∧ f.flags.toNat < 16 ∧ f.flags.extractLsb' 2 2 ≠ 3 ∧ (limitsOf f).ok s.cfg.image.boardnet = true ∧ s.sys.mode = .workshop ∧ s.brgPresent = true ∧ s.brg.phase ≠ .buck ∧ s.brg.phase ≠ .stopped) ∧
  (∃ (s : State) (r : Req) (p : Port),
    Requested s r p 0 ∧ p.sysPriv = true ∧ s.sys.mode.isRunLimpWork = true ∧ s.brgPresent = true ∧ s.brg.phase = .locked) ∧
  (∃ (s : State) (r : Req) (p : Port),
    Requested s r p 0 ∧ p.sysPriv = true ∧ s.sys.mode.isRunLimpWork = true ∧ s.brgPresent = true ∧ s.brg.phase ≠ .locked) ∧
  (∃ (s : State) (r : Req) (p : Port) (shedHo shedAt : Byte),
    Requested s r p 4 ∧ p.sysPriv = true ∧ shedHo.toNat ≤ 8 ∧ shedAt.toNat ≤ 1 ∧ s.sys.mode.isRunLimpWork = true ∧ s.brgPresent = true) ∧
  (∃ (s : State) (r : Req) (p : Port) (duration : U16) (vin vbk12 : Int),
    Requested s r p 4 ∧ p.sysPriv = true ∧ within 10 10000 duration.toNat = true ∧ s.sys.mode = .workshop ∧ s.brgPresent = true ∧ s.brg.phase = .buck ∧ s.vinValid vin = true ∧ (s.brg.limits.vBkMin : Int) + 100 ≤ vbk12) ∧
  (∃ (s : State) (r : Req) (p : Port) (duration : U16) (vin vbk12 : Int),
    Requested s r p 4 ∧ p.sysPriv = true ∧ within 10 10000 duration.toNat = true ∧ s.sys.mode = .workshop ∧ s.brgPresent = true ∧ s.brg.phase = .buck ∧ s.vinValid vin = true ∧ vbk12 < (s.brg.limits.vBkMin : Int) + 100) ∧
  (∃ (lowest peak : Int) (energy : U32) (x : HandoverTest) (s : State),
    s.brg.test = some x ∧ s.brg.phase = .boost ∧ s.brg.vinOk = true) ∧
  (∃ (lowest peak : Int) (energy : U32) (s : State),
    s.brg.test = none) :=
  ⟨⟨Wit.run, ((Wit.req 0)), Wit.sys, Zero.brgMeasure,
    ⟨by decide +kernel, rfl, by decide +kernel, rfl⟩, by decide +kernel⟩,
  ⟨Wit.run, ((Wit.req 4)), Wit.sys, 1450,
    ⟨by decide +kernel, rfl, by decide +kernel, rfl⟩, by decide +kernel⟩,
  ⟨(let s : State := Wit.run; { s with cfg := { s.cfg with image := { s.cfg.image with boardnet := .v12 } } }), ((Wit.req 4)), Wit.sys, 1450,
    ⟨by decide +kernel, rfl, by decide +kernel, rfl⟩, by decide +kernel⟩,
  ⟨(let s : State := Wit.run; { s with sys := { s.sys with mode := .workshop } }), ((Wit.req 32)), Wit.sys, ({ cls := 48, flags := 0, shedHo := 0, vUv := 3600, vZ12 := 1300, vBst := 4800, iBuck := 10, iBst := 10, vBkMin := 900, vBusMin := 3000, tOvl := 10, tRestore := 10, rPair := 100, grpSrc := 0 }),
    ⟨by decide +kernel, rfl, by decide +kernel, rfl⟩, by decide +kernel⟩,
  ⟨(let s : State := Wit.run; let s : State := { s with sys := { s.sys with mode := .workshop } }; { s with brg := { s.brg with phase := .boost } }), ((Wit.req 32)), Wit.sys, ({ cls := 48, flags := 0, shedHo := 0, vUv := 3600, vZ12 := 1300, vBst := 4800, iBuck := 10, iBst := 10, vBkMin := 900, vBusMin := 3000, tOvl := 10, tRestore := 10, rPair := 100, grpSrc := 0 }),
    ⟨by decide +kernel, rfl, by decide +kernel, rfl⟩, by decide +kernel⟩,
  ⟨(let s : State := Wit.run; { s with brg := { s.brg with phase := .locked } }), ((Wit.req 0)), Wit.sys,
    ⟨by decide +kernel, rfl, by decide +kernel, rfl⟩, by decide +kernel⟩,
  ⟨Wit.run, ((Wit.req 0)), Wit.sys,
    ⟨by decide +kernel, rfl, by decide +kernel, rfl⟩, by decide +kernel⟩,
  ⟨Wit.run, ((Wit.req 4)), Wit.sys, 8, 1,
    ⟨by decide +kernel, rfl, by decide +kernel, rfl⟩, by decide +kernel⟩,
  ⟨(let s : State := Wit.run; let s : State := { s with sys := { s.sys with mode := .workshop } }; { s with brg := { s.brg with phase := .buck } }), ((Wit.req 4)), Wit.sys, 10000, 4800, 1300,
    ⟨by decide +kernel, rfl, by decide +kernel, rfl⟩, by decide +kernel⟩,
  ⟨(let s : State := Wit.run; let s : State := { s with sys := { s.sys with mode := .workshop } }; { s with brg := { s.brg with phase := .buck } }), ((Wit.req 4)), Wit.sys, 10000, 4800, 0,
    ⟨by decide +kernel, rfl, by decide +kernel, rfl⟩, by decide +kernel⟩,
  ⟨0, 0, 0, Zero.handoverTest, (let s : State := Wit.run; let s : State := { s with brg := { s.brg with test := some (Zero.handoverTest : HandoverTest) } }; let s : State := { s with brg := { s.brg with phase := .boost } }; { s with brg := { s.brg with vinOk := true } }),
    by decide +kernel⟩,
  ⟨0, 0, 0, (let s : State := Wit.run; { s with brg := { s.brg with test := none } }),
    by decide +kernel⟩⟩

theorem witness_FieldInputEventsAct :
  (∃ (n : Fin 64) (mv : Int) (e : DiInput) (s : State),
    s.afeOn (n.val / 32) = true ∧ e = ((s.diInput n.val).compare mv).filter ((s.diInput n.val).compare mv).raw ∧ e.reported = (s.diInput n.val).state) ∧
  (∃ (n : Fin 64) (mv : Int) (e : DiInput) (s : State),
    s.afeOn (n.val / 32) = true ∧ e = ((s.diInput n.val).compare mv).filter ((s.diInput n.val).compare mv).raw ∧ e.reported ≠ (s.diInput n.val).state ∧ s.rfx.enabled = false) ∧
  (∃ (n : Fin 64) (mv : Int) (s : State),
    s.afeOn (n.val / 32) = false) ∧
  (∃ (v : Fin 256) (s : State),
    (∃ n : Fin 64, s.diOwner n.val = some v.val)) ∧
  (∃ (sup : Fin 4) (forced : Bool) (s : State),
    (s.sup sup.val).on = true ∧ s.afeOn (sup.val / 2) = true) ∧
  (∃ (sup : Fin 4) (forced : Bool) (s : State),
    (s.sup sup.val).on = false) ∧
  (∃ (sup : Fin 4) (s : State),
    (s.sup sup.val).on = true ∧ ((s.sup sup.val).ilim = true ∨ (s.sup sup.val).extV = true) ∧ s.afeOn (sup.val / 2) = true) :=
  ⟨⟨0, 0, (let s : State := Wit.run; ((s.diInput (0 : Fin 64).val).compare (0 : Int)).filter ((s.diInput (0 : Fin 64).val).compare (0 : Int)).raw), Wit.run,
    by decide +kernel⟩,
  ⟨0, 30000, (let s : State := (let s : State := Wit.run; let s : State := { s with rfx := { s.rfx with enabled := false } }; s.modDi (0 : Fin 64).val (fun y0 => { y0 with c := 49 })); ((s.diInput (0 : Fin 64).val).compare (30000 : Int)).filter ((s.diInput (0 : Fin 64).val).compare (30000 : Int)).raw), (let s : State := Wit.run; let s : State := { s with rfx := { s.rfx with enabled := false } }; s.modDi (0 : Fin 64).val (fun y0 => { y0 with c := 49 })),
    by decide +kernel⟩,
  ⟨0, 0, (let s : State := Wit.run; { s with sys := { s.sys with domains := [] } }),
    by decide +kernel⟩,
  ⟨1, Wit.run,
    by decide +kernel⟩,
  ⟨0, false, (let s : State := Wit.run; s.modSup (0 : Fin 4).val (fun y0 => { y0 with on := true })),
    by decide +kernel⟩,
  ⟨0, false, (let s : State := Wit.run; s.modSup (0 : Fin 4).val (fun y0 => { y0 with on := false })),
    by decide +kernel⟩,
  ⟨0, (let s : State := Wit.run; let s : State := s.modSup (0 : Fin 4).val (fun y0 => { y0 with on := true }); s.modSup (0 : Fin 4).val (fun y0 => { y0 with ilim := true })),
    by decide +kernel⟩⟩

theorem witness_FieldInputCommandsAct :
  (∃ (s : State) (r : Req) (p : Port) (input : U16) (f : DiFields),
    Requested s r p 20 ∧ p.mayUse (s.diOwner input.toNat) ∧ input.toNat ≤ 63 ∧ f.flags.toNat < 48 ∧ (diRecordOf f).rangeOk = true ∧ (diRecordOf f).conflict = false ∧ s.sys.mode.isRunLimpWork = true ∧ (s.diInput input.toNat).state = .notValid) ∧
  (∃ (s : State) (r : Req) (p : Port) (input : U16) (f : DiFields),
    Requested s r p 20 ∧ p.mayUse (s.diOwner input.toNat) ∧ input.toNat ≤ 63 ∧ f.flags.toNat < 48 ∧ (diRecordOf f).rangeOk = true ∧ (diRecordOf f).conflict = false ∧ s.sys.mode.isRunLimpWork = true ∧ (s.diInput input.toNat).state ≠ .notValid ∧ s.rfx.enabled = false) ∧
  (∃ (s : State) (r : Req) (p : Port) (input : U16) (f : DiFields),
    Requested s r p 20 ∧ p.mayUse (s.diOwner input.toNat) ∧ input.toNat ≤ 63 ∧ f.flags.toNat < 48 ∧ (diRecordOf f).rangeOk = true ∧ (diRecordOf f).conflict = true) ∧
  (∃ (s : State) (r : Req) (p : Port),
    Requested s r p 0 ∧ p.sysPriv = true ∧ s.sys.mode.isServing = true) ∧
  (∃ (s : State) (r : Req) (p : Port) (v : Nat),
    Requested s r p 0 ∧ p.sysPriv = false ∧ p.vzf = some v ∧ (∃ n : Fin 64, s.diOwner n.val = some v) ∧ s.sys.mode.isServing = true) ∧
  (∃ (s : State) (r : Req) (p : Port),
    Requested s r p 0 ∧ (∀ (v : Nat) (n : Fin 64), p.vzf = some v → s.diOwner n.val ≠ some v) ∧ p.sysPriv = false) ∧
  (∃ (s : State) (r : Req) (p : Port) (input : U16) (range ratio k : Byte),
    Requested s r p 8 ∧ p.mayUse (s.aiOwner input.toNat) ∧ input.toNat ≤ 47 ∧ range.toNat ≤ 2 ∧ ratio.toNat ≤ 4 ∧ k.toNat ≤ 6 ∧ (ratio = 0 ∨ range = 0) ∧ s.sys.mode.isRunLimpWork = true) ∧
  (∃ (s : State) (r : Req) (p : Port) (first : U16),
    Requested s r p 4 ∧ first.toNat < 48 ∧ p.sysPriv = true ∧ s.sys.mode.isServing = true) ∧
  (∃ (s : State) (r : Req) (p : Port) (first count : U16),
    Requested s r p 4 ∧ 48 < first.toNat + count.toNat) ∧
  (∃ (s : State) (r : Req) (p : Port) (supply : Byte),
    Requested s r p 4 ∧ p.mayUse (s.supOwner supply.toNat) ∧ supply.toNat ≤ 3 ∧ s.sys.mode.isRunLimpWork = true ∧ (s.sup supply.toNat).on = false ∧ s.afeOn (supply.toNat / 2) = true) ∧
  (∃ (s : State) (r : Req) (p : Port) (supply : Byte),
    Requested s r p 4 ∧ p.mayUse (s.supOwner supply.toNat) ∧ supply.toNat ≤ 3 ∧ s.sys.mode.isRunLimpWork = true) ∧
  (∃ (s : State) (r : Req) (p : Port) (mask tCyc : U16) (k : Byte),
    Requested s r p 8 ∧ p.sysPriv = true ∧ 10 ≤ tCyc.toNat ∧ tCyc.toNat ≤ 1000 ∧ 1 ≤ k.toNat ∧ k.toNat ≤ 8 ∧ s.sys.mode.isRunWork = true) :=
  ⟨⟨(let s : State := Wit.run; s.modDi (63 : U16).toNat (fun y0 => { y0 with state := .notValid })), ((Wit.req 20)), Wit.sys, 63, ({ vTh := 20, vWb := 30, flags := 0, tPw := 1, tS := 100, n := 1 }),
    ⟨by decide +kernel, rfl, by decide +kernel, rfl⟩, (by first | exact Or.inl (by decide +kernel) | exact Or.inr ⟨by decide +kernel, by decide +kernel⟩), by decide +kernel⟩,
  ⟨(let s : State := Wit.run; let s : State := { s with rfx := { s.rfx with enabled := false } }; s.modDi (63 : U16).toNat (fun y0 => { y0 with state := .open_ })), ((Wit.req 20)), Wit.sys, 63, ({ vTh := 20, vWb := 30, flags := 0, tPw := 1, tS := 100, n := 1 }),
    ⟨by decide +kernel, rfl, by decide +kernel, rfl⟩, (by first | exact Or.inl (by decide +kernel) | exact Or.inr ⟨by decide +kernel, by decide +kernel⟩), by decide +kernel⟩,
  ⟨Wit.run, ((Wit.req 20)), Wit.sys, 63, ({ vTh := 20, vWb := 30, flags := 0x13, tPw := 1, tS := 100, n := 1 }),
    ⟨by decide +kernel, rfl, by decide +kernel, rfl⟩, (by first | exact Or.inl (by decide +kernel) | exact Or.inr ⟨by decide +kernel, by decide +kernel⟩), by decide +kernel⟩,
  ⟨Wit.run, ((Wit.req 0)), Wit.sys,
    ⟨by decide +kernel, rfl, by decide +kernel, rfl⟩, by decide +kernel⟩,
  ⟨Wit.run, ({ Wit.req 0 with port := 1 }), Wit.own, 1,
    ⟨by decide +kernel, rfl, by decide +kernel, rfl⟩, by decide +kernel⟩,
  ⟨(let s : State := Wit.run; { s with mbx := { s.mbx with ports := ⟨[(1, ({ Wit.own with vzf := none } : Port))]⟩ } }), ({ Wit.req 0 with port := 1 }), ({ Wit.own with vzf := none }),
    ⟨by decide +kernel, rfl, by decide +kernel, rfl⟩, (fun _ _ h => nomatch h), by decide +kernel⟩,
  ⟨Wit.run, ((Wit.req 8)), Wit.sys, 47, 2, 0, 6,
    ⟨by decide +kernel, rfl, by decide +kernel, rfl⟩, (by first | exact Or.inl (by decide +kernel) | exact Or.inr ⟨by decide +kernel, by decide +kernel⟩), by decide +kernel⟩,
  ⟨Wit.run, ((Wit.req 4)), Wit.sys, 47,
    ⟨by decide +kernel, rfl, by decide +kernel, rfl⟩, by decide +kernel⟩,
  ⟨Wit.run, ((Wit.req 4)), Wit.sys, 48, 1,
    ⟨by decide +kernel, rfl, by decide +kernel, rfl⟩, by decide +kernel⟩,
  ⟨(let s : State := Wit.run; s.modSup (3 : Byte).toNat (fun y0 => { y0 with on := false })), ((Wit.req 4)), Wit.sys, 3,
    ⟨by decide +kernel, rfl, by decide +kernel, rfl⟩, (by first | exact Or.inl (by decide +kernel) | exact Or.inr ⟨by decide +kernel, by decide +kernel⟩), by decide +kernel⟩,
  ⟨Wit.run, ((Wit.req 4)), Wit.sys, 3,
    ⟨by decide +kernel, rfl, by decide +kernel, rfl⟩, (by first | exact Or.inl (by decide +kernel) | exact Or.inr ⟨by decide +kernel, by decide +kernel⟩), by decide +kernel⟩,
  ⟨(let s : State := Wit.run; { s with sys := { s.sys with mode := .workshop } }), ((Wit.req 8)), Wit.sys, 0, 1000, 8,
    ⟨by decide +kernel, rfl, by decide +kernel, rfl⟩, by decide +kernel⟩⟩

theorem witness_BarrierLinkEventsAct :
  (∃ (s : State),
    s.xioOn = true ∧ s.sys.mode ≠ .basecamp ∧ (∀ w ∈ s.fio.bank.words, w.1 < 256 ∧ w.2 < 16777216)) ∧
  (∃ (s : State),
    s.xioOn = false) ∧
  (∃ (frame : BitVec 128) (s : State),
    s.fio.bank.fPowered = true ∧ frameValid frame 1 s.fio.bank.fDownSeq = true ∧ frame.getLsbD 125 = false) ∧
  (∃ (frame : BitVec 128) (s : State),
    s.fio.bank.fPowered = true ∧ frameValid frame 1 s.fio.bank.fDownSeq = true ∧ frame.getLsbD 125 = true ∧ frameField frame 40 8 = 0x20) ∧
  (∃ (frame : BitVec 128) (s : State),
    (s.fio.bank.fPowered = false ∨ frameValid frame 1 s.fio.bank.fDownSeq = false)) ∧
  (∃ (frame : BitVec 128) (s : State),
    s.xioOn = true ∧ frame.extractLsb' 0 16 ≠ frameCrc frame) ∧
  (∃ (frame : BitVec 128) (s : State),
    s.xioOn = true ∧ frameValid frame 2 s.fio.bank.upSeq = true ∧ s.fio.bank.up = false ∧ s.fio.bank.run < 3) ∧
  (∃ (frame : BitVec 128) (s : State),
    s.xioOn = true ∧ frameValid frame 2 s.fio.bank.upSeq = true ∧ s.fio.bank.up = true ∧ s.rfx.enabled = false) ∧
  (∃ (s : State),
    s.xioOn = true ∧ s.fio.bank.up = true) ∧
  (∃ (s : State),
    s.fio.bank.up = false) ∧
  (∃ (s : State),
    s.fio.bank.fPowered = true ∧ s.fio.bank.fTimedOut = false) ∧
  (∃ (s : State),
    s.fio.bank.fTimedOut = true) ∧
  (∃ (k : Fin 32) (s : State),
    (s.xch k.val).fOut = true) ∧
  (∃ (k : Fin 32) (s : State),
    (s.xch k.val).fOvl = true ∧ (s.xch k.val).fCfg.mode = .out ∧ (s.xch k.val).fCfgSet = true ∧ (s.xch k.val).fOt = false ∧ (s.xch k.val).fCmd = 1 ∧ s.fio.bank.fPowered = true) ∧
  (∃ (k : Fin 32) (clear : Bool) (s : State),
    s.fio.bank.fPowered = false) ∧
  (∃ (k : Fin 32) (s : State),
    (s.xch k.val).watchesOpen = true) ∧
  (∃ (s : State),
    s.fio.bank.fPowered = true) ∧
  (∃ (s : State),
    s.fio.bank.fPowered = false) ∧
  (∃ (s : State),
    s.fio.bank.fPowered = true) :=
  ⟨⟨Wit.run,
    by decide +kernel⟩,
  ⟨(let s : State := Wit.run; { s with sys := { s.sys with domains := [] } }),
    by decide +kernel⟩,
  ⟨(Wit.sealed (1 <<< 126)), (let s : State := Wit.run; { s with fio := { s.fio with bank := { s.fio.bank with fPowered := true } } }),
    by decide +kernel⟩,
  ⟨(Wit.sealed ((1 <<< 126) ||| (1 <<< 125) ||| (0x20 <<< 40))), (let s : State := Wit.run; { s with fio := { s.fio with bank := { s.fio.bank with fPowered := true } } }),
    by decide +kernel⟩,
  ⟨0, Wit.run,
    by decide +kernel⟩,
  ⟨0, Wit.run,
    by decide +kernel⟩,
  ⟨(Wit.sealed (2 <<< 126)), (let s : State := Wit.run; { s with fio := { s.fio with bank := { s.fio.bank with up := false } } }),
    by decide +kernel⟩,
  ⟨(Wit.sealed (2 <<< 126)), (let s : State := Wit.run; let s : State := { s with fio := { s.fio with bank := { s.fio.bank with up := true } } }; { s with rfx := { s.rfx with enabled := false } }),
    by decide +kernel⟩,
  ⟨(let s : State := Wit.run; { s with fio := { s.fio with bank := { s.fio.bank with up := true } } }),
    by decide +kernel⟩,
  ⟨(let s : State := Wit.run; { s with fio := { s.fio with bank := { s.fio.bank with up := false } } }),
    by decide +kernel⟩,
  ⟨(let s : State := Wit.run; let s : State := { s with fio := { s.fio with bank := { s.fio.bank with fPowered := true } } }; { s with fio := { s.fio with bank := { s.fio.bank with fTimedOut := false } } }),
    by decide +kernel⟩,
  ⟨(let s : State := Wit.run; { s with fio := { s.fio with bank := { s.fio.bank with fTimedOut := true } } }),
    by decide +kernel⟩,
  ⟨0, (let s : State := Wit.run; s.modX (0 : Fin 32).val (fun y0 => { y0 with fOut := true })),
    by decide +kernel⟩,
  ⟨0, (let s : State := Wit.run; let s : State := s.modX (0 : Fin 32).val (fun y0 => { y0 with fOvl := true }); let s : State := s.modX (0 : Fin 32).val (fun y0 => { y0 with fCfg := { y0.fCfg with mode := .out } }); let s : State := s.modX (0 : Fin 32).val (fun y0 => { y0 with fCfgSet := true }); let s : State := s.modX (0 : Fin 32).val (fun y0 => { y0 with fOt := false }); let s : State := s.modX (0 : Fin 32).val (fun y0 => { y0 with fCmd := 1 }); { s with fio := { s.fio with bank := { s.fio.bank with fPowered := true } } }),
    by decide +kernel⟩,
  ⟨0, false, (let s : State := Wit.run; { s with fio := { s.fio with bank := { s.fio.bank with fPowered := false } } }),
    by decide +kernel⟩,
  ⟨0, (let s : State := Wit.run; s.modX (0 : Fin 32).val (fun y0 => { y0 with fOut := true, fCfg := { y0.fCfg with mode := .out } })),
    by decide +kernel⟩,
  ⟨(let s : State := Wit.run; { s with fio := { s.fio with bank := { s.fio.bank with fPowered := true } } }),
    by decide +kernel⟩,
  ⟨(let s : State := Wit.run; { s with fio := { s.fio with bank := { s.fio.bank with fPowered := false } } }),
    by decide +kernel⟩,
  ⟨(let s : State := Wit.run; { s with fio := { s.fio with bank := { s.fio.bank with fPowered := true } } }),
    by decide +kernel⟩⟩

theorem witness_IsolatedBankCommandsAct :
  (∃ (v : Fin 256) (value : U32) (s : State),
    s.ownsX v.val = true ∧ (s.vzf v.val).life = .active ∧ (s.xSlot v.val).tagGen = (s.vzf v.val).gen ∧ s.sys.mode ≠ .startup) ∧
  (∃ (v : Fin 256) (value : U32) (s : State),
    s.ownsX v.val = true ∧ (s.vzf v.val).life = .active ∧ (s.xSlot v.val).tagGen = (s.vzf v.val).gen ∧ s.sys.mode = .startup) ∧
  (∃ (v : Fin 256) (value : U32) (s : State),
    s.ownsX v.val = true ∧ (s.vzf v.val).life = .active ∧ (s.xSlot v.val).tagGen ≠ (s.vzf v.val).gen) ∧
  (∃ (v : Fin 256) (s : State),
    s.ownsX v.val = true) ∧
  (∃ (s : State) (r : Req) (p : Port) (channel mode tXdb flags : Byte),
    Requested s r p 4 ∧ p.mayUse (s.xOwner channel.toNat) ∧ channel.toNat ≤ 31 ∧ mode.toNat ≤ 2 ∧ flags.toNat ≤ 1 ∧ s.sys.mode.isRunLimpWork = true ∧ (s.xch channel.toNat).cmd = false ∧ (s.xch channel.toNat).sent ≠ 1 ∧ s.fio.bank.up = true) ∧
  (∃ (s : State) (r : Req) (p : Port) (channel mode tXdb flags : Byte),
    Requested s r p 4 ∧ p.mayUse (s.xOwner channel.toNat) ∧ channel.toNat ≤ 31 ∧ mode.toNat ≤ 2 ∧ flags.toNat ≤ 1 ∧ s.sys.mode.isRunLimpWork = true ∧ (s.xch channel.toNat).cfg.mode ≠ (xModeOf mode.toNat).getD .in3 ∧ (s.xch channel.toNat).cmd = true) ∧
  (∃ (s : State) (r : Req) (p : Port) (k : Fin 32) (values : U32) (v : Nat),
    Requested s r p 8 ∧ p.mayUse (some v) ∧ s.xOwner k.val = some v ∧ s.sys.mode.isRunWork = true ∧ (s.xch k.val).cfg.mode = .out) ∧
  (∃ (s : State) (r : Req) (p : Port) (mask values : U32),
    Requested s r p 8 ∧ p.sysPriv = true ∧ s.sys.mode.isRunWork = true ∧ (∃ k : Fin 32, mask.getLsbD k.val = true ∧ (s.xch k.val).cfg.mode ≠ .out)) ∧
  (∃ (s : State) (r : Req) (p : Port),
    Requested s r p 0 ∧ p.sysPriv = true ∧ s.sys.mode.isServing = true) ∧
  (∃ (s : State) (r : Req) (p : Port) (safe : U64) (tXto : U16),
    Requested s r p 12 ∧ p.sysPriv = true ∧ (∀ k : Fin 32, safe.extractLsb' (2 * k.val) 2 ≠ 3) ∧ 2 ≤ tXto.toNat ∧ tXto.toNat ≤ 10000 ∧ s.sys.mode = .workshop ∧ s.fio.bank.up = true ∧ s.fio.bank.safeReq = none) ∧
  (∃ (s : State) (r : Req) (p : Port) (safe : U64) (tXto : U16),
    Requested s r p 12 ∧ p.sysPriv = true ∧ (∀ k : Fin 32, safe.extractLsb' (2 * k.val) 2 ≠ 3) ∧ 2 ≤ tXto.toNat ∧ tXto.toNat ≤ 10000 ∧ s.sys.mode = .workshop ∧ s.fio.bank.up = false) :=
  ⟨⟨1, 0, Wit.run,
    by decide +kernel⟩,
  ⟨1, 0, (let s : State := Wit.run; { s with sys := { s.sys with mode := .startup } }),
    by decide +kernel⟩,
  ⟨1, 0, (let s : State := Wit.run; s.modSlot (1 : Fin 256).val (fun y0 => { y0 with tagGen := 7 })),
    by decide +kernel⟩,
  ⟨1, Wit.run,
    by decide +kernel⟩,
  ⟨(let s : State := Wit.run; let s : State := s.modX (31 : Byte).toNat (fun y0 => { y0 with cmd := false }); { s with fio := { s.fio with bank := { s.fio.bank with up := true } } }), ((Wit.req 4)), Wit.sys, 31, 2, 0, 1,
    ⟨by decide +kernel, rfl, by decide +kernel, rfl⟩, (by first | exact Or.inl (by decide +kernel) | exact Or.inr ⟨by decide +kernel, by decide +kernel⟩), by decide +kernel⟩,
  ⟨(let s : State := Wit.run; s.modX (31 : Byte).toNat (fun y0 => { y0 with cmd := true })), ((Wit.req 4)), Wit.sys, 31, 2, 0, 1,
    ⟨by decide +kernel, rfl, by decide +kernel, rfl⟩, (by first | exact Or.inl (by decide +kernel) | exact Or.inr ⟨by decide +kernel, by decide +kernel⟩), by decide +kernel⟩,
  ⟨(let s : State := Wit.run; let s : State := { s with sys := { s.sys with mode := .workshop } }; s.modX (0 : Fin 32).val (fun y0 => { y0 with cfg := { y0.cfg with mode := .out } })), ((Wit.req 8)), Wit.sys, 0, 0, 1,
    ⟨by decide +kernel, rfl, by decide +kernel, rfl⟩, (by first | exact Or.inl (by decide +kernel) | exact Or.inr ⟨by decide +kernel, by decide +kernel⟩), by decide +kernel⟩,
  ⟨(let s : State := Wit.run; { s with sys := { s.sys with mode := .workshop } }), ((Wit.req 8)), Wit.sys, 1, 0,
    ⟨by decide +kernel, rfl, by decide +kernel, rfl⟩, by decide +kernel⟩,
  ⟨Wit.run, ((Wit.req 0)), Wit.sys,
    ⟨by decide +kernel, rfl, by decide +kernel, rfl⟩, by decide +kernel⟩,
  ⟨(let s : State := Wit.run; let s : State := { s with sys := { s.sys with mode := .workshop } }; let s : State := { s with fio := { s.fio with bank := { s.fio.bank with up := true } } }; { s with fio := { s.fio with bank := { s.fio.bank with safeReq := none } } }), ((Wit.req 12)), Wit.sys, 0, 10000,
    ⟨by decide +kernel, rfl, by decide +kernel, rfl⟩, by decide +kernel⟩,
  ⟨(let s : State := Wit.run; let s : State := { s with sys := { s.sys with mode := .workshop } }; { s with fio := { s.fio with bank := { s.fio.bank with up := false } } }), ((Wit.req 12)), Wit.sys, 0, 10000,
    ⟨by decide +kernel, rfl, by decide +kernel, rfl⟩, by decide +kernel⟩⟩

theorem witness_TimeEventsAct :
  (∃ (view : Fin 16) (c : ViewChange) (s : State),
    (s.view view.val).change = some c) ∧
  (∃ (view : Fin 16) (s : State),
    (s.view view.val).change = none) ∧
  (∃ (unit : Fin 16) (v : Nat) (s : State),
    (s.trigger unit.val).armed = true ∧ (s.trigger unit.val).period = 0 ∧ (s.trigger unit.val).owner = some v ∧ (s.trigger unit.val).action = 0) ∧
  (∃ (unit : Fin 16) (v : Nat) (s : State),
    (s.trigger unit.val).armed = true ∧ (s.trigger unit.val).period ≠ 0 ∧ (s.trigger unit.val).owner = some v ∧ (s.trigger unit.val).action = 0) ∧
  (∃ (unit : Fin 16) (v : Nat) (s : State),
    (s.trigger unit.val).armed = true ∧ (s.trigger unit.val).period = 0 ∧ (s.trigger unit.val).owner = some v ∧ (s.trigger unit.val).action = 1 ∧ s.chOwner (s.trigger unit.val).target ≠ some v) ∧
  (∃ (unit : Fin 16) (v : Nat) (im : Image) (s : State),
    (s.trigger unit.val).armed = true ∧ (s.trigger unit.val).period = 0 ∧ (s.trigger unit.val).owner = some v ∧ (s.trigger unit.val).action = 1 ∧ s.chOwner (s.trigger unit.val).target = some v ∧ s.vzfActive v = true ∧ cmdImage (s.trigger unit.val).target (s.trigger unit.val).image = some im ∧ im.target = false ∧ s.sys.mode ≠ .startup) ∧
  (∃ (unit : Fin 16) (s : State),
    (s.trigger unit.val).armed = false) :=
  ⟨⟨0, Zero.viewChange, (let s : State := Wit.run; s.modView (0 : Fin 16).val (fun y0 => { y0 with change := some (Zero.viewChange : ViewChange) })),
    by decide +kernel⟩,
  ⟨0, (let s : State := Wit.run; s.modView (0 : Fin 16).val (fun y0 => { y0 with change := none })),
    by decide +kernel⟩,
  ⟨0, 1, (let s : State := Wit.run; let s : State := s.modTrigger (0 : Fin 16).val (fun y0 => { y0 with armed := true }); let s : State := s.modTrigger (0 : Fin 16).val (fun y0 => { y0 with period := 0 }); let s : State := s.modTrigger (0 : Fin 16).val (fun y0 => { y0 with owner := some (1 : Nat) }); s.modTrigger (0 : Fin 16).val (fun y0 => { y0 with action := 0 })),
    by decide +kernel⟩,
  ⟨0, 1, (let s : State := Wit.run; let s : State := s.modTrigger (0 : Fin 16).val (fun y0 => { y0 with armed := true }); let s : State := s.modTrigger (0 : Fin 16).val (fun y0 => { y0 with owner := some (1 : Nat) }); let s : State := s.modTrigger (0 : Fin 16).val (fun y0 => { y0 with action := 0 }); s.modTrigger (0 : Fin 16).val (fun y0 => { y0 with period := 10000 })),
    by decide +kernel⟩,
  ⟨0, 2, (let s : State := Wit.run; let s : State := s.modTrigger (0 : Fin 16).val (fun y0 => { y0 with armed := true }); let s : State := s.modTrigger (0 : Fin 16).val (fun y0 => { y0 with period := 0 }); let s : State := s.modTrigger (0 : Fin 16).val (fun y0 => { y0 with owner := some (2 : Nat) }); s.modTrigger (0 : Fin 16).val (fun y0 => { y0 with action := 1 })),
    by decide +kernel⟩,
  ⟨0, 1, Zero.image, (let s : State := Wit.run; let s : State := s.modTrigger (0 : Fin 16).val (fun y0 => { y0 with armed := true }); let s : State := s.modTrigger (0 : Fin 16).val (fun y0 => { y0 with period := 0 }); let s : State := s.modTrigger (0 : Fin 16).val (fun y0 => { y0 with owner := some (1 : Nat) }); s.modTrigger (0 : Fin 16).val (fun y0 => { y0 with action := 1 })),
    by decide +kernel⟩,
  ⟨0, (let s : State := Wit.run; s.modTrigger (0 : Fin 16).val (fun y0 => { y0 with armed := false })),
    by decide +kernel⟩⟩

theorem witness_TimeCommandsAct :
  (∃ (s : State) (r : Req) (p : Port) (view : Byte),
    Requested s r p 4 ∧ view.toNat ≤ 15 ∧ s.sys.mode.isServing = true) ∧
  (∃ (s : State) (r : Req) (p : Port) (f : AdjustFields),
    Requested s r p 48 ∧ p.mayUse (some (s.view f.view.toNat).owner) ∧ f.view.toNat ≤ 15 ∧ adjustStat f = none ∧ s.sys.mode.isServing = true ∧ s.viewClosed f.view.toNat = false ∧ s.now + 6000 ≤ chosenCount s.now f.c.toNat ∧ chosenCount s.now f.c.toNat ≤ s.now + 600000000 ∧ ((s.view f.view.toNat).change = none ∨ opBit f 3 = true) ∧ 0 ≤ (s.view f.view.toNat).newBase (adjustChange f (chosenCount s.now f.c.toNat) p.vzf)) ∧
  (∃ (s : State) (r : Req) (p : Port) (f : AdjustFields),
    Requested s r p 48 ∧ p.mayUse (some (s.view f.view.toNat).owner) ∧ f.view.toNat ≤ 15 ∧ adjustStat f = none ∧ s.sys.mode.isServing = true ∧ s.viewClosed f.view.toNat = false ∧ f.c ≠ 0 ∧ f.c.toNat < s.now + 6000) ∧
  (∃ (s : State) (r : Req) (p : Port) (f : AdjustFields),
    Requested s r p 48 ∧ p.mayUse (some (s.view f.view.toNat).owner) ∧ f.view.toNat ≤ 15 ∧ adjustStat f = none ∧ s.sys.mode.isServing = true ∧ s.viewClosed f.view.toNat = true) ∧
  (∃ (s : State) (r : Req) (p : Port) (view vzf : Byte),
    Requested s r p 4 ∧ p.sysPriv = true ∧ 10 ≤ view.toNat ∧ view.toNat ≤ 15 ∧ s.sys.mode.isServing = true ∧ (s.vzf vzf.toNat).exists_ = true ∧ (s.view view.toNat).alloc = false) ∧
  (∃ (s : State) (r : Req) (p : Port) (view vzf : Byte),
    Requested s r p 4 ∧ p.sysPriv = true ∧ 10 ≤ view.toNat ∧ view.toNat ≤ 15 ∧ s.sys.mode.isServing = true ∧ (s.view view.toNat).alloc = true) ∧
  (∃ (s : State) (r : Req) (p : Port) (vzf : Byte),
    Requested s r p 4 ∧ (∀ v, 10 ≤ v → v ≤ 15 → (s.view v).alloc = true) ∧ p.sysPriv = true ∧ s.sys.mode.isServing = true ∧ (s.vzf vzf.toNat).exists_ = true) ∧
  (∃ (s : State) (r : Req) (p : Port) (unit edge : Byte) (source : U16),
    Requested s r p 8 ∧ unit.toNat ≤ 15 ∧ edge.toNat ≤ 2 ∧ s.sys.mode.isServing = true ∧ (s.capture unit.toNat).enabled = false ∧ source.toNat < 0x40 ∧ (s.diOwner source.toNat = p.vzf ∨ p.sysPriv = true)) ∧
  (∃ (s : State) (r : Req) (p : Port) (unit edge : Byte) (source : U16),
    Requested s r p 8 ∧ unit.toNat ≤ 15 ∧ edge.toNat ≤ 2 ∧ s.sys.mode.isServing = true ∧ p.sysPriv = true ∧ captureSource s source.toNat = none) ∧
  (∃ (s : State) (r : Req) (p : Port) (unit edge : Byte) (source : U16),
    Requested s r p 8 ∧ unit.toNat ≤ 15 ∧ edge.toNat ≤ 2 ∧ s.sys.mode.isServing = true ∧ p.sysPriv = true) ∧
  (∃ (s : State) (r : Req) (p : Port) (unit edge : Byte) (source : U16),
    Requested s r p 8 ∧ unit.toNat ≤ 15 ∧ edge.toNat ≤ 2 ∧ s.sys.mode.isServing = true ∧ p.sysPriv = true) ∧
  (∃ (s : State) (r : Req) (p : Port) (f : TriggerFields) (v : Nat),
    Requested s r p 28 ∧ triggerStat f = none ∧ f.op = 0 ∧ s.sys.mode.isServing = true ∧ p.vzf = some v ∧ (s.trigger f.unit.toNat).claimed = false ∧ (f.view.toNat < 10 ∨ (s.view f.view.toNat).alloc = true) ∧ f.action = 1 ∧ s.chOwner f.target.toNat = some v) ∧
  (∃ (s : State) (r : Req) (p : Port) (f : TriggerFields),
    Requested s r p 28 ∧ triggerStat f = none ∧ f.op = 1 ∧ p.sysPriv = true ∧ s.sys.mode.isServing = true) ∧
  (∃ (s : State) (r : Req) (p : Port) (delay : U32),
    Requested s r p 8 ∧ p.sysPriv = true ∧ 1000 ≤ delay.toNat ∧ delay.toNat ≤ 604800000 ∧ s.sys.mode.isServing = true) ∧
  (∃ (s : State) (r : Req) (p : Port) (delay : U32),
    Requested s r p 8 ∧ p.sysPriv = true ∧ s.sys.mode.isServing = true) :=
  ⟨⟨Wit.run, ((Wit.req 4)), Wit.sys, 15,
    ⟨by decide +kernel, rfl, by decide +kernel, rfl⟩, by decide +kernel⟩,
  ⟨(let s : State := Wit.run; s.modView ({ view := 0, ops := 0, c := 10000, inc := 0, stepNs := 0, stepFrac := 0, sec := 0, ns := 0, frac := 0 } : AdjustFields).view.toNat (fun y0 => { y0 with fw := false })), ((Wit.req 48)), Wit.sys, ({ view := 0, ops := 0, c := 10000, inc := 0, stepNs := 0, stepFrac := 0, sec := 0, ns := 0, frac := 0 }),
    ⟨by decide +kernel, rfl, by decide +kernel, rfl⟩, (by first | exact Or.inl (by decide +kernel) | exact Or.inr ⟨by decide +kernel, by decide +kernel⟩), by decide +kernel⟩,
  ⟨(let s : State := Wit.run; s.modView ({ view := 0, ops := 0, c := 1, inc := 0, stepNs := 0, stepFrac := 0, sec := 0, ns := 0, frac := 0 } : AdjustFields).view.toNat (fun y0 => { y0 with fw := false })), ((Wit.req 48)), Wit.sys, ({ view := 0, ops := 0, c := 1, inc := 0, stepNs := 0, stepFrac := 0, sec := 0, ns := 0, frac := 0 }),
    ⟨by decide +kernel, rfl, by decide +kernel, rfl⟩, (by first | exact Or.inl (by decide +kernel) | exact Or.inr ⟨by decide +kernel, by decide +kernel⟩), by decide +kernel⟩,
  ⟨Wit.run, ((Wit.req 48)), Wit.sys, Zero.adjustFields,
    ⟨by decide +kernel, rfl, by decide +kernel, rfl⟩, (by first | exact Or.inl (by decide +kernel) | exact Or.inr ⟨by decide +kernel, by decide +kernel⟩), by decide +kernel⟩,
  ⟨(let s : State := Wit.run; s.modView (15 : Byte).toNat (fun y0 => { y0 with alloc := false })), ((Wit.req 4)), Wit.sys, 15, 1,
    ⟨by decide +kernel, rfl, by decide +kernel, rfl⟩, by decide +kernel⟩,
  ⟨(let s : State := Wit.run; s.modView (15 : Byte).toNat (fun y0 => { y0 with alloc := true })), ((Wit.req 4)), Wit.sys, 15, 1,
    ⟨by decide +kernel, rfl, by decide +kernel, rfl⟩, by decide +kernel⟩,
  ⟨(let s : State := Wit.run; { s with tb := { s.tb with views := ⟨(List.range 6).map (fun n => (n + 10, { View.reset with alloc := true }))⟩ } }), ((Wit.req 4)), Wit.sys, 1,
    ⟨by decide +kernel, rfl, by decide +kernel, rfl⟩, (by
      intro v h1 h2
      have h : v = 10 ∨ v = 11 ∨ v = 12 ∨ v = 13 ∨ v = 14 ∨ v = 15 := by omega
      rcases h with rfl | rfl | rfl | rfl | rfl | rfl <;> decide +kernel), by decide +kernel⟩,
  ⟨(let s : State := Wit.run; s.modCapture (15 : Byte).toNat (fun y0 => { y0 with enabled := false })), ((Wit.req 8)), Wit.sys, 15, 2, 0,
    ⟨by decide +kernel, rfl, by decide +kernel, rfl⟩, by decide +kernel⟩,
  ⟨Wit.run, ((Wit.req 8)), Wit.sys, 15, 2, 0x40,
    ⟨by decide +kernel, rfl, by decide +kernel, rfl⟩, by decide +kernel⟩,
  ⟨Wit.run, ((Wit.req 8)), Wit.sys, 15, 2, 0,
    ⟨by decide +kernel, rfl, by decide +kernel, rfl⟩, by decide +kernel⟩,
  ⟨Wit.run, ((Wit.req 8)), Wit.sys, 15, 2, 0,
    ⟨by decide +kernel, rfl, by decide +kernel, rfl⟩, by decide +kernel⟩,
  ⟨Wit.run, ({ Wit.req 28 with port := 1 }), Wit.own, ({ unit := 0, op := 0, view := 0, action := 1, sec := 0, ns := 0, frac := 0, period := 0, target := 0, image := 0 }), 1,
    ⟨by decide +kernel, rfl, by decide +kernel, rfl⟩, by decide +kernel⟩,
  ⟨Wit.run, ((Wit.req 28)), Wit.sys, ({ unit := 0, op := 1, view := 0, action := 1, sec := 0, ns := 0, frac := 0, period := 0, target := 0, image := 0 }),
    ⟨by decide +kernel, rfl, by decide +kernel, rfl⟩, by decide +kernel⟩,
  ⟨Wit.run, ((Wit.req 8)), Wit.sys, 604800000,
    ⟨by decide +kernel, rfl, by decide +kernel, rfl⟩, by decide +kernel⟩,
  ⟨Wit.run, ((Wit.req 8)), Wit.sys, 0,
    ⟨by decide +kernel, rfl, by decide +kernel, rfl⟩, by decide +kernel⟩⟩

theorem witness_VzfLifeCommandsAct :
  (∃ (s : State) (r : Req) (p : Port) (tpl vzf : Byte) (v : Nat) (t : Template) (regions : List (Nat × Nat)) (iommu : IommuCtx),
    Requested s r p 40 ∧ p.sysPriv = true ∧ tpl.toNat ≤ 63 ∧ s.sys.mode.isRunLimpWork = true ∧ s.chooseVzf vzf.toNat = some v ∧ (s.vzf v).exists_ = false ∧ s.template tpl.toNat = some t ∧ t.ok = true ∧ (t.hostSaf = false ∨ (s.servingPair v).isSome = true) ∧ s.taken t = false ∧ (s.freePorts (t.nLport + t.nRport)).length = t.nLport + t.nRport ∧ (s.freeViews t.nView).length = t.nView ∧ takeRegions s.cfg.image.vzf.poolBlocks t.dram s.heldRegions = some regions) ∧
  (∃ (s : State) (r : Req) (p : Port) (tpl vzf : Byte) (iommu : IommuCtx),
    Requested s r p 40 ∧ p.sysPriv = true ∧ tpl.toNat ≤ 63 ∧ s.sys.mode.isRunLimpWork = true ∧ vzf.toNat ≠ 255 ∧ (s.vzf vzf.toNat).exists_ = true) ∧
  (∃ (s : State) (r : Req) (p : Port) (tpl vzf : Byte) (v : Nat) (t : Template) (iommu : IommuCtx),
    Requested s r p 40 ∧ p.sysPriv = true ∧ tpl.toNat ≤ 63 ∧ s.sys.mode.isRunLimpWork = true ∧ s.chooseVzf vzf.toNat = some v ∧ (s.vzf v).exists_ = false ∧ s.template tpl.toNat = some t ∧ t.ok = true ∧ t.hostSaf = false ∧ s.taken t = true) ∧
  (∃ (s : State) (r : Req) (p : Port) (vzf : Byte),
    Requested s r p 4 ∧ p.sysPriv = true ∧ s.sys.mode.isRunWork = true ∧ s.vzfActive vzf.toNat = true ∧ p.vzf ≠ some vzf.toNat) ∧
  (∃ (s : State) (r : Req) (p : Port) (vzf : Byte),
    Requested s r p 4 ∧ p.sysPriv = true ∧ s.sys.mode.isRunWork = true ∧ s.vzfActive vzf.toNat = true ∧ p.vzf = some vzf.toNat) ∧
  (∃ (s : State) (r : Req) (p : Port) (vzf : Byte),
    Requested s r p 4 ∧ p.sysPriv = true ∧ s.sys.mode.isRunWork = true ∧ (s.vzf vzf.toNat).exists_ = false) ∧
  (∃ (s : State) (r : Req) (p : Port) (vzf : Byte),
    Requested s r p 4 ∧ p.sysPriv = true ∧ s.sys.mode.isRunLimpWork = true ∧ s.vzfActive vzf.toNat = true ∧ p.vzf ≠ some vzf.toNat) ∧
  (∃ (s : State) (r : Req) (p : Port) (vzf : Byte),
    Requested s r p 4 ∧ p.sysPriv = true ∧ s.sys.mode.isRunLimpWork = true ∧ s.vzfActive vzf.toNat = true ∧ p.vzf = some vzf.toNat) ∧
  (∃ (v : Fin 256) (s : State),
    (s.vzf v.val).life = .quiescing) ∧
  (∃ (v : Fin 256) (s : State),
    (s.vzf v.val).life = .destroying) ∧
  (∃ (v : Fin 256) (s : State),
    (s.vzf v.val).life = .active) :=
  ⟨⟨(let s : State := Wit.run; { s with cfg := { s.cfg with image := { s.cfg.image with vzf := { s.cfg.image.vzf with templates := [({ Template.default with id := 5 } : Template)] } } } }), ((Wit.req 40)), Wit.sys, 5, 7, 7, ({ Template.default with id := 5 }), ((takeRegions Wit.image.vzf.poolBlocks Template.default.dram []).getD []), Zero.iommuCtx,
    ⟨by decide +kernel, rfl, by decide +kernel, rfl⟩, by decide +kernel⟩,
  ⟨Wit.run, ((Wit.req 40)), Wit.sys, 63, 1, Zero.iommuCtx,
    ⟨by decide +kernel, rfl, by decide +kernel, rfl⟩, by decide +kernel⟩,
  ⟨(let s : State := Wit.run; { s with cfg := { s.cfg with image := { s.cfg.image with vzf := { s.cfg.image.vzf with templates := [({ Template.default with id := 5, chMask := 1 } : Template)] } } } }), ((Wit.req 40)), Wit.sys, 5, 7, 7, ({ Template.default with id := 5, chMask := 1 }), Zero.iommuCtx,
    ⟨by decide +kernel, rfl, by decide +kernel, rfl⟩, by decide +kernel⟩,
  ⟨(let s : State := Wit.run; { s with sys := { s.sys with mode := .workshop } }), ((Wit.req 4)), Wit.sys, 1,
    ⟨by decide +kernel, rfl, by decide +kernel, rfl⟩, by decide +kernel⟩,
  ⟨(let s : State := Wit.run; let s : State := { s with mbx := { s.mbx with ports := ⟨[(0, ({ Wit.sys with vzf := some 1 } : Port)), (1, Wit.own)]⟩ } }; { s with sys := { s.sys with mode := .workshop } }), ((Wit.req 4)), ({ Wit.sys with vzf := some 1 }), 1,
    ⟨by decide +kernel, rfl, by decide +kernel, rfl⟩, by decide +kernel⟩,
  ⟨(let s : State := Wit.run; { s with sys := { s.sys with mode := .workshop } }), ((Wit.req 4)), Wit.sys, 2,
    ⟨by decide +kernel, rfl, by decide +kernel, rfl⟩, by decide +kernel⟩,
  ⟨Wit.run, ((Wit.req 4)), Wit.sys, 1,
    ⟨by decide +kernel, rfl, by decide +kernel, rfl⟩, by decide +kernel⟩,
  ⟨(let s : State := Wit.run; { s with mbx := { s.mbx with ports := ⟨[(0, ({ Wit.sys with vzf := some 1 } : Port)), (1, Wit.own)]⟩ } }), ((Wit.req 4)), ({ Wit.sys with vzf := some 1 }), 1,
    ⟨by decide +kernel, rfl, by decide +kernel, rfl⟩, by decide +kernel⟩,
  ⟨1, (let s : State := Wit.run; { s with vz := { s.vz with vzfs := ⟨[(1, { Wit.vzf with life := .quiescing })]⟩ } }),
    by decide +kernel⟩,
  ⟨1, (let s : State := Wit.run; { s with vz := { s.vz with vzfs := ⟨[(1, { Wit.vzf with life := .destroying })]⟩ } }),
    by decide +kernel⟩,
  ⟨1, Wit.run,
    by decide +kernel⟩⟩

theorem witness_VzfQosAndVectorsAct :
  (∃ (s : State) (r : Req) (p : Port) (vzf : Byte) (weights : Vector Byte 5),
    Requested s r p 12 ∧ p.sysPriv = true ∧ s.sys.mode.isRunLimpWork = true ∧ (s.vzf vzf.toNat).exists_ = true) ∧
  (∃ (s : State) (r : Req) (p : Port) (vzf : Byte),
    Requested s r p 4 ∧ p.mayUse (some vzf.toNat) ∧ s.sys.mode.isServing = true ∧ (s.vzf vzf.toNat).exists_ = true) ∧
  (∃ (s : State) (r : Req) (p : Port),
    Requested s r p 0 ∧ p.sysPriv = true ∧ s.sys.mode.isServing = true) ∧
  (∃ (s : State) (r : Req) (p : Port),
    Requested s r p 0 ∧ p.sysPriv = false) ∧
  (∃ (v : Fin 256) (k : Fin 64) (s : State),
    (s.vzf v.val).exists_ = true ∧ k.val < (s.vzf v.val).tpl.nVec ∧ ((s.vzf v.val).vectors.getD .reset k.val).pend = false) ∧
  (∃ (v : Fin 256) (k : Fin 64) (s : State),
    (s.vzf v.val).exists_ = true ∧ k.val < (s.vzf v.val).tpl.nVec ∧ ((s.vzf v.val).vectors.getD .reset k.val).pend = true ∧ ((s.vzf v.val).vectors.getD .reset k.val).en = true ∧ ((s.vzf v.val).vectors.getD .reset k.val).mask = false ∧ 0 < (s.vzf v.val).tokens ∧ (s.vzf v.val).tpl.attach = false) ∧
  (∃ (v : Fin 256) (k : Fin 64) (s : State),
    (s.vzf v.val).exists_ = false) :=
  ⟨⟨Wit.run, ((Wit.req 12)), Wit.sys, 1, (Vector.replicate 5 0),
    ⟨by decide +kernel, rfl, by decide +kernel, rfl⟩, by decide +kernel⟩,
  ⟨Wit.run, ((Wit.req 4)), Wit.sys, 1,
    ⟨by decide +kernel, rfl, by decide +kernel, rfl⟩, (by first | exact Or.inl (by decide +kernel) | exact Or.inr ⟨by decide +kernel, by decide +kernel⟩), by decide +kernel⟩,
  ⟨Wit.run, ((Wit.req 0)), Wit.sys,
    ⟨by decide +kernel, rfl, by decide +kernel, rfl⟩, by decide +kernel⟩,
  ⟨Wit.run, ({ Wit.req 0 with port := 1 }), Wit.own,
    ⟨by decide +kernel, rfl, by decide +kernel, rfl⟩, by decide +kernel⟩,
  ⟨1, 0, Wit.run,
    by decide +kernel⟩,
  ⟨1, 0, (let s : State := Wit.run; { s with vz := { s.vz with vzfs := ⟨[(1, { Wit.vzf with tokens := 1, tpl := { Wit.tpl with nVec := 1 }, vectors := ⟨[(0, { EvVector.reset with pend := true, en := true })]⟩ })]⟩ } }),
    by decide +kernel⟩,
  ⟨2, 0, Wit.run,
    by decide +kernel⟩⟩

theorem witness_LockstepFaultsAct :
  (∃ (pair : Fin 4) (group : Fin 8) (s : State),
    (s.pair pair.val).retired = false ∧ (s.pair pair.val).halted = false ∧ s.mgrUp = true) ∧
  (∃ (pair : Fin 4) (group : Fin 8) (s : State),
    (s.pair pair.val).halted = true) ∧
  (∃ (pair : Fin 4) (s : State),
    (s.pair pair.val).retired = false ∧ (s.pair pair.val).halted = true ∧ ((s.pair pair.val).recent s.now).length < 2) ∧
  (∃ (pair : Fin 4) (injectOk : Bool) (s : State),
    (s.pair pair.val).retired = false ∧ (s.pair pair.val).halted = true) ∧
  (∃ (pair : Fin 4) (injectOk : Bool) (s : State),
    (s.pair pair.val).retired = false ∧ (s.pair pair.val).halted = true ∧ 2 ≤ ((s.pair pair.val).recent s.now).length) ∧
  (∃ (pair : Fin 4) (q : Nat) (injectOk : Bool) (s : State),
    (s.pair pair.val).retired = false ∧ (s.pair pair.val).halted = true ∧ s.freeSpare pair.val = some q) ∧
  (∃ (pair : Fin 4) (pass injectOk : Bool) (s : State),
    (s.pair pair.val).halted = false) ∧
  (∃ (p q : Nat) (s : State),
    s.saf.migrating = some p ∧ s.saf.spare = some q ∧ q ≠ p ∧ (s.pair q).healthy = true ∧ (s.pair q).parts = []) ∧
  (∃ (s : State),
    s.saf.migrating = none) :=
  ⟨⟨0, 0, (let s : State := Wit.run; let s : State := s.modPair (0 : Fin 4).val (fun y0 => { y0 with retired := false }); s.modPair (0 : Fin 4).val (fun y0 => { y0 with halted := false })),
    by decide +kernel⟩,
  ⟨0, 0, (let s : State := Wit.run; s.modPair (0 : Fin 4).val (fun y0 => { y0 with halted := true })),
    by decide +kernel⟩,
  ⟨0, (let s : State := Wit.run; let s : State := s.modPair (0 : Fin 4).val (fun y0 => { y0 with retired := false }); s.modPair (0 : Fin 4).val (fun y0 => { y0 with halted := true })),
    by decide +kernel⟩,
  ⟨0, false, (let s : State := Wit.run; let s : State := s.modPair (0 : Fin 4).val (fun y0 => { y0 with retired := false }); s.modPair (0 : Fin 4).val (fun y0 => { y0 with halted := true })),
    by decide +kernel⟩,
  ⟨0, false, (let s : State := Wit.run; let s : State := s.modPair (0 : Fin 4).val (fun y0 => { y0 with retired := false }); let s : State := s.modPair (0 : Fin 4).val (fun y0 => { y0 with halted := true }); s.modPair (0 : Fin 4).val (fun y0 => { y0 with transients := [0, 0] })),
    by decide +kernel⟩,
  ⟨0, 1, false, (let s : State := Wit.run; let s : State := s.modPair (0 : Fin 4).val (fun y0 => { y0 with retired := false }); let s : State := s.modPair (0 : Fin 4).val (fun y0 => { y0 with halted := true }); { s with saf := { s.saf with spare := some 1 } }),
    by decide +kernel⟩,
  ⟨0, false, false, (let s : State := Wit.run; s.modPair (0 : Fin 4).val (fun y0 => { y0 with halted := false })),
    by decide +kernel⟩,
  ⟨0, 1, (let s : State := Wit.run; let s : State := { s with saf := { s.saf with migrating := some (0 : Nat) } }; let s : State := { s with saf := { s.saf with spare := some (1 : Nat) } }; let s : State := s.modPair (1 : Nat) (fun y0 => { y0 with healthy := true }); s.modPair (1 : Nat) (fun y0 => { y0 with parts := [] })),
    by decide +kernel⟩,
  ⟨(let s : State := Wit.run; { s with saf := { s.saf with migrating := none } }),
    by decide +kernel⟩⟩

theorem witness_StackingAndCheckpointsAct :
  (∃ (pair : Fin 4) (regs : CoreRegs) (pmp : List PmpRegion) (cause tval : U32) (user : Bool) (s : State),
    (s.pair pair.val).retired = false ∧ (s.pair pair.val).halted = false ∧ (s.pair pair.val).xstk.en = true ∧ stackFault pmp (if user then (s.pair pair.val).xstk.msp else regs.sp).toNat = none) ∧
  (∃ (pair : Fin 4) (regs : CoreRegs) (pmp : List PmpRegion) (cause tval : U32) (user : Bool) (s : State),
    (s.pair pair.val).retired = false ∧ (s.pair pair.val).halted = false ∧ (s.pair pair.val).xstk.en = false) ∧
  (∃ (pair : Fin 4) (regs : CoreRegs) (pmp : List PmpRegion) (cause tval : U32) (user : Bool) (reason : Nat) (s : State),
    (s.pair pair.val).retired = false ∧ (s.pair pair.val).halted = false ∧ (s.pair pair.val).xstk.en = true ∧ (s.pair pair.val).xstk.efb = false ∧ stackFault pmp (if user then (s.pair pair.val).xstk.msp else regs.sp).toNat = some reason) ∧
  (∃ (pair : Fin 4) (regs : CoreRegs) (pmp : List PmpRegion) (cause tval : U32) (user : Bool) (reason : Nat) (s : State),
    (s.pair pair.val).retired = false ∧ (s.pair pair.val).halted = false ∧ (s.pair pair.val).xstk.en = true ∧ (s.pair pair.val).xstk.efb = true ∧ stackFault pmp (if user then (s.pair pair.val).xstk.msp else regs.sp).toNat = some reason) ∧
  (∃ (pair : Fin 4) (regs : CoreRegs) (pmp : List PmpRegion) (s : State),
    (s.pair pair.val).retired = false ∧ (s.pair pair.val).halted = false ∧ (s.pair pair.val).xstk.en = true ∧ frameOk pmp regs.sp.toNat = true ∧ (toUser (regs.unstack (s.pair pair.val).tcm regs.sp.toNat).mstatus = false ∨ (s.pair pair.val).xstk.partStop.getLsbD ((s.pair pair.val).xstk.partId % 4) = false)) ∧
  (∃ (pair : Fin 4) (regs : CoreRegs) (pmp : List PmpRegion) (s : State),
    (s.pair pair.val).retired = false ∧ (s.pair pair.val).halted = false ∧ (s.pair pair.val).xstk.en = true ∧ (s.pair pair.val).xstk.efb = false ∧ frameOk pmp regs.sp.toNat = false) ∧
  (∃ (pair : Fin 4) (value : U32) (s : State),
    value.getLsbD 31 = true) ∧
  (∃ (pair : Fin 4) (value : U32) (s : State),
    value.getLsbD 31 = false) :=
  ⟨⟨0, ({ Zero.coreRegs with sp := 160 }), ([{ base := 0, size := 4096, readable := true, writable := true, tcm := true }]), 0, 0, false, (let s : State := Wit.run; let s : State := s.modPair (0 : Fin 4).val (fun y0 => { y0 with retired := false }); let s : State := s.modPair (0 : Fin 4).val (fun y0 => { y0 with halted := false }); s.modPair (0 : Fin 4).val (fun y0 => { y0 with xstk := { y0.xstk with en := true } })),
    by decide +kernel⟩,
  ⟨0, Zero.coreRegs, ([]), 0, 0, false, (let s : State := Wit.run; let s : State := s.modPair (0 : Fin 4).val (fun y0 => { y0 with retired := false }); let s : State := s.modPair (0 : Fin 4).val (fun y0 => { y0 with halted := false }); s.modPair (0 : Fin 4).val (fun y0 => { y0 with xstk := { y0.xstk with en := false } })),
    by decide +kernel⟩,
  ⟨0, ({ Zero.coreRegs with sp := 8 }), ([]), 0, 0, false, 1, (let s : State := Wit.run; let s : State := s.modPair (0 : Fin 4).val (fun y0 => { y0 with retired := false }); let s : State := s.modPair (0 : Fin 4).val (fun y0 => { y0 with halted := false }); let s : State := s.modPair (0 : Fin 4).val (fun y0 => { y0 with xstk := { y0.xstk with en := true } }); s.modPair (0 : Fin 4).val (fun y0 => { y0 with xstk := { y0.xstk with efb := false } })),
    by decide +kernel⟩,
  ⟨0, ({ Zero.coreRegs with sp := 8 }), ([]), 0, 0, false, 1, (let s : State := Wit.run; let s : State := s.modPair (0 : Fin 4).val (fun y0 => { y0 with retired := false }); let s : State := s.modPair (0 : Fin 4).val (fun y0 => { y0 with halted := false }); let s : State := s.modPair (0 : Fin 4).val (fun y0 => { y0 with xstk := { y0.xstk with en := true } }); s.modPair (0 : Fin 4).val (fun y0 => { y0 with xstk := { y0.xstk with efb := true } })),
    by decide +kernel⟩,
  ⟨0, ({ Zero.coreRegs with sp := 160 }), ([{ base := 0, size := 4096, readable := true, writable := true, tcm := true }]), (let s : State := Wit.run; let s : State := s.modPair (0 : Fin 4).val (fun y0 => { y0 with retired := false }); let s : State := s.modPair (0 : Fin 4).val (fun y0 => { y0 with halted := false }); s.modPair (0 : Fin 4).val (fun y0 => { y0 with xstk := { y0.xstk with en := true } })),
    by decide +kernel⟩,
  ⟨0, Zero.coreRegs, ([]), (let s : State := Wit.run; let s : State := s.modPair (0 : Fin 4).val (fun y0 => { y0 with retired := false }); let s : State := s.modPair (0 : Fin 4).val (fun y0 => { y0 with halted := false }); let s : State := s.modPair (0 : Fin 4).val (fun y0 => { y0 with xstk := { y0.xstk with en := true } }); s.modPair (0 : Fin 4).val (fun y0 => { y0 with xstk := { y0.xstk with efb := false } })),
    by decide +kernel⟩,
  ⟨0, 0x80000000, Wit.run,
    by decide +kernel⟩,
  ⟨0, 0, Wit.run,
    by decide +kernel⟩⟩

theorem witness_LogRowsAct :
  (∃ (s : State) (r : Req) (p : Port) (store : Byte) (first : U32) (count : U16),
    Requested s r p 12 ∧ store.toNat ≤ 1 ∧ 1 ≤ count.toNat ∧ count.toNat ≤ 125 ∧ s.sys.mode.isServing = true) ∧
  (∃ (s : State) (r : Req) (p : Port) (first : U32),
    Requested s r p 12 ∧ s.sys.mode.isServing = true ∧ s.log.mode = .normal ∧ s.log.ram = []) ∧
  (∃ (s : State) (r : Req) (p : Port) (last : U32) (e : LogEntry),
    Requested s r p 4 ∧ p.sysPriv = true ∧ s.sys.mode.isServing = true ∧ s.log.nand.head? = some e ∧ later last e.seq = false) ∧
  (∃ (s : State) (r : Req) (p : Port) (last : U32) (e : LogEntry),
    Requested s r p 4 ∧ p.sysPriv = true ∧ s.sys.mode.isServing = true ∧ s.log.nand.head? = some e ∧ later last e.seq = true) ∧
  (∃ (s : State) (r : Req) (p : Port),
    Requested s r p 4 ∧ s.sys.mode.isServing = true) ∧
  (∃ (s : State) (r : Req) (p : Port),
    Requested s r p 4 ∧ p.sysPriv = true ∧ s.sys.mode.isServing = true) ∧
  (∃ (s : State) (r : Req) (p : Port),
    Requested s r p 4 ∧ p.sysPriv = true ∧ s.sys.mode.isServing = true) ∧
  (∃ (s : State) (r : Req) (p : Port),
    Requested s r p 0 ∧ s.sys.mode.isAwake = true) ∧
  (∃ (s : State) (r : Req) (p : Port),
    Requested s r p 0 ∧ p.sysPriv = true ∧ s.sys.mode = .workshop) ∧
  (∃ (s : State) (r : Req) (p : Port),
    Requested s r p 0 ∧ p.sysPriv = true ∧ s.sys.mode ≠ .workshop) ∧
  (∃ (stone : Fin 16) (x : Stone) (s : State),
    s.log.stones.get? stone.val = some x) ∧
  (∃ (stone : Fin 16) (s : State),
    s.log.stones.get? stone.val = none) ∧
  (∃ (s : State),
    s.mgrUp = true ∧ s.log.mode = .normal ∧ s.log.flashFail = false) ∧
  (∃ (s : State),
    s.mgrUp = true ∧ s.log.mode = .normal ∧ s.log.flashFail = true) ∧
  (∃ (s : State),
    s.log.mode ≠ .normal) ∧
  (∃ (s : State),
    s.mgrUp = true ∧ s.log.mode = .normal) ∧
  (∃ (s : State),
    s.mgrUp = true ∧ s.log.mode = .nandOnly) ∧
  (∃ (s : State),
    s.log.mode = .stonesOnly) :=
  ⟨⟨Wit.run, ((Wit.req 12)), Wit.sys, 1, 0, 125,
    ⟨by decide +kernel, rfl, by decide +kernel, rfl⟩, by decide +kernel⟩,
  ⟨(let s : State := Wit.run; let s : State := { s with log := { s.log with mode := .normal } }; { s with log := { s.log with ram := [] } }), ((Wit.req 12)), Wit.sys, 0,
    ⟨by decide +kernel, rfl, by decide +kernel, rfl⟩, by decide +kernel⟩,
  ⟨(let s : State := Wit.run; { s with log := { s.log with nand := [({ Zero.logEntry with seq := 5 } : LogEntry)] } }), ((Wit.req 4)), Wit.sys, 5, ({ Zero.logEntry with seq := 5 }),
    ⟨by decide +kernel, rfl, by decide +kernel, rfl⟩, by decide +kernel⟩,
  ⟨(let s : State := Wit.run; { s with log := { s.log with nand := [({ Zero.logEntry with seq := 5 } : LogEntry)] } }), ((Wit.req 4)), Wit.sys, 6, ({ Zero.logEntry with seq := 5 }),
    ⟨by decide +kernel, rfl, by decide +kernel, rfl⟩, by decide +kernel⟩,
  ⟨Wit.run, ((Wit.req 4)), Wit.sys,
    ⟨by decide +kernel, rfl, by decide +kernel, rfl⟩, by decide +kernel⟩,
  ⟨Wit.run, ((Wit.req 4)), Wit.sys,
    ⟨by decide +kernel, rfl, by decide +kernel, rfl⟩, by decide +kernel⟩,
  ⟨Wit.run, ((Wit.req 4)), Wit.sys,
    ⟨by decide +kernel, rfl, by decide +kernel, rfl⟩, by decide +kernel⟩,
  ⟨Wit.run, ((Wit.req 0)), Wit.sys,
    ⟨by decide +kernel, rfl, by decide +kernel, rfl⟩, by decide +kernel⟩,
  ⟨(let s : State := Wit.run; { s with sys := { s.sys with mode := .workshop } }), ((Wit.req 0)), Wit.sys,
    ⟨by decide +kernel, rfl, by decide +kernel, rfl⟩, by decide +kernel⟩,
  ⟨Wit.run, ((Wit.req 0)), Wit.sys,
    ⟨by decide +kernel, rfl, by decide +kernel, rfl⟩, by decide +kernel⟩,
  ⟨0, Zero.stone, (let s : State := Wit.run; { s with log := { s.log with stones := ⟨[((0 : Fin 16).val, (Zero.stone : Stone))]⟩ } }),
    by decide +kernel⟩,
  ⟨0, Wit.run,
    by decide +kernel⟩,
  ⟨(let s : State := Wit.run; let s : State := { s with log := { s.log with mode := .normal } }; { s with log := { s.log with flashFail := false } }),
    by decide +kernel⟩,
  ⟨(let s : State := Wit.run; let s : State := { s with log := { s.log with mode := .normal } }; { s with log := { s.log with flashFail := true } }),
    by decide +kernel⟩,
  ⟨(let s : State := Wit.run; { s with log := { s.log with mode := .nandOnly } }),
    by decide +kernel⟩,
  ⟨(let s : State := Wit.run; { s with log := { s.log with mode := .normal } }),
    by decide +kernel⟩,
  ⟨(let s : State := Wit.run; { s with log := { s.log with mode := .nandOnly } }),
    by decide +kernel⟩,
  ⟨(let s : State := Wit.run; { s with log := { s.log with mode := .stonesOnly } }),
    by decide +kernel⟩⟩

theorem witness_KeyCommandsAct :
  (∃ (s : State) (r : Req) (p : Port) (f : ProvisionFields) (c : List Byte),
    Requested s r p (if flagOf f.flags 0 then 1408 else 320) ∧ p.sysPriv = true ∧ provisionStat f = none ∧ s.sys.mode = .workshop ∧ s.nonceFresh f.nonce = true ∧ slotAccess s f.slot.toNat f.sig = none ∧ f.content = some c) ∧
  (∃ (s : State) (r : Req) (p : Port) (f : ProvisionFields),
    Requested s r p (if flagOf f.flags 0 then 1408 else 320) ∧ p.sysPriv = true ∧ provisionStat f = none ∧ s.sys.mode = .workshop ∧ s.nonceFresh f.nonce = false) ∧
  (∃ (s : State) (r : Req) (p : Port) (slot : Byte) (nonce : Nat) (sig : KeySig),
    Requested s r p 136 ∧ p.sysPriv = true ∧ slot.toNat ≤ 127 ∧ s.sys.mode = .workshop ∧ s.nonceFresh nonce = true ∧ slotAccess s slot.toNat sig = none) ∧
  (∃ (s : State) (r : Req) (p : Port) (slot : Byte) (nonce : Nat) (sig : KeySig),
    Requested s r p 136 ∧ p.sysPriv = true ∧ slot.toNat ≤ 127 ∧ s.sys.mode = .workshop ∧ s.nonceFresh nonce = true ∧ slotAccess s slot.toNat sig = some stat_authFail) ∧
  (∃ (s : State) (r : Req) (p : Port) (first count : Byte),
    Requested s r p 4 ∧ p.sysPriv = true ∧ 1 ≤ count.toNat ∧ count.toNat ≤ 55 ∧ first.toNat + count.toNat ≤ 128 ∧ s.sys.mode.isAwake = true) ∧
  (∃ (s : State) (r : Req) (p : Port) (first count : Byte),
    Requested s r p 4 ∧ p.sysPriv = true ∧ (count.toNat = 0 ∨ 55 < count.toNat ∨ 128 < first.toNat + count.toNat)) ∧
  (∃ (s : State) (r : Req) (p : Port) (n : U16),
    Requested s r p 4 ∧ 1 ≤ n.toNat ∧ n.toNat ≤ 4032 ∧ s.sys.mode.isAwake = true ∧ s.key.trngFail = false) ∧
  (∃ (s : State) (r : Req) (p : Port) (n : U16),
    Requested s r p 4 ∧ 1 ≤ n.toNat ∧ n.toNat ≤ 4032 ∧ s.sys.mode.isAwake = true ∧ s.key.trngFail = true) ∧
  (∃ (s : State) (r : Req) (p : Port),
    Requested s r p 0 ∧ s.sys.mode.isAwake = true ∧ s.key.pufFail = false) ∧
  (∃ (s : State) (r : Req) (p : Port),
    Requested s r p 0 ∧ s.sys.mode.isAwake = true ∧ s.key.pufFail = true) ∧
  (∃ (s : State) (r : Req) (p : Port) (nonce : List Byte),
    Requested s r p 36 ∧ s.sys.mode.isAwake = true ∧ s.key.pufFail = false) ∧
  (∃ (s : State) (r : Req) (p : Port) (nonce : List Byte),
    Requested s r p 36 ∧ s.sys.mode.isAwake = true ∧ s.key.pufFail = false) ∧
  (∃ (s : State),
    s.key.trngFail = false) ∧
  (∃ (s : State),
    s.key.trngFail = true) :=
  ⟨⟨(let s : State := Wit.run; { s with sys := { s.sys with mode := .workshop } }), ((Wit.req (if flagOf ({ Zero.provisionFields with content := some ([] : List Byte) } : ProvisionFields).flags 0 then 1408 else 320))), Wit.sys, ({ Zero.provisionFields with content := some ([] : List Byte) }), ([]),
    ⟨by decide +kernel, rfl, by decide +kernel, rfl⟩, by decide +kernel⟩,
  ⟨(let s : State := Wit.run; { s with sys := { s.sys with mode := .workshop } }), ((Wit.req (if flagOf ({ Zero.provisionFields with nonce := 5 } : ProvisionFields).flags 0 then 1408 else 320))), Wit.sys, ({ Zero.provisionFields with nonce := 5 }),
    ⟨by decide +kernel, rfl, by decide +kernel, rfl⟩, by decide +kernel⟩,
  ⟨(let s : State := Wit.run; { s with sys := { s.sys with mode := .workshop } }), ((Wit.req 136)), Wit.sys, 127, 0, .provisioning,
    ⟨by decide +kernel, rfl, by decide +kernel, rfl⟩, by decide +kernel⟩,
  ⟨(let s : State := Wit.run; { s with sys := { s.sys with mode := .workshop } }), ((Wit.req 136)), Wit.sys, 127, 0, .none,
    ⟨by decide +kernel, rfl, by decide +kernel, rfl⟩, by decide +kernel⟩,
  ⟨Wit.run, ((Wit.req 4)), Wit.sys, 0, 55,
    ⟨by decide +kernel, rfl, by decide +kernel, rfl⟩, by decide +kernel⟩,
  ⟨Wit.run, ((Wit.req 4)), Wit.sys, 0, 0,
    ⟨by decide +kernel, rfl, by decide +kernel, rfl⟩, by decide +kernel⟩,
  ⟨(let s : State := Wit.run; { s with key := { s.key with trngFail := false } }), ((Wit.req 4)), Wit.sys, 4032,
    ⟨by decide +kernel, rfl, by decide +kernel, rfl⟩, by decide +kernel⟩,
  ⟨(let s : State := Wit.run; { s with key := { s.key with trngFail := true } }), ((Wit.req 4)), Wit.sys, 4032,
    ⟨by decide +kernel, rfl, by decide +kernel, rfl⟩, by decide +kernel⟩,
  ⟨(let s : State := Wit.run; { s with key := { s.key with pufFail := false } }), ((Wit.req 0)), Wit.sys,
    ⟨by decide +kernel, rfl, by decide +kernel, rfl⟩, by decide +kernel⟩,
  ⟨(let s : State := Wit.run; { s with key := { s.key with pufFail := true } }), ((Wit.req 0)), Wit.sys,
    ⟨by decide +kernel, rfl, by decide +kernel, rfl⟩, by decide +kernel⟩,
  ⟨(let s : State := Wit.run; { s with key := { s.key with pufFail := false } }), ((Wit.req 36)), Wit.sys, ([]),
    ⟨by decide +kernel, rfl, by decide +kernel, rfl⟩, by decide +kernel⟩,
  ⟨(let s : State := Wit.run; { s with key := { s.key with pufFail := false } }), ((Wit.req 36)), Wit.sys, ([]),
    ⟨by decide +kernel, rfl, by decide +kernel, rfl⟩, by decide +kernel⟩,
  ⟨(let s : State := Wit.run; { s with key := { s.key with trngFail := false } }),
    by decide +kernel⟩,
  ⟨(let s : State := Wit.run; { s with key := { s.key with trngFail := true } }),
    by decide +kernel⟩⟩

theorem witness_UpdateCommandsAct :
  (∃ (s : State) (r : Req) (p : Port) (target : Byte) (total : U32),
    Requested s r p 8 ∧ p.sysPriv = true ∧ beginStat s target.toNat total.toNat = none ∧ s.sys.mode.isWorkBase = true ∧ s.upd.open_ = none ∧ s.upd.verifying = none ∧ target.toNat ≤ 5) ∧
  (∃ (s : State) (r : Req) (p : Port) (target : Byte) (total : U32),
    Requested s r p 8 ∧ p.sysPriv = true ∧ beginStat s target.toNat total.toNat = none ∧ s.sys.mode.isWorkBase = true ∧ s.upd.open_.isSome = true) ∧
  (∃ (s : State) (r : Req) (p : Port) (offset : U32) (data : List Byte) (x : UpdTarget),
    Requested s r p (4 + data.length) ∧ p.sysPriv = true ∧ blockOk data = true ∧ s.sys.mode.isWorkBase = true ∧ s.upd.open_ = some x ∧ offset.toNat + data.length ≤ x.total) ∧
  (∃ (s : State) (r : Req) (p : Port) (offset : U32) (data : List Byte),
    Requested s r p (4 + data.length) ∧ p.sysPriv = true ∧ blockOk data = true ∧ s.sys.mode.isWorkBase = true ∧ s.upd.open_ = none) ∧
  (∃ (s : State) (r : Req) (p : Port) (x : UpdTarget),
    Requested s r p 0 ∧ p.sysPriv = true ∧ s.sys.mode.isWorkBase = true ∧ s.upd.open_ = some x) ∧
  (∃ (f : VerifyFacts) (bank : Bank) (v : Verifying) (n : Nat) (tag seq : U32) (s : State),
    s.upd.verifying = some v ∧ v.requester = some (n, tag, seq) ∧ v.target.target ≠ 16 ∧ imageStatus v.target f { s with upd := { s.upd with verifying := none } } = none) ∧
  (∃ (f : VerifyFacts) (bank : Bank) (v : Verifying) (n : Nat) (tag seq : U32) (st : U16) (s : State),
    s.upd.verifying = some v ∧ v.requester = some (n, tag, seq) ∧ v.target.target ≠ 16 ∧ imageStatus v.target f { s with upd := { s.upd with verifying := none } } = some st) ∧
  (∃ (f : VerifyFacts) (bank : Bank) (v : Verifying) (n : Nat) (tag seq : U32) (s : State),
    s.upd.verifying = some v ∧ v.requester = some (n, tag, seq) ∧ v.target.target = 16 ∧ bankStatus (bank.read v.target.bytes) { s with upd := { s.upd with verifying := none } } = none) ∧
  (∃ (f : VerifyFacts) (bank : Bank) (s : State),
    s.upd.verifying = none) ∧
  (∃ (s : State) (r : Req) (p : Port),
    Requested s r p 4 ∧ p.sysPriv = true ∧ s.sys.mode.isWorkBase = true ∧ s.upd.open_ = none ∧ s.upd.verifying = none ∧ s.commitMask ≠ 0 ∧ (s.commitMask % 128 = 0 ∨ testedSet (s.setImages s.resultSet) = true)) ∧
  (∃ (s : State) (r : Req) (p : Port),
    Requested s r p 4 ∧ p.sysPriv = true ∧ s.sys.mode.isWorkBase = true ∧ s.commitMask = 0) ∧
  (∃ (s : State) (r : Req) (p : Port),
    Requested s r p 4 ∧ p.sysPriv = true ∧ s.sys.mode.isWorkBase = true ∧ s.upd.open_ = none ∧ s.upd.verifying = none ∧ s.commitMask % 128 ≠ 0 ∧ testedSet (s.setImages s.resultSet) = false) ∧
  (∃ (s : State) (r : Req) (p : Port),
    Requested s r p 0 ∧ p.sysPriv = true ∧ s.sys.mode.isWorkBase = true ∧ s.upd.verifying = none) ∧
  (∃ (s : State) (r : Req) (p : Port),
    Requested s r p 0 ∧ s.sys.mode.isAwake = true) ∧
  (∃ (s : State) (r : Req) (p : Port),
    Requested s r p 0 ∧ p.sysPriv = true ∧ s.sys.mode.isWorkBase = true ∧ s.restartReady = true) ∧
  (∃ (s : State) (r : Req) (p : Port),
    Requested s r p 0 ∧ p.sysPriv = true ∧ s.sys.mode = .basecamp ∧ s.upd.committed = false) ∧
  (∃ (s : State) (r : Req) (p : Port) (allowance : Byte) (digest : List Byte),
    Requested s r p 152 ∧ p.sysPriv = true ∧ allowance ≠ 0 ∧ s.sys.mode = .workshop ∧ s.slotServes 125 8 = true) ∧
  (∃ (s : State) (r : Req) (p : Port) (allowance : Byte) (digest : List Byte),
    Requested s r p 152 ∧ p.sysPriv = true ∧ allowance ≠ 0 ∧ s.sys.mode = .workshop) :=
  ⟨⟨(let s : State := Wit.run; let s : State := { s with sys := { s.sys with mode := .workshop } }; let s : State := { s with upd := { s.upd with open_ := none } }; { s with upd := { s.upd with verifying := none } }), ((Wit.req 8)), Wit.sys, 5, 16,
    ⟨by decide +kernel, rfl, by decide +kernel, rfl⟩, by decide +kernel⟩,
  ⟨(let s : State := Wit.run; let s : State := { s with sys := { s.sys with mode := .workshop } }; { s with upd := { s.upd with open_ := some { target := 0, second := false, total := 16, bytes := [] } } }), ((Wit.req 8)), Wit.sys, 5, 16,
    ⟨by decide +kernel, rfl, by decide +kernel, rfl⟩, by decide +kernel⟩,
  ⟨(let s : State := Wit.run; let s : State := { s with sys := { s.sys with mode := .workshop } }; { s with upd := { s.upd with open_ := some ({ target := 0, second := false, total := 16, bytes := [] } : UpdTarget) } }), ((Wit.req (4 + (zeros 16 : List Byte).length))), Wit.sys, 0, (zeros 16), ({ target := 0, second := false, total := 16, bytes := [] }),
    ⟨by decide +kernel, rfl, by decide +kernel, rfl⟩, by decide +kernel⟩,
  ⟨(let s : State := Wit.run; let s : State := { s with sys := { s.sys with mode := .workshop } }; { s with upd := { s.upd with open_ := none } }), ((Wit.req (4 + (zeros 16 : List Byte).length))), Wit.sys, 0, (zeros 16),
    ⟨by decide +kernel, rfl, by decide +kernel, rfl⟩, by decide +kernel⟩,
  ⟨(let s : State := Wit.run; let s : State := { s with sys := { s.sys with mode := .workshop } }; { s with upd := { s.upd with open_ := some (Zero.updTarget : UpdTarget) } }), ((Wit.req 0)), Wit.sys, Zero.updTarget,
    ⟨by decide +kernel, rfl, by decide +kernel, rfl⟩, by decide +kernel⟩,
  ⟨({ sigOk := true, tagOk := true, digestOk := true }), Zero.bank, ({ target := { target := 0, second := false, total := 8192, bytes := [(0, 0x47), (1, 0x4D), (2, 0x49), (3, 0x5A), (4, 1), (13, 0xFF), (0x1FFC, 1)] }, requester := some (0, 0, 1) }), 0, 0, 1, (let s : State := Wit.run; { s with upd := { s.upd with verifying := some ({ target := { target := 0, second := false, total := 8192, bytes := [(0, 0x47), (1, 0x4D), (2, 0x49), (3, 0x5A), (4, 1), (13, 0xFF), (0x1FFC, 1)] }, requester := some (0, 0, 1) } : Verifying) } }),
    by decide +kernel⟩,
  ⟨({ sigOk := false, tagOk := true, digestOk := true }), Zero.bank, ({ target := { target := 0, second := false, total := 8192, bytes := [(0, 0x47), (1, 0x4D), (2, 0x49), (3, 0x5A), (4, 1), (13, 0xFF), (0x1FFC, 1)] }, requester := some (0, 0, 1) }), 0, 0, 1, stat_updSignature, (let s : State := Wit.run; { s with upd := { s.upd with verifying := some ({ target := { target := 0, second := false, total := 8192, bytes := [(0, 0x47), (1, 0x4D), (2, 0x49), (3, 0x5A), (4, 1), (13, 0xFF), (0x1FFC, 1)] }, requester := some (0, 0, 1) } : Verifying) } }),
    by decide +kernel⟩,
  ⟨Zero.verifyFacts, (Wit.bank 2), ({ target := { target := 16, second := false, total := 12288, bytes := Wit.bankBytes }, requester := some ((0 : Nat), (0 : U32), (1 : U32)) }), 0, 0, 1, (let s : State := Wit.run; { s with upd := { s.upd with verifying := some ({ target := { target := 16, second := false, total := 12288, bytes := Wit.bankBytes }, requester := some ((0 : Nat), (0 : U32), (1 : U32)) } : Verifying) } }),
    by decide +kernel⟩,
  ⟨Zero.verifyFacts, Zero.bank, (let s : State := Wit.run; { s with upd := { s.upd with verifying := none } }),
    by decide +kernel⟩,
  ⟨(let s : State := Wit.run; let s : State := { s with sys := { s.sys with mode := .workshop } }; let s : State := { s with upd := { s.upd with open_ := none } }; let s : State := { s with upd := { s.upd with verifying := none } }; { s with upd := { s.upd with bankReady := some (false, Wit.bank 2) } }), ((Wit.req 4)), Wit.sys,
    ⟨by decide +kernel, rfl, by decide +kernel, rfl⟩, by decide +kernel⟩,
  ⟨(let s : State := Wit.run; { s with sys := { s.sys with mode := .workshop } }), ((Wit.req 4)), Wit.sys,
    ⟨by decide +kernel, rfl, by decide +kernel, rfl⟩, by decide +kernel⟩,
  ⟨(let s : State := Wit.run; let s : State := { s with sys := { s.sys with mode := .workshop } }; let s : State := { s with upd := { s.upd with open_ := none } }; let s : State := { s with upd := { s.upd with verifying := none } }; s.modCopy 0 false (fun y0 => { y0 with state := .verified })), ((Wit.req 4)), Wit.sys,
    ⟨by decide +kernel, rfl, by decide +kernel, rfl⟩, by decide +kernel⟩,
  ⟨(let s : State := Wit.run; let s : State := { s with sys := { s.sys with mode := .workshop } }; { s with upd := { s.upd with verifying := none } }), ((Wit.req 0)), Wit.sys,
    ⟨by decide +kernel, rfl, by decide +kernel, rfl⟩, by decide +kernel⟩,
  ⟨Wit.run, ((Wit.req 0)), Wit.sys,
    ⟨by decide +kernel, rfl, by decide +kernel, rfl⟩, by decide +kernel⟩,
  ⟨(let s : State := Wit.run; { s with sys := { s.sys with mode := .workshop } }), ((Wit.req 0)), Wit.sys,
    ⟨by decide +kernel, rfl, by decide +kernel, rfl⟩, by decide +kernel⟩,
  ⟨(let s : State := Wit.run; let s : State := { s with sys := { s.sys with mode := .basecamp } }; { s with upd := { s.upd with committed := false } }), ((Wit.req 0)), Wit.sys,
    ⟨by decide +kernel, rfl, by decide +kernel, rfl⟩, by decide +kernel⟩,
  ⟨(let s : State := Wit.run; { s with sys := { s.sys with mode := .workshop } }), ((Wit.req 152)), Wit.sys, 1, ([]),
    ⟨by decide +kernel, rfl, by decide +kernel, rfl⟩, by decide +kernel⟩,
  ⟨(let s : State := Wit.run; { s with sys := { s.sys with mode := .workshop } }), ((Wit.req 152)), Wit.sys, 1, ([]),
    ⟨by decide +kernel, rfl, by decide +kernel, rfl⟩, by decide +kernel⟩⟩

theorem witness_UdsServicesAct :
  (∃ (sub : Byte) (s : State),
    s.basecamp = true ∧ s.mgrUp = true ∧ s.uds.serving ≠ some .ring ∧ (sub = 1 ∨ sub = 2)) ∧
  (∃ (sub : Byte) (s : State),
    s.basecamp = true ∧ s.mgrUp = true ∧ s.uds.serving = some .ring) ∧
  (∃ (sub : Byte) (s : State),
    s.basecamp = false) ∧
  (∃ (s : State),
    s.basecamp = true ∧ s.mgrUp = true ∧ s.uds.serving ≠ some .ring ∧ s.uds.programming = true ∧ s.uds.unlocked = true ∧ s.restartReady = true) ∧
  (∃ (s : State),
    s.basecamp = true ∧ s.mgrUp = true ∧ s.uds.serving ≠ some .ring ∧ s.uds.programming = false) ∧
  (∃ (s : State),
    s.basecamp = true ∧ s.mgrUp = true ∧ s.uds.serving ≠ some .ring) ∧
  (∃ (s : State),
    s.basecamp = true ∧ s.mgrUp = true ∧ s.uds.serving ≠ some .ring) ∧
  (∃ (s : State),
    s.basecamp = true ∧ s.mgrUp = true ∧ s.uds.serving ≠ some .ring) ∧
  (∃ (s : State),
    s.basecamp = true ∧ s.mgrUp = true ∧ s.uds.serving ≠ some .ring ∧ s.uds.programming = true ∧ s.uds.locked = false ∧ (s.slot 124).state = .valid ∧ s.uds.unlocked = false ∧ s.key.trngFail = false) ∧
  (∃ (s : State),
    s.basecamp = true ∧ s.mgrUp = true ∧ s.uds.serving ≠ some .ring ∧ s.uds.programming = true ∧ s.uds.locked = true) ∧
  (∃ (n : Nat) (s : State),
    s.basecamp = true ∧ s.mgrUp = true ∧ s.uds.serving ≠ some .ring ∧ s.uds.programming = true ∧ s.uds.locked = false ∧ s.uds.seed = some n ∧ s.nonceFresh n = true ∧ s.slotServes 124 8 = true) ∧
  (∃ (n : Nat) (s : State),
    s.basecamp = true ∧ s.mgrUp = true ∧ s.uds.serving ≠ some .ring ∧ s.uds.programming = true ∧ s.uds.locked = false ∧ s.uds.seed = some n ∧ (s.slot 124).state ≠ .bad ∧ s.uds.wrong < 2) ∧
  (∃ (n : Nat) (s : State),
    s.basecamp = true ∧ s.mgrUp = true ∧ s.uds.serving ≠ some .ring ∧ s.uds.programming = true ∧ s.uds.locked = false ∧ s.uds.seed = some n ∧ (s.slot 124).state ≠ .bad ∧ 2 ≤ s.uds.wrong) :=
  ⟨⟨1, (let s : State := Wit.run; { s with sys := { s.sys with mode := .basecamp } }),
    by decide +kernel⟩,
  ⟨0, (let s : State := Wit.run; let s : State := { s with sys := { s.sys with mode := .basecamp } }; { s with uds := { s.uds with serving := some .ring } }),
    by decide +kernel⟩,
  ⟨0, Wit.run,
    by decide +kernel⟩,
  ⟨(let s : State := Wit.run; let s : State := { s with sys := { s.sys with mode := .basecamp } }; let s : State := { s with uds := { s.uds with programming := true } }; let s : State := { s with uds := { s.uds with unlocked := true } }; { s with upd := { s.upd with committed := true } }),
    by decide +kernel⟩,
  ⟨(let s : State := Wit.run; let s : State := { s with sys := { s.sys with mode := .basecamp } }; { s with uds := { s.uds with programming := false } }),
    by decide +kernel⟩,
  ⟨(let s : State := Wit.run; { s with sys := { s.sys with mode := .basecamp } }),
    by decide +kernel⟩,
  ⟨(let s : State := Wit.run; { s with sys := { s.sys with mode := .basecamp } }),
    by decide +kernel⟩,
  ⟨(let s : State := Wit.run; { s with sys := { s.sys with mode := .basecamp } }),
    by decide +kernel⟩,
  ⟨(let s : State := Wit.run; let s : State := { s with sys := { s.sys with mode := .basecamp } }; let s : State := { s with uds := { s.uds with programming := true } }; let s : State := { s with uds := { s.uds with locked := false } }; let s : State := s.modKeySlot 124 (fun y0 => { y0 with state := .valid }); let s : State := { s with uds := { s.uds with unlocked := false } }; { s with key := { s.key with trngFail := false } }),
    by decide +kernel⟩,
  ⟨(let s : State := Wit.run; let s : State := { s with sys := { s.sys with mode := .basecamp } }; let s : State := { s with uds := { s.uds with programming := true } }; { s with uds := { s.uds with locked := true } }),
    by decide +kernel⟩,
  ⟨0, (let s : State := Wit.run; let s : State := { s with sys := { s.sys with mode := .basecamp } }; let s : State := { s with uds := { s.uds with programming := true } }; let s : State := { s with uds := { s.uds with locked := false } }; { s with uds := { s.uds with seed := some (0 : Nat) } }),
    by decide +kernel⟩,
  ⟨0, (let s : State := Wit.run; let s : State := { s with sys := { s.sys with mode := .basecamp } }; let s : State := { s with uds := { s.uds with programming := true } }; let s : State := { s with uds := { s.uds with locked := false } }; { s with uds := { s.uds with seed := some (0 : Nat) } }),
    by decide +kernel⟩,
  ⟨0, (let s : State := Wit.run; let s : State := { s with sys := { s.sys with mode := .basecamp } }; let s : State := { s with uds := { s.uds with programming := true } }; let s : State := { s with uds := { s.uds with locked := false } }; let s : State := { s with uds := { s.uds with seed := some (0 : Nat) } }; { s with uds := { s.uds with wrong := 2 } }),
    by decide +kernel⟩⟩

theorem witness_UdsDownloadsAct :
  (∃ (target total : U32) (s : State),
    s.basecamp = true ∧ s.mgrUp = true ∧ s.uds.serving ≠ some .ring ∧ s.uds.programming = true ∧ s.uds.unlocked = true ∧ beginStat s target.toNat total.toNat = none ∧ s.upd.open_ = none ∧ s.upd.verifying = none ∧ target.toNat ≤ 5) ∧
  (∃ (target total : U32) (s : State),
    s.basecamp = true ∧ s.mgrUp = true ∧ s.uds.serving ≠ some .ring ∧ s.uds.unlocked = false) ∧
  (∃ (counter : Byte) (data : List Byte) (x : UpdTarget) (s : State),
    s.basecamp = true ∧ s.mgrUp = true ∧ s.uds.serving ≠ some .ring ∧ s.uds.programming = true ∧ s.uds.unlocked = true ∧ s.upd.open_ = some x ∧ counter = s.uds.counter ∧ blockOk data = true ∧ 4016 * s.uds.block + data.length ≤ x.total) ∧
  (∃ (counter : Byte) (data : List Byte) (x : UpdTarget) (s : State),
    s.basecamp = true ∧ s.mgrUp = true ∧ s.uds.serving ≠ some .ring ∧ s.uds.programming = true ∧ s.uds.unlocked = true ∧ s.upd.open_ = some x ∧ counter ≠ s.uds.counter) ∧
  (∃ (x : UpdTarget) (s : State),
    s.basecamp = true ∧ s.mgrUp = true ∧ s.uds.serving ≠ some .ring ∧ s.uds.programming = true ∧ s.uds.unlocked = true ∧ s.upd.open_ = some x) ∧
  (∃ (s : State),
    s.basecamp = true ∧ s.mgrUp = true ∧ s.uds.serving ≠ some .ring ∧ s.uds.programming = true ∧ s.uds.unlocked = true ∧ s.upd.verifying = none) ∧
  (∃ (s : State),
    s.basecamp = true ∧ s.mgrUp = true ∧ s.uds.serving ≠ some .ring ∧ s.uds.programming = true ∧ s.uds.unlocked = true ∧ s.upd.open_ = none ∧ s.upd.verifying = none ∧ s.commitMask ≠ 0 ∧ (s.commitMask % 128 = 0 ∨ testedSet (s.setImages s.resultSet) = true)) ∧
  (∃ (payload : List Byte) (s : State),
    s.basecamp = true ∧ s.mgrUp = true ∧ s.uds.serving ≠ some .ring ∧ s.uds.programming = true ∧ s.uds.unlocked = true) ∧
  (∃ (code : U16) (s : State),
    s.basecamp = true ∧ s.mgrUp = true ∧ s.uds.serving ≠ some .ring ∧ s.uds.programming = true ∧ s.uds.unlocked = true) ∧
  (∃ (id : U16) (g : Option UdsGyvin) (s : State),
    s.basecamp = true ∧ s.mgrUp = true ∧ s.uds.serving ≠ some .ring ∧ s.uds.unlocked = false) ∧
  (∃ (g : CanFrame) (b : Byte) (r : List Byte) (sof : U64) (n : CanCounters) (s : State),
    s.sys.mode = .basecamp ∧ (s.canCh 0).mode.onBus = true ∧ s.powered (pdCan 0) = true ∧ n.err = 0 ∧ g.ide = false ∧ g.rtr = false ∧ g.fmt = 0 ∧ (g.id.extractLsb' 18 11 = 0x7C0 ∨ g.id.extractLsb' 18 11 = 0x7CF) ∧ g.data = b :: r ∧ 1 ≤ b.toNat ∧ b.toNat ≤ 7 ∧ b.toNat ≤ r.length) ∧
  (∃ (g : CanFrame) (r : List Byte) (sof : U64) (n : CanCounters) (s : State),
    s.sys.mode = .basecamp ∧ (s.canCh 0).mode.onBus = true ∧ s.powered (pdCan 0) = true ∧ n.err = 0 ∧ g.ide = false ∧ g.rtr = false ∧ g.fmt = 0 ∧ g.id.extractLsb' 18 11 = 0x7C0 ∧ g.data = 0x30 :: 0 :: r) ∧
  (∃ (u : TpState) (b : List Byte),
    b ≠ [] ∧ b.length ≤ 7) :=
  ⟨⟨5, 16, (let s : State := Wit.run; let s : State := { s with sys := { s.sys with mode := .basecamp } }; let s : State := { s with uds := { s.uds with programming := true } }; let s : State := { s with uds := { s.uds with unlocked := true } }; let s : State := { s with upd := { s.upd with open_ := none } }; { s with upd := { s.upd with verifying := none } }),
    by decide +kernel⟩,
  ⟨0, 0, (let s : State := Wit.run; let s : State := { s with sys := { s.sys with mode := .basecamp } }; { s with uds := { s.uds with unlocked := false } }),
    by decide +kernel⟩,
  ⟨(let s : State := (let s : State := Wit.run; let s : State := { s with sys := { s.sys with mode := .basecamp } }; let s : State := { s with uds := { s.uds with programming := true } }; let s : State := { s with uds := { s.uds with unlocked := true } }; { s with upd := { s.upd with open_ := some ({ target := 0, second := false, total := 16, bytes := [] } : UpdTarget) } }); s.uds.counter), (zeros 16), ({ target := 0, second := false, total := 16, bytes := [] }), (let s : State := Wit.run; let s : State := { s with sys := { s.sys with mode := .basecamp } }; let s : State := { s with uds := { s.uds with programming := true } }; let s : State := { s with uds := { s.uds with unlocked := true } }; { s with upd := { s.upd with open_ := some ({ target := 0, second := false, total := 16, bytes := [] } : UpdTarget) } }),
    by decide +kernel⟩,
  ⟨0, ([]), Zero.updTarget, (let s : State := Wit.run; let s : State := { s with sys := { s.sys with mode := .basecamp } }; let s : State := { s with uds := { s.uds with programming := true } }; let s : State := { s with uds := { s.uds with unlocked := true } }; { s with upd := { s.upd with open_ := some (Zero.updTarget : UpdTarget) } }),
    by decide +kernel⟩,
  ⟨Zero.updTarget, (let s : State := Wit.run; let s : State := { s with sys := { s.sys with mode := .basecamp } }; let s : State := { s with uds := { s.uds with programming := true } }; let s : State := { s with uds := { s.uds with unlocked := true } }; { s with upd := { s.upd with open_ := some (Zero.updTarget : UpdTarget) } }),
    by decide +kernel⟩,
  ⟨(let s : State := Wit.run; let s : State := { s with sys := { s.sys with mode := .basecamp } }; let s : State := { s with uds := { s.uds with programming := true } }; let s : State := { s with uds := { s.uds with unlocked := true } }; { s with upd := { s.upd with verifying := none } }),
    by decide +kernel⟩,
  ⟨(let s : State := Wit.run; let s : State := { s with sys := { s.sys with mode := .basecamp } }; let s : State := { s with uds := { s.uds with programming := true } }; let s : State := { s with uds := { s.uds with unlocked := true } }; let s : State := { s with upd := { s.upd with open_ := none } }; let s : State := { s with upd := { s.upd with verifying := none } }; { s with upd := { s.upd with bankReady := some (false, Wit.bank 2) } }),
    by decide +kernel⟩,
  ⟨([]), (let s : State := Wit.run; let s : State := { s with sys := { s.sys with mode := .basecamp } }; let s : State := { s with uds := { s.uds with programming := true } }; { s with uds := { s.uds with unlocked := true } }),
    by decide +kernel⟩,
  ⟨0, (let s : State := Wit.run; let s : State := { s with sys := { s.sys with mode := .basecamp } }; let s : State := { s with uds := { s.uds with programming := true } }; { s with uds := { s.uds with unlocked := true } }),
    by decide +kernel⟩,
  ⟨0, none, (let s : State := Wit.run; let s : State := { s with sys := { s.sys with mode := .basecamp } }; { s with uds := { s.uds with unlocked := false } }),
    by decide +kernel⟩,
  ⟨({ Zero.canFrame with id := 0x1F000000, data := (1 : Byte) :: ([0x3E] : List Byte) }), 1, ([0x3E]), 0, Zero.canCounters, (let s : State := Wit.run; { s with sys := { s.sys with mode := .basecamp } }),
    by decide +kernel⟩,
  ⟨({ Zero.canFrame with id := 0x1F000000, data := 0x30 :: 0 :: ([] : List Byte) }), ([]), 0, Zero.canCounters, (let s : State := Wit.run; { s with sys := { s.sys with mode := .basecamp } }),
    by decide +kernel⟩,
  ⟨Zero.tpState, ([1]),
    by decide +kernel⟩⟩

theorem witness_RopeTeamActs :
  (∃ (s : State),
    s.twinOn = true ∧ s.sys.mode ≠ .basecamp ∧ s.twin.testing = false) ∧
  (∃ (s : State),
    s.basecamp = true ∧ s.mgrUp = true) ∧
  (∃ (s : State),
    s.basecamp = false ∧ s.twinOn = false) ∧
  (∃ (code : BelayCode) (s : State),
    s.sys.bivouac = .none) ∧
  (∃ (code : BelayCode) (s : State),
    s.cfg.image.twin.en = false ∧ s.rfx.enabled = false) ∧
  (∃ (s : State),
    s.cfg.image.twin.en = false ∧ s.rfx.enabled = false) ∧
  (∃ (s : State),
    s.cfg.image.twin.en = true ∧ s.mgrUp = true ∧ s.sys.mode = .run ∧ s.rfx.enabled = false ∧ s.twin.role = .standby ∧ s.twin.eligible = true ∧ s.twin.belayFault = false) ∧
  (∃ (s : State),
    s.cfg.image.twin.en = true ∧ s.mgrUp = true ∧ s.rfx.enabled = false ∧ s.twin.role = .holder ∧ s.cfg.image.twin.primary = false ∧ s.sys.bivouac = .none) ∧
  (∃ (s : State),
    s.twinOn = true ∧ s.sys.mode = .run ∧ s.cfg.image.twin.primary = false ∧ s.twin.role = .standby ∧ s.twin.partner = none ∧ s.twin.sawHolder = false) ∧
  (∃ (s : State),
    (s.twin.role ≠ .standby ∨ s.twin.sawHolder = true)) ∧
  (∃ (test : Fin 4) (entry : Fin 32) (s : State),
    s.twinOn = true ∧ s.twin.role = .standby ∧ (2 ≤ test.val ∨ entry.val < s.cfg.image.twin.list.length) ∧ s.twin.mirrorGood < 16) ∧
  (∃ (test : Fin 4) (entry : Fin 32) (s : State),
    s.twinOn = true ∧ s.twin.role = .standby ∧ test.val < 2 ∧ entry.val < s.cfg.image.twin.list.length) ∧
  (∃ (entry : Fin 32) (s : State),
    s.twinOn = true ∧ s.twin.role = .standby) ∧
  (∃ (test : Fin 4) (pass : Bool) (entry : Fin 32) (s : State),
    s.twin.role ≠ .standby) ∧
  (∃ (vin vbk12 : Int) (s : State),
    s.twinOn = true) ∧
  (∃ (vin vbk12 : Int) (s : State),
    s.twinOn = false) ∧
  (∃ (s : State) (r : Req) (p : Port),
    Requested s r p 0 ∧ s.sys.mode.isServing = true ∧ s.cfg.image.twin.en = true) ∧
  (∃ (s : State) (r : Req) (p : Port),
    Requested s r p 0 ∧ s.sys.mode.isServing = true ∧ s.cfg.image.twin.en = false) ∧
  (∃ (s : State) (r : Req) (p : Port) (h : Health),
    Requested s r p 4 ∧ s.sys.mode.isServing = true ∧ s.cfg.image.twin.en = true ∧ s.twin.ownHealth = some h) ∧
  (∃ (s : State) (r : Req) (p : Port) (h : Health),
    Requested s r p 4 ∧ s.sys.mode.isServing = true ∧ s.cfg.image.twin.en = true ∧ s.twin.partnerHealth = some h) ∧
  (∃ (s : State) (r : Req) (p : Port),
    Requested s r p 4 ∧ s.sys.mode.isServing = true ∧ s.cfg.image.twin.en = true ∧ s.twin.partnerHealth = none) ∧
  (∃ (s : State) (r : Req) (p : Port) (frames : U16),
    Requested s r p 4 ∧ p.sysPriv = true ∧ within 10 1000 frames.toNat = true ∧ s.sys.mode = .workshop ∧ s.cfg.image.twin.en = true ∧ s.twin.role ≠ .holder ∧ s.twin.testReq = none) ∧
  (∃ (s : State) (r : Req) (p : Port) (frames : U16),
    Requested s r p 4 ∧ p.sysPriv = true ∧ within 10 1000 frames.toNat = true ∧ s.sys.mode = .workshop ∧ s.cfg.image.twin.en = true ∧ s.twin.role = .holder) :=
  ⟨⟨(let s : State := Wit.run; { s with twin := { s.twin with testing := false } }),
    by decide +kernel⟩,
  ⟨(let s : State := Wit.run; { s with sys := { s.sys with mode := .basecamp } }),
    by decide +kernel⟩,
  ⟨(let s : State := Wit.run; { s with cfg := { s.cfg with image := { s.cfg.image with twin := { s.cfg.image.twin with en := false } } } }),
    by decide +kernel⟩,
  ⟨.holder, (let s : State := Wit.run; { s with sys := { s.sys with bivouac := .none } }),
    by decide +kernel⟩,
  ⟨.holder, (let s : State := Wit.run; let s : State := { s with cfg := { s.cfg with image := { s.cfg.image with twin := { s.cfg.image.twin with en := false } } } }; { s with rfx := { s.rfx with enabled := false } }),
    by decide +kernel⟩,
  ⟨(let s : State := Wit.run; let s : State := { s with cfg := { s.cfg with image := { s.cfg.image with twin := { s.cfg.image.twin with en := false } } } }; { s with rfx := { s.rfx with enabled := false } }),
    by decide +kernel⟩,
  ⟨(let s : State := Wit.run; let s : State := { s with cfg := { s.cfg with image := { s.cfg.image with twin := { s.cfg.image.twin with en := true } } } }; let s : State := { s with sys := { s.sys with mode := .run } }; let s : State := { s with rfx := { s.rfx with enabled := false } }; let s : State := { s with twin := { s.twin with role := .standby } }; let s : State := { s with twin := { s.twin with eligible := true } }; { s with twin := { s.twin with belayFault := false } }),
    by decide +kernel⟩,
  ⟨(let s : State := Wit.run; let s : State := { s with cfg := { s.cfg with image := { s.cfg.image with twin := { s.cfg.image.twin with en := true } } } }; let s : State := { s with rfx := { s.rfx with enabled := false } }; let s : State := { s with twin := { s.twin with role := .holder } }; let s : State := { s with cfg := { s.cfg with image := { s.cfg.image with twin := { s.cfg.image.twin with primary := false } } } }; { s with sys := { s.sys with bivouac := .none } }),
    by decide +kernel⟩,
  ⟨(let s : State := Wit.run; let s : State := { s with sys := { s.sys with mode := .run } }; let s : State := { s with cfg := { s.cfg with image := { s.cfg.image with twin := { s.cfg.image.twin with primary := false } } } }; let s : State := { s with twin := { s.twin with role := .standby } }; let s : State := { s with twin := { s.twin with partner := none } }; { s with twin := { s.twin with sawHolder := false } }),
    by decide +kernel⟩,
  ⟨(let s : State := Wit.run; { s with twin := { s.twin with role := .holder } }),
    by decide +kernel⟩,
  ⟨2, 0, (let s : State := Wit.run; { s with twin := { s.twin with role := .standby } }),
    by decide +kernel⟩,
  ⟨0, 0, (let s : State := Wit.run; let s : State := { s with twin := { s.twin with role := .standby } }; { s with cfg := { s.cfg with image := { s.cfg.image with twin := { s.cfg.image.twin with list := [(0, 3)] } } } }),
    by decide +kernel⟩,
  ⟨0, (let s : State := Wit.run; { s with twin := { s.twin with role := .standby } }),
    by decide +kernel⟩,
  ⟨0, false, 0, (let s : State := Wit.run; { s with twin := { s.twin with role := .holder } }),
    by decide +kernel⟩,
  ⟨0, 0, Wit.run,
    by decide +kernel⟩,
  ⟨0, 0, (let s : State := Wit.run; { s with cfg := { s.cfg with image := { s.cfg.image with twin := { s.cfg.image.twin with en := false } } } }),
    by decide +kernel⟩,
  ⟨(let s : State := Wit.run; { s with cfg := { s.cfg with image := { s.cfg.image with twin := { s.cfg.image.twin with en := true } } } }), ((Wit.req 0)), Wit.sys,
    ⟨by decide +kernel, rfl, by decide +kernel, rfl⟩, by decide +kernel⟩,
  ⟨(let s : State := Wit.run; { s with cfg := { s.cfg with image := { s.cfg.image with twin := { s.cfg.image.twin with en := false } } } }), ((Wit.req 0)), Wit.sys,
    ⟨by decide +kernel, rfl, by decide +kernel, rfl⟩, by decide +kernel⟩,
  ⟨(let s : State := Wit.run; let s : State := { s with cfg := { s.cfg with image := { s.cfg.image with twin := { s.cfg.image.twin with en := true } } } }; { s with twin := { s.twin with ownHealth := some (Zero.health : Health) } }), ((Wit.req 4)), Wit.sys, Zero.health,
    ⟨by decide +kernel, rfl, by decide +kernel, rfl⟩, by decide +kernel⟩,
  ⟨(let s : State := Wit.run; let s : State := { s with cfg := { s.cfg with image := { s.cfg.image with twin := { s.cfg.image.twin with en := true } } } }; { s with twin := { s.twin with partnerHealth := some (Zero.health : Health) } }), ((Wit.req 4)), Wit.sys, Zero.health,
    ⟨by decide +kernel, rfl, by decide +kernel, rfl⟩, by decide +kernel⟩,
  ⟨(let s : State := Wit.run; let s : State := { s with cfg := { s.cfg with image := { s.cfg.image with twin := { s.cfg.image.twin with en := true } } } }; { s with twin := { s.twin with partnerHealth := none } }), ((Wit.req 4)), Wit.sys,
    ⟨by decide +kernel, rfl, by decide +kernel, rfl⟩, by decide +kernel⟩,
  ⟨(let s : State := Wit.run; let s : State := { s with sys := { s.sys with mode := .workshop } }; let s : State := { s with cfg := { s.cfg with image := { s.cfg.image with twin := { s.cfg.image.twin with en := true } } } }; { s with twin := { s.twin with testReq := none } }), ((Wit.req 4)), Wit.sys, 1000,
    ⟨by decide +kernel, rfl, by decide +kernel, rfl⟩, by decide +kernel⟩,
  ⟨(let s : State := Wit.run; let s : State := { s with sys := { s.sys with mode := .workshop } }; let s : State := { s with cfg := { s.cfg with image := { s.cfg.image with twin := { s.cfg.image.twin with en := true } } } }; { s with twin := { s.twin with role := .holder } }), ((Wit.req 4)), Wit.sys, 1000,
    ⟨by decide +kernel, rfl, by decide +kernel, rfl⟩, by decide +kernel⟩⟩

theorem witness_SignalEventsAct :
  (∃ (pipe : Fin 4) (s : State),
    s.sig.queues.getD [] pipe.val = []) ∧
  (∃ (pipe : Fin 4) (ev : SigEvent) (l : List SigEvent) (p : PduDesc) (s : State),
    s.sig.queues.getD [] pipe.val = ev :: l ∧ s.sigOn = true ∧ s.sig.pdus.get? ev.pdu = some p ∧ p.kind ≠ 5) ∧
  (∃ (pipe : Fin 4) (ev : SigEvent) (l : List SigEvent) (p : PduDesc) (s : State),
    s.sig.queues.getD [] pipe.val = ev :: l ∧ s.sigOn = true ∧ s.sig.pdus.get? ev.pdu = some p ∧ p.kind = 5 ∧ sigEntries ev.data.length ev.data = []) ∧
  (∃ (p : Fin 65536) (d : PduDesc) (s : State),
    s.sig.pdus.get? p.val = some d ∧ d.tTo ≠ 0 ∧ stepped d.kind = true ∧ s.sigOn = true) ∧
  (∃ (p : Fin 65536) (d : PduDesc) (s : State),
    s.sig.pdus.get? p.val = some d ∧ d.tTo = 0) ∧
  (∃ (i : Fin 262144) (d : SigDesc) (v : SigVal) (s : State),
    s.sigOn = true ∧ s.sig.descs.get? i.val = some d ∧ d.policy = 1 ∧ d.kind = .signal ∧ (s.sigRun i.val).cur = some v ∧ (s.sigRun i.val).disabled = false) ∧
  (∃ (i : Fin 262144) (d : SigDesc) (v : SigVal) (s : State),
    s.sigOn = true ∧ s.sig.descs.get? i.val = some d ∧ d.kind = .signal ∧ (s.sigRun i.val).deferred = true ∧ (s.sigRun i.val).cur = some v ∧ (s.sigRun i.val).disabled = false) ∧
  (∃ (i : Fin 262144) (s : State),
    (s.sigRun i.val).deferred = false) ∧
  (∃ (p : Fin 65536) (d : PduDesc) (s : State),
    s.sig.pdus.get? p.val = some d ∧ d.kind = 8 ∧ d.trig = 1 ∧ s.sigOn = true ∧ (s.pduRun p.val).disabled = false) ∧
  (∃ (p : Fin 65536) (d : PduDesc) (s : State),
    s.sig.pdus.get? p.val = some d ∧ d.trig = 0) ∧
  (∃ (vid : BitVec 12) (payload : List Byte) (s : State),
    s.sigOn = false) ∧
  (∃ (vid : BitVec 12) (payload : List Byte) (s : State),
    s.sigOn = true ∧ (∀ x ∈ i3Records payload.length payload, x.2.1 ≠ 0)) ∧
  (∃ (vid : BitVec 12) (payload : List Byte) (id : U32) (data : List Byte) (p : PduDesc) (q : Nat) (s : State),
    s.sigOn = true ∧ i3Records payload.length payload = [(id, 0, data)] ∧ s.pdusWith (fun p => decide (p.kind = 7) && decide (p.word 12 = id) && decide (p.half 16 = vid.toNat)) = [q] ∧ s.sig.pdus.get? q = some p ∧ (s.pduRun q).disabled = false ∧ (s.sig.queues.getD [] (q % 4)).length < 4096) ∧
  (∃ (i : Fin 262144) (d : SigDesc) (s : State),
    s.sig.descs.get? i.val = some d) ∧
  (∃ (i : Fin 262144) (p : PduDesc) (s : State),
    s.sig.pdus.get? i.val = some p) ∧
  (∃ (v : Fin 256) (slot : Fin 1024) (value : U32) (s : State),
    s.slotPdus v.val slot.val 9 ≠ [] ∧ s.vzfActive v.val = true) ∧
  (∃ (v : Fin 256) (slot : Fin 1024) (value : U32) (s : State),
    s.slotPdus v.val slot.val 9 = []) ∧
  (∃ (v : Fin 256) (slot : Fin 1024) (q : Nat) (l : List Nat) (s : State),
    s.slotPdus v.val slot.val 10 = q :: l) ∧
  (∃ (k : Fin 384) (s : State),
    ((s.cfg.image.ring.slots.getD .none k.val).ftype ≠ 3 ∨ s.ring.joined = false)) ∧
  (∃ (k : Fin 384) (p : PduDesc) (s : State),
    (s.cfg.image.ring.slots.getD .none k.val).ftype = 3 ∧ s.ring.joined = true ∧ (s.cfg.image.ring.slots.getD .none k.val).owner = s.cfg.image.ring.station ∧ s.sig.pdus.get? (s.cfg.image.ring.slots.getD .none k.val).arg = some p ∧ p.kind = 6 ∧ s.sigOn = true) ∧
  (∃ (stream : Fin 64) (pos : Fin 16) (raw : List Int) (s : State),
    ((s.stream stream.val).started = false ∨ s.sigOn = false)) ∧
  (∃ (stream : Fin 64) (pos : Fin 16) (raw : List Int) (f : PrsConfig) (src : Nat) (s : State),
    (s.stream stream.val).config = some f ∧ f.sources[pos.val]? = some src ∧ (s.stream stream.val).started = true ∧ s.sigOn = true ∧ pos.val + 1 < f.sources.length ∧ (s.stream stream.val).dropping = false ∧ bufBytes (s.engineBuf (stream.val % 4)) + (prsBlock src f.e f.k (decimateAll src f.k 32 (s.presentSamples src raw))).length ≤ engineBytes) ∧
  (∃ (stream : Fin 64) (pos : Fin 16) (raw : List Int) (f : PrsConfig) (src : Nat) (s : State),
    engineBytes < bufBytes (s.engineBuf (stream.val % 4)) + (prsBlock src f.e f.k (decimateAll src f.k 32 (s.presentSamples src raw))).length ∧ (s.stream stream.val).config = some f ∧ f.sources[pos.val]? = some src ∧ (s.stream stream.val).started = true ∧ s.sigOn = true ∧ pos.val + 1 < f.sources.length ∧ (s.stream stream.val).dropping = false) ∧
  (∃ (stream : Fin 64) (pos : Fin 16) (raw : List Int) (f : PrsConfig) (src : Nat) (s : State),
    (s.stream stream.val).config = some f ∧ f.sources[pos.val]? = some src ∧ (s.stream stream.val).started = true ∧ s.sigOn = true ∧ pos.val + 1 = f.sources.length ∧ f.i3 = false) ∧
  (∃ (id : Fin 64) (c : Capture4k) (s : State),
    s.sig.captures.get? id.val = some c ∧ c.complete = false ∧ 4096 ≤ c.samples.length) ∧
  (∃ (id : Fin 64) (s : State),
    s.sig.captures.get? id.val = none) :=
  ⟨⟨0, Wit.run,
    by decide +kernel⟩,
  ⟨1, Zero.sigEvent, ([]), ({ Zero.pduDesc with kind := 1 }), (let s : State := Wit.run; { s with sig := { s.sig with queues := ⟨[((1 : Fin 4).val, (Zero.sigEvent : SigEvent) :: ([] : List SigEvent))]⟩, pdus := ⟨[((Zero.sigEvent : SigEvent).pdu, ({ Zero.pduDesc with kind := 1 } : PduDesc))]⟩ } }),
    by decide +kernel⟩,
  ⟨1, Zero.sigEvent, ([]), ({ Zero.pduDesc with kind := 5 }), (let s : State := Wit.run; { s with sig := { s.sig with queues := ⟨[((1 : Fin 4).val, (Zero.sigEvent : SigEvent) :: ([] : List SigEvent))]⟩, pdus := ⟨[((Zero.sigEvent : SigEvent).pdu, ({ Zero.pduDesc with kind := 5 } : PduDesc))]⟩ } }),
    by decide +kernel⟩,
  ⟨0, ({ Zero.pduDesc with kind := 1, tTo := 5 }), (let s : State := Wit.run; { s with sig := { s.sig with pdus := ⟨[((0 : Fin 65536).val, ({ Zero.pduDesc with kind := 1, tTo := 5 } : PduDesc))]⟩ } }),
    by decide +kernel⟩,
  ⟨0, ({ Zero.pduDesc with kind := 1 }), (let s : State := Wit.run; { s with sig := { s.sig with pdus := ⟨[((0 : Fin 65536).val, ({ Zero.pduDesc with kind := 1 } : PduDesc))]⟩ } }),
    by decide +kernel⟩,
  ⟨0, ({ Zero.sigDesc with kind := .signal, policy := 1 }), .notValid, (let s : State := Wit.run; { s with sig := { s.sig with descs := ⟨[((0 : Fin 262144).val, ({ Zero.sigDesc with kind := .signal, policy := 1 } : SigDesc))]⟩, runs := ⟨[((0 : Fin 262144).val, { SigRun.reset with cur := some (.notValid : SigVal), deferred := true })]⟩ } }),
    by decide +kernel⟩,
  ⟨0, ({ Zero.sigDesc with kind := .signal, policy := 1 }), .notValid, (let s : State := Wit.run; { s with sig := { s.sig with descs := ⟨[((0 : Fin 262144).val, ({ Zero.sigDesc with kind := .signal, policy := 1 } : SigDesc))]⟩, runs := ⟨[((0 : Fin 262144).val, { SigRun.reset with cur := some (.notValid : SigVal), deferred := true })]⟩ } }),
    by decide +kernel⟩,
  ⟨0, Wit.run,
    by decide +kernel⟩,
  ⟨0, ({ Zero.pduDesc with kind := 8, trig := 1 }), (let s : State := Wit.run; { s with sig := { s.sig with pdus := ⟨[((0 : Fin 65536).val, ({ Zero.pduDesc with kind := 8, trig := 1 } : PduDesc))]⟩ } }),
    by decide +kernel⟩,
  ⟨0, ({ Zero.pduDesc with kind := 8 }), (let s : State := Wit.run; { s with sig := { s.sig with pdus := ⟨[((0 : Fin 65536).val, ({ Zero.pduDesc with kind := 8 } : PduDesc))]⟩ } }),
    by decide +kernel⟩,
  ⟨0, ([]), (let s : State := Wit.run; { s with sys := { s.sys with domains := [] } }),
    by decide +kernel⟩,
  ⟨0, ([]), Wit.run,
    by decide +kernel⟩,
  ⟨3, ([5, 0, 0, 0, 1, 0, 0, 0, 9, 0, 0, 0]), 5, ([9]), ({ Zero.pduDesc with kind := 7, fields := [5, 0, 0, 0, 3, 0] }), 2, (let s : State := Wit.run; { s with sig := { s.sig with pdus := ⟨[((2 : Nat), ({ Zero.pduDesc with kind := 7, fields := [5, 0, 0, 0, 3, 0] } : PduDesc))]⟩ } }),
    by decide +kernel⟩,
  ⟨0, Zero.sigDesc, (let s : State := Wit.run; { s with sig := { s.sig with descs := ⟨[((0 : Fin 262144).val, (Zero.sigDesc : SigDesc))]⟩ } }),
    by decide +kernel⟩,
  ⟨0, Zero.pduDesc, (let s : State := Wit.run; { s with sig := { s.sig with pdus := ⟨[((0 : Fin 262144).val, (Zero.pduDesc : PduDesc))]⟩ } }),
    by decide +kernel⟩,
  ⟨1, 3, 0, (let s : State := Wit.run; { s with sig := { s.sig with pdus := ⟨[(7, { Zero.pduDesc with kind := 9, owner := 1, fields := [3, 0] })]⟩ } }),
    by decide +kernel⟩,
  ⟨1, 0, 0, Wit.run,
    by decide +kernel⟩,
  ⟨1, 3, 7, ([]), (let s : State := Wit.run; { s with sig := { s.sig with pdus := ⟨[(7, { Zero.pduDesc with kind := 10, owner := 1, fields := [3, 0] })]⟩ } }),
    by decide +kernel⟩,
  ⟨0, Wit.run,
    by decide +kernel⟩,
  ⟨5, ({ Zero.pduDesc with kind := 6 }), (let s : State := Wit.run; let s : State := { s with ring := { s.ring with joined := true } }; let s : State := { s with sig := { s.sig with pdus := ⟨[(2, ({ Zero.pduDesc with kind := 6 } : PduDesc))]⟩ } }; { s with cfg := { s.cfg with image := { s.cfg.image with ring := { s.cfg.image.ring with slots := ⟨[((5 : Fin 384).val, { SlotEntry.none with ftype := 3, owner := s.cfg.image.ring.station, arg := 2 })]⟩ } } } }),
    by decide +kernel⟩,
  ⟨0, 0, ([]), Wit.run,
    by decide +kernel⟩,
  ⟨0, 0, ([]), ({ Zero.prsConfig with sources := [0, 1] }), 0, (let s : State := Wit.run; let s : State := s.modStream (0 : Fin 64).val (fun y0 => { y0 with config := some ({ Zero.prsConfig with sources := [0, 1] } : PrsConfig) }); let s : State := s.modStream (0 : Fin 64).val (fun y0 => { y0 with started := true }); s.modStream (0 : Fin 64).val (fun y0 => { y0 with dropping := false })),
    by decide +kernel⟩,
  ⟨0, 0, ([]), ({ Zero.prsConfig with sources := [0, 1] }), 0, (let s : State := Wit.run; let s : State := s.modStream (0 : Fin 64).val (fun y0 => { y0 with config := some ({ Zero.prsConfig with sources := [0, 1] } : PrsConfig) }); let s : State := s.modStream (0 : Fin 64).val (fun y0 => { y0 with started := true }); let s : State := s.modStream (0 : Fin 64).val (fun y0 => { y0 with dropping := false }); { s with sig := { s.sig with buffers := ⟨[((0 : Fin 64).val % 4, [Wit.block 262145])]⟩ } }),
    Wit.heavy _ _ rfl, by decide +kernel⟩,
  ⟨0, 0, ([]), ({ Zero.prsConfig with sources := [0] }), 0, (let s : State := Wit.run; let s : State := s.modStream (0 : Fin 64).val (fun y0 => { y0 with config := some ({ Zero.prsConfig with sources := [0] } : PrsConfig) }); s.modStream (0 : Fin 64).val (fun y0 => { y0 with started := true })),
    by decide +kernel⟩,
  ⟨0, Wit.capture, (let s : State := Wit.run; { s with sig := { s.sig with captures := ⟨[((0 : Fin 64).val, (Wit.capture : Capture4k))]⟩ } }),
    rfl, rfl, Wit.capture_full⟩,
  ⟨0, Wit.run,
    by decide +kernel⟩⟩

theorem witness_SignalCommandsAct :
  (∃ (s : State) (r : Req) (p : Port) (first : U32) (n : U16) (b : List Byte) (ds : List (Nat × SigDesc)),
    Requested s r p (8 + 32 * n.toNat) ∧ b.length = 32 * n.toNat ∧ 1 ≤ n.toNat ∧ n.toNat ≤ 125 ∧ first.toNat + n.toNat ≤ 262144 ∧ s.step13 = true ∧ inRange p s.sigOwner first.toNat n.toNat = true ∧ ds = (zipIdxFrom first.toNat (pieces 32 n.toNat b)).map (fun x => (x.1, decodeSig x.2 ((s.sigOwner x.1).getD 255))) ∧ (∀ x ∈ pieces 32 n.toNat b, sigRecordOk x = true) ∧ (∀ d ∈ ds, d.2.check s.sig.pdus = none) ∧ tableCheck (ds.foldl (fun t x => t.set x.1 x.2) s.sig.descs) s.sig.pdus = none) ∧
  (∃ (s : State) (r : Req) (p : Port) (first : U32) (n : U16) (b : List Byte),
    Requested s r p (8 + 32 * n.toNat) ∧ b.length = 32 * n.toNat ∧ 1 ≤ n.toNat ∧ n.toNat ≤ 125 ∧ first.toNat + n.toNat ≤ 262144 ∧ s.step13 = true ∧ inRange p s.sigOwner first.toNat n.toNat = true ∧ (∃ x ∈ pieces 32 n.toNat b, sigRecordOk x = false)) ∧
  (∃ (s : State) (r : Req) (p : Port) (first : U32) (n : U16) (b : List Byte) (ps : List (Nat × PduDesc)),
    Requested s r p (8 + 32 * n.toNat) ∧ b.length = 32 * n.toNat ∧ 1 ≤ n.toNat ∧ n.toNat ≤ 125 ∧ first.toNat + n.toNat ≤ 65536 ∧ s.step13 = true ∧ inRange p s.pduOwner first.toNat n.toNat = true ∧ ps = (zipIdxFrom first.toNat (pieces 32 n.toNat b)).map (fun x => (x.1, decodePdu x.2)) ∧ (∀ x ∈ pieces 32 n.toNat b, pduRecordOk x = true) ∧ (∀ q ∈ ps, q.2.kind ≠ 0 ∧ s.pduCheck q.2 = none) ∧ (∀ c ∈ s.sig.descs.cells, c.2.kind = .chained ∨ c.2.check (ps.foldl (fun t x => t.set x.1 x.2) s.sig.pdus) = none) ∧ tableCheck s.sig.descs (ps.foldl (fun t x => t.set x.1 x.2) s.sig.pdus) = none) ∧
  (∃ (s : State) (r : Req) (p : Port) (first : U32) (n : U16) (b : List Byte),
    Requested s r p (8 + 4 * n.toNat) ∧ p.sysPriv = true ∧ b.length = 4 * n.toNat ∧ 1 ≤ n.toNat ∧ n.toNat ≤ 1006 ∧ first.toNat + n.toNat ≤ 65536 ∧ s.step13 = true) ∧
  (∃ (s : State) (r : Req) (p : Port) (first : U32) (n : U16),
    Requested s r p 8 ∧ 1 ≤ n.toNat ∧ n.toNat ≤ 251 ∧ first.toNat + n.toNat ≤ 262144 ∧ s.sys.mode.isRunLimpWork = true ∧ inRange p s.sigOwner first.toNat n.toNat = true) ∧
  (∃ (s : State) (r : Req) (p : Port) (first : U32) (n : U16),
    Requested s r p 8 ∧ 1 ≤ n.toNat ∧ n.toNat ≤ 251 ∧ first.toNat + n.toNat ≤ 262144 ∧ s.sys.mode.isRunLimpWork = true ∧ inRange p s.sigOwner first.toNat n.toNat = false) ∧
  (∃ (s : State) (r : Req) (p : Port) (n target : U16) (es : List SigWriteEntry) (e : SigWriteEntry) (v : Nat),
    Requested s r p (4 + 12 * n.toNat) ∧ es.length = n.toNat ∧ target.toNat % 32768 < 256 ∧ 1 ≤ n.toNat ∧ n.toNat ≤ 335 ∧ (∀ e ∈ es, e.slot.toNat < 1024) ∧ s.sys.mode.isRunLimpWork = true ∧ writeTarget p target = some v ∧ (p.vzf = some v ∨ p.sysPriv = true) ∧ (∀ e ∈ es, s.slotPdus v e.slot.toNat 9 ≠ []) ∧ s.vzfActive v = true ∧ es.getLast? = some e) ∧
  (∃ (s : State) (r : Req) (p : Port) (first : U32) (n : U16),
    Requested s r p 8 ∧ 1 ≤ n.toNat ∧ n.toNat ≤ 16000 ∧ first.toNat + n.toNat ≤ 262144 ∧ s.sys.mode.isRunLimpWork = true ∧ inRange p s.sigOwner first.toNat n.toNat = true) ∧
  (∃ (s : State) (r : Req) (p : Port) (f : PrsFields),
    Requested s r p (20 + 2 * f.n.toNat) ∧ f.sources.length = f.n.toNat ∧ prsFieldStat f = none ∧ s.step13 = true ∧ (s.stream f.stream.toNat).started = false ∧ prsStat s p f.stream.toNat (f.sources.map (·.toNat)) (decide (f.dest = 1)) = none) ∧
  (∃ (s : State) (r : Req) (p : Port) (f : PrsFields),
    Requested s r p (20 + 2 * f.n.toNat) ∧ f.sources.length = f.n.toNat ∧ prsFieldStat f = none ∧ s.step13 = true ∧ (s.stream f.stream.toNat).started = true) ∧
  (∃ (s : State) (r : Req) (p : Port) (n : Byte) (f : PrsConfig) (per : Nat),
    Requested s r p 4 ∧ n.toNat ≤ 63 ∧ s.sys.mode.isRunLimpWork = true ∧ (s.stream n.toNat).config = some f ∧ (s.stream n.toNat).started = false ∧ streamOwned s p n.toNat = true ∧ prsStat s p n.toNat f.sources f.i3 = none ∧ per = prsPeriod (f.sources.getD 0 0) * 2 ^ f.k) ∧
  (∃ (s : State) (r : Req) (p : Port) (n : Byte),
    Requested s r p 4 ∧ n.toNat ≤ 63 ∧ s.sys.mode.isRunLimpWork = true ∧ (s.stream n.toNat).started = true ∧ streamOwned s p n.toNat = true) ∧
  (∃ (s : State) (r : Req) (p : Port) (src id : U16) (part : Byte) (n k : Nat) (f : PrsConfig),
    Requested s r p 8 ∧ part.toNat ≤ 3 ∧ s.sys.mode.isRunLimpWork = true ∧ prsSource src.toNat = true ∧ s.prsOwned p src.toNat = true ∧ s.sig.streamOf src.toNat = some (n, f) ∧ f.capEn = true ∧ s.sig.capturing src.toNat = false ∧ s.sig.freeCapture (n % 4) = some k) ∧
  (∃ (s : State) (r : Req) (p : Port) (src id : U16) (part : Byte) (n : Nat) (f : PrsConfig),
    Requested s r p 8 ∧ part.toNat ≤ 3 ∧ s.sys.mode.isRunLimpWork = true ∧ prsSource src.toNat = true ∧ s.prsOwned p src.toNat = true ∧ s.sig.streamOf src.toNat = some (n, f) ∧ f.capEn = true ∧ s.sig.capturing src.toNat = false ∧ s.sig.freeCapture (n % 4) = none) ∧
  (∃ (s : State) (r : Req) (p : Port) (src id : U16) (part : Byte) (c : Capture4k),
    Requested s r p 8 ∧ part.toNat ≤ 3 ∧ s.sys.mode.isRunLimpWork = true ∧ s.sig.captures.get? id.toNat = some c ∧ s.prsOwned p c.source = true ∧ c.complete = true) ∧
  (∃ (s : State) (r : Req) (p : Port) (src id : U16) (part : Byte) (c : Capture4k),
    Requested s r p 8 ∧ part.toNat ≤ 3 ∧ s.sys.mode.isRunLimpWork = true ∧ s.sig.captures.get? id.toNat = some c ∧ s.prsOwned p c.source = true) :=
  ⟨⟨(let s : State := Wit.run; { s with sig := { s.sig with pdus := ⟨[(0, { Zero.pduDesc with kind := 8, owner := 255, length := 8 })]⟩ } }), ((Wit.req (8 + 32 * (1 : U16).toNat))), Wit.sys, 0, 1, (2 :: 8 :: zeros 30), (let s : State := (let s : State := Wit.run; { s with sig := { s.sig with pdus := ⟨[(0, { Zero.pduDesc with kind := 8, owner := 255, length := 8 })]⟩ } }); (zipIdxFrom (0 : U32).toNat (pieces 32 (1 : U16).toNat (2 :: 8 :: zeros 30 : List Byte))).map (fun x => (x.1, decodeSig x.2 ((s.sigOwner x.1).getD 255)))),
    ⟨by decide +kernel, rfl, by decide +kernel, rfl⟩, by decide +kernel⟩,
  ⟨Wit.run, ((Wit.req (8 + 32 * (1 : U16).toNat))), Wit.sys, 0, 1, (zeros 32),
    ⟨by decide +kernel, rfl, by decide +kernel, rfl⟩, by decide +kernel⟩,
  ⟨Wit.run, ((Wit.req (8 + 32 * (1 : U16).toNat))), Wit.sys, 0, 1, ([12, 255, 0, 0, 0, 0, 1, 0] ++ zeros 24), ((zipIdxFrom (0 : U32).toNat (pieces 32 (1 : U16).toNat ([12, 255, 0, 0, 0, 0, 1, 0] ++ zeros 24 : List Byte))).map (fun x => (x.1, decodePdu x.2))),
    ⟨by decide +kernel, rfl, by decide +kernel, rfl⟩, by decide +kernel⟩,
  ⟨Wit.run, ((Wit.req (8 + 4 * (1 : U16).toNat))), Wit.sys, 0, 1, (zeros 4),
    ⟨by decide +kernel, rfl, by decide +kernel, rfl⟩, by decide +kernel⟩,
  ⟨Wit.run, ((Wit.req 8)), Wit.sys, 0, 251,
    ⟨by decide +kernel, rfl, by decide +kernel, rfl⟩, by decide +kernel⟩,
  ⟨(let s : State := Wit.run; { s with mbx := { s.mbx with ports := ⟨[(1, ({ Wit.own with vzf := some 2 } : Port))]⟩ } }), ({ Wit.req 8 with port := 1 }), ({ Wit.own with vzf := some 2 }), 0, 1,
    ⟨by decide +kernel, rfl, by decide +kernel, rfl⟩, by decide +kernel⟩,
  ⟨(let s : State := Wit.run; { s with sig := { s.sig with pdus := ⟨[(7, { Zero.pduDesc with kind := 9, owner := 1, fields := [0, 0] })]⟩ } }), ((Wit.req (4 + 12 * (1 : U16).toNat))), Wit.sys, 1, 0x8001, ([(Zero.sigWriteEntry : SigWriteEntry)]), Zero.sigWriteEntry, 1,
    ⟨by decide +kernel, rfl, by decide +kernel, rfl⟩, by decide +kernel⟩,
  ⟨Wit.run, ((Wit.req 8)), Wit.sys, 0, 16000,
    ⟨by decide +kernel, rfl, by decide +kernel, rfl⟩, by decide +kernel⟩,
  ⟨Wit.run, ((Wit.req (20 + 2 * ({ stream := 0, n := 1, e := 0, k := 0, dest := 1, flags := 0, pre := 0, vid := 0, pcp := 0, mac := 0, sources := [0] } : PrsFields).n.toNat))), Wit.sys, ({ stream := 0, n := 1, e := 0, k := 0, dest := 1, flags := 0, pre := 0, vid := 0, pcp := 0, mac := 0, sources := [0] }),
    ⟨by decide +kernel, rfl, by decide +kernel, rfl⟩, by decide +kernel⟩,
  ⟨(let s : State := Wit.run; s.modStream ({ stream := 0, n := 1, e := 0, k := 0, dest := 1, flags := 0, pre := 0, vid := 0, pcp := 0, mac := 0, sources := [0] } : PrsFields).stream.toNat (fun y0 => { y0 with started := true })), ((Wit.req (20 + 2 * ({ stream := 0, n := 1, e := 0, k := 0, dest := 1, flags := 0, pre := 0, vid := 0, pcp := 0, mac := 0, sources := [0] } : PrsFields).n.toNat))), Wit.sys, ({ stream := 0, n := 1, e := 0, k := 0, dest := 1, flags := 0, pre := 0, vid := 0, pcp := 0, mac := 0, sources := [0] }),
    ⟨by decide +kernel, rfl, by decide +kernel, rfl⟩, by decide +kernel⟩,
  ⟨(let s : State := Wit.run; let s : State := s.modStream (63 : Byte).toNat (fun y0 => { y0 with config := some ({ Zero.prsConfig with sources := [0], i3 := true } : PrsConfig) }); s.modStream (63 : Byte).toNat (fun y0 => { y0 with started := false })), ((Wit.req 4)), Wit.sys, 63, ({ Zero.prsConfig with sources := [0], i3 := true }), (prsPeriod (({ Zero.prsConfig with sources := [0], i3 := true } : PrsConfig).sources.getD 0 0) * 2 ^ ({ Zero.prsConfig with sources := [0], i3 := true } : PrsConfig).k),
    ⟨by decide +kernel, rfl, by decide +kernel, rfl⟩, by decide +kernel⟩,
  ⟨(let s : State := Wit.run; s.modStream (63 : Byte).toNat (fun y0 => { y0 with started := true })), ((Wit.req 4)), Wit.sys, 63,
    ⟨by decide +kernel, rfl, by decide +kernel, rfl⟩, by decide +kernel⟩,
  ⟨(let s : State := Wit.run; { s with sig := { s.sig with streams := ⟨[((1 : Nat), { PrsStream.reset with started := true, config := some ({ Zero.prsConfig with sources := [0], capEn := true } : PrsConfig) })]⟩ } }), ((Wit.req 8)), Wit.sys, 0, 0, 3, 1, 16, ({ Zero.prsConfig with sources := [0], capEn := true }),
    ⟨by decide +kernel, rfl, by decide +kernel, rfl⟩, by decide +kernel⟩,
  ⟨(let s : State := Wit.run; let s : State := { s with sig := { s.sig with streams := ⟨[((1 : Nat), { PrsStream.reset with started := true, config := some ({ Zero.prsConfig with sources := [0], capEn := true } : PrsConfig) })]⟩ } }; { s with sig := { s.sig with captures := ⟨(List.range 16).map (fun x => (16 + x, { Zero.capture4k with complete := true }))⟩ } }), ((Wit.req 8)), Wit.sys, 0, 0, 3, 1, ({ Zero.prsConfig with sources := [0], capEn := true }),
    ⟨by decide +kernel, rfl, by decide +kernel, rfl⟩, by decide +kernel⟩,
  ⟨(let s : State := Wit.run; { s with sig := { s.sig with captures := ⟨[((0 : U16).toNat, ({ Zero.capture4k with complete := true } : Capture4k))]⟩ } }), ((Wit.req 8)), Wit.sys, 0, 0, 3, ({ Zero.capture4k with complete := true }),
    ⟨by decide +kernel, rfl, by decide +kernel, rfl⟩, by decide +kernel⟩,
  ⟨(let s : State := Wit.run; { s with sig := { s.sig with captures := ⟨[((0 : U16).toNat, (Zero.capture4k : Capture4k))]⟩ } }), ((Wit.req 8)), Wit.sys, 0, 0, 3, Zero.capture4k,
    ⟨by decide +kernel, rfl, by decide +kernel, rfl⟩, by decide +kernel⟩⟩

theorem witness_RingLinksAndCyclesAct :
  (∃ (port : Fin 2) (s : State),
    ((s.ring.port port.val).phy = true ∨ (s.ring.port port.val).link ≠ .down)) ∧
  (∃ (port : Fin 2) (s : State),
    (s.ring.port port.val).phy = false ∧ (s.ring.port port.val).link = .down) ∧
  (∃ (port : Fin 2) (s : State),
    s.ring.phase = .active) ∧
  (∃ (port : Fin 2) (s : State),
    s.ring.phase ≠ .active) ∧
  (∃ (port : Fin 2) (peers : List Byte) (s : State),
    (s.ring.port port.val).phy = true ∧ (s.ring.port port.val).link = .down) ∧
  (∃ (port : Fin 2) (peers : List Byte) (s : State),
    (s.ring.port port.val).phy = true) ∧
  (∃ (port : Fin 2) (s : State),
    (s.ring.port port.val).phy = true ∧ (s.ring.port port.val).sak = false) ∧
  (∃ (port : Fin 2) (s : State),
    (s.ring.port port.val).sak = true) ∧
  (∃ (h : RingHeader) (f : DelayMeas) (s : State),
    ringBad { hdr := h, payload := measBytes f } 1 = false ∧ s.ring.west.sak = true ∧ f.kind = 0 ∧ s.ring.sectionOk = true ∧ f.sched = s.ringSec.sched ∧ s.basecamp = false) ∧
  (∃ (h : RingHeader) (f : DelayMeas) (s : State),
    s.ring.west.sak = true ∧ ringBad { hdr := h, payload := measBytes f } 1 = true) ∧
  (∃ (l : LinkCheck) (h : RingHeader) (f : DelayMeas) (s : State),
    s.ring.west.sak = false) ∧
  (∃ (h : RingHeader) (f : DelayMeas) (rt : U64) (s : State),
    ringBad { hdr := h, payload := measBytes f } 1 = false ∧ s.ring.east.sak = true ∧ f.kind = 1 ∧ s.ring.sectionOk = true ∧ f.sched = s.ringSec.sched ∧ s.basecamp = false) ∧
  (∃ (h : RingHeader) (f : DelayMeas) (rt : U64) (s : State),
    ringBad { hdr := h, payload := measBytes f } 1 = false ∧ s.ring.east.sak = true ∧ f.kind = 1 ∧ s.basecamp = false ∧ f.sched ≠ s.ringSec.sched) ∧
  (∃ (l : LinkCheck) (h : RingHeader) (f : DelayMeas) (rt : U64) (s : State),
    s.ring.east.sak = false) ∧
  (∃ (port : Fin 2) (s : State),
    (s.ring.port port.val).link = .verify ∧ (s.ring.port port.val).closeAt ≠ 0 ∧ s.ring.sectionOk = true ∧ s.ring.mismatch = false) ∧
  (∃ (port : Fin 2) (s : State),
    (s.ring.port port.val).link ≠ .verify) ∧
  (∃ (port : Fin 2) (l : LinkCheck) (h : RingHeader) (f : SyncRef) (res : U32) (s : State),
    s.ring.phase ≠ .active) ∧
  (∃ (port : Fin 2) (l : LinkCheck) (h : RingHeader) (f : SyncRef) (res : U32) (s : State),
    s.ring.phase = .active ∧ l ≠ .ok ∧ (s.ring.port port.val).fails < 15) ∧
  (∃ (port : Fin 2) (l : LinkCheck) (h : RingHeader) (f : SyncRef) (res : U32) (s : State),
    s.ring.phase = .active ∧ l ≠ .ok ∧ 15 ≤ (s.ring.port port.val).fails ∧ (s.ring.port port.val).link ≠ .down) ∧
  (∃ (port : Fin 2) (h : RingHeader) (f : SyncRef) (res : U32) (s : State),
    s.ring.phase = .active ∧ ringBad { hdr := h, payload := syncBytes f } 0 = true) ∧
  (∃ (port : Fin 2) (h : RingHeader) (f : SyncRef) (res : U32) (s : State),
    ringBad { hdr := h, payload := syncBytes f } 0 = false ∧ s.canJoin = true ∧ (s.ring.port port.val).closed = true ∧ h.wordA = s.ringSec.sched ∧ s.ring.master = false ∧ ¬(s.ring.joined = true ∧ s.ring.refHere = true ∧ h.origin = s.ring.cycle)) ∧
  (∃ (port : Fin 2) (h : RingHeader) (f : SyncRef) (res : U32) (s : State),
    ringBad { hdr := h, payload := syncBytes f } 0 = false ∧ s.canJoin = true ∧ (s.ring.port port.val).closed = true ∧ h.wordA = s.ringSec.sched ∧ s.ring.master = true ∧ bits h.wordB 0 8 = s.station ∧ s.waveEnds port.val = true) ∧
  (∃ (port : Fin 2) (h : RingHeader) (f : SyncRef) (res : U32) (o : Nat) (turned : Bool) (s : State),
    ringBad { hdr := h, payload := syncBytes f } 0 = false ∧ s.canJoin = true ∧ (s.ring.port port.val).closed = true ∧ h.wordA = s.ringSec.sched ∧ s.ring.master = true ∧ bits h.wordB 0 8 = s.station ∧ s.waveEnds port.val = false ∧ s.ring.outPort port.val = some (o, turned)) ∧
  (∃ (port : Fin 2) (h : RingHeader) (f : SyncRef) (res : U32) (s : State),
    ringBad { hdr := h, payload := syncBytes f } 0 = false ∧ s.canJoin = true ∧ (s.ring.port port.val).closed = true ∧ h.wordA = s.ringSec.sched ∧ s.ring.master = true ∧ bits h.wordB 0 8 ≠ s.station ∧ bits h.wordB 8 2 < s.ring.rank) ∧
  (∃ (port : Fin 2) (h : RingHeader) (f : SyncRef) (res : U32) (s : State),
    ringBad { hdr := h, payload := syncBytes f } 0 = false ∧ s.ring.phase = .active ∧ (s.ring.port port.val).closed = true ∧ s.basecamp = false ∧ h.wordA ≠ s.ringSec.sched) ∧
  (∃ (port : Fin 2) (h : RingHeader) (f : SyncRef) (res : U32) (s : State),
    ringBad { hdr := h, payload := syncBytes f } 0 = false ∧ s.ring.phase = .active ∧ (s.ring.port port.val).closed = true ∧ s.basecamp = true) ∧
  (∃ (s : State),
    (s.canJoin = false ∨ s.ring.master = true)) ∧
  (∃ (s : State),
    s.canJoin = true ∧ s.ring.master = false ∧ (s.ownRank = none ∨ s.ownRank = some 0)) ∧
  (∃ (k : Nat) (s : State),
    s.canJoin = true ∧ s.ring.master = false ∧ s.ownRank = some k ∧ 1 ≤ k ∧ s.ring.missing + 1 = 2 * k ∧ (s.ring.east.closed = true ∨ s.ring.west.closed = true)) ∧
  (∃ (s : State),
    s.ring.handoverAt = 0) ∧
  (∃ (s : State),
    s.canJoin = true ∧ s.ring.joined = true ∧ s.ring.handoverAt ≠ 0 ∧ s.ring.master = true) ∧
  (∃ (k : Nat) (s : State),
    s.canJoin = true ∧ s.ring.joined = true ∧ s.ring.handoverAt ≠ 0 ∧ s.ring.master = false ∧ s.ownRank = some k ∧ k < s.ring.rank) ∧
  (∃ (s : State),
    s.ring.phase ≠ .active) ∧
  (∃ (s : State),
    s.ring.phase = .active ∧ s.ring.master = false ∧ s.formsRing = false) ∧
  (∃ (s : State),
    s.ring.phase = .active ∧ s.formsRing = true) ∧
  (∃ (s : State),
    s.ring.phase = .active ∧ s.ring.joined = true ∧ s.ring.master = true ∧ s.ring.yieldNext = true) :=
  ⟨⟨0, Wit.run,
    by decide +kernel⟩,
  ⟨0, (let s : State := Wit.run; let s : State := s.modLink (0 : Fin 2).val (fun y0 => { y0 with phy := false }); s.modLink (0 : Fin 2).val (fun y0 => { y0 with link := .down })),
    by decide +kernel⟩,
  ⟨0, (let s : State := Wit.run; { s with ring := { s.ring with phase := .active } }),
    by decide +kernel⟩,
  ⟨0, (let s : State := Wit.run; { s with ring := { s.ring with phase := .off } }),
    by decide +kernel⟩,
  ⟨0, ([]), (let s : State := Wit.run; let s : State := s.modLink (0 : Fin 2).val (fun y0 => { y0 with phy := true }); s.modLink (0 : Fin 2).val (fun y0 => { y0 with link := .down })),
    by decide +kernel⟩,
  ⟨0, ([]), (let s : State := Wit.run; s.modLink (0 : Fin 2).val (fun y0 => { y0 with phy := true })),
    by decide +kernel⟩,
  ⟨0, (let s : State := Wit.run; let s : State := s.modLink (0 : Fin 2).val (fun y0 => { y0 with phy := true }); s.modLink (0 : Fin 2).val (fun y0 => { y0 with sak := false })),
    by decide +kernel⟩,
  ⟨0, (let s : State := Wit.run; s.modLink (0 : Fin 2).val (fun y0 => { y0 with sak := true })),
    by decide +kernel⟩,
  ⟨((sealFrame { hdr := { Zero.ringHeader with version := 1, typ := 2 }, payload := measBytes (Zero.delayMeas : DelayMeas) }).hdr), Zero.delayMeas, (let s : State := Wit.run; let s : State := { s with ring := { s.ring with west := { s.ring.west with sak := true } } }; { s with ring := { s.ring with sectionOk := true } }),
    Wit.fit _ _ _ (by decide +kernel) (by decide +kernel), by decide +kernel⟩,
  ⟨Zero.ringHeader, Zero.delayMeas, (let s : State := Wit.run; { s with ring := { s.ring with west := { s.ring.west with sak := true } } }),
    by decide +kernel⟩,
  ⟨.ok, Zero.ringHeader, Zero.delayMeas, (let s : State := Wit.run; { s with ring := { s.ring with west := { s.ring.west with sak := false } } }),
    by decide +kernel⟩,
  ⟨((sealFrame { hdr := { Zero.ringHeader with version := 1, typ := 2 }, payload := measBytes ({ Zero.delayMeas with kind := 1 } : DelayMeas) }).hdr), ({ Zero.delayMeas with kind := 1 }), 0, (let s : State := Wit.run; let s : State := { s with ring := { s.ring with east := { s.ring.east with sak := true } } }; { s with ring := { s.ring with sectionOk := true } }),
    Wit.fit _ _ _ (by decide +kernel) (by decide +kernel), by decide +kernel⟩,
  ⟨((sealFrame { hdr := { Zero.ringHeader with version := 1, typ := 2 }, payload := measBytes ({ Zero.delayMeas with kind := 1, sched := 7 } : DelayMeas) }).hdr), ({ Zero.delayMeas with kind := 1, sched := 7 }), 0, (let s : State := Wit.run; { s with ring := { s.ring with east := { s.ring.east with sak := true } } }),
    Wit.fit _ _ _ (by decide +kernel) (by decide +kernel), by decide +kernel⟩,
  ⟨.ok, Zero.ringHeader, Zero.delayMeas, 0, (let s : State := Wit.run; { s with ring := { s.ring with east := { s.ring.east with sak := false } } }),
    by decide +kernel⟩,
  ⟨0, (let s : State := Wit.run; let s : State := s.modLink (0 : Fin 2).val (fun y0 => { y0 with link := .verify }); let s : State := { s with ring := { s.ring with sectionOk := true } }; let s : State := { s with ring := { s.ring with mismatch := false } }; s.modLink (0 : Fin 2).val (fun y0 => { y0 with closeAt := 9 })),
    by decide +kernel⟩,
  ⟨0, Wit.run,
    by decide +kernel⟩,
  ⟨0, .ok, Zero.ringHeader, Zero.syncRef, 0, (let s : State := Wit.run; { s with ring := { s.ring with phase := .off } }),
    by decide +kernel⟩,
  ⟨0, .fcsFail, Zero.ringHeader, Zero.syncRef, 0, (let s : State := Wit.run; { s with ring := { s.ring with phase := .active } }),
    by decide +kernel⟩,
  ⟨0, .fcsFail, Zero.ringHeader, Zero.syncRef, 0, (let s : State := Wit.run; let s : State := { s with ring := { s.ring with phase := .active } }; s.modLink (0 : Fin 2).val (fun y0 => { y0 with fails := 15 })),
    by decide +kernel⟩,
  ⟨0, Zero.ringHeader, Zero.syncRef, 0, (let s : State := Wit.run; { s with ring := { s.ring with phase := .active } }),
    by decide +kernel⟩,
  ⟨0, ((sealFrame { hdr := { Zero.ringHeader with version := 1, typ := 1 }, payload := syncBytes (Zero.syncRef : SyncRef) }).hdr), Zero.syncRef, 0, (let s : State := Wit.run; { s with ring := { s.ring with master := false } }),
    Wit.fit _ _ _ (by decide +kernel) (by decide +kernel), by decide +kernel⟩,
  ⟨1, (let s : State := (let s : State := Wit.run; { s with ring := { s.ring with master := true } }); (sealFrame { hdr := { Zero.ringHeader with version := 1, typ := 1, wordB := s.station }, payload := syncBytes (Zero.syncRef : SyncRef) }).hdr), Zero.syncRef, 0, (let s : State := Wit.run; { s with ring := { s.ring with master := true } }),
    Wit.fit _ _ _ (by decide +kernel) (by decide +kernel), by decide +kernel⟩,
  ⟨0, (let s : State := (let s : State := Wit.run; { s with ring := { s.ring with master := true } }); (sealFrame { hdr := { Zero.ringHeader with version := 1, typ := 1, wordB := s.station }, payload := syncBytes (Zero.syncRef : SyncRef) }).hdr), Zero.syncRef, 0, 1, false, (let s : State := Wit.run; { s with ring := { s.ring with master := true } }),
    Wit.fit _ _ _ (by decide +kernel) (by decide +kernel), by decide +kernel⟩,
  ⟨0, ((sealFrame { hdr := { Zero.ringHeader with version := 1, typ := 1, wordB := 5 }, payload := syncBytes (Zero.syncRef : SyncRef) }).hdr), Zero.syncRef, 0, (let s : State := Wit.run; let s : State := { s with ring := { s.ring with master := true } }; { s with ring := { s.ring with rank := 1 } }),
    Wit.fit _ _ _ (by decide +kernel) (by decide +kernel), by decide +kernel⟩,
  ⟨0, ((sealFrame { hdr := { Zero.ringHeader with version := 1, typ := 1, wordA := 7 }, payload := syncBytes (Zero.syncRef : SyncRef) }).hdr), Zero.syncRef, 0, (let s : State := Wit.run; { s with ring := { s.ring with phase := .active } }),
    Wit.fit _ _ _ (by decide +kernel) (by decide +kernel), by decide +kernel⟩,
  ⟨0, ((sealFrame { hdr := { Zero.ringHeader with version := 1, typ := 1 }, payload := syncBytes (Zero.syncRef : SyncRef) }).hdr), Zero.syncRef, 0, (let s : State := Wit.run; let s : State := { s with ring := { s.ring with phase := .active } }; { s with sys := { s.sys with mode := .basecamp } }),
    Wit.fit _ _ _ (by decide +kernel) (by decide +kernel), by decide +kernel⟩,
  ⟨(let s : State := Wit.run; { s with ring := { s.ring with master := true } }),
    by decide +kernel⟩,
  ⟨(let s : State := Wit.run; { s with ring := { s.ring with master := false } }),
    by decide +kernel⟩,
  ⟨1, (let s : State := Wit.run; let s : State := { s with ring := { s.ring with master := false } }; let s : State := { s with cfg := { s.cfg with image := { s.cfg.image with ring := { s.cfg.image.ring with masters := [9, s.cfg.image.ring.station] } } } }; { s with ring := { s.ring with missing := 1 } }),
    by decide +kernel⟩,
  ⟨(let s : State := Wit.run; { s with ring := { s.ring with handoverAt := 0 } }),
    by decide +kernel⟩,
  ⟨(let s : State := Wit.run; let s : State := { s with ring := { s.ring with joined := true } }; let s : State := { s with ring := { s.ring with master := true } }; { s with ring := { s.ring with handoverAt := 5 } }),
    by decide +kernel⟩,
  ⟨0, (let s : State := Wit.run; let s : State := { s with ring := { s.ring with joined := true } }; let s : State := { s with ring := { s.ring with master := false } }; let s : State := { s with cfg := { s.cfg with image := { s.cfg.image with ring := { s.cfg.image.ring with masters := [s.cfg.image.ring.station] } } } }; { s with ring := { s.ring with handoverAt := 5, rank := 1 } }),
    by decide +kernel⟩,
  ⟨(let s : State := Wit.run; { s with ring := { s.ring with phase := .off } }),
    by decide +kernel⟩,
  ⟨(let s : State := Wit.run; let s : State := { s with ring := { s.ring with phase := .active } }; { s with ring := { s.ring with master := false } }),
    by decide +kernel⟩,
  ⟨(let s : State := Wit.run; let s : State := { s with ring := { s.ring with phase := .active } }; let s : State := { s with cfg := { s.cfg with image := { s.cfg.image with ring := { s.cfg.image.ring with masters := [s.cfg.image.ring.station] } } } }; let s : State := { s with ring := { s.ring with joined := false } }; let s : State := s.modLink 0 (fun y0 => { y0 with nbrMaster := 255 }); s.modLink 1 (fun y0 => { y0 with nbrMaster := 255 })),
    by decide +kernel⟩,
  ⟨(let s : State := Wit.run; let s : State := { s with ring := { s.ring with phase := .active } }; let s : State := { s with ring := { s.ring with joined := true } }; let s : State := { s with ring := { s.ring with master := true } }; { s with ring := { s.ring with yieldNext := true } }),
    by decide +kernel⟩⟩

theorem witness_RingFramesAct :
  (∃ (port : Fin 2) (l : LinkCheck) (f : RingFrame) (s : State),
    s.ring.phase ≠ .active) ∧
  (∃ (port : Fin 2) (f : RingFrame) (s : State),
    s.ring.phase = .active ∧ ringBad f 2 = true) ∧
  (∃ (port : Fin 2) (f : RingFrame) (s : State),
    s.ring.phase = .active ∧ s.basecamp = false ∧ ringBad f 2 = false ∧ (s.ring.port port.val).closed = true ∧ s.ring.joined = true ∧ (s.ringSec.slots.getD .none f.hdr.slot.toNat).rx = true ∧ (s.ringSec.slots.getD .none f.hdr.slot.toNat).ftype = f.hdr.typ.val ∧ hdrFlag f.hdr 7 = false ∧ ((s.ring.slots.getD .reset f.hdr.slot.toNat).never = true ∨ later f.hdr.origin (s.ring.slots.getD .reset f.hdr.slot.toNat).origin = true)) ∧
  (∃ (port : Fin 2) (f : RingFrame) (o : Nat) (turned : Bool) (s : State),
    s.ring.phase = .active ∧ s.basecamp = false ∧ ringBad f 2 = false ∧ (s.ring.port port.val).closed = true ∧ (s.ringSec.slots.getD .none f.hdr.slot.toNat).rx = false ∧ s.waveEnds port.val = false ∧ (srcStation f ≠ s.station ∨ hdrFlag f.hdr 6 = false) ∧ s.ring.outPort port.val = some (o, turned)) ∧
  (∃ (port : Fin 2) (f : RingFrame) (s : State),
    s.ring.phase = .active ∧ s.basecamp = false ∧ ringBad f 2 = false ∧ (s.ring.port port.val).closed = true ∧ (s.ring.slots.getD .reset f.hdr.slot.toNat).never = false ∧ later f.hdr.origin (s.ring.slots.getD .reset f.hdr.slot.toNat).origin = false) ∧
  (∃ (port : Fin 2) (f : RingFrame) (o : Nat) (turned : Bool) (s : State),
    s.ring.phase = .active ∧ s.basecamp = true ∧ ringBad f 2 = false ∧ (s.ring.port port.val).closed = true ∧ s.ring.master = false ∧ srcStation f ≠ s.station ∧ s.ring.outPort port.val = some (o, turned)) ∧
  (∃ (port : Fin 2) (f : RingFrame) (s : State),
    s.ring.phase = .active ∧ s.basecamp = false ∧ ringBad f 2 = false ∧ (s.ring.port port.val).closed = true ∧ (s.ringSec.slots.getD .none f.hdr.slot.toNat).rx = false ∧ s.waveEnds port.val = true ∧ srcStation f ≠ s.station ∧ hdrFlag f.hdr 6 = false) ∧
  (∃ (port : Fin 2) (f : RingFrame) (o : Nat) (turned : Bool) (s : State),
    s.ring.phase = .active ∧ s.basecamp = false ∧ ringBad f 3 = false ∧ (s.ring.port port.val).closed = true ∧ f.hdr.typ.val = 9 ∧ s.waveEnds port.val = false ∧ srcStation f ≠ s.station ∧ s.ring.outPort port.val = some (o, turned)) ∧
  (∃ (port : Fin 2) (f : RingFrame) (s : State),
    s.ring.phase = .active ∧ s.basecamp = false ∧ ringBad f 3 = false ∧ (s.ring.port port.val).closed = true ∧ f.hdr.typ.val = 9 ∧ s.waveEnds port.val = true ∧ s.isDest f = false ∧ srcStation f ≠ s.station ∧ hdrFlag f.hdr 6 = false ∧ hdrFlag f.hdr 4 = false ∧ s.ring.relayBytes + frameSize f ≤ 65536) ∧
  (∃ (port : Fin 2) (l : LinkCheck) (f : RingFrame) (o : Nat) (turned : Bool) (s : State),
    s.canJoin = true ∧ s.ring.joined = true ∧ (s.ring.port port.val).closed = true ∧ s.ring.master = false ∧ s.ring.inPort = port.val ∧ s.vz.vzfs.cells = [] ∧ s.mbxWaiting = [] ∧ s.ring.dynOut = [(257, f)] ∧ minislots f ≤ s.credits ∧ s.ring.outPort s.ring.inPort = some (o, turned)) ∧
  (∃ (port : Fin 2) (l : LinkCheck) (s : State),
    s.ring.phase = .active ∧ ((s.ring.port port.val).closed = false ∨ s.ring.master = true ∨ s.ring.inPort ≠ port.val)) ∧
  (∃ (port : Fin 2) (l : LinkCheck) (f : RingFrame) (s : State),
    s.canJoin = true ∧ s.ring.joined = true ∧ (s.ring.port port.val).closed = true ∧ s.ring.master = false ∧ s.vz.vzfs.cells = [] ∧ s.mbxWaiting = [] ∧ s.ring.dynOut = [(257, f)] ∧ s.credits < minislots f) ∧
  (∃ (k : Fin 384) (s : State),
    s.ring.joined = false ∧ s.basecamp = false) ∧
  (∃ (k : Fin 384) (s : State),
    s.basecamp = true ∧ k.val ≠ 4) ∧
  (∃ (n o : Nat) (turned : Bool) (l : List (List Byte)) (s : State),
    s.basecamp = true ∧ s.ring.phase = .active ∧ s.ring.heard = true ∧ s.slotOwner 4 = s.station ∧ s.mbxWaiting.find? (fun n => decide (n = 0)) = some n ∧ l = mbxTake (((s.port? n).map (·.outq)).getD []) ∧ s.ring.outPort s.ring.inPort = some (o, turned)) ∧
  (∃ (k : Fin 384) (n o : Nat) (turned : Bool) (l : List (List Byte)) (s : State),
    s.ring.joined = true ∧ s.canJoin = true ∧ k.val < s.ringSec.nS ∧ (s.ringSec.slots.getD .none k.val).rx = false ∧ (s.ringSec.slots.getD .none k.val).ftype = 5 ∧ s.slotOwner k.val = s.station ∧ s.sys.proven = true ∧ s.mbxWaiting.find? (fun n => decide (k.val = 4) == decide (n = 0)) = some n ∧ l = mbxTake (((s.port? n).map (·.outq)).getD []) ∧ s.ring.outPort s.ring.inPort = some (o, turned)) ∧
  (∃ (k : Fin 384) (s : State),
    s.ring.joined = true ∧ s.canJoin = true ∧ k.val < s.ringSec.nS ∧ (s.ringSec.slots.getD .none k.val).rx = true) ∧
  (∃ (k : Fin 384) (o : Nat) (turned : Bool) (s : State),
    s.ring.joined = true ∧ s.canJoin = true ∧ k.val < s.ringSec.nS ∧ (s.ringSec.slots.getD .none k.val).rx = false ∧ (s.ringSec.slots.getD .none k.val).ftype = 3 ∧ s.slotOwner k.val = s.station ∧ s.sys.proven = true ∧ (s.ring.own.getD .reset k.val).notReady = false ∧ s.ring.outPort s.ring.inPort = some (o, turned)) ∧
  (∃ (k : Fin 384) (f : RingFrame) (o : Nat) (turned : Bool) (s : State),
    s.ring.joined = true ∧ s.canJoin = true ∧ k.val < s.ringSec.nS ∧ (s.ringSec.slots.getD .none k.val).rx = false ∧ s.slotOwner k.val ≠ s.station ∧ s.ring.master = true ∧ s.ring.slotBuf.get? k.val = some f ∧ s.ring.outPort s.ring.inPort = some (o, turned)) ∧
  (∃ (s : State),
    (∀ x ∈ s.ring.relayQ, x.waited < 4)) ∧
  (∃ (s : State),
    (∃ x ∈ s.ring.relayQ, 4 ≤ x.waited)) ∧
  (∃ (port : Fin 2) (l : LinkCheck) (f : RingFrame) (busy : Bool) (s : State),
    (s.ring.phase ≠ .active ∨ (s.ring.port port.val).closed = false)) ∧
  (∃ (port : Fin 2) (f : RingFrame) (s : State),
    s.ring.phase = .active ∧ (s.ring.port port.val).closed = true ∧ ringBad f 4 = false ∧ ¬(f.hdr.dst.extractLsb' 14 2 = 0 ∧ (f.hdr.dst.extractLsb' 9 5).toNat = s.station) ∧ srcStation f ≠ s.station ∧ framesSize s.ring.secBuf + frameSize f ≤ 2048) ∧
  (∃ (port : Fin 2) (f : RingFrame) (s : State),
    s.ring.phase = .active ∧ (s.ring.port port.val).closed = true ∧ ringBad f 4 = false ∧ ¬(f.hdr.dst.extractLsb' 14 2 = 0 ∧ (f.hdr.dst.extractLsb' 9 5).toNat = s.station) ∧ srcStation f ≠ s.station ∧ 2048 < framesSize s.ring.secBuf + frameSize f) ∧
  (∃ (port : Fin 2) (f : RingFrame) (o : Nat) (turned : Bool) (s : State),
    s.ring.phase = .active ∧ (s.ring.port port.val).closed = true ∧ ringBad f 4 = false ∧ ¬(f.hdr.dst.extractLsb' 14 2 = 0 ∧ (f.hdr.dst.extractLsb' 9 5).toNat = s.station) ∧ srcStation f ≠ s.station ∧ s.ring.secBuf = [] ∧ s.ring.secOut = [] ∧ s.ring.outPort port.val = some (o, turned)) :=
  ⟨⟨0, .ok, Zero.ringFrame, (let s : State := Wit.run; { s with ring := { s.ring with phase := .off } }),
    by decide +kernel⟩,
  ⟨0, Zero.ringFrame, (let s : State := Wit.run; { s with ring := { s.ring with phase := .active } }),
    by decide +kernel⟩,
  ⟨0, (sealFrame { Zero.ringFrame with hdr := { Zero.ringHeader with version := 1, typ := 3 } }), (let s : State := Wit.run; let s : State := { s with ring := { s.ring with phase := .active } }; let s : State := { s with ring := { s.ring with joined := true } }; { s with cfg := { s.cfg with image := { s.cfg.image with ring := { s.cfg.image.ring with slots := ⟨[((sealFrame { Zero.ringFrame with hdr := { Zero.ringHeader with version := 1, typ := 3 } } : RingFrame).hdr.slot.toNat, { SlotEntry.none with rx := true, ftype := (sealFrame { Zero.ringFrame with hdr := { Zero.ringHeader with version := 1, typ := 3 } } : RingFrame).hdr.typ.val })]⟩ } } } }),
    by decide +kernel⟩,
  ⟨0, (sealFrame { Zero.ringFrame with hdr := { Zero.ringHeader with version := 1, typ := 3, src := 0xA00 } }), 1, false, (let s : State := Wit.run; { s with ring := { s.ring with phase := .active } }),
    by decide +kernel⟩,
  ⟨0, (sealFrame { Zero.ringFrame with hdr := { Zero.ringHeader with version := 1, typ := 3 } }), (let s : State := Wit.run; let s : State := { s with ring := { s.ring with phase := .active } }; { s with ring := { s.ring with slots := ⟨[((sealFrame { Zero.ringFrame with hdr := { Zero.ringHeader with version := 1, typ := 3 } } : RingFrame).hdr.slot.toNat, { SlotRx.reset with never := false })]⟩ } }),
    by decide +kernel⟩,
  ⟨0, (sealFrame { Zero.ringFrame with hdr := { Zero.ringHeader with version := 1, typ := 3, src := 0xA00 } }), 1, false, (let s : State := Wit.run; let s : State := { s with ring := { s.ring with phase := .active } }; let s : State := { s with sys := { s.sys with mode := .basecamp } }; { s with ring := { s.ring with master := false } }),
    by decide +kernel⟩,
  ⟨1, (sealFrame { Zero.ringFrame with hdr := { Zero.ringHeader with version := 1, typ := 3, src := 0xA00 } }), (let s : State := Wit.run; let s : State := { s with ring := { s.ring with phase := .active } }; { s with ring := { s.ring with master := true } }),
    by decide +kernel⟩,
  ⟨0, (sealFrame { Zero.ringFrame with hdr := { Zero.ringHeader with version := 1, typ := 9, src := 0xA00 } }), 1, false, (let s : State := Wit.run; { s with ring := { s.ring with phase := .active } }),
    by decide +kernel⟩,
  ⟨1, (sealFrame { Zero.ringFrame with hdr := { Zero.ringHeader with version := 1, typ := 9, src := 0xA00, dst := 0xC00 } }), (let s : State := Wit.run; let s : State := { s with ring := { s.ring with phase := .active } }; { s with ring := { s.ring with master := true } }),
    by decide +kernel⟩,
  ⟨0, .ok, Zero.ringFrame, 1, false, (let s : State := Wit.run; let s : State := { s with ring := { s.ring with joined := true } }; let s : State := { s with ring := { s.ring with master := false } }; let s : State := { s with ring := { s.ring with inPort := (0 : Fin 2).val } }; let s : State := { s with ring := { s.ring with dynOut := [(257, (Zero.ringFrame : RingFrame))] } }; let s : State := { s with vz := { s.vz with vzfs := ⟨[]⟩ } }; let s : State := { s with cfg := { s.cfg with image := { s.cfg.image with ring := { s.cfg.image.ring with credits := List.replicate 32 1000 } } } }; { s with ring := { s.ring with inPort := 0 } }),
    by decide +kernel⟩,
  ⟨0, .ok, (let s : State := Wit.run; { s with ring := { s.ring with phase := .active } }),
    by decide +kernel⟩,
  ⟨0, .ok, Zero.ringFrame, (let s : State := Wit.run; let s : State := { s with ring := { s.ring with joined := true } }; let s : State := { s with ring := { s.ring with master := false } }; let s : State := { s with ring := { s.ring with dynOut := [(257, (Zero.ringFrame : RingFrame))] } }; { s with vz := { s.vz with vzfs := ⟨[]⟩ } }),
    by decide +kernel⟩,
  ⟨0, (let s : State := Wit.run; { s with ring := { s.ring with joined := false } }),
    by decide +kernel⟩,
  ⟨0, (let s : State := Wit.run; { s with sys := { s.sys with mode := .basecamp } }),
    by decide +kernel⟩,
  ⟨0, 0, false, (let s : State := (let s : State := Wit.run; let s : State := { s with sys := { s.sys with mode := .basecamp } }; let s : State := { s with ring := { s.ring with phase := .active } }; let s : State := { s with ring := { s.ring with heard := true } }; let s : State := { s with mbx := { s.mbx with ports := ⟨[(0, { Wit.sys with outq := [[1]] })]⟩ } }; { s with ring := { s.ring with inPort := 1 } }); mbxTake (((s.port? (0 : Nat)).map (·.outq)).getD [])), (let s : State := Wit.run; let s : State := { s with sys := { s.sys with mode := .basecamp } }; let s : State := { s with ring := { s.ring with phase := .active } }; let s : State := { s with ring := { s.ring with heard := true } }; let s : State := { s with mbx := { s.mbx with ports := ⟨[(0, { Wit.sys with outq := [[1]] })]⟩ } }; { s with ring := { s.ring with inPort := 1 } }),
    by decide +kernel⟩,
  ⟨5, 2, 0, false, (let s : State := (let s : State := Wit.run; let s : State := { s with ring := { s.ring with joined := true } }; let s : State := { s with sys := { s.sys with proven := true } }; let s : State := { s with cfg := { s.cfg with image := { s.cfg.image with ring := { s.cfg.image.ring with slots := ⟨[((5 : Fin 384).val, { SlotEntry.none with ftype := 5 })]⟩ } } } }; let s : State := { s with mbx := { s.mbx with ports := ⟨[(2, { Wit.sys with outq := [[1]] })]⟩ } }; { s with ring := { s.ring with inPort := 1 } }); mbxTake (((s.port? (2 : Nat)).map (·.outq)).getD [])), (let s : State := Wit.run; let s : State := { s with ring := { s.ring with joined := true } }; let s : State := { s with sys := { s.sys with proven := true } }; let s : State := { s with cfg := { s.cfg with image := { s.cfg.image with ring := { s.cfg.image.ring with slots := ⟨[((5 : Fin 384).val, { SlotEntry.none with ftype := 5 })]⟩ } } } }; let s : State := { s with mbx := { s.mbx with ports := ⟨[(2, { Wit.sys with outq := [[1]] })]⟩ } }; { s with ring := { s.ring with inPort := 1 } }),
    by decide +kernel⟩,
  ⟨5, (let s : State := Wit.run; let s : State := { s with ring := { s.ring with joined := true } }; { s with cfg := { s.cfg with image := { s.cfg.image with ring := { s.cfg.image.ring with slots := ⟨[((5 : Fin 384).val, { SlotEntry.none with rx := true })]⟩ } } } }),
    by decide +kernel⟩,
  ⟨5, 0, false, (let s : State := Wit.run; let s : State := { s with ring := { s.ring with joined := true } }; let s : State := { s with sys := { s.sys with proven := true } }; let s : State := { s with cfg := { s.cfg with image := { s.cfg.image with ring := { s.cfg.image.ring with slots := ⟨[((5 : Fin 384).val, { SlotEntry.none with ftype := 3 })]⟩ } } } }; { s with ring := { s.ring with own := ⟨[((5 : Fin 384).val, { OwnSlot.reset with notReady := false })]⟩ } }),
    by decide +kernel⟩,
  ⟨5, Zero.ringFrame, 0, false, (let s : State := Wit.run; let s : State := { s with ring := { s.ring with joined := true } }; let s : State := { s with ring := { s.ring with master := true } }; let s : State := { s with cfg := { s.cfg with image := { s.cfg.image with ring := { s.cfg.image.ring with slots := ⟨[((5 : Fin 384).val, { SlotEntry.none with owner := 9 })]⟩ } } } }; { s with ring := { s.ring with slotBuf := ⟨[((5 : Fin 384).val, (Zero.ringFrame : RingFrame))]⟩ } }),
    by decide +kernel⟩,
  ⟨Wit.run,
    by decide +kernel⟩,
  ⟨(let s : State := Wit.run; { s with ring := { s.ring with relayQ := [{ frame := Zero.ringFrame, waited := 4 }] } }),
    by decide +kernel⟩,
  ⟨0, .ok, Zero.ringFrame, false, (let s : State := Wit.run; { s with ring := { s.ring with phase := .off } }),
    by decide +kernel⟩,
  ⟨0, (sealFrame { Zero.ringFrame with hdr := { Zero.ringHeader with version := 1, typ := 9, src := 0xA00, dst := 0xC00 } }), (let s : State := Wit.run; { s with ring := { s.ring with phase := .active } }),
    by decide +kernel⟩,
  ⟨0, (sealFrame { Zero.ringFrame with hdr := { Zero.ringHeader with version := 1, typ := 9, src := 0xA00, dst := 0xC00 } }), (let s : State := Wit.run; let s : State := { s with ring := { s.ring with phase := .active } }; { s with ring := { s.ring with secBuf := [{ Zero.ringFrame with payload := zeros 2000 }] } }),
    by decide +kernel⟩,
  ⟨0, (sealFrame { Zero.ringFrame with hdr := { Zero.ringHeader with version := 1, typ := 9, src := 0xA00, dst := 0xC00 } }), 1, false, (let s : State := Wit.run; let s : State := { s with ring := { s.ring with phase := .active } }; let s : State := { s with ring := { s.ring with secBuf := [] } }; { s with ring := { s.ring with secOut := [] } }),
    by decide +kernel⟩⟩

theorem witness_RingCommandsAct :
  (∃ (s : State) (r : Req) (p : Port),
    Requested s r p 0 ∧ s.sys.mode.isServing = true) ∧
  (∃ (s : State) (r : Req) (p : Port),
    Requested s r p 0 ∧ s.sys.mode.isServing = true ∧ s.ring.joined = true) ∧
  (∃ (s : State) (r : Req) (p : Port),
    Requested s r p 0 ∧ s.sys.mode.isServing = true ∧ s.ring.joined = false) ∧
  (∃ (s : State) (r : Req) (p : Port) (first n : U16),
    Requested s r p 4 ∧ s.sys.mode.isServing = true ∧ s.ring.joined = true ∧ 1 ≤ n.toNat ∧ first.toNat + n.toNat ≤ 384) ∧
  (∃ (s : State) (r : Req) (p : Port) (first n : U16),
    Requested s r p 4 ∧ 384 < first.toNat + n.toNat) ∧
  (∃ (s : State) (r : Req) (p : Port),
    Requested s r p 0 ∧ s.sys.mode.isServing = true ∧ s.ring.joined = true) ∧
  (∃ (s : State) (r : Req) (p : Port),
    Requested s r p 4 ∧ p.sysPriv = true ∧ s.sys.mode = .run ∧ s.sleepAllowed = true) ∧
  (∃ (s : State) (r : Req) (p : Port),
    Requested s r p 4 ∧ p.sysPriv = true ∧ s.sys.mode = .run ∧ s.sleepAllowed = false) ∧
  (∃ (s : State) (r : Req) (p : Port),
    Requested s r p 4 ∧ p.sysPriv = true ∧ s.sys.mode = .run ∧ s.ring.sleepAt ≠ 0 ∧ (s.ring.sleepAt - s.ring.cycle).toNat ≤ 2) ∧
  (∃ (s : State) (r : Req) (p : Port),
    Requested s r p 4 ∧ p.sysPriv = true ∧ s.sys.mode = .run ∧ s.ring.sleepAt = 0) ∧
  (∃ (s : State) (r : Req) (p : Port) (clear : Byte),
    Requested s r p 4 ∧ s.sys.mode.isServing = true ∧ clear.toNat ≤ 1) :=
  ⟨⟨Wit.run, ((Wit.req 0)), Wit.sys,
    ⟨by decide +kernel, rfl, by decide +kernel, rfl⟩, by decide +kernel⟩,
  ⟨(let s : State := Wit.run; { s with ring := { s.ring with joined := true } }), ((Wit.req 0)), Wit.sys,
    ⟨by decide +kernel, rfl, by decide +kernel, rfl⟩, by decide +kernel⟩,
  ⟨(let s : State := Wit.run; { s with ring := { s.ring with joined := false } }), ((Wit.req 0)), Wit.sys,
    ⟨by decide +kernel, rfl, by decide +kernel, rfl⟩, by decide +kernel⟩,
  ⟨(let s : State := Wit.run; { s with ring := { s.ring with joined := true } }), ((Wit.req 4)), Wit.sys, 0, 1,
    ⟨by decide +kernel, rfl, by decide +kernel, rfl⟩, by decide +kernel⟩,
  ⟨Wit.run, ((Wit.req 4)), Wit.sys, 384, 1,
    ⟨by decide +kernel, rfl, by decide +kernel, rfl⟩, by decide +kernel⟩,
  ⟨(let s : State := Wit.run; { s with ring := { s.ring with joined := true } }), ((Wit.req 0)), Wit.sys,
    ⟨by decide +kernel, rfl, by decide +kernel, rfl⟩, by decide +kernel⟩,
  ⟨(let s : State := Wit.run; { s with sys := { s.sys with mode := .run } }), ((Wit.req 4)), Wit.sys,
    ⟨by decide +kernel, rfl, by decide +kernel, rfl⟩, by decide +kernel⟩,
  ⟨(let s : State := Wit.run; let s : State := { s with sys := { s.sys with mode := .run } }; { s with brg := { s.brg with phase := .boost } }), ((Wit.req 4)), Wit.sys,
    ⟨by decide +kernel, rfl, by decide +kernel, rfl⟩, by decide +kernel⟩,
  ⟨(let s : State := Wit.run; { s with sys := { s.sys with mode := .run } }), ((Wit.req 4)), Wit.sys,
    ⟨by decide +kernel, rfl, by decide +kernel, rfl⟩, by decide +kernel⟩,
  ⟨(let s : State := Wit.run; let s : State := { s with sys := { s.sys with mode := .run } }; { s with ring := { s.ring with sleepAt := 0 } }), ((Wit.req 4)), Wit.sys,
    ⟨by decide +kernel, rfl, by decide +kernel, rfl⟩, by decide +kernel⟩,
  ⟨Wit.run, ((Wit.req 4)), Wit.sys, 1,
    ⟨by decide +kernel, rfl, by decide +kernel, rfl⟩, by decide +kernel⟩⟩

theorem witness_SwitchEventsAct :
  (∃ (p : Fin 21) (ck : PortCheck) (f : EthFrame) (st : Fin 32) (rv : List Rival) (s : State),
    (s.eswOn = false ∨ (s.swp p.val).rec_.en = false ∨ p.val = portI0 ∨ p.val = portI1)) ∧
  (∃ (p : Fin 21) (f : EthFrame) (st : Fin 32) (rv : List Rival) (s : State),
    s.eswOn = true ∧ (s.swp p.val).rec_.en = true ∧ p.val ≤ 16 ∧ (s.swp p.val).holds f = false ∧ (s.swp p.val).rec_.macsec = false ∧ 2000 < ethLen f) ∧
  (∃ (p : Fin 21) (f : EthFrame) (st : Fin 32) (rv : List Rival) (s : State),
    s.eswOn = true ∧ (s.swp p.val).rec_.en = true ∧ isP p.val = true ∧ (s.swp p.val).holds f = false ∧ (s.swp p.val).rec_.macsec = true) ∧
  (∃ (p : Fin 21) (f : EthFrame) (st : Fin 32) (l : List EgressCopy) (fl : Bool) (k n : Nat) (s : State),
    s.eswOn = true ∧ (s.swp p.val).rec_.en = true ∧ p.val ≤ 16 ∧ (s.swp p.val).holds f = false ∧ (s.swp p.val).rec_.macsec = false ∧ (s.swp p.val).rec_.learn = false ∧ (s.swp p.val).rec_.inFilter = false ∧ ethLen f ≤ 2000 ∧ s.esw.filters.cells = [] ∧ 1 ≤ frameVid (s.swp p.val).rec_ f ∧ frameVid (s.swp p.val).rec_ f ≤ 4094 ∧ s.route p.val (frameVid (s.swp p.val).rec_ f) f.dst = (l, fl) ∧ l ≠ [] ∧ (∀ c ∈ l, s.copyLive c = true) ∧ k = (s.swp p.val).rec_.potMap.getD (frameClass (s.swp p.val).rec_ f) 0 % 64 ∧ n = (ethLen f + 63) / 64 ∧ (s.pot k).used + n ≤ (s.pot k).rec_.max ∧ (s.pot k).desc + l.length ≤ (s.pot k).rec_.maxDesc ∧ l.length ≤ s.esw.descFree ∧ n ≤ s.esw.free ∧ n - (s.pot k).fromReserve n ≤ s.esw.sharedFree) ∧
  (∃ (p : Fin 21) (f : EthFrame) (st : Fin 32) (l : List EgressCopy) (fl : Bool) (k : Nat) (s : State),
    s.eswOn = true ∧ (s.swp p.val).rec_.en = true ∧ p.val ≤ 16 ∧ (s.swp p.val).holds f = false ∧ (s.swp p.val).rec_.macsec = false ∧ (s.swp p.val).rec_.learn = false ∧ (s.swp p.val).rec_.inFilter = false ∧ ethLen f ≤ 2000 ∧ s.esw.filters.cells = [] ∧ 1 ≤ frameVid (s.swp p.val).rec_ f ∧ frameVid (s.swp p.val).rec_ f ≤ 4094 ∧ s.route p.val (frameVid (s.swp p.val).rec_ f) f.dst = (l, fl) ∧ l ≠ [] ∧ (∀ c ∈ l, s.copyLive c = true) ∧ k = (s.swp p.val).rec_.potMap.getD (frameClass (s.swp p.val).rec_ f) 0 % 64 ∧ (s.pot k).rec_.max < (s.pot k).used + (ethLen f + 63) / 64) ∧
  (∃ (p : Fin 21) (c : Fin 8) (x : Stored) (s : State),
    s.esw.waiting.find? (fun x => decide (x.ingress = p.val) && decide (x.cls = c.val)) = some x) ∧
  (∃ (p : Fin 21) (c : Fin 8) (s : State),
    s.esw.waiting.find? (fun x => decide (x.ingress = p.val) && decide (x.cls = c.val)) = none) ∧
  (∃ (p : Fin 21) (s : State),
    (s.eswOn = false ∨ (p.val ≠ portI0 ∧ p.val ≠ portI1 ∧ s.esw.cellsLeft = 0 ∧ chooseClass p.val s 8 = none))) ∧
  (∃ (p : Fin 21) (s : State),
    s.eswOn = true ∧ p.val ≠ portI0 ∧ p.val ≠ portI1 ∧ chooseClass p.val (crossbar s) 8 = none) ∧
  (∃ (s : State) (e : EswState),
    e = (crossbar s).esw) ∧
  (∃ (x : Stored) (c : EgressCopy) (s : State),
    s.esw.stored = [x] ∧ x.copies = [c] ∧ x.plane < 2 ∧ c.left ≠ 0) ∧
  (∃ (port : Xfer → Nat) (ptr : Nat) (l : List Xfer) (r : Xfer),
    roundRobin port ptr l = some r) ∧
  (∃ (e : EswState) (plane : Nat),
    e.requests plane = []) ∧
  (∃ (p : Fin 21) (k : Nat) (x : Stored) (c : EgressCopy) (d : Drr) (s u : State),
    u = crossbar s ∧ s.eswOn = true ∧ 1 ≤ p.val ∧ p.val ≤ 16 ∧ chooseClass p.val u 8 = some (k, (x, c), d) ∧ x.copies = [c] ∧ x.tx = none ∧ (s.swp p.val).rec_.macsec = false) ∧
  (∃ (k : Nat) (x : Stored) (c : EgressCopy) (d : Drr) (s : State),
    s.eswOn = true ∧ chooseClass 0 (crossbar s) 8 = some (k, (x, c), d) ∧ x.tx = none ∧ (s.swp 0).rec_.rgBe.getLsbD x.cls = false ∧ (ethBytes (s.outFrame 0 x)).length ≤ 1536) ∧
  (∃ (k : Fin 64) (s : State),
    s.esw.on = true) ∧
  (∃ (a b : Int) (l : List LooseCell) (s : State),
    s.eswOn = true) ∧
  (∃ (a b : Int) (l : List LooseCell) (s : State),
    s.eswOn = false) ∧
  (∃ (s : State),
    s.esw.comparing = false) ∧
  (∃ (s : State),
    s.esw.comparing = true ∧ s.esw.reclaim = false) ∧
  (∃ (c : Fin 262144) (s : State),
    s.eswOn = true ∧ c.val < bankCells * s.esw.nBank ∧ s.esw.free ≠ 0) ∧
  (∃ (c : Fin 262144) (i : Nat) (x : Stored) (s : State),
    s.eswOn = true ∧ c.val < bankCells * s.esw.nBank ∧ s.esw.stored[i]? = some x ∧ 1 ≤ x.cells) ∧
  (∃ (c : Fin 262144) (i : Option Nat) (s : State),
    (s.eswOn = false ∨ bankCells * s.esw.nBank ≤ c.val)) ∧
  (∃ (i : Fin 512) (s : State),
    s.eswOn = true ∧ i.val < 21) ∧
  (∃ (i : Fin 512) (s : State),
    s.eswOn = true) ∧
  (∃ (p : Fin 21) (up : Bool) (s : State),
    s.eswOn = true ∧ (isP p.val || isQ p.val || isS p.val) = true ∧ (s.swp p.val).link = !up) ∧
  (∃ (p : Fin 21) (up : Bool) (s : State),
    (s.swp p.val).link = up) ∧
  (∃ (p : Fin 21) (s : State),
    s.eswOn = true ∧ isP p.val = true ∧ (s.swp p.val).rec_.macsec = true ∧ (s.swp p.val).link = true ∧ (s.swp p.val).macsecLive = false) ∧
  (∃ (p : Fin 21) (s : State),
    (s.swp p.val).macsecLive = true) ∧
  (∃ (p : Fin 21) (s : State),
    s.eswOn = true ∧ isS p.val = true ∧ (s.swp p.val).follower = true) ∧
  (∃ (p : Fin 21) (s : State),
    s.eswOn = true ∧ isS p.val = true ∧ (s.swp p.val).follower = true) ∧
  (∃ (p : Fin 21) (s : State),
    (s.swp p.val).follower = false) ∧
  (∃ (k : Fin 1024) (x : Frer) (s : State),
    s.esw.frer.get? k.val = some x ∧ x.rec_.kind = 2 ∧ flagOf x.rec_.flags 1 = true) ∧
  (∃ (s : State),
    s.esw.scrub0 ≠ 0 ∧ s.esw.waiting = []) ∧
  (∃ (s : State),
    s.esw.scrub1 ≠ 0 ∧ s.esw.waiting = []) ∧
  (∃ (x : Stored) (s : State),
    s.esw.scrub0 = 0 ∧ s.esw.waiting = [x] ∧ s.grant x [] = .granted) ∧
  (∃ (v : Fin 256) (q : Fin 4) (n : U16) (ds : List TxDesc) (rv : List Rival) (s : State),
    s.pairBlock v.val = false) ∧
  (∃ (v : Fin 256) (q : Fin 4) (n : U16) (ds : List TxDesc) (rv : List Rival) (s : State),
    s.eswOn = true ∧ s.hasPair v.val q.val = true ∧ s.vzfActive v.val = true ∧ 2 ^ (s.qp v.val q.val).depthLog2 < (n - (s.qp v.val q.val).txCons).toNat) ∧
  (∃ (v : Fin 256) (q : Fin 4) (d : TxDesc) (rv : List Rival) (s : State),
    s.eswOn = true ∧ s.hasPair v.val q.val = true ∧ s.vzfActive v.val = true ∧ (s.qp v.val q.val).waiting = [] ∧ ((s.qp v.val q.val).txProd + 1 - (s.qp v.val q.val).txCons).toNat ≤ 2 ^ (s.qp v.val q.val).depthLog2 ∧ (s.swp (s.txPort v.val)).held.getLsbD (d.flags.extractLsb' 0 3).toNat = false ∧ d.gen ≠ (s.vzf v.val).gen) ∧
  (∃ (v : Fin 256) (q : Fin 4) (d : TxDesc) (rv : List Rival) (s : State),
    s.eswOn = true ∧ s.hasPair v.val q.val = true ∧ s.vzfActive v.val = true ∧ (s.qp v.val q.val).waiting = [] ∧ ((s.qp v.val q.val).txProd + 1 - (s.qp v.val q.val).txCons).toNat ≤ 2 ^ (s.qp v.val q.val).depthLog2 ∧ (s.swp (s.txPort v.val)).held.getLsbD (d.flags.extractLsb' 0 3).toNat = false ∧ d.gen = (s.vzf v.val).gen ∧ descRefused d (s.qp v.val q.val) = false ∧ (s.vzf v.val).tpl.macs.contains d.frame.src = false) ∧
  (∃ (v : Fin 256) (q : Fin 4) (n : U16) (s : State),
    s.eswOn = true ∧ s.hasPair v.val q.val = true ∧ s.vzfActive v.val = true ∧ (s.qp v.val q.val).rxProd - (s.qp v.val q.val).rxCons < n - (s.qp v.val q.val).rxCons) ∧
  (∃ (v : Fin 256) (q : Fin 4) (n : U16) (s : State),
    s.eswOn = true ∧ s.hasPair v.val q.val = true ∧ s.vzfActive v.val = true ∧ n - (s.qp v.val q.val).rxCons ≤ (s.qp v.val q.val).rxProd - (s.qp v.val q.val).rxCons) :=
  ⟨⟨0, .plain, Zero.ethFrame, 0, ([]), (let s : State := Wit.run; { s with esw := { s.esw with on := false } }),
    by decide +kernel⟩,
  ⟨16, ({ Zero.ethFrame with data := zeros 2000 }), 0, ([]), (let s : State := Wit.run; let s : State := s.modSwp (16 : Fin 21).val (fun y0 => { y0 with rec_ := { y0.rec_ with en := true } }); s.modSwp (16 : Fin 21).val (fun y0 => { y0 with rec_ := { y0.rec_ with macsec := false } })),
    by decide +kernel⟩,
  ⟨1, Zero.ethFrame, 0, ([]), (let s : State := Wit.run; let s : State := s.modSwp (1 : Fin 21).val (fun y0 => { y0 with rec_ := { y0.rec_ with en := true } }); s.modSwp (1 : Fin 21).val (fun y0 => { y0 with rec_ := { y0.rec_ with macsec := true } })),
    by decide +kernel⟩,
  ⟨1, ({ Zero.ethFrame with data := zeros 46 }), 0, ([{ port := 2, vzf := none, dst := 0 }]), true, (let s : State := (let s : State := Wit.run; let s : State := s.modSwp (1 : Fin 21).val (fun y0 => { y0 with rec_ := { y0.rec_ with en := true } }); let s : State := s.modSwp (1 : Fin 21).val (fun y0 => { y0 with rec_ := { y0.rec_ with macsec := false } }); let s : State := s.modSwp (1 : Fin 21).val (fun y0 => { y0 with rec_ := { y0.rec_ with learn := false } }); let s : State := s.modSwp (1 : Fin 21).val (fun y0 => { y0 with rec_ := { y0.rec_ with inFilter := false } }); { s with esw := { s.esw with vlans := ⟨[(1, { members := 0x6, untagged := 0 })]⟩ } }); (s.swp (1 : Fin 21).val).rec_.potMap.getD (frameClass (s.swp (1 : Fin 21).val).rec_ ({ Zero.ethFrame with data := zeros 46 } : EthFrame)) 0 % 64), ((ethLen ({ Zero.ethFrame with data := zeros 46 } : EthFrame) + 63) / 64), (let s : State := Wit.run; let s : State := s.modSwp (1 : Fin 21).val (fun y0 => { y0 with rec_ := { y0.rec_ with en := true } }); let s : State := s.modSwp (1 : Fin 21).val (fun y0 => { y0 with rec_ := { y0.rec_ with macsec := false } }); let s : State := s.modSwp (1 : Fin 21).val (fun y0 => { y0 with rec_ := { y0.rec_ with learn := false } }); let s : State := s.modSwp (1 : Fin 21).val (fun y0 => { y0 with rec_ := { y0.rec_ with inFilter := false } }); { s with esw := { s.esw with vlans := ⟨[(1, { members := 0x6, untagged := 0 })]⟩ } }),
    by decide +kernel⟩,
  ⟨1, ({ Zero.ethFrame with data := zeros 46 }), 0, ([{ port := 2, vzf := none, dst := 0 }]), true, (let s : State := (let s : State := Wit.run; let s : State := s.modSwp (1 : Fin 21).val (fun y0 => { y0 with rec_ := { y0.rec_ with en := true } }); let s : State := s.modSwp (1 : Fin 21).val (fun y0 => { y0 with rec_ := { y0.rec_ with macsec := false } }); let s : State := s.modSwp (1 : Fin 21).val (fun y0 => { y0 with rec_ := { y0.rec_ with learn := false } }); let s : State := s.modSwp (1 : Fin 21).val (fun y0 => { y0 with rec_ := { y0.rec_ with inFilter := false } }); let s : State := { s with esw := { s.esw with vlans := ⟨[(1, { members := 0x6, untagged := 0 })]⟩ } }; s.modPot 0 (fun y0 => { y0 with rec_ := { y0.rec_ with max := 0 } })); (s.swp (1 : Fin 21).val).rec_.potMap.getD (frameClass (s.swp (1 : Fin 21).val).rec_ ({ Zero.ethFrame with data := zeros 46 } : EthFrame)) 0 % 64), (let s : State := Wit.run; let s : State := s.modSwp (1 : Fin 21).val (fun y0 => { y0 with rec_ := { y0.rec_ with en := true } }); let s : State := s.modSwp (1 : Fin 21).val (fun y0 => { y0 with rec_ := { y0.rec_ with macsec := false } }); let s : State := s.modSwp (1 : Fin 21).val (fun y0 => { y0 with rec_ := { y0.rec_ with learn := false } }); let s : State := s.modSwp (1 : Fin 21).val (fun y0 => { y0 with rec_ := { y0.rec_ with inFilter := false } }); let s : State := { s with esw := { s.esw with vlans := ⟨[(1, { members := 0x6, untagged := 0 })]⟩ } }; s.modPot 0 (fun y0 => { y0 with rec_ := { y0.rec_ with max := 0 } })),
    by decide +kernel⟩,
  ⟨0, 0, ({ Zero.stored with ingress := (0 : Fin 21).val, cls := (0 : Fin 8).val }), (let s : State := Wit.run; { s with esw := { s.esw with waiting := [({ Zero.stored with ingress := (0 : Fin 21).val, cls := (0 : Fin 8).val } : Stored)] } }),
    by decide +kernel⟩,
  ⟨0, 0, Wit.run,
    by decide +kernel⟩,
  ⟨0, Wit.run,
    by decide +kernel⟩,
  ⟨0, Wit.run,
    by decide +kernel⟩,
  ⟨Wit.run, (let s : State := Wit.run; (crossbar s).esw),
    by decide +kernel⟩,
  ⟨({ Zero.stored with copies := [({ Zero.egressCopy with left := 2 } : EgressCopy)] }), ({ Zero.egressCopy with left := 2 }), (let s : State := Wit.run; { s with esw := { s.esw with stored := [({ Zero.stored with copies := [({ Zero.egressCopy with left := 2 } : EgressCopy)] } : Stored)] } }),
    by decide +kernel⟩,
  ⟨(fun x => x.ingress), 0, ([Zero.xfer]), Zero.xfer,
    by decide +kernel⟩,
  ⟨Zero.eswState, 0,
    by decide +kernel⟩,
  ⟨2, 0, ({ Zero.stored with copies := [({ Zero.egressCopy with port := 2 } : EgressCopy)], len := 64, cells := 1 }), ({ Zero.egressCopy with port := 2 }), (let s : State := (let s : State := Wit.run; let s : State := s.modSwp (2 : Fin 21).val (fun y0 => { y0 with rec_ := { y0.rec_ with macsec := false } }); { s with esw := { s.esw with stored := [({ Zero.stored with copies := [({ Zero.egressCopy with port := 2 } : EgressCopy)], len := 64, cells := 1 } : Stored)] } }); match chooseClass (2 : Fin 21).val s 8 with | some y => y.2.2 | none => Drr.reset), (let s : State := Wit.run; let s : State := s.modSwp (2 : Fin 21).val (fun y0 => { y0 with rec_ := { y0.rec_ with macsec := false } }); { s with esw := { s.esw with stored := [({ Zero.stored with copies := [({ Zero.egressCopy with port := 2 } : EgressCopy)], len := 64, cells := 1 } : Stored)] } }), (let s : State := (let s : State := Wit.run; let s : State := s.modSwp (2 : Fin 21).val (fun y0 => { y0 with rec_ := { y0.rec_ with macsec := false } }); { s with esw := { s.esw with stored := [({ Zero.stored with copies := [({ Zero.egressCopy with port := 2 } : EgressCopy)], len := 64, cells := 1 } : Stored)] } }); crossbar s),
    rfl, by decide +kernel⟩,
  ⟨7, ({ Zero.stored with copies := [({ Zero.egressCopy with port := 0 } : EgressCopy)], len := 64, cells := 1, cls := 7 }), ({ Zero.egressCopy with port := 0 }), (let s : State := (let s : State := Wit.run; { s with esw := { s.esw with stored := [({ Zero.stored with copies := [({ Zero.egressCopy with port := 0 } : EgressCopy)], len := 64, cells := 1, cls := 7 } : Stored)] } }); match chooseClass 0 s 8 with | some y => y.2.2 | none => Drr.reset), (let s : State := Wit.run; { s with esw := { s.esw with stored := [({ Zero.stored with copies := [({ Zero.egressCopy with port := 0 } : EgressCopy)], len := 64, cells := 1, cls := 7 } : Stored)] } }),
    by decide +kernel⟩,
  ⟨0, (let s : State := Wit.run; { s with esw := { s.esw with on := true } }),
    by decide +kernel⟩,
  ⟨0, 0, ([]), Wit.run,
    by decide +kernel⟩,
  ⟨0, 0, ([]), (let s : State := Wit.run; { s with esw := { s.esw with on := false } }),
    by decide +kernel⟩,
  ⟨(let s : State := Wit.run; { s with esw := { s.esw with comparing := false } }),
    by decide +kernel⟩,
  ⟨(let s : State := Wit.run; let s : State := { s with esw := { s.esw with comparing := true } }; { s with esw := { s.esw with reclaim := false } }),
    by decide +kernel⟩,
  ⟨0, Wit.run,
    by decide +kernel⟩,
  ⟨0, 0, ({ Zero.stored with cells := 1 }), (let s : State := Wit.run; { s with esw := { s.esw with stored := [({ Zero.stored with cells := 1 } : Stored)] } }),
    by decide +kernel⟩,
  ⟨0, none, (let s : State := Wit.run; { s with esw := { s.esw with on := false } }),
    by decide +kernel⟩,
  ⟨20, Wit.run,
    by decide +kernel⟩,
  ⟨0, Wit.run,
    by decide +kernel⟩,
  ⟨1, false, (let s : State := Wit.run; s.modSwp (1 : Fin 21).val (fun y0 => { y0 with link := !(false : Bool) })),
    by decide +kernel⟩,
  ⟨0, false, (let s : State := Wit.run; s.modSwp (0 : Fin 21).val (fun y0 => { y0 with link := (false : Bool) })),
    by decide +kernel⟩,
  ⟨1, (let s : State := Wit.run; let s : State := s.modSwp (1 : Fin 21).val (fun y0 => { y0 with rec_ := { y0.rec_ with macsec := true } }); let s : State := s.modSwp (1 : Fin 21).val (fun y0 => { y0 with link := true }); s.modSwp (1 : Fin 21).val (fun y0 => { y0 with macsecLive := false })),
    by decide +kernel⟩,
  ⟨0, (let s : State := Wit.run; s.modSwp (0 : Fin 21).val (fun y0 => { y0 with macsecLive := true })),
    by decide +kernel⟩,
  ⟨13, (let s : State := Wit.run; s.modSwp (13 : Fin 21).val (fun y0 => { y0 with plca := { y0.plca with en := true, node := 1 } })),
    by decide +kernel⟩,
  ⟨13, (let s : State := Wit.run; s.modSwp (13 : Fin 21).val (fun y0 => { y0 with plca := { y0.plca with en := true, node := 1 } })),
    by decide +kernel⟩,
  ⟨0, Wit.run,
    by decide +kernel⟩,
  ⟨0, ({ Zero.frer with rec_ := { Zero.frerFields with kind := 2, flags := 2 } }), (let s : State := Wit.run; { s with esw := { s.esw with frer := ⟨[((0 : Fin 1024).val, ({ Zero.frer with rec_ := { Zero.frerFields with kind := 2, flags := 2 } } : Frer))]⟩ } }),
    by decide +kernel⟩,
  ⟨(let s : State := Wit.run; let s : State := { s with esw := { s.esw with waiting := [] } }; { s with esw := { s.esw with scrub0 := 1 } }),
    by decide +kernel⟩,
  ⟨(let s : State := Wit.run; let s : State := { s with esw := { s.esw with waiting := [] } }; { s with esw := { s.esw with scrub1 := 1 } }),
    by decide +kernel⟩,
  ⟨Zero.stored, (let s : State := Wit.run; let s : State := { s with esw := { s.esw with scrub0 := 0 } }; { s with esw := { s.esw with waiting := [(Zero.stored : Stored)] } }),
    by decide +kernel⟩,
  ⟨2, 0, 0, ([]), ([]), Wit.run,
    by decide +kernel⟩,
  ⟨1, 0, 1000, ([]), ([]), Wit.run,
    by decide +kernel⟩,
  ⟨1, 0, ({ Zero.txDesc with gen := 7 }), ([]), Wit.run,
    by decide +kernel⟩,
  ⟨1, 0, ({ Zero.txDesc with length := 60, mapped := true }), ([]), (let s : State := Wit.run; { s with esw := { s.esw with qps := ⟨[(4 * (1 : Fin 256).val + (0 : Fin 4).val, { QPair.reset with txTc := 0xFF, depthLog2 := 8 })]⟩ } }),
    by decide +kernel⟩,
  ⟨1, 0, 1000, Wit.run,
    by decide +kernel⟩,
  ⟨1, 0, 0, Wit.run,
    by decide +kernel⟩⟩

theorem witness_SwitchCommandsAct :
  (∃ (s : State) (r : Req) (p : Port) (port : Byte),
    Requested s r p 4 ∧ p.mayUse (s.swp port.toNat).vzf ∧ port.toNat ≤ 20 ∧ s.sys.mode.isRunLimpWork = true) ∧
  (∃ (s : State) (r : Req) (p : Port) (port : Byte),
    Requested s r p 4 ∧ 20 < port.toNat ∧ p.sysPriv = true) ∧
  (∃ (s : State) (r : Req) (p : Port) (vid : U16) (m u : U32),
    Requested s r p 12 ∧ p.sysPriv = true ∧ vidOk vid = true ∧ maskOk m = true ∧ maskOk u = true ∧ s.sys.mode.isRunLimpWork = true) ∧
  (∃ (s : State) (r : Req) (p : Port) (f : FdbFields) (rest : List FdbEntry),
    Requested s r p 16 ∧ p.mayUse (s.fdbOwner f.mac f.vid.toNat f.ports) ∧ fdbStat f = none ∧ s.sys.mode.isRunLimpWork = true ∧ rest = s.esw.fdb.filter (fun y => !(decide (y.mac = f.mac) && decide (y.vid = f.vid.toNat))) ∧ rest.length < 16384) ∧
  (∃ (s : State) (r : Req) (p : Port) (f : FdbFields),
    Requested s r p 16 ∧ p.mayUse (s.fdbOwner f.mac f.vid.toNat f.ports) ∧ 16384 ≤ (s.esw.fdb.filter (fun y => !(decide (y.mac = f.mac) && decide (y.vid = f.vid.toNat)))).length ∧ fdbStat f = none ∧ s.sys.mode.isRunLimpWork = true) ∧
  (∃ (s : State) (r : Req) (p : Port) (mac : BitVec 48) (vid : U16) (e : FdbEntry),
    Requested s r p 8 ∧ p.mayUse (s.fdbOwner mac vid.toNat e.ports) ∧ s.esw.lookup mac vid.toNat = some e ∧ s.sys.mode.isRunLimpWork = true) ∧
  (∃ (s : State) (r : Req) (p : Port) (mac : BitVec 48) (vid : U16),
    Requested s r p 8 ∧ s.esw.lookup mac vid.toNat = none ∧ s.sys.mode.isRunLimpWork = true) ∧
  (∃ (s : State) (r : Req) (p : Port) (f : PotFields),
    Requested s r p 16 ∧ p.sysPriv = true ∧ potStat f = none ∧ s.sys.mode.isRunLimpWork = true ∧ potBudgetOk f.pot.toNat f.min.toNat s = true) ∧
  (∃ (s : State) (r : Req) (p : Port) (f : PotFields),
    Requested s r p 16 ∧ p.sysPriv = true ∧ potStat f = none ∧ s.sys.mode.isRunLimpWork = true ∧ potBudgetOk f.pot.toNat f.min.toNat s = false) ∧
  (∃ (s : State) (r : Req) (p : Port) (pot : Byte),
    Requested s r p 4 ∧ p.mayUse (s.potOwner pot.toNat) ∧ pot.toNat ≤ 63 ∧ s.sys.mode.isRunLimpWork = true) ∧
  (∃ (s : State) (r : Req) (p : Port) (port cls : Byte) (slope : U32),
    Requested s r p 8 ∧ p.mayUse (s.swp port.toNat).vzf ∧ port.toNat ≤ 20 ∧ cls.toNat ≤ 7 ∧ slope.toNat ≤ rateKbps port.toNat ∧ s.sys.mode.isRunLimpWork = true ∧ s.esw.shaped port.toNat < 4) ∧
  (∃ (s : State) (r : Req) (p : Port) (port cls : Byte) (slope : U32),
    Requested s r p 8 ∧ p.mayUse (s.swp port.toNat).vzf ∧ port.toNat ≤ 20 ∧ cls.toNat ≤ 7 ∧ slope.toNat ≤ rateKbps port.toNat ∧ s.sys.mode.isRunLimpWork = true) ∧
  (∃ (s : State) (r : Req) (p : Port) (port cls : Byte) (slope : U32),
    Requested s r p 8 ∧ p.mayUse (s.swp port.toNat).vzf ∧ port.toNat ≤ 20 ∧ cls.toNat ≤ 7 ∧ slope.toNat ≤ rateKbps port.toNat ∧ s.sys.mode.isRunLimpWork = true ∧ 4 ≤ s.esw.shaped port.toNat ∧ s.esw.shapers.get? (8 * port.toNat + cls.toNat) = none) ∧
  (∃ (s : State) (r : Req) (p : Port) (f : GateFields),
    Requested s r p (24 + 8 * f.entries.length) ∧ p.sysPriv = true ∧ gateStat f = none ∧ s.sys.mode.isRunLimpWork = true ∧ f.target = 0) ∧
  (∃ (s : State) (r : Req) (p : Port) (f : GateFields),
    Requested s r p (24 + 8 * f.entries.length) ∧ p.sysPriv = true ∧ gateStat f = none ∧ s.sys.mode.isRunLimpWork = true ∧ f.target = 1) ∧
  (∃ (s : State) (r : Req) (p : Port) (f : FilterFields),
    Requested s r p 68 ∧ p.mayUse (s.filterOwner f) ∧ filterStat f = none ∧ s.sys.mode.isRunLimpWork = true) ∧
  (∃ (s : State) (r : Req) (p : Port) (f : FilterFields),
    Requested s r p 68 ∧ p.mayUse (s.filterOwner f) ∧ 2 < f.method.toNat) ∧
  (∃ (s : State) (r : Req) (p : Port) (f : FrerFields),
    Requested s r p 16 ∧ p.sysPriv = true ∧ frerStat f = none ∧ s.sys.mode.isRunLimpWork = true) ∧
  (∃ (s : State) (r : Req) (p : Port) (f : PlcaFields),
    Requested s r p 8 ∧ p.sysPriv = true ∧ plcaStat f = none ∧ s.sys.mode.isRunLimpWork = true) ∧
  (∃ (s : State) (r : Req) (p : Port) (f : PlcaFields),
    Requested s r p 8 ∧ p.sysPriv = true ∧ isS f.port.toNat = false) ∧
  (∃ (s : State) (r : Req) (p : Port) (policy : Byte) (t : U16) (a b : Int) (l : List LooseCell),
    Requested s r p 4 ∧ p.sysPriv = true ∧ policy.toNat ≤ 1 ∧ 1 ≤ t.toNat ∧ t.toNat ≤ 1000 ∧ s.sys.mode.isRunLimpWork = true) ∧
  (∃ (s : State) (r : Req) (p : Port) (policy : Byte) (t : U16) (a b : Int) (l : List LooseCell),
    Requested s r p 4 ∧ p.sysPriv = true ∧ policy.toNat ≤ 1 ∧ s.sys.mode.isRunLimpWork = true) ∧
  (∃ (s : State) (r : Req) (p : Port) (clear : Byte),
    Requested s r p 4 ∧ clear.toNat ≤ 1 ∧ s.sys.mode.isServing = true) :=
  ⟨⟨Wit.run, ((Wit.req 4)), Wit.sys, 20,
    ⟨by decide +kernel, rfl, by decide +kernel, rfl⟩, (by first | exact Or.inl (by decide +kernel) | exact Or.inr ⟨by decide +kernel, by decide +kernel⟩), by decide +kernel⟩,
  ⟨Wit.run, ((Wit.req 4)), Wit.sys, 21,
    ⟨by decide +kernel, rfl, by decide +kernel, rfl⟩, by decide +kernel⟩,
  ⟨Wit.run, ((Wit.req 12)), Wit.sys, 4094, 0, 0,
    ⟨by decide +kernel, rfl, by decide +kernel, rfl⟩, by decide +kernel⟩,
  ⟨Wit.run, ((Wit.req 16)), Wit.sys, ({ mac := 0x020000000001, vid := 7, ports := 2, station := 0xFF, flags := 0 }), (let s : State := Wit.run; s.esw.fdb.filter (fun y => !(decide (y.mac = ({ mac := 0x020000000001, vid := 7, ports := 2, station := 0xFF, flags := 0 } : FdbFields).mac) && decide (y.vid = ({ mac := 0x020000000001, vid := 7, ports := 2, station := 0xFF, flags := 0 } : FdbFields).vid.toNat)))),
    ⟨by decide +kernel, rfl, by decide +kernel, rfl⟩, (by first | exact Or.inl (by decide +kernel) | exact Or.inr ⟨by decide +kernel, by decide +kernel⟩), by decide +kernel⟩,
  ⟨(let s : State := Wit.run; { s with esw := { s.esw with fdb := List.replicate 16384 { mac := 5, vid := 9, ports := 2, station := 255, static_ := false, discard := false } } }), ((Wit.req 16)), Wit.sys, ({ mac := 0x020000000001, vid := 7, ports := 2, station := 0xFF, flags := 0 }),
    ⟨by decide +kernel, rfl, by decide +kernel, rfl⟩, (by first | exact Or.inl (by decide +kernel) | exact Or.inr ⟨by decide +kernel, by decide +kernel⟩), Wit.full 16384 { mac := 5, vid := 9, ports := 2, station := 255, static_ := false, discard := false } _ rfl, by decide +kernel⟩,
  ⟨(let s : State := Wit.run; { s with esw := { s.esw with fdb := [({ mac := (0 : BitVec 48), vid := (0 : U16).toNat, ports := 2, station := 255, static_ := false, discard := false } : FdbEntry)] } }), ((Wit.req 8)), Wit.sys, 0, 0, ({ mac := (0 : BitVec 48), vid := (0 : U16).toNat, ports := 2, station := 255, static_ := false, discard := false }),
    ⟨by decide +kernel, rfl, by decide +kernel, rfl⟩, (by first | exact Or.inl (by decide +kernel) | exact Or.inr ⟨by decide +kernel, by decide +kernel⟩), by decide +kernel⟩,
  ⟨Wit.run, ((Wit.req 8)), Wit.sys, 0, 0,
    ⟨by decide +kernel, rfl, by decide +kernel, rfl⟩, by decide +kernel⟩,
  ⟨Wit.run, ((Wit.req 16)), Wit.sys, ({ pot := 3, owner := 1, min := 10, max := 100, maxDesc := 10 }),
    ⟨by decide +kernel, rfl, by decide +kernel, rfl⟩, by decide +kernel⟩,
  ⟨Wit.run, ((Wit.req 16)), Wit.sys, ({ pot := 3, owner := 1, min := 262144, max := 262144, maxDesc := 10 }),
    ⟨by decide +kernel, rfl, by decide +kernel, rfl⟩, by decide +kernel⟩,
  ⟨Wit.run, ((Wit.req 4)), Wit.sys, 63,
    ⟨by decide +kernel, rfl, by decide +kernel, rfl⟩, (by first | exact Or.inl (by decide +kernel) | exact Or.inr ⟨by decide +kernel, by decide +kernel⟩), by decide +kernel⟩,
  ⟨Wit.run, ((Wit.req 8)), Wit.sys, 20, 7, 0,
    ⟨by decide +kernel, rfl, by decide +kernel, rfl⟩, (by first | exact Or.inl (by decide +kernel) | exact Or.inr ⟨by decide +kernel, by decide +kernel⟩), by decide +kernel⟩,
  ⟨Wit.run, ((Wit.req 8)), Wit.sys, 20, 7, 0,
    ⟨by decide +kernel, rfl, by decide +kernel, rfl⟩, (by first | exact Or.inl (by decide +kernel) | exact Or.inr ⟨by decide +kernel, by decide +kernel⟩), by decide +kernel⟩,
  ⟨(let s : State := Wit.run; { s with esw := { s.esw with shapers := ⟨(List.range 4).map (fun x => (8 * (20 : Byte).toNat + x, { slope := 0, credit := 0, last := 0 }))⟩ } }), ((Wit.req 8)), Wit.sys, 20, 7, 0,
    ⟨by decide +kernel, rfl, by decide +kernel, rfl⟩, (by first | exact Or.inl (by decide +kernel) | exact Or.inr ⟨by decide +kernel, by decide +kernel⟩), by decide +kernel⟩,
  ⟨Wit.run, (Wit.req 32), Wit.sys, ({ target := 0, port := 1, gate := 3, cycle := 1000, baseSec := 0, baseNs := 0, entries := [(1000, 0xFF)] }),
    ⟨by decide +kernel, rfl, by decide +kernel, rfl⟩, by decide +kernel⟩,
  ⟨Wit.run, (Wit.req 32), Wit.sys, ({ target := 1, port := 1, gate := 3, cycle := 1000, baseSec := 0, baseNs := 0, entries := [(1000, 0xFF)] }),
    ⟨by decide +kernel, rfl, by decide +kernel, rfl⟩, by decide +kernel⟩,
  ⟨Wit.run, ((Wit.req 68)), Wit.sys, ({ filter := 4, port := 1, method := 2, key := zeros 16, maxSdu := 0, gate := 0xFFFF, meter := 0xFFFF, flags := 0, meterFlags := 0, cir := 0, eir := 0, cbs := 0, ebs := 0 }),
    ⟨by decide +kernel, rfl, by decide +kernel, rfl⟩, (by first | exact Or.inl (by decide +kernel) | exact Or.inr ⟨by decide +kernel, by decide +kernel⟩), by decide +kernel⟩,
  ⟨Wit.run, ((Wit.req 68)), Wit.sys, ({ filter := 4, port := 1, method := 3, key := zeros 16, maxSdu := 0, gate := 0xFFFF, meter := 0xFFFF, flags := 0, meterFlags := 0, cir := 0, eir := 0, cbs := 0, ebs := 0 }),
    ⟨by decide +kernel, rfl, by decide +kernel, rfl⟩, (by first | exact Or.inl (by decide +kernel) | exact Or.inr ⟨by decide +kernel, by decide +kernel⟩), by decide +kernel⟩,
  ⟨Wit.run, ((Wit.req 16)), Wit.sys, Zero.frerFields,
    ⟨by decide +kernel, rfl, by decide +kernel, rfl⟩, by decide +kernel⟩,
  ⟨Wit.run, ((Wit.req 8)), Wit.sys, ({ port := 13, enable := 1, node := 1, count := 8, toTimer := 32, burst := 0, burstTimer := 128 }),
    ⟨by decide +kernel, rfl, by decide +kernel, rfl⟩, by decide +kernel⟩,
  ⟨Wit.run, ((Wit.req 8)), Wit.sys, Zero.plcaFields,
    ⟨by decide +kernel, rfl, by decide +kernel, rfl⟩, by decide +kernel⟩,
  ⟨Wit.run, ((Wit.req 4)), Wit.sys, 1, 1000, 0, 0, ([]),
    ⟨by decide +kernel, rfl, by decide +kernel, rfl⟩, by decide +kernel⟩,
  ⟨Wit.run, ((Wit.req 4)), Wit.sys, 1, 0, 0, 0, ([]),
    ⟨by decide +kernel, rfl, by decide +kernel, rfl⟩, by decide +kernel⟩,
  ⟨Wit.run, ((Wit.req 4)), Wit.sys, 1,
    ⟨by decide +kernel, rfl, by decide +kernel, rfl⟩, by decide +kernel⟩⟩

theorem witness_CanEventsAct :
  (∃ (c : Fin 16) (f : CanFrame) (sof : U64) (n : CanCounters) (s : State),
    ((s.canCh c.val).mode.onBus = false ∨ s.powered (pdCan c.val) = false)) ∧
  (∃ (c : Fin 16) (f : CanFrame) (sof : U64) (n : CanCounters) (s : State),
    (s.canCh c.val).mode.onBus = true ∧ s.powered (pdCan c.val) = true ∧ n.err ≠ 0 ∧ canListen (s.canCh c.val).record = false) ∧
  (∃ (c : Fin 16) (f : CanFrame) (sof : U64) (n : CanCounters) (s : State),
    (s.canCh c.val).mode.onBus = true ∧ s.powered (pdCan c.val) = true ∧ n.err = 0 ∧ s.sys.mode ≠ .basecamp ∧ (s.canCh c.val).stores f = false) ∧
  (∃ (c : Fin 16) (f : CanFrame) (sof : U64) (n : CanCounters) (s : State),
    (s.canCh c.val).mode.onBus = true ∧ s.powered (pdCan c.val) = true ∧ n.err = 0 ∧ s.sys.mode ≠ .basecamp ∧ (s.canCh c.val).stores f = true ∧ s.canQuiet c.val = false ∧ f.data.length ≤ 64 ∧ ((s.canCh c.val).rxE (s.canCh c.val).rxFill).own = true) ∧
  (∃ (c : Fin 16) (f : CanFrame) (sof : U64) (n : CanCounters) (s : State),
    (s.canCh c.val).mode.onBus = true ∧ s.powered (pdCan c.val) = true ∧ n.err = 0 ∧ s.sys.mode ≠ .basecamp ∧ (s.canCh c.val).stores f = true ∧ s.canQuiet c.val = false ∧ ((s.canCh c.val).rxE (s.canCh c.val).rxFill).own = false) ∧
  (∃ (c : Fin 16) (f : CanFrame) (sof : U64) (n : CanCounters) (s : State),
    (s.canCh c.val).mode.onBus = true ∧ s.powered (pdCan c.val) = true ∧ n.err = 0 ∧ s.sys.mode ≠ .basecamp ∧ (s.canCh c.val).stores f = true ∧ s.canQuiet c.val = true) ∧
  (∃ (c : Fin 16) (f : CanFrame) (sof : U64) (n : CanCounters) (s : State),
    (s.canCh c.val).mode.onBus = true ∧ s.powered (pdCan c.val) = true ∧ n.err = 0 ∧ s.sys.mode = .basecamp) ∧
  (∃ (c : Fin 16) (e : Nat) (s : State),
    (s.canCh c.val).mode.onBus = true ∧ canListen (s.canCh c.val).record = false ∧ (s.canCh c.val).attempt = none ∧ (s.canCh c.val).stopping = none ∧ s.powered (pdCan c.val) = true ∧ bestEntry (s.canCh c.val) ((s.canCh c.val).pending.filter (fun e => !(s.canSoftEntry c.val e && s.canQuiet c.val))) = some e) ∧
  (∃ (c : Fin 16) (s : State),
    ((s.canCh c.val).pending = [] ∨ (s.canCh c.val).attempt.isSome = true)) ∧
  (∃ (c : Fin 16) (o : CanOutcome) (n : CanCounters) (s : State),
    (s.canCh c.val).attempt = none) ∧
  (∃ (c : Fin 16) (n : CanCounters) (a : CanAttempt) (s : State),
    (s.canCh c.val).attempt = some a ∧ a.old = false ∧ s.canSoftEntry c.val a.entry = true ∧ canEcho (s.canCh c.val).record = false ∧ (s.canCh c.val).stopping = none) ∧
  (∃ (c : Fin 16) (n : CanCounters) (a : CanAttempt) (s : State),
    (s.canCh c.val).attempt = some a ∧ a.old = false ∧ a.cancelled = false ∧ ((s.canCh c.val).txE a.entry).own = true ∧ ((s.canCh c.val).txE a.entry).oneShot = false ∧ (s.canCh c.val).stopping = none) ∧
  (∃ (c : Fin 16) (o : CanOutcome) (n : CanCounters) (a : CanAttempt) (q : Nat × U32 × U32) (s : State),
    (s.canCh c.val).attempt = some a ∧ (s.canCh c.val).stopping = some q) ∧
  (∃ (c : Fin 16) (s : State),
    (s.canCh c.val).mode = .integrating ∧ (s.nmOn c.val = false ∨ (s.nmRing c.val).join = false)) ∧
  (∃ (c : Fin 16) (s : State),
    (s.canCh c.val).mode ≠ .integrating) ∧
  (∃ (c : Fin 16) (s : State),
    (s.canCh c.val).mode = .recovering) ∧
  (∃ (c : Fin 16) (s : State),
    (s.canCh c.val).mode ≠ .recovering) ∧
  (∃ (v : Fin 256) (c : Fin 16) (w : U32) (s : State),
    s.canBlock v.val c.val = false) ∧
  (∃ (v : Fin 256) (c : Fin 16) (s : State),
    s.canBlock v.val c.val = true ∧ s.vzfActive v.val = true) ∧
  (∃ (v : Fin 256) (c : Fin 16) (w : U32) (s : State),
    s.canBlock v.val c.val = true ∧ s.vzfActive v.val = true ∧ w.toNat ≤ 95 ∧ s.canSoftEntry c.val w.toNat = true ∧ w.toNat ∈ (s.canCh c.val).pending ∧ (s.canCh c.val).attempt = none) ∧
  (∃ (v : Fin 256) (c : Fin 16) (w : U32) (a : CanAttempt) (s : State),
    s.canBlock v.val c.val = true ∧ s.vzfActive v.val = true ∧ w.toNat ≤ 95 ∧ s.canSoftEntry c.val w.toNat = true ∧ w.toNat ∈ (s.canCh c.val).pending ∧ (s.canCh c.val).attempt = some a ∧ a.entry = w.toNat) ∧
  (∃ (v : Fin 256) (c : Fin 16) (w : U32) (s : State),
    s.canBlock v.val c.val = true ∧ 95 < w.toNat) ∧
  (∃ (c : Fin 16) (e : Fin 512) (w : U32) (s : State),
    ((s.canCh c.val).rxE e.val).own = false) ∧
  (∃ (c : Fin 16) (e : Fin 512) (w : U32) (s : State),
    e.val ≤ 95 ∧ s.canSoftEntry c.val e.val = true ∧ ((s.canCh c.val).txE e.val).own = false) ∧
  (∃ (c : Fin 16) (e : Fin 512) (w : U32) (s : State),
    e.val ≤ 95 ∧ s.canSoftEntry c.val e.val = true ∧ ((s.canCh c.val).txE e.val).own = true) ∧
  (∃ (c : Fin 16) (e : Fin 512) (w : U32) (s : State),
    95 < e.val) ∧
  (∃ (v : Fin 256) (c : Fin 16) (s : State),
    s.canBlock v.val c.val = true) ∧
  (∃ (c : Fin 16) (s : State),
    ((s.canCh c.val).tm.role ≠ 2 ∨ (s.canCh c.val).tm.sending = false)) ∧
  (∃ (c : Fin 16) (s : State),
    (s.canCh c.val).tm.role = 2 ∧ (s.canCh c.val).tm.sending = true ∧ (s.canCh c.val).mode.onBus = true ∧ canListen (s.canCh c.val).record = false) ∧
  (∃ (c : Fin 16) (rank : Fin 4) (n : Fin 64) (sof : U64) (s : State),
    (s.canCh c.val).tm.role ≠ 0 ∧ (s.canCh c.val).mode.onBus = true ∧ ((s.canCh c.val).tm.sending = false ∨ rank.val < (s.canCh c.val).tm.rank)) ∧
  (∃ (c : Fin 16) (rank : Fin 4) (n : Fin 64) (sof : U64) (s : State),
    ((s.canCh c.val).tm.role = 0 ∨ ((s.canCh c.val).tm.sending = true ∧ (s.canCh c.val).tm.rank ≤ rank.val))) ∧
  (∃ (c : Fin 16) (s : State),
    (s.canCh c.val).tm.role = 0) ∧
  (∃ (c : Fin 16) (s : State),
    (s.canCh c.val).tm.role ≠ 0 ∧ (s.canCh c.val).tm.missing ≠ 1) ∧
  (∃ (c : Fin 16) (s : State),
    (s.canCh c.val).tm.role ≠ 0 ∧ (s.canCh c.val).tm.missing = 1) ∧
  (∃ (c : Fin 16) (s : State),
    (s.canCh c.val).waking = true) ∧
  (∃ (c : Fin 16) (s : State),
    (s.canCh c.val).waking = false) :=
  ⟨⟨0, Zero.canFrame, 0, Zero.canCounters, (let s : State := Wit.run; s.modCan (0 : Fin 16).val (fun y0 => { y0 with mode := .stopped })),
    by decide +kernel⟩,
  ⟨0, Zero.canFrame, 0, ({ Zero.canCounters with err := 1 }), Wit.run,
    by decide +kernel⟩,
  ⟨0, Zero.canFrame, 0, Zero.canCounters, Wit.run,
    by decide +kernel⟩,
  ⟨0, Zero.canFrame, 0, Zero.canCounters, (let s : State := Wit.run; s.modCan (0 : Fin 16).val (fun y0 => { y0 with filters := ⟨[(0, { en := true, store := true, ide := false, formats := 7, id := 0, mask := 0 })]⟩ })),
    by decide +kernel⟩,
  ⟨0, Zero.canFrame, 0, Zero.canCounters, (let s : State := Wit.run; let s : State := s.modCan (0 : Fin 16).val (fun y0 => { y0 with filters := ⟨[(0, { en := true, store := true, ide := false, formats := 7, id := 0, mask := 0 })]⟩ }); s.modCan (0 : Fin 16).val (fun y0 => { y0 with rx := ⟨[((s.canCh (0 : Fin 16).val).rxFill, { CanEntry.rx with ctl := 0 })]⟩ })),
    by decide +kernel⟩,
  ⟨0, Zero.canFrame, 0, Zero.canCounters, (let s : State := Wit.run; let s : State := s.modCan (0 : Fin 16).val (fun y0 => { y0 with filters := ⟨[(0, { en := true, store := true, ide := false, formats := 7, id := 0, mask := 0 })]⟩ }); { s with vz := { s.vz with vzfs := ⟨[(1, { Wit.vzf with life := .quiescing })]⟩ } }),
    by decide +kernel⟩,
  ⟨0, Zero.canFrame, 0, Zero.canCounters, (let s : State := Wit.run; { s with sys := { s.sys with mode := .basecamp } }),
    by decide +kernel⟩,
  ⟨0, 40, (let s : State := Wit.run; let s : State := s.modCan (0 : Fin 16).val (fun y0 => { y0 with attempt := none }); let s : State := s.modCan (0 : Fin 16).val (fun y0 => { y0 with stopping := none }); s.modCan (0 : Fin 16).val (fun y0 => { y0 with pending := [40] })),
    by decide +kernel⟩,
  ⟨0, Wit.run,
    by decide +kernel⟩,
  ⟨0, .sent, Zero.canCounters, (let s : State := Wit.run; s.modCan (0 : Fin 16).val (fun y0 => { y0 with attempt := none })),
    by decide +kernel⟩,
  ⟨0, Zero.canCounters, Zero.canAttempt, (let s : State := Wit.run; let s : State := s.modCan (0 : Fin 16).val (fun y0 => { y0 with attempt := some (Zero.canAttempt : CanAttempt) }); s.modCan (0 : Fin 16).val (fun y0 => { y0 with stopping := none })),
    by decide +kernel⟩,
  ⟨0, Zero.canCounters, ({ Zero.canAttempt with entry := 40 }), (let s : State := Wit.run; let s : State := s.modCan (0 : Fin 16).val (fun y0 => { y0 with attempt := some ({ Zero.canAttempt with entry := 40 } : CanAttempt) }); let s : State := s.modCan (0 : Fin 16).val (fun y0 => { y0 with stopping := none }); s.modCan (0 : Fin 16).val (fun y0 => { y0 with tx := ⟨[(40, { CanEntry.tx with ctl := 0x80000000 })]⟩ })),
    by decide +kernel⟩,
  ⟨0, .sent, Zero.canCounters, Zero.canAttempt, ((0, 0, 0)), (let s : State := Wit.run; let s : State := s.modCan (0 : Fin 16).val (fun y0 => { y0 with attempt := some (Zero.canAttempt : CanAttempt) }); s.modCan (0 : Fin 16).val (fun y0 => { y0 with stopping := some ((0, 0, 0) : Nat × U32 × U32) })),
    by decide +kernel⟩,
  ⟨0, (let s : State := Wit.run; s.modCan (0 : Fin 16).val (fun y0 => { y0 with mode := .integrating })),
    by decide +kernel⟩,
  ⟨0, Wit.run,
    by decide +kernel⟩,
  ⟨0, (let s : State := Wit.run; s.modCan (0 : Fin 16).val (fun y0 => { y0 with mode := .recovering })),
    by decide +kernel⟩,
  ⟨0, Wit.run,
    by decide +kernel⟩,
  ⟨2, 0, 0, Wit.run,
    by decide +kernel⟩,
  ⟨1, 0, Wit.run,
    by decide +kernel⟩,
  ⟨1, 0, 40, (let s : State := Wit.run; let s : State := s.modCan (0 : Fin 16).val (fun y0 => { y0 with attempt := none }); s.modCan (0 : Fin 16).val (fun y0 => { y0 with pending := [40] })),
    by decide +kernel⟩,
  ⟨1, 0, 40, ({ Zero.canAttempt with entry := 40 }), (let s : State := Wit.run; let s : State := s.modCan (0 : Fin 16).val (fun y0 => { y0 with attempt := some ({ Zero.canAttempt with entry := 40 } : CanAttempt) }); s.modCan (0 : Fin 16).val (fun y0 => { y0 with pending := [40] })),
    by decide +kernel⟩,
  ⟨1, 0, 96, Wit.run,
    by decide +kernel⟩,
  ⟨0, 0, 0, (let s : State := Wit.run; s.modCan (0 : Fin 16).val (fun y0 => { y0 with rx := ⟨[((0 : Fin 512).val, { CanEntry.rx with ctl := 0 })]⟩ })),
    by decide +kernel⟩,
  ⟨0, 95, 0, Wit.run,
    by decide +kernel⟩,
  ⟨0, 40, 0, (let s : State := Wit.run; s.modCan (0 : Fin 16).val (fun y0 => { y0 with tx := ⟨[(40, { CanEntry.tx with ctl := 0x80000000 })]⟩ })),
    by decide +kernel⟩,
  ⟨0, 96, 0, Wit.run,
    by decide +kernel⟩,
  ⟨1, 0, Wit.run,
    by decide +kernel⟩,
  ⟨0, Wit.run,
    by decide +kernel⟩,
  ⟨0, (let s : State := Wit.run; let s : State := s.modCan (0 : Fin 16).val (fun y0 => { y0 with tm := { y0.tm with role := 2 } }); s.modCan (0 : Fin 16).val (fun y0 => { y0 with tm := { y0.tm with sending := true } })),
    by decide +kernel⟩,
  ⟨0, 0, 0, 0, (let s : State := Wit.run; s.modCan (0 : Fin 16).val (fun y0 => { y0 with tm := { y0.tm with role := 1 } })),
    by decide +kernel⟩,
  ⟨0, 0, 0, 0, Wit.run,
    by decide +kernel⟩,
  ⟨0, (let s : State := Wit.run; s.modCan (0 : Fin 16).val (fun y0 => { y0 with tm := { y0.tm with role := 0 } })),
    by decide +kernel⟩,
  ⟨0, (let s : State := Wit.run; s.modCan (0 : Fin 16).val (fun y0 => { y0 with tm := { y0.tm with role := 1 } })),
    by decide +kernel⟩,
  ⟨0, (let s : State := Wit.run; let s : State := s.modCan (0 : Fin 16).val (fun y0 => { y0 with tm := { y0.tm with missing := 1 } }); s.modCan (0 : Fin 16).val (fun y0 => { y0 with tm := { y0.tm with role := 1, missing := 1 } })),
    by decide +kernel⟩,
  ⟨0, (let s : State := Wit.run; s.modCan (0 : Fin 16).val (fun y0 => { y0 with waking := true })),
    by decide +kernel⟩,
  ⟨0, (let s : State := Wit.run; s.modCan (0 : Fin 16).val (fun y0 => { y0 with waking := false })),
    by decide +kernel⟩⟩

theorem witness_CanCommandsAct :
  (∃ (s : State) (r : Req) (p : Port) (c : Byte) (f : CanRecord),
    Requested s r p 36 ∧ p.mayUse (s.canOwner c.toNat) ∧ c.toNat ≤ 15 ∧ flagOf f.flags 7 = false ∧ s.sys.mode.isRunLimpWork = true ∧ (s.canCh c.toNat).mode = .stopped ∧ f.wake.toNat ≤ 2 ∧ canTimingOk f = true ∧ s.canTxbTaken c.toNat f = false) ∧
  (∃ (s : State) (r : Req) (p : Port) (c : Byte) (f : CanRecord),
    Requested s r p 36 ∧ p.mayUse (s.canOwner c.toNat) ∧ c.toNat ≤ 15 ∧ flagOf f.flags 7 = false ∧ s.sys.mode.isRunLimpWork = true ∧ (s.canCh c.toNat).mode = .stopped ∧ f.wake.toNat ≤ 2 ∧ canTimingOk f = false) ∧
  (∃ (s : State) (r : Req) (p : Port) (c : Byte) (f : CanRecord),
    Requested s r p 36 ∧ p.mayUse (s.canOwner c.toNat) ∧ c.toNat ≤ 15 ∧ flagOf f.flags 7 = false ∧ s.sys.mode.isRunLimpWork = true ∧ (s.canCh c.toNat).mode ≠ .stopped) ∧
  (∃ (s : State) (r : Req) (p : Port) (c : Byte),
    Requested s r p 4 ∧ p.mayUse (s.canOwner c.toNat) ∧ c.toNat ≤ 15 ∧ s.sys.mode.isRunLimpWork = true ∧ (s.canCh c.toNat).mode = .stopped) ∧
  (∃ (s : State) (r : Req) (p : Port) (c : Byte),
    Requested s r p 4 ∧ p.mayUse (s.canOwner c.toNat) ∧ c.toNat ≤ 15 ∧ s.sys.mode.isRunLimpWork = true ∧ (s.canCh c.toNat).mode ≠ .stopped) ∧
  (∃ (s : State) (r : Req) (p : Port) (c : Byte),
    Requested s r p 4 ∧ p.mayUse (s.canOwner c.toNat) ∧ c.toNat ≤ 15 ∧ s.sys.mode.isRunLimpWork = true ∧ (s.canCh c.toNat).mode ≠ .stopped ∧ (s.canCh c.toNat).mode ≠ .busOff ∧ (s.canCh c.toNat).stopping = none ∧ (s.canCh c.toNat).attempt = none) ∧
  (∃ (s : State) (r : Req) (p : Port) (c : Byte) (a : CanAttempt),
    Requested s r p 4 ∧ p.mayUse (s.canOwner c.toNat) ∧ c.toNat ≤ 15 ∧ s.sys.mode.isRunLimpWork = true ∧ (s.canCh c.toNat).mode ≠ .stopped ∧ (s.canCh c.toNat).mode ≠ .busOff ∧ (s.canCh c.toNat).stopping = none ∧ (s.canCh c.toNat).attempt = some a) ∧
  (∃ (s : State) (r : Req) (p : Port) (c : Byte),
    Requested s r p 4 ∧ p.mayUse (s.canOwner c.toNat) ∧ c.toNat ≤ 15 ∧ s.sys.mode.isRunLimpWork = true ∧ (s.canCh c.toNat).mode = .busOff) ∧
  (∃ (s : State) (r : Req) (p : Port) (c : Byte),
    Requested s r p 4 ∧ p.mayUse (s.canOwner c.toNat) ∧ c.toNat ≤ 15 ∧ s.sys.mode.isRunLimpWork = true ∧ (s.canCh c.toNat).mode ≠ .busOff) ∧
  (∃ (s : State) (r : Req) (p : Port) (c k fl : Byte) (id mask : U32),
    Requested s r p 12 ∧ p.mayUse (s.canOwner c.toNat) ∧ c.toNat ≤ 15 ∧ flagOf fl 3 = false ∧ flagOf fl 7 = false ∧ k.toNat ≤ 63 ∧ id.toNat < 536870912 ∧ mask.toNat < 536870912 ∧ s.sys.mode.isRunLimpWork = true ∧ (k.toNat ≠ 63 ∨ s.nmOn c.toNat = false)) ∧
  (∃ (s : State) (r : Req) (p : Port) (c fl : Byte) (id mask : U32),
    Requested s r p 12 ∧ p.mayUse (s.canOwner c.toNat) ∧ c.toNat ≤ 15 ∧ flagOf fl 3 = false ∧ flagOf fl 7 = false ∧ id.toNat < 536870912 ∧ mask.toNat < 536870912 ∧ s.sys.mode.isRunLimpWork = true ∧ s.nmOn c.toNat = true) ∧
  (∃ (s : State) (r : Req) (p : Port) (c dlc fl : Byte) (id mask : U32) (dm : U64),
    Requested s r p 20 ∧ p.sysPriv = true ∧ c.toNat ≤ 15 ∧ fl.toNat ≤ 1 ∧ dlc.toNat ≤ 8 ∧ id.toNat < 536870912 ∧ mask.toNat < 536870912 ∧ s.sys.mode.isRunLimpWork = true) ∧
  (∃ (s : State) (r : Req) (p : Port) (c e : Byte),
    Requested s r p 4 ∧ p.mayUse (s.canOwner c.toNat) ∧ c.toNat ≤ 15 ∧ e.toNat ≤ 95 ∧ s.sys.mode.isRunLimpWork = true ∧ s.canSoftEntry c.toNat e.toNat = true ∧ e.toNat ∈ (s.canCh c.toNat).pending ∧ (s.canCh c.toNat).attempt = none) ∧
  (∃ (s : State) (r : Req) (p : Port) (c e : Byte),
    Requested s r p 4 ∧ p.mayUse (s.canOwner c.toNat) ∧ c.toNat ≤ 15 ∧ e.toNat ≤ 95 ∧ s.sys.mode.isRunLimpWork = true ∧ s.canSoftEntry c.toNat e.toNat = true ∧ e.toNat ∉ (s.canCh c.toNat).pending) ∧
  (∃ (s : State) (r : Req) (p : Port) (c role rank view : Byte) (base cycle : U16) (mc : Byte),
    Requested s r p 12 ∧ p.sysPriv = true ∧ c.toNat ≤ 15 ∧ role.toNat ≤ 2 ∧ rank.toNat ≤ 3 ∧ 6 ≤ view.toNat ∧ view.toNat ≤ 9 ∧ base.toNat ≤ 0x7FF ∧ 10 ≤ cycle.toNat ∧ cycle.toNat ≤ 1000 ∧ mc.toNat ≤ 63 ∧ s.sys.mode.isRunLimpWork = true ∧ (role.toNat = 0 ∨ s.tmBound c.toNat view.toNat = false)) ∧
  (∃ (s : State) (r : Req) (p : Port) (c role rank view : Byte) (base cycle : U16) (mc : Byte),
    Requested s r p 12 ∧ p.sysPriv = true ∧ c.toNat ≤ 15 ∧ 1 ≤ role.toNat ∧ role.toNat ≤ 2 ∧ rank.toNat ≤ 3 ∧ 6 ≤ view.toNat ∧ view.toNat ≤ 9 ∧ base.toNat ≤ 0x7FF ∧ 10 ≤ cycle.toNat ∧ cycle.toNat ≤ 1000 ∧ mc.toNat ≤ 63 ∧ s.sys.mode.isRunLimpWork = true ∧ s.tmBound c.toNat view.toNat = true) ∧
  (∃ (s : State) (r : Req) (p : Port) (c : Byte),
    Requested s r p 4 ∧ p.mayUse (s.canOwner c.toNat) ∧ c.toNat ≤ 15 ∧ s.step10 = true) ∧
  (∃ (s : State) (r : Req) (p : Port) (c clear : Byte),
    Requested s r p 4 ∧ p.mayUse (s.canOwner c.toNat) ∧ c.toNat ≤ 15 ∧ clear.toNat ≤ 1 ∧ s.step10 = true) :=
  ⟨⟨(let s : State := Wit.run; s.modCan (15 : Byte).toNat (fun y0 => { y0 with mode := .stopped })), ((Wit.req 36)), Wit.sys, 15, ({ flags := 0, wake := 0, nBrp := 4, nTseg1 := 127, nTseg2 := 32, nSjw := 32, d := Zero.canPhase, x := Zero.canPhase, tdcoFd := 0, tdcoXl := 0, pwms := 0, pwml := 0, pwmo := 0, sigTxb := 0 }),
    ⟨by decide +kernel, rfl, by decide +kernel, rfl⟩, (by first | exact Or.inl (by decide +kernel) | exact Or.inr ⟨by decide +kernel, by decide +kernel⟩), by decide +kernel⟩,
  ⟨(let s : State := Wit.run; s.modCan (15 : Byte).toNat (fun y0 => { y0 with mode := .stopped })), ((Wit.req 36)), Wit.sys, 15, Zero.canRecord,
    ⟨by decide +kernel, rfl, by decide +kernel, rfl⟩, (by first | exact Or.inl (by decide +kernel) | exact Or.inr ⟨by decide +kernel, by decide +kernel⟩), by decide +kernel⟩,
  ⟨Wit.run, ((Wit.req 36)), Wit.sys, 15, Zero.canRecord,
    ⟨by decide +kernel, rfl, by decide +kernel, rfl⟩, (by first | exact Or.inl (by decide +kernel) | exact Or.inr ⟨by decide +kernel, by decide +kernel⟩), by decide +kernel⟩,
  ⟨(let s : State := Wit.run; s.modCan (15 : Byte).toNat (fun y0 => { y0 with mode := .stopped })), ((Wit.req 4)), Wit.sys, 15,
    ⟨by decide +kernel, rfl, by decide +kernel, rfl⟩, (by first | exact Or.inl (by decide +kernel) | exact Or.inr ⟨by decide +kernel, by decide +kernel⟩), by decide +kernel⟩,
  ⟨Wit.run, ((Wit.req 4)), Wit.sys, 15,
    ⟨by decide +kernel, rfl, by decide +kernel, rfl⟩, (by first | exact Or.inl (by decide +kernel) | exact Or.inr ⟨by decide +kernel, by decide +kernel⟩), by decide +kernel⟩,
  ⟨(let s : State := Wit.run; let s : State := s.modCan (15 : Byte).toNat (fun y0 => { y0 with stopping := none }); s.modCan (15 : Byte).toNat (fun y0 => { y0 with attempt := none })), ((Wit.req 4)), Wit.sys, 15,
    ⟨by decide +kernel, rfl, by decide +kernel, rfl⟩, (by first | exact Or.inl (by decide +kernel) | exact Or.inr ⟨by decide +kernel, by decide +kernel⟩), by decide +kernel⟩,
  ⟨(let s : State := Wit.run; let s : State := s.modCan (15 : Byte).toNat (fun y0 => { y0 with stopping := none }); s.modCan (15 : Byte).toNat (fun y0 => { y0 with attempt := some (Zero.canAttempt : CanAttempt) })), ((Wit.req 4)), Wit.sys, 15, Zero.canAttempt,
    ⟨by decide +kernel, rfl, by decide +kernel, rfl⟩, (by first | exact Or.inl (by decide +kernel) | exact Or.inr ⟨by decide +kernel, by decide +kernel⟩), by decide +kernel⟩,
  ⟨(let s : State := Wit.run; s.modCan (15 : Byte).toNat (fun y0 => { y0 with mode := .busOff })), ((Wit.req 4)), Wit.sys, 15,
    ⟨by decide +kernel, rfl, by decide +kernel, rfl⟩, (by first | exact Or.inl (by decide +kernel) | exact Or.inr ⟨by decide +kernel, by decide +kernel⟩), by decide +kernel⟩,
  ⟨Wit.run, ((Wit.req 4)), Wit.sys, 15,
    ⟨by decide +kernel, rfl, by decide +kernel, rfl⟩, (by first | exact Or.inl (by decide +kernel) | exact Or.inr ⟨by decide +kernel, by decide +kernel⟩), by decide +kernel⟩,
  ⟨Wit.run, ((Wit.req 12)), Wit.sys, 15, 62, 0, 536870911, 536870911,
    ⟨by decide +kernel, rfl, by decide +kernel, rfl⟩, (by first | exact Or.inl (by decide +kernel) | exact Or.inr ⟨by decide +kernel, by decide +kernel⟩), by decide +kernel⟩,
  ⟨Wit.run, ((Wit.req 12)), Wit.sys, 15, 0, 536870911, 536870911,
    ⟨by decide +kernel, rfl, by decide +kernel, rfl⟩, (by first | exact Or.inl (by decide +kernel) | exact Or.inr ⟨by decide +kernel, by decide +kernel⟩), by decide +kernel⟩,
  ⟨Wit.run, ((Wit.req 20)), Wit.sys, 15, 8, 1, 536870911, 536870911, 0,
    ⟨by decide +kernel, rfl, by decide +kernel, rfl⟩, by decide +kernel⟩,
  ⟨(let s : State := Wit.run; let s : State := s.modCan (15 : Byte).toNat (fun y0 => { y0 with attempt := none }); s.modCan (15 : Byte).toNat (fun y0 => { y0 with pending := [40] })), ((Wit.req 4)), Wit.sys, 15, 40,
    ⟨by decide +kernel, rfl, by decide +kernel, rfl⟩, (by first | exact Or.inl (by decide +kernel) | exact Or.inr ⟨by decide +kernel, by decide +kernel⟩), by decide +kernel⟩,
  ⟨Wit.run, ((Wit.req 4)), Wit.sys, 15, 95,
    ⟨by decide +kernel, rfl, by decide +kernel, rfl⟩, (by first | exact Or.inl (by decide +kernel) | exact Or.inr ⟨by decide +kernel, by decide +kernel⟩), by decide +kernel⟩,
  ⟨Wit.run, ((Wit.req 12)), Wit.sys, 15, 2, 3, 9, 0, 1000, 63,
    ⟨by decide +kernel, rfl, by decide +kernel, rfl⟩, by decide +kernel⟩,
  ⟨(let s : State := Wit.run; s.modCan 9 (fun y0 => { y0 with tm := { y0.tm with role := 1, view := (9 : Byte).toNat } })), ((Wit.req 12)), Wit.sys, 3, 2, 3, 9, 0, 1000, 63,
    ⟨by decide +kernel, rfl, by decide +kernel, rfl⟩, by decide +kernel⟩,
  ⟨Wit.run, ((Wit.req 4)), Wit.sys, 15,
    ⟨by decide +kernel, rfl, by decide +kernel, rfl⟩, (by first | exact Or.inl (by decide +kernel) | exact Or.inr ⟨by decide +kernel, by decide +kernel⟩), by decide +kernel⟩,
  ⟨Wit.run, ((Wit.req 4)), Wit.sys, 15, 1,
    ⟨by decide +kernel, rfl, by decide +kernel, rfl⟩, (by first | exact Or.inl (by decide +kernel) | exact Or.inr ⟨by decide +kernel, by decide +kernel⟩), by decide +kernel⟩⟩

theorem witness_NetworkManagementActs :
  (∃ (c : Fin 16) (id : BitVec 11) (dlc : Fin 16) (d : List Byte) (s : State),
    (s.nmOn c.val = false ∨ (s.nmRing c.val).awake = false)) ∧
  (∃ (c : Fin 16) (id : BitVec 11) (dlc : Fin 16) (d : List Byte) (s : State),
    s.nmOn c.val = true ∧ (s.nmRing c.val).awake = true ∧ nmParse (s.nmRing c.val).record.base.toNat id.toNat dlc.val d = none) ∧
  (∃ (c : Fin 16) (id : BitVec 11) (dlc : Fin 16) (d : List Byte) (m : NmMsg) (s : State),
    s.nmOn c.val = true ∧ (s.nmRing c.val).awake = true ∧ nmParse (s.nmRing c.val).record.base.toNat id.toNat dlc.val d = some m) ∧
  (∃ (c : Fin 16) (s : State),
    ((s.nmRing c.val).holding = false ∨ (s.nmRing c.val).sleeping = true)) ∧
  (∃ (c : Fin 16) (k : Nat) (s : State),
    s.nmOn c.val = true ∧ (s.nmRing c.val).holding = true ∧ (s.nmRing c.val).sleeping = false ∧ lowestNode (s.nmRing c.val).present ≠ some (s.nmRing c.val).me ∧ ((s.canCh c.val).txE 31).own = false ∧ k = ((nextNode (s.nmRing c.val).present (s.nmRing c.val).me).orElse (fun _ => lowestNode (s.nmRing c.val).present)).getD (s.nmRing c.val).me) ∧
  (∃ (c : Fin 16) (k : Nat) (s : State),
    s.nmOn c.val = true ∧ (s.nmRing c.val).holding = true ∧ (s.nmRing c.val).sleeping = false ∧ lowestNode (s.nmRing c.val).present = some (s.nmRing c.val).me ∧ (s.nmRing c.val).sleepNext = false ∧ nextNode (s.nmRing c.val).present (s.nmRing c.val).me = some k) ∧
  (∃ (c : Fin 16) (s : State),
    s.nmOn c.val = true ∧ (s.nmRing c.val).holding = true ∧ (s.nmRing c.val).sleeping = false ∧ lowestNode (s.nmRing c.val).present = some (s.nmRing c.val).me ∧ (s.nmRing c.val).sleepNext = true) ∧
  (∃ (c : Fin 16) (s : State),
    (s.nmRing c.val).forming = false) ∧
  (∃ (c : Fin 16) (s : State),
    s.nmOn c.val = true ∧ (s.nmRing c.val).forming = true) ∧
  (∃ (c : Fin 16) (s : State),
    ((s.nmRing c.val).awaited = none ∨ (s.nmRing c.val).sleeping = true)) ∧
  (∃ (c : Fin 16) (k : Nat) (s : State),
    (s.nmRing c.val).awaited = some k ∧ s.nmOn c.val = true ∧ (s.nmRing c.val).sleeping = false) ∧
  (∃ (c : Fin 16) (s : State),
    ((s.nmRing c.val).awake = false ∨ (s.nmRing c.val).sleeping = true)) ∧
  (∃ (c : Fin 16) (s : State),
    s.nmOn c.val = true ∧ (s.nmRing c.val).awake = true ∧ (s.nmRing c.val).sleeping = false) ∧
  (∃ (c : Fin 16) (s : State),
    s.nmOn c.val = true ∧ (s.nmRing c.val).sleeping = true) ∧
  (∃ (c : Fin 16) (s : State),
    (s.nmRing c.val).sleeping = false) ∧
  (∃ (c : Fin 16) (s : State),
    s.nmOn c.val = true ∧ (s.nmRing c.val).coordRole = true ∧ (s.nmRing c.val).awake = true ∧ (s.nmRing c.val).sleeping = false) ∧
  (∃ (c : Fin 16) (s : State),
    (s.nmRing c.val).coordRole = false) ∧
  (∃ (s : State) (r : Req) (p : Port) (c : Byte) (f : NmRecord),
    Requested s r p 20 ∧ p.sysPriv = true ∧ c.toNat ≤ 15 ∧ f.flags.toNat < 4 ∧ nmRecordOk f = true ∧ s.sys.mode.isRunLimpWork = true ∧ (s.canCh c.toNat).mode = .stopped ∧ (f.flags.getLsbD 0 = false ∨ s.nmTaken c.toNat = false)) ∧
  (∃ (s : State) (r : Req) (p : Port) (c : Byte) (f : NmRecord),
    Requested s r p 20 ∧ p.sysPriv = true ∧ c.toNat ≤ 15 ∧ f.flags.toNat < 4 ∧ nmRecordOk f = true ∧ s.sys.mode.isRunLimpWork = true ∧ (s.canCh c.toNat).mode ≠ .stopped) ∧
  (∃ (s : State) (r : Req) (p : Port) (c : Byte),
    Requested s r p 4 ∧ p.mayUse (s.canOwner c.toNat) ∧ c.toNat ≤ 15 ∧ s.sys.mode.isRunLimpWork = true ∧ s.nmOn c.toNat = true) ∧
  (∃ (s : State) (r : Req) (p : Port) (c : Byte),
    Requested s r p 4 ∧ p.mayUse (s.canOwner c.toNat) ∧ c.toNat ≤ 15 ∧ s.sys.mode.isRunLimpWork = true ∧ s.nmOn c.toNat = true) ∧
  (∃ (s : State) (r : Req) (p : Port) (c : Byte),
    Requested s r p 4 ∧ p.mayUse (s.canOwner c.toNat) ∧ c.toNat ≤ 15 ∧ s.sys.mode.isRunLimpWork = true ∧ s.nmOn c.toNat = false) ∧
  (∃ (s : State) (r : Req) (p : Port) (c : Byte) (m : U16),
    Requested s r p 4 ∧ p.sysPriv = true ∧ c.toNat ≤ 15 ∧ 1 ≤ m.toNat ∧ m.toNat ≤ 14400 ∧ s.sys.mode.isRunLimpWork = true ∧ s.nmOn c.toNat = true) ∧
  (∃ (s : State) (r : Req) (p : Port) (c : Byte),
    Requested s r p 4 ∧ c.toNat ≤ 15 ∧ s.step10 = true ∧ s.nmOn c.toNat = true) :=
  ⟨⟨0, 0, 0, ([]), Wit.run,
    by decide +kernel⟩,
  ⟨0, 0, 0, ([]), (let s : State := Wit.run; s.modNm (0 : Fin 16).val (fun y0 => { y0 with awake := true })),
    by decide +kernel⟩,
  ⟨0, ((((Wit.run.nmRing 0).record.base.toNat : Nat) : BitVec 11)), 8, ([0, 255, 0, 0, 0, 0, 0, 0]), ({ sender := 0, succ := none, consent := false, sleepInd := false, override := false, alive := false, coord := false, roundConsent := false, round := 0 }), (let s : State := Wit.run; s.modNm (0 : Fin 16).val (fun y0 => { y0 with awake := true })),
    by decide +kernel⟩,
  ⟨0, Wit.run,
    by decide +kernel⟩,
  ⟨0, (let s : State := (let s : State := Wit.run; let s : State := s.modNm (0 : Fin 16).val (fun y0 => { y0 with holding := true }); s.modNm (0 : Fin 16).val (fun y0 => { y0 with sleeping := false })); ((nextNode (s.nmRing (0 : Fin 16).val).present (s.nmRing (0 : Fin 16).val).me).orElse (fun _ => lowestNode (s.nmRing (0 : Fin 16).val).present)).getD (s.nmRing (0 : Fin 16).val).me), (let s : State := Wit.run; let s : State := s.modNm (0 : Fin 16).val (fun y0 => { y0 with holding := true }); s.modNm (0 : Fin 16).val (fun y0 => { y0 with sleeping := false })),
    by decide +kernel⟩,
  ⟨0, 1, (let s : State := Wit.run; let s : State := s.modNm (0 : Fin 16).val (fun y0 => { y0 with holding := true }); let s : State := s.modNm (0 : Fin 16).val (fun y0 => { y0 with sleeping := false }); let s : State := s.modNm (0 : Fin 16).val (fun y0 => { y0 with sleepNext := false }); s.modNm (0 : Fin 16).val (fun y0 => { y0 with present := 3 })),
    by decide +kernel⟩,
  ⟨0, (let s : State := Wit.run; let s : State := s.modNm (0 : Fin 16).val (fun y0 => { y0 with holding := true }); let s : State := s.modNm (0 : Fin 16).val (fun y0 => { y0 with sleeping := false }); let s : State := s.modNm (0 : Fin 16).val (fun y0 => { y0 with sleepNext := true }); s.modNm (0 : Fin 16).val (fun y0 => { y0 with present := 1 })),
    by decide +kernel⟩,
  ⟨0, (let s : State := Wit.run; s.modNm (0 : Fin 16).val (fun y0 => { y0 with forming := false })),
    by decide +kernel⟩,
  ⟨0, (let s : State := Wit.run; s.modNm (0 : Fin 16).val (fun y0 => { y0 with forming := true })),
    by decide +kernel⟩,
  ⟨0, Wit.run,
    by decide +kernel⟩,
  ⟨0, 0, (let s : State := Wit.run; let s : State := s.modNm (0 : Fin 16).val (fun y0 => { y0 with awaited := some (0 : Nat) }); s.modNm (0 : Fin 16).val (fun y0 => { y0 with sleeping := false })),
    by decide +kernel⟩,
  ⟨0, Wit.run,
    by decide +kernel⟩,
  ⟨0, (let s : State := Wit.run; let s : State := s.modNm (0 : Fin 16).val (fun y0 => { y0 with awake := true }); s.modNm (0 : Fin 16).val (fun y0 => { y0 with sleeping := false })),
    by decide +kernel⟩,
  ⟨0, (let s : State := Wit.run; s.modNm (0 : Fin 16).val (fun y0 => { y0 with sleeping := true })),
    by decide +kernel⟩,
  ⟨0, (let s : State := Wit.run; s.modNm (0 : Fin 16).val (fun y0 => { y0 with sleeping := false })),
    by decide +kernel⟩,
  ⟨0, (let s : State := Wit.run; let s : State := s.modNm (0 : Fin 16).val (fun y0 => { y0 with coordRole := true }); let s : State := s.modNm (0 : Fin 16).val (fun y0 => { y0 with awake := true }); s.modNm (0 : Fin 16).val (fun y0 => { y0 with sleeping := false })),
    by decide +kernel⟩,
  ⟨0, (let s : State := Wit.run; s.modNm (0 : Fin 16).val (fun y0 => { y0 with coordRole := false })),
    by decide +kernel⟩,
  ⟨(let s : State := Wit.run; s.modCan (15 : Byte).toNat (fun y0 => { y0 with mode := .stopped })), ((Wit.req 20)), Wit.sys, 15, ({ node := 1, flags := 1, base := 0x400, tToken := 100, tHop := 100, tMax := 10 }),
    ⟨by decide +kernel, rfl, by decide +kernel, rfl⟩, by decide +kernel⟩,
  ⟨Wit.run, ((Wit.req 20)), Wit.sys, 15, ({ node := 1, flags := 1, base := 0x400, tToken := 100, tHop := 100, tMax := 10 }),
    ⟨by decide +kernel, rfl, by decide +kernel, rfl⟩, by decide +kernel⟩,
  ⟨Wit.run, ((Wit.req 4)), Wit.sys, 15,
    ⟨by decide +kernel, rfl, by decide +kernel, rfl⟩, (by first | exact Or.inl (by decide +kernel) | exact Or.inr ⟨by decide +kernel, by decide +kernel⟩), by decide +kernel⟩,
  ⟨Wit.run, ((Wit.req 4)), Wit.sys, 15,
    ⟨by decide +kernel, rfl, by decide +kernel, rfl⟩, (by first | exact Or.inl (by decide +kernel) | exact Or.inr ⟨by decide +kernel, by decide +kernel⟩), by decide +kernel⟩,
  ⟨(let s : State := Wit.run; s.modNm (15 : Byte).toNat (fun y0 => { y0 with record := { y0.record with flags := 0 } })), ((Wit.req 4)), Wit.sys, 15,
    ⟨by decide +kernel, rfl, by decide +kernel, rfl⟩, (by first | exact Or.inl (by decide +kernel) | exact Or.inr ⟨by decide +kernel, by decide +kernel⟩), by decide +kernel⟩,
  ⟨Wit.run, ((Wit.req 4)), Wit.sys, 15, 14400,
    ⟨by decide +kernel, rfl, by decide +kernel, rfl⟩, by decide +kernel⟩,
  ⟨Wit.run, ((Wit.req 4)), Wit.sys, 15,
    ⟨by decide +kernel, rfl, by decide +kernel, rfl⟩, by decide +kernel⟩⟩

theorem witness_LinActs :
  (∃ (l : Fin 16) (s : State),
    (s.powered (pdLin (l.val / 4)) = false ∨ ((s.linCh l.val).mode = .stopped ∧ (s.linCh l.val).diag = none))) ∧
  (∃ (l : Fin 16) (e : LinEntry) (k : Nat) (s : State),
    s.powered (pdLin (l.val / 4)) = true ∧ (s.linCh l.val).mode = .running ∧ (s.linCh l.val).sleepReq = false ∧ (s.linCh l.val).diag = none ∧ (s.linCh l.val).back = none ∧ (s.linCh l.val).select = none ∧ k = (if (s.linCh l.val).next < ((s.linCh l.val).tables.getD [] (s.linCh l.val).table).length then (s.linCh l.val).next else 0) ∧ ((s.linCh l.val).tables.getD [] (s.linCh l.val).table)[k]? = some e ∧ e.typ = 0) ∧
  (∃ (l : Fin 16) (e : LinEntry) (s : State),
    s.powered (pdLin (l.val / 4)) = true ∧ (s.linCh l.val).mode = .running ∧ (s.linCh l.val).sleepReq = false ∧ (s.linCh l.val).diag = none ∧ (s.linCh l.val).back = none ∧ (s.linCh l.val).select = none ∧ ((s.linCh l.val).tables.getD [] (s.linCh l.val).table)[(s.linCh l.val).next]? = some e ∧ e.typ = 2 ∧ (s.linCh l.val).sporadic e.args = none) ∧
  (∃ (l : Fin 16) (s : State),
    s.powered (pdLin (l.val / 4)) = true ∧ (s.linCh l.val).mode = .running ∧ (s.linCh l.val).sleepReq = true) ∧
  (∃ (l : Fin 16) (d : LinDiag) (s : State),
    s.powered (pdLin (l.val / 4)) = true ∧ (s.linCh l.val).sleepReq = false ∧ (s.linCh l.val).diag = some d ∧ d.ended = false ∧ ((s.linCh l.val).mode = .running ∨ (s.linCh l.val).mode = .diag) ∧ d.sent = false) ∧
  (∃ (l : Fin 16) (k : Nat) (s : State),
    s.powered (pdLin (l.val / 4)) = true ∧ (s.linCh l.val).mode = .running ∧ (s.linCh l.val).sleepReq = false ∧ (s.linCh l.val).diag = none ∧ (s.linCh l.val).back = none ∧ (s.linCh l.val).select = some k ∧ k ≠ 255) ∧
  (∃ (l : Fin 16) (res : Fin 6) (d : List Byte) (s : State),
    (s.linCh l.val).slot = none) ∧
  (∃ (l : Fin 16) (res : Fin 6) (d : List Byte) (x : LinSlot) (s : State),
    (s.linCh l.val).slot = some x) ∧
  (∃ (l : Fin 16) (d : List Byte) (x : LinSlot) (s : State),
    (s.linCh l.val).slot = some x ∧ x.publish = false ∧ x.typ = 0 ∧ ((s.linCh l.val).frame x.id).dir = 2 ∧ ((s.linCh l.val).frame x.id).rxEn = true ∧ s.linOwner l.val = none ∧ ((s.linCh l.val).rx.getD .reset (s.linCh l.val).rxFill).word.getLsbD 31 = true) ∧
  (∃ (l : Fin 16) (s : State),
    (s.linCh l.val).mode = .waking) ∧
  (∃ (l : Fin 16) (s : State),
    (s.linCh l.val).mode ≠ .waking) ∧
  (∃ (l : Fin 16) (s : State),
    (s.linCh l.val).mode = .sleep ∧ flagOf (s.linCh l.val).record.flags 1 = true ∧ s.powered (pdLin (l.val / 4)) = true) ∧
  (∃ (l : Fin 16) (s : State),
    ((s.linCh l.val).mode ≠ .sleep ∨ flagOf (s.linCh l.val).record.flags 1 = false)) ∧
  (∃ (l : Fin 16) (s : State),
    ((s.linCh l.val).mode = .running ∨ (s.linCh l.val).mode = .diag ∨ (s.linCh l.val).mode = .waking)) ∧
  (∃ (l : Fin 16) (s : State),
    ((s.linCh l.val).mode = .stopped ∨ (s.linCh l.val).mode = .sleep)) ∧
  (∃ (l : Fin 16) (s : State),
    (s.linCh l.val).mode = .busFault) ∧
  (∃ (v : Fin 256) (l : Fin 16) (s : State),
    s.linBlock v.val l.val = true) ∧
  (∃ (v : Fin 256) (l : Fin 16) (s : State),
    s.linBlock v.val l.val = false) ∧
  (∃ (s : State) (r : Req) (p : Port) (l : Byte) (f : LinRecord),
    Requested s r p 12 ∧ p.mayUse (s.linOwner l.toNat) ∧ l.toNat ≤ 15 ∧ f.flags.toNat < 4 ∧ linRecordOk f = true ∧ s.sys.mode.isRunLimpWork = true ∧ ((s.linCh l.toNat).mode = .stopped ∨ (s.linCh l.toNat).mode = .sleep)) ∧
  (∃ (s : State) (r : Req) (p : Port) (l : Byte) (f : LinRecord),
    Requested s r p 12 ∧ p.mayUse (s.linOwner l.toNat) ∧ l.toNat ≤ 15 ∧ f.flags.toNat < 4 ∧ linRecordOk f = true ∧ s.sys.mode.isRunLimpWork = true ∧ (s.linCh l.toNat).mode = .running) ∧
  (∃ (s : State) (r : Req) (p : Port) (l k : Byte) (n : U16) (es : List LinEntry),
    Requested s r p (4 + 8 * n.toNat) ∧ p.mayUse (s.linOwner l.toNat) ∧ es.length = n.toNat ∧ l.toNat ≤ 15 ∧ es.all linEntryZero = true ∧ k.toNat ≤ 3 ∧ 1 ≤ n.toNat ∧ n.toNat ≤ 64 ∧ es.all linEntryRange = true ∧ s.sys.mode.isRunLimpWork = true ∧ (s.linCh l.toNat).mode = .stopped ∧ es.all (linDelayOk (s.linCh l.toNat)) = true ∧ (∀ e ∈ es, ¬(e.typ = 1 ∧ (e.args.getD 0 0).toNat = k.toNat))) ∧
  (∃ (s : State) (r : Req) (p : Port) (l k : Byte) (n : U16) (es : List LinEntry),
    Requested s r p (4 + 8 * n.toNat) ∧ p.mayUse (s.linOwner l.toNat) ∧ es.length = n.toNat ∧ l.toNat ≤ 15 ∧ es.all linEntryZero = true ∧ k.toNat ≤ 3 ∧ 1 ≤ n.toNat ∧ n.toNat ≤ 64 ∧ es.all linEntryRange = true ∧ s.sys.mode.isRunLimpWork = true ∧ (s.linCh l.toNat).mode = .stopped ∧ es.all (linDelayOk (s.linCh l.toNat)) = false) ∧
  (∃ (s : State) (r : Req) (p : Port) (l k : Byte),
    Requested s r p 4 ∧ p.mayUse (s.linOwner l.toNat) ∧ l.toNat ≤ 15 ∧ k.toNat ≤ 3 ∧ s.sys.mode.isRunLimpWork = true ∧ (s.linCh l.toNat).mode = .stopped) ∧
  (∃ (s : State) (r : Req) (p : Port) (l k : Byte),
    Requested s r p 4 ∧ p.mayUse (s.linOwner l.toNat) ∧ l.toNat ≤ 15 ∧ (k.toNat ≤ 3 ∨ k = 0xFF) ∧ s.sys.mode.isRunLimpWork = true ∧ (s.linCh l.toNat).mode = .running) ∧
  (∃ (s : State) (r : Req) (p : Port) (l k : Byte),
    Requested s r p 4 ∧ p.mayUse (s.linOwner l.toNat) ∧ l.toNat ≤ 15 ∧ (k.toNat ≤ 3 ∨ k = 0xFF) ∧ s.sys.mode.isRunLimpWork = true ∧ (s.linCh l.toNat).mode = .sleep) ∧
  (∃ (s : State) (r : Req) (p : Port) (l : Byte),
    Requested s r p 4 ∧ p.mayUse (s.linOwner l.toNat) ∧ l.toNat ≤ 15 ∧ s.sys.mode.isRunLimpWork = true ∧ (s.linCh l.toNat).mode = .sleep) ∧
  (∃ (s : State) (r : Req) (p : Port) (l : Byte),
    Requested s r p 4 ∧ p.mayUse (s.linOwner l.toNat) ∧ l.toNat ≤ 15 ∧ s.sys.mode.isRunLimpWork = true ∧ (s.linCh l.toNat).mode ≠ .sleep) ∧
  (∃ (s : State) (r : Req) (p : Port) (l : Byte),
    Requested s r p 4 ∧ p.mayUse (s.linOwner l.toNat) ∧ l.toNat ≤ 15 ∧ s.sys.mode.isRunLimpWork = true ∧ (s.linCh l.toNat).mode = .running) ∧
  (∃ (s : State) (r : Req) (p : Port) (l w : Byte) (d : U64),
    Requested s r p 12 ∧ p.mayUse (s.linOwner l.toNat) ∧ l.toNat ≤ 15 ∧ w.toNat ≤ 32 ∧ s.sys.mode.isRunLimpWork = true ∧ (s.linCh l.toNat).mode = .running ∧ (s.linCh l.toNat).diag = none) ∧
  (∃ (s : State) (r : Req) (p : Port) (l w : Byte) (d : U64),
    Requested s r p 12 ∧ p.mayUse (s.linOwner l.toNat) ∧ l.toNat ≤ 15 ∧ w.toNat ≤ 32 ∧ s.sys.mode.isRunLimpWork = true ∧ (s.linCh l.toNat).mode = .running ∧ (s.linCh l.toNat).diag.isSome = true) ∧
  (∃ (l : Fin 16) (d : LinDiag) (s : State),
    (s.linCh l.val).diag = some d ∧ d.ended = true) ∧
  (∃ (l : Fin 16) (s : State),
    (s.linCh l.val).diag = none) ∧
  (∃ (s : State) (r : Req) (p : Port) (l : Byte),
    Requested s r p 4 ∧ p.mayUse (s.linOwner l.toNat) ∧ l.toNat ≤ 15 ∧ s.step10 = true) :=
  ⟨⟨0, (let s : State := Wit.run; s.modLin (0 : Fin 16).val (fun y0 => { y0 with mode := .stopped })),
    by decide +kernel⟩,
  ⟨0, ({ Zero.linEntry with delay := 100 }), 0, (let s : State := Wit.run; let s : State := s.modLin (0 : Fin 16).val (fun y0 => { y0 with mode := .running }); let s : State := s.modLin (0 : Fin 16).val (fun y0 => { y0 with sleepReq := false }); let s : State := s.modLin (0 : Fin 16).val (fun y0 => { y0 with diag := none }); let s : State := s.modLin (0 : Fin 16).val (fun y0 => { y0 with back := none }); let s : State := s.modLin (0 : Fin 16).val (fun y0 => { y0 with select := none }); s.modLin (0 : Fin 16).val (fun y0 => { y0 with tables := ⟨[(y0.table, [({ Zero.linEntry with delay := 100 } : LinEntry)])]⟩ })),
    by decide +kernel⟩,
  ⟨0, ({ Zero.linEntry with typ := 2, delay := 100 }), (let s : State := Wit.run; let s : State := s.modLin (0 : Fin 16).val (fun y0 => { y0 with mode := .running }); let s : State := s.modLin (0 : Fin 16).val (fun y0 => { y0 with sleepReq := false }); let s : State := s.modLin (0 : Fin 16).val (fun y0 => { y0 with diag := none }); let s : State := s.modLin (0 : Fin 16).val (fun y0 => { y0 with back := none }); let s : State := s.modLin (0 : Fin 16).val (fun y0 => { y0 with select := none }); s.modLin (0 : Fin 16).val (fun y0 => { y0 with tables := ⟨[(y0.table, [({ Zero.linEntry with typ := 2, delay := 100 } : LinEntry)])]⟩ })),
    by decide +kernel⟩,
  ⟨0, (let s : State := Wit.run; let s : State := s.modLin (0 : Fin 16).val (fun y0 => { y0 with mode := .running }); s.modLin (0 : Fin 16).val (fun y0 => { y0 with sleepReq := true })),
    by decide +kernel⟩,
  ⟨0, Zero.linDiag, (let s : State := Wit.run; let s : State := s.modLin (0 : Fin 16).val (fun y0 => { y0 with sleepReq := false }); s.modLin (0 : Fin 16).val (fun y0 => { y0 with diag := some (Zero.linDiag : LinDiag) })),
    by decide +kernel⟩,
  ⟨0, 0, (let s : State := Wit.run; let s : State := s.modLin (0 : Fin 16).val (fun y0 => { y0 with mode := .running }); let s : State := s.modLin (0 : Fin 16).val (fun y0 => { y0 with sleepReq := false }); let s : State := s.modLin (0 : Fin 16).val (fun y0 => { y0 with diag := none }); let s : State := s.modLin (0 : Fin 16).val (fun y0 => { y0 with back := none }); s.modLin (0 : Fin 16).val (fun y0 => { y0 with select := some (0 : Nat) })),
    by decide +kernel⟩,
  ⟨0, 0, ([]), (let s : State := Wit.run; s.modLin (0 : Fin 16).val (fun y0 => { y0 with slot := none })),
    by decide +kernel⟩,
  ⟨0, 0, ([]), Zero.linSlot, (let s : State := Wit.run; s.modLin (0 : Fin 16).val (fun y0 => { y0 with slot := some (Zero.linSlot : LinSlot) })),
    by decide +kernel⟩,
  ⟨0, ([]), Zero.linSlot, (let s : State := Wit.run; let s : State := s.modLin (0 : Fin 16).val (fun y0 => { y0 with slot := some (Zero.linSlot : LinSlot) }); let s : State := s.modLin (0 : Fin 16).val (fun y0 => { y0 with frames := ⟨[((Zero.linSlot : LinSlot).id, { Zero.linFrame with ctl := 0x90000000 })]⟩ }); { s with vz := { s.vz with vzfs := ⟨[]⟩ } }),
    by decide +kernel⟩,
  ⟨0, (let s : State := Wit.run; s.modLin (0 : Fin 16).val (fun y0 => { y0 with mode := .waking })),
    by decide +kernel⟩,
  ⟨0, Wit.run,
    by decide +kernel⟩,
  ⟨0, (let s : State := Wit.run; s.modLin (0 : Fin 16).val (fun y0 => { y0 with mode := .sleep })),
    by decide +kernel⟩,
  ⟨0, Wit.run,
    by decide +kernel⟩,
  ⟨0, Wit.run,
    by decide +kernel⟩,
  ⟨0, (let s : State := Wit.run; s.modLin (0 : Fin 16).val (fun y0 => { y0 with mode := .stopped })),
    by decide +kernel⟩,
  ⟨0, (let s : State := Wit.run; s.modLin (0 : Fin 16).val (fun y0 => { y0 with mode := .busFault })),
    by decide +kernel⟩,
  ⟨1, 0, Wit.run,
    by decide +kernel⟩,
  ⟨2, 0, Wit.run,
    by decide +kernel⟩,
  ⟨(let s : State := Wit.run; s.modLin (15 : Byte).toNat (fun y0 => { y0 with mode := .stopped })), ((Wit.req 12)), Wit.sys, 15, ({ rate := 19200, brk := 13, flags := 0, tWake := 250, table0 := 0xFF, p2 := 50 }),
    ⟨by decide +kernel, rfl, by decide +kernel, rfl⟩, (by first | exact Or.inl (by decide +kernel) | exact Or.inr ⟨by decide +kernel, by decide +kernel⟩), by decide +kernel⟩,
  ⟨(let s : State := Wit.run; s.modLin (15 : Byte).toNat (fun y0 => { y0 with mode := .running })), ((Wit.req 12)), Wit.sys, 15, ({ rate := 19200, brk := 13, flags := 0, tWake := 250, table0 := 0xFF, p2 := 50 }),
    ⟨by decide +kernel, rfl, by decide +kernel, rfl⟩, (by first | exact Or.inl (by decide +kernel) | exact Or.inr ⟨by decide +kernel, by decide +kernel⟩), by decide +kernel⟩,
  ⟨(let s : State := Wit.run; let s : State := s.modLin (15 : Byte).toNat (fun y0 => { y0 with mode := .stopped }); s.modLin (15 : Byte).toNat (fun y0 => { y0 with record := { y0.record with rate := 19200 } })), ((Wit.req (4 + 8 * (1 : U16).toNat))), Wit.sys, 15, 3, 1, ([{ Zero.linEntry with delay := 1000 }]),
    ⟨by decide +kernel, rfl, by decide +kernel, rfl⟩, (by first | exact Or.inl (by decide +kernel) | exact Or.inr ⟨by decide +kernel, by decide +kernel⟩), by decide +kernel⟩,
  ⟨(let s : State := Wit.run; let s : State := s.modLin (15 : Byte).toNat (fun y0 => { y0 with mode := .stopped }); s.modLin (15 : Byte).toNat (fun y0 => { y0 with record := { y0.record with rate := 19200 } })), ((Wit.req (4 + 8 * (1 : U16).toNat))), Wit.sys, 15, 3, 1, ([{ Zero.linEntry with delay := 10 }]),
    ⟨by decide +kernel, rfl, by decide +kernel, rfl⟩, (by first | exact Or.inl (by decide +kernel) | exact Or.inr ⟨by decide +kernel, by decide +kernel⟩), by decide +kernel⟩,
  ⟨(let s : State := Wit.run; s.modLin (15 : Byte).toNat (fun y0 => { y0 with mode := .stopped })), ((Wit.req 4)), Wit.sys, 15, 3,
    ⟨by decide +kernel, rfl, by decide +kernel, rfl⟩, (by first | exact Or.inl (by decide +kernel) | exact Or.inr ⟨by decide +kernel, by decide +kernel⟩), by decide +kernel⟩,
  ⟨(let s : State := Wit.run; s.modLin (15 : Byte).toNat (fun y0 => { y0 with mode := .running })), ((Wit.req 4)), Wit.sys, 15, 0,
    ⟨by decide +kernel, rfl, by decide +kernel, rfl⟩, (by first | exact Or.inl (by decide +kernel) | exact Or.inr ⟨by decide +kernel, by decide +kernel⟩), by decide +kernel⟩,
  ⟨(let s : State := Wit.run; s.modLin (15 : Byte).toNat (fun y0 => { y0 with mode := .sleep })), ((Wit.req 4)), Wit.sys, 15, 0,
    ⟨by decide +kernel, rfl, by decide +kernel, rfl⟩, (by first | exact Or.inl (by decide +kernel) | exact Or.inr ⟨by decide +kernel, by decide +kernel⟩), by decide +kernel⟩,
  ⟨(let s : State := Wit.run; s.modLin (15 : Byte).toNat (fun y0 => { y0 with mode := .sleep })), ((Wit.req 4)), Wit.sys, 15,
    ⟨by decide +kernel, rfl, by decide +kernel, rfl⟩, (by first | exact Or.inl (by decide +kernel) | exact Or.inr ⟨by decide +kernel, by decide +kernel⟩), by decide +kernel⟩,
  ⟨Wit.run, ((Wit.req 4)), Wit.sys, 15,
    ⟨by decide +kernel, rfl, by decide +kernel, rfl⟩, (by first | exact Or.inl (by decide +kernel) | exact Or.inr ⟨by decide +kernel, by decide +kernel⟩), by decide +kernel⟩,
  ⟨(let s : State := Wit.run; s.modLin (15 : Byte).toNat (fun y0 => { y0 with mode := .running })), ((Wit.req 4)), Wit.sys, 15,
    ⟨by decide +kernel, rfl, by decide +kernel, rfl⟩, (by first | exact Or.inl (by decide +kernel) | exact Or.inr ⟨by decide +kernel, by decide +kernel⟩), by decide +kernel⟩,
  ⟨(let s : State := Wit.run; let s : State := s.modLin (15 : Byte).toNat (fun y0 => { y0 with mode := .running }); s.modLin (15 : Byte).toNat (fun y0 => { y0 with diag := none })), ((Wit.req 12)), Wit.sys, 15, 32, 0,
    ⟨by decide +kernel, rfl, by decide +kernel, rfl⟩, (by first | exact Or.inl (by decide +kernel) | exact Or.inr ⟨by decide +kernel, by decide +kernel⟩), by decide +kernel⟩,
  ⟨(let s : State := Wit.run; let s : State := s.modLin (15 : Byte).toNat (fun y0 => { y0 with mode := .running }); s.modLin (15 : Byte).toNat (fun y0 => { y0 with diag := some Zero.linDiag })), ((Wit.req 12)), Wit.sys, 15, 32, 0,
    ⟨by decide +kernel, rfl, by decide +kernel, rfl⟩, (by first | exact Or.inl (by decide +kernel) | exact Or.inr ⟨by decide +kernel, by decide +kernel⟩), by decide +kernel⟩,
  ⟨0, ({ Zero.linDiag with ended := true }), (let s : State := Wit.run; s.modLin (0 : Fin 16).val (fun y0 => { y0 with diag := some ({ Zero.linDiag with ended := true } : LinDiag) })),
    by decide +kernel⟩,
  ⟨0, (let s : State := Wit.run; s.modLin (0 : Fin 16).val (fun y0 => { y0 with diag := none })),
    by decide +kernel⟩,
  ⟨Wit.run, ((Wit.req 4)), Wit.sys, 15,
    ⟨by decide +kernel, rfl, by decide +kernel, rfl⟩, (by first | exact Or.inl (by decide +kernel) | exact Or.inr ⟨by decide +kernel, by decide +kernel⟩), by decide +kernel⟩⟩

theorem witness_RegisterWritesAct :
  (∃ (v : Fin 256) (o : U16) (s : State),
    s.winMapped v.val o.toNat = false) ∧
  (∃ (v : Fin 256) (o : U16) (s : State),
    s.winMapped v.val o.toNat = true) ∧
  (∃ (v : Fin 256) (o : U16) (w : U32) (s : State),
    s.winMapped v.val o.toNat = false) ∧
  (∃ (v : Fin 256) (o : U16) (w : U32) (s : State),
    s.winMapped v.val o.toNat = true ∧ 0xE400 ≤ o.toNat ∧ o.toNat < 0xE800) ∧
  (∃ (v : Fin 256) (o : U16) (w : U32) (x : EvVector) (s : State),
    s.winMapped v.val o.toNat = true ∧ 0xE000 ≤ o.toNat ∧ o.toNat < 0xE400 ∧ o.toNat % 16 = 0 ∧ x = (s.vzf v.val).vectors.getD .reset ((o.toNat - 0xE000) / 16) ∧ x.pend = false) ∧
  (∃ (c : Fin 16) (e : Fin 512) (k : Fin 24) (w : U32) (s : State),
    k.val ≠ 0 ∧ ((s.canCh c.val).rxE e.val).own = false) ∧
  (∃ (c : Fin 16) (e : Fin 512) (k : Fin 24) (w : U32) (s : State),
    k.val ≠ 0 ∧ ((s.canCh c.val).rxE e.val).own = true) ∧
  (∃ (c : Fin 16) (e : Fin 512) (k : Fin 24) (w : U32) (s : State),
    k.val ≠ 0 ∧ e.val ≤ 95 ∧ s.canSoftEntry c.val e.val = true ∧ ((s.canCh c.val).txE e.val).own = false) ∧
  (∃ (c : Fin 16) (b : Fin 64) (k : Fin 512) (w : U32) (s : State),
    (s.canCh c.val).xlOwned b.val = false) ∧
  (∃ (c : Fin 16) (b : Fin 64) (k : Fin 512) (w : U32) (s : State),
    (s.canCh c.val).xlOwned b.val = true) ∧
  (∃ (l : Fin 16) (id : Fin 64) (k : Fin 8) (w : U32) (s : State),
    id.val < 60) ∧
  (∃ (l : Fin 16) (id : Fin 64) (k : Fin 8) (w : U32) (s : State),
    60 ≤ id.val) ∧
  (∃ (l : Fin 16) (e : Fin 64) (k : Fin 4) (w : U32) (s : State),
    ((s.linCh l.val).rx.getD .reset e.val).word.getLsbD 31 = false) ∧
  (∃ (l : Fin 16) (e : Fin 64) (k : Fin 4) (w : U32) (s : State),
    ((s.linCh l.val).rx.getD .reset e.val).word.getLsbD 31 = true) ∧
  (∃ (p : Fin 4) (k : Fin 131072) (w : U32) (s : State),
    Memory.wf (s.pair p.val).tcm = true) :=
  ⟨⟨1, 0x800, Wit.run,
    by decide +kernel⟩,
  ⟨1, 0, Wit.run,
    by decide +kernel⟩,
  ⟨1, 0x800, 0, Wit.run,
    by decide +kernel⟩,
  ⟨1, 0xE404, 0, Wit.run,
    by decide +kernel⟩,
  ⟨1, 0xE000, 0, (let s : State := (let s : State := Wit.run; { s with vz := { s.vz with vzfs := ⟨[(1, { Wit.vzf with tpl := { Wit.tpl with nVec := 1 } })]⟩ } }); (s.vzf (1 : Fin 256).val).vectors.getD .reset (((0xE000 : U16).toNat - 0xE000) / 16)), (let s : State := Wit.run; { s with vz := { s.vz with vzfs := ⟨[(1, { Wit.vzf with tpl := { Wit.tpl with nVec := 1 } })]⟩ } }),
    by decide +kernel⟩,
  ⟨0, 0, 1, 0, (let s : State := Wit.run; s.modCan (0 : Fin 16).val (fun y0 => { y0 with rx := ⟨[((0 : Fin 512).val, { CanEntry.rx with ctl := 0 })]⟩ })),
    by decide +kernel⟩,
  ⟨0, 0, 1, 0, Wit.run,
    by decide +kernel⟩,
  ⟨0, 95, 1, 0, Wit.run,
    by decide +kernel⟩,
  ⟨0, 0, 0, 0, Wit.run,
    by decide +kernel⟩,
  ⟨0, 40, 0, 0, Wit.run,
    by decide +kernel⟩,
  ⟨0, 59, 0, 0, Wit.run,
    by decide +kernel⟩,
  ⟨0, 60, 0, 0, Wit.run,
    by decide +kernel⟩,
  ⟨0, 0, 0, 0, (let s : State := Wit.run; s.modLin (0 : Fin 16).val (fun y0 => { y0 with rx := ⟨[((0 : Fin 64).val, { Zero.linRx with word := 0 })]⟩ })),
    by decide +kernel⟩,
  ⟨0, 0, 0, 0, Wit.run,
    by decide +kernel⟩,
  ⟨0, 0, 0, Wit.run,
    by decide +kernel⟩⟩

theorem witness_StepTakesTheFrontCommand :
  (∃ (c : Instr) (rest : List Instr) (s : State),
    s.pending = c :: rest) :=
  ⟨.logicSupplyValid, ([]), (let s : State := Wit.run; { s with pending := (.logicSupplyValid : Instr) :: ([] : List Instr) }),
    by decide +kernel⟩

theorem witness_IdleStepTicks :
  (∃ (s : State),
    s.pending = [] ∧ s.tbPowered = false) ∧
  (∃ (s : State),
    s.pending = [] ∧ s.tbPowered = true) ∧
  (∃ (a : AppState),
    a.machine.ie = false ∧ a.machine.active.getLsbD 1 = true ∧ a.supervisor.active.getLsbD 1 = false ∧ a.supervisor.pend.getLsbD 1 = false) ∧
  (∃ (a : AppState) (h f id : Nat),
    a.machine.ie = true ∧ a.machine.active.getLsbD 1 = true ∧ a.machine.en.getLsbD 1 = true ∧ a.machine.target.get? 1 = some (h, f, id) ∧ 1 ≤ id ∧ id ≤ 255 ∧ a.supervisor.active.getLsbD 1 = false ∧ a.supervisor.pend.getLsbD 1 = false) :=
  ⟨⟨(let s : State := State.reset; { s with pending := [] }),
    by decide +kernel⟩,
  ⟨(let s : State := Wit.run; { s with pending := [] }),
    by decide +kernel⟩,
  ⟨({ AppState.reset with machine := { Aplic.reset with active := 2 } }),
    by decide +kernel⟩,
  ⟨({ AppState.reset with machine := { ie := true, active := 2, en := 2, pend := 0, target := ⟨[(1, (3, 0, 9))]⟩ } }), 3, 0, 9,
    by decide +kernel⟩⟩

theorem witness_TrapsStackAndMretUnstacks :
  (∃ (pair : Fin 4) (regs : CoreRegs) (pmp : List PmpRegion) (cause tval ptr : U32) (user : Bool) (s : State),
    (s.pair pair.val).retired = false ∧ (s.pair pair.val).halted = false ∧ (s.pair pair.val).xstk.en = true ∧ ptr = (if user then (s.pair pair.val).xstk.msp else regs.sp) ∧ stackFault pmp ptr.toNat = none) ∧
  (∃ (pair : Fin 4) (regs : CoreRegs) (pmp : List PmpRegion) (s : State) (w : Nat → U32),
    (∀ o, w o = memRead32 (s.pair pair.val).tcm (regs.sp.toNat + o)) ∧ (s.pair pair.val).retired = false ∧ (s.pair pair.val).halted = false ∧ (s.pair pair.val).xstk.en = true ∧ frameOk pmp regs.sp.toNat = true ∧ (toUser (w 4) = false ∨ (s.pair pair.val).xstk.partStop.getLsbD ((s.pair pair.val).xstk.partId % 4) = false)) ∧
  (∃ (pair : Fin 4) (regs : CoreRegs) (pmp : List PmpRegion) (s : State),
    (s.pair pair.val).retired = false ∧ (s.pair pair.val).halted = false ∧ (s.pair pair.val).xstk.en = true ∧ (s.pair pair.val).xstk.efb = false ∧ frameOk pmp regs.sp.toNat = false) :=
  ⟨⟨0, ({ Zero.coreRegs with sp := 160 }), ([{ base := 0, size := 4096, readable := true, writable := true, tcm := true }]), 0, 0, (let s : State := (let s : State := Wit.run; let s : State := s.modPair (0 : Fin 4).val (fun y0 => { y0 with retired := false }); let s : State := s.modPair (0 : Fin 4).val (fun y0 => { y0 with halted := false }); s.modPair (0 : Fin 4).val (fun y0 => { y0 with xstk := { y0.xstk with en := true } })); (if (false : Bool) then (s.pair (0 : Fin 4).val).xstk.msp else ({ Zero.coreRegs with sp := 160 } : CoreRegs).sp)), false, (let s : State := Wit.run; let s : State := s.modPair (0 : Fin 4).val (fun y0 => { y0 with retired := false }); let s : State := s.modPair (0 : Fin 4).val (fun y0 => { y0 with halted := false }); s.modPair (0 : Fin 4).val (fun y0 => { y0 with xstk := { y0.xstk with en := true } })),
    by decide +kernel⟩,
  ⟨0, ({ Zero.coreRegs with sp := 160 }), ([{ base := 0, size := 4096, readable := true, writable := true, tcm := true }]), (let s : State := Wit.run; let s : State := s.modPair (0 : Fin 4).val (fun y0 => { y0 with retired := false }); let s : State := s.modPair (0 : Fin 4).val (fun y0 => { y0 with halted := false }); s.modPair (0 : Fin 4).val (fun y0 => { y0 with xstk := { y0.xstk with en := true } })), (let s : State := (let s : State := Wit.run; let s : State := s.modPair (0 : Fin 4).val (fun y0 => { y0 with retired := false }); let s : State := s.modPair (0 : Fin 4).val (fun y0 => { y0 with halted := false }); s.modPair (0 : Fin 4).val (fun y0 => { y0 with xstk := { y0.xstk with en := true } })); fun o => memRead32 (s.pair (0 : Fin 4).val).tcm (({ Zero.coreRegs with sp := 160 } : CoreRegs).sp.toNat + o)),
    (fun _ => rfl), by decide +kernel⟩,
  ⟨0, Zero.coreRegs, ([]), (let s : State := Wit.run; let s : State := s.modPair (0 : Fin 4).val (fun y0 => { y0 with retired := false }); let s : State := s.modPair (0 : Fin 4).val (fun y0 => { y0 with halted := false }); let s : State := s.modPair (0 : Fin 4).val (fun y0 => { y0 with xstk := { y0.xstk with en := true } }); s.modPair (0 : Fin 4).val (fun y0 => { y0 with xstk := { y0.xstk with efb := false } })),
    by decide +kernel⟩⟩

theorem witness_StagingSparesTheLastGoodSet :
  (∃ (cls total : Nat) (set : List Bool) (s : State),
    cls < 6 ∧ s.upd.lastGood = some set ∧ s.upd.open_ = none ∧ s.upd.verifying = none) ∧
  (∃ (v : Verifying) (f : VerifyFacts) (bank : Bank) (s : State) (cls : Nat) (b : Bool),
    s.upd.verifying = some v ∧ v.target.target < 6 ∧ cls < 6 ∧ (cls, b) ≠ (v.target.target, v.target.second)) :=
  ⟨⟨5, 0, ([]), (let s : State := Wit.run; let s : State := { s with upd := { s.upd with lastGood := some ([] : List Bool) } }; let s : State := { s with upd := { s.upd with open_ := none } }; { s with upd := { s.upd with verifying := none } }),
    by decide +kernel⟩,
  ⟨Zero.verifying, Zero.verifyFacts, Zero.bank, (let s : State := Wit.run; { s with upd := { s.upd with verifying := some (Zero.verifying : Verifying) } }), 5, false,
    by decide +kernel⟩⟩

/-! ### Witnesses of the statements over all commands -/

theorem witness_ChecksComeInTheOrderOfR72 :
  (∃ (r : Req) (c : Cmd) (s : State) (p : Port), s.port? r.port = some p ∧ r.version ≠ 1 ∧ c.lenOk = true) ∧
  (∃ (r : Req) (c : Cmd) (s : State) (p : Port), s.port? r.port = some p ∧ r.version = 1 ∧ c.lenOk = false) ∧
  (∃ (r : Req) (c : Cmd) (s : State) (p : Port) (st : U16), s.port? r.port = some p ∧ r.version = 1 ∧ c.lenOk = true ∧ c.need.check p = some st) ∧
  (∃ (r : Req) (c : Cmd) (s : State) (p : Port), s.port? r.port = some p ∧ r.version = 1 ∧ c.lenOk = true ∧ c.need.check p = none ∧
    r.resvZero = false) ∧
  (∃ (r : Req) (c : Cmd) (s : State) (p : Port) (st : U16), s.port? r.port = some p ∧ r.version = 1 ∧ c.lenOk = true ∧ c.need.check p = none ∧
    r.resvZero = true ∧ c.payload = some st) ∧
  (∃ (r : Req) (c : Cmd) (s : State) (p : Port), s.port? r.port = some p ∧ r.version = 1 ∧ c.lenOk = true ∧ c.need.check p = none ∧
    r.resvZero = true ∧ c.payload = none ∧ c.modeOk = false) ∧
  (∃ (r : Req) (c : Cmd) (s : State) (p : Port), s.port? r.port = some p ∧ r.version = 1 ∧ c.lenOk = true ∧ c.need.check p = none ∧
    r.resvZero = true ∧ c.payload = none ∧ c.modeOk = true) ∧
  (∃ (r : Req) (s : State) (p : Port) (v : Nat), s.port? r.port = some p ∧ p.sysPriv = false ∧ p.vzf = some v) ∧
  (∃ (r : Req) (s : State) (p : Port) (v : Nat), s.port? r.port = some p ∧ p.sysPriv = false ∧ p.vzf ≠ some v) :=
  ⟨⟨{ Wit.req 0 with version := 2 }, Wit.cmd, Wit.run, Wit.sys, by decide +kernel, by decide +kernel, rfl⟩,
   ⟨Wit.req 0, { Wit.cmd with lenOk := false }, Wit.run, Wit.sys, by decide +kernel, rfl, rfl⟩,
   ⟨{ Wit.req 0 with port := 1 }, Wit.cmd, Wit.run, Wit.own, stat_denied, by decide +kernel, rfl, rfl, by decide +kernel⟩,
   ⟨{ Wit.req 0 with resvZero := false }, Wit.cmd, Wit.run, Wit.sys, by decide +kernel, rfl, rfl, by decide +kernel, rfl⟩,
   ⟨Wit.req 0, { Wit.cmd with payload := some stat_range }, Wit.run, Wit.sys, stat_range, by decide +kernel, rfl, rfl, by decide +kernel, rfl, rfl⟩,
   ⟨Wit.req 0, { Wit.cmd with modeOk := false }, Wit.run, Wit.sys, by decide +kernel, rfl, rfl, by decide +kernel, rfl, rfl, rfl⟩,
   ⟨Wit.req 0, Wit.cmd, Wit.run, Wit.sys, by decide +kernel, rfl, rfl, by decide +kernel, rfl, rfl, rfl⟩,
   ⟨{ Wit.req 0 with port := 1 }, Wit.run, Wit.own, 1, by decide +kernel, rfl, rfl⟩,
   ⟨{ Wit.req 0 with port := 1 }, Wit.run, Wit.own, 2, by decide +kernel, rfl, by decide +kernel⟩⟩

theorem witness_StepKeepsTheBuffersCanonical : ∃ s t : State, s.Canonical ∧ step s = .next t ∧ s.sys.phase = .running :=
  ⟨Wit.bare, tick Wit.bare, Wit.canonical, rfl, rfl⟩

theorem witness_SelfArrestLastsWhileTheLogicRuns :
  ∃ s t : State, s.rfx.arrested = true ∧ s.sys.phase = .running ∧ step s = .next t :=
  ⟨{ Wit.run with rfx := { Wit.run.rfx with arrested := true } }, tick { Wit.run with rfx := { Wit.run.rfx with arrested := true } }, rfl, rfl, rfl⟩

theorem witness_SecurityMinimaNeverFall : ∃ (s t : State) (cls : Nat), step s = .next t ∧ cls < 6 :=
  ⟨Wit.run, tick Wit.run, 0, rfl, by decide⟩

theorem witness_TimeBaseCountsAsTable13_1 :
  (∃ (f : StartFacts) (s : State), s.sys.phase = .waiting ∧ s.sys.mode = .startup ∧ s.sys.dieHot = false ∧ s.sys.porPending = true ∧ f = f) ∧
  (∃ (c : Instr) (s t : State), exec c s = .next t) ∧
  (∃ s : State, s.pending = [] ∧ s.sys.phase ≠ .unpowered ∧ s.sys.bivouac ≠ .asleep ∧ s.sys.fromBivouac = false ∧ s.sys.rootLock = true ∧
    s.sys.onRef = false) ∧
  (∃ s : State, s.pending = [] ∧ s.sys.phase ≠ .unpowered ∧ s.sys.bivouac ≠ .asleep ∧ s.sys.fromBivouac = false ∧ s.sys.onRef = true) ∧
  (∃ s : State, s.pending = [] ∧ s.sys.phase ≠ .unpowered ∧ (s.sys.bivouac = .asleep ∨ s.sys.fromBivouac = true)) ∧
  (∃ s t : State, s.tb.count.toNat + 18311 < 2 ^ 64 ∧ step s = .next t ∧
    (∀ f rest, s.pending = .resetRelease f :: rest → s.sys.porPending = false)) :=
  ⟨⟨Zero.startFacts, { Wit.run with sys := { Wit.run.sys with phase := .waiting, mode := .startup, porPending := true } }, rfl, rfl, rfl, rfl, rfl⟩,
   ⟨.logicSupplyValid, State.reset, _, rfl⟩,
   ⟨Wit.run, rfl, by decide +kernel, by decide +kernel, rfl, rfl, rfl⟩,
   ⟨{ Wit.run with sys := { Wit.run.sys with onRef := true } }, rfl, by decide +kernel, by decide +kernel, rfl, rfl⟩,
   ⟨{ Wit.run with sys := { Wit.run.sys with fromBivouac := true } }, rfl, by decide +kernel, .inr rfl⟩,
   ⟨Wit.run, tick Wit.run, by decide +kernel, rfl, fun _ _ h => nomatch h⟩⟩

theorem witness_KeySlotsChangeOnlyByTheirCommands : ∃ (c : Instr) (s t : State), exec c s = .next t ∧ t.key.slots ≠ s.key.slots :=
  ⟨.keyEraseSlot (Wit.req 136) 5 0 .provisioning, Wit.erase,
   match exec (.keyEraseSlot (Wit.req 136) 5 0 .provisioning) Wit.erase with | .next t => t | _ => Wit.erase, rfl, by decide +kernel⟩

end
end

section
/-! PROOF. `TB_COUNT`: what the release from reset, every other command, and a clock period make of it (R47, R368, Table 13.1). -/

namespace Sys2Proof.Machine

/-! ### Commands -/

@[simp] theorem restartCount_count (s : State) : (restartCount s).tb.count = 0 := rfl

/-- The start itself: the count restarts after a power-on reset and stands otherwise (R368). -/
theorem startBegin_count (f : StartFacts) (s : State) :
    (startBegin f s).tb.count = if s.sys.porPending then 0 else s.tb.count := by
  cases por : s.sys.porPending with
  | false => exact (startBegin_warm (ν := true) (κ := false) f s por).count rfl
  | true =>
    unfold startBegin
    simp only [por, if_true]
    repeat' split
    all_goals simp only [raise_tb, startViews_count, restartCount_count]

/-- The release begins a start: step 1 is due and the logic die has cooled (R37; log entries 15 and 16). -/
def State.releases (s : State) : Prop :=
  s.sys.phase = .waiting ∧ s.sys.mode = .startup ∧ s.sys.dieHot = false

theorem resetRelease_count_of_releases (f : StartFacts) {s : State} (h : s.releases) :
    (resetRelease f s).tb.count = if s.sys.porPending then 0 else s.tb.count := by
  obtain ⟨phase, mode, cool⟩ := h
  simp only [resetRelease, phase, mode, cool, ne_eq, not_true_eq_false, decide_false, Bool.or_self, Bool.false_eq_true, if_false,
    startBegin_count]

theorem resetRelease_of_not_releases (f : StartFacts) {s : State} (h : ¬ s.releases) : resetRelease f s = s := by
  unfold resetRelease
  split
  · rfl
  · rename_i free
    exact absurd (by simpa only [State.releases, ne_eq, decide_not, Bool.or_eq_true, Bool.not_eq_eq_eq_not, Bool.not_true,
      decide_eq_false_iff_not, not_or, Decidable.not_not, Bool.not_eq_true, and_assoc] using free) h

theorem resetRelease_count (f : StartFacts) (s : State) :
    (resetRelease f s).tb.count = s.tb.count ∨ ((resetRelease f s).tb.count = 0 ∧ s.sys.porPending = true) := by
  by_cases h : s.releases
  · rw [resetRelease_count_of_releases f h]
    cases s.sys.porPending with
    | false => exact .inl rfl
    | true => exact .inr ⟨rfl, rfl⟩
  · exact .inl (by rw [resetRelease_of_not_releases f h])

/-- The only command that moves the count is a release from reset with a power-on reset pending, and it sets the count to 0. -/
theorem exec_count {c : Instr} {s t : State} (h : exec c s = .next t) :
    t.tb.count = s.tb.count ∨ (t.tb.count = 0 ∧ s.sys.porPending = true ∧ ∃ f, c = .resetRelease f) := by
  by_cases release : ∃ f, c = .resetRelease f
  · obtain ⟨f, rfl⟩ := release
    cases h
    exact (resetRelease_count f s).imp_right (fun ⟨zero, por⟩ => ⟨zero, por, f, rfl⟩)
  · exact .inl ((exec_kept c s (fun f e => release ⟨f, e⟩) t h).count rfl)

/-! ### Clock periods -/

theorem advance_of_locked {s : State} (off : s.aonCounts = false) (lock : s.sys.rootLock = true) (ref : s.sys.onRef = false) :
    s.advance = (1, s.tb.bivFrac) := by
  simp only [State.advance, off, lock, ref, Bool.false_eq_true, if_false, Bool.not_false, Bool.and_self, if_true]

theorem advance_of_onRef {s : State} (off : s.aonCounts = false) (ref : s.sys.onRef = true) :
    s.advance = (24, s.tb.bivFrac) := by
  simp only [State.advance, off, ref, Bool.false_eq_true, if_false, Bool.not_true, Bool.and_false]

theorem advance_of_aonCounts {s : State} (on : s.aonCounts = true) :
    s.advance = if 64 ≤ s.tb.bivFrac + 35 then (18311, s.tb.bivFrac + 35 - 64) else (18310, s.tb.bivFrac + 35) := by
  simp only [State.advance, on, if_true]

/-- No period adds more than one of the always-on clock does when its fraction overflows. -/
theorem advance_fst_le (s : State) : s.advance.1 ≤ 18311 := by
  unfold State.advance
  split
  · dsimp only
    split <;> simp only [Nat.reduceLeDiff, Std.le_refl]
  · split <;> simp only [Nat.reduceLeDiff]

theorem tbPowered_iff (s : State) : s.tbPowered = true ↔ s.sys.phase ≠ .unpowered := by
  simp only [State.tbPowered, decide_eq_true_eq]

theorem aonCounts_iff (s : State) : s.aonCounts = true ↔ s.sys.bivouac = .asleep ∨ s.sys.fromBivouac = true := by
  simp only [State.aonCounts, Bool.or_eq_true, decide_eq_true_eq]

theorem aonCounts_eq_false {s : State} (awake : s.sys.bivouac ≠ .asleep) (back : s.sys.fromBivouac = false) :
    s.aonCounts = false := by
  simp only [State.aonCounts, awake, back, decide_false, Bool.or_self]

theorem tick_of_unpowered {s : State} (h : s.tbPowered = false) : tick s = s := by
  simp only [tick, h, Bool.not_false, if_true]

theorem tick_count {s : State} (h : s.tbPowered = true) : (tick s).tb.count = s.tb.count + BitVec.ofNat 64 s.advance.1 := by
  simp only [tick, h, Bool.not_true, Bool.false_eq_true, if_false]

theorem tick_bivFrac {s : State} (h : s.tbPowered = true) : (tick s).tb.bivFrac = s.advance.2 := by
  simp only [tick, h, Bool.not_true, Bool.false_eq_true, if_false]

/-- A period of the always-on clock: 18,310 ticks, and one more where the fraction overflows (R47). -/
theorem tick_of_aonCounts {s : State} (power : s.tbPowered = true) (on : s.aonCounts = true) :
    (tick s).tb.count = s.tb.count + 18310 + (if 64 ≤ s.tb.bivFrac + 35 then 1 else 0) ∧
      (tick s).tb.bivFrac = if 64 ≤ s.tb.bivFrac + 35 then s.tb.bivFrac + 35 - 64 else s.tb.bivFrac + 35 := by
  rw [tick_count power, tick_bivFrac power, advance_of_aonCounts on]
  split
  · exact ⟨(BitVec.add_assoc s.tb.count 18310 1).symm, rfl⟩
  · exact ⟨(BitVec.add_zero _).symm, rfl⟩

theorem count_le_tick_count (s : State) (room : s.tb.count.toNat + 18311 < 2 ^ 64) :
    s.tb.count.toNat ≤ (tick s).tb.count.toNat := by
  cases power : s.tbPowered with
  | false => exact Nat.le_of_eq (by rw [tick_of_unpowered power])
  | true =>
    have small := advance_fst_le s
    rw [tick_count power]
    bv_omega

/-! ### Steps -/

theorem step_of_idle {s : State} (h : s.pending = []) : step s = .next (tick s) := by
  simp only [step, h]

theorem step_of_command {s : State} {c : Instr} {rest : List Instr} (h : s.pending = c :: rest) :
    step s = exec c { s with pending := rest } := by
  simp only [step, h]

/-- No step lowers the count, but for the release that follows a power-on reset, while the count stays short of 2^64 (R368). -/
theorem count_le_step_count {s t : State} (room : s.tb.count.toNat + 18311 < 2 ^ 64) (h : step s = .next t)
    (warm : ∀ f rest, s.pending = .resetRelease f :: rest → s.sys.porPending = false) :
    s.tb.count.toNat ≤ t.tb.count.toNat := by
  cases queue : s.pending with
  | nil =>
    rw [step_of_idle queue] at h
    cases h
    exact count_le_tick_count s room
  | cons c rest =>
    rw [step_of_command queue] at h
    obtain same | ⟨-, por, f, rfl⟩ := exec_count h
    · exact Nat.le_of_eq (congrArg BitVec.toNat same.symm)
    · exact absurd por (by simp only [warm f rest queue, Bool.false_eq_true, not_false_eq_true])

/-- Settles O57: only the release after a power-on reset moves the count outside a clock period (`exec_count`), each period adds what its
clock says (`State.advance`; log entry 2 makes an idle step one period), and neither lowers it short of 2^64. -/
theorem timeBaseCountsAsTable13_1 : Obligations.TimeBaseCountsAsTable13_1 := by
  refine ⟨?start, fun c s t => exec_count, ?locked, ?reference, ?alwaysOn, fun s t => count_le_step_count⟩
  case start =>
    intro f s phase mode cool por
    exact ⟨resetRelease f s, rfl, (resetRelease_count_of_releases f ⟨phase, mode, cool⟩).trans (if_pos por)⟩
  case locked =>
    intro s idle power awake back lock ref
    exact ⟨tick s, step_of_idle idle, by
      rw [tick_count ((tbPowered_iff s).mpr power), advance_of_locked (aonCounts_eq_false awake back) lock ref]; rfl⟩
  case reference =>
    intro s idle power awake back ref
    exact ⟨tick s, step_of_idle idle, by
      rw [tick_count ((tbPowered_iff s).mpr power), advance_of_onRef (aonCounts_eq_false awake back) ref]; rfl⟩
  case alwaysOn =>
    intro s idle power aon
    exact ⟨tick s, step_of_idle idle, tick_of_aonCounts ((tbPowered_iff s).mpr power) ((aonCounts_iff s).mpr aon)⟩

end Sys2Proof.Machine
end

section
/-! PROOF. The stacking extension: the checks of R399 and R400, the frame of Table 14.10, and the pair that a trap and `mret` leave. -/

namespace Sys2Proof.Machine

/-! ### The checks -/

theorem PmpRegion.holds_iff (g : PmpRegion) (lo hi : Nat) : g.holds lo hi = true ↔ g.base ≤ lo ∧ hi < g.base + g.size := by
  simp only [PmpRegion.holds, Bool.and_eq_true, decide_eq_true_eq]

theorem stackFault_eq_none_iff (pmp : List PmpRegion) (s : Nat) : stackFault pmp s = none ↔
    s % 16 = 0 ∧ 80 ≤ s ∧ ∃ g ∈ pmp, g.base ≤ s - 80 ∧ s - 1 < g.base + g.size ∧ g.writable = true ∧ g.tcm = true := by
  have region : pmp.any (fun g => g.holds (s - 80) (s - 1) && g.writable && g.tcm) = true ↔
      ∃ g ∈ pmp, g.base ≤ s - 80 ∧ s - 1 < g.base + g.size ∧ g.writable = true ∧ g.tcm = true := by
    simp only [List.any_eq_true, Bool.and_eq_true, PmpRegion.holds_iff, and_assoc]
  rw [← region, stackFault]
  split
  case isTrue misaligned => exact iff_of_false nofun (fun pass => misaligned pass.1)
  case isFalse aligned =>
    split
    case isTrue low => exact iff_of_false nofun (fun pass => Nat.not_le_of_lt low pass.2.1)
    case isFalse room =>
      split
      case isTrue inside => exact iff_of_true rfl ⟨Decidable.not_not.mp aligned, Nat.le_of_not_lt room, inside⟩
      case isFalse outside => exact iff_of_false (by split <;> nofun) (fun pass => outside pass.2.2)

theorem frameOk_iff (pmp : List PmpRegion) (s : Nat) : frameOk pmp s = true ↔
    s % 16 = 0 ∧ ∃ g ∈ pmp, g.base ≤ s ∧ s + 79 < g.base + g.size ∧ g.readable = true := by
  simp only [frameOk, Bool.and_eq_true, decide_eq_true_eq, List.any_eq_true, PmpRegion.holds_iff, and_assoc]

/-! ### The frame -/

theorem frameBytes_eq (r : CoreRegs) (sp : U32) : frameBytes r sp =
    le32 r.mepc ++ le32 r.mstatus ++ le32 r.mcause ++ le32 sp ++ le32 r.ra ++ le32 r.t0 ++ le32 r.t1 ++ le32 r.t2 ++
    le32 r.a0 ++ le32 r.a1 ++ le32 r.a2 ++ le32 r.a3 ++ le32 r.a4 ++ le32 r.a5 ++ le32 r.a6 ++ le32 r.a7 ++
    le32 r.t3 ++ le32 r.t4 ++ le32 r.t5 ++ le32 r.t6 := by
  simp only [frameBytes, frameWords, List.flatMap_cons, List.flatMap_nil, List.append_nil, List.append_assoc]

theorem frameBytes_length (r : CoreRegs) (sp : U32) : (frameBytes r sp).length = 80 := rfl

/-- A write of several bytes leaves every address outside them alone. -/
theorem memGet_memWrite_outside (m : Memory) (a b : Nat) (l : List Byte) (h : b < a ∨ a + l.length ≤ b) :
    memGet (memWrite m a l) b = memGet m b := by
  induction l generalizing m a with
  | nil => rfl
  | cons v r ih =>
    rw [List.length_cons] at h
    calc memGet (memWrite (memSet m a v) (a + 1) r) b
      _ = memGet (memSet m a v) b := ih _ _ (by omega)
      _ = memGet m b := memGet_memSet_other m a b v (by omega)

theorem memGet_frame_outside (m : Memory) (r : CoreRegs) (sp : U32) {top a : Nat} (room : 80 ≤ top) (h : a < top - 80 ∨ top ≤ a) :
    memGet (memWrite m (top - 80) (frameBytes r sp)) a = memGet m a :=
  memGet_memWrite_outside m _ a _ (by rw [frameBytes_length, Nat.sub_add_cancel room]; exact h)

/-! ### The pair after a trap and after `mret` -/

@[simp] theorem raiseSaf_pair (k : EvKind) (inst : Nat) (data : List Byte) (s : State) (p : Nat) :
    (raiseSaf k inst data s).pair p = s.pair p :=
  congrArg (fun f : SafState => f.pairs.getD .reset p) ((raiseSaf_frame k inst data s).same .saf (by decide))

/-- R401: what a stacking fault makes of the pair. -/
theorem takeStackFault_pair (p reason : Nat) (ptr : U32) (r : CoreRegs) (oldSp : U32) {s : State} (clear : (s.pair p).xstk.efb = false) :
    (takeStackFault p reason ptr r oldSp s).pair p = { s.pair p with
      tcm := memWrite (s.pair p).tcm emergencyFrame (frameBytes r oldSp)
      regs := { r with mcause := 24, mtval := ptr, sp := (s.pair p).xstk.esp, pc := handler r }
      xstk := { (s.pair p).xstk with
        efb := true, reason := reason, partStop := (s.pair p).xstk.partStop ||| BitVec.ofNat 4 (2 ^ ((s.pair p).xstk.partId % 4)) } } := by
  simp only [takeStackFault, clear, Bool.false_eq_true, if_false, raiseSaf_pair, State.modPair_same]

section
variable {p : Nat} {regs : CoreRegs} {pmp : List PmpRegion} {s : State}
variable (serves : (s.pair p).retired = false) (runs : (s.pair p).halted = false) (on : (s.pair p).xstk.en = true)
include serves runs on

/-- R399: a trap whose pointer passes stacks its frame below the pointer and enters the handler. -/
theorem trapStacking_pair_of_passes {cause tval ptr : U32} {user : Bool} (chosen : ptr = if user then (s.pair p).xstk.msp else regs.sp)
    (passes : stackFault pmp ptr.toNat = none) :
    (trapStacking p regs pmp cause tval user s).pair p = { s.pair p with
      pmp := pmp
      tcm := memWrite (s.pair p).tcm (ptr.toNat - 80)
        (frameBytes { regs with mepc := regs.pc, mcause := cause, mtval := tval, mstatus := trapStatus regs.mstatus user } regs.sp)
      regs := { regs with
        mepc := regs.pc, mcause := cause, mtval := tval, mstatus := trapStatus regs.mstatus user, sp := ptr - 80, pc := handler regs } } := by
  subst chosen
  simp only [trapStacking, serves, runs, on, passes, Bool.or_self, Bool.not_true, Bool.false_eq_true, if_false, State.modPair_same,
    handler]

/-- R400: `mret` on a frame that passes takes the registers back, unless it returns into U-mode of a stopped partition (R401). -/
theorem mretUnstack_pair_of_passes (passes : frameOk pmp regs.sp.toNat = true)
    (free : toUser (memRead32 (s.pair p).tcm (regs.sp.toNat + 4)) = false ∨
      (s.pair p).xstk.partStop.getLsbD ((s.pair p).xstk.partId % 4) = false) :
    (mretUnstack p regs pmp s).pair p = { s.pair p with
      pmp := pmp
      regs := { regs.unstack (s.pair p).tcm regs.sp.toNat with
        pc := memRead32 (s.pair p).tcm (regs.sp.toNat + 0)
        mstatus := mretStatus (memRead32 (s.pair p).tcm (regs.sp.toNat + 4)) } } := by
  have allowed : (toUser (regs.unstack (s.pair p).tcm regs.sp.toNat).mstatus &&
      (s.pair p).xstk.partStop.getLsbD ((s.pair p).xstk.partId % 4)) = false := Bool.and_eq_false_iff.mpr free
  simp only [mretUnstack, serves, runs, on, passes, allowed, Bool.or_self, Bool.not_true, Bool.and_false, Bool.false_eq_true, if_false,
    if_true, State.modPair_same]
  rfl

/-- R400: `mret` on a frame that fails is a stacking fault with `REASON` 4, which leaves the emergency frame (R401). -/
theorem mretUnstack_pair_of_fails (fails : frameOk pmp regs.sp.toNat = false) (clear : (s.pair p).xstk.efb = false) :
    (mretUnstack p regs pmp s).pair p = { s.pair p with
      pmp := pmp
      tcm := memWrite (s.pair p).tcm emergencyFrame (frameBytes regs regs.sp)
      regs := { regs with mcause := 24, mtval := regs.sp, sp := (s.pair p).xstk.esp, pc := handler regs }
      xstk := { (s.pair p).xstk with
        efb := true, reason := 4, partStop := (s.pair p).xstk.partStop ||| BitVec.ofNat 4 (2 ^ ((s.pair p).xstk.partId % 4)) } } := by
  have fault : mretUnstack p regs pmp s = takeStackFault p 4 regs.sp regs regs.sp (s.modPair p (fun x => { x with pmp := pmp })) := by
    simp only [mretUnstack, serves, runs, on, fails, Bool.or_self, Bool.not_false, Bool.and_self, Bool.false_eq_true, if_false, if_true]
  have clear' : ((s.modPair p (fun x => { x with pmp := pmp })).pair p).xstk.efb = false := by rw [State.modPair_same]; exact clear
  rw [fault, takeStackFault_pair p 4 regs.sp regs regs.sp clear', State.modPair_same]

end

/-- Settles O59: the checks of R399 and R400 are read off their definitions, and the pair that a trap and `mret` leave is one update of
the pair before (`trapStacking_pair_of_passes`, `mretUnstack_pair_of_passes`, `mretUnstack_pair_of_fails`). The frame is 80 bytes long,
so nothing outside it is written. `mstatus` and the handler's address are the model's reading (log entry 101). -/
theorem trapsStackAndMretUnstacks : Obligations.TrapsStackAndMretUnstacks := by
  refine ⟨stackFault_eq_none_iff, frameOk_iff, frameBytes_eq, ?trapPasses, ?mretPasses, ?mretFails⟩
  case trapPasses =>
    intro pair regs pmp cause tval ptr user s serves runs on chosen passes
    obtain ⟨-, room, -⟩ := (stackFault_eq_none_iff pmp ptr.toNat).mp passes
    refine ⟨_, rfl, ?_⟩
    dsimp only
    rw [trapStacking_pair_of_passes serves runs on chosen passes]
    dsimp only
    exact ⟨rfl, rfl, rfl, rfl, rfl, rfl, fun a outside _ => memGet_frame_outside _ _ _ room outside⟩
  case mretPasses =>
    intro pair regs pmp s w serves runs on passes words free
    obtain rfl : w = fun o => memRead32 (s.pair pair.val).tcm (regs.sp.toNat + o) := funext words
    refine ⟨_, rfl, ?_⟩
    dsimp only
    rw [mretUnstack_pair_of_passes serves runs on passes free]
    rfl
  case mretFails =>
    intro pair regs pmp s serves runs on clear fails
    refine ⟨_, rfl, ?_⟩
    dsimp only
    rw [mretUnstack_pair_of_fails serves runs on fails clear]
    exact ⟨rfl, rfl, rfl, rfl⟩

end Sys2Proof.Machine
end

section
/-! PROOF. Staging: which copy `UPD.BEGIN` opens, and which copy the end of a verification writes (R439). -/

namespace Sys2Proof.Machine

/-! ### The copies -/

theorem bit_le_one (b : Bool) : bit b ≤ 1 := by cases b <;> decide

theorem bit_inj {a b : Bool} (same : bit a = bit b) : a = b := by
  revert a b
  decide

/-- The key under which the copies are kept tells both the class and the copy. -/
theorem copyKey_eq_iff (c d : Nat) (a b : Bool) : 2 * c + bit a = 2 * d + bit b ↔ (c, a) = (d, b) := by
  constructor
  · intro same
    have ha := bit_le_one a
    have hb := bit_le_one b
    have cls : c = d := by omega
    have side : bit a = bit b := by omega
    exact Prod.ext cls (bit_inj side)
  · rintro ⟨⟩
    rfl

theorem State.modCopy_copy_other {c d : Nat} {a b : Bool} (s : State) (f : ImageCopy → ImageCopy) (other : (c, a) ≠ (d, b)) :
    (s.modCopy d b f).copy c a = s.copy c a :=
  Tbl.getD_modify_other _ _ _ _ f (mt (copyKey_eq_iff c d a b).mp other)

theorem State.copy_eq_of_upd {s t : State} (same : t.upd = s.upd) (c : Nat) (a : Bool) : t.copy c a = s.copy c a :=
  congrArg (fun u : UpdState => u.copies.getD .empty (2 * c + bit a)) same

@[simp] theorem raiseUpd_copy (k : EvKind) (inst : Nat) (data : List Byte) (s : State) (c : Nat) (a : Bool) :
    (raiseUpd k inst data s).copy c a = s.copy c a :=
  State.copy_eq_of_upd (raise_upd k inst .wide data s) c a

@[simp] theorem answerVerify_copy (v : Verifying) (st : U16) (result : List Byte) (s : State) (c : Nat) (a : Bool) :
    (answerVerify v st result s).copy c a = s.copy c a :=
  State.copy_eq_of_upd ((answerVerify_frame v st result s).same .upd (by decide)) c a

/-! ### The opening -/

theorem State.stagingCopy_of_lastGood {s : State} {set : List Bool} (good : s.upd.lastGood = some set) (cls : Nat) :
    s.stagingCopy cls = !(set.getD cls false) := by
  simp only [State.stagingCopy, good]

/-- With no target open and no verification running, a class is opened on its staging copy. -/
theorem updOpen_of_class {cls : Nat} {s : State} (isClass : cls < 6) (shut : s.upd.open_ = none) (quiet : s.upd.verifying = none)
    (total : Nat) : updOpen cls total s =
      ({ s with upd := { s.upd with open_ := some { target := cls, second := s.stagingCopy cls, total := total, bytes := [] } } },
        .ok [byteOf (bit (s.stagingCopy cls))]) := by
  have notBank : cls ≠ 16 := by omega
  simp only [updOpen, shut, quiet, notBank, Option.isSome_none, Bool.or_self, Bool.false_eq_true, if_false]

/-! ### The end of a verification -/

@[simp] theorem bankVerified_copy (v : Verifying) (k : Bank) (s : State) (c : Nat) (a : Bool) :
    (bankVerified v k s).copy c a = s.copy c a :=
  (answerVerify_copy ..).trans (raiseUpd_copy ..)

theorem imageVerified_copy_other {v : Verifying} {c : Nat} {a : Bool} (s : State) (other : (c, a) ≠ (v.target.target, v.target.second)) :
    (imageVerified v s).copy c a = s.copy c a := by
  simp only [imageVerified, answerVerify_copy, raiseUpd_copy, State.modCopy_copy_other s _ other]

/-- However a verification ends, it writes no copy but the one its target names. -/
theorem verifyDone_copy_other {v : Verifying} {s : State} {c : Nat} {a : Bool} (runs : s.upd.verifying = some v)
    (other : (c, a) ≠ (v.target.target, v.target.second)) (f : VerifyFacts) (bank : Bank) :
    (verifyDone f bank s).copy c a = s.copy c a := by
  have closed : ({ s with upd := { s.upd with verifying := none } } : State).copy c a = s.copy c a := rfl
  simp only [verifyDone, runs]
  split
  case isTrue isBank =>
    split
    case h_1 st refused => rw [answerVerify_copy, closed]
    case h_2 passes => rw [bankVerified_copy, closed]
  case isFalse isClass =>
    split
    case h_1 st refused => rw [answerVerify_copy, closed]
    case h_2 passes => rw [imageVerified_copy_other _ other, closed]

/-- Settles O60: the opened target names the staging copy, which is the other one than the last good set's
(`State.stagingCopy_of_lastGood`), and the end of a verification writes at most the copy that its target names
(`verifyDone_copy_other`). That staged bytes stand beside the copy until the
verification passes is the model's reading (log entry 104). -/
theorem stagingSparesTheLastGoodSet : Obligations.StagingSparesTheLastGoodSet := by
  refine ⟨?opens, ?verified⟩
  case opens =>
    intro cls total set s isClass good shut quiet
    rw [updOpen_of_class isClass shut quiet]
    exact ⟨_, rfl, rfl, State.stagingCopy_of_lastGood good cls, rfl⟩
  case verified =>
    intro v f bank s cls b runs _ _ other
    exact ⟨verifyDone f bank s, rfl, verifyDone_copy_other runs other f bank⟩

end Sys2Proof.Machine
end

section
/-! PROOF. What every step keeps (R30, R213, R428, R430, R432, R441), and what a command and a clock period are. -/

namespace Sys2Proof.Machine

/-! ### Every command completes -/

theorem completes {w : List Part} {s t : State} (f : Framed w s (.next t)) (apart : .pending ∉ w) :
    ∃ u, (Host.Outcome.next t : Result) = .next u ∧ u.pending = s.pending :=
  ⟨t, rfl, (f t rfl).same .pending apart⟩

/-- Every command has a next state and none touches the queue, by the frame of each. -/
theorem exec_completes (c : Instr) (s : State) : ∃ t, exec c s = .next t ∧ t.pending = s.pending := by
  cases c with
  | logicSupplyValid => exact completes (execLogicSupplyValid_frame _) (by decide)
  | resetRelease => exact completes (execResetRelease_frame _ _) (by decide)
  | rootPllLock => exact completes (execRootPllLock_frame _) (by decide)
  | pllLockTimeout => exact completes (execPllLockTimeout_frame _) (by decide)
  | powerDieTableAck => exact completes (execPowerDieTableAck_frame _ _) (by decide)
  | pdlAckTimeout => exact completes (execPdlAckTimeout_frame _ _) (by decide)
  | pdlAckRetry => exact completes (execPdlAckRetry_frame _ _) (by decide)
  | vinClassCheck => exact completes (execVinClassCheck_frame _ _) (by decide)
  | pairInjectionTestDone => exact completes (execPairInjectionTestDone_frame _ _ _) (by decide)
  | ddrTrainingDone => exact completes (execDdrTrainingDone_frame _) (by decide)
  | forcedBasecampCheck => exact completes (execForcedBasecampCheck_frame _) (by decide)
  | workshopInactivityTimeout => exact completes (execWorkshopInactivityTimeout_frame _) (by decide)
  | autoSleep => exact completes (execAutoSleep_frame _) (by decide)
  | wakeNAssert => exact completes (execWakeNAssert_frame _) (by decide)
  | powerLoss => exact completes (execPowerLoss_frame _) (by decide)
  | logicFeedLow => exact completes (execLogicFeedLow_frame _) (by decide)
  | logicFeedFail => exact completes (execLogicFeedFail_frame _) (by decide)
  | clockMonitorTrip => exact completes (execClockMonitorTrip_frame _) (by decide)
  | runServiceLoss => exact completes (execRunServiceLoss_frame _ _) (by decide)
  | managerWatchdog => exact completes (execManagerWatchdog_frame _) (by decide)
  | safetyClusterServing => exact completes (execSafetyClusterServing_frame _) (by decide)
  | bivouacEntryDone => exact completes (execBivouacEntryDone_frame _) (by decide)
  | portTc10Wake => exact completes (execPortTc10Wake_frame _ _) (by decide)
  | activationMsBoundary => exact completes (execActivationMsBoundary_frame _) (by decide)
  | sysEnterWorkshop => exact completes (execSysEnterWorkshop_frame _ _ _ _) (by decide)
  | sysLeaveWorkshop => exact completes (execSysLeaveWorkshop_frame _ _) (by decide)
  | sysSleep => exact completes (execSysSleep_frame _ _) (by decide)
  | sysRestart => exact completes (execSysRestart_frame _ _ _ _) (by decide)
  | sysEnterBasecamp => exact completes (execSysEnterBasecamp_frame _ _) (by decide)
  | sysGetMode => exact completes (execSysGetMode_frame _ _) (by decide)
  | sysChallenge => exact completes (execSysChallenge_frame _ _) (by decide)
  | cfgBegin => exact completes (execCfgBegin_frame _ _ _) (by decide)
  | cfgWrite => exact completes (execCfgWrite_frame _ _ _ _) (by decide)
  | cfgCommit => exact completes (execCfgCommit_frame _ _ _) (by decide)
  | cfgActivate => exact completes (execCfgActivate_frame _ _) (by decide)
  | cfgStatus => exact completes (execCfgStatus_frame _ _) (by decide)
  | cfgAbort => exact completes (execCfgAbort_frame _ _) (by decide)
  | cfgGetSection => exact completes (execCfgGetSection_frame _ _ _ _ _) (by decide)
  | cfgSessionTimeout => exact completes (execCfgSessionTimeout_frame _) (by decide)
  | baseplateHot => exact completes (execBaseplateHot_frame _ _) (by decide)
  | baseplateOvertemp => exact completes (execBaseplateOvertemp_frame _ _) (by decide)
  | baseplateCooled => exact completes (execBaseplateCooled_frame _ _) (by decide)
  | logicDieOvertemp => exact completes (execLogicDieOvertemp_frame _ _) (by decide)
  | logicDieCooled => exact completes (execLogicDieCooled_frame _) (by decide)
  | mbxFragmentReceived => exact completes (execMbxFragmentReceived_frame _ _ _) (by decide)
  | mbxReassemblyTimeout => exact completes (execMbxReassemblyTimeout_frame _ _) (by decide)
  | vzfMbxReqProd => exact completes (execVzfMbxReqProd_frame _ _ _ _ _ _) (by decide)
  | mbxConsumerIndexWrite => exact completes (execMbxConsumerIndexWrite_frame _ _ _ _ _) (by decide)
  | hostControlAck => exact completes (execHostControlAck_frame _ _ _ _) (by decide)
  | unknownCommand => exact completes (execUnknownCommand_frame _ _ _) (by decide)
  | mbxAckTimer => exact completes (execMbxAckTimer_frame _ _) (by decide)
  | epochRepeat => exact completes (execEpochRepeat_frame _ _) (by decide)
  | mbxRetransmit => exact completes (execMbxRetransmit_frame _ _ _ _) (by decide)
  | sysResync => exact completes (execSysResync_frame _ _) (by decide)
  | sysReplay => exact completes (execSysReplay_frame _ _ _ _) (by decide)
  | sysSubscribe => exact completes (execSysSubscribe_frame _ _ _ _) (by decide)
  | sysPing => exact completes (execSysPing_frame _ _ _) (by decide)
  | sysGetInfo => exact completes (execSysGetInfo_frame _ _) (by decide)
  | sysPortStats => exact completes (execSysPortStats_frame _ _) (by decide)
  | sysSetRate => exact completes (execSysSetRate_frame _ _ _ _ _) (by decide)
  | windowUnmappedAccess => exact completes (execWindowUnmappedAccess_frame _ _ _) (by decide)
  | registerWrite => exact completes (execRegisterWrite_frame _ _ _) (by decide)
  | lswCmdWrite => exact completes (execLswCmdWrite_frame _ _ _ _) (by decide)
  | hbrCmdWrite => exact completes (execHbrCmdWrite_frame _ _ _ _) (by decide)
  | vlvCmdWrite => exact completes (execVlvCmdWrite_frame _ _ _ _) (by decide)
  | lswChStampLoRead => exact completes (execLswChStampLoRead_frame _ _ _) (by decide)
  | lswChPeakRead => exact completes (execLswChPeakRead_frame _ _ _) (by decide)
  | chSet => exact completes (execChSet_frame _ _ _ _ _ _ _) (by decide)
  | chGetStatus => exact completes (execChGetStatus_frame _ _ _) (by decide)
  | chSetProfile => exact completes (execChSetProfile_frame _ _ _ _) (by decide)
  | chGetProfile => exact completes (execChGetProfile_frame _ _ _) (by decide)
  | chUnlock => exact completes (execChUnlock_frame _ _ _ _) (by decide)
  | chClearFault => exact completes (execChClearFault_frame _ _ _) (by decide)
  | chSetHold => exact completes (execChSetHold_frame _ _ _ _ _) (by decide)
  | chSetKeepalive => exact completes (execChSetKeepalive_frame _ _ _) (by decide)
  | chSnsSelect => exact completes (execChSnsSelect_frame _ _ _) (by decide)
  | chTest => exact completes (execChTest_frame _ _ _ _ _) (by decide)
  | chTestEnd => exact completes (execChTestEnd_frame _ _ _ _) (by decide)
  | chGetLedger => exact completes (execChGetLedger_frame _ _ _) (by decide)
  | chHbConfig => exact completes (execChHbConfig_frame _ _ _ _) (by decide)
  | chHbDrive => exact completes (execChHbDrive_frame _ _ _ _ _ _ _ _ _) (by decide)
  | chHbPosition => exact completes (execChHbPosition_frame _ _ _ _ _) (by decide)
  | chVlvConfig => exact completes (execChVlvConfig_frame _ _ _ _ _ _ _) (by decide)
  | chVlvSet => exact completes (execChVlvSet_frame _ _ _ _ _ _) (by decide)
  | chVlvStatus => exact completes (execChVlvStatus_frame _ _ _) (by decide)
  | powerDieLinkFrame => exact completes (execPowerDieLinkFrame_frame _ _ _) (by decide)
  | linkSilenceHold => exact completes (execLinkSilenceHold_frame _ _) (by decide)
  | holdTimeout => exact completes (execHoldTimeout_frame _ _) (by decide)
  | shortCircuitTrip => exact completes (execShortCircuitTrip_frame _ _ _) (by decide)
  | limitTimeout => exact completes (execLimitTimeout_frame _ _) (by decide)
  | inrushWindowEnd => exact completes (execInrushWindowEnd_frame _ _ _) (by decide)
  | wireModelStep => exact completes (execWireModelStep_frame _ _ _) (by decide)
  | junctionOvertemp => exact completes (execJunctionOvertemp_frame _ _ _) (by decide)
  | openLoadOn => exact completes (execOpenLoadOn_frame _ _) (by decide)
  | offStateTest => exact completes (execOffStateTest_frame _ _ _ _) (by decide)
  | arcWindow => exact completes (execArcWindow_frame _ _ _ _) (by decide)
  | retryDelayExpiry => exact completes (execRetryDelayExpiry_frame _ _) (by decide)
  | retryCountReset => exact completes (execRetryCountReset_frame _ _) (by decide)
  | freewheelCheckEnd => exact completes (execFreewheelCheckEnd_frame _ _ _ _) (by decide)
  | statusWordUpdate => exact completes (execStatusWordUpdate_frame _ _ _) (by decide)
  | pwmPeriodStart => exact completes (execPwmPeriodStart_frame _ _ _) (by decide)
  | groupLoadCheck => exact completes (execGroupLoadCheck_frame _) (by decide)
  | loadShedStep => exact completes (execLoadShedStep_frame _) (by decide)
  | orphanTimeout => exact completes (execOrphanTimeout_frame _ _) (by decide)
  | reversalBrakeEnd => exact completes (execReversalBrakeEnd_frame _ _) (by decide)
  | stallDetect => exact completes (execStallDetect_frame _ _) (by decide)
  | rippleCount => exact completes (execRippleCount_frame _ _ _) (by decide)
  | runonEnd => exact completes (execRunonEnd_frame _ _) (by decide)
  | uncountedMotion => exact completes (execUncountedMotion_frame _ _) (by decide)
  | valveRegulationPeriod => exact completes (execValveRegulationPeriod_frame _ _ _) (by decide)
  | complianceSet => exact completes (execComplianceSet_frame _ _ _) (by decide)
  | complianceClear => exact completes (execComplianceClear_frame _ _) (by decide)
  | groupSupplyLoss => exact completes (execGroupSupplyLoss_frame _ _ _) (by decide)
  | groupSupplyReturn => exact completes (execGroupSupplyReturn_frame _ _ _) (by decide)
  | moduleGroundLoss => exact completes (execModuleGroundLoss_frame _) (by decide)
  | junctionCooled => exact completes (execJunctionCooled_frame _ _ _) (by decide)
  | junctionHotWarning => exact completes (execJunctionHotWarning_frame _ _) (by decide)
  | bridgeStart => exact completes (execBridgeStart_frame _ _) (by decide)
  | vinLossDetected => exact completes (execVinLossDetected_frame _ _ _) (by decide)
  | handoverAbandon => exact completes (execHandoverAbandon_frame _) (by decide)
  | commitPoint => exact completes (execCommitPoint_frame _ _) (by decide)
  | vinValidInBoost => exact completes (execVinValidInBoost_frame _) (by decide)
  | vinInvalidInQualify => exact completes (execVinInvalidInQualify_frame _) (by decide)
  | qualifyTimeout => exact completes (execQualifyTimeout_frame _) (by decide)
  | handbackRampComplete => exact completes (execHandbackRampComplete_frame _) (by decide)
  | vbk12Low => exact completes (execVbk12Low_frame _) (by decide)
  | boostOverload => exact completes (execBoostOverload_frame _ _ _) (by decide)
  | shedRestore => exact completes (execShedRestore_frame _) (by decide)
  | vz12GroupRelease => exact completes (execVz12GroupRelease_frame _) (by decide)
  | phaseOvercurrentLatch => exact completes (execPhaseOvercurrentLatch_frame _ _) (by decide)
  | bridgeDieHot => exact completes (execBridgeDieHot_frame _ _) (by decide)
  | bridgeDieOvertemp => exact completes (execBridgeDieOvertemp_frame _ _) (by decide)
  | bridgeDieCooled => exact completes (execBridgeDieCooled_frame _ _) (by decide)
  | vz12Undervoltage => exact completes (execVz12Undervoltage_frame _ _) (by decide)
  | vz12Retry => exact completes (execVz12Retry_frame _ _) (by decide)
  | bridgeControlStop => exact completes (execBridgeControlStop_frame _) (by decide)
  | vinWindowEntry => exact completes (execVinWindowEntry_frame _ _ _) (by decide)
  | brgGetStatus => exact completes (execBrgGetStatus_frame _ _ _) (by decide)
  | brgSetTarget => exact completes (execBrgSetTarget_frame _ _ _) (by decide)
  | brgSetLimits => exact completes (execBrgSetLimits_frame _ _ _) (by decide)
  | brgRelease => exact completes (execBrgRelease_frame _ _) (by decide)
  | brgSetShed => exact completes (execBrgSetShed_frame _ _ _ _) (by decide)
  | brgTestHandover => exact completes (execBrgTestHandover_frame _ _ _ _ _) (by decide)
  | handoverTestEnd => exact completes (execHandoverTestEnd_frame _ _ _ _) (by decide)
  | diSample => exact completes (execDiSample_frame _ _ _) (by decide)
  | fioDiStampLoRead => exact completes (execFioDiStampLoRead_frame _ _) (by decide)
  | aiSample => exact completes (execAiSample_frame _ _ _) (by decide)
  | cyclicSenseSample => exact completes (execCyclicSenseSample_frame _ _ _) (by decide)
  | sensorSupplyFault => exact completes (execSensorSupplyFault_frame _ _ _) (by decide)
  | sensorSupplyRetry => exact completes (execSensorSupplyRetry_frame _ _ _) (by decide)
  | barrierDownlinkFrame => exact completes (execBarrierDownlinkFrame_frame _) (by decide)
  | barrierDownlinkReceived => exact completes (execBarrierDownlinkReceived_frame _ _) (by decide)
  | barrierUplinkFrame => exact completes (execBarrierUplinkFrame_frame _ _) (by decide)
  | xLinkTimeout => exact completes (execXLinkTimeout_frame _) (by decide)
  | xUplinkLost => exact completes (execXUplinkLost_frame _) (by decide)
  | xOverload => exact completes (execXOverload_frame _ _) (by decide)
  | xOverloadRetry => exact completes (execXOverloadRetry_frame _ _ _) (by decide)
  | xOpenWire => exact completes (execXOpenWire_frame _ _) (by decide)
  | xOvertemp => exact completes (execXOvertemp_frame _ _) (by decide)
  | xvfLow => exact completes (execXvfLow_frame _) (by decide)
  | xvfFail => exact completes (execXvfFail_frame _) (by decide)
  | xvfRecover => exact completes (execXvfRecover_frame _) (by decide)
  | fioXCmdValWrite => exact completes (execFioXCmdValWrite_frame _ _ _) (by decide)
  | fioXBankRead => exact completes (execFioXBankRead_frame _ _) (by decide)
  | fioDiConfig => exact completes (execFioDiConfig_frame _ _ _ _) (by decide)
  | fioDiRead => exact completes (execFioDiRead_frame _ _) (by decide)
  | fioAiConfig => exact completes (execFioAiConfig_frame _ _ _ _ _ _) (by decide)
  | fioAiRead => exact completes (execFioAiRead_frame _ _ _ _) (by decide)
  | fioSupSet => exact completes (execFioSupSet_frame _ _ _ _) (by decide)
  | fioCyclicSense => exact completes (execFioCyclicSense_frame _ _ _ _ _) (by decide)
  | fioXConfig => exact completes (execFioXConfig_frame _ _ _ _ _ _) (by decide)
  | fioXSet => exact completes (execFioXSet_frame _ _ _ _) (by decide)
  | fioXRead => exact completes (execFioXRead_frame _ _) (by decide)
  | fioXSafe => exact completes (execFioXSafe_frame _ _ _ _) (by decide)
  | xvfLowEnd => exact completes (execXvfLowEnd_frame _) (by decide)
  | xOvertempEnd => exact completes (execXOvertempEnd_frame _ _) (by decide)
  | xOpenWireEnd => exact completes (execXOpenWireEnd_frame _ _) (by decide)
  | safeNAssert => exact completes (execSafeNAssert_frame _) (by decide)
  | safeNRelease => exact completes (execSafeNRelease_frame _) (by decide)
  | ruleTableCheck => exact completes (execRuleTableCheck_frame _ _ _) (by decide)
  | ruleTableEccError => exact completes (execRuleTableEccError_frame _ _) (by decide)
  | rfxLoadRule => exact completes (execRfxLoadRule_frame _ _ _ _) (by decide)
  | rfxEnable => exact completes (execRfxEnable_frame _ _ _ _) (by decide)
  | rfxDisable => exact completes (execRfxDisable_frame _ _ _ _) (by decide)
  | rfxGetRule => exact completes (execRfxGetRule_frame _ _ _) (by decide)
  | rfxStats => exact completes (execRfxStats_frame _ _ _ _) (by decide)
  | rfxSelfArrest => exact completes (execRfxSelfArrest_frame _ _ _) (by decide)
  | rfxSafeNFilter => exact completes (execRfxSafeNFilter_frame _ _ _ _) (by decide)
  | edgeWindowEnd => exact completes (execEdgeWindowEnd_frame _ _ _) (by decide)
  | limpTableTimer => exact completes (execLimpTableTimer_frame _) (by decide)
  | localCycleStart => exact completes (execLocalCycleStart_frame _) (by decide)
  | syncRefReceived => exact completes (execSyncRefReceived_frame _ _ _ _ _ _) (by decide)
  | syncRefMissing => exact completes (execSyncRefMissing_frame _) (by decide)
  | masterHandover => exact completes (execMasterHandover_frame _) (by decide)
  | staticFrameReceived => exact completes (execStaticFrameReceived_frame _ _ _ _) (by decide)
  | slotDue => exact completes (execSlotDue_frame _ _) (by decide)
  | dynamicFrameReceived => exact completes (execDynamicFrameReceived_frame _ _ _ _) (by decide)
  | relayQueueTimeout => exact completes (execRelayQueueTimeout_frame _) (by decide)
  | secondaryFrameReceived => exact completes (execSecondaryFrameReceived_frame _ _ _ _ _) (by decide)
  | delayMeasRequest => exact completes (execDelayMeasRequest_frame _ _ _ _) (by decide)
  | delayMeasResponse => exact completes (execDelayMeasResponse_frame _ _ _ _ _) (by decide)
  | ringLinkDown => exact completes (execRingLinkDown_frame _ _) (by decide)
  | ringPhyTrained => exact completes (execRingPhyTrained_frame _ _) (by decide)
  | mkaFrame => exact completes (execMkaFrame_frame _ _ _ _) (by decide)
  | ringMacsecTimeout => exact completes (execRingMacsecTimeout_frame _ _) (by decide)
  | linkClose => exact completes (execLinkClose_frame _ _) (by decide)
  | ringSleep => exact completes (execRingSleep_frame _) (by decide)
  | ringTc10Wake => exact completes (execRingTc10Wake_frame _ _) (by decide)
  | sigSlotFreeze => exact completes (execSigSlotFreeze_frame _ _) (by decide)
  | ringGetStatus => exact completes (execRingGetStatus_frame _ _) (by decide)
  | ringTopology => exact completes (execRingTopology_frame _ _) (by decide)
  | ringSlotAge => exact completes (execRingSlotAge_frame _ _ _ _) (by decide)
  | ringDelays => exact completes (execRingDelays_frame _ _) (by decide)
  | ringSleepConsent => exact completes (execRingSleepConsent_frame _ _ _) (by decide)
  | ringStats => exact completes (execRingStats_frame _ _ _) (by decide)
  | frameIngress => exact completes (execFrameIngress_frame _ _ _ _ _ _) (by decide)
  | losslessTimeout => exact completes (execLosslessTimeout_frame _ _ _) (by decide)
  | frameEgress => exact completes (execFrameEgress_frame _ _) (by decide)
  | potFullEpisodeEnd => exact completes (execPotFullEpisodeEnd_frame _ _) (by decide)
  | cellAudit => exact completes (execCellAudit_frame _ _ _ _) (by decide)
  | leakCompareDone => exact completes (execLeakCompareDone_frame _) (by decide)
  | cellEccError => exact completes (execCellEccError_frame _ _ _) (by decide)
  | gateListEntry => exact completes (execGateListEntry_frame _ _ _) (by decide)
  | fdbAgeing => exact completes (execFdbAgeing_frame _ _ _) (by decide)
  | eswLinkChange => exact completes (execEswLinkChange_frame _ _ _) (by decide)
  | portMacsecTimeout => exact completes (execPortMacsecTimeout_frame _ _) (by decide)
  | plcaBeaconTimeout => exact completes (execPlcaBeaconTimeout_frame _ _) (by decide)
  | plcaBeaconReturn => exact completes (execPlcaBeaconReturn_frame _ _) (by decide)
  | latentErrorTest => exact completes (execLatentErrorTest_frame _ _ _) (by decide)
  | cellScrubbed => exact completes (execCellScrubbed_frame _ _) (by decide)
  | eswTxqProdWrite => exact completes (execEswTxqProdWrite_frame _ _ _ _ _ _) (by decide)
  | eswRxqConsWrite => exact completes (execEswRxqConsWrite_frame _ _ _ _) (by decide)
  | eswPortStatus => exact completes (execEswPortStatus_frame _ _ _) (by decide)
  | eswVlanSet => exact completes (execEswVlanSet_frame _ _ _ _ _) (by decide)
  | eswFdbAdd => exact completes (execEswFdbAdd_frame _ _ _) (by decide)
  | eswFdbDel => exact completes (execEswFdbDel_frame _ _ _ _) (by decide)
  | eswPotConfig => exact completes (execEswPotConfig_frame _ _ _) (by decide)
  | eswPotStatus => exact completes (execEswPotStatus_frame _ _ _) (by decide)
  | eswShaperSet => exact completes (execEswShaperSet_frame _ _ _ _ _ _) (by decide)
  | eswGateSet => exact completes (execEswGateSet_frame _ _ _) (by decide)
  | eswStreamFilter => exact completes (execEswStreamFilter_frame _ _ _) (by decide)
  | eswFrerSet => exact completes (execEswFrerSet_frame _ _ _) (by decide)
  | eswPlcaSet => exact completes (execEswPlcaSet_frame _ _ _) (by decide)
  | eswAudit => exact completes (execEswAudit_frame _ _ _ _ _ _ _ _) (by decide)
  | eswStats => exact completes (execEswStats_frame _ _ _) (by decide)
  | canFrameReceived => exact completes (execCanFrameReceived_frame _ _ _ _ _) (by decide)
  | canSofCommit => exact completes (execCanSofCommit_frame _ _) (by decide)
  | canTxComplete => exact completes (execCanTxComplete_frame _ _ _ _) (by decide)
  | canIntegrationDone => exact completes (execCanIntegrationDone_frame _ _) (by decide)
  | canRecoveryDone => exact completes (execCanRecoveryDone_frame _ _) (by decide)
  | canRxOverrunEnd => exact completes (execCanRxOverrunEnd_frame _ _) (by decide)
  | canTxBellWrite => exact completes (execCanTxBellWrite_frame _ _ _) (by decide)
  | canTxCancelWrite => exact completes (execCanTxCancelWrite_frame _ _ _ _) (by decide)
  | canEntryCtlWrite => exact completes (execCanEntryCtlWrite_frame _ _ _ _ _) (by decide)
  | canRxLostRead => exact completes (execCanRxLostRead_frame _ _ _) (by decide)
  | tmReferenceSend => exact completes (execTmReferenceSend_frame _ _) (by decide)
  | tmReferenceReceived => exact completes (execTmReferenceReceived_frame _ _ _ _ _) (by decide)
  | tmReferenceMissing => exact completes (execTmReferenceMissing_frame _ _) (by decide)
  | canLowPowerFrame => exact completes (execCanLowPowerFrame_frame _ _ _ _) (by decide)
  | canWakeConfirmTimeout => exact completes (execCanWakeConfirmTimeout_frame _ _) (by decide)
  | canConfig => exact completes (execCanConfig_frame _ _ _ _) (by decide)
  | canStart => exact completes (execCanStart_frame _ _ _) (by decide)
  | canStop => exact completes (execCanStop_frame _ _ _) (by decide)
  | canRecover => exact completes (execCanRecover_frame _ _ _) (by decide)
  | canSetFilter => exact completes (execCanSetFilter_frame _ _ _ _ _ _ _) (by decide)
  | canSetSieve => exact completes (execCanSetSieve_frame _ _ _ _ _ _ _ _) (by decide)
  | canCancel => exact completes (execCanCancel_frame _ _ _ _) (by decide)
  | canTimeMaster => exact completes (execCanTimeMaster_frame _ _ _ _ _ _ _ _ _) (by decide)
  | canGetStatus => exact completes (execCanGetStatus_frame _ _ _) (by decide)
  | canStats => exact completes (execCanStats_frame _ _ _ _) (by decide)
  | nmMessageReceived => exact completes (execNmMessageReceived_frame _ _ _ _ _) (by decide)
  | nmTokenPass => exact completes (execNmTokenPass_frame _ _) (by decide)
  | nmFormingTimeout => exact completes (execNmFormingTimeout_frame _ _) (by decide)
  | nmHopTimeout => exact completes (execNmHopTimeout_frame _ _) (by decide)
  | nmTokenLost => exact completes (execNmTokenLost_frame _ _) (by decide)
  | nmSleepTimer => exact completes (execNmSleepTimer_frame _ _) (by decide)
  | nmTmaxExpiry => exact completes (execNmTmaxExpiry_frame _ _) (by decide)
  | nmConfig => exact completes (execNmConfig_frame _ _ _ _) (by decide)
  | nmRequestAwake => exact completes (execNmRequestAwake_frame _ _ _) (by decide)
  | nmRelease => exact completes (execNmRelease_frame _ _ _) (by decide)
  | nmSetTmax => exact completes (execNmSetTmax_frame _ _ _ _) (by decide)
  | nmGetStatus => exact completes (execNmGetStatus_frame _ _ _) (by decide)
  | linSlotStart => exact completes (execLinSlotStart_frame _ _) (by decide)
  | linFrameEnd => exact completes (execLinFrameEnd_frame _ _ _ _) (by decide)
  | linWakeScheduleStart => exact completes (execLinWakeScheduleStart_frame _ _) (by decide)
  | linResponderWake => exact completes (execLinResponderWake_frame _ _) (by decide)
  | linBusFault => exact completes (execLinBusFault_frame _ _) (by decide)
  | linBusFaultEnd => exact completes (execLinBusFaultEnd_frame _ _) (by decide)
  | linRxLostRead => exact completes (execLinRxLostRead_frame _ _ _) (by decide)
  | linConfig => exact completes (execLinConfig_frame _ _ _ _) (by decide)
  | linLoadSchedule => exact completes (execLinLoadSchedule_frame _ _ _ _ _ _) (by decide)
  | linSelectSchedule => exact completes (execLinSelectSchedule_frame _ _ _ _) (by decide)
  | linWake => exact completes (execLinWake_frame _ _ _) (by decide)
  | linSleep => exact completes (execLinSleep_frame _ _ _) (by decide)
  | linDiag => exact completes (execLinDiag_frame _ _ _ _ _) (by decide)
  | linDiagDone => exact completes (execLinDiagDone_frame _ _) (by decide)
  | linGetStatus => exact completes (execLinGetStatus_frame _ _ _) (by decide)
  | linRxOverrunEnd => exact completes (execLinRxOverrunEnd_frame _ _) (by decide)
  | sourcePduUpdate => exact completes (execSourcePduUpdate_frame _ _ _) (by decide)
  | pduTimeout => exact completes (execPduTimeout_frame _ _) (by decide)
  | signalCyclicWrite => exact completes (execSignalCyclicWrite_frame _ _) (by decide)
  | signalDeferredWrite => exact completes (execSignalDeferredWrite_frame _ _) (by decide)
  | pduCyclicSend => exact completes (execPduCyclicSend_frame _ _) (by decide)
  | i3RecordFrame => exact completes (execI3RecordFrame_frame _ _ _) (by decide)
  | sigTableEcc => exact completes (execSigTableEcc_frame _ _ _) (by decide)
  | sigWrLoWrite => exact completes (execSigWrLoWrite_frame _ _ _ _) (by decide)
  | sigRdLoRead => exact completes (execSigRdLoRead_frame _ _ _) (by decide)
  | prsBlock => exact completes (execPrsBlock_frame _ _ _ _) (by decide)
  | prsCaptureComplete => exact completes (execPrsCaptureComplete_frame _ _) (by decide)
  | sigLoad => exact completes (execSigLoad_frame _ _ _ _ _ _) (by decide)
  | sigRead => exact completes (execSigRead_frame _ _ _ _) (by decide)
  | sigWrite => exact completes (execSigWrite_frame _ _ _ _ _) (by decide)
  | sigGetStatus => exact completes (execSigGetStatus_frame _ _ _ _) (by decide)
  | sigPrsConfig => exact completes (execSigPrsConfig_frame _ _ _) (by decide)
  | sigPrsStart => exact completes (execSigPrsStart_frame _ _ _) (by decide)
  | sigPrsStop => exact completes (execSigPrsStop_frame _ _ _) (by decide)
  | sigCapture => exact completes (execSigCapture_frame _ _ _ _ _ _) (by decide)
  | viewChangeApply => exact completes (execViewChangeApply_frame _ _) (by decide)
  | captureEvent => exact completes (execCaptureEvent_frame _ _ _) (by decide)
  | triggerFire => exact completes (execTriggerFire_frame _ _) (by decide)
  | rtcAlarmExpiry => exact completes (execRtcAlarmExpiry_frame _) (by decide)
  | timeRead => exact completes (execTimeRead_frame _ _ _) (by decide)
  | timeAdjust => exact completes (execTimeAdjust_frame _ _ _) (by decide)
  | timeViewAlloc => exact completes (execTimeViewAlloc_frame _ _ _ _ _) (by decide)
  | timeCaptureConfig => exact completes (execTimeCaptureConfig_frame _ _ _ _ _ _) (by decide)
  | timeTriggerConfig => exact completes (execTimeTriggerConfig_frame _ _ _) (by decide)
  | timeRtcAlarm => exact completes (execTimeRtcAlarm_frame _ _ _ _) (by decide)
  | vzfCreate => exact completes (execVzfCreate_frame _ _ _ _ _) (by decide)
  | vzfDestroy => exact completes (execVzfDestroy_frame _ _ _) (by decide)
  | vzfReset => exact completes (execVzfReset_frame _ _ _) (by decide)
  | vzfResetDrainEnd => exact completes (execVzfResetDrainEnd_frame _ _) (by decide)
  | vzfQos => exact completes (execVzfQos_frame _ _ _ _) (by decide)
  | vzfGetInfo => exact completes (execVzfGetInfo_frame _ _ _) (by decide)
  | vzfList => exact completes (execVzfList_frame _ _) (by decide)
  | dramZeroComplete => exact completes (execDramZeroComplete_frame _ _) (by decide)
  | interruptBudgetRefill => exact completes (execInterruptBudgetRefill_frame _) (by decide)
  | vectorHoldoffExpiry => exact completes (execVectorHoldoffExpiry_frame _ _ _) (by decide)
  | lockstepMismatch => exact completes (execLockstepMismatch_frame _ _ _) (by decide)
  | pairLbistDecision => exact completes (execPairLbistDecision_frame _ _ _ _) (by decide)
  | pairMigration => exact completes (execPairMigration_frame _) (by decide)
  | trapStacking => exact completes (execTrapStacking_frame _ _ _ _ _ _ _) (by decide)
  | mretUnstack => exact completes (execMretUnstack_frame _ _ _ _) (by decide)
  | safCkptGoWrite => exact completes (execSafCkptGoWrite_frame _ _ _) (by decide)
  | checkpointComplete => exact completes (execCheckpointComplete_frame _ _ _) (by decide)
  | trngHealthFail => exact completes (execTrngHealthFail_frame _) (by decide)
  | keyProvision => exact completes (execKeyProvision_frame _ _ _) (by decide)
  | keySlotStatus => exact completes (execKeySlotStatus_frame _ _ _ _) (by decide)
  | keyEraseSlot => exact completes (execKeyEraseSlot_frame _ _ _ _ _) (by decide)
  | keyAttest => exact completes (execKeyAttest_frame _ _ _ _) (by decide)
  | keyRandom => exact completes (execKeyRandom_frame _ _ _) (by decide)
  | keyGetIdentity => exact completes (execKeyGetIdentity_frame _ _) (by decide)
  | updBegin => exact completes (execUpdBegin_frame _ _ _ _) (by decide)
  | updWrite => exact completes (execUpdWrite_frame _ _ _ _) (by decide)
  | updVerify => exact completes (execUpdVerify_frame _ _) (by decide)
  | updVerifyDone => exact completes (execUpdVerifyDone_frame _ _ _) (by decide)
  | updCommit => exact completes (execUpdCommit_frame _ _ _) (by decide)
  | updAbort => exact completes (execUpdAbort_frame _ _) (by decide)
  | updStatus => exact completes (execUpdStatus_frame _ _) (by decide)
  | updRestart => exact completes (execUpdRestart_frame _ _) (by decide)
  | updWaiver => exact completes (execUpdWaiver_frame _ _ _ _ _) (by decide)
  | updTargetTimeout => exact completes (execUpdTargetTimeout_frame _) (by decide)
  | udsSessionControl => exact completes (execUdsSessionControl_frame _ _) (by decide)
  | udsEcuReset => exact completes (execUdsEcuReset_frame _ _) (by decide)
  | udsReadDataById => exact completes (execUdsReadDataById_frame _ _) (by decide)
  | udsRequestSeed => exact completes (execUdsRequestSeed_frame _) (by decide)
  | udsSendKey => exact completes (execUdsSendKey_frame _ _) (by decide)
  | udsSecurityLockoutEnd => exact completes (execUdsSecurityLockoutEnd_frame _) (by decide)
  | udsRoutineControl => exact completes (execUdsRoutineControl_frame _ _ _ _) (by decide)
  | udsRequestDownload => exact completes (execUdsRequestDownload_frame _ _ _ _ _) (by decide)
  | udsTransferData => exact completes (execUdsTransferData_frame _ _ _) (by decide)
  | udsRequestTransferExit => exact completes (execUdsRequestTransferExit_frame _) (by decide)
  | udsTesterPresent => exact completes (execUdsTesterPresent_frame _ _) (by decide)
  | udsS3Timeout => exact completes (execUdsS3Timeout_frame _) (by decide)
  | basecampPortIdle => exact completes (execBasecampPortIdle_frame _) (by decide)
  | belayFrameSend => exact completes (execBelayFrameSend_frame _) (by decide)
  | belayEncoderTimeout => exact completes (execBelayEncoderTimeout_frame _) (by decide)
  | belayFrameDecoded => exact completes (execBelayFrameDecoded_frame _ _) (by decide)
  | belayPartnerLost => exact completes (execBelayPartnerLost_frame _) (by decide)
  | twinGateDelay => exact completes (execTwinGateDelay_frame _ _) (by decide)
  | twinGraceExpiry => exact completes (execTwinGraceExpiry_frame _) (by decide)
  | healthReport => exact completes (execHealthReport_frame _ _ _) (by decide)
  | standbySelftest => exact completes (execStandbySelftest_frame _ _ _ _) (by decide)
  | twinStatus => exact completes (execTwinStatus_frame _ _) (by decide)
  | twinHealth => exact completes (execTwinHealth_frame _ _ _) (by decide)
  | twinBelayTest => exact completes (execTwinBelayTest_frame _ _ _) (by decide)
  | belayTestDone => exact completes (execBelayTestDone_frame _) (by decide)
  | logRead => exact completes (execLogRead_frame _ _ _ _ _) (by decide)
  | logArchive => exact completes (execLogArchive_frame _ _ _) (by decide)
  | logStatus => exact completes (execLogStatus_frame _ _ _) (by decide)
  | logReadStones => exact completes (execLogReadStones_frame _ _) (by decide)
  | logClearStones => exact completes (execLogClearStones_frame _ _) (by decide)
  | stoneCopyDone => exact completes (execStoneCopyDone_frame _ _) (by decide)
  | logSramEcc => exact completes (execLogSramEcc_frame _) (by decide)
  | nandLogWriteFail => exact completes (execNandLogWriteFail_frame _) (by decide)

/-- Settles O51, by the frame of each command (`exec_completes`). -/
theorem everyCommandCompletes : Obligations.EveryCommandCompletes := exec_completes

/-- Settles O49: the step of a state whose queue is not empty (`step_of_command`). -/
theorem stepTakesTheFrontCommand : Obligations.StepTakesTheFrontCommand := fun _ _ _ => step_of_command

/-! ### Every step keeps -/

/-- What the release from reset keeps of `Keeps`, every command does. -/
theorem exec_kept_weak (c : Instr) (s : State) : Kept false false false s (exec c s) := by
  by_cases release : ∃ f, c = .resetRelease f
  · obtain ⟨f, rfl⟩ := release
    exact execResetRelease_keeps f s
  · exact fun t ht => (exec_kept c s (fun f e => release ⟨f, e⟩) t ht).weaken

/-- A clock period counts and nothing else, so it keeps all but the count. -/
theorem tick_keeps (s : State) : Keeps false true true s (tick s) := by
  unfold tick
  split
  · exact Keeps.refl ..
  · exact ⟨fun c => ⟨c.tcm, c.bankA, c.bankB, c.copies, c.staged, c.checked, c.ready⟩, fun _ => Nat.le_refl _,
      fun n => absurd n (by decide), fun _ k => k, fun _ => rfl⟩

/-- What a step does: a clock period, or the command at the front of the queue with the queue's rest. -/
theorem step_cases {s t : State} (h : step s = .next t) :
    t = tick s ∨ ∃ c rest, s.pending = c :: rest ∧ exec c { s with pending := rest } = .next t := by
  cases queue : s.pending with
  | nil =>
    rw [step_of_idle queue] at h
    cases h
    exact .inl rfl
  | cons c rest => exact .inr ⟨c, rest, rfl, (step_of_command queue).symm.trans h⟩

/-- Taking a command from the queue changes nothing that `Keeps` speaks of. -/
theorem keeps_dequeue {n b q : Bool} (s : State) (rest : List Instr) : Keeps n b q s { s with pending := rest } :=
  ⟨fun c => ⟨c.tcm, c.bankA, c.bankB, c.copies, c.staged, c.checked, c.ready⟩, fun _ => Nat.le_refl _, fun _ => rfl, fun _ k => k,
    fun _ => rfl⟩

theorem step_keeps {s t : State} (h : step s = .next t) : Keeps false false false s t := by
  obtain rfl | ⟨c, rest, -, ht⟩ := step_cases h
  · exact (tick_keeps s).weaken
  · exact Keeps.via (exec_kept_weak c _ t ht) (keeps_dequeue s rest)

/-- Settles O54: buffers are among what every step keeps (`step_keeps`). -/
theorem stepKeepsTheBuffersCanonical : Obligations.StepKeepsTheBuffersCanonical :=
  fun _ _ canonical h => (step_keeps h).buffers canonical

/-- Settles O56: the minima are among what every step keeps (`step_keeps`). -/
theorem securityMinimaNeverFall : Obligations.SecurityMinimaNeverFall := fun _ _ cls h => (step_keeps h).floors cls

/-- While the logic runs, a release from reset is ignored (R497). -/
theorem resetRelease_of_running (f : StartFacts) {s : State} (runs : s.sys.phase = .running) : resetRelease f s = s :=
  resetRelease_of_not_releases f (fun ⟨waiting, _⟩ => absurd (runs.symm.trans waiting) (by decide))

theorem exec_calm {c : Instr} {s t : State} (runs : s.sys.phase = .running) (calm : s.calm) (h : exec c s = .next t) : t.calm := by
  by_cases release : ∃ f, c = .resetRelease f
  · obtain ⟨f, rfl⟩ := release
    cases h
    rwa [resetRelease_of_running f runs]
  · exact (exec_kept c s (fun f e => release ⟨f, e⟩) t h).calm rfl calm

/-- Settles O55: a release is ignored while the logic runs (`resetRelease_of_running`), and every other command and the clock keep a
self-arrest or stop the logic. -/
theorem selfArrestLastsWhileTheLogicRuns : Obligations.SelfArrestLastsWhileTheLogicRuns := by
  intro s t arrested runs h
  obtain rfl | ⟨c, rest, -, ht⟩ := step_cases h
  · exact (tick_keeps s).calm rfl (.inl arrested)
  · exact exec_calm (s := { s with pending := rest }) runs (.inl arrested) ht

theorem resetRelease_slots (f : StartFacts) (s : State) : (resetRelease f s).key.slots = s.key.slots :=
  (resetRelease_keeps (κ := true) f s).slots rfl

/-- Settles O58: a release reads no tag yet (`resetRelease_slots`), and of the other commands only the six may change a slot
(`exec_keptSlots`). -/
theorem keySlotsChangeOnlyByTheirCommands : Obligations.KeySlotsChangeOnlyByTheirCommands := by
  intro c s t h changed
  refine Classical.byContradiction (fun excluded => ?_)
  simp only [not_or, not_exists] at excluded
  obtain ⟨provision, erase, routine, lock, late, forced⟩ := excluded
  refine changed ?_
  by_cases release : ∃ f, c = .resetRelease f
  · obtain ⟨f, rfl⟩ := release
    cases h
    exact resetRelease_slots f s
  · exact (exec_keptSlots c s (fun f e => release ⟨f, e⟩) lock late forced provision erase routine t h).slots rfl

/-! ### The reset state -/

theorem reset_modeWord : State.reset.modeWord = 0x10000000 := rfl

/-- Every buffer of the reset state is empty. -/
theorem reset_canonical : State.reset.Canonical where
  tcm _ := rfl
  bankA := rfl
  bankB := rfl
  copies _ _ := rfl
  staged _ := nofun
  checked _ := nofun
  ready _ _ := nofun

/-- Settles O53, field by field. -/
theorem resetLeavesTheModuleOff : Obligations.ResetLeavesTheModuleOff :=
  ⟨rfl, rfl, rfl, rfl, rfl, fun _ => rfl, rfl, rfl, rfl, by rw [reset_modeWord]; decide, reset_canonical⟩

/-! ### The checks of a request -/

theorem Need.check_of_sysPriv {p : Port} (system : p.sysPriv = true) (n : Need) : n.check p = none := by
  cases n <;> simp only [Need.check, system, if_true]

theorem Need.check_system_of_plain {p : Port} (plain : p.sysPriv = false) : Need.system.check p = some stat_denied := by
  simp only [Need.check, plain, Bool.false_eq_true, if_false]

theorem Need.check_unowned_of_plain {p : Port} (plain : p.sysPriv = false) : (Need.owner none).check p = some stat_denied := by
  simp only [Need.check, plain, Option.isSome_none, Bool.false_and, Bool.false_eq_true, if_false]

theorem Need.check_owner_of_plain {p : Port} (plain : p.sysPriv = false) (v : Nat) :
    (Need.owner (some v)).check p = if p.vzf = some v then none else some stat_notOwner := by
  simp only [Need.check, plain, Option.isSome_some, Bool.true_and, decide_eq_true_eq, Bool.false_eq_true, if_false, if_true,
    eq_comm (a := some v)]

/-- Settles O52: which check fails first is read off `Cmd.check`; a failed check answers with its status alone
(`runCmd_rejected`), and where none fails the command acts (`runCmd_accepted`). -/
theorem checksComeInTheOrderOfR72 : Obligations.ChecksComeInTheOrderOfR72 := by
  intro r c body s p open_
  refine ⟨fun version => runCmd_rejected body open_ (if_pos version), fun version len => runCmd_rejected body open_ ?length,
    fun st version len need => runCmd_rejected body open_ ?need, fun version len need zero => runCmd_rejected body open_ ?zero,
    fun st version len need zero payload => runCmd_rejected body open_ ?payload,
    fun version len need zero payload mode => runCmd_rejected body open_ ?mode,
    fun version len need zero payload mode => runCmd_accepted body open_
      ((Cmd.check_none_iff c r p).mpr ⟨version, len, need, zero, payload, mode⟩),
    Need.check_of_sysPriv,
    fun plain => ⟨Need.check_system_of_plain plain, Need.check_unowned_of_plain plain,
      fun v own => (Need.check_owner_of_plain plain v).trans (if_pos own),
      fun v other => (Need.check_owner_of_plain plain v).trans (if_neg other)⟩⟩
  case length => simp [Cmd.check, version, len]
  case need => simp [Cmd.check, version, len, need]
  case zero => simp [Cmd.check, version, len, need, zero]
  case payload => simp [Cmd.check, version, len, need, zero, payload]
  case mode => simp [Cmd.check, version, len, need, zero, payload, mode]

/-! ### The clock period -/

theorem getLsbD_ofNat_two_pow {w i : Nat} (small : i < w) : (BitVec.ofNat w (2 ^ i)).getLsbD i = true := by
  rw [BitVec.getLsbD_ofNat, Nat.testBit_two_pow_self, Bool.and_true, decide_eq_true small]

section
variable {a : Aplic} {f : Tbl Imsic}

theorem Aplic.signal_of_active (active : a.active.getLsbD 1 = true) : a.signal = { a with pend := a.pend ||| 2 } := by
  simp only [Aplic.signal, active, if_true]

theorem Aplic.signal_of_inactive (inactive : a.active.getLsbD 1 = false) : a.signal = a := by
  simp only [Aplic.signal, inactive, Bool.false_eq_true, if_false]

theorem Aplic.deliver_of_idle (idle : (a.ie && a.pend.getLsbD 1 && a.en.getLsbD 1) = false) : a.deliver f = (a, f) := by
  simp only [Aplic.deliver, idle, Bool.false_eq_true, if_false]

/-- A domain without source 1 neither takes nor sends it. -/
theorem Aplic.deliver_signal_of_inactive (inactive : a.active.getLsbD 1 = false) (quiet : a.pend.getLsbD 1 = false) :
    a.signal.deliver f = (a, f) := by
  rw [Aplic.signal_of_inactive inactive, Aplic.deliver_of_idle (by simp only [quiet, Bool.and_false, Bool.false_and])]

/-- The MSI of source 1: it leaves the domain and its identity becomes pending in the file of its target. -/
theorem Aplic.deliver_signal_of_active {h g id : Nat} (ie : a.ie = true) (active : a.active.getLsbD 1 = true)
    (en : a.en.getLsbD 1 = true) (target : a.target.get? 1 = some (h, g, id)) (low : 1 ≤ id) (high : id ≤ 255) :
    a.signal.deliver f = ({ a with pend := a.pend &&& 0xFFFFFFFFFFFFFFFD },
      f.modify .reset (16 * h + g) (fun x => { x with pend := x.pend ||| BitVec.ofNat 256 (2 ^ id) })) := by
  have found : a.target.getD (0, 0, 0) 1 = (h, g, id) := by
    simp only [Tbl.get?] at target
    simp only [Tbl.getD, target, Option.getD_some]
  have pends : (a.pend ||| 2).getLsbD 1 = true := by simp
  have inside : within 1 255 id = true := by simp [within, low, high]
  have cleared : (a.pend ||| 2) &&& ~~~2 = a.pend &&& 0xFFFFFFFFFFFFFFFD := by
    rw [show (0xFFFFFFFFFFFFFFFD : U64) = ~~~2 from rfl, BitVec.and_or_distrib_right, BitVec.and_not_self]
    exact BitVec.or_zero
  simp only [Aplic.signal_of_active active, Aplic.deliver, ie, pends, en, Bool.and_self, if_true, found, inside, cleared]

end

theorem AppState.pageUpdate_of_quiet_supervisor {a : AppState} (inactive : a.supervisor.active.getLsbD 1 = false)
    (quiet : a.supervisor.pend.getLsbD 1 = false) :
    a.pageUpdate = { a with machine := (a.machine.signal.deliver a.imsic).1, imsic := (a.machine.signal.deliver a.imsic).2 } := by
  simp only [AppState.pageUpdate, Aplic.deliver_signal_of_inactive inactive quiet]

theorem reset_harts {h : Nat} (small : h < 8) : AppState.reset.harts[h]? = some (AppHart.reset h) := by
  simp [AppState.reset, small]

/-- Settles O50: the period is one update of two parts (`tick`), and the update of the status page is a signal on source 1 of the APLIC's
two domains, which one of them may send on (`Aplic.deliver_signal_of_active`). That a period passes on an empty queue is the model's choice
(log entry 2). -/
theorem idleStepTicks : Obligations.IdleStepTicks := by
  refine ⟨?unpowered, ?powered, ?pends, ?sends, rfl, fun h small => reset_harts small, fun _ => rfl, rfl, rfl⟩
  case unpowered =>
    intro s idle off
    rw [step_of_idle idle, tick_of_unpowered off]
  case powered =>
    intro s idle power
    refine ⟨tick s, step_of_idle idle, tick_count power, tick_bivFrac power, ?_⟩
    have framed := tick_frame s
    rw [tick, power] at framed ⊢
    exact ⟨rfl, rfl, rfl, rfl, rfl, framed⟩
  case pends =>
    intro a off active inactive quiet
    rw [AppState.pageUpdate_of_quiet_supervisor inactive quiet, Aplic.signal_of_active active, Aplic.deliver_of_idle]
    simp only [off, Bool.false_and]
  case sends =>
    intro a h f id ie active en target low high inactive quiet
    rw [AppState.pageUpdate_of_quiet_supervisor inactive quiet, Aplic.deliver_signal_of_active ie active en target low high]
    refine ⟨rfl, rfl, ?_, fun k other => Tbl.getD_modify_other _ _ _ _ _ other, rfl⟩
    rw [Tbl.getD_modify_same, BitVec.getLsbD_or, getLsbD_ofNat_two_pow (by omega), Bool.or_true]

end Sys2Proof.Machine
end

section
/-! PROOF. Rules for requests and ports: what a command answers by its checks, and what an update of a port leaves (R62, R72, R75, R89). -/

namespace Sys2Proof.Machine

/-! ### Tables -/

theorem Tbl.get?_set_same {α : Type} (t : Tbl α) (k : Nat) (v : α) : (t.set k v).get? k = some v := Tbl.find_insert_same t.cells k v

theorem Tbl.get?_set_other {α : Type} (t : Tbl α) {k i : Nat} (v : α) (h : i ≠ k) : (t.set k v).get? i = t.get? i :=
  Tbl.find_insert_other t.cells k i v h

theorem Tbl.getD_of_get? {α : Type} {t : Tbl α} {k : Nat} {v : α} (h : t.get? k = some v) (d : α) : t.getD d k = v := by
  simp only [Tbl.get?] at h
  simp only [Tbl.getD, h, Option.getD_some]

/-! ### Checks of a request -/

@[simp] theorem needStat_eq_none {c : Bool} {st : U16} : needStat c st = none ↔ c = true := by
  cases c <;> simp [needStat]

@[simp] theorem needStat_true (st : U16) : needStat true st = none := rfl
@[simp] theorem needStat_false (st : U16) : needStat false st = some st := rfl
@[simp] theorem Need.check_any (p : Port) : Need.any.check p = none := rfl

theorem Need.check_of_mayUse {p : Port} {v : Option Nat} (h : p.mayUse v) : (Need.owner v).check p = none := by
  obtain system | ⟨named, same⟩ := h
  · exact Need.check_of_sysPriv system _
  · subst same
    simp [Need.check, named]

section
variable {c : Instr} {r : Req} {cmd : Cmd} {s : State} {p : Port} {n : Nat} {status : U16} {data : List Byte} {post : State → Prop}

theorem Requested.passes (q : Requested s r p n) (len : cmd.lenOk = true) (need : cmd.need.check p = none)
    (payload : cmd.payload = none) (mode : cmd.modeOk = true) : cmd.check r p = none :=
  (Cmd.check_none_iff cmd r p).mpr ⟨q.version, len, need, q.zero, payload, mode⟩

/-- A well-formed request that lacks the privilege (R62). -/
theorem Requested.denied (q : Requested s r p n) (len : cmd.lenOk = true) (need : cmd.need.check p = some status) :
    cmd.check r p = some status := by
  simp [Cmd.check, q.version, len, need]

/-- A well-formed request whose payload content is refused (R72). -/
theorem Requested.refused (q : Requested s r p n) (len : cmd.lenOk = true) (need : cmd.need.check p = none)
    (payload : cmd.payload = some status) : cmd.check r p = some status := by
  simp [Cmd.check, q.version, len, need, q.zero, payload]

/-- A well-formed request that the mode does not allow (R72). -/
theorem Requested.badMode (q : Requested s r p n) (len : cmd.lenOk = true) (need : cmd.need.check p = none)
    (payload : cmd.payload = none) (mode : cmd.modeOk = false) : cmd.check r p = some stat_badMode := by
  simp [Cmd.check, q.version, len, need, q.zero, payload, mode]

/-- A request that passes its checks is answered with what the command's own effect says, in the state it leaves. -/
theorem answers_of_accepted {body : Port → State → State × Reply} {u : State} {code : U16} (q : Requested s r p n)
    (acts : exec c s = .next (runCmd r cmd body s)) (passes : cmd.check r p = none) (does : body p s = (u, ⟨status, data⟩))
    (named : cmd.code = code) (leaves : post u) : Answers c r code status data s post :=
  ⟨u, by rw [acts, runCmd_accepted body q.port passes, does, named], leaves⟩

/-- A request that fails a check is answered with its status, and changes nothing. -/
theorem answers_of_rejected {body : Port → State → State × Reply} {code : U16} (q : Requested s r p n)
    (acts : exec c s = .next (runCmd r cmd body s)) (fails : cmd.check r p = some status) (named : cmd.code = code) (leaves : post s) :
    Answers c r code status [] s post :=
  ⟨s, by rw [acts, runCmd_rejected body q.port fails, named], leaves⟩

/-- A request of a command that may answer later, and answers at once. -/
theorem answers_of_accepted_later {body : Port → State → State × Option Reply} {u : State} {code : U16} (q : Requested s r p n)
    (acts : exec c s = .next (runLater r cmd body s)) (passes : cmd.check r p = none) (does : body p s = (u, some ⟨status, data⟩))
    (named : cmd.code = code) (leaves : post u) : Answers c r code status data s post :=
  ⟨u, by rw [acts, runLater_accepted body q.port passes, does, named], leaves⟩

/-- A request of a command that may answer later, and does not answer yet. -/
theorem exec_of_unanswered {body : Port → State → State × Option Reply} {u : State} (q : Requested s r p n)
    (acts : exec c s = .next (runLater r cmd body s)) (passes : cmd.check r p = none) (does : body p s = (u, none)) :
    exec c s = .next u := by
  rw [acts, runLater_accepted body q.port passes, does]

theorem answers_of_rejected_later {body : Port → State → State × Option Reply} {code : U16} (q : Requested s r p n)
    (acts : exec c s = .next (runLater r cmd body s)) (fails : cmd.check r p = some status) (named : cmd.code = code) (leaves : post s) :
    Answers c r code status [] s post :=
  ⟨s, by rw [acts, runLater_rejected body q.port fails, named], leaves⟩

end

/-! ### Ports -/

section
variable {s : State} {n : Nat} {p : Port}

/-- The port after a change of it, made at the present time. -/
theorem State.modPort_port?_same (h : s.port? n = some p) (f : Port → Port) :
    (s.modPort n f).port? n = some (f { p with clock := s.wireStamp }) := by
  rw [State.modPort, h]
  exact Tbl.get?_set_same ..

theorem State.modPort_port?_other (s : State) {n k : Nat} (f : Port → Port) (other : k ≠ n) : (s.modPort n f).port? k = s.port? k := by
  unfold State.modPort
  split
  · rfl
  · exact Tbl.get?_set_other _ _ other

theorem State.modPort_of_closed (h : s.port? n = none) (f : Port → Port) : s.modPort n f = s := by
  simp only [State.modPort, h]

/-- A port whose producer indices stand still. -/
theorem Port.advanced_of_same {p q : Port} (rsp : q.rspProd = p.rspProd) (evt : q.evtProd = p.evtProd) : p.advanced q = false := by
  simp only [Port.advanced, rsp, evt, ne_eq, not_true_eq_false, decide_false, Bool.or_self, Bool.and_false]

theorem Port.advanced_of_remote {p q : Port} (remote : q.kind ≠ .loc) : p.advanced q = false := by
  simp only [Port.advanced, remote, decide_false, Bool.false_and]

theorem VzfState.notify_of_still {z : VzfState} {p q : Port} (h : p.advanced q = false) : z.notify p q = z := by
  simp only [VzfState.notify, h, Bool.false_eq_true, if_false]

/-- A change of a port that advances no producer index changes the mailbox alone. -/
theorem State.modPort_frame_mbx {f : Port → Port}
    (still : ∀ p, s.port? n = some p → p.advanced (f { p with clock := s.wireStamp }) = false) : Frame [.mbx] s (s.modPort n f) := by
  unfold State.modPort
  split
  case h_1 => exact Frame.refl ..
  case h_2 p h =>
    dsimp only
    rw [VzfState.notify_of_still (still p h)]
    exact Frame.set_mbx (Frame.refl ..) (by decide)

end

end Sys2Proof.Machine
end

section
/-! PROOF. The SYS commands on ports (R78, R85, R504). -/

namespace Sys2Proof.Machine

/-- The state in which `SYS.RESYNC` has counted the port's next session (R78). -/
def State.countSession (s : State) (n : Nat) : State :=
  { s with mbx := { s.mbx with sessions := s.mbx.sessions.set n (s.mbx.sessions.getD 0 n + 1) } }

theorem State.countSession_frame (s : State) (n : Nat) : Frame [.mbx] s (s.countSession n) :=
  Frame.set_mbx (Frame.refl ..) (by decide)

/-- What `SYS.RESYNC` leaves in the port (R78). -/
theorem resyncPort_leaves {s : State} {r : Req} {p : Port} (open_ : s.port? r.port = some p) :
    ∃ u, resyncPort r p s = (u, .ok (resyncBytes s p (s.mbx.sessions.getD 0 r.port + 1))) ∧ ∃ q, u.port? r.port = some q ∧
      q.awaits = false ∧ q.linkStale = false ∧ q.rtxStopped = false ∧ q.ctlCount = 0 ∧
      q.session = s.mbx.sessions.getD 0 r.port + 1 ∧ q.key = s.portKey p r.port q.session ∧ q.reqSeq = p.reqSeq ∧ q.opens = p.opens ∧
      Frame [.mbx] s u := by
  have stands : (s.countSession r.port).port? r.port = some p := open_
  exact ⟨_, rfl, _, State.modPort_port?_same stands _, rfl, rfl, rfl, rfl, rfl, rfl, rfl, rfl,
    (s.countSession_frame r.port).trans (State.modPort_frame_mbx (fun _ _ => Port.advanced_of_same rfl rfl))⟩

/-- The port with the rate limit that `SYS.SET_RATE` gives it. -/
def Port.rated (p : Port) (now rate burst : Nat) : Port :=
  { p.refill now with rate := rate, burst := burst, tokens := min (p.refill now).tokens (burst * tokenUnit) }

theorem Port.rated_tokens_le (p : Port) (now rate burst : Nat) : (p.rated now rate burst).tokens ≤ burst * tokenUnit :=
  Nat.min_le_right _ _

theorem Port.rated_advanced (p : Port) (now rate burst : Nat) (clock : U64) :
    p.advanced ({ p with clock := clock }.rated now rate burst) = false := by
  cases p
  exact Port.advanced_of_same rfl rfl

theorem setRate_of_open {s : State} {n burst rate : Nat} {q : Port} (open_ : s.port? n = some q) :
    setRate n burst rate s = (s.modPort n (fun p => p.rated s.now rate burst), .ok []) := by
  rw [setRate, open_]
  rfl

theorem replay_of_lists {s : State} {r : Req} {p : Port} {rsp evt : U32} {a b : List U32}
    (rsps : replayList rsp p.rspSeq (p.rsps.map (·.seq)) = some a) (evts : replayList evt p.evtSeq (p.evts.map (·.seq)) = some b) :
    replay r rsp evt p s = (s.modPort r.port (fun p => b.foldl Port.resendEvt (a.foldl Port.resendRsp p)), .ok []) := by
  simp only [replay, rsps, evts]

/-- Settles O8: each request passes its checks (`Requested.passes`), and its effect is one update of a port or none. -/
theorem portCommandsAnswer : Obligations.PortCommandsAnswer := by
  refine ⟨?resync, ?replay, ?subscribe, ?ping, ?info, ?stats, ?setRate, ?denied⟩
  case resync =>
    intro s r p q awake
    obtain ⟨u, does, leaves⟩ := resyncPort_leaves q.port
    exact answers_of_accepted q rfl (q.passes (decide_eq_true q.len) rfl rfl awake) does rfl leaves
  case replay =>
    intro s r p rsp evt a b q awake rsps evts
    exact answers_of_accepted q rfl (q.passes (decide_eq_true q.len) rfl rfl awake) (replay_of_lists rsps evts) rfl
      ⟨State.modPort_port?_same q.port _, State.modPort_frame ..⟩
  case subscribe =>
    intro s r p cls mask q serving small
    exact answers_of_accepted q rfl (q.passes (decide_eq_true q.len) rfl (needStat_eq_none.mpr (decide_eq_true small)) serving) rfl rfl
      ⟨State.modPort_port?_same q.port _, State.modPort_frame_mbx (fun _ _ => Port.advanced_of_same rfl rfl)⟩
  case ping =>
    intro s r p data q short awake
    exact answers_of_accepted q rfl (q.passes (by simp [q.len, short]) rfl rfl awake) rfl rfl rfl
  case info =>
    intro s r p q awake
    exact answers_of_accepted q rfl (q.passes (decide_eq_true q.len) rfl rfl awake) rfl rfl rfl
  case stats =>
    intro s r p q serving
    exact answers_of_accepted q rfl (q.passes (decide_eq_true q.len) rfl rfl serving) rfl rfl rfl
  case setRate =>
    intro s r p x port burst rate q system mode h511 h1 h64 h1000 h200000 open_
    exact answers_of_accepted q rfl
      (q.passes (decide_eq_true q.len) (Need.check_of_sysPriv system _) (by simp [h511, h1, h64, h1000, h200000]) mode)
      (setRate_of_open open_) rfl ⟨⟨_, State.modPort_port?_same open_ _, rfl, rfl, Port.rated_tokens_le ..⟩,
        State.modPort_frame_mbx (fun p _ => p.rated_advanced ..)⟩
  case denied =>
    intro s r p port burst rate q plain
    exact answers_of_rejected q rfl (q.denied (decide_eq_true q.len) (Need.check_system_of_plain plain)) rfl rfl

end Sys2Proof.Machine
end

section
/-! PROOF. The supply of the logic, its clock and its temperature (R28, R50, R93, R154, R500). -/

namespace Sys2Proof.Machine

/-! ### Self-arrest and restarts -/

theorem State.mode_of_sys {s t : State} (same : t.sys = s.sys) : t.sys.mode = s.sys.mode := congrArg SysState.mode same

@[simp] theorem arrestOutputs_sys (source : Nat) (detail : List Byte) (s : State) : (arrestOutputs source detail s).sys = s.sys :=
  (arrestOutputs_frame ..).same .sys (by decide)

@[simp] theorem arrestOutputs_net (source : Nat) (detail : List Byte) (s : State) : (arrestOutputs source detail s).net = s.net :=
  (arrestOutputs_frame ..).same .net (by decide)

@[simp] theorem arrestOnly_sys (source : Nat) (detail : List Byte) (s : State) : (arrestOnly source detail s).sys = s.sys :=
  (arrestOnly_frame ..).same .sys (by decide)

@[simp] theorem selfArrest_net (source : Nat) (detail : List Byte) (s : State) : (selfArrest source detail s).net = s.net :=
  (selfArrest_frame ..).same .net (by decide)

/-- Outside Run and Workshop a self-arrest changes no mode (R213, R31). -/
theorem selfArrest_sys_of_stays (source : Nat) (detail : List Byte) {s : State} (run : s.sys.mode ≠ .run) (work : s.sys.mode ≠ .workshop) :
    (selfArrest source detail s).sys = s.sys := by
  unfold selfArrest firstArrest
  split
  · rfl
  · split
    · exact raise_sys ..
    · dsimp only
      simp only [run, work, or_self, if_false, arrestOutputs_sys]

/-! ### The logic supply -/

theorem feedLow_of_raised {s : State} (raised : s.sys.logicLowRaised = true) : feedLow s = s := by
  simp only [feedLow, raised, Bool.not_true, Bool.and_false, Bool.false_eq_true, if_false]

theorem feedLow_of_new {s : State} (up : s.mgrUp = true) (new : s.sys.logicLowRaised = false) :
    feedLow s = raise evt_brgLogicLow noInst .wide [] { s with sys := { s.sys with logicLowRaised := true } } := by
  simp only [feedLow, up, new, Bool.not_false, Bool.and_self, if_true]

/-- The state that a failing feed has arrested, before the reset of the logic (R154). -/
def feedArrest (s : State) : State := if s.mgrUp then raise evt_brgPowerFail noInst .wide [] (arrestOnly 6 [] s) else s

theorem feedArrest_sys (s : State) : (feedArrest s).sys = s.sys := by
  unfold feedArrest
  split
  · rw [raise_sys, arrestOnly_sys]
  · rfl

theorem feedFail_of_gone {s : State} (power : s.sys.phase ≠ .unpowered) (gone : s.sys.mode = .off ∨ s.sys.mode = .bivouac) :
    feedFail s = goOff 1 (feedArrest s) := by
  rcases gone with mode | mode <;> simp only [feedFail, feedArrest, power, mode, if_false]

theorem feedFail_of_served {s : State} (power : s.sys.phase ≠ .unpowered) (off : s.sys.mode ≠ .off) (biv : s.sys.mode ≠ .bivouac) :
    feedFail s = feedReset (if s.sys.mode = .limp ∨ s.sys.mode = .basecamp then 0x10 else 0x0F) (feedArrest s) := by
  cases mode : s.sys.mode <;> simp_all [feedFail, feedArrest]

/-! ### The clock monitor -/

section
variable {s : State} (up : s.mgrUp = true) (lock : s.sys.rootLock = true)
include up lock

theorem clockTrip_of_basecamp (mode : s.sys.mode = .basecamp) :
    (clockTrip s).sys = { s.sys with onRef := true, monTrip := true } ∧ ((clockTrip s).canCh 0).record = romCanRecord false := by
  simp only [clockTrip, up, lock, mode, Bool.not_true, Bool.or_self, Bool.false_eq_true, if_false, if_true, State.canCh, raise_sys,
    raise_net, selfArrest_net]
  rw [selfArrest_sys_of_stays 5 [] (by simp) (by simp)]
  exact ⟨rfl, congrArg CanChan.record (Tbl.getD_modify_same ..)⟩

theorem clockTrip_of_serving (mode : s.sys.mode ≠ .basecamp) :
    ∃ t, clockTrip s = { t with sys := { t.sys with monTrip := true } } ∧
      t = integrityRestart 5 [] (some evt_clkLockLost) { s with sys := { s.sys with onRef := true } } := by
  simp only [clockTrip, up, lock, mode, Bool.not_true, Bool.or_self, Bool.false_eq_true, if_false]
  exact ⟨_, rfl, rfl⟩

end

/-! ### Temperatures -/

theorem logicOvertemp_of_up {s : State} (temp : Int) (up : s.mgrUp = true) : ∃ t, logicOvertemp temp s =
    { t with sys := { t.sys with dieHot := true } } ∧ t = restart 0x0F (raise evt_pkgLogicOvertemp noInst .wide (i16 temp) s) := by
  simp only [logicOvertemp, up, Bool.not_true, Bool.false_eq_true, if_false]
  exact ⟨_, rfl, rfl⟩

theorem baseHot_of_up {s : State} (temp : Int) (up : s.mgrUp = true) :
    (baseHot temp s).sys.hotEpisode = true ∧ (baseHot temp s).sys.baseTemp = temp ∧ Frame [.sys, .mbx, .log, .vz] s (baseHot temp s) := by
  refine ⟨?_, ?_, baseHot_frame temp s⟩ <;> cases hot : s.sys.hotEpisode <;> simp [baseHot, up, hot]

theorem baseOver_of_up {s : State} (temp : Int) (up : s.mgrUp = true) :
    (baseOver temp s).sys.overEpisode = true ∧ (baseOver temp s).sys.baseTemp = temp ∧
      (baseOver temp s).sys.lossLimitMw = lossLimit temp ∧ Frame [.sys, .mbx, .log, .vz] s (baseOver temp s) := by
  refine ⟨?_, ?_, ?_, baseOver_frame temp s⟩ <;> cases episode : s.sys.overEpisode <;> simp [baseOver, up, episode]

/-- Settles O1: every clause reads the fields that the last update of its function sets; what comes before, the self-arrest included, leaves
the mode alone where the manual says so (`selfArrest_sys_of_stays`). -/
theorem supplyAndTemperatureMoveTheModule : Obligations.SupplyAndTemperatureMoveTheModule := by
  refine ⟨?valid, ?loss, ?low, ?again, ?served, ?gone, ?off, ?trip, ?basecamp, ?overtemp, ?cooled, ?hot, ?above, ?cold, ?cool⟩
  case valid =>
    intro s off
    refine ⟨_, rfl, ?_⟩
    simp only [supplyValid, off, if_true, true_and]
    exact Frame.set_sys (Frame.refl ..) (by decide)
  case loss => exact fun s => ⟨_, rfl, rfl, rfl, rfl, rfl, rfl⟩
  case low =>
    intro s up new
    refine ⟨_, rfl, ?_, feedLow_frame s⟩
    rw [feedLow_of_new up new, raise_sys]
  case again => exact fun s _ raised => congrArg Host.Outcome.next (feedLow_of_raised raised)
  case served =>
    intro s power off biv
    refine ⟨_, rfl, ?_⟩
    rw [feedFail_of_served power off biv]
    exact ⟨rfl, rfl, rfl, rfl⟩
  case gone =>
    intro s power gone
    refine ⟨_, rfl, ?_⟩
    rw [feedFail_of_gone power gone]
    exact ⟨rfl, rfl, rfl, rfl⟩
  case off => exact fun s off => congrArg Host.Outcome.next (if_pos off)
  case trip =>
    intro s up lock mode
    obtain ⟨t, eq, rfl⟩ := clockTrip_of_serving up lock mode
    exact ⟨_, congrArg Host.Outcome.next eq, rfl, rfl, rfl, rfl, rfl⟩
  case basecamp =>
    intro s up lock mode
    obtain ⟨sys, record⟩ := clockTrip_of_basecamp up lock mode
    exact ⟨_, rfl, by rw [sys], by rw [sys], by rw [sys]; exact mode, record⟩
  case overtemp =>
    intro temp s up
    obtain ⟨t, eq, rfl⟩ := logicOvertemp_of_up temp up
    exact ⟨_, congrArg Host.Outcome.next eq, rfl, rfl, rfl⟩
  case cooled => exact fun s => ⟨_, rfl, rfl, Frame.set_sys (Frame.refl ..) (by decide)⟩
  case hot => exact fun temp s up => ⟨_, rfl, baseHot_of_up temp up⟩
  case above =>
    intro temp s up exceeds
    obtain ⟨episode, base, loss, frame⟩ := baseOver_of_up temp up
    exact ⟨_, rfl, episode, base, loss.trans (if_neg (by omega)), frame⟩
  case cold =>
    intro temp s below
    refine ⟨_, rfl, ?_, ?_, if_pos (by omega), baseCooled_frame temp s⟩ <;> simp [baseCooled] <;> omega
  case cool =>
    intro temp s above below
    refine ⟨_, rfl, ?_, ?_, if_pos (by omega), baseCooled_frame temp s⟩ <;> simp [baseCooled] <;> omega

end Sys2Proof.Machine
end

section
/-! PROOF. The start and its proof (Table 2.4, R36 to R41, R215). -/

namespace Sys2Proof.Machine

/-! ### Tables and folds -/

theorem Tbl.find_map {α : Type} (l : List (Nat × α)) (k : Nat) (f : Nat → α → α) :
    Tbl.find (l.map (fun c => (c.1, f c.1 c.2))) k = (Tbl.find l k).map (f k) := by
  induction l with
  | nil => rfl
  | cons c r ih =>
    obtain ⟨j, v⟩ := c
    by_cases same : j = k
    · simp [Tbl.find, same]
    · simp [Tbl.find, same, ih]

theorem Tbl.get?_mapAll {α : Type} (t : Tbl α) (k : Nat) (f : Nat → α → α) : (t.mapAll f).get? k = (t.get? k).map (f k) :=
  Tbl.find_map t.cells k f

/-- A part of an entry that `mapAll` leaves alone. -/
theorem Tbl.getD_mapAll_of_kept {α β : Type} (t : Tbl α) (d : α) (k : Nat) (f : Nat → α → α) (g : α → β) (kept : ∀ j v, g (f j v) = g v) :
    g ((t.mapAll f).getD d k) = g (t.getD d k) := by
  have mapped := Tbl.get?_mapAll t k f
  simp only [Tbl.get?] at mapped
  simp only [Tbl.getD, mapped]
  cases Tbl.find t.cells k with
  | none => rfl
  | some v => exact kept k v

/-- What each step of a fold leaves alone, the fold does. -/
theorem foldl_keeps {α β : Type} (g : State → β) {f : State → α → State} (kept : ∀ s x, g (f s x) = g s) (l : List α) (s : State) :
    g (l.foldl f s) = g s := by
  induction l generalizing s with
  | nil => rfl
  | cons x r ih => exact (ih (f s x)).trans (kept s x)

/-! ### The release -/

@[simp] theorem restartCount_sys (s : State) : (restartCount s).sys = s.sys := rfl

/-- The fields of the mode and start-up state that t0 sets (R36, R41). -/
theorem startBegin_sys (f : StartFacts) (s : State) : (startBegin f s).sys = { s.sys with
    bootCount := s.sys.bootCount + 1, heartbeat := 0, failedStarts := if s.sys.reached then 0 else s.sys.failedStarts + 1
    reached := false, phase := .running, porPending := false, aonXtal := f.xtal, waiver := false, logicLowRaised := false, step := 1
    domains := [0, 1, 16, 87, 90, 95], basecampStatus := stat_ok, wake := if s.sys.porPending then .reset else s.sys.wake } := by
  cases por : s.sys.porPending <;>
    simp only [startBegin, por, apply_ite State.sys, raise_sys, ite_self, restartCount_sys, Bool.false_eq_true, if_false, if_true]

theorem resetRelease_of_releases (f : StartFacts) {s : State} (h : s.releases) :
    resetRelease f s = { startBegin f s with sys := { (startBegin f s).sys with facts := some f } } := by
  obtain ⟨phase, mode, cool⟩ := h
  simp only [resetRelease, phase, mode, cool, ne_eq, not_true_eq_false, decide_false, Bool.or_self, Bool.false_eq_true, if_false]

/-! ### Steps 3 and 4 -/

theorem repairedSlots_key (l : List (Fin 128)) (s : State) :
    (l.foldl (fun s n => raiseKey evt_keySlotRepaired n.val [] s) s).key = s.key :=
  foldl_keeps State.key (fun _ _ => raiseKey_key ..) l s

theorem badSlots_key (l : List (Fin 128)) (s : State) :
    { (l.foldl (fun s n => raiseKey evt_keySlotBad n.val [] (s.modKeySlot n.val (fun x => { x with state := .bad }))) s).key with
      slots := s.key.slots } = s.key :=
  foldl_keeps (fun t => { t.key with slots := s.key.slots }) (fun t n => by simp only [raiseKey_key]; rfl) l s

/-- What the ROM leaves in the measurement registers, and the result of the generator's health test (R421, R422). -/
theorem startKeys_key (f : StartFacts) (s : State) :
    (startKeys f s).key.mrs = List.replicate 8 (zeros 48) ∧ (startKeys f s).key.trngFail = !f.trngOk := by
  simp only [startKeys, apply_ite State.key, raiseKey_key, ite_self]
  constructor
  · exact (congrArg KeyState.mrs (badSlots_key ..)).trans (by simp only [repairedSlots_key, apply_ite State.key, raiseKey_key, ite_self])
  · exact (congrArg KeyState.trngFail (badSlots_key ..)).trans (by simp only [repairedSlots_key, apply_ite State.key, raiseKey_key, ite_self])

section
variable {s : State} {f : StartFacts}

theorem startRoot_of_due (facts : s.sys.facts = some f) (due : s.sys.step < 4) :
    startRoot s = startKeys f { s with sys := { s.sys with step := 4 } } := by
  simp only [startRoot, facts, due, if_true]

theorem startGoesOn_of_due (facts : s.sys.facts = some f) (due : s.sys.step < 4) :
    startGoesOn s = if 3 ≤ (startKeys f { s with sys := { s.sys with step := 4 } }).sys.failedStarts
      then basecampEnter stat_bootLoop (raise evt_bootLoop noInst .wide [] (startKeys f { s with sys := { s.sys with step := 4 } }))
      else startRom f (startKeys f { s with sys := { s.sys with step := 4 } }) := by
  simp only [startGoesOn, facts, startRoot_of_due facts due]

end

theorem starting_iff (s : State) : s.starting = true ↔ s.mgrUp = true ∧ s.sys.mode = .startup := by
  simp only [State.starting, Bool.and_eq_true, decide_eq_true_eq]

theorem pllLock_of_starting {s : State} (starts : s.starting = true) (unlocked : s.sys.rootLock = false) :
    pllLock s = advance (startGoesOn { s with sys := { s.sys with rootLock := true, onRef := false } }) := by
  obtain ⟨up, mode⟩ := (starting_iff s).mp starts
  simp only [pllLock, up, unlocked, mode, Bool.not_true, Bool.or_self, Bool.false_eq_true, if_false, if_true]

/-- Settles O2: the release is one update of the mode state (`startBegin_sys`), and the ROM's steps go on from the state that steps 3 and 4
leave (`startGoesOn_of_due`). The boot loop found at the fourth start and the split of the start are the model's reading (log entries 15 and
21). -/
theorem resetReleaseBeginsTheStart : Obligations.ResetReleaseBeginsTheStart := by
  refine ⟨?release, ?lock, ?waits⟩
  case release =>
    intro f s phase mode cool
    have count := resetRelease_count_of_releases f ⟨phase, mode, cool⟩
    refine ⟨_, rfl, ?_, ?_, ?_, ?_, ?_, ?_, ?_, fun por => count.trans (if_pos por),
      fun warm => count.trans (if_neg (by simp [warm])), resetRelease_frame f s⟩ <;>
      simp only [resetRelease_of_releases f ⟨phase, mode, cool⟩, startBegin_sys]
  case lock =>
    intro f s u starts unlocked facts due steps
    subst steps
    refine ⟨(startKeys_key f _).1, (startKeys_key f _).2, _, rfl, ?_⟩
    rw [pllLock_of_starting starts unlocked,
      startGoesOn_of_due (s := { s with sys := { s.sys with rootLock := true, onRef := false } }) facts due]
  case waits => exact fun f s phase => congrArg Host.Outcome.next (resetRelease_of_not_releases f (fun release => phase release.1))

end Sys2Proof.Machine
end

section
/-! PROOF. The events on which a start waits, and its proof (R15, R28, R31, R37 to R41, R393, R395). -/

namespace Sys2Proof.Machine

/-! ### How far a start goes on -/

theorem advance_of_waiting {s : State} (rules : s.readyForRules = false) (proof : s.provable = false) : advance s = s := by
  simp only [advance, rules, proof, Bool.false_eq_true, if_false]

theorem advance_of_provable {s : State} (rules : s.readyForRules = false) (proof : s.provable = true) : advance s = prove s := by
  simp only [advance, rules, proof, Bool.false_eq_true, if_false, if_true]

theorem advance_of_ready {s t : State} (rules : s.readyForRules = true) (loads : startStep13 s = t) (proof : t.provable = false) :
    advance s = t := by
  simp only [advance, rules, if_true, loads, proof, Bool.false_eq_true, if_false]

theorem startStep13_of_facts {s : State} {f : StartFacts} (facts : s.sys.facts = some f) :
    startStep13 s = if f.tableOk then startTables s else ruleFault s.digestDetail s.draw := by
  cases ok : f.tableOk <;> simp [startStep13, facts, ok]

theorem not_provable_of_stopped {s : State} (stopped : s.sys.phase ≠ .running) : s.provable = false := by
  simp [State.provable, State.starting, State.mgrUp, stopped]

/-- After a rule fault the logic waits for its release (R216, R507). -/
theorem not_provable_ruleFault (detail : List Byte) (s : State) : (ruleFault detail s).provable = false :=
  not_provable_of_stopped (by simp [show (ruleFault detail s).sys.phase = .waiting from rfl])

/-- The proof with `SAFE_N` high (R31, R38). -/
theorem prove_of_high {s : State} (high : s.rfx.safeN = false) :
    prove s = evalRules (if s.rfx.arrested then limpEntry trigArrest { s with sys := { s.sys with proven := true, step := 14 } }
      else if s.healthyPairs < s.cfg.image.aPairs then limpEntry trigPairs { s with sys := { s.sys with proven := true, step := 14 } }
      else runEntry { s with sys := { s.sys with proven := true, step := 14 } }) := by
  simp only [prove, high, Bool.false_and, Bool.false_eq_true, if_false]
  rfl

/-! ### The events -/

section
variable {s : State}

theorem pllLock_of_basecamp (up : s.mgrUp = true) (mode : s.sys.mode = .basecamp) (unlocked : s.sys.rootLock = false)
    (status : s.sys.basecampStatus ≠ stat_clkFail) :
    pllLock s = { s with sys := { s.sys with rootLock := true, onRef := false } }.modCan 0 (fun x => { x with record := romCanRecord true }) := by
  simp [pllLock, up, mode, unlocked, status]

theorem pllTimeout_of_starting (starts : s.starting = true) (unlocked : s.sys.rootLock = false) :
    pllTimeout s = basecampEnter stat_clkFail
      (raise evt_clkPllFail noInst .wide [] (startRoot { s with sys := { s.sys with fromBivouac := false } })) := by
  obtain ⟨up, mode⟩ := (starting_iff s).mp starts
  simp only [pllTimeout, up, unlocked, mode, Bool.not_true, Bool.or_self, Bool.false_eq_true, if_false, if_true]

theorem tableAck_of_starting {g : Nat} (starts : s.starting = true) (sent : 0 < (s.die g).tables) :
    tableAck g s = advance (s.modDie g (fun d => { d with acked := true })) := by
  obtain ⟨up, mode⟩ := (starting_iff s).mp starts
  simp only [tableAck, up, mode, Mode.isServing, sent, decide_true, Bool.and_self, if_true]

theorem unacked_of_starting {g : Nat} (starts : s.starting = true) (step : 8 ≤ s.sys.step) (waits : (s.die g).acked = false) :
    s.unacked g = true := by
  simp only [State.unacked, starts, step, waits, decide_true, Bool.not_false, Bool.and_self]

section
variable (starts : s.starting = true) (step : 8 ≤ s.sys.step) (unproven : s.sys.proven = false)
include starts step unproven

theorem vinCheck_of_inside :
    vinCheck true s = advance (urgent { s with sys := { s.sys with holdOff := false, vinChecked := true } }) := by
  simp [vinCheck, starts, Nat.not_lt.mpr step, unproven]

theorem vinCheck_of_outside (first : s.sys.holdOff = false) :
    vinCheck false s = advance (raise evt_boardnetMismatch noInst .wide []
      (enterStopped (urgent { s with sys := { s.sys with holdOff := true, vinChecked := false } }))) := by
  simp [vinCheck, starts, Nat.not_lt.mpr step, unproven, first]

end

theorem injectionDone_of_starting {p : Nat} (starts : s.starting = true) (step : 10 ≤ s.sys.step) (new : (s.pair p).tested = false)
    (pass : Bool) : injectionDone p pass s =
      advance (placeParts (if pass then s.modPair p (fun x => { x with tested := true, healthy := pass })
        else raiseSaf evt_pairTestFail p [] (s.modPair p (fun x => { x with tested := true, healthy := pass })))) := by
  simp [injectionDone, starts, Nat.not_lt.mpr step, new]

/-- The cluster serves and the partitions of its healthy pairs run (step 12). -/
theorem clusterServing_of_starting (starts : s.starting = true) (step : 10 ≤ s.sys.step) :
    ∃ u, clusterServing s = advance u ∧ u.saf.serving = true ∧ Frame [.saf] s u ∧ ∀ p, (u.pair p).healthy = (s.pair p).healthy := by
  simp only [clusterServing, starts, Nat.not_lt.mpr step, Bool.not_true, decide_false, Bool.or_self, Bool.false_eq_true, if_false]
  exact ⟨_, rfl, rfl, Frame.set_saf (Frame.refl ..) (by decide),
    fun p => Tbl.getD_mapAll_of_kept s.saf.pairs .reset p _ Pair.healthy (fun _ _ => rfl)⟩

theorem ddrDone_of_new (up : s.mgrUp = true) (serving : s.sys.mode.isServing = true) (step : 8 ≤ s.sys.step)
    (new : s.sys.ddrTrained = false) :
    ddrDone s = measure 2 { s with sys := { s.sys with ddrTrained := true, appReleased := !s.sys.appStopped, app := .reset } } := by
  simp [ddrDone, up, serving, Nat.not_lt.mpr step, new]

end

/-- Settles O3: each event notes what it reports and goes on (the `_of_starting` lemmas), and how far the start goes on is read off the two
conditions of `advance`. The trigger of the change from Start-up to Limp is the model's choice (log entry 115). -/
theorem startEventsAndProof : Obligations.StartEventsAndProof := by
  refine ⟨?lock, ?lockBasecamp, ?timeout, ?ack, ?noAck, ?retry, ?inside, ?outside, ?pass, ?fail, ?serving, ?ddr, ?forced,
    fun s rules proof => advance_of_waiting rules proof, ?badTable, ?goodTable, ?arrested, ?fewPairs, ?run⟩
  case lock => exact fun s starts unlocked => ⟨_, rfl, pllLock_of_starting starts unlocked⟩
  case lockBasecamp =>
    intro s up mode unlocked status
    refine ⟨_, rfl, ?_⟩
    rw [pllLock_of_basecamp up mode unlocked status]
    exact ⟨rfl, by rw [State.modCan_same], (Frame.set_sys (Frame.refl ..) (by decide)).set_net (by decide)⟩
  case timeout => exact fun s starts unlocked => ⟨_, rfl, pllTimeout_of_starting starts unlocked⟩
  case ack => exact fun g s starts sent => ⟨_, rfl, tableAck_of_starting starts sent⟩
  case noAck => exact fun g s starts step waits => ⟨_, rfl, if_pos (unacked_of_starting starts step waits)⟩
  case retry =>
    intro g s starts step waits
    refine ⟨_, congrArg Host.Outcome.next (if_pos (unacked_of_starting starts step waits)), ?_, State.modDie_frame ..⟩
    rw [State.modDie_same]
  case inside => exact fun s starts step unproven => ⟨_, rfl, vinCheck_of_inside starts step unproven⟩
  case outside => exact fun s starts step unproven first => ⟨_, rfl, vinCheck_of_outside starts step unproven first⟩
  case pass => exact fun p s starts step new => ⟨_, rfl, injectionDone_of_starting starts step new true⟩
  case fail => exact fun p s starts step new => ⟨_, rfl, injectionDone_of_starting starts step new false⟩
  case serving => exact fun s starts step => ⟨_, rfl, clusterServing_of_starting starts step⟩
  case ddr =>
    intro s up serving step new
    refine ⟨_, rfl, ?_⟩
    rw [ddrDone_of_new up serving step new]
    exact ⟨rfl, rfl, Frame.via (measure_frame ..) (by decide) (Frame.set_sys (Frame.refl ..) (by decide))⟩
  case forced => exact fun s starts por => ⟨_, rfl, if_pos (by rw [starts, por]; rfl)⟩
  case badTable =>
    intro f s rules facts bad
    exact advance_of_ready rules ((startStep13_of_facts facts).trans (if_neg (by simp [bad]))) (not_provable_ruleFault ..)
  case goodTable =>
    exact fun f s rules facts good proof => advance_of_ready rules ((startStep13_of_facts facts).trans (if_pos good)) proof
  case arrested =>
    intro s proof rules high arrested
    rw [advance_of_provable rules proof, prove_of_high high, if_pos arrested]
  case fewPairs =>
    intro s proof rules high free few
    rw [advance_of_provable rules proof, prove_of_high high, if_neg (by simp [free]), if_pos few]
  case run =>
    intro s proof rules high free enough
    rw [advance_of_provable rules proof, prove_of_high high, if_neg (by simp [free]), if_neg (Nat.not_lt.mpr enough)]

end Sys2Proof.Machine
end

section
/-! PROOF. What takes the ZM9 out of Run (R33, R45, R215, R216, R470, R507). -/

namespace Sys2Proof.Machine

@[simp] theorem abortTests_sys (s : State) : (abortTests s).sys = s.sys := (abortTests_frame s).same .sys (by decide)

@[simp] theorem closeSession_sys (s : State) : (closeSession s).sys = s.sys := (closeSession_frame s).same .sys (by decide)

/-- Into which mode and with what wake record a restart by cause leads (Table 2.3). -/
theorem restart_wake (trigger : Nat) (s : State) : (restart trigger s).sys.wake = s.sys.wake := by
  show (closeSession (abortTests s)).sys.wake = s.sys.wake
  rw [closeSession_sys, abortTests_sys]

theorem restartCause_wake (trigger : Nat) (s : State) : (restartCause trigger s).sys.wake.restart = true := by
  rw [restartCause, restart_wake]

section
variable {s : State}

theorem serviceLoss_of_engine {item : RunItem} (up : s.mgrUp = true) (serving : s.sys.mode.isServing = true)
    (engine : item = .rfx ∨ item = .fab1) :
    serviceLoss item s = integrityRestart 4 (le16 (Config.runItem (runItemIndex item))) none s := by
  simp only [serviceLoss, up, serving, engine, Bool.not_true, Bool.or_self, Bool.false_eq_true, if_false, if_true]

theorem serviceLoss_of_other {item : RunItem} (up : s.mgrUp = true) (run : s.sys.mode = .run) (rfx : item ≠ .rfx) (fab : item ≠ .fab1) :
    serviceLoss item s = selfArrest 4 (le16 (Config.runItem (runItemIndex item))) s := by
  simp [serviceLoss, up, run, rfx, fab, Mode.isServing]

theorem watchdog_of_serving (up : s.mgrUp = true) (serving : s.sys.mode.isServing = true) :
    ∃ u, watchdog s = restartCause 0x0E u := by
  simp only [watchdog, up, serving, Bool.not_true, Bool.or_self, Bool.false_eq_true, if_false]
  exact ⟨_, rfl⟩

theorem workshopTimeout_of_workshop (work : s.sys.mode = .workshop) :
    workshopTimeout s = restartCause 9 (raise evt_workshopTimeout noInst .wide [] s) := if_pos work

theorem tableFault_of_running (detail : List Byte) (enabled : s.rfx.enabled = true) (up : s.mgrUp = true) :
    tableFault detail s = ruleFault detail s := by
  simp only [tableFault, enabled, up, Bool.and_self, if_true]

theorem ruleCheck_of_disabled (ok : Bool) (corrected : U16) (off : s.rfx.enabled = false) : ruleCheck ok corrected s = s := by
  simp only [ruleCheck, off, Bool.not_false, Bool.true_or, if_true]

section
variable (enabled : s.rfx.enabled = true) (up : s.mgrUp = true)
include enabled up

theorem ruleCheck_of_good (corrected : U16) :
    ruleCheck true corrected s = { s with rfx := { s.rfx with corrected := s.rfx.corrected + corrected.toNat, checked := true } } := by
  simp only [ruleCheck, enabled, up, Bool.not_true, Bool.or_self, Bool.false_eq_true, if_false, if_true]

theorem ruleCheck_of_bad (corrected : U16) : ∃ detail u, ruleCheck false corrected s = ruleFault detail u := by
  simp only [ruleCheck, enabled, up, Bool.not_true, Bool.or_self, Bool.false_eq_true, if_false]
  exact ⟨_, _, tableFault_of_running _ rfl up⟩

end

end

/-- Settles O4: each of them is a restart, whose last update sets the mode, or the self-arrest of another item. -/
theorem integrityEventsRestartOrArrest : Obligations.IntegrityEventsRestartOrArrest := by
  refine ⟨?engine, fun item s up run rfx fab => ⟨_, rfl, serviceLoss_of_other up run rfx fab⟩, ?watchdog, ?workshop, ?good,
    fun ok corrected s off => congrArg Host.Outcome.next (ruleCheck_of_disabled ok corrected off), ?bad, ?ecc⟩
  case engine =>
    intro item s up serving engine
    exact ⟨_, congrArg Host.Outcome.next (serviceLoss_of_engine up serving engine), rfl, rfl, rfl, rfl⟩
  case watchdog =>
    intro s up serving
    obtain ⟨u, eq⟩ := watchdog_of_serving up serving
    exact ⟨_, congrArg Host.Outcome.next eq, rfl, rfl, rfl, restartCause_wake ..⟩
  case workshop =>
    intro s work
    refine ⟨_, congrArg Host.Outcome.next (workshopTimeout_of_workshop work), rfl, ?_, rfl, rfl, restartCause_wake ..⟩
    exact (State.mode_of_sys (raise_sys ..)).trans work
  case good =>
    intro corrected s enabled up
    exact ⟨_, congrArg Host.Outcome.next (ruleCheck_of_good enabled up corrected), rfl, Frame.set_rfx (Frame.refl ..) (by decide)⟩
  case bad =>
    intro corrected s enabled up
    obtain ⟨detail, u, eq⟩ := ruleCheck_of_bad enabled up corrected
    exact ⟨_, congrArg Host.Outcome.next eq, rfl, rfl, rfl⟩
  case ecc =>
    intro rule s enabled up
    exact ⟨_, congrArg Host.Outcome.next (tableFault_of_running _ enabled up), rfl, rfl, rfl⟩

end Sys2Proof.Machine
end

section
/-! PROOF. `SAFE_N`, the limp-table timer, edge windows and self-arrest (R181, R201, R210, R212, R213). -/

namespace Sys2Proof.Machine

/-! ### Self-arrest and the entry to Limp -/

/-- What the first self-arrest leaves in the engine's state: the latch with its source, and no limp table in Limp (R208, R213). -/
theorem arrestOutputs_rfx (source : Nat) (detail : List Byte) (s : State) : (arrestOutputs source detail s).rfx = { s.rfx with
    arrested := true, source := source, arrestRaised := true, noLimp := s.rfx.noLimp || decide (s.sys.mode = .limp)
    limpApplied := s.rfx.limpApplied && !decide (s.sys.mode = .limp) } := by
  unfold arrestOutputs
  rw [(abortTests_frame _).same .rfx (by decide), (twinRelease_frame _).same .rfx (by decide), (brgSafeAction_frame _).same .rfx (by decide),
    (xSend_frame _).same .rfx (by decide), (urgent_frame _).same .rfx (by decide), (disarmChannels_frame _).same .rfx (by decide), raise_rfx]

theorem setMode_sys (new : Mode) (trigger : Nat) (s : State) : (setMode new trigger s).sys.mode = new := by
  simp only [setMode, raise_sys]

/-- The entry to Limp ends in Limp (R30). -/
theorem limpEntry_mode (trigger : Nat) (s : State) : (limpEntry trigger s).sys.mode = .limp := by
  unfold limpEntry
  rw [(pushAll_frame _).same .sys (by decide), (applyHeld_frame _).same .sys (by decide)]
  dsimp only
  rw [(twinRelease_frame _).same .sys (by decide), setMode_sys]

/-- The entry to Limp leaves the latch and its source alone. -/
theorem limpEntry_arrest (trigger : Nat) (s : State) :
    (limpEntry trigger s).rfx.arrested = s.rfx.arrested ∧ (limpEntry trigger s).rfx.source = s.rfx.source := by
  unfold limpEntry
  rw [(pushAll_frame _).same .rfx (by decide), (applyHeld_frame _).same .rfx (by decide)]
  dsimp only
  rw [(twinRelease_frame _).same .rfx (by decide), (setMode_frame ..).same .rfx (by decide)]
  exact ⟨rfl, rfl⟩

section
variable {s : State} (source : Nat) (detail : List Byte) (up : s.mgrUp = true)
include up

theorem selfArrest_of_first (free : s.rfx.arrested = false) : selfArrest source detail s =
    if s.sys.mode = .run ∨ s.sys.mode = .workshop then limpEntry trigArrest (arrestOutputs source detail s)
    else arrestOutputs source detail s := by
  simp only [selfArrest, firstArrest, up, free, Bool.not_true, Bool.false_eq_true, if_false, arrestOutputs_sys]

theorem selfArrest_of_repeated (arrested : s.rfx.arrested = true) :
    selfArrest source detail s = raise evt_rfxArrestRepeat noInst .wide [byteOf source] s := by
  simp only [selfArrest, up, arrested, Bool.not_true, Bool.false_eq_true, if_false, if_true]

/-- The first self-arrest of a start sets the latch with its source (R213). -/
theorem selfArrest_latches (free : s.rfx.arrested = false) :
    (selfArrest source detail s).rfx.arrested = true ∧ (selfArrest source detail s).rfx.source = source := by
  rw [selfArrest_of_first source detail up free]
  split
  · obtain ⟨arrested, src⟩ := limpEntry_arrest trigArrest (arrestOutputs source detail s)
    rw [arrested, src, arrestOutputs_rfx]
    exact ⟨rfl, rfl⟩
  · rw [arrestOutputs_rfx]
    exact ⟨rfl, rfl⟩

theorem selfArrest_mode (free : s.rfx.arrested = false) (serves : s.sys.mode = .run ∨ s.sys.mode = .workshop) :
    (selfArrest source detail s).sys.mode = .limp := by
  rw [selfArrest_of_first source detail up free, if_pos serves, limpEntry_mode]

end

/-! ### `SAFE_N` and the limp-table timer -/

theorem safeNTo_rfx (low : Bool) (s : State) : (safeNTo low s).rfx = { s.rfx with safeN := low } :=
  (captureLevel_frame ..).same .rfx (by decide)

theorem safeNAssert_of_enabled {s : State} (on : s.rfx.enabled = true) :
    safeNAssert s = evalRules (if s.rfx.sna then selfArrest 1 [] (safeNTo true s) else safeNTo true s) := by
  simp only [safeNAssert, safeNTo_rfx, on, if_true]

theorem evalRules_of_disabled {s : State} (off : s.rfx.enabled = false) : evalRules s = s := by
  simp only [evalRules, off, Bool.false_and, Bool.false_eq_true, if_false]

theorem safeNAssert_of_disabled {s : State} (off : s.rfx.enabled = false) : safeNAssert s = safeNTo true s := by
  simp only [safeNAssert, safeNTo_rfx, off, Bool.false_eq_true, if_false]

section
variable {s : State} (arrested : s.rfx.arrested = true) (up : s.mgrUp = true)
include arrested up

theorem limpTimer_of_due (mode : s.sys.mode = .limp ∨ s.sys.mode = .workshop) (table : s.rfx.noLimp = false)
    (first : s.rfx.limpApplied = false) :
    limpTimer s = pushAll { s with rfx := { s.rfx with limpDue := true, limpApplied := true } } := by
  rcases mode with mode | mode <;> simp [limpTimer, arrested, up, mode, table, first]

theorem limpTimer_of_early (limp : s.sys.mode ≠ .limp) (work : s.sys.mode ≠ .workshop) :
    limpTimer s = { s with rfx := { s.rfx with limpDue := true } } := by
  simp [limpTimer, arrested, up, limp, work]

end

/-- Settles O5: `SAFE_N` sets one field and is a captured edge, and what a self-arrest latches is kept by the entry to Limp
(`selfArrest_latches`, `selfArrest_mode`). -/
theorem safeNLimpTimerAndSelfArrest : Obligations.SafeNLimpTimerAndSelfArrest := by
  refine ⟨fun low s => ⟨rfl, safeNTo_rfx low s, (safeNTo_frame low s).mono (by decide)⟩,
    fun s off => ⟨_, rfl, safeNAssert_of_disabled off⟩, ?arrests, ?plain, fun s => ⟨_, rfl, rfl⟩,
    fun s off => ⟨_, rfl, evalRules_of_disabled (by rw [safeNTo_rfx]; exact off)⟩,
    fun s arrested up mode table first => ⟨_, rfl, limpTimer_of_due arrested up mode table first⟩, ?early, fun rule slot s => ⟨_, rfl, rfl⟩,
    fun source detail s up free => selfArrest_latches source detail up free,
    fun source detail s up free serves => selfArrest_mode source detail up free serves, ?repeated⟩
  case arrests => exact fun s on sna => ⟨_, rfl, by rw [safeNAssert_of_enabled on, if_pos sna]⟩
  case plain => exact fun s on sna => ⟨_, rfl, by rw [safeNAssert_of_enabled on, if_neg (by simp [sna])]⟩
  case early =>
    intro s arrested up limp work
    exact ⟨_, congrArg Host.Outcome.next (limpTimer_of_early arrested up limp work), rfl, Frame.set_rfx (Frame.refl ..) (by decide)⟩
  case repeated =>
    intro source detail s up arrested
    rw [selfArrest_of_repeated source detail up arrested]
    exact raise_frame ..

end Sys2Proof.Machine
end

section
/-! PROOF. Bivouac: its entry, its end, and its wake sources (R34 to R36, R169, R182, R258 to R260, R323, R382). -/

namespace Sys2Proof.Machine

/-! ### Entry and end -/

theorem bivouacEnter_sys (trigger : Nat) (s : State) : (bivouacEnter trigger s).sys =
    { s.sys with wake := .zero, bivouac := .entering, startTrigger := trigger, wakeLatched := false } :=
  (twinRelease_frame (armWakes trigger s)).same .sys (by decide)

theorem sysSleepBody_of_ready {s : State} (ready : s.sleepReady = true) : sysSleepBody s = (bivouacEnter 0x0A s, .ok []) := if_pos ready

theorem sysSleepBody_of_unready {s : State} (unready : s.sleepReady = false) : sysSleepBody s = (s, .fail stat_badState) :=
  if_neg (by simp [unready])

/-- The reset of the logic leaves `TB_COUNT` alone (R46). -/
theorem logicStop_count (s : State) : (logicStop s).tb.count = s.tb.count := by
  show (ringStop (eswStop (updDiscardOpen (closeSession s)))).tb.count = s.tb.count
  rw [(ringStop_frame _).same .tb (by decide), (eswStop_frame _).same .tb (by decide), (updDiscardOpen_frame _).same .tb (by decide),
    (closeSession_frame _).same .tb (by decide)]

/-- The state in which the logic has been held at the end of step 4, before a latched wake starts it again. -/
def bivouacHeld (s : State) : State :=
  let t := logicStop { s with ch := { s.ch with dies := s.ch.dies.mapAll (fun _ d => { d with silenceFrom := d.lastFrame }) } }
  { t with sys := { t.sys with bivouac := .asleep, phase := .waiting, domains := [pdAon, pdTb] }, tb := { t.tb with bivFrac := 0 } }

theorem bivouacDone_of_switching {s : State} (phase : s.sys.bivouac = .switching) :
    bivouacDone s = if s.sys.wakeLatched then wakeStart (bivouacHeld s) else bivouacHeld s := by
  simp only [bivouacDone, phase, reduceCtorEq, decide_false, Bool.or_self, Bool.false_eq_true, if_false]
  rfl

theorem bivouacSwitch_sys (s : State) : (bivouacSwitch s).sys.bivouac = .switching ∧ (bivouacSwitch s).sys.mode = .bivouac :=
  ⟨rfl, setMode_sys ..⟩

/-! ### Wake sources -/

/-- The wake record takes a source. -/
def State.noteWake (s : State) (mark : WakeCause → WakeCause) : State := { s with sys := { s.sys with wake := mark s.sys.wake } }

theorem State.noteWake_frame (s : State) (mark : WakeCause → WakeCause) : Frame [.sys] s (s.noteWake mark) := by
  unfold State.noteWake; exact Frame.set_sys (Frame.refl ..) (by decide)

/-- A start from Bivouac by a source changes the system part and what was changed before it. -/
theorem wakeStart_noteWake_of_frame {l : List Part} {s t : State} (mark : WakeCause → WakeCause) (sys : Part.sub [.sys] l = true) (h : Frame l s t) :
    Frame l s (wakeStart (t.noteWake mark)) :=
  Frame.via (wakeStart_frame _) sys (Frame.via (State.noteWake_frame ..) sys h)

theorem wakeStart_noteWake_frame (s : State) (mark : WakeCause → WakeCause) : Frame [.sys] s (wakeStart (s.noteWake mark)) :=
  Frame.via (wakeStart_frame _) (by decide) (State.noteWake_frame ..)

section
variable {s : State} (mark : WakeCause → WakeCause)

theorem wakeUp_of_asleep (phase : s.sys.bivouac = .asleep) :
    wakeUp mark s = wakeStart (s.noteWake mark) := by
  simp only [wakeUp, phase, State.noteWake]

theorem wakeUp_of_switching (phase : s.sys.bivouac = .switching) :
    wakeUp mark s = { s with sys := { s.sys with wake := mark s.sys.wake, wakeLatched := true } } := by
  simp only [wakeUp, phase]

theorem wakeUp_of_awake (phase : s.sys.bivouac = .none) (up : s.mgrUp = true) :
    wakeUp mark s = { s with sys := { s.sys with wakeReq := true }, ring := { s.ring with consentCmd := false } } := by
  simp only [wakeUp, phase, up, if_true]

end

section
variable {s : State}

theorem ringWake_of_asleep (p : Nat) (phase : s.sys.bivouac = .asleep) : ringWake p s =
    wakeStart ((s.modRing (fun r => { r with tc10 := if s.ringSec.wakeFwd then [otherPort p] else r.tc10 })).noteWake
      (fun w => if p = 0 then { w with ringE := true } else { w with ringW := true })) := by
  simp only [ringWake, phase, ne_eq, reduceCtorEq, not_false_eq_true, if_true]
  exact wakeUp_of_asleep _ phase

theorem rtcExpire_of_asleep (phase : s.sys.bivouac = .asleep) (set_ : s.tb.alarm.isSome = true) (down : s.mgrUp = false) :
    rtcExpire s = wakeStart (State.noteWake { s with tb := { s.tb with alarm := none } } (fun w => { w with rtc := true })) := by
  obtain ⟨a, alarm⟩ := Option.isSome_iff_exists.mp set_
  have held : ({ s with tb := { s.tb with alarm := none } } : State).mgrUp = false := down
  simp only [rtcExpire, alarm, held, Bool.false_eq_true, if_false, phase, ne_eq, reduceCtorEq, not_false_eq_true, if_true]
  exact wakeUp_of_asleep _ phase

theorem rtcExpire_of_awake (phase : s.sys.bivouac = .none) (set_ : s.tb.alarm.isSome = true) (up : s.mgrUp = true) :
    rtcExpire s = raise evt_timeRtcAlarm noInst .wide [] { s with tb := { s.tb with alarm := none } } := by
  obtain ⟨a, alarm⟩ := Option.isSome_iff_exists.mp set_
  have serves : ({ s with tb := { s.tb with alarm := none } } : State).mgrUp = true := up
  simp only [rtcExpire, alarm, serves, raise_sys, phase, ne_eq, not_true_eq_false, if_true, if_false]

section
variable {n : Nat} {mv : Int} {r : DiVal} (phase : s.sys.bivouac = .asleep) (armed : s.fio.cycMask.getLsbD n = true)
  (reference : (s.fio.cyc.getD .reset n).ref = some r)
include phase armed reference

theorem cycSample_of_same (same : ((DiInput.reset.restart (s.fio.cyc.getD .reset n).rec_).compare mv).raw = r) :
    cycSample n mv s = { s with fio := { s.fio with cyc := s.fio.cyc.set n { s.fio.cyc.getD .reset n with differ := 0 } } } := by
  simp only [cycSample, phase, armed, reference, same, reduceCtorEq, decide_false, Bool.not_true, Bool.or_self, Bool.false_eq_true,
    if_false, if_true]

theorem cycSample_of_enough (differs : ((DiInput.reset.restart (s.fio.cyc.getD .reset n).rec_).compare mv).raw ≠ r)
    (enough : s.fio.cycK ≤ (s.fio.cyc.getD .reset n).differ + 1) : cycSample n mv s = wakeStart (State.noteWake
      { s with fio := { s.fio with
          cyc := s.fio.cyc.set n { s.fio.cyc.getD .reset n with differ := (s.fio.cyc.getD .reset n).differ + 1 }
          waking := s.fio.waking ||| BitVec.ofNat 16 (2 ^ n) } }
      (fun w => { w with di := true })) := by
  simp only [cycSample, phase, armed, reference, differs, enough, reduceCtorEq, decide_false, Bool.not_true, Bool.or_self,
    Bool.false_eq_true, if_false, if_true]
  exact wakeUp_of_asleep _ phase

end

theorem canLowPower_of_pattern {c : Nat} (f : Option CanFrame) (low : (s.canCh c).xcvr = .lowPower) (new : (s.canCh c).waking = false)
    (wake : (s.canCh c).record.wake = 1) (phase : s.sys.bivouac = .asleep) : canLowPower c true f s =
      wakeStart ((s.modCan c (fun x => { x with waking := x.waking || decide (x.xcvr = .lowPower) })).noteWake
        (fun w => { w with can := w.can ||| BitVec.ofNat 16 (2 ^ c) })) := by
  simp only [canLowPower, low, new, wake, canWoke, phase, ne_eq, reduceCtorEq, not_false_eq_true, decide_true, Bool.true_or,
    Bool.not_true, Bool.or_self, Bool.false_eq_true, if_false, if_true]
  exact wakeUp_of_asleep _ phase

end

theorem ringSleepNow_of_awake {s : State} (active : s.ring.phase = .active) (at_ : s.ring.sleepAt ≠ 0) (stays : s.sys.bivouac ≠ .entering) :
    (ringSleepNow s).ring.phase = .active ∧ (ringSleepNow s).ring.tc10 = [0, 1] ∧ (ringSleepNow s).sys.wakeReq = true ∧
      Frame [.sys, .ring] s (ringSleepNow s) := by
  simp only [ringSleepNow, active, at_, stays, ne_eq, not_true_eq_false, if_false]
  exact ⟨rfl, rfl, rfl, Frame.set_sys (Frame.via (State.modRing_frame ..) (by decide) (Frame.refl ..)) (by decide)⟩

theorem ringSleepNow_of_entering {s : State} (active : s.ring.phase = .active) (at_ : s.ring.sleepAt ≠ 0)
    (enters : s.sys.bivouac = .entering) :
    (ringSleepNow s).ring.phase = .asleep ∧ (ringSleepNow s).ring.tc10 = [] ∧ (ringSleepNow s).sys = (bivouacSwitch s).sys := by
  simp only [ringSleepNow, active, at_, enters, ne_eq, not_true_eq_false, if_true]
  exact ⟨rfl, rfl, rfl⟩

/-- Settles O6: the entry sets the wake record and the phase (`bivouacEnter_sys`), its end holds the logic (`bivouacHeld`), and what a source
does is read off the phase (`wakeUp_of_asleep`, `wakeUp_of_switching`, `wakeUp_of_awake`). Where the steps of the entry stand and what a
source does in each phase is the model's reading (log entries 26 and 27). -/
theorem bivouacAndItsWakeSources : Obligations.BivouacAndItsWakeSources := by
  refine ⟨?sleep, ?refused, ?auto, ?done, ?latched, ?pinAsleep, ?pinSwitching, ?pinAwake, ?port, ?ringEast, ?ringWest, ?rtcAsleep, ?rtcAwake,
    ?cyclicWakes, ?cyclicSame, ?can, ?ringAwake, ?ringEnters⟩
  case sleep =>
    intro s r p q system mode ready
    refine answers_of_accepted q rfl (q.passes (decide_eq_true q.len) (Need.check_of_sysPriv system _) rfl (decide_eq_true mode))
      (sysSleepBody_of_ready ready) rfl ?_
    simp only [bivouacEnter_sys, mode, and_self]
  case refused =>
    intro s r p q system mode unready
    exact answers_of_accepted q rfl (q.passes (decide_eq_true q.len) (Need.check_of_sysPriv system _) rfl (decide_eq_true mode))
      (sysSleepBody_of_unready unready) rfl rfl
  case auto =>
    intro s auto ready
    refine ⟨_, congrArg Host.Outcome.next (if_pos (by rw [auto, ready]; rfl)), rfl, ?_⟩
    simp only [bivouacEnter_sys, and_self]
  case done =>
    intro s phase new
    refine ⟨_, congrArg Host.Outcome.next ((bivouacDone_of_switching phase).trans (if_neg (by simp [new]))), rfl, rfl, rfl, rfl, ?_⟩
    exact logicStop_count _
  case latched =>
    intro s phase latched
    exact ⟨_, congrArg Host.Outcome.next ((bivouacDone_of_switching phase).trans (if_pos latched)), rfl, rfl, rfl, rfl, rfl⟩
  case pinAsleep =>
    intro s phase
    exact ⟨_, congrArg Host.Outcome.next (wakeUp_of_asleep _ phase), rfl, rfl, rfl, wakeStart_noteWake_frame ..⟩
  case pinSwitching =>
    intro s phase
    exact ⟨_, congrArg Host.Outcome.next (wakeUp_of_switching _ phase), rfl, rfl, rfl, Frame.set_sys (Frame.refl ..) (by decide)⟩
  case pinAwake =>
    intro s phase up
    exact ⟨_, congrArg Host.Outcome.next (wakeUp_of_awake _ phase up), rfl, rfl, Frame.set_sys_ring (Frame.refl ..) (by decide)⟩
  case port =>
    intro p s phase armed
    refine ⟨_, congrArg Host.Outcome.next (if_pos ?_), ?_⟩
    · rw [phase, armed]
      rfl
    · rw [wakeUp_of_asleep _ phase]
      exact ⟨rfl, rfl, wakeStart_noteWake_frame ..⟩
  case ringEast =>
    intro s phase
    exact ⟨_, congrArg Host.Outcome.next (ringWake_of_asleep 0 phase), rfl, rfl, rfl,
      wakeStart_noteWake_of_frame _ (by decide) (Frame.via (State.modRing_frame ..) (by decide) (Frame.refl ..))⟩
  case ringWest =>
    intro s phase
    exact ⟨_, congrArg Host.Outcome.next (ringWake_of_asleep 1 phase), rfl, rfl, rfl,
      wakeStart_noteWake_of_frame _ (by decide) (Frame.via (State.modRing_frame ..) (by decide) (Frame.refl ..))⟩
  case rtcAsleep =>
    intro s phase set_ down
    exact ⟨_, congrArg Host.Outcome.next (rtcExpire_of_asleep phase set_ down), rfl, rfl, rfl,
      wakeStart_noteWake_of_frame _ (by decide) (Frame.set_tb (Frame.refl ..) (by decide))⟩
  case rtcAwake => exact fun s phase set_ up => ⟨_, rfl, rtcExpire_of_awake phase set_ up⟩
  case cyclicWakes =>
    intro n mv s r phase armed reference differs enough
    exact ⟨_, congrArg Host.Outcome.next (cycSample_of_enough phase armed reference differs enough), rfl, rfl, rfl,
      wakeStart_noteWake_of_frame _ (by decide) (Frame.set_fio (Frame.refl ..) (by decide))⟩
  case cyclicSame =>
    intro n mv s r phase armed reference same
    refine ⟨_, congrArg Host.Outcome.next (cycSample_of_same phase armed reference same), ?_, Frame.set_fio (Frame.refl ..) (by decide)⟩
    exact congrArg CycSense.differ (Tbl.getD_set_same ..)
  case can =>
    intro c f s low new wake phase
    refine ⟨_, congrArg Host.Outcome.next (canLowPower_of_pattern f low new wake phase), rfl, rfl, ?_,
      wakeStart_noteWake_of_frame _ (by decide) (Frame.via (State.modCan_frame ..) (by decide) (Frame.refl ..))⟩
    exact (congrArg CanChan.waking (State.modCan_same ..)).trans (by simp [low])
  case ringAwake => exact fun s active at_ stays => ⟨_, rfl, ringSleepNow_of_awake active at_ stays⟩
  case ringEnters =>
    intro s active at_ enters
    obtain ⟨phase, tc10, sys⟩ := ringSleepNow_of_entering active at_ enters
    exact ⟨_, rfl, phase, tc10, by rw [sys]; rfl, by rw [sys]; exact (bivouacSwitch_sys s).2⟩

end Sys2Proof.Machine
end

section
/-! PROOF. Mailbox ports: fragments, acknowledgements, index writes and timers (R66 to R68, R73, R84, R88, R89). -/

namespace Sys2Proof.Machine

/-! ### What the manager sends does not change the kind of its port -/

section
variable (p : Port)

@[simp] theorem Port.place_kind : p.place.kind = p.kind := by
  unfold Port.place
  split <;> rfl

@[simp] theorem Port.pushEvt_kind (e : EvtEntry) : (p.pushEvt e).kind = p.kind := by
  unfold Port.pushEvt
  split
  · exact Port.place_kind _
  · rfl

@[simp] theorem Port.pushRsp_kind (seq : U32) : (p.pushRsp seq).kind = p.kind := by
  unfold Port.pushRsp
  split
  · exact Port.place_kind _
  · rfl

@[simp] theorem Port.countCtl_kind : p.countCtl.kind = p.kind := by
  unfold Port.countCtl
  split <;> rfl

@[simp] theorem Port.control_kind (op : CtlOp) : (p.control op).kind = p.kind :=
  (Port.pushEvt_kind ..).trans p.countCtl_kind

@[simp] theorem Port.resendEvt_kind (seq : U32) : (p.resendEvt seq).kind = p.kind := by
  unfold Port.resendEvt
  split
  · exact Port.pushEvt_kind ..
  · rfl

@[simp] theorem Port.resendRsp_kind (seq : U32) : (p.resendRsp seq).kind = p.kind := by
  unfold Port.resendRsp
  split
  · exact Port.pushRsp_kind ..
  · rfl

@[simp] theorem Port.retry_kind (evt : Bool) (seq : U32) : (p.retry evt seq).kind = p.kind := by
  cases evt
  case false => exact Port.resendRsp_kind ..
  case true => exact Port.resendEvt_kind ..

end

/-! ### What an event leaves of its port -/

section
variable {s : State} {n : Nat} {p : Port}

/-- What a change of a port that is not local leaves of the state: nothing but the mailbox changes (R89). -/
theorem State.modPort_frame_of_remote {f : Port → Port} (open_ : s.port? n = some p) (remote : p.kind ≠ .loc)
    (kind : ∀ q, (f q).kind = q.kind) : Frame [.mbx] s (s.modPort n f) := by
  refine State.modPort_frame_mbx fun q h => Port.advanced_of_remote ?_
  obtain rfl : p = q := Option.some.inj (open_.symm.trans h)
  rw [kind]
  exact remote

theorem takeFragment_of_part {f : Fragment} (open_ : s.port? n = some p) (remote : p.kind ≠ .loc) (serves : s.ringServes = true)
    (part : (p.addFragment f).whole = false) :
    takeFragment n f s = s.modPort n (fun q => { q with part := some (p.addFragment f) }) := by
  simp only [takeFragment, open_, remote, serves, part, decide_false, Bool.not_true, Bool.or_self, Bool.false_eq_true, if_false]

theorem takeIntact_of_control {m : HostMsg} (open_ : s.port? n = some p) (control : m.control = true) :
    takeIntact n m s = s.modPort n (fun q => q.heed m) := by
  simp only [takeIntact, open_, control, if_true]

theorem takeServed_of_mode (f : Fragment) (mode : s.sys.mode ≠ .basecamp) : takeServed n f s = takeMsg n f.msg f.check s := by
  simp only [takeServed, mode, decide_false, Bool.false_and, Bool.false_eq_true, if_false]

theorem takeFragment_of_whole {f : Fragment} (open_ : s.port? n = some p) (remote : p.kind ≠ .loc)
    (whole : (p.addFragment f).whole = true) (mode : s.sys.mode ≠ .basecamp) :
    takeFragment n f s = takeMsg n f.msg f.check (s.modPort n (fun p => { p with part := none })) := by
  have serves : s.ringServes = true := by simp only [State.ringServes, mode, ne_eq, not_false_eq_true, decide_true, Bool.true_or]
  simp only [takeFragment, open_, remote, serves, whole, decide_false, Bool.not_true, Bool.or_self, Bool.false_eq_true, if_false, if_true]
  exact takeServed_of_mode f (by rw [State.modPort_sys]; exact mode)

theorem retransmit_of_counted {evt : Bool} {seq : U32} {k : Nat} (open_ : s.port? n = some p) (remote : p.kind ≠ .loc)
    (runs : p.rtxStopped = false) (held : p.retriesOf evt seq = some k) : retransmit n evt seq s =
      if k < 8 then s.modPort n (fun p => p.retry evt seq)
      else if k = 8 then raise evt_mbxPortStale n (.owned p.vzf) [] (s.modPort n (fun p => { p with linkStale := true, rtxStopped := true }))
      else s := by
  simp only [retransmit, open_, remote, runs, held, decide_false, Bool.or_self, Bool.false_eq_true, if_false]

end

section
variable {s : State} {v b n : Nat} {p : Port}

theorem State.vzfQuiet_of_active (active : s.vzfActive v = true) : s.vzfQuiet (some v) = false := by
  simpa [State.vzfQuiet, State.vzfActive] using active

theorem consumerWrite_of_active (evt : Bool) (index : U16) (here : s.localPort v b = some n) (active : s.vzfActive v = true) :
    consumerWrite v b evt index s = s.modPort n (fun p => p.consume evt index) := by
  simp only [consumerWrite, here, State.vzfQuiet_of_active active, Bool.false_eq_true, if_false]

theorem execVzfMbxReqProd_of_active {v : Fin 256} {b : Fin 4} (index : U16) (msgs : List (HostMsg × MsgCheck)) (fault : Bool)
    (here : s.localPort v.val b.val = some n) (active : s.vzfActive v.val = true) :
    execVzfMbxReqProd v b index msgs fault s = .next (doorbellReq v.val n index msgs fault s) := by
  simp only [execVzfMbxReqProd, here, State.vzfQuiet_of_active active, Bool.false_eq_true, if_false]

theorem doorbellReq_of_room {index : U16} (msgs : List (HostMsg × MsgCheck)) (open_ : s.port? n = some p)
    (room : (index - p.reqCons).toNat ≤ 2 ^ p.depthLog2) : doorbellReq v n index msgs false s =
      (msgs.take (index - p.reqCons).toNat).foldl (fun s m => takeMsg n m.1 m.2 s)
        (s.modPort n (fun p => { p with reqProd := index, reqCons := index })) := by
  have fits : ¬ p.depth < ringFill index p.reqCons := Nat.not_lt.mpr room
  simp only [doorbellReq, open_, fits, Bool.false_eq_true, if_false]
  rfl

theorem doorbellReq_of_full {index : U16} (msgs : List (HostMsg × MsgCheck)) (fault : Bool) (open_ : s.port? n = some p)
    (full : 2 ^ p.depthLog2 < (index - p.reqCons).toNat) :
    doorbellReq v n index msgs fault s = s.modPort n (fun p => { p with prodErr := true }) := by
  have full' : p.depth < ringFill index p.reqCons := full
  simp only [doorbellReq, open_, full', if_true]

end

/-- Settles O7: each event is one change of its port, and `State.modPort_port?_same` says what the port is then. -/
theorem mailboxEventsMoveTheirPort : Obligations.MailboxEventsMoveTheirPort := by
  refine ⟨?part, ?whole, ?timeout, ?doorbell, ?doorbellFull, ?consumer, ?hostAck, ?ackTimer, ?epoch, ?retransmit, ?stale, ?unknown⟩
  case part =>
    intro n f p s open_ remote serves part
    refine ⟨_, congrArg Host.Outcome.next (takeFragment_of_part open_ remote serves part), State.modPort_port?_same open_ _, ?_⟩
    exact State.modPort_frame_of_remote open_ remote (fun _ => rfl)
  case whole =>
    intro n f p s open_ remote whole mode
    exact ⟨_, congrArg Host.Outcome.next (takeFragment_of_whole open_ remote whole mode), rfl⟩
  case timeout =>
    intro n p s open_
    exact ⟨_, rfl, State.modPort_port?_same open_ _, State.modPort_frame_mbx (fun _ _ => Port.advanced_of_same rfl rfl)⟩
  case doorbell =>
    intro v b index msgs n p s here open_ active room
    exact ⟨_, (execVzfMbxReqProd_of_active index msgs false here active).trans
      (congrArg Host.Outcome.next (doorbellReq_of_room msgs open_ room)), rfl⟩
  case doorbellFull =>
    intro v b index msgs fault n p s here open_ active full
    exact ⟨_, (execVzfMbxReqProd_of_active index msgs fault here active).trans
      (congrArg Host.Outcome.next (doorbellReq_of_full msgs fault open_ full)), State.modPort_port?_same open_ _,
      State.modPort_frame_mbx (fun _ _ => Port.advanced_of_same rfl rfl)⟩
  case consumer =>
    intro v b evt index n p s here open_ active
    exact ⟨_, congrArg Host.Outcome.next (consumerWrite_of_active evt index here active), State.modPort_port?_same open_ _,
      State.modPort_frame ..⟩
  case hostAck =>
    intro n seq ack p s open_
    refine ⟨_, congrArg Host.Outcome.next (takeIntact_of_control open_ rfl), ?_, State.modPort_frame ..⟩
    rw [State.modPort_port?_same open_]
    rfl
  case ackTimer =>
    intro n p s open_ remote
    have acks : (s.modPort n.val (fun p => if p.kind ≠ .loc || !p.rsps.isEmpty || !p.evts.isEmpty then p.ackMsg else p)).port? n.val =
        some { p with clock := s.wireStamp }.ackMsg := by
      rw [State.modPort_port?_same open_]
      simp only [ne_eq, remote, not_false_eq_true, decide_true, Bool.true_or, if_true]
    refine ⟨_, rfl, acks, State.modPort_frame_of_remote open_ remote fun q => ?_⟩
    split
    · exact Port.control_kind ..
    · rfl
  case epoch =>
    intro n p s open_ awaits
    refine ⟨_, rfl, ?_, State.modPort_frame ..⟩
    rw [State.modPort_port?_same open_]
    simp only [awaits, if_true]
  case retransmit =>
    intro n evt seq p k s open_ remote runs held few
    refine ⟨_, congrArg Host.Outcome.next ((retransmit_of_counted open_ remote runs held).trans (if_pos few)),
      State.modPort_port?_same open_ _, ?_⟩
    exact State.modPort_frame_of_remote open_ remote (fun q => q.retry_kind evt seq)
  case stale =>
    intro n evt seq p s open_ remote runs held
    exact ⟨_, congrArg Host.Outcome.next (retransmit_of_counted open_ remote runs held), rfl⟩
  case unknown =>
    intro r code s unknown version len
    refine ⟨s, congrArg Host.Outcome.next ?_, rfl⟩
    have fits : ¬ 4032 < r.len := Nat.not_lt.mpr len
    simp only [unknown, version, fits, ne_eq, not_true_eq_false, if_false, if_true]

end Sys2Proof.Machine
end

section
/-! PROOF. The response that a restart leaves for its port outlives the restart (R33): what leaves it alone. -/

namespace Sys2Proof.Machine

@[simp] theorem State.modPort_left (s : State) (n : Nat) (f : Port → Port) : (s.modPort n f).mbx.left = s.mbx.left := by
  unfold State.modPort
  split <;> rfl

@[simp] theorem complete_left (port : Nat) (reqSeq tag : U32) (code status : U16) (result : List Byte) (s : State) :
    (complete port reqSeq tag code status result s).mbx.left = s.mbx.left := by
  unfold complete
  split
  · rfl
  · split
    · exact State.modPort_left ..
    · rfl

@[simp] theorem raiseOne_left (k : EvKind) (inst : Nat) (sc : Scope) (data : List Byte) (s : State) :
    (raiseOne k inst sc data s).mbx.left = s.mbx.left := rfl

@[simp] theorem raise_left (k : EvKind) (inst : Nat) (sc : Scope) (data : List Byte) (s : State) :
    (raise k inst sc data s).mbx.left = s.mbx.left := by
  unfold raise
  dsimp only
  split
  · exact raiseOne_left ..
  · exact raiseOne_left ..

@[simp] theorem raiseCh_left (k : EvKind) (i : Nat) (data : List Byte) (s : State) : (raiseCh k i data s).mbx.left = s.mbx.left := by
  unfold raiseCh
  split
  · exact raise_left ..
  · rfl

/-! ### The sequence of self-arrest and the change of mode -/

@[simp] theorem endTest_left (i : Nat) (status : U16) (pass : Bool) (value : U32) (s : State) :
    (endTest i status pass value s).mbx.left = s.mbx.left := by
  unfold endTest
  split
  · rfl
  · dsimp only
    rw [complete_left]
    split
    · exact raiseCh_left ..
    · rfl

@[simp] theorem endHandoverTest_left (status : U16) (result : List Byte) (s : State) :
    (endHandoverTest status result s).mbx.left = s.mbx.left := by
  unfold endHandoverTest
  split
  · rfl
  · rw [(toQualify_frame _).same .mbx (by decide), complete_left]
    rfl

@[simp] theorem abortTests_left (s : State) : (abortTests s).mbx.left = s.mbx.left := by
  unfold abortTests
  rw [endHandoverTest_left]
  exact foldl_keeps (fun s => s.mbx.left) (fun s i => endTest_left i stat_aborted false 0 s) _ s

@[simp] theorem setRole_left (r : TwinRole) (s : State) : (setRole r s).mbx.left = s.mbx.left := by
  unfold setRole
  split
  · rfl
  · dsimp only
    rw [(urgent_frame _).same .mbx (by decide), raise_left]

@[simp] theorem twinRelease_left (s : State) : (twinRelease s).mbx.left = s.mbx.left := by
  unfold twinRelease
  split
  · exact setRole_left ..
  · rfl

@[simp] theorem arrestOutputs_left (source : Nat) (detail : List Byte) (s : State) :
    (arrestOutputs source detail s).mbx.left = s.mbx.left := by
  unfold arrestOutputs
  dsimp only
  rw [abortTests_left, twinRelease_left, (brgSafeAction_frame _).same .mbx (by decide), (xSend_frame _).same .mbx (by decide),
    (urgent_frame _).same .mbx (by decide), (disarmChannels_frame _).same .mbx (by decide), raise_left]

@[simp] theorem arrestOnly_left (source : Nat) (detail : List Byte) (s : State) : (arrestOnly source detail s).mbx.left = s.mbx.left := by
  unfold arrestOnly
  split
  · exact raise_left ..
  · exact arrestOutputs_left ..

@[simp] theorem setMode_left (new : Mode) (trigger : Nat) (s : State) : (setMode new trigger s).mbx.left = s.mbx.left := by
  unfold setMode
  dsimp only
  rw [raise_left]
  show (updDiscardOpen (closeSession _)).mbx.left = s.mbx.left
  rw [(updDiscardOpen_frame _).same .mbx (by decide), (closeSession_frame _).same .mbx (by decide)]
  split
  · split
    · exact abortTests_left s
    · exact abortTests_left s
  · split <;> rfl

/-! ### The reset of the logic and the ports that open after it -/

@[simp] theorem logicStop_left (s : State) : (logicStop s).mbx.left = s.mbx.left := by
  show (ringStop (eswStop (updDiscardOpen (closeSession s)))).mbx.left = s.mbx.left
  rw [(ringStop_frame _).same .mbx (by decide), (eswStop_frame _).same .mbx (by decide), (updDiscardOpen_frame _).same .mbx (by decide),
    (closeSession_frame _).same .mbx (by decide)]

@[simp] theorem portEpoch_left (n : Nat) (s : State) : (portEpoch n s).mbx.left = s.mbx.left := by
  unfold portEpoch
  split
  · rfl
  · dsimp only
    split
    · rw [(State.raiseSrc_frame ..).same .mbx (by decide)]
    · rfl

@[simp] theorem openService_left (rtx slot : Nat) (s : State) : (openService rtx slot s).mbx.left = s.mbx.left := portEpoch_left ..

@[simp] theorem romService_left (status : U16) (s : State) : (romService status s).mbx.left = s.mbx.left := by
  unfold romService
  dsimp only
  rw [openService_left, (ringBasecamp_frame _).same .mbx (by decide), logicStop_left]

@[simp] theorem basecampEnter_left (status : U16) (s : State) : (basecampEnter status s).mbx.left = s.mbx.left := by
  unfold basecampEnter
  dsimp only
  rw [romService_left, (urgent_frame _).same .mbx (by decide), setMode_left, (enterStopped_frame _).same .mbx (by decide),
    (holdsOff_frame _).same .mbx (by decide), arrestOnly_left, twinRelease_left]
  split <;> rfl

@[simp] theorem restart_left (trigger : Nat) (s : State) : (restart trigger s).mbx.left = s.mbx.left := by
  show (logicStop (abortTests s)).mbx.left = s.mbx.left
  rw [logicStop_left, abortTests_left]

/-! ### The response that a restart leaves -/

@[simp] theorem Port.pushRsp_rsps (p : Port) (seq : U32) : (p.pushRsp seq).rsps = p.rsps := by
  unfold Port.pushRsp
  split
  · unfold Port.place
    split <;> rfl
  · rfl

/-- A held response is the last of its port. -/
theorem Port.hold_rsps (p : Port) (r : Req) (code status : U16) (data : List Byte) :
    ∃ h, (p.hold r code status data).rsps = p.rsps ++ [h] ∧ h.code = code ∧ h.status = status ∧ h.tag = r.tag ∧ h.reqSeq = r.seq :=
  ⟨_, Port.pushRsp_rsps .., rfl, rfl, rfl, rfl⟩

theorem Port.answer_rsps (p : Port) (r : Req) {code : U16} (status : U16) (data : List Byte) (named : code ≠ 0x0101) :
    ∃ h, (p.answer r code status data).rsps = p.rsps ++ [h] ∧ h.code = code ∧ h.status = status ∧ h.tag = r.tag ∧ h.reqSeq = r.seq := by
  unfold Port.answer
  rw [if_neg named]
  exact Port.hold_rsps ..

theorem leaveRsp_left {s : State} {r : Req} {p : Port} {code : U16} (open_ : s.port? r.port = some p) (named : code ≠ 0x0101) :
    ∃ h, (leaveRsp r code s).mbx.left = some (r.port, h) ∧ h.code = code ∧ h.status = stat_ok ∧ h.tag = r.tag ∧ h.reqSeq = r.seq := by
  obtain ⟨h, rsps, is⟩ := Port.answer_rsps { p with clock := s.wireStamp } r stat_ok [] named
  refine ⟨h, ?_, is⟩
  show ((respond r code stat_ok [] s).port? r.port).bind (fun p => p.rsps.getLast?.map (fun h => (r.port, h))) = some (r.port, h)
  rw [respond, State.modPort_port?_same open_, Option.bind_some, rsps, List.getLast?_concat, Option.map_some]

end Sys2Proof.Machine
end

section
/-! PROOF. The SYS commands on the mode and the CFG commands (R32, R33, R53, R54, R57 to R60). -/

namespace Sys2Proof.Machine

/-! ### Nonces and modes -/

theorem setMode_sys_kept (new : Mode) (trigger : Nat) (s : State) :
    (setMode new trigger s).sys.prevMode = s.sys.mode ∧ (setMode new trigger s).sys.nonces = s.sys.nonces := by
  unfold setMode
  dsimp only
  rw [raise_sys]
  refine ⟨rfl, ?_⟩
  show (updDiscardOpen (closeSession _)).sys.nonces = s.sys.nonces
  rw [(updDiscardOpen_frame _).same .sys (by decide), closeSession_sys]
  split
  · split
    · show (abortTests s).sys.nonces = s.sys.nonces
      rw [abortTests_sys]
    · rw [abortTests_sys]
  · split <;> rfl

theorem workshopEnter_sys (s : State) : (workshopEnter s).sys.mode = .workshop ∧ (workshopEnter s).sys.prevMode = s.sys.mode ∧
    (workshopEnter s).sys.nonces = s.sys.nonces := by
  obtain ⟨prev, nonces⟩ := setMode_sys_kept .workshop 5 s
  have twin : (twinRelease (setMode .workshop 5 s)).sys = (setMode .workshop 5 s).sys := (twinRelease_frame _).same .sys (by decide)
  unfold workshopEnter
  dsimp only
  rw [(pushAll_frame _).same .sys (by decide)]
  split
  · exact ⟨(congrArg SysState.mode twin).trans (setMode_sys ..), (congrArg SysState.prevMode twin).trans prev,
      (congrArg SysState.nonces twin).trans nonces⟩
  · exact ⟨(congrArg SysState.mode twin).trans (setMode_sys ..), (congrArg SysState.prevMode twin).trans prev,
      (congrArg SysState.nonces twin).trans nonces⟩

/-- A nonce serves once (R32): after its use it is not fresh. -/
theorem nonceFresh_of_used {s t : State} {nonce : Nat} (used : t.sys.nonces = (useNonce nonce s).sys.nonces) :
    t.nonceFresh nonce = false := by
  simp only [State.nonceFresh, used, useNonce, List.any_filter, List.any_eq_false]
  intro n _
  by_cases same : n.id = nonce
  · simp [same]
  · simp [same]

theorem State.signedOk_false (s : State) (nonce : Nat) : s.signedOk nonce false = false := by
  simp only [State.signedOk, Bool.and_false, Bool.false_and]

theorem State.signedOk_of_fresh {s : State} {nonce : Nat} (fresh : s.nonceFresh nonce = true) (key : s.slotServes 124 8 = true) :
    s.signedOk nonce true = true := by
  simp only [State.signedOk, fresh, key, Bool.and_self]

/-- An issued nonce is fresh and takes one free value (R32). -/
theorem issueNonce_leaves (s : State) : (issueNonce s).1.nonceFresh s.free = true ∧ (issueNonce s).1.free = s.free + 1 ∧
    Frame [.sys, .free] s (issueNonce s).1 := by
  have age : s.now - s.now ≤ 60 * Config.ticksPerSecond := by simp
  refine ⟨?_, rfl, (Frame.set_sys (Frame.refl ..) (by decide)).set_free (by decide)⟩
  show (_ :: s.sys.nonces).any _ = true
  rw [List.any_cons]
  exact Bool.or_eq_true_iff.mpr (.inl (Bool.and_eq_true_iff.mpr ⟨decide_eq_true rfl, decide_eq_true age⟩))

section
variable {s : State}

theorem enterWorkshopBody_of_signed {nonce : Nat} (fresh : s.nonceFresh nonce = true) (key : s.slotServes 124 8 = true) :
    enterWorkshopBody nonce true s = (workshopEnter (useNonce nonce s), .ok []) := if_pos (State.signedOk_of_fresh fresh key)

theorem enterWorkshopBody_of_unsigned (nonce : Nat) :
    enterWorkshopBody nonce false s = (raise evt_workshopDenied noInst .wide [] (useNonce nonce s), .fail stat_authFail) :=
  if_neg (by simp [State.signedOk_false])

theorem restartBody_of_signed (r : Req) {nonce : Nat} (fresh : s.nonceFresh nonce = true) (key : s.slotServes 124 8 = true) :
    restartBody r nonce true s = (answerRestart r 0x0123 7 (useNonce nonce s), none) := if_pos (State.signedOk_of_fresh fresh key)

theorem restartBody_of_unsigned (r : Req) (nonce : Nat) :
    restartBody r nonce false s = (useNonce nonce s, some (.fail stat_authFail)) := if_neg (by simp [State.signedOk_false])

/-- What a restart by command leaves: Start-up waits for its reset, with the wake record and the response that it will answer. -/
theorem answerRestart_leaves {r : Req} {p : Port} {code : U16} (trigger : Nat) (open_ : s.port? r.port = some p) (named : code ≠ 0x0101) :
    (answerRestart r code trigger s).sys.mode = .startup ∧ (answerRestart r code trigger s).sys.phase = .waiting ∧
      (answerRestart r code trigger s).sys.startTrigger = trigger ∧ (answerRestart r code trigger s).sys.wake.restart = true ∧
      ∃ h, (answerRestart r code trigger s).mbx.left = some (r.port, h) ∧ h.code = code ∧ h.status = stat_ok ∧ h.tag = r.tag ∧
        h.reqSeq = r.seq := by
  refine ⟨rfl, rfl, rfl, restartCause_wake .., ?_⟩
  obtain ⟨h, left, is⟩ := leaveRsp_left open_ named
  refine ⟨h, ?_, is⟩
  unfold answerRestart restartCause
  rw [restart_left]
  show (clearLoop (leaveRsp r code s)).mbx.left = some (r.port, h)
  rw [(clearLoop_frame _).same .mbx (by decide), left]

theorem getModeBody_of_serving (serving : s.sys.mode.isServing = true) : getModeBody s = (s, .ok (modeBytes s)) :=
  if_pos fun basecamp => by simp [basecamp, Mode.isServing] at serving

theorem getModeBody_of_basecamp (basecamp : s.sys.mode = .basecamp) (healthy : s.key.trngFail = false) :
    getModeBody s = ((issueNonce s).1, { status := s.sys.basecampStatus, data := modeBytes s ++ nonceBytes s.free }) := by
  simp only [getModeBody, basecamp, healthy, ne_eq, not_true_eq_false, Bool.false_eq_true, if_false]
  rfl

theorem challengeBody_of_healthy (healthy : s.key.trngFail = false) :
    challengeBody s = ((issueNonce s).1, .ok (nonceBytes s.free)) := if_neg (by simp [healthy])

/-- What the ROM keeps of the state and what it sets before its ring ports and its service port open. -/
def romHeld (status : U16) (s : State) : State :=
  let t := logicStop s
  { t with
    rfx := { t.rfx with arrested := true, arrestRaised := true, source := s.rfx.source, noLimp := true }
    twin := { t.twin with line := s.twin.line }
    sys := { t.sys with rootLock := s.sys.rootLock, onRef := s.sys.onRef, fromBivouac := s.sys.fromBivouac, domains := basecampDomains
                        basecampStatus := status }
    net := { t.net with can := t.net.can.modify .reset 0 (fun x => x.romOpen (s.sys.rootLock && !s.sys.onRef)) } }

theorem romService_eq (status : U16) (s : State) : romService status s =
    openService 5 ((s.ring.recorded.map (·.2)).getD 0) (ringBasecamp (romHeld status s)) := rfl

/-- What the ROM service leaves: its status, its domains and the latch of self-arrest; the mode stays (R57, R58). -/
theorem romService_leaves (status : U16) (s : State) : (romService status s).sys.mode = s.sys.mode ∧
    (romService status s).rfx.arrested = true ∧ (romService status s).sys.basecampStatus = status ∧
      (romService status s).sys.domains = basecampDomains := by
  rw [romService_eq, (openService_frame ..).same .sys (by decide), (openService_frame ..).same .rfx (by decide),
    (ringBasecamp_frame _).same .sys (by decide), (ringBasecamp_frame _).same .rfx (by decide)]
  refine ⟨?_, rfl, rfl, rfl⟩
  show (closeSession s).sys.mode = s.sys.mode
  rw [closeSession_sys]

/-- Basecamp after a command: the mode, and what the ROM service leaves. -/
theorem basecampEnter_leaves (status : U16) (s : State) : (basecampEnter status s).sys.mode = .basecamp ∧
    (basecampEnter status s).rfx.arrested = true ∧ (basecampEnter status s).sys.basecampStatus = status ∧
      (basecampEnter status s).sys.domains = basecampDomains := by
  obtain ⟨u, enters⟩ : ∃ u, basecampEnter status s = romService status (urgent (setMode .basecamp 0x0D u)) := ⟨_, rfl⟩
  obtain ⟨mode, leaves⟩ := romService_leaves status (urgent (setMode .basecamp 0x0D u))
  rw [enters]
  refine ⟨mode.trans ?_, leaves⟩
  rw [(urgent_frame _).same .sys (by decide), setMode_sys]

end

/-! ### The configuration banks -/

@[simp] theorem CfgState.bank_putBank_same (c : CfgState) (b : Bool) (k : Bank) : (c.putBank b k).bank b = k := by
  cases b <;> rfl

@[simp] theorem CfgState.bank_putBank_not (c : CfgState) (b : Bool) (k : Bank) : (c.putBank (!b) k).bank b = c.bank b := by
  cases b <;> rfl

/-- The bank not in use is erased and the one in use is left alone (R60). -/
theorem CfgState.eraseTarget_banks (c : CfgState) : c.eraseTarget.inUseB = c.inUseB ∧ c.eraseTarget.bank c.target = .erased ∧
    c.eraseTarget.bank c.inUseB = c.bank c.inUseB := by
  unfold CfgState.eraseTarget CfgState.target
  cases h : c.inUseB
  · exact ⟨rfl, rfl, rfl⟩
  · exact ⟨rfl, rfl, rfl⟩

section
variable {s : State} {x : CfgSession}

/-- The end of the write session (R60). -/
theorem closeSession_leaves (open_ : s.cfg.session = some x) : (closeSession s).cfg.session = none ∧
    (closeSession s).cfg.bank s.cfg.target = .erased ∧ (closeSession s).cfg.bank s.cfg.inUseB = s.cfg.bank s.cfg.inUseB ∧
      Frame [.cfg] s (closeSession s) := by
  obtain ⟨_, erased, kept⟩ := s.cfg.eraseTarget_banks
  refine ⟨?_, ?_, ?_, closeSession_frame s⟩
  · rw [closeSession, open_]
  · rw [closeSession, open_]
    exact erased
  · rw [closeSession, open_]
    exact kept

theorem cfgBeginBody_of_free (total : Nat) (free : s.cfg.session = none) : cfgBeginBody total s =
    ({ s with cfg := { s.cfg.eraseTarget with session := some { total := total } } }, .ok [byteOf (bit s.cfg.target)]) := by
  simp only [cfgBeginBody, free]

theorem cfgWriteBody_of_fits {offset : Nat} {data : List Byte} (open_ : s.cfg.session = some x) (fits : offset + data.length ≤ x.total) :
    cfgWriteBody offset data s = ({ s with cfg := s.cfg.putBank s.cfg.target { s.cfg.bank s.cfg.target with
      bytes := memWrite (s.cfg.bank s.cfg.target).bytes offset data } }, .ok []) := by
  simp only [cfgWriteBody, open_, Nat.not_lt.mpr fits, if_false]

theorem cfgCommitBody_of_valid {content : Bank} (open_ : s.cfg.session = some x)
    (valid : bankStatus (content.read (s.cfg.bank s.cfg.target).bytes) s = none) : cfgCommitBody content s =
      ({ s with cfg := { s.cfg.putBank s.cfg.target (content.read (s.cfg.bank s.cfg.target).bytes) with session := none } },
        .ok (le32 (content.read (s.cfg.bank s.cfg.target).bytes).seq)) := by
  simp only [cfgCommitBody, open_, valid]

theorem cfgAbortBody_of_open (open_ : s.cfg.session = some x) : cfgAbortBody s = (closeSession s, .ok []) := by
  simp only [cfgAbortBody, open_]

theorem getSectionBody_of_there {n offset length : Nat} {x : Section} (there : s.cfg.sections[n]? = some x)
    (fits : offset ≤ x.bytes.length) : getSectionBody n offset length s = (s, .ok (n32 x.bytes.length
      ++ n16 ((x.bytes.drop offset).take length).length ++ zeros 2 ++ (x.bytes.drop offset).take length)) := by
  simp only [getSectionBody, there, Nat.not_lt.mpr fits, if_false]

theorem sectionLengthOk_of_multiple {n : Nat} (low : 16 ≤ n) (high : n ≤ 4000) (whole : n % 16 = 0) : sectionLengthOk n = true := by
  simp [sectionLengthOk, within, low, high, whole]

section
variable (free : s.cfg.activating = none) (ok : s.bankOk (s.cfg.bank s.cfg.target) = true)
  (newer : newerBank s (s.cfg.bank s.cfg.target) = true) (status : s.activationStatus (s.cfg.bank s.cfg.target) = none)
include ok newer status

theorem activateBody_of_ready (r : Req) (free : s.cfg.activating = none) : activateBody r s =
    if (differing (s.cfg.bank s.cfg.target).sections s.cfg.sections).isEmpty then (activateNow s, some (.ok (le64 s.tb.count)))
    else ({ s with cfg := { s.cfg with activating := some (r.port, r.tag, r.seq) } }, none) := by
  simp only [activateBody, free, ok, newer, status, Option.isSome_none, Bool.not_true, Bool.or_self, Bool.false_eq_true, if_false]

theorem activationBoundary_of_ready {port : Nat} {tag seq : U32} (waits : s.cfg.activating = some (port, tag, seq)) :
    activationBoundary s = respond { port := port, tag := tag, seq := seq, version := 1, len := 0, resvZero := true }
      0x0204 stat_ok (le64 s.tb.count) (activateNow s) := by
  simp only [activationBoundary, waits, ok, newer, status, Bool.and_self, if_true]

end

/-- An activation that changes no section takes the new bank into use and extends the measurement of the configuration (Table 15.1). -/
theorem activateNow_of_same (same : (differing (s.cfg.bank s.cfg.target).sections s.cfg.sections).isEmpty = true) :
    (activateNow s).cfg.inUseB = s.cfg.target ∧ (activateNow s).cfg.seq = (s.cfg.bank s.cfg.target).seq ∧
      Frame [.cfg, .key] s (activateNow s) := by
  have none_ : differing (s.cfg.bank s.cfg.target).sections s.cfg.sections = [] := List.isEmpty_iff.mp same
  unfold activateNow
  dsimp only
  rw [none_]
  exact ⟨rfl, rfl, Frame.via (extendMr_frame ..) (by decide) (Frame.set_cfg (Frame.refl ..) (by decide))⟩

end

/-- Settles O9: a signed request uses its nonce up whatever comes of it (log entry 32), a restart leaves its response for the port
(`answerRestart_leaves`), and a session changes the bank not in use alone. Which bank is written and what its decoded content is are log
entries 22 and 23. -/
theorem modeAndConfigurationCommandsAct : Obligations.ModeAndConfigurationCommandsAct := by
  refine ⟨?workshop, ?workshopDenied, ?leave, ?restart, ?restartDenied, ?basecamp, ?mode, ?modeBasecamp, ?challenge, ?begin_, ?write,
    ?commit, ?abort, ?timeout, ?status, ?section_, ?activate, ?activateLater, ?boundary⟩
  case workshop =>
    intro s r p nonce q system mode fresh key
    have runs : s.sys.mode.isRunLimp = true := by obtain run | limp := mode <;> simp [*, Mode.isRunLimp]
    obtain ⟨new, prev, nonces⟩ := workshopEnter_sys (useNonce nonce s)
    exact answers_of_accepted q rfl (q.passes (decide_eq_true q.len) (Need.check_of_sysPriv system _) rfl runs)
      (enterWorkshopBody_of_signed fresh key) rfl ⟨rfl, new, prev, nonceFresh_of_used nonces⟩
  case workshopDenied =>
    intro s r p nonce q system mode
    have runs : s.sys.mode.isRunLimp = true := by obtain run | limp := mode <;> simp [*, Mode.isRunLimp]
    exact answers_of_accepted q rfl (q.passes (decide_eq_true q.len) (Need.check_of_sysPriv system _) rfl runs)
      (enterWorkshopBody_of_unsigned nonce) rfl ⟨rfl, State.mode_of_sys (s := useNonce nonce s) (raise_sys ..)⟩
  case leave =>
    intro s r p q system mode
    exact ⟨_, exec_of_unanswered q rfl (q.passes (decide_eq_true q.len) (Need.check_of_sysPriv system _) rfl (decide_eq_true mode)) rfl,
      answerRestart_leaves 6 q.port (by decide)⟩
  case restart =>
    intro s r p nonce q system mode fresh key
    have may : s.sys.mode.restartable = true := by obtain h | h | h := mode <;> rw [h] <;> rfl
    exact ⟨_, exec_of_unanswered q rfl (q.passes (decide_eq_true q.len) (Need.check_of_sysPriv system _) rfl may)
      (restartBody_of_signed r fresh key), answerRestart_leaves 7 (s := useNonce nonce s) q.port (by decide)⟩
  case restartDenied =>
    intro s r p nonce q system mode
    have may : s.sys.mode.restartable = true := by obtain h | h | h := mode <;> rw [h] <;> rfl
    exact answers_of_accepted_later q rfl (q.passes (decide_eq_true q.len) (Need.check_of_sysPriv system _) rfl may)
      (restartBody_of_unsigned r nonce) rfl ⟨rfl, nonceFresh_of_used (s := s) rfl⟩
  case basecamp =>
    intro s r p q system mode
    obtain ⟨new, arrested, status, domains⟩ := basecampEnter_leaves stat_ok (leaveRsp r 0x0124 s)
    refine ⟨_, exec_of_unanswered q rfl (q.passes (decide_eq_true q.len) (Need.check_of_sysPriv system _) rfl (decide_eq_true mode)) rfl,
      rfl, new, arrested, status, domains, ?_⟩
    rw [basecampEnter_left]
    exact leaveRsp_left q.port (by decide)
  case mode =>
    intro s r p q serving
    have awake : s.sys.mode.isAwake = true := by cases h : s.sys.mode <;> simp [h, Mode.isServing, Mode.isAwake] at serving ⊢
    exact answers_of_accepted q rfl (q.passes (decide_eq_true q.len) rfl rfl awake) (getModeBody_of_serving serving) rfl rfl
  case modeBasecamp =>
    intro s r p q basecamp healthy
    exact answers_of_accepted q rfl (q.passes (decide_eq_true q.len) rfl rfl (by rw [basecamp]; rfl))
      (getModeBody_of_basecamp basecamp healthy) rfl (issueNonce_leaves s)
  case challenge =>
    intro s r p q system mode healthy
    exact answers_of_accepted q rfl (q.passes (decide_eq_true q.len) (Need.check_of_sysPriv system _) rfl mode)
      (challengeBody_of_healthy healthy) rfl (issueNonce_leaves s)
  case begin_ =>
    intro s r p total q system mode fits free
    obtain ⟨inUse, erased, kept⟩ := s.cfg.eraseTarget_banks
    refine answers_of_accepted q rfl (q.passes (decide_eq_true q.len) (Need.check_of_sysPriv system _)
      (needStat_eq_none.mpr (decide_eq_true fits)) mode) (cfgBeginBody_of_free _ free) rfl ⟨rfl, ?_, ?_, Frame.set_cfg (Frame.refl ..) (by decide)⟩
    · show s.cfg.eraseTarget.bank (!s.cfg.eraseTarget.inUseB) = .erased
      rw [inUse]
      exact erased
    · show s.cfg.eraseTarget.bank s.cfg.eraseTarget.inUseB = s.cfg.bank s.cfg.inUseB
      rw [inUse]
      exact kept
  case write =>
    intro s r p offset data x q system mode block open_ fits
    exact answers_of_accepted q rfl (q.passes (Bool.and_eq_true_iff.mpr ⟨block, decide_eq_true q.len⟩) (Need.check_of_sysPriv system _) rfl mode)
      (cfgWriteBody_of_fits open_ fits) rfl ⟨congrArg Bank.bytes (CfgState.bank_putBank_same ..), CfgState.bank_putBank_not ..,
        Frame.set_cfg (Frame.refl ..) (by decide)⟩
  case commit =>
    intro s r p content x q system mode open_ valid
    exact answers_of_accepted q rfl (q.passes (decide_eq_true q.len) (Need.check_of_sysPriv system _) rfl mode)
      (cfgCommitBody_of_valid open_ valid) rfl ⟨rfl, CfgState.bank_putBank_same .., CfgState.bank_putBank_not ..,
        Frame.set_cfg (Frame.refl ..) (by decide)⟩
  case abort =>
    intro s r p x q system mode open_
    exact answers_of_accepted q rfl (q.passes (decide_eq_true q.len) (Need.check_of_sysPriv system _) rfl mode)
      (cfgAbortBody_of_open open_) rfl (closeSession_leaves open_)
  case timeout => exact fun s x open_ => ⟨_, rfl, closeSession_leaves open_⟩
  case status =>
    intro s r p q serving
    exact answers_of_accepted q rfl (q.passes (decide_eq_true q.len) rfl rfl serving) rfl rfl rfl
  case section_ =>
    intro s r p n offset length x q system mode low high whole there fits
    exact answers_of_accepted q rfl (q.passes (decide_eq_true q.len) (Need.check_of_sysPriv system _)
      (needStat_eq_none.mpr (sectionLengthOk_of_multiple low high whole)) mode) (getSectionBody_of_there there fits) rfl rfl
  case activate =>
    intro s r p q system mode free ok newer status same
    exact answers_of_accepted_later q rfl (q.passes (decide_eq_true q.len) (Need.check_of_sysPriv system _) rfl mode)
      ((activateBody_of_ready ok newer status r free).trans (if_pos same)) rfl ⟨rfl, activateNow_of_same same⟩
  case activateLater =>
    intro s r p q system mode free ok newer status differs
    exact ⟨_, exec_of_unanswered q rfl (q.passes (decide_eq_true q.len) (Need.check_of_sysPriv system _) rfl mode)
      ((activateBody_of_ready ok newer status r free).trans (if_neg (by simp [differs]))), rfl, Frame.set_cfg (Frame.refl ..) (by decide)⟩
  case boundary =>
    intro s port tag seq apart waits ok newer status
    refine ⟨_, congrArg Host.Outcome.next ((if_neg ?_).trans (activationBoundary_of_ready ok newer status waits)), rfl⟩
    simp [apart]

end Sys2Proof.Machine
end

section
/-! PROOF. The CH commands of every channel and the data path of a channel (R97, R104 to R107, R121 to R125, R145). -/

namespace Sys2Proof.Machine

/-! ### Channels after a change, and the checks of a request on a channel -/

theorem State.chan_of_ch {s t : State} (same : t.ch = s.ch) (j : Nat) : t.chan j = s.chan j := by
  rw [State.chan, same]
  rfl

@[simp] theorem raise_chan (k : EvKind) (inst : Nat) (sc : Scope) (data : List Byte) (s : State) (j : Nat) :
    (raise k inst sc data s).chan j = s.chan j := State.chan_of_ch (raise_ch ..) j

@[simp] theorem raiseCh_chan (k : EvKind) (i : Nat) (data : List Byte) (s : State) (j : Nat) :
    (raiseCh k i data s).chan j = s.chan j := State.chan_of_ch (raiseCh_ch ..) j

@[simp] theorem State.modBridge_chan (s : State) (b : Nat) (f : Bridge → Bridge) (j : Nat) : (s.modBridge b f).chan j = s.chan j := rfl

@[simp] theorem State.modValve_chan (s : State) (k : Nat) (f : Valve → Valve) (j : Nat) : (s.modValve k f).chan j = s.chan j := rfl

@[simp] theorem orStat_none (b : Option U16) : orStat none b = b := rfl

section
variable {s : State} {p : Port} {i : Nat}

theorem chIndex_of_class {cls : Bool} (small : i ≤ 111) (fits : cls = true) : chIndex i cls = none := by
  simp only [chIndex, Nat.not_lt.mpr small, fits, Bool.not_true, Bool.false_eq_true, if_false]

theorem chNeed_check_of_mayUse (small : i ≤ 111) (may : p.mayUse (s.chOwner i)) : (chNeed s i).check p = none := by
  rw [chNeed, if_pos small]
  exact Need.check_of_mayUse may

theorem prioStat_of_mayPrio {r : Req} {prio : Nat} (open_ : s.port? r.port = some p) (may : p.mayPrio s prio) :
    prioStat s r prio = none := by
  obtain ⟨small, within⟩ := may
  simp only [prioStat, open_, Nat.not_lt.mpr small, if_false]
  obtain system | capped := within
  · rw [if_pos system]
  · split
    · rfl
    · split
      case h_1 v named => exact if_neg (Nat.not_lt.mpr (capped v named))
      case h_2 => rfl

/-- A change of one channel leaves the rest of the state and every other channel alone. -/
theorem State.modChan_leaves (s : State) (i : Nat) (f : Chan → Chan) :
    Frame [.ch] s (s.modChan i f) ∧ ∀ j, j ≠ i → (s.modChan i f).chan j = s.chan j :=
  ⟨State.modChan_frame .., fun j other => State.modChan_other s i f j other⟩

end

theorem Mode.ne_startup_of_isRunLimpWork {m : Mode} (runs : m.isRunLimpWork = true) : m ≠ .startup := by
  rintro rfl
  cases runs

theorem switchOut_of_range {mode duty : Nat} (phase : Nat) (m : mode ≤ 2) (d : duty ≤ 10000) : ∃ o, switchOut mode duty phase = some o := by
  have fits : ¬ 10000 < duty := Nat.not_lt.mpr d
  obtain rfl | rfl | rfl : mode = 0 ∨ mode = 1 ∨ mode = 2 := by omega
  · exact ⟨_, if_neg fits⟩
  · exact ⟨_, if_neg fits⟩
  · exact ⟨_, if_neg fits⟩

/-! ### A command to a switched channel -/

section
variable {s : State} {i : Nat}

/-- A command to a switch in force (R104, R119, R121). -/
theorem enterSw_of_switch (c : SwCmd) (sw : (chClass i).isSwitch = true) (served : s.sys.mode ≠ .startup) :
    enterSw i c s = s.modChan i (fun x => { x with
      sw := c, held := none, orphan := none, shed := none, ackGen := c.gen, ackSeq := c.seq, grd := { x.grd with needsCmd := false } }) := by
  have valve : chClass i ≠ .valve := by intro h; simp [h, ChClass.isSwitch] at sw
  unfold enterSw clearCompliance putSw
  rw [if_neg served, if_neg valve]
  cases h : chClass i with
  | half => simp [h, ChClass.isSwitch] at sw
  | valve => exact absurd h valve
  | heavy => rfl
  | medium => rfl
  | light => rfl

theorem mailboxSw_of_switch (r : Req) (o : OutCmd) (prio : Nat) (target : Option U32) (word : U32) (reg : Option U32)
    (sw : (chClass i).isSwitch = true) (served : s.sys.mode ≠ .startup) : mailboxSw r i o prio target word reg s =
      (s.modChan i (fun c => { c with tagGen := s.ownerGen i, tagSeq := r.seq.extractLsb' 0 16, cmdWord := word,
                                      targetReg := reg.getD c.targetReg })).modChan i (fun x => { x with
        sw := { out := o, prio := prio, target := target, gen := s.ownerGen i, seq := r.seq.extractLsb' 0 16 }
        held := none, orphan := none, shed := none, ackGen := s.ownerGen i, ackSeq := r.seq.extractLsb' 0 16
        grd := { x.grd with needsCmd := false } }) :=
  enterSw_of_switch _ sw served

theorem chSetBody_of_free (r : Req) (mode prio duty phase : Nat)
    (free : mode = 0 ∨ ((s.chan i).grd.latched = false ∧ (s.chan i).grd.locked = false)) : chSetBody r i mode prio duty phase s =
      (mailboxSw r i ((switchOut mode duty phase).getD .off) prio none (lswWord mode prio phase duty) none s,
        .ok (le32 ((mailboxSw r i ((switchOut mode duty phase).getD .off) prio none (lswWord mode prio phase duty) none s).chStatus i))) := by
  obtain off | ⟨latched, locked⟩ := free
  · simp only [chSetBody, off, ne_eq, not_true_eq_false, decide_false, Bool.false_and, Bool.false_eq_true, if_false]
  · simp only [chSetBody, latched, locked, Bool.and_false, Bool.false_eq_true, if_false]

theorem chSetBody_of_latched (r : Req) {mode : Nat} (prio duty phase : Nat) (on_ : mode ≠ 0) (latched : (s.chan i).grd.latched = true) :
    chSetBody r i mode prio duty phase s = (s, .fail stat_chLatched) := by
  simp only [chSetBody, on_, latched, ne_eq, not_false_eq_true, decide_true, Bool.and_self, if_true]

end

/-! ### Profiles -/

/-- Neither index of a pair but HBgA's names a bridge (R127). -/
theorem bridgeIdx_of_half {i : Nat} (half : chClass (bridgeIdx i) = .half) : brChan (bridgeIdx i / 14) = bridgeIdx i := by
  unfold chClass at half
  unfold brChan
  dsimp only at half
  have not_pair : bridgeIdx i % 14 ≠ 11 := by
    unfold bridgeIdx
    split <;> omega
  split at half
  · cases half
  · split at half
    · cases half
    · split at half
      · cases half
      · split at half
        · omega
        · cases half

/-- What a loss of the position leaves of the profiles: they stand, and no channel but the bridge's is touched (R140). -/
theorem losePos_leaves (b : Nat) (s : State) :
    ((losePos b s).chan (brChan b)).prof = (s.chan (brChan b)).prof ∧ ((losePos b s).chan (brChan b)).profId = (s.chan (brChan b)).profId ∧
      ((losePos b s).chan (brChan b)).holdOvr = (s.chan (brChan b)).holdOvr ∧ ∀ j, j ≠ brChan b → (losePos b s).chan j = s.chan j := by
  unfold losePos
  split
  · dsimp only
    simp only [raiseCh_chan]
    split
    · simp only [State.modBridge_chan, State.modChan_same]
      exact ⟨rfl, rfl, rfl, fun j other => State.modChan_other _ _ _ j other⟩
    · exact ⟨rfl, rfl, rfl, fun _ _ => rfl⟩
  · exact ⟨rfl, rfl, rfl, fun _ _ => rfl⟩

/-- A profile takes effect on its channel alone (R106). -/
theorem assignProfile_leaves (i id : Nat) (x : Profile) (s : State) (half : chClass i = .half → brChan (i / 14) = i) :
    ((assignProfile i id x s).chan i).prof = x ∧ ((assignProfile i id x s).chan i).profId = id ∧
      ((assignProfile i id x s).chan i).holdOvr = none ∧ Frame [.ch, .mbx, .log, .vz] s (assignProfile i id x s) ∧
      (((s.chan i).prof.hb.rippleEn = false ∨ x.hb.rippleEn = true) → Frame [.ch] s (assignProfile i id x s)) ∧
      ∀ j, j ≠ i → (assignProfile i id x s).chan j = s.chan j := by
  have framed : Frame [.ch, .mbx, .log, .vz] s (assignProfile i id x s) := (assignProfile_frame i id x s).mono (by decide)
  unfold assignProfile at framed ⊢
  dsimp only at framed ⊢
  split
  case h_1 h =>
    split
    case isTrue loses =>
      obtain ⟨prof, profId, hold, others⟩ := losePos_leaves (i / 14) (s.modChan i (fun c =>
        { c with profId := id, prof := x, holdOvr := none,
                 grd := { c.grd with fwOk := c.grd.fwOk && decide (x.typ ≠ 5), fwDone := c.grd.fwDone && decide (x.typ ≠ 5) } }))
      rw [half h, State.modChan_same] at prof profId hold
      rw [half h] at others
      refine ⟨prof, profId, hold, by rw [h, if_pos loses] at framed; exact framed, ?_, fun j other => ?_⟩
      · rintro (off | on_)
        · simp [off] at loses
        · simp [on_] at loses
      · rw [others j other, State.modChan_other _ _ _ j other]
    case isFalse =>
      rw [State.modChan_same]
      exact ⟨rfl, rfl, rfl, State.modChan_frame .. |>.mono (by decide), fun _ => State.modChan_frame .., fun j other => State.modChan_other _ _ _ j other⟩
  case h_2 h =>
    rw [State.modValve_chan, State.modChan_same]
    exact ⟨rfl, rfl, rfl, by rw [h] at framed; exact framed, fun _ => (State.modChan_frame ..).trans (State.modValve_frame ..),
      fun j other => State.modChan_other _ _ _ j other⟩
  case h_3 =>
    rw [State.modChan_same]
    exact ⟨rfl, rfl, rfl, State.modChan_frame .. |>.mono (by decide), fun _ => State.modChan_frame .., fun j other => State.modChan_other _ _ _ j other⟩

/-! ### Bodies -/

section
variable {s : State} {i : Nat}

theorem setProfileBody_of_ready {id : Nat} {x : Profile} (off : (s.chan (bridgeIdx i)).out.isOff = true)
    (there : s.cfg.image.profiles.get? id = some x) (fits : profileStatus (bridgeIdx i) (s.groupVolt (bridgeIdx i / 14)) x = none)
    (unlocked : (s.chan (bridgeIdx i)).grd.lockFw = false) :
    setProfileBody i id s = (assignProfile (bridgeIdx i) id x s, .ok []) := by
  simp only [setProfileBody, off, there, fits, unlocked, Bool.not_true, Bool.false_eq_true, if_false]

theorem unlockBody_of_low (locked : (s.chan i).grd.lockLedger = true) (low : 2 * (s.chan i).grd.ledgerNow s.now ≤ (chClass i).budget) :
    unlockBody i 0 s = (raiseCh evt_chUnlocked i [] (s.modChan i (fun c => { c with
      grd := { c.grd with lockLedger := false, needsCmd := true } })), .ok []) := by
  simp only [unlockBody, locked, Nat.not_lt.mpr low, Bool.not_true, Bool.false_eq_true, if_false, if_true]

theorem unlockBody_of_high (locked : (s.chan i).grd.lockLedger = true) (high : (chClass i).budget < 2 * (s.chan i).grd.ledgerNow s.now) :
    unlockBody i 0 s = (s, .fail stat_chLedgerHigh) := by
  simp only [unlockBody, locked, high, Bool.not_true, Bool.false_eq_true, if_false, if_true]

theorem clearFaultBody_of_cooled (latched : (s.chan (bridgeIdx i)).grd.latched = true)
    (cooled : (s.chan (bridgeIdx i)).grd.cooled = true) (arc : (s.chan (bridgeIdx i)).grd.latchArc = false) :
    clearFaultBody i s = (s.modChan (bridgeIdx i) (fun c => { c with
      grd := { c.grd with latched := false, latchArc := false, retries := 0, needsCmd := true } }), .ok []) := by
  simp only [clearFaultBody, latched, cooled, arc, Bool.not_true, Bool.false_and, Bool.false_eq_true, if_false]

theorem keepStat_of_allowed {set : List KeepEntry} (few : set.length ≤ 8) (each : ∀ e ∈ set, e.ch.toNat ≤ 111 ∧ e.duty.toNat ≤ 10000 ∧
    (e.mode = 1 ∨ e.mode = 2) ∧ keepAllowed s e.ch.toNat = true) : keepStat s set = none := by
  have ranges : set.any (fun e => decide (111 < e.ch.toNat) || decide (10000 < e.duty.toNat)) = false :=
    List.any_eq_false.mpr fun e h => by
      obtain ⟨ch, duty, _, _⟩ := each e h
      simp [ch, duty]
  have modes : set.any (fun e => decide (e.mode ≠ 1) && decide (e.mode ≠ 2)) = false :=
    List.any_eq_false.mpr fun e h => by
      obtain ⟨_, _, one | two, _⟩ := each e h
      · simp [one]
      · simp [two]
  have light : ∀ e ∈ set, chClass e.ch.toNat = .light := fun e h => by
    obtain ⟨_, _, _, may⟩ := each e h
    exact of_decide_eq_true (Bool.and_eq_true_iff.mp may).1
  have classes : set.any (fun e => !(chClass e.ch.toNat).isSwitch) = false :=
    List.any_eq_false.mpr fun e h => by simp [light e h, ChClass.isSwitch]
  have all : set.all (fun e => keepAllowed s e.ch.toNat) = true := List.all_eq_true.mpr fun e h => by
    obtain ⟨_, _, _, may⟩ := each e h
    exact may
  simp only [keepStat, Nat.not_lt.mpr few, ranges, modes, classes, all, Bool.false_eq_true, if_false, if_true]

theorem testBody_of_free (r : Req) (test duration : Nat) (free : (s.chan (bridgeIdx i)).test = none) : testBody r i test duration s =
    (s.modChan (bridgeIdx i) (fun c => { c with
      test := some { test := test, duration := duration, reverse := decide (i % 14 = 11), port := r.port, tag := r.tag, reqSeq := r.seq } }),
      .fail stat_pending) := by
  simp only [testBody, free, Option.isSome_none, Bool.false_eq_true, if_false]

/-- The end of a test that releases no lock (R125). -/
theorem endTest_of_kept {x : ChTestRun} (pass : Bool) (value : U32) (runs : (s.chan i).test = some x)
    (keeps : x.test ≠ 2 ∨ (s.chan i).grd.clampOver = false) : ∃ u, endTest i stat_ok pass value s =
      complete x.port x.reqSeq x.tag 0x030A stat_ok (bool8 (x.passes i pass value) ++ zeros 3 ++ le32 value) u ∧
        (u.chan i).test = none ∧ Frame [.ch] s u := by
  have free : (decide (x.test = 2) && x.passes i pass value && decide (stat_ok = stat_ok) && (s.chan i).grd.clampOver) = false := by
    obtain other | clear := keeps
    · simp only [other, decide_false, Bool.false_and]
    · simp only [clear, Bool.and_false]
  unfold endTest
  rw [runs]
  dsimp only
  rw [free, if_pos rfl, if_neg Bool.false_ne_true]
  exact ⟨_, rfl, by rw [State.modChan_same], State.modChan_frame ..⟩

end

/-! ### The data path -/

/-- From `s` to `t` the command word of channel `i` stands and no other channel changes. -/
def CmdWordKept (i : Nat) (s t : State) : Prop := (t.chan i).cmdWord = (s.chan i).cmdWord ∧ ∀ j, j ≠ i → t.chan j = s.chan j

theorem CmdWordKept.of_ch {i : Nat} {s t : State} (same : t.ch = s.ch) : CmdWordKept i s t :=
  ⟨by rw [State.chan_of_ch same], fun j _ => State.chan_of_ch same j⟩

theorem CmdWordKept.trans {i : Nat} {s t u : State} (h : CmdWordKept i s t) (k : CmdWordKept i t u) : CmdWordKept i s u :=
  ⟨k.1.trans h.1, fun j other => (k.2 j other).trans (h.2 j other)⟩

theorem CmdWordKept.modChan {i : Nat} (s : State) {f : Chan → Chan} (kept : ∀ c, (f c).cmdWord = c.cmdWord) :
    CmdWordKept i s (s.modChan i f) :=
  ⟨by rw [State.modChan_same, kept], fun j other => State.modChan_other s i f j other⟩

theorem clearCompliance_kept (i : Nat) (c : SwCmd) (s : State) : CmdWordKept i s (clearCompliance i c s) := by
  unfold clearCompliance
  split
  · dsimp only
    split
    · exact ⟨by rw [raiseCh_chan, State.modValve_chan], fun j _ => by rw [raiseCh_chan, State.modValve_chan]⟩
    · exact .of_ch rfl
  · exact .of_ch rfl

theorem putSw_kept (i : Nat) (c : SwCmd) (s : State) : CmdWordKept i s (putSw i c s) := by
  unfold putSw
  dsimp only
  split
  · exact .modChan s (fun _ => rfl)
  · exact .modChan s (fun _ => rfl)
  · exact .modChan s (fun _ => rfl)

theorem enterSw_kept (i : Nat) (c : SwCmd) (s : State) : CmdWordKept i s (enterSw i c s) := by
  unfold enterSw
  split
  · exact .modChan s (fun _ => rfl)
  · exact (clearCompliance_kept i c s).trans (putSw_kept i c _)

/-- The owner's doorbell leaves the written word in the register and no other channel touched (R121). -/
theorem doorbell_of_owner {v i : Nat} {s : State} (w : U32) (owns : s.chOwner i = some v) (active : (s.vzf v).life = .active) :
    CmdWordKept i (s.modChan i (fun c => { c with cmdWord := w })) (doorbell v i w s) := by
  unfold doorbell
  rw [if_neg (not_not_intro owns), if_neg (not_not_intro active)]
  dsimp only
  split
  · exact .modChan _ (fun _ => rfl)
  · split
    · exact .modChan _ (fun _ => rfl)
    · split
      · exact .modChan _ (fun _ => rfl)
      · refine CmdWordKept.trans ?_ (enterSw_kept ..)
        split
        · exact .modChan _ (fun _ => rfl)
        · exact .of_ch rfl

theorem windowFault_bus (v : Nat) (s : State) : (windowFault v s).bus = 0 := by
  unfold windowFault
  dsimp only
  split
  · rfl
  · rw [raise_bus]

theorem doorbell_of_other {v i : Nat} {s : State} (w : U32) (other : s.chOwner i ≠ some v) : doorbell v i w s = windowFault v s :=
  if_pos other

theorem readStampLo_of_owner {v i : Nat} {s : State} (owns : s.chOwner i = some v) : readStampLo v i s =
    { s.modChan i (fun x => { x with stampHi := (s.chan (bridgeIdx i)).stamp.extractLsb' 32 32 }) with
      bus := ((s.chan (bridgeIdx i)).stamp.extractLsb' 0 32).zeroExtend 64 } := if_neg (not_not_intro owns)

theorem readPeak_of_owner {v i : Nat} {s : State} (owns : s.chOwner i = some v) : readPeak v i s =
    { s.modChan (bridgeIdx i) (fun c => { c with sense := { c.sense with iPeak := 0 } }) with
      bus := (s.chan (bridgeIdx i)).peakWord.zeroExtend 64 } := if_neg (not_not_intro owns)

/-- Settles O10: a request on a channel passes its checks by `chNeed_check_of_mayUse` and `chIndex_of_class`, and each effect is a change
of one channel (`State.modChan_leaves`). That `OFF` is taken on a latched channel is log entry 45. -/
theorem channelCommandsAndDataPathAct : Obligations.ChannelCommandsAndDataPathAct := by
  refine ⟨?set, ?setLatched, ?getStatus, ?setProfile, ?getProfile, ?unlock, ?unlockHigh, ?clearFault, ?setHold, ?keep, ?sns, ?snsNone, ?test,
    ?testEnd, ?gateEnd, ?ledger, ?lsw, ?hbr, ?vlv, ?owner, ?notOwner, ?stampLo, ?peak⟩
  case set =>
    intro s r p ch mode prio duty phase q small sw may m d mayPrio runs free
    have served := Mode.ne_startup_of_isRunLimpWork runs
    refine answers_of_accepted q rfl (q.passes (decide_eq_true q.len) (chNeed_check_of_mayUse small may) ?_ runs)
      (chSetBody_of_free r mode.toNat prio.toNat duty.toNat phase.toNat free) rfl ?_
    · simp [chSetCmd, chIndex_of_class small sw, m, d, prioStat_of_mayPrio q.port mayPrio]
    · rw [mailboxSw_of_switch _ _ _ _ _ _ sw served, State.modChan_same, State.modChan_same]
      refine ⟨rfl, rfl, rfl, rfl, rfl, rfl, rfl, rfl, (State.modChan_frame ..).trans (State.modChan_frame ..), fun j other => ?_⟩
      rw [State.modChan_other _ _ _ j other, State.modChan_other _ _ _ j other]
  case setLatched =>
    intro s r p ch mode prio duty phase q small sw may m d mayPrio runs latched
    refine answers_of_accepted q rfl (q.passes (decide_eq_true q.len) (chNeed_check_of_mayUse small may) ?_ runs)
      (chSetBody_of_latched r prio.toNat duty.toNat phase.toNat (by omega) latched) rfl rfl
    simp [chSetCmd, chIndex_of_class small sw, m, d, prioStat_of_mayPrio q.port mayPrio]
  case getStatus =>
    intro s r p ch q small may serving
    exact answers_of_accepted q rfl (q.passes (decide_eq_true q.len) (chNeed_check_of_mayUse small may) (chIndex_of_class small rfl) serving)
      rfl rfl rfl
  case setProfile =>
    intro s r p ch id x q small may runs off there fits unlocked
    exact answers_of_accepted q rfl (q.passes (decide_eq_true q.len) (chNeed_check_of_mayUse small may) (chIndex_of_class small rfl) runs)
      (setProfileBody_of_ready off there fits unlocked) rfl (assignProfile_leaves _ _ x s bridgeIdx_of_half)
  case getProfile =>
    intro s r p ch q small may serving
    exact answers_of_accepted q rfl (q.passes (decide_eq_true q.len) (chNeed_check_of_mayUse small may) (chIndex_of_class small rfl) serving)
      rfl rfl rfl
  case unlock =>
    intro s r p ch q small sw may runs locked low
    refine answers_of_accepted q rfl (q.passes (decide_eq_true q.len) (chNeed_check_of_mayUse small may) ?_ runs)
      (unlockBody_of_low locked low) rfl ?_
    · simp [chIndex_of_class small sw]
    · simp only [raiseCh_chan, State.modChan_same]
      exact ⟨trivial, trivial, Frame.via (raiseCh_frame ..) (by decide) ((State.modChan_frame ..).mono (by decide)),
        fun j other => State.modChan_other _ _ _ j other⟩
  case unlockHigh =>
    intro s r p ch q small sw may runs locked high
    refine answers_of_accepted q rfl (q.passes (decide_eq_true q.len) (chNeed_check_of_mayUse small may) ?_ runs)
      (unlockBody_of_high locked high) rfl rfl
    simp [chIndex_of_class small sw]
  case clearFault =>
    intro s r p ch q small may runs latched junction wire arc
    have cooled : (s.chan (bridgeIdx ch.toNat)).grd.cooled = true := by
      obtain no | ok := wire
      · simp [Guard.cooled, junction, no]
      · simp [Guard.cooled, junction, ok]
    refine answers_of_accepted q rfl (q.passes (decide_eq_true q.len) (chNeed_check_of_mayUse small may) (chIndex_of_class small rfl) runs)
      (clearFaultBody_of_cooled latched cooled arc) rfl ?_
    rw [State.modChan_same]
    exact ⟨rfl, rfl, State.modChan_leaves ..⟩
  case setHold =>
    intro s r p ch setting tHold q small may runs set_ low high
    refine answers_of_accepted q rfl (q.passes (decide_eq_true q.len) (chNeed_check_of_mayUse small may) ?_ runs) rfl rfl ?_
    · simp [chIndex_of_class small, set_, low, high]
    · rw [State.modChan_same]
      exact ⟨rfl, State.modChan_leaves ..⟩
  case keep =>
    intro s r p set q system runs few each
    exact answers_of_accepted q rfl (q.passes (decide_eq_true q.len) (Need.check_of_sysPriv system _) (keepStat_of_allowed few each) runs)
      rfl rfl ⟨rfl, Frame.set_ch (Frame.refl ..) (by decide), fun _ => rfl⟩
  case sns =>
    intro s r p ch q small may runs
    have named : ch ≠ 0xFFFF := by rintro rfl; exact absurd small (by decide)
    refine answers_of_accepted q rfl (q.passes (decide_eq_true q.len) ?_ ?_ runs) rfl rfl
      ⟨if_neg named, Frame.set_ch (Frame.refl ..) (by decide), fun _ => rfl⟩
    · exact (congrArg (fun n => Need.check n p) (if_neg named)).trans (chNeed_check_of_mayUse small may)
    · exact (if_neg named).trans (chIndex_of_class small rfl)
  case snsNone =>
    intro s r p q runs
    exact answers_of_accepted q rfl (q.passes (decide_eq_true q.len) rfl rfl runs) rfl rfl
      ⟨rfl, Frame.set_ch (Frame.refl ..) (by decide), fun _ => rfl⟩
  case test =>
    intro s r p ch test duration q system small fits few low high work free
    refine answers_of_accepted q rfl (q.passes (decide_eq_true q.len) (Need.check_of_sysPriv system _) ?_ (decide_eq_true work))
      (testBody_of_free r _ _ free) rfl ?_
    · have class_ : ((chClass ch.toNat).isSwitch || decide (2 ≤ test.toNat)) = true := by
        obtain sw | late := fits
        · simp [sw]
        · simp [late]
      simp [chIndex_of_class small class_, few, low, high]
    · rw [State.modChan_same]
      exact ⟨rfl, State.modChan_leaves ..⟩
  case testEnd =>
    intro s ch pass value x runs other
    obtain ⟨u, ends, leaves⟩ := endTest_of_kept pass value runs (.inl other)
    rw [ChTestRun.passes, if_neg other] at ends
    exact ⟨_, congrArg Host.Outcome.next ends, u, rfl, leaves⟩
  case gateEnd =>
    intro s ch pass value x runs gate clear
    obtain ⟨u, ends, leaves⟩ := endTest_of_kept pass value runs (.inr clear)
    rw [ChTestRun.passes, if_pos gate] at ends
    exact ⟨_, congrArg Host.Outcome.next ends, u, rfl, leaves⟩
  case ledger =>
    intro s r p ch q small sw may serving
    exact answers_of_accepted q rfl (q.passes (decide_eq_true q.len) (chNeed_check_of_mayUse small may) (chIndex_of_class small sw) serving)
      rfl rfl rfl
  case lsw => exact fun v ch value s sw => ⟨_, congrArg Host.Outcome.next (if_pos sw), rfl⟩
  case hbr => exact fun _ _ _ _ => ⟨_, rfl, rfl⟩
  case vlv => exact fun _ _ _ _ => ⟨_, rfl, rfl⟩
  case owner =>
    intro v i w s owns active
    obtain ⟨word, others⟩ := doorbell_of_owner w owns active
    rw [State.modChan_same] at word
    exact ⟨word, fun j other => (others j other).trans (State.modChan_other _ _ _ j other)⟩
  case notOwner =>
    intro v i w s other
    rw [doorbell_of_other w other]
    exact ⟨State.chan_of_ch ((windowFault_frame v s).same .ch (by decide)), (windowFault_frame v s).mono (by decide), windowFault_bus v s⟩
  case stampLo =>
    intro v ch s owns
    exact ⟨_, congrArg Host.Outcome.next (readStampLo_of_owner owns), rfl,
      Frame.set_bus ((State.modChan_frame ..).mono (by decide)) (by decide), fun j other => State.modChan_other s _ _ j other⟩
  case peak =>
    intro v ch s owns
    refine ⟨_, congrArg Host.Outcome.next (readPeak_of_owner owns), rfl, ?_, Frame.set_bus ((State.modChan_frame ..).mono (by decide)) (by decide),
      fun j other => State.modChan_other s _ _ j other⟩
    exact congrArg (fun c : Chan => c.sense.iPeak) (State.modChan_same s _ _)

end Sys2Proof.Machine
end

section
/-! PROOF. The CH commands of half-bridges and valves (R104, R140, R141, R143, R149). -/

namespace Sys2Proof.Machine

/-- What a request that passes its checks does, with the answer that the command's own effect gives. -/
theorem exec_of_accepted {c : Instr} {r : Req} {cmd : Cmd} {s u : State} {p : Port} {n : Nat} {body : Port → State → State × Reply}
    {status : U16} {data : List Byte} (q : Requested s r p n) (acts : exec c s = .next (runCmd r cmd body s))
    (passes : cmd.check r p = none) (does : body p s = (u, ⟨status, data⟩)) :
    exec c s = .next (respond r cmd.code status data u) := by
  rw [acts, runCmd_accepted body q.port passes, does]

/-! ### A command in force -/

theorem putSw_sw (i : Nat) (c : SwCmd) (s : State) : ((putSw i c s).chan i).sw = c := by
  unfold putSw
  dsimp only
  split
  · rw [State.modBridge_chan, State.modChan_same]
  · rw [State.modValve_chan, State.modChan_same]
  · rw [State.modChan_same]

theorem mailboxSw_sw {r : Req} {i : Nat} {o : OutCmd} {prio : Nat} {target : Option U32} {word : U32} {reg : Option U32} {s : State}
    (served : s.sys.mode ≠ .startup) : ((mailboxSw r i o prio target word reg s).chan i).sw.out = o ∧
      ((mailboxSw r i o prio target word reg s).chan i).sw.prio = prio := by
  unfold mailboxSw enterSw
  dsimp only
  rw [State.modChan_sys, if_neg served, putSw_sw]
  exact ⟨rfl, rfl⟩

/-! ### Bodies -/

section
variable {s : State} {i : Nat}

theorem hbConfigBody_of_kept {f : HbFields} (still : (s.bridge (bridgeIdx i / 14)).moving = false)
    (fits : hbConflict (s.chan (bridgeIdx i)).prof (hbBlockOf f) = false) (counts : (hbBlockOf f).rippleEn = true) :
    hbConfigBody i f s = (s.modChan (bridgeIdx i) (fun c => { c with prof := { c.prof with hb := hbBlockOf f } }), .ok []) := by
  simp only [hbConfigBody, still, fits, counts, Bool.not_true, Bool.and_false, Bool.false_eq_true, if_false]

theorem hbDriveBody_of_free (r : Req) (drive prio duty phase : Nat) {tgt : Bool} (target : U32)
    (latched : (s.chan (bridgeIdx i)).grd.latched = false) (known : tgt = false ∨ (s.bridge (bridgeIdx i / 14)).posValid = true) :
    ∃ u, u = mailboxSw r (bridgeIdx i) ((driveOut drive duty phase).getD .off) prio (if tgt then some target else none)
        (hbrWord drive tgt prio phase duty) (some target) s ∧
      hbDriveBody r i drive prio duty phase tgt target s = (u, .ok (le32 (u.chStatus (bridgeIdx i))
        ++ le32 ((u.bridge (bridgeIdx i / 14)).stateWord (u.ripAct (bridgeIdx i / 14))))) := by
  have counted : (tgt && !(s.bridge (bridgeIdx i / 14)).posValid) = false := by
    obtain no | yes := known
    · rw [no, Bool.false_and]
    · rw [yes, Bool.not_true, Bool.and_false]
  refine ⟨_, rfl, ?_⟩
  simp only [hbDriveBody, latched, counted, Bool.and_false, Bool.false_eq_true, if_false]

theorem hbDriveBody_of_unknown (r : Req) (drive prio duty phase : Nat) (target : U32)
    (latched : (s.chan (bridgeIdx i)).grd.latched = false) (unknown : (s.bridge (bridgeIdx i / 14)).posValid = false) :
    hbDriveBody r i drive prio duty phase true target s = (s, .fail stat_hbPosInvalid) := by
  simp only [hbDriveBody, latched, unknown, Bool.not_false, Bool.and_false, Bool.and_self, Bool.false_eq_true, if_false, if_true]

/-- The bytes that `CH.HB_POSITION` answers (Table 5.19). -/
def positionBytes (s : State) (b : Nat) : List Byte :=
  le32 (s.bridge b).pos ++ [byteOf (bit (s.bridge b).posValid), 0, byteOf (min 255 (s.bridge b).inserted),
    byteOf (min 255 (s.bridge b).rejected)] ++ i32 ((s.bridge b).rate (s.ripAct b))

theorem hbPositionBody_of_write (value : U32) (still : (s.bridge (bridgeIdx i / 14)).moving = false) :
    ∃ u, u = s.modBridge (bridgeIdx i / 14) (fun x => { x with pos := value, posValid := true, inserted := 0, rejected := 0 }) ∧
      hbPositionBody i 1 value s = (u, .ok (positionBytes u (bridgeIdx i / 14))) := by
  refine ⟨_, rfl, ?_⟩
  simp only [hbPositionBody, still, Bool.and_false, Bool.false_eq_true, if_false, if_true]
  rfl

theorem hbPositionBody_of_read (value : U32) : hbPositionBody i 0 value s = (s, .ok (positionBytes s (bridgeIdx i / 14))) := rfl

theorem vlvConfigBody_of_idle {flags : Byte} {amp freq bw : U16}
    (fits : vlvConflict (s.chan i).prof (vlvBlockOf (s.chan i).prof flags amp freq bw) = false)
    (idle : (s.valve (chanVlv i)).dithAct = false) : vlvConfigBody i flags amp freq bw s =
      ((s.modChan i (fun c => { c with prof := { c.prof with vlv := vlvBlockOf (s.chan i).prof flags amp freq bw } })).modValve (chanVlv i)
        (fun v => { v with newDither := none }), .ok []) := by
  simp only [vlvConfigBody, fits, idle, Bool.false_eq_true, if_false]

theorem vlvConfigBody_of_dither {flags : Byte} {amp freq bw : U16}
    (fits : vlvConflict (s.chan i).prof (vlvBlockOf (s.chan i).prof flags amp freq bw) = false)
    (runs : (s.valve (chanVlv i)).dithAct = true) : vlvConfigBody i flags amp freq bw s =
      (s.modValve (chanVlv i) (fun v => { v with newDither := some (vlvBlockOf (s.chan i).prof flags amp freq bw) }), .ok []) := by
  simp only [vlvConfigBody, fits, runs, Bool.false_eq_true, if_false, if_true]

theorem vlvSetBody_of_free (r : Req) (prio : Nat) (en : Bool) (ma : Nat) (free : (s.chan i).grd.latched = false) :
    vlvSetBody r i prio en ma s = (mailboxSw r i (if en then .regulate ma else .off) prio none (vlvWord en prio ma) none s,
      .ok (le32 ((mailboxSw r i (if en then .regulate ma else .off) prio none (vlvWord en prio ma) none s).chStatus i))) := by
  simp only [vlvSetBody, free, Bool.and_false, Bool.false_eq_true, if_false]

end

/-- Settles O11: the commands of a pair act on its bridge's channel, those of a valve on the valve's. -/
theorem bridgeAndValveCommandsAct : Obligations.BridgeAndValveCommandsAct := by
  refine ⟨?config, ?drive, ?unknown, ?setPosition, ?position, ?vlvConfig, ?vlvLater, ?vlvSet, ?vlvStatus⟩
  case config =>
    intro s r p ch f q small half may runs flags range still fits counts
    refine answers_of_accepted q rfl (q.passes (decide_eq_true q.len) (chNeed_check_of_mayUse small may) ?_ runs)
      (hbConfigBody_of_kept still fits counts) rfl ?_
    · simp [chIndex_of_class small (decide_eq_true half), flags, range]
    · rw [State.modChan_same]
      exact ⟨rfl, State.modChan_leaves ..⟩
  case drive =>
    intro s r p ch drive prio duty phase flags target q small half may d f within mayPrio runs latched known
    obtain ⟨u, is, does⟩ := hbDriveBody_of_free (i := ch.toNat) r drive.toNat prio.toNat duty.toNat phase.toNat target latched known
    refine ⟨_, exec_of_accepted q rfl (q.passes (decide_eq_true q.len) (chNeed_check_of_mayUse small may) ?_ runs) does, u, is, rfl⟩
    simp [chIndex_of_class small (decide_eq_true half), d, f, within, prioStat_of_mayPrio q.port mayPrio]
  case unknown =>
    intro s r p ch drive prio duty phase target q small half may d within mayPrio runs latched unknown
    refine answers_of_accepted q rfl (q.passes (decide_eq_true q.len) (chNeed_check_of_mayUse small may) ?_ runs)
      (hbDriveBody_of_unknown r drive.toNat prio.toNat duty.toNat phase.toNat target latched unknown) rfl rfl
    simp [chIndex_of_class small (decide_eq_true half), d, within, prioStat_of_mayPrio q.port mayPrio]
  case setPosition =>
    intro s r p ch value q small half may runs still
    obtain ⟨u, is, does⟩ := hbPositionBody_of_write value still
    have at_ : u.bridge (bridgeIdx ch.toNat / 14) = { s.bridge (bridgeIdx ch.toNat / 14) with
        pos := value, posValid := true, inserted := 0, rejected := 0 } := by rw [is, State.modBridge_same]
    refine ⟨_, exec_of_accepted q rfl (q.passes (decide_eq_true q.len) (chNeed_check_of_mayUse small may) ?_ runs) does,
      u, _, rfl, ?_, ?_, ?_, ?_, ?_, is ▸ State.modBridge_frame ..⟩
    · simp [chIndex_of_class small (decide_eq_true half)]
    · rw [at_]
    · rw [at_]
    · rw [at_]
    · rw [at_]
    · rw [positionBytes, at_]
      rfl
  case position =>
    intro s r p ch value q small half may runs
    refine ⟨_, exec_of_accepted q rfl (q.passes (decide_eq_true q.len) (chNeed_check_of_mayUse small may) ?_ runs)
      (hbPositionBody_of_read value), _, rfl, rfl⟩
    simp [chIndex_of_class small (decide_eq_true half)]
  case vlvConfig =>
    intro s r p ch flags amp freq bw q small valve may runs f range fits idle
    refine answers_of_accepted q rfl (q.passes (decide_eq_true q.len) (chNeed_check_of_mayUse small may) ?_ runs)
      (vlvConfigBody_of_idle fits idle) rfl ?_
    · simp [chIndex_of_class small (decide_eq_true valve), f, range]
    · simp only [State.modValve_chan, State.modChan_same]
      exact ⟨trivial, (State.modChan_frame ..).trans (State.modValve_frame ..), fun j other => State.modChan_other _ _ _ j other⟩
  case vlvLater =>
    intro s r p ch flags amp freq bw q small valve may runs f range fits dithers
    refine answers_of_accepted q rfl (q.passes (decide_eq_true q.len) (chNeed_check_of_mayUse small may) ?_ runs)
      (vlvConfigBody_of_dither fits dithers) rfl ⟨?_, State.modValve_frame .., fun _ => rfl⟩
    · simp [chIndex_of_class small (decide_eq_true valve), f, range]
    · rw [State.modValve_same]
  case vlvSet =>
    intro s r p ch prio enable ma q small valve may en within mayPrio runs free
    have does := vlvSetBody_of_free r prio.toNat (decide (enable = 1)) ma.toNat free
    simp only [decide_eq_true_eq] at does
    refine ⟨_, exec_of_accepted q rfl (q.passes (decide_eq_true q.len) (chNeed_check_of_mayUse small may) ?_ runs) does,
      _, rfl, rfl, mailboxSw_sw (Mode.ne_startup_of_isRunLimpWork runs)⟩
    simp [chIndex_of_class small (decide_eq_true valve), en, within, prioStat_of_mayPrio q.port mayPrio]
  case vlvStatus =>
    intro s r p ch q small valve may runs
    exact answers_of_accepted q rfl (q.passes (decide_eq_true q.len) (chNeed_check_of_mayUse small may)
      (chIndex_of_class small (decide_eq_true valve)) runs) rfl rfl rfl

end Sys2Proof.Machine
end

section
/-! PROOF. The RFX commands (R200, R204, R206, R207, R210, R212, R219). -/

namespace Sys2Proof.Machine

/-! ### Checks -/

/-- A port with system privilege may use every rule (R62, R219). -/
theorem rulesNeed_check_of_sysPriv {p : Port} (system : p.sysPriv = true) (s : State) (r : Req) (ns : List Nat) :
    (rulesNeed s r ns).check p = none := by
  unfold rulesNeed
  dsimp only
  split
  · rfl
  · split
    · exact Need.check_of_sysPriv system _
    · exact Need.check_of_sysPriv system _

theorem spanStat_of_range {first count : Nat} (one : 1 ≤ count) (few : count ≤ 64) (fits : first + count ≤ 1024) :
    spanStat first count = none := by
  simp [spanStat, one, few, fits]

theorem span_one (first : Nat) : span first 1 = [first] := rfl

theorem flagOf_zero_of_small {flags : Byte} (small : flags.toNat ≤ 1) : flagOf flags 0 = decide (flags = 1) := by
  have either : flags = 0 ∨ flags = 1 := by
    obtain zero | one : flags.toNat = 0 ∨ flags.toNat = 1 := by omega
    · exact .inl (BitVec.eq_of_toNat_eq zero)
    · exact .inr (BitVec.eq_of_toNat_eq one)
  obtain rfl | rfl := either <;> rfl

/-! ### Bodies -/

section
variable {s : State} {n : Nat} {f : RuleFields}

theorem loadRuleBody_of_owned (owned : ruleOwnership s (ruleOf f) = none) : loadRuleBody n f s =
    (evalRules (s.modRule n (fun _ => { RuleRun.reset with rule := ruleOf f, byCommand := true })), .ok []) := by
  simp only [loadRuleBody, owned]

theorem enableBody_of_owned {ns : List Nat} (owned : ∀ k ∈ ns, s.orphanRule k = false) : enableBody ns s =
    (evalRules { s with rfx := { s.rfx with rules := s.rfx.rules.updateKeys .reset ns (fun _ x => x.enable) } }, .ok []) :=
  if_neg (Bool.not_eq_true _ ▸ List.any_eq_false.mpr fun k h => by rw [owned k h]; decide)

theorem enableBody_of_orphan {ns : List Nat} (orphan : ∃ k ∈ ns, s.orphanRule k = true) :
    enableBody ns s = (s, .fail stat_rfxNoOwner) := if_pos (List.any_eq_true.mpr orphan)

theorem disableBody_eq (ns : List Nat) (s : State) : disableBody ns s =
    (evalRules { s with rfx := { s.rfx with rules := s.rfx.rules.updateKeys .reset ns (fun _ x => x.disable) } }, .ok []) := rfl

/-- The rule after a change of the span of one rule. -/
theorem State.rule_updateKeys_one (s : State) (n : Nat) (g : Nat → RuleRun → RuleRun) :
    ({ s with rfx := { s.rfx with rules := s.rfx.rules.updateKeys .reset (span n 1) g } } : State).rule n = g n (s.rule n) := by
  rw [span_one]
  exact Tbl.getD_set_same ..

theorem safeNFilterBody_of_quiet {tSnf : Nat} {sna : Bool} (quiet : sna = false ∨ s.rfx.sna = true ∨ s.rfx.safeN = false) :
    safeNFilterBody tSnf sna s = ({ s with rfx := { s.rfx with tSnf := tSnf, sna := sna } }, .ok []) := by
  have still : (sna && !s.rfx.sna && s.rfx.safeN && s.rfx.enabled) = false := by
    obtain off | was | high := quiet
    · simp [off]
    · simp [was]
    · simp [high]
  simp only [safeNFilterBody, still, Bool.false_eq_true, if_false]

theorem safeNFilterBody_of_low {tSnf : Nat} (was : s.rfx.sna = false) (low : s.rfx.safeN = true) (on_ : s.rfx.enabled = true) :
    safeNFilterBody tSnf true s = (selfArrest 1 [] { s with rfx := { s.rfx with tSnf := tSnf, sna := true } }, .ok []) := by
  simp only [safeNFilterBody, was, low, on_, Bool.not_false, Bool.and_self, if_true]

end

/-- Settles O12: each command leaves the engine as its table says and one cycle of the rules follows (`evalRules`), which is none while
the engine is disabled (`evalRules_of_disabled`). -/
theorem ruleCommandsAct : Obligations.RuleCommandsAct := by
  refine ⟨?load, ?loadIdle, ?loadRange, ?enable, ?enableIdle, ?enableOrphan, ?disable, ?disableIdle, ?get, ?stats, ?arrest, ?filter, ?filterLow⟩
  case load =>
    intro s r p rule f q system small work content owned
    refine answers_of_accepted q rfl (q.passes (decide_eq_true q.len) (Need.check_of_sysPriv system _) ?_ (decide_eq_true work))
      (loadRuleBody_of_owned owned) rfl rfl
    simp [small, content]
  case loadIdle =>
    intro s r p rule f q system small work idle content owned
    refine answers_of_accepted q rfl (q.passes (decide_eq_true q.len) (Need.check_of_sysPriv system _) ?_ (decide_eq_true work))
      (loadRuleBody_of_owned owned) rfl ?_
    · simp [small, content]
    · rw [evalRules_of_disabled (by exact idle), State.modRule_same]
      exact ⟨rfl, rfl, fun n other => State.modRule_other _ _ _ n other, State.modRule_frame ..⟩
  case loadRange =>
    intro s r p rule f q system large
    refine answers_of_rejected q rfl (q.refused (decide_eq_true q.len) (Need.check_of_sysPriv system _) ?_) rfl rfl
    simp [Nat.not_le.mpr large, orStat]
  case enable =>
    intro s r p first count q system one few fits runs owned
    exact answers_of_accepted q rfl (q.passes (decide_eq_true q.len) (rulesNeed_check_of_sysPriv system ..) (spanStat_of_range one few fits) runs)
      (enableBody_of_owned owned) rfl rfl
  case enableIdle =>
    intro s r p first q system small runs idle owned
    refine answers_of_accepted q rfl (q.passes (decide_eq_true q.len) (rulesNeed_check_of_sysPriv system ..)
      (spanStat_of_range (by decide) (by decide) (Nat.succ_le_succ small)) runs) (enableBody_of_owned (ns := span first.toNat 1) (by simpa [span_one])) rfl ?_
    rw [evalRules_of_disabled (by exact idle)]
    refine ⟨?_, ?_, ?_, Frame.set_rfx (Frame.refl ..) (by decide)⟩
    · rw [State.rule_updateKeys_one s]; rfl
    · rw [State.rule_updateKeys_one s]; rfl
    · rw [State.rule_updateKeys_one s]; rfl
  case enableOrphan =>
    intro s r p first count q system one few fits runs orphan
    exact answers_of_accepted q rfl (q.passes (decide_eq_true q.len) (rulesNeed_check_of_sysPriv system ..) (spanStat_of_range one few fits) runs)
      (enableBody_of_orphan orphan) rfl rfl
  case disable =>
    intro s r p first count q system one few fits runs
    exact answers_of_accepted q rfl (q.passes (decide_eq_true q.len) (rulesNeed_check_of_sysPriv system ..) (spanStat_of_range one few fits) runs)
      rfl rfl rfl
  case disableIdle =>
    intro s r p first q system small runs idle
    refine answers_of_accepted q rfl (q.passes (decide_eq_true q.len) (rulesNeed_check_of_sysPriv system ..)
      (spanStat_of_range (by decide) (by decide) (Nat.succ_le_succ small)) runs) (disableBody_eq (span first.toNat 1) s) rfl ?_
    rw [evalRules_of_disabled (by exact idle)]
    refine ⟨?_, ?_, ?_, Frame.set_rfx (Frame.refl ..) (by decide)⟩
    · rw [State.rule_updateKeys_one s]; rfl
    · rw [State.rule_updateKeys_one s]; rfl
    · rw [State.rule_updateKeys_one s]; rfl
  case get =>
    intro s r p rule q system small serving
    exact answers_of_accepted q rfl (q.passes (decide_eq_true q.len) (rulesNeed_check_of_sysPriv system ..)
      (needStat_eq_none.mpr (decide_eq_true small)) serving) rfl rfl rfl
  case stats =>
    intro s r p first q system small serving
    refine answers_of_accepted q rfl (q.passes (decide_eq_true q.len) (rulesNeed_check_of_sysPriv system ..)
      (spanStat_of_range (by decide) (by decide) (Nat.succ_le_succ small)) serving) ?_ rfl rfl
    show (s, Reply.ok (List.flatMap _ (span first.toNat 1))) = _
    rw [span_one, List.flatMap_singleton]
    rfl
  case arrest =>
    intro s r p reason q system serving
    exact answers_of_accepted q rfl (q.passes (decide_eq_true q.len) (Need.check_of_sysPriv system _) rfl serving) rfl rfl rfl
  case filter =>
    intro s r p tSnf flags q system small fits work quiet
    have flag := flagOf_zero_of_small small
    have quiet' : flagOf flags 0 = false ∨ s.rfx.sna = true ∨ s.rfx.safeN = false := quiet.imp_left fun zero => by rw [zero]; rfl
    refine answers_of_accepted q rfl (q.passes (decide_eq_true q.len) (Need.check_of_sysPriv system _) ?_ (decide_eq_true work))
      (safeNFilterBody_of_quiet quiet') rfl ⟨rfl, flag, Frame.set_rfx (Frame.refl ..) (by decide)⟩
    simp [small, fits]
  case filterLow =>
    intro s r p tSnf q system fits work was low on_
    refine answers_of_accepted q rfl (q.passes (decide_eq_true q.len) (Need.check_of_sysPriv system _) ?_ (decide_eq_true work))
      (safeNFilterBody_of_low was low on_) rfl rfl
    simp [fits]

end Sys2Proof.Machine
end

section
/-! PROOF. Rules for the channels of a die: what an output that ends, a hold and a merged command leave (R98 to R101, R117, R118, R131). -/

namespace Sys2Proof.Machine

/-! ### Folds -/

/-- What each step of a fold over its list leaves alone, the fold does. -/
theorem foldl_kept {σ α β : Type} (g : σ → β) {f : σ → α → σ} {l : List α} (kept : ∀ s, ∀ x ∈ l, g (f s x) = g s) (s : σ) :
    g (l.foldl f s) = g s := by
  induction l generalizing s with
  | nil => rfl
  | cons x r ih =>
    exact (ih (fun s y h => kept s y (List.mem_cons_of_mem x h)) (f s x)).trans (kept s x List.mem_cons_self)

/-- What each step of a fold establishes for its own entry and keeps for every other, the fold establishes for all. -/
theorem foldl_establishes {σ α : Type} (Q : σ → α → Prop) {f : σ → α → σ} (own : ∀ s a, Q (f s a) a)
    (keep : ∀ s a b, Q s b → Q (f s a) b) (l : List α) (s : σ) : ∀ a ∈ l, Q (l.foldl f s) a := by
  have stays : ∀ (l : List α) s b, Q s b → Q (l.foldl f s) b := fun l => by
    induction l with
    | nil => exact fun s b h => h
    | cons x r ih => exact fun s b h => ih (f s x) b (keep s x b h)
  induction l generalizing s with
  | nil => exact fun a h => absurd h List.not_mem_nil
  | cons x r ih =>
    intro a h
    obtain rfl | later := List.mem_cons.mp h
    · exact stays r (f s a) a (own s a)
    · exact ih (f s x) a later

/-! ### Channels and dies of a power-die state -/

section
variable (cs : ChanState) (i : Nat)

@[simp] theorem ChanState.modChan_same (f : Chan → Chan) : (cs.modChan i f).chans.getD .reset i = f (cs.chans.getD .reset i) :=
  Tbl.getD_modify_same ..

@[simp] theorem ChanState.modChan_dies (f : Chan → Chan) : (cs.modChan i f).dies = cs.dies := rfl

@[simp] theorem ChanState.modChan_bridges (f : Chan → Chan) : (cs.modChan i f).bridges = cs.bridges := rfl

theorem ChanState.modChan_other (f : Chan → Chan) {j : Nat} (other : j ≠ i) :
    (cs.modChan i f).chans.getD .reset j = cs.chans.getD .reset j := Tbl.getD_modify_other _ _ _ _ _ other

@[simp] theorem Chan.switch_out (c : Chan) (w : OutCmd) (src now : Nat) (watch : Bool) : (c.switch i w src now watch).out = w := rfl

/-- What the end of an output leaves: its channel off, every other channel, the dies and the other bridges as they were (R99 to R118). -/
theorem offIn_leaves (s : State) (src : Nat) : ((offIn s cs i src).chans.getD .reset i).out = .off ∧
    (∀ j, j ≠ i → (offIn s cs i src).chans.getD .reset j = cs.chans.getD .reset j) ∧ (offIn s cs i src).dies = cs.dies ∧
      ∀ b, b ≠ i / 14 → (offIn s cs i src).bridges.getD .reset b = cs.bridges.getD .reset b := by
  unfold offIn
  dsimp only
  split
  · refine ⟨?_, fun j other => ChanState.modChan_other cs i _ other, rfl, fun _ _ => rfl⟩
    show ((cs.modChan i _).chans.getD .reset i).out = .off
    rw [ChanState.modChan_same]
    rfl
  · split
    · refine ⟨?_, fun j other => ChanState.modChan_other cs i _ other, rfl, fun b other => Tbl.getD_modify_other _ _ _ _ _ other⟩
      show ((cs.modChan i _).chans.getD .reset i).out = .off
      rw [ChanState.modChan_same]
      rfl
    · exact ⟨by rw [ChanState.modChan_same]; rfl, fun j other => ChanState.modChan_other cs i _ other, rfl, fun _ _ => rfl⟩
  · exact ⟨by rw [ChanState.modChan_same]; rfl, fun j other => ChanState.modChan_other cs i _ other, rfl, fun _ _ => rfl⟩

theorem offIn_out (s : State) (src : Nat) : ((offIn s cs i src).chans.getD .reset i).out = .off := (offIn_leaves cs i s src).1

theorem offIn_other (s : State) (src : Nat) {j : Nat} (other : j ≠ i) :
    (offIn s cs i src).chans.getD .reset j = cs.chans.getD .reset j := (offIn_leaves cs i s src).2.1 j other

@[simp] theorem offIn_dies (s : State) (src : Nat) : (offIn s cs i src).dies = cs.dies := (offIn_leaves cs i s src).2.2.1

theorem offIn_bridge_other (s : State) (src : Nat) {b : Nat} (other : b ≠ i / 14) :
    (offIn s cs i src).bridges.getD .reset b = cs.bridges.getD .reset b := (offIn_leaves cs i s src).2.2.2 b other

@[simp] theorem enterHold_dies (s : State) : (enterHold s cs i).dies = cs.dies := by
  unfold enterHold
  dsimp only
  split
  · rfl
  · split
    · rfl
    · exact offIn_dies ..

@[simp] theorem gateHeld_dies (s : State) : (gateHeld s cs i).dies = cs.dies := by
  unfold gateHeld
  dsimp only
  split
  · rfl
  · split
    · split <;> rfl
    · split <;> rfl

@[simp] theorem applyOut_dies (s : State) : (applyOut s cs i).dies = cs.dies := by
  unfold applyOut
  dsimp only
  split <;> rfl

end

/-- The channels of group `g` are those whose index it names. -/
theorem mem_groupChans {g i : Nat} : i ∈ groupChans g ↔ i / 14 = g := by
  simp only [groupChans, List.mem_map, List.mem_range]
  constructor
  · rintro ⟨o, small, rfl⟩
    omega
  · rintro rfl
    exact ⟨i % 14, Nat.mod_lt _ (by decide), Nat.div_add_mod i 14⟩

theorem mem_groupChans_offset (g : Nat) (o : Fin 14) : 14 * g + o.val ∈ groupChans g := mem_groupChans.mpr (by omega)

/-- Every channel of a group whose outputs end is off. -/
theorem groupOff_out (s : State) (src : ChanState → Nat → Nat) (g : Nat) (cs : ChanState) : ∀ i ∈ groupChans g,
    (((groupChans g).foldl (fun cs i => offIn s cs i (src cs i)) cs).chans.getD .reset i).out = .off :=
  foldl_establishes (fun cs i => (cs.chans.getD Chan.reset i).out = .off) (fun cs i => offIn_out cs i s (src cs i))
    (fun cs i j h => by
      by_cases same : j = i
      · rw [same]
        exact offIn_out cs i s _
      · rw [offIn_other cs i s _ same]
        exact h) _ cs

theorem groupOff_other (s : State) (src : ChanState → Nat → Nat) (g : Nat) (cs : ChanState) {j : Nat} (other : j / 14 ≠ g) :
    ((groupChans g).foldl (fun cs i => offIn s cs i (src cs i)) cs).chans.getD .reset j = cs.chans.getD .reset j :=
  foldl_kept (fun cs : ChanState => cs.chans.getD Chan.reset j)
    (fun cs i h => offIn_other cs i s _ (fun same => other (same ▸ mem_groupChans.mp h))) cs

@[simp] theorem groupOff_dies (s : State) (src : ChanState → Nat → Nat) (g : Nat) (cs : ChanState) :
    ((groupChans g).foldl (fun cs i => offIn s cs i (src cs i)) cs).dies = cs.dies :=
  foldl_kept (fun cs : ChanState => cs.dies) (fun cs i _ => offIn_dies cs i s _) cs

theorem groupOff_bridge_other (s : State) (src : ChanState → Nat → Nat) (g : Nat) (cs : ChanState) {b : Nat} (other : b ≠ g) :
    ((groupChans g).foldl (fun cs i => offIn s cs i (src cs i)) cs).bridges.getD .reset b = cs.bridges.getD .reset b :=
  foldl_kept (fun cs : ChanState => cs.bridges.getD Bridge.reset b)
    (fun cs i h => offIn_bridge_other cs i s _ (fun same => other (same.trans (mem_groupChans.mp h)))) cs

/-- The merged commands of a frame leave the dies as they were but for the own-holder bit (R459). -/
theorem applyDie_dies (s : State) (cs : ChanState) (g : Nat) : (applyDie s cs g).dies =
    (cs.modDie g (fun d => d.takeBit s.twin.ownHolder (decide (s.twin.partner = some .release)))).dies := by
  unfold applyDie
  dsimp only
  refine foldl_kept (fun cs : ChanState => cs.dies) (fun cs o _ => ?_) _
  split
  · exact gateHeld_dies ..
  · exact applyOut_dies ..

@[simp] theorem State.modDie_chan (s : State) (g : Nat) (f : Die → Die) (j : Nat) : (s.modDie g f).chan j = s.chan j := rfl

@[simp] theorem ChanState.modDie_same (cs : ChanState) (g : Nat) (f : Die → Die) :
    (cs.modDie g f).dies.getD .reset g = f (cs.dies.getD .reset g) := Tbl.getD_modify_same ..

theorem ChanState.modDie_other (cs : ChanState) (g : Nat) (f : Die → Die) {h : Nat} (other : h ≠ g) :
    (cs.modDie g f).dies.getD .reset h = cs.dies.getD .reset h := Tbl.getD_modify_other _ _ _ _ _ other

@[simp] theorem ChanState.modBridge_same (cs : ChanState) (b : Nat) (f : Bridge → Bridge) :
    (cs.modBridge b f).bridges.getD .reset b = f (cs.bridges.getD .reset b) := Tbl.getD_modify_same ..

theorem ChanState.modBridge_other (cs : ChanState) (b : Nat) (f : Bridge → Bridge) {c : Nat} (other : c ≠ b) :
    (cs.modBridge b f).bridges.getD .reset c = cs.bridges.getD .reset c := Tbl.getD_modify_other _ _ _ _ _ other

theorem State.die_of_ch {s t : State} (same : t.ch = s.ch) (g : Nat) : t.die g = s.die g := by
  rw [State.die, same]
  rfl

/-- The end of a hold changes nothing of the channels, and of its die the hold alone (R118). -/
theorem endHold_leaves (g : Nat) (s : State) : (∀ j, (endHold g s).chan j = s.chan j) ∧
    ((endHold g s).die g).seenFrame = (s.die g).seenFrame ∧ ((endHold g s).die g).lastFrame = (s.die g).lastFrame := by
  have raised : ∀ (t : State), (∀ j, t.chan j = s.chan j) ∧ (t.die g).seenFrame = (s.die g).seenFrame ∧
      (t.die g).lastFrame = (s.die g).lastFrame → ∀ k n sc data, (∀ j, (raise k n sc data t).chan j = s.chan j) ∧
        ((raise k n sc data t).die g).seenFrame = (s.die g).seenFrame ∧ ((raise k n sc data t).die g).lastFrame = (s.die g).lastFrame := by
    intro t ⟨chans, die⟩ k n sc data
    rw [State.die_of_ch (raise_ch ..)]
    exact ⟨fun j => (raise_chan ..).trans (chans j), die⟩
  have ended : (∀ j, (s.modDie g (fun d => { d with inHold := false, silenceUs := 0, holdTrips := 0 })).chan j = s.chan j) ∧
      ((s.modDie g (fun d => { d with inHold := false, silenceUs := 0, holdTrips := 0 })).die g).seenFrame = (s.die g).seenFrame ∧
      ((s.modDie g (fun d => { d with inHold := false, silenceUs := 0, holdTrips := 0 })).die g).lastFrame = (s.die g).lastFrame := by
    rw [State.modDie_same]
    exact ⟨fun _ => rfl, rfl, rfl⟩
  unfold endHold
  dsimp only
  split
  · split
    · exact raised _ ended ..
    · exact ended
  · exact ⟨fun _ => rfl, rfl, rfl⟩

theorem compEnds_dies (g : Nat) (s : State) : (compEnds g s).ch.dies = s.ch.dies := by
  unfold compEnds
  refine foldl_kept (fun s : State => s.ch.dies) (fun s k _ => ?_) _
  split
  · rw [raiseCh_ch]
    rfl
  · rfl

/-- A module that keeps its rope-team role does so at a fault (Table 16.5). -/
theorem twinFault_of_keeps {s : State} (keeps : s.keepsRole = true) : twinFault s = s := by
  unfold twinFault twinRelease
  split
  next faulty =>
    refine if_neg fun releases => ?_
    have rel := (Bool.and_eq_true_iff.mp faulty).1
    simp only [Bool.and_eq_true, decide_eq_true_eq] at releases
    simp [State.keepsRole, rel, releases.1, releases.2] at keeps
  next => rfl

end Sys2Proof.Machine
end

section
/-! PROOF. Link, hold, supply and ground of a power die (R94, R98, R117, R118, R128, R140). -/

namespace Sys2Proof.Machine

/-! ### Frames and silence -/

theorem evalRules_of_down {s : State} (down : s.mgrUp = false) : evalRules s = s :=
  if_neg (by rw [down, Bool.and_false]; decide)

/-- After the merged commands of a frame its die has the frame that it heard (R118). -/
theorem die_of_merged (g : Nat) (t : State) :
    ((compEnds g (endHold g { t with ch := applyDie t t.ch g })).die g).seenFrame = (t.die g).seenFrame ∧
      ((compEnds g (endHold g { t with ch := applyDie t t.ch g })).die g).lastFrame = (t.die g).lastFrame := by
  obtain ⟨_, seen, last⟩ := endHold_leaves g { t with ch := applyDie t t.ch g }
  have merged : ({ t with ch := applyDie t t.ch g } : State).die g =
      (t.die g).takeBit t.twin.ownHolder (decide (t.twin.partner = some .release)) := by
    rw [State.die, applyDie_dies, ChanState.modDie_same]
    rfl
  rw [merged] at seen last
  rw [State.die, compEnds_dies]
  exact ⟨seen, last⟩

theorem dieFrame_of_up {g : Nat} {s : State} (up : s.mgrUp = true) : ∃ t : State, dieFrame g s =
    compEnds g (endHold g { t with ch := applyDie t t.ch g }) ∧ (t.die g).seenFrame = true ∧ (t.die g).lastFrame = (keepToHold s g).now := by
  unfold dieFrame
  rw [up, Bool.not_true, if_neg Bool.false_ne_true]
  refine ⟨_, rfl, ?_⟩
  rw [State.die, ChanState.modDie_same]
  exact ⟨rfl, rfl⟩

/-- A frame is heard by its die (R118). -/
theorem dieFrame_hears {g : Nat} {s : State} (up : s.mgrUp = true) :
    ((dieFrame g s).die g).seenFrame = true ∧ ((dieFrame g s).die g).lastFrame = s.now := by
  have now : (keepToHold s g).now = s.now := congrArg (fun t : TimeState => t.count.toNat) ((keepToHold_frame s g).same .tb (by decide))
  obtain ⟨t, frame, seen, last⟩ := dieFrame_of_up (g := g) up
  obtain ⟨sameSeen, sameLast⟩ := die_of_merged g t
  rw [frame]
  exact ⟨sameSeen.trans seen, (sameLast.trans last).trans now⟩

theorem dieFrame_of_down {g : Nat} {s : State} (down : s.mgrUp = false) : dieFrame g s = s := by
  simp only [dieFrame, down, Bool.not_false, if_true]

theorem addClamp_keeps_mgrUp (die : Nat) (clamp : List (Fin 14 × Nat)) (s : State) :
    (clamp.foldl (fun s c => addClamp (14 * die + c.1.val) c.2 s) s).mgrUp = s.mgrUp :=
  foldl_keeps (fun s => s.mgrUp) (fun s c => by
    rw [State.mgrUp, (addClamp_frame ..).same .sys (by decide)]
    rfl) clamp s

theorem addClamp_keeps_now (die : Nat) (clamp : List (Fin 14 × Nat)) (s : State) :
    (clamp.foldl (fun s c => addClamp (14 * die + c.1.val) c.2 s) s).now = s.now :=
  foldl_keeps (fun s => s.now) (fun s c => by
    rw [State.now, (addClamp_frame ..).same .tb (by decide)]
    rfl) clamp s

theorem linkSilence_of_heard {g : Nat} {s : State} (seen : (s.die g).seenFrame = true) (live : (s.die g).silent = false) :
    ((linkSilence g s).die g).inHold = true ∧ ((linkSilence g s).die g).silenceUs = 0 ∧
      ((linkSilence g s).die g).silenceFrom = (s.die g).lastFrame ∧ Frame [.ch] s (linkSilence g s) := by
  have framed := linkSilence_frame g s
  unfold linkSilence at framed ⊢
  dsimp only at framed ⊢
  rw [seen, live, Bool.not_true, Bool.or_self, if_neg Bool.false_ne_true] at framed ⊢
  have dies : ∀ cs : ChanState, ((groupChans g).foldl (fun cs i =>
      if (s.die g).keeping && (cs.chans.getD .reset i).keep.isSome then cs else enterHold s cs i) cs).dies = cs.dies :=
    foldl_kept (fun cs : ChanState => cs.dies) (fun cs i _ => by
      split
      · rfl
      · exact enterHold_dies ..)
  rw [State.die, dies, ChanState.modDie, Tbl.getD_modify_same]
  exact ⟨rfl, rfl, rfl, framed⟩

theorem linkSilence_of_unheard {g : Nat} {s : State} (unheard : (s.die g).seenFrame = false ∨ (s.die g).silent = true) :
    linkSilence g s = s := by
  obtain unseen | silent := unheard
  · simp [linkSilence, unseen]
  · simp [linkSilence, silent]

theorem holdTimeout_of_holding {i : Nat} {s : State} (holds : (s.chan i).hold = .holding) :
    ((holdTimeout i s).chan i).hold = .expired ∧ ((holdTimeout i s).chan i).out = .off ∧
      (∀ j, j ≠ i → (holdTimeout i s).chan j = s.chan j) ∧ Frame [.ch, .mbx, .log, .vz] s (holdTimeout i s) := by
  have framed : Frame [.ch, .mbx, .log, .vz] s (holdTimeout i s) := (holdTimeout_frame i s).mono (by decide)
  unfold holdTimeout at framed ⊢
  rw [if_pos holds] at framed ⊢
  obtain ⟨chans, _, _⟩ := endHold_leaves (i / 14) ((chanOff i 3 s).modChan i (fun c => { c with hold := .expired }))
  refine ⟨?_, ?_, fun j other => ?_, framed⟩
  · rw [chans, State.modChan_same]
  · rw [chans, State.modChan_same]
    exact offIn_out s.ch i s 3
  · rw [chans, State.modChan_other _ _ _ j other]
    exact offIn_other s.ch i s 3 other

theorem holdTimeout_of_free {i : Nat} {s : State} (free : (s.chan i).hold ≠ .holding) : holdTimeout i s = s := if_neg free

/-! ### Supply and ground -/

/-- What the loss of a supply does to its die (R94). -/
def dieSupplyLoss (g : Nat) (reversed : Bool) (s : State) : State :=
  let cs := (groupChans g).foldl (fun cs i => offIn s cs i (cs.chans.getD .reset i).src) s.ch
  { s with ch := cs.modDie g (fun d => { d with supply := if reversed then .reversed else .lost }) }

/-- A lost supply turns the channels of its group off (R94). -/
theorem supplyLoss_leaves {g : Nat} (reversed : Bool) {s : State} (keeps : s.keepsRole = true) :
    ((supplyLoss g reversed s).die g).supply = (if reversed then .reversed else .lost) ∧
      (∀ o : Fin 14, ((supplyLoss g reversed s).chan (14 * g + o.val)).out = .off) ∧ Frame [.ch] s (supplyLoss g reversed s) := by
  have loses : supplyLoss g reversed s = dieSupplyLoss g reversed s := twinFault_of_keeps (s := dieSupplyLoss g reversed s) keeps
  rw [loses]
  refine ⟨?_, fun o => ?_, Frame.set_ch (Frame.refl ..) (by decide)⟩
  · unfold dieSupplyLoss
    rw [State.die, ChanState.modDie_same]
  · exact groupOff_out s (fun cs i => (cs.chans.getD .reset i).src) g s.ch _ (mem_groupChans_offset g o)

/-- Every channel of a group that powers up starts with its guard reset and off (R140). -/
theorem powerUp_leaves (g now : Nat) (cs : ChanState) : ∀ i ∈ groupChans g,
    (((groupChans g).foldl (fun cs i => cs.modChan i (fun c => c.powerUp now)) cs).chans.getD .reset i).grd = { Guard.reset with ledgerAt := now } ∧
      (((groupChans g).foldl (fun cs i => cs.modChan i (fun c => c.powerUp now)) cs).chans.getD .reset i).out = .off :=
  foldl_establishes (fun (cs : ChanState) i => (cs.chans.getD Chan.reset i).grd = { Guard.reset with ledgerAt := now } ∧
      (cs.chans.getD Chan.reset i).out = .off)
    (fun cs i => by
      rw [ChanState.modChan_same]
      exact ⟨rfl, rfl⟩)
    (fun cs i j h => by
      by_cases same : j = i
      · rw [same, ChanState.modChan_same]
        exact ⟨rfl, rfl⟩
      · rw [ChanState.modChan_other cs i _ same]
        exact h) _ cs

theorem losePos_of_unknown {b : Nat} {s : State} (unknown : (s.bridge b).posValid = false) : losePos b s = s :=
  if_neg (by rw [unknown]; decide)

/-- The state in which the die of group `g` has powered up, before its bridge loses its position (R94, R140). -/
def poweredUp (g : Nat) (s : State) : State :=
  let s := s.modDie g (fun d => { d with supply := .present, groundLost := false })
  let cs := (groupChans g).foldl (fun cs i => cs.modChan i (fun c => c.powerUp s.now)) s.ch
  { s with ch := cs.modDie g (fun d =>
    { d with seenFrame := false, inHold := false, silenceUs := 0, holdTrips := 0, keeping := false, ownHolder := false, gateDelay := false }) }

theorem poweredUp_frame (g : Nat) (s : State) : Frame [.ch] s (poweredUp g s) := Frame.set_ch (State.modDie_frame ..) (by decide)

theorem powerUp_dies (g now : Nat) (cs : ChanState) :
    ((groupChans g).foldl (fun cs i => cs.modChan i (fun c => c.powerUp now)) cs).dies = cs.dies :=
  foldl_kept (fun cs : ChanState => cs.dies) (fun cs i _ => ChanState.modChan_dies cs i _) cs

theorem powerUp_bridges (g now : Nat) (cs : ChanState) :
    ((groupChans g).foldl (fun cs i => cs.modChan i (fun c => c.powerUp now)) cs).bridges = cs.bridges :=
  foldl_kept (fun cs : ChanState => cs.bridges) (fun cs i _ => ChanState.modChan_bridges cs i _) cs

theorem poweredUp_bridges (g : Nat) (s : State) : (poweredUp g s).ch.bridges = s.ch.bridges := by
  unfold poweredUp
  dsimp only
  rw [ChanState.modDie, powerUp_bridges]
  rfl

theorem poweredUp_die (g : Nat) (s : State) : ((poweredUp g s).die g).supply = .present ∧ ((poweredUp g s).die g).seenFrame = false := by
  unfold poweredUp State.die
  dsimp only
  rw [ChanState.modDie_same, powerUp_dies, State.modDie, ChanState.modDie_same]
  exact ⟨rfl, rfl⟩

theorem poweredUp_chan (g : Nat) (s : State) (i : Nat) (at_ : i ∈ groupChans g) :
    ((poweredUp g s).chan i).grd = { Guard.reset with ledgerAt := s.now } ∧ ((poweredUp g s).chan i).out = .off :=
  powerUp_leaves g s.now (s.modDie g (fun d => { d with supply := .present, groundLost := false })).ch i at_

theorem supplyReturn_of_powerUp {g : Nat} {s : State} (unknown : (s.bridge g).posValid = false) :
    supplyReturn g true s = (poweredUp g s).modBridge g (fun _ => .reset) := by
  have unknown' : ((poweredUp g s).bridge g).posValid = false := by
    rw [State.bridge, poweredUp_bridges]
    exact unknown
  exact congrArg (fun t : State => t.modBridge g (fun _ => .reset)) (losePos_of_unknown unknown')

theorem supplyReturn_of_deaf {g : Nat} {s : State}
    (deaf : (s.modDie g (fun d => { d with supply := .present, groundLost := false })).dieHears g = false)
    (rests : (s.die g).keeping = false) :
    supplyReturn g false s = s.modDie g (fun d => { d with supply := .present, groundLost := false }) := by
  have rests' : ((s.modDie g (fun d => { d with supply := .present, groundLost := false })).die g).keeping = false := by
    rw [State.modDie_same]
    exact rests
  simp only [supplyReturn, deaf, rests', Bool.false_eq_true, if_false]

/-- What the loss of the module ground does to one die (R128). -/
def dieGroundLoss (s : State) (g : Nat) : State :=
  let cs := (groupChans g).foldl (fun cs i => offIn s cs i (cs.chans.getD .reset i).src) s.ch
  let cs := cs.modBridge g (fun b => b.take (.drive 4 0 0) (s.chan (brChan g)).prof.hb.rippleEn s.now)
  { s with ch := cs.modDie g (fun d => { d with groundLost := true }) }

/-- A die without the module ground: it knows, its bridge coasts and its channels are off. -/
def GroundLost (s : State) (g : Nat) : Prop :=
  ((s.die g).groundLost = true ∧ (s.bridge g).drive = 4) ∧ ∀ i ∈ groupChans g, (s.chan i).out = .off

theorem Bridge.take_coast (b : Bridge) (rippleEn : Bool) (now : Nat) : (b.take (.drive 4 0 0) rippleEn now).drive = 4 := by
  show (b.ends 4 now rippleEn).drive = 4
  unfold Bridge.ends Bridge.goes
  split
  next same => exact same
  next => rfl

theorem dieGroundLoss_own (s : State) (g : Nat) : GroundLost (dieGroundLoss s g) g := by
  refine ⟨⟨?_, ?_⟩, groupOff_out s (fun cs i => (cs.chans.getD .reset i).src) g s.ch⟩
  · unfold dieGroundLoss State.die
    rw [ChanState.modDie_same]
  · show Bridge.drive (Tbl.getD (ChanState.modBridge _ g _).bridges .reset g) = 4
    rw [ChanState.modBridge_same]
    exact Bridge.take_coast ..

theorem dieGroundLoss_keeps (s : State) (g h : Nat) (lost : GroundLost s h) : GroundLost (dieGroundLoss s g) h := by
  by_cases same : h = g
  · rw [same]
    exact dieGroundLoss_own s g
  · obtain ⟨⟨die, drive⟩, outs⟩ := lost
    refine ⟨⟨?_, ?_⟩, fun i at_ => ?_⟩
    · unfold dieGroundLoss State.die
      rw [ChanState.modDie_other _ _ _ same, ChanState.modBridge, groupOff_dies]
      exact die
    · show Bridge.drive (Tbl.getD (ChanState.modBridge _ g _).bridges .reset h) = 4
      rw [ChanState.modBridge_other _ _ _ same, groupOff_bridge_other s _ g s.ch same]
      exact drive
    · have other : i / 14 ≠ g := by
        rw [mem_groupChans.mp at_]
        exact same
      exact (congrArg Chan.out (groupOff_other s (fun cs i => (cs.chans.getD .reset i).src) g s.ch other)).trans (outs i at_)

theorem groundLoss_leaves (s : State) : ∀ g ∈ allDies, GroundLost (groundLoss s) g :=
  foldl_establishes GroundLost (f := dieGroundLoss) dieGroundLoss_own dieGroundLoss_keeps allDies s

/-- Settles O13: each event is read off the channel and the die that it changes. -/
theorem linkHoldAndSupplyActOnTheDie : Obligations.LinkHoldAndSupplyActOnTheDie := by
  refine ⟨?frame, ?down, ?silence, ?unheard, ?timeout, ?free, ?reversed, ?lost, ?powerUp, ?returns, ?ground⟩
  case frame =>
    intro die clamp s up
    refine ⟨_, rfl, _, rfl, ?_⟩
    rw [← addClamp_keeps_now die.val clamp s]
    exact dieFrame_hears ((addClamp_keeps_mgrUp die.val clamp s).trans up)
  case down => exact fun die s down => congrArg Host.Outcome.next (by rw [List.foldl_nil, dieFrame_of_down down, evalRules_of_down down])
  case silence => exact fun die s seen live => ⟨_, rfl, linkSilence_of_heard seen live⟩
  case unheard => exact fun die s unheard => congrArg Host.Outcome.next (linkSilence_of_unheard unheard)
  case timeout => exact fun ch s holds => ⟨_, rfl, holdTimeout_of_holding holds⟩
  case free => exact fun ch s free => congrArg Host.Outcome.next (holdTimeout_of_free free)
  case reversed => exact fun g s keeps => ⟨_, rfl, supplyLoss_leaves true keeps⟩
  case lost => exact fun g s keeps => ⟨_, rfl, supplyLoss_leaves false keeps⟩
  case powerUp =>
    intro g s unknown
    obtain ⟨supply, seen⟩ := poweredUp_die g.val s
    exact ⟨_, congrArg Host.Outcome.next (supplyReturn_of_powerUp unknown), supply, seen, State.modBridge_same .., fun o =>
      poweredUp_chan g.val s _ (mem_groupChans_offset g.val o),
      Frame.via (State.modBridge_frame ..) (by decide) (poweredUp_frame ..)⟩
  case returns =>
    intro g s deaf rests
    refine ⟨_, congrArg Host.Outcome.next (supplyReturn_of_deaf deaf rests), ?_, ?_, fun _ => rfl, State.modDie_frame ..⟩
    · rw [State.modDie_same]
    · rw [State.modDie_same]
  case ground =>
    intro s
    refine ⟨_, rfl, fun g => ?_, fun i => ?_, groundLoss_frame s⟩
    · obtain ⟨die, _⟩ := groundLoss_leaves s g.val (List.mem_range.mpr g.isLt)
      exact die
    · obtain ⟨_, outs⟩ := groundLoss_leaves s (i.val / 14) (List.mem_range.mpr (by omega))
      exact outs i.val (mem_groupChans.mpr rfl)

end Sys2Proof.Machine
end

section
/-! PROOF. The protection ladder of a channel: rules for its guard, and what a trip leaves (R99 to R104, R113, R116, R132, R459). -/

namespace Sys2Proof.Machine

/-! ### The guard of a channel under a merged command -/

/-- What a change of an output keeps of a channel's guard: the latch and the locks, the retries, the junction, the ledger, and a wait
that has ended (R98, R103). -/
structure GuardKept (g h : Guard) : Prop where
  latched : h.latched = g.latched
  retries : h.retries = g.retries
  junctionOk : h.junctionOk = g.junctionOk
  ledgerUj : h.ledgerUj = g.ledgerUj
  ledgerAt : h.ledgerAt = g.ledgerAt
  lockLedger : h.lockLedger = g.lockLedger
  clampOver : h.clampOver = g.clampOver
  waiting : g.waiting = false → h.waiting = false

theorem GuardKept.refl (g : Guard) : GuardKept g g := ⟨rfl, rfl, rfl, rfl, rfl, rfl, rfl, id⟩

theorem GuardKept.trans {g h k : Guard} (a : GuardKept g h) (b : GuardKept h k) : GuardKept g k :=
  ⟨b.latched.trans a.latched, b.retries.trans a.retries, b.junctionOk.trans a.junctionOk, b.ledgerUj.trans a.ledgerUj,
    b.ledgerAt.trans a.ledgerAt, b.lockLedger.trans a.lockLedger, b.clampOver.trans a.clampOver, fun w => b.waiting (a.waiting w)⟩

theorem Guard.limit_kept (g : Guard) (now : Nat) (b : Bool) : GuardKept g (g.limit now b) := by
  unfold Guard.limit
  split
  · exact .refl g
  · exact ⟨rfl, rfl, rfl, rfl, rfl, rfl, rfl, id⟩

@[simp] theorem Guard.limit_limiting (g : Guard) (now : Nat) (b : Bool) : (g.limit now b).limiting = b := by
  unfold Guard.limit
  split
  next same => exact same.symm
  next => rfl

theorem Chan.switch_kept (c : Chan) (i : Nat) (w : OutCmd) (src now : Nat) (watch : Bool) :
    GuardKept c.grd (c.switch i w src now watch).grd := by
  have k : GuardKept c.grd (if w.runs then c.grd else c.grd.limit now false) := by
    split
    · exact .refl _
    · exact c.grd.limit_kept ..
  exact ⟨k.latched, k.retries, k.junctionOk, k.ledgerUj, k.ledgerAt, k.lockLedger, k.clampOver, k.waiting⟩

theorem Chan.switch_prof (c : Chan) (i : Nat) (w : OutCmd) (src now : Nat) (watch : Bool) :
    (c.switch i w src now watch).prof = c.prof := rfl

/-- What a merged command keeps of a channel: its guard as far as `GuardKept`, its shed, its orphan state, its commands, its test,
its shed priority and its acknowledgement (R98). -/
structure Chan.Kept (c d : Chan) : Prop where
  guard : GuardKept c.grd d.grd
  shed : d.shed = c.shed
  hoShed : d.hoShed = c.hoShed
  shedFlag : d.flags.shed = c.flags.shed
  orphan : d.orphan = c.orphan
  sw : d.sw = c.sw
  rfx : d.rfx = c.rfx
  test : d.test = c.test
  shedPrio : d.prof.shed = c.prof.shed
  ackGen : d.ackGen = c.ackGen

theorem Chan.Kept.refl (c : Chan) : c.Kept c := ⟨.refl _, rfl, rfl, rfl, rfl, rfl, rfl, rfl, rfl, rfl⟩

theorem Chan.Kept.trans {c d e : Chan} (h : c.Kept d) (k : d.Kept e) : c.Kept e :=
  ⟨h.guard.trans k.guard, k.shed.trans h.shed, k.hoShed.trans h.hoShed, k.shedFlag.trans h.shedFlag, k.orphan.trans h.orphan,
    k.sw.trans h.sw, k.rfx.trans h.rfx, k.test.trans h.test,
    k.shedPrio.trans h.shedPrio, k.ackGen.trans h.ackGen⟩

/-- A change of a channel that touches none of these fields. -/
theorem Chan.Kept.of_guard {c d : Chan} (guard : GuardKept c.grd d.grd) (shed : d.shed = c.shed := by rfl) (hoShed : d.hoShed = c.hoShed := by rfl)
    (shedFlag : d.flags.shed = c.flags.shed := by rfl) (orphan : d.orphan = c.orphan := by rfl) (sw : d.sw = c.sw := by rfl)
    (rfx : d.rfx = c.rfx := by rfl) (test : d.test = c.test := by rfl)
    (shedPrio : d.prof.shed = c.prof.shed := by rfl) (ackGen : d.ackGen = c.ackGen := by rfl) : c.Kept d :=
  ⟨guard, shed, hoShed, shedFlag, orphan, sw, rfx, test, shedPrio, ackGen⟩

theorem Chan.switch_keeps (c : Chan) (i : Nat) (w : OutCmd) (src now : Nat) (watch : Bool) : c.Kept (c.switch i w src now watch) :=
  .of_guard (c.switch_kept ..)

/-- From `cs` to `ds` channel `j` keeps what a merged command keeps. -/
def ChanState.KeptAt (j : Nat) (cs ds : ChanState) : Prop := (cs.chans.getD .reset j).Kept (ds.chans.getD .reset j)

theorem ChanState.KeptAt.refl (j : Nat) (cs : ChanState) : cs.KeptAt j cs := Chan.Kept.refl _

theorem ChanState.KeptAt.trans {j : Nat} {a b c : ChanState} (h : a.KeptAt j b) (k : b.KeptAt j c) : a.KeptAt j c :=
  Chan.Kept.trans h k

theorem ChanState.modChan_keptAt (cs : ChanState) (i j : Nat) (f : Chan → Chan) (kept : ∀ c : Chan, c.Kept (f c)) :
    cs.KeptAt j (cs.modChan i f) := by
  by_cases same : j = i
  · subst same
    unfold ChanState.KeptAt
    rw [ChanState.modChan_same]
    exact kept _
  · unfold ChanState.KeptAt
    rw [ChanState.modChan_other cs i f same]
    exact .refl _

theorem putBridge_keptAt (i j : Nat) (m want : OutCmd × Nat) (ground : Bool) (now : Nat) (cs : ChanState) :
    cs.KeptAt j (putBridge i m want ground now cs) :=
  cs.modChan_keptAt i j _ (fun c => c.switch_keeps ..)

theorem putValve_keptAt (i j : Nat) (w : OutCmd) (src now : Nat) (cs : ChanState) : cs.KeptAt j (putValve i w src now cs) :=
  cs.modChan_keptAt i j _ (fun c => .of_guard (c.switch_kept i w src now false))

theorem putBridge_other (i : Nat) (m want : OutCmd × Nat) (ground : Bool) (now : Nat) (cs : ChanState) {j : Nat} (other : j ≠ i) :
    (putBridge i m want ground now cs).chans.getD .reset j = cs.chans.getD .reset j := cs.modChan_other i _ other

theorem putValve_other (i : Nat) (w : OutCmd) (src now : Nat) (cs : ChanState) {j : Nat} (other : j ≠ i) :
    (putValve i w src now cs).chans.getD .reset j = cs.chans.getD .reset j := cs.modChan_other i _ other

theorem applyOut_keptAt (s : State) (cs : ChanState) (i j : Nat) : cs.KeptAt j (applyOut s cs i) := by
  unfold applyOut
  dsimp only
  refine ChanState.KeptAt.trans (b := ?marked) ?mark ?put
  case put =>
    split
    · exact putBridge_keptAt ..
    · exact putValve_keptAt ..
    · exact ChanState.modChan_keptAt _ i j _ (fun c => c.switch_keeps ..)
  case mark =>
    refine cs.modChan_keptAt i j _ fun c => .of_guard ⟨rfl, rfl, rfl, rfl, rfl, rfl, rfl, fun w => ?_⟩
    dsimp only
    rw [w, Bool.false_and]

theorem applyOut_other (s : State) (cs : ChanState) (i : Nat) {j : Nat} (other : j ≠ i) :
    (applyOut s cs i).chans.getD .reset j = cs.chans.getD .reset j := by
  unfold applyOut
  dsimp only
  split
  · rw [putBridge_other _ _ _ _ _ _ other, ChanState.modChan_other _ _ _ other]
  · rw [putValve_other _ _ _ _ _ other, ChanState.modChan_other _ _ _ other]
  · rw [ChanState.modChan_other _ _ _ other, ChanState.modChan_other _ _ _ other]

theorem keepOn_keptAt (s : State) (cs : ChanState) (i j : Nat) (o : OutCmd) : cs.KeptAt j (cs.keepOn s i o) :=
  cs.modChan_keptAt i j _ (fun c => c.switch_keeps ..)

theorem gateHeld_keptAt (s : State) (cs : ChanState) (i j : Nat) : cs.KeptAt j (gateHeld s cs i) := by
  unfold gateHeld
  dsimp only
  split
  · exact .refl ..
  · split
    · split
      · exact .refl ..
      · exact cs.modChan_keptAt i j _ (fun c => .of_guard (c.switch_kept i .off 5 s.now (s.watches i c)))
    · split
      · exact ChanState.KeptAt.trans (cs.modChan_keptAt i j (fun c => { c with gated := none }) fun _ => .of_guard (.refl _)) (keepOn_keptAt ..)
      · exact .refl ..

theorem foldl_keptAt {α : Type} {f : ChanState → α → ChanState} (j : Nat) (kept : ∀ (cs : ChanState) x, cs.KeptAt j (f cs x)) (l : List α)
    (cs : ChanState) : cs.KeptAt j (l.foldl f cs) := by
  induction l generalizing cs with
  | nil => exact .refl ..
  | cons x r ih => exact (kept cs x).trans (ih (f cs x))

theorem applyDie_keptAt (s : State) (cs : ChanState) (g j : Nat) : cs.KeptAt j (applyDie s cs g) := by
  unfold applyDie
  dsimp only
  refine ChanState.KeptAt.trans (b := cs.modDie g _) (Chan.Kept.refl _) (foldl_keptAt j (fun cs o => ?_) _ _)
  split
  · exact gateHeld_keptAt ..
  · exact ChanState.KeptAt.trans (cs.modChan_keptAt _ j (fun c => { c with hold := .none }) fun _ => .of_guard (.refl _)) (applyOut_keptAt ..)

/-- Urgent frames keep every latch and every command (R209). -/
theorem urgent_keeps (s : State) (j : Nat) : (s.chan j).Kept ((urgent s).chan j) :=
  foldl_keptAt j (fun cs g => by
    split
    · exact applyDie_keptAt ..
    · exact .refl ..) _ s.ch

theorem urgentDie_keeps (g : Nat) (s : State) (j : Nat) : (s.chan j).Kept ((urgentDie g s).chan j) := by
  unfold urgentDie
  split
  · exact applyDie_keptAt s s.ch g j
  · exact .refl _

/-! ### A change of one guard -/

/-- The state after a change of one channel's guard. -/
def State.modGuard (s : State) (i : Nat) (k : Guard → Guard) : State := s.modChan i (fun c => { c with grd := k c.grd })

section
variable (s : State) (i : Nat) (k : Guard → Guard)

@[simp] theorem State.modGuard_same : (s.modGuard i k).chan i = { s.chan i with grd := k (s.chan i).grd } := State.modChan_same ..

theorem State.modGuard_other {j : Nat} (other : j ≠ i) : (s.modGuard i k).chan j = s.chan j := State.modChan_other _ _ _ j other

theorem State.modGuard_frame : Frame [.ch] s (s.modGuard i k) := State.modChan_frame ..

/-- The merged command of a channel does not read its guard (R98). -/
theorem State.modGuard_merged : (s.modGuard i k).merged i ((s.modGuard i k).chan i) = s.merged i (s.chan i) := by
  have arrest : (s.modGuard i k).arrestOut i = s.arrestOut i := by
    unfold State.arrestOut
    rw [State.modGuard_same]
    rfl
  unfold State.merged
  rw [arrest, State.modGuard_same]
  rfl

theorem State.modGuard_conducts : (s.modGuard i k).conducts i = s.conducts i := by
  have prof : ((s.modGuard i k).chan (bridgeIdx i)).prof = (s.chan (bridgeIdx i)).prof := by
    by_cases same : bridgeIdx i = i
    · rw [same, State.modGuard_same]
    · rw [State.modGuard_other _ _ _ same]
  unfold State.conducts
  rw [prof, State.modGuard_same]
  rfl

theorem State.modGuard_canTrip (blocks : ∀ g, (k g).blocks = g.blocks) : (s.modGuard i k).canTrip i = s.canTrip i := by
  have guard : ((s.modGuard i k).chan (bridgeIdx i)).grd.blocks = (s.chan (bridgeIdx i)).grd.blocks := by
    by_cases same : bridgeIdx i = i
    · rw [same, State.modGuard_same]
      exact blocks _
    · rw [State.modGuard_other _ _ _ same]
  unfold State.canTrip
  rw [State.modGuard_conducts, guard]
  rfl

end

/-! ### A trip -/

theorem bridgeIdx_idem (i : Nat) : bridgeIdx (bridgeIdx i) = bridgeIdx i := by
  have first : bridgeIdx i % 14 ≠ 11 := by
    unfold bridgeIdx
    split <;> omega
  exact if_neg first

/-- The channel that a trip leaves (R99, R103). -/
def trippedChan (s : State) (i cause : Nat) : Chan :=
  ((s.chan i).switch i .off 6 s.now (s.watches i (s.chan i))).tripped (s.chInHold i) (decide (s.sys.mode = .bivouac)) cause

theorem tripDie_leaves (i cause : Nat) (s : State) : (tripDie i cause s).chan (bridgeIdx i) = trippedChan s (bridgeIdx i) cause ∧
    ∀ j, j ≠ bridgeIdx i → (tripDie i cause s).chan j = s.chan j := by
  unfold tripDie
  dsimp only
  split
  · rw [State.modDie_chan]
    split
    · exact ⟨State.modChan_same .., fun j other => State.modChan_other _ _ _ j other⟩
    · exact ⟨State.modChan_same .., fun j other => State.modChan_other _ _ _ j other⟩
    · exact ⟨State.modChan_same .., fun j other => State.modChan_other _ _ _ j other⟩
  · split
    · exact ⟨State.modChan_same .., fun j other => State.modChan_other _ _ _ j other⟩
    · exact ⟨State.modChan_same .., fun j other => State.modChan_other _ _ _ j other⟩
    · exact ⟨State.modChan_same .., fun j other => State.modChan_other _ _ _ j other⟩

/-- A trip with its events, before a HOLDER releases its role for it. -/
def tripNoted (i cause : Nat) (s : State) : State :=
  let i := bridgeIdx i
  let latch := (s.chan i).tripLatches (s.chInHold i) (decide (s.sys.mode = .bivouac)) cause
  let t := tripDie i cause s
  let t := raiseCh evt_chTrip i [byteOf cause] t
  let t := if cause = 5 then raiseCh evt_arc i [] t else t
  let t := if latch then raiseCh evt_chLatched i [] t else t
  prsTrigger i (t.raiseSrc (s.chOwner i) 41)

theorem trip_eq (i cause : Nat) (s : State) : trip i cause s = twinFault (tripNoted i cause s) := rfl

/-- Events keep the channels. -/
theorem tripNoted_ch (i cause : Nat) (s : State) : (tripNoted i cause s).ch = (tripDie (bridgeIdx i) cause s).ch := by
  unfold tripNoted
  dsimp only
  rw [(prsTrigger_frame ..).same .ch (by decide), (State.raiseSrc_frame ..).same .ch (by decide)]
  split
  · rw [raiseCh_ch]
    split
    · rw [raiseCh_ch, raiseCh_ch]
    · rw [raiseCh_ch]
  · split
    · rw [raiseCh_ch, raiseCh_ch]
    · rw [raiseCh_ch]

theorem tripNoted_frame (i cause : Nat) (s : State) : Frame [.mbx, .log, .vz, .ch, .sig, .free] s (tripNoted i cause s) := by
  unfold tripNoted
  dsimp only
  refine Frame.via (prsTrigger_frame ..) (by decide) (Frame.via (State.raiseSrc_frame ..) (by decide) ?_)
  have tripped : Frame [.mbx, .log, .vz, .ch, .sig, .free] s (raiseCh evt_chTrip (bridgeIdx i) [byteOf cause] (tripDie (bridgeIdx i) cause s)) :=
    Frame.via (raiseCh_frame ..) (by decide) ((tripDie_frame ..).mono (by decide))
  have arc : Frame [.mbx, .log, .vz, .ch, .sig, .free] s (if cause = 5 then
      raiseCh evt_arc (bridgeIdx i) [] (raiseCh evt_chTrip (bridgeIdx i) [byteOf cause] (tripDie (bridgeIdx i) cause s))
      else raiseCh evt_chTrip (bridgeIdx i) [byteOf cause] (tripDie (bridgeIdx i) cause s)) := by
    split
    · exact Frame.via (raiseCh_frame ..) (by decide) tripped
    · exact tripped
  split
  · exact Frame.via (raiseCh_frame ..) (by decide) arc
  · exact arc

theorem tripNoted_chan (i cause : Nat) (s : State) : (tripNoted i cause s).chan (bridgeIdx i) = trippedChan s (bridgeIdx i) cause ∧
    ∀ j, j ≠ bridgeIdx i → (tripNoted i cause s).chan j = s.chan j := by
  obtain ⟨own, others⟩ := tripDie_leaves (bridgeIdx i) cause s
  rw [bridgeIdx_idem] at own others
  exact ⟨(State.chan_of_ch (tripNoted_ch i cause s) _).trans own, fun j other => (State.chan_of_ch (tripNoted_ch i cause s) j).trans (others j other)⟩

/-- The role of a rope team is read off parts that a trip leaves alone. -/
theorem State.keepsRole_of_frame {l : List Part} {s t : State} (h : Frame l s t) (cfg : Part.cfg ∉ l) (twin : Part.twin ∉ l) :
    t.keepsRole = s.keepsRole := by
  have sameCfg : t.cfg = s.cfg := h.same .cfg cfg
  have sameTwin : t.twin = s.twin := h.same .twin twin
  rw [State.keepsRole, sameCfg, sameTwin]
  rfl

theorem trippedChan_tripLatches (s : State) (i cause : Nat) (inHold keeping : Bool) :
    ((s.chan i).switch i .off 6 s.now (s.watches i (s.chan i))).tripLatches inHold keeping cause = (s.chan i).tripLatches inHold keeping cause := by
  unfold Chan.tripLatches
  rw [((s.chan i).switch_kept ..).retries]
  rfl

theorem trippedChan_retries (s : State) (i cause : Nat) : (trippedChan s i cause).grd.retries = (s.chan i).grd.retries +
    (if (s.chan i).tripLatches (s.chInHold i) (decide (s.sys.mode = .bivouac)) cause then 0 else 1) := by
  unfold trippedChan Chan.tripped
  dsimp only
  rw [trippedChan_tripLatches, ((s.chan i).switch_kept ..).retries]
  split <;> rfl

/-- A trip of a module that keeps its role (R99, R103). -/
theorem tripped_of_trip {i cause : Nat} {s : State} (keeps : s.keepsRole = true) :
    Tripped (bridgeIdx i) cause s (trip i cause s) ∧ (trip i cause s).chan (bridgeIdx i) = trippedChan s (bridgeIdx i) cause := by
  have framed := tripNoted_frame i cause s
  obtain ⟨own, others⟩ := tripNoted_chan i cause s
  have latch := trippedChan_tripLatches s (bridgeIdx i) cause (s.chInHold (bridgeIdx i)) (decide (s.sys.mode = .bivouac))
  rw [trip_eq, twinFault_of_keeps ((State.keepsRole_of_frame framed (by decide) (by decide)).trans keeps)]
  refine ⟨⟨?_, ?_, ?_, ?_, ?_, ?_, ?_, others, framed⟩, own⟩
  · rw [own]; rfl
  · rw [own]; rfl
  · rw [own]
    simp only [trippedChan, Chan.tripped, decide_eq_true_eq]
  · rw [own]; rfl
  · rw [own]; exact latch
  · rw [own]; exact congrArg (! ·) latch
  · rw [own]; exact trippedChan_retries s (bridgeIdx i) cause

end Sys2Proof.Machine
end

section
/-! PROOF. The protection events of a channel (R99 to R104, R109, R113, R116, R132). -/

namespace Sys2Proof.Machine

/-! ### Trips -/

section
variable {s : State} {i cause : Nat}

theorem guardTrip_of_trips (can : s.canTrip i = true) : guardTrip true i cause s = trip i cause s :=
  if_pos (by rw [can, Bool.and_self])

theorem guardTrip_of_quiet (ok : Bool) (quiet : ok = false ∨ s.canTrip i = false) : guardTrip ok i cause s = s := by
  refine if_neg ?_
  obtain calm | cannot := quiet
  · simp [calm]
  · simp [cannot]

/-- A switched channel stands for itself (R127). -/
theorem bridgeIdx_of_switch (sw : (chClass i).isSwitch = true) : bridgeIdx i = i := by
  refine if_neg fun second => ?_
  have half : chClass i = .half := by simp [chClass, second]
  rw [half] at sw
  cases sw

theorem isSwitch_of_arcRuns (runs : s.arcRuns i = true) : (chClass i).isSwitch = true := by
  simp only [State.arcRuns, Bool.and_eq_true] at runs
  obtain ⟨⟨⟨⟨⟨sw, _⟩, _⟩, _⟩, _⟩, _⟩ := runs
  exact sw

/-- What a trip says of the state is said of the state before a guard took its measured values. -/
theorem Tripped.of_modGuard {k : Guard → Guard} {t : State} (h : Tripped i cause (s.modGuard i k) t)
    (retries : ∀ g, (k g).retries = g.retries) : Tripped i cause s t := by
  have latches : ∀ inHold keeping, ((s.modGuard i k).chan i).tripLatches inHold keeping cause = (s.chan i).tripLatches inHold keeping cause := by
    intro inHold keeping
    unfold Chan.tripLatches
    rw [State.modGuard_same, retries]
  have hold : (s.modGuard i k).chInHold i = s.chInHold i := by
    unfold State.chInHold
    rw [State.modGuard_same]
    rfl
  obtain ⟨out, src, why, count, latched, waiting, tries, others, frame⟩ := h
  rw [latches, hold] at latched waiting tries
  rw [State.modGuard_same] at count tries
  rw [retries] at tries
  exact ⟨out, src, why, count, latched, waiting, tries, fun j other => (others j other).trans (State.modGuard_other _ _ _ other),
    ((State.modGuard_frame s i k).mono (by decide)).trans frame⟩

end

/-- A trip that latches a channel of the rope team releases the role (Table 16.5). -/
theorem trip_releases {s : State} {i cause partner : Nat} (team : s.cfg.image.twin.en = true) (rel : s.cfg.image.twin.relOnFault = true)
    (holder : s.twin.role = .holder) (listed : (bridgeIdx i, partner) ∈ s.cfg.image.twin.list)
    (latches : (s.chan (bridgeIdx i)).tripLatches (s.chInHold (bridgeIdx i)) (decide (s.sys.mode = .bivouac)) cause = true) :
    ((trip i cause s).chan (bridgeIdx i)).grd.latched = true ∧ (trip i cause s).twin.role = .released ∧
      (trip i cause s).twin.ownHolder = false := by
  obtain ⟨own, _⟩ := tripNoted_chan i cause s
  have latched : ((tripNoted i cause s).chan (bridgeIdx i)).grd.latched = true := by
    rw [own]
    exact (trippedChan_tripLatches ..).trans latches
  have cfg : (tripNoted i cause s).cfg = s.cfg := (tripNoted_frame i cause s).same .cfg (by decide)
  have twin : (tripNoted i cause s).twin = s.twin := (tripNoted_frame i cause s).same .twin (by decide)
  have faulty : (tripNoted i cause s).twinFaulty = true := by
    rw [State.twinFaulty, cfg]
    refine List.any_eq_true.mpr ⟨_, listed, ?_⟩
    simp [latched]
  have releases : trip i cause s = urgent (raise evt_twinRole noInst .wide [] { tripNoted i cause s with
      twin := { (tripNoted i cause s).twin with role := .released, ownHolder := false
                                                byLoss := (tripNoted i cause s).twin.byLoss && false } }) := by
    rw [trip_eq, twinFault, cfg, rel, faulty, Bool.and_self, if_pos rfl, twinRelease, cfg, twin, team, holder, if_pos (by decide), setRole, twin,
      holder, if_neg (by decide)]
    rfl
  rw [releases, (urgent_keeps _ _).guard.latched, raise_chan, (urgent_frame _).same .twin (by decide), raise_twin]
  exact ⟨latched, rfl, rfl⟩

/-! ### Retries -/

section
variable {s : State} {i : Nat}

/-- The guard of a channel whose wait ends. -/
def Guard.rearmed (g : Guard) : Guard := { g with waiting := false, delayDone := false }

theorem tryRetry_of_waiting (idx : bridgeIdx i = i) (waits : (s.chan i).grd.waiting = true) (done : (s.chan i).grd.delayDone = true)
    (cooled : (s.chan i).grd.cooled = true) (on_ : (s.merged i (s.chan i)).1.isOff = false) :
    ((tryRetry i s).chan i).grd.retries = (s.chan i).grd.retries ∧ ((tryRetry i s).chan i).grd.waiting = false ∧
      ((tryRetry i s).chan i).grd.junctionOk = (s.chan i).grd.junctionOk ∧ (∀ j, j ≠ i → (tryRetry i s).chan j = s.chan j) ∧
      Frame [.ch] s (tryRetry i s) := by
  have retries : tryRetry i s = if s.dieHears (i / 14) && !(s.chan i).holds then
      { s.modGuard i Guard.rearmed with ch := applyOut (s.modGuard i Guard.rearmed) (s.modGuard i Guard.rearmed).ch i }
      else s.modGuard i Guard.rearmed := by
    unfold tryRetry
    dsimp only
    rw [idx, waits, done, cooled, Bool.and_self, Bool.and_self, if_pos rfl, on_, if_neg Bool.false_ne_true]
    rfl
  have own := State.modGuard_same s i Guard.rearmed
  have kept : GuardKept ((s.modGuard i Guard.rearmed).chan i).grd
      ((applyOut (s.modGuard i Guard.rearmed) (s.modGuard i Guard.rearmed).ch i).chans.getD .reset i).grd := (applyOut_keptAt ..).guard
  rw [own] at kept
  rw [retries]
  split
  · exact ⟨kept.retries, kept.waiting rfl, kept.junctionOk, fun j other => (applyOut_other _ _ i other).trans (State.modGuard_other s i _ other),
      Frame.set_ch (State.modGuard_frame ..) (by decide)⟩
  · rw [own]
    exact ⟨rfl, rfl, rfl, fun j other => State.modGuard_other s i _ other, State.modGuard_frame ..⟩

theorem tryRetry_of_rest (rests : ((s.chan (bridgeIdx i)).grd.waiting && (s.chan (bridgeIdx i)).grd.delayDone && (s.chan (bridgeIdx i)).grd.cooled) = false) :
    tryRetry i s = s := by
  unfold tryRetry
  dsimp only
  rw [rests, if_neg Bool.false_ne_true]

theorem tryRetry_idx (i : Nat) (s : State) : tryRetry i s = tryRetry (bridgeIdx i) s := by
  unfold tryRetry
  rw [bridgeIdx_idem]

theorem retryReset_of_running (runs : (s.chan (bridgeIdx i)).out.isOff = false) (free : (s.chan (bridgeIdx i)).grd.blocks = false) :
    retryReset i s = s.modGuard (bridgeIdx i) (fun g => { g with retries := 0 }) := by
  simp only [retryReset, runs, free, Bool.not_false, Bool.and_self, if_true]
  rfl

theorem inrushEnd_of_window (above : Bool) (window : (s.chan (bridgeIdx i)).grd.inrush = true) :
    inrushEnd i above s = s.modGuard (bridgeIdx i) (fun g => { g.limit s.now above with inrush := false }) := if_pos window

theorem junctionCooled_of_cool {tj : Int} (cool : tj < 1450) : junctionCooled i tj s =
    tryRetry i (s.modGuard (bridgeIdx i) (fun g => { g with junctionOk := true })) := if_pos cool

theorem junctionCooled_of_hot {tj : Int} (hot : 1450 ≤ tj) : junctionCooled i tj s = s := if_neg (Int.not_lt.mpr hot)

end

/-! ### The wire model and arcs -/

/-- The temperature rise that a period of the wire model leaves (R113). -/
def State.nextRise (s : State) (i i2 : Nat) : Int :=
  wireRise (s.chan i).grd.riseUk i2 ((s.chan i).prof.wireOf (chClass i)).1 ((s.chan i).prof.wireOf (chClass i)).2

/-- The room that the insulation leaves above ambient (R113). -/
def State.wireRoom (s : State) (i : Nat) : Int := insulRating (s.chan i).prof.insul * 1000000 - s.ambientUk (s.chan i).prof

/-- The guard of a channel whose wire model has taken its period. -/
def State.wireGuard (s : State) (i i2 : Nat) (g : Guard) : Guard :=
  { g with riseUk := s.nextRise i i2, wireOk := decide (2 * s.nextRise i i2 ≤ s.wireRoom i) }

/-- The state in which the wire model has taken its period. -/
def wireTaken (s : State) (i i2 : Nat) : State := s.modGuard i (s.wireGuard i i2)

/-- The guard of a channel with its last windows. -/
def Guard.sampled (wins : List Bool) (g : Guard) : Guard := { g with arcWins := wins }

theorem wireStep_eq (i i2 : Nat) (s : State) : wireStep i i2 s =
    if s.wireRoom (bridgeIdx i) < s.nextRise (bridgeIdx i) i2 then guardTrip true (bridgeIdx i) 3 (wireTaken s (bridgeIdx i) i2)
    else tryRetry (bridgeIdx i) (wireTaken s (bridgeIdx i) i2) := rfl

theorem arcStep_of_runs {s : State} {i rms dv : Nat} (runs : s.arcRuns i = true) {suspect : Bool}
    (is : (decide ((s.chan i).prof.arcRms < rms) && decide ((s.chan i).prof.arcDv < dv)) = suspect) : arcStep i rms dv s =
      guardTrip (decide ((s.chan i).prof.arcN ≤ ((keepNewest 16 (suspect :: (s.chan i).grd.arcWins)).filter (fun b => b)).length)) i 5
        (s.modGuard i (Guard.sampled (keepNewest 16 (suspect :: (s.chan i).grd.arcWins)))) := by
  subst is
  exact if_pos runs

/-! ### The free-wheel check -/

/-- What the energy of a clamping edge leaves of a channel and of the rest (R109, R110, R112). -/
structure ClampKept (i : Nat) (s t : State) : Prop where
  lockFw : (t.chan i).grd.lockFw = (s.chan i).grd.lockFw
  fwMissing : (t.chan i).grd.fwMissing = (s.chan i).grd.fwMissing
  off : (s.chan i).out = .off → (t.chan i).out = .off
  others : ∀ j, j ≠ i → t.chan j = s.chan j
  frame : Frame [.ch, .mbx, .log, .vz] s t

theorem ClampKept.refl (i : Nat) (s : State) : ClampKept i s s := ⟨rfl, rfl, id, fun _ _ => rfl, Frame.refl ..⟩

/-- Events keep what a channel holds. -/
theorem ClampKept.via {i : Nat} {s t u : State} (h : ClampKept i s t) (k : Frame [.mbx, .log, .vz] t u) : ClampKept i s u := by
  have same := State.chan_of_ch (k.same .ch (by decide))
  obtain ⟨lockFw, fwMissing, off, others, frame⟩ := h
  exact ⟨by rw [same, lockFw], by rw [same, fwMissing], by rw [same]; exact off, fun j other => (same j).trans (others j other),
    frame.trans (k.mono (by decide))⟩

theorem ClampKept.modChan {i : Nat} {s t : State} (h : ClampKept i s t) {f : Chan → Chan} (lock : ∀ c, (f c).grd.lockFw = c.grd.lockFw)
    (missing : ∀ c, (f c).grd.fwMissing = c.grd.fwMissing) (off : ∀ c, c.out = .off → (f c).out = .off) : ClampKept i s (t.modChan i f) := by
  refine ⟨?_, ?_, fun is => ?_, fun j other => (State.modChan_other t i f j other).trans (h.others j other),
    h.frame.trans ((State.modChan_frame ..).mono (by decide))⟩
  · rw [State.modChan_same, lock, h.lockFw]
  · rw [State.modChan_same, missing, h.fwMissing]
  · rw [State.modChan_same]
    exact off _ (h.off is)

theorem Chan.switch_locks (c : Chan) (i : Nat) (w : OutCmd) (src now : Nat) (watch : Bool) :
    (c.switch i w src now watch).grd.lockFw = c.grd.lockFw ∧ (c.switch i w src now watch).grd.fwMissing = c.grd.fwMissing := by
  unfold Chan.switch Guard.limit
  dsimp only
  split
  · exact ⟨rfl, rfl⟩
  · split
    · exact ⟨rfl, rfl⟩
    · exact ⟨rfl, rfl⟩

theorem ClampKept.raise_if {i : Nat} {s t : State} (h : ClampKept i s t) (b : Bool) (k : EvKind) :
    ClampKept i s (if b then raiseCh k i [] t else t) := by
  split
  · exact h.via ((raiseCh_frame ..).mono (by decide))
  · exact h

/-- A module that keeps its role keeps it at a channel's fault as well. -/
theorem ClampKept.fault_if {i : Nat} {s t : State} (h : ClampKept i s t) (keeps : s.keepsRole = true) (b : Bool) (v : Option Nat) (src : Nat) :
    ClampKept i s (if b then twinFault (t.raiseSrc v src) else t) := by
  split
  · have kept := h.via ((State.raiseSrc_frame t v src).mono (by decide))
    rw [twinFault_of_keeps ((State.keepsRole_of_frame kept.frame (by decide) (by decide)).trans keeps)]
    exact kept
  · exact h

/-- A channel after the energy of a clamping edge: `lock` where it passes its budget, `excess` where the edge passes a single event's (R110, R112). -/
def clampTaken (i uj : Nat) (lock excess : Bool) (s : State) : State :=
  (s.modChan i (fun c => if lock || excess then c.switch i .off 6 s.now (s.watches i c) else c)).modChan i (fun c =>
    { c with
      cause := if excess then 8 else if lock then 6 else c.cause
      flags := { c.flags with ledger := c.flags.ledger || lock, clampOver := c.flags.clampOver || excess }
      grd := { c.grd with ledgerUj := (s.chan i).grd.ledgerNow s.now + uj, ledgerAt := s.now, lockLedger := c.grd.lockLedger || lock,
                          clampOver := c.grd.clampOver || excess } })

theorem clampTaken_kept (i uj : Nat) (lock excess : Bool) (s : State) : ClampKept i s (clampTaken i uj lock excess s) := by
  refine ClampKept.modChan (ClampKept.modChan (.refl ..) ?lock ?missing ?off) (fun _ => rfl) (fun _ => rfl) (fun _ => id)
  case lock =>
    intro c
    split
    · exact (c.switch_locks ..).1
    · rfl
  case missing =>
    intro c
    split
    · exact (c.switch_locks ..).2
    · rfl
  case off =>
    intro c is
    split
    · rfl
    · exact is

/-- The events of a lock or of an excess, and the release of a role for it. -/
def clampNoted (i : Nat) (lock excess : Bool) (s : State) : State :=
  let s := if lock then raiseCh evt_chLedgerLock i [] s else s
  let s := if excess then raiseCh evt_chClampOver i [] s else s
  if lock || excess then twinFault (s.raiseSrc (s.chOwner i) 41) else s

/-- The energy of an edge passes the budget of a channel whose ledger lock is active (R110). -/
def State.clampLocks (s : State) (i uj : Nat) : Bool :=
  s.ledgerLockActive i && decide ((chClass i).budget < (s.chan i).grd.ledgerNow s.now + uj) && !(s.chan i).grd.lockLedger

theorem addClamp_eq (i uj : Nat) (s : State) : addClamp i uj s = if !(chClass i).isSwitch || uj = 0 then s
    else clampNoted i (s.clampLocks i uj) (decide ((chClass i).singleEvent < uj))
      (clampTaken i uj (s.clampLocks i uj) (decide ((chClass i).singleEvent < uj)) s) := rfl

theorem addClamp_kept (i uj : Nat) {s : State} (keeps : s.keepsRole = true) : ClampKept i s (addClamp i uj s) := by
  rw [addClamp_eq]
  split
  · exact .refl ..
  · exact (((clampTaken_kept ..).raise_if ..).raise_if ..).fault_if keeps ..

theorem addClamp_of_none (i : Nat) (s : State) : addClamp i 0 s = s := if_pos (by simp)

/-- The state in which the free-wheel check has ended (R109). -/
def freewheelDone (i : Nat) (s : State) : State := s.modGuard i (fun g => { g with fwWatch := false, fwDone := true })

theorem freewheelEnd_of_watch {i : Nat} {s : State} (lowest : Int) (clampUj : Nat) (watch : (s.chan i).grd.fwWatch = true)
    (supply : (s.die (i / 14)).supply ≠ .reversed) : freewheelEnd i lowest clampUj s =
      if -150 < lowest then addClamp i clampUj ((freewheelDone i s).modGuard i (fun g => { g with fwOk := true }))
      else addClamp i clampUj (twinFault ((raiseCh evt_chFwMissing i [] (((freewheelDone i s).modChan i (fun c =>
        { c.switch i .off 6 s.now false with cause := 7, flags := { c.flags with fwMissing := true } })).modGuard i (fun g =>
          { g with fwMissing := true, lockFw := true }))).raiseSrc (s.chOwner i) 41)) := by
  unfold freewheelEnd
  dsimp only
  rw [watch, decide_eq_false supply, Bool.not_true, Bool.or_self, if_neg Bool.false_ne_true]
  rfl

/-- A channel whose free-wheel path fails is locked and off (R109). -/
theorem freewheelEnd_of_missing {i : Nat} {s : State} {lowest : Int} (clampUj : Nat) (watch : (s.chan i).grd.fwWatch = true)
    (supply : (s.die (i / 14)).supply ≠ .reversed) (low : lowest ≤ -150) (keeps : s.keepsRole = true) :
    ((freewheelEnd i lowest clampUj s).chan i).grd.lockFw = true ∧ ((freewheelEnd i lowest clampUj s).chan i).grd.fwMissing = true ∧
      ((freewheelEnd i lowest clampUj s).chan i).out = .off ∧ (∀ j, j ≠ i → (freewheelEnd i lowest clampUj s).chan j = s.chan j) ∧
      Frame [.ch, .mbx, .log, .vz] s (freewheelEnd i lowest clampUj s) := by
  rw [freewheelEnd_of_watch lowest clampUj watch supply, if_neg (Int.not_lt.mpr low)]
  obtain ⟨t, is, lock, missing, off, others, framed⟩ : ∃ t, t = ((freewheelDone i s).modChan i (fun c =>
      { c.switch i .off 6 s.now false with cause := 7, flags := { c.flags with fwMissing := true } })).modGuard i (fun g =>
        { g with fwMissing := true, lockFw := true }) ∧ (t.chan i).grd.lockFw = true ∧ (t.chan i).grd.fwMissing = true ∧
        (t.chan i).out = .off ∧ (∀ j, j ≠ i → t.chan j = s.chan j) ∧ Frame [.ch] s t := by
    refine ⟨_, rfl, ?_⟩
    rw [State.modGuard_same, State.modChan_same]
    refine ⟨rfl, rfl, rfl, fun j other => ?_, ?_⟩
    · rw [State.modGuard_other _ _ _ other, State.modChan_other _ _ _ j other, freewheelDone, State.modGuard_other _ _ _ other]
    · exact ((State.modGuard_frame ..).trans (State.modChan_frame ..)).trans (State.modGuard_frame ..)
  rw [← is]
  obtain ⟨u, isU, noted⟩ : ∃ u, u = (raiseCh evt_chFwMissing i [] t).raiseSrc (s.chOwner i) 41 ∧ Frame [.mbx, .log, .vz] t u :=
    ⟨_, rfl, Frame.via (State.raiseSrc_frame ..) (by decide) ((raiseCh_frame ..).mono (by decide))⟩
  have kept : Frame [.ch, .mbx, .log, .vz] s u := (framed.mono (by decide)).trans (noted.mono (by decide))
  have role : u.keepsRole = true := (State.keepsRole_of_frame kept (by decide) (by decide)).trans keeps
  have chans := State.chan_of_ch (noted.same .ch (by decide))
  rw [← isU, twinFault_of_keeps role]
  obtain ⟨lockFw, fwMissing, outs, rest, frame⟩ := addClamp_kept i clampUj role
  rw [chans] at lockFw fwMissing outs
  exact ⟨lockFw.trans lock, fwMissing.trans missing, outs off, fun j other => (rest j other).trans ((chans j).trans (others j other)),
    kept.trans frame⟩

/-- Settles O14: a trip sets the channel by `tripped_of_trip`, in a team it releases the role by `trip_releases`, and a retry that has been
counted at its trip ends its wait (`tryRetry_of_waiting`, log entry 52). -/
theorem protectionTripsAndRetries : Obligations.ProtectionTripsAndRetries := by
  refine ⟨?short, ?shortLow, ?limitLow, ?limit, ?junction, ?team, ?cannot, ?wire, ?wireLow, ?arc, ?arcLow, ?retry, ?retryHot, ?cooled, ?cooledRest,
    ?hot, ?reset, ?inrush, ?freewheel, ?missing⟩
  case short =>
    intro ch ma s valve level can keeps
    refine ⟨_, congrArg Host.Outcome.next (?_ : guardTrip _ _ _ _ = trip ch.val 1 s), (tripped_of_trip keeps).1⟩
    rw [decide_eq_true valve, decide_eq_true level]
    exact guardTrip_of_trips can
  case shortLow =>
    intro ch ma s low
    refine congrArg Host.Outcome.next (guardTrip_of_quiet _ (.inl ?_))
    obtain valve | below := low
    · simp [valve]
    · simp [Nat.not_le.mpr below]
  case limitLow => exact fun ch s low => congrArg Host.Outcome.next (guardTrip_of_quiet _ (.inl low))
  case limit =>
    intro ch s high can keeps
    refine ⟨_, congrArg Host.Outcome.next (?_ : guardTrip _ _ _ _ = trip ch.val 2 s), (tripped_of_trip keeps).1⟩
    rw [high]
    exact guardTrip_of_trips can
  case junction =>
    intro ch tj s hot can keeps
    obtain ⟨tripped, own⟩ := tripped_of_trip (i := ch.val) (cause := 4) keeps
    refine ⟨_, congrArg Host.Outcome.next (?_ : guardTrip _ _ _ _ = trip ch.val 4 s), tripped, ?_⟩
    · rw [decide_eq_true (show tjTrip ≤ tj from hot)]
      exact guardTrip_of_trips can
    · rw [own]
      exact Bool.and_false _
  case team =>
    intro ch partner s high can team rel holder listed latches
    refine ⟨_, congrArg Host.Outcome.next (?_ : guardTrip _ _ _ _ = trip ch.val 2 s), trip_releases team rel holder listed latches⟩
    rw [high]
    exact guardTrip_of_trips can
  case cannot =>
    intro ch ma tj s cannot
    exact ⟨congrArg Host.Outcome.next (guardTrip_of_quiet _ (.inr cannot)), congrArg Host.Outcome.next (guardTrip_of_quiet _ (.inr cannot)),
      congrArg Host.Outcome.next (guardTrip_of_quiet _ (.inr cannot))⟩
  case wire =>
    intro ch i2 s can keeps over_
    obtain ⟨tripped, own⟩ := tripped_of_trip (i := bridgeIdx ch.val) (cause := 3) (s := wireTaken s (bridgeIdx ch.val) i2) keeps
    rw [bridgeIdx_idem] at tripped own
    refine ⟨_, congrArg Host.Outcome.next ((wireStep_eq ch.val i2 s).trans ((if_pos over_).trans (guardTrip_of_trips ?_))),
      Tripped.of_modGuard tripped (fun _ => rfl), ?_⟩
    · exact (State.modGuard_canTrip s _ (s.wireGuard _ i2) (fun _ => rfl)).trans can
    · rw [own]
      exact Bool.and_false _
  case wireLow =>
    intro ch i2 s rests within
    have still : tryRetry (bridgeIdx ch.val) (wireTaken s (bridgeIdx ch.val) i2) = wireTaken s (bridgeIdx ch.val) i2 := by
      refine tryRetry_of_rest ?_
      rw [bridgeIdx_idem, wireTaken, State.modGuard_same]
      show ((s.chan (bridgeIdx ch.val)).grd.waiting && _ && _) = false
      rw [rests, Bool.false_and, Bool.false_and]
    have own : (wireTaken s (bridgeIdx ch.val) i2).chan (bridgeIdx ch.val) = _ := State.modGuard_same ..
    refine ⟨_, congrArg Host.Outcome.next ((wireStep_eq ch.val i2 s).trans ((if_neg (Int.not_lt.mpr within)).trans still)), ?_, ?_,
      fun j other => State.modGuard_other _ _ _ other, State.modGuard_frame ..⟩
    · rw [own]
      rfl
    · rw [own]
      rfl
  case arc =>
    intro ch rms dv s runs rms_ dv_ many can keeps
    have idx := bridgeIdx_of_switch (isSwitch_of_arcRuns runs)
    obtain ⟨tripped, own⟩ := tripped_of_trip (i := ch.val) (cause := 5)
      (s := s.modGuard ch.val (Guard.sampled (keepNewest 16 (true :: (s.chan ch.val).grd.arcWins)))) keeps
    rw [idx] at tripped own
    refine ⟨_, congrArg Host.Outcome.next ((arcStep_of_runs runs (suspect := true) (by simp [rms_, dv_])).trans ?_),
      Tripped.of_modGuard tripped (fun _ => rfl), ?_⟩
    · rw [decide_eq_true many]
      exact guardTrip_of_trips ((State.modGuard_canTrip s _ (Guard.sampled _) (fun _ => rfl)).trans can)
    · rw [own]
      exact Bool.or_true _
  case arcLow =>
    intro ch rms dv s runs low few
    have own := State.modGuard_same s ch.val (Guard.sampled (keepNewest 16 (false :: (s.chan ch.val).grd.arcWins)))
    refine ⟨_, congrArg Host.Outcome.next ((arcStep_of_runs runs (suspect := false) ?_).trans (guardTrip_of_quiet _ (.inl ?_))),
      congrArg (fun c : Chan => c.grd.arcWins) own, fun j other => State.modGuard_other _ _ _ other, State.modGuard_frame ..⟩
    · obtain rms_ | dv_ := low
      · simp [Nat.not_lt.mpr rms_]
      · simp [Nat.not_lt.mpr dv_]
    · exact decide_eq_false (Nat.not_le.mpr few)
  case retry =>
    intro ch s waits junction wire on_
    have own := State.modGuard_same s (bridgeIdx ch.val) (fun g => { g with delayDone := g.waiting })
    have merged := State.modGuard_merged s (bridgeIdx ch.val) (fun g => { g with delayDone := g.waiting })
    obtain ⟨retries, waiting, _, others, frame⟩ := tryRetry_of_waiting (s := s.modGuard (bridgeIdx ch.val) (fun g => { g with delayDone := g.waiting }))
      (bridgeIdx_idem ch.val) (by rw [own]; exact waits) (by rw [own]; exact waits) (by rw [own]; simp [Guard.cooled, junction, wire])
      (by rw [merged]; exact on_)
    refine ⟨_, congrArg Host.Outcome.next (tryRetry_idx ch.val _), retries.trans (by rw [own]), waiting,
      fun j other => (others j other).trans (State.modGuard_other _ _ _ other), (State.modGuard_frame ..).trans frame⟩
  case retryHot =>
    intro ch s waits junction
    have own := State.modGuard_same s (bridgeIdx ch.val) (fun g => { g with delayDone := g.waiting })
    refine ⟨_, congrArg Host.Outcome.next (tryRetry_of_rest (s := s.modGuard (bridgeIdx ch.val) (fun g => { g with delayDone := g.waiting })) ?_), ?_, ?_,
      fun j other => State.modGuard_other _ _ _ other, State.modGuard_frame ..⟩
    · rw [own]
      simp [Guard.cooled, junction]
    · rw [own]
      exact waits
    · rw [own]
      exact waits
  case cooled =>
    intro ch tj s cool waits done wire on_
    have own := State.modGuard_same s (bridgeIdx ch.val) (fun g => { g with junctionOk := true })
    have merged := State.modGuard_merged s (bridgeIdx ch.val) (fun g => { g with junctionOk := true })
    obtain ⟨retries, waiting, junction, _, frame⟩ := tryRetry_of_waiting (s := s.modGuard (bridgeIdx ch.val) (fun g => { g with junctionOk := true }))
      (bridgeIdx_idem ch.val) (by rw [own]; exact waits) (by rw [own]; exact done) (by rw [own]; simp [Guard.cooled, wire])
      (by rw [merged]; exact on_)
    exact ⟨_, congrArg Host.Outcome.next ((junctionCooled_of_cool cool).trans (tryRetry_idx ch.val _)), retries.trans (by rw [own]), waiting,
      junction.trans (by rw [own]), (State.modGuard_frame ..).trans frame⟩
  case cooledRest =>
    intro ch tj s cool rests
    have own := State.modGuard_same s (bridgeIdx ch.val) (fun g => { g with junctionOk := true })
    refine ⟨_, congrArg Host.Outcome.next ((junctionCooled_of_cool cool).trans (tryRetry_of_rest ?_)), by rw [own], State.modGuard_frame ..⟩
    rw [own]
    dsimp only
    rw [rests, Bool.false_and, Bool.false_and]
  case hot => exact fun ch tj s hot => congrArg Host.Outcome.next (junctionCooled_of_hot hot)
  case reset =>
    intro ch s runs free
    exact ⟨_, congrArg Host.Outcome.next (retryReset_of_running runs free), by rw [State.modGuard_same],
      fun j other => State.modGuard_other _ _ _ other, State.modGuard_frame ..⟩
  case inrush =>
    intro ch above s window
    exact ⟨_, congrArg Host.Outcome.next (inrushEnd_of_window above window), by rw [State.modGuard_same],
      by rw [State.modGuard_same]; exact Guard.limit_limiting .., fun j other => State.modGuard_other _ _ _ other, State.modGuard_frame ..⟩
  case freewheel =>
    intro ch lowest s watch supply high
    refine ⟨_, congrArg Host.Outcome.next ((freewheelEnd_of_watch lowest 0 watch supply).trans ((if_pos high).trans (addClamp_of_none ..))), ?_, ?_,
      fun j other => (State.modGuard_other _ _ _ other).trans (State.modGuard_other _ _ _ other),
      (State.modGuard_frame ..).trans (State.modGuard_frame ..)⟩
    · rw [State.modGuard_same]
    · rw [State.modGuard_same, freewheelDone, State.modGuard_same]
  case missing => exact fun ch lowest clampUj s watch supply low keeps => ⟨_, rfl, freewheelEnd_of_missing clampUj watch supply low keeps⟩

end Sys2Proof.Machine
end

section
/-! PROOF. What a die reports of a channel (R95, R99, R110, R113, R122, R136). -/

namespace Sys2Proof.Machine

/-! ### A locked channel stays off -/

/-- A channel that its ledger or its clamp holds off (R110, R112). -/
def Chan.LockedOff (c : Chan) : Prop := c.out = .off ∧ (c.grd.lockLedger = true ∨ c.grd.clampOver = true)

theorem Guard.blocks_of_locked {g : Guard} (locked : g.lockLedger = true ∨ g.clampOver = true) : g.blocks = true := by
  obtain ledger | clamp := locked
  · simp [Guard.blocks, ledger]
  · simp [Guard.blocks, clamp]

theorem Chan.allowed_of_blocked {c : Chan} (d : Die) (m : OutCmd × Nat) (blocked : c.grd.blocks = true) : (c.allowed d m).1 = .off := by
  unfold Chan.allowed
  split
  · rfl
  · rfl

/-- A change of an output to off that keeps the guard. -/
theorem Chan.LockedOff.of_kept {c d : Chan} (h : c.LockedOff) (kept : GuardKept c.grd d.grd) (out : d.out = .off) : d.LockedOff :=
  ⟨out, h.2.imp (fun l => kept.lockLedger.trans l) (fun k => kept.clampOver.trans k)⟩

section
variable {cs : ChanState} {s : State} {i j : Nat}

theorem applyOut_lockedOff (h : (cs.chans.getD .reset j).LockedOff) : ((applyOut s cs i).chans.getD .reset j).LockedOff := by
  by_cases same : j = i
  case neg =>
    rw [applyOut_other s cs i same]
    exact h
  case pos =>
    subst same
    refine h.of_kept (applyOut_keptAt s cs j j).guard ?_
    have off : ∀ d m w, (({ cs.chans.getD .reset j with grd := { (cs.chans.getD .reset j).grd with waiting := w } } : Chan).allowed d m).1 = .off :=
      fun d m w => Chan.allowed_of_blocked (c := { cs.chans.getD .reset j with grd := { (cs.chans.getD .reset j).grd with waiting := w } }) d m
        (Guard.blocks_of_locked (g := { (cs.chans.getD .reset j).grd with waiting := w }) h.2)
    unfold applyOut
    dsimp only
    split
    · unfold putBridge
      dsimp only
      rw [off, ite_self]
      exact congrArg Chan.out (ChanState.modChan_same ..)
    · rw [off, ite_self]
      exact congrArg Chan.out (ChanState.modChan_same ..)
    · rw [off]
      exact congrArg Chan.out (ChanState.modChan_same ..)

theorem keepOn_out {o : OutCmd} (blocked : (cs.chans.getD .reset i).grd.blocks = true) :
    ((cs.keepOn s i o).chans.getD .reset i).out = .off := by
  have cannot : ∀ d, (cs.chans.getD .reset i).canRun d = false := fun d => by simp [Chan.canRun, blocked]
  unfold ChanState.keepOn
  dsimp only
  rw [ChanState.modChan_same, cannot]
  rfl

theorem gateHeld_lockedOff (h : (cs.chans.getD .reset j).LockedOff) : ((gateHeld s cs i).chans.getD .reset j).LockedOff := by
  by_cases same : j = i
  case neg =>
    have kept : (gateHeld s cs i).chans.getD .reset j = cs.chans.getD .reset j := by
      unfold gateHeld
      dsimp only
      split
      · rfl
      · split
        · split
          · rfl
          · exact ChanState.modChan_other _ _ _ same
        · split
          · exact (ChanState.modChan_other _ _ _ same).trans (ChanState.modChan_other _ _ _ same)
          · rfl
    rw [kept]
    exact h
  case pos =>
    subst same
    refine h.of_kept (gateHeld_keptAt s cs j j).guard ?_
    unfold gateHeld
    dsimp only
    split
    · exact h.1
    · split
      · split
        · exact h.1
        · exact congrArg Chan.out (ChanState.modChan_same ..)
      · split
        · refine keepOn_out ?_
          rw [ChanState.modChan_same]
          exact Guard.blocks_of_locked h.2
        · exact h.1

theorem urgent_lockedOff (h : (s.chan j).LockedOff) : ((urgent s).chan j).LockedOff := by
  refine List.foldlRecOn (motive := fun cs : ChanState => (cs.chans.getD .reset j).LockedOff) _ _ h fun cs h g _ => ?_
  split
  · unfold applyDie
    dsimp only
    refine List.foldlRecOn (motive := fun cs : ChanState => (cs.chans.getD .reset j).LockedOff) _ _ h fun cs h o _ => ?_
    split
    · exact gateHeld_lockedOff h
    · refine applyOut_lockedOff ?_
      by_cases same : j = 14 * g + o
      · rw [same, ChanState.modChan_same, ← same]
        exact h
      · rw [ChanState.modChan_other _ _ _ same]
        exact h
  · exact h

/-- A fault of a rope team keeps the locks of a channel (Table 16.5). -/
theorem twinFault_kept (s : State) (j : Nat) : GuardKept (s.chan j).grd ((twinFault s).chan j).grd ∧
    ((s.chan j).LockedOff → ((twinFault s).chan j).LockedOff) := by
  have stands : GuardKept (s.chan j).grd (s.chan j).grd ∧ ((s.chan j).LockedOff → (s.chan j).LockedOff) := ⟨.refl _, id⟩
  unfold twinFault twinRelease setRole
  split
  · split
    · split
      · exact stands
      · dsimp only
        have kept := urgent_keeps (raise evt_twinRole noInst .wide [] { s with
          twin := { s.twin with role := .released, ownHolder := decide (TwinRole.released = .holder)
                                byLoss := s.twin.byLoss && decide (TwinRole.released = .holder) } }) j
        rw [raise_chan] at kept
        refine ⟨kept.guard, fun h => urgent_lockedOff ?_⟩
        rw [raise_chan]
        exact h
    · exact stands
  · exact stands

end

/-! ### The energy of an edge -/

/-- What the energy of an edge leaves of its channel (R110, R112). -/
theorem clampTaken_leaves (i uj : Nat) (lock excess : Bool) (s : State) :
    ((clampTaken i uj lock excess s).chan i).grd.ledgerUj = (s.chan i).grd.ledgerNow s.now + uj ∧
      ((clampTaken i uj lock excess s).chan i).grd.ledgerAt = s.now ∧
      (lock = true → ((clampTaken i uj lock excess s).chan i).grd.lockLedger = true) ∧
      (excess = true → ((clampTaken i uj lock excess s).chan i).grd.clampOver = true) ∧
      ((lock || excess) = true → ((clampTaken i uj lock excess s).chan i).out = .off) := by
  unfold clampTaken
  rw [State.modChan_same, State.modChan_same]
  refine ⟨rfl, rfl, ?_, ?_, ?_⟩
  · rintro rfl
    exact Bool.or_true _
  · rintro rfl
    exact Bool.or_true _
  · intro ends
    rw [if_pos ends]
    rfl

theorem events_chan (b : Bool) (k : EvKind) (i : Nat) (s : State) : (if b then raiseCh k i [] s else s).chan i = s.chan i := by
  cases b
  · rfl
  · exact raiseCh_chan ..

/-- The events of a lock and the release of a role keep the ledger and the locks. -/
theorem clampNoted_kept (i : Nat) (lock excess : Bool) (s : State) : GuardKept (s.chan i).grd ((clampNoted i lock excess s).chan i).grd ∧
    ((s.chan i).LockedOff → ((clampNoted i lock excess s).chan i).LockedOff) := by
  have stands : ∀ t : State, t.chan i = s.chan i → GuardKept (s.chan i).grd (t.chan i).grd ∧ ((s.chan i).LockedOff → (t.chan i).LockedOff) :=
    fun t same => by
      rw [same]
      exact ⟨.refl _, id⟩
  have faults : ∀ (t : State) v, t.chan i = s.chan i → GuardKept (s.chan i).grd ((twinFault (t.raiseSrc v 41)).chan i).grd ∧
      ((s.chan i).LockedOff → ((twinFault (t.raiseSrc v 41)).chan i).LockedOff) := fun t v same => by
    have source : (t.raiseSrc v 41).chan i = s.chan i := (State.chan_of_ch ((State.raiseSrc_frame ..).same .ch (by decide)) i).trans same
    have kept := twinFault_kept (t.raiseSrc v 41) i
    rw [source] at kept
    exact kept
  unfold clampNoted
  dsimp only
  split
  · exact faults _ _ ((events_chan excess ..).trans (events_chan lock ..))
  · exact stands _ ((events_chan excess ..).trans (events_chan lock ..))

/-- What the energy of an edge leaves of its channel (R110, R112). -/
theorem addClamp_leaves {i uj : Nat} {s : State} (sw : (chClass i).isSwitch = true) (some_ : 0 < uj) :
    ((addClamp i uj s).chan i).grd.ledgerUj = (s.chan i).grd.ledgerNow s.now + uj ∧ ((addClamp i uj s).chan i).grd.ledgerAt = s.now ∧
      (s.clampLocks i uj = true → ((addClamp i uj s).chan i).grd.lockLedger = true ∧ ((addClamp i uj s).chan i).out = .off) ∧
      ((chClass i).singleEvent < uj → ((addClamp i uj s).chan i).grd.clampOver = true ∧ ((addClamp i uj s).chan i).out = .off) := by
  rw [addClamp_eq, if_neg (by simp [sw, Nat.ne_of_gt some_])]
  obtain ⟨sum, at_, locks, exceeds, off⟩ := clampTaken_leaves i uj (s.clampLocks i uj) (decide ((chClass i).singleEvent < uj)) s
  obtain ⟨kept, stays⟩ := clampNoted_kept i (s.clampLocks i uj) (decide ((chClass i).singleEvent < uj))
    (clampTaken i uj (s.clampLocks i uj) (decide ((chClass i).singleEvent < uj)) s)
  refine ⟨kept.ledgerUj.trans sum, kept.ledgerAt.trans at_, fun lock => ?_, fun excess => ?_⟩
  · obtain ⟨out, _⟩ := stays ⟨off (by rw [lock, Bool.true_or]), .inl (locks lock)⟩
    exact ⟨kept.lockLedger.trans (locks lock), out⟩
  · have over_ := decide_eq_true excess
    obtain ⟨out, _⟩ := stays ⟨off (by rw [over_, Bool.or_true]), .inr (exceeds over_)⟩
    exact ⟨kept.clampOver.trans (exceeds over_), out⟩

/-- The off-edge of a PWM period starts at most the free-wheel check (R109). -/
theorem pwmEdge_leaves (i : Nat) (s : State) : (∃ watch, (pwmEdge i s).chan i = { s.chan i with grd := { (s.chan i).grd with fwWatch := watch } }) ∧
    (∀ j, j ≠ i → (pwmEdge i s).chan j = s.chan j) ∧ (pwmEdge i s).ch.dies = s.ch.dies ∧ Frame [.ch] s (pwmEdge i s) := by
  have framed := pwmEdge_frame i s
  unfold pwmEdge at framed ⊢
  dsimp only at framed ⊢
  split
  · split
    · exact ⟨⟨_, State.modChan_same ..⟩, fun j other => State.modChan_other _ _ _ j other, rfl, State.modChan_frame ..⟩
    · exact ⟨⟨_, rfl⟩, fun _ _ => rfl, rfl, Frame.refl ..⟩
  · exact ⟨⟨_, rfl⟩, fun _ _ => rfl, rfl, Frame.refl ..⟩

theorem pwmEdge_clampLocks (i uj : Nat) (s : State) : (pwmEdge i s).clampLocks i uj = s.clampLocks i uj := by
  obtain ⟨⟨watch, own⟩, _, dies, frame⟩ := pwmEdge_leaves i s
  unfold State.clampLocks State.ledgerLockActive State.now State.die
  rw [own, dies, frame.same .sys (by decide), frame.same .tb (by decide)]
  rfl

/-! ### Reports -/

section
variable {s : State} {i : Nat}

theorem openLoad_leaves (i : Nat) (onState : Bool) (s : State) : ((openLoad i onState s).chan i).grd.ol = true ∧
    ((openLoad i onState s).chan i).grd.stb = (s.chan i).grd.stb ∧
    ((openLoad i onState s).chan i).flags.olOn = ((s.chan i).flags.olOn || onState) ∧
      (∀ j, j ≠ i → (openLoad i onState s).chan j = s.chan j) ∧ Frame [.ch, .mbx, .log, .vz] s (openLoad i onState s) := by
  have framed : Frame [.ch, .mbx, .log, .vz] s (openLoad i onState s) := (openLoad_frame i onState s).mono (by decide)
  unfold openLoad at framed ⊢
  dsimp only at framed ⊢
  split
  next was =>
    rw [if_pos was] at framed
    rw [State.modChan_same]
    exact ⟨rfl, rfl, rfl, fun j other => State.modChan_other _ _ _ j other, framed⟩
  next was =>
    rw [if_neg was] at framed
    simp only [raiseCh_chan]
    rw [State.modChan_same]
    exact ⟨rfl, rfl, rfl, fun j other => State.modChan_other _ _ _ j other, framed⟩

theorem openLoadOn_of_runs (supply : (s.die (bridgeIdx i / 14)).supply = .present) (runs : s.openLoadRuns (bridgeIdx i) = true)
    (watched : (s.chan (bridgeIdx i)).prof.openLoad (chClass (bridgeIdx i)) ≠ 0) : openLoadOn i s = openLoad (bridgeIdx i) true s :=
  if_pos (by simp [supply, runs, watched])

theorem openLoadOn_of_rest (rests : s.openLoadRuns (bridgeIdx i) = false) : openLoadOn i s = s := if_neg (by simp [rests])

theorem openLoadRuns_of_valve (valve : chClass i = .valve) (unsaturated : (s.valve (chanVlv i)).sat = false) : s.openLoadRuns i = false := by
  unfold State.openLoadRuns
  rw [valve, unsaturated]
  exact Bool.and_false _

/-- The off-state test as far as the short to supply (R99). -/
def stbTaken (i : Nat) (stb : Bool) (s : State) : State :=
  s.modChan i (fun c => { c with flags := { c.flags with stb := c.flags.stb || stb }, grd := { c.grd with stb := stb } })

theorem offTest_of_runs {highBefore : Bool} {under : Int} (watched : (s.chan (bridgeIdx i)).prof.olOffEn = true)
    (runs : s.offRuns (bridgeIdx i) = true) (supply : (s.die (bridgeIdx i / 14)).supply = .present) {stb open_ : Bool}
    (isStb : (highBefore && decide (chClass (bridgeIdx i) ≠ .valve)) = stb)
    (isOpen : (if chClass (bridgeIdx i) = .valve then decide (400 < under) else decide (400 ≤ under)) = open_) : ∃ t,
      t = (if stb && !(s.chan (bridgeIdx i)).grd.stb then raiseCh evt_chShortToSupply (bridgeIdx i) [] (stbTaken (bridgeIdx i) stb s)
        else stbTaken (bridgeIdx i) stb s) ∧
      offTest i highBefore under s = if open_ then openLoad (bridgeIdx i) false t else t.modGuard (bridgeIdx i) (fun g => { g with ol := false }) := by
  subst isStb isOpen
  refine ⟨_, rfl, ?_⟩
  unfold offTest
  dsimp only
  rw [watched, runs, decide_eq_true supply, Bool.and_self, Bool.and_self, if_pos rfl]
  rfl

theorem statusUpdate_of_blind (m : Measure) (blind : s.senses (i / 14) = false) :
    statusUpdate i m s = s.modChan (bridgeIdx i) (fun c => { c with stamp := s.tb.count }) := if_pos (by rw [blind]; rfl)

theorem statusUpdate_leaves (m : Measure) (senses : s.senses (i / 14) = true) :
    ((statusUpdate i m s).chan (bridgeIdx i)).sense.iAvg = m.iAvg.toNat ∧ ((statusUpdate i m s).chan (bridgeIdx i)).sense.iInst = m.iInst.toNat ∧
      ((statusUpdate i m s).chan (bridgeIdx i)).sense.vg = m.vg ∧ ((statusUpdate i m s).chan (bridgeIdx i)).sense.tj = m.tj ∧
      ((statusUpdate i m s).chan i).sense.vout = m.vout ∧
      ((statusUpdate i m s).chan (bridgeIdx i)).sense.iPeak = max (s.chan (bridgeIdx i)).sense.iPeak m.iInst.toNat ∧
      ((statusUpdate i m s).chan (bridgeIdx i)).stamp = s.tb.count ∧
      (∀ j, j ≠ bridgeIdx i → j ≠ i → (statusUpdate i m s).chan j = s.chan j) := by
  unfold statusUpdate
  rw [senses, if_neg (by decide)]
  dsimp only
  rw [State.modChan_same]
  refine ⟨rfl, rfl, rfl, rfl, ?_, ?_, rfl, fun j other second => ?_⟩
  · by_cases same : i = bridgeIdx i
    · rw [← same, State.modChan_same, State.modChan_same]
    · rw [State.modChan_other _ _ _ i same, State.modChan_same]
  · by_cases same : bridgeIdx i = i
    · rw [same, State.modChan_same]
    · rw [State.modChan_other _ _ _ _ same]
  · rw [State.modChan_other _ _ _ j other, State.modChan_other _ _ _ j second]

/-- What goes to the signal exchange leaves the channels and the engine alone. -/
theorem chStatUpdate_kept (i : Nat) (s : State) : (∀ j, (chStatUpdate i s).chan j = s.chan j) ∧
    (chStatUpdate i s).rfx.enabled = s.rfx.enabled :=
  ⟨State.chan_of_ch ((chStatUpdate_frame i s).same .ch (by decide)), by rw [(chStatUpdate_frame i s).same .rfx (by decide)]⟩

theorem statusUpdate_enabled (i : Nat) (m : Measure) (s : State) : (chStatUpdate (bridgeIdx i) (statusUpdate i m s)).rfx.enabled = s.rfx.enabled := by
  obtain ⟨_, enabled⟩ := chStatUpdate_kept (bridgeIdx i) (statusUpdate i m s)
  rw [enabled, (statusUpdate_frame i m s).same .rfx (by decide)]

end

/-- Settles O15: each report changes the channel that it names; while the engine is disabled a measurement takes no cycle of the rules. -/
theorem dieReportsActOnTheChannel : Obligations.DieReportsActOnTheChannel := by
  refine ⟨?open_, ?rests, ?valve, ?short, ?clear, ?hot, ?status, ?blind, ?eval, ?pwm, ?clamp⟩
  case open_ =>
    intro ch s supply runs watched
    obtain ⟨ol, _, olOn, others, frame⟩ := openLoad_leaves (bridgeIdx ch.val) true s
    exact ⟨_, congrArg Host.Outcome.next (openLoadOn_of_runs supply runs watched), ol, olOn.trans (Bool.or_true _), others, frame⟩
  case rests => exact fun ch s rests => congrArg Host.Outcome.next (openLoadOn_of_rest rests)
  case valve => exact fun ch s valve dry => congrArg Host.Outcome.next (openLoadOn_of_rest (openLoadRuns_of_valve valve dry))
  case short =>
    intro ch under s watched runs supply valve
    obtain ⟨t, is, tests⟩ := offTest_of_runs (highBefore := true) (under := under) watched runs supply (stb := true)
      (open_ := decide (400 ≤ under)) (by simp [valve]) (if_neg valve)
    have own : (t.chan (bridgeIdx ch.val)).grd.stb = true ∧ (∀ j, j ≠ bridgeIdx ch.val → t.chan j = s.chan j) ∧
        Frame [.ch, .mbx, .log, .vz] s t := by
      rw [is]
      have taken : Frame [.ch, .mbx, .log, .vz] s (stbTaken (bridgeIdx ch.val) true s) := (State.modChan_frame ..).mono (by decide)
      split
      · simp only [raiseCh_chan]
        refine ⟨?_, fun j other => State.modChan_other _ _ _ j other, Frame.via (raiseCh_frame ..) (by decide) taken⟩
        rw [stbTaken, State.modChan_same]
      · refine ⟨?_, fun j other => State.modChan_other _ _ _ j other, taken⟩
        rw [stbTaken, State.modChan_same]
    obtain ⟨stb, others, frame⟩ := own
    refine ⟨_, congrArg Host.Outcome.next tests, ?_⟩
    split
    next isOpen =>
      obtain ⟨ol, kept, _, rest, framed⟩ := openLoad_leaves (bridgeIdx ch.val) false t
      exact ⟨kept.trans stb, ol.trans isOpen.symm, fun j other => (rest j other).trans (others j other), frame.trans framed⟩
    next isOpen =>
      rw [State.modGuard_same]
      exact ⟨stb, (Bool.not_eq_true _ ▸ isOpen : _ = false).symm, fun j other => (State.modGuard_other _ _ _ other).trans (others j other),
        frame.trans ((State.modGuard_frame ..).mono (by decide))⟩
  case clear =>
    intro ch under s watched runs supply low
    obtain ⟨t, is, tests⟩ := offTest_of_runs (highBefore := false) (under := under) watched runs supply (stb := false) (open_ := false)
      rfl (by split <;> exact decide_eq_false (by omega))
    refine ⟨_, congrArg Host.Outcome.next (tests.trans (if_neg Bool.false_ne_true)), ?_⟩
    rw [is, Bool.false_and, if_neg Bool.false_ne_true]
    dsimp only
    rw [State.modGuard_same, stbTaken, State.modChan_same]
    exact ⟨rfl, rfl, (State.modChan_frame ..).trans (State.modGuard_frame ..)⟩
  case hot => exact fun ch s up => ⟨_, congrArg Host.Outcome.next (if_pos up), rfl, raise_frame ..⟩
  case status =>
    intro ch m s off senses
    obtain ⟨same, _⟩ := chStatUpdate_kept (bridgeIdx ch.val) (statusUpdate ch.val m s)
    refine ⟨_, congrArg Host.Outcome.next (evalRules_of_disabled ((statusUpdate_enabled ch.val m s).trans off)), ?_⟩
    simp only [same]
    exact statusUpdate_leaves m senses
  case blind =>
    intro ch m s off blind
    obtain ⟨same, _⟩ := chStatUpdate_kept (bridgeIdx ch.val) (statusUpdate ch.val m s)
    refine ⟨_, congrArg Host.Outcome.next (evalRules_of_disabled ((statusUpdate_enabled ch.val m s).trans off)), ?_⟩
    simp only [same]
    rw [statusUpdate_of_blind m blind, State.modChan_same]
    exact ⟨rfl, fun j other => State.modChan_other _ _ _ j other⟩
  case eval => exact fun ch m s => ⟨_, rfl, rfl⟩
  case pwm =>
    intro ch duty phase s runs
    obtain ⟨⟨watch, own⟩, others, _, frame⟩ := pwmEdge_leaves ch.val s
    have starts : pwmPeriod ch.val 0 s = (pwmEdge ch.val s).modChan ch.val (fun c => { c with pulse := pulseCycles c.prof.fPwm duty }) := by
      unfold pwmPeriod
      dsimp only
      rw [addClamp_of_none, own, runs]
    refine ⟨_, congrArg Host.Outcome.next starts, ?_, fun j other => (State.modChan_other _ _ _ j other).trans (others j other),
      frame.trans (State.modChan_frame ..)⟩
    rw [State.modChan_same, own]
  case clamp =>
    intro ch uj s sw some_
    obtain ⟨⟨watch, own⟩, _, _, frame⟩ := pwmEdge_leaves ch.val s
    have now : (pwmEdge ch.val s).now = s.now := congrArg (fun t : TimeState => t.count.toNat) (frame.same .tb (by decide))
    obtain ⟨sum, at_, locks, exceeds⟩ := addClamp_leaves (s := pwmEdge ch.val s) sw some_
    rw [own, now] at sum
    rw [now] at at_
    rw [pwmEdge_clampLocks] at locks
    refine ⟨_, rfl, ?_⟩
    unfold pwmPeriod
    dsimp only
    rw [State.modChan_same]
    refine ⟨sum, at_, fun active free over_ => locks ?_, exceeds⟩
    simp [State.clampLocks, active, free, over_]

end Sys2Proof.Machine
end

section
/-! PROOF. Load limits and orphans (R93, R119). -/

namespace Sys2Proof.Machine

/-! ### Tables -/

theorem Tbl.getD_updateKeys_of_notMem {α : Type} (t : Tbl α) (d : α) {ks : List Nat} (f : Nat → α → α) {k : Nat} (out : k ∉ ks) :
    (t.updateKeys d ks f).getD d k = t.getD d k :=
  foldl_kept (fun t : Tbl α => t.getD d k) (fun _ _ h => Tbl.getD_set_other _ _ _ _ _ fun same => out (same ▸ h)) t

/-- Each named key is changed once. -/
theorem Tbl.getD_updateKeys_of_mem {α : Type} (t : Tbl α) (d : α) {ks : List Nat} (once : ks.Nodup) (f : Nat → α → α) {k : Nat} (named : k ∈ ks) :
    (t.updateKeys d ks f).getD d k = f k (t.getD d k) := by
  induction ks generalizing t with
  | nil => exact absurd named List.not_mem_nil
  | cons x r ih =>
    obtain ⟨fresh, rest⟩ := List.nodup_cons.mp once
    obtain rfl | later := List.mem_cons.mp named
    · exact (Tbl.getD_updateKeys_of_notMem (t.set k (f k (t.getD d k))) d f fresh).trans (Tbl.getD_set_same ..)
    · have other : k ≠ x := fun same => fresh (same ▸ later)
      exact (ih (t.set x (f x (t.getD d x))) rest later).trans (by rw [Tbl.getD_set_other _ _ _ _ _ other])

theorem allDies_nodup : allDies.Nodup := List.nodup_range

/-! ### What a shed leaves -/

/-- What a power-die state notes of its load limits. -/
def ChanState.limits (cs : ChanState) : List Nat × Bool := (cs.groupOver, cs.lossOver)

theorem applyOut_limits (s : State) (cs : ChanState) (i : Nat) : (applyOut s cs i).limits = cs.limits := by
  unfold applyOut
  dsimp only
  split <;> rfl

theorem gateHeld_limits (s : State) (cs : ChanState) (i : Nat) : (gateHeld s cs i).limits = cs.limits := by
  unfold gateHeld
  dsimp only
  split
  · rfl
  · split
    · split <;> rfl
    · split <;> rfl

theorem applyDie_limits (s : State) (cs : ChanState) (g : Nat) : (applyDie s cs g).limits = cs.limits := by
  unfold applyDie
  dsimp only
  refine (foldl_kept (fun cs : ChanState => cs.limits) (fun cs o _ => ?_) _).trans rfl
  split
  · exact gateHeld_limits ..
  · exact applyOut_limits ..

theorem urgentDie_limits (g : Nat) (s : State) : (urgentDie g s).ch.limits = s.ch.limits := by
  unfold urgentDie
  cases s.dieHears g
  · rfl
  · rw [if_pos rfl, applyDie_limits]

theorem shedOne_limits (cause i : Nat) (s : State) : (shedOne cause i s).ch.limits = s.ch.limits := by
  unfold shedOne
  dsimp only
  rw [raiseCh_ch, urgentDie_limits]
  rfl

theorem shedAll_limits (cause : Nat) (is : List Nat) (s : State) : (shedAll cause is s).ch.limits = s.ch.limits :=
  foldl_kept (fun s : State => s.ch.limits) (fun s i _ => shedOne_limits cause i s) s

theorem shedGroup_limits (s : State) (g : Nat) : (shedGroup s g).ch.limits = s.ch.limits := shedAll_limits ..

theorem shedModule_limits (s : State) : (shedModule s).ch.limits = s.ch.limits := shedAll_limits ..

/-- A channel that is shed for a cause. -/
def Shed (cause : Nat) (s : State) (i : Nat) : Prop := (s.chan i).shed = some cause ∧ (s.chan i).flags.shed = true

theorem shedOne_own (cause i : Nat) (s : State) : Shed cause (shedOne cause i s) i := by
  have kept := urgentDie_keeps (i / 14) (s.modChan i (fun c => { c with shed := some cause, cause := cause, flags := { c.flags with shed := true } })) i
  rw [State.modChan_same] at kept
  unfold Shed shedOne
  rw [raiseCh_chan]
  exact ⟨kept.shed, kept.shedFlag⟩

theorem shedOne_keeps (cause i j : Nat) (s : State) (h : Shed cause s j) : Shed cause (shedOne cause i s) j := by
  by_cases same : j = i
  · rw [same]
    exact shedOne_own ..
  · have kept := urgentDie_keeps (i / 14) (s.modChan i (fun c => { c with shed := some cause, cause := cause, flags := { c.flags with shed := true } })) j
    rw [State.modChan_other _ _ _ j same] at kept
    obtain ⟨shed, flag⟩ := h
    unfold Shed shedOne
    rw [raiseCh_chan]
    exact ⟨kept.shed.trans shed, kept.shedFlag.trans flag⟩

theorem shedAll_sheds (cause : Nat) (is : List Nat) (s : State) : ∀ i ∈ is, Shed cause (shedAll cause is s) i :=
  foldl_establishes (Shed cause) (f := fun s i => shedOne cause i s) (fun s i => shedOne_own cause i s) (fun s i j => shedOne_keeps cause i j s) is s

theorem shedGroup_sheds (s : State) (g : Nat) : ∀ i ∈ s.shedPick (groupChans g) (s.ch.groupNext.getD 0 g), Shed 9 (shedGroup s g) i :=
  shedAll_sheds 9 _ _

theorem shedModule_sheds (s : State) : ∀ i ∈ s.shedPick (List.range 112) s.ch.lossNext, Shed 10 (shedModule s) i :=
  shedAll_sheds 10 _ _

/-! ### The load check and the shed step -/

section
variable {s : State}

/-- The state in which a load check has noted the limits exceeded, before a shed. -/
def loadNoted (s : State) : State :=
  let s := loadSample s
  { s with ch := { s.ch with
    groupOver := s.ch.overGroups, lossOver := s.overLoss
    groupNext := s.ch.groupNext.updateKeys 0 (s.ch.overGroups.filter (fun g => !s.ch.groupOver.contains g)) (fun _ _ => 0)
    lossNext := if s.overLoss && !s.ch.lossOver then 0 else s.ch.lossNext } }

theorem loadCheck_eq (s : State) : loadCheck s =
    let t := (((loadSample s).ch.overGroups).filter (fun g => !(loadSample s).ch.groupOver.contains g)).foldl shedGroup (loadNoted s)
    if (loadSample s).overLoss && !(loadSample s).ch.lossOver then shedModule t else t := rfl

theorem loadCheck_limits (s : State) : (loadCheck s).ch.limits = ((loadSample s).ch.overGroups, (loadSample s).overLoss) := by
  have groups : ∀ (l : List Nat) (s : State), (l.foldl shedGroup s).ch.limits = s.ch.limits := fun l s =>
    foldl_kept (fun s : State => s.ch.limits) (fun s g _ => shedGroup_limits s g) s
  rw [loadCheck_eq]
  dsimp only
  split
  · rw [shedModule_limits, groups]
    rfl
  · rw [groups]
    rfl

theorem loadCheck_of_loss (over_ : (loadSample s).overLoss = true) (new : s.ch.lossOver = false) (groups : (loadSample s).ch.overGroups = []) :
    loadCheck s = shedModule (loadNoted s) := by
  have new' : (loadSample s).ch.lossOver = false := new
  rw [loadCheck_eq, groups, over_, new']
  rfl

theorem loadNoted_pick (over_ : (loadSample s).overLoss = true) (new : s.ch.lossOver = false) :
    (loadNoted s).shedPick (List.range 112) (loadNoted s).ch.lossNext = s.shedPick (List.range 112) 0 := by
  have next : (loadNoted s).ch.lossNext = 0 := if_pos (by
    rw [over_, show (loadSample s).ch.lossOver = false from new]
    rfl)
  rw [next]
  rfl

theorem shedAgain_of_group {g : Nat} (groups : s.ch.groupOver = [g]) (loss : s.ch.lossOver = false) : shedAgain s = shedGroup s g := by
  have loss' : (shedGroup s g).ch.lossOver = false := (congrArg Prod.snd (shedGroup_limits s g)).trans loss
  unfold shedAgain
  rw [groups]
  exact if_neg (by rw [List.foldl_cons, List.foldl_nil, loss']; decide)

theorem shedAgain_of_loss (groups : s.ch.groupOver = []) (loss : s.ch.lossOver = true) : shedAgain s = shedModule s := by
  unfold shedAgain
  rw [groups]
  exact if_pos loss

theorem shedAgain_of_none (groups : s.ch.groupOver = []) (loss : s.ch.lossOver = false) : shedAgain s = s := by
  unfold shedAgain
  rw [groups]
  exact if_neg (by rw [List.foldl_nil, loss]; decide)

theorem orphanEnd_of_orphan {i : Nat} (orphan : (s.chan i).orphan.isSome = true) (ends : (s.chan i).prof.tOrph ≠ 0) :
    ((orphanEnd i s).chan i).orphan = none ∧ ((orphanEnd i s).chan i).sw.out = .off ∧ Frame [.ch] s (orphanEnd i s) := by
  have framed := orphanEnd_frame i s
  have kept := urgentDie_keeps (i / 14) (s.modChan i (fun c => { c with orphan := none, sw := .off })) i
  rw [State.modChan_same] at kept
  unfold orphanEnd at framed ⊢
  rw [if_pos (by simp [orphan, ends])] at framed ⊢
  exact ⟨kept.orphan, congrArg SwCmd.out kept.sw, framed⟩

end

theorem loadSample_leaves (g : Fin 8) (s : State) :
    (loadSample s).ch.groupHist.getD [] g.val = keepNewest 1000 (s.groupMa g.val :: s.ch.groupHist.getD [] g.val) :=
  Tbl.getD_updateKeys_of_mem s.ch.groupHist [] allDies_nodup (fun g l => keepNewest 1000 (s.groupMa g :: l)) (List.mem_range.mpr g.isLt)

/-- Settles O16: a step sheds each channel that it picks (`shedAll_sheds`) and leaves the limits noted (`shedAll_limits`). -/
theorem loadLimitsShedChannels : Obligations.LoadLimitsShedChannels := by
  refine ⟨?sample, ?check, ?loss, ?group, ?module_, ?none_, ?orphan, ?forever, ?noOrphan⟩
  case sample => exact fun g s => ⟨loadSample_leaves g s, rfl, Frame.set_ch (Frame.refl ..) (by decide)⟩
  case check =>
    intro s runs up
    have limits := loadCheck_limits s
    exact ⟨_, congrArg Host.Outcome.next (if_pos (by rw [runs, up]; rfl)), congrArg Prod.fst limits, congrArg Prod.snd limits,
      (loadCheck_frame s).mono (by decide)⟩
  case loss =>
    intro s runs up over_ new groups
    refine ⟨_, congrArg Host.Outcome.next ((if_pos (by rw [runs, up]; rfl)).trans (loadCheck_of_loss over_ new groups)), ?_⟩
    rw [← loadNoted_pick over_ new]
    exact shedModule_sheds _
  case group =>
    intro g s runs up groups loss
    exact ⟨_, congrArg Host.Outcome.next ((if_pos (by rw [runs, up]; rfl)).trans (shedAgain_of_group groups loss)), shedGroup_sheds s g,
      (shedGroup_frame s g).mono (by decide)⟩
  case module_ =>
    intro s runs up groups loss
    exact ⟨_, congrArg Host.Outcome.next ((if_pos (by rw [runs, up]; rfl)).trans (shedAgain_of_loss groups loss)), shedModule_sheds s,
      (shedModule_frame s).mono (by decide)⟩
  case none_ =>
    intro s groups loss
    show Host.Outcome.next (if s.sys.mode.isRunLimpWork && s.mgrUp then shedAgain s else s) = .next s
    rw [shedAgain_of_none groups loss, ite_self]
  case orphan => exact fun ch s orphan ends => ⟨_, rfl, orphanEnd_of_orphan orphan ends⟩
  case forever => exact fun ch s never => congrArg Host.Outcome.next (if_neg (by simp [never]))
  case noOrphan => exact fun ch s free => congrArg Host.Outcome.next (if_neg (by simp [free]))

end Sys2Proof.Machine
end

section
/-! PROOF. Events of half-bridges and valves (R129, R130, R133, R135, R136, R138 to R143). -/

namespace Sys2Proof.Machine

/-! ### Bridges and valves after a change -/

theorem State.bridge_of_ch {s t : State} (same : t.ch = s.ch) (b : Nat) : t.bridge b = s.bridge b := by
  rw [State.bridge, same]
  rfl

theorem State.valve_of_ch {s t : State} (same : t.ch = s.ch) (k : Nat) : t.valve k = s.valve k := by
  rw [State.valve, same]
  rfl

@[simp] theorem raiseCh_bridge (k : EvKind) (i : Nat) (data : List Byte) (s : State) (b : Nat) :
    (raiseCh k i data s).bridge b = s.bridge b := State.bridge_of_ch (raiseCh_ch ..) b

@[simp] theorem raiseCh_valve (k : EvKind) (i : Nat) (data : List Byte) (s : State) (v : Nat) :
    (raiseCh k i data s).valve v = s.valve v := State.valve_of_ch (raiseCh_ch ..) v

@[simp] theorem State.modChan_bridge (s : State) (i : Nat) (f : Chan → Chan) (b : Nat) : (s.modChan i f).bridge b = s.bridge b := rfl

@[simp] theorem State.modChan_valve (s : State) (i : Nat) (f : Chan → Chan) (k : Nat) : (s.modChan i f).valve k = s.valve k := rfl

theorem Bridge.goes_drive (x : Bridge) (code now : Nat) : (x.goes code now).drive = code := by
  unfold Bridge.goes
  split
  case isTrue same => exact same
  case isFalse => rfl

/-- A change of the drive touches neither the position nor the ways of counting. -/
theorem Bridge.goes_counts (x : Bridge) (code now : Nat) : (x.goes code now).pos = x.pos ∧ (x.goes code now).forward = x.forward ∧
    (x.goes code now).posValid = x.posValid ∧ (x.goes code now).forcedCoast = x.forcedCoast := by
  unfold Bridge.goes
  split
  · exact ⟨rfl, rfl, rfl, rfl⟩
  · exact ⟨rfl, rfl, rfl, rfl⟩

/-! ### Half-bridges -/

section
variable {b : Nat} {s : State}

theorem reversalEnd_of_reversing {code duty phase : Nat} (reversing : (s.bridge b).reversing = true)
    (next : (s.bridge b).nextDrive = some (.drive code duty phase)) :
    reversalEnd b s = (s.modBridge b (fun x => { x.goes code s.now with
      reversing := false, nextDrive := none, inserted := 0, rejected := 0, runon := false, stopped := false })).modChan (brChan b)
        (fun c => { c with grd := { c.grd with inrush := true } }) := by
  unfold reversalEnd
  dsimp only
  rw [reversing, next]
  rfl

theorem reversalEnd_of_still (still : (s.bridge b).reversing = false) : reversalEnd b s = s := by
  unfold reversalEnd
  dsimp only
  rw [still]
  rfl

/-- What the stop state of a bridge leaves: coast after a trip that forced it, else the stop drive (R132, R133). -/
theorem bridgeStop_leaves (cause : Option Nat) : ((bridgeStop b cause s).chan (brChan b)).out = .off ∧
    ((bridgeStop b cause s).chan (brChan b)).cause = cause.getD (s.chan (brChan b)).cause ∧
    ((bridgeStop b cause s).bridge b).drive = (if (s.bridge b).forcedCoast then 4 else 0) ∧
    ((bridgeStop b cause s).bridge b).stopped = true ∧ ((bridgeStop b cause s).bridge b).posValid = (s.bridge b).posValid := by
  unfold bridgeStop
  dsimp only
  rw [State.modBridge_chan, State.modChan_same, State.modBridge_same, State.modChan_bridge]
  exact ⟨rfl, rfl, Bridge.goes_drive .., rfl, (Bridge.goes_counts ..).2.2.1⟩

theorem Bridge.driving_iff {x : Bridge} : x.driving = true ↔ x.drive = 1 ∨ x.drive = 2 := by
  rw [Bridge.driving, Bool.or_eq_true, decide_eq_true_iff, decide_eq_true_iff]

theorem stallDetect_of_stalled (enabled : (s.chan (brChan b)).prof.hb.stallEn = true) (drives : (s.bridge b).drive = 1 ∨ (s.bridge b).drive = 2)
    (fresh : (s.bridge b).stall = false) (senses : s.senses b = true) :
    stallDetect b s = raiseCh evt_hbStall (brChan b) [] (State.modBridge
      (if (s.chan (brChan b)).prof.hb.stallReport then s else bridgeStop b (some 13) s) b (fun x => { x with stall := true })) := by
  unfold stallDetect
  dsimp only
  rw [enabled, Bridge.driving_iff.mpr drives, fresh, senses]
  rfl

/-- A bridge that counts, rejects or supplements a ripple as it is judged (R138, R139). -/
def Bridge.counted (x : Bridge) (j : Nat × Bool × Nat) (fwd : Bool) (hist : List Nat) (now : Nat) : Bridge :=
  { x with pos := if fwd then x.pos + BitVec.ofNat 32 j.1 else x.pos - BitVec.ofNat 32 j.1, forward := fwd, intervals := hist,
           rejected := x.rejected + bit j.2.1, inserted := x.inserted + j.2.2,
           lastRipple := if j.2.1 then x.lastRipple else some now }

/-- The state after a ripple is judged, before a lost position and the target count. -/
def rippleJudged (b : Nat) (j : Nat × Bool × Nat) (fwd : Bool) (hist : List Nat) (s : State) : State :=
  s.modBridge b (fun x => x.counted j fwd hist s.now)

/-- The position is lost after more than eight ripples supplemented or rejected in a motion (R140). -/
def rippleKept (b : Nat) (t : State) : State := if 8 < (t.bridge b).inserted + (t.bridge b).rejected then losePos b t else t

/-- The bridge stops at its target (R141). -/
def targetTaken (b : Nat) (t : State) : State :=
  match (t.chan (brChan b)).targetOf (t.chan (brChan b)).src with
  | some (code, tgt) =>
    if !(t.chan (brChan b)).out.isOff && (t.bridge b).posValid && targetStops (t.bridge b) code tgt then
      raiseCh evt_hbTarget (brChan b) (le32 (((bridgeStop b none t).modBridge b (fun x => { x with atTarget := true })).bridge b).pos)
        ((bridgeStop b none t).modBridge b (fun x => { x with atTarget := true }))
    else t
  | none => t

theorem targetTaken_of_none {t : State} (none_ : (t.chan (brChan b)).targetOf (t.chan (brChan b)).src = none) : targetTaken b t = t := by
  unfold targetTaken
  rw [none_]

theorem targetTaken_of_lost {t : State} (lost : (t.bridge b).posValid = false) : targetTaken b t = t := by
  unfold targetTaken
  split
  · refine if_neg ?_
    rw [lost, Bool.and_false, Bool.false_and]
    exact Bool.false_ne_true
  · rfl

theorem losePos_lost (valid : (s.bridge b).posValid = true) : ((losePos b s).bridge b).posValid = false := by
  unfold losePos
  rw [if_pos valid]
  dsimp only
  rw [raiseCh_bridge]
  split
  · rw [State.modBridge_same, State.modChan_bridge, State.modBridge_same]
    exact (Bridge.goes_counts ..).2.2.1
  · rw [State.modBridge_same]

section
variable {interval : Nat} (enabled : (s.chan (brChan b)).prof.hb.rippleEn = true) (moves : (s.bridge b).moving = true)
  (senses : s.senses b = true) {j : Nat × Bool × Nat}
  (judged : judge (s.bridge b).intervals interval (s.chan (brChan b)).prof.hb.fRipMin = j)
  (quick : interval * (s.chan (brChan b)).prof.hb.fRipMin < 1000000)
include enabled moves senses judged quick

theorem ripple_of_moving : ∃ hist, ripple b interval s = targetTaken b (rippleKept b (rippleJudged b j (s.bridge b).forward hist s)) := by
  have counts : (!(s.chan (brChan b)).prof.hb.rippleEn || !(s.bridge b).moving || !s.senses b) = false := by
    rw [enabled, moves, senses]
    rfl
  unfold ripple
  dsimp only
  rw [counts, judged, decide_eq_false (Nat.not_le.mpr quick)]
  exact ⟨_, rfl⟩

/-- A ripple that costs no position and has no target only counts. -/
theorem ripple_of_counted (few : (s.bridge b).inserted + j.2.2 + ((s.bridge b).rejected + bit j.2.1) ≤ 8)
    (free : (s.chan (brChan b)).targetOf (s.chan (brChan b)).src = none) :
    ∃ hist, ripple b interval s = rippleJudged b j (s.bridge b).forward hist s := by
  obtain ⟨hist, is⟩ := ripple_of_moving enabled moves senses judged quick
  have kept : rippleKept b (rippleJudged b j (s.bridge b).forward hist s) = rippleJudged b j (s.bridge b).forward hist s := by
    unfold rippleKept
    refine if_neg (Nat.not_lt.mpr ?_)
    rw [rippleJudged, State.modBridge_same]
    exact few
  exact ⟨hist, by rw [is, kept]; exact targetTaken_of_none free⟩

theorem ripple_of_lost (many : 8 < (s.bridge b).inserted + j.2.2 + ((s.bridge b).rejected + bit j.2.1))
    (valid : (s.bridge b).posValid = true) : ((ripple b interval s).bridge b).posValid = false := by
  obtain ⟨hist, is⟩ := ripple_of_moving enabled moves senses judged quick
  have loses : rippleKept b (rippleJudged b j (s.bridge b).forward hist s) = losePos b (rippleJudged b j (s.bridge b).forward hist s) := by
    unfold rippleKept
    refine if_pos ?_
    rw [rippleJudged, State.modBridge_same]
    exact many
  have lost : ((losePos b (rippleJudged b j (s.bridge b).forward hist s)).bridge b).posValid = false := by
    refine losePos_lost ?_
    rw [rippleJudged, State.modBridge_same]
    exact valid
  rw [is, loses, targetTaken_of_lost lost, lost]

end

theorem ripple_of_unserved {interval : Nat}
    (unserved : (s.chan (brChan b)).prof.hb.rippleEn = false ∨ (s.bridge b).moving = false ∨ s.senses b = false) : ripple b interval s = s := by
  have skips : (!(s.chan (brChan b)).prof.hb.rippleEn || !(s.bridge b).moving || !s.senses b) = true := by
    obtain off | still | blind := unserved
    · rw [off]; rfl
    · rw [still]; simp
    · rw [blind]; simp
  unfold ripple
  dsimp only
  rw [if_pos skips]

theorem uncounted_of_still (one : (s.bridge b).drive ≠ 1) (two : (s.bridge b).drive ≠ 2) (run : (s.bridge b).runon = false)
    (brakes : (s.bridge b).reversing = false) (senses : s.senses b = true) : uncounted b s = losePos b s := by
  unfold uncounted
  dsimp only
  rw [Bridge.driving, decide_eq_false one, decide_eq_false two, run, brakes, senses]
  rfl

theorem uncounted_of_runon (run : (s.bridge b).runon = true) : uncounted b s = s := by
  unfold uncounted
  dsimp only
  rw [run, Bool.or_true]
  rfl

end

/-! ### Valves -/

theorem chClass_vlvChan (k : Nat) : chClass (vlvChan k) = .valve := by
  have big : 12 ≤ vlvChan k % 14 := by unfold vlvChan; omega
  unfold chClass
  dsimp only
  repeat rw [if_neg (by omega)]

theorem chanVlv_vlvChan (k : Nat) : chanVlv (vlvChan k) = k := by
  unfold chanVlv vlvChan
  omega

section
variable {k : Nat} {s : State}

theorem chanOff_vlvChan_valve (src : Nat) : (chanOff (vlvChan k) src s).valve k = (s.valve k).off := by
  unfold chanOff State.valve offIn
  dsimp only
  rw [chClass_vlvChan]
  unfold putValve
  rw [chanVlv_vlvChan]
  exact Tbl.getD_modify_same ..

theorem chanOff_out (i src : Nat) (s : State) : ((chanOff i src s).chan i).out = .off := offIn_out s.ch i s src

/-- The block that a period regulates with: a new dither setting at its period (R143). -/
def periodBlk (k : Nat) (s : State) : VlvBlock :=
  if (s.valve k).dithStart (s.chan (vlvChan k)).prof.vlv s.now then (s.valve k).newDither.getD (s.chan (vlvChan k)).prof.vlv
  else (s.chan (vlvChan k)).prof.vlv

/-- The channel of a valve after a period. -/
def Chan.periodTaken (c : Chan) (blk : VlvBlock) (now : Nat) (ceil : Bool) : Chan :=
  { c with prof := { c.prof with vlv := blk }, grd := c.grd.limit now ceil }

/-- What one period leaves of its valve (R135, R142, R143). -/
structure PeriodDone (k : Nat) (m : ValveMeasure) (s t : State) : Prop where
  chan : t.chan (vlvChan k) = (s.chan (vlvChan k)).periodTaken (periodBlk k s) s.now m.ceil
  others : ∀ j, j ≠ vlvChan k → t.chan j = s.chan j
  valves : ∀ j, j ≠ k → t.valve j = s.valve j
  target : (t.valve k).target = (s.chan (vlvChan k)).setPoint
  duty : (t.valve k).duty ≤ 10000
  sat : (t.valve k).sat = decide ((t.valve k).duty = 10000)
  ceil : (t.valve k).ceil = m.ceil
  err : (t.valve k).err = ((periodBlk k s).mean (s.chan (vlvChan k)).setPoint : Int) - (m.ma : Int)
  integ : (s.valve k).compliance = true → (t.valve k).integ = (s.valve k).integ
  newDither : (t.valve k).newDither =
    if (s.valve k).dithStart (s.chan (vlvChan k)).prof.vlv s.now then none else (s.valve k).newDither
  frame : Frame [.ch, .free] s t

theorem valvePeriod_done (m : ValveMeasure) (on_ : (s.chan (vlvChan k)).out.isOff = false) : PeriodDone k m s (valvePeriod k m s) := by
  have frame := (valvePeriod_frame k m s).mono (w := [.ch, .free]) (by decide)
  unfold valvePeriod at frame ⊢
  rw [if_neg (by rw [on_]; exact Bool.false_ne_true)] at frame ⊢
  dsimp only at frame ⊢
  refine ⟨?_, fun j other => State.modChan_other _ _ _ j other, fun j other => State.modValve_other _ _ _ j other, ?_, ?_, ?_, ?_, ?_, ?_, ?_, frame⟩
  case refine_1 => exact (State.modChan_same ..).trans rfl
  all_goals rw [State.modValve_same]
  case refine_3 => exact Nat.min_le_left ..
  case refine_7 => exact fun frozen => if_pos frozen
  all_goals rfl

theorem valvePeriod_of_off (m : ValveMeasure) (off : (s.chan (vlvChan k)).out.isOff = true) : valvePeriod k m s = s := by
  unfold valvePeriod
  dsimp only
  rw [if_pos off]

/-- A valve in compliance (R135). -/
def complianceNoted (k : Nat) (s : State) : State := s.modValve k (fun v =>
  { v with compliance := true, compCount := satInc 0xFFFF v.compCount, compOff := (s.chan (vlvChan k)).prof.vlv.compOff })

theorem complianceSet_of_saturated {gotMa setMa : Nat} (on_ : (s.chan (vlvChan k)).out.isOff = false) (fresh : (s.valve k).compliance = false)
    (sat : (s.valve k).sat = true) (mean : setMa = (s.chan (vlvChan k)).prof.vlv.mean (s.chan (vlvChan k)).setPoint)
    (low : 100 * gotMa + 5 * setMa < 100 * setMa) (loaded : (s.chan (vlvChan k)).prof.openLoad .valve * 10 ≤ gotMa) :
    ∃ data, complianceSet k gotMa s =
      if (s.chan (vlvChan k)).prof.vlv.compOff then
        (chanOff (vlvChan k) (s.chan (vlvChan k)).src (raiseCh evt_vlvCompliance (vlvChan k) data (complianceNoted k s))).modChan (vlvChan k)
          (fun c => { c with cause := 12 })
      else raiseCh evt_vlvCompliance (vlvChan k) data (complianceNoted k s) := by
  subst mean
  unfold complianceSet
  dsimp only
  rw [on_, fresh, sat, decide_eq_true low, decide_eq_false (Nat.not_lt.mpr loaded)]
  exact ⟨_, rfl⟩

theorem complianceSet_of_met {gotMa : Nat} (met : (s.valve k).sat = false ∨
    95 * (s.chan (vlvChan k)).prof.vlv.mean (s.chan (vlvChan k)).setPoint ≤ 100 * gotMa) : complianceSet k gotMa s = s := by
  unfold complianceSet
  dsimp only
  refine if_pos ?_
  obtain free | near := met
  · rw [free]
    simp
  · rw [decide_eq_false (p := _ < _) (by omega)]
    simp

theorem complianceClear_of_set (set_ : (s.valve k).compliance = true) (on_ : (s.valve k).compOff = false) : complianceClear k s =
    raiseCh evt_vlvComplianceEnd (vlvChan k) [] (s.modValve k (fun v => { v with compliance := false })) := by
  unfold complianceClear
  rw [set_, on_]
  rfl

theorem complianceClear_of_off (off : (s.valve k).compOff = true) : complianceClear k s = s := by
  unfold complianceClear
  rw [off, Bool.not_true, Bool.and_false]
  rfl

end

theorem Chan.setPoint_of_regulate {c : Chan} {ma : Nat} (regulates : c.out = .regulate ma) : c.setPoint = ma := by
  rw [Chan.setPoint, regulates]

/-- Settles O17: each event is one rule of its bridge or valve; the position is lost at the ninth ripple that is not counted plainly
(log entry 49), and the duty and the integrator of a period are free values (log entry 50). -/
theorem bridgeAndValveEventsAct : Obligations.BridgeAndValveEventsAct := by
  refine ⟨?reversal, ?noReversal, ?stallStops, ?stallReports, ?counts, ?rejects, ?loses, ?unserved, ?runon, ?uncounted, ?counting,
    ?period, ?dither, ?periodOff, ?comply, ?complied, ?clears, ?stays⟩
  case reversal =>
    intro br code duty phase s reversing next
    have is := reversalEnd_of_reversing reversing next
    refine ⟨_, congrArg Host.Outcome.next is, ?_⟩
    dsimp only
    rw [State.modChan_bridge, State.modBridge_same, State.modChan_same]
    obtain ⟨pos, forward, -, -⟩ := Bridge.goes_counts (s.bridge br.val) code s.now
    exact ⟨Bridge.goes_drive .., rfl, rfl, pos, forward, rfl, is ▸ (reversalEnd_frame br.val s).mono (by decide)⟩
  case noReversal => exact fun br s still => congrArg Host.Outcome.next (reversalEnd_of_still still)
  case stallStops =>
    intro br s enabled stops drives fresh senses
    have is := stallDetect_of_stalled enabled drives fresh senses
    rw [if_neg (by rw [stops]; exact Bool.false_ne_true)] at is
    obtain ⟨out, cause, drive, stopped, -⟩ := bridgeStop_leaves (b := br.val) (s := s) (some 13)
    refine ⟨_, congrArg Host.Outcome.next is, ?_⟩
    dsimp only
    rw [raiseCh_bridge, State.modBridge_same, raiseCh_chan, State.modBridge_chan]
    exact ⟨rfl, drive, stopped, out, cause, is ▸ (stallDetect_frame br.val s).mono (by decide)⟩
  case stallReports =>
    intro br s enabled reports drives fresh senses
    have is := stallDetect_of_stalled enabled drives fresh senses
    rw [if_pos reports] at is
    refine ⟨_, congrArg Host.Outcome.next is, ?_⟩
    dsimp only
    rw [raiseCh_bridge, State.modBridge_same]
    exact ⟨rfl, rfl, fun j => by rw [raiseCh_chan, State.modBridge_chan], is ▸ (stallDetect_frame br.val s).mono (by decide)⟩
  case counts =>
    intro br interval s enabled moves senses judged quick few free
    obtain ⟨hist, is⟩ := ripple_of_counted enabled moves senses judged quick few free
    refine ⟨_, congrArg Host.Outcome.next is, ?_⟩
    dsimp only
    rw [rippleJudged, State.modBridge_same]
    exact ⟨rfl, rfl, rfl, fun j => rfl, State.modBridge_frame ..⟩
  case rejects =>
    intro br interval s enabled moves senses judged quick few free
    obtain ⟨hist, is⟩ := ripple_of_counted enabled moves senses judged quick (show (s.bridge br.val).inserted + 0 + (_ + 1) ≤ 8 by omega) free
    refine ⟨_, congrArg Host.Outcome.next is, ?_⟩
    dsimp only
    rw [rippleJudged, State.modBridge_same]
    refine ⟨?_, rfl, rfl, State.modBridge_frame ..⟩
    show (if _ then (s.bridge br.val).pos + 0#32 else (s.bridge br.val).pos - 0#32) = (s.bridge br.val).pos
    rw [BitVec.add_zero, BitVec.sub_zero, ite_self]
  case loses =>
    intro br interval s enabled moves senses judged quick eight valid
    exact ⟨_, rfl, ripple_of_lost enabled moves senses judged quick (show 8 < (s.bridge br.val).inserted + 0 + (_ + 1) by omega) valid⟩
  case unserved => exact fun br interval s unserved => congrArg Host.Outcome.next (ripple_of_unserved unserved)
  case runon =>
    intro br s
    refine ⟨_, rfl, ?_⟩
    dsimp only
    rw [State.modBridge_same]
    exact ⟨rfl, rfl, rfl, fun j => rfl, State.modBridge_frame ..⟩
  case uncounted =>
    intro br s one two run brakes senses valid
    have is := uncounted_of_still one two run brakes senses
    exact ⟨_, congrArg Host.Outcome.next is, losePos_lost valid, (losePos_frame ..).mono (by decide)⟩
  case counting => exact fun br s run => congrArg Host.Outcome.next (uncounted_of_runon run)
  case period =>
    intro vlv m ma s regulates same
    have done := valvePeriod_done (k := vlv.val) m (by rw [regulates]; rfl)
    have blk : periodBlk vlv.val s = (s.chan (vlvChan vlv.val)).prof.vlv := if_neg (by rw [same]; exact Bool.false_ne_true)
    have point := Chan.setPoint_of_regulate regulates
    refine ⟨_, rfl, done.target.trans point, done.duty, done.sat, done.ceil, ?_, done.integ, ?_, ?_, done.others, done.valves, done.frame⟩
    · rw [done.err, blk, point]
    · rw [done.chan, blk]
      rfl
    · rw [done.chan]
      exact regulates
  case dither =>
    intro vlv m blk s on_ starts waits
    have done := valvePeriod_done (k := vlv.val) m on_
    have is : periodBlk vlv.val s = blk := (if_pos starts).trans (by rw [waits]; rfl)
    refine ⟨_, rfl, ?_, done.newDither.trans (if_pos starts), done.frame⟩
    rw [done.chan, is]
    rfl
  case periodOff => exact fun vlv m s off => congrArg Host.Outcome.next (valvePeriod_of_off m off)
  case comply =>
    intro vlv setMa gotMa s on_ fresh sat mean low loaded
    have frame := (complianceSet_frame vlv.val gotMa s).mono (w := [.ch, .mbx, .log, .vz]) (by decide)
    obtain ⟨data, is⟩ := complianceSet_of_saturated on_ fresh sat mean low loaded
    refine ⟨_, rfl, ?_⟩
    change (((complianceSet vlv.val gotMa s).valve vlv.val).compliance = true ∧ ((complianceSet vlv.val gotMa s).valve vlv.val).compCount = _ ∧ _ ∧ _ ∧ _)
    cases off : (s.chan (vlvChan vlv.val)).prof.vlv.compOff
    case false =>
      rw [if_neg (by rw [off]; exact Bool.false_ne_true)] at is
      rw [is] at frame ⊢
      rw [raiseCh_valve, complianceNoted, State.modValve_same]
      exact ⟨rfl, rfl, fun h => absurd h Bool.false_ne_true, fun _ j => raiseCh_chan .., frame⟩
    case true =>
      rw [if_pos off] at is
      rw [is] at frame ⊢
      rw [State.modChan_valve, chanOff_vlvChan_valve, raiseCh_valve, complianceNoted, State.modValve_same, State.modChan_same]
      refine ⟨?_, rfl, fun _ => ⟨chanOff_out .., rfl⟩, fun h => absurd h.symm Bool.false_ne_true, frame⟩
      exact off
  case complied => exact fun vlv gotMa s met => congrArg Host.Outcome.next (complianceSet_of_met met)
  case clears =>
    intro vlv s set_ on_
    have is := complianceClear_of_set set_ on_
    refine ⟨_, congrArg Host.Outcome.next is, ?_, fun j => raiseCh_chan .., is ▸ (complianceClear_frame vlv.val s).mono (by decide)⟩
    rw [raiseCh_valve, State.modValve_same]
  case stays => exact fun vlv s off => congrArg Host.Outcome.next (complianceClear_of_off off)

end Sys2Proof.Machine
end

section
/-! PROOF. The supply hand-over of the power bridge (R18, R94, R155 to R168, R175, Tables 6.3 and 6.4). -/

namespace Sys2Proof.Machine

/-! ### The supply of a die under urgent frames and a released role -/

theorem applyDie_supply (s : State) (cs : ChanState) (g h : Nat) :
    ((applyDie s cs g).dies.getD .reset h).supply = (cs.dies.getD .reset h).supply := by
  rw [applyDie_dies]
  by_cases same : h = g
  · rw [same, ChanState.modDie_same]
    rfl
  · rw [ChanState.modDie_other _ _ _ same]

theorem urgent_supply (s : State) (h : Nat) : ((urgent s).die h).supply = (s.die h).supply :=
  foldl_kept (fun cs : ChanState => (cs.dies.getD .reset h).supply) (fun cs g _ => by
    split
    · exact applyDie_supply ..
    · rfl) s.ch

theorem setRole_supply (r : TwinRole) (s : State) (h : Nat) : ((setRole r s).die h).supply = (s.die h).supply := by
  unfold setRole
  split
  · rfl
  · dsimp only
    rw [urgent_supply, State.die_of_ch (raise_ch ..)]
    rfl

theorem twinFault_supply (s : State) (h : Nat) : ((twinFault s).die h).supply = (s.die h).supply := by
  unfold twinFault twinRelease
  split
  · split
    · exact setRole_supply ..
    · rfl
  · rfl

theorem dieSupplyLoss_own (g : Nat) (reversed : Bool) (s : State) :
    ((dieSupplyLoss g reversed s).die g).supply = if reversed then .reversed else .lost := by
  unfold dieSupplyLoss
  rw [State.die, ChanState.modDie_same]

theorem dieSupplyLoss_other {g h : Nat} (reversed : Bool) (s : State) (other : h ≠ g) : (dieSupplyLoss g reversed s).die h = s.die h := by
  unfold dieSupplyLoss State.die
  dsimp only
  rw [ChanState.modDie_other _ _ _ other]
  exact congrArg (fun d : Tbl Die => d.getD .reset h)
    (foldl_kept (fun cs : ChanState => cs.dies) (fun cs i _ => offIn_dies ..) s.ch)

/-- A lost main feed of a 12 V boardnet leaves every group without its supply (R17). -/
theorem feedLoss_supply {s : State} (v12 : s.cfg.image.boardnet = .v12) (g : Fin 8) : ((feedLoss s).die g).supply = .lost := by
  unfold feedLoss
  rw [if_pos v12]
  refine foldl_establishes (fun (s : State) g => (s.die g).supply = .lost) (fun s g => ?_) (fun s g h lost => ?_) allDies s g.val
    (List.mem_range.mpr g.isLt)
  · exact (twinFault_supply (dieSupplyLoss g false s) g).trans (dieSupplyLoss_own g false s)
  · refine (twinFault_supply (dieSupplyLoss g false s) h).trans ?_
    by_cases same : h = g
    · rw [same]
      exact dieSupplyLoss_own g false s
    · rw [dieSupplyLoss_other false s same]
      exact lost

theorem feedLoss_of_not {s : State} (not12 : s.cfg.image.boardnet ≠ .v12) : feedLoss s = s := if_neg not12

/-! ### The stage and the phases of the bridge -/

theorem applyStage_brg (s : State) : (applyStage s).brg = s.brg := (applyStage_frame s).same .brg (by decide)

/-- What a shed step leaves of the bridge (R163). -/
theorem shedTo_brg (lvl : Nat) (vz12 : Bool) (s : State) : (shedTo lvl vz12 s).brg =
    { s.brg with shedLvl := max s.brg.shedLvl (min lvl 8), shedVz12 := s.brg.shedVz12 || vz12 } := by
  unfold shedTo
  dsimp only
  split
  · rfl
  · rw [raiseBrg_brg, applyStage_brg]
    rfl

theorem toQualify_of_test {s : State} (h : s.brg.phase ≠ .boost ∨ s.brg.vinOk = false ∨ s.brg.test.isSome = true) : toQualify s = s := by
  refine if_neg fun goes => ?_
  simp only [Bool.and_eq_true, decide_eq_true_eq, Option.isNone_iff_eq_none] at goes
  obtain ⟨⟨boost, valid⟩, free⟩ := goes
  obtain h | h | h := h
  · exact h boost
  · exact absurd (h.symm.trans valid) Bool.false_ne_true
  · rw [free] at h
    cases h

theorem BrgState.released_of_zero {b : BrgState} (zero : b.shedLvl = 0) :
    { b with restoring := false } = { b with shedLvl := b.shedLvl - 1, restoring := decide (1 < b.shedLvl) } := by
  cases b
  cases zero
  rfl

/-- What a step of the restore leaves of the bridge (R165). -/
theorem releaseLevel_brg (s : State) : (releaseLevel s).brg =
    { s.brg with shedLvl := s.brg.shedLvl - 1, restoring := decide (1 < s.brg.shedLvl) } := by
  unfold releaseLevel
  split
  next none_ =>
    exact BrgState.released_of_zero none_
  next => exact applyStage_brg _

/-- The bridge at a detection (R155, R163, R364). -/
def detectNoted (cause : Nat) (vz48 : Int) (s : State) : State := s.modBrg (fun b =>
  { b with phase := .detected, loss := true, pairOn := false, railOn := false, battOn := false, restoring := false,
           cause := cause, tbDetect := s.tb.count, lowest := vz48 })

/-- A detection up to the engine's next cycle. -/
def detected (cause : Nat) (vz48 vin : Int) (s : State) : State :=
  let t := raiseBrg evt_brgHandover (byteOf cause :: i16 vin) (detectNoted cause vz48 s)
  let t := shedTo (if t.brg.limits.shedAtCommit && !s.brg.restoring then 0 else t.brg.limits.shedHo) true t
  [0x100, 0x101, 0x102, 0x103].foldl (fun t n => prsTrigger n t) t

theorem detect_eq (cause : Nat) (vz48 vin : Int) (s : State) : detect cause vz48 vin s = evalRules (detected cause vz48 vin s) := rfl

theorem captures_frame (ns : List Nat) (s : State) : Frame [.mbx, .log, .vz, .sig, .free] s (ns.foldl (fun t n => prsTrigger n t) s) :=
  Frame.foldl (fun t n => (prsTrigger_frame n t).mono (by decide)) (Frame.refl ..)

theorem detected_frame (cause : Nat) (vz48 vin : Int) (s : State) :
    Frame [.brg, .ch, .sig, .free, .mbx, .log, .vz] s (detected cause vz48 vin s) :=
  Frame.via (captures_frame ..) (by decide) (Frame.via (shedTo_frame ..) (by decide) (Frame.via (raiseBrg_frame ..) (by decide)
    (Frame.set_brg (Frame.refl ..) (by decide))))

theorem detected_brg (cause : Nat) (vz48 vin : Int) (s : State) : (detected cause vz48 vin s).brg =
    { (detectNoted cause vz48 s).brg with
      shedLvl := max s.brg.shedLvl (min (if s.brg.limits.shedAtCommit && !s.brg.restoring then 0 else s.brg.limits.shedHo) 8)
      shedVz12 := true } := by
  unfold detected
  dsimp only
  rw [(captures_frame _ _).same .brg (by decide), shedTo_brg, raiseBrg_brg, Bool.or_true]
  rfl

theorem keepClass_brg (vin : Int) (s : State) : (keepClass vin s).brg = s.brg := (keepClass_frame vin s).same .brg (by decide)

theorem keepClass_sys (vin : Int) (s : State) : (keepClass vin s).sys =
    { s.sys with pairClass := if vin < 900 then none else s.sys.pairClass } := by
  unfold keepClass
  split
  · rfl
  · rfl

/-- The bridge with its pair opened at a loss of `VIN`. -/
def vinNoted (vin : Int) (s : State) : State := s.modBrg (fun b => { b with pairOn := false, vinOk := s.vinValid vin })

theorem vinNoted_frame (vin : Int) (s : State) : Frame [.brg] s (vinNoted vin s) := State.modBrg_frame ..

/-- The state after a loss of `VIN` is found, before the hand-over (R17, R18). -/
def vinLost (vin : Int) (s : State) : State := keepClass vin (feedLoss (vinNoted vin s))

theorem vinLost_leaves (vin : Int) (s : State) : (vinLost vin s).brg = { s.brg with pairOn := false, vinOk := s.vinValid vin } ∧
    (vinLost vin s).sys = { s.sys with pairClass := if vin < 900 then none else s.sys.pairClass } ∧
    (vinLost vin s).tb = s.tb ∧ Frame [.brg, .sys, .ch, .twin, .mbx, .log, .vz] s (vinLost vin s) := by
  unfold vinLost
  refine ⟨?_, ?_, ?_, ?_⟩
  · rw [keepClass_brg, (feedLoss_frame _).same .brg (by decide)]
    rfl
  · rw [keepClass_sys, (feedLoss_frame _).same .sys (by decide)]
    rfl
  · rw [(keepClass_frame _ _).same .tb (by decide), (feedLoss_frame _).same .tb (by decide)]
    rfl
  · exact Frame.via (keepClass_frame ..) (by decide) (Frame.via (feedLoss_frame _) (by decide)
      ((vinNoted_frame vin s).mono (by decide)))

section
variable {s : State} {vz48 vin : Int}

theorem vinLoss_of_handing (hands : s.brg.phase = .buck ∨ s.brg.phase = .handback) (lost : s.lossCause vz48 vin ≠ 0) :
    vinLoss vz48 vin s = evalRules (detected (s.lossCause vz48 vin) vz48 vin (vinLost vin s)) := by
  unfold vinLoss
  dsimp only
  rw [if_neg lost, if_pos hands]
  exact detect_eq ..

theorem vinLoss_of_other (buck : s.brg.phase ≠ .buck) (back : s.brg.phase ≠ .handback) (lost : s.lossCause vz48 vin ≠ 0) :
    vinLoss vz48 vin s = vinLost vin s := by
  unfold vinLoss
  dsimp only
  rw [if_neg lost, if_neg (not_or.mpr ⟨buck, back⟩)]
  rfl

theorem vinLoss_of_none (none_ : s.lossCause vz48 vin = 0) : vinLoss vz48 vin s = s.modBrg (fun b => { b with vinOk := s.vinValid vin }) := by
  unfold vinLoss
  exact if_pos none_

theorem lossCause_iff (present : s.brgPresent = true) : s.lossCause vz48 vin ≠ 0 ↔
    (vin < (s.brg.limits.vUv : Int) ∨ (s.brg.limits.rPair : Int) < (vz48 - vin) * 200) := by
  rw [State.lossCause, State.reverseFlow, State.underVoltage, if_pos present]
  simp only [decide_eq_true_eq]
  split
  case isTrue back => exact ⟨fun _ => .inr back, fun _ => by decide⟩
  case isFalse forth =>
    split
    case isTrue low => exact ⟨fun _ => .inl low, fun _ => by decide⟩
    case isFalse high => exact ⟨fun h => absurd rfl h, fun h => absurd h (not_or.mpr ⟨high, forth⟩)⟩

end

/-! ### Commit, hand-back and the end of a test -/

section
variable {s : State}

theorem enterBuckRestore_brg (s : State) : (enterBuckRestore s).brg =
    { (enterBuck s).brg with shedLvl := s.brg.shedLvl - 1, restoring := decide (1 < s.brg.shedLvl) } := releaseLevel_brg (enterBuck s)

/-- The state after the bridge notes a commit, with the history `hist` (R161). -/
def commitNoted (hist : List Nat) (lock : Bool) (s : State) : State :=
  let t := s.modBrg (fun b => { b with phase := if lock then .locked else .boost, battOn := true, bkLow := false, history := hist,
                                       commits := b.commits + 1, tbCommit := s.tb.count })
  let t := raiseBrg evt_brgCommit [] t
  let t := if lock then raiseBrg evt_brgChatter [] t else t
  if t.brg.limits.shedAtCommit then shedTo t.brg.limits.shedHo false t else t

theorem commit_of_free (free : s.brg.test = none) : commit s =
    toQualify (commitNoted (s.now :: s.brg.recent s.now) (decide (3 ≤ (s.now :: s.brg.recent s.now).length)) s) := by
  unfold commit commitNoted
  dsimp only
  rw [free]
  rfl

/-- What a commit leaves of the bridge, beside its shed level (R161). -/
theorem commitNoted_leaves (hist : List Nat) (lock : Bool) (s : State) :
    (commitNoted hist lock s).brg.phase = (if lock then .locked else .boost) ∧ (commitNoted hist lock s).brg.battOn = true ∧
      (commitNoted hist lock s).brg.commits = s.brg.commits + 1 ∧ (commitNoted hist lock s).brg.tbCommit = s.tb.count ∧
      (commitNoted hist lock s).brg.history = hist ∧ (commitNoted hist lock s).brg.vinOk = s.brg.vinOk ∧
      Frame [.brg, .ch, .mbx, .log, .vz] s (commitNoted hist lock s) := by
  obtain ⟨t, isT, brg, framed⟩ : ∃ t, t = raiseBrg evt_brgCommit [] (s.modBrg (fun b =>
      { b with phase := if lock then .locked else .boost, battOn := true, bkLow := false, history := hist,
               commits := b.commits + 1, tbCommit := s.tb.count })) ∧ t.brg = { s.brg with
        phase := if lock then .locked else .boost, battOn := true, bkLow := false, history := hist,
        commits := s.brg.commits + 1, tbCommit := s.tb.count } ∧ Frame [.brg, .ch, .mbx, .log, .vz] s t :=
    ⟨_, rfl, raiseBrg_brg .., Frame.via (raiseBrg_frame ..) (by decide) (Frame.set_brg (Frame.refl ..) (by decide))⟩
  obtain ⟨u, isU, same, framedU⟩ : ∃ u, u = (if lock then raiseBrg evt_brgChatter [] t else t) ∧ u.brg = t.brg ∧
      Frame [.brg, .ch, .mbx, .log, .vz] s u := by
    refine ⟨_, rfl, ?_, ?_⟩
    · split
      · exact raiseBrg_brg ..
      · rfl
    · split
      · exact Frame.via (raiseBrg_frame ..) (by decide) framed
      · exact framed
  have is : commitNoted hist lock s = if u.brg.limits.shedAtCommit then shedTo u.brg.limits.shedHo false u else u := by
    rw [isU, isT]
    rfl
  rw [is]
  split
  · rw [shedTo_brg, same, brg]
    exact ⟨rfl, rfl, rfl, rfl, rfl, rfl, Frame.via (shedTo_frame ..) (by decide) framedU⟩
  · rw [same, brg]
    exact ⟨rfl, rfl, rfl, rfl, rfl, rfl, framedU⟩

/-- A test hand-over that ends in a bridge out of `BOOST` leaves nothing but its answer (R175). -/
theorem endHandoverTest_leaves {status : U16} {result : List Byte} (still : s.brg.phase ≠ .boost) :
    (endHandoverTest status result s).brg = { s.brg with test := none } ∧ Frame [.brg, .mbx, .vz] s (endHandoverTest status result s) := by
  refine ⟨?_, (endHandoverTest_frame status result s).mono (by decide)⟩
  unfold endHandoverTest
  split
  next free => rw [← free]
  next x running =>
    have brg : (complete x.port x.reqSeq x.tag 0x0406 status result (s.modBrg (fun b => { b with test := none }))).brg =
        { s.brg with test := none } := complete_brg ..
    rw [toQualify_of_test (.inl (by rw [brg]; exact still)), brg]

theorem enterNofeed_brg (s : State) : (enterNofeed s).brg =
    { s.brg with phase := .nofeed, railOn := false, battOn := false, shedLvl := max s.brg.shedLvl 8 } := by
  unfold enterNofeed
  rw [shedTo_brg, Bool.or_false]
  rfl

/-- A low bridge battery leaves the module without its feed, and ends a test (Table 6.4). -/
theorem batteryLow_brg (s : State) : (batteryLow s).brg =
    { s.brg with bkLow := true, phase := .nofeed, railOn := false, battOn := false, shedLvl := max s.brg.shedLvl 8, test := none } := by
  obtain ⟨t, isT, brg⟩ : ∃ t, t = raiseBrg evt_brgBattLow [] (enterNofeed (s.modBrg (fun b => { b with bkLow := true }))) ∧
      t.brg = { s.brg with bkLow := true, phase := .nofeed, railOn := false, battOn := false, shedLvl := max s.brg.shedLvl 8 } :=
    ⟨_, rfl, by rw [raiseBrg_brg, enterNofeed_brg]; rfl⟩
  unfold batteryLow
  rw [← isT, (endHandoverTest_leaves (by rw [brg]; exact fun h => by cases h)).1, brg]

theorem bridgeStart_of_ready {vin : Int} (runs : s.brgRuns = true) (en : s.brg.limits.en = true) (checked : s.sys.vinChecked = true)
    (valid : s.vinValid vin = true) (stopped : s.brg.phase = .stopped) :
    bridgeStart vin s = evalRules (enterBuck (s.modBrg (fun b => { b with vinOk := s.vinValid vin }))) := by
  refine if_pos ?_
  show (s.brgRuns && s.brg.limits.en && s.sys.vinChecked && s.vinValid vin && decide (s.brg.phase = .stopped)) = true
  rw [runs, en, checked, valid, decide_eq_true stopped]
  rfl

theorem bridgeStart_of_runs {vin : Int} (runs : s.brg.phase ≠ .stopped) :
    bridgeStart vin s = s.modBrg (fun b => { b with vinOk := s.vinValid vin }) := by
  refine if_neg fun h => runs ?_
  exact of_decide_eq_true (Bool.and_eq_true_iff.mp h).2

end

/-- Settles O18: each event is one change of the bridge, and the shed steps are the only way to the channels. The shed that `STOPPED`
and `NOFEED` leave is log entry 47, the pair class below 9 V entry 124, the lowest `VZ48` entry 125. -/
theorem handOverFollowsItsTable : Obligations.HandOverFollowsItsTable := by
  refine ⟨?start, ?started, ?detects, ?lost, ?valid, ?cause, ?abandons, ?unabandoned, ?commits, ?locks, ?low, ?qualifies, ?noted,
    ?invalid, ?qualified, ?ramp, ?restore, ?release, ?entry, ?stop⟩
  case start =>
    intro vin s runs en checked valid stopped
    exact ⟨_, congrArg Host.Outcome.next (bridgeStart_of_ready runs en checked valid stopped), rfl, rfl, rfl, rfl, rfl, rfl,
      Frame.set_brg (Frame.set_brg (Frame.refl ..) (by decide)) (by decide)⟩
  case started =>
    exact fun vin s runs => ⟨_, congrArg Host.Outcome.next (bridgeStart_of_runs runs), rfl, rfl, Frame.set_brg (Frame.refl ..) (by decide)⟩
  case detects =>
    intro vz48 vin s hands lost
    obtain ⟨brg, sys, tb, framed⟩ := vinLost_leaves vin s
    refine ⟨_, congrArg Host.Outcome.next (vinLoss_of_handing hands lost), ?_⟩
    dsimp only
    have frame := detected_frame (s.lossCause vz48 vin) vz48 vin (vinLost vin s)
    rw [detected_brg, frame.same .sys (by decide), sys]
    refine ⟨rfl, rfl, rfl, rfl, ?_, rfl, rfl, ?_, rfl, ?_, ?_, rfl, rfl, Frame.via frame (by decide) (framed.mono (by decide))⟩
    · rfl
    · show (vinLost vin s).tb.count = s.tb.count
      rw [tb]
    · show (vinLost vin s).brg.vinOk = s.vinValid vin
      rw [brg]
    · intro now_
      have steps : (s.brg.limits.shedAtCommit && !s.brg.restoring) = false := by
        obtain off | restores := now_
        · rw [off]; rfl
        · rw [restores]; exact Bool.and_false _
      rw [brg]
      show max s.brg.shedLvl (min (if (s.brg.limits.shedAtCommit && !s.brg.restoring) = true then 0 else s.brg.limits.shedHo) 8) = _
      rw [steps]
      rfl
  case lost =>
    intro vz48 vin s buck back lost
    obtain ⟨brg, sys, tb, framed⟩ := vinLost_leaves vin s
    refine ⟨_, congrArg Host.Outcome.next (vinLoss_of_other buck back lost), brg, sys, fun not12 => ?_, fun v12 g => ?_, framed⟩
    · unfold vinLost
      rw [feedLoss_of_not (s := vinNoted vin s) not12]
      exact Frame.via (keepClass_frame ..) (by decide) ((vinNoted_frame vin s).mono (by decide))
    · unfold vinLost
      rw [State.die_of_ch ((keepClass_frame _ _).same .ch (by decide))]
      exact feedLoss_supply (s := vinNoted vin s) v12 g
  case valid =>
    exact fun vz48 vin s none_ => ⟨_, congrArg Host.Outcome.next (vinLoss_of_none none_), rfl, Frame.set_brg (Frame.refl ..) (by decide)⟩
  case cause => exact fun vz48 vin s present => lossCause_iff present
  case abandons =>
    intro s detected free
    refine ⟨_, congrArg Host.Outcome.next (if_pos ?_), ?_⟩
    · rw [decide_eq_true detected, free]
      rfl
    · dsimp only
      rw [raiseBrg_brg, enterBuckRestore_brg]
      exact ⟨rfl, rfl, rfl, rfl, Frame.via (raiseBrg_frame ..) (by decide) (Frame.via (enterBuckRestore_frame _) (by decide)
        (Frame.set_brg (Frame.refl ..) (by decide)))⟩
  case unabandoned =>
    intro s other
    refine congrArg Host.Outcome.next (if_neg fun h => ?_)
    obtain ⟨detected, free⟩ := Bool.and_eq_true_iff.mp h
    obtain other | runs := other
    · exact other (of_decide_eq_true detected)
    · rw [Option.isNone_iff_eq_none.mp free] at runs
      cases runs
  case commits =>
    intro vbk12 s detected high free few invalid
    obtain ⟨phase, batt, commits, tb, history, vin, framed⟩ := commitNoted_leaves (s.now :: s.brg.recent s.now)
      (decide (3 ≤ (s.now :: s.brg.recent s.now).length)) s
    have is : commit s = _ := (commit_of_free free).trans (toQualify_of_test (.inr (.inl (vin.trans invalid))))
    refine ⟨commit s, congrArg Host.Outcome.next ((if_pos detected).trans (congrArg evalRules (if_pos high))), ?_⟩
    rw [is]
    refine ⟨phase.trans (if_neg fun h => ?_), batt, commits, tb, history, framed⟩
    have many := of_decide_eq_true h
    rw [List.length_cons] at many
    omega
  case locks =>
    intro vbk12 s detected high free many
    obtain ⟨phase, batt, commits, tb, history, vin, framed⟩ := commitNoted_leaves (s.now :: s.brg.recent s.now)
      (decide (3 ≤ (s.now :: s.brg.recent s.now).length)) s
    have locked := phase.trans (if_pos (decide_eq_true (by rw [List.length_cons]; omega)))
    have is : commit s = _ := (commit_of_free free).trans (toQualify_of_test (.inl (by rw [locked]; exact fun h => by cases h)))
    refine ⟨commit s, congrArg Host.Outcome.next ((if_pos detected).trans (congrArg evalRules (if_pos high))), ?_⟩
    rw [is]
    exact ⟨locked, batt, commits, framed⟩
  case low =>
    intro vbk12 s detected low
    refine ⟨batteryLow s, congrArg Host.Outcome.next ((if_pos detected).trans (congrArg evalRules (if_neg (Int.not_le.mpr low)))), ?_⟩
    dsimp only
    rw [batteryLow_brg]
    exact ⟨rfl, rfl, rfl, rfl, rfl, (batteryLow_frame s).mono (by decide)⟩
  case qualifies =>
    intro s boost free
    refine ⟨_, rfl, ?_⟩
    have goes : toQualify (s.modBrg (fun b => { b with vinOk := true })) =
        (s.modBrg (fun b => { b with vinOk := true })).modBrg (fun b => { b with phase := .qualify }) := by
      refine if_pos ?_
      show (decide (s.brg.phase = .boost) && true && s.brg.test.isNone) = true
      rw [decide_eq_true boost, free]
      rfl
    rw [goes]
    exact ⟨rfl, rfl, Frame.set_brg (Frame.set_brg (Frame.refl ..) (by decide)) (by decide)⟩
  case noted =>
    intro s other
    refine ⟨_, rfl, ?_⟩
    rw [toQualify_of_test (s := s.modBrg (fun b => { b with vinOk := true })) (.inl other)]
    exact ⟨rfl, rfl, Frame.set_brg (Frame.refl ..) (by decide)⟩
  case invalid =>
    exact fun s qualify => ⟨_, rfl, if_pos qualify, rfl, Frame.set_brg (Frame.refl ..) (by decide)⟩
  case qualified =>
    exact fun s waits runs => ⟨enterHandback s, congrArg Host.Outcome.next (if_pos ⟨waits, runs⟩), rfl, rfl, rfl,
      Frame.set_brg (Frame.refl ..) (by decide)⟩
  case ramp =>
    intro s back
    refine ⟨_, congrArg Host.Outcome.next (if_pos back), ?_⟩
    dsimp only
    rw [raiseBrg_brg, enterBuckRestore_brg]
    exact ⟨rfl, rfl, rfl, Frame.via (raiseBrg_frame ..) (by decide) (Frame.via (enterBuckRestore_frame _) (by decide)
      (Frame.set_brg (Frame.refl ..) (by decide)))⟩
  case restore =>
    intro s buck restores _
    refine ⟨releaseLevel s, congrArg Host.Outcome.next (if_pos ?_), ?_⟩
    · rw [decide_eq_true buck, restores]
      rfl
    · dsimp only
      rw [releaseLevel_brg]
      exact ⟨rfl, rfl, (releaseLevel_frame s).mono (by decide)⟩
  case release =>
    intro s buck rail shed
    refine ⟨_, congrArg Host.Outcome.next (if_pos ?_), ?_⟩
    · rw [decide_eq_true buck, rail, shed]
      rfl
    · dsimp only
      rw [applyStage_brg]
      exact ⟨rfl, buck, Frame.via (applyStage_frame _) (by decide) (Frame.set_brg (Frame.refl ..) (by decide))⟩
  case entry => exact fun reverse vin s => ⟨_, rfl, rfl, rfl, rfl, Frame.set_brg (Frame.refl ..) (by decide)⟩
  case stop =>
    intro s free runs
    have none_ : endHandoverTest stat_aborted [] s = s := by
      unfold endHandoverTest
      rw [free]
    refine ⟨_, congrArg Host.Outcome.next (congrArg evalRules ((congrArg enterStopped none_).trans (if_neg runs))), ?_⟩
    dsimp only
    rw [applyStage_brg]
    exact ⟨rfl, rfl, rfl, rfl, rfl, rfl, Frame.via (applyStage_frame _) (by decide) (Frame.set_brg (Frame.refl ..) (by decide))⟩

end Sys2Proof.Machine
end

section
/-! PROOF. Faults of the power bridge (R164, Table 6.7). -/

namespace Sys2Proof.Machine

section
variable {s : State}

/-! ### Overload, phases and stops -/

theorem BrgPhase.handOver_of_boosts {x : BrgPhase} (boosts : x.boosts = true) : x.handOver = true := by
  cases x
  all_goals first | rfl | cases boosts

theorem noteVz48_brg (v : Int) (s : State) : (noteVz48 v s).brg =
    { s.brg with lowest := if s.brg.phase.handOver then min s.brg.lowest v else s.brg.lowest } := by
  show (if s.brg.phase.handOver = true then _ else _) = _
  split
  · rfl
  · rfl

theorem boostOverload_of_overloaded {ibk vz48 : Int} (boosts : s.brg.phase.boosts = true) (room : s.brg.shedLvl < 8)
    (high : s.brg.overloaded ibk vz48 = true) : boostOverload ibk vz48 s =
      evalRules (shedTo (s.brg.shedLvl + 1) false (raiseBrg evt_brgBoostLimit [] (noteVz48 vz48 s))) := by
  refine if_pos ?_
  rw [boosts, decide_eq_true room, high]
  rfl

theorem boostOverload_of_not {ibk vz48 : Int}
    (h : s.brg.phase.boosts = false ∨ 8 ≤ s.brg.shedLvl ∨ s.brg.overloaded ibk vz48 = false) : boostOverload ibk vz48 s = noteVz48 vz48 s := by
  refine if_neg fun acts => ?_
  simp only [Bool.and_eq_true, decide_eq_true_eq] at acts
  obtain ⟨⟨boosts, room⟩, high⟩ := acts
  obtain h | h | h := h
  · exact absurd (h.symm.trans boosts) Bool.false_ne_true
  · omega
  · exact absurd (h.symm.trans high) Bool.false_ne_true

/-- The count of the phases that are in order. -/
theorem phases_count_clear : ∀ (x : BitVec 4) (ph : Fin 4), x.getLsbD ph.val = true →
    ((List.range 4).filter (fun i => (x &&& ~~~((1 : BitVec 4) <<< ph.val)).getLsbD i)).length =
      ((List.range 4).filter (fun i => x.getLsbD i)).length - 1 := by decide

/-- The state after a phase is taken out of service. -/
def phaseDropped (ph : Nat) (s : State) : State :=
  raiseBrg evt_brgPhaseFault [] (s.modBrg (fun b => { b with phOk := b.phOk &&& ~~~((1 : BitVec 4) <<< ph) }))

theorem phaseDropped_brg (ph : Nat) (s : State) : (phaseDropped ph s).brg = { s.brg with phOk := s.brg.phOk &&& ~~~((1 : BitVec 4) <<< ph) } :=
  raiseBrg_brg ..

theorem phaseDropped_frame (ph : Nat) (s : State) : Frame [.brg, .mbx, .log, .vz] s (phaseDropped ph s) :=
  Frame.via (raiseBrg_frame ..) (by decide) (Frame.set_brg (Frame.refl ..) (by decide))

theorem phaseDropped_phases {ph : Fin 4} (inUse : s.brg.phOk.getLsbD ph.val = true) :
    (phaseDropped ph.val s).brg.phases = s.brg.phases - 1 := by
  rw [phaseDropped_brg]
  exact phases_count_clear _ ph inUse

theorem phaseLatch_of_inUse {ph : Nat} (inUse : s.brg.phOk.getLsbD ph = true) : phaseLatch ph s =
    evalRules (if (phaseDropped ph s).brg.phases < 2 then enterStopped (endHandoverTest stat_aborted [] (phaseDropped ph s))
      else phaseDropped ph s) := if_pos inUse

theorem endHandoverTest_of_none {status : U16} {result : List Byte} (free : s.brg.test = none) : endHandoverTest status result s = s := by
  unfold endHandoverTest
  rw [free]

/-- The bridge that stands in `STOPPED` after a stop (Table 6.4). -/
theorem enterStopped_brg (runs : s.brg.phase ≠ .stopped) : (enterStopped s).brg =
    { s.brg with phase := .stopped, railOn := false, battOn := false, loss := false, shedLvl := 0, shedVz12 := false, restoring := false } := by
  unfold enterStopped
  rw [if_neg runs, applyStage_brg]
  rfl

/-- A stop leaves the bridge in `STOPPED`, and the temperature, the derating and the hot stop of its die as they were. -/
theorem enterStopped_leaves (s : State) : (enterStopped s).brg.phase = .stopped ∧ (enterStopped s).brg.hotStop = s.brg.hotStop ∧
    (enterStopped s).brg.derate = s.brg.derate ∧ (enterStopped s).brg.temp = s.brg.temp := by
  by_cases stopped : s.brg.phase = .stopped
  · rw [enterStopped, if_pos stopped]
    exact ⟨stopped, rfl, rfl, rfl⟩
  · rw [enterStopped_brg stopped]
    exact ⟨rfl, rfl, rfl, rfl⟩

/-! ### The temperature of the bridge die -/

theorem dieHot_brg (temp : Int) (s : State) : (dieHot temp s).brg = s.brg.atTemp temp := by
  unfold dieHot
  dsimp only
  split
  · rw [raiseBrg_brg]
    rfl
  · rfl

theorem dieHot_quiet {temp : Int} (quiet : (s.brg.atTemp temp).derate = true → s.brg.derate = true) :
    dieHot temp s = s.modBrg (fun b => b.atTemp temp) := by
  refine if_neg fun h => ?_
  obtain ⟨new, old⟩ := Bool.and_eq_true_iff.mp h
  rw [quiet new] at old
  cases old

theorem BrgState.atTemp_derate_hot {b : BrgState} {temp : Int} (hot : 1500 < temp) : (b.atTemp temp).derate = true := by
  show (if b.derate = true then _ else _) = true
  split
  · exact decide_eq_true (by omega)
  · exact decide_eq_true hot

theorem BrgState.atTemp_derate_cool {b : BrgState} {temp : Int} (cool : temp < 1500) : (b.atTemp temp).derate = false := by
  show (if b.derate = true then _ else _) = false
  split
  · exact decide_eq_false (by omega)
  · exact decide_eq_false (by omega)

theorem BrgState.atTemp_hotStop {b : BrgState} {temp : Int} (hot : 1400 ≤ temp) : (b.atTemp temp).hotStop = b.hotStop := by
  show (b.hotStop && decide (1400 ≤ temp)) = b.hotStop
  rw [decide_eq_true hot, Bool.and_true]

/-- At 170 °C the fold-back leaves no current. -/
theorem BrgState.folded_of_hot {b : BrgState} (hot : 1700 ≤ b.temp) (c : Nat) : b.folded c = 0 := by
  have none_ : (1700 - b.temp).toNat = 0 := by omega
  rw [BrgState.folded, if_neg (by omega), none_, Nat.mul_zero, Nat.zero_div]

/-- The state after the die has stopped the bridge, before the bridge moves (Table 6.7). -/
def overtempNoted (temp : Int) (s : State) : State :=
  raiseBrg evt_brgOvertemp [] ((dieHot temp s).modBrg (fun b => { b with hotStop := true }))

theorem overtempNoted_brg (temp : Int) (s : State) : (overtempNoted temp s).brg = { s.brg.atTemp temp with hotStop := true } := by
  rw [overtempNoted, raiseBrg_brg, State.modBrg, dieHot_brg]

theorem overtempNoted_frame (temp : Int) (s : State) : Frame [.brg, .ch, .mbx, .log, .vz] s (overtempNoted temp s) :=
  Frame.via (raiseBrg_frame ..) (by decide) (Frame.via (State.modBrg_frame ..) (by decide) ((dieHot_frame ..).mono (by decide)))

theorem dieOvertemp_of_hot {temp : Int} (runs : s.brg.hotStop = false) (hot : 1700 ≤ temp) (free : s.brg.test = none) :
    dieOvertemp temp s = evalRules (if s.brg.phase.handOver then enterNofeed (overtempNoted temp s) else enterStopped (overtempNoted temp s)) := by
  have on_ : ¬ ((dieHot temp s).brg.hotStop || decide (temp < 1700)) = true := by
    rw [dieHot_brg, BrgState.atTemp_hotStop (by omega), runs, decide_eq_false (by omega)]
    exact Bool.false_ne_true
  have kept : endHandoverTest stat_aborted [] (overtempNoted temp s) = overtempNoted temp s :=
    endHandoverTest_of_none (by rw [overtempNoted_brg]; exact free)
  have is : dieOvertemp temp s = _ := if_neg on_
  rw [is]
  show evalRules (if (endHandoverTest stat_aborted [] (overtempNoted temp s)).brg.phase.handOver = true then _ else _) = _
  change evalRules (if (endHandoverTest stat_aborted [] (overtempNoted temp s)).brg.phase.handOver = true
    then enterNofeed (endHandoverTest stat_aborted [] (overtempNoted temp s))
    else enterStopped (endHandoverTest stat_aborted [] (overtempNoted temp s))) = _
  rw [kept, overtempNoted_brg]
  rfl

theorem dieOvertemp_of_not {temp : Int} (h : s.brg.hotStop = true ∨ temp < 1700) : dieOvertemp temp s = dieHot temp s := by
  refine if_pos ?_
  rw [dieHot_brg]
  by_cases low : temp < 1700
  · rw [decide_eq_true low, Bool.or_true]
  · rw [BrgState.atTemp_hotStop (by omega), h.resolve_right low, Bool.true_or]

theorem vz12Under_of_low {vz12 : Int} (buck : s.brg.phase = .buck) (rail : s.brg.railOn = true) (low : vz12 * 100 < (s.brg.target : Int) * 80) :
    vz12Under vz12 s = if s.brg.vz12Fault then s.modBrg (fun b => { b with railOn := false, vz12Fault := true })
      else raiseBrg evt_brgVz12Fault [] (s.modBrg (fun b => { b with railOn := false, vz12Fault := true })) := by
  refine if_pos ?_
  rw [decide_eq_true buck, rail, decide_eq_true low]
  rfl

end

/-- Settles O19: each fault is one change of the bridge followed by what the phase asks for. Fewer than two phases end in `STOPPED` in any
phase (log entry 53), which releases its shed (entry 47); the lowest `VZ48` of a hand-over is entry 125. -/
theorem bridgeFaultsAct : Obligations.BridgeFaultsAct := by
  refine ⟨?low, ?lowIdle, ?overload, ?noOverload, ?drop, ?dropLast, ?dropped, ?hot, ?cooled, ?hotNofeed, ?hotStopped, ?notHot, ?under,
    ?notUnder, ?retry, ?noRetry⟩
  case low =>
    intro s boosts
    refine ⟨batteryLow s, congrArg Host.Outcome.next (if_pos boosts), ?_⟩
    dsimp only
    rw [batteryLow_brg]
    exact ⟨rfl, rfl, rfl, rfl, rfl, (batteryLow_frame s).mono (by decide)⟩
  case lowIdle => exact fun s idle => congrArg Host.Outcome.next (if_neg (by rw [idle]; exact Bool.false_ne_true))
  case overload =>
    intro ibk vz48 s boosts room high
    refine ⟨_, congrArg Host.Outcome.next (boostOverload_of_overloaded boosts room high), ?_⟩
    dsimp only
    have hands := BrgPhase.handOver_of_boosts boosts
    rw [shedTo_brg, raiseBrg_brg, noteVz48_brg, if_pos hands]
    refine ⟨?_, rfl, rfl, Frame.via (shedTo_frame ..) (by decide) (Frame.via (raiseBrg_frame ..) (by decide) ((noteVz48_frame ..).mono (by decide)))⟩
    show max s.brg.shedLvl (min (s.brg.shedLvl + 1) 8) = s.brg.shedLvl + 1
    omega
  case noOverload =>
    exact fun ibk vz48 s not => ⟨_, congrArg Host.Outcome.next (boostOverload_of_not not), noteVz48_brg vz48 s, noteVz48_frame ..⟩
  case drop =>
    intro ph s inUse enough
    have phases := phaseDropped_phases inUse
    refine ⟨phaseDropped ph.val s, congrArg Host.Outcome.next ((phaseLatch_of_inUse inUse).trans (congrArg evalRules (if_neg (by omega)))), ?_, phases, ?_,
      phaseDropped_frame ..⟩
    · rw [phaseDropped_brg]
    · rw [phaseDropped_brg]
  case dropLast =>
    intro ph s inUse few free runs
    have phases := phaseDropped_phases inUse
    have kept : endHandoverTest stat_aborted [] (phaseDropped ph.val s) = phaseDropped ph.val s :=
      endHandoverTest_of_none (by rw [phaseDropped_brg]; exact free)
    have is : phaseLatch ph.val s = evalRules (enterStopped (phaseDropped ph.val s)) := by
      rw [phaseLatch_of_inUse inUse, if_pos (by omega), kept]
    refine ⟨_, congrArg Host.Outcome.next is, ?_⟩
    dsimp only
    rw [enterStopped_brg (by rw [phaseDropped_brg]; exact runs), phaseDropped_brg]
    exact ⟨rfl, rfl, rfl, Frame.via (enterStopped_frame _) (by decide) ((phaseDropped_frame ..).mono (by decide))⟩
  case dropped => exact fun ph s out => congrArg Host.Outcome.next (if_neg (by rw [out]; exact Bool.false_ne_true))
  case hot =>
    intro temp s hot
    refine ⟨_, rfl, ?_⟩
    dsimp only
    rw [dieHot_brg, BrgState.atTemp_hotStop (by omega)]
    refine ⟨BrgState.atTemp_derate_hot hot, rfl, rfl, rfl, (dieHot_frame ..).mono (by decide), fun derates => ?_⟩
    rw [dieHot_quiet fun _ => derates]
    exact Frame.set_brg (Frame.refl ..) (by decide)
  case cooled =>
    intro temp s cool
    have off := BrgState.atTemp_derate_cool (b := s.brg) cool
    refine ⟨_, congrArg Host.Outcome.next (dieHot_quiet fun on_ => absurd (off.symm.trans on_) Bool.false_ne_true), off, rfl, rfl, rfl,
      Frame.set_brg (Frame.refl ..) (by decide)⟩
  case hotNofeed =>
    intro temp s runs hot free hands
    refine ⟨_, congrArg Host.Outcome.next ((dieOvertemp_of_hot runs hot free).trans (congrArg evalRules (if_pos hands))), ?_⟩
    dsimp only
    rw [enterNofeed_brg, overtempNoted_brg]
    exact ⟨rfl, rfl, BrgState.atTemp_derate_hot (by omega), BrgState.folded_of_hot hot _, BrgState.folded_of_hot hot _,
      Frame.via (enterNofeed_frame _) (by decide) (overtempNoted_frame ..)⟩
  case hotStopped =>
    intro temp s runs hot free idle
    refine ⟨_, congrArg Host.Outcome.next ((dieOvertemp_of_hot runs hot free).trans
      (congrArg evalRules (if_neg (by rw [idle]; exact Bool.false_ne_true)))), ?_⟩
    dsimp only
    obtain ⟨phase, stop, derate, at_⟩ := enterStopped_leaves (overtempNoted temp s)
    rw [overtempNoted_brg] at stop derate at_
    refine ⟨phase, stop, derate.trans (BrgState.atTemp_derate_hot (by omega)), BrgState.folded_of_hot (by rw [at_]; exact hot) _,
      Frame.via (enterStopped_frame _) (by decide) (overtempNoted_frame ..)⟩
  case notHot => exact fun temp s not => congrArg Host.Outcome.next (dieOvertemp_of_not not)
  case under =>
    intro vz12 s buck rail low
    refine ⟨_, congrArg Host.Outcome.next (vz12Under_of_low buck rail low), ?_⟩
    split
    · exact ⟨rfl, rfl, buck, Frame.set_brg (Frame.refl ..) (by decide)⟩
    · rw [raiseBrg_brg]
      exact ⟨rfl, rfl, buck, Frame.via (raiseBrg_frame ..) (by decide) (Frame.set_brg (Frame.refl ..) (by decide))⟩
  case notUnder =>
    intro vz12 s h
    refine congrArg Host.Outcome.next (if_neg fun acts => ?_)
    simp only [Bool.and_eq_true, decide_eq_true_eq] at acts
    obtain ⟨⟨buck, rail⟩, low⟩ := acts
    obtain h | h | h := h
    · exact h buck
    · exact absurd (h.symm.trans rail) Bool.false_ne_true
    · omega
  case retry =>
    intro regulated s buck fault safe
    refine ⟨_, congrArg Host.Outcome.next (if_pos ?_), rfl, rfl, buck, Frame.set_brg (Frame.refl ..) (by decide)⟩
    obtain free | other := safe
    · rw [decide_eq_true buck, fault, free]
      rfl
    · rw [decide_eq_true buck, fault, decide_eq_false other, Bool.and_false]
      rfl
  case noRetry =>
    intro regulated s done off
    refine congrArg Host.Outcome.next (if_neg ?_)
    rw [done, decide_eq_true off]
    simp

end Sys2Proof.Machine
end

section
/-! PROOF. The BRG commands (R171, R174, R175, Table 6.13). -/

namespace Sys2Proof.Machine

section
variable {s : State}

theorem brgBody_of_present (present : s.brgPresent = true) (body : State → State × Reply) : brgBody body s = body s := if_pos present

theorem brgBody_of_absent (absent : s.brgPresent = false) (body : State → State × Reply) : brgBody body s = (s, .fail stat_brgClass) :=
  if_neg (by rw [absent]; exact Bool.false_ne_true)

theorem vz12Range_of_within {v : Nat} (low : 1000 ≤ v) (high : v ≤ 1450) : vz12Range v = true := by
  rw [vz12Range, decide_eq_true low, decide_eq_true high]
  rfl

/-! ### The stage on every channel -/

theorem State.groupSrc_of_brg {t : State} (same : t.brg = s.brg) (g : Nat) : t.groupSrc g = s.groupSrc g := by
  unfold State.groupSrc
  rw [same]

theorem State.stageSheds_of_kept {t : State} {i : Nat} (brg : t.brg = s.brg) (prio : (t.chan i).prof.shed = (s.chan i).prof.shed) :
    t.stageSheds i = s.stageSheds i := by
  unfold State.stageSheds
  rw [State.groupSrc_of_brg brg, brg, prio]

/-- The mark of the stage on one channel (R163). -/
def stageMark (s : State) (cs : ChanState) (i : Nat) : ChanState :=
  if (cs.chans.getD .reset i).hoShed = s.stageSheds i then cs
  else cs.modChan i (fun c => { c with hoShed := s.stageSheds i, cause := if s.stageSheds i then 15 else c.cause })

theorem stageMark_own (s : State) (cs : ChanState) (i : Nat) : ((stageMark s cs i).chans.getD .reset i).hoShed = s.stageSheds i := by
  unfold stageMark
  split
  next same => exact same
  next => rw [ChanState.modChan_same]

theorem stageMark_other (s : State) (cs : ChanState) {i j : Nat} (other : j ≠ i) :
    (stageMark s cs i).chans.getD .reset j = cs.chans.getD .reset j := by
  unfold stageMark
  split
  · rfl
  · exact ChanState.modChan_other _ _ _ other

theorem stageMark_prio (s : State) (cs : ChanState) (i j : Nat) :
    ((stageMark s cs i).chans.getD .reset j).prof.shed = (cs.chans.getD .reset j).prof.shed := by
  by_cases same : j = i
  · subst same
    unfold stageMark
    split
    · rfl
    · rw [ChanState.modChan_same]
  · rw [stageMark_other _ _ same]

/-- The state after the stage has marked the channels of a list, before the urgent frames. -/
def stageMarked (s : State) (l : List Nat) : State := { s with ch := l.foldl (stageMark s) s.ch }

theorem stageMarked_chan (s : State) {l : List Nat} {i : Nat} (named : i ∈ l) :
    ((stageMarked s l).chan i).hoShed = s.stageSheds i ∧ ((stageMarked s l).chan i).prof.shed = (s.chan i).prof.shed := by
  refine ⟨?_, foldl_kept (fun cs : ChanState => (cs.chans.getD .reset i).prof.shed) (fun cs a _ => stageMark_prio s cs a i) s.ch⟩
  refine foldl_establishes (fun (cs : ChanState) i => (cs.chans.getD .reset i).hoShed = s.stageSheds i) (stageMark_own s) (fun cs a b h => ?_)
    l s.ch i named
  by_cases same : b = a
  · rw [same]
    exact stageMark_own ..
  · rw [stageMark_other _ _ same]
    exact h

theorem applyStage_eq (s : State) : applyStage s = urgent (stageMarked s (List.range 112)) := rfl

/-- After the stage is applied every channel is shed as the stage asks (R163). -/
theorem applyStage_hoShed (s : State) {i : Nat} (small : i < 112) : ((applyStage s).chan i).hoShed = (applyStage s).stageSheds i := by
  have brg := applyStage_brg s
  obtain ⟨marked, prio⟩ := stageMarked_chan s (List.mem_range.mpr small)
  rw [applyStage_eq] at brg ⊢
  have kept := urgent_keeps (stageMarked s (List.range 112)) i
  rw [kept.hoShed, marked, State.stageSheds_of_kept brg (kept.shedPrio.trans prio)]

/-! ### The bodies of the commands -/

theorem setLimitsBody_of_idle {l : BrgLimits} (idle : s.brg.phase = .buck ∨ s.brg.phase = .stopped) :
    setLimitsBody l s = (evalRules (applyStage (s.modBrg (fun b => b.takeLimits l))), .ok []) := if_pos idle

theorem setLimitsBody_of_active {l : BrgLimits} (buck : s.brg.phase ≠ .buck) (stopped : s.brg.phase ≠ .stopped) :
    setLimitsBody l s = (s, .fail stat_brgActive) := if_neg (not_or.mpr ⟨buck, stopped⟩)

theorem limits_payload {f : LimitsFields} (flags : f.flags.toNat < 16) (safe : f.flags.extractLsb' 2 2 ≠ 3)
    (fits : (limitsOf f).ok s.cfg.image.boardnet = true) :
    orStat (needStat (decide (f.flags.toNat < 16) && decide (f.flags.extractLsb' 2 2 ≠ 3)) stat_badPayload)
      (needStat (!s.brgPresent || (limitsOf f).ok s.cfg.image.boardnet) stat_range) = none := by
  rw [decide_eq_true flags, decide_eq_true safe, fits, Bool.or_true]
  rfl

/-- The bridge that is released from its lock-out (R161). -/
def released (s : State) : State := s.modBrg (fun b => { b with phase := .boost, history := [] })

theorem toQualify_released (s : State) : (toQualify (released s)).brg.phase = (if s.brg.vinOk && s.brg.test.isNone then .qualify else .boost) ∧
    (toQualify (released s)).brg.history = [] := by
  have goes : (decide ((released s).brg.phase = .boost) && (released s).brg.vinOk && (released s).brg.test.isNone) =
      (s.brg.vinOk && s.brg.test.isNone) := by
    show (decide (BrgPhase.boost = .boost) && s.brg.vinOk && s.brg.test.isNone) = _
    rw [decide_eq_true rfl, Bool.true_and]
  unfold toQualify
  rw [goes]
  split
  · exact ⟨rfl, rfl⟩
  · exact ⟨rfl, rfl⟩

section
variable {r : Req} {duration : Nat} {vin vbk12 : Int} (buck : s.brg.phase = .buck) (valid : s.vinValid vin = true)

/-- The bridge with a test hand-over noted (R175). -/
def testNoted (r : Req) (duration : Nat) (vin : Int) (s : State) : State :=
  (s.modBrg (fun b => { b with vinOk := s.vinValid vin })).modBrg (fun b =>
    { b with test := some { port := r.port, tag := r.tag, reqSeq := r.seq, duration := duration } })

include buck valid

theorem testHandoverBody_of_ready (battery : (s.brg.limits.vBkMin : Int) + 100 ≤ vbk12) : testHandoverBody r duration vin vbk12 s =
    (evalRules (detected 3 vin vin (testNoted r duration vin s)), .fail stat_pending) := by
  have idle : ¬ (s.brg.phase ≠ .buck ∧ s.brg.phase ≠ .stopped) := fun h => h.1 buck
  have fed : ¬ (s.brg.phase = .stopped ∨ !s.vinValid vin) := by
    rw [buck, valid]
    decide
  exact (if_neg idle).trans ((if_neg fed).trans (if_neg (Int.not_lt.mpr battery)))

theorem testHandoverBody_of_low (low : vbk12 < (s.brg.limits.vBkMin : Int) + 100) : testHandoverBody r duration vin vbk12 s =
    (s.modBrg (fun b => { b with vinOk := s.vinValid vin }), .fail stat_brgNoBattery) := by
  have idle : ¬ (s.brg.phase ≠ .buck ∧ s.brg.phase ≠ .stopped) := fun h => h.1 buck
  have fed : ¬ (s.brg.phase = .stopped ∨ !s.vinValid vin) := by
    rw [buck, valid]
    decide
  exact (if_neg idle).trans ((if_neg fed).trans (if_pos low))

end

theorem endHandoverTest_of_some {status : U16} {result : List Byte} {x : HandoverTest} (runs : s.brg.test = some x) :
    endHandoverTest status result s =
      toQualify (complete x.port x.reqSeq x.tag 0x0406 status result (s.modBrg (fun b => { b with test := none }))) := by
  unfold endHandoverTest
  rw [runs]

/-- The end of a test in `BOOST` with a valid supply hands back and answers (R175). -/
theorem handoverTestEnd_of_valid {lowest peak : Int} {energy : U32} {x : HandoverTest} (runs : s.brg.test = some x)
    (boost : s.brg.phase = .boost) (valid : s.brg.vinOk = true) : handoverTestEnd lowest peak energy s =
      evalRules (complete x.port x.reqSeq x.tag 0x0406 stat_ok (i16 lowest ++ i16 peak ++ le32 energy)
        ((enterHandback s).modBrg (fun b => { b with test := none }))) := by
  have back : (if (decide (s.brg.phase = .boost) && s.brg.vinOk) = true then enterHandback s else s) = enterHandback s := by
    rw [decide_eq_true boost, valid]
    rfl
  have is : handoverTestEnd lowest peak energy s = _ := if_pos (by rw [runs]; rfl)
  rw [is, back]
  dsimp only
  rw [endHandoverTest_of_some (s := enterHandback s) runs]
  refine congrArg evalRules (toQualify_of_test (.inl ?_))
  rw [complete_brg]
  exact fun h => by cases h

end

/-- Settles O20: each command passes the checks of R72 and then does what its body says; the lowest `VZ48` of a report is log entry 125. -/
theorem bridgeCommandsAct : Obligations.BridgeCommandsAct := by
  refine ⟨?status, ?target, ?noTarget, ?limits, ?active, ?release, ?noRelease, ?shed, ?test, ?noBattery, ?testEnd, ?noTest⟩
  case status =>
    intro s r p m q mode
    refine ⟨_, congrArg Host.Outcome.next (runCmd_accepted _ q.port (q.passes (decide_eq_true q.len) rfl rfl mode)), brgMeasured m s, rfl, rfl, ?_⟩
    have noted : (brgMeasured m s).brg =
        { (noteVz48 (min m.vz48 m.lowest) s).brg with
          vinOk := s.vinValid m.vin, bkLow := decide (m.vbk12 < ((noteVz48 (min m.vz48 m.lowest) s).brg.limits.vBkMin : Int)) } := rfl
    rw [noted, noteVz48_brg]
    exact ⟨rfl, rfl, rfl, brgMeasured_frame ..⟩
  case target =>
    intro s r p v q system low high mode present
    refine answers_of_accepted q rfl (q.passes (decide_eq_true q.len) (Need.check_of_sysPriv system _)
      (by rw [vz12Range_of_within low high]; rfl) mode) (brgBody_of_present present _) rfl ?_
    exact ⟨rfl, fun buck => if_pos buck, fun other => if_neg other, putTarget_frame ..⟩
  case noTarget =>
    intro s r p v q system low high mode absent
    exact answers_of_accepted q rfl (q.passes (decide_eq_true q.len) (Need.check_of_sysPriv system _)
      (by rw [vz12Range_of_within low high]; rfl) mode) (brgBody_of_absent absent _) rfl rfl
  case limits =>
    intro s r p f q system flags safe fits mode present idle
    obtain ⟨t, is, leaves⟩ := answers_of_accepted (c := .brgSetLimits r f) q rfl (q.passes (decide_eq_true q.len) (Need.check_of_sysPriv system _)
      (limits_payload flags safe fits) (decide_eq_true mode)) ((brgBody_of_present present _).trans (setLimitsBody_of_idle idle)) rfl
      (post := fun t => t = evalRules (applyStage (s.modBrg (fun b => b.takeLimits (limitsOf f))))) rfl
    refine ⟨applyStage (s.modBrg (fun b => b.takeLimits (limitsOf f))), by rw [is, leaves], ?_⟩
    have brg := applyStage_brg (s.modBrg (fun b => b.takeLimits (limitsOf f)))
    refine ⟨by rw [brg]; rfl, fun buck => ?_, by rw [brg]; rfl, fun i => applyStage_hoShed _ i.isLt,
      Frame.via (applyStage_frame _) (by decide) (Frame.set_brg (Frame.refl ..) (by decide))⟩
    rw [brg]
    exact if_pos buck
  case active =>
    intro s r p f q system flags safe fits mode present buck stopped
    exact answers_of_accepted q rfl (q.passes (decide_eq_true q.len) (Need.check_of_sysPriv system _) (limits_payload flags safe fits)
      (decide_eq_true mode)) ((brgBody_of_present present _).trans (setLimitsBody_of_active buck stopped)) rfl rfl
  case release =>
    intro s r p q system mode present locked
    refine ⟨_, (congrArg Host.Outcome.next (runCmd_accepted _ q.port (q.passes (decide_eq_true q.len) (Need.check_of_sysPriv system _) rfl mode))), ?_⟩
    obtain ⟨phase, history⟩ := toQualify_released s
    refine ⟨toQualify (released s), ?_, phase, history, Frame.via (toQualify_frame _) (by decide) (Frame.set_brg (Frame.refl ..) (by decide))⟩
    rw [brgBody_of_present present]
    have is : releaseBody s = (evalRules (toQualify (released s)), .ok (le32 (evalRules (toQualify (released s))).brgWord)) := if_pos locked
    rw [is]
    rfl
  case noRelease =>
    intro s r p q system mode present free
    exact answers_of_accepted q rfl (q.passes (decide_eq_true q.len) (Need.check_of_sysPriv system _) rfl mode)
      ((brgBody_of_present present _).trans (if_neg free)) rfl rfl
  case shed =>
    intro s r p shedHo shedAt q system ho at_ mode present
    exact answers_of_accepted q rfl (q.passes (decide_eq_true q.len) (Need.check_of_sysPriv system _)
      (by rw [decide_eq_true ho, decide_eq_true at_]; rfl) mode) (brgBody_of_present present _) rfl
      ⟨rfl, rfl, Frame.set_brg (Frame.refl ..) (by decide)⟩
  case test =>
    intro s r p duration vin vbk12 q system fits mode present buck valid battery
    obtain ⟨t, is, leaves⟩ := answers_of_accepted (c := .brgTestHandover r duration vin vbk12) q rfl
      (q.passes (decide_eq_true q.len) (Need.check_of_sysPriv system _) (by rw [fits]; rfl) (decide_eq_true mode))
      ((brgBody_of_present present _).trans (testHandoverBody_of_ready buck valid battery)) rfl
      (post := fun t => t = evalRules (detected 3 vin vin (testNoted r duration.toNat vin s))) rfl
    refine ⟨detected 3 vin vin (testNoted r duration.toNat vin s), by rw [is, leaves], ?_⟩
    dsimp only
    rw [detected_brg]
    exact ⟨rfl, rfl, rfl, Frame.via (detected_frame ..) (by decide) (Frame.set_brg (Frame.set_brg (Frame.refl ..) (by decide)) (by decide))⟩
  case noBattery =>
    intro s r p duration vin vbk12 q system fits mode present buck valid low
    exact answers_of_accepted q rfl (q.passes (decide_eq_true q.len) (Need.check_of_sysPriv system _) (by rw [fits]; rfl) (decide_eq_true mode))
      ((brgBody_of_present present _).trans (testHandoverBody_of_low buck valid low)) rfl
      ⟨buck, rfl, Frame.set_brg (Frame.refl ..) (by decide)⟩
  case testEnd =>
    intro lowest peak energy x s runs boost valid
    refine ⟨_, congrArg Host.Outcome.next (handoverTestEnd_of_valid runs boost valid), ?_⟩
    dsimp only
    rw [complete_brg]
    exact ⟨rfl, rfl, rfl, _, rfl, Frame.set_brg (Frame.set_brg (Frame.refl ..) (by decide)) (by decide)⟩
  case noTest => exact fun lowest peak energy s none_ => congrArg Host.Outcome.next (if_neg (by rw [none_]; exact Bool.false_ne_true))

end Sys2Proof.Machine
end

section
/-! PROOF. Samples of discrete and analog inputs and sensor supplies (R178 to R185, Tables 7.1 to 7.3 and 7.14). -/

namespace Sys2Proof.Machine

/-! ### Folds over a list -/

/-- A fold whose steps each change their own entry alone, under an invariant, does to each entry of its list what its step does once. -/
theorem foldl_once {σ β : Type} (get : σ → Nat → β) (Inv : σ → Prop) (Done : Nat → β → β → Prop) {step : σ → Nat → σ}
    (own : ∀ s a, Inv s → Done a (get s a) (get (step s a) a)) (other : ∀ s a b, b ≠ a → get (step s a) b = get s b)
    (keeps : ∀ s a, Inv s → Inv (step s a)) {l : List Nat} (once : l.Nodup) {x : σ} (inv : Inv x) :
    ∀ n ∈ l, Done n (get x n) (get (l.foldl step x) n) := by
  have outside : ∀ (l : List Nat) (x : σ) n, n ∉ l → get (l.foldl step x) n = get x n := fun l => by
    induction l with
    | nil => exact fun x n _ => rfl
    | cons a r ih =>
      intro x n out
      exact (ih (step x a) n (List.not_mem_of_not_mem_cons out)).trans (other x a n (List.ne_of_not_mem_cons out))
  induction l generalizing x with
  | nil => exact fun n h => absurd h List.not_mem_nil
  | cons a r ih =>
    intro n named
    obtain ⟨fresh, rest⟩ := List.nodup_cons.mp once
    obtain rfl | later := List.mem_cons.mp named
    · rw [List.foldl_cons, outside r _ _ fresh]
      exact own x n inv
    · rw [List.foldl_cons, ← other x a n fun same => fresh (same ▸ later)]
      exact ih rest (keeps x a inv) n later

/-- The greatest value over a list that holds an entry. -/
theorem foldl_max_spec {f : Nat → Nat} {l : List Nat} (some_ : l ≠ []) :
    (∀ a ∈ l, f a ≤ l.foldl (fun m a => max m (f a)) 0) ∧ ∃ a ∈ l, f a = l.foldl (fun m a => max m (f a)) 0 := by
  have above : ∀ (l : List Nat) (m : Nat), m ≤ l.foldl (fun m a => max m (f a)) m ∧ ∀ a ∈ l, f a ≤ l.foldl (fun m a => max m (f a)) m := fun l => by
    induction l with
    | nil => exact fun m => ⟨Nat.le_refl _, fun a h => absurd h List.not_mem_nil⟩
    | cons a r ih =>
      intro m
      obtain ⟨start, rest⟩ := ih (max m (f a))
      refine ⟨Nat.le_trans (Nat.le_max_left ..) start, fun b h => ?_⟩
      obtain rfl | later := List.mem_cons.mp h
      · exact Nat.le_trans (Nat.le_max_right ..) start
      · exact rest b later
  have met : ∀ (l : List Nat) (m : Nat), l.foldl (fun m a => max m (f a)) m = m ∨ ∃ a ∈ l, f a = l.foldl (fun m a => max m (f a)) m := fun l => by
    induction l with
    | nil => exact fun m => .inl rfl
    | cons a r ih =>
      intro m
      obtain same | ⟨b, named, is⟩ := ih (max m (f a))
      · obtain low | high := Nat.le_total (f a) m
        · exact .inl (same.trans (Nat.max_eq_left low))
        · exact .inr ⟨a, List.mem_cons_self, (same.trans (Nat.max_eq_right high)).symm⟩
      · exact .inr ⟨b, List.mem_cons_of_mem a named, is⟩
  refine ⟨(above l 0).2, ?_⟩
  obtain zero | found := met l 0
  · obtain ⟨a, named⟩ := List.exists_mem_of_ne_nil l some_
    have least := (above l 0).2 a named
    rw [zero] at least ⊢
    exact ⟨a, named, Nat.le_zero.mp least⟩
  · exact found

/-! ### Discrete inputs -/

theorem State.diInput_of_fio {s t : State} (same : t.fio = s.fio) (n : Nat) : t.diInput n = s.diInput n := by
  rw [State.diInput, same]
  rfl

theorem State.aiInput_of_fio {s t : State} (same : t.fio = s.fio) (n : Nat) : t.aiInput n = s.aiInput n := by
  rw [State.aiInput, same]
  rfl

theorem State.sup_of_fio {s t : State} (same : t.fio = s.fio) (k : Nat) : t.sup k = s.sup k := by
  rw [State.sup, same]
  rfl

theorem fioSnapUpdate_fio (s : State) : (fioSnapUpdate s).fio = s.fio := (fioSnapUpdate_frame s).same .fio (by decide)

/-- The wire events of a change (R181). -/
def diWireTold (n : Nat) (old new : DiVal) (s : State) : State :=
  if new = .wireFault then raiseFio evt_fioDiWire n (s.diOwner n) [] s
  else if old = .wireFault then raiseFio evt_fioDiWireEnd n (s.diOwner n) [] s else s

theorem diWireTold_frame (n : Nat) (old new : DiVal) (s : State) : Frame [.mbx, .log, .vz] s (diWireTold n old new s) := by
  unfold diWireTold
  split
  · exact raiseFio_frame ..
  · split
    · exact raiseFio_frame ..
    · exact Frame.refl ..

/-- An input takes a new state (R181). -/
def DiInput.changed (d : DiInput) (new : DiVal) (stamp : U64) : DiInput := { d with state := new, chg := true, readChg := true, stamp := stamp }

/-- A change of an input up to the rules (R181). -/
def diTold (n : Nat) (old new : DiVal) (s : State) : State :=
  fioSnapUpdate (captureLevel n (decide (old = .closed)) (decide (new = .closed))
    (diWireTold n old new (s.modDi n (fun d => d.changed new s.tb.count))))

theorem diChange_eq (n : Nat) (old new : DiVal) (s : State) : diChange n old new s = evalAtDi n old new (diTold n old new s) := rfl

theorem evalAtDi_of_disabled {n : Nat} {old new : DiVal} {s : State} (off : s.rfx.enabled = false) :
    evalAtDi n old new s = closeShortEdges (openEdges n old new s) := by
  unfold evalAtDi
  rw [evalRules_of_disabled (s := openEdges n old new s) off]
  exact evalRules_of_disabled (s := closeShortEdges (openEdges n old new s)) off

theorem diTold_leaves (n : Nat) (old new : DiVal) (s : State) :
    (diTold n old new s).fio = (s.modDi n (fun d => d.changed new s.tb.count)).fio ∧ (diTold n old new s).rfx = s.rfx ∧
      Frame [.fio, .mbx, .log, .vz, .sig, .tb] s (diTold n old new s) := by
  have after : Frame [.mbx, .log, .vz, .sig, .tb] (s.modDi n (fun d => d.changed new s.tb.count)) (diTold n old new s) :=
    Frame.via (fioSnapUpdate_frame _) (by decide) (Frame.via (captureLevel_frame ..) (by decide) ((diWireTold_frame ..).mono (by decide)))
  exact ⟨after.same .fio (by decide), after.same .rfx (by decide), Frame.via after (by decide) ((State.modDi_frame ..).mono (by decide))⟩

section
variable {n : Nat} {d : DiInput} {new : DiVal} {s : State}

/-- The state after an input is rewritten, its reported state as before. -/
def diKept (n : Nat) (d : DiInput) (s : State) : State := s.modDi n (fun _ => { d with state := (s.diInput n).state })

theorem diPut_of_same (same : (s.diInput n).state = new) : diPut n d new s = diKept n d s := if_pos same

theorem diPut_of_change (change : (s.diInput n).state ≠ new) : diPut n d new s = diChange n (s.diInput n).state new (diKept n d s) := if_neg change

theorem diKept_own : (diKept n d s).diInput n = { d with state := (s.diInput n).state } := State.modDi_same ..

theorem diKept_other {m : Nat} (other : m ≠ n) : (diKept n d s).diInput m = s.diInput m := State.modDi_other _ _ _ m other

/-- What a change of an input leaves while the rules do not run. -/
theorem diPut_of_disabled (change : (s.diInput n).state ≠ new) (off : s.rfx.enabled = false) :
    (diPut n d new s).diInput n = { d with state := new, chg := true, readChg := true, stamp := s.tb.count } ∧
      (∀ m, m ≠ n → (diPut n d new s).diInput m = s.diInput m) ∧ Frame [.fio, .rfx, .mbx, .log, .vz, .sig, .tb] s (diPut n d new s) := by
  obtain ⟨fio, rfx, told⟩ := diTold_leaves n (s.diInput n).state new (diKept n d s)
  have is : diPut n d new s = closeShortEdges (openEdges n (s.diInput n).state new (diTold n (s.diInput n).state new (diKept n d s))) := by
    rw [diPut_of_change change, diChange_eq, evalAtDi_of_disabled (by rw [rfx]; exact off)]
  have same : (diPut n d new s).fio = ((diKept n d s).modDi n (fun d => d.changed new s.tb.count)).fio := by
    rw [is, (closeShortEdges_frame _).same .fio (by decide), (openEdges_frame ..).same .fio (by decide)]
    exact fio
  refine ⟨?_, fun m other => ?_, ?_⟩
  · rw [State.diInput_of_fio same, State.modDi_same, diKept_own]
    rfl
  · rw [State.diInput_of_fio same, State.modDi_other _ _ _ m other, diKept_other other]
  · rw [is]
    exact Frame.via (closeShortEdges_frame _) (by decide) (Frame.via (openEdges_frame ..) (by decide) (Frame.via told (by decide)
      ((State.modDi_frame ..).mono (by decide))))

end

/-- The greatest stamp of a VZF's inputs, as its two halves (R182). -/
theorem readDiStamp_of_owner {v : Nat} {s : State} (owns : ∃ n : Fin 64, s.diOwner n.val = some v) :
    ∃ w : U64, (∀ n : Fin 64, s.diOwner n.val = some v → (s.diInput n.val).stamp.toNat ≤ w.toNat) ∧
      (∃ n : Fin 64, s.diOwner n.val = some v ∧ (s.diInput n.val).stamp.toNat = w.toNat) ∧
      readDiStamp v s = { s with fio := { s.fio with diStampHi := s.fio.diStampHi.set v (w.extractLsb' 32 32) }
                                 bus := (w.extractLsb' 0 32).zeroExtend 64 } := by
  obtain ⟨n0, owned⟩ := owns
  have mem : ∀ n : Fin 64, s.diOwner n.val = some v → n.val ∈ (List.range 64).filter (fun n => decide (s.diOwner n = some v)) :=
    fun n h => List.mem_filter.mpr ⟨List.mem_range.mpr n.isLt, decide_eq_true h⟩
  have some_ := List.ne_nil_of_mem (mem n0 owned)
  obtain ⟨above, a, named, is⟩ := foldl_max_spec (f := fun n => (s.diInput n).stamp.toNat) some_
  obtain ⟨small, own⟩ := List.mem_filter.mp named
  have whole : (BitVec.ofNat 64 (((List.range 64).filter (fun n => decide (s.diOwner n = some v))).foldl
      (fun m n => max m (s.diInput n).stamp.toNat) 0)).toNat = ((List.range 64).filter (fun n => decide (s.diOwner n = some v))).foldl
      (fun m n => max m (s.diInput n).stamp.toNat) 0 := by
    rw [BitVec.toNat_ofNat, ← is]
    exact Nat.mod_eq_of_lt (s.diInput a).stamp.isLt
  refine ⟨_, fun n h => Nat.le_trans (above n.val (mem n h)) (Nat.le_of_eq whole.symm), ⟨⟨a, List.mem_range.mp small⟩, of_decide_eq_true own, is.trans whole.symm⟩, ?_⟩
  unfold readDiStamp
  dsimp only
  rw [if_neg (by rw [List.isEmpty_iff]; exact some_)]

/-- A 64-bit word is its halves. -/
theorem halves_toNat (w : U64) : w.toNat = (w.extractLsb' 32 32).toNat * 4294967296 + ((w.extractLsb' 0 32).zeroExtend 64).toNat := by
  have small := w.isLt
  simp only [BitVec.extractLsb'_toNat, BitVec.truncate_eq_setWidth, BitVec.toNat_setWidth, Nat.shiftRight_eq_div_pow]
  omega

/-! ### Analog inputs and supplies -/

/-- Every analog input shown under the supplies as they stand (R184). -/
def aiShown (s : State) : State := { s with fio := s.fio.showAi s.afeOn }

theorem showAi_eq (s : State) : showAi s = evalRules (fioSnapUpdate (aiShown s)) := rfl

theorem FioState.showAi_own (f : FioState) (afeOn : Nat → Bool) {n : Nat} (small : n < 48) : (f.showAi afeOn).ai.getD .reset n =
    (f.ai.getD .reset n).shown (afeOn (n / 24)) (f.supFor (f.ai.getD .reset n).cfg) := by
  unfold FioState.showAi
  rw [Tbl.getD_updateKeys_of_mem _ _ List.nodup_range _ (List.mem_range.mpr small)]

theorem FioState.showAi_sup (f : FioState) (afeOn : Nat → Bool) : (f.showAi afeOn).sup = f.sup := by
  unfold FioState.showAi
  dsimp only

theorem aiShown_aiInput (s : State) (n : Fin 48) :
    (aiShown s).aiInput n.val = (s.aiInput n.val).shown (s.afeOn (n.val / 24)) (s.fio.supFor (s.aiInput n.val).cfg) :=
  FioState.showAi_own s.fio s.afeOn n.isLt

theorem aiShown_sup (s : State) (k : Nat) : (aiShown s).sup k = s.sup k :=
  congrArg (fun t : Tbl SupState => t.getD .reset k) (FioState.showAi_sup s.fio s.afeOn)

theorem snapShown_aiInput (s : State) (n : Fin 48) :
    (fioSnapUpdate (aiShown s)).aiInput n.val = (s.aiInput n.val).shown (s.afeOn (n.val / 24)) (s.fio.supFor (s.aiInput n.val).cfg) :=
  (State.aiInput_of_fio (fioSnapUpdate_fio _) _).trans (aiShown_aiInput s n)

theorem snapShown_sup (s : State) (k : Nat) : (fioSnapUpdate (aiShown s)).sup k = s.sup k :=
  (State.sup_of_fio (fioSnapUpdate_fio _) k).trans (aiShown_sup s k)

theorem snapShown_frame (s : State) : Frame [.fio, .sig, .mbx, .log, .vz] s (fioSnapUpdate (aiShown s)) :=
  Frame.via (fioSnapUpdate_frame _) (by decide) (Frame.set_fio (Frame.refl ..) (by decide))

theorem AiInput.shown_of_faulty (x : AiInput) (powered : Bool) : (x.shown powered false).code = 0x3FFF ∧ (x.shown powered false).supf = true := by
  unfold AiInput.shown
  rw [Bool.and_false]
  exact ⟨rfl, rfl⟩

theorem AiInput.shown_supf (x : AiInput) (powered supOk : Bool) : (x.shown powered supOk).supf = !supOk := by
  unfold AiInput.shown
  dsimp only
  split
  · rfl
  · rfl

theorem FioState.supFor_of_ratio {f : FioState} {a : AiConfig} {k : Nat} (ratio : a.ratio = k + 1) : f.supFor a = (f.sup.getD .reset k).ok := by
  rw [FioState.supFor, ratio, decide_eq_false (Nat.succ_ne_zero k)]
  rfl

/-- What a change of one supply leaves, once its inputs are shown under it. -/
theorem supTaken_leaves (k : Nat) (f : SupState → SupState) (s : State) : ∃ u, showAi (s.modSup k f) = evalRules u ∧ u.sup k = f (s.sup k) ∧
    (∀ j, j ≠ k → u.sup j = s.sup j) ∧
    (∀ n : Fin 48, (s.aiInput n.val).cfg.ratio = k + 1 →
      u.aiInput n.val = (s.aiInput n.val).shown (s.afeOn (n.val / 24)) (f (s.sup k)).ok) ∧ Frame [.fio, .sig, .mbx, .log, .vz] s u := by
  refine ⟨_, showAi_eq _, (snapShown_sup ..).trans (State.modSup_same ..), fun j other => (snapShown_sup ..).trans (State.modSup_other _ _ _ j other),
    fun n ratio => ?_, Frame.via (snapShown_frame _) (by decide) ((State.modSup_frame ..).mono (by decide))⟩
  have same : (s.modSup k f).fio.supFor (s.aiInput n.val).cfg = (f (s.sup k)).ok :=
    (FioState.supFor_of_ratio ratio).trans (congrArg SupState.ok (State.modSup_same s k f))
  exact (snapShown_aiInput (s.modSup k f) n).trans (congrArg ((s.aiInput n.val).shown (s.afeOn (n.val / 24))) same)

/-! ### Samples of analog inputs -/

section
variable {s : State} (sup : List (Nat × Nat)) (uv : List Int)

theorem supMeasure_ai : (supMeasure sup s).fio.ai = s.fio.ai :=
  foldl_kept (fun s : State => s.fio.ai) (fun s k _ => by
    dsimp only
    split
    · rfl
    · rfl) s

theorem supMeasure_ok (j : Nat) : ((supMeasure sup s).fio.sup.getD .reset j).ok = (s.fio.sup.getD .reset j).ok :=
  foldl_kept (fun s : State => (s.fio.sup.getD .reset j).ok) (fun s k _ => by
    dsimp only
    split
    · by_cases same : j = k
      · subst same
        dsimp only
        rw [Tbl.getD_modify_same]
      · dsimp only
        rw [Tbl.getD_modify_other _ _ _ _ _ same]
    · rfl) s

theorem supMeasure_supFor (a : AiConfig) : (supMeasure sup s).fio.supFor a = s.fio.supFor a := by
  unfold FioState.supFor
  rw [supMeasure_ok]

/-- What one sample gives an input of a powered front end: the mean of fewer samples than asked for is a free code (R183). -/
def Sampled (s : State) (n : Nat) (x y : AiInput) : Prop :=
  if s.afeOn (n / 24) then ∃ supUv free, y = x.take (sampleCode s x.cfg (uv.getD n 0) supUv) free else y = x

theorem sampleCode_of_sup {s t : State} (same : t.fio.sup = s.fio.sup) (a : AiConfig) (x y : Int) : sampleCode t a x y = sampleCode s a x y := by
  unfold sampleCode FioState.supFor
  rw [same]

theorem aiOne_own (n : Nat) (t : State) (same : t.fio.sup = s.fio.sup ∧ t.sys = s.sys) :
    Sampled uv s n (t.aiInput n) ((aiOne n (uv.getD n 0) sup t).aiInput n) := by
  obtain ⟨sups, sys⟩ := same
  have afe : t.afeOn (n / 24) = s.afeOn (n / 24) := by
    unfold State.afeOn State.powered
    rw [sys]
  unfold Sampled aiOne
  rw [afe]
  split
  · exact ⟨_, _, (Tbl.getD_set_same ..).trans (congrArg (fun c => (t.aiInput n).take c _) (sampleCode_of_sup sups _ _ _))⟩
  · rfl

theorem aiOne_other {n m : Nat} (t : State) (other : m ≠ n) : (aiOne n (uv.getD n 0) sup t).aiInput m = t.aiInput m := by
  unfold aiOne
  split
  · exact Tbl.getD_set_other _ _ _ _ _ other
  · rfl

theorem aiOne_keeps (n : Nat) (t : State) : (aiOne n (uv.getD n 0) sup t).fio.sup = t.fio.sup ∧ (aiOne n (uv.getD n 0) sup t).sys = t.sys := by
  unfold aiOne
  split
  · exact ⟨rfl, rfl⟩
  · exact ⟨rfl, rfl⟩

/-- A sampling of all the analog inputs takes each of them once (R183, R184). -/
theorem aiSampled (n : Fin 48) : Sampled uv (supMeasure sup s) n.val (s.aiInput n.val)
    ((fioSnapUpdate ((List.range 48).foldl (fun s n => aiOne n (uv.getD n 0) sup s) (supMeasure sup s))).aiInput n.val) := by
  rw [State.aiInput_of_fio (fioSnapUpdate_fio _)]
  have start : s.aiInput n.val = (supMeasure sup s).aiInput n.val := by
    unfold State.aiInput
    rw [supMeasure_ai]
  rw [start]
  exact foldl_once (fun (t : State) n => t.aiInput n) (fun t => t.fio.sup = (supMeasure sup s).fio.sup ∧ t.sys = (supMeasure sup s).sys)
    (Sampled uv (supMeasure sup s)) (fun t a => aiOne_own sup uv a t) (fun t a b => aiOne_other sup uv t)
    (fun t a same => ⟨(aiOne_keeps sup uv a t).1.trans same.1, (aiOne_keeps sup uv a t).2.trans same.2⟩) List.nodup_range ⟨rfl, rfl⟩
    n.val (List.mem_range.mpr n.isLt)

theorem aiSampled_frame : Frame [.fio, .free, .mbx, .log, .vz, .sig] s
    (fioSnapUpdate ((List.range 48).foldl (fun s n => aiOne n (uv.getD n 0) sup s) (supMeasure sup s))) :=
  Frame.via (fioSnapUpdate_frame _) (by decide) (Frame.foldl (fun t n => (aiOne_frame ..).mono (by decide)) ((supMeasure_frame ..).mono (by decide)))

theorem supMeasure_afeOn (h : Nat) : (supMeasure sup s).afeOn h = s.afeOn h := by
  unfold State.afeOn State.powered
  rw [(supMeasure_frame sup s).same .sys (by decide)]

/-- What a powered input takes. -/
theorem aiSampled_of_powered (n : Fin 48) (powered : s.afeOn (n.val / 24) = true) : ∃ supUv free,
    (fioSnapUpdate ((List.range 48).foldl (fun s n => aiOne n (uv.getD n 0) sup s) (supMeasure sup s))).aiInput n.val =
      (s.aiInput n.val).take (sampleCode (supMeasure sup s) (s.aiInput n.val).cfg (uv.getD n.val 0) supUv) free := by
  have done := aiSampled (s := s) sup uv n
  rwa [Sampled, if_pos (by rw [supMeasure_afeOn]; exact powered)] at done

theorem aiSampled_of_unpowered (n : Fin 48) (off : s.afeOn (n.val / 24) = false) :
    (fioSnapUpdate ((List.range 48).foldl (fun s n => aiOne n (uv.getD n 0) sup s) (supMeasure sup s))).aiInput n.val = s.aiInput n.val := by
  have done := aiSampled (s := s) sup uv n
  rwa [Sampled, if_neg (by rw [supMeasure_afeOn, off]; exact Bool.false_ne_true)] at done

end

/-- A single sample that is valid is the code itself (R183). -/
theorem AiInput.take_of_single {x : AiInput} {c : Nat} {over_ : Bool} {free : U16} (k : x.cfg.k = 0) :
    (x.take (some c, over_) free).code = c ∧ (x.take (some c, over_) free).orange = over_ := by
  refine ⟨?_, rfl⟩
  unfold AiInput.take
  dsimp only
  rw [k]
  show (if ([some c] : List (Option Nat)).length = 1 && ([some c] : List (Option Nat)).all Option.isSome then sumCodes [some c] / 1 else _) = c
  refine (if_pos ?_).trans ((Nat.div_one _).trans (Nat.zero_add c))
  rfl

theorem AiInput.take_of_none (x : AiInput) (over_ : Bool) (free : U16) : (x.take (none, over_) free).code = 0x3FFF ∧
    (x.take (none, over_) free).supf = true ∧ (x.take (none, over_) free).value = 0xFFFF := ⟨rfl, rfl, rfl⟩

theorem supFault_of_on {k : Nat} {forced : Bool} {s : State} (on_ : (s.sup k).on = true) (afe : s.afeOn (k / 2) = true) : supFault k forced s =
    if (s.sup k).ilim || (s.sup k).extV then
      showAi (s.modSup k (fun x => { x with ok := false, ilim := x.ilim || !forced, extV := x.extV || forced }))
    else raiseFio evt_fioSupFault k (s.supOwner k) []
      (showAi (s.modSup k (fun x => { x with ok := false, ilim := x.ilim || !forced, extV := x.extV || forced }))) :=
  if_pos (by rw [on_, afe]; rfl)

theorem supRetry_of_fault {k : Nat} {s : State} (on_ : (s.sup k).on = true) (fault : (s.sup k).ilim = true ∨ (s.sup k).extV = true)
    (afe : s.afeOn (k / 2) = true) : supRetry k true s =
      raiseFio evt_fioSupOk k (s.supOwner k) [] (showAi (s.modSup k (fun x => { x with ok := true, ilim := false, extV := false }))) :=
  if_pos (by rw [on_, afe, Bool.or_eq_true _ _ |>.mpr fault]; rfl)

/-- Settles O21: a sample is the filter of its input followed by at most one change, and a supply that changes shows all its inputs anew. -/
theorem fieldInputEventsAct : Obligations.FieldInputEventsAct := by
  refine ⟨?same, ?change, ?unpowered, ?stamp, ?ai, ?fault, ?off, ?retry, ?noRetry⟩
  case same =>
    rintro n mv e s afe rfl same
    exact ⟨_, congrArg Host.Outcome.next ((if_pos afe).trans (diPut_of_same same.symm)), diKept_own, fun m other => diKept_other other,
      State.modDi_frame ..⟩
  case change =>
    rintro n mv e s afe rfl change off
    exact ⟨_, congrArg Host.Outcome.next (if_pos afe), diPut_of_disabled (Ne.symm change) off⟩
  case unpowered => exact fun n mv s off => congrArg Host.Outcome.next (if_neg (by rw [off]; exact Bool.false_ne_true))
  case stamp =>
    intro v s owns
    obtain ⟨w, above, met, is⟩ := readDiStamp_of_owner owns
    refine ⟨_, congrArg Host.Outcome.next is, ?_⟩
    have frame : Frame [.fio, .bus] s { s with fio := { s.fio with diStampHi := s.fio.diStampHi.set v.val (w.extractLsb' 32 32) }
                                               bus := (w.extractLsb' 0 32).zeroExtend 64 } :=
      Frame.set_bus (s := s) (t := { s with fio := { s.fio with diStampHi := s.fio.diStampHi.set v.val (w.extractLsb' 32 32) } })
        (Frame.set_fio (Frame.refl ..) (by decide)) (by decide)
    dsimp only
    rw [Tbl.getD_set_same, ← halves_toNat]
    exact ⟨above, met, frame⟩
  case ai =>
    intro uv sup s
    refine ⟨_, rfl, fun n afe => ?_, fun n afe ratio k => ?_, fun n afe ratio faulty => ?_, fun n off => aiSampled_of_unpowered sup uv n off,
      aiSampled_frame ..⟩
    · obtain ⟨supUv, free, is⟩ := aiSampled_of_powered sup uv n afe
      rw [is]
      rfl
    · obtain ⟨supUv, free, is⟩ := aiSampled_of_powered sup uv n afe
      have code : sampleCode (supMeasure sup s) (s.aiInput n.val).cfg (uv.getD n.val 0) supUv =
          (some (min (aiCode (uv.getD n.val 0) (aiFullScale (s.aiInput n.val).cfg.range)) 0x3FFE),
            decide (0x3FFE < aiCode (uv.getD n.val 0) (aiFullScale (s.aiInput n.val).cfg.range))) := by
        unfold sampleCode FioState.supFor
        rw [ratio]
        rfl
      rw [is, code]
      exact AiInput.take_of_single k
    · obtain ⟨supUv, free, is⟩ := aiSampled_of_powered sup uv n afe
      have code : sampleCode (supMeasure sup s) (s.aiInput n.val).cfg (uv.getD n.val 0) supUv = (none, false) := by
        unfold sampleCode
        rw [supMeasure_supFor, FioState.supFor, decide_eq_false ratio, Bool.false_or]
        exact if_neg (by rw [show (s.fio.sup.getD .reset ((s.aiInput n.val).cfg.ratio - 1)).ok = false from faulty]; exact Bool.false_ne_true)
      rw [is, code]
      exact AiInput.take_of_none ..
  case fault =>
    intro sup forced s on_ afe
    obtain ⟨u, is, own, others, inputs, framed⟩ := supTaken_leaves sup.val
      (fun x => { x with ok := false, ilim := x.ilim || !forced, extV := x.extV || forced }) s
    refine ⟨_, congrArg Host.Outcome.next (supFault_of_on on_ afe), u, by rw [is], ?_, ?_, ?_, others, fun n ratio => ?_, framed⟩
    · rw [own]
    · rw [own]
    · rw [own]
    · rw [inputs n ratio]
      exact AiInput.shown_of_faulty ..
  case off =>
    exact fun sup forced s off => congrArg Host.Outcome.next (if_neg (by rw [off]; exact Bool.false_ne_true))
  case retry =>
    intro sup s on_ fault afe
    obtain ⟨u, is, own, others, inputs, framed⟩ := supTaken_leaves sup.val (fun x => { x with ok := true, ilim := false, extV := false }) s
    refine ⟨_, congrArg Host.Outcome.next (supRetry_of_fault on_ fault afe), u, by rw [is], ?_, ?_, ?_, others, fun n ratio => ?_, framed⟩
    · rw [own]
    · rw [own]
    · rw [own]
    · rw [inputs n ratio, AiInput.shown_supf]
      rfl
  case noRetry =>
    refine fun sup s => congrArg Host.Outcome.next (if_neg ?_)
    rw [Bool.and_false]
    exact Bool.false_ne_true

end Sys2Proof.Machine
end

section
/-! PROOF. The FIO commands of the inputs and supplies (R178, R180, R182, R183, R185, R199, Table 7.19). -/

namespace Sys2Proof.Machine

/-! ### The checks of the commands -/

section
variable {s : State} {r : Req} {p : Port}

theorem Need.check_owner_ite {n max : Nat} {own : Option Nat} (small : n ≤ max) (may : p.mayUse own) :
    (if n ≤ max then Need.owner own else .any).check p = none := by
  rw [if_pos small]
  exact Need.check_of_mayUse may

theorem ownsOneNeed_of_sysPriv (own : Nat → Option Nat) (count : Nat) (system : p.sysPriv = true) : (ownsOneNeed s r own count).check p = none :=
  Need.check_of_sysPriv system _

theorem ownsOneNeed_of_owner {own : Nat → Option Nat} {count v : Nat} (open_ : s.port? r.port = some p) (vzf : p.vzf = some v)
    (owns : ∃ n, n < count ∧ own n = some v) : (ownsOneNeed s r own count).check p = none := by
  obtain ⟨n, small, is⟩ := owns
  have found : (List.range count).any (fun n => decide (own n = some v)) = true :=
    List.any_eq_true.mpr ⟨n, List.mem_range.mpr small, decide_eq_true is⟩
  unfold ownsOneNeed
  rw [open_, Option.bind_some, vzf, Option.filter_some, if_pos found]
  exact Need.check_of_mayUse (.inr ⟨rfl, vzf.symm⟩)

theorem ownsOneNeed_of_none {own : Nat → Option Nat} {count : Nat} (open_ : s.port? r.port = some p) (plain : p.sysPriv = false)
    (none_ : ∀ v n, n < count → p.vzf = some v → own n ≠ some v) : (ownsOneNeed s r own count).check p = some stat_denied := by
  have named : ((s.port? r.port).bind (·.vzf)).filter (fun v => (List.range count).any (fun n => decide (own n = some v))) = none := by
    rw [open_, Option.bind_some]
    refine Option.filter_eq_none_iff.mpr fun v vzf found => ?_
    obtain ⟨n, small, is⟩ := List.any_eq_true.mp found
    exact none_ v n (List.mem_range.mp small) vzf (of_decide_eq_true is)
  unfold ownsOneNeed Need.check
  rw [named, plain]
  rfl

theorem ownersNeed_of_sysPriv (own : Nat → Option Nat) (ns : List Nat) (system : p.sysPriv = true) : (ownersNeed s r own ns).check p = none := by
  unfold ownersNeed
  dsimp only
  split
  · exact Need.check_of_sysPriv system _
  · rfl

theorem seen_of_sysPriv (own : Nat → Option Nat) (system : p.sysPriv = true) : seen p own = fun _ => true := by
  funext n
  rw [seen, system, Bool.true_or]

theorem seen_of_vzf (own : Nat → Option Nat) {v : Nat} (plain : p.sysPriv = false) (vzf : p.vzf = some v) :
    seen p own = fun n => decide (own n = some v) := by
  funext n
  rw [seen, plain, vzf]
  rfl

end

/-! ### What the commands leave -/

section
variable {s : State}

/-- What an analog input shows under a new record (R183, R184). -/
theorem aiConfigBody_leaves (n : Nat) (a : AiConfig) (s : State) : ∃ u, aiConfigBody n a s = (evalRules u, .ok []) ∧
    (∀ m : Fin 48, m.val = n → u.aiInput m.val = ((s.aiInput m.val).configure a).shown (s.afeOn (m.val / 24)) (s.fio.supFor a)) ∧
    (∀ m : Fin 48, m.val ≠ n → u.aiInput m.val = (s.aiInput m.val).shown (s.afeOn (m.val / 24)) (s.fio.supFor (s.aiInput m.val).cfg)) ∧
    Frame [.fio, .sig, .mbx, .log, .vz] s u := by
  obtain ⟨t, isT, own, other, afe, sup, framed⟩ : ∃ t : State, t = { s with fio := { s.fio with ai := s.fio.ai.modify .reset n (fun x => x.configure a) } } ∧
      t.aiInput n = (s.aiInput n).configure a ∧ (∀ m, m ≠ n → t.aiInput m = s.aiInput m) ∧ t.afeOn = s.afeOn ∧ t.fio.supFor = s.fio.supFor ∧
      Frame [.fio] s t :=
    ⟨_, rfl, Tbl.getD_modify_same .., fun m other => Tbl.getD_modify_other _ _ _ _ _ other, rfl, rfl, Frame.set_fio (Frame.refl ..) (by decide)⟩
  refine ⟨fioSnapUpdate (aiShown t), by rw [isT]; rfl, fun m same => ?_, fun m others => ?_, Frame.via (snapShown_frame _) (by decide) (framed.mono (by decide))⟩
  · rw [snapShown_aiInput, same, own, afe, sup]
    rfl
  · rw [snapShown_aiInput, other _ others, afe, sup]

theorem AiInput.shown_kept (x : AiInput) (powered supOk : Bool) : (x.shown powered supOk).cfg = x.cfg ∧ (x.shown powered supOk).hist = x.hist := by
  unfold AiInput.shown
  dsimp only
  split
  · exact ⟨rfl, rfl⟩
  · exact ⟨rfl, rfl⟩

theorem AiInput.shown_of_fed (x : AiInput) : x.shown true true = { x with supf := false } := rfl

/-- A supply that is set shows its inputs at once (R185). -/
def SupState.setTo (x : SupState) (on_ afe : Bool) : SupState :=
  if on_ then { x with on := true, ok := x.ok || (!x.on && afe) } else { x with on := false, ok := false, ilim := false, extV := false }

theorem supSetBody_leaves (k : Nat) (on_ : Bool) (s : State) : ∃ u, supSetBody k on_ s = (evalRules u, .ok (le32 ((evalRules u).sup k).word)) ∧
    u.sup k = (s.sup k).setTo on_ (s.afeOn (k / 2)) ∧ (∀ j, j ≠ k → u.sup j = s.sup j) ∧
    (∀ n : Fin 48, (s.aiInput n.val).cfg.ratio = k + 1 →
      u.aiInput n.val = (s.aiInput n.val).shown (s.afeOn (n.val / 24)) ((s.sup k).setTo on_ (s.afeOn (k / 2))).ok) ∧
    Frame [.fio, .sig, .mbx, .log, .vz] s u := by
  obtain ⟨u, is, own, others, inputs, framed⟩ := supTaken_leaves k (fun x => x.setTo on_ (s.afeOn (k / 2))) s
  refine ⟨u, ?_, own, others, inputs, framed⟩
  show (showAi (s.modSup k (fun x => x.setTo on_ (s.afeOn (k / 2)))),
    Reply.ok (le32 ((showAi (s.modSup k (fun x => x.setTo on_ (s.afeOn (k / 2))))).sup k).word)) = _
  rw [is]

/-- A change of every entry that leaves the default as it is. -/
theorem Tbl.getD_mapAll_of_default {α : Type} (t : Tbl α) (d : α) (k : Nat) (f : Nat → α → α) (fixed : f k d = d) :
    (t.mapAll f).getD d k = f k (t.getD d k) := by
  have mapped := Tbl.get?_mapAll t k f
  simp only [Tbl.get?] at mapped
  simp only [Tbl.getD, mapped]
  cases Tbl.find t.cells k with
  | none => exact fixed.symm
  | some v => rfl

/-- What a read of the discrete inputs leaves: the change bits of the inputs that it shows clear (R182). -/
theorem diReadBody_leaves (p : Port) (s : State) (n : Nat) : (diReadBody p s).1.diInput n =
    { s.diInput n with readChg := (s.diInput n).readChg && !seen p s.diOwner n } :=
  Tbl.getD_mapAll_of_default s.fio.di .reset n _ rfl

end

/-- The payload of a record that is in range and without conflict. -/
theorem di_payload {f : DiFields} {input : Nat} (small : input ≤ 63) (flags : f.flags.toNat < 48) (range_ : (diRecordOf f).rangeOk = true) :
    orStat (needStat (decide (input ≤ 63)) stat_range) (orStat (needStat (decide (f.flags.toNat < 48)) stat_badPayload)
      (orStat (needStat (diRecordOf f).rangeOk stat_range) (needStat (!(diRecordOf f).conflict) stat_fioConflict))) =
    needStat (!(diRecordOf f).conflict) stat_fioConflict := by
  rw [decide_eq_true small, decide_eq_true flags, range_]
  rfl

/-- Settles O22: each command passes the checks of R72, and what it changes is shown at once. What a port sees of inputs it does not own is
log entry 132, the change bits that a read clears entry 58, the samples that a new record keeps entry 57. -/
theorem fieldInputCommandsAct : Obligations.FieldInputCommandsAct := by
  refine ⟨?config, ?configChange, ?conflict, ?readAll, ?readOwn, ?readNone, ?aiConfig, ?aiRead, ?aiRange, ?supOn, ?supOff, ?cyclic⟩
  case config =>
    intro s r p input f q small may flags range_ free mode same
    refine answers_of_accepted q rfl (q.passes (decide_eq_true q.len) (Need.check_owner_ite small may)
      ((di_payload small flags range_).trans (by rw [free]; rfl)) mode) rfl rfl ?_
    have is : diRestart input.toNat (diRecordOf f) s = diKept input.toNat ((s.diInput input.toNat).restart (diRecordOf f)) s := diPut_of_same same
    rw [is, diKept_own]
    exact ⟨rfl, rfl, rfl, rfl, same, fun m other => diKept_other other, State.modDi_frame ..⟩
  case configChange =>
    intro s r p input f q small may flags range_ free mode change off
    refine answers_of_accepted q rfl (q.passes (decide_eq_true q.len) (Need.check_owner_ite small may)
      ((di_payload small flags range_).trans (by rw [free]; rfl)) mode) rfl rfl ?_
    obtain ⟨own, others, framed⟩ := diPut_of_disabled (d := (s.diInput input.toNat).restart (diRecordOf f)) change off
    rw [diRestart, own]
    exact ⟨rfl, rfl, rfl, others, framed⟩
  case conflict =>
    intro s r p input f q small may flags range_ clash
    exact answers_of_rejected q rfl (q.refused (decide_eq_true q.len) (Need.check_owner_ite small may)
      ((di_payload small flags range_).trans (by rw [clash]; rfl))) rfl rfl
  case readAll =>
    intro s r p q system mode
    have all := seen_of_sysPriv s.diOwner system
    refine answers_of_accepted q rfl (q.passes (decide_eq_true q.len) (ownsOneNeed_of_sysPriv _ _ system) rfl mode) ?_ rfl
      (u := (diReadBody p s).1) ⟨fun n => ?_, diReadBody_frame ..⟩
    · unfold diReadBody
      rw [all]
      simp only [Bool.true_and]
      rfl
    · rw [diReadBody_leaves, all]
      exact ⟨Bool.and_false _, rfl, rfl⟩
  case readOwn =>
    intro s r p v q plain vzf owns mode
    have mine := seen_of_vzf s.diOwner plain vzf
    obtain ⟨n, own⟩ := owns
    refine answers_of_accepted q rfl (q.passes (decide_eq_true q.len) (ownsOneNeed_of_owner q.port vzf ⟨n.val, n.isLt, own⟩) rfl mode) ?_ rfl
      (u := (diReadBody p s).1) ⟨fun m other => ?_, fun m same => ?_, diReadBody_frame ..⟩
    · unfold diReadBody
      rw [mine]
      rfl
    · rw [diReadBody_leaves, mine]
      dsimp only
      rw [decide_eq_false other, Bool.not_false, Bool.and_true]
    · rw [diReadBody_leaves, mine]
      dsimp only
      rw [decide_eq_true same, Bool.not_true, Bool.and_false]
  case readNone =>
    intro s r p q plain none_
    exact answers_of_rejected q rfl (q.denied (decide_eq_true q.len)
      (ownsOneNeed_of_none q.port plain fun v n small vzf => none_ v ⟨n, small⟩ vzf)) rfl rfl
  case aiConfig =>
    intro s r p input range ratio k q small may range_ source depth exclusive mode
    obtain ⟨u, is, own, others, framed⟩ := aiConfigBody_leaves input.toNat { range := range.toNat, ratio := ratio.toNat, k := k.toNat } s
    have shown := own ⟨input.toNat, Nat.lt_succ_of_le small⟩ rfl
    dsimp only at shown
    have free : (decide (ratio = 0) || decide (range = 0)) = true :=
      (Bool.or_eq_true _ _).mpr (exclusive.imp decide_eq_true decide_eq_true)
    obtain ⟨t, at_, leaves⟩ := answers_of_accepted (c := .fioAiConfig r input range ratio k) q rfl (q.passes (decide_eq_true q.len)
      (Need.check_owner_ite small may) (by
        rw [decide_eq_true small, decide_eq_true range_, decide_eq_true source, decide_eq_true depth, free]
        rfl) mode) is rfl (post := fun t => t = evalRules u) rfl
    refine ⟨u, by rw [at_, leaves], ?_, ?_, ?_, ?_, others, framed⟩
    · rw [shown, (AiInput.shown_kept ..).1]
      rfl
    · intro same
      rw [shown, (AiInput.shown_kept ..).2]
      exact if_pos same
    · intro powered fed
      rw [shown, powered, fed, AiInput.shown_of_fed]
      exact ⟨rfl, rfl⟩
    · intro faulty
      rw [shown, faulty]
      exact AiInput.shown_of_faulty ..
  case aiRead =>
    intro s r p first q small system mode
    have fits : (decide (1 ≤ (1 : U16).toNat) && decide ((1 : U16).toNat ≤ 48) && decide (first.toNat + (1 : U16).toNat ≤ 48)) = true := by
      rw [decide_eq_true (show first.toNat + (1 : U16).toNat ≤ 48 from small)]
      rfl
    refine answers_of_accepted q rfl (q.passes (decide_eq_true q.len) ?_ (by rw [fits]; rfl) mode) ?_ rfl rfl
    · rw [if_pos fits]
      exact ownersNeed_of_sysPriv _ _ system
    · show (s, Reply.ok (((List.range 1).map (fun i => first.toNat + i)).flatMap _)) = _
      simp only [List.range_one, List.map_cons, List.map_nil, List.flatMap_cons, List.flatMap_nil, Nat.add_zero, List.append_nil]
      rfl
  case aiRange =>
    intro s r p first count q high
    have over_ : (decide (1 ≤ count.toNat) && decide (count.toNat ≤ 48) && decide (first.toNat + count.toNat ≤ 48)) = false := by
      rw [decide_eq_false (Nat.not_le.mpr high), Bool.and_false]
    refine answers_of_rejected q rfl (q.refused (decide_eq_true q.len) ?_ (by rw [over_]; rfl)) rfl rfl
    rw [if_neg (by rw [over_]; exact Bool.false_ne_true)]
    rfl
  case supOn =>
    intro s r p supply q small may mode off afe
    obtain ⟨u, is, own, others, inputs, framed⟩ := supSetBody_leaves supply.toNat true s
    have ok : ((s.sup supply.toNat).setTo true (s.afeOn (supply.toNat / 2))).ok = true := by
      show ((s.sup supply.toNat).ok || (!(s.sup supply.toNat).on && s.afeOn (supply.toNat / 2))) = true
      rw [off, afe]
      exact Bool.or_true _
    obtain ⟨t, at_, leaves⟩ := answers_of_accepted (c := .fioSupSet r supply 1) q rfl (q.passes (decide_eq_true q.len)
      (Need.check_owner_ite small may) (by rw [decide_eq_true small]; rfl) mode) is rfl (post := fun t => t = evalRules u) rfl
    refine ⟨_, at_, u, by rw [leaves], ?_, ?_, others, fun n ratio => ?_, framed⟩
    · rw [own]
      rfl
    · rw [own, ok]
    · rw [inputs n ratio, AiInput.shown_supf, ok]
      rfl
  case supOff =>
    intro s r p supply q small may mode
    obtain ⟨u, is, own, others, inputs, framed⟩ := supSetBody_leaves supply.toNat false s
    obtain ⟨t, at_, leaves⟩ := answers_of_accepted (c := .fioSupSet r supply 0) q rfl (q.passes (decide_eq_true q.len)
      (Need.check_owner_ite small may) (by rw [decide_eq_true small]; rfl) mode) is rfl (post := fun t => t = evalRules u) rfl
    refine ⟨_, at_, u, by rw [leaves], ?_, ?_, ?_, ?_, fun n ratio => ?_, framed⟩
    · rw [own]
      rfl
    · rw [own]
      rfl
    · rw [own]
      rfl
    · rw [own]
      rfl
    · rw [inputs n ratio]
      exact AiInput.shown_of_faulty ..
  case cyclic =>
    intro s r p mask tCyc k q system low high least most mode
    exact answers_of_accepted q rfl (q.passes (decide_eq_true q.len) (Need.check_of_sysPriv system _)
      (by rw [decide_eq_true low, decide_eq_true high, decide_eq_true least, decide_eq_true most]; rfl) mode) rfl rfl
      ⟨rfl, rfl, rfl, fun n => rfl, Frame.set_fio (Frame.refl ..) (by decide)⟩

end Sys2Proof.Machine
end

section
/-! PROOF. The barrier link and the field side of the isolated bank (R187 to R194, Table 7.5). -/

namespace Sys2Proof.Machine

/-! ### Frames -/

/-- Two bits for each entry, from bit `b` on. -/
theorem pairs_sum (pairs : Nat → Nat) (b n : Nat) : ∃ m, m < 4 ^ n ∧
    (List.range n).foldl (fun a k => a + (pairs k % 4) * 2 ^ (b + 2 * k)) 0 = m * 2 ^ b := by
  induction n with
  | zero => exact ⟨0, Nat.one_pos, (Nat.zero_mul _).symm⟩
  | succ n ih =>
    obtain ⟨m, small, is⟩ := ih
    have last : pairs n % 4 ≤ 3 := by omega
    have power : 2 ^ (b + 2 * n) = 4 ^ n * 2 ^ b := by
      rw [Nat.pow_add, Nat.pow_mul, Nat.mul_comm]
    refine ⟨m + (pairs n % 4) * 4 ^ n, ?_, ?_⟩
    · calc m + (pairs n % 4) * 4 ^ n < 4 ^ n + 3 * 4 ^ n := Nat.add_lt_add_of_lt_of_le small (Nat.mul_le_mul_right _ last)
        _ = 4 ^ (n + 1) := by rw [Nat.pow_succ]; omega
    · rw [List.range_succ, List.foldl_append, is, List.foldl_cons, List.foldl_nil, power, Nat.add_mul, Nat.mul_assoc]

/-- The body of a frame before its CRC. -/
def frameBody (header : Nat) (seq : Byte) (pairs : Nat → Nat) (low : Nat) : BitVec 128 := BitVec.ofNat 128
  (header * 2 ^ 120 + seq.toNat * 2 ^ 112 + (List.range 32).foldl (fun a k => a + (pairs k % 4) * 2 ^ (48 + 2 * k)) 0 + low * 2 ^ 16)

section
variable (header : Nat) (seq : Byte) (pairs : Nat → Nat) (low : Nat)

theorem frameOf_eq : frameOf header seq pairs low =
    frameBody header seq pairs low ||| (frameCrc (frameBody header seq pairs low)).zeroExtend 128 := rfl

variable {header low} (narrow : header < 256) (short : low < 2 ^ 32)
include narrow short

theorem frameBody_fields : (frameBody header seq pairs low).extractLsb' 112 8 = seq ∧ (frameBody header seq pairs low).extractLsb' 0 16 = 0 := by
  obtain ⟨m, small, is⟩ := pairs_sum pairs 48 32
  have q := seq.isLt
  have whole : (frameBody header seq pairs low).toNat = header * 2 ^ 120 + seq.toNat * 2 ^ 112 + m * 2 ^ 48 + low * 2 ^ 16 := by
    rw [frameBody, is, BitVec.toNat_ofNat]
    exact Nat.mod_eq_of_lt (by omega)
  constructor
  · refine BitVec.eq_of_toNat_eq ?_
    rw [BitVec.extractLsb'_toNat, whole, Nat.shiftRight_eq_div_pow]
    omega
  · refine BitVec.eq_of_toNat_eq ?_
    rw [BitVec.extractLsb'_toNat, whole, Nat.shiftRight_eq_div_pow]
    show _ = 0
    omega

end

/-- The CRC of a frame covers its bits 16 to 127 alone (R190). -/
theorem frameCrc_or (f : BitVec 128) (c : U16) : frameCrc (f ||| c.zeroExtend 128) = frameCrc f := by
  refine List.foldl_rel (r := Eq) rfl fun i named crc _ same => ?_
  subst same
  have small := List.mem_range.mp named
  rw [BitVec.getLsbD_or]
  have clear : (c.zeroExtend 128).getLsbD (127 - i) = false := by
    rw [BitVec.getLsbD_setWidth, BitVec.getLsbD_of_ge _ _ (by omega), Bool.and_false]
  rw [clear, Bool.or_false]

/-- A frame carries its sequence and its own CRC (R190, Table 7.6). -/
theorem frameOf_fields {header : Nat} (seq : Byte) (pairs : Nat → Nat) {low : Nat} (narrow : header < 256) (short : low < 2 ^ 32) :
    (frameOf header seq pairs low).extractLsb' 112 8 = seq ∧
      (frameOf header seq pairs low).extractLsb' 0 16 = frameCrc (frameOf header seq pairs low) := by
  obtain ⟨high, zero⟩ := frameBody_fields seq pairs narrow short
  rw [frameOf_eq, frameCrc_or, BitVec.extractLsb'_or, BitVec.extractLsb'_or, high, zero]
  generalize frameCrc (frameBody header seq pairs low) = c
  have small := c.isLt
  constructor
  · have none_ : (c.zeroExtend 128).extractLsb' 112 8 = 0 := by
      refine BitVec.eq_of_toNat_eq ?_
      rw [BitVec.extractLsb'_toNat, BitVec.toNat_setWidth, Nat.shiftRight_eq_div_pow]
      show _ = 0
      omega
    rw [none_]
    exact BitVec.or_zero
  · have all : (c.zeroExtend 128).extractLsb' 0 16 = c := by
      refine BitVec.eq_of_toNat_eq ?_
      rw [BitVec.extractLsb'_toNat, BitVec.toNat_setWidth, Nat.shiftRight_eq_div_pow]
      omega
    rw [all]
    exact BitVec.zero_or

/-! ### Channels of the bank -/

theorem State.xch_of_fio {s t : State} (same : t.fio = s.fio) (k : Nat) : t.xch k = s.xch k := by
  rw [State.xch, same]
  rfl

@[simp] theorem State.modBank_xch (s : State) (g : XBank → XBank) (k : Nat) : (s.modBank g).xch k = s.xch k := rfl

@[simp] theorem State.modBank_bank (s : State) (g : XBank → XBank) : (s.modBank g).fio.bank = g s.fio.bank := rfl

@[simp] theorem State.modX_bank (s : State) (k : Nat) (g : XChan → XChan) : (s.modX k g).fio.bank = s.fio.bank := rfl

theorem raiseX_fio (e : EvKind) (k : Nat) (data : List Byte) (s : State) : (raiseX e k data s).fio = s.fio :=
  (raiseX_frame e k data s).same .fio (by decide)

theorem raiseX_ite_fio (c : Bool) (e : EvKind) (k : Nat) (data : List Byte) (s : State) :
    (if c then raiseX e k data s else s).fio = s.fio := by
  cases c
  · rfl
  · exact raiseX_fio ..

theorem raiseBank_fio (e : EvKind) (s : State) : (raiseBank e s).fio = s.fio := (raiseBank_frame e s).same .fio (by decide)

/-- A change of one channel leaves the rest of the state and every other channel alone. -/
theorem State.modX_leaves (s : State) (k : Nat) (g : XChan → XChan) : Frame [.fio] s (s.modX k g) ∧ ∀ j, j ≠ k → (s.modX k g).xch j = s.xch j :=
  ⟨State.modX_frame .., fun j other => State.modX_other s k g j other⟩

/-- A change of every channel of the bank, each by its own number. -/
def State.modEachX (s : State) (g : Nat → XChan → XChan) : State := (List.range xCount).foldl (fun t k => t.modX k (g k)) s

theorem State.modEachX_own (s : State) (g : Nat → XChan → XChan) (k : Fin 32) : (s.modEachX g).xch k.val = g k.val (s.xch k.val) :=
  foldl_once (fun (t : State) k => t.xch k) (fun _ => True) (fun k x y => y = g k x) (fun t k _ => State.modX_same t k (g k))
    (fun t k j other => State.modX_other t k (g k) j other) (fun _ _ _ => trivial) List.nodup_range trivial k.val (List.mem_range.mpr k.isLt)

theorem State.modEachX_bank (s : State) (g : Nat → XChan → XChan) : (s.modEachX g).fio.bank = s.fio.bank :=
  foldl_kept (fun t : State => t.fio.bank) (fun t k _ => State.modX_bank t k (g k)) s

theorem State.modEachX_frame (s : State) (g : Nat → XChan → XChan) : Frame [.fio] s (s.modEachX g) :=
  Frame.foldl (fun _ _ => State.modX_frame ..) (Frame.refl ..)

/-! ### The downlink -/

section
variable {s : State}

theorem XChan.put_sent (x : XChan) (c now : Nat) : (x.put c now).sent = c := by
  unfold XChan.put
  dsimp only
  split
  · rfl
  · rfl

/-- The commands of every channel enter the next frame (R192). -/
theorem xSend_sent (on_ : s.xioOn = true) (k : Fin 32) : ((xSend s).xch k.val).sent = s.xCommand k.val := by
  unfold xSend
  rw [if_pos on_]
  refine foldl_once (fun (t : State) k => t.xch k) (fun t => True) (fun k x y => x = s.xch k → y.sent = s.xCommand k)
    (fun t k _ same => ?_) (fun t k j other => ?_) (fun _ _ _ => trivial) List.nodup_range (x := s) trivial k.val (List.mem_range.mpr k.isLt) rfl
  · split
    next same' => exact (congrArg XChan.sent same).trans same'
    next => rw [State.modX_same, XChan.put_sent]
  · split
    · rfl
    · exact State.modX_other _ _ _ _ other

theorem xSend_bank : (xSend s).fio.bank = s.fio.bank := by
  unfold xSend
  split
  · refine foldl_kept (fun t : State => t.fio.bank) (fun t k _ => ?_) s
    split
    · rfl
    · rfl
  · rfl

theorem downFrame_fields (words : ∀ w ∈ s.fio.bank.words, w.1 < 256 ∧ w.2 < 16777216) :
    s.downFrame.extractLsb' 112 8 = s.fio.bank.downSeq + 1 ∧ s.downFrame.extractLsb' 0 16 = frameCrc s.downFrame := by
  unfold State.downFrame
  dsimp only
  split
  next w r first =>
    obtain ⟨addr, data⟩ := words w (first ▸ List.mem_cons_self)
    exact frameOf_fields _ _ (by decide) (by omega)
  next => exact frameOf_fields _ _ (by decide) (by decide)

theorem downlink_of_on (on_ : s.xioOn = true) (serves : s.sys.mode ≠ .basecamp) : downlink s =
    (xSend s).modBank (fun b => { b with downSeq := b.downSeq + 1, line := (xSend s).downFrame }) :=
  if_pos (by rw [on_, decide_eq_true serves]; rfl)

/-- The field side after a valid frame, before its content (R190). -/
def downNoted (f : BitVec 128) (s : State) : State := s.modBank (fun b =>
  { b with fDownSeq := some (f.extractLsb' 112 8), fLost := b.fLost + seqJump b.fDownSeq (f.extractLsb' 112 8), fTimedOut := false })

theorem xReceive_of_valid {f : BitVec 128} (on_ : s.fio.bank.fPowered = true) (valid : frameValid f 1 s.fio.bank.fDownSeq = true) : xReceive f s =
    State.modEachX (if f.getLsbD 125 then xApplyWord (frameField f 40 8) (frameField f 16 24) (downNoted f s) else downNoted f s)
      (fun k x => x.follow (frameField f (48 + 2 * k) 2)) := if_pos (by rw [on_, valid]; rfl)

theorem xReceive_of_invalid {f : BitVec 128} (h : s.fio.bank.fPowered = false ∨ frameValid f 1 s.fio.bank.fDownSeq = false) : xReceive f s = s := by
  refine if_neg fun acts => ?_
  obtain ⟨on_, valid⟩ := Bool.and_eq_true_iff.mp acts
  obtain off | bad := h
  · exact absurd (off.symm.trans on_) Bool.false_ne_true
  · exact absurd (bad.symm.trans valid) Bool.false_ne_true

/-! ### The uplink -/

/-- The state of a frame's reading on the primary side, once the field side has counted its own sequence. -/
theorem upSent_leaves : (∀ k, (upSent s).xch k = s.xch k) ∧ (upSent s).fio.bank.upSeq = s.fio.bank.upSeq ∧ (upSent s).fio.bank.up = s.fio.bank.up ∧
    (upSent s).fio.bank.run = s.fio.bank.run ∧ (upSent s).fio.bank.crcErr = s.fio.bank.crcErr ∧ (upSent s).xioOn = s.xioOn := by
  have bank : (upSent s).fio.bank = if s.fio.bank.fPowered then { s.fio.bank with fUpSeq := s.fio.bank.fUpSeq + 1 } else s.fio.bank := rfl
  rw [bank]
  split
  · exact ⟨fun _ => rfl, rfl, rfl, rfl, rfl, rfl⟩
  · exact ⟨fun _ => rfl, rfl, rfl, rfl, rfl, rfl⟩

/-- The primary side after a valid frame, before its content (R190). -/
def upNoted (f : BitVec 128) (s : State) : State := s.modBank (fun b =>
  { b with upSeq := some (f.extractLsb' 112 8), lost := b.lost + seqJump b.upSeq (f.extractLsb' 112 8)
           run := if seqJump b.upSeq (f.extractLsb' 112 8) = 0 then b.run + 1 else 1 })

theorem upNoted_run (f : BitVec 128) : (upNoted f s).fio.bank.run =
    if seqJump s.fio.bank.upSeq (f.extractLsb' 112 8) = 0 then s.fio.bank.run + 1 else 1 := rfl

section
variable {f : BitVec 128} (on_ : s.xioOn = true)
include on_

theorem uplink_of_badCrc (bad : f.extractLsb' 0 16 ≠ frameCrc f) : uplink f s =
    (upSent s).modBank (fun b => { b with crcErr := satInc 0xFF b.crcErr, run := 0 }) := by
  obtain ⟨-, -, -, -, -, same⟩ := upSent_leaves (s := s)
  unfold uplink
  dsimp only
  rw [if_neg (by rw [same, on_]; exact Bool.false_ne_true), if_pos bad]

theorem uplink_of_valid (valid : frameValid f 2 s.fio.bank.upSeq = true) : uplink f s =
    if s.fio.bank.up then xContent f (upNoted f (upSent s))
    else if 4 ≤ (upNoted f (upSent s)).fio.bank.run then xContent f (xLinkUp f (upNoted f (upSent s)))
    else upNoted f (upSent s) := by
  obtain ⟨-, seq, up, -, -, same⟩ := upSent_leaves (s := s)
  have crc : f.extractLsb' 0 16 = frameCrc f := of_decide_eq_true (Bool.and_eq_true_iff.mp (Bool.and_eq_true_iff.mp valid).1).1
  unfold uplink
  dsimp only
  rw [if_neg (by rw [same, on_]; exact Bool.false_ne_true), if_neg (not_not_intro crc),
    if_neg (by rw [seq, valid]; exact Bool.false_ne_true), up]
  rfl

end

/-- What a frame's header and acknowledgement decide of the link. -/
structure LinkIs (b : XBank) (seq : Option Byte) (up low ack : Bool) : Prop where
  seq : b.upSeq = seq
  up : b.up = up
  low : b.xvfLow = low
  ack : b.ackSeen = ack

theorem LinkIs.of_fio {t u : State} {seq : Option Byte} {up low ack : Bool} (h : LinkIs t.fio.bank seq up low ack) (same : u.fio = t.fio) :
    LinkIs u.fio.bank seq up low ack := by rwa [same]

section
variable {seq : Option Byte} {up low ack : Bool} (h : LinkIs s.fio.bank seq up low ack) (f : BitVec 128)
include h

theorem xHeader_link : LinkIs (xHeader f s).fio.bank seq up (f.getLsbD 124) ack := by
  obtain ⟨hseq, hup, -, hack⟩ := h
  have noted : LinkIs (if f.getLsbD 125 && !s.fio.bank.cfgNeeded then
      (s.modBank (fun b => { b with cfgNeeded := f.getLsbD 125, xvfLow := f.getLsbD 124 })).modBank (fun b => b.queue
        (s.modBank (fun b => { b with cfgNeeded := f.getLsbD 125, xvfLow := f.getLsbD 124 })).fio.xWords)
      else s.modBank (fun b => { b with cfgNeeded := f.getLsbD 125, xvfLow := f.getLsbD 124 })).fio.bank seq up (f.getLsbD 124) ack := by
    split
    · exact ⟨hseq, hup, rfl, hack⟩
    · exact ⟨hseq, hup, rfl, hack⟩
  unfold xHeader
  dsimp only
  split
  · exact noted.of_fio (raiseBank_fio ..)
  · exact noted

theorem xSafeAnswer_link (st : U16) : LinkIs (xSafeAnswer st s).fio.bank seq up low ack := by
  unfold xSafeAnswer
  split
  · exact h
  · rw [respond_fio]
    exact ⟨h.seq, h.up, h.low, h.ack⟩

/-- The toggle notes the word as done, and the channel of the word follows its record (R188, R189). -/
def ackPut (a : Bool) (s : State) : State :=
  match s.fio.bank.words with
  | w :: _ => if w.1 < xCount then (s.modBank (fun b => { b with ackSeen := a, words := b.words.tail })).modX w.1 (fun x => x.put x.sent s.now)
    else s.modBank (fun b => { b with ackSeen := a, words := b.words.tail })
  | [] => s.modBank (fun b => { b with ackSeen := a, words := b.words.tail })

omit h in
theorem xAcked_of_toggle {a : Bool} (toggles : s.fio.bank.ackSeen ≠ a) :
    xAcked a s = if (ackPut a s).fio.bank.words.isEmpty then xSafeAnswer stat_ok (ackPut a s) else ackPut a s := if_neg toggles

omit h in
theorem ackPut_bank (a : Bool) : (ackPut a s).fio.bank = { s.fio.bank with ackSeen := a, words := s.fio.bank.words.tail } := by
  unfold ackPut
  split
  · split
    · rfl
    · rfl
  · rfl

theorem xAcked_link (a : Bool) : LinkIs (xAcked a s).fio.bank seq up low a := by
  by_cases same : s.fio.bank.ackSeen = a
  · rw [show xAcked a s = s from if_pos same]
    exact ⟨h.seq, h.up, h.low, same⟩
  · have put : LinkIs (ackPut a s).fio.bank seq up low a := by
      rw [ackPut_bank]
      exact ⟨h.seq, h.up, h.low, rfl⟩
    rw [xAcked_of_toggle same]
    split
    · exact xSafeAnswer_link put _
    · exact put

theorem xPage_link : LinkIs (xPage f s).fio.bank seq up low ack := by
  unfold xPage
  dsimp only
  split
  · unfold xStatusPage
    dsimp only
    split
    · rw [raiseBank_fio]
      exact ⟨h.seq, h.up, h.low, h.ack⟩
    · exact ⟨h.seq, h.up, h.low, h.ack⟩
  · have kept : ∀ (t : State) k, k ∈ List.range xCount → (xDiag (frameField f 120 2) k (f.getLsbD (16 + k)) t).fio.bank = t.fio.bank := fun t k _ => by
      unfold xDiag
      dsimp only
      rw [raiseX_ite_fio, State.modX_bank]
    rw [foldl_kept (fun t : State => t.fio.bank) kept s]
    exact h

end

theorem xShow_fio (k st : Nat) (t : State) : (xShow k st t).fio = (t.modX k (fun x => { x with state := st })).fio :=
  (captureLevel_frame ..).same .fio (by decide)

theorem xShow_own (k st : Nat) (t : State) : (xShow k st t).xch k = { t.xch k with state := st } :=
  (State.xch_of_fio (xShow_fio ..) k).trans (State.modX_same ..)

theorem xShow_other {k j : Nat} (st : Nat) (t : State) (other : j ≠ k) : (xShow k st t).xch j = t.xch j :=
  (State.xch_of_fio (xShow_fio ..) j).trans (State.modX_other _ _ _ j other)

theorem xShow_bank (k st : Nat) (t : State) : (xShow k st t).fio.bank = t.fio.bank := by
  rw [xShow_fio, State.modX_bank]

theorem readback_leaves (k : Nat) (level : Bool) (t : State) : ((readback k level t).xch k).state = (t.xch k).state ∧
    (∀ j, j ≠ k → (readback k level t).xch j = t.xch j) ∧ (readback k level t).fio.bank = t.fio.bank := by
  unfold readback
  dsimp only
  split
  · exact ⟨rfl, fun _ _ => rfl, rfl⟩
  · refine ⟨?_, fun j other => ?_, ?_⟩
    · rw [State.xch_of_fio (raiseX_ite_fio ..), State.modX_same]
    · rw [State.xch_of_fio (raiseX_ite_fio ..), State.modX_other _ _ _ j other]
    · rw [raiseX_ite_fio, State.modX_bank]

/-- What a frame says of one channel. -/
def xStateTaken (f : BitVec 128) (s : State) (k : Nat) : State :=
  readback k (decide (frameField f (48 + 2 * k) 2 % 2 = 1)) (xShow k (xStateOf (frameField f (48 + 2 * k) 2)) s)

theorem xStates_eq (f : BitVec 128) (s : State) : xStates f s = (List.range xCount).foldl (xStateTaken f) s := rfl

theorem xStateTaken_own (f : BitVec 128) (s : State) (k : Nat) :
    ((xStateTaken f s k).xch k).state = xStateOf (frameField f (48 + 2 * k) 2) := by
  rw [xStateTaken, (readback_leaves ..).1, xShow_own]

theorem xStateTaken_other (f : BitVec 128) (s : State) {k j : Nat} (other : j ≠ k) : (xStateTaken f s k).xch j = s.xch j := by
  rw [xStateTaken, (readback_leaves ..).2.1 j other, xShow_other _ _ other]

theorem xStateTaken_bank (f : BitVec 128) (s : State) (k : Nat) : (xStateTaken f s k).fio.bank = s.fio.bank := by
  rw [xStateTaken, (readback_leaves ..).2.2, xShow_bank]

theorem xStates_state (f : BitVec 128) (s : State) (k : Fin 32) : ((xStates f s).xch k.val).state = xStateOf (frameField f (48 + 2 * k.val) 2) := by
  rw [xStates_eq]
  exact foldl_once (fun (t : State) k => (t.xch k).state) (fun _ => True) (fun k _ y => y = xStateOf (frameField f (48 + 2 * k) 2))
    (fun t k _ => xStateTaken_own f t k) (fun t k j other => by rw [xStateTaken_other f t other]) (fun _ _ _ => trivial) List.nodup_range (x := s)
    trivial k.val (List.mem_range.mpr k.isLt)

theorem xStates_bank (f : BitVec 128) (s : State) : (xStates f s).fio.bank = s.fio.bank := by
  rw [xStates_eq]
  exact foldl_kept (fun t : State => t.fio.bank) (fun t k _ => xStateTaken_bank f t k) s

/-- The content of a valid frame up to the rules. -/
def xTaken (f : BitVec 128) (s : State) : State := fioSnapUpdate (xStates f (xPage f (xAcked (f.getLsbD 123) (xHeader f s))))

theorem xContent_eq (f : BitVec 128) (s : State) : xContent f s = evalRules (xTaken f s) := rfl

theorem xTaken_frame (f : BitVec 128) (s : State) : Frame [.fio, .mbx, .log, .vz, .sig, .tb] s (xTaken f s) :=
  Frame.via (fioSnapUpdate_frame _) (by decide) (Frame.via (xStates_frame ..) (by decide) (Frame.via (xPage_frame ..) (by decide)
    (Frame.via (xAcked_frame ..) (by decide) ((xHeader_frame ..).mono (by decide)))))

theorem xTaken_link {seq : Option Byte} {up low ack : Bool} (h : LinkIs s.fio.bank seq up low ack) (f : BitVec 128) :
    LinkIs (xTaken f s).fio.bank seq up (f.getLsbD 124) (f.getLsbD 123) := by
  rw [xTaken, fioSnapUpdate_fio, xStates_bank]
  exact xPage_link (xAcked_link (xHeader_link h f) _) f

theorem xTaken_state (f : BitVec 128) (s : State) (k : Fin 32) : ((xTaken f s).xch k.val).state = xStateOf (frameField f (48 + 2 * k.val) 2) := by
  rw [xTaken, State.xch_of_fio (fioSnapUpdate_fio _), xStates_state]

/-! ### The loss of the link -/

theorem xSafeAnswer_leaves (st : U16) (s : State) : (∀ k, (xSafeAnswer st s).xch k = s.xch k) ∧ (xSafeAnswer st s).fio.bank.up = s.fio.bank.up ∧
    (xSafeAnswer st s).fio.bank.safeReq = none := by
  unfold xSafeAnswer
  split
  next none_ => exact ⟨fun _ => rfl, rfl, none_⟩
  next => exact ⟨fun k => State.xch_of_fio (respond_fio ..) k, by rw [respond_fio]; rfl, by rw [respond_fio]; rfl⟩

/-- Every channel shown as not valid (R194). -/
def xLostShown (s : State) : State := (List.range xCount).foldl (fun s k => xShow k 3 (s.modX k (fun c => { c with bad := 0, good := 0 }))) s

theorem xLostShown_state (s : State) (k : Fin 32) : ((xLostShown s).xch k.val).state = 3 :=
  foldl_once (fun (t : State) k => (t.xch k).state) (fun _ => True) (fun _ _ y => y = 3)
    (fun t k _ => by rw [xShow_own])
    (fun t k j other => by rw [xShow_other _ _ other, State.modX_other _ _ _ j other]) (fun _ _ _ => trivial) List.nodup_range (x := s) trivial k.val (List.mem_range.mpr k.isLt)

theorem xLostShown_frame (s : State) : Frame [.fio, .mbx, .log, .vz, .tb] s (xLostShown s) :=
  Frame.foldl (fun t k => Frame.via (xShow_frame ..) (by decide) ((State.modX_frame ..).mono (by decide))) (Frame.refl ..)

theorem xLost_of_up (on_ : s.xioOn = true) (up : s.fio.bank.up = true) : xLost s = evalRules (xSafeAnswer stat_fioLink
    (raiseBank evt_fioXLinkLost ((xLostShown s).modBank (fun b => { b with up := false, run := 0 })))) := if_pos (by rw [on_, up]; rfl)

theorem xTimeout_of_running (on_ : s.fio.bank.fPowered = true) (fresh : s.fio.bank.fTimedOut = false) : xTimeout s =
    (s.modEachX (fun _ x => x.follow 2)).modBank (fun b => { b with fTimedOut := true, fTimeouts := (b.fTimeouts + 1) % 256 }) :=
  if_pos (by rw [on_, fresh]; rfl)

/-! ### The field side -/

theorem XChan.refresh_unpowered (x : XChan) : (x.refresh false).fOut = false := Bool.false_and (x.fieldOut x.fCmd)

theorem XChan.retryOvl_of_clear {x : XChan} (ovl : x.fOvl = true) (mode : x.fCfg.mode = .out) (set_ : x.fCfgSet = true) (cool : x.fOt = false)
    (cmd : x.fCmd = 1) : (x.retryOvl true true).fOvl = false ∧ (x.retryOvl true true).fOut = true := by
  have out : (({ x with fOvl := false } : XChan).refresh true).fOut = true := by
    show (true && ({ x with fOvl := false } : XChan).fieldOut x.fCmd) = true
    rw [Bool.true_and, cmd, XChan.fieldOut, if_neg]
    simp [mode, set_, cool]
  have is : x.retryOvl true true = ({ x with fOvl := false } : XChan).refresh true := if_pos (by rw [ovl, out]; rfl)
  rw [is]
  exact ⟨rfl, out⟩

theorem XChan.retryOvl_unpowered (x : XChan) (clear : Bool) : x.retryOvl false clear = x := by
  refine if_neg ?_
  rw [XChan.refresh_unpowered, Bool.and_false]
  exact Bool.false_ne_true

theorem XChan.retryOvl_unclear (x : XChan) (powered : Bool) : x.retryOvl powered false = x := by
  refine if_neg ?_
  rw [Bool.and_false, Bool.false_and]
  exact Bool.false_ne_true

/-- A change of a channel that changes nothing. -/
theorem State.modX_id {k : Nat} {g : XChan → XChan} (same : g (s.xch k) = s.xch k) (j : Nat) : (s.modX k g).xch j = s.xch j := by
  by_cases own : j = k
  · rw [own, State.modX_same, same]
  · exact State.modX_other _ _ _ j own

/-- A channel whose field side has lost its supply, and one whose field side starts again (R193). -/
def XChan.unfed (x : XChan) : XChan := { x with fOut := false, fCmd := 0, fCfgSet := false }

def XChan.restarted (x : XChan) : XChan :=
  { x with fCfg := .default, fCfgSet := false, fOut := false, fCmd := 0, fOvl := false, fOpen := false, fOt := false }

/-- The state after every channel of the field side has changed. -/
theorem xch_mapAll (P : XChan → Prop) {f : Nat → XChan → XChan} (reset : P .reset) (each : ∀ k x, P (f k x)) {t : State}
    (is : t.fio.x = s.fio.x.mapAll f) (k : Nat) : P (t.xch k) := by
  rw [State.xch, is]
  obtain none_ | some_ := Tbl.getD_mapAll s.fio.x .reset k f
  · rw [none_]
    exact reset
  · rw [some_]
    exact each k _

end

/-- Settles O23: a frame of either direction is checked and then does its content, channel by channel; the rest changes one channel or
the bank alone. -/
theorem barrierLinkEventsAct : Obligations.BarrierLinkEventsAct := by
  refine ⟨?down, ?downOff, ?received, ?word, ?notReceived, ?badCrc, ?notUp, ?content, ?lost, ?notLost, ?timeout, ?timedOut, ?overload,
    ?retry, ?retryOff, ?retryNot, ?openWire, ?openEnd, ?overtemp, ?overtempEnd, ?low, ?lowEnd, ?fail, ?recover, ?noRecover⟩
  case down =>
    intro s on_ serves words
    refine ⟨_, congrArg Host.Outcome.next (downlink_of_on on_ serves), ?_⟩
    have bank := xSend_bank (s := s)
    obtain ⟨seq, crc⟩ := downFrame_fields (s := xSend s) (by rw [bank]; exact words)
    rw [bank] at seq
    refine ⟨?_, seq, crc, fun k => xSend_sent on_ k, Frame.via (State.modBank_frame ..) (by decide) (xSend_frame _)⟩
    rw [State.modBank_bank, bank]
  case downOff =>
    refine fun s off => congrArg Host.Outcome.next (if_neg ?_)
    rw [off]
    exact Bool.false_ne_true
  case received =>
    intro f s on_ valid plain
    have is := xReceive_of_valid on_ valid
    rw [if_neg (by rw [plain]; exact Bool.false_ne_true)] at is
    refine ⟨_, congrArg Host.Outcome.next is, ?_⟩
    dsimp only
    rw [State.modEachX_bank]
    exact ⟨rfl, rfl, rfl, fun k => State.modEachX_own _ _ k, (State.modBank_frame ..).trans (State.modEachX_frame ..)⟩
  case word =>
    intro f s on_ valid carries addr
    have is := xReceive_of_valid on_ valid
    rw [if_pos carries, addr] at is
    refine ⟨_, congrArg Host.Outcome.next is, ?_⟩
    dsimp only
    rw [State.modEachX_bank]
    exact ⟨rfl, rfl, ((State.modBank_frame ..).trans (xApplyWord_frame ..)).trans (State.modEachX_frame ..)⟩
  case notReceived => exact fun f s h => congrArg Host.Outcome.next (xReceive_of_invalid h)
  case badCrc =>
    intro f s on_ bad
    obtain ⟨chans, -, -, -, crc, -⟩ := upSent_leaves (s := s)
    refine ⟨_, congrArg Host.Outcome.next (uplink_of_badCrc on_ bad), ?_, rfl, chans, (upSent_frame _).trans (State.modBank_frame ..)⟩
    rw [State.modBank_bank, crc]
  case notUp =>
    intro f s on_ valid down few
    obtain ⟨chans, seq, up, run, -, -⟩ := upSent_leaves (s := s)
    have is := uplink_of_valid on_ valid
    have short : ¬ 4 ≤ (upNoted f (upSent s)).fio.bank.run := by
      rw [upNoted_run, run]
      split
      · omega
      · omega
    rw [if_neg (by rw [down]; exact Bool.false_ne_true), if_neg short] at is
    refine ⟨_, congrArg Host.Outcome.next is, rfl, up.trans down, chans, (upSent_frame _).trans (State.modBank_frame ..)⟩
  case content =>
    intro f s on_ valid isUp off
    obtain ⟨-, -, up, -, -, -⟩ := upSent_leaves (s := s)
    have is := uplink_of_valid on_ valid
    have noted : Frame [.fio] s (upNoted f (upSent s)) := (upSent_frame _).trans (State.modBank_frame ..)
    have frame : Frame [.fio, .mbx, .log, .vz, .sig, .tb] s (xTaken f (upNoted f (upSent s))) :=
      Frame.via (xTaken_frame f _) (by decide) (noted.mono (by decide))
    rw [if_pos isUp, xContent_eq, evalRules_of_disabled (by rw [frame.same .rfx (by decide)]; exact off)] at is
    obtain ⟨hseq, hup, hlow, hack⟩ := xTaken_link (s := upNoted f (upSent s)) ⟨rfl, up.trans isUp, rfl, rfl⟩ f
    exact ⟨_, congrArg Host.Outcome.next is, hseq, hup, hlow, hack, fun k => xTaken_state f _ k, frame⟩
  case lost =>
    intro s on_ up
    obtain ⟨chans, isUp, safe⟩ := xSafeAnswer_leaves stat_fioLink
      (raiseBank evt_fioXLinkLost ((xLostShown s).modBank (fun b => { b with up := false, run := 0 })))
    refine ⟨_, congrArg Host.Outcome.next (xLost_of_up on_ up), ?_, safe, fun k => ?_, Frame.via (xSafeAnswer_frame ..) (by decide)
      (Frame.via (raiseBank_frame ..) (by decide) (Frame.via (State.modBank_frame ..) (by decide) (xLostShown_frame _)))⟩
    · rw [isUp, raiseBank_fio]
      rfl
    · rw [chans, State.xch_of_fio (raiseBank_fio ..), State.modBank_xch, xLostShown_state]
  case notLost =>
    refine fun s down => congrArg Host.Outcome.next (if_neg ?_)
    rw [down, Bool.and_false]
    exact Bool.false_ne_true
  case timeout =>
    intro s on_ fresh
    refine ⟨_, congrArg Host.Outcome.next (xTimeout_of_running on_ fresh), rfl, ?_, fun k => ?_,
      (State.modEachX_frame ..).trans (State.modBank_frame ..)⟩
    · rw [State.modBank_bank, State.modEachX_bank]
    · rw [State.modBank_xch, State.modEachX_own]
  case timedOut =>
    refine fun s done => congrArg Host.Outcome.next (if_neg ?_)
    rw [done, Bool.not_true, Bool.and_false]
    exact Bool.false_ne_true
  case overload =>
    intro k s out
    obtain ⟨frame, others⟩ := s.modX_leaves k.val (fun x => if x.fOut then { x with fOvl := true, fOut := false } else x)
    refine ⟨_, rfl, ?_, ?_, others, frame⟩
    · rw [State.modX_same, if_pos out]
    · rw [State.modX_same, if_pos out]
  case retry =>
    intro k s ovl mode set_ cool cmd on_
    obtain ⟨frame, others⟩ := s.modX_leaves k.val (fun x => x.retryOvl s.fio.bank.fPowered true)
    obtain ⟨free, out⟩ := XChan.retryOvl_of_clear ovl mode set_ cool cmd
    refine ⟨_, rfl, ?_, ?_, others, frame⟩
    · rw [State.modX_same, on_, free]
    · rw [State.modX_same, on_, out]
  case retryOff =>
    intro k clear s off
    refine ⟨_, rfl, State.modX_id ?_, State.modX_frame ..⟩
    rw [off]
    exact XChan.retryOvl_unpowered ..
  case retryNot => exact fun k s => ⟨_, rfl, State.modX_id (XChan.retryOvl_unclear ..), State.modX_frame ..⟩
  case openWire =>
    intro k s watches
    obtain ⟨frame, others⟩ := s.modX_leaves k.val (fun x => if x.watchesOpen then { x with fOpen := true } else x)
    refine ⟨_, rfl, ?_, ?_, others, frame⟩
    · rw [State.modX_same, if_pos watches]
    · rw [State.modX_same, if_pos watches]
  case openEnd =>
    intro k s
    obtain ⟨frame, others⟩ := s.modX_leaves k.val (fun x => { x with fOpen := false })
    refine ⟨_, rfl, ?_, ?_, others, frame⟩
    · rw [State.modX_same]
    · rw [State.modX_same]
  case overtemp =>
    intro k s
    obtain ⟨frame, others⟩ := s.modX_leaves k.val (fun x => { x with fOt := true, fOut := false })
    refine ⟨_, rfl, ?_, ?_, others, frame⟩
    · rw [State.modX_same]
    · rw [State.modX_same]
  case overtempEnd =>
    intro k s
    obtain ⟨frame, others⟩ := s.modX_leaves k.val (fun x => { x with fOt := false }.refresh s.fio.bank.fPowered)
    refine ⟨_, rfl, ?_, ?_, others, frame⟩
    · rw [State.modX_same]
      rfl
    · rw [State.modX_same]
      rfl
  case low =>
    intro s on_
    refine ⟨_, rfl, ?_, fun k => rfl, State.modBank_frame ..⟩
    rw [State.modBank_bank, on_]
    exact Bool.or_true _
  case lowEnd => exact fun s => ⟨_, rfl, rfl, fun k => rfl, State.modBank_frame ..⟩
  case fail =>
    exact fun s => ⟨_, rfl, rfl, xch_mapAll (s := s) (fun x => x.fOut = false) (f := fun _ => XChan.unfed) rfl (fun k x => rfl) rfl, Frame.set_fio (Frame.refl ..) (by decide)⟩
  case recover =>
    intro s off
    refine ⟨xRestart s, congrArg Host.Outcome.next (if_neg (by rw [off]; exact Bool.false_ne_true)), rfl, rfl, rfl, rfl, ?_, xRestart_frame _⟩
    exact xch_mapAll (s := s) (fun x => x.fOut = false ∧ x.fCfg = .default ∧ x.fCfgSet = false) (f := fun _ => XChan.restarted) ⟨rfl, rfl, rfl⟩ (fun k x => ⟨rfl, rfl, rfl⟩) rfl
  case noRecover => exact fun s on_ => congrArg Host.Outcome.next (if_pos on_)

end Sys2Proof.Machine
end

section
/-! PROOF. The data path and the commands of the isolated bank (R40, R186, R191, R195, R196, Tables 7.16 and 7.19). -/

namespace Sys2Proof.Machine

/-! ### Changes of some channels, and the command slots -/

/-- A change of the channels of a list, each by its own number. -/
def State.modXs (s : State) (l : List Nat) (g : Nat → XChan → XChan) : State := l.foldl (fun t k => t.modX k (g k)) s

section
variable (s : State) {l : List Nat} (g : Nat → XChan → XChan)

theorem State.modXs_own (once : l.Nodup) {k : Nat} (named : k ∈ l) : (s.modXs l g).xch k = g k (s.xch k) :=
  foldl_once (fun (t : State) k => t.xch k) (fun _ => True) (fun k x y => y = g k x) (fun t k _ => State.modX_same t k (g k))
    (fun t k j other => State.modX_other t k (g k) j other) (fun _ _ _ => trivial) once trivial k named

theorem State.modXs_other {k : Nat} (out : k ∉ l) : (s.modXs l g).xch k = s.xch k :=
  foldl_kept (fun t : State => t.xch k) (fun t j named => State.modX_other t j (g j) k fun same => out (same ▸ named)) s

theorem State.modXs_frame : Frame [.fio] s (s.modXs l g) := Frame.foldl (fun _ _ => State.modX_frame ..) (Frame.refl ..)

theorem State.modXs_slots : (s.modXs l g).fio.slots = s.fio.slots := 
  foldl_kept (fun t : State => t.fio.slots) (fun t k _ => show (t.modX k (g k)).fio.slots = t.fio.slots from rfl) s

theorem State.modXs_xSlot (v : Nat) : (s.modXs l g).xSlot v = s.xSlot v := by
  unfold State.xSlot
  rw [State.modXs_slots]

theorem State.modSlot_xch (v : Nat) (f : XSlot → XSlot) (k : Nat) : (s.modSlot v f).xch k = s.xch k := rfl

end

/-- A channel takes a software command, or holds it in Start-up (R40, R196). -/
def XChan.commanded (x : XChan) (on_ : Bool) : XChan := { x with cmd := on_, held := none, waits := false }

def XChan.holding (x : XChan) (on_ : Bool) : XChan := { x with held := some on_ }

section
variable {v : Nat} {ks : List Nat} {val : U32} {gen seq : U16} {s : State}

theorem xPut_of_serving (serves : s.sys.mode ≠ .startup) : xPut v ks val gen seq s =
    (s.modXs ks (fun k x => x.commanded (val.getLsbD k))).modSlot v (fun t => { t with ackGen := gen, ackSeq := seq, heldAck := none }) :=
  if_neg serves

theorem xPut_of_startup (starts : s.sys.mode = .startup) : xPut v ks val gen seq s =
    (s.modXs ks (fun k x => x.holding (val.getLsbD k))).modSlot v (fun t => { t with heldAck := some (gen, seq) }) := if_pos starts

/-! ### The doorbell -/

/-- The channels that a doorbell of VZF `v` commands: the outputs that it names and owns. -/
def doorbellChans (v : Nat) (s : State) : List Nat :=
  ((List.range xCount).filter (fun k => (s.xSlot v).mask.getLsbD k)).filter
    (fun k => decide (s.xOwner k = some v) && decide ((s.xch k).cfg.mode = .out))

theorem mem_doorbellChans {k : Nat} (small : k < xCount) : k ∈ doorbellChans v s ↔
    (s.xSlot v).mask.getLsbD k = true ∧ s.xOwner k = some v ∧ (s.xch k).cfg.mode = .out := by
  rw [doorbellChans, List.mem_filter, List.mem_filter, List.mem_range, Bool.and_eq_true, decide_eq_true_iff, decide_eq_true_iff]
  exact ⟨fun h => ⟨h.1.2, h.2⟩, fun h => ⟨⟨small, h.1⟩, h.2⟩⟩

theorem doorbellChans_nodup : (doorbellChans v s).Nodup := (List.nodup_range.filter _).filter _

/-- The value of a doorbell is noted (R195). -/
def doorbellNoted (v : Nat) (val : U32) (s : State) : State := s.modSlot v (fun t =>
  { t with val := val &&& s.ownXBits v
           bad := t.bad || t.maskBad || decide ((doorbellChans v s).length < ((List.range xCount).filter (fun k => (s.xSlot v).mask.getLsbD k)).length) })

section
variable (owns : s.ownsX v = true) (active : (s.vzf v).life = .active)
include owns active

theorem xDoorbell_of_fresh (fresh : (s.xSlot v).tagGen = (s.vzf v).gen) : xDoorbell v val s =
    xPut v (doorbellChans v s) val (s.xSlot v).tagGen (s.xSlot v).tagSeq (doorbellNoted v val s) := by
  unfold xDoorbell
  rw [if_neg (by rw [owns]; exact Bool.false_ne_true), if_neg (not_not_intro active)]
  exact if_neg (not_not_intro fresh)

theorem xDoorbell_of_stale (stale : (s.xSlot v).tagGen ≠ (s.vzf v).gen) :
    xDoorbell v val s = s.modSlot v (fun t => { t with stale := true }) := by
  unfold xDoorbell
  rw [if_neg (by rw [owns]; exact Bool.false_ne_true), if_neg (not_not_intro active)]
  exact if_pos stale

end

/-! ### The commands -/

theorem ownersNeed_of_mayUse {r : Req} {p : Port} {own : Nat → Option Nat} {ns : List Nat} (may : ∀ n ∈ ns, p.mayUse (own n)) :
    (ownersNeed s r own ns).check p = none := by
  unfold ownersNeed
  dsimp only
  split
  next n found => exact Need.check_of_mayUse (may n (List.mem_of_find?_eq_some found))
  next => rfl

/-- The channel that a request configures (R186). -/
def XChan.configured (x : XChan) (m : XMode) (xdb : Nat) (ow : Bool) : XChan := { x with cfg := { x.cfg with mode := m, xdb := xdb, owEn := ow } }

theorem xConfigBody_of_idle {k : Nat} {m : XMode} {xdb : Nat} {ow : Bool} (off : (s.xch k).cmd = false) (unsent : (s.xch k).sent ≠ 1)
    (up : s.fio.bank.up = true) : xConfigBody k m xdb ow s =
      ((s.modX k (fun x => x.configured m xdb ow)).modBank (fun b =>
        b.queue [(k, ((s.modX k (fun x => x.configured m xdb ow)).xch k).cfg.word)]), .ok []) := by
  unfold xConfigBody
  dsimp only
  rw [if_neg (by rw [off]; exact fun h => h.2.elim (fun c => Bool.false_ne_true c) unsent), if_neg (by rw [up]; exact Bool.false_ne_true)]
  rfl

theorem xConfigBody_of_on {k : Nat} {m : XMode} {xdb : Nat} {ow : Bool} (other : (s.xch k).cfg.mode ≠ m) (on_ : (s.xch k).cmd = true) :
    xConfigBody k m xdb ow s = (s, .fail stat_badState) := if_pos ⟨other, .inl on_⟩

theorem bit_channels : ∀ k : Fin 32, (List.range xCount).filter (fun j => ((1 : U32) <<< k.val).getLsbD j) = [k.val] := by decide

/-- A request that commands one channel (R196). -/
theorem xSetBody_of_one {r : Req} {values : U32} {p : Port} {k : Fin 32} (owner : s.xOwner k.val = some v) (out : (s.xch k.val).cfg.mode = .out) :
    xSetBody r ((1 : U32) <<< k.val) values p s =
      (xPut v [k.val] values (s.vzf v).gen (r.seq.extractLsb' 0 16) s,
        .ok (le32 ((xPut v [k.val] values (s.vzf v).gen (r.seq.extractLsb' 0 16) s).xOutWord
          (seen p (xPut v [k.val] values (s.vzf v).gen (r.seq.extractLsb' 0 16) s).xOwner)))) := by
  have owners : ([k.val].filterMap s.xOwner).eraseDups = [v] := by
    rw [List.filterMap_cons, owner]
    rfl
  have mine : [k.val].filter (fun k => decide (s.xOwner k = some v)) = [k.val] := by
    rw [List.filter_cons, if_pos (decide_eq_true owner), List.filter_nil]
  have outs : [k.val].any (fun k => decide ((s.xch k).cfg.mode ≠ .out)) = false := by
    rw [List.any_cons, out]
    rfl
  unfold xSetBody
  rw [bit_channels]
  dsimp only
  rw [if_neg (by rw [outs]; exact Bool.false_ne_true), owners, List.foldl_cons, List.foldl_nil, mine]

theorem xSetBody_of_other {r : Req} {mask values : U32} {p : Port} (other : ∃ k : Fin 32, mask.getLsbD k.val = true ∧ (s.xch k.val).cfg.mode ≠ .out) :
    xSetBody r mask values p s = (s, .fail stat_fioMode) := by
  obtain ⟨k, named, mode⟩ := other
  exact if_pos (List.any_eq_true.mpr ⟨k.val, List.mem_filter.mpr ⟨List.mem_range.mpr k.isLt, named⟩, decide_eq_true mode⟩)

/-- The safe states of a request (R191). -/
def XChan.safeAt (x : XChan) (safe : U64) (k : Nat) : XChan :=
  { x with cfg := { x.cfg with safe := (xSafeOf (safe.extractLsb' (2 * k) 2).toNat).getD .off } }

/-- The bank with a request that waits for its words (R191). -/
def safeNoted (r : Req) (safe : U64) (tXto : Nat) (s : State) : State :=
  (s.modEachX (fun k x => x.safeAt safe k)).modBank (fun b => { b with tXto := tXto, safeReq := some (r.port, r.tag, r.seq) })

theorem xSafeBody_of_up {r : Req} {safe : U64} {tXto : Nat} (up : s.fio.bank.up = true) (free : s.fio.bank.safeReq = none) :
    xSafeBody r safe tXto s = ((safeNoted r safe tXto s).modBank (fun b => b.queue (safeNoted r safe tXto s).fio.xWords), none) := by
  unfold xSafeBody
  rw [if_neg (by rw [up]; exact Bool.false_ne_true), if_neg (by rw [free]; exact Bool.false_ne_true)]
  rfl

theorem xSafeOf_of_ne {x : BitVec 2} (fits : x ≠ 3) : xSafeOf x.toNat = some ((xSafeOf x.toNat).getD .off) := by
  revert x
  decide

theorem safe_payload {safe : U64} {tXto : Nat} (fits : ∀ k : Fin 32, safe.extractLsb' (2 * k.val) 2 ≠ 3) (low : 2 ≤ tXto) (high : tXto ≤ 10000) :
    orStat (needStat ((List.range 32).all (fun k => decide (safe.extractLsb' (2 * k) 2 ≠ 3))) stat_badPayload)
      (needStat (decide (2 ≤ tXto) && decide (tXto ≤ 10000)) stat_range) = none := by
  have all : (List.range 32).all (fun k => decide (safe.extractLsb' (2 * k) 2 ≠ 3)) = true :=
    List.all_eq_true.mpr fun k named => decide_eq_true (fits ⟨k, List.mem_range.mp named⟩)
  rw [all, decide_eq_true low, decide_eq_true high]
  rfl

end

theorem Mode.ne_startup_of_isRunWork {m : Mode} (runs : m.isRunWork = true) : m ≠ .startup := by
  rintro rfl
  cases runs

/-- Settles O24: a doorbell and `FIO.X_SET` command the channels they name (`State.modXs`), a record and the safe states queue the words
that carry them. -/
theorem isolatedBankCommandsAct : Obligations.IsolatedBankCommandsAct := by
  refine ⟨?doorbell, ?held, ?stale, ?read, ?config, ?configOn, ?set, ?setMode, ?report, ?safe, ?safeLink⟩
  case doorbell =>
    intro v value s owns active fresh serves
    have is := (xDoorbell_of_fresh (val := value) owns active fresh).trans (xPut_of_serving (s := doorbellNoted v.val value s) serves)
    refine ⟨_, congrArg Host.Outcome.next is, ?_, ?_, ?_, fun k mask owner out => ?_, fun k not => ?_,
      ((State.modSlot_frame ..).trans (State.modXs_frame ..)).trans (State.modSlot_frame ..)⟩
    · rw [State.modSlot_same, State.modXs_xSlot, doorbellNoted, State.modSlot_same]
    · rw [State.modSlot_same]
    · rw [State.modSlot_same]
    · rw [State.modSlot_xch, State.modXs_own _ _ doorbellChans_nodup ((mem_doorbellChans k.isLt).mpr ⟨mask, owner, out⟩)]
      exact ⟨rfl, rfl⟩
    · rw [State.modSlot_xch, State.modXs_other]
      · rfl
      · intro named
        obtain ⟨mask, owner, out⟩ := (mem_doorbellChans k.isLt).mp named
        obtain off | other | mode := not
        · exact absurd (off.symm.trans mask) Bool.false_ne_true
        · exact other owner
        · exact mode out
  case held =>
    intro v value s owns active fresh starts
    have is := (xDoorbell_of_fresh (val := value) owns active fresh).trans (xPut_of_startup (s := doorbellNoted v.val value s) starts)
    refine ⟨_, congrArg Host.Outcome.next is, ?_, fun k => ?_, fun k mask owner out => ?_,
      ((State.modSlot_frame ..).trans (State.modXs_frame ..)).trans (State.modSlot_frame ..)⟩
    · rw [State.modSlot_same]
    · rw [State.modSlot_xch]
      by_cases named : k.val ∈ doorbellChans v.val s
      · rw [State.modXs_own _ _ doorbellChans_nodup named]
        rfl
      · rw [State.modXs_other _ _ named]
        rfl
    · rw [State.modSlot_xch, State.modXs_own _ _ doorbellChans_nodup ((mem_doorbellChans k.isLt).mpr ⟨mask, owner, out⟩)]
      rfl
  case stale =>
    intro v value s owns active stale
    exact ⟨_, congrArg Host.Outcome.next (xDoorbell_of_stale owns active stale), State.modSlot_same .., fun k => rfl, State.modSlot_frame ..⟩
  case read =>
    intro v s owns
    exact ⟨_, congrArg Host.Outcome.next (if_pos owns), rfl, rfl, fun k => rfl,
      Frame.set_bus ((State.modBank_frame ..).mono (by decide)) (by decide)⟩
  case config =>
    intro s r p channel mode tXdb flags q small may modes flag_ serves off unsent up
    refine answers_of_accepted q rfl (q.passes (decide_eq_true q.len) (Need.check_owner_ite small may)
      (by rw [decide_eq_true small, decide_eq_true modes, decide_eq_true flag_]; rfl) serves) (xConfigBody_of_idle off unsent up) rfl ?_
    refine ⟨?_, List.mem_append_right _ (List.mem_singleton.mpr ?_), fun k other => ?_, (State.modX_frame ..).trans (State.modBank_frame ..)⟩
    · rw [State.modBank_xch, State.modX_same]
      rfl
    · rw [State.modBank_xch]
    · rw [State.modBank_xch, State.modX_other _ _ _ k other]
  case configOn =>
    intro s r p channel mode tXdb flags q small may modes flag_ serves other on_
    exact answers_of_accepted q rfl (q.passes (decide_eq_true q.len) (Need.check_owner_ite small may)
      (by rw [decide_eq_true small, decide_eq_true modes, decide_eq_true flag_]; rfl) serves) (xConfigBody_of_on other on_) rfl rfl
  case set =>
    intro s r p k values v q owner may runs out
    have may_ : ∀ n ∈ (List.range xCount).filter (fun j => ((1 : U32) <<< k.val).getLsbD j), p.mayUse (s.xOwner n) := fun n named => by
      rw [bit_channels] at named
      rw [List.mem_singleton.mp named, owner]
      exact may
    have does := xSetBody_of_one (r := r) (values := values) (p := p) owner out
    rw [xPut_of_serving (Mode.ne_startup_of_isRunWork runs)] at does
    refine ⟨_, congrArg Host.Outcome.next (runCmd_accepted _ q.port
      (q.passes (decide_eq_true q.len) (ownersNeed_of_mayUse may_) rfl runs)), _, by rw [does]; rfl, ?_, ?_, ?_, fun j other => ?_,
      (State.modXs_frame ..).trans (State.modSlot_frame ..)⟩
    · rw [State.modSlot_xch, State.modXs_own _ _ (List.pairwise_singleton ..) (List.mem_singleton_self _)]
      rfl
    · rw [State.modSlot_same]
    · rw [State.modSlot_same]
    · rw [State.modSlot_xch, State.modXs_other _ _ fun named => other (List.mem_singleton.mp named)]
  case setMode =>
    intro s r p mask values q system runs other
    exact answers_of_accepted q rfl (q.passes (decide_eq_true q.len) (ownersNeed_of_sysPriv _ _ system) rfl runs) (xSetBody_of_other other) rfl rfl
  case report =>
    intro s r p q system serves
    refine ⟨_, congrArg Host.Outcome.next (runCmd_accepted _ q.port (q.passes (decide_eq_true q.len) (ownsOneNeed_of_sysPriv _ _ system) rfl serves)),
      _, rfl, ?_⟩
    unfold xReadBody
    rw [seen_of_sysPriv _ system]
    simp only [Reply.ok, List.append_assoc]
    rw [← List.append_assoc]
    exact List.take_left' rfl
  case safe =>
    intro s r p safe tXto q system fits low high shop up free
    refine ⟨_, exec_of_unanswered q rfl (q.passes (decide_eq_true q.len) (Need.check_of_sysPriv system _) (safe_payload fits low high)
      (decide_eq_true shop)) (xSafeBody_of_up up free), rfl, rfl, fun k => ?_, List.mem_append_right _ (List.mem_append_right _ (List.mem_singleton.mpr rfl)),
      ((State.modEachX_frame ..).trans (State.modBank_frame ..)).trans (State.modBank_frame ..)⟩
    rw [State.modBank_xch, safeNoted, State.modBank_xch, State.modEachX_own]
    exact xSafeOf_of_ne (fits k)
  case safeLink =>
    intro s r p safe tXto q system fits low high shop down
    exact answers_of_accepted_later q rfl (q.passes (decide_eq_true q.len) (Need.check_of_sysPriv system _) (safe_payload fits low high)
      (decide_eq_true shop)) (if_pos (by rw [down]; rfl)) rfl rfl

end Sys2Proof.Machine
end

section
/-! PROOF. View changes, captures and trigger units of the time base (R375, R379, R380, R381). -/

namespace Sys2Proof.Machine

section
variable {s : State}

/-! ### Views -/

theorem State.modView_same (s : State) (v : Nat) (f : View → View) : (s.modView v f).view v = f (s.view v) := Tbl.getD_set_same ..

theorem State.modView_other (s : State) (v : Nat) (f : View → View) {w : Nat} (other : w ≠ v) : (s.modView v f).view w = s.view w :=
  Tbl.getD_set_other _ _ _ _ _ other

theorem State.view_of_tb {t : State} (same : t.tb = s.tb) (v : Nat) : t.view v = s.view v := by
  rw [State.view, same]
  rfl

theorem State.trigger_of_tb {t : State} (same : t.tb = s.tb) (u : Nat) : t.trigger u = s.trigger u := by
  rw [State.trigger, same]
  rfl

theorem State.capture_of_tb {t : State} (same : t.tb = s.tb) (u : Nat) : t.capture u = s.capture u := by
  rw [State.capture, same]
  rfl

/-- A change of the validity of a view leaves the rest of it, the other views and the count alone. -/
theorem setValid_leaves (v : Nat) (b : Bool) (s : State) : (setValid v b s).view v = { s.view v with valid := b } ∧
    (∀ w, w ≠ v → (setValid v b s).view w = s.view w) ∧ (setValid v b s).tb.count = s.tb.count := by
  unfold setValid
  split
  next same => exact ⟨by rw [← same], fun _ _ => rfl, rfl⟩
  next =>
    refine ⟨?_, fun w other => ?_, ?_⟩
    · rw [State.view_of_tb (raise_tb ..), State.modView_same]
    · rw [State.view_of_tb (raise_tb ..), State.modView_other _ _ _ other]
    · rw [raise_tb]
      rfl

/-- The due times of a changed view leave every view and the count alone (R381). -/
theorem retime_leaves (view c : Nat) (s : State) : (∀ w, (retime view c s).view w = s.view w) ∧ (retime view c s).tb.count = s.tb.count := by
  have kept : (retime view c s).tb = { s.tb with triggers := s.tb.triggers.mapAll (fun _ x =>
      if x.armed && decide (x.view = view) then
        { x with due := max c (x.convert (s.view view)), late := x.late || decide (x.convert (s.view view) ≤ c) } else x) } := by
    unfold retime
    dsimp only
    rw [foldl_kept (fun t : State => t.tb) (fun t x _ => raise_tb ..)]
  refine ⟨fun w => ?_, ?_⟩
  · unfold State.view
    rw [kept]
  · rw [kept]

/-- A view that changes, before its validity and the units that wait on it (R375). -/
def viewTaken (v : Nat) (c : ViewChange) (s : State) : State :=
  raise evt_timeRebase v (.owned (s.view v).vzf) (le16 ((s.modView v (fun x => x.apply c)).view v).gen ++ n64 c.at_) (s.modView v (fun x => x.apply c))

/-- The view with its new validity. -/
def viewJudged (v : Nat) (c : ViewChange) (s : State) : State :=
  if c.setValid then setValid v true (viewTaken v c s) else if c.clearValid then setValid v false (viewTaken v c s) else viewTaken v c s

theorem applyChange_eq (v : Nat) (c : ViewChange) (s : State) : applyChange v c s = retime v c.at_ (viewJudged v c s) := rfl

theorem viewTaken_leaves (v : Nat) (c : ViewChange) (s : State) : (viewTaken v c s).view v = (s.view v).apply c ∧
    (∀ w, w ≠ v → (viewTaken v c s).view w = s.view w) ∧ (viewTaken v c s).tb.count = s.tb.count := by
  unfold viewTaken
  refine ⟨?_, fun w other => ?_, ?_⟩
  · rw [State.view_of_tb (raise_tb ..), State.modView_same]
  · rw [State.view_of_tb (raise_tb ..), State.modView_other _ _ _ other]
  · rw [raise_tb]
    rfl

theorem viewJudged_leaves (v : Nat) (c : ViewChange) (s : State) :
    (viewJudged v c s).view v = { (s.view v).apply c with valid := c.setValid || ((s.view v).valid && !c.clearValid) } ∧
      (∀ w, w ≠ v → (viewJudged v c s).view w = s.view w) ∧ (viewJudged v c s).tb.count = s.tb.count := by
  obtain ⟨own, others, count⟩ := viewTaken_leaves v c s
  have set_ : ∀ b, (setValid v b (viewTaken v c s)).view v = { (s.view v).apply c with valid := b } ∧
      (∀ w, w ≠ v → (setValid v b (viewTaken v c s)).view w = s.view w) ∧ (setValid v b (viewTaken v c s)).tb.count = s.tb.count := fun b => by
    obtain ⟨own', others', count'⟩ := setValid_leaves v b (viewTaken v c s)
    exact ⟨own'.trans (by rw [own]), fun w other => (others' w other).trans (others w other), count'.trans count⟩
  unfold viewJudged
  cases c.setValid
  · cases c.clearValid
    · refine ⟨own.trans ?_, others, count⟩
      rw [Bool.not_false, Bool.and_true]
      rfl
    · rw [Bool.not_true, Bool.and_false]
      exact set_ false
  · exact set_ true

/-! ### Captures -/

theorem captureAt_other {u w : Nat} (other : w ≠ u) : (captureAt u s).capture w = s.capture w := by
  unfold captureAt
  dsimp only
  split
  · exact State.modCapture_other _ _ _ w other
  · split
    · exact State.modCapture_other _ _ _ w other
    · rw [State.capture_of_tb (raise_tb ..)]
      exact State.modCapture_other _ _ _ w other

/-- What an edge leaves of a unit that takes it (R379). -/
def Capture.taken (c : Capture) (now : Nat) : Capture :=
  if c.fifo.length < 16 then { c with fifo := c.fifo ++ [now] } else { c with overflow := satInc 255 c.overflow, episode := true }

theorem captureAt_own (u : Nat) (s : State) : (captureAt u s).capture u = (s.capture u).taken s.now := by
  unfold captureAt Capture.taken
  dsimp only
  split
  · exact State.modCapture_same ..
  · split
    · exact State.modCapture_same ..
    · rw [State.capture_of_tb (raise_tb ..)]
      exact State.modCapture_same ..

theorem captureAt_now (u : Nat) (s : State) : (captureAt u s).now = s.now := by
  unfold captureAt
  dsimp only
  split
  · rfl
  · split
    · rfl
    · rw [State.now, raise_tb]
      rfl

/-- One unit at an edge. -/
def captureStep (source : Nat) (rising : Bool) (s : State) (u : Nat) : State := if (s.capture u).takes source rising then captureAt u s else s

theorem captureEdge_eq (source : Nat) (rising : Bool) (s : State) : captureEdge source rising s = (List.range 16).foldl (captureStep source rising) s := rfl

/-- An edge leaves each unit as the unit takes it (R379). -/
theorem captureEdge_capture (source : Nat) (rising : Bool) (s : State) (u : Fin 16) : (captureEdge source rising s).capture u.val =
    if (s.capture u.val).takes source rising then (s.capture u.val).taken s.now else s.capture u.val := by
  rw [captureEdge_eq]
  refine foldl_once (fun (t : State) u => t.capture u) (fun t => t.now = s.now)
    (fun u x y => y = if x.takes source rising then x.taken s.now else x) (fun t u now_ => ?_) (fun t u w other => ?_) (fun t u now_ => ?_)
    List.nodup_range (x := s) rfl u.val (List.mem_range.mpr u.isLt)
  · unfold captureStep
    split
    · rw [captureAt_own, now_]
    · rfl
  · unfold captureStep
    split
    · exact captureAt_other other
    · rfl
  · unfold captureStep
    split
    · exact (captureAt_now ..).trans now_
    · exact now_

theorem Capture.not_takes {c : Capture} {source : Nat} {rising : Bool}
    (h : c.enabled = false ∨ c.source ≠ source ∨ (source < 0x300 ∧ c.edge.takes rising = false)) : c.takes source rising = false := by
  unfold Capture.takes
  obtain off | other | ⟨low, edge⟩ := h
  · rw [off]
    rfl
  · rw [decide_eq_false other, Bool.and_false, Bool.false_and]
  · rw [edge, decide_eq_false (Nat.not_le.mpr low), Bool.or_false, Bool.and_false]

/-! ### Trigger units -/

/-- The unit fired once, or on to its next occurrence (R380). -/
def triggerSpent (u : Nat) (s : State) : State := s.modTrigger u (fun t => { t with armed := false })

def Trigger.onto (t : Trigger) (v : View) : Trigger := { t with next := t.next + 1, due := v.countAt (t.dueUnits (t.next + 1)) }

section
variable {u v : Nat} (armed : (s.trigger u).armed = true) (owner : (s.trigger u).owner = some v)
include armed owner

theorem triggerFire_of_once (once : (s.trigger u).period = 0) : triggerFire u s =
    if (s.trigger u).action = 0 then { triggerSpent u s with vz := s.vz.modify v (fun z => z.raiseVec (s.trigger u).target) }
    else triggerCmd (s.trigger u) v (triggerSpent u s) := by
  unfold triggerFire
  dsimp only
  rw [if_neg (by rw [armed]; exact Bool.false_ne_true), if_pos once, owner]
  rfl

theorem triggerFire_of_periodic (periodic : (s.trigger u).period ≠ 0) (vec : (s.trigger u).action = 0) : triggerFire u s =
    { s.modTrigger u (fun t => t.onto (s.view t.view)) with vz := s.vz.modify v (fun z => z.raiseVec (s.trigger u).target) } := by
  unfold triggerFire
  dsimp only
  rw [if_neg (by rw [armed]; exact Bool.false_ne_true), if_neg periodic, owner]
  exact if_pos vec

end

theorem triggerCmd_of_other {t : Trigger} {v : Nat} (other : s.chOwner t.target ≠ some v) : triggerCmd t v s = s :=
  if_pos (by rw [decide_eq_true other]; rfl)

theorem triggerCmd_of_image {t : Trigger} {v : Nat} {im : Image} (owns : s.chOwner t.target = some v) (active : s.vzfActive v = true)
    (image : cmdImage t.target t.image = some im) (plain : im.target = false) : triggerCmd t v s =
      urgentDie (t.target / 14) (enterSw t.target (capped im (s.vzf v).tpl.maxPrio (s.chan t.target).targetReg (s.vzf v).gen (Config.free16 s.free)) s.draw) := by
  unfold triggerCmd
  rw [if_neg (by rw [active, decide_eq_false (not_not_intro owns)]; exact Bool.false_ne_true), image]
  dsimp only
  rw [if_neg (by rw [plain]; exact Bool.false_ne_true)]

theorem putSw_ackGen (i : Nat) (c : SwCmd) (s : State) : ((putSw i c s).chan i).ackGen = c.gen := by
  unfold putSw
  dsimp only
  split
  · rw [State.modBridge_chan, State.modChan_same]
  · rw [State.modValve_chan, State.modChan_same]
  · rw [State.modChan_same]

theorem enterSw_of_serving (i : Nat) (c : SwCmd) (serves : s.sys.mode ≠ .startup) : enterSw i c s = putSw i c (clearCompliance i c s) :=
  if_neg serves

end

/-- Settles O25: a view changes with its validity and its units, an edge goes to each unit once, and a trigger unit fires as its action says.
That a source below 0x300 has edges is log entry 131. -/
theorem timeEventsAct : Obligations.TimeEventsAct := by
  refine ⟨?view, ?noView, ?edge, ?once, ?periodic, ?notOwned, ?command, ?idle⟩
  case view =>
    intro view c s change
    obtain ⟨own, others, count⟩ := viewJudged_leaves view.val c s
    obtain ⟨views, same⟩ := retime_leaves view.val c.at_ (viewJudged view.val c s)
    have is : viewChange view.val s = retime view.val c.at_ (viewJudged view.val c s) := by
      rw [viewChange, change, ← applyChange_eq]
    refine ⟨_, congrArg Host.Outcome.next is, ?_⟩
    dsimp only
    rw [views, own]
    exact ⟨rfl, rfl, rfl, rfl, rfl, rfl, fun w other => (views w).trans (others w other), same.trans count,
      is ▸ (viewChange_frame view.val s).mono (by decide)⟩
  case noView =>
    intro view s none_
    refine congrArg Host.Outcome.next ?_
    rw [viewChange, none_]
  case edge =>
    intro source rising s
    refine ⟨_, rfl, fun u takes room => ?_, fun u takes full => ?_, fun u not => ?_, (captureEdge_frame ..).mono (by decide)⟩
    · rw [captureEdge_capture, if_pos takes, Capture.taken, if_pos room]
    · rw [captureEdge_capture, if_pos takes, Capture.taken, if_neg (Nat.not_lt.mpr full)]
    · rw [captureEdge_capture, if_neg (by rw [Capture.not_takes not]; exact Bool.false_ne_true)]
  case once =>
    intro unit v s armed once owner vec
    refine ⟨_, congrArg Host.Outcome.next ((triggerFire_of_once armed owner once).trans (if_pos vec)), State.modTrigger_same ..,
      Tbl.getD_modify_same .., fun k other => State.modTrigger_other _ _ _ k other,
      Frame.set_vz ((State.modTrigger_frame ..).mono (by decide)) (by decide)⟩
  case periodic =>
    intro unit v s armed periodic owner vec
    have own : (s.modTrigger unit.val (fun t => t.onto (s.view t.view))).trigger unit.val =
        (s.trigger unit.val).onto (s.view (s.trigger unit.val).view) := State.modTrigger_same ..
    refine ⟨_, congrArg Host.Outcome.next (triggerFire_of_periodic armed owner periodic vec), ?_, ?_, ?_, Tbl.getD_modify_same ..,
      Frame.set_vz ((State.modTrigger_frame ..).mono (by decide)) (by decide)⟩
    · exact (congrArg Trigger.armed own).trans armed
    · exact congrArg Trigger.next own
    · exact congrArg Trigger.due own
  case notOwned =>
    intro unit v s armed once owner cmd other
    have is : triggerFire unit.val s = triggerSpent unit.val s := by
      rw [triggerFire_of_once armed owner once, if_neg (by rw [cmd]; decide), triggerCmd_of_other (s := triggerSpent unit.val s) other]
    refine ⟨_, congrArg Host.Outcome.next is, ?_, State.modTrigger_frame ..⟩
    exact congrArg Trigger.armed (State.modTrigger_same ..)
  case command =>
    intro unit v im s armed once owner cmd owns active image plain serves
    obtain ⟨c, isC⟩ : ∃ c, c = capped im (s.vzf v).tpl.maxPrio (s.chan (s.trigger unit.val).target).targetReg (s.vzf v).gen (Config.free16 s.free) := ⟨_, rfl⟩
    have is : triggerFire unit.val s = urgentDie ((s.trigger unit.val).target / 14)
        (putSw (s.trigger unit.val).target c (clearCompliance (s.trigger unit.val).target c (triggerSpent unit.val s).draw)) := by
      rw [triggerFire_of_once armed owner once, if_neg (by rw [cmd]; decide),
        triggerCmd_of_image (s := triggerSpent unit.val s) owns active image plain, enterSw_of_serving (s := (triggerSpent unit.val s).draw) _ _ serves, isC]
      rfl
    have kept := urgentDie_keeps ((s.trigger unit.val).target / 14)
      (putSw (s.trigger unit.val).target c (clearCompliance (s.trigger unit.val).target c (triggerSpent unit.val s).draw)) (s.trigger unit.val).target
    refine ⟨_, congrArg Host.Outcome.next is, ?_, ?_, ?_, ?_⟩
    · rw [State.trigger_of_tb (((urgentDie_frame ..).same .tb (by decide)).trans (((putSw_frame ..).same .tb (by decide)).trans
        ((clearCompliance_frame ..).same .tb (by decide))))]
      exact congrArg Trigger.armed (State.modTrigger_same ..)
    · rw [kept.sw, putSw_sw, isC]
      rfl
    · rw [kept.sw, putSw_sw, isC]
      rfl
    · rw [kept.ackGen, putSw_ackGen, isC]
      rfl
  case idle =>
    intro unit s idle
    refine congrArg Host.Outcome.next (if_pos ?_)
    rw [idle]
    rfl

end Sys2Proof.Machine
end

section
/-! PROOF. The TIME commands (R370, R373, R375, R376, R379, R380, R382, Table 13.9). -/

namespace Sys2Proof.Machine

section
variable {s : State} {p : Port}

/-! ### Views -/

theorem viewStat_of_small {view : Byte} (small : view.toNat ≤ 15) : viewStat view = none := by
  rw [viewStat, decide_eq_true small]
  rfl

section
variable {f : AdjustFields} {owner : Option Nat} (open_ : s.viewClosed f.view.toNat = false)
include open_

theorem adjustBody_of_ready (late : s.now + 6000 ≤ chosenCount s.now f.c.toNat) (early : chosenCount s.now f.c.toNat ≤ s.now + 600000000)
    (free : (s.view f.view.toNat).change = none ∨ opBit f 3 = true)
    (base : 0 ≤ (s.view f.view.toNat).newBase (adjustChange f (chosenCount s.now f.c.toNat) owner)) : adjustBody f owner s =
      (s.modView f.view.toNat (fun x => { x with change := some (adjustChange f (chosenCount s.now f.c.toNat) owner) }),
        .ok (n64 (chosenCount s.now f.c.toNat) ++ le16 ((s.view f.view.toNat).gen + 1) ++ zeros 6)) := by
  have waits : ((s.view f.view.toNat).change.isSome && !opBit f 3) = false := by
    obtain none_ | replaces := free
    · rw [none_]
      rfl
    · rw [replaces, Bool.not_true, Bool.and_false]
  unfold adjustBody
  dsimp only
  rw [if_neg (by rw [open_]; exact Bool.false_ne_true), if_neg (Nat.not_lt.mpr late), if_neg (Nat.not_lt.mpr early),
    if_neg (by rw [waits]; exact Bool.false_ne_true), if_neg (Int.not_lt.mpr base)]

theorem adjustBody_of_past (named : f.c ≠ 0) (past : f.c.toNat < s.now + 6000) : adjustBody f owner s = (s, .fail stat_timePast) := by
  have count : chosenCount s.now f.c.toNat = f.c.toNat := if_neg fun zero => named (BitVec.eq_of_toNat_eq zero)
  unfold adjustBody
  dsimp only
  rw [if_neg (by rw [open_]; exact Bool.false_ne_true), count, if_pos past]

end

section
variable {view vzf : Nat}

theorem viewAllocBody_of_free (exists_ : (s.vzf vzf).exists_ = true) (low : 10 ≤ view) (high : view ≤ 15) (free : (s.view view).alloc = false) :
    viewAllocBody 0 view vzf s = (allocView view vzf s, .ok [byteOf view, 0, 0, 0]) := by
  unfold viewAllocBody
  rw [if_pos rfl, if_neg (by rw [exists_]; exact Bool.false_ne_true), if_neg (by omega), if_neg (by rw [free]; exact Bool.false_ne_true)]

theorem viewAllocBody_of_none (exists_ : (s.vzf vzf).exists_ = true) (all : ∀ v, 10 ≤ v → v ≤ 15 → (s.view v).alloc = true) :
    viewAllocBody 0 255 vzf s = (s, .fail stat_noResource) := by
  have none_ : s.freeView = none := by
    refine List.find?_eq_none.mpr fun v named => ?_
    obtain ⟨k, small, rfl⟩ := List.mem_map.mp named
    have range_ := List.mem_range.mp small
    rw [all (k + 10) (by omega) (by omega)]
    exact Bool.false_ne_true
  unfold viewAllocBody
  rw [if_pos rfl, if_neg (by rw [exists_]; exact Bool.false_ne_true), if_pos rfl, none_]

theorem viewAllocBody_of_allocated (high : view ≤ 15) (taken : (s.view view).alloc = true) :
    viewAllocBody 1 view vzf s = (freeViewAt view s, .ok [byteOf view, 0, 0, 0]) := by
  unfold viewAllocBody
  rw [if_neg (by decide), if_neg]
  rintro (whole | free)
  · omega
  · rw [taken] at free
    cases free

end

theorem view_payload {view : Byte} (low : 10 ≤ view.toNat) (high : view.toNat ≤ 15) :
    needStat ((decide (10 ≤ view.toNat) && decide (view.toNat ≤ 15)) || decide (view = 255)) stat_range = none := by
  rw [decide_eq_true low, decide_eq_true high]
  rfl

/-! ### Capture and trigger units -/

theorem captureSource_of_di {source : Nat} (di : source < 0x40) : captureSource s source = some (some (s.diOwner source)) := if_pos di

theorem unitStat_of_free (owner : Option Nat) : unitStat p false owner = none := by
  unfold unitStat
  split
  · rfl
  · rfl

theorem unitStat_of_sysPriv (used : Bool) (owner : Option Nat) (system : p.sysPriv = true) : unitStat p used owner = none := if_pos system

theorem captureConfigure_of_di {u source edge : Nat} (free : (s.capture u).enabled = false) (di : source < 0x40)
    (may : s.diOwner source = p.vzf ∨ p.sysPriv = true) : captureConfigure u source edge p s =
      (s.modCapture u (fun _ => { Capture.reset with owner := p.vzf, enabled := true, source := source, edge := edgeOf edge }), .ok []) := by
  unfold captureConfigure
  dsimp only
  rw [free, unitStat_of_free, captureSource_of_di di]
  exact if_pos may

theorem captureConfigure_of_unknown {u source edge : Nat} (system : p.sysPriv = true) (unknown : captureSource s source = none) :
    captureConfigure u source edge p s = (s, .fail stat_range) := by
  unfold captureConfigure
  dsimp only
  rw [unitStat_of_sysPriv _ _ system, unknown]

theorem captureBody_of_mine {u op source edge : Nat} (acts : op ≠ 0) (system : p.sysPriv = true) : captureBody u op source edge p s =
    if op = 1 then captureRead u s else (s.modCapture u (fun _ => .reset), .ok []) := by
  unfold captureBody
  dsimp only
  rw [if_neg acts, if_neg (by rw [system]; exact Bool.false_ne_true)]

theorem capture_payload {unit op edge : Byte} (small : unit.toNat ≤ 15) (ops : op.toNat ≤ 2) (edges : edge.toNat ≤ 2) :
    orStat (needStat (decide (unit.toNat ≤ 15)) stat_range) (needStat (decide (op.toNat ≤ 2) && decide (edge.toNat ≤ 2)) stat_badPayload) = none := by
  rw [decide_eq_true small, decide_eq_true ops, decide_eq_true edges]
  rfl

/-- The unit that a request arms, before its due time (R380). -/
def armedUnit (f : TriggerFields) (v : Nat) : Trigger :=
  { claimed := true, owner := some v, armed := true, view := f.view.toNat
    first := { sec := f.sec.toNat, ns := f.ns.toNat, frac := f.frac.toNat }, period := f.period.toNat
    action := f.action.toNat, target := f.target.toNat, image := f.image, next := 0, due := 0, late := false }

theorem triggerArm_of_command {f : TriggerFields} {v : Nat} (vzf : p.vzf = some v) (free : (s.trigger f.unit.toNat).claimed = false)
    (view : f.view.toNat < 10 ∨ (s.view f.view.toNat).alloc = true) (cmd : f.action = 1) (owns : s.chOwner f.target.toNat = some v) :
    triggerArm f p s = (s.modTrigger f.unit.toNat (fun _ => { armedUnit f v with due := (armedUnit f v).convert (s.view f.view.toNat) }),
      .ok (n64 ((armedUnit f v).convert (s.view f.view.toNat)))) := by
  have open_ : ¬ (10 ≤ f.view.toNat ∧ (!(s.view f.view.toNat).alloc) = true) := by
    rintro ⟨high, closed⟩
    obtain low | alloc := view
    · omega
    · rw [alloc] at closed
      cases closed
  unfold triggerArm
  dsimp only
  rw [free, unitStat_of_free, if_neg (show ¬ (none : Option U16).isSome = true from Bool.false_ne_true), if_neg open_, vzf,
    if_neg (by rw [owns]; exact fun h => h.2.elim (fun c => Bool.false_ne_true c) fun c => c rfl)]
  refine (if_neg ?_).trans rfl
  rw [cmd]
  exact Bool.false_ne_true

theorem Trigger.convert_first {t : Trigger} (first : t.next = 0) (v : View) : t.convert v = v.countAt t.first.units := by
  rw [Trigger.convert, first, Trigger.dueUnits, Nat.zero_mul, Nat.zero_mul]
  exact congrArg v.countAt (Int.add_zero _)

end

/-- Settles O26: each command passes the checks of R72 and changes one view, one unit or the alarm. The target of a cancelled alarm is a free
value (log entry 93). -/
theorem timeCommandsAct : Obligations.TimeCommandsAct := by
  refine ⟨?read, ?adjust, ?past, ?closed, ?alloc, ?free, ?noView, ?capture, ?badSource, ?readUnit, ?freeUnit, ?arm, ?disarm, ?alarm, ?cancel⟩
  case read =>
    intro s r p view q small serves
    exact answers_of_accepted q rfl (q.passes (decide_eq_true q.len) rfl (viewStat_of_small small) serves) rfl rfl rfl
  case adjust =>
    intro s r p f q small may payload serves open_ late early free base
    exact answers_of_accepted q rfl (q.passes (decide_eq_true q.len) (Need.check_owner_ite small may) payload serves)
      (adjustBody_of_ready open_ late early free base) rfl ⟨by rw [State.modView_same], by rw [State.modView_same],
        fun v other => State.modView_other _ _ _ other, State.modView_frame ..⟩
  case past =>
    intro s r p f q small may payload serves open_ named past
    exact answers_of_accepted q rfl (q.passes (decide_eq_true q.len) (Need.check_owner_ite small may) payload serves)
      (adjustBody_of_past open_ named past) rfl rfl
  case closed =>
    intro s r p f q small may payload serves closed
    exact answers_of_accepted q rfl (q.passes (decide_eq_true q.len) (Need.check_owner_ite small may) payload serves) (if_pos closed) rfl rfl
  case alloc =>
    intro s r p view vzf q system low high serves exists_ free
    exact answers_of_accepted q rfl (q.passes (decide_eq_true q.len) (Need.check_of_sysPriv system _) (view_payload low high) serves)
      (viewAllocBody_of_free exists_ low high free) rfl ⟨by rw [allocView, State.modView_same], by rw [allocView, State.modView_same],
        fun v other => State.modView_other _ _ _ other, allocView_frame ..⟩
  case free =>
    intro s r p view vzf q system low high serves taken
    exact answers_of_accepted q rfl (q.passes (decide_eq_true q.len) (Need.check_of_sysPriv system _) (view_payload low high) serves)
      (viewAllocBody_of_allocated high taken) rfl ⟨by rw [freeViewAt, State.modView_same], by rw [freeViewAt, State.modView_same],
        by rw [freeViewAt, State.modView_same], fun v other => State.modView_other _ _ _ other, freeViewAt_frame ..⟩
  case noView =>
    intro s r p vzf q system serves exists_ all
    exact answers_of_accepted q rfl (q.passes (decide_eq_true q.len) (Need.check_of_sysPriv system _) rfl serves)
      (viewAllocBody_of_none exists_ all) rfl rfl
  case capture =>
    intro s r p unit edge source q small edges serves free di may
    exact answers_of_accepted q rfl (q.passes (decide_eq_true q.len) rfl (capture_payload small (Nat.zero_le 2) edges) serves)
      (captureConfigure_of_di free di may) rfl ⟨State.modCapture_same .., fun k other => State.modCapture_other _ _ _ k other, State.modCapture_frame ..⟩
  case badSource =>
    intro s r p unit edge source q small edges serves system unknown
    exact answers_of_accepted q rfl (q.passes (decide_eq_true q.len) rfl (capture_payload small (Nat.zero_le 2) edges) serves)
      (captureConfigure_of_unknown system unknown) rfl rfl
  case readUnit =>
    intro s r p unit edge source q small edges serves system
    exact answers_of_accepted q rfl (q.passes (decide_eq_true q.len) rfl (capture_payload small (by decide) edges) serves)
      ((captureBody_of_mine (by decide) system).trans (if_pos rfl)) rfl ⟨State.modCapture_same .., State.modCapture_frame ..⟩
  case freeUnit =>
    intro s r p unit edge source q small edges serves system
    exact answers_of_accepted q rfl (q.passes (decide_eq_true q.len) rfl (capture_payload small (by decide) edges) serves)
      ((captureBody_of_mine (by decide) system).trans (if_neg (by decide))) rfl ⟨State.modCapture_same .., State.modCapture_frame ..⟩
  case arm =>
    intro s r p f v q payload op serves vzf free view cmd owns
    have does : triggerBody f p s = _ := (if_pos op).trans (triggerArm_of_command vzf free view cmd owns)
    have due := Trigger.convert_first (t := armedUnit f v) rfl (s.view f.view.toNat)
    refine ⟨_, congrArg Host.Outcome.next (runCmd_accepted _ q.port (q.passes (decide_eq_true q.len) rfl payload serves)),
      s.modTrigger f.unit.toNat (fun _ => { armedUnit f v with due := (armedUnit f v).convert (s.view f.view.toNat) }), ?_⟩
    rw [does, State.modTrigger_same]
    exact ⟨rfl, rfl, rfl, rfl, rfl, rfl, due, fun k other => State.modTrigger_other _ _ _ k other, State.modTrigger_frame ..⟩
  case disarm =>
    intro s r p f q payload op system serves
    have does : triggerBody f p s = (s.modTrigger f.unit.toNat (fun _ => .reset), .ok (n64 (s.trigger f.unit.toNat).due)) :=
      (if_neg (by rw [op]; decide)).trans (if_pos (by rw [system]; rfl))
    exact answers_of_accepted q rfl (q.passes (decide_eq_true q.len) rfl payload serves) does rfl
      ⟨State.modTrigger_same .., fun k other => State.modTrigger_other _ _ _ k other, State.modTrigger_frame ..⟩
  case alarm =>
    intro s r p delay q system low high serves
    exact answers_of_accepted q rfl (q.passes (decide_eq_true q.len) (Need.check_of_sysPriv system _)
      (by rw [decide_eq_true low, decide_eq_true high]; rfl) serves) rfl rfl ⟨rfl, rfl, Frame.set_tb (Frame.refl ..) (by decide)⟩
  case cancel =>
    intro s r p delay q system serves
    exact ⟨_, congrArg Host.Outcome.next (runCmd_accepted _ q.port (q.passes (decide_eq_true q.len) (Need.check_of_sysPriv system _) rfl serves)),
      { s.draw with tb := { s.tb with alarm := none } }, _, rfl, rfl, rfl, Frame.set_tb ((State.draw_frame s).mono (by decide)) (by decide)⟩

end Sys2Proof.Machine
end

section
/-! PROOF. Creation, reset and destruction of virtual zone functions: an event or a completion leaves a VZF its life, its template, its
regions and its generation, so the end of each command shows what the command itself wrote (R403 to R412). -/

namespace Sys2Proof.Machine

/-! ### What a raised vector leaves of a VZF -/

/-- A VZF without its event vectors and their moderation bucket: what a raise leaves alone (R412). -/
def Vzf.lasting (z : Vzf) : Vzf := { z with vectors := .empty, tokens := 0 }

theorem Vzf.deliverVec_lasting (z : Vzf) (k : Nat) : (z.deliverVec k).lasting = z.lasting := by
  unfold Vzf.deliverVec
  dsimp only
  split <;> rfl

theorem Vzf.raiseSrc_lasting (z : Vzf) (src : Nat) : (z.raiseSrc src).lasting = z.lasting := by
  unfold Vzf.raiseSrc Vzf.raiseVec
  dsimp only
  split
  · split
    · exact Vzf.deliverVec_lasting ..
    · rfl
  · rfl

/-- VZF `w` without its event vectors. -/
def VzfState.lasting (w : Nat) (z : VzfState) : Vzf := (z.vzfs.getD .free w).lasting

theorem VzfState.modify_lasting (z : VzfState) (v w : Nat) {f : Vzf → Vzf} (kept : ∀ x, (f x).lasting = x.lasting) :
    (z.modify v f).lasting w = z.lasting w := by
  obtain rfl | other := Decidable.em (w = v)
  · exact (congrArg Vzf.lasting (Tbl.getD_modify_same ..)).trans (kept _)
  · exact congrArg Vzf.lasting (Tbl.getD_modify_other _ _ _ _ _ other)

theorem VzfState.notify_lasting (z : VzfState) (p q : Port) (w : Nat) : (z.notify p q).lasting w = z.lasting w := by
  unfold VzfState.notify
  split
  · split
    · exact z.modify_lasting _ w (fun x => x.raiseSrc_lasting _)
    · rfl
  · rfl

theorem VzfState.notifyPorts_lasting (z : VzfState) (old new : Tbl Port) (w : Nat) : (z.notifyPorts old new).lasting w = z.lasting w :=
  foldl_kept (VzfState.lasting w) (fun z c _ => z.notify_lasting c.2 _ w) z

variable (s : State) (w : Nat)

theorem State.raiseSrc_lasting (v : Option Nat) (src : Nat) : (s.raiseSrc v src).vz.lasting w = s.vz.lasting w := by
  cases v with
  | none => rfl
  | some v => exact s.vz.modify_lasting v w (fun x => x.raiseSrc_lasting src)

theorem raise_lasting (k : EvKind) (inst : Nat) (sc : Scope) (data : List Byte) : (raise k inst sc data s).vz.lasting w = s.vz.lasting w := by
  have one : ∀ (k : EvKind) inst sc data (s : State), (raiseOne k inst sc data s).vz.lasting w = s.vz.lasting w :=
    fun k inst sc data s => s.vz.notifyPorts_lasting ..
  unfold raise
  dsimp only
  split
  · exact (one ..).trans (one ..)
  · exact one ..

theorem State.modPort_lasting (n : Nat) (f : Port → Port) : (s.modPort n f).vz.lasting w = s.vz.lasting w := by
  unfold State.modPort
  split
  · rfl
  · exact s.vz.notify_lasting ..

theorem complete_lasting (port : Nat) (reqSeq tag : U32) (code status : U16) (result : List Byte) :
    (complete port reqSeq tag code status result s).vz.lasting w = s.vz.lasting w := by
  unfold complete
  split
  · rfl
  · split
    · exact s.modPort_lasting ..
    · rfl

theorem completeVzf_lasting (req : Option (Nat × U32 × U32)) (code : U16) (result : List Byte) :
    (completeVzf req code result s).vz.lasting w = s.vz.lasting w := by
  unfold completeVzf
  split
  · exact complete_lasting ..
  · rfl

theorem portEpoch_lasting (n : Nat) : (portEpoch n s).vz.lasting w = s.vz.lasting w := by
  unfold portEpoch
  split
  · rfl
  · dsimp only
    split
    · exact State.raiseSrc_lasting ..
    · rfl

theorem openPort_lasting (v : Nat) (t : Template) (kind : PortKind) (block n : Nat) :
    (openPort v t kind block n s).vz.lasting w = s.vz.lasting w := by
  unfold openPort
  dsimp only
  refine (portEpoch_lasting ..).trans ?_
  split <;> rfl

theorem openPorts_lasting (v : Nat) (t : Template) (ns : List Nat) : (openPorts v t ns s).vz.lasting w = s.vz.lasting w := by
  refine foldl_kept (fun s : State => s.vz.lasting w) (fun s x _ => ?_) s
  split <;> exact openPort_lasting ..

variable {s} in
theorem vzf_of_lasting {v : Nat} {z : Vzf} (same : s.vz.lasting v = z.lasting) : (s.vzf v).life = z.life ∧ (s.vzf v).tpl = z.tpl ∧
    (s.vzf v).regions = z.regions ∧ (s.vzf v).gen = z.gen ∧ (s.vzf v).requester = z.requester :=
  ⟨(congrArg Vzf.life same :), (congrArg Vzf.tpl same :), (congrArg Vzf.regions same :), (congrArg Vzf.gen same :), (congrArg Vzf.requester same :)⟩

/-! ### Creation -/

section
variable (v : Nat) (t : Template) (regions : List (Nat × Nat)) (iommu : IommuCtx)

/-- The state in which the new VZF has its number, before its views, ports and queue pairs open (R404). -/
def vzfPlaced (s : State) : State :=
  { s with
    vz := { s.vz with
      gens := s.vz.gens.set v (nextGen (s.vz.gens.getD 0 v))
      vzfs := s.vz.vzfs.set v (newVzf t (nextGen (s.vz.gens.getD 0 v)) (s.freePorts (t.nLport + t.nRport)) (s.freeViews t.nView) regions iommu) }
    mbx := { s.mbx with wins := s.mbx.wins.erase v } }

/-- The views, ports and queue pairs of a new VZF open (R404). -/
def vzfOpened (s : State) : State :=
  openPairs v (openPorts v t (s.freePorts (t.nLport + t.nRport))
    ((s.freeViews t.nView).foldl (fun s w => allocView w v s) (vzfPlaced v t regions iommu s)))

theorem createNow_eq : createNow v t regions iommu s =
    raise evt_vzfCreated v (.owned (some v)) [] (xSend (urgent (evalRules (vzfOpened v t regions iommu s)))) := rfl

theorem vzfPlaced_frame : Frame [.vz, .mbx] s (vzfPlaced v t regions iommu s) :=
  Frame.set_mbx_vz (Frame.refl ..) (by decide)

theorem allocViews_frame (views : List Nat) : Frame [.tb] s (views.foldl (fun s w => allocView w v s) s) :=
  Frame.foldl (fun s w => allocView_frame w v s) (Frame.refl ..)

theorem allocViews_vz (views : List Nat) : (views.foldl (fun s w => allocView w v s) s).vz = s.vz :=
  (allocViews_frame ..).same .vz (by decide)

theorem vzfOpened_rfx : (vzfOpened v t regions iommu s).rfx = s.rfx :=
  ((openPairs_frame ..).same .rfx (by decide)).trans (((openPorts_frame ..).same .rfx (by decide)).trans
    (((allocViews_frame ..).same .rfx (by decide)).trans ((vzfPlaced_frame ..).same .rfx (by decide))))

theorem vzfOpened_lasting : (vzfOpened v t regions iommu s).vz.lasting v =
    (newVzf t (nextGen (s.vz.gens.getD 0 v)) (s.freePorts (t.nLport + t.nRport)) (s.freeViews t.nView) regions iommu).lasting := by
  unfold vzfOpened
  rw [show ∀ u : State, (openPairs v u).vz = u.vz from fun u => (openPairs_frame v u).same .vz (by decide), openPorts_lasting,
    allocViews_vz]
  exact congrArg Vzf.lasting (Tbl.getD_set_same ..)

/-- What a creation leaves of the new VZF while the reflex engine is disabled. -/
theorem createNow_lasting (off : s.rfx.enabled = false) : (createNow v t regions iommu s).vz.lasting v =
    (newVzf t (nextGen (s.vz.gens.getD 0 v)) (s.freePorts (t.nLport + t.nRport)) (s.freeViews t.nView) regions iommu).lasting := by
  rw [createNow_eq, raise_lasting, show ∀ u : State, (xSend u).vz = u.vz from fun u => (xSend_frame u).same .vz (by decide), urgent_vz,
    evalRules_of_disabled ((congrArg RfxState.enabled (vzfOpened_rfx ..)).trans off), vzfOpened_lasting]

end

section
variable {s} {v tpl : Nat} {t : Template} {regions : List (Nat × Nat)} {iommu : IommuCtx}

theorem vzfCreate_of_free (absent : (s.vzf v).exists_ = false) (found : s.template tpl = some t) (sound : t.ok = true)
    (hosted : t.hostSaf = false ∨ (s.servingPair v).isSome = true) (untaken : s.taken t = false)
    (ports : (s.freePorts (t.nLport + t.nRport)).length = t.nLport + t.nRport) (views : (s.freeViews t.nView).length = t.nView)
    (room : takeRegions s.cfg.image.vzf.poolBlocks t.dram s.heldRegions = some regions) :
    vzfCreate v tpl iommu s = (createNow v t regions iommu s, stat_ok) := by
  have host : (t.hostSaf && (s.servingPair v).isNone) = false := by
    obtain no | some_ := hosted
    · rw [no, Bool.false_and]
    · rw [Option.isNone_eq_false_iff.mpr some_, Bool.and_false]
  simp only [vzfCreate, absent, found, sound, host, untaken, ports, views, room, Bool.false_eq_true, if_false, Bool.not_true, Nat.lt_irrefl,
    decide_false, Bool.or_self]

theorem vzfCreate_of_existing (exists_ : (s.vzf v).exists_ = true) : vzfCreate v tpl iommu s = (s, stat_vzfExists) := if_pos exists_

theorem vzfCreate_of_taken (absent : (s.vzf v).exists_ = false) (found : s.template tpl = some t) (sound : t.ok = true)
    (unhosted : t.hostSaf = false) (taken : s.taken t = true) : vzfCreate v tpl iommu s = (s, stat_noResource) := by
  simp only [vzfCreate, absent, found, sound, unhosted, taken, Bool.false_eq_true, if_false, Bool.not_true, Bool.false_and, Bool.true_or, if_true]

theorem createBody_of_created {n : Nat} {u : State} (chosen : s.chooseVzf n = some v) (does : vzfCreate v tpl iommu s = (u, stat_ok)) :
    createBody tpl n iommu s = (u, .ok (createBytes v u)) := by
  simp only [createBody, chosen, does, if_true]

theorem createBody_of_refused {n : Nat} {status : U16} (chosen : s.chooseVzf n = some v) (does : vzfCreate v tpl iommu s = (s, status))
    (refused : status ≠ stat_ok) : createBody tpl n iommu s = (s, .fail status) := by
  simp only [createBody, chosen, does, if_neg refused]

theorem State.chooseVzf_of_named {n : Nat} (named : n ≠ 255) : s.chooseVzf n = some n := if_neg named

end

/-! ### The begin and the end of a reset -/

theorem canQuiesce_vz (c : Nat) : (canQuiesce c s).vz = s.vz := rfl

theorem beginReset_vzf (v : Nat) (life : VzfLife) (req : Option (Nat × U32 × U32)) :
    (beginReset v life req s).vzf v = { s.vzf v with life := life, requester := req } := by
  unfold beginReset State.vzf
  dsimp only
  rw [foldl_kept (fun s : State => s.vz) (fun s c _ => by split <;> rfl)]
  exact Tbl.getD_modify_same ..

section
variable {s} {v : Nat} {p : Port} {r : Req}

theorem State.exists_of_vzfActive (active : s.vzfActive v = true) : (s.vzf v).exists_ = true := by
  have life := of_decide_eq_true active
  rw [Vzf.exists_, life]
  rfl

theorem destroyBody_of_active (active : s.vzfActive v = true) (other : p.vzf ≠ some v) :
    destroyBody r v p s = (beginReset v .destroying (some (r.port, r.tag, r.seq)) s, { status := stat_pending, data := [] }) := by
  simp only [destroyBody, State.exists_of_vzfActive active, active, other, Bool.not_true, Bool.false_eq_true, if_false]

theorem destroyBody_of_self (active : s.vzfActive v = true) (self : p.vzf = some v) : destroyBody r v p s = (s, .fail stat_vzfSelf) := by
  simp only [destroyBody, State.exists_of_vzfActive active, active, self, Bool.not_true, Bool.false_eq_true, if_false, if_true]

theorem destroyBody_of_absent (absent : (s.vzf v).exists_ = false) : destroyBody r v p s = (s, .fail stat_vzfNone) := by
  simp only [destroyBody, absent, Bool.not_false, if_true]

theorem resetBody_of_active (active : s.vzfActive v = true) (other : p.vzf ≠ some v) :
    resetBody r v p s = (beginReset v .quiescing (some (r.port, r.tag, r.seq)) s, { status := stat_pending, data := [] }) := by
  simp only [resetBody, State.exists_of_vzfActive active, active, other, Bool.not_true, Bool.false_eq_true, if_false]

theorem resetBody_of_self (active : s.vzfActive v = true) (self : p.vzf = some v) :
    resetBody r v p s = (beginReset v .quiescing none s, .ok []) := by
  simp only [resetBody, State.exists_of_vzfActive active, active, self, Bool.not_true, Bool.false_eq_true, if_false, if_true]

end

/-! ### The end of a drain -/

theorem endReset_lasting (v : Nat) :
    (endReset v s).vz.lasting v = { s.vzf v with life := .active, resets := (s.vzf v).resets + 1, requester := none }.lasting := by
  unfold endReset
  dsimp only
  rw [completeVzf_lasting, raise_lasting]
  exact congrArg Vzf.lasting (Tbl.getD_modify_same ..)

theorem suspendRules_enabled (v : Nat) : (suspendRules v s).rfx.enabled = s.rfx.enabled := by
  unfold suspendRules
  dsimp only
  rw [raise_rfx, (applyMerge_frame _).same .rfx (by decide)]

theorem Tbl.get?_erase_same {α : Type} (t : Tbl α) (k : Nat) : (t.erase k).get? k = none := by
  have gone : ∀ l : List (Nat × α), Tbl.find (l.filter (fun c => c.1 != k)) k = none := fun l => by
    induction l with
    | nil => rfl
    | cons c r ih =>
      obtain ⟨j, x⟩ := c
      by_cases same : j = k
      · rw [List.filter_cons_of_neg (by simp [same]), ih]
      · rw [List.filter_cons_of_pos (by simp [same]), Tbl.find, if_neg same, ih]
  exact gone t.cells

theorem Tbl.getD_erase_same {α : Type} (t : Tbl α) (d : α) (k : Nat) : (t.erase k).getD d k = d := by
  have gone : Tbl.find (t.erase k).cells k = none := Tbl.get?_erase_same t k
  rw [Tbl.getD, gone]
  rfl

/-- The drained VZF, its ports, buses, signals and units cleared and its outputs orphaned, before its rules are suspended (Table 14.13). -/
def resetCleared (v : Nat) (s : State) : State :=
  let z := s.vzf v
  let gen := nextGen (s.vz.gens.getD 0 v)
  let s := z.ports.foldl (fun s n => abortPort n s) s
  let s := { s with vz := { s.vz.modify v (fun z => { z with gen := gen }) with gens := s.vz.gens.set v gen } }
  let s := eswResetVzf v s
  let s := (List.range 16).foldl (fun s c => if s.canOwner c = some v then canZero v c s else s) s
  let s := (List.range 16).foldl (fun s l => if s.linOwner l = some v then linZero l s else s) s
  let s := if z.life = .destroying then s else z.ports.foldl (fun s n => portEpoch n s) s
  let s := markZero v (freeUnits v (sigZero v s))
  orphanX v ((s.ownedChans v).foldl (fun s i => orphanCh i s) s)

/-- The state whose event vectors clear last. -/
theorem resetSteps_eq (v : Nat) : resetSteps v s = (fun u : State => { u with vz := u.vz.modify v Vzf.clearVectors })
    (xSend (suspendRules v (resetCleared v s))) := rfl

theorem resetCleared_frame (v : Nat) : Frame [.mbx, .log, .tb, .vz, .ch, .fio, .esw, .net, .sig, .free] s (resetCleared v s) := by
  unfold resetCleared
  dsimp only
  refine .via (orphanX_frame ..) (by decide) (.foldl (fun s i => (orphanCh_frame i s).mono (by decide)) ?_)
  refine .via (markZero_frame ..) (by decide) (.via (freeUnits_frame ..) (by decide) (.via (sigZero_frame ..) (by decide) ?_))
  refine .ite ?_ (.foldl (fun s n => (portEpoch_frame n s).mono (by decide)) ?_)
  all_goals
    refine .foldl (fun s l => .ite ((linZero_frame l s).mono (by decide)) (.refl ..)) ?_
    refine .foldl (fun s c => .ite ((canZero_frame v c s).mono (by decide)) (.refl ..)) ?_
    refine .via (eswResetVzf_frame ..) (by decide) (.set_vz ?_ (by decide))
    exact .foldl (fun s n => (abortPort_frame n s).mono (by decide)) (.refl ..)

theorem resetSteps_enabled (v : Nat) : (resetSteps v s).rfx.enabled = s.rfx.enabled := by
  have sent : (xSend (suspendRules v (resetCleared v s))).rfx = (suspendRules v (resetCleared v s)).rfx := (xSend_frame _).same .rfx (by decide)
  have cleared : (resetCleared v s).rfx = s.rfx := (resetCleared_frame ..).same .rfx (by decide)
  rw [resetSteps_eq]
  dsimp only
  rw [sent, suspendRules_enabled, cleared]

/-- The outputs of a destroyed VZF off, before what it holds returns to its pools (R410). -/
def vzfSilenced (v : Nat) (s : State) : State :=
  let s' := (s.ownedChans v).foldl (fun s i => s.modChan i (fun c => { c with sw := .off, orphan := none, held := none })) s
  ((List.range xCount).filter (fun k => decide (s.xOwner k = some v))).foldl
    (fun s k => s.modX k (fun x => { x with cmd := false, held := none, waits := false })) s'

/-- The rules, ports and the number of a destroyed VZF returned (R410). -/
def vzfRemoved (v : Nat) (z : Vzf) (s : State) : State :=
  { s with
    rfx := { s.rfx with rules := s.rfx.rules.mapAll (fun _ x => if !x.rule.sysr && decide (x.rule.owner = v) then .reset else x) }
    mbx := { s.mbx with ports := ⟨s.mbx.ports.cells.filter (fun c => !z.ports.contains c.1)⟩ }
    vz := { s.vz with vzfs := s.vz.vzfs.erase v }
    fio := { s.fio with slots := s.fio.slots.erase v } }

theorem vzfRemoved_enabled (v : Nat) (z : Vzf) : (vzfRemoved v z s).rfx.enabled = s.rfx.enabled := rfl

def vzfFreed (v : Nat) (s : State) : State := closePairs v ((s.viewsOf v).foldl (fun s w => freeViewAt w s) s)

theorem releaseVzf_eq (v : Nat) : releaseVzf v s = xSend (applyMerge (evalRules (vzfFreed v (vzfRemoved v (s.vzf v) (vzfSilenced v s))))) := rfl

theorem vzfSilenced_frame (v : Nat) : Frame [.ch, .fio] s (vzfSilenced v s) :=
  .foldl (fun s k => (State.modX_frame s k _).mono (by decide)) (.foldl (fun s i => (State.modChan_frame s i _).mono (by decide)) (.refl ..))

theorem vzfFreed_frame (v : Nat) : Frame [.tb, .esw] s (vzfFreed v s) :=
  .via (closePairs_frame ..) (by decide) (.foldl (fun s w => (freeViewAt_frame w s).mono (by decide)) (.refl ..))

theorem vzfFreed_enabled (v : Nat) (z : Vzf) : (vzfFreed v (vzfRemoved v z (vzfSilenced v s))).rfx.enabled = s.rfx.enabled := by
  have freed : (vzfFreed v (vzfRemoved v z (vzfSilenced v s))).rfx = (vzfRemoved v z (vzfSilenced v s)).rfx :=
    (vzfFreed_frame ..).same .rfx (by decide)
  have silenced : (vzfSilenced v s).rfx = s.rfx := (vzfSilenced_frame ..).same .rfx (by decide)
  rw [freed, vzfRemoved_enabled, silenced]

theorem releaseVzf_lasting (v : Nat) (off : s.rfx.enabled = false) : (releaseVzf v s).vz.lasting v = Vzf.free.lasting := by
  have freed : (vzfFreed v (vzfRemoved v (s.vzf v) (vzfSilenced v s))).vz = (vzfRemoved v (s.vzf v) (vzfSilenced v s)).vz :=
    (vzfFreed_frame ..).same .vz (by decide)
  have sent : ∀ u : State, (xSend (applyMerge u)).vz = u.vz := fun u =>
    ((xSend_frame _).same .vz (by decide)).trans ((applyMerge_frame u).same .vz (by decide))
  rw [releaseVzf_eq, sent, evalRules_of_disabled ((vzfFreed_enabled ..).trans off), freed]
  exact congrArg Vzf.lasting (Tbl.getD_erase_same ..)

theorem endDestroy_lasting (v : Nat) (off : s.rfx.enabled = false) : (endDestroy v s).vz.lasting v = Vzf.free.lasting := by
  unfold endDestroy
  dsimp only
  rw [completeVzf_lasting, raise_lasting, releaseVzf_lasting s v off]

theorem drainEnd_of_quiescing {v : Nat} (life : (s.vzf v).life = .quiescing) : drainEnd v s = endReset v (resetSteps v s) := by
  simp only [drainEnd, life]

theorem drainEnd_of_destroying {v : Nat} (life : (s.vzf v).life = .destroying) : drainEnd v s = endDestroy v (resetSteps v s) := by
  simp only [drainEnd, life]

theorem drainEnd_of_active {v : Nat} (life : (s.vzf v).life = .active) : drainEnd v s = s := by
  simp only [drainEnd, life]

/-- Settles O27: a raise leaves a VZF everything but its event vectors, so what a creation, a reset and a destruction write stands at their end.
The reset steps stand at the end of the drain, which is the model's reading (log entry 96). -/
theorem vzfLifeCommandsAct : Obligations.VzfLifeCommandsAct := by
  refine ⟨?create, ?exists_, ?noResource, ?destroy, ?destroySelf, ?destroyNone, ?reset, ?resetSelf, ?quiesced, ?destroyed, ?active⟩
  case create =>
    intro s r p tpl vzf v t regions iommu q system small serves chosen absent found sound hosted untaken ports views room
    have does := vzfCreate_of_free (iommu := iommu) absent found sound hosted untaken ports views room
    have lasting := fun off => vzf_of_lasting (createNow_lasting s v t regions iommu off)
    generalize createNow v t regions iommu s = made at does lasting ⊢
    obtain ⟨u, answered, rfl⟩ := answers_of_accepted (c := .vzfCreate r tpl vzf iommu) (post := fun u => u = made) q rfl
      (q.passes (decide_eq_true q.len) (Need.check_of_sysPriv system _) (needStat_eq_none.mpr (decide_eq_true small)) serves)
      (createBody_of_created chosen does) rfl rfl
    refine ⟨_, answered, u, rfl, rfl, fun off => ?_⟩
    obtain ⟨life, tpl, regions, gen, -⟩ := lasting off
    exact ⟨life, tpl, regions, gen⟩
  case exists_ =>
    intro s r p tpl vzf iommu q system small serves named exists_
    exact answers_of_accepted q rfl
      (q.passes (decide_eq_true q.len) (Need.check_of_sysPriv system _) (needStat_eq_none.mpr (decide_eq_true small)) serves)
      (createBody_of_refused (State.chooseVzf_of_named named) (vzfCreate_of_existing exists_) (by decide)) rfl rfl
  case noResource =>
    intro s r p tpl vzf v t iommu q system small serves chosen absent found sound unhosted taken
    exact answers_of_accepted q rfl
      (q.passes (decide_eq_true q.len) (Need.check_of_sysPriv system _) (needStat_eq_none.mpr (decide_eq_true small)) serves)
      (createBody_of_refused chosen (vzfCreate_of_taken absent found sound unhosted taken) (by decide)) rfl rfl
  case destroy =>
    intro s r p vzf q system serves active other
    exact answers_of_accepted q rfl (q.passes (decide_eq_true q.len) (Need.check_of_sysPriv system _) rfl serves)
      (destroyBody_of_active active other) rfl ⟨rfl, by rw [beginReset_vzf], by rw [beginReset_vzf]⟩
  case destroySelf =>
    intro s r p vzf q system serves active self
    exact answers_of_accepted q rfl (q.passes (decide_eq_true q.len) (Need.check_of_sysPriv system _) rfl serves)
      (destroyBody_of_self active self) rfl rfl
  case destroyNone =>
    intro s r p vzf q system serves absent
    exact answers_of_accepted q rfl (q.passes (decide_eq_true q.len) (Need.check_of_sysPriv system _) rfl serves)
      (destroyBody_of_absent absent) rfl rfl
  case reset =>
    intro s r p vzf q system serves active other
    exact answers_of_accepted q rfl (q.passes (decide_eq_true q.len) (Need.check_of_sysPriv system _) rfl serves)
      (resetBody_of_active active other) rfl ⟨rfl, by rw [beginReset_vzf], by rw [beginReset_vzf]⟩
  case resetSelf =>
    intro s r p vzf q system serves active self
    exact answers_of_accepted q rfl (q.passes (decide_eq_true q.len) (Need.check_of_sysPriv system _) rfl serves)
      (resetBody_of_self active self) rfl ⟨rfl, by rw [beginReset_vzf]⟩
  case quiesced =>
    intro v s life
    obtain ⟨active, -, -, -, requester⟩ := vzf_of_lasting (endReset_lasting (resetSteps v.val s) v.val)
    exact ⟨_, congrArg Host.Outcome.next (drainEnd_of_quiescing s life), rfl, active, requester⟩
  case destroyed =>
    intro v s life
    refine ⟨_, congrArg Host.Outcome.next (drainEnd_of_destroying s life), rfl, fun off => ?_⟩
    obtain ⟨life, -⟩ := vzf_of_lasting (endDestroy_lasting (resetSteps v.val s) v.val ((resetSteps_enabled ..).trans off))
    rw [Vzf.exists_, life]
    rfl
  case active => exact fun v s life => congrArg Host.Outcome.next (drainEnd_of_active s life)

end Sys2Proof.Machine
end

section
/-! PROOF. Lockstep faults: the loss of a pair touches the other pairs nowhere, and its partitions move to a spare that stands ready
(R393, R395 to R397, Table 14.5). -/

namespace Sys2Proof.Machine

variable {s : State} {p q : Nat}

theorem State.pair_of_saf {t : State} (same : t.saf = s.saf) (q : Nat) : t.pair q = s.pair q := congrArg (fun z : SafState => z.pairs.getD .reset q) same

theorem lockstepMismatch_of_running (g : Nat) (kept : (s.pair p).retired = false) (runs : (s.pair p).halted = false) (up : s.mgrUp = true) :
    lockstepMismatch p g s = raiseSaf evt_safMismatch p (n16 g)
      (s.modPair p (fun x => { x with halted := true, parts := x.parts.map (fun y => { y with running := false }) })) := by
  simp only [lockstepMismatch, kept, runs, up, Bool.not_true, Bool.or_self, Bool.false_eq_true, if_false]

theorem lockstepMismatch_of_halted (g : Nat) (halted : (s.pair p).halted = true) : lockstepMismatch p g s = s := by
  simp only [lockstepMismatch, halted, Bool.or_true, Bool.true_or, if_true]

theorem raiseSaf_saf (k : EvKind) (p : Nat) (data : List Byte) (s : State) : (raiseSaf k p data s).saf = s.saf := raise_saf ..

/-! ### The decision after the tests -/

theorem lbistDecision_of_failed (ok : Bool) (kept : (s.pair p).retired = false) (halted : (s.pair p).halted = true) :
    lbistDecision p false ok s = losePair p (raiseSaf evt_safPairRetired p [] (retirePair p s)) := by
  simp only [lbistDecision, kept, halted, Bool.not_true, Bool.or_self, Bool.false_eq_true, if_false, Bool.not_false, if_true]

/-- The transient of the present time noted (R395). -/
def transientNoted (p : Nat) (s : State) : State := s.modPair p (fun x => { x with transients := s.now :: x.recent s.now })

theorem lbistDecision_of_transient (kept : (s.pair p).retired = false) (halted : (s.pair p).halted = true)
    (few : ((s.pair p).recent s.now).length < 2) : lbistDecision p true true s = raiseSaf evt_safTransient p [] ((transientNoted p s).modPair p
      (fun x => { x with halted := false, parts := x.parts.map (fun y => { y with running := true }) })) := by
  have below : ¬ 3 ≤ (s.now :: (s.pair p).recent s.now).length := by
    rw [List.length_cons]
    omega
  simp only [lbistDecision, kept, halted, below, Bool.not_true, Bool.or_self, Bool.false_eq_true, if_false]
  rfl

theorem lbistDecision_of_third (ok : Bool) (kept : (s.pair p).retired = false) (halted : (s.pair p).halted = true)
    (many : 2 ≤ ((s.pair p).recent s.now).length) :
    lbistDecision p true ok s = losePair p (raiseSaf evt_safPairRetired p [] (retirePair p (transientNoted p s))) := by
  have third : 3 ≤ (s.now :: (s.pair p).recent s.now).length := by
    rw [List.length_cons]
    omega
  simp only [lbistDecision, kept, halted, third, Bool.not_true, Bool.or_self, Bool.false_eq_true, if_false, if_true]
  rfl

theorem lbistDecision_of_running (pass ok : Bool) (runs : (s.pair p).halted = false) : lbistDecision p pass ok s = s := by
  simp only [lbistDecision, runs, Bool.not_false, Bool.or_true, if_true]

/-! ### The loss of a pair -/

theorem State.freeSpare_eq_some : s.freeSpare p = some q ↔ s.saf.spare = some q ∧ q ≠ p ∧ (s.pair q).healthy = true ∧ (s.pair q).parts = [] ∧
    s.saf.migrating = none := by
  unfold State.freeSpare
  split
  case h_1 r spare =>
    rw [spare]
    constructor
    · intro h
      split at h
      · next free =>
        cases h
        simp only [ne_eq, Bool.and_eq_true, decide_eq_true_eq, List.isEmpty_iff, Option.isNone_iff_eq_none] at free
        obtain ⟨⟨⟨other, healthy⟩, empty⟩, still⟩ := free
        exact ⟨rfl, other, healthy, empty, still⟩
      · cases h
    · rintro ⟨same, other, healthy, empty, still⟩
      cases same
      rw [healthy, empty, still, decide_eq_true other]
      rfl
  case h_2 spare =>
    rw [spare]
    exact ⟨fun h => absurd h.symm (Option.some_ne_none q), fun ⟨h, _⟩ => absurd h.symm (Option.some_ne_none q)⟩

theorem pairsCheck_saf (s : State) : (pairsCheck s).saf = s.saf := (pairsCheck_frame s).same .saf (by decide)

theorem losePair_pairs (p : Nat) (s : State) : (losePair p s).saf.pairs = s.saf.pairs := by
  unfold losePair
  rw [pairsCheck_saf]
  split
  · rfl
  · exact congrArg SafState.pairs ((fatalLockstep_frame p s).same .saf (by decide))

theorem losePair_migrating (spare : s.freeSpare p = some q) : (losePair p s).saf.migrating = some p := by
  unfold losePair
  rw [pairsCheck_saf, spare]

theorem losePair_pair (p : Nat) (s : State) (q : Nat) : (losePair p s).pair q = s.pair q :=
  congrArg (fun t : Tbl Pair => t.getD .reset q) (losePair_pairs p s)

/-- What the retirement of a pair leaves of each pair and of a migration (R397). -/
theorem retiredSaf (k : EvKind) (data : List Byte) (p : Nat) (s : State) : (raiseSaf k p data (retirePair p s)).saf = (s.modPair p Pair.retire).saf :=
  raiseSaf_saf ..

theorem pair_of_lost (k : EvKind) (data : List Byte) (p : Nat) (s : State) :
    (losePair p (raiseSaf k p data (retirePair p s))).pair p = (s.pair p).retire ∧
      ∀ q, q ≠ p → (losePair p (raiseSaf k p data (retirePair p s))).pair q = s.pair q := by
  refine ⟨?_, fun q other => ?_⟩
  · rw [losePair_pair, State.pair_of_saf (retiredSaf k data p s), State.modPair_same]
  · rw [losePair_pair, State.pair_of_saf (retiredSaf k data p s), State.modPair_other _ _ _ _ other]

theorem freeSpare_of_retired (k : EvKind) (data : List Byte) (spare : s.freeSpare p = some q) :
    (raiseSaf k p data (retirePair p s)).freeSpare p = some q := by
  obtain ⟨named, other, healthy, empty, still⟩ := State.freeSpare_eq_some.mp spare
  have same := retiredSaf k data p s
  have kept : (raiseSaf k p data (retirePair p s)).pair q = s.pair q := by
    rw [State.pair_of_saf same, State.modPair_other _ _ _ _ other]
  refine State.freeSpare_eq_some.mpr ⟨?_, other, by rw [kept, healthy], by rw [kept, empty], ?_⟩
  · exact (congrArg SafState.spare same).trans named
  · exact (congrArg SafState.migrating same).trans still

/-! ### Migration -/

theorem pairMigration_of_ready (moves : s.saf.migrating = some p) (spare : s.saf.spare = some q) (other : q ≠ p)
    (healthy : (s.pair q).healthy = true) (empty : (s.pair q).parts = []) :
    pairMigration s = raiseSaf evt_safMigrated q [] (moveParts p q { s with saf := { s.saf with migrating := none } }) := by
  unfold pairMigration
  rw [moves]
  dsimp only
  rw [State.freeSpare_eq_some (s := { s with saf := { s.saf with migrating := none } }).mpr ⟨spare, other, healthy, empty, rfl⟩]

theorem pairMigration_of_still (still : s.saf.migrating = none) : pairMigration s = s := by
  rw [pairMigration, still]

theorem moveParts_leaves (other : q ≠ p) (s : State) :
    ((moveParts p q s).pair q).parts = (s.pair p).parts.map (fun y => { y with running := true, copying := none }) ∧
      ((moveParts p q s).pair p).parts = [] ∧ (moveParts p q s).saf.spare = none ∧ (moveParts p q s).saf.migrating = none := by
  refine ⟨?_, ?_, rfl, rfl⟩
  · exact congrArg Pair.parts (State.modPair_same ..)
  · refine (congrArg Pair.parts (State.modPair_other _ q _ p other.symm)).trans ?_
    exact congrArg Pair.parts (State.modPair_same ..)

/-- Settles O29: a mismatch, a decision and a migration change the pairs they name; a spare that stands ready takes the partitions. -/
theorem lockstepFaultsAct : Obligations.LockstepFaultsAct := by
  refine ⟨?mismatch, ?halted, ?transient, ?failed, ?third, ?migrates, ?running, ?moved, ?still⟩
  case mismatch =>
    intro pair group s kept runs up
    refine ⟨_, congrArg Host.Outcome.next (lockstepMismatch_of_running _ kept runs up), ?_, fun q other => ?_, ?_⟩
    · rw [raiseSaf_pair, State.modPair_same]
    · rw [raiseSaf_pair, State.modPair_other _ _ _ _ other]
    · exact .via (raiseSaf_frame ..) (by decide) ((State.modPair_frame ..).mono (by decide))
  case halted => exact fun pair group s halted => congrArg Host.Outcome.next (lockstepMismatch_of_halted _ halted)
  case transient =>
    intro pair s kept halted few
    refine ⟨_, congrArg Host.Outcome.next (lbistDecision_of_transient kept halted few), ?_, fun q other => ?_, ?_⟩
    · rw [raiseSaf_pair, State.modPair_same, transientNoted, State.modPair_same]
    · rw [raiseSaf_pair, State.modPair_other _ _ _ _ other, transientNoted, State.modPair_other _ _ _ _ other]
    · exact .via (raiseSaf_frame ..) (by decide) (.via (State.modPair_frame ..) (by decide) ((State.modPair_frame ..).mono (by decide)))
  case failed =>
    intro pair ok s kept halted
    exact ⟨_, congrArg Host.Outcome.next (lbistDecision_of_failed ok kept halted), rfl, pair_of_lost ..⟩
  case third =>
    intro pair ok s kept halted many
    obtain ⟨retired, others⟩ := pair_of_lost evt_safPairRetired [] pair.val (transientNoted pair.val s)
    refine ⟨_, congrArg Host.Outcome.next (lbistDecision_of_third ok kept halted many), congrArg Pair.retired retired, congrArg Pair.healthy retired,
      fun q other => ?_⟩
    rw [others q other, transientNoted, State.modPair_other _ _ _ _ other]
  case migrates =>
    intro pair q ok s kept halted spare
    exact ⟨_, congrArg Host.Outcome.next (lbistDecision_of_failed ok kept halted), losePair_migrating (freeSpare_of_retired _ _ spare)⟩
  case running => exact fun pair pass ok s runs => congrArg Host.Outcome.next (lbistDecision_of_running pass ok runs)
  case moved =>
    intro p q s moves spare other healthy empty
    obtain ⟨taken, left, noSpare, still⟩ := moveParts_leaves other { s with saf := { s.saf with migrating := none } }
    have same := raiseSaf_saf evt_safMigrated q [] (moveParts p q { s with saf := { s.saf with migrating := none } })
    refine ⟨_, congrArg Host.Outcome.next (pairMigration_of_ready moves spare other healthy empty), ?_, ?_, ?_, ?_, ?_⟩
    · exact (congrArg Pair.parts (State.pair_of_saf same q)).trans taken
    · exact (congrArg Pair.parts (State.pair_of_saf same p)).trans left
    · exact (congrArg SafState.spare same).trans noSpare
    · exact (congrArg SafState.migrating same).trans still
    · exact .via (raiseSaf_frame ..) (by decide) (.via (moveParts_frame ..) (by decide) (.set_saf (.refl ..) (by decide)))
  case still => exact fun s still => congrArg Host.Outcome.next (pairMigration_of_still still)

end Sys2Proof.Machine
end

section
/-! PROOF. The stacking extension and the checkpoints: the state after a trap, a stacking fault and `mret`, and the partition that a
checkpoint names (R394, R398 to R402, Tables 14.7 and 14.10). -/

namespace Sys2Proof.Machine

variable {s : State} {p : Nat} {regs : CoreRegs} {pmp : List PmpRegion}

/-- The PMP regions of a pair as the trap finds them. -/
def pmpTaken (p : Nat) (pmp : List PmpRegion) (s : State) : State := s.modPair p (fun x => { x with pmp := pmp })

theorem pmpTaken_frame (p : Nat) (pmp : List PmpRegion) (s : State) : Frame [.saf] s (pmpTaken p pmp s) := State.modPair_frame ..

theorem pmpTaken_pair (p : Nat) (pmp : List PmpRegion) (s : State) : (pmpTaken p pmp s).pair p = { s.pair p with pmp := pmp } :=
  State.modPair_same ..

/-- The registers of a trap before its frame is taken (R398). -/
def CoreRegs.trapped (regs : CoreRegs) (cause tval : U32) (user : Bool) : CoreRegs :=
  { regs with mepc := regs.pc, mcause := cause, mtval := tval, mstatus := trapStatus regs.mstatus user }

/-! ### Stacking faults -/

theorem takeStackFault_frame_of_clear (reason : Nat) (ptr : U32) (r : CoreRegs) (oldSp : U32) (clear : (s.pair p).xstk.efb = false) :
    Frame [.saf, .mbx, .log, .vz] s (takeStackFault p reason ptr r oldSp s) := by
  unfold takeStackFault
  dsimp only
  rw [if_neg (by rw [clear]; exact Bool.false_ne_true)]
  exact .via (raiseSaf_frame ..) (by decide) ((State.modPair_frame ..).mono (by decide))

theorem takeStackFault_of_taken (reason : Nat) (ptr : U32) (r : CoreRegs) (oldSp : U32) (taken : (s.pair p).xstk.efb = true) :
    takeStackFault p reason ptr r oldSp s = stackFatal p s := if_pos taken

/-- R402: the pair of a fatal stacking fault. -/
theorem stackFatal_pair (p : Nat) (s : State) : (stackFatal p s).pair p = (s.pair p).retire := by
  have saf : (stackFatal p s).saf = (s.modPair p Pair.retire).saf :=
    (pairsCheck_saf _).trans (((fatalLockstep_frame ..).same .saf (by decide)).trans (retiredSaf ..))
  rw [State.pair_of_saf saf, State.modPair_same]

theorem getLsbD_setBit (m : BitVec 4) {k : Nat} (small : k < 4) : (m ||| BitVec.ofNat 4 (2 ^ k)).getLsbD k = true := by
  rw [BitVec.getLsbD_or, BitVec.getLsbD_ofNat, Nat.testBit_two_pow_self, decide_eq_true small, Bool.and_self, Bool.or_true]

/-! ### Traps -/

section
variable {cause tval : U32} {user : Bool} (serves : (s.pair p).retired = false) (runs : (s.pair p).halted = false)
include serves runs

theorem trapStacking_of_off (off : (s.pair p).xstk.en = false) : trapStacking p regs pmp cause tval user s =
    (pmpTaken p pmp s).modPair p (fun x => { x with regs := { regs.trapped cause tval user with pc := handler regs } }) := by
  simp only [trapStacking, serves, runs, off, Bool.or_self, Bool.not_false, Bool.false_eq_true, if_false, if_true]
  rfl

theorem trapStacking_of_passes (on_ : (s.pair p).xstk.en = true)
    (passes : stackFault pmp (if user then (s.pair p).xstk.msp else regs.sp).toNat = none) : trapStacking p regs pmp cause tval user s =
    (pmpTaken p pmp s).modPair p (fun x =>
      { x with
        tcm := memWrite x.tcm ((if user then (s.pair p).xstk.msp else regs.sp).toNat - 80) (frameBytes (regs.trapped cause tval user) regs.sp)
        regs := { regs.trapped cause tval user with sp := (if user then (s.pair p).xstk.msp else regs.sp) - 80, pc := handler regs } }) := by
  simp only [trapStacking, serves, runs, on_, passes, Bool.or_self, Bool.not_true, Bool.false_eq_true, if_false]
  rfl

theorem trapStacking_of_faults {reason : Nat} (on_ : (s.pair p).xstk.en = true)
    (faults : stackFault pmp (if user then (s.pair p).xstk.msp else regs.sp).toNat = some reason) : trapStacking p regs pmp cause tval user s =
    takeStackFault p reason (if user then (s.pair p).xstk.msp else regs.sp) (regs.trapped cause tval user) regs.sp (pmpTaken p pmp s) := by
  simp only [trapStacking, serves, runs, on_, faults, Bool.or_self, Bool.not_true, Bool.false_eq_true, if_false]
  rfl

/-! ### Unstacking -/

theorem mretUnstack_of_passes (on_ : (s.pair p).xstk.en = true) (passes : frameOk pmp regs.sp.toNat = true)
    (free : toUser (regs.unstack (s.pair p).tcm regs.sp.toNat).mstatus = false ∨
      (s.pair p).xstk.partStop.getLsbD ((s.pair p).xstk.partId % 4) = false) : mretUnstack p regs pmp s =
    (pmpTaken p pmp s).modPair p (fun x => { x with regs := { regs.unstack (s.pair p).tcm regs.sp.toNat with
      pc := (regs.unstack (s.pair p).tcm regs.sp.toNat).mepc
      mstatus := mretStatus (regs.unstack (s.pair p).tcm regs.sp.toNat).mstatus } }) := by
  have allowed : (toUser (regs.unstack (s.pair p).tcm regs.sp.toNat).mstatus &&
      (s.pair p).xstk.partStop.getLsbD ((s.pair p).xstk.partId % 4)) = false := Bool.and_eq_false_iff.mpr free
  simp only [mretUnstack, serves, runs, on_, passes, allowed, Bool.or_self, Bool.not_true, Bool.and_false, Bool.false_eq_true, if_false, if_true]
  rfl

theorem mretUnstack_of_fails (on_ : (s.pair p).xstk.en = true) (fails : frameOk pmp regs.sp.toNat = false) :
    mretUnstack p regs pmp s = takeStackFault p 4 regs.sp regs regs.sp (pmpTaken p pmp s) := by
  simp only [mretUnstack, serves, runs, on_, fails, Bool.or_self, Bool.not_false, Bool.and_self, Bool.false_eq_true, if_false, if_true]
  rfl

end

theorem pmpTaken_efb (clear : (s.pair p).xstk.efb = false) : ((pmpTaken p pmp s).pair p).xstk.efb = false := by
  rw [pmpTaken_pair]
  exact clear

/-- Settles O30: a trap, a stacking fault and `mret` are one update of the pair each. `mstatus` and the handler's address are the model's
reading (log entry 101), and so are the CSRs in the frame (log entry 100) and the order of the checkpoint slots (log entry 102). -/
theorem stackingAndCheckpointsAct : Obligations.StackingAndCheckpointsAct := by
  refine ⟨?stacking, ?off, ?faults, ?fatal, ?unstacks, ?badFrame, ?go, ?noGo, ?complete⟩
  case stacking =>
    intro pair regs pmp cause tval user s serves runs on_ passes
    have others := trapStacking_of_passes (regs := regs) (cause := cause) (tval := tval) serves runs on_ passes
    refine ⟨_, rfl, ?_⟩
    dsimp only
    rw [trapStacking_pair_of_passes serves runs on_ rfl passes]
    dsimp only
    refine ⟨rfl, rfl, rfl, fun q other => ?_, ?_⟩
    · rw [others, State.modPair_other _ _ _ _ other, pmpTaken, State.modPair_other _ _ _ _ other]
    · rw [others]
      exact .via (State.modPair_frame ..) (by decide) (pmpTaken_frame ..)
  case off =>
    intro pair regs pmp cause tval user s serves runs off
    refine ⟨_, congrArg Host.Outcome.next (trapStacking_of_off serves runs off), ?_, ?_, ?_⟩
    · rw [State.modPair_same]
      rfl
    · rw [State.modPair_same, pmpTaken_pair]
    · exact .via (State.modPair_frame ..) (by decide) (pmpTaken_frame ..)
  case faults =>
    intro pair regs pmp cause tval user reason s serves runs on_ clear faults
    refine ⟨_, congrArg Host.Outcome.next (trapStacking_of_faults serves runs on_ faults), ?_⟩
    dsimp only
    rw [takeStackFault_pair _ _ _ _ _ (pmpTaken_efb clear), pmpTaken_pair]
    dsimp only [CoreRegs.trapped]
    exact ⟨rfl, rfl, rfl, rfl, rfl, rfl, getLsbD_setBit _ (Nat.mod_lt _ (by decide)), rfl,
      ((pmpTaken_frame ..).mono (by decide)).trans (takeStackFault_frame_of_clear _ _ _ _ (pmpTaken_efb clear))⟩
  case fatal =>
    intro pair regs pmp cause tval user reason s serves runs on_ taken faults
    have again : ((pmpTaken pair.val pmp s).pair pair.val).xstk.efb = true := by
      rw [pmpTaken_pair]
      exact taken
    refine ⟨_, congrArg Host.Outcome.next ((trapStacking_of_faults serves runs on_ faults).trans (takeStackFault_of_taken _ _ _ _ again)), ?_⟩
    dsimp only
    rw [stackFatal_pair, pmpTaken_pair]
    exact ⟨rfl, rfl, rfl⟩
  case unstacks =>
    intro pair regs pmp s serves runs on_ passes free
    have others := mretUnstack_of_passes (regs := regs) serves runs on_ passes free
    refine ⟨_, rfl, ?_⟩
    dsimp only
    rw [mretUnstack_pair_of_passes serves runs on_ passes free]
    dsimp only
    refine ⟨rfl, rfl, fun q other => ?_, ?_⟩
    · rw [others, State.modPair_other _ _ _ _ other, pmpTaken, State.modPair_other _ _ _ _ other]
    · rw [others]
      exact .via (State.modPair_frame ..) (by decide) (pmpTaken_frame ..)
  case badFrame =>
    intro pair regs pmp s serves runs on_ clear fails
    refine ⟨_, congrArg Host.Outcome.next (mretUnstack_of_fails serves runs on_ fails), ?_⟩
    dsimp only
    rw [takeStackFault_pair _ _ _ _ _ (pmpTaken_efb clear), pmpTaken_pair]
    dsimp only
    exact ⟨rfl, rfl, rfl, rfl, ((pmpTaken_frame ..).mono (by decide)).trans (takeStackFault_frame_of_clear _ _ _ _ (pmpTaken_efb clear))⟩
  case go =>
    intro pair value s go
    refine ⟨_, congrArg Host.Outcome.next (if_pos go), ?_, fun q other => State.modPair_other _ _ _ _ other, State.modPair_frame ..⟩
    exact congrArg Pair.parts (State.modPair_same ..)
  case noGo => exact fun pair value s stays => congrArg Host.Outcome.next (if_neg (by rw [stays]; exact Bool.false_ne_true))
  case complete =>
    intro pair part s
    exact ⟨_, rfl, congrArg Pair.parts (State.modPair_same ..), fun q other => State.modPair_other _ _ _ _ other, State.modPair_frame ..⟩

end Sys2Proof.Machine
end

section
/-! PROOF. The cairn log: what an entry leaves of the log's state, and the commands, copies and losses of its stores (R472 to R475, R480,
Tables 16.13 and 16.18). -/

namespace Sys2Proof.Machine

/-! ### What an entry leaves of the log -/

section
variable (l : LogState) (e : LogEntry)

@[simp] theorem LogState.addRam_mode : (l.addRam e).mode = l.mode := by
  unfold LogState.addRam
  split <;> rfl

@[simp] theorem LogState.addNand_mode : (l.addNand e).mode = l.mode := by
  unfold LogState.addNand
  split <;> rfl

@[simp] theorem LogState.addNand_ram : (l.addNand e).ram = l.ram := by
  unfold LogState.addNand
  split <;> rfl

@[simp] theorem LogState.countRate_mode (sec : Nat) : (l.countRate sec).mode = l.mode := by
  unfold LogState.countRate
  split <;> rfl

@[simp] theorem LogState.countRate_ram (sec : Nat) : (l.countRate sec).ram = l.ram := by
  unfold LogState.countRate
  split <;> rfl

theorem LogState.addStone_leaves : (l.addStone e).mode = l.mode ∧ (l.addStone e).ram = l.ram := by
  unfold LogState.addStone
  dsimp only
  split
  · exact ⟨rfl, rfl⟩
  · split <;> exact ⟨rfl, rfl⟩

/-- The log with the next sequence number taken (R472). -/
def LogState.numbered : LogState :=
  { l with nextSeq := l.nextSeq + 1, reservedEnd := if l.nextSeq + 1 = l.reservedEnd then l.reservedEnd + 65536 else l.reservedEnd }

/-- The stores that take a numbered entry (R473). -/
def LogState.stored (ram nand : Bool) (sec : Nat) : LogState :=
  let l := if l.mode = .nandOnly && decide (e.cls < 3) && nand then l.countRate sec else l
  let l := if ram then l.addRam e else l
  let l := if nand then l.addNand e else l
  if e.stone then l.addStone e else l

theorem LogState.record_eq (sec : Nat) : l.record e sec =
    if (l.takes e.cls sec).1 || (l.takes e.cls sec).2 || e.stone then
      (l.numbered.stored { e with seq := l.nextSeq } (l.takes e.cls sec).1 (l.takes e.cls sec).2 sec, l.nextSeq)
    else if l.mode = .nandOnly then ({ l with dropped := l.dropped + 1 }, 0xFFFFFFFF) else (l, 0xFFFFFFFF) := rfl

theorem LogState.stored_mode (ram nand : Bool) (sec : Nat) : (l.stored e ram nand sec).mode = l.mode := by
  unfold LogState.stored
  dsimp only
  rw [apply_ite LogState.mode, (LogState.addStone_leaves ..).1, ite_self, apply_ite LogState.mode, LogState.addNand_mode, ite_self,
    apply_ite LogState.mode, LogState.addRam_mode, ite_self, apply_ite LogState.mode, LogState.countRate_mode, ite_self]

theorem LogState.stored_ram (nand : Bool) (sec : Nat) : (l.stored e false nand sec).ram = l.ram := by
  unfold LogState.stored
  dsimp only
  rw [apply_ite LogState.ram, (LogState.addStone_leaves ..).2, ite_self, apply_ite LogState.ram, LogState.addNand_ram, ite_self,
    if_neg Bool.false_ne_true, apply_ite LogState.ram, LogState.countRate_ram, ite_self]

theorem LogState.record_mode (sec : Nat) : (l.record e sec).1.mode = l.mode := by
  rw [LogState.record_eq]
  split
  · exact LogState.stored_mode ..
  · split <;> rfl

theorem LogState.record_ram_of_stonesOnly (sec : Nat) (lost : l.mode = .stonesOnly) : (l.record e sec).1.ram = l.ram := by
  rw [LogState.record_eq, LogState.takes, lost]
  dsimp only
  split
  · exact LogState.stored_ram ..
  · rfl

end

section
variable (k : EvKind) (inst : Nat) (sc : Scope) (data : List Byte) (s : State)

theorem raiseOne_log_mode : (raiseOne k inst sc data s).log.mode = s.log.mode := LogState.record_mode ..

theorem raise_log_mode : (raise k inst sc data s).log.mode = s.log.mode := by
  unfold raise
  dsimp only
  split
  · rw [raiseOne_log_mode, raiseOne_log_mode]
  · rw [raiseOne_log_mode]

theorem raise_log_ram_of_stonesOnly (lost : s.log.mode = .stonesOnly) : (raise k inst sc data s).log.ram = s.log.ram := by
  have one : ∀ k inst sc data (s : State), s.log.mode = .stonesOnly → (raiseOne k inst sc data s).log.ram = s.log.ram :=
    fun _ _ _ _ s lost => LogState.record_ram_of_stonesOnly s.log _ _ lost
  unfold raise
  dsimp only
  split
  · rw [one _ _ _ _ _ ((raiseOne_log_mode ..).trans lost), one _ _ _ _ _ lost]
  · rw [one _ _ _ _ _ lost]

end

/-! ### Reading and archiving -/

variable {s : State}

theorem logReadStat_of_fits {store count : Nat} (store_ : store ≤ 1) (low : 1 ≤ count) (high : count ≤ 125) : logReadStat store count = none :=
  needStat_eq_none.mpr (by rw [within, decide_eq_true store_, decide_eq_true low, decide_eq_true high]; rfl)

theorem logReadBytes_nil (first : U32) (count : Nat) : logReadBytes [] first count = [0, 0, 0, 0] ++ le32 first := by
  simp only [logReadBytes, List.filter_nil, List.take_nil, List.getLast?_nil, Option.map_none, Option.getD_none, List.flatMap_nil, List.append_nil,
    Bool.false_eq_true, if_false]
  rfl

theorem LogState.store_ram {l : LogState} (normal : l.mode = .normal) (empty : l.ram = []) : l.store 0 = [] := by
  rw [LogState.store, if_pos ⟨rfl, by rw [normal]; decide⟩, empty]
  rfl

/-- The log after its entries up to `last` are archived (R474). -/
def LogState.archived (l : LogState) (last : U32) : LogState :=
  { l with
    nand := l.nand.filter (fun x => later x.seq last)
    flashFull := l.flashFull && decide (l.nand.length - (l.nand.filter (fun x => later x.seq last)).length = 0) }

theorem archiveBody_of_logged {last : U32} {e : LogEntry} (newest : s.log.nand.head? = some e) (logged : later last e.seq = false) :
    archiveBody last s = ({ s with log := s.log.archived last },
      .ok (n32 (s.log.nand.length - (s.log.archived last).nand.length) ++ n32 (Config.nandEntries - (s.log.archived last).nand.length))) := by
  unfold archiveBody
  rw [newest]
  dsimp only
  rw [if_neg (by rw [logged]; exact Bool.false_ne_true)]
  rfl

theorem archiveBody_of_beyond {last : U32} {e : LogEntry} (newest : s.log.nand.head? = some e) (beyond : later last e.seq = true) :
    archiveBody last s = (s, .fail stat_range) := by
  unfold archiveBody
  rw [newest]
  exact if_pos beyond

/-! ### The loss of a store -/

/-- The log after an uncorrectable error of its RAM (Table 16.13). -/
def LogState.ramLost (l : LogState) (mode : LogMode) : LogState := { l with mode := mode, ram := [], flashFail := false }

section
variable (up : s.mgrUp = true)
include up

theorem sramEcc_of_flash (normal : s.log.mode = .normal) (sound : s.log.flashFail = false) :
    sramEcc s = raise evt_logDegraded noInst .wide [] { s with log := s.log.ramLost .nandOnly } := by
  unfold sramEcc
  rw [up, normal]
  dsimp only
  rw [if_neg (by decide), sound]
  rfl

theorem sramEcc_of_noFlash (normal : s.log.mode = .normal) (failed : s.log.flashFail = true) :
    sramEcc s = raise evt_logStoreFailed noInst .wide [] { s with log := s.log.ramLost .stonesOnly } := by
  unfold sramEcc
  rw [up, normal]
  dsimp only
  rw [if_neg (by decide), failed]
  rfl

theorem nandFail_of_normal (normal : s.log.mode = .normal) : nandFail s = { s with log := { s.log with flashFail := true } } := by
  simp only [nandFail, up, normal, Bool.not_true, Bool.false_eq_true, if_false]

theorem nandFail_of_nandOnly (alone : s.log.mode = .nandOnly) :
    nandFail s = raise evt_logStoreFailed noInst .wide [] { s with log := { s.log with mode := .stonesOnly } } := by
  simp only [nandFail, up, alone, Bool.not_true, Bool.false_eq_true, if_false]

end

theorem sramEcc_of_degraded (degraded : s.log.mode ≠ .normal) : sramEcc s = s := if_pos (by simp [degraded])

theorem nandFail_of_stonesOnly (lost : s.log.mode = .stonesOnly) : nandFail s = s := by
  simp only [nandFail, lost, ite_self]

/-- Settles O31: each command answers what the log holds, and a lost store leaves the next one of Table 16.13. A flash failure followed by a
RAM failure leaves the stones alone, and the number that follows the entries read is the next one to read: the model's reading (log entry
112). -/
theorem logRowsAct : Obligations.LogRowsAct := by
  refine ⟨?read, ?readEmpty, ?archive, ?beyond, ?status, ?debugOn, ?debugOff, ?readStones, ?clear, ?badMode, ?copied, ?noStone, ?degraded,
    ?stonesOnly, ?again, ?flash, ?bothLost, ?nothing⟩
  case read =>
    intro s r p store first count q store_ low high serves
    exact answers_of_accepted q rfl (q.passes (decide_eq_true q.len) rfl (logReadStat_of_fits store_ low high) serves) rfl rfl rfl
  case readEmpty =>
    intro s r p first q serves normal empty
    refine answers_of_accepted (u := s) q rfl (q.passes (decide_eq_true q.len) rfl rfl serves) ?_ rfl rfl
    rw [← logReadBytes_nil first 1, ← LogState.store_ram normal empty]
    rfl
  case archive =>
    intro s r p last e q system serves newest logged
    obtain ⟨u, answered, rfl⟩ := answers_of_accepted (c := .logArchive r last) (post := fun u => u = { s with log := s.log.archived last }) q rfl
      (q.passes (decide_eq_true q.len) (Need.check_of_sysPriv system _) rfl serves) (archiveBody_of_logged newest logged) rfl rfl
    exact ⟨_, answered, _, _, rfl, fun x => List.mem_filter, rfl, rfl, rfl, Frame.set_log (Frame.refl ..) (by decide)⟩
  case beyond =>
    intro s r p last e q system serves newest beyond
    exact answers_of_accepted q rfl (q.passes (decide_eq_true q.len) (Need.check_of_sysPriv system _) rfl serves)
      (archiveBody_of_beyond newest beyond) rfl rfl
  case status =>
    intro s r p q serves
    exact answers_of_accepted q rfl (q.passes (decide_eq_true q.len) rfl rfl serves) rfl rfl rfl
  case debugOn =>
    intro s r p q system serves
    exact answers_of_accepted (u := { s with log := { s.log with debugEn := true } }) q rfl
      (q.passes (decide_eq_true q.len) (Need.check_of_sysPriv system _) rfl serves) rfl rfl ⟨rfl, Frame.set_log (Frame.refl ..) (by decide)⟩
  case debugOff =>
    intro s r p q system serves
    exact answers_of_accepted (u := { s with log := { s.log with debugEn := false } }) q rfl
      (q.passes (decide_eq_true q.len) (Need.check_of_sysPriv system _) rfl serves) rfl rfl ⟨rfl, Frame.set_log (Frame.refl ..) (by decide)⟩
  case readStones =>
    intro s r p q awake
    exact answers_of_accepted q rfl (q.passes (decide_eq_true q.len) rfl rfl awake) rfl rfl rfl
  case clear =>
    intro s r p q system workshop
    exact answers_of_accepted q rfl (q.passes (decide_eq_true q.len) (Need.check_of_sysPriv system _) rfl (decide_eq_true workshop)) rfl rfl
      ⟨rfl, Frame.set_log (Frame.refl ..) (by decide)⟩
  case badMode =>
    intro s r p q system other
    exact answers_of_rejected q rfl (q.badMode (decide_eq_true q.len) (Need.check_of_sysPriv system _) rfl (decide_eq_false other)) rfl rfl
  case copied =>
    intro stone x s written
    refine ⟨{ s with log := { s.log with stones := s.log.stones.set stone.val { x with copied := true } } }, ?_, Tbl.get?_set_same .., rfl, rfl,
      Frame.set_log (Frame.refl ..) (by decide)⟩
    refine congrArg Host.Outcome.next ?_
    rw [written]
  case noStone =>
    intro stone s empty
    refine congrArg Host.Outcome.next ?_
    rw [empty]
  case degraded =>
    intro s up normal sound
    exact ⟨_, congrArg Host.Outcome.next (sramEcc_of_flash up normal sound), raise_log_mode ..,
      .via (raise_frame ..) (by decide) (.set_log (.refl ..) (by decide))⟩
  case stonesOnly =>
    intro s up normal failed
    exact ⟨_, congrArg Host.Outcome.next (sramEcc_of_noFlash up normal failed), raise_log_mode .., raise_log_ram_of_stonesOnly _ _ _ _ _ rfl,
      .via (raise_frame ..) (by decide) (.set_log (.refl ..) (by decide))⟩
  case again => exact fun s degraded => congrArg Host.Outcome.next (sramEcc_of_degraded degraded)
  case flash =>
    exact fun s up normal => ⟨_, congrArg Host.Outcome.next (nandFail_of_normal up normal), rfl, Frame.set_log (Frame.refl ..) (by decide)⟩
  case bothLost =>
    intro s up alone
    exact ⟨_, congrArg Host.Outcome.next (nandFail_of_nandOnly up alone), raise_log_mode ..,
      .via (raise_frame ..) (by decide) (.set_log (.refl ..) (by decide))⟩
  case nothing => exact fun s lost => congrArg Host.Outcome.next (nandFail_of_stonesOnly lost)

end Sys2Proof.Machine
end

section
/-! PROOF. The KEY commands: what a use of the nonce, a write of a slot and a draw leave (R429 to R435, Tables 15.3 to 15.7). -/

namespace Sys2Proof.Machine

variable {s : State}

/-! ### Slots -/

theorem slotAccess_useNonce (nonce n : Nat) (sig : KeySig) (s : State) : slotAccess (useNonce nonce s) n sig = slotAccess s n sig := rfl

/-- Slot `n` rewritten, its write count one higher (R432). -/
def slotWritten (n : Nat) (f : KeySlot → KeySlot) (s : State) : State := s.modKeySlot n (fun x => { f x with writes := x.writes + 1 })

theorem writeSlot_eq (n : Nat) (f : KeySlot → KeySlot) (s : State) : writeSlot n f s =
    (raiseKey evt_keyProvisioned n [] (slotWritten n f s), .ok (le32 ((slotWritten n f s).key.slots.getD .empty n).writes)) := rfl

theorem slotWritten_same (n : Nat) (f : KeySlot → KeySlot) (s : State) :
    (slotWritten n f s).key.slots.getD .empty n = { f (s.key.slots.getD .empty n) with writes := (s.key.slots.getD .empty n).writes + 1 } :=
  Tbl.getD_modify_same ..

theorem slotWritten_other {n k : Nat} (f : KeySlot → KeySlot) (s : State) (other : k ≠ n) :
    (slotWritten n f s).key.slots.getD .empty k = s.key.slots.getD .empty k := Tbl.getD_modify_other _ _ _ _ _ other

/-- The certificate kept beside slot 126 (Table 15.5). -/
def certKept (n : Nat) (cert : List Byte) (s : State) : State :=
  { s with key := { s.key with cert := if n = 126 then cert else s.key.cert } }

/-- The state that a provisioning or an erasure of slot `n` leaves: the nonce is used up (R32, R432). -/
def slotTaken (n nonce : Nat) (f : KeySlot → KeySlot) (cert : List Byte) (s : State) : State :=
  certKept n cert (raiseKey evt_keyProvisioned n [] (slotWritten n f (useNonce nonce s)))

theorem slotTaken_slots (n nonce : Nat) (f : KeySlot → KeySlot) (cert : List Byte) (s : State) :
    (slotTaken n nonce f cert s).key.slots = (slotWritten n f s).key.slots :=
  (congrArg KeyState.slots (raise_key evt_keyProvisioned n .wide [] (slotWritten n f (useNonce nonce s))) :)

theorem slotTaken_nonces (n nonce : Nat) (f : KeySlot → KeySlot) (cert : List Byte) (s : State) :
    (slotTaken n nonce f cert s).sys.nonces = (useNonce nonce s).sys.nonces :=
  (congrArg SysState.nonces (raise_sys evt_keyProvisioned n .wide [] (slotWritten n f (useNonce nonce s))) :)

theorem slotTaken_frame (n nonce : Nat) (f : KeySlot → KeySlot) (cert : List Byte) (s : State) :
    Frame [.key, .sys, .mbx, .log, .vz] s (slotTaken n nonce f cert s) :=
  .set_key (.via (raise_frame ..) (by decide) (.via (State.modKeySlot_frame ..) (by decide) ((useNonce_frame ..).mono (by decide)))) (by decide)

/-- What a provisioning makes of its slot (R432). -/
def provisioned (f : ProvisionFields) (c : List Byte) (x : KeySlot) : KeySlot :=
  { x with state := if f.typ = 0 then .empty else .valid, typ := f.typ.toNat, usage := f.usage, content := (c ++ zeros 64).take 64 }

def erased (x : KeySlot) : KeySlot := { x with state := .empty, typ := 0, usage := 0, content := [] }

theorem provisionBody_of_granted {f : ProvisionFields} {c : List Byte} (fresh : s.nonceFresh f.nonce = true)
    (granted : slotAccess s f.slot.toNat f.sig = none) (unwrapped : f.content = some c) : provisionBody f s =
    (slotTaken f.slot.toNat f.nonce (provisioned f c) (f.cert.take 640) s,
      .ok (le32 ((slotTaken f.slot.toNat f.nonce (provisioned f c) (f.cert.take 640) s).key.slots.getD .empty f.slot.toNat).writes)) := by
  unfold provisionBody
  dsimp only
  rw [if_neg (by rw [fresh]; exact Bool.false_ne_true), slotAccess_useNonce, granted, unwrapped]
  dsimp only
  rw [slotTaken_slots, writeSlot_eq]
  rfl

theorem provisionBody_of_stale {f : ProvisionFields} (stale : s.nonceFresh f.nonce = false) : provisionBody f s = (s, .fail stat_authFail) :=
  if_pos (by rw [stale]; rfl)

section
variable {n nonce : Nat} {sig : KeySig} (fresh : s.nonceFresh nonce = true)
include fresh

theorem eraseBody_of_granted (granted : slotAccess s n sig = none) : eraseBody n nonce sig s =
    (slotTaken n nonce erased [] s, .ok (le32 ((slotTaken n nonce erased [] s).key.slots.getD .empty n).writes)) := by
  unfold eraseBody
  dsimp only
  rw [if_neg (by rw [fresh]; exact Bool.false_ne_true), slotAccess_useNonce, granted]
  dsimp only
  rw [slotTaken_slots, writeSlot_eq]
  rfl

theorem eraseBody_of_refused (refused : slotAccess s n sig = some stat_authFail) :
    eraseBody n nonce sig s = (countRefused (useNonce nonce s), .fail stat_authFail) := by
  unfold eraseBody
  dsimp only
  rw [if_neg (by rw [fresh]; exact Bool.false_ne_true), slotAccess_useNonce, refused]
  rfl

end

theorem slotTaken_same (n nonce : Nat) (f : KeySlot → KeySlot) (cert : List Byte) (s : State) :
    (slotTaken n nonce f cert s).key.slots.getD .empty n =
      { f (s.key.slots.getD .empty n) with writes := (s.key.slots.getD .empty n).writes + 1 } := by
  rw [slotTaken_slots, slotWritten_same]

theorem slotTaken_other {n k : Nat} (nonce : Nat) (f : KeySlot → KeySlot) (cert : List Byte) (s : State) (other : k ≠ n) :
    (slotTaken n nonce f cert s).key.slots.getD .empty k = s.key.slots.getD .empty k := by
  rw [slotTaken_slots, slotWritten_other f s other]

/-! ### Checks of the payload -/

theorem slotStatusStat_of_fits {first count : Nat} (low : 1 ≤ count) (high : count ≤ 55) (room : first + count ≤ 128) :
    slotStatusStat first count = none :=
  needStat_eq_none.mpr (by rw [decide_eq_true low, decide_eq_true high, decide_eq_true room]; rfl)

theorem slotStatusStat_of_beyond {first count : Nat} (beyond : count = 0 ∨ 55 < count ∨ 128 < first + count) :
    slotStatusStat first count = some stat_range := by
  unfold slotStatusStat
  have fails : (decide (1 ≤ count) && decide (count ≤ 55) && decide (first + count ≤ 128)) = false := by
    rw [← Bool.decide_and, ← Bool.decide_and, decide_eq_false_iff_not]
    omega
  rw [fails, needStat_false]

theorem randomStat_of_fits {n : Nat} (low : 1 ≤ n) (high : n ≤ 4032) : randomStat n = none :=
  needStat_eq_none.mpr (by rw [decide_eq_true low, decide_eq_true high]; rfl)

/-! ### Random bytes, identity and attestation -/

theorem draw_frame (s : State) : Frame [.free] s s.draw := .set_free (.refl ..) (by decide)

theorem randomBody_of_healthy {n : Nat} (healthy : s.key.trngFail = false) : randomBody n s = (s.draw, .ok (Config.freeBytes s.free n)) :=
  if_neg (by rw [healthy]; exact Bool.false_ne_true)

theorem attestBody_of_short {r : Req} {nonce : List Byte} (root : s.key.pufFail = false) :
    attestBody r nonce false s = (s.draw, some (.ok (statement nonce false s ++ Config.freeBytes s.free 96))) :=
  if_neg (by rw [root]; exact Bool.false_ne_true)

theorem attestBody_of_long {r : Req} {nonce : List Byte} (root : s.key.pufFail = false) : attestBody r nonce true s =
    (complete r.port r.seq r.tag 0x0F04 stat_ok (attestBytes nonce true s) (respond r 0x0F04 stat_pending [] s.draw), none) :=
  if_neg (by rw [root]; exact Bool.false_ne_true)

theorem identityBody_of_rooted (root : s.key.pufFail = false) : identityBody s = (s, .ok (le64 s.key.serial ++ s.identityKey 0 97 ++ zeros 7
    ++ s.identityKey 1 97 ++ zeros 7 ++ s.identityKey 2 1952 ++ s.identityKey 3 1184 ++ n16 s.key.cert.length ++ s.key.cert)) :=
  if_neg (by rw [root]; exact Bool.false_ne_true)

theorem trngFail_of_healthy (healthy : s.key.trngFail = false) :
    trngFail s = raiseKey evt_keyTrngFail noInst [] { s with key := { s.key with trngFail := true } } :=
  if_neg (by rw [healthy]; exact Bool.false_ne_true)

theorem Mode.isWorkBase_of_workshop {m : Mode} (workshop : m = .workshop) : m.isWorkBase = true := by
  subst workshop
  rfl

/-- Settles O32: a granted request rewrites one slot and uses its nonce up, a refused one is counted, and the generator and the root decide
the rest. Random bytes and signatures are free values (log entry 32). -/
theorem keyCommandsAct : Obligations.KeyCommandsAct := by
  refine ⟨?provision, ?stale, ?erase, ?refused, ?status, ?range_, ?random, ?noRandom, ?identity, ?noIdentity, ?attest, ?attestLong, ?trng,
    ?again, fun r f slot nonce sig s => ⟨⟨_, rfl, execKeyProvision_frame r f s _ rfl⟩, ⟨_, rfl, execKeyEraseSlot_frame r slot nonce sig s _ rfl⟩⟩,
    fun r first count s => ⟨_, rfl, execKeySlotStatus_frame r first count s _ rfl⟩,
    fun r nonce flags n s => ⟨⟨_, rfl, execKeyAttest_frame r nonce flags s _ rfl⟩,
      ⟨_, rfl, (execKeyRandom_frame r n s _ rfl).mono (by decide)⟩, ⟨_, rfl, execKeyGetIdentity_frame r s _ rfl⟩,
      ⟨_, rfl, (execTrngHealthFail_frame s _ rfl).mono (by decide)⟩⟩⟩
  case provision =>
    intro s r p f c q system payload workshop fresh granted unwrapped
    obtain ⟨u, answered, taken⟩ := answers_of_accepted (c := .keyProvision r f)
      (post := fun u => u = slotTaken f.slot.toNat f.nonce (provisioned f c) (f.cert.take 640) s) q rfl
      (q.passes (decide_eq_true q.len) (Need.check_of_sysPriv system _) payload (Mode.isWorkBase_of_workshop workshop))
      (provisionBody_of_granted fresh granted unwrapped) rfl rfl
    refine ⟨_, answered, u, by rw [taken]; rfl, ?_⟩
    rw [taken]
    exact ⟨slotTaken_same .., fun n other => slotTaken_other _ _ _ _ other, nonceFresh_of_used (slotTaken_nonces ..), slotTaken_frame ..⟩
  case stale =>
    intro s r p f q system payload workshop stale
    exact answers_of_accepted q rfl
      (q.passes (decide_eq_true q.len) (Need.check_of_sysPriv system _) payload (Mode.isWorkBase_of_workshop workshop))
      (provisionBody_of_stale stale) rfl rfl
  case erase =>
    intro s r p slot nonce sig q system small workshop fresh granted
    obtain ⟨u, answered, taken⟩ := answers_of_accepted (c := .keyEraseSlot r slot nonce sig)
      (post := fun u => u = slotTaken slot.toNat nonce erased [] s) q rfl
      (q.passes (decide_eq_true q.len) (Need.check_of_sysPriv system _) (needStat_eq_none.mpr (decide_eq_true small))
        (Mode.isWorkBase_of_workshop workshop)) (eraseBody_of_granted fresh granted) rfl rfl
    refine ⟨_, answered, u, by rw [taken]; rfl, ?_⟩
    rw [taken]
    exact ⟨slotTaken_same .., fun n other => slotTaken_other _ _ _ _ other, slotTaken_frame ..⟩
  case refused =>
    intro s r p slot nonce sig q system small workshop fresh refused
    exact answers_of_accepted q rfl
      (q.passes (decide_eq_true q.len) (Need.check_of_sysPriv system _) (needStat_eq_none.mpr (decide_eq_true small))
        (Mode.isWorkBase_of_workshop workshop)) (eraseBody_of_refused fresh refused) rfl
      ⟨rfl, rfl, .via (countRefused_frame _) (by decide) ((useNonce_frame ..).mono (by decide))⟩
  case status =>
    intro s r p first count q system low high room awake
    exact answers_of_accepted q rfl
      (q.passes (decide_eq_true q.len) (Need.check_of_sysPriv system _) (slotStatusStat_of_fits low high room) awake) rfl rfl rfl
  case range_ =>
    intro s r p first count q system beyond
    exact answers_of_rejected q rfl (q.refused (decide_eq_true q.len) (Need.check_of_sysPriv system _) (slotStatusStat_of_beyond beyond)) rfl rfl
  case random =>
    intro s r p n q low high awake healthy
    exact answers_of_accepted q rfl (q.passes (decide_eq_true q.len) rfl (randomStat_of_fits low high) awake)
      (randomBody_of_healthy healthy) rfl ⟨rfl, draw_frame s⟩
  case noRandom =>
    intro s r p n q low high awake failed
    exact answers_of_accepted q rfl (q.passes (decide_eq_true q.len) rfl (randomStat_of_fits low high) awake) (if_pos failed) rfl rfl
  case identity =>
    intro s r p q awake root
    exact answers_of_accepted q rfl (q.passes (decide_eq_true q.len) rfl rfl awake) (identityBody_of_rooted root) rfl rfl
  case noIdentity =>
    intro s r p q awake lost
    exact answers_of_accepted q rfl (q.passes (decide_eq_true q.len) rfl rfl awake) (if_pos lost) rfl rfl
  case attest =>
    intro s r p nonce q awake root
    exact answers_of_accepted_later q rfl (q.passes (decide_eq_true q.len) rfl rfl awake) (attestBody_of_short root) rfl (draw_frame s)
  case attestLong =>
    intro s r p nonce q awake root
    exact ⟨_, exec_of_unanswered q rfl (q.passes (decide_eq_true q.len) rfl rfl awake) (attestBody_of_long root), s.draw, rfl, draw_frame s⟩
  case trng =>
    intro s healthy
    exact ⟨_, congrArg Host.Outcome.next (trngFail_of_healthy healthy), raise_key ..,
      .via (raise_frame ..) (by decide) (.set_key (.refl ..) (by decide))⟩
  case again => exact fun s failed => congrArg Host.Outcome.next (if_pos failed)

end Sys2Proof.Machine
end

section
/-! PROOF. The UPD commands: what an opened, filled, verified, committed or discarded target leaves of the image copies (R56, R436 to R444,
R453). -/

namespace Sys2Proof.Machine

variable {s : State}

theorem modCopy_copy_same (s : State) (c : Nat) (b : Bool) (f : ImageCopy → ImageCopy) : (s.modCopy c b f).copy c b = f (s.copy c b) :=
  Tbl.getD_modify_same ..

/-! ### The open target -/

theorem updOpen_of_busy {target total : Nat} (busy : s.upd.open_.isSome = true) : updOpen target total s = (s, .fail stat_busy) :=
  if_pos (by rw [busy]; rfl)

theorem updFill_of_fits {offset : Nat} {data : List Byte} {x : UpdTarget} (opened : s.upd.open_ = some x) (fits : offset + data.length ≤ x.total) :
    updFill offset data s = ({ s with upd := { s.upd with open_ := some { x with bytes := memWrite x.bytes offset data } } }, .ok []) := by
  unfold updFill
  rw [opened]
  exact if_neg (Nat.not_lt.mpr fits)

theorem updFill_of_none {offset : Nat} {data : List Byte} (shut : s.upd.open_ = none) : updFill offset data s = (s, .fail stat_noSession) := by
  rw [updFill, shut]

theorem updStartVerify_of_open {req : Option (Nat × U32 × U32)} {x : UpdTarget} (opened : s.upd.open_ = some x) : updStartVerify req s =
    ({ s with upd := { s.upd with open_ := none, verifying := some { target := x, requester := req } } }, { status := stat_pending, data := [] }) := by
  rw [updStartVerify, opened]

/-! ### The end of a verification -/

/-- The verification no longer runs. -/
def verifyEnded (s : State) : State := { s with upd := { s.upd with verifying := none } }

/-- A verified image stands staged under the key that it asks for (R442). -/
def stagedImage (m : Memory) : ImageCopy :=
  let y := manifestOf m false
  { y with devKey := y.devKey || y.devWrap, bytes := if y.devWrap then memSet y.bytes 0x1FFC 1 else y.bytes }

def imageStaged (t : UpdTarget) (s : State) : State :=
  raiseUpd evt_updVerified t.target [] (s.modCopy t.target t.second (fun _ => stagedImage t.bytes))

def bankStaged (t : UpdTarget) (b : Bank) (s : State) : State :=
  raiseUpd evt_updVerified 16 [] { s with upd := { s.upd with bankReady := some (t.second, b) } }

theorem answerVerify_of_port {v : Verifying} {n : Nat} {tag seq : U32} (asked : v.requester = some (n, tag, seq)) (st : U16) (result : List Byte)
    (s : State) : answerVerify v st result s = complete n seq tag 0x1003 st result s := by
  rw [answerVerify, asked]

section
variable {f : VerifyFacts} {bank : Bank} {v : Verifying} {n : Nat} {tag seq : U32} (runs : s.upd.verifying = some v)
  (asked : v.requester = some (n, tag, seq))
include runs asked

theorem verifyDone_of_image (image : v.target.target ≠ 16) (passes : imageStatus v.target f (verifyEnded s) = none) : verifyDone f bank s =
    complete n seq tag 0x1003 stat_ok (verifiedBytes v.target.target (manifestOf v.target.bytes false).version
      (manifestOf v.target.bytes false).secVer) (imageStaged v.target (verifyEnded s)) := by
  rw [← answerVerify_of_port asked]
  unfold verifyEnded at passes
  simp only [verifyDone, runs, image, if_false, passes]
  rfl

theorem verifyDone_of_badImage {st : U16} (image : v.target.target ≠ 16) (fails : imageStatus v.target f (verifyEnded s) = some st) :
    verifyDone f bank s = complete n seq tag 0x1003 st [] (verifyEnded s) := by
  rw [← answerVerify_of_port asked]
  unfold verifyEnded at fails
  simp only [verifyDone, runs, image, if_false, fails]
  rfl

theorem verifyDone_of_bank (isBank : v.target.target = 16) (passes : bankStatus (bank.read v.target.bytes) (verifyEnded s) = none) :
    verifyDone f bank s = complete n seq tag 0x1003 stat_ok (verifiedBytes 16 (memRead32 v.target.bytes 8) 0)
      (bankStaged v.target (bank.read v.target.bytes) (verifyEnded s)) := by
  rw [← answerVerify_of_port asked]
  unfold verifyEnded at passes
  simp only [verifyDone, runs, isBank, if_true, passes]
  rfl

end

theorem verifyDone_of_none {f : VerifyFacts} {bank : Bank} (still : s.upd.verifying = none) : verifyDone f bank s = s := by
  rw [verifyDone, still]

theorem valid_of_bankStatus {b : Bank} (passes : bankStatus b s = none) : b.valid = true := by
  unfold bankStatus at passes
  split at passes
  · cases passes
  · split at passes
    · cases passes
    · split at passes
      · cases passes
      · next sound =>
        rw [Bool.or_eq_true, not_or, Bool.not_eq_true', Bool.not_eq_false] at sound
        exact sound.1

theorem bankHeaderOk_of_passes {b : Bank} {m : Memory} (passes : bankStatus (b.read m) s = none) : bankHeaderOk m = true := by
  have valid := valid_of_bankStatus passes
  simp only [Bank.valid, Bool.and_eq_true, and_assoc] at valid
  obtain ⟨-, magic, -⟩ := valid
  exact magic

theorem imageStaged_frame (t : UpdTarget) (s : State) : Frame [.upd, .mbx, .log, .vz] s (imageStaged t s) :=
  .via (raise_frame ..) (by decide) ((State.modCopy_frame ..).mono (by decide))

theorem bankStaged_frame (t : UpdTarget) (b : Bank) (s : State) : Frame [.upd, .mbx, .log, .vz] s (bankStaged t b s) :=
  .via (raise_frame ..) (by decide) (.set_upd (.refl ..) (by decide))

theorem verifyEnded_frame (s : State) : Frame [.upd] s (verifyEnded s) := .set_upd (.refl ..) (by decide)

theorem imageStaged_copy (t : UpdTarget) (s : State) : (imageStaged t s).copy t.target t.second = stagedImage t.bytes := by
  rw [imageStaged, raiseUpd_copy, modCopy_copy_same]

theorem imageStaged_verifying (t : UpdTarget) (s : State) : (imageStaged t s).upd.verifying = s.upd.verifying :=
  (congrArg UpdState.verifying (raise_upd ..) :)

theorem bankStaged_upd (t : UpdTarget) (b : Bank) (s : State) : (bankStaged t b s).upd = { s.upd with bankReady := some (t.second, b) } :=
  raise_upd ..

/-! ### The commit -/

/-- The copy of a class that stands verified, by the states of its two copies. -/
def verifiedOf (x : Bool → ImageCopy) : Option Bool :=
  if (x false).state = .verified then some false else if (x true).state = .verified then some true else none

theorem State.verifiedCopy_eq (s : State) (c : Nat) : s.verifiedCopy c = verifiedOf (s.copy c) := rfl

/-- The verified copy of a class becomes valid (R440). -/
def promote (s : State) (c : Nat) : State :=
  match s.verifiedCopy c with
  | some b => s.modCopy c b (fun x => { x with state := .valid })
  | none => s

/-- The bank that a commit writes. -/
def bankWritten (ready : Option (Bool × Bank)) (c : CfgState) : CfgState :=
  match ready with
  | some (true, b) => { c with bankB := b }
  | some (false, b) => { c with bankA := b }
  | none => c

/-- The verified bank written, and the commit noted (R453). -/
def bankCommitted (s : State) : State :=
  { s with cfg := bankWritten s.upd.bankReady s.cfg, upd := { s.upd with bankReady := none, committed := s.upd.committed || decide (s.sys.mode = .basecamp) } }

theorem bankCommitted_copy (s : State) (c : Nat) (b : Bool) : (bankCommitted s).copy c b = s.copy c b := rfl

theorem bankCommitted_cfg (s : State) : (bankCommitted s).cfg = bankWritten s.upd.bankReady s.cfg := rfl

theorem commitNow_eq (s : State) : commitNow s = bankCommitted (allClasses.foldl promote s) := by
  unfold commitNow
  generalize allClasses = l
  rfl

theorem promote_frame (s : State) (c : Nat) : Frame [.upd] s (promote s c) := by
  unfold promote
  split
  · exact State.modCopy_frame ..
  · exact .refl ..

/-- What the promotion of a class makes of its copies. -/
def Promoted (_ : Nat) (x y : Bool → ImageCopy) : Prop := ∀ b, verifiedOf x = some b → y b = { x b with state := .valid }

theorem promote_own (s : State) (c : Nat) : Promoted c (s.copy c) ((promote s c).copy c) := by
  intro b verified
  rw [promote, State.verifiedCopy_eq, verified]
  exact modCopy_copy_same ..

theorem promote_other (s : State) (c d : Nat) (other : d ≠ c) : (promote s c).copy d = s.copy d := by
  funext b
  unfold promote
  split
  · exact State.modCopy_copy_other s _ fun same => other (congrArg Prod.fst same)
  · rfl

theorem promoteAll_copy {l : List Nat} (once : l.Nodup) (s : State) {c : Nat} (listed : c ∈ l) : Promoted c (s.copy c) ((l.foldl promote s).copy c) :=
  foldl_once (fun s : State => s.copy) (fun _ => True) Promoted (fun s a _ => promote_own s a) promote_other (fun _ _ _ => trivial) once trivial c listed

theorem allClasses_nodup : allClasses.Nodup := List.nodup_range

theorem commitNow_promotes {c : Nat} {b : Bool} (isClass : c ∈ allClasses) (verified : s.verifiedCopy c = some b) :
    (commitNow s).copy c b = { s.copy c b with state := .valid } := by
  rw [commitNow_eq, bankCommitted_copy]
  exact promoteAll_copy allClasses_nodup s isClass b verified

theorem promoted_upd (s : State) : (allClasses.foldl promote s).upd.bankReady = s.upd.bankReady :=
  foldl_kept (fun s : State => s.upd.bankReady) (fun s c _ => by
    unfold promote
    split <;> rfl) s

theorem promoted_cfg (s : State) : (allClasses.foldl promote s).cfg = s.cfg :=
  foldl_kept (fun s : State => s.cfg) (fun s c _ => (promote_frame s c).same .cfg (by decide)) s

theorem commitNow_cfg (s : State) : (commitNow s).cfg = bankWritten s.upd.bankReady s.cfg := by
  rw [commitNow_eq, bankCommitted_cfg, promoted_upd, promoted_cfg]

section
variable (shut : s.upd.open_ = none) (quiet : s.upd.verifying = none)
include shut quiet

theorem commitBody_of_tested (some_ : s.commitMask ≠ 0) (tested : s.commitMask % 128 = 0 ∨ testedSet (s.setImages s.resultSet) = true) :
    commitBody false s = (raiseUpd evt_updCommitted noInst [byteOf s.commitMask] (commitNow s),
      .ok ([byteOf s.commitMask] ++ zeros 3 ++ manifestDigest (s.setImages s.resultSet))) := by
  unfold commitBody
  dsimp only
  rw [if_neg (by simp [shut, quiet, some_]), if_neg (by
    obtain none_ | all := tested
    · simp [none_]
    · simp [all])]

theorem commitBody_of_untested (images : s.commitMask % 128 ≠ 0) (untested : testedSet (s.setImages s.resultSet) = false) :
    commitBody false s = (s, .fail stat_updUntested) := by
  have some_ : s.commitMask ≠ 0 := fun zero => images (by rw [zero])
  unfold commitBody
  dsimp only
  rw [if_neg (by simp [shut, quiet, some_]), if_pos (by simp [images, untested])]

end

theorem commitBody_of_nothing (allow : Bool) (nothing : s.commitMask = 0) : commitBody allow s = (s, .fail stat_updNotVerified) :=
  if_pos (by simp [nothing])

theorem raiseUpd_upd (k : EvKind) (inst : Nat) (data : List Byte) (s : State) : (raiseUpd k inst data s).upd = s.upd := raise_upd ..

theorem raiseUpd_cfg (k : EvKind) (inst : Nat) (data : List Byte) (s : State) : (raiseUpd k inst data s).cfg = s.cfg := raise_cfg ..

/-! ### The end of staging, the restart and the waiver -/

theorem updAbortBody_of_quiet (quiet : s.upd.verifying = none) : updAbortBody s = (abortStaged s, .ok []) := by
  rw [updAbortBody, abortVerify, quiet]

theorem abortStaged_copy (s : State) (c : Nat) (b : Bool) :
    (abortStaged s).copy c b = if (s.copy c b).state = .verified then .empty else s.copy c b :=
  Tbl.getD_mapAll_of_default s.upd.copies .empty _ _ rfl

theorem waiverBody_of_signed {allowance : Nat} {digest : List Byte} (key : s.slotServes 125 8 = true) : waiverBody allowance digest true s =
    ({ s with upd := { s.upd with waiver := some { left := allowance, digest := (digest ++ zeros 48).take 48 } } }, .ok []) :=
  if_neg (by rw [key]; exact Bool.false_ne_true)

theorem State.restartReady_of_uncommitted (base : s.sys.mode = .basecamp) (committed : s.upd.committed = false) : s.restartReady = false := by
  simp only [State.restartReady, base, committed, ne_eq, not_true_eq_false, decide_false, Bool.or_self]

theorem workBase_commit {m : Mode} (serves : m.isWorkBase = true) : (m.isWorkBase && !(flagOf 0 0 && decide (m = .basecamp))) = true := by
  rw [serves]
  rfl

/-- Settles O33: a target is opened, filled, verified and discarded by updates of one copy; a commit promotes each class once, and no class
touches another. The bytes kept beside the copy and the choice of the staging copy are the model's reading (log entry 104), and so are the
commit of a bank without a tested set and the verification that an abort ends (log entry 106). -/
theorem updateCommandsAct : Obligations.UpdateCommandsAct := by
  refine ⟨?opens, ?busy, ?fill, ?noSession, ?starts, ?image, ?badImage, ?bank, ?quiet, ?commit, ?nothing, ?untested, ?abort, ?status, ?restarts,
    ?notReady, ?waiver, ?unsigned, fun s => ⟨_, rfl, rfl, updDiscardOpen_frame s⟩⟩
  case opens =>
    intro s r p target total q system begins serves shut quiet isClass
    exact answers_of_accepted q rfl (q.passes (decide_eq_true q.len) (Need.check_of_sysPriv system _) begins serves)
      (updOpen_of_class (Nat.lt_succ_of_le isClass) shut quiet _) rfl ⟨rfl, rfl, Frame.set_upd (Frame.refl ..) (by decide)⟩
  case busy =>
    intro s r p target total q system begins serves busy
    exact answers_of_accepted q rfl (q.passes (decide_eq_true q.len) (Need.check_of_sysPriv system _) begins serves) (updOpen_of_busy busy) rfl rfl
  case fill =>
    intro s r p offset data x q system block serves opened fits
    exact answers_of_accepted q rfl
      (q.passes (Bool.and_eq_true_iff.mpr ⟨block, decide_eq_true q.len⟩) (Need.check_of_sysPriv system _) rfl serves)
      (updFill_of_fits opened fits) rfl ⟨rfl, rfl, Frame.set_upd (Frame.refl ..) (by decide)⟩
  case noSession =>
    intro s r p offset data q system block serves shut
    exact answers_of_accepted q rfl
      (q.passes (Bool.and_eq_true_iff.mpr ⟨block, decide_eq_true q.len⟩) (Need.check_of_sysPriv system _) rfl serves)
      (updFill_of_none shut) rfl rfl
  case starts =>
    intro s r p x q system serves opened
    exact answers_of_accepted q rfl (q.passes (decide_eq_true q.len) (Need.check_of_sysPriv system _) rfl serves)
      (updStartVerify_of_open opened) rfl ⟨rfl, rfl, rfl, Frame.set_upd (Frame.refl ..) (by decide)⟩
  case image =>
    intro f bank v n tag seq s runs asked image passes
    refine ⟨_, congrArg Host.Outcome.next (verifyDone_of_image runs asked image passes), imageStaged v.target (verifyEnded s), rfl,
      imageStaged_verifying .., ?_, ?_, .via (imageStaged_frame ..) (by decide) ((verifyEnded_frame s).mono (by decide))⟩
    · rw [imageStaged_copy]
      rfl
    · rw [imageStaged_copy]
      rfl
  case badImage =>
    intro f bank v n tag seq st s runs asked image fails
    exact ⟨_, congrArg Host.Outcome.next (verifyDone_of_badImage runs asked image fails), verifyEnded s, rfl, rfl, rfl, verifyEnded_frame s⟩
  case bank =>
    intro f bank v n tag seq s runs asked isBank passes
    have upd := bankStaged_upd v.target (bank.read v.target.bytes) (verifyEnded s)
    refine ⟨_, congrArg Host.Outcome.next (verifyDone_of_bank runs asked isBank passes), bankStaged v.target (bank.read v.target.bytes) (verifyEnded s),
      rfl, ?_, bankHeaderOk_of_passes passes, ?_, ?_, .via (bankStaged_frame ..) (by decide) ((verifyEnded_frame s).mono (by decide))⟩
    · rw [upd]
      rfl
    · rw [upd]
    · rw [upd]
      rfl
  case quiet => exact fun f bank s still => congrArg Host.Outcome.next (verifyDone_of_none still)
  case commit =>
    intro s r p q system serves shut quiet some_ tested
    obtain ⟨u, answered, committed⟩ := answers_of_accepted (c := .updCommit r 0)
      (post := fun u => u = raiseUpd evt_updCommitted noInst [byteOf s.commitMask] (commitNow s)) q rfl
      (q.passes (decide_eq_true q.len) (Need.check_of_sysPriv system _) rfl (workBase_commit serves))
      (commitBody_of_tested shut quiet some_ tested) rfl rfl
    refine ⟨_, answered, u, rfl, fun c b verified => ?_, ?_, fun bank ready => ?_, fun bank ready => ?_, ?_⟩
    · rw [committed, raiseUpd_copy, commitNow_promotes (List.mem_range.mpr c.isLt) verified]
      exact ⟨rfl, rfl⟩
    · rw [committed, raiseUpd_upd]
      rfl
    · rw [committed, raiseUpd_cfg, commitNow_cfg, ready]
      rfl
    · rw [committed, raiseUpd_cfg, commitNow_cfg, ready]
      rfl
    · rw [committed]
      exact .via (raise_frame ..) (by decide) ((commitNow_frame s).mono (by decide))
  case nothing =>
    intro s r p q system serves nothing
    exact answers_of_accepted q rfl (q.passes (decide_eq_true q.len) (Need.check_of_sysPriv system _) rfl (workBase_commit serves))
      (commitBody_of_nothing _ nothing) rfl rfl
  case untested =>
    intro s r p q system serves shut quiet images untested
    exact answers_of_accepted q rfl (q.passes (decide_eq_true q.len) (Need.check_of_sysPriv system _) rfl (workBase_commit serves))
      (commitBody_of_untested shut quiet images untested) rfl rfl
  case abort =>
    intro s r p q system serves quiet
    exact answers_of_accepted q rfl (q.passes (decide_eq_true q.len) (Need.check_of_sysPriv system _) rfl serves) (updAbortBody_of_quiet quiet) rfl
      ⟨rfl, rfl, fun c b staged => by rw [abortStaged_copy, if_pos staged], fun c b kept => by rw [abortStaged_copy, if_neg kept],
        abortStaged_frame s⟩
  case status =>
    intro s r p q awake
    exact answers_of_accepted q rfl (q.passes (decide_eq_true q.len) rfl rfl awake) rfl rfl rfl
  case restarts =>
    intro s r p q system serves ready
    obtain ⟨mode, phase, trigger, -⟩ := answerRestart_leaves (code := 0x1007) 8 q.port (by decide)
    exact ⟨_, exec_of_unanswered q rfl (q.passes (decide_eq_true q.len) (Need.check_of_sysPriv system _) rfl serves) (if_pos ready), rfl, mode,
      phase, trigger⟩
  case notReady =>
    intro s r p q system base committed
    exact answers_of_accepted_later q rfl (q.passes (decide_eq_true q.len) (Need.check_of_sysPriv system _) rfl (by simp only [base]; rfl))
      (if_neg (by rw [State.restartReady_of_uncommitted base committed]; exact Bool.false_ne_true)) rfl rfl
  case waiver =>
    intro s r p allowance digest q system some_ workshop key
    exact answers_of_accepted q rfl (q.passes (decide_eq_true q.len) (Need.check_of_sysPriv system _) (needStat_eq_none.mpr (decide_eq_true some_))
      (decide_eq_true workshop)) (waiverBody_of_signed key) rfl ⟨rfl, Frame.set_upd (Frame.refl ..) (by decide)⟩
  case unsigned =>
    intro s r p allowance digest q system some_ workshop
    exact answers_of_accepted q rfl (q.passes (decide_eq_true q.len) (Need.check_of_sysPriv system _) (needStat_eq_none.mpr (decide_eq_true some_))
      (decide_eq_true workshop)) (if_pos rfl) rfl ⟨rfl, rfl, countRefused_frame s⟩

end Sys2Proof.Machine
end

section
/-! PROOF. The Basecamp session over CAN0: a service that CAN0 serves answers what its body says, in the state that the body leaves (R446 to
R450). -/

namespace Sys2Proof.Machine

variable {s : State}

/-! ### The answer of a service -/

/-- The response of a service, and the port that serves from then on (R449). -/
def udsAnswered (sid : Byte) (t : State × UdsAnswer) : State :=
  t.1.modUds (fun u => { u.say (t.2.bytes sid) with serving := if t.2.valid && t.1.basecamp then some .can0 else u.serving })

theorem udsAnswered_frame (sid : Byte) {w : List Part} {u : State} (a : UdsAnswer) (h : Frame w s u) (sub : Part.sub [.uds] w = true) :
    Frame w s (udsAnswered sid (u, a)) := .via (State.modUds_frame ..) sub h

section
variable (sid : Byte) {f : State → State × UdsAnswer} (base : s.basecamp = true) (up : s.mgrUp = true)
include base up

theorem udsServe_of_serving (free : s.uds.serving ≠ some .ring) : udsServe sid f s = udsAnswered sid (f s) := by
  simp only [udsServe, base, up, free, Bool.not_true, Bool.or_self, Bool.false_eq_true, if_false]
  rfl

theorem udsServe_of_ring (ring : s.uds.serving = some .ring) : udsServe sid f s = s.modUds (fun u => u.say [0x7F, sid, 0x22]) := by
  simp only [udsServe, base, up, ring, Bool.not_true, Bool.or_self, Bool.false_eq_true, if_false, if_true]

end

theorem udsServe_of_other (sid : Byte) {f : State → State × UdsAnswer} (base : s.basecamp = false) : udsServe sid f s = s := by
  simp only [udsServe, base, Bool.not_false, Bool.true_or, if_true]

theorem State.basecamp_of_sys {t : State} (same : t.sys = s.sys) : t.basecamp = s.basecamp := by
  rw [State.basecamp, State.basecamp, same]

theorem needP_of_programming (programming : s.uds.programming = true) (y : State × UdsAnswer) : needP s y = y := if_pos programming

theorem needS_of_open (programming : s.uds.programming = true) (unlocked : s.uds.unlocked = true) (y : State × UdsAnswer) : needS s y = y :=
  if_pos (by rw [programming, unlocked]; rfl)

theorem needS_of_plain (plain : s.uds.programming = false) (y : State × UdsAnswer) : needS s y = (s, .neg 0x33) :=
  if_neg (by rw [plain]; exact Bool.false_ne_true)

/-! ### Sessions and restarts -/

/-- The session opened anew (R448). -/
def sessionOpened (sub : Byte) (s : State) : State := s.modUds (fun u => { u with programming := decide (sub = 2), unlocked := false, seed := none })

theorem udsSession_of_known {sub : Byte} (known : sub = 1 ∨ sub = 2) (s : State) :
    udsSession sub s = (sessionOpened sub s, .pos [sub, 0x00, 0x32, 0x01, 0xF4]) := if_pos known

/-- The service of `ECUReset`. -/
def resetService (sub : Byte) (s : State) : State × UdsAnswer :=
  if sub ≠ 1 then (s, .neg 0x12) else needS s (if s.restartReady then (s, .pos [1]) else (s, .neg 0x22))

/-- What a reset service leaves: a granted one restarts (R56). -/
def resetOutcome (s t : State) : State :=
  if t.uds.answer = [0x51, 1] && s.basecamp && s.mgrUp then restartCause 8 (clearLoop t) else t

theorem exec_udsEcuReset_eq (sub : Byte) (s : State) :
    exec (.udsEcuReset sub) s = .next (resetOutcome s (udsServe 0x11 (resetService sub) s)) := rfl

theorem restart_failedStarts (trigger : Nat) (s : State) : (restart trigger s).sys.failedStarts = s.sys.failedStarts := by
  show (closeSession (abortTests s)).sys.failedStarts = s.sys.failedStarts
  rw [closeSession_sys, abortTests_sys]

theorem clearLoop_failedStarts (base : s.basecamp = true) : (clearLoop s).sys.failedStarts = 0 := by
  rw [clearLoop, if_pos (of_decide_eq_true base)]

theorem restartCause_failedStarts (trigger : Nat) (base : s.basecamp = true) : (restartCause trigger (clearLoop s)).sys.failedStarts = 0 :=
  (restart_failedStarts ..).trans (clearLoop_failedStarts base)

theorem udsTester_zero (s : State) : udsTester 0 s = (s, .pos [0]) := rfl

theorem udsRead_serial (s : State) : udsRead 0xF18C s = (s, .pos ([0xF1, 0x8C] ++ asciiSerial s.key.serial)) := rfl

theorem udsRead_images (s : State) : udsRead 0xFD01 s = (s, .pos ([0xFD, 0x01] ++ updStatusBytes s)) := rfl

/-! ### Seeds and keys -/

theorem State.slot_bad_of_valid {x : KeySlot} (valid : x.state = .valid) : x.state ≠ .bad ∧ x.state ≠ .empty := by
  rw [valid]
  exact ⟨by decide, by decide⟩

/-- A seed given out (R448): its nonce is fresh. -/
def seedGiven (s : State) : State := (issueNonce s).1.modUds (fun u => { u with seed := some s.free })

theorem seedGiven_frame (s : State) : Frame [.uds, .sys, .free] s (seedGiven s) := by
  obtain ⟨-, -, frame⟩ := issueNonce_leaves s
  exact .via (State.modUds_frame ..) (by decide) (frame.mono (by decide))

theorem udsSeed_of_valid (programming : s.uds.programming = true) (open_ : s.uds.locked = false) (valid : (s.slot 124).state = .valid)
    (shut : s.uds.unlocked = false) (healthy : s.key.trngFail = false) : udsSeed s = (seedGiven s, .pos (0x11 :: nonceBytes s.free)) := by
  obtain ⟨sound, full⟩ := State.slot_bad_of_valid valid
  unfold udsSeed
  rw [needP_of_programming programming, if_neg (by rw [open_]; exact Bool.false_ne_true), if_neg sound, if_neg full,
    if_neg (by rw [shut]; exact Bool.false_ne_true), if_neg (by rw [healthy]; exact Bool.false_ne_true)]
  rfl

theorem udsSeed_of_locked (programming : s.uds.programming = true) (locked : s.uds.locked = true) : udsSeed s = (s, .neg 0x37) := by
  unfold udsSeed
  rw [needP_of_programming programming, if_pos locked]

/-- The seed is answered: its nonce is used up (R32). -/
def seedAnswered (n : Nat) (s : State) : State := (useNonce n s).modUds (fun u => { u with seed := none })

theorem seedAnswered_frame (n : Nat) (s : State) : Frame [.uds, .sys] s (seedAnswered n s) :=
  .via (State.modUds_frame ..) (by decide) ((useNonce_frame ..).mono (by decide))

theorem seedUsed_frame (n : Nat) (f : UdsState → UdsState) (s : State) : Frame [.uds, .sys] s ((seedAnswered n s).modUds f) :=
  .via (State.modUds_frame ..) (by decide) (seedAnswered_frame n s)

/-- Security access is granted (R448). -/
def accessGranted (n : Nat) (s : State) : State := (seedAnswered n s).modUds (fun u => { u with unlocked := true, wrong := 0 })

section
variable {n : Nat} (programming : s.uds.programming = true) (open_ : s.uds.locked = false) (seed : s.uds.seed = some n)
include programming open_ seed

theorem udsKey_of_signed (fresh : s.nonceFresh n = true) (key : s.slotServes 124 8 = true) (sound : (s.slot 124).state ≠ .bad) :
    udsKey true s = (accessGranted n s, .pos [0x12]) := by
  unfold udsKey
  rw [needP_of_programming programming, if_neg (by rw [open_]; exact Bool.false_ne_true), if_neg sound, seed]
  exact if_pos (State.signedOk_of_fresh fresh key)

theorem udsKey_of_unsigned (sound : (s.slot 124).state ≠ .bad) : udsKey false s = wrongKey (seedAnswered n s) := by
  unfold udsKey
  rw [needP_of_programming programming, if_neg (by rw [open_]; exact Bool.false_ne_true), if_neg sound, seed]
  exact if_neg (by rw [State.signedOk_false]; exact Bool.false_ne_true)

end

theorem State.sound_of_slotServes {n : Nat} {usage : U16} (serves : s.slotServes n usage = true) : (s.slot n).state ≠ .bad := by
  intro bad
  simp [State.slotServes, State.slotValid, bad] at serves

theorem wrongKey_of_few (few : s.uds.wrong < 2) : wrongKey s = (s.modUds (fun u => { u with wrong := u.wrong + 1 }), .neg 0x35) :=
  if_neg (by omega)

theorem wrongKey_of_third (many : 2 ≤ s.uds.wrong) : wrongKey s = (s.modUds (fun u => { u with wrong := 0, locked := true }), .neg 0x36) :=
  if_pos (by omega)

/-- Settles O34: a service that CAN0 serves is one body and one answer. Response bytes that R447 does not name are the model's choice (log
entry 108). -/
theorem udsServicesAct : Obligations.UdsServicesAct := by
  refine ⟨?session, ?ring, ?other, ?reset, ?denied, ?tester, fun s => ⟨_, rfl, rfl, rfl, rfl, rfl, ?timeout⟩,
    fun s => ⟨_, rfl, rfl, State.modUds_frame ..⟩, ?serial, ?images, ?seed, ?lockedSeed, ?key, ?wrongKey_, ?third,
    fun s => ⟨_, rfl, rfl, State.modUds_frame ..⟩⟩
  case session =>
    intro sub s base up free known
    refine ⟨_, congrArg Host.Outcome.next ((udsServe_of_serving 0x10 base up free).trans (congrArg (udsAnswered 0x10) (udsSession_of_known known s))),
      rfl, rfl, rfl, ?_, rfl, rfl, udsAnswered_frame _ _ (State.modUds_frame ..) (by decide)⟩
    exact if_pos ((Bool.true_and _).trans base)
  case ring => exact fun sub s base up ring => ⟨_, congrArg Host.Outcome.next (udsServe_of_ring 0x10 base up ring), rfl, State.modUds_frame ..⟩
  case other => exact fun sub s base => congrArg Host.Outcome.next (udsServe_of_other 0x10 base)
  case reset =>
    intro s base up free programming unlocked ready
    have granted : resetService 1 s = (s, .pos [1]) := by
      rw [resetService, if_neg (fun no => no rfl), needS_of_open programming unlocked, if_pos ready]
    have served := (udsServe_of_serving 0x11 base up free).trans (congrArg (udsAnswered 0x11) granted)
    have answered : resetOutcome s (udsAnswered 0x11 (s, .pos [1])) = restartCause 8 (clearLoop (udsAnswered 0x11 (s, .pos [1]))) :=
      if_pos (by rw [base, up]; rfl)
    exact ⟨_, (exec_udsEcuReset_eq 1 s).trans (congrArg Host.Outcome.next ((congrArg (resetOutcome s) served).trans answered)), rfl, rfl, rfl,
      restartCause_failedStarts 8 base⟩
  case denied =>
    intro s base up free plain
    have refused : resetService 1 s = (s, .neg 0x33) := by
      rw [resetService, if_neg (fun no => no rfl), needS_of_plain plain]
    have served := (udsServe_of_serving 0x11 base up free).trans (congrArg (udsAnswered 0x11) refused)
    have refusedAnswer : (udsAnswered 0x11 (s, .neg 0x33)).uds.answer = [0x7F, 0x11, 0x33] := rfl
    have stays : resetOutcome s (udsAnswered 0x11 (s, .neg 0x33)) = udsAnswered 0x11 (s, .neg 0x33) := if_neg (by rw [base, up, refusedAnswer]; decide)
    exact ⟨_, (exec_udsEcuReset_eq 1 s).trans (congrArg Host.Outcome.next ((congrArg (resetOutcome s) served).trans stays)), rfl,
      udsAnswered_frame _ _ (.refl ..) (by decide)⟩
  case tester =>
    intro s base up free
    exact ⟨_, congrArg Host.Outcome.next ((udsServe_of_serving 0x3E base up free).trans (congrArg (udsAnswered 0x3E) (udsTester_zero s))), rfl, if_pos ((Bool.true_and _).trans base), rfl,
      udsAnswered_frame _ _ (.refl ..) (by decide)⟩
  case timeout => exact .via (updDiscardOpen_frame _) (by decide) ((State.modUds_frame ..).mono (by decide))
  case serial =>
    intro s base up free
    exact ⟨_, congrArg Host.Outcome.next ((udsServe_of_serving 0x22 base up free).trans (congrArg (udsAnswered 0x22) (udsRead_serial s))), rfl, udsAnswered_frame _ _ (.refl ..) (by decide)⟩
  case images =>
    intro s base up free
    exact ⟨_, congrArg Host.Outcome.next ((udsServe_of_serving 0x22 base up free).trans (congrArg (udsAnswered 0x22) (udsRead_images s))), rfl, udsAnswered_frame _ _ (.refl ..) (by decide)⟩
  case seed =>
    intro s base up free programming open_ valid shut healthy
    obtain ⟨fresh, -⟩ := issueNonce_leaves s
    exact ⟨_, congrArg Host.Outcome.next ((udsServe_of_serving 0x27 base up free).trans (congrArg (udsAnswered 0x27)
      (udsSeed_of_valid programming open_ valid shut healthy))), rfl, rfl, fresh,
      udsAnswered_frame _ _ (seedGiven_frame s) (by decide)⟩
  case lockedSeed =>
    intro s base up free programming locked
    exact ⟨_, congrArg Host.Outcome.next ((udsServe_of_serving 0x27 base up free).trans (congrArg (udsAnswered 0x27)
      (udsSeed_of_locked programming locked))), rfl, rfl, udsAnswered_frame _ _ (.refl ..) (by decide)⟩
  case key =>
    intro n s base up free programming open_ seed fresh key
    exact ⟨_, congrArg Host.Outcome.next ((udsServe_of_serving 0x27 base up free).trans (congrArg (udsAnswered 0x27)
      (udsKey_of_signed programming open_ seed fresh key (State.sound_of_slotServes key)))), rfl, rfl, rfl, rfl,
      nonceFresh_of_used (s := s) (nonce := n) rfl,
      udsAnswered_frame _ _ (seedUsed_frame n _ s) (by decide)⟩
  case wrongKey_ =>
    intro n s base up free programming open_ seed sound few
    exact ⟨_, congrArg Host.Outcome.next ((udsServe_of_serving 0x27 base up free).trans (congrArg (udsAnswered 0x27)
      ((udsKey_of_unsigned programming open_ seed sound).trans (wrongKey_of_few few)))), rfl, rfl, rfl, rfl,
      udsAnswered_frame _ _ (seedUsed_frame n _ s) (by decide)⟩
  case third =>
    intro n s base up free programming open_ seed sound many
    exact ⟨_, congrArg Host.Outcome.next ((udsServe_of_serving 0x27 base up free).trans (congrArg (udsAnswered 0x27)
      ((udsKey_of_unsigned programming open_ seed sound).trans (wrongKey_of_third many)))), rfl, rfl, rfl,
      udsAnswered_frame _ _ (seedUsed_frame n _ s) (by decide)⟩

end Sys2Proof.Machine
end

section
/-! PROOF. Download, routines and the transport over CAN0: what UPD does over Gyvin, under security access (R443, R446, R447, R450). -/

namespace Sys2Proof.Machine

variable {s : State}

/-! ### Services under security access -/

theorem needS_of_locked (locked : s.uds.unlocked = false) (y : State × UdsAnswer) : needS s y = (s, .neg 0x33) :=
  if_neg (by rw [locked, Bool.and_false]; exact Bool.false_ne_true)

/-- The transfer's block counter and block index (R447). -/
def blocksAt (counter : Byte) (block : Nat) (s : State) : State := s.modUds (fun u => { u with counter := counter, block := block })

/-- The target opened for a download. -/
def targetOpened (target total : Nat) (s : State) : State :=
  { s with upd := { s.upd with open_ := some { target := target, second := s.stagingCopy target, total := total, bytes := [] } } }

/-- The open target with a block written into it. -/
def targetFilled (x : UpdTarget) (offset : Nat) (data : List Byte) (s : State) : State :=
  { s with upd := { s.upd with open_ := some { x with bytes := memWrite x.bytes offset data } } }

/-- The open target handed to its verification (R443). -/
def exitStarted (x : UpdTarget) (s : State) : State :=
  { s with upd := { s.upd with open_ := none, verifying := some { target := x, requester := none } } }

section
variable (programming : s.uds.programming = true) (unlocked : s.uds.unlocked = true)
include programming unlocked

theorem udsDownload_of_ready {target total : U32} (begins : beginStat s target.toNat total.toNat = none) (shut : s.upd.open_ = none)
    (quiet : s.upd.verifying = none) (isClass : target.toNat ≤ 5) :
    udsDownload 0 0x44 target total s = (blocksAt 1 0 (targetOpened target.toNat total.toNat s), .pos [0x20, 0x0F, 0xB2]) := by
  unfold udsDownload
  rw [needS_of_open programming unlocked, if_neg (by decide), begins]
  dsimp only
  rw [updOpen_of_class (Nat.lt_succ_of_le isClass) shut quiet]
  rfl

section
variable {x : UpdTarget} (opened : s.upd.open_ = some x)
include opened

theorem udsTransfer_of_next {data : List Byte} (block : blockOk data = true) (fits : 4016 * s.uds.block + data.length ≤ x.total) :
    udsTransfer s.uds.counter data s = (blocksAt (s.uds.counter + 1) (s.uds.block + 1) (targetFilled x (4016 * s.uds.block) data s),
      .pos [s.uds.counter]) := by
  unfold udsTransfer
  rw [needS_of_open programming unlocked, if_neg (by rw [opened]; exact Bool.false_ne_true), if_neg (fun no => no rfl),
    if_neg (by rw [block]; exact Bool.false_ne_true), updFill_of_fits opened fits]
  rfl

theorem udsTransfer_of_wrong {counter : Byte} {data : List Byte} (wrong : counter ≠ s.uds.counter) :
    udsTransfer counter data s = (s, .neg 0x73) := by
  unfold udsTransfer
  rw [needS_of_open programming unlocked, if_neg (by rw [opened]; exact Bool.false_ne_true), if_pos wrong]

theorem udsExit_of_open : udsExit s = (exitStarted x s, .neg 0x78) := by
  unfold udsExit
  rw [needS_of_open programming unlocked, if_neg (by rw [opened]; exact Bool.false_ne_true), updStartVerify_of_open opened]
  rfl

end

theorem udsRoutine_of_abort {g : Option UdsGyvin} (quiet : s.upd.verifying = none) :
    udsRoutine 1 0xFD03 g s = (abortStaged s, .pos [1, 0xFD, 0x03]) := by
  unfold udsRoutine
  dsimp only
  rw [if_neg (fun no => no rfl), needS_of_open programming unlocked, updAbortBody_of_quiet quiet]
  rfl

theorem udsRoutine_of_commit {g : Option UdsGyvin} {u : State} {data : List Byte} (commits : commitBody false s = (u, .ok data)) :
    udsRoutine 1 0xFD01 g s = (u, .pos ([1, 0xFD, 0x01] ++ data)) := by
  unfold udsRoutine
  dsimp only
  rw [if_neg (fun no => no rfl), needS_of_open programming unlocked, commits]
  rfl

theorem udsRoutine_of_gyvin {g : UdsGyvin} {u : State} {status : U16} {data : List Byte} (does : udsGyvin g s = (u, ⟨status, data⟩)) :
    udsRoutine 1 0xFD02 (some g) s = (u, .pos ([1, 0xFD, 0x02] ++ (le16 status ++ data))) := by
  unfold udsRoutine
  dsimp only
  rw [if_neg (fun no => no rfl), needS_of_open programming unlocked, does]
  rfl

end

theorem udsRoutine_of_locked {id : U16} {g : Option UdsGyvin} (locked : s.uds.unlocked = false) : udsRoutine 1 id g s = (s, .neg 0x33) := by
  unfold udsRoutine
  dsimp only
  rw [if_neg (fun no => no rfl), needS_of_locked locked]

theorem udsDownload_of_locked {format len : Byte} {target total : U32} (locked : s.uds.unlocked = false) :
    udsDownload format len target total s = (s, .neg 0x33) := needS_of_locked locked _

theorem blocksAt_frame (counter : Byte) (block : Nat) {u : State} (h : Frame [.upd] s u) : Frame [.uds, .upd] s (blocksAt counter block u) :=
  .via (State.modUds_frame ..) (by decide) (h.mono (by decide))

/-! ### The commit routine -/

theorem bankCommitted_upd (s : State) :
    (bankCommitted s).upd = { s.upd with bankReady := none, committed := s.upd.committed || s.basecamp } := rfl

theorem udsAnswered_upd (sid : Byte) (u : State) (a : UdsAnswer) : (udsAnswered sid (u, a)).upd = u.upd := rfl

theorem commitNow_committed (base : s.basecamp = true) : (commitNow s).upd.committed = true := by
  have sys : (allClasses.foldl promote s).sys = s.sys :=
    foldl_kept (fun s : State => s.sys) (fun s c _ => (promote_frame s c).same .sys (by decide)) s
  rw [commitNow_eq, bankCommitted_upd, State.basecamp_of_sys sys, base, Bool.or_true]

theorem commitNow_bankReady (s : State) : (commitNow s).upd.bankReady = none := by
  rw [commitNow_eq, bankCommitted_upd]

/-! ### The transport -/

section
variable {u : TpState} {functional : Bool} {b : Byte} {r : List Byte}

theorem TpState.step_of_single (low : 1 ≤ b.toNat) (high : b.toNat ≤ 7) (whole : b.toNat ≤ r.length) :
    u.step functional b r = u.whole functional (r.take b.toNat) := by
  have kind : b.toNat / 16 = 0 := by omega
  have len : b.toNat % 16 = b.toNat := by omega
  simp only [TpState.step, kind, len, Nat.lt_of_succ_le low, high, whole, decide_true, Bool.and_self, if_true]

/-- Flow control of the tester with BS 0 releases every frame that waits. -/
theorem TpState.step_of_goOn : u.step functional 0x30 (0 :: r) = { u with sent := u.held, held := [] } := by
  show { u with sent := u.held.take u.held.length, held := u.held.drop u.held.length } = _
  rw [List.take_length, List.drop_length]

end

theorem TpState.say_of_single (u : TpState) {b : List Byte} (some_ : b ≠ []) (short : b.length ≤ 7) :
    u.say b = { u with sent := [tpFrame u.fd (byteOf b.length :: b)], held := [] } := by
  have full : b.length ≠ 0 := fun zero => some_ (List.length_eq_zero_iff.mp zero)
  simp only [TpState.say, tpFrames, full, short, if_false, if_true, List.take_succ_cons, List.take_zero, List.drop_succ_cons, List.drop_nil]

theorem tpFrame_id (fd : Bool) (data : List Byte) : (tpFrame fd data).id.extractLsb' 18 11 = 0x7C8 :=
  show (0x1F200000 : BitVec 29).extractLsb' 18 11 = 0x7C8 by decide

theorem tpFrame_data (fd : Bool) (data : List Byte) : (tpFrame fd data).data.take data.length = data := List.take_left' rfl

theorem UdsState.canTake_of_request {u : UdsState} {g : CanFrame} {b : Byte} {r : List Byte} (std : g.ide = false) (noRemote : g.rtr = false)
    (classic : g.fmt = 0) (id : g.id.extractLsb' 18 11 = 0x7C0 ∨ g.id.extractLsb' 18 11 = 0x7CF) (data : g.data = b :: r) :
    u.canTake g = { u with tp := { u.tp with fd := false }.step (decide (g.id.extractLsb' 18 11 = 0x7CF)) b r } := by
  have known : (decide ((g.id.extractLsb' 18 11).toNat ≠ 0x7C0) && decide ((g.id.extractLsb' 18 11).toNat ≠ 0x7CF)) = false := by
    obtain own | func := id
    · rw [own]
      rfl
    · rw [func]
      rfl
  have functional : decide ((g.id.extractLsb' 18 11).toNat = 0x7CF) = decide (g.id.extractLsb' 18 11 = 0x7CF) :=
    decide_eq_decide.mpr ⟨fun same => BitVec.eq_of_toNat_eq same, fun same => congrArg BitVec.toNat same⟩
  unfold UdsState.canTake
  dsimp only
  rw [std, noRemote, known, classic, if_neg (by exact Bool.false_ne_true), data]
  dsimp only
  rw [functional]
  rfl

/-- A frame of the tester counted on CAN0 before the ROM takes it. -/
def romCounted (g : CanFrame) (n : CanCounters) (s : State) : State :=
  (canCount 0 n s).modCan 0 (fun x => { x with stats := { x.stats with
    received := x.stats.received + 1, bytesReceived := x.stats.bytesReceived + g.data.length } })

theorem romCounted_frame (g : CanFrame) (n : CanCounters) (s : State) : Frame [.mbx, .log, .vz, .net] s (romCounted g n s) :=
  .via (State.modCan_frame ..) (by decide) (canCount_frame ..)

theorem canReceive_of_rom {g : CanFrame} {sof : U64} {n : CanCounters} (base : s.sys.mode = .basecamp) (bus : (s.canCh 0).mode.onBus = true)
    (power : s.powered (pdCan 0) = true) (good : n.err = 0) :
    canReceive 0 g sof n s = { romCounted g n s with uds := s.uds.canTake g } := by
  have counted : (romCounted g n s).sys.mode = .basecamp := by rw [(romCounted_frame g n s).same .sys (by decide), base]
  have uds : (romCounted g n s).uds = s.uds := (romCounted_frame g n s).same .uds (by decide)
  rw [← uds]
  unfold canReceive
  rw [bus, power, if_neg (by decide), good]
  exact (if_neg (fun no => no rfl)).trans (if_pos counted)

/-- Settles O35: each service is one UPD body under security access, and a frame of the tester moves the transport alone. The layout of the
frames is ISO 15765-2 (log entry 143); the bytes of an answer, the commit routine's answer and the status of an unknown code are the model's
reading (log entries 108, 109 and 34). -/
theorem udsDownloadsAct : Obligations.UdsDownloadsAct := by
  refine ⟨?download, ?locked, ?transfer, ?wrong, ?exit, ?abort, ?commit, ?ping, ?unknown, ?routineLocked, ?request, ?flow, ?say⟩
  case download =>
    intro target total s base up free programming unlocked begins shut quiet isClass
    exact ⟨_, congrArg Host.Outcome.next ((udsServe_of_serving 0x34 base up free).trans (congrArg (udsAnswered 0x34)
      (udsDownload_of_ready programming unlocked begins shut quiet isClass))), rfl, rfl, rfl, rfl,
      udsAnswered_frame _ _ (blocksAt_frame _ _ (.set_upd (.refl ..) (by decide))) (by decide)⟩
  case locked =>
    intro target total s base up free locked
    exact ⟨_, congrArg Host.Outcome.next ((udsServe_of_serving 0x34 base up free).trans (congrArg (udsAnswered 0x34)
      (udsDownload_of_locked locked))), rfl, udsAnswered_frame _ _ (.refl ..) (by decide)⟩
  case transfer =>
    intro counter data x s base up free programming unlocked opened same block fits
    subst same
    exact ⟨_, congrArg Host.Outcome.next ((udsServe_of_serving 0x36 base up free).trans (congrArg (udsAnswered 0x36)
      (udsTransfer_of_next programming unlocked opened block fits))), rfl, rfl, rfl, rfl,
      udsAnswered_frame _ _ (blocksAt_frame _ _ (.set_upd (.refl ..) (by decide))) (by decide)⟩
  case wrong =>
    intro counter data x s base up free programming unlocked opened wrong
    exact ⟨_, congrArg Host.Outcome.next ((udsServe_of_serving 0x36 base up free).trans (congrArg (udsAnswered 0x36)
      (udsTransfer_of_wrong programming unlocked opened wrong))), rfl, rfl, udsAnswered_frame _ _ (.refl ..) (by decide)⟩
  case exit =>
    intro x s base up free programming unlocked opened
    exact ⟨_, congrArg Host.Outcome.next ((udsServe_of_serving 0x37 base up free).trans (congrArg (udsAnswered 0x37)
      (udsExit_of_open programming unlocked opened))), rfl, rfl, rfl,
      udsAnswered_frame _ _ (.set_upd (.refl ..) (by decide)) (by decide)⟩
  case abort =>
    intro s base up free programming unlocked quiet
    refine ⟨_, congrArg Host.Outcome.next ((udsServe_of_serving 0x31 base up free).trans (congrArg (udsAnswered 0x31)
      (udsRoutine_of_abort programming unlocked quiet))), rfl, rfl, fun c b staged => ?_,
      udsAnswered_frame _ _ ((abortStaged_frame s).mono (by decide)) (by decide)⟩
    exact (abortStaged_copy s c b).trans (if_pos staged)
  case commit =>
    intro s base up free programming unlocked shut quiet some_ tested
    have upd : ∀ data a, (udsAnswered 0x31 (raiseUpd evt_updCommitted noInst data (commitNow s), a)).upd = (commitNow s).upd :=
      fun data a => (udsAnswered_upd ..).trans (raiseUpd_upd ..)
    refine ⟨_, congrArg Host.Outcome.next ((udsServe_of_serving 0x31 base up free).trans (congrArg (udsAnswered 0x31)
      (udsRoutine_of_commit programming unlocked (commitBody_of_tested shut quiet some_ tested)))), ?_, ?_, ?_, fun c b verified => ?_, ?_⟩
    · rfl
    · rw [upd, commitNow_committed base]
    · rw [upd, commitNow_bankReady]
    · rw [State.copy_eq_of_upd (upd ..), commitNow_promotes (List.mem_range.mpr c.isLt) verified]
    · exact udsAnswered_frame _ _ (.via (raise_frame ..) (by decide) ((commitNow_frame s).mono (by decide))) (by decide)
  case ping =>
    intro payload s base up free programming unlocked
    exact ⟨_, congrArg Host.Outcome.next ((udsServe_of_serving 0x31 base up free).trans (congrArg (udsAnswered 0x31)
      (udsRoutine_of_gyvin (g := .ping payload) (u := s) (status := stat_ok) (data := payload) programming unlocked rfl))), rfl, udsAnswered_frame _ _ (.refl ..) (by decide)⟩
  case unknown =>
    intro code s base up free programming unlocked
    exact ⟨_, congrArg Host.Outcome.next ((udsServe_of_serving 0x31 base up free).trans (congrArg (udsAnswered 0x31)
      (udsRoutine_of_gyvin (g := .other code) (u := s) (status := stat_unknownCmd) (data := []) programming unlocked rfl))), rfl, udsAnswered_frame _ _ (.refl ..) (by decide)⟩
  case routineLocked =>
    intro id g s base up free locked
    exact ⟨_, congrArg Host.Outcome.next ((udsServe_of_serving 0x31 base up free).trans (congrArg (udsAnswered 0x31)
      (udsRoutine_of_locked locked))), rfl, udsAnswered_frame _ _ (.refl ..) (by decide)⟩
  case request =>
    intro g b r sof n s base bus power good std noRemote classic id data low high whole
    refine ⟨_, congrArg Host.Outcome.next (canReceive_of_rom base bus power good), ?_,
      .set_uds ((romCounted_frame g n s).mono (by decide)) (by decide)⟩
    refine (UdsState.canTake_of_request std noRemote classic id data).trans ?_
    rw [TpState.step_of_single low high whole]
    rfl
  case flow =>
    intro g r sof n s base bus power good std noRemote classic id data
    refine ⟨_, congrArg Host.Outcome.next (canReceive_of_rom base bus power good), ?_,
      .set_uds ((romCounted_frame g n s).mono (by decide)) (by decide)⟩
    refine (UdsState.canTake_of_request std noRemote classic (.inl id) data).trans ?_
    rw [TpState.step_of_goOn]
  case say =>
    intro u b some_ short
    rw [TpState.say_of_single u some_ short]
    exact ⟨_, rfl, rfl, tpFrame_id .., rfl, rfl, rfl, tpFrame_data u.fd (byteOf b.length :: b)⟩

end Sys2Proof.Machine
end

section
/-! PROOF. The rope team: no rule cycle begins or ends a Bivouac entry, a role follows what the partner shows, and the tests and reports of
the team (R456 to R468, Tables 16.3 to 16.9). -/

namespace Sys2Proof.Machine

variable {s : State}

/-! ### What a cycle of the rules leaves of the Bivouac phase -/

/-- No Bivouac entry is in progress. -/
def State.awake (s : State) : Prop := s.sys.bivouac = .none

theorem State.awake_of_sys {t : State} (same : t.sys = s.sys) (awake : s.awake) : t.awake := (congrArg SysState.bivouac same).trans awake

theorem setMode_awake (new : Mode) (trigger : Nat) (awake : s.awake) : (setMode new trigger s).awake := by
  have start : ∀ u : State, u.awake → (updDiscardOpen (closeSession u)).awake := fun u h =>
    State.awake_of_sys (((updDiscardOpen_frame _).same .sys (by decide)).trans (closeSession_sys u)) h
  have still : ∀ u : State, u.awake → ¬ (decide (u.sys.bivouac ≠ .none) && decide (new ≠ .bivouac)) = true := fun u h => by
    rw [show u.sys.bivouac = .none from h]
    exact Bool.false_ne_true
  have aborted : (abortTests s).awake := State.awake_of_sys (abortTests_sys s) awake
  unfold setMode State.awake
  dsimp only
  rw [raise_sys]
  split
  · rw [if_neg (still _ aborted)]
    exact start _ aborted
  · rw [if_neg (still _ awake)]
    exact start _ awake

theorem limpEntry_awake (trigger : Nat) (awake : s.awake) : (limpEntry trigger s).awake := by
  have released : (twinRelease (setMode .limp trigger s)).awake :=
    State.awake_of_sys ((twinRelease_frame _).same .sys (by decide)) (setMode_awake .limp trigger awake)
  unfold limpEntry
  exact State.awake_of_sys ((pushAll_frame _).same .sys (by decide)) (State.awake_of_sys ((applyHeld_frame _).same .sys (by decide)) released)

theorem selfArrest_awake (source : Nat) (detail : List Byte) (awake : s.awake) : (selfArrest source detail s).awake := by
  have outputs : (arrestOutputs source detail s).awake := State.awake_of_sys (arrestOutputs_sys ..) awake
  unfold selfArrest
  split
  · exact awake
  · split
    · exact State.awake_of_sys (raise_sys ..) awake
    · unfold firstArrest
      dsimp only
      split
      · exact limpEntry_awake _ outputs
      · exact outputs

theorem afterFire_awake (n : Nat) (awake : s.awake) : (afterFire n s).awake := by
  have fired : (firedEvent n s).awake := State.awake_of_sys ((firedEvent_frame n s).same .sys (by decide)) awake
  unfold afterFire
  dsimp only
  split
  · exact selfArrest_awake _ _ fired
  · exact fired

theorem foldl_awake {α : Type} {f : State → α → State} (keeps : ∀ s x, State.awake s → (f s x).awake) (l : List α) (awake : s.awake) :
    (l.foldl f s).awake := by
  induction l generalizing s with
  | nil => exact awake
  | cons x r ih => exact ih (keeps s x awake)

theorem evalCycle_awake (awake : s.awake) : (evalCycle s).awake := by
  unfold evalCycle
  dsimp only
  refine foldl_awake (fun t f h => ?fired) _ (foldl_awake (fun t f h => ?blocked) _ ?merged)
  case fired =>
    split
    · exact afterFire_awake _ h
    · exact h
  case blocked =>
    split
    · exact State.awake_of_sys (raise_sys ..) h
    · exact h
  case merged => exact State.awake_of_sys ((applyMerge_frame _).same .sys (by decide)) awake

theorem evalRules_awake (awake : s.awake) : (evalRules s).awake := by
  unfold evalRules
  split
  · exact evalCycle_awake awake
  · exact awake

theorem partnerIs_awake (p : Option BelayCode) (awake : s.awake) : (partnerIs p s).awake := by
  unfold partnerIs
  refine State.awake_of_sys ((twinCheck_frame _).same .sys (by decide)) (evalRules_awake ?_)
  exact State.awake_of_sys ((reGate_frame _).same .sys (by decide)) awake

/-! ### Belay frames -/

theorem belaySend_of_role (on_ : s.twinOn = true) (serves : s.sys.mode ≠ .basecamp) (quiet : s.twin.testing = false) :
    belaySend s = s.modTwin (fun t => { t with line := some t.role.belay, framesSent := satInc 0xFFFF t.framesSent }) := by
  have other : s.basecamp = false := decide_eq_false serves
  simp only [belaySend, State.belayCode, other, on_, quiet, Bool.false_and, Bool.not_true, Bool.false_eq_true, if_false]
  rfl

theorem belaySend_of_basecamp (base : s.basecamp = true) (up : s.mgrUp = true) :
    belaySend s = s.modTwin (fun t => { t with line := some .release, framesSent := satInc 0xFFFF t.framesSent }) := by
  simp only [belaySend, State.belayCode, base, up, Bool.and_self, if_true]

theorem belaySend_of_off (other : s.basecamp = false) (off : s.twinOn = false) : belaySend s = s := by
  simp only [belaySend, State.belayCode, other, off, Bool.false_and, Bool.not_false, Bool.false_eq_true, if_false, if_true]

/-! ### What the partner shows -/

theorem reGate_dies (s : State) : (reGate s).ch.dies = s.ch.dies :=
  foldl_kept (fun s : State => s.ch.dies) (fun s e _ => by
    dsimp only
    split
    · exact applyOut_dies ..
    · exact gateHeld_dies ..) s

theorem twinCheck_of_disabled (off : s.cfg.image.twin.en = false) : twinCheck s = s := by
  simp only [twinCheck, off, Bool.not_false, Bool.true_or, if_true]

/-- The partner as it is shown from now on, the gates set by it, while no rule runs. -/
def partnerSeen (p : Option BelayCode) (s : State) : State := reGate (s.modTwin (fun t => { t with partner := p }))

theorem partnerSeen_frame (p : Option BelayCode) (s : State) : Frame [.twin, .ch] s (partnerSeen p s) :=
  .via (reGate_frame ..) (by decide) ((State.modTwin_frame ..).mono (by decide))

theorem partnerSeen_twin (p : Option BelayCode) (s : State) : (partnerSeen p s).twin = { s.twin with partner := p } :=
  (reGate_frame _).same .twin (by decide)

theorem partnerIs_of_disabled (p : Option BelayCode) (off : s.rfx.enabled = false) : partnerIs p s = twinCheck (partnerSeen p s) := by
  have seen : (partnerSeen p s).rfx.enabled = false := (congrArg RfxState.enabled ((partnerSeen_frame p s).same .rfx (by decide))).trans off
  rw [← evalRules_of_disabled seen]
  rfl

theorem State.mgrUp_of_sys {t : State} (same : t.sys = s.sys) : t.mgrUp = s.mgrUp := by
  rw [State.mgrUp, State.mgrUp, same]

theorem partnerSeen_up (p : Option BelayCode) (up : s.mgrUp = true) : (partnerSeen p s).mgrUp = true :=
  (State.mgrUp_of_sys ((partnerSeen_frame p s).same .sys (by decide))).trans up

theorem partnerSeen_cfg (p : Option BelayCode) (s : State) : (partnerSeen p s).cfg = s.cfg := (partnerSeen_frame p s).same .cfg (by decide)

theorem belayDecoded_of_awake (code : BelayCode) (awake : s.awake) :
    belayDecoded code s = partnerIs (some code.shown) (s.modTwin (fun x => x.decoded code s.now)) := by
  have still := partnerIs_awake (some code.shown) (s := s.modTwin (fun x => x.decoded code s.now)) awake
  unfold belayDecoded
  dsimp only
  rw [if_neg (by rw [show _ = BivouacPhase.none from still]; exact Bool.false_ne_true)]

theorem belayDecoded_of_disabled (code : BelayCode) (alone : s.cfg.image.twin.en = false) (off : s.rfx.enabled = false) :
    belayDecoded code s = partnerSeen (some code.shown) (s.modTwin (fun x => x.decoded code s.now)) := by
  have seen : partnerIs (some code.shown) (s.modTwin (fun x => x.decoded code s.now)) =
      partnerSeen (some code.shown) (s.modTwin (fun x => x.decoded code s.now)) := by
    rw [partnerIs_of_disabled (s := s.modTwin (fun x => x.decoded code s.now)) _ off, twinCheck_of_disabled (by rw [partnerSeen_cfg]; exact alone)]
  unfold belayDecoded
  dsimp only
  rw [seen, if_neg (by rw [State.twinSec, partnerSeen_cfg, State.modTwin_cfg, alone, Bool.and_false]; exact Bool.false_ne_true)]

/-- The partner's frames no longer come. -/
def partnerGone (s : State) : State := s.modTwin (fun t => { t with validFrom := none, partner := none })

/-- The loss noted by its event while the team runs. -/
def lossNoted (s : State) : State :=
  if s.twin.partner.isSome && (partnerGone s).twinOn then raiseTwin evt_twinPartnerLost noInst [] (partnerGone s) else partnerGone s

theorem partnerLost_eq (s : State) : partnerLost s = partnerIs none (lossNoted s) := rfl

theorem lossNoted_frame (s : State) : Frame [.mbx, .log, .vz] (partnerGone s) (lossNoted s) := by
  unfold lossNoted
  split
  · exact raise_frame ..
  · exact .refl ..

theorem lossNoted_of_alone (alone : s.cfg.image.twin.en = false) : lossNoted s = partnerGone s := by
  have off : (partnerGone s).twinOn = false := by
    rw [State.twinOn, State.twinSec, partnerGone, State.modTwin_cfg, alone]
    rfl
  rw [lossNoted, off, Bool.and_false, if_neg Bool.false_ne_true]

/-! ### Roles -/

/-- The team's state under another role (R461). -/
def TwinState.withRole (r : TwinRole) (t : TwinState) : TwinState :=
  { t with role := r, ownHolder := decide (r = .holder), byLoss := t.byLoss && decide (r = .holder) }

theorem setRole_twin {r : TwinRole} (other : s.twin.role ≠ r) : (setRole r s).twin = s.twin.withRole r := by
  rw [setRole, if_neg other]
  exact ((urgent_frame _).same .twin (by decide)).trans (raise_twin ..)

/-- The twin list's channels under the mirrored intent (R464). -/
def mirrorTaken (s : State) : State := s.cfg.image.twin.list.zipIdx.foldl (fun s e => mirrorCmd e.2 e.1.1 e.1.2 s) s

theorem mirrorTaken_twin (s : State) : (mirrorTaken s).twin = s.twin :=
  foldl_kept (fun s : State => s.twin) (fun s e _ => (mirrorCmd_frame ..).same .twin (by decide)) s

/-- The take-over noted in the team's state (R464). -/
def takeoverNoted (release : Bool) (gap : Nat) (s : State) : State :=
  { s with twin := { s.twin with takeovers := s.twin.takeovers + 1, gapNs := BitVec.ofNat 32 gap, takeoverAt := s.now
                                 byLoss := !release, takeoverCycle := s.ring.cycle } }

theorem takeover_twin (release : Bool) (s : State) :
    (takeover release s).twin = (takeoverNoted release (s.gapNs release) (setRole .holder (mirrorTaken s))).twin := by
  unfold takeover
  dsimp only
  split
  · rw [raise_twin, raise_twin]
    rfl
  · rw [raise_twin]
    rfl

/-- The role, the count and the cause that a take-over leaves (R461, R464). -/
theorem takeover_leaves (release : Bool) (role : s.twin.role ≠ .holder) : (takeover release s).twin.role = .holder ∧
    (takeover release s).twin.ownHolder = true ∧ (takeover release s).twin.takeovers = s.twin.takeovers + 1 ∧
      (takeover release s).twin.byLoss = (!release) ∧ (takeover release s).twin.partner = s.twin.partner := by
  have held : (setRole .holder (mirrorTaken s)).twin = s.twin.withRole .holder := by
    rw [setRole_twin (by rw [mirrorTaken_twin]; exact role), mirrorTaken_twin]
  rw [takeover_twin, takeoverNoted, held]
  exact ⟨rfl, rfl, rfl, rfl, rfl⟩

section
variable (en : s.cfg.image.twin.en = true) (up : s.mgrUp = true)
include en up

theorem twinCheck_of_lost (role : s.twin.role = .standby) (run : s.sys.mode = .run) (ready : s.twin.eligible = true)
    (lost : s.twin.partner = none) (sound : s.twin.belayFault = false) : twinCheck s = takeover false s := by
  simp only [twinCheck, en, up, role, run, ready, lost, sound, Bool.not_true, Bool.or_self, ne_eq, not_true_eq_false, decide_false,
    Bool.false_eq_true, if_false]

theorem twinCheck_of_contention (role : s.twin.role = .holder) (secondary : s.cfg.image.twin.primary = false)
    (partner : s.twin.partner = some .holder) : twinCheck s = raise evt_twinContention noInst .wide [] (setRole .standby s) := by
  simp only [twinCheck, en, up, role, secondary, partner, Bool.not_true, Bool.or_self, Bool.false_eq_true, if_false, decide_true, Bool.not_false,
    Bool.and_self, if_true]

end

/-! ### Self-tests -/

theorem selfTest_of_standby {n k : Nat} {pass : Bool} (on_ : s.twinOn = true) (role : s.twin.role = .standby)
    (listed : 2 ≤ n ∨ k < s.cfg.image.twin.list.length) : selfTest n pass k s = if pass then testPassed n s else testFailed n k s := by
  have valid : (decide (n ≤ 1) && decide (s.twinSec.list.length ≤ k)) = false := by
    obtain whole | entry := listed
    · rw [decide_eq_false (by omega), Bool.false_and]
    · rw [decide_eq_false (Nat.not_le.mpr entry : ¬ s.twinSec.list.length ≤ k), Bool.and_false]
  simp only [selfTest, on_, role, valid, Bool.not_true, ne_eq, not_true_eq_false, decide_false, Bool.or_self, Bool.false_eq_true, if_false]

theorem selfTest_of_other {n k : Nat} {pass : Bool} (role : s.twin.role ≠ .standby) : selfTest n pass k s = s :=
  if_pos (by simp [role])

theorem tryReady_of_few (few : s.twin.mirrorGood < 16) : tryReady s = s := by
  have short : decide (16 ≤ s.twin.mirrorGood) = false := decide_eq_false (Nat.not_le.mpr few)
  simp only [tryReady, short, Bool.and_false, Bool.false_and, Bool.false_eq_true, if_false]

/-- The team's state after a failed test (Table 16.8). -/
def TwinState.failed (n k : Nat) (t : TwinState) : TwinState :=
  { t with testsPassed := t.testsPassed &&& ~~~ (BitVec.ofNat 4 (2 ^ n))
           excluded := if decide (n ≤ 1) then t.excluded ||| BitVec.ofNat 32 (2 ^ k) else t.excluded
           lbistFailed := t.lbistFailed || decide (n = 2), loopOwed := if n = 3 then 10 else t.loopOwed
           eligible := t.eligible && decide (n ≤ 1) }

/-- A standby whose channels are all excluded is not eligible (R463). -/
def failNoted (s : State) : State := if s.allExcluded then s.modTwin (fun t => { t with eligible := false }) else s

theorem testFailed_eq (n k : Nat) (s : State) : ∃ inst data, testFailed n k s =
    raiseTwin evt_twinSelftestFail inst data (failNoted (s.modTwin (TwinState.failed n k))) := ⟨_, _, rfl⟩

theorem failNoted_leaves (s : State) : (failNoted s).twin.testsPassed = s.twin.testsPassed ∧ (failNoted s).twin.excluded = s.twin.excluded ∧
    (failNoted s).twin.lbistFailed = s.twin.lbistFailed ∧ (s.twin.eligible = false → (failNoted s).twin.eligible = false) := by
  unfold failNoted
  split
  · exact ⟨rfl, rfl, rfl, fun _ => rfl⟩
  · exact ⟨rfl, rfl, rfl, id⟩

theorem failNoted_frame (s : State) : Frame [.twin] s (failNoted s) := .ite (State.modTwin_frame ..) (.refl ..)

theorem testFailed_leaves (n k : Nat) (s : State) : (testFailed n k s).twin.testsPassed = s.twin.testsPassed &&& ~~~ (BitVec.ofNat 4 (2 ^ n)) ∧
    (testFailed n k s).twin.excluded = (if decide (n ≤ 1) then s.twin.excluded ||| BitVec.ofNat 32 (2 ^ k) else s.twin.excluded) ∧
    (testFailed n k s).twin.lbistFailed = (s.twin.lbistFailed || decide (n = 2)) ∧ (1 < n → (testFailed n k s).twin.eligible = false) ∧
    Frame [.twin, .mbx, .log, .vz] s (testFailed n k s) := by
  obtain ⟨inst, data, eq⟩ := testFailed_eq n k s
  obtain ⟨passed, excluded, lbist, eligible⟩ := failNoted_leaves (s.modTwin (TwinState.failed n k))
  have twin : (testFailed n k s).twin = (failNoted (s.modTwin (TwinState.failed n k))).twin := by
    rw [eq]
    exact raise_twin ..
  rw [twin]
  refine ⟨passed, excluded, lbist, fun whole => eligible ?_, ?_⟩
  · show (s.twin.eligible && decide (n ≤ 1)) = false
    rw [decide_eq_false (Nat.not_le.mpr whole), Bool.and_false]
  · rw [eq]
    exact .via (raise_frame ..) (by decide) (.via (failNoted_frame _) (by decide) ((State.modTwin_frame ..).mono (by decide)))

theorem getLsbD_clearBit (m : BitVec 4) {k : Nat} (small : k < 4) : (m &&& ~~~ (BitVec.ofNat 4 (2 ^ k))).getLsbD k = false := by
  rw [BitVec.getLsbD_and, BitVec.getLsbD_not, BitVec.getLsbD_ofNat, Nat.testBit_two_pow_self, decide_eq_true small]
  exact Bool.and_false _

/-! ### Health reports and commands -/

/-- The report of the station in the team's state (R467). -/
def healthKept (h : Health) (s : State) : State :=
  s.modTwin (fun t => { t with ownHealth := some h, healthSeq := t.healthSeq + 1, framesSent := 0, framesDecoded := 0 })

theorem healthReport_of_on {vin vbk12 : Int} (on_ : s.twinOn = true) : ∃ (h : Health) (f : Nat × RingFrame), h.payload = healthBytes vin vbk12 s ∧
    h.origin = s.ring.cycle ∧ healthReport vin vbk12 s =
      if s.ring.joined then (healthKept h s).modRing (fun r => { r with dynOut := r.dynOut ++ [f] }) else healthKept h s := by
  unfold healthReport
  rw [if_neg (by rw [on_]; exact Bool.false_ne_true)]
  exact ⟨⟨_, s.ring.cycle, healthBytes vin vbk12 s⟩, (257, _), rfl, rfl, rfl⟩

theorem healthReport_of_off {vin vbk12 : Int} (off : s.twinOn = false) : healthReport vin vbk12 s = s :=
  if_pos (by rw [off]; rfl)

theorem needTwin_of_on (en : s.cfg.image.twin.en = true) (y : State × Reply) : needTwin s y = y := if_pos en

theorem needTwin_of_off (off : s.cfg.image.twin.en = false) (y : State × Reply) : needTwin s y = (s, .fail stat_twinOff) :=
  if_neg (by rw [State.twinSec, off]; exact Bool.false_ne_true)

theorem belayTestBody_of_free {r : Req} {n : Nat} (role : s.twin.role ≠ .holder) (free : s.twin.testReq = none) : belayTestBody r n s =
    (s.modTwin (fun t => { t with testing := true, testReq := some (r.port, r.tag, r.seq, n) }), { status := stat_pending, data := [] }) := by
  rw [belayTestBody, if_neg role, if_neg (by rw [free]; exact Bool.false_ne_true)]

theorem twinHealthBody_own {h : Health} (kept : s.twin.ownHealth = some h) : twinHealthBody 0 s = (s, .ok h.bytes) := by
  rw [twinHealthBody, if_pos rfl, kept]

theorem twinHealthBody_partner {h : Health} (kept : s.twin.partnerHealth = some h) : twinHealthBody 1 s = (s, .ok h.bytes) := by
  rw [twinHealthBody, if_neg (by decide), kept]

theorem twinHealthBody_none (none_ : s.twin.partnerHealth = none) : twinHealthBody 1 s = (s, .fail stat_badState) := by
  rw [twinHealthBody, if_neg (by decide), none_]

/-- Settles O36: a frame changes what the partner shows, the role follows by `twinCheck`, and a test or a report changes the team's state
alone. What a take-over does to a channel is the model's reading (log entry 110), and so are the belay tests and `HEALTH` (log entry 111). -/
theorem ropeTeamActs : Obligations.RopeTeamActs := by
  refine ⟨?send, ?sendBase, ?sendOff, fun s => ⟨_, rfl, rfl, State.modTwin_frame ..⟩, ?decoded, ?decodedAlone, ?lostAlone, ?takes, ?yields, ?gate,
    ?grace, ?noGrace, ?passed, ?failed, ?lbist, ?notStandby, ?health, ?healthOff, ?status, ?statusOff, ?own, ?partner, ?noPartner, ?test,
    ?testHolder, fun s => ⟨_, rfl, rfl, State.modTwin_frame ..⟩⟩
  case send =>
    exact fun s on_ serves quiet => ⟨_, congrArg Host.Outcome.next (belaySend_of_role on_ serves quiet), rfl, State.modTwin_frame ..⟩
  case sendBase =>
    exact fun s base up => ⟨_, congrArg Host.Outcome.next (belaySend_of_basecamp base up), rfl, State.modTwin_frame ..⟩
  case sendOff => exact fun s other off => congrArg Host.Outcome.next (belaySend_of_off other off)
  case decoded => exact fun code s awake => ⟨_, congrArg Host.Outcome.next (belayDecoded_of_awake code awake), rfl⟩
  case decodedAlone =>
    intro code s alone off
    have twin := partnerSeen_twin (some code.shown) (s.modTwin (fun x => x.decoded code s.now))
    refine ⟨_, congrArg Host.Outcome.next (belayDecoded_of_disabled code alone off), ?_, ?_,
      ((State.modTwin_frame ..).mono (by decide)).trans (partnerSeen_frame ..)⟩
    · rw [twin]
    · rw [twin]
      rfl
  case lostAlone =>
    intro s alone off
    have twin := partnerSeen_twin none (partnerGone s)
    have lost : partnerLost s = partnerSeen none (partnerGone s) := by
      rw [partnerLost_eq, lossNoted_of_alone alone, partnerIs_of_disabled (s := partnerGone s) none off,
        twinCheck_of_disabled (by rw [partnerSeen_cfg]; exact alone)]
    refine ⟨_, congrArg Host.Outcome.next lost, ?_, ?_, ((State.modTwin_frame ..).mono (by decide)).trans (partnerSeen_frame ..)⟩
    · rw [twin]
    · rw [twin]
      rfl
  case takes =>
    intro s en up run off role ready sound
    have noted := lossNoted_frame s
    have twin : (partnerSeen none (lossNoted s)).twin = { s.twin with validFrom := none, partner := none } := by
      rw [partnerSeen_twin, noted.same .twin (by decide)]
      rfl
    have sys : (partnerSeen none (lossNoted s)).sys = s.sys := ((partnerSeen_frame ..).same .sys (by decide)).trans (noted.same .sys (by decide))
    have cfg : (partnerSeen none (lossNoted s)).cfg = s.cfg := (partnerSeen_cfg ..).trans (noted.same .cfg (by decide))
    have rfx : (lossNoted s).rfx.enabled = false := (congrArg RfxState.enabled (noted.same .rfx (by decide))).trans off
    obtain ⟨held, own, count, byLoss, partner⟩ :=
      takeover_leaves (s := partnerSeen none (lossNoted s)) false (by rw [twin]; exact fun same => nomatch role.symm.trans same)
    refine ⟨_, congrArg Host.Outcome.next ((partnerLost_eq s).trans ((partnerIs_of_disabled none rfx).trans (twinCheck_of_lost (by rw [cfg]; exact en)
      (by rw [State.mgrUp_of_sys sys]; exact up) (by rw [twin]; exact role) (by rw [sys]; exact run) (by rw [twin]; exact ready) (by rw [twin])
      (by rw [twin]; exact sound)))), held, own, ?_, byLoss, ?_⟩
    · rw [count, twin]
    · rw [partner, twin]
  case yields =>
    intro s en up off role secondary awake
    have seen := partnerSeen_twin (some .holder) (s.modTwin (fun x => x.decoded .holder s.now))
    have holds : (partnerSeen (some .holder) (s.modTwin (fun x => x.decoded .holder s.now))).twin.role = .holder := by
      rw [seen]
      exact role
    have check := twinCheck_of_contention (s := partnerSeen (some .holder) (s.modTwin (fun x => x.decoded .holder s.now)))
      (by rw [partnerSeen_cfg]; exact en) (partnerSeen_up _ up) holds (by rw [partnerSeen_cfg]; exact secondary) (by rw [seen])
    have twin := setRole_twin (r := .standby) (s := partnerSeen (some .holder) (s.modTwin (fun x => x.decoded .holder s.now)))
      (fun same => nomatch holds.symm.trans same)
    refine ⟨_, congrArg Host.Outcome.next ((belayDecoded_of_awake .holder awake).trans
      ((partnerIs_of_disabled (s := s.modTwin (fun x => x.decoded .holder s.now)) _ off).trans check)), ?_⟩
    dsimp only
    rw [raise_twin, twin, seen]
    exact ⟨rfl, rfl, rfl⟩
  case gate =>
    intro die s
    refine ⟨_, rfl, ?_, .via (reGate_frame ..) (by decide) (State.modDie_frame ..)⟩
    have same := reGate_dies (s.modDie die.val (fun d => { d with gateDelay := false }))
    exact (congrArg (fun ds : Tbl Die => (ds.getD .reset die.val).gateDelay) same).trans (congrArg Die.gateDelay (State.modDie_same ..))
  case grace =>
    intro s on_ run secondary role lost unseen
    have eq : twinGrace s = setRole .holder s := if_pos (by simp [on_, run, State.twinSec, secondary, role, lost, unseen])
    have twin := setRole_twin (r := .holder) (s := s) (fun same => nomatch role.symm.trans same)
    refine ⟨_, congrArg Host.Outcome.next eq, ?_, ?_, (setRole_frame ..).mono (by decide)⟩
    · rw [twin]
      rfl
    · rw [twin]
      rfl
  case noGrace =>
    intro s other
    refine congrArg Host.Outcome.next (if_neg ?_)
    obtain role | seen := other
    · simp [role]
    · simp [seen]
  case passed =>
    intro test entry s on_ role listed few
    have eq : selfTest test.val true entry.val s = s.modTwin (fun t =>
        { t with testsPassed := t.testsPassed ||| BitVec.ofNat 4 (2 ^ test.val), testsEver := t.testsEver ||| BitVec.ofNat 4 (2 ^ test.val)
                 loopOwed := if test.val = 3 then t.loopOwed - 1 else t.loopOwed }) :=
      (selfTest_of_standby on_ role listed).trans ((if_pos rfl).trans (tryReady_of_few few))
    exact ⟨_, congrArg Host.Outcome.next eq, rfl, rfl, rfl, State.modTwin_frame ..⟩
  case failed =>
    intro test entry s on_ role channel listed
    have eq : selfTest test.val false entry.val s = testFailed test.val entry.val s :=
      (selfTest_of_standby on_ role (.inr listed)).trans (if_neg Bool.false_ne_true)
    obtain ⟨passed, excluded, -, -, frame⟩ := testFailed_leaves test.val entry.val s
    refine ⟨_, congrArg Host.Outcome.next eq, ?_, ?_, frame⟩
    · rw [excluded, if_pos (decide_eq_true (Nat.le_of_lt_succ channel))]
    · rw [passed, getLsbD_clearBit _ test.isLt]
  case lbist =>
    intro entry s on_ role
    have eq : selfTest 2 false entry.val s = testFailed 2 entry.val s :=
      (selfTest_of_standby on_ role (.inl (Nat.le_refl 2))).trans (if_neg Bool.false_ne_true)
    obtain ⟨-, excluded, lbist, eligible, frame⟩ := testFailed_leaves 2 entry.val s
    refine ⟨_, congrArg Host.Outcome.next eq, ?_, eligible (by decide), ?_, frame⟩
    · rw [lbist]
      exact Bool.or_true _
    · rw [excluded]
      rfl
  case notStandby => exact fun test pass entry s role => congrArg Host.Outcome.next (selfTest_of_other role)
  case health =>
    intro vin vbk12 s on_
    obtain ⟨h, f, payload, origin, eq⟩ := healthReport_of_on (vin := vin) (vbk12 := vbk12) on_
    refine ⟨_, congrArg Host.Outcome.next eq, ?_⟩
    dsimp only
    split
    case isTrue joined =>
      exact ⟨⟨h, rfl, payload, origin⟩, rfl, rfl, rfl, List.length_append,
        .via (State.modRing_frame ..) (by decide) ((State.modTwin_frame ..).mono (by decide))⟩
    case isFalse apart =>
      exact ⟨⟨h, rfl, payload, origin⟩, rfl, rfl, rfl, rfl, (State.modTwin_frame ..).mono (by decide)⟩
  case healthOff => exact fun vin vbk12 s off => congrArg Host.Outcome.next (healthReport_of_off off)
  case status =>
    intro s r p q serves en
    exact answers_of_accepted q rfl (q.passes (decide_eq_true q.len) rfl rfl serves) (needTwin_of_on en _) rfl rfl
  case statusOff =>
    intro s r p q serves off
    exact answers_of_accepted q rfl (q.passes (decide_eq_true q.len) rfl rfl serves) (needTwin_of_off off _) rfl rfl
  case own =>
    intro s r p h q serves en kept
    exact answers_of_accepted q rfl (q.passes (decide_eq_true q.len) rfl rfl serves)
      ((needTwin_of_on en _).trans (twinHealthBody_own kept)) rfl rfl
  case partner =>
    intro s r p h q serves en kept
    exact answers_of_accepted q rfl (q.passes (decide_eq_true q.len) rfl rfl serves)
      ((needTwin_of_on en _).trans (twinHealthBody_partner kept)) rfl rfl
  case noPartner =>
    intro s r p q serves en none_
    exact answers_of_accepted q rfl (q.passes (decide_eq_true q.len) rfl rfl serves)
      ((needTwin_of_on en _).trans (twinHealthBody_none none_)) rfl rfl
  case test =>
    intro s r p frames q system fits workshop en role free
    exact answers_of_accepted q rfl
      (q.passes (decide_eq_true q.len) (Need.check_of_sysPriv system _) (needStat_eq_none.mpr fits) (decide_eq_true workshop))
      ((needTwin_of_on en _).trans (belayTestBody_of_free role free)) rfl ⟨rfl, rfl, rfl, State.modTwin_frame ..⟩
  case testHolder =>
    intro s r p frames q system fits workshop en role
    exact answers_of_accepted q rfl
      (q.passes (decide_eq_true q.len) (Need.check_of_sysPriv system _) (needStat_eq_none.mpr fits) (decide_eq_true workshop))
      ((needTwin_of_on en _).trans (if_pos role)) rfl rfl

end Sys2Proof.Machine
end

section
/-! PROOF. The signal exchange at a source PDU event: the event also ends the first age of the descriptors loaded since (R345, R355), which the
run of the PDU that follows cannot undo. -/

namespace Sys2Proof.Machine

/-! ### The run of a PDU leaves the marks of `SIG.LOAD` alone -/

/-- Every descriptor keeps the mark that it has been loaded and not updated since (R355). -/
structure LoadedKept (s t : State) : Prop where
  kept : ∀ i, (t.sigRun i).loaded = (s.sigRun i).loaded

section
variable {s t u : State}

theorem LoadedKept.refl (s : State) : LoadedKept s s := ⟨fun _ => rfl⟩

theorem LoadedKept.trans (first : LoadedKept s t) (then_ : LoadedKept t u) : LoadedKept s u :=
  ⟨fun i => (then_.kept i).trans (first.kept i)⟩

theorem LoadedKept.via (then_ : LoadedKept t u) (first : LoadedKept s t) : LoadedKept s u := first.trans then_

theorem LoadedKept.of_runs (same : t.sig.runs = s.sig.runs) : LoadedKept s t :=
  ⟨fun i => congrArg (fun r : Tbl SigRun => (r.getD .reset i).loaded) same⟩

theorem LoadedKept.ite {c : Prop} [Decidable c] (yes : LoadedKept s t) (no : LoadedKept s u) : LoadedKept s (if c then t else u) := by
  split
  · exact yes
  · exact no

theorem LoadedKept.of_frame {w : List Part} (frame : Frame w s t) (apart : Part.sig ∉ w) : LoadedKept s t :=
  .of_runs (congrArg SigState.runs (frame.same .sig apart))

theorem LoadedKept.modRun (s : State) (i : Nat) {f : SigRun → SigRun} (keeps : ∀ x, (f x).loaded = x.loaded) : LoadedKept s (s.modRun i f) := by
  refine ⟨fun j => ?_⟩
  obtain rfl | other := Decidable.em (j = i)
  · rw [State.modRun_same, keeps]
  · rw [State.modRun_other _ _ _ _ other]

theorem LoadedKept.foldl {α : Type} {f : State → α → State} (keeps : ∀ s x, LoadedKept s (f s x)) (l : List α) (s : State) :
    LoadedKept s (l.foldl f s) := ⟨fun i => foldl_kept (fun s : State => (s.sigRun i).loaded) (fun s x _ => (keeps s x).kept i) s⟩

end

variable (s : State)

theorem raiseSig_loaded (k : EvKind) (i owner : Nat) : LoadedKept s (raiseSig k i owner s) := .of_frame (raiseSig_frame ..) (by decide)

theorem substEvent_loaded (i owner : Nat) (begins : Bool) : LoadedKept s (substEvent i owner begins s) := by
  unfold substEvent
  dsimp only
  exact .ite (.via (raiseSig_loaded ..) (.of_runs rfl)) (.of_runs rfl)

theorem offer_loaded (i : Nat) (d : SigDesc) (v : SigVal) (sub sat : Bool) : LoadedKept s (offer i d v sub sat s).1 := by
  have taken : ∀ u : State, LoadedKept u (u.modRun i (fun y => { y with cur := some v, curSat := sat, subst := sub })) :=
    fun u => .modRun u i fun _ => rfl
  have noted : LoadedKept s (if sub = (s.sigRun i).subst then s else substEvent i d.owner sub s) := by
    split
    · exact .refl s
    · exact substEvent_loaded ..
  unfold offer
  dsimp only
  generalize (if sub = (s.sigRun i).subst then s else substEvent i d.owner sub s) = u at noted ⊢
  split
  · exact noted.trans (taken _)
  · split
    · exact noted.trans (taken _)
    · split
      · exact (noted.trans (taken _)).trans (.modRun _ i fun _ => rfl)
      · exact noted.trans (taken _)

theorem noteSat_loaded (i : Nat) (d : SigDesc) (sat : Bool) : LoadedKept s (noteSat i d sat s) := by
  unfold noteSat
  dsimp only
  split
  · exact .via (raiseSig_loaded ..) (.modRun s i fun _ => rfl)
  · exact .modRun s i fun _ => rfl

theorem sinkWrite_loaded (i w : Nat) (d : SigDesc) (v : SigVal) : LoadedKept s (sinkWrite i w d v s).1 := by
  have counted : ∀ order : SigRun → Nat, LoadedKept s ((s.modSig (fun g => { g with writes := g.writes + 1 })).modRun i
      (fun x => { x with field := (d.clip v).1, once := true, fresh := true, order := order x })) :=
    fun order => .via (.modRun _ i fun _ => rfl) (.of_runs rfl)
  unfold sinkWrite
  dsimp only
  split
  · exact .refl s
  · split
    · exact .refl s
    · split
      · exact counted _
      · exact .trans (counted fun x => if x.fresh then x.order else s.sig.writes + 1) (.of_runs rfl)

/-- What a descriptor's value does at one of its references (R342, R346). -/
def emitAt (n i : Nat) (x : SigRun) (v : SigVal) (a : State × Bool) (r : Nat) : State × Bool :=
  match a.1.sig.descs.get? r with
  | none => a
  | some t =>
    match t.kind with
    | .sink => let w := sinkWrite r i t v a.1; (w.1, a.2 || w.2)
    | .chained =>
      let c := chainedValue r t v x.subst a.1
      let o := offer r t c.1 c.2.1 c.2.2.1 (a.1.modRun r (fun y => { y with thr := c.2.2.2 }))
      (if o.2 then emit n r o.1 else o.1, a.2)
    | .signal => a

/-- A descriptor's value written (R344). -/
def emitWritten (i : Nat) (v : SigVal) (s : State) : State :=
  s.modRun i (fun y => { y with written := some v, writtenSubst := y.subst, count := y.count + 1, stamp := s.tb.count, deferred := false })

theorem emit_succ (n i : Nat) : emit (n + 1) i s =
    match s.sig.descs.get? i, (s.sigRun i).cur with
    | some d, some v =>
      if (s.sigRun i).disabled then s
      else noteSat i d (d.sinks.foldl (emitAt n i (s.sigRun i) v) (emitWritten i v s, (s.sigRun i).curSat)).2
        (d.sinks.foldl (emitAt n i (s.sigRun i) v) (emitWritten i v s, (s.sigRun i).curSat)).1
    | _, _ => s := by
  rw [emit]
  dsimp only
  cases s.sig.descs.get? i with
  | none => rfl
  | some d =>
    cases (s.sigRun i).cur with
    | none => rfl
    | some v => rfl

theorem emitAt_loaded {n : Nat} (deeper : ∀ i (s : State), LoadedKept s (emit n i s)) (i : Nat) (x : SigRun) (v : SigVal) (a : State × Bool)
    (r : Nat) :
    LoadedKept a.1 (emitAt n i x v a r).1 := by
  unfold emitAt
  split
  · exact .refl _
  · split
    · exact sinkWrite_loaded ..
    · have offered := fun (t : SigDesc) (c : SigVal × Bool × Bool × Bool) => LoadedKept.via (offer_loaded _ r t c.1 c.2.1 c.2.2.1)
        (LoadedKept.modRun a.1 r (f := fun y => { y with thr := c.2.2.2 }) fun _ => rfl)
      dsimp only
      split
      · exact .via (deeper ..) (offered ..)
      · exact offered ..
    · exact .refl _

theorem emit_loaded (n i : Nat) : LoadedKept s (emit n i s) := by
  induction n generalizing i s with
  | zero => exact .refl s
  | succ n ih =>
    have sinks : ∀ (l : List Nat) (x : SigRun) (v : SigVal) (a : State × Bool), LoadedKept a.1 (l.foldl (emitAt n i x v) a).1 :=
      fun l x v a => ⟨fun j => foldl_kept (fun a : State × Bool => (a.1.sigRun j).loaded)
        (fun a r _ => (emitAt_loaded (fun i s => ih s i) i x v a r).kept j) a⟩
    rw [emit_succ]
    split
    · split
      · exact .refl s
      · exact .via (noteSat_loaded ..) (.via (sinks _ _ _ (emitWritten i _ s, _)) (.modRun s i fun _ => rfl))
    · exact .refl s

theorem runSignal_loaded (i : Nat) (d : SigDesc) (p : PduDesc) : LoadedKept s (runSignal i d p s) := by
  unfold runSignal
  split
  · exact .refl s
  · split
    · exact .refl s
    · next v _ =>
      have offered := LoadedKept.via (offer_loaded _ i d v.1 v.2.1 v.2.2.1)
        (LoadedKept.modRun s i (f := fun y => { y with thr := v.2.2.2 }) fun _ => rfl)
      dsimp only
      split
      · exact .trans offered (emit_loaded ..)
      · exact offered

theorem sendPdu_loaded (q : Nat) : LoadedKept s (sendPdu q s) := by
  unfold sendPdu
  split
  · exact .refl s
  · dsimp only
    split
    · exact .of_runs rfl
    · refine .trans (t := s.modPdu q (fun y => { y with lastSend := some s.now, sendWaits := false })) (.of_runs rfl) ?_
      split
      · unfold sendCan
        dsimp only
        split
        · exact .of_runs rfl
        · exact .via (.of_frame (canHand_frame ..) (by decide)) (.of_runs rfl)
      · exact .of_frame (linPublish_frame ..) (by decide)
      · exact .of_runs rfl
      · exact .of_frame (sendChCmd_frame ..) (by decide)
      · exact .refl _

theorem sendWritten_loaded (q : Nat) : LoadedKept s (sendWritten q s) := by
  unfold sendWritten
  split
  · exact .refl s
  · split
    · exact sendPdu_loaded ..
    · split
      · exact .refl s
      · split
        · split
          · exact .of_runs rfl
          · exact sendPdu_loaded ..
        · exact sendPdu_loaded ..

/-- The run of a PDU's descriptors ends no first age (R338). -/
theorem runPdu_loaded (q : Nat) : LoadedKept s (runPdu q s) := by
  have sent : ∀ u : State, LoadedKept u (flushSinks u) := fun u =>
    .via (.foldl (fun s q => sendWritten_loaded s q) _ _) (.of_runs rfl)
  unfold runPdu
  split
  · exact .refl s
  · refine .via (sent _) (.foldl (fun s c => ?_) _ s)
    split
    · exact runSignal_loaded ..
    · exact .refl s

/-! ### A loaded descriptor at an update of its source -/

/-- Descriptor 0: a SIGNAL of PDU 0. -/
def loadedDesc : SigDesc :=
  { kind := .signal, bo := false, signed := false, invEn := false, invSubst := false, idxHi := 0, len := 8, bitpos := 0, pdu := 0, transform := 0
    policy := 0, ageLim := 0, argA := 0, argB := 0, subst := 0, interval := 0, owner := 255, sinks := [] }

/-- PDU 0: a source PDU of a CAN channel. -/
def loadedPdu : PduDesc := { kind := 1, owner := 255, length := 8, trig := 0, period := 0, tTo := 0, fields := [] }

/-- The exchange serves, descriptor 0 has been loaded and not updated since, and an event of its PDU waits. -/
def loadedState : State :=
  { State.reset with
    sys := { SysState.reset with mode := .run, step := 13, domains := [pdSig 0] }
    sig := { SigState.reset with
      descs := ⟨[(0, loadedDesc)]⟩, runs := ⟨[(0, { SigRun.reset with loaded := true })]⟩, pdus := ⟨[(0, loadedPdu)]⟩
      queues := ⟨[(0, [{ pdu := 0, data := [1], origin := 0 }])]⟩ } }

/-- The PDU's data taken and the first age of its descriptors ended, before they run (R345). -/
def loadedTaken : State :=
  clearLoaded 0 ((loadedState.modSig (fun g => { g with queues := g.queues.set 0 [] })).modPdu 0
    (fun x => { x with data := [1], valid := true, age := 0 }))

theorem pipeRun_loadedState : pipeRun 0 loadedState = runPdu 0 loadedTaken := rfl

theorem loadedTaken_loaded : (loadedTaken.sigRun 0).loaded = false := by decide

theorem evalRules_sig (s : State) : (evalRules s).sig = s.sig := (evalRules_frame s).same .sig (by decide)

/-- Refutes O37: its second clause says that the descriptors stand as they were when the PDU's run begins. Descriptor 0 of `loadedState` has been
loaded and not updated since, and the event of its PDU ends that first age before the run (R345, R355: `clearLoaded`), which a run of the PDU
does not undo (`runPdu_loaded`). -/
theorem not_signalEventsAct : ¬ Obligations.SignalEventsAct := by
  rintro ⟨-, runs, -⟩
  obtain ⟨u, stepped_, w, ran, -, -, -, -, -, untouched, -⟩ :=
    runs 0 { pdu := 0, data := [1], origin := 0 } [] loadedPdu loadedState rfl (by decide) rfl (by decide)
  have same : evalRules (runPdu 0 loadedTaken) = evalRules u := Host.Outcome.next.inj stepped_
  have sig : u.sig = (runPdu 0 loadedTaken).sig := by
    rw [← evalRules_sig u, ← same, evalRules_sig]
  have ended : (u.sigRun 0).loaded = false := by
    rw [State.sigRun, sig]
    exact ((runPdu_loaded loadedTaken 0).kept 0).trans loadedTaken_loaded
  have stands : (u.sigRun 0).loaded = true := by
    rw [ran, (runPdu_loaded w 0).kept 0, untouched 0]
    decide
  exact Bool.false_ne_true (ended.symm.trans stands)

end Sys2Proof.Machine
end

section
/-! PROOF. `SIG.LOAD` of signal records: the run of a loaded descriptor carries the mark that ends with the first update of its source (R355). -/

namespace Sys2Proof.Machine

/-! ### One SINK loaded over the ring -/

/-- PDU 0: an Ethernet frame whose bytes sinks write. -/
def sunkPdu : PduDesc := { kind := 4, owner := 255, length := 8, trig := 0, period := 0, tTo := 0, fields := [] }

/-- The record of a SINK of 8 bits at bit 0 of PDU 0. -/
def sinkRecord : List Byte := [2, 8] ++ zeros 30

def loadReq : Req := { port := 0, tag := 0, seq := 0, version := 1, len := 40, resvZero := true }

/-- The exchange is served in Run, PDU 0 is loaded, and a port with system privilege is open. -/
def loadingState : State :=
  { State.reset with
    sys := { SysState.reset with mode := .run }
    mbx := { State.reset.mbx with ports := ⟨[(0, Port.service)]⟩ }
    sig := { SigState.reset with pdus := ⟨[(0, sunkPdu)]⟩ } }

theorem requested_loadReq : Requested loadingState loadReq Port.service (8 + 32 * (1 : U16).toNat) := ⟨rfl, rfl, rfl, rfl⟩

/-- The descriptor that the record describes. -/
def sunkDesc : Nat × SigDesc := (0, decodeSig sinkRecord 255)

/-- The state that the load leaves (R355). -/
def sinkLoaded : State :=
  loadingState.modSig (fun g => { g with
    descs := g.descs.set 0 sunkDesc.2, runs := g.runs.set 0 { SigRun.reset with loaded := true } })

theorem sunkDesc_check : sunkDesc.2.check loadingState.sig.pdus = none := by decide

theorem sunkTable_check : tableCheck (loadingState.sig.descs.set 0 sunkDesc.2) loadingState.sig.pdus = none := by decide

theorem loadBody_loadingState : loadBody Port.service 0 0 [sinkRecord] loadingState = (sinkLoaded, .ok []) := rfl

theorem sigLoad_loadingState :
    exec (.sigLoad loadReq 0 1 0 sinkRecord) loadingState = .next (respond loadReq 0x0C01 stat_ok [] sinkLoaded) := by
  obtain ⟨u, answered, rfl⟩ := answers_of_accepted (c := .sigLoad loadReq 0 1 0 sinkRecord) (post := fun u => u = sinkLoaded)
    requested_loadReq rfl rfl loadBody_loadingState rfl rfl
  exact answered

/-- Refutes O38: its first clause says that a loaded descriptor's run is the reset one. `SIG.LOAD` leaves its mark there, by which the
descriptor has age 255 until the first update of its source (R355); `sinkLoaded` is the state after one loaded SINK. -/
theorem not_signalCommandsAct : ¬ Obligations.SignalCommandsAct := by
  rintro ⟨loads, -⟩
  obtain ⟨u, answered, -, fresh, -⟩ :=
    loads loadingState loadReq Port.service 0 1 sinkRecord [sunkDesc] requested_loadReq rfl (by decide) (by decide) (by decide) rfl rfl rfl
      (by decide) (fun d h => by rw [List.mem_singleton.mp h, sunkDesc_check]) sunkTable_check
  have same : respond loadReq 0x0C01 stat_ok [] sinkLoaded = respond loadReq 0x0C01 stat_ok [] u :=
    Host.Outcome.next.inj (sigLoad_loadingState.symm.trans answered)
  have sig : u.sig = sinkLoaded.sig := by
    rw [← respond_sig loadReq 0x0C01 stat_ok [] u, ← same, respond_sig]
  have marked : (u.sigRun 0).loaded = true := by
    rw [State.sigRun, sig]
    decide
  have reset : u.sigRun 0 = .reset := fresh sunkDesc (List.mem_singleton.mpr rfl)
  rw [reset] at marked
  exact Bool.false_ne_true marked

end Sys2Proof.Machine
end

section
/-! PROOF. The links of the ring (R229, R230, R232, R236, R240 to R244, R255 to R257): what a change of a link leaves of both ports. -/

namespace Sys2Proof.Machine

/-! ### The two ports -/

section
variable (r : RingState) (p : Nat) (f : RingPort → RingPort)

@[simp] theorem RingState.port_modPort_same : (r.modPort p f).port p = f (r.port p) := by
  unfold RingState.modPort RingState.port
  split <;> rfl

@[simp] theorem RingState.port_modPort_other : (r.modPort p f).port (otherPort p) = r.port (otherPort p) := by
  cases p with
  | zero => rfl
  | succ n => rw [otherPort, Nat.sub_eq_zero_of_le (Nat.le_add_left 1 n)]; rfl

theorem RingState.modPort_eq : r.modPort p f = if p = 0 then { r with east := f r.east } else { r with west := f r.west } := rfl

@[simp] theorem RingState.modPort_wire : (r.modPort p f).wire = r.wire := by
  rw [RingState.modPort_eq]
  split <;> rfl

@[simp] theorem RingState.modPort_cycle : (r.modPort p f).cycle = r.cycle := by
  rw [RingState.modPort_eq]
  split <;> rfl

@[simp] theorem RingState.modPort_loopBacks : (r.modPort p f).loopBacks = r.loopBacks := by
  rw [RingState.modPort_eq]
  split <;> rfl

theorem State.modLink_ring (s : State) : (s.modLink p f).ring = s.ring.modPort p f := rfl

/-- A port with `d` as its link delay. -/
def RingPort.withDelay (d : U32) (x : RingPort) : RingPort := { x with delay := d }

/-- The averages of both links discarded (R255). -/
def RingState.settled : RingState := { r with settling := 8, east := r.east.withDelay 0, west := r.west.withDelay 0 }

/-- The station has begun to loop back (R242). -/
def RingState.loopedBack : RingState := { r with loopBacks := r.loopBacks + 1, secBuf := [], newPath := true }

theorem RingState.port_settled : r.settled.port p = (r.port p).withDelay 0 := by
  unfold RingState.port
  split <;> rfl

@[simp] theorem RingState.port_loopedBack : r.loopedBack.port p = r.port p := rfl

end

@[simp] theorem settle_ring (s : State) : (settle s).ring = s.ring.settled := rfl

@[simp] theorem raiseRing_ring (k : EvKind) (inst : Nat) (data : List Byte) (s : State) : (raiseRing k inst data s).ring = s.ring :=
  raise_ring ..

@[simp] theorem loopBack_ring (p : Nat) (s : State) : (loopBack p s).ring = s.ring.loopedBack := raise_ring ..

/-! ### A link breaks (R241) -/

/-- A port whose link has broken; `down`: its PHY has lost the link. -/
def RingPort.broke (down : Bool) (x : RingPort) : RingPort :=
  { x with phy := x.phy && !down, sak := false, link := .down, verify := 0, closeAt := 0, broken := true, fails := 0, exchanged := false
           peers := [], answer := none }

/-- What the break of the link on port `p` leaves of a ring. -/
structure RingState.Broken (p : Nat) (down : Bool) (r t : RingState) : Prop where
  here : ∃ delay, t.port p = ((r.port p).broke down).withDelay delay
  there : ∃ delay, t.port (otherPort p) = (r.port (otherPort p)).withDelay delay
  loops : t.loopBacks = if (r.port p).closed && (r.port (otherPort p)).closed then r.loopBacks + 1 else r.loopBacks
  wire : t.wire = r.wire

theorem RingState.broken_modPort (r : RingState) (p : Nat) (down : Bool) (open_ : (r.port p).closed = false) :
    r.Broken p down (r.modPort p (RingPort.broke down)) where
  here := ⟨_, RingState.port_modPort_same ..⟩
  there := ⟨_, RingState.port_modPort_other ..⟩
  loops := by rw [open_]; exact RingState.modPort_loopBacks ..
  wire := RingState.modPort_wire ..

theorem RingState.broken_settled (r : RingState) (p : Nat) (down : Bool) (apart : (r.port (otherPort p)).closed = false) :
    r.Broken p down (r.modPort p (RingPort.broke down)).settled where
  here := ⟨0, by rw [RingState.port_settled, RingState.port_modPort_same]⟩
  there := ⟨0, by rw [RingState.port_settled, RingState.port_modPort_other]⟩
  loops := by rw [apart, Bool.and_false]; exact RingState.modPort_loopBacks ..
  wire := RingState.modPort_wire ..

theorem RingState.broken_loopedBack (r : RingState) (p : Nat) (down : Bool) (closed : (r.port p).closed = true)
    (both : (r.port (otherPort p)).closed = true) : r.Broken p down (r.modPort p (RingPort.broke down)).settled.loopedBack where
  here := ⟨0, by rw [RingState.port_loopedBack, RingState.port_settled, RingState.port_modPort_same]⟩
  there := ⟨0, by rw [RingState.port_loopedBack, RingState.port_settled, RingState.port_modPort_other]⟩
  loops := by
    rw [closed, both]
    exact congrArg (· + 1) (RingState.modPort_loopBacks ..)
  wire := RingState.modPort_wire ..

section
variable {s : State} {p : Nat}

theorem breakLink_of_down (down : Bool) (dead : (s.ring.port p).phy = false) (open_ : (s.ring.port p).link = .down) :
    breakLink p down s = s := by
  unfold breakLink
  exact if_pos (by rw [dead, open_]; rfl)

/-- The link on port `p` has broken, and its event is raised. -/
def linkBroken (p : Nat) (down : Bool) (s : State) : State := raiseRing evt_ringLinkDown p [] (s.modLink p (RingPort.broke down))

theorem linkBroken_ring (p : Nat) (down : Bool) (s : State) : (linkBroken p down s).ring = s.ring.modPort p (RingPort.broke down) := raiseRing_ring ..

theorem breakLink_of_standing (down : Bool) (standing : (s.ring.port p).phy = true ∨ (s.ring.port p).link ≠ .down) :
    breakLink p down s =
      (fun u => if (s.ring.port p).closed && (u.ring.port (otherPort p)).closed then loopBack p u else u)
        (if (s.ring.port p).closed then settle (linkBroken p down s) else linkBroken p down s) := by
  refine if_neg ?_
  obtain phy | link := standing
  · simp [phy]
  · simp [link]

theorem breakLink_broken (down : Bool) (standing : (s.ring.port p).phy = true ∨ (s.ring.port p).link ≠ .down) :
    s.ring.Broken p down (breakLink p down s).ring := by
  have far : ((settle (linkBroken p down s)).ring.port (otherPort p)).closed = (s.ring.port (otherPort p)).closed := by
    rw [settle_ring, linkBroken_ring, RingState.port_settled, RingState.port_modPort_other]
    rfl
  rw [breakLink_of_standing down standing]
  dsimp only
  cases was : (s.ring.port p).closed with
  | false =>
    rw [Bool.false_and, if_neg Bool.false_ne_true, if_neg Bool.false_ne_true, linkBroken_ring]
    exact s.ring.broken_modPort p down was
  | true =>
    rw [if_pos rfl, Bool.true_and, far]
    cases both : (s.ring.port (otherPort p)).closed with
    | false =>
      rw [if_neg Bool.false_ne_true, settle_ring, linkBroken_ring]
      exact s.ring.broken_settled p down both
    | true =>
      rw [if_pos rfl, loopBack_ring, settle_ring, linkBroken_ring]
      exact s.ring.broken_loopedBack p down was both

/-- The clause on a link that breaks. -/
theorem ringLinkDown_gives (port : Fin 2) (standing : (s.ring.port port.val).phy = true ∨ (s.ring.port port.val).link ≠ .down) :
    Gives (.ringLinkDown port) s (fun t => (t.ring.port port.val).link = .down ∧ (t.ring.port port.val).phy = false ∧
      (t.ring.port port.val).sak = false ∧ (t.ring.port port.val).broken = true ∧ (t.ring.port port.val).closeAt = 0 ∧
      (t.ring.port (otherPort port.val)).link = (s.ring.port (otherPort port.val)).link ∧
      t.ring.loopBacks = (if (s.ring.port port.val).closed && (s.ring.port (otherPort port.val)).closed then s.ring.loopBacks + 1
        else s.ring.loopBacks) ∧
      Frame [.mbx, .log, .vz, .ring] s t) := by
  obtain ⟨⟨_, here⟩, ⟨_, there⟩, loops, -⟩ := breakLink_broken true standing
  refine ⟨_, rfl, ?_⟩
  dsimp only
  rw [here, there]
  exact ⟨rfl, Bool.and_false _, rfl, rfl, rfl, rfl, loops, breakLink_frame ..⟩

end

/-! ### A link comes up (R244, R257) -/

section
variable {s : State}

theorem mkaFrame_live_gives (port : Fin 2) (peers : List Byte) (phy : (s.ring.port port.val).phy = true)
    (down : (s.ring.port port.val).link = .down) :
    Gives (.mkaFrame port peers true) s (fun t => (t.ring.port port.val).peers = peers ∧ (t.ring.port port.val).sak = true ∧
      (t.ring.port port.val).link = .verify ∧ Frame [.ring] s t) := by
  refine ⟨_, congrArg Host.Outcome.next (if_pos phy), ?_⟩
  have here := s.ring.port_modPort_same port.val
  exact ⟨congrArg RingPort.peers (here _), (congrArg RingPort.sak (here _)).trans (Bool.or_true _),
    (congrArg RingPort.link (here _)).trans (if_pos (by rw [down]; rfl)), State.modLink_frame ..⟩

theorem mkaFrame_dead_gives (port : Fin 2) (peers : List Byte) (phy : (s.ring.port port.val).phy = true) :
    Gives (.mkaFrame port peers false) s (fun t => t.ring = s.ring.modPort port.val (fun x => { x with peers := peers }) ∧
      Frame [.ring] s t) := by
  refine ⟨_, congrArg Host.Outcome.next (if_pos phy), ?_, State.modLink_frame ..⟩
  rw [State.modLink_ring]
  congr 1
  funext x
  simp only [Bool.or_false, Bool.false_and, Bool.false_eq_true, if_false]

theorem ringMacsecTimeout_gives (port : Fin 2) (phy : (s.ring.port port.val).phy = true) (sak : (s.ring.port port.val).sak = false) :
    Gives (.ringMacsecTimeout port) s (fun t => (t.ring.port port.val).link = .down ∧ Frame [.mbx, .log, .vz, .ring] s t) := by
  refine ⟨_, congrArg Host.Outcome.next (if_pos (by rw [phy, sak]; rfl)), ?_⟩
  dsimp only
  rw [raiseRing_ring]
  exact ⟨congrArg RingPort.link (s.ring.port_modPort_same port.val _),
    .via (raiseRing_frame ..) (by decide) ((State.modLink_frame ..).mono (by decide))⟩

theorem ringMacsecTimeout_of_sak (port : Fin 2) (sak : (s.ring.port port.val).sak = true) : exec (.ringMacsecTimeout port) s = .next s :=
  congrArg Host.Outcome.next (if_neg (by rw [sak, Bool.not_true, Bool.and_false]; exact Bool.false_ne_true))

end

/-! ### Frames at their link (R229, R230, R256) -/

/-- A frame has arrived and passed its outer checks. -/
def RingCounters.heard (c : RingCounters) : RingCounters := { c with received := c.received + 1 }

theorem linkRx_ok (p : Nat) (s : State) : linkRx p .ok s = (s.modCount p RingCounters.heard, true) := rfl

theorem ringIntact_sealFrame (f : RingFrame) (short : f.payload.length < 65536) : ringIntact (sealFrame f) = true := by
  have len : (sealFrame f).hdr.len.toNat = (sealFrame f).payload.length := Nat.mod_eq_of_lt short
  have crc : (sealFrame f).hdr.crc = ringCrc (sealFrame f) := rfl
  rw [ringIntact, decide_eq_true len, decide_eq_true crc]
  rfl

theorem measBytes_length (f : DelayMeas) : (measBytes f).length = 32 := rfl

section
variable {s : State} {p : Nat} {kind : Byte} {h : RingHeader} {f : DelayMeas}

theorem takeMeas_of_good (good : ringBad { hdr := h, payload := measBytes f } 1 = false) :
    takeMeas p kind .ok h f s = (s.modCount p RingCounters.heard, decide (f.kind = kind)) := by
  rw [takeMeas, linkRx_ok]
  dsimp only
  rw [good]
  rfl

theorem takeMeas_of_bad (bad : ringBad { hdr := h, payload := measBytes f } 1 = true) :
    takeMeas p kind .ok h f s = (discard p { hdr := h, payload := measBytes f } (s.modCount p RingCounters.heard), false) := by
  rw [takeMeas, linkRx_ok]
  dsimp only
  rw [bad]
  rfl

/-- What a `DELAY_MEAS` says of the neighbour (Table 9.7). -/
def RingPort.heardFrom (f : DelayMeas) (x : RingPort) : RingPort :=
  { x with nbr := some f.station.toNat, nbrMaster := f.master.toNat, nbrRank := f.rank.toNat % 4 }

theorem heardMeas_of_match (ok : s.ring.sectionOk = true) (sched : f.sched = s.ringSec.sched) (away : s.basecamp = false) :
    heardMeas p f s = (s.modLink p (RingPort.heardFrom f), true) := by
  have section_ : (s.modLink p (RingPort.heardFrom f)).ring.sectionOk = true := by
    rw [← ok]
    change (s.ring.modPort p _).sectionOk = _
    rw [RingState.modPort_eq]
    split <;> rfl
  refine if_pos ?_
  change ((s.basecamp || ((s.modLink p (RingPort.heardFrom f)).ring.sectionOk && decide (f.sched = s.ringSec.sched))) = true)
  rw [section_, decide_eq_true sched, away]
  rfl

theorem heardMeas_of_other (other : f.sched ≠ s.ringSec.sched) (away : s.basecamp = false) :
    heardMeas p f s = (schedMismatch p (s.modLink p (RingPort.heardFrom f)), false) := by
  refine if_neg ?_
  change ¬ ((s.basecamp || (_ && decide (f.sched = s.ringSec.sched))) = true)
  rw [decide_eq_false other, Bool.and_false, away]
  exact Bool.false_ne_true

end

/-! ### `DELAY_MEAS` on `RING_W`: the request and its answer (R232) -/

/-- What the request leaves of `RING_W` before the answer. -/
def RingPort.asked (f : DelayMeas) (x : RingPort) : RingPort :=
  { countCycle x with delay := f.lastDelay, closeAt := if x.link = .verify then f.closeAt else 0 }

/-- `RING_W` has taken a request. -/
def measAsked (f : DelayMeas) (s : State) : State :=
  ((s.modCount 1 RingCounters.heard).modLink 1 (RingPort.heardFrom f)).modLink 1 (RingPort.asked f)

/-- The answer that leaves. -/
def measAnswer (f : DelayMeas) (s : State) : DelayMeas := (measAsked f s).measOut 1 (Config.free64 s.free)

def measAnswerFrame (h : RingHeader) (f : DelayMeas) (s : State) : RingFrame :=
  (measAsked f s).frame 0 2 0xC000 0xFFFF h.wordA 0 false (measBytes (measAnswer f s))

/-- What `RING_W` holds once it has sent `m` in `g`. -/
structure RingPort.Sent (m : DelayMeas) (x y : RingPort) : Prop where
  nbr : y.nbr = x.nbr
  delay : y.delay = x.delay
  exchanged : y.exchanged = x.exchanged
  link : y.link = x.link
  verify : y.verify = x.verify
  sent : y.count.sent = x.count.sent + 1
  received : y.count.received = x.count.received
  answer : y.answer = some m

theorem sendMeas_west (seq : U32) (res : U64) (u : State) : u.ring.west.Sent (u.measOut 1 res) (sendMeas 1 seq res u).ring.west :=
  ⟨rfl, rfl, rfl, rfl, rfl, rfl, rfl, rfl⟩

theorem sendMeas_wire (seq : U32) (res : U64) (u : State) : (sendMeas 1 seq res u).ring.wire.head? =
    some (1, u.frame 0 2 0xC000 0xFFFF seq 0 false (measBytes (u.measOut 1 res))) := rfl

theorem sendMeas_east (seq : U32) (res : U64) (u : State) : (sendMeas 1 seq res u).ring.east = u.ring.east := rfl

theorem State.frame_intact (u : State) (l : Nat) (typ : Fin 16) (dst slot : U16) (a b : U32) (notReady : Bool) {payload : List Byte}
    (short : payload.length < 65536) : ringIntact (u.frame l typ dst slot a b notReady payload) = true :=
  ringIntact_sealFrame _ short

section
variable {s : State} {h : RingHeader} {f : DelayMeas}

theorem delayMeasRequest_of_good (sak : s.ring.west.sak = true) (good : ringBad { hdr := h, payload := measBytes f } 1 = false)
    (kind : f.kind = 0) (ok : s.ring.sectionOk = true) (sched : f.sched = s.ringSec.sched) (away : s.basecamp = false) :
    exec (.delayMeasRequest .ok h f) s = .next (sendMeas 1 h.wordA (Config.free64 s.free) (measAsked f s)).draw := by
  have matched : heardMeas 1 f (s.modCount 1 RingCounters.heard) = ((s.modCount 1 RingCounters.heard).modLink 1 (RingPort.heardFrom f), true) :=
    heardMeas_of_match ok sched away
  refine congrArg Host.Outcome.next ((if_neg (by rw [sak]; exact Bool.false_ne_true)).trans ?_)
  rw [takeMeas_of_good good, if_pos (by exact decide_eq_true kind), measRequest, matched]
  rfl

theorem delayMeasRequest_gives (sak : s.ring.west.sak = true) (good : ringBad { hdr := h, payload := measBytes f } 1 = false)
    (kind : f.kind = 0) (ok : s.ring.sectionOk = true) (sched : f.sched = s.ringSec.sched) (away : s.basecamp = false) :
    Gives (.delayMeasRequest .ok h f) s (fun t => t.ring.west.nbr = some f.station.toNat ∧ t.ring.west.delay = f.lastDelay ∧
      t.ring.west.exchanged = true ∧ t.ring.west.link = s.ring.west.link ∧
      t.ring.west.verify = (if s.ring.west.fails = 0 && s.ring.west.link = .verify then min 16 (s.ring.west.verify + 1)
        else s.ring.west.verify) ∧
      t.ring.west.count.sent = s.ring.west.count.sent + 1 ∧ t.ring.west.count.received = s.ring.west.count.received + 1 ∧
      (∃ a g, t.ring.west.answer = some a ∧ a.kind = 1 ∧ a.station = byteOf s.station ∧ a.sched = s.ringSec.sched ∧
        a.lastDelay = f.lastDelay ∧ t.ring.wire.head? = some (1, g) ∧ g.payload = measBytes a ∧ g.hdr.typ = 2 ∧ g.hdr.wordA = h.wordA ∧
        ringIntact g = true) ∧
      t.ring.east = s.ring.east ∧ Frame [.ring, .free] s t) := by
  obtain ⟨nbr, delay, exchanged, link, verify, sent, received, answer⟩ := sendMeas_west h.wordA (Config.free64 s.free) (measAsked f s)
  have wire := sendMeas_wire h.wordA (Config.free64 s.free) (measAsked f s)
  have east := sendMeas_east h.wordA (Config.free64 s.free) (measAsked f s)
  have frame := sendMeas_frame 1 h.wordA (Config.free64 s.free) (measAsked f s)
  refine ⟨_, delayMeasRequest_of_good sak good kind ok sched away, ?_⟩
  generalize sendMeas 1 h.wordA (Config.free64 s.free) (measAsked f s) = u at nbr delay exchanged link verify sent received answer wire east frame ⊢
  exact ⟨nbr, delay, exchanged, link, verify, sent, received,
    ⟨_, _, answer, rfl, rfl, rfl, rfl, wire, rfl, rfl, rfl, State.frame_intact _ _ _ _ _ _ _ _ (by rw [measBytes_length]; decide)⟩,
    east, .via (State.draw_frame _) (by decide) (.via frame (by decide) (.via (State.modLink_frame ..) (by decide)
      (.via (State.modLink_frame ..) (by decide) ((State.modCount_frame ..).mono (by decide)))))⟩

theorem delayMeasRequest_bad_gives (sak : s.ring.west.sak = true) (bad : ringBad { hdr := h, payload := measBytes f } 1 = true) :
    Gives (.delayMeasRequest .ok h f) s (fun t => t.ring.west.count.discarded = s.ring.west.count.discarded + 1 ∧
      t.ring.west.answer = s.ring.west.answer ∧ t.ring.west.delay = s.ring.west.delay ∧ t.ring.wire = s.ring.wire ∧ Frame [.ring] s t) := by
  refine ⟨discard 1 { hdr := h, payload := measBytes f } (s.modCount 1 RingCounters.heard), ?_, rfl, rfl, rfl, rfl,
    .via (discard_frame ..) (by decide) (State.modCount_frame ..)⟩
  refine congrArg Host.Outcome.next ((if_neg (by rw [sak]; exact Bool.false_ne_true)).trans ?_)
  rw [takeMeas_of_bad bad]
  exact if_neg Bool.false_ne_true

end

/-! ### `DELAY_MEAS` on `RING_E`: the response (R232, R236, R244) -/

section
variable {s : State} {h : RingHeader} {f : DelayMeas} {rt : U64}

/-- What a response leaves of `RING_E` in cycle `c`. -/
def RingPort.answered (f : DelayMeas) (rt : U64) (c : U32) (x : RingPort) : RingPort :=
  let y := countCycle { x with delay := BitVec.ofNat 32 ((rt.toNat - f.residence.toNat) / 2) }
  if y.verify = 16 && y.closeAt = 0 && y.link = .verify then { y with closeAt := nzCycle (c + 2) } else y

/-- `RING_E` has taken a response. -/
def measAnswered (f : DelayMeas) (rt : U64) (s : State) : State :=
  ((s.modCount 0 RingCounters.heard).modLink 0 (RingPort.heardFrom f)).modLink 0 (RingPort.answered f rt s.ring.cycle)

theorem delayMeasResponse_of_good (sak : s.ring.east.sak = true) (good : ringBad { hdr := h, payload := measBytes f } 1 = false)
    (kind : f.kind = 1) (ok : s.ring.sectionOk = true) (sched : f.sched = s.ringSec.sched) (away : s.basecamp = false) :
    exec (.delayMeasResponse .ok h f rt) s = .next (measAnswered f rt s) := by
  have matched : heardMeas 0 f (s.modCount 0 RingCounters.heard) = ((s.modCount 0 RingCounters.heard).modLink 0 (RingPort.heardFrom f), true) :=
    heardMeas_of_match ok sched away
  refine congrArg Host.Outcome.next ((if_neg (by rw [sak]; exact Bool.false_ne_true)).trans ?_)
  rw [takeMeas_of_good good, if_pos (by exact decide_eq_true kind), measResponse, matched]
  rfl

/-- The value that verification reaches is the one that decides whether the link is to close. -/
theorem RingPort.answered_closeAt (x : RingPort) (c : U32) : (x.answered f rt c).closeAt =
    if x.link = .verify && decide (x.closeAt = 0) && decide ((if x.fails = 0 then min 16 (x.verify + 1) else x.verify) = 16)
    then nzCycle (c + 2) else x.closeAt := by
  have same : (if x.fails = 0 && decide (x.link = .verify) then min 16 (x.verify + 1) else x.verify) =
      if x.link = .verify then (if x.fails = 0 then min 16 (x.verify + 1) else x.verify) else x.verify := by
    by_cases link : x.link = .verify
    · simp only [link, decide_true, Bool.and_true, decide_eq_true_eq, if_true]
    · simp only [link, decide_false, Bool.and_false, Bool.false_eq_true, if_false]
  unfold RingPort.answered countCycle
  dsimp only
  rw [same]
  by_cases link : x.link = .verify
  · simp only [link, decide_true, Bool.and_true, Bool.true_and, if_true, apply_ite RingPort.closeAt]
    rw [Bool.and_comm]
  · simp only [link, decide_false, Bool.and_false, Bool.false_and, Bool.false_eq_true, if_false]

theorem RingPort.answered_keeps (x : RingPort) (c : U32) : (x.answered f rt c).nbr = x.nbr ∧
    (x.answered f rt c).delay = BitVec.ofNat 32 ((rt.toNat - f.residence.toNat) / 2) ∧ (x.answered f rt c).exchanged = true := by
  unfold RingPort.answered
  dsimp only
  split <;> exact ⟨rfl, rfl, rfl⟩

theorem delayMeasResponse_gives (sak : s.ring.east.sak = true) (good : ringBad { hdr := h, payload := measBytes f } 1 = false)
    (kind : f.kind = 1) (ok : s.ring.sectionOk = true) (sched : f.sched = s.ringSec.sched) (away : s.basecamp = false) :
    Gives (.delayMeasResponse .ok h f rt) s (fun t => t.ring.east.nbr = some f.station.toNat ∧
      t.ring.east.delay = BitVec.ofNat 32 ((rt.toNat - f.residence.toNat) / 2) ∧ t.ring.east.exchanged = true ∧
      t.ring.east.closeAt = (if s.ring.east.link = .verify && decide (s.ring.east.closeAt = 0) &&
          decide ((if s.ring.east.fails = 0 then min 16 (s.ring.east.verify + 1) else s.ring.east.verify) = 16) then nzCycle
            (s.ring.cycle + 2) else s.ring.east.closeAt) ∧
      t.ring.west = s.ring.west ∧ Frame [.ring] s t) := by
  obtain ⟨nbr, delay, exchanged⟩ := ((s.modCount 0 RingCounters.heard).modLink 0 (RingPort.heardFrom f)).ring.east.answered_keeps
    (f := f) (rt := rt) s.ring.cycle
  exact ⟨_, delayMeasResponse_of_good sak good kind ok sched away, nbr, delay, exchanged, RingPort.answered_closeAt _ _, rfl,
    .via (State.modLink_frame ..) (by decide) (.via (State.modLink_frame ..) (by decide) (State.modCount_frame ..))⟩

/-- A port at which another schedule shows (R236). -/
def RingPort.mismatched (x : RingPort) : RingPort :=
  { x with link := if x.link = .down then .down else .verify, verify := 0, closeAt := 0 }

theorem RingPort.mismatched_open (x : RingPort) : x.mismatched.link ≠ .closed := by
  unfold RingPort.mismatched
  dsimp only
  split <;> exact LinkState.noConfusion

theorem schedMismatch_ring (p : Nat) (s : State) :
    (schedMismatch p s).ring.mismatch = true ∧ (schedMismatch p s).ring.port p = (s.ring.port p).mismatched ∧
      (schedMismatch p s).ring.cycle = s.ring.cycle := by
  have here := s.ring.port_modPort_same p RingPort.mismatched
  have cycle := s.ring.modPort_cycle p RingPort.mismatched
  unfold schedMismatch
  dsimp only
  split
  · next already => exact ⟨already, here, cycle⟩
  · rw [raiseRing_ring]
    exact ⟨rfl, here, cycle⟩

theorem delayMeasResponse_mismatch_gives (sak : s.ring.east.sak = true) (good : ringBad { hdr := h, payload := measBytes f } 1 = false)
    (kind : f.kind = 1) (away : s.basecamp = false) (other : f.sched ≠ s.ringSec.sched) :
    Gives (.delayMeasResponse .ok h f rt) s (fun t => t.ring.mismatch = true ∧ t.ring.east.verify = 0 ∧ t.ring.east.closeAt = 0 ∧
      t.ring.east.link ≠ .closed ∧ Frame [.mbx, .log, .vz, .ring] s t) := by
  obtain ⟨mismatch, east, -⟩ := schedMismatch_ring 0 ((s.modCount 0 RingCounters.heard).modLink 0 (RingPort.heardFrom f))
  have differs : heardMeas 0 f (s.modCount 0 RingCounters.heard) =
      (schedMismatch 0 ((s.modCount 0 RingCounters.heard).modLink 0 (RingPort.heardFrom f)), false) := heardMeas_of_other other away
  refine ⟨schedMismatch 0 ((s.modCount 0 RingCounters.heard).modLink 0 (RingPort.heardFrom f)), ?_, mismatch,
    congrArg RingPort.verify east, congrArg RingPort.closeAt east,
      fun closed => RingPort.mismatched_open _ ((congrArg RingPort.link east).symm.trans closed),
    .via (schedMismatch_frame ..) (by decide) (.via (State.modLink_frame ..) (by decide) ((State.modCount_frame ..).mono (by decide)))⟩
  refine congrArg Host.Outcome.next ((if_neg (by rw [sak]; exact Bool.false_ne_true)).trans ?_)
  rw [takeMeas_of_good good, if_pos (by exact decide_eq_true kind), measResponse, differs]
  exact if_pos rfl

end

/-! ### A link closes (R244) -/

/-- The port of a link that has closed. -/
def RingPort.shut (x : RingPort) : RingPort := { x with link := .closed, closeAt := 0, verify := 0, broken := false }

/-- The ring as the link on port `p` closes. -/
def RingState.shut (p : Nat) (r : RingState) : RingState := { r.modPort p RingPort.shut with newPath := true }.settled

/-- What the closing of the link on port `p` leaves of a ring. -/
structure RingState.Shut (p : Nat) (r t : RingState) : Prop where
  here : t.port p = (r.port p).shut.withDelay 0
  there : t.port (otherPort p) = (r.port (otherPort p)).withDelay 0
  settling : t.settling = 8
  east : t.east.delay = 0
  west : t.west.delay = 0

theorem RingState.shut_shut (p : Nat) (r : RingState) : r.Shut p (r.shut p) where
  here := (RingState.port_settled ..).trans (congrArg (RingPort.withDelay 0) (r.port_modPort_same p RingPort.shut))
  there := (RingState.port_settled ..).trans (congrArg (RingPort.withDelay 0) (r.port_modPort_other p RingPort.shut))
  settling := rfl
  east := rfl
  west := rfl

theorem RingState.Shut.loopedBack {p : Nat} {r t : RingState} (shut : r.Shut p t) : r.Shut p t.loopedBack :=
  ⟨shut.here, shut.there, shut.settling, shut.east, shut.west⟩

theorem yieldAtClose_port (p q : Nat) (s : State) : (yieldAtClose p s).ring.port q = s.ring.port q := by
  unfold yieldAtClose
  dsimp only
  split
  · rw [raiseRing_ring]
    rfl
  · rfl

/-- The state as the link on port `p` closes, before the station loops back. -/
def linkShut (p : Nat) (s : State) : State :=
  raiseRing evt_ringLinkUp p [] (settle (((yieldAtClose p s).modLink p RingPort.shut).modRing (fun r => { r with newPath := true })))

section
variable {s : State}

theorem linkClose_of_due (port : Fin 2) (verify : (s.ring.port port.val).link = .verify) (due : (s.ring.port port.val).closeAt ≠ 0)
    (ok : s.ring.sectionOk = true) (same : s.ring.mismatch = false) :
    exec (.linkClose port) s = .next (if ((linkShut port.val s).ring.port (otherPort port.val)).broken
      then loopBack (otherPort port.val) (linkShut port.val s) else linkShut port.val s) :=
  congrArg Host.Outcome.next (if_pos (by rw [decide_eq_true verify, decide_eq_true due, ok, same]; rfl))

theorem linkShut_frame (p : Nat) (s : State) : Frame [.mbx, .log, .vz, .ring] s (linkShut p s) :=
  .via (raiseRing_frame ..) (by decide) (.via (settle_frame _) (by decide) (.via (State.modRing_frame ..) (by decide)
    (.via (State.modLink_frame ..) (by decide) (yieldAtClose_frame ..))))

theorem linkShut_shut (p : Nat) (s : State) : (yieldAtClose p s).ring.Shut p (linkShut p s).ring := by
  rw [linkShut, raiseRing_ring]
  exact RingState.shut_shut p _

theorem linkClose_gives (port : Fin 2) (verify : (s.ring.port port.val).link = .verify) (due : (s.ring.port port.val).closeAt ≠ 0)
    (ok : s.ring.sectionOk = true) (same : s.ring.mismatch = false) :
    Gives (.linkClose port) s (fun t => (t.ring.port port.val).link = .closed ∧ (t.ring.port port.val).closeAt = 0 ∧
      (t.ring.port port.val).broken = false ∧ t.ring.settling = 8 ∧ t.ring.east.delay = 0 ∧ t.ring.west.delay = 0 ∧
      (t.ring.port (otherPort port.val)).link = (s.ring.port (otherPort port.val)).link ∧ Frame [.mbx, .log, .vz, .ring] s t) := by
  refine ⟨_, linkClose_of_due port verify due ok same, ?_⟩
  have shut : ∀ t : State, (yieldAtClose port.val s).ring.Shut port.val t.ring → Frame [.mbx, .log, .vz, .ring] s t →
      (t.ring.port port.val).link = .closed ∧ (t.ring.port port.val).closeAt = 0 ∧ (t.ring.port port.val).broken = false ∧
      t.ring.settling = 8 ∧ t.ring.east.delay = 0 ∧ t.ring.west.delay = 0 ∧
      (t.ring.port (otherPort port.val)).link = (s.ring.port (otherPort port.val)).link ∧ Frame [.mbx, .log, .vz, .ring] s t := by
    rintro t ⟨here, there, settling, east, west⟩ frame
    exact ⟨congrArg RingPort.link here, congrArg RingPort.closeAt here, congrArg RingPort.broken here, settling, east, west,
      (congrArg RingPort.link there).trans (congrArg RingPort.link (yieldAtClose_port port.val (otherPort port.val) s) :), frame⟩
  split
  · refine shut _ ?_ (.via (loopBack_frame ..) (by decide) (linkShut_frame ..))
    rw [loopBack_ring]
    exact (linkShut_shut ..).loopedBack
  · exact shut _ (linkShut_shut ..) (linkShut_frame ..)

theorem linkClose_of_other (port : Fin 2) (other : (s.ring.port port.val).link ≠ .verify) : exec (.linkClose port) s = .next s :=
  congrArg Host.Outcome.next (if_neg (by rw [decide_eq_false other]; exact Bool.false_ne_true))

end

end Sys2Proof.Machine
end

section
/-! PROOF. The reference of the ring at a station (R225, R226, R236, R241, R245, R250 to R258, R261, R262). -/

namespace Sys2Proof.Machine

/-! ### What a station is, and where a frame leaves it -/

section
variable {s t : State}

theorem State.station_of (mode : t.sys.mode = s.sys.mode) (cfg : t.cfg = s.cfg) (recorded : t.ring.recorded = s.ring.recorded) :
    t.station = s.station := by
  rw [State.station, State.station, mode, recorded, State.ringSec, State.ringSec, cfg]

theorem State.ownRank_of (mode : t.sys.mode = s.sys.mode) (cfg : t.cfg = s.cfg) (recorded : t.ring.recorded = s.ring.recorded) :
    t.ownRank = s.ownRank := by
  rw [State.ownRank, State.ownRank, State.station_of mode cfg recorded, State.ringSec, State.ringSec, cfg]

theorem RingState.port_closed_of {r q : RingState} (east : q.east.link = r.east.link) (west : q.west.link = r.west.link) (p : Nat) :
    (q.port p).closed = (r.port p).closed := by
  unfold RingState.port RingPort.closed
  split
  · rw [east]
  · rw [west]

theorem RingState.outPort_of {r q : RingState} (east : q.east.link = r.east.link) (west : q.west.link = r.west.link) (p : Nat) :
    q.outPort p = r.outPort p := by
  rw [RingState.outPort, RingState.outPort, RingState.port_closed_of east west, RingState.port_closed_of east west]

theorem RingState.outPort_of_closed {r : RingState} {p : Nat} (closed : (r.port p).closed = true) : ∃ o turned, r.outPort p = some (o, turned) := by
  by_cases far : (r.port (otherPort p)).closed = true
  · exact ⟨_, _, if_pos far⟩
  · exact ⟨_, _, (if_neg far).trans (if_pos closed)⟩

/-- A forwarded frame changes the ports and the wire alone. -/
theorem forward_ring (p : Nat) (f : RingFrame) (s : State) :
    ∃ e w l, (forward p f s).ring = { s.ring with east := e, west := w, wire := l } := by
  have put : ∀ o g, ∃ e w l, ((putWire o g s).modCount o (fun c => { c with forwarded := c.forwarded + 1 })).ring =
      { s.ring with east := e, west := w, wire := l } := by
    intro o g
    cases o with
    | zero => exact ⟨_, _, _, rfl⟩
    | succ n => exact ⟨_, _, _, rfl⟩
  unfold forward
  split
  · exact put ..
  · exact ⟨_, _, _, rfl⟩

theorem forward_wire {p o : Nat} {turned : Bool} (f : RingFrame) (out : s.ring.outPort p = some (o, turned)) :
    (forward p f s).ring.wire.head? = some (o, passed f turned) := by
  rw [forward, out]
  dsimp only
  rw [State.modCount, State.modLink_ring, RingState.modPort_wire, putWire, State.modLink_ring, RingState.modPort_wire]
  rfl

end

/-! ### A frame that its link has let pass -/

/-- A frame has arrived on the port. -/
def State.heardAt (s : State) (port : Fin 2) : State := s.modCount port.val RingCounters.heard

section
variable (s : State) (port : Fin 2)

theorem State.heardAt_frame : Frame [.ring] s (s.heardAt port) := State.modCount_frame ..

theorem State.heardAt_port (q : Nat) : ((s.heardAt port).ring.port q).closed = (s.ring.port q).closed := by
  have links : (s.heardAt port).ring.east.link = s.ring.east.link ∧ (s.heardAt port).ring.west.link = s.ring.west.link := by
    match port with | 0 | 1 => exact ⟨rfl, rfl⟩
  exact RingState.port_closed_of links.1 links.2 q

theorem State.heardAt_canJoin : (s.heardAt port).canJoin = s.canJoin := by match port with | 0 | 1 => rfl

theorem State.heardAt_waveEnds (q : Nat) : (s.heardAt port).waveEnds q = s.waveEnds q := by match port with | 0 | 1 => rfl

theorem State.heardAt_outPort (q : Nat) : (s.heardAt port).ring.outPort q = s.ring.outPort q := by
  rw [RingState.outPort, RingState.outPort, State.heardAt_port, State.heardAt_port]

theorem State.heardAt_refOut (h : RingHeader) (f : SyncRef) (delay residence : U32) :
    (s.heardAt port).refOut h f delay residence = s.refOut h f delay residence := by match port with | 0 | 1 => rfl

theorem State.heardAt_delay : ((s.heardAt port).ring.port port.val).delay = (s.ring.port port.val).delay := by match port with | 0 | 1 => rfl

theorem State.heardAt_station : (s.heardAt port).station = s.station := by match port with | 0 | 1 => rfl

theorem State.heardAt_wire : (s.heardAt port).ring.wire = s.ring.wire := by match port with | 0 | 1 => rfl

/-- What a frame's arrival leaves of the ring beside its ports. -/
theorem State.heardAt_ring : ∃ e w, (s.heardAt port).ring = { s.ring with east := e, west := w } := by
  match port with
  | 0 | 1 => exact ⟨_, _, rfl⟩

end

/-! ### A reference at its link -/

section
variable {s : State} {port : Fin 2} {h : RingHeader} {f : SyncRef} {res : U32} {l : LinkCheck}

theorem syncRefReceived_of_inactive (off : s.ring.phase ≠ .active) : exec (.syncRefReceived port l h f res) s = .next s :=
  congrArg Host.Outcome.next (if_pos off)

theorem syncRefReceived_of_ok (active : s.ring.phase = .active) :
    exec (.syncRefReceived port .ok h f res) s = .next (syncRef port.val h f res (s.heardAt port)) :=
  congrArg Host.Outcome.next (if_neg (fun off => off active))

/-- A frame has failed a check of its link. -/
def RingCounters.failed (l : LinkCheck) (c : RingCounters) : RingCounters :=
  { c with received := c.received + 1, fcs := if l = .fcsFail then c.fcs + 1 else c.fcs, icv := if l = .icvFail then c.icv + 1 else c.icv }

/-- One more failure of the port in this cycle. -/
def State.failedAt (s : State) (p : Nat) (l : LinkCheck) : State :=
  (s.modCount p (RingCounters.failed l)).modLink p (fun x => { x with fails := x.fails + 1 })

/-- The port after the failure. -/
def RingPort.failed (l : LinkCheck) (x : RingPort) : RingPort := { x with count := x.count.failed l, fails := x.fails + 1 }

theorem State.failedAt_port (p : Nat) : (s.failedAt p l).ring.port p = (s.ring.port p).failed l := by
  rw [State.failedAt, State.modLink_ring, RingState.port_modPort_same, State.modCount, State.modLink_ring, RingState.port_modPort_same]
  rfl

theorem State.failedAt_fails (p : Nat) : ((s.failedAt p l).ring.port p).fails = (s.ring.port p).fails + 1 :=
  congrArg RingPort.fails (State.failedAt_port p)

theorem State.failedAt_link (p : Nat) : ((s.failedAt p l).ring.port p).link = (s.ring.port p).link :=
  (congrArg RingPort.link (State.failedAt_port p) :)

theorem State.failedAt_wire (p : Nat) : (s.failedAt p l).ring.wire = s.ring.wire := by
  rw [State.failedAt, State.modLink_ring, RingState.modPort_wire, State.modCount, State.modLink_ring, RingState.modPort_wire]

theorem State.failedAt_cycle (p : Nat) : (s.failedAt p l).ring.cycle = s.ring.cycle := by
  rw [State.failedAt, State.modLink_ring, RingState.modPort_cycle, State.modCount, State.modLink_ring, RingState.modPort_cycle]

theorem State.failedAt_frame (p : Nat) : Frame [.ring] s (s.failedAt p l) :=
  .via (State.modLink_frame ..) (by decide) (State.modCount_frame ..)

theorem syncRefReceived_of_failed (active : s.ring.phase = .active) (failed : l ≠ .ok) :
    exec (.syncRefReceived port l h f res) s = .next (if 16 ≤ ((s.failedAt port.val l).ring.port port.val).fails
      then breakLink port.val false (s.failedAt port.val l) else s.failedAt port.val l) := by
  have rx : linkRx port.val l s = (if 16 ≤ ((s.failedAt port.val l).ring.port port.val).fails
      then breakLink port.val false (s.failedAt port.val l) else s.failedAt port.val l, false) := if_neg failed
  refine congrArg Host.Outcome.next ((if_neg (fun off => off active)).trans ?_)
  rw [rx]
  exact if_neg Bool.false_ne_true

theorem syncRefReceived_failed_gives (active : s.ring.phase = .active) (failed : l ≠ .ok) (few : (s.ring.port port.val).fails < 15) :
    Gives (.syncRefReceived port l h f res) s (fun t => (t.ring.port port.val).fails = (s.ring.port port.val).fails + 1 ∧
      (t.ring.port port.val).link = (s.ring.port port.val).link ∧ t.ring.wire = s.ring.wire ∧ t.ring.cycle = s.ring.cycle ∧
      Frame [.ring] s t) := by
  refine ⟨s.failedAt port.val l, (syncRefReceived_of_failed active failed).trans (congrArg Host.Outcome.next (if_neg ?_)),
    State.failedAt_fails _, State.failedAt_link _, State.failedAt_wire _, State.failedAt_cycle _, State.failedAt_frame _⟩
  rw [State.failedAt_fails]
  omega

theorem syncRefReceived_break_gives (active : s.ring.phase = .active) (failed : l ≠ .ok) (many : 15 ≤ (s.ring.port port.val).fails)
    (standing : (s.ring.port port.val).link ≠ .down) :
    Gives (.syncRefReceived port l h f res) s (fun t => (t.ring.port port.val).link = .down ∧ (t.ring.port port.val).broken = true ∧
      t.ring.wire = s.ring.wire ∧ Frame [.mbx, .log, .vz, .ring] s t) := by
  obtain ⟨⟨_, here⟩, -, -, wire⟩ := breakLink_broken (s := s.failedAt port.val l) false (.inr (by rw [State.failedAt_link]; exact standing))
  refine ⟨breakLink port.val false (s.failedAt port.val l), (syncRefReceived_of_failed active failed).trans (congrArg Host.Outcome.next (if_pos ?_)),
    congrArg RingPort.link here, congrArg RingPort.broken here, wire.trans (State.failedAt_wire _),
    .via (breakLink_frame ..) (by decide) ((State.failedAt_frame _).mono (by decide))⟩
  rw [State.failedAt_fails]
  omega

/-! ### A reference that its station discards, or that shows another schedule -/

theorem syncRefReceived_bad_gives (active : s.ring.phase = .active) (bad : ringBad { hdr := h, payload := syncBytes f } 0 = true) :
    Gives (.syncRefReceived port .ok h f res) s (fun t =>
      (t.ring.port port.val).count.discarded = (s.ring.port port.val).count.discarded + 1 ∧ t.ring.wire = s.ring.wire ∧
      t.ring.cycle = s.ring.cycle ∧ Frame [.ring] s t) := by
  refine ⟨discard port.val { hdr := h, payload := syncBytes f } (s.heardAt port),
    (syncRefReceived_of_ok active).trans (congrArg Host.Outcome.next (if_pos bad)), ?_, ?_, ?_, .via (discard_frame ..) (by decide)
      (s.heardAt_frame port)⟩
  · match port with | 0 | 1 => rfl
  · match port with | 0 | 1 => rfl
  · match port with | 0 | 1 => rfl

theorem State.phase_of_canJoin (join : s.canJoin = true) :
    s.ring.phase = .active ∧ s.ring.sectionOk = true ∧ s.ring.mismatch = false ∧ s.basecamp = false := by
  simpa [State.canJoin, and_assoc] using join

theorem syncRef_of_other {p : Nat} (good : ringBad { hdr := h, payload := syncBytes f } 0 = false) (closed : (s.ring.port p).closed = true)
    (away : s.basecamp = false) (other : h.wordA ≠ s.ringSec.sched) : syncRef p h f res s = schedMismatch p s := by
  rw [syncRef]
  rw [good, closed, away, decide_eq_true other, Bool.or_true]
  rfl

theorem syncRefReceived_mismatch_gives (active : s.ring.phase = .active) (good : ringBad { hdr := h, payload := syncBytes f } 0 = false)
    (closed : (s.ring.port port.val).closed = true) (away : s.basecamp = false) (other : h.wordA ≠ s.ringSec.sched) :
    Gives (.syncRefReceived port .ok h f res) s (fun t => t.ring.mismatch = true ∧ (t.ring.port port.val).link = .verify ∧
      t.ring.cycle = s.ring.cycle ∧ Frame [.mbx, .log, .vz, .ring] s t) := by
  have stays : ((s.heardAt port).ring.port port.val).closed = true := (s.heardAt_port port _).trans closed
  obtain ⟨mismatch, here, cycle⟩ := schedMismatch_ring port.val (s.heardAt port)
  have link : ((s.heardAt port).ring.port port.val).link = .closed := of_decide_eq_true stays
  refine ⟨schedMismatch port.val (s.heardAt port),
    (syncRefReceived_of_ok active).trans (congrArg Host.Outcome.next (syncRef_of_other good stays away other)), mismatch,
    (congrArg RingPort.link here).trans (if_neg (by rw [link]; exact LinkState.noConfusion)), cycle.trans ?_,
    .via (schedMismatch_frame ..) (by decide) ((s.heardAt_frame port).mono (by decide))⟩
  match port with | 0 | 1 => rfl

/-- R261: in Basecamp the station takes the cycle and the frame goes on. -/
theorem syncRefReceived_basecamp_gives (active : s.ring.phase = .active) (good : ringBad { hdr := h, payload := syncBytes f } 0 = false)
    (closed : (s.ring.port port.val).closed = true) (camp : s.basecamp = true) :
    Gives (.syncRefReceived port .ok h f res) s (fun t => t.ring.cycle = h.origin ∧ t.ring.heard = true ∧ t.ring.joined = s.ring.joined ∧
      t.mbx = s.mbx.modify 0 (fun x => { x with tRtx := (32 * f.tRc.toNat + 999) / 1000 + 5000 }) ∧ Frame [.mbx, .ring] s t) := by
  have stays : ((s.heardAt port).ring.port port.val).closed = true := (s.heardAt_port port _).trans closed
  have serves : syncRef port.val h f res (s.heardAt port) = basecampRef port.val h f res (s.heardAt port) := by
    rw [syncRef]
    have there : (s.heardAt port).basecamp = true := camp
    rw [good, stays, there]
    rfl
  refine ⟨basecampRef port.val h f res (s.heardAt port), (syncRefReceived_of_ok active).trans (congrArg Host.Outcome.next serves), ?_⟩
  have frame : Frame [.mbx, .ring] s (basecampRef port.val h f res (s.heardAt port)) :=
    .via (basecampRef_frame ..) (by decide) ((s.heardAt_frame port).mono (by decide))
  unfold basecampRef at frame ⊢
  dsimp only at frame ⊢
  generalize (s.heardAt port).refOut h f ((s.heardAt port).ring.port port.val).delay res = g at frame ⊢
  obtain ⟨e, w, l, ring⟩ := forward_ring port.val { hdr := h, payload := syncBytes g }
    (({ s.heardAt port with mbx := (s.heardAt port).mbx.modify 0 (fun x => { x with tRtx := (32 * f.tRc.toNat + 999) / 1000 + 5000 }) } : State).modRing
      (fun r => { r with last := g, heard := true, cycle := h.origin, refHere := true, rank := bits h.wordB 8 2, masterStn := bits h.wordB 0 8 }))
  obtain ⟨_, _, heard⟩ := s.heardAt_ring port
  refine ⟨(congrArg RingState.cycle ring :), (congrArg RingState.heard ring :), (congrArg RingState.joined ring).trans
    (congrArg RingState.joined heard :),
    (forward_frame ..).same .mbx (by decide), frame⟩

end

/-! ### The master (R226, R251, R258) -/

section
variable {s : State} {port : Fin 2} {h : RingHeader} {f : SyncRef} {res : U32}

theorem syncRef_of_match {p : Nat} (join : s.canJoin = true) (good : ringBad { hdr := h, payload := syncBytes f } 0 = false)
    (closed : (s.ring.port p).closed = true) (sched : h.wordA = s.ringSec.sched) : syncRef p h f res s = takeRef p h f res s := by
  obtain ⟨-, ok, -, away⟩ := State.phase_of_canJoin join
  rw [syncRef]
  rw [good, closed, away, ok, decide_eq_false (not_not_intro sched)]
  rfl

/-- A reference that its station takes. -/
theorem syncRefReceived_of_match (join : s.canJoin = true) (good : ringBad { hdr := h, payload := syncBytes f } 0 = false)
    (closed : (s.ring.port port.val).closed = true) (sched : h.wordA = s.ringSec.sched) :
    exec (.syncRefReceived port .ok h f res) s = .next (takeRef port.val h f res (s.heardAt port)) := by
  rw [syncRefReceived_of_ok (State.phase_of_canJoin join).1,
    syncRef_of_match ((s.heardAt_canJoin port).trans join) good ((s.heardAt_port port _).trans closed) sched]

theorem setSleepAt_ring (c : U32) (s : State) : (setSleepAt c s).ring = { s.ring with sleepAt := c } := by
  unfold setSleepAt
  split
  · next same => rw [← same]
  · rw [raiseRing_ring]
    rfl

theorem startHandover_ring (present : U32) (s : State) : ∃ a, (startHandover present s).ring = { s.ring with handoverAt := a } := by
  unfold startHandover
  split <;> exact ⟨_, rfl⟩

/-- The master has counted a returning reference (R258). -/
def refCounted (f : SyncRef) (s : State) : State :=
  s.modRing (fun r => { r with equalRefs := if f.consent = f.present then r.equalRefs + 1 else 0 })

theorem sleepDecision_eq (f : SyncRef) (s : State) : sleepDecision f s =
    if (refCounted f s).ring.sleepAt ≠ 0 then
      if f.present &&& ~~~ f.consent ≠ 0 then setSleepAt 0 (refCounted f s) else refCounted f s
    else if 16 ≤ (refCounted f s).ring.equalRefs then
      setSleepAt (nzCycle ((refCounted f s).ring.cycle + BitVec.ofNat 32 (refCounted f s).ringSec.nSlp)) (refCounted f s)
    else refCounted f s := rfl

theorem sleepDecision_ring (f : SyncRef) (s : State) : ∃ a, (sleepDecision f s).ring =
    { s.ring with equalRefs := if f.consent = f.present then s.ring.equalRefs + 1 else 0, sleepAt := a } := by
  have set : ∀ c, ∃ a, (setSleepAt c (refCounted f s)).ring =
      { s.ring with equalRefs := if f.consent = f.present then s.ring.equalRefs + 1 else 0, sleepAt := a } := fun c => ⟨c, setSleepAt_ring ..⟩
  rw [sleepDecision_eq]
  generalize nzCycle ((refCounted f s).ring.cycle + BitVec.ofNat 32 (refCounted f s).ringSec.nSlp) = c
  by_cases asleep : (refCounted f s).ring.sleepAt ≠ 0
  · rw [if_pos asleep]
    split
    · exact set 0
    · exact ⟨s.ring.sleepAt, rfl⟩
  · rw [if_neg asleep]
    by_cases many : 16 ≤ (refCounted f s).ring.equalRefs
    · rw [if_pos many]
      exact set c
    · rw [if_neg many]
      exact ⟨s.ring.sleepAt, rfl⟩

theorem servo_ring (v : Nat) (goal : Int) (first : Bool) (s : State) : (servo v goal first s).ring = s.ring :=
  (servo_frame ..).same .ring (by decide)

/-- What the return of its own reference leaves of the master's ring. -/
theorem ownRefBack_ring (f : SyncRef) (goal : Int) (s : State) : ∃ a b, (ownRefBack f goal s).ring =
    { s.ring with last := { f with corr := s.ring.last.corr }, heard := true
                  equalRefs := if f.consent = f.present then s.ring.equalRefs + 1 else 0, sleepAt := a, handoverAt := b } := by
  have start : ∀ u : State, u.ring = s.ring → ∃ a b, (startHandover f.present (sleepDecision f
      (u.modRing (fun r => { r with last := { f with corr := r.last.corr }, heard := true })))).ring =
      { s.ring with last := { f with corr := s.ring.last.corr }, heard := true
                    equalRefs := if f.consent = f.present then s.ring.equalRefs + 1 else 0, sleepAt := a, handoverAt := b } := by
    intro u same
    obtain ⟨b, over_⟩ := startHandover_ring f.present (sleepDecision f
      (u.modRing (fun r => { r with last := { f with corr := r.last.corr }, heard := true })))
    obtain ⟨a, asleep⟩ := sleepDecision_ring f (u.modRing (fun r => { r with last := { f with corr := r.last.corr }, heard := true }))
    exact ⟨a, b, by rw [over_, asleep, State.modRing, same]⟩
  unfold ownRefBack
  dsimp only
  split
  · exact start _ rfl
  · exact start _ (servo_ring ..)

theorem takeRef_of_own {p : Nat} (master : s.ring.master = true) (own : bits h.wordB 0 8 = s.station) (ends : s.waveEnds p = true) :
    ∃ goal, takeRef p h f res s = ownRefBack f goal s := by
  refine ⟨(f.originNs.toNat * 65536 + f.originFrac.toNat : Nat) + f.corr.toInt + ((s.ring.port p).delay.toNat : Int), ?_⟩
  rw [takeRef, if_pos master, if_neg (by rw [ends, Bool.not_true, Bool.and_false]; exact Bool.false_ne_true), if_pos own]

theorem takeRef_of_passing {p : Nat} (master : s.ring.master = true) (own : bits h.wordB 0 8 = s.station) (mid : s.waveEnds p = false) :
    takeRef p h f res s = forward p { hdr := h, payload := syncBytes (s.refOut h f (s.ring.port p).delay res) } s := by
  rw [takeRef, if_pos master, if_pos (by rw [mid, decide_eq_true own]; rfl)]

theorem takeRef_of_foreign {p : Nat} (master : s.ring.master = true) (other : bits h.wordB 0 8 ≠ s.station) :
    takeRef p h f res s = foreignRef h s := by
  rw [takeRef, if_pos master, if_neg (by rw [decide_eq_false other]; exact Bool.false_ne_true), if_neg other]

variable (join : s.canJoin = true) (good : ringBad { hdr := h, payload := syncBytes f } 0 = false)
    (closed : (s.ring.port port.val).closed = true) (sched : h.wordA = s.ringSec.sched) (master : s.ring.master = true)
include join good closed sched master

omit join good closed sched in
theorem State.heardAt_master : (s.heardAt port).ring.master = true := by
  obtain ⟨_, _, heard⟩ := s.heardAt_ring port
  exact (congrArg RingState.master heard).trans master

theorem syncRefReceived_own_gives (own : bits h.wordB 0 8 = s.station) (ends : s.waveEnds port.val = true) :
    Gives (.syncRefReceived port .ok h f res) s (fun t => t.ring.master = true ∧ t.ring.heard = true ∧ t.ring.wire = s.ring.wire ∧
      t.ring.last.path = f.path ∧ t.ring.equalRefs = (if f.consent = f.present then s.ring.equalRefs + 1 else 0) ∧
      Frame [.mbx, .log, .tb, .vz, .ring, .free] s t) := by
  obtain ⟨_, _, heard⟩ := s.heardAt_ring port
  obtain ⟨goal, taken⟩ := takeRef_of_own (res := res) (h := h) (f := f) (State.heardAt_master (port := port) master)
    (own.trans (s.heardAt_station port).symm)
    ((s.heardAt_waveEnds port port.val).trans ends)
  obtain ⟨_, _, ring⟩ := ownRefBack_ring f goal (s.heardAt port)
  rw [heard] at ring
  exact ⟨_, (syncRefReceived_of_match join good closed sched).trans (congrArg Host.Outcome.next taken),
    (congrArg RingState.master ring).trans master, (congrArg RingState.heard ring :), (congrArg RingState.wire ring :),
    (congrArg (fun r : RingState => r.last.path) ring :), (congrArg RingState.equalRefs ring :),
    .via (ownRefBack_frame ..) (by decide) ((s.heardAt_frame port).mono (by decide))⟩

theorem syncRefReceived_passing_gives {o : Nat} {turned : Bool} (own : bits h.wordB 0 8 = s.station) (mid : s.waveEnds port.val = false)
    (out : s.ring.outPort port.val = some (o, turned)) :
    Gives (.syncRefReceived port .ok h f res) s (fun t => t.ring.wire.head? = some (o, passed
        { hdr := h, payload := syncBytes (s.refOut h f (s.ring.port port.val).delay res) } turned) ∧
      t.ring.cycle = s.ring.cycle ∧ t.ring.equalRefs = s.ring.equalRefs ∧ Frame [.ring] s t) := by
  obtain ⟨_, _, heard⟩ := s.heardAt_ring port
  have taken := takeRef_of_passing (res := res) (h := h) (f := f) (State.heardAt_master (port := port) master)
    (own.trans (s.heardAt_station port).symm)
    ((s.heardAt_waveEnds port port.val).trans mid)
  rw [State.heardAt_refOut, State.heardAt_delay] at taken
  obtain ⟨_, _, _, ring⟩ := forward_ring port.val { hdr := h, payload := syncBytes (s.refOut h f (s.ring.port port.val).delay res) } (s.heardAt port)
  rw [heard] at ring
  exact ⟨_, (syncRefReceived_of_match join good closed sched).trans (congrArg Host.Outcome.next taken),
    forward_wire _ ((s.heardAt_outPort port _).trans out), (congrArg RingState.cycle ring :), (congrArg RingState.equalRefs ring :),
    .via (forward_frame ..) (by decide) (s.heardAt_frame port)⟩

theorem syncRefReceived_foreign_gives (other : bits h.wordB 0 8 ≠ s.station) (lower : bits h.wordB 8 2 < s.ring.rank) :
    Gives (.syncRefReceived port .ok h f res) s (fun t => t.ring.yieldNext = true ∧ t.ring.wire = s.ring.wire ∧ Frame [.ring] s t) := by
  obtain ⟨_, _, heard⟩ := s.heardAt_ring port
  have taken := takeRef_of_foreign (p := port.val) (res := res) (h := h) (f := f) (State.heardAt_master (port := port) master)
    (fun own => other (own.trans (s.heardAt_station port)))
  rw [foreignRef, if_pos (by rw [heard]; exact lower)] at taken
  exact ⟨_, (syncRefReceived_of_match join good closed sched).trans (congrArg Host.Outcome.next taken), rfl,
    s.heardAt_wire port, .via (State.modRing_frame ..) (by decide) (s.heardAt_frame port)⟩

end

/-! ### A reference that the station follows (R225, R245, R250, R253) -/

/-- From `s` to `t` the station stands as it is, follows the reference it has taken, and its links are closed or open as before. -/
structure RefKept (s t : State) : Prop where
  mode : t.sys.mode = s.sys.mode
  cfg : t.cfg = s.cfg
  recorded : t.ring.recorded = s.ring.recorded
  cycle : t.ring.cycle = s.ring.cycle
  refHere : t.ring.refHere = s.ring.refHere
  missing : t.ring.missing = s.ring.missing
  rank : t.ring.rank = s.ring.rank
  masterStn : t.ring.masterStn = s.ring.masterStn
  inPort : t.ring.inPort = s.ring.inPort
  east : t.ring.east.link = s.ring.east.link
  west : t.ring.west.link = s.ring.west.link
  joined : s.ring.joined = true → t.ring.joined = true

section
variable {s t u : State}

theorem RefKept.refl (s : State) : RefKept s s := ⟨rfl, rfl, rfl, rfl, rfl, rfl, rfl, rfl, rfl, rfl, rfl, id⟩

theorem RefKept.via (then_ : RefKept t u) (first : RefKept s t) : RefKept s u where
  mode := then_.mode.trans first.mode
  cfg := then_.cfg.trans first.cfg
  recorded := then_.recorded.trans first.recorded
  cycle := then_.cycle.trans first.cycle
  refHere := then_.refHere.trans first.refHere
  missing := then_.missing.trans first.missing
  rank := then_.rank.trans first.rank
  masterStn := then_.masterStn.trans first.masterStn
  inPort := then_.inPort.trans first.inPort
  east := then_.east.trans first.east
  west := then_.west.trans first.west
  joined := fun yes => then_.joined (first.joined yes)

theorem RefKept.of_same (sys : t.sys = s.sys) (cfg : t.cfg = s.cfg) (ring : t.ring = s.ring) : RefKept s t := by
  constructor
  case mode => rw [sys]
  case cfg => exact cfg
  case joined => rw [ring]; exact id
  all_goals rw [ring]

theorem RefKept.of_frame {w : List Part} (frame : Frame w s t) (sys : Part.sys ∉ w) (cfg : Part.cfg ∉ w) (ring : Part.ring ∉ w) : RefKept s t :=
  .of_same (frame.same .sys sys) (frame.same .cfg cfg) (frame.same .ring ring)

theorem RefKept.station (kept : RefKept s t) : t.station = s.station := State.station_of kept.mode kept.cfg kept.recorded

theorem RefKept.ite {c : Prop} [Decidable c] (yes : RefKept s t) (no : RefKept s u) : RefKept s (if c then t else u) := by
  split
  · exact yes
  · exact no

theorem joinRing_joined (s : State) : (joinRing s).ring = { s.ring with joined := true, newPath := false, slots := .empty } := by
  unfold joinRing
  dsimp only
  refine ((setValid_frame ..).same .ring (by decide)).trans ?_
  exact raiseRing_ring ..

theorem joinRing_kept (s : State) : RefKept s (joinRing s) := by
  have ring := joinRing_joined s
  have event : ∀ u : State, (raiseRing evt_ringJoined noInst [] u).sys.mode = u.sys.mode := fun u => congrArg SysState.mode (raise_sys ..)
  have mode : (joinRing s).sys.mode = s.sys.mode := by
    unfold joinRing
    dsimp only
    rw [(congrArg SysState.mode ((setValid_frame ..).same .sys (by decide)) :)]
    exact event _
  constructor
  case mode => exact mode
  case cfg => exact (joinRing_frame s).same .cfg (by decide)
  case joined => rw [ring]; exact fun _ => rfl
  all_goals rw [ring]

theorem correctV0_kept (goal : Int) (s : State) : RefKept s (correctV0 goal s) := by
  have noted : ∀ (v : Int) (n : Nat) (b : Bool), RefKept s (s.modRing (fun r => { r with v0Offset := v, goodCorr := n, syncOk := b })) :=
    fun _ _ _ => ⟨rfl, rfl, rfl, rfl, rfl, rfl, rfl, rfl, rfl, rfl, rfl, id⟩
  unfold correctV0
  dsimp only
  exact .ite (.via (.of_frame (servo_frame ..) (by decide) (by decide) (by decide)) (noted ..)) (noted ..)

theorem setSleepAt_kept (c : U32) (s : State) : RefKept s (setSleepAt c s) := by
  have ring := setSleepAt_ring c s
  constructor
  case mode => rw [(setSleepAt_frame c s).same .sys (by decide)]
  case cfg => exact (setSleepAt_frame c s).same .cfg (by decide)
  case joined => rw [ring]; exact id
  all_goals rw [ring]

/-- The part of `noteDelay` before the averages are discarded. -/
theorem noteDelay_kept (g : SyncRef) (s : State) : RefKept s (noteDelay g s) ∧ (noteDelay g s).ring.sleepAt = s.ring.sleepAt := by
  unfold noteDelay
  dsimp only
  split
  · exact ⟨⟨rfl, rfl, rfl, rfl, rfl, rfl, rfl, rfl, rfl, rfl, rfl, id⟩, rfl⟩
  · exact ⟨⟨rfl, rfl, rfl, rfl, rfl, rfl, rfl, rfl, rfl, rfl, rfl, id⟩, rfl⟩

theorem takeCycle_ring (origin : U32) (first : Bool) (s : State) : ∃ no, (takeCycle origin first s).ring =
    { s.ring with cycle := origin, cycleNo := no } := by
  unfold takeCycle
  dsimp only
  split
  · exact ⟨_, rfl⟩
  · generalize (if (origin - s.ring.cycle).toNat < 2147483648 then s.ring.cycleNo + (origin - s.ring.cycle).toNat
      else s.ring.cycleNo - (4294967296 - (origin - s.ring.cycle).toNat)) = no
    split
    · exact ⟨no, raiseRing_ring ..⟩
    · exact ⟨no, rfl⟩

/-- The station has taken a reference: what `followRef` notes before the clock is corrected. -/
def refTaken (p : Nat) (h : RingHeader) (s : State) : State :=
  takeCycle h.origin (!s.ring.joined)
    ((if s.ring.rank ≠ bits h.wordB 8 2 ∨ s.ring.masterStn ≠ bits h.wordB 0 8 then s.modRing (fun r => { r with newPath := true }) else s).modRing
      (fun r => { r with refHere := true, missing := 0, rank := bits h.wordB 8 2, masterStn := bits h.wordB 0 8, inPort := p }))

theorem refTaken_ring (p : Nat) (h : RingHeader) (s : State) : ∃ no path, (refTaken p h s).ring =
    { s.ring with newPath := path, refHere := true, missing := 0, rank := bits h.wordB 8 2, masterStn := bits h.wordB 0 8, inPort := p
                  cycle := h.origin, cycleNo := no } := by
  unfold refTaken
  split
  · obtain ⟨no, ring⟩ := takeCycle_ring h.origin (!s.ring.joined) ((s.modRing (fun r => { r with newPath := true })).modRing
      (fun r => { r with refHere := true, missing := 0, rank := bits h.wordB 8 2, masterStn := bits h.wordB 0 8, inPort := p }))
    exact ⟨no, _, ring⟩
  · obtain ⟨no, ring⟩ := takeCycle_ring h.origin (!s.ring.joined) (s.modRing
      (fun r => { r with refHere := true, missing := 0, rank := bits h.wordB 8 2, masterStn := bits h.wordB 0 8, inPort := p }))
    exact ⟨no, _, ring⟩

theorem refTaken_frame (p : Nat) (h : RingHeader) (s : State) : Frame [.mbx, .log, .vz, .ring] s (refTaken p h s) :=
  .via (takeCycle_frame ..) (by decide) (.via (State.modRing_frame ..) (by decide) (.ite ((State.modRing_frame ..).mono (by decide)) (.refl _ s)))

/-- The clock is corrected and the sleep cycle noted (R253, R258). -/
def refApplied (goal : Int) (first : Bool) (sleepAt : U32) (s : State) : State :=
  setSleepAt sleepAt (correctV0 goal (if first then joinRing s else s))

theorem refApplied_kept (goal : Int) (first : Bool) (sleepAt : U32) (s : State) : RefKept s (refApplied goal first sleepAt s) :=
  .via (setSleepAt_kept ..) (.via (correctV0_kept ..) (.ite (joinRing_kept s) (.refl s)))

theorem refApplied_joined (goal : Int) (sleepAt : U32) (s : State) (b : Bool) (same : s.ring.joined = b) :
    (refApplied goal (!b) sleepAt s).ring.joined = true := by
  have joined : (if (!b) = true then joinRing s else s).ring.joined = true := by
    cases b with
    | true => exact same
    | false => exact congrArg RingState.joined (joinRing_joined s)
  exact (setSleepAt_kept ..).joined ((correctV0_kept ..).joined joined)

/-- The state in which a followed reference leaves. -/
def refPassing (g : SyncRef) (handoverAt : U32) (s : State) : State :=
  (captureEdge 0x400 true ((noteDelay g s).modRing (fun r => { r with last := g, heard := true, handoverAt := handoverAt }))).askedSeen

theorem State.askedSeen_ring (s : State) : s.askedSeen.ring = s.ring := rfl

theorem captureEdge_ring (source : Nat) (rising : Bool) (s : State) : (captureEdge source rising s).ring = s.ring :=
  (captureEdge_frame ..).same .ring (by decide)

theorem refPassing_ring (g : SyncRef) (handoverAt : U32) (s : State) :
    (refPassing g handoverAt s).ring = { (noteDelay g s).ring with last := g, heard := true, handoverAt := handoverAt } := by
  rw [refPassing, State.askedSeen_ring, captureEdge_ring]
  rfl

/-- The sync time at the ingress of the reference, in units of 2^−16 ns. -/
def refGoal (f : SyncRef) (delay : U32) : Int := (f.originNs.toNat * 65536 + f.originFrac.toNat : Nat) + f.corr.toInt + (delay.toNat : Int)

/-- The station has taken the reference and applied it. -/
def refHeld (p : Nat) (h : RingHeader) (f : SyncRef) (s : State) : State :=
  refApplied (refGoal f (s.ring.port p).delay) (!s.ring.joined) f.sleepAt (refTaken p h s)

/-- A followed reference leaves with its content as `g`. -/
def refLeaves (p : Nat) (h : RingHeader) (handoverAt : U32) (g : SyncRef) (k : State) : State :=
  forward p { hdr := h, payload := syncBytes g } (refPassing g handoverAt k)

theorem followRef_eq (p : Nat) (h : RingHeader) (f : SyncRef) (res : U32) (s : State) : followRef p h f res s =
    refLeaves p h f.handoverAt ((refHeld p h f s).refOut h f (s.ring.port p).delay res) (refHeld p h f s) := rfl

theorem takeRef_of_follow {p : Nat} {h : RingHeader} {f : SyncRef} {res : U32} (join : s.canJoin = true) (away : s.ring.master = false)
    (fresh : ¬(s.ring.joined = true ∧ s.ring.refHere = true ∧ h.origin = s.ring.cycle)) :
    takeRef p h f res s = followRef p h f res s := by
  rw [takeRef, if_neg (by rw [away]; exact Bool.false_ne_true), if_neg (by simpa [and_assoc] using fresh), if_pos join]

/-- What following a reference leaves of the station. -/
structure RefFollowed (p : Nat) (h : RingHeader) (f : SyncRef) (s t : State) : Prop where
  joined : t.ring.joined = true
  cycle : t.ring.cycle = h.origin
  refHere : t.ring.refHere = true
  missing : t.ring.missing = 0
  rank : t.ring.rank = bits h.wordB 8 2
  masterStn : t.ring.masterStn = bits h.wordB 0 8
  inPort : t.ring.inPort = p
  sleepAt : t.ring.sleepAt = f.sleepAt
  handoverAt : t.ring.handoverAt = f.handoverAt
  heard : t.ring.heard = true
  wakeReq : t.sys.wakeReq = false
  path : t.ring.last.path = f.path.set (h.hops.toNat + 1) (byteOf s.station)
  wire : ∀ o turned, s.ring.outPort p = some (o, turned) →
    t.ring.wire.head? = some (o, passed { hdr := h, payload := syncBytes t.ring.last } turned)

/-- What a station that has taken the reference holds until the reference leaves it. -/
structure RefTaken (p : Nat) (h : RingHeader) (f : SyncRef) (s k : State) : Prop where
  joined : k.ring.joined = true
  cycle : k.ring.cycle = h.origin
  refHere : k.ring.refHere = true
  missing : k.ring.missing = 0
  rank : k.ring.rank = bits h.wordB 8 2
  masterStn : k.ring.masterStn = bits h.wordB 0 8
  inPort : k.ring.inPort = p
  sleepAt : k.ring.sleepAt = f.sleepAt
  station : k.station = s.station
  out : k.ring.outPort p = s.ring.outPort p

theorem refHeld_taken (p : Nat) (h : RingHeader) (f : SyncRef) (s : State) : RefTaken p h f s (refHeld p h f s) := by
  obtain ⟨_, _, taken⟩ := refTaken_ring p h s
  have applied := refApplied_kept (refGoal f (s.ring.port p).delay) (!s.ring.joined) f.sleepAt (refTaken p h s)
  have links : (refTaken p h s).ring.east.link = s.ring.east.link ∧ (refTaken p h s).ring.west.link = s.ring.west.link := by
    rw [taken]
    exact ⟨rfl, rfl⟩
  have frame := refTaken_frame p h s
  constructor
  case joined => exact refApplied_joined _ _ _ s.ring.joined (by rw [taken])
  case cycle => rw [refHeld, applied.cycle, taken]
  case refHere => rw [refHeld, applied.refHere, taken]
  case missing => rw [refHeld, applied.missing, taken]
  case rank => rw [refHeld, applied.rank, taken]
  case masterStn => rw [refHeld, applied.masterStn, taken]
  case inPort => rw [refHeld, applied.inPort, taken]
  case sleepAt => exact congrArg RingState.sleepAt (setSleepAt_ring ..)
  case station =>
    refine applied.station.trans (State.station_of ?_ (frame.same .cfg (by decide)) (by rw [taken]))
    rw [(frame.same .sys (by decide) : (refTaken p h s).sys = s.sys)]
  case out => exact RingState.outPort_of (applied.east.trans links.1) (applied.west.trans links.2) p

theorem refLeaves_followed {p : Nat} {h : RingHeader} {f : SyncRef} {s k : State} {g : SyncRef} (taken : RefTaken p h f s k)
    (path : g.path = f.path.set (h.hops.toNat + 1) (byteOf s.station)) : RefFollowed p h f s (refLeaves p h f.handoverAt g k) := by
  obtain ⟨noted, sleeps⟩ := noteDelay_kept g k
  have passing := refPassing_ring g f.handoverAt k
  obtain ⟨_, _, _, left⟩ := forward_ring p { hdr := h, payload := syncBytes g } (refPassing g f.handoverAt k)
  rw [passing] at left
  have last : (refLeaves p h f.handoverAt g k).ring.last = g := by rw [refLeaves, left]
  constructor
  case joined => rw [refLeaves, left]; exact noted.joined taken.joined
  case cycle => rw [refLeaves, left]; exact noted.cycle.trans taken.cycle
  case refHere => rw [refLeaves, left]; exact noted.refHere.trans taken.refHere
  case missing => rw [refLeaves, left]; exact noted.missing.trans taken.missing
  case rank => rw [refLeaves, left]; exact noted.rank.trans taken.rank
  case masterStn => rw [refLeaves, left]; exact noted.masterStn.trans taken.masterStn
  case inPort => rw [refLeaves, left]; exact noted.inPort.trans taken.inPort
  case sleepAt => rw [refLeaves, left]; exact sleeps.trans taken.sleepAt
  case handoverAt => rw [refLeaves, left]
  case heard => rw [refLeaves, left]
  case wakeReq =>
    rw [refLeaves, ((forward_frame ..).same .sys (by decide) : (forward p { hdr := h, payload := syncBytes g } (refPassing g f.handoverAt k)).sys =
      _)]
    rfl
  case path => rw [last, path]
  case wire =>
    intro o turned out
    rw [last]
    refine forward_wire _ (Eq.trans ?_ (taken.out.trans out))
    rw [passing]
    exact RingState.outPort_of noted.east noted.west p

theorem followRef_followed (p : Nat) (h : RingHeader) (f : SyncRef) (res : U32) (s : State) : RefFollowed p h f s (followRef p h f res s) := by
  have taken := refHeld_taken p h f s
  rw [followRef_eq]
  generalize refHeld p h f s = k at taken ⊢
  exact refLeaves_followed taken (by rw [← taken.station]; rfl)

theorem syncRefReceived_follow_gives {port : Fin 2} {h : RingHeader} {f : SyncRef} {res : U32} (join : s.canJoin = true)
    (good : ringBad { hdr := h, payload := syncBytes f } 0 = false) (closed : (s.ring.port port.val).closed = true)
    (sched : h.wordA = s.ringSec.sched) (away : s.ring.master = false)
    (fresh : ¬(s.ring.joined = true ∧ s.ring.refHere = true ∧ h.origin = s.ring.cycle)) :
    Gives (.syncRefReceived port .ok h f res) s (fun t => t.ring.joined = true ∧ t.ring.cycle = h.origin ∧ t.ring.refHere = true ∧
      t.ring.missing = 0 ∧ t.ring.rank = bits h.wordB 8 2 ∧ t.ring.masterStn = bits h.wordB 0 8 ∧ t.ring.inPort = port.val ∧
      t.ring.sleepAt = f.sleepAt ∧ t.ring.handoverAt = f.handoverAt ∧ t.ring.heard = true ∧ t.sys.wakeReq = false ∧
      t.ring.last.path = f.path.set (h.hops.toNat + 1) (byteOf s.station) ∧
      (∃ o turned, s.ring.outPort port.val = some (o, turned) ∧
        t.ring.wire.head? = some (o, passed { hdr := h, payload := syncBytes t.ring.last } turned)) ∧
      Frame [.sys, .mbx, .log, .tb, .vz, .ring, .free] s t) := by
  obtain ⟨_, _, heard⟩ := s.heardAt_ring port
  have taken : takeRef port.val h f res (s.heardAt port) = followRef port.val h f res (s.heardAt port) :=
    takeRef_of_follow ((s.heardAt_canJoin port).trans join) ((congrArg RingState.master heard).trans away) (by rw [heard]; exact fresh)
  obtain ⟨joined, cycle, refHere, missing, rank, masterStn, inPort, sleepAt, handoverAt, hears, wakeReq, path, wire⟩ :=
    followRef_followed port.val h f res (s.heardAt port)
  rw [State.heardAt_station] at path
  obtain ⟨o, turned, out⟩ := RingState.outPort_of_closed closed
  exact ⟨_, (syncRefReceived_of_match join good closed sched).trans (congrArg Host.Outcome.next taken), joined, cycle, refHere, missing, rank,
    masterStn, inPort, sleepAt, handoverAt, hears, wakeReq, path, ⟨o, turned, out, wire o turned ((s.heardAt_outPort port _).trans out)⟩,
    .via (followRef_frame ..) (by decide) ((s.heardAt_frame port).mono (by decide))⟩

end

/-! ### A missing reference (R251) -/

section
variable {s : State}

theorem syncRefMissing_of_other (other : s.canJoin = false ∨ s.ring.master = true) : exec .syncRefMissing s = .next s := by
  refine congrArg Host.Outcome.next (if_neg ?_)
  obtain out | master := other
  · rw [out]; exact Bool.false_ne_true
  · rw [master, Bool.not_true, Bool.and_false]; exact Bool.false_ne_true

/-- One more reference is missing, and the second in a row is reported. -/
def missedOnce (s : State) : State :=
  let u := s.modRing (fun r => { r with missing := r.missing + 1 })
  if u.ring.missing = 2 then raiseRing evt_ringRefMissing noInst [] u else u

theorem missedOnce_ring (s : State) : (missedOnce s).ring = { s.ring with missing := s.ring.missing + 1 } := by
  unfold missedOnce
  dsimp only
  split
  · exact raiseRing_ring ..
  · rfl

theorem missedOnce_frame (s : State) : Frame [.mbx, .log, .vz, .ring] s (missedOnce s) :=
  .ite (.via (raiseRing_frame ..) (by decide) ((State.modRing_frame ..).mono (by decide))) ((State.modRing_frame ..).mono (by decide))

theorem missedOnce_ownRank (s : State) : (missedOnce s).ownRank = s.ownRank :=
  State.ownRank_of (congrArg SysState.mode ((missedOnce_frame s).same .sys (by decide))) ((missedOnce_frame s).same .cfg (by decide))
    (by rw [missedOnce_ring])

theorem refMissing_eq (s : State) : refMissing s =
    match (missedOnce s).ownRank with
    | some k =>
      if decide (1 ≤ k) && decide ((missedOnce s).ring.missing = 2 * k) && ((missedOnce s).ring.east.closed || (missedOnce s).ring.west.closed) then
        raiseRing evt_ringMasterChange noInst [] (takeMaster k (if (missedOnce s).ring.joined then missedOnce s else joinRing (missedOnce s)))
      else missedOnce s
    | none => missedOnce s := rfl

theorem syncRefMissing_acts (join : s.canJoin = true) (away : s.ring.master = false) : exec .syncRefMissing s = .next (refMissing s) :=
  congrArg Host.Outcome.next (if_pos (by rw [join, away]; rfl))

theorem syncRefMissing_unranked_gives (join : s.canJoin = true) (away : s.ring.master = false) (first : s.ownRank = none ∨ s.ownRank = some 0) :
    Gives .syncRefMissing s (fun t => t.ring = { s.ring with missing := s.ring.missing + 1 } ∧ Frame [.mbx, .log, .vz, .ring] s t) := by
  have only : refMissing s = missedOnce s := by
    rw [refMissing_eq, missedOnce_ownRank]
    obtain unranked | zero := first
    · rw [unranked]
    · rw [zero]
      rfl
  exact ⟨_, (syncRefMissing_acts join away).trans (congrArg Host.Outcome.next only), missedOnce_ring s, missedOnce_frame s⟩

theorem syncRefMissing_takes_gives {k : Nat} (join : s.canJoin = true) (away : s.ring.master = false) (rank : s.ownRank = some k) (backup : 1 ≤ k)
    (turn : s.ring.missing + 1 = 2 * k) (linked : s.ring.east.closed = true ∨ s.ring.west.closed = true) :
    Gives .syncRefMissing s (fun t => t.ring.master = true ∧ t.ring.joined = true ∧ t.ring.rank = k ∧ t.ring.masterStn = s.station ∧
      t.ring.missing = 0 ∧ Frame [.sys, .mbx, .log, .tb, .vz, .ring] s t) := by
  have missed := missedOnce_ring s
  have takes : refMissing s = raiseRing evt_ringMasterChange noInst []
      (takeMaster k (if (missedOnce s).ring.joined then missedOnce s else joinRing (missedOnce s))) := by
    rw [refMissing_eq, missedOnce_ownRank, rank]
    refine if_pos ?_
    rw [missed, decide_eq_true backup, decide_eq_true turn]
    simpa using linked
  have kept : RefKept (missedOnce s) (if (missedOnce s).ring.joined then missedOnce s else joinRing (missedOnce s)) :=
    .ite (.refl _) (joinRing_kept _)
  have joined : (if (missedOnce s).ring.joined then missedOnce s else joinRing (missedOnce s)).ring.joined = true := by
    split
    · assumption
    · exact congrArg RingState.joined (joinRing_joined _)
  have frame : Frame [.sys, .mbx, .log, .tb, .vz, .ring] s (if (missedOnce s).ring.joined then missedOnce s else joinRing (missedOnce s)) :=
    .ite ((missedOnce_frame s).mono (by decide)) (.via (joinRing_frame _) (by decide) ((missedOnce_frame s).mono (by decide)))
  have station : (if (missedOnce s).ring.joined then missedOnce s else joinRing (missedOnce s)).station = s.station :=
    kept.station.trans (State.station_of (congrArg SysState.mode ((missedOnce_frame s).same .sys (by decide)))
      ((missedOnce_frame s).same .cfg (by decide)) (by rw [missed]))
  refine ⟨_, (syncRefMissing_acts join away).trans (congrArg Host.Outcome.next takes), ?_⟩
  dsimp only
  rw [raiseRing_ring]
  exact ⟨rfl, joined, rfl, station, rfl, .via (raiseRing_frame ..) (by decide) (.via (takeMaster_frame ..) (by decide) frame)⟩

/-! ### Hand-over of the mastership (R252) -/

theorem masterHandover_of_none (unset : s.ring.handoverAt = 0) : exec .masterHandover s = .next s :=
  congrArg Host.Outcome.next (if_neg (by rw [unset]; simp))

theorem masterHandover_gives (join : s.canJoin = true) (joined : s.ring.joined = true) (due : s.ring.handoverAt ≠ 0) (master : s.ring.master = true) :
    Gives .masterHandover s (fun t => t.ring.master = false ∧ t.ring.handoverAt = 0 ∧ t.ring.relayQ = [] ∧ t.ring.slotBuf = .empty ∧
      Frame [.ring] s t) := by
  refine ⟨dropMaster s, congrArg Host.Outcome.next ((if_pos ?_).trans (if_pos master)), rfl, rfl, rfl, rfl, dropMaster_frame s⟩
  rw [join, joined, decide_eq_true due]
  rfl

theorem masterHandover_takes_gives {k : Nat} (join : s.canJoin = true) (joined : s.ring.joined = true) (due : s.ring.handoverAt ≠ 0)
    (away : s.ring.master = false) (rank : s.ownRank = some k) (lower : k < s.ring.rank) :
    Gives .masterHandover s (fun t => t.ring.master = true ∧ t.ring.rank = k ∧ t.ring.masterStn = s.station ∧
      Frame [.mbx, .log, .vz, .ring] s t) := by
  have acts : exec .masterHandover s = .next (raiseRing evt_ringMasterChange noInst [] (takeMaster k s)) := by
    refine congrArg Host.Outcome.next ((if_pos ?_).trans ((if_neg ?_).trans ?_))
    · rw [join, joined, decide_eq_true due]
      rfl
    · rw [away]; exact Bool.false_ne_true
    · rw [rank]
      exact if_pos lower
  refine ⟨_, acts, ?_⟩
  dsimp only
  rw [raiseRing_ring]
  exact ⟨rfl, rfl, rfl, .via (raiseRing_frame ..) (by decide) ((takeMaster_frame ..).mono (by decide))⟩

end

end Sys2Proof.Machine
end

section
/-! PROOF. The start of a local cycle (R225, R232, R237, R244, R245, R250, R251), and the statement on the links and the cycle of the ring. -/

namespace Sys2Proof.Machine

/-! ### What keeps the mastership -/

/-- From `s` to `t` the station leads the ring, or follows its master, as it did. -/
structure LeadKept (s t : State) : Prop where
  master : t.ring.master = s.ring.master
  joined : t.ring.joined = s.ring.joined
  rank : t.ring.rank = s.ring.rank
  masterStn : t.ring.masterStn = s.ring.masterStn

section
variable {s t u : State}

theorem LeadKept.refl (s : State) : LeadKept s s := ⟨rfl, rfl, rfl, rfl⟩

theorem LeadKept.via (then_ : LeadKept t u) (first : LeadKept s t) : LeadKept s u :=
  ⟨then_.master.trans first.master, then_.joined.trans first.joined, then_.rank.trans first.rank, then_.masterStn.trans first.masterStn⟩

theorem LeadKept.of_ring (ring : t.ring = s.ring) : LeadKept s t := by
  constructor <;> rw [ring]

theorem LeadKept.of_frame {w : List Part} (frame : Frame w s t) (apart : Part.ring ∉ w) : LeadKept s t := .of_ring (frame.same .ring apart)

theorem LeadKept.ite {c : Prop} [Decidable c] (yes : LeadKept s t) (no : LeadKept s u) : LeadKept s (if c then t else u) := by
  split
  · exact yes
  · exact no

theorem LeadKept.foldl {α : Type} {f : State → α → State} (keeps : ∀ s x, LeadKept s (f s x)) (l : List α) (s : State) :
    LeadKept s (l.foldl f s) where
  master := foldl_kept (fun s : State => s.ring.master) (fun s x _ => (keeps s x).master) s
  joined := foldl_kept (fun s : State => s.ring.joined) (fun s x _ => (keeps s x).joined) s
  rank := foldl_kept (fun s : State => s.ring.rank) (fun s x _ => (keeps s x).rank) s
  masterStn := foldl_kept (fun s : State => s.ring.masterStn) (fun s x _ => (keeps s x).masterStn) s

end

theorem transmit_ring (p : Nat) (f : RingFrame) (s : State) :
    ∃ e w l, (transmit p f s).ring = { s.ring with east := e, west := w, wire := l } := by
  cases p with
  | zero => exact ⟨_, _, _, rfl⟩
  | succ n => exact ⟨_, _, _, rfl⟩

theorem transmitOut_ring (f : RingFrame) (s : State) :
    ∃ e w l, (transmitOut f s).ring = { s.ring with east := e, west := w, wire := l } := by
  unfold transmitOut
  split
  · exact transmit_ring ..
  · exact ⟨_, _, _, rfl⟩

theorem transmitOut_lead (f : RingFrame) (s : State) : LeadKept s (transmitOut f s) := by
  obtain ⟨_, _, _, ring⟩ := transmitOut_ring f s
  constructor <;> rw [ring]

theorem appendFrame_lead (f : RingFrame) (s : State) : LeadKept s (appendFrame f s) := .via (transmitOut_lead ..) ⟨rfl, rfl, rfl, rfl⟩

theorem takeRecords_lead (v room : Nat) (s : State) : LeadKept s (takeRecords v room s).1 := by
  unfold takeRecords
  dsimp only
  split
  · exact ⟨rfl, rfl, rfl, rfl⟩
  · exact ⟨rfl, rfl, rfl, rfl⟩

theorem queueData_lead (s : State) : LeadKept s (queueData s) := by
  refine .foldl (fun s c => ?_) _ s
  dsimp only
  split
  · exact .refl s
  · split
    · exact takeRecords_lead ..
    · exact .via (t := (takeRecords c.1 1536 s).1) ⟨rfl, rfl, rfl, rfl⟩ (takeRecords_lead ..)

theorem appendMbx_lead (n : Nat) (s : State) : LeadKept s (appendMbx n s) := by
  induction n generalizing s with
  | zero => exact .refl s
  | succ n ih =>
    unfold appendMbx
    split
    · exact .refl s
    · exact .ite (.via (ih _) (.via (appendFrame_lead ..) ⟨rfl, rfl, rfl, rfl⟩)) (.refl s)

theorem appendSystem_lead (l : List RingFrame) (s : State) : LeadKept s (appendSystem l s) := by
  induction l generalizing s with
  | nil => exact .refl s
  | cons f r ih => exact .ite (.via (ih _) (.via (appendFrame_lead ..) ⟨rfl, rfl, rfl, rfl⟩)) (.refl s)

theorem appendRelayed_lead (l : List RelayItem) (s : State) : LeadKept s (appendRelayed l s) := by
  induction l generalizing s with
  | nil => exact .refl s
  | cons x r ih => exact .ite (.via (ih _) (.via (appendFrame_lead ..) ⟨rfl, rfl, rfl, rfl⟩)) (.refl s)

theorem appendDrr_lead (n : Nat) (s : State) : LeadKept s (appendDrr n s) := by
  induction n generalizing s with
  | zero => exact .refl s
  | succ n ih =>
    unfold appendDrr
    dsimp only
    split
    · exact .via (ih _) (.via (appendFrame_lead ..) ⟨rfl, rfl, rfl, rfl⟩)
    · exact .refl s

theorem appendOwn_lead (s : State) : LeadKept s (appendOwn s) := by
  unfold appendOwn
  refine .ite (.refl s) (.via (appendDrr_lead ..) (.ite (.via (appendRelayed_lead ..) ?_) ?_))
  all_goals exact .via (appendSystem_lead ..) (.ite (.via (appendMbx_lead ..) (queueData_lead s)) (queueData_lead s))

/-! ### The parts of a cycle's start -/

section
variable {s : State}

theorem ownCycle_ring (s : State) : ∃ no, (ownCycle s).ring =
    { s.ring with cycle := if s.ring.refHere then s.ring.cycle else s.ring.cycle + 1, cycleNo := no, refHere := false } := by
  unfold ownCycle
  split
  · exact ⟨s.ring.cycleNo, rfl⟩
  · next none_ =>
    obtain ⟨no, ring⟩ := takeCycle_ring (s.ring.cycle + 1) false s
    have off : s.ring.refHere = false := Bool.eq_false_iff.mpr none_
    exact ⟨no, ring.trans (by rw [← off])⟩

theorem ownCycle_formsRing (s : State) : (ownCycle s).formsRing = s.formsRing := by
  obtain ⟨_, ring⟩ := ownCycle_ring s
  have sys : (ownCycle s).sys = s.sys := (ownCycle_frame s).same .sys (by decide)
  have cfg : (ownCycle s).cfg = s.cfg := (ownCycle_frame s).same .cfg (by decide)
  have mode : (ownCycle s).sys.mode = s.sys.mode := by rw [sys]
  have recorded : (ownCycle s).ring.recorded = s.ring.recorded := by rw [ring]
  rw [State.formsRing, State.formsRing, State.canJoin, State.canJoin, State.basecamp, State.basecamp, mode, State.ownRank_of mode cfg recorded,
    State.station_of mode cfg recorded, ring]

/-- The master of the cycle that starts (R245, R251). -/
def cycleLead (s : State) : State :=
  let t := if (ownCycle s).formsRing then takeMaster 0 (joinRing (ownCycle s)) else ownCycle s
  if t.ring.master && t.ring.yieldNext then dropMaster t else t

/-- The counts of the cycle that ends are taken. -/
def cycleTurned (s : State) : State :=
  s.modRing (fun r => { r with
    east := endExchange r.east, west := endExchange r.west, spent := 0, settling := r.settling - 1
    relayQ := r.relayQ.map (fun x => { x with waited := x.waited + 1 }) })

/-- The cycle as it stands before the master sends its reference. -/
def cycleBegun (s : State) : State := anchorV1 (healStep (cycleTurned (cycleLead s)))

theorem cycleStart_eq (s : State) : cycleStart s = if (cycleBegun s).ring.master then sendRef (cycleBegun s) else cycleBegun s := rfl

theorem healStep_ring (s : State) : ∃ a b, (healStep s).ring = { s.ring with heal := a, heals := b } := by
  unfold healStep
  split
  · exact ⟨_, _, rfl⟩
  · split
    · exact ⟨_, _, raiseRing_ring ..⟩
    · exact ⟨_, _, rfl⟩

theorem cycleBegun_ring (s : State) : ∃ a b, (cycleBegun s).ring = { (cycleTurned (cycleLead s)).ring with heal := a, heals := b } := by
  obtain ⟨a, b, ring⟩ := healStep_ring (cycleTurned (cycleLead s))
  exact ⟨a, b, ((anchorV1_frame _).same .ring (by decide)).trans ring⟩

/-- The activation that waits and the ages, which leave the ring alone. -/
def cycleServed (u : State) : State := cycleAges (if u.ring.joined then activationBoundary u else u)

theorem cycleServed_ring (u : State) : (cycleServed u).ring = u.ring := by
  refine ((cycleAges_frame _).same .ring (by decide)).trans ?_
  split
  · exact (activationBoundary_frame u).same .ring (by decide)
  · rfl

theorem localCycle_of_active (active : s.ring.phase = .active) : localCycle s =
    if (startNit (cycleServed (cycleStart s))).ring.master then appendOwn (startNit (cycleServed (cycleStart s)))
    else startNit (cycleServed (cycleStart s)) := if_neg (fun off => off active)

/-- The request of the NIT changes `RING_E` and the wire alone, and no count of the link's verification. -/
theorem startNit_ring (s : State) : ∃ e l, (startNit s).ring = { s.ring with east := e, wire := l } ∧ e.fails = s.ring.east.fails ∧
    e.verify = s.ring.east.verify := by
  unfold startNit
  split
  · exact ⟨_, _, rfl, rfl, rfl⟩
  · exact ⟨_, _, rfl, rfl, rfl⟩

/-- A cycle that a station starts without leading the ring. -/
theorem localCycle_of_following (active : s.ring.phase = .active) (away : (cycleBegun s).ring.master = false) :
    ∃ e l, (localCycle s).ring = { (cycleBegun s).ring with east := e, wire := l } ∧ e.fails = (cycleBegun s).ring.east.fails ∧
      e.verify = (cycleBegun s).ring.east.verify := by
  have quiet : cycleStart s = cycleBegun s := by
    rw [cycleStart_eq, away]
    rfl
  obtain ⟨e, l, ring, fails, verify⟩ := startNit_ring (cycleServed (cycleBegun s))
  rw [cycleServed_ring] at ring fails verify
  refine ⟨e, l, ?_, fails, verify⟩
  rw [localCycle_of_active active, quiet, ring, away]
  exact ring

end

/-! ### The three ways in which a cycle starts -/

section
variable {s : State}

theorem cycleLead_of_following (away : s.ring.master = false) (apart : s.formsRing = false) : cycleLead s = ownCycle s := by
  obtain ⟨_, ring⟩ := ownCycle_ring s
  have stays : (ownCycle s).ring.master = false := by rw [ring]; exact away
  unfold cycleLead
  dsimp only
  rw [ownCycle_formsRing, apart, if_neg Bool.false_ne_true, stays]
  rfl

theorem localCycleStart_follows_gives (active : s.ring.phase = .active) (away : s.ring.master = false) (apart : s.formsRing = false) :
    Gives .localCycleStart s (fun t => t.ring.cycle = (if s.ring.refHere then s.ring.cycle else s.ring.cycle + 1) ∧
      t.ring.refHere = false ∧ t.ring.spent = 0 ∧ t.ring.settling = s.ring.settling - 1 ∧ t.ring.master = false ∧
      t.ring.joined = s.ring.joined ∧ t.ring.relayQ = s.ring.relayQ.map (fun x => { x with waited := x.waited + 1 }) ∧
      t.ring.west = endExchange s.ring.west ∧ t.ring.east.fails = 0 ∧ t.ring.east.verify = (endExchange s.ring.east).verify) := by
  obtain ⟨_, own⟩ := ownCycle_ring s
  obtain ⟨_, _, begun⟩ := cycleBegun_ring s
  rw [cycleLead_of_following away apart, cycleTurned, State.modRing] at begun
  dsimp only at begun
  rw [own] at begun
  obtain ⟨_, _, ring, fails, verify⟩ := localCycle_of_following active (by rw [begun]; exact away)
  rw [begun] at ring fails verify
  refine ⟨_, rfl, ?_⟩
  dsimp only
  rw [ring]
  exact ⟨rfl, rfl, rfl, rfl, away, rfl, rfl, rfl, fails, verify⟩

theorem cycleLead_of_yielding (joined : s.ring.joined = true) (master : s.ring.master = true) (yields : s.ring.yieldNext = true) :
    cycleLead s = dropMaster (ownCycle s) := by
  obtain ⟨_, ring⟩ := ownCycle_ring s
  have apart : s.formsRing = false := by simp [State.formsRing, joined]
  have leads : ((ownCycle s).ring.master && (ownCycle s).ring.yieldNext) = true := by
    rw [ring]
    exact Bool.and_eq_true_iff.mpr ⟨master, yields⟩
  unfold cycleLead
  dsimp only
  rw [ownCycle_formsRing, apart, if_neg Bool.false_ne_true, leads]
  rfl

theorem localCycleStart_yields_gives (active : s.ring.phase = .active) (joined : s.ring.joined = true) (master : s.ring.master = true)
    (yields : s.ring.yieldNext = true) :
    Gives .localCycleStart s (fun t => t.ring.master = false ∧ t.ring.yieldNext = false ∧ t.ring.spent = 0) := by
  obtain ⟨_, _, begun⟩ := cycleBegun_ring s
  rw [cycleLead_of_yielding joined master yields] at begun
  obtain ⟨_, _, ring, -, -⟩ := localCycle_of_following active (by rw [begun]; rfl)
  refine ⟨_, rfl, ?_⟩
  dsimp only
  rw [ring, begun]
  exact ⟨rfl, rfl, rfl⟩

theorem cycleLead_of_forming (forms : s.formsRing = true) : cycleLead s = takeMaster 0 (joinRing (ownCycle s)) := by
  unfold cycleLead
  dsimp only
  rw [ownCycle_formsRing, forms, if_pos rfl]
  exact if_neg (by exact Bool.false_ne_true)

theorem sendRef_lead (s : State) : LeadKept s (sendRef s) := by
  have edge : (captureEdge 0x400 true s.askedSeen).ring = s.ring := (captureEdge_ring ..).trans (State.askedSeen_ring s)
  unfold sendRef
  exact .via (transmitOut_lead ..) (.of_ring edge)

theorem startNit_lead (s : State) : LeadKept s (startNit s) := by
  obtain ⟨_, _, ring, -, -⟩ := startNit_ring s
  constructor <;> rw [ring]

theorem localCycle_lead (active : s.ring.phase = .active) : LeadKept (cycleBegun s) (localCycle s) := by
  have start : LeadKept (cycleBegun s) (startNit (cycleServed (cycleStart s))) := by
    refine .via (startNit_lead _) (.via (.of_ring (cycleServed_ring _)) ?_)
    rw [cycleStart_eq]
    exact .ite (sendRef_lead _) (.refl _)
  rw [localCycle_of_active active]
  exact .ite (.via (appendOwn_lead _) start) start

theorem localCycleStart_forms_gives (active : s.ring.phase = .active) (forms : s.formsRing = true) :
    Gives .localCycleStart s (fun t => t.ring.master = true ∧ t.ring.joined = true ∧ t.ring.rank = 0 ∧ t.ring.masterStn = s.station) := by
  obtain ⟨_, _, begun⟩ := cycleBegun_ring s
  obtain ⟨_, own⟩ := ownCycle_ring s
  have station : (joinRing (ownCycle s)).station = s.station := by
    rw [(joinRing_kept _).station]
    exact State.station_of (congrArg SysState.mode ((ownCycle_frame s).same .sys (by decide))) ((ownCycle_frame s).same .cfg (by decide))
      (by rw [own])
  have joined : (joinRing (ownCycle s)).ring.joined = true := by rw [joinRing_joined]
  rw [cycleLead_of_forming forms] at begun
  obtain ⟨master, join, rank, masterStn⟩ := localCycle_lead active
  rw [begun] at master join rank masterStn
  exact ⟨_, rfl, master, join.trans joined, rank, masterStn.trans station⟩

theorem localCycleStart_inactive_gives (off : s.ring.phase ≠ .active) : GivesEval .localCycleStart s (fun u => ∃ w, u = ageStep w ∧
    w.twin = { s.twin with mirrorAge := satInc 255 s.twin.mirrorAge } ∧ Frame [.twin] s w) :=
  ⟨_, congrArg Host.Outcome.next (if_pos off), _, rfl, rfl, .set_twin (.refl _ s) (by decide)⟩

end

/-- Settles O39: each change of a link by its pure effect on the two ports (`RingState.Broken`, `RingState.Shut`), a followed reference by what the
station has taken and keeps until the reference leaves (`RefTaken`, `RefFollowed`), and a local cycle by its stages. Goal times, the closing of a
link, mastership and `SYNC_OK` are as log entries 63, 64, 65 and 67 take them. -/
theorem ringLinksAndCyclesAct : Obligations.RingLinksAndCyclesAct := by
  unfold Obligations.RingLinksAndCyclesAct
  refine ⟨?break_, ?broken, ?trained, ?untrained, ?mkaLive, ?mkaDead, ?macsec, ?secured, ?request, ?requestBad, ?requestOff, ?response,
    ?responseOther, ?responseOff, ?close, ?closeOther, ?inactive, ?failed, ?failing, ?bad, ?follow, ?own, ?passing, ?foreign, ?mismatch, ?camp,
    ?missingOther, ?missingFirst, ?missingTakes, ?handoverOff, ?handoverDrops, ?handoverTakes, ?cycleOff, ?cycleFollows, ?cycleForms, ?cycleYields⟩
  case break_ => exact fun port s standing => ringLinkDown_gives port standing
  case broken => exact fun port s dead down => congrArg Host.Outcome.next (breakLink_of_down true dead down)
  case trained => exact fun port s active => ⟨_, congrArg Host.Outcome.next (if_pos active), rfl, State.modLink_frame ..⟩
  case untrained => exact fun port s off => congrArg Host.Outcome.next (if_neg off)
  case mkaLive => exact fun port peers s phy down => mkaFrame_live_gives port peers phy down
  case mkaDead => exact fun port peers s phy => mkaFrame_dead_gives port peers phy
  case macsec => exact fun port s phy sak => ringMacsecTimeout_gives port phy sak
  case secured => exact fun port s sak => ringMacsecTimeout_of_sak port sak
  case request => exact fun h f s sak good kind ok sched away => delayMeasRequest_gives sak good kind ok sched away
  case requestBad => exact fun h f s sak bad => delayMeasRequest_bad_gives sak bad
  case requestOff => exact fun l h f s off => congrArg Host.Outcome.next (if_pos (by rw [off]; rfl))
  case response => exact fun h f rt s sak good kind ok sched away => delayMeasResponse_gives sak good kind ok sched away
  case responseOther => exact fun h f rt s sak good kind away other => delayMeasResponse_mismatch_gives sak good kind away other
  case responseOff => exact fun l h f rt s off => congrArg Host.Outcome.next (if_pos (by rw [off]; rfl))
  case close => exact fun port s verify due ok same => linkClose_gives port verify due ok same
  case closeOther => exact fun port s other => linkClose_of_other port other
  case inactive => exact fun port l h f res s off => syncRefReceived_of_inactive off
  case failed => exact fun port l h f res s active failed few => syncRefReceived_failed_gives active failed few
  case failing => exact fun port l h f res s active failed many standing => syncRefReceived_break_gives active failed many standing
  case bad => exact fun port h f res s active bad => syncRefReceived_bad_gives active bad
  case follow => exact fun port h f res s join good closed sched away fresh => syncRefReceived_follow_gives join good closed sched away fresh
  case own => exact fun port h f res s join good closed sched master own ends => syncRefReceived_own_gives join good closed sched master own ends
  case passing =>
    exact fun port h f res o turned s join good closed sched master own mid out => syncRefReceived_passing_gives join good closed sched master own mid out
  case foreign =>
    exact fun port h f res s join good closed sched master other lower => syncRefReceived_foreign_gives join good closed sched master other lower
  case mismatch => exact fun port h f res s active good closed away other => syncRefReceived_mismatch_gives active good closed away other
  case camp => exact fun port h f res s active good closed camp => syncRefReceived_basecamp_gives active good closed camp
  case missingOther => exact fun s other => syncRefMissing_of_other other
  case missingFirst => exact fun s join away first => syncRefMissing_unranked_gives join away first
  case missingTakes => exact fun k s join away rank backup turn linked => syncRefMissing_takes_gives join away rank backup turn linked
  case handoverOff => exact fun s unset => masterHandover_of_none unset
  case handoverDrops => exact fun s join joined due master => masterHandover_gives join joined due master
  case handoverTakes => exact fun k s join joined due away rank lower => masterHandover_takes_gives join joined due away rank lower
  case cycleOff => exact fun s off => localCycleStart_inactive_gives off
  case cycleFollows => exact fun s active away apart => localCycleStart_follows_gives active away apart
  case cycleForms => exact fun s active forms => localCycleStart_forms_gives active forms
  case cycleYields => exact fun s active joined master yields => localCycleStart_yields_gives active joined master yields

end Sys2Proof.Machine
end

section
/-! PROOF. Frames on the ring (R225 to R227, R230, R237 to R240, R247 to R249). -/

namespace Sys2Proof.Machine

/-! ### Frames that leave the station -/

/-- A frame as it leaves where the wave turns, or does not (R242). -/
def turnedFrame (t : Bool) (f : RingFrame) : RingFrame :=
  if t then { f with hdr := { f.hdr with flags := setFlag f.hdr.flags 5 } } else f

/-- What turning leaves of a frame. -/
theorem turnedFrame_keeps (t : Bool) (f : RingFrame) : (turnedFrame t f).payload = f.payload ∧ (turnedFrame t f).hdr.typ = f.hdr.typ ∧
    (turnedFrame t f).hdr.slot = f.hdr.slot ∧ (turnedFrame t f).hdr.origin = f.hdr.origin ∧ (turnedFrame t f).hdr.src = f.hdr.src ∧
    (turnedFrame t f).hdr.wordA = f.hdr.wordA := by
  cases t <;> exact ⟨rfl, rfl, rfl, rfl, rfl, rfl⟩

theorem setFlag_getLsbD (w : Byte) {i j : Nat} (other : j ≠ i) : (setFlag w i).getLsbD j = w.getLsbD j := by
  have bit : (BitVec.ofNat 8 (2 ^ i)).getLsbD j = false := by
    rw [BitVec.getLsbD_ofNat, Nat.testBit_two_pow_of_ne (Ne.symm other), Bool.and_false]
  rw [setFlag, BitVec.getLsbD_or, bit, Bool.or_false]

theorem setFlag_getLsbD_same (w : Byte) {i : Nat} (small : i < 8) : (setFlag w i).getLsbD i = true := by
  rw [setFlag, BitVec.getLsbD_or, BitVec.getLsbD_ofNat, Nat.testBit_two_pow_self, decide_eq_true small]
  exact Bool.or_true _

theorem turnedFrame_flag (t : Bool) (f : RingFrame) {i : Nat} (other : i ≠ 5) : hdrFlag (turnedFrame t f).hdr i = hdrFlag f.hdr i := by
  cases t with
  | true => exact setFlag_getLsbD _ other
  | false => rfl

theorem State.ownFlags_ready (s : State) : (s.ownFlags false).getLsbD 7 = false := by
  unfold State.ownFlags
  cases s.rfx.arrested <;> cases decide (s.sys.mode = .basecamp) <;> rfl

section
variable {s : State} {o : Nat} {turned : Bool}

theorem transmit_wire (p : Nat) (f : RingFrame) (s : State) : (transmit p f s).ring.wire.head? = some (p, f) := by
  cases p with
  | zero => rfl
  | succ n => rfl

theorem transmitOut_wire (f : RingFrame) (out : s.ring.outPort s.ring.inPort = some (o, turned)) :
    (transmitOut f s).ring.wire.head? = some (o, turnedFrame turned f) := by
  rw [transmitOut, out]
  exact transmit_wire ..

end

/-! ### The slots that a station copies -/

/-- The copies of the slots stand as they did. -/
structure SlotsKept (s t : State) : Prop where
  slots : t.ring.slots = s.ring.slots

section
variable {s t u : State}

theorem SlotsKept.refl (s : State) : SlotsKept s s := ⟨rfl⟩

theorem SlotsKept.via (then_ : SlotsKept t u) (first : SlotsKept s t) : SlotsKept s u := ⟨then_.slots.trans first.slots⟩

theorem SlotsKept.of_frame {w : List Part} (frame : Frame w s t) (apart : Part.ring ∉ w) : SlotsKept s t :=
  ⟨congrArg RingState.slots (frame.same .ring apart)⟩

theorem SlotsKept.ite {c : Prop} [Decidable c] (yes : SlotsKept s t) (no : SlotsKept s u) : SlotsKept s (if c then t else u) := by
  split
  · exact yes
  · exact no

theorem forward_slots (p : Nat) (f : RingFrame) (s : State) : SlotsKept s (forward p f s) := by
  obtain ⟨_, _, _, ring⟩ := forward_ring p f s
  exact ⟨by rw [ring]⟩

theorem transmitOut_slots (f : RingFrame) (s : State) : SlotsKept s (transmitOut f s) := by
  obtain ⟨_, _, _, ring⟩ := transmitOut_ring f s
  exact ⟨by rw [ring]⟩

theorem accessRecord_slots (v : Nat) (host gen : U16) (x : Nat × Nat × Nat × List Byte) (s : State) : SlotsKept s (accessRecord v host gen x s) := by
  unfold accessRecord
  dsimp only
  refine .ite (.refl s) (.ite (.of_frame (staleRecord_frame ..) (by decide)) (.ite (.of_frame (writeRecord_frame ..) (by decide)) ?_))
  exact .via (t := (readRecord v x.2.2.1 x.2.1 s).1) ⟨rfl⟩ (.of_frame (readRecord_frame ..) (by decide))

theorem vzfData_slots (f : RingFrame) (s : State) : SlotsKept s (vzfData f s) :=
  .ite (.refl s) ⟨foldl_kept (fun s : State => s.ring.slots) (fun s x _ => (accessRecord_slots _ _ _ x s).slots) s⟩

theorem takeStatic_slots (k : Nat) (f : RingFrame) (s : State) : SlotsKept s (takeStatic k f s) := by
  unfold takeStatic
  split
  · exact .of_frame (slotPdusRx_frame ..) (by decide)
  · exact .ite (vzfData_slots f s) (.refl s)
  · exact .ite (.of_frame (mirrorFrame_frame ..) (by decide)) (.refl s)
  · exact .of_frame (takeHealth_frame ..) (by decide)
  · exact .refl s

theorem takeRecords_slots (v room : Nat) (s : State) : SlotsKept s (takeRecords v room s).1 := by
  unfold takeRecords
  dsimp only
  split <;> exact ⟨rfl⟩

theorem mbxSlot_slots (k : Nat) (s : State) : SlotsKept s (mbxSlot k s) := by
  unfold mbxSlot
  split
  · exact .ite (.via (transmitOut_slots ..) ⟨rfl⟩) (transmitOut_slots ..)
  · exact transmitOut_slots ..

/-- An owned slot copies nothing. -/
theorem ownSlot_slots (k : Nat) (e : SlotEntry) (s : State) : SlotsKept s (ownSlot k e s) := by
  unfold ownSlot
  dsimp only
  split
  · exact mbxSlot_slots ..
  · exact transmitOut_slots ..
  · exact .ite (.via (transmitOut_slots ..) (takeRecords_slots ..)) (transmitOut_slots ..)
  · split
    · have taken : SlotsKept s (takeBlocks e.arg 476 s).1 := .of_frame (takeBlocks_frame ..) (by decide)
      split
      · exact .via (transmitOut_slots ..) taken
      · exact .via (transmitOut_slots ..) taken
    · exact transmitOut_slots ..
  · exact .via (transmitOut_slots ..) (.ite (.of_frame (twinFault_frame _) (by decide)) (.refl s))
  · split
    · exact transmitOut_slots ..
    · exact transmitOut_slots ..
  · exact .refl s

theorem slotSend_slots (k : Nat) (s : State) : SlotsKept s (slotSend k s) := by
  unfold slotSend
  dsimp only
  split
  · exact ownSlot_slots ..
  · split
    · split
      · exact .via (transmitOut_slots ..) ⟨rfl⟩
      · exact .refl s
    · exact .refl s

theorem passStatic_slots (p : Nat) (f : RingFrame) (s : State) : SlotsKept s (passStatic p f s) := by
  unfold passStatic
  dsimp only
  exact .ite (.ite (.refl s) ⟨rfl⟩) (.ite (.refl s) (forward_slots ..))

end

/-! ### Static frames -/

section
variable {s : State} {port : Fin 2} {f : RingFrame} {o : Nat} {turned : Bool}

theorem staticFrameReceived_of_ok (active : s.ring.phase = .active) :
    exec (.staticFrameReceived port .ok f) s = .next (staticFrame port.val f (s.heardAt port)) :=
  congrArg Host.Outcome.next (if_neg (fun off => off active))

theorem State.heardAt_discard_gives (active : s.ring.phase = .active) (bad : ringBad f 2 = true) :
    Gives (.staticFrameReceived port .ok f) s (fun t =>
      (t.ring.port port.val).count.discarded = (s.ring.port port.val).count.discarded + 1 ∧ t.ring.slots = s.ring.slots ∧
      t.ring.wire = s.ring.wire ∧ Frame [.ring] s t) := by
  refine ⟨discard port.val f (s.heardAt port), (staticFrameReceived_of_ok active).trans (congrArg Host.Outcome.next (if_pos bad)), ?_, ?_, ?_,
    .via (discard_frame ..) (by decide) (s.heardAt_frame port)⟩
  · match port with | 0 | 1 => rfl
  · match port with | 0 | 1 => rfl
  · match port with | 0 | 1 => rfl

theorem State.heardAt_slots (s : State) (port : Fin 2) : (s.heardAt port).ring.slots = s.ring.slots := by match port with | 0 | 1 => rfl

theorem staticFrame_of_closed {p : Nat} (good : ringBad f 2 = false) (closed : (s.ring.port p).closed = true) :
    staticFrame p f s = passStatic p f (if s.basecamp then s else copyStatic f s) := by
  rw [staticFrame, good, closed]
  rfl

/-- A good frame on a closed link is copied and passes. -/
theorem staticFrameReceived_of_good (active : s.ring.phase = .active) (good : ringBad f 2 = false) (closed : (s.ring.port port.val).closed = true)
    (away : s.basecamp = false) :
    exec (.staticFrameReceived port .ok f) s = .next (passStatic port.val f (copyStatic f (s.heardAt port))) := by
  have there : (s.heardAt port).basecamp = false := away
  rw [staticFrameReceived_of_ok active, staticFrame_of_closed good ((s.heardAt_port port _).trans closed), there]
  rfl

theorem copyStatic_of_unset (unset : (s.ringSec.slots.getD .none f.hdr.slot.toNat).rx = false) : copyStatic f s = s := by
  unfold copyStatic
  dsimp only
  rw [unset]
  exact if_pos (by simp)

theorem copyStatic_of_known (known : (s.ring.slots.getD .reset f.hdr.slot.toNat).never = false)
    (old : later f.hdr.origin (s.ring.slots.getD .reset f.hdr.slot.toNat).origin = false) : copyStatic f s = s := by
  unfold copyStatic
  dsimp only
  rw [known, old]
  exact if_pos (by simp)

/-- The copy that a good frame leaves (R247). -/
def SlotRx.copied (f : RingFrame) (x : SlotRx) : SlotRx :=
  { x with notReady := false, relayed := hdrFlag f.hdr 6, never := false, origin := f.hdr.origin, fresh := true, stale := false
           wordA := f.hdr.wordA, payload := f.payload }

theorem copyStatic_of_fresh (joined : s.ring.joined = true) (rx : (s.ringSec.slots.getD .none f.hdr.slot.toNat).rx = true)
    (typ : (s.ringSec.slots.getD .none f.hdr.slot.toNat).ftype = f.hdr.typ.val) (ready : hdrFlag f.hdr 7 = false)
    (fresh : (s.ring.slots.getD .reset f.hdr.slot.toNat).never = true ∨
      later f.hdr.origin (s.ring.slots.getD .reset f.hdr.slot.toNat).origin = true) :
    copyStatic f s = takeStatic f.hdr.slot.toNat f (s.modRing (fun r => { r with
      slots := r.slots.set f.hdr.slot.toNat ((s.ring.slots.getD .reset f.hdr.slot.toNat).copied f) })) := by
  have counts : (!(s.ring.slots.getD .reset f.hdr.slot.toNat).never &&
      !later f.hdr.origin (s.ring.slots.getD .reset f.hdr.slot.toNat).origin) = false := by
    obtain never | late := fresh
    · rw [never]; rfl
    · rw [late]; exact Bool.and_false _
  unfold copyStatic
  dsimp only
  rw [joined, rx, decide_eq_false (not_not_intro typ), counts, if_neg (by decide), if_neg (by rw [ready]; exact Bool.false_ne_true)]
  rfl

theorem staticFrameReceived_copy_gives (active : s.ring.phase = .active) (away : s.basecamp = false) (good : ringBad f 2 = false)
    (closed : (s.ring.port port.val).closed = true) (joined : s.ring.joined = true)
    (rx : (s.ringSec.slots.getD .none f.hdr.slot.toNat).rx = true)
    (typ : (s.ringSec.slots.getD .none f.hdr.slot.toNat).ftype = f.hdr.typ.val) (ready : hdrFlag f.hdr 7 = false)
    (fresh : (s.ring.slots.getD .reset f.hdr.slot.toNat).never = true ∨
      later f.hdr.origin (s.ring.slots.getD .reset f.hdr.slot.toNat).origin = true) :
    Gives (.staticFrameReceived port .ok f) s (fun t => t.ring.slots.getD .reset f.hdr.slot.toNat =
        { s.ring.slots.getD .reset f.hdr.slot.toNat with
          notReady := false, relayed := hdrFlag f.hdr 6, never := false, origin := f.hdr.origin, fresh := true, stale := false
          wordA := f.hdr.wordA, payload := f.payload } ∧
      ∀ k, k ≠ f.hdr.slot.toNat → t.ring.slots.getD .reset k = s.ring.slots.getD .reset k) := by
  have slots := s.heardAt_slots port
  have join : (s.heardAt port).ring.joined = true := by
    obtain ⟨_, _, heard⟩ := s.heardAt_ring port
    rw [heard]
    exact joined
  have copied := copyStatic_of_fresh (s := s.heardAt port) (f := f) join rx typ ready (by rw [slots]; exact fresh)
  have set := (SlotsKept.via (passStatic_slots port.val f _) (takeStatic_slots f.hdr.slot.toNat f ((s.heardAt port).modRing (fun r => { r with
    slots := r.slots.set f.hdr.slot.toNat (((s.heardAt port).ring.slots.getD .reset f.hdr.slot.toNat).copied f) })))).slots
  refine ⟨_, staticFrameReceived_of_good active good closed away, ?_⟩
  dsimp only
  rw [copied, set, State.modRing]
  dsimp only
  rw [slots]
  exact ⟨Tbl.getD_set_same .., fun k other => Tbl.getD_set_other _ _ _ _ _ other⟩

theorem passStatic_of_mid {p : Nat} (mid : s.waveEnds p = false) (goes : srcStation f ≠ s.station ∨ hdrFlag f.hdr 6 = false) :
    passStatic p f s = forward p f s := by
  unfold passStatic
  dsimp only
  rw [mid, if_neg Bool.false_ne_true]
  refine if_neg ?_
  obtain other | unrelayed := goes
  · rw [decide_eq_false other]; exact Bool.false_ne_true
  · rw [unrelayed, Bool.and_false]; exact Bool.false_ne_true

theorem staticFrameReceived_pass_gives (active : s.ring.phase = .active) (away : s.basecamp = false) (good : ringBad f 2 = false)
    (closed : (s.ring.port port.val).closed = true) (unset : (s.ringSec.slots.getD .none f.hdr.slot.toNat).rx = false)
    (mid : s.waveEnds port.val = false) (goes : srcStation f ≠ s.station ∨ hdrFlag f.hdr 6 = false)
    (out : s.ring.outPort port.val = some (o, turned)) :
    Gives (.staticFrameReceived port .ok f) s (fun t => t.ring.wire.head? = some (o, passed f turned) ∧ t.ring.slots = s.ring.slots ∧
      t.ring.slotBuf = s.ring.slotBuf ∧ Frame [.ring] s t) := by
  have same : copyStatic f (s.heardAt port) = s.heardAt port := copyStatic_of_unset unset
  have passes : passStatic port.val f (s.heardAt port) = forward port.val f (s.heardAt port) :=
    passStatic_of_mid ((s.heardAt_waveEnds port _).trans mid) (by rw [State.heardAt_station]; exact goes)
  obtain ⟨_, _, _, ring⟩ := forward_ring port.val f (s.heardAt port)
  obtain ⟨_, _, heard⟩ := s.heardAt_ring port
  rw [heard] at ring
  refine ⟨forward port.val f (s.heardAt port), ?_, forward_wire _ ((s.heardAt_outPort port _).trans out), (congrArg RingState.slots ring :),
    (congrArg RingState.slotBuf ring :), .via (forward_frame ..) (by decide) (s.heardAt_frame port)⟩
  rw [staticFrameReceived_of_good active good closed away, same, passes]

theorem staticFrameReceived_known_gives (active : s.ring.phase = .active) (away : s.basecamp = false) (good : ringBad f 2 = false)
    (closed : (s.ring.port port.val).closed = true) (known : (s.ring.slots.getD .reset f.hdr.slot.toNat).never = false)
    (old : later f.hdr.origin (s.ring.slots.getD .reset f.hdr.slot.toNat).origin = false) :
    Gives (.staticFrameReceived port .ok f) s (fun t => t.ring.slots = s.ring.slots ∧ Frame [.ring] s t) := by
  have slots := s.heardAt_slots port
  have same : copyStatic f (s.heardAt port) = s.heardAt port := copyStatic_of_known (by rw [slots, known]) (by rw [slots, old])
  refine ⟨_, staticFrameReceived_of_good active good closed away, ?_⟩
  dsimp only
  rw [same]
  exact ⟨(passStatic_slots ..).slots.trans slots, .via (passStatic_frame ..) (by decide) (s.heardAt_frame port)⟩

theorem staticFrameReceived_camp_gives (active : s.ring.phase = .active) (camp : s.basecamp = true) (good : ringBad f 2 = false)
    (closed : (s.ring.port port.val).closed = true) (follows : s.ring.master = false) (other : srcStation f ≠ s.station)
    (out : s.ring.outPort port.val = some (o, turned)) :
    Gives (.staticFrameReceived port .ok f) s (fun t => t.ring.wire.head? = some (o, passed f turned) ∧ t.ring.slots = s.ring.slots ∧
      Frame [.ring] s t) := by
  have there : (s.heardAt port).basecamp = true := camp
  have passes : passStatic port.val f (s.heardAt port) = forward port.val f (s.heardAt port) :=
    passStatic_of_mid ((s.heardAt_waveEnds port _).trans (by rw [State.waveEnds, follows]; rfl)) (by rw [State.heardAt_station]; exact .inl other)
  refine ⟨forward port.val f (s.heardAt port), ?_, forward_wire _ ((s.heardAt_outPort port _).trans out),
    (forward_slots ..).slots.trans (s.heardAt_slots port), .via (forward_frame ..) (by decide) (s.heardAt_frame port)⟩
  rw [staticFrameReceived_of_ok active, staticFrame_of_closed good ((s.heardAt_port port _).trans closed), there, if_pos rfl, passes]

theorem staticFrameReceived_buffer_gives (active : s.ring.phase = .active) (away : s.basecamp = false) (good : ringBad f 2 = false)
    (closed : (s.ring.port port.val).closed = true) (unset : (s.ringSec.slots.getD .none f.hdr.slot.toNat).rx = false)
    (ends : s.waveEnds port.val = true) (other : srcStation f ≠ s.station) (first : hdrFlag f.hdr 6 = false) :
    Gives (.staticFrameReceived port .ok f) s (fun t => t.ring.slotBuf.get? f.hdr.slot.toNat = some f ∧ t.ring.wire = s.ring.wire ∧
      Frame [.ring] s t) := by
  have same : copyStatic f (s.heardAt port) = s.heardAt port := copyStatic_of_unset unset
  have station := s.heardAt_station port
  have buffers : passStatic port.val f (s.heardAt port) =
      (s.heardAt port).modRing (fun r => { r with slotBuf := r.slotBuf.set f.hdr.slot.toNat f }) := by
    unfold passStatic
    dsimp only
    rw [(s.heardAt_waveEnds port _).trans ends, if_pos rfl, station, decide_eq_false other, first]
    rfl
  refine ⟨(s.heardAt port).modRing (fun r => { r with slotBuf := r.slotBuf.set f.hdr.slot.toNat f }), ?_, Tbl.get?_set_same .., s.heardAt_wire port,
    .via (State.modRing_frame ..) (by decide) (s.heardAt_frame port)⟩
  rw [staticFrameReceived_of_good active good closed away, same, buffers]

end

/-! ### Dynamic frames -/

section
variable {s : State} {port : Fin 2} {f : RingFrame} {o : Nat} {turned : Bool} {l : LinkCheck}

theorem dynamicFrame_of_eth {p : Nat} (good : ringBad f 3 = false) (closed : (s.ring.port p).closed = true) (eth : f.hdr.typ.val = 9) :
    dynamicFrame p f s = passDynamic p f s := by
  have typ : ∀ n : Fin 16, n.val ≠ 9 → f.hdr.typ ≠ n := fun n other same => other (same ▸ eth)
  have nothing : takeDynamic f s = s := by
    unfold takeDynamic
    rw [decide_eq_false (typ 4 (by decide)), Bool.false_and, Bool.false_and, if_neg Bool.false_ne_true]
    exact if_neg (typ 8 (by decide))
  rw [dynamicFrame, good, closed, nothing, ite_self]
  rfl

theorem dynamicFrameReceived_of_eth (active : s.ring.phase = .active) (good : ringBad f 3 = false) (closed : (s.ring.port port.val).closed = true)
    (eth : f.hdr.typ.val = 9) :
    exec (.dynamicFrameReceived port .ok (some f)) s = .next (passDynamic port.val f (s.heardAt port)) := by
  rw [← dynamicFrame_of_eth good ((s.heardAt_port port _).trans closed) eth]
  exact congrArg Host.Outcome.next (if_neg (fun off => off active))

/-- A frame as its destination marks it (R239). -/
def State.delivered (s : State) (f : RingFrame) : RingFrame :=
  if s.isDest f then { f with hdr := { f.hdr with flags := setFlag f.hdr.flags 4 } } else f

theorem State.heardAt_isDest (s : State) (port : Fin 2) (f : RingFrame) : (s.heardAt port).isDest f = s.isDest f := by
  rw [State.isDest, State.isDest, State.heardAt_station]

theorem State.delivered_src (s : State) (f : RingFrame) : srcStation (s.delivered f) = srcStation f := by
  unfold State.delivered
  split <;> rfl

theorem passDynamic_eq {p : Nat} (away : s.basecamp = false) : passDynamic p f s =
    if s.waveEnds p then relay (s.delivered f) s
    else if decide (srcStation (s.delivered f) = s.station) && hdrFlag (s.delivered f).hdr 6 then s
    else forward p (s.delivered f) s := by
  have mark : (s.isDest f && !s.basecamp) = s.isDest f := by rw [away]; exact Bool.and_true _
  unfold passDynamic
  rw [mark]
  rfl

theorem dynamicFrameReceived_pass_gives (active : s.ring.phase = .active) (away : s.basecamp = false) (good : ringBad f 3 = false)
    (closed : (s.ring.port port.val).closed = true) (eth : f.hdr.typ.val = 9) (mid : s.waveEnds port.val = false)
    (other : srcStation f ≠ s.station) (out : s.ring.outPort port.val = some (o, turned)) :
    Gives (.dynamicFrameReceived port .ok (some f)) s (fun t => t.ring.wire.head? = some (o, passed (if s.isDest f then
        { f with hdr := { f.hdr with flags := setFlag f.hdr.flags 4 } } else f) turned) ∧ Frame [.ring] s t) := by
  have same : (s.heardAt port).delivered f = s.delivered f := by rw [State.delivered, State.heardAt_isDest]; rfl
  have passes : passDynamic port.val f (s.heardAt port) = forward port.val (s.delivered f) (s.heardAt port) := by
    rw [passDynamic_eq (s := s.heardAt port) away, (s.heardAt_waveEnds port _).trans mid, if_neg Bool.false_ne_true, same, State.delivered_src,
      State.heardAt_station, decide_eq_false other]
    rfl
  refine ⟨forward port.val (s.delivered f) (s.heardAt port), ?_, forward_wire _ ((s.heardAt_outPort port _).trans out),
    .via (forward_frame ..) (by decide) (s.heardAt_frame port)⟩
  rw [dynamicFrameReceived_of_eth active good closed eth, passes]

theorem dynamicFrameReceived_relay_gives (active : s.ring.phase = .active) (away : s.basecamp = false) (good : ringBad f 3 = false)
    (closed : (s.ring.port port.val).closed = true) (eth : f.hdr.typ.val = 9) (ends : s.waveEnds port.val = true) (elsewhere : s.isDest f = false)
    (other : srcStation f ≠ s.station) (first : hdrFlag f.hdr 6 = false) (undelivered : hdrFlag f.hdr 4 = false)
    (room : s.ring.relayBytes + frameSize f ≤ 65536) :
    Gives (.dynamicFrameReceived port .ok (some f)) s (fun t => t.ring.relayQ = s.ring.relayQ ++ [{ frame := f, waited := 0 }] ∧
      t.ring.wire = s.ring.wire ∧ Frame [.ring] s t) := by
  obtain ⟨_, _, heard⟩ := s.heardAt_ring port
  have same : (s.heardAt port).delivered f = f := by rw [State.delivered, State.heardAt_isDest, elsewhere]; rfl
  have waits : passDynamic port.val f (s.heardAt port) =
      (s.heardAt port).modRing (fun r => { r with relayQ := r.relayQ ++ [{ frame := f, waited := 0 }] }) := by
    rw [passDynamic_eq (s := s.heardAt port) away, (s.heardAt_waveEnds port _).trans ends, if_pos rfl, same, relay, State.heardAt_station,
      decide_eq_false other, first, undelivered, if_neg (by decide), heard]
    exact if_pos room
  refine ⟨_, (dynamicFrameReceived_of_eth active good closed eth).trans (congrArg Host.Outcome.next waits), ?_, s.heardAt_wire port,
    .via (State.modRing_frame ..) (by decide) (s.heardAt_frame port)⟩
  change (s.heardAt port).ring.relayQ ++ _ = _
  rw [heard]

/-! ### Own dynamic frames (R225, R237, R238) -/

theorem queueData_of_none (none_ : s.vz.vzfs.cells = []) : queueData s = s := by
  unfold queueData
  rw [none_]
  rfl

theorem appendMbx_of_quiet (n : Nat) (quiet : s.mbxWaiting = []) : appendMbx n s = s := by
  cases n with
  | zero => rfl
  | succ n => rw [appendMbx, quiet]

theorem appendOwn_of_system (joined : s.ring.joined = true) (join : s.canJoin = true) (none_ : s.vz.vzfs.cells = []) (quiet : s.mbxWaiting = [])
    (waiting : s.ring.dynOut = [(257, f)]) (follows : (appendSystem [f] s).ring.master = false) :
    appendOwn s = appendDrr (appendSystem [f] s).ring.dynOut.length (appendSystem [f] s) := by
  have own : (([(257, f)] : List (Nat × RingFrame)).filter (fun x => decide (x.1 = 257))).map (·.2) = [f] := rfl
  unfold appendOwn
  rw [joined, join, if_neg (by decide), queueData_of_none none_]
  dsimp only
  rw [appendMbx_of_quiet _ quiet, ite_self, waiting, own, follows]
  rfl

/-- The own frame leaves, and spends its minislots. -/
def dynSent (f : RingFrame) (s : State) : State :=
  appendFrame (s.sendable f) (s.modRing (fun g => { g with dynOut := g.dynOut.erase (257, f) }))

theorem appendSystem_of_room (room : minislots f ≤ s.credits) : appendSystem [f] s = dynSent f s := if_pos room

theorem appendSystem_of_full (full : s.credits < minislots f) : appendSystem [f] s = s := if_neg (Nat.not_le.mpr full)

theorem dynSent_ring (f : RingFrame) (s : State) : ∃ e w k, (dynSent f s).ring = { s.ring with
    dynOut := s.ring.dynOut.erase (257, f), spent := s.ring.spent + minislots f, east := e, west := w, wire := k } := by
  obtain ⟨e, w, k, ring⟩ := transmitOut_ring (s.sendable f) ((s.modRing (fun g => { g with dynOut := g.dynOut.erase (257, f) })).modRing
    (fun r => { r with spent := r.spent + minislots (s.sendable f) }))
  exact ⟨e, w, k, ring⟩

theorem dynamicFrameReceived_none_of_other (active : s.ring.phase = .active)
    (other : (s.ring.port port.val).closed = false ∨ s.ring.master = true ∨ s.ring.inPort ≠ port.val) :
    exec (.dynamicFrameReceived port l none) s = .next s := by
  refine congrArg Host.Outcome.next ((if_neg (fun off => off active)).trans (if_neg ?_))
  obtain open_ | master | elsewhere := other
  · rw [open_]; exact Bool.false_ne_true
  · rw [master, Bool.not_true, Bool.and_false]; exact Bool.false_ne_true
  · rw [decide_eq_false (Ne.symm elsewhere), Bool.and_false]; exact Bool.false_ne_true

theorem dynamicFrameReceived_none_of_own (active : s.ring.phase = .active) (closed : (s.ring.port port.val).closed = true)
    (follows : s.ring.master = false) (here : s.ring.inPort = port.val) :
    exec (.dynamicFrameReceived port l none) s = .next (appendOwn s) := by
  refine congrArg Host.Outcome.next ((if_neg (fun off => off active)).trans (if_pos ?_))
  rw [closed, follows, decide_eq_true here.symm]
  rfl

theorem dynamicFrameReceived_own_gives (join : s.canJoin = true) (joined : s.ring.joined = true) (closed : (s.ring.port port.val).closed = true)
    (follows : s.ring.master = false) (here : s.ring.inPort = port.val) (none_ : s.vz.vzfs.cells = []) (quiet : s.mbxWaiting = [])
    (waiting : s.ring.dynOut = [(257, f)]) (room : minislots f ≤ s.credits) (out : s.ring.outPort s.ring.inPort = some (o, turned)) :
    Gives (.dynamicFrameReceived port l none) s (fun t => t.ring.dynOut = [] ∧ t.ring.spent = s.ring.spent + minislots f ∧
      (∃ g, t.ring.wire.head? = some (o, g) ∧ g.payload = f.payload ∧ g.hdr.origin = s.ring.cycle) ∧ Frame [.ring] s t) := by
  obtain ⟨_, _, _, ring⟩ := dynSent_ring f s
  have empty : (dynSent f s).ring.dynOut = [] := by
    rw [ring]
    exact (congrArg (fun q => q.erase (257, f)) waiting).trans (List.erase_cons_head ..)
  have sends := appendSystem_of_room room
  have sent : appendOwn s = dynSent f s := by
    rw [appendOwn_of_system joined join none_ quiet waiting (by rw [sends, ring]; exact follows), sends, empty]
    rfl
  have wire : (dynSent f s).ring.wire.head? = some (o, turnedFrame turned (s.sendable f)) := transmitOut_wire _ out
  obtain ⟨payload, -, -, origin, -, -⟩ := turnedFrame_keeps turned (s.sendable f)
  refine ⟨dynSent f s, ?_, empty, by rw [ring], ⟨_, wire, payload, origin⟩,
    .via (appendFrame_frame ..) (by decide) (State.modRing_frame ..)⟩
  rw [dynamicFrameReceived_none_of_own (State.phase_of_canJoin join).1 closed follows here, sent]

theorem dynHeads_of_system (waiting : s.ring.dynOut = [(257, f)]) : s.dynHeads = [] := by
  rw [State.dynHeads, waiting]
  rfl

theorem dynamicFrameReceived_poor (join : s.canJoin = true) (joined : s.ring.joined = true) (closed : (s.ring.port port.val).closed = true)
    (follows : s.ring.master = false) (none_ : s.vz.vzfs.cells = []) (quiet : s.mbxWaiting = []) (waiting : s.ring.dynOut = [(257, f)])
    (poor : s.credits < minislots f) : exec (.dynamicFrameReceived port l none) s = .next s := by
  have active := (State.phase_of_canJoin join).1
  by_cases here : s.ring.inPort = port.val
  · have stays : appendOwn s = s := by
      have keeps := appendSystem_of_full poor
      rw [appendOwn_of_system joined join none_ quiet waiting (by rw [keeps]; exact follows), keeps, waiting, List.length_singleton, appendDrr,
        dynHeads_of_system waiting]
      rfl
    rw [dynamicFrameReceived_none_of_own active closed follows here, stays]
  · exact dynamicFrameReceived_none_of_other active (.inr (.inr here))

end

/-! ### Owned slots (R225, R235, R248, R261) -/

section
variable {s : State} {k : Fin 384} {n o : Nat} {turned : Bool}

theorem slotDue_of_out (apart : s.ring.joined = false) (away : s.basecamp = false) : exec (.slotDue k) s = .next s := by
  refine congrArg Host.Outcome.next ((if_neg ?_).trans (if_neg ?_))
  · rw [apart]; exact Bool.false_ne_true
  · rw [away]; exact Bool.false_ne_true

theorem State.canJoin_of_basecamp (camp : s.basecamp = true) : s.canJoin = false := by
  rw [State.canJoin, camp]
  exact Bool.and_false _

theorem slotDue_of_camp (camp : s.basecamp = true) (other : k.val ≠ 4) : exec (.slotDue k) s = .next s := by
  refine congrArg Host.Outcome.next ((if_neg ?_).trans (if_neg ?_))
  · rw [State.canJoin_of_basecamp camp, Bool.and_false]; exact Bool.false_ne_true
  · rw [decide_eq_false other, Bool.and_false]; exact Bool.false_ne_true

theorem slotDue_of_joined (joined : s.ring.joined = true) (join : s.canJoin = true) (scheduled : k.val < s.ringSec.nS) :
    exec (.slotDue k) s = .next (slotSend k.val (slotAge k.val s)) := by
  refine congrArg Host.Outcome.next (if_pos ?_)
  rw [joined, join, decide_eq_true scheduled]
  rfl

theorem slotAge_of_unset {k : Nat} (unset : (s.ringSec.slots.getD .none k).rx = false) : slotAge k s = s := by
  unfold slotAge
  dsimp only
  exact if_pos (by rw [unset]; rfl)

/-- The mailbox frame of port `n` and what it leaves of the port. -/
structure MbxSent (n o : Nat) (slot : U16) (l : List (List Byte)) (s t : State) : Prop where
  sent : ∃ g, t.ring.wire.head? = some (o, g) ∧ g.payload = l.flatten ∧ g.hdr.typ = 5 ∧ g.hdr.slot = slot ∧ g.hdr.wordA = BitVec.ofNat 32 n ∧
    hdrFlag g.hdr 7 = false
  port : ∀ p, s.port? n = some p → t.port? n = some { p with outq := p.outq.drop l.length }
  frame : Frame [.mbx, .ring] s t

theorem mbxSlot_sent {k : Nat} {l : List (List Byte)} (first : s.mbxWaiting.find? (fun n => decide (k = 4) == decide (n = 0)) = some n)
    (ready : (s.sys.proven || s.basecamp) = true) (takes : l = mbxTake (((s.port? n).map (·.outq)).getD []))
    (out : s.ring.outPort s.ring.inPort = some (o, turned)) : MbxSent n o (BitVec.ofNat 16 k) l s (mbxSlot k s) := by
  have sends : mbxSlot k s = transmitOut (s.mbxFrame n (BitVec.ofNat 16 k) l) (mbxSent n l s) := by
    rw [mbxSlot, first, takes]
    exact if_pos ready
  obtain ⟨payload, typ, slot, -, -, wordA⟩ := turnedFrame_keeps turned (s.mbxFrame n (BitVec.ofNat 16 k) l)
  rw [sends]
  refine ⟨⟨_, transmitOut_wire _ out, payload, typ, slot, wordA, ?_⟩, fun p open_ => ?_, .via (transmitOut_frame ..) (by decide)
    ((mbxSent_frame ..).mono (by decide))⟩
  · rw [turnedFrame_flag turned _ (by decide)]
    exact s.ownFlags_ready
  · have mbx : (transmitOut (s.mbxFrame n (BitVec.ofNat 16 k) l) (mbxSent n l s)).mbx = (mbxSent n l s).mbx :=
      (transmitOut_frame ..).same .mbx (by decide)
    have held : s.mbx.ports.get? n = some p := open_
    rw [State.port?, mbx, mbxSent, MbxState.modify, held]
    exact Tbl.get?_set_same ..

theorem slotDue_camp_gives {l : List (List Byte)} (camp : s.basecamp = true) (active : s.ring.phase = .active) (heard : s.ring.heard = true)
    (turn : s.slotOwner 4 = s.station) (first : s.mbxWaiting.find? (fun n => decide (n = 0)) = some n)
    (takes : l = mbxTake (((s.port? n).map (·.outq)).getD [])) (out : s.ring.outPort s.ring.inPort = some (o, turned)) :
    Gives (.slotDue 4) s (fun t => (∃ g, t.ring.wire.head? = some (o, g) ∧ g.payload = l.flatten ∧ g.hdr.typ = 5 ∧ g.hdr.slot = 4) ∧
      (∀ p, s.port? n = some p → t.port? n = some { p with outq := p.outq.drop l.length }) ∧ Frame [.mbx, .ring] s t) := by
  have zero : (fun n : Nat => decide (4 = 4) == decide (n = 0)) = fun n => decide (n = 0) := by
    funext n
    exact Bool.true_beq _
  obtain ⟨⟨g, head, payload, typ, slot, -, -⟩, port, frame⟩ :=
    mbxSlot_sent (k := 4) (s := s) ((congrArg s.mbxWaiting.find? zero).trans first) (by rw [camp]; exact Bool.or_true _) takes out
  refine ⟨mbxSlot 4 s, congrArg Host.Outcome.next ((if_neg ?_).trans (if_pos ?_)), ⟨g, head, payload, typ, slot⟩, port, frame⟩
  · rw [State.canJoin_of_basecamp camp, Bool.and_false]; exact Bool.false_ne_true
  · rw [camp, decide_eq_true active, heard, decide_eq_true turn]
    rfl

section
variable (joined : s.ring.joined = true) (join : s.canJoin = true) (scheduled : k.val < s.ringSec.nS)
include joined join scheduled

theorem slotDue_mbx_gives {l : List (List Byte)} (unset : (s.ringSec.slots.getD .none k.val).rx = false)
    (typ : (s.ringSec.slots.getD .none k.val).ftype = 5) (own : s.slotOwner k.val = s.station) (proven : s.sys.proven = true)
    (first : s.mbxWaiting.find? (fun n => decide (k.val = 4) == decide (n = 0)) = some n)
    (takes : l = mbxTake (((s.port? n).map (·.outq)).getD [])) (out : s.ring.outPort s.ring.inPort = some (o, turned)) :
    Gives (.slotDue k) s (fun t => (∃ g, t.ring.wire.head? = some (o, g) ∧ g.payload = l.flatten ∧ g.hdr.typ = 5 ∧
        g.hdr.wordA = BitVec.ofNat 32 n ∧ hdrFlag g.hdr 7 = false) ∧
      (∀ p, s.port? n = some p → t.port? n = some { p with outq := p.outq.drop l.length }) ∧ Frame [.mbx, .ring] s t) := by
  have sends : slotSend k.val s = mbxSlot k.val s := by
    unfold slotSend
    dsimp only
    rw [if_pos ⟨by rw [typ]; decide, own⟩, ownSlot, typ]
    rfl
  obtain ⟨⟨g, head, payload, gtyp, -, wordA, ready⟩, port, frame⟩ := mbxSlot_sent (k := k.val) first (by rw [proven]; rfl) takes out
  refine ⟨mbxSlot k.val s, ?_, ⟨g, head, payload, gtyp, wordA, ready⟩, port, frame⟩
  rw [slotDue_of_joined joined join scheduled, slotAge_of_unset unset, sends]

/-- The copy of a slot at its due point (R247, R249). -/
def SlotRx.due (warnAge : Nat) (x : SlotRx) : SlotRx :=
  let y : SlotRx := if x.fresh then { x with age := 0, fresh := false, stale := false } else { x with age := satInc 255 x.age }
  { y with stale := y.stale || (!y.never && !y.stale && decide (warnAge ≤ y.age)) }

omit joined join scheduled in
theorem SlotRx.due_age (w : Nat) (x : SlotRx) : (x.due w).age = (if x.fresh then 0 else satInc 255 x.age) ∧ (x.due w).fresh = false := by
  unfold SlotRx.due
  dsimp only
  cases fresh : x.fresh with
  | true => exact ⟨rfl, rfl⟩
  | false => exact ⟨rfl, rfl⟩

omit joined join scheduled in
theorem slotAge_slots {k : Nat} (rx : (s.ringSec.slots.getD .none k).rx = true) :
    (slotAge k s).ring.slots = s.ring.slots.set k ((s.ring.slots.getD .reset k).due s.ringSec.ageWarn) := by
  unfold slotAge
  dsimp only
  rw [rx, if_neg (by decide), apply_ite (fun t : State => t.ring.slots), raiseRing_ring, ite_self]
  rfl

theorem slotDue_copy_gives (rx : (s.ringSec.slots.getD .none k.val).rx = true) :
    Gives (.slotDue k) s (fun t => (t.ring.slots.getD .reset k.val).age = (if (s.ring.slots.getD .reset k.val).fresh then 0
        else satInc 255 (s.ring.slots.getD .reset k.val).age) ∧ (t.ring.slots.getD .reset k.val).fresh = false ∧
      (∀ j, j ≠ k.val → t.ring.slots.getD .reset j = s.ring.slots.getD .reset j) ∧
      Frame [.mbx, .log, .vz, .ch, .twin, .ring, .sig] s t) := by
  have slots := (slotSend_slots k.val (slotAge k.val s)).slots.trans (slotAge_slots rx)
  have here : (slotSend k.val (slotAge k.val s)).ring.slots.getD .reset k.val = (s.ring.slots.getD .reset k.val).due s.ringSec.ageWarn := by
    rw [slots]
    exact Tbl.getD_set_same ..
  obtain ⟨age, fresh⟩ := SlotRx.due_age s.ringSec.ageWarn (s.ring.slots.getD .reset k.val)
  refine ⟨_, slotDue_of_joined joined join scheduled, (congrArg SlotRx.age here).trans age, (congrArg SlotRx.fresh here).trans fresh,
    fun j other => ?_,
    .via (slotSend_frame ..) (by decide) ((slotAge_frame ..).mono (by decide))⟩
  rw [slots]
  exact Tbl.getD_set_other _ _ _ _ _ other

theorem slotDue_own_gives (unset : (s.ringSec.slots.getD .none k.val).rx = false) (typ : (s.ringSec.slots.getD .none k.val).ftype = 3)
    (own : s.slotOwner k.val = s.station) (proven : s.sys.proven = true) (ready : (s.ring.own.getD .reset k.val).notReady = false)
    (out : s.ring.outPort s.ring.inPort = some (o, turned)) :
    Gives (.slotDue k) s (fun t => (∃ f, t.ring.wire.head? = some (o, f) ∧ f.payload = (s.ring.own.getD .reset k.val).payload ∧
      f.hdr.slot = BitVec.ofNat 16 k.val ∧ f.hdr.origin = s.ring.cycle ∧ f.hdr.src = s.nodeId 0 ∧
      f.hdr.wordA = BitVec.ofNat 32 (s.ringSec.slots.getD .none k.val).arg ∧ hdrFlag f.hdr 7 = false) ∧ Frame [.ring] s t) := by
  have sends : slotSend k.val s = transmitOut (s.frame 0 3 0x8000 (BitVec.ofNat 16 k.val) (BitVec.ofNat 32 (s.ringSec.slots.getD .none k.val).arg) 0
      false (s.ring.own.getD .reset k.val).payload) s := by
    unfold slotSend
    dsimp only
    rw [if_pos ⟨by rw [typ]; decide, own⟩, ownSlot, typ]
    dsimp only
    rw [insertOwn, ready, proven]
    rfl
  obtain ⟨payload, -, slot, origin, src, wordA⟩ := turnedFrame_keeps turned (s.frame 0 3 0x8000 (BitVec.ofNat 16 k.val)
    (BitVec.ofNat 32 (s.ringSec.slots.getD .none k.val).arg) 0 false (s.ring.own.getD .reset k.val).payload)
  refine ⟨_, ?_, ⟨_, transmitOut_wire _ out, payload, slot, origin, src, wordA, (turnedFrame_flag turned _ (by decide)).trans s.ownFlags_ready⟩,
    transmitOut_frame ..⟩
  rw [slotDue_of_joined joined join scheduled, slotAge_of_unset unset, sends]

theorem slotDue_buffer_gives {f : RingFrame} (unset : (s.ringSec.slots.getD .none k.val).rx = false) (other : s.slotOwner k.val ≠ s.station)
    (master : s.ring.master = true) (held : s.ring.slotBuf.get? k.val = some f) (out : s.ring.outPort s.ring.inPort = some (o, turned)) :
    Gives (.slotDue k) s (fun t => t.ring.slotBuf.get? k.val = none ∧ (∃ g, t.ring.wire.head? = some (o, g) ∧ g.payload = f.payload ∧
      g.hdr.origin = f.hdr.origin ∧ hdrFlag g.hdr 6 = true) ∧ Frame [.ring] s t) := by
  have sends : slotSend k.val s = transmitOut { passed f false with hdr := { (passed f false).hdr with flags := setFlag (passed f false).hdr.flags 6 } }
      (s.modRing (fun r => { r with slotBuf := r.slotBuf.erase k.val })) := by
    unfold slotSend
    dsimp only
    rw [if_neg (fun own => other own.2), if_pos master, held]
  obtain ⟨_, _, _, ring⟩ := transmitOut_ring { passed f false with hdr := { (passed f false).hdr with flags := setFlag (passed f false).hdr.flags 6 } }
    (s.modRing (fun r => { r with slotBuf := r.slotBuf.erase k.val }))
  obtain ⟨payload, -, -, origin, -, -⟩ := turnedFrame_keeps turned
    { passed f false with hdr := { (passed f false).hdr with flags := setFlag (passed f false).hdr.flags 6 } }
  refine ⟨_, ?_, (congrArg (fun r : RingState => r.slotBuf.get? k.val) ring).trans (Tbl.get?_erase_same ..),
    ⟨_, transmitOut_wire _ out, payload, origin, (turnedFrame_flag turned _ (by decide)).trans (setFlag_getLsbD_same _ (by decide))⟩,
    .via (transmitOut_frame ..) (by decide) (State.modRing_frame ..)⟩
  rw [slotDue_of_joined joined join scheduled, slotAge_of_unset unset, sends]

end

end

/-! ### Relay (R239) and the secondary direction (R240) -/

section
variable {s : State} {port : Fin 2} {f : RingFrame}

theorem relayQueueTimeout_of_young (young : ∀ x ∈ s.ring.relayQ, x.waited < 4) : exec .relayQueueTimeout s = .next s := by
  have none_ : s.ring.relayQ.filter (fun x => decide (4 ≤ x.waited)) = [] := by
    rw [List.filter_eq_nil_iff]
    intro x mem
    rw [decide_eq_true_eq]
    exact Nat.not_le.mpr (young x mem)
  refine congrArg Host.Outcome.next (if_pos ?_)
  rw [none_]
  rfl

/-- The relay queue without the frames that have waited too long. -/
def relayCut (s : State) : State :=
  s.modRing (fun r => { r with
    relayQ := r.relayQ.filter (fun x => decide (x.waited < 4))
    relayDrops := r.relayDrops + (s.ring.relayQ.filter (fun x => decide (4 ≤ x.waited))).length
    relayDropAt := if s.ring.relayDropAt.any (fun a => decide (s.now < a + Config.ticksPerSecond)) then r.relayDropAt else some s.now })

theorem relayQueueTimeout_gives (old : ∃ x ∈ s.ring.relayQ, 4 ≤ x.waited) : Gives .relayQueueTimeout s (fun t =>
    t.ring.relayQ = s.ring.relayQ.filter (fun x => x.waited < 4) ∧
    t.ring.relayDrops = s.ring.relayDrops + (s.ring.relayQ.filter (fun x => decide (4 ≤ x.waited))).length ∧
    Frame [.mbx, .log, .vz, .ring] s t) := by
  obtain ⟨x, mem, waited⟩ := old
  have some_ : (s.ring.relayQ.filter (fun x => decide (4 ≤ x.waited))).length ≠ 0 :=
    Nat.ne_of_gt (List.length_pos_of_mem (List.mem_filter.mpr ⟨mem, decide_eq_true waited⟩))
  have cuts : relayTimeout s = if s.ring.relayDropAt.any (fun a => decide (s.now < a + Config.ticksPerSecond)) then relayCut s
      else raiseRing evt_ringRelayDrop noInst [] (relayCut s) := if_neg some_
  have ring : (relayTimeout s).ring = (relayCut s).ring := by
    rw [cuts]
    split
    · rfl
    · exact raiseRing_ring ..
  exact ⟨_, rfl, congrArg RingState.relayQ ring, congrArg RingState.relayDrops ring, relayTimeout_frame s⟩

theorem secondaryFrameReceived_of_closed {busy : Bool} (active : s.ring.phase = .active) (closed : (s.ring.port port.val).closed = true) :
    exec (.secondaryFrameReceived port .ok f busy) s = .next (secondary port.val f busy (s.heardAt port)) :=
  congrArg Host.Outcome.next (if_neg (by rw [decide_eq_false (not_not_intro active), closed]; exact Bool.false_ne_true))

theorem secondaryFrameReceived_of_off {busy : Bool} {l : LinkCheck} (off : s.ring.phase ≠ .active ∨ (s.ring.port port.val).closed = false) :
    exec (.secondaryFrameReceived port l f busy) s = .next s := by
  refine congrArg Host.Outcome.next (if_pos ?_)
  obtain inactive | open_ := off
  · rw [decide_eq_true inactive]; rfl
  · rw [open_]; exact Bool.or_true _

/-- A secondary frame that the station neither takes nor removes. -/
theorem secondary_of_passing {p : Nat} {busy : Bool} (good : ringBad f 4 = false)
    (elsewhere : ¬(f.hdr.dst.extractLsb' 14 2 = 0 ∧ (f.hdr.dst.extractLsb' 9 5).toNat = s.station)) (other : srcStation f ≠ s.station) :
    secondary p f busy s = if busy then
        if framesSize s.ring.secBuf + frameSize f ≤ 2048 then s.modRing (fun r => { r with secBuf := r.secBuf ++ [f] })
        else s.modCount p (fun c => { c with secDrop := c.secDrop + 1 })
      else
        (fun u : State => match u.ring.secOut with
          | g :: rest =>
            if loopNamed u.ring.last.loopStns then u
            else (putWire 1 g (u.modRing (fun r => { r with secOut := rest }))).modCount 1 (fun c => { c with secIn := c.secIn + 1 })
          | [] => u) ((s.ring.secBuf ++ [f]).foldl (fun s g => forward p g s) (s.modRing (fun r => { r with secBuf := [] }))) := by
  rw [secondary, good, if_neg Bool.false_ne_true, if_neg (by simpa using elsewhere)]
  exact if_neg other

variable (active : s.ring.phase = .active) (closed : (s.ring.port port.val).closed = true) (good : ringBad f 4 = false)
    (elsewhere : ¬(f.hdr.dst.extractLsb' 14 2 = 0 ∧ (f.hdr.dst.extractLsb' 9 5).toNat = s.station)) (other : srcStation f ≠ s.station)
include active closed good elsewhere other

theorem secondaryFrameReceived_hold_gives (room : framesSize s.ring.secBuf + frameSize f ≤ 2048) :
    Gives (.secondaryFrameReceived port .ok f true) s (fun t => t.ring.secBuf = s.ring.secBuf ++ [f] ∧ t.ring.wire = s.ring.wire ∧
      Frame [.ring] s t) := by
  obtain ⟨_, _, heard⟩ := s.heardAt_ring port
  have holds : secondary port.val f true (s.heardAt port) = (s.heardAt port).modRing (fun r => { r with secBuf := r.secBuf ++ [f] }) := by
    rw [secondary_of_passing good (by rw [State.heardAt_station]; exact elsewhere) (by rw [State.heardAt_station]; exact other), if_pos rfl, heard]
    exact if_pos room
  refine ⟨_, (secondaryFrameReceived_of_closed active closed).trans (congrArg Host.Outcome.next holds), ?_, s.heardAt_wire port,
    .via (State.modRing_frame ..) (by decide) (s.heardAt_frame port)⟩
  change (s.heardAt port).ring.secBuf ++ _ = _
  rw [heard]

theorem secondaryFrameReceived_drop_gives (full : 2048 < framesSize s.ring.secBuf + frameSize f) :
    Gives (.secondaryFrameReceived port .ok f true) s (fun t => t.ring.secBuf = s.ring.secBuf ∧ t.ring.wire = s.ring.wire ∧
      (t.ring.port port.val).count.secDrop = (s.ring.port port.val).count.secDrop + 1 ∧ Frame [.ring] s t) := by
  obtain ⟨_, _, heard⟩ := s.heardAt_ring port
  have drops : secondary port.val f true (s.heardAt port) = (s.heardAt port).modCount port.val (fun c => { c with secDrop := c.secDrop + 1 }) := by
    rw [secondary_of_passing good (by rw [State.heardAt_station]; exact elsewhere) (by rw [State.heardAt_station]; exact other), if_pos rfl, heard]
    exact if_neg (Nat.not_le.mpr full)
  refine ⟨_, (secondaryFrameReceived_of_closed active closed).trans (congrArg Host.Outcome.next drops), ?_, ?_, ?_,
    .via (State.modCount_frame ..) (by decide) (s.heardAt_frame port)⟩
  · match port with | 0 | 1 => rfl
  · match port with | 0 | 1 => rfl
  · match port with | 0 | 1 => rfl

theorem secondaryFrameReceived_pass_gives {o : Nat} {turned : Bool} (none_ : s.ring.secBuf = []) (quiet : s.ring.secOut = [])
    (out : s.ring.outPort port.val = some (o, turned)) :
    Gives (.secondaryFrameReceived port .ok f false) s (fun t => t.ring.wire.head? = some (o, passed f turned) ∧ t.ring.secBuf = [] ∧
      Frame [.ring] s t) := by
  obtain ⟨_, _, heard⟩ := s.heardAt_ring port
  obtain ⟨_, _, _, ring⟩ := forward_ring port.val f ((s.heardAt port).modRing (fun r => { r with secBuf := [] }))
  have buf : (s.heardAt port).ring.secBuf = [] := by rw [heard]; exact none_
  have silent : (forward port.val f ((s.heardAt port).modRing (fun r => { r with secBuf := [] }))).ring.secOut = [] := by
    rw [ring]
    change (s.heardAt port).ring.secOut = []
    rw [heard]
    exact quiet
  have passes : secondary port.val f false (s.heardAt port) = forward port.val f ((s.heardAt port).modRing (fun r => { r with secBuf := [] })) := by
    rw [secondary_of_passing good (by rw [State.heardAt_station]; exact elsewhere) (by rw [State.heardAt_station]; exact other),
      if_neg Bool.false_ne_true, buf]
    change (match (forward port.val f ((s.heardAt port).modRing (fun r => { r with secBuf := [] }))).ring.secOut with | g :: rest => _ | [] => _) = _
    rw [silent]
    rfl
  refine ⟨_, (secondaryFrameReceived_of_closed active closed).trans (congrArg Host.Outcome.next passes), forward_wire _ ?_, by rw [ring]; rfl,
    .via (forward_frame ..) (by decide) (.via (State.modRing_frame ..) (by decide) (s.heardAt_frame port))⟩
  exact (s.heardAt_outPort port _).trans out

end

/-- Settles O40: what passes is forwarded as `forward_wire` says, a copy is one entry of the slot table that nothing later in the step touches
(`SlotsKept`), and the own frames leave by `transmitOut_wire`. Stale slots, duplicates and the dynamic segment are as log entries 66, 67 and 68
take them. -/
theorem ringFramesAct : Obligations.RingFramesAct := by
  unfold Obligations.RingFramesAct
  refine ⟨?inactive, ?bad, ?copy, ?pass, ?known, ?camp, ?buffer, ?dynPass, ?dynRelay, ?own, ?ownOther, ?ownPoor, ?slotOut, ?slotCamp, ?campMbx,
    ?slotMbx,
    ?slotCopy, ?slotOwn, ?slotBuffer, ?young, ?old, ?secOff, ?secHold, ?secDrop, ?secPass, ?frames⟩
  case inactive => exact fun port l f s off => ⟨congrArg Host.Outcome.next (if_pos off), congrArg Host.Outcome.next (if_pos off),
    congrArg Host.Outcome.next (if_pos off)⟩
  case bad => exact fun port f s active bad => State.heardAt_discard_gives active bad
  case copy =>
    exact fun port f s active away good closed joined rx typ ready fresh => staticFrameReceived_copy_gives active away good closed joined rx typ ready fresh
  case pass =>
    exact fun port f o turned s active away good closed unset mid goes out => staticFrameReceived_pass_gives active away good closed unset mid goes out
  case known => exact fun port f s active away good closed known old => staticFrameReceived_known_gives active away good closed known old
  case camp =>
    exact fun port f o turned s active camp good closed follows other out => staticFrameReceived_camp_gives active camp good closed follows other out
  case buffer =>
    exact fun port f s active away good closed unset ends other first => staticFrameReceived_buffer_gives active away good closed unset ends other first
  case dynPass =>
    exact fun port f o turned s active away good closed eth mid other out => dynamicFrameReceived_pass_gives active away good closed eth mid other out
  case dynRelay =>
    exact fun port f s active away good closed eth ends elsewhere other first undelivered room =>
      dynamicFrameReceived_relay_gives active away good closed eth ends elsewhere other first undelivered room
  case own =>
    exact fun port l f o turned s join joined closed follows here none_ quiet waiting room out =>
      dynamicFrameReceived_own_gives join joined closed follows here none_ quiet waiting room out
  case ownOther => exact fun port l s active other => dynamicFrameReceived_none_of_other active other
  case ownPoor =>
    exact fun port l f s join joined closed follows none_ quiet waiting poor => dynamicFrameReceived_poor join joined closed follows none_ quiet waiting poor
  case slotOut => exact fun k s apart away => slotDue_of_out apart away
  case slotCamp => exact fun k s camp other => slotDue_of_camp camp other
  case campMbx => exact fun n o turned l s camp active heard turn first takes out => slotDue_camp_gives camp active heard turn first takes out
  case slotMbx =>
    exact fun k n o turned l s joined join scheduled unset typ own proven first takes out =>
      slotDue_mbx_gives joined join scheduled unset typ own proven first takes out
  case slotCopy => exact fun k s joined join scheduled rx => slotDue_copy_gives joined join scheduled rx
  case slotOwn =>
    exact fun k o turned s joined join scheduled unset typ own proven ready out => slotDue_own_gives joined join scheduled unset typ own proven ready out
  case slotBuffer =>
    exact fun k f o turned s joined join scheduled unset other master held out => slotDue_buffer_gives joined join scheduled unset other master held out
  case young => exact fun s young => relayQueueTimeout_of_young young
  case old => exact fun s old => relayQueueTimeout_gives old
  case secOff => exact fun port l f busy s off => secondaryFrameReceived_of_off off
  case secHold => exact fun port f s active closed good elsewhere other room => secondaryFrameReceived_hold_gives active closed good elsewhere other room
  case secDrop => exact fun port f s active closed good elsewhere other full => secondaryFrameReceived_drop_gives active closed good elsewhere other full
  case secPass =>
    exact fun port f o turned s active closed good elsewhere other none_ quiet out =>
      secondaryFrameReceived_pass_gives active closed good elsewhere other none_ quiet out
  case frames =>
    exact fun port l f g busy k s => ⟨⟨_, rfl, execStaticFrameReceived_frame port l f s _ rfl⟩,
      ⟨_, rfl, execDynamicFrameReceived_frame port l g s _ rfl⟩,
      ⟨_, rfl, execSlotDue_frame k s _ rfl⟩, ⟨_, rfl, execRelayQueueTimeout_frame s _ rfl⟩,
        ⟨_, rfl, execSecondaryFrameReceived_frame port l f busy s _ rfl⟩⟩

end Sys2Proof.Machine
end

section
/-! PROOF. The RING commands (R10, R169, R258, R265). -/

namespace Sys2Proof.Machine

section
variable {s : State} {r : Req} {p : Port} {n : Nat}

/-! ### What the bodies of the commands do -/

theorem needJoined_of_joined {f : State → State × Reply} (joined : s.ring.joined = true) : needJoined f s = f s := if_pos joined

theorem needJoined_of_apart {f : State → State × Reply} (apart : s.ring.joined = false) : needJoined f s = (s, .fail stat_ringNotJoined) :=
  if_neg (by rw [apart]; exact Bool.false_ne_true)

/-- The state once the consent command is `b`. -/
def consentSet (b : Bool) (s : State) : State := s.modRing (fun r => { r with consentCmd := b })

/-- The answer to a consent command that has been taken. -/
def consentReply (b : Bool) (s : State) : Reply := .ok (le32 (consentSet b s).consentField ++ le32 s.ring.sleepAt)

theorem consentBody_eq (give : Bool) (s : State) : consentBody give s =
    if give then if !s.sleepAllowed then (s, .fail stat_badState) else (consentSet true s, consentReply true s)
    else if s.ring.sleepAt ≠ 0 && decide ((s.ring.sleepAt - s.ring.cycle).toNat ≤ 2) then (s, .fail stat_ringSleepLate)
    else (consentSet false s, consentReply false s) := rfl

theorem consentBody_of_given (allowed : s.sleepAllowed = true) : consentBody true s = (consentSet true s, consentReply true s) := by
  rw [consentBody_eq, if_pos rfl, allowed]
  rfl

theorem consentBody_of_refused (refused : s.sleepAllowed = false) : consentBody true s = (s, .fail stat_badState) := by
  rw [consentBody_eq, if_pos rfl, refused]
  rfl

theorem consentBody_of_late (asleep : s.ring.sleepAt ≠ 0) (late : (s.ring.sleepAt - s.ring.cycle).toNat ≤ 2) :
    consentBody false s = (s, .fail stat_ringSleepLate) := by
  rw [consentBody_eq, if_neg Bool.false_ne_true, decide_eq_true asleep, decide_eq_true late]
  rfl

theorem consentBody_of_withdrawn (awake : s.ring.sleepAt = 0) : consentBody false s = (consentSet false s, consentReply false s) := by
  rw [consentBody_eq, if_neg Bool.false_ne_true, decide_eq_false (not_not_intro awake)]
  rfl

/-! ### The clauses -/

theorem ringGetStatus_answers (q : Requested s r p 0) (serves : s.sys.mode.isServing = true) :
    Answers (.ringGetStatus r) r 0x0701 stat_ok s.ringStatus s (fun u => u = s) :=
  answers_of_accepted q rfl (q.passes (decide_eq_true q.len) rfl rfl serves) rfl rfl rfl

theorem ringTopology_answers (q : Requested s r p 0) (serves : s.sys.mode.isServing = true) (joined : s.ring.joined = true) :
    Answers (.ringTopology r) r 0x0702 stat_ok s.topology s (fun u => u = s) :=
  answers_of_accepted q rfl (q.passes (decide_eq_true q.len) rfl rfl serves) (needJoined_of_joined joined) rfl rfl

theorem ringTopology_of_apart (q : Requested s r p 0) (serves : s.sys.mode.isServing = true) (apart : s.ring.joined = false) :
    Answers (.ringTopology r) r 0x0702 stat_ringNotJoined [] s (fun u => u = s) :=
  answers_of_accepted q rfl (q.passes (decide_eq_true q.len) rfl rfl serves) (needJoined_of_apart apart) rfl rfl

theorem ringDelays_answers (q : Requested s r p 0) (serves : s.sys.mode.isServing = true) (joined : s.ring.joined = true) :
    Answers (.ringDelays r) r 0x0704 stat_ok s.delayBytes s (fun u => u = s) :=
  answers_of_accepted q rfl (q.passes (decide_eq_true q.len) rfl rfl serves) (needJoined_of_joined joined) rfl rfl

theorem ringDelays_of_apart (q : Requested s r p 0) (serves : s.sys.mode.isServing = true) (apart : s.ring.joined = false) :
    Answers (.ringDelays r) r 0x0704 stat_ringNotJoined [] s (fun u => u = s) :=
  answers_of_accepted q rfl (q.passes (decide_eq_true q.len) rfl rfl serves) (needJoined_of_apart apart) rfl rfl

theorem ringSlotAge_answers {first n : U16} (q : Requested s r p 4) (serves : s.sys.mode.isServing = true) (joined : s.ring.joined = true)
    (some_ : 1 ≤ n.toNat) (fits : first.toNat + n.toNat ≤ 384) :
    Answers (.ringSlotAge r first n) r 0x0703 stat_ok ((List.range n.toNat).flatMap (fun j => s.slotAgeBytes (first.toNat + j))) s (fun u => u = s) :=
  answers_of_accepted q rfl (q.passes (decide_eq_true q.len) rfl
    (needStat_eq_none.mpr (by rw [decide_eq_true some_, decide_eq_true fits]; rfl)) serves) (needJoined_of_joined joined) rfl rfl

theorem ringSlotAge_of_outside {first n : U16} (q : Requested s r p 4) (outside : 384 < first.toNat + n.toNat) :
    Answers (.ringSlotAge r first n) r 0x0703 stat_range [] s (fun u => u = s) := by
  have out : needStat (decide (1 ≤ n.toNat) && decide (first.toNat + n.toNat ≤ 384)) stat_range = some stat_range := by
    rw [decide_eq_false (Nat.not_le.mpr outside), Bool.and_false]
    rfl
  exact answers_of_rejected q rfl (q.refused (decide_eq_true q.len) rfl out) rfl rfl

theorem ringSleepConsent_gives (q : Requested s r p 4) (system : p.sysPriv = true) (run : s.sys.mode = .run) (allowed : s.sleepAllowed = true) :
    Gives (.ringSleepConsent r 1) s (fun t => ∃ u, t = respond r 0x0705 stat_ok (le32 u.consentField ++ le32 s.ring.sleepAt) u ∧
      u.ring = { s.ring with consentCmd := true } ∧ Frame [.ring] s u) := by
  obtain ⟨u, answered, rfl⟩ := answers_of_accepted (c := .ringSleepConsent r 1) (post := fun u => u = consentSet true s) q rfl
    (q.passes (decide_eq_true q.len) (Need.check_of_sysPriv system _) rfl (decide_eq_true run)) (consentBody_of_given allowed) rfl rfl
  exact ⟨_, answered, _, rfl, rfl, State.modRing_frame ..⟩

theorem ringSleepConsent_of_refused (q : Requested s r p 4) (system : p.sysPriv = true) (run : s.sys.mode = .run) (refused : s.sleepAllowed = false) :
    Answers (.ringSleepConsent r 1) r 0x0705 stat_badState [] s (fun u => u = s) :=
  answers_of_accepted q rfl (q.passes (decide_eq_true q.len) (Need.check_of_sysPriv system _) rfl (decide_eq_true run))
    (consentBody_of_refused refused) rfl rfl

theorem ringSleepConsent_of_late (q : Requested s r p 4) (system : p.sysPriv = true) (run : s.sys.mode = .run) (asleep : s.ring.sleepAt ≠ 0)
    (late : (s.ring.sleepAt - s.ring.cycle).toNat ≤ 2) : Answers (.ringSleepConsent r 0) r 0x0705 stat_ringSleepLate [] s (fun u => u = s) :=
  answers_of_accepted q rfl (q.passes (decide_eq_true q.len) (Need.check_of_sysPriv system _) rfl (decide_eq_true run))
    (consentBody_of_late asleep late) rfl rfl

theorem ringSleepConsent_withdrawn_gives (q : Requested s r p 4) (system : p.sysPriv = true) (run : s.sys.mode = .run) (awake : s.ring.sleepAt = 0) :
    Gives (.ringSleepConsent r 0) s (fun t => ∃ u, t = respond r 0x0705 stat_ok (le32 u.consentField ++ le32 0) u ∧
      u.ring = { s.ring with consentCmd := false } ∧ Frame [.ring] s u) := by
  have reply : consentReply false s = .ok (le32 (consentSet false s).consentField ++ le32 0) := by rw [consentReply, awake]
  have body := consentBody_of_withdrawn awake
  rw [reply] at body
  obtain ⟨u, answered, rfl⟩ := answers_of_accepted (c := .ringSleepConsent r 0) (post := fun u => u = consentSet false s) q rfl
    (q.passes (decide_eq_true q.len) (Need.check_of_sysPriv system _) rfl (decide_eq_true run)) body rfl rfl
  exact ⟨_, answered, _, rfl, rfl, State.modRing_frame ..⟩

/-- The counters of the ring cleared. -/
def ringCleared (s : State) : State :=
  s.modRing (fun r => { r with
    east := { r.east with count := .zero }, west := { r.west with count := .zero }, loopBacks := 0, heals := 0, relayDrops := 0 })

theorem ringStats_answers {clear : Byte} (q : Requested s r p 4) (serves : s.sys.mode.isServing = true) (valid : clear.toNat ≤ 1) :
    Answers (.ringStats r clear) r 0x0706 stat_ok (s.ring.east.count.bytes ++ s.ring.west.count.bytes ++ n32 s.ring.loopBacks
      ++ n32 s.ring.heals ++ n32 s.ring.relayDrops) s (fun u => Frame [.ring] s u ∧ u.ring.heals = (if clear = 1 then 0 else s.ring.heals) ∧
        u.ring.east.count = (if clear = 1 then .zero else s.ring.east.count) ∧
        u.ring.west.count = (if clear = 1 then .zero else s.ring.west.count) ∧ u.ring.cycle = s.ring.cycle) := by
  have body : ringStatsBody (decide (clear = 1)) s = (if clear = 1 then ringCleared s else s, .ok (s.ring.east.count.bytes ++ s.ring.west.count.bytes
      ++ n32 s.ring.loopBacks ++ n32 s.ring.heals ++ n32 s.ring.relayDrops)) := by
    by_cases one : clear = 1
    · rw [decide_eq_true one, if_pos one]
      rfl
    · rw [decide_eq_false one, if_neg one]
      rfl
  refine answers_of_accepted q rfl (q.passes (decide_eq_true q.len) rfl (needStat_eq_none.mpr (decide_eq_true valid)) serves) body rfl ?_
  by_cases one : clear = 1
  · rw [if_pos one, if_pos one, if_pos one, if_pos one]
    exact ⟨State.modRing_frame .., rfl, rfl, rfl, rfl⟩
  · rw [if_neg one, if_neg one, if_neg one, if_neg one]
    exact ⟨.refl _ s, rfl, rfl, rfl, rfl⟩

end

/-- Settles O41: each command by what its body does in the case (`needJoined`, `consentBody`, `ringStatsBody`). -/
theorem ringCommandsAct : Obligations.RingCommandsAct := by
  unfold Obligations.RingCommandsAct
  refine ⟨?status, ?topology, ?apart, ?ages, ?agesOutside, ?delays, ?consent, ?refused, ?late, ?withdrawn, ?stats⟩
  case status => exact fun s r p q serves => ringGetStatus_answers q serves
  case topology => exact fun s r p q serves joined => ringTopology_answers q serves joined
  case apart => exact fun s r p q serves apart => ⟨ringTopology_of_apart q serves apart, ringDelays_of_apart q serves apart⟩
  case ages => exact fun s r p first n q serves joined some_ fits => ringSlotAge_answers q serves joined some_ fits
  case agesOutside => exact fun s r p first n q outside => ringSlotAge_of_outside q outside
  case delays => exact fun s r p q serves joined => ringDelays_answers q serves joined
  case consent => exact fun s r p q system run allowed => ringSleepConsent_gives q system run allowed
  case refused => exact fun s r p q system run refused => ringSleepConsent_of_refused q system run refused
  case late => exact fun s r p q system run asleep late => ringSleepConsent_of_late q system run asleep late
  case withdrawn => exact fun s r p q system run awake => ringSleepConsent_withdrawn_gives q system run awake
  case stats => exact fun s r p clear q serves valid => ringStats_answers q serves valid

end Sys2Proof.Machine
end

section
/-! PROOF. The cell memory of the switch: drops, scrubbing, audits, gates and links (R268 to R270, R276, R280, R281, R283 to R285, R292). -/

namespace Sys2Proof.Machine

/-! ### Drops and completions -/

section
variable {s : State}

theorem raisePort_esw (k : EvKind) (p : Nat) (s : State) : (raisePort k p s).esw = s.esw := raise_esw ..

/-- A completion changes the queue pairs of the switch alone. -/
theorem completeTx_esw (r : TxRef) (d : TxDone) (s : State) : ∃ q, (completeTx r d s).esw = { s.esw with qps := q } := by
  unfold completeTx
  split
  · exact ⟨_, rfl⟩
  · exact ⟨_, rfl⟩

theorem completeOpt_esw (r : Option TxRef) (d : TxDone) (s : State) : ∃ q, (completeOpt r d s).esw = { s.esw with qps := q } := by
  cases r with
  | none => exact ⟨_, rfl⟩
  | some r => exact completeTx_esw r d s

/-- A drop at a port counts there and may complete a descriptor. -/
theorem dropAt_esw (p : Nat) (why : DropWhy) (tx : Option TxRef) (s : State) : ∃ q, (dropAt p why tx s).esw =
    { s.esw with ports := s.esw.ports.modify .reset p (fun x => { x with count := { x.count with drops := x.count.drops + 1 } }), qps := q } := by
  obtain ⟨q, done⟩ := completeOpt_esw tx { status := 1, reason := why.code, stamp := 0 } (s.modSwCount p (fun c => { c with drops := c.drops + 1 }))
  exact ⟨q, done⟩

/-- The counters of a pot after a drop that is charged to it. -/
def dropCounted (why : DropWhy) (t : Pot) : Pot :=
  { t with
    dropFull := if why = .potFull then t.dropFull + 1 else t.dropFull
    dropLast := if why = .lastCell then t.dropLast + 1 else t.dropLast
    lossless := if why = .lossless then t.lossless + 1 else t.lossless
    episode := true }

/-- The event of the first drop of an episode. -/
def notePotFull (x : Stored) (first : Bool) (s : State) : State :=
  if first then raise evt_eswPotFull x.pot (s.potScope x.pot) [] s else s

/-- A drop counts in the queue pairs of the VZFs that the copies were for. -/
def countRxDrops (l : List EgressCopy) (s : State) : State :=
  l.foldl (fun s c => match c.vzf with
    | some v => if c.port = portI0 ∨ c.port = portI1 then s.modQp v 0 (fun q => { q with rxDrop := satInc 0xFFFF q.rxDrop }) else s
    | none => s) s

theorem potDrop_eq (x : Stored) (why : DropWhy) (s : State) : potDrop x why s =
    dropAt x.ingress why x.tx (countRxDrops x.copies (notePotFull x (!(s.pot x.pot).episode) (s.modPot x.pot (dropCounted why)))) := rfl

theorem notePotFull_esw (x : Stored) (first : Bool) (s : State) : (notePotFull x first s).esw = s.esw := by
  cases first with
  | true => exact raise_esw ..
  | false => rfl

theorem countRxDrops_esw (l : List EgressCopy) (s : State) : ∃ q, (countRxDrops l s).esw = { s.esw with qps := q } := by
  induction l generalizing s with
  | nil => exact ⟨_, rfl⟩
  | cons c l ih =>
    have head : ∃ q, ((match c.vzf with
        | some v => if c.port = portI0 ∨ c.port = portI1 then s.modQp v 0 (fun q => { q with rxDrop := satInc 0xFFFF q.rxDrop }) else s
        | none => s : State)).esw = { s.esw with qps := q } := by
      split
      · split
        · exact ⟨_, rfl⟩
        · exact ⟨_, rfl⟩
      · exact ⟨_, rfl⟩
    obtain ⟨q, first⟩ := head
    obtain ⟨r, rest⟩ := ih _
    exact ⟨r, rest.trans (congrArg (fun e : EswState => { e with qps := r }) first)⟩

/-- A drop that a pot is charged with: its counters, the port's and the queue pairs change. -/
theorem potDrop_esw (x : Stored) (why : DropWhy) (s : State) : ∃ q, (potDrop x why s).esw =
    { s.esw with
      pots := s.esw.pots.modify .reset x.pot (dropCounted why)
      ports := s.esw.ports.modify .reset x.ingress (fun y => { y with count := { y.count with drops := y.count.drops + 1 } })
      qps := q } := by
  obtain ⟨q, dropped⟩ := dropAt_esw x.ingress why x.tx
    (countRxDrops x.copies (notePotFull x (!(s.pot x.pot).episode) (s.modPot x.pot (dropCounted why))))
  obtain ⟨_, counted⟩ := countRxDrops_esw x.copies (notePotFull x (!(s.pot x.pot).episode) (s.modPot x.pot (dropCounted why)))
  refine ⟨q, ?_⟩
  rw [potDrop_eq, dropped, counted, notePotFull_esw]
  rfl

theorem potDrop_pot (x : Stored) (why : DropWhy) (s : State) : (potDrop x why s).pot x.pot = dropCounted why (s.pot x.pot) := by
  obtain ⟨q, dropped⟩ := potDrop_esw x why s
  exact (congrArg (fun e : EswState => e.pots.getD .reset x.pot) dropped).trans (Tbl.getD_modify_same ..)

theorem potDrop_count (x : Stored) (why : DropWhy) (s : State) : ((potDrop x why s).swp x.ingress).count.drops =
    (s.swp x.ingress).count.drops + 1 := by
  obtain ⟨q, dropped⟩ := potDrop_esw x why s
  exact (congrArg (fun e : EswState => (e.ports.getD .reset x.ingress).count.drops) dropped).trans
    (congrArg (fun y : EswPort => y.count.drops) (Tbl.getD_modify_same ..))

end

/-! ### Waiting requests and the scrubbers -/

section
variable {s : State} {p : Fin 21} {c : Fin 8} {x : Stored}

/-- Releasing a class changes the hold bits of the port alone. -/
theorem releaseHeld_esw (p t : Nat) (s : State) : ∃ q, (releaseHeld p t s).esw = { s.esw with ports := q } := by
  unfold releaseHeld
  split
  · exact ⟨_, rfl⟩
  · exact ⟨_, rfl⟩

theorem clearedBit (w : Byte) (i : Nat) (small : i < 8) : (w &&& ~~~ BitVec.ofNat 8 (2 ^ i)).getLsbD i = false := by
  rw [BitVec.getLsbD_and, BitVec.getLsbD_not, BitVec.getLsbD_ofNat, Nat.testBit_two_pow_self, decide_eq_true small]
  exact Bool.and_false _

theorem releaseHeld_held {t : Nat} (small : t < 8) (none_ : ∀ y ∈ s.esw.waiting, ¬(y.ingress = p.val ∧ y.cls = t)) :
    ((releaseHeld p.val t s).swp p.val).held.getLsbD t = false := by
  have quiet : s.esw.waiting.any (fun x => decide (x.ingress = p.val) && decide (x.cls = t)) = false :=
    List.any_eq_false.mpr (fun y here both =>
      none_ y here ⟨of_decide_eq_true (Bool.and_eq_true_iff.mp both).1, of_decide_eq_true (Bool.and_eq_true_iff.mp both).2⟩)
  rw [releaseHeld, if_neg (by rw [quiet]; exact Bool.false_ne_true), State.modSwp_same]
  exact clearedBit _ t small

/-- The request with its time over leaves the list. -/
def waitErased (x : Stored) (s : State) : State := s.modEsw (fun e => { e with waiting := e.waiting.erase x })

theorem losslessOut_of_some {t : Nat} (found : s.esw.waiting.find? (fun x => decide (x.ingress = p.val) && decide (x.cls = t)) = some x) :
    losslessOut p.val t s = releaseHeld p.val t (potDrop x .lossless (waitErased x s)) := by
  unfold losslessOut
  rw [found]
  rfl

theorem losslessTimeout_gives (found : s.esw.waiting.find? (fun x => decide (x.ingress = p.val) && decide (x.cls = c.val)) = some x) :
    Gives (.losslessTimeout p c) s (fun t => t.esw.waiting = s.esw.waiting.erase x ∧ (t.pot x.pot).lossless = (s.pot x.pot).lossless + 1 ∧
      ((∀ y ∈ s.esw.waiting.erase x, ¬(y.ingress = p.val ∧ y.cls = c.val)) → (t.swp p.val).held.getLsbD c.val = false) ∧
      Frame [.mbx, .log, .vz, .esw] s t) := by
  obtain ⟨q, released⟩ := releaseHeld_esw p.val c.val (potDrop x .lossless (waitErased x s))
  obtain ⟨_, dropped⟩ := potDrop_esw x .lossless (waitErased x s)
  have waits : (potDrop x .lossless (waitErased x s)).esw.waiting = s.esw.waiting.erase x := by rw [dropped]; rfl
  refine ⟨_, congrArg Host.Outcome.next (losslessOut_of_some found), ?_, ?_, ?_, ?_⟩
  · rw [released]
    exact waits
  · exact (congrArg (fun e : EswState => (e.pots.getD .reset x.pot).lossless) released).trans
      (congrArg Pot.lossless (potDrop_pot x .lossless (waitErased x s)))
  · exact fun others => releaseHeld_held c.isLt (by rw [waits]; exact others)
  · exact .via (releaseHeld_frame ..) (by decide) (.via (potDrop_frame ..) (by decide) (.mono (State.modEsw_frame ..) (by decide)))

theorem losslessTimeout_of_none (none_ : s.esw.waiting.find? (fun x => decide (x.ingress = p.val) && decide (x.cls = c.val)) = none) :
    exec (.losslessTimeout p c) s = .next s := by
  refine congrArg Host.Outcome.next ?_
  unfold losslessOut
  rw [none_]

/-- One cell of a plane is clean. -/
def scrubbedOne (plane : Nat) (s : State) : State :=
  s.modEsw (fun e =>
    if plane = 0 then (if e.scrub0 = 0 then e else { e with scrub0 := e.scrub0 - 1, free := e.free + 1 })
    else (if e.scrub1 = 0 then e else { e with scrub1 := e.scrub1 - 1, free := e.free + 1 }))

/-- The waiting request has its cells, and the pointer moves past its port. -/
def waitingGranted (x : Stored) (s : State) : State :=
  storeFrame x (s.modEsw (fun e => { e with waiting := e.waiting.erase x, pointer := (x.ingress + 1) % 21 }))

theorem cellScrubbed_eq (plane : Nat) (s : State) : cellScrubbed plane s =
    match nextWaiting (scrubbedOne plane s) with
    | some x => if (scrubbedOne plane s).grant x [] = .granted then releaseHeld x.ingress x.cls
      (waitingGranted x (scrubbedOne plane s)) else scrubbedOne plane s
    | none => scrubbedOne plane s := rfl

theorem nextWaiting_of_nil (none_ : s.esw.waiting = []) : nextWaiting s = none := by rw [nextWaiting, none_]; rfl

theorem nextWaiting_of_single (one : s.esw.waiting = [x]) : nextWaiting s = some x := by rw [nextWaiting, one]; rfl

theorem cellScrubbed_of_quiet {plane : Nat} (quiet : (scrubbedOne plane s).esw.waiting = []) : cellScrubbed plane s = scrubbedOne plane s := by
  rw [cellScrubbed_eq, nextWaiting_of_nil quiet]

theorem cellScrubbed_gives_0 (dirty : s.esw.scrub0 ≠ 0) (quiet : s.esw.waiting = []) : Gives (.cellScrubbed 0) s (fun t =>
    t.esw = { s.esw with scrub0 := s.esw.scrub0 - 1, free := s.esw.free + 1 } ∧ Frame [.esw] s t) := by
  have clean : (scrubbedOne 0 s).esw = { s.esw with scrub0 := s.esw.scrub0 - 1, free := s.esw.free + 1 } := if_neg dirty
  exact ⟨_, congrArg Host.Outcome.next (cellScrubbed_of_quiet (plane := 0) (by rw [clean]; exact quiet)), clean, State.modEsw_frame ..⟩

theorem cellScrubbed_gives_1 (dirty : s.esw.scrub1 ≠ 0) (quiet : s.esw.waiting = []) : Gives (.cellScrubbed 1) s (fun t =>
    t.esw = { s.esw with scrub1 := s.esw.scrub1 - 1, free := s.esw.free + 1 } ∧ Frame [.esw] s t) := by
  have clean : (scrubbedOne 1 s).esw = { s.esw with scrub1 := s.esw.scrub1 - 1, free := s.esw.free + 1 } := if_neg dirty
  exact ⟨_, congrArg Host.Outcome.next (cellScrubbed_of_quiet (plane := 1) (by rw [clean]; exact quiet)), clean, State.modEsw_frame ..⟩

/-- Shapers of the classes that begin to wait are all that the start of their credit changes. -/
theorem startCredit_eq (x : Stored) (now : Nat) (e : EswState) : ∃ h, startCredit x now e = { e with shapers := h } := by
  unfold startCredit
  induction x.copies generalizing e with
  | nil => exact ⟨_, rfl⟩
  | cons c l ih =>
    have head : ∃ h, (if e.hasQueue c.port x.cls then e
        else match e.shapers.get? (8 * c.port + x.cls) with
          | some h => { e with shapers := e.shapers.set (8 * c.port + x.cls) { h with credit := min 0 (h.now now), last := now } }
          | none => e) = { e with shapers := h } := by
      split
      · exact ⟨_, rfl⟩
      · split
        · exact ⟨_, rfl⟩
        · exact ⟨_, rfl⟩
    obtain ⟨h, first⟩ := head
    obtain ⟨g, rest⟩ := ih { e with shapers := h }
    exact ⟨g, (congrArg (fun e : EswState => l.foldl _ e) first).trans rest⟩

/-- What the pot of a stored frame is charged. -/
def chargedPot (x : Stored) (t : Pot) : Pot := { t with used := t.used + x.cells, desc := t.desc + x.copies.length, peak := max t.peak (t.used + x.cells) }

/-- The frame has its cells and descriptors and its place. -/
def frameTaken (x : Stored) (e shaped : EswState) : EswState := { shaped with
  free := e.free - x.cells, descFree := e.descFree - x.copies.length, stored := e.stored ++ [x],
  stats := { shaped.stats with switched := shaped.stats.switched + 1, flooded := if x.flooded then shaped.stats.flooded + 1 else shaped.stats.flooded } }

/-- The stored frame: cells, descriptors, its pot, its place and the counts. -/
theorem storeFrame_esw (x : Stored) (s : State) : ∃ h, (storeFrame x s).esw = { s.esw with
    pots := s.esw.pots.modify .reset x.pot (chargedPot x), shapers := h, free := s.esw.free - x.cells,
    descFree := s.esw.descFree - x.copies.length, stored := s.esw.stored ++ [x],
    stats := { s.esw.stats with switched := s.esw.stats.switched + 1, flooded := if x.flooded then s.esw.stats.flooded + 1 else s.esw.stats.flooded } } := by
  obtain ⟨h, credit⟩ := startCredit_eq x s.now (s.modPot x.pot (chargedPot x)).esw
  refine ⟨h, ?_⟩
  have shape : (storeFrame x s).esw =
      frameTaken x (s.modPot x.pot (chargedPot x)).esw (startCredit x s.now (s.modPot x.pot (chargedPot x)).esw) := rfl
  rw [shape, credit]
  rfl

theorem cellScrubbed_granted_gives (clean : s.esw.scrub0 = 0) (one : s.esw.waiting = [x]) (granted : s.grant x [] = .granted) :
    Gives (.cellScrubbed 0) s (fun t => t.esw.waiting = [] ∧ t.esw.stored = s.esw.stored ++ [x] ∧ t.esw.free = s.esw.free - x.cells ∧
      t.esw.pointer = (x.ingress + 1) % 21 ∧ Frame [.esw] s t) := by
  have same : scrubbedOne 0 s = s := congrArg (fun e : EswState => { s with esw := e }) ((if_pos clean : _ = s.esw))
  have step : cellScrubbed 0 s = releaseHeld x.ingress x.cls (waitingGranted x s) := by
    rw [cellScrubbed_eq, same, nextWaiting_of_single one]
    exact if_pos granted
  obtain ⟨q, released⟩ := releaseHeld_esw x.ingress x.cls (waitingGranted x s)
  obtain ⟨h, stored⟩ := storeFrame_esw x (s.modEsw (fun e => { e with waiting := e.waiting.erase x, pointer := (x.ingress + 1) % 21 }))
  have all : (releaseHeld x.ingress x.cls (waitingGranted x s)).esw = _ :=
    released.trans (congrArg (fun e : EswState => { e with ports := q }) stored)
  refine ⟨_, congrArg Host.Outcome.next step, ?_, ?_, ?_, ?_, ?_⟩
  · rw [all]
    exact (congrArg (fun l => l.erase x) one).trans (List.erase_cons_head ..)
  · rw [all]; rfl
  · rw [all]; rfl
  · rw [all]; rfl
  · exact .via (releaseHeld_frame ..) (by decide) (.via (storeFrame_frame ..) (by decide) (State.modEsw_frame ..))

end

/-! ### Episodes, gates, ageing and links -/

section
variable {s : State} {p : Fin 21} {k : Fin 64} {i : Fin 512} {up : Bool}

theorem potFullEpisodeEnd_gives (runs : s.esw.on = true) : Gives (.potFullEpisodeEnd k) s (fun t =>
    t.pot k.val = { s.pot k.val with episode := false } ∧ (∀ j, j ≠ k.val → t.pot j = s.pot j) ∧ Frame [.esw] s t) :=
  ⟨_, congrArg Host.Outcome.next (if_pos runs), State.modPot_same .., fun _ other => State.modPot_other _ _ _ _ other, State.modPot_frame ..⟩

theorem gateListEntry_gives (runs : s.eswOn = true) (small : i.val < 21) : Gives (.gateListEntry false i) s (fun t =>
    t.esw = { s.esw with gates := s.esw.gates.modify .open_ i.val (fun g => g.next (s.portNs i.val)) } ∧ Frame [.esw] s t) := by
  have step : (if s.eswOn && (false || decide (i.val < 21)) then gateStep false i.val s else s) = gateStep false i.val s :=
    if_pos (by rw [runs, decide_eq_true small]; rfl)
  exact ⟨_, congrArg Host.Outcome.next step, rfl, State.modEsw_frame ..⟩

theorem gateListEntry_stream_gives (runs : s.eswOn = true) : Gives (.gateListEntry true i) s (fun t =>
    t.esw = { s.esw with streamGates := s.esw.streamGates.modify .open_ i.val (fun g => g.next (s.gateNs i.val)) } ∧ Frame [.esw] s t) := by
  have step : (if s.eswOn && (true || decide (i.val < 21)) then gateStep true i.val s else s) = gateStep true i.val s :=
    if_pos (by rw [runs]; rfl)
  exact ⟨_, congrArg Host.Outcome.next step, rfl, State.modEsw_frame ..⟩

/-- The link as the event has it; a port without link has no live SAK. -/
def linkSet (up : Bool) (x : EswPort) : EswPort := { x with link := up, macsecLive := x.macsecLive && up }

theorem linkChange_of_same {p : Nat} (same : (s.swp p).link = up) : linkChange p up s = s :=
  if_pos (by rw [same]; cases up <;> exact Bool.or_true _)

theorem eswLinkChange_gives (runs : s.eswOn = true) (wired : (isP p.val || isQ p.val || isS p.val) = true) (other : (s.swp p.val).link = !up) :
    Gives (.eswLinkChange p up) s (fun t => t.swp p.val = { s.swp p.val with link := up, macsecLive := (s.swp p.val).macsecLive && up } ∧
      (∀ q, q ≠ p.val → t.swp q = s.swp q) ∧ Frame [.mbx, .log, .vz, .esw] s t) := by
  have step : linkChange p.val up s = raisePort (if up then evt_eswLinkUp else evt_eswLinkDown) p.val (s.modSwp p.val (linkSet up)) :=
    if_neg (by rw [runs, wired, other]; cases up <;> exact Bool.false_ne_true)
  have ports (q : Nat) : (raisePort (if up then evt_eswLinkUp else evt_eswLinkDown) p.val (s.modSwp p.val (linkSet up))).swp q =
      (s.modSwp p.val (linkSet up)).swp q := congrArg (fun e : EswState => e.ports.getD .reset q) (raisePort_esw ..)
  exact ⟨_, congrArg Host.Outcome.next step, (ports _).trans (State.modSwp_same ..), fun q apart => (ports q).trans
    (State.modSwp_other _ _ _ _ apart),
    .via (raisePort_frame ..) (by decide) (.mono (State.modSwp_frame ..) (by decide))⟩

theorem portMacsecTimeout_gives (runs : s.eswOn = true) (here : isP p.val = true) (secured : (s.swp p.val).rec_.macsec = true)
    (link : (s.swp p.val).link = true) (dead : (s.swp p.val).macsecLive = false) :
    Gives (.portMacsecTimeout p) s (fun t => Frame [.mbx, .log, .vz] s t) :=
  ⟨_, congrArg Host.Outcome.next (if_pos (by rw [runs, here, secured, link, dead]; rfl)), raisePort_frame ..⟩

theorem portMacsecTimeout_of_live (live : (s.swp p.val).macsecLive = true) : exec (.portMacsecTimeout p) s = .next s :=
  congrArg Host.Outcome.next (if_neg (by rw [live, Bool.not_true, Bool.and_false]; exact Bool.false_ne_true))

theorem plcaBeaconTimeout_gives (runs : s.eswOn = true) (here : isS p.val = true) (follows : (s.swp p.val).follower = true) :
    Gives (.plcaBeaconTimeout p) s (fun t => t.swp p.val = { s.swp p.val with plcaAct := false, plcaLost := true } ∧
      (∀ q, q ≠ p.val → t.swp q = s.swp q) ∧ Frame [.mbx, .log, .vz, .esw] s t) := by
  refine ⟨_, congrArg Host.Outcome.next (if_pos (by rw [runs, here, follows]; rfl)), ?_⟩
  dsimp only
  cases (s.swp p.val).plcaLost with
  | true =>
    exact ⟨State.modSwp_same .., fun q other => State.modSwp_other _ _ _ _ other, .mono (State.modSwp_frame ..) (by decide)⟩
  | false =>
    have ports (q : Nat) (u : State) : (raise evt_eswPlcaLost noInst .wide [] u).swp q = u.swp q :=
      congrArg (fun e : EswState => e.ports.getD .reset q) (raise_esw ..)
    exact ⟨(ports ..).trans (State.modSwp_same ..), fun q other => (ports ..).trans (State.modSwp_other _ _ _ _ other),
      .via (raise_frame ..) (by decide) (.mono (State.modSwp_frame ..) (by decide))⟩

theorem plcaBeaconReturn_gives (runs : s.eswOn = true) (here : isS p.val = true) (follows : (s.swp p.val).follower = true) :
    Gives (.plcaBeaconReturn p) s (fun t => t.swp p.val = { s.swp p.val with plcaAct := true, plcaLost := false } ∧
      (∀ q, q ≠ p.val → t.swp q = s.swp q) ∧ Frame [.esw] s t) :=
  ⟨_, congrArg Host.Outcome.next (if_pos (by rw [runs, here, follows]; rfl)), State.modSwp_same ..,
    fun q other => State.modSwp_other _ _ _ _ other, State.modSwp_frame ..⟩

theorem plca_of_other (other : (s.swp p.val).follower = false) :
    exec (.plcaBeaconTimeout p) s = .next s ∧ exec (.plcaBeaconReturn p) s = .next s :=
  ⟨congrArg Host.Outcome.next (if_neg (by rw [other, Bool.and_false]; exact Bool.false_ne_true)),
    congrArg Host.Outcome.next (if_neg (by rw [other, Bool.and_false]; exact Bool.false_ne_true))⟩

theorem latentErrorTest_gives {k : Fin 1024} {x : Frer} (found : s.esw.frer.get? k.val = some x) (recovers : x.rec_.kind = 2)
    (tests : flagOf x.rec_.flags 1 = true) : Gives (.latentErrorTest k true) s (fun t => Frame [.mbx, .log, .vz] s t) := by
  refine ⟨raise evt_eswFrerLatent noInst .wide [] s, congrArg Host.Outcome.next ?_, raise_frame ..⟩
  rw [found]
  exact if_pos (by rw [tests, Bool.and_true, Bool.and_true]; exact decide_eq_true recovers)

theorem latentErrorTest_of_passed (k : Fin 1024) (s : State) : exec (.latentErrorTest k false) s = .next s := by
  refine congrArg Host.Outcome.next ?_
  split
  · exact if_neg (by rw [Bool.and_false]; exact Bool.false_ne_true)
  · rfl

end

/-! ### Audits -/

section
variable {s : State} {a b : Int} {l : List LooseCell}

/-- The switch once a snapshot is taken. -/
def audited (l : List LooseCell) (s : State) : State :=
  s.modEsw (fun e => { e with
    looseBefore := e.loose, loose := l, comparing := true, auditAt := s.now
    stats := { e.stats with stalls := e.stats.stalls + bit (!e.waiting.isEmpty) } })

theorem audit_eq (a b : Int) (l : List LooseCell) (s : State) :
    audit a b l s = if s.esw.unbalanced a b then raise evt_eswBooks noInst .wide [] (audited l s) else audited l s := rfl

theorem audit_esw (a b : Int) (l : List LooseCell) (s : State) : (audit a b l s).esw = (audited l s).esw := by
  rw [audit_eq]
  split
  · exact raise_esw ..
  · rfl

theorem cellAudit_gives (runs : s.eswOn = true) : Gives (.cellAudit a b l) s (fun t => t.esw.loose = l ∧
    t.esw.looseBefore = s.esw.loose ∧ t.esw.comparing = true ∧ t.esw.auditAt = s.now ∧ t.esw.free = s.esw.free ∧
    (s.esw.unbalanced a b = false → t.log = s.log) ∧ Frame [.mbx, .log, .vz, .esw] s t) := by
  have esw := audit_esw a b l s
  refine ⟨_, congrArg Host.Outcome.next (if_pos runs), ?_, ?_, ?_, ?_, ?_, ?_, audit_frame ..⟩
  · rw [esw]; rfl
  · rw [esw]; rfl
  · rw [esw]; rfl
  · rw [esw]; rfl
  · rw [esw]; rfl
  · exact fun balanced => by
      rw [audit_eq, if_neg (by rw [balanced]; exact Bool.false_ne_true)]
      rfl

/-- Cells owned and unreferenced in both snapshots. -/
def leakedCells (s : State) : List LooseCell := s.esw.loose.filter (fun c => s.esw.looseBefore.contains c)

/-- The comparison is over and its leaks counted. -/
def compared (s : State) : State := s.modEsw (fun e => { e with comparing := false, leaks := e.leaks + (leakedCells s).length })

theorem compareDone_eq (s : State) : compareDone s = if !s.esw.comparing then s else
    match leakedCells s with
    | [] => compared s
    | c :: _ =>
      if (raise evt_cellLeak noInst .wide (n32 (leakedCells s).length ++ n32 c.cell.val) (compared s)).esw.reclaim then
        ((leakedCells s).foldl (fun s c => reclaimCell c s)
          (raise evt_cellLeak noInst .wide (n32 (leakedCells s).length ++ n32 c.cell.val) (compared s))).modEsw
          (fun e => { e with loose := e.loose.filter (fun c => !(leakedCells s).contains c) })
      else raise evt_cellLeak noInst .wide (n32 (leakedCells s).length ++ n32 c.cell.val) (compared s) := rfl

theorem leakCompareDone_of_idle (idle : s.esw.comparing = false) : exec .leakCompareDone s = .next s := by
  refine congrArg Host.Outcome.next ?_
  rw [compareDone_eq, idle]
  exact if_pos rfl

theorem leakCompareDone_gives (runs : s.esw.comparing = true) (keeps : s.esw.reclaim = false) : Gives .leakCompareDone s (fun t =>
    t.esw = { s.esw with comparing := false, leaks := s.esw.leaks + (s.esw.loose.filter (fun c => s.esw.looseBefore.contains c)).length } ∧
    Frame [.mbx, .log, .vz, .esw] s t) := by
  have esw : (compareDone s).esw = (compared s).esw := by
    rw [compareDone_eq, runs, if_neg (by exact Bool.false_ne_true)]
    split
    · rfl
    · next c _ _ =>
      rw [if_neg (by rw [raise_esw]; exact fun h => Bool.false_ne_true (keeps.symm.trans h))]
      exact raise_esw ..
  exact ⟨_, rfl, esw, compareDone_frame ..⟩

/-! ### Uncorrectable cell errors -/

/-- A free cell with an error is retired. -/
def freeRetired (s : State) : State := s.modEsw (fun e => if e.free = 0 then e else { e with free := e.free - 1, hold := e.hold + 1 })

/-- The frame that holds a bad cell is dropped and the cell retired. -/
def holderRetired (x : Stored) (s : State) : State := dropAt x.ingress .noRoute x.tx ((dropStored x s).modEsw (fun e => e.retire x.plane))

theorem cellEcc_of_none (cell : Nat) (s : State) : cellEcc cell none s = raise evt_eswCellEcc noInst .wide (n32 cell) (freeRetired s) := rfl

theorem cellEcc_of_some (cell i : Nat) {x : Stored} (held : s.esw.stored[i]? = some x) :
    cellEcc cell (some i) s = raise evt_eswCellEcc noInst .wide (n32 cell) (holderRetired x s) := by
  unfold cellEcc
  rw [Option.bind_some, held]
  rfl

section
variable {c : Fin 262144} {i : Option Nat}

theorem execCellEccError_of_on (runs : s.eswOn = true) (inside : c.val < bankCells * s.esw.nBank) :
    exec (.cellEccError c i) s = .next (cellEcc c.val i s) :=
  congrArg Host.Outcome.next (if_pos (by rw [runs, decide_eq_true inside]; rfl))

theorem cellEccError_unchanged (off : s.eswOn = false ∨ bankCells * s.esw.nBank ≤ c.val) : exec (.cellEccError c i) s = .next s := by
  refine congrArg Host.Outcome.next (if_neg ?_)
  rcases off with off | outside
  · rw [off]; exact Bool.false_ne_true
  · rw [decide_eq_false (Nat.not_lt.mpr outside), Bool.and_false]; exact Bool.false_ne_true

theorem cellEccError_free_gives (runs : s.eswOn = true) (inside : c.val < bankCells * s.esw.nBank) (room : s.esw.free ≠ 0) :
    Gives (.cellEccError c none) s (fun t => t.esw = { s.esw with free := s.esw.free - 1, hold := s.esw.hold + 1 } ∧
      Frame [.mbx, .log, .vz, .esw] s t) :=
  ⟨_, execCellEccError_of_on runs inside, (raise_esw ..).trans (if_neg room), cellEcc_frame ..⟩

end

/-- Cells of a plane that wait for its scrubber. -/
def EswState.dirty (e : EswState) (plane : Nat) : Nat := if plane = 0 then e.scrub0 else e.scrub1

theorem EswState.scrub_books (e : EswState) (plane n : Nat) : (e.scrub plane n).dirty plane = e.dirty plane + n ∧
    (e.scrub plane n).scrubbing = e.scrubbing + n ∧ (e.scrub plane n).hold = e.hold := by
  unfold EswState.scrub EswState.dirty EswState.scrubbing
  split
  · exact ⟨rfl, Nat.add_right_comm .., rfl⟩
  · exact ⟨rfl, (Nat.add_assoc ..).symm, rfl⟩

theorem EswState.retire_books (e : EswState) (plane : Nat) (pos : 1 ≤ e.dirty plane) :
    (e.retire plane).scrubbing + 1 = e.scrubbing ∧ (e.retire plane).hold = e.hold + 1 ∧ (e.retire plane).stored = e.stored := by
  by_cases zero : plane = 0
  · have full : 1 ≤ e.scrub0 := Nat.le_trans pos (Nat.le_of_eq (if_pos zero))
    rw [EswState.retire, if_pos zero, if_neg (Nat.one_le_iff_ne_zero.mp full)]
    refine ⟨?_, rfl, rfl⟩
    show e.scrub0 - 1 + e.scrub1 + 1 = e.scrub0 + e.scrub1
    omega
  · have full : 1 ≤ e.scrub1 := Nat.le_trans pos (Nat.le_of_eq (if_neg zero))
    rw [EswState.retire, if_neg zero, if_neg (Nat.one_le_iff_ne_zero.mp full)]
    refine ⟨?_, rfl, rfl⟩
    show e.scrub0 + (e.scrub1 - 1) + 1 = e.scrub0 + e.scrub1
    omega

/-- The drop of a stored frame, as the scrubbers and the place of the frame see it. -/
theorem dropStored_books (x : Stored) (s : State) : (dropStored x s).esw.dirty x.plane = s.esw.dirty x.plane + x.cells ∧
    (dropStored x s).esw.scrubbing = s.esw.scrubbing + x.cells ∧ (dropStored x s).esw.hold = s.esw.hold ∧
    (dropStored x s).esw.stored = s.esw.stored.erase x := by
  obtain ⟨dirty, scrubbing, hold⟩ :=
    (s.modPot x.pot (fun t => { t with desc := t.desc - x.copies.length, used := t.used - x.cells })).esw.scrub_books x.plane x.cells
  exact ⟨dirty, scrubbing, hold, rfl⟩

theorem holderRetired_books (x : Stored) (s : State) (pos : 1 ≤ x.cells) : (holderRetired x s).esw.stored = s.esw.stored.erase x ∧
    (holderRetired x s).esw.hold = s.esw.hold + 1 ∧ (holderRetired x s).esw.scrubbing + 1 = s.esw.scrubbing + x.cells := by
  obtain ⟨dirty, scrubbing, hold, stored⟩ := dropStored_books x s
  obtain ⟨retScrubbing, retHold, retStored⟩ := (dropStored x s).esw.retire_books x.plane (by rw [dirty]; omega)
  obtain ⟨q, dropped⟩ := dropAt_esw x.ingress .noRoute x.tx ((dropStored x s).modEsw (fun e => e.retire x.plane))
  rw [holderRetired, dropped]
  exact ⟨retStored.trans stored, retHold.trans (congrArg (· + 1) hold), retScrubbing.trans scrubbing⟩

theorem cellEccError_held_gives {c : Fin 262144} {i : Nat} {x : Stored} (runs : s.eswOn = true) (inside : c.val < bankCells * s.esw.nBank)
    (held : s.esw.stored[i]? = some x) (pos : 1 ≤ x.cells) :
    Gives (.cellEccError c (some i)) s (fun t => t.esw.stored = s.esw.stored.erase x ∧ t.esw.hold = s.esw.hold + 1 ∧
      t.esw.scrubbing + 1 = s.esw.scrubbing + x.cells ∧ Frame [.mbx, .log, .vz, .esw] s t) := by
  obtain ⟨stored, hold, scrubbing⟩ := holderRetired_books x s pos
  have esw : (cellEcc c.val (some i) s).esw = (holderRetired x s).esw := by
    rw [cellEcc_of_some _ _ held]
    exact raise_esw ..
  refine ⟨_, execCellEccError_of_on runs inside, ?_, ?_, ?_, cellEcc_frame ..⟩
  · rw [esw]
    exact stored
  · rw [esw]
    exact hold
  · rw [esw]
    exact scrubbing

end

end Sys2Proof.Machine
end

section
/-! PROOF. The crossbar of the switch (R277). -/

namespace Sys2Proof.Machine

/-! ### The round robin -/

theorem nodup_eraseDups {α : Type} [BEq α] [LawfulBEq α] (l : List α) : l.eraseDups.Nodup := by
  induction n : l.length using Nat.strongRecOn generalizing l with
  | _ n ih =>
    cases l with
    | nil => exact List.nodup_nil
    | cons a r =>
      rw [List.eraseDups_cons, List.nodup_cons]
      refine ⟨fun here => ?_, ih _ (n ▸ Nat.lt_succ_of_le (List.length_filter_le ..)) _ rfl⟩
      have other := (List.mem_filter.mp (List.mem_eraseDups.mp here)).2
      rw [beq_self_eq_true] at other
      exact Bool.false_ne_true other

/-- One comparison of the search for the highest rank: the first of the highest stays. -/
def keepHigher (rank : Xfer → Nat) (b : Option Xfer) (r : Xfer) : Option Xfer :=
  match b with
  | some y => if rank y < rank r then some r else b
  | none => some r

/-- The rank of a request: its class, then how near its port is to the pointer. -/
def xferRank (port : Xfer → Nat) (ptr : Nat) (r : Xfer) : Nat := 21 * r.cls + 20 - (port r + 21 - ptr % 21) % 21

theorem roundRobin_eq (port : Xfer → Nat) (ptr : Nat) (l : List Xfer) : roundRobin port ptr l = l.foldl (keepHigher (xferRank port ptr)) none := rfl

theorem keepHigher_some (rank : Xfer → Nat) (b : Option Xfer) (r : Xfer) : ∃ z, keepHigher rank b r = some z ∧ (z = r ∨ b = some z) ∧
    rank r ≤ rank z ∧ ∀ y, b = some y → rank y ≤ rank z := by
  cases b with
  | none => exact ⟨r, rfl, .inl rfl, Nat.le_refl _, fun _ absurd_ => (Option.some_ne_none _ absurd_.symm).elim⟩
  | some y =>
    by_cases higher : rank y < rank r
    · exact ⟨r, if_pos higher, .inl rfl, Nat.le_refl _, fun z same => Option.some.inj same ▸ Nat.le_of_lt higher⟩
    · exact ⟨y, if_neg higher, .inr rfl, Nat.le_of_not_lt higher, fun z same => Option.some.inj same ▸ Nat.le_refl _⟩

/-- The search from `b` ends with `b` or a member, of the highest rank. -/
theorem foldl_keepHigher (rank : Xfer → Nat) (l : List Xfer) (b : Option Xfer) (r : Xfer) (found : l.foldl (keepHigher rank) b = some r) :
    (b = some r ∨ r ∈ l) ∧ ∀ y, (b = some y ∨ y ∈ l) → rank y ≤ rank r := by
  induction l generalizing b with
  | nil =>
    refine ⟨.inl found, fun y from_ => ?_⟩
    rcases from_ with start | none_
    · exact Option.some.inj (found.symm.trans start) ▸ Nat.le_refl _
    · exact (List.not_mem_nil none_).elim
  | cons x l ih =>
    obtain ⟨z, step, origin, above, beyond⟩ := keepHigher_some rank b x
    obtain ⟨from_, highest⟩ := ih (keepHigher rank b x) found
    have top : rank z ≤ rank r := highest z (.inl step)
    refine ⟨?_, fun y place => ?_⟩
    · rcases from_ with start | member
      · obtain rfl : z = r := Option.some.inj (step.symm.trans start)
        exact origin.elim (fun same => .inr (same ▸ List.mem_cons_self)) .inl
      · exact .inr (List.mem_cons_of_mem x member)
    · rcases place with start | member
      · exact Nat.le_trans (beyond y start) top
      · rcases List.mem_cons.mp member with rfl | later
        · exact Nat.le_trans above top
        · exact highest y (.inr later)

theorem roundRobin_mem {port : Xfer → Nat} {ptr : Nat} {l : List Xfer} {r : Xfer} (found : roundRobin port ptr l = some r) : r ∈ l :=
  (foldl_keepHigher _ l none r found).1.resolve_left (Option.some_ne_none r ∘ Eq.symm)

theorem roundRobin_highest (port : Xfer → Nat) (ptr : Nat) (l : List Xfer) (r : Xfer) (found : roundRobin port ptr l = some r) :
    r ∈ l ∧ (∀ y ∈ l, y.cls ≤ r.cls ∧ (y.cls = r.cls → (port r + 21 - ptr % 21) % 21 ≤ (port y + 21 - ptr % 21) % 21)) := by
  refine ⟨roundRobin_mem found, fun y here => ?_⟩
  have rank : xferRank port ptr y ≤ xferRank port ptr r := (foldl_keepHigher _ l none r found).2 y (.inr here)
  have nearR := Nat.mod_lt (port r + 21 - ptr % 21) (show 0 < 21 by decide)
  have nearY := Nat.mod_lt (port y + 21 - ptr % 21) (show 0 < 21 by decide)
  unfold xferRank at rank
  generalize (port r + 21 - ptr % 21) % 21 = dr at *
  generalize (port y + 21 - ptr % 21) % 21 = dy at *
  exact ⟨by omega, fun same => by omega⟩

/-! ### A match -/

/-- The grants of the egress ports. -/
def EswState.grants (e : EswState) (plane : Nat) (l : List Xfer) : List Xfer :=
  (l.map (·.egress)).eraseDups.filterMap (fun o =>
    roundRobin (·.ingress) (e.grantPtr.getD 0 (21 * plane + o)) (l.filter (fun r => decide (r.egress = o))))

theorem EswState.matchOnce_eq (e : EswState) (plane : Nat) (l : List Xfer) : e.matchOnce plane l =
    ((e.grants plane l).map (·.ingress)).eraseDups.filterMap (fun i =>
      roundRobin (·.egress) (e.acceptPtr.getD 0 (21 * plane + i)) ((e.grants plane l).filter (fun r => decide (r.ingress = i)))) := rfl

/-- What a port picks among its own requests is one of them. -/
theorem pick_mem {port : Xfer → Nat} {ptr n : Nat} {key : Xfer → Nat} {l : List Xfer} {r : Xfer}
    (found : roundRobin port ptr (l.filter (fun r => decide (key r = n))) = some r) : r ∈ l ∧ key r = n := by
  obtain ⟨here, own⟩ := List.mem_filter.mp (roundRobin_mem found)
  exact ⟨here, of_decide_eq_true own⟩

/-- Picks of different ports differ in the port. -/
theorem picks_pairwise {keys : List Nat} {pick : Nat → Option Xfer} {key : Xfer → Nat} (once : keys.Nodup)
    (own : ∀ n r, pick n = some r → key r = n) :
    (keys.filterMap pick).Pairwise (fun a b => key a ≠ key b) :=
  List.pairwise_filterMap.mpr (once.imp (fun apart _ pa _ pb same => apart ((own _ _ pa).symm.trans (same.trans (own _ _ pb)))))

theorem EswState.grants_mem {e : EswState} {plane : Nat} {l : List Xfer} {r : Xfer} (here : r ∈ e.grants plane l) : r ∈ l := by
  obtain ⟨o, -, found⟩ := List.mem_filterMap.mp here
  exact (pick_mem found).1

/-- An egress port grants one request. -/
theorem EswState.grants_egress {e : EswState} {plane : Nat} {l : List Xfer} {a b : Xfer} (ha : a ∈ e.grants plane l) (hb : b ∈ e.grants plane l)
    (same : a.egress = b.egress) : a = b := by
  obtain ⟨m, -, foundA⟩ := List.mem_filterMap.mp ha
  obtain ⟨n, -, foundB⟩ := List.mem_filterMap.mp hb
  obtain rfl : m = n := (pick_mem foundA).2.symm.trans (same.trans (pick_mem foundB).2)
  exact Option.some.inj (foundA.symm.trans foundB)

theorem EswState.matchOnce_mem {e : EswState} {plane : Nat} {l : List Xfer} {r : Xfer} (here : r ∈ e.matchOnce plane l) : r ∈ e.grants plane l := by
  rw [EswState.matchOnce_eq] at here
  obtain ⟨i, -, found⟩ := List.mem_filterMap.mp here
  exact (pick_mem found).1

theorem EswState.matchOnce_matches (e : EswState) (plane : Nat) (l : List Xfer) : (∀ r ∈ e.matchOnce plane l, r ∈ l) ∧
    (e.matchOnce plane l).Pairwise (fun a b => a.ingress ≠ b.ingress ∧ a.egress ≠ b.egress) := by
  refine ⟨fun r here => EswState.grants_mem (EswState.matchOnce_mem here), ?_⟩
  have ingress : (e.matchOnce plane l).Pairwise (fun a b => a.ingress ≠ b.ingress) :=
    picks_pairwise (nodup_eraseDups _) (fun _ _ found => (pick_mem found).2)
  refine ingress.imp_of_mem (fun ha hb apart => ⟨apart, fun same => apart ?_⟩)
  rw [EswState.grants_egress (EswState.matchOnce_mem ha) (EswState.matchOnce_mem hb) same]

/-! ### Cell times -/

/-- The crossbar changed the places of cells, its pointers and its count alone. -/
def Crossed (e f : EswState) : Prop :=
  f = { e with stored := f.stored, grantPtr := f.grantPtr, acceptPtr := f.acceptPtr, crossed := f.crossed }

theorem Crossed.refl (e : EswState) : Crossed e e := rfl

theorem Crossed.trans {e f g : EswState} (first : Crossed e f) (then_ : Crossed f g) : Crossed e g := by
  unfold Crossed at *
  rw [then_, first]

theorem Crossed.foldl {α : Type} {f : EswState → α → EswState} {l : List α} (e : EswState) (each : ∀ e x, Crossed e (f e x)) :
    Crossed e (l.foldl f e) := by
  induction l generalizing e with
  | nil => exact .refl e
  | cons x l ih => exact (each e x).trans (ih _)

theorem moveCell_crossed (e : EswState) (plane : Nat) (r : Xfer) : Crossed e (e.moveCell plane r) := by
  unfold EswState.moveCell
  split
  · exact .refl e
  · exact rfl

/-- The pointers pass a match of the first round. -/
def passPointers (plane : Nat) (e : EswState) (r : Xfer) : EswState := { e with
  grantPtr := e.grantPtr.set (21 * plane + r.egress) ((r.ingress + 1) % 21)
  acceptPtr := e.acceptPtr.set (21 * plane + r.ingress) ((r.egress + 1) % 21) }

/-- The matches of the first two rounds, and of all three. -/
def EswState.twoRounds (e : EswState) (plane : Nat) (l : List Xfer) : List Xfer :=
  e.matchOnce plane l ++ e.matchOnce plane (unmatched (e.matchOnce plane l) l)
def EswState.rounds (e : EswState) (plane : Nat) (l : List Xfer) : List Xfer :=
  e.twoRounds plane l ++ e.matchOnce plane (unmatched (e.twoRounds plane l) l)

theorem EswState.cellTime_eq (e : EswState) (plane : Nat) : e.cellTime plane =
    (e.rounds plane (e.requests plane)).foldl (fun e r => e.moveCell plane r)
    ((e.matchOnce plane (e.requests plane)).foldl (passPointers plane) e) := rfl

theorem cellTime_crossed (e : EswState) (plane : Nat) : Crossed e (e.cellTime plane) :=
  (Crossed.foldl (f := passPointers plane) e (fun _ _ => rfl)).trans (.foldl _ (fun e r => moveCell_crossed e plane r))

theorem cross_crossed (n : Nat) (e : EswState) : Crossed e (EswState.cross n e) := by
  induction n generalizing e with
  | zero => exact .refl e
  | succ n ih =>
    rw [EswState.cross]
    split
    · exact .refl e
    · exact ((cellTime_crossed e 0).trans (cellTime_crossed _ 1)).trans (ih _)

theorem crossbar_eq (s : State) (e : EswState) (h : e = (crossbar s).esw) : crossbar s = { s with esw := { s.esw with
    stored := e.stored, grantPtr := e.grantPtr, acceptPtr := e.acceptPtr, crossed := e.crossed } } := by
  subst h
  exact congrArg (fun e : EswState => { s with esw := e }) (cross_crossed s.esw.cellsLeft s.esw)

theorem crossbar_of_empty {s : State} (none_ : s.esw.cellsLeft = 0) : crossbar s = s := by
  have same : EswState.cross s.esw.cellsLeft s.esw = s.esw := by rw [none_]; rfl
  exact congrArg (fun e : EswState => { s with esw := e }) same

theorem EswState.matchOnce_nil (e : EswState) (plane : Nat) : e.matchOnce plane [] = [] := rfl

theorem cellTime_of_quiet (e : EswState) (plane : Nat) (quiet : e.requests plane = []) : e.cellTime plane = e := by
  rw [EswState.cellTime_eq, quiet]
  rfl

/-! ### One frame alone -/

section
variable {e : EswState} {x : Stored} {c : EgressCopy}

/-- The request of a frame with one copy. -/
def loneRequest (x : Stored) (c : EgressCopy) : Xfer := { ingress := x.ingress, egress := c.port, cls := x.cls }

/-- The frame with its copy after a cell has crossed. -/
def movedFrame (e : EswState) (x : Stored) (c : EgressCopy) : Stored :=
  { x with copies := [{ c with left := c.left - 1, order := if c.left = 1 then e.crossed + 1 else c.order }] }

theorem requests_lone (stored : e.stored = [x]) (copy : x.copies = [c]) (waits : c.left ≠ 0) : e.requests x.plane = [loneRequest x c] := by
  simp [EswState.requests, stored, copy, waits, loneRequest, List.eraseDups_cons]

theorem requests_other {plane : Nat} (stored : e.stored = [x]) (other : x.plane ≠ plane) : e.requests plane = [] := by
  simp [EswState.requests, stored, other]

theorem matchOnce_lone (e : EswState) (plane : Nat) (r : Xfer) : e.matchOnce plane [r] = [r] := by
  have picked (port : Xfer → Nat) (ptr : Nat) : roundRobin port ptr [r] = some r := rfl
  have grants : e.grants plane [r] = [r] := by simp [EswState.grants, picked, List.eraseDups_cons]
  rw [EswState.matchOnce_eq, grants]
  simp [picked, List.eraseDups_cons]

theorem unmatched_lone (r : Xfer) : unmatched [r] [r] = [] := by simp [unmatched]

theorem rounds_lone (e : EswState) (plane : Nat) (r : Xfer) : e.rounds plane [r] = [r] := by
  have two : e.twoRounds plane [r] = [r] := by
    rw [EswState.twoRounds, matchOnce_lone, unmatched_lone]
    rfl
  rw [EswState.rounds, two, unmatched_lone]
  rfl

theorem moveCell_lone (stored : e.stored = [x]) (copy : x.copies = [c]) (waits : c.left ≠ 0) :
    (e.moveCell x.plane (loneRequest x c)).stored = [movedFrame e x c] ∧ (e.moveCell x.plane (loneRequest x c)).crossed = e.crossed + 1 := by
  have here : c.waits (loneRequest x c).egress = true := by simp [EgressCopy.waits, loneRequest, waits]
  have voq : e.voq x.plane (loneRequest x c) = [x] := by
    have any : x.copies.any (·.waits (loneRequest x c).egress) = true := by rw [copy]; exact Bool.or_eq_true_iff.mpr (.inl here)
    have mine : (decide (x.plane = x.plane) && decide (x.ingress = (loneRequest x c).ingress) && decide (x.cls = (loneRequest x c).cls) &&
        x.copies.any (·.waits (loneRequest x c).egress)) = true := by
      rw [any, Bool.and_true, loneRequest, decide_eq_true rfl]
      exact Bool.and_eq_true_iff.mpr ⟨decide_eq_true rfl, decide_eq_true rfl⟩
    rw [EswState.voq, stored]
    exact List.filter_eq_self.mpr (fun y here => List.mem_singleton.mp here ▸ mine)
  have copies : x.copies.map (fun c' => if c'.waits (loneRequest x c).egress then
      { c' with left := c'.left - 1, order := if c'.left = 1 then e.crossed + 1 else c'.order } else c') = (movedFrame e x c).copies := by
    rw [copy]
    exact congrArg (fun c' => [c']) (if_pos here)
  unfold EswState.moveCell
  rw [voq]
  dsimp only
  rw [copies, stored]
  exact ⟨by simp [movedFrame], rfl⟩

theorem cellTime_lone (stored : e.stored = [x]) (copy : x.copies = [c]) (waits : c.left ≠ 0) :
    (e.cellTime x.plane).stored = [movedFrame e x c] ∧ (e.cellTime x.plane).crossed = e.crossed + 1 := by
  rw [EswState.cellTime_eq, requests_lone stored copy waits, rounds_lone, matchOnce_lone]
  exact moveCell_lone (e := passPointers x.plane e (loneRequest x c)) stored copy waits

/-- A cell time of both planes moves one cell of the frame. -/
theorem cellTimes_lone (stored : e.stored = [x]) (copy : x.copies = [c]) (plane : x.plane < 2) (waits : c.left ≠ 0) :
    ((e.cellTime 0).cellTime 1).stored = [movedFrame e x c] ∧ ((e.cellTime 0).cellTime 1).crossed = e.crossed + 1 := by
  have moved := cellTime_lone stored copy waits
  obtain first | second : x.plane = 0 ∨ x.plane = 1 := by omega
  · rw [first] at moved
    rw [cellTime_of_quiet (e.cellTime 0) 1 (requests_other moved.1 (by show x.plane ≠ 1; rw [first]; decide))]
    exact moved
  · rw [second] at moved
    rw [cellTime_of_quiet e 0 (requests_other stored (by rw [second]; decide))]
    exact moved

/-- The frame with its copy wholly across. -/
def crossedFrame (e : EswState) (x : Stored) (c : EgressCopy) : Stored := { x with copies := [{ c with left := 0, order := e.crossed + c.left }] }

theorem cross_succ (n : Nat) (waits : e.requests x.plane ≠ []) (plane : x.plane < 2) :
    EswState.cross (n + 1) e = EswState.cross n ((e.cellTime 0).cellTime 1) := by
  rw [EswState.cross]
  refine if_neg (fun both => waits ?_)
  obtain ⟨first, second⟩ := Bool.and_eq_true_iff.mp both
  obtain zero | one : x.plane = 0 ∨ x.plane = 1 := by omega
  · exact zero ▸ List.isEmpty_iff.mp first
  · exact one ▸ List.isEmpty_iff.mp second

theorem cross_lone (n : Nat) (stored : e.stored = [x]) (copy : x.copies = [c]) (plane : x.plane < 2) (waits : c.left = n + 1) :
    (EswState.cross (n + 1) e).stored = [crossedFrame e x c] := by
  have some_ : c.left ≠ 0 := by omega
  obtain ⟨moved, count⟩ := cellTimes_lone stored copy plane some_
  rw [cross_succ (x := x) n (by rw [requests_lone stored copy some_]; exact List.cons_ne_nil _ _) plane]
  induction n generalizing e x c with
  | zero =>
    rw [EswState.cross, moved, movedFrame, if_pos waits, crossedFrame, waits]
  | succ n ih =>
    have left : ({ c with left := c.left - 1, order := if c.left = 1 then e.crossed + 1 else c.order } : EgressCopy).left = n + 1 := by
      show c.left - 1 = n + 1
      omega
    have more : ({ c with left := c.left - 1, order := if c.left = 1 then e.crossed + 1 else c.order } : EgressCopy).left ≠ 0 := by omega
    obtain ⟨movedNext, countNext⟩ := cellTimes_lone (x := movedFrame e x c) moved rfl plane more
    rw [cross_succ (x := movedFrame e x c) n (by rw [requests_lone (x := movedFrame e x c) moved rfl more]; exact List.cons_ne_nil _ _) plane]
    refine (ih (x := movedFrame e x c) moved rfl plane left more movedNext countNext).trans ?_
    have order : ((e.cellTime 0).cellTime 1).crossed + (c.left - 1) = e.crossed + c.left := by rw [count]; omega
    exact congrArg (fun n => [{ x with copies := [{ c with left := 0, order := n }] }]) order

theorem crossbar_lone {s : State} (stored : s.esw.stored = [x]) (copy : x.copies = [c]) (plane : x.plane < 2) (waits : c.left ≠ 0) :
    (crossbar s).esw.stored = [{ x with copies := [{ c with left := 0, order := s.esw.crossed + c.left }] }] := by
  have cells : s.esw.cellsLeft = c.left := by simp [EswState.cellsLeft, stored, copy]
  obtain ⟨n, left⟩ := Nat.exists_eq_succ_of_ne_zero waits
  show (EswState.cross s.esw.cellsLeft s.esw).stored = _
  rw [cells, left]
  exact (cross_lone n stored copy plane left).trans (by rw [crossedFrame, left])

end

end Sys2Proof.Machine
end

section
/-! PROOF. Frames into and out of the switch (R269, R271, R276, R285). -/

namespace Sys2Proof.Machine

/-! ### A frame that a port takes -/

section
variable {s : State} {p : Fin 21} {f : EthFrame} {st : Fin 32} {rv : List Rival}

theorem frameIngress_unchanged (ck : PortCheck) (off : s.eswOn = false ∨ (s.swp p.val).rec_.en = false ∨ p.val = portI0 ∨ p.val = portI1) :
    exec (.frameIngress p ck f st rv) s = .next s := by
  refine congrArg Host.Outcome.next ?_
  unfold frameIn
  rcases off with off | off | inner
  · exact if_pos (by rw [off]; rfl)
  · exact if_pos (by rw [off]; exact Bool.or_true _)
  · exact ite_eq_left_iff.mpr (fun _ => if_pos inner)

/-- The port has counted the frame. -/
def rxCounted (p : Nat) (f : EthFrame) (s : State) : State :=
  s.modSwCount p (fun c => { c with rx := c.rx + 1, rxBytes := c.rxBytes + ethLen f })

/-- What a wire port brings in with a frame. -/
def wireIngress (p : Nat) (ck : PortCheck) (f : EthFrame) (st : Nat) : Ingress :=
  { port := p, station := if p = portRg then st else 255, protected_ := decide (ck = .protected_), pot := if p = 19 then some 0 else none,
    cls := none, len := ethLen f, learnAs := f.src, tx := none }

theorem ingress_eq (p : Nat) (ck : PortCheck) (f : EthFrame) (st : Nat) (rv : List Rival) (s : State) :
    ingress p ck f (if p = portRg then st else 255) rv s =
      if !(macsecIn p ck (rxCounted p f s)).2 then (macsecIn p ck (rxCounted p f s)).1
      else switchFrame (wireIngress p ck f st) f rv (macsecIn p ck (rxCounted p f s)).1 := rfl

theorem modSwCount_rec (s : State) (p q : Nat) (g : EswCounts → EswCounts) : ((s.modSwCount p g).swp q).rec_ = (s.swp q).rec_ := by
  by_cases same : q = p
  · rw [same]
    exact (congrArg EswPort.rec_ (State.modSwp_same s p (fun x => { x with count := g x.count })) :)
  · exact congrArg EswPort.rec_ (State.modSwp_other _ _ _ _ same)

theorem rxCounted_rec (p q : Nat) (f : EthFrame) (s : State) : ((rxCounted p f s).swp q).rec_ = (s.swp q).rec_ := modSwCount_rec ..

theorem frameIngress_of_taken (ck : PortCheck) (runs : s.eswOn = true) (en : (s.swp p.val).rec_.en = true) (wire : p.val ≤ 16)
    (free : (s.swp p.val).holds f = false) :
    exec (.frameIngress p ck f st rv) s = .next (ingress p.val ck f (if p.val = portRg then st.val else 255) rv s) := by
  refine congrArg Host.Outcome.next ?_
  have outer : ¬(p.val = portI0 ∨ p.val = portI1) := by show ¬(p.val = 17 ∨ p.val = 18); omega
  have notI3 : ¬(p.val = portI3) := by show ¬(p.val = 20); omega
  unfold frameIn
  rw [if_neg (by rw [runs, en]; exact Bool.false_ne_true), if_neg outer, if_neg notI3, if_neg (by rw [free]; exact Bool.false_ne_true)]

theorem macsecIn_plain_of_open (q : Nat) (open_ : (s.swp q).rec_.macsec = false) : macsecIn q .plain s = (s, true) :=
  if_neg (by rw [open_]; exact Bool.false_ne_true)

theorem macsecIn_plain_of_secured {q : Nat} (secured : (s.swp q).rec_.macsec = true) (here : isP q = true) :
    macsecIn q .plain s = (s.modSwCount q (fun c => { c with macsec := c.macsec + 1 }), false) :=
  if_pos (by rw [secured, here]; rfl)

theorem ingress_of_open {p : Nat} {st : Nat} (open_ : (s.swp p).rec_.macsec = false) :
    ingress p .plain f (if p = portRg then st else 255) rv s = switchFrame (wireIngress p .plain f st) f rv (rxCounted p f s) := by
  rw [ingress_eq, macsecIn_plain_of_open p (by rw [rxCounted_rec]; exact open_)]
  rfl

theorem frameIngress_of_open (runs : s.eswOn = true) (en : (s.swp p.val).rec_.en = true) (wire : p.val ≤ 16) (free : (s.swp p.val).holds f = false)
    (open_ : (s.swp p.val).rec_.macsec = false) : exec (.frameIngress p .plain f st rv) s =
      .next (switchFrame (wireIngress p.val .plain f st.val) f rv (rxCounted p.val f s)) :=
  (frameIngress_of_taken .plain runs en wire free).trans (congrArg Host.Outcome.next (ingress_of_open open_))

/-! ### Frames that are not switched -/

/-- A frame of more than 2,000 bytes is dropped at its port. -/
theorem switchFrame_of_long {g : Ingress} (long : 2000 < g.len) : switchFrame g f rv s =
    dropAt g.port .noRoute g.tx (s.modEswStats (fun t => { t with oversize := t.oversize + 1 })) := if_pos long

theorem frameIngress_long_gives (runs : s.eswOn = true) (en : (s.swp p.val).rec_.en = true) (wire : p.val ≤ 16)
    (free : (s.swp p.val).holds f = false) (open_ : (s.swp p.val).rec_.macsec = false) (long : 2000 < ethLen f) :
    Gives (.frameIngress p .plain f st rv) s (fun t => t.esw.stored = s.esw.stored ∧ t.esw.stats.oversize = s.esw.stats.oversize + 1 ∧
      (t.swp p.val).count.rx = (s.swp p.val).count.rx + 1 ∧ (t.swp p.val).count.drops = (s.swp p.val).count.drops + 1 ∧
      t.esw.free = s.esw.free ∧ Frame [.esw] s t) := by
  have dropped : switchFrame (wireIngress p.val .plain f st.val) f rv (rxCounted p.val f s) =
      ((rxCounted p.val f s).modEswStats (fun t => { t with oversize := t.oversize + 1 })).modSwCount p.val
        (fun c => { c with drops := c.drops + 1 }) :=
    switchFrame_of_long long
  have port : ((((rxCounted p.val f s).modEswStats (fun t => { t with oversize := t.oversize + 1 })).modSwCount p.val
      (fun c => { c with drops := c.drops + 1 })).swp p.val).count =
      { (s.swp p.val).count with rx := (s.swp p.val).count.rx + 1, rxBytes := (s.swp p.val).count.rxBytes + ethLen f, drops := (s.swp p.val).count.drops + 1 } := by
    have counted : ((rxCounted p.val f s).modEswStats (fun t => { t with oversize := t.oversize + 1 })).swp p.val =
        { s.swp p.val with count := { (s.swp p.val).count with rx := (s.swp p.val).count.rx + 1, rxBytes := (s.swp p.val).count.rxBytes + ethLen f } } :=
      State.modSwp_same ..
    rw [State.modSwCount, State.modSwp_same, counted]
  refine ⟨_, (frameIngress_of_open runs en wire free open_).trans (congrArg Host.Outcome.next dropped), rfl, rfl, ?_, ?_, rfl, ?_⟩
  · rw [port]
  · rw [port]
  · exact .via (State.modSwCount_frame ..) (by decide) (.via (State.modEswStats_frame ..) (by decide) (State.modSwCount_frame ..))

theorem frameIngress_secured_gives (runs : s.eswOn = true) (en : (s.swp p.val).rec_.en = true) (here : isP p.val = true)
    (free : (s.swp p.val).holds f = false) (secured : (s.swp p.val).rec_.macsec = true) :
    Gives (.frameIngress p .plain f st rv) s (fun t => t.esw.stored = s.esw.stored ∧ t.esw.fdb = s.esw.fdb ∧
      (t.swp p.val).count.macsec = (s.swp p.val).count.macsec + 1 ∧ Frame [.esw] s t) := by
  have wire : p.val ≤ 16 := Nat.le_trans (of_decide_eq_true (Bool.and_eq_true_iff.mp here).2 : p.val ≤ 8) (by decide)
  have step : ingress p.val .plain f (if p.val = portRg then st.val else 255) rv s =
      (rxCounted p.val f s).modSwCount p.val (fun c => { c with macsec := c.macsec + 1 }) := by
    rw [ingress_eq, macsecIn_plain_of_secured (by rw [rxCounted_rec]; exact secured) here]
    rfl
  refine ⟨_, (frameIngress_of_taken .plain runs en wire free).trans (congrArg Host.Outcome.next step), rfl, rfl, ?_, ?_⟩
  · rw [State.modSwCount, State.modSwp_same]
    exact (congrArg (fun x : EswPort => x.count.macsec + 1) (State.modSwp_same s p.val _) :)
  · exact .via (State.modSwCount_frame ..) (by decide) (State.modSwCount_frame ..)

/-! ### A frame that requests its cells -/

theorem rxCounted_route (p q vid : Nat) (dst : BitVec 48) : (rxCounted p f s).route q vid dst = s.route q vid dst := by
  unfold State.route
  simp only [rxCounted_rec]
  rfl

theorem eliminate_of_none (f : EthFrame) (l : List EgressCopy) (s : State) : eliminate none f l s = (s, l, 0) := by
  cases h : f.rtag with
  | none => simp [eliminate, h]
  | some n => simp [eliminate, h]

/-- The frame as it requests its cells, of no stream. -/
def requested (g : Ingress) (vid cls : Nat) (f : EthFrame) (l : List EgressCopy) (flooded : Bool) (s : State) : Stored :=
  { frame := f, vid := vid, len := g.len, cls := cls, pot := g.pot.getD ((s.swp g.port).rec_.potMap.getD cls 0 % 64)
    plane := bit (Config.flowPlane ([g.port, f.dst.toNat, f.src.toNat, vid, framePcp f] ++ [])), cells := (g.len + 63) / 64, ingress := g.port
    station := g.station, protected_ := g.protected_, flooded := flooded, stamp := s.stampAt g.port f, tx := g.tx
    copies := l.map (fun c => { c with left := (g.len + 63) / 64 }), tagOut := none, stripOut := 0 }

theorem takeIn_of_routed {g : Ingress} {vid cls : Nat} {l : List EgressCopy} {flooded : Bool} (routed : s.route g.port vid f.dst = (l, flooded))
    (some_ : l ≠ []) (live : ∀ c ∈ l, s.copyLive c = true) : takeIn g vid cls none f rv s = request (requested g vid cls f l flooded s) rv s := by
  have all : l.filter s.copyLive = l := List.filter_eq_self.mpr live
  have still : (List.range (l.length - l.length)).foldl (fun s _ => s.modSwCount g.port (fun c => { c with drops := c.drops + 1 })) s = s := by
    rw [Nat.sub_self]
    rfl
  unfold takeIn
  rw [routed]
  dsimp only
  rw [all, still, eliminate_of_none]
  dsimp only [generate, Option.bind_none]
  rw [if_neg (by rw [List.isEmpty_iff]; exact some_)]
  rfl

theorem switchFrame_of_passed {g : Ingress} (short : g.len ≤ 2000) (low : 1 ≤ frameVid (s.swp g.port).rec_ f)
    (high : frameVid (s.swp g.port).rec_ f ≤ 4094)
    (open_ : (s.swp g.port).rec_.inFilter = false) (deaf : (s.swp g.port).rec_.learn = false) (plain : s.esw.filters.cells = []) :
    switchFrame g f rv s = takeIn g (frameVid (s.swp g.port).rec_ f) (g.cls.getD (frameClass (s.swp g.port).rec_ f)) none f rv s := by
  have stream : s.streamOfFrame g.port (frameVid (s.swp g.port).rec_ f) f = none := by rw [State.streamOfFrame, plain]; rfl
  have police : policeFrame g (frameVid (s.swp g.port).rec_ f) (g.cls.getD (frameClass (s.swp g.port).rec_ f)) f s = (s, none, true) := by
    unfold policeFrame
    rw [stream]
  have inside : ¬(frameVid (s.swp g.port).rec_ f = 0 ∨ 4094 < frameVid (s.swp g.port).rec_ f ∨
      ((s.swp g.port).rec_.inFilter && !(s.esw.vlans.getD .none (frameVid (s.swp g.port).rec_ f)).members.getLsbD g.port) = true) := by
    rw [open_]
    rintro (zero | big | never)
    · omega
    · omega
    · exact Bool.false_ne_true never
  unfold switchFrame
  dsimp only
  rw [if_neg (Nat.not_lt.mpr short), if_neg inside, deaf, if_neg Bool.false_ne_true, police]
  exact if_neg Bool.false_ne_true

/-- A wire port's frame with its copies, of no stream, as it requests its cells. -/
def wireRequested (p : Nat) (f : EthFrame) (st : Nat) (l : List EgressCopy) (flooded : Bool) (s : State) : Stored :=
  requested (wireIngress p .plain f st) (frameVid (s.swp p).rec_ f) (frameClass (s.swp p).rec_ f) f l flooded (rxCounted p f s)

section
variable {l : List EgressCopy} {flooded : Bool}

theorem frameIngress_requests (runs : s.eswOn = true) (en : (s.swp p.val).rec_.en = true) (wire : p.val ≤ 16) (free : (s.swp p.val).holds f = false)
    (open_ : (s.swp p.val).rec_.macsec = false) (deaf : (s.swp p.val).rec_.learn = false) (unfiltered : (s.swp p.val).rec_.inFilter = false)
    (short : ethLen f ≤ 2000) (plain : s.esw.filters.cells = []) (low : 1 ≤ frameVid (s.swp p.val).rec_ f)
    (high : frameVid (s.swp p.val).rec_ f ≤ 4094)
    (routed : s.route p.val (frameVid (s.swp p.val).rec_ f) f.dst = (l, flooded)) (some_ : l ≠ []) (live : ∀ c ∈ l, s.copyLive c = true) :
    exec (.frameIngress p .plain f st rv) s = .next (request (wireRequested p.val f st.val l flooded s) rv (rxCounted p.val f s)) := by
  have rec_ : ((rxCounted p.val f s).swp (wireIngress p.val .plain f st.val).port).rec_ = (s.swp p.val).rec_ := rxCounted_rec ..
  have passed : switchFrame (wireIngress p.val .plain f st.val) f rv (rxCounted p.val f s) = _ :=
    switchFrame_of_passed (s := rxCounted p.val f s) (g := wireIngress p.val .plain f st.val) (f := f) (rv := rv) short (by rw [rec_]; exact low)
      (by rw [rec_]; exact high) (by rw [rec_]; exact unfiltered) (by rw [rec_]; exact deaf) plain
  rw [frameIngress_of_open runs en wire free open_, passed, rec_]
  exact congrArg Host.Outcome.next (takeIn_of_routed (s := rxCounted p.val f s) ((rxCounted_route ..).trans routed) some_ live)

theorem wireRequested_pot (wire : p.val ≤ 16) : (wireRequested p.val f st.val l flooded s).pot =
    (s.swp p.val).rec_.potMap.getD (frameClass (s.swp p.val).rec_ f) 0 % 64 := by
  have none_ : (wireIngress p.val .plain f st.val).pot = none := if_neg (by omega)
  show (wireIngress p.val .plain f st.val).pot.getD (((rxCounted p.val f s).swp p.val).rec_.potMap.getD (frameClass (s.swp p.val).rec_ f) 0 % 64) = _
  rw [none_, rxCounted_rec]
  rfl

theorem movePointer_of_alone (x : Stored) (s : State) : movePointer x [] s = s := if_pos (.inl rfl)

/-- The grant of a request without rivals. -/
theorem grant_of_room {x : Stored} (cells : (s.pot x.pot).used + x.cells ≤ (s.pot x.pot).rec_.max)
    (descs : (s.pot x.pot).desc + x.copies.length ≤ (s.pot x.pot).rec_.maxDesc) (copies : x.copies.length ≤ s.esw.descFree)
    (room : x.cells ≤ s.esw.free)
    (shared : x.cells - (s.pot x.pot).fromReserve x.cells ≤ s.esw.sharedFree) : s.grant x [] = .granted := by
  have within : (decide ((s.pot x.pot).rec_.max < (s.pot x.pot).used + x.cells) ||
    decide ((s.pot x.pot).rec_.maxDesc < (s.pot x.pot).desc + x.copies.length) ||
      decide (s.esw.descFree < x.copies.length)) = false := by
    rw [decide_eq_false (Nat.not_lt.mpr cells), decide_eq_false (Nat.not_lt.mpr descs), decide_eq_false (Nat.not_lt.mpr copies)]
    rfl
  unfold State.grant
  dsimp only
  rw [if_neg (by rw [within]; exact Bool.false_ne_true), if_neg (Nat.not_lt.mpr room)]
  split
  · rfl
  · exact if_pos shared

theorem grant_of_full {x : Stored} (full : (s.pot x.pot).rec_.max < (s.pot x.pot).used + x.cells) (rv : List Rival) : s.grant x rv = .full :=
  if_pos (by rw [decide_eq_true full]; rfl)

theorem request_of_granted {x : Stored} (granted : s.grant x [] = .granted) : request x [] s = storeFrame x s := by
  unfold request
  dsimp only
  rw [granted, movePointer_of_alone]

theorem request_of_full {x : Stored} (full : s.grant x [] = .full) : request x [] s = potDrop x .potFull (scrubPart x s) := by
  unfold request
  dsimp only
  rw [full, movePointer_of_alone]

theorem scrub_eq (e : EswState) (plane n : Nat) : ∃ a b, e.scrub plane n = { e with scrub0 := a, scrub1 := b } := by
  unfold EswState.scrub
  split
  · exact ⟨_, _, rfl⟩
  · exact ⟨_, _, rfl⟩

/-- The cells that a dropped frame had been granted. -/
def grantedPart (x : Stored) (s : State) : Nat :=
  min (min x.cells (min ((s.pot x.pot).rec_.max - (s.pot x.pot).used) ((s.pot x.pot).fromReserve x.cells + s.esw.sharedFree))) s.esw.free

theorem scrubPart_eq (x : Stored) (s : State) : (scrubPart x s).esw =
    { s.esw.scrub x.plane (grantedPart x s) with free := s.esw.free - grantedPart x s } := rfl

theorem scrubPart_esw (x : Stored) (s : State) : ∃ a b c, (scrubPart x s).esw = { s.esw with scrub0 := a, scrub1 := b, free := c } := by
  obtain ⟨a, b, scrubbed⟩ := scrub_eq s.esw x.plane (grantedPart x s)
  exact ⟨a, b, _, by rw [scrubPart_eq, scrubbed]⟩

theorem frameIngress_stored_gives {k n : Nat} (runs : s.eswOn = true) (en : (s.swp p.val).rec_.en = true) (wire : p.val ≤ 16)
    (free : (s.swp p.val).holds f = false) (open_ : (s.swp p.val).rec_.macsec = false) (deaf : (s.swp p.val).rec_.learn = false)
    (unfiltered : (s.swp p.val).rec_.inFilter = false) (short : ethLen f ≤ 2000) (plain : s.esw.filters.cells = [])
    (low : 1 ≤ frameVid (s.swp p.val).rec_ f) (high : frameVid (s.swp p.val).rec_ f ≤ 4094)
    (routed : s.route p.val (frameVid (s.swp p.val).rec_ f) f.dst = (l, flooded)) (some_ : l ≠ []) (live : ∀ c ∈ l, s.copyLive c = true)
    (pot : k = (s.swp p.val).rec_.potMap.getD (frameClass (s.swp p.val).rec_ f) 0 % 64) (cells : n = (ethLen f + 63) / 64)
    (fits : (s.pot k).used + n ≤ (s.pot k).rec_.max) (descs : (s.pot k).desc + l.length ≤ (s.pot k).rec_.maxDesc) (copies : l.length ≤ s.esw.descFree)
    (room : n ≤ s.esw.free) (shared : n - (s.pot k).fromReserve n ≤ s.esw.sharedFree) :
    Gives (.frameIngress p .plain f st []) s (fun t => (∃ x, t.esw.stored = s.esw.stored ++ [x] ∧ x.frame = f ∧
        x.copies = l.map (fun c => { c with left := n }) ∧ x.cells = n ∧
        x.pot = k ∧ x.ingress = p.val) ∧ t.esw.free = s.esw.free - n ∧ t.esw.descFree = s.esw.descFree - l.length ∧
      (t.pot k).used = (s.pot k).used + n ∧ t.esw.stats.switched = s.esw.stats.switched + 1 ∧ Frame [.esw] s t) := by
  subst cells
  have requests := frameIngress_requests (p := p) (st := st) (rv := []) runs en wire free open_ deaf unfiltered short plain low high routed some_ live
  have ofPot : (wireRequested p.val f st.val l flooded s).pot = k := (wireRequested_pot wire).trans pot.symm
  have length : (wireRequested p.val f st.val l flooded s).copies.length = l.length := List.length_map ..
  have size : (wireRequested p.val f st.val l flooded s).cells = (ethLen f + 63) / 64 := rfl
  generalize whole : wireRequested p.val f st.val l flooded s = x at requests ofPot length size
  have granted : (rxCounted p.val f s).grant x [] = .granted :=
    grant_of_room (by rw [ofPot, size]; exact fits) (by rw [ofPot, length]; exact descs) (by rw [length]; exact copies) (by rw [size]; exact room)
      (by rw [ofPot, size]; exact shared)
  obtain ⟨h, stored⟩ := storeFrame_esw x (rxCounted p.val f s)
  refine ⟨_, requests.trans (congrArg Host.Outcome.next (request_of_granted granted)), ⟨x, ?_, ?_, ?_, size, ofPot, ?_⟩, ?_, ?_, ?_, ?_, ?_⟩
  · rw [stored]; rfl
  · rw [← whole]; rfl
  · rw [← whole]; rfl
  · rw [← whole]; rfl
  · rw [stored, size]; rfl
  · rw [stored, length]; rfl
  · rw [State.pot, stored, ← size, ← ofPot]
    exact (congrArg Pot.used (Tbl.getD_modify_same s.esw.pots Pot.reset x.pot (chargedPot x)) :)
  · rw [stored]; rfl
  · exact .via (storeFrame_frame ..) (by decide) (State.modSwCount_frame ..)

theorem frameIngress_full_gives {k : Nat} (runs : s.eswOn = true) (en : (s.swp p.val).rec_.en = true) (wire : p.val ≤ 16)
    (free : (s.swp p.val).holds f = false) (open_ : (s.swp p.val).rec_.macsec = false) (deaf : (s.swp p.val).rec_.learn = false)
    (unfiltered : (s.swp p.val).rec_.inFilter = false) (short : ethLen f ≤ 2000) (plain : s.esw.filters.cells = [])
    (low : 1 ≤ frameVid (s.swp p.val).rec_ f) (high : frameVid (s.swp p.val).rec_ f ≤ 4094)
    (routed : s.route p.val (frameVid (s.swp p.val).rec_ f) f.dst = (l, flooded)) (some_ : l ≠ []) (live : ∀ c ∈ l, s.copyLive c = true)
    (pot : k = (s.swp p.val).rec_.potMap.getD (frameClass (s.swp p.val).rec_ f) 0 % 64)
    (full : (s.pot k).rec_.max < (s.pot k).used + (ethLen f + 63) / 64) :
    Gives (.frameIngress p .plain f st []) s (fun t => t.esw.stored = s.esw.stored ∧ (t.pot k).dropFull = (s.pot k).dropFull + 1 ∧
      (t.pot k).episode = true ∧ (t.swp p.val).count.drops = (s.swp p.val).count.drops + 1 ∧ Frame [.mbx, .log, .vz, .esw] s t) := by
  have requests := frameIngress_requests (p := p) (st := st) (rv := []) runs en wire free open_ deaf unfiltered short plain low high routed some_ live
  have ofPot : (wireRequested p.val f st.val l flooded s).pot = k := (wireRequested_pot wire).trans pot.symm
  have size : (wireRequested p.val f st.val l flooded s).cells = (ethLen f + 63) / 64 := rfl
  have port : (wireRequested p.val f st.val l flooded s).ingress = p.val := rfl
  generalize wireRequested p.val f st.val l flooded s = x at requests ofPot size port
  have refused : (rxCounted p.val f s).grant x [] = .full := grant_of_full (by rw [ofPot, size]; exact full) []
  obtain ⟨a, b, c, part⟩ := scrubPart_esw x (rxCounted p.val f s)
  obtain ⟨q, dropped⟩ := potDrop_esw x .potFull (scrubPart x (rxCounted p.val f s))
  have ofBefore : (scrubPart x (rxCounted p.val f s)).pot x.pot = s.pot x.pot := by rw [State.pot, part]; rfl
  have potAfter := potDrop_pot x .potFull (scrubPart x (rxCounted p.val f s))
  have count := potDrop_count x .potFull (scrubPart x (rxCounted p.val f s))
  rw [ofBefore, ofPot] at potAfter
  refine ⟨_, requests.trans (congrArg Host.Outcome.next (request_of_full refused)), ?_, ?_, ?_, ?_, ?_⟩
  · rw [dropped, part]; rfl
  · rw [potAfter]; rfl
  · rw [potAfter]; rfl
  · have before : ((scrubPart x (rxCounted p.val f s)).swp x.ingress).count.drops = (s.swp p.val).count.drops := by
      rw [State.swp, part, port]
      exact (congrArg (fun y : EswPort => y.count.drops) (State.modSwp_same s p.val _) :)
    rw [port] at count before
    exact count.trans (congrArg (· + 1) before)
  · exact .via (potDrop_frame ..) (by decide) (.via (scrubPart_frame ..) (by decide) (.mono (State.modSwCount_frame ..) (by decide)))

end

end

/-! ### Frames that leave -/

section
variable {s : State} {p : Fin 21}

theorem egress_of_inner {q : Nat} (runs : s.eswOn = true) (not0 : q ≠ portI0) (not1 : q ≠ portI1) : egress q s =
    match chooseClass q (crossbar s) 8 with
    | some (t, x, d) => sendCopy q x.1 x.2 ((crossbar s).modEsw (fun e => { e with drr := e.drr.set (8 * q + t) d }))
    | none => crossbar s := by
  unfold egress
  rw [if_neg (by rw [runs]; exact Bool.false_ne_true), if_neg (not_or.mpr ⟨not0, not1⟩)] <;> rfl

theorem frameEgress_of_none (runs : s.eswOn = true) (not0 : p.val ≠ portI0) (not1 : p.val ≠ portI1)
    (none_ : chooseClass p.val (crossbar s) 8 = none) :
    exec (.frameEgress p) s = .next (crossbar s) := by
  refine congrArg Host.Outcome.next ?_
  rw [egress_of_inner runs not0 not1, none_]

theorem frameEgress_unchanged
    (off : s.eswOn = false ∨ (p.val ≠ portI0 ∧ p.val ≠ portI1 ∧ s.esw.cellsLeft = 0 ∧ chooseClass p.val s 8 = none)) :
    exec (.frameEgress p) s = .next s := by
  cases runs : s.eswOn with
  | false => exact congrArg Host.Outcome.next (if_pos (by rw [runs]; rfl))
  | true =>
    obtain ⟨not0, not1, empty, none_⟩ := off.resolve_left (by rw [runs]; exact Bool.noConfusion)
    have same := crossbar_of_empty empty
    exact (frameEgress_of_none runs not0 not1 (by rw [same]; exact none_)).trans (congrArg Host.Outcome.next same)

/-- The choice is noted in the deficits of the port's class. -/
def picked (q t : Nat) (d : Drr) (s : State) : State := (crossbar s).modEsw (fun e => { e with drr := e.drr.set (8 * q + t) d })

/-- The copy has left its place, and its class has spent its credit. -/
def leaving (q : Nat) (x : Stored) (c : EgressCopy) (s : State) : State := spendCredit q x.cls x.len (dropCopy x c s)

/-- The port has counted the frame that leaves. -/
def txCounted (q : Nat) (x : Stored) (s : State) : State := s.modSwCount q (fun c => { c with tx := c.tx + 1, txBytes := c.txBytes + x.len })

/-- The frame is on the wire. -/
def sentOut (q : Nat) (f : EthFrame) (s : State) : State := s.modEsw (fun e => { e with out := keepNewest 16 ((q, s.portNs q, f) :: e.out) })

/-- The frame is counted and on the wire. -/
def onWire (q : Nat) (x : Stored) (f : EthFrame) (s : State) : State := sentOut q f (txCounted q x s)

/-- A copy reaches the ring or a VZF. -/
def handOver (q : Nat) (x : Stored) (c : EgressCopy) (f : EthFrame) (s : State) : State :=
  if q = portRg then toRing x c f s
  else if q = portI0 ∨ q = portI1 then (match c.vzf with
                                         | some v => deliverRx v x s
                                         | none => s)
  else s

theorem sendCopy_eq (q : Nat) (x : Stored) (c : EgressCopy) (s : State) : sendCopy q x c s =
    if isP q && ((leaving q x c s).swp q).rec_.macsec && !((leaving q x c s).swp q).macsecLive then
      if decide (x.copies.length ≤ 1) then
        completeOpt x.tx { status := 1, reason := DropWhy.macsec.code, stamp := 0 }
          ((leaving q x c s).modSwCount q (fun c => { c with macsec := c.macsec + 1 }))
      else (leaving q x c s).modSwCount q (fun c => { c with macsec := c.macsec + 1 })
    else
      if decide (x.copies.length ≤ 1) then completeOpt x.tx (stampOut q x (s.outFrame q x) s).2
        (handOver q x c (stampOut q x (s.outFrame q x) s).1 (onWire q x (stampOut q x (s.outFrame q x) s).1 (leaving q x c s)))
      else handOver q x c (stampOut q x (s.outFrame q x) s).1 (onWire q x (stampOut q x (s.outFrame q x) s).1 (leaving q x c s)) := by
  unfold sendCopy handOver onWire sentOut txCounted
  rfl

theorem sendCopy_of_plain {q : Nat} {x : Stored} {c : EgressCopy} (own : x.tx = none)
    (open_ : (isP q && ((leaving q x c s).swp q).rec_.macsec && !((leaving q x c s).swp q).macsecLive) = false) :
    sendCopy q x c s = handOver q x c (s.outFrame q x) (onWire q x (s.outFrame q x) (leaving q x c s)) := by
  have stamp : stampOut q x (s.outFrame q x) s = (s.outFrame q x, { status := 0, reason := 0, stamp := 0 }) := by
    unfold stampOut
    rw [own]
  have done (d : TxDone) (u : State) : completeOpt x.tx d u = u := by rw [own]; rfl
  rw [sendCopy_eq, if_neg (by rw [open_]; exact Bool.false_ne_true), stamp, done, ite_self]

/-- Spending credit changes the shapers alone. -/
theorem spendCredit_esw (q t len : Nat) (s : State) : ∃ h, (spendCredit q t len s).esw = { s.esw with shapers := h } := by
  unfold spendCredit
  split
  · exact ⟨_, rfl⟩
  · exact ⟨_, rfl⟩

/-- The memory once a copy has left, but for the frame's cells. -/
def EswState.without (e : EswState) (x : Stored) (c : EgressCopy) (last : Bool) : EswState := { e with
  pots := e.pots.modify .reset x.pot (fun t => { t with desc := t.desc - 1, used := if last then t.used - x.cells else t.used })
  descFree := e.descFree + 1
  stored := if last then e.stored.erase x else e.stored.map (fun z => if z = x then { x with copies := x.copies.erase c } else z) }

theorem dropCopy_esw (x : Stored) (c : EgressCopy) (s : State) : (dropCopy x c s).esw =
    if (x.copies.erase c).isEmpty then (s.esw.without x c (x.copies.erase c).isEmpty).scrub x.plane x.cells
    else s.esw.without x c (x.copies.erase c).isEmpty := rfl

/-- What a copy that leaves changes in the switch. -/
theorem leaving_esw (q : Nat) (x : Stored) (c : EgressCopy) (s : State) : ∃ h p n l a b, (leaving q x c s).esw =
    { s.esw with shapers := h, pots := p, descFree := n, stored := l, scrub0 := a, scrub1 := b } := by
  obtain ⟨h, spent⟩ := spendCredit_esw q x.cls x.len (dropCopy x c s)
  obtain ⟨a, b, scrubbed⟩ := scrub_eq (s.esw.without x c (x.copies.erase c).isEmpty) x.plane x.cells
  rw [leaving, spent, dropCopy_esw]
  split
  · exact ⟨h, _, _, _, a, b, by rw [scrubbed]; rfl⟩
  · exact ⟨h, _, _, _, _, _, rfl⟩

/-- The last copy of a frame takes its cells along. -/
theorem leaving_last {q : Nat} {x : Stored} {c : EgressCopy} (one : x.copies = [c]) :
    (leaving q x c s).esw.stored = s.esw.stored.erase x ∧ (leaving q x c s).esw.descFree = s.esw.descFree + 1 ∧
    (leaving q x c s).esw.scrubbing = s.esw.scrubbing + x.cells ∧ ((leaving q x c s).pot x.pot).used = (s.pot x.pot).used - x.cells := by
  have last : (x.copies.erase c).isEmpty = true := by rw [one, List.erase_cons_head]; rfl
  obtain ⟨h, spent⟩ := spendCredit_esw q x.cls x.len (dropCopy x c s)
  obtain ⟨a, b, scrubbed⟩ := scrub_eq (s.esw.without x c true) x.plane x.cells
  obtain ⟨-, books, -⟩ := (s.esw.without x c true).scrub_books x.plane x.cells
  have esw : (leaving q x c s).esw = { (s.esw.without x c true).scrub x.plane x.cells with shapers := h } := by
    rw [leaving, spent, dropCopy_esw, last]
    rfl
  refine ⟨?_, ?_, ?_, ?_⟩
  · rw [esw, scrubbed]; rfl
  · rw [esw, scrubbed]; rfl
  · rw [esw]
    exact books
  · rw [State.pot, esw, scrubbed]
    exact (congrArg Pot.used (Tbl.getD_modify_same s.esw.pots Pot.reset x.pot
      (fun t => { t with desc := t.desc - 1, used := if true then t.used - x.cells else t.used })) :)

theorem crossbar_kept (s : State) : ∃ l g a n, (crossbar s).esw = { s.esw with stored := l, grantPtr := g, acceptPtr := a, crossed := n } :=
  ⟨_, _, _, _, cross_crossed s.esw.cellsLeft s.esw⟩

theorem picked_kept (q t : Nat) (d : Drr) (s : State) : ∃ l g a n r, (picked q t d s).esw =
    { s.esw with stored := l, grantPtr := g, acceptPtr := a, crossed := n, drr := r } := by
  obtain ⟨l, g, a, n, kept⟩ := crossbar_kept s
  exact ⟨l, g, a, n, _, congrArg (fun e : EswState => { e with drr := e.drr.set (8 * q + t) d }) kept⟩

theorem picked_outFrame (q t q' : Nat) (d : Drr) (x : Stored) (s : State) : (picked q t d s).outFrame q' x = s.outFrame q' x := by
  obtain ⟨l, g, a, n, r, kept⟩ := picked_kept q t d s
  rw [State.outFrame, kept]
  rfl

theorem picked_swp (q t q' : Nat) (d : Drr) (s : State) : (picked q t d s).swp q' = s.swp q' := by
  obtain ⟨l, g, a, n, r, kept⟩ := picked_kept q t d s
  rw [State.swp, kept]
  rfl

theorem leaving_swp (q q' : Nat) (x : Stored) (c : EgressCopy) (s : State) : (leaving q x c s).swp q' = s.swp q' := by
  obtain ⟨h, p, n, l, a, b, left⟩ := leaving_esw q x c s
  rw [State.swp, left]
  rfl

theorem portNs_eq {t : State} (q : Nat) (view : (t.swp q).rec_.tsView = (s.swp q).rec_.tsView) (tb : t.tb = s.tb) : t.portNs q = s.portNs q := by
  rw [State.portNs, State.portNs, view, State.view, State.view, State.now, State.now, tb]

/-- What leaves by the wire of a port. -/
def wireSent (q t : Nat) (x : Stored) (c : EgressCopy) (d : Drr) (s : State) : State :=
  onWire q x (s.outFrame q x) (leaving q x c (picked q t d s))

theorem txCounted_frame (q : Nat) (x : Stored) (s : State) : Frame [.esw] s (txCounted q x s) := State.modSwCount_frame ..

theorem sentOut_frame (q : Nat) (f : EthFrame) (s : State) : Frame [.esw] s (sentOut q f s) := State.modEsw_frame ..

theorem onWire_frame (q : Nat) (x : Stored) (f : EthFrame) (s : State) : Frame [.esw] s (onWire q x f s) :=
  .via (sentOut_frame q f (txCounted q x s)) (by decide) (txCounted_frame q x s)

theorem leaving_frame (q : Nat) (x : Stored) (c : EgressCopy) (s : State) : Frame [.esw] s (leaving q x c s) :=
  .via (spendCredit_frame ..) (by decide) (dropCopy_frame ..)

theorem picked_frame (q t : Nat) (d : Drr) (s : State) : Frame [.esw] s (picked q t d s) :=
  .via (v := [.esw]) (t := crossbar s) (State.modEsw_frame ..) (by decide) (crossbar_frame s)

theorem wireSent_frame (q t : Nat) (x : Stored) (c : EgressCopy) (d : Drr) (s : State) : Frame [.esw] s (wireSent q t x c d s) :=
  .via (onWire_frame ..) (by decide) (.via (leaving_frame ..) (by decide) (picked_frame ..))

theorem wireSent_count (q t : Nat) (x : Stored) (c : EgressCopy) (d : Drr) (s : State) :
    ((wireSent q t x c d s).swp q).count.tx = (s.swp q).count.tx + 1 := by
  have port : (leaving q x c (picked q t d s)).swp q = s.swp q := (leaving_swp ..).trans (picked_swp ..)
  rw [← port]
  exact (congrArg (fun y : EswPort => y.count.tx) (State.modSwp_same (leaving q x c (picked q t d s)) q _) :)

theorem wireSent_out (q t : Nat) (x : Stored) (c : EgressCopy) (d : Drr) (s : State) :
    (wireSent q t x c d s).esw.out.head? = some (q, s.portNs q, s.outFrame q x) := by
  have ns : (txCounted q x (leaving q x c (picked q t d s))).portNs q = s.portNs q := by
    refine portNs_eq q ?_ ?_
    · rw [txCounted, modSwCount_rec, leaving_swp, picked_swp]
    · exact ((leaving_frame ..).same .tb (by decide)).trans ((picked_frame ..).same .tb (by decide))
  rw [← ns]
  rfl

theorem frameEgress_of_chosen {k : Nat} {x : Stored} {c : EgressCopy} {d : Drr} (runs : s.eswOn = true) (not0 : p.val ≠ portI0)
    (not1 : p.val ≠ portI1)
    (chosen : chooseClass p.val (crossbar s) 8 = some (k, (x, c), d)) (own : x.tx = none)
    (open_ : (isP p.val && (s.swp p.val).rec_.macsec && !(s.swp p.val).macsecLive) = false) :
    exec (.frameEgress p) s = .next (handOver p.val x c (s.outFrame p.val x) (wireSent p.val k x c d s)) := by
  have port : (leaving p.val x c (picked p.val k d s)).swp p.val = s.swp p.val := (leaving_swp ..).trans (picked_swp ..)
  refine congrArg Host.Outcome.next ?_
  rw [egress_of_inner runs not0 not1, chosen]
  refine (sendCopy_of_plain (s := picked p.val k d s) own (by rw [port]; exact open_)).trans ?_
  rw [picked_outFrame]
  rfl

theorem frameEgress_wire_gives {k : Nat} {x : Stored} {c : EgressCopy} {d : Drr} {u : State} (runs : s.eswOn = true) (low : 1 ≤ p.val)
    (high : p.val ≤ 16)
    (across : u = crossbar s) (chosen : chooseClass p.val u 8 = some (k, (x, c), d)) (one : x.copies = [c]) (own : x.tx = none)
    (open_ : (s.swp p.val).rec_.macsec = false) :
    Gives (.frameEgress p) s (fun t => t.esw.stored = u.esw.stored.erase x ∧ t.esw.descFree = s.esw.descFree + 1 ∧
      (t.pot x.pot).used = (s.pot x.pot).used - x.cells ∧ (t.swp p.val).count.tx = (s.swp p.val).count.tx + 1 ∧
      t.esw.scrubbing = s.esw.scrubbing + x.cells ∧ t.esw.out.head? = some (p.val, s.portNs p.val, s.outFrame p.val x) ∧
      Frame [.esw] s t) := by
  subst across
  have not0 : p.val ≠ portI0 := by show p.val ≠ 17; omega
  have not1 : p.val ≠ portI1 := by show p.val ≠ 18; omega
  have sent : handOver p.val x c (s.outFrame p.val x) (wireSent p.val k x c d s) = wireSent p.val k x c d s := by
    rw [handOver, if_neg (by show ¬(p.val = 0); omega), if_neg (not_or.mpr ⟨not0, not1⟩)]
  have step := (frameEgress_of_chosen runs not0 not1 chosen own (by rw [open_, Bool.and_false]; rfl)).trans (congrArg Host.Outcome.next sent)
  obtain ⟨stored, descs, scrubbing, used⟩ := leaving_last (s := picked p.val k d s) (q := p.val) one
  obtain ⟨l, g, a, n, r, kept⟩ := picked_kept p.val k d s
  refine ⟨_, step, stored, descs.trans ?_, used.trans ?_, wireSent_count .., scrubbing.trans ?_, wireSent_out .., wireSent_frame ..⟩
  · rw [kept]
  · rw [State.pot, kept]; rfl
  · rw [kept]; rfl

/-- The frame of a copy on its way into the dynamic segment. -/
theorem toRing_of_dynamic {x : Stored} {c : EgressCopy} {f : EthFrame} (class_ : (s.swp 0).rec_.rgBe.getLsbD x.cls = false)
    (short : (ethBytes f).length ≤ 1536) : toRing x c f s = s.modRing (fun g =>
      { g with dynOut := g.dynOut ++ [(s.subqueue x, s.frame 0 9 c.dst 0xFFFF (BitVec.ofNat 32 x.cls) 0 false (ethBytes f))] }) := by
  unfold toRing
  rw [class_]
  dsimp only
  rw [Bool.false_and, Bool.false_or, if_neg (by rw [decide_eq_false (Nat.not_lt.mpr short)]; exact Bool.false_ne_true)]
  rfl

theorem frameEgress_ring_gives {k : Nat} {x : Stored} {c : EgressCopy} {d : Drr} (runs : s.eswOn = true)
    (chosen : chooseClass 0 (crossbar s) 8 = some (k, (x, c), d)) (own : x.tx = none) (class_ : (s.swp 0).rec_.rgBe.getLsbD x.cls = false)
    (short : (ethBytes (s.outFrame 0 x)).length ≤ 1536) :
    Gives (.frameEgress 0) s (fun t => (∃ o r, t.ring.dynOut = s.ring.dynOut ++ [(o, r)] ∧ r.payload = ethBytes (s.outFrame 0 x) ∧
      r.hdr.typ = 9 ∧ r.hdr.dst = c.dst) ∧ (t.swp 0).count.tx = (s.swp 0).count.tx + 1 ∧ Frame [.ring, .esw] s t) := by
  have port : (wireSent 0 k x c d s).swp 0 = (txCounted 0 x (leaving 0 x c (picked 0 k d s))).swp 0 := rfl
  have be : ((wireSent 0 k x c d s).swp 0).rec_.rgBe.getLsbD x.cls = false := by
    rw [port, txCounted, modSwCount_rec, leaving_swp, picked_swp]
    exact class_
  have step := (frameEgress_of_chosen (p := 0) runs (by decide) (by decide) chosen own rfl).trans
    (congrArg Host.Outcome.next ((if_pos rfl).trans (toRing_of_dynamic be short)))
  have ring : (wireSent 0 k x c d s).ring = s.ring := (wireSent_frame ..).same .ring (by decide)
  refine ⟨_, step, ⟨_, _, congrArg (fun g : RingState => g.dynOut ++ _) ring, rfl, rfl, rfl⟩, wireSent_count .., ?_⟩
  exact .via (State.modRing_frame ..) (by decide) (.mono (wireSent_frame ..) (by decide))

end

end Sys2Proof.Machine
end

section
/-! PROOF. The doorbells of the switch's queue pairs (R288 to R290) and the switch at its events. -/

namespace Sys2Proof.Machine

section
variable {s : State} {v : Fin 256} {q : Fin 4} {n : U16} {d : TxDesc} {rv : List Rival}

theorem State.modQp_same (s : State) (v q : Nat) (f : QPair → QPair) : (s.modQp v q f).qp v q = f (s.qp v q) := Tbl.getD_modify_same ..

theorem pairBlock_of_hasPair (pair : s.hasPair v.val q.val = true) : s.pairBlock v.val = true := by
  obtain ⟨block, -⟩ := Bool.and_eq_true_iff.mp pair
  exact block

theorem doorbells_of_unmapped (ds : List TxDesc) (unmapped : s.pairBlock v.val = false) :
    exec (.eswTxqProdWrite v q n ds rv) s = .next (windowFault v.val s) ∧ exec (.eswRxqConsWrite v q n) s = .next (windowFault v.val s) :=
  ⟨congrArg Host.Outcome.next (if_pos (by rw [unmapped]; rfl)), congrArg Host.Outcome.next (if_pos (by rw [unmapped]; rfl))⟩

section
variable (runs : s.eswOn = true) (pair : s.hasPair v.val q.val = true) (active : s.vzfActive v.val = true)
include runs pair active

theorem eswTxqProdWrite_of_active (ds : List TxDesc) : exec (.eswTxqProdWrite v q n ds rv) s = .next (txDoorbell v.val q.val n ds rv s) := by
  refine congrArg Host.Outcome.next ?_
  rw [pairBlock_of_hasPair pair, runs, pair, active]
  rfl

theorem eswRxqConsWrite_of_active : exec (.eswRxqConsWrite v q n) s = .next (rxConsume v.val q.val n s) := by
  refine congrArg Host.Outcome.next ?_
  unfold rxConsWrite
  rw [pairBlock_of_hasPair pair, runs, pair, active]
  rfl

theorem eswTxqProdWrite_far_gives (ds : List TxDesc) (far : 2 ^ (s.qp v.val q.val).depthLog2 < (n - (s.qp v.val q.val).txCons).toNat) :
    Gives (.eswTxqProdWrite v q n ds rv) s (fun t => t.qp v.val q.val = { s.qp v.val q.val with prodErr := true } ∧ Frame [.esw] s t) :=
  ⟨_, (eswTxqProdWrite_of_active runs pair active ds).trans (congrArg Host.Outcome.next (if_pos far)), State.modQp_same .., State.modQp_frame ..⟩

theorem eswRxqConsWrite_far_gives (far : (s.qp v.val q.val).rxProd - (s.qp v.val q.val).rxCons < n - (s.qp v.val q.val).rxCons) :
    Gives (.eswRxqConsWrite v q n) s (fun t => t.qp v.val q.val = { s.qp v.val q.val with consErr := true } ∧ Frame [.esw] s t) :=
  ⟨_, (eswRxqConsWrite_of_active runs pair active).trans (congrArg Host.Outcome.next (if_pos (BitVec.lt_def.mp far))), State.modQp_same ..,
    State.modQp_frame ..⟩

theorem eswRxqConsWrite_gives (near : n - (s.qp v.val q.val).rxCons ≤ (s.qp v.val q.val).rxProd - (s.qp v.val q.val).rxCons) :
    Gives (.eswRxqConsWrite v q n) s (fun t => (t.qp v.val q.val).rxCons = n ∧ (t.qp v.val q.val).rxProd = (s.qp v.val q.val).rxProd ∧
      (t.qp v.val q.val).consErr = (s.qp v.val q.val).consErr ∧ Frame [.esw] s t) := by
  refine ⟨_, (eswRxqConsWrite_of_active runs pair active).trans (congrArg Host.Outcome.next (if_neg (Nat.not_lt.mpr (BitVec.le_def.mp near)))), ?_,
    ?_, ?_,
    State.modQp_frame ..⟩
  · rw [State.modQp_same]
  · rw [State.modQp_same]
  · rw [State.modQp_same]

end

/-! ### One descriptor -/

/-- The producer has moved on and nothing waits. -/
def doorbellRung (v q : Nat) (n : U16) (s : State) : State := s.modQp v q (fun x => { x with txProd := n, waiting := [] })

theorem doorbellRung_qp (v q : Nat) (n : U16) (s : State) : (doorbellRung v q n s).qp v q = { s.qp v q with txProd := n, waiting := [] } :=
  State.modQp_same ..

theorem txDoorbell_of_next {v q : Nat} (none_ : (s.qp v q).waiting = [])
    (near : ((s.qp v q).txProd + 1 - (s.qp v q).txCons).toNat ≤ 2 ^ (s.qp v q).depthLog2)
    (free : (s.swp (s.txPort v)).held.getLsbD (d.flags.extractLsb' 0 3).toNat = false) :
    txDoorbell v q ((s.qp v q).txProd + 1) [d] rv s = takeDesc v q (s.qp v q).txProd d rv (doorbellRung v q ((s.qp v q).txProd + 1) s) := by
  have count : ((s.qp v q).txProd + 1 - (s.qp v q).txProd).toNat = 1 := by
    rw [BitVec.add_comm, BitVec.add_sub_cancel]
    rfl
  have start : (s.qp v q).txProd + 1 - BitVec.ofNat 16 1 = (s.qp v q).txProd := BitVec.add_sub_cancel ..
  have still : ¬((doorbellRung v q ((s.qp v q).txProd + 1) s).swp ((doorbellRung v q ((s.qp v q).txProd + 1) s).txPort v)).held.getLsbD
      (d.flags.extractLsb' 0 3).toNat = true := fun held => Bool.false_ne_true (free.symm.trans held)
  have one : txDoorbell v q ((s.qp v q).txProd + 1) [d] rv s =
      takeDescs v q rv [d] (s.qp v q).txProd (doorbellRung v q ((s.qp v q).txProd + 1) s) := by
    refine (if_neg (Nat.not_lt.mpr near)).trans ?_
    rw [none_, count]
    exact congrArg (fun m => takeDescs v q rv [d] m (doorbellRung v q ((s.qp v q).txProd + 1) s)) start
  rw [one, takeDescs]
  exact if_neg still

/-- What the completion of a descriptor of the present generation leaves. -/
theorem advanceTx_kept (n : Nat) (x : QPair) : ∃ c, advanceTx n x = { x with txCons := c } := by
  induction n generalizing x with
  | zero => exact ⟨_, rfl⟩
  | succ n ih =>
    unfold advanceTx
    split
    · obtain ⟨c, rest⟩ := ih { x with txCons := x.txCons + 1 }
      exact ⟨c, rest⟩
    · exact ⟨_, rfl⟩

theorem completeTx_of_present {r : TxRef} {w : TxDone} (present : r.gen = (s.vzf r.vzf).gen) : completeTx r w s =
    (s.modQp r.vzf r.pair (fun q => advanceTx (2 ^ q.depthLog2) { q with done := q.done.set r.entry w })).raiseSrc (some r.vzf) (4 + r.pair) :=
  if_neg (not_not_intro present)

theorem completeTx_qp {r : TxRef} {w : TxDone} (present : r.gen = (s.vzf r.vzf).gen) : ∃ c, (completeTx r w s).qp r.vzf r.pair =
    { s.qp r.vzf r.pair with done := (s.qp r.vzf r.pair).done.set r.entry w, txCons := c } := by
  obtain ⟨c, moved⟩ := advanceTx_kept (2 ^ (s.qp r.vzf r.pair).depthLog2) { s.qp r.vzf r.pair with done := (s.qp r.vzf r.pair).done.set r.entry w }
  refine ⟨c, ?_⟩
  rw [completeTx_of_present present]
  exact (State.modQp_same s r.vzf r.pair _).trans moved

/-- The reference of a descriptor. -/
def descRef (v q : Nat) (n : U16) (d : TxDesc) (s : State) : TxRef :=
  { vzf := v, pair := q, entry := n.toNat, gen := (s.vzf v).gen, tsReq := flagOf d.flags 3, oneStep := flagOf d.flags 4 }

theorem takeDesc_of_stale {v q : Nat} (stale : d.gen ≠ (s.vzf v).gen) :
    takeDesc v q n d rv s = completeTx (descRef v q n d s) { status := 3, reason := 0, stamp := 0 } s := if_pos stale

/-- The count of a frame whose source is not the VZF's. -/
def spoofCounted (s : State) : State := s.modEswStats (fun t => { t with spoof := t.spoof + 1 })

theorem takeDesc_of_spoofed {v q : Nat} (fresh : d.gen = (s.vzf v).gen) (taken : descRefused d (s.qp v q) = false)
    (foreign : (s.vzf v).tpl.macs.contains d.frame.src = false) :
    takeDesc v q n d rv s = completeTx (descRef v q n d s) { status := 1, reason := 0, stamp := 0 } (spoofCounted s) := by
  unfold takeDesc
  dsimp only
  rw [if_neg (not_not_intro fresh), taken, if_neg Bool.false_ne_true, foreign]
  rfl

section
variable (runs : s.eswOn = true) (pair : s.hasPair v.val q.val = true) (active : s.vzfActive v.val = true) (none_ : (s.qp v.val q.val).waiting = [])
  (near : ((s.qp v.val q.val).txProd + 1 - (s.qp v.val q.val).txCons).toNat ≤ 2 ^ (s.qp v.val q.val).depthLog2)
  (free : (s.swp (s.txPort v.val)).held.getLsbD (d.flags.extractLsb' 0 3).toNat = false)
include runs pair active none_ near free

theorem eswTxqProdWrite_next : exec (.eswTxqProdWrite v q ((s.qp v.val q.val).txProd + 1) [d] rv) s =
    .next (takeDesc v.val q.val (s.qp v.val q.val).txProd d rv (doorbellRung v.val q.val ((s.qp v.val q.val).txProd + 1) s)) :=
  (eswTxqProdWrite_of_active runs pair active [d]).trans (congrArg Host.Outcome.next (txDoorbell_of_next none_ near free))

theorem eswTxqProdWrite_stale_gives (stale : d.gen ≠ (s.vzf v.val).gen) :
    Gives (.eswTxqProdWrite v q ((s.qp v.val q.val).txProd + 1) [d] rv) s (fun t =>
      (t.qp v.val q.val).txProd = (s.qp v.val q.val).txProd + 1 ∧
      (t.qp v.val q.val).done.get? (s.qp v.val q.val).txProd.toNat = some { status := 3, reason := 0, stamp := 0 } ∧
      t.esw.stored = s.esw.stored ∧ Frame [.vz, .esw] s t) := by
  have step := (eswTxqProdWrite_next (rv := rv) runs pair active none_ near free).trans (congrArg Host.Outcome.next
    (takeDesc_of_stale (n := (s.qp v.val q.val).txProd) (q := q.val) (rv := rv) (s := doorbellRung v.val q.val
    ((s.qp v.val q.val).txProd + 1) s) stale))
  obtain ⟨c, done⟩ := completeTx_qp (s := doorbellRung v.val q.val ((s.qp v.val q.val).txProd + 1) s)
    (r := descRef v.val q.val (s.qp v.val q.val).txProd d (doorbellRung v.val q.val ((s.qp v.val q.val).txProd + 1) s))
    (w := { status := 3, reason := 0, stamp := 0 }) rfl
  have done : State.qp _ v.val q.val = _ := done
  obtain ⟨_, esw⟩ := completeTx_esw (descRef v.val q.val (s.qp v.val q.val).txProd d (doorbellRung v.val q.val ((s.qp v.val q.val).txProd + 1) s))
    { status := 3, reason := 0, stamp := 0 } (doorbellRung v.val q.val ((s.qp v.val q.val).txProd + 1) s)
  refine ⟨_, step, ?_, ?_, ?_, ?_⟩
  · rw [done]
    exact congrArg QPair.txProd (doorbellRung_qp ..)
  · rw [done]
    exact Tbl.get?_set_same ..
  · rw [esw]; rfl
  · exact .via (completeTx_frame ..) (by decide) (.mono (State.modQp_frame ..) (by decide))

theorem eswTxqProdWrite_spoofed_gives (fresh : d.gen = (s.vzf v.val).gen) (taken : descRefused d (s.qp v.val q.val) = false)
    (foreign : (s.vzf v.val).tpl.macs.contains d.frame.src = false) :
    Gives (.eswTxqProdWrite v q ((s.qp v.val q.val).txProd + 1) [d] rv) s (fun t => t.esw.stats.spoof = s.esw.stats.spoof + 1 ∧
      t.esw.stored = s.esw.stored ∧ t.esw.fdb = s.esw.fdb ∧ Frame [.vz, .esw] s t) := by
  have still : descRefused d ((doorbellRung v.val q.val ((s.qp v.val q.val).txProd + 1) s).qp v.val q.val) = false := by
    rw [doorbellRung_qp]
    exact taken
  have step := (eswTxqProdWrite_next (rv := rv) runs pair active none_ near free).trans (congrArg Host.Outcome.next
    (takeDesc_of_spoofed (n := (s.qp v.val q.val).txProd) (rv := rv) (s := doorbellRung v.val q.val
    ((s.qp v.val q.val).txProd + 1) s) fresh still foreign))
  obtain ⟨_, esw⟩ := completeTx_esw (descRef v.val q.val (s.qp v.val q.val).txProd d (doorbellRung v.val q.val ((s.qp v.val q.val).txProd + 1) s))
    { status := 1, reason := 0, stamp := 0 } (spoofCounted (doorbellRung v.val q.val ((s.qp v.val q.val).txProd + 1) s))
  refine ⟨_, step, ?_, ?_, ?_, ?_⟩
  · rw [esw]; rfl
  · rw [esw]; rfl
  · rw [esw]; rfl
  · exact .via (completeTx_frame ..) (by decide) (.mono (.via (State.modEswStats_frame ..) (by decide) (State.modQp_frame ..)) (by decide))

end

end

/-- Settles O42: a frame that passes is stored as `storeFrame_esw` says, a drop counts as `dropAt_esw` and `potDrop_esw` say,
  a lone frame crosses in as many cell
times as it has cells (`cross_lone`), and what leaves frees its memory as `leaving_last` says. Pots,
  the passage of frames and PLCA are as log entries 73, 74 and 78
take them, the crossing before a frame leaves as log entry 140 does. -/
theorem switchEventsAct : Obligations.SwitchEventsAct := by
  unfold Obligations.SwitchEventsAct
  refine ⟨?apart, ?long, ?secured, ?stored, ?full, ?lossless, ?losslessNone, ?unchanged, ?crossOnly, ?crossKept, ?lone, ?matched, ?robin, ?quiet,
    ?wire, ?ring, ?episode,
    ?snapshot, ?snapshotOff, ?idle, ?leaks, ?eccFree, ?eccHeld, ?eccOff, ?gate, ?streamGate, ?ageing, ?link, ?linkSame, ?macsec, ?macsecLive,
      ?beaconLost, ?beaconBack, ?plca,
    ?latent, ?latentPassed, ?scrub0, ?scrub1, ?waits, ?unmapped, ?prodFar, ?stale, ?spoofed, ?consFar, ?consumed⟩
  case apart => exact fun p ck f st rv s off => frameIngress_unchanged ck off
  case long => exact fun p f st rv s runs en wire free open_ long => frameIngress_long_gives runs en wire free open_ long
  case secured => exact fun p f st rv s runs en here free secured => frameIngress_secured_gives runs en here free secured
  case stored =>
    exact fun p f st l fl k n s runs en wire free open_ deaf unfiltered short plain low high routed some_ live pot cells fits descs copies room shared =>
      frameIngress_stored_gives runs en wire free open_ deaf unfiltered short plain low high routed some_ live pot cells fits descs copies room shared
  case full =>
    exact fun p f st l fl k s runs en wire free open_ deaf unfiltered short plain low high routed some_ live pot full =>
      frameIngress_full_gives runs en wire free open_ deaf unfiltered short plain low high routed some_ live pot full
  case lossless => exact fun p c x s found => losslessTimeout_gives found
  case losslessNone => exact fun p c s none_ => losslessTimeout_of_none none_
  case unchanged => exact fun p s off => frameEgress_unchanged off
  case crossOnly => exact fun p s runs not0 not1 none_ => frameEgress_of_none runs not0 not1 none_
  case crossKept => exact crossbar_eq
  case lone => exact fun x c s stored copy plane waits => crossbar_lone stored copy plane waits
  case matched => exact EswState.matchOnce_matches
  case robin => exact roundRobin_highest
  case quiet => exact cellTime_of_quiet
  case wire => exact fun p k x c d s u runs low high across chosen one own open_ => frameEgress_wire_gives runs low high across chosen one own open_
  case ring => exact fun k x c d s runs chosen own class_ short => frameEgress_ring_gives runs chosen own class_ short
  case episode => exact fun k s runs => potFullEpisodeEnd_gives runs
  case snapshot => exact fun a b l s runs => cellAudit_gives runs
  case snapshotOff => exact fun a b l s off => congrArg Host.Outcome.next (if_neg (by rw [off]; exact Bool.false_ne_true))
  case idle => exact fun s idle => leakCompareDone_of_idle idle
  case leaks => exact fun s runs keeps => leakCompareDone_gives runs keeps
  case eccFree => exact fun c s runs inside room => cellEccError_free_gives runs inside room
  case eccHeld => exact fun c i x s runs inside held pos => cellEccError_held_gives runs inside held pos
  case eccOff => exact fun c i s off => cellEccError_unchanged off
  case gate => exact fun i s runs small => gateListEntry_gives runs small
  case streamGate => exact fun i s runs => gateListEntry_stream_gives runs
  case ageing => exact fun m v s => ⟨_, rfl, rfl, State.modEsw_frame ..⟩
  case link => exact fun p up s runs wired other => eswLinkChange_gives runs wired other
  case linkSame => exact fun p up s same => congrArg Host.Outcome.next (linkChange_of_same same)
  case macsec => exact fun p s runs here secured link dead => portMacsecTimeout_gives runs here secured link dead
  case macsecLive => exact fun p s live => portMacsecTimeout_of_live live
  case beaconLost => exact fun p s runs here follows => plcaBeaconTimeout_gives runs here follows
  case beaconBack => exact fun p s runs here follows => plcaBeaconReturn_gives runs here follows
  case plca => exact fun p s other => plca_of_other other
  case latent => exact fun k x s found recovers tests => latentErrorTest_gives found recovers tests
  case latentPassed => exact latentErrorTest_of_passed
  case scrub0 => exact fun s dirty quiet => cellScrubbed_gives_0 dirty quiet
  case scrub1 => exact fun s dirty quiet => cellScrubbed_gives_1 dirty quiet
  case waits => exact fun x s clean one granted => cellScrubbed_granted_gives clean one granted
  case unmapped => exact fun v q n ds rv s unmapped => doorbells_of_unmapped ds unmapped
  case prodFar => exact fun v q n ds rv s runs pair active far => eswTxqProdWrite_far_gives runs pair active ds far
  case stale => exact fun v q d rv s runs pair active none_ near free stale => eswTxqProdWrite_stale_gives runs pair active none_ near free stale
  case spoofed =>
    exact fun v q d rv s runs pair active none_ near free fresh taken foreign =>
      eswTxqProdWrite_spoofed_gives runs pair active none_ near free fresh taken foreign
  case consFar => exact fun v q n s runs pair active far => eswRxqConsWrite_far_gives runs pair active far
  case consumed => exact fun v q n s runs pair active near => eswRxqConsWrite_gives runs pair active near

end Sys2Proof.Machine
end

section
/-! PROOF. A frame of a CAN channel whose owner is looked up in a table of VZFs out of order (R308, R311). -/

namespace Sys2Proof.Machine

/-! ### Two VZFs that name the channel -/

/-- A VZF whose template names CAN channel 0. -/
def canVzf (life : VzfLife) : Vzf := { Vzf.free with life := life, tpl := { Vzf.free.tpl with canMask := 1 } }

/-- The local port of VZF 3, which hears every event. -/
def hearingPort : Port := { Port.service with kind := .loc, vzf := some 3, subClass := 0 }

/-- Channel 0 is on the bus and stores every frame. -/
def storingChan : CanChan :=
  { CanChan.reset with mode := .errorActive, filters := ⟨[(0, { en := true, store := true, ide := false, formats := 7, id := 0, mask := 0 })]⟩ }

/-- VZF 5, which is active, stands before VZF 3, which quiesces. -/
def unorderedState : State :=
  { State.reset with
    sys := { SysState.reset with mode := .run, domains := [pdCan 0] }
    vz := { VzfState.reset with vzfs := ⟨[(5, canVzf .active), (3, canVzf .quiescing)]⟩ }
    mbx := { State.reset.mbx with ports := ⟨[(0, hearingPort)]⟩ }
    net := { State.reset.net with can := ⟨[(0, storingChan)]⟩ } }

/-- An empty classical frame, with which the channel becomes error passive. -/
def emptyFrame : CanFrame :=
  { fmt := 0, ide := false, rtr := false, brs := false, esi := false, id := 0, sdt := 0, vcid := 0, sec := false, af := 0, dlen := 0, data := [] }
def passiveCounters : CanCounters := { tec := 128, rec_ := 0, err := 0 }

theorem unorderedState_owner : unorderedState.canOwner 0 = some 5 := by decide

/-- The event that channel 0 is error passive. -/
def passiveRaised : State := canCount 0 passiveCounters unorderedState

theorem passiveRaised_owner : passiveRaised.canOwner 0 = some 3 := by decide

/-- The frame is dropped as one for a VZF in reset: the entry stays hardware's. -/
theorem canReceive_unorderedState :
    (((canReceive 0 emptyFrame 0 passiveCounters unorderedState).canCh 0).rxE (unorderedState.canCh 0).rxFill).own = true := by decide

/-- Refutes O44: its fourth clause says that a frame which passes is stored while the channel's owner is active. In `unorderedState` the owner is VZF 5,
the first listed one whose template names the channel. The frame brings the channel to error passive; the event moves the ring of VZF 3's local
port and raises a vector of VZF 3, whose changed entry then stands first. VZF 3 quiesces, so the frame is dropped (R311). The clause misses that the
list must be in order. -/
theorem not_canEventsAct : ¬ Obligations.CanEventsAct := by
  rintro ⟨-, -, -, stores, -⟩
  obtain ⟨u, received, filled, -⟩ := stores 0 emptyFrame 0 passiveCounters unorderedState rfl (by decide) rfl (by decide) (by decide) (by decide)
    (by decide) (by decide)
  obtain rfl : canReceive 0 emptyFrame 0 passiveCounters unorderedState = u := Host.Outcome.next.inj received
  exact Bool.false_ne_true (filled.symm.trans canReceive_unorderedState)

end Sys2Proof.Machine
end

section
/-! PROOF. The CAN commands (R297, R298, R305, R307, R310, R313, R322, R324). -/

namespace Sys2Proof.Machine

/-! ### TX entries -/

/-- The channel once an entry is complete (R302). -/
def entryDone (e result : Nat) (late : Bool) (time : U64) (x : CanChan) : CanChan :=
  { x with tx := x.tx.modify .tx e (fun y => { y with ctl := doneCtl y.ctl result late, time := time })
           pending := x.pending.filter (fun k => k != e) }

section
variable {s : State} {c e : Nat} {result : Nat} {late : Bool} {time : U64} {x : CanChan}

theorem canFinish_net (c e result : Nat) (late : Bool) (time : U64) (s : State) :
    (canFinish c e result late time s).net = (s.modCan c (entryDone e result late time)).net := by
  unfold canFinish
  dsimp only
  split
  · exact (State.raiseSrc_frame ..).same .net (by decide)
  · rfl

theorem canCh_eq {t u : State} (net : t.net = u.net) (c : Nat) : t.canCh c = u.canCh c := by rw [State.canCh, net, State.canCh]

theorem nmRing_eq {t u : State} (net : t.net = u.net) (c : Nat) : t.nmRing c = u.nmRing c := by rw [State.nmRing, net, State.nmRing]

theorem canFinish_same (c e result : Nat) (late : Bool) (time : U64) (s : State) :
    (canFinish c e result late time s).canCh c = entryDone e result late time (s.canCh c) :=
  (canCh_eq (canFinish_net ..) c).trans (State.modCan_same ..)

theorem canFinish_other {j : Nat} (c e result : Nat) (late : Bool) (time : U64) (s : State) (other : j ≠ c) :
    (canFinish c e result late time s).canCh j = s.canCh j :=
  (canCh_eq (canFinish_net ..) j).trans (State.modCan_other _ _ _ _ other)

theorem entryDone_txE (e result : Nat) (late : Bool) (time : U64) (x : CanChan) :
    (entryDone e result late time x).txE e = { x.txE e with ctl := doneCtl (x.txE e).ctl result late, time := time } := Tbl.getD_modify_same ..

theorem entryDone_txE_other {k : Nat} (other : k ≠ e) : (entryDone e result late time x).txE k = x.txE k := Tbl.getD_modify_other _ _ _ _ _ other

theorem entryDone_pending (e result : Nat) (late : Bool) (time : U64) (x : CanChan) : e ∉ (entryDone e result late time x).pending := fun here => by
  have differs := (List.mem_filter.mp here).2
  rw [bne_self_eq_false] at differs
  exact Bool.false_ne_true differs

theorem doneCtl_own {ctl : U32} (small : result < 64) : (doneCtl ctl result late).getLsbD 31 = false := by
  have high : (BitVec.ofNat 32 (result * 65536 + (if late then 4194304 else 0))).getLsbD 31 = false := by
    rw [BitVec.getLsbD_ofNat, Nat.testBit_lt_two_pow (by cases late <;> simp <;> omega)]
    exact Bool.and_false _
  rw [doneCtl, BitVec.getLsbD_or, BitVec.getLsbD_and, high, Bool.or_false]
  exact Bool.and_false _

theorem entryDone_own (small : result < 64) : ((entryDone e result late time x).txE e).own = false := by
  rw [entryDone_txE]
  exact doneCtl_own small

/-! ### `CAN.STOP` -/

/-- Entries that end as aborted. -/
def abortEntries (c : Nat) (es : List Nat) (s : State) : State := es.foldl (fun s e => canFinish c e canAborted false s.tb.count s) s

theorem abortEntries_cons (c e : Nat) (es : List Nat) (s : State) :
    abortEntries c (e :: es) s = abortEntries c es (canFinish c e canAborted false s.tb.count s) := rfl

theorem abortEntries_frame (c : Nat) (es : List Nat) (s : State) : Frame [.vz, .net] s (abortEntries c es s) := by
  induction es generalizing s with
  | nil => exact .refl _ _
  | cons e es ih => exact .via (ih _) (by decide) (canFinish_frame ..)

theorem abortEntries_other {j : Nat} (es : List Nat) (other : j ≠ c) (s : State) : (abortEntries c es s).canCh j = s.canCh j := by
  induction es generalizing s with
  | nil => rfl
  | cons e es ih => exact (ih _).trans (canFinish_other _ _ _ _ _ _ other)

/-- An aborted entry, and one that software owns, is software's. -/
theorem abortEntries_own (es : List Nat) (s : State) (k : Nat) (here : k ∈ es ∨ ((s.canCh c).txE k).own = false) :
    (((abortEntries c es s).canCh c).txE k).own = false := by
  induction es generalizing s with
  | nil => exact here.resolve_left List.not_mem_nil
  | cons e es ih =>
    refine ih _ ?_
    rw [canFinish_same]
    by_cases same : k = e
    · exact .inr (same ▸ entryDone_own (by decide))
    · rw [entryDone_txE_other same]
      exact here.imp_left (fun listed => (List.mem_cons.mp listed).resolve_left same)

/-- The entries that hardware owns. -/
def handedEntries (c : Nat) (s : State) : List Nat := (List.range 96).filter (fun e => ((s.canCh c).txE e).own)

/-- The channel once `CAN.STOP` has taken effect. -/
def stoppedChan (x : CanChan) : CanChan := { x with mode := .stopped, xcvr := .receiveOnly, attempt := none, pending := [], stopping := none }

theorem canStopNow_eq (c : Nat) (s : State) : canStopNow c s = (abortEntries c (handedEntries c s) s).modCan c stoppedChan := rfl

theorem canStopNow_same (c : Nat) (s : State) : (canStopNow c s).canCh c = stoppedChan ((abortEntries c (handedEntries c s) s).canCh c) :=
  State.modCan_same ..

theorem canStopNow_own (c : Nat) (s : State) (k : Nat) (small : k < 96) : (((canStopNow c s).canCh c).txE k).own = false := by
  rw [canStopNow_same]
  refine abortEntries_own _ s k ?_
  cases owned : ((s.canCh c).txE k).own with
  | true => exact .inl (List.mem_filter.mpr ⟨List.mem_range.mpr small, owned⟩)
  | false => exact .inr rfl

theorem canStopNow_other {j : Nat} (c : Nat) (s : State) (other : j ≠ c) : (canStopNow c s).canCh j = s.canCh j :=
  (State.modCan_other _ _ _ _ other).trans (abortEntries_other _ other s)

theorem canStopBody_of_stopped {r : Req} (bad : (s.canCh c).mode = .stopped ∨ (s.canCh c).mode = .busOff ∨ (s.canCh c).stopping.isSome = true) :
    canStopBody r c s = (s, .fail stat_badState) := if_pos bad

theorem canStopBody_of_active {r : Req} (on_bus : (s.canCh c).mode ≠ .stopped) (up : (s.canCh c).mode ≠ .busOff)
    (free : (s.canCh c).stopping = none) :
    canStopBody r c s = if (s.canCh c).attempt.isSome then
      (s.modCan c (fun x => { x with stopping := some (r.port, r.tag, r.seq) }), .fail stat_pending)
      else (canStopNow c s, .ok []) := by
  refine if_neg ?_
  rintro (stopped | off | stops)
  · exact on_bus stopped
  · exact up off
  · rw [free] at stops
    exact Bool.false_ne_true stops

/-! ### `CAN.CANCEL` -/

/-- The cancel is counted. -/
def cancelCounted (x : CanChan) : CanChan := { x with stats := { x.stats with cancels := x.stats.cancels + 1 } }

theorem canCancelEntry_of_idle (here : e ∈ (s.canCh c).pending) (quiet : (s.canCh c).attempt = none) :
    canCancelEntry c e s = ((canFinish c e canCancelled false s.tb.count s).modCan c cancelCounted, 0) := by
  unfold canCancelEntry
  dsimp only
  rw [List.contains_iff_mem.mpr here, quiet]
  rfl

theorem canCancelEntry_of_absent (absent : e ∉ (s.canCh c).pending) : canCancelEntry c e s = (s, 2) :=
  if_pos (by rw [Bool.eq_false_iff.mpr (fun here => absent (List.contains_iff_mem.mp here))]; rfl)

/-! ### `CAN.START` -/

/-- The channel takes up bus operation. -/
def integratingChan (x : CanChan) : CanChan :=
  { x with mode := .integrating, waking := false, xcvr := if canListen x.record then .receiveOnly else .normal }

theorem canIntegrate_same (c : Nat) (s : State) : (canIntegrate c s).canCh c = integratingChan (s.canCh c) := State.modCan_same ..

theorem canIntegrate_other {j : Nat} (c : Nat) (s : State) (other : j ≠ c) : (canIntegrate c s).canCh j = s.canCh j :=
  State.modCan_other _ _ _ _ other

theorem raiseCan_net (k : EvKind) (c : Nat) (d : List Byte) (s : State) : (raiseCan k c d s).net = s.net := (raiseCan_frame ..).same .net (by decide)

/-- What the wake of a ring leaves: the channels, and an awake ring where it takes part. -/
theorem nmAwake_leaves (c : Nat) (s : State) : (nmAwake c s).net.can = s.net.can ∧ ((nmAwake c s).nmRing c).holders = (s.nmRing c).holders ∧
    (s.nmOn c = true → ((nmAwake c s).nmRing c).awake = true ∧ ((s.nmRing c).awake = false → ((nmAwake c s).nmRing c).join = true)) := by
  by_cases off : (!s.nmOn c || (s.nmRing c).awake) = true
  · have same : nmAwake c s = s := if_pos off
    rw [same]
    refine ⟨rfl, rfl, fun here => ?_⟩
    rw [here] at off
    exact ⟨off, fun asleep => (Bool.false_ne_true (asleep.symm.trans off)).elim⟩
  · have woken : (nmAwake c s).net = (s.modNm c (fun n => { n with awake := true, join := true })).net :=
      (congrArg State.net (if_neg off)).trans (raiseCan_net ..)
    have ring : (nmAwake c s).nmRing c = { s.nmRing c with awake := true, join := true } := (nmRing_eq woken c).trans (State.modNm_same ..)
    rw [ring]
    exact ⟨(congrArg (fun n => n.can) woken :), rfl, fun _ => ⟨rfl, fun _ => rfl⟩⟩

theorem canStartNow_leaves (c : Nat) (s : State) : (canStartNow c s).net.can = (canIntegrate c s).net.can ∧
    (s.nmOn c = true → ((canStartNow c s).nmRing c).awake = true ∧ ((canStartNow c s).nmRing c).join = true) := by
  have shape : canStartNow c s = if s.nmOn c then (if (s.nmRing c).awake then (canIntegrate c s).modNm c (fun n => { n with join := true })
      else nmAwake c (canIntegrate c s)) else canIntegrate c s := rfl
  rw [shape]
  cases here : s.nmOn c with
  | false => exact ⟨rfl, fun never => (Bool.false_ne_true never).elim⟩
  | true =>
    rw [if_pos rfl]
    cases awake : (s.nmRing c).awake with
    | true =>
      rw [if_pos rfl]
      refine ⟨rfl, fun _ => ?_⟩
      rw [State.modNm_same]
      exact ⟨awake, rfl⟩
    | false =>
      obtain ⟨can, -, woken⟩ := nmAwake_leaves c (canIntegrate c s)
      obtain ⟨isAwake, joins⟩ := woken here
      exact ⟨can, fun _ => ⟨isAwake, joins awake⟩⟩

end

/-! ### Checks of the commands -/

section
variable {s : State} {r : Req} {p : Port} {c : Byte}

theorem canIndex_of_small (small : c.toNat ≤ 15) : canIndex c = none := needStat_eq_none.mpr (decide_eq_true small)

theorem canNeed_check_of_mayUse (small : c.toNat ≤ 15) (may : p.mayUse (s.canOwner c.toNat)) : (canNeed s c).check p = none := by
  rw [canNeed, if_pos small]
  exact Need.check_of_mayUse may

theorem canCmd_payload {code : U16} {len : Nat} {payload : Option U16} (small : c.toNat ≤ 15) (clean : payload = none) :
    (canCmd code len r c payload s).payload = none := by
  show orStat (canIndex c) payload = none
  rw [canIndex_of_small small, orStat_none, clean]

theorem filterPayload {k fl : Byte} {id mask : U32} (zero3 : flagOf fl 3 = false) (zero7 : flagOf fl 7 = false) (inside : k.toNat ≤ 63)
    (id29 : id.toNat < 536870912) (mask29 : mask.toNat < 536870912) :
    orStat (needStat (!flagOf fl 3 && !flagOf fl 7) stat_badPayload)
      (needStat (decide (k.toNat ≤ 63) && decide (id.toNat < 536870912) && decide (mask.toNat < 536870912)) stat_range) = none := by
  rw [zero3, zero7, decide_eq_true inside, decide_eq_true id29, decide_eq_true mask29]
  rfl

theorem cancelPayload {e : Byte} (inside : e.toNat ≤ 95) : needStat (decide (e.toNat ≤ 95)) stat_range = none :=
  needStat_eq_none.mpr (decide_eq_true inside)

section
variable (small : c.toNat ≤ 15) (may : p.mayUse (s.canOwner c.toNat)) (runs : s.sys.mode.isRunLimpWork = true)
include small may runs

theorem canCmd_passes {code : U16} {len : Nat} {payload : Option U16} (q : Requested s r p len) (clean : payload = none) :
    (canCmd code len r c payload s).check r p = none :=
  q.passes (decide_eq_true q.len) (canNeed_check_of_mayUse small may) (canCmd_payload small clean) runs

/-! ### The clauses -/

theorem canConfig_answers {f : CanRecord} (q : Requested s r p 36) (zero : flagOf f.flags 7 = false) (stopped : (s.canCh c.toNat).mode = .stopped)
    (wake : f.wake.toNat ≤ 2) (timing : canTimingOk f = true) (free : s.canTxbTaken c.toNat f = false) :
    Answers (.canConfig r c f) r 0x0901 stat_ok [] s (fun u =>
      u.canCh c.toNat = { s.canCh c.toNat with record := f, configured := true } ∧ (∀ j, j ≠ c.toNat → u.canCh j = s.canCh j) ∧
      Frame [.net] s u) := by
  have does : canConfigBody c.toNat f s = (s.modCan c.toNat (fun x => { x with record := f, configured := true }), .ok []) := by
    unfold canConfigBody
    rw [if_neg (not_not_intro stopped), if_neg (Nat.not_lt.mpr wake), timing, if_neg (by exact Bool.false_ne_true), free, if_neg Bool.false_ne_true]
  exact answers_of_accepted q rfl (canCmd_passes small may runs q (needStat_eq_none.mpr (by rw [zero]; rfl))) does rfl
    ⟨State.modCan_same .., fun j other => State.modCan_other _ _ _ _ other, State.modCan_frame ..⟩

theorem canConfig_of_badTiming {f : CanRecord} (q : Requested s r p 36) (zero : flagOf f.flags 7 = false)
    (stopped : (s.canCh c.toNat).mode = .stopped)
    (wake : f.wake.toNat ≤ 2) (timing : canTimingOk f = false) : Answers (.canConfig r c f) r 0x0901 stat_canTiming [] s (fun u => u = s) := by
  have does : canConfigBody c.toNat f s = (s, .fail stat_canTiming) := by
    unfold canConfigBody
    rw [if_neg (not_not_intro stopped), if_neg (Nat.not_lt.mpr wake), timing]
    rfl
  exact answers_of_accepted q rfl (canCmd_passes small may runs q (needStat_eq_none.mpr (by rw [zero]; rfl))) does rfl rfl

theorem canConfig_of_active {f : CanRecord} (q : Requested s r p 36) (zero : flagOf f.flags 7 = false) (active : (s.canCh c.toNat).mode ≠ .stopped) :
    Answers (.canConfig r c f) r 0x0901 stat_badState [] s (fun u => u = s) :=
  answers_of_accepted q rfl (canCmd_passes small may runs q (needStat_eq_none.mpr (by rw [zero]; rfl)))
    (if_pos active : canConfigBody c.toNat f s = _) rfl rfl

theorem canStart_answers (q : Requested s r p 4) (stopped : (s.canCh c.toNat).mode = .stopped) :
    Answers (.canStart r c) r 0x0902 stat_ok [] s (fun u => (u.canCh c.toNat).mode = .integrating ∧
      (u.canCh c.toNat).xcvr = (if canListen (s.canCh c.toNat).record then .receiveOnly else .normal) ∧
      (s.nmOn c.toNat = true → (u.nmRing c.toNat).awake = true ∧ (u.nmRing c.toNat).join = true) ∧
      (∀ j, j ≠ c.toNat → u.canCh j = s.canCh j) ∧ Frame [.mbx, .log, .vz, .net] s u) := by
  obtain ⟨can, ring⟩ := canStartNow_leaves c.toNat s
  have chans (j : Nat) : (canStartNow c.toNat s).canCh j = (canIntegrate c.toNat s).canCh j := congrArg (fun t : Tbl CanChan => t.getD .reset j) can
  have here := (chans c.toNat).trans (canIntegrate_same c.toNat s)
  exact answers_of_accepted q rfl (canCmd_passes small may runs q rfl) (if_pos stopped) rfl
    ⟨congrArg CanChan.mode here, congrArg CanChan.xcvr here, ring, fun j other => (chans j).trans (canIntegrate_other _ _ other),
      canStartNow_frame ..⟩

theorem canStart_of_active (q : Requested s r p 4) (active : (s.canCh c.toNat).mode ≠ .stopped) :
    Answers (.canStart r c) r 0x0902 stat_badState [] s (fun u => u = s) :=
  answers_of_accepted q rfl (canCmd_passes small may runs q rfl) (if_neg active) rfl rfl

theorem canStop_answers (q : Requested s r p 4) (on_bus : (s.canCh c.toNat).mode ≠ .stopped) (up : (s.canCh c.toNat).mode ≠ .busOff)
    (free : (s.canCh c.toNat).stopping = none) (quiet : (s.canCh c.toNat).attempt = none) :
    Answers (.canStop r c) r 0x0903 stat_ok [] s (fun u => (u.canCh c.toNat).mode = .stopped ∧ (u.canCh c.toNat).pending = [] ∧
      (u.canCh c.toNat).xcvr = .receiveOnly ∧ (∀ e, e < 96 → ((u.canCh c.toNat).txE e).own = false) ∧
      (∀ j, j ≠ c.toNat → u.canCh j = s.canCh j) ∧ Frame [.vz, .net] s u) := by
  have does : canStopBody r c.toNat s = (canStopNow c.toNat s, .ok []) := by rw [canStopBody_of_active on_bus up free, quiet]; rfl
  have here := canStopNow_same c.toNat s
  exact answers_of_accepted q rfl (canCmd_passes small may runs q rfl) does rfl
    ⟨congrArg CanChan.mode here, congrArg CanChan.pending here, congrArg CanChan.xcvr here, canStopNow_own c.toNat s,
      fun j other => canStopNow_other _ _ other, canStopNow_frame ..⟩

theorem canStop_pending {a : CanAttempt} (q : Requested s r p 4) (on_bus : (s.canCh c.toNat).mode ≠ .stopped) (up : (s.canCh c.toNat).mode ≠ .busOff)
    (free : (s.canCh c.toNat).stopping = none) (busy : (s.canCh c.toNat).attempt = some a) :
    Answers (.canStop r c) r 0x0903 stat_pending [] s (fun u =>
      u.canCh c.toNat = { s.canCh c.toNat with stopping := some (r.port, r.tag, r.seq) } ∧ Frame [.net] s u) := by
  have does : canStopBody r c.toNat s = (s.modCan c.toNat (fun x => { x with stopping := some (r.port, r.tag, r.seq) }), .fail stat_pending) := by
    rw [canStopBody_of_active on_bus up free, busy]
    rfl
  exact answers_of_accepted q rfl (canCmd_passes small may runs q rfl) does rfl ⟨State.modCan_same .., State.modCan_frame ..⟩

theorem canBusOff_answers (q : Requested s r p 4) (off : (s.canCh c.toNat).mode = .busOff) :
    Answers (.canStop r c) r 0x0903 stat_badState [] s (fun u => u = s) ∧
    Answers (.canRecover r c) r 0x0904 stat_ok [] s (fun u => u.canCh c.toNat = { s.canCh c.toNat with mode := .recovering } ∧ Frame [.net] s u) :=
  ⟨answers_of_accepted q rfl (canCmd_passes small may runs q rfl) (canStopBody_of_stopped (.inr (.inl off))) rfl rfl,
    answers_of_accepted q rfl (canCmd_passes small may runs q rfl) (if_pos off) rfl ⟨State.modCan_same .., State.modCan_frame ..⟩⟩

theorem canRecover_of_up (q : Requested s r p 4) (up : (s.canCh c.toNat).mode ≠ .busOff) :
    Answers (.canRecover r c) r 0x0904 stat_badState [] s (fun u => u = s) :=
  answers_of_accepted q rfl (canCmd_passes small may runs q rfl) (if_neg up) rfl rfl

theorem canSetFilter_answers {k fl : Byte} {id mask : U32} (q : Requested s r p 12) (zero3 : flagOf fl 3 = false) (zero7 : flagOf fl 7 = false)
    (inside : k.toNat ≤ 63) (id29 : id.toNat < 536870912) (mask29 : mask.toNat < 536870912) (open_ : k.toNat ≠ 63 ∨ s.nmOn c.toNat = false) :
    Answers (.canSetFilter r c k fl id mask) r 0x0905 stat_ok [] s (fun u => (u.canCh c.toNat).filters =
      (s.canCh c.toNat).filters.set k.toNat (filterOf fl id mask) ∧ (u.canCh c.toNat).rx = (s.canCh c.toNat).rx ∧
      (∀ j, j ≠ c.toNat → u.canCh j = s.canCh j) ∧ Frame [.net] s u) := by
  have does : setFilterBody c.toNat k.toNat (filterOf fl id mask) s =
      (s.modCan c.toNat (fun x => { x with filters := x.filters.set k.toNat (filterOf fl id mask) }), .ok []) := by
    refine if_neg (fun both => ?_)
    obtain ⟨last, on_⟩ := both
    exact open_.elim (fun other => other last) (fun off => Bool.false_ne_true (off.symm.trans on_))
  have here := State.modCan_same s c.toNat (fun x => { x with filters := x.filters.set k.toNat (filterOf fl id mask) })
  exact answers_of_accepted q rfl (canCmd_passes small may runs q (filterPayload zero3 zero7 inside id29 mask29)) does rfl
    ⟨(congrArg CanChan.filters here :), (congrArg CanChan.rx here :), fun j other => State.modCan_other _ _ _ _ other, State.modCan_frame ..⟩

theorem canSetFilter_of_reserved {fl : Byte} {id mask : U32} (q : Requested s r p 12) (zero3 : flagOf fl 3 = false) (zero7 : flagOf fl 7 = false)
    (id29 : id.toNat < 536870912) (mask29 : mask.toNat < 536870912) (nm : s.nmOn c.toNat = true) :
    Answers (.canSetFilter r c 63 fl id mask) r 0x0905 stat_canReserved [] s (fun u => u = s) :=
  answers_of_accepted q rfl (canCmd_passes small may runs q (filterPayload (k := 63) zero3 zero7 (by decide) id29 mask29))
    (if_pos ⟨rfl, nm⟩ : setFilterBody c.toNat (63 : Byte).toNat (filterOf fl id mask) s = _) rfl rfl

theorem canCancel_answers {e : Byte} (q : Requested s r p 4) (inside : e.toNat ≤ 95) (soft : s.canSoftEntry c.toNat e.toNat = true)
    (here : e.toNat ∈ (s.canCh c.toNat).pending) (quiet : (s.canCh c.toNat).attempt = none) :
    Answers (.canCancel r c e) r 0x0907 stat_ok [0, 0, 0, 0] s (fun u => e.toNat ∉ (u.canCh c.toNat).pending ∧
      ((u.canCh c.toNat).txE e.toNat).ctl = doneCtl ((s.canCh c.toNat).txE e.toNat).ctl canCancelled false ∧ Frame [.vz, .net] s u) := by
  have done : ((canFinish c.toNat e.toNat canCancelled false s.tb.count s).modCan c.toNat cancelCounted).canCh c.toNat =
      cancelCounted (entryDone e.toNat canCancelled false s.tb.count (s.canCh c.toNat)) := by rw [State.modCan_same, canFinish_same]
  refine answers_of_accepted (u := (canFinish c.toNat e.toNat canCancelled false s.tb.count s).modCan c.toNat cancelCounted) q rfl
    (canCmd_passes small may runs q (cancelPayload inside)) ?_ rfl ⟨?_, ?_, ?_⟩
  · rw [soft, canCancelEntry_of_idle here quiet]
    rfl
  · rw [done]
    exact entryDone_pending e.toNat canCancelled false s.tb.count (s.canCh c.toNat)
  · rw [done]
    exact congrArg CanEntry.ctl (entryDone_txE ..)
  · exact .via (State.modCan_frame ..) (by decide) (canFinish_frame ..)

theorem canCancel_of_absent {e : Byte} (q : Requested s r p 4) (inside : e.toNat ≤ 95) (soft : s.canSoftEntry c.toNat e.toNat = true)
    (absent : e.toNat ∉ (s.canCh c.toNat).pending) : Answers (.canCancel r c e) r 0x0907 stat_ok [2, 0, 0, 0] s (fun u => u = s) := by
  refine answers_of_accepted (u := s) q rfl (canCmd_passes small may runs q (cancelPayload inside)) ?_ rfl rfl
  rw [soft, canCancelEntry_of_absent absent]
  rfl

end

section
variable (small : c.toNat ≤ 15)
include small

theorem canSetSieve_answers {dlc fl : Byte} {id mask : U32} {dm : U64} (q : Requested s r p 20) (system : p.sysPriv = true) (flags : fl.toNat ≤ 1)
    (len : dlc.toNat ≤ 8) (id29 : id.toNat < 536870912) (mask29 : mask.toNat < 536870912) (runs : s.sys.mode.isRunLimpWork = true) :
    Answers (.canSetSieve r c dlc fl id mask dm) r 0x0906 stat_ok [] s (fun u => u.canCh c.toNat = { s.canCh c.toNat with
      sieve := { dlc := dlc, ide := flagOf fl 0, id := id, mask := mask, dataMask := le64 dm } } ∧
      (∀ j, j ≠ c.toNat → u.canCh j = s.canCh j) ∧ Frame [.net] s u) := by
  have payload : orStat (needStat (decide (fl.toNat ≤ 1)) stat_badPayload)
      (needStat (decide (dlc.toNat ≤ 8) && decide (id.toNat < 536870912) && decide (mask.toNat < 536870912)) stat_range) = none := by
    rw [decide_eq_true flags, decide_eq_true len, decide_eq_true id29, decide_eq_true mask29]
    rfl
  exact answers_of_accepted q rfl (q.passes (decide_eq_true q.len) (Need.check_of_sysPriv system _) (canCmd_payload
    (s := s) (r := r) (len := 20) (code := 0x0906) small payload) runs)
    rfl rfl ⟨State.modCan_same .., fun j other => State.modCan_other _ _ _ _ other, State.modCan_frame ..⟩

section
variable {role rank view : Byte} {base cycle : U16} {mc : Byte}

/-- Every operand of `CAN.TIME_MASTER` is within its range. -/
structure TmInRange (role rank view : Byte) (base cycle : U16) (mc : Byte) : Prop where
  role : role.toNat ≤ 2
  rank : rank.toNat ≤ 3
  low : 6 ≤ view.toNat
  high : view.toNat ≤ 9
  base : base.toNat ≤ 0x7FF
  short : 10 ≤ cycle.toNat
  long : cycle.toNat ≤ 1000
  count : mc.toNat ≤ 63

omit small in
theorem TmInRange.payload (fits : TmInRange role rank view base cycle mc) : orStat (needStat (decide (role.toNat ≤ 2)) stat_badPayload)
    (needStat (decide (rank.toNat ≤ 3) && decide (6 ≤ view.toNat) && decide (view.toNat ≤ 9) && decide (base.toNat ≤ 0x7FF)
      && decide (10 ≤ cycle.toNat) && decide (cycle.toNat ≤ 1000) && decide (mc.toNat ≤ 63)) stat_range) = none := by
  obtain ⟨hRole, hRank, hLow, hHigh, hBase, hShort, hLong, hCount⟩ := fits
  rw [decide_eq_true hRole, decide_eq_true hRank, decide_eq_true hLow, decide_eq_true hHigh, decide_eq_true hBase, decide_eq_true hShort,
    decide_eq_true hLong, decide_eq_true hCount]
  rfl

theorem canTimeMaster_answers (q : Requested s r p 12) (system : p.sysPriv = true) (fits : TmInRange role rank view base cycle mc)
    (runs : s.sys.mode.isRunLimpWork = true) (free : role.toNat = 0 ∨ s.tmBound c.toNat view.toNat = false) :
    Answers (.canTimeMaster r c role rank view base cycle mc) r 0x0908 stat_ok [] s (fun u => (u.canCh c.toNat).tm =
      { CanTm.off with role := role.toNat, rank := rank.toNat, view := view.toNat, base := base.toNat, cycle := cycle.toNat
                       maxCount := mc.toNat, sending := decide (role.toNat = 2) && decide (rank.toNat = 0) } ∧
      (∀ j, j ≠ c.toNat → u.canCh j = s.canCh j) ∧ Frame [.net] s u) := by
  have bound : ¬(role.toNat ≠ 0 ∧ s.tmBound c.toNat view.toNat = true) := fun ⟨some_, taken⟩ =>
    free.elim some_ (fun off => Bool.false_ne_true (off.symm.trans taken))
  exact answers_of_accepted q rfl (q.passes (decide_eq_true q.len) (Need.check_of_sysPriv system _) (canCmd_payload
    (s := s) (r := r) (len := 12) (code := 0x0908) small fits.payload) runs)
    (if_neg bound) rfl ⟨(congrArg CanChan.tm (State.modCan_same s c.toNat _) :), fun j other => State.modCan_other _ _ _ _ other,
    State.modCan_frame ..⟩

theorem canTimeMaster_of_bound (q : Requested s r p 12) (system : p.sysPriv = true) (fits : TmInRange role rank view base cycle mc)
    (some_ : 1 ≤ role.toNat) (runs : s.sys.mode.isRunLimpWork = true) (taken : s.tmBound c.toNat view.toNat = true) :
    Answers (.canTimeMaster r c role rank view base cycle mc) r 0x0908 stat_canTmView [] s (fun u => u = s) :=
  answers_of_accepted q rfl (q.passes (decide_eq_true q.len) (Need.check_of_sysPriv system _) (canCmd_payload
    (s := s) (r := r) (len := 12) (code := 0x0908) small fits.payload) runs)
    (if_pos ⟨Nat.one_le_iff_ne_zero.mp some_, taken⟩ : tmConfigBody c.toNat role.toNat rank.toNat view.toNat base.toNat cycle.toNat mc.toNat s =
    _) rfl rfl

end

section
variable (may : p.mayUse (s.canOwner c.toNat)) (runs : s.step10 = true)
include may runs

theorem canGetStatus_answers (q : Requested s r p 4) : Answers (.canGetStatus r c) r 0x0909 stat_ok (canStatus c.toNat s) s (fun u =>
    u.canCh c.toNat = { s.canCh c.toNat with wakeUnconf := false, sieveFs := false } ∧ Frame [.net] s u) :=
  answers_of_accepted q rfl (q.passes (decide_eq_true q.len) (canNeed_check_of_mayUse small may) (canCmd_payload
    (s := s) (r := r) (len := 4) (code := 0x0909) small rfl) runs) rfl rfl
    ⟨State.modCan_same .., State.modCan_frame ..⟩

theorem canStats_answers {clear : Byte} (q : Requested s r p 4) (bit_ : clear.toNat ≤ 1) :
    Answers (.canStats r c clear) r 0x090A stat_ok (s.canCh c.toNat).stats.bytes s (fun u =>
      (u.canCh c.toNat).stats = (if clear = 1 then .zero else (s.canCh c.toNat).stats) ∧ (u.canCh c.toNat).tx = (s.canCh c.toNat).tx ∧
      Frame [.net] s u) := by
  have passes := canCmd_payload (s := s) (r := r) (len := 4)
    (code := 0x090A) small (needStat_eq_none.mpr (decide_eq_true bit_) : needStat _ stat_badPayload = none)
  refine answers_of_accepted q rfl (q.passes (decide_eq_true q.len) (canNeed_check_of_mayUse small may) passes runs) rfl rfl ?_
  by_cases clears : clear = 1
  · rw [if_pos clears, if_pos clears, State.modCan_same]
    exact ⟨rfl, rfl, State.modCan_frame ..⟩
  · rw [if_neg clears, if_neg clears]
    exact ⟨rfl, rfl, .refl _ _⟩

end

end

end

/-- Settles O45: each command passes the checks of its table and its body does what `canConfigBody`, `canStopBody`,
  `canCancelEntry` and `tmConfigBody` do; a stop
ends every entry that hardware owns (`abortEntries_own`). A wake setting above 2 and `CAN.STOP` in BUS_OFF are as log entry 81 takes them. -/
theorem canCommandsAct : Obligations.CanCommandsAct := by
  unfold Obligations.CanCommandsAct
  refine ⟨?config, ?timing, ?configActive, ?start, ?startActive, ?stop, ?stopPending, ?busOff, ?recover, ?filter, ?reserved, ?sieve, ?cancel,
    ?absent, ?master, ?bound,
    ?status, ?stats⟩
  case config => exact fun s r p c f q small may zero runs stopped wake timing free => canConfig_answers small may runs q zero stopped wake timing free
  case timing => exact fun s r p c f q small may zero runs stopped wake timing => canConfig_of_badTiming small may runs q zero stopped wake timing
  case configActive => exact fun s r p c f q small may zero runs active => canConfig_of_active small may runs q zero active
  case start => exact fun s r p c q small may runs stopped => canStart_answers small may runs q stopped
  case startActive => exact fun s r p c q small may runs active => canStart_of_active small may runs q active
  case stop => exact fun s r p c q small may runs on_bus up free quiet => canStop_answers small may runs q on_bus up free quiet
  case stopPending => exact fun s r p c a q small may runs on_bus up free busy => canStop_pending small may runs q on_bus up free busy
  case busOff => exact fun s r p c q small may runs off => canBusOff_answers small may runs q off
  case recover => exact fun s r p c q small may runs up => canRecover_of_up small may runs q up
  case filter =>
    exact fun s r p c k fl id mask q small may zero3 zero7 inside id29 mask29 runs open_ =>
      canSetFilter_answers small may runs q zero3 zero7 inside id29 mask29 open_
  case reserved => exact fun s r p c fl id mask q small may zero3 zero7 id29 mask29 runs nm => canSetFilter_of_reserved small may runs q zero3 zero7 id29 mask29 nm
  case sieve => exact fun s r p c dlc fl id mask dm q system small flags len id29 mask29 runs => canSetSieve_answers small q system flags len id29 mask29 runs
  case cancel => exact fun s r p c e q small may inside runs soft here quiet => canCancel_answers small may runs q inside soft here quiet
  case absent => exact fun s r p c e q small may inside runs soft absent => canCancel_of_absent small may runs q inside soft absent
  case master =>
    exact fun s r p c role rank view base cycle mc q system small hRole hRank low high hBase short long count runs free =>
      canTimeMaster_answers small q system ⟨hRole, hRank, low, high, hBase, short, long, count⟩ runs free
  case bound =>
    exact fun s r p c role rank view base cycle mc q system small some_ hRole hRank low high hBase short long count runs taken =>
      canTimeMaster_of_bound small q system ⟨hRole, hRank, low, high, hBase, short, long, count⟩ some_ runs taken
  case status => exact fun s r p c q small may runs => canGetStatus_answers small may runs q
  case stats => exact fun s r p c clear q small may bit_ runs => canStats_answers small may runs q bit_

end Sys2Proof.Machine
end

section
/-! PROOF. The LIN commanders at their events (R325 to R332). -/

namespace Sys2Proof.Machine

/-! ### Slots -/

section
variable {s t : State} {l : Nat}

theorem linCh_eq {t u : State} (net : t.net = u.net) (l : Nat) : t.linCh l = u.linCh l := by rw [State.linCh, net, State.linCh]

/-- The channel with a header on the bus. -/
def headed (t : LinSlot) (x : LinChan) : LinChan := { x with slot := some t, lastId := t.id, headers := x.headers + 1 }

theorem linHeader_same (l : Nat) (t : LinSlot) (s : State) : (linHeader l t s).linCh l = headed t (s.linCh l) := State.modLin_same ..

theorem linHeader_other {j : Nat} (t : LinSlot) (s : State) (other : j ≠ l) : (linHeader l t s).linCh j = s.linCh j :=
  State.modLin_other _ _ _ _ other

/-- The channel moves to entry `k`. -/
def entered (k : Nat) (x : LinChan) : LinChan := { x with entry := k, next := k + 1 }

/-- The entry of the schedule whose header comes next. -/
def LinChan.upNext (x : LinChan) : Nat := if x.next < (x.tables.getD [] x.table).length then x.next else 0

/-- The next header, once a waiting switch is done. -/
def sendNext (l : Nat) (s : State) : State :=
  if (s.linCh l).mode ≠ .running then s
  else match ((s.linCh l).tables.getD [] (s.linCh l).table)[(s.linCh l).upNext]? with
  | some e => linEntry l e (s.modLin l (entered (s.linCh l).upNext))
  | none => s.modLin l (fun x => { x with slot := none })

theorem linNext_eq (l : Nat) (s : State) : linNext l s = sendNext l (s.modLin l linSwitch) := rfl

theorem sendNext_of_entry {e : LinEntry} (runs : (s.linCh l).mode = .running)
    (entry : ((s.linCh l).tables.getD [] (s.linCh l).table)[(s.linCh l).upNext]? = some e) :
    sendNext l s = linEntry l e (s.modLin l (entered (s.linCh l).upNext)) := by
  rw [sendNext, if_neg (not_not_intro runs), entry]

theorem linSwitch_of_steady {x : LinChan} (steady : x.back = none) (stays : x.select = none) : linSwitch x = x := by
  unfold linSwitch
  rw [steady]
  dsimp only
  rw [stays]

theorem linSwitch_of_select {x : LinChan} {k : Nat} (steady : x.back = none) (moves : x.select = some k) (table : k ≠ 255) :
    linSwitch x = { x with table := k, next := 0, select := none } := by
  unfold linSwitch
  rw [steady]
  dsimp only
  rw [moves, steady]
  exact if_neg table

/-- A schedule entry puts a header out, or keeps silent; a sporadic one notes the buffer that it sends. -/
theorem linEntry_lin (l : Nat) (e : LinEntry) (s : State) : ∃ a i h f, (linEntry l e s).linCh l =
    { s.linCh l with slot := a, lastId := i, headers := h, frames := f } := by
  unfold linEntry
  dsimp only
  split
  · split
    · exact ⟨_, _, _, _, (linHeader_same ..).trans ((congrArg (headed _) (State.modLin_same s l _) :) : headed _ _ = _)⟩
    · exact ⟨_, _, _, _, State.modLin_same ..⟩
  · exact ⟨_, _, _, _, linHeader_same ..⟩
  · exact ⟨_, _, _, _, linHeader_same ..⟩
  · exact ⟨_, _, _, _, linHeader_same ..⟩

theorem linEntry_of_unconditional {e : LinEntry} (typ : e.typ = 0) :
    linEntry l e s = linHeader l ((s.linCh l).slotOf 0 (e.id.toNat % 64) s.tb.count) s := by
  unfold linEntry
  rw [typ]
  rfl

theorem linEntry_of_silent {e : LinEntry} (typ : e.typ = 2) (none_ : (s.linCh l).sporadic e.args = none) :
    linEntry l e s = s.modLin l (fun x => { x with slot := none }) := by
  unfold linEntry
  rw [typ]
  show (match (s.linCh l).sporadic e.args with | some _ => _ | none => _) = _
  rw [none_]

theorem linSlot_of_schedule (powered : s.powered (pdLin (l / 4)) = true) (runs : (s.linCh l).mode = .running) (awake : (s.linCh l).sleepReq = false)
    (free : (s.linCh l).diag = none) : linSlot l s = linNext l s := by
  unfold linSlot
  dsimp only
  rw [powered, awake, free]
  dsimp only
  rw [if_neg (by exact Bool.false_ne_true), if_neg (fun both => Bool.false_ne_true both.1), if_pos runs]

end

section
variable {l : Fin 16} {s : State}

theorem linSlotStart_unchanged (off : s.powered (pdLin (l.val / 4)) = false ∨ ((s.linCh l.val).mode = .stopped ∧ (s.linCh l.val).diag = none)) :
    exec (.linSlotStart l) s = .next s := by
  refine congrArg Host.Outcome.next ?_
  unfold linSlot
  rcases off with off | ⟨stopped, free⟩
  · rw [off]
    rfl
  · refine ite_eq_left_iff.mpr (fun _ => ?_)
    rw [stopped, free]
    exact (if_neg (fun both => LinMode.noConfusion both.2)).trans (if_neg (fun h => LinMode.noConfusion h))

section
variable (powered : s.powered (pdLin (l.val / 4)) = true)
include powered

section
variable (runs : (s.linCh l.val).mode = .running) (awake : (s.linCh l.val).sleepReq = false) (free : (s.linCh l.val).diag = none)
  (steady : (s.linCh l.val).back = none)
include runs awake free steady

/-- The channel whose switch is done is as before, without a waiting one. -/
theorem linSlotStart_of_steady {e : LinEntry} {k : Nat} (stays : (s.linCh l.val).select = none) (next : k = (s.linCh l.val).upNext)
    (entry : ((s.linCh l.val).tables.getD [] (s.linCh l.val).table)[k]? = some e) :
    exec (.linSlotStart l) s = .next (linEntry l.val e ((s.modLin l.val linSwitch).modLin l.val (entered k))) ∧
    ((s.modLin l.val linSwitch).modLin l.val (entered k)).linCh l.val = entered k (s.linCh l.val) := by
  have same : (s.modLin l.val linSwitch).linCh l.val = s.linCh l.val := (State.modLin_same ..).trans (linSwitch_of_steady steady stays)
  refine ⟨congrArg Host.Outcome.next ?_, (State.modLin_same ..).trans (congrArg (entered k) same)⟩
  rw [linSlot_of_schedule powered runs awake free, linNext_eq,
    sendNext_of_entry (s := s.modLin l.val linSwitch) (e := e) (by rw [same]; exact runs) (by rw [same, ← next]; exact entry), same, next]

theorem linSlotStart_unconditional_gives {e : LinEntry} {k : Nat} (stays : (s.linCh l.val).select = none)
    (next : k = (if (s.linCh l.val).next < ((s.linCh l.val).tables.getD [] (s.linCh l.val).table).length then (s.linCh l.val).next else 0))
    (entry : ((s.linCh l.val).tables.getD [] (s.linCh l.val).table)[k]? = some e) (typ : e.typ = 0) :
    Gives (.linSlotStart l) s (fun t => (t.linCh l.val).slot = some ((s.linCh l.val).slotOf 0 (e.id.toNat % 64) s.tb.count) ∧
      (t.linCh l.val).entry = k ∧ (t.linCh l.val).next = k + 1 ∧ (t.linCh l.val).lastId = e.id.toNat % 64 ∧
      (t.linCh l.val).headers = (s.linCh l.val).headers + 1 ∧ (∀ j, j ≠ l.val → t.linCh j = s.linCh j) ∧ Frame [.net] s t) := by
  obtain ⟨step, here⟩ := linSlotStart_of_steady powered runs awake free steady stays next entry
  generalize whole : (s.modLin l.val linSwitch).modLin l.val (entered k) = u at step here
  have frame : Frame [.net] s u := whole ▸ .via (State.modLin_frame ..) (by decide) (State.modLin_frame ..)
  have others (j : Nat) (other : j ≠ l.val) : u.linCh j = s.linCh j := by
    rw [← whole]
    exact (State.modLin_other _ _ _ _ other).trans (State.modLin_other _ _ _ _ other)
  have count : u.tb = s.tb := frame.same .tb (by decide)
  have header : (linHeader l.val ((u.linCh l.val).slotOf 0 (e.id.toNat % 64) u.tb.count) u).linCh l.val =
      headed ((s.linCh l.val).slotOf 0 (e.id.toNat % 64) s.tb.count) (entered k (s.linCh l.val)) := by
    rw [linHeader_same, here, count]
    rfl
  refine ⟨_, step.trans (congrArg Host.Outcome.next (linEntry_of_unconditional typ)), ?_, ?_, ?_, ?_, ?_, fun j other => ?_, ?_⟩
  · rw [header]; rfl
  · rw [header]; rfl
  · rw [header]; rfl
  · rw [header]; rfl
  · rw [header]; rfl
  · exact (linHeader_other _ _ other).trans (others j other)
  · exact .via (linHeader_frame ..) (by decide) frame

theorem linSlotStart_silent_gives {e : LinEntry} (stays : (s.linCh l.val).select = none)
    (entry : ((s.linCh l.val).tables.getD [] (s.linCh l.val).table)[(s.linCh l.val).next]? = some e) (typ : e.typ = 2)
    (none_ : (s.linCh l.val).sporadic e.args = none) :
    Gives (.linSlotStart l) s (fun t => (t.linCh l.val).slot = none ∧ (t.linCh l.val).headers = (s.linCh l.val).headers ∧
      (t.linCh l.val).next = (s.linCh l.val).next + 1 ∧ Frame [.net] s t) := by
  have inside : (s.linCh l.val).next < ((s.linCh l.val).tables.getD [] (s.linCh l.val).table).length :=
    (List.getElem?_eq_some_iff.mp entry).1
  obtain ⟨step, here⟩ := linSlotStart_of_steady powered runs awake free steady stays (if_pos inside).symm entry
  have silent : (((s.modLin l.val linSwitch).modLin l.val (entered (s.linCh l.val).next)).linCh l.val).sporadic e.args = none := by
    rw [here]
    exact none_
  have after : (((s.modLin l.val linSwitch).modLin l.val (entered (s.linCh l.val).next)).modLin l.val
    (fun x => { x with slot := none })).linCh l.val =
      { entered (s.linCh l.val).next (s.linCh l.val) with slot := none } := by rw [State.modLin_same, here]
  refine ⟨_, step.trans (congrArg Host.Outcome.next (linEntry_of_silent typ silent)), ?_, ?_, ?_, ?_⟩
  · rw [after]
  · rw [after]; rfl
  · rw [after]; rfl
  · exact .via (State.modLin_frame ..) (by decide) (.via (State.modLin_frame ..) (by decide) (State.modLin_frame ..))

theorem linSlotStart_select_gives {k : Nat} (moves : (s.linCh l.val).select = some k) (table : k ≠ 255) :
    Gives (.linSlotStart l) s (fun t => (t.linCh l.val).table = k ∧ (t.linCh l.val).select = none ∧
      (t.linCh l.val).mode = .running ∧ Frame [.net] s t) := by
  have switched : (s.modLin l.val linSwitch).linCh l.val = { s.linCh l.val with table := k, next := 0, select := none } :=
    (State.modLin_same ..).trans (linSwitch_of_select steady moves table)
  have kept : (sendNext l.val (s.modLin l.val linSwitch)).linCh l.val = { s.linCh l.val with
      table := k, select := none, next := ((sendNext l.val (s.modLin l.val linSwitch)).linCh l.val).next
      entry := ((sendNext l.val (s.modLin l.val linSwitch)).linCh l.val).entry, slot := ((sendNext l.val (s.modLin l.val linSwitch)).linCh l.val).slot
      lastId := ((sendNext l.val (s.modLin l.val linSwitch)).linCh l.val).lastId
      headers := ((sendNext l.val (s.modLin l.val linSwitch)).linCh l.val).headers
      frames := ((sendNext l.val (s.modLin l.val linSwitch)).linCh l.val).frames } := by
    unfold sendNext
    split
    · rw [switched]
    · split
      · next e _ =>
        obtain ⟨a, i, h, f, entry⟩ := linEntry_lin l.val e
          ((s.modLin l.val linSwitch).modLin l.val (entered ((s.modLin l.val linSwitch).linCh l.val).upNext))
        rw [entry, State.modLin_same, switched]
        rfl
      · rw [State.modLin_same, switched]
  have step : linSlot l.val s = sendNext l.val (s.modLin l.val linSwitch) := linSlot_of_schedule powered runs awake free
  refine ⟨_, congrArg Host.Outcome.next step, ?_, ?_, ?_, ?_⟩
  · rw [kept]
  · rw [kept]
  · rw [kept]
    exact runs
  · rw [← step]
    exact linSlot_frame ..

end

theorem linSlotStart_asleep_gives (runs : (s.linCh l.val).mode = .running) (asked : (s.linCh l.val).sleepReq = true) :
    Gives (.linSlotStart l) s (fun t => (t.linCh l.val).mode = .sleep ∧ (t.linCh l.val).sleepReq = false ∧
      (t.linCh l.val).slot = some { typ := 3, id := 60, publish := true, data := linGoToSleep, at_ := s.tb.count } ∧ Frame [.net] s t) := by
  have step : linSlot l.val s = linHeader l.val { typ := 3, id := 60, publish := true, data := linGoToSleep, at_ := s.tb.count }
      (s.modLin l.val (fun x => { x with mode := .sleep, sleepReq := false })) := by
    unfold linSlot
    dsimp only
    rw [powered, asked, runs]
    rfl
  have here := linHeader_same l.val { typ := 3, id := 60, publish := true, data := linGoToSleep, at_ := s.tb.count }
    (s.modLin l.val (fun x => { x with mode := .sleep, sleepReq := false }))
  rw [State.modLin_same] at here
  exact ⟨_, congrArg Host.Outcome.next step, congrArg LinChan.mode here, congrArg LinChan.sleepReq here, congrArg LinChan.slot here,
    .via (linHeader_frame ..) (by decide) (State.modLin_frame ..)⟩

theorem linSlotStart_diag_gives {d : LinDiag} (awake : (s.linCh l.val).sleepReq = false) (exchange : (s.linCh l.val).diag = some d)
    (open_ : d.ended = false) (active : (s.linCh l.val).mode = .running ∨ (s.linCh l.val).mode = .diag) (first : d.sent = false) :
    Gives (.linSlotStart l) s (fun t => (t.linCh l.val).mode = .diag ∧ (t.linCh l.val).diag = some { d with sent := true } ∧
      (t.linCh l.val).slot = some { typ := 3, id := 60, publish := true, data := d.data, at_ := s.tb.count } ∧ Frame [.net] s t) := by
  have goes : (d.ended || (decide ((s.linCh l.val).mode ≠ .running) && decide ((s.linCh l.val).mode ≠ .diag))) = false := by
    rw [open_]
    rcases active with runs | diag
    · rw [runs]; rfl
    · rw [diag]; rfl
  have step : linSlot l.val s = linDiagHeader l.val d s := by
    unfold linSlot
    dsimp only
    rw [powered, awake, exchange]
    dsimp only
    rw [if_neg (by exact Bool.false_ne_true), if_neg (fun both => Bool.false_ne_true both.1), goes, if_neg Bool.false_ne_true]
  have header : linDiagHeader l.val d s = linHeader l.val { typ := 3, id := 60, publish := true, data := d.data, at_ := s.tb.count }
      (s.modLin l.val (fun x => { x with mode := .diag, diag := some { d with sent := true } })) := by
    unfold linDiagHeader
    rw [first]
    rfl
  have here := linHeader_same l.val { typ := 3, id := 60, publish := true, data := d.data, at_ := s.tb.count }
    (s.modLin l.val (fun x => { x with mode := .diag, diag := some { d with sent := true } }))
  rw [State.modLin_same] at here
  exact ⟨_, congrArg Host.Outcome.next (step.trans header), congrArg LinChan.mode here, congrArg LinChan.diag here, congrArg LinChan.slot here,
    .via (linHeader_frame ..) (by decide) (State.modLin_frame ..)⟩

end

end

/-! ### The end of a frame -/

section
variable {s : State} {l : Nat}

theorem raiseLin_net (k : EvKind) (l : Nat) (d : List Byte) (s : State) : (raiseLin k l d s).net = s.net := (raiseLin_frame ..).same .net (by decide)

/-- The channel after a response, or its absence, but for the episodes. -/
def answered (result : Nat) (x : LinChan) : LinChan :=
  { x with
    noResponse := if result = 1 then x.noResponse + 1 else x.noResponse
    chkErrors := if result = 2 then x.chkErrors + 1 else x.chkErrors
    flags := { x.flags with noResp := decide (result = 1) || x.flags.noResp, chkErr := decide (result = 2) || x.flags.chkErr } }

theorem raiseLin_linCh (k : EvKind) (l : Nat) (d : List Byte) (s : State) (j : Nat) : (raiseLin k l d s).linCh j = s.linCh j :=
  linCh_eq (raiseLin_net ..) j

theorem linResponse_same (l id result : Nat) (s : State) : ∃ w, (linResponse l id result s).linCh l =
    { answered result (s.linCh l) with silent := w } := by
  unfold linResponse
  dsimp only
  by_cases absent : result = 1
  · subst absent
    rw [if_pos rfl]
    split
    · exact ⟨_, State.modLin_same ..⟩
    · exact ⟨_, (raiseLin_linCh ..).trans (State.modLin_same ..)⟩
  · rw [if_neg absent]
    by_cases wrong : result = 2
    · subst wrong
      rw [if_pos rfl, State.modLin_same, State.modLin_same]
      exact ⟨_, rfl⟩
    · rw [if_neg wrong, State.modLin_same, answered, if_neg absent, if_neg wrong, decide_eq_false absent, decide_eq_false wrong]
      exact ⟨_, rfl⟩

theorem linResponse_other {j : Nat} (id result : Nat) (s : State) (other : j ≠ l) : (linResponse l id result s).linCh j = s.linCh j := by
  unfold linResponse
  dsimp only
  split
  · split
    · exact State.modLin_other _ _ _ _ other
    · exact (raiseLin_linCh ..).trans (State.modLin_other _ _ _ _ other)
  · split
    · exact (State.modLin_other _ _ _ _ other).trans (State.modLin_other _ _ _ _ other)
    · exact State.modLin_other _ _ _ _ other

/-- A frame that is stored or lost changes the FIFO of its channel, its count of losses and their flag. -/
theorem linStore_same (l : Nat) (e : LinRx) (s : State) : ∃ rx fill lost ep fl, (linStore l e s).linCh l =
    { s.linCh l with rx := rx, rxFill := fill, rxLost := lost, episode := ep, flags := { (s.linCh l).flags with rxLoss := fl } } := by
  unfold linStore
  dsimp only
  split
  · exact ⟨_, _, _, _, _, State.modLin_same ..⟩
  · split
    · exact ⟨_, _, _, _, _, (linCh_eq ((State.raiseSrc_frame ..).same .net (by decide)) l).trans (State.modLin_same ..)⟩
    · split
      · exact ⟨_, _, _, _, _, State.modLin_same ..⟩
      · exact ⟨_, _, _, _, _, (raiseLin_linCh ..).trans (State.modLin_same ..)⟩

theorem linStore_other {j : Nat} (e : LinRx) (s : State) (other : j ≠ l) : (linStore l e s).linCh j = s.linCh j := by
  unfold linStore
  dsimp only
  split
  · exact State.modLin_other _ _ _ _ other
  · split
    · exact (linCh_eq ((State.raiseSrc_frame ..).same .net (by decide)) j).trans (State.modLin_other _ _ _ _ other)
    · split
      · exact State.modLin_other _ _ _ _ other
      · exact (raiseLin_linCh ..).trans (State.modLin_other _ _ _ _ other)

/-- The generation that an RX entry of the channel carries. -/
def State.linGen (s : State) (l : Nat) : U16 :=
  match s.linOwner l with
  | some v => (s.vzf v).gen
  | none => 0

/-- The slot is over, with its result. -/
def slotOver (old : LinChan) (t : LinSlot) (result : Nat) (e : LinRx) (x : LinChan) : LinChan :=
  { x with slot := none, lastResult := result, frames := x.frames.modify .zero t.id (fun f => linStatus f result)
           diag := if decide (old.mode = .diag) then x.diag.map (fun d => d.take t.typ result e) else x.diag }

/-- A received frame counts its response. -/
def countResponse (l : Nat) (t : LinSlot) (result : Nat) (s : State) : State :=
  if t.publish && decide (t.typ ≠ 3) then s else linResponse l t.id result s

/-- Whether the frame has an RX entry. -/
def slotStores (x : LinChan) (t : LinSlot) : Bool := decide (t.typ = 3) || decide (t.typ = 4) ||
    (decide ((x.frame t.id).dir = 2) && (x.frame t.id).rxEn)

def storeResponse (stores : Bool) (l : Nat) (e : LinRx) (s : State) : State := if stores then linStore l e s else s

/-- A good frame is a source event of its PDUs. -/
def passOn (x : LinChan) (l : Nat) (t : LinSlot) (result : Nat) (data : List Byte) (s : State) : State :=
  if result = 0 ∧ (x.frame t.id).dir = 2 then
    arriveAll (fun p => decide (p.kind = 3) && decide (p.byte 12 = l) && decide (p.byte 13 = t.id)) data s else s

/-- A collision starts its resolving run (R329). -/
def resolve (x : LinChan) (l : Nat) (t : LinSlot) (result : Nat) (s : State) : State :=
  if t.typ = 1 ∧ result = 5 then
    s.modLin l (fun y => { y with back := some (y.table, y.next), next := 0
                                  table := (((x.tables.getD [] x.table)[x.entry]?).map (fun e => (e.args.getD 0 0).toNat)).getD x.table % 4 })
  else s

/-- The data of the frame that has ended. -/
def slotData (t : LinSlot) (data : List Byte) : List Byte := if t.publish then t.data else data

/-- The frame's RX entry, and the state once the frame is noted and stored. -/
def slotEntry (l : Nat) (t : LinSlot) (result : Nat) (data : List Byte) (s : State) : LinRx :=
  linRxEntry (s.linCh l) t result (slotData t data) (s.linGen l)
def slotNoted (l : Nat) (t : LinSlot) (result : Nat) (data : List Byte) (s : State) : State :=
  storeResponse (slotStores (s.linCh l) t) l (slotEntry l t result data s)
    (countResponse l t result (s.modLin l (slotOver (s.linCh l) t result (slotEntry l t result data s))))

theorem linEnd_of_slot {t : LinSlot} {result : Nat} {data : List Byte} (busy : (s.linCh l).slot = some t) : linEnd l result data s =
    resolve (s.linCh l) l t result (passOn (s.linCh l) l t result (slotData t data) (slotNoted l t result data s)) := by
  unfold linEnd
  dsimp only
  rw [busy]
  rfl

theorem linEnd_of_idle {result : Nat} {data : List Byte} (idle : (s.linCh l).slot = none) : linEnd l result data s = s := by
  unfold linEnd
  dsimp only
  rw [idle]

theorem passOn_linCh (x : LinChan) (l : Nat) (t : LinSlot) (result : Nat) (data : List Byte) (s : State) (j : Nat) :
    (passOn x l t result data s).linCh j = s.linCh j := by
  unfold passOn
  split
  · exact linCh_eq ((arriveAll_frame ..).same .net (by decide)) j
  · rfl

/-- The channel once the frame is noted: its FIFO and the episodes aside. -/
theorem slotNoted_same (l : Nat) (t : LinSlot) (result : Nat) (data : List Byte) (s : State) :
    ∃ y rx fill lost ep fl w, (y = slotOver (s.linCh l) t result (slotEntry l t result data s) (s.linCh l) ∨
        y = answered result (slotOver (s.linCh l) t result (slotEntry l t result data s) (s.linCh l))) ∧
      (t.publish = false → y = answered result (slotOver (s.linCh l) t result (slotEntry l t result data s) (s.linCh l))) ∧
      (slotNoted l t result data s).linCh l = { y with rx := rx, rxFill := fill, rxLost := lost, episode := ep, silent := w
                                                       flags := { y.flags with rxLoss := fl } } := by
  have counted : ∃ y w, (y = slotOver (s.linCh l) t result (slotEntry l t result data s) (s.linCh l) ∨
        y = answered result (slotOver (s.linCh l) t result (slotEntry l t result data s) (s.linCh l))) ∧
      (t.publish = false → y = answered result (slotOver (s.linCh l) t result (slotEntry l t result data s) (s.linCh l))) ∧
      (countResponse l t result (s.modLin l (slotOver (s.linCh l) t result (slotEntry l t result data s)))).linCh l = { y with silent := w } := by
    unfold countResponse
    split
    · next silent =>
      refine ⟨_, _, .inl rfl, fun never => ?_, State.modLin_same ..⟩
      rw [never] at silent
      exact (Bool.false_ne_true silent).elim
    · obtain ⟨w, after⟩ := linResponse_same l t.id result (s.modLin l (slotOver (s.linCh l) t result (slotEntry l t result data s)))
      rw [State.modLin_same] at after
      exact ⟨_, w, .inr rfl, fun _ => rfl, after⟩
  obtain ⟨y, w, which, received, after⟩ := counted
  unfold slotNoted storeResponse
  split
  · obtain ⟨rx, fill, lost, ep, fl, stored⟩ := linStore_same l (slotEntry l t result data s)
      (countResponse l t result (s.modLin l (slotOver (s.linCh l) t result (slotEntry l t result data s))))
    rw [after] at stored
    exact ⟨y, rx, fill, lost, ep, fl, w, which, received, stored⟩
  · exact ⟨y, _, _, _, _, _, w, which, received, after⟩

theorem slotNoted_other {j : Nat} (t : LinSlot) (result : Nat) (data : List Byte) (s : State) (other : j ≠ l) :
    (slotNoted l t result data s).linCh j = s.linCh j := by
  have counted : (countResponse l t result (s.modLin l (slotOver (s.linCh l) t result (slotEntry l t result data s)))).linCh j = s.linCh j := by
    unfold countResponse
    split
    · exact State.modLin_other _ _ _ _ other
    · exact (linResponse_other _ _ _ other).trans (State.modLin_other _ _ _ _ other)
  unfold slotNoted storeResponse
  split
  · exact (linStore_other _ _ other).trans counted
  · exact counted

theorem resolve_other {j : Nat} (x : LinChan) (t : LinSlot) (result : Nat) (s : State) (other : j ≠ l) :
    (resolve x l t result s).linCh j = s.linCh j := by
  unfold resolve
  split
  · exact State.modLin_other _ _ _ _ other
  · rfl

/-- A resolving run changes the place in the schedule alone. -/
theorem resolve_same (x : LinChan) (l : Nat) (t : LinSlot) (result : Nat) (s : State) : ∃ b n k, (resolve x l t result s).linCh l =
    { s.linCh l with back := b, next := n, table := k } ∧ (t.typ = 1 → result = 5 → b = some ((s.linCh l).table, (s.linCh l).next) ∧ n = 0) := by
  unfold resolve
  split
  · exact ⟨_, _, _, State.modLin_same .., fun _ _ => ⟨rfl, rfl⟩⟩
  · next other => exact ⟨_, _, _, rfl, fun typ collision => (other ⟨typ, collision⟩).elim⟩

end

section
variable {l : Fin 16} {res : Fin 6} {d : List Byte} {s : State} {x : LinSlot}

theorem slotOver_frame (old : LinChan) (t : LinSlot) (result : Nat) (e : LinRx) (y : LinChan) :
    (slotOver old t result e y).frame t.id = linStatus (y.frame t.id) result :=
  Tbl.getD_modify_same ..

theorem linStatus_half0 (f : LinFrame) (result : Nat) : (linStatus f result).half0 = f.half0 := by rw [linStatus]

theorem linFrameEnd_gives (busy : (s.linCh l.val).slot = some x) :
    Gives (.linFrameEnd l res d) s (fun t => (t.linCh l.val).slot = none ∧ (t.linCh l.val).lastResult = res.val ∧
      ((t.linCh l.val).frame x.id).status = (linStatus ((s.linCh l.val).frame x.id) res.val).status ∧
      ((t.linCh l.val).frame x.id).half0 = ((s.linCh l.val).frame x.id).half0 ∧
      (x.publish = false → res.val = 1 → (t.linCh l.val).noResponse = (s.linCh l.val).noResponse + 1 ∧
        (t.linCh l.val).flags.noResp = true) ∧
      (x.publish = false → res.val = 2 → (t.linCh l.val).chkErrors = (s.linCh l.val).chkErrors + 1) ∧
      (x.typ = 1 → res.val = 5 → (t.linCh l.val).back = some ((s.linCh l.val).table, (s.linCh l.val).next) ∧ (t.linCh l.val).next = 0) ∧
      (∀ j, j ≠ l.val → t.linCh j = s.linCh j) ∧ Frame [.mbx, .log, .vz, .net, .sig] s t) := by
  obtain ⟨b, n, k, resolved, collision⟩ := resolve_same (s.linCh l.val) l.val x res.val
    (passOn (s.linCh l.val) l.val x res.val (slotData x d) (slotNoted l.val x res.val d s))
  obtain ⟨y, rx, fill, lost, ep, fl, w, which, received, noted⟩ := slotNoted_same l.val x res.val d s
  rw [passOn_linCh, noted] at resolved collision
  have place : (y.table, y.next) = ((s.linCh l.val).table, (s.linCh l.val).next) := by rcases which with rfl | rfl <;> rfl
  have slot : y.slot = none := by rcases which with rfl | rfl <;> rfl
  have result : y.lastResult = res.val := by rcases which with rfl | rfl <;> rfl
  have frame : y.frame x.id = linStatus ((s.linCh l.val).frame x.id) res.val := by
    have whole := slotOver_frame (s.linCh l.val) x res.val (slotEntry l.val x res.val d s) (s.linCh l.val)
    rcases which with rfl | rfl
    · exact whole
    · exact whole
  have framed : ((resolve (s.linCh l.val) l.val x res.val (passOn (s.linCh l.val) l.val x res.val (slotData x d)
      (slotNoted l.val x res.val d s))).linCh l.val).frame x.id = linStatus ((s.linCh l.val).frame x.id) res.val := by
    rw [resolved]
    exact frame
  have step : exec (.linFrameEnd l res d) s = .next _ := congrArg Host.Outcome.next (linEnd_of_slot busy)
  refine ⟨_, step, ?_, ?_, ?_, ?_, fun silent absent => ?_, fun silent wrong => ?_, fun typ five => ?_, fun j other => ?_, ?_⟩
  · rw [resolved]
    exact slot
  · rw [resolved]
    exact result
  · rw [framed]
  · rw [framed, linStatus_half0]
  · rw [resolved, received silent, answered, absent]
    exact ⟨rfl, rfl⟩
  · rw [resolved, received silent, answered, wrong]
    rfl
  · rw [resolved, ← place]
    exact collision typ five
  · exact ((resolve_other _ _ _ _ other).trans (passOn_linCh ..)).trans (slotNoted_other _ _ _ _ other)
  · rw [← linEnd_of_slot busy]
    exact linEnd_frame ..

theorem linFrameEnd_stored_gives (busy : (s.linCh l.val).slot = some x) (received : x.publish = false) (typ : x.typ = 0)
    (dir : ((s.linCh l.val).frame x.id).dir = 2) (rxEn : ((s.linCh l.val).frame x.id).rxEn = true) (free : s.linOwner l.val = none)
    (room : ((s.linCh l.val).rx.getD .reset (s.linCh l.val).rxFill).word.getLsbD 31 = true) :
    Gives (.linFrameEnd l 0 d) s (fun t => (t.linCh l.val).rx.get? (s.linCh l.val).rxFill = some (linRxEntry (s.linCh l.val) x 0 d 0) ∧
      (t.linCh l.val).rxFill = ((s.linCh l.val).rxFill + 1) % 64 ∧ (t.linCh l.val).rxLost = (s.linCh l.val).rxLost) := by
  have gen : s.linGen l.val = 0 := by rw [State.linGen, free]
  have entry : slotEntry l.val x 0 d s = linRxEntry (s.linCh l.val) x 0 d 0 := by
    rw [slotEntry, gen, slotData, received]
    rfl
  have stores : slotStores (s.linCh l.val) x = true := by
    rw [slotStores, dir, rxEn]
    exact Bool.or_true _
  have counted : countResponse l.val x 0 (s.modLin l.val (slotOver (s.linCh l.val) x 0 (slotEntry l.val x 0 d s))) =
      (s.modLin l.val (slotOver (s.linCh l.val) x 0 (slotEntry l.val x 0 d s))).modLin l.val
      (fun y => { y with silent := y.silent &&& ~~~ (u64Bit x.id) }) := by
    rw [countResponse, received]
    rfl
  generalize whole : (s.modLin l.val (slotOver (s.linCh l.val) x 0 (slotEntry l.val x 0 d s))).modLin l.val
    (fun y => { y with silent := y.silent &&& ~~~ (u64Bit x.id) }) = u
    at counted
  have chan : u.linCh l.val = { slotOver (s.linCh l.val) x 0 (slotEntry l.val x 0 d s) (s.linCh l.val) with silent := (s.linCh l.val).silent &&& ~~~ (u64Bit x.id) } := by
    rw [← whole, State.modLin_same, State.modLin_same]
    rfl
  have unowned : u.linOwner l.val = none := by
    rw [← whole]
    exact free
  have stored : linStore l.val (slotEntry l.val x 0 d s) u =
      u.modLin l.val (fun y => { y with rx := y.rx.set y.rxFill (slotEntry l.val x 0 d s), rxFill := (y.rxFill + 1) % 64 }) := by
    unfold linStore
    dsimp only
    rw [unowned, chan]
    exact (if_neg Bool.false_ne_true).trans (if_pos room)
  have noted : slotNoted l.val x 0 d s =
      u.modLin l.val (fun y => { y with rx := y.rx.set y.rxFill (slotEntry l.val x 0 d s), rxFill := (y.rxFill + 1) % 64 }) := by
    rw [slotNoted, counted, storeResponse, stores, if_pos rfl, stored]
  have last : (resolve (s.linCh l.val) l.val x 0 (passOn (s.linCh l.val) l.val x 0 (slotData x d) (slotNoted l.val x 0 d s))).linCh l.val =
      { u.linCh l.val with rx := (u.linCh l.val).rx.set (u.linCh l.val).rxFill (slotEntry l.val x 0 d s), rxFill := ((u.linCh l.val).rxFill + 1) % 64 } := by
    rw [resolve, if_neg (fun both => absurd (typ.symm.trans both.1) (by decide)), passOn_linCh, noted, State.modLin_same]
  refine ⟨_, congrArg Host.Outcome.next (linEnd_of_slot busy), ?_, ?_, ?_⟩
  · rw [Fin.val_zero, last, chan, entry]
    exact Tbl.get?_set_same ..
  · rw [Fin.val_zero, last, chan]
    rfl
  · rw [Fin.val_zero, last, chan]
    rfl

end

end Sys2Proof.Machine
end

section
/-! PROOF. The LIN commanders' sleep, wake and bus faults, and the LIN commands (R325 to R332). -/

namespace Sys2Proof.Machine

/-! ### Sleep, wake and bus faults -/

section
variable {l : Fin 16} {s : State}

theorem linStart_same (l : Nat) (s : State) : (linStart l s).linCh l = { s.linCh l with mode := .running, next := 0, slot := none, back := none } :=
  State.modLin_same ..

theorem linRxOverrunEnd_gives (l : Fin 16) (s : State) : Gives (.linRxOverrunEnd l) s (fun t =>
    t.linCh l.val = { s.linCh l.val with episode := false } ∧ (∀ j, j ≠ l.val → t.linCh j = s.linCh j) ∧ Frame [.net] s t) :=
  ⟨_, rfl, State.modLin_same .., fun _ other => State.modLin_other _ _ _ _ other, State.modLin_frame ..⟩

theorem linWakeScheduleStart_gives (waking : (s.linCh l.val).mode = .waking) : Gives (.linWakeScheduleStart l) s (fun t =>
    t.linCh l.val = { s.linCh l.val with mode := .running, next := 0, slot := none, back := none } ∧ Frame [.net] s t) :=
  ⟨_, congrArg Host.Outcome.next (if_pos waking), linStart_same .., linStart_frame ..⟩

theorem linWakeScheduleStart_unchanged (other : (s.linCh l.val).mode ≠ .waking) : exec (.linWakeScheduleStart l) s = .next s :=
  congrArg Host.Outcome.next (if_neg other)

theorem linResponderWake_gives (asleep : (s.linCh l.val).mode = .sleep) (wakes : flagOf (s.linCh l.val).record.flags 1 = true)
    (powered : s.powered (pdLin (l.val / 4)) = true) : Gives (.linResponderWake l) s (fun t => (t.linCh l.val).mode = .waking ∧
      (t.linCh l.val).flags.wakeRx = true ∧ Frame [.mbx, .log, .vz, .net] s t) := by
  have step : exec (.linResponderWake l) s = .next (raiseLin evt_linWake l.val []
      (s.modLin l.val (fun x => { x with mode := .waking, flags := { x.flags with wakeRx := true } }))) :=
    congrArg Host.Outcome.next (if_pos ⟨asleep, wakes, powered⟩)
  have after := (raiseLin_linCh evt_linWake l.val [] (s.modLin l.val
    (fun x => { x with mode := .waking, flags := { x.flags with wakeRx := true } })) l.val).trans
    (State.modLin_same ..)
  exact ⟨_, step, congrArg LinChan.mode after, congrArg (·.flags.wakeRx) after,
    .via (raiseLin_frame ..) (by decide) ((State.modLin_frame ..).mono (by decide))⟩

theorem linResponderWake_unchanged (deaf : (s.linCh l.val).mode ≠ .sleep ∨ flagOf (s.linCh l.val).record.flags 1 = false) :
    exec (.linResponderWake l) s = .next s := by
  refine congrArg Host.Outcome.next (if_neg (fun both => ?_))
  obtain ⟨asleep, wakes, -⟩ := both
  rcases deaf with awake | off
  · exact awake asleep
  · exact Bool.false_ne_true (off.symm.trans wakes)

/-- The channel in bus fault. -/
def faulted (x : LinChan) : LinChan :=
  { x with mode := .busFault, slot := none, back := none, flags := { x.flags with busFault := true }
           diag := x.diag.map (fun d => { d with ended := true }) }

theorem linBusFault_gives (active : (s.linCh l.val).mode = .running ∨ (s.linCh l.val).mode = .diag ∨ (s.linCh l.val).mode = .waking) :
    Gives (.linBusFault l) s (fun t => (t.linCh l.val).mode = .busFault ∧ (t.linCh l.val).slot = none ∧
      (t.linCh l.val).flags.busFault = true ∧ (∀ d, (t.linCh l.val).diag = some d → d.ended = true) ∧
      Frame [.mbx, .log, .vz, .net] s t) := by
  have step : exec (.linBusFault l) s = .next (raiseLin evt_linBusFault l.val [] (s.modLin l.val faulted)) :=
    congrArg Host.Outcome.next (if_pos active)
  have after : (raiseLin evt_linBusFault l.val [] (s.modLin l.val faulted)).linCh l.val = faulted (s.linCh l.val) :=
    (raiseLin_linCh ..).trans (State.modLin_same ..)
  refine ⟨_, step, ?_, ?_, ?_, fun d waits => ?_, .via (raiseLin_frame ..) (by decide) ((State.modLin_frame ..).mono (by decide))⟩
  · rw [after]; rfl
  · rw [after]; rfl
  · rw [after]; rfl
  · rw [after] at waits
    obtain ⟨old, -, rfl⟩ := Option.map_eq_some_iff.mp waits
    rfl

theorem linBusFault_unchanged (idle : (s.linCh l.val).mode = .stopped ∨ (s.linCh l.val).mode = .sleep) :
    exec (.linBusFault l) s = .next s ∧ exec (.linBusFaultEnd l) s = .next s := by
  refine ⟨congrArg Host.Outcome.next (if_neg ?_), congrArg Host.Outcome.next (if_neg ?_)⟩
  · rcases idle with m | m <;> rw [m] <;> decide
  · rcases idle with m | m <;> rw [m] <;> decide

theorem linBusFaultEnd_gives (failed : (s.linCh l.val).mode = .busFault) : Gives (.linBusFaultEnd l) s (fun t =>
    (t.linCh l.val).mode = .running ∧ (t.linCh l.val).next = 0 ∧ Frame [.mbx, .log, .vz, .net] s t) := by
  have after := (raiseLin_linCh evt_linBusFaultEnd l.val [] (linStart l.val s) l.val).trans (linStart_same ..)
  exact ⟨_, congrArg Host.Outcome.next (if_pos failed), congrArg LinChan.mode after, congrArg LinChan.next after,
    .via (raiseLin_frame ..) (by decide) ((linStart_frame ..).mono (by decide))⟩

/-! ### The count of lost frames -/

theorem linRxLostRead_gives {v : Fin 256} (block : s.linBlock v.val l.val = true) : Gives (.linRxLostRead v l) s (fun t =>
    t.bus = BitVec.ofNat 64 (s.linCh l.val).rxLost ∧ t.linCh l.val = { s.linCh l.val with rxLost := 0 } ∧ Frame [.net, .bus] s t) := by
  have step : linLostRead v.val l.val s = { s.modLin l.val (fun x => { x with rxLost := 0 }) with bus := BitVec.ofNat 64 (s.linCh l.val).rxLost } := by
    rw [linLostRead, block]
    rfl
  exact ⟨_, congrArg Host.Outcome.next step, rfl, State.modLin_same .., ((State.modLin_frame ..).mono (by decide)).set_bus (by decide)⟩

theorem linRxLostRead_fault {v : Fin 256} (foreign : s.linBlock v.val l.val = false) : exec (.linRxLostRead v l) s = .next (windowFault v.val s) := by
  refine congrArg Host.Outcome.next ?_
  rw [linLostRead, foreign]
  rfl

/-! ### The end of a diagnostic exchange -/

theorem linDiagDone_gives {d : LinDiag} (exchange : (s.linCh l.val).diag = some d) (ended : d.ended = true) : Gives (.linDiagDone l) s (fun t =>
    ∃ u, t = complete d.port d.reqSeq d.tag 0x0A06 stat_ok ([byteOf d.got.length] ++ zeros 7 ++ d.got.flatMap LinRx.bytes) u ∧
      (u.linCh l.val).diag = none ∧ ((s.linCh l.val).mode = .diag → (u.linCh l.val).mode = if d.fromStop then .stopped else .running) ∧
      Frame [.net] s u) := by
  refine ⟨diagDone l.val s, rfl, s.modLin l.val (fun x =>
    { x with diag := none, mode := if x.mode ≠ .diag then x.mode else if d.fromStop then .stopped else .running }), ?_, ?_, fun diag => ?_,
      State.modLin_frame ..⟩
  · unfold diagDone
    rw [exchange]
    dsimp only
    rw [ended]
    exact if_neg Bool.false_ne_true
  · rw [State.modLin_same]
  · rw [State.modLin_same]
    exact if_neg (not_not_intro diag)

theorem linDiagDone_unchanged (none_ : (s.linCh l.val).diag = none) : exec (.linDiagDone l) s = .next s := by
  refine congrArg Host.Outcome.next ?_
  unfold diagDone
  rw [none_]

end

/-! ### The commands -/

section
variable {s : State} {r : Req} {p : Port} {l : Byte} (small : l.toNat ≤ 15) (may : p.mayUse (s.linOwner l.toNat))
include small

theorem linCmd_payload {code : U16} {len : Nat} {payload : Option U16} (clean : payload = none) : (linCmd code len r l payload s).payload = none := by
  show orStat (canIndex l) payload = none
  rw [canIndex_of_small small, orStat_none, clean]

include may

theorem linCmd_need {code : U16} {len : Nat} {payload : Option U16} : (linCmd code len r l payload s).need.check p = none := by
  rw [linCmd, if_pos small]
  exact Need.check_of_mayUse may

theorem linGetStatus_answers (q : Requested s r p 4) (open_ : s.step10 = true) :
    Answers (.linGetStatus r l) r 0x0A07 stat_ok (linStatusBytes l.toNat s) s (fun u => u = s) :=
  answers_of_accepted q rfl (q.passes (decide_eq_true q.len) (linCmd_need (r := r) (code := 0x0A07) (len := 4) (payload := none) small may)
    (linCmd_payload (r := r) (s := s) (code := 0x0A07) (len := 4) small rfl) open_) rfl rfl rfl

variable (runs : s.sys.mode.isRunLimpWork = true)
include runs

theorem linCmd_passes {code : U16} {len : Nat} {payload : Option U16} (q : Requested s r p len) (clean : payload = none) :
    (linCmd code len r l payload s).check r p = none :=
  q.passes (decide_eq_true q.len) (linCmd_need small may) (linCmd_payload small clean) runs

section
variable {f : LinRecord} (q : Requested s r p 12) (zero : f.flags.toNat < 4) (inRange : linRecordOk f = true)
include q zero inRange

theorem linConfig_check {s' : State} (same : s' = s) : (linCmd 0x0A01 12 r l (orStat (needStat (decide (f.flags.toNat < 4)) stat_badPayload)
      (needStat (linRecordOk f) stat_range)) s').check r p = none := by
  subst same
  exact linCmd_passes small may runs q (by rw [needStat_eq_none.mpr (decide_eq_true zero), orStat_none, needStat_eq_none.mpr inRange])

theorem linConfig_answers (idle : (s.linCh l.toNat).mode = .stopped ∨ (s.linCh l.toNat).mode = .sleep) :
    Answers (.linConfig r l f) r 0x0A01 stat_ok [] s (fun u =>
      u.linCh l.toNat = { s.linCh l.toNat with record := f, configured := true } ∧ (∀ j, j ≠ l.toNat → u.linCh j = s.linCh j) ∧
      Frame [.net] s u) :=
  answers_of_accepted q rfl (linConfig_check small may runs q zero inRange rfl) (if_pos idle) rfl
    ⟨State.modLin_same .., fun _ other => State.modLin_other _ _ _ _ other, State.modLin_frame ..⟩

theorem linConfig_busy (running : (s.linCh l.toNat).mode = .running) : Answers (.linConfig r l f) r 0x0A01 stat_badState [] s (fun u => u = s) :=
  answers_of_accepted q rfl (linConfig_check small may runs q zero inRange rfl) (if_neg (by rw [running]; decide)) rfl rfl

end

section
variable {k : Byte} {n : U16} {es : List LinEntry} (q : Requested s r p (4 + 8 * n.toNat)) (all_ : es.length = n.toNat)
  (zero : es.all linEntryZero = true) (table : k.toNat ≤ 3) (some_ : 1 ≤ n.toNat) (inside : n.toNat ≤ 64) (inRange : es.all linEntryRange = true)
  (stopped : (s.linCh l.toNat).mode = .stopped)
include q all_ zero table some_ inside inRange

theorem linLoadSchedule_answers_of {u : State} {status : U16} {post : State → Prop}
    (does : loadScheduleBody l.toNat k.toNat es s = (u, ⟨status, []⟩)) (leaves : post u) :
    Answers (.linLoadSchedule r l k n es) r 0x0A02 status [] s post := by
  refine answers_of_accepted (p := p) q rfl (q.passes ?_ (linCmd_need
    (code := 0x0A02) (len := 0) (r := r) (payload := none) small may) ?_ runs) does rfl leaves
  · exact Bool.and_eq_true_iff.mpr ⟨decide_eq_true q.len, decide_eq_true all_⟩
  · refine linCmd_payload (r := r) (s := s) (code := 0x0A02) (len := 0) small ?_
    rw [zero, inRange, decide_eq_true table, decide_eq_true some_, decide_eq_true inside]
    rfl

include stopped

theorem linLoadSchedule_answers (inTime : es.all (linDelayOk (s.linCh l.toNat)) = true)
    (apart : ∀ e ∈ es, ¬(e.typ = 1 ∧ (e.args.getD 0 0).toNat = k.toNat)) :
    Answers (.linLoadSchedule r l k n es) r 0x0A02 stat_ok [] s (fun u =>
      u.linCh l.toNat = { s.linCh l.toNat with tables := (s.linCh l.toNat).tables.set k.toNat es } ∧ Frame [.net] s u) := by
  have clear : es.any (fun e => decide (e.typ = 1) && decide ((e.args.getD 0 0).toNat = k.toNat)) = false := by
    refine List.any_eq_false.mpr (fun e inside both => apart e inside ?_)
    exact ⟨of_decide_eq_true (Bool.and_eq_true_iff.mp both).1, of_decide_eq_true (Bool.and_eq_true_iff.mp both).2⟩
  have does : loadScheduleBody l.toNat k.toNat es s = (s.modLin l.toNat (fun x => { x with tables := x.tables.set k.toNat es }), .ok []) := by
    unfold loadScheduleBody
    dsimp only
    rw [stopped, inTime, clear]
    rfl
  exact linLoadSchedule_answers_of small may runs q all_ zero table some_ inside inRange does ⟨State.modLin_same .., State.modLin_frame ..⟩

theorem linLoadSchedule_late (late : es.all (linDelayOk (s.linCh l.toNat)) = false) :
    Answers (.linLoadSchedule r l k n es) r 0x0A02 stat_linTable [] s (fun u => u = s) := by
  have does : loadScheduleBody l.toNat k.toNat es s = (s, .fail stat_linTable) := by
    unfold loadScheduleBody
    dsimp only
    rw [stopped, late]
    rfl
  exact linLoadSchedule_answers_of small may runs q all_ zero table some_ inside inRange does rfl

end

section
variable {k : Byte} (q : Requested s r p 4)
include q

theorem linSelectSchedule_answers_of {u : State} {status : U16} {post : State → Prop} (table : k.toNat ≤ 3 ∨ k = 0xFF)
    (does : selectBody l.toNat k.toNat s = (u, ⟨status, []⟩)) (leaves : post u) : Answers (.linSelectSchedule r l k) r 0x0A03 status [] s post := by
  have named : (decide (k.toNat ≤ 3) || decide (k = 0xFF)) = true := by
    rw [← Bool.decide_or]
    exact decide_eq_true table
  exact answers_of_accepted q rfl (linCmd_passes small may runs q (needStat_eq_none.mpr named)) does rfl leaves

theorem linSelectSchedule_starts (table : k.toNat ≤ 3) (stopped : (s.linCh l.toNat).mode = .stopped) :
    Answers (.linSelectSchedule r l k) r 0x0A03 stat_ok [] s (fun u => u.linCh l.toNat = { s.linCh l.toNat with
      table := k.toNat, mode := .running, next := 0, slot := none, back := none } ∧ Frame [.net] s u) := by
  have does : selectBody l.toNat k.toNat s = (linStart l.toNat (s.modLin l.toNat (fun x => { x with table := k.toNat })), .ok []) := by
    unfold selectBody
    dsimp only
    rw [stopped, if_neg (by decide), if_pos rfl, if_neg (by omega)]
  refine linSelectSchedule_answers_of small may runs q (.inl table) does ⟨?_, .via (linStart_frame ..) (by decide) (State.modLin_frame ..)⟩
  rw [linStart_same, State.modLin_same]

theorem linSelectSchedule_waits (table : k.toNat ≤ 3 ∨ k = 0xFF) (running : (s.linCh l.toNat).mode = .running) :
    Answers (.linSelectSchedule r l k) r 0x0A03 stat_ok [] s (fun u => u.linCh l.toNat = { s.linCh l.toNat with
      select := some k.toNat } ∧ Frame [.net] s u) := by
  have does : selectBody l.toNat k.toNat s = (s.modLin l.toNat (fun x => { x with select := some k.toNat }), .ok []) := by
    unfold selectBody
    dsimp only
    rw [running, if_neg (by decide), if_neg (by decide)]
  exact linSelectSchedule_answers_of small may runs q table does ⟨State.modLin_same .., State.modLin_frame ..⟩

theorem linSelectSchedule_asleep (table : k.toNat ≤ 3 ∨ k = 0xFF) (asleep : (s.linCh l.toNat).mode = .sleep) :
    Answers (.linSelectSchedule r l k) r 0x0A03 stat_linAsleep [] s (fun u => u = s) ∧
    Answers (.linSleep r l) r 0x0A05 stat_linAsleep [] s (fun u => u = s) :=
  ⟨linSelectSchedule_answers_of small may runs q table (if_pos (.inl asleep)) rfl,
    answers_of_accepted q rfl (linCmd_passes small may runs q rfl) (if_pos asleep) rfl rfl⟩

theorem linWake_answers (asleep : (s.linCh l.toNat).mode = .sleep) :
    Answers (.linWake r l) r 0x0A04 stat_ok [] s (fun u => u.linCh l.toNat = { s.linCh l.toNat with mode := .waking, slot := none } ∧
      Frame [.net] s u) :=
  answers_of_accepted q rfl (linCmd_passes small may runs q rfl) (if_pos asleep) rfl ⟨State.modLin_same .., State.modLin_frame ..⟩

theorem linWake_awake (awake : (s.linCh l.toNat).mode ≠ .sleep) : Answers (.linWake r l) r 0x0A04 stat_badState [] s (fun u => u = s) :=
  answers_of_accepted q rfl (linCmd_passes small may runs q rfl) (if_neg awake) rfl rfl

theorem linSleep_answers (running : (s.linCh l.toNat).mode = .running) :
    Answers (.linSleep r l) r 0x0A05 stat_ok [] s (fun u => u.linCh l.toNat = { s.linCh l.toNat with sleepReq := true } ∧
      Frame [.net] s u) := by
  have does : sleepBody l.toNat s = (s.modLin l.toNat (fun x => { x with sleepReq := true }), .ok []) := by
    unfold sleepBody
    dsimp only
    rw [running, if_neg (by decide), if_neg (by decide)]
  exact answers_of_accepted q rfl (linCmd_passes small may runs q rfl) does rfl ⟨State.modLin_same .., State.modLin_frame ..⟩

end

section
variable {w : Byte} {d : U64} (q : Requested s r p 12) (few : w.toNat ≤ 32) (running : (s.linCh l.toNat).mode = .running)
include q few running

theorem linDiag_answers (free : (s.linCh l.toNat).diag = none) :
    Answers (.linDiag r l w d) r 0x0A06 stat_pending [] s (fun u => u.linCh l.toNat = { s.linCh l.toNat with
      diag := some { port := r.port, tag := r.tag, reqSeq := r.seq, data := le64 d, wanted := w.toNat, sent := false, ended := false
                     fromStop := false, got := [] } } ∧ Frame [.net] s u) := by
  have does : diagBody r l.toNat w.toNat d s = (s.modLin l.toNat (fun x =>
      { x with diag := some { port := r.port, tag := r.tag, reqSeq := r.seq, data := le64 d, wanted := w.toNat, sent := false,
                              ended := decide (x.mode = .busFault), fromStop := decide (x.mode = .stopped), got := [] }
               mode := if x.mode = .stopped then .diag else x.mode }), .fail stat_pending) := by
    unfold diagBody
    dsimp only
    rw [running, free, if_neg (by decide)]
    rfl
  refine answers_of_accepted q rfl (linCmd_passes small may runs q (needStat_eq_none.mpr (decide_eq_true few))) does rfl ⟨?_, State.modLin_frame ..⟩
  have mode : (if (s.linCh l.toNat).mode = .stopped then .diag else (s.linCh l.toNat).mode) = (s.linCh l.toNat).mode :=
    if_neg (by rw [running]; decide)
  have going : decide ((s.linCh l.toNat).mode = .busFault) = false := decide_eq_false (by rw [running]; decide)
  have started : decide ((s.linCh l.toNat).mode = .stopped) = false := decide_eq_false (by rw [running]; decide)
  rw [State.modLin_same, mode, going, started]

theorem linDiag_busy (busy : (s.linCh l.toNat).diag.isSome = true) : Answers (.linDiag r l w d) r 0x0A06 stat_busy [] s (fun u => u = s) := by
  have does : diagBody r l.toNat w.toNat d s = (s, .fail stat_busy) := by
    unfold diagBody
    dsimp only
    rw [running, if_neg (by decide), if_pos busy]
  exact answers_of_accepted q rfl (linCmd_passes small may runs q (needStat_eq_none.mpr (decide_eq_true few))) does rfl rfl

end

end

/-- Settles O47: each clause is the lemma of its event or of its command. -/
theorem linActs : Obligations.LinActs := by
  unfold Obligations.LinActs
  refine ⟨?unpowered, ?header, ?silent, ?asleep, ?diag, ?switch, ?idleEnd, ?frameEnd, ?stored, ?overrun, ?wakeStart, ?notWaking, ?wake, ?deaf, ?fault,
    ?noFault, ?faultEnd, ?lostRead, ?lostFault, ?config, ?configBusy, ?load, ?late, ?starts, ?waits, ?selectAsleep, ?wakeCmd, ?awake, ?sleepCmd,
      ?diagCmd,
    ?diagBusy, ?diagDone, ?noDiag, ?status⟩
  case unpowered => exact fun l s => linSlotStart_unchanged
  case header => exact fun l e k s powered runs awake free steady stays => linSlotStart_unconditional_gives powered runs awake free steady stays
  case silent => exact fun l e s powered runs awake free steady stays => linSlotStart_silent_gives powered runs awake free steady stays
  case asleep => exact fun l s powered => linSlotStart_asleep_gives powered
  case diag => exact fun l d s powered awake exchange => linSlotStart_diag_gives powered awake exchange
  case switch => exact fun l k s powered runs awake free steady => linSlotStart_select_gives powered runs awake free steady
  case idleEnd => exact fun l res d s idle => congrArg Host.Outcome.next (linEnd_of_idle idle)
  case frameEnd => exact fun l res d x s => linFrameEnd_gives
  case stored => exact fun l d x s => linFrameEnd_stored_gives
  case overrun => exact linRxOverrunEnd_gives
  case wakeStart => exact fun l s => linWakeScheduleStart_gives
  case notWaking => exact fun l s => linWakeScheduleStart_unchanged
  case wake => exact fun l s => linResponderWake_gives
  case deaf => exact fun l s => linResponderWake_unchanged
  case fault => exact fun l s => linBusFault_gives
  case noFault => exact fun l s => linBusFault_unchanged
  case faultEnd => exact fun l s => linBusFaultEnd_gives
  case lostRead => exact fun v l s => linRxLostRead_gives
  case lostFault => exact fun v l s => linRxLostRead_fault
  case config => exact fun s r p l f q small may zero inRange runs => linConfig_answers small may runs q zero inRange
  case configBusy => exact fun s r p l f q small may zero inRange runs => linConfig_busy small may runs q zero inRange
  case load => exact fun s r p l k n es q all_ small may zero table some_ inside inRange runs =>
    linLoadSchedule_answers small may runs q all_ zero table some_ inside inRange
  case late => exact fun s r p l k n es q all_ small may zero table some_ inside inRange runs =>
    linLoadSchedule_late small may runs q all_ zero table some_ inside inRange
  case starts => exact fun s r p l k q small may table runs => linSelectSchedule_starts small may runs q table
  case waits => exact fun s r p l k q small may table runs => linSelectSchedule_waits small may runs q table
  case selectAsleep => exact fun s r p l k q small may table runs => linSelectSchedule_asleep small may runs q table
  case wakeCmd => exact fun s r p l q small may runs => linWake_answers small may runs q
  case awake => exact fun s r p l q small may runs => linWake_awake small may runs q
  case sleepCmd => exact fun s r p l q small may runs => linSleep_answers small may runs q
  case diagCmd => exact fun s r p l w d q small may few runs => linDiag_answers small may runs q few
  case diagBusy => exact fun s r p l w d q small may few runs => linDiag_busy small may runs q few
  case diagDone => exact fun l d s => linDiagDone_gives
  case noDiag => exact fun l s => linDiagDone_unchanged
  case status => exact fun s r p l q small may => linGetStatus_answers small may q

end Sys2Proof.Machine
end

section
/-! PROOF. Network management: the manager's buffer, the messages heard and the token (R316 to R320). -/

namespace Sys2Proof.Machine

/-! ### The manager's buffer -/

section
variable {s : State} {c : Nat}

theorem canFinish_nm (c e result : Nat) (late : Bool) (time : U64) (s : State) : (canFinish c e result late time s).net.nm = s.net.nm :=
  (congrArg (·.nm) (canFinish_net c e result late time s) :)

/-- Whether the entry is taken or refused, the rings stay and its data do. -/
theorem canTake_leaves (c e : Nat) (s : State) : (canTake c e s).net.nm = s.net.nm ∧ (((canTake c e s).canCh c).txE e).data =
    ((s.canCh c).txE e).data := by
  unfold canTake
  split
  · exact ⟨rfl, by rw [State.modCan_same]; rfl⟩
  · refine ⟨canFinish_nm .., ?_⟩
    rw [canFinish_same, entryDone_txE]

theorem canHand_leaves (c e fmt : Nat) (ide brs : Bool) (id : U32) (data : List Byte) (s : State) :
    (canHand c e fmt ide brs id data s).net.nm = s.net.nm ∧
    (((canHand c e fmt ide brs id data s).canCh c).txE e).data = (data ++ zeros 64).take 64 := by
  unfold canHand
  dsimp only
  refine ⟨(canTake_leaves ..).1, (canTake_leaves ..).2.trans ?_⟩
  rw [State.modCan_same, CanChan.txE, Tbl.getD_set_same]

theorem nmRing_of_nm {t u : State} (nm : t.net.nm = u.net.nm) (c : Nat) : t.nmRing c = u.nmRing c := by rw [State.nmRing, nm, State.nmRing]

/-- A message that is sent, or waits, changes the outbox of its ring and nothing else of the rings. -/
theorem nmSend_rings (c : Nat) (m : NmMsg) (s : State) : ∃ o, (nmSend c m s).net.nm = (s.modNm c (fun n => { n with outbox := o })).net.nm := by
  unfold nmSend
  split
  · exact ⟨_, rfl⟩
  · exact ⟨_, (canHand_leaves ..).1⟩

theorem nmSend_data {m : NmMsg} (free : ((s.canCh c).txE 31).own = false) :
    (((nmSend c m s).canCh c).txE 31).data = (m.bytes ++ zeros 64).take 64 := by
  unfold nmSend
  rw [free, if_neg Bool.false_ne_true]
  exact (canHand_leaves ..).2

theorem nmPost_same (c : Nat) (m : NmMsg) (s : State) : ∃ o a, (nmPost c m s).nmRing c = { s.nmRing c with outbox := o, awakeFrom := a } := by
  obtain ⟨o, sent⟩ := nmSend_rings c m (s.modNm c (fun n => { n with awakeFrom := some (n.awakeFrom.getD s.now) }))
  refine ⟨o, some ((s.nmRing c).awakeFrom.getD s.now), (nmRing_of_nm sent c).trans ?_⟩
  rw [State.modNm_same, State.modNm_same]

/-- The ring of a state that posts a message once `f` has changed it. -/
theorem nmRing_of_posted {t : State} {f : NmRing → NmRing} (posted : ∃ m, t = nmPost c m (s.modNm c f)) :
    ∃ o a, t.nmRing c = { f (s.nmRing c) with outbox := o, awakeFrom := a } := by
  obtain ⟨m, rfl⟩ := posted
  obtain ⟨o, a, after⟩ := nmPost_same c m (s.modNm c f)
  rw [State.modNm_same] at after
  exact ⟨o, a, after⟩

theorem nmPost_data {m : NmMsg} (free : ((s.canCh c).txE 31).own = false) :
    (((nmPost c m s).canCh c).txE 31).data = (m.bytes ++ zeros 64).take 64 := nmSend_data free

theorem raiseCan_nmRing (k : EvKind) (c : Nat) (d : List Byte) (s : State) (j : Nat) : (raiseCan k c d s).nmRing j = s.nmRing j :=
  nmRing_eq (raiseCan_net ..) j

end

/-! ### The messages heard -/

section
variable {s : State} {c j : Nat} {n : NmRing} {m : NmMsg}

theorem hear_leaves (n : NmRing) (m : NmMsg) (now : Nat) : ∃ a w f lc cc r fm, n.hear m now =
    { n with present := n.present ||| u64Bit m.sender ||| u64Bit n.me, awakeFrom := a, awaited := w, forming := f
             lastConsent := lc, curConsent := cc, round := r, formed := fm } := by
  unfold NmRing.hear
  dsimp only
  split
  · exact ⟨_, _, _, _, _, _, _, rfl⟩
  · split
    · exact ⟨_, _, _, _, _, _, _, rfl⟩
    · exact ⟨_, _, _, _, _, _, _, rfl⟩

theorem takeToken_leaves (n : NmRing) (m : NmMsg) :
    ∃ h rc lc sn, n.takeToken m = { n with holding := h, roundConsent := rc, lastConsent := lc, sleepNext := sn } ∧
    (m.succ = some n.me → h = true ∧ rc = m.roundConsent) := by
  unfold NmRing.takeToken
  split
  · next other => exact ⟨_, _, _, _, rfl, fun here => (other here).elim⟩
  · dsimp only
    split
    · exact ⟨_, _, _, _, rfl, fun _ => ⟨rfl, rfl⟩⟩
    · exact ⟨_, _, _, _, rfl, fun _ => ⟨rfl, rfl⟩⟩

/-- What a ring takes from a message before its sleep bits. -/
def NmRing.heard (n : NmRing) (m : NmMsg) (now : Nat) : NmRing := (n.hear m now).takeToken m

theorem heard_leaves (n : NmRing) (m : NmMsg) (now : Nat) : (n.heard m now).present = n.present ||| u64Bit m.sender ||| u64Bit n.me ∧
    (n.heard m now).sleeping = n.sleeping ∧ (n.heard m now).override = n.override ∧
    (m.succ = some n.me → (n.heard m now).holding = true ∧ (n.heard m now).roundConsent = m.roundConsent) := by
  obtain ⟨a, w, f, lc, cc, r, fm, hear⟩ := hear_leaves n m now
  obtain ⟨h, rc, lc', sn, take, token⟩ := takeToken_leaves (n.hear m now) m
  rw [NmRing.heard, take]
  have me : (n.hear m now).me = n.me := by rw [hear]; rfl
  rw [me] at token
  rw [hear]
  exact ⟨rfl, rfl, rfl, token⟩

theorem nmCoord_same (c : Nat) (m : NmMsg) (s : State) : ∃ k role, (nmCoord c m s).nmRing c =
    { s.nmRing c with coordinator := k, coordRole := role } := by
  unfold nmCoord
  dsimp only
  split
  · exact ⟨_, _, rfl⟩
  · split
    · exact ⟨_, _, (raiseCan_nmRing ..).trans (State.modNm_same ..)⟩
    · exact ⟨_, _, State.modNm_same ..⟩

theorem nmCoord_other (m : NmMsg) (s : State) (other : j ≠ c) : (nmCoord c m s).nmRing j = s.nmRing j := by
  unfold nmCoord
  dsimp only
  split
  · rfl
  · split
    · exact (raiseCan_nmRing ..).trans (State.modNm_other _ _ _ _ other)
    · exact State.modNm_other _ _ _ _ other

theorem nmOverride_same (c : Nat) (s : State) : (nmOverride c s).nmRing c = { s.nmRing c with holders := [], override := true } := by
  unfold nmOverride
  dsimp only
  split
  · exact (raiseCan_nmRing ..).trans (State.modNm_same ..)
  · exact State.modNm_same ..

theorem nmOverride_other (s : State) (other : j ≠ c) : (nmOverride c s).nmRing j = s.nmRing j := by
  unfold nmOverride
  dsimp only
  split
  · exact (raiseCan_nmRing ..).trans (State.modNm_other _ _ _ _ other)
  · exact State.modNm_other _ _ _ _ other

theorem nmSleepBits_of_ind (ind : m.sleepInd = true) (s : State) : ∃ h o, (nmSleepBits c m s).nmRing c =
    { s.nmRing c with sleeping := true, holding := false, awaited := none, holders := h, override := o } ∧
      (m.override = true → h = [] ∧ o = true) := by
  unfold nmSleepBits
  rw [ind, if_pos rfl]
  dsimp only
  split
  · refine ⟨_, _, ?_, fun _ => ⟨rfl, rfl⟩⟩
    rw [nmOverride_same, State.modNm_same]
  · next plain => exact ⟨_, _, State.modNm_same .., fun never => (plain never).elim⟩

theorem nmSleepBits_of_awake (awake : m.sleepInd = false) (up : (s.nmRing c).sleeping = false) : nmSleepBits c m s = s := by
  unfold nmSleepBits
  rw [awake, up]
  rfl

theorem nmSleepBits_present (c : Nat) (m : NmMsg) (s : State) : ((nmSleepBits c m s).nmRing c).present = (s.nmRing c).present := by
  cases ind : m.sleepInd with
  | true =>
    obtain ⟨h, o, after, -⟩ := nmSleepBits_of_ind (c := c) ind s
    rw [after]
  | false =>
    unfold nmSleepBits
    rw [ind, if_neg Bool.false_ne_true]
    split
    · rw [State.modNm_same]
    · rfl

theorem nmSleepBits_cancels (awake : m.sleepInd = false) (asleep : (s.nmRing c).sleeping = true) (free : (s.nmRing c).override = false)
    (refuses : m.consent = false) : ((nmSleepBits c m s).nmRing c).sleeping = false := by
  unfold nmSleepBits
  rw [awake, asleep, free, refuses, if_neg Bool.false_ne_true, if_pos (by rfl), State.modNm_same]

theorem nmSleepBits_other (m : NmMsg) (s : State) (other : j ≠ c) : (nmSleepBits c m s).nmRing j = s.nmRing j := by
  unfold nmSleepBits
  dsimp only
  split
  · split
    · exact (nmOverride_other _ other).trans (State.modNm_other _ _ _ _ other)
    · exact State.modNm_other _ _ _ _ other
  · split
    · exact State.modNm_other _ _ _ _ other
    · rfl

end

section
variable {c : Fin 16} {id : BitVec 11} {dlc : Fin 16} {d : List Byte} {s : State}

theorem nmMessageReceived_unchanged (deaf : s.nmOn c.val = false ∨ (s.nmRing c.val).awake = false) :
    exec (.nmMessageReceived c id dlc d) s = .next s := by
  refine congrArg Host.Outcome.next (if_pos ?_)
  rcases deaf with off | asleep
  · rw [off]
    rfl
  · rw [asleep]
    exact Bool.or_true _

section
variable (on : s.nmOn c.val = true) (awake : (s.nmRing c.val).awake = true)
include on awake

theorem nmReceive_of_awake : nmReceive c.val id.toNat dlc.val d s = match nmParse (s.nmRing c.val).record.base.toNat id.toNat dlc.val d with
    | none => s.modNm c.val (fun n => { n with ignored := n.ignored + 1 })
    | some m => nmSleepBits c.val m (nmCoord c.val m (s.modNm c.val (fun n => n.heard m s.now))) :=
  if_neg (by rw [on, awake]; exact Bool.false_ne_true)

theorem nmMessageReceived_ignored (bad : nmParse (s.nmRing c.val).record.base.toNat id.toNat dlc.val d = none) :
    Gives (.nmMessageReceived c id dlc d) s (fun t =>
      t.nmRing c.val = { s.nmRing c.val with ignored := (s.nmRing c.val).ignored + 1 } ∧ Frame [.net] s t) := by
  have step : nmReceive c.val id.toNat dlc.val d s = s.modNm c.val (fun n => { n with ignored := n.ignored + 1 }) :=
    (nmReceive_of_awake on awake).trans (by rw [bad])
  exact ⟨_, congrArg Host.Outcome.next step, State.modNm_same .., State.modNm_frame ..⟩

theorem nmMessageReceived_gives {m : NmMsg} (good : nmParse (s.nmRing c.val).record.base.toNat id.toNat dlc.val d = some m) :
    Gives (.nmMessageReceived c id dlc d) s (fun t => (t.nmRing c.val).present =
        ((s.nmRing c.val).present ||| u64Bit m.sender ||| u64Bit (s.nmRing c.val).me) ∧
      (m.sleepInd = true → (t.nmRing c.val).sleeping = true ∧ (t.nmRing c.val).holding = false) ∧
      (m.sleepInd = false → (s.nmRing c.val).sleeping = false → m.succ = some (s.nmRing c.val).me →
        (t.nmRing c.val).holding = true ∧ (t.nmRing c.val).roundConsent = m.roundConsent) ∧
      (m.sleepInd = true → m.override = true → (t.nmRing c.val).holders = [] ∧ (t.nmRing c.val).override = true) ∧
      (m.sleepInd = false → (s.nmRing c.val).sleeping = true → (s.nmRing c.val).override = false → m.consent = false →
        (t.nmRing c.val).sleeping = false) ∧
      (∀ j, j ≠ c.val → t.nmRing j = s.nmRing j) ∧ Frame [.mbx, .log, .vz, .net] s t) := by
  have step : nmReceive c.val id.toNat dlc.val d s = nmSleepBits c.val m (nmCoord c.val m (s.modNm c.val (fun n => n.heard m s.now))) :=
    (nmReceive_of_awake on awake).trans (by rw [good])
  obtain ⟨present, sleeping, over_, token⟩ := heard_leaves (s.nmRing c.val) m s.now
  obtain ⟨k, role, coord⟩ := nmCoord_same c.val m (s.modNm c.val (fun n => n.heard m s.now))
  rw [State.modNm_same] at coord
  generalize known : nmCoord c.val m (s.modNm c.val (fun n => n.heard m s.now)) = u at coord step
  refine ⟨_, congrArg Host.Outcome.next step, ?_, fun ind => ?_, fun up runs mine => ?_, fun ind all_ => ?_, fun up asleep free refuses => ?_,
    fun j other => ?_, ?_⟩
  · rw [nmSleepBits_present, coord]
    exact present
  · obtain ⟨h, o, after, -⟩ := nmSleepBits_of_ind (c := c.val) ind u
    rw [after]
    exact ⟨rfl, rfl⟩
  · rw [nmSleepBits_of_awake up (by rw [coord]; exact sleeping.trans runs), coord]
    exact token mine
  · obtain ⟨h, o, after, ended⟩ := nmSleepBits_of_ind (c := c.val) ind u
    rw [after]
    exact ended all_
  · exact nmSleepBits_cancels up (by rw [coord]; exact sleeping.trans asleep) (by rw [coord]; exact over_.trans free) refuses
  · rw [nmSleepBits_other _ _ other, ← known]
    exact (nmCoord_other _ _ other).trans (State.modNm_other _ _ _ _ other)
  · rw [← step]
    exact nmReceive_frame ..

end

end

/-! ### The token -/

/-- The lowest node begins a round. -/
def roundOf (k : Nat) (own : U64) (n : NmRing) : NmRing :=
  { n with round := n.round + 1, curConsent := own, holding := false, awaited := some k, formed := true }

/-- The lowest node ends the ring. -/
def ringEnds (n : NmRing) : NmRing := { n with sleepNext := false, holding := false, sleeping := true, awaited := none }

/-- The ring forms anew. -/
def ringForms (n : NmRing) : NmRing :=
  { n with join := false, forming := true, formed := false, holding := false, awaited := none, sleepNext := false, present := u64Bit n.me }

/-- A silent successor is no longer present. -/
def dropNode (k : Nat) (n : NmRing) : NmRing := { n with present := n.present &&& ~~~ (u64Bit k), awaited := none }

section
variable {c : Fin 16} {s : State}

theorem nmTokenPass_unchanged (waits : (s.nmRing c.val).holding = false ∨ (s.nmRing c.val).sleeping = true) : exec (.nmTokenPass c) s = .next s := by
  refine congrArg Host.Outcome.next (if_pos ?_)
  rcases waits with free | asleep
  · rw [free]
    exact (congrArg (· || (s.nmRing c.val).sleeping) (Bool.or_true _)).trans (Bool.true_or _)
  · rw [asleep]
    exact Bool.or_true _

section
variable (on : s.nmOn c.val = true) (holds : (s.nmRing c.val).holding = true) (up : (s.nmRing c.val).sleeping = false)
include on holds up

theorem nmTokenPass_of_holding : nmTokenPass c.val s =
    if lowestNode (s.nmRing c.val).present = some (s.nmRing c.val).me then nmLead c.val s else nmFollow c.val s :=
  if_neg (by rw [on, holds, up]; exact Bool.false_ne_true)

theorem nmTokenPass_follows {k : Nat} (higher : lowestNode (s.nmRing c.val).present ≠ some (s.nmRing c.val).me)
    (free : ((s.canCh c.val).txE 31).own = false)
    (next : k = ((nextNode (s.nmRing c.val).present (s.nmRing c.val).me).orElse (fun _ => lowestNode (s.nmRing c.val).present)).getD
    (s.nmRing c.val).me) :
    Gives (.nmTokenPass c) s (fun t => (t.nmRing c.val).holding = false ∧ (t.nmRing c.val).awaited = some k ∧
      (t.nmRing c.val).round = (s.nmRing c.val).round ∧
      (((t.canCh c.val).txE 31).data.take 2 = [byteOf (s.nmRing c.val).me, byteOf k]) ∧ Frame [.vz, .net] s t) := by
  have step := (nmTokenPass_of_holding on holds up).trans (if_neg higher)
  have frame : Frame [.vz, .net] s (nmFollow c.val s) := nmFollow_frame ..
  unfold nmFollow at step frame
  dsimp only at step frame
  rw [← next] at step frame
  generalize posted : (s.modNm c.val _) = u at step frame
  have ring : u.nmRing c.val = { s.nmRing c.val with holding := false, awaited := some k, curConsent := (u.nmRing c.val).curConsent } := by
    rw [← posted, State.modNm_same]
  have data : (u.canCh c.val) = s.canCh c.val := by rw [← posted]; rfl
  obtain ⟨o, a, after⟩ := nmPost_same c.val { s.nmPlain c.val with succ := some k, roundConsent := (s.nmRing c.val).roundConsent && s.nmConsent c.val } u
  rw [ring] at after
  refine ⟨_, congrArg Host.Outcome.next step, ?_, ?_, ?_, ?_, frame⟩
  · rw [after]
  · rw [after]
  · rw [after]
  · rw [nmPost_data (by rw [data]; exact free)]
    rfl

theorem nmTokenPass_leads {k : Nat} (lowest : lowestNode (s.nmRing c.val).present = some (s.nmRing c.val).me)
    (stays : (s.nmRing c.val).sleepNext = false)
    (next : nextNode (s.nmRing c.val).present (s.nmRing c.val).me = some k) :
    Gives (.nmTokenPass c) s (fun t => (t.nmRing c.val).holding = false ∧ (t.nmRing c.val).awaited = some k ∧
      (t.nmRing c.val).round = (s.nmRing c.val).round + 1 ∧
      (t.nmRing c.val).curConsent = (if s.nmConsent c.val then u64Bit (s.nmRing c.val).me else 0) ∧ Frame [.vz, .net] s t) := by
  have lead : ∃ m, nmLead c.val s = nmPost c.val m (s.modNm c.val (roundOf k (if s.nmConsent c.val then u64Bit (s.nmRing c.val).me else 0))) := by
    unfold nmLead
    dsimp only
    rw [stays, if_neg Bool.false_ne_true, next]
    exact ⟨_, rfl⟩
  obtain ⟨o, a, after⟩ := nmRing_of_posted lead
  refine ⟨_, congrArg Host.Outcome.next ((nmTokenPass_of_holding on holds up).trans (if_pos lowest)), ?_, ?_, ?_, ?_, nmLead_frame ..⟩
  · rw [after]
    rfl
  · rw [after]
    rfl
  · rw [after]
    rfl
  · rw [after]
    rfl

theorem nmTokenPass_sleeps (lowest : lowestNode (s.nmRing c.val).present = some (s.nmRing c.val).me) (ends : (s.nmRing c.val).sleepNext = true) :
    Gives (.nmTokenPass c) s (fun t => (t.nmRing c.val).sleeping = true ∧ (t.nmRing c.val).holding = false ∧
      (t.nmRing c.val).sleepNext = false ∧ Frame [.vz, .net] s t) := by
  have lead : ∃ m, nmLead c.val s = nmPost c.val m (s.modNm c.val ringEnds) := by
    unfold nmLead
    dsimp only
    rw [ends, if_pos rfl]
    exact ⟨_, rfl⟩
  obtain ⟨o, a, after⟩ := nmRing_of_posted lead
  refine ⟨_, congrArg Host.Outcome.next ((nmTokenPass_of_holding on holds up).trans (if_pos lowest)), ?_, ?_, ?_, nmLead_frame ..⟩
  · rw [after]
    rfl
  · rw [after]
    rfl
  · rw [after]
    rfl

end

theorem nmLead_forming (c : Nat) (s : State) : ((nmLead c s).nmRing c).forming = (s.nmRing c).forming := by
  have posted (m : NmMsg) (u : State) : ((nmPost c m u).nmRing c).forming = (u.nmRing c).forming := by
    obtain ⟨o, a, after⟩ := nmPost_same c m u
    rw [after]
  unfold nmLead
  dsimp only
  split
  · exact (posted ..).trans ((congrArg NmRing.forming (State.modNm_same s c _) :))
  · split
    · exact (posted ..).trans ((congrArg NmRing.forming (State.modNm_same s c _) :))
    · exact (posted ..).trans ((congrArg NmRing.forming (State.modNm_same s c _) :))

theorem nmFormingTimeout_unchanged (formed : (s.nmRing c.val).forming = false) : exec (.nmFormingTimeout c) s = .next s :=
  congrArg Host.Outcome.next (if_pos (by rw [formed]; exact Bool.or_true _))

/-- The ring at the end of forming. -/
def formedRing (n : NmRing) : NmRing := { n with forming := false }

theorem nmFormingTimeout_gives (on : s.nmOn c.val = true) (forms : (s.nmRing c.val).forming = true) :
    Gives (.nmFormingTimeout c) s (fun t => (t.nmRing c.val).forming = false ∧
      (lowestNode (s.nmRing c.val).present ≠ some (s.nmRing c.val).me →
        t.nmRing c.val = { s.nmRing c.val with forming := false } ∧ t.net.can = s.net.can) ∧ Frame [.vz, .net] s t) := by
  have step : nmFormed c.val s = if lowestNode (s.nmRing c.val).present = some (s.nmRing c.val).me then
      nmLead c.val ((s.modNm c.val formedRing).modNm c.val (fun n => { n with holding := true })) else s.modNm c.val formedRing :=
    if_neg (by rw [on, forms]; exact Bool.false_ne_true)
  refine ⟨nmFormed c.val s, rfl, ?_, fun higher => ?_, nmFormed_frame ..⟩
  · rw [step]
    split
    · rw [nmLead_forming, State.modNm_same, State.modNm_same]
      rfl
    · rw [State.modNm_same]
      rfl
  · rw [step, if_neg higher]
    exact ⟨State.modNm_same .., rfl⟩

theorem nmHopTimeout_unchanged (idle : (s.nmRing c.val).awaited = none ∨ (s.nmRing c.val).sleeping = true) : exec (.nmHopTimeout c) s = .next s := by
  refine congrArg Host.Outcome.next ?_
  unfold nmSkip
  dsimp only
  split
  · rfl
  · next k waits =>
    refine if_pos ?_
    rcases idle with none_ | asleep
    · rw [none_] at waits
      exact nomatch waits
    · rw [asleep]
      exact Bool.or_true _

theorem nmHopTimeout_gives {k : Nat} (waits : (s.nmRing c.val).awaited = some k) (on : s.nmOn c.val = true) (up : (s.nmRing c.val).sleeping = false) :
    Gives (.nmHopTimeout c) s (fun t => (t.nmRing c.val).present = (s.nmRing c.val).present &&& ~~~ (u64Bit k) ∧
      (t.nmRing c.val).round = (s.nmRing c.val).round ∧ Frame [.mbx, .log, .vz, .net] s t) := by
  have dropped : (raiseCan evt_nmSkip c.val [byteOf k] (s.modNm c.val
    (fun n => { n with present := n.present &&& ~~~ (u64Bit k), awaited := none }))).nmRing c.val =
      dropNode k (s.nmRing c.val) := (raiseCan_nmRing ..).trans (State.modNm_same ..)
  have posted (m : NmMsg) (u : State) : ((nmPost c.val m u).nmRing c.val).present = (u.nmRing c.val).present ∧
      ((nmPost c.val m u).nmRing c.val).round = (u.nmRing c.val).round := by
    obtain ⟨o, a, after⟩ := nmPost_same c.val m u
    rw [after]
    exact ⟨rfl, rfl⟩
  refine ⟨nmSkip c.val s, rfl, ?_, ?_, nmSkip_frame ..⟩
  · unfold nmSkip
    dsimp only
    rw [waits, on, up]
    dsimp only
    rw [if_neg (by exact Bool.false_ne_true), (posted ..).1, State.modNm_same, dropped]
    rfl
  · unfold nmSkip
    dsimp only
    rw [waits, on, up]
    dsimp only
    rw [if_neg (by exact Bool.false_ne_true), (posted ..).2, State.modNm_same, dropped]
    rfl

theorem nmTokenLost_unchanged (idle : (s.nmRing c.val).awake = false ∨ (s.nmRing c.val).sleeping = true) : exec (.nmTokenLost c) s = .next s := by
  refine congrArg Host.Outcome.next (if_neg ?_)
  rcases idle with asleep | ending
  · rw [asleep, Bool.and_false]
    exact Bool.false_ne_true
  · rw [ending]
    exact fun never => Bool.false_ne_true ((Bool.and_false _).symm.trans never)

theorem nmTokenLost_gives (on : s.nmOn c.val = true) (awake : (s.nmRing c.val).awake = true) (up : (s.nmRing c.val).sleeping = false) :
    Gives (.nmTokenLost c) s (fun t => (t.nmRing c.val).forming = true ∧ (t.nmRing c.val).formed = false ∧
      (t.nmRing c.val).holding = false ∧ (t.nmRing c.val).present = u64Bit (s.nmRing c.val).me ∧ Frame [.vz, .net] s t) := by
  have alive : ∃ m, nmAlive c.val s = nmPost c.val m (s.modNm c.val ringForms) := ⟨_, rfl⟩
  obtain ⟨o, a, after⟩ := nmRing_of_posted alive
  refine ⟨_, congrArg Host.Outcome.next (if_pos (by rw [on, awake, up]; rfl)), ?_, ?_, ?_, ?_, nmAlive_frame ..⟩
  · rw [after]
    rfl
  · rw [after]
    rfl
  · rw [after]
    rfl
  · rw [after]
    rfl

end

end Sys2Proof.Machine
end

section
/-! PROOF. Network management: sleep, the coordinator's limit and the NM commands (R318 to R320). -/

namespace Sys2Proof.Machine

/-! ### Sleep -/

section
variable {c : Fin 16} {s : State}

/-- The ring asleep. -/
def ringAsleep (n : NmRing) : NmRing :=
  { n with awake := false, join := false, forming := false, formed := false, present := 0, holding := false, sleepNext := false
           awaited := none, sleeping := false, override := false, awakeFrom := none, outbox := none }

theorem canSleep_same (c : Nat) (s : State) : ∃ u : State, (canSleep c s).canCh c =
    { u.canCh c with mode := .sleep, attempt := none, pending := [], xcvr := .lowPower, sieveErr := 0 } := ⟨_, State.modCan_same ..⟩

theorem nmSleepTimer_gives (on : s.nmOn c.val = true) (ending : (s.nmRing c.val).sleeping = true) : Gives (.nmSleepTimer c) s (fun t =>
    (t.nmRing c.val).awake = false ∧ (t.nmRing c.val).sleeping = false ∧ (t.canCh c.val).mode = .sleep ∧
    (t.canCh c.val).xcvr = .lowPower ∧ (t.canCh c.val).pending = [] ∧ Frame [.mbx, .log, .vz, .net] s t) := by
  have step : nmSleepNow c.val s = raiseCan evt_nmSleep c.val [] ((canSleep c.val s).modNm c.val ringAsleep) :=
    if_neg (by rw [on, ending]; exact Bool.false_ne_true)
  have net : (nmSleepNow c.val s).net = ((canSleep c.val s).modNm c.val ringAsleep).net := (congrArg State.net step).trans (raiseCan_net ..)
  have ring := (nmRing_eq net c.val).trans (State.modNm_same ..)
  obtain ⟨u, slept⟩ := canSleep_same c.val s
  have chan := (canCh_eq net c.val).trans slept
  exact ⟨_, rfl, (congrArg NmRing.awake ring :), (congrArg NmRing.sleeping ring :), (congrArg CanChan.mode chan :), (congrArg CanChan.xcvr chan :),
    (congrArg CanChan.pending chan :), nmSleepNow_frame ..⟩

theorem nmSleepTimer_unchanged (up : (s.nmRing c.val).sleeping = false) : exec (.nmSleepTimer c) s = .next s :=
  congrArg Host.Outcome.next (if_pos (by rw [up]; exact Bool.or_true _))

/-- The coordinator sends the ring to sleep. -/
def ringSentToSleep (n : NmRing) : NmRing := { n with sleeping := true, holding := false, awaited := none }

theorem nmTmaxExpiry_gives (on : s.nmOn c.val = true) (coord : (s.nmRing c.val).coordRole = true) (awake : (s.nmRing c.val).awake = true)
    (up : (s.nmRing c.val).sleeping = false) : Gives (.nmTmaxExpiry c) s (fun t => (t.nmRing c.val).sleeping = true ∧
      (t.nmRing c.val).override = true ∧ (t.nmRing c.val).holders = [] ∧ (t.nmRing c.val).holding = false ∧
      Frame [.mbx, .log, .vz, .net] s t) := by
  have step : ∃ m, nmOverstay c.val s = nmOverride c.val (nmPost c.val m
      ((raiseCan evt_nmOverstay c.val (le64 ((s.nmRing c.val).present &&& ~~~ (s.nmRing c.val).lastConsent)) s).modNm c.val ringSentToSleep)) :=
    ⟨_, if_neg (by rw [on, coord, awake, up]; exact Bool.false_ne_true)⟩
  obtain ⟨m, step⟩ := step
  obtain ⟨o, a, posted⟩ := nmRing_of_posted (c := c.val)
    (s := raiseCan evt_nmOverstay c.val (le64 ((s.nmRing c.val).present &&& ~~~ (s.nmRing c.val).lastConsent)) s) (f := ringSentToSleep) ⟨m, rfl⟩
  have ring := (congrArg (·.nmRing c.val) step).trans (nmOverride_same ..)
  rw [posted] at ring
  exact ⟨_, rfl, (congrArg NmRing.sleeping ring :), (congrArg NmRing.override ring :), (congrArg NmRing.holders ring :),
    (congrArg NmRing.holding ring :),
    nmOverstay_frame ..⟩

theorem nmTmaxExpiry_unchanged (plain : (s.nmRing c.val).coordRole = false) : exec (.nmTmaxExpiry c) s = .next s := by
  refine congrArg Host.Outcome.next (if_pos ?_)
  rw [plain]
  cases s.nmOn c.val <;> rfl

end

/-! ### A request for the ring to stay awake -/

section
variable {s : State} {c : Nat} {h : AwakeHolder}

/-- The ring with the request. -/
def holdRing (h : AwakeHolder) (n : NmRing) : NmRing := { n with holders := if n.holders.contains h then n.holders else n.holders ++ [h] }

theorem mem_holdRing (h : AwakeHolder) (n : NmRing) : h ∈ (holdRing h n).holders := by
  show h ∈ if n.holders.contains h then n.holders else n.holders ++ [h]
  split
  · next held => exact List.contains_iff_mem.mp held
  · exact List.mem_append_right _ (List.mem_singleton_self _)

/-- The sleep that runs is cancelled. -/
def ringStays (n : NmRing) : NmRing := { n with sleeping := false, sleepNext := false, holding := decide (lowestNode n.present = some n.me) }

theorem nmHold_eq (c : Nat) (h : AwakeHolder) (s : State) : nmHold c h s =
    if (s.canCh c).mode = .sleep then canWakeCh c (s.modNm c (holdRing h))
    else if ((s.modNm c (holdRing h)).nmRing c).sleeping && !((s.modNm c (holdRing h)).nmRing c).override then
      nmPost c (((s.modNm c (holdRing h)).modNm c ringStays).nmPlain c) ((s.modNm c (holdRing h)).modNm c ringStays)
    else s.modNm c (holdRing h) := rfl

theorem nmHold_holds (c : Nat) (h : AwakeHolder) (s : State) : h ∈ ((nmHold c h s).nmRing c).holders := by
  have held : h ∈ ((s.modNm c (holdRing h)).nmRing c).holders := by
    rw [State.modNm_same]
    exact mem_holdRing ..
  rw [nmHold_eq]
  split
  · obtain ⟨-, same, -⟩ := nmAwake_leaves c (canIntegrate c (s.modNm c (holdRing h)))
    rw [canWakeCh, same]
    exact held
  · split
    · obtain ⟨o, a, posted⟩ := nmRing_of_posted (c := c) (s := s.modNm c (holdRing h)) (f := ringStays) ⟨_, rfl⟩
      rw [posted]
      exact held
    · exact held

theorem nmHold_wakes (on : s.nmOn c = true) (asleep : (s.canCh c).mode = .sleep) :
    ((nmHold c h s).canCh c).mode = .integrating ∧ ((nmHold c h s).nmRing c).awake = true := by
  rw [nmHold_eq, if_pos asleep]
  have still : (canIntegrate c (s.modNm c (holdRing h))).nmOn c = true := by
    have ring : (canIntegrate c (s.modNm c (holdRing h))).nmRing c = holdRing h (s.nmRing c) := State.modNm_same ..
    rw [State.nmOn, ring]
    exact on
  obtain ⟨can, -, woken⟩ := nmAwake_leaves c (canIntegrate c (s.modNm c (holdRing h)))
  have chan : (canWakeCh c (s.modNm c (holdRing h))).canCh c = (canIntegrate c (s.modNm c (holdRing h))).canCh c :=
    congrArg (fun t : Tbl CanChan => t.getD .reset c) can
  refine ⟨?_, (woken still).1⟩
  rw [chan, canIntegrate_same]
  rfl

end

/-! ### The commands -/

section
variable {s : State} {r : Req} {p : Port} {c : Byte} (small : c.toNat ≤ 15) (runs : s.sys.mode.isRunLimpWork = true)
include small

theorem nmGetStatus_answers (q : Requested s r p 4) (open_ : s.step10 = true) (on : s.nmOn c.toNat = true) :
    Answers (.nmGetStatus r c) r 0x0B05 stat_ok (nmStatus c.toNat s) s (fun u => u = s) :=
  answers_of_accepted q rfl (q.passes (decide_eq_true q.len) rfl (canIndex_of_small small) open_)
    (if_neg (by rw [on]; exact Bool.false_ne_true)) rfl rfl

include runs

section
variable {f : NmRecord} (q : Requested s r p 20) (system : p.sysPriv = true) (zero : f.flags.toNat < 4) (inRange : nmRecordOk f = true)
include q system zero inRange

theorem nmConfig_answers_of {u : State} {status : U16} {post : State → Prop} (does : nmConfigBody c.toNat f s = (u, ⟨status, []⟩)) (leaves : post u) :
    Answers (.nmConfig r c f) r 0x0B01 status [] s post := by
  refine answers_of_accepted q rfl (q.passes (decide_eq_true q.len) (Need.check_of_sysPriv system _) ?_ runs) does rfl leaves
  rw [canIndex_of_small small, orStat_none, needStat_eq_none.mpr (decide_eq_true zero), orStat_none, needStat_eq_none.mpr inRange]

theorem nmConfig_answers (stopped : (s.canCh c.toNat).mode = .stopped) (free : f.flags.getLsbD 0 = false ∨ s.nmTaken c.toNat = false) :
    Answers (.nmConfig r c f) r 0x0B01 stat_ok [] s (fun u => u.nmRing c.toNat = { NmRing.reset with
      record := f, coordRole := f.flags.getLsbD 1 && f.flags.getLsbD 0 } ∧ (∀ j, j ≠ c.toNat → u.nmRing j = s.nmRing j) ∧
      Frame [.net] s u) := by
  have clear : (f.flags.getLsbD 0 && s.nmTaken c.toNat) = false := by
    rcases free with off | free
    · rw [off]
      rfl
    · rw [free]
      exact Bool.and_false _
  have does : nmConfigBody c.toNat f s = (nmSet c.toNat f s, .ok []) :=
    (if_neg (not_not_intro stopped)).trans (if_neg (by rw [clear]; exact Bool.false_ne_true))
  exact nmConfig_answers_of small runs q system zero inRange does
    ⟨State.modNm_same .., fun _ other => State.modNm_other _ _ _ _ other, nmSet_frame ..⟩

theorem nmConfig_active (active : (s.canCh c.toNat).mode ≠ .stopped) : Answers (.nmConfig r c f) r 0x0B01 stat_badState [] s (fun u => u = s) :=
  nmConfig_answers_of small runs q system zero inRange (if_pos active) rfl

end

section
variable (q : Requested s r p 4)
include q

theorem nmSetTmax_answers {m : U16} (system : p.sysPriv = true) (some_ : 1 ≤ m.toNat) (inside : m.toNat ≤ 14400) (on : s.nmOn c.toNat = true) :
    Answers (.nmSetTmax r c m) r 0x0B04 stat_ok [] s (fun u => u.nmRing c.toNat = { s.nmRing c.toNat with
      record := { (s.nmRing c.toNat).record with tMax := m } } ∧ Frame [.net] s u) := by
  refine answers_of_accepted q rfl (q.passes (decide_eq_true q.len) (Need.check_of_sysPriv system _) ?_ runs)
    (if_neg (by rw [on]; exact Bool.false_ne_true)) rfl ⟨State.modNm_same .., State.modNm_frame ..⟩
  rw [canIndex_of_small small, orStat_none, decide_eq_true some_, decide_eq_true inside]
  rfl

variable (may : p.mayUse (s.canOwner c.toNat))
include may

theorem nmRequestAwake_gives (on : s.nmOn c.toNat = true) :
    Gives (.nmRequestAwake r c) s (fun t => ∃ u, t = respond r 0x0B02 stat_ok (bool8 (u.nmRing c.toNat).awake ++ zeros 3) u ∧
      awakeHolder r p ∈ (u.nmRing c.toNat).holders ∧ ((s.canCh c.toNat).mode = .sleep → (u.canCh c.toNat).mode = .integrating ∧
        (u.nmRing c.toNat).awake = true) ∧ Frame [.mbx, .log, .vz, .net] s u) := by
  obtain ⟨u, answered, rfl⟩ := answers_of_accepted (c := .nmRequestAwake r c) (post := fun u => u = nmHold c.toNat (awakeHolder r p) s) q rfl
    (q.passes (decide_eq_true q.len) (canNeed_check_of_mayUse small may) (canIndex_of_small small) runs)
    (if_neg (by rw [on]; exact Bool.false_ne_true)) rfl rfl
  exact ⟨_, answered, _, rfl, nmHold_holds .., fun asleep => nmHold_wakes on asleep, nmHold_frame ..⟩

theorem nmRelease_answers (on : s.nmOn c.toNat = true) :
    Answers (.nmRelease r c) r 0x0B03 stat_ok [] s (fun u => awakeHolder r p ∉ (u.nmRing c.toNat).holders ∧
      (u.nmRing c.toNat).awake = (s.nmRing c.toNat).awake ∧ Frame [.net] s u) := by
  refine answers_of_accepted q rfl (q.passes (decide_eq_true q.len) (canNeed_check_of_mayUse small may) (canIndex_of_small small) runs)
    (if_neg (by rw [on]; exact Bool.false_ne_true)) rfl ⟨fun held => ?_, ?_, State.modNm_frame ..⟩
  · rw [State.modNm_same] at held
    have differs := (List.mem_filter.mp held).2
    rw [bne_self_eq_false] at differs
    exact Bool.false_ne_true differs
  · rw [State.modNm_same]

theorem nmRequest_off (off : s.nmOn c.toNat = false) :
    Answers (.nmRequestAwake r c) r 0x0B02 stat_nmOff [] s (fun u => u = s) ∧
    Answers (.nmRelease r c) r 0x0B03 stat_nmOff [] s (fun u => u = s) := by
  have none_ : (!s.nmOn c.toNat) = true := by rw [off]; rfl
  exact ⟨answers_of_accepted q rfl (q.passes (decide_eq_true q.len) (canNeed_check_of_mayUse small may) (canIndex_of_small small) runs) (if_pos none_) rfl rfl,
    answers_of_accepted q rfl (q.passes (decide_eq_true q.len) (canNeed_check_of_mayUse small may) (canIndex_of_small small) runs)
      (if_pos none_) rfl rfl⟩

end

end

/-- Settles O46: each clause is the lemma of its event or of its command. A ring of one node passes the token to itself (log entry 83). -/
theorem networkManagementActs : Obligations.NetworkManagementActs := by
  unfold Obligations.NetworkManagementActs
  refine ⟨?deaf, ?ignored, ?received, ?noToken, ?follows, ?leads, ?sleeps, ?formed, ?forming, ?noHop, ?hop, ?noLoss, ?lost, ?sleepTimer, ?awake,
    ?tmax, ?noCoord, ?config, ?active, ?request, ?release, ?off, ?setTmax, ?status⟩
  case deaf => exact fun c id dlc d s => nmMessageReceived_unchanged
  case ignored => exact fun c id dlc d s => nmMessageReceived_ignored
  case received => exact fun c id dlc d m s on awake => nmMessageReceived_gives on awake
  case noToken => exact fun c s => nmTokenPass_unchanged
  case follows => exact fun c k s on holds up => nmTokenPass_follows on holds up
  case leads => exact fun c k s on holds up => nmTokenPass_leads on holds up
  case sleeps => exact fun c s => nmTokenPass_sleeps
  case formed => exact fun c s => nmFormingTimeout_unchanged
  case forming => exact fun c s => nmFormingTimeout_gives
  case noHop => exact fun c s => nmHopTimeout_unchanged
  case hop => exact fun c k s => nmHopTimeout_gives
  case noLoss => exact fun c s => nmTokenLost_unchanged
  case lost => exact fun c s => nmTokenLost_gives
  case sleepTimer => exact fun c s => nmSleepTimer_gives
  case awake => exact fun c s => nmSleepTimer_unchanged
  case tmax => exact fun c s => nmTmaxExpiry_gives
  case noCoord => exact fun c s => nmTmaxExpiry_unchanged
  case config => exact fun s r p c f q system small zero inRange runs => nmConfig_answers small runs q system zero inRange
  case active => exact fun s r p c f q system small zero inRange runs => nmConfig_active small runs q system zero inRange
  case request => exact fun s r p c q small may runs => nmRequestAwake_gives small runs q may
  case release => exact fun s r p c q small may runs => nmRelease_answers small runs q may
  case off => exact fun s r p c q small may runs => nmRequest_off small runs q may
  case setTmax => exact fun s r p c m q system small some_ inside runs => nmSetTmax_answers small runs q system some_ inside
  case status => exact fun s r p c q small => nmGetStatus_answers small q

end Sys2Proof.Machine
end

section
/-! PROOF. Windows and registers (R87, R302, R303, R327, R328, R398, R412). -/

namespace Sys2Proof.Machine

/-! ### Windows -/

section
variable {s : State}

theorem raise_wins (k : EvKind) (inst : Nat) (sc : Scope) (data : List Byte) (s : State) : (raise k inst sc data s).mbx.wins = s.mbx.wins := by
  unfold raise
  dsimp only
  split
  · rfl
  · rfl

theorem windowFault_wins (v : Nat) (s : State) : (windowFault v s).mbx.wins =
    s.mbx.wins.set v { fault := true, faultCount := satInc 0xFFFF (s.mbx.wins.getD .reset v).faultCount } := by
  unfold windowFault
  dsimp only
  split
  · rfl
  · exact raise_wins ..

theorem windowUnmappedAccess_gives {v : Fin 256} {o : U16} (unmapped : s.winMapped v.val o.toNat = false) :
    Gives (.windowUnmappedAccess v o) s (fun t => (t.mbx.wins.getD .reset v.val).fault = true ∧
      (t.mbx.wins.getD .reset v.val).faultCount = satInc 0xFFFF (s.mbx.wins.getD .reset v.val).faultCount ∧ t.bus = 0 ∧
      (∀ k, k ≠ v.val → t.mbx.wins.getD .reset k = s.mbx.wins.getD .reset k) ∧ Frame [.mbx, .log, .vz, .bus] s t) := by
  refine ⟨windowFault v.val s, congrArg Host.Outcome.next (if_neg (by rw [unmapped]; exact Bool.false_ne_true)), ?_, ?_, windowFault_bus ..,
    fun k other => ?_, windowFault_frame ..⟩
  · rw [windowFault_wins, Tbl.getD_set_same]
  · rw [windowFault_wins, Tbl.getD_set_same]
  · rw [windowFault_wins, Tbl.getD_set_other _ _ _ _ _ other]

theorem windowUnmappedAccess_unchanged {v : Fin 256} {o : U16} (mapped : s.winMapped v.val o.toNat = true) :
    exec (.windowUnmappedAccess v o) s = .next s :=
  congrArg Host.Outcome.next (if_pos mapped)

theorem registerWrite_of_unmapped {v : Fin 256} {o : U16} {w : U32} (unmapped : s.winMapped v.val o.toNat = false) :
    exec (.registerWrite (.window v o) w) s = .next (windowFault v.val s) :=
  congrArg Host.Outcome.next (if_pos (by rw [unmapped]; rfl))

/-- A write in the event vector region changes its VZF alone. -/
theorem winWrite_of_vectors {v o : Nat} {w : U32} (mapped : s.winMapped v o = true) (high : 0xE000 ≤ o) :
    winWrite v o w false s = { s with vz := s.vz.modify v (fun z => z.writeEv o w) } := by
  unfold winWrite
  rw [mapped, if_neg (by exact Bool.false_ne_true), if_neg (by omega), if_neg (by omega), if_neg (by omega), if_neg (by omega), if_neg (by omega),
    if_neg (by omega), if_neg (by omega)]

theorem vectorWrite_gives {v : Fin 256} {o : U16} {w : U32} {z : Vzf} (mapped : s.winMapped v.val o.toNat = true) (high : 0xE000 ≤ o.toNat)
    (writes : (s.vzf v.val).writeEv o.toNat w = z) :
    Gives (.registerWrite (.window v o) w) s (fun t => t.vzf v.val = z ∧ (∀ k, k ≠ v.val → t.vzf k = s.vzf k) ∧ Frame [.vz] s t) :=
  ⟨_, congrArg Host.Outcome.next (winWrite_of_vectors mapped high), (Tbl.getD_modify_same ..).trans writes,
    fun _ other => Tbl.getD_modify_other _ _ _ _ _ other, (Frame.refl _ _).set_vz (by decide)⟩

theorem bindWrite_gives {v : Fin 256} {o : U16} {w : U32} (mapped : s.winMapped v.val o.toNat = true) (low : 0xE400 ≤ o.toNat)
    (high : o.toNat < 0xE800) :
    Gives (.registerWrite (.window v o) w) s (fun t =>
      (t.vzf v.val).binds.get? ((o.toNat - 0xE400) / 4) = some { en := w.getLsbD 31, vec := bits w 0 6 } ∧
      (t.vzf v.val).vectors = (s.vzf v.val).vectors ∧ (∀ k, k ≠ v.val → t.vzf k = s.vzf k) ∧ Frame [.vz] s t) := by
  have writes : (s.vzf v.val).writeEv o.toNat w =
      { s.vzf v.val with binds := (s.vzf v.val).binds.set ((o.toNat - 0xE400) / 4) { en := w.getLsbD 31, vec := bits w 0 6 } } := by
    rw [Vzf.writeEv, if_neg (by omega), if_pos high]
  obtain ⟨t, step, here, others, frame⟩ := vectorWrite_gives mapped (by omega) writes
  refine ⟨t, step, ?_, ?_, others, frame⟩
  · rw [here]
    exact Tbl.get?_set_same ..
  · rw [here]

/-- A vector that is not pending is not delivered. -/
theorem deliverVec_of_idle {z : Vzf} {k : Nat} (idle : (z.vectors.getD .reset k).pend = false) : z.deliverVec k = z := by
  unfold Vzf.deliverVec
  dsimp only
  rw [idle]
  rfl

theorem vectorAddrWrite_gives {v : Fin 256} {o : U16} {w : U32} {x : EvVector} (mapped : s.winMapped v.val o.toNat = true) (low : 0xE000 ≤ o.toNat)
    (high : o.toNat < 0xE400) (first : o.toNat % 16 = 0) (now : x = (s.vzf v.val).vectors.getD .reset ((o.toNat - 0xE000) / 16))
    (idle : x.pend = false) :
    Gives (.registerWrite (.window v o) w) s (fun t =>
      (t.vzf v.val).vectors.get? ((o.toNat - 0xE000) / 16) = some { x with addrLo := w } ∧
      (∀ k, k ≠ v.val → t.vzf k = s.vzf k) ∧ Frame [.vz] s t) := by
  have writes : (s.vzf v.val).writeEv o.toNat w =
      { s.vzf v.val with vectors := (s.vzf v.val).vectors.set ((o.toNat - 0xE000) / 16) { x with addrLo := w } } := by
    rw [Vzf.writeEv, if_pos high, first]
    unfold Vzf.writeVec
    dsimp only
    rw [if_pos rfl, ← now]
    exact deliverVec_of_idle (by rw [Tbl.getD_set_same]; exact idle)
  obtain ⟨t, step, here, others, frame⟩ := vectorWrite_gives mapped low writes
  refine ⟨t, step, ?_, others, frame⟩
  rw [here]
  exact Tbl.get?_set_same ..

end

/-! ### Message RAM -/

section
variable {c : Fin 16} {e : Fin 512} {k : Fin 24} {w : U32} {s : State}

theorem canOwnErr_gives (c : Nat) (s : State) : ((canOwnErr c s).canCh c).flags.ownErr = true ∧ ((canOwnErr c s).canCh c).rx = (s.canCh c).rx ∧
    ((canOwnErr c s).canCh c).xlb = (s.canCh c).xlb ∧ Frame [.net] s (canOwnErr c s) := by
  have after : (canOwnErr c s).canCh c = { s.canCh c with flags := { (s.canCh c).flags with ownErr := true } } := State.modCan_same ..
  rw [after]
  exact ⟨rfl, rfl, rfl, canOwnErr_frame ..⟩

theorem canEntryWrite_rx (field : k.val ≠ 0) : canEntryWrite c.val true e.val k.val w s = if ((s.canCh c.val).rxE e.val).own then canOwnErr c.val s
    else s.modCan c.val (fun x => { x with rx := x.rx.set e.val (((s.canCh c.val).rxE e.val).putField k.val w) }) :=
  if_neg field

theorem rxEntryWrite_gives (field : k.val ≠ 0) (soft : ((s.canCh c.val).rxE e.val).own = false) :
    Gives (.registerWrite (.canEntry c true e k) w) s (fun t => (t.canCh c.val).rxE e.val = ((s.canCh c.val).rxE e.val).putField k.val w ∧
      (∀ j, j ≠ e.val → (t.canCh c.val).rxE j = (s.canCh c.val).rxE j) ∧ (t.canCh c.val).tx = (s.canCh c.val).tx ∧ Frame [.net] s t) := by
  have step := (canEntryWrite_rx (w := w) field).trans (if_neg (by rw [soft]; exact Bool.false_ne_true))
  refine ⟨_, congrArg Host.Outcome.next step, ?_, fun j other => ?_, ?_, State.modCan_frame ..⟩
  · rw [State.modCan_same]
    exact Tbl.getD_set_same ..
  · rw [State.modCan_same]
    exact Tbl.getD_set_other _ _ _ _ _ other
  · rw [State.modCan_same]

theorem rxEntryWrite_refused (field : k.val ≠ 0) (hard : ((s.canCh c.val).rxE e.val).own = true) :
    Gives (.registerWrite (.canEntry c true e k) w) s (fun t => (t.canCh c.val).rx = (s.canCh c.val).rx ∧
      (t.canCh c.val).flags.ownErr = true ∧ Frame [.net] s t) := by
  obtain ⟨flag, rx, -, frame⟩ := canOwnErr_gives c.val s
  exact ⟨_, congrArg Host.Outcome.next ((canEntryWrite_rx (w := w) field).trans (if_pos hard)), rx, flag, frame⟩

theorem txEntryWrite_gives (field : k.val ≠ 0) (small : e.val ≤ 95) (software : s.canSoftEntry c.val e.val = true)
    (soft : ((s.canCh c.val).txE e.val).own = false) :
    Gives (.registerWrite (.canEntry c false e k) w) s (fun t =>
      (t.canCh c.val).txE e.val = ((s.canCh c.val).txE e.val).putField k.val w ∧
      (∀ j, j ≠ e.val → (t.canCh c.val).txE j = (s.canCh c.val).txE j) ∧ (t.canCh c.val).rx = (s.canCh c.val).rx ∧ Frame [.net] s t) := by
  have step : canEntryWrite c.val false e.val k.val w s =
      s.modCan c.val (fun x => { x with tx := x.tx.set e.val (((s.canCh c.val).txE e.val).putField k.val w) }) := by
    unfold canEntryWrite
    dsimp only
    rw [if_neg field, software, decide_eq_false (by omega)]
    exact (if_neg (by exact Bool.false_ne_true)).trans (if_neg (by rw [if_neg Bool.false_ne_true, soft]; exact Bool.false_ne_true))
  refine ⟨_, congrArg Host.Outcome.next step, ?_, fun j other => ?_, ?_, State.modCan_frame ..⟩
  · rw [State.modCan_same]
    exact Tbl.getD_set_same ..
  · rw [State.modCan_same]
    exact Tbl.getD_set_other _ _ _ _ _ other
  · rw [State.modCan_same]

theorem xlWrite_gives {b : Fin 64} {k : Fin 512} (soft : (s.canCh c.val).xlOwned b.val = false) :
    Gives (.registerWrite (.canXl c b k) w) s (fun t => (t.canCh c.val).xlb.get? b.val =
        some (putWord 2048 ((s.canCh c.val).xlb.getD [] b.val) (4 * k.val) w) ∧
      (∀ j, j ≠ b.val → (t.canCh c.val).xlb.get? j = (s.canCh c.val).xlb.get? j) ∧ Frame [.net] s t) := by
  have step : canXlWrite c.val b.val k.val w s = s.modCan c.val
    (fun x => { x with xlb := x.xlb.set b.val (putWord 2048 (x.xlb.getD [] b.val) (4 * k.val) w) }) :=
    if_neg (by rw [soft]; exact Bool.false_ne_true)
  refine ⟨_, congrArg Host.Outcome.next step, ?_, fun j other => ?_, State.modCan_frame ..⟩
  · rw [State.modCan_same]
    exact Tbl.get?_set_same ..
  · rw [State.modCan_same]
    exact Tbl.get?_set_other _ _ other

theorem xlWrite_refused {b : Fin 64} {k : Fin 512} (hard : (s.canCh c.val).xlOwned b.val = true) :
    Gives (.registerWrite (.canXl c b k) w) s (fun t => (t.canCh c.val).xlb = (s.canCh c.val).xlb ∧ (t.canCh c.val).flags.ownErr = true ∧
      Frame [.net] s t) := by
  obtain ⟨flag, -, xlb, frame⟩ := canOwnErr_gives c.val s
  exact ⟨_, congrArg Host.Outcome.next (if_pos hard), xlb, flag, frame⟩

end

section
variable {l : Fin 16} {w : U32} {s : State}

theorem linFrameWrite_gives {id : Fin 64} {k : Fin 8} (small : id.val < 60) :
    Gives (.registerWrite (.linFrame l id k) w) s (fun t => (t.linCh l.val).frame id.val = ((s.linCh l.val).frame id.val).putField k.val w ∧
      (∀ j, j ≠ id.val → (t.linCh l.val).frame j = (s.linCh l.val).frame j) ∧ Frame [.net] s t) := by
  refine ⟨_, congrArg Host.Outcome.next (if_neg (by omega)), ?_, fun j other => ?_, State.modLin_frame ..⟩
  · rw [State.modLin_same]
    exact Tbl.getD_modify_same ..
  · rw [State.modLin_same]
    exact Tbl.getD_modify_other _ _ _ _ _ other

theorem linFrameWrite_unchanged {id : Fin 64} {k : Fin 8} (large : 60 ≤ id.val) : exec (.registerWrite (.linFrame l id k) w) s = .next s :=
  congrArg Host.Outcome.next (if_pos large)

theorem linRxWrite_gives {e : Fin 64} {k : Fin 4} (soft : ((s.linCh l.val).rx.getD .reset e.val).word.getLsbD 31 = false) :
    Gives (.registerWrite (.linRx l e k) w) s (fun t =>
      (t.linCh l.val).rx.get? e.val = some (((s.linCh l.val).rx.getD .reset e.val).putField k.val w) ∧ Frame [.net] s t) := by
  refine ⟨_, congrArg Host.Outcome.next (if_neg (by rw [soft]; exact Bool.false_ne_true)), ?_, State.modLin_frame ..⟩
  rw [State.modLin_same]
  exact Tbl.get?_set_same ..

theorem linRxWrite_refused {e : Fin 64} {k : Fin 4} (hard : ((s.linCh l.val).rx.getD .reset e.val).word.getLsbD 31 = true) :
    Gives (.registerWrite (.linRx l e k) w) s (fun t => (t.linCh l.val).rx = (s.linCh l.val).rx ∧ (t.linCh l.val).flags.ownErr = true ∧
      Frame [.net] s t) := by
  refine ⟨_, congrArg Host.Outcome.next (if_pos hard), ?_, ?_, State.modLin_frame ..⟩
  · rw [State.modLin_same]
  · rw [State.modLin_same]

end

/-! ### Stacking CSRs and TCM -/

section
variable {p : Fin 4} {w : U32} {s : State}

theorem mspWrite_gives (p : Fin 4) (w : U32) (s : State) : Gives (.registerWrite (.safCsr p 0x7C1) w) s (fun t =>
    t.pair p.val = { s.pair p.val with xstk := { (s.pair p.val).xstk with msp := w } } ∧ (∀ q, q ≠ p.val → t.pair q = s.pair q) ∧
    Frame [.saf] s t) :=
  ⟨_, rfl, State.modPair_same .., fun _ other => State.modPair_other _ _ _ _ other, State.modPair_frame ..⟩

theorem ctlWrite_gives (p : Fin 4) (w : U32) (s : State) : Gives (.registerWrite (.safCsr p 0x7C0) w) s (fun t =>
    t.pair p.val = { s.pair p.val with xstk := { (s.pair p.val).xstk with en := w.getLsbD 31, fpLazy := w.getLsbD 0 } } ∧
    Frame [.saf] s t) :=
  ⟨_, rfl, State.modPair_same .., State.modPair_frame ..⟩

/-- The four bytes of a word make the word. -/
theorem word_of_bytes (w : U32) : BitVec.ofNat 32 ((w.extractLsb' 0 8).toNat + 256 * (w.extractLsb' 8 8).toNat +
    65536 * ((w.extractLsb' 16 8).toNat + 256 * (w.extractLsb' 24 8).toNat)) = w := by
  apply BitVec.eq_of_toNat_eq
  have bound := w.isLt
  simp only [BitVec.toNat_ofNat, BitVec.extractLsb'_toNat, Nat.shiftRight_eq_div_pow]
  omega

theorem memRead32_memWrite32 {m : Memory} (a : Nat) (w : U32) (wf : m.wf = true) : memRead32 (memWrite32 m a w) a = w := by
  have wf1 := memSet_wf m a (w.extractLsb' 0 8) wf
  have wf2 := memSet_wf _ (a + 1) (w.extractLsb' 8 8) wf1
  have wf3 := memSet_wf _ (a + 2) (w.extractLsb' 16 8) wf2
  have whole : memWrite32 m a w = memSet (memSet (memSet (memSet m a (w.extractLsb' 0 8)) (a + 1) (w.extractLsb' 8 8)) (a + 2) (w.extractLsb' 16 8))
      (a + 3) (w.extractLsb' 24 8) := rfl
  have byte0 : memGet (memWrite32 m a w) a = w.extractLsb' 0 8 := by
    rw [whole, memGet_memSet_other _ _ _ _ (by omega), memGet_memSet_other _ _ _ _ (by omega), memGet_memSet_other _ _ _ _ (by omega),
      memGet_memSet_same _ _ _ wf]
  have byte1 : memGet (memWrite32 m a w) (a + 1) = w.extractLsb' 8 8 := by
    rw [whole, memGet_memSet_other _ _ _ _ (by omega), memGet_memSet_other _ _ _ _ (by omega), memGet_memSet_same _ _ _ wf1]
  have byte2 : memGet (memWrite32 m a w) (a + 2) = w.extractLsb' 16 8 := by
    rw [whole, memGet_memSet_other _ _ _ _ (by omega), memGet_memSet_same _ _ _ wf2]
  have byte3 : memGet (memWrite32 m a w) (a + 2 + 1) = w.extractLsb' 24 8 := by
    rw [whole, memGet_memSet_same _ _ _ wf3]
  rw [memRead32, memRead16, memRead16, byte0, byte1, byte2, byte3]
  exact word_of_bytes w

theorem tcmWrite_gives {k : Fin 131072} (wf : Memory.wf (s.pair p.val).tcm = true) :
    Gives (.registerWrite (.tcm p k) w) s (fun t => memRead32 (t.pair p.val).tcm (tcmBase + 4 * k.val) = w ∧
      (∀ a, (a < tcmBase + 4 * k.val ∨ tcmBase + 4 * k.val + 4 ≤ a) → memGet (t.pair p.val).tcm a = memGet (s.pair p.val).tcm a) ∧
      (t.pair p.val).xstk = (s.pair p.val).xstk ∧ (∀ q, q ≠ p.val → t.pair q = s.pair q) ∧ Frame [.saf] s t) := by
  have after : (tcmWrite p.val k.val w s).pair p.val = { s.pair p.val with tcm := memWrite32 (s.pair p.val).tcm (tcmBase + 4 * k.val) w } :=
    State.modPair_same ..
  refine ⟨tcmWrite p.val k.val w s, rfl, ?_, fun a outside => ?_, ?_, fun _ other => State.modPair_other _ _ _ _ other, State.modPair_frame ..⟩
  · rw [after]
    exact memRead32_memWrite32 _ w wf
  · rw [after]
    exact memGet_memWrite_outside _ _ _ (le32 w) outside
  · rw [after]

end

/-- Settles O48: each clause is the lemma of its window region or of its record. Which offsets are mapped, and TCM written through this row, are log
entry 39; software writes to CAN and LIN buffers are log entry 43. -/
theorem registerWritesAct : Obligations.RegisterWritesAct := by
  unfold Obligations.RegisterWritesAct
  refine ⟨?unmapped, ?mapped, ?fault, ?bind, ?vector, ?page, ?rxEntry, ?rxOwned, ?txEntry, ?xl, ?xlOwned, ?linFrame, ?linDiag, ?linRx, ?linOwned,
    ?msp,
    ?ctl, ?tcm⟩
  case unmapped => exact fun v o s => windowUnmappedAccess_gives
  case mapped => exact fun v o s => windowUnmappedAccess_unchanged
  case fault => exact fun v o w s => registerWrite_of_unmapped
  case bind => exact fun v o w s => bindWrite_gives
  case vector => exact fun v o w x s => vectorAddrWrite_gives
  case page => exact fun o w s => rfl
  case rxEntry => exact fun c e k w s => rxEntryWrite_gives
  case rxOwned => exact fun c e k w s => rxEntryWrite_refused
  case txEntry => exact fun c e k w s => txEntryWrite_gives
  case xl => exact fun c b k w s => xlWrite_gives
  case xlOwned => exact fun c b k w s => xlWrite_refused
  case linFrame => exact fun l id k w s => linFrameWrite_gives
  case linDiag => exact fun l id k w s => linFrameWrite_unchanged
  case linRx => exact fun l e k w s => linRxWrite_gives
  case linOwned => exact fun l e k w s => linRxWrite_refused
  case msp => exact mspWrite_gives
  case ctl => exact ctlWrite_gives
  case tcm => exact fun p k w s => tcmWrite_gives

end Sys2Proof.Machine
end

section
/-! PROOF. The ESW commands (R268, R271, R272, R275, R283, R285, R292, R294). -/

namespace Sys2Proof.Machine

theorem Tbl.get?_erase_other {α : Type} (t : Tbl α) {k j : Nat} (other : j ≠ k) : (t.erase k).get? j = t.get? j := by
  have kept : ∀ l : List (Nat × α), Tbl.find (l.filter (fun c => c.1 != k)) j = Tbl.find l j := fun l => by
    induction l with
    | nil => rfl
    | cons c r ih =>
      obtain ⟨i, x⟩ := c
      by_cases same : i = k
      · rw [List.filter_cons_of_neg (by simp [same]), ih, Tbl.find, if_neg (fun here => other (here.symm.trans same))]
      · rw [List.filter_cons_of_pos (by simp [same]), Tbl.find, Tbl.find, ih]
  exact kept t.cells

section
variable {s : State} {r : Req} {p : Port}

/-! ### Ports, VLANs and the forwarding table -/

theorem portNeed_check {k : Nat} (small : k ≤ 20) (may : p.mayUse (s.swp k).vzf) : (s.portNeed k).check p = none := by
  rw [State.portNeed, if_pos small]
  exact Need.check_of_mayUse may

theorem portStat_of_small {k : Byte} (small : k.toNat ≤ 20) : portStat k = none := needStat_eq_none.mpr (decide_eq_true small)

theorem eswPortStatus_answers {k : Byte} (q : Requested s r p 4) (small : k.toNat ≤ 20) (may : p.mayUse (s.swp k.toNat).vzf)
    (runs : s.sys.mode.isRunLimpWork = true) : Answers (.eswPortStatus r k) r 0x0801 stat_ok
      (le32 (s.portWord k.toNat) ++ zeros 4 ++ (s.swp k.toNat).count.bytes) s (fun u => u = s) :=
  answers_of_accepted q rfl (q.passes (decide_eq_true q.len) (portNeed_check small may) (portStat_of_small small) runs) rfl rfl rfl

theorem eswPortStatus_absent {k : Byte} (q : Requested s r p 4) (large : 20 < k.toNat) (system : p.sysPriv = true) :
    Answers (.eswPortStatus r k) r 0x0801 stat_eswPort [] s (fun u => u = s) := by
  have absent : portStat k = some stat_eswPort := if_neg (by rw [decide_eq_false (by omega)]; exact Bool.false_ne_true)
  exact answers_of_rejected q rfl (q.refused (decide_eq_true q.len) (Need.check_of_sysPriv system _) absent) rfl rfl

theorem eswVlanSet_answers {vid : U16} {m u : U32} (q : Requested s r p 12) (system : p.sysPriv = true) (named : vidOk vid = true)
    (members : maskOk m = true) (untagged : maskOk u = true) (runs : s.sys.mode.isRunLimpWork = true) :
    Answers (.eswVlanSet r vid m u) r 0x0802 stat_ok [] s (fun t =>
      t.esw = { s.esw with vlans := s.esw.vlans.set vid.toNat { members := m, untagged := u } } ∧ Frame [.esw] s t) := by
  have clean : needStat (vidOk vid && maskOk m && maskOk u) stat_range = none := by
    rw [named, members, untagged]
    rfl
  exact answers_of_accepted q rfl (q.passes (decide_eq_true q.len) (Need.check_of_sysPriv system _) clean runs) rfl rfl ⟨rfl, State.modEsw_frame ..⟩

section
variable {f : FdbFields} (q : Requested s r p 16) (may : p.mayUse (s.fdbOwner f.mac f.vid.toNat f.ports)) (clean : fdbStat f = none)
  (runs : s.sys.mode.isRunLimpWork = true)
include q may clean runs

theorem eswFdbAdd_answers {rest : List FdbEntry}
    (others : rest = s.esw.fdb.filter (fun y => !(decide (y.mac = f.mac) && decide (y.vid = f.vid.toNat)))) (room : rest.length < 16384) :
    Answers (.eswFdbAdd r f) r 0x0803 stat_ok [] s (fun t => t.esw = { s.esw with fdb := rest ++ [{
      mac := f.mac, vid := f.vid.toNat, ports := f.ports, station := f.station.toNat, static_ := flagOf f.flags 0
      discard := flagOf f.flags 1 }] } ∧ Frame [.esw] s t) := by
  subst others
  exact answers_of_accepted q rfl (q.passes (decide_eq_true q.len) (Need.check_of_mayUse may) clean runs) (if_neg (Nat.not_le_of_lt room)) rfl
    ⟨rfl, State.modEsw_frame ..⟩

theorem eswFdbAdd_full (full : 16384 ≤ (s.esw.fdb.filter (fun y => !(decide (y.mac = f.mac) && decide (y.vid = f.vid.toNat)))).length) :
    Answers (.eswFdbAdd r f) r 0x0803 stat_eswTableFull [] s (fun t => t = s) :=
  answers_of_accepted q rfl (q.passes (decide_eq_true q.len) (Need.check_of_mayUse may) clean runs) (if_pos full) rfl rfl

end

section
variable {mac : BitVec 48} {vid : U16} (q : Requested s r p 8) (runs : s.sys.mode.isRunLimpWork = true)
include q runs

theorem eswFdbDel_answers {e : FdbEntry} (found : s.esw.lookup mac vid.toNat = some e) (may : p.mayUse (s.fdbOwner mac vid.toNat e.ports)) :
    Answers (.eswFdbDel r mac vid) r 0x0804 stat_ok [] s (fun t => t.esw = { s.esw with
      fdb := s.esw.fdb.filter (fun y => !(decide (y.mac = mac) && decide (y.vid = vid.toNat))) } ∧ Frame [.esw] s t) := by
  have acts : exec (.eswFdbDel r mac vid) s = .next (runCmd r (eswCmd 0x0804 (decide (r.len = 8)) (.owner (s.fdbOwner mac vid.toNat e.ports)) none s)
      (fun _ s => (s.modEsw (fun x => { x with fdb := x.fdb.filter (fun y => !(decide (y.mac = mac) && decide (y.vid = vid.toNat))) }),
      .ok [])) s) := by
    show execEswFdbDel r mac vid s = _
    unfold execEswFdbDel
    rw [found] <;> rfl
  exact answers_of_accepted q acts (q.passes (decide_eq_true q.len) (Need.check_of_mayUse may) rfl runs) rfl rfl ⟨rfl, State.modEsw_frame ..⟩

theorem eswFdbDel_absent (absent : s.esw.lookup mac vid.toNat = none) :
    Answers (.eswFdbDel r mac vid) r 0x0804 stat_badState [] s (fun t => t = s) := by
  have acts : exec (.eswFdbDel r mac vid) s = .next (runCmd r
    (eswCmd 0x0804 (decide (r.len = 8)) .any none s) (fun _ s => (s, .fail stat_badState)) s) := by
    show execEswFdbDel r mac vid s = _
    unfold execEswFdbDel
    rw [absent] <;> rfl
  exact answers_of_accepted q acts (q.passes (decide_eq_true q.len) rfl rfl runs) rfl rfl rfl

end

/-! ### Pots and shapers -/

section
variable {f : PotFields} (q : Requested s r p 16) (system : p.sysPriv = true) (clean : potStat f = none) (runs : s.sys.mode.isRunLimpWork = true)
include q system clean runs

theorem eswPotConfig_answers (budget : potBudgetOk f.pot.toNat f.min.toNat s = true) :
    Answers (.eswPotConfig r f) r 0x0805 stat_ok [] s (fun t => t.pot f.pot.toNat = { s.pot f.pot.toNat with
      rec_ := { owner := f.owner.toNat, min := f.min.toNat, max := f.max.toNat, maxDesc := f.maxDesc.toNat } } ∧
      (∀ k, k ≠ f.pot.toNat → t.pot k = s.pot k) ∧ Frame [.esw] s t) :=
  answers_of_accepted q rfl (q.passes (decide_eq_true q.len) (Need.check_of_sysPriv system _) clean runs)
    (if_neg (by rw [budget]; exact Bool.false_ne_true)) rfl
    ⟨State.modPot_same .., fun _ other => State.modPot_other _ _ _ _ other, State.modPot_frame ..⟩

theorem eswPotConfig_short (budget : potBudgetOk f.pot.toNat f.min.toNat s = false) :
    Answers (.eswPotConfig r f) r 0x0805 stat_eswPotBudget [] s (fun t => t = s) :=
  answers_of_accepted q rfl (q.passes (decide_eq_true q.len) (Need.check_of_sysPriv system _) clean runs) (if_pos (by rw [budget]; rfl)) rfl rfl

end

theorem eswPotStatus_answers {pot : Byte} (q : Requested s r p 4) (small : pot.toNat ≤ 63) (may : p.mayUse (s.potOwner pot.toNat))
    (runs : s.sys.mode.isRunLimpWork = true) : Answers (.eswPotStatus r pot) r 0x0806 stat_ok (s.pot pot.toNat).bytes s (fun t =>
      t.pot pot.toNat = { s.pot pot.toNat with peak := (s.pot pot.toNat).used } ∧ (∀ k, k ≠ pot.toNat → t.pot k = s.pot k) ∧
      Frame [.esw] s t) :=
  answers_of_accepted q rfl (q.passes (decide_eq_true q.len) (Need.check_of_mayUse may) (needStat_eq_none.mpr (decide_eq_true small)) runs) rfl rfl
    ⟨State.modPot_same .., fun _ other => State.modPot_other _ _ _ _ other, State.modPot_frame ..⟩

section
variable {port cls : Byte} {slope : U32} (q : Requested s r p 8) (small : port.toNat ≤ 20) (may : p.mayUse (s.swp port.toNat).vzf)
  (class_ : cls.toNat ≤ 7) (rate : slope.toNat ≤ rateKbps port.toNat) (runs : s.sys.mode.isRunLimpWork = true)
include q small may class_ rate runs

theorem eswShaperSet_answers_of {enable : Byte} {u : State} {status : U16} {post : State → Prop} (bit_ : enable.toNat ≤ 1)
    (does : shaperSet port.toNat cls.toNat (decide (enable = 1)) slope.toNat s = (u, ⟨status, []⟩)) (leaves : post u) :
    Answers (.eswShaperSet r port cls enable slope) r 0x0807 status [] s post := by
  refine answers_of_accepted q rfl (q.passes (decide_eq_true q.len) (portNeed_check small may) ?_ runs) does rfl leaves
  rw [portStat_of_small small, orStat_none, needStat_eq_none.mpr (decide_eq_true bit_), orStat_none, decide_eq_true class_, decide_eq_true rate]
  rfl

theorem eswShaperSet_on (room : s.esw.shaped port.toNat < 4) : Answers (.eswShaperSet r port cls 1 slope) r 0x0807 stat_ok [] s (fun t =>
      t.esw = { s.esw with shapers := s.esw.shapers.set (8 * port.toNat + cls.toNat) { slope := slope.toNat, credit := 0, last := s.now } } ∧
      Frame [.esw] s t) := by
  have does : shaperSet port.toNat cls.toNat (decide ((1 : Byte) = 1)) slope.toNat s =
      (s.modEsw (fun e => { e with shapers := e.shapers.set (8 * port.toNat + cls.toNat) { slope := slope.toNat, credit := 0, last := s.now } }),
      .ok []) := by
    unfold shaperSet
    dsimp only
    rw [decide_eq_false (Nat.not_le_of_lt room), Bool.and_false]
    rfl
  exact eswShaperSet_answers_of q small may class_ rate runs (by decide) does ⟨rfl, State.modEsw_frame ..⟩

theorem eswShaperSet_off : Answers (.eswShaperSet r port cls 0 slope) r 0x0807 stat_ok [] s (fun t =>
      t.esw = { s.esw with shapers := s.esw.shapers.erase (8 * port.toNat + cls.toNat) } ∧ Frame [.esw] s t) :=
  eswShaperSet_answers_of q small may class_ rate runs (u := s.modEsw (fun e => { e with shapers := e.shapers.erase (8 * port.toNat + cls.toNat) }))
    (by decide) rfl ⟨rfl, State.modEsw_frame ..⟩

theorem eswShaperSet_full (full : 4 ≤ s.esw.shaped port.toNat) (new : s.esw.shapers.get? (8 * port.toNat + cls.toNat) = none) :
    Answers (.eswShaperSet r port cls 1 slope) r 0x0807 stat_eswTableFull [] s (fun t => t = s) := by
  have does : shaperSet port.toNat cls.toNat (decide ((1 : Byte) = 1)) slope.toNat s = (s, .fail stat_eswTableFull) := by
    unfold shaperSet
    dsimp only
    rw [decide_eq_true full, new]
    rfl
  exact eswShaperSet_answers_of q small may class_ rate runs (by decide) does rfl

end

/-! ### Gates, filters, FRER and PLCA -/

/-- The gate list that the command carries. -/
def gateListOf (f : GateFields) : GateList :=
  { cycle := f.cycle.toNat, base := { sec := f.baseSec.toNat, ns := f.baseNs.toNat, frac := 0 },
    entries := f.entries.map (fun e => (e.1.toNat, e.2)) }

section
variable {f : GateFields} (q : Requested s r p (24 + 8 * f.entries.length)) (system : p.sysPriv = true) (clean : gateStat f = none)
  (runs : s.sys.mode.isRunLimpWork = true)
include q system clean runs

theorem eswGateSet_answers_of {post : State → Prop} (leaves : post (gateSet f s)) : Answers (.eswGateSet r f) r 0x0808 stat_ok [] s post :=
  answers_of_accepted q rfl (q.passes (decide_eq_true q.len) (Need.check_of_sysPriv system _) clean runs) rfl rfl leaves

theorem eswGateSet_port (target : f.target = 0) : Answers (.eswGateSet r f) r 0x0808 stat_ok [] s (fun t =>
      (t.esw.gates.getD .open_ f.port.toNat).admin = some {
        cycle := f.cycle.toNat, base := { sec := f.baseSec.toNat, ns := f.baseNs.toNat, frac := 0 }
        entries := f.entries.map (fun e => (e.1.toNat, e.2)) } ∧
      (t.esw.gates.getD .open_ f.port.toNat).oper = (s.esw.gates.getD .open_ f.port.toNat).oper ∧
      (∀ k, k ≠ f.port.toNat → t.esw.gates.getD .open_ k = s.esw.gates.getD .open_ k) ∧ Frame [.esw] s t) := by
  have esw : (gateSet f s).esw = { s.esw with gates := s.esw.gates.modify .open_ f.port.toNat (fun g => { g with admin := some (gateListOf f) }) } := if_pos target
  refine eswGateSet_answers_of q system clean runs ⟨?_, ?_, fun k other => ?_, gateSet_frame ..⟩
  · rw [esw, Tbl.getD_modify_same]
    rfl
  · rw [esw, Tbl.getD_modify_same]
  · rw [esw, Tbl.getD_modify_other _ _ _ _ _ other]

theorem eswGateSet_stream (target : f.target = 1) : Answers (.eswGateSet r f) r 0x0808 stat_ok [] s (fun t =>
      (t.esw.streamGates.getD .open_ f.gate.toNat).admin = some {
        cycle := f.cycle.toNat, base := { sec := f.baseSec.toNat, ns := f.baseNs.toNat, frac := 0 }
        entries := f.entries.map (fun e => (e.1.toNat, e.2)) } ∧
      (∀ k, k ≠ f.gate.toNat → t.esw.streamGates.getD .open_ k = s.esw.streamGates.getD .open_ k) ∧
      t.esw.gates = s.esw.gates ∧ Frame [.esw] s t) := by
  have esw : (gateSet f s).esw = { s.esw with streamGates := s.esw.streamGates.modify .open_ f.gate.toNat (fun g => { g with admin := some (gateListOf f) }) } :=
    if_neg (fun zero => absurd (target.symm.trans zero) (by decide))
  refine eswGateSet_answers_of q system clean runs ⟨?_, fun k other => ?_, ?_, gateSet_frame ..⟩
  · rw [esw, Tbl.getD_modify_same]
    rfl
  · rw [esw, Tbl.getD_modify_other _ _ _ _ _ other]
  · rw [esw]

end

theorem eswStreamFilter_answers {f : FilterFields} (q : Requested s r p 68) (may : p.mayUse (s.filterOwner f)) (clean : filterStat f = none)
    (runs : s.sys.mode.isRunLimpWork = true) : Answers (.eswStreamFilter r f) r 0x0809 stat_ok (le16 f.filter) s (fun t =>
      t.esw.filters = s.esw.filters.set f.filter.toNat { rec_ := f, blocked := false } ∧
      (f.meter ≠ 0xFFFF → t.esw.meters = s.esw.meters.set f.meter.toNat (Meter.ofFilter f s.now)) ∧
      (f.meter = 0xFFFF → t.esw.meters = s.esw.meters) ∧ t.esw.fdb = s.esw.fdb ∧ Frame [.esw] s t) :=
  answers_of_accepted q rfl (q.passes (decide_eq_true q.len) (Need.check_of_mayUse may) clean runs) rfl rfl
    ⟨rfl, fun metered => if_neg metered, fun plain => if_pos plain, rfl, State.modEsw_frame ..⟩

theorem eswStreamFilter_unknown {f : FilterFields} (q : Requested s r p 68) (may : p.mayUse (s.filterOwner f)) (unknown : 2 < f.method.toNat) :
    Answers (.eswStreamFilter r f) r 0x0809 stat_eswFeature [] s (fun t => t = s) := by
  have refused : filterStat f = some stat_eswFeature := by
    rw [filterStat, decide_eq_false (Nat.not_le_of_lt unknown)]
    rfl
  exact answers_of_rejected q rfl (q.refused (decide_eq_true q.len) (Need.check_of_mayUse may) refused) rfl rfl

theorem eswFrerSet_answers {f : FrerFields} (q : Requested s r p 16) (system : p.sysPriv = true) (clean : frerStat f = none)
    (runs : s.sys.mode.isRunLimpWork = true) : Answers (.eswFrerSet r f) r 0x080A stat_ok [] s (fun t =>
      t.esw.frer.get? f.fn.toNat = (if f.kind = 0 then none else
        some { rec_ := f, next := 0, takeAny := true, recv := 0, history := 0, last := s.now }) ∧
      (∀ k, k ≠ f.fn.toNat → t.esw.frer.get? k = s.esw.frer.get? k) ∧ Frame [.esw] s t) := by
  have table : (frerSet f s).esw.frer = if f.kind = 0 then s.esw.frer.erase f.fn.toNat else
      s.esw.frer.set f.fn.toNat { rec_ := f, next := 0, takeAny := true, recv := 0, history := 0, last := s.now } := rfl
  refine answers_of_accepted q rfl (q.passes (decide_eq_true q.len) (Need.check_of_sysPriv system _) clean runs) rfl rfl
    ⟨?_, fun k other => ?_, frerSet_frame ..⟩
  · rw [table]
    split
    · exact Tbl.get?_erase_same ..
    · exact Tbl.get?_set_same ..
  · rw [table]
    split
    · exact Tbl.get?_erase_other _ other
    · exact Tbl.get?_set_other _ _ other

theorem eswPlcaSet_answers {f : PlcaFields} (q : Requested s r p 8) (system : p.sysPriv = true) (clean : plcaStat f = none)
    (runs : s.sys.mode.isRunLimpWork = true) : Answers (.eswPlcaSet r f) r 0x080B stat_ok [] s (fun t =>
      t.swp f.port.toNat = { s.swp f.port.toNat with
        plca := { en := decide (f.enable = 1), node := f.node.toNat, count := f.count.toNat, toTimer := f.toTimer.toNat,
                  burst := f.burst.toNat, burstTimer := f.burstTimer.toNat }
        plcaAct := decide (f.enable = 1), plcaLost := false } ∧
      (∀ q, q ≠ f.port.toNat → t.swp q = s.swp q) ∧ Frame [.esw] s t) :=
  answers_of_accepted q rfl (q.passes (decide_eq_true q.len) (Need.check_of_sysPriv system _) clean runs) rfl rfl
    ⟨State.modSwp_same .., fun _ other => State.modSwp_other _ _ _ _ other, plcaSet_frame ..⟩

theorem eswPlcaSet_absent {f : PlcaFields} (q : Requested s r p 8) (system : p.sysPriv = true) (other : isS f.port.toNat = false) :
    Answers (.eswPlcaSet r f) r 0x080B stat_eswPort [] s (fun t => t = s) := by
  have refused : plcaStat f = some stat_eswPort := by
    rw [plcaStat, other]
    rfl
  exact answers_of_rejected q rfl (q.refused (decide_eq_true q.len) (Need.check_of_sysPriv system _) refused) rfl rfl

/-! ### Audits and counts -/

section
variable {policy : Byte} {t : U16} {a b : Int} {l : List LooseCell} (q : Requested s r p 4) (system : p.sysPriv = true) (named : policy.toNat ≤ 1)
  (runs : s.sys.mode.isRunLimpWork = true)
include q system named runs

theorem eswAudit_set (some_ : 1 ≤ t.toNat) (inside : t.toNat ≤ 1000) :
    Answers (.eswAudit r 1 policy t a b l) r 0x080C stat_ok s.esw.auditBytes s (fun u =>
      u.esw = { s.esw with reclaim := decide (policy = 1), tAud := t.toNat } ∧ Frame [.esw] s u) := by
  refine answers_of_accepted (u := s.modEsw (fun e => { e with reclaim := decide (policy = 1), tAud := t.toNat })) q rfl
    (q.passes (decide_eq_true q.len) (Need.check_of_sysPriv system _) ?_ runs) rfl rfl ⟨rfl, State.modEsw_frame ..⟩
  rw [decide_eq_true named, decide_eq_true some_, decide_eq_true inside]
  rfl

theorem eswAudit_now : Gives (.eswAudit r 0 policy t a b l) s (fun x => ∃ u, x = respond r 0x080C stat_ok u.esw.auditBytes u ∧ u.esw.auditAt = s.now ∧
      u.esw.loose = l ∧ u.esw.comparing = true ∧ u.esw.tAud = s.esw.tAud ∧ Frame [.mbx, .log, .vz, .esw] s u) := by
  have clean : orStat (needStat (decide ((0 : Byte).toNat ≤ 1) && decide (policy.toNat ≤ 1)) stat_badPayload)
      (needStat (decide ((0 : Byte) = 0) || (decide (1 ≤ t.toNat) && decide (t.toNat ≤ 1000))) stat_range) = none := by
    rw [decide_eq_true named]
    rfl
  obtain ⟨u, answered, rfl⟩ := answers_of_accepted (c := .eswAudit r 0 policy t a b l) (u := audit a b l s) (post := fun u => u = audit a b l s) q rfl
    (q.passes (decide_eq_true q.len) (Need.check_of_sysPriv system _) clean runs) rfl rfl rfl
  have esw := audit_esw a b l s
  refine ⟨_, answered, audit a b l s, rfl, ?_, ?_, ?_, ?_, audit_frame ..⟩
  · rw [esw]; rfl
  · rw [esw]; rfl
  · rw [esw]; rfl
  · rw [esw]; rfl

end

theorem eswStats_answers {clear : Byte} (q : Requested s r p 4) (named : clear.toNat ≤ 1) (serves : s.sys.mode.isServing = true) :
    Answers (.eswStats r clear) r 0x080D stat_ok s.esw.stats.bytes s (fun u =>
      u.esw = (if clear = 1 then { s.esw with stats := .zero } else s.esw) ∧ Frame [.esw] s u) := by
  refine answers_of_accepted q rfl (q.passes (decide_eq_true q.len) rfl (needStat_eq_none.mpr (decide_eq_true named)) serves) rfl rfl ⟨?_, ?_⟩
  · split
    · rfl
    · rfl
  · exact .ite (State.modEswStats_frame ..) (.refl _ _)

end

/-- Settles O43: each clause is the lemma of its command. Pots are log entry 73, a stream's handle 75, the lengths of gate lists 76 and PLCA 78. -/
theorem switchCommandsAct : Obligations.SwitchCommandsAct := by
  unfold Obligations.SwitchCommandsAct
  refine ⟨?port, ?noPort, ?vlan, ?fdbAdd, ?fdbFull, ?fdbDel, ?fdbAbsent, ?pot, ?potShort, ?potStatus, ?shaperOn, ?shaperOff, ?shaperFull, ?portGate,
    ?streamGate, ?filter, ?noMethod, ?frer, ?plca, ?noPlca, ?auditSet, ?auditNow, ?stats⟩
  case port => exact fun s r p port => eswPortStatus_answers
  case noPort => exact fun s r p port => eswPortStatus_absent
  case vlan => exact fun s r p vid m u => eswVlanSet_answers
  case fdbAdd => exact fun s r p f rest q may clean runs => eswFdbAdd_answers q may clean runs
  case fdbFull => exact fun s r p f => eswFdbAdd_full
  case fdbDel => exact fun s r p mac vid e q found may runs => eswFdbDel_answers q runs found may
  case fdbAbsent => exact fun s r p mac vid q absent runs => eswFdbDel_absent q runs absent
  case pot => exact fun s r p f => eswPotConfig_answers
  case potShort => exact fun s r p f => eswPotConfig_short
  case potStatus => exact fun s r p pot => eswPotStatus_answers
  case shaperOn => exact fun s r p port cls slope => eswShaperSet_on
  case shaperOff => exact fun s r p port cls slope => eswShaperSet_off
  case shaperFull => exact fun s r p port cls slope => eswShaperSet_full
  case portGate => exact fun s r p f => eswGateSet_port
  case streamGate => exact fun s r p f => eswGateSet_stream
  case filter => exact fun s r p f => eswStreamFilter_answers
  case noMethod => exact fun s r p f => eswStreamFilter_unknown
  case frer => exact fun s r p f => eswFrerSet_answers
  case plca => exact fun s r p f => eswPlcaSet_answers
  case noPlca => exact fun s r p f => eswPlcaSet_absent
  case auditSet => exact fun s r p policy t a b l q system named some_ inside runs => eswAudit_set q system named runs some_ inside
  case auditNow => exact fun s r p policy t a b l => eswAudit_now
  case stats => exact fun s r p clear => eswStats_answers

end Sys2Proof.Machine
end
